-- ==== Sys2Proof/Word.lean ====
section
/-! DEFINITION. The word types of the PL9 and their plainest arithmetic. -/

namespace Sys2Proof

/-- One byte of memory or of a message. -/
abbrev Byte := BitVec 8
/-- A BAR0 register, or a thread register (R8, R166). -/
abbrev Word := BitVec 32
/-- A 64-bit quantity (R9). -/
abbrev Dword := BitVec 64

/-- Bits `hi` down to `lo` of `n`, as the manual writes `[hi:lo]`. -/
def bitsOf (n hi lo : Nat) : Nat := (n / 2 ^ lo) % 2 ^ (hi + 1 - lo)

/-- Bit `i` of `n`. -/
def bitOf (n i : Nat) : Bool := (n / 2 ^ i) % 2 == 1

/-- `n` with bits `hi` down to `lo` replaced by `v`. -/
def putBits (n hi lo v : Nat) : Nat :=
  n - bitsOf n hi lo * 2 ^ lo + (v % 2 ^ (hi + 1 - lo)) * 2 ^ lo

/-- One bit as a number. -/
def b2n (b : Bool) : Nat := if b then 1 else 0

end Sys2Proof
end

