-- ==== Sys2Proof/Syntax.lean ====
section
/-! DEFINITION. The commands of the PL9, one constructor per row of spec/opcode_table.json, and the operands they carry. -/

namespace Sys2Proof

/-- A function of a host port (R363, R365): the PF, or VF `k + 1`, which serves partition P`k`. -/
inductive Func where
  | pf (port : Fin 2)
  | vf (port : Fin 2) (k : Fin 16)
deriving DecidableEq, Repr

/-- A requester of the register space (R9): a function of a port, or firmware. -/
inductive Req where
  | fn (f : Func)
  | firmware
deriving DecidableEq, Repr

/-- A thread group by logical core and slot (R166). -/
structure GroupId where
  core : Fin 64
  slot : Fin 64
deriving DecidableEq, Repr

/-- An instruction word less its OP (Table 9.2); `ext` is the extension word when EXT is 1, and `parity` says that its line of
the instruction cache had a parity error and was fetched again (R251). -/
structure Insn where
  d : BitVec 7 := 0
  a : BitVec 7 := 0
  b : BitVec 7 := 0
  c : BitVec 7 := 0
  pred : BitVec 3 := 7
  pneg : Bool := false
  mod : BitVec 7 := 0
  imm : BitVec 16 := 0
  ext : Option (BitVec 64) := none
  parity : Bool := false
deriving DecidableEq, Repr

/-- What a code over stored bits shows when a word or sector is read (R123, R242, R259). -/
inductive Ecc where
  | clean
  | correctable
  | uncorrectable
deriving DecidableEq, Repr

/-- A change token by its fields (Table 20.2), the bytes its signatures cover, the signatures, and what follows the token.
Slots and signatures stand in the order OWNER RSA, OWNER SLH, TENANT RSA, TENANT SLH. -/
structure TokenIn where
  magic : Nat
  format : Nat
  kind : Nat
  serial : Nat
  seq : Nat
  arg : Nat
  digest : Nat
  slots : Nat × Nat × Nat × Nat
  signed : List Byte
  sigs : List (List Byte)
  blob : List Byte
deriving DecidableEq, Repr

/-- Who issues a memory access (R248, Table 14.4); `device` is the module's own units, which are no master there. -/
inductive Agent where
  | core (g : GroupId)
  | jig (ch : Fin 320)
  | host (port : Fin 2)
  | remote (die : Fin 4)
  | mirror
  | device
deriving DecidableEq, Repr

/-- What an access asks of the lining: a read, a write of bytes, or a reduction of Table 10.5 (an update, R238). -/
inductive LinOp where
  | read (len : Nat)
  | write (bytes : List Byte)
  | reduce (code : BitVec 4) (bytes : List Byte)
deriving DecidableEq, Repr

/-- An access on its way to the lining (R224). `victim` is the line the set gives up where the access allocates and no
way is free (R240: the choice is not architectural); `ecc` is what the parities of the sectors it finds show. -/
structure LinAccess where
  agent : Agent
  part : Fin 16
  addr : BitVec 48
  op : LinOp
  urgency : BitVec 2
  ecc : Ecc
  victim : Option (BitVec 48)
deriving DecidableEq, Repr

/-- What a configuration write leaves in a function's configuration space: MSI-X Enable and function mask, VF Enable and NumVFs of a
PF, the size of BAR2 as a power of two above 256 MiB, the BAR addresses, and whether the function is in D3hot (R364, R366). -/
structure CfgWrite where
  msixEnable : Bool
  fmask : Bool
  vfEnable : Bool
  numVfs : Fin 17
  bar2Log : Fin 13
  bar0 : BitVec 64
  bar2 : BitVec 64
  bar4 : BitVec 64
  d3 : Bool
deriving DecidableEq, Repr

/-- What a request of the management interface asks: a sensor, an effecter, or a record of the PDR repository (R386, R387); or
the bus owner assigns the endpoint ID, for which the table has no row of its own (R386; DESIGN CHOICE, log entry 11). -/
inductive PldmGet where
  | sensor (id : Nat)
  | effecter (id : BitVec 16)
  | pdr (n : Nat)
  | setEid (eid : BitVec 8)
deriving DecidableEq, Repr

/-- The transport of an SPDM exchange (R456): the DOE mailbox of a function, or MCTP. -/
inductive Transport where
  | doe (f : Func)
  | mctp
deriving DecidableEq, Repr

/-- How a bring-up step or stack reset phase ends (Table 21.1, Table 21.3): what training, tests and NOR showed. -/
inductive StepEnd where
  | done
  | time
  | link
  | stack
  | unit (id : BitVec 16)
deriving DecidableEq, Repr

/-- Causes of a module reset as PWR.LAST_RESET reads them (Table 17.11). -/
abbrev ResetCause := Fin 12

/-- The commands of the block: one constructor per row of the table. -/
inductive Instr where
  /-- REGISTER_WRITE (R11): A write to a BAR0 register that has no row of its own sets, clears or ignores fields according to
  its access type. `same` says that it falls in the clock cycle of the commands before it (R12). -/
  | registerWrite (r : Req) (off : BitVec 28) (width : Nat) (v : Word) (same : Bool)
  /-- LOW_WORD_READ (R9): A read of the low word of a 64-bit register latches the high word for that requester. -/
  | lowWordRead (r : Req) (off : BitVec 28) (width : Nat)
  /-- HIGH_WORD_READ (R9): A read of the high word returns and consumes the requester's latch, or the current high word if it
  holds no latch. -/
  | highWordRead (r : Req) (off : BitVec 28) (width : Nat)
  /-- LOW_WORD_WRITE (R9): A write of the low word of a 64-bit register is held for that requester. -/
  | lowWordWrite (r : Req) (off : BitVec 28) (v : Word)
  /-- HIGH_WORD_WRITE (R9): A write of the high word applies the held low write together with it, or the high half alone. -/
  | highWordWrite (r : Req) (off : BitVec 28) (v : Word)
  /-- BASTE (R33): PTN.CMD BASTE opens a basting and copies the running pattern into the staged copy, or is refused. -/
  | baste (f : Func) (scope : Bool) (p : Fin 16)
  /-- LOAD (R31): PTN.CMD LOAD starts reading a pattern image or change token into the open basting, or is refused. -/
  | load (f : Func)
  /-- LOAD_DONE (R31): A running load ends, merging the image or staging the token, or failing and unpicking the basting. -/
  | loadDone (ecc : Ecc)
  /-- SEW (R33): PTN.CMD SEW moves OPEN to SEWING and starts validation of the staged copy. -/
  | sew (f : Func)
  /-- VALIDATION_DONE (R33): Validation ends, moving the basting to ARMED or unpicking it with the failing code and detail. -/
  | validationDone
  /-- UNPICK (R33): PTN.CMD UNPICK discards the staged copy and returns the basting to IDLE. -/
  | unpick (f : Func)
  /-- PATCH_DATA (R35): A write of PTN.PATCH_DATA patches 4 bytes of the staged REGULATORS or TICK section, or is refused. -/
  | patchData (f : Func) (v : Word)
  /-- BASTING_TIMEOUT (R37): An OPEN basting without an accepted SEW for 10 s is unpicked with E_PTN_TIMEOUT. -/
  | bastingTimeout
  /-- COMMIT (R42): At the first base boundary where every affected partition holds, every staged change takes effect at once. -/
  | commit
  /-- CUTTING_LIST_COPY (R283): After earlier PANEL commands complete, the device copies the partition's list area to CUT_BASE. -/
  | cuttingListCopy (p : Fin 16)
  /-- BASE_BOUNDARY (R56): A base tick ends: the next begins with length BASE_PERIOD + c and TICK.COUNT increments. -/
  | baseBoundary
  /-- SYNC_IN_EDGE (R55): A filtered SYNC_IN edge is accepted or ignored, and an accepted edge sets the demand from the phase
  error. -/
  | syncInEdge (falling : Bool) (cycles : Nat)
  /-- SYNC_LOST_TIMEOUT (R58): 2 × K base periods pass without an accepted edge and SYNC_LOST is set. -/
  | syncLostTimeout
  /-- FIT_CLOSE (R152): When the tick program ends, the fitting unit closes every fit id of the partition. -/
  | fitClose (p : Fin 16)
  /-- FIT_REC_READ (R146): A read of TICK.FIT_REC word 0 latches the whole fit record of FIT_SEL.ID. -/
  | fitRecRead (r : Req)
  /-- PANEL_LOAD (R107): A queued LOAD starts and writes one weight tile into each addressed panel's buffer. -/
  | panelLoad (c : Fin 64) (ecc : Ecc)
  /-- PASS (R105): A queued PASS starts streaming activation rows through the stationary weights. -/
  | pass (c : Fin 64) (ecc : Ecc)
  /-- DRAIN (R115): A queued DRAIN starts reading accumulator rows, scaling, encoding and writing them out. `desc` is what the
  parity of its cached descriptor, or the codes over a descriptor it fetches, show (R251). -/
  | drain (c : Fin 64) (ecc desc : Ecc)
  /-- BIND (R144): A queued BIND records a descriptor address in a slot and zeroes its flag word. -/
  | bind (c : Fin 64)
  /-- PANEL_FENCE (R120): A queued FENCE starts, and completes, once every earlier command is complete. -/
  | panelFence (c : Fin 64)
  /-- COMMAND_COMPLETE (R121): A running PANEL command completes and increments its completion counter. -/
  | commandComplete (c : Fin 64) (k : Nat)
  /-- PANEL_QUEUE_STALL_END (R119): A group stalled on a full PANEL queue places its command once an entry frees. -/
  | panelQueueStallEnd (g : GroupId)
  /-- PROOF_GROUP_START (R160): The device starts a proof group in a free reserved slot and hands it a waiting job. -/
  | proofGroupStart (c : Fin 64)
  /-- NOP (R198): NOP does nothing. `op` is 0x00, or an opcode that Table 9.3 does not have. -/
  | nop (g : GroupId) (op : BitVec 8) (i : Insn)
  /-- BR (R199): BR sends effective lanes to its target and may diverge onto the reconvergence stack. -/
  | br (g : GroupId) (i : Insn)
  /-- END (R199): END removes its effective lanes from the group for good. -/
  | endLanes (g : GroupId) (i : Insn)
  /-- SPAWN (R200): SPAWN starts a group in a free general slot with passed registers. -/
  | spawn (g : GroupId) (i : Insn)
  /-- BAR (R201): BAR arrives at a barrier and waits until the named count of groups has arrived. -/
  | bar (g : GroupId) (i : Insn)
  /-- PARKACT (R202): The supervisor applies a park action to a slot of its core. -/
  | parkact (g : GroupId) (i : Insn)
  /-- PREGRD (R202): The supervisor reads a register of a parked group. -/
  | pregrd (g : GroupId) (i : Insn)
  /-- PREGWR (R202): The supervisor writes a register of a parked group. -/
  | pregwr (g : GroupId) (i : Insn)
  /-- IADD (R198): Integer add, wrapping modulo 2^32. -/
  | iadd (g : GroupId) (i : Insn)
  /-- ISUB (R198): Integer subtract, wrapping modulo 2^32. -/
  | isub (g : GroupId) (i : Insn)
  /-- IMUL (R198): Integer multiply, low 32 bits. -/
  | imul (g : GroupId) (i : Insn)
  /-- IMULHI (R485): Upper 32 bits of the signed or unsigned 64-bit product. -/
  | imulhi (g : GroupId) (i : Insn)
  /-- IAND (R198): Bitwise AND. -/
  | iand (g : GroupId) (i : Insn)
  /-- IOR (R198): Bitwise OR. -/
  | ior (g : GroupId) (i : Insn)
  /-- IXOR (R198): Bitwise exclusive OR. -/
  | ixor (g : GroupId) (i : Insn)
  /-- INOT (R198): Bitwise complement. -/
  | inot (g : GroupId) (i : Insn)
  /-- SHL (R485): Logical shift left by an unsigned count. -/
  | shl (g : GroupId) (i : Insn)
  /-- SHR (R485): Logical shift right by an unsigned count. -/
  | shr (g : GroupId) (i : Insn)
  /-- SAR (R485): Arithmetic shift right by an unsigned count. -/
  | sar (g : GroupId) (i : Insn)
  /-- IMIN (R485): Signed or unsigned integer minimum. -/
  | imin (g : GroupId) (i : Insn)
  /-- IMAX (R485): Signed or unsigned integer maximum. -/
  | imax (g : GroupId) (i : Insn)
  /-- ISETP (R485): Integer comparison written to a predicate. -/
  | isetp (g : GroupId) (i : Insn)
  /-- FADD (R198): FP32 add, round to nearest even. -/
  | fadd (g : GroupId) (i : Insn)
  /-- FSUB (R198): FP32 subtract, round to nearest even. -/
  | fsub (g : GroupId) (i : Insn)
  /-- FMUL (R198): FP32 multiply, round to nearest even. -/
  | fmul (g : GroupId) (i : Insn)
  /-- FFMA (R198): FP32 fused multiply-add. -/
  | ffma (g : GroupId) (i : Insn)
  /-- FMIN (R485): FP32 minimum with NaN and signed-zero rules. -/
  | fmin (g : GroupId) (i : Insn)
  /-- FMAX (R485): FP32 maximum with NaN and signed-zero rules. -/
  | fmax (g : GroupId) (i : Insn)
  /-- FABS (R198): FP32 absolute value. -/
  | fabs (g : GroupId) (i : Insn)
  /-- FNEG (R198): FP32 negation. -/
  | fneg (g : GroupId) (i : Insn)
  /-- FSETP (R485): FP32 comparison written to a predicate. -/
  | fsetp (g : GroupId) (i : Insn)
  /-- FRCP (R198): Correctly rounded FP32 reciprocal. -/
  | frcp (g : GroupId) (i : Insn)
  /-- CVT (R214): Converts between formats under the conversion control, forming scaled blocks across the group. -/
  | cvt (g : GroupId) (i : Insn)
  /-- F2I (R485): Converts FP32 to a 32-bit integer with saturation. -/
  | f2i (g : GroupId) (i : Insn)
  /-- I2F (R485): Converts an integer to FP32. -/
  | i2f (g : GroupId) (i : Insn)
  /-- MOV (R197): Moves a register or immediate to a register. -/
  | mov (g : GroupId) (i : Insn)
  /-- MOVI (R485): Writes an immediate to a register. -/
  | movi (g : GroupId) (i : Insn)
  /-- MOVS (R216): Writes a special value, optionally clearing the conversion status. -/
  | movs (g : GroupId) (i : Insn)
  /-- PMOV (R485): Moves predicates to a register or a register to predicates. -/
  | pmov (g : GroupId) (i : Insn)
  /-- LD (R203): Loads from device memory into registers. -/
  | ld (g : GroupId) (i : Insn)
  /-- ST (R203): Stores registers to device memory. -/
  | st (g : GroupId) (i : Insn)
  /-- LDS (R204): Loads from staging memory. -/
  | lds (g : GroupId) (i : Insn)
  /-- STS (R204): Stores to staging memory. -/
  | sts (g : GroupId) (i : Insn)
  /-- FENCE (R205): Orders the group's earlier accesses at the selected scope. -/
  | fence (g : GroupId) (i : Insn)
  /-- CINV (R205): Invalidates the core's constant and/or descriptor cache. -/
  | cinv (g : GroupId) (i : Insn)
  /-- ATOM (R206): Performs an atomic operation per distinct address and returns old values. -/
  | atom (g : GroupId) (i : Insn)
  /-- CLAMP_ACQ (R207): Acquires clamp words, recording waits for the lanes that fail. -/
  | clampAcq (g : GroupId) (i : Insn)
  /-- CLAMP_REL (R207): Releases clamp words that hold the lane's tag. -/
  | clampRel (g : GroupId) (i : Insn)
  /-- SIGNAL (R208): Adds an increment to signal words as a release. -/
  | signal (g : GroupId) (i : Insn)
  /-- WAITSIG (R209): Waits until every lane's signal word reaches its threshold. -/
  | waitsig (g : GroupId) (i : Insn)
  /-- ADM (R217): Reads the admission list count or a word of an admitted entry. -/
  | adm (g : GroupId) (i : Insn)
  /-- COMPLETE (R218): Writes completion entries for the step's sheet. -/
  | complete (g : GroupId) (i : Insn)
  /-- PJOB (R220): A proof group reads a word of its job record. -/
  | pjob (g : GroupId) (i : Insn)
  /-- PANEL (R210): Checks an eight-word command and places it in the core's PANEL queue. -/
  | panel (g : GroupId) (i : Insn)
  /-- CTRRD (R211): Reads a completion counter. -/
  | ctrrd (g : GroupId) (i : Insn)
  /-- CTRWAIT (R211): Waits until a completion counter reaches a target. -/
  | ctrwait (g : GroupId) (i : Insn)
  /-- FLAGRD (R212): Reads and optionally clears a flag word. -/
  | flagrd (g : GroupId) (i : Insn)
  /-- FITBIND (R213): Sets the fit binding of a flag-word target. -/
  | fitbind (g : GroupId) (i : Insn)
  /-- PROOFPOST (R220): A proof group posts its error sums and ends. -/
  | proofpost (g : GroupId) (i : Insn)
  /-- MEMORY_REQUEST_COMPLETE (R179): A group's memory request is performed or fails, and a failing instruction parks its group
  at completion. -/
  | memoryRequestComplete (g : GroupId) (k : Nat) (ecc : Ecc)
  /-- RELEASE_NOTICE (R186): A release notice from a home slice wakes a lane's clamp wait. -/
  | releaseNotice (g : GroupId) (addr : BitVec 48)
  /-- WAIT_NOTICE (R209): A notice at a write to a signal word makes a waiting group re-read its words. -/
  | waitNotice (g : GroupId) (addr : BitVec 48)
  /-- CLAMP_DEADLOCK (R187): A group waiting only on its own lanes' clamps is parked with F_CLAMPDEADLOCK. -/
  | clampDeadlock (g : GroupId)
  /-- WATCHDOG_EXPIRY (R188): A group's watchdog count reaches 2^24 and the group parks with F_NOPROGRESS. -/
  | watchdogExpiry (g : GroupId)
  /-- PARK_REPLAY (R190): CORE.PARK_ACT REPLAY re-issues the faulted instruction of a parked group. -/
  | parkReplay (f : Func) (g : GroupId)
  /-- PARK_SKIP (R190): CORE.PARK_ACT SKIP continues a parked group after the faulted instruction. -/
  | parkSkip (f : Func) (g : GroupId)
  /-- PARK_DROP (R190): CORE.PARK_ACT DROP ends a parked group and frees its slot. -/
  | parkDrop (f : Func) (g : GroupId)
  /-- PREG_DATA_WRITE (R192): A host write of CORE.PREG_DATA writes a register of a parked group. -/
  | pregDataWrite (f : Func) (c : Fin 64) (v : Word)
  /-- LINING_ACCESS (R228): An access reaches its home slice or pinned way and is served, allocated or fetched. -/
  | liningAccess (x : LinAccess)
  /-- SECTOR_FILL (R229): A fetched sector returns, is installed and is multicast to every joined requester. -/
  | sectorFill (line : BitVec 48) (sector : Fin 4) (ecc : Ecc)
  /-- UPDATE_PERFORM (R239): The next queued update of a line is performed at its home slice. -/
  | updatePerform (line : BitVec 48)
  /-- RECALL_COMPLETE (R232): Every invalidation of a line's copies is acknowledged and the waiting write proceeds. -/
  | recallComplete (line : BitVec 48)
  /-- WRITEBACK_ACCEPTED (R241): The HBM controller accepts a write-back and the buffer entry frees. -/
  | writebackAccepted (line : BitVec 48)
  /-- SCRUB_TURN (R244): A slice's scrubber serves its stale queue or sweeps the next sector. -/
  | scrubTurn (die : Fin 6) (slice : Fin 256) (ecc : Ecc)
  /-- THRASH_WINDOW_END (R250): A dead-eviction window ends and the THRASH event is raised or re-armed. -/
  | thrashWindowEnd (die : Fin 6) (slice : Fin 256)
  /-- LIN_CLEAR (R247): LIN.CLEAR GO starts clearing every sector before READY. -/
  | linClear (f : Func)
  /-- LIN_CLEAR_DONE (R247): The lining clear completes and CLEAR_BUSY falls. -/
  | linClearDone
  /-- PIN (R236): LIN.PINCMD PIN requests pinning of a dynamic region at the next step. -/
  | pin (f : Func) (region : Fin 256)
  /-- UNPIN (R236): LIN.PINCMD UNPIN requests unpinning of a dynamic region at the next step. -/
  | unpin (f : Func) (region : Fin 256)
  /-- FLUSH (R237): LIN.PINCMD FLUSH starts writing back every dirty sector of a partition. -/
  | flush (f : Func) (p : Fin 16)
  /-- FLUSH_DONE (R237): HBM acknowledges every flush write and the command completes. -/
  | flushDone
  /-- HOMEQ_LOOKUP (R225): A write of LIN.HOMEQ looks up the home slice and set of an HBM address. -/
  | homeqLookup (r : Req) (addr : BitVec 48)
  /-- HBM_SECTOR_ACCESS (R259): A controller reads or writes a sector and resolves its metadata. -/
  | hbmSectorAccess (addr : BitVec 48) (part : Option (Fin 16)) (write : Option (List Byte)) (ecc : Ecc)
  /-- PATROL_TURN (R261): A controller patrols the next CLASS_W sector. -/
  | patrolTurn (pch : Fin 768) (ecc : Ecc)
  /-- HBM_TEMP_REPORT (R270): A base die reports layer temperatures and the stack's thermal state is judged. -/
  | hbmTempReport (stack : Fin 12) (temps : List (Option Int))
  /-- HBM_STOP_TIMEOUT (R272): A request waiting 20 ms on a stopped stack fails with E_TIMEOUT. -/
  | hbmStopTimeout (stack : Fin 12)
  /-- HBM_CONDEMN (R267): HBM.CONDEMN GO from a physical function condemns a pseudo-channel. -/
  | hbmCondemn (f : Func) (pch : BitVec 10)
  /-- JIG_GO (R290): JIG.CHn.CTL GO clears an idle channel's state and starts its program. -/
  | jigGo (f : Func) (ch : Fin 320)
  /-- JIG_STOP (R290): JIG.CHn.CTL STOP halts issue and returns the channel to IDLE. -/
  | jigStop (f : Func) (ch : Fin 320)
  /-- MOVE (R294): A jig MOVE copies or reduces bytes in linear or descriptor form. -/
  | move (ch : Fin 320) (w : BitVec 128)
  /-- LOOP (R302): A jig LOOP advances its level's count and accumulators and branches back. -/
  | loop (ch : Fin 320) (w : BitVec 128)
  /-- WAIT (R303): A jig WAIT holds the channel until a signal word, tick or fence condition holds. -/
  | wait (ch : Fin 320) (w : BitVec 128)
  /-- JIG_WAIT_END (R303): A waiting channel's condition comes to hold and it continues. -/
  | jigWaitEnd (ch : Fin 320)
  /-- JIG_SIGNAL (R304): A jig SIGNAL waits for earlier MOVEs and adds its increment to a signal word. -/
  | jigSignal (ch : Fin 320) (w : BitVec 128)
  /-- JIG_END (R305): A jig END stores the CRC record, raises END_PEND and restarts or idles. -/
  | jigEnd (ch : Fin 320) (w : BitVec 128)
  /-- JIG_ACCESS_COMPLETE (R306): A channel's access completes or fails, and a failure marks its MOVE bad. -/
  | jigAccessComplete (ch : Fin 320) (write : Bool) (ecc : Ecc)
  /-- JIG_FETCH_FAIL (R307): A failed instruction fetch or non-executable program puts the channel in FAULTED. -/
  | jigFetchFail (ch : Fin 320) (code : Option (BitVec 16))
  /-- RESUME_CONTINUE (R308): JIG.ENGe RESUME 1 returns stopped channels to RUNNING past the failed MOVE. -/
  | resumeContinue (f : Func) (e : Fin 10)
  /-- RESUME_RETRY (R308): JIG.ENGe RESUME 2 returns stopped channels to RUNNING and retries the failed MOVE. -/
  | resumeRetry (f : Func) (e : Fin 10)
  /-- PL7_WRITE (R308): A write of JIG.ENGe.PL7 takes effect only while every channel of the engine is IDLE. -/
  | pl7Write (f : Func) (e : Fin 10) (on : Bool)
  /-- LANE_ERROR_WINDOW_END (R320): A lane's check-error window ends and the lane fails if its count reached LIMIT. -/
  | laneErrorWindowEnd (link : Fin 11) (dir : Fin 2) (group : Fin 8) (lane : Fin 68) (errors : Nat)
  /-- LANE_LOCK_LOSS (R320): A dowel lane loses lock and fails. -/
  | laneLockLoss (link : Fin 11) (dir : Fin 2) (group : Fin 8) (lane : Fin 68)
  /-- REGULATOR_WINDOW_START (R332): A regulator window begins, allowances are renewed and guarantee misses are recorded. -/
  | regulatorWindowStart
  /-- LINK_TRAINING_RETRY (R340): A DOWN spline link begins training at once or after RETRAIN_MS. -/
  | linkTrainingRetry (n : Fin 64)
  /-- LINK_TRAINING_END (R340): Training completes or fails within 500 ms. -/
  | linkTrainingEnd (n : Fin 64) (good : BitVec 4)
  /-- INIT (R342): An INIT flit is received, the peer is recorded and the link enters service. -/
  | init (n : Fin 64) (flit : List Byte)
  /-- DATA (R343): A DATA flit is received, accepted in sequence or discarded with a NAK. -/
  | data (n : Fin 64) (fecBad : Bool) (flit : List Byte)
  /-- NAK (R343): A NAK flit makes the sender resend every unacknowledged flit. -/
  | nak (n : Fin 64) (flit : List Byte)
  /-- REPLAY_TIMEOUT (R343): No ACK advances for 4 µs and unacknowledged flits are resent. -/
  | replayTimeout (n : Fin 64)
  /-- SPLINE_LANE_FAIL (R341): A spline lane fails and the link degrades to UP2 or goes DOWN. -/
  | splineLaneFail (n : Fin 64) (lane : Fin 4) (symbols : Option (BitVec 32))
  /-- LINK_DISABLE (R341): SPL.LINKCTL.DISABLE takes a link out of service and holds it DISABLED. -/
  | linkDisable (f : Func) (n : Fin 64)
  /-- LINK_RETRAIN (R343): SPL.LINKCTL.RETRAIN retrains an in-service link and attempts UP4. -/
  | linkRetrain (f : Func) (n : Fin 64)
  /-- WRITE (R353): A WRITE message is forwarded, or resolved through an exposure and performed. -/
  | write (n : Fin 64)
  /-- READ (R353): A READ message is forwarded, or resolved through an exposure and answered. -/
  | read (n : Fin 64)
  /-- READ_RESP (R348): A READ_RESP completes its outstanding request entry or is discarded. -/
  | readResp (n : Fin 64)
  /-- REDUCE (R349): A REDUCE message applies a reduction or atomic at the target. -/
  | reduce (n : Fin 64)
  /-- SIGNAL_MESSAGE (R350): A SIGNAL message adds ARG to a signal word and wakes its waiters. -/
  | signalMessage (n : Fin 64)
  /-- TICKMARK (R351): A TICKMARK adds 1 to the resolved word and wakes its waiters. -/
  | tickmark (n : Fin 64)
  /-- MIRROR_DATA (R478): A MIRROR DATA message is placed in the standby's mirror buffer. -/
  | mirrorData (n : Fin 64)
  /-- MIRROR_SHEET (R478): A MIRROR SHEET message is placed in the standby's mirror buffer. -/
  | mirrorSheet (n : Fin 64)
  /-- MIRROR_COMMIT (R478): A MIRROR COMMIT is checked and the step's delta is applied, or the module becomes STALE. -/
  | mirrorCommit (n : Fin 64)
  /-- HEARTBEAT (R474): A HEARTBEAT from the peer is received and matched against the module's own settings. -/
  | heartbeat (n : Fin 64)
  /-- REQ_TIMEOUT (R359): An outstanding spline request without READ_RESP fails with E_TIMEOUT. -/
  | reqTimeout (die : Fin 4) (entry : Fin 4096)
  /-- BAR2_READ (R369): A BAR2 read is split into sector requests through the aperture. -/
  | bar2Read (f : Func) (off : BitVec 40) (len : Nat)
  /-- BAR2_WRITE (R369): A BAR2 write is split into sector requests through the aperture. -/
  | bar2Write (f : Func) (off : BitVec 40) (bytes : List Byte) (enable : List Bool)
  /-- BAR2_READ_TIMEOUT (R369): A BAR2 read not completed in 30 ms completes with Completer Abort. -/
  | bar2ReadTimeout (f : Func)
  /-- BAR4_WRITE (R372): A host write to a partition's BAR4 area is performed in arrival order. -/
  | bar4Write (f : Func) (off : BitVec 24) (bytes : List Byte)
  /-- APBASE_WRITE (R368): A write of GLB.APBASE is rounded down to a multiple of the BAR2 size. -/
  | apbaseWrite (f : Func) (v : BitVec 48)
  /-- PORT_RESET (R375): PERST#, hot reset, link-down or PF FLR resets one port's functions. -/
  | portReset (port : Fin 2) (flr : Bool)
  /-- VF_FLR (R375): An FLR of a VF resets only that VF. -/
  | vfFlr (port : Fin 2) (k : Fin 16)
  /-- CONFIGURATION_WRITE (R438): A configuration-space write sets VF Enable and NumVFs, MSI-X Enable or the function mask, and
  a pending message is sent when a mask clears. -/
  | configurationWrite (f : Func) (x : CfgWrite)
  /-- DOE_REQUEST (R374): A DOE request object is received and a response object returned. -/
  | doeRequest (f : Func) (vendor : BitVec 16) (kind : BitVec 8) (object : List Byte)
  /-- TB_IDLE (R378): An IDLE tick bus cycle, answered on TB_RDY and TB_OVR_N. -/
  | tbIdle (arg : BitVec 8) (parityOk : Bool)
  /-- TB_TICK (R377): A TICK cycle supplies a reference edge when SRC is 2. -/
  | tbTick (arg : BitVec 8) (parityOk : Bool)
  /-- TB_POLL (R378): A POLL cycle lets the master read TB_RDY and TB_OVR_N. -/
  | tbPoll (arg : BitVec 8) (parityOk : Bool)
  /-- TB_QUERY (R378): A QUERY cycle is answered by the named slot and ALIVE results are recorded. -/
  | tbQuery (arg : BitVec 8) (parityOk : Bool) (others : Bool)
  /-- TB_TAKEOVER (R377): A TAKEOVER cycle sets TAKEOVER in the named module and informs its PAIR block. -/
  | tbTakeover (arg : BitVec 8) (parityOk : Bool)
  /-- TB_HALT (R380): A HALT cycle enters or leaves halt for one slot or all modules. -/
  | tbHalt (arg : BitVec 8) (parityOk : Bool)
  /-- TB_RESERVED_CYCLE (R377): A cycle of type 6 or 7 is treated as IDLE and counted. -/
  | tbReservedCycle (arg : BitVec 8) (parityOk : Bool)
  /-- TB_CLK_LOST (R381): TB_CLK shows no edge for 1 µs and CLK_LOST is set. -/
  | tbClkLost
  /-- TB_CLK_RESUME (R381): The first edge after clock loss clears CLK_LOST. -/
  | tbClkResume
  /-- THERM_IN_ASSERT (R383): Assertion of THERM_IN_N throttles every core. -/
  | thermInAssert (cycles : Nat)
  /-- THERM_IN_RELEASE (R383): Release of THERM_IN_N restores the previous state. -/
  | thermInRelease (cycles : Nat)
  /-- PWR_FAULT_IN_ASSERT (R383): Assertion of PWR_FAULT_IN_N holds the power limit at 1,200 W. -/
  | pwrFaultInAssert (cycles : Nat)
  /-- PWR_FAULT_IN_RELEASE (R383): Release of PWR_FAULT_IN_N restores the previous limit. -/
  | pwrFaultInRelease (cycles : Nat)
  /-- I3C_DYNAMIC_ADDRESS (R385): Assignment of a dynamic address makes the target an I3C Basic target. -/
  | i3cDynamicAddress (a : BitVec 7) (eid : Option (BitVec 8))
  /-- RSTDAA (R385): RSTDAA returns the management target to SMBus. -/
  | rstdaa
  /-- PLDM_SENSOR_READ (R386): A PLDM request reads a numeric or state sensor. -/
  | pldmSensorRead (q : PldmGet)
  /-- SET_NUMERIC_EFFECTER_VALUE (R387): Sets the POWER_LIMIT effecter, or is refused outside 1,200–3,000 W. -/
  | setNumericEffecterValue (id : BitVec 16) (watts : Nat)
  /-- SET_EVENT_RECEIVER (R387): Sets the receiver of PlatformEventMessages. -/
  | setEventReceiver (eid : BitVec 8)
  /-- GET_VERSION (R456): SPDM GET_VERSION request. -/
  | getVersion (t : Transport)
  /-- GET_CAPABILITIES (R456): SPDM GET_CAPABILITIES request. -/
  | getCapabilities (t : Transport)
  /-- NEGOTIATE_ALGORITHMS (R456): SPDM NEGOTIATE_ALGORITHMS request. -/
  | negotiateAlgorithms (t : Transport) (asymOk hashOk : Bool)
  /-- GET_DIGESTS (R456): SPDM GET_DIGESTS request. -/
  | getDigests (t : Transport)
  /-- GET_CERTIFICATE (R456): SPDM GET_CERTIFICATE request for slot 0. -/
  | getCertificate (t : Transport) (slot : BitVec 8) (off len : Nat)
  /-- CHALLENGE (R456): SPDM CHALLENGE answered with a signed CHALLENGE_AUTH. -/
  | challenge (t : Transport) (slot : BitVec 8) (nonce : BitVec 256)
  /-- GET_MEASUREMENTS (R458): SPDM GET_MEASUREMENTS returns the indices the requester may see. -/
  | getMeasurements (t : Transport) (index : BitVec 8) (signed : Bool) (nonce : BitVec 256)
  /-- VENDOR_DEFINED_REQUEST (R457): Returns the SLH-DSA signature or part of the SLH-DSA certificate chain. -/
  | vendorDefinedRequest (t : Transport) (standardOk vendorOk : Bool) (op : BitVec 8) (off : BitVec 32)
  /-- STAGE_TWO_START (R391): J1 has been in range for 10 ms and stage two starts. -/
  | stageTwoStart
  /-- INPUT_UNDERRANGE (R391): J1 falls below 46 V and the limit is held at 1,200 W. -/
  | inputUnderrange
  /-- INPUT_RANGE_RELEASE (R391): 10 ms after J1 returns above 46 V the range hold is released. -/
  | inputRangeRelease
  /-- UNDERVOLT (R391): J1 below 42 V stops stage one and resets the module. -/
  | undervolt
  /-- OVERVOLT (R391): J1 above 58 V stops stage one and resets the module. -/
  | overvolt
  /-- POWER_MEASUREMENT (R396): A 1 ms power measurement drives clock trimming and the traffic level. -/
  | powerMeasurement (watts mv da : Nat)
  /-- PWR_LIMIT_WRITE (R393): A write of PWR.LIMIT.WATTS is clamped into 1,200–3,000 W. -/
  | pwrLimitWrite (f : Func) (v : Word)
  /-- PHASE_FAIL (R397): A core IVR phase fails and the core's ceiling is lowered, or its clock stops. -/
  | phaseFail (core : Fin 72) (group : Fin 3) (phase : Fin 8)
  /-- DROOP (R400): A core domain falls 30 mV below its set point and its clock period doubles. -/
  | droop (core : Fin 72)
  /-- WARNING_TRIP (R400): A rail warning comparator trips and opens a suspect window. -/
  | warningTrip (rail : Fin 17)
  /-- SUSPECT_WINDOW_CLOSE (R400): A suspect window closes 10 µs after recovery and the dip is recorded. -/
  | suspectWindowClose (rail : Fin 17)
  /-- RAIL_RESET (R402): A rail below its reset level for 100 ns causes a module reset. -/
  | railReset (rail : Fin 17)
  /-- RAMP_START (R403): A waiting core power-up gets budget units and begins its soft-start or slow ramp. -/
  | rampStart (core : Fin 72) (above : Bool)
  /-- RAMP_END (R403): A ramp ends and its budget units return. -/
  | rampEnd (core : Fin 72)
  /-- DOMAIN_UP (R404): A core domain is up 2 µs after its ramp ends. -/
  | domainUp (core : Fin 72)
  /-- DIE_SAMPLE (R407): A die's sensors are sampled and its governing temperature and state are judged. -/
  | dieSample (die : Fin 22) (temps : List Int) (est : Int)
  /-- SHUTDOWN_RECORD_TIMEOUT (R415): 5 ms after SHUTDOWN, or once the record is written, stage one stops. -/
  | shutdownRecordTimeout
  /-- THROTTLE_LEVEL_UPDATE (R413): Each millisecond in THROTTLE the throttle level rises or falls. -/
  | throttleLevelUpdate (die : Fin 22)
  /-- OVERTEMP_TRIP (R416): A sensor at 125 °C stops stage one within 100 µs. -/
  | overtempTrip (die : Fin 22)
  /-- ALTERATION_START (R418): An automatic alteration starts every PERIOD_H hours. -/
  | alterationStart
  /-- ALT_ALL (R418): THM.ALT_CMD MODE 1 starts an alteration of every core. -/
  | altAll (f : Func)
  /-- ALT_CORE (R418): THM.ALT_CMD MODE 2 starts an alteration of one core. -/
  | altCore (f : Func) (core : BitVec 7)
  /-- ALT_PARTITION (R418): THM.ALT_CMD MODE 3 starts an alteration of one partition's cores. -/
  | altPartition (f : Func) (p : Fin 16)
  /-- MEASUREMENT_DONE (R421): A measurement ends and the core's plan is recomputed. -/
  | measurementDone (core : Fin 72) (need : List Nat)
  /-- MEASUREMENT_SKIP (R420): A core not measurable within 1 h is skipped and marked STALE. -/
  | measurementSkip (core : Fin 72)
  /-- SHUT_CLR (R415): THM.SHUT_CLR GO clears the shutdown record's MAGIC in NOR. -/
  | shutClr (f : Func)
  /-- LOG_APPEND (R426): The logger appends the next queued error record to the ring. -/
  | logAppend
  /-- ERR_TAIL_WRITE (R426): A write of ERR.TAIL inside TAIL to HEAD marks records read. -/
  | errTailWrite (f : Func) (v : Word)
  /-- INTERRUPT_PRESENTATION (R433): A target presents its highest-priority presentable group and pushes it. -/
  | interruptPresentation (t : Fin 3)
  /-- EOI (R434): A write of IRQ.EOIt pops the named group, or handles an out-of-order completion. -/
  | eoi (f : Func) (t : Fin 2) (group : BitVec 5)
  /-- FIRMWARE_GROUP_COMPLETE (R432): Firmware completes a group routed to the management processor after handling it. -/
  | firmwareGroupComplete (group : BitVec 5)
  /-- VF_MESSAGE (R438): A VF vector's hold-off ends and one message is sent for its events. -/
  | vfMessage (port : Fin 2) (k : Fin 16) (vector : Fin 4)
  /-- DEBUG (R455): ESC.CMD DEBUG submits a DEBUG token to unlock test access. -/
  | debugCmd (f : Func)
  /-- ENROL (R448): ESC.CMD ENROL submits a token to enrol or revoke a key slot. -/
  | enrol (f : Func)
  /-- RELOCK (R455): ESC.CMD RELOCK returns OBSERVE to LOCKED at the next base boundary. -/
  | relock (f : Func)
  /-- ESC_COMMAND_COMPLETE (R447): A token check or escutcheon command ends with ESC.RESULT and DONE. -/
  | escCommandComplete (ecc : Ecc)
  /-- ESCUTCHEON_FAILURE (R440): The serving escutcheon fails after boot and the module resets. -/
  | escutcheonFailure
  /-- DOWEL (R459): BRUP.CMD GO step 1 trains every dowel lane. -/
  | dowel (f : Func)
  /-- DARN (R459): BRUP.CMD GO step 2 applies NOR records and starts dowel traffic. -/
  | darn (f : Func)
  /-- HBM (R459): BRUP.CMD GO step 3 trains every fitted stack. -/
  | hbm (f : Func)
  /-- LINING (R459): BRUP.CMD GO step 4 clears the lining and starts the scrubbers. -/
  | lining (f : Func)
  /-- VENEER (R461): BRUP.CMD GO step 5 applies the default veneer and powers up usable cores. -/
  | veneer (f : Func)
  /-- KAT (R460): BRUP.CMD GO step 6 runs the known-answer runs. -/
  | kat (f : Func)
  /-- READY (R459): BRUP.CMD GO step 8 starts ticks and sets boundary 0. -/
  | ready (f : Func)
  /-- BRUP_STEP_END (R459): A bring-up step ends DONE or FAIL, or FAIL with TIME at its limit. -/
  | brupStepEnd (e : StepEnd) (bad : List Nat)
  /-- MODRST (R462): A write of 0xD1 to BRUP.MODRST.KEY requests a module reset 10 µs later. -/
  | modrst (f : Func) (key : BitVec 8)
  /-- MODULE_RESET (R461): A module reset clears every die and register and returns bring-up to step 0. -/
  | moduleReset (cause : ResetCause) (cycles : Nat)
  /-- PARTITION_RESET (R463): BRUP.PRESET starts a reset of a partition. -/
  | partitionReset (f : Func) (mask : BitVec 16)
  /-- PARTITION_RESET_DONE (R463): A partition reset completes and PRESET_BUSY clears. -/
  | partitionResetDone (p : Fin 16)
  /-- CORE_RESET (R467): BRUP.CRESET KIND 0 resets one logical core. -/
  | coreReset (f : Func) (c : Fin 64)
  /-- COMPUTE_DIE_RESET (R467): BRUP.CRESET KIND 1 resets every core of a compute die. -/
  | computeDieReset (f : Func) (d : BitVec 6)
  /-- STACK_DRAIN (R468): BRUP.STACK DRAIN starts a drained reset of a lining stack. -/
  | stackDrain (f : Func) (d : BitVec 3)
  /-- STACK_FORCE (R469): BRUP.STACK FORCE resets owning partitions and starts a forced stack reset. -/
  | stackForce (f : Func) (d : BitVec 3)
  /-- STACK_PHASE_END (R470): A stack reset phase ends and the next begins. -/
  | stackPhaseEnd (e : StepEnd) (lanes bad : List Nat)
  /-- PAIR_CFG_WRITE (R473): A write of PAIR.CFG, taken only while ROLE is OFF, claims links and sets PMASK. -/
  | pairCfgWrite (f : Func) (v : Word)
  /-- ARM (R474): PAIR.CMD ARM moves OFF to ARMING. -/
  | arm (f : Func)
  /-- DISARM (R474): PAIR.CMD DISARM returns any role to OFF at the next base boundary. -/
  | disarm (f : Func)
  /-- MIRROR_SEND (R476): After a protected step's sheet is written, the mirror engine sends its tick delta. -/
  | mirrorSend (p : Fin 16)
  /-- PAIR_ALIVE_DROP (R479): No HEARTBEAT for 2 base periods and PAIR_ALIVE drops. -/
  | pairAliveDrop
  /-- IDLE_FLIT (R343): An IDLE flit is received, and its ACK releases covered flits from the replay buffer while its CRVC and
  CRCOUNT return credits. -/
  | idleFlit (n : Fin 64) (flit : List Byte)
  /-- DROOP_RECOVERY (R400): A core domain recovers from a droop, and its doubled clock period is restored 64 cycles later. -/
  | droopRecovery (core : Fin 72)
  /-- HOST_PORT_LINK_UP (R363): A PCIe host port finishes training and reaches L0, and GLB.HPORTp.STATE moves from TRAINING to
  UP. -/
  | hostPortLinkUp (port : Fin 2) (flit : Bool) (speed : Fin 3) (width : Fin 3)
  /-- LAYER_SENSOR_TIMEOUT (R270): A stack layer's sensor has not reported for 4 ms, becomes invalid, and a stack with no valid
  layer is treated as STOP. -/
  | layerSensorTimeout (stack : Fin 12) (layer : Fin 16)
  /-- PENDING_SET_MOVE (R171): Under the two-level scheduler, an active group that has stayed BUSY on a load operand for more
  than 32 cycles moves to the pending set and makes room for a READY pending group. -/
  | pendingSetMove (g : GroupId)
deriving DecidableEq, Repr

end Sys2Proof
end

