-- ==== Sys2Proof/Config.lean ====
section
/-! DEFINITION. The free values: what the manual leaves open. Each is a constant without a body, so nothing can be proved
of its value. -/

namespace Sys2Proof

/-- What the entropy source offers to seed a lane of the random generators with, by seeding (R139). -/
opaque Config.seed : Nat → BitVec 64

/-- The feedback arrangement of the recurrence by which a lane advances (R139): the lower coefficients of a polynomial of degree 64.
It is not architectural. -/
opaque Config.taps : BitVec 64

/-- The draw of a lane in a state (R138). -/
opaque Config.laneDraw : BitVec 64 → BitVec 64

/-- The byte at a place of HBM that no write has covered under the key generation in force (R452, R460). -/
opaque Config.hbmByte : (generation place : Nat) → BitVec 8

/-- The home hash of R225: a number that picks slice and set from a line address, by the generation of the hash. -/
opaque Config.homeHash : (generation line : Nat) → Nat

/-- The copy hash of R230, for a line and a lining die. -/
opaque Config.copyHash : (generation line die : Nat) → Nat

/-- The order of R240 among eligible victims, and the choice of a link of R354: pick number `n`. -/
opaque Config.pick : Nat → Nat

/-- The bypass route that firmware computes around the dies out of service, from die to die (R470). -/
opaque Config.bypass : (out : List Nat) → (a b : Nat) → Nat

/-- The firmware image that NOR holds from manufacture (R442). -/
opaque Config.firmware : List (BitVec 8)

/-- The key blob of a VENDOR slot, enrolled at manufacture, laid out as in R448 (R441). -/
opaque Config.vendorKey : (slot : Nat) → List (BitVec 8)

/-- The security version in the header of a firmware image, whose place is not stated (R442). -/
opaque Config.imageVersion : List (BitVec 8) → Nat

/-- The VENDOR revoke mask in the header of a firmware image, whose place is not stated (R442). -/
opaque Config.imageRevokes : List (BitVec 8) → Nat

/-- What the device identity makes or NOR holds, as a number: signatures over a transcript hash, sizes that R456 leaves open (R456,
R457): kind and argument. -/
opaque Config.identity : (kind argument : Nat) → Nat

/-- The X.509 chain of an identity key in NOR: the RSA one, or the SLH-DSA one (R456, R457). -/
opaque Config.certChain : (rsa : Bool) → List (BitVec 8)

/-- The bytes that a packet of a network class has beside its payload (R312, Table 14.15). -/
opaque Config.headBytes : (cls : Nat) → Nat

/-- The correcting code over the 256 bits of a lining sector (Table 10.1). -/
opaque Config.sectorCode : List (BitVec 8) → BitVec 16

/-- The code that a stack stores with a sector, over its ciphertext under a key generation: class and bytes (R258, R450). -/
opaque Config.sectorMeta : (cls generation place : Nat) → List (BitVec 8) → BitVec 24

/-- Metadata bits of a sector read with an error that cannot be corrected, or that no write has covered (R259). -/
opaque Config.syndrome : Nat → BitVec 24

/-- The requests that a host port's inbound buffer holds (R371). -/
opaque Config.hostBuffer : Nat

/-- The result a rule does not state, number `n`. -/
opaque Config.freeValue : Nat → Nat

/-- HBM addresses end here (Table 1.10). -/
def Config.hbmEnd : Nat := 0x00C000000000

/-- The lining direct window (Table 1.10). -/
def Config.winBase : Nat := 0x010000000000

/-- The end of the lining direct window. -/
def Config.winEnd : Nat := 0x010240000000

/-- The remote windows (Table 1.10). -/
def Config.remBase : Nat := 0x020000000000

/-- The end of the remote windows. -/
def Config.remEnd : Nat := 0x820000000000

/-- Bytes of one remote window (R23). -/
def Config.remSize : Nat := 0x800000000

/-- One step of an idle block: one bus cycle of the module's reference, in ns (R439). -/
def Config.idleNs : Nat := 10

end Sys2Proof
end

