-- ==== Sys2Proof/Machine/Hash.lean ====
section
/-! DEFINITION. The hashes and signature checks of the escutcheon: SHA-2 (FIPS 180-4), RSASSA-PSS (RFC 8017) and SLH-DSA-SHA2-192s
(FIPS 205), as spec/20 names them (R28, R441, R443 to R445, R448, R458). The standards themselves stand in no file of the spec: they
are PRESUMED as published (log entry 37). -/

namespace Sys2Proof.Machine

/-! ## Bytes and numbers -/

/-- `n` bytes of a number, the most significant first. -/
def beBytes (v n : Nat) : List Byte := (List.range n).map (fun i => BitVec.ofNat 8 (v / 256 ^ (n - 1 - i)))

/-- The number that bytes spell, the most significant first. -/
def beNat (bs : List Byte) : Nat := bs.foldl (fun n b => 256 * n + b.toNat) 0

/-- A list cut into `k` parts of `n`. -/
def chunks {α : Type} (n : Nat) (xs : List α) : Nat → List (List α)
  | 0 => []
  | k + 1 => xs.take n :: chunks n (xs.drop n) k

/-- The exclusive-or of two byte strings. -/
def xorBytes (a b : List Byte) : List Byte := (a.zip b).map (fun e => e.1 ^^^ e.2)

/-! ## SHA-2 (FIPS 180-4) -/

/-- What makes a SHA-2 function: bits of a word, constants, the amounts of the four sigma functions, the initial value, and how many
bytes of the last one it returns. -/
structure Sha where
  bits : Nat
  ks : List Nat
  big0 : Nat × Nat × Nat
  big1 : Nat × Nat × Nat
  small0 : Nat × Nat × Nat
  small1 : Nat × Nat × Nat
  init : List Nat
  out : Nat

/-- Bytes of a word. -/
def Sha.word (h : Sha) : Nat := h.bits / 8

/-- A word rotated right. -/
def Sha.rotr (h : Sha) (x n : Nat) : Nat := Nat.lor (x / 2 ^ n) (x % 2 ^ n * 2 ^ (h.bits - n))

/-- The exclusive-or of three rotations. -/
def Sha.big (h : Sha) (k : Nat × Nat × Nat) (x : Nat) : Nat := Nat.xor (Nat.xor (h.rotr x k.1) (h.rotr x k.2.1)) (h.rotr x k.2.2)

/-- The exclusive-or of two rotations and a shift. -/
def Sha.small (h : Sha) (k : Nat × Nat × Nat) (x : Nat) : Nat := Nat.xor (Nat.xor (h.rotr x k.1) (h.rotr x k.2.1)) (x / 2 ^ k.2.2)

/-- The message schedule, the newest word first. -/
def Sha.schedule (h : Sha) : Nat → List Nat → List Nat
  | 0, ws => ws
  | n + 1, ws => h.schedule n
      ((h.small h.small1 (ws.getD 1 0) + ws.getD 6 0 + h.small h.small0 (ws.getD 14 0) + ws.getD 15 0) % 2 ^ h.bits :: ws)

/-- One round over the working variables a to h. -/
def Sha.round (h : Sha) (v : List Nat) (kw : Nat × Nat) : List Nat :=
  match v with
  | [a, b, c, d, e, f, g, i] =>
    let ch := Nat.xor (Nat.land e f) (Nat.land (2 ^ h.bits - 1 - e) g)
    let maj := Nat.xor (Nat.xor (Nat.land a b) (Nat.land a c)) (Nat.land b c)
    let t1 := i + h.big h.big1 e + ch + kw.1 + kw.2
    let t2 := h.big h.big0 a + maj
    [(t1 + t2) % 2 ^ h.bits, a, b, c, (d + t1) % 2 ^ h.bits, e, f, g]
  | _ => v

/-- The value after one more block. -/
def Sha.block (h : Sha) (v : List Nat) (bs : List Byte) : List Nat :=
  let ws := ((chunks h.word bs 16).map beNat).reverse
  let kw := h.ks.zip (h.schedule (h.ks.length - 16) ws).reverse
  ((kw.foldl h.round v).zip v).map (fun e => (e.1 + e.2) % 2 ^ h.bits)

/-- The padded message. -/
def Sha.padded (h : Sha) (bs : List Byte) : List Byte :=
  let b := 16 * h.word
  let n := bs.length
  bs ++ 0x80 :: List.replicate ((2 * b - 1 - 2 * h.word - n % b) % b) 0 ++ beBytes (8 * n) (2 * h.word)

/-- The hash of a message. -/
def Sha.hash (h : Sha) (bs : List Byte) : List Byte :=
  let p := h.padded bs
  let v := (chunks (16 * h.word) p (p.length / (16 * h.word))).foldl h.block h.init
  ((v.map (fun x => beBytes x h.word)).flatten).take h.out

/-- The mask generation function MGF1 (RFC 8017). -/
def Sha.mgf1 (h : Sha) (seed : List Byte) (n : Nat) : List Byte :=
  (((List.range ((n + h.out - 1) / h.out)).map (fun i => h.hash (seed ++ beBytes i 4))).flatten).take n

/-- The 80 round constants of SHA-512; the first 32 bits of the first 64 are those of SHA-256. -/
def k512 : List Nat :=
  [0x428A2F98D728AE22, 0x7137449123EF65CD, 0xB5C0FBCFEC4D3B2F, 0xE9B5DBA58189DBBC, 0x3956C25BF348B538,
    0x59F111F1B605D019, 0x923F82A4AF194F9B, 0xAB1C5ED5DA6D8118, 0xD807AA98A3030242, 0x12835B0145706FBE,
    0x243185BE4EE4B28C, 0x550C7DC3D5FFB4E2, 0x72BE5D74F27B896F, 0x80DEB1FE3B1696B1, 0x9BDC06A725C71235,
    0xC19BF174CF692694, 0xE49B69C19EF14AD2, 0xEFBE4786384F25E3, 0x0FC19DC68B8CD5B5, 0x240CA1CC77AC9C65] ++
  [0x2DE92C6F592B0275, 0x4A7484AA6EA6E483, 0x5CB0A9DCBD41FBD4, 0x76F988DA831153B5, 0x983E5152EE66DFAB,
    0xA831C66D2DB43210, 0xB00327C898FB213F, 0xBF597FC7BEEF0EE4, 0xC6E00BF33DA88FC2, 0xD5A79147930AA725,
    0x06CA6351E003826F, 0x142929670A0E6E70, 0x27B70A8546D22FFC, 0x2E1B21385C26C926, 0x4D2C6DFC5AC42AED,
    0x53380D139D95B3DF, 0x650A73548BAF63DE, 0x766A0ABB3C77B2A8, 0x81C2C92E47EDAEE6, 0x92722C851482353B] ++
  [0xA2BFE8A14CF10364, 0xA81A664BBC423001, 0xC24B8B70D0F89791, 0xC76C51A30654BE30, 0xD192E819D6EF5218,
    0xD69906245565A910, 0xF40E35855771202A, 0x106AA07032BBD1B8, 0x19A4C116B8D2D0C8, 0x1E376C085141AB53,
    0x2748774CDF8EEB99, 0x34B0BCB5E19B48A8, 0x391C0CB3C5C95A63, 0x4ED8AA4AE3418ACB, 0x5B9CCA4F7763E373,
    0x682E6FF3D6B2B8A3, 0x748F82EE5DEFB2FC, 0x78A5636F43172F60, 0x84C87814A1F0AB72, 0x8CC702081A6439EC] ++
  [0x90BEFFFA23631E28, 0xA4506CEBDE82BDE9, 0xBEF9A3F7B2C67915, 0xC67178F2E372532B, 0xCA273ECEEA26619C,
    0xD186B8C721C0C207, 0xEADA7DD6CDE0EB1E, 0xF57D4F7FEE6ED178, 0x06F067AA72176FBA, 0x0A637DC5A2C898A6,
    0x113F9804BEF90DAE, 0x1B710B35131C471B, 0x28DB77F523047D84, 0x32CAAB7B40C72493, 0x3C9EBE0A15C9BEBC,
    0x431D67C49C100D4C, 0x4CC5D4BECB3E42B6, 0x597F299CFC657E2A, 0x5FCB6FAB3AD6FAEC, 0x6C44198C4A475817]

/-- SHA-256. -/
def sha256 : Sha where
  bits := 32
  ks := k512.take 64 |>.map (fun k => k / 2 ^ 32)
  big0 := (2, 13, 22)
  big1 := (6, 11, 25)
  small0 := (7, 18, 3)
  small1 := (17, 19, 10)
  init := [0x6A09E667, 0xBB67AE85, 0x3C6EF372, 0xA54FF53A, 0x510E527F, 0x9B05688C, 0x1F83D9AB, 0x5BE0CD19]
  out := 32

/-- SHA-512. -/
def sha512 : Sha where
  bits := 64
  ks := k512
  big0 := (28, 34, 39)
  big1 := (14, 18, 41)
  small0 := (1, 8, 7)
  small1 := (19, 61, 6)
  init := [0x6A09E667F3BCC908, 0xBB67AE8584CAA73B, 0x3C6EF372FE94F82B, 0xA54FF53A5F1D36F1,
    0x510E527FADE682D1, 0x9B05688C2B3E6C1F, 0x1F83D9ABFB41BD6B, 0x5BE0CD19137E2179]
  out := 64

/-- SHA-384. -/
def sha384 : Sha := { sha512 with
  init := [0xCBBB9D5DC1059ED8, 0x629A292A367CD507, 0x9159015A3070DD17, 0x152FECD8F70E5939,
    0x67332667FFC00B31, 0x8EB44A8768581511, 0xDB0C2E0D64F98FA7, 0x47B5481DBEFA4FA4]
  out := 48 }

/-- A SHA-384 hash as a field of 48 bytes holds it, the first byte the least significant. -/
def shaNum (bs : List Byte) : Nat := (sha384.hash bs).foldr (fun b n => b.toNat + 256 * n) 0 % 2 ^ 384

/-- The hash of an RSA key, then that of an SLH-DSA key, of a key blob laid out as in R448, as DIGEST and the fuses hold them. -/
def keyHashes (blob : List Byte) : Nat := shaNum (blob.take 388) + 2 ^ 384 * shaNum ((blob.drop 388).take 48)

/-! ## RSASSA-PSS (RFC 8017): RSA-3072, SHA-384, MGF1 with SHA-384, 48 bytes of salt, exponent 65,537 -/

/-- `x` to the power 65,537 modulo `n`. -/
def pow65537 (x n : Nat) : Nat := (List.range 16).foldl (fun y _ => y * y % n) x * x % n

/-- Does an encoded message fit a message (EMSA-PSS-VERIFY)? -/
def pssFits (em signed : List Byte) : Bool :=
  let db := em.take 335
  let h := (em.drop 335).take 48
  let plain := xorBytes db (sha384.mgf1 h 335)
  let plain := (plain.headD 0 &&& 0x7F) :: plain.drop 1
  em.length == 384 && em.getD 383 0 == 0xBC && db.headD 0 &&& 0x80 == 0 &&
    plain.take 286 == List.replicate 286 0 && plain.getD 286 0 == 1 &&
    sha384.hash (List.replicate 8 0 ++ sha384.hash signed ++ plain.drop 287) == h

/-- Does a signature verify under an RSA-3072 key, whose modulus stands in the first 384 bytes (R28, R443, R444, R448)? -/
def rsaVerify (key signed sig : List Byte) : Bool :=
  let n := beNat (key.take 384)
  let s := beNat sig
  sig.length == 384 && decide (2 ^ 3071 ≤ n ∧ s < n) && pssFits (beBytes (pow65537 s n) 384) signed

/-! ## SLH-DSA-SHA2-192s (FIPS 205): n = 24, h = 63, d = 7, a = 14, k = 17, w = 16 -/

/-- An address: layer, tree, type, and the three words that follow. -/
structure Adrs where
  layer : Nat := 0
  tree : Nat := 0
  type : Nat := 0
  pair : Nat := 0
  second : Nat := 0
  third : Nat := 0

/-- The compressed address of the SHA-2 parameter sets. -/
def Adrs.bytes (a : Adrs) : List Byte :=
  beBytes a.layer 1 ++ beBytes a.tree 8 ++ beBytes a.type 1 ++ beBytes a.pair 4 ++ beBytes a.second 4 ++ beBytes a.third 4

/-- F: SHA-256, cut to 24 bytes. -/
def slhF (seed : List Byte) (a : Adrs) (m : List Byte) : List Byte :=
  (sha256.hash (seed ++ List.replicate 40 0 ++ a.bytes ++ m)).take 24

/-- H and T: SHA-512, cut to 24 bytes. -/
def slhH (seed : List Byte) (a : Adrs) (m : List Byte) : List Byte :=
  (sha512.hash (seed ++ List.replicate 104 0 ++ a.bytes ++ m)).take 24

/-- The digest of a message: 39 bytes. -/
def slhDigest (r seed root m : List Byte) : List Byte := sha512.mgf1 (r ++ seed ++ sha512.hash (r ++ seed ++ root ++ m)) 39

/-- `n` digits of `b` bits of a byte string, the most significant first. -/
def digits (bs : List Byte) (b n : Nat) : List Nat :=
  let v := beNat bs
  (List.range n).map (fun i => v / 2 ^ (8 * bs.length - b * (i + 1)) % 2 ^ b)

/-- The root that a leaf and its authentication path give: the nodes of level `z + 1` lie at `i / 2 ^ (z + 1)`. -/
def slhClimb (seed : List Byte) (a : Adrs) (i : Nat) : Nat → List (List Byte) → List Byte → List Byte
  | _, [], x => x
  | z, y :: ys, x =>
    let a := { a with second := z + 1, third := i / 2 ^ (z + 1) }
    slhClimb seed a i (z + 1) ys (slhH seed a (if i / 2 ^ z % 2 = 0 then x ++ y else y ++ x))

/-- The end of a chain of which `m` of 15 steps are done. -/
def slhChain (seed : List Byte) (a : Adrs) (x : List Byte) (m : Nat) : List Byte :=
  (List.range (15 - m)).foldl (fun x j => slhF seed { a with third := m + j } x) x

/-- The WOTS+ public key that a signature of 51 chains gives for a message of 24 bytes. -/
def wotsKey (seed : List Byte) (a : Adrs) (sig m : List Byte) : List Byte :=
  let msg := digits m 4 48
  let sum := 16 * (msg.map (15 - ·)).sum
  let msg := msg ++ digits (beBytes sum 2) 4 3
  let ends := (((chunks 24 sig 51).zip msg).zipIdx).map (fun e => slhChain seed { a with second := e.2 } e.1.1 e.1.2)
  slhH seed { a with type := 1 } ends.flatten

/-- The root of the XMSS tree that a signature gives for a message and a leaf. -/
def xmssRoot (seed : List Byte) (a : Adrs) (leaf : Nat) (sig m : List Byte) : List Byte :=
  let key := wotsKey seed { a with pair := leaf } (sig.take 1224) m
  slhClimb seed { a with type := 2 } leaf 0 (chunks 24 (sig.drop 1224) 9) key

/-- The root that the seven layers of the hypertree give. -/
def treeRoot (seed : List Byte) (tree leaf : Nat) (sig m : List Byte) : List Byte :=
  ((List.range 7).foldl (fun (t : Nat × Nat × List Byte) j =>
    let x := xmssRoot seed { layer := j, tree := t.1 } t.2.1 ((sig.drop (1440 * j)).take 1440) t.2.2
    (t.1 / 512, t.1 % 512, x)) (tree, leaf, m)).2.2

/-- The FORS public key that a signature gives for a digest of 30 bytes. -/
def forsKey (seed : List Byte) (a : Adrs) (sig md : List Byte) : List Byte :=
  let roots := (((chunks 360 sig 17).zip (digits md 14 17)).zipIdx).map (fun e =>
    let i := 2 ^ 14 * e.2 + e.1.2
    slhClimb seed a i 0 (chunks 24 (e.1.1.drop 24) 14) (slhF seed { a with third := i } (e.1.1.take 24)))
  slhH seed { a with type := 4, second := 0, third := 0 } roots.flatten

/-- Does a signature of 16,224 bytes verify under a public key, seed and root (R28, R443, R444, R448)? Pure signing with an empty
context (PRESUMED, log entry 37). -/
def slhVerify (key signed sig : List Byte) : Bool :=
  let seed := key.take 24
  let root := key.drop 24
  let d := slhDigest (sig.take 24) seed root (0 :: 0 :: signed)
  let tree := beNat ((d.drop 30).take 7) % 2 ^ 54
  let leaf := beNat (d.drop 37) % 2 ^ 9
  let pk := forsKey seed { tree := tree, type := 3, pair := leaf } ((sig.drop 24).take 6120) (d.take 30)
  sig.length == 16224 && key.length == 48 && treeRoot seed tree leaf (sig.drop 6144) pk == root

end Sys2Proof.Machine
end

