-- ==== Sys2Proof/Machine/Regs.lean ====
section
/-! DEFINITION. The BAR0 registers: offsets, access masks and reset words, row for row from the register tables of the
spec (the tables that Table 1.7 names chapters for). -/

namespace Sys2Proof.Machine

namespace Reg

/-- Table 0.2. -/
abbrev GLB_VARIANT : Nat := 0x8
/-- Table 1.8. -/
abbrev GLB_IDENT : Nat := 0x0
/-- Table 1.9. -/
abbrev GLB_MODID : Nat := 0x4
/-- Table 2.10. -/
abbrev PTN_CMD : Nat := 0x20000
/-- Table 2.11. -/
abbrev PTN_STATE : Nat := 0x20004
/-- Table 2.12. -/
abbrev PTN_RESULT : Nat := 0x20008
/-- Table 2.13. -/
abbrev PTN_TIMER : Nat := 0x2000C
/-- Table 2.14. -/
abbrev PTN_LOAD_ADDR : Nat := 0x20010
/-- Table 2.15. -/
abbrev PTN_LOAD_LEN : Nat := 0x20018
/-- Table 2.16. -/
abbrev PTN_PATCH_TARGET : Nat := 0x2001C
/-- Table 2.17. -/
abbrev PTN_PATCH_OFF : Nat := 0x20020
/-- Table 2.18. -/
abbrev PTN_PATCH_DATA : Nat := 0x20024
/-- Table 2.19. -/
abbrev PTN_COMMIT_TICK : Nat := 0x20028
/-- Table 2.20. -/
abbrev PTN_ACTIVE_ID : Nat := 0x20030
/-- Table 2.21. -/
abbrev PTN_AFFECTED : Nat := 0x20038
/-- Table 2.22. -/
abbrev PTN_SEWCOUNT : Nat := 0x2003C
/-- Table 2.23. -/
abbrev PTN_EPOCH : Nat := 0x20040
/-- Table 3.9. -/
abbrev TICK_CTRL : Nat := 0x30000
/-- Table 3.10. -/
abbrev TICK_STATUS : Nat := 0x30004
/-- Table 3.11. -/
abbrev TICK_COUNT : Nat := 0x30008
/-- Table 3.12. -/
abbrev TICK_PERIOD_NOW : Nat := 0x30010
/-- Table 3.13. -/
abbrev TICK_DEMAND : Nat := 0x30014
/-- Table 3.14. -/
abbrev TICK_SYNC_STAT : Nat := 0x30018
/-- Table 3.15. -/
abbrev TICK_EASE_TICKS : Nat := 0x3001C
/-- Table 3.16. -/
abbrev TICK_OVLD : Nat := 0x30020
/-- Table 3.17. -/
abbrev TICK_PSTATE : Nat := 0x30100
/-- Table 3.18. -/
abbrev TICK_OVER : Nat := 0x30104
/-- Table 3.19. -/
abbrev TICK_LAG : Nat := 0x30108
/-- Table 3.20. -/
abbrev TICK_RESIDENT : Nat := 0x3010C
/-- Table 3.21. -/
abbrev TICK_STEPNO : Nat := 0x30110
/-- Table 3.22. -/
abbrev TICK_LASTSTEP : Nat := 0x30118
/-- Table 3.23. -/
abbrev TICK_PEAKSTEP : Nat := 0x3011C
/-- Table 7.7. -/
abbrev TICK_FIT_SEL : Nat := 0x30400
/-- Table 7.8. -/
abbrev TICK_FIT_PEND : Nat := 0x30404
/-- Table 7.9. -/
abbrev TICK_FIT_REC : Nat := 0x30480
/-- Table 7.10. -/
abbrev TICK_PROOF_A : Nat := 0x30600
/-- Table 7.11. -/
abbrev TICK_PROOF_B : Nat := 0x30604
/-- Table 7.12. -/
abbrev TICK_PROOF_Q : Nat := 0x30608
/-- Table 8.9. -/
abbrev CORE_STATUS : Nat := 0x1000000
/-- Table 8.10. -/
abbrev CORE_SLOTSTATE : Nat := 0x1000010
/-- Table 8.11. -/
abbrev CORE_PARKED : Nat := 0x1000030
/-- Table 8.12. -/
abbrev CORE_PARKCFG : Nat := 0x1000038
/-- Table 8.13. -/
abbrev CORE_PARK_ACT : Nat := 0x100003C
/-- Table 8.14. -/
abbrev CORE_PARK_RESULT : Nat := 0x1000040
/-- Table 8.15. -/
abbrev CORE_PREG_SEL : Nat := 0x1000044
/-- Table 8.16. -/
abbrev CORE_PREG_DATA : Nat := 0x1000048
/-- Table 8.17. -/
abbrev CORE_ISSUE : Nat := 0x1000050
/-- Table 8.18. -/
abbrev CORE_DUAL : Nat := 0x1000058
/-- Table 8.19. -/
abbrev CORE_PARKS : Nat := 0x1000060
/-- Table 10.12. -/
abbrev LIN_STATUS : Nat := 0xD0000
/-- Table 10.13. -/
abbrev LIN_CLEAR : Nat := 0xD0004
/-- Table 10.14. -/
abbrev LIN_SCRUB : Nat := 0xD0008
/-- Table 10.15. -/
abbrev LIN_PINCMD : Nat := 0xD0010
/-- Table 10.16. -/
abbrev LIN_PINRESULT : Nat := 0xD0014
/-- Table 10.17. -/
abbrev LIN_HOMEQ : Nat := 0xD0018
/-- Table 10.18. -/
abbrev LIN_HOMEQ_RES : Nat := 0xD0020
/-- Table 10.19. -/
abbrev LIN_HITSEL : Nat := 0xD0030
/-- Table 10.20. -/
abbrev LIN_LOOKUPS : Nat := 0xD0038
/-- Table 10.20. -/
abbrev LIN_HITS : Nat := 0xD0040
/-- Table 10.20. -/
abbrev LIN_PARTIAL : Nat := 0xD0048
/-- Table 10.20. -/
abbrev LIN_MISSES : Nat := 0xD0050
/-- Table 10.21. -/
abbrev LIN_SLICESEL : Nat := 0xD0060
/-- Table 10.22. -/
abbrev LIN_SLICE_STAT : Nat := 0xD0064
/-- Table 10.23. -/
abbrev LIN_SLICE_ERR : Nat := 0xD0068
/-- Table 10.24. -/
abbrev LIN_SLICE_THRASH : Nat := 0xD006C
/-- Table 10.25. -/
abbrev LIN_ECC_CORR : Nat := 0xD0070
/-- Table 10.25. -/
abbrev LIN_ECC_UNCORR : Nat := 0xD0074
/-- Table 10.25. -/
abbrev LIN_ECC_STALE_OVF : Nat := 0xD0078
/-- Table 10.26. -/
abbrev LIN_THRASH : Nat := 0xD0100
/-- Table 10.27. -/
abbrev LIN_PINNED : Nat := 0xD0200
/-- Table 11.8. -/
abbrev HBM_CAPACITY : Nat := 0xC0000
/-- Table 11.9. -/
abbrev HBM_CONDEMN_CFG : Nat := 0xC0004
/-- Table 11.10. -/
abbrev HBM_CONDEMN : Nat := 0xC0008
/-- Table 11.11. -/
abbrev HBM_PATROL : Nat := 0xC0010
/-- Table 11.12. -/
abbrev HBM_TALLY_FAIL : Nat := 0xC0020
/-- Table 11.12. -/
abbrev HBM_TALLY_UNCHK : Nat := 0xC0024
/-- Table 11.13. -/
abbrev HBM_PEND : Nat := 0xC0040
/-- Table 11.13. -/
abbrev HBM_MAPPED : Nat := 0xC00A0
/-- Table 11.14. -/
abbrev HBM_PCHSEL : Nat := 0xC0100
/-- Table 11.15. -/
abbrev HBM_PCH_ERR : Nat := 0xC0104
/-- Table 11.16. -/
abbrev HBM_PCH_STAT : Nat := 0xC0108
/-- Table 11.17. -/
abbrev HBM_STACKSEL : Nat := 0xC0200
/-- Table 11.18. -/
abbrev HBM_THERM : Nat := 0xC0204
/-- Table 11.19. -/
abbrev HBM_LAYER_T : Nat := 0xC0210
/-- Table 11.20. -/
abbrev HBM_THERM_EVT : Nat := 0xC0300
/-- Table 13.7. -/
abbrev JIG_ENG : Nat := 0xE0000
/-- Table 13.8. -/
abbrev JIG_BAD_PEND : Nat := 0xE0040
/-- Table 13.8. -/
abbrev JIG_FAULT_PEND : Nat := 0xE0080
/-- Table 13.8. -/
abbrev JIG_END_PEND : Nat := 0xE00C0
/-- Table 13.9. -/
abbrev JIG_CH_CTL : Nat := 0xE1000
/-- Table 13.10. -/
abbrev JIG_CH_STAT : Nat := 0xE1004
/-- Table 13.11. -/
abbrev JIG_CH_PROG : Nat := 0xE1008
/-- Table 13.11. -/
abbrev JIG_CH_SB : Nat := 0xE1010
/-- Table 13.11. -/
abbrev JIG_CH_DB : Nat := 0xE1018
/-- Table 13.12. -/
abbrev JIG_CH_PC : Nat := 0xE1020
/-- Table 13.13. -/
abbrev JIG_CH_BAD : Nat := 0xE1024
/-- Table 13.13. -/
abbrev JIG_CH_BAD_CODE : Nat := 0xE1028
/-- Table 13.14. -/
abbrev JIG_CH_FAULT : Nat := 0xE102C
/-- Table 13.15. -/
abbrev JIG_CH_PASSES : Nat := 0xE1030
/-- Table 13.15. -/
abbrev JIG_CH_CRC : Nat := 0xE1034
/-- Table 13.15. -/
abbrev JIG_CH_WBASE : Nat := 0xE1038
/-- Table 14.7. -/
abbrev NET_STATUS : Nat := 0xA0000
/-- Table 14.8. -/
abbrev NET_EVT : Nat := 0xA0004
/-- Table 14.9. -/
abbrev NET_DARN_CFG : Nat := 0xA0008
/-- Table 14.10. -/
abbrev NET_LINKSEL : Nat := 0xA0010
/-- Table 14.11. -/
abbrev NET_LINK_STAT : Nat := 0xA0014
/-- Table 14.12. -/
abbrev NET_SPARES : Nat := 0xA0018
/-- Table 14.13. -/
abbrev NET_WORST : Nat := 0xA001C
/-- Table 14.14. -/
abbrev NET_CLSEL : Nat := 0xA0020
/-- Table 14.15. -/
abbrev NET_CLBYTES : Nat := 0xA0028
/-- Table 14.16. -/
abbrev NET_VSEL : Nat := 0xA0040
/-- Table 14.17. -/
abbrev NET_VDATA : Nat := 0xA0044
/-- Table 14.18. -/
abbrev NET_SUBST : Nat := 0xA0050
/-- Table 14.19. -/
abbrev BWREG_MODE : Nat := 0x90000
/-- Table 14.20. -/
abbrev BWREG_WINDOW : Nat := 0x90004
/-- Table 14.21. -/
abbrev BWREG_MISS_PEND : Nat := 0x90008
/-- Table 14.22. -/
abbrev BWREG_MISS_FIRST : Nat := 0x9000C
/-- Table 14.23. -/
abbrev BWREG_ESEL : Nat := 0x90010
/-- Table 14.24. -/
abbrev BWREG_ESTAT : Nat := 0x90014
/-- Table 14.25. -/
abbrev BWREG_ESTAT2 : Nat := 0x90018
/-- Table 14.26. -/
abbrev BWREG_EURG : Nat := 0x9001C
/-- Table 14.27. -/
abbrev BWREG_MISS : Nat := 0x90100
/-- Table 15.10. -/
abbrev SPL_INSERVICE : Nat := 0xB0000
/-- Table 15.10. -/
abbrev SPL_DEGRADED : Nat := 0xB0008
/-- Table 15.11. -/
abbrev SPL_EVT : Nat := 0xB0010
/-- Table 15.12. -/
abbrev SPL_CFG : Nat := 0xB0014
/-- Table 15.13. -/
abbrev SPL_LINKSEL : Nat := 0xB0020
/-- Table 15.13. -/
abbrev SPL_LINKCTL : Nat := 0xB0024
/-- Table 15.14. -/
abbrev SPL_LINK_STAT : Nat := 0xB0028
/-- Table 15.15. -/
abbrev SPL_PEER : Nat := 0xB002C
/-- Table 15.16. -/
abbrev SPL_FEC_CORR : Nat := 0xB0030
/-- Table 15.16. -/
abbrev SPL_FEC_UNCORR : Nat := 0xB0038
/-- Table 15.16. -/
abbrev SPL_REPLAYS : Nat := 0xB003C
/-- Table 15.16. -/
abbrev SPL_TXBYTES : Nat := 0xB0040
/-- Table 15.16. -/
abbrev SPL_RXBYTES : Nat := 0xB0048
/-- Table 15.17. -/
abbrev SPL_OUTSTANDING : Nat := 0xB0060
/-- Table 15.17. -/
abbrev SPL_TIMEOUTS : Nat := 0xB0070
/-- Table 15.17. -/
abbrev SPL_DISCARDS : Nat := 0xB0074
/-- Table 15.17. -/
abbrev SPL_FORWARDED : Nat := 0xB0078
/-- Table 15.17. -/
abbrev SPL_NOROUTE : Nat := 0xB007C
/-- Table 15.17. -/
abbrev SPL_TMARK : Nat := 0xB0100
/-- Table 16.10. -/
abbrev GLB_APBASE : Nat := 0x100
/-- Table 16.11. -/
abbrev GLB_APPART : Nat := 0x108
/-- Table 16.12. -/
abbrev GLB_HPORT : Nat := 0x110
/-- Table 16.13. -/
abbrev TICK_TB_CFG : Nat := 0x30800
/-- Table 16.14. -/
abbrev TICK_TB_CTL : Nat := 0x30804
/-- Table 16.15. -/
abbrev TICK_TB_STAT : Nat := 0x30808
/-- Table 16.16. -/
abbrev TICK_TB_SEEN : Nat := 0x3080C
/-- Table 16.17. -/
abbrev TICK_TB_EVT : Nat := 0x30810
/-- Table 17.5. -/
abbrev PWR_STATUS : Nat := 0x40000
/-- Table 17.6. -/
abbrev PWR_LIMIT : Nat := 0x40004
/-- Table 17.7. -/
abbrev PWR_EFFECTIVE : Nat := 0x40008
/-- Table 17.8. -/
abbrev PWR_POWER : Nat := 0x4000C
/-- Table 17.9. -/
abbrev PWR_INPUT : Nat := 0x40010
/-- Table 17.10. -/
abbrev PWR_EVT : Nat := 0x40014
/-- Table 17.11. -/
abbrev PWR_LAST_RESET : Nat := 0x40018
/-- Table 17.12. -/
abbrev PWR_DIPS : Nat := 0x4001C
/-- Table 17.12. -/
abbrev PWR_DIP_LAST : Nat := 0x40020
/-- Table 17.13. -/
abbrev PWR_PRIO : Nat := 0x40028
/-- Table 17.14. -/
abbrev PWR_STOPPED : Nat := 0x4002C
/-- Table 17.15. -/
abbrev PWR_RAMP : Nat := 0x40030
/-- Table 17.16. -/
abbrev PWR_CORESEL : Nat := 0x40040
/-- Table 17.17. -/
abbrev PWR_CORE_STAT : Nat := 0x40044
/-- Table 17.18. -/
abbrev PWR_CORE_PHASE : Nat := 0x40048
/-- Table 17.19. -/
abbrev PWR_RAIL_SEL : Nat := 0x40050
/-- Table 17.19. -/
abbrev PWR_RAIL_STAT : Nat := 0x40054
/-- Table 18.6. -/
abbrev THM_STATUS : Nat := 0x50000
/-- Table 18.7. -/
abbrev THM_EVT : Nat := 0x50004
/-- Table 18.8. -/
abbrev THM_DIESEL : Nat := 0x50010
/-- Table 18.9. -/
abbrev THM_DIE_STAT : Nat := 0x50014
/-- Table 18.10. -/
abbrev THM_DIE_EST : Nat := 0x50018
/-- Table 18.11. -/
abbrev THM_SENSEL : Nat := 0x5001C
/-- Table 18.11. -/
abbrev THM_SENSOR : Nat := 0x50020
/-- Table 18.12. -/
abbrev THM_PEAK : Nat := 0x50024
/-- Table 18.13. -/
abbrev THM_ALT_CFG : Nat := 0x50040
/-- Table 18.14. -/
abbrev THM_ALT_CMD : Nat := 0x50044
/-- Table 18.15. -/
abbrev THM_ALT_STAT : Nat := 0x50048
/-- Table 18.16. -/
abbrev THM_AGESEL : Nat := 0x50050
/-- Table 18.16. -/
abbrev THM_AGE : Nat := 0x50054
/-- Table 18.17. -/
abbrev THM_AGE_HOURS : Nat := 0x50058
/-- Table 18.18. -/
abbrev THM_SHUT_CLR : Nat := 0x500FC
/-- Table 18.18. -/
abbrev THM_SHUT : Nat := 0x50100
/-- Table 19.7. -/
abbrev ERR_CFG : Nat := 0x80000
/-- Table 19.7. -/
abbrev ERR_HEAD : Nat := 0x80004
/-- Table 19.7. -/
abbrev ERR_TAIL : Nat := 0x80008
/-- Table 19.7. -/
abbrev ERR_SEQ : Nat := 0x8000C
/-- Table 19.7. -/
abbrev ERR_LOST : Nat := 0x80010
/-- Table 19.7. -/
abbrev ERR_CLASS : Nat := 0x80040
/-- Table 19.7. -/
abbrev ERR_REC : Nat := 0x88000
/-- Table 19.8. -/
abbrev IRQ_CTRL : Nat := 0x70000
/-- Table 19.8. -/
abbrev IRQ_RAW : Nat := 0x70010
/-- Table 19.8. -/
abbrev IRQ_MASK : Nat := 0x70030
/-- Table 19.8. -/
abbrev IRQ_GPEND : Nat := 0x70050
/-- Table 19.8. -/
abbrev IRQ_GCFG : Nat := 0x70100
/-- Table 19.8. -/
abbrev IRQ_EOI : Nat := 0x70200
/-- Table 19.8. -/
abbrev IRQ_TOP : Nat := 0x70204
/-- Table 19.8. -/
abbrev IRQ_STACK : Nat := 0x70210
/-- Table 19.8. -/
abbrev IRQ_VFCFG : Nat := 0x70300
/-- Table 19.8. -/
abbrev IRQ_FILT : Nat := 0x70400
/-- Table 20.7. -/
abbrev ESC_STATUS : Nat := 0x60000
/-- Table 20.7. -/
abbrev ESC_BOOT : Nat := 0x60004
/-- Table 20.7. -/
abbrev ESC_CMD : Nat := 0x60008
/-- Table 20.7. -/
abbrev ESC_ADDR : Nat := 0x60010
/-- Table 20.7. -/
abbrev ESC_LEN : Nat := 0x60018
/-- Table 20.7. -/
abbrev ESC_RESULT : Nat := 0x6001C
/-- Table 20.7. -/
abbrev ESC_SLOTS : Nat := 0x60020
/-- Table 20.7. -/
abbrev ESC_TOKSEQ : Nat := 0x60028
/-- Table 20.7. -/
abbrev ESC_KEYSTATE : Nat := 0x60030
/-- Table 20.7. -/
abbrev ESC_TURNOVER : Nat := 0x60034
/-- Table 21.6. -/
abbrev BRUP_CMD : Nat := 0x10000
/-- Table 21.6. -/
abbrev BRUP_STATUS : Nat := 0x10004
/-- Table 21.6. -/
abbrev BRUP_EVT : Nat := 0x10008
/-- Table 21.6. -/
abbrev BRUP_MODRST : Nat := 0x1000C
/-- Table 21.6. -/
abbrev BRUP_PRESET : Nat := 0x10010
/-- Table 21.6. -/
abbrev BRUP_PRESET_BUSY : Nat := 0x10014
/-- Table 21.6. -/
abbrev BRUP_STACK : Nat := 0x10018
/-- Table 21.6. -/
abbrev BRUP_STACK_STAT : Nat := 0x1001C
/-- Table 21.6. -/
abbrev BRUP_CRESET : Nat := 0x10020
/-- Table 21.6. -/
abbrev BRUP_KAT_CORE : Nat := 0x10030
/-- Table 21.6. -/
abbrev BRUP_KAT_UNIT : Nat := 0x10040
/-- Table 21.6. -/
abbrev BRUP_DISCARDS : Nat := 0x10044
/-- Table 21.7. -/
abbrev PAIR_CFG : Nat := 0xF0000
/-- Table 21.7. -/
abbrev PAIR_CMD : Nat := 0xF0004
/-- Table 21.7. -/
abbrev PAIR_STATUS : Nat := 0xF0008
/-- Table 21.7. -/
abbrev PAIR_EVT : Nat := 0xF000C
/-- Table 21.7. -/
abbrev PAIR_MBUF : Nat := 0xF0010
/-- Table 21.7. -/
abbrev PAIR_MBUF_LEN : Nat := 0xF0018
/-- Table 21.7. -/
abbrev PAIR_TAKEOVERS : Nat := 0xF001C
/-- Table 21.7. -/
abbrev PAIR_DELTA : Nat := 0xF0100
/-- Table 21.7. -/
abbrev PAIR_LASTCOMMIT : Nat := 0xF0200

end Reg

/-- One register of BAR0: its offset, the strides and counts of its copies (largest stride first), whether it is a
64-bit pair (R9), the bits that a write sets (RW, RWS), the bits that a written 1 clears (W1C), the reset value, and
whether a command row of its own carries its writes. -/
structure RegRow where
  off : Nat
  dims : List (Nat × Nat)
  wide : Bool
  rw : Nat
  w1c : Nat
  reset : Nat
  own : Bool
deriving DecidableEq, Repr

/-- The registers of the GLB block (Table 1.7). -/
def rowsGLB : List RegRow := [
  ⟨Reg.GLB_VARIANT, [], false, 0x0, 0x0, 0x0, false⟩,
  ⟨Reg.GLB_IDENT, [], false, 0x0, 0x0, 0xB7000009, false⟩,
  ⟨Reg.GLB_MODID, [], false, 0x0, 0x0, 0xFFF, false⟩,
  ⟨Reg.GLB_APBASE, [], true, 0xFFFFFFFFFFFF, 0x0, 0x0, false⟩,
  ⟨Reg.GLB_APPART, [], false, 0x1F, 0x0, 0x0, false⟩,
  ⟨Reg.GLB_HPORT, [(0x4, 2)], false, 0x0, 0x0, 0x0, false⟩]

/-- The registers of the PTN block (Table 1.7). -/
def rowsPTN0 : List RegRow := [
  ⟨Reg.PTN_CMD, [], false, 0x0, 0x0, 0x0, true⟩,
  ⟨Reg.PTN_STATE, [], false, 0x0, 0x0, 0x0, false⟩,
  ⟨Reg.PTN_RESULT, [], false, 0x0, 0x0, 0x0, false⟩,
  ⟨Reg.PTN_TIMER, [], false, 0x0, 0x0, 0x0, false⟩,
  ⟨Reg.PTN_LOAD_ADDR, [], true, 0xFFFFFFFFFFFF, 0x0, 0x0, false⟩,
  ⟨Reg.PTN_LOAD_LEN, [], false, 0xFFFFFFFF, 0x0, 0x0, false⟩,
  ⟨Reg.PTN_PATCH_TARGET, [], false, 0xFFFF, 0x0, 0x0, false⟩,
  ⟨Reg.PTN_PATCH_OFF, [], false, 0xFFFFFFF, 0x0, 0x0, false⟩,
  ⟨Reg.PTN_PATCH_DATA, [], false, 0x0, 0x0, 0x0, true⟩,
  ⟨Reg.PTN_COMMIT_TICK, [], true, 0x0, 0x0, 0x0, false⟩,
  ⟨Reg.PTN_ACTIVE_ID, [], true, 0x0, 0x0, 0x0, false⟩,
  ⟨Reg.PTN_AFFECTED, [], false, 0x0, 0x0, 0x0, false⟩]

/-- More registers of the PTN block. -/
def rowsPTN1 : List RegRow := [
  ⟨Reg.PTN_SEWCOUNT, [], false, 0x0, 0x0, 0x0, false⟩,
  ⟨Reg.PTN_EPOCH, [(0x4, 16)], false, 0x0, 0x0, 0x0, false⟩]

/-- The registers of the PTN block. -/
def rowsPTN : List RegRow := rowsPTN0 ++ rowsPTN1

/-- The registers of the TICK block (Table 1.7). -/
def rowsTICK0 : List RegRow := [
  ⟨Reg.TICK_CTRL, [], false, 0x0, 0x0, 0x0, false⟩,
  ⟨Reg.TICK_STATUS, [], false, 0x0, 0x18, 0x0, false⟩,
  ⟨Reg.TICK_COUNT, [], true, 0x0, 0x0, 0x0, false⟩,
  ⟨Reg.TICK_PERIOD_NOW, [], false, 0x0, 0x0, 0x0, false⟩,
  ⟨Reg.TICK_DEMAND, [], false, 0x0, 0x0, 0x0, false⟩,
  ⟨Reg.TICK_SYNC_STAT, [], false, 0x0, 0x0, 0x0, false⟩,
  ⟨Reg.TICK_EASE_TICKS, [], false, 0x0, 0x0, 0x0, false⟩,
  ⟨Reg.TICK_OVLD, [], false, 0x0, 0xFFFF, 0x0, false⟩,
  ⟨Reg.TICK_PSTATE, [(0x20, 16)], false, 0x0, 0x0, 0x0, false⟩,
  ⟨Reg.TICK_OVER, [(0x20, 16)], false, 0x0, 0x0, 0x0, false⟩,
  ⟨Reg.TICK_LAG, [(0x20, 16)], false, 0x0, 0x0, 0x0, false⟩,
  ⟨Reg.TICK_RESIDENT, [(0x20, 16)], false, 0x0, 0x0, 0x0, false⟩]

/-- More registers of the TICK block. -/
def rowsTICK1 : List RegRow := [
  ⟨Reg.TICK_STEPNO, [(0x20, 16)], true, 0x0, 0x0, 0x0, false⟩,
  ⟨Reg.TICK_LASTSTEP, [(0x20, 16)], false, 0x0, 0x0, 0x0, false⟩,
  ⟨Reg.TICK_PEAKSTEP, [(0x20, 16)], false, 0x3FFFFFF, 0x0, 0x0, false⟩,
  ⟨Reg.TICK_FIT_SEL, [], false, 0xFFF, 0x0, 0x0, false⟩,
  ⟨Reg.TICK_FIT_PEND, [], false, 0x0, 0xFFFFFFFF, 0x0, false⟩,
  ⟨Reg.TICK_FIT_REC, [(0x4, 32)], false, 0x0, 0x0, 0x0, false⟩,
  ⟨Reg.TICK_PROOF_A, [(0x10, 16)], false, 0x0, 0x0, 0x0, false⟩,
  ⟨Reg.TICK_PROOF_B, [(0x10, 16)], false, 0x0, 0x0, 0x0, false⟩,
  ⟨Reg.TICK_PROOF_Q, [(0x10, 16)], false, 0x0, 0x0, 0x0, false⟩,
  ⟨Reg.TICK_TB_CFG, [], false, 0xFFFFFFFF, 0x0, 0xFFFF, false⟩,
  ⟨Reg.TICK_TB_CTL, [], false, 0x1, 0x0, 0x0, false⟩,
  ⟨Reg.TICK_TB_STAT, [], false, 0x0, 0x0, 0x10, false⟩]

/-- More registers of the TICK block. -/
def rowsTICK2 : List RegRow := [
  ⟨Reg.TICK_TB_SEEN, [], false, 0x0, 0x0, 0x0, false⟩,
  ⟨Reg.TICK_TB_EVT, [], false, 0x0, 0xF, 0x0, false⟩]

/-- The registers of the TICK block. -/
def rowsTICK : List RegRow := rowsTICK0 ++ rowsTICK1 ++ rowsTICK2

/-- The registers of the CORE block (Table 1.7). -/
def rowsCORE : List RegRow := [
  ⟨Reg.CORE_STATUS, [(0x40000, 64)], false, 0x0, 0x0, 0x0, false⟩,
  ⟨Reg.CORE_SLOTSTATE, [(0x40000, 64), (0x4, 8)], false, 0x0, 0x0, 0x0, false⟩,
  ⟨Reg.CORE_PARKED, [(0x40000, 64)], true, 0x0, 0x0, 0x0, false⟩,
  ⟨Reg.CORE_PARKCFG, [(0x40000, 64)], false, 0x1, 0x0, 0x1, false⟩,
  ⟨Reg.CORE_PARK_ACT, [(0x40000, 64)], false, 0x0, 0x0, 0x0, true⟩,
  ⟨Reg.CORE_PARK_RESULT, [(0x40000, 64)], false, 0x0, 0x0, 0x0, false⟩,
  ⟨Reg.CORE_PREG_SEL, [(0x40000, 64)], false, 0x3F1F7F, 0x0, 0x0, false⟩,
  ⟨Reg.CORE_PREG_DATA, [(0x40000, 64)], false, 0xFFFFFFFF, 0x0, 0x0, true⟩,
  ⟨Reg.CORE_ISSUE, [(0x40000, 64)], true, 0x0, 0x0, 0x0, false⟩,
  ⟨Reg.CORE_DUAL, [(0x40000, 64)], true, 0x0, 0x0, 0x0, false⟩,
  ⟨Reg.CORE_PARKS, [(0x40000, 64)], false, 0x0, 0x0, 0x0, false⟩]

/-- The registers of the LIN block (Table 1.7). -/
def rowsLIN0 : List RegRow := [
  ⟨Reg.LIN_STATUS, [], false, 0x0, 0x0, 0x0, false⟩,
  ⟨Reg.LIN_CLEAR, [], false, 0x0, 0x0, 0x0, true⟩,
  ⟨Reg.LIN_SCRUB, [], false, 0x1F, 0x0, 0x15, false⟩,
  ⟨Reg.LIN_PINCMD, [], false, 0x0, 0x0, 0x0, true⟩,
  ⟨Reg.LIN_PINRESULT, [], false, 0x0, 0x40000, 0x0, false⟩,
  ⟨Reg.LIN_HOMEQ, [], true, 0xFFFFFFFFFFFF, 0x0, 0x0, false⟩,
  ⟨Reg.LIN_HOMEQ_RES, [], false, 0x0, 0x0, 0x0, false⟩,
  ⟨Reg.LIN_HITSEL, [], false, 0x77, 0x0, 0x0, false⟩,
  ⟨Reg.LIN_LOOKUPS, [], true, 0x0, 0x0, 0x0, false⟩,
  ⟨Reg.LIN_HITS, [], true, 0x0, 0x0, 0x0, false⟩,
  ⟨Reg.LIN_PARTIAL, [], true, 0x0, 0x0, 0x0, false⟩,
  ⟨Reg.LIN_MISSES, [], true, 0x0, 0x0, 0x0, false⟩]

/-- More registers of the LIN block. -/
def rowsLIN1 : List RegRow := [
  ⟨Reg.LIN_SLICESEL, [], false, 0x7FF, 0x0, 0x0, false⟩,
  ⟨Reg.LIN_SLICE_STAT, [], false, 0x0, 0x0, 0x0, false⟩,
  ⟨Reg.LIN_SLICE_ERR, [], false, 0x0, 0x0, 0x0, false⟩,
  ⟨Reg.LIN_SLICE_THRASH, [], false, 0xFFFF0000, 0x0, 0x0, false⟩,
  ⟨Reg.LIN_ECC_CORR, [], false, 0x0, 0x0, 0x0, false⟩,
  ⟨Reg.LIN_ECC_UNCORR, [], false, 0x0, 0x0, 0x0, false⟩,
  ⟨Reg.LIN_ECC_STALE_OVF, [], false, 0x0, 0x0, 0x0, false⟩,
  ⟨Reg.LIN_THRASH, [(0x4, 48)], false, 0x0, 0xFFFFFFFF, 0x0, false⟩,
  ⟨Reg.LIN_PINNED, [(0x4, 8)], false, 0x0, 0x0, 0x0, false⟩]

/-- The registers of the LIN block. -/
def rowsLIN : List RegRow := rowsLIN0 ++ rowsLIN1

/-- The registers of the HBM block (Table 1.7). -/
def rowsHBM0 : List RegRow := [
  ⟨Reg.HBM_CAPACITY, [], false, 0x0, 0x0, 0x0, false⟩,
  ⟨Reg.HBM_CONDEMN_CFG, [], false, 0xFFFFFF, 0x0, 0x40004, false⟩,
  ⟨Reg.HBM_CONDEMN, [], false, 0x0, 0x0, 0x0, true⟩,
  ⟨Reg.HBM_PATROL, [], false, 0x1F, 0x0, 0x19, false⟩,
  ⟨Reg.HBM_TALLY_FAIL, [], false, 0x0, 0x0, 0x0, false⟩,
  ⟨Reg.HBM_TALLY_UNCHK, [], false, 0x0, 0x0, 0x0, false⟩,
  ⟨Reg.HBM_PEND, [(0x4, 24)], false, 0x0, 0x0, 0x0, false⟩,
  ⟨Reg.HBM_MAPPED, [(0x4, 24)], false, 0x0, 0x0, 0x0, false⟩,
  ⟨Reg.HBM_PCHSEL, [], false, 0x3FF, 0x0, 0x0, false⟩,
  ⟨Reg.HBM_PCH_ERR, [], false, 0x0, 0x0, 0x0, false⟩,
  ⟨Reg.HBM_PCH_STAT, [], false, 0x0, 0x0, 0x0, false⟩,
  ⟨Reg.HBM_STACKSEL, [], false, 0xF, 0x0, 0x0, false⟩]

/-- More registers of the HBM block. -/
def rowsHBM1 : List RegRow := [
  ⟨Reg.HBM_THERM, [], false, 0x0, 0x0, 0x0, false⟩,
  ⟨Reg.HBM_LAYER_T, [(0x4, 8)], false, 0x0, 0x0, 0x0, false⟩,
  ⟨Reg.HBM_THERM_EVT, [], false, 0x0, 0xFFF0FFF, 0x0, false⟩]

/-- The registers of the HBM block. -/
def rowsHBM : List RegRow := rowsHBM0 ++ rowsHBM1

/-- The registers of the JIG block (Table 1.7). -/
def rowsJIG0 : List RegRow := [
  ⟨Reg.JIG_ENG, [(0x4, 10)], false, 0x1, 0x0, 0x0, true⟩,
  ⟨Reg.JIG_BAD_PEND, [(0x4, 10)], false, 0x0, 0xFFFFFFFF, 0x0, false⟩,
  ⟨Reg.JIG_FAULT_PEND, [(0x4, 10)], false, 0x0, 0xFFFFFFFF, 0x0, false⟩,
  ⟨Reg.JIG_END_PEND, [(0x4, 10)], false, 0x0, 0xFFFFFFFF, 0x0, false⟩,
  ⟨Reg.JIG_CH_CTL, [(0x40, 320)], false, 0x0, 0x0, 0x0, true⟩,
  ⟨Reg.JIG_CH_STAT, [(0x40, 320)], false, 0x0, 0x0, 0x0, false⟩,
  ⟨Reg.JIG_CH_PROG, [(0x40, 320)], true, 0xFFFFFFFFFFFF, 0x0, 0x0, false⟩,
  ⟨Reg.JIG_CH_SB, [(0x40, 320)], true, 0xFFFFFFFFFFFF, 0x0, 0x0, false⟩,
  ⟨Reg.JIG_CH_DB, [(0x40, 320)], true, 0xFFFFFFFFFFFF, 0x0, 0x0, false⟩,
  ⟨Reg.JIG_CH_PC, [(0x40, 320)], false, 0x0, 0x0, 0x0, false⟩,
  ⟨Reg.JIG_CH_BAD, [(0x40, 320)], false, 0x0, 0x0, 0x0, false⟩,
  ⟨Reg.JIG_CH_BAD_CODE, [(0x40, 320)], false, 0x0, 0x0, 0x0, false⟩]

/-- More registers of the JIG block. -/
def rowsJIG1 : List RegRow := [
  ⟨Reg.JIG_CH_FAULT, [(0x40, 320)], false, 0x0, 0x0, 0x0, false⟩,
  ⟨Reg.JIG_CH_PASSES, [(0x40, 320)], false, 0x0, 0x0, 0x0, false⟩,
  ⟨Reg.JIG_CH_CRC, [(0x40, 320)], false, 0x0, 0x0, 0x0, false⟩,
  ⟨Reg.JIG_CH_WBASE, [(0x40, 320)], true, 0x0, 0x0, 0x0, false⟩]

/-- The registers of the JIG block. -/
def rowsJIG : List RegRow := rowsJIG0 ++ rowsJIG1

/-- The registers of the NET block (Table 1.7). -/
def rowsNET : List RegRow := [
  ⟨Reg.NET_STATUS, [], false, 0x0, 0x0, 0x0, false⟩,
  ⟨Reg.NET_EVT, [], false, 0x0, 0x1F, 0x0, false⟩,
  ⟨Reg.NET_DARN_CFG, [], false, 0xFFFFFF, 0x0, 0x10010, false⟩,
  ⟨Reg.NET_LINKSEL, [], false, 0x1F, 0x0, 0x0, false⟩,
  ⟨Reg.NET_LINK_STAT, [], false, 0x0, 0x0, 0x0, false⟩,
  ⟨Reg.NET_SPARES, [], false, 0x0, 0x0, 0x0, false⟩,
  ⟨Reg.NET_WORST, [], false, 0x0, 0x0, 0x0, false⟩,
  ⟨Reg.NET_CLSEL, [], false, 0x7F, 0x0, 0x0, false⟩,
  ⟨Reg.NET_CLBYTES, [], true, 0x0, 0x0, 0x0, false⟩,
  ⟨Reg.NET_VSEL, [], false, 0x1FFF, 0x0, 0x0, false⟩,
  ⟨Reg.NET_VDATA, [], false, 0x0, 0x0, 0x0, false⟩,
  ⟨Reg.NET_SUBST, [], false, 0x0, 0x0, 0x0, false⟩]

/-- The registers of the BWREG block (Table 1.7). -/
def rowsBWREG : List RegRow := [
  ⟨Reg.BWREG_MODE, [], false, 0x3, 0x0, 0x1, false⟩,
  ⟨Reg.BWREG_WINDOW, [], false, 0x0, 0x0, 0x0, false⟩,
  ⟨Reg.BWREG_MISS_PEND, [], false, 0x0, 0xFFFF, 0x0, false⟩,
  ⟨Reg.BWREG_MISS_FIRST, [], false, 0x0, 0x0, 0x0, false⟩,
  ⟨Reg.BWREG_ESEL, [], false, 0x3FFF, 0x0, 0x0, false⟩,
  ⟨Reg.BWREG_ESTAT, [], false, 0x0, 0x0, 0x0, false⟩,
  ⟨Reg.BWREG_ESTAT2, [], false, 0x0, 0x0, 0x0, false⟩,
  ⟨Reg.BWREG_EURG, [], false, 0x0, 0x0, 0x0, false⟩,
  ⟨Reg.BWREG_MISS, [(0x4, 16)], false, 0x0, 0x0, 0x0, false⟩]

/-- The registers of the SPL block (Table 1.7). -/
def rowsSPL0 : List RegRow := [
  ⟨Reg.SPL_INSERVICE, [], true, 0x0, 0x0, 0x0, false⟩,
  ⟨Reg.SPL_DEGRADED, [], true, 0x0, 0x0, 0x0, false⟩,
  ⟨Reg.SPL_EVT, [], false, 0x0, 0xF, 0x0, false⟩,
  ⟨Reg.SPL_CFG, [], false, 0xFFFFFF0F, 0x0, 0x10006408, false⟩,
  ⟨Reg.SPL_LINKSEL, [], false, 0x3F, 0x0, 0x0, false⟩,
  ⟨Reg.SPL_LINKCTL, [], false, 0x1, 0x0, 0x0, false⟩,
  ⟨Reg.SPL_LINK_STAT, [], false, 0x0, 0x0, 0x0, false⟩,
  ⟨Reg.SPL_PEER, [], false, 0x0, 0x0, 0x0, false⟩,
  ⟨Reg.SPL_FEC_CORR, [], true, 0x0, 0x0, 0x0, false⟩,
  ⟨Reg.SPL_FEC_UNCORR, [], false, 0x0, 0x0, 0x0, false⟩,
  ⟨Reg.SPL_REPLAYS, [], false, 0x0, 0x0, 0x0, false⟩,
  ⟨Reg.SPL_TXBYTES, [], true, 0x0, 0x0, 0x0, false⟩]

/-- More registers of the SPL block. -/
def rowsSPL1 : List RegRow := [
  ⟨Reg.SPL_RXBYTES, [], true, 0x0, 0x0, 0x0, false⟩,
  ⟨Reg.SPL_OUTSTANDING, [(0x4, 4)], false, 0x0, 0x0, 0x0, false⟩,
  ⟨Reg.SPL_TIMEOUTS, [], false, 0x0, 0x0, 0x0, false⟩,
  ⟨Reg.SPL_DISCARDS, [], false, 0x0, 0x0, 0x0, false⟩,
  ⟨Reg.SPL_FORWARDED, [], false, 0x0, 0x0, 0x0, false⟩,
  ⟨Reg.SPL_NOROUTE, [], false, 0x0, 0x0, 0x0, false⟩,
  ⟨Reg.SPL_TMARK, [(0x4, 16)], false, 0x0, 0x0, 0x0, false⟩]

/-- The registers of the SPL block. -/
def rowsSPL : List RegRow := rowsSPL0 ++ rowsSPL1

/-- The registers of the PWR block (Table 1.7). -/
def rowsPWR0 : List RegRow := [
  ⟨Reg.PWR_STATUS, [], false, 0x0, 0x0, 0x0, false⟩,
  ⟨Reg.PWR_LIMIT, [], false, 0xFFF, 0x0, 0xBB8, true⟩,
  ⟨Reg.PWR_EFFECTIVE, [], false, 0x0, 0x0, 0xBB8, false⟩,
  ⟨Reg.PWR_POWER, [], false, 0xFFF000, 0x0, 0x0, false⟩,
  ⟨Reg.PWR_INPUT, [], false, 0x0, 0x0, 0x0, false⟩,
  ⟨Reg.PWR_EVT, [], false, 0x0, 0x3F, 0x0, false⟩,
  ⟨Reg.PWR_LAST_RESET, [], false, 0x0, 0x0, 0x0, false⟩,
  ⟨Reg.PWR_DIPS, [], false, 0x0, 0x0, 0x0, false⟩,
  ⟨Reg.PWR_DIP_LAST, [], true, 0x0, 0x0, 0x0, false⟩,
  ⟨Reg.PWR_PRIO, [], false, 0xFFFFFFFF, 0x0, 0x0, false⟩,
  ⟨Reg.PWR_STOPPED, [], false, 0x0, 0x0, 0x0, false⟩,
  ⟨Reg.PWR_RAMP, [], false, 0x0, 0x0, 0x0, false⟩]

/-- More registers of the PWR block. -/
def rowsPWR1 : List RegRow := [
  ⟨Reg.PWR_CORESEL, [], false, 0x7F, 0x0, 0x0, false⟩,
  ⟨Reg.PWR_CORE_STAT, [], false, 0x0, 0x0, 0x0, false⟩,
  ⟨Reg.PWR_CORE_PHASE, [], false, 0x0, 0x0, 0x0, false⟩,
  ⟨Reg.PWR_RAIL_SEL, [], false, 0x1F, 0x0, 0x0, false⟩,
  ⟨Reg.PWR_RAIL_STAT, [], false, 0x0, 0x0, 0x0, false⟩]

/-- The registers of the PWR block. -/
def rowsPWR : List RegRow := rowsPWR0 ++ rowsPWR1

/-- The registers of the THM block (Table 1.7). -/
def rowsTHM0 : List RegRow := [
  ⟨Reg.THM_STATUS, [], false, 0x0, 0x0, 0x0, false⟩,
  ⟨Reg.THM_EVT, [], false, 0x0, 0x7F, 0x0, false⟩,
  ⟨Reg.THM_DIESEL, [], false, 0x1F, 0x0, 0x0, false⟩,
  ⟨Reg.THM_DIE_STAT, [], false, 0x0, 0x0, 0x0, false⟩,
  ⟨Reg.THM_DIE_EST, [], false, 0x0, 0x0, 0x0, false⟩,
  ⟨Reg.THM_SENSEL, [], false, 0x1F, 0x0, 0x0, false⟩,
  ⟨Reg.THM_SENSOR, [], false, 0x0, 0x0, 0x0, false⟩,
  ⟨Reg.THM_PEAK, [], false, 0xFF, 0x0, 0x0, false⟩,
  ⟨Reg.THM_ALT_CFG, [], false, 0xFFFF00FF, 0x0, 0x18, false⟩,
  ⟨Reg.THM_ALT_CMD, [], false, 0x0, 0x0, 0x0, true⟩,
  ⟨Reg.THM_ALT_STAT, [], false, 0x0, 0x0, 0x0, false⟩,
  ⟨Reg.THM_AGESEL, [], false, 0x7F, 0x0, 0x0, false⟩]

/-- More registers of the THM block. -/
def rowsTHM1 : List RegRow := [
  ⟨Reg.THM_AGE, [], false, 0x0, 0x0, 0x0, false⟩,
  ⟨Reg.THM_AGE_HOURS, [], false, 0x0, 0x0, 0x0, false⟩,
  ⟨Reg.THM_SHUT_CLR, [], false, 0x0, 0x0, 0x0, true⟩,
  ⟨Reg.THM_SHUT, [(0x4, 16)], false, 0x0, 0x0, 0x0, false⟩]

/-- The registers of the THM block. -/
def rowsTHM : List RegRow := rowsTHM0 ++ rowsTHM1

/-- The registers of the ERR block (Table 1.7). -/
def rowsERR : List RegRow := [
  ⟨Reg.ERR_CFG, [], false, 0xFFFF003F, 0x0, 0x3E8001F, false⟩,
  ⟨Reg.ERR_HEAD, [], false, 0x0, 0x0, 0x0, false⟩,
  ⟨Reg.ERR_TAIL, [], false, 0x1FF, 0x0, 0x0, true⟩,
  ⟨Reg.ERR_SEQ, [], false, 0x0, 0x0, 0x0, false⟩,
  ⟨Reg.ERR_LOST, [], false, 0xFFFF, 0x0, 0x0, false⟩,
  ⟨Reg.ERR_CLASS, [(0x4, 6)], false, 0x0, 0x0, 0x0, false⟩,
  ⟨Reg.ERR_REC, [(0x40, 512), (0x4, 16)], false, 0x0, 0x0, 0x0, false⟩]

/-- The registers of the IRQ block (Table 1.7). -/
def rowsIRQ : List RegRow := [
  ⟨Reg.IRQ_CTRL, [], false, 0x1, 0x0, 0x1, false⟩,
  ⟨Reg.IRQ_RAW, [(0x4, 5)], false, 0x0, 0xFFFFFFFF, 0x0, false⟩,
  ⟨Reg.IRQ_MASK, [(0x4, 5)], false, 0xFFFFFFFF, 0x0, 0x0, false⟩,
  ⟨Reg.IRQ_GPEND, [], false, 0x0, 0x0, 0x0, false⟩,
  ⟨Reg.IRQ_GCFG, [(0x4, 18)], false, 0xFFFF0FFF, 0x0, 0x0, false⟩,
  ⟨Reg.IRQ_EOI, [(0x40, 2)], false, 0x0, 0x0, 0x0, true⟩,
  ⟨Reg.IRQ_TOP, [(0x40, 2)], false, 0x0, 0x0, 0x1F, false⟩,
  ⟨Reg.IRQ_STACK, [(0x40, 2), (0x4, 8)], false, 0x0, 0x0, 0x0, false⟩,
  ⟨Reg.IRQ_VFCFG, [(0x4, 16)], false, 0x1F, 0x0, 0x0, false⟩,
  ⟨Reg.IRQ_FILT, [(0x4, 4)], false, 0xFF, 0x0, 0x0, false⟩]

/-- The registers of the ESC block (Table 1.7). -/
def rowsESC : List RegRow := [
  ⟨Reg.ESC_STATUS, [], false, 0x0, 0x0, 0x0, false⟩,
  ⟨Reg.ESC_BOOT, [], false, 0x0, 0x0, 0x0, false⟩,
  ⟨Reg.ESC_CMD, [], false, 0x0, 0x0, 0x0, true⟩,
  ⟨Reg.ESC_ADDR, [], true, 0xFFFFFFFFFFFF, 0x0, 0x0, false⟩,
  ⟨Reg.ESC_LEN, [], false, 0xFFFFFFFF, 0x0, 0x0, false⟩,
  ⟨Reg.ESC_RESULT, [], false, 0x0, 0x1000000, 0x0, false⟩,
  ⟨Reg.ESC_SLOTS, [], false, 0x0, 0x0, 0x0, false⟩,
  ⟨Reg.ESC_TOKSEQ, [], true, 0x0, 0x0, 0x0, false⟩,
  ⟨Reg.ESC_KEYSTATE, [], false, 0x0, 0x0, 0x0, false⟩,
  ⟨Reg.ESC_TURNOVER, [], false, 0x0, 0x0, 0x0, false⟩]

/-- The registers of the BRUP block (Table 1.7). -/
def rowsBRUP : List RegRow := [
  ⟨Reg.BRUP_CMD, [], false, 0x0, 0x0, 0x0, true⟩,
  ⟨Reg.BRUP_STATUS, [], false, 0x0, 0x10000, 0x10, false⟩,
  ⟨Reg.BRUP_EVT, [], false, 0x0, 0x3, 0x0, false⟩,
  ⟨Reg.BRUP_MODRST, [], false, 0x0, 0x0, 0x0, true⟩,
  ⟨Reg.BRUP_PRESET, [], false, 0x0, 0x0, 0x0, true⟩,
  ⟨Reg.BRUP_PRESET_BUSY, [], false, 0x0, 0x0, 0x0, false⟩,
  ⟨Reg.BRUP_STACK, [], false, 0x0, 0x0, 0x0, true⟩,
  ⟨Reg.BRUP_STACK_STAT, [], false, 0x0, 0x0, 0x0, false⟩,
  ⟨Reg.BRUP_CRESET, [], false, 0x0, 0x0, 0x0, true⟩,
  ⟨Reg.BRUP_KAT_CORE, [(0x4, 3)], false, 0x0, 0x0, 0x0, false⟩,
  ⟨Reg.BRUP_KAT_UNIT, [], false, 0x0, 0x0, 0x0, false⟩,
  ⟨Reg.BRUP_DISCARDS, [], false, 0x0, 0x0, 0x0, false⟩]

/-- The registers of the PAIR block (Table 1.7). -/
def rowsPAIR : List RegRow := [
  ⟨Reg.PAIR_CFG, [], false, 0xFFFF00F3, 0x0, 0x0, true⟩,
  ⟨Reg.PAIR_CMD, [], false, 0x0, 0x0, 0x0, true⟩,
  ⟨Reg.PAIR_STATUS, [], false, 0x0, 0x0, 0x0, false⟩,
  ⟨Reg.PAIR_EVT, [], false, 0x0, 0x1F, 0x0, false⟩,
  ⟨Reg.PAIR_MBUF, [], true, 0xFFFFFFFFFFFF, 0x0, 0x0, false⟩,
  ⟨Reg.PAIR_MBUF_LEN, [], false, 0xFFFF, 0x0, 0x0, false⟩,
  ⟨Reg.PAIR_TAKEOVERS, [], false, 0x0, 0x0, 0x0, false⟩,
  ⟨Reg.PAIR_DELTA, [(0x8, 16)], true, 0xFFFFFFFFFFFF, 0x0, 0x0, false⟩,
  ⟨Reg.PAIR_LASTCOMMIT, [(0x8, 16)], true, 0x0, 0x0, 0x0, false⟩]

/-- The rows of the block that holds offset `o` (R19): blocks of 64 KiB, and the CORE blocks of 256 KiB. -/
def rowsAt (o : Nat) : List RegRow :=
  match o / 0x10000 with
  | 0x0 => rowsGLB
  | 0x2 => rowsPTN
  | 0x3 => rowsTICK
  | 0xD => rowsLIN
  | 0xC => rowsHBM
  | 0xE => rowsJIG
  | 0xA => rowsNET
  | 0x9 => rowsBWREG
  | 0xB => rowsSPL
  | 0x4 => rowsPWR
  | 0x5 => rowsTHM
  | 0x8 => rowsERR
  | 0x7 => rowsIRQ
  | 0x6 => rowsESC
  | 0x1 => rowsBRUP
  | 0xF => rowsPAIR
  | _ => if 0x1000000 ≤ o ∧ o < 0x2000000 then rowsCORE else []

/-- What remains of the distance `d` after whole strides, where every index is inside its count. -/
def strideRest : List (Nat × Nat) → Nat → Option Nat
  | [], d => some d
  | (st, n) :: ds, d => if d / st < n then strideRest ds (d % st) else none

/-- Does offset `o` name this register (or, for a pair, its high word)? -/
def RegRow.at (r : RegRow) (o : Nat) : Bool :=
  decide (r.off ≤ o) &&
    (match strideRest r.dims (o - r.off) with
     | some 0 => true
     | some 4 => r.wide
     | _ => false)

/-- The register at offset `o`, where there is one. -/
def regRow (o : Nat) : Option RegRow := (rowsAt o).find? (fun r => r.at o)

/-- Is offset `o` the high word of a 64-bit register? -/
def isHigh (o : Nat) : Bool :=
  match regRow o with
  | some r => r.wide && (strideRest r.dims (o - r.off) == some 4)
  | none => false

/-- Is offset `o` a word of a 64-bit register (R9)? -/
def isWide (o : Nat) : Bool :=
  match regRow o with
  | some r => r.wide
  | none => false

/-- The reset value of the word at offset `o`: the tables' value; GCFGg.VECTOR resets to g and FILTx.CYCLES to 4, 200,
16 and 32 (Table 19.8). Fields the tables call fused, NOR, strap or held are read from State. -/
def regReset (o : Nat) : Word :=
  if 0x70100 ≤ o ∧ o < 0x70148 then BitVec.ofNat 32 ((o - 0x70100) / 4 * 16)
  else match o with
  | 0x70400 => 4
  | 0x70404 => 200
  | 0x70408 => 16
  | 0x7040C => 32
  | _ =>
    match regRow o with
    | some r => BitVec.ofNat 32 (if isHigh o then r.reset / 2 ^ 32 else r.reset)
    | none => 0

/-- The key of a banked register: its offset and the selection it is read under. -/
def bank (off sel : Nat) : Nat := off + 2 ^ 28 * (sel + 1)

end Sys2Proof.Machine
end

