-- ==== Sys2Proof/Machine/State.lean ====
section
/-! DEFINITION. The state of the PL9 as plain data, the outcomes of a command, and the state after reset. -/

namespace Sys2Proof.Machine

/-! ## Patterns (spec/02) -/

/-- A section of a pattern held by the management processors: payload length, the bytes that are not zero, and whether
a patch changed it (R35). -/
structure Sect where
  len : Nat := 0
  bytes : List Host.Cell := []
  patched : Bool := false
deriving DecidableEq, Repr

/-- A pattern: PATTERN_ID of the last image loaded into it, its sections by `TYPE × 16 + partition`, and the dynamic
regions of LINING_PLAN that are pinned (R236). -/
structure Pat where
  id : Nat := 0
  secs : List (Nat × Sect) := []
  pins : List Nat := []
deriving DecidableEq, Repr

/-- The basting states of Table 2.8. -/
inductive Phase where
  | idle
  | opened
  | sewing
  | armed
deriving DecidableEq, Repr

/-- The PTN block: the running pattern, the staged copy, and the basting (R33 to R37, R45): `loadLen` is LOAD_LEN of the load
under way and `loadAddr` its address, `loaded` says that a LOAD was accepted, `freshSecs` are the sections loaded in this
basting, `committed` that a commit has been made since module reset, `commitDue` that the commit boundary has been reached,
`recheck` that the device has changed the staged copy since it was validated (R268). -/
structure Ptn where
  running : Pat := {}
  staged : Option Pat := none
  phase : Phase := .idle
  partScope : Bool := false
  part : Fin 16 := 0
  opener : Func := .pf 0
  deadline : Nat := 0
  loading : Bool := false
  loadLen : Nat := 0
  loadAddr : Nat := 0
  token : Option TokenIn := none
  loaded : Bool := false
  freshSecs : List Nat := []
  committed : Bool := false
  commitDue : Bool := false
  recheck : Bool := false
deriving DecidableEq, Repr

/-! ## Ticks and steps (spec/03) -/

/-- The tick logic: the boundary schedule, the outstanding demand, the reference (R47 to R60, R76). Times are in ns; `begun`
and `next` are the ends of the current base tick, `passed` the last boundaries, newest first, by which R55 finds the aligned
boundary nearest a target. -/
structure Tick where
  en : Bool := false
  halted : Bool := false
  haltLeft : Option Nat := none
  demand : Int := 0
  begun : Nat := 0
  next : Option Nat := none
  waitEdge : Bool := false
  lastEdge : Option Nat := none
  refFrom : Nat := 0
  lastErr : Option Int := none
  easeExceeded : Bool := false
  syncLost : Bool := false
  passed : List Nat := []
deriving DecidableEq, Repr

/-- An entry of a step's admission list (R217): its 64 bytes as words. -/
structure Admitted where
  words : List Word
deriving DecidableEq, Repr

/-- A completion entry due to a sheet (Table 3.6): its 64 bytes as words, whether the tick program wrote it, and whether the
end of a step has released the cost that its FINAL gives up (R67). -/
structure Comp where
  words : List Word
  byProgram : Bool
  freed : Bool := false
deriving DecidableEq, Repr

/-- A partition outside its registers: its step, admission list, the admitted entries that hold their cost (TAG and COST,
oldest first), backlog, overload trigger and reset (R49 to R78), whether the step's sheet is written and its COMMIT is
awaited (R476). `tail` is TAIL as sampled at a boundary at
which a commit is due (R64), `startDue` a step whose tick program waits for the copy of its cutting lists (R283), `starts` the
physical cores that the step includes (R404, R419), `resetEpoch` the epoch that the last partition reset recorded (R464). -/
structure Part where
  running : Bool := false
  late : Bool := false
  held : Bool := false
  skipped : Nat := 0
  boundary : Nat := 0
  began : Nat := 0
  admitted : List Admitted := []
  residents : List (Nat × Nat) := []
  mirroring : Bool := false
  backlog : List Comp := []
  fitClosed : Bool := false
  ages : List Nat := []
  overloaded : Bool := false
  supply : Bool := false
  startDue : Bool := false
  starts : List Nat := []
  cutCopy : Bool := false
  tail : Nat := 0
  hashGen : Nat := 0
  stopped : Bool := false
  resetting : Bool := false
  resetEpoch : Option Nat := none
  turnover : Bool := false
deriving DecidableEq, Repr

/-! ## Errors and interrupts (spec/19) -/

/-- An error record (Table 19.1). `part` is none for NONE; `lastAt` is the time of the last occurrence (R427). -/
structure ErrRec where
  code : Nat
  unit : Nat
  part : Option Nat
  loss : Bool
  preReady : Bool
  count : Nat
  tick : Nat
  addr : Nat
  syndrome : Nat
  lastTick : Nat
  seq : Nat
  epoch : Nat
  lastAt : Nat
deriving DecidableEq, Repr

/-- The log: records waiting for the logger, the ring by slot, and whether the next append carries LOSS, and
the time of the last append (R426). -/
structure Log where
  queue : List ErrRec := []
  ring : List (Nat × ErrRec) := []
  loss : Bool := false
  lastAt : Option Nat := none
deriving DecidableEq, Repr

/-- An entry of a target's stack: group and the priority it was pushed with (R433). -/
structure StackEnt where
  group : Nat
  prio : Nat
deriving DecidableEq, Repr

/-- A vector of a virtual function: when its last message was sent, and whether events wait for its hold-off (R438). -/
structure VfVec where
  last : Option Nat := none
  waiting : Bool := false
  hold : Nat := 0
deriving DecidableEq, Repr

/-- The interrupt controller outside its registers: the stacks, top entry first, the time of the last presentation of
each group by `32 × target + group`, and the vectors of virtual functions by `64 × port + 4 × k + vector`. -/
structure Irq where
  stack0 : List StackEnt := []
  stack1 : List StackEnt := []
  stack2 : List StackEnt := []
  shown : List (Nat × Nat) := []
  vf : List (Nat × VfVec) := []
deriving DecidableEq, Repr

/-! ## Host interface (spec/16) -/

/-- A PCIe function: aperture registers, BAR2 size, MSI-X enable and function mask (R363 to R369). -/
structure Fn where
  apbase : Nat := 0
  appart : Nat := 0
  modAcc : Bool := false
  bar2Log : Nat := 28
  msix : Bool := false
  fmask : Bool := false
  bars : List (Nat × Nat) := []
  d3 : Bool := false
deriving DecidableEq, Repr

/-- A BAR2 request that is not complete (R369, R370): function number, partition, write or read, its pieces to do (address,
length, bytes to write), the bytes read, whether a piece has failed, which of a read leaves it poisoned (R430), the request that
awaits its READ_RESP with the bytes of its answer to skip, and when it arrived. -/
structure HostOp where
  fn : Nat
  part : Option Nat
  write : Bool
  todo : List (Nat × Nat × List Byte)
  got : List Byte := []
  poison : Bool := false
  remote : Option Nat := none
  skip : Nat := 0
  since : Nat
deriving DecidableEq, Repr

/-- States of GLB.HPORTp (Table 16.12). -/
inductive PortState where
  | down
  | training
  | up
deriving DecidableEq, Repr

/-- A host port: link state, negotiated speed and width, VF Enable and NumVFs, its BAR2 requests in arrival order, the accesses that
wait behind posted writes of BAR2 with when they arrived (R370), and when the one that is being made arrived. -/
structure Port where
  st : PortState := .down
  speed : Nat := 0
  width : Nat := 0
  vfEnable : Bool := false
  numVfs : Nat := 0
  ops : List HostOp := []
  later : List (Nat × Instr) := []
  arrived : Option Nat := none
deriving DecidableEq, Repr

/-- The host side: functions by number, ports, MSI-X table words, PBA bits. A function's number is 17 × port, plus k for
VF k. -/
structure HostIf where
  fns : List (Nat × Fn) := []
  port0 : Port := {}
  port1 : Port := {}
  msixWords : List (Nat × Word) := []
  pba : List Nat := []
deriving DecidableEq, Repr

/-- How a completed access looks to the host: the register or sensor value, data bytes, an error code, and the kind of
completion (R369). -/
inductive CplKind where
  | ok
  | poisoned
  | abort
  | unsupported
deriving DecidableEq, Repr

/-- What the last command returned to its sender. -/
structure Reply where
  value : Nat := 0
  data : List Byte := []
  code : Nat := 0
  kind : CplKind := .ok
deriving DecidableEq, Repr

/-- The tick bus answer of the last cycle, true for 'pulled low' (R378), and the pins of R383 and R384. -/
structure Pins where
  rdyLow : Bool := false
  ovrLow : Bool := false
  rspLow : Bool := false
  thermIn : Bool := false
  faultIn : Bool := false
  alert : Bool := false
deriving DecidableEq, Repr

/-- The management target (R385 to R387): its I3C address if it has one, its MCTP endpoint ID, the event receiver, the
POWER_LIMIT effecter, and the state last reported of each sensor (R387). -/
structure Mgmt where
  i3c : Option Nat := none
  eid : Option Nat := none
  receiver : Option Nat := none
  limit : Nat := 3000
  states : List (Nat × Nat) := []
deriving DecidableEq, Repr

/-- A message the module has sent. -/
inductive Out where
  | msix (port fn vector : Nat)
  | flit (link : Nat) (bytes : List Byte)
  | event (sensor : Nat) (now before : Nat)
  | completion (fn : Nat) (kind : CplKind) (code : Nat) (data : List Byte)
  | aer (port : Nat) (code : Nat)
  | spdm (doe : Option Func) (message : List Byte)
  | alert (inBand : Bool)
  | doe (f : Func) (data : List Byte)
deriving DecidableEq, Repr

/-! ## Lining and HBM (spec/10, spec/11) -/

/-- The marks of a lining sector, its byte parities and its code (Table 10.1). -/
structure Sec where
  v : Bool := false
  stale : Bool := false
  poison : Bool := false
  dirty : Bool := false
  parity : Word := 0
  code : BitVec 16 := 0
deriving DecidableEq, Repr

/-- What an access asks of a line: to read it, to write it, or an update (R238). -/
inductive AccKind where
  | read
  | write
  | update
deriving DecidableEq, Repr

/-- An access that a line, a set, a slice or a stack holds up. -/
structure Ask where
  agent : Agent
  part : Option Nat
  addr : Nat
  len : Nat
  kind : AccKind
  ecc : Ecc
deriving DecidableEq, Repr

/-- What stands in the update queue of a line (R239): an access of the lining's own commands, or the place of another
requester's update, which that requester's own command performs in its turn. -/
inductive Queued where
  | access (x : LinAccess)
  | place (q : Ask)
deriving DecidableEq, Repr

/-- A request that waits at its slice, its regulators or its stack: what it asks, with no error in it; whether its lookup has been
counted (R249); the regulator entries and points at which it waits (R333); the stopped stack at which it waits and since when, and
whether that has been 20 ms (R272). -/
structure Ticket where
  ask : Ask
  counted : Bool := false
  holds : List (Nat × Nat) := []
  stop : Option (Nat × Nat) := none
  late : Bool := false
deriving DecidableEq, Repr

/-- A cached HBM line at its home slice (R225 to R232, R239): slice, set and way, SHARERS, RECALL, the fetches in flight with
the accesses that joined them, the accesses that wait, the writes taken that wait for its copies, the updates queued, and whether
it had a hit since its fill. -/
structure Line where
  die : Nat := 0
  slice : Nat := 0
  setIx : Nat := 0
  way : Nat := 0
  sharers : Nat := 0
  recalling : Bool := false
  fills : List (Nat × List LinAccess) := []
  waits : List LinAccess := []
  due : List LinAccess := []
  held : List Queued := []
  hit : Bool := false
deriving DecidableEq, Repr

/-- A copy of a line on another die (R230): its slice there, set and way, and the mask of its sectors. -/
structure Copy where
  slice : Nat
  setIx : Nat
  way : Nat
  mask : Nat
deriving DecidableEq, Repr

/-- The lining: bytes by device address (cached HBM lines and pinned ways alike), sector marks by address / 32, lines by
address / 128, copies by `8 × line + die`, write-back buffers (line and slice, in order), accesses that wait at a slice or behind
a regulator, stale queues, sweep positions, dead evictions, slices whose THRASH is not re-armed, the LIN commands under way, the
access that holds up the command under way, what is known of the requests that wait, and the copies still to be placed, by
`8 × line + die` with the mask of their sectors (R230). -/
structure Lining where
  data : List Host.Cell := []
  secs : List (Nat × Sec) := []
  lines : List (Nat × Line) := []
  copies : List (Nat × Copy) := []
  writeBack : List (Nat × Nat) := []
  blocked : List LinAccess := []
  staleQ : List (Nat × List Nat) := []
  sweep : List (Nat × Nat) := []
  dead : List (Nat × Nat) := []
  thrashed : List Nat := []
  clearing : Bool := false
  flushing : Option (Fin 16) := none
  pinCmd : Option (Bool × Nat) := none
  stuck : Option Ask := none
  tickets : List Ticket := []
  copyDue : List (Nat × Nat) := []
deriving DecidableEq, Repr

/-- What a stack stores beside a written sector: its metadata, POISON and code, and the key it was written under (Table 11.2,
R259, R450). -/
structure HSec where
  poison : Bool := false
  code : BitVec 24 := 0
  gen : Nat := 0
deriving DecidableEq, Repr

/-- Stack thermal states (Table 11.5). -/
inductive StackState where
  | normal
  | throttle
  | stop
deriving DecidableEq, Repr

/-- A stack: thermal state, the last valid report of each layer, and whether a request has waited 20 ms in this STOP (R270 to
R272). -/
structure StackSt where
  st : StackState := .normal
  temps : List (Option Int) := []
  expired : Bool := false
deriving DecidableEq, Repr

/-- A sector access that waits at a stopped stack (R272): address, bytes of a write, what the code shows, the stack, since when,
and the generation of the key in force when it came (R454). -/
structure SectorWait where
  addr : Nat
  write : Option (List Byte)
  ecc : Ecc
  stack : Nat
  since : Nat
  gen : Nat
deriving DecidableEq, Repr

/-- A sector that the lining wrote back under a mapping that has changed since, and that its stack has not yet taken (R235): the
die it comes from, the stack, the sector's key, its bytes and its record. -/
structure LateWrite where
  die : Nat
  stack : Nat
  key : Nat
  bytes : List Byte
  sec : HSec
deriving DecidableEq, Repr

/-- HBM: bytes by `pseudo-channel × 2^30 + offset`, sector records by `pseudo-channel × 2^25 + sector`, distinct bad
sectors, corrected-error windows (start, count), patrol positions, stacks, the contents epoch of undefined spans, the sector
accesses that wait at a stopped stack, the write-backs of an earlier mapping still to be taken, and the channels condemned since a
commit fell due (R268). -/
structure Hbm where
  data : List Host.Cell := []
  secs : List (Nat × HSec) := []
  bad : List Nat := []
  ce : List (Nat × (Nat × Nat)) := []
  patrol : List (Nat × Nat) := []
  stks : List (Nat × StackSt) := []
  undef : Nat := 0
  waits : List SectorWait := []
  late : List LateWrite := []
  fresh : List Nat := []
deriving DecidableEq, Repr

/-! ## Network (spec/14) -/

/-- One direction of a dowel link: groups dropped, lanes replaced by spares, lanes that failed and wait for the next
base boundary (a lane is 68 × group + lane), and the error window NET.WORST speaks of. -/
structure Dowel where
  dropped : List Nat := []
  darned : List Nat := []
  waiting : List Nat := []
  worstAt : Nat := 0
deriving DecidableEq, Repr

/-- A regulator entry at a point: allowance left in the window, bytes served, and whether a request of it was deferred in this
window (R332, R333). Whether one waits there is in the tickets of the lining. -/
structure Regul where
  allow : Int := 0
  served : Nat := 0
  deferred : Bool := false
deriving DecidableEq, Repr

/-- The network and its regulators: dowel directions, regulator entries, when the window began, the urgency that each real-time
master drives (R334), and the master served last at each point (R333). -/
structure Net where
  dirs : List (Nat × Dowel) := []
  regs : List (Nat × Regul) := []
  windowAt : Nat := 0
  urg : List (Nat × Nat) := []
  turn : List (Nat × Nat) := []
deriving DecidableEq, Repr

/-! ## Thread groups (spec/08, spec/09) -/

/-- Slot states (Table 8.2). -/
inductive SlotState where
  | free
  | ready
  | busy
  | waiting
  | parked
deriving DecidableEq, Repr

/-- An entry of the reconvergence stack (R173): resume address, lanes, reconvergence point. -/
structure RecEnt where
  resume : Nat
  lanes : BitVec 32
  rpc : Nat
deriving DecidableEq, Repr

/-- What a WAITING group waits for: a barrier, the clamps of its top entry, a completion counter and its target, or signal
words by lane with the threshold of each. -/
inductive WaitFor where
  | nothing
  | barrier (b : Nat)
  | clamp
  | counter (ctr target : Nat)
  | signals (ws : List (Nat × (Nat × Nat)))
deriving DecidableEq, Repr

/-- What a memory request of a group does; `staged` is an LDS, whose value stands in operand B of its lanes. -/
inductive ReqKind where
  | load (bytes : Nat) (sext : Bool) (cached : Bool)
  | staged (bytes : Nat) (sext : Bool)
  | store (bytes : Nat)
  | atom (op type : Nat)
  | acquire (qd : Nat) (resume rpc : Nat)
  | release (qd : Nat)
  | signal
deriving DecidableEq, Repr

/-- A lane's part of a request: lane, device address, operand B, operand C. -/
structure LaneAcc where
  lane : Nat
  addr : Nat
  b : Nat
  c : Nat
deriving DecidableEq, Repr

/-- A memory request of a group (R175, R181): the instruction it belongs to, its lanes, its destination register. -/
structure MemReq where
  op : Nat
  kind : ReqKind
  dst : Nat
  lanes : List LaneAcc
  remote : Option Nat
deriving DecidableEq, Repr

/-- An instruction with requests outstanding: its PC, first 8 bytes, active mask and reconvergence stack, the lanes that failed,
the first failing code and the address of the lowest of them, whether some lane completed, and whether its retirement resets
the watchdog. -/
structure OpenOp where
  pc : Nat
  word : Nat
  mask : BitVec 32
  stack : List RecEnt
  failed : BitVec 32
  code : Nat
  addr : Nat
  done : Bool
  progress : Bool
deriving DecidableEq, Repr

/-- A proof job record (Table 7.5), with the generation of the fit record it was built for (R162). -/
structure Job where
  fitId : Nat
  fmt : Nat
  flags : Nat
  scale : Word
  ctx : Nat
  row : Nat
  col : Nat
  rows : Nat
  cols : Nat
  target : Nat
  tick : Nat
  values : List (Nat × Word)
  gen : Nat
deriving DecidableEq, Repr

/-- A thread group (R166 to R191): slot state, control state, registers by `128 × lane + w`, predicates by lane, the
reconvergence stack top first, watchdog count, conversion status, clamp waits by lane with address and value found,
woken lanes, release notices under way to it by address with the lanes they are for (R186), signal words of its wait written
since it read them (R209), HELD, wait, pending barrier arrival, requests and open instructions, an asynchronous fault that
waits, a watchdog that has run out while loads are in flight (R189), the mask to go on with after a replay, a stall on the PANEL
queue, the proof job, which a proof group holds all its life, the word and length of the instruction under way, and the core's
issue count at its last issue. -/
structure Group where
  st : SlotState := .free
  pc : Nat := 0
  active : BitVec 32 := 0
  alive : BitVec 32 := 0
  regs : List (Nat × Word) := []
  preds : List (Nat × BitVec 7) := []
  stack : List RecEnt := []
  wdog : Nat := 0
  cvNan : Nat := 0
  cvOvf : Nat := 0
  cvFlush : Nat := 0
  waits : List (Nat × (Nat × Nat)) := []
  woken : BitVec 32 := 0
  notices : List (Nat × BitVec 32) := []
  written : List Nat := []
  held : Nat := 0
  wait : WaitFor := .nothing
  barrier : Option Nat := none
  reqs : List MemReq := []
  ops : List (Nat × OpenOp) := []
  nextOp : Nat := 0
  async : Option (Nat × Nat) := none
  expired : Bool := false
  replay : Option (BitVec 32) := none
  stalled : Bool := false
  job : Option Job := none
  word : Nat := 0
  len : Nat := 8
  issued : Nat := 0
deriving DecidableEq, Repr

/-- A park record (Table 8.8). -/
structure ParkRec where
  code : Nat := 0
  sub : Nat := 0
  slot : Nat := 0
  core : Nat := 0
  part : Nat := 0
  flags : Nat := 0
  tick : Nat := 0
  pc : Nat := 0
  active : Nat := 0
  faults : Nat := 0
  waiting : Nat := 0
  instr : Nat := 0
  addr : Nat := 0
  wdog : Nat := 0
  epoch : Nat := 0
  depth : Nat := 0
  held : Nat := 0
  barrier : Nat := 0
  stack : List RecEnt := []
  waits : List (Nat × (Nat × Nat)) := []
deriving DecidableEq, Repr

/-- What a physical core's BAR0 block keeps while no logical core stands before it (R20): PARKCFG, PARK_RESULT, PREG_SEL
and its park records by slot. -/
structure CoreBlock where
  cfg : Word := 1
  result : Word := 0
  sel : Word := 0
  parks : List (Nat × ParkRec) := []
deriving DecidableEq, Repr

/-! ## Panels, fitting and proof (spec/05 to spec/07) -/

/-- A command in a PANEL queue: its eight words with SHAPE resolved, the issuing slot, whether the group that issued it
has left the slot. -/
structure PCmd where
  words : List Word
  slot : Nat
  gone : Bool := false
deriving DecidableEq, Repr

/-- A weight tile in a buffer (R107, R108): format, depth T, valid K and N, element and scale bytes. -/
structure Tile where
  fmt : Nat := 0
  t : Nat := 0
  kv : Nat := 0
  nv : Nat := 0
  elems : List Byte := []
  scales : List Byte := []
deriving DecidableEq, Repr

/-- An output tile of a drain open to proof sampling: its first row and column, rows, columns, and captured values. -/
structure ProofTile where
  row : Nat
  col : Nat
  rows : Nat
  cols : Nat
  values : List (Nat × Word)
deriving DecidableEq, Repr

/-- A PANEL command that has started: when, whether a LOAD has gone into the buffer it uses since (R106), what it will
report when it completes (R121, R123, R144, R151, R158, R279), its writes not yet made (address, partition, bytes), those
made here (address, bytes, success) where tallies are due, those sent and not yet answered (table keys), whether a write
has failed. -/
structure RunCmd where
  cmd : PCmd
  since : Nat := 0
  reloaded : Bool := false
  toSend : List (Nat × Nat × List Byte) := []
  wr : List (Nat × List Byte × Bool) := []
  tally : Bool := false
  sent : List Nat := []
  failed : Bool := false
  uncorr : Bool := false
  sat : Nat := 0
  nan : Nat := 0
  flush : Nat := 0
  amax : Option Word := none
  amaxInf : Bool := false
  wrote : Bool := false
  bind : Option Nat := none
  fitId : Nat := 0
  fitAmax : Bool := false
  fitProof : Bool := false
  fitSrc : Bool := false
  ctx : Nat := 0
  tiles : List ProofTile := []
  fault : Option (Nat × Nat) := none
deriving DecidableEq, Repr

/-- A flag word (Table 6.3). -/
structure FlagWord where
  sat : Nat := 0
  nan : Nat := 0
  flush : Nat := 0
  proof : Nat := 0
  supply : Bool := false
  uncorr : Bool := false
deriving DecidableEq, Repr

/-- A fit binding (R148). -/
structure FitBind where
  id : Nat := 0
  amax : Bool := false
  proof : Bool := false
  src : Bool := false
  ctx : Nat := 0
deriving DecidableEq, Repr

/-- A barrier (R180): the count its first arrival named, and the slots that have arrived. -/
structure Bar where
  need : Nat := 0
  arrived : List Nat := []
deriving DecidableEq, Repr

/-- The random generators (R138, R139, R158): the states of the lanes that have drawn since they were seeded, by
`1024 × physical core + lane` (lanes 128 × panel + column, 512 + group lane, 544 for the sampler), the occasion at which each
core's lanes were seeded where it is not the module reset, that of the module reset, and the occasions so far. -/
structure Rng where
  lanes : List (Nat × Dword) := []
  gens : List (Nat × Nat) := []
  base : Nat := 0
  made : Nat := 0
deriving DecidableEq, Repr

/-- A core outside its groups and arrays: barriers, PANEL queue, started commands, weight tiles by `2 × panel + BUF`,
panels whose active buffer is BUF 1, completion counters, descriptor slots, flag words, fit bindings, proof queue,
constant and descriptor caches by line and entry address, the active set of the two-level scheduler, the cycles gone of the window
of R172 and those of them in which a proof group issued, and the corrected
errors of staging and accumulator store (R123). -/
structure CoreSt where
  bars : List (Nat × Bar) := []
  queue : List PCmd := []
  run : List RunCmd := []
  stalled : List PCmd := []
  tiles : List (Nat × Tile) := []
  actBuf : List Nat := []
  ctrs : List (Nat × Nat) := []
  slots : List (Nat × Nat) := []
  flags : List (Nat × FlagWord) := []
  binds : List (Nat × FitBind) := []
  proofQ : List Job := []
  ccache : List (Nat × List Byte) := []
  dcache : List (Nat × List Byte) := []
  activeSet : List Nat := []
  cycle : Nat := 0
  proofCycles : Nat := 0
  corrected : Nat := 0
deriving DecidableEq, Repr

/-- A fit record (Table 7.2), the infinities behind its history (R154), and a count of its clears (R162). -/
structure FitRec where
  amax : List Word := []
  valid : Nat := 0
  suspect : Nat := 0
  infs : Nat := 0
  cur : Word := 0
  num : Nat := 0
  den : Nat := 0
  samples : Nat := 0
  run : Nat := 0
  arrived : Bool := false
  inf : Bool := false
  promote : Bool := false
  rearm : Nat := 0
  thresh : Word := 0x7F800000
  owner : Option Nat := none
  gen : Nat := 0
deriving DecidableEq, Repr

/-! ## Fuses and NOR (spec/00, spec/18, spec/20) -/

/-- What is fused or strapped at assembly: GLB.VARIANT, stepping, serial number, version floor, tick bus slot, management
address, defects of manufacture, F0 and V0 of each core in 25 MHz and 5 mV units, and the key slots of VENDOR, OWNER and
TENANT (enrolled and revoked masks of 4 bits, hashes by 4 × party + slot). -/
structure Fuses where
  stackMask : Nat := 0xFFF
  xMask : Nat := 0xF
  links : Nat := 0x40
  stepping : Nat := 0x10
  serial : Nat := 0
  svn : Nat := 0
  slot : Nat := 0
  mgmtAddr : Nat := 0
  badCores : List Nat := []
  badSlices : List Nat := []
  badBanks : List Nat := []
  f0 : List (Nat × Nat) := []
  v0 : List (Nat × Nat) := []
  enrolled : List (Nat × Nat) := [(0, 0xF)]
  revoked : List (Nat × Nat) := []
  hashes : List (Nat × Nat) := (List.range 4).map (fun k => (k, keyHashes (Config.vendorKey k)))
deriving DecidableEq, Repr

/-- A core's margin plan (R421): offset in mV, ceiling in 25 MHz units, set point in 5 mV units, and the failed phases it
was made with (R397). -/
structure Plan where
  off : Nat
  ceil : Nat
  volt : Nat
  phases : Nat := 0
deriving DecidableEq, Repr

/-- What NOR keeps over a module reset: token sequence, map-out list, failed phases (24 × core + 8 × group + phase), fenced,
retired, marked and defective units, the darn map (lanes by 544 × direction + lane, groups by 8 × direction + group, links),
plans, powered hours, the times of measurements by core, the shutdown record and its count, the key store: the key blobs by 4 ×
party + slot (R441, R448), and the firmware image (R442). A direction is 2 × link + DIR. -/
structure Nor where
  tokSeq : Nat := 0
  mapOut : List Nat := []
  phases : List Nat := []
  fenced : List Nat := []
  retired : List Nat := []
  marked : List Nat := []
  badCores : List Nat := []
  badSlices : List Nat := []
  badBanks : List Nat := []
  darns : List Nat := []
  drops : List Nat := []
  fences : List Nat := []
  plans : List (Nat × Plan) := []
  hours : List (Nat × Nat) := []
  measured : List (Nat × List Nat) := []
  shut : List Byte := []
  shuts : Nat := 0
  keyStore : List (Nat × List Byte) := (List.range 4).map (fun k => (k, Config.vendorKey k))
  firmware : List Byte := Config.firmware
deriving DecidableEq, Repr

/-! ## Jig engines (spec/13) -/

/-- Channel states (Table 13.1). -/
inductive ChanState where
  | idle
  | running
  | waiting
  | stopped
  | faulted
deriving DecidableEq, Repr

/-- A request of a MOVE without its READ_RESP: its table entry, the bytes of its answer to skip and to take, the address, and the
byte of the image it begins at. -/
structure Asked where
  key : Nat
  skip : Nat := 0
  take : Nat := 0
  addr : Nat := 0
  byte : Nat := 0
deriving DecidableEq, Repr

/-- A MOVE whose accesses are not all performed: its instruction and PC, the loop levels it began with (counts and sums of the
accumulators), the image as far as its reads are issued and how much of it has been sent on to the destination, the reads to check
and the writes to tally (address, bytes, success), the descriptor with its address and the header of its cutting list (dimension,
count, block length), whether it has begun, its reads and its writes without READ_RESP, whether it was marked bad, and whether it
issues nothing further. -/
structure MoveSt where
  w : BitVec 128
  pc : Nat := 0
  iter : List (Nat × Nat) := []
  sacc : List (Nat × Dword) := []
  dacc : List (Nat × Dword) := []
  got : List Byte := []
  put : Nat := 0
  rd : List (Nat × List Byte) := []
  wr : List (Nat × List Byte × Bool) := []
  desc : List Byte := []
  descAt : Nat := 0
  cut : Option (Nat × Nat × Nat) := none
  begun : Bool := false
  reads : List Asked := []
  writes : List Asked := []
  bad : Bool := false
  dead : Bool := false
deriving DecidableEq, Repr

/-- A jig channel outside its registers: state, CMDRES, BAD_SINCE, loop levels (count and accumulators), the MOVEs whose
accesses are not all performed, oldest first, the WAIT, SIGNAL or END under way with the table entry of its remote access, bad
MOVEs since the last END, whether a STOP waits for an access to complete. -/
structure Chan where
  st : ChanState := .idle
  cmdres : Nat := 0
  badSince : Bool := false
  iter : List (Nat × Nat) := []
  sacc : List (Nat × Dword) := []
  dacc : List (Nat × Dword) := []
  moves : List MoveSt := []
  wait : Option (BitVec 128) := none
  sent : Option Nat := none
  badEnd : Nat := 0
  stopping : Bool := false
deriving DecidableEq, Repr

/-- The jig engines: channels by 32 × engine + channel, engines stopped by a stop-all. -/
structure Jig where
  chans : List (Nat × Chan) := []
  stopped : List Nat := []
deriving DecidableEq, Repr

/-! ## Spline links (spec/15) -/

/-- Link states (Table 15.1). -/
inductive LinkState where
  | disabled
  | down
  | training
  | up4
  | up2
deriving DecidableEq, Repr

/-- A spline message (Table 15.5) with its payload. -/
structure Msg where
  hops : BitVec 6 := 0
  retry : Bool := false
  dst : BitVec 12 := 0
  src : BitVec 12 := 0
  part : Fin 16 := 0
  srcPart : Fin 16 := 0
  offset : BitVec 35 := 0
  tag : BitVec 16 := 0
  arg : BitVec 64 := 0
  epoch : BitVec 16 := 0
  payload : List Byte := []
deriving DecidableEq, Repr

/-- A DATA flit in the replay buffer: SEQ, virtual channel, FIRST and body (R343, Table 15.3). -/
structure TxFlit where
  seq : Nat
  vc : Nat
  first : Nat
  body : List Byte
deriving DecidableEq, Repr

/-- A spline link: state, failed lanes, whether lane training is over and INIT is awaited, the lanes in service, those it may
come up on, next SEQ to send, next SEQ expected, whether a NAK is outstanding, the replay buffer, credits used per virtual
channel, resends without progress, when it may train again, when training began, whether a retraining keeps its replay state,
messages with flits not yet acknowledged (type, last SEQ), messages that wait for credits, the receive buffers by virtual
channel (what is left of each flit), the whole messages received before it last left service, and the credits it owes by virtual
channel. -/
structure SLink where
  st : LinkState := .down
  failed : Nat := 0
  trained : Bool := false
  lanes : Nat := 0
  limit : Nat := 15
  txSeq : Nat := 0
  rxSeq : Nat := 0
  nakSent : Bool := false
  replay : List TxFlit := []
  used : List (Nat × Nat) := []
  resends : Nat := 0
  retryAt : Nat := 0
  began : Nat := 0
  keeping : Bool := false
  held : List (Nat × Nat × Msg) := []
  queue : List (Nat × Msg) := []
  rx : List (Nat × List (List Byte)) := []
  late : List (Nat × List Byte) := []
  owed : List (Nat × Nat) := []
deriving DecidableEq, Repr

/-- An outstanding request (R359): who issued it, for which partition and epoch, the epoch it was sent with, the target module, its
first line and the lines it covers, when, the message type, and whether it has been re-sent within this module (R360). -/
structure OutReq where
  owner : Agent
  part : Nat
  epoch : Nat
  first : Nat := 0
  dst : Nat
  line : Nat
  lines : Nat := 1
  sent : Nat
  kind : Nat := 2
  again : Bool := false
deriving DecidableEq, Repr

/-- A read of a descriptor or a cutting list in a remote window: who reads, partition, address, length, the table entry of its READ,
or, once it is answered, none with code and bytes; whether the command that wanted it has used it (R274, R280). -/
structure Far where
  agent : Agent
  part : Nat
  addr : Nat
  len : Nat
  key : Option Nat := none
  code : Nat := 0
  data : List Byte := []
  used : Bool := false
deriving DecidableEq, Repr

/-- The spline block: links, outstanding requests by 4096 × die + entry, the last NOROUTE record of each I/O die, and the reads of
descriptors and lists in remote windows. -/
structure Spl where
  far : List Far := []
  links : List (Nat × SLink) := []
  out : List (Nat × OutReq) := []
  noRouteAt : List (Nat × Nat) := []
deriving DecidableEq, Repr

/-! ## Power and thermal (spec/17, spec/18) -/

/-- Domain states of PWR.CORE_STAT (Table 17.17). -/
inductive DomainState where
  | unpowered
  | waiting
  | ramping
  | up
  | stopped
  | fenced
deriving DecidableEq, Repr

/-- A physical core's domain: state, clock and ceiling in 25 MHz units, set point in 5 mV units, failed phases, whether a
droop doubles its clock period, when it asked for power, the base boundaries since, the units its ramp holds, when the ramp
began, when it ended, and a plan that takes effect at the next base boundary (R421). -/
structure Domain where
  st : DomainState := .unpowered
  clk : Nat := 0
  ceil : Nat := 0
  volt : Nat := 0
  phases : Nat := 0
  droop : Bool := false
  asked : Nat := 0
  seen : Nat := 0
  slow : Bool := false
  units : Nat := 0
  began : Nat := 0
  ended : Option Nat := none
  upSince : Nat := 0
  plan : Option Plan := none
deriving DecidableEq, Repr

/-- Power outside its registers: domains by physical core, requests in order, open suspect windows (rail, tick), rails
below their warning level, clusters last seen above 135 A, cores to fence for age (R422), the holds of R383 and R391, the
traffic level, whether stage two runs. -/
structure Pwr where
  doms : List (Nat × Domain) := []
  queue : List Nat := []
  windows : List (Nat × Nat) := []
  low : List Nat := []
  peaks : List Nat := []
  aged : List Nat := []
  faultHold : Bool := false
  rangeHold : Bool := false
  traffic : Nat := 0
  stageTwo : Bool := true
deriving DecidableEq, Repr

/-- Die thermal states (Table 18.2). -/
inductive DieState where
  | normal
  | warn
  | throttle
  | shutdown
deriving DecidableEq, Repr

/-- A die's monitor: last readings, suspect sensors with their offsets, deviation counts, recent offsets, state, throttle
level, fast sampling and samples below 100 °C, the middle-layer estimate, whether it governs and since when the condition
to change that has held, samples in a row at 115 °C, and the time of the last sample. -/
structure DieMon where
  temps : List Int := []
  suspects : List (Nat × Int) := []
  devs : List (Nat × Nat) := []
  offs : List (Nat × List Int) := []
  st : DieState := .normal
  level : Nat := 0
  fast : Bool := false
  cool : Nat := 0
  est : Int := 0
  own : Int := 0
  govern : Int := 0
  estGov : Bool := false
  since : Option Nat := none
  hot : Nat := 0
  lastAt : Option Nat := none
deriving DecidableEq, Repr

/-- An alteration (R418 to R420): cores still to measure, cores put off to its end, when the head of the queue got its turn,
when its measurement began if it runs, and whether it was powered up for it. -/
structure Alteration where
  queue : List Nat
  retry : List Nat := []
  since : Nat := 0
  measuring : Option Nat := none
  powered : Bool := false
deriving DecidableEq, Repr

/-- The thermal monitors: dies by index, the alteration under way, the time from which the next automatic one counts, stale
cores, the time of a SHUTDOWN and the record composed for it. -/
structure Thm where
  dies : List (Nat × DieMon) := []
  alt : Option Alteration := none
  altFrom : Option Nat := none
  stale : List Nat := []
  shutAt : Option Nat := none
  shutRec : List Byte := []
deriving DecidableEq, Repr

/-! ## Security (spec/20) -/

/-- An escutcheon command under way, with ESC.ADDR and ESC.LEN at the command (R447). -/
inductive EscOp where
  | debug (addr len : Nat)
  | enrol (addr len : Nat)
deriving DecidableEq, Repr

/-- A transport of SPDM (R456, R457): how far the exchange has come (0 nothing, 1 version, 2 capabilities, 3 algorithms)
the transcript hash of the last signed response, and what has been exchanged: version, capabilities and algorithms; digests and
certificates; measurements. -/
structure Spdm where
  stage : Nat := 0
  signed : Option Nat := none
  opening : List Byte := []
  certs : List Byte := []
  measures : List Byte := []
deriving DecidableEq, Repr

/-- The escutcheon: the serving one, boot code, LIVE key slots with the generation of their key, the module key's
generation, the count of keys made, the command under way, debug level in force and waiting, RELOCK waiting, SPDM by
transport (0 MCTP, 1 + function number), turnovers of each partition. -/
structure Esc where
  standby : Bool := false
  boot : Nat := 0
  keys : List (Nat × Nat) := []
  moduleKey : Nat := 1
  made : Nat := 1
  op : Option EscOp := none
  debug : Nat := 0
  unlock : Option Nat := none
  relock : Bool := false
  spdm : List (Nat × Spdm) := []
  turnovers : List (Nat × Nat) := []
deriving DecidableEq, Repr

/-! ## Bring-up, resets and the pair (spec/21) -/

/-- The bring-up sequencer outside its registers: steps started since module reset, steps that ended DONE, when the running step
or stack phase began, step 6 ended DONE, when a requested module reset falls, whether the stack reset under way is forced, dies
out of service. -/
structure Brup where
  started : List Nat := []
  ended : List Nat := []
  since : Nat := 0
  katDone : Bool := false
  resetAt : Option Nat := none
  forced : Bool := false
  outDies : List Nat := []
deriving DecidableEq, Repr

/-- Pair roles (Table 21.4). -/
inductive Role where
  | off
  | arming
  | active
  | standby
  | solo
  | fenced
  | stale
deriving DecidableEq, Repr

/-- A DATA or SHEET range that the mirror buffer holds: where it goes, and where in the buffer its bytes lie, in order (offset,
length). -/
structure MirRange where
  sheet : Bool
  addr : Nat
  places : List (Nat × Nat)
deriving DecidableEq, Repr

/-- The PAIR block outside its registers (R473 to R482); `waiting` are the partitions whose sheet is written and whose delta is
not acknowledged, `sent` those of them whose COMMIT is on its way; `bufs` what the mirror buffer holds for each partition, in
send order. Since the last base boundary: `dropped` whether PAIR_ALIVE dropped, and whether the peer's last QUERY ALIVE had been
answered then; `lost` that the peer's slot became lost; whose slot a TAKEOVER named. -/
structure Pair where
  role : Role := .off
  lastBeat : Option Nat := none
  alive : Bool := false
  slotSeen : Bool := false
  mismatch : Bool := false
  matched : Bool := false
  disarm : Bool := false
  dropped : Option Bool := none
  lost : Bool := false
  ownNamed : Bool := false
  peerNamed : Bool := false
  missed : Nat := 0
  bufs : List (Nat × List MirRange) := []
  waiting : List Nat := []
  sent : List Nat := []
deriving DecidableEq, Repr

/-! ## The machine -/

/-- The state of the block. `regs` holds every BAR0 register whose only home is the register itself, by offset (a banked
register by `bank`), with no entry equal to its reset value, and `setAt` when a
hardware event last set a W1C bit, by 32 × register key + bit (R12); `away` holds the blocks of the
physical cores that no logical core names, by physical core (R20); the other fields hold what has a structure of its own.
`free` counts the free values drawn; `now` is the time in ns. -/
structure State where
  pending : List Instr := []
  now : Nat := 0
  free : Nat := 0
  reply : Reply := {}
  outbox : List Out := []
  regs : List (Nat × Word) := []
  setAt : List (Nat × Nat) := []
  latches : List (Nat × Word) := []
  heldWrites : List (Nat × Word) := []
  fuses : Fuses := {}
  nor : Nor := {}
  ptn : Ptn := {}
  tick : Tick := {}
  parts : List (Nat × Part) := []
  bar4 : List Host.Cell := []
  log : Log := {}
  irq : Irq := {}
  host : HostIf := {}
  pins : Pins := {}
  mgmt : Mgmt := {}
  lin : Lining := {}
  hbm : Hbm := {}
  net : Net := {}
  cores : List (Nat × CoreSt) := []
  groups : List (Nat × Group) := []
  parks : List (Nat × ParkRec) := []
  away : List (Nat × CoreBlock) := []
  staging : List Host.Cell := []
  acc : List (Nat × Word) := []
  accFlags : List (Nat × Nat) := []
  rng : Rng := {}
  fit : List (Nat × FitRec) := []
  fitLatch : List Word := []
  jig : Jig := {}
  spl : Spl := {}
  pwr : Pwr := {}
  thm : Thm := {}
  esc : Esc := {}
  brup : Brup := {}
  pair : Pair := {}
deriving DecidableEq, Repr

/-- Reasons for which the machine stops. No rule of the manual stops it, so no command raises one. -/
inductive Fault where
  /-- The module without power to answer. No command raises it; it would be safe, since it ends a run. -/
  | none
deriving DecidableEq, Repr

/-- A command has no meaning. -/
inductive Refusal where
  /-- Raised by `exec` for a command not modelled yet. Safe: nothing can be proved of a run past it. -/
  | notModelled (mnemonic : String)
deriving DecidableEq, Repr

/-- The machine right after reset: no command waits, every register at its reset value, nothing valid in any memory,
no pattern, every group slot free, bring-up at step 0 (Table 21.6). -/
def State.reset : State := {}

end Sys2Proof.Machine
end

