-- ==== Sys2Proof/Machine/Ops.lean ====
section
/-! DEFINITION. The named operations over maps, registers, patterns, the log and the interrupt controller. -/

namespace Sys2Proof.Machine

/-- What a command answers. -/
abbrev Res := Host.Outcome State Fault Refusal

/-! ## Sparse maps: keys strictly rising, no entry equal to the default -/

/-- The entry of `k`, or the default. -/
def mget {α : Type} (m : List (Nat × α)) (k : Nat) (d : α) : α :=
  match m with
  | [] => d
  | (i, v) :: r => if i = k then v else mget r k d

/-- Is there an entry of `k`? -/
def mhas {α : Type} (m : List (Nat × α)) (k : Nat) : Bool :=
  match m with
  | [] => false
  | (i, _) :: r => if i = k then true else mhas r k

/-- The entry of `k`, where there is one. -/
def mfind {α : Type} (m : List (Nat × α)) (k : Nat) : Option α :=
  match m with
  | [] => none
  | (i, v) :: r => if i = k then some v else mfind r k

/-- The map without an entry of `k`. -/
def mdel {α : Type} (m : List (Nat × α)) (k : Nat) : List (Nat × α) :=
  match m with
  | [] => []
  | (i, v) :: r => if i = k then mdel r k else (i, v) :: mdel r k

/-- The map with `v` at `k`. -/
def mput {α : Type} (m : List (Nat × α)) (k : Nat) (v : α) : List (Nat × α) :=
  match m with
  | [] => [(k, v)]
  | (i, w) :: r => if i = k then (k, v) :: r else if i < k then (i, w) :: mput r k v else (k, v) :: (i, w) :: r

/-- The map with `v` at `k`; a default value takes no entry. -/
def mset {α : Type} [DecidableEq α] (m : List (Nat × α)) (k : Nat) (v d : α) : List (Nat × α) :=
  if v = d then mdel m k else mput m k v

/-- The entries with keys from `lo` up to `lo + n - 1` removed. -/
def mclear {α : Type} (m : List (Nat × α)) (lo n : Nat) : List (Nat × α) :=
  m.filter (fun e => e.1 < lo || lo + n ≤ e.1)

/-- Are the keys strictly rising? -/
def sortedKeys {α : Type} : List (Nat × α) → Bool
  | [] => true
  | [_] => true
  | (i, _) :: (j, v) :: r => decide (i < j) && sortedKeys ((j, v) :: r)

/-! ## Memories: canonical lists of cells -/

/-- `n` bytes from `a`, absent bytes reading 0. -/
def readCells (m : List Host.Cell) (a : Nat) : Nat → List Byte
  | 0 => []
  | n + 1 => mget m a 0 :: readCells m (a + 1) n

/-- Bytes written from `a` on, keeping the canonical form: a zero byte takes no entry. -/
def writeCells (m : List Host.Cell) (a : Nat) : List Byte → List Host.Cell
  | [] => m
  | b :: bs => writeCells (mset m a b 0) (a + 1) bs

/-- Bytes written from `a` on in a memory whose unlisted bytes read as free values: every written byte is listed. -/
def putCells (m : List Host.Cell) (a : Nat) : List Byte → List Host.Cell
  | [] => m
  | b :: bs => putCells (mput m a b) (a + 1) bs

/-- The canonical form of a memory that reads 0 where nothing is listed. -/
def cellsWf (m : List Host.Cell) : Bool := sortedKeys m && m.all (fun c => c.2 != 0)

/-- Bytes as a little-endian number. -/
def leNat : List Byte → Nat
  | [] => 0
  | b :: bs => b.toNat + 256 * leNat bs

/-- A number as `n` little-endian bytes. -/
def leBytes (v : Nat) : Nat → List Byte
  | 0 => []
  | n + 1 => BitVec.ofNat 8 v :: leBytes (v / 256) n

/-- The words of a byte list. -/
def wordsOf (bs : List Byte) (n : Nat) : List Word :=
  (List.range n).map (fun i => BitVec.ofNat 32 (leNat ((bs.drop (4 * i)).take 4)))

/-- The bytes of a word list. -/
def bytesOf (ws : List Word) : List Byte := (ws.map (fun w => leBytes w.toNat 4)).flatten

/-- CRC-32C, one byte, reflected (R262). -/
def crcByte (crc : Nat) (b : Nat) : Nat :=
  (List.range 8).foldl (fun c _ => if c % 2 = 1 then Nat.xor (c / 2) 0x82F63B78 else c / 2) (Nat.xor crc b)

/-- The running CRC-32C over bytes (R262, R305). -/
def crcRun (crc : Nat) (bs : List Byte) : Nat := bs.foldl (fun c b => crcByte c b.toNat) crc

/-- The CRC-32 of IEEE 802.3 over bytes, reflected (R342). -/
def crc32 (bs : List Byte) : Nat :=
  Nat.xor (bs.foldl (fun crc b => (List.range 8).foldl (fun c _ =>
    if c % 2 = 1 then Nat.xor (c / 2) 0xEDB88320 else c / 2) (Nat.xor crc b.toNat)) 0xFFFFFFFF) 0xFFFFFFFF

/-- CRC-32C of bytes (R262). -/
def crc32c (bs : List Byte) : Nat := Nat.xor (crcRun 0xFFFFFFFF bs) 0xFFFFFFFF

/-! ## Registers -/

/-- The key's offset without its bank. -/
def keyOff (k : Nat) : Nat := k % 2 ^ 28

/-- A register word. -/
def State.rg (s : State) (k : Nat) : Word := mget s.regs k (regReset (keyOff k))

/-- A register word set. -/
def State.rgSet (s : State) (k : Nat) (v : Word) : State :=
  { s with regs := mset s.regs k v (regReset (keyOff k)) }

/-- Bits `hi:lo` of a register. -/
def State.rf (s : State) (k hi lo : Nat) : Nat := bitsOf (s.rg k).toNat hi lo

/-- Bits `hi:lo` of a register set. -/
def State.rfSet (s : State) (k hi lo v : Nat) : State :=
  s.rgSet k (BitVec.ofNat 32 (putBits (s.rg k).toNat hi lo v))

/-- Bit `i` of a register. -/
def State.rb (s : State) (k i : Nat) : Bool := bitOf (s.rg k).toNat i

/-- Bit `i` of a register set to `b`. -/
def State.rbSet (s : State) (k i : Nat) (b : Bool) : State := s.rfSet k i i (b2n b)

/-- Bit `i` of a W1C register set by a hardware event, at the present time (R12). -/
def State.evSet (s : State) (k i : Nat) : State := { s.rbSet k i true with setAt := mput s.setAt (32 * k + i) s.now }

/-- A 64-bit register. -/
def State.rg64 (s : State) (k : Nat) : Nat := (s.rg k).toNat + 2 ^ 32 * (s.rg (k + 4)).toNat

/-- A 64-bit register set. -/
def State.rg64Set (s : State) (k v : Nat) : State :=
  (s.rgSet k (BitVec.ofNat 32 v)).rgSet (k + 4) (BitVec.ofNat 32 (v / 2 ^ 32))

/-- A wrapping count in bits `hi:lo` of a register raised by `n`. -/
def State.rAdd (s : State) (k hi lo n : Nat) : State := s.rfSet k hi lo (s.rf k hi lo + n)

/-- A saturating count in bits `hi:lo` of a register raised by `n`. -/
def State.rSat (s : State) (k hi lo n : Nat) : State :=
  s.rfSet k hi lo (min (2 ^ (hi + 1 - lo) - 1) (s.rf k hi lo + n))

/-- A wrapping 64-bit count raised by `n`. -/
def State.rAdd64 (s : State) (k n : Nat) : State := s.rg64Set k (s.rg64 k + n)

/-! ## Parts of the state by index -/

/-- A partition. -/
def State.part (s : State) (p : Nat) : Part := mget s.parts p {}

/-- A partition set. -/
def State.partSet (s : State) (p : Nat) (v : Part) : State := { s with parts := mset s.parts p v {} }

/-- A partition changed. -/
def State.partMap (s : State) (p : Nat) (f : Part → Part) : State := s.partSet p (f (s.part p))

/-- A core. -/
def State.core (s : State) (c : Nat) : CoreSt := mget s.cores c {}

/-- A core set. -/
def State.coreSet (s : State) (c : Nat) (v : CoreSt) : State := { s with cores := mset s.cores c v {} }

/-- A core changed. -/
def State.coreMap (s : State) (c : Nat) (f : CoreSt → CoreSt) : State := s.coreSet c (f (s.core c))

/-- The number of a group slot of the module. -/
def gix (c k : Nat) : Nat := 64 * c + k

/-- A thread group. -/
def State.group (s : State) (g : Nat) : Group := mget s.groups g {}

/-- A thread group set. -/
def State.groupSet (s : State) (g : Nat) (v : Group) : State := { s with groups := mset s.groups g v {} }

/-- A thread group changed. -/
def State.groupMap (s : State) (g : Nat) (f : Group → Group) : State := s.groupSet g (f (s.group g))

/-- A jig channel. -/
def State.chan (s : State) (n : Nat) : Chan := mget s.jig.chans n {}

/-- A jig channel set. -/
def State.chanSet (s : State) (n : Nat) (v : Chan) : State :=
  { s with jig := { s.jig with chans := mset s.jig.chans n v {} } }

/-- A jig channel changed. -/
def State.chanMap (s : State) (n : Nat) (f : Chan → Chan) : State := s.chanSet n (f (s.chan n))

/-- A spline link that nothing has touched: DOWN when fitted, DISABLED when not (Table 15.1). -/
def linkFitted (s : State) (n : Nat) : Bool := bitOf s.fuses.xMask (n / 16)

/-- A spline link. -/
def State.link (s : State) (n : Nat) : SLink :=
  if linkFitted s n then mget s.spl.links n {} else { mget s.spl.links n {} with st := .disabled }

/-- A spline link set. -/
def State.linkSet (s : State) (n : Nat) (v : SLink) : State :=
  { s with spl := { s.spl with links := mset s.spl.links n v {} } }

/-- A core domain. -/
def State.dom (s : State) (p : Nat) : Domain := mget s.pwr.doms p {}

/-- A core domain set. -/
def State.domSet (s : State) (p : Nat) (v : Domain) : State :=
  { s with pwr := { s.pwr with doms := mset s.pwr.doms p v {} } }

/-- A die's monitor. -/
def State.die (s : State) (d : Nat) : DieMon := mget s.thm.dies d {}

/-- A die's monitor set. -/
def State.dieSet (s : State) (d : Nat) (v : DieMon) : State :=
  { s with thm := { s.thm with dies := mset s.thm.dies d v {} } }

/-- A stack. -/
def State.stackSt (s : State) (m : Nat) : StackSt := mget s.hbm.stks m {}

/-- A stack set. -/
def State.stackSet (s : State) (m : Nat) (v : StackSt) : State :=
  { s with hbm := { s.hbm with stks := mset s.hbm.stks m v {} } }

/-- A dowel direction, 2 × link + DIR. -/
def State.dowel (s : State) (d : Nat) : Dowel := mget s.net.dirs d {}

/-- A dowel direction set. -/
def State.dowelSet (s : State) (d : Nat) (v : Dowel) : State :=
  { s with net := { s.net with dirs := mset s.net.dirs d v {} } }

/-- A function's number: 17 × port, plus k + 1 for the VF that serves `Pk`. -/
def fnIx : Func → Nat
  | .pf p => 17 * p.val
  | .vf p k => 17 * p.val + 1 + k.val

/-- A requester's number: function numbers, then firmware. -/
def reqIx : Req → Nat
  | .fn f => fnIx f
  | .firmware => 34

/-- A function. -/
def State.fn (s : State) (f : Func) : Fn := mget s.host.fns (fnIx f) {}

/-- A function set. -/
def State.fnSet (s : State) (f : Func) (v : Fn) : State :=
  { s with host := { s.host with fns := mset s.host.fns (fnIx f) v {} } }

/-- A host port. -/
def State.port (s : State) (p : Nat) : Port := if p = 0 then s.host.port0 else s.host.port1

/-- A host port set. -/
def State.portSet (s : State) (p : Nat) (v : Port) : State :=
  { s with host := if p = 0 then { s.host with port0 := v } else { s.host with port1 := v } }

/-- Is the sender a physical function? -/
def isPf : Func → Bool
  | .pf _ => true
  | .vf _ _ => false

/-- The port of a function. -/
def portOf : Func → Nat
  | .pf p => p.val
  | .vf p _ => p.val

/-- The partition a VF serves (R365). -/
def vfPart : Func → Option (Fin 16)
  | .pf _ => none
  | .vf _ k => some k

/-- The command's answer set. -/
def State.answer (s : State) (r : Reply) : State := { s with reply := r }

/-- The function whose access to its port a command is (R363, R370). -/
def accessOf : Instr → Option Func
  | .registerWrite (.fn f) _ _ _ _ => some f
  | .lowWordRead (.fn f) _ _ => some f
  | .highWordRead (.fn f) _ _ => some f
  | .lowWordWrite (.fn f) _ _ => some f
  | .highWordWrite (.fn f) _ _ => some f
  | .fitRecRead (.fn f) => some f
  | .homeqLookup (.fn f) _ => some f
  | .baste f _ _ => some f
  | .load f => some f
  | .sew f => some f
  | .unpick f => some f
  | .patchData f _ => some f
  | .parkReplay f _ => some f
  | .parkSkip f _ => some f
  | .parkDrop f _ => some f
  | .pregDataWrite f _ _ => some f
  | .linClear f => some f
  | .pin f _ => some f
  | .unpin f _ => some f
  | .flush f _ => some f
  | .hbmCondemn f _ => some f
  | .jigGo f _ => some f
  | .jigStop f _ => some f
  | .resumeContinue f _ => some f
  | .resumeRetry f _ => some f
  | .pl7Write f _ _ => some f
  | .linkDisable f _ => some f
  | .linkRetrain f _ => some f
  | .bar2Read f _ _ => some f
  | .bar2Write f _ _ _ => some f
  | .bar4Write f _ _ => some f
  | .apbaseWrite f _ => some f
  | .doeRequest f _ _ _ => some f
  | .pwrLimitWrite f _ => some f
  | .altAll f => some f
  | .altCore f _ => some f
  | .altPartition f _ => some f
  | .shutClr f => some f
  | .errTailWrite f _ => some f
  | .eoi f _ _ => some f
  | .debugCmd f => some f
  | .enrol f => some f
  | .relock f => some f
  | .dowel f => some f
  | .darn f => some f
  | .hbm f => some f
  | .lining f => some f
  | .veneer f => some f
  | .kat f => some f
  | .ready f => some f
  | .modrst f _ => some f
  | .partitionReset f _ => some f
  | .coreReset f _ => some f
  | .computeDieReset f _ => some f
  | .stackDrain f _ => some f
  | .stackForce f _ => some f
  | .pairCfgWrite f _ => some f
  | .arm f => some f
  | .disarm f => some f
  | .configurationWrite f _ => some f
  | _ => none

/-- Is a command that was put off one of a function's, by number? -/
def cmdOf (n : Nat) (c : Instr) : Bool := (accessOf c).any (fun f => fnIx f == n)

/-- Must an access of a port wait: a posted write of BAR2 that came before it is not performed, or another access waits (R370,
R372)? -/
def State.mustWait (s : State) (port : Nat) : Bool := (s.port port).ops.any (·.write) || !(s.port port).later.isEmpty

/-- An access of a port that waits for the posted writes before it. -/
def State.putOff (s : State) (port : Nat) (c : Instr) : State :=
  (s.portSet port { s.port port with later := (s.port port).later ++ [(s.now, c)] }).answer {}

/-- An access of a function in the order of its port: made now, or put off (R370, R372). -/
def State.inOrder (s : State) (f : Func) (c : Instr) (body : State → State) : State :=
  if s.mustWait (portOf f) then s.putOff (portOf f) c else body s

/-- The same for a requester of registers; firmware waits for no port. -/
def State.reqOrder (s : State) (r : Req) (c : Instr) (body : State → State) : State :=
  match r with
  | .fn f => s.inOrder f c body
  | .firmware => body s

/-- A message sent: the newest stands first. -/
def State.send (s : State) (m : Out) : State := { s with outbox := m :: s.outbox }

/-! ## Random generators (R138, R139) -/

/-- A state times x, modulo x^64 + `m`, over the field of two elements. -/
def timesX (m x : Dword) : Dword := (x <<< 1) ^^^ (if x.msb then m else 0)

/-- The product of two states modulo x^64 + `m`. -/
def timesMod (m a b : Dword) : Dword :=
  (List.range 64).foldr (fun i acc => timesX m acc ^^^ (if b.getLsbD i then a else 0)) 0

/-- x to the power `n`, below 2^64, modulo x^64 + `m`. -/
def powX (m : Dword) (n : Nat) : Dword :=
  (List.range 64).foldr (fun i acc => (fun y => if n.testBit i then timesX m y else y) (timesMod m acc acc)) 1

/-- Has the recurrence of a feedback arrangement the period 2^64 - 1: is the order of x just that (R139)? The prime factors of
2^64 - 1 are listed. -/
def maximal (m : Dword) : Bool :=
  powX m (2 ^ 64 - 1) == 1 && [3, 5, 17, 257, 641, 65537, 6700417].all (fun q => powX m ((2 ^ 64 - 1) / q) != 1)

/-- The feedback arrangement of the lanes (R139): a free one of maximal length. Where the free constant is none, it is
x^4 + x^3 + x + 1, which is one (log entry 7). -/
def feedback : Dword := if maximal Config.taps then Config.taps else 0x1B

/-- A lane after a draw: a linear recurrence of maximal length (R139). -/
def laneNext (x : Dword) : Dword := timesX feedback x

/-- The first value from `x` on that is not zero and not among `used`, within `n` tries. -/
def unused (used : List Dword) : Nat → Dword → Dword
  | 0, x => x
  | n + 1, x => if x = 0 ∨ used.contains x then unused used n (x + 1) else x

/-- The first `n` seeds that the entropy source gives, the last one first: distinct and not zero (R139; log entry 7). -/
def seedsTo : Nat → List Dword
  | 0 => []
  | n + 1 => (fun used => unused used (n + 2) (Config.seed n) :: used) (seedsTo n)

/-- The seed of lane `k` at an occasion: each of the 73,728 lanes of the module has its own (R139). -/
def laneSeed (occasion k : Nat) : Dword := (seedsTo (73728 * occasion + k + 1)).headD 1

/-- The state of a lane. -/
def Rng.get (r : Rng) (k : Nat) : Dword :=
  match mfind r.lanes k with
  | some x => x
  | none => laneSeed (mget r.gens (k / 1024) r.base) k

/-- The draw that a lane makes next. -/
def Rng.draw (r : Rng) (k : Nat) : Nat := (Config.laneDraw (r.get k)).toNat

/-- A lane after its draw. -/
def Rng.step (r : Rng) (k : Nat) : Rng := { r with lanes := mput r.lanes k (laneNext (r.get k)) }

/-- Lanes after one draw of each. -/
def Rng.steps (r : Rng) (ks : List Nat) : Rng := ks.foldl Rng.step r

/-- The lanes of a physical core seeded anew. -/
def Rng.reseed (r : Rng) (phys : Nat) : Rng :=
  { r with lanes := mclear r.lanes (1024 * phys) 1024, gens := mput r.gens phys (r.made + 1), made := r.made + 1 }

/-- Every lane of the module seeded anew. -/
def Rng.fresh (r : Rng) : Rng := { base := r.made + 1, made := r.made + 1 }

/-- The lane of array column `j` of a panel. -/
def panelLane (phys panel j : Nat) : Nat := 1024 * phys + 128 * panel + j

/-- The lane of group lane `l`. -/
def groupLane (phys l : Nat) : Nat := 1024 * phys + 512 + l

/-- The sampler's generator (R158). -/
def samplerLane (phys : Nat) : Nat := 1024 * phys + 544

/-- The time moved to `t`, if it is later. -/
def State.at (s : State) (t : Nat) : State := { s with now := max s.now t }

/-! ## Pattern fields -/

/-- The key of a section: TYPE and partition. -/
def secKey (type p : Nat) : Nat := 16 * type + p

/-- A section. -/
def Pat.sec (t : Pat) (type p : Nat) : Sect := mget t.secs (secKey type p) {}

/-- A little-endian field of `n` bytes at byte `off` of a module-wide section. -/
def Pat.fld (t : Pat) (type off n : Nat) : Nat := leNat (readCells (t.sec type 0).bytes off n)

/-- The same of a section of partition `p`. -/
def Pat.pfld (t : Pat) (type p off n : Nat) : Nat := leNat (readCells (t.sec type p).bytes off n)

/-- A section with a field of `n` bytes replaced (a device change under R38). -/
def Pat.fldSet (t : Pat) (type off n v : Nat) : Pat :=
  let x := t.sec type 0
  { t with secs := mput t.secs (secKey type 0) { x with bytes := writeCells x.bytes off (leBytes v n) } }

/-- A change of the device: to the running pattern and to a staged copy (R38). -/
def State.deviceChange (s : State) (f : Pat → Pat) : State :=
  { s with ptn := { s.ptn with running := f s.ptn.running, staged := s.ptn.staged.map f } }

/-- Offset of `Pn`'s record in PARTITIONS (Table 2.5). -/
def recOff (p : Nat) : Nat := 512 * p

/-- EN of a partition record. -/
def Pat.enabled (t : Pat) (p : Nat) : Bool := t.fld 1 (recOff p) 1 % 2 == 1

/-- Do a function's register writes have effect: not those of a VF whose partition is not enabled (R365)? -/
def State.speaks (s : State) (f : Func) : Bool :=
  match vfPart f with
  | none => true
  | some k => s.ptn.running.enabled k.val

/-- May a function write the registers of something that `owner` owns: a physical function always, the VF of an enabled
partition its own (R365, R367)? -/
def State.reaches (s : State) (f : Func) (owner : Option Nat) : Bool :=
  match vfPart f with
  | none => true
  | some k => s.ptn.running.enabled k.val && decide (owner = some k.val)

/-- KEY_SLOT. -/
def Pat.keySlot (t : Pat) (p : Nat) : Nat := bitsOf (t.fld 1 (recOff p) 4) 7 4

/-- SPARE_CORES. -/
def Pat.spareCores (t : Pat) (p : Nat) : Nat := bitsOf (t.fld 1 (recOff p) 4) 11 8

/-- CORE_MASK. -/
def Pat.coreMask (t : Pat) (p : Nat) : Nat := t.fld 1 (recOff p + 0x008) 8

/-- SPLINE_MASK. -/
def Pat.splineMask (t : Pat) (p : Nat) : Nat := t.fld 1 (recOff p + 0x010) 8

/-- JIG_MASK. -/
def Pat.jigMask (t : Pat) (p : Nat) : Nat := t.fld 1 (recOff p + 0x020) 40

/-- PCH_MASK. -/
def Pat.pchMask (t : Pat) (p : Nat) : Nat := t.fld 1 (recOff p + 0x060) 96

/-- SLICE_MASK. -/
def Pat.sliceMask (t : Pat) (p : Nat) : Nat := t.fld 1 (recOff p + 0x0C0) 192

/-- TENANT_ID. -/
def Pat.tenant (t : Pat) (p : Nat) : Nat := t.fld 1 (recOff p + 0x180) 16

/-- The partitions of a pattern that are enabled. -/
def Pat.enabledParts (t : Pat) : List Nat := (List.range 16).filter t.enabled

/-- The enabled partition whose mask `f` holds bit `i`. -/
def Pat.ownerBy (t : Pat) (f : Pat → Nat → Nat) (i : Nat) : Option Nat :=
  (List.range 16).find? (fun p => t.enabled p && bitOf (f t p) i)

/-- The partition that owns a logical core (R29). -/
def Pat.coreOwner (t : Pat) (c : Nat) : Option Nat := t.ownerBy Pat.coreMask c

/-- The partition that owns a spline link. -/
def Pat.linkOwner (t : Pat) (n : Nat) : Option Nat := t.ownerBy Pat.splineMask n

/-- The partition that owns a jig channel 32 × engine + channel. -/
def Pat.chanOwner (t : Pat) (n : Nat) : Option Nat := t.ownerBy Pat.jigMask n

/-- The partition that owns a pseudo-channel, by logical number 64 × m + q. -/
def Pat.pchOwner (t : Pat) (n : Nat) : Option Nat := t.ownerBy Pat.pchMask n

/-- The partition that owns a logical slice, 256 × die + slice. -/
def Pat.sliceOwner (t : Pat) (n : Nat) : Option Nat := t.ownerBy Pat.sliceMask n

/-- The set bits of a mask of `n` bits. -/
def setBits (m n : Nat) : List Nat := (List.range n).filter (bitOf m)

/-- The core-settings entry of a logical core (Table 2.6). -/
def Pat.coreSet (t : Pat) (c : Nat) : Nat := t.fld 1 (8192 + 4 * c) 4

/-- Offset of `Pn`'s record in TICK (R77). -/
def tickOff (p : Nat) : Nat := 64 + 128 * p

/-- BASE_PERIOD (Table 3.7). -/
def Pat.basePeriod (t : Pat) : Nat := t.fld 7 0x00 4
/-- SYNC.SRC. -/
def Pat.syncSrc (t : Pat) : Nat := t.fld 7 0x04 4 % 4
/-- SYNC.EDGE. -/
def Pat.syncEdge (t : Pat) : Bool := bitOf (t.fld 7 0x04 4) 2
/-- SYNC_RATIO. -/
def Pat.syncRatio (t : Pat) : Nat := t.fld 7 0x08 4
/-- SYNC_OFFSET. -/
def Pat.syncOffset (t : Pat) : Nat := t.fld 7 0x0C 4
/-- DIVISOR (Table 3.8). -/
def Pat.divisor (t : Pat) (p : Nat) : Nat := t.fld 7 (tickOff p) 2
/-- PHASE. -/
def Pat.phase (t : Pat) (p : Nat) : Nat := t.fld 7 (tickOff p + 2) 2
/-- ADMIT_PER_TICK. -/
def Pat.admitPerTick (t : Pat) (p : Nat) : Nat := t.fld 7 (tickOff p + 4) 2
/-- OVERLOAD_TICKS. -/
def Pat.overloadTicks (t : Pat) (p : Nat) : Nat := t.fld 7 (tickOff p + 6) 2
/-- RESIDENT_BUDGET. -/
def Pat.residentBudget (t : Pat) (p : Nat) : Nat := t.fld 7 (tickOff p + 8) 4
/-- SHEET_IRQ. -/
def Pat.sheetIrq (t : Pat) (p : Nat) : Bool := bitOf (t.fld 7 (tickOff p + 12) 4) 0
/-- FIT_BASE (Table 7.1). -/
def Pat.fitBase (t : Pat) (p : Nat) : Nat := t.fld 7 (tickOff p + 0x20) 2
/-- FIT_COUNT. -/
def Pat.fitCount (t : Pat) (p : Nat) : Nat := t.fld 7 (tickOff p + 0x22) 2
/-- FIT_CTRL.FIT_IRQ. -/
def Pat.fitIrq (t : Pat) (p : Nat) : Bool := bitOf (t.fld 7 (tickOff p + 0x24) 4) 0
/-- FIT_TABLE_ADDR. -/
def Pat.fitTable (t : Pat) (p : Nat) : Nat := t.fld 7 (tickOff p + 0x28) 8
/-- PROOF_K. -/
def Pat.proofK (t : Pat) (p : Nat) : Nat := t.fld 7 (tickOff p + 0x30) 1
/-- PROOF_SLOTS. -/
def Pat.proofSlots (t : Pat) (p : Nat) : Nat := t.fld 7 (tickOff p + 0x31) 1
/-- PROOF_SHARE. -/
def Pat.proofShare (t : Pat) (p : Nat) : Nat := t.fld 7 (tickOff p + 0x32) 1
/-- PROOF_ENTRY. -/
def Pat.proofEntry (t : Pat) (p : Nat) : Nat := t.fld 7 (tickOff p + 0x34) 4
/-- SPAN_BASE (Table 11.6), in GiB. -/
def Pat.spanBase (t : Pat) (p : Nat) : Nat := t.fld 4 (64 + 32 * p) 2
/-- The physical core behind a logical core under VENEER (Table 14.2). -/
def Pat.physCore (t : Pat) (c : Nat) : Nat := t.fld 2 (0x40 + c) 1 % 128
/-- TICK_ENTRY (Table 9.1). -/
def Pat.tickEntry (t : Pat) (p : Nat) : Nat := t.pfld 9 p 0 4
/-- The length of a partition's PROGRAMS payload. -/
def Pat.progLen (t : Pat) (p : Nat) : Nat := (t.sec 9 p).len
/-- MODULE_ID (Table 14.3). -/
def Pat.moduleId (t : Pat) : Nat := t.fld 6 0 2 % 4096

/-- GLB.MODID.MODULE_ID: 0xFFF before a pattern assigns one (Table 1.9). -/
def State.moduleId (s : State) : Nat := if s.ptn.committed then s.ptn.running.moduleId else 0xFFF

/-- The physical core behind a logical one in the running pattern. -/
def State.physOf (s : State) (c : Nat) : Nat := s.ptn.running.physCore c

/-- The throttle level of a die in force, floors included (R411, R413, R414); dies are indexed as in R406. -/
def State.dieLevel (s : State) (d : Nat) : Nat :=
  let floor := (d < 12 && s.pins.thermIn) || (d < 12 && (s.die (12 + d / 2)).estGov) || (d < 18 && (s.die d).estGov)
  max (s.die d).level (if floor then 2 else 0)

/-- Does a logical core have no clock: a second failed phase stopped it, or a die is in SHUTDOWN (R398, R415)? -/
def State.clockStopped (s : State) (c : Nat) : Bool :=
  s.thm.shutAt.isSome || (s.dom (s.ptn.running.physCore c)).st == .stopped

/-- The owner of a logical core in the running pattern. -/
def State.corePart (s : State) (c : Nat) : Option Nat := s.ptn.running.coreOwner c

/-- The tick number (R48). -/
def State.tickNo (s : State) : Nat := s.rg64 Reg.TICK_COUNT

/-- PTN.EPOCHn. -/
def State.epoch (s : State) (p : Nat) : Nat := s.rf (Reg.PTN_EPOCH + 4 * p) 15 0

/-! ## The log and the interrupt sources (spec/19) -/

/-- The group of a source (Table 19.5). -/
def srcGroup (src : Nat) : Nat :=
  if src < 16 then 1 else if src < 32 then 2 else if src < 48 then 3 else if src < 64 then 4
  else if src < 128 then 5 else match src with
  | 128 => 6
  | 129 => 7
  | 130 => 7
  | 131 => 8
  | 132 => 8
  | 133 => 9
  | 134 => 10
  | 135 => 10
  | 136 => 10
  | 137 => 10
  | 138 => 11
  | 139 => 12
  | 140 => 13
  | 141 => 14
  | 142 => 13
  | 143 => 9
  | 144 => 15
  | 145 => 15
  | 149 => 16
  | 150 => 17
  | _ => 0

/-- HOLDOFF of a group, in µs. -/
def State.holdoff (s : State) (g : Nat) : Nat := s.rf (Reg.IRQ_GCFG + 4 * g) 31 16

/-- The hold-off of a VF vector in µs (R438). -/
def State.vfHoldoff (s : State) (v : Nat) : Nat :=
  match v with
  | 0 => s.holdoff 1
  | 1 => max (s.holdoff 2) (s.holdoff 3)
  | 2 => max (s.holdoff 5) (s.holdoff 4)
  | _ => s.holdoff 6

/-- The key of an MSI-X table word: function number, entry, word. -/
def msixKey (fn entry word : Nat) : Nat := 256 * fn + 4 * entry + word

/-- Is a vector masked in the function's MSI-X table? Every vector is masked at reset (PCI Express). -/
def State.vecMasked (s : State) (fn v : Nat) : Bool := bitOf (mget s.host.msixWords (msixKey fn v 3) 1).toNat 0

/-- A PBA bit set or cleared. -/
def State.pbaSet (s : State) (fn v : Nat) (b : Bool) : State :=
  let k := 64 * fn + v
  { s with host := { s.host with pba := if b then (if s.host.pba.contains k then s.host.pba else k :: s.host.pba)
                                        else s.host.pba.filter (· != k) } }

/-- A VF vector's record. -/
def State.vfVec (s : State) (port k v : Nat) : VfVec := mget s.irq.vf (64 * port + 4 * k + v) {}

/-- A VF vector's record set. -/
def State.vfVecSet (s : State) (port k v : Nat) (x : VfVec) : State :=
  { s with irq := { s.irq with vf := mset s.irq.vf (64 * port + 4 * k + v) x {} } }

/-- An MSI-X message of a VF vector sent now; it starts the vector's hold-off (R438). -/
def State.vfSend (s : State) (port k v : Nat) : State :=
  (s.send (.msix port (k + 1) v)).vfVecSet port k v { last := some s.now, waiting := false, hold := s.vfHoldoff v }

/-- An event for vector `v` of the VF that serves `Pk` (R438). -/
def State.vfEvent (s : State) (k v : Nat) : State :=
  let cfg := Reg.IRQ_VFCFG + 4 * k
  let port := s.rf cfg 0 0
  let f := 17 * port + 1 + k
  if !s.rb cfg (1 + v) || !s.ptn.running.enabled k then s
  else if (s.port port).st ≠ .up || !(mget s.host.fns f {}).msix then s
  else if (mget s.host.fns f {}).fmask || s.vecMasked f v then s.pbaSet f v true
  else match (s.vfVec port k v).last with
    | none => s.vfSend port k v
    | some t =>
      if s.now < t + 1000 * s.vfHoldoff v then
        s.vfVecSet port k v { last := some t, waiting := true, hold := s.vfHoldoff v }
      else s.vfSend port k v

/-- A source's RAW bit set (R431). -/
def State.rawSet (s : State) (src : Nat) : State := s.evSet (Reg.IRQ_RAW + 4 * (src / 32)) (src % 32)

/-- A source raised: its RAW bit, and the event of the VF it is delivered to (R431, R438). The PTN source goes to a VF
through `ptnResult`. -/
def State.raise (s : State) (src : Nat) : State :=
  let t := s.rawSet src
  if src < 16 then t.vfEvent src 0
  else if src < 48 then t.vfEvent (src % 16) 1
  else if src < 64 then t.vfEvent (src % 16) 2
  else if src < 128 then
    match s.corePart (src - 64) with
    | some p => t.vfEvent p 2
    | none => t
  else t

/-- The class of a code (R429). -/
def codeClass (code : Nat) : Nat := code / 256

/-- Does an occurrence merge into record `r` (R427)? -/
def ErrRec.takes (r : ErrRec) (code unit : Nat) (part : Option Nat) (addr now mergeUs : Nat) : Bool :=
  r.count != 0xFFFF && r.code == code && r.unit == unit && decide (r.part = part) && r.addr == addr &&
    mergeUs != 0 && decide (now ≤ r.lastAt + 1000 * mergeUs)

/-- The record after a merge (R427). -/
def ErrRec.merge (r : ErrRec) (tick now : Nat) : ErrRec :=
  { r with count := min 0xFFFE (r.count + 1), lastTick := tick, lastAt := now }

/-- A record queued for the logger, or lost when 256 wait (R426). -/
def State.logQueue (s : State) (r : ErrRec) : State :=
  if s.log.queue.length < 256 then { s with log := { s.log with queue := s.log.queue ++ [r] } }
  else ({ s with log := { s.log with loss := true } }.rSat Reg.ERR_LOST 15 0 1).raise 145

/-- The slot of the newest record of the ring, if it is unread. -/
def State.newestSlot (s : State) : Option Nat :=
  let h := s.rf Reg.ERR_HEAD 8 0
  if h = s.rf Reg.ERR_TAIL 8 0 then none else some ((h + 511) % 512)

/-- An occurrence reported to the logger (R424 to R428). `part` is none for NONE; `once` marks a record of a change of
state, COUNT 0xFFFF. -/
def State.logRec (s : State) (code unit : Nat) (part : Option Nat) (addr syn : Nat) (once : Bool) : State :=
  let pre := !s.tick.en
  let tick := if pre then 0 else s.tickNo
  let s := s.rAdd (Reg.ERR_CLASS + 4 * (codeClass code - 1)) 31 0 1
  let us := s.rf Reg.ERR_CFG 31 16
  let r : ErrRec := ⟨code, unit, part, false, pre, if once then 0xFFFF else 1, tick, addr, syn, tick, 0,
    match part with
    | some p => s.epoch p
    | none => 0, s.now⟩
  if once then s.logQueue r
  else match s.log.queue.getLast? with
    | some l =>
      if l.takes code unit part addr s.now us then
        { s with log := { s.log with queue := s.log.queue.dropLast ++ [l.merge tick s.now] } }
      else s.logQueue r
    | none =>
      match s.newestSlot with
      | none => s.logQueue r
      | some i =>
        match mfind s.log.ring i with
        | some l =>
          if l.takes code unit part addr s.now us then
            { s with log := { s.log with ring := mput s.log.ring i (l.merge tick s.now) } }
          else s.logQueue r
        | none => s.logQueue r

/-- An error record of an occurrence. -/
def State.err (s : State) (code unit : Nat) (part : Option Nat) (addr syn : Nat) : State :=
  s.logRec code unit part addr syn false

/-- Unit ids (Table 19.2). -/
def unitId (type inst : Nat) : Nat := 4096 * type + inst

/-- PTN.RESULT updated, the PTN source raised, vector 3 of the VF that opened the basting it belongs to, an error record for a code
other than 0 (R46, R438, R484). -/
def State.ptnResult (s : State) (code detail op : Nat) (unpicked : Bool) (who : Option Func) : State :=
  let t := s.rgSet Reg.PTN_RESULT (BitVec.ofNat 32 (code + 2 ^ 16 * detail + 2 ^ 24 * op + 2 ^ 27 * b2n unpicked))
  let t := t.rawSet 128
  let t := match s.ptn.phase, s.ptn.opener with
    | .idle, _ => t
    | _, .vf p k => if t.rf (Reg.IRQ_VFCFG + 4 * k.val) 0 0 = p.val then t.vfEvent k.val 3 else t
    | _, _ => t
  if code = 0 then t
  else
    let part := if s.ptn.phase ≠ .idle ∧ s.ptn.partScope then some s.ptn.part.val
      else match who with
        | some (.vf _ k) => some k.val
        | _ => none
    t.err code (unitId 0 1) part (if op = 2 then s.rg64 Reg.PTN_LOAD_ADDR % 2 ^ 48 else 0) (detail + 256 * op)

/-- Error codes (Table 19.3). -/
def eUncorr : Nat := 0x0101
/-- E_TALLY. -/
def eTally : Nat := 0x0102
/-- E_ALIGN. -/
def eAlign : Nat := 0x0103
/-- E_BOUNDS. -/
def eBounds : Nat := 0x0104
/-- E_PERM. -/
def ePerm : Nat := 0x0105
/-- E_PINCAP. -/
def ePinCap : Nat := 0x0106
/-- E_PATHRESET. -/
def ePathReset : Nat := 0x0201
/-- E_LINKDOWN. -/
def eLinkDown : Nat := 0x0202
/-- E_TIMEOUT. -/
def eTimeout : Nat := 0x0203
/-- F_ILLEGAL. -/
def fIllegal : Nat := 0x0301
/-- F_BUSERR. -/
def fBusErr : Nat := 0x0302
/-- F_CLAMPDEADLOCK. -/
def fClampDeadlock : Nat := 0x0303
/-- F_NOPROGRESS. -/
def fNoProgress : Nat := 0x0304
/-- F_EOI_ORDER. -/
def fEoiOrder : Nat := 0x0305
/-- E_TICKOVER. -/
def eTickOver : Nat := 0x0401
/-- E_EASE. -/
def eEase : Nat := 0x0402
/-- E_PTN_SIG. -/
def ePtnSig : Nat := 0x0501
/-- E_PTN_INVALID. -/
def ePtnInvalid : Nat := 0x0502
/-- E_PTN_TIMEOUT. -/
def ePtnTimeout : Nat := 0x0503
/-- E_PTN_QUORUM. -/
def ePtnQuorum : Nat := 0x0504
/-- W_SUPPLY. -/
def wSupply : Nat := 0x0601
/-- W_THERM. -/
def wTherm : Nat := 0x0602
/-- W_THRASH. -/
def wThrash : Nat := 0x0603

/-! ## Control pages (R62) -/

/-- The address of a partition's slate control page in BAR4 (Tables 3.2 and 3.3). -/
def ctlPage (p : Nat) : Nat := p * 2 ^ 20

/-- A field of the control page written by the device. -/
def State.ctlSet (s : State) (p off n v : Nat) : State :=
  { s with bar4 := writeCells s.bar4 (ctlPage p + off) (leBytes v n) }

end Sys2Proof.Machine
end

