-- ==== Sys2Proof/Machine/Errors.lean ====
section
/-! DEFINITION. The error log and the interrupt controller (spec/19). -/

namespace Sys2Proof.Machine

/-! ## The log -/

/-- The logger appends the next queued record: a full ring gives up its oldest unread record first (R426). -/
def State.appendNext (s : State) : State :=
  match s.log.queue with
  | [] => s
  | r :: rest =>
    let head := s.rf Reg.ERR_HEAD 8 0
    let tail := s.rf Reg.ERR_TAIL 8 0
    let full := decide ((head + 1) % 512 = tail)
    let s := if full then
        ((s.rfSet Reg.ERR_TAIL 8 0 ((tail + 1) % 512)).rSat Reg.ERR_LOST 15 0 1).raise 145
      else s
    let s := s.rAdd Reg.ERR_SEQ 31 0 1
    let q : ErrRec := { r with loss := s.log.loss || full, seq := s.rf Reg.ERR_SEQ 31 0 }
    let s := { s with log := { queue := rest, ring := mput s.log.ring head q, loss := false, lastAt := some s.now } }
    let s := s.rfSet Reg.ERR_HEAD 8 0 ((head + 1) % 512)
    if s.rb Reg.ERR_CFG (codeClass r.code - 1) then s.raise 144 else s

/-- LOG_APPEND: the next queued record is appended, no sooner than 100 ns after the last (R426). -/
def execLogAppend (s : State) : Res :=
  .next (if s.log.queue = [] then s
    else (match s.log.lastAt with
      | some t => s.at (t + 100)
      | none => s).appendNext)

/-- ERR_TAIL_WRITE: TAIL moves where the written slot lies from TAIL to HEAD (Table 19.7). -/
def execErrTailWrite (f : Func) (v : Word) (s : State) : Res :=
  .next (s.inOrder f (.errTailWrite f v) (fun s =>
    let head := s.rf Reg.ERR_HEAD 8 0
    let tail := s.rf Reg.ERR_TAIL 8 0
    let w := v.toNat % 512
    if isPf f && decide ((w + 512 - tail) % 512 ≤ (head + 512 - tail) % 512) then s.rfSet Reg.ERR_TAIL 8 0 w else s))

/-! ## Targets, groups and stacks -/

/-- The sources of a group (Table 19.5). -/
def groupSources (g : Nat) : List Nat := (List.range 151).filter (fun x => srcGroup x == g)

/-- Is a source pending (R431)? -/
def State.srcPending (s : State) (x : Nat) : Bool :=
  s.rb (Reg.IRQ_RAW + 4 * (x / 32)) (x % 32) && !s.rb (Reg.IRQ_MASK + 4 * (x / 32)) (x % 32)

/-- Is a group pending (R431)? -/
def State.groupPending (s : State) (g : Nat) : Bool := (groupSources g).any s.srcPending

/-- Is a group pending and routed to target `t` (R432)? Each source of group 0 goes to its own target. -/
def State.routedPending (s : State) (t g : Nat) : Bool :=
  if g = 0 then s.srcPending (146 + t) else s.groupPending g && s.rf (Reg.IRQ_GCFG + 4 * g) 11 10 == t + 1

/-- The priority of a group (R432). -/
def State.groupPrio (s : State) (g : Nat) : Nat := if g = 0 then 15 else s.rf (Reg.IRQ_GCFG + 4 * g) 3 0

/-- The MSI-X vector of a group. -/
def State.groupVector (s : State) (g : Nat) : Nat := s.rf (Reg.IRQ_GCFG + 4 * g) 9 4

/-- A target's stack, top entry first. -/
def State.irqStack (s : State) (t : Nat) : List StackEnt :=
  match t with
  | 0 => s.irq.stack0
  | 1 => s.irq.stack1
  | _ => s.irq.stack2

/-- A target's stack set. -/
def State.irqStackSet (s : State) (t : Nat) (v : List StackEnt) : State :=
  { s with irq := match t with
    | 0 => { s.irq with stack0 := v }
    | 1 => { s.irq with stack1 := v }
    | _ => { s.irq with stack2 := v } }

/-- The key of a group's last presentation (R436); group 0 has one at each target. -/
def shownKey (t g : Nat) : Nat := if g = 0 then 32 + t else g

/-- The conditions of R433 but for the vector's mask. -/
def State.presentableButMask (s : State) (t g : Nat) : Bool :=
  let f := mget s.host.fns (17 * t) {}
  s.routedPending t g && !(s.irqStack t).any (fun e => e.group == g) &&
    (match s.irqStack t with
     | [] => true
     | e :: _ => decide (e.prio < s.groupPrio g)) &&
    !s.rb Reg.IRQ_CTRL 0 &&
    (match mfind s.irq.shown (shownKey t g) with
     | none => true
     | some u => decide (u + 1000 * s.holdoff g ≤ s.now)) &&
    (t == 2 || ((s.port t).st == .up && f.msix && !f.fmask))

/-- Is a group presentable to a target (R433)? -/
def State.presentable (s : State) (t g : Nat) : Bool :=
  s.presentableButMask t g && (t == 2 || !s.vecMasked (17 * t) (s.groupVector g))

/-- The presentable group of highest priority, the lowest number among equals (R433). -/
def State.bestGroup (s : State) (t : Nat) : Option Nat :=
  (List.range 18).foldl (fun b g =>
    if s.presentable t g then
      match b with
      | none => some g
      | some h => if s.groupPrio h < s.groupPrio g then some g else b
    else b) none

/-- INTERRUPT_PRESENTATION: the target pushes its best presentable group; targets 0 and 1 send the MSI-X message of its
vector (R433). -/
def execInterruptPresentation (t : Fin 3) (s : State) : Res :=
  .next (match s.bestGroup t.val with
    | none => s
    | some g =>
      let u := s.irqStackSet t.val (⟨g, s.groupPrio g⟩ :: s.irqStack t.val)
      let u := { u with irq := { u.irq with shown := mput u.irq.shown (shownKey t.val g) s.now } }
      if t.val < 2 then u.send (.msix t.val 0 (s.groupVector g)) else u)

/-- A completion out of stack order: steps 1 to 4 of R434. -/
def State.outOfOrder (s : State) (t g top : Nat) : State :=
  let s := s.err fEoiOrder (unitId 0 3) none 0 (g + 2 ^ 8 * top + 2 ^ 16 * t)
  let s := s.irqStackSet t []
  let routed := (List.range 18).filter (fun g => g == 0 || s.rf (Reg.IRQ_GCFG + 4 * g) 11 10 == t + 1)
  let shown := routed.foldl (fun m g => mdel m (shownKey t g)) s.irq.shown
  let s := { s with irq := { s.irq with shown := shown } }
  s.raise (146 + t)

/-- A group is completed on a target: on top it pops, elsewhere the completion is out of order (R434). -/
def State.complete (s : State) (t g : Nat) : State :=
  match s.irqStack t with
  | e :: rest => if e.group = g then s.irqStackSet t rest else s.outOfOrder t g e.group
  | [] => s.outOfOrder t g 0x1F

/-- EOI: a physical function completes a group on its target (R434). -/
def execEoi (f : Func) (t : Fin 2) (group : BitVec 5) (s : State) : Res :=
  .next (s.inOrder f (.eoi f t group) (fun s =>
    if isPf f then s.complete t.val group.toNat else s))

/-! ## Firmware and the platform controller -/

/-- Numbers of the PLDM sensors of R386 (DESIGN CHOICE, log entry 11): 0 to 21 dies, 32 to 43 stacks, 64 to 66 voltage,
current and power at J1, 67 the power limit, 128 to 191 spline links, 256 to 266 dowel links. -/
def sensorDie (d : Nat) : Nat := d
/-- A stack's temperature sensor. -/
def sensorStack (m : Nat) : Nat := 32 + m
/-- The input power sensor. -/
def sensorPower : Nat := 66
/-- A spline link's state sensor. -/
def sensorLink (n : Nat) : Nat := 128 + n
/-- A dowel link's state sensor. -/
def sensorDowel (k : Nat) : Nat := 256 + k

/-- The state a link register shows (Table 15.14). -/
def linkCode : LinkState → Nat
  | .disabled => 0
  | .down => 1
  | .training => 2
  | .up4 => 3
  | .up2 => 4

/-- The code of a die state (Table 18.9). -/
def dieCode : DieState → Nat
  | .normal => 0
  | .warn => 1
  | .throttle => 2
  | .shutdown => 3

/-- The code of a stack state (Table 11.18). -/
def stackCode : StackState → Nat
  | .normal => 0
  | .throttle => 1
  | .stop => 2

/-- The present state of a sensor. -/
def State.sensorState (s : State) (x : Nat) : Nat :=
  if x < 32 then dieCode (s.die x).st
  else if x < 64 then stackCode (s.stackSt (x - 32)).st
  else if x < 128 then s.rf Reg.PWR_STATUS 4 0
  else if x < 256 then linkCode (s.link (x - 128)).st
  else s.rf Reg.NET_STATUS 12 2 / 2 ^ (x - 256) % 2

/-- The sensors an interrupt group concerns (R387). -/
def groupSensors (g : Nat) : List Nat :=
  match g with
  | 9 => (List.range 22).map sensorDie ++ (List.range 12).map sensorStack
  | 13 => [sensorPower]
  | 11 => (List.range 11).map sensorDowel
  | 12 => (List.range 64).map sensorLink
  | _ => []

/-- The controller's attention is called: MGMT_ALERT_N in SMBus mode, an In-Band Interrupt in I3C mode (R385; DESIGN CHOICE, log
entry 11: with each message the target sends of its own accord). -/
def State.callAlert (s : State) : State :=
  match s.mgmt.i3c with
  | some _ => s.send (.alert true)
  | none => { s with pins := { s.pins with alert := true } }.send (.alert false)

/-- The events firmware reports for a group: the sensors whose state is not the one last reported, or the first sensor
when none changed (R387). -/
def State.reportGroup (s : State) (g : Nat) : State :=
  let all := groupSensors g
  let changed := all.filter (fun x => s.sensorState x != mget s.mgmt.states x 0)
  let xs := if changed.isEmpty then all.take 1 else changed
  xs.foldl (fun u x =>
    let was := mget u.mgmt.states x 0
    let u := if s.mgmt.receiver.isSome then (u.send (.event x (s.sensorState x) was)).callAlert else u
    { u with mgmt := { u.mgmt with states := mset u.mgmt.states x (s.sensorState x) 0 } }) s

/-- FIRMWARE_GROUP_COMPLETE: firmware reports the group, clears the RAW bits of its sources and completes it on target 2
(R387, R432, R434). -/
def execFirmwareGroupComplete (group : BitVec 5) (s : State) : Res :=
  let g := group.toNat
  let own := if g = 0 then [148] else groupSources g
  let u := if (s.irqStack 2).any (fun e => e.group == g) then
      own.foldl (fun u x => u.rbSet (Reg.IRQ_RAW + 4 * (x / 32)) (x % 32) false) (s.reportGroup g)
    else s
  .next (u.complete 2 g)

/-! ## Vectors of virtual functions -/

/-- The mask of a VF vector cleared: a waiting PBA bit sends its message, at the end of a hold-off that runs (R438). -/
def State.vfUnmask (s : State) (port k v : Nat) : State :=
  let f := 17 * port + 1 + k
  if s.host.pba.contains (64 * f + v) && !s.vecMasked f v && !(mget s.host.fns f {}).fmask &&
      (mget s.host.fns f {}).msix && (s.port port).st == .up then
    let u := s.pbaSet f v false
    let x := u.vfVec port k v
    match x.last with
    | some t => if u.now < t + 1000 * x.hold then u.vfVecSet port k v { x with waiting := true } else u.vfSend port k v
    | none => u.vfSend port k v
  else s

/-- VF_MESSAGE: the hold-off of a vector ends and one message goes out for the events that wait (R438). -/
def execVfMessage (port : Fin 2) (k : Fin 16) (vector : Fin 4) (s : State) : Res :=
  let x := s.vfVec port.val k.val vector.val
  let f := 17 * port.val + 1 + k.val
  .next (if !x.waiting then s
    else
      let u := s.at (x.last.getD 0 + 1000 * x.hold)
      let u := u.vfVecSet port.val k.val vector.val { x with waiting := false }
      if (u.port port.val).st ≠ .up || !(mget u.host.fns f {}).msix then u
      else if (mget u.host.fns f {}).fmask || u.vecMasked f vector.val then u.pbaSet f vector.val true
      else u.vfSend port.val k.val vector.val)

end Sys2Proof.Machine
end

