-- ==== Sys2Proof/Machine/Flags.lean ====
section
/-! DEFINITION. Number formats, exact values, rounding, conversions and the flags they raise (spec/04, spec/06). -/

namespace Sys2Proof.Machine

/-- An exact value: NaN, a signed infinity, or `± m × 2 ^ e`. A zero keeps its sign. -/
inductive Fp where
  | nan
  | inf (neg : Bool)
  | fin (neg : Bool) (m : Nat) (e : Int)
deriving DecidableEq, Repr

/-- A binary format: mantissa bits, exponent bits, bias, and what its top exponent field means (R81, R82). -/
structure FpFmt where
  mb : Nat
  eb : Nat
  bias : Int
  special : Nat     -- 0: every code a number; 1: IEEE infinity and NaN; 2: E4M3, NaN at mantissa 111 only
deriving DecidableEq, Repr

/-- Table 4.2, E4M3. -/
def fE4M3 : FpFmt := ⟨3, 4, 7, 2⟩
/-- Table 4.2, E5M2. -/
def fE5M2 : FpFmt := ⟨2, 5, 15, 1⟩
/-- Table 4.2, E3M2. -/
def fE3M2 : FpFmt := ⟨2, 3, 3, 0⟩
/-- Table 4.2, E2M3. -/
def fE2M3 : FpFmt := ⟨3, 2, 1, 0⟩
/-- Table 4.2, E2M1. -/
def fE2M1 : FpFmt := ⟨1, 2, 1, 0⟩
/-- Table 4.2, BF16. -/
def fBF16 : FpFmt := ⟨7, 8, 127, 1⟩
/-- Table 4.2, FP16. -/
def fFP16 : FpFmt := ⟨10, 5, 15, 1⟩
/-- Table 4.2, FP32. -/
def fFP32 : FpFmt := ⟨23, 8, 127, 1⟩
/-- The binary64 format of IEEE 754 (R161). -/
def fFP64 : FpFmt := ⟨52, 11, 1023, 1⟩

/-- The least exponent of a normal value. -/
def FpFmt.emin (f : FpFmt) : Int := 1 - f.bias

/-- The magnitude code of the largest finite value (Table 4.3). -/
def FpFmt.maxCode (f : FpFmt) : Nat :=
  match f.special with
  | 0 => 2 ^ (f.eb + f.mb) - 1
  | 1 => (2 ^ f.eb - 1) * 2 ^ f.mb - 1
  | _ => 2 ^ (f.eb + f.mb) - 2

/-- The code of a magnitude 'all exponent bits one, mantissa 0': infinity in the IEEE formats. -/
def FpFmt.infCode (f : FpFmt) : Nat := (2 ^ f.eb - 1) * 2 ^ f.mb

/-- The canonical NaN of the format (R93). -/
def FpFmt.nanCode (f : FpFmt) : Nat :=
  if f.special = 2 then 2 ^ (f.eb + f.mb) - 1 else f.infCode + 2 ^ (f.mb - 1)

/-- Is the code a NaN (Table 4.3)? -/
def FpFmt.isNan (f : FpFmt) (c : Nat) : Bool :=
  let mag := c % 2 ^ (f.eb + f.mb)
  match f.special with
  | 0 => false
  | 1 => decide (f.infCode < mag)
  | _ => mag == 2 ^ (f.eb + f.mb) - 1

/-- The value of a code (R81, R82). -/
def FpFmt.decode (f : FpFmt) (c : Nat) : Fp :=
  let mag := c % 2 ^ (f.eb + f.mb)
  let neg := bitOf c (f.eb + f.mb)
  if f.isNan c then .nan
  else if f.special = 1 ∧ mag = f.infCode then .inf neg
  else
    let e := mag / 2 ^ f.mb
    let m := mag % 2 ^ f.mb
    if e = 0 then .fin neg m (f.emin - f.mb)
    else .fin neg (m + 2 ^ f.mb) ((e : Int) - f.bias - f.mb)

/-- Rounding modes (Table 4.5, Table 5.8). -/
inductive RMode where
  | rne
  | rtz
  | st8
  | st16
deriving DecidableEq, Repr

/-- RMODE and ARMODE codes. -/
def rmodeOf (n : Nat) : RMode :=
  match n % 4 with
  | 0 => .rne
  | 1 => .rtz
  | 2 => .st8
  | _ => .st16

/-- The exponent of the leading bit of `m × 2 ^ e`. -/
def topExp (m : Nat) (e : Int) : Int := (Nat.log2 m : Int) + e

/-- `m × 2 ^ e` rounded to a multiple of `2 ^ q`, as that multiple (R91); `r` is the draw. -/
def roundMul (rm : RMode) (r m : Nat) (e q : Int) : Nat :=
  if q ≤ e then m * 2 ^ (e - q).toNat
  else
    let sh := (q - e).toNat
    let k := m / 2 ^ sh
    let rem := m % 2 ^ sh
    match rm with
    | .rne => if 2 * rem > 2 ^ sh ∨ (2 * rem = 2 ^ sh ∧ k % 2 = 1) then k + 1 else k
    | .rtz => k
    | .st8 => (m * 2 ^ 8 / 2 ^ sh + r % 2 ^ 8) / 2 ^ 8
    | .st16 => (m * 2 ^ 16 / 2 ^ sh + r % 2 ^ 16) / 2 ^ 16

/-- The exponent of the quantum of the format in the binade of `m × 2 ^ e` (R91). -/
def FpFmt.quantum (f : FpFmt) (m : Nat) (e : Int) : Int :=
  (if topExp m e < f.emin then f.emin else topExp m e) - f.mb

/-- The magnitude code of `k × 2 ^ q`, a value the format can hold. -/
def FpFmt.pack (f : FpFmt) (k : Nat) (q : Int) : Nat :=
  if k = 0 then 0
  else
    let t := topExp k q
    if t < f.emin then k
    else
      let s := t - f.mb
      let sig := if q ≤ s then k / 2 ^ (s - q).toNat else k * 2 ^ (q - s).toNat
      (t + f.bias).toNat * 2 ^ f.mb + (sig - 2 ^ f.mb)

/-- Does `k × 2 ^ q` exceed the largest finite value of the format (R92)? -/
def FpFmt.exceeds (f : FpFmt) (k : Nat) (q : Int) : Bool :=
  match f.decode f.maxCode with
  | .fin _ m e =>
    if e ≤ q then decide (m < k * 2 ^ (q - e).toNat) else decide (m * 2 ^ (e - q).toNat < k)
  | _ => false

/-- The outcome of rounding a finite value into a format: its magnitude code, and whether the rounded magnitude is
above the largest finite value. -/
def FpFmt.round (f : FpFmt) (rm : RMode) (r m : Nat) (e : Int) : Bool × Nat :=
  if m = 0 then (false, 0)
  else
    let q := f.quantum m e
    let k := roundMul rm r m e q
    if f.exceeds k q then (true, f.maxCode) else (false, f.pack k q)

/-- A code with a sign. -/
def FpFmt.signed (f : FpFmt) (neg : Bool) (mag : Nat) : Nat := (if neg then 2 ^ (f.eb + f.mb) else 0) + mag

/-- IEEE rounding of an exact value: overflow gives infinity (in toward-zero mode the largest finite value), a NaN is
the canonical one (R198). -/
def FpFmt.ieee (f : FpFmt) (rm : RMode) (x : Fp) : Nat :=
  match x with
  | .nan => f.nanCode
  | .inf n => f.signed n f.infCode
  | .fin n m e =>
    let (o, c) := f.round rm 0 m e
    if o ∧ rm ≠ .rtz then f.signed n f.infCode else f.signed n c

/-- An FP32 word as an exact value. -/
def f32 (w : Word) : Fp := fFP32.decode w.toNat

/-- An exact value as an FP32 word, to nearest even (R198). -/
def toF32 (x : Fp) : Word := BitVec.ofNat 32 (fFP32.ieee .rne x)

/-- Negation. -/
def Fp.neg : Fp → Fp
  | .nan => .nan
  | .inf n => .inf (!n)
  | .fin n m e => .fin (!n) m e

/-- Is the value NaN? -/
def Fp.isNan : Fp → Bool
  | .nan => true
  | _ => false

/-- Is the value infinite? -/
def Fp.isInf : Fp → Bool
  | .inf _ => true
  | _ => false

/-- Is the value a zero? -/
def Fp.isZero : Fp → Bool
  | .fin _ m _ => m == 0
  | _ => false

/-- The signed significand of a finite value over exponent `e0 ≤ e`. -/
def sigAt (neg : Bool) (m : Nat) (e e0 : Int) : Int :=
  let v : Int := (m * 2 ^ (e - e0).toNat : Nat)
  if neg then -v else v

/-- The finite value `v × 2 ^ e`; a zero is +0 unless `zneg`. -/
def finOf (v : Int) (e : Int) (zneg : Bool) : Fp :=
  if v = 0 then .fin zneg 0 0 else .fin (decide (v < 0)) v.natAbs e

/-- The exact sum of two values, zeros signed as IEEE 754 does under round to nearest. -/
def Fp.add (x y : Fp) : Fp :=
  match x, y with
  | .nan, _ => .nan
  | _, .nan => .nan
  | .inf a, .inf b => if a = b then .inf a else .nan
  | .inf a, _ => .inf a
  | _, .inf b => .inf b
  | .fin a m e, .fin b n g =>
    let e0 := min e g
    finOf (sigAt a m e e0 + sigAt b n g e0) e0 (a && b && m == 0 && n == 0)

/-- The exact product. -/
def Fp.mul (x y : Fp) : Fp :=
  match x, y with
  | .nan, _ => .nan
  | _, .nan => .nan
  | .inf a, .inf b => .inf (a != b)
  | .inf a, .fin b n _ => if n = 0 then .nan else .inf (a != b)
  | .fin a m _, .inf b => if m = 0 then .nan else .inf (a != b)
  | .fin a m e, .fin b n g => .fin (a != b) (m * n) (e + g)

/-- The value times `2 ^ k`. -/
def Fp.scale (x : Fp) (k : Int) : Fp :=
  match x with
  | .fin a m e => .fin a m (e + k)
  | y => y

/-- The magnitude. -/
def Fp.abs : Fp → Fp
  | .nan => .nan
  | .inf _ => .inf false
  | .fin _ m e => .fin false m e

/-- Is `x < y`, for values that are not NaN? Zeros are equal. -/
def Fp.lt (x y : Fp) : Bool :=
  match x, y with
  | .nan, _ => false
  | _, .nan => false
  | .inf a, .inf b => a && !b
  | .inf a, _ => a
  | _, .inf b => !b
  | .fin a m e, .fin b n g =>
    let e0 := min e g
    decide (sigAt a m e e0 < sigAt b n g e0)

/-- Equality of values that are not NaN; −0 equals +0. -/
def Fp.same (x y : Fp) : Bool := !x.isNan && !y.isNan && !x.lt y && !y.lt x

/-- Is `x` below `y` with −0 below +0 (R182)? -/
def Fp.below (x y : Fp) : Bool :=
  x.lt y ||
    (match x, y with
     | .fin a m _, .fin b n _ => m == 0 && n == 0 && a && !b
     | _, _ => false)

/-- The quotient of two finite positive significands with a sticky bit: exact for any rounding to at most 60 bits. -/
def quotient (m : Nat) (e : Int) (n : Nat) (g : Int) : Nat × Int :=
  if n = 0 then (0, 0)
  else
    let k := Nat.log2 n + 64
    let num := m * 2 ^ k
    (num / n * 2 + (if num % n = 0 then 0 else 1), e - g - k - 1)

/-- FRCP: the correctly rounded reciprocal (R198). -/
def recip (w : Word) : Word :=
  match f32 w with
  | .nan => toF32 .nan
  | .inf n => toF32 (.fin n 0 0)
  | .fin n m e =>
    if m = 0 then toF32 (.inf n)
    else
      let (k, g) := quotient 1 0 m e
      toF32 (.fin n k g)

/-- The largest `r` with `r * r ≤ n`, found bit by bit from bit `k` down. -/
def isqrt (n : Nat) : Nat → Nat → Nat
  | 0, r => if (r + 1) * (r + 1) ≤ n then r + 1 else r
  | k + 1, r => isqrt n k (if (r + 2 ^ (k + 1)) * (r + 2 ^ (k + 1)) ≤ n then r + 2 ^ (k + 1) else r)

/-- The square root of `m × 2 ^ e`, with a sticky bit below 60 exact bits. -/
def sqrtOf (m : Nat) (e : Int) : Nat × Int :=
  let sh : Nat := if e % 2 = 0 then 200 else 201
  let v := m * 2 ^ sh
  let r := isqrt v (Nat.log2 v / 2 + 1) 0
  (r * 2 + (if r * r = v then 0 else 1), (e - sh) / 2 - 1)

/-- FP32 minimum or maximum: a NaN operand is ignored unless both are NaN; −0 orders below +0 (R182, R485). -/
def minMax (isMax : Bool) (a b : Word) : Word :=
  let x := f32 a
  let y := f32 b
  if x.isNan then (if y.isNan then 0x7FC00000 else b)
  else if y.isNan then a
  else if isMax then (if x.below y then b else a) else (if y.below x then b else a)

/-! ## Format codes -/

/-- The format codes of Table 4.1 are 0x01 to 0x0E. -/
def fmtValid (c : Nat) : Bool := decide (1 ≤ c ∧ c ≤ 0x0E)

/-- The scaled formats are 0x03 to 0x0B. -/
def fmtScaled (c : Nat) : Bool := decide (3 ≤ c ∧ c ≤ 0x0B)

/-- The pleated formats PF4 and PF6. -/
def fmtPleated (c : Nat) : Bool := c == 0x0A || c == 0x0B

/-- The integer formats MXINT8 and INT8B. -/
def fmtInt (c : Nat) : Bool := c == 0x08 || c == 0x09

/-- The width of an element in bits, without the scale (Table 4.1). -/
def fmtBits (c : Nat) : Nat :=
  match c with
  | 0x05 => 6
  | 0x06 => 6
  | 0x0B => 6
  | 0x07 => 4
  | 0x0A => 4
  | 0x0C => 16
  | 0x0D => 16
  | 0x0E => 32
  | _ => 8

/-- The bytes of a scale entry (Table 4.1, R85). -/
def fmtScaleBytes (c : Nat) : Nat := if fmtPleated c then 2 else if fmtScaled c then 1 else 0

/-- The element layout of a floating-point format code (Table 4.1). -/
def fmtElem (c : Nat) : FpFmt :=
  match c with
  | 0x01 => fE4M3
  | 0x02 => fE5M2
  | 0x03 => fE4M3
  | 0x04 => fE5M2
  | 0x05 => fE3M2
  | 0x06 => fE2M3
  | 0x07 => fE2M1
  | 0x0A => fE2M1
  | 0x0B => fE2M3
  | 0x0C => fBF16
  | 0x0D => fFP16
  | _ => fFP32

/-- The value of an element code without block scale and pleat: for MXINT8 `k × 2^−6`, for INT8B `k` (R81, R86). -/
def elemValue (c code : Nat) : Fp :=
  if fmtInt c then
    let k := code % 256
    .fin (decide (128 ≤ k)) (if 128 ≤ k then 256 - k else k) (if c = 0x08 then -6 else 0)
  else (fmtElem c).decode code

/-- The pleat offset of element `i` (R87). -/
def pleatOf (pleats i : Nat) : Nat := bitsOf pleats (2 * (i / 8) + 1) (2 * (i / 8))

/-- The value of element `i` of a block as a product takes it: the pleat applies, the block scale does not (R125). -/
def operandValue (c pleats i code : Nat) : Fp :=
  let v := elemValue c code
  if fmtPleated c then v.scale (-(pleatOf pleats i : Int)) else v

/-- The value an encoding reads as, block scale and pleat applied (R84, R86, R87). -/
def decodeElem (c scale pleats i code : Nat) : Fp :=
  if fmtScaled c then
    if scale = 255 then .nan else (operandValue c pleats i code).scale ((scale : Int) - 127)
  else elemValue c code

/-- Conversion control (Table 4.5). -/
structure Conv where
  rm : RMode
  ovf : Bool
  nanp : Bool
deriving DecidableEq, Repr

/-- The fields of Table 4.5. -/
def convOf (n : Nat) : Conv := ⟨rmodeOf n, bitOf n 2, bitOf n 3⟩

/-- The event an encode counts for an element (R97). -/
inductive ConvEvent where
  | none
  | nan
  | overflow
  | flush
deriving DecidableEq, Repr

/-- A decode into FP32 under a conversion control: exact, or an overflow under R92 (R89). -/
def decodeF32 (cv : Conv) (x : Fp) : Word :=
  match x with
  | .nan => if cv.nanp then 0 else 0x7FC00000
  | .inf n => BitVec.ofNat 32 (fFP32.signed n fFP32.infCode)
  | .fin n m e =>
    let (o, c) := fFP32.round .rne 0 m e
    if o then
      (if cv.ovf ∧ cv.rm ≠ .rtz then BitVec.ofNat 32 (fFP32.signed n fFP32.infCode)
       else BitVec.ofNat 32 (fFP32.signed n fFP32.maxCode))
    else BitVec.ofNat 32 (fFP32.signed n c)

/-- What an overflow of sign `n` becomes in an unscaled format (R92); `input` says that the input was infinite. -/
def overflowCode (f : FpFmt) (cv : Conv) (n input : Bool) : Nat :=
  if !cv.ovf then f.signed n f.maxCode
  else if cv.rm = .rtz ∧ !input then f.signed n f.maxCode
  else match f.special with
  | 1 => f.signed n f.infCode
  | 2 => f.nanCode
  | _ => f.signed n f.maxCode

/-- An encode of one FP32 value into an unscaled format (R91 to R94), with its event (R97). -/
def encodeUnscaled (f : FpFmt) (cv : Conv) (r : Nat) (x : Fp) : Nat × ConvEvent :=
  match x with
  | .nan => if cv.nanp then (0, .nan) else (f.nanCode, .nan)
  | .inf n => (overflowCode f cv n true, .overflow)
  | .fin n m e =>
    let (o, c) := f.round cv.rm r m e
    if o then (overflowCode f cv n false, .overflow)
    else (f.signed n c, if m ≠ 0 ∧ c = 0 then .flush else .none)

/-- Table 4.6. -/
def emax (c : Nat) : Int :=
  match c with
  | 0x03 => 8
  | 0x04 => 15
  | 0x05 => 4
  | 0x08 => 0
  | 0x09 => 6
  | _ => 2

/-- An element of a block, divided by its scale, in the element format with OVF 0 (R95, step 7). -/
def encodeBlockElem (c : Nat) (rm : RMode) (r : Nat) (x : Fp) : Nat × ConvEvent :=
  match x with
  | .fin n m e =>
    if fmtInt c then
      let k := roundMul rm r m (if c = 0x08 then e + 6 else e) 0
      let sat := decide (127 < k)
      let v := if sat then 127 else k
      (if v = 0 then 0 else if n then 256 - v else v,
       if sat then .overflow else if m ≠ 0 ∧ v = 0 then .flush else .none)
    else
      let f := fmtElem c
      let (o, code) := f.round rm r m e
      (f.signed n code, if o then .overflow else if m ≠ 0 ∧ code = 0 then .flush else .none)
  | _ => (0, .none)

/-- A formed block: its scale byte, pleat-offset byte, element codes, and the event of each input. -/
structure Block where
  scale : Nat
  pleats : Nat
  codes : List Nat
  events : List ConvEvent
deriving DecidableEq, Repr

/-- The largest `topExp` of the non-zero values of a list, where there is one. -/
def maxExp : List Fp → Option Int
  | [] => none
  | .fin _ m e :: xs =>
    if m = 0 then maxExp xs
    else match maxExp xs with
      | none => some (topExp m e)
      | some t => some (max t (topExp m e))
  | _ :: xs => maxExp xs

/-- The pleat offset of pleat `p` (R95, step 6). -/
def pleatOffset (s em : Int) (xs : List Fp) (p : Nat) : Nat :=
  match maxExp ((xs.drop (8 * p)).take 8) with
  | none => 0
  | some t => (min 3 (max 0 (s + em - t))).toNat

/-- A padding element encodes +0 and counts no event; `none` stands for it (R80). -/
def formBlock (c : Nat) (cv : Conv) (rnd : Nat → Nat) (inputs : List (Option Fp)) : Block :=
  let raw := inputs.map (fun o => o.getD (.fin false 0 0))
  let nanEv := inputs.map (fun o => match o with
    | some .nan => ConvEvent.nan
    | _ => .none)
  let anyNan := raw.any Fp.isNan && !cv.nanp
  let anyInf := raw.any Fp.isInf && cv.ovf
  if anyNan || anyInf then
    ⟨255, 0, inputs.map (fun _ => 0), inputs.map (fun o => match o with
      | some .nan => .nan
      | some (.inf _) => .overflow
      | _ => .none)⟩
  else
    let xs := raw.map (fun x => match x with
      | .nan => Fp.fin false 0 0
      | .inf n => .fin n (2 ^ 24 - 1) 104
      | y => y)
    match maxExp xs with
    | none => ⟨0, 0, inputs.map (fun _ => 0), nanEv⟩
    | some t =>
      let s := max (-127) (t - emax c)
      let off := fun p => if fmtPleated c then pleatOffset s (emax c) xs p else 0
      let enc := (List.range xs.length).map (fun i =>
        encodeBlockElem c cv.rm (rnd i) ((xs.getD i (.fin false 0 0)).scale (-(s - (off (i / 8) : Nat)))))
      ⟨(s + 127).toNat, off 0 + 4 * off 1 + 16 * off 2 + 64 * off 3, enc.map (·.1),
       (List.range xs.length).map (fun i =>
         match inputs.getD i none with
         | none => ConvEvent.none
         | some .nan => .nan
         | some (.inf _) => .overflow
         | some _ => (enc.getD i (0, .none)).2)⟩

/-! ## Accumulation -/

/-- The result of a block (Table 6.2, R126): NaN, an infinity, or a finite sum. -/
def blockSum (floating : Bool) (prods : List (Fp × Fp)) : Fp :=
  let ps := prods.map (fun p => p.1.mul p.2)
  if ps.any Fp.isNan then .nan
  else if ps.any (fun p => p == .inf false) && ps.any (fun p => p == .inf true) then .nan
  else if ps.any (fun p => p == .inf false) then .inf false
  else if ps.any (fun p => p == .inf true) then .inf true
  else
    let cut := fun (p : Fp) =>
      match floating, maxExp ps, p with
      | true, some q, .fin n m e =>
        if q - 72 ≤ e then p else Fp.fin n (m / 2 ^ (q - 72 - e).toNat) (q - 72)
      | _, _, _ => p
    ps.foldl (fun a p => a.add (cut p)) (.fin false 0 0)

/-- A running value and its SAT and FLUSH flags (R135). -/
structure Acc where
  r : Word
  sat : Bool
  flush : Bool
deriving DecidableEq, Repr

/-- FP32 rounding of an exact finite value in the accumulator: saturation keeps the largest finite value (R130 to
R133). -/
def accRound (rm : RMode) (rnd : Nat) (x : Fp) : Word × Bool × Bool :=
  match x with
  | .fin n m e =>
    if m = 0 then (0, false, false)
    else
      let (o, c) := fFP32.round rm rnd m e
      (BitVec.ofNat 32 (fFP32.signed n c), o, c == 0)
  | .inf n => (BitVec.ofNat 32 (fFP32.signed n fFP32.infCode), false, false)
  | .nan => (0x7FC00000, false, false)

/-- What a special block makes of a running value (R134). -/
def accSpecial (r : Word) (b : Fp) : Word :=
  match f32 r, b with
  | .nan, _ => r
  | _, .nan => 0x7FC00000
  | .inf n, .inf k => if n = k then r else 0x7FC00000
  | .inf _, _ => r
  | _, .inf k => BitVec.ofNat 32 (fFP32.signed k fFP32.infCode)
  | _, _ => r

/-- One block enters a plain running value (R129 to R134): `s` is the block sum, `x` the sum of the scale exponents. -/
def accumulate (rm : RMode) (rnd : Nat) (a : Acc) (s : Fp) (x : Int) : Acc :=
  match s with
  | .fin _ m _ =>
    if m = 0 then a
    else match f32 a.r with
      | .fin _ _ _ =>
        let (w, o, z) := accRound rm rnd ((f32 a.r).add (s.scale x))
        ⟨w, a.sat || o, a.flush || z⟩
      | _ => a
  | b => { a with r := accSpecial a.r b }

/-- A finite sum that meets an error term that is not finite is resolved first (R140). -/
def pairResolve (s e : Word) : Word × Word :=
  match f32 s, f32 e with
  | .fin _ _ _, .nan => (0x7FC00000, 0)
  | .fin _ _ _, .inf n => (BitVec.ofNat 32 (fFP32.signed n fFP32.infCode), 0)
  | _, _ => (s, e)

/-- Does a rounding mode draw (R136)? -/
def RMode.draws : RMode → Bool
  | .st8 => true
  | .st16 => true
  | _ => false

/-- Does a block's addition to a running value round, so that a stochastic mode draws for it (R131, R134, R138)? -/
def Acc.rounds (a : Acc) (s : Fp) : Bool :=
  match s, f32 a.r with
  | .fin _ m _, .fin _ _ _ => m != 0
  | _, _ => false

/-- One block enters a paired running value: the sum, the error term and the flags of the sum (R140). A finite block that meets
an infinite or NaN sum leaves the error term as it is (DESIGN CHOICE, log entry 64). -/
def accumulatePair (rm : RMode) (rnd : Nat) (a : Acc) (e : Word) (s : Fp) (x : Int) : Acc × Word :=
  let (r0, e0) := pairResolve a.r e
  match s with
  | .fin _ m _ =>
    if m = 0 then ({ a with r := r0 }, e0)
    else match f32 r0 with
      | .fin _ _ _ =>
        let v := ((f32 r0).add (f32 e0)).add (s.scale x)
        let (w, o, z) := accRound rm rnd v
        let rest := v.add (f32 w).neg
        (⟨w, a.sat || o, a.flush || z⟩, if o || (f32 w).isZero || rest.isZero then 0 else toF32 rest)
      | _ => ({ a with r := r0 }, e0)
  | b => ({ a with r := accSpecial r0 b }, 0)

/-- The FP32 value of a paired element, and whether its rounding overflowed (R141). Of an exact zero the sign is that of IEEE
addition: −0 where both are −0, else +0 (DESIGN CHOICE, log entry 64). -/
def pairValue (s e : Word) : Word × Bool :=
  match f32 s, f32 e with
  | .fin _ _ _, .fin _ _ _ =>
    match (f32 s).add (f32 e) with
    | .fin n m g =>
      let (o, c) := fFP32.round .rne 0 m g
      (BitVec.ofNat 32 (fFP32.signed n c), o)
    | _ => (s, false)
  | .fin _ _ _, .nan => (0x7FC00000, false)
  | .fin _ _ _, .inf n => (BitVec.ofNat 32 (fFP32.signed n fFP32.infCode), false)
  | _, _ => (s, false)

/-- The event a drained element counts (R143): the value, its product with SCALE, its flags and the encode's event. -/
def drainEvent (v prod : Word) (a : Acc) (satVal : Bool) (prodOvf : Bool) (enc : ConvEvent) : ConvEvent :=
  if (f32 v).isNan || (f32 prod).isNan then .nan
  else if a.sat || satVal || (f32 v).isInf || prodOvf || enc = .overflow then .overflow
  else if a.flush || (!(f32 v).isZero && (f32 prod).isZero) || enc = .flush then .flush
  else .none

/-! ## Reductions (Table 10.5) -/

/-- One element of a reduction, of `w` bytes. -/
def reduceElem (code : Nat) (old new : Nat) : Nat :=
  match code with
  | 0x1 => (toF32 ((f32 (BitVec.ofNat 32 old)).add (f32 (BitVec.ofNat 32 new)))).toNat
  | 0x2 => fBF16.ieee .rne ((fBF16.decode old).add (fBF16.decode new))
  | 0x3 => (old + new) % 2 ^ 32
  | 0x4 => (old + new) % 2 ^ 64
  | 0x5 => (minMax true (BitVec.ofNat 32 old) (BitVec.ofNat 32 new)).toNat
  | 0x6 => (minMax false (BitVec.ofNat 32 old) (BitVec.ofNat 32 new)).toNat
  | _ => old

/-- The element width of a reduction in bytes. -/
def reduceWidth (code : Nat) : Nat := if code = 0x2 then 2 else if code = 0x4 then 8 else 4

/-- Is the reduction code one of Table 10.5? -/
def reduceValid (code : Nat) : Bool := decide (1 ≤ code ∧ code ≤ 6)

end Sys2Proof.Machine
end

