-- ==== Sys2Proof/Machine/Network.lean ====
section
/-! DEFINITION. Dowel links, routes, darning, fences and the bandwidth regulators (spec/14). -/

namespace Sys2Proof.Machine

/-! ## Dies and routes -/

/-- The ends of dowel link `k` (Table 1.3), dies numbered 0 to 5 for L0 to L5 and 6 to 9 for X0 to X3 (R311). -/
def dowelEnds (k : Nat) : Nat × Nat :=
  match k with
  | 0 => (0, 1)
  | 1 => (1, 2)
  | 2 => (3, 4)
  | 3 => (4, 5)
  | 4 => (0, 3)
  | 5 => (1, 4)
  | 6 => (2, 5)
  | 7 => (7, 3)
  | 8 => (6, 0)
  | 9 => (9, 5)
  | _ => (8, 2)

/-- Does link `k` exist on this order code (R17)? -/
def State.dowelPresent (s : State) (k : Nat) : Bool :=
  decide (k < 11) &&
    (match k with
     | 7 => bitOf s.fuses.xMask 1
     | 9 => bitOf s.fuses.xMask 3
     | _ => true)

/-- The lining die that an I/O die stands at. -/
def liningOf (d : Nat) : Nat :=
  match d with
  | 6 => 0
  | 7 => 3
  | 8 => 2
  | 9 => 5
  | k => k

/-- The link of an I/O die. -/
def ioLink (d : Nat) : Nat :=
  match d with
  | 6 => 8
  | 7 => 7
  | 8 => 10
  | _ => 9

/-- The first link of the primary route from die `a` to die `b` (R314). -/
def primaryHop (a b : Nat) : Nat :=
  if 6 ≤ a then ioLink a
  else
    let t := liningOf b
    if a = t then ioLink b
    else if a % 3 < t % 3 then (if a < 3 then a % 3 else 2 + a % 3)
    else if t % 3 < a % 3 then (if a < 3 then a % 3 - 1 else 1 + a % 3)
    else 4 + a % 3

/-- The lowest fenced link, where there is one (R328). -/
def State.lowestFence (s : State) : Option Nat := (List.range 11).find? (fun k => s.rb Reg.NET_STATUS (2 + k))

/-- The link taken from `a` towards `b`, as the tables in force say; 15 for no route (R328). -/
def State.nextHop (s : State) (a b : Nat) : Nat :=
  match s.lowestFence with
  | some k =>
    if bitOf (s.ptn.running.fld 6 2 2) k then s.ptn.running.fld 6 (0x40 + 128 * k + 10 * a + b) 1 % 16
    else primaryHop a b
  | none => primaryHop a b

/-- The other end of a link. -/
def otherEnd (k a : Nat) : Nat := if (dowelEnds k).1 = a then (dowelEnds k).2 else (dowelEnds k).1

/-- The direction of a link taken from die `a` (R313), as `2 × link + DIR`. -/
def dirFrom (k a : Nat) : Nat := 2 * k + (if (dowelEnds k).1 = a then 0 else 1)

/-- The directions a packet from `a` to `b` takes by the tables; none when its next link is fenced, absent or 0xF (R328). -/
def State.tableWay (s : State) (a b : Nat) : Nat → Option (List Nat)
  | 0 => none
  | n + 1 =>
    if a = b then some []
    else
      let k := s.nextHop a b
      if !s.dowelPresent k || s.rb Reg.NET_STATUS (2 + k) then none
      else (s.tableWay (otherEnd k a) b n).map (fun r => dirFrom k a :: r)

/-- The directions that a packet without a route takes before the router at which it fails (R328). -/
def State.tableFront (s : State) (a b : Nat) : Nat → List Nat
  | 0 => []
  | n + 1 =>
    let k := s.nextHop a b
    if a = b ∨ !s.dowelPresent k ∨ s.rb Reg.NET_STATUS (2 + k) then []
    else dirFrom k a :: s.tableFront (otherEnd k a) b n

/-- The ways from die `a` to die `b` over some links that meet no die twice, no die out of service and no link out of service;
`seen` are the dies behind. -/
def State.waysPast (s : State) (links : Nat → Bool) (b : Nat) : Nat → List Nat → Nat → List (List Nat)
  | 0, _, _ => []
  | n + 1, seen, a =>
    if s.brup.outDies.contains a then []
    else if a = b then [[]]
    else ((List.range 11).map (fun l =>
      let c := otherEnd l a
      if ((dowelEnds l).1 = a ∨ (dowelEnds l).2 = a) ∧ links l ∧ s.dowelPresent l ∧ !s.rb Reg.NET_STATUS (2 + l) ∧
          !seen.contains c then
        (s.waysPast links b n (a :: seen) c).map (fun r => dirFrom l a :: r)
      else [])).flatten

/-- The bypass route from die `a` to die `b` that is firmware's free choice among the ways past the dies out of service (R470). -/
def State.freeWay (s : State) (a b : Nat) : Option (List Nat) :=
  let ws := s.waysPast (fun _ => true) b 11 [] a
  ws[Config.bypass s.brup.outDies a b % max 1 ws.length]?

/-- Link dependencies but those of a direction that none leads to. -/
def pruneDeps (es : List (Nat × Nat)) : List (Nat × Nat) := es.filter (fun e => es.any (fun f => f.2 == e.1))

/-- Do some routes form no cycle of link dependencies (R470)? -/
def acyclicWays (ws : List (List Nat)) : Bool :=
  ((List.range 22).foldl (fun es _ => pruneDeps es) ((ws.map (fun w => w.zip w.tail)).flatten.eraseDups)).isEmpty

/-- Does firmware's free choice for every two dies form no cycle of link dependencies (R470)? -/
def State.freeWaysServe (s : State) : Bool :=
  acyclicWays ((List.range 10).map (fun a => (List.range 10).filterMap (fun b => s.freeWay a b))).flatten

/-- Links that join the dies in service without a loop: each in turn, where no chosen one joins its ends already. -/
def State.treeLinks (s : State) : List Nat :=
  (List.range 11).foldl (fun ls l =>
    if (s.waysPast ls.contains (dowelEnds l).2 11 [] (dowelEnds l).1).isEmpty then ls ++ [l] else ls) []

/-- The route in force: by the tables, or, while a stack reset keeps a die out of service, a bypass route. Which ways past the die
firmware computes is free where they form no cycle of link dependencies; where the free choice would form one, they are the ways
without a loop (R328, R470 to R472; DESIGN CHOICE, log entry 42). -/
def State.route (s : State) (a b n : Nat) : Option (List Nat) :=
  if s.brup.outDies.isEmpty then s.tableWay a b n
  else if s.freeWaysServe then s.freeWay a b
  else (s.waysPast s.treeLinks.contains b 11 [] a).head?

/-- The width of a direction in eighths (R313); 0 when its link is fenced. -/
def State.width (s : State) (d : Nat) : Nat :=
  if s.rb Reg.NET_STATUS (2 + d / 2) then 0 else 8 - (s.dowel d).dropped.length

/-- A packet of class `cls` with `bytes` of payload passes over some directions of links (Table 14.15). -/
def State.carryOver (s : State) (dirs : List Nat) (cls bytes : Nat) : State :=
  dirs.foldl (fun u d =>
    u.rAdd64 (bank Reg.NET_CLBYTES (d / 2 + 16 * (d % 2) + 32 * cls)) (Config.headBytes cls + bytes)) s

/-- A packet of class `cls` with `bytes` of payload crosses from `a` to `b`: false when a router finds no route, which
sets NET.EVT.ROUTE_FAIL; the links behind that router have carried it (R328). -/
def State.carry (s : State) (a b cls bytes : Nat) : Bool × State :=
  match s.route a b 11 with
  | none => (false, (s.carryOver (if s.brup.outDies.isEmpty then s.tableFront a b 11 else []) cls bytes).evSet Reg.NET_EVT 4)
  | some r => (true, s.carryOver r cls bytes)

/-- A packet that nothing answers for: without a route it is gone. -/
def State.cast (s : State) (a b cls bytes : Nat) : State := (s.carry a b cls bytes).2

/-- A multicast from `a`: it branches at the routers, so a link that several of its routes share carries it once (R314). -/
def State.multicast (s : State) (a : Nat) (bs : List Nat) (cls bytes : Nat) : State :=
  s.carryOver ((bs.map (fun b => (s.route a b 11).getD [])).flatten.eraseDups) cls bytes

/-- The lining die beneath a logical core (R15). -/
def State.coreDie (s : State) (c : Nat) : Nat := s.ptn.running.physCore c / 12

/-- The router of an agent (Table 14.4). -/
def State.agentDie (s : State) : Agent → Nat
  | .core g => s.coreDie g.core.val
  | .jig ch => ch.val / 32
  | .host p => if p.val = 0 then 6 else 8
  | .remote d => 6 + d.val
  | .mirror => 9
  | .device => 6

/-- The master id of an agent (Table 14.4). -/
def masterId : Agent → Nat
  | .core g => g.core.val
  | .jig ch => 0x40 + ch.val / 32
  | .host p => 0x4A + p.val
  | .remote d => 0x4C + d.val
  | .mirror => 0x50
  | .device => 0x100

/-- The router of a master id. -/
def State.masterDie (s : State) (m : Nat) : Nat :=
  if m < 0x40 then s.coreDie m
  else if m < 0x4A then m - 0x40
  else if m = 0x4A then 6
  else if m = 0x4B then 8
  else if m < 0x50 then 6 + (m - 0x4C)
  else 9

/-- The die of a regulator point (R329). -/
def pointDie (p : Nat) : Nat := if p < 12 then p / 2 else p - 12

/-! ## Regulators -/

/-- Offset of regulator entry `i` (Table 14.5). -/
def regEnt (i : Nat) : Nat := 64 + 16 * i

/-- WINDOW of the running pattern, in µs. -/
def Pat.regWindow (t : Pat) : Nat := t.fld 5 0 4

/-- URG_BYPASS. -/
def Pat.urgBypass (t : Pat) : Nat := t.fld 5 4 1

/-- Is entry `i` valid? -/
def Pat.regValid (t : Pat) (i : Nat) : Bool := t.fld 5 (regEnt i) 1 % 2 == 1

/-- PARTITION of an entry. -/
def Pat.regPart (t : Pat) (i : Nat) : Nat := t.fld 5 (regEnt i + 1) 1 % 16

/-- MASTER of an entry. -/
def Pat.regMaster (t : Pat) (i : Nat) : Nat := t.fld 5 (regEnt i + 2) 1

/-- POINTS of an entry. -/
def Pat.regPoints (t : Pat) (i : Nat) : Nat := t.fld 5 (regEnt i + 4) 4

/-- LIMIT of an entry. -/
def Pat.regLimit (t : Pat) (i : Nat) : Nat := t.fld 5 (regEnt i + 8) 4

/-- GUAR of an entry. -/
def Pat.regGuar (t : Pat) (i : Nat) : Nat := t.fld 5 (regEnt i + 12) 4

/-- The entry that meters a master for a partition at a point. -/
def Pat.regFind (t : Pat) (part master point : Nat) : Option Nat :=
  (List.range 512).find? (fun i => t.regValid i && t.regPart i == part && t.regMaster i == master &&
    bitOf (t.regPoints i) point)

/-- The narrowest width, in either direction, on the route between a master and a point (R335); 0 without a route. -/
def State.routeWidth (s : State) (a b : Nat) : Nat :=
  match s.route a b 11 with
  | none => 0
  | some r => r.foldl (fun w d => min w (min (s.width d) (s.width (2 * (d / 2) + (1 - d % 2))))) 8

/-- The effective LIMIT of an entry at a point (R335). -/
def State.limitEff (s : State) (i p : Nat) : Nat :=
  s.ptn.running.regLimit i * s.routeWidth (s.masterDie (s.ptn.running.regMaster i)) (pointDie p) / 8

/-- The effective GUAR of an entry at a point (R335). -/
def State.guarEff (s : State) (i p : Nat) : Nat :=
  s.ptn.running.regGuar i * s.routeWidth (s.masterDie (s.ptn.running.regMaster i)) (pointDie p) / 8

/-- The selection of ESEL that shows an entry at a point. -/
def regKey (i p : Nat) : Nat := i + 512 * p

/-- An entry's record at a point: a fresh one has its whole effective LIMIT. -/
def State.regul (s : State) (i p : Nat) : Regul :=
  (mfind s.net.regs (regKey i p)).getD { allow := s.limitEff i p }

/-- An entry's record at a point set. -/
def State.regulSet (s : State) (i p : Nat) (v : Regul) : State :=
  { s with net := { s.net with regs := mput s.net.regs (regKey i p) v } }

/-- The urgency of a buffer filled to `n` of `size` (R334). -/
def fillUrgency (n size : Nat) : Nat :=
  if 8 * n < 4 * size then 0 else if 8 * n < 6 * size then 1 else if 8 * n < 7 * size then 2 else 3

/-- The urgency that a master drives with its requests; only a real-time master does (R334). -/
def State.urgencyOf (s : State) (master : Nat) : Nat := if master < 0x4A then 0 else mget s.net.urg master 0

/-- A master's urgency set. -/
def State.urge (s : State) (master urgency : Nat) : State :=
  { s with net := { s.net with urg := mset s.net.urg master urgency 0 } }

/-- The entry that meters a master at a point for the partition of a request, if it has one (R329, R331). -/
def State.entryOf (s : State) (part : Option Nat) (master point : Nat) : Option Nat :=
  part.bind (fun p => s.ptn.running.regFind p master point)

/-- Does the regulator of a point defer a request now: its allowance is used up, and its urgency does not pass it (R332,
R334)? -/
def State.defers (s : State) (part : Option Nat) (master point : Nat) : Bool :=
  match s.entryOf part master point with
  | none => false
  | some i =>
    s.ptn.running.regLimit i != 0 && decide ((s.regul i point).allow ≤ 0) &&
      !(decide (0x4A ≤ master) && decide (s.ptn.running.urgBypass ≤ s.urgencyOf master))

/-- The regulator of a point has deferred a request (R332). -/
def State.regDefer (s : State) (part : Option Nat) (master point : Nat) : State :=
  match s.entryOf part master point with
  | none => s
  | some i => s.regulSet i point { s.regul i point with deferred := true }

/-- Does a request of an entry wait at a point (R333)? -/
def State.regWaits (s : State) (i point : Nat) : Bool := s.lin.tickets.any (fun t => t.holds.contains (i, point))

/-- A request of `bytes` passes a point: its bytes are deducted, and one that only its urgency lets pass is counted (R332, R334,
Table 14.26). -/
def State.charge (s : State) (part : Option Nat) (master point bytes : Nat) : State :=
  match s.entryOf part master point with
  | none => s
  | some i =>
    let r := s.regul i point
    let limited := s.ptn.running.regLimit i != 0
    let u := s.regulSet i point { r with
      allow := if limited then r.allow - bytes else r.allow, served := r.served + bytes }
    if limited && decide (r.allow ≤ 0) && decide (0x4A ≤ master) && decide (s.ptn.running.urgBypass ≤ s.urgencyOf master) then
      u.rAdd (bank Reg.BWREG_EURG (regKey i point)) 31 0 1
    else u

/-- A guarantee miss of an entry at a point (R336). -/
def State.guarMiss (s : State) (i p : Nat) : State :=
  let n := s.ptn.running.regPart i
  let s := (s.rAdd (Reg.BWREG_MISS + 4 * n) 31 0 1).rAdd (bank Reg.BWREG_ESTAT2 (regKey i p)) 15 0 1
  if s.rf Reg.BWREG_MODE 1 0 = 0 then s
  else
    let s := if s.rf Reg.BWREG_MISS_PEND 15 0 = 0 then s.rgSet Reg.BWREG_MISS_FIRST (BitVec.ofNat 32 (i + 512 * p)) else s
    (s.evSet Reg.BWREG_MISS_PEND n).raise 141

/-- The end of an entry's window at a point: a guarantee missed, and a window with deferrals (R333, R336). -/
def State.regEnd (s : State) (i p : Nat) : State :=
  let r := s.regul i p
  let s := if s.regWaits i p && decide (r.served < s.guarEff i p) then s.guarMiss i p else s
  if r.deferred then s.rAdd (bank Reg.BWREG_ESTAT2 (regKey i p)) 31 16 1 else s

/-- The allowance of an entry's next window at a point: the effective LIMIT less the debt (R332). -/
def State.regBegin (s : State) (i p : Nat) : State :=
  let r := s.regul i p
  let lim : Int := s.limitEff i p
  let debt : Int := if r.allow < 0 then min lim (-r.allow) else 0
  s.regulSet i p { allow := lim - debt, served := 0, deferred := false }

/-- Something done for each entry at each of its points. -/
def State.eachEntry (s : State) (f : State → Nat → Nat → State) : State :=
  let t := s.ptn.running
  (List.range 512).foldl (fun u i =>
    if t.regValid i then (setBits (t.regPoints i) 18).foldl (fun v p => f v i p) u else u) s

/-- The window of every entry begins (R332). -/
def State.windowBegin (s : State) : State :=
  let u := s.eachEntry State.regBegin
  { u with net := { u.net with windowAt := u.now } }

/-- A window ends everywhere and the next begins (R332). -/
def State.regWindow (s : State) : State := (s.eachEntry State.regEnd).windowBegin

/-- The allowances of the window that has begun follow effective LIMITs that a commit has changed; `old` is the state before it
(R332, R335). -/
def State.regAdjust (s old : State) : State :=
  { s with net := { s.net with regs := s.net.regs.map (fun e =>
      let lim : Int := s.limitEff (e.1 % 512) (e.1 / 512)
      (e.1, { e.2 with allow := e.2.allow + (lim - old.limitEff (e.1 % 512) (e.1 / 512)) })) } }

/-- Allowances and debt restart (R337). -/
def State.regRestart (s : State) : State := { s with net := { s.net with regs := [] } }

/-! ## Lanes -/

/-- Spares used in a group of a direction. -/
def Dowel.used (d : Dowel) (g : Nat) : Nat := (d.darned.filter (fun l => l / 68 == g)).length

/-- Is a lane in service: a data lane not yet replaced, or a spare in use, of a group not dropped? -/
def Dowel.live (d : Dowel) (l : Nat) : Bool :=
  !d.dropped.contains (l / 68) && !d.darned.contains l && (decide (l % 68 < 64) || decide (l % 68 - 64 < d.used (l / 68)))

/-- A lane darned, where its group has a spare left (R321); firmware records it in NOR (R324). -/
def State.darnLane (s : State) (dir l : Nat) : State :=
  let d := s.dowel dir
  if d.live l && decide (d.used (l / 68) < 4) then
    let s := s.dowelSet dir { d with darned := d.darned ++ [l], waiting := d.waiting.filter (· != l) }
    let s := { s with nor := { s.nor with darns := s.nor.darns ++ [544 * dir + l] } }
    s.evSet Reg.NET_EVT 0
  else s

/-- A group dropped: one eighth of the width is lost (R322). -/
def State.dropGroup (s : State) (dir g : Nat) : State :=
  let d := s.dowel dir
  if d.dropped.contains g then s
  else
    let s := s.dowelSet dir { d with dropped := d.dropped ++ [g], waiting := d.waiting.filter (fun l => l / 68 != g) }
    let s := { s with nor := { s.nor with drops := s.nor.drops ++ [8 * dir + g] } }
    let s := s.err eLinkDown (unitId 7 (dir / 2 + 16 * (dir % 2))) none 0 (8 - (s.dowel dir).dropped.length)
    (s.evSet Reg.NET_EVT 1).raise 138

/-- A link fenced: both directions leave service until bring-up after a module reset (R323). -/
def State.fenceLink (s : State) (dir : Nat) : State :=
  let k := dir / 2
  if s.rb Reg.NET_STATUS (2 + k) then s
  else
    let s := (s.rbSet Reg.NET_STATUS (2 + k) true).rbSet Reg.NET_STATUS 0 true
    let s := { s with nor := { s.nor with fences := s.nor.fences ++ [k] } }
    let s := s.err eLinkDown (unitId 7 (k + 16 * (dir % 2))) none 0 0
    (s.evSet Reg.NET_EVT 2).raise 138

/-- Numbers of lanes 68 × group + lane in rising order. -/
def insertSorted (x : Nat) : List Nat → List Nat
  | [] => [x]
  | y :: ys => if x ≤ y then x :: y :: ys else y :: insertSorted x ys

/-- A list in rising order. -/
def sortNat (xs : List Nat) : List Nat := xs.foldl (fun a x => insertSorted x a) []

/-- Every lane of some directions that waits is darned where a spare is left (R321). -/
def State.darnDirs (s : State) (dirs : List Nat) : State :=
  dirs.foldl (fun u d => (sortNat (u.dowel d).waiting).foldl (fun v l => v.darnLane d l) u) s

/-- Every lane that waits is darned where a spare is left (R321). -/
def State.darnLanes (s : State) : State := s.darnDirs (List.range 22)

/-- Darns, then drops, then fences, each judged against what the earlier ones leave (R325). -/
def State.serviceLanes (s : State) : State :=
  let dirs := List.range 22
  let s := s.darnLanes
  let s := dirs.foldl (fun u d => (sortNat (u.dowel d).waiting).foldl (fun v l =>
    if (v.dowel d).live l then v.dropGroup d (l / 68) else v) u) s
  let s := dirs.foldl (fun u d => u.dowelSet d { u.dowel d with waiting := [] }) s
  dirs.foldl (fun u d => if (u.dowel d).dropped.length > 4 then u.fenceLink d else u) s

/-- A lane fails: it is darned at the next base boundary, or at once before READY (R320, R321); its group is dropped, and its link
fenced, at a base boundary only (R322, R323). -/
def State.laneFail (s : State) (dir l : Nat) : State :=
  let d := s.dowel dir
  if !s.dowelPresent (dir / 2) || s.rb Reg.NET_STATUS (2 + dir / 2) || !d.live l || d.waiting.contains l then s
  else
    let s := s.dowelSet dir { d with waiting := d.waiting ++ [l] }
    if s.tick.en then s else s.darnLanes

/-- LANE_ERROR_WINDOW_END: the count of a lane's window is judged, and the worst lane of the window is shown; a LIMIT of 0 counts
no errors (R320, Table 14.13). -/
def execLaneErrorWindowEnd (link : Fin 11) (dir : Fin 2) (group : Fin 8) (lane : Fin 68) (errors : Nat) (s : State) : Res :=
  let d := 2 * link.val + dir.val
  let key := bank Reg.NET_WORST (link.val + 16 * dir.val)
  let win := s.now / (1000000 * max 1 (s.rf Reg.NET_DARN_CFG 23 16)) + 1
  let lim := s.rf Reg.NET_DARN_CFG 15 0
  let counts := decide (lim ≠ 0) && s.dowelPresent link.val && !s.rb Reg.NET_STATUS (2 + link.val)
  let s := if counts && (decide ((s.dowel d).worstAt ≠ win) || decide (s.rf key 31 16 < errors)) then
      (s.dowelSet d { s.dowel d with worstAt := win }).rgSet key
        (BitVec.ofNat 32 (lane.val % 64 + 64 * group.val + 2 ^ 16 * min errors 0xFFFF))
    else s
  .next (if counts && decide (lim ≤ errors) then s.laneFail d (68 * group.val + lane.val) else s)

/-- LANE_LOCK_LOSS: a lane that loses lock fails (R320). -/
def execLaneLockLoss (link : Fin 11) (dir : Fin 2) (group : Fin 8) (lane : Fin 68) (s : State) : Res :=
  .next (s.laneFail (2 * link.val + dir.val) (68 * group.val + lane.val))

/-- The darn map of NOR applied before dowel traffic starts (R324, R459). -/
def State.applyDarnMap (s : State) : State :=
  let s := s.nor.darns.foldl (fun u x =>
    let d := u.dowel (x / 544)
    if d.darned.contains (x % 544) then u else u.dowelSet (x / 544) { d with darned := d.darned ++ [x % 544] }) s
  let s := s.nor.drops.foldl (fun u x =>
    let d := u.dowel (x / 8)
    if d.dropped.contains (x % 8) then u else u.dowelSet (x / 8) { d with dropped := d.dropped ++ [x % 8] }) s
  s.nor.fences.foldl (fun u k => (u.rbSet Reg.NET_STATUS (2 + k) true).rbSet Reg.NET_STATUS 0 true) s

end Sys2Proof.Machine
end

