-- ==== Sys2Proof/Machine/Hbm.lean ====
section
/-! DEFINITION. HBM: spans and the interleave, sectors and their metadata, keys, condemnation, stack temperature
(spec/11, R450 to R452). -/

namespace Sys2Proof.Machine

/-! ## Addresses -/

/-- Is stack `m` fitted? -/
def State.fitted (s : State) (m : Nat) : Bool := bitOf s.fuses.stackMask m

/-- Bit `n` of a mask held in registers of 32 bits from `base` on. -/
def State.maskBit (s : State) (base n : Nat) : Bool := s.rb (base + 4 * (n / 32)) (n % 32)

/-- A pseudo-channel that serves: fitted and not mapped out. -/
def State.pchLive (s : State) (n : Nat) : Bool := s.fitted (n / 64) && !s.maskBit Reg.HBM_MAPPED n

/-- The current HBM capacity in GiB (R253). -/
def State.capacity (s : State) : Nat := ((List.range 768).filter s.pchLive).length

/-- Logical numbers in the order of the key 12q + m (R254). -/
def pchOrder : List Nat := (List.range 768).map (fun k => 64 * (k % 12) + k / 12)

/-- The interleave set of a partition (R254). -/
def State.interleave (s : State) (p : Nat) : List Nat :=
  let m := s.ptn.running.pchMask p
  pchOrder.filter (fun n => bitOf m n && s.pchLive n)

/-- The idle set (R483). -/
def State.idleSet (s : State) : List Nat :=
  pchOrder.filter (fun n => s.pchLive n && (s.ptn.running.pchOwner n).isNone)

/-- The first address of a partition's span. -/
def State.spanLo (s : State) (p : Nat) : Nat := s.ptn.running.spanBase p * 2 ^ 30

/-- The length of a partition's span in bytes. -/
def State.spanLen (s : State) (p : Nat) : Nat := (s.interleave p).length * 2 ^ 30

/-- Does the span of `Pp` hold the address? -/
def State.inSpan (s : State) (p a : Nat) : Bool := decide (s.spanLo p ≤ a ∧ a < s.spanLo p + s.spanLen p)

/-- The partition whose span holds the address. -/
def State.spanOwner (s : State) (a : Nat) : Option Nat := s.ptn.running.enabledParts.find? (fun p => s.inSpan p a)

/-- The procedure of R254: pseudo-channel and offset of distance `d` in an interleave set. -/
def interleaveAt (pchs : List Nat) (d : Nat) : Nat × Nat :=
  let g := d / 2048
  (pchs.getD (g % pchs.length) 0, g / pchs.length * 2048 + d % 2048)

/-- Idle-span bytes below an address (R483). -/
def State.idleBelow (s : State) (a : Nat) : Nat :=
  a - (s.ptn.running.enabledParts.map (fun p => min (s.spanLo p + s.spanLen p) a - min (s.spanLo p) a)).sum

/-- The pseudo-channel and offset of an HBM address below the capacity (R254, R483). -/
def State.hbmPlace (s : State) (a : Nat) : Nat × Nat :=
  match s.spanOwner a with
  | some p => interleaveAt (s.interleave p) (a - s.spanLo p)
  | none => interleaveAt s.idleSet (s.idleBelow a)

/-! ## Regions of HBM_PLAN -/

/-- Offset of region entry `i` (Table 11.7). -/
def hbmReg (i : Nat) : Nat := 576 + 32 * i

/-- The first valid entry of `Pp` that contains the address. -/
def State.hbmRegion (s : State) (p a : Nat) : Option Nat :=
  let t := s.ptn.running
  (List.range 256).find? (fun i =>
    t.fld 4 (hbmReg i) 1 % 2 == 1 && t.fld 4 (hbmReg i + 1) 1 % 16 == p &&
      (let lo := s.spanLo p + t.fld 4 (hbmReg i + 8) 8
       decide (lo ≤ a ∧ a < lo + t.fld 4 (hbmReg i + 16) 8)))

/-- CLASS and TAG of an address (R258, R483): CLASS_W is 0. -/
def State.classTag (s : State) (a : Nat) : Nat × Nat :=
  let t := s.ptn.running
  match s.spanOwner a with
  | none => (0, 0)
  | some p =>
    match s.hbmRegion p a with
    | some i => (bitsOf (t.fld 4 (hbmReg i) 1) 1 1, bitsOf (t.fld 4 (hbmReg i) 1) 3 2)
    | none => (bitsOf (t.fld 4 (64 + 32 * p + 2) 1) 0 0, bitsOf (t.fld 4 (64 + 32 * p + 2) 1) 2 1)

/-- The tally entry and block of an address: the address of the entry, or none without a side car (R262). -/
def State.tallyEntry (s : State) (a : Nat) : Option Nat :=
  let t := s.ptn.running
  match s.spanOwner a with
  | none => none
  | some p =>
    match s.hbmRegion p a with
    | none => none
    | some i =>
      let side := t.fld 4 (hbmReg i + 24) 8
      if side = 0 then none
      else some (side + 8 * ((a / 4096 * 4096 - (s.spanLo p + t.fld 4 (hbmReg i + 8) 8)) / 4096))

/-! ## Keys -/

/-- The generation of the key that serves an address: the owner's slot, or the module key (R450); 0 for an EMPTY slot. -/
def State.keyGen (s : State) (a : Nat) : Nat :=
  match s.spanOwner a with
  | some p => mget s.esc.keys (s.ptn.running.keySlot p) 0
  | none => s.esc.moduleKey

/-! ## Sectors -/

/-- The key of a sector. -/
def hsecKey (pch off : Nat) : Nat := pch * 2 ^ 25 + off / 32

/-- A byte of a sector: what was written under the key in force, else a free value (R452). -/
def State.hbmByte (s : State) (gen k i : Nat) : Byte :=
  match mfind s.hbm.secs k with
  | some x =>
    if x.gen = gen then mget s.hbm.data (32 * k + i) (Config.hbmByte (gen + 2 ^ 32 * s.hbm.undef) (32 * k + i))
    else Config.hbmByte (gen + 2 ^ 32 * s.hbm.undef) (32 * k + i)
  | none => Config.hbmByte (gen + 2 ^ 32 * s.hbm.undef) (32 * k + i)

/-- The 32 bytes of the sector that holds an address, under a key generation. -/
def State.hbmBytesUnder (s : State) (gen a : Nat) : List Byte :=
  let (pch, off) := s.hbmPlace a
  (List.range 32).map (s.hbmByte gen (hsecKey pch off))

/-- The 32 bytes of the sector that holds an address. -/
def State.hbmBytes (s : State) (a : Nat) : List Byte := s.hbmBytesUnder (s.keyGen a) a

/-- The 24 low metadata bits of a class: CLASS_A has zero above its CRC (Table 11.2). -/
def metaBits (cls : Nat) (v : BitVec 24) : BitVec 24 := if cls = 1 then BitVec.ofNat 24 (v.toNat % 2 ^ 16) else v

/-- The metadata of a sector as 32 bits (Table 11.2). -/
def HSec.word (x : HSec) : Nat := x.code.toNat + 2 ^ 31 * b2n x.poison

/-- The key of the sector that holds an address, and the record that a write under a key generation leaves with it (R259). -/
def State.secRecord (s : State) (a gen : Nat) (bs : List Byte) (poison : Bool) : Nat × HSec :=
  let (pch, off) := s.hbmPlace a
  let k := hsecKey pch off
  let cls := (s.classTag a).1
  (k, { poison := poison, gen := gen, code := metaBits cls (Config.sectorMeta cls gen k (bs.take 32)) })

/-- A sector's bytes and record stored. -/
def State.hbmStore (s : State) (k : Nat) (x : HSec) (bs : List Byte) : State :=
  { s with hbm := { s.hbm with data := putCells s.hbm.data (32 * k) (bs.take 32), secs := mput s.hbm.secs k x } }

/-- A whole sector written with its metadata, with or without POISON (R259, R260). -/
def State.hbmWrite (s : State) (a : Nat) (bs : List Byte) (poison : Bool) : State :=
  let (k, x) := s.secRecord a (s.keyGen a) bs poison
  s.hbmStore k x bs

/-- PCH_MASK of every partition without a pseudo-channel (R268). -/
def Pat.dropPch (t : Pat) (n : Nat) : Pat :=
  (List.range 16).foldl (fun t p =>
    if bitOf (t.pchMask p) n then t.fldSet 1 (recOff p + 0x060) 96 (t.pchMask p - 2 ^ n) else t) t

/-- Condemnation of a pseudo-channel (R267, R268): it leaves the staged copy at once, or after a commit that is due. -/
def State.condemn (s : State) (n : Nat) : State :=
  if s.maskBit Reg.HBM_PEND n || s.maskBit Reg.HBM_MAPPED n || !s.fitted (n / 64) then s
  else
    let s := s.rbSet (Reg.HBM_PEND + 4 * (n / 32)) (n % 32) true
    let s := s.logRec eUncorr (unitId 4 n) (s.ptn.running.pchOwner n) 0 0 true
    let s := s.raise 132
    if s.ptn.commitDue then { s with hbm := { s.hbm with fresh := n :: s.hbm.fresh } } else { s with ptn := { s.ptn with
      staged := s.ptn.staged.map (fun t => t.dropPch n), recheck := s.ptn.recheck || s.ptn.phase == .armed } }

/-- A corrected error of a pseudo-channel, and the 1-second window of CE_LIMIT (R259, R267). -/
def State.correctedError (s : State) (n : Nat) : State :=
  let s := s.rSat (bank Reg.HBM_PCH_ERR n) 15 0 1
  let w := mget s.hbm.ce n (s.now, 0)
  let w := if s.now < w.1 + 1000000000 then (w.1, w.2 + 1) else (s.now, 1)
  let s := { s with hbm := { s.hbm with ce := mput s.hbm.ce n w } }
  let lim := s.rf Reg.HBM_CONDEMN_CFG 23 8
  if lim ≠ 0 ∧ lim ≤ w.2 then s.condemn n else s

/-- An uncorrectable sector: record, distinct count, condemnation (R259, R267). `part` is the owner of the address. The syndrome is
the metadata as read: what was written with the sector, or, where an error stands in it or nothing was written, a free value
within Table 11.2. -/
def State.uncorrectable (s : State) (pch off a : Nat) (part : Option Nat) (ecc : Ecc) : State :=
  let k := hsecKey pch off
  let x := mget s.hbm.secs k {}
  let code := if ecc == .clean then x.code else metaBits (s.classTag a).1 (Config.syndrome s.free)
  let s := s.err eUncorr (unitId 5 (pch / 64)) part a ({ x with code := code } : HSec).word
  let s := { s with free := s.free + 1 }
  if s.hbm.bad.contains k then s
  else
    let s := { s with hbm := { s.hbm with bad := k :: s.hbm.bad } }
    let s := s.rSat (bank Reg.HBM_PCH_ERR pch) 23 16 1
    let lim := s.rf Reg.HBM_CONDEMN_CFG 7 0
    if lim ≠ 0 ∧ lim ≤ s.rf (bank Reg.HBM_PCH_ERR pch) 23 16 then s.condemn pch else s

/-- The stack that serves an address. -/
def State.stackOf (s : State) (a : Nat) : Nat := (s.hbmPlace a).1 / 64

/-- Does the stack of an address issue no read and no write (Table 11.5)? -/
def State.stackStopped (s : State) (a : Nat) : Bool := (s.stackSt (s.stackOf a)).st == .stop

/-- Does a new request to the address wait at a stopped stack (R272)? -/
def State.stackHolds (s : State) (a : Nat) : Bool := s.stackStopped a && !(s.stackSt (s.stackOf a)).expired

/-- Does a request of which `t` is known wait at the stopped stack of an address: it has not waited 20 ms, and if none has before,
or if it came before the first that had, it waits on (R272)? -/
def State.stackKeeps (s : State) (a : Nat) (t : Option Ticket) : Bool :=
  match t.bind (·.stop) with
  | some _ => s.stackStopped a && !((t.map (·.late)).getD false)
  | none => s.stackHolds a

/-- A sector read by its controller under a key generation (R259): code, bytes, state. A request that still finds the stack stopped
has waited its time (R272). -/
def State.hbmReadUnder (s : State) (gen a : Nat) (ecc : Ecc) : Nat × List Byte × State :=
  if s.stackStopped a then (eTimeout, [], s)
  else
    let (pch, off) := s.hbmPlace a
    let poison := (mget s.hbm.secs (hsecKey pch off) {}).poison
    let bad := poison || ecc == .uncorrectable || (ecc == .correctable && (s.classTag a).1 == 1)
    if bad then (eUncorr, [], s.uncorrectable pch off a (s.spanOwner a) ecc)
    else (0, s.hbmBytesUnder gen a, if ecc == .correctable then s.correctedError pch else s)

/-- A sector read by its controller. -/
def State.hbmRead (s : State) (a : Nat) (ecc : Ecc) : Nat × List Byte × State := s.hbmReadUnder (s.keyGen a) a ecc

/-- A narrow or whole write in the idle span or past the lining: a partly covered sector is read and merged (R483). -/
def State.hbmMerge (s : State) (a : Nat) (bs : List Byte) (ecc : Ecc) : Nat × State :=
  let lo := a % 32
  if lo = 0 ∧ bs.length = 32 then
    if s.stackStopped a then (eTimeout, s) else (0, s.hbmWrite a bs false)
  else
    let (c, old, s) := s.hbmRead (a - lo) ecc
    if c ≠ 0 then (c, s)
    else (0, s.hbmWrite (a - lo) (old.take lo ++ bs ++ old.drop (lo + bs.length)) false)

/-- The contents of some pseudo-channels become undefined (R269, R452, R483). -/
def State.hbmUndefined (s : State) (pchs : List Nat) : State :=
  { s with hbm := { s.hbm with
      secs := s.hbm.secs.filter (fun e => !pchs.contains (e.1 / 2 ^ 25))
      data := s.hbm.data.filter (fun e => !pchs.contains (e.1 / 2 ^ 30))
      late := s.hbm.late.filter (fun w => !pchs.contains (w.key / 2 ^ 25))
      undef := s.hbm.undef + 1 } }

/-- A sector read or written by its controller under a key generation, and answered. -/
def State.sectorServe (s : State) (gen a : Nat) (write : Option (List Byte)) (ecc : Ecc) : State :=
  match write with
  | none =>
    let (c, bs, u) := s.hbmReadUnder gen a ecc
    u.answer { code := c, data := bs }
  | some bs =>
    let (k, x) := s.secRecord a gen bs false
    if s.stackStopped a then s.answer { code := eTimeout } else (s.hbmStore k x bs).answer {}

/-- The sector accesses at a stack that `sel` picks leave their wait and are served in their order, each under the key in force
when it came (R257, R272, R454). -/
def State.sectorsGo (s : State) (m : Nat) (sel : SectorWait → Bool) : State :=
  let mine := fun (w : SectorWait) => w.stack == m && sel w
  (s.hbm.waits.filter mine).foldl (fun u w => u.sectorServe w.gen w.addr w.write w.ecc)
    { s with hbm := { s.hbm with waits := s.hbm.waits.filter (fun w => !mine w) } }

/-- The write-backs of an earlier mapping that their stacks can take now are written (R235, R272, R328). -/
def State.lateGo (s : State) : State :=
  let goes := fun (w : LateWrite) => (s.stackSt w.stack).st != .stop && (s.route w.die (w.stack / 2) 11).isSome
  (s.hbm.late.filter goes).foldl (fun u w => (u.cast w.die (w.stack / 2) 0 32).hbmStore w.key w.sec w.bytes)
    { s with hbm := { s.hbm with late := s.hbm.late.filter (fun w => !goes w) } }

/-- A stack leaves STOP: what waits at it goes on (R272). -/
def State.stackResumes (s : State) (m : Nat) : State :=
  let off := fun (t : Ticket) => if (t.stop.map (·.1)) = some m then { t with stop := none, late := false } else t
  ({ s with lin := { s.lin with tickets := s.lin.tickets.map off } }.lateGo).sectorsGo m (fun _ => true)

/-- Since when the requests that wait at a stopped stack and have not waited 20 ms do (R272). -/
def State.stopTimes (s : State) (m : Nat) : List Nat :=
  (s.hbm.waits.filter (fun w => w.stack == m)).map (·.since) ++
    s.lin.tickets.filterMap (fun t => match t.stop with
      | some (n, since) => if n = m ∧ !t.late then some since else none
      | none => none)

/-- The first of those times. -/
def State.firstStop (s : State) (m : Nat) : Option Nat :=
  (s.stopTimes m).foldl (fun b t => some (min (b.getD t) t)) none

/-- HBM_SECTOR_ACCESS: a controller reads or writes a sector (R257 to R260, R483). A request to a stopped stack waits. -/
def execHbmSectorAccess (addr : BitVec 48) (part : Option (Fin 16)) (write : Option (List Byte)) (ecc : Ecc) (s : State) :
    Res :=
  let a := addr.toNat / 32 * 32
  let p := part.map (fun k => k.val)
  .next (if a ≥ s.capacity * 2 ^ 30 then s.answer { code := eBounds }
    else if decide (p ≠ s.spanOwner a) && p.isSome then s.answer { code := ePerm }
    else if s.spanOwner a ≠ none ∧ s.keyGen a = 0 then s.answer { code := ePerm }
    else if s.stackHolds a then
      { s with hbm := { s.hbm with waits := s.hbm.waits ++ [⟨a, write, ecc, s.stackOf a, s.now, s.keyGen a⟩] } }
    else s.sectorServe (s.keyGen a) a write ecc)

/-- An address of a pseudo-channel's sector: the inverse of the interleave, for the records of patrol. -/
def State.addrOf (s : State) (n off : Nat) : Nat :=
  let inv := fun (xs : List Nat) => (off / 2048 * xs.length + xs.findIdx (· == n)) * 2048 + off % 2048
  match s.ptn.running.pchOwner n with
  | some p => s.spanLo p + inv (s.interleave p)
  | none =>
    let d := inv s.idleSet
    (s.ptn.running.enabledParts.foldl (fun (x : Nat × List Nat) _ =>
      match x.2.find? (fun p => decide (s.spanLo p ≤ x.1) ) with
      | some p => (x.1 + s.spanLen p, x.2.filter (· != p))
      | none => x) (d, s.ptn.running.enabledParts)).1

/-- The next CLASS_W sector of a pseudo-channel from a position on, and its address: a sector of another class is passed over
with the rest of its granule, which lies in one region (R258, R261, R273). -/
def State.patrolNext (s : State) (n : Nat) : Nat → Nat → Option (Nat × Nat)
  | 0, _ => none
  | f + 1, pos =>
    let a := s.addrOf n (32 * pos)
    if (s.classTag a).1 = 1 then s.patrolNext n f ((pos / 64 + 1) * 64 % 2 ^ 25) else some (pos, a)

/-- PATROL_TURN: the next CLASS_W sector of the pseudo-channel is read and corrected, without a requester (R261). -/
def execPatrolTurn (pch : Fin 768) (ecc : Ecc) (s : State) : Res :=
  let n := pch.val
  .next (if !s.rb Reg.HBM_PATROL 0 || !s.pchLive n || (s.stackSt (n / 64)).st == .stop then s
    else
      match s.patrolNext n (2 ^ 19 + 1) (mget s.hbm.patrol n 0) with
      | none => s
      | some (pos, a) =>
        let u := { s with hbm := { s.hbm with patrol := mset s.hbm.patrol n ((pos + 1) % 2 ^ 25) 0 } }
        if ecc == .uncorrectable || (mget s.hbm.secs (hsecKey n (32 * pos)) {}).poison then
          u.uncorrectable n (32 * pos) a none ecc
        else if ecc == .correctable then u.correctedError n
        else u)

/-- HBM_CONDEMN: a physical function condemns a pseudo-channel (R267). -/
def execHbmCondemn (f : Func) (pch : BitVec 10) (s : State) : Res :=
  .next (s.inOrder f (.hbmCondemn f pch) (fun s =>
    if isPf f && decide (pch.toNat < 768) then s.condemn pch.toNat else s))

/-! ## Stack temperature -/

/-- A layer reading that is valid (R270). -/
def layerValid (t : Option Int) : Bool :=
  match t with
  | some v => decide (-20 ≤ v ∧ v ≤ 150)
  | none => false

/-- The highest valid layer reading, where there is one (R270). -/
def StackSt.highest (x : StackSt) : Option Int :=
  x.temps.foldl (fun b t =>
    if layerValid t then
      match b, t with
      | some u, some v => some (max u v)
      | none, some v => some v
      | b, none => b
    else b) none

/-- Is a layer invalid (R270)? -/
def StackSt.sensorBad (x : StackSt) : Bool := (List.range 16).any (fun i => !layerValid (x.temps.getD i none))

/-- The governing temperature: an invalid layer counts as the highest valid reading plus 5 (R270). -/
def StackSt.govern (x : StackSt) : Option Int := x.highest.map (fun t => if x.sensorBad then t + 5 else t)

/-- The next state at a governing temperature (Table 11.5); no valid layer is STOP (R270). -/
def stackNext (st : StackState) (g : Option Int) : StackState :=
  match g with
  | none => .stop
  | some t =>
    match st with
    | .normal => if 105 ≤ t then .stop else if 95 < t then .throttle else .normal
    | .throttle => if 105 ≤ t then .stop else if t < 90 then .normal else .throttle
    | .stop => if t < 100 then .throttle else .stop

/-- A stack judged: a record, event bit and source at each entry to THROTTLE or STOP (R271, R272). -/
def State.judgeStack (s : State) (m : Nat) : State :=
  let x := s.stackSt m
  let st := stackNext x.st x.govern
  if st = x.st then s
  else
    let s := s.stackSet m { x with st := st, expired := false }
    let s := if x.st == .stop then s.stackResumes m else s
    match st with
    | .normal => s
    | .throttle => ((s.err wTherm (unitId 5 m) none 0 0).evSet Reg.HBM_THERM_EVT m).raise 133
    | .stop => ((s.err wTherm (unitId 5 m) none 0 0).evSet Reg.HBM_THERM_EVT (16 + m)).raise 133

/-- HBM_TEMP_REPORT: a base die reports its layers; a layer that did not report keeps its last reading (R270). -/
def execHbmTempReport (stack : Fin 12) (temps : List (Option Int)) (s : State) : Res :=
  let m := stack.val
  let x := s.stackSt m
  .next (if s.fitted m then
      (s.stackSet m { x with temps := (List.range 16).map (fun i =>
        match temps.getD i none with
        | some v => some v
        | none => x.temps.getD i none) }).judgeStack m
    else s)

/-- LAYER_SENSOR_TIMEOUT: a layer silent for 4 ms is invalid (R270). -/
def execLayerSensorTimeout (stack : Fin 12) (layer : Fin 16) (s : State) : Res :=
  let m := stack.val
  let x := s.stackSt m
  .next (if s.fitted m then
      (s.stackSet m { x with temps := (List.range 16).map (fun i =>
        if i = layer.val then none else x.temps.getD i none) }).judgeStack m
    else s)

/-- HBM_STOP_TIMEOUT: the request that has waited longest at a stopped stack has waited 20 ms: it fails, those that came in the same
instant with it, and from now on every new request to the stack does (R272). -/
def execHbmStopTimeout (stack : Fin 12) (s : State) : Res :=
  let m := stack.val
  let x := s.stackSt m
  .next (match s.firstStop m with
    | some t =>
      if x.st == .stop then
        let mark := fun (k : Ticket) => if k.stop = some (m, t) then { k with late := true } else k
        let s := (s.at (t + 20000000)).stackSet m { x with expired := true }
        { s with lin := { s.lin with tickets := s.lin.tickets.map mark } }.sectorsGo m (fun w => w.since == t)
      else s
    | none => s)

end Sys2Proof.Machine
end

