-- ==== Sys2Proof/WellFormed.lean ====
section
/-! DEFINITION. Which commands the senders can form: field widths that the types leave open. -/

namespace Sys2Proof

/-- The operand of an access to the lining fits its line: 1 to 128 bytes inside one line, a reduction code of Table 10.5
(R224, R238). -/
def LinAccess.wf (x : LinAccess) : Bool :=
  let fits := fun n => decide (1 ≤ n ∧ x.addr.toNat % 128 + n ≤ 128)
  match x.op with
  | .read n => fits n
  | .write bs => fits bs.length
  | .reduce _ bs => fits bs.length

/-- A flit is 256 bytes, and its KIND is that of its row (R342, Table 15.3). -/
def flitWf (kind : Nat) (bs : List Byte) : Bool := bs.length == 256 && ((bs.headD 0).toNat % 4 == kind)

/-- The jig instruction word carries the OP of its row (R293). -/
def jigWf (op : Nat) (w : BitVec 128) : Bool := w.toNat % 16 == op

/-- Is the opcode one of Table 9.3 (R198)? -/
def tableOp (op : Nat) : Bool :=
  decide (op ≤ 0x07) || decide (0x10 ≤ op ∧ op ≤ 0x1D) || decide (0x20 ≤ op ∧ op ≤ 0x29) || decide (0x30 ≤ op ∧ op ≤ 0x32) ||
    decide (0x40 ≤ op ∧ op ≤ 0x43) || decide (0x50 ≤ op ∧ op ≤ 0x55) || decide (0x58 ≤ op ∧ op ≤ 0x5F) ||
    decide (0x70 ≤ op ∧ op ≤ 0x75)

/-- Is the command well formed? -/
def Instr.wf : Instr → Bool
  | .registerWrite _ _ width _ _ => [1, 2, 4, 8].contains width
  | .lowWordRead _ _ width => [1, 2, 4, 8].contains width
  | .highWordRead _ _ width => [1, 2, 4, 8].contains width
  | .nop _ op _ => op == 0 || !tableOp op.toNat
  | .liningAccess x => x.wf
  | .hbmSectorAccess addr _ w _ =>
    addr.toNat % 32 == 0 &&
      (match w with
       | none => true
       | some bs => bs.length == 32)
  | .move _ w => jigWf 1 w
  | .loop _ w => jigWf 2 w
  | .wait _ w => jigWf 3 w
  | .jigSignal _ w => jigWf 4 w
  | .jigEnd _ w => jigWf 5 w
  | .data _ _ bs => flitWf 1 bs
  | .init _ bs => flitWf 2 bs
  | .nak _ bs => flitWf 3 bs
  | .idleFlit _ bs => flitWf 0 bs
  | .bar2Read _ _ len => decide (1 ≤ len ∧ len ≤ 4096)
  | .bar2Write _ _ bytes enable => decide (1 ≤ bytes.length ∧ bytes.length ≤ 4096) && bytes.length == enable.length
  | .bar4Write _ off bytes => decide (1 ≤ bytes.length ∧ off.toNat + bytes.length ≤ 2 ^ 24)
  | .hbmTempReport _ temps => temps.length == 16
  | .dieSample _ temps _ => decide (1 ≤ temps.length ∧ temps.length ≤ 32)
  | .measurementDone _ need => decide (need.length ≤ 64)
  | _ => true

end Sys2Proof
end

