-- ==== Sys2Proof/Machine/Operands.lean ====
section
/-! DEFINITION. The operand forms of thread instructions: words, fields, lanes, registers and predicates (R194 to R198). -/

namespace Sys2Proof.Machine

/-- Word 0 of an instruction (Table 9.2). -/
def insnWord (op : Nat) (i : Insn) : Nat :=
  op + 2 ^ 8 * i.d.toNat + 2 ^ 15 * i.a.toNat + 2 ^ 22 * i.b.toNat + 2 ^ 29 * i.c.toNat + 2 ^ 36 * i.pred.toNat +
    2 ^ 39 * b2n i.pneg + 2 ^ 40 * i.mod.toNat + 2 ^ 47 * b2n i.ext.isSome + 2 ^ 48 * i.imm.toNat

/-- The length of an instruction in bytes (R193). -/
def insnLen (i : Insn) : Nat := if i.ext.isSome then 16 else 8

/-- How an instruction uses a register field (R196, R198). -/
inductive Use where
  | unused
  | pred
  | regs (n : Nat)
deriving DecidableEq, Repr

/-- Is the field what its use allows: zero, a predicate number, or a multiple of the group it names? -/
def Use.ok (u : Use) (v : Nat) : Bool :=
  match u with
  | .unused => v == 0
  | .pred => decide (v < 8)
  | .regs n => v % n == 0

/-- The registers a field names, from `v` on. -/
def Use.list (u : Use) (v : Nat) : List Nat :=
  match u with
  | .regs n => (List.range n).map (v + ·)
  | _ => []

/-- What R196 and R198 check of an instruction: which forms it has (0 for either), whether it is a group instruction, the
uses of D, A, B and C, whether IMM16 is used and whether the extension word replaces it (R197), the used bits of the
extension word beside, and whether MOD is not reserved; `drain` marks an instruction that issues only when the group's
earlier requests are complete. -/
structure Form where
  size : Nat := 8
  grp : Bool := false
  d : Use := .unused
  a : Use := .unused
  b : Use := .unused
  c : Use := .unused
  imm : Bool := false
  wide : Bool := false
  ext : Nat := 0
  mod : Bool := true
  drain : Bool := false
deriving DecidableEq, Repr

/-- Does an instruction meet its form (R195, R196, R198)? -/
def Form.ok (f : Form) (i : Insn) : Bool :=
  (f.size == 0 || f.size == insnLen i) &&
    (!f.grp || (i.pred == 7 && !i.pneg)) &&
    f.d.ok i.d.toNat && f.a.ok i.a.toNat && f.b.ok i.b.toNat && f.c.ok i.c.toNat &&
    (i.imm == 0 || f.imm || (f.wide && i.ext.isNone)) &&
    (match i.ext with
     | none => true
     | some e => e.toNat &&& (if f.wide then f.ext ||| 0xFFFFFFFF else f.ext) == e.toNat) &&
    f.mod

/-- The registers an instruction reads or writes. -/
def Form.regs (f : Form) (i : Insn) : List Nat :=
  f.d.list i.d.toNat ++ f.a.list i.a.toNat ++ f.b.list i.b.toNat ++ f.c.list i.c.toNat

/-- The predicates an instruction reads or writes. -/
def Form.preds (f : Form) (i : Insn) : List Nat :=
  i.pred.toNat :: (if f.d = .pred then [i.d.toNat] else [])

/-- A bit of MOD. -/
def modBit (i : Insn) (k : Nat) : Bool := bitOf i.mod.toNat k

/-- The lanes of a mask in ascending order. -/
def lanesOf (m : BitVec 32) : List Nat := setBits m.toNat 32

/-- A mask of lanes. -/
def maskOf (ls : List Nat) : BitVec 32 := ls.foldl (fun m l => m ||| BitVec.ofNat 32 (2 ^ l)) 0

/-- A register of a lane. -/
def Group.w (x : Group) (l r : Nat) : Word := mget x.regs (128 * l + r) 0

/-- A register of a lane set. -/
def Group.wSet (x : Group) (l r : Nat) (v : Word) : Group := { x with regs := mset x.regs (128 * l + r) v 0 }

/-- `n` registers of a lane as a little-endian number (R196). -/
def Group.wide (x : Group) (l r : Nat) : Nat → Nat
  | 0 => 0
  | n + 1 => (x.w l r).toNat + 2 ^ 32 * x.wide l (r + 1) n

/-- `n` registers of a lane set from a number. -/
def Group.wideSet (x : Group) (l r v : Nat) : Nat → Group
  | 0 => x
  | n + 1 => (x.wSet l r (BitVec.ofNat 32 v)).wideSet l (r + 1) (v / 2 ^ 32) n

/-- A predicate of a lane: q7 reads 1 (R194). -/
def Group.q (x : Group) (l p : Nat) : Bool := p == 7 || bitOf (mget x.preds l 0).toNat p

/-- A predicate of a lane set: a write of q7 is ignored (R194). -/
def Group.qSet (x : Group) (l p : Nat) (v : Bool) : Group :=
  if p = 7 then x
  else { x with preds := mset x.preds l (BitVec.ofNat 7 (putBits (mget x.preds l 0).toNat p p (b2n v))) 0 }

/-- The effective lanes (R195). -/
def Group.effective (x : Group) (i : Insn) : BitVec 32 :=
  maskOf ((lanesOf x.active).filter (fun l => x.q l i.pred.toNat != i.pneg))

/-- The lowest active lane, from which a group instruction takes its register operands (R195). -/
def Group.lowest (x : Group) : Nat := (lanesOf x.active).headD 0

/-- `n` bits sign-extended, as an integer. -/
def signed (v n : Nat) : Int := if 2 ^ (n - 1) ≤ v % 2 ^ n then (v % 2 ^ n : Int) - 2 ^ n else (v % 2 ^ n : Int)

/-- The immediate of R197 and of MOVI: ext[31:0], or IMM16 sign-extended to 32 bits. -/
def immOf (i : Insn) : Word :=
  match i.ext with
  | some e => BitVec.ofNat 32 e.toNat
  | none => BitVec.ofInt 32 (signed i.imm.toNat 16)

/-- The displacement of a memory address (R197). -/
def dispOf (i : Insn) : Int :=
  match i.ext with
  | some e => signed e.toNat 32
  | none => signed i.imm.toNat 16

/-- Operand B: a register, or the immediate where MOD[6] says so (R197). -/
def Group.opB (x : Group) (i : Insn) (l : Nat) : Word := if modBit i 6 then immOf i else x.w l i.b.toNat

/-- The memory address of a lane, or E_BOUNDS where pair A has bits above 47 (R197), or where the displacement leads out of 0 to
2^48 - 1, which does not wrap (DESIGN CHOICE, log entry 50). -/
def Group.memAddr (x : Group) (i : Insn) (l : Nat) : Nat × Bool :=
  let v := x.wide l i.a.toNat 2
  let a := (v : Int) + dispOf i
  ((a % (2 ^ 48 : Int)).toNat, decide (v < 2 ^ 48 ∧ 0 ≤ a ∧ a < 2 ^ 48))

/-- The use of B where it can be an immediate. -/
def useB (i : Insn) : Use := if modBit i 6 then .unused else .regs 1

/-- Are only the bits of `m` set in MOD? -/
def modOnly (i : Insn) (m : Nat) : Bool := i.mod.toNat &&& m == i.mod.toNat

end Sys2Proof.Machine
end

