-- ==== Sys2Proof/Machine/Lining.lean ====
section
/-! DEFINITION. The lining: pinned ways, the home cache with its directory, updates, write-back and scrubbing (spec/10). -/

namespace Sys2Proof.Machine

/-! ## Pinned regions -/

/-- A region entry of LINING_PLAN (Table 11 of R252). -/
structure Region where
  ix : Nat
  valid : Bool
  dyn : Bool
  owner : Nat
  die : Nat
  ways : Nat
  first : Nat
  count : Nat
  init : Bool
deriving DecidableEq, Repr

/-- Offset of region entry `i`. -/
def regionOff (i : Nat) : Nat := 6464 + 32 * i

/-- A region entry (Table 10.11). -/
def Pat.region (t : Pat) (i : Nat) : Region :=
  let o := regionOff i
  let c := t.fld 3 o 1
  ⟨i, bitOf c 0, bitOf c 1, t.fld 3 (o + 1) 1 % 16, t.fld 3 (o + 2) 1, t.fld 3 (o + 3) 1, t.fld 3 (o + 4) 2,
   t.fld 3 (o + 6) 2, bitOf (t.fld 3 (o + 8) 1) 0⟩

/-- The valid region entries. -/
def Pat.regions (t : Pat) : List Region := ((List.range 256).map t.region).filter (·.valid)

/-- Is the region pinned now: static, or dynamic between a PIN and an UNPIN (R234)? -/
def Pat.isPinned (t : Pat) (r : Region) : Bool := r.valid && (!r.dyn || t.pins.contains r.ix)

/-- Does a region's run hold slice `sl` (256 × die + slice)? -/
def Region.holds (r : Region) (sl : Nat) : Bool :=
  r.die == sl / 256 && decide (r.first ≤ sl % 256 ∧ sl % 256 < r.first + r.count)

/-- The regions pinned in a slice, by rising index. -/
def Pat.pinnedIn (t : Pat) (sl : Nat) : List Region := t.regions.filter (fun r => t.isPinned r && r.holds sl)

/-- Ways pinned in a slice. -/
def Pat.waysPinned (t : Pat) (sl : Nat) : Nat := ((t.pinnedIn sl).map (·.ways)).sum

/-- The region that pins a way of a slice: from way 15 downward, in the order of the entries (R233, R234). -/
def wayRegion (w : Nat) : List Region → Nat → Option Region
  | [], _ => none
  | r :: rs, b => if 16 ≤ w + b + r.ways ∧ w + b < 16 then some r else wayRegion w rs (b + r.ways)

/-- The region that pins a way of a slice. -/
def Pat.wayPin (t : Pat) (sl w : Nat) : Option Region := wayRegion w (t.pinnedIn sl) 0

/-- The slice entry's cap (R233). -/
def Pat.cap (t : Pat) (sl : Nat) : Nat :=
  let c := t.fld 3 (64 + 4 * sl) 1 % 16
  if c = 0 then 12 else c

/-- THRASH_LIMIT of a slice entry (Table 10.9). -/
def Pat.thrashLimit (t : Pat) (sl : Nat) : Nat := t.fld 3 (64 + 4 * sl + 2) 2

/-- REPLICATE of a partition (Table 10.10). -/
def Pat.replicate (t : Pat) (p : Nat) : Nat := t.fld 3 (6208 + 16 * p) 1

/-! ## Where an access goes -/

/-- Slice (256 × die + slice) of a window address (R226). -/
def winSlice (a : Nat) : Nat := 256 * ((a - Config.winBase) / 0x60000000) + (a - Config.winBase) % 0x60000000 / 0x600000

/-- Way of a window address (R226). -/
def winWay (a : Nat) : Nat := (a - Config.winBase) % 0x600000 / 0x60000

/-- The first window byte of a way of a slice. -/
def wayBase (sl w : Nat) : Nat := Config.winBase + sl / 256 * 0x60000000 + sl % 256 * 0x600000 + w * 0x60000

/-- What serves an address (Table 10.2), or the code with which the access fails. -/
inductive Target where
  | fails (code : Nat)
  | cached (owner : Nat)
  | idle
  | pinned
  | remote
deriving DecidableEq, Repr

/-- Does an access come from outside the partitions' own engines (R465)? -/
def hostLike : Agent → Bool
  | .host _ => true
  | .remote _ => true
  | _ => false

/-- May an access reach its address (R5, R21, R22, R255, R454, R465), and what serves it? `part` is none for an access that
carries no partition. -/
def State.target (s : State) (agent : Agent) (part : Option Nat) (a : Nat) : Target :=
  if a < Config.hbmEnd then
    if s.capacity * 2 ^ 30 ≤ a then .fails eBounds
    else if hostLike agent && ((s.spanOwner a).map (fun p => (s.part p).resetting)).getD false then .fails ePerm
    else match part, s.spanOwner a with
      | none, none => .idle
      | none, some p => if s.keyGen a = 0 then .fails ePerm else .cached p
      | some p, own =>
        if own ≠ some p then .fails ePerm
        else match agent with
          | .host _ => if s.keyGen a = 0 then .fails ePerm else .cached p
          | .remote _ => if s.keyGen a = 0 then .fails ePerm else .cached p
          | _ => .cached p
  else if Config.winBase ≤ a ∧ a < Config.winEnd then
    match part, s.ptn.running.wayPin (winSlice a) (winWay a) with
    | some p, some r => if r.owner ≠ p ∨ (hostLike agent && (s.part p).resetting) then .fails ePerm else .pinned
    | _, _ => .fails ePerm
  else if Config.remBase ≤ a ∧ a < Config.remEnd then
    let m := (a - Config.remBase) / Config.remSize
    if s.moduleId = 0xFFF ∨ m = s.moduleId then .fails eBounds else .remote
  else .fails eBounds

/-- The home slice and set of a line: a hash over the owner's slices (R225). -/
def State.home (s : State) (p l : Nat) : Nat × Nat :=
  let own := setBits (s.ptn.running.sliceMask p) 1536
  let h := Config.homeHash (s.part p).hashGen l
  (own.getD (h % max 1 own.length) 0, h / max 1 own.length % 3072)

/-- Is the slot of a group reserved for proof in its partition (R160)? -/
def State.proofSlot (s : State) (c k : Nat) : Bool :=
  match s.corePart c with
  | some p => decide (64 ≤ k + s.ptn.running.proofSlots p)
  | none => false

/-- The traffic class of an access (Table 10.7). -/
def State.trafficClass (s : State) (agent : Agent) (a : Nat) : Nat :=
  match agent with
  | .remote _ => 4
  | .core g => if s.proofSlot g.core.val g.slot.val then 5 else (s.classTag a).2
  | .jig _ => 3
  | _ => (s.classTag a).2

/-! ## Sectors -/

/-- A sector's marks. -/
def State.sec (s : State) (a : Nat) : Sec := mget s.lin.secs (a / 32) {}

/-- A sector's marks set. -/
def State.secSet (s : State) (a : Nat) (x : Sec) : State :=
  { s with lin := { s.lin with secs := mset s.lin.secs (a / 32) x {} } }

/-- Bytes stored in the lining at a device address. -/
def State.linBytes (s : State) (a n : Nat) : List Byte := readCells s.lin.data a n

/-- Bytes stored. -/
def State.linPut (s : State) (a : Nat) (bs : List Byte) : State :=
  { s with lin := { s.lin with data := writeCells s.lin.data a bs } }

/-- `n` bytes from `a` on cleared: no sector of them valid. -/
def State.linClear (s : State) (a n : Nat) : State :=
  { s with lin := { s.lin with data := mclear s.lin.data a n, secs := mclear s.lin.secs (a / 32) (n / 32) } }

/-- A line's record. -/
def State.line (s : State) (l : Nat) : Option Line := mfind s.lin.lines l

/-- A line's record set. -/
def State.lineSet (s : State) (l : Nat) (x : Line) : State :=
  { s with lin := { s.lin with lines := mput s.lin.lines l x } }

/-- The sectors of a line. -/
def lineSecs (l : Nat) : List Nat := [128 * l, 128 * l + 32, 128 * l + 64, 128 * l + 96]

/-- Copies of a line dropped. -/
def State.dropCopies (s : State) (l : Nat) : State :=
  { s with lin := { s.lin with copies := mclear s.lin.copies (8 * l) 8 } }

/-- A line forgotten: its record, copies, marks and bytes. -/
def State.forgetLine (s : State) (l : Nat) : State :=
  let s := (s.dropCopies l).linClear (128 * l) 128
  { s with lin := { s.lin with lines := mdel s.lin.lines l, writeBack := s.lin.writeBack.filter (fun e => e.1 != l) } }

/-- Even parity over each of 32 bytes (Table 10.1). -/
def parityOf (bs : List Byte) : Word :=
  BitVec.ofNat 32 ((List.range 32).map (fun i => 2 ^ i * ((setBits (bs.getD i 0).toNat 8).length % 2))).sum

/-- A sector with the parity of the bytes it now holds, and with their code where it is computed (R242). -/
def State.secSeal (s : State) (a : Nat) (x : Sec) (fresh : Bool) : State :=
  let bs := s.linBytes (a / 32 * 32) 32
  s.secSet a { x with parity := parityOf bs, code := if fresh then Config.sectorCode bs else x.code }

/-- A fetched sector installed: valid and clean (R228, R229). -/
def State.install (s : State) (a : Nat) (bs : List Byte) : State := (s.linPut a bs).secSeal a { v := true } true

/-! ## Write-back -/

/-- Has a line a DIRTY sector? -/
def State.hasDirty (s : State) (l : Nat) : Bool := (lineSecs l).any (fun a => (s.sec a).v && (s.sec a).dirty)

/-- Does a write-back from a die reach the stack of an address now: it is not stopped, and there is a route (R272, R328)? -/
def State.sinks (s : State) (die a : Nat) : Bool :=
  !s.stackStopped a && (s.route die (s.stackOf a / 2) 11).isSome

/-- The DIRTY sectors of a line written to HBM from the die of its slice, poisoned ones as poisoned; they are clean afterwards
(R228, R260). A sector whose stack takes no write, or to whose stack there is no route, which R328 reports, stays DIRTY (DESIGN
CHOICE, log entry 65). -/
def State.writeDirty (s : State) (die l : Nat) : State :=
  (lineSecs l).foldl (fun u a =>
    let x := u.sec a
    if !x.v || !x.dirty || u.stackStopped a then u
    else
      let (ok, w) := u.carry die (u.stackOf a / 2) 0 32
      if ok then (w.hbmWrite a (w.linBytes a 32) x.poison).secSet a { x with dirty := false } else w) s

/-- The sectors of a line that are still DIRTY go on, under the mapping and the key now in force, as write-backs that their stacks
take when they can (R235, R272). -/
def State.lateDirty (s : State) (die l : Nat) : State :=
  (lineSecs l).foldl (fun u a =>
    let x := u.sec a
    if x.v && x.dirty then
      let (k, r) := u.secRecord a (u.keyGen a) (u.linBytes a 32) x.poison
      let w : LateWrite := ⟨die, u.stackOf a, k, u.linBytes a 32, r⟩
      ({ u with hbm := { u.hbm with late := u.hbm.late ++ [w] } } : State).secSet a { x with dirty := false }
    else u) s

/-- The HBM controllers accept what they can of a write-back entry; it frees once nothing of it is left (R241). -/
def State.acceptWriteBack (s : State) (l sl : Nat) : State :=
  let u := s.writeDirty (sl / 256) l
  if u.hasDirty l then u else u.forgetLine l

/-- A line evicted, its copies gone: with DIRTY sectors it moves to a write-back entry (R241, R250). -/
def State.evict (s : State) (l : Nat) : State :=
  match s.line l with
  | none => s
  | some x =>
    let sl := 256 * x.die + x.slice
    let s := if x.hit then s else { s with lin := { s.lin with dead := mset s.lin.dead sl (mget s.lin.dead sl 0 + 1) 0 } }
    if s.hasDirty l then
      { s with lin := { s.lin with lines := mdel s.lin.lines l, writeBack := s.lin.writeBack ++ [(l, sl)] } }
    else s.forgetLine l

/-! ## Ways -/

/-- The lines of a set of a slice. -/
def State.setLines (s : State) (sl st : Nat) : List (Nat × Line) :=
  s.lin.lines.filter (fun e => 256 * e.2.die + e.2.slice == sl && e.2.setIx == st)

/-- The copies in a set of a slice, by key. -/
def State.setCopies (s : State) (sl st : Nat) : List (Nat × Copy) :=
  s.lin.copies.filter (fun e => e.2.slice == sl && e.2.setIx == st)

/-- May a line be a victim (R240)? -/
def Line.eligible (x : Line) : Bool := !x.recalling && x.fills.isEmpty && x.held.isEmpty

/-- The way that a new line or copy takes: a free one, that of a line, or that of a copy. -/
inductive WayOf where
  | free (w : Nat)
  | line (l w : Nat)
  | copy (key w : Nat)
  | none
deriving DecidableEq, Repr

/-- The way's number. -/
def WayOf.way : WayOf → Nat
  | .free w => w
  | .line _ w => w
  | .copy _ w => w
  | .none => 0

/-- The ordinary way of a set for a new line: a free one, else a victim's; none when no way is eligible (R240). The order among
eligible victims is open: the command's victim, else the model's pick. -/
def State.pickWay (s : State) (sl st : Nat) (victim : Option Nat) : WayOf :=
  let lines := s.setLines sl st
  let cs := s.setCopies sl st
  let ways := (List.range 16).filter (fun w => (s.ptn.running.wayPin sl w).isNone)
  match ways.find? (fun w => !lines.any (fun e => e.2.way == w) && !cs.any (fun e => e.2.way == w)) with
  | some w => .free w
  | none =>
    let ok := lines.filter (fun e => e.2.eligible)
    match ok.find? (fun e => decide (victim = some e.1)) with
    | some e => .line e.1 e.2.way
    | none =>
      let all := cs.map (fun e => WayOf.copy e.1 e.2.way) ++ ok.map (fun e => WayOf.line e.1 e.2.way)
      all.getD (Config.pick s.free % max 1 all.length) .none

/-- Does a victim hold its way yet: copies to recall, or no write-back entry free for its DIRTY sectors (R232, R241)? -/
def State.holdsWay (s : State) (sl : Nat) : WayOf → Bool
  | .none => true
  | .line v _ =>
    decide (((s.line v).map (·.sharers)).getD 0 ≠ 0) ||
      (s.hasDirty v && decide (16 ≤ (s.lin.writeBack.filter (fun e => e.2 == sl)).length))
  | _ => false

/-- The victim leaves its way; a copy goes without a word to home (R231). -/
def State.takeWay (s : State) : WayOf → State
  | .line l _ => { s.evict l with free := s.free + 1 }
  | .copy k _ => { s with lin := { s.lin with copies := mdel s.lin.copies k }, free := s.free + 1 }
  | _ => s

/-- Has a line to wait before it can be present: its write-back is not accepted, or no way is to be had (R232, R240, R241)? -/
def State.allocWaits (s : State) (p l : Nat) (victim : Option Nat) : Bool :=
  (s.line l).isNone &&
    (s.lin.writeBack.any (fun e => e.1 == l) ||
      s.holdsWay (s.home p l).1 (s.pickWay (s.home p l).1 (s.home p l).2 victim))

/-- A line made present at its home slice (R228). -/
def State.allocLine (s : State) (p l : Nat) (victim : Option Nat) : State :=
  match s.line l with
  | some _ => s
  | none =>
    let (sl, st) := s.home p l
    let w := s.pickWay sl st victim
    (s.takeWay w).lineSet l { die := sl / 256, slice := sl % 256, setIx := st, way := w.way }

/-! ## Checked sectors -/

/-- A slice's corrected count and the total (R243, Table 10.25). -/
def State.linCorrected (s : State) (sl : Nat) : State :=
  (s.rSat (bank Reg.LIN_SLICE_ERR (sl % 256 + 256 * (sl / 256))) 15 0 1).rAdd Reg.LIN_ECC_CORR 31 0 1

/-- A slice's uncorrectable count, the total and the record (R243). -/
def State.linUncorr (s : State) (sl a : Nat) (part : Option Nat) : State :=
  ((s.rSat (bank Reg.LIN_SLICE_ERR sl) 31 16 1).rAdd Reg.LIN_ECC_UNCORR 31 0 1).err eUncorr (unitId 3 sl) part a 0

/-- What a read of a valid sector meets (Table 10.6). -/
inductive SecRead where
  | good
  | corrected
  | bad
deriving DecidableEq, Repr

/-- Table 10.6. -/
def Sec.outcome (x : Sec) (ecc : Ecc) : SecRead :=
  if x.poison then .bad
  else match ecc with
    | .clean => .good
    | .correctable => if x.stale then .bad else .corrected
    | .uncorrectable => .bad

/-- A sector fetched from its stack to the home slice of its line: the request and the data cross between their dies (R228, R259,
R312, R328). Answers a code and the state. -/
def State.fetchSector (s : State) (sl a : Nat) (ecc : Ecc) : Nat × State :=
  let m := s.stackOf a / 2
  let (ok, s) := s.carry (sl / 256) m 0 0
  if !ok then (eLinkDown, s)
  else
    let (c, bs, s) := s.hbmRead a ecc
    let (ok, s) := s.carry m (sl / 256) 1 (if c = 0 then 32 else 0)
    if !ok then (eLinkDown, s) else if c = 0 then (0, s.install a bs) else (c, s)

/-- A cached sector made valid: fetched from HBM when V is clear; a clean sector found bad is fetched again and counted
as corrected; a DIRTY one is poisoned (R228, R242, R243). Answers a code and the state. -/
def State.needSector (s : State) (p sl a : Nat) (ecc : Ecc) : Nat × State :=
  let x := s.sec a
  if x.v then
    match x.outcome ecc with
    | .good => (0, s)
    | .corrected => (0, s.linCorrected sl)
    | .bad =>
      if x.dirty then (eUncorr, (s.secSet a { x with poison := true }).linUncorr sl a (some p))
      else ((s.secSet a {}).linCorrected sl).fetchSector sl a .clean
  else s.fetchSector sl a ecc

/-- A sector of a pinned way checked: one with V clear reads as zero, unchecked (R243, R245). -/
def State.needPinned (s : State) (p sl a : Nat) (ecc : Ecc) : Nat × State :=
  let x := s.sec a
  if !x.v then (0, s)
  else match x.outcome ecc with
    | .good => (0, s)
    | .corrected => (0, s.linCorrected sl)
    | .bad => (eUncorr, (s.secSet a { x with poison := true }).linUncorr sl a (some p))

/-- A sector queued as STALE for the slice's scrubber, or left to the sweep (R244). -/
def State.staleQueue (s : State) (sl a : Nat) : State :=
  let q := mget s.lin.staleQ sl []
  if q.length < 64 then { s with lin := { s.lin with staleQ := mset s.lin.staleQ sl (q ++ [a]) [] } }
  else s.rAdd Reg.LIN_ECC_STALE_OVF 31 0 1

/-- Bytes written into a valid sector, or over a whole one (R242): `lo` is the first byte's place in it. -/
def State.storeSector (s : State) (sl a lo : Nat) (bs : List Byte) (cached : Bool) : State :=
  let x := s.sec a
  if lo = 0 ∧ bs.length = 32 then (s.linPut a bs).secSeal a { v := true, dirty := cached } true
  else if !x.v then
    ((s.linPut a (List.replicate 32 0)).linPut (a + lo) bs).secSeal a { v := true, dirty := cached } true
  else ((s.linPut (a + lo) bs).secSeal a { x with stale := true, dirty := cached } false).staleQueue sl a

/-! ## Notices -/

/-- Do two ranges of bytes meet? -/
def meets (a n b m : Nat) : Bool := decide (a < b + m ∧ b < a + n)

/-- A write or update of some bytes from the slice of a die on: a release notice goes to every group that waits for a clamp word
that is now 0, and a notice to every group that waits on a signal word written; one without a route fails (R186, R209, R312,
R328). -/
def State.notify (s : State) (die a len : Nat) : State :=
  s.groups.foldl (fun u e =>
    let x := e.2
    let free := x.waits.filter (fun w => meets w.2.1 4 a len && leNat (u.linBytes w.2.1 4) == 0)
    let words := match x.st, x.wait with
      | .waiting, .signals ws => ((ws.map (fun w => w.2.1)).filter (fun b => meets b 8 a len && !x.written.contains b)).eraseDups
      | _, _ => []
    let (ok, u) := if free.isEmpty && words.isEmpty then (false, u) else u.carry die (u.coreDie (e.1 / 64)) 2 0
    if !ok then u
    else u.groupSet e.1 { x with
      written := x.written ++ words
      notices := free.foldl (fun m w => mput m w.2.1 (mget m w.2.1 0 ||| BitVec.ofNat 32 (2 ^ w.1))) x.notices }) s

/-! ## Accesses to one line, whole -/

/-- A range cut at multiples of `n`: first address and length of each part, in rising order. -/
def cuts (n a : Nat) : Nat → Nat → List (Nat × Nat)
  | 0, _ => []
  | f + 1, len =>
    if len = 0 then []
    else
      let k := min len (n - a % n)
      (a, k) :: cuts n (a + k) f (len - k)

/-- The part of a range in each sector. -/
def sectorCuts (a len : Nat) : List (Nat × Nat) := cuts 32 a (len / 32 + 2) len

/-- The part of a range in each line. -/
def lineCuts (a len : Nat) : List (Nat × Nat) := cuts 128 a (len / 128 + 2) len

/-- The sectors that a range meets. -/
def secsOf (a len : Nat) : List Nat := (sectorCuts a len).map (fun q => q.1 / 32 * 32)

/-- The counters of R249 at a die and class: `have` of `want` sectors were present. -/
def State.countLookup (s : State) (die cls found want : Nat) : State :=
  let k := die + 16 * cls
  let s := s.rAdd64 (bank Reg.LIN_LOOKUPS k) 1
  if found = want then s.rAdd64 (bank Reg.LIN_HITS k) 1
  else if found = 0 then s.rAdd64 (bank Reg.LIN_MISSES k) 1
  else s.rAdd64 (bank Reg.LIN_PARTIAL k) 1

/-- Direct-window accesses of a slice counted (Table 10.22). -/
def State.countPinned (s : State) (sl : Nat) : State :=
  s.rgSet (bank Reg.LIN_SLICE_STAT sl) (s.rg (bank Reg.LIN_SLICE_STAT sl) + 1)

/-- A read-modify-write of one range of a line: code, the bytes before, the state (R239, R242, R243). -/
def State.modify (s : State) (p sl a len : Nat) (f : List Byte → List Byte) (ecc : Ecc) (cached : Bool) :
    Nat × List Byte × State :=
  let parts := sectorCuts a len
  let (c, s) := parts.foldl (fun (x : Nat × State) q =>
    if x.1 ≠ 0 then x
    else if cached then x.2.needSector p sl (q.1 / 32 * 32) ecc
    else x.2.needPinned p sl (q.1 / 32 * 32) ecc) (0, s)
  if c ≠ 0 then (c, [], s)
  else
    let old := s.linBytes a len
    (0, old, ((parts.foldl (fun (x : State × List Byte) q =>
      (x.1.storeSector sl (q.1 / 32 * 32) (q.1 % 32) (x.2.take q.2) cached, x.2.drop q.2)) (s, f old)).1).notify (sl / 256) a len)

/-- A reduction of Table 10.5 on the old bytes. -/
def reduceBytes (code w : Nat) (new : List Byte) (old : List Byte) : List Byte :=
  ((List.range (new.length / w)).map (fun i =>
    leBytes (reduceElem code (leNat ((old.drop (w * i)).take w)) (leNat ((new.drop (w * i)).take w))) w)).flatten

/-- A reduction is naturally aligned and lies in one line (R238). -/
def reduceFits (code a len : Nat) : Bool :=
  let w := reduceWidth code
  decide (4 ≤ len ∧ len ≤ 128 ∧ len % w = 0 ∧ a % w = 0 ∧ a % 128 + len ≤ 128)

/-- One queued update of a line performed at its home slice; a poisoned sector fails it (R239, R243). -/
def State.performHeld (s : State) (x : Line) (u : LinAccess) : State :=
  let sl := 256 * x.die + x.slice
  match u.op with
  | .reduce code bs =>
    let (c, _, s) := s.modify u.part.val sl u.addr.toNat bs.length (reduceBytes code.toNat (reduceWidth code.toNat) bs) u.ecc true
    s.answer { code := c }
  | _ => s

/-- What an access does to its bytes: a read, a write, or an update of the old bytes. -/
inductive Act where
  | read
  | write (bs : List Byte)
  | update (f : List Byte → List Byte)

/-- Its kind. -/
def Act.kind : Act → AccKind
  | .read => .read
  | .write _ => .write
  | .update _ => .update

/-- Is the agent a core? -/
def isCore : Agent → Bool
  | .core _ => true
  | _ => false

/-- Lines of a slice with a fetch outstanding (R229). -/
def State.missEntries (s : State) (sl : Nat) : Nat :=
  (s.lin.lines.filter (fun e => 256 * e.2.die + e.2.slice == sl && !e.2.fills.isEmpty)).length

/-- The name under which a request waits: what it asks, with no error in it. -/
def Ask.key (q : Ask) : Ask := { q with ecc := .clean }

/-- What is known of a request that waits. -/
def State.ticket (s : State) (q : Ask) : Option Ticket := s.lin.tickets.find? (fun t => t.ask == q.key)

/-- What is known of a request changed. -/
def State.note (s : State) (q : Ask) (f : Ticket → Ticket) : State :=
  { s with lin := { s.lin with tickets := match s.ticket q with
      | some _ => s.lin.tickets.map (fun t => if t.ask == q.key then f t else t)
      | none => s.lin.tickets ++ [f { ask := q.key }] } }

/-- Does a request still stand in an update queue? -/
def State.stands (s : State) : Queued → Bool
  | .access _ => true
  | .place q => (s.ticket q).isSome

/-- The update queue of a line, without the places of requests that are gone (R239). -/
def State.heldOf (s : State) (y : Line) : List Queued := y.held.filter s.stands

/-- Updates queued at a slice (R239). -/
def State.heldAt (s : State) (sl : Nat) : Nat :=
  ((s.lin.lines.filter (fun e => 256 * e.2.die + e.2.slice == sl)).map (fun e => (s.heldOf e.2).length)).sum

/-- Does another update stand before this one in the queue of its line (R239)? -/
def State.queuedBefore (s : State) (y : Line) (q : Ask) : Bool :=
  match (s.heldOf y).head? with
  | some (.place t) => t != q.key
  | some (.access _) => true
  | none => false

/-- A line's record changed. -/
def State.lineMap (s : State) (l : Nat) (f : Line → Line) : State :=
  match s.line l with
  | some y => s.lineSet l (f y)
  | none => s

/-- A request that no longer waits: it is forgotten, and its place in the queue of its line with it. -/
def State.unticket (s : State) (q : Ask) : State :=
  match s.ticket q with
  | none => s
  | some _ =>
    let s := s.lineMap (q.addr / 128) (fun y => { y with held := y.held.filter (fun h => h != .place q.key) })
    { s with lin := { s.lin with tickets := s.lin.tickets.filter (fun t => t.ask != q.key) } }

/-- The requests of some agents are gone: what is known of them is forgotten. -/
def State.forgetTickets (s : State) (gone : Ticket → Bool) : State :=
  { s with lin := { s.lin with tickets := s.lin.tickets.filter (fun t => !gone t) } }

/-- Is a line in the write-back buffer with every sector of a range: does its entry serve the range (R241)? -/
def State.inBuffer (s : State) (a len : Nat) : Bool :=
  s.lin.writeBack.any (fun e => e.1 == a / 128) && (secsOf a len).all (fun b => (s.sec b).v)

/-- The sectors that an access has to fetch first (R228). -/
def State.missing (s : State) (q : Ask) : List Nat :=
  let cut := sectorCuts q.addr q.len
  let cut := if q.kind = .write then cut.filter (fun c => c.2 != 32) else cut
  (cut.map (fun c => c.1 / 32 * 32)).filter (fun b => !(s.sec b).v)

/-- The sectors that an access has fetched at its stack: those it lacks, and a clean one found bad (R243). -/
def State.refetched (s : State) (q : Ask) : List Nat :=
  s.missing q ++ (if q.kind = .write then []
    else (secsOf q.addr q.len).filter (fun b =>
      let x := s.sec b
      x.v && !x.dirty && x.outcome q.ecc == .bad))

/-- Is a read served by a copy on the die of the core that reads (R230)? -/
def State.copyServes (s : State) (p : Nat) (q : Ask) : Bool :=
  let die := s.agentDie q.agent
  decide (q.kind = .read) && isCore q.agent && decide (die ≠ (s.home p (q.addr / 128)).1 / 256) &&
    (match s.line (q.addr / 128), mfind s.lin.copies (8 * (q.addr / 128) + die) with
     | some y, some c => !y.recalling && (secsOf q.addr q.len).all (fun b => bitOf c.mask (b % 128 / 32))
     | _, _ => false)

/-- Does an access join, or wait for, a fetch in flight of its line (R229, Table 10.3)? -/
def State.awaitsFill (s : State) (y : Line) (q : Ask) : Bool :=
  (secsOf q.addr q.len).any (fun b => mhas y.fills (b % 128 / 32) && (decide (q.kind ≠ .read) || !(s.sec b).v))

/-- Is a packet between two dies held because dowel traffic has not started: step 2 has not ended (R459, Table 21.1)? -/
def State.dowelHolds (s : State) (a b : Nat) : Bool := a != b && !s.brup.ended.contains 2

/-- Does an access wait at its slice or stack (R229, R231, R232, R239 to R241, R272), or for dowel traffic to start (R459)? -/
def State.slotWaits (s : State) (q : Ask) (victim : Option Nat) : Bool :=
  let t := s.ticket q
  match s.target q.agent q.part q.addr with
  | .idle => s.dowelHolds (s.agentDie q.agent) (s.stackOf q.addr / 2) || s.stackKeeps q.addr t
  | .cached p =>
    let l := q.addr / 128
    let sl := (s.home p l).1
    if s.copyServes p q && q.ecc != .uncorrectable then false
    else
      let fetch := decide (s.refetched q ≠ []) && s.stackKeeps q.addr t
      match s.line l with
      | some y =>
        y.recalling || (decide (q.kind ≠ .read) && decide (y.sharers ≠ 0)) ||
          (decide (q.kind = .update) && (s.queuedBefore y q || (decide (128 ≤ s.heldAt sl) && !y.held.contains (.place q.key)))) ||
          s.awaitsFill y q ||
          (decide (s.missing q ≠ []) && y.fills.isEmpty && decide (64 ≤ s.missEntries sl)) || fetch
      | none =>
        !s.inBuffer q.addr q.len &&
          (s.allocWaits p l victim || (decide (s.missing q ≠ []) && decide (64 ≤ s.missEntries sl)) || fetch)
  | _ => false

/-- The points of R329 that an access passes: its slice, and its stack where it fetches. -/
def State.pointsOf (s : State) (q : Ask) : List Nat :=
  match s.target q.agent q.part q.addr with
  | .pinned => [12 + winSlice q.addr / 256]
  | .cached p =>
    if s.copyServes p q && q.ecc != .uncorrectable then []
    else (12 + (s.home p (q.addr / 128)).1 / 256) :: (if s.missing q = [] then [] else [s.stackOf q.addr])
  | _ => []

/-- Has an access a way to its slice and back (R328)? -/
def State.routed (s : State) (q : Ask) : Bool :=
  let die := match s.target q.agent q.part q.addr with
    | .pinned => winSlice q.addr / 256
    | .cached p => (s.home p (q.addr / 128)).1 / 256
    | _ => s.stackOf q.addr / 2
  (s.route (s.agentDie q.agent) die 11).isSome && (s.route die (s.agentDie q.agent) 11).isSome

/-- Does a regulator defer an access (R332)? -/
def State.deferred (s : State) (q : Ask) : Bool := (s.pointsOf q).any (fun n => s.defers q.part (masterId q.agent) n)

/-- Where a request stands in the order of service at its first point: urgency 3; entries under their guarantee; urgency 2, then 1;
the others, round-robin by master id from behind the master served last there (R333, R334). -/
def State.rank (s : State) (q : Ask) : Nat :=
  let point := ((s.pointsOf q).head?).getD 0
  let m := masterId q.agent
  let u := s.urgencyOf m
  let under := match s.entryOf q.part m point with
    | some i => decide ((s.regul i point).served < s.guarEff i point)
    | none => false
  if u = 3 then 0 else if under then 1 else if u ≠ 0 then 4 - u else 4 + (m + 0x200 - mget s.net.turn point 0 - 1) % 0x200

/-- Does another request that waits at the first point of this one, and could go, stand before it (R333)? The device's own accesses
stand in no order. -/
def State.outranked (s : State) (q : Ask) : Bool :=
  match s.pointsOf q with
  | [] => false
  | n :: _ =>
    decide (masterId q.agent < 0x100) && s.lin.tickets.any (fun t =>
      t.ask != q.key && (s.pointsOf t.ask).head? == some n && decide (s.rank t.ask < s.rank q) &&
        s.routed t.ask && !s.deferred t.ask && !s.slotWaits t.ask none)

/-- Does an access to one line wait? One without a route fails at once. -/
def State.lineWaits (s : State) (q : Ask) (victim : Option Nat) : Bool :=
  s.routed q && (s.deferred q || s.slotWaits q victim || s.outranked q)

/-- A request of a master outside the order of R333's first tiers has been served at a point: the turn passes on. -/
def State.turnAt (s : State) (q : Ask) : State :=
  match s.pointsOf q with
  | n :: _ => if 4 ≤ s.rank q ∧ masterId q.agent < 0x100 then
      { s with net := { s.net with turn := mset s.net.turn n (masterId q.agent) 0 } }
    else s
  | [] => s

/-- A line enters RECALL: an invalidation goes to every die in SHARERS (R232, R312). -/
def State.recallLine (s : State) (l : Nat) : State :=
  match s.line l with
  | some y =>
    if y.recalling then s
    else (setBits y.sharers 6).foldl (fun u d => u.cast y.die d 2 0) (s.lineSet l { y with recalling := true })
  | none => s

/-- The lookup of a request that its home slice has looked at counted, unless it has been (R249); a hit of its line with it
(R250). -/
def State.lookedUp (s : State) (q : Ask) (p : Nat) : State :=
  if ((s.ticket q).map (·.counted)).getD false then s
  else
    let l := q.addr / 128
    let secs := secsOf q.addr q.len
    let found := (secs.filter (fun b => (s.sec b).v)).length
    let s := s.countLookup ((s.home p l).1 / 256) (s.trafficClass q.agent (128 * l)) found secs.length
    if found = secs.length then s.lineMap l (fun y => { y with hit := true }) else s

/-- A request waits at the stopped stack of its address from now on, if it does not yet (R272). -/
def State.stopAt (s : State) (q : Ask) : State :=
  s.note q (fun t => { t with stop := some (t.stop.getD (s.stackOf q.addr, s.now)) })

/-- What a request sets going that waits at a line that is present: it recalls the copies, takes its place among the updates, and,
where a fetch in flight holds it up, has been looked up (R229, R232, R239, R249). -/
def State.waitAtLine (s : State) (q : Ask) (p : Nat) (y : Line) : State :=
  let l := q.addr / 128
  let s := if q.kind ≠ .read ∧ y.sharers ≠ 0 then s.recallLine l else s
  if y.recalling then s
  else
    let s := if q.kind = .update ∧ !y.held.contains (.place q.key) ∧ s.heldAt (256 * y.die + y.slice) < 128 then
        s.lineMap l (fun y => { y with held := y.held ++ [.place q.key] })
      else s
    if s.awaitsFill y q then (s.lookedUp q p).note q (fun t => { t with counted := true }) else s

/-- What an access that waits sets going: it waits at its regulators, recalls the copies of its line or of its victim, or waits
at its stack (R232, R272, R332, R333). -/
def State.lineBegin (s : State) (q : Ask) (victim : Option Nat) : State :=
  let m := masterId q.agent
  let pts := s.pointsOf q
  let late := pts.filter (fun n => s.defers q.part m n)
  let s := s.note q (fun t => { t with holds := pts.filterMap (fun n => (s.entryOf q.part m n).map (fun i => (i, n))) })
  if !late.isEmpty then late.foldl (fun u n => u.regDefer q.part m n) s
  else
    let s := match s.target q.agent q.part q.addr with
      | .cached p =>
        match s.line (q.addr / 128) with
        | some y => s.waitAtLine q p y
        | none =>
          if s.inBuffer q.addr q.len then s
          else match s.pickWay (s.home p (q.addr / 128)).1 (s.home p (q.addr / 128)).2 victim with
            | .line v _ => if ((s.line v).map (·.sharers)).getD 0 ≠ 0 then s.recallLine v else s
            | _ => s
      | _ => s
    if s.stackKeeps q.addr (s.ticket q) && (s.target q.agent q.part q.addr == .idle || !(s.refetched q).isEmpty) then
      s.stopAt q
    else s

/-- The copies still to be placed, with another among them (R230). -/
def State.copyLater (s : State) (key mask : Nat) : State :=
  { s with lin := { s.lin with copyDue := mput s.lin.copyDue key (mget s.lin.copyDue key 0 ||| mask) } }

/-- A copy of sectors of a line of `Pp` on a die: those that are clean at home now. Its slice and set are chosen by a hash over the
partition's slices there; where its way is not yet to be had, the copies of the victim are recalled, or its write-back awaited, and
the copy is placed later (R230, R232, R241). -/
def State.copyTo (s : State) (p l die mask : Nat) : State :=
  let own := (setBits (s.ptn.running.sliceMask p) 1536).filter (fun i => i / 256 == die)
  let clean := (lineSecs l).filter (fun b => bitOf mask (b % 128 / 32) && (s.sec b).v && !(s.sec b).dirty && !(s.sec b).poison)
  let mask := clean.foldl (fun m b => m ||| 2 ^ (b % 128 / 32)) 0
  match s.line l with
  | none => s
  | some y =>
    if own.isEmpty || mask = 0 || y.recalling then s
    else
      let y := { y with sharers := y.sharers ||| 2 ^ die }
      match mfind s.lin.copies (8 * l + die) with
      | some c =>
        ({ s with lin := { s.lin with copies := mput s.lin.copies (8 * l + die) { c with mask := c.mask ||| mask } } }).lineSet l y
      | none =>
        let h := Config.copyHash (s.part p).hashGen l die
        let sl := own.getD (h % own.length) 0
        let st := h / own.length % 3072
        let w := s.pickWay sl st none
        match w with
        | .line v _ =>
          if v = l then s
          else if s.holdsWay sl w then
            (if ((s.line v).map (·.sharers)).getD 0 ≠ 0 then s.recallLine v else s).copyLater (8 * l + die) mask
          else
            let u := s.takeWay w
            ({ u with lin := { u.lin with copies := mput u.lin.copies (8 * l + die) ⟨sl, st, w.way, mask⟩ } }).lineSet l y
        | .none => s.copyLater (8 * l + die) mask
        | _ =>
          let u := s.takeWay w
          ({ u with lin := { u.lin with copies := mput u.lin.copies (8 * l + die) ⟨sl, st, w.way, mask⟩ } }).lineSet l y

/-- A copy of the sectors that a core has read across dies, where R230 keeps one. -/
def State.placeCopy (s : State) (agent : Agent) (p l cls : Nat) (secs : List Nat) : State :=
  let die := s.agentDie agent
  match s.line l with
  | none => s
  | some y =>
    if !isCore agent || die == y.die || !bitOf (s.ptn.running.replicate p) cls || decide (3 ≤ cls) then s
    else s.copyTo p l die (secs.foldl (fun m b => m ||| 2 ^ (b % 128 / 32)) 0)

/-- The copies still to be placed are tried again. -/
def State.copiesDue (s : State) : State :=
  s.lin.copyDue.foldl (fun u e =>
    match u.spanOwner (128 * (e.1 / 8)) with
    | some p => u.copyTo p (e.1 / 8) (e.1 % 8) e.2
    | none => u) { s with lin := { s.lin with copyDue := [] } }

/-- An access performed at the home slice of its line, which is present or in the write-back buffer, every wait over: code, bytes
read or the old bytes, state (R228 to R232, R238, R242). -/
def State.serve (s : State) (agent : Agent) (p a len : Nat) (act : Act) (ecc : Ecc) : Nat × List Byte × State :=
  let l := a / 128
  let sl := (s.home p l).1
  match act with
  | .read =>
    let secs := secsOf a len
    let (c, s) := secs.foldl (fun (x : Nat × State) b =>
      let (c, u) := x.2.needSector p sl b (if b = a / 32 * 32 then ecc else .clean)
      (if x.1 = 0 then c else x.1, u)) (0, s)
    if c ≠ 0 then (c, [], s)
    else (0, s.linBytes a len, s.placeCopy agent p l (s.trafficClass agent (128 * l)) secs)
  | .write bs =>
    let (c, s, _) := (sectorCuts a len).foldl (fun (x : Nat × State × List Byte) q =>
      let b := q.1 / 32 * 32
      let (c, u) := if q.2 = 32 || (x.2.1.sec b).v then (0, x.2.1) else x.2.1.needSector p sl b ecc
      (if x.1 = 0 then c else x.1,
       if c = 0 then u.storeSector sl b (q.1 % 32) (x.2.2.take q.2) true else u,
       x.2.2.drop q.2)) (0, s, bs)
    (c, [], s.notify (sl / 256) a len)
  | .update f => s.modify p sl a len f ecc true

/-- A request is taken by the home slice of its line: its lookup is counted, its bytes and those it fetches are charged, and it no
longer waits (R249, R250, R332, R333). -/
def State.takenIn (s : State) (q : Ask) (p : Nat) : State :=
  let sl := (s.home p (q.addr / 128)).1
  let miss := (s.missing q).length
  let s := (s.turnAt q).lookedUp q p
  let s := s.charge q.part (masterId q.agent) (12 + sl / 256)
    (if q.kind = .read then 32 * (secsOf q.addr q.len).length else q.len)
  (if miss = 0 then s else s.charge q.part (masterId q.agent) (s.stackOf q.addr) (32 * miss)).unticket q

/-- A request and its answer cross between their dies: false without a route either way (R312, R328). -/
def State.crossed (s : State) (a b up down : Nat) : Bool × State :=
  let (ok, s) := s.carry a b 0 up
  if ok then s.carry b a 1 down else (false, s)

/-- Is an address in a remote window? -/
def isRemote (a : Nat) : Bool := decide (Config.remBase ≤ a ∧ a < Config.remEnd)

/-- An access that cannot go on stops the command that makes it (see `State.together`). -/
def State.stick (s : State) (q : Ask) : State :=
  if s.lin.stuck.isSome then s else { s with lin := { s.lin with stuck := some q } }

/-- The bytes that a request carries to its slice, and those of its answer. -/
def Act.sizes (act : Act) (len : Nat) : Nat × Nat :=
  match act with
  | .read => (0, len)
  | .write _ => (len, 0)
  | .update _ => (len, len)

/-- One access inside one line, performed whole at its home slice, its copy, its pinned way or its controller: code, bytes read
(or the old bytes of an update), state. -/
def State.lineAccess (s : State) (agent : Agent) (part : Option Nat) (a len : Nat) (act : Act) (ecc : Ecc)
    (victim : Option Nat) : Nat × List Byte × State :=
  let q : Ask := ⟨agent, part, a, len, act.kind, ecc⟩
  let from_ := s.agentDie agent
  match s.target agent part a with
  | .fails c => (c, [], s.unticket q)
  | .remote => (eLinkDown, [], s)
  | .idle =>
    let (ok, s) := s.crossed from_ (s.stackOf a / 2) (act.sizes len).1 (act.sizes len).2
    if !ok then (eLinkDown, [], s.unticket q)
    else if s.lineWaits q victim then (eTimeout, [], s.stick q)
    else let s := s.unticket q; match act with
    | .write bs =>
      let (c, s, _) := (sectorCuts a len).foldl (fun (x : Nat × State × List Byte) q =>
        let (c, u) := x.2.1.hbmMerge q.1 (x.2.2.take q.2) ecc
        (if x.1 = 0 then c else x.1, u, x.2.2.drop q.2)) (0, s, bs)
      (c, [], s)
    | _ =>
      let (c, bs, s) := (sectorCuts a len).foldl (fun (x : Nat × List Byte × State) q =>
        let (c, bs, u) := x.2.2.hbmRead (q.1 / 32 * 32) ecc
        (if x.1 = 0 then c else x.1, x.2.1 ++ ((bs.drop (q.1 % 32)).take q.2), u)) (0, [], s)
      match act with
      | .update f =>
        if c ≠ 0 then (c, [], s)
        else
          let s := ((sectorCuts a len).foldl (fun (x : State × List Byte) q =>
            ((x.1.hbmMerge q.1 (x.2.take q.2) .clean).2, x.2.drop q.2)) (s, f bs)).1
          (0, bs, s)
      | _ => (c, bs, s)
  | .pinned =>
    let sl := winSlice a
    let p := part.getD 0
    let (ok, s) := s.crossed from_ (sl / 256) (act.sizes len).1 (act.sizes len).2
    if !ok then (eLinkDown, [], s.unticket q)
    else if s.lineWaits q victim then (eTimeout, [], s.stick q)
    else
      let s := (((s.turnAt q).countPinned sl).charge part (masterId agent) (12 + sl / 256)
        (if q.kind = .read then 32 * (secsOf a len).length else len)).unticket q
      match act with
      | .read =>
        let (c, s) := (secsOf a len).foldl (fun (x : Nat × State) b =>
          let (c, u) := x.2.needPinned p sl b (if b = a / 32 * 32 then ecc else .clean)
          (if x.1 = 0 then c else x.1, u)) (0, s)
        (c, if c = 0 then s.linBytes a len else [], s)
      | .write bs =>
        (0, [], (((sectorCuts a len).foldl (fun (x : State × List Byte) q =>
          (x.1.storeSector sl (q.1 / 32 * 32) (q.1 % 32) (x.2.take q.2) false, x.2.drop q.2)) (s, bs)).1).notify (sl / 256) a len)
      | .update f => s.modify p sl a len f ecc false
  | .cached p =>
    let l := a / 128
    let n := (secsOf a len).length
    let home := (s.home p l).1 / 256
    if s.copyServes p q && ecc != .uncorrectable then
      let s := (s.countLookup from_ (s.trafficClass agent (128 * l)) n n).unticket q
      (0, s.linBytes a len, if ecc == .correctable then
        s.linCorrected (((mfind s.lin.copies (8 * l + from_)).map (·.slice)).getD 0) else s)
    else
      let bad := s.copyServes p q
      let s := if bad then { s with lin := { s.lin with copies := mdel s.lin.copies (8 * l + from_) } } else s
      let (ok, s) := s.crossed from_ home (act.sizes len).1 (act.sizes len).2
      if !ok then (eLinkDown, [], s.unticket q)
      else if s.lineWaits q victim then (eTimeout, [], s.stick q)
      else
        let s := if s.inBuffer a len then s else s.allocLine p l victim
        (s.takenIn q p).serve agent p a len act (if bad then .clean else ecc)

/-! ## Accesses of any length -/

/-- A read of `len` bytes (code of the first failure, bytes, state). -/
def State.memRead (s : State) (agent : Agent) (part : Option Nat) (a len : Nat) (ecc : Ecc) : Nat × List Byte × State :=
  (lineCuts a len).foldl (fun (x : Nat × List Byte × State) q =>
    let (c, bs, u) := x.2.2.lineAccess agent part q.1 q.2 .read (if q.1 = a then ecc else .clean) none
    (if x.1 = 0 then c else x.1, x.2.1 ++ (if c = 0 then bs else List.replicate q.2 0), u)) (0, [], s)

/-- A write of bytes (code of the first failure, state): the parts that do not fail are written. -/
def State.memWrite (s : State) (agent : Agent) (part : Option Nat) (a : Nat) (bs : List Byte) (ecc : Ecc) : Nat × State :=
  let r := (lineCuts a bs.length).foldl (fun (x : Nat × State × List Byte) q =>
    let (c, _, u) := x.2.1.lineAccess agent part q.1 q.2 (.write (x.2.2.take q.2)) (if q.1 = a then ecc else .clean) none
    (if x.1 = 0 then c else x.1, u, x.2.2.drop q.2)) (0, s, bs)
  (r.1, r.2.1)

/-- An update of `len` bytes inside one line (code, old bytes, state). -/
def State.memUpdate (s : State) (agent : Agent) (part : Option Nat) (a len : Nat) (f : List Byte → List Byte) (ecc : Ecc) :
    Nat × List Byte × State :=
  s.lineAccess agent part a len (.update f) ecc none

/-- A reduction (R238): a reserved code fails with E_BOUNDS. -/
def State.memReduce (s : State) (agent : Agent) (part : Option Nat) (a code : Nat) (bs : List Byte) (ecc : Ecc) : Nat × State :=
  if !reduceValid code then (eBounds, s)
  else if !reduceFits code a bs.length then (eAlign, s)
  else
    let (c, _, u) := s.memUpdate agent part a bs.length (reduceBytes code (reduceWidth code) bs) ecc
    (c, u)

/-- The line parts of an access. -/
def Ask.lines (q : Ask) : List Ask := (lineCuts q.addr q.len).map (fun c =>
  { q with addr := c.1, len := c.2, ecc := if c.1 = q.addr then q.ecc else .clean })

/-- Does some line of some accesses wait? -/
def State.asksWait (s : State) (qs : List Ask) : Bool := qs.any (fun q => q.lines.any (fun l => s.lineWaits l none))

/-- What the lines that wait set going. -/
def State.asksBegin (s : State) (qs : List Ask) : State :=
  (qs.map Ask.lines).flatten.foldl (fun u l => if u.lineWaits l none then u.lineBegin l none else u) s

/-- Does some line of an access wait? -/
def State.memWaits (s : State) (agent : Agent) (part : Option Nat) (a len : Nat) (kind : AccKind) (ecc : Ecc) : Bool :=
  s.asksWait [⟨agent, part, a, len, kind, ecc⟩]

/-- What the lines of an access that wait set going. -/
def State.memBegin (s : State) (agent : Agent) (part : Option Nat) (a len : Nat) (kind : AccKind) (ecc : Ecc) : State :=
  s.asksBegin [⟨agent, part, a, len, kind, ecc⟩]

/-! ## The slice's own steps -/

/-- The bytes an access covers. -/
def opLen : LinOp → Nat
  | .read n => n
  | .write bs => bs.length
  | .reduce _ bs => bs.length

/-- What an access does. -/
def accAct (x : LinAccess) : Act :=
  match x.op with
  | .read _ => .read
  | .write bs => .write bs
  | .reduce code bs => .update (reduceBytes code.toNat (reduceWidth code.toNat) bs)

/-- What it asks. -/
def accAsk (x : LinAccess) : Ask := ⟨x.agent, some x.part.val, x.addr.toNat, opLen x.op, (accAct x).kind, x.ecc⟩

/-- The line it gives up. -/
def accGives (x : LinAccess) : Option Nat := x.victim.map (fun v => v.toNat / 128)

/-- A reduction that fails before it reaches memory (R238). -/
def accBad (x : LinAccess) : Nat :=
  match x.op with
  | .reduce code bs =>
    if !reduceValid code.toNat then eBounds else if !reduceFits code.toNat x.addr.toNat bs.length then eAlign else 0
  | _ => 0

/-- An access put aside until the slice, the stack or the regulator can take it (R229, R239, R240, R332). -/
def State.block (s : State) (x : LinAccess) : State :=
  let s := s.lineBegin (accAsk x) (accGives x)
  { s with lin := { s.lin with blocked := s.lin.blocked ++ [x] } }

/-- An access made whole: the answer holds code and data. -/
def State.perform (s : State) (x : LinAccess) : State :=
  let q := accAsk x
  let (c, bs, u) := s.lineAccess q.agent q.part q.addr q.len (accAct x) x.ecc (accGives x)
  u.answer { code := c, data := if q.kind = .read then bs else [] }

/-- An access that its slice has taken performed, and answered. -/
def State.deliver (s : State) (p : Nat) (x : LinAccess) : State :=
  let q := accAsk x
  let (c, bs, u) := s.serve q.agent p q.addr q.len (accAct x) .clean
  u.answer { code := c, data := if q.kind = .read then bs else [] }

/-- An access joins the fetches of the sectors it lacks (R229). -/
def joinFills (fills : List (Nat × List LinAccess)) (x : LinAccess) : List Nat → List (Nat × List LinAccess)
  | [] => fills
  | b :: bs =>
    joinFills (mset fills (b % 128 / 32) (mget fills (b % 128 / 32) [] ++ [x]) []) x bs

/-- The sectors of an access that are fetched, or are on their way, before it can be performed (R228, R229, Table 10.3). -/
def State.awaited (s : State) (q : Ask) : List Nat :=
  let miss := s.missing q
  let fills := ((s.line (q.addr / 128)).map (·.fills)).getD []
  miss ++ (if q.kind = .read then []
    else (secsOf q.addr q.len).filter (fun b => mhas fills (b % 128 / 32) && !miss.contains b))

/-- The fetches of some sectors leave the slice of a die: false where one of them finds no route (R228, R328). -/
def State.fetchGo (s : State) (die : Nat) (secs : List Nat) : Bool × State :=
  secs.foldl (fun (x : Bool × State) b =>
    let (ok, u) := x.2.carry die (x.2.stackOf b / 2) 0 0
    (x.1 && ok, u)) (true, s)

/-- An access that its slice has taken goes on (R228, R229, R232, R239): an update is queued; a write recalls copies first; what
it lacks is fetched, and where that finds no route the access fails (R328). -/
def State.proceed (s : State) (p : Nat) (x : LinAccess) : State :=
  let q := accAsk x
  let l := q.addr / 128
  let y := (s.line l).getD {}
  let need := s.awaited q
  if q.kind = .update then s.lineMap l (fun y => { y with held := y.held ++ [.access x] })
  else if q.kind = .write ∧ y.sharers ≠ 0 then (s.recallLine l).lineMap l (fun y => { y with due := y.due ++ [x] })
  else if need.isEmpty then s.deliver p x
  else
    let (ok, s) := s.fetchGo y.die (need.filter (fun b => !mhas y.fills (b % 128 / 32)))
    if ok then s.lineMap l (fun y => { y with fills := joinFills y.fills x need }) else s.answer { code := eLinkDown }

/-- An access arrives at its home slice (R228 to R232, R239): it waits for a recall, a way, a miss entry, a place in the queue
or its regulators, or is taken. -/
def State.arriveHome (s : State) (x : LinAccess) (p : Nat) : State :=
  let q := accAsk x
  let l := q.addr / 128
  let sl := (s.home p l).1
  if !s.routed q || s.copyServes p q || s.inBuffer q.addr q.len then
    if s.lineWaits q (accGives x) then s.block x else s.perform x
  else if ((s.line l).map (·.recalling)).getD false then s.lineMap l (fun y => { y with waits := y.waits ++ [x] })
  else if s.deferred q || s.outranked q || s.allocWaits p l (accGives x) || (q.kind == .update && decide (128 ≤ s.heldAt sl)) then s.block x
  else
    let s := s.allocLine p l (accGives x)
    let y := (s.line l).getD {}
    if !(s.missing q).isEmpty && y.fills.isEmpty && decide (64 ≤ s.missEntries sl) then s.block x
    else if (s.awaited q).isEmpty && q.kind == .read then
      if s.slotWaits q (accGives x) then s.block x else s.perform x
    else if decide ((s.refetched q).length ≠ (s.missing q).length) && s.stackHolds q.addr then s.block x
    else
      let here := if q.kind = .read then (secsOf q.addr q.len).filter (fun b => (s.sec b).v) else []
      let present := here.length
      let s := s.takenIn q p
      let (c, s) := here.foldl (fun (y : Nat × State) b => if y.1 ≠ 0 then y else y.2.needSector p sl b x.ecc) (0, s)
      if c ≠ 0 then s.answer { code := c }
      else
      let s := s.cast (s.agentDie q.agent) (sl / 256) 0 ((accAct x).sizes q.len).1
      let s := if q.kind = .read && present = 0 then s
        else s.cast (sl / 256) (s.agentDie q.agent) 1 (if q.kind = .read then 32 * present else 0)
      s.proceed p x

/-- An access reaches the lining (R224). -/
def State.arrive (s : State) (x : LinAccess) : State :=
  let q := accAsk x
  let s := if 0x4A ≤ masterId x.agent then s.urge (masterId x.agent) x.urgency.toNat else s
  if accBad x ≠ 0 then s.answer { code := accBad x }
  else match s.target x.agent q.part q.addr with
  | .fails c => (s.unticket q).answer { code := c }
  | .remote => s
  | .cached p => s.arriveHome x p
  | _ => if s.lineWaits q none then s.block x else s.perform x

/-- The order in which accesses that wait are served: by rank, round-robin among the last; those of one master in their order
(R332, R333). -/
def State.serveOrder (s : State) (xs : List LinAccess) : List LinAccess :=
  let key := fun (i : Nat) (x : LinAccess) =>
    let before := ((xs.take i).filter (fun y => masterId y.agent == masterId x.agent)).length
    let r := s.rank (accAsk x)
    if r < 4 then r else 2 ^ 40 + before * 2 ^ 20 + r
  ((List.range xs.length).zip xs).foldl (fun (acc : List (Nat × LinAccess)) e =>
    let k := key e.1 e.2
    acc.takeWhile (fun f => decide (f.1 ≤ k)) ++ (k, e.2) :: acc.dropWhile (fun f => decide (f.1 ≤ k))) []
    |>.map (·.2)

/-- Accesses that were put aside try again, in the order of R333, and copies that found no way. -/
def State.retryBlocked (s : State) : State :=
  (s.serveOrder s.lin.blocked).foldl State.arrive ({ s with lin := { s.lin with blocked := [] } }.copiesDue)

/-- LINING_ACCESS: an access reaches its home slice or pinned way (R224). -/
def execLiningAccess (x : LinAccess) (s : State) : Res := .next (s.arrive x)

/-- The reads among accesses. -/
def readsOf (xs : List LinAccess) : List LinAccess := xs.filter (fun x => decide ((accAsk x).kind = .read))

/-- The request under whose name a fetch in flight waits at its stack. -/
def fillAsk (b : Nat) (joined : List LinAccess) : Ask :=
  match joined with
  | x :: _ => { accAsk x with addr := b, len := 32, kind := .read }
  | [] => ⟨.device, none, b, 32, .read, .clean⟩

/-- An access whose last sector has come: a read whose answer finds no route back fails (R229, R328). -/
def State.filled (s : State) (die : Nat) (x : LinAccess) : State :=
  let q := accAsk x
  if q.kind = .read ∧ (s.route die (s.agentDie q.agent) 11).isNone then
    (s.cast die (s.agentDie q.agent) 1 0).answer { code := eLinkDown }
  else s.proceed x.part.val x

/-- SECTOR_FILL: a fetched sector returns, is installed unless a write made it valid, and goes to every access that joined
it in one multicast; a failure goes to each of them and installs nothing (R229, R259, R314). At a stopped stack the fetch waits
(R272). -/
def execSectorFill (line : BitVec 48) (sector : Fin 4) (ecc : Ecc) (s : State) : Res :=
  let l := line.toNat / 128
  let b := 128 * l + 32 * sector.val
  .next (match s.line l with
    | none => s
    | some y =>
      if !mhas y.fills sector.val then s
      else if !(s.sec b).v && s.stackKeeps b (s.ticket (fillAsk b (mget y.fills sector.val []))) then
        s.stopAt (fillAsk b (mget y.fills sector.val []))
      else
        let joined := mget y.fills sector.val []
        let s := s.unticket (fillAsk b joined)
        let (c, bs, u) := if (s.sec b).v then (0, [], s) else s.hbmRead b ecc
        let (ok, u) := if (s.sec b).v then (true, u) else u.carry (u.stackOf b / 2) y.die 1 (if c = 0 then 32 else 0)
        let c := if ok then c else eLinkDown
        let u := if c = 0 && !(s.sec b).v then u.install b bs else u
        let left := mdel y.fills sector.val
        let left := if c = 0 then left
          else (left.map (fun e => (e.1, e.2.filter (fun x => !joined.contains x)))).filter (fun e => !e.2.isEmpty)
        let u := u.lineMap l (fun z => { z with fills := left })
        let u := u.multicast y.die ((readsOf joined).map (fun x => u.agentDie x.agent)) 1 (if c = 0 then 32 else 0)
        let u := joined.foldl (fun v x =>
          if c ≠ 0 then v.answer { code := c }
          else if left.any (fun e => e.2.contains x) then v
          else v.filled y.die x) u
        u.retryBlocked)

/-- UPDATE_PERFORM: the update at the head of a line's queue is performed; copies are recalled first (R232, R239). The update of
another requester is performed by that requester's own command. -/
def execUpdatePerform (line : BitVec 48) (s : State) : Res :=
  let l := line.toNat / 128
  .next (match s.line l with
    | none => s
    | some y =>
      if y.recalling then s
      else match s.heldOf y with
        | .access x :: rest =>
          let q := { accAsk x with kind := .read }
          if y.sharers ≠ 0 then s.recallLine l
          else if s.slotWaits q none then
            (if s.stackKeeps q.addr (s.ticket q) && !(s.refetched q).isEmpty then s.stopAt q else s)
          else (((s.unticket q).performHeld y x).lineMap l (fun z => { z with held := rest })).retryBlocked
        | _ => s)

/-- The copies of a line invalidated and acknowledged, but for those at a die that no route reaches or leaves: those stay in SHARERS
(R232, R328). -/
def State.copiesGone (s : State) (l : Nat) (y : Line) : State :=
  (setBits y.sharers 6).foldl (fun (u : State) d =>
    let there := (u.route y.die d 11).isSome
    let (ok, u) := if there then u.carry d y.die 2 0 else (false, u)
    if ok then
      { u with lin := { u.lin with copies := mdel u.lin.copies (8 * l + d) } }.lineMap l (fun z => { z with
        sharers := z.sharers &&& (2 ^ 6 - 1 - 2 ^ d) })
    else u) s

/-- RECALL_COMPLETE: every copy is invalid and acknowledged, SHARERS is clear, and the accesses that waited go on (R232). Where an
invalidation or its acknowledgement has no route (R328), the line stays in RECALL (DESIGN CHOICE, log entry 65). -/
def execRecallComplete (line : BitVec 48) (s : State) : Res :=
  let l := line.toNat / 128
  .next (match s.line l with
    | none => s
    | some y =>
      if !y.recalling then s
      else
        let u := s.copiesGone l y
        if ((u.line l).map (·.sharers)).getD 0 ≠ 0 then u
        else
          let u := u.lineSet l { y with recalling := false, sharers := 0, waits := [], due := [] }
          let u := y.due.foldl (fun v x => v.proceed x.part.val x) u
          (y.waits.foldl (fun v x => v.arrive x) u).retryBlocked)

/-- WRITEBACK_ACCEPTED: the controller accepts a write-back and its entry frees (R241); a stopped stack takes none (R272). -/
def execWritebackAccepted (line : BitVec 48) (s : State) : Res :=
  let l := line.toNat / 128
  .next (match s.lin.writeBack.find? (fun e => e.1 == l) with
    | some e => (s.acceptWriteBack l e.2).retryBlocked
    | none => s)

/-- REGULATOR_WINDOW_START with the accesses deferred to it (R332): the window begins WINDOW µs after the last, or at
once. -/
def execRegulatorWindowStart (s : State) : Res :=
  .next ((s.at (s.net.windowAt + 1000 * s.ptn.running.regWindow)).regWindow.retryBlocked)

/-! ## Scrubbing and thrash -/

/-- What stands at a sweep position of a slice: a sector at its own address, or one of a copy, by the copy's key. -/
inductive Swept where
  | sector (a : Nat)
  | copied (key : Nat)
deriving DecidableEq, Repr

/-- The sector at a sweep position of a slice: way, set and sector in rising order (R244). -/
def State.sweepAddr (s : State) (sl pos : Nat) : Option Swept :=
  let w := pos / 12288
  let st := pos % 12288 / 4
  if (s.ptn.running.wayPin sl w).isSome then some (.sector (wayBase sl w + 128 * st + 32 * (pos % 4)))
  else match (s.setLines sl st).find? (fun e => e.2.way == w) with
    | some e => some (.sector (128 * e.1 + 32 * (pos % 4)))
    | none => match (s.setCopies sl st).find? (fun e => e.2.way == w) with
      | some e => if bitOf e.2.mask (pos % 4) then some (.copied e.1) else none
      | none => none

/-- A scrub of a sector of a copy: a bad one drops the copy (R243, R244). -/
def State.scrubCopy (s : State) (sl key : Nat) (ecc : Ecc) : State :=
  match ecc with
  | .clean => s
  | .correctable => s.linCorrected sl
  | .uncorrectable => { s with lin := { s.lin with copies := mdel s.lin.copies key } }

/-- A scrub of one sector (R244). -/
def State.scrub (s : State) (sl a : Nat) (ecc : Ecc) : State :=
  let x := s.sec a
  let part := if a < Config.hbmEnd then s.spanOwner a else (s.ptn.running.wayPin (winSlice a) (winWay a)).map (·.owner)
  if !x.v then s
  else match x.outcome ecc with
    | .good => if x.stale then s.secSeal a { x with stale := false } true else s
    | .corrected => s.linCorrected sl
    | .bad =>
      if a < Config.hbmEnd ∧ !x.dirty then
        let s := (s.secSet a {}).linCorrected sl
        if s.stackStopped a then s else (s.fetchSector sl a .clean).2
      else (s.secSet a { x with poison := true }).linUncorr sl a part

/-- SCRUB_TURN: the stale queue first, else the next sector of the sweep (R244). -/
def execScrubTurn (die : Fin 6) (slice : Fin 256) (ecc : Ecc) (s : State) : Res :=
  let sl := 256 * die.val + slice.val
  .next (if !s.rb Reg.LIN_SCRUB 0 then s
    else match mget s.lin.staleQ sl [] with
      | a :: rest => { s with lin := { s.lin with staleQ := mset s.lin.staleQ sl rest [] } }.scrub sl a ecc
      | [] =>
        let pos := mget s.lin.sweep sl 0
        let u := { s with lin := { s.lin with sweep := mset s.lin.sweep sl ((pos + 1) % 196608) 0 } }
        match s.sweepAddr sl pos with
        | some (.sector a) => u.scrub sl a ecc
        | some (.copied key) => u.scrubCopy sl key ecc
        | none => u)

/-- THRASH_WINDOW_END: the window's dead evictions are judged (R250). -/
def execThrashWindowEnd (die : Fin 6) (slice : Fin 256) (s : State) : Res :=
  let sl := 256 * die.val + slice.val
  let n := mget s.lin.dead sl 0
  let lim := s.ptn.running.thrashLimit sl
  let key := bank Reg.LIN_SLICE_THRASH sl
  let u := s.rfSet key 15 0 (min n 0xFFFF)
  let u := if u.rf key 31 16 < min n 0xFFFF then u.rfSet key 31 16 (min n 0xFFFF) else u
  let u := { u with lin := { u.lin with dead := mset u.lin.dead sl 0 0 } }
  .next (if lim ≠ 0 ∧ lim < n ∧ !u.lin.thrashed.contains sl then
      let u := { u with lin := { u.lin with thrashed := sl :: u.lin.thrashed } }
      let u := u.evSet (Reg.LIN_THRASH + 4 * (sl / 32)) (sl % 32)
      (u.err wThrash (unitId 3 sl) (u.ptn.running.sliceOwner sl) 0 0).raise 131
    else if n ≤ lim / 2 then { u with lin := { u.lin with thrashed := u.lin.thrashed.filter (· != sl) } }
    else u)

/-! ## Clearing, pinning, flushing -/

/-- Every sector and directory state of the module cleared (R245). -/
def State.clearLining (s : State) : State :=
  { s with lin := { s.lin with data := [], secs := [], lines := [], copies := [], writeBack := [], blocked := [],
                               staleQ := [], tickets := [], copyDue := [] } }

/-- LIN_CLEAR: before READY only (R247). -/
def execLinClear (f : Func) (s : State) : Res :=
  .next (s.inOrder f (.linClear f) (fun s =>
    (if isPf f && !s.tick.en && !s.lin.clearing then
        let u := s.clearLining
        { u with lin := { u.lin with clearing := true } }
      else s)))

/-- LIN_CLEAR_DONE: CLEAR_BUSY falls (R247). -/
def execLinClearDone (s : State) : Res := .next { s with lin := { s.lin with clearing := false } }

/-- The slices of a partition. -/
def Pat.slices (t : Pat) (p : Nat) : List Nat := setBits (t.sliceMask p) 1536

/-- Every sector of some slices cleared, DIRTY data discarded, copies and queues with them (R246). `p` is the partition
whose waiting accesses end. -/
def State.clearSlices (s : State) (p : Nat) (slices : List Nat) : State :=
  let gone := s.lin.lines.filter (fun e => slices.contains (256 * e.2.die + e.2.slice))
  let buf := s.lin.writeBack.filter (fun e => slices.contains e.2)
  let s := (gone.map (·.1) ++ buf.map (·.1)).foldl (fun u l => u.forgetLine l) s
  let s := slices.foldl (fun u sl => u.linClear (wayBase sl 0) 0x600000) s
  { s with lin := { s.lin with
      staleQ := s.lin.staleQ.filter (fun e => !slices.contains e.1)
      blocked := s.lin.blocked.filter (fun x => x.part.val != p)
      tickets := s.lin.tickets.filter (fun t => t.ask.part != some p) } }

/-- The DIRTY sectors of a partition's lines written back, where their stacks take them; the lines stay, CLEAN (R237). -/
def State.flushPart (s : State) (p : Nat) : State :=
  let mine := s.lin.lines.filter (fun e => decide (s.spanOwner (128 * e.1) = some p))
  let buf := s.lin.writeBack.filter (fun e => decide (s.spanOwner (128 * e.1) = some p))
  let s := mine.foldl (fun u e => u.writeDirty e.2.die e.1) s
  buf.foldl (fun u e => u.acceptWriteBack e.1 e.2) s

/-- Has a partition DIRTY sectors left? -/
def State.dirtyPart (s : State) (p : Nat) : Bool :=
  (s.lin.lines.map (·.1) ++ s.lin.writeBack.map (·.1)).any (fun l => s.spanOwner (128 * l) == some p && s.hasDirty l)

/-- The recall of a line's copies, whole: invalidations, unless they have been sent, and acknowledgements; the writes that waited
for it go on (R232). -/
def State.recallNow (s : State) (l : Nat) : State :=
  match s.line l with
  | none => s
  | some y =>
    let u := ((s.recallLine l).copiesGone l y).dropCopies l
    y.due.foldl (fun v x => v.proceed x.part.val x)
      (u.lineMap l (fun z => { z with recalling := false, sharers := 0, due := [] }))

/-- The update queue of a line drained in order, its copies recalled first (R232, R235, R239). What needs a sector that its
stopped stack does not deliver stays queued. -/
def State.drainHeld (s : State) (l : Nat) : State :=
  let u := s.recallNow l
  match u.line l with
  | none => u
  | some y =>
    let (u, left) := (u.heldOf y).foldl (fun (t : State × List Queued) h =>
      match h with
      | .access x =>
        if t.2.isEmpty && (t.1.refetched { accAsk x with kind := .read }).all (fun b => !t.1.stackStopped b) then
          (t.1.performHeld y x, [])
        else (t.1, t.2 ++ [h])
      | .place _ => t) (u, [])
    u.lineMap l (fun z => { z with held := left })

/-- The accesses of a line that goes: they arrive again once it is gone (R235; DESIGN CHOICE, log entry 65). -/
def Line.strands (y : Line) : List LinAccess :=
  ((y.fills.map (·.2)).flatten ++ y.due ++ y.held.filterMap (fun h => match h with
    | .access x => some x
    | .place _ => none) ++ y.waits).eraseDups

/-- A line leaves its way at a commit or a PIN with nothing lost: updates drained, DIRTY sectors written back, or on their way to a
stack that takes none, and its accesses put aside (R227, R235). -/
def State.leaveLine (s : State) (l : Nat) : State :=
  let u := s.drainHeld l
  match u.line l with
  | none => u
  | some y =>
    let u := ((u.writeDirty y.die l).lateDirty y.die l).forgetLine l
    { u with lin := { u.lin with blocked := u.lin.blocked ++ y.strands } }

/-- The lines of a partition at home, and its write-back entries. -/
def State.linesOf (s : State) (p : Nat) : List (Nat × Line) × List (Nat × Nat) :=
  (s.lin.lines.filter (fun e => decide (s.spanOwner (128 * e.1) = some p)),
   s.lin.writeBack.filter (fun e => decide (s.spanOwner (128 * e.1) = some p)))

/-- The lines of a partition written back and invalidated at a commit that moves their homes (R227). -/
def State.rehomeLines (s : State) (p : Nat) : State :=
  let (mine, buf) := s.linesOf p
  let s := mine.foldl (fun u e => u.leaveLine e.1) s
  buf.foldl (fun u e => ((u.acceptWriteBack e.1 e.2).lateDirty (e.2 / 256) e.1).forgetLine e.1) s

/-- The lines of a partition invalidated without write-back (R246, R269). -/
def State.dropLines (s : State) (p : Nat) : State :=
  let (mine, buf) := s.linesOf p
  (mine.map (·.1) ++ buf.map (·.1)).foldl (fun u l => u.forgetLine l) s

/-- The accesses at the lines of a partition put aside before the lines are dropped at a commit (R269). -/
def State.strandLines (s : State) (p : Nat) : State :=
  { s with lin := { s.lin with blocked := s.lin.blocked ++ ((s.linesOf p).1.map (fun e => e.2.strands)).flatten } }

/-- Slices whose pinned ways can differ between two patterns. -/
def relaySlices (old new : Pat) : List Nat :=
  ((old.regions ++ new.regions).map (fun r => (List.range r.count).map (fun i => 256 * r.die + r.first + i))).flatten.eraseDups

/-- The same region, field for field, but for its initial state. -/
def Region.same (a b : Region) : Bool := decide ({ a with init := false } = { b with init := false })

/-- The write-backs of R235, under the mapping in force before the change: each line whose way becomes pinned is lost,
its updates drained and its DIRTY sectors written back (`leaveLine`). -/
def State.relayOut (s : State) (old new : Pat) : State :=
  (relaySlices old new).foldl (fun u sl =>
    (List.range 16).foldl (fun v w =>
      if (old.wayPin sl w).isNone && (new.wayPin sl w).isSome then
        let v := { v with lin := { v.lin with copies := v.lin.copies.filter (fun e => !(e.2.slice == sl && e.2.way == w)) } }
        (v.lin.lines.filter (fun e => 256 * e.2.die + e.2.slice == sl && e.2.way == w)).foldl (fun x e => x.leaveLine e.1) v
      else v) u) s

/-- The ways whose pinning changed cleared (R235). -/
def State.relayClear (s : State) (old new : Pat) : State :=
  (relaySlices old new).foldl (fun u sl =>
    (List.range 16).foldl (fun v w =>
      let keep := match old.wayPin sl w, new.wayPin sl w with
        | some a, some b => a.same b
        | none, none => true
        | _, _ => false
      if keep then v else v.linClear (wayBase sl w) 0x60000) u) s

/-- LIN.PINRESULT written and DONE set (Table 10.16). -/
def State.pinResult (s : State) (code op : Nat) : State :=
  ((s.rfSet Reg.LIN_PINRESULT 15 0 code).rfSet Reg.LIN_PINRESULT 17 16 op).evSet Reg.LIN_PINRESULT 18

/-- Is a PINCMD refused for a basting that is SEWING or ARMED, or for a command under way (Table 10.4)? -/
def State.pinBusy (s : State) : Bool :=
  s.lin.pinCmd.isSome || s.lin.flushing.isSome || s.ptn.phase == .sewing || s.ptn.phase == .armed

/-- A PIN or UNPIN is taken, or ends at once (R236). -/
def State.pinRequest (s : State) (f : Func) (region : Nat) (isPin : Bool) : State :=
  let op := if isPin then 1 else 2
  let r := s.ptn.running.region region
  let origin := match vfPart f with
    | none => true
    | some p => p.val == r.owner
  if !s.speaks f then s
  else if s.pinBusy then s.pinResult ePtnInvalid op
  else if !r.valid || !r.dyn || !origin then s.pinResult ePerm op
  else { s with lin := { s.lin with pinCmd := some (isPin, region) } }

/-- PIN (R236). -/
def execPin (f : Func) (region : Fin 256) (s : State) : Res :=
  .next (s.inOrder f (.pin f region) (fun s =>
    s.pinRequest f region.val true))

/-- UNPIN (R236). -/
def execUnpin (f : Func) (region : Fin 256) (s : State) : Res :=
  .next (s.inOrder f (.unpin f region) (fun s =>
    s.pinRequest f region.val false))

/-- The pinned state of a region entry changed. -/
def Pat.setPin (t : Pat) (i : Nat) (on : Bool) : Pat :=
  let r := t.region i
  if !r.valid || !r.dyn then t
  else { t with pins := if on then (if t.pins.contains i then t.pins else insertSorted i t.pins) else t.pins.filter (· != i) }

/-- A pending PIN or UNPIN of a region of `Pp` takes effect, before the partition's tick program starts (R236). -/
def State.pinApply (s : State) (p : Nat) : State :=
  match s.lin.pinCmd with
  | none => s
  | some (isPin, i) =>
    let t := s.ptn.running
    let r := t.region i
    let op := if isPin then 1 else 2
    if r.owner ≠ p then s
    else
      let s := { s with lin := { s.lin with pinCmd := none } }
      if t.pins.contains i = isPin then s.pinResult 0 op
      else if isPin && (List.range r.count).any (fun k =>
          let sl := 256 * r.die + r.first + k
          decide (t.cap sl < t.waysPinned sl + r.ways)) then s.pinResult ePinCap op
      else
        let n := t.setPin i isPin
        let s := s.relayOut t n
        let s := s.deviceChange (fun q => q.setPin i isPin)
        (s.relayClear t n).pinResult 0 op

/-- A pending PIN or UNPIN cancelled (R236). -/
def State.pinCancel (s : State) : State :=
  match s.lin.pinCmd with
  | none => s
  | some (isPin, _) =>
    { s with lin := { s.lin with pinCmd := none } }.pinResult ePerm (if isPin then 1 else 2)

/-- FLUSH: the partition's DIRTY sectors go out (R237). -/
def execFlush (f : Func) (p : Fin 16) (s : State) : Res :=
  .next (s.inOrder f (.flush f p) (fun s =>
    (if !s.speaks f then s
      else if s.pinBusy then s.pinResult ePtnInvalid 3
      else if !(isPf f) && decide (vfPart f ≠ some p) then s.pinResult ePerm 3
      else
        let u := s.flushPart p.val
        { u with lin := { u.lin with flushing := some p } })))

/-- FLUSH_DONE: HBM has acknowledged every write (R237); while a stack takes none (R272) the flush runs on. -/
def execFlushDone (s : State) : Res :=
  .next (match s.lin.flushing with
    | some p =>
      let u := s.flushPart p.val
      if u.dirtyPart p.val then u else { u with lin := { u.lin with flushing := none } }.pinResult 0 3
    | none => s)

/-- An HBM address written to LIN.HOMEQ: LIN.HOMEQ_RES shows its home (Table 10.18). -/
def State.homeq (s : State) (a : Nat) : State :=
  let u := s.rg64Set Reg.LIN_HOMEQ a
  match (if a < s.capacity * 2 ^ 30 then s.spanOwner a else none) with
  | some p =>
    let (sl, st) := s.home p (a / 128)
    u.rgSet Reg.LIN_HOMEQ_RES (BitVec.ofNat 32 (sl % 256 + 2 ^ 8 * (sl / 256) + 2 ^ 11 + 2 ^ 12 * st))
  | none => u.rgSet Reg.LIN_HOMEQ_RES 0

/-- HOMEQ_LOOKUP: from a physical function, firmware, or the VF of an enabled partition (R225, R365, Table 16.3). -/
def execHomeqLookup (r : Req) (addr : BitVec 48) (s : State) : Res :=
  .next (s.reqOrder r (.homeqLookup r addr) (fun s =>
    (match r with
      | .fn (.vf _ k) => if s.ptn.running.enabled k.val then s.homeq addr.toNat else s
      | _ => s.homeq addr.toNat)))

end Sys2Proof.Machine
end

