-- ==== Sys2Proof/Machine/Groups.lean ====
section
/-! DEFINITION. Thread groups: slots, issue, divergence, parking and the control instructions (R166 to R174, R180, R187 to
R189, R193, R199 to R201). -/

namespace Sys2Proof.Machine

/-- The key of a register of a logical core's block (R20). -/
def coreReg (off c : Nat) : Nat := off + 0x40000 * c

/-- All 32 lanes. -/
def allLanes : BitVec 32 := 0xFFFFFFFF

/-- A group as it starts at an entry: every register zero, every lane active (R167, R194). -/
def newGroup (pc : Nat) : Group := { st := .ready, pc := pc, active := allLanes, alive := allLanes }

/-- SCHED of a core (Table 2.6): the two-level scheduler. -/
def State.twoLevel (s : State) (c : Nat) : Bool := bitOf (s.ptn.running.coreSet c) 0

/-- A slot gone from the active set (R171). -/
def State.dropActive (s : State) (gx : Nat) : State :=
  s.coreMap (gx / 64) (fun x => { x with activeSet := x.activeSet.filter (· != gx % 64) })

/-- A group moves to the pending set; slot 0 never does while it holds a group (R171). -/
def State.leaveActive (s : State) (gx : Nat) : State := if gx % 64 = 0 then s else s.dropActive gx

/-- The slot of some that issued least recently, a tie to the lower one (R170). -/
def State.leastRecent (s : State) (c : Nat) (ks : List Nat) : Option Nat :=
  ks.foldl (fun b k =>
    match b with
    | none => some k
    | some j => if (s.group (gix c k)).issued < (s.group (gix c j)).issued then some k else some j) none

/-- The READY groups of the pending set of a core. -/
def State.pendingReady (s : State) (c : Nat) : List Nat :=
  (List.range 64).filter (fun k => (s.group (gix c k)).st == .ready && !(s.core c).activeSet.contains k)

/-- Does a group run for proof: does it hold a job (R160)? -/
def Group.isProof (x : Group) : Bool := x.job.isSome

/-- The pending groups that move into an active set with room: the READY ones that issued least recently, while there is room for
`n` (R171). -/
def State.refill (s : State) (c : Nat) : Nat → State
  | 0 => s
  | n + 1 =>
    if 8 ≤ (s.core c).activeSet.length then s
    else match s.leastRecent c (s.pendingReady c) with
      | some k => (s.coreMap c (fun x => { x with activeSet := x.activeSet ++ [k] })).refill c n
      | none => s

/-- The partition a group runs for. -/
def State.groupPart (s : State) (gx : Nat) : Nat := (s.corePart (gx / 64)).getD 0

/-- Is proof owed in the window under way of a core (R172)? A window is 64 issues: each is a cycle of its own (DESIGN CHOICE, log
entry 15). -/
def State.proofOwed (s : State) (c : Nat) : Bool :=
  match s.corePart c with
  | some p => decide ((s.core c).proofCycles < s.ptn.running.proofShare p)
  | none => false

/-- A READY proof group of the pending set that is owed its share moves in for the active group that issued least recently and is
neither slot 0 nor a proof group, where no proof group of the active set is READY (R171): `gx`, or the one that issued least
recently. -/
def State.proofSwap (s : State) (gx : Nat) : State :=
  let c := gx / 64
  let acts := (s.core c).activeSet
  let due := (s.pendingReady c).filter (fun k => (s.group (gix c k)).isProof)
  let comes := if due.contains (gx % 64) then some (gx % 64) else s.leastRecent c due
  if !s.proofOwed c || acts.any (fun k => (s.group (gix c k)).isProof && (s.group (gix c k)).st == .ready) then s
  else match s.leastRecent c (acts.filter (fun k => k != 0 && !(s.group (gix c k)).isProof)), comes with
    | some out, some k => s.coreMap c (fun y => { y with activeSet := y.activeSet.filter (· != out) ++ [k] })
    | _, _ => s

/-- The active set of a group's core as it stands when the group is to issue (R171): under SCHED 1 free places are taken, and a
proof group moves in that is owed its share. -/
def State.arrange (s : State) (gx : Nat) : State :=
  if s.twoLevel (gx / 64) then (s.refill (gx / 64) 8).proofSwap gx else s

/-- Does a group take part in issue: under SCHED 1 it is in the active set (R171)? -/
def State.takeTurn (s : State) (gx : Nat) : Option State :=
  let u := s.arrange gx
  if !s.twoLevel (gx / 64) || (u.core (gx / 64)).activeSet.contains (gx % 64) then some u else none

/-- A slot becomes FREE (R167): PANEL commands of its group run on without it (R191), and a proof job it still holds is
dropped (R161). A command that still stalls goes with it. -/
def State.freeSlot (s : State) (gx : Nat) : State :=
  let own := fun (q : PCmd) => if q.slot = gx % 64 then { q with gone := true } else q
  let s := if (s.group gx).job.isSome then s.rAdd (Reg.TICK_PROOF_B + 0x10 * s.groupPart gx) 15 0 1 else s
  ((s.groupSet gx {}).dropActive gx).coreMap (gx / 64) (fun x => { x with
    stalled := x.stalled.filter (fun q => q.slot != gx % 64)
    queue := x.queue.map own, run := x.run.map (fun r => { r with cmd := own r.cmd }) })

/-! ## Parking -/

/-- A park: record, state, count, error record, interrupt (R189, Tables 8.7 and 8.8). `pc` is the PC recorded and `word` the
first 8 bytes there. A parked group leaves the active set at once (DESIGN CHOICE, log entry 15); a command of it that stalls
does not enter the queue, and an asynchronous fault that waits while another fault parks the group parks it later. -/
def State.parkAt (s : State) (gx code sub : Nat) (mask : BitVec 32) (addr : Nat) (asy : Bool) (pc word : Nat)
    (partly : Bool) : State :=
  let x := s.group gx
  let c := gx / 64
  let k := gx % 64
  let p := s.corePart c
  let act := x.replay.getD x.active
  let replayOk := asy || code != fIllegal
  let skipOk := !asy && (code == fIllegal || code == fBusErr)
  let r : ParkRec := {
    code := code, sub := sub, slot := k, core := c, part := p.getD 0,
    flags := b2n asy + 2 * b2n (k == 0) + 4 * b2n (s.proofSlot c k) + 8 * b2n partly + 16 * b2n replayOk + 32 * b2n skipOk,
    tick := s.tickNo, pc := pc, active := act.toNat, faults := mask.toNat,
    waiting := (maskOf (x.waits.map (·.1))).toNat, instr := word, addr := addr, wdog := x.wdog,
    epoch := (match p with
      | some n => s.epoch n
      | none => 0), depth := x.stack.length, held := x.held,
    barrier := (match x.barrier with
      | some b => 16 + b
      | none => 0), stack := x.stack, waits := x.waits }
  let s := { s with parks := mset s.parks gx r {} }
  let s := (s.groupSet gx { x with
    st := .parked, active := act, replay := none, async := if asy then none else x.async, expired := false,
    stalled := false }).leaveActive gx
  let s := s.coreMap c (fun y => { y with stalled := y.stalled.filter (fun q => q.slot != k) })
  let s := s.rAdd (coreReg Reg.CORE_PARKS c) 15 0 1
  let s := if code = fClampDeadlock ∨ code = fNoProgress then s.rAdd (coreReg Reg.CORE_PARKS c) 31 16 1 else s
  let s := s.err code (unitId 1 gx) p addr 0
  if s.rb (coreReg Reg.CORE_PARKCFG c) 0 || k == 0 then s.raise (64 + c) else s

/-- The first 8 bytes at a PC of the program of a group's core. -/
def State.progWord (s : State) (gx pc : Nat) : Nat :=
  match s.corePart (gx / 64) with
  | some p => leNat (readCells (s.ptn.running.sec 9 p).bytes pc 8)
  | none => 0

/-- A park with F_ILLEGAL at the instruction under way (Table 8.7). FAULT_MASK and ADDR of its record are 0 (DESIGN CHOICE, log
entry 50). -/
def State.illegal (s : State) (gx : Nat) : State :=
  let x := s.group gx
  s.parkAt gx fIllegal 0 0 0 false x.pc x.word false

/-! ## Control flow -/

/-- Does the entry come from a CLAMP.ACQ: does a lane of it hold a wait (R185)? -/
def RecEnt.clamps (e : RecEnt) (x : Group) : Bool := x.waits.any (fun w => bitOf e.lanes.toNat w.1)

/-- An entry popped: its lanes, less those that ended, run at its resume address; their waits are over, and a notice under way
to them is ignored (R173, R185, R186). -/
def Group.pop (x : Group) (e : RecEnt) (rest : List RecEnt) : Group :=
  { x with pc := e.resume, active := e.lanes &&& x.alive, stack := rest, st := .ready, wait := .nothing,
           waits := x.waits.filter (fun w => !bitOf e.lanes.toNat w.1), woken := x.woken &&& ~~~e.lanes,
           notices := (x.notices.map (fun n => (n.1, n.2 &&& ~~~e.lanes))).filter (fun n => n.2 != 0) }

/-- Reconvergence: entries pop while the path has reached the top entry's point or has no lane; an entry of clamp waits
pops only when one of its lanes is woken, and the group waits until then (R173, R185). -/
def Group.settle (x : Group) : Nat → Group
  | 0 => x
  | n + 1 =>
    match x.stack with
    | [] => x
    | e :: rest =>
      if x.active = 0 ∨ x.pc = e.rpc then
        if e.clamps x && (e.lanes &&& x.woken) == 0 then { x with st := .waiting, wait := .clamp }
        else (x.pop e rest).settle n
      else x

/-- A group after an instruction: it reconverges; with no lane left it ends; a waiting group leaves the active set. -/
def State.settleGroup (s : State) (gx : Nat) : State :=
  let x := (s.group gx).settle 18
  if x.active = 0 ∧ x.stack = [] then s.freeSlot gx
  else if x.st = .waiting then (s.groupSet gx x).leaveActive gx
  else s.groupSet gx x

/-- The group goes on behind the instruction under way, with ACTIVE after a replay (R190). -/
def State.pass (s : State) (gx : Nat) : State :=
  let x := s.group gx
  (s.groupSet gx { x with pc := x.pc + x.len, active := x.replay.getD x.active, replay := none, st := .ready,
                          wait := .nothing }).settleGroup gx

/-- The group enters WAITING at the instruction under way. -/
def State.await (s : State) (gx : Nat) (w : WaitFor) : State :=
  (s.groupSet gx { s.group gx with st := .waiting, wait := w }).leaveActive gx

/-! ## Issue -/

/-- Does the instruction need a register or predicate that a request has still to write, or its group's requests done
(Table 8.2, R204)? -/
def Group.hazard (x : Group) (f : Form) (i : Insn) : Bool :=
  let rs := f.regs i
  let qs := f.preds i
  (f.drain && !x.reqs.isEmpty) || x.ops.any (fun o => o.2.failed != 0) ||
    x.reqs.any (fun r =>
      match r.kind with
      | .load n _ _ => rs.any (fun w => decide (r.dst ≤ w ∧ w < r.dst + max 1 (n / 4)))
      | .staged n _ => rs.any (fun w => decide (r.dst ≤ w ∧ w < r.dst + max 1 (n / 4)))
      | .atom _ t => rs.any (fun w => decide (r.dst ≤ w ∧ w < r.dst + (if t < 3 then 1 else 2)))
      | .acquire _ _ _ => true
      | .release q => qs.contains q
      | _ => false)

/-- The state in which an issued instruction acts: its issue is counted, a parity error of the instruction cache too (R251), and
its group holds it. -/
def State.issued (s : State) (gx op : Nat) (i : Insn) : State :=
  let k := coreReg Reg.CORE_ISSUE (gx / 64)
  let s := s.rAdd64 k 1
  let s := if i.parity then s.rAdd Reg.LIN_ECC_CORR 31 0 1 else s
  let s := s.coreMap (gx / 64) (fun y =>
    if y.cycle = 63 then { y with cycle := 0, proofCycles := 0 }
    else { y with cycle := y.cycle + 1, proofCycles := y.proofCycles + b2n (s.group gx).isProof })
  s.groupMap gx (fun x => { x with
    st := .ready, word := insnWord op i, len := insnLen i, wdog := x.wdog + 1, issued := s.rg64 k })

/-- A group's next instruction issues (R168 to R173, R189, R193, R195, R198): nothing happens unless the group is READY or BUSY,
its watchdog has not run out and its core has a clock (R398, R415); it stays BUSY while an operand is awaited; an asynchronous
fault parks it instead; a fetch outside the program or an ill-formed word parks it with F_ILLEGAL, and so does a PC that is no
multiple of 8 (DESIGN CHOICE, log entry 50). Each issue is a cycle of its own (DESIGN CHOICE, log entry 15). -/
def State.issue (s : State) (g : GroupId) (op : Nat) (i : Insn) (f : Form) (body : State → Nat → BitVec 32 → State) :
    State :=
  let gx := gix g.core.val g.slot.val
  let x := s.group gx
  if (x.st ≠ .ready ∧ x.st ≠ .busy) ∨ x.stalled ∨ x.expired ∨ s.clockStopped g.core.val then s
  else match s.takeTurn gx with
  | none => s.arrange gx
  | some s =>
    match x.async, x.reqs with
    | some (code, sub), [] => s.parkAt gx code sub 0 0 true x.pc (s.progWord gx x.pc) false
    | some _, _ => s.groupSet gx { x with st := .busy }
    | none, reqs =>
      let len := match s.corePart g.core.val with
        | some p => s.ptn.running.progLen p
        | none => 0
      let bad := decide (x.pc < 0x40 ∨ x.pc % 8 ≠ 0 ∨ len < x.pc + insnLen i) || !f.ok i
      if x.hazard f i || (bad && !reqs.isEmpty) then s.groupSet gx { x with st := .busy }
      else
        let s := s.issued gx op i
        if bad then s.illegal gx else body s gx (x.effective i)

/-- An instruction that acts in each effective lane on registers and predicates alone. -/
def State.lanewise (s : State) (g : GroupId) (op : Nat) (i : Insn) (f : Form) (fn : Group → Nat → Group) : State :=
  s.issue g op i f (fun s gx eff => (s.groupMap gx (fun x => (lanesOf eff).foldl fn x)).pass gx)

/-! ## Control instructions -/

/-- NOP, and an opcode that Table 9.3 does not have, which parks the group (R198). -/
def execNop (g : GroupId) (op : BitVec 8) (i : Insn) (s : State) : Res :=
  let odd := !tableOp op.toNat
  .next (s.issue g (if odd then op.toNat else 0) i { mod := modOnly i 0 && !odd } (fun s gx _ => s.pass gx))

/-- A signed offset from the PC. -/
def pcPlus (pc off : Nat) : Nat := (((pc : Int) + signed off 32) % 2 ^ 32).toNat

/-- The entries a push adds, the join entry first where the reconvergence point is new (R173). -/
def Group.joinPush (x : Group) (rpc : Nat) (e : RecEnt) : List RecEnt :=
  let join := match x.stack with
    | t :: _ => if t.rpc = rpc then [] else [⟨rpc, x.active, rpc⟩]
    | [] => [⟨rpc, x.active, rpc⟩]
  e :: (join ++ x.stack)

/-- BR (R173, R174, R199). -/
def execBr (g : GroupId) (i : Insn) (s : State) : Res :=
  .next (s.issue g 0x01 i { size := 16, ext := 2 ^ 64 - 1, mod := modOnly i 0, drain := true } (fun s gx eff =>
    let x := s.group gx
    let e := (i.ext.getD 0).toNat
    let target := pcPlus x.pc (e % 2 ^ 32)
    let rpc := pcPlus x.pc (e / 2 ^ 32)
    let fall := x.pc + 16
    let other := x.active &&& ~~~eff
    if eff = 0 ∨ target = fall then (s.groupSet gx { x with pc := fall }).settleGroup gx
    else if other = 0 then (s.groupSet gx { x with pc := target }).settleGroup gx
    else
      let high : RecEnt := if target < fall then ⟨fall, other, rpc⟩ else ⟨target, eff, rpc⟩
      let st := x.joinPush rpc high
      if 16 < st.length then s.illegal gx
      else
        (s.groupSet gx { x with stack := st, pc := min target fall,
                                active := if target < fall then eff else other }).settleGroup gx))

/-- END: its effective lanes leave the group and every stack entry (R167, R173, R199). -/
def execEndLanes (g : GroupId) (i : Insn) (s : State) : Res :=
  .next (s.issue g 0x02 i { mod := modOnly i 0, drain := true } (fun s gx eff =>
    let x := s.group gx
    (s.groupSet gx { x with active := x.active &&& ~~~eff, alive := x.alive &&& ~~~eff, pc := x.pc + 8,
                            stack := x.stack.map (fun e => { e with lanes := e.lanes &&& ~~~eff }) }).settleGroup gx))

/-- The general slots of a core (Table 8.1). -/
def State.generalSlots (s : State) (c : Nat) : List Nat :=
  (List.range 64).filter (fun k => k != 0 && !s.proofSlot c k)

/-- SPAWN (R200). An entry that is no multiple of 8 parks the spawner with F_ILLEGAL (DESIGN CHOICE, log entry 50). -/
def execSpawn (g : GroupId) (i : Insn) (s : State) : Res :=
  let entry := (i.ext.getD 0).toNat % 2 ^ 32
  let f : Form := { size := 16, grp := true, d := .regs 1, a := .regs 1, b := .regs 4, ext := 0xFFFFFFFF, drain := true }
  .next (s.issue g 0x03 i { f with mod := modOnly i 0 && entry % 8 == 0 } (fun s gx _ =>
    let x := s.group gx
    let c := gx / 64
    if x.isProof then s.illegal gx
    else
      let want := (x.w x.lowest i.a.toNat).toNat
      let free := (s.generalSlots c).filter (fun k => (s.group (gix c k)).st == .free)
      let slot := if want = 0 then free.head? else free.find? (· == want)
      let s := match slot with
        | none => s
        | some k => s.groupSet (gix c k) ((lanesOf x.active).foldl (fun y l =>
            y.wideSet l 0 (x.wide l i.b.toNat 4) 4) (newGroup entry))
      let v : Word := match slot with
        | some k => BitVec.ofNat 32 k
        | none => 0xFFFFFFFF
      (s.groupMap gx (fun y => (lanesOf y.active).foldl (fun z l => z.wSet l i.d.toNat v) y)).pass gx))

/-- BAR: the group arrives; the last arrival of the count readies all that wait (R180, R201). -/
def execBar (g : GroupId) (i : Insn) (s : State) : Res :=
  .next (s.issue g 0x04 i { grp := true, imm := true, mod := modOnly i 15 && i.imm.toNat / 64 == 0, drain := true }
    (fun s gx _ =>
    let c := gx / 64
    let b := i.mod.toNat % 16
    let n := i.imm.toNat % 64 + 1
    let y := mget (s.core c).bars b {}
    if !y.arrived.isEmpty && y.need != n then s.illegal gx
    else
      let here := y.arrived ++ [gx % 64]
      let s := s.groupMap gx (fun x => { x with st := .waiting, wait := .barrier b, barrier := some b })
      if here.length < n then
        (s.coreMap c (fun x => { x with bars := mset x.bars b { need := n, arrived := here } {} })).leaveActive gx
      else
        let s := s.coreMap c (fun x => { x with bars := mdel x.bars b })
        here.foldl (fun u k =>
          let hx := gix c k
          let h := u.group hx
          if h.wait = .barrier b ∧ h.st = .waiting then (u.groupSet hx { h with barrier := none }).pass hx else u) s))

/-! ## Deadlock, watchdog and the two-level scheduler -/

/-- Do all lanes of the top entry wait on tags of their own group, none of them woken (R187)? -/
def Group.deadlocked (x : Group) (gx : Nat) : Bool :=
  match x.stack with
  | [] => false
  | e :: _ => (lanesOf (e.lanes &&& x.alive)).all (fun l =>
      match mfind x.waits l with
      | some (_, v) => decide (v ≠ 0 ∧ v < 2 ^ 18 ∧ (v - 1) / 32 = gx)
      | none => false) && (e.lanes &&& x.alive) != 0 && (e.lanes &&& x.woken) == 0

/-- CLAMP_DEADLOCK: a group that waits on its own lanes only is parked at the waiting CLAMP.ACQ (R187), once its requests in
flight, a release among them, are done (R189). FAULT_MASK and ADDR of its record are 0 (DESIGN CHOICE, log entry 50). -/
def execClampDeadlock (g : GroupId) (s : State) : Res :=
  let gx := gix g.core.val g.slot.val
  let x := s.group gx
  .next (if !s.clockStopped g.core.val ∧ x.st = .waiting ∧ x.wait = .clamp ∧ x.reqs = [] ∧ x.deadlocked gx then
      let pc := (x.stack.head?.map (·.resume)).getD x.pc
      s.parkAt gx fClampDeadlock 0 0 0 false pc (s.progWord gx pc) false
    else s)

/-- A group whose watchdog has run out parks at its next instruction (R188). -/
def State.noProgress (s : State) (gx : Nat) : State :=
  let s := s.groupMap gx (fun x => { x with wdog := 2 ^ 24 })
  let x := s.group gx
  s.parkAt gx fNoProgress 0 0 0 false x.pc (s.progWord gx x.pc) false

/-- WATCHDOG_EXPIRY: the count of a READY or BUSY group reaches 2^24 and the group parks, its earlier requests in flight first
(R188, R189); a command that stalls on the PANEL queue does not enter it. -/
def execWatchdogExpiry (g : GroupId) (s : State) : Res :=
  let gx := gix g.core.val g.slot.val
  let x := s.group gx
  .next (if (x.st = .ready ∨ x.st = .busy) ∧ !s.clockStopped g.core.val then
      let s := s.coreMap g.core.val (fun y => { y with stalled := y.stalled.filter (fun q => q.slot != g.slot.val) })
      if x.reqs = [] then s.noProgress gx
      else s.groupSet gx { x with st := .busy, wdog := 2 ^ 24, stalled := false, expired := true }
    else s)

/-- PENDING_SET_MOVE: a group of the active set that stays BUSY on a load operand moves out, and the READY pending group that
issued least recently moves in (R171). A core without a clock moves none (R398). -/
def execPendingSetMove (g : GroupId) (s : State) : Res :=
  let c := g.core.val
  let gx := gix c g.slot.val
  let x := s.group gx
  .next (if s.twoLevel c && g.slot.val != 0 && (s.core c).activeSet.contains g.slot.val && x.st == .busy && !x.stalled &&
      !x.reqs.isEmpty && !s.clockStopped c then (s.leaveActive gx).refill c 8
    else s)

end Sys2Proof.Machine
end

