-- ==== Sys2Proof/Machine/Arith.lean ====
section
/-! DEFINITION. Arithmetic, conversion and move instructions of the threads (R198, R214 to R216, R485). -/

namespace Sys2Proof.Machine

/-- The form of an instruction with sources A and B (R197): MOD may set IMM and the bits of `m`. -/
def binForm (i : Insn) (m : Nat) : Form :=
  { size := 0, d := .regs 1, a := .regs 1, b := useB i, wide := modBit i 6, mod := modOnly i (0x40 + m) }

/-- The form of an instruction with source A alone. -/
def unForm (i : Insn) (m : Nat) : Form := { size := 0, d := .regs 1, a := .regs 1, mod := modOnly i m }

/-- The form of a comparison; the values of MOD[2:0] from `n` on are reserved. -/
def cmpForm (i : Insn) (m n : Nat) : Form :=
  { binForm i (7 + m) with d := .pred, mod := modOnly i (0x47 + m) && decide (i.mod.toNat % 8 < n) }

/-- An instruction that writes D from A and B in each effective lane. -/
def State.binary (s : State) (g : GroupId) (op : Nat) (i : Insn) (m : Nat) (fn : Word → Word → Word) : State :=
  s.lanewise g op i (binForm i m) (fun x l => x.wSet l i.d.toNat (fn (x.w l i.a.toNat) (x.opB i l)))

/-- An instruction that writes D from A. -/
def State.unary (s : State) (g : GroupId) (op : Nat) (i : Insn) (m : Nat) (fn : Word → Word) : State :=
  s.lanewise g op i (unForm i m) (fun x l => x.wSet l i.d.toNat (fn (x.w l i.a.toNat)))

/-- The value of a word, signed where MOD[3] is 1 (R485). -/
def intOf (i : Insn) (w : Word) : Int := if modBit i 3 then w.toInt else (w.toNat : Int)

/-- IADD. -/
def execIadd (g : GroupId) (i : Insn) (s : State) : Res :=
  .next (s.binary g 0x10 i 0 (fun a b => a + b))

/-- ISUB. -/
def execIsub (g : GroupId) (i : Insn) (s : State) : Res :=
  .next (s.binary g 0x11 i 0 (fun a b => a - b))

/-- IMUL. -/
def execImul (g : GroupId) (i : Insn) (s : State) : Res :=
  .next (s.binary g 0x12 i 0 (fun a b => a * b))

/-- IMULHI: bits 63:32 of the exact product. -/
def execImulhi (g : GroupId) (i : Insn) (s : State) : Res :=
  .next (s.binary g 0x13 i 8 (fun a b => BitVec.ofInt 32 ((intOf i a * intOf i b) / 2 ^ 32)))

/-- IAND. -/
def execIand (g : GroupId) (i : Insn) (s : State) : Res :=
  .next (s.binary g 0x14 i 0 (fun a b => a &&& b))

/-- IOR. -/
def execIor (g : GroupId) (i : Insn) (s : State) : Res :=
  .next (s.binary g 0x15 i 0 (fun a b => a ||| b))

/-- IXOR. -/
def execIxor (g : GroupId) (i : Insn) (s : State) : Res :=
  .next (s.binary g 0x16 i 0 (fun a b => a ^^^ b))

/-- INOT. -/
def execInot (g : GroupId) (i : Insn) (s : State) : Res :=
  .next (s.unary g 0x17 i 0 (fun a => ~~~a))

/-- SHL: a count of 32 or more gives 0. -/
def execShl (g : GroupId) (i : Insn) (s : State) : Res :=
  .next (s.binary g 0x18 i 0 (fun a b => if b.toNat < 32 then a <<< b.toNat else 0))

/-- SHR: a count of 32 or more gives 0. -/
def execShr (g : GroupId) (i : Insn) (s : State) : Res :=
  .next (s.binary g 0x19 i 0 (fun a b => if b.toNat < 32 then a >>> b.toNat else 0))

/-- SAR: a count of 32 or more gives the sign. -/
def execSar (g : GroupId) (i : Insn) (s : State) : Res :=
  .next (s.binary g 0x1A i 0 (fun a b => a.sshiftRight (min 31 b.toNat)))

/-- IMIN. -/
def execImin (g : GroupId) (i : Insn) (s : State) : Res :=
  .next (s.binary g 0x1B i 8 (fun a b => if intOf i b < intOf i a then b else a))

/-- IMAX. -/
def execImax (g : GroupId) (i : Insn) (s : State) : Res :=
  .next (s.binary g 0x1C i 8 (fun a b => if intOf i a < intOf i b then b else a))

/-- An integer comparison (R485). -/
def intCmp (n : Nat) (a b : Int) : Bool :=
  match n with
  | 0 => a == b
  | 1 => a != b
  | 2 => decide (a < b)
  | 3 => decide (a ≤ b)
  | 4 => decide (b < a)
  | _ => decide (b ≤ a)

/-- ISETP. -/
def execIsetp (g : GroupId) (i : Insn) (s : State) : Res :=
  .next (s.lanewise g 0x1D i (cmpForm i 8 6) (fun x l =>
    x.qSet l i.d.toNat (intCmp (i.mod.toNat % 8) (intOf i (x.w l i.a.toNat)) (intOf i (x.opB i l)))))

/-- FADD. -/
def execFadd (g : GroupId) (i : Insn) (s : State) : Res :=
  .next (s.binary g 0x20 i 0 (fun a b => toF32 ((f32 a).add (f32 b))))

/-- FSUB. -/
def execFsub (g : GroupId) (i : Insn) (s : State) : Res :=
  .next (s.binary g 0x21 i 0 (fun a b => toF32 ((f32 a).add (f32 b).neg)))

/-- FMUL. -/
def execFmul (g : GroupId) (i : Insn) (s : State) : Res :=
  .next (s.binary g 0x22 i 0 (fun a b => toF32 ((f32 a).mul (f32 b))))

/-- FFMA: the product and C are added exactly and rounded once. -/
def execFfma (g : GroupId) (i : Insn) (s : State) : Res :=
  .next (s.lanewise g 0x23 i { binForm i 0 with c := .regs 1 } (fun x l =>
    x.wSet l i.d.toNat
      (toF32 (((f32 (x.w l i.a.toNat)).mul (f32 (x.opB i l))).add (f32 (x.w l i.c.toNat))))))

/-- FMIN. -/
def execFmin (g : GroupId) (i : Insn) (s : State) : Res :=
  .next (s.binary g 0x24 i 0 (fun a b => minMax false a b))

/-- FMAX. -/
def execFmax (g : GroupId) (i : Insn) (s : State) : Res :=
  .next (s.binary g 0x25 i 0 (fun a b => minMax true a b))

/-- FABS. -/
def execFabs (g : GroupId) (i : Insn) (s : State) : Res :=
  .next (s.unary g 0x26 i 0 (fun a => toF32 (f32 a).abs))

/-- FNEG. -/
def execFneg (g : GroupId) (i : Insn) (s : State) : Res :=
  .next (s.unary g 0x27 i 0 (fun a => toF32 (f32 a).neg))

/-- An FP32 comparison (R485): with a NaN operand only NE and UNORD hold. -/
def fpCmp (n : Nat) (a b : Fp) : Bool :=
  let un := a.isNan || b.isNan
  match n with
  | 0 => !un && a.same b
  | 1 => un || !a.same b
  | 2 => !un && a.lt b
  | 3 => !un && !b.lt a
  | 4 => !un && b.lt a
  | 5 => !un && !a.lt b
  | _ => un

/-- FSETP. -/
def execFsetp (g : GroupId) (i : Insn) (s : State) : Res :=
  .next (s.lanewise g 0x28 i (cmpForm i 0 7) (fun x l =>
    x.qSet l i.d.toNat (fpCmp (i.mod.toNat % 8) (f32 (x.w l i.a.toNat)) (f32 (x.opB i l)))))

/-- FRCP. -/
def execFrcp (g : GroupId) (i : Insn) (s : State) : Res :=
  .next (s.unary g 0x29 i 0 (recip))

/-! ## Conversions -/

/-- The value a source lane of CVT holds (R214): a scaled element reads its entry in B and is element `l` of its block. -/
def cvtSource (fmt : Nat) (a b : Word) (l : Nat) : Fp :=
  let code := a.toNat % 2 ^ fmtBits fmt
  decodeElem fmt (b.toNat % 256) (if fmtPleated fmt then b.toNat / 256 % 256 else 0) l code

/-- A source value held in FP32 and whether the decode overflowed (R89, R90); a NaN stays for the encode (R93). -/
def cvtHeld (cv : Conv) (x : Fp) : Fp × Bool :=
  match x with
  | .fin _ m e => (f32 (decodeF32 cv x), (fFP32.round .rne 0 m e).1)
  | y => (y, false)

/-- The conversion status of a group with an event added (R215). -/
def Group.event (x : Group) (e : ConvEvent) : Group :=
  match e with
  | .nan => { x with cvNan := min 0xFFFF (x.cvNan + 1) }
  | .overflow => { x with cvOvf := min 0xFFFF (x.cvOvf + 1) }
  | .flush => { x with cvFlush := min 0xFFFF (x.cvFlush + 1) }
  | .none => x

/-- The form of CVT. -/
def cvtForm (i : Insn) : Form :=
  let sf := i.imm.toNat % 256
  let df := i.imm.toNat / 256
  { d := .regs (if fmtScaled df then 2 else 1), a := .regs 1, b := if fmtScaled sf then .regs 1 else .unused, imm := true,
    mod := modOnly i 15 && fmtValid sf && fmtValid df }

/-- What CVT makes of the effective lanes (R214): lane, value of D, entry for D + 1, event. -/
def cvtLanes (i : Insn) (x : Group) (eff : BitVec 32) (rnd : Nat → Nat) : List (Nat × Nat × Nat × ConvEvent) :=
  let sf := i.imm.toNat % 256
  let df := i.imm.toNat / 256
  let cv := convOf i.mod.toNat
  let held := fun l => cvtHeld cv (cvtSource sf (x.w l i.a.toNat) (x.w l i.b.toNat) l)
  let count := fun (o : Bool) (e : ConvEvent) => if o then (if e = .nan then e else .overflow) else e
  if fmtScaled df then
    let blk := formBlock df cv rnd ((List.range 32).map (fun l => if bitOf eff.toNat l then some (held l).1 else none))
    (lanesOf eff).map (fun l =>
      (l, blk.codes.getD l 0, blk.scale + (if fmtPleated df then 256 * blk.pleats else 0),
       count (held l).2 (blk.events.getD l .none)))
  else
    (lanesOf eff).map (fun l =>
      let (c, e) := encodeUnscaled (fmtElem df) cv (rnd l) (held l).1
      (l, c, 0, count (held l).2 e))

/-- CVT (R90, R96, R97, R138, R214, R215). -/
def execCvt (g : GroupId) (i : Insn) (s : State) : Res :=
  .next (s.issue g 0x30 i (cvtForm i) (fun s gx eff =>
    let rng := s.rng
    let lane := groupLane (s.physOf (gx / 64))
    let s := if i.mod.toNat % 4 < 2 then s else { s with rng := rng.steps ((lanesOf eff).map lane) }
    let x := s.group gx
    let y := (cvtLanes i x eff (fun l => rng.draw (lane l))).foldl (fun y o =>
      let y := y.wSet o.1 i.d.toNat (BitVec.ofNat 32 o.2.1)
      let y := if fmtScaled (i.imm.toNat / 256) then y.wSet o.1 (i.d.toNat + 1) (BitVec.ofNat 32 o.2.2.1) else y
      y.event o.2.2.2) x
    (s.groupSet gx y).pass gx))

/-- F2I of a value: signed unless `u`, toward zero where `rz` (R485). -/
def f2iWord (u rz : Bool) (x : Fp) : Word :=
  let hi : Int := if u then 2 ^ 32 - 1 else 2 ^ 31 - 1
  let lo : Int := if u then 0 else -(2 ^ 31)
  match x with
  | .nan => 0
  | .inf n => BitVec.ofInt 32 (if n then lo else hi)
  | .fin n m e =>
    let k := if topExp m e > 40 then 2 ^ 40 else roundMul (if rz then .rtz else .rne) 0 m e 0
    let v : Int := if n then -(k : Int) else k
    BitVec.ofInt 32 (max lo (min hi v))

/-- F2I. -/
def execF2i (g : GroupId) (i : Insn) (s : State) : Res :=
  .next (s.lanewise g 0x31 i { unForm i 9 with size := 8 } (fun x l =>
    x.wSet l i.d.toNat (f2iWord (modBit i 3) (modBit i 0) (f32 (x.w l i.a.toNat)))))

/-- I2F: signed with MOD[3] 0, unsigned with MOD[3] 1 (R485). -/
def execI2f (g : GroupId) (i : Insn) (s : State) : Res :=
  .next (s.lanewise g 0x32 i { unForm i 8 with size := 8 } (fun x l =>
    let a := x.w l i.a.toNat
    let v : Int := if modBit i 3 then (a.toNat : Int) else a.toInt
    x.wSet l i.d.toNat (toF32 (.fin (decide (v < 0)) v.natAbs 0))))

/-! ## Moves and special values -/

/-- MOV: from A, or the immediate where MOD[6] is IMM (DEDUCED from R197, log entry 16). -/
def execMov (g : GroupId) (i : Insn) (s : State) : Res :=
  let f : Form := { size := 0, d := .regs 1, wide := modBit i 6, mod := modOnly i 0x40 }
  .next (s.lanewise g 0x40 i { f with a := if modBit i 6 then .unused else .regs 1 } (fun x l =>
    x.wSet l i.d.toNat (if modBit i 6 then immOf i else x.w l i.a.toNat)))

/-- MOVI (R485). -/
def execMovi (g : GroupId) (i : Insn) (s : State) : Res :=
  .next (s.lanewise g 0x41 i { size := 0, d := .regs 1, wide := true, mod := modOnly i 0 } (fun x l =>
    x.wSet l i.d.toNat (immOf i)))

/-- A special value (Table 9.4). -/
def State.special (s : State) (gx sel : Nat) (x : Group) (l : Nat) : Nat :=
  let p := (s.corePart (gx / 64)).getD 0
  let step := s.rg64 (Reg.TICK_STEPNO + 0x20 * p) - 1
  match sel with
  | 0 => l
  | 1 => gx % 64
  | 2 => gx / 64
  | 3 => p
  | 4 => (s.part p).boundary % 2 ^ 32
  | 5 => (s.part p).boundary / 2 ^ 32
  | 6 => step % 2 ^ 32
  | 7 => step / 2 ^ 32
  | 8 => s.epoch p
  | 9 => x.active.toNat
  | 10 => x.cvNan + 2 ^ 16 * x.cvOvf
  | _ => x.cvFlush

/-- MOVS (R215, R216). -/
def execMovs (g : GroupId) (i : Insn) (s : State) : Res :=
  let sel := i.mod.toNat % 16
  let ok := modOnly i 0x4F && decide (sel < 12) && (!modBit i 6 || sel == 10)
  .next (s.issue g 0x42 i { size := 0, d := .regs 1, mod := ok } (fun s gx eff =>
    let x := s.group gx
    let y := (lanesOf eff).foldl (fun y l => y.wSet l i.d.toNat (BitVec.ofNat 32 (s.special gx sel x l))) x
    let y := if modBit i 6 && eff != 0 then { y with cvNan := 0, cvOvf := 0, cvFlush := 0 } else y
    (s.groupSet gx y).pass gx))

/-- PMOV (R485). -/
def execPmov (g : GroupId) (i : Insn) (s : State) : Res :=
  let f : Form := { size := 0, mod := modOnly i 1, drain := true }
  .next (if modBit i 0 then
      s.lanewise g 0x43 i { f with a := .regs 1 } (fun x l =>
        { x with preds := mset x.preds l (BitVec.ofNat 7 (x.w l i.a.toNat).toNat) 0 })
    else
      s.lanewise g 0x43 i { f with d := .regs 1 } (fun x l =>
        x.wSet l i.d.toNat (BitVec.ofNat 32 (128 + (mget x.preds l 0).toNat))))

end Sys2Proof.Machine
end

