-- ==== Sys2Proof/Machine/Flits.lean ====
section
/-! DEFINITION. Flits and messages of spline links as bytes, and the byte stream of a virtual channel (R342, R344, R346,
Tables 15.3 to 15.6). -/

namespace Sys2Proof.Machine

/-! ## Messages -/

/-- The bytes of a message: header and payload padded to a multiple of 4 (R346). -/
def msgBytes (m : Msg) : Nat := 32 + (m.payload.length + 3) / 4 * 4

/-- A message of a type as bytes (Table 15.5). -/
def Msg.toBytes (kind : Nat) (m : Msg) : List Byte :=
  leBytes (kind % 16 + 2 ^ 4 * m.hops.toNat + 2 ^ 10 * b2n m.retry + 2 ^ 16 * m.dst.toNat + 2 ^ 28 * m.src.toNat +
    2 ^ 40 * m.part.val + 2 ^ 44 * m.srcPart.val + 2 ^ 48 * m.payload.length) 8 ++
  leBytes (m.offset.toNat + 2 ^ 48 * m.tag.toNat) 8 ++ leBytes m.arg.toNat 8 ++ leBytes m.epoch.toNat 8 ++ m.payload ++
  List.replicate ((m.payload.length + 3) / 4 * 4 - m.payload.length) 0

/-- LEN of a header. -/
def msgLen (bs : List Byte) : Nat := bitsOf (leNat (bs.take 8)) 57 48

/-- The type and the message that begin a list of bytes (Table 15.5). -/
def msgOf (bs : List Byte) : Nat × Msg :=
  let w0 := leNat (bs.take 8)
  let w1 := leNat ((bs.drop 8).take 8)
  (bitsOf w0 3 0,
   { hops := BitVec.ofNat 6 (bitsOf w0 9 4), retry := bitOf w0 10, dst := BitVec.ofNat 12 (bitsOf w0 27 16),
     src := BitVec.ofNat 12 (bitsOf w0 39 28), part := Fin.ofNat 16 (bitsOf w0 43 40),
     srcPart := Fin.ofNat 16 (bitsOf w0 47 44), offset := BitVec.ofNat 35 w1, tag := BitVec.ofNat 16 (w1 / 2 ^ 48),
     arg := BitVec.ofNat 64 (leNat ((bs.drop 16).take 8)), epoch := BitVec.ofNat 16 (leNat ((bs.drop 24).take 8)),
     payload := (bs.drop 32).take (msgLen bs) })

/-- Is a type a request (Table 15.6)? -/
def isRequest (kind : Nat) : Bool := kind == 1 || kind == 2 || kind == 4 || kind == 5

/-- Does an epoch precede another, modulo 2^16 (R464)? -/
def epochBefore (e r : Nat) : Bool := e % 2 ^ 16 != r % 2 ^ 16 && decide ((r + 2 ^ 16 - e % 2 ^ 16) % 2 ^ 16 < 2 ^ 15)

/-- The virtual channel of a message type (Table 15.4). -/
def vcOf (kind : Nat) : Nat :=
  match kind with
  | 3 => 1
  | 7 => 2
  | 6 => 3
  | _ => 0

/-- The receive buffer of a virtual channel in flits (Table 15.4). -/
def vcBuf (vc : Nat) : Nat :=
  match vc with
  | 2 => 256
  | 3 => 32
  | _ => 512

/-- The network class a message crosses the package in (Tables 14.1 and 15.4). -/
def classOf (kind : Nat) : Nat :=
  match vcOf kind with
  | 1 => 1
  | 3 => 3
  | _ => 0

/-! ## Flits -/

/-- A flit (Table 15.3): KIND is 0 IDLE, 1 DATA, 2 INIT, 3 NAK. -/
structure Flit where
  kind : Nat
  vc : Nat := 0
  seq : Nat := 0
  ack : Nat := 0
  crvc : Nat := 0
  crcount : Nat := 0
  first : Nat := 0
  modid : Nat := 0
  link : Nat := 0
  body : List Byte := []
deriving DecidableEq, Repr

/-- A flit as its 256 bytes (R342). -/
def Flit.toBytes (f : Flit) : List Byte :=
  let bs := leBytes (f.kind % 4 + 2 ^ 2 * (f.vc % 4) + 2 ^ 4 * (f.seq % 4096) + 2 ^ 16 * (f.ack % 4096) + 2 ^ 28 * (f.crvc % 4) +
    2 ^ 30 * (f.crcount % 256) + 2 ^ 38 * (f.first % 256) + 2 ^ 46 * (f.modid % 4096) + 2 ^ 58 * (f.link % 64)) 8 ++
    f.body.take 244 ++ List.replicate (244 - f.body.length) 0
  bs ++ leBytes (crc32 bs) 4

/-- The flit that 256 bytes are. -/
def flitOf (bs : List Byte) : Flit :=
  let w := leNat (bs.take 8)
  { kind := bitsOf w 1 0, vc := bitsOf w 3 2, seq := bitsOf w 15 4, ack := bitsOf w 27 16, crvc := bitsOf w 29 28,
    crcount := bitsOf w 37 30, first := bitsOf w 45 38, modid := bitsOf w 57 46, link := bitsOf w 63 58,
    body := (bs.drop 8).take 244 }

/-- Is the CRC of a flit good (R342)? -/
def flitGood (bs : List Byte) : Bool := crc32 (bs.take 252) == leNat (bs.drop 252)

/-- The body of a flit with `n` messages' bytes before it cut at 244: flit `i` of a stream whose messages begin at `starts`:
FIRST and body. -/
def streamFlit (stream : List Byte) (starts : List Nat) (i : Nat) : Nat × List Byte :=
  let here := starts.filter (fun o => decide (244 * i ≤ o ∧ o < 244 * i + 244))
  (match here with
   | o :: _ => (o - 244 * i) / 4
   | [] => 0xFF, (stream.drop (244 * i)).take 244)

/-! ## The receive buffers -/

/-- Bytes taken from the front of flits: what is left, and how many flits have left the buffer. -/
def eatFlits : Nat → List (List Byte) → Nat × List (List Byte)
  | _, [] => (0, [])
  | n, f :: fs =>
    if n < f.length then (0, f.drop n :: fs)
    else
      let (k, rest) := eatFlits (n - f.length) fs
      (k + 1, rest)

/-- A header word of zero ends the content of its flit (R346): such a rest leaves the buffer, at a place where a message would
begin. -/
def skipZero : List (List Byte) → Nat × List (List Byte)
  | [] => (0, [])
  | f :: fs =>
    if (f.headD 0).toNat % 16 = 0 then
      let (k, rest) := skipZero fs
      (k + 1, rest)
    else (0, f :: fs)

/-- The oldest message of a receive buffer, if all of it is there: type, message, the flits that have left, what is left. -/
def takeMsg (fs : List (List Byte)) : Option (Nat × Msg × Nat × List (List Byte)) :=
  let bs := fs.flatten
  let n := 32 + (msgLen bs + 3) / 4 * 4
  if bs.length < 32 ∨ bs.length < n then none
  else
    let (k, m) := msgOf bs
    let (gone, rest) := eatFlits n fs
    let (more, rest) := skipZero rest
    some (k, m, gone + more, rest)

/-- The whole messages at the front of a receive buffer, as bytes; `fuel` bounds them. -/
def wholeMsgs : Nat → List (List Byte) → List Byte
  | 0, _ => []
  | n + 1, fs =>
    match takeMsg fs with
    | none => []
    | some (k, m, _, rest) => m.toBytes k ++ wholeMsgs n rest

/-- A flit's body joins the receive buffer of its virtual channel; between messages, a body that begins with zero holds nothing. -/
def SLink.accept (x : SLink) (f : Flit) : SLink :=
  let old := mget x.rx f.vc []
  let (gone, fs) := if old.isEmpty then skipZero [f.body] else (0, old ++ [f.body])
  { x with rx := mset x.rx f.vc fs [], owed := mset x.owed f.vc (mget x.owed f.vc 0 + gone) 0 }

/-- The next message of a virtual channel taken from a link: those received before it last left service first. -/
def SLink.next (x : SLink) (vc : Nat) : Option (Nat × Msg × SLink) :=
  let old := mget x.late vc []
  if !old.isEmpty then
    (takeMsg [old]).map (fun t => (t.1, t.2.1, { x with late := mset x.late vc t.2.2.2.flatten [] }))
  else
    (takeMsg (mget x.rx vc [])).map (fun t =>
      (t.1, t.2.1, { x with
        rx := mset x.rx vc t.2.2.2 [], owed := mset x.owed vc (mget x.owed vc 0 + t.2.2.1) 0 }))

/-- A link that left service keeps the whole messages it has received (log entry 17). -/
def SLink.keepWhole (x : SLink) : List (Nat × List Byte) :=
  (List.range 4).foldl (fun m vc =>
    let fs := mget x.rx vc []
    mset m vc (mget x.late vc [] ++ wholeMsgs (fs.flatten.length / 32 + 1) fs) []) []

end Sys2Proof.Machine
end

