-- ==== Sys2Proof/Machine/Links.lean ====
section
/-! DEFINITION. Sending on spline links: flits and credits, link choice, forwarding tables, outstanding requests (spec/15,
R342 to R348, R354 to R359). -/

namespace Sys2Proof.Machine

/-- Is a link in service (R340)? -/
def SLink.up (x : SLink) : Bool := x.st == .up4 || x.st == .up2

/-! ## Sending flits -/

/-- SEQ of the last DATA flit received in order. -/
def SLink.lastRx (x : SLink) : Nat := (x.rxSeq + 4095) % 4096

/-- A flit leaves on a link with the ACK in force (R342). -/
def State.sendFlit (s : State) (n : Nat) (f : Flit) : State :=
  s.send (.flit n { f with ack := (s.link n).lastRx }.toBytes)

/-- Credits as flits carry them, at most 255 in each (Table 15.3). -/
def creditParts (owed : List (Nat × Nat)) : List (Nat × Nat) :=
  (owed.map (fun e => (List.range ((e.2 + 254) / 255)).map (fun i => (e.1, min 255 (e.2 - 255 * i))))).flatten

/-- The ACK and the credits owed leave in IDLE flits, for each virtual channel with credits, or in one without (R343, R344;
DESIGN CHOICE, log entry 17: at once, and in flits of their own). -/
def State.sendAck (s : State) (n : Nat) : State :=
  let x := s.link n
  if !x.up then s
  else if x.owed.isEmpty then s.sendFlit n { kind := 0 }
  else
    let s := s.linkSet n { x with owed := [] }
    (creditParts x.owed).foldl (fun u e => u.sendFlit n { kind := 0, crvc := e.1, crcount := e.2 }) s

/-- Messages put into a stream: the whole stream and where each begins. -/
def streamOf (ms : List (Nat × Msg)) : List Byte × List Nat :=
  ms.foldl (fun t e => (t.1 ++ e.2.toBytes e.1, t.2 ++ [t.1.length])) ([], [])

/-- The longest front of the waiting messages of a channel whose flits find credits and room in the replay buffer (R343, R344). -/
def SLink.fits (x : SLink) (vc : Nat) (ms : List (Nat × Msg)) : List (Nat × Msg) :=
  let room := min (vcBuf vc - mget x.used vc 0) (2048 - x.replay.length)
  let n := (ms.foldl (fun (t : Nat × Nat × Bool) e =>
    let bytes := t.1 + msgBytes e.2
    if t.2.2 && decide ((bytes + 243) / 244 ≤ room) then (bytes, t.2.1 + 1, true) else (t.1, t.2.1, false)) (0, 0, true)).2.1
  ms.take n

/-- The waiting messages of a virtual channel leave as DATA flits while credits last (R343, R344, R346). -/
def State.pumpVc (s : State) (n vc : Nat) : State :=
  let x := s.link n
  let mine := x.queue.filter (fun e => vcOf e.1 == vc)
  let now := x.fits vc mine
  if now.isEmpty then s
  else
    let (stream, starts) := streamOf now
    let k := (stream.length + 243) / 244
    let flits := (List.range k).map (fun i =>
      let (first, body) := streamFlit stream starts i
      (⟨(x.txSeq + i) % 4096, vc, first, body⟩ : TxFlit))
    let ends := (List.range now.length).map (fun i => (starts.getD (i + 1) stream.length - 1) / 244)
    let held := (now.zip ends).map (fun e => (e.1.1, (x.txSeq + e.2) % 4096, e.1.2))
    let left := mine.drop now.length
    let s := s.linkSet n { x with
      replay := x.replay ++ flits, used := mset x.used vc (mget x.used vc 0 + k) 0, held := x.held ++ held,
      txSeq := (x.txSeq + k) % 4096, queue := x.queue.filter (fun e => vcOf e.1 != vc) ++ left }
    let s := flits.foldl (fun u f => u.sendFlit n { kind := 1, vc := vc, seq := f.seq, first := f.first, body := f.body }) s
    s.rAdd64 (bank Reg.SPL_TXBYTES n) stream.length

/-- The messages that wait on a link in service leave while credits last, in order within a channel (R344, R346). -/
def State.pump (s : State) (n : Nat) : State :=
  if (s.link n).up then (List.range 4).foldl (fun u vc => u.pumpVc n vc) s else s

/-- A message handed to a link. -/
def State.post (s : State) (n kind : Nat) (m : Msg) : State :=
  let x := s.link n
  (s.linkSet n { x with queue := x.queue ++ [(kind, m)] }).pump n

/-! ## Links and requests -/

/-- Offset of FORWARD entry `d` in ROUTES (Table 15.7). -/
def fwdOff (d : Nat) : Nat := 0x640 + 16 * d

/-- HOP_LIMIT. -/
def Pat.hopLimit (t : Pat) : Nat := t.fld 6 0x600 1

/-- REQ_TIMEOUT in µs. -/
def Pat.reqTimeout (t : Pat) : Nat := t.fld 6 0x602 2

/-- Links on which a message for `dst` may leave, on behalf of `own` if it is a partition's (R354). -/
def State.exits (s : State) (own : Option Nat) (dst : Nat) : List Nat :=
  let t := s.ptn.running
  let may := fun n => (s.link n).up && (match own with
    | some p => bitOf (t.splineMask p) n
    | none => true)
  let first := (setBits (t.fld 6 (fwdOff dst) 8) 64).filter may
  let alt := t.fld 6 (fwdOff dst + 8) 1
  if !first.isEmpty then first
  else if bitOf alt 7 && may (alt % 64) then [alt % 64]
  else []

/-- One link of a list; which is not architectural (R354). -/
def State.choose (s : State) (xs : List Nat) : Option (Nat × State) :=
  match xs with
  | [] => none
  | [n] => some (n, s)
  | n :: _ => some (xs.getD (Config.pick s.free % xs.length) n, { s with free := s.free + 1 })

/-- A message finds no way: counted, recorded, signalled (R358). `die` is the I/O die 0 to 3 that holds it; the record names the
partition on whose behalf the message is sent, if any (R354, R484). -/
def State.noRoute (s : State) (die dst : Nat) (part : Option Nat) : State :=
  let s := (s.rAdd Reg.SPL_NOROUTE 15 0 1).rfSet Reg.SPL_NOROUTE 27 16 dst
  let s := (s.evSet Reg.SPL_EVT 2).raise 139
  let last := mfind s.spl.noRouteAt die
  let due := match last with
    | none => true
    | some t => decide (t + 1000000 ≤ s.now)
  if due then
    { s with spl := { s.spl with noRouteAt := mput s.spl.noRouteAt die s.now } }.err eLinkDown (unitId 8 (0x100 + die)) part 0 0
  else s

/-- What becomes of a request to a remote window: it fails with a code, waits, or is sent under a table entry. -/
inductive Sent where
  | fails (code : Nat)
  | waits
  | sent (key : Nat)
deriving DecidableEq, Repr

/-- The same issuer: a slot's lanes, a jig channel, or a host port (R355). -/
def sameIssuer (a b : Agent) : Bool := decide (a = b)

/-- The lowest free entry of an I/O die's table (R359). -/
def State.freeEntry (s : State) (die : Nat) : Option Nat :=
  ((List.range 4096).find? (fun i => !mhas s.spl.out (4096 * die + i))).map (4096 * die + ·)

/-- The bytes of its window that a request of a type covers. -/
def reqBytes (kind arg len : Nat) : Nat :=
  match kind with
  | 2 => arg % 1024
  | 4 => if bitOf arg 7 then (if arg / 16 % 8 < 3 then 4 else 8) else len
  | 5 => 8
  | _ => len

/-- An earlier request of an issuer to one of some lines of a window that has no READ_RESP (R355). -/
def State.lineBusy (s : State) (agent : Agent) (dst line lines : Nat) : Bool :=
  s.spl.out.any (fun e => sameIssuer e.2.owner agent && e.2.dst == dst &&
    decide (e.2.line < line + lines ∧ line < e.2.line + e.2.lines))

/-- A request of a partition to a remote window (R347, R354, R355, R359). -/
def State.remoteSend (s : State) (agent : Agent) (p kind a arg : Nat) (target : Nat) (payload : List Byte) : Sent × State :=
  let dst := (a - Config.remBase) / Config.remSize
  let off := (a - Config.remBase) % Config.remSize
  let line := off / 128
  let lines := (off + reqBytes kind arg payload.length - 1) / 128 - line + 1
  if s.moduleId = 0xFFF ∨ dst = s.moduleId then (.fails eBounds, s)
  else if s.lineBusy agent dst line lines then (.waits, s)
  else match s.choose (s.exits (some p) dst) with
  | none => (.fails eLinkDown, s.noRoute 0 dst (some p))
  | some (n, s) =>
    match s.freeEntry (n / 16) with
    | none => (.waits, s)
    | some key =>
      let (ok, s) := s.carry (s.agentDie agent) (6 + n / 16) 0 payload.length
      if !ok then (.fails eLinkDown, s)
      else
        let e : OutReq :=
          { owner := agent, part := p, epoch := s.epoch p, first := s.epoch p, dst := dst, line := line, lines := lines, sent := s.now,
            kind := kind }
        let m : Msg := {
          hops := BitVec.ofNat 6 s.ptn.running.hopLimit, dst := BitVec.ofNat 12 dst, src := BitVec.ofNat 12 s.moduleId,
          part := Fin.ofNat 16 target, srcPart := Fin.ofNat 16 p, offset := BitVec.ofNat 35 off,
          tag := BitVec.ofNat 16 key, arg := BitVec.ofNat 64 arg, epoch := BitVec.ofNat 16 (s.epoch p), payload := payload }
        (.sent key, { s with spl := { s.spl with out := mput s.spl.out key e } }.post n kind m)

/-- A table entry freed. -/
def State.dropEntry (s : State) (key : Nat) : State := { s with spl := { s.spl with out := mdel s.spl.out key } }

/-! ## Commands of several accesses -/

/-- Is this the read that an entry stands for? -/
def Far.same (f : Far) (agent : Agent) (p a len : Nat) : Bool :=
  decide (f.agent = agent) && f.part == p && f.addr == a && f.len == len

/-- The channels of an engine. -/
def engChans (e : Nat) : List Nat := (List.range 32).map (32 * e + ·)

/-- The sectors that a read covers (R296). -/
def secSpan (a len : Nat) : Nat := (a % 32 + len + 31) / 32

/-- The engine whose channel an agent is. -/
def engineOf : Agent → Option Nat
  | .jig ch => some (ch.val / 32)
  | _ => none

/-- The sector reads that an engine has out beside a read itself: of its channels' MOVEs, of the reads that stand at their slices,
and of the descriptors and lists read in remote windows (R289). -/
def State.engReads (s : State) (e : Nat) (q : Ask) : Nat :=
  ((engChans e).map (fun n => ((s.chan n).moves.map (fun v => (v.reads.map (fun a => secSpan a.skip a.take)).sum)).sum)).sum +
    ((s.lin.tickets.filter (fun t => decide (engineOf t.ask.agent = some e ∧ t.ask.kind = .read ∧ t.ask ≠ q.key))).map
      (fun t => secSpan t.ask.addr t.ask.len)).sum +
    ((s.spl.far.filter (fun f => decide (engineOf f.agent = some e) && f.key.isSome)).map (fun f => secSpan f.addr f.len)).sum

/-- Would a read put more sector reads out than the engine of its channel keeps, so that it waits (R289)? -/
def State.jigFull (s : State) (q : Ask) : Bool :=
  match engineOf q.agent, q.kind with
  | some e, .read => decide ((if e < 6 then 1024 else 512) < s.engReads e q + secSpan q.addr q.len)
  | _, _ => false

/-- A read of a descriptor, a list, or what a jig channel moves: ordinary, so a READ where it lies in a remote window (R274, R280,
R347). Until its READ_RESP has come, or while the engine's reads are full, the command waits (see `State.together`). -/
def State.readFar (s : State) (agent : Agent) (p a len : Nat) (ecc : Ecc) : Nat × List Byte × State :=
  let q : Ask := ⟨agent, some p, a, len, .read, ecc⟩
  if !isRemote a then (if s.jigFull q then (eTimeout, [], s.stick q) else s.memRead agent (some p) a len ecc)
  else match s.spl.far.find? (fun f => f.same agent p a len && f.key.isNone) with
    | some f =>
      (f.code, f.data, { s with spl := { s.spl with far := s.spl.far.map (fun g =>
        if g.same agent p a len then { g with used := true } else g) } })
    | none => (eTimeout, [], s.stick q)

/-- The READ of a descriptor or list that a command waits for, rounded outward to sectors (R280, R347). -/
def State.askFar (s : State) (q : Ask) : State :=
  let p := q.part.getD 0
  if s.spl.far.any (fun f => f.same q.agent p q.addr q.len) then s
  else
    let f : Far := { agent := q.agent, part := p, addr := q.addr, len := q.len }
    let add := fun (u : State) (f : Far) => { u with spl := { u.spl with far := u.spl.far ++ [f] } }
    match s.remoteSend q.agent p 2 (q.addr / 32 * 32) ((q.addr % 32 + q.len + 31) / 32 * 32) p [] with
    | (.waits, s) => s
    | (.fails c, s) => add s { f with code := c }
    | (.sent key, s) => add s { f with key := some key }

/-- Is a table entry a read of a descriptor or list? -/
def State.isFar (s : State) (key : Nat) : Bool := s.spl.far.any (fun f => decide (f.key = some key))

/-- Its answer (R348). -/
def State.farAnswer (s : State) (key code : Nat) (data : List Byte) : State :=
  { s with spl := { s.spl with far := s.spl.far.map (fun f =>
      if f.key = some key then { f with key := none, code := code, data := (data.drop (f.addr % 32)).take f.len } else f) } }

/-- A command that makes several accesses: where one of them has to wait, nothing of it is done yet but what that wait sets going
(DESIGN CHOICE, log entry 65). -/
def State.together (s : State) (f : State → State) : State :=
  let u := f { s with lin := { s.lin with stuck := none } }
  match u.lin.stuck with
  | none => { u with spl := { u.spl with far := u.spl.far.filter (fun g => !g.used) } }
  | some q =>
    if s.jigFull q then s
    else if isRemote q.addr then s.askFar q else s.lineBegin q none

end Sys2Proof.Machine
end

