-- ==== Sys2Proof/Machine/Host.lean ====
section
/-! DEFINITION. Host ports: the BAR2 aperture, BAR4, resets and configuration of functions, DOE (spec/16, R363 to R375). -/

namespace Sys2Proof.Machine

/-! ## The aperture -/

/-- The unit id of a function (Table 19.2), by function number. -/
def fnUnit (n : Nat) : Nat := unitId 9 (32 * (n / 17) + n % 17)

/-- The agent of a port. -/
def hostAgent (port : Nat) : Agent := .host (Fin.ofNat 2 port)

/-- HOSTACCESSn and MODULE_ACCESS of the running pattern for the PF of a port (Table 20.4). -/
def Pat.hostAccess (t : Pat) (n port : Nat) : Bool := bitOf (t.fld 10 (0x40 + 4 * n) 4) port

/-- MODULE_ACCESS. -/
def Pat.moduleAccess (t : Pat) (port : Nat) : Bool := bitOf (t.fld 10 4 4) port

/-- The partition of a BAR2 access of a function: none when the grant is missing (R368). -/
def State.bar2Part (s : State) (f : Func) : Option (Option Nat) :=
  let t := s.ptn.running
  match f with
  | .vf _ k => some (some k.val)
  | .pf p =>
    let x := s.fn f
    if x.modAcc then (if !s.ptn.committed || t.moduleAccess p.val then some none else none)
    else if t.hostAccess x.appart p.val then some (some x.appart) else none

/-- The error record of a failed BAR2 request (R369). -/
def State.bar2Err (s : State) (fn code addr : Nat) (part : Option Nat) : State := s.err code (fnUnit fn) part addr 0

/-- The completion of a BAR2 read. -/
def State.bar2Done (s : State) (fn : Nat) (kind : CplKind) (code : Nat) (data : List Byte) : State :=
  (s.send (.completion fn kind code data)).answer { data := data, code := code, kind := kind }

/-- The requests of a port set. -/
def State.portOps (s : State) (port : Nat) (ops : List HostOp) : State := s.portSet port { s.port port with ops := ops }

/-- The first piece of the oldest request of a port came to its end; a request reports its first failure (R369, R430). -/
def State.pieceDone (s : State) (port : Nat) (q : HostOp) (rest : List HostOp) (code : Nat) (data : List Byte) : State :=
  match q.todo with
  | [] => s.portOps port rest
  | (a, _, _) :: todo =>
    let s := if code ≠ 0 then s.bar2Err q.fn code a q.part else s
    if q.write then
      let s := if code ≠ 0 ∧ !q.poison then s.send (.aer port code) else s
      s.portOps port (if todo.isEmpty then rest else { q with todo := todo, remote := none, poison := q.poison || code != 0 } :: rest)
    else if code ≠ 0 ∧ code ≠ eUncorr ∧ !q.poison then (s.portOps port rest).bar2Done q.fn .abort code []
    else
      let q := { q with todo := todo, remote := none, got := q.got ++ data, poison := q.poison || code != 0 }
      if !todo.isEmpty then s.portOps port (q :: rest)
      else if q.poison then (s.portOps port rest).bar2Done q.fn .poisoned eUncorr []
      else (s.portOps port rest).bar2Done q.fn .ok 0 q.got

/-- The oldest request of a port goes on by one piece, if it can; whether it did (R355, R369, R370). Its urgency is that of the
port's buffer (R371). An access without a partition finds no link that its partition owns (R354; DESIGN CHOICE, log entry 55). -/
def State.hostStep (s : State) (port : Nat) : Bool × State :=
  let s := s.urge (masterId (hostAgent port)) (fillUrgency (s.port port).ops.length Config.hostBuffer)
  match (s.port port).ops with
  | [] => (false, s)
  | q :: rest =>
    match q.todo with
    | [] => (true, s.portOps port rest)
    | (a, n, bs) :: _ =>
      let ag := hostAgent port
      if q.remote.isSome then (false, s)
      else if isRemote a then
        match q.part with
        | none =>
          let own := decide (s.moduleId = 0xFFF ∨ (a - Config.remBase) / Config.remSize = s.moduleId)
          (true, if own then s.pieceDone port q rest eBounds []
            else (s.noRoute 0 ((a - Config.remBase) / Config.remSize) none).pieceDone port q rest eLinkDown [])
        | some p =>
          let lo := a / 32 * 32
          match (if q.write then s.remoteSend ag p 1 a 0 p bs
            else s.remoteSend ag p 2 lo ((a % 32 + n + 31) / 32 * 32) p []) with
          | (.waits, s) => (false, s)
          | (.fails c, s) => (true, s.pieceDone port q rest c [])
          | (.sent key, s) => (false, s.portOps port ({ q with remote := some key, skip := a % 32 } :: rest))
      else if s.memWaits ag q.part a n (if q.write then .write else .read) .clean then
        (false, s.memBegin ag q.part a n (if q.write then .write else .read) .clean)
      else if q.write then
        let (c, s) := s.memWrite ag q.part a bs .clean
        (true, s.pieceDone port q rest c [])
      else
        let (c, bs, s) := s.memRead ag q.part a n .clean
        (true, s.pieceDone port q rest c bs)

/-- The requests of a port go on while they can. -/
def State.hostRun (s : State) (port : Nat) : Nat → State
  | 0 => s
  | n + 1 =>
    match s.hostStep port with
    | (true, u) => u.hostRun port n
    | (false, u) => u

/-- The pieces a port has still to do: the fuel of `hostRun`. -/
def State.hostWork (s : State) (port : Nat) : Nat :=
  ((s.port port).ops.map (fun q => q.todo.length + 1)).sum

/-- The requests of a port go on while they can. -/
def State.hostPump (s : State) (port : Nat) : State := s.hostRun port (s.hostWork port)

/-- A READ_RESP, or the failure of a request, reaches a port (R348, R369). -/
def State.hostRemote (s : State) (port key code : Nat) (data : List Byte) : State :=
  match (s.port port).ops with
  | [] => s
  | q :: rest =>
    if q.remote ≠ some key then s
    else
      let n := match q.todo with
        | (_, n, _) :: _ => n
        | [] => 0
      (s.pieceDone port q rest code ((data.drop q.skip).take n)).hostPump port

/-- A BAR2 request of a function at an offset joins its port's requests, or fails (R365, R368, R369). -/
def State.bar2Start (s : State) (f : Func) (off : Nat) (write : Bool) (pieces : List (Nat × Nat × List Byte)) : State :=
  let off_ := match vfPart f with
    | some k => !s.ptn.running.enabled k.val
    | none => false
  let port := portOf f
  let a := (s.fn f).apbase + off
  if off_ || decide (2 ^ (s.fn f).bar2Log ≤ off) then
    (if write then s.answer { kind := .unsupported } else s.bar2Done (fnIx f) .unsupported 0 [])
  else match s.bar2Part f with
    | none =>
      let s := s.bar2Err (fnIx f) ePerm a none
      if write then s.send (.aer port ePerm) else s.bar2Done (fnIx f) .abort ePerm []
    | some p =>
      let q : HostOp := { fn := fnIx f, part := p, write := write, todo := pieces.map (fun x => ((s.fn f).apbase + x.1, x.2)), since := (s.port port).arrived.getD s.now }
      (s.portOps port ((s.port port).ops ++ [q])).hostPump port

/-- BAR2_READ (R365, R368 to R371). -/
def execBar2Read (f : Func) (off : BitVec 40) (len : Nat) (s : State) : Res :=
  let base := (s.fn f).apbase
  .next (if (s.port (portOf f)).later.isEmpty then
      (s.answer {}).bar2Start f off.toNat false ((lineCuts (base + off.toNat) len).map (fun q => (q.1 - base, q.2, [])))
    else s.putOff (portOf f) (.bar2Read f off len))

/-- The runs of enabled bytes: offset and bytes. -/
def enabledRuns : Nat → List Byte → List Bool → List (Nat × List Byte)
  | o, b :: bs, e :: es =>
    let r := enabledRuns (o + 1) bs es
    if !e then r
    else match r with
      | (i, xs) :: rest => if i = o + 1 then (o, b :: xs) :: rest else (o, [b]) :: (i, xs) :: rest
      | [] => [(o, [b])]
  | _, _, _ => []

/-- BAR2_WRITE (R365, R368 to R371). -/
def execBar2Write (f : Func) (off : BitVec 40) (bytes : List Byte) (enable : List Bool) (s : State) : Res :=
  let base := (s.fn f).apbase
  let pieces := ((enabledRuns off.toNat bytes enable).map (fun r =>
    ((lineCuts (base + r.1) r.2.length).foldl (fun (t : List (Nat × Nat × List Byte) × List Byte) q =>
      (t.1 ++ [(q.1 - base, q.2, t.2.take q.2)], t.2.drop q.2)) ([], r.2)).1)).flatten
  .next (if (s.port (portOf f)).later.isEmpty then (s.answer {}).bar2Start f off.toNat true pieces
    else s.putOff (portOf f) (.bar2Write f off bytes enable))

/-- The BAR2 read of a function that a put-off access is: its offset. -/
def bar2ReadOf (f : Func) : Instr → Option Nat
  | .bar2Read g off _ => if g = f then some off.toNat else none
  | _ => none

/-- A BAR2 read that was put off has not completed 30 ms after it arrived (R369). -/
def State.lateTimeout (s : State) (f : Func) : State :=
  let port := portOf f
  match (s.port port).later.find? (fun e => (bar2ReadOf f e.2).isSome) with
  | none => s
  | some e =>
    let s := s.at (e.1 + 30000000)
    let s := s.bar2Err (fnIx f) eTimeout ((s.fn f).apbase + (bar2ReadOf f e.2).getD 0) (s.bar2Part f).join
    (s.portSet port { s.port port with later := (s.port port).later.erase e }).bar2Done (fnIx f) .abort eTimeout []

/-- BAR2_READ_TIMEOUT: the oldest read of a function has not completed 30 ms after it arrived (R369). -/
def execBar2ReadTimeout (f : Func) (s : State) : Res :=
  let port := portOf f
  let ops := (s.port port).ops
  .next (match ops.find? (fun q => q.fn == fnIx f && !q.write) with
    | none => s.lateTimeout f
    | some q =>
      let s := s.at (q.since + 30000000)
      let s := s.bar2Err q.fn eTimeout ((q.todo.map (·.1)).headD 0) q.part
      let s := s.forgetTickets (fun t => decide (t.ask.agent = hostAgent port))
      ((s.portOps port (ops.erase q)).bar2Done q.fn .abort eTimeout []).hostPump port)

/-- APBASE_WRITE: the base rounded down to a multiple of the BAR2 size (R365, R368). -/
def State.setApbase (s : State) (f : Func) (v : Nat) : State :=
  let x := s.fn f
  if s.speaks f then s.fnSet f { x with apbase := v % 2 ^ 48 / 2 ^ x.bar2Log * 2 ^ x.bar2Log } else s

/-- APBASE_WRITE (R368). -/
def execApbaseWrite (f : Func) (v : BitVec 48) (s : State) : Res :=
  .next (s.inOrder f (.apbaseWrite f v) (fun s =>
    s.setApbase f v.toNat))

/-! ## BAR4 -/

/-- May a host write the byte at an offset of a partition's area: TAIL and the slate (Tables 3.2 to 3.4, R61, R372)? -/
def bar4Writable (o : Nat) : Bool := decide (o < 4) || decide (0x40000 ≤ o ∧ o < 0x80000)

/-- Where the BAR4 of a function lies in the 16 areas, and its size: a PF reaches all of them, a VF its own at offset 0 (R61, R365,
R366); none for a VF whose partition is not enabled. -/
def State.bar4Window (s : State) (f : Func) : Option (Nat × Nat) :=
  match vfPart f with
  | none => some (0, 2 ^ 24)
  | some k => if s.ptn.running.enabled k.val then some (2 ^ 20 * k.val, 2 ^ 20) else none

/-- What a read of BAR4 returns: the bytes of the area; zero through a VF whose partition is not enabled (R365, R366). -/
def State.bar4Read (s : State) (f : Func) (off n : Nat) : List Byte :=
  match s.bar4Window f with
  | none => List.replicate n 0
  | some (base, lim) => (List.range n).map (fun i => if off + i < lim then mget s.bar4 (base + off + i) 0 else 0)

/-- Bytes written through BAR4. -/
def State.bar4Put (s : State) (f : Func) (off : Nat) (bytes : List Byte) : State :=
  match s.bar4Window f with
  | none => s
  | some (base, lim) =>
    { s with bar4 := (List.range bytes.length).foldl (fun (m : List Host.Cell) i =>
        if off + i < lim ∧ bar4Writable ((off + i) % 2 ^ 20) then mset m (base + off + i) (bytes.getD i 0) 0 else m) s.bar4 }

/-- BAR4_WRITE, in arrival order on its port (R61, R365, R366, R372). -/
def execBar4Write (f : Func) (off : BitVec 24) (bytes : List Byte) (s : State) : Res :=
  .next (s.inOrder f (.bar4Write f off bytes) (fun s => s.bar4Put f off.toNat bytes))

/-! ## Functions -/

/-- A function's aperture and MSI-X state at its reset values, its latches and held writes discarded (R9, R375). -/
def State.fnReset (s : State) (n : Nat) : State :=
  { s with
    latches := mclear s.latches (n * 2 ^ 28) (2 ^ 28)
    heldWrites := mclear s.heldWrites (n * 2 ^ 28) (2 ^ 28)
    host := { s.host with
      fns := mdel s.host.fns n,
      msixWords := mclear s.host.msixWords (256 * n) 256,
      pba := s.host.pba.filter (fun k => k / 64 != n) } }

/-- A VF reset: aperture, MSI-X and hold-offs, and its requests dropped (R375, R438). -/
def State.vfReset (s : State) (port k : Nat) : State :=
  let n := 17 * port + 1 + k
  let s := s.fnReset n
  let s := s.portOps port ((s.port port).ops.filter (fun q => q.fn != n))
  let s := s.forgetTickets (fun t => decide (t.ask.agent = hostAgent port))
  let s := s.portSet port { s.port port with later := (s.port port).later.filter (fun e => !cmdOf n e.2) }
  { s with irq := { s.irq with vf := mclear s.irq.vf (64 * port + 4 * k) 4 } }

/-- PORT_RESET: the PF and the VFs of a port are reset; an FLR leaves the link as it is, every other cause trains it anew
(R363, R375). -/
def execPortReset (port : Fin 2) (flr : Bool) (s : State) : Res :=
  let p := port.val
  let s := ((List.range 16).foldl (fun u k => u.vfReset p k) s).fnReset (17 * p)
  let x := s.port p
  .next (s.portSet p (if flr then { st := x.st, speed := x.speed, width := x.width } else { st := .training }))

/-- VF_FLR (R375). -/
def execVfFlr (port : Fin 2) (k : Fin 16) (s : State) : Res := .next (s.vfReset port.val k.val)

/-- HOST_PORT_LINK_UP: the port reaches L0 at 32, 64 or 128 GT/s on 1, 2 or 4 lanes; with a partner that does not support Flit Mode
it does not, and is DOWN (R363, Table 16.12). -/
def execHostPortLinkUp (port : Fin 2) (flit : Bool) (speed : Fin 3) (width : Fin 3) (s : State) : Res :=
  let x := s.port port.val
  .next (if x.st = .up then s
    else if !flit then s.portSet port.val { x with st := .down }
    else s.portSet port.val { x with st := .up, speed := speed.val, width := 2 ^ width.val })

/-- The size of a BAR of a function as a power of two (Table 16.2): BAR0 256 MiB, BAR2 as resized, BAR4 16 MiB or 1 MiB. -/
def State.barLog (s : State) (f : Func) (bar : Nat) : Nat :=
  if bar = 0 then 28 else if bar = 2 then (s.fn f).bar2Log else if isPf f then 24 else 20

/-- A BAR as configuration space shows it: memory, 64 bits, prefetchable for BAR2 alone, above an address that is a multiple of its
size (R366, Table 16.2). -/
def State.barWord (s : State) (f : Func) (bar : Nat) : Nat :=
  mget (s.fn f).bars bar 0 / 2 ^ s.barLog f bar * 2 ^ s.barLog f bar + 4 + (if bar = 2 then 8 else 0)

/-- The capabilities of a configuration space (Table 16.1; that of PCI Express itself holds the link capabilities and the payload
size). -/
inductive Capability where
  | pciExpress
  | powerManagement
  | msix
  | aer
  | doe
  | resizableBar
  | vfResizableBar
  | sriov
  | serialNumber
  | dataLinkFeature
  | physical32
  | physical64
  | physical128
deriving DecidableEq, Repr

/-- The capabilities of a function; every other is absent (R364). -/
def capabilitiesOf (pf : Bool) : List Capability :=
  [.pciExpress, .powerManagement, .msix, .aer, .doe] ++
    (if pf then [.resizableBar, .sriov, .serialNumber, .dataLinkFeature, .physical32, .physical64, .physical128]
     else [.vfResizableBar])

/-- The configuration space of a function beside its BARs (Table 16.1). -/
structure ConfigSpace where
  vendor : Nat
  device : Nat
  revision : Nat
  classCode : Nat
  subVendor : Nat
  subsystem : Nat
  headerType : Option Nat
  maxPayload : Nat
  linkRate : Option Nat
  linkWidth : Option Nat
  totalVfs : Nat
  initialVfs : Nat
  firstVfOffset : Nat
  vfStride : Nat
  pageSizes : List Nat
  msixSize : Nat
  msixTable : Nat
  msixPba : Nat
  bar2Least : Nat
  bar2Most : Nat
  powerStates : List Nat
  serial : Option Nat
  capabilities : List Capability
deriving DecidableEq, Repr

/-- The subsystem id of the order code (Table 16.1). -/
def State.subsystemId (s : State) : Nat :=
  if s.fuses.stackMask = 0xFFF then (if s.fuses.links = 64 then 1 else 2) else if s.fuses.links = 64 then 3 else 4

/-- What the configuration space of a function holds (R364, Table 16.1). -/
def State.configSpace (s : State) (f : Func) : ConfigSpace :=
  let pf := isPf f
  { vendor := if pf then 0x1F3D else 0xFFFF, device := if pf then 0x0109 else 0x010A, revision := s.fuses.stepping,
    classCode := 0x120000, subVendor := 0x1F3D, subsystem := s.subsystemId, headerType := if pf then some 0 else none,
    maxPayload := 512, linkRate := if pf then some 128 else none, linkWidth := if pf then some 4 else none,
    totalVfs := if pf then 16 else 0, initialVfs := if pf then 16 else 0, firstVfOffset := if pf then 1 else 0,
    vfStride := if pf then 1 else 0, pageSizes := if pf then [4096, 65536] else [], msixSize := if pf then 64 else 4,
    msixTable := 0x8000, msixPba := 0x9000, bar2Least := 28, bar2Most := if pf then 40 else 36, powerStates := [0, 3],
    serial := if pf then some s.fuses.serial else none, capabilities := capabilitiesOf pf }

/-- CONFIGURATION_WRITE: MSI-X Enable and function mask of a function, its BARs and power state, and VF Enable and NumVFs of a PF;
a vector whose mask clears sends what waits, and clearing VF Enable resets the VFs (R364, R366, R373, R438). What D3hot does beyond
that is the PCI Express Base Specification's, and is left out (log entry 13). -/
def execConfigurationWrite (f : Func) (x : CfgWrite) (s : State) : Res :=
  .next (s.inOrder f (.configurationWrite f x) (fun s =>
    let y := s.fn f
    let log := 28 + x.bar2Log.val
    let y : Fn := { y with
      msix := x.msixEnable, fmask := x.fmask, bar2Log := if log ≤ (s.configSpace f).bar2Most then log else y.bar2Log, d3 := x.d3,
      bars := mset (mset (mset y.bars 0 x.bar0.toNat 0) 2 x.bar2.toNat 0) 4 x.bar4.toNat 0 }
    let s := s.fnSet f y
    (match f with
      | .pf p =>
        let was := (s.port p.val).vfEnable
        let s := s.portSet p.val { s.port p.val with vfEnable := x.vfEnable, numVfs := x.numVfs.val }
        if was && !x.vfEnable then (List.range 16).foldl (fun u k => u.vfReset p.val k) s else s
      | .vf p k => (List.range 4).foldl (fun u v => u.vfUnmask p.val k.val v) s)))

/-- The answer of DOE Discovery to an index: vendor, protocol, next index; discovery itself, then CMA/SPDM (Table 16.1; the object's
layout is PRESUMED from the PCI Express Base Specification, log entry 13). -/
def doeDiscovery (index : Nat) : List Byte :=
  match index with
  | 0 => [0x01, 0x00, 0x00, 0x01]
  | 1 => [0x01, 0x00, 0x01, 0x00]
  | _ => [0xFF, 0xFF, 0x00, 0x00]

/-- DOE_REQUEST: the mailbox takes a request object of up to 64 KiB and returns a response object (R374). Discovery is answered
here; what a CMA/SPDM object asks is the business of the SPDM commands, which return its response, of at most 256 KiB. An object
of another protocol gets no answer. -/
def execDoeRequest (f : Func) (vendor : BitVec 16) (kind : BitVec 8) (object : List Byte) (s : State) : Res :=
  .next (s.inOrder f (.doeRequest f vendor kind object) (fun s =>
    (if 65536 < object.length then s.answer { kind := .abort }
      else if vendor = 1 ∧ kind = 0 then
        let d := doeDiscovery (object.headD 0).toNat
        (s.send (.doe f d)).answer { data := d }
      else s.answer {})))

end Sys2Proof.Machine
end

