-- ==== Sys2Proof/Machine/Tensor.lean ====
section
/-! DEFINITION. Tensor descriptors, cutting lists, tallies and packed blocks (spec/12, R83, R262 to R265). -/

namespace Sys2Proof.Machine

/-- A little-endian field of a byte list. -/
def fieldAt (bs : List Byte) (o n : Nat) : Nat := leNat ((bs.drop o).take n)

/-! ## Descriptors -/

/-- A descriptor (Table 12.1): SIZE by dimension, STRIDE of dimension `d` at place `d - 1`; `zero` says that the field marked
zero is. -/
structure Desc where
  base : Nat
  fmt : Nat
  rank : Nat
  tally : Nat
  cut : Bool
  zero : Bool
  size : List Nat
  stride : List Nat
  scalePtr : Nat
  cutPtr : Nat
deriving DecidableEq, Repr

/-- The fields of Table 12.1. -/
def descOf (bs : List Byte) : Desc :=
  let w := fieldAt bs 0 8
  { base := bitsOf w 47 0, fmt := bitsOf w 55 48, rank := bitsOf w 58 56, tally := bitsOf w 60 59, cut := bitOf w 61,
    zero := bitsOf w 63 62 == 0,
    size := (List.range 6).map (fun d => fieldAt bs (0x08 + 4 * d) 4),
    stride := (List.range 5).map (fun d => fieldAt bs (0x20 + 4 * d) 4),
    scalePtr := fieldAt bs 0x34 6, cutPtr := fieldAt bs 0x3A 6 }

/-- Size of dimension `d`. -/
def Desc.sz (x : Desc) (d : Nat) : Nat := x.size.getD d 0

/-- Stride of dimension `d`, for `d` from 1. -/
def Desc.st (x : Desc) (d : Nat) : Nat := x.stride.getD (d - 1) 0

/-- The first row of Table 12.2 does not apply. -/
def Desc.formed (x : Desc) : Bool :=
  fmtValid x.fmt && decide (1 ≤ x.rank ∧ x.rank ≤ 6) && x.zero &&
    (List.range 6).all (fun d => (x.sz d == 0) == decide (x.rank ≤ d)) &&
    (List.range 5).all (fun d => decide (d + 1 < x.rank) || x.st (d + 1) == 0) &&
    (if fmtScaled x.fmt && !x.cut then x.scalePtr != 0 else x.scalePtr == 0) &&
    (x.cut || x.cutPtr == 0)

/-- The second row of Table 12.2 does not apply. -/
def Desc.aligned (x : Desc) : Bool :=
  x.base % 32 == 0 && (List.range 5).all (fun d => x.st (d + 1) % 32 == 0) && x.scalePtr % 32 == 0 &&
    (!x.cut || x.cutPtr % 64 == 0)

/-- A cutting list's header (Table 12.5). -/
structure CutList where
  dim : Nat
  count : Nat
  blockLen : Nat
deriving DecidableEq, Repr

/-- A descriptor checked (R278): the code of the first row of Table 12.2 that applies, whether the list's header could not be
read, the header. -/
def State.checkDesc (s : State) (agent : Agent) (p : Nat) (x : Desc) : Nat × Bool × Option CutList × State :=
  if !x.formed then (eBounds, false, none, s)
  else if !x.aligned then (eAlign, false, none, s)
  else if !x.cut then (0, false, none, s)
  else
    let (c, bs, s) := s.readFar agent p x.cutPtr 32 .clean
    if c ≠ 0 then (c, true, none, s)
    else
      let l : CutList := ⟨fieldAt bs 2 1, fieldAt bs 4 4, fieldAt bs 8 4⟩
      if fieldAt bs 0 2 ≠ 0x4C43 ∨ x.rank ≤ l.dim ∨ l.blockLen = 0 ∨
          (fmtScaled x.fmt ∧ l.dim = 0 ∧ l.blockLen % 32 ≠ 0) then (eBounds, false, none, s)
      else (0, false, some l, s)

/-- Bytes of an unscaled element. -/
def elemBytes (fmt : Nat) : Nat := fmtBits fmt / 8

/-- Bytes of the elements of a block (R83). -/
def blockLen (fmt : Nat) : Nat := 4 * fmtBits fmt

/-- Where an element, or the block that holds it, and its scale entry lie: a code where an access fails for lack of an
address, which is then that of the list entry, or beyond the owner's window (log entry 54); the partition the access names; whether
the owner is this module (R275, R276, R285, R286). -/
structure Spot where
  code : Nat := 0
  elem : Nat := 0
  scaleCode : Nat := 0
  scale : Nat := 0
  part : Nat := 0
  home : Bool := true
deriving DecidableEq, Repr

/-- R275 over a base. -/
def elemAddr (x : Desc) (base : Nat) (idx : List Nat) : Nat :=
  let outer := (List.range 5).foldl (fun a d => a + idx.getD (d + 1) 0 * x.st (d + 1)) base
  let i0 := idx.getD 0 0
  outer + (if fmtScaled x.fmt then i0 / 32 * blockLen x.fmt else i0 * elemBytes x.fmt)

/-- R276 over a scale pointer and sizes. -/
def scaleAddr (x : Desc) (ptr : Nat) (size idx : List Nat) : Nat :=
  let nb := (size.getD 0 0 + 31) / 32
  let r := (List.range (x.rank - 1)).foldl (fun (t : Nat × Nat) d =>
    (t.1 + idx.getD (d + 1) 0 * t.2, t.2 * size.getD (d + 1) 0)) (idx.getD 0 0 / 32, nb)
  ptr + r.1 * fmtScaleBytes x.fmt

/-- An element resolved (R275, R276, R285). -/
def State.locate (s : State) (agent : Agent) (p : Nat) (x : Desc) (cut : Option CutList) (idx : List Nat) : Spot × State :=
  match cut with
  | none => ({ elem := elemAddr x x.base idx, scale := scaleAddr x x.scalePtr x.size idx, part := p }, s)
  | some l =>
    let i := idx.getD l.dim 0
    let k := i / l.blockLen
    let at_ := x.cutPtr + 32 + 16 * k
    let none_ := fun (c : Nat) => ({ code := c, scaleCode := c, elem := at_, scale := at_, part := p } : Spot)
    if l.count ≤ k then (none_ eBounds, s)
    else
      let (c, bs, s) := s.readFar agent p at_ 16 .clean
      if c ≠ 0 then (none_ c, s)
      else
        let lo := fieldAt bs 0 8
        let idx := idx.set l.dim (i - k * l.blockLen)
        let e := elemAddr x (bitsOf lo 47 0) idx
        let sc := scaleAddr x (bitsOf (fieldAt bs 8 8) 47 0) (x.size.set l.dim l.blockLen) idx
        let m := bitsOf lo 59 48
        if m = s.moduleId then ({ elem := e, scale := sc, part := p }, s)
        else
          let win := Config.remBase + m * Config.remSize
          ({ code := if Config.remSize ≤ e then eBounds else 0, elem := win + e,
             scaleCode := if Config.remSize ≤ sc then eBounds else 0, scale := win + sc,
             part := bitsOf lo 63 60, home := false }, s)

/-! ## Packed elements (R83, R85) -/

/-- Element `i` of packed elements of `bits` bits. -/
def elemAt (bs : List Byte) (bits i : Nat) : Nat :=
  let o := bits * i
  leNat ((bs.drop (o / 8)).take ((bits + o % 8 + 7) / 8)) / 2 ^ (o % 8) % 2 ^ bits

/-- Element codes packed. -/
def packElems (bits : Nat) (codes : List Nat) : List Byte :=
  leBytes (codes.foldr (fun c n => c % 2 ^ bits + 2 ^ bits * n) 0) ((bits * codes.length + 7) / 8)

/-- The scale entry of a block (R85). -/
def scaleEntry (fmt : Nat) (b : Block) : List Byte := leBytes (b.scale + 256 * b.pleats) (fmtScaleBytes fmt)

/-! ## Tallies -/

/-- A write of a producing command to this module: address, bytes, whether it succeeded. -/
structure Written where
  addr : Nat
  bytes : List Byte
  good : Bool
deriving DecidableEq, Repr

/-- The 4 KiB blocks that ranges touch, rising. -/
def tallyBlocks (rs : List (Nat × Nat)) : List Nat :=
  sortNat ((rs.map (fun r => (List.range ((r.1 % 4096 + r.2 + 4095) / 4096)).map (fun i =>
    r.1 / 4096 * 4096 + 4096 * i))).flatten.eraseDups)

/-- Writes of a command as cells, later ones over earlier ones. -/
def writtenCells (ws : List Written) : List Host.Cell := ws.foldl (fun m w => putCells m w.addr w.bytes) []

/-- The tally entries of a producing command's writes (R263): `bad` voids every entry. The first failing entry write, if
any, is returned as code and address. The CRC of an entry with VALID 0 is not stated. -/
def State.produce (s : State) (agent : Agent) (p : Nat) (ws : List Written) (bad : Bool) : Option (Nat × Nat) × State :=
  let cells := writtenCells (ws.filter (·.good))
  let lost := tallyBlocks ((ws.filter (fun w => !w.good)).map (fun w => (w.addr, w.bytes.length)))
  (tallyBlocks (ws.map (fun w => (w.addr, w.bytes.length)))).foldl (fun (t : Option (Nat × Nat) × State) b =>
    match (if b < Config.hbmEnd then t.2.tallyEntry b else none) with
    | none => t
    | some e =>
      let mine := cells.filter (fun c => decide (b ≤ c.1 ∧ c.1 < b + 4096))
      let whole := !bad && mine.length == 4096 && !lost.contains b
      let crc := if whole then crc32c (mine.map (·.2)) else Config.freeValue t.2.free % 2 ^ 32
      let v := crc + 2 ^ 32 * b2n whole + 2 ^ 48 * t.2.epoch p
      let (c, u) := t.2.memWrite agent (some p) e (leBytes v 8) .clean
      let u := if whole then u else { u with free := u.free + 1 }
      (if c ≠ 0 ∧ t.1.isNone then some (c, e) else t.1, u)) (none, s)

/-- The tally check of a consuming command's reads (R264, R265): the code, address and syndrome of the first failure. -/
def State.consume (s : State) (agent : Agent) (p : Nat) (rs : List Written) (require : Bool) :
    Option (Nat × Nat × Nat) × State :=
  let cells := writtenCells rs
  (tallyBlocks (rs.map (fun w => (w.addr, w.bytes.length)))).foldl (fun (t : Option (Nat × Nat × Nat) × State) b =>
    let mine := cells.filter (fun c => decide (b ≤ c.1 ∧ c.1 < b + 4096))
    if t.1.isSome || Config.hbmEnd ≤ b || mine.length != 4096 then t
    else
      let crc := crc32c (mine.map (·.2))
      let fail := fun (u : State) => (some (eTally, b, crc), u.rAdd Reg.HBM_TALLY_FAIL 31 0 1)
      let void := fun (u : State) => if require then fail u else (none, u.rAdd Reg.HBM_TALLY_UNCHK 31 0 1)
      match t.2.tallyEntry b with
      | none => void t.2
      | some e =>
        let (c, bs, u) := t.2.readFar agent p e 8 .clean
        if c ≠ 0 then (some (c, e, 0), u)
        else if !bitOf (leNat bs) 32 then void u
        else if leNat bs % 2 ^ 32 = crc then (none, u)
        else fail u) (none, s)

/-- Adjoining pieces of one kind merged: address, partition, owner here, bytes. -/
def mergePieces : List (Nat × Nat × Bool × List Byte) → List (Nat × Nat × Bool × List Byte)
  | [] => []
  | x :: xs =>
    match mergePieces xs with
    | [] => [x]
    | y :: ys =>
      if x.1 + x.2.2.2.length = y.1 ∧ x.2.1 = y.2.1 ∧ x.2.2.1 = y.2.2.1 then
        (x.1, x.2.1, x.2.2.1, x.2.2.2 ++ y.2.2.2) :: ys
      else x :: y :: ys

end Sys2Proof.Machine
end

