-- ==== Sys2Proof/Machine/Jig.lean ====
section
/-! DEFINITION. The jig engines: channels, MOVE in both forms, LOOP, WAIT, SIGNAL, END, errors, PL7 compatibility mode
(spec/13). -/

namespace Sys2Proof.Machine

/-! ## MOVE: its fields (R293) -/

/-- A field of an instruction. -/
def jf (w : BitVec 128) (hi lo : Nat) : Nat := bitsOf w.toNat hi lo

/-- A wrap field is not reserved. -/
def wrapOk (v : Nat) : Bool := v == 0 || decide (6 ≤ v)

/-- Is a MOVE in descriptor form? -/
def isDesc (w : BitVec 128) : Bool := bitOf w.toNat 10

/-- Is a side the tensor of a descriptor form? -/
def tensorSide (w : BitVec 128) (src : Bool) : Bool := isDesc w && (src != bitOf w.toNat 11)

/-- The wrap field of a side. -/
def wrapOf (w : BitVec 128) (src : Bool) : Nat := if src then jf w 16 12 else jf w 21 17

/-- Is a MOVE executable (R293, Table 13.2)? -/
def moveOk (w : BitVec 128) : Bool :=
  decide (jf w 7 4 ≤ 6) && jf w 23 22 == 0 && wrapOk (wrapOf w true) && wrapOk (wrapOf w false) &&
    (if isDesc w then jf w 9 8 == 0 && wrapOf w (!bitOf w.toNat 11) == 0 else !bitOf w.toNat 11)

/-- G0 and GN of a descriptor form. -/
def groupsOf (w : BitVec 128) : Nat × Nat := (jf w 35 24, jf w 47 36 + 1)

/-- Bytes of the image of a MOVE: LEN, or the elements and scale entries of its groups (R298). -/
def moveLen (w : BitVec 128) (fmt : Nat) : Nat :=
  if isDesc w then (groupsOf w).2 * (blockLen fmt + fmtScaleBytes fmt) else jf w 47 24 + 1

/-- The bytes of a MOVE's image. -/
def MoveSt.len (v : MoveSt) : Nat := moveLen v.w (descOf v.desc).fmt

/-- Has a MOVE issued all its reads, or does it issue nothing further (R301, R306)? -/
def MoveSt.issued (v : MoveSt) : Bool := v.dead || (v.begun && decide (v.len ≤ v.got.length))

/-! ## Channels -/

/-- The key of a channel's register (Tables 13.9 to 13.15). -/
def chReg (off ch : Nat) : Nat := off + 0x40 * ch

/-- The agent of a channel. -/
def jigAgent (ch : Nat) : Agent := .jig (Fin.ofNat 320 ch)

/-- The partition a channel's accesses carry (R288). -/
def State.chPart (s : State) (ch : Nat) : Nat := (s.ptn.running.chanOwner ch).getD 0

/-- Is an engine fitted (R3, R288)? -/
def State.engFitted (s : State) (e : Nat) : Bool := decide (e < 6) || bitOf s.fuses.xMask (e - 6)

/-- The PC of a channel. -/
def State.chPc (s : State) (ch : Nat) : Nat := s.rf (chReg Reg.JIG_CH_PC ch) 15 0

/-- Is PL7 compatibility mode in force on an engine (R308)? -/
def State.pl7Active (s : State) (e : Nat) : Bool :=
  s.rb (Reg.JIG_ENG + 4 * e) 0 &&
    decide (((engChans e).filterMap s.ptn.running.chanOwner).eraseDups.length ≤ 1)

/-- A PEND bit of a channel set and its source raised (Table 13.8). -/
def State.chPend (s : State) (reg src ch : Nat) : State := (s.evSet (reg + 4 * (ch / 32)) (ch % 32)).raise src

/-- The states in which the next instruction of a channel runs: every MOVE before it has issued its reads (R301). -/
def State.chReady (s : State) (ch : Nat) : Bool :=
  let c := s.chan ch
  c.st == .running && c.wait.isNone && !c.stopping && c.moves.all MoveSt.issued

/-- The accesses of a MOVE that are out. -/
def MoveSt.out (v : MoveSt) : Bool := !v.reads.isEmpty || !v.writes.isEmpty

/-- The MOVEs of a channel that issues nothing further: those with accesses out, or whose tallies are still to be voided. -/
def Chan.remains (c : Chan) : List MoveSt := (c.moves.filter (fun v => v.out || v.bad)).map (fun v => { v with dead := true })

/-- Nothing more is asked by a channel's accesses that stood or had been answered. -/
def State.jigForget (s : State) (ch : Nat) : State :=
  let s := s.forgetTickets (fun t => decide (t.ask.agent = jigAgent ch))
  { s with spl := { s.spl with far := s.spl.far.filter (fun f => !decide (f.agent = jigAgent ch) || f.key.isSome) } }

/-- A program is not executable, or a fetch failed; ADDR names the fetch that failed (R307, R484; log entry 39). -/
def State.jigFault (s : State) (ch code sub : Nat) : State :=
  let s := (s.chanMap ch (fun c => { c with st := .faulted, moves := c.remains, wait := none })).jigForget ch
  let s := s.rgSet (chReg Reg.JIG_CH_FAULT ch) (BitVec.ofNat 32 (code + 2 ^ 16 * sub))
  let a := if code = fBusErr then (s.rg64 (chReg Reg.JIG_CH_PROG ch) + s.chPc ch) % 2 ^ 48 else 0
  let s := s.err code (unitId 6 ch) (some (s.chPart ch)) a 0
  s.chPend Reg.JIG_FAULT_PEND 135 ch

/-- The channel goes on at `pc`; a PC of 0x1_0000 makes the program not executable (R293); a stop-all that waits takes effect
(R308). A channel that is being stopped goes nowhere (R290). -/
def State.goTo (s : State) (ch pc : Nat) : State :=
  let stopped := s.jig.stopped.contains (ch / 32)
  if (s.chan ch).stopping then s
  else if 0x10000 ≤ pc then s.jigFault ch fIllegal 0
  else
    (s.rfSet (chReg Reg.JIG_CH_PC ch) 15 0 pc).chanMap ch (fun c =>
      { c with st := if stopped then .stopped else .running, wait := none, sent := none })

/-- The channel goes on with the next instruction. -/
def State.goOn (s : State) (ch : Nat) : State := s.goTo ch (s.chPc ch + 16)

/-- Does a channel read a descriptor or a list in a remote window? -/
def State.chFar (s : State) (ch : Nat) : Bool := s.spl.far.any (fun f => decide (f.agent = jigAgent ch) && f.key.isSome)

/-- A stopped channel whose last access has completed is IDLE (R290). -/
def State.haltDone (s : State) (ch : Nat) : State :=
  let c := s.chan ch
  if c.stopping && c.moves.isEmpty && c.sent.isNone && !s.chFar ch then
    (s.chanMap ch (fun c => { c with st := .idle, wait := none, stopping := false })).jigForget ch
  else s

/-! ## Failures (R306, R308) -/

/-- A write of a tensor or linear side that carries a policy. -/
def writtenOf (ws : List (Nat × List Byte × Bool)) : List Written := ws.map (fun w => ⟨w.1, w.2.1, w.2.2⟩)

/-- A failed access counted as a bad MOVE: record, BAD, BAD_CODE, BAD_SINCE, BAD_PEND (R306). -/
def State.badRecord (s : State) (ch pc code addr syn : Nat) : State :=
  let s := s.err code (unitId 6 ch) (some (s.chPart ch)) addr syn
  let s := (s.rSat (chReg Reg.JIG_CH_BAD ch) 15 0 1).rfSet (chReg Reg.JIG_CH_BAD ch) 31 16 pc
  let k := chReg Reg.JIG_CH_BAD_CODE ch
  let s := if s.rf k 31 16 = 0 then s.rfSet k 31 16 code else s
  let s := s.rfSet k 15 0 code
  let s := s.chanMap ch (fun c => { c with badSince := true, badEnd := min 0xFFFF (c.badEnd + 1) })
  s.chPend Reg.JIG_BAD_PEND 134 ch

/-- A later failure of a bad MOVE counts in BAD_CODE.LAST only (R306). -/
def State.badLast (s : State) (ch code : Nat) : State := s.rfSet (chReg Reg.JIG_CH_BAD_CODE ch) 15 0 code

/-- Does a bad MOVE of a channel stop its engine (R308)? -/
def State.stopsAll (s : State) (ch : Nat) : Bool := s.pl7Active (ch / 32) && !s.jig.stopped.contains (ch / 32)

/-- A stop-all of an engine because of a channel: every other channel ends its instruction, an ended WAIT to be executed
again (R308). A channel that is FAULTED or being stopped stays so (R290, R307). -/
def State.stopAll (s : State) (ch : Nat) : State :=
  let e := ch / 32
  let s := { s with jig := { s.jig with stopped := s.jig.stopped ++ [e] } }
  let s := (s.rfSet (Reg.JIG_ENG + 4 * e) 10 6 (ch % 32)).raise 137
  let s := s.chanMap ch (fun c =>
    if c.stopping || c.st == .faulted then c else { c with st := .stopped, wait := none, sent := none })
  (engChans e).foldl (fun u n => u.chanMap n (fun c =>
    if !c.stopping ∧ (c.st = .waiting ∨ (c.st = .running ∧ c.moves.all MoveSt.issued ∧ c.wait.isNone)) then
      { c with st := .stopped, wait := none } else c)) s

/-- A WAIT, SIGNAL or END whose access failed: recorded, then the channel goes on as `next` says, or the engine stops (R306,
R308). -/
def State.badOp (s : State) (ch code addr : Nat) (next : State → State) : State :=
  let s := (s.badRecord ch (s.chPc ch) code addr 0).chanMap ch (fun c => { c with sent := none })
  if s.stopsAll ch then s.stopAll ch else next s

/-- MOVE `k` of a channel replaced. -/
def State.mvSet (s : State) (ch k : Nat) (v : MoveSt) : State := s.chanMap ch (fun c => { c with moves := c.moves.set k v })

/-- MOVE `k` of a channel is marked bad and issues nothing further: the channel goes on, or the engine stops with the channel's PC
and loop levels at that MOVE, whose successors are not begun (R306, R308; DESIGN CHOICE, log entry 66). A later failure of it counts
in BAD_CODE.LAST only. -/
def State.markBad (s : State) (ch k : Nat) (v : MoveSt) (code addr syn : Nat) : State :=
  if v.bad then (s.mvSet ch k v).badLast ch code
  else
    let here := !v.issued
    let s := ((s.mvSet ch k { v with bad := true, dead := true }).jigForget ch).badRecord ch v.pc code addr syn
    if s.stopsAll ch then
      let s := s.chanMap ch (fun c => { c with
        iter := v.iter, sacc := v.sacc, dacc := v.dacc,
        moves := c.moves.take (k + 1) ++ ({ c with moves := c.moves.drop (k + 1) } : Chan).remains })
      (s.rfSet (chReg Reg.JIG_CH_PC ch) 15 0 v.pc).stopAll ch
    else if here then s.goOn ch else s

/-! ## MOVE: its addresses (R294 to R298) -/

/-- The base register and the offset, with the accumulators of the MOVE, of a side (R294). -/
def State.sideBase (s : State) (ch : Nat) (v : MoveSt) (src : Bool) : Nat × Int :=
  let acc := fun (m : List (Nat × Dword)) => signed ((m.map (fun x => x.2.toNat)).sum % 2 ^ 64) 64
  if src then (s.rg64 (chReg Reg.JIG_CH_SB ch) % 2 ^ 48, (jf v.w 87 48 : Int) + acc v.sacc)
  else (s.rg64 (chReg Reg.JIG_CH_DB ch) % 2 ^ 48, (jf v.w 127 88 : Int) + acc v.dacc)

/-- The address of byte `k` of a linear side, and how many bytes follow before it wraps (R294, R295). -/
def State.linearAt (s : State) (ch : Nat) (v : MoveSt) (src : Bool) (k : Nat) : Int × Nat :=
  let (base, off) := s.sideBase ch v src
  let wr := wrapOf v.w src
  if wr = 0 then (base + off + k, v.len - k)
  else
    let o := (off + k) % (2 ^ wr : Nat)
    (base + o, min (v.len - k) (2 ^ wr - o.toNat))

/-- An effective address as a record shows it. -/
def addr48 (a : Int) : Nat := (a % (2 ^ 48 : Nat)).toNat

/-- R300 for a linear side: a code, and the address that fails (log entry 66). -/
def State.linearCheck (s : State) (ch : Nat) (v : MoveSt) (src : Bool) : Nat × Nat :=
  let (base, off) := s.sideBase ch v src
  let wr := wrapOf v.w src
  if wr = 0 then
    (if base + off < 0 ∨ 2 ^ 48 < base + off + v.len then eBounds else 0, addr48 (base + off))
  else if base % 2 ^ wr ≠ 0 then (eAlign, base)
  else (if 2 ^ wr < v.len ∨ 2 ^ 48 < base + 2 ^ wr then eBounds else 0, base)

/-- R300 for the linear sides and the operands of a reduction: the first code, 0 for none, with the address. -/
def State.moveCheck (s : State) (ch : Nat) (v : MoveSt) : Nat × Nat :=
  let a := if tensorSide v.w true then (0, 0) else s.linearCheck ch v true
  let b := if tensorSide v.w false then (0, 0) else s.linearCheck ch v false
  let kind := jf v.w 7 4
  let width := reduceWidth kind
  let (base, off) := s.sideBase ch v false
  if a.1 ≠ 0 then a
  else if b.1 ≠ 0 then b
  else if kind ≠ 0 ∧ (v.len % width ≠ 0 ∨ (!tensorSide v.w false ∧ off % (width : Int) ≠ 0)) then (eAlign, addr48 (base + off))
  else (0, 0)

/-- The indices of the outer dimensions: the iteration counts of the loop levels (R298). -/
def MoveSt.outer (v : MoveSt) : List Nat := (List.range 5).map (fun l => mget v.iter l 0)

/-- R298: no group begins at or beyond SIZE0, and no outer index lies at or beyond its size. -/
def MoveSt.inside (v : MoveSt) (x : Desc) : Bool :=
  let (g0, gn) := groupsOf v.w
  decide (32 * (g0 + gn - 1) < x.sz 0) &&
    (List.range (x.rank - 1)).all (fun d => decide (v.outer.getD d 0 < x.sz (d + 1)))

/-- Where byte `k` of an image lies on a side: a code when it has no address, the address, the partition to name, whether it
is this module's, how many bytes follow there, and whether it exists at all (R298). -/
structure Place where
  code : Nat := 0
  addr : Nat := 0
  part : Nat := 0
  home : Bool := true
  len : Nat := 0
  real : Bool := true

/-- Byte `k` of the tensor side (R275, R276, R285, R298). -/
def State.tensorAt (s : State) (ch : Nat) (v : MoveSt) (k : Nat) : Place × State :=
  let x := descOf v.desc
  let cut := v.cut.map (fun t => (⟨t.1, t.2.1, t.2.2⟩ : CutList))
  let p := s.chPart ch
  let outer := v.outer
  let (g0, gn) := groupsOf v.w
  let unit := blockLen x.fmt
  let sb := fmtScaleBytes x.fmt
  let total := gn * unit
  if total ≤ k then
    let j := (k - total) / sb
    let (q, s) := s.locate (jigAgent ch) p x cut (32 * (g0 + j) :: outer)
    (⟨q.scaleCode, q.scale + (if q.scaleCode = 0 then (k - total) % sb else 0), q.part, q.home, sb - (k - total) % sb, true⟩, s)
  else if fmtScaled x.fmt then
    let (q, s) := s.locate (jigAgent ch) p x cut (32 * (g0 + k / unit) :: outer)
    (⟨q.code, q.elem + (if q.code = 0 then k % unit else 0), q.part, q.home, unit - k % unit, true⟩, s)
  else
    let eb := elemBytes x.fmt
    let i := 32 * g0 + k / eb
    if x.sz 0 ≤ i then ({ part := p, len := total - k, real := false }, s)
    else
      let (q, s) := s.locate (jigAgent ch) p x cut (i :: outer)
      let n := min (32 - k / eb % 32) (x.sz 0 - i)
      let n := match cut with
        | some l => if l.dim = 0 then min n (l.blockLen - i % l.blockLen) else n
        | none => n
      (⟨q.code, q.elem + (if q.code = 0 then k % eb else 0), q.part, q.home, n * eb - k % eb, true⟩, s)

/-- Byte `k` of a side. -/
def State.placeAt (s : State) (ch : Nat) (v : MoveSt) (src : Bool) (k : Nat) : Place × State :=
  if tensorSide v.w src then s.tensorAt ch v k
  else
    let (a, n) := s.linearAt ch v src k
    ({ addr := a.toNat, part := s.chPart ch, len := n }, s)

/-- The bytes up to the boundary at which requests of a side are split: a line here and for reductions, 512 bytes of a remote
window (R297, R347). -/
def splitAt (a : Nat) (reduces : Bool) : Nat := if reduces || !isRemote a then 128 - a % 128 else 512 - a % 512

/-- A place extended over the bytes of the image that follow it in memory, up to `room` bytes (R296). -/
def State.growAt (s : State) (ch : Nat) (v : MoveSt) (src : Bool) (k room : Nat) (a : Place) : Nat → Place × State
  | 0 => (a, s)
  | n + 1 =>
    if room ≤ a.len then ({ a with len := room }, s)
    else if v.len ≤ k + a.len then (a, s)
    else
      let (b, s) := s.placeAt ch v src (k + a.len)
      if b.code = 0 ∧ b.real ∧ b.addr = a.addr + a.len ∧ b.part = a.part ∧ b.home = a.home then
        s.growAt ch v src k room { a with len := a.len + b.len } n
      else (a, s)

/-- The bytes of a side that one request covers from byte `k` of the image on (R296, R297, R347). -/
def State.spanAt (s : State) (ch : Nat) (v : MoveSt) (src : Bool) (k : Nat) : Place × State :=
  let (a, s) := s.placeAt ch v src k
  if a.code ≠ 0 || !a.real then (a, s)
  else s.growAt ch v src k (splitAt a.addr (!src && jf v.w 7 4 != 0)) a 512

/-! ## MOVE: its course -/

/-- The tally policy of a MOVE: of its instruction, or of the descriptor (R299). -/
def policyOf (v : MoveSt) : Nat := if isDesc v.w then (descOf v.desc).tally else jf v.w 9 8

/-- Does the policy cover a side: both in linear form, the tensor in descriptor form; a reduction's writes never (R297)? -/
def covers (v : MoveSt) (src : Bool) : Bool :=
  (!isDesc v.w || tensorSide v.w src) &&
    (if src then decide (2 ≤ policyOf v) else decide (1 ≤ policyOf v) && jf v.w 7 4 == 0)

/-- Bytes placed in an image from a byte on. -/
def imagePut (img : List Byte) (k : Nat) (bs : List Byte) : List Byte := img.take k ++ bs ++ img.drop (k + bs.length)

/-- A MOVE begins: its descriptor is read, and the checks of R300 are made (R298, R300). -/
def State.moveBegin (s : State) (ch k : Nat) (v : MoveSt) (ecc : Ecc) : State :=
  let ag := jigAgent ch
  let p := s.chPart ch
  if !isDesc v.w then
    let c := s.moveCheck ch v
    if c.1 ≠ 0 then s.markBad ch k v c.1 c.2 0 else s.mvSet ch k { v with begun := true }
  else
    let src := !bitOf v.w.toNat 11
    let a := (s.sideBase ch v src).1 + (if src then jf v.w 87 48 else jf v.w 127 88)
    if 2 ^ 48 ≤ a then s.markBad ch k v eBounds (a % 2 ^ 48) 0
    else if a % 64 ≠ 0 then s.markBad ch k v eAlign a 0
    else
      let (f, bs, s) := s.readFar ag p a 64 ecc
      if f ≠ 0 then s.markBad ch k v f a 0
      else
        let x := descOf bs
        let v := { v with desc := bs, descAt := a }
        let (c, unread, cut, s) := s.checkDesc ag p x
        if c ≠ 0 then s.markBad ch k v c (if unread then x.cutPtr else a) 0
        else
          let c := s.moveCheck ch v
          if c.1 ≠ 0 then s.markBad ch k v c.1 c.2 0
          else if !v.inside x then s.markBad ch k v eBounds a 0
          else s.mvSet ch k { v with begun := true, cut := cut.map (fun l => (l.dim, l.count, l.blockLen)) }

/-- More of a MOVE's reads are issued; after the last the channel goes on with the next instruction (R301). -/
def State.readIssued (s : State) (ch k : Nat) (v : MoveSt) : State :=
  let s := s.mvSet ch k v
  if v.issued then s.goOn ch else s

/-- The next read of a MOVE (R294 to R298, R301). -/
def State.readNext (s : State) (ch k : Nat) (v : MoveSt) (ecc : Ecc) : State :=
  let ag := jigAgent ch
  let p := s.chPart ch
  let (a, s) := s.spanAt ch v true v.got.length
  if a.code ≠ 0 then s.markBad ch k v a.code (a.addr % 2 ^ 48) 0
  else if !a.real then s.readIssued ch k { v with got := v.got ++ List.replicate a.len 0 }
  else if isRemote a.addr then
    let skip := a.addr % 32
    let n := (skip + a.len + 31) / 32 * 32
    if s.jigFull ⟨ag, some p, a.addr - skip, n, .read, .clean⟩ then s
    else match s.remoteSend ag p 2 (a.addr - skip) n a.part [] with
      | (.waits, s) => s
      | (.fails c, s) => s.markBad ch k v c a.addr 0
      | (.sent key, s) => s.readIssued ch k { v with
          got := v.got ++ List.replicate a.len 0, reads := v.reads ++ [⟨key, skip, a.len, a.addr, v.got.length⟩] }
  else
    let (c, bs, s) := s.readFar ag p a.addr a.len ecc
    if c ≠ 0 then s.markBad ch k v c a.addr 0
    else s.readIssued ch k { v with got := v.got ++ bs, rd := if covers v true && a.home then v.rd ++ [(a.addr, bs)] else v.rd }

/-- The next write of a MOVE, once the bytes it carries have been read (R294 to R298, R301). -/
def State.writeNext (s : State) (ch k : Nat) (v : MoveSt) (ecc : Ecc) : State :=
  let ag := jigAgent ch
  let p := s.chPart ch
  let kind := jf v.w 7 4
  let (d, s) := s.spanAt ch v false v.put
  let upTo := v.put + d.len
  let bs := (v.got.drop v.put).take d.len
  if decide (v.got.length < upTo) || v.reads.any (fun a => decide (a.byte < upTo ∧ v.put < a.byte + a.take)) then s
  else if !d.real then s.mvSet ch k { v with put := upTo }
  else if d.code ≠ 0 then s.markBad ch k v d.code (d.addr % 2 ^ 48) 0
  else if isRemote d.addr then
    match s.remoteSend ag p (if kind = 0 then 1 else 4) d.addr kind d.part bs with
    | (.waits, s) => s
    | (.fails c, s) => s.markBad ch k v c d.addr 0
    | (.sent key, s) => s.mvSet ch k { v with put := upTo, writes := v.writes ++ [{ key := key, addr := d.addr }] }
  else
    let (c, s) := if kind = 0 then s.memWrite ag (some p) d.addr bs ecc else s.memReduce ag (some p) d.addr kind bs ecc
    let v := { v with wr := if covers v false && d.home then v.wr ++ [(d.addr, bs, c == 0)] else v.wr }
    if c ≠ 0 then s.markBad ch k v c d.addr 0 else s.mvSet ch k { v with put := upTo }

/-- A MOVE is performed: its reads are checked, its writes tallied, its bytes taken into the running CRC (R299, R305). -/
def State.moveEnd (s : State) (ch : Nat) (v : MoveSt) : State :=
  let p := s.chPart ch
  let (f, s) := s.consume (jigAgent ch) p (v.rd.map (fun r => ⟨r.1, r.2, true⟩)) (policyOf v == 3)
  match f with
  | some (code, addr, syn) => s.markBad ch 0 v code addr syn
  | none =>
    let (f, s) := s.produce (jigAgent ch) p (writtenOf v.wr) false
    match f with
    | some (code, addr) => s.markBad ch 0 v code addr 0
    | none =>
      let k := chReg Reg.JIG_CH_CRC ch
      (s.rgSet k (BitVec.ofNat 32 (crcRun (s.rg k).toNat v.got))).chanMap ch (fun c => { c with moves := c.moves.drop 1 })

/-- The tallies of the blocks that a bad MOVE has written into are voided (R299). -/
def State.moveVoid (s : State) (ch : Nat) (v : MoveSt) : State :=
  let (f, s) := s.produce (jigAgent ch) (s.chPart ch) (writtenOf v.wr) true
  match f with
  | some x => s.badLast ch x.1
  | none => s

/-- The oldest MOVEs of a channel that have nothing left to do end, in program order (R301, R305). -/
def State.settleMoves (s : State) (ch : Nat) : Nat → State
  | 0 => s
  | n + 1 =>
    match (s.chan ch).moves with
    | [] => s
    | v :: rest =>
      if v.out then s
      else if v.dead then
        ((if v.bad then s.moveVoid ch v else s).chanMap ch (fun c => { c with moves := rest })).settleMoves ch n
      else if v.begun && decide (v.len ≤ v.put) then (s.moveEnd ch v).settleMoves ch n
      else s

/-- A channel's MOVE is the next instruction: it joins those whose accesses are not all performed. -/
def State.moveJoin (s : State) (ch : Nat) (w : BitVec 128) : State :=
  s.chanMap ch (fun c => { c with moves := c.moves ++ [{
    w := w, pc := s.chPc ch, iter := c.iter, sacc := c.sacc, dacc := c.dacc }] })

/-- The next access of a channel: a read is of the MOVE that has reads to issue; a write is of the oldest MOVE with bytes to write
(R301; DESIGN CHOICE, log entry 66: a channel's writes are performed in program order). -/
def State.jigStep (s : State) (ch : Nat) (write : Bool) (ecc : Ecc) : State :=
  let ms := (s.chan ch).moves
  if write then
    match ms.findIdx? (fun v => !v.dead && decide (v.put < v.len)) with
    | some k => match ms[k]? with
      | some v => if v.begun then s.writeNext ch k v ecc else s
      | none => s
    | none => s
  else
    match ms.findIdx? (fun v => !v.issued) with
    | some k => match ms[k]? with
      | some v => if v.begun then s.readNext ch k v ecc else s.moveBegin ch k v ecc
      | none => s
    | none => s

/-- MOVE: the next instruction of a running channel is a MOVE; its descriptor is read and it is checked (R293, R298, R300). -/
def execMove (ch : Fin 320) (w : BitVec 128) (s : State) : Res :=
  let c := ch.val
  .next (if !s.chReady c then s
    else if jf w 3 0 ≠ 1 ∨ !moveOk w then s.jigFault c fIllegal 0
    else ((s.moveJoin c w).together (fun s => s.jigStep c false .clean)).together (fun s =>
      (s.settleMoves c (2 * (s.chan c).moves.length)).haltDone c))

/-! ## LOOP, WAIT, SIGNAL, END -/

/-- LOOP (R302). -/
def execLoop (ch : Fin 320) (w : BitVec 128) (s : State) : Res :=
  let c := ch.val
  let l := jf w 6 4
  let back := jf w 19 8
  let count := jf w 43 20
  let pc := s.chPc c
  let step := fun (hi lo : Nat) => BitVec.ofInt 64 (signed (jf w hi lo) 32)
  .next (if !s.chReady c then s
    else if jf w 3 0 ≠ 2 ∨ 5 ≤ l ∨ jf w 7 7 ≠ 0 ∨ back = 0 ∨ count = 0 ∨ jf w 63 44 ≠ 0 ∨ pc < 16 * back then
      s.jigFault c fIllegal 0
    else
      let i := mget (s.chan c).iter l 0 + 1
      if i < count then
        (s.chanMap c (fun x => { x with
          iter := mset x.iter l i 0,
          sacc := mset x.sacc l (mget x.sacc l 0 + step 95 64) 0,
          dacc := mset x.dacc l (mget x.dacc l 0 + step 127 96) 0 })).goTo c (pc - 16 * back)
      else
        (s.chanMap c (fun x => { x with
          iter := mdel x.iter l, sacc := mdel x.sacc l, dacc := mdel x.dacc l })).goOn c)

/-- A relative wait ends: WBASE rises by THRESH (R303). -/
def State.waitOver (s : State) (ch : Nat) (w : BitVec 128) : State :=
  let s := if bitOf w.toNat 6 then s.rAdd64 (chReg Reg.JIG_CH_WBASE ch) (jf w 127 64) else s
  s.goOn ch

/-- A KIND 0 WAIT reads its word: it ends when the word has reached the threshold or cannot be read (R303). -/
def State.waitRead (s : State) (ch : Nat) (w : BitVec 128) : State :=
  let a := jf w 63 16
  let t := if bitOf w.toNat 6 then (s.rg64 (chReg Reg.JIG_CH_WBASE ch) + jf w 127 64) % 2 ^ 64 else jf w 127 64
  let bad := fun (u : State) (code : Nat) => u.badOp ch code a (fun v => v.waitOver ch w)
  if a % 8 ≠ 0 then bad s eAlign
  else
    let (code, bs, s) := s.readFar (jigAgent ch) (s.chPart ch) a 8 .clean
    if code ≠ 0 then bad s code else if t ≤ leNat bs then s.waitOver ch w else s

/-- The condition of a WAIT is judged: a signal word, or the MOVEs before it (R303). A WAIT on a tick ends with the boundary that
begins the step. -/
def State.waitJudge (s : State) (ch : Nat) (w : BitVec 128) : State :=
  match jf w 5 4 with
  | 0 => s.waitRead ch w
  | 2 => if (s.chan ch).moves.isEmpty then s.goOn ch else s
  | _ => s

/-- WAIT (R303). -/
def execWait (ch : Fin 320) (w : BitVec 128) (s : State) : Res :=
  let c := ch.val
  let kind := jf w 5 4
  .next (if !s.chReady c then s
    else if jf w 3 0 ≠ 3 ∨ kind = 3 ∨ jf w 15 7 ≠ 0 ∨ (kind ≠ 0 ∧ (bitOf w.toNat 6 ∨ jf w 127 16 ≠ 0)) ∨
        (kind = 0 ∧ isRemote (jf w 63 16)) then s.jigFault c fIllegal 0
    else (s.chanMap c (fun x => { x with st := .waiting, wait := some w })).together (fun s => s.waitJudge c w))

/-- JIG_WAIT_END: the condition of a WAIT on a signal word or on the channel's MOVEs is judged again (R303). -/
def execJigWaitEnd (ch : Fin 320) (s : State) : Res :=
  let x := s.chan ch.val
  .next (match x.wait with
    | some w => if x.st = .waiting then s.together (fun s => s.waitJudge ch.val w) else s
    | none => s)

/-- The channels of a partition that wait for a tick are released (R303). -/
def State.jigRelease (s : State) (p : Nat) : State :=
  (setBits (s.ptn.running.jigMask p) 320).foldl (fun u ch =>
    let x := u.chan ch
    match x.wait with
    | some w => if x.st = .waiting ∧ jf w 5 4 = 1 then u.goOn ch else u
    | none => u) s

/-- A SIGNAL was performed, or not (R304). -/
def State.signalEnd (s : State) (ch code a : Nat) : State :=
  if code ≠ 0 then s.badOp ch code a (fun u => u.goOn ch) else s.goOn ch

/-- A SIGNAL whose channel's MOVEs are performed: the increment, marked when BAD_SINCE is 1, is added to the word (R304). -/
def State.signalGo (s : State) (ch : Nat) (w : BitVec 128) : State :=
  let a := jf w 63 16
  let p := s.chPart ch
  let inc := jf w 95 64 + (if (s.chan ch).badSince && !bitOf w.toNat 4 then 2 ^ 32 else 0)
  let clear := fun (u : State) => u.chanMap ch (fun x => { x with badSince := false })
  if a % 8 ≠ 0 then (clear s).signalEnd ch eAlign a
  else if isRemote a then
    match s.remoteSend (jigAgent ch) p 5 a inc p [] with
    | (.waits, s) => s
    | (.fails f, s) => (clear s).signalEnd ch f a
    | (.sent key, s) => (clear s).chanMap ch (fun x => { x with sent := some key })
  else
    let (f, _, s) := s.memUpdate (jigAgent ch) (some p) a 8 (fun old => leBytes (leNat old + inc) 8) .clean
    (clear s).signalEnd ch f a

/-- What an END does after its record (R305). -/
def State.endRest (s : State) (ch : Nat) (w : BitVec 128) : State :=
  let s := if bitOf w.toNat 6 then s.chPend Reg.JIG_END_PEND 136 ch else s
  if (s.chan ch).stopping then s
  else if bitOf w.toNat 4 then
    let s := s.chanMap ch (fun x => { x with iter := [], sacc := [], dacc := [] })
    let s := (s.rgSet (chReg Reg.JIG_CH_CRC ch) 0xFFFFFFFF).rAdd (chReg Reg.JIG_CH_PASSES ch) 31 0 1
    s.goTo ch 0
  else s.chanMap ch (fun x => { x with st := .idle, wait := none })

/-- An END's record was stored, or not: its count of bad MOVEs starts anew (R305, R306). -/
def State.storeEnd (s : State) (ch : Nat) (w : BitVec 128) (code : Nat) : State :=
  let s := s.chanMap ch (fun x => { x with badEnd := 0 })
  if code ≠ 0 then s.badOp ch code (jf w 63 16) (fun u => u.endRest ch w) else s.endRest ch w

/-- An END whose channel's MOVEs are performed: the CRC record is stored, END_PEND is set, the program starts again or the channel
goes idle (R305). -/
def State.endGo (s : State) (ch : Nat) (w : BitVec 128) : State :=
  let a := jf w 63 16
  let p := s.chPart ch
  let rec_ := leBytes (Nat.xor (s.rg (chReg Reg.JIG_CH_CRC ch)).toNat 0xFFFFFFFF + 2 ^ 32 * (s.chan ch).badEnd) 8
  if !bitOf w.toNat 5 then s.storeEnd ch w 0
  else if a % 8 ≠ 0 then s.storeEnd ch w eAlign
  else if isRemote a then
    match s.remoteSend (jigAgent ch) p 1 a 0 p rec_ with
    | (.waits, s) => s
    | (.fails f, s) => s.storeEnd ch w f
    | (.sent key, s) => s.chanMap ch (fun x => { x with sent := some key })
  else
    let (f, s) := s.memWrite (jigAgent ch) (some p) a rec_ .clean
    s.storeEnd ch w f

/-- A SIGNAL or END under way goes on once the channel's MOVEs are performed (R304, R305). -/
def State.opTry (s : State) (ch : Nat) : State :=
  let c := s.chan ch
  match c.wait with
  | none => s
  | some w =>
    if !c.moves.isEmpty || c.sent.isSome || c.st != .running || c.stopping then s
    else if jf w 3 0 = 4 then s.signalGo ch w
    else if jf w 3 0 = 5 then s.endGo ch w
    else s

/-- What the end of an access lets a channel do: its MOVEs end, and a SIGNAL or END that waited for them goes on. -/
def State.jigAfter (s : State) (ch : Nat) : State :=
  (s.together (fun s => (s.settleMoves ch (2 * (s.chan ch).moves.length)).haltDone ch)).together (fun s => s.opTry ch)

/-- JIG_SIGNAL: it waits for the channel's MOVEs, then adds its increment (R304). -/
def execJigSignal (ch : Fin 320) (w : BitVec 128) (s : State) : Res :=
  let c := ch.val
  .next (if !s.chReady c then s
    else if jf w 3 0 ≠ 4 ∨ jf w 15 5 ≠ 0 ∨ jf w 127 96 ≠ 0 then s.jigFault c fIllegal 0
    else (s.chanMap c (fun x => { x with wait := some w })).together (fun s => s.opTry c))

/-- JIG_END: it waits for the channel's MOVEs, then stores its record and ends the pass (R305). -/
def execJigEnd (ch : Fin 320) (w : BitVec 128) (s : State) : Res :=
  let c := ch.val
  .next (if !s.chReady c then s
    else if jf w 3 0 ≠ 5 ∨ jf w 15 7 ≠ 0 ∨ jf w 127 64 ≠ 0 ∨ (!bitOf w.toNat 5 ∧ jf w 63 16 ≠ 0) then s.jigFault c fIllegal 0
    else (s.chanMap c (fun x => { x with wait := some w })).together (fun s => s.opTry c))

/-! ## Accesses and commands -/

/-- JIG_ACCESS_COMPLETE: the next read or write of the channel completes or fails (R296, R301, R306). -/
def execJigAccessComplete (ch : Fin 320) (write : Bool) (ecc : Ecc) (s : State) : Res :=
  .next ((s.together (fun s => s.jigStep ch.val write ecc)).jigAfter ch.val)

/-- The answer to a read or write that MOVE `k` has out (R306, R348). -/
def State.moveAnswer (s : State) (ch k : Nat) (v : MoveSt) (key code : Nat) (data : List Byte) : State :=
  match v.reads.find? (fun a => a.key == key), v.writes.find? (fun a => a.key == key) with
  | some a, _ =>
    let v := { v with reads := v.reads.filter (fun b => b.key != key) }
    if code ≠ 0 then s.markBad ch k v code a.addr 0
    else s.mvSet ch k { v with got := imagePut v.got a.byte ((data.drop a.skip).take a.take) }
  | none, some a =>
    let v := { v with writes := v.writes.filter (fun b => b.key != key) }
    if code ≠ 0 then s.markBad ch k v code a.addr 0 else s.mvSet ch k v
  | none, none => s

/-- A READ_RESP, or the failure of a request, reaches a channel (R348, R306). -/
def State.jigRemote (s : State) (ch key code : Nat) (data : List Byte) : State :=
  let c := s.chan ch
  let mine := fun (v : MoveSt) => (v.reads ++ v.writes).any (fun a => a.key == key)
  let s :=
    if c.sent = some key then
      match c.wait with
      | some w =>
        let s := s.chanMap ch (fun x => { x with sent := none })
        if jf w 3 0 = 4 then s.signalEnd ch code (jf w 63 16) else s.storeEnd ch w code
      | none => s.chanMap ch (fun x => { x with sent := none })
    else match c.moves.findIdx? mine with
      | some k => match c.moves[k]? with
        | some v => s.moveAnswer ch k v key code data
        | none => s
      | none => s
  s.jigAfter ch

/-- Does a command from a function reach a channel (R291)? -/
def State.jigReaches (s : State) (f : Func) (ch : Nat) : Bool :=
  (s.ptn.running.chanOwner ch).isSome && s.reaches f (s.ptn.running.chanOwner ch)

/-- JIG_GO (R290, R291). -/
def execJigGo (f : Func) (ch : Fin 320) (s : State) : Res :=
  .next (s.inOrder f (.jigGo f ch) (fun s =>
    let c := ch.val
    (if !s.engFitted (c / 32) then s
      else if !s.jigReaches f c then s.chanMap c (fun x => { x with cmdres := 2 })
      else if (s.chan c).st ≠ .idle then s.chanMap c (fun x => { x with cmdres := 1 })
      else
        let s := s.chanSet c { st := .running }
        let z := fun (u : State) (k : Nat) => u.rgSet (chReg k c) 0
        let s := [Reg.JIG_CH_PC, Reg.JIG_CH_BAD, Reg.JIG_CH_BAD_CODE, Reg.JIG_CH_FAULT, Reg.JIG_CH_PASSES,
          Reg.JIG_CH_WBASE, Reg.JIG_CH_WBASE + 4].foldl z s
        s.rgSet (chReg Reg.JIG_CH_CRC c) 0xFFFFFFFF)))

/-- A channel stopped: idle at once, or when the accesses that are out have completed; a WAIT, and a SIGNAL or END that has issued
nothing, issues nothing any more (R290). -/
def State.jigHalt (s : State) (ch : Nat) : State :=
  ((s.chanMap ch (fun x => { x with
    moves := x.remains, stopping := true, wait := if x.sent.isSome then x.wait else none })).jigForget ch).haltDone ch

/-- JIG_STOP (R290, R291). -/
def execJigStop (f : Func) (ch : Fin 320) (s : State) : Res :=
  .next (s.inOrder f (.jigStop f ch) (fun s =>
    let c := ch.val
    (if !s.engFitted (c / 32) then s
      else if !s.jigReaches f c then s.chanMap c (fun x => { x with cmdres := 2 })
      else if (s.chan c).st = .idle then s.chanMap c (fun x => { x with cmdres := 1 })
      else ((s.chanMap c (fun x => { x with cmdres := 0 })).jigHalt c).jigAfter c)))

/-- A channel stopped and cleared: its registers, loop state and CRC, and IDLE (R309). -/
def State.jigClear (s : State) (ch : Nat) : State :=
  let s := s.forgetTickets (fun t => decide (t.ask.agent = jigAgent ch))
  { s.chanSet ch {} with
    regs := mclear s.regs (chReg Reg.JIG_CH_CTL ch) 0x40
    spl := { s.spl with far := s.spl.far.filter (fun f => !decide (f.agent = jigAgent ch)) } }

/-- JIG_FETCH_FAIL: the instruction at PC cannot be fetched (the memory code) or names no instruction (none) (R307). -/
def execJigFetchFail (ch : Fin 320) (code : Option (BitVec 16)) (s : State) : Res :=
  .next (if !s.chReady ch.val then s
    else match code with
      | some c => s.jigFault ch.val fBusErr c.toNat
      | none => s.jigFault ch.val fIllegal 0)

/-- RESUME of a stopped engine: every STOPPED channel runs again; the failing one after its MOVE (`skip`) or at it (R308). -/
def State.jigResume (s : State) (f : Func) (e : Nat) (skip : Bool) : State :=
  if !isPf f || !s.jig.stopped.contains e then s
  else
    let first := 32 * e + s.rf (Reg.JIG_ENG + 4 * e) 10 6
    let held := (engChans e).filter (fun n => (s.chan n).st == .stopped && !(s.chan n).stopping)
    let s := { s with jig := { s.jig with stopped := s.jig.stopped.filter (· != e) } }
    let s := held.foldl (fun u n => u.chanMap n (fun x => { x with st := .running })) s
    if skip && held.contains first then s.goOn first else s

/-- RESUME_CONTINUE (R308). -/
def execResumeContinue (f : Func) (e : Fin 10) (s : State) : Res :=
  .next (s.inOrder f (.resumeContinue f e) (fun s =>
    s.jigResume f e.val true))

/-- RESUME_RETRY (R308). -/
def execResumeRetry (f : Func) (e : Fin 10) (s : State) : Res :=
  .next (s.inOrder f (.resumeRetry f e) (fun s =>
    s.jigResume f e.val false))

/-- PL7_WRITE: taken while every channel of a fitted engine is IDLE (R308). -/
def execPl7Write (f : Func) (e : Fin 10) (on : Bool) (s : State) : Res :=
  .next (s.inOrder f (.pl7Write f e on) (fun s =>
    (if isPf f && s.engFitted e.val && (engChans e.val).all (fun n => (s.chan n).st == .idle) then
      s.rbSet (Reg.JIG_ENG + 4 * e.val) 0 on else s)))

end Sys2Proof.Machine
end

