-- ==== Sys2Proof/Machine/Fitting.lean ====
section
/-! DEFINITION. Fit records, proof results, the close of a step and its completion sheet (spec/07, R67 to R70, R219). -/

namespace Sys2Proof.Machine

/-! ## Arithmetic -/

/-- A binary64 sum, to nearest even (R161). -/
def add64 (a b : Nat) : Nat := fFP64.ieee .rne ((fFP64.decode a).add (fFP64.decode b))

/-- An FP32 word in binary64. -/
def widen64 (w : Word) : Nat := fFP64.ieee .rne (f32 w)

/-- The error of two binary64 sums as FP32 (R163), rounded once to nearest even; `open_` stands for the root of a negative
quotient, which R163 does not state. -/
def errorOf (num den : Nat) (open_ : Word) : Word :=
  match fFP64.decode num, fFP64.decode den with
  | .fin a m e, .fin b n g =>
    if m = 0 ∧ n = 0 then 0
    else if n = 0 then 0x7F800000
    else if m = 0 then 0
    else if a != b then open_
    else
      let (q, h) := quotient m e n g
      let (r, k) := sqrtOf q h
      toF32 (.fin false r k)
  | _, _ => 0x7F800000

/-- Is the word a positive normal FP32 value (R154, R155)? -/
def posNormal (w : Word) : Bool := decide (0x00800000 ≤ w.toNat ∧ w.toNat < 0x7F800000)

/-- The FP32 word of `2 ^ k`, for `k` from −126 to 127. -/
def pow2Word (k : Int) : Word := BitVec.ofNat 32 ((k + 127).toNat * 2 ^ 23)

/-! ## Records -/

/-- A fit record. -/
def State.fitRec (s : State) (f : Nat) : FitRec := mget s.fit f {}

/-- A fit record set. -/
def State.fitSet (s : State) (f : Nat) (x : FitRec) : State := { s with fit := mset s.fit f x {} }

/-- Does `Pp` own the fit id (R146)? -/
def Pat.ownsFit (t : Pat) (p f : Nat) : Bool := decide (t.fitBase p ≤ f ∧ f < t.fitBase p + t.fitCount p)

/-- A record cleared (R157). -/
def State.fitClear (s : State) (f : Nat) (owner : Option Nat) : State :=
  s.fitSet f { owner := owner, gen := (s.fitRec f).gen + 1 }

/-- A drain's amax reaches its record (R150, R151); `none` when it wrote no element. -/
def FitRec.merge (x : FitRec) (amax : Option Word) (inf : Bool) : FitRec :=
  { x with cur := match amax with
      | some v => if x.cur.toNat < v.toNat then v else x.cur
      | none => x.cur, arrived := true, inf := x.inf || inf }

/-- The 32 words of a record (Table 7.2). -/
def FitRec.words (x : FitRec) : List Word :=
  let flags := b2n x.arrived + 2 * b2n x.inf + 4 * b2n x.promote + 16 * x.rearm
  (List.range 16).map (fun i => x.amax.getD i 0) ++
    [BitVec.ofNat 32 (x.valid + 2 ^ 16 * x.suspect), x.cur, BitVec.ofNat 32 x.num, BitVec.ofNat 32 (x.num / 2 ^ 32),
     BitVec.ofNat 32 x.den, BitVec.ofNat 32 (x.den / 2 ^ 32),
     BitVec.ofNat 32 (x.samples + 2 ^ 16 * x.run + 2 ^ 24 * flags), x.thresh,
     BitVec.ofNat 32 (match x.owner with
       | some p => p + 16
       | none => 0)] ++ List.replicate 7 0

/-- FIT_REC_READ: a read of word 0 latches the record of FIT_SEL.ID (Table 7.9); a VF does not reach the register (R367). -/
def execFitRecRead (r : Req) (s : State) : Res :=
  .next (s.reqOrder r (.fitRecRead r) (fun s =>
    (match r with
      | .fn (.vf _ _) => s.answer {}
      | _ =>
        let ws := (s.fitRec (s.rf Reg.TICK_FIT_SEL 11 0)).words
        { s with fitLatch := ws }.answer { value := (ws.headD 0).toNat })))

/-! ## Proof -/

/-- The key of a partition's proof register. -/
def proofReg (off p : Nat) : Nat := off + 0x10 * p

/-- Proof jobs of a partition dropped (R159, R161, R162). -/
def State.proofDropped (s : State) (p n : Nat) : State := s.rAdd (proofReg Reg.TICK_PROOF_B p) 15 0 n

/-- The flag word of a target raised by one proof outlier (R161). -/
def State.proofOutlier (s : State) (c target : Nat) : State :=
  s.coreMap c (fun x =>
    let w := mget x.flags target {}
    { x with flags := mset x.flags target { w with proof := min 255 (w.proof + 1) } {} })

/-- A proof result posted (R161): it is discarded when the record was cleared since (R162). -/
def State.proofPost (s : State) (c p : Nat) (j : Job) (num den : Nat) : State :=
  let x := s.fitRec j.fitId
  if x.gen ≠ j.gen then s
  else
    let out := (f32 x.thresh).lt (f32 (errorOf num den (BitVec.ofNat 32 (Config.freeValue s.free))))
    let s := { s with free := s.free + 1 }
    let s := s.fitSet j.fitId { x with num := add64 x.num num, den := add64 x.den den, samples := min 0xFFFF (x.samples + 1) }
    let s := s.rAdd (proofReg Reg.TICK_PROOF_A p) 31 16 1
    if out then s.proofOutlier c j.target else s

/-- PROOFPOST: a proof group posts its sums and ends; another group parks (R161, R220). -/
def execProofpost (g : GroupId) (i : Insn) (s : State) : Res :=
  let f : Form := { grp := true, a := .regs 1, b := .regs 1, drain := true }
  .next (s.issue g 0x75 i { f with mod := modOnly i 0 } (fun s gx _ =>
    let x := s.group gx
    match x.job with
    | none => s.illegal gx
    | some j =>
      let sum := fun r => (lanesOf x.active).foldl (fun a l => add64 a (widen64 (x.w l r))) 0
      let s := s.proofPost (gx / 64) (s.groupPart gx) j (sum i.a.toNat) (sum i.b.toNat)
      (s.groupMap gx (fun y => { y with job := none })).freeSlot gx))

/-- PROOF_GROUP_START: the oldest waiting job goes to a group started at PROOF_ENTRY in the lowest free reserved slot
(R160). -/
def execProofGroupStart (c : Fin 64) (s : State) : Res :=
  let x := s.core c.val
  .next (match (if s.clockStopped c.val then none else s.corePart c.val), x.proofQ with
    | some p, j :: rest =>
      let t := s.ptn.running
      match (List.range 64).find? (fun k => s.proofSlot c.val k && (s.group (gix c.val k)).st == .free) with
      | none => s
      | some k =>
        (s.coreSet c.val { x with proofQ := rest }).groupSet (gix c.val k) { newGroup (t.proofEntry p) with job := some j }
    | _, _ => s)

/-! ## The close of one fit id -/

/-- What the close reads of a table entry (Table 7.3). -/
structure FitCfg where
  old : Word
  target : Word
  ctrl : Nat
  thresh : Word
deriving DecidableEq, Repr

/-- CONFIG_BAD (R155). -/
def FitCfg.bad (c : FitCfg) : Bool :=
  (bitOf c.ctrl 0 && !posNormal c.target) || (bitOf c.ctrl 12 && bitsOf c.ctrl 23 16 == 0)

/-- The step's scale, LIMITED and HELD (R154), from the record after the shift. -/
def fitScale (x : FitRec) (c : FitCfg) : Word × Bool × Bool :=
  let w := bitsOf c.ctrl 7 4 + 1
  let m := ((List.range w).filter (bitOf x.valid)).foldl (fun a i => max a (x.amax.getD i 0).toNat) 0
  if !bitOf c.ctrl 0 || c.bad then (c.old, false, false)
  else match f32 (BitVec.ofNat 32 m), f32 c.target with
  | .fin _ n g, .fin _ t e =>
    if n = 0 then (c.old, false, true)
    else
      let (q, h) := quotient t (e - (bitsOf c.ctrl 3 1 : Nat)) n g
      let code := (fFP32.round .rtz 0 q h).2
      let code := if bitOf c.ctrl 11 then code / 2 ^ 23 * 2 ^ 23 else code
      let limit := (f32 c.old).scale (bitsOf c.ctrl 10 8)
      let lim := decide (bitsOf c.ctrl 10 8 ≠ 0) && posNormal c.old && limit.lt (f32 (BitVec.ofNat 32 code))
      let y : Word := if lim then toF32 limit else BitVec.ofNat 32 code
      (if y.toNat < 0x00800000 then pow2Word (-126) else if (pow2Word 126).toNat < y.toNat then pow2Word 126 else y, lim, false)
  | _, _ => (c.old, false, true)

/-- R164: RUN, PROMOTE and REARM_SEEN, and whether PROMOTE is newly set. -/
def fitPromote (x : FitRec) (c : FitCfg) (err : Word) (suspect : Bool) : FitRec × Bool :=
  if !bitOf c.ctrl 12 || c.bad then (x, false)
  else
    let rearm := bitsOf c.ctrl 27 24
    let x := if rearm = x.rearm then x else { x with promote := false, run := 0, rearm := rearm }
    if suspect || x.samples == 0 then (x, false)
    else if (f32 c.thresh).lt (f32 err) then
      let run := min 255 (x.run + 1)
      let newly := decide (bitsOf c.ctrl 23 16 ≤ run) && !x.promote
      ({ x with run := run, promote := x.promote || newly }, newly)
    else ({ x with run := 0 }, false)

/-- The shift of the history (R153). -/
def FitRec.shift (x : FitRec) (suspect : Bool) : FitRec :=
  { x with amax := x.cur :: (x.amax.take 15), valid := (2 * x.valid + b2n x.arrived) % 2 ^ 16,
           suspect := (2 * x.suspect + b2n suspect) % 2 ^ 16, infs := (2 * x.infs + b2n x.inf) % 2 ^ 16,
           cur := 0, arrived := false, inf := false }

/-- A failed access to the fit table (R156, Table 19.9). -/
def State.fitTableErr (s : State) (p f code addr : Nat) : State :=
  (s.err code (unitId 0 2) (some p) addr f).evSet Reg.TICK_FIT_PEND (16 + p)

/-- The close of fit id `f` (R153 to R156, R163 to R165); a failed read of the host's fields is taken as a failed write, and after
a failed write of SCALE, STATUS and TICK that of ERR is not made: one record (DESIGN CHOICE, log entry 64). -/
def State.closeOne (s : State) (p f : Nat) (tick : Nat) (suspect : Bool) : State :=
  let t := s.ptn.running
  let a := t.fitTable p + 32 * (f - t.fitBase p)
  let (c, bs, s) := s.memRead .device (some p) a 32 .clean
  let x := (s.fitRec f).shift suspect
  let clear := fun (y : FitRec) => { y with num := 0, den := 0, samples := 0 }
  if c ≠ 0 then (s.fitSet f (clear x)).fitTableErr p f c a
  else
    let word := fun (o : Nat) => BitVec.ofNat 32 (fieldAt bs o 4)
    let cfg : FitCfg := ⟨word 0, word 0x10, fieldAt bs 0x14 4, word 0x18⟩
    let (scale, limited, held) := fitScale x cfg
    let err := if x.samples = 0 then 0 else errorOf x.num x.den (BitVec.ofNat 32 (Config.freeValue s.free))
    let s := { s with free := s.free + 1 }
    let (y, newly) := fitPromote x cfg err suspect
    let w := bitsOf cfg.ctrl 7 4 + 1
    let st := b2n y.promote + 2 * b2n limited + 4 * b2n held + 8 * b2n (x.infs % 2 ^ w != 0) + 16 * b2n cfg.bad +
      32 * b2n suspect + 2 ^ 8 * y.run + 2 ^ 16 * x.samples
    let s := s.fitSet f (clear { y with thresh := cfg.thresh })
    let (e, s) := s.memWrite .device (some p) a (leBytes (scale.toNat + 2 ^ 32 * st) 8 ++ leBytes tick 8) .clean
    let (e, s) := if e ≠ 0 then (e, s) else s.memWrite .device (some p) (a + 0x1C) (leBytes err.toNat 4) .clean
    let s := if e ≠ 0 then s.fitTableErr p f e a else s
    if newly then
      (s.evSet Reg.TICK_FIT_PEND p).rAdd (proofReg Reg.TICK_PROOF_B p) 31 16 1
    else s

/-! ## The completion sheet and the end of the step -/

/-- Does the end of a step release a cost for the completion: FINAL, written by a tick program, and not yet counted? -/
def Comp.final (e : Comp) : Bool := e.byProgram && !e.freed && (e.words.getD 4 0).toNat % 2 ^ 16 == 1

/-- TAG of a completion. -/
def Comp.tag (e : Comp) : Nat := (e.words.getD 0 0).toNat + 2 ^ 32 * (e.words.getD 1 0).toNat

/-- The oldest holder of a TAG gives its cost up (R219). -/
def releaseCost : List (Nat × Nat) → Nat → List (Nat × Nat)
  | [], _ => []
  | e :: es, t => if e.1 = t then es else e :: releaseCost es t

/-- IN_USE follows the holders. -/
def State.setResidents (s : State) (p : Nat) (rs : List (Nat × Nat)) : State :=
  (s.partMap p (fun x => { x with residents := rs })).rfSet (Reg.TICK_RESIDENT + 0x20 * p) 23 0 ((rs.map (·.2)).sum)

/-- The flags of a step put into the completions it produced (R70). -/
def Comp.flagged (e : Comp) (tick flags : Nat) : Comp :=
  if (e.words.getD 2 0).toNat + 2 ^ 32 * (e.words.getD 3 0).toNat = tick then
    { e with words := e.words.set 4 (BitVec.ofNat 32 (putBits (e.words.getD 4 0).toNat 31 16 flags)) }
  else e

/-- The completion sheet of the step that ends: entries, then the header with TICK last (R68 to R70); the costs of the FINAL
entries written since the last sheet are released (R67, R219). -/
def State.writeSheet (s : State) (p : Nat) : State :=
  let x := s.part p
  let flags := b2n x.late + 2 * b2n x.supply
  let all := x.backlog.map (fun e => e.flagged x.boundary flags)
  let now := all.take 2047
  let rest := all.drop 2047
  let k := s.rg64 (Reg.TICK_STEPNO + 0x20 * p) - 1
  let base := p * 2 ^ 20 + 0x80000 + k % 4 * 0x20000
  let mem := (List.range now.length).foldl (fun m i =>
    writeCells m (base + 0x40 + 64 * i) (bytesOf ((now.getD i ⟨[], false, false⟩).words))) s.bar4
  let header := leBytes x.boundary 8 ++ leBytes k 8 ++ leBytes now.length 2 ++ leBytes (min 0xFFFF rest.length) 2 ++
    leBytes flags 2 ++ leBytes (min 0xFFFF x.skipped) 2 ++ leBytes s.tickNo 8 ++ List.replicate 32 0
  let done := (all.filter Comp.final).foldl (fun rs e => releaseCost rs e.tag) x.residents
  let rest := rest.map (fun (e : Comp) => { e with freed := true })
  let s := ({ s with bar4 := writeCells mem base header }.partMap p (fun y => { y with backlog := rest })).setResidents p done
  if s.ptn.running.sheetIrq p then s.raise p else s

/-- The step is finished: RUNNING and LATE fall, its duration is recorded, in whole microseconds rounded down and saturating (DESIGN
CHOICE, log entry 63; R50, R72, Tables 3.22 and 3.23). -/
def State.finishStep (s : State) (p : Nat) : State :=
  let x := s.part p
  let us := min (2 ^ 26 - 1) ((s.now - x.began) / 1000)
  let s := s.partSet p { x with running := false, late := false, mirroring := false }
  let s := s.rfSet (Reg.TICK_LASTSTEP + 0x20 * p) 25 0 us
  if s.rf (Reg.TICK_PEAKSTEP + 0x20 * p) 25 0 < us then s.rfSet (Reg.TICK_PEAKSTEP + 0x20 * p) 25 0 us else s

/-- The logical cores of a partition. -/
def State.coresOf (s : State) (p : Nat) : List Nat := setBits (s.ptn.running.coreMask p) 64

/-- Has the tick program of the step ended: no group runs but parked ones and those that run for proof (R160, R168)? -/
def State.programEnded (s : State) (p : Nat) : Bool :=
  (s.coresOf p).all (fun c =>
    (s.group (gix c 0)).st == .free &&
      (List.range 64).all (fun k => k == 0 || (s.group (gix c k)).isProof || (s.group (gix c k)).st == .free ||
        (s.group (gix c k)).st == .parked))

/-- Proof jobs no group has taken are discarded at the close (R162). -/
def State.discardJobs (s : State) (p : Nat) : State :=
  (s.coresOf p).foldl (fun u c =>
    let n := (u.core c).proofQ.length
    (u.coreMap c (fun x => { x with proofQ := [] })).proofDropped p n) s

/-- Is the partition protected on an ACTIVE module, so that its step ends with the acknowledgement of its COMMIT (R476)? -/
def State.mirrored (s : State) (p : Nat) : Bool := s.pair.role == .active && s.rb Reg.PAIR_CFG (16 + p)

/-- FIT_CLOSE: the tick program has ended; the fitting unit closes every fit id of the partition in ascending order, the sheet
is written, and the step is finished unless its delta is still to be mirrored (R50, R67 to R70, R152 to R165, R476). Of a mirrored
step the sheet stands as it is written here, whatever befalls the step while its COMMIT is awaited (DESIGN CHOICE, log entry 47). -/
def execFitClose (p : Fin 16) (s : State) : Res :=
  let n := p.val
  let x := s.part n
  .next (if !x.running || x.fitClosed || x.startDue || !s.programEnded n then s
    else s.together (fun s =>
      let t := s.ptn.running
      let before := s.rf (proofReg Reg.TICK_PROOF_B n) 31 16
      let s := (List.range (t.fitCount n)).foldl (fun u i => u.closeOne n (t.fitBase n + i) x.boundary x.supply) s
      let s := if t.fitIrq n && s.rf (proofReg Reg.TICK_PROOF_B n) 31 16 != before then s.raise (48 + n) else s
      let s := s.discardJobs n
      let s := s.partMap n (fun y => { y with fitClosed := true })
      let s := s.writeSheet n
      if s.mirrored n then
        { s.partMap n (fun y => { y with mirroring := true }) with pair := { s.pair with waiting := s.pair.waiting ++ [n] } }
      else s.finishStep n))

end Sys2Proof.Machine
end

