-- ==== Sys2Proof/Machine/ThreadMem.lean ====
section
/-! DEFINITION. Memory instructions of the threads: requests, atomics, clamps, signals, staging, admission and completions
(R175 to R186, R203 to R209, R217 to R220, R347, R355). -/

namespace Sys2Proof.Machine

/-! ## Requests -/

/-- The bytes a lane access covers. -/
def ReqKind.width : ReqKind → Nat
  | .load n _ _ => n
  | .staged n _ => n
  | .store n => n
  | .atom _ t => if t < 3 then 4 else 8
  | .acquire _ _ _ => 4
  | .release _ => 4
  | .signal => 8

/-- The registers an access of `n` bytes fills. -/
def regsFor (n : Nat) : Nat := max 1 (n / 4)

/-- The agent of a group. -/
def groupAgent (gx : Nat) : Agent := .core ⟨Fin.ofNat 64 (gx / 64), Fin.ofNat 64 gx⟩

/-- The holder tag of a lane (R184). -/
def holderTag (gx l : Nat) : Nat := 1 + 32 * gx + l

/-- Lane accesses in classes of equal key, in the order of their first members. -/
def classes (key : LaneAcc → Nat) : Nat → List LaneAcc → List (List LaneAcc)
  | 0, _ => []
  | _, [] => []
  | n + 1, a :: as => (a :: as.filter (fun b => key b == key a)) :: classes key n (as.filter (fun b => key b != key a))

/-- The start of the contiguous run of accesses of width `w`, inside its line, that holds address `a` (R347). -/
def runStart (as : List LaneAcc) (w a : Nat) : Nat :=
  ((as.map (·.addr)).filter (fun b => decide (b ≤ a) && (b % 128 == 0 || !as.any (fun c => c.addr + w == b)))).foldl max 0

/-- A failing lane of an instruction: the code that came first and the address of the lowest lane are kept (R179, Table 8.8). -/
def OpenOp.fail (o : OpenOp) (l code addr : Nat) : OpenOp :=
  let lower := (lanesOf o.failed).all (fun k => decide (l < k))
  { o with failed := o.failed ||| BitVec.ofNat 32 (2 ^ l), code := if o.failed = 0 then code else o.code,
           addr := if lower then addr else o.addr }

/-- A group with a finished instruction that had failing lanes, or whose watchdog has run out, parks once nothing of it is in
flight (R179, R188, R189). -/
def State.parkDue (s : State) (gx : Nat) : State :=
  let x := s.group gx
  if !x.reqs.isEmpty || x.st == .parked then s
  else match x.ops.find? (fun o => o.2.failed != 0) with
    | none => if x.expired then s.noProgress gx else s
    | some (_, o) =>
      let s := s.groupSet gx { x with pc := o.pc, active := o.mask, stack := o.stack, replay := none, ops := [] }
      s.parkAt gx fBusErr o.code o.failed o.addr false o.pc o.word o.done

/-- The end of a CLAMP.ACQ: lanes that did not acquire leave the active mask as one stack entry (R185). -/
def State.acquireEnd (s : State) (gx id rpc : Nat) (o : OpenOp) : State :=
  let x := s.group gx
  let full := x.replay.getD x.active
  let lost := maskOf ((lanesOf x.active).filter (fun l => mhas x.waits l))
  let st := if lost = 0 then x.stack else ({ x with active := full }).joinPush rpc ⟨x.pc, lost, rpc⟩
  if 16 < st.length then ({ s with groups := mset s.groups gx { x with ops := [], active := full } {} }).illegal gx
  else
    let rest := full &&& ~~~lost
    let y := { x with stack := st, active := rest, replay := none }
    if o.failed = 0 then
      let s := s.groupSet gx { y with pc := x.pc + x.len, st := .ready, ops := mdel x.ops id,
                                      wdog := if full = 0 then x.wdog else 0 }
      s.settleGroup gx
    else s.groupSet gx { y with ops := mput x.ops id { o with mask := rest, stack := st } }

/-- An instruction without requests left: it retires, or its failing lanes park the group (R179, R188). -/
def State.opEnd (s : State) (gx id : Nat) (kind : ReqKind) : State :=
  let x := s.group gx
  if x.reqs.any (fun r => r.op == id) then s
  else match mfind x.ops id with
    | none => s
    | some o =>
      let s := match kind with
        | .acquire _ _ rpc => s.acquireEnd gx id rpc o
        | _ =>
          if o.failed ≠ 0 then s
          else s.groupSet gx { x with ops := mdel x.ops id, wdog := if o.progress && o.mask != 0 then 0 else x.wdog }
      s.parkDue gx

/-- A group that waits on clamps goes on where a lane of its top entry has been woken (R185). -/
def State.clampCheck (s : State) (gx : Nat) : State :=
  let x := s.group gx
  if x.st = .waiting ∧ x.wait = .clamp then s.settleGroup gx else s

/-- A request has been answered: its failing lanes are noted, and a BUSY group, or one whose own CLAMP.REL has woken it, may go
on. -/
def State.reqEnd (s : State) (gx k : Nat) (r : MemReq) (fails : List (Nat × Nat × Nat)) : State :=
  let x := s.group gx
  let ops := match mfind x.ops r.op with
    | none => x.ops
    | some o => mput x.ops r.op { fails.foldl (fun q f => q.fail f.1 f.2.1 f.2.2) o with
        done := o.done || decide (fails.length < r.lanes.length) }
  ((s.groupSet gx { x with reqs := x.reqs.eraseIdx k, ops := ops,
                           st := if x.st = .busy ∧ !x.stalled then .ready else x.st }).opEnd gx r.op r.kind).clampCheck gx

/-! ## Combining (R182, R183) -/

/-- Table 8.5: one combination of two operands. -/
def combine (op type a b : Nat) : Nat :=
  let w := if type < 3 then 32 else 64
  match op with
  | 0 => if type = 2 then (toF32 ((f32 (BitVec.ofNat 32 a)).add (f32 (BitVec.ofNat 32 b)))).toNat else (a + b) % 2 ^ w
  | 3 => a &&& b
  | 4 => a ||| b
  | 5 => a ^^^ b
  | k =>
    let isMax := k == 2
    if type = 2 then (minMax isMax (BitVec.ofNat 32 a) (BitVec.ofNat 32 b)).toNat
    else
      let less := fun (u v : Nat) =>
        if type = 1 ∨ type = 4 then decide (signed u w < signed v w) else decide (u < v)
      if isMax then (if less a b then b else a) else (if less b a then b else a)

/-- The combined operand of a balanced tree: the left subtree takes the larger half (DEDUCED, log entry 18). -/
def treeSum (f : Nat → Nat → Nat) : Nat → List Nat → Nat
  | 0, xs => xs.headD 0
  | n + 1, xs =>
    if xs.length ≤ 1 then xs.headD 0
    else
      let k := (xs.length + 1) / 2
      f (treeSum f n (xs.take k)) (treeSum f n (xs.drop k))

/-- The sums of the left subtrees on the path to leaf `i`, added in root-to-leaf order (R182). -/
def treePrefix (f : Nat → Nat → Nat) : Nat → List Nat → Nat → Option Nat → Option Nat
  | 0, _, _, acc => acc
  | n + 1, xs, i, acc =>
    if xs.length ≤ 1 then acc
    else
      let k := (xs.length + 1) / 2
      if i < k then treePrefix f n (xs.take k) i acc
      else
        let l := treeSum f 6 (xs.take k)
        treePrefix f n (xs.drop k) (i - k) (some (match acc with
          | none => l
          | some a => f a l))

/-- What the lanes of one address make of the old value: the new value, and what each lane receives (R181 to R184). -/
def applyLanes (gx : Nat) (kind : ReqKind) (lanes : List LaneAcc) (old : Nat) : Nat × List Nat :=
  let serial := fun (next : Nat → LaneAcc → Nat) =>
    lanes.foldl (fun (t : Nat × List Nat) a => (next t.1 a, t.2 ++ [t.1])) (old, [])
  match kind with
  | .atom op t =>
    if op = 6 then serial (fun cur a => if cur = a.b then a.c else cur)
    else if op = 7 then serial (fun _ a => a.b)
    else
      let f := combine op t
      let bs := lanes.map (·.b)
      (f old (treeSum f 6 bs), (List.range bs.length).map (fun i =>
        match treePrefix f 6 bs i none with
        | none => old
        | some p => f old p))
  | .acquire _ _ _ => serial (fun cur a => if cur = 0 then holderTag gx a.lane else cur)
  | .release _ => serial (fun cur a => if cur = holderTag gx a.lane then 0 else cur)
  | _ => ((old + (lanes.map (·.b)).sum) % 2 ^ 64, lanes.map (fun _ => old))

/-! ## What an answered request writes into its group -/

/-- A loaded value in its registers. -/
def Group.loadLane (x : Group) (dst n : Nat) (sext : Bool) (l v : Nat) : Group :=
  x.wideSet l dst (if sext then (signed v (8 * n) % 2 ^ 32).toNat else v) (regsFor n)

/-- The old values of an update as the lanes receive them: ATOM writes D, a clamp its predicate and its wait (R184 to R186,
R206, R207). -/
def Group.updated (x : Group) (gx : Nat) (r : MemReq) (vals : List Nat) : Group :=
  (r.lanes.zip vals).foldl (fun y (e : LaneAcc × Nat) =>
    let l := e.1.lane
    match r.kind with
    | .atom _ t => y.wideSet l r.dst e.2 (if t < 3 then 1 else 2)
    | .acquire q _ _ =>
      if e.2 = 0 then { y.qSet l q true with held := min 255 (y.held + 1) }
      else { y with waits := mput y.waits l (e.1.addr, e.2) }
    | .release q =>
      let okay := decide (e.2 = holderTag gx l)
      let y := y.qSet l q okay
      { y with held := if okay then y.held - 1 else y.held,
               woken := y.woken ||| maskOf ((y.waits.filter (fun w => w.2.1 == e.1.addr)).map (·.1)) }
    | _ => y) x

/-- The sectors of a request in rising order. -/
def MemReq.sectors (r : MemReq) : List Nat := sortNat ((r.lanes.map (fun a => a.addr / 32 * 32)).eraseDups)

/-- Runs of contiguous sectors: first address and number. -/
def sectorRuns : List Nat → List (Nat × Nat)
  | [] => []
  | a :: as =>
    match sectorRuns as with
    | (b, n) :: rest => if a + 32 = b then (a, n + 1) :: rest else (a, 1) :: (b, n) :: rest
    | [] => [(a, 1)]

/-- Did a sector of a read that failed with a code come whole: the read reached its slice, and the sector is there and not
poisoned (R179, R243, R245)? -/
def State.sectorCame (s : State) (q : Ask) (code a : Nat) : Bool :=
  let x := s.sec a
  (code == eUncorr || code == eLinkDown || code == eTimeout) && s.routed q && !x.poison &&
    (x.v || decide (Config.winBase ≤ a))

/-- Sectors read for a load: code and bytes of each. Where a run fails, those of its sectors that came are read all the same
(R175, R179). -/
def State.readSectors (s : State) (gx : Nat) (r : MemReq) (ecc : Ecc) : List (Nat × Nat × List Byte) × State :=
  let ag := groupAgent gx
  let p := some (s.groupPart gx)
  (sectorRuns r.sectors).foldl (fun (t : List (Nat × Nat × List Byte) × State) run =>
    let e := if t.1.isEmpty then ecc else .clean
    let (c, bs, u) := t.2.memRead ag p run.1 (32 * run.2) e
    (t.1 ++ (List.range run.2).map (fun i =>
      let b := run.1 + 32 * i
      if c = 0 then (b, 0, (bs.drop (32 * i)).take 32)
      else if u.sectorCame ⟨ag, p, run.1, 32 * run.2, .read, e⟩ c b then (b, 0, u.linBytes b 32)
      else (b, c, [])), u)) ([], s)

/-- A line of the constant cache: present, or fetched whole; one with a parity error is counted, and fetched again. Which of 8
lines of a set gives way is open (R178, R203, R251). -/
def State.constLine (s : State) (gx l : Nat) (ecc : Ecc) : Nat × List Byte × State :=
  let c := gx / 64
  let here := mfind (s.core c).ccache l
  let s := if here.isSome && ecc != .clean then
      (s.coreMap c (fun x => { x with ccache := mdel x.ccache l })).rAdd Reg.LIN_ECC_CORR 31 0 1
    else s
  match mfind (s.core c).ccache l with
  | some bs => (0, bs, s)
  | none =>
    let (code, bs, s) := s.memRead (groupAgent gx) (some (s.groupPart gx)) (128 * l) 128 (if here.isSome then .clean else ecc)
    if code ≠ 0 then (code, [], s)
    else
      let same := (s.core c).ccache.filter (fun e => e.1 % 64 == l % 64)
      let s := if same.length < 8 then s
        else
          let v := (same.getD (Config.pick s.free % same.length) (0, [])).1
          { s.coreMap c (fun x => { x with ccache := mdel x.ccache v }) with free := s.free + 1 }
      (0, bs, s.coreMap c (fun x => { x with ccache := mput x.ccache l bs }))

/-- What a request asks of the lining. -/
def State.reqAsks (s : State) (gx : Nat) (r : MemReq) (ecc : Ecc) : List Ask :=
  let ask := fun (a n : Nat) (k : AccKind) => (⟨groupAgent gx, some (s.groupPart gx), a, n, k, ecc⟩ : Ask)
  let a0 := (r.lanes.map (·.addr)).headD 0
  match r.kind with
  | .load _ _ true => if mhas (s.core (gx / 64)).ccache (a0 / 128) && ecc == .clean then [] else [ask (a0 / 128 * 128) 128 .read]
  | .load _ _ false => (sectorRuns r.sectors).map (fun q => ask q.1 (32 * q.2) .read)
  | .staged _ _ => []
  | .store n => ((r.lanes.map (fun a => runStart r.lanes n a.addr)).eraseDups).map (fun b =>
      ask b (((r.lanes.filter (fun a => runStart r.lanes n a.addr == b)).foldl (fun m a => max m (a.addr + n)) b) - b) .write)
  | k => [ask a0 k.width .update]

/-- A request performed here (R176, R179, R181): its failing lanes, and the state with memory and registers changed. What the code
of staging memory shows stands in the first word that an LDS reads: corrected, it is counted; uncorrectable, it fails the lanes
that read it (R123, R179). -/
def State.performReq (s : State) (gx : Nat) (r : MemReq) (ecc : Ecc) : List (Nat × Nat × Nat) × State :=
  let ag := groupAgent gx
  let p := some (s.groupPart gx)
  let w := r.kind.width
  let a0 := (r.lanes.map (·.addr)).headD 0
  let allFail := fun (c : Nat) => r.lanes.map (fun a => (a.lane, c, a.addr))
  match r.kind with
  | .load n sext cached =>
    let (got, s) := if cached then
        let (c, bs, s) := s.constLine gx (a0 / 128) ecc
        ((List.range 4).map (fun i => (a0 / 128 * 128 + 32 * i, c, (bs.drop (32 * i)).take 32)), s)
      else s.readSectors gx r ecc
    r.lanes.foldl (fun (t : List (Nat × Nat × Nat) × State) (a : LaneAcc) =>
      match got.find? (fun e => e.1 == a.addr / 32 * 32) with
      | some (_, 0, bs) =>
        (t.1, t.2.groupMap gx (fun x => x.loadLane r.dst n sext a.lane (leNat ((bs.drop (a.addr % 32)).take n))))
      | some (_, c, _) => (t.1 ++ [(a.lane, c, a.addr)], t.2)
      | none => t) ([], s)
  | .staged n sext =>
    let bad := fun (a : LaneAcc) => ecc == .uncorrectable && meets a.addr n (a0 / 8 * 8) 8
    let s := if ecc = .correctable then s.coreMap (gx / 64) (fun y => { y with corrected := y.corrected + 1 }) else s
    ((r.lanes.filter bad).map (fun a => (a.lane, eUncorr, a.addr)),
     s.groupMap gx (fun x => (r.lanes.filter (fun a => !bad a)).foldl (fun y a => y.loadLane r.dst n sext a.lane a.b) x))
  | .store n =>
    let bytes := r.lanes.foldl (fun (m : List (Nat × Byte)) a =>
      (List.range n).foldl (fun m i => mput m (a.addr + i) ((leBytes a.b n).getD i 0)) m) []
    let starts := (r.lanes.map (fun a => runStart r.lanes n a.addr)).eraseDups
    starts.foldl (fun (t : List (Nat × Nat × Nat) × State) b =>
      let mine := r.lanes.filter (fun a => runStart r.lanes n a.addr == b)
      let top := mine.foldl (fun m a => max m (a.addr + n)) b
      let e := if t.1.isEmpty && b == starts.headD 0 then ecc else .clean
      let (c, u) := t.2.memWrite ag p b ((bytes.filter (fun e => decide (b ≤ e.1 ∧ e.1 < top))).map (·.2)) e
      (if c = 0 then t.1 else t.1 ++ mine.map (fun a => (a.lane, c, a.addr)), u)) ([], s)
  | k =>
    let (c, old, s) := s.memUpdate ag p a0 w (fun old => leBytes (applyLanes gx k r.lanes (leNat old)).1 w) ecc
    if c ≠ 0 then (allFail c, s)
    else ([], s.groupMap gx (fun x => x.updated gx r (applyLanes gx k r.lanes (leNat old)).2))

/-! ## Remote requests -/

/-- Is a request for a remote window? -/
def MemReq.isRemote (r : MemReq) : Bool :=
  match r.kind with
  | .staged _ _ => false
  | _ => Sys2Proof.Machine.isRemote ((r.lanes.map (·.addr)).headD 0)

/-- The message a request becomes (R347, R349, R350): type, address, ARG, payload. -/
def MemReq.message (r : MemReq) : Nat × Nat × Nat × List Byte :=
  let a0 := (r.lanes.map (·.addr)).headD 0
  let secs := r.sectors
  let lo := secs.headD 0
  match r.kind with
  | .load _ _ _ => (2, lo, secs.getLastD 0 + 32 - lo, [])
  | .store n =>
    let bytes := r.lanes.foldl (fun (m : List (Nat × Byte)) a =>
      (List.range n).foldl (fun m i => mput m (a.addr + i) ((leBytes a.b n).getD i 0)) m) []
    (1, (bytes.map (·.1)).headD 0, 0, bytes.map (·.2))
  | .atom op t =>
    let w := if t < 3 then 4 else 8
    if op < 6 then
      (4, a0, 0x80 + op + 16 * t + 2 ^ 8, leBytes (treeSum (combine op t) 6 (r.lanes.map (·.b))) w)
    else
      (4, a0, 0x80 + op + 16 * t + 2 ^ 8 * r.lanes.length,
       (r.lanes.map (fun a => leBytes a.b w ++ (if op = 6 then leBytes a.c w else []))).flatten)
  | _ => (5, a0, (r.lanes.map (·.b)).sum % 2 ^ 64, [])

/-- Does an earlier request of the group touch a byte of the same lane (R176)? -/
def behind (reqs : List MemReq) (k : Nat) (r : MemReq) : Bool :=
  (reqs.take k).any (fun q => q.lanes.any (fun (a : LaneAcc) => r.lanes.any (fun (b : LaneAcc) =>
    a.lane == b.lane && decide (a.addr < b.addr + r.kind.width ∧ b.addr < a.addr + q.kind.width)))
    && (match q.kind, r.kind with
        | .staged _ _, _ => false
        | _, .staged _ _ => false
        | _, _ => true))

/-- Request `k` of a group sent, if its issuer may send now and no earlier access of one of its lanes to the same bytes is still to
be performed (R176, R354, R355, R359). -/
def State.trySend (s : State) (gx k : Nat) : State :=
  let x := s.group gx
  match x.reqs[k]? with
  | none => s
  | some r =>
    if !r.isRemote || r.remote.isSome || behind x.reqs k r then s
    else
      let (kind, a, arg, bs) := r.message
      let p := s.groupPart gx
      match s.remoteSend (groupAgent gx) p kind a arg p bs with
      | (.waits, s) => s
      | (.fails c, s) => s.reqEnd gx k r (r.lanes.map (fun l => (l.lane, c, l.addr)))
      | (.sent key, s) => s.groupMap gx (fun y => { y with reqs := y.reqs.set k { r with remote := some key } })

/-- A READ_RESP, or the failure of a request, reaches its group (R348); a core without a clock takes none (R398). -/
def State.groupRemote (s : State) (gx key code : Nat) (data : List Byte) : State :=
  let x := s.group gx
  match (if s.clockStopped (gx / 64) then none else x.reqs.findIdx? (fun r => decide (r.remote = some key))) with
  | none => s
  | some k =>
    match x.reqs[k]? with
    | none => s
    | some r =>
      if code ≠ 0 then s.reqEnd gx k r (r.lanes.map (fun l => (l.lane, code, l.addr)))
      else
        let lo := r.sectors.headD 0
        let s := match r.kind with
          | .load n sext _ => s.groupMap gx (fun y => r.lanes.foldl (fun (y : Group) (a : LaneAcc) =>
              y.loadLane r.dst n sext a.lane (leNat ((data.drop (a.addr - lo)).take n))) y)
          | .atom op t =>
            let w := if t < 3 then 4 else 8
            if op < 6 then s.groupMap gx (fun y => y.updated gx r (applyLanes gx r.kind r.lanes (leNat (data.take w))).2)
            else s.groupMap gx (fun y => y.updated gx r ((List.range r.lanes.length).map (fun i =>
              leNat ((data.drop (w * i)).take w))))
          | _ => s
        s.reqEnd gx k r []

/-! ## Issue -/

/-- An instruction becomes its requests (R175, R179, R181): `accs` are the lanes' accesses, `fails` the lanes that form
none, `done` says that some lane has completed. The group goes on, but a CLAMP.ACQ holds it. -/
def State.memIssue (s : State) (gx : Nat) (kind : ReqKind) (dst : Nat) (progress done : Bool)
    (accs : List LaneAcc) (fails : List (Nat × Nat × Nat)) : State :=
  let x := s.group gx
  let id := x.nextOp
  let key : LaneAcc → Nat := match kind with
    | .load _ _ _ => fun a => a.addr / 128
    | .store n => fun a => if Sys2Proof.Machine.isRemote a.addr then runStart accs n a.addr + 2 ^ 48 else a.addr / 128
    | .staged _ _ => fun _ => 0
    | _ => fun a => a.addr
  let reqs := (classes key 33 accs).map (fun ls => (⟨id, kind, dst, ls, none⟩ : MemReq))
  let o : OpenOp := fails.foldl (fun q f => q.fail f.1 f.2.1 f.2.2)
    ⟨x.pc, x.word, x.replay.getD x.active, x.stack, 0, 0, 0, done, progress⟩
  let first := x.reqs.length
  let s := s.groupSet gx { x with reqs := x.reqs ++ reqs, ops := mput x.ops id o, nextOp := id + 1 }
  let s := match kind with
    | .acquire _ _ _ => s.groupMap gx (fun y => { y with st := if reqs.isEmpty then y.st else .busy })
    | _ => s.pass gx
  let s := ((List.range reqs.length).reverse).foldl (fun u i => u.trySend gx (first + i)) s
  if reqs.isEmpty then s.opEnd gx id kind else s

/-- The accesses of the effective lanes, and the lanes whose address fails at once: bits above 47 with E_BOUNDS, misaligned
with E_ALIGN (R175, R179, R197). -/
def Group.accesses (x : Group) (i : Insn) (eff : BitVec 32) (w nb : Nat) : List LaneAcc × List (Nat × Nat × Nat) :=
  (lanesOf eff).foldl (fun (t : List LaneAcc × List (Nat × Nat × Nat)) l =>
    let (a, inside) := x.memAddr i l
    if !inside then (t.1, t.2 ++ [(l, eBounds, a)])
    else if a % w ≠ 0 then (t.1, t.2 ++ [(l, eAlign, a)])
    else (t.1 ++ [⟨l, a, x.wide l i.b.toNat nb % 2 ^ (8 * max w 4), x.wide l i.c.toNat nb⟩], t.2)) ([], [])

/-- The width code MOD[2:0] in bytes (R203). -/
def widthOf (i : Insn) : Nat := 2 ^ (i.mod.toNat % 8)

/-- Is MOD of a load or store not reserved (R203): width 0 to 4, sign-extension only of a narrow load? -/
def sizeOk (i : Insn) (load : Bool) (extra : Nat) : Bool :=
  modOnly i (15 + extra) && decide (i.mod.toNat % 8 ≤ 4) && (!modBit i 3 || (load && decide (i.mod.toNat % 8 ≤ 1)))

/-- LD (R175, R203). -/
def execLd (g : GroupId) (i : Insn) (s : State) : Res :=
  let n := widthOf i
  let f : Form := { size := 0, d := .regs (regsFor n), a := .regs 2, wide := true, mod := sizeOk i true 16 }
  .next (s.issue g 0x50 i f (fun s gx eff =>
    let (accs, fails) := (s.group gx).accesses i eff n 0
    s.memIssue gx (.load n (modBit i 3) (modBit i 4)) i.d.toNat false false accs fails))

/-- ST (R175, R203). -/
def execSt (g : GroupId) (i : Insn) (s : State) : Res :=
  let n := widthOf i
  let f : Form := { size := 0, a := .regs 2, b := .regs (regsFor n), wide := true, mod := sizeOk i false 0 }
  .next (s.issue g 0x51 i f (fun s gx eff =>
    let (accs, fails) := (s.group gx).accesses i eff n (regsFor n)
    s.memIssue gx (.store n) 0 true false accs fails))

/-- The staging accesses of the effective lanes (R204). -/
def Group.stagingAccs (x : Group) (i : Insn) (eff : BitVec 32) (n : Nat) : List LaneAcc × List (Nat × Nat × Nat) :=
  (lanesOf eff).foldl (fun (t : List LaneAcc × List (Nat × Nat × Nat)) l =>
    let a := ((x.w l i.a.toNat).toNat : Int) + signed i.imm.toNat 16
    if a < 0 ∨ 2 ^ 21 < a + n then (t.1, t.2 ++ [(l, eBounds, (a % 2 ^ 48).toNat)])
    else if a.toNat % n ≠ 0 then (t.1, t.2 ++ [(l, eAlign, a.toNat)])
    else (t.1 ++ [⟨l, a.toNat, x.wide l i.b.toNat (regsFor n), 0⟩], t.2)) ([], [])

/-- LDS: the value is read at issue, in program order with the group's other staging accesses, and reaches its registers
when the access completes (R204). -/
def execLds (g : GroupId) (i : Insn) (s : State) : Res :=
  let n := widthOf i
  let f : Form := { d := .regs (regsFor n), a := .regs 1, imm := true, mod := sizeOk i true 0 }
  .next (s.issue g 0x52 i f (fun s gx eff =>
    let (accs, fails) := (s.group gx).stagingAccs i eff n
    let read := accs.map (fun a => { a with b := leNat (readCells s.staging (gx / 64 * 2 ^ 21 + a.addr) n) })
    s.memIssue gx (.staged n (modBit i 3)) i.d.toNat false false read fails))

/-- STS: lanes store in ascending order (R204; DEDUCED for lanes on one byte, log entry 18). -/
def execSts (g : GroupId) (i : Insn) (s : State) : Res :=
  let n := widthOf i
  let f : Form := { a := .regs 1, b := .regs (regsFor n), imm := true, mod := sizeOk i false 0 }
  .next (s.issue g 0x53 i f (fun s gx eff =>
    let (accs, fails) := (s.group gx).stagingAccs i eff n
    let mem := accs.foldl (fun m a => writeCells m (gx / 64 * 2 ^ 21 + a.addr) (leBytes a.b n)) s.staging
    ({ s with staging := mem }).memIssue gx (.staged n false) 0 true (!accs.isEmpty) [] fails))

/-- FENCE: completes when the group's earlier accesses in its scope are performed; only SYSTEM scope takes in remote ones
(R176, R205). -/
def execFence (g : GroupId) (i : Insn) (s : State) : Res :=
  let x := s.group (gix g.core.val g.slot.val)
  let wait := i.mod.toNat % 4 == 3 || x.reqs.any (fun r => !r.isRemote)
  .next (s.issue g 0x54 i { grp := true, mod := modOnly i 3, drain := wait } (fun s gx _ => s.pass gx))

/-- CINV (R205). -/
def execCinv (g : GroupId) (i : Insn) (s : State) : Res :=
  .next (s.issue g 0x55 i { grp := true, mod := modOnly i 3 } (fun s gx _ =>
    (s.coreMap (gx / 64) (fun x => { x with ccache := if modBit i 0 then [] else x.ccache,
                                            dcache := if modBit i 1 then [] else x.dcache })).pass gx))

/-- Is the pairing of operation and type one of Table 8.5 (R206)? -/
def atomOk (op t : Nat) : Bool :=
  match op with
  | 0 => t == 0 || t == 2 || t == 3
  | 1 => decide (t ≤ 4)
  | 2 => decide (t ≤ 4)
  | k => decide (k ≤ 7) && (t == 0 || t == 3)

/-- ATOM (R181 to R183, R206). -/
def execAtom (g : GroupId) (i : Insn) (s : State) : Res :=
  let op := i.mod.toNat % 16
  let t := i.mod.toNat / 16
  let n := if t < 3 then 1 else 2
  let f : Form := { size := 0, d := .regs n, a := .regs 2, b := .regs n, wide := true, mod := atomOk op t }
  .next (s.issue g 0x58 i { f with c := if op = 6 then .regs n else .unused } (fun s gx eff =>
    let (accs, fails) := (s.group gx).accesses i eff (4 * n) n
    s.memIssue gx (.atom op t) i.d.toNat true false accs fails))

/-- Does a lane address a remote window? -/
def anyRemote (accs : List LaneAcc) : Bool := accs.any (fun a => Sys2Proof.Machine.isRemote a.addr)

/-- CLAMP.ACQ (R184, R185, R207). A misaligned lane fails with E_ALIGN, in a remote window too (DESIGN CHOICE, log entry 50). -/
def execClampAcq (g : GroupId) (i : Insn) (s : State) : Res :=
  let f : Form := { size := 16, d := .pred, a := .regs 2, ext := 0xFFFFFFFF * 2 ^ 32, mod := modOnly i 0, drain := true }
  .next (s.issue g 0x59 i f (fun s gx eff =>
    let x := s.group gx
    let (accs, fails) := x.accesses { i with ext := none } eff 4 0
    if anyRemote accs then s.illegal gx
    else s.memIssue gx (.acquire i.d.toNat x.pc (pcPlus x.pc ((i.ext.getD 0).toNat / 2 ^ 32))) 0 true false accs fails))

/-- CLAMP.REL (R184, R186, R207). A misaligned lane fails with E_ALIGN, in a remote window too (DESIGN CHOICE, log entry 50). -/
def execClampRel (g : GroupId) (i : Insn) (s : State) : Res :=
  let f : Form := { d := .pred, a := .regs 2, wide := true, mod := modOnly i 0, drain := true }
  .next (s.issue g 0x5A i f (fun s gx eff =>
    let (accs, fails) := (s.group gx).accesses i eff 4 0
    if anyRemote accs then s.illegal gx else s.memIssue gx (.release i.d.toNat) 0 true false accs fails))

/-- SIGNAL (R177, R208). -/
def execSignal (g : GroupId) (i : Insn) (s : State) : Res :=
  let f : Form := { size := 0, a := .regs 2, b := .regs 2, wide := true, mod := modOnly i 0, drain := true }
  .next (s.issue g 0x5B i f (fun s gx eff =>
    let (accs, fails) := (s.group gx).accesses i eff 8 2
    s.memIssue gx .signal 0 true false accs fails))

/-! ## Waits on signal words -/

/-- Signal words read: by lane, whether the lane's condition holds, or the code with which its word fails (R209). -/
def State.readSignals (s : State) (gx : Nat) (ws : List (Nat × (Nat × Nat))) : List (Nat × Nat × Nat) × Bool × State :=
  ws.foldl (fun (t : List (Nat × Nat × Nat) × Bool × State) w =>
    let (c, bs, u) := t.2.2.memRead (groupAgent gx) (some (s.groupPart gx)) w.2.1 8 .clean
    if c ≠ 0 then (t.1 ++ [(w.1, c, w.2.1)], t.2.1, u)
    else (t.1, t.2.1 && decide (w.2.2 ≤ leNat bs), u)) ([], true, s)

/-- Failing lanes park the group at the instruction under way (R179, R189). -/
def State.laneFaults (s : State) (gx : Nat) (fails : List (Nat × Nat × Nat)) (partly : Bool) : State :=
  let x := s.group gx
  let f := fails.headD (0, 0, 0)
  s.parkAt gx fBusErr f.2.1 (maskOf (fails.map (·.1))) f.2.2 false x.pc x.word partly

/-- The words of a wait are read and judged (R209): a failing lane parks the group (DEDUCED, log entry 18). -/
def State.judgeSignals (s : State) (gx : Nat) (ws : List (Nat × (Nat × Nat))) : State :=
  let (fails, all, s) := s.readSignals gx ws
  if !fails.isEmpty then s.laneFaults gx fails (decide (fails.length < ws.length))
  else if all then s.pass gx
  else s.await gx (.signals ws)

/-- WAITSIG (R209). -/
def execWaitsig (g : GroupId) (i : Insn) (s : State) : Res :=
  let f : Form := { size := 0, a := .regs 2, b := .regs 2, wide := true, mod := modOnly i 0, drain := true }
  .next (s.issue g 0x5C i f (fun s gx eff =>
    let (accs, fails) := (s.group gx).accesses i eff 8 2
    let p := some (s.groupPart gx)
    if anyRemote accs then s.illegal gx
    else if !fails.isEmpty then s.laneFaults gx fails (!accs.isEmpty)
    else if s.asksWait (accs.map (fun a => ⟨groupAgent gx, p, a.addr, 8, .read, .clean⟩)) then
      (s.asksBegin (accs.map (fun a => ⟨groupAgent gx, p, a.addr, 8, .read, .clean⟩))).groupMap gx (fun x => { x with st := .busy })
    else s.judgeSignals gx (accs.map (fun a => (a.lane, a.addr, a.b)))))

/-- WAIT_NOTICE: the notice of a write to one of the words of a waiting group reaches it, and it reads them again (R209); while a
word has to be fetched from a stack or line whose requests wait, the notice stands. -/
def execWaitNotice (g : GroupId) (addr : BitVec 48) (s : State) : Res :=
  let gx := gix g.core.val g.slot.val
  let x := s.group gx
  .next (match x.st, x.wait with
    | .waiting, .signals ws =>
      let qs := ws.map (fun w => (⟨groupAgent gx, some (s.groupPart gx), w.2.1, 8, .read, .clean⟩ : Ask))
      if !x.written.contains addr.toNat || s.clockStopped g.core.val then s
      else if s.asksWait qs then s.asksBegin qs
      else (s.groupSet gx { x with written := x.written.filter (· != addr.toNat) }).judgeSignals gx ws
    | _, _ => s)

/-- RELEASE_NOTICE: the notice of a home slice reaches the group and wakes the lanes it is for; a notice for lanes that have
retried is ignored (R186). -/
def execReleaseNotice (g : GroupId) (addr : BitVec 48) (s : State) : Res :=
  let gx := gix g.core.val g.slot.val
  let x := s.group gx
  .next (if !mhas x.notices addr.toNat || s.clockStopped g.core.val then s
    else
      (s.groupSet gx { x with notices := mdel x.notices addr.toNat,
                              woken := x.woken ||| mget x.notices addr.toNat 0 }).clampCheck gx)

/-! ## Completion of requests -/

/-- MEMORY_REQUEST_COMPLETE: request `k` of a group is performed, unless an earlier access of a lane to the same bytes is
not, or it has to wait at its regulators, slice or stack (R176, R179, R229 to R241, R272, R332); a remote one that has not left is
sent. A core without a clock takes no answer (R398). -/
def execMemoryRequestComplete (g : GroupId) (k : Nat) (ecc : Ecc) (s : State) : Res :=
  let gx := gix g.core.val g.slot.val
  let x := s.group gx
  .next (match (if s.clockStopped g.core.val then none else x.reqs[k]?) with
    | none => s
    | some r =>
      if behind x.reqs k r then s
      else if r.isRemote then s.trySend gx k
      else if s.asksWait (s.reqAsks gx r ecc) then s.asksBegin (s.reqAsks gx r ecc)
      else
        let (fails, s) := s.performReq gx r ecc
        s.reqEnd gx k r fails)

/-- Every outstanding request of a group performed, for a group that is dropped (R191); none waits on. -/
def State.flushReqs (s : State) (gx : Nat) : State :=
  ((s.group gx).reqs.foldl (fun u r => if r.isRemote then u else (u.performReq gx r .clean).2) s).forgetTickets
    (fun t => decide (t.ask.agent = groupAgent gx))

/-! ## Admission list, completions, proof jobs -/

/-- ADM: the count, or a word of an admitted entry; an index beyond the list gives 0 (R217). -/
def execAdm (g : GroupId) (i : Insn) (s : State) : Res :=
  let f : Form := { d := .regs 1, a := if modBit i 0 then .regs 1 else .unused, imm := modBit i 0 }
  .next (s.issue g 0x5D i { f with mod := modOnly i 1 && i.imm.toNat % 4 == 0 && decide (i.imm.toNat < 64) } (fun s gx eff =>
    let list := (s.part (s.groupPart gx)).admitted
    (s.groupMap gx (fun x => (lanesOf eff).foldl (fun y l =>
      y.wSet l i.d.toNat (if modBit i 0 then
          match list[(x.w l i.a.toNat).toNat]? with
          | some e => e.words.getD (i.imm.toNat / 4) 0
          | none => 0
        else BitVec.ofNat 32 list.length)) x)).pass gx))

/-- The completion entry of an image: TICK and FLAGS are the device's (R70, R218). -/
def compOf (words : List Word) (tick : Nat) : Comp :=
  { words := (List.range 16).map (fun j =>
      match j with
      | 2 => BitVec.ofNat 32 tick
      | 3 => BitVec.ofNat 32 (tick / 2 ^ 32)
      | 4 => BitVec.ofNat 32 ((words.getD 4 0).toNat % 2 ^ 16)
      | j => words.getD j 0), byProgram := true }

/-- COMPLETE: one entry for each effective lane; a STATUS beyond 1, or a backlog of 65,536 entries, fails the lane (R218). An
entry completed between two steps carries TICK of the step before with FLAGS 0, and stands before the entries of the next
admission (DESIGN CHOICE, log entry 47). -/
def execComplete (g : GroupId) (i : Insn) (s : State) : Res :=
  .next (s.issue g 0x5E i { a := .regs 16, mod := modOnly i 0, drain := true } (fun s gx eff =>
    let x := s.group gx
    let p := s.groupPart gx
    let (fails, s) := (lanesOf eff).foldl (fun (t : List (Nat × Nat × Nat) × State) l =>
      let words := (List.range 16).map (fun j => x.w l (i.a.toNat + j))
      let q := t.2.part p
      if 1 < (words.getD 4 0).toNat % 2 ^ 16 ∨ 65536 ≤ q.backlog.length then (t.1 ++ [(l, eBounds, 0)], t.2)
      else (t.1, t.2.partSet p { q with backlog := q.backlog ++ [compOf words q.boundary] })) ([], s)
    if fails.isEmpty then s.pass gx else s.laneFaults gx fails (decide (fails.length < (lanesOf eff).length))))

/-- The words of a job record (Table 7.5). -/
def Job.word (j : Job) (off : Nat) : Word :=
  if off = 0 then BitVec.ofNat 32 (j.fitId % 2 ^ 16 + 2 ^ 16 * j.fmt + 2 ^ 24 * j.flags)
  else if off = 4 then j.scale
  else if off = 8 then BitVec.ofNat 32 j.ctx
  else if off = 12 then BitVec.ofNat 32 (j.ctx / 2 ^ 32)
  else if off = 16 then BitVec.ofNat 32 j.row
  else if off = 20 then BitVec.ofNat 32 j.col
  else if off = 24 then BitVec.ofNat 32 (j.rows + 2 ^ 8 * j.cols + 2 ^ 16 * j.target)
  else if off = 32 then BitVec.ofNat 32 j.tick
  else if off = 36 then BitVec.ofNat 32 (j.tick / 2 ^ 32)
  else if 0x40 ≤ off then mget j.values ((off - 0x40) / 4) 0
  else 0

/-- PJOB (R220). -/
def execPjob (g : GroupId) (i : Insn) (s : State) : Res :=
  .next (s.issue g 0x5F i { d := .regs 1, a := .regs 1, imm := true, mod := modOnly i 0, drain := true } (fun s gx eff =>
    let x := s.group gx
    match x.job with
    | none => s.illegal gx
    | some j =>
      let off := fun l => ((x.w l i.a.toNat).toNat : Int) + signed i.imm.toNat 16
      let okay := fun l => decide (0 ≤ off l ∧ off l < 0x840 ∧ off l % 4 = 0)
      let fails := ((lanesOf eff).filter (fun l => !okay l)).map (fun l => (l, eBounds, 0))
      let s := s.groupSet gx (((lanesOf eff).filter okay).foldl (fun y l => y.wSet l i.d.toNat (j.word (off l).toNat)) x)
      if fails.isEmpty then s.pass gx else s.laneFaults gx fails (decide (fails.length < (lanesOf eff).length))))

end Sys2Proof.Machine
end

