-- ==== Sys2Proof/Machine/Panels.lean ====
section
/-! DEFINITION. The matrix panels and their command queue (spec/05, spec/06, R115 to R124, R141 to R144, R148 to R151, R158,
R159, R210 to R213, R279, R282). -/

namespace Sys2Proof.Machine

/-! ## Commands -/

/-- Bits of word `i` of a command. -/
def PCmd.f (q : PCmd) (i hi lo : Nat) : Nat := bitsOf (q.words.getD i 0).toNat hi lo
/-- OP (Table 5.6). -/
def PCmd.op (q : PCmd) : Nat := q.f 0 3 0
/-- PMASK. -/
def PCmd.pmask (q : PCmd) : Nat := q.f 0 7 4
/-- CTR. -/
def PCmd.ctr (q : PCmd) : Nat := q.f 0 10 8
/-- SHAPE, resolved. -/
def PCmd.shape (q : PCmd) : Nat := q.f 0 13 12
/-- BUF. -/
def PCmd.buf (q : PCmd) : Nat := q.f 0 14 14
/-- FMT_A. -/
def PCmd.fmtA (q : PCmd) : Nat := q.f 0 23 16
/-- FMT_W. -/
def PCmd.fmtW (q : PCmd) : Nat := q.f 0 31 24
/-- The addressed panels. -/
def PCmd.panels (q : PCmd) : List Nat := setBits q.pmask 4

/-- The bits of a word that the tables mark zero for an OP (Tables 5.6 to 5.10); words an OP does not use are zero. -/
def zeroMask (op i : Nat) : Nat :=
  match op, i with
  | 1, 0 => 0xB800
  | 1, 1 => 0xF0000000
  | 1, 2 => 0
  | 1, 3 => 0xFFFE0000
  | 2, 0 => 0x800
  | 2, 1 => 0xF0000000
  | 2, 2 => 0
  | 2, 3 => 0xFFE00000
  | 3, 0 => 0xFF00C800
  | 3, 1 => 0
  | 3, 2 => 0xF0800000
  | 3, 3 => 0xFFFFFC00
  | 3, 4 => 0xF0000000
  | 3, _ => 0
  | 4, 0 => 0xFFFFF8F0
  | 4, 1 => 0
  | 4, 2 => 0xFFF80000
  | 5, 0 => 0xFFFFF8F0
  | _, _ => 0xFFFFFFFF

/-- Does a pair of formats multiply, and with which tile depth T and row interval c (Table 5.2)? -/
def pairOf (fw fa : Nat) : Option (Nat × Nat) :=
  let four := fun c => c == 0x07 || c == 0x0A
  let eight := fun c => decide (1 ≤ c ∧ c ≤ 7) || c == 0x0A || c == 0x0B
  let half := fun c => c == 0x0C || c == 0x0D
  if four fw && four fa then some (256, 1)
  else if eight fw && eight fa then some (128, 1)
  else if fmtInt fw && fmtInt fa then some (128, 1)
  else if half fw && half fa then some (128, 4)
  else none

/-- Is PMASK allowed under a shape (Table 5.3)? -/
def shapeOk (shape pmask : Nat) : Bool :=
  match shape with
  | 0 => pmask != 0
  | 1 => pmask == 0x3 || pmask == 0xC || pmask == 0xF
  | 2 => pmask == 0xF
  | _ => false

/-- The chains of a shape, panels in order (Table 5.3). -/
def chainsOf (shape pmask : Nat) : List (List Nat) :=
  match shape with
  | 0 => (setBits pmask 4).map (fun p => [p])
  | 1 => (if bitOf pmask 0 then [[0, 1]] else []) ++ (if bitOf pmask 2 then [[2, 3]] else [])
  | _ => [[0, 1, 2, 3]]

/-- The chains of a PASS or DRAIN. -/
def PCmd.chains (q : PCmd) : List (List Nat) := chainsOf q.shape q.pmask

/-- The chain-end panels, ascending (R104). -/
def PCmd.ends (q : PCmd) : List Nat := q.chains.map (fun c => c.getLastD 0)

/-- Tile depth of the pair. -/
def PCmd.depth (q : PCmd) : Nat := ((pairOf q.fmtW q.fmtA).map (·.1)).getD 128

/-- Row interval of a PASS, doubled under PAIRED (R100). -/
def PCmd.interval (q : PCmd) : Nat := ((pairOf q.fmtW q.fmtA).map (·.2)).getD 1 * (if q.f 3 20 20 = 1 then 2 else 1)

/-- Rows of a PASS or DRAIN. -/
def PCmd.rows (q : PCmd) : Nat := (if q.op = 2 then q.f 3 8 0 else q.f 2 8 0) + 1

/-- PAIRED of a PASS or DRAIN. -/
def PCmd.paired (q : PCmd) : Bool := (if q.op = 2 then q.f 3 20 20 else q.f 2 18 18) == 1

/-- ACC_ROW of a PASS or DRAIN. -/
def PCmd.accRow (q : PCmd) : Nat := if q.op = 2 then q.f 3 17 9 else q.f 2 17 9

/-- The physical accumulator rows of a PASS or DRAIN: first and number (R114). -/
def PCmd.rowSpan (q : PCmd) : Nat × Nat := if q.paired then (2 * q.accRow, 2 * q.rows) else (q.accRow, q.rows)

/-- Output columns of a DRAIN before N_VALID. -/
def PCmd.width (q : PCmd) : Nat := 128 * q.ends.length

/-- N_VALID of a DRAIN. -/
def PCmd.nValid (q : PCmd) : Nat := if q.f 3 9 0 = 0 then q.width else q.f 3 9 0

/-- The flag-word target of a DRAIN: its slot, or 8 for staging (R144). -/
def PCmd.target (q : PCmd) : Nat := if q.f 2 19 19 = 1 then q.f 2 22 20 else 8

/-- Does a staging region stay inside 2 MiB, with a stride no smaller than its item (R122)? -/
def regionOk (base count stride item : Nat) : Bool :=
  decide (base + (count - 1) * stride + item ≤ 2 ^ 21) && (decide (count ≤ 1) || decide (item ≤ stride))

/-- The last queued LOAD into a buffer of a panel, or what the buffer holds: weight format and depth (R122). -/
def CoreSt.tileFor (x : CoreSt) (p buf : Nat) : Nat × Nat :=
  match x.queue.reverse.find? (fun q => q.op == 1 && q.buf == buf && bitOf q.pmask p) with
  | some q => (q.fmtW, q.depth)
  | none =>
    let t := mget x.tiles (2 * p + buf) {}
    (t.fmt, t.t)

/-- Does a LOAD meet R122? The item of its region is all 128 columns of T elements, whatever N_VALID and K_VALID are (DESIGN CHOICE,
log entry 52). -/
def PCmd.loadOk (q : PCmd) : Bool :=
  match pairOf q.fmtW q.fmtA with
  | none => false
  | some (t, _) =>
    let n := q.panels.length
    let cols := t * fmtBits q.fmtW / 8
    let sc := t / 32 * fmtScaleBytes q.fmtW
    q.pmask != 0 && decide (q.f 3 8 0 ≤ t ∧ q.f 3 16 9 ≤ 128) &&
      regionOk (q.f 1 13 0 * 128) n (q.f 1 27 14 * 128) (128 * cols) &&
      (if fmtScaled q.fmtW then regionOk (q.f 2 15 0 * 32) n (q.f 2 31 16 * 32) (128 * sc) else q.f 2 15 0 == 0)

/-- R114's row limit. -/
def PCmd.rowsOk (q : PCmd) : Bool := decide (q.accRow + q.rows ≤ if q.paired then 256 else 512)

/-- Does a PASS meet R122? -/
def PCmd.passOk (q : PCmd) (x : CoreSt) : Bool :=
  match pairOf q.fmtW q.fmtA with
  | none => false
  | some (t, _) =>
    let d := t * (q.chains.headD []).length
    shapeOk q.shape q.pmask && q.panels.all (fun p => x.tileFor p q.buf == (q.fmtW, t)) && q.rowsOk &&
      regionOk (q.f 1 13 0 * 128) q.rows (q.f 1 27 14 * 128) (d * fmtBits q.fmtA / 8) &&
      (!fmtScaled q.fmtA || regionOk (q.f 2 15 0 * 32) q.rows (q.f 2 31 16 * 32) (d / 32 * fmtScaleBytes q.fmtA))

/-- Has a slot a BIND ahead since the last core reset? -/
def CoreSt.boundSlot (x : CoreSt) (d : Nat) : Bool :=
  mhas x.slots d || x.queue.any (fun q => q.op == 4 && q.f 2 18 16 == d)

/-- Does a DRAIN meet R122? -/
def PCmd.drainOk (q : PCmd) (x : CoreSt) : Bool :=
  let wout := (q.nValid + 31) / 32 * 32
  fmtValid q.fmtA && shapeOk q.shape q.pmask && q.rowsOk && decide (q.nValid ≤ q.width) &&
    (!fmtScaled q.fmtA || q.f 7 31 0 % 32 == 0) &&
    (if q.f 2 19 19 = 1 then x.boundSlot (q.f 2 22 20)
     else q.f 2 22 20 == 0 && regionOk (q.f 4 13 0 * 128) q.rows (q.f 4 27 14 * 128) (wout * fmtBits q.fmtA / 8) &&
      (!fmtScaled q.fmtA || regionOk (q.f 5 15 0 * 32) q.rows (q.f 5 31 16 * 32) (wout / 32 * fmtScaleBytes q.fmtA)))

/-- The checks of R122 at issue. -/
def PCmd.ok (q : PCmd) (x : CoreSt) : Bool :=
  decide (1 ≤ q.op ∧ q.op ≤ 5) &&
    (List.range 8).all (fun i => (q.words.getD i 0).toNat &&& zeroMask q.op i == 0) &&
    (match q.op with
     | 1 => q.loadOk
     | 2 => q.passOk x
     | 3 => q.drainOk x
     | 4 => q.f 1 31 0 % 64 == 0
     | _ => true)

/-- The core's default shape, as it stands at issue (DESIGN CHOICE, log entry 64), in place of SHAPE 3 (R102, Table 2.6). -/
def State.resolveShape (s : State) (c : Nat) (ws : List Word) : List Word :=
  let w := (ws.headD 0).toNat
  if (w % 16 = 2 ∨ w % 16 = 3) ∧ bitsOf w 13 12 = 3 then
    ws.set 0 (BitVec.ofNat 32 (putBits w 13 12 (bitsOf (s.ptn.running.coreSet c) 2 1)))
  else ws

/-! ## PANEL and its queue -/

/-- A command enters the queue; the watchdog of its group restarts (R119, R188). -/
def State.enqueue (s : State) (gx : Nat) (q : PCmd) : State :=
  ((s.coreMap (gx / 64) (fun x => { x with queue := x.queue ++ [q] })).groupMap gx
    (fun y => { y with wdog := 0, stalled := false })).pass gx

/-- PANEL: the command of the lowest active lane is checked and queued; on a full queue the group stalls (R119, R122, R210).
A group that runs for proof may not issue one. -/
def execPanel (g : GroupId) (i : Insn) (s : State) : Res :=
  let c := g.core.val
  let x := s.group (gix c g.slot.val)
  let ws := (List.range 8).map (fun n => x.w x.lowest (i.a.toNat + n))
  let q : PCmd := { words := s.resolveShape c ws, slot := g.slot.val }
  let f : Form := { grp := true, a := .regs 8 }
  .next (s.issue g 0x70 i { f with mod := modOnly i 0 && !x.isProof && q.ok (s.core c) } (fun s gx _ =>
    if (s.core c).queue.length < 32 ∧ (s.core c).stalled = [] then s.enqueue gx q
    else
      (s.coreMap c (fun y => { y with stalled := y.stalled ++ [q] })).groupMap gx
        (fun y => { y with st := .busy, stalled := true })))

/-- PANEL_QUEUE_STALL_END: an entry is free and the command that has stalled longest, if it is this group's, enters
(R119). -/
def execPanelQueueStallEnd (g : GroupId) (s : State) : Res :=
  let gx := gix g.core.val g.slot.val
  let x := s.core g.core.val
  .next (match (if s.clockStopped g.core.val then [] else x.stalled) with
    | q :: rest =>
      if q.slot = g.slot.val ∧ x.queue.length < 32 ∧ (s.group gx).stalled then
        (s.coreSet g.core.val { x with stalled := rest }).enqueue gx q
      else s
    | [] => s)

/-! ## Starting: time and order (R105, R106, R109, R118, R120) -/

/-- `n` cycles of a core's clock in ns, at 1.4 GHz where the domain reports no clock; a droop doubles the period (R400) and
throttle level `l` passes 8 - `l` of every 8 cycles (R413). -/
def State.coreNs (s : State) (c n : Nat) : Nat :=
  let x := s.dom (s.ptn.running.physCore c)
  let k := if x.clk = 0 then 56 else x.clk
  let l := 8 - min 7 (s.dieLevel (s.ptn.running.physCore c / 6))
  (n * 40 * (if x.droop then 2 else 1) * 8 + k * l - 1) / (k * l)

/-- Do two commands address a panel in common? -/
def PCmd.meets (q r : PCmd) : Bool := q.panels.any (fun p => bitOf r.pmask p)

/-- Do a PASS and a DRAIN touch an accumulator row in common? -/
def PCmd.sharesRows (q r : PCmd) : Bool :=
  q.ends.any (fun e => r.ends.contains e) &&
    decide (q.rowSpan.1 < r.rowSpan.1 + r.rowSpan.2 ∧ r.rowSpan.1 < q.rowSpan.1 + q.rowSpan.2)

/-- The head of a core's queue, if its OP is `op` and the core has a clock. -/
def State.headCmd (s : State) (c op : Nat) : Option PCmd :=
  match (s.core c).queue with
  | q :: _ => if q.op = op ∧ !s.clockStopped c then some q else none
  | [] => none

/-- The head leaves the queue and runs. -/
def State.startCmd (s : State) (c : Nat) (r : RunCmd) : State :=
  s.coreMap c (fun x => { x with queue := x.queue.drop 1, run := x.run ++ [{ r with since := s.now }] })

/-- The unit id and syndrome of a panel unit's records (R123). -/
def State.panelErr (s : State) (c : Nat) (q : PCmd) (code : Nat) : State :=
  s.err code (unitId 2 (4 * c + q.panels.headD 0)) (s.corePart c) 0 (q.op + 2 ^ 4 * q.ctr + 2 ^ 8 * q.slot)

/-- What the code over the words that a command reads shows: a corrected error is counted, an uncorrectable word gets a record
(R123). -/
def State.panelEcc (s : State) (c : Nat) (q : PCmd) (ecc : Ecc) : State :=
  match ecc with
  | .clean => s
  | .correctable => s.coreMap c (fun x => { x with corrected := x.corrected + 1 })
  | .uncorrectable => s.panelErr c q eUncorr

/-- A command as it runs after words with such a code: with an uncorrectable one its group will park with F_BUSERR (R123). -/
def runOf (q : PCmd) (ecc : Ecc) : RunCmd :=
  let bad := ecc == .uncorrectable
  { cmd := q, uncorr := bad, fault := if bad then some (fBusErr, eUncorr) else none }

/-! ## LOAD -/

/-- Bytes of a core's staging memory. -/
def State.staged (s : State) (c a n : Nat) : List Byte := readCells s.staging (c * 2 ^ 21 + a) n

/-- The `n`-th tile of a LOAD (R107, R108, Table 5.5): only valid columns and K indices are read. -/
def State.readTile (s : State) (c : Nat) (q : PCmd) (n : Nat) : Tile :=
  let t := q.depth
  let kv := if q.f 3 8 0 = 0 then t else q.f 3 8 0
  let nv := if q.f 3 16 9 = 0 then 128 else q.f 3 16 9
  let cb := t * fmtBits q.fmtW / 8
  let sb := t / 32 * fmtScaleBytes q.fmtW
  let eb := (kv * fmtBits q.fmtW + 7) / 8
  let se := (kv + 31) / 32 * fmtScaleBytes q.fmtW
  let base := q.f 1 13 0 * 128 + n * (q.f 1 27 14 * 128)
  let sbase := q.f 2 15 0 * 32 + n * (q.f 2 31 16 * 32)
  { fmt := q.fmtW, t := t, kv := kv, nv := nv,
    elems := ((List.range nv).map (fun j => s.staged c (base + j * cb) eb ++ List.replicate (cb - eb) 0)).flatten,
    scales := ((List.range nv).map (fun j => s.staged c (sbase + j * sb) se ++ List.replicate (sb - se) 0)).flatten }

/-- PANEL_LOAD: the LOAD at the head of the queue starts once the earlier passes of its buffers have consumed their last
activation (R107 to R109, R120). -/
def execPanelLoad (c : Fin 64) (ecc : Ecc) (s : State) : Res :=
  .next (match s.headCmd c.val 1 with
    | none => s
    | some q =>
      let due := (s.core c.val).run.foldl (fun t r =>
        if r.cmd.op = 2 ∧ r.cmd.buf = q.buf ∧ r.cmd.meets q then
          max t (r.since + s.coreNs c.val (r.cmd.interval * r.cmd.rows + 127))
        else t) 0
      let s := (s.at due).panelEcc c.val q ecc
      let s := (List.range q.panels.length).foldl (fun u n =>
        let p := q.panels.getD n 0
        u.coreMap c.val (fun x => { x with tiles := mset x.tiles (2 * p + q.buf) (u.readTile c.val q n) {} })) s
      let s := s.coreMap c.val (fun x => { x with run := x.run.map (fun r =>
        if r.cmd.op = 2 ∧ r.cmd.buf = q.buf ∧ r.cmd.meets q then { r with reloaded := true } else r) })
      s.startCmd c.val (runOf q ecc))

/-! ## PASS -/

/-- Scale byte and pleat-offset byte of block `b` of a row of entries; 127 and 0 for an unscaled format. -/
def entryOf (fmt : Nat) (bs : List Byte) (b : Nat) : Nat × Nat :=
  let w := fmtScaleBytes fmt
  if w = 0 then (127, 0) else (fieldAt bs (w * b) 1, if w = 2 then fieldAt bs (2 * b + 1) 1 else 0)

/-- One block of a column: the block result and the sum of the scale exponents (R125 to R129). `elems` and `scales` are
the activation row's part for this panel. -/
def blockOf (t : Tile) (fa : Nat) (elems scales : List Byte) (j b : Nat) : Fp × Int :=
  let ks := ((List.range 32).map (32 * b + ·)).filter (fun k => decide (k < t.kv ∧ j < t.nv))
  let n := t.t / 32
  let (ws, wp) := entryOf t.fmt (t.scales.drop (j * n * fmtScaleBytes t.fmt)) b
  let (as_, ap) := entryOf fa scales b
  let prods := ks.map (fun k =>
    (operandValue fa ap (k % 32) (elemAt elems (fmtBits fa) k),
     operandValue t.fmt wp (k % 32) (elemAt t.elems (fmtBits t.fmt) (j * t.t + k))))
  let nan := !ks.isEmpty && (ws == 255 || as_ == 255)
  (if nan then .nan else blockSum (t.fmt == 0x0C || t.fmt == 0x0D) prods, ((ws : Int) - 127) + ((as_ : Int) - 127))

/-- The key of an accumulator word. -/
def accKey (c p row col : Nat) : Nat := c * 2 ^ 18 + p * 2 ^ 16 + row * 128 + col

/-- The accumulator store of the module, words and flag bits, beside the random generators that its passes draw from. -/
structure AccMem where
  acc : List (Nat × Word)
  fl : List (Nat × Nat)
  rng : Rng

/-- The running value at a key. -/
def AccMem.get (m : AccMem) (k : Nat) : Acc := ⟨mget m.acc k 0, bitOf (mget m.fl k 0) 0, bitOf (mget m.fl k 0) 1⟩

/-- A running value stored. -/
def AccMem.put (m : AccMem) (k : Nat) (a : Acc) : AccMem :=
  { m with acc := mset m.acc k a.r 0, fl := mset m.fl k (b2n a.sat + 2 * b2n a.flush) 0 }

/-- The blocks of row `m`, column `j` of a chain in ascending K order. -/
def State.rowBlocks (s : State) (c : Nat) (q : PCmd) (chain : List Nat) (m j : Nat) : List (Fp × Int) :=
  let t := q.depth
  let rb := t * chain.length * fmtBits q.fmtA / 8
  let sb := t * chain.length / 32 * fmtScaleBytes q.fmtA
  let row := s.staged c (q.f 1 13 0 * 128 + m * (q.f 1 27 14 * 128)) rb
  let scs := s.staged c (q.f 2 15 0 * 32 + m * (q.f 2 31 16 * 32)) sb
  ((List.range chain.length).map (fun i =>
    let tile := mget (s.core c).tiles (2 * chain.getD i 0 + q.buf) {}
    let es := row.drop (i * t * fmtBits q.fmtA / 8)
    let ss := scs.drop (i * t / 32 * fmtScaleBytes q.fmtA)
    (List.range (t / 32)).map (fun b => blockOf tile q.fmtA es ss j b))).flatten

/-- One output element of a PASS (R113, R129 to R135, R138, R140). -/
def State.passElem (s : State) (c : Nat) (q : PCmd) (chain : List Nat) (m j : Nat) (mem : AccMem) : AccMem :=
  let rm := rmodeOf (q.f 3 19 18)
  let e := chain.getLastD 0
  let blocks := s.rowBlocks c q chain m j
  let fresh := q.f 0 15 15 == 0
  let lane := panelLane (s.physOf c) e j
  let drawn := fun (rng : Rng) (a : Acc) (b : Fp) => if rm.draws && a.rounds b then rng.step lane else rng
  let row := q.accRow + m
  if q.paired then
    let k := accKey c e (2 * row) j
    let k2 := accKey c e (2 * row + 1) j
    let a0 : Acc := if fresh then ⟨0, false, false⟩ else mem.get k
    let e0 : Word := if fresh then 0 else mget mem.acc k2 0
    let r := blocks.foldl (fun (t : (Acc × Word) × Rng) b =>
      (accumulatePair rm (t.2.draw lane) t.1.1 t.1.2 b.1 b.2, drawn t.2 { t.1.1 with r := (pairResolve t.1.1.r t.1.2).1 } b.1))
      ((a0, e0), mem.rng)
    let mem := mem.put k r.1.1
    { mem with acc := mset mem.acc k2 r.1.2 0, rng := r.2 }
  else
    let k := accKey c e row j
    let a0 : Acc := if fresh then ⟨0, false, false⟩ else mem.get k
    let r := blocks.foldl (fun (t : Acc × Rng) b =>
      (accumulate rm (t.2.draw lane) t.1 b.1 b.2, drawn t.2 t.1 b.1)) (a0, mem.rng)
    { mem.put k r.1 with rng := r.2 }

/-- Every output element of a PASS. -/
def State.passAll (s : State) (c : Nat) (q : PCmd) : State :=
  let mem := q.chains.foldl (fun (mem : AccMem) chain =>
    (List.range q.rows).foldl (fun mem m =>
      (List.range 128).foldl (fun mem j => s.passElem c q chain m j mem) mem) mem) ⟨s.acc, s.accFlags, s.rng⟩
  { s with acc := mem.acc, accFlags := mem.fl, rng := mem.rng }

/-- PASS: the pass at the head of the queue starts: its tiles are loaded, the passes before it have issued their rows, the
drains of its rows have read them; the weights switch where R106 says so (R105, R106, R109, R113, R120). -/
def execPass (c : Fin 64) (ecc : Ecc) (s : State) : Res :=
  .next (match s.headCmd c.val 2 with
    | none => s
    | some q =>
      let run := (s.core c.val).run
      if run.any (fun r => r.cmd.op == 1 && r.cmd.buf == q.buf && r.cmd.meets q) then s
      else
        let due := run.foldl (fun t r =>
          if r.cmd.op = 2 ∧ r.cmd.meets q then
            let rows := r.cmd.interval * r.cmd.rows
            let same := r.cmd.buf = q.buf ∧ r.cmd.pmask = q.pmask ∧ r.cmd.shape = q.shape ∧ r.cmd.fmtW = q.fmtW
            max t (r.since + s.coreNs c.val (if same ∧ r.reloaded = false then rows else rows + 128))
          else if r.cmd.op = 3 ∧ r.cmd.sharesRows q then max t (r.since + s.coreNs c.val r.cmd.rows)
          else t) 0
        let s := ((s.at due).panelEcc c.val q ecc).passAll c.val q
        let s := s.coreMap c.val (fun x =>
          let b := x.actBuf.filter (fun p => !bitOf q.pmask p) ++ (if q.buf = 1 then q.panels else [])
          { x with actBuf := b })
        s.startCmd c.val (runOf q ecc))

/-! ## DRAIN -/

/-- An element a drain writes: its column, its value before SCALE, its value as encoded, its event. -/
structure DrainEl where
  col : Nat
  v : Word
  cap : Word
  ev : ConvEvent

/-- What a drain writes as one: an element, or a block with its scale entry; `col` is its first column. -/
structure DrainUnit where
  col : Nat
  bytes : List Byte
  scale : List Byte
  els : List DrainEl

/-- The FP32 value of output element (m, j), whether forming it overflowed, and its flags (R135, R141). -/
def State.drainValue (s : State) (c : Nat) (q : PCmd) (m j : Nat) : Word × Bool × Acc :=
  let e := q.ends.getD (j / 128) 0
  let mem : AccMem := ⟨s.acc, s.accFlags, s.rng⟩
  let row := q.accRow + m
  if q.paired then
    let a := mem.get (accKey c e (2 * row) (j % 128))
    let (v, o) := pairValue a.r (mget s.acc (accKey c e (2 * row + 1) (j % 128)) 0)
    (v, o, a)
  else
    let a := mem.get (accKey c e row (j % 128))
    (a.r, false, a)

/-- The product with SCALE rounded to FP32, and whether a finite product went beyond its range (R115, R143). -/
def scaleProduct (v scale : Word) : Word × Bool :=
  let x := (f32 v).mul (f32 scale)
  let w := toF32 x
  (w, !x.isInf && (f32 w).isInf)

/-- The lane that output column `j` of a drain draws from (R138). -/
def State.drainLane (s : State) (c : Nat) (q : PCmd) (j : Nat) : Nat := panelLane (s.physOf c) (q.ends.getD (j / 128) 0) (j % 128)

/-- The units of row `m` of a drain whose columns below `lim` are written (R115, R116, R282). The elements captured for proof are
decoded under the drain's own CONV (DESIGN CHOICE, log entry 64). -/
def State.drainRow (s : State) (c : Nat) (q : PCmd) (lim m : Nat) : List DrainUnit :=
  let fmt := q.fmtA
  let cv := convOf (q.f 2 27 24)
  let scale : Word := q.words.getD 1 0
  let rnd := fun j => s.rng.draw (s.drainLane c q j)
  let val := fun j =>
    let (v, o, a) := s.drainValue c q m j
    let (w, big) := scaleProduct v scale
    (v, o, a, w, big)
  if fmtScaled fmt then
    (List.range ((lim + 31) / 32)).map (fun b =>
      let vals := (List.range 32).map (fun i => if 32 * b + i < lim then some (val (32 * b + i)) else none)
      let blk := formBlock fmt cv (fun i => rnd (32 * b + i)) (vals.map (fun o => o.map (fun x => f32 x.2.2.2.1)))
      let els := ((List.range 32).map (fun i =>
        match vals.getD i none with
        | none => []
        | some (v, o, a, w, big) =>
          [(⟨32 * b + i, v, decodeF32 cv (decodeElem fmt blk.scale blk.pleats i (blk.codes.getD i 0)),
             drainEvent v w a o big (blk.events.getD i .none)⟩ : DrainEl)])).flatten
      ⟨32 * b, packElems (fmtBits fmt) blk.codes, scaleEntry fmt blk, els⟩)
  else
    (List.range lim).map (fun j =>
      let (v, o, a, w, big) := val j
      let (code, ev) := encodeUnscaled (fmtElem fmt) cv (rnd j) (f32 w)
      ⟨j, leBytes code (elemBytes fmt), [],
       [⟨j, v, decodeF32 cv (elemValue fmt code), drainEvent v w a o big ev⟩]⟩)

/-- The rows of a drain, each drawing after those before it; under a stochastic RMODE every element of columns below `lim` draws
once (R138). -/
def State.drainRows (s : State) (c : Nat) (q : PCmd) (lim n : Nat) : List (List DrainUnit) × State :=
  (List.range n).foldl (fun (t : List (List DrainUnit) × State) m =>
    (t.1 ++ [t.2.drainRow c q lim m],
     if 2 ≤ q.f 2 25 24 then { t.2 with rng := t.2.rng.steps ((List.range lim).map (t.2.drainLane c q)) } else t.2)) ([], s)

/-- The padding elements of an unscaled row in staging: +0 from N_VALID up to the next multiple of 32 (R80, R116, R117). -/
def PCmd.padUnits (q : PCmd) : List DrainUnit :=
  if fmtScaled q.fmtA then []
  else (List.range ((q.nValid + 31) / 32 * 32 - q.nValid)).map (fun k =>
    ⟨q.nValid + k, List.replicate (elemBytes q.fmtA) 0, [], []⟩)

/-- The amax of a drain (R150): NaN ignored, an infinity as the largest finite value; whether an infinity was seen. -/
def amaxOf (vs : List Word) : Option Word × Bool :=
  vs.foldl (fun (t : Option Word × Bool) v =>
    let mag := v.toNat % 2 ^ 31
    if 0x7F800000 < mag then t
    else
      let m : Word := BitVec.ofNat 32 (min mag 0x7F7FFFFF)
      (some (match t.1 with
        | some u => if u.toNat < m.toNat then m else u
        | none => m), t.2 || mag == 0x7F800000)) (none, false)

/-- The output tiles of a drain open to sampling, in row-major order, with their captured values (R158, R159). `row0` and
`col0` are the indices of row 0 and column 0. -/
def proofTiles (rows : List (List DrainUnit)) (lim row0 col0 : Nat) : List ProofTile :=
  ((List.range ((rows.length + 15) / 16)).map (fun tr =>
    (List.range ((lim + 31) / 32)).map (fun tc =>
      let n := min 16 (rows.length - 16 * tr)
      let vals := (List.range n).foldl (fun m r =>
        ((rows.getD (16 * tr + r) []).map (·.els)).flatten.foldl (fun m e =>
          if e.col / 32 = tc then mset m (32 * r + e.col % 32) e.cap 0 else m) m) ([] : List (Nat × Word))
      (⟨row0 + 16 * tr, col0 + 32 * tc, n, min 32 (lim - 32 * tc), vals⟩ : ProofTile)))).flatten

/-- The counts, amax and tiles of a drain's rows: every element formed is counted, one whose write fails or whose place has no
address as well (DESIGN CHOICE, log entry 64). -/
def RunCmd.counted (r : RunCmd) (rows : List (List DrainUnit)) (lim row0 col0 : Nat) : RunCmd :=
  let els := (rows.map (fun us => (us.map (·.els)).flatten)).flatten
  let n := fun (e : ConvEvent) => (els.filter (fun x => x.ev == e)).length
  let (a, inf) := amaxOf (els.map (·.v))
  { r with sat := n .overflow, nan := n .nan, flush := n .flush, amax := a, amaxInf := inf, wrote := !els.isEmpty,
           tiles := if r.fitProof then proofTiles rows lim row0 col0 else [] }

/-- The first failing write of a drain: its record and the park of its group (R279). -/
def State.drainFail (s : State) (c : Nat) (r : RunCmd) (code : Nat) : RunCmd × State :=
  if r.failed then (r, s)
  else ({ r with failed := true, fault := r.fault.orElse (fun _ => some (fBusErr, code)) }, s.panelErr c r.cmd code)

/-- The agent of a command: the group that issued it. -/
def cmdAgent (c : Nat) (q : PCmd) : Agent := .core ⟨Fin.ofNat 64 c, Fin.ofNat 64 q.slot⟩

/-- Writes of a drain that wait: those that can be made are, in order. -/
def State.pumpDrain (s : State) (c : Nat) (r : RunCmd) : RunCmd × State :=
  let ag := cmdAgent c r.cmd
  let p := (s.corePart c).getD 0
  r.toSend.foldl (fun (t : RunCmd × State) w =>
    let (r, s) := t
    let (a, part, bs) := w
    let keep : RunCmd := { r with toSend := r.toSend ++ [w] }
    if isRemote a then
      match s.remoteSend ag p 1 a 0 part bs with
      | (.waits, s) => (keep, s)
      | (.fails code, s) => s.drainFail c r code
      | (.sent key, s) => ({ r with sent := r.sent ++ [key] }, s)
    else if s.memWaits ag (some p) a bs.length .write .clean then
      (keep, s.memBegin ag (some p) a bs.length .write .clean)
    else
      let (code, s) := s.memWrite ag (some p) a bs .clean
      let r := if r.tally then { r with wr := r.wr ++ [(a, bs, code == 0)] } else r
      if code = 0 then (r, s) else s.drainFail c r code) ({ r with toSend := [] }, s)

/-- The line pieces of merged pieces, as writes. -/
def piecesToSend (ps : List (Nat × Nat × Bool × List Byte)) : List (Nat × Nat × List Byte) :=
  ((mergePieces ps).map (fun x =>
    ((lineCuts x.1 x.2.2.2.length).foldl (fun (t : List (Nat × Nat × List Byte) × List Byte) q =>
      (t.1 ++ [(q.1, x.2.1, t.2.take q.2)], t.2.drop q.2)) ([], x.2.2.2)).1)).flatten

/-- A DEST 1 drain's units of one row resolved to writes, elements before scale entries; units without an address fail
(R117, R275, R276, R285). -/
def State.rowWrites (s : State) (c : Nat) (r : RunCmd) (x : Desc) (cut : Option CutList) (row : Nat) (us : List DrainUnit) :
    List (Nat × Nat × List Byte) × RunCmd × State :=
  let ag := cmdAgent c r.cmd
  let p := (s.corePart c).getD 0
  let t := us.foldl (fun (t : List (Nat × Nat × Bool × List Byte) × List (Nat × Nat × Bool × List Byte) × RunCmd × State) u =>
    let (es, scs, r, s) := t
    let (sp, s) := s.locate ag p x cut [r.cmd.f 7 31 0 + u.col, row]
    let (r, s) := if sp.code ≠ 0 then s.drainFail c r sp.code else (r, s)
    let es := if sp.code = 0 then es ++ [(sp.elem, sp.part, sp.home, u.bytes)] else es
    let (r, s) := if !u.scale.isEmpty && sp.scaleCode != 0 then s.drainFail c r sp.scaleCode else (r, s)
    let scs := if u.scale.isEmpty || sp.scaleCode != 0 then scs else scs ++ [(sp.scale, sp.part, sp.home, u.scale)]
    (es, scs, r, s)) ([], [], r, s)
  (piecesToSend t.1 ++ piecesToSend t.2.1, t.2.2.1, t.2.2.2)

/-- The descriptor of a slot, through the descriptor cache of 512 entries; one with a parity error is counted, and fetched again
(R251, R280). Which entry gives way is open. -/
def State.fetchDesc (s : State) (c : Nat) (q : PCmd) (ecc : Ecc) : Nat × List Byte × State :=
  let a := mget (s.core c).slots (q.f 2 22 20) 0
  let here := mhas (s.core c).dcache a
  let s := if here && ecc != .clean then
      (s.coreMap c (fun x => { x with dcache := mdel x.dcache a })).rAdd Reg.LIN_ECC_CORR 31 0 1
    else s
  match mfind (s.core c).dcache a with
  | some bs => (0, bs, s)
  | none =>
    let (code, bs, s) := s.readFar (cmdAgent c q) ((s.corePart c).getD 0) a 64 (if here then .clean else ecc)
    if code ≠ 0 then (code, [], s)
    else
      let full := decide (512 ≤ (s.core c).dcache.length)
      let v := ((s.core c).dcache.getD (Config.pick s.free % 512) (0, [])).1
      let s := if full then { s.coreMap c (fun x => { x with dcache := mdel x.dcache v }) with free := s.free + 1 } else s
      (0, bs, s.coreMap c (fun x => { x with dcache := mput x.dcache a bs }))

/-- A drain into staging (R117, Table 5.5). -/
def State.drainStaging (s : State) (c : Nat) (r : RunCmd) : RunCmd × State :=
  let q := r.cmd
  let (rows, s) := s.drainRows c q q.nValid q.rows
  let per := fun (col : Nat) => if fmtScaled q.fmtA then col / 32 * blockLen q.fmtA else col * elemBytes q.fmtA
  let mem := (List.range rows.length).foldl (fun mem m =>
    (rows.getD m [] ++ q.padUnits).foldl (fun mem u =>
      let mem := writeCells mem (c * 2 ^ 21 + q.f 4 13 0 * 128 + m * (q.f 4 27 14 * 128) + per u.col) u.bytes
      writeCells mem (c * 2 ^ 21 + q.f 5 15 0 * 32 + m * (q.f 5 31 16 * 32) + u.col / 32 * fmtScaleBytes q.fmtA) u.scale)
      mem) s.staging
  (r.counted rows q.nValid 0 0, { s with staging := mem })

/-- A drain into a tensor (R117, R279 to R282). -/
def State.drainTensor (s : State) (c : Nat) (r : RunCmd) (desc : Ecc) : RunCmd × State :=
  let q := r.cmd
  let p := (s.corePart c).getD 0
  let (code, bs, s) := s.fetchDesc c q desc
  let fault := fun (f : Nat × Nat) => { r with fault := r.fault.orElse (fun _ => some f) }
  if code ≠ 0 then (fault (fBusErr, code), s.panelErr c q code)
  else
    let x := descOf bs
    let (code, unread, cut, s) := s.checkDesc (cmdAgent c q) p x
    if code ≠ 0 then
      (fault (if unread then (fBusErr, code) else (fIllegal, 0)), s.panelErr c q code)
    else if x.fmt ≠ q.fmtA ∨ x.rank < 2 then (fault (fIllegal, 0), s)
    else
      let row0 := q.f 6 31 0
      let col0 := q.f 7 31 0
      let lim := min q.nValid (x.sz 0 - col0)
      let (rows, s) := s.drainRows c q lim (min q.rows (x.sz 1 - row0))
      let r := ({ r with tally := x.tally != 0 }).counted rows lim row0 col0
      (List.range rows.length).foldl (fun (t : RunCmd × State) m =>
        let (ws, r, s) := t.2.rowWrites c t.1 x cut (row0 + m) (rows.getD m [])
        ({ r with toSend := r.toSend ++ ws }, s)) (r, s) |> fun t => t.2.pumpDrain c t.1

/-- DRAIN: the drain at the head of the queue starts once every earlier pass that writes its rows is complete; it takes the
fit binding of its target as it stands now (R115 to R118, R120, R149). -/
def execDrain (c : Fin 64) (ecc desc : Ecc) (s : State) : Res :=
  .next (s.together (fun s => match s.headCmd c.val 3 with
    | none => s
    | some q =>
      if (s.core c.val).run.any (fun r => r.cmd.op == 2 && r.cmd.sharesRows q) then s
      else
        let b := mget (s.core c.val).binds q.target {}
        let r : RunCmd := { runOf q ecc with
          fitId := b.id, fitAmax := b.amax, fitProof := b.proof, fitSrc := b.src, ctx := b.ctx }
        let s := s.panelEcc c.val q ecc
        let (r, s) := if q.f 2 19 19 = 1 then s.drainTensor c.val r desc else s.drainStaging c.val r
        s.startCmd c.val r))

/-- A remote write of a drain is answered (R279, R348); a core without a clock keeps its state (R398). -/
def State.drainRemote (s : State) (c key code : Nat) : State :=
  match (if s.clockStopped c then none else (s.core c).run.findIdx? (fun r => r.sent.contains key)) with
  | none => s
  | some k =>
    match (s.core c).run[k]? with
    | none => s
    | some r =>
      let r := { r with sent := r.sent.filter (· != key) }
      let (r, s) := if code = 0 then (r, s) else s.drainFail c r code
      s.coreMap c (fun x => { x with run := x.run.set k r })

/-! ## Completion -/

/-- Completion counter `k` incremented; groups whose wait that ends go on (R121, R211). -/
def State.countUp (s : State) (c k : Nat) : State :=
  if k = 0 then s
  else
    let v := (mget (s.core c).ctrs k 0 + 1) % 2 ^ 16
    let s := s.coreMap c (fun x => { x with ctrs := mset x.ctrs k v 0 })
    (List.range 64).foldl (fun u n =>
      let gx := gix c n
      let x := u.group gx
      match x.st, x.wait with
      | .waiting, .counter i target => if i = k ∧ (v + 2 ^ 16 - target) % 2 ^ 16 < 2 ^ 15 then u.pass gx else u
      | _, _ => u) s

/-- Is a core's compute die inside a suspect window (R401)? -/
def State.suspectCore (s : State) (c : Nat) : Bool :=
  s.pwr.windows.any (fun w => w.1 == s.ptn.running.physCore c / 6 || decide (12 ≤ w.1))

/-- Saturating addition to a count of a flag word. -/
def satAdd (a b n : Nat) : Nat := min (2 ^ n - 1) (a + b)

/-- A drain's counts enter the flag word of its target (R142 to R144). -/
def State.flagDrain (s : State) (c : Nat) (r : RunCmd) : State :=
  s.coreMap c (fun x =>
    let w := mget x.flags r.cmd.target {}
    { x with flags := mset x.flags r.cmd.target { w with
        sat := satAdd w.sat r.sat 16, nan := satAdd w.nan r.nan 16, flush := satAdd w.flush r.flush 16,
        supply := w.supply || s.suspectCore c, uncorr := w.uncorr || r.uncorr } {} })

/-- The sampler draws for each tile; a selected tile becomes a proof job, or is dropped at a full queue (R158, R159). -/
def State.sampleTiles (s : State) (c : Nat) (r : RunCmd) : State :=
  match s.corePart c with
  | none => s
  | some p =>
    let k := s.ptn.running.proofK p
    if k = 0 then s
    else r.tiles.foldl (fun (u : State) t =>
      let lane := samplerLane (u.physOf c)
      let d := u.rng.draw lane
      let u : State := { u with rng := u.rng.step lane }
      if d % 2 ^ k ≠ 0 then u
      else if 16 ≤ (u.core c).proofQ.length then u.proofDropped p 1
      else
        let q := r.cmd
        let j : Job := {
          fitId := r.fitId, fmt := q.fmtA,
          flags := b2n r.fitSrc + 2 * q.f 2 19 19 + 4 * b2n q.paired + 16 * q.f 2 27 24, scale := q.words.getD 1 0,
          ctx := r.ctx, row := t.row, col := t.col, rows := t.rows, cols := t.cols, target := q.target,
          tick := (u.part p).boundary, values := t.values, gen := (u.fitRec r.fitId).gen }
        (u.coreMap c (fun x => { x with proofQ := x.proofQ ++ [j] })).rAdd (proofReg Reg.TICK_PROOF_A p) 15 0 1) s

/-- The effects of a drain's completion (R142, R144, R151, R158); a fit id that its partition does not own is inactive (R146). -/
def State.drainDone (s : State) (c : Nat) (r : RunCmd) : State :=
  let s := s.flagDrain c r
  let owned := match s.corePart c with
    | some p => s.ptn.running.ownsFit p r.fitId
    | none => false
  if !owned then s
  else
  let s := if r.fitAmax then s.fitSet r.fitId ((s.fitRec r.fitId).merge r.amax r.amaxInf) else s
  if r.fitProof then s.sampleTiles c r else s

/-- The tally entries of a drain, once its writes are performed (R263, R279). -/
def State.drainTally (s : State) (c : Nat) (r : RunCmd) : RunCmd × State :=
  if !r.tally then (r, s)
  else
    let (f, s) := s.produce (cmdAgent c r.cmd) ((s.corePart c).getD 0) (r.wr.map (fun w => ⟨w.1, w.2.1, w.2.2⟩)) false
    match f with
    | none => (r, s)
    | some (code, _) => s.drainFail c r code

/-- A command's asynchronous fault reaches its group, which parks at the next instruction it would issue; of several the
first is kept (R189). -/
def State.asyncFault (s : State) (c : Nat) (r : RunCmd) : State :=
  match r.fault with
  | none => s
  | some f =>
    if r.cmd.gone then s
    else s.groupMap (gix c r.cmd.slot) (fun x => { x with async := x.async.orElse (fun _ => some f) })

/-- The cycles from the start of a command to its completion (R105, R107, R118). -/
def PCmd.cycles (q : PCmd) : Nat :=
  match q.op with
  | 1 => 128
  | 2 => q.interval * q.rows + 136
  | _ => if q.f 2 19 19 = 1 then 0 else q.rows + 24

/-- COMMAND_COMPLETE: the `k`-th running command completes, a DEST 1 drain once all its writes are answered (R118, R121,
R123). -/
def execCommandComplete (c : Fin 64) (k : Nat) (s : State) : Res :=
  .next (s.together (fun s => match (if s.clockStopped c.val then none else (s.core c.val).run[k]?) with
    | none => s
    | some r =>
      let (r, s) := s.pumpDrain c.val r
      if !r.toSend.isEmpty || !r.sent.isEmpty then s.coreMap c.val (fun x => { x with run := x.run.set k r })
      else
        let s := s.at (r.since + s.coreNs c.val r.cmd.cycles)
        let (r, s) := s.drainTally c.val r
        let s := s.coreMap c.val (fun x => { x with run := x.run.eraseIdx k })
        let s := if r.cmd.op = 3 then s.drainDone c.val r else s
        (s.countUp c.val r.cmd.ctr).asyncFault c.val r))

/-- BIND: the slot is recorded and its flag word zeroed, which completes the command (R117, R121, R144). -/
def execBind (c : Fin 64) (s : State) : Res :=
  .next (match s.headCmd c.val 4 with
    | none => s
    | some q =>
      let d := q.f 2 18 16
      (s.coreMap c.val (fun x => { x with
        queue := x.queue.drop 1
        slots := mput x.slots d (q.f 1 31 0 + 2 ^ 32 * q.f 2 15 0)
        flags := mdel x.flags d })).countUp c.val q.ctr)

/-- PANEL_FENCE: every earlier command is complete; the FENCE starts and completes (R120, R121). -/
def execPanelFence (c : Fin 64) (s : State) : Res :=
  .next (match s.headCmd c.val 5 with
    | none => s
    | some q =>
      if !(s.core c.val).run.isEmpty then s
      else (s.coreMap c.val (fun x => { x with queue := x.queue.drop 1 })).countUp c.val q.ctr)

/-! ## Counters, flag words, fit bindings -/

/-- CTRRD (R211). -/
def execCtrrd (g : GroupId) (i : Insn) (s : State) : Res :=
  .next (s.issue g 0x71 i { d := .regs 1, mod := modOnly i 7 && i.mod != 0 } (fun s gx eff =>
    let v : Word := BitVec.ofNat 32 (mget (s.core (gx / 64)).ctrs i.mod.toNat 0)
    (s.groupMap gx (fun x => (lanesOf eff).foldl (fun y l => y.wSet l i.d.toNat v) x)).pass gx))

/-- CTRWAIT (R211). -/
def execCtrwait (g : GroupId) (i : Insn) (s : State) : Res :=
  let imm := modBit i 6
  let f : Form := { grp := true, b := useB i, imm := imm, drain := true }
  .next (s.issue g 0x72 i { f with mod := modOnly i 71 && i.mod.toNat % 8 != 0 } (fun s gx _ =>
    let x := s.group gx
    let k := i.mod.toNat % 8
    let target := if imm then i.imm.toNat else (x.w x.lowest i.b.toNat).toNat % 2 ^ 16
    if (mget (s.core (gx / 64)).ctrs k 0 + 2 ^ 16 - target) % 2 ^ 16 < 2 ^ 15 then s.pass gx
    else s.await gx (.counter k target)))

/-- A flag word as 64 bits (Table 6.3). -/
def FlagWord.bits (w : FlagWord) : Nat :=
  w.sat + 2 ^ 16 * w.nan + 2 ^ 32 * w.flush + 2 ^ 48 * w.proof + 2 ^ 56 * b2n w.supply + 2 ^ 57 * b2n w.uncorr

/-- FLAGRD (R212). -/
def execFlagrd (g : GroupId) (i : Insn) (s : State) : Res :=
  let k := i.mod.toNat % 16
  let f : Form := { grp := true, d := .regs 2 }
  .next (s.issue g 0x73 i { f with mod := modOnly i 31 && decide (k ≤ 8) } (fun s gx _ =>
    let v := (mget (s.core (gx / 64)).flags k {}).bits
    let s := s.groupMap gx (fun x => (lanesOf x.active).foldl (fun y l => y.wideSet l i.d.toNat v 2) x)
    let s := if modBit i 4 then s.coreMap (gx / 64) (fun x => { x with flags := mdel x.flags k }) else s
    s.pass gx))

/-- FITBIND (R148, R213). -/
def execFitbind (g : GroupId) (i : Insn) (s : State) : Res :=
  let f : Form := { grp := true, a := .regs 1, b := .regs 2 }
  let gx := gix g.core.val g.slot.val
  let x := s.group gx
  let v := (x.w x.lowest i.a.toNat).toNat
  let ctx := x.wide x.lowest i.b.toNat 2
  let id := v % 2 ^ 12
  let okay := decide (v < 2 ^ 15 ∧ ctx < 2 ^ 48 ∧ ctx % 64 = 0) && s.ptn.running.ownsFit (s.groupPart gx) id
  .next (s.issue g 0x74 i { f with mod := modOnly i 15 && decide (i.mod.toNat ≤ 8) && okay } (fun s gx _ =>
      let b : FitBind := ⟨id, bitOf v 12, bitOf v 13, bitOf v 14, ctx⟩
      (s.coreMap (gx / 64) (fun y => { y with binds := mset y.binds i.mod.toNat b {} })).pass gx))

/-- A core's panel state after a core reset (R124, R135, R144, R148): store and staging zero, nothing queued. -/
def State.panelReset (s : State) (c : Nat) : State :=
  let s := s.coreMap c (fun x => { x with
    queue := [], run := [], stalled := [], tiles := [], actBuf := [], ctrs := [], slots := [], flags := [], binds := [] })
  { s with acc := mclear s.acc (c * 2 ^ 18) (2 ^ 18), accFlags := mclear s.accFlags (c * 2 ^ 18) (2 ^ 18),
           staging := mclear s.staging (c * 2 ^ 21) (2 ^ 21) }

end Sys2Proof.Machine
end

