-- ==== Sys2Proof/Machine/Spline.lean ====
section
/-! DEFINITION. Spline links: states and flits, messages received, forwarding, exposures, failures in flight (spec/15). -/

namespace Sys2Proof.Machine

/-! ## Outstanding requests -/

/-- A request of this module is over: its entry is freed and its issuer learns the code and the data, which cross the package
from the I/O die to it (R312, R328, R348, R359). -/
def State.resolve (s : State) (key code : Nat) (data : List Byte) : State :=
  match mfind s.spl.out key with
  | none => s
  | some e =>
    let s := s.dropEntry key
    let (ok, s) := s.carry (6 + key / 4096) (s.agentDie e.owner) 1 (if code = 0 then data.length else 0)
    let (code, data) := if ok then (code, data) else (eLinkDown, [])
    if s.isFar key then
      let s := s.farAnswer key code data
      match e.owner with
      | .jig ch => s.jigAfter ch.val
      | _ => s
    else match e.owner with
    | .core g =>
      let gx := gix g.core.val g.slot.val
      if (s.group gx).reqs.any (fun r => decide (r.remote = some key)) then s.groupRemote gx key code data
      else s.drainRemote g.core.val key code
    | .jig ch => s.jigRemote ch.val key code data
    | .host p => s.hostRemote p.val key code data
    | _ => s

/-- A message discarded (R354, R359). -/
def State.discardMsg (s : State) : State := s.rAdd Reg.SPL_DISCARDS 31 0 1

/-- The entry that a tag, an epoch and a partition name (R359): TAG [15:14] of a request is zero. A commit has moved the entry to a
new epoch, while the answer echoes the one that the request carried: both name it (R348, R359, R464; DEDUCED, log entry 17). -/
def State.entryFor (s : State) (m : Msg) (part : Nat) : Option Nat :=
  match mfind s.spl.out m.tag.toNat with
  | some e => if (e.epoch = m.epoch.toNat ∨ e.first = m.epoch.toNat) ∧ e.part = part then some m.tag.toNat else none
  | none => none

/-- REQ_TIMEOUT: a request without READ_RESP for REQ_TIMEOUT µs fails (R359). -/
def execReqTimeout (die : Fin 4) (entry : Fin 4096) (s : State) : Res :=
  let key := 4096 * die.val + entry.val
  .next (match mfind s.spl.out key with
    | none => s
    | some e =>
      ((s.at (e.sent + 1000 * s.ptn.running.reqTimeout)).rAdd Reg.SPL_TIMEOUTS 31 0 1).resolve key eTimeout [])

/-! ## Sending what is not a request of this module -/

/-- A message that may leave on any link in service, held at I/O die `die`; false when none can take it (R354, R356). -/
def State.leave (s : State) (die : Nat) (own : Option Nat) (kind : Nat) (m : Msg) : Bool × State :=
  match s.choose (s.exits own m.dst.toNat) with
  | none => (false, s)
  | some (n, s) =>
    let (ok, s) := s.carry (6 + die) (6 + n / 16) (classOf kind) m.payload.length
    if ok then (true, s.post n kind m) else (false, s)

/-- The READ_RESP to a message (R348); one that finds no link is discarded (R354, R358). -/
def State.respond (s : State) (die code : Nat) (data : List Byte) (m : Msg) : State :=
  let r : Msg := { hops := BitVec.ofNat 6 s.ptn.running.hopLimit, dst := m.src, src := BitVec.ofNat 12 s.moduleId,
                   part := m.srcPart, srcPart := m.srcPart, tag := m.tag, arg := BitVec.ofNat 64 code, epoch := m.epoch,
                   payload := if code = 0 then data else [] }
  match s.leave die none 3 r with
  | (true, s) => s
  | (false, s) => (s.noRoute die m.src.toNat (if m.dst.toNat = s.moduleId then some m.part.val else none)).discardMsg

/-- A request held at an I/O die fails: answered to its source, which may be this module; an entry that it no longer names is not
touched (R358 to R360). -/
def State.failRequest (s : State) (die code : Nat) (m : Msg) : State :=
  if m.src.toNat = s.moduleId then
    match s.entryFor m m.srcPart.val with
    | some key => s.resolve key code []
    | none => s.discardMsg
  else s.respond die code [] m

/-- A message for another module goes on (R354, R356, R358). -/
def State.forward (s : State) (die kind : Nat) (m : Msg) : State :=
  let stuck := fun (u : State) =>
    let u := u.noRoute die m.dst.toNat none
    if isRequest kind then u.failRequest die eLinkDown m else u.discardMsg
  if m.hops = 0 then stuck s
  else match s.leave die none kind { m with hops := m.hops - 1 } with
    | (true, s) => s.rAdd Reg.SPL_FORWARDED 31 0 1
    | (false, s) => stuck s

/-! ## Links leaving service -/

/-- What becomes of a message whose link left service, or whose path in this module failed (R360). -/
def State.lostMessage (s : State) (die code kind : Nat) (m : Msg) : State :=
  if (kind = 1 ∨ kind = 2) ∧ m.retry = false then
    let own := if m.src.toNat = s.moduleId then some m.srcPart.val else none
    match s.leave die own kind { m with retry := true } with
    | (true, s) => s
    | (false, s) => (s.noRoute die m.dst.toNat own).failRequest die eLinkDown m
  else if isRequest kind then s.failRequest die code m
  else if kind = 3 then s.discardMsg
  else s

/-- PEER.VALID cleared: the link has left service (Table 15.15). -/
def State.peerLost (s : State) (n : Nat) : State := s.rfSet (bank Reg.SPL_PEER n) 18 18 0

/-- A link leaves service for `st`: its record, its event, and its messages treated by type; what it has received whole stays to be
taken (R341, R360). -/
def State.linkDown (s : State) (n : Nat) (st : LinkState) : State :=
  let x := s.link n
  let s := s.linkSet n { st := st, failed := x.failed, retryAt := s.now, late := x.keepWhole }
  let s := (s.err eLinkDown (unitId 8 n) (s.ptn.running.linkOwner n) 0 0).peerLost n
  let s := (s.evSet Reg.SPL_EVT 0).raise 139
  (x.held.map (fun e => (e.1, e.2.2)) ++ x.queue).foldl (fun u e => u.lostMessage (n / 16) eLinkDown e.1 e.2) s

/-- LINK_TRAINING_RETRY: a fitted link that is DOWN begins training, at once or when its retry is due (R340). -/
def execLinkTrainingRetry (n : Fin 64) (s : State) : Res :=
  let x := s.link n.val
  .next (if !linkFitted s n.val || x.st != .down then s
    else
      let s := s.at x.retryAt
      s.linkSet n.val { x with st := .training, trained := false, limit := 15, began := s.now })

/-- The lanes a link comes up on: all four, or a pair that trained whole (R340, R341). -/
def lanesUp (good : Nat) : Nat :=
  if good % 16 = 0xF then 0xF else if good % 4 = 3 then 3 else if good / 4 % 4 = 3 then 0xC else 0

/-- A training that fails: a link that kept its replay state leaves service; it is tried again after RETRAIN_MS (R340, R343). -/
def State.trainFail (s : State) (n failed : Nat) : State :=
  let ms := max 1 (s.rf Reg.SPL_CFG 15 8)
  let x := s.link n
  let s := if x.keeping then s.linkDown n .down else s.linkSet n { x with st := .down, trained := false }
  s.linkSet n { s.link n with failed := failed, retryAt := s.now + 1000000 * ms }

/-- An INIT flit leaves (R342). -/
def State.sendInit (s : State) (n : Nat) : State := s.sendFlit n { kind := 2, modid := s.moduleId, link := n }

/-- LINK_TRAINING_END: lane training ends, and INIT is sent and awaited; or the training fails: no pair of lanes trained, or no INIT
came within 500 ms (R340 to R343). -/
def execLinkTrainingEnd (n : Fin 64) (good : BitVec 4) (s : State) : Res :=
  let x := s.link n.val
  let lanes := lanesUp (Nat.land good.toNat x.limit)
  .next (if x.st ≠ .training then s
    else if x.trained then (s.at (x.began + 500000000)).trainFail n.val x.failed
    else if lanes = 0 then s.trainFail n.val (15 - good.toNat)
    else
      (s.linkSet n.val { x with trained := true, lanes := lanes, failed := 15 - good.toNat }).sendInit n.val)

/-- The links that await the peer's INIT send theirs again (R342; log entry 17: once in an idle cycle). -/
def State.initAgain (s : State) : State :=
  s.spl.links.foldl (fun u e => if e.2.st == .training && e.2.trained then u.sendInit e.1 else u) s

/-! ## Flits -/

/-- Every unacknowledged flit of a link is sent again (R343). -/
def State.resend (s : State) (n : Nat) : State :=
  let x := s.link n
  let s := x.replay.foldl (fun u f =>
    u.sendFlit n { kind := 1, vc := f.vc, seq := f.seq, first := f.first, body := f.body }) s
  s.rAdd (bank Reg.SPL_REPLAYS n) 31 0 x.replay.length

/-- A flit that FEC could not correct counts, and fails its CRC (R339). -/
def State.fecCount (s : State) (n : Nat) (bad : Bool) : State :=
  if bad then s.rAdd (bank Reg.SPL_FEC_UNCORR n) 31 0 1 else s

/-- INIT: the peer is recorded and the link enters UP4 or UP2 (R341, R342). Credits start whole; a retraining keeps the flits not
yet acknowledged, and sends them again (R343, R344). -/
def execInit (n : Fin 64) (flit : List Byte) (s : State) : Res :=
  let x := s.link n.val
  let f := flitOf flit
  .next (if x.st ≠ .training ∨ !x.trained ∨ !flitGood flit then s
    else
      let st : LinkState := if x.lanes = 0xF then .up4 else .up2
      let s := s.rgSet (bank Reg.SPL_PEER n.val) (BitVec.ofNat 32 (f.modid + 2 ^ 12 * f.link + 2 ^ 18))
      let s := if st = .up2 then s.evSet Reg.SPL_EVT 1 else s
      let y := if x.keeping then { x with st := st, keeping := false, resends := 0 }
        else { x with st := st, txSeq := 0, rxSeq := 0, nakSent := false, replay := [], used := [], owed := [], resends := 0 }
      let s := s.linkSet n.val y
      ((if x.keeping then s.resend n.val else s).sendAck n.val).pump n.val)

/-- The COMMIT of a protected step was acknowledged: the step is finished (R476). -/
def State.commitAcked (s : State) (p : Nat) : State :=
  if s.pair.waiting.contains p && s.pair.sent.contains p then
    let s := { s with pair := { s.pair with
      waiting := s.pair.waiting.filter (· != p), sent := s.pair.sent.filter (· != p) } }
    s.finishStep p
  else s

/-- Is a message a MIRROR COMMIT, and of which partition (R477)? -/
def commitOf (kind : Nat) (m : Msg) : Option Nat :=
  if kind = 7 ∧ m.arg.toNat / 2 ^ 60 = 3 then some (m.arg.toNat / 2 ^ 56 % 16) else none

/-- An ACK covers flits up to its SEQ; the messages that end in them are delivered (R343). -/
def State.ackFlits (s : State) (n ack : Nat) : State :=
  let x := s.link n
  match x.replay.findIdx? (fun e => e.seq == ack) with
  | none => s
  | some i =>
    let gone := (x.replay.take (i + 1)).map (·.seq)
    let ended := x.held.filter (fun e => gone.contains e.2.1)
    let s := s.linkSet n { x with
      replay := x.replay.drop (i + 1), held := x.held.filter (fun e => !gone.contains e.2.1), resends := 0 }
    ended.foldl (fun u e => match commitOf e.1 e.2.2 with
      | some p => u.commitAcked p
      | none => u) s

/-- Credits returned for a virtual channel (R344). -/
def State.creditBack (s : State) (n vc count : Nat) : State :=
  let x := s.link n
  s.linkSet n { x with used := mset x.used vc (mget x.used vc 0 - count) 0 }

/-- The ACK and the credits of a flit's header, and what may leave after them. -/
def State.flitHeader (s : State) (n ack vc count : Nat) : State := ((s.ackFlits n ack).creditBack n vc count).pump n

/-- DATA: a flit in sequence with a good CRC is accepted into the receive buffer of its virtual channel; another is discarded,
with one NAK until the expected flit comes (R339, R343, R344). -/
def execData (n : Fin 64) (fecBad : Bool) (flit : List Byte) (s : State) : Res :=
  let x := s.link n.val
  let f := flitOf flit
  let ok := !fecBad && flitGood flit
  .next (if !x.up then s
    else
      let s := s.fecCount n.val fecBad
      if ok && f.seq == x.rxSeq then
        ((s.linkSet n.val { x.accept f with rxSeq := (x.rxSeq + 1) % 4096, nakSent := false }).sendAck n.val).flitHeader
          n.val f.ack f.crvc f.crcount
      else if x.nakSent then s
      else (s.linkSet n.val { x with nakSent := true }).sendFlit n.val { kind := 3 })

/-- IDLE_FLIT: an ACK and returned credits (R343, R344). -/
def execIdleFlit (n : Fin 64) (flit : List Byte) (s : State) : Res :=
  let f := flitOf flit
  .next (if (s.link n.val).up && flitGood flit then s.flitHeader n.val f.ack f.crvc f.crcount else s)

/-- The unacknowledged flits are resent once more; after NAK_LIMIT resends without progress the link retrains (R343). -/
def State.resendMore (s : State) (n : Nat) : State :=
  let x := s.link n
  if x.replay.isEmpty then s
  else
    let r := x.resends + 1
    let s := (s.linkSet n { x with resends := r }).resend n
    if max 1 (s.rf Reg.SPL_CFG 3 0) ≤ r then
      (s.linkSet n { s.link n with st := .training, trained := false, keeping := true, began := s.now,
                                   limit := if x.st == .up2 then x.lanes else 15 }).peerLost n
    else s

/-- NAK: what it acknowledges and the credits it returns are taken, and the rest is sent again (R343, R344). -/
def execNak (n : Fin 64) (flit : List Byte) (s : State) : Res :=
  let f := flitOf flit
  .next (if (s.link n.val).up && flitGood flit then
    (((s.ackFlits n.val f.ack).creditBack n.val f.crvc f.crcount).resendMore n.val).pump n.val else s)

/-- REPLAY_TIMEOUT: no ACK has advanced for 4 µs while flits are unacknowledged (R343). -/
def execReplayTimeout (n : Fin 64) (s : State) : Res :=
  .next (if (s.link n.val).up then s.resendMore n.val else s)

/-- SPLINE_LANE_FAIL: a lane has lost lock, or its corrected symbols of one millisecond, which are counted, exceed LANE_LIMIT;
the link falls back to the pair without a failed lane, or goes DOWN (R341). -/
def execSplineLaneFail (n : Fin 64) (lane : Fin 4) (symbols : Option (BitVec 32)) (s : State) : Res :=
  let x := s.link n.val
  let failed := Nat.lor x.failed (2 ^ lane.val)
  let y := { x with failed := failed }
  let s := match symbols with
    | some k => if linkFitted s n.val then s.rAdd64 (bank Reg.SPL_FEC_CORR n.val) k.toNat else s
    | none => s
  let fails := match symbols with
    | some k => decide (s.rf Reg.SPL_CFG 31 16 < k.toNat)
    | none => true
  .next (if !fails then s
    else match x.st with
    | .up4 =>
      let pair := lanesUp (15 - failed)
      if pair = 0 then (s.linkSet n.val y).linkDown n.val .down
      else (s.linkSet n.val { y with st := .up2, lanes := pair }).evSet Reg.SPL_EVT 1
    | .up2 => if bitOf x.lanes lane.val then (s.linkSet n.val y).linkDown n.val .down else s.linkSet n.val y
    | _ => s)

/-- LINK_DISABLE: a physical function sets DISABLE: the link leaves service and is held DISABLED (R340, R341). -/
def execLinkDisable (f : Func) (n : Fin 64) (s : State) : Res :=
  .next (s.inOrder f (.linkDisable f n) (fun s =>
    (if !isPf f || !linkFitted s n.val then s
      else
        let up := (s.link n.val).up || (s.link n.val).keeping
        let s := s.rbSet (bank Reg.SPL_LINKCTL n.val) 0 true
        if up then s.linkDown n.val .disabled else s.linkSet n.val { s.link n.val with st := .disabled })))

/-- DISABLE cleared: the link may train (R340). -/
def State.linkEnable (s : State) (n : Nat) : State :=
  let s := s.rbSet (bank Reg.SPL_LINKCTL n) 0 false
  let x := s.link n
  if linkFitted s n && x.st == .disabled then s.linkSet n { x with st := .down, retryAt := s.now } else s

/-- LINK_RETRAIN: an in-service link trains again, keeping its replay state, and attempts UP4 (R341, R343). -/
def execLinkRetrain (f : Func) (n : Fin 64) (s : State) : Res :=
  .next (s.inOrder f (.linkRetrain f n) (fun s =>
    let x := s.link n.val
    (if isPf f && x.up then
      (s.linkSet n.val { x with st := .training, trained := false, keeping := true, began := s.now, limit := 15 }).peerLost n.val
      else s)))

/-! ## Messages received -/

/-- The buffer of a virtual channel of an I/O die's link makes the die's urgency (R334, R345). -/
def State.splineUrge (s : State) (n vc : Nat) : State :=
  s.urge (masterId (.remote (Fin.ofNat 4 (n / 16)))) (fillUrgency (mget (s.link n).rx vc []).length (vcBuf vc))

/-- The oldest message of a link's virtual channel, if it is of a type, is taken from its buffer, whose credits go back; one for
another module is forwarded, and a module without an id takes none (R344, R346, R353, R356). While its accesses have to wait it
stays in the buffer (R272). -/
def State.received (s : State) (n kind : Nat) (body : Msg → State → State) : State :=
  let s := s.splineUrge n (vcOf kind)
  match (s.link n).next (vcOf kind) with
  | none => s
  | some (k, m, y) =>
    if k ≠ kind then s
    else s.together (fun s =>
      let s := (s.linkSet n y).sendAck n
      let s := s.rAdd64 (bank Reg.SPL_RXBYTES n) (msgBytes m)
      if m.dst.toNat ≠ s.moduleId then s.forward (n / 16) kind m
      else if s.moduleId = 0xFFF then s
      else body m s)

/-- Offset of exposure `i` of a partition in ROUTES (Table 15.7). -/
def expOff (p i : Nat) : Nat := 0x10640 + 128 * p + 32 * i

/-- The local address of a request of `len` bytes, or the code it is refused with; `right` is the bit of CTRL (R353). -/
def State.exposed (s : State) (m : Msg) (right len : Nat) : Nat × Nat :=
  let t := s.ptn.running
  let p := m.part.val
  let o := m.offset.toNat
  if !t.enabled p || (s.part p).resetting then (ePerm, 0)
  else
    let ok := fun i =>
      let e := expOff p i
      let c := t.fld 6 e 1
      let w := t.fld 6 (e + 8) 8
      bitOf c 0 && bitOf c right && decide (w ≤ o ∧ o < w + t.fld 6 (e + 0x10) 8 ∧
        t.fld 6 (e + 2) 2 % 4096 ≤ m.src.toNat ∧ m.src.toNat ≤ t.fld 6 (e + 4) 2 % 4096)
    match (List.range 4).find? ok with
    | none => (ePerm, 0)
    | some i =>
      let e := expOff p i
      let w := t.fld 6 (e + 8) 8
      if w + t.fld 6 (e + 0x10) 8 < o + len then (eBounds, 0) else (0, t.fld 6 (e + 0x18) 8 + o - w)

/-- What a request does at its address: code and data (R348 to R350). -/
def State.requestHere (s : State) (die kind a : Nat) (m : Msg) : Nat × List Byte × State :=
  let ag : Agent := .remote (Fin.ofNat 4 die)
  let p := some m.part.val
  let arg := m.arg.toNat
  match kind with
  | 1 =>
    let (c, s) := s.memWrite ag p a m.payload .clean
    (c, [], s)
  | 2 => s.memRead ag p a (arg % 1024) .clean
  | 4 =>
    if !bitOf arg 7 then
      let (c, s) := s.memReduce ag p a (arg % 16) m.payload .clean
      (c, [], s)
    else
      let op := arg % 8
      let t := arg / 16 % 8
      let w := if t < 3 then 4 else 8
      let per := if op = 6 then 2 * w else w
      let lanes := (List.range (arg / 256 % 64)).map (fun i =>
        (⟨i, a, fieldAt m.payload (per * i) w, fieldAt m.payload (per * i + w) w⟩ : LaneAcc))
      if !atomOk op t then (eBounds, [], s)
      else if a % w ≠ 0 then (eAlign, [], s)
      else
        let upd := applyLanes 0 (.atom op t) lanes
        let (c, old, s) := s.memUpdate ag p a w (fun bs => leBytes (upd (leNat bs)).1 w) .clean
        (c, ((upd (leNat old)).2.map (fun v => leBytes v w)).flatten, s)
  | _ =>
    if a % 8 ≠ 0 then (eAlign, [], s)
    else
      let (c, _, s) := s.memUpdate ag p a 8 (fun bs => leBytes (leNat bs + arg) 8) .clean
      (c, [], s)

/-- Bytes a request reaches from OFFSET on, and the right it needs. -/
def requestSpan (kind : Nat) (m : Msg) : Nat × Nat :=
  let arg := m.arg.toNat
  match kind with
  | 1 => (m.payload.length, 2)
  | 2 => (arg % 1024, 1)
  | 4 => (if bitOf arg 7 then (if arg / 16 % 8 < 3 then 4 else 8) else m.payload.length, 3)
  | _ => (8, 4)

/-- A request for this module: refused, or performed, and answered (R353). -/
def State.request (s : State) (n kind : Nat) (m : Msg) : State :=
  let (len, right) := requestSpan kind m
  let (c, a) := s.exposed m right len
  if c ≠ 0 then s.respond (n / 16) c [] m
  else
    let (c, data, s) := s.requestHere (n / 16) kind a m
    s.respond (n / 16) c data m

/-- WRITE (R347, R348, R353, R356). -/
def execWrite (n : Fin 64) (s : State) : Res := .next (s.received n.val 1 (fun m s => s.request n.val 1 m))

/-- READ (R347, R348, R353, R356). -/
def execRead (n : Fin 64) (s : State) : Res := .next (s.received n.val 2 (fun m s => s.request n.val 2 m))

/-- REDUCE (R349, R353, R356). -/
def execReduce (n : Fin 64) (s : State) : Res := .next (s.received n.val 4 (fun m s => s.request n.val 4 m))

/-- SIGNAL_MESSAGE (R350, R353, R356). -/
def execSignalMessage (n : Fin 64) (s : State) : Res := .next (s.received n.val 5 (fun m s => s.request n.val 5 m))

/-- Is a message of a partition older than its last reset (R464)? -/
def State.stalePart (s : State) (p : Nat) (m : Msg) : Bool := (s.part p).resetEpoch.any (fun r => epochBefore m.epoch.toNat r)

/-- READ_RESP: it completes the entry its TAG, EPOCH and SRC_PART name, or is discarded (R348, R359), as is one to a request that a
partition reset came after (R464). -/
def execReadResp (n : Fin 64) (s : State) : Res :=
  .next (s.received n.val 3 (fun m s =>
    if s.stalePart m.srcPart.val m then s.discardMsg.rAdd Reg.BRUP_DISCARDS 31 0 1
    else match s.entryFor m m.srcPart.val with
      | some key => s.resolve key (m.arg.toNat % 2 ^ 16) m.payload
      | none => s.discardMsg))

/-- A TICKMARK for this module: 1 is added to its word; a failure is recorded here and answered to nobody (R351). -/
def State.markHere (s : State) (n : Nat) (m : Msg) : State :=
  let ag : Agent := .remote (Fin.ofNat 4 (n / 16))
  let bad := fun (u : State) (code a : Nat) => u.err code (unitId 8 (0x100 + n / 16)) (some m.part.val) a 0
  let (c, a) := s.exposed m 4 8
  if c ≠ 0 then bad s c 0
  else if a % 8 ≠ 0 then bad s eAlign a
  else
    let (c, _, s) := s.memUpdate ag (some m.part.val) a 8 (fun bs => leBytes (leNat bs + 1) 8) .clean
    if c ≠ 0 then bad s c a else s.rAdd (Reg.SPL_TMARK + 4 * m.part.val) 31 0 1

/-- TICKMARK (R351, R353, R356). -/
def execTickmark (n : Fin 64) (s : State) : Res := .next (s.received n.val 6 (fun m s => s.markHere n.val m))

/-- A partition's TICKMARKs, one for every valid mark entry, at a boundary that begins its step (R351). -/
def State.sendMarks (s : State) (p : Nat) : State :=
  let t := s.ptn.running
  (List.range 8).foldl (fun u j =>
    let o := 0x10E40 + 128 * p + 16 * j
    let w := t.fld 6 o 8
    if !bitOf w 0 then u
    else
      let m : Msg := { hops := BitVec.ofNat 6 t.hopLimit, dst := BitVec.ofNat 12 (bitsOf w 15 4), src := BitVec.ofNat 12 u.moduleId,
                       part := Fin.ofNat 16 (bitsOf w 19 16), srcPart := Fin.ofNat 16 p, offset := BitVec.ofNat 35 (t.fld 6 (o + 8) 8),
                       arg := BitVec.ofNat 64 u.tickNo, epoch := BitVec.ofNat 16 (u.epoch p) }
      match u.leave 0 (some p) 6 m with
      | (true, u) => u
      | (false, u) => (u.noRoute 0 m.dst.toNat (some p)).discardMsg) s

/-- A partition's requests freed without completion (R359, R463). -/
def State.dropRequests (s : State) (p : Nat) : State :=
  { s with spl := { s.spl with
    out := s.spl.out.filter (fun e => e.2.part != p), far := s.spl.far.filter (fun f => f.part != p) } }

/-- Is a message one that this module sends for a partition: a request or a TICKMARK? -/
def State.sentFor (s : State) (p kind : Nat) (m : Msg) : Bool :=
  (isRequest kind || kind == 6) && m.src.toNat == s.moduleId && m.srcPart.val == p

/-- The messages of a partition that wait on links discarded, those older than its reset (R464). -/
def State.dropQueued (s : State) (p : Nat) : State :=
  let old := fun (e : Nat × Msg) => s.sentFor p e.1 e.2 && s.stalePart p e.2
  let ns := (List.range 64).filter (fun n => (s.link n).queue.any old)
  let count := (ns.map (fun n => ((s.link n).queue.filter old).length)).sum
  (ns.foldl (fun u n => u.linkSet n { u.link n with queue := (u.link n).queue.filter (fun e => !old e) }) s).rAdd
    Reg.BRUP_DISCARDS 31 0 count

/-- A partition's requests moved to its new epoch (R359). -/
def State.moveRequests (s : State) (p : Nat) : State :=
  { s with spl := { s.spl with out := s.spl.out.map (fun e =>
      if e.2.part = p then (e.1, { e.2 with epoch := s.epoch p }) else e) } }

end Sys2Proof.Machine
end

