-- ==== Sys2Proof/Machine/Resets.lean ====
section
/-! DEFINITION. What a module reset, a core reset, a partition reset and a turnover leave (R39, R78, R246, R309, R453,
R461 to R467, Table 21.2). -/

namespace Sys2Proof.Machine

/-! ## Module reset -/

/-- The smallest limit that applies and its source, the lowest code among equals (R393, Table 17.5). -/
def State.limitNow (s : State) : Nat × Nat :=
  let a := s.rf Reg.PWR_LIMIT 11 0
  let b := s.mgmt.limit
  let held := s.pwr.faultHold || s.pwr.rangeHold
  let m := min a b
  if held && decide (1200 < m) then (1200, 2) else if a ≤ b then (a, 0) else (b, 1)

/-- PWR.EFFECTIVE and PWR.STATUS brought up to date (R393). -/
def State.limitUpdate (s : State) : State :=
  let (w, src) := s.limitNow
  let s := s.rfSet Reg.PWR_EFFECTIVE 11 0 w
  let s := (s.rbSet Reg.PWR_STATUS 1 s.pins.faultIn).rbSet Reg.PWR_STATUS 2 s.pwr.rangeHold
  s.rfSet Reg.PWR_STATUS 4 3 src

/-- The powered hours of every core, kept in ns, with those of the cores powered now (R423). -/
def State.hoursNow (s : State) : List (Nat × Nat) :=
  (List.range 72).foldl (fun m p =>
    let x := s.dom p
    if x.st = .up ∨ x.st = .stopped then mset m p (mget m p 0 + (s.now - x.upSince)) 0 else m) s.nor.hours

/-- A module reset: NOR and fuses are kept, and what stands outside the module; HBM keeps its cells, but every key is
destroyed and a new module key made, so that they read as free values (R450, R452, R461, R462, Table 21.2). The inputs keep their
levels: PWR_FAULT_IN_N and J1 below 46 V hold the limit, and a rail below its warning level keeps PWR_GOOD low (R383, R391, R393,
R394). PWR.LAST_RESET reads the cause. Whether the primary escutcheon passes
its self-test, and the standby serves otherwise, is free (R440, log entry 29). -/
def State.moduleReset (s : State) (cause : Nat) : State :=
  let t : State := { State.reset with
    pending := s.pending, now := s.now, free := s.free + 1, reply := s.reply, outbox := s.outbox, fuses := s.fuses,
    nor := { s.nor with hours := s.hoursNow },
    hbm := { State.reset.hbm with data := s.hbm.data, secs := s.hbm.secs, undef := s.hbm.undef },
    esc := { State.reset.esc with
      made := s.esc.made + 1, moduleKey := s.esc.made + 1, standby := Config.pick s.free % 2 == 1 },
    pins := { State.reset.pins with thermIn := s.pins.thermIn, faultIn := s.pins.faultIn },
    rng := s.rng.fresh,
    pwr := { State.reset.pwr with
      faultHold := s.pins.faultIn, rangeHold := s.pwr.rangeHold, stageTwo := s.pwr.stageTwo, low := s.pwr.low } }
  t.limitUpdate.rfSet Reg.PWR_LAST_RESET 3 0 cause

/-! ## Core reset -/

/-- The logical core that a physical core serves. -/
def State.logicalOf (s : State) (phys : Nat) : Option Nat :=
  (List.range 64).find? (fun c => s.ptn.running.physCore c == phys)

/-- Proof jobs that groups of a core hold, dropped for a partition as the groups end (R161). -/
def State.dropTaken (s : State) (c : Nat) (p : Option Nat) : State :=
  match p with
  | some p => s.proofDropped p ((List.range 64).filter (fun k => (s.group (gix c k)).isProof)).length
  | none => s

/-- The agents of a core. -/
def ofCore (c : Nat) : Agent → Bool
  | .core g => g.core.val == c
  | _ => false

/-- A core as a reset leaves it: its groups end without a park record, barriers, panels and staging are clear, and its
counts start again (R124, R135, R139, R144, R148, R192). -/
def State.coreWipe (s : State) (c : Nat) : State :=
  let s := ({ s with groups := mclear s.groups (gix c 0) 64 }).forgetTickets (fun t => ofCore c t.ask.agent)
  let s := (s.coreMap c (fun x => { x with bars := [], activeSet := [] })).panelReset c
  let s : State := { s with rng := s.rng.reseed (s.physOf c) }
  [Reg.CORE_ISSUE, Reg.CORE_ISSUE + 4, Reg.CORE_DUAL, Reg.CORE_DUAL + 4, Reg.CORE_PARKS].foldl
    (fun u k => u.rgSet (coreReg k c) 0) s

/-- A core reset: the proof jobs that groups of the core hold are dropped as the groups end (R161). -/
def State.coreClear (s : State) (c : Nat) : State := (s.dropTaken c (s.corePart c)).coreWipe c

/-- What the block of logical core `c` holds of its physical core (R20). -/
def State.coreBlock (s : State) (c : Nat) : CoreBlock :=
  { cfg := s.rg (coreReg Reg.CORE_PARKCFG c), result := s.rg (coreReg Reg.CORE_PARK_RESULT c),
    sel := s.rg (coreReg Reg.CORE_PREG_SEL c),
    parks := (List.range 64).filterMap (fun k => (mfind s.parks (gix c k)).map (fun r => (k, r))) }

/-- The block of logical core `c` taken from a physical core. -/
def State.coreBlockSet (s : State) (c : Nat) (b : CoreBlock) : State :=
  let s := ((s.rgSet (coreReg Reg.CORE_PARKCFG c) b.cfg).rgSet (coreReg Reg.CORE_PARK_RESULT c) b.result).rgSet
    (coreReg Reg.CORE_PREG_SEL c) b.sel
  { s with parks := b.parks.foldl (fun m e => mput m (gix c e.1) e.2) (mclear s.parks (gix c 0) 64) }

/-- Logical cores that pass from one physical core to another, as (logical, old, new): CORE n shows the block of the new one
(R20). -/
def State.coresMove (s : State) (moves : List (Nat × Nat × Nat)) : State :=
  let kept := moves.foldl (fun m q => mset m q.2.1 (s.coreBlock q.1) {}) s.away
  let s := moves.foldl (fun (u : State) q => u.coreBlockSet q.1 (mget kept q.2.2 {})) s
  { s with away := moves.foldl (fun m q => mdel m q.2.2) kept }

/-! ## Partition reset -/

/-- A basting ends without a commit: the staged copy is gone (R33). -/
def State.dropBasting (s : State) : State :=
  let s := { s with ptn := { s.ptn with
    staged := none, phase := .idle, loading := false, loadLen := 0, loadAddr := 0, token := none, loaded := false, freshSecs := [],
    commitDue := false, recheck := false }, hbm := { s.hbm with fresh := [] } }
  { s with parts := (s.parts.map (fun e => (e.1, { e.2 with held := false }))).filter (fun e => e.2 != {}) }

/-- A basting unpicked with its result (R32, R33, R46). -/
def State.unpickWith (s : State) (code detail op : Nat) (who : Option Func) : State :=
  (s.ptnResult code detail op true who).dropBasting

/-- The part of a partition's state that its abandoned step leaves: the backlog without the entries its program wrote in
this step, those of its boundary with their own flags; SKIPPED, LAG and the residents zero (R78, R463). -/
def Part.abandoned (x : Part) : Part :=
  let flags := b2n x.late + 2 * b2n x.supply
  let keep := x.backlog.filter (fun e =>
    !(x.running && !x.fitClosed && e.byProgram &&
      (e.words.getD 2 0).toNat + 2 ^ 32 * (e.words.getD 3 0).toNat == x.boundary))
  { x with running := false, late := false, skipped := 0, startDue := false, admitted := [], residents := [],
           mirroring := false, fitClosed := false, ages := [], overloaded := false, supply := false,
           backlog := if x.running && !x.fitClosed then keep.map (fun e => e.flagged x.boundary flags) else keep }

/-- The step of a partition abandoned, its groups and cores reset, its fit records and proof jobs gone, which DROPPED does not count
(R157, R463, Table 7.11). -/
def State.abandonStep (s : State) (p : Nat) : State :=
  let t := s.ptn.running
  let s := s.partMap p Part.abandoned
  let s := { s with pair := { s.pair with
    waiting := s.pair.waiting.filter (· != p), sent := s.pair.sent.filter (· != p) } }
  let s := ((s.rgSet (Reg.TICK_LAG + 0x20 * p) 0).ctlSet p 0xC 4 0).setResidents p []
  let s := (s.coresOf p).foldl (fun u c => (u.coreWipe c).coreMap c (fun x => { x with proofQ := [] })) s
  (List.range (t.fitCount p)).foldl (fun u i => u.fitClear (t.fitBase p + i) (some p)) s

/-- A pending PIN or UNPIN of the partition's region cancelled (R236). -/
def State.pinDrop (s : State) (p : Nat) : State :=
  match s.lin.pinCmd with
  | some (_, i) => if (s.ptn.running.region i).owner = p then s.pinCancel else s
  | none => s

/-- Requests of a port that wait for a READ_RESP of a freed entry fail; the others are tried again (R465). -/
def State.hostFail (s : State) (p : Nat) : State :=
  (s.spl.out.filter (fun e => e.2.part == p)).foldl (fun u e => match e.2.owner with
    | .host port => u.hostRemote port.val e.1 ePerm []
    | _ => u) s

/-- The accesses that wait at the lines of a partition, or to reach them. -/
def State.queuedAt (s : State) (p : Nat) : List LinAccess :=
  s.lin.blocked.filter (fun x => x.part.val == p) ++ ((s.linesOf p).1.map (fun e => e.2.strands)).flatten

/-- The accesses queued at a partition's lines leave them: those of hosts and other modules fail with E_PERM (R465). -/
def State.failQueued (s : State) (p : Nat) : State :=
  let xs := s.queuedAt p
  let s := ({ s with lin := { s.lin with blocked := s.lin.blocked.filter (fun x => x.part.val != p) } } : State).forgetTickets
    (fun t => t.ask.part == some p)
  (xs.filter (fun x => hostLike x.agent)).foldl (fun u _ => u.answer { code := ePerm }) s

/-- The lining, channels and requests of a partition reset (R246, R309, R359). -/
def State.clearOwned (s : State) (p : Nat) : State :=
  let t := s.ptn.running
  let s := (((s.pinDrop p).failQueued p).dropLines p).clearSlices p (t.slices p)
  let s := (setBits (t.jigMask p) 320).foldl (fun u c => u.jigClear c) s
  (s.hostFail p).dropRequests p

/-- Is an agent a jig channel? -/
def isJig : Agent → Bool
  | .jig _ => true
  | _ => false

/-- The requests of a partition that are on the network: accesses of its own that wait at a slice, those of its groups that go to
memory, and those of its channels that wait (R464). -/
def State.inFlight (s : State) (p : Nat) : Nat :=
  let net := fun (r : MemReq) => match r.kind with
    | .staged _ _ => false
    | _ => r.remote.isNone
  ((s.queuedAt p).filter (fun x => !hostLike x.agent)).length +
    (s.lin.tickets.filter (fun t => isJig t.ask.agent && t.ask.part == some p)).length +
    (((s.coresOf p).map (fun c => (List.range 64).map (fun k => ((s.group (gix c k)).reqs.filter net).length))).flatten).sum

/-- A partition reset starts (R463 to R466): epoch, which is its reset epoch from then on (R464), step, cores, lining, channels,
requests and a basting scoped to it, in that order; requests queued at its resources fail at once. -/
def State.partReset (s : State) (p : Nat) : State :=
  if (s.part p).resetting then s
  else
    let s := (s.rAdd (Reg.PTN_EPOCH + 4 * p) 15 0 1).rAdd Reg.BRUP_DISCARDS 31 0 (s.inFlight p)
    let e := s.epoch p
    let s := (s.rbSet Reg.BRUP_PRESET_BUSY p true).partMap p (fun x => { x with resetting := true, resetEpoch := some e })
    let s := ((s.abandonStep p).clearOwned p).dropQueued p
    let s := if s.ptn.phase ≠ .idle ∧ s.ptn.partScope ∧ s.ptn.part.val = p then s.unpickWith 0 0 0 none else s
    (s.hostPump 0).hostPump 1

/-- The turnover of a partition past the key's destruction (R453): its lining, everything a partition reset clears, its
TICK, proof and miss counts, its BAR4 area. Its backlog goes with the area (DEDUCED, log entry 20). -/
def State.scrubPart (s : State) (p : Nat) : State :=
  let s := (s.abandonStep p).clearOwned p
  let s := s.partMap p (fun x => { ({} : Part) with resetting := x.resetting, resetEpoch := x.resetEpoch, hashGen := x.hashGen, held := x.held, stopped := x.stopped })
  let regs := mclear (mclear s.regs (Reg.TICK_PSTATE + 0x20 * p) 0x20) (Reg.TICK_PROOF_A + 0x10 * p) 0x10
  ({ s with regs := regs, bar4 := mclear s.bar4 (p * 2 ^ 20) (2 ^ 20) }).rgSet (Reg.BWREG_MISS + 4 * p) 0

/-- ESC.TURNOVER over the partitions of a mask, and their counts (R453, R458). -/
def State.turnoverDone (s : State) (ps : List Nat) : State :=
  let s := s.rfSet Reg.ESC_TURNOVER 15 0 ((ps.map (2 ^ ·)).sum)
  let s := s.rAdd Reg.ESC_TURNOVER 31 16 ps.length
  ps.foldl (fun u p => { u with esc := { u.esc with turnovers := mset u.esc.turnovers p (mget u.esc.turnovers p 0 + 1) 0 } }) s

/-- Key slots after a commit or a FULL unlock: those of `gone` are destroyed, and every LIVE slot that no enabled partition
names; each EMPTY slot that an enabled partition with pseudo-channels names gets a fresh key (R451, R453). -/
def State.rekey (s : State) (gone : List Nat) : State :=
  let t := s.ptn.running
  let named := t.enabledParts.map t.keySlot
  let need := (t.enabledParts.filter (fun p => t.pchMask p != 0)).map t.keySlot
  let live := s.esc.keys.filter (fun e => named.contains e.1 && !gone.contains e.1)
  let s := { s with esc := { s.esc with keys := live } }
  let s := (List.range 16).foldl (fun u k =>
    if need.contains k && !mhas u.esc.keys k then
      { u with esc := { u.esc with made := u.esc.made + 1, keys := mput u.esc.keys k (u.esc.made + 1) } }
    else u) s
  s.rfSet Reg.ESC_KEYSTATE 15 0 ((s.esc.keys.map (fun e => 2 ^ e.1)).sum)

end Sys2Proof.Machine
end

