-- ==== Sys2Proof/Machine/Power.lean ====
section
/-! DEFINITION. Power delivery: limits, trimming, phases, dips, resets by rail, and powering core domains (spec/17). -/

namespace Sys2Proof.Machine

/-! ## Records and limits -/

/-- A W_SUPPLY record of the power manager (Table 17.4). -/
def State.supplyRec (s : State) (cause a b : Nat) (part : Option Nat) : State :=
  s.err wSupply (unitId 0 4) part 0 (cause + 2 ^ 8 * a + 2 ^ 16 * b)

/-- The unit that writes the record of a dip: for a VIN_C cluster the compute die that it lies beneath, so that dips on several dies
are never merged (R400, R427); for another rail the power manager (DESIGN CHOICE, log entry 67: Table 19.2 names no cluster). -/
def dipUnit (rail : Nat) : Nat := if rail < 12 then unitId 10 rail else unitId 0 4

/-- A bit of PWR.EVT set. -/
def State.pwrEvt (s : State) (i : Nat) : State := s.evSet Reg.PWR_EVT i

/-- PWR_LIMIT_WRITE: a physical function's value, clamped into 1,200 to 3,000 W (R393). -/
def execPwrLimitWrite (f : Func) (v : Word) (s : State) : Res :=
  .next (s.inOrder f (.pwrLimitWrite f v) (fun s =>
    if isPf f then (s.rfSet Reg.PWR_LIMIT 11 0 (max 1200 (min 3000 (v.toNat % 4096)))).limitUpdate else s))

/-- STAGE_TWO_START: J1 has been in range for 10 ms (R391). -/
def execStageTwoStart (s : State) : Res := .next { s with pwr := { s.pwr with stageTwo := true } }

/-- INPUT_UNDERRANGE: J1 below 46 V: the limit is held, with an event and a record (Table 17.1). -/
def execInputUnderrange (s : State) : Res :=
  .next (if s.pwr.rangeHold then s
    else ((({ s with pwr := { s.pwr with rangeHold := true } } : State).limitUpdate).pwrEvt 5).supplyRec 6 0 0 none)

/-- INPUT_RANGE_RELEASE: the range hold ends (Table 17.1). -/
def execInputRangeRelease (s : State) : Res :=
  .next ({ s with pwr := { s.pwr with rangeHold := false } } : State).limitUpdate

/-- A module reset with stage two off until J1 is in range again. -/
def State.inputLost (s : State) (cause : Nat) : State :=
  let s := s.moduleReset cause
  { s with pwr := { s.pwr with stageTwo := false } }

/-- UNDERVOLT (Table 17.1). -/
def execUndervolt (s : State) : Res := .next (s.inputLost 11)

/-- OVERVOLT (Table 17.1). -/
def execOvervolt (s : State) : Res := .next (s.inputLost 2)

/-- Is a rail below its warning level: PWR_GOOD is released high only when none is (R384, R394). -/
def State.pwrGood (s : State) : Bool := s.pwr.low.isEmpty && s.pwr.stageTwo

/-! ## Domains -/

/-- F0 of a core in 25 MHz units and V0 in 5 mV units, as fused (R417); 1,400 MHz and 760 mV by default. -/
def State.f0 (s : State) (p : Nat) : Nat := mget s.fuses.f0 p 56
/-- V0. -/
def State.v0 (s : State) (p : Nat) : Nat := mget s.fuses.v0 p 152

/-- The plan in force of a core (R421, R423). -/
def State.planOf (s : State) (p : Nat) : Plan := (mfind s.nor.plans p).getD ⟨0, s.f0 p, s.v0 p, 0⟩

/-- The failed phases of a core that firmware recorded (R397). -/
def State.phasesOf (s : State) (p : Nat) : List Nat := (List.range 24).filter (fun i => s.nor.phases.contains (24 * p + i))

/-- A ceiling lowered to 90 %, rounded down to 25 MHz (R397). -/
def lowerCeil (c : Nat) : Nat := c * 9 / 10

/-- The ceiling of a plan, lowered once for every failed phase it was made without (R397). -/
def State.ceilOf (s : State) (p : Nat) (x : Plan) : Nat :=
  ((s.phasesOf p).filter (fun i => !bitOf x.phases i)).foldl (fun c _ => lowerCeil c) x.ceil

/-- Can a physical core not serve: defective, retired or fenced (R316)? -/
def State.coreLost (s : State) (p : Nat) : Bool :=
  s.fuses.badCores.contains p || s.nor.badCores.contains p || s.nor.retired.contains p || s.nor.fenced.contains p

/-- The queue of requests with that of core `p`, made now: behind the earlier ones, among those of this cycle in ascending
order (R403). -/
def State.askAt (s : State) (p : Nat) : List Nat → List Nat
  | [] => [p]
  | q :: rest => if (s.dom q).asked = s.now ∧ p < q then p :: q :: rest else q :: s.askAt p rest

/-- A power-up requested (R403). -/
def State.powerAsk (s : State) (p : Nat) : State :=
  let x := s.dom p
  if x.st ≠ .unpowered ∨ s.coreLost p then s
  else
    let s := s.domSet p { x with st := .waiting, asked := s.now, seen := 0, slow := false }
    { s with pwr := { s.pwr with queue := s.askAt p s.pwr.queue } }

/-- A domain unpowered, for good when `st` is fenced; its powered hours are kept (R395, R398, R423). -/
def State.powerDown (s : State) (p : Nat) (st : DomainState) : State :=
  let x := s.dom p
  let on := x.st == .up || x.st == .stopped
  let s := { s with
    nor := { s.nor with hours := if on then mset s.nor.hours p (mget s.nor.hours p 0 + (s.now - x.upSince)) 0 else s.nor.hours }
    pwr := { s.pwr with queue := s.pwr.queue.filter (· != p) } }
  s.domSet p { st := st, phases := x.phases }

/-- Units of the di/dt budget in use (R403). -/
def State.unitsUsed (s : State) : Nat := (s.pwr.doms.map (fun e => e.2.units)).sum

/-- Has a waiting request come to its slow ramp: its cluster was above the level at the fourth base boundary, or 800 µs are over
before READY (R404)? -/
def State.slowDue (s : State) (x : Domain) : Bool :=
  x.slow || (!s.tick.en && decide (x.asked + 800000 ≤ s.now))

/-- A base boundary of a waiting request: the level of its cluster at the fourth one decides between soft start and slow ramp; a
request that has waited 800 µs before boundary 0 above the level stays with its slow ramp (R404). The level is the one last
seen (log entry 58). -/
def State.waitBoundary (s : State) (p : Nat) (x : Domain) : Domain :=
  let early := s.tickNo == 0 && decide (x.asked + 800000 ≤ s.now)
  { x with seen := x.seen + 1, slow := x.slow || ((x.seen == 3 || early) && s.pwr.peaks.contains (p / 6)) }

/-- Does an earlier request wait for units only (R403, R404)? -/
def State.unitsAhead (s : State) (p : Nat) : Bool :=
  (s.pwr.queue.takeWhile (· != p)).any (fun q => !s.pwr.peaks.contains (q / 6) || s.slowDue (s.dom q))

/-- RAMP_START: a waiting request begins its ramp where units are free and its turn has come: slow where that was decided at the
fourth base boundary or is due before READY, soft otherwise, which waits until the cluster is below 135 A (R403, R404). -/
def execRampStart (core : Fin 72) (above : Bool) (s : State) : Res :=
  let p := core.val
  let x := s.dom p
  let rest := s.pwr.peaks.filter (· != p / 6)
  let s := { s with pwr := { s.pwr with peaks := if above then insertSorted (p / 6) rest else rest } }
  let slow := x.slow || (above && s.slowDue x)
  let need := if slow then 1 else 4
  .next (if x.st ≠ .waiting ∨ (above ∧ !slow) ∨ s.unitsAhead p ∨ 32 < s.unitsUsed + need then s
    else
      let s := { s with pwr := { s.pwr with queue := s.pwr.queue.filter (· != p) } }
      s.domSet p { x with st := .ramping, units := need, began := s.now, ended := none })

/-- RAMP_END: 20 µs of a soft start or 200 µs of a slow ramp are over, and its units return (R403). -/
def execRampEnd (core : Fin 72) (s : State) : Res :=
  let x := s.dom core.val
  .next (if x.st ≠ .ramping ∨ x.ended.isSome then s
    else
      let s := s.at (x.began + (if x.units = 4 then 20000 else 200000))
      s.domSet core.val { x with units := 0, ended := some s.now })

/-- May a core be measured: its compute die lies within 45 to 85 °C and is not in THROTTLE (R420)? -/
def State.measurable (s : State) (p : Nat) : Bool :=
  let d := s.die (p / 6)
  decide (45 ≤ d.govern ∧ d.govern ≤ 85) && d.st != .throttle

/-- The measurement for which a core was powered up begins (R419, R420). -/
def State.measureUp (s : State) (p : Nat) : State :=
  match s.thm.alt with
  | some a => if a.powered && a.queue.head? == some p && a.measuring.isNone && s.measurable p then
      { s with thm := { s.thm with alt := some { a with measuring := some s.now } } }
    else s
  | none => s

/-- DOMAIN_UP: 2 µs after its ramp the domain is up at its plan, its core clear (R404). It starts at its ceiling (DESIGN
CHOICE, log entry 21). -/
def execDomainUp (core : Fin 72) (s : State) : Res :=
  let p := core.val
  let x := s.dom p
  .next (match x.st, x.ended with
    | .ramping, some t =>
      let s := s.at (t + 2000)
      let c := s.ceilOf p (s.planOf p)
      let ph := ((s.phasesOf p).map (2 ^ ·)).sum
      let s := s.domSet p { st := .up, clk := c, ceil := c, volt := (s.planOf p).volt, phases := ph, upSince := s.now }
      let s := match s.logicalOf p with
        | some l => s.coreClear l
        | none => s
      s.measureUp p
    | _, _ => s)

/-! ## Clocks against the limit (R396) -/

/-- PRIO of the partition a physical core serves; 0 where it serves none. -/
def State.corePrio (s : State) (p : Nat) : Nat :=
  match (s.logicalOf p).bind s.corePart with
  | some n => s.rf Reg.PWR_PRIO (2 * n + 1) (2 * n)
  | none => 0

/-- The powered cores. -/
def State.upCores (s : State) : List Nat := (List.range 72).filter (fun p => (s.dom p).st == .up)

/-- The core to lower next: the lowest priority, then the fewest steps below its ceiling, then the lowest number. -/
def State.lowerNext (s : State) : Option Nat :=
  let key := fun p => s.corePrio p * 64 + ((s.dom p).ceil - (s.dom p).clk)
  (s.upCores.filter (fun p => decide (28 < (s.dom p).clk))).foldl (fun b p => match b with
    | none => some p
    | some q => if key p < key q then some p else b) none

/-- The core to raise next, in the reverse order. -/
def State.raiseNext (s : State) : Option Nat :=
  let key := fun p => s.corePrio p * 64 + ((s.dom p).ceil - (s.dom p).clk)
  (s.upCores.filter (fun p => decide ((s.dom p).clk < (s.dom p).ceil))).foldl (fun b p => match b with
    | none => some p
    | some q => if key q ≤ key p then some p else b) none

/-- `n` core-steps of 25 MHz, down or up. -/
def State.trim (s : State) (down : Bool) : Nat → State
  | 0 => s
  | n + 1 =>
    match (if down then s.lowerNext else s.raiseNext) with
    | none => s
    | some p =>
      let x := s.dom p
      (s.domSet p { x with clk := if down then x.clk - 1 else x.clk + 1 }).trim down n

/-- CAPPED and TRAFFIC of PWR.STATUS. -/
def State.trimStatus (s : State) : State :=
  let capped := s.upCores.any (fun p => decide ((s.dom p).clk < (s.dom p).ceil))
  (s.rbSet Reg.PWR_STATUS 0 capped).rfSet Reg.PWR_STATUS 7 5 s.pwr.traffic

/-- POWER_MEASUREMENT: the registers show the millisecond; above the limit cores are lowered, or at their floor the traffic
level rises; below it the level falls, or at 0 cores are raised. How many steps a measurement moves is free (R396; log
entry 22). -/
def execPowerMeasurement (watts mv da : Nat) (s : State) : Res :=
  let w := min 4095 watts
  let s := s.rfSet Reg.PWR_POWER 11 0 w
  let s := if s.rf Reg.PWR_POWER 23 12 < w then s.rfSet Reg.PWR_POWER 23 12 w else s
  let s := (s.rfSet Reg.PWR_INPUT 15 0 (min 0xFFFF mv)).rfSet Reg.PWR_INPUT 31 16 (min 0xFFFF da)
  let eff := s.rf Reg.PWR_EFFECTIVE 11 0
  let n := Config.pick s.free % 4096
  let level := fun (u : State) (t : Nat) => ({ u with pwr := { u.pwr with traffic := t } } : State)
  let s := if eff < watts then
      (if s.lowerNext.isSome then ({ s with free := s.free + 1 } : State).trim true (n + 1)
       else level s (min 7 (s.pwr.traffic + 1)))
    else if s.pwr.traffic ≠ 0 then (if watts * 100 ≤ eff * 95 then level s (s.pwr.traffic - 1) else s)
    else ({ s with free := s.free + 1 } : State).trim false n
  .next s.trimStatus

/-! ## Spares (R318, R319) -/

/-- The physical cores that no core entry of a copy names and that can serve (R316, R318). -/
def State.spares (s : State) (t : Pat) : List Nat :=
  let used := (List.range 64).map t.physCore
  (List.range 72).filter (fun p => !used.contains p && !s.coreLost p)

/-- The spare for a physical core: on its compute die, else on its lining die, else any, the lowest number first (R318). -/
def spareFor (phys : Nat) (xs : List Nat) : Option Nat :=
  ((xs.find? (fun q => q / 6 == phys / 6)).orElse (fun _ => xs.find? (fun q => q / 12 == phys / 12))).orElse (fun _ => xs.head?)

/-- The core entry of a logical core rewritten. -/
def Pat.setCore (t : Pat) (c phys : Nat) : Pat := t.fldSet 2 (0x40 + c) 1 phys

/-- SPARE_CORES of a partition less one. -/
def Pat.takeSpare (t : Pat) (p : Nat) : Pat :=
  if t.spareCores p = 0 then t else t.fldSet 1 (recOff p) 4 (t.fld 1 (recOff p) 4 - 2 ^ 8)

/-- The choice of R318 applied to a staged copy for a core marked for retirement: of a spare its partition reserves, or of
one that no partition reserves (R319). A spare that is itself marked is passed over (DESIGN CHOICE, log entry 23). -/
def State.stageRetire (s : State) (t : Pat) (phys : Nat) : Pat :=
  match (List.range 64).find? (fun c => t.physCore c == phys) with
  | none => t
  | some c =>
    let xs := (s.spares t).filter (fun q => !s.nor.marked.contains q)
    let reserved := (t.enabledParts.map t.spareCores).sum
    let own := t.coreOwner c
    let holds := match own with
      | some p => decide (0 < t.spareCores p)
      | none => false
    if !holds && decide (xs.length ≤ reserved) then t
    else match spareFor phys xs with
      | none => t
      | some q =>
        let t := t.setCore c q
        match own with
        | some p => t.takeSpare p
        | none => t

/-- Every marked core replaced in a staged copy (R319). -/
def State.stageRetires (s : State) : State :=
  { s with ptn := { s.ptn with staged := s.ptn.staged.map (fun t => s.nor.marked.foldl s.stageRetire t) } }

/-! ## Phase failures and fences -/

/-- PHASE_FAIL: the phase is recorded; the first of a group lowers the ceiling, the second stops the clock; a domain that still
ramps comes up with the lowered ceiling (R397, R398). -/
def execPhaseFail (core : Fin 72) (group : Fin 3) (phase : Fin 8) (s : State) : Res :=
  let p := core.val
  let x := s.dom p
  let i := 8 * group.val + phase.val
  let failed := s.phasesOf p
  .next (if (x.st ≠ .up ∧ x.st ≠ .stopped ∧ x.st ≠ .ramping) ∨ failed.contains i then s
    else
      let second := failed.any (fun k => k / 8 == group.val)
      let y := { x with phases := ((failed ++ [i]).map (2 ^ ·)).sum }
      let y := if second then { y with st := .stopped, units := 0 }
        else { y with ceil := lowerCeil y.ceil, clk := min y.clk (lowerCeil y.ceil) }
      let s := s.domSet p y
      let s := { s with nor := { s.nor with phases := s.nor.phases ++ [24 * p + i] } }
      let part := (s.logicalOf p).bind s.corePart
      ((s.supplyRec 2 p i part).pwrEvt 1).raise 140)

/-- A core fenced: its groups end and its commands are discarded, its domain is unpowered for good, and NOR records it (R398);
for age the record is W_THERM (R422). -/
def State.fenceCore (s : State) (p : Nat) (aged : Bool) : State :=
  let l := s.logicalOf p
  let part := l.bind s.corePart
  let s := match l with
    | some c => s.coreClear c
    | none => s
  let s := s.powerDown p .fenced
  let s := { s with nor := { s.nor with fenced := insertSorted p (s.nor.fenced.filter (· != p)) } }
  let s := if aged then s.err wTherm (unitId 0 5) part 0 (7 + 2 ^ 8 * p) else s.supplyRec 3 p 0 part
  (s.pwrEvt 2).raise 140

/-- What a base boundary does to domains: it counts for waiting requests (R404), plans take effect, with the ceiling lowered for the
phases that failed since (R397, R421), and stopped or aged cores are fenced (R398, R422). -/
def State.powerBoundary (s : State) : State :=
  let cores := List.range 72
  let s := cores.foldl (fun u p =>
    let x := u.dom p
    let x := if x.st = .waiting then u.waitBoundary p x else x
    let x := match x.plan with
      | some q =>
        let c := u.ceilOf p q
        if x.st = .up then { x with plan := none, ceil := c, volt := q.volt, clk := min x.clk c } else { x with plan := none }
      | none => x
    u.domSet p x) s
  let aged := s.pwr.aged
  let s := { s with pwr := { s.pwr with aged := [] } }
  cores.foldl (fun u p =>
    if (u.dom p).st = .stopped then u.fenceCore p false else if aged.contains p then u.fenceCore p true else u) s

/-! ## Dips -/

/-- DROOP: the clock period doubles (R400). -/
def execDroop (core : Fin 72) (s : State) : Res :=
  let x := s.dom core.val
  .next (if x.st = .up then s.domSet core.val { x with droop := true } else s)

/-- DROOP_RECOVERY: the period is restored (R400). -/
def execDroopRecovery (core : Fin 72) (s : State) : Res :=
  let x := s.dom core.val
  .next (if x.droop then s.domSet core.val { x with droop := false } else s)

/-- Does a partition own a core on compute die `d`, or any for a rail other than VIN_C (R401)? -/
def State.onRail (s : State) (p rail : Nat) : Bool :=
  (s.coresOf p).any (fun c => decide (12 ≤ rail) || s.ptn.running.physCore c / 6 == rail)

/-- WARNING_TRIP: a suspect window opens; running steps it concerns are supply-suspect (R400, R401). -/
def execWarningTrip (rail : Fin 17) (s : State) : Res :=
  let r := rail.val
  .next (if s.pwr.low.contains r then s
    else
      let open_ := s.pwr.windows.any (fun w => w.1 == r)
      let s := { s with pwr := { s.pwr with
        low := insertSorted r s.pwr.low, windows := if open_ then s.pwr.windows else s.pwr.windows ++ [(r, s.tickNo)] } }
      s.ptn.running.enabledParts.foldl (fun u p =>
        if (u.part p).running && u.onRail p r then u.partMap p (fun x => { x with supply := true }) else u) s)

/-- A dip recorded with the tick number at its trip (R400). The window of a rail other than VIN_C counts as one dip (DEDUCED, log
entry 67). -/
def State.dipRec (s : State) (rail tick : Nat) : State :=
  let now := s.tickNo
  let s := (s.rg64Set Reg.TICK_COUNT tick).err wSupply (dipUnit rail) none 0 (1 + 2 ^ 8 * (if rail < 12 then rail else 0xFF))
  let s := s.rg64Set Reg.TICK_COUNT now
  let s := (s.rAdd Reg.PWR_DIPS 31 0 1).rg64Set Reg.PWR_DIP_LAST tick
  (s.pwrEvt 0).raise 140

/-- SUSPECT_WINDOW_CLOSE: a window closes without a reset, and the dip is recorded (R400); after a reset the rail has only risen
again (R402). -/
def execSuspectWindowClose (rail : Fin 17) (s : State) : Res :=
  let r := rail.val
  .next (match s.pwr.windows.find? (fun w => w.1 == r) with
    | none => { s with pwr := { s.pwr with low := s.pwr.low.filter (· != r) } }
    | some w =>
      ({ s with pwr := { s.pwr with
        low := s.pwr.low.filter (· != r), windows := s.pwr.windows.filter (fun w => w.1 != r) } } : State).dipRec r w.2)

/-- RAIL_RESET: a rail below its reset level: module reset, and nothing of the window is recorded; the rail lies below its
warning level until it has risen again (R394, R402). -/
def execRailReset (rail : Fin 17) (s : State) : Res :=
  let low := insertSorted rail.val (s.pwr.low.filter (· != rail.val))
  .next (({ s with pwr := { s.pwr with low := low } } : State).moduleReset (if rail.val < 12 then 3 else rail.val - 8))

end Sys2Proof.Machine
end

