-- ==== Sys2Proof/Machine/Validate.lean ====
section
/-! DEFINITION. The checks of a sew on the staged copy (Table 2.7), and what a sew changes: the partitions it affects, owner
tables, the protection digest and turnovers (R30, R40, R445, R453). -/

namespace Sys2Proof.Machine

/-! ## Reading a pattern -/

/-- Is a range of a section zero? -/
def Pat.zero (t : Pat) (type p off n : Nat) : Bool :=
  (t.sec type p).bytes.all (fun e => decide (e.1 < off ∨ off + n ≤ e.1 ∨ e.2 = 0))

/-- Bits of a field outside a range: does `v` have a bit at or above `i`? -/
def above (v i : Nat) : Bool := decide (2 ^ i ≤ v)

/-- Details of the checks that fail. -/
def failing (xs : List (Bool × Nat)) : List Nat := (xs.filter (·.1)).map (·.2)

/-- MISSING. -/
def dMissing : Nat := 0x03
/-- ABSENT. -/
def dAbsent : Nat := 0x04
/-- OVERLAP. -/
def dOverlap : Nat := 0x05
/-- EMPTY. -/
def dEmpty : Nat := 0x06
/-- FOREIGN. -/
def dForeign : Nat := 0x07
/-- RANGE. -/
def dRange : Nat := 0x08
/-- SPARES. -/
def dSpares : Nat := 0x09
/-- KEYSLOT. -/
def dKeySlot : Nat := 0x0A
/-- LOST. -/
def dLost : Nat := 0x0B
/-- UNAVAILABLE. -/
def dUnavailable : Nat := 0x0C

/-- Do two ranges `(first, end)` overlap? -/
def rangesMeet (a b : Nat × Nat) : Bool := decide (a.1 < b.2 ∧ b.1 < a.2)

/-- Do two ranges of a list overlap? -/
def anyMeet : List (Nat × Nat) → Bool
  | [] => false
  | x :: r => r.any (rangesMeet x) || anyMeet r

/-- Does a number stand twice in a list? -/
def repeats : List Nat → Bool
  | [] => false
  | x :: r => r.contains x || repeats r

/-- The pseudo-channels of a partition that are fitted and not mapped out, under a copy. -/
def State.spanGib (s : State) (t : Pat) (p : Nat) : Nat := ((setBits (t.pchMask p) 768).filter s.pchLive).length

/-- The span of an enabled partition with pseudo-channels under a copy (R254). -/
def State.spanRange (s : State) (t : Pat) (p : Nat) : Option (Nat × Nat) :=
  let n := s.spanGib t p
  if t.enabled p && n != 0 then some (t.spanBase p * 2 ^ 30, (t.spanBase p + n) * 2 ^ 30) else none

/-- The dynamic regions pinned after a commit: an entry whose fields are unchanged stays as it is, another takes PINNED
(R235, Table 10.11). -/
def commitPins (old new : Pat) : List Nat :=
  (List.range 256).filter (fun i =>
    let r := new.region i
    r.valid && r.dyn && (if (old.region i).same r then old.pins.contains i else r.init))

/-- Ways pinned below region `r` in a slice: by entries of lower index (R234). -/
def Pat.pinnedBelow (t : Pat) (r : Region) (sl : Nat) : Nat :=
  (((t.pinnedIn sl).filter (fun q => decide (q.ix < r.ix))).map (·.ways)).sum

/-- Does a range lie in one pinned region of `Pp` (R234)? -/
def Pat.inPinned (t : Pat) (p lo hi : Nat) : Bool :=
  decide (Config.winBase ≤ lo ∧ lo < Config.winEnd) &&
    (let sl := winSlice lo
     t.regions.any (fun r =>
       let b := t.pinnedBelow r sl
       r.owner == p && r.holds sl && decide (b + r.ways ≤ 16 ∧ wayBase sl (16 - b - r.ways) ≤ lo ∧ hi ≤ wayBase sl (16 - b))))

/-- Does a range lie in the span or one pinned region of `Pp` (R147, R283, R362)? -/
def State.lies (s : State) (t : Pat) (p lo hi : Nat) : Bool :=
  (match s.spanRange t p with
   | some (a, b) => decide (a ≤ lo ∧ hi ≤ b)
   | none => false) || t.inPinned p lo hi

/-! ## Sections -/

/-- Sections of a full image are there, and a sew that enables a partition brings its own (R26). -/
def State.missingSections (s : State) (t : Pat) : Bool :=
  [1, 2, 3, 4, 5, 6, 7, 10].any (fun k => !mhas t.secs (secKey k 0)) ||
    t.enabledParts.any (fun p => [8, 9].any (fun k =>
      !mhas t.secs (secKey k p) || (!s.ptn.running.enabled p && !s.ptn.freshSecs.contains (secKey k p))))

/-- Fitted spline links, jig channels and pseudo-channels, as masks. -/
def State.fittedLinks (s : State) : Nat := ((List.range 64).map (fun n => if linkFitted s n then 2 ^ n else 0)).sum

/-- Is a resource named by two enabled partitions? -/
def Pat.shared (t : Pat) (f : Pat → Nat → Nat) : Bool :=
  (t.enabledParts.foldl (fun (a : Bool × Nat) p => (a.1 || Nat.land a.2 (f t p) != 0, Nat.lor a.2 (f t p))) (false, 0)).1

/-- The checks of PARTITIONS (R4, R29, Tables 2.5 to 2.7). The sum of SPARE_CORES is taken over the enabled partitions
(DESIGN CHOICE, log entry 63). -/
def State.checkPartitions (s : State) (t : Pat) : List Nat :=
  let all := List.range 16
  let en := t.enabledParts
  let keys := (en.filter (fun p => t.pchMask p != 0)).map t.keySlot
  failing [
    (all.any (fun p => (setBits (t.splineMask p) 64).any (fun n => !linkFitted s n) ||
       (setBits (t.jigMask p) 320).any (fun n => !s.engFitted (n / 32)) ||
       (setBits (t.pchMask p) 768).any (fun n => !s.fitted (n / 64))), dAbsent),
    (t.shared Pat.coreMask || t.shared Pat.splineMask || t.shared Pat.jigMask || t.shared Pat.pchMask ||
       t.shared Pat.sliceMask, dOverlap),
    (en.any (fun p => t.coreMask p == 0 || t.sliceMask p == 0), dEmpty),
    (all.any (fun p => decide (8 < t.spareCores p)) ||
       (List.range 64).any (fun c => above (t.coreSet c) 3 || bitsOf (t.coreSet c) 2 1 == 3), dRange),
    (decide (8 < (en.map t.spareCores).sum + ((List.range 72).filter s.coreLost).length), dSpares),
    (repeats keys, dKeySlot),
    (all.any (fun p => (setBits (t.pchMask p) 768).any (s.maskBit Reg.HBM_MAPPED)) ||
       (s.rb Reg.PAIR_CFG 0 && all.any (fun p => decide (2 ^ 56 ≤ t.splineMask p))), dUnavailable)]

/-- A slice entry of VENEER. -/
def Pat.sliceEnt (t : Pat) (sl : Nat) : Nat := t.fld 2 (0x80 + 2 * sl) 2

/-- A pseudo-channel entry of VENEER. -/
def Pat.pchEnt (t : Pat) (n : Nat) : Nat := t.fld 2 (0xC80 + n) 1

/-- The banks a slice entry puts to use: its ninth when SPARE is set, in place of the one named; otherwise the first 8. -/
def banksUsed (e : Nat) : List Nat :=
  if bitOf e 12 then (List.range 9).filter (· != bitsOf e 11 9) else List.range 8

/-- Does a slice entry of a die name a slice or a bank that is defective (R316)? -/
def State.sliceBad (s : State) (die e : Nat) : Bool :=
  let k := 264 * die + e % 512
  s.fuses.badSlices.contains k || s.nor.badSlices.contains k ||
    (banksUsed e).any (fun b => s.fuses.badBanks.contains (9 * k + b) || s.nor.badBanks.contains (9 * k + b))

/-- The checks of VENEER (R315, R316, R319). -/
def State.checkVeneer (s : State) (t : Pat) : List Nat :=
  let cores := (List.range 64).map (fun c => t.fld 2 (0x40 + c) 1)
  let dieEnts := fun k => (List.range 256).map (fun i => t.sliceEnt (256 * k + i))
  failing [
    (!t.zero 2 0 0 64 || cores.any (fun x => decide (71 < x)) || repeats cores ||
       (List.range 6).any (fun k => (dieEnts k).any (fun e => above e 13 || decide (263 < e % 512)) ||
         repeats ((dieEnts k).map (· % 512))) ||
       (List.range 12).any (fun m => s.fitted m &&
         (let es := (List.range 64).map (fun q => t.pchEnt (64 * m + q))
          es.any (fun e => decide (63 < e)) || repeats es)), dRange),
    (cores.any (fun x => s.coreLost x || s.nor.marked.contains x) ||
       (List.range 6).any (fun k => (dieEnts k).any (s.sliceBad k)), dUnavailable)]

/-- The checks of a TICK partition record (R49, R77, R146, R147, R193). The program's bounds are those of an enabled partition: no
other has a program (R26). -/
def State.checkTickRec (s : State) (t : Pat) (p : Nat) : List Nat :=
  let o := tickOff p
  let k := t.proofK p
  let bad := t.divisor p == 0 || decide (1024 < t.divisor p) || decide (t.divisor p ≤ t.phase p) ||
    decide (4095 < t.admitPerTick p) || above (t.residentBudget p) 24 || above (t.fld 7 (o + 12) 4) 1 ||
    !t.zero 7 0 (o + 0x10) 16 || decide (4095 < t.fitBase p) || decide (4096 < t.fitBase p + t.fitCount p) ||
    above (t.fld 7 (o + 0x24) 4) 1 || (k != 0 && decide (k < 4 ∨ 16 < k)) || decide (8 < t.proofSlots p) ||
    decide (32 < t.proofShare p) || !t.zero 7 0 (o + 0x33) 1 || !t.zero 7 0 (o + 0x38) 72 ||
    (k != 0 && (t.proofSlots p == 0 || t.proofShare p == 0)) || decide (t.proofEntry p % 16 ≠ 0) ||
    (t.enabled p && decide (t.proofEntry p < 0x40 ∨ t.progLen p ≤ t.proofEntry p))
  let a := t.fitTable p
  let fit := t.fitCount p != 0
  failing [(bad || (t.fitCount p != 0 && decide (a % 64 ≠ 0)), dRange), (fit && !s.lies t p a (a + 32 * t.fitCount p), dForeign)]

/-- The checks of TICK (R47, R52, R53, R77, R146, R147). -/
def State.checkTick (s : State) (t : Pat) : List Nat :=
  let bp := t.basePeriod
  let k := t.syncRatio
  let fits := (t.enabledParts.filter (fun p => t.fitCount p != 0)).map (fun p => (t.fitBase p, t.fitBase p + t.fitCount p))
  failing [
    (decide (bp < 5000 ∨ 5000000 < bp) || t.syncSrc == 3 || above (t.fld 7 4 4) 3 || decide (k < 1 ∨ 65535 < k) ||
       decide (bp ≤ t.syncOffset) || !t.zero 7 0 0x10 48 ||
       (t.syncSrc != 0 && decide (k * bp < 5000 ∨ 100000000 < k * bp)), dRange),
    (anyMeet fits, dOverlap)] ++
  ((List.range 16).map (s.checkTickRec t)).flatten

/-- The checks of a partition's PROGRAMS section (R193, Table 9.1). -/
def Pat.checkPrograms (t : Pat) (p : Nat) : List Nat :=
  let n := t.progLen p
  let e := t.tickEntry p
  failing [(decide (131072 < n ∨ e % 16 ≠ 0 ∨ e < 0x40 ∨ n ≤ e) || t.pfld 9 p 4 4 != n || !t.zero 9 p 8 56, dRange)]

/-- The checks of a valid region entry of LINING_PLAN (R234, R252, Table 10.11). -/
def Pat.checkPinRegion (t : Pat) (r : Region) : List Nat :=
  let o := regionOff r.ix
  let bad := above (t.fld 3 o 1) 2 || above (t.fld 3 (o + 1) 1) 4 || decide (5 < r.die) || decide (r.ways < 1 ∨ 14 < r.ways) ||
    decide (255 < r.first) || decide (r.count < 1 ∨ 256 < r.count) || (r.dyn && above (t.fld 3 (o + 8) 1) 1) ||
    !t.zero 3 0 (o + 9) 23 || decide (256 < r.first + r.count)
  failing [(bad, dRange),
    (decide (r.die ≤ 5) && (List.range (min r.count 256)).any (fun i =>
       decide (r.first + i < 256 ∧ t.sliceOwner (256 * r.die + r.first + i) ≠ some r.owner)), dForeign)]

/-- The checks of LINING_PLAN (R233, R234, R252). -/
def Pat.checkLining (t : Pat) : List Nat :=
  failing [(!t.zero 3 0 0 64 ||
    (List.range 1536).any (fun sl => let e := t.fld 3 (64 + 4 * sl) 2
      e % 16 == 15 || above e 4 || decide (t.cap sl < t.waysPinned sl)) ||
    (List.range 16).any (fun p => above (t.replicate p) 3 || !t.zero 3 0 (6208 + 16 * p + 1) 15), dRange)] ++
  (t.regions.map t.checkPinRegion).flatten

/-- Is region entry `i` of HBM_PLAN VALID? -/
def Pat.hbmValid (t : Pat) (i : Nat) : Bool := bitOf (t.fld 4 (hbmReg i) 1) 0
/-- OWNER of region entry `i`. -/
def Pat.hbmOwner (t : Pat) (i : Nat) : Nat := t.fld 4 (hbmReg i + 1) 1 % 16
/-- OFFSET and its end, of region entry `i`. -/
def Pat.hbmRange (t : Pat) (i : Nat) : Nat × Nat :=
  let o := t.fld 4 (hbmReg i + 8) 8
  (o, o + t.fld 4 (hbmReg i + 0x10) 8)

/-- Is every byte of `[a, b)`, offsets in the span of `Pp`, in a CLASS_W region entry of `Pp` that is the first to hold it
(R258, Table 11.7)? A range of at most 4 KiB units starts and ends on region bounds of 2 MiB, so each 2 MiB unit it meets
has one class. -/
def Pat.classWRun (t : Pat) (p a b : Nat) : Bool :=
  (List.range ((b - 1) / 2 ^ 21 + 1 - a / 2 ^ 21)).all (fun k =>
    let x := max a ((a / 2 ^ 21 + k) * 2 ^ 21)
    match (List.range 256).find? (fun i => t.hbmValid i && t.hbmOwner i == p && decide ((t.hbmRange i).1 ≤ x ∧ x < (t.hbmRange i).2)) with
    | some i => !bitOf (t.fld 4 (hbmReg i) 1) 1
    | none => false)

/-- The checks of a valid HBM_PLAN region entry (Table 11.7). -/
def State.checkHbmRegion (s : State) (t : Pat) (i : Nat) : List Nat :=
  let o := hbmReg i
  let p := t.hbmOwner i
  let (lo, hi) := t.hbmRange i
  let len := s.spanGib t p * 2 ^ 30
  let len := if t.enabled p then len else 0
  let base := t.spanBase p * 2 ^ 30
  let sc := t.fld 4 (o + 0x18) 8
  let scEnd := sc + (hi - lo) / 512
  let bad := above (t.fld 4 o 1) 4 || bitsOf (t.fld 4 o 1) 3 2 == 3 || above (t.fld 4 (o + 1) 1) 4 || !t.zero 4 0 (o + 2) 6 ||
    decide (lo % 2 ^ 21 ≠ 0) || decide (hi = lo) || decide (hi % 2 ^ 21 ≠ 0) || decide (len < hi)
  failing [(bad, dRange),
    ((List.range i).any (fun j => t.hbmValid j && t.hbmOwner j == p && rangesMeet (t.hbmRange i) (t.hbmRange j)), dOverlap),
    (sc != 0 && (decide (sc % 4096 ≠ 0 ∨ sc < base ∨ base + len < scEnd) || rangesMeet (sc, scEnd) (base + lo, base + hi) ||
      !t.classWRun p (sc - base) (scEnd - base)), dForeign)]

/-- The checks of HBM_PLAN (R256, R273, Table 11.6). -/
def State.checkHbm (s : State) (t : Pat) : List Nat :=
  let spans := (List.range 16).filterMap (s.spanRange t)
  failing [
    (!t.zero 4 0 0 64 || (List.range 16).any (fun p =>
       let o := 64 + 32 * p
       let d := t.fld 4 (o + 2) 1
       decide (767 < t.spanBase p) || above d 3 || bitsOf d 2 1 == 3 || !t.zero 4 0 (o + 3) 29 ||
         (!t.enabled p && !t.zero 4 0 o 32)) ||
       spans.any (fun r => decide (s.capacity * 2 ^ 30 < r.2)), dRange),
    (anyMeet spans, dOverlap)] ++
  (((List.range 256).filter t.hbmValid).map (s.checkHbmRegion t)).flatten

/-- The checks of a valid REGULATORS entry (R330, R331, Table 14.5). -/
def State.checkRegulator (s : State) (t : Pat) (i : Nat) : List Nat :=
  let o := regEnt i
  let p := t.regPart i
  let m := t.regMaster i
  let pts := t.regPoints i
  let lim := t.regLimit i
  failing [
    (above (t.fld 5 o 1) 1 || above (t.fld 5 (o + 1) 1) 4 || decide (0x50 < m) || !t.zero 5 0 (o + 3) 1 || above pts 18 ||
       (lim != 0 && decide (lim < t.regGuar i)), dRange),
    ((List.range 12).any (fun k => bitOf pts k && !s.fitted k) ||
       (decide (0x40 ≤ m ∧ m ≤ 0x49) && !s.engFitted (m - 0x40)) ||
       (decide (0x4C ≤ m ∧ m ≤ 0x4F) && !bitOf s.fuses.xMask (m - 0x4C)) ||
       (m == 0x50 && !bitOf s.fuses.xMask 3), dAbsent),
    ((List.range i).any (fun j => t.regValid j && t.regPart j == p && t.regMaster j == m &&
       Nat.land pts (t.regPoints j) != 0), dOverlap),
    ((decide (m < 0x40) && decide (t.coreOwner m ≠ some p)) ||
       (decide (0x40 ≤ m ∧ m ≤ 0x49) &&
         !(List.range 32).any (fun c => decide (t.chanOwner (32 * (m - 0x40) + c) = some p))), dForeign)]

/-- The checks of REGULATORS (R330, R331, R337). -/
def State.checkRegulators (s : State) (t : Pat) : List Nat :=
  let w := t.regWindow
  let vs := (List.range 512).filter t.regValid
  let guar := fun k => ((vs.filter (fun i => bitOf (t.regPoints i) k)).map t.regGuar).sum
  failing [(decide (w < 1 ∨ 64 < w) || decide (t.urgBypass < 1 ∨ 3 < t.urgBypass) || !t.zero 5 0 5 59 ||
    (List.range 18).any (fun k => decide ((if k < 12 then 1536000 else 45875000) * w < guar k)), dRange)] ++
  (vs.map (s.checkRegulator t)).flatten

/-! ## ROUTES -/

/-- The entry of reroute table `k` on die `a` towards die `b` (Table 14.3). -/
def Pat.reroute (t : Pat) (k a b : Nat) : Nat := t.fld 6 (0x40 + 128 * k + 10 * a + b) 1

/-- The dies next to die `a` while link `k` is fenced. -/
def State.nextDies (s : State) (k a : Nat) : List Nat :=
  (List.range 11).filterMap (fun l =>
    if l ≠ k ∧ s.dowelPresent l ∧ ((dowelEnds l).1 = a ∨ (dowelEnds l).2 = a) then some (otherEnd l a) else none)

/-- The dies reachable from die `a` without link `k`, in `n` hops at most. -/
def State.reachable (s : State) (k : Nat) (xs : List Nat) : Nat → List Nat
  | 0 => xs
  | n + 1 => s.reachable k ((xs ++ (xs.map (s.nextDies k)).flatten).eraseDups) n

/-- The directions on the way from die `a` to die `b` under table `k`, where the way ends within `n` links. -/
def Pat.tableRoute (t : Pat) (k b : Nat) : Nat → Nat → Option (List Nat)
  | 0, _ => none
  | n + 1, a =>
    if a = b then some []
    else
      let l := t.reroute k a b % 16
      if 11 ≤ l then none else (t.tableRoute k b n (otherEnd l a)).map (fun r => dirFrom l a :: r)

/-- Pairs of directions that follow each other on a route. -/
def routePairs : List Nat → List (Nat × Nat)
  | d :: e :: r => (d, e) :: routePairs (e :: r)
  | _ => []

/-- Do the dependencies form no cycle: directions that nothing depends on are taken away until none is left? -/
def acyclic (deps : List (Nat × Nat)) : Nat → Bool
  | 0 => deps.isEmpty
  | n + 1 => deps.isEmpty || acyclic (deps.filter (fun e => deps.any (fun q => q.2 == e.1))) n

/-- Does an enabled reroute table break R327? -/
def State.rerouteBad (s : State) (t : Pat) (k : Nat) : Bool :=
  let dies := List.range 10
  let routes := (dies.map (fun a => dies.filterMap (fun b => if a = b then none else t.tableRoute k b 10 a))).flatten
  !t.zero 6 0 (0x40 + 128 * k + 100) 28 ||
    dies.any (fun a =>
      let near := s.reachable k [a] 10
      dies.any (fun b =>
        let e := t.reroute k a b
        above e 4 ||
          (if a = b then e != 15
           else if near.contains b then
             e == 15 || e == k || !s.dowelPresent e || ((dowelEnds e).1 != a && (dowelEnds e).2 != a) ||
               (t.tableRoute k b 10 a).isNone
           else e != 15))) ||
    !acyclic ((routes.map routePairs).flatten.eraseDups) 22

/-- The checks of a valid exposure `i` of `Pp` (R362, Table 15.8). -/
def State.checkExposure (s : State) (t : Pat) (p i : Nat) : List Nat :=
  let o := expOff p i
  let lo := t.fld 6 (o + 2) 2
  let hi := t.fld 6 (o + 4) 2
  let off := fun j => (t.fld 6 (expOff p j + 8) 8, t.fld 6 (expOff p j + 8) 8 + t.fld 6 (expOff p j + 0x10) 8)
  let (w, e) := off i
  let base := t.fld 6 (o + 0x18) 8
  failing [
    (above (t.fld 6 o 1) 5 || !t.zero 6 0 (o + 1) 1 || above lo 12 || above hi 12 || decide (hi < lo) || !t.zero 6 0 (o + 6) 2 ||
       decide (w % 2 ^ 21 ≠ 0) || decide (e = w) || decide (e % 2 ^ 21 ≠ 0) || decide (2 ^ 35 < e) ||
       decide (base % 2 ^ 21 ≠ 0), dRange),
    ((List.range i).any (fun j => bitOf (t.fld 6 (expOff p j) 1) 0 && rangesMeet (off i) (off j)), dOverlap),
    (!s.lies t p base (base + (e - w)), dForeign)]

/-- A mark entry of ROUTES, as a number (Table 15.7). -/
def Pat.markEnt (t : Pat) (p j : Nat) : Nat := t.fld 6 (0x10E40 + 128 * p + 16 * j) 16

/-- The checks of ROUTES (R326, R327, R362). -/
def State.checkRoutes (s : State) (t : Pat) : List Nat :=
  let fwd := fun d => t.fld 6 (fwdOff d) 16
  let parts := List.range 16
  failing [
    (above (t.fld 6 0 2) 12 || above (t.fld 6 2 2) 11 || !t.zero 6 0 4 60 || decide (t.hopLimit < 1 ∨ 63 < t.hopLimit) ||
       !t.zero 6 0 0x601 1 || decide (t.reqTimeout < 10) || !t.zero 6 0 0x604 60 ||
       (List.range 11).any (fun k => bitOf (t.fld 6 2 2) k && s.rerouteBad t k) ||
       (List.range 4096).any (fun d => bitOf (fwd d) 70 || above (fwd d) 72) || fwd t.moduleId != 0 ||
       parts.any (fun p => (List.range 8).any (fun j =>
         let m := t.markEnt p j
         bitOf m 0 && (bitsOf m 3 1 != 0 || bitsOf m 15 4 == 0xFFF || bitsOf m 63 20 != 0 || bitsOf m 66 64 != 0 || above m 99))),
     dRange),
    ((List.range 4096).any (fun d =>
       (setBits (fwd d) 64).any (fun n => !linkFitted s n) || (bitOf (fwd d) 71 && !linkFitted s (bitsOf (fwd d) 69 64))), dAbsent)] ++
  (parts.map (fun p => ((List.range 4).filter (fun i => bitOf (t.fld 6 (expOff p i) 1) 0)).map (s.checkExposure t p))).flatten.flatten

/-! ## PROTECTION and CUTTING -/

/-- MAX_LEVEL (Table 20.4). -/
def Pat.maxLevel (t : Pat) : Nat := t.fld 10 0 4 % 4

/-- The checks of PROTECTION (R449). -/
def Pat.checkProtection (t : Pat) : List Nat :=
  failing [(above (t.fld 10 0 4) 2 || t.maxLevel == 3 || above (t.fld 10 4 4) 2 || !t.zero 10 0 8 56 ||
    (List.range 16).any (fun p => above (t.fld 10 (0x40 + 4 * p) 4) 2), dRange)]

/-- CUT_BASE (Table 12.4). -/
def Pat.cutBase (t : Pat) (p : Nat) : Nat := t.pfld 8 p 0 8
/-- AREA_LEN. -/
def Pat.areaLen (t : Pat) (p : Nat) : Nat := t.pfld 8 p 0xC 4

/-- Is a cutting-list entry out of range (R284, Table 12.6)? -/
def Pat.cutEntryBad (t : Pat) (p off : Nat) : Bool :=
  let v := t.pfld 8 p off 16
  let far := bitsOf v 59 48 != t.moduleId
  bitsOf v 59 48 == 0xFFF || above v 112 || (far && decide (2 ^ 35 ≤ bitsOf v 47 0 ∨ 2 ^ 35 ≤ bitsOf v 111 64))

/-- Where `n` lists that start at payload offset `off` end; none where one is bad or does not fit (R284). -/
def Pat.cutLists (t : Pat) (p endOff : Nat) : Nat → Nat → Option Nat
  | 0, off => some off
  | n + 1, off =>
    let count := t.pfld 8 p (off + 4) 4
    let len := (32 + 16 * count + 63) / 64 * 64
    if t.pfld 8 p off 2 ≠ 0x4C43 ∨ 5 < t.pfld 8 p (off + 2) 1 ∨ t.zero 8 p (off + 3) 1 = false ∨ count < 1 ∨ 65536 < count ∨
        t.pfld 8 p (off + 8) 4 = 0 ∨ t.zero 8 p (off + 12) 20 = false ∨ endOff < off + len then none
    else if (List.range count).any (fun i => t.cutEntryBad p (off + 32 + 16 * i)) then none
    else if !t.zero 8 p (off + 32 + 16 * count) (len - 32 - 16 * count) then none
    else t.cutLists p endOff n (off + len)

/-- The checks of a partition's CUTTING section (R283, R284, Table 12.4). -/
def State.checkCutting (s : State) (t : Pat) (p : Nat) : List Nat :=
  let base := t.cutBase p
  let n := t.areaLen p
  let lists := t.pfld 8 p 8 4
  let len := (t.sec 8 p).len
  failing [
    (above base 48 || decide (4096 < lists) || decide (n % 64 ≠ 0 ∨ 2 ^ 24 < n) || !t.zero 8 p 0x10 48 || len != 0x40 + n ||
       decide (t.cutLists p (0x40 + n) (min lists 4096) 0x40 ≠ some (0x40 + n)), dRange),
    (decide (base % 64 ≠ 0) || !s.lies t p (base % 2 ^ 48) (base % 2 ^ 48 + max n 1), dForeign)]

/-! ## Validation -/

/-- Every detail of Table 2.7 that a staged copy fails at the sew, tokens apart. -/
def State.failures (s : State) (t : Pat) : List Nat :=
  let t := { t with pins := commitPins s.ptn.running t }
  let en := t.enabledParts
  s.checkPartitions t ++ s.checkVeneer t ++ t.checkLining ++ s.checkHbm t ++ s.checkRegulators t ++ s.checkRoutes t ++
    s.checkTick t ++ t.checkProtection ++ (en.map t.checkPrograms).flatten ++ (en.map (s.checkCutting t)).flatten

/-- The detail a sew fails with: MISSING alone, else the lowest; 0 where every check passes (R32). -/
def State.validate (s : State) (t : Pat) : Nat :=
  if s.missingSections t then dMissing else ((s.failures t).min?).getD 0

/-- Does a staged copy assign a resource that is fenced, retired or mapped out (LOST)? A core that is marked for retirement, and
a core behind a logical core that no partition owns, count as well (DESIGN CHOICE, log entry 63). -/
def State.lostNow (s : State) (t : Pat) : Bool :=
  (List.range 64).any (fun c => s.coreLost (t.physCore c) || s.nor.marked.contains (t.physCore c)) ||
    (List.range 16).any (fun p => (setBits (t.pchMask p) 768).any (s.maskBit Reg.HBM_MAPPED))

/-! ## What a sew changes -/

/-- Are two copies the same over a range of a section? -/
def sameRange (a b : Pat) (type p off n : Nat) : Bool :=
  let cut := fun (t : Pat) => (t.sec type p).bytes.filter (fun e => decide (off ≤ e.1 ∧ e.1 < off + n))
  cut a == cut b

/-- Are two copies the same in a whole section? -/
def sameSec (a b : Pat) (type p : Nat) : Bool := (a.sec type p).len == (b.sec type p).len && (a.sec type p).bytes == (b.sec type p).bytes

/-- PCH_MASK without condemned and mapped-out pseudo-channels (R268, R445). -/
def State.pchKept (s : State) (t : Pat) (p : Nat) : Nat :=
  (((setBits (t.pchMask p) 768).filter (fun n => !(s.maskBit Reg.HBM_PEND n || s.maskBit Reg.HBM_MAPPED n))).map (2 ^ ·)).sum

/-- Does a sew change an owner table or PROTECTION (R30)? The removal of a condemned pseudo-channel is no change (R268). -/
def State.needsToken (s : State) (old new : Pat) : Bool :=
  !sameSec old new 10 0 ||
    (List.range 16).any (fun p =>
      old.coreMask p != new.coreMask p || old.splineMask p != new.splineMask p || old.jigMask p != new.jigMask p ||
        old.sliceMask p != new.sliceMask p || old.keySlot p != new.keySlot p || old.tenant p != new.tenant p ||
        s.pchKept old p != s.pchKept new p)

/-- The protection digest of a copy (R445). -/
def State.digest (s : State) (t : Pat) : Nat :=
  let recs := (List.range 16).foldl (fun m p =>
    let m := writeCells m (recOff p) (leBytes (t.fld 1 (recOff p) 4 - 2 ^ 8 * t.spareCores p) 4)
    writeCells m (recOff p + 0x60) (leBytes (s.pchKept t p) 96)) (t.sec 1 0).bytes
  shaNum (readCells recs 0 8192 ++ readCells (t.sec 10 0).bytes 0 128)

/-- A module field of LINING_PLAN, HBM_PLAN, REGULATORS, TICK or PROTECTION, or anything in ROUTES, changes (R40). -/
def moduleChange (old new : Pat) : Bool :=
  !sameSec old new 6 0 || !sameRange old new 7 0 0 64 || !sameRange old new 5 0 0 64 || !sameRange old new 10 0 0 0x40 ||
    !sameRange old new 3 0 0 64 || !sameRange old new 4 0 0 64 ||
    (List.range 1536).any (fun sl => (old.sliceOwner sl).isNone && (new.sliceOwner sl).isNone &&
      !sameRange old new 3 0 (64 + 4 * sl) 4) ||
    (List.range 256).any (fun i => !(old.region i).valid && !(new.region i).valid && !sameRange old new 3 0 (regionOff i) 32) ||
    (List.range 256).any (fun i => !old.hbmValid i && !new.hbmValid i && !sameRange old new 4 0 (hbmReg i) 32) ||
    (List.range 512).any (fun i => !old.regValid i && !new.regValid i && !sameRange old new 5 0 (regEnt i) 16)

/-- A field that `Pp` owns in either copy, or a VENEER entry behind a resource it owns in either, changes (R40). -/
def ownChange (old new : Pat) (p : Nat) : Bool :=
  let owns := fun (f : Pat → Option Nat) => decide (f old = some p) || decide (f new = some p)
  !sameRange old new 1 0 (recOff p) 512 || !sameRange old new 7 0 (tickOff p) 128 || !sameRange old new 4 0 (64 + 32 * p) 32 ||
    !sameRange old new 3 0 (6208 + 16 * p) 16 || !sameRange old new 10 0 (0x40 + 4 * p) 4 || !sameSec old new 8 p ||
    !sameSec old new 9 p ||
    (List.range 64).any (fun c => owns (·.coreOwner c) &&
      (!sameRange old new 1 0 (8192 + 4 * c) 4 || !sameRange old new 2 0 (0x40 + c) 1)) ||
    (List.range 1536).any (fun sl => owns (·.sliceOwner sl) &&
      (!sameRange old new 3 0 (64 + 4 * sl) 4 || !sameRange old new 2 0 (0x80 + 2 * sl) 2)) ||
    (List.range 768).any (fun n => owns (·.pchOwner n) && !sameRange old new 2 0 (0xC80 + n) 1) ||
    (List.range 256).any (fun i => owns (fun t => if (t.region i).valid then some (t.region i).owner else none) &&
      !sameRange old new 3 0 (regionOff i) 32) ||
    (List.range 256).any (fun i => owns (fun t => if t.hbmValid i then some (t.hbmOwner i) else none) &&
      !sameRange old new 4 0 (hbmReg i) 32) ||
    (List.range 512).any (fun i => owns (fun t => if t.regValid i then some (t.regPart i) else none) &&
      !sameRange old new 5 0 (regEnt i) 16)

/-- Is `Pp` affected by a sew (R40)? -/
def affectedBy (old new : Pat) (p : Nat) : Bool :=
  (old.enabled p || new.enabled p) &&
    (old.enabled p != new.enabled p || moduleChange old new || ownChange old new p)

/-- The partitions a sew affects. -/
def affectedParts (old new : Pat) : List Nat := (List.range 16).filter (affectedBy old new)

/-- Does a commit perform turnover of `Pp` (R453)? -/
def turnsOver (old new : Pat) (p : Nat) : Bool :=
  old.enabled p != new.enabled p ||
    (old.enabled p && (old.tenant p != new.tenant p || old.keySlot p != new.keySlot p))

/-- The owner of 4 bytes of REGULATORS or TICK, where a partition owns them (R34, R77, R330). -/
def Pat.patchOwner (t : Pat) (type off : Nat) : Option Nat :=
  if off < 64 then none
  else if type = 7 then some ((off - 64) / 128)
  else
    let i := (off - 64) / 16
    if t.regValid i then some (t.regPart i) else none

end Sys2Proof.Machine
end

