-- ==== Sys2Proof/Machine/Basting.lean ====
section
/-! DEFINITION. The commands of the PTN block (R24 to R46) and the checks of images and change tokens (R443 to R447). -/

namespace Sys2Proof.Machine

/-! ## Refusals (R32) -/

/-- The lowest of the refusal details whose conditions hold. -/
def refusal (xs : List (Bool × Nat)) : Option Nat := (failing xs).min?

/-- A command refused: PTN.RESULT, and the basting as it was (R32). -/
def State.refuse (s : State) (detail op : Nat) (f : Option Func) : State :=
  s.ptnResult (if detail = 0x24 ∨ detail = 0x27 then ePerm else ePtnInvalid) detail op false f

/-- Is a load or a validation running? -/
def State.ptnBusy (s : State) : Bool := s.ptn.loading || s.ptn.phase == .sewing

/-- The refusals that LOAD, SEW and patches share: NOT_OPEN, BUSY and ORIGIN (R36, Table 2.7). A basting is open in OPEN: during a
validation NOT_OPEN comes before BUSY (DESIGN CHOICE, log entry 44). -/
def State.notTaken (s : State) (f : Func) : List (Bool × Nat) :=
  [(s.ptn.phase != .opened, 0x21), (s.ptnBusy, 0x22), (s.ptn.phase != .idle && decide (s.ptn.opener ≠ f), 0x27)]

/-! ## BASTE -/

/-- The copy a BASTE stages: the running pattern, without condemned pseudo-channels (R33, R268). -/
def State.stageCopy (s : State) : Pat := ((List.range 768).filter (s.maskBit Reg.HBM_PEND)).foldl Pat.dropPch s.ptn.running

/-- BASTE (R33, R36, R37, R45, R268, R319, R459, R461, R468). -/
def execBaste (f : Func) (scope : Bool) (p : Fin 16) (s : State) : Res :=
  .next (s.inOrder f (.baste f scope p) (fun s =>
    let own := match vfPart f with
      | none => true
      | some k => scope && k == p
    (if !s.speaks f then s else match refusal [(!s.brup.katDone, 0x26), (s.ptn.phase != .idle, 0x20), (s.rf Reg.BRUP_STACK_STAT 6 4 != 0, 0x22), (!own, 0x24),
        (!s.ptn.committed && scope, 0x25)] with
      | some d => s.refuse d 1 (some f)
      | none =>
        let s := { s with ptn := { s.ptn with
          staged := some s.stageCopy, phase := .opened, partScope := scope, part := if scope then p else 0, opener := f,
          deadline := s.now + 10000000000, loading := false, loadLen := 0, token := none, loaded := false, freshSecs := [],
          commitDue := false } }
        let s := s.stageRetires
        let s := if s.brup.started.contains 7 then s
          else ({ s with brup := { s.brup with started := 7 :: s.brup.started } }.rfSet Reg.BRUP_STATUS 15 8 0).rfSet
            Reg.BRUP_STATUS 5 0 (7 + 16 * 1)
        s.ptnResult 0 0 1 false (some f))))

/-! ## Images and tokens in memory (R25, R28, R444) -/

/-- A section of a pattern image (Table 2.2). -/
structure SectIn where
  type : Nat
  version : Nat
  scope : Nat
  len : Nat
  reservedZero : Bool
  crc : Nat
  payload : List Byte
deriving DecidableEq, Repr

/-- A pattern image by its header and sections (Tables 2.1, 2.2), whether its sections end where the trailer begins, the bytes
its signatures cover, and the trailer (Table 2.4). -/
structure ImageIn where
  magic : Nat
  format : Nat
  flags : Nat
  imageLen : Nat
  sectionCount : Nat
  patternId : Nat
  variant : Nat
  reservedZero : Bool
  sections : List SectIn
  filled : Bool
  signed : List Byte
  trailer : List Byte
deriving DecidableEq, Repr

/-- What a LOAD finds, told apart by MAGIC (Table 2.15). -/
inductive LoadIn where
  | image (i : ImageIn)
  | token (t : TokenIn)
deriving DecidableEq, Repr

/-- `n` bytes from place `o` of a byte list. -/
def bytesAt (bs : List Byte) (o n : Nat) : List Byte := (bs.drop o).take n

/-- A little-endian field of `n` bytes at place `o`. -/
def leAt (bs : List Byte) (o n : Nat) : Nat := leNat (bytesAt bs o n)

/-- Are `n` bytes at place `o` all zero? -/
def zeroAt (bs : List Byte) (o n : Nat) : Bool := (bytesAt bs o n).all (· == 0)

/-- Up to `n` sections that follow each other without gaps, and the bytes behind the last whole one (Table 2.2). -/
def parseSections : Nat → List Byte → List SectIn × List Byte
  | 0, bs => ([], bs)
  | n + 1, bs =>
    let len := leAt bs 8 4
    let body := bs.drop 32
    let payload := body.take len
    if (bytesAt bs 0 32).length < 32 ∨ payload.length < len then ([], bs)
    else
      let (xs, rest) := parseSections n (body.drop len)
      ({ type := leAt bs 0 2, version := leAt bs 2 2, scope := leAt bs 4 2, len := len,
         reservedZero := zeroAt bs 6 2 && zeroAt bs 0x10 16, crc := leAt bs 12 4, payload := payload } :: xs, rest)

/-- The bytes of an image's signature trailer (R28). -/
def trailerLen : Nat := 16672

/-- The bytes of a pattern image read as Tables 2.1, 2.2 and 2.4 lay them out. -/
def parseImage (bs : List Byte) : ImageIn :=
  let len := leAt bs 8 4
  let count := leAt bs 12 2
  let (xs, rest) := parseSections (min count 40) (bytesAt bs 128 (len - trailerLen - 128))
  { magic := leAt bs 0 4, format := leAt bs 4 2, flags := leAt bs 6 2, imageLen := len, sectionCount := count,
    patternId := leAt bs 0x10 8, variant := leAt bs 0x18 4, reservedZero := zeroAt bs 14 2 && zeroAt bs 0x20 96,
    sections := xs, filled := xs.length == count && rest.isEmpty,
    signed := bs.take (len - trailerLen + 0x40), trailer := bytesAt bs (len - trailerLen) trailerLen }

/-- The bytes of a token, or of an ENROL request with its key blob (Table 20.2, R448). -/
def parseToken (bs : List Byte) : TokenIn :=
  { magic := leAt bs 0 4, format := leAt bs 4 2, kind := leAt bs 6 2, serial := leAt bs 8 8, seq := leAt bs 0x10 8,
    arg := leAt bs 0x18 4, digest := leAt bs 0x20 96,
    slots := (leAt bs 0x80 1, leAt bs 0x81 1, leAt bs 0x82 1, leAt bs 0x83 1), signed := bs.take 0xC0,
    sigs := [bytesAt bs 0xC0 384, bytesAt bs 0x240 16224, bytesAt bs 0x41A0 384, bytesAt bs 0x4320 16224],
    blob := bytesAt bs 33408 448 }

/-- MAGIC of a change token. -/
def tokenMagic : Nat := 0x4E4B5450

/-- An image or a token, told apart by MAGIC; bytes that are no token are judged as an image (Table 2.15). -/
def parseLoad (bs : List Byte) : LoadIn := if leAt bs 0 4 = tokenMagic then .token (parseToken bs) else .image (parseImage bs)

/-- Is the load under way one of a token, by the MAGIC at LOAD_ADDR, so that the escutcheon checks it (R447, Table 20.7)? -/
def State.loadsToken (s : State) : Bool :=
  s.ptn.loading && leNat (s.memRead .device none s.ptn.loadAddr 4 .clean).2.1 == tokenMagic

/-- ESC.STATUS.BUSY: a command or the check of a token is running (Table 20.7). -/
def State.escBusy (s : State) : Bool := s.esc.op.isSome || s.loadsToken

/-! ## LOAD -/

/-- LOAD: refused for its address, refused for the state of the basting, or started (R31, R32, R36, R37). -/
def execLoad (f : Func) (s : State) : Res :=
  .next (s.inOrder f (.load f) (fun s =>
    let a := s.rg64 Reg.PTN_LOAD_ADDR % 2 ^ 48
    let n := (s.rg Reg.PTN_LOAD_LEN).toNat
    (if !s.speaks f then s
      else if s.capacity * 2 ^ 30 < a + max n 1 then s.ptnResult eBounds 0 2 false (some f)
      else if a % 32 ≠ 0 then s.ptnResult eAlign 0 2 false (some f)
      else match refusal (s.notTaken f) with
        | some d => s.refuse d 2 (some f)
        | none => { s with ptn := { s.ptn with loading := true, loadLen := n, loadAddr := a } })))

/-- The payload size of a module-wide section type (R31). -/
def sectionSize (type : Nat) : Option Nat :=
  match type with
  | 1 => some 8448
  | 2 => some 3968
  | 3 => some 14656
  | 4 => some 8768
  | 5 => some 8256
  | 6 => some 71232
  | 7 => some 2112
  | 10 => some 128
  | _ => none

/-- Is a section of an image malformed (R25, R31, Table 2.2)? -/
def sectBad (x : SectIn) : Bool :=
  x.version != 1 || !x.reservedZero || crc32c x.payload != x.crc || x.len % 32 != 0 ||
    (match sectionSize x.type with
     | some n => x.scope != 0x8000 || x.len != n
     | none => !(x.type == 8 || x.type == 9) || decide (15 < x.scope))

/-- The key under which a section is staged. -/
def sectKey (x : SectIn) : Nat := secKey x.type (if (sectionSize x.type).isSome then 0 else x.scope)

/-- The bytes of a list from place `o` on that are not zero, by place. -/
def cellsFrom (o : Nat) : List Byte → List Host.Cell
  | [] => []
  | b :: bs => if b = 0 then cellsFrom (o + 1) bs else (o, b) :: cellsFrom (o + 1) bs

/-- A section as the management processors keep it. -/
def sectKept (x : SectIn) : Sect := { len := x.len, bytes := cellsFrom 0 x.payload }

/-- GLB.VARIANT (Table 0.2). -/
def State.variant (s : State) : Nat := s.fuses.stackMask + 2 ^ 12 * s.fuses.xMask + 2 ^ 16 * s.fuses.links

/-- Is the image header malformed, or does LOAD_LEN differ (HEADER)? -/
def State.headerBad (s : State) (x : ImageIn) : Bool :=
  x.magic != 0x50544C50 || x.format != 1 || decide (1 < x.flags) || x.imageLen % 32 != 0 || decide (2 ^ 28 < x.imageLen) ||
    !x.filled || s.ptn.loadLen != x.imageLen ||
    decide (x.sectionCount < 1 ∨ 40 < x.sectionCount) || x.variant != s.variant % 2 ^ 16 || !x.reservedZero

/-- Does an image carry the whole module? -/
def imageFull (x : ImageIn) : Bool := x.flags % 2 == 0

/-- Are the keys of the sections in order, each once? -/
def sectsOrdered (xs : List SectIn) : Bool := sortedKeys (xs.map (fun q => (sectKey q, ())))

/-- Do a section, the order or the multiplicity of sections break R25 or R26 (SECTION)? -/
def imageSectionBad (x : ImageIn) : Bool :=
  let keys := x.sections.map sectKey
  let t : Pat := { secs := (x.sections.filter (fun q => q.type == 1)).map (fun q => (sectKey q, sectKept q)) }
  x.sectionCount != x.sections.length || x.sections.any sectBad || !sectsOrdered x.sections ||
    (imageFull x && ([1, 2, 3, 4, 5, 6, 7, 10].any (fun k => !keys.contains (secKey k 0)) ||
      (List.range 16).any (fun p => [8, 9].any (fun k => keys.contains (secKey k p) != t.enabled p))))

/-- Enrolled slots of a party that are not revoked (R441). -/
def State.slotsOf (s : State) (party : Nat) : Nat :=
  let e := mget s.fuses.enrolled party 0
  Nat.land e (15 - Nat.land (mget s.fuses.revoked party 0) 15)

/-- Is a slot ENROLLED? -/
def State.slotOk (s : State) (party slot : Nat) : Bool := decide (slot < 4) && bitOf (s.slotsOf party) slot

/-- The RSA key of a slot, the modulus and exponent of its blob, where the slot is ENROLLED and the key's hash is the fused
one (R441, R448). -/
def State.rsaKey (s : State) (party slot : Nat) : Option (List Byte) :=
  let key := (mget s.nor.keyStore (4 * party + slot) []).take 388
  if s.slotOk party slot && shaNum key == mget s.fuses.hashes (4 * party + slot) 0 % 2 ^ 384 then some key else none

/-- The SLH-DSA key of a slot, likewise. -/
def State.slhKey (s : State) (party slot : Nat) : Option (List Byte) :=
  let key := bytesAt (mget s.nor.keyStore (4 * party + slot) []) 388 48
  if s.slotOk party slot && shaNum key == mget s.fuses.hashes (4 * party + slot) 0 / 2 ^ 384 then some key else none

/-- Does an RSA signature verify against a slot (R441)? -/
def State.rsaOk (s : State) (party slot : Nat) (signed sig : List Byte) : Bool :=
  match s.rsaKey party slot with
  | some key => rsaVerify key signed sig
  | none => false

/-- Does an SLH-DSA signature verify against a slot (R441)? -/
def State.slhOk (s : State) (party slot : Nat) (signed sig : List Byte) : Bool :=
  match s.slhKey party slot with
  | some key => slhVerify key signed sig
  | none => false

/-- Does each signature of an image verify against the OWNER slot it names (R28, R443)? A trailer that is no trailer names
no slot (DEDUCED, log entry 45). -/
def State.imageSigs (s : State) (x : ImageIn) : Bool × Bool :=
  let ok := leAt x.trailer 0 4 == 0x54524C50 && zeroAt x.trailer 6 58
  (ok && s.rsaOk 1 (leAt x.trailer 4 1) x.signed (bytesAt x.trailer 0x40 384),
   ok && s.slhOk 1 (leAt x.trailer 5 1) x.signed (bytesAt x.trailer 0x1C0 16224))

/-- Does a partition-scoped basting allow the image (R34)? -/
def State.scopeOk (s : State) (x : ImageIn) : Bool :=
  !s.ptn.partScope ||
    (!imageFull x && x.sections.all (fun q => (q.type == 8 || q.type == 9) && q.scope == s.ptn.part.val))

/-- An image merged into the staged copy: a full image replaces everything, a partial one only its sections (R26). -/
def Pat.merge (t : Pat) (x : ImageIn) : Pat :=
  { t with
    id := x.patternId
    secs := x.sections.foldl (fun m q => mput m (sectKey q) (sectKept q)) (if imageFull x then [] else t.secs) }

/-! ## Change tokens -/

/-- The slots that a token names, by party: OWNER RSA and SLH, TENANT RSA and SLH; a party without slots names 0xFF (R444). -/
def State.tokenSlots (s : State) (t : TokenIn) : Bool :=
  let ok := fun party r h => if s.slotsOf party = 0 then r == 0xFF && h == 0xFF else s.slotOk party r && s.slotOk party h
  ok 1 t.slots.1 t.slots.2.1 && ok 2 t.slots.2.2.1 t.slots.2.2.2

/-- The first check of a token that fails, in the order of R447; 0 where all pass. -/
def State.tokenDetail (s : State) (t : TokenIn) (kind len : Nat) : Nat :=
  let part := fun i => t.sigs.getD i []
  let rsa := fun party slot i => s.slotsOf party != 0 && !s.rsaOk party slot t.signed (part i)
  let slh := fun party slot i => s.slotsOf party != 0 && !s.slhOk party slot t.signed (part i)
  if t.magic ≠ tokenMagic ∨ t.format ≠ 1 ∨ t.kind ≠ kind ∨ len ≠ (if kind = 3 then 33856 else 33408) then 7
  else if !s.tokenSlots t then 8
  else if rsa 1 t.slots.1 0 then 1
  else if slh 1 t.slots.2.1 1 then 2
  else if rsa 2 t.slots.2.2.1 2 then 3
  else if slh 2 t.slots.2.2.2 3 then 4
  else if t.serial ≠ s.fuses.serial then 5
  else if t.seq ≤ s.nor.tokSeq then 6
  else 0

/-- The code of an ESC.RESULT detail (Table 20.3). -/
def escCode (detail : Nat) : Nat :=
  if detail = 0 then 0 else if detail ≤ 4 then ePtnSig else if detail = 9 then ePerm
  else if detail = 11 then ePtnInvalid else ePtnQuorum

/-- ESC.RESULT written and DONE set (Table 20.7). -/
def State.escResult (s : State) (detail : Nat) : State :=
  (s.rfSet Reg.ESC_RESULT 23 0 (escCode detail + 2 ^ 16 * detail)).evSet Reg.ESC_RESULT 24

/-- A change token found by a LOAD: checked, and staged or the basting unpicked (R446, R447). -/
def State.loadToken (s : State) (t : TokenIn) : State :=
  let d := s.tokenDetail t 1 s.ptn.loadLen
  let s := s.escResult d
  if d = 0 then { s with ptn := { s.ptn with token := some t } }.ptnResult 0 0 2 false none
  else if d = 1 ∨ d = 3 then s.unpickWith ePtnSig 0x10 2 none
  else if d = 2 ∨ d = 4 then s.unpickWith ePtnSig 0x11 2 none
  else s.unpickWith ePtnQuorum 0 2 none

/-- The bytes of the load under way, read where the lining and HBM hold them (R31, Table 2.14). LOAD_LEN beyond the 256 MiB of
R25 fails HEADER whatever follows. -/
def State.loadRead (s : State) (ecc : Ecc) : Nat × List Byte × State :=
  s.memRead .device none s.ptn.loadAddr (min s.ptn.loadLen (2 ^ 28)) ecc

/-- A load ends with the code of its reads and the bytes found: merged or staged, refused, or the basting unpicked (R31, R32, R34,
R45, R443, R446). OP reads 2 of a failed LOAD (DEDUCED, log entry 45). -/
def State.loadTake (s : State) (code : Nat) (bs : List Byte) : State :=
  let first := !s.ptn.committed && !s.ptn.loaded
  let s := { s with ptn := { s.ptn with loading := false } }
  let took : State := { s with ptn := { s.ptn with loaded := true } }
  if code ≠ 0 then s.unpickWith eUncorr 0 2 none
  else match parseLoad bs with
    | .token t => if first then s.refuse 0x25 2 none else took.loadToken t
    | .image x =>
      match refusal [(!s.scopeOk x, 0x24), (first && !imageFull x, 0x25)] with
      | some d => s.refuse d 2 none
      | none =>
        let (rsa, slh) := s.imageSigs x
        if s.headerBad x then took.unpickWith ePtnInvalid 1 2 none
        else if imageSectionBad x then took.unpickWith ePtnInvalid 2 2 none
        else if !rsa then took.unpickWith ePtnSig 0x10 2 none
        else if !slh then took.unpickWith ePtnSig 0x11 2 none
        else
          { took with ptn := { took.ptn with
            staged := took.ptn.staged.map (fun (t : Pat) => t.merge x)
            freshSecs := x.sections.map sectKey ++ took.ptn.freshSecs } }.ptnResult 0 0 2 false none

/-- LOAD_DONE: the bytes at LOAD_ADDR are read and taken (R31); while a stack holds a request to them the load goes on (R272).
`ecc` is what the code over the first sector shows. -/
def execLoadDone (ecc : Ecc) (s : State) : Res :=
  .next (if !s.ptn.loading then s
    else s.together (fun s =>
      let (c, bs, u) := s.loadRead ecc
      u.loadTake c bs))

/-! ## SEW, validation and UNPICK -/

/-- SEW: validation starts (R33, R36, R37). -/
def execSew (f : Func) (s : State) : Res :=
  .next (s.inOrder f (.sew f) (fun s =>
    (if !s.speaks f then s else match refusal (s.notTaken f) with
      | some d => s.refuse d 3 (some f)
      | none => { s with ptn := { s.ptn with phase := .sewing } })))

/-- Are the slots that a token names still ENROLLED (R446)? A byte 0xFF names none (DEDUCED, log entry 27). -/
def State.tokenStill (s : State) (t : TokenIn) : Bool :=
  let ok := fun party slot => slot == 0xFF || s.slotOk party slot
  ok 1 t.slots.1 && ok 1 t.slots.2.1 && ok 2 t.slots.2.2.1 && ok 2 t.slots.2.2.2

/-- Does the staged token carry a sew that needs one (R446)? -/
def State.tokenCarries (s : State) (t : Pat) : Bool :=
  match s.ptn.token with
  | some k => s.tokenStill k && k.digest % 2 ^ 384 == s.digest t
  | none => false

/-- VALIDATION_DONE: ARMED, or unpicked with the detail or for want of a token; before READY the commit is due at once
(R30 to R33, R45, R446). -/
def execValidationDone (s : State) : Res :=
  .next (match s.ptn.phase, s.ptn.staged with
    | .sewing, some t =>
      let d := s.validate t
      if d ≠ 0 then s.unpickWith ePtnInvalid d 3 none
      else if s.needsToken s.ptn.running t && !s.tokenCarries t then s.unpickWith ePtnQuorum 0 3 none
      else { s with ptn := { s.ptn with phase := .armed, commitDue := !s.tick.en } }.ptnResult 0 0 3 false none
    | _, _ => s)

/-- UNPICK (R33, R36, R44). -/
def execUnpick (f : Func) (s : State) : Res :=
  .next (s.inOrder f (.unpick f) (fun s =>
    (if !s.speaks f then s else match refusal [(s.ptn.phase == .idle || s.ptn.commitDue, 0x21), (!isPf f && decide (s.ptn.opener ≠ f), 0x27)] with
      | some d => s.refuse d 4 (some f)
      | none => s.unpickWith 0 0 4 (some f))))

/-- BASTING_TIMEOUT: 10 s after the BASTE an OPEN basting is unpicked (R37). -/
def execBastingTimeout (s : State) : Res :=
  .next (if s.ptn.phase = .opened then (s.at s.ptn.deadline).unpickWith ePtnTimeout 0 0 none else s)

/-! ## Patches -/

/-- A section with 4 bytes patched (R35). -/
def Pat.patch (t : Pat) (type off : Nat) (v : Word) : Pat :=
  let x := t.sec type 0
  { t with secs := mput t.secs (secKey type 0) { x with bytes := writeCells x.bytes off (leBytes v.toNat 4), patched := true } }

/-- PATCH_DATA: 4 bytes of the staged REGULATORS or TICK section (R34 to R36, R46). -/
def execPatchData (f : Func) (v : Word) (s : State) : Res :=
  .next (s.inOrder f (.patchData f v) (fun s =>
    let type := s.rf Reg.PTN_PATCH_TARGET 15 0
    let off := s.rf Reg.PTN_PATCH_OFF 27 0
    let t := s.ptn.staged.getD {}
    let fits := (type == 5 || type == 7) && off % 4 == 0 && decide (off + 4 ≤ (t.sec type 0).len)
    let n := t.patch type off v
    let own := !s.ptn.partScope ||
      (decide (t.patchOwner type off = some s.ptn.part.val) && decide (n.patchOwner type off = some s.ptn.part.val))
    (if !s.speaks f then s else match refusal (s.notTaken f ++ [(s.ptn.phase == .opened && !fits, 0x23), (s.ptn.phase == .opened && fits && !own, 0x24)]) with
      | some d => s.refuse d 5 (some f)
      | none => { s with ptn := { s.ptn with staged := some n } }.ptnResult 0 0 5 false (some f))))

end Sys2Proof.Machine
end

