-- ==== Sys2Proof/Machine/Pairing.lean ====
section
/-! DEFINITION. The redundant pair: configuration, roles, the tick delta, the standby's buffer, takeover (R473 to R482). -/

namespace Sys2Proof.Machine

/-! ## The block -/

/-- Is the module a PL9-M12-S64, the only order code whose PAIR block serves (R6)? -/
def State.pairFitted (s : State) : Bool := s.fuses.stackMask == 0xFFF && s.fuses.xMask == 0xF && s.fuses.links == 64

/-- Does the PAIR block claim a link (R473)? -/
def State.claimed (s : State) (n : Nat) : Bool := s.rb Reg.PAIR_CFG 0 && decide (56 ≤ n ∧ n < 64)

/-- Is the mirror engine cut off by a stack reset of L5 (R471, R482)? -/
def State.mirrorCut (s : State) : Bool := s.brup.outDies.contains 5

/-- The claimed links in service. -/
def State.pairLinks (s : State) : List Nat :=
  ((List.range 8).map (56 + ·)).filter (fun n => s.claimed n && (s.link n).up && !s.mirrorCut)

/-- Is a partition protected? -/
def State.protected (s : State) (p : Nat) : Bool := s.rb Reg.PAIR_CFG (16 + p)

/-- The protected partitions that are enabled. -/
def State.protectedParts (s : State) : List Nat := s.ptn.running.enabledParts.filter s.protected

/-- The value of a role (Table 21.4). -/
def roleCode : Role → Nat
  | .off => 0
  | .arming => 1
  | .active => 2
  | .standby => 3
  | .solo => 4
  | .fenced => 5
  | .stale => 6

/-- Does the pair hold a partition (Table 21.4)? -/
def State.pairHeld (s : State) (p : Nat) : Bool :=
  (s.pair.role == .standby || s.pair.role == .fenced || s.pair.role == .stale) && s.protected p

/-- A bit of PAIR.EVT set. -/
def State.pairEvt (s : State) (i : Nat) : State := s.evSet Reg.PAIR_EVT i

/-- The codes of Table 19.3. -/
def errCodes : List Nat :=
  [eUncorr, eTally, eAlign, eBounds, ePerm, ePinCap, ePathReset, eLinkDown, eTimeout, fIllegal, fBusErr, fClampDeadlock,
   fNoProgress, fEoiOrder, eTickOver, eEase, ePtnSig, ePtnInvalid, ePtnTimeout, ePtnQuorum, wSupply, wTherm, wThrash]

/-- The steps whose COMMIT was awaited are finished: their deltas are mirrored no longer (R476). -/
def State.endMirroring (s : State) : State :=
  let ps := s.pair.waiting
  ps.foldl (fun u p => u.finishStep p) { s with pair := { s.pair with waiting := [], sent := [] } }

/-- A role change: its record, which carries a code the manual does not state (log entry 30), and the PAIR source (R478). -/
def State.setRole (s : State) (r : Role) : State :=
  if s.pair.role = r then s
  else
    let s := if s.pair.role = .active then s.endMirroring else s
    let code := errCodes.getD (Config.pick s.free % errCodes.length) eLinkDown
    let s := { s with free := s.free + 1, pair := { s.pair with role := r, bufs := [] } }
    (s.logRec code (unitId 0 7) none 0 0 true).raise 149

/-- The module becomes STALE (R478). -/
def State.goStale (s : State) : State := (s.setRole .stale).pairEvt 2

/-! ## Commands -/

/-- PAIR_CFG_WRITE: while ROLE is OFF; EN 1 not while an enabled partition owns a link to be claimed (R6, R473). -/
def execPairCfgWrite (f : Func) (v : Word) (s : State) : Res :=
  .next (s.inOrder f (.pairCfgWrite f v) (fun s =>
    let taken := (List.range 8).any (fun i => (s.ptn.running.linkOwner (56 + i)).isSome)
    (if !isPf f || !s.pairFitted || s.pair.role != .off || (bitOf v.toNat 0 && taken) then s
      else s.rgSet Reg.PAIR_CFG (v &&& 0xFFFF00F3))))

/-- ARM: OFF becomes ARMING (R474). -/
def execArm (f : Func) (s : State) : Res :=
  .next (s.inOrder f (.arm f) (fun s =>
    (if isPf f && s.pairFitted && s.pair.role == .off then
        ({ s with pair := { s.pair with matched := false, mismatch := false, disarm := false } } : State).setRole .arming
      else s)))

/-- DISARM: any role returns to OFF at the next base boundary (R474). -/
def execDisarm (f : Func) (s : State) : Res :=
  .next (s.inOrder f (.disarm f) (fun s =>
    if isPf f && s.pairFitted && s.pair.role != .off then { s with pair := { s.pair with disarm := true } } else s))

/-! ## Messages between the members -/

/-- A MIRROR message to the peer behind link `n` (R346, R477). -/
def State.mirrorMsg (s : State) (n kind p a : Nat) (bs : List Byte) : Msg :=
  { hops := BitVec.ofNat 6 s.ptn.running.hopLimit, dst := BitVec.ofNat 12 (s.rf (bank Reg.SPL_PEER n) 11 0),
    src := BitVec.ofNat 12 s.moduleId, part := Fin.ofNat 16 p, srcPart := Fin.ofNat 16 p,
    arg := BitVec.ofNat 64 (kind * 2 ^ 60 + p * 2 ^ 56 + a), payload := bs }

/-- A MIRROR message sent on a claimed link in service; which of them is not architectural. -/
def State.mirrorPost (s : State) (kind p a : Nat) (bs : List Byte) : State :=
  match s.choose s.pairLinks with
  | none => s
  | some (n, s) => s.post n 7 (s.mirrorMsg n kind p a bs)

/-- The HEARTBEAT payload (R477). -/
def State.beat (s : State) : List Byte :=
  leBytes s.ptn.running.id 8 ++ leBytes (s.rf Reg.PAIR_CFG 31 16) 2 ++
    leBytes (roleCode s.pair.role + 8 * s.rf Reg.PAIR_CFG 1 1) 1 ++ List.replicate 5 0

/-- HEARTBEATs on every claimed link in service, at a base boundary (R474). -/
def State.sendBeats (s : State) : State :=
  if s.pair.role = .off then s
  else s.pairLinks.foldl (fun u n => u.post n 7 (u.mirrorMsg n 4 0 0 u.beat)) s

/-- The oldest MIRROR message of a link, if it is of a kind (R477), is taken from its buffer; off the claimed links of an enabled
member it is discarded (R344, R352). While its accesses have to wait it stays in the buffer (R272). -/
def State.mirrorIn (s : State) (n kind : Nat) (body : Msg → State → State) : State :=
  let s := s.urge (masterId .mirror) (fillUrgency (mget (s.link n).rx 2 []).length (vcBuf 2))
  match (s.link n).next 2 with
  | none => s
  | some (k, m, y) =>
    if k ≠ 7 ∨ m.arg.toNat / 2 ^ 60 ≠ kind then s
    else s.together (fun s =>
      let s := ((s.linkSet n y).sendAck n).rAdd64 (bank Reg.SPL_RXBYTES n) (msgBytes m)
      if s.claimed n then (if s.mirrorCut then s else body m s) else s.evSet Reg.SPL_EVT 3)

/-- HEARTBEAT: PAIR_ALIVE, and in ARMING the match of the members' settings (R474, R479; DEDUCED, log entry 31). -/
def execHeartbeat (n : Fin 64) (s : State) : Res :=
  .next (s.mirrorIn n.val 4 (fun m s =>
    let role := fieldAt m.payload 10 1 % 8
    let req := fieldAt m.payload 10 1 / 8 % 2
    let same := fieldAt m.payload 0 8 == s.ptn.running.id && fieldAt m.payload 8 2 == s.rf Reg.PAIR_CFG 31 16 &&
      req != s.rf Reg.PAIR_CFG 1 1
    let ok := same && decide (1 ≤ role ∧ role ≤ 3)
    let arming := s.pair.role == .arming
    { s with pair := { s.pair with
      lastBeat := some s.now, alive := true,
      matched := s.pair.matched || (arming && ok),
      mismatch := if arming then !same else s.pair.mismatch } }))

/-- PAIR_ALIVE_DROP: 2 base periods without a HEARTBEAT (R479); whether the peer's last QUERY ALIVE was answered is kept with it
(R481). -/
def execPairAliveDrop (s : State) : Res :=
  .next (match s.pair.alive, s.pair.lastBeat with
    | true, some t =>
      let s := s.at (t + 20 * s.ptn.running.basePeriod)
      ({ s with pair := { s.pair with alive := false, dropped := some s.pair.slotSeen } } : State).pairEvt 3
    | _, _ => s)

/-! ## The tick delta -/

/-- The pieces of a range that cross no 512-byte boundary. -/
def deltaCuts (a len : Nat) : List (Nat × Nat) := cuts 512 a (len / 512 + 2) len

/-- Bytes sent in pieces; the running count and CRC with them. -/
def State.mirrorRange (x : State × List Byte) (kind p a : Nat) (bs : List Byte) : State × List Byte :=
  let s := ((deltaCuts a bs.length).foldl (fun (y : State × List Byte) q =>
    (y.1.mirrorPost kind p q.1 (y.2.take q.2), y.2.drop q.2)) (x.1, bs)).1
  (s, x.2 ++ bs)

/-- A delta-list entry skipped (R476). -/
def State.deltaErr (s : State) (p code a : Nat) : State := (s.err code (unitId 0 7) (some p) a 0).pairEvt 4

/-- One entry of the delta list sent; one that cannot be read, or whose LEN is out of range, is skipped (R476; DEDUCED, log
entry 32). -/
def State.deltaEntry (x : State × List Byte) (p e : Nat) : State × List Byte :=
  let (c, bs, s) := x.1.memRead .mirror (some p) e 16 .clean
  if c ≠ 0 then (s.deltaErr p c e, x.2)
  else
    let a := fieldAt bs 0 8 % 2 ^ 48
    let len := fieldAt bs 8 4
    if len = 0 ∨ 2 ^ 24 < len then (s.deltaErr p eBounds a, x.2)
    else
      let (c, data, s) := s.memRead .mirror (some p) a len .clean
      if c ≠ 0 then (s.deltaErr p c a, x.2) else State.mirrorRange (s, x.2) 1 p a data

/-- The delta of a finished step: the entries of the delta list, the sheet and the COMMIT (R476, R477). -/
def State.mirrorDelta (s : State) (n : Nat) : State :=
  let list := s.rg64 (Reg.PAIR_DELTA + 8 * n) % 2 ^ 48
  let (c, h, s) := s.memRead .mirror (some n) list 64 .clean
  let s := if c = 0 then s else s.deltaErr n c list
  let count := if c = 0 then min 8192 (fieldAt h 0 2 % 2 ^ 14) else 0
  let x := (List.range count).foldl (fun x i => State.deltaEntry x n (list + 64 + 16 * i)) (s, [])
  let k := x.1.rg64 (Reg.TICK_STEPNO + 0x20 * n) - 1
  let sheet := 0x80000 + k % 4 * 0x20000
  let base := n * 2 ^ 20
  let len := 64 + 64 * leNat (readCells x.1.bar4 (base + sheet + 0x10) 2)
  let (s, sent) := State.mirrorRange x 2 n sheet (readCells x.1.bar4 (base + sheet) len)
  let head := leNat (readCells s.bar4 (base + 4) 4) % 4096
  let use := s.rf (Reg.TICK_RESIDENT + 0x20 * n) 23 0
  let s := s.mirrorPost 3 n 0 (leBytes k 8 ++ leBytes head 4 ++ leBytes use 4 ++ leBytes sent.length 8 ++
    leBytes (crc32c sent) 4 ++ leBytes 0 4)
  let s := s.rg64Set (Reg.PAIR_LASTCOMMIT + 8 * n) k
  { s with pair := { s.pair with sent := s.pair.sent ++ [n] } }

/-- MIRROR_SEND: the delta goes to the peer once the step's sheet is written; while no claimed link serves, the step waits (R476,
R477). -/
def execMirrorSend (p : Fin 16) (s : State) : Res :=
  let n := p.val
  .next (if !s.pair.waiting.contains n || s.pair.sent.contains n || s.pairLinks.isEmpty then s
    else s.together (fun s => s.mirrorDelta n))

/-! ## The standby -/

/-- A place put in order among others. -/
def insertPlace (x : Nat × Nat) : List (Nat × Nat) → List (Nat × Nat)
  | [] => [x]
  | y :: r => if x.1 ≤ y.1 then x :: y :: r else y :: insertPlace x r

/-- The places of the mirror buffer in use, in rising order. -/
def State.mirrorUsed (s : State) : List (Nat × Nat) :=
  (((s.pair.bufs.map (fun e => (e.2.map (·.places)).flatten)).flatten).foldl (fun l x => insertPlace x l) [])

/-- The free places of a buffer of `cap` bytes from `pos` on, past those in use. -/
def freePlaces (cap : Nat) : (used : List (Nat × Nat)) → (pos : Nat) → List (Nat × Nat)
  | [], pos => if pos < cap then [(pos, cap - pos)] else []
  | (o, l) :: r, pos =>
    let top := min o cap
    (if pos < top then [(pos, top - pos)] else []) ++ freePlaces cap r (max pos (o + l))

/-- The lowest `n` bytes of some free places. -/
def takePlaces : List (Nat × Nat) → Nat → List (Nat × Nat)
  | [], _ => []
  | (o, l) :: r, n => if n = 0 then [] else (o, min l n) :: takePlaces r (n - min l n)

/-- Bytes that some places hold. -/
def placesLen (ps : List (Nat × Nat)) : Nat := (ps.map (·.2)).sum

/-- Bytes written to some places of the mirror buffer: the first code, and the state. -/
def State.bufWrite (s : State) (ps : List (Nat × Nat)) (bs : List Byte) : Nat × State :=
  let base := s.rg64 Reg.PAIR_MBUF % 2 ^ 48
  (ps.foldl (fun (x : (Nat × State) × List Byte) q =>
    let (c, u) := x.1.2.memWrite .mirror none (base + q.1) (x.2.take q.2) .clean
    ((if x.1.1 = 0 then c else x.1.1, u), x.2.drop q.2)) ((0, s), bs)).1

/-- The bytes of some places of the mirror buffer: the first code, the bytes, the state. -/
def State.bufRead (s : State) (ps : List (Nat × Nat)) : Nat × List Byte × State :=
  let base := s.rg64 Reg.PAIR_MBUF % 2 ^ 48
  ps.foldl (fun (x : Nat × List Byte × State) q =>
    let (c, bs, u) := x.2.2.memRead .mirror none (base + q.1) q.2 .clean
    (if x.1 = 0 then c else x.1, x.2.1 ++ bs, u)) (0, [], s)

/-- A DATA or SHEET range placed in the buffer, in the lowest bytes that hold nothing uncommitted; without room, or outside the idle
span, the module becomes STALE (R478; log entry 33). -/
def State.mirrorKeep (s : State) (sheet : Bool) (m : Msg) : State :=
  if s.pair.role ≠ .standby then s
  else
    let p := m.arg.toNat / 2 ^ 56 % 16
    let base := s.rg64 Reg.PAIR_MBUF % 2 ^ 48
    let ps := takePlaces (freePlaces (2 ^ 21 * s.rf Reg.PAIR_MBUF_LEN 15 0) s.mirrorUsed 0) m.payload.length
    let idle := ps.all (fun q => (lineCuts (base + q.1) q.2).all (fun z => decide (s.target .mirror none z.1 = .idle)))
    if placesLen ps < m.payload.length ∨ !idle then s.goStale
    else
      let (c, s) := s.bufWrite ps m.payload
      if c ≠ 0 then s.goStale
      else
        let b := mget s.pair.bufs p [] ++ [⟨sheet, m.arg.toNat % 2 ^ 48, ps⟩]
        { s with pair := { s.pair with bufs := mset s.pair.bufs p b [] } }

/-- MIRROR_DATA (R352, R478). -/
def execMirrorData (n : Fin 64) (s : State) : Res := .next (s.mirrorIn n.val 1 (fun m s => s.mirrorKeep false m))

/-- MIRROR_SHEET (R352, R478). -/
def execMirrorSheet (n : Fin 64) (s : State) : Res := .next (s.mirrorIn n.val 2 (fun m s => s.mirrorKeep true m))

/-- The ranges of a delta read from the mirror buffer, in send order: the first code, their bytes, the state (R478). -/
def State.deltaRead (s : State) (b : List MirRange) : Nat × List (List Byte) × State :=
  b.foldl (fun (x : Nat × List (List Byte) × State) r =>
    let (c, bs, u) := x.2.2.bufRead r.places
    (if x.1 = 0 then c else x.1, x.2.1 ++ [bs], u)) (0, [], s)

/-- One range of a delta copied to its place; false once a copy has failed (R478). -/
def State.applyRange (x : Bool × State) (p : Nat) (r : MirRange × List Byte) : Bool × State :=
  if !x.1 then x
  else if r.1.sheet then
    if 2 ^ 20 < r.1.addr + r.2.length then (false, x.2)
    else (true, { x.2 with bar4 := writeCells x.2.bar4 (p * 2 ^ 20 + r.1.addr) r.2 })
  else
    let (c, s) := x.2.memWrite .mirror (some p) r.1.addr r.2 .clean
    (c == 0, s)

/-- MIRROR_COMMIT: the delta is read from the buffer, checked and applied, or the module becomes STALE (R478). The costs that
IN_USE stands for have no TAG on the standby (DESIGN CHOICE, log entry 34). -/
def execMirrorCommit (n : Fin 64) (s : State) : Res :=
  .next (s.mirrorIn n.val 3 (fun m s =>
    if s.pair.role ≠ .standby then s
    else
      let p := m.arg.toNat / 2 ^ 56 % 16
      let b := mget s.pair.bufs p []
      let k := fieldAt m.payload 0 8
      let (c, data, s) := s.deltaRead b
      let bytes := data.flatten
      let good := c == 0 && fieldAt m.payload 16 8 == bytes.length && fieldAt m.payload 24 4 == crc32c bytes &&
        k == s.rg64 (Reg.PAIR_LASTCOMMIT + 8 * p) + 1
      let rs := b.zip data
      let (ok, s) := if good then
          (rs.filter (fun r => r.1.sheet)).foldl (fun x r => State.applyRange x p r)
            ((rs.filter (fun r => !r.1.sheet)).foldl (fun x r => State.applyRange x p r) (true, s))
        else (false, s)
      if !ok then s.goStale
      else
        let use := fieldAt m.payload 12 4 % 2 ^ 24
        let s := { s with
          bar4 := writeCells s.bar4 (p * 2 ^ 20 + 4) (leBytes (fieldAt m.payload 8 4 % 4096) 4)
          pair := { s.pair with bufs := mset s.pair.bufs p [] [] } }
        let s := s.setResidents p (if use = 0 then [] else [(2 ^ 64, use)])
        (s.rg64Set (Reg.TICK_STEPNO + 0x20 * p) (k + 1)).rg64Set (Reg.PAIR_LASTCOMMIT + 8 * p) k))

/-! ## Base boundaries -/

/-- Is the peer's slot lost (R479)? -/
def State.slotLost (s : State) : Bool := decide (2 ≤ s.pair.missed)

/-- What a base boundary makes of the role: DISARM, arming, takeover, fencing (R474, R480, R481), after what has happened since the
last one. Where the module takes over, the answer is true. -/
def State.pairBoundary (s : State) : Bool × State :=
  let x := s.pair
  let s : State := { s with pair := { x with dropped := none, lost := false, ownNamed := false, peerNamed := false } }
  if x.disarm then (false, ({ s with pair := { s.pair with disarm := false, mismatch := false } } : State).setRole .off)
  else match x.role with
  | .arming =>
    if x.matched then
      (false, ({ s with pair := { s.pair with matched := false } } : State).setRole
        (if s.rb Reg.PAIR_CFG 1 then .standby else .active))
    else (false, s)
  | .standby =>
    if s.slotLost || x.lost || x.dropped.isSome || x.ownNamed then
      (true, ((s.setRole .solo).pairEvt 0).rAdd Reg.PAIR_TAKEOVERS 31 0 1)
    else (false, s)
  | .active =>
    if x.peerNamed || x.dropped == some true then
      (false, ((s.protectedParts.foldl (fun u p => u.partReset p) s).setRole .fenced).pairEvt 1)
    else if s.slotLost || x.lost || x.dropped.isSome then (false, s.setRole .solo)
    else (false, s)
  | _ => (false, s)

end Sys2Proof.Machine
end

