-- ==== Sys2Proof/Machine/Security.lean ====
section
/-! DEFINITION. The commands of the escutcheon: debug unlocks, enrolment, relocking and its failure (R440, R441, R447, R448,
R455). -/

namespace Sys2Proof.Machine

/-! ## Commands -/

/-- An escutcheon command is taken: from a physical function while firmware runs; refused with BUSY while one, or the check of a
loaded token, is under way (R442, R447). -/
def State.escTake (s : State) (f : Func) (body : State → State) : State :=
  if !isPf f || s.esc.boot != 0 then s else if s.escBusy then s.escResult 11 else body s

/-- DEBUG: the check of a DEBUG token starts (R447, R455). -/
def execDebugCmd (f : Func) (s : State) : Res :=
  .next (s.inOrder f (.debugCmd f) (fun s =>
    s.escTake f (fun u => { u with esc := { u.esc with op := some (.debug (u.rg64 Reg.ESC_ADDR % 2 ^ 48) (u.rg Reg.ESC_LEN).toNat) } })))

/-- ENROL: the check of an ENROL token starts (R447, R448). -/
def execEnrol (f : Func) (s : State) : Res :=
  .next (s.inOrder f (.enrol f) (fun s =>
    s.escTake f (fun u => { u with esc := { u.esc with op := some (.enrol (u.rg64 Reg.ESC_ADDR % 2 ^ 48) (u.rg Reg.ESC_LEN).toNat) } })))

/-- RELOCK: OBSERVE returns to LOCKED at the next base boundary (R455). -/
def execRelock (f : Func) (s : State) : Res :=
  .next (s.inOrder f (.relock f) (fun s =>
    s.escTake f (fun u => ({ u with esc := { u.esc with relock := u.esc.relock || u.esc.debug == 1 } } : State).escResult 0)))

/-! ## Debug levels -/

/-- Every key is destroyed and every enabled partition undergoes turnover; then keys are made afresh (R450, R453, R455). -/
def State.fullUnlock (s : State) : State :=
  let ps := s.ptn.running.enabledParts
  let s := { s with esc := { s.esc with keys := [], made := s.esc.made + 1, moduleKey := s.esc.made + 1 } }
  let s := ps.foldl (fun u p => u.scrubPart p) s
  (s.rekey []).turnoverDone ps

/-- A level that was accepted takes effect; a lower level than the one in force changes nothing (R455; DEDUCED, log entry
26). No partition undergoes turnover at an unlock to OBSERVE, which ESC.TURNOVER records (Table 20.7). -/
def State.applyUnlock (s : State) : State :=
  match s.esc.unlock with
  | none => s
  | some n =>
    let s := { s with esc := { s.esc with unlock := none } }
    if n ≤ s.esc.debug then s
    else
      let s := if n = 2 then s.fullUnlock else s.turnoverDone []
      { s with esc := { s.esc with debug := n } }

/-- A RELOCK takes effect on OBSERVE (R455). -/
def State.applyRelock (s : State) : State :=
  if s.esc.relock then { s with esc := { s.esc with relock := false, debug := if s.esc.debug = 1 then 0 else s.esc.debug } } else s

/-! ## The end of a command -/

/-- ESC.TOKSEQ, kept in NOR (R446, R448). -/
def State.tokUsed (s : State) (seq : Nat) : State := { s with nor := { s.nor with tokSeq := seq } }

/-- A verified DEBUG token: its level is refused by PROTECTION, or unlocks at the next base boundary, at once before READY; of two
that wait the higher does (R455). Its SEQ is consumed (DEDUCED, log entry 27). -/
def State.debugToken (s : State) (t : TokenIn) : State :=
  let level := t.arg % 4
  if s.ptn.running.maxLevel < level then s.escResult 9
  else
    let s := ({ s with esc := { s.esc with unlock := some (max level (s.esc.unlock.getD 0)) } } : State).tokUsed t.seq
    (if s.tick.en then s else s.applyUnlock).escResult 0

/-- Does a key blob match DIGEST: the hash of the RSA key, then that of the SLH-DSA key, and 12 zero bytes (R448)? -/
def blobOk (t : TokenIn) : Bool :=
  t.digest == keyHashes t.blob && zeroAt t.blob 436 12

/-- May the enrolment or revocation of a token be done (R448)? -/
def State.enrolOk (s : State) (t : TokenIn) : Bool :=
  let party := t.arg % 4
  let slot := t.arg / 4 % 4
  (party == 1 || party == 2) &&
    (if bitOf t.arg 4 then s.slotOk party slot && (List.range 4).any (fun k => k != slot && s.slotOk party k)
     else !bitOf (mget s.fuses.enrolled party 0) slot && blobOk t)

/-- Fuses burnt by an enrolment or a revocation (R441, R448). -/
def Fuses.enrol (x : Fuses) (t : TokenIn) : Fuses :=
  let party := t.arg % 4
  let slot := t.arg / 4 % 4
  let burn := fun (m : List (Nat × Nat)) => mset m party (Nat.lor (mget m party 0) (2 ^ slot)) 0
  if bitOf t.arg 4 then { x with revoked := burn x.revoked }
  else { x with enrolled := burn x.enrolled, hashes := mput x.hashes (4 * party + slot) t.digest }

/-- The key store after an enrolment (R441, R448). -/
def Nor.enrol (x : Nor) (t : TokenIn) : Nor :=
  if bitOf t.arg 4 then x else { x with keyStore := mput x.keyStore (4 * (t.arg % 4) + t.arg / 4 % 4) t.blob }

/-- A verified ENROL token (R448). -/
def State.enrolToken (s : State) (t : TokenIn) : State :=
  if s.enrolOk t then ({ s with fuses := s.fuses.enrol t, nor := s.nor.enrol t } : State).tokUsed t.seq |>.escResult 0
  else s.escResult 10

/-- The request of an escutcheon command, read at ESC.ADDR; one of no length that R447 allows is not read further. One that
cannot be read is no token (DESIGN CHOICE, log entry 28). -/
def State.escRead (s : State) (addr len : Nat) (ecc : Ecc) : Option TokenIn × State :=
  let (c, bs, u) := s.memRead .device none addr (min len 33856) ecc
  (if c = 0 then some (parseToken bs) else none, u)

/-- The end of a command whose request was read as `t` (R447). -/
def State.escEnd (s : State) (t : Option TokenIn) : State :=
  let u : State := { s with esc := { s.esc with op := none } }
  match s.esc.op, t with
  | none, _ => s
  | some _, none => u.escResult 7
  | some (.debug _ len), some x =>
    let d := u.tokenDetail x 2 len
    if d = 0 then u.debugToken x else u.escResult d
  | some (.enrol _ len), some x =>
    let d := u.tokenDetail x 3 len
    if d = 0 then u.enrolToken x else u.escResult d

/-- ESC_COMMAND_COMPLETE: the request at ESC.ADDR is read and checked, and ESC.RESULT reports (R447). -/
def execEscCommandComplete (ecc : Ecc) (s : State) : Res :=
  let go := fun (addr len : Nat) => s.together (fun s =>
    let (t, u) := s.escRead addr len ecc
    u.escEnd t)
  .next (match s.esc.op with
    | some (.debug a n) => go a n
    | some (.enrol a n) => go a n
    | none => s)

/-- ESCUTCHEON_FAILURE: the module resets (R440). What PWR.LAST_RESET then reads is free (log entry 29). -/
def execEscutcheonFailure (s : State) : Res :=
  .next (({ s with free := s.free + 1 } : State).moduleReset (Config.pick s.free % 16))

end Sys2Proof.Machine
end

