-- ==== Sys2Proof/Machine/Thermal.lean ====
section
/-! DEFINITION. Thermal monitors, shutdown, ageing and alteration (spec/18), and the pins of R383. -/

namespace Sys2Proof.Machine

/-! ## Sensors -/

/-- A W_THERM record of the thermal monitors (Table 18.5). -/
def State.thermRec (s : State) (cause a b : Nat) (part : Option Nat) : State :=
  s.err wTherm (unitId 0 5) part 0 (cause + 2 ^ 8 * a + 2 ^ 16 * (b % 256))

/-- A bit of THM.EVT set. -/
def State.thmEvt (s : State) (i : Nat) : State := s.evSet Reg.THM_EVT i

/-- Rows and columns of a die's sensor grid (R406). -/
def sensorGrid (d : Nat) : Nat × Nat := if d < 12 then (4, 8) else if d < 18 then (4, 6) else (2, 2)

/-- Is a die present (R406)? -/
def State.dieFitted (s : State) (d : Nat) : Bool := decide (d < 18) || bitOf s.fuses.xMask (d - 18)

/-- The sensors orthogonally beside sensor `i`. -/
def neighbours (d i : Nat) : List Nat :=
  let (rows, cols) := sensorGrid d
  let r := i / cols
  let c := i % cols
  (if 0 < r then [i - cols] else []) ++ (if 0 < c then [i - 1] else []) ++
    (if c + 1 < cols then [i + 1] else []) ++ (if r + 1 < rows then [i + cols] else [])

/-- A number inserted in rising order. -/
def insertInt (x : Int) : List Int → List Int
  | [] => [x]
  | y :: r => if x ≤ y then x :: y :: r else y :: insertInt x r

/-- Twice the median of some readings; of an even number, the sum of the two middle values (R408). -/
def median2 (xs : List Int) : Int :=
  let ys := xs.foldl (fun a x => insertInt x a) []
  let n := ys.length
  ys.getD ((n - 1) / 2) 0 + ys.getD (n / 2) 0

/-- Twice the median of a sensor's neighbours, over the readings as they are (DEDUCED, log entry 24). -/
def around (d : Nat) (temps : List Int) (i : Nat) : Int := median2 ((neighbours d i).map (fun k => temps.getD k 0))

/-- Twice the mean of a sensor's offsets, limited to ±8 °C and rounded down (R408; DESIGN CHOICE, log entry 24). -/
def meanOff (offs : List Int) : Int :=
  if offs = [] then 0 else max (-16) (min 16 (offs.sum / (offs.length : Int)))

/-- The estimate of a suspect sensor: its neighbours' median and its mean offset, rounded down (R408). -/
def DieMon.estimate (x : DieMon) (d i : Nat) : Int :=
  match mfind x.suspects i with
  | some off => (around d x.temps i + off) / 2
  | none => x.temps.getD i 0

/-- The largest of some values; 0 of none. -/
def maxInt (xs : List Int) : Int :=
  match xs with
  | [] => 0
  | y :: r => r.foldl max y

/-- A die's own value: its largest sensor value, or with more than 8 suspects its largest estimate plus 5 °C (R408, R409). -/
def DieMon.ownValue (x : DieMon) (d n : Nat) : Int :=
  if 8 < x.suspects.length then maxInt (x.suspects.map (fun e => x.estimate d e.1)) + 5
  else maxInt ((List.range n).map (x.estimate d))

/-- One sensor judged at a sample: its run of deviations and its offsets; at 16 in a row it is suspect (R408). -/
def State.judgeSensor (s : State) (d i : Nat) : State :=
  let x := s.die d
  if mhas x.suspects i then s
  else
    let o := 2 * x.temps.getD i 0 - around d x.temps i
    let offs := mget x.offs i []
    let n := if 16 < o ∨ o < -16 then mget x.devs i 0 + 1 else 0
    if 16 ≤ n then
      let s := s.dieSet d { x with suspects := mput x.suspects i (meanOff offs), devs := mdel x.devs i, offs := mdel x.offs i }
      ((s.thermRec 3 d i none).thmEvt 2).raise 133
    else s.dieSet d { x with devs := mset x.devs i n 0, offs := mput x.offs i ((o :: offs).take 1024) }

/-! ## The middle layer and the states of a die -/

/-- The middle-layer estimate judged at a sample of a lining die (R410, R411). -/
def State.judgeMiddle (s : State) (d : Nat) (est : Int) : State :=
  let x := s.die d
  let cond := if x.estGov then decide (est - x.own ≤ 3 ∨ est < 90) else decide (6 < est - x.own ∧ 95 < est)
  if !cond then s.dieSet d { x with est := est, since := none }
  else
    let t := x.since.getD s.now
    if s.now < t + 10000000 then s.dieSet d { x with est := est, since := some t }
    else
      let s := s.dieSet d { x with est := est, since := none, estGov := !x.estGov }
      if x.estGov then s else ((s.thermRec 4 d (est % 256).toNat none).thmEvt 3).raise 133

/-- The state that a governing temperature leads to (Table 18.2). -/
def dieNext (st : DieState) (g : Int) : DieState :=
  match st with
  | .shutdown => .shutdown
  | .throttle => if g < 100 then .warn else .throttle
  | .warn => if 105 ≤ g then .throttle else if g < 90 then .normal else .warn
  | .normal => if 105 ≤ g then .throttle else if 95 ≤ g then .warn else .normal

/-- The shutdown record (Table 18.3). -/
def State.shutRecord (s : State) (d : Nat) : List Byte :=
  let x := s.die d
  let (r, c) := sensorGrid d
  let vals := (List.range (r * c)).map (x.estimate d)
  let hot := (vals.findIdx? (· == maxInt vals)).getD 0
  let cause := if x.estGov then 1 else if 8 < x.suspects.length then 2 else 0
  leBytes 0x54485344 4 ++ leBytes 0 4 ++ leBytes s.tickNo 8 ++ leBytes d 1 ++ leBytes (if x.estGov then 0xFF else hot) 1 ++
    leBytes (x.govern % 256).toNat 1 ++ leBytes cause 1 ++ leBytes (s.rf Reg.PWR_POWER 11 0) 2 ++
    leBytes (min 0xFFFF (s.nor.shuts + 1)) 2 ++
    ((List.range 22).map (fun i => leBytes (if s.dieFitted i then ((s.die i).govern % 256).toNat else 0) 1)).flatten ++
    List.replicate 18 0

/-- Two samples at 115 °C: every core's clock stops and the record is composed (R415). -/
def State.shutDown (s : State) (d : Nat) : State :=
  let s := s.dieSet d { s.die d with st := .shutdown, level := 0 }
  if s.thm.shutAt.isSome then s
  else { s with thm := { s.thm with shutAt := some s.now, shutRec := s.shutRecord d } }

/-- A die's state judged on its governing temperature at a sample (R407, R412, R413, R415). -/
def State.judgeDie (s : State) (d : Nat) : State :=
  let x := s.die d
  let g := x.govern
  let hot := if 115 ≤ g then x.hot + 1 else 0
  let cool := if 100 ≤ g then 0 else x.cool + 1
  let fast := decide (100 ≤ g) || (x.fast && decide (cool < 10))
  let st := dieNext x.st g
  let level := if st = x.st then x.level else if st = .throttle then 2 else 0
  let s := s.dieSet d { x with hot := hot, cool := cool, fast := fast, st := st, level := level }
  let s := if st = x.st then s
    else match st with
      | .warn => ((s.thermRec 1 d (g % 256).toNat none).thmEvt 0).raise 133
      | .throttle => ((s.thermRec 2 d (g % 256).toNat none).thmEvt 1).raise 133
      | _ => s
  if 2 ≤ hot ∧ x.st ≠ .shutdown then s.shutDown d else s

/-- THERM_OUT_N is asserted while a die is at or above its throttle threshold (R384). -/
def State.thermOut (s : State) : Bool := (List.range 22).any (fun d => decide (105 ≤ (s.die d).govern))

/-! ## Alterations (R418 to R420) -/

/-- The alteration goes to its next core: after the queue the cores put off; then it ends with ALT_DONE (R418, R420). -/
def State.altNext (s : State) (a : Alteration) (rest : List Nat) (retry : List Nat) : State :=
  match rest, retry with
  | [], [] => { s with thm := { s.thm with alt := none } }.thmEvt 4
  | [], r => { s with thm := { s.thm with alt := some { queue := r, since := s.now } } }
  | q, r => { s with thm := { s.thm with alt := some { a with
      queue := q, retry := r, since := s.now, measuring := none, powered := false } } }

/-- The core whose turn it is: one whose measurement was fenced or lost its power is put off; an unowned core is powered up, or
measured where it has power, once its die allows it (R418 to R420). A core that has become unable to serve keeps its turn, and is
skipped an hour later as one that cannot be measured (DEDUCED, log entry 58). -/
def State.altPoll (s : State) : Nat → State
  | 0 => s
  | n + 1 =>
    match s.thm.alt with
    | none => s
    | some a =>
      match a.queue with
      | [] => (s.altNext a [] a.retry).altPoll n
      | p :: rest =>
        let st := (s.dom p).st
        let owner := (s.logicalOf p).bind s.corePart
        if a.measuring.isSome then
          (if st = .up then s else (s.altNext a rest (a.retry ++ [p])).altPoll n)
        else if owner.isSome ∨ s.coreLost p ∨ !s.measurable p then s
        else if st = .up then { s with thm := { s.thm with alt := some { a with measuring := some s.now } } }
        else if st = .unpowered then
          { s.powerAsk p with thm := { s.thm with alt := some { a with powered := true } } }
        else s

/-- The alteration polled with fuel for every core it holds. -/
def State.altGo (s : State) : State :=
  match s.thm.alt with
  | some a => s.altPoll (2 * (a.queue.length + a.retry.length) + 2)
  | none => s

/-- An alteration starts over some cores (R418). -/
def State.altStart (s : State) (cores : List Nat) : State :=
  { s with thm := { s.thm with alt := some { queue := cores.filter (fun p => !s.coreLost p), since := s.now } } }.altGo

/-- A command for an alteration: refused while one runs (R418). -/
def State.altCmd (s : State) (f : Func) (cores : List Nat) : State :=
  if !isPf f then s
  else if s.thm.alt.isSome then s.rbSet Reg.THM_ALT_STAT 1 true
  else (s.rbSet Reg.THM_ALT_STAT 1 false).altStart cores

/-- The physical cores behind a partition's logical cores. -/
def State.physCoresOf (s : State) (p : Nat) : List Nat := sortNat ((s.coresOf p).map s.ptn.running.physCore)

/-- ALT_ALL (R418). -/
def execAltAll (f : Func) (s : State) : Res :=
  .next (s.inOrder f (.altAll f) (fun s =>
    s.altCmd f (List.range 72)))

/-- ALT_CORE (R418). -/
def execAltCore (f : Func) (core : BitVec 7) (s : State) : Res :=
  .next (s.inOrder f (.altCore f core) (fun s =>
    s.altCmd f (if core.toNat < 72 then [core.toNat] else [])))

/-- ALT_PARTITION: HOLD does not matter (R418). -/
def execAltPartition (f : Func) (p : Fin 16) (s : State) : Res :=
  .next (s.inOrder f (.altPartition f p) (fun s =>
    s.altCmd f (s.physCoresOf p.val)))

/-- ALTERATION_START: every PERIOD_H hours after READY, over every core but those of partitions in HOLD (R418). One that falls while
an alteration runs is passed over (DEDUCED, log entry 58). -/
def execAlterationStart (s : State) : Res :=
  let h := s.rf Reg.THM_ALT_CFG 7 0
  .next (match s.thm.altFrom with
    | some t =>
      if h = 0 then s
      else
        let due := t + h * 3600000000000
        let s := s.at due
        let s := { s with thm := { s.thm with altFrom := some due } }
        if s.thm.alt.isSome then s
        else
          let hold := ((List.range 16).filter (fun p => s.rb Reg.THM_ALT_CFG (16 + p))).map s.physCoresOf
          s.altStart ((List.range 72).filter (fun p => !hold.flatten.contains p))
    | none => s)

/-! ## Plans (R421, R422) -/

/-- need(F) for F = F0 - 25 i MHz, in mV; where a measurement gives none, no set point passes. -/
def needAt (need : List Nat) (i : Nat) : Nat := need.getD i 100000

/-- The highest F, in 25 MHz units and not below 675 MHz, that passes at `v` mV, from F0 - 25 i down (R421). -/
def searchF (need : List Nat) (v f0 : Nat) : Nat → Nat → Nat
  | 0, _ => 27
  | n + 1, i => if f0 - i < 28 then 27 else if v < needAt need i then searchF need v f0 n (i + 1) else f0 - i

/-- The plan after a measurement (R421): `f0` in 25 MHz units, `v0` in mV. -/
def planAfter (prev : Plan) (need : List Nat) (f0 v0 phases : Nat) : Plan :=
  let off := max prev.off ((needAt need 0 - v0 + 4) / 5 * 5)
  let (v, off, f) := if off ≤ 40 ∧ v0 + off ≤ 900 then (v0 + off, off, f0)
    else
      let v := min (v0 + 40) 900
      (v, v - v0, searchF need v f0 (f0 + 1) 0)
  ⟨off, min f prev.ceil, v / 5, phases⟩

/-- A core marked for retirement (R319, R422). -/
def State.markRetire (s : State) (p ceil : Nat) : State :=
  if s.nor.marked.contains p then s
  else
    let s := { s with nor := { s.nor with marked := insertSorted p s.nor.marked } }
    let part := (s.logicalOf p).bind s.corePart
    (((s.thermRec 6 p ceil part).thmEvt 5).raise 133).stageRetires

/-- The plan of a measured core recorded; it takes effect at the next base boundary (R421 to R423). -/
def State.planSet (s : State) (p : Nat) (x : Plan) : State :=
  let s := { s with nor := { s.nor with plans := mput s.nor.plans p x } }
  let s := s.domSet p { s.dom p with plan := some x }
  let s := if x.ceil < 48 then s.markRetire p x.ceil else s
  if x.ceil < 28 then { s with pwr := { s.pwr with aged := insertSorted p (s.pwr.aged.filter (· != p)) } } else s

/-- A core powered up for its measurement is powered down after it, unless a partition has come to own it or its clock has stopped
(R395, R398, R420). -/
def State.altOff (s : State) (a : Alteration) (p : Nat) : State :=
  if a.powered && ((s.logicalOf p).bind s.corePart).isNone && (s.dom p).st != .stopped then s.powerDown p .unpowered else s

/-- MEASUREMENT_DONE: 60 µs after its start the core is re-planned; a core powered up for it is powered down (R417 to R423). One
that has lost its power is put off instead (R420). -/
def execMeasurementDone (core : Fin 72) (need : List Nat) (s : State) : Res :=
  let p := core.val
  .next (match s.thm.alt with
    | some a =>
      match a.measuring, a.queue with
      | some t, q :: rest =>
        if q ≠ p then s
        else if (s.dom p).st ≠ .up then s.altGo
        else
          let s := s.at (t + 60000)
          let s := (s.planSet p (planAfter (s.planOf p) need (s.f0 p) (5 * s.v0 p) (s.dom p).phases)).rAdd Reg.THM_ALT_STAT 31 16 1
          let s := { s with thm := { s.thm with stale := s.thm.stale.filter (· != p) }
                            nor := { s.nor with measured := mput s.nor.measured p (mget s.nor.measured p [] ++ [s.now]) } }
          (s.altOff a p).altNext a rest a.retry |>.altGo
      | _, _ => s
    | none => s)

/-- MEASUREMENT_SKIP: 1 h after its turn began, a core not measured is passed over and STALE (R420). -/
def execMeasurementSkip (core : Fin 72) (s : State) : Res :=
  let p := core.val
  .next (match s.thm.alt with
    | some a =>
      match a.measuring, a.queue with
      | none, q :: rest =>
        if q ≠ p then s
        else
          let s := (s.at (a.since + 3600000000000)).thmEvt 6
          let s := { s with thm := { s.thm with stale := insertSorted p (s.thm.stale.filter (· != p)) } }
          (s.altOff a p).altNext a rest a.retry |>.altGo
      | _, _ => s
    | none => s)

/-! ## Samples and trips -/

/-- DIE_SAMPLE: sensors, own value, middle layer, governing temperature, state, peak (R407 to R415). The next sample is due
1 ms after the last, or 50 µs in fast sampling. -/
def execDieSample (die : Fin 22) (temps : List Int) (est : Int) (s : State) : Res :=
  let d := die.val
  let n := (sensorGrid d).1 * (sensorGrid d).2
  .next (if !s.dieFitted d then s
    else
      let x := s.die d
      let s := match x.lastAt with
        | some t => s.at (t + (if x.fast then 50000 else 1000000))
        | none => s
      let s := s.dieSet d { x with temps := temps.take n, lastAt := some s.now }
      let s := (List.range n).foldl (fun u i => u.judgeSensor d i) s
      let s := s.dieSet d { s.die d with own := (s.die d).ownValue d n }
      let s := if 12 ≤ d ∧ d < 18 then s.judgeMiddle d est else s
      let y := s.die d
      let g := if y.estGov then y.est else y.own
      let s := (s.dieSet d { y with govern := g }).judgeDie d
      let s := if (s.rf Reg.THM_PEAK 7 0 : Int) < g then s.rgSet Reg.THM_PEAK (BitVec.ofNat 32 ((g % 256).toNat + 2 ^ 8 * d)) else s
      s.altGo)

/-- THROTTLE_LEVEL_UPDATE: a millisecond in THROTTLE (R413). -/
def execThrottleLevelUpdate (die : Fin 22) (s : State) : Res :=
  let x := s.die die.val
  .next (if x.st ≠ .throttle then s
    else if 105 ≤ x.govern then s.dieSet die.val { x with level := min 7 (x.level + 1) }
    else if x.govern < 102 then s.dieSet die.val { x with level := max 1 (x.level - 1) }
    else s)

/-- SHUTDOWN_RECORD_TIMEOUT: the record is written, or 5 ms have passed without it, and the module resets. Which of the two
happens is free (R415; log entry 25). -/
def execShutdownRecordTimeout (s : State) : Res :=
  .next (match s.thm.shutAt with
    | none => s
    | some t =>
      let written := Config.pick s.free % 2 == 1
      let s := { s with free := s.free + 1 }
      let s := if written then { s with nor := { s.nor with shut := s.thm.shutRec, shuts := min 0xFFFF (s.nor.shuts + 1) } }
        else s.at (t + 5000000)
      s.moduleReset 9)

/-- OVERTEMP_TRIP: stage one stops, with no record (R416). -/
def execOvertempTrip (die : Fin 22) (s : State) : Res := .next (if s.dieFitted die.val then s.moduleReset 9 else s)

/-- SHUT_CLR: MAGIC of the record in NOR is cleared (R415, Table 18.18). -/
def execShutClr (f : Func) (s : State) : Res :=
  .next (s.inOrder f (.shutClr f) (fun s =>
    (if isPf f then { s with nor := { s.nor with
      shut := if s.nor.shut = [] then [] else List.replicate 4 0 ++ s.nor.shut.drop 4 } } else s)))

/-! ## The pins of R383 -/

/-- Does a level held for `cycles` bus cycles pass the filter of an input (R439)? CYCLES 0 acts as 1. -/
def State.passes (s : State) (x cycles : Nat) : Bool := decide (max 1 (s.rf (Reg.IRQ_FILT + 4 * x) 7 0) ≤ cycles)

/-- A filtered input takes a level: LEVEL of its FILTx (Table 19.8, R439). -/
def State.pinLevel (s : State) (x : Nat) (high : Bool) : State := s.rbSet (Reg.IRQ_FILT + 4 * x) 8 high

/-- THERM_IN_ASSERT: the input has been low for some bus cycles (R383, R414, R439). -/
def execThermInAssert (cycles : Nat) (s : State) : Res :=
  .next (if s.pins.thermIn ∨ !s.passes 1 cycles then s
    else (((({ s with pins := { s.pins with thermIn := true } } : State).pinLevel 1 false).thermRec 5 0 0 none)).raise 143)

/-- THERM_IN_RELEASE (R383, R439). -/
def execThermInRelease (cycles : Nat) (s : State) : Res :=
  .next (if !s.passes 1 cycles then s else ({ s with pins := { s.pins with thermIn := false } } : State).pinLevel 1 true)

/-- PWR_FAULT_IN_ASSERT (R383, R393, R439). -/
def execPwrFaultInAssert (cycles : Nat) (s : State) : Res :=
  .next (if s.pins.faultIn ∨ !s.passes 2 cycles then s
    else
      let s := { s with pins := { s.pins with faultIn := true }, pwr := { s.pwr with faultHold := true } }
      ((((s.pinLevel 2 false).limitUpdate).pwrEvt 4).supplyRec 5 0 0 none).raise 142)

/-- PWR_FAULT_IN_RELEASE (R383, R439). -/
def execPwrFaultInRelease (cycles : Nat) (s : State) : Res :=
  .next (if !s.passes 2 cycles then s
    else (({ s with pins := { s.pins with faultIn := false }, pwr := { s.pwr with faultHold := false } } : State).pinLevel 2 true).limitUpdate)

end Sys2Proof.Machine
end

