-- ==== Sys2Proof/Machine/Steps.lean ====
section
/-! DEFINITION. Base boundaries, the reference, own boundaries and admission, hold and commit (R40 to R78, R168, R283, R318,
R399, R419). -/

namespace Sys2Proof.Machine

/-! ## The length of a base tick -/

/-- The ease E (R56). -/
def Pat.ease (t : Pat) : Nat := t.basePeriod / 8

/-- A demand clamped to the ease of `n` base ticks (R56). -/
def clampEase (d : Int) (e : Nat) : Int := max (-(e : Int)) (min (e : Int) d)

/-- The base tick that begins now gets its length (R56, R57). -/
def State.beginTick (s : State) : State :=
  let bp := s.ptn.running.basePeriod
  let e := s.ptn.running.ease
  let d := s.tick.demand
  let c := clampEase d e
  let exceeded := decide (e < d.natAbs)
  let newly := exceeded && !s.tick.easeExceeded
  let len := ((bp : Int) + c).toNat
  let s := { s with tick := { s.tick with
    demand := d - c, begun := s.now, next := some (s.now + 10 * len), easeExceeded := exceeded } }
  let s := s.rfSet Reg.TICK_PERIOD_NOW 22 0 len
  let s := if exceeded then s.rAdd Reg.TICK_EASE_TICKS 31 0 1 else s
  if newly then
    ((s.err eEase (unitId 0 0) none 0 (d % 2 ^ 64).toNat).evSet Reg.TICK_STATUS 3).raise 129
  else s

/-! ## The reference -/

/-- `n` base ticks after a time, at the lengths that R56 gives them while the demand outstanding is worked off. -/
def State.ticksOn (s : State) (t n : Nat) : Int :=
  t + 10 * ((n * s.ptn.running.basePeriod : Nat) + clampEase s.tick.demand (n * s.ptn.running.ease))

/-- The end of the `m`th base tick from the current one on, while no further edge comes: `m` is at least 1 (R55, R56). At a
boundary whose commit is still to be made the current base tick has no length yet. -/
def State.tickEnd (s : State) (m : Nat) : Int :=
  match s.tick.next with
  | some t => s.ticksOn t (m - 1)
  | none => s.ticksOn (s.tick.passed.headD s.now) m

/-- The aligned boundaries near a target: the last one passed and the next three, in order (R52, R55); before boundary 0 has
passed, it and those behind it. -/
def State.alignedNear (s : State) : List Int :=
  let k := max 1 s.ptn.running.syncRatio
  if s.tick.en then
    let r := s.tickNo % k
    [(s.tick.passed.getD r s.tick.begun : Nat), s.tickEnd (k - r), s.tickEnd (2 * k - r), s.tickEnd (3 * k - r)]
  else
    let t := s.tick.next.getD s.now
    [(t : Int), s.ticksOn t k, s.ticksOn t (2 * k)]

/-- The time nearest a target, the earlier among equals. -/
def nearest (t : Int) (xs : List Int) : Int :=
  match xs with
  | [] => t
  | x :: r => r.foldl (fun b y => if (t - y).natAbs < (t - b).natAbs then y else b) x

/-- An edge of the reference is accepted at its arrival (R54, R55, R58, R60): the first after the request for READY sets boundary
0, and those behind it are measured. Before that request an edge is counted only. -/
def State.edgeAccepted (s : State) (arrival : Int) : State :=
  let s := (s.rAdd Reg.TICK_SYNC_STAT 15 0 1)
  let s := { s with tick := { s.tick with lastEdge := some arrival.toNat } }
  let target := arrival + 10 * (s.ptn.running.syncOffset : Int)
  if s.tick.waitEdge then
    let late := decide (target < s.now)
    { s with tick := { s.tick with
      waitEdge := false, refFrom := s.now, next := some (if late then s.now else target.toNat),
      demand := if late then (target - s.now) / 10 else s.tick.demand,
      lastErr := some (if late then (target - s.now) / 10 else 0) } }
  else if s.tick.en || s.tick.next.isSome then
    let e := (target - nearest target s.alignedNear) / 10
    { s with tick := { s.tick with demand := e, lastErr := some e, syncLost := false, refFrom := s.now } }
  else s

/-- SYNC_IN_EDGE: an edge of the polarity in force, taken at its arrival before the filter (R52, R54, R382). A level held for fewer
bus cycles than the filter asks is ignored (R439). -/
def execSyncInEdge (falling : Bool) (cycles : Nat) (s : State) : Res :=
  let t := s.ptn.running
  let arrival : Int := (s.now / 10 * 10 : Nat) - 10 * (max 1 (s.rf Reg.IRQ_FILT 7 0) : Nat)
  let soon := match s.tick.lastEdge with
    | some l => decide (arrival < (l : Int) + 40000)
    | none => false
  let u := s.pinLevel 0 (!falling)
  .next (if !s.passes 0 cycles then s
    else if t.syncSrc ≠ 1 ∨ t.syncEdge ≠ falling then u
    else if soon then u.rAdd Reg.TICK_SYNC_STAT 31 16 1
    else u.edgeAccepted arrival)

/-- SYNC_LOST_TIMEOUT: 2 × K base periods without an accepted edge; a wait for boundary 0 ends there (R58, R60). Where a commit has
set SRC to 0 during that wait, nothing ends it (DESIGN CHOICE, log entry 63). -/
def execSyncLostTimeout (s : State) : Res :=
  let t := s.ptn.running
  .next (if t.syncSrc = 0 ∨ s.tick.syncLost ∨ (!s.tick.en ∧ !s.tick.waitEdge) then s
    else
      let s := s.at (s.tick.refFrom + 20 * t.syncRatio * t.basePeriod)
      let wait := s.tick.waitEdge
      let s := { s with tick := { s.tick with
        syncLost := true, waitEdge := false, next := if wait then some s.now else s.tick.next } }
      (s.evSet Reg.TICK_STATUS 4).raise 130)

/-! ## Slates -/

/-- TAIL of a slate. -/
def State.slateTail (s : State) (p : Nat) : Nat := leNat (readCells s.bar4 (ctlPage p) 4) % 4096

/-- HEAD of a slate. -/
def State.slateHead (s : State) (p : Nat) : Nat := leNat (readCells s.bar4 (ctlPage p + 4) 4) % 4096

/-- The words of a slate entry (Table 3.4). -/
def State.slateEntry (s : State) (p i : Nat) : List Word :=
  wordsOf (readCells s.bar4 (ctlPage p + 0x40000 + 64 * i) 64) 16

/-- A completion that the device writes for an entry it cancels or refuses (R65, Table 3.6). Its PROGRAM bytes, which Table 3.6
gives to the tick program alone, are zero (DESIGN CHOICE, log entry 63). -/
def deviceComp (e : List Word) (tick status : Nat) : Comp :=
  ⟨[e.getD 0 0, e.getD 1 0, BitVec.ofNat 32 tick, BitVec.ofNat 32 (tick / 2 ^ 32), BitVec.ofNat 32 status] ++
    List.replicate 11 0, false, false⟩

/-- The admission procedure of R65: `n` entries more may be taken, from HEAD `h` up to TAIL. The answer is the new HEAD. -/
def State.admitFrom (s : State) (p tail : Nat) : Nat → Nat → Nat × State
  | 0, h => (h, s)
  | n + 1, h =>
    if h = tail then (h, s)
    else
      let e := s.slateEntry p h
      let cost := (e.getD 4 0).toNat % 2 ^ 24
      let budget := s.ptn.running.residentBudget p
      let next := (h + 1) % 4096
      let done := fun (status : Nat) =>
        s.partMap p (fun x => { x with backlog := x.backlog ++ [deviceComp e s.tickNo status] })
      if bitOf (e.getD 5 0).toNat 0 then (done 2).admitFrom p tail n next
      else if cost = 0 ∨ budget < cost then (done 3).admitFrom p tail n next
      else if budget < s.rf (Reg.TICK_RESIDENT + 0x20 * p) 23 0 + cost then (h, s)
      else
        let tag := (e.getD 0 0).toNat + 2 ^ 32 * (e.getD 1 0).toNat
        let s := s.partMap p (fun x => { x with admitted := x.admitted ++ [⟨e⟩] })
        (s.setResidents p ((s.part p).residents ++ [(tag, cost)])).admitFrom p tail n next

/-- The ages of the posted entries after a boundary that leaves `n` of them, of which `taken` older ones are gone (R74). -/
def agesAfter (ages : List Nat) (taken n : Nat) : List Nat :=
  (List.range n).map (fun i => min 0xFFFF (((ages.drop taken).getD i 0) + 1))

/-- LAG_TICKS from the ages, its copy in the control page, and the OVERLOAD trigger (R74, R75). -/
def State.setLag (s : State) (p : Nat) (ages : List Nat) : State :=
  let lag := ages.headD 0
  let n := s.ptn.running.overloadTicks p
  let was := (s.part p).overloaded && lag != 0
  let fires := n != 0 && decide (n ≤ lag) && !was
  let s := s.partMap p (fun x => { x with ages := ages, overloaded := was || fires })
  let s := (s.rfSet (Reg.TICK_LAG + 0x20 * p) 15 0 lag).ctlSet p 0xC 4 lag
  if fires then (s.evSet Reg.TICK_OVLD p).raise (32 + p) else s

/-- Admission at a boundary that begins a step, under the sample `tail` of TAIL: HEAD, DEFERRED, ADMIT_TICK and LAG follow (R64,
R65, R74, Table 3.3). -/
def State.admission (s : State) (p tail : Nat) : State :=
  let head := s.slateHead p
  let (h, s) := s.admitFrom p tail (s.ptn.running.admitPerTick p) head
  let left := (tail + 4096 - h) % 4096
  let s := ((s.ctlSet p 4 4 h).ctlSet p 8 4 left).ctlSet p 0x10 8 s.tickNo
  let s := s.rfSet (Reg.TICK_LAG + 0x20 * p) 27 16 left
  s.setLag p (agesAfter (s.part p).ages ((h + 4096 - head) % 4096) left)

/-! ## Steps -/

/-- Is the tick number an own boundary of `Pp` (R49)? -/
def State.ownBoundary (s : State) (p : Nat) : Bool :=
  let d := s.ptn.running.divisor p
  d != 0 && s.tickNo % d == s.ptn.running.phase p

/-- Is the boundary passed while halted (R76, R380)? -/
def State.haltedNow (s : State) : Bool := s.tick.halted || s.tick.haltLeft == some s.now

/-- Is a partition holding (R41, R76, R399, Table 21.4)? -/
def State.holding (s : State) (p : Nat) : Bool :=
  !(s.part p).running && ((s.part p).held || (s.part p).stopped || s.haltedNow || s.pairHeld p)

/-- Is the core under measurement (R419)? -/
def State.measuringCore (s : State) (phys : Nat) : Bool :=
  match s.thm.alt with
  | some a => a.measuring.isSome && a.queue.head? == some phys
  | none => false

/-- The supervisor groups of a step start, on every core that the step includes and that is still up (R168, R404, R419). -/
def State.startSupervisors (s : State) (p : Nat) : State :=
  (s.coresOf p).foldl (fun u c =>
    let ph := u.ptn.running.physCore c
    if (s.part p).starts.contains ph ∧ (u.dom ph).st = .up then u.groupSet (gix c 0) (newGroup (u.ptn.running.tickEntry p)) else u) s

/-- The measurement whose turn has come starts at an own boundary of `Pp` where its core is one of `Pp` and idle (R419, R420). -/
def State.maintenance (s : State) (p : Nat) : State :=
  match s.thm.alt with
  | none => s
  | some a =>
    match a.queue, a.measuring with
    | ph :: _, none =>
      let idle := fun c => (List.range 64).all (fun k => (s.group (gix c k)).st == .free) &&
        (s.core c).queue.isEmpty && (s.core c).run.isEmpty
      if (s.dom ph).st == .up && s.measurable ph && (s.coresOf p).any (fun c => s.ptn.running.physCore c == ph && idle c) then
        { s with thm := { s.thm with alt := some { a with measuring := some s.now } } }
      else s
    | _, _ => s

/-- A step of `Pp` begins (R49, R64, R65, R168, R178, R236, R303, R351, R401). With `commit` the boundary is a commit boundary,
at which TAIL was sampled before COMMIT. -/
def State.beginStep (s : State) (p : Nat) (commit : Bool) : State :=
  let s := s.rAdd64 (Reg.TICK_STEPNO + 0x20 * p) 1
  let dip := s.pwr.windows.any (fun w => s.onRail p w.1)
  let s := s.partMap p (fun x => { x with
    running := true, late := false, skipped := 0, boundary := s.tickNo, began := s.now, admitted := [], fitClosed := false,
    mirroring := false, supply := dip, startDue := x.cutCopy })
  let s := ((s.admission p (if commit then (s.part p).tail else s.slateTail p)).pinApply p).sendMarks p
  let s := s.jigRelease p
  let s := (s.coresOf p).foldl (fun u c => u.coreMap c (fun x => { x with ccache := [], dcache := [] })) s
  let starts := ((s.coresOf p).map s.ptn.running.physCore).filter (fun ph => (s.dom ph).st == .up && !s.measuringCore ph)
  let s := s.partMap p (fun x => { x with starts := starts })
  if (s.part p).cutCopy then s else s.startSupervisors p

/-- An own boundary skipped by a step that still runs (R71, R72, R74). -/
def State.skipStep (s : State) (p : Nat) : State :=
  let x := s.part p
  let first := !x.late
  let s := (s.partSet p { x with late := true, skipped := min 0xFFFF (x.skipped + 1) }).rAdd (Reg.TICK_OVER + 0x20 * p) 31 0 1
  let s := if first then
      (s.err eTickOver (unitId 0 0) (some p) 0 (s.rg64 (Reg.TICK_STEPNO + 0x20 * p) - 1)).raise (16 + p)
    else s
  s.setLag p (agesAfter x.ages 0 ((s.slateTail p + 4096 - s.slateHead p) % 4096))

/-! ## Fenced cores of a partition (R318, R399) -/

/-- A partition stops for want of a spare (R399). -/
def State.stopPart (s : State) (p : Nat) : State :=
  if (s.part p).stopped then s
  else
    let s := (s.partMap p (fun x => { x with stopped := true })).rbSet Reg.PWR_STOPPED p true
    (s.supplyRec 4 p 0 (some p)).pwrEvt 3

/-- A spare takes the place of a fenced core behind logical core `c` (R318). -/
def State.substitute (s : State) (p c old new : Nat) : State :=
  let s := s.deviceChange (fun t => (t.setCore c new).takeSpare p)
  let s := ((s.coresMove [(c, old, new)]).coreClear c).powerAsk new
  let n := (s.rf Reg.NET_SUBST 31 24 + 1) % 256
  let s := s.rgSet Reg.NET_SUBST (BitVec.ofNat 32 (p + 2 ^ 4 * old + 2 ^ 11 * new + 2 ^ 18 * c + 2 ^ 24 * n))
  (s.evSet Reg.NET_EVT 3).raise 138

/-- The cores of `Pp` that were fenced before this boundary: a spare each, or the partition stops (R318, R399). -/
def State.serveFences (s : State) (p : Nat) (fenced : List Nat) : State :=
  (s.coresOf p).foldl (fun u c =>
    let t := u.ptn.running
    let ph := t.physCore c
    if !fenced.contains ph then u
    else match (if t.spareCores p = 0 then none else spareFor ph (u.spares t)) with
      | some q => u.substitute p c ph q
      | none => u.stopPart p) s

/-- An own boundary of an enabled partition: fenced cores, a measurement unless a commit falls there too (R420), then nothing in a
halt, a skip in an overrun, nothing in a hold, or a step. -/
def State.ownStep (s : State) (fenced : List Nat) (p : Nat) : State :=
  let s := s.serveFences p fenced
  let s := if s.ptn.commitDue then s else s.maintenance p
  let x := s.part p
  if s.haltedNow then s
  else if x.running then s.skipStep p
  else if x.held || x.stopped || x.resetting || s.pairHeld p then s
  else s.beginStep p false

/-! ## Hold -/

/-- The affected partitions enter hold; where every one of them holds, this is the commit boundary (R41, R42). -/
def State.holdStage (s : State) : State :=
  match s.ptn.phase, s.ptn.staged with
  | .armed, some t =>
    let aff := affectedParts s.ptn.running t
    let s := aff.foldl (fun u p =>
      if u.ownBoundary p && !(u.part p).running then u.partMap p (fun x => { x with held := true }) else u) s
    { s with ptn := { s.ptn with commitDue := aff.all s.holding } }
  | _, _ => s

/-- TAIL of every slate sampled at a boundary at which a commit is due, for the steps that begin there (R42, R64). -/
def State.sampleTails (s : State) : State :=
  if s.ptn.commitDue then (List.range 16).foldl (fun u p => u.partMap p (fun x => { x with tail := u.slateTail p })) s else s

/-! ## The commit -/

/-- The fit id's owner and the address of its table entry in a pattern (R146, R157). -/
def Pat.fitPlace (t : Pat) (f : Nat) : Option (Nat × Nat) :=
  (t.enabledParts.find? (fun p => t.ownsFit p f)).map (fun p => (p, t.fitTable p + 32 * (f - t.fitBase p)))

/-- Does the interleave of `Pp` change with a commit: its pseudo-channels, or the physical ones behind them (R269, R317)? -/
def interleaveMoves (old new : Pat) (p : Nat) : Bool :=
  old.pchMask p != new.pchMask p ||
    (setBits (old.pchMask p) 768).any (fun n => old.pchEnt n != new.pchEnt n)

/-- May the home hash of `Pp` change (R225)? -/
def hashMoves (old new : Pat) (p : Nat) : Bool :=
  old.sliceMask p != new.sliceMask p || (old.slices p).any (fun sl => old.sliceEnt sl != new.sliceEnt sl)

/-- Does the home hash or the span of `Pp` change (R227, R317)? -/
def homesMove (old new : Pat) (p : Nat) : Bool := hashMoves old new p || old.spanBase p != new.spanBase p

/-- What a commit does under the old pattern: pinned ways and lines that move are written back, or lost with the contents of
a moved interleave; partitions that undergo turnover are scrubbed (R227, R235, R269, R453). -/
def State.commitOut (s : State) (old new : Pat) : State :=
  let both := old.enabledParts.filter (fun p => new.enabled p && !turnsOver old new p)
  let s := s.relayOut old new
  let s := both.foldl (fun u p =>
    if interleaveMoves old new p then ((u.strandLines p).dropLines p).hbmUndefined (u.interleave p)
    else if homesMove old new p then u.rehomeLines p else u) s
  (old.enabledParts.filter (turnsOver old new)).foldl (fun u p => u.scrubPart p) s

/-- Condemned pseudo-channels that no PCH_MASK names any more are mapped out, but for those condemned in the cycle of this commit
(R268, R269). -/
def State.mapOut (s : State) (t : Pat) : State :=
  let ns := (List.range 768).filter (fun n => s.maskBit Reg.HBM_PEND n && !s.hbm.fresh.contains n &&
    !(List.range 16).any (fun p => bitOf (t.pchMask p) n))
  ns.foldl (fun u n =>
    let u := (u.rbSet (Reg.HBM_PEND + 4 * (n / 32)) (n % 32) false).rbSet (Reg.HBM_MAPPED + 4 * (n / 32)) (n % 32) true
    { u with nor := { u.nor with mapOut := if u.nor.mapOut.contains n then u.nor.mapOut else u.nor.mapOut ++ [n] } }) s

/-- The memory side of a commit under the new pattern: map-outs, contents that are undefined, ways, keys, new tenants (R235,
R236, R269, R451, R453, R483). -/
def State.commitMemory (s : State) (old new : Pat) : State :=
  let gone := (List.range 16).filter (turnsOver old new)
  let before := s.capacity
  let s := s.mapOut new
  let moved := (List.range 16).any (fun p => old.enabled p != new.enabled p ||
    (new.enabled p && (old.pchMask p != new.pchMask p || old.spanBase p != new.spanBase p))) || s.capacity != before ||
    s.idleSet.any (fun n => old.pchEnt n != new.pchEnt n)
  let both := new.enabledParts.filter (fun p => old.enabled p && interleaveMoves old new p)
  let s := both.foldl (fun u p => u.hbmUndefined (u.interleave p)) s
  let s := if moved then s.hbmUndefined s.idleSet else s
  let s := s.relayClear old new
  let s := match s.lin.pinCmd with
    | some (_, i) => if sameRange old new 3 0 (regionOff i) 32 then s else s.pinCancel
    | none => s
  let s := s.rekey ((gone.filter old.enabled).map old.keySlot)
  let s := (gone.filter new.enabled).foldl (fun u p => u.scrubPart p) s
  (List.range 16).foldl (fun u p =>
    if new.enabled p && (!old.enabled p || hashMoves old new p) then
      u.partMap p (fun x => { x with hashGen := x.hashGen + 1 }) else u) (s.turnoverDone gone)

/-- The cores, channels, fit records and regulators of a commit (R20, R124, R157, R171, R309, R317, R337). -/
def State.commitUnits (s : State) (old new : Pat) : State :=
  let s := s.coresMove (((List.range 64).filter (fun c => old.physCore c != new.physCore c)).map
    (fun c => (c, old.physCore c, new.physCore c)))
  let s := (List.range 64).foldl (fun u c =>
    if old.coreOwner c ≠ new.coreOwner c ∨ old.physCore c ≠ new.physCore c then
      let n := (u.core c).proofQ.length
      let u := match old.coreOwner c with
        | some p => (u.dropTaken c (some p)).proofDropped p n
        | none => u
      (({ u with groups := mclear u.groups (gix c 0) 64 }).coreMap c (fun x => { x with proofQ := [] })).coreClear c
    else if bitOf (old.coreSet c) 0 ≠ bitOf (new.coreSet c) 0 then u.coreMap c (fun x => { x with activeSet := [] })
    else u) s
  let s := (List.range 320).foldl (fun u ch => if old.chanOwner ch ≠ new.chanOwner ch then u.jigClear ch else u) s
  let s := (List.range 4096).foldl (fun u f =>
    if old.fitPlace f = new.fitPlace f then u else u.fitClear f ((new.fitPlace f).map (·.1))) s
  if sameSec old new 5 0 then s else s.regRestart

/-- The physical cores of a pattern that its enabled partitions own. -/
def Pat.ownedPhys (t : Pat) : List Nat := sortNat (((List.range 64).filter (fun c => (t.coreOwner c).isSome)).map t.physCore)

/-- A core that no partition owns any more is powered down; one whose clock has stopped keeps its state until it is fenced (R395,
R398). -/
def State.giveUp (s : State) (p : Nat) : State :=
  if (s.dom p).st = .fenced ∨ (s.dom p).st = .stopped then s else s.powerDown p .unpowered

/-- The core domains of a commit: marked cores retire, owned cores are powered, and after READY those given up are not (R319,
R395, R403, R420, R422). -/
def State.commitPower (s : State) (old new : Pat) : State :=
  let marked := s.nor.marked
  let s := { s with nor := { s.nor with retired := sortNat (s.nor.retired ++ marked), marked := [] } }
  let s := marked.foldl State.giveUp s
  let s := match s.thm.alt with
    | some a =>
      match a.measuring, a.queue with
      | some _, p :: rest =>
        let behind := fun (t : Pat) => (List.range 64).find? (fun c => t.physCore c == p)
        let owner := fun (t : Pat) => (behind t).bind t.coreOwner
        if behind old = behind new ∧ owner old = owner new then s else (s.altOff a p).altNext a rest (a.retry ++ [p])
      | _, _ => s
    | none => s
  let s := if !s.tick.en then s
    else (old.ownedPhys.filter (fun p => !new.ownedPhys.contains p)).foldl State.giveUp s
  (new.ownedPhys.foldl (fun u p => u.powerAsk p) s).altGo

/-- The tick logic's side of a commit: the reference (R58, R60), cutting lists to copy (R283), the next base tick. A commit that
changes SRC, to another source that is not 0 as well, starts the interval of R58 afresh (DESIGN CHOICE, log entry 63). -/
def State.commitTick (s : State) (old new : Pat) : State :=
  let src := new.syncSrc
  let s := { s with tick := { s.tick with
    syncLost := s.tick.syncLost && src != 0
    refFrom := if src ≠ old.syncSrc then s.now else s.tick.refFrom } }
  let s := new.enabledParts.foldl (fun u p =>
    if sameSec old new 8 p && old.enabled p then u else u.partMap p (fun x => { x with cutCopy := true })) s
  if s.tick.en then s.beginTick else s

/-- The epochs, stops and registers of the partitions that a commit affects (R43, R359, R399). -/
def State.commitParts (s : State) (aff : List Nat) : State :=
  aff.foldl (fun u p =>
    ((u.rAdd (Reg.PTN_EPOCH + 4 * p) 15 0 1).moveRequests p).partMap p (fun x => { x with stopped := false })
      |>.rbSet Reg.PWR_STOPPED p false) s

/-- The PTN block's side of a commit (R43, R45, R46, R446, R455, R459, Table 2.21). -/
def State.commitBook (s : State) (old new : Pat) (aff : List Nat) : State :=
  let s := match s.ptn.token with
    | some k => if s.needsToken old new then s.tokUsed k.seq else s
    | none => s
  let s := s.ptnResult 0 0 3 false none
  let s := s.rg64Set Reg.PTN_COMMIT_TICK (if s.tick.en then s.tickNo else 0)
  let s := (s.rAdd Reg.PTN_SEWCOUNT 31 0 1).rg64Set Reg.PTN_ACTIVE_ID new.id
  let s := s.rfSet Reg.PTN_AFFECTED 15 0 ((aff.map (2 ^ ·)).sum)
  let first := !s.ptn.committed
  let s := { s with ptn := { s.ptn with committed := true } }.dropBasting
  let s := { s with esc := { s.esc with
    debug := if s.esc.debug = 1 ∧ new.maxLevel < 1 then 0 else s.esc.debug } }
  if !first then s
  else
    let again := s.rf Reg.BRUP_STATUS 3 0 == 6 && s.rf Reg.BRUP_STATUS 5 4 == 1
    ((if again then s else (s.rfSet Reg.BRUP_STATUS 3 0 7).rfSet Reg.BRUP_STATUS 5 4 2).evSet Reg.BRUP_EVT 0).raise 150

/-- The first steps of the affected partitions under the new pattern; a partition whose step a FULL unlock cut short begins it
again (R42, R51, R76, R455). -/
def State.firstSteps (s : State) (aff : List Nat) : State :=
  let t := s.ptn.running
  let began := t.enabledParts.filter (fun p => (s.part p).running && (s.part p).boundary == s.tickNo)
  let s := s.applyUnlock
  (List.range 16).foldl (fun u p =>
    let x := u.part p
    if t.enabled p && (aff.contains p || began.contains p) && !x.running && !x.resetting && !u.haltedNow && !u.pairHeld p then
      u.beginStep p true else u) s

/-- A pattern without the PROGRAMS and CUTTING sections of partitions that it leaves disabled (R26). -/
def Pat.kept (t : Pat) : Pat :=
  { t with secs := t.secs.filter (fun e => !((e.1 / 16 == 8 || e.1 / 16 == 9) && !t.enabled (e.1 % 16))) }

/-- The commit boundary: every staged change takes effect at once, or the sew is unpicked, with LOST, or with what the staged copy
fails after a pseudo-channel left it while ARMED (R32, R38 to R46, R268). -/
def State.doCommit (s : State) : State :=
  match s.ptn.staged with
  | none => s
  | some t =>
    let d := if s.lostNow t then dLost else if s.ptn.recheck then s.validate t else 0
    if d ≠ 0 then
      let s := s.unpickWith ePtnInvalid d 3 none
      if s.tick.en then s.beginTick.applyRelock.applyUnlock else s
    else
      let before := s
      let old := s.ptn.running
      let new : Pat := { t.kept with pins := commitPins old t }
      let aff := affectedParts old new
      let need := s.commitOut old new
      let s : State := { need with ptn := { need.ptn with running := new } }
      let s := ((s.commitParts aff).commitMemory old new).commitUnits old new
      let s := (if sameSec old new 5 0 then s.regAdjust before else s).lateGo
      let s := (s.commitPower old new).commitTick old new
      let s := s.commitBook old new aff
      let s := if s.tick.en then s.applyRelock else s
      if s.tick.en then s.firstSteps aff else s

/-- COMMIT: at the commit boundary, or before READY as soon as validation has passed (R42, R45). -/
def execCommit (s : State) : Res := .next (if s.ptn.phase = .armed ∧ s.ptn.commitDue then s.doCommit else s)

/-- CUTTING_LIST_COPY: once the partition's earlier PANEL commands are complete, its list area goes to CUT_BASE; then the tick
program that waits starts (R283). -/
def execCuttingListCopy (p : Fin 16) (s : State) : Res :=
  let n := p.val
  let busy := (s.coresOf n).any (fun c => !(s.core c).queue.isEmpty || !(s.core c).run.isEmpty)
  .next (if !(s.part n).cutCopy || busy then s
    else s.together (fun s =>
      let t := s.ptn.running
      let len := t.areaLen n
      let (code, s) := (lineCuts (t.cutBase n) len).foldl (fun (x : Nat × State) q =>
        let (c, u) := x.2.memWrite .device (some n) q.1 (readCells (t.sec 8 n).bytes (0x40 + q.1 - t.cutBase n) q.2) .clean
        (if x.1 = 0 then c else x.1, u)) (0, s)
      let s := if code = 0 then s else s.err code (unitId 0 0) (some n) 0 0
      let due := (s.part n).startDue
      let s := s.partMap n (fun x => { x with cutCopy := false, startDue := false })
      if due && (s.part n).running then s.startSupervisors n else s))

/-! ## Base boundaries -/

/-- What boundary 0 does besides: ticks run, automatic alterations count from here, unowned cores are powered down, but for
one whose clock has stopped, which is fenced (R48, R395, R398, R418, R459). -/
def State.firstBoundary (s : State) : State :=
  let owned := s.ptn.running.ownedPhys
  let s := { s with tick := { s.tick with en := true }, thm := { s.thm with altFrom := some s.now } }
  (List.range 72).foldl (fun u p =>
    let st := (u.dom p).st
    if owned.contains p || st == .unpowered || st == .fenced || st == .stopped then u else u.powerDown p .unpowered) s

/-- A base boundary at its time (R48, R56, R325, R332, R474, R480, R455). -/
def State.boundary (s : State) : State :=
  let fenced := s.nor.fenced
  let s := if s.tick.en then s.rAdd64 Reg.TICK_COUNT 1 else s.firstBoundary
  let s := { s with tick := { s.tick with next := none, passed := (s.now :: s.tick.passed).take 65536 } }
  let s := ((((s.eachEntry State.regEnd).serviceLanes.windowBegin).lateGo).powerBoundary).altGo
  let (takeover, s) := s.pairBoundary
  let s := s.sendBeats.holdStage.sampleTails
  let s := if s.ptn.commitDue then s else s.beginTick.applyRelock.applyUnlock
  let s := if takeover && !s.haltedNow then
      s.protectedParts.foldl (fun u p =>
        if (u.part p).running || (u.part p).held || (u.part p).stopped || (u.part p).resetting then u
        else (u.partMap p (fun x => { x with tail := u.slateTail p })).beginStep p true) s
    else s
  (s.ptn.running.enabledParts.filter (fun p => s.ownBoundary p && !(takeover && (s.part p).boundary == s.tickNo && (s.part p).running))).foldl
    (fun u p => u.ownStep fenced p) s

/-- BASE_BOUNDARY: the base tick ends. A commit that is due comes first; before READY, and while boundary 0 awaits its edge,
there is no boundary (R48, R60). -/
def execBaseBoundary (s : State) : Res :=
  let s := if s.tick.en && s.ptn.commitDue then s.doCommit else s
  .next (match s.tick.next with
    | none => s
    | some t => (s.at t).boundary)

end Sys2Proof.Machine
end

