-- ==== Sys2Proof/Machine/Bringup.lean ====
section
/-! DEFINITION. Bring-up, and the resets of partitions, cores, compute dies and stacks (R459 to R472). -/

namespace Sys2Proof.Machine

/-! ## Steps of bring-up (R459) -/

/-- A BRUP command refused (Table 21.6). -/
def State.brupRefused (s : State) : State := s.evSet Reg.BRUP_STATUS 16

/-- The BRUP interrupt source with a bit of BRUP.EVT. -/
def State.brupEvt (s : State) (i : Nat) : State := (s.evSet Reg.BRUP_EVT i).raise 150

/-- The current or last step, and its state. -/
def State.brupStep (s : State) : Nat × Nat := (s.rf Reg.BRUP_STATUS 3 0, s.rf Reg.BRUP_STATUS 5 4)

/-- May step `n` start: the step before it ended DONE and it has not been started, or it is step 6, which has ended; after a FAIL of
another step none, and after a FAIL of step 6 only step 6 (R459)? While another step than 7 runs, none (DESIGN CHOICE, log
entry 41). -/
def State.stepMay (s : State) (n : Nat) : Bool :=
  let (last, st) := s.brupStep
  let before := if n = 8 then s.ptn.committed else decide (1 ≤ n) && s.brup.ended.contains (n - 1)
  !(st == 1 && last != 7) &&
    ((before && st != 3 && !s.brup.started.contains n) || (n == 6 && s.brup.started.contains 6 && !(st == 3 && last != 6)))

/-- GO for a step: taken from a physical function where the step may start; its first actions follow (R459). -/
def State.brupGo (s : State) (f : Func) (n : Nat) (body : State → State) : State :=
  if !isPf f then s
  else if !s.stepMay n then s.brupRefused
  else
    let s := { s with brup := { s.brup with
      started := if s.brup.started.contains n then s.brup.started else n :: s.brup.started,
      since := s.now, katDone := if n = 6 then false else s.brup.katDone } }
    body (((s.rfSet Reg.BRUP_STATUS 3 0 n).rfSet Reg.BRUP_STATUS 5 4 1).rfSet Reg.BRUP_STATUS 15 8 0)

/-- A step ends: DONE, or FAIL with a detail (R459). -/
def State.stepEnd (s : State) (detail : Nat) : State :=
  let n := s.brupStep.1
  let s := if detail = 0 then { s with brup := { s.brup with ended := n :: s.brup.ended.filter (· != n) } } else s
  ((s.rfSet Reg.BRUP_STATUS 5 4 (if detail = 0 then 2 else 3)).rfSet Reg.BRUP_STATUS 15 8 detail).brupEvt 0

/-- DOWEL: training begins (Table 21.1). -/
def execDowel (f : Func) (s : State) : Res :=
  .next (s.inOrder f (.dowel f) (fun s =>
    s.brupGo f 1 id))

/-- A pseudo-channel mapped out: HBM.MAPPEDw and the list of NOR (R269). -/
def State.mapOutNow (s : State) (n : Nat) : State :=
  let s := s.rbSet (Reg.HBM_MAPPED + 4 * (n / 32)) (n % 32) true
  { s with nor := { s.nor with mapOut := if s.nor.mapOut.contains n then s.nor.mapOut else s.nor.mapOut ++ [n] } }

/-- DARN: what NOR records is applied, and failed lanes of step 1 are darned (R269, R321, R324, R397, R398, Table 21.1). Plans,
phases, retirements and defects are read where they stand. -/
def execDarn (f : Func) (s : State) : Res :=
  .next (s.inOrder f (.darn f) (fun s =>
    (s.brupGo f 2 (fun s =>
      let s := s.nor.mapOut.foldl State.mapOutNow s.applyDarnMap
      let s := s.nor.fenced.foldl (fun u p => u.domSet p { u.dom p with st := .fenced }) s
      s.darnLanes))))

/-- HBM: training begins (Table 21.1). -/
def execHbm (f : Func) (s : State) : Res :=
  .next (s.inOrder f (.hbm f) (fun s =>
    s.brupGo f 3 id))

/-- LINING: every sector and directory state is cleared (R245, Table 21.1). -/
def execLining (f : Func) (s : State) : Res :=
  .next (s.inOrder f (.lining f) (fun s =>
    s.brupGo f 4 State.clearLining))

/-! ## The default veneer (R461) -/

/-- The physical cores that can serve. -/
def State.usableCores (s : State) : List Nat := (List.range 72).filter (fun p => !s.coreLost p)

/-- The defective banks of a physical slice, 264 × die + slice. -/
def State.badBanksOf (s : State) (k : Nat) : List Nat :=
  (List.range 9).filter (fun b => s.fuses.badBanks.contains (9 * k + b) || s.nor.badBanks.contains (9 * k + b))

/-- The physical slices of a die that can serve: not defective, with at most one defective bank. -/
def State.usableSlices (s : State) (die : Nat) : List Nat :=
  (List.range 264).filter (fun i =>
    let k := 264 * die + i
    !s.fuses.badSlices.contains k && !s.nor.badSlices.contains k && decide ((s.badBanksOf k).length ≤ 1))

/-- The entry of a physical slice: its ninth bank in place of its defective one (Table 14.2). -/
def State.sliceEntry (s : State) (die i : Nat) : Nat :=
  match s.badBanksOf (264 * die + i) with
  | b :: _ => if b < 8 then i + 2 ^ 9 * b + 2 ^ 12 else i
  | [] => i

/-- The VENEER section of the default veneer (Table 14.2). -/
def State.defaultVeneer (s : State) : Sect :=
  let cores := (s.usableCores.take 64).map (BitVec.ofNat 8)
  let slices := ((List.range 6).map (fun k => ((s.usableSlices k).take 256).map (fun i => leBytes (s.sliceEntry k i) 2))).flatten.flatten
  let pchs := (List.range 768).map (fun n => BitVec.ofNat 8 (n % 64))
  { len := 3968, bytes := writeCells (writeCells (writeCells [] 0x40 cores) 0x80 slices) 0xC80 pchs }

/-- What keeps the default veneer from being met: CORES, SLICES, or 0 for nothing (R461). -/
def State.veneerDetail (s : State) : Nat :=
  if s.usableCores.length < 64 then 4
  else if (List.range 6).any (fun k => decide ((s.usableSlices k).length < 256)) then 5
  else 0

/-- The default veneer put in force, where it can be met. -/
def State.applyVeneer (s : State) : State :=
  if s.veneerDetail ≠ 0 then s
  else { s with ptn := { s.ptn with running := { s.ptn.running with secs := mput s.ptn.running.secs (secKey 2 0) s.defaultVeneer } } }

/-- VENEER: the default veneer, and power for every usable core (R403, R461). -/
def execVeneer (f : Func) (s : State) : Res :=
  .next (s.inOrder f (.veneer f) (fun s =>
    s.brupGo f 5 (fun s => s.usableCores.foldl (fun u p => u.powerAsk p) s.applyVeneer)))

/-- KAT: the runs begin (R460). -/
def execKat (f : Func) (s : State) : Res :=
  .next (s.inOrder f (.kat f) (fun s =>
    s.brupGo f 6 id))

/-- READY: boundary 0 is set: at once without a reference, else at the target of its first edge (R48, R60). -/
def execReady (f : Func) (s : State) : Res :=
  .next (s.inOrder f (.ready f) (fun s =>
    (s.brupGo f 8 (fun s =>
      if s.ptn.running.syncSrc = 0 then { s with tick := { s.tick with next := some s.now } }
      else { s with tick := { s.tick with waitEdge := true, refFrom := s.now } }))))

/-! ## Step ends -/

/-- Limits of the steps, in ns (Table 21.1). -/
def State.stepLimit (s : State) (n : Nat) : Nat :=
  match n with
  | 0 => 2000000000
  | 1 => 50000000
  | 2 => 20000000
  | 3 => 500000000
  | 4 => 1000000
  | 5 => 10000000
  | 6 => 200000000
  | _ => 20 * s.ptn.running.syncRatio * s.ptn.running.basePeriod + 1000000

/-- The trailer of the firmware image in NOR, laid out as in Table 2.4 (R442). -/
def State.fwTrailer (s : State) : List Byte := s.nor.firmware.drop (s.nor.firmware.length - trailerLen)

/-- The VENDOR slots that the firmware image names: of the RSA key and of the SLH-DSA key. -/
def State.fwSlots (s : State) : Nat × Nat := (leAt s.fwTrailer 4 1, leAt s.fwTrailer 5 1)

/-- What the verification of the firmware image in NOR ends with: 0, or a code of Table 20.1; the order is the model's (R442; DESIGN
CHOICE, log entry 37). -/
def State.bootCode (s : State) : Nat :=
  let img := s.nor.firmware
  let t := s.fwTrailer
  let (r, h) := s.fwSlots
  let signed := img.take (img.length - trailerLen + 0x40)
  if img.length < trailerLen ∨ leAt t 0 4 ≠ 0x54525746 ∨ !zeroAt t 6 58 then 0x0E02
  else if (s.slotOk 0 r && (s.rsaKey 0 r).isNone) || (s.slotOk 0 h && (s.slhKey 0 h).isNone) then 0x0E06
  else if !s.rsaOk 0 r signed (bytesAt t 0x40 384) then 0x0E03
  else if !s.slhOk 0 h signed (bytesAt t 0x1C0 16224) then 0x0E04
  else if Config.imageVersion img < s.fuses.svn then 0x0E05
  else 0

/-- What the verified image changes: the version floor, and VENDOR revocations but of the slots that verified it (R442). -/
def State.bootDone (s : State) : State :=
  let img := s.nor.firmware
  let mask := (List.range 4).filter (fun k => bitOf (Config.imageRevokes img) k && k != s.fwSlots.1 && k != s.fwSlots.2)
  let old := mget s.fuses.revoked 0 0
  { s with fuses := { s.fuses with
      svn := max s.fuses.svn (Config.imageVersion img)
      revoked := mset s.fuses.revoked 0 (Nat.lor old ((mask.map (2 ^ ·)).sum)) 0 } }

/-- The escutcheon halts with a boot code (R442). -/
def State.escHalt (s : State) (code : Nat) : State := { s with esc := { s.esc with boot := code } }

/-- The escutcheon's step ends: its self-test passed, and the firmware image is verified (R442, R459). -/
def State.bootEnd (s : State) : State := if s.bootCode = 0 then s.bootDone.stepEnd 0 else s.escHalt s.bootCode

/-- Lanes of a group of a direction that failed training. -/
def groupFails (bad : List Nat) (dir g : Nat) : Nat :=
  ((List.range 68).filter (fun l => bad.contains (544 * dir + 68 * g + l))).length

/-- Does a direction train fewer than 4 groups, spares used, when the lanes `bad`, 544 × direction + lane, fail (Table 21.1)? -/
def shortDir (bad : List Nat) (d : Nat) : Bool :=
  decide (((List.range 8).filter (fun g => decide (groupFails bad d g ≤ 4))).length < 4)

/-- DOWEL ends: `bad` are the lanes, 544 × direction + lane, that failed training; they are failed lanes. A direction with
fewer than 4 groups that train, spares used, fails the step (Table 21.1). -/
def State.dowelDone (s : State) (bad : List Nat) : State :=
  let dirs := (List.range 22).filter (fun d => s.dowelPresent (d / 2))
  let short := dirs.any (shortDir bad)
  let s := dirs.foldl (fun u d =>
    u.dowelSet d { u.dowel d with waiting := sortNat ((List.range 544).filter (fun l => bad.contains (544 * d + l))) }) s
  s.stepEnd (if short then 2 else 0)

/-- HBM ends: `bad` are the pseudo-channels that failed training; they are mapped out. A stack of which none trains fails the
step (R253, Table 21.1). -/
def State.hbmDone (s : State) (bad : List Nat) : State :=
  let gone := (List.range 768).filter (fun n => bad.contains n && s.fitted (n / 64))
  let s := gone.foldl State.mapOutNow s
  let dead := (List.range 12).any (fun m => s.fitted m && (List.range 64).all (fun q => gone.contains (64 * m + q)))
  s.stepEnd (if dead then 3 else 0)

/-- A failing physical core, by number below 72 (R460). -/
def State.katCore (s : State) (p : Nat) : State :=
  let s := s.rbSet (Reg.BRUP_KAT_CORE + 4 * (p / 32)) (p % 32) true
  { s with nor := { s.nor with badCores := if s.nor.badCores.contains p then s.nor.badCores else s.nor.badCores ++ [p] } }

/-- A failing unit other than a core in BRUP.KAT_UNIT (Table 21.6). -/
def State.katUnit (s : State) (id : Nat) : State :=
  let s := if s.rf Reg.BRUP_KAT_UNIT 31 16 = 0 then s.rfSet Reg.BRUP_KAT_UNIT 15 0 id else s
  s.rSat Reg.BRUP_KAT_UNIT 31 16 1

/-- The unit id of a physical slice: that of the logical slice it serves; of one that serves none, the low bits are free. -/
def State.katSlice (s : State) (k : Nat) : State :=
  let die := k / 264
  match (List.range 256).find? (fun i => s.ptn.running.sliceEnt (256 * die + i) % 512 == k % 264) with
  | some i => s.katUnit (unitId 3 (256 * die + i))
  | none => ({ s with free := s.free + 1 } : State).katUnit (unitId 3 (256 * die + Config.pick s.free % 256))

/-- A failure of the known-answer runs: a core below 72; a slice as 1,000 + 264 × die + slice; a bank as 10,000 + 9 × slice +
bank; any other unit as 2^16 + its id (R460). -/
def State.katFail (s : State) (x : Nat) : State :=
  if x < 72 then s.katCore x
  else if x < 1000 then s
  else if x < 2584 then
    let k := x - 1000
    let s := s.katSlice k
    { s with nor := { s.nor with badSlices := if s.nor.badSlices.contains k then s.nor.badSlices else s.nor.badSlices ++ [k] } }
  else if x < 10000 then s
  else if x < 24256 then
    let b := x - 10000
    let s := s.katSlice (b / 9)
    { s with nor := { s.nor with badBanks := if s.nor.badBanks.contains b then s.nor.badBanks else s.nor.badBanks ++ [b] } }
  else if x < 2 ^ 16 then s
  else s.katUnit (x % 2 ^ 16)

/-- KAT ends: failures recorded, HBM contents undefined, the default veneer, until the first commit, met anew without what failed
(R460, R461). -/
def State.katDone (s : State) (bad : List Nat) : State :=
  let s := (bad.foldl State.katFail s).hbmUndefined (List.range 768)
  let d := if bad.any (fun x => decide (2 ^ 16 ≤ x)) then 6 else s.veneerDetail
  let s := if d ≠ 0 then s
    else
      let s := if s.ptn.committed then s else s.applyVeneer
      { s with brup := { s.brup with katDone := true } }
  s.stepEnd d

/-- BRUP_STEP_END: the running step ends as training, tests and power show; `bad` is what failed (R459). Step 0 ends as the
image in NOR verifies, FAIL only with TIME, and not at all once the escutcheon has halted, with 0x0E01 where both self-tests
failed or with the image's code (R442); step 5 ends once its cores are up; step 7 ends with the first commit; step 8 ends once
ticks run. -/
def execBrupStepEnd (e : StepEnd) (bad : List Nat) (s : State) : Res :=
  let (n, st) := s.brupStep
  .next (if st ≠ 1 ∨ n = 7 ∨ s.esc.boot ≠ 0 then s
    else match n, e with
      | 0, .unit id => if id = 0x0E01 then s.escHalt 0x0E01 else s
      | 0, .link => s
      | 0, .stack => s
      | _, .time => (s.at (s.brup.since + s.stepLimit n)).stepEnd 1
      | 0, .done => if s.pwr.stageTwo then s.bootEnd else s
      | 1, _ => s.dowelDone bad
      | 2, _ => s.stepEnd (if s.lowestFence.isSome then 2 else 0)
      | 3, _ => s.hbmDone bad
      | 4, _ => s.stepEnd 0
      | 5, _ => if s.veneerDetail ≠ 0 then s.stepEnd s.veneerDetail
                else if s.usableCores.all (fun p => (s.dom p).st == .up) then s.stepEnd 0 else s
      | 6, _ => s.katDone bad
      | _, _ => if s.tick.en then s.stepEnd 0 else s)

/-! ## Module reset -/

/-- MODRST: KEY 0xD1 from a physical function: a module reset 10 µs later (R462). -/
def execModrst (f : Func) (key : BitVec 8) (s : State) : Res :=
  .next (s.inOrder f (.modrst f key) (fun s =>
    if isPf f && key == 0xD1 && s.brup.resetAt.isNone then { s with brup := { s.brup with resetAt := some (s.now + 10000) } } else s))

/-- MODULE_RESET: one that BRUP.MODRST requested falls at its time (R461, R462, Table 21.2); for MOD_RST_N, `cycles` are the bus
cycles that the input was low (R439). -/
def execModuleReset (cause : ResetCause) (cycles : Nat) (s : State) : Res :=
  .next (if cause = 1 ∧ !s.passes 3 cycles then s
  else if cause = 10 then (match s.brup.resetAt with
    | some t => (s.at t).moduleReset 10
    | none => s)
  else s.moduleReset cause.val)

/-! ## Partition reset -/

/-- PARTITION_RESET: a physical function names partitions; those that are not enabled, and every one before READY, are
refused. A commit at the same boundary comes first (R463, R466). -/
def execPartitionReset (f : Func) (mask : BitVec 16) (s : State) : Res :=
  .next (s.inOrder f (.partitionReset f mask) (fun s =>
    let ps := setBits mask.toNat 16
    (if !isPf f then s
      else if !s.tick.en then (if ps.isEmpty then s else s.brupRefused)
      else
        let s := if s.ptn.commitDue then s.doCommit else s
        ps.foldl (fun u p => if u.ptn.running.enabled p then u.partReset p else u.brupRefused) s)))

/-- PARTITION_RESET_DONE: PRESET_BUSY clears; the partition resumes at its next own boundary (R463). -/
def execPartitionResetDone (p : Fin 16) (s : State) : Res :=
  .next (if (s.part p.val).resetting then
    (s.partMap p.val (fun x => { x with resetting := false })).rbSet Reg.BRUP_PRESET_BUSY p.val false else s)

/-! ## Core and compute-die reset -/

/-- CORE_RESET (R467). -/
def execCoreReset (f : Func) (c : Fin 64) (s : State) : Res :=
  .next (s.inOrder f (.coreReset f c) (fun s =>
    if isPf f then s.coreClear c.val else s))

/-- The cores of a die reset, and powered down; `up` powers the owned ones up again (R467, Table 21.3). -/
def State.resetCores (s : State) (cores : List Nat) (up : Bool) : State :=
  cores.foldl (fun u p =>
    let l := u.logicalOf p
    let u := match l with
      | some c => u.coreClear c
      | none => u
    if (u.dom p).st = .fenced ∨ (u.dom p).st = .stopped then u
    else
      let u := u.powerDown p .unpowered
      if up && ((l.bind u.corePart).isSome) then u.powerAsk p else u) s

/-- COMPUTE_DIE_RESET (R467). -/
def execComputeDieReset (f : Func) (d : BitVec 6) (s : State) : Res :=
  .next (s.inOrder f (.computeDieReset f d) (fun s =>
    if isPf f && decide (d.toNat < 12) then s.resetCores ((List.range 6).map (6 * d.toNat + ·)) true else s))

/-! ## Stack reset -/

/-- The stack reset under way: its die and phase, 0 for none (Table 21.3). -/
def State.stackNow (s : State) : Nat × Nat := (s.rf Reg.BRUP_STACK_STAT 2 0, s.rf Reg.BRUP_STACK_STAT 6 4)

/-- A change of phase (R470). -/
def State.stackPhase (s : State) (n : Nat) : State :=
  ({ s.rfSet Reg.BRUP_STACK_STAT 6 4 n with brup := { s.brup with since := s.now } } : State).brupEvt 1

/-- Does a partition own something on stack Lk: a core, a slice, a channel or a pseudo-channel (R468)? -/
def Pat.onStack (t : Pat) (k p : Nat) : Bool :=
  (setBits (t.coreMask p) 64).any (fun c => t.physCore c / 12 == k) || (setBits (t.sliceMask p) 1536).any (fun sl => sl / 256 == k) ||
    (setBits (t.jigMask p) 320).any (fun ch => ch / 32 == k) || (setBits (t.pchMask p) 768).any (fun n => n / 128 == k)

/-- The enabled partitions that own something on stack Lk. -/
def State.stackOwners (s : State) (k : Nat) : List Nat := s.ptn.running.enabledParts.filter (s.ptn.running.onStack k)

/-- The refusal of a stack reset, 0 for none, in the order of R468. -/
def State.stackRefusal (s : State) (f : Func) (k : Nat) (drain : Bool) : Nat :=
  if !s.tick.en then 0x13
  else if s.stackNow.2 ≠ 0 ∨ s.ptn.phase = .sewing ∨ s.ptn.phase = .armed then 0x12
  else if (k = 0 ∧ portOf f = 0) ∨ (k = 2 ∧ portOf f = 1) then 0x10
  else if drain && !(s.stackOwners k).isEmpty then 0x11
  else 0

/-- A stack reset starts, or is refused (R468, R469). -/
def State.stackReset (s : State) (f : Func) (k : Nat) (drain : Bool) : State :=
  let d := s.stackRefusal f k drain
  if !isPf f || decide (5 < k) then s
  else if d ≠ 0 then ((s.rfSet Reg.BRUP_STACK_STAT 9 8 2).rfSet Reg.BRUP_STACK_STAT 23 16 d).brupRefused
  else
    let s := if drain then s else (s.stackOwners k).foldl (fun u p => u.partReset p) s
    let s := ((s.rfSet Reg.BRUP_STACK_STAT 2 0 k).rfSet Reg.BRUP_STACK_STAT 9 8 0).rfSet Reg.BRUP_STACK_STAT 23 16 0
    ({ s with brup := { s.brup with forced := !drain } } : State).stackPhase 1

/-- STACK_DRAIN (R468). -/
def execStackDrain (f : Func) (d : BitVec 3) (s : State) : Res :=
  .next (s.inOrder f (.stackDrain f d) (fun s =>
    s.stackReset f d.toNat true))

/-- STACK_FORCE (R468, R469). -/
def execStackForce (f : Func) (d : BitVec 3) (s : State) : Res :=
  .next (s.inOrder f (.stackForce f d) (fun s =>
    s.stackReset f d.toNat false))

/-! ### What is in flight -/

/-- The lining die that serves an address of a partition: its home, its pinned slice, or its controller's. -/
def State.placeDie (s : State) (part : Option Nat) (a : Nat) : Nat :=
  if Config.winBase ≤ a ∧ a < Config.winEnd then winSlice a / 256
  else match part, s.spanOwner a with
    | none, none => (s.hbmPlace a).1 / 128
    | some p, _ => (s.home p (a / 128)).1 / 256
    | none, some p => (s.home p (a / 128)).1 / 256

/-- Does the way between two dies, by the tables, meet die `k`? -/
def State.wayCrosses (s : State) (k x y : Nat) : Bool :=
  x == k || y == k || (match s.tableWay x y 11 with
    | some r => r.any (fun d => (dowelEnds (d / 2)).1 == k || (dowelEnds (d / 2)).2 == k)
    | none => false)

/-- Does the path of an access cross die `k`? -/
def State.crosses (s : State) (k : Nat) (agent : Agent) (part : Option Nat) (a : Nat) : Bool :=
  !isRemote a && s.wayCrosses k (s.agentDie agent) (s.placeDie part a)

/-- Does the path of a lining access cross die `k`? -/
def State.accCrosses (s : State) (k : Nat) (x : LinAccess) : Bool := s.crosses k x.agent (some x.part.val) x.addr.toNat

/-- Is a lane access of a group's request on a path that crosses die `k`? -/
def State.laneCrosses (s : State) (k gx : Nat) (r : MemReq) (a : LaneAcc) : Bool :=
  match r.kind with
  | .staged _ _ => false
  | _ => r.remote.isNone && s.crosses k (groupAgent gx) (some (s.groupPart gx)) a.addr

/-- A line without some of the accesses that wait at it. -/
def Line.without (y : Line) (bad : LinAccess → Bool) : Line :=
  { y with
    fills := y.fills.map (fun e => (e.1, e.2.filter (fun x => !bad x)))
    due := y.due.filter (fun x => !bad x)
    waits := y.waits.filter (fun x => !bad x)
    held := y.held.filter (fun h => match h with
      | .access x => !bad x
      | .place _ => true) }

/-- The lining accesses whose path crosses die `k` fail, those that wait at a line among them (R469). -/
def State.accPathFail (s : State) (k : Nat) : State :=
  let bad := s.accCrosses k
  let xs := s.lin.blocked.filter bad ++ ((s.lin.lines.map (fun e => e.2.strands)).flatten).filter bad
  let s := { s with lin := { s.lin with
    blocked := s.lin.blocked.filter (fun x => !bad x)
    lines := s.lin.lines.map (fun e => (e.1, e.2.without bad)) } }
  xs.foldl (fun u _ => u.answer { code := ePathReset }) s

/-- The requests of a group whose path crosses die `k` fail on their lanes (R179, R469): request `i` and those before it. -/
def State.groupPathFail (s : State) (k gx : Nat) : Nat → State
  | 0 => s
  | i + 1 =>
    let x := s.group gx
    let s := match x.reqs[i]? with
      | none => s
      | some r =>
        let cut := s.laneCrosses k gx r
        let bad := r.lanes.filter cut
        let rest := r.lanes.filter (fun (a : LaneAcc) => !cut a)
        let fails : List (Nat × Nat × Nat) := bad.map (fun (a : LaneAcc) => (a.lane, ePathReset, a.addr))
        if bad.isEmpty then s
        else if rest.isEmpty then s.reqEnd gx i r fails
        else s.groupSet gx { x with
          reqs := x.reqs.set i { r with lanes := rest },
          ops := match mfind x.ops r.op with
            | none => x.ops
            | some o => mput x.ops r.op (fails.foldl (fun (q : OpenOp) (f : Nat × Nat × Nat) => q.fail f.1 f.2.1 f.2.2) o) }
    s.groupPathFail k gx i

/-- Does a side of a MOVE, from byte `k` of its image to its end, cross die `d`; with the address where it first does? -/
def State.sideCrosses (s : State) (d ch : Nat) (v : MoveSt) (src : Bool) : Nat → Nat → Option Nat
  | 0, _ => none
  | n + 1, k =>
    if v.len ≤ k then none
    else
      let (a, _) := s.spanAt ch v src k
      if a.real && a.code == 0 && s.crosses d (jigAgent ch) (some (s.chPart ch)) a.addr then some a.addr
      else s.sideCrosses d ch v src n (k + max 1 a.len)

/-- Where a MOVE first crosses die `k` in what it has still to read or write. -/
def State.moveCrosses (s : State) (k ch : Nat) (v : MoveSt) : Option Nat :=
  if v.dead then none
  else (s.sideCrosses k ch v true v.len v.got.length).orElse (fun _ => s.sideCrosses k ch v false v.len v.put)

/-- MOVE `i` of a channel and those before it: one whose path on either side still crosses die `k` is marked bad (R306, R469). -/
def State.movesPathFail (s : State) (k ch : Nat) : Nat → State
  | 0 => s
  | i + 1 =>
    let s := match (s.chan ch).moves[i]? with
      | none => s
      | some v =>
        match s.moveCrosses k ch v with
        | some a => s.markBad ch i v ePathReset a 0
        | none => s
    s.movesPathFail k ch i

/-- The MOVEs of a channel whose path crosses die `k` (R306, R469). -/
def State.jigPathFail (s : State) (k ch : Nat) : State := (s.movesPathFail k ch (s.chan ch).moves.length).jigAfter ch

/-- Is a piece of a host request on a path that crosses die `k`? -/
def State.pieceCrosses (s : State) (k port : Nat) (q : HostOp) (w : Nat × Nat × List Byte) : Bool :=
  s.crosses k (hostAgent port) q.part w.1

/-- The pieces of a host request whose path crosses die `k` fail, each with its record: a read that had not failed is aborted, a
write goes on with its other pieces (R369, R430, R469). -/
def State.hostCut (s : State) (k port : Nat) (q : HostOp) : Option HostOp × State :=
  let cut := s.pieceCrosses k port q
  let bad := q.todo.filter cut
  let rest := q.todo.filter (fun w => !cut w)
  if bad.isEmpty then (some q, s)
  else
    let s := bad.foldl (fun u w => u.bar2Err q.fn ePathReset w.1 q.part) s
    let left : Option HostOp := if rest.isEmpty then none else some { q with todo := rest, poison := true }
    if q.write then (left, if q.poison then s else s.send (.aer port ePathReset))
    else if !q.poison then (none, s.bar2Done q.fn .abort ePathReset [])
    else (left, if rest.isEmpty then s.bar2Done q.fn .poisoned eUncorr [] else s)

/-- The host requests of a port whose path crosses die `k` (R369, R469). -/
def State.hostPathFail (s : State) (k port : Nat) : State :=
  let (ops, s) := (s.port port).ops.foldl (fun (t : List HostOp × State) q =>
    let (left, u) := t.2.hostCut k port q
    (t.1 ++ left.toList, u)) ([], s)
  s.portOps port ops

/-- The writes of drains that wait and whose path crosses die `k` (R279, R469). -/
def State.drainPathFail (s : State) (k c : Nat) : State :=
  (List.range (s.core c).run.length).foldl (fun u i =>
    match (u.core c).run[i]? with
    | none => u
    | some r =>
      let cut := fun (w : Nat × Nat × List Byte) => u.crosses k (cmdAgent c r.cmd) (u.corePart c) w.1
      if !r.toSend.any cut then u
      else
        let (r, v) := u.drainFail c { r with toSend := r.toSend.filter (fun w => !cut w) } ePathReset
        v.coreMap c (fun x => { x with run := x.run.set i r })) s

/-- Does the way of an outstanding request within this module cross die `k`? -/
def State.outCrosses (s : State) (k : Nat) (e : Nat × OutReq) : Bool := s.wayCrosses k (s.agentDie e.2.owner) (6 + e.1 / 4096)

/-- The requests to other modules whose way to their I/O die crosses die `k`: a READ or WRITE is re-sent once, any other, and
one that has been, fails (R360, R469). -/
def State.outPathFail (s : State) (k : Nat) : State :=
  (s.spl.out.filter (s.outCrosses k)).foldl (fun u e =>
    if (e.2.kind = 1 ∨ e.2.kind = 2) ∧ e.2.again = false then
      { u with spl := { u.spl with out := mput u.spl.out e.1 { e.2 with again := true } } }
    else u.resolve e.1 ePathReset []) s

/-- The messages received on a link that wait behind die `k`: those at the heads of its buffers whose access crosses it. A READ or
WRITE is tried once more, any other request fails, a TICKMARK is discarded (R360, R469). -/
def State.splinePathFail (s : State) (k n : Nat) : State :=
  [0, 3].foldl (fun u vc =>
    match (u.link n).next vc with
    | none => u
    | some (kind, m, y) =>
      let ag : Agent := .remote (Fin.ofNat 4 (n / 16))
      let (len, right) := if kind = 6 then (8, 4) else requestSpan kind m
      let (c, a) := u.exposed m right len
      if c ≠ 0 || m.dst.toNat != u.moduleId || !u.crosses k ag (some m.part.val) a then u
      else if (kind = 1 ∨ kind = 2) ∧ m.retry = false then
        (u.linkSet n { y with late := mset y.late vc (({ m with retry := true } : Msg).toBytes kind ++ mget y.late vc []) [] }).sendAck n
      else
        let u := (u.linkSet n y).sendAck n
        if kind = 6 then u.discardMsg else u.failRequest (n / 16) ePathReset m) s

/-- Every request whose path crosses die `k` fails with E_PATHRESET (R469, Table 21.3). -/
def State.pathReset (s : State) (k : Nat) : State :=
  let s := s.forgetTickets (fun t => s.crosses k t.ask.agent t.ask.part t.ask.addr)
  let s := (s.accPathFail k).outPathFail k
  let s := (s.groups.map (·.1)).foldl (fun u gx => u.groupPathFail k gx (u.group gx).reqs.length) s
  let s := (List.range 64).foldl (fun u c => u.drainPathFail k c) s
  let s := (List.range 320).foldl (fun u ch => u.jigPathFail k ch) s
  (List.range 64).foldl (fun u n => u.splinePathFail k n) ((s.hostPathFail k 0).hostPathFail k 1)

/-- Does the head of a receive buffer of a link wait behind die `k`? -/
def State.headCrosses (s : State) (k n vc : Nat) : Bool :=
  match (s.link n).next vc with
  | none => false
  | some (kind, m, _) =>
    let (len, right) := if kind = 6 then (8, 4) else requestSpan kind m
    let (c, a) := s.exposed m right len
    c == 0 && m.dst.toNat == s.moduleId && s.crosses k (.remote (Fin.ofNat 4 (n / 16))) (some m.part.val) a

/-- Does a packet remain in Lk's router or on its links: does the path of a request that waits cross it (Table 21.3)? -/
def State.routerHolds (s : State) (k : Nat) : Bool :=
  (s.lin.blocked ++ (s.lin.lines.map (fun e => e.2.strands)).flatten).any (s.accCrosses k) ||
  s.groups.any (fun e => e.2.reqs.any (fun r => r.lanes.any (s.laneCrosses k e.1 r))) ||
  (List.range 64).any (fun c => (s.core c).run.any (fun r =>
    r.toSend.any (fun w => s.crosses k (cmdAgent c r.cmd) (s.corePart c) w.1))) ||
  (List.range 320).any (fun ch => (s.chan ch).moves.any (fun v => (s.moveCrosses k ch v).isSome)) ||
  [0, 1].any (fun port => (s.port port).ops.any (fun q => q.todo.any (s.pieceCrosses k port q))) ||
  (List.range 64).any (fun n => [0, 3].any (s.headCrosses k n))

/-- Lk, its compute dies, engine k's channels, its cached lines and pinned sectors are reset (R309, Table 21.3). -/
def State.stackClear (s : State) (k : Nat) : State :=
  let s := s.resetCores ((List.range 12).map (12 * k + ·)) false
  let s := (engChans k).foldl (fun u ch => u.jigClear ch) s
  let gone := (s.lin.lines.filter (fun e => e.2.die == k)).map (·.1) ++ (s.lin.writeBack.filter (fun e => e.2 / 256 == k)).map (·.1)
  let s := gone.foldl (fun u l => u.forgetLine l) s
  let s := (List.range 256).foldl (fun u i => u.linClear (wayBase (256 * k + i) 0) 0x600000) s
  let mine := fun (sl : Nat) => decide (sl / 256 = k)
  { s with lin := { s.lin with
    copies := s.lin.copies.filter (fun e => e.1 % 8 != k), staleQ := s.lin.staleQ.filter (fun e => !mine e.1),
    sweep := s.lin.sweep.filter (fun e => !mine e.1), dead := s.lin.dead.filter (fun e => !mine e.1),
    thrashed := s.lin.thrashed.filter (fun sl => !mine sl) } }

/-- Has a base boundary passed since the phase began? -/
def State.boundarySince (s : State) : Bool := decide (s.brup.since < s.tick.begun)

/-- The routers take the bypass routes, or leave them (R328, R470). -/
def State.outSet (s : State) (k : Nat) (out : Bool) : State :=
  let rest := s.brup.outDies.filter (· != k)
  { s with brup := { s.brup with outDies := if out then rest ++ [k] else rest } }

/-- The end of phase 5: the dies serve again, and owned cores power up (R403, Table 21.3). -/
def State.rejoin (s : State) (k : Nat) : State :=
  let s := s.outSet k false
  let s := ((List.range 12).map (12 * k + ·)).foldl (fun u p =>
    if ((u.logicalOf p).bind u.corePart).isSome then u.powerAsk p else u) s
  (s.rfSet Reg.BRUP_STACK_STAT 9 8 1).stackPhase 0

/-- Does a failure of the known-answer runs, coded as for `katFail`, concern a core, a slice or a bank of stack Lk? -/
def katOn (k x : Nat) : Bool :=
  if x < 72 then x / 12 == k
  else if x < 2584 then decide (1000 ≤ x) && (x - 1000) / 264 == k
  else decide (10000 ≤ x ∧ x < 24256) && (x - 10000) / 9 / 264 == k

/-- The directions of the present links that end at die `k`. -/
def State.dirsAt (s : State) (k : Nat) : List Nat :=
  (List.range 22).filter (fun d => s.dowelPresent (d / 2) && ((dowelEnds (d / 2)).1 == k || (dowelEnds (d / 2)).2 == k))

/-- Lk's links train again, as in step 1; the lanes that fail are darned at once, as in step 2 (Table 21.3). -/
def State.stackTrain (s : State) (k : Nat) (lanes : List Nat) : State :=
  let dirs := s.dirsAt k
  (dirs.foldl (fun u d => u.dowelSet d { u.dowel d with
    waiting := sortNat ((List.range 544).filter (fun l => lanes.contains (544 * d + l) && (u.dowel d).live l)) }) s).darnDirs dirs

/-- Does a direction of Lk's links train fewer than 4 lane groups even with spares (Table 21.1)? -/
def State.stackShort (s : State) (k : Nat) (lanes : List Nat) : Bool := (s.dirsAt k).any (shortDir lanes)

/-- What a phase 4 that ends with a failing unit adds to what fails: a physical core or slice of Lk by its own code, any other
unit by its id. -/
def State.unitFail (s : State) (k : Nat) : StepEnd → List Nat
  | .unit id =>
    let i := id.toNat % 4096
    if id.toNat / 4096 = 11 ∧ i < 72 ∧ i / 12 = k then [i]
    else if id.toNat / 4096 = 3 ∧ i < 1536 ∧ i / 256 = k then [1000 + 264 * k + s.ptn.running.sliceEnt i % 512]
    else [2 ^ 16 + id.toNat]
  | _ => []

/-- Phase 4 of a stack reset: training of Lk's links and known-answer runs, whose failing cores, slices and banks are recorded
and are unavailable from then on, any other unit in BRUP.KAT_UNIT (R460, R470). -/
def State.stackRestore (s : State) (k : Nat) (lanes bad : List Nat) : State :=
  (bad.filter (fun x => katOn k x || decide (2 ^ 16 ≤ x))).foldl State.katFail (s.stackTrain k lanes)

/-- STACK_PHASE_END: the phase in force ends and the next begins; phases 1 and 5 end at a base boundary; the drain of a forced
reset ends at once, another once no packet remains, or after 1 ms. In phase 4, `lanes` are the lanes of Lk's links that fail
training and `bad` what fails the known-answer runs; where a link or a unit fails that cannot be marked unavailable, or the
phase does not end, the die stays out of service (R469, R470). -/
def execStackPhaseEnd (e : StepEnd) (lanes bad : List Nat) (s : State) : Res :=
  let (k, n) := s.stackNow
  .next (match n with
    | 1 =>
      if !s.boundarySince then s
      else
        let s := (s.outSet k true).stackPhase 2
        if s.brup.forced then ((s.pathReset k).stackPhase 3).stackClear k else s
    | 2 =>
      if e ≠ .time ∧ s.routerHolds k then s
      else
        let s := if e = .time then (s.at (s.brup.since + 1000000)).pathReset k else s
        (s.stackPhase 3).stackClear k
    | 3 => s.stackPhase 4
    | 4 =>
      let bad := s.unitFail k e ++ bad
      let u := s.stackRestore k lanes bad
      if e = .time ∨ e = .link ∨ e = .stack ∨ s.stackShort k lanes ∨ bad.any (fun x => decide (2 ^ 16 ≤ x)) then
        (u.rfSet Reg.BRUP_STACK_STAT 9 8 3).stackPhase 0
      else u.stackPhase 5
    | 5 => if s.boundarySince then s.rejoin k else s
    | _ => s)

end Sys2Proof.Machine
end

