-- ==== Sys2Proof/Machine/Parks.lean ====
section
/-! DEFINITION. Park actions and the registers of parked groups (R190 to R192, R202). -/

namespace Sys2Proof.Machine

/-- The state a park action restores: watchdog 0, and READY. -/
def Group.revived (x : Group) : Group := { x with st := .ready, wdog := 0, wait := .nothing }

/-- REPLAY (R190): after F_CLAMPDEADLOCK the group waits again; an empty FAULT_MASK resumes at PC; else the faulted lanes
re-issue the instruction and the group goes on with ACTIVE. -/
def Group.replayed (x : Group) (r : ParkRec) : Group :=
  if r.code = fClampDeadlock then { x with st := .waiting, wdog := 0, wait := .clamp }
  else if r.faults = 0 then x.revived
  else { x.revived with replay := some x.active, active := BitVec.ofNat 32 r.faults }

/-- The length of the recorded instruction. -/
def ParkRec.len (r : ParkRec) : Nat := if bitOf r.instr 47 then 16 else 8

/-- A park action on a slot: 1 REPLAY, 2 SKIP, 3 DROP. The answer is RESULT of Table 8.14. -/
def State.parkAct (s : State) (gx action : Nat) : Nat × State :=
  let x := s.group gx
  let r := mget s.parks gx {}
  if x.st ≠ .parked then (1, s)
  else match action with
    | 1 =>
      if !bitOf r.flags 4 then (2, s)
      else
        let s := s.groupSet gx (x.replayed r)
        (0, if r.faults = 0 then s.settleGroup gx else s)
    | 2 =>
      if !bitOf r.flags 5 then (2, s)
      else (0, (s.groupSet gx { x.revived with pc := x.pc + r.len }).settleGroup gx)
    | _ => (0, (s.flushReqs gx).freeSlot gx)

/-- A host park action: CORE.PARK_RESULT reports it (R190, Tables 8.13 and 8.14). A core without a clock takes none (R398). -/
def State.hostPark (s : State) (f : Func) (g : GroupId) (action : Nat) : State :=
  if !s.reaches f (s.corePart g.core.val) || s.clockStopped g.core.val then s
  else
    let (res, s) := s.parkAct (gix g.core.val g.slot.val) action
    s.rgSet (coreReg Reg.CORE_PARK_RESULT g.core.val) (BitVec.ofNat 32 (g.slot.val + 2 ^ 8 * res))

/-- PARK_REPLAY. -/
def execParkReplay (f : Func) (g : GroupId) (s : State) : Res :=
  .next (s.inOrder f (.parkReplay f g) (fun s =>
    s.hostPark f g 1))

/-- PARK_SKIP. -/
def execParkSkip (f : Func) (g : GroupId) (s : State) : Res :=
  .next (s.inOrder f (.parkSkip f g) (fun s =>
    s.hostPark f g 2))

/-- PARK_DROP. -/
def execParkDrop (f : Func) (g : GroupId) (s : State) : Res :=
  .next (s.inOrder f (.parkDrop f g) (fun s =>
    s.hostPark f g 3))

/-- A register of a parked group by a selection laid out as CORE.PREG_SEL: 0 unless the slot is PARKED (R192). -/
def State.pregRead (s : State) (c sel : Nat) : Word :=
  let x := s.group (gix c (bitsOf sel 21 16))
  if x.st = .parked then x.w (bitsOf sel 12 8) (bitsOf sel 6 0) else 0

/-- A register of a parked group written; no effect unless the slot is PARKED. -/
def State.pregWrite (s : State) (c sel : Nat) (v : Word) : State :=
  let gx := gix c (bitsOf sel 21 16)
  if (s.group gx).st = .parked then s.groupMap gx (fun x => x.wSet (bitsOf sel 12 8) (bitsOf sel 6 0) v) else s

/-- PREG_DATA_WRITE (R192, Table 8.16). A register of a core without a clock does not change (R398). -/
def execPregDataWrite (f : Func) (c : Fin 64) (v : Word) (s : State) : Res :=
  .next (s.inOrder f (.pregDataWrite f c v) (fun s =>
    (if s.reaches f (s.corePart c.val) && !s.clockStopped c.val then
        s.pregWrite c.val (s.rg (coreReg Reg.CORE_PREG_SEL c.val)).toNat v
      else s)))

/-- The supervisor's instructions park any other group with F_ILLEGAL (R202). -/
def State.supervisor (s : State) (gx : Nat) (body : State → State) : State :=
  if gx % 64 = 0 then body s else s.illegal gx

/-- D of every active lane. -/
def State.writeAll (s : State) (gx d : Nat) (v : Word) : State :=
  s.groupMap gx (fun x => (lanesOf x.active).foldl (fun y l => y.wSet l d v) x)

/-- PARKACT: a supervisor acts on a slot of its core and reads the result code (R190, R202). -/
def execParkact (g : GroupId) (i : Insn) (s : State) : Res :=
  let f : Form := { grp := true, d := .regs 1, a := .regs 1, drain := true }
  .next (s.issue g 0x05 i { f with mod := modOnly i 3 && i.mod.toNat % 4 != 0 } (fun s gx _ => s.supervisor gx (fun s =>
    let x := s.group gx
    let slot := (x.w x.lowest i.a.toNat).toNat
    let (res, s) := if slot < 64 then s.parkAct (gix (gx / 64) slot) (i.mod.toNat % 4) else (1, s)
    (s.writeAll gx i.d.toNat (BitVec.ofNat 32 res)).pass gx)))

/-- PREGRD (R202). -/
def execPregrd (g : GroupId) (i : Insn) (s : State) : Res :=
  .next (s.issue g 0x06 i { grp := true, d := .regs 1, a := .regs 1, mod := modOnly i 0, drain := true } (fun s gx _ =>
    s.supervisor gx (fun s =>
      let x := s.group gx
      (s.writeAll gx i.d.toNat (s.pregRead (gx / 64) (x.w x.lowest i.a.toNat).toNat)).pass gx)))

/-- PREGWR (R202). -/
def execPregwr (g : GroupId) (i : Insn) (s : State) : Res :=
  .next (s.issue g 0x07 i { grp := true, a := .regs 1, b := .regs 1, mod := modOnly i 0, drain := true } (fun s gx _ =>
    s.supervisor gx (fun s =>
      let x := s.group gx
      (s.pregWrite (gx / 64) (x.w x.lowest i.a.toNat).toNat (x.w x.lowest i.b.toNat)).pass gx)))

end Sys2Proof.Machine
end

