-- ==== Sys2Proof/Machine/TickBus.lean ====
section
/-! DEFINITION. The tick bus: cycles, answers, halt, loss of its clock (R376 to R381). -/

namespace Sys2Proof.Machine

/-- TICK.STATUS.LOCKED (R58). -/
def State.locked (s : State) : Bool :=
  s.ptn.running.syncSrc != 0 && !s.tick.syncLost &&
    (match s.tick.lastErr with
     | some e => decide (e.natAbs ≤ s.ptn.running.ease)
     | none => false)

/-- Does the module act on cycles (R379)? -/
def State.onBus (s : State) : Bool := s.rb Reg.TICK_TB_CTL 0 && !s.rb Reg.TICK_TB_STAT 4

/-- The running and the late partitions, as a mask over TB_CFG from bit `lo` on. -/
def State.busMask (s : State) (lo : Nat) (f : Part → Bool) : Bool :=
  (List.range 16).any (fun p => s.rb Reg.TICK_TB_CFG (lo + p) && f (s.part p))

/-- The lines of a cycle: TB_RDY, TB_OVR_N and TB_RSP_N (R378). A module that does not act releases all three. -/
def State.busAnswer (s : State) (rsp : Bool) : State :=
  let on := s.onBus
  { s with pins := { s.pins with
    rdyLow := on && (!s.tick.en || s.busMask 0 (·.running))
    ovrLow := on && s.busMask 16 (·.late)
    rspLow := on && rsp } }

/-- A bit of TICK.TB_EVT set. -/
def State.busEvt (s : State) (i : Nat) : State := s.evSet Reg.TICK_TB_EVT i

/-- One cycle: nothing where the module does not act, but that a cycle is an edge of TB_CLK, which clears CLK_LOST and is then
neither acted upon nor answered; a cycle of wrong parity is counted and answered as IDLE (R378, R381). The answer reflects the
state at the sampling edge. -/
def State.cycle (s : State) (parityOk : Bool) (rsp : Bool) (body : State → State) : State :=
  if !s.onBus then
    (if s.rb Reg.TICK_TB_STAT 4 then (s.busAnswer false).rbSet Reg.TICK_TB_STAT 4 false else s.busAnswer false)
  else if !parityOk then ((s.busAnswer false).rAdd Reg.TICK_TB_STAT 19 8 1).busEvt 2
  else body (s.busAnswer rsp)

/-- Does a cycle name this module's slot? -/
def State.mySlot (s : State) (arg : BitVec 8) : Bool := arg.toNat % 16 == s.fuses.slot

/-- TB_IDLE. -/
def execTbIdle (_arg : BitVec 8) (parityOk : Bool) (s : State) : Res := .next (s.cycle parityOk false id)

/-- TB_POLL: the master reads TB_RDY and TB_OVR_N. -/
def execTbPoll (_arg : BitVec 8) (parityOk : Bool) (s : State) : Res := .next (s.cycle parityOk false id)

/-- TB_RESERVED_CYCLE: as IDLE, and counted (Table 16.5). -/
def execTbReservedCycle (_arg : BitVec 8) (parityOk : Bool) (s : State) : Res :=
  .next (s.cycle parityOk false (fun s => s.rAdd Reg.TICK_TB_STAT 31 20 1))

/-- TB_TICK: an edge of the reference when SRC is 2, always accepted (R52, R54). -/
def execTbTick (_arg : BitVec 8) (parityOk : Bool) (s : State) : Res :=
  .next (s.cycle parityOk false (fun s => if s.ptn.running.syncSrc = 2 then s.edgeAccepted s.now else s))

/-- Does a QUERY item hold (Table 16.6)? -/
def State.item (s : State) (i : Nat) : Bool :=
  match i with
  | 0 => true
  | 1 => s.tick.en
  | 2 => s.parts.any (fun e => e.2.late)
  | 3 => s.tick.halted
  | 4 => s.pair.role == .active
  | 5 => s.locked
  | _ => false

/-- TB_QUERY: the named module answers; an ALIVE is recorded for its slot, and tells the PAIR block about its peer (R378, R379).
`others` says that another module pulls TB_RSP_N low. -/
def execTbQuery (arg : BitVec 8) (parityOk : Bool) (others : Bool) (s : State) : Res :=
  let i := arg.toNat / 32
  let own := s.mySlot arg && s.item i
  .next (s.cycle parityOk own (fun s =>
    if i ≠ 0 then s
    else
      let seen := others || own
      let slot := arg.toNat % 16
      let s := s.rbSet Reg.TICK_TB_SEEN slot seen
      if slot = s.rf Reg.PAIR_CFG 7 4 then
        let missed := if seen then 0 else min 2 (s.pair.missed + 1)
        { s with pair := { s.pair with slotSeen := seen, missed := missed, lost := s.pair.lost || missed == 2 } }
      else s))

/-- TB_TAKEOVER: the named module records it; the PAIR block learns whose slot is named (R377, R480, R481). -/
def execTbTakeover (arg : BitVec 8) (parityOk : Bool) (s : State) : Res :=
  .next (s.cycle parityOk false (fun s =>
    let peer := arg.toNat % 16 == s.rf Reg.PAIR_CFG 7 4
    let s := { s with pair := { s.pair with
      ownNamed := s.pair.ownNamed || s.mySlot arg, peerNamed := s.pair.peerNamed || peer } }
    if s.mySlot arg then s.busEvt 0 else s))

/-- TB_HALT: halt is entered or left, for one slot or for all (R76, R380). -/
def execTbHalt (arg : BitVec 8) (parityOk : Bool) (s : State) : Res :=
  let v := arg.toNat
  .next (s.cycle parityOk false (fun s =>
    if !(bitOf v 4 || s.mySlot arg) || bitOf v 5 == s.tick.halted then s
    else
      ({ s with tick := { s.tick with
        halted := bitOf v 5, haltLeft := if bitOf v 5 then s.tick.haltLeft else some s.now } } : State).busEvt 1))

/-- TB_CLK_LOST: no edge for 1 µs (R381). -/
def execTbClkLost (s : State) : Res :=
  .next (if s.rb Reg.TICK_TB_STAT 4 then s
    else ((s.rbSet Reg.TICK_TB_STAT 4 true).busEvt 3).busAnswer false)

/-- TB_CLK_RESUME: the first edge afterwards clears CLK_LOST; its cycle is neither acted upon nor answered (R381). -/
def execTbClkResume (s : State) : Res :=
  .next ((s.busAnswer false).rbSet Reg.TICK_TB_STAT 4 false)

end Sys2Proof.Machine
end

