-- ==== Sys2Proof/Machine/Registers.lean ====
section
/-! DEFINITION. BAR0: what a word of it reads, who may read and write it, writes by access type, and the latches and held
writes of 64-bit registers (R8 to R11, R19, R20, R365, R367, R373, Tables 0.3 and 16.3). -/

namespace Sys2Proof.Machine

/-! ## Small views -/

/-- Bits as a word. -/
def bw (n : Nat) : Word := BitVec.ofNat 32 n

/-- The half of a 64-bit value at offset `d` of its register. -/
def half (d v : Nat) : Word := bw (if d % 8 = 0 then v else v / 2 ^ 32)

/-- A mask of the indices below `n` with a property. -/
def maskBy (n : Nat) (f : Nat → Bool) : Nat := ((List.range n).map (fun i => if f i then 2 ^ i else 0)).sum

/-- A temperature in 8 bits. -/
def tempByte (t : Int) : Nat := (t % 256).toNat

/-- An owner and its OWNED bit, at bit `lo` and bit `lo + 4`. -/
def ownerBits (lo : Nat) (o : Option Nat) : Nat :=
  match o with
  | some p => 2 ^ lo * p + 2 ^ (lo + 4)
  | none => 0

/-- The value of a phase of a basting (Table 2.8). -/
def phaseCode : Phase → Nat
  | .idle => 0
  | .opened => 1
  | .sewing => 2
  | .armed => 3

/-- The value of a slot state (Table 8.2). -/
def slotCode : SlotState → Nat
  | .free => 0
  | .ready => 1
  | .busy => 2
  | .waiting => 3
  | .parked => 4

/-- The value of a channel state (Table 13.1). -/
def chanCode : ChanState → Nat
  | .idle => 0
  | .running => 1
  | .waiting => 2
  | .stopped => 3
  | .faulted => 4

/-- The value of a domain state (Table 17.17). -/
def domainCode : DomainState → Nat
  | .unpowered => 0
  | .waiting => 1
  | .ramping => 2
  | .up => 3
  | .stopped => 4
  | .fenced => 5

/-- The value of a port state (Table 16.12). -/
def portCode : PortState → Nat
  | .down => 0
  | .training => 1
  | .up => 2

/-- An error record as its 64 bytes (Table 19.1). -/
def ErrRec.bytes (r : ErrRec) : List Byte :=
  leBytes r.code 2 ++ leBytes r.unit 2 ++
    leBytes (match r.part with
      | some p => p
      | none => 16) 1 ++
    leBytes (b2n r.loss + 2 * b2n r.preReady + 4 * b2n (decide (1 < r.count ∧ r.count ≠ 0xFFFF))) 1 ++ leBytes r.count 2 ++
    leBytes r.tick 8 ++ leBytes r.addr 8 ++ leBytes r.syndrome 8 ++ leBytes r.lastTick 8 ++ leBytes r.seq 4 ++
    leBytes r.epoch 2 ++ List.replicate 18 0

/-- A park record as its 512 bytes (Table 8.8). -/
def ParkRec.bytes (r : ParkRec) : List Byte :=
  let st := r.stack.reverse
  let ent := fun (i : Nat) => match st[i]? with
    | some e => leBytes e.resume 4 ++ leBytes e.lanes.toNat 4 ++ leBytes e.rpc 4
    | none => List.replicate 12 0
  let wait := fun (l : Nat) => match mfind r.waits l with
    | some (a, v) => leBytes (a / 4 % 2 ^ 46 + 2 ^ 46 * (v % 2 ^ 18)) 8
    | none => List.replicate 8 0
  leBytes r.code 2 ++ leBytes r.sub 2 ++ leBytes r.slot 1 ++ leBytes r.core 1 ++ leBytes r.part 1 ++ leBytes r.flags 1 ++
    leBytes r.tick 8 ++ leBytes r.pc 4 ++ leBytes r.active 4 ++ leBytes r.faults 4 ++ leBytes r.waiting 4 ++
    leBytes r.instr 8 ++ leBytes r.addr 8 ++ leBytes r.wdog 4 ++ leBytes r.epoch 2 ++ leBytes r.depth 1 ++
    leBytes r.held 1 ++ leBytes r.barrier 1 ++ List.replicate 7 0 ++ ((List.range 16).map ent).flatten ++
    ((List.range 32).map wait).flatten

/-- A little-endian word of some bytes. -/
def wordAt (bs : List Byte) (o : Nat) : Word := bw (leNat ((bs.drop o).take 4))

/-! ## Views by block: registers whose value is derived from the state; none for a register that is its own home -/

/-- GLB, for the requester whose number is `q` (Tables 0.2, 1.8, 1.9, 16.10 to 16.12). -/
def State.viewGlb (s : State) (q o : Nat) : Option Word :=
  let x := mget s.host.fns q {}
  let port := fun (p : Port) => p.st
  match o with
  | 0x0 => some (bw (0xB7000009 + 2 ^ 16 * s.fuses.stepping))
  | 0x4 => some (bw s.moduleId)
  | 0x8 => some (bw s.variant)
  | 0x100 => some (if q < 34 then bw x.apbase else 0)
  | 0x104 => some (if q < 34 then bw (x.apbase / 2 ^ 32) else 0)
  | 0x108 => some (if q = 0 ∨ q = 17 then bw (x.appart + 16 * b2n x.modAcc) else if q < 34 then bw (q % 17 - 1) else 0)
  | _ =>
    if o = 0x110 ∨ o = 0x114 then
      let p := s.port ((o - 0x110) / 4)
      let up := port p == .up
      some (bw (portCode p.st + 4 * (if up then p.speed else 0) + 16 * (if up then p.width else 0) +
        2 ^ 7 * (if p.vfEnable then p.numVfs else 0)))
    else none

/-- PTN (Tables 2.11, 2.13, 2.21). -/
def State.viewPtn (s : State) (o : Nat) : Option Word :=
  let x := s.ptn
  match o with
  | 0x20004 => some (if x.phase = .idle then 0 else  -- without a basting the word is 0 (DESIGN CHOICE, log entry 63)
      bw (phaseCode x.phase + 8 * b2n x.partScope + 16 * x.part.val +
        2 ^ 8 * (match x.opener with
          | .pf p => p.val
          | .vf _ _ => 2) + 2 ^ 10 * b2n x.loading + 2 ^ 11 * b2n x.token.isSome))
  | 0x2000C => some (if x.phase = .opened then bw ((x.deadline - s.now) / 1000000) else 0)
  | 0x20038 =>
    let mask := match x.phase, x.staged with
      | .armed, some t => ((affectedParts x.running t).map (2 ^ ·)).sum
      | _, _ => s.rf Reg.PTN_AFFECTED 15 0
    some (bw (mask + 2 ^ 16 * maskBy 16 (fun p => (x.running.enabled p && s.holding p) || (s.part p).held)))
  | _ => none

/-- Jobs waiting and groups at work on proof for a partition (Table 7.12). -/
def State.proofCounts (s : State) (p : Nat) : Nat × Nat :=
  let cs := s.coresOf p
  ((cs.map (fun c => (s.core c).proofQ.length)).sum,
   (cs.map (fun c => ((List.range 64).filter (fun k => (s.group (gix c k)).job.isSome)).length)).sum)

/-- TICK (Tables 3.9, 3.10, 3.13, 3.17, 7.9, 7.12, 16.15). -/
def State.viewTick (s : State) (o : Nat) : Option Word :=
  match o with
  | 0x30000 => some (bw (b2n s.tick.en + 2 * b2n s.tick.halted))
  | 0x30004 => some (s.rg o ||| bw (b2n s.locked + 2 * b2n s.tick.easeExceeded + 4 * b2n s.tick.syncLost +
      2 ^ 5 * s.ptn.running.syncSrc))
  | 0x30014 => some (BitVec.ofInt 32 s.tick.demand)
  | 0x30808 => some (s.rg o ||| bw (s.fuses.slot % 16))
  | _ =>
    if 0x30100 ≤ o ∧ o < 0x30300 ∧ (o - 0x30100) % 0x20 = 0 then
      let p := (o - 0x30100) / 0x20
      let x := s.part p
      let en := s.ptn.running.enabled p
      some (bw (b2n en + 2 * b2n x.running + 4 * b2n x.late + 8 * b2n (en && s.holding p) + 2 ^ 16 * x.skipped))
    else if 0x30480 ≤ o ∧ o < 0x30500 then
      let w := (o - 0x30480) / 4
      some (if w = 0 then (s.fitRec (s.rf Reg.TICK_FIT_SEL 11 0)).words.headD 0 else s.fitLatch.getD w 0)
    else if 0x30600 ≤ o ∧ o < 0x30700 ∧ o % 0x10 = 8 then
      let (n, m) := s.proofCounts ((o - 0x30600) / 0x10)
      some (bw (n % 2 ^ 16 + 2 ^ 16 * m))
    else none

/-- CORE `c`, at offset `d` of its block (Tables 8.8 to 8.11, 8.16). -/
def State.viewCore (s : State) (c d : Nat) : Option Word :=
  let t := s.ptn.running
  if d = 0 then
    some (bw (t.physCore c + ownerBits 8 (t.coreOwner c) + 2 ^ 13 * (t.coreSet c % 8) +
      2 ^ 16 * (match t.coreOwner c with
        | some p => t.proofSlots p
        | none => 0)))
  else if 0x10 ≤ d ∧ d < 0x30 then
    some (bw ((List.range 8).map (fun i => 16 ^ i * slotCode (s.group (gix c (8 * ((d - 0x10) / 4) + i))).st)).sum)
  else if d = 0x30 ∨ d = 0x34 then some (half (d - 0x30) (maskBy 64 (fun k => (s.group (gix c k)).st == .parked)))
  else if d = 0x48 then some (s.pregRead c (s.rg (coreReg Reg.CORE_PREG_SEL c)).toNat)
  else if 0x10000 ≤ d ∧ d < 0x18000 then
    some (wordAt (mget s.parks (gix c ((d - 0x10000) / 0x200)) {}).bytes (d % 0x200))
  else none

/-- LIN (Tables 10.12, 10.22, 10.27). -/
def State.viewLin (s : State) (o : Nat) : Option Word :=
  let t := s.ptn.running
  if o = Reg.LIN_STATUS then some (bw (b2n s.lin.clearing + 2 * b2n s.lin.pinCmd.isSome + 4 * b2n s.lin.flushing.isSome))
  else if o = Reg.LIN_SLICE_STAT then
    let sl := (s.rg Reg.LIN_SLICESEL).toNat
    some (if 1536 ≤ sl then 0 else
      bw (t.waysPinned sl % 16 + 16 * (t.cap sl % 16) + ownerBits 8 (t.sliceOwner sl) + 2 ^ 16 * min 255 (s.heldAt sl) +
        2 ^ 24 * ((s.rg (bank Reg.LIN_SLICE_STAT sl)).toNat / 2 ^ 20 % 256)))
  else if 0xD0200 ≤ o ∧ o < 0xD0220 then
    let w := (o - 0xD0200) / 4
    some (bw (maskBy 32 (fun i => t.isPinned (t.region (32 * w + i)))))
  else none

/-- HBM (Tables 11.8, 11.16, 11.18, 11.19). A stack without a valid layer governs at a free value. -/
def State.viewHbm (s : State) (o : Nat) : Option Word :=
  let m := s.rf Reg.HBM_STACKSEL 3 0
  let x := s.stackSt m
  let on := decide (m < 12) && s.fitted m && !x.temps.isEmpty
  if o = Reg.HBM_CAPACITY then some (bw s.capacity)
  else if o = Reg.HBM_PCH_STAT then
    let n := s.rf Reg.HBM_PCHSEL 9 0
    some (if 768 ≤ n then 0 else
      bw (ownerBits 0 (s.ptn.running.pchOwner n) + 2 ^ 5 * b2n (s.maskBit Reg.HBM_PEND n) +
        2 ^ 6 * b2n (s.maskBit Reg.HBM_MAPPED n) + 2 ^ 7 * b2n (s.fitted (n / 64))))
  else if o = Reg.HBM_THERM then
    some (if !on then bw (2 ^ 8 * (if m < 12 then stackCode x.st else 0)) else
      bw ((match x.govern with
        | some g => tempByte g
        | none => Config.freeValue s.free % 256) + 2 ^ 8 * stackCode x.st + 2 ^ 10 * b2n x.sensorBad))
  else if 0xC0210 ≤ o ∧ o < 0xC0230 then
    let w := (o - 0xC0210) / 4
    let layer := fun (i : Nat) => match x.temps.getD i none with
      | some v => tempByte v + 2 ^ 8 * b2n (layerValid (some v))
      | none => 0
    some (if !on then 0 else bw (layer (2 * w) + 2 ^ 16 * layer (2 * w + 1)))
  else none

/-- JIG (Tables 13.7 and 13.10). -/
def State.viewJig (s : State) (o : Nat) : Option Word :=
  if 0xE0000 ≤ o ∧ o < 0xE0028 then
    let e := (o - 0xE0000) / 4
    some (s.rg o ||| bw (2 * b2n (s.pl7Active e) + 4 * b2n (s.jig.stopped.contains e) + 8 * b2n (s.engFitted e)))
  else if 0xE1000 ≤ o ∧ o < 0xE6000 ∧ o % 0x40 = 4 then
    let ch := (o - 0xE1000) / 0x40
    let c := s.chan ch
    some (bw (chanCode c.st + (match s.ptn.running.chanOwner ch with
      | some p => 8 + 16 * p
      | none => 0) + 2 ^ 8 * c.cmdres + 2 ^ 10 * b2n c.badSince))
  else none

/-- Does dowel traffic run (Table 21.1, step 2)? -/
def State.dowelsUp (s : State) : Bool := decide (2 < s.brupStep.1) || s.brupStep == (2, 2)

/-- NET (Tables 14.11, 14.12, 14.17). -/
def State.viewNet (s : State) (o : Nat) : Option Word :=
  let t := s.ptn.running
  let k := s.rf Reg.NET_LINKSEL 3 0
  let d := 2 * k + s.rf Reg.NET_LINKSEL 4 4
  let x := s.dowel d
  let fenced := s.rb Reg.NET_STATUS (2 + k)
  if (o = Reg.NET_CLBYTES ∨ o = Reg.NET_CLBYTES + 4) ∧ s.rf Reg.NET_CLSEL 6 5 = 3 ∧ s.dowelPresent (s.rf Reg.NET_CLSEL 3 0) then
    some (half o (Config.freeValue s.free))  -- the packets of class SYS are not stated (DESIGN CHOICE, log entry 40)
  else if o = Reg.NET_LINK_STAT then
    some (if !s.dowelPresent k then 0 else
      bw (2 ^ 13 + 2 ^ 12 * b2n fenced + 2 ^ 16 * x.darned.length +
        (if s.dowelsUp && !fenced then maskBy 8 (fun g => !x.dropped.contains g) + 2 ^ 8 * s.width d else 0)))
  else if o = Reg.NET_SPARES then
    some (if !s.dowelPresent k then 0 else bw ((List.range 8).map (fun g => 8 ^ g * x.used g)).sum)
  else if o = Reg.NET_VDATA then
    let i := s.rf Reg.NET_VSEL 12 2
    some (match s.rf Reg.NET_VSEL 1 0 with
      | 0 => if i < 64 then bw (t.fld 2 (0x40 + i) 1) else 0
      | 1 => if i < 1536 then bw (t.sliceEnt i) else 0
      | 2 => if i < 768 then bw (t.pchEnt i) else 0
      | _ =>
        if 72 ≤ i then 0
        else
          let l := s.logicalOf i
          let num := match l with
            | some c => 4 * c
            | none => 0
          let bad := s.fuses.badCores.contains i || s.nor.badCores.contains i || s.nor.fenced.contains i
          let old := s.nor.retired.contains i || s.nor.marked.contains i
          bw (num + (if bad then 3 else if old then 2 else if l.isSome then 0 else 1)))
  else none

/-- BWREG (Tables 14.20 and 14.24). -/
def State.viewBwreg (s : State) (o : Nat) : Option Word :=
  let t := s.ptn.running
  if o = Reg.BWREG_WINDOW then some (bw (t.regWindow % 128 + 2 ^ 7 * (t.urgBypass % 4)))
  else if o = Reg.BWREG_ESTAT then
    let i := s.rf Reg.BWREG_ESEL 8 0
    let p := s.rf Reg.BWREG_ESEL 13 9
    some (if p < 18 ∧ t.regValid i then bw (s.limitEff i p) else 0)
  else none

/-- SPL (Tables 15.10, 15.14, 15.17). -/
def State.viewSpl (s : State) (o : Nat) : Option Word :=
  let n := s.rf Reg.SPL_LINKSEL 5 0
  if o = Reg.SPL_INSERVICE ∨ o = Reg.SPL_INSERVICE + 4 then some (half o (maskBy 64 (fun i => (s.link i).up)))
  else if o = Reg.SPL_DEGRADED ∨ o = Reg.SPL_DEGRADED + 4 then some (half o (maskBy 64 (fun i => (s.link i).st == .up2)))
  else if o = Reg.SPL_LINK_STAT then
    some (bw (linkCode (s.link n).st + 8 * b2n (linkFitted s n) + 16 * ((s.link n).failed % 16) +
      ownerBits 8 (s.ptn.running.linkOwner n) + 2 ^ 13 * b2n (s.claimed n)))
  else if Reg.SPL_OUTSTANDING ≤ o ∧ o < Reg.SPL_OUTSTANDING + 16 then
    let x := (o - Reg.SPL_OUTSTANDING) / 4
    some (bw (s.spl.out.filter (fun e => e.1 / 4096 == x)).length)
  else none

/-- PWR (Tables 17.15, 17.17 to 17.19). Voltage and current of a rail are free values. -/
def State.viewPwr (s : State) (o : Nat) : Option Word :=
  let p := s.rf Reg.PWR_CORESEL 6 0
  let r := s.rf Reg.PWR_RAIL_SEL 4 0
  let x := s.dom p
  if o = Reg.PWR_RAMP then some (bw (s.unitsUsed + 2 ^ 8 * s.pwr.queue.length))
  else if o = Reg.PWR_CORE_STAT then
    some (if 72 ≤ p then 0 else bw (domainCode x.st + 2 ^ 6 * (x.clk % 64) + 2 ^ 12 * (x.ceil % 64) + 2 ^ 18 * (x.volt % 256)))
  else if o = Reg.PWR_CORE_PHASE then some (if 72 ≤ p then 0 else bw (maskBy 24 (fun i => s.nor.phases.contains (24 * p + i))))
  else if o = Reg.PWR_RAIL_STAT then
    some (if 17 ≤ r then 0 else
      bw (Config.freeValue s.free % 4096 + 2 ^ 12 * (Config.freeValue (s.free + 1) % 4096) + 2 ^ 24 * b2n (s.pwr.low.contains r) +
        2 ^ 25 * b2n (decide (r < 12) && s.pwr.peaks.contains r)))
  else none

/-- THM (Tables 18.6, 18.9 to 18.11, 18.15 to 18.18). -/
def State.viewThm (s : State) (o : Nat) : Option Word :=
  let d := s.rf Reg.THM_DIESEL 4 0
  let x := s.die d
  let on := decide (d < 22) && s.dieFitted d
  let i := s.rf Reg.THM_SENSEL 4 0
  let p := s.rf Reg.THM_AGESEL 6 0
  let any := fun (f : DieMon → Bool) => s.thm.dies.any (fun e => f e.2)
  if o = Reg.THM_STATUS then
    some (bw (b2n (any (fun y => y.st != .normal)) + 2 * b2n (any (fun y => y.st == .throttle)) + 4 * b2n (any (·.fast)) +
      8 * b2n s.pins.thermIn + 16 * b2n (any (fun y => decide (8 < y.suspects.length))) + 32 * b2n (any (·.estGov))))
  else if o = Reg.THM_DIE_STAT then
    some (if !on then 0 else bw (tempByte x.govern + 2 ^ 8 * dieCode x.st + 2 ^ 10 * s.dieLevel d + 2 ^ 13 * b2n x.fast +
      2 ^ 14 * b2n x.estGov + 2 ^ 15 * x.suspects.length))
  else if o = Reg.THM_DIE_EST then
    some (if !on then 0 else bw ((if 12 ≤ d ∧ d < 18 then tempByte x.est else 0) + 2 ^ 8 * tempByte x.own))
  else if o = Reg.THM_SENSOR then
    some (if !on || decide ((sensorGrid d).1 * (sensorGrid d).2 ≤ i) then 0 else
      bw (tempByte (x.temps.getD i 0) + 2 ^ 8 * b2n (mhas x.suspects i) + 2 ^ 16 * tempByte (x.estimate d i)))
  else if o = Reg.THM_ALT_STAT then
    some (s.rg o ||| bw (match s.thm.alt with
      | some a => 1 + 4 * a.queue.headD 0
      | none => 0))
  else if o = Reg.THM_AGE then
    let a := s.planOf p
    some (if 72 ≤ p then 0 else bw (a.off % 64 + 2 ^ 6 * (a.ceil % 64) + 2 ^ 12 * (s.f0 p % 64) + 2 ^ 18 * (s.v0 p % 256) +
      2 ^ 26 * b2n (s.nor.marked.contains p) + 2 ^ 27 * b2n (s.nor.retired.contains p) + 2 ^ 28 * b2n (s.thm.stale.contains p)))
  else if o = Reg.THM_AGE_HOURS then some (if 72 ≤ p then 0 else bw (mget s.hoursNow p 0 / 3600000000000))
  else if 0x50100 ≤ o ∧ o < 0x50140 then some (wordAt s.nor.shut (o - 0x50100))
  else none

/-- ERR and IRQ (Tables 19.7 and 19.8). -/
def State.viewErrIrq (s : State) (o : Nat) : Option Word :=
  if 0x88000 ≤ o ∧ o < 0x90000 then
    some (match mfind s.log.ring ((o - 0x88000) / 64) with
      | some r => wordAt r.bytes (o % 64)
      | none => 0)
  else if o = Reg.IRQ_GPEND then some (bw (maskBy 18 s.groupPending))
  else if o = Reg.IRQ_GCFG then some (s.rg o ||| 15)
  else if o = Reg.IRQ_FILT + 12 then some (s.rg o ||| bw (2 ^ 8 * b2n (s.brupStep != (0, 1))))
  else if o = Reg.IRQ_TOP ∨ o = Reg.IRQ_TOP + 0x40 then
    let st := s.irqStack ((o - Reg.IRQ_TOP) / 0x40)
    some (match st with
      | e :: _ => bw (e.group + 2 ^ 8 * e.prio + 2 ^ 12 * st.length)
      | [] => 0x1F)
  else if 0x70200 ≤ o ∧ o < 0x70280 ∧ 0x10 ≤ o % 0x40 ∧ o % 0x40 < 0x30 then
    let st := (s.irqStack ((o - 0x70200) / 0x40)).reverse
    let i := (o % 0x40 - 0x10) / 4
    let ent := fun (j : Nat) => match st[j]? with
      | some e => e.group + 2 ^ 8 * e.prio + 2 ^ 15
      | none => 0
    some (bw (ent (2 * i) + 2 ^ 16 * ent (2 * i + 1)))
  else none

/-- ESC (Table 20.7). -/
def State.viewEsc (s : State) (o : Nat) : Option Word :=
  if o = Reg.ESC_STATUS then some (bw (b2n s.esc.standby + 2 * b2n s.escBusy + 4 * s.esc.debug))
  else if o = Reg.ESC_BOOT then some (bw (s.esc.boot + 2 ^ 16 * (s.fuses.svn % 2 ^ 16)))
  else if o = Reg.ESC_SLOTS then
    some (bw ((List.range 3).map (fun k => 256 ^ k * (mget s.fuses.enrolled k 0 % 16 + 16 * (mget s.fuses.revoked k 0 % 16)))).sum)
  else if o = Reg.ESC_TOKSEQ ∨ o = Reg.ESC_TOKSEQ + 4 then some (half o s.nor.tokSeq)
  else none

/-- PAIR: zero on any other order code (R6, Table 21.7). -/
def State.viewPair (s : State) (o : Nat) : Option Word :=
  if !s.pairFitted then some 0
  else if o = Reg.PAIR_STATUS then
    some (bw (roleCode s.pair.role + 8 * b2n s.pair.alive + 16 * b2n s.pair.slotSeen + 32 * b2n s.pair.mismatch))
  else none

/-- The register whose value selects the bank of a banked register. -/
def bankSel (o : Nat) : Option Nat :=
  if Reg.LIN_LOOKUPS ≤ o ∧ o < Reg.LIN_MISSES + 8 then some Reg.LIN_HITSEL
  else if o = Reg.LIN_SLICE_ERR ∨ o = Reg.LIN_SLICE_THRASH then some Reg.LIN_SLICESEL
  else if o = Reg.HBM_PCH_ERR then some Reg.HBM_PCHSEL
  else if o = Reg.NET_WORST then some Reg.NET_LINKSEL
  else if o = Reg.NET_CLBYTES ∨ o = Reg.NET_CLBYTES + 4 then some Reg.NET_CLSEL
  else if o = Reg.BWREG_ESTAT2 ∨ o = Reg.BWREG_EURG then some Reg.BWREG_ESEL
  else if o = Reg.SPL_LINKCTL ∨ (Reg.SPL_PEER ≤ o ∧ o < Reg.SPL_RXBYTES + 8) then some Reg.SPL_LINKSEL
  else none

/-- The key of the register word at an offset, under the selection in force. -/
def State.keyOf (s : State) (o : Nat) : Nat :=
  match bankSel o with
  | some sel => bank o (s.rg sel).toNat
  | none => o

/-- The derived value of a register word. -/
def State.derived (s : State) (q o : Nat) : Option Word :=
  match o / 0x10000 with
  | 0x0 => s.viewGlb q o
  | 0x2 => s.viewPtn o
  | 0x3 => s.viewTick o
  | 0x4 => s.viewPwr o
  | 0x5 => s.viewThm o
  | 0x6 => s.viewEsc o
  | 0x7 => s.viewErrIrq o
  | 0x8 => s.viewErrIrq o
  | 0x9 => s.viewBwreg o
  | 0xA => s.viewNet o
  | 0xB => s.viewSpl o
  | 0xC => s.viewHbm o
  | 0xD => s.viewLin o
  | 0xE => s.viewJig o
  | 0xF => s.viewPair o
  | _ => if 0x1000000 ≤ o ∧ o < 0x2000000 then s.viewCore ((o - 0x1000000) / 0x40000) (o % 0x40000) else none

/-! ## MSI-X (R373, Table 16.1) -/

/-- The vectors of a function. -/
def vectorsOf (q : Nat) : Nat := if q = 0 ∨ q = 17 then 64 else if q < 34 then 4 else 0

/-- The entry and word of the MSI-X table at an offset. -/
def msixAt (q o : Nat) : Option (Nat × Nat) :=
  if 0x8000 ≤ o ∧ o < 0x8000 + 16 * vectorsOf q then some ((o - 0x8000) / 16, o % 16 / 4) else none

/-- A word of the MSI-X table; every vector is masked at reset (PCI Express). -/
def State.msixWord (s : State) (q e w : Nat) : Word := mget s.host.msixWords (msixKey q e w) (if w = 3 then 1 else 0)

/-- A pending bit: of a VF vector as it stands, of a PF vector while a group is held up by its mask alone (R433, R438). -/
def State.pbaBit (s : State) (q v : Nat) : Bool :=
  if q = 0 ∨ q = 17 then
    s.vecMasked q v && (List.range 18).any (fun g => s.groupVector g == v && s.presentableButMask (q / 17) g)
  else s.host.pba.contains (64 * q + v)

/-- A word of the MSI-X table written; a VF vector whose mask clears sends what waits (R438). -/
def State.msixWrite (s : State) (q e w : Nat) (v : Word) : State :=
  let v := if w = 0 then v &&& 0xFFFFFFFC else if w = 3 then v &&& 1 else v
  let s := { s with host := { s.host with msixWords := mset s.host.msixWords (msixKey q e w) v (if w = 3 then 1 else 0) } }
  if q = 0 ∨ q = 17 then s else s.vfUnmask (q / 17) (q % 17 - 1) e

/-! ## Who reaches what -/

/-- May a VF that serves `Pk` read the word at an offset (Table 16.3)? -/
def State.vfReads (s : State) (k o : Nat) : Bool :=
  let t := s.ptn.running
  t.enabled k &&
    (decide (o ≤ 8 ∨ (0x100 ≤ o ∧ o ≤ 0x108) ∨ (0x8000 ≤ o ∧ o < 0x8040) ∨ (0x9000 ≤ o ∧ o < 0x9008)) ||
     decide (o / 0x10000 = 2) ||
     decide (0x30000 ≤ o ∧ o < 0x30020) ||
     decide (0x30100 ≤ o ∧ o < 0x30300 ∧ (o - 0x30100) / 0x20 = k) ||
     decide (0x30600 ≤ o ∧ o < 0x30700 ∧ (o - 0x30600) / 0x10 = k) ||
     (decide (0x1000000 ≤ o ∧ o < 0x2000000) && decide (t.coreOwner ((o - 0x1000000) / 0x40000) = some k)) ||
     (decide (0xE1000 ≤ o ∧ o < 0xE6000) && decide (t.chanOwner ((o - 0xE1000) / 0x40) = some k)) ||
     [Reg.LIN_STATUS, Reg.LIN_PINRESULT, Reg.LIN_HOMEQ, Reg.LIN_HOMEQ + 4, Reg.LIN_HOMEQ_RES].contains o)

/-- May a VF that serves `Pk` write the word at an offset (Table 16.3)? Commands with a row of their own judge for themselves. -/
def State.vfWrites (s : State) (k o : Nat) : Bool :=
  let t := s.ptn.running
  t.enabled k &&
    (decide (o = 0x100 ∨ o = 0x104 ∨ (0x8000 ≤ o ∧ o < 0x8040)) ||
     decide (0x20010 ≤ o ∧ o ≤ 0x20020) ||
     decide (o = Reg.TICK_PEAKSTEP + 0x20 * k) ||
     (decide (0x1000000 ≤ o ∧ o < 0x2000000 ∧ (o % 0x40000 = 0x38 ∨ o % 0x40000 = 0x44)) &&
       decide (t.coreOwner ((o - 0x1000000) / 0x40000) = some k)) ||
     (decide (0xE1000 ≤ o ∧ o < 0xE6000 ∧ 8 ≤ o % 0x40 ∧ o % 0x40 < 0x20) && decide (t.chanOwner ((o - 0xE1000) / 0x40) = some k)) ||
     [Reg.LIN_HOMEQ, Reg.LIN_HOMEQ + 4].contains o)

/-- While firmware does not run, functions expose GLB.IDENT and the ESC block only (R442). -/
def State.exposed0 (s : State) (o : Nat) : Bool := s.esc.boot == 0 || o == 0 || o / 0x10000 == 6

/-- Is a host port cut off by a stack reset (R471)? -/
def State.portCut (s : State) (port : Nat) : Bool := s.brup.outDies.contains (if port = 0 then 0 else 2)

/-- May a requester read an offset? -/
def State.mayRead (s : State) (r : Req) (o : Nat) : Bool :=
  match r with
  | .firmware => true
  | .fn (.pf p) => !s.portCut p.val && s.exposed0 o
  | .fn (.vf p k) => !s.portCut p.val && s.exposed0 o && s.vfReads k.val o

/-- The channel that a write reaches but does not touch, for nobody owns it or firmware, which commands no channel, writes CTL:
CMDRES is 2 (R291). The low word of a 64-bit register is only held (R9). -/
def State.strayChan (s : State) (r : Req) (o : Nat) : Option Nat :=
  let ch := (o - 0xE1000) / 0x40
  let open_ := match r with
    | .firmware => true
    | .fn (.pf p) => !s.portCut p.val && s.exposed0 o
    | .fn (.vf p _) => !s.portCut p.val && s.exposed0 o
  if 0xE1000 ≤ o ∧ o < 0xE6000 ∧ s.engFitted (ch / 32) ∧ open_ = true ∧ (!isWide o ∨ isHigh o) ∧
      ((s.ptn.running.chanOwner ch).isNone ∨ (r = .firmware ∧ o % 0x40 = 0)) then some ch else none

/-- May a requester write an offset? -/
def State.mayWrite (s : State) (r : Req) (o : Nat) : Bool :=
  match r with
  | .firmware => true
  | .fn (.pf p) => !s.portCut p.val && s.exposed0 o
  | .fn (.vf p k) => !s.portCut p.val && s.exposed0 o && s.vfWrites k.val o

/-! ## Reads -/

/-- What a word of BAR0 holds for requester number `q`; 0 outside every register (R19). -/
def State.bar0Word (s : State) (q o : Nat) : Word :=
  match msixAt q o with
  | some (e, w) => s.msixWord q e w
  | none =>
    if 0x9000 ≤ o ∧ o < 0x9008 then half o (maskBy (vectorsOf q) (s.pbaBit q))
    else match s.derived q o with
      | some v => v
      | none => if (regRow o).isSome then s.rg (s.keyOf o) else 0

/-- The key of a requester's latch or held write of a 64-bit register, by the offset of its low word. -/
def latchKey (q o : Nat) : Nat := q * 2 ^ 28 + o

/-- A read of `width` bytes: the low word of a 64-bit register latches the high one, and a read of the high word consumes the
latch; a read of another width or alignment returns 0 and latches nothing (R8, R9, R367). -/
def State.readWord (s : State) (r : Req) (o width : Nat) : State :=
  let q := reqIx r
  if width ≠ 4 ∨ o % 4 ≠ 0 ∨ !s.mayRead r o then s.answer {}
  else if isHigh o then
    match mfind s.latches (latchKey q (o - 4)) with
    | some v => { s with latches := mdel s.latches (latchKey q (o - 4)) }.answer { value := v.toNat }
    | none => s.answer { value := (s.bar0Word q o).toNat }
  else
    let v := s.bar0Word q o
    let s := if isWide o then { s with latches := mput s.latches (latchKey q o) (s.bar0Word q (o + 4)) } else s
    s.answer { value := v.toNat }

/-- LOW_WORD_READ; a register that is no pair just reads (R9). A read waits for the posted writes before it on its port (R370). -/
def execLowWordRead (r : Req) (off : BitVec 28) (width : Nat) (s : State) : Res :=
  .next (s.reqOrder r (.lowWordRead r off width) (fun s => s.readWord r off.toNat width))

/-- HIGH_WORD_READ (R9). -/
def execHighWordRead (r : Req) (off : BitVec 28) (width : Nat) (s : State) : Res :=
  .next (s.reqOrder r (.highWordRead r off width) (fun s => s.readWord r off.toNat width))

/-! ## Writes -/

/-- The bits of a register that a hardware event set in the present clock cycle of 10 ns (R12). -/
def State.setNow (s : State) (key : Nat) : Word :=
  bw (maskBy 32 (fun i => match mfind s.setAt (32 * key + i) with
    | some t => t / Config.idleNs == s.now / Config.idleNs
    | none => false))

/-- A word written by access type: `rw` are the bits a write sets, `w1c` the bits a written 1 clears (Table 0.3). A write in the
clock cycle of the commands before it leaves the bits set that they have set (R12). -/
def State.wordSet (s : State) (key : Nat) (rw w1c : Word) (v : Word) (same : Bool) : State :=
  s.rgSet key (((s.rg key &&& ~~~rw) ||| (v &&& rw)) &&& ~~~(v &&& w1c &&& (if same then ~~~s.setNow key else 0xFFFFFFFF)))

/-- GLB.APPART: a physical function's own (Table 16.11). -/
def State.appartSet (s : State) (r : Req) (v : Word) : State :=
  match r with
  | .fn (.pf p) =>
    let f : Func := .pf p
    s.fnSet f { s.fn f with appart := v.toNat % 16, modAcc := bitOf v.toNat 4 }
  | _ => s

/-- BRUP.CMD written with GO for a step that GO does not start, by a physical function: refused (R459). The other steps are commands
of their own. -/
def State.stepWrite (s : State) (r : Req) (v : Word) : State :=
  let n := v.toNat % 16
  match r with
  | .fn (.pf _) => if v.toNat / 16 % 4 = 1 ∧ (n = 0 ∨ n = 7 ∨ 8 < n) then s.evSet Reg.BRUP_STATUS 16 else s
  | _ => s

/-- A write of a 32-bit register that has no command of its own (R6, R11, R432, Table 0.3, Table 15.13). -/
def State.narrowWrite (s : State) (r : Req) (row : RegRow) (o : Nat) (v : Word) (same : Bool) : State :=
  let key := s.keyOf o
  if o = Reg.BRUP_CMD then s.stepWrite r v
  else if row.own then s
  else if o = Reg.GLB_APPART then s.appartSet r v
  else if o / 0x10000 = 0xF ∧ !s.pairFitted then s
  else if o = Reg.SPL_LINKCTL then
    (if bitOf v.toNat 0 || !s.rb key 0 then s else s.linkEnable (s.rf Reg.SPL_LINKSEL 5 0))
  else if o = Reg.LIN_SLICE_THRASH ∧ 1536 ≤ (s.rg Reg.LIN_SLICESEL).toNat then s
  else if Reg.IRQ_GCFG ≤ o ∧ o < Reg.IRQ_GCFG + 72 then
    let v := if o = Reg.IRQ_GCFG then v &&& 0xFFFFFFF0 else if v.toNat % 16 = 15 then v - 1 else v
    s.wordSet key (bw row.rw) (bw row.w1c) v same
  else s.wordSet key (bw row.rw) (bw row.w1c) v same

/-- A 64-bit register takes its high half, with the low half that was held if there is one (R3, R9, R290, R291, R368, Table
10.17). -/
def State.wideWrite (s : State) (r : Req) (row : RegRow) (o : Nat) (low : Option Word) (v : Word) : State :=
  let ch := (o - 0xE1000) / 0x40
  if row.own then s
  else if o = Reg.GLB_APBASE then
    match r with
    | .fn f => s.setApbase f ((low.getD (bw (s.fn f).apbase)).toNat + 2 ^ 32 * v.toNat)
    | .firmware => s
  else if o = Reg.LIN_HOMEQ then s.homeq ((low.getD (s.rg o)).toNat + 2 ^ 32 * (v.toNat % 2 ^ 16))
  else if o / 0x10000 = 0xF ∧ !s.pairFitted then s
  else if 0xE1000 ≤ o ∧ o < 0xE6000 ∧ !s.engFitted (ch / 32) then s
  else if 0xE1000 ≤ o ∧ o < 0xE6000 ∧ (s.chan ch).st ≠ .idle then s
  else
    let s := match low with
      | some w => s.wordSet o (bw row.rw) (bw row.w1c) w false
      | none => s
    s.wordSet (o + 4) (bw (row.rw / 2 ^ 32)) (bw (row.w1c / 2 ^ 32)) v false

/-- A write of a word: of a 32-bit register at once; of the low word of a 64-bit one held until the high word comes (R9). -/
def State.writeWord (s : State) (r : Req) (o : Nat) (v : Word) (same : Bool) : State :=
  let q := reqIx r
  if o % 4 ≠ 0 then s
  else match s.strayChan r o with
  | some ch =>
    ({ s with heldWrites := if isHigh o then mdel s.heldWrites (latchKey q (o - 4)) else s.heldWrites } : State).chanMap ch
      (fun x => { x with cmdres := 2 })
  | none => if !s.mayWrite r o then s else match msixAt q o with
    | some (e, w) => s.msixWrite q e w v
    | none =>
      match regRow o with
      | none => s
      | some row =>
        if !row.wide then s.narrowWrite r row o v same
        else if isHigh o then
          let k := latchKey q (o - 4)
          let low := mfind s.heldWrites k
          ({ s with heldWrites := mdel s.heldWrites k } : State).wideWrite r row (o - 4) low v
        else { s with heldWrites := mput s.heldWrites (latchKey q o) v }

/-- REGISTER_WRITE: `width` in bytes; any width but 4 is without effect (R8, R11, R12). -/
def execRegisterWrite (r : Req) (off : BitVec 28) (width : Nat) (v : Word) (same : Bool) (s : State) : Res :=
  .next (s.reqOrder r (.registerWrite r off width v same) (fun s => if width = 4 then s.writeWord r off.toNat v same else s))

/-- LOW_WORD_WRITE (R9). -/
def execLowWordWrite (r : Req) (off : BitVec 28) (v : Word) (s : State) : Res :=
  .next (s.reqOrder r (.lowWordWrite r off v) (fun s => s.writeWord r off.toNat v false))

/-- HIGH_WORD_WRITE (R9). -/
def execHighWordWrite (r : Req) (off : BitVec 28) (v : Word) (s : State) : Res :=
  .next (s.reqOrder r (.highWordWrite r off v) (fun s => s.writeWord r off.toNat v false))

end Sys2Proof.Machine
end

