-- ==== Sys2Proof/Machine/Sideband.lean ====
section
/-! DEFINITION. The management interface and the SPDM responder (R385 to R387, R456 to R458). -/

namespace Sys2Proof.Machine

/-! ## Management (R385 to R387) -/

/-- The address the target answers to: its dynamic I3C address, or SMBus address 0x30 + MGMT_ADDR (R385). -/
def State.mgmtAddress (s : State) : Nat :=
  match s.mgmt.i3c with
  | some a => a
  | none => 0x30 + s.fuses.mgmtAddr % 4

/-- MGMT_ALERT_N released: the controller has turned to the target, or it is in I3C mode (R385). -/
def State.alertOver (s : State) : State := { s with pins := { s.pins with alert := false } }

/-- I3C_DYNAMIC_ADDRESS: the target becomes an I3C Basic target, which does not use MGMT_ALERT_N; the bus owner may assign its MCTP
endpoint ID with it (R385, R386). -/
def execI3cDynamicAddress (a : BitVec 7) (eid : Option (BitVec 8)) (s : State) : Res :=
  .next ({ s with mgmt := { s.mgmt with
    i3c := some a.toNat
    eid := match eid with
      | some e => some e.toNat
      | none => s.mgmt.eid } }.alertOver)

/-- RSTDAA: the target returns to SMBus (R385). -/
def execRstdaa (s : State) : Res := .next { s with mgmt := { s.mgmt with i3c := none } }

/-- A temperature as a reading: two's complement of 16 bits. -/
def tempWord (t : Int) : Nat := (t % 65536).toNat

/-- The reading of a sensor of R386; none where there is no such sensor. A stack without a valid layer reads a free value. -/
def State.sensorValue (s : State) (x : Nat) : Option Nat :=
  if x < 22 then (if s.dieFitted x then some (tempWord (s.die x).govern) else none)
  else if 32 ≤ x ∧ x < 44 then
    (if s.fitted (x - 32) then some (match (s.stackSt (x - 32)).govern with
      | some t => tempWord t
      | none => Config.freeValue s.free)
     else none)
  else match x with
  | 64 => some (s.rf Reg.PWR_INPUT 15 0)
  | 65 => some (s.rf Reg.PWR_INPUT 31 16)
  | 66 => some (s.rf Reg.PWR_POWER 11 0)
  | 67 => some (s.rf Reg.PWR_EFFECTIVE 11 0)
  | _ =>
    if 128 ≤ x ∧ x < 192 then (if linkFitted s (x - 128) then some (s.sensorState x) else none)
    else if 256 ≤ x ∧ x < 267 then (if s.dowelPresent (x - 256) then some (s.sensorState x) else none)
    else none

/-- What a record of the PDR repository describes: a numeric or state sensor, or a numeric effecter with its range and resolution in
W (R386, R387). -/
inductive PdrKind where
  | numericSensor
  | stateSensor
  | numericEffecter (least most step : Nat)
deriving DecidableEq, Repr

/-- A record of the PDR repository: the id of its sensor or effecter, and what it describes. -/
structure Pdr where
  id : Nat
  kind : PdrKind
deriving DecidableEq, Repr

/-- The PDR repository (R387): every sensor of R386 that the module has, and POWER_LIMIT. -/
def State.pdrs (s : State) : List Pdr :=
  let num := (List.range 22).filter s.dieFitted ++ ((List.range 12).filter s.fitted).map (32 + ·) ++ [64, 65, 66, 67]
  let st := ((List.range 64).filter (fun n => linkFitted s n)).map (128 + ·) ++
    ((List.range 11).filter (fun n => s.dowelPresent n)).map (256 + ·)
  num.map (fun x => ⟨x, .numericSensor⟩) ++ st.map (fun x => ⟨x, .stateSensor⟩) ++ [⟨1, .numericEffecter 1200 3000 1⟩]

/-- A record as bytes: id, kind, least, most and step (the layout of DSP0248 is left out, log entry 11). -/
def Pdr.toBytes (x : Pdr) : List Byte :=
  leBytes x.id 2 ++ (match x.kind with
    | .numericSensor => [2]
    | .stateSensor => [4]
    | .numericEffecter a b c => [9] ++ leBytes a 2 ++ leBytes b 2 ++ leBytes c 2)

/-- PLDM_SENSOR_READ: a sensor, the POWER_LIMIT effecter, or a record of the PDR repository (R386, R387). An unknown sensor,
effecter or record answers 0x80 (PRESUMED, log entry 11). The bus owner assigns the endpoint ID in either mode (R386). -/
def execPldmSensorRead (q : PldmGet) (s : State) : Res :=
  let eid := match q with
    | .setEid e => some e.toNat
    | _ => s.mgmt.eid
  .next (({ s with free := s.free + 1, mgmt := { s.mgmt with eid := eid } }.alertOver).answer (match q with
    | .setEid e => { value := e.toNat }
    | .sensor id => match s.sensorValue id with
      | some v => { value := v }
      | none => { code := 0x80 }
    | .effecter id => if id = 1 then { value := s.mgmt.limit } else { code := 0x80 }
    | .pdr n => match s.pdrs[n]? with
      | some x => { value := x.id, data := x.toBytes }
      | none => { code := 0x80 }))

/-- SET_NUMERIC_EFFECTER_VALUE: POWER_LIMIT inside 1,200 to 3,000 W takes effect; outside it, ERROR_INVALID_DATA, 2 (R387,
R393). -/
def execSetNumericEffecterValue (id : BitVec 16) (watts : Nat) (s : State) : Res :=
  .next (if id ≠ 1 then s.answer { code := 0x80 }
    else if watts < 1200 ∨ 3000 < watts then s.answer { code := 2 }
    else (({ s with mgmt := { s.mgmt with limit := watts } } : State).limitUpdate).answer {})

/-- SET_EVENT_RECEIVER (R387). -/
def execSetEventReceiver (eid : BitVec 8) (s : State) : Res :=
  .next ({ s with mgmt := { s.mgmt with receiver := some eid.toNat } }.answer {})

/-! ## SPDM (R456 to R458) -/

/-- The number of a transport: 0 MCTP, 1 + function. -/
def transportIx : Transport → Nat
  | .mctp => 0
  | .doe f => 1 + fnIx f

/-- The state of a transport's exchange. -/
def State.spdm (s : State) (t : Transport) : Spdm := mget s.esc.spdm (transportIx t) {}

/-- The state of a transport's exchange set. -/
def State.spdmSet (s : State) (t : Transport) (x : Spdm) : State :=
  { s with esc := { s.esc with spdm := mset s.esc.spdm (transportIx t) x {} } }

/-- A message of SPDM 1.3: header and payload (DSP0274; PRESUMED, log entry 35). -/
def spdmMsg (code p1 p2 : Nat) (body : List Byte) : List Byte := [0x13, BitVec.ofNat 8 code, BitVec.ofNat 8 p1, BitVec.ofNat 8 p2] ++ body

/-- An ERROR response. -/
def errorMsg (err : Nat) : List Byte := spdmMsg 0x7F err 0 []

/-- The longest response object of a DOE mailbox (R374). -/
def doeMost : Nat := 2 ^ 18

/-- A CMA/SPDM object of a DOE mailbox: vendor, type and length in words of 4 bytes, then the message, padded (PCI Express;
PRESUMED, log entry 13). -/
def doeObject (m : List Byte) : List Byte :=
  let n := (m.length + 3) / 4
  leBytes 1 2 ++ [1, 0] ++ leBytes (n + 2) 4 ++ m ++ List.replicate (4 * n - m.length) 0

/-- What a transport carries of a message; no object of a mailbox is longer than R374 allows. -/
def spdmWire (t : Transport) (m : List Byte) : List Byte :=
  match t with
  | .mctp => m
  | .doe _ => if doeMost < (doeObject m).length then doeObject (errorMsg 0x0D) else doeObject m

/-- A response on a transport. -/
def State.spdmSend (s : State) (t : Transport) (m : List Byte) : State :=
  s.send (.spdm (match t with
    | .doe f => some f
    | .mctp => none) (spdmWire t m))

/-- An ERROR response on a transport; it enters no transcript. -/
def State.spdmError (s : State) (t : Transport) (err : Nat) : State := s.spdmSend t (errorMsg err)

/-- A request the responder takes at a stage of the exchange. A halted escutcheon answers nothing (R442). -/
def State.spdmTake (s : State) (t : Transport) (stage : Nat) (body : State → State) : State :=
  if s.esc.boot ≠ 0 then s
  else if (s.spdm t).stage < stage then s.spdmError t 4
  else body s

/-- The parts of a transcript: version, capabilities and algorithms; digests and certificates; measurements (DSP0274). -/
inductive SpdmPart where
  | opening
  | certs
  | measures

/-- Messages put at the end of a part. -/
def Spdm.note (x : Spdm) (part : SpdmPart) (bs : List Byte) : Spdm :=
  match part with
  | .opening => { x with opening := x.opening ++ bs }
  | .certs => { x with certs := x.certs ++ bs }
  | .measures => { x with measures := x.measures ++ bs }

/-- A request answered: both enter the transcript. -/
def State.spdmAnswer (s : State) (t : Transport) (part : SpdmPart) (req resp : List Byte) : State :=
  (s.spdmSet t ((s.spdm t).note part (req ++ resp))).spdmSend t resp

/-- The hash that a signed response of a part signs: over what was exchanged before, the request, and the response. -/
def Spdm.hash (x : Spdm) (part : SpdmPart) (req resp : List Byte) : Nat :=
  shaNum (x.opening ++ (match part with
    | .measures => x.measures
    | _ => x.certs) ++ req ++ resp)

/-- A request answered with a signed response: the RSA signature follows it, and the part begins anew (R456, R457). -/
def State.spdmSigned (s : State) (t : Transport) (part : SpdmPart) (req resp : List Byte) : State :=
  let x := s.spdm t
  let h := x.hash part req resp
  let y := match part with
    | .measures => { x with measures := [], signed := some h }
    | _ => { x with certs := [], signed := some h }
  (s.spdmSet t y).spdmSend t (resp ++ leBytes (Config.identity 1 h) 384)

/-- The stage of an exchange raised. -/
def State.spdmStage (s : State) (t : Transport) (stage : Nat) : State :=
  s.spdmSet t { s.spdm t with stage := max stage (s.spdm t).stage }

/-- GET_VERSION: the exchange starts again; version 1.3 (R456). -/
def execGetVersion (t : Transport) (s : State) : Res :=
  .next (s.spdmTake t 0 (fun s =>
    (s.spdmSet t { signed := (s.spdm t).signed, stage := 1 }).spdmAnswer t .opening [0x10, 0x84, 0, 0]
      [0x10, 0x04, 0, 0, 0, 1, 0x00, 0x13]))

/-- GET_CAPABILITIES: certificates, CHALLENGE and signed measurements; no session, key exchange or mutual authentication (R456). The
timing exponent and the message sizes are not stated. -/
def execGetCapabilities (t : Transport) (s : State) : Res :=
  .next (s.spdmTake t 1 (fun s =>
    (s.spdmStage t 2).spdmAnswer t .opening (spdmMsg 0xE1 0 0 []) (spdmMsg 0x61 0 0
      ([0] ++ leBytes (Config.identity 8 0) 1 ++ [0, 0] ++ leBytes 0x16 4 ++ leBytes (Config.identity 9 0) 4 ++
        leBytes (Config.identity 10 0) 4))))

/-- NEGOTIATE_ALGORITHMS: TPM_ALG_RSAPSS_3072 and SHA-384 only (R456). -/
def execNegotiateAlgorithms (t : Transport) (asymOk hashOk : Bool) (s : State) : Res :=
  .next (s.spdmTake t 2 (fun s =>
    if asymOk && hashOk then
      (s.spdmStage t 3).spdmAnswer t .opening (spdmMsg 0xE3 0 0 []) (spdmMsg 0x63 0 0
        (leBytes 36 2 ++ [1, 0] ++ leBytes 4 4 ++ leBytes 8 4 ++ leBytes 2 4 ++ List.replicate 16 0))
    else s.spdmError t 1))

/-- GET_DIGESTS: slot 0 only (R456). -/
def execGetDigests (t : Transport) (s : State) : Res :=
  .next (s.spdmTake t 3 (fun s =>
    s.spdmAnswer t .certs (spdmMsg 0x81 0 0 []) (spdmMsg 0x01 1 1 (sha384.hash (Config.certChain true)))))

/-- GET_CERTIFICATE: part of the RSA chain of slot 0; lengths are of 16 bits (R456). -/
def execGetCertificate (t : Transport) (slot : BitVec 8) (off len : Nat) (s : State) : Res :=
  let part := ((Config.certChain true).drop off).take (min len 0xFFFF)
  .next (s.spdmTake t 3 (fun s =>
    if slot = 0 then
      s.spdmAnswer t .certs (spdmMsg 0x82 0 0 (leBytes off 2 ++ leBytes len 2)) (spdmMsg 0x02 0 0
        (leBytes part.length 2 ++ leBytes ((Config.certChain true).length - off - part.length) 2 ++ part))
    else s.spdmError t 1))

/-- The nonce of a response, which nothing constrains: 32 bytes. -/
def State.nonce (s : State) : List Byte := leBytes (Config.freeValue s.free) 32

/-- CHALLENGE: answered with a signed CHALLENGE_AUTH (R456, R457). -/
def execChallenge (t : Transport) (slot : BitVec 8) (nonce : BitVec 256) (s : State) : Res :=
  .next (s.spdmTake t 3 (fun s =>
    if slot = 0 then
      ({ s with free := s.free + 1 } : State).spdmSigned t .certs (spdmMsg 0x83 0 0 (leBytes nonce.toNat 32))
        (spdmMsg 0x03 0 1 (sha384.hash (Config.certChain true) ++ s.nonce ++ [0, 0]))
    else s.spdmError t 1))

/-- The measurement indices of Table 20.5. -/
def measureAll : List Nat := [1, 2, 3, 4, 5] ++ (List.range 16).map (16 + ·)

/-- The indices a requester receives (R458). -/
def measureSeen (t : Transport) : List Nat :=
  match t with
  | .doe (.vf _ k) => [1, 2, 3, 4, 5, 16 + k.val]
  | _ => measureAll

/-- Section types of the running pattern that a patch changed (R35). -/
def Pat.patched (t : Pat) : List (Nat × Sect) := t.secs.filter (fun e => e.2.patched)

/-- The bytes of sections. -/
def sectsBytes (xs : List (Nat × Sect)) : List Byte := (xs.map (fun e => readCells e.2.bytes 0 e.2.len)).flatten

/-- What a measurement index covers (Table 20.5). The boot ROM's version and the firmware image are not architectural. -/
def State.measureBytes (s : State) (i : Nat) : List Byte :=
  let t := s.ptn.running
  match i with
  | 1 => leBytes (Config.identity 6 0) 48 ++ leBytes s.fuses.svn 2
  | 2 => leBytes (Config.identity 7 0) 48
  | 3 => sectsBytes (t.secs.filter (fun e => !e.2.patched)) ++ leBytes t.id 8
  | 4 => leBytes (((t.patched.map (fun e => e.1 / 16)).eraseDups.map (2 ^ ·)).sum) 4 ++ sectsBytes t.patched
  | 5 => leBytes (s.digest t) 48 ++ leBytes s.esc.debug 1 ++ leBytes s.nor.tokSeq 8
  | i =>
    let p := i - 16
    leBytes (t.tenant p) 16 ++ leBytes (t.keySlot p) 1 ++ leBytes (b2n (t.enabled p)) 1 ++ leBytes (s.epoch p) 2 ++
      leBytes (mget s.esc.turnovers p 0) 4

/-- A measurement (R458). -/
def State.measure (s : State) (i : Nat) : Nat := shaNum (s.measureBytes i)

/-- A measurement block: index, specification, size, type and value; the type of a value is not stated (DSP0274). -/
def State.measureBlock (s : State) (i : Nat) : List Byte :=
  leBytes i 1 ++ [1] ++ leBytes 51 2 ++ leBytes (Config.identity 11 i) 1 ++ leBytes 48 2 ++ leBytes (s.measure i) 48

/-- A MEASUREMENTS response with some indices; `count` is their number where that is asked. -/
def State.measureMsg (s : State) (count : Nat) (ks : List Nat) : List Byte :=
  let record := (ks.map s.measureBlock).flatten
  spdmMsg 0x60 count 0 (leBytes ks.length 1 ++ leBytes record.length 3 ++ record ++ s.nonce ++ [0, 0])

/-- GET_MEASUREMENTS: index 0 asks for their number, 0xFF for all the requester may see (R458). -/
def execGetMeasurements (t : Transport) (index : BitVec 8) (signed : Bool) (nonce : BitVec 256) (s : State) : Res :=
  let i := index.toNat
  let seen := measureSeen t
  let req := spdmMsg 0xE0 (b2n signed) i (if signed then leBytes nonce.toNat 32 ++ [0] else [])
  .next (s.spdmTake t 3 (fun s =>
    let u : State := { s with free := s.free + 1 }
    let out := fun (resp : List Byte) => if signed then u.spdmSigned t .measures req resp else u.spdmAnswer t .measures req resp
    if i = 0 then out (s.measureMsg seen.length [])
    else if i = 255 then out (s.measureMsg 0 seen)
    else if seen.contains i then out (s.measureMsg 0 [i])
    else s.spdmError t 1))

/-- A VENDOR_DEFINED_RESPONSE: PCI-SIG, 0x1F3D, and the payload (R457). -/
def vendorMsg (payload : List Byte) : List Byte :=
  spdmMsg 0x7E 0 0 ([3, 0, 2, 0x3D, 0x1F] ++ leBytes payload.length 2 ++ payload)

/-- VENDOR_DEFINED_REQUEST: the SLH-DSA signature over the last signed transcript, or part of the SLH-DSA chain, how much of it
is not stated; it fails where no signed response came before it on the transport (R457). -/
def execVendorDefinedRequest (t : Transport) (standardOk vendorOk : Bool) (op : BitVec 8) (off : BitVec 32) (s : State) : Res :=
  .next (if s.esc.boot ≠ 0 then s
    else match (s.spdm t).signed with
      | none => s.spdmError t 1
      | some hash =>
        if !standardOk || !vendorOk then s.spdmError t 1
        else match op.toNat with
          | 1 => s.spdmSend t (vendorMsg (leBytes (Config.identity 4 hash) 35664))
          | 2 => s.spdmSend t (vendorMsg (((Config.certChain false).drop off.toNat).take (Config.identity 5 off.toNat % 2 ^ 16)))
          | _ => s.spdmError t 1)

end Sys2Proof.Machine
end

