-- ==== Sys2Proof/Machine/Dispatch.lean ====
section
/-! DEFINITION. One arm per command. -/

namespace Sys2Proof.Machine

/-- The effect of a command on everything but the queue. -/
def exec (i : Instr) (s : State) : Host.Outcome State Fault Refusal :=
  match i with
  | .registerWrite r off width v same => Sys2Proof.Machine.execRegisterWrite r off width v same s
  | .lowWordRead r off width => Sys2Proof.Machine.execLowWordRead r off width s
  | .highWordRead r off width => Sys2Proof.Machine.execHighWordRead r off width s
  | .lowWordWrite r off v => Sys2Proof.Machine.execLowWordWrite r off v s
  | .highWordWrite r off v => Sys2Proof.Machine.execHighWordWrite r off v s
  | .baste f scope p => Sys2Proof.Machine.execBaste f scope p s
  | .load f => Sys2Proof.Machine.execLoad f s
  | .loadDone ecc => Sys2Proof.Machine.execLoadDone ecc s
  | .sew f => Sys2Proof.Machine.execSew f s
  | .validationDone => Sys2Proof.Machine.execValidationDone s
  | .unpick f => Sys2Proof.Machine.execUnpick f s
  | .patchData f v => Sys2Proof.Machine.execPatchData f v s
  | .bastingTimeout => Sys2Proof.Machine.execBastingTimeout s
  | .commit => Sys2Proof.Machine.execCommit s
  | .cuttingListCopy p => Sys2Proof.Machine.execCuttingListCopy p s
  | .baseBoundary => Sys2Proof.Machine.execBaseBoundary s
  | .syncInEdge falling cycles => Sys2Proof.Machine.execSyncInEdge falling cycles s
  | .syncLostTimeout => Sys2Proof.Machine.execSyncLostTimeout s
  | .fitClose p => Sys2Proof.Machine.execFitClose p s
  | .fitRecRead r => Sys2Proof.Machine.execFitRecRead r s
  | .panelLoad c ecc => Sys2Proof.Machine.execPanelLoad c ecc s
  | .pass c ecc => Sys2Proof.Machine.execPass c ecc s
  | .drain c ecc desc => Sys2Proof.Machine.execDrain c ecc desc s
  | .bind c => Sys2Proof.Machine.execBind c s
  | .panelFence c => Sys2Proof.Machine.execPanelFence c s
  | .commandComplete c k => Sys2Proof.Machine.execCommandComplete c k s
  | .panelQueueStallEnd g => Sys2Proof.Machine.execPanelQueueStallEnd g s
  | .proofGroupStart c => Sys2Proof.Machine.execProofGroupStart c s
  | .nop g op insn => Sys2Proof.Machine.execNop g op insn s
  | .br g insn => Sys2Proof.Machine.execBr g insn s
  | .endLanes g insn => Sys2Proof.Machine.execEndLanes g insn s
  | .spawn g insn => Sys2Proof.Machine.execSpawn g insn s
  | .bar g insn => Sys2Proof.Machine.execBar g insn s
  | .parkact g insn => Sys2Proof.Machine.execParkact g insn s
  | .pregrd g insn => Sys2Proof.Machine.execPregrd g insn s
  | .pregwr g insn => Sys2Proof.Machine.execPregwr g insn s
  | .iadd g insn => Sys2Proof.Machine.execIadd g insn s
  | .isub g insn => Sys2Proof.Machine.execIsub g insn s
  | .imul g insn => Sys2Proof.Machine.execImul g insn s
  | .imulhi g insn => Sys2Proof.Machine.execImulhi g insn s
  | .iand g insn => Sys2Proof.Machine.execIand g insn s
  | .ior g insn => Sys2Proof.Machine.execIor g insn s
  | .ixor g insn => Sys2Proof.Machine.execIxor g insn s
  | .inot g insn => Sys2Proof.Machine.execInot g insn s
  | .shl g insn => Sys2Proof.Machine.execShl g insn s
  | .shr g insn => Sys2Proof.Machine.execShr g insn s
  | .sar g insn => Sys2Proof.Machine.execSar g insn s
  | .imin g insn => Sys2Proof.Machine.execImin g insn s
  | .imax g insn => Sys2Proof.Machine.execImax g insn s
  | .isetp g insn => Sys2Proof.Machine.execIsetp g insn s
  | .fadd g insn => Sys2Proof.Machine.execFadd g insn s
  | .fsub g insn => Sys2Proof.Machine.execFsub g insn s
  | .fmul g insn => Sys2Proof.Machine.execFmul g insn s
  | .ffma g insn => Sys2Proof.Machine.execFfma g insn s
  | .fmin g insn => Sys2Proof.Machine.execFmin g insn s
  | .fmax g insn => Sys2Proof.Machine.execFmax g insn s
  | .fabs g insn => Sys2Proof.Machine.execFabs g insn s
  | .fneg g insn => Sys2Proof.Machine.execFneg g insn s
  | .fsetp g insn => Sys2Proof.Machine.execFsetp g insn s
  | .frcp g insn => Sys2Proof.Machine.execFrcp g insn s
  | .cvt g insn => Sys2Proof.Machine.execCvt g insn s
  | .f2i g insn => Sys2Proof.Machine.execF2i g insn s
  | .i2f g insn => Sys2Proof.Machine.execI2f g insn s
  | .mov g insn => Sys2Proof.Machine.execMov g insn s
  | .movi g insn => Sys2Proof.Machine.execMovi g insn s
  | .movs g insn => Sys2Proof.Machine.execMovs g insn s
  | .pmov g insn => Sys2Proof.Machine.execPmov g insn s
  | .ld g insn => Sys2Proof.Machine.execLd g insn s
  | .st g insn => Sys2Proof.Machine.execSt g insn s
  | .lds g insn => Sys2Proof.Machine.execLds g insn s
  | .sts g insn => Sys2Proof.Machine.execSts g insn s
  | .fence g insn => Sys2Proof.Machine.execFence g insn s
  | .cinv g insn => Sys2Proof.Machine.execCinv g insn s
  | .atom g insn => Sys2Proof.Machine.execAtom g insn s
  | .clampAcq g insn => Sys2Proof.Machine.execClampAcq g insn s
  | .clampRel g insn => Sys2Proof.Machine.execClampRel g insn s
  | .signal g insn => Sys2Proof.Machine.execSignal g insn s
  | .waitsig g insn => Sys2Proof.Machine.execWaitsig g insn s
  | .adm g insn => Sys2Proof.Machine.execAdm g insn s
  | .complete g insn => Sys2Proof.Machine.execComplete g insn s
  | .pjob g insn => Sys2Proof.Machine.execPjob g insn s
  | .panel g insn => Sys2Proof.Machine.execPanel g insn s
  | .ctrrd g insn => Sys2Proof.Machine.execCtrrd g insn s
  | .ctrwait g insn => Sys2Proof.Machine.execCtrwait g insn s
  | .flagrd g insn => Sys2Proof.Machine.execFlagrd g insn s
  | .fitbind g insn => Sys2Proof.Machine.execFitbind g insn s
  | .proofpost g insn => Sys2Proof.Machine.execProofpost g insn s
  | .memoryRequestComplete g k ecc => Sys2Proof.Machine.execMemoryRequestComplete g k ecc s
  | .releaseNotice g addr => Sys2Proof.Machine.execReleaseNotice g addr s
  | .waitNotice g addr => Sys2Proof.Machine.execWaitNotice g addr s
  | .clampDeadlock g => Sys2Proof.Machine.execClampDeadlock g s
  | .watchdogExpiry g => Sys2Proof.Machine.execWatchdogExpiry g s
  | .parkReplay f g => Sys2Proof.Machine.execParkReplay f g s
  | .parkSkip f g => Sys2Proof.Machine.execParkSkip f g s
  | .parkDrop f g => Sys2Proof.Machine.execParkDrop f g s
  | .pregDataWrite f c v => Sys2Proof.Machine.execPregDataWrite f c v s
  | .liningAccess x => Sys2Proof.Machine.execLiningAccess x s
  | .sectorFill line sector ecc => Sys2Proof.Machine.execSectorFill line sector ecc s
  | .updatePerform line => Sys2Proof.Machine.execUpdatePerform line s
  | .recallComplete line => Sys2Proof.Machine.execRecallComplete line s
  | .writebackAccepted line => Sys2Proof.Machine.execWritebackAccepted line s
  | .scrubTurn die slice ecc => Sys2Proof.Machine.execScrubTurn die slice ecc s
  | .thrashWindowEnd die slice => Sys2Proof.Machine.execThrashWindowEnd die slice s
  | .linClear f => Sys2Proof.Machine.execLinClear f s
  | .linClearDone => Sys2Proof.Machine.execLinClearDone s
  | .pin f region => Sys2Proof.Machine.execPin f region s
  | .unpin f region => Sys2Proof.Machine.execUnpin f region s
  | .flush f p => Sys2Proof.Machine.execFlush f p s
  | .flushDone => Sys2Proof.Machine.execFlushDone s
  | .homeqLookup r addr => Sys2Proof.Machine.execHomeqLookup r addr s
  | .hbmSectorAccess addr part write ecc => Sys2Proof.Machine.execHbmSectorAccess addr part write ecc s
  | .patrolTurn pch ecc => Sys2Proof.Machine.execPatrolTurn pch ecc s
  | .hbmTempReport stack temps => Sys2Proof.Machine.execHbmTempReport stack temps s
  | .hbmStopTimeout stack => Sys2Proof.Machine.execHbmStopTimeout stack s
  | .hbmCondemn f pch => Sys2Proof.Machine.execHbmCondemn f pch s
  | .jigGo f ch => Sys2Proof.Machine.execJigGo f ch s
  | .jigStop f ch => Sys2Proof.Machine.execJigStop f ch s
  | .move ch w => Sys2Proof.Machine.execMove ch w s
  | .loop ch w => Sys2Proof.Machine.execLoop ch w s
  | .wait ch w => Sys2Proof.Machine.execWait ch w s
  | .jigWaitEnd ch => Sys2Proof.Machine.execJigWaitEnd ch s
  | .jigSignal ch w => Sys2Proof.Machine.execJigSignal ch w s
  | .jigEnd ch w => Sys2Proof.Machine.execJigEnd ch w s
  | .jigAccessComplete ch write ecc => Sys2Proof.Machine.execJigAccessComplete ch write ecc s
  | .jigFetchFail ch code => Sys2Proof.Machine.execJigFetchFail ch code s
  | .resumeContinue f e => Sys2Proof.Machine.execResumeContinue f e s
  | .resumeRetry f e => Sys2Proof.Machine.execResumeRetry f e s
  | .pl7Write f e on => Sys2Proof.Machine.execPl7Write f e on s
  | .laneErrorWindowEnd link dir group lane errors => Sys2Proof.Machine.execLaneErrorWindowEnd link dir group lane errors s
  | .laneLockLoss link dir group lane => Sys2Proof.Machine.execLaneLockLoss link dir group lane s
  | .regulatorWindowStart => Sys2Proof.Machine.execRegulatorWindowStart s
  | .linkTrainingRetry n => Sys2Proof.Machine.execLinkTrainingRetry n s
  | .linkTrainingEnd n good => Sys2Proof.Machine.execLinkTrainingEnd n good s
  | .init n flit => Sys2Proof.Machine.execInit n flit s
  | .data n fecBad flit => Sys2Proof.Machine.execData n fecBad flit s
  | .nak n flit => Sys2Proof.Machine.execNak n flit s
  | .replayTimeout n => Sys2Proof.Machine.execReplayTimeout n s
  | .splineLaneFail n lane symbols => Sys2Proof.Machine.execSplineLaneFail n lane symbols s
  | .linkDisable f n => Sys2Proof.Machine.execLinkDisable f n s
  | .linkRetrain f n => Sys2Proof.Machine.execLinkRetrain f n s
  | .write n => Sys2Proof.Machine.execWrite n s
  | .read n => Sys2Proof.Machine.execRead n s
  | .readResp n => Sys2Proof.Machine.execReadResp n s
  | .reduce n => Sys2Proof.Machine.execReduce n s
  | .signalMessage n => Sys2Proof.Machine.execSignalMessage n s
  | .tickmark n => Sys2Proof.Machine.execTickmark n s
  | .mirrorData n => Sys2Proof.Machine.execMirrorData n s
  | .mirrorSheet n => Sys2Proof.Machine.execMirrorSheet n s
  | .mirrorCommit n => Sys2Proof.Machine.execMirrorCommit n s
  | .heartbeat n => Sys2Proof.Machine.execHeartbeat n s
  | .reqTimeout die entry => Sys2Proof.Machine.execReqTimeout die entry s
  | .bar2Read f off len => Sys2Proof.Machine.execBar2Read f off len s
  | .bar2Write f off bytes enable => Sys2Proof.Machine.execBar2Write f off bytes enable s
  | .bar2ReadTimeout f => Sys2Proof.Machine.execBar2ReadTimeout f s
  | .bar4Write f off bytes => Sys2Proof.Machine.execBar4Write f off bytes s
  | .apbaseWrite f v => Sys2Proof.Machine.execApbaseWrite f v s
  | .portReset port flr => Sys2Proof.Machine.execPortReset port flr s
  | .vfFlr port k => Sys2Proof.Machine.execVfFlr port k s
  | .configurationWrite f x => Sys2Proof.Machine.execConfigurationWrite f x s
  | .doeRequest f vendor kind object => Sys2Proof.Machine.execDoeRequest f vendor kind object s
  | .tbIdle arg parityOk => Sys2Proof.Machine.execTbIdle arg parityOk s
  | .tbTick arg parityOk => Sys2Proof.Machine.execTbTick arg parityOk s
  | .tbPoll arg parityOk => Sys2Proof.Machine.execTbPoll arg parityOk s
  | .tbQuery arg parityOk others => Sys2Proof.Machine.execTbQuery arg parityOk others s
  | .tbTakeover arg parityOk => Sys2Proof.Machine.execTbTakeover arg parityOk s
  | .tbHalt arg parityOk => Sys2Proof.Machine.execTbHalt arg parityOk s
  | .tbReservedCycle arg parityOk => Sys2Proof.Machine.execTbReservedCycle arg parityOk s
  | .tbClkLost => Sys2Proof.Machine.execTbClkLost s
  | .tbClkResume => Sys2Proof.Machine.execTbClkResume s
  | .thermInAssert cycles => Sys2Proof.Machine.execThermInAssert cycles s
  | .thermInRelease cycles => Sys2Proof.Machine.execThermInRelease cycles s
  | .pwrFaultInAssert cycles => Sys2Proof.Machine.execPwrFaultInAssert cycles s
  | .pwrFaultInRelease cycles => Sys2Proof.Machine.execPwrFaultInRelease cycles s
  | .i3cDynamicAddress a eid => Sys2Proof.Machine.execI3cDynamicAddress a eid s
  | .rstdaa => Sys2Proof.Machine.execRstdaa s
  | .pldmSensorRead q => Sys2Proof.Machine.execPldmSensorRead q s
  | .setNumericEffecterValue id watts => Sys2Proof.Machine.execSetNumericEffecterValue id watts s
  | .setEventReceiver eid => Sys2Proof.Machine.execSetEventReceiver eid s
  | .getVersion t => Sys2Proof.Machine.execGetVersion t s
  | .getCapabilities t => Sys2Proof.Machine.execGetCapabilities t s
  | .negotiateAlgorithms t asymOk hashOk => Sys2Proof.Machine.execNegotiateAlgorithms t asymOk hashOk s
  | .getDigests t => Sys2Proof.Machine.execGetDigests t s
  | .getCertificate t slot off len => Sys2Proof.Machine.execGetCertificate t slot off len s
  | .challenge t slot nonce => Sys2Proof.Machine.execChallenge t slot nonce s
  | .getMeasurements t index signed nonce => Sys2Proof.Machine.execGetMeasurements t index signed nonce s
  | .vendorDefinedRequest t standardOk vendorOk op off => Sys2Proof.Machine.execVendorDefinedRequest t standardOk vendorOk op off s
  | .stageTwoStart => Sys2Proof.Machine.execStageTwoStart s
  | .inputUnderrange => Sys2Proof.Machine.execInputUnderrange s
  | .inputRangeRelease => Sys2Proof.Machine.execInputRangeRelease s
  | .undervolt => Sys2Proof.Machine.execUndervolt s
  | .overvolt => Sys2Proof.Machine.execOvervolt s
  | .powerMeasurement watts mv da => Sys2Proof.Machine.execPowerMeasurement watts mv da s
  | .pwrLimitWrite f v => Sys2Proof.Machine.execPwrLimitWrite f v s
  | .phaseFail core group phase => Sys2Proof.Machine.execPhaseFail core group phase s
  | .droop core => Sys2Proof.Machine.execDroop core s
  | .warningTrip rail => Sys2Proof.Machine.execWarningTrip rail s
  | .suspectWindowClose rail => Sys2Proof.Machine.execSuspectWindowClose rail s
  | .railReset rail => Sys2Proof.Machine.execRailReset rail s
  | .rampStart core above => Sys2Proof.Machine.execRampStart core above s
  | .rampEnd core => Sys2Proof.Machine.execRampEnd core s
  | .domainUp core => Sys2Proof.Machine.execDomainUp core s
  | .dieSample die temps est => Sys2Proof.Machine.execDieSample die temps est s
  | .shutdownRecordTimeout => Sys2Proof.Machine.execShutdownRecordTimeout s
  | .throttleLevelUpdate die => Sys2Proof.Machine.execThrottleLevelUpdate die s
  | .overtempTrip die => Sys2Proof.Machine.execOvertempTrip die s
  | .alterationStart => Sys2Proof.Machine.execAlterationStart s
  | .altAll f => Sys2Proof.Machine.execAltAll f s
  | .altCore f core => Sys2Proof.Machine.execAltCore f core s
  | .altPartition f p => Sys2Proof.Machine.execAltPartition f p s
  | .measurementDone core need => Sys2Proof.Machine.execMeasurementDone core need s
  | .measurementSkip core => Sys2Proof.Machine.execMeasurementSkip core s
  | .shutClr f => Sys2Proof.Machine.execShutClr f s
  | .logAppend => Sys2Proof.Machine.execLogAppend s
  | .errTailWrite f v => Sys2Proof.Machine.execErrTailWrite f v s
  | .interruptPresentation t => Sys2Proof.Machine.execInterruptPresentation t s
  | .eoi f t group => Sys2Proof.Machine.execEoi f t group s
  | .firmwareGroupComplete group => Sys2Proof.Machine.execFirmwareGroupComplete group s
  | .vfMessage port k vector => Sys2Proof.Machine.execVfMessage port k vector s
  | .debugCmd f => Sys2Proof.Machine.execDebugCmd f s
  | .enrol f => Sys2Proof.Machine.execEnrol f s
  | .relock f => Sys2Proof.Machine.execRelock f s
  | .escCommandComplete ecc => Sys2Proof.Machine.execEscCommandComplete ecc s
  | .escutcheonFailure => Sys2Proof.Machine.execEscutcheonFailure s
  | .dowel f => Sys2Proof.Machine.execDowel f s
  | .darn f => Sys2Proof.Machine.execDarn f s
  | .hbm f => Sys2Proof.Machine.execHbm f s
  | .lining f => Sys2Proof.Machine.execLining f s
  | .veneer f => Sys2Proof.Machine.execVeneer f s
  | .kat f => Sys2Proof.Machine.execKat f s
  | .ready f => Sys2Proof.Machine.execReady f s
  | .brupStepEnd e bad => Sys2Proof.Machine.execBrupStepEnd e bad s
  | .modrst f key => Sys2Proof.Machine.execModrst f key s
  | .moduleReset cause cycles => Sys2Proof.Machine.execModuleReset cause cycles s
  | .partitionReset f mask => Sys2Proof.Machine.execPartitionReset f mask s
  | .partitionResetDone p => Sys2Proof.Machine.execPartitionResetDone p s
  | .coreReset f c => Sys2Proof.Machine.execCoreReset f c s
  | .computeDieReset f d => Sys2Proof.Machine.execComputeDieReset f d s
  | .stackDrain f d => Sys2Proof.Machine.execStackDrain f d s
  | .stackForce f d => Sys2Proof.Machine.execStackForce f d s
  | .stackPhaseEnd e lanes bad => Sys2Proof.Machine.execStackPhaseEnd e lanes bad s
  | .pairCfgWrite f v => Sys2Proof.Machine.execPairCfgWrite f v s
  | .arm f => Sys2Proof.Machine.execArm f s
  | .disarm f => Sys2Proof.Machine.execDisarm f s
  | .mirrorSend p => Sys2Proof.Machine.execMirrorSend p s
  | .pairAliveDrop => Sys2Proof.Machine.execPairAliveDrop s
  | .idleFlit n flit => Sys2Proof.Machine.execIdleFlit n flit s
  | .droopRecovery core => Sys2Proof.Machine.execDroopRecovery core s
  | .hostPortLinkUp port flit speed width => Sys2Proof.Machine.execHostPortLinkUp port flit speed width s
  | .layerSensorTimeout stack layer => Sys2Proof.Machine.execLayerSensorTimeout stack layer s
  | .pendingSetMove g => Sys2Proof.Machine.execPendingSetMove g s

end Sys2Proof.Machine
end

