-- ==== Sys2Proof/Machine/Idle.lean ====
section
/-! DEFINITION. What the block does when no command waits. -/

namespace Sys2Proof.Machine

/-- One cycle of the 100 MHz reference (R439): time passes, accesses and host requests that had to wait for memory are tried again,
and links that await an INIT send theirs. DESIGN CHOICE (log entry 1): nothing else happens without a command, but for accesses of a
port that were put off. -/
def State.idle (s : State) : State :=
  (((({ s with now := s.now + Config.idleNs } : State).retryBlocked).initAgain).hostPump 0).hostPump 1

end Sys2Proof.Machine
end

