-- ==== Sys2Proof/Machine/Later.lean ====
section
/-! DEFINITION. The accesses to BAR0 and BAR4 that waited for posted writes of BAR2 on their port (R370, R372). -/

namespace Sys2Proof.Machine

/-- A read of a register that was put off is answered by a completion. -/
def State.lateReply (s : State) : Instr → State
  | .lowWordRead (.fn f) _ _ => s.send (.completion (fnIx f) .ok 0 (leBytes s.reply.value 4))
  | .highWordRead (.fn f) _ _ => s.send (.completion (fnIx f) .ok 0 (leBytes s.reply.value 4))
  | .fitRecRead (.fn f) => s.send (.completion (fnIx f) .ok 0 (leBytes s.reply.value 4))
  | _ => s

/-- The accesses of a port that were put off are made in order, once no posted write is before them. -/
def runLater (port : Nat) : Nat → State → Host.Outcome State Fault Refusal
  | 0, s => .next s
  | n + 1, s =>
    let x := s.port port
    match x.later with
    | [] => .next s
    | (t, c) :: rest =>
      if x.ops.any (·.write) then .next s
      else
        match exec c (s.portSet port { x with later := [], arrived := some t }) with
        | .next u =>
          let u := u.portSet port { u.port port with later := (u.port port).later ++ rest, arrived := none }
          runLater port n (u.lateReply c)
        | o => o

/-- Both ports' accesses that were put off. -/
def State.runLater (s : State) : Host.Outcome State Fault Refusal :=
  match Sys2Proof.Machine.runLater 0 (s.port 0).later.length s with
  | .next u => Sys2Proof.Machine.runLater 1 (u.port 1).later.length u
  | o => o

end Sys2Proof.Machine
end

