-- ==== Sys2Proof/Machine/Step.lean ====
section
/-! DEFINITION. One step: the command at the front of the queue, or one idle cycle. -/

namespace Sys2Proof.Machine

/-- The command at the front acts on everything but the queue; on an empty queue one cycle of the reference passes, and the host
accesses that were put off are made if they can be (R370).
DESIGN CHOICE (log entry 1): an idle step is one cycle of the 100 MHz reference (R439). -/
def step (s : State) : Host.Outcome State Fault Refusal :=
  match s.pending with
  | [] => s.idle.runLater
  | c :: rest => exec c { s with pending := rest }

/-- The state with the command that the word spells put at the front of the queue. -/
def State.withFetchWord (s : State) (nbits w : Nat) : State :=
  match decodeTableWord nbits w with
  | some c => { s with pending := c :: s.pending }
  | none => s

end Sys2Proof.Machine
end

