-- ==== Sys2Proof/Safety.lean ====
section
/-! DEFINITION. The terms in which the claims speak of safe states, of a thread instruction that issues, and of what a
command leaves alone. -/

namespace Sys2Proof.Machine

/-! ## Safe states -/

/-- The canonical form of the block's memories: keys rise strictly; BAR4, staging and the lining list no zero byte. -/
def State.memWf (s : State) : Bool :=
  cellsWf s.bar4 && cellsWf s.staging && cellsWf s.lin.data && sortedKeys s.hbm.data

/-- Every fuse burnt in `x` is burnt in `y`: key slots stay enrolled and revoked, the version floor does not fall (R441). -/
def Fuses.le (x y : Fuses) : Prop :=
  x.svn ≤ y.svn ∧ ∀ party slot,
    (bitOf (mget x.enrolled party 0) slot = true → bitOf (mget y.enrolled party 0) slot = true) ∧
    (bitOf (mget x.revoked party 0) slot = true → bitOf (mget y.revoked party 0) slot = true)

/-! ## Frames -/

/-- Of the state, only the registers with keys in `ks` may differ, and the note of which event bits were set when. -/
def onlyRegs (ks : List Nat) (s t : State) : Prop :=
  (∀ k, k ∉ ks → t.rg k = s.rg k) ∧ { t with regs := s.regs, setAt := s.setAt } = s

/-- A requester of registers does not wait behind posted accesses of its port; firmware never does (R370). -/
def atOnce (s : State) : Req → Prop
  | .fn f => s.mustWait (portOf f) = false
  | _ => True

/-- The lining with the mark of a request that cannot proceed taken off. -/
def Lining.calm (l : Lining) : Lining := { l with stuck := none }

/-- Of the state, only the jig engines may differ; a request that could not proceed is forgotten, and descriptors that have been
used are gone. -/
def onlyJig (s t : State) : Prop :=
  { t with jig := s.jig, lin := s.lin, spl := s.spl } = s ∧ t.lin.calm = s.lin.calm ∧ { t.spl with far := s.spl.far } = s.spl

/-- Of the registers, only those with keys in `ks` may differ. -/
def sameRegs (ks : List Nat) (s t : State) : Prop := ∀ k, k ∉ ks → t.rg k = s.rg k

/-! ## Thread instructions -/

/-- The number of a group. -/
def gid (g : GroupId) : Nat := gix g.core.val g.slot.val

/-- Group `g` has its turn to issue: it is READY with no fault pending and its watchdog running, and its core has a clock and room
in its active set. -/
structure HasTurn (s : State) (g : GroupId) : Prop where
  ready : (s.group (gid g)).st = .ready
  unstalled : (s.group (gid g)).stalled = false
  unexpired : (s.group (gid g)).expired = false
  clocked : s.clockStopped g.core.val = false
  admitted : (s.takeTurn (gid g)).isSome = true
  faultless : (s.group (gid g)).async = none

/-- Group `g` can issue `i`, an instruction of form `f`, and goes on behind it without reconverging: it has its turn, nothing it
needs is awaited, the PC lies in the program, the form is met, and some lane stays active. -/
structure Issues (s : State) (g : GroupId) (i : Insn) (f : Form) : Prop extends HasTurn s g where
  operands : (s.group (gid g)).hazard f i = false
  inside : ∃ p, s.corePart g.core.val = some p ∧ 0x40 ≤ (s.group (gid g)).pc ∧ (s.group (gid g)).pc % 8 = 0 ∧
    (s.group (gid g)).pc + insnLen i ≤ s.ptn.running.progLen p
  form : f.ok i = true
  lanes : (s.group (gid g)).replay.getD (s.group (gid g)).active ≠ 0
  path : ∀ e, (s.group (gid g)).stack.head? = some e → (s.group (gid g)).pc + insnLen i ≠ e.rpc

/-- The group behind an instruction that changed no register and no predicate; `n` is the core's issue count. -/
def Group.behind (x : Group) (op : Nat) (i : Insn) (n : Nat) : Group :=
  { x with pc := x.pc + insnLen i, active := x.replay.getD x.active, replay := none, st := .ready, wait := .nothing,
           word := insnWord op i, len := insnLen i, wdog := x.wdog + 1, issued := n }

/-- Is the lane effective (R195)? -/
def Group.inEffect (x : Group) (i : Insn) (l : Nat) : Prop := bitOf x.active.toNat l = true ∧ l < 32 ∧ (x.q l i.pred.toNat != i.pneg) = true

/-- What issuing leaves alone: every other group, every register but the core's issue count and, on a parity error of the
instruction cache, the count of corrected errors (R251), of the cores all but the active sets and the cycles of R172, and all
else. -/
def issueFrame (s t : State) (g : GroupId) (i : Insn) : Prop :=
  (∀ h, h ≠ (gid g) → t.group h = s.group h) ∧
  sameRegs ([coreReg Reg.CORE_ISSUE g.core.val, coreReg Reg.CORE_ISSUE g.core.val + 4] ++
    (if i.parity then [Reg.LIN_ECC_CORR] else [])) s t ∧
  (∀ c, { t.core c with
    activeSet := (s.core c).activeSet, cycle := (s.core c).cycle, proofCycles := (s.core c).proofCycles } = s.core c) ∧
  { t with groups := s.groups, regs := s.regs, cores := s.cores } = s

/-- In every effective lane register D holds `v`, and nothing else of the group's registers and predicates changed. -/
def writesD (s t : State) (g : GroupId) (op : Nat) (i : Insn) (v : Group → Nat → Word) : Prop :=
  let x := s.group (gid g)
  let y := t.group (gid g)
  (∀ l, x.inEffect i l → y.w l i.d.toNat = v x l) ∧
  (∀ l r, r < 128 → ¬(x.inEffect i l ∧ r = i.d.toNat) → y.w l r = x.w l r) ∧
  { y with regs := x.regs } = x.behind op i y.issued ∧ issueFrame s t g i

/-- In every effective lane predicate D holds `v`, unless it is q7, which reads 1; all else of the group is as before. -/
def writesQ (s t : State) (g : GroupId) (op : Nat) (i : Insn) (v : Group → Nat → Bool) : Prop :=
  let x := s.group (gid g)
  let y := t.group (gid g)
  (∀ l, x.inEffect i l → i.d.toNat < 7 → y.q l i.d.toNat = v x l) ∧
  (∀ l p, p < 8 → ¬(x.inEffect i l ∧ p = i.d.toNat ∧ p < 7) → y.q l p = x.q l p) ∧
  { y with preds := x.preds } = x.behind op i y.issued ∧ issueFrame s t g i

/-- The group goes on behind the instruction with the accesses `as` outstanding, each in exactly one kind of new request; no
memory has changed. -/
def sends (s t : State) (g : GroupId) (i : Insn) (kind : ReqKind) (dst : Nat) (as : List LaneAcc) : Prop :=
  let x := s.group (gid g)
  let y := t.group (gid g)
  (∃ new : List MemReq, y.reqs = x.reqs ++ new ∧ (∀ a, a ∈ as ↔ ∃ r ∈ new, a ∈ r.lanes) ∧
    ∀ r ∈ new, r.kind = kind ∧ r.dst = dst ∧ r.remote = none) ∧
  y.pc = x.pc + insnLen i ∧ y.st = .ready ∧ y.regs = x.regs ∧ y.preds = x.preds ∧ issueFrame s t g i

/-- Nothing of the group but its control state changed. -/
def writesNothing (s t : State) (g : GroupId) (op : Nat) (i : Insn) : Prop :=
  t.group (gid g) = (s.group (gid g)).behind op i (t.group (gid g)).issued ∧ issueFrame s t g i

end Sys2Proof.Machine
end

