-- ==== Sys2Proof/Certificates/Slice0/Obligations.lean ====
section
/-! DEFINITION. The statements for the provers. -/

open Sys2Proof Sys2Proof.Machine

/-! ## Thread instructions -/

/-- R195, R197, R198, R485: the integer instructions write D in every effective lane, and nothing else; a shift by 32 or more
shifts out every bit, and SAR then gives the sign of A in every bit. -/
def Obligations.IntegerResults : Prop :=
  (∀ (g : GroupId) (i : Insn) (s : State),
  (Issues s g i (binForm i 0) →
    (∃ t, exec (.iadd g i) s = .next t ∧ writesD s t g 0x10 i (fun x l => x.w l i.a.toNat + x.opB i l)) ∧
    (∃ t, exec (.isub g i) s = .next t ∧ writesD s t g 0x11 i (fun x l => x.w l i.a.toNat - x.opB i l)) ∧
    (∃ t, exec (.imul g i) s = .next t ∧ writesD s t g 0x12 i (fun x l => x.w l i.a.toNat * x.opB i l)) ∧
    (∃ t, exec (.iand g i) s = .next t ∧ writesD s t g 0x14 i (fun x l => x.w l i.a.toNat &&& x.opB i l)) ∧
    (∃ t, exec (.ior g i) s = .next t ∧ writesD s t g 0x15 i (fun x l => x.w l i.a.toNat ||| x.opB i l)) ∧
    (∃ t, exec (.ixor g i) s = .next t ∧ writesD s t g 0x16 i (fun x l => x.w l i.a.toNat ^^^ x.opB i l))) ∧
  (Issues s g i (unForm i 0) →
    ∃ t, exec (.inot g i) s = .next t ∧ writesD s t g 0x17 i (fun x l => ~~~(x.w l i.a.toNat)))) ∧
  (∀ (g : GroupId) (i : Insn) (s : State), Issues s g i (binForm i 0) →
  (∃ t, exec (.shl g i) s = .next t ∧ writesD s t g 0x18 i (fun x l =>
    BitVec.ofNat 32 ((x.w l i.a.toNat).toNat * 2 ^ (x.opB i l).toNat))) ∧
  (∃ t, exec (.shr g i) s = .next t ∧ writesD s t g 0x19 i (fun x l =>
    BitVec.ofNat 32 ((x.w l i.a.toNat).toNat / 2 ^ (x.opB i l).toNat))) ∧
  (∃ t, exec (.sar g i) s = .next t ∧ writesD s t g 0x1A i (fun x l =>
    if (x.opB i l).toNat < 32 then BitVec.ofInt 32 ((x.w l i.a.toNat).toInt / 2 ^ (x.opB i l).toNat)
    else if (x.w l i.a.toNat).toInt < 0 then 0xFFFFFFFF else 0)))

/-- R485, Signedness and Comparisons: high products, minimum, maximum and integer comparison, signed where MOD[3] is 1. -/
def Obligations.SignedResults : Prop := ∀ (g : GroupId) (i : Insn) (s : State),
  let val := fun (w : Word) => if modBit i 3 then w.toInt else (w.toNat : Int)
  (Issues s g i (binForm i 8) →
    (∃ t, exec (.imulhi g i) s = .next t ∧ writesD s t g 0x13 i (fun x l =>
      BitVec.ofInt 32 (val (x.w l i.a.toNat) * val (x.opB i l) / 2 ^ 32))) ∧
    (∃ t, exec (.imin g i) s = .next t ∧ writesD s t g 0x1B i (fun x l =>
      BitVec.ofInt 32 (min (val (x.w l i.a.toNat)) (val (x.opB i l))))) ∧
    (∃ t, exec (.imax g i) s = .next t ∧ writesD s t g 0x1C i (fun x l =>
      BitVec.ofInt 32 (max (val (x.w l i.a.toNat)) (val (x.opB i l)))))) ∧
  (Issues s g i (cmpForm i 8 6) →
    ∃ t, exec (.isetp g i) s = .next t ∧ writesQ s t g 0x1D i (fun x l =>
      let a := val (x.w l i.a.toNat)
      let b := val (x.opB i l)
      match i.mod.toNat % 8 with
      | 0 => decide (a = b)
      | 1 => decide (a ≠ b)
      | 2 => decide (a < b)
      | 3 => decide (a ≤ b)
      | 4 => decide (a > b)
      | _ => decide (a ≥ b)))

/-- R198, R485: the FP32 instructions write D in every effective lane. That FFMA rounds once, its product exact, is the model's
reading (DEDUCED, log entry 49). -/
def Obligations.FloatResults : Prop := ∀ (g : GroupId) (i : Insn) (s : State),
  (Issues s g i (binForm i 0) →
    (∃ t, exec (.fadd g i) s = .next t ∧ writesD s t g 0x20 i (fun x l => toF32 ((f32 (x.w l i.a.toNat)).add (f32 (x.opB i l))))) ∧
    (∃ t, exec (.fsub g i) s = .next t ∧ writesD s t g 0x21 i (fun x l =>
      toF32 ((f32 (x.w l i.a.toNat)).add (f32 (x.opB i l)).neg))) ∧
    (∃ t, exec (.fmul g i) s = .next t ∧ writesD s t g 0x22 i (fun x l => toF32 ((f32 (x.w l i.a.toNat)).mul (f32 (x.opB i l)))))) ∧
  (Issues s g i { binForm i 0 with c := .regs 1 } →
    ∃ t, exec (.ffma g i) s = .next t ∧ writesD s t g 0x23 i (fun x l =>
      toF32 (((f32 (x.w l i.a.toNat)).mul (f32 (x.opB i l))).add (f32 (x.w l i.c.toNat))))) ∧
  (Issues s g i (unForm i 0) →
    (∃ t, exec (.fabs g i) s = .next t ∧ writesD s t g 0x26 i (fun x l => toF32 (f32 (x.w l i.a.toNat)).abs)) ∧
    (∃ t, exec (.fneg g i) s = .next t ∧ writesD s t g 0x27 i (fun x l => toF32 (f32 (x.w l i.a.toNat)).neg)) ∧
    (∃ t, exec (.frcp g i) s = .next t ∧ writesD s t g 0x29 i (fun x l => recip (x.w l i.a.toNat))))

/-- R485: minimum and maximum take the operand that is no NaN, and give 0x7FC0_0000 where both are; in a comparison with a
NaN only NE and UNORD hold. -/
def Obligations.FloatCompares : Prop := ∀ (g : GroupId) (i : Insn) (s : State),
  (Issues s g i (binForm i 0) →
    (∃ t, exec (.fmin g i) s = .next t ∧ writesD s t g 0x24 i (fun x l => minMax false (x.w l i.a.toNat) (x.opB i l))) ∧
    (∃ t, exec (.fmax g i) s = .next t ∧ writesD s t g 0x25 i (fun x l => minMax true (x.w l i.a.toNat) (x.opB i l)))) ∧
  (∀ m a b, (f32 a).isNan → minMax m a b = if (f32 b).isNan then 0x7FC00000 else b) ∧
  (∀ m a b, ¬(f32 a).isNan → (f32 b).isNan → minMax m a b = a) ∧
  (Issues s g i (cmpForm i 0 7) →
    ∃ t, exec (.fsetp g i) s = .next t ∧ writesQ s t g 0x28 i (fun x l =>
      let a := f32 (x.w l i.a.toNat)
      let b := f32 (x.opB i l)
      if a.isNan || b.isNan then i.mod.toNat % 8 == 1 || i.mod.toNat % 8 == 6
      else match i.mod.toNat % 8 with
      | 0 => a.same b
      | 1 => !a.same b
      | 2 => a.lt b
      | 3 => !b.lt a
      | 4 => b.lt a
      | 5 => !a.lt b
      | _ => false))

/-- R216, R485: conversions between integers and FP32, moves and special values. That MOV with MOD[6] 1 takes its immediate as MOVI
does is the model's reading (DEDUCED, log entry 16). -/
def Obligations.MoveResults : Prop := ∀ (g : GroupId) (i : Insn) (s : State),
  (Issues s g i { unForm i 9 with size := 8 } →
    ∃ t, exec (.f2i g i) s = .next t ∧ writesD s t g 0x31 i (fun x l =>
      f2iWord (modBit i 3) (modBit i 0) (f32 (x.w l i.a.toNat)))) ∧
  (∀ u z, f2iWord u z .nan = 0) ∧
  (∀ u z, f2iWord u z (.inf false) = (if u then 0xFFFFFFFF else 0x7FFFFFFF)) ∧
  (∀ u z, f2iWord u z (.inf true) = (if u then 0 else 0x80000000)) ∧
  (Issues s g i { unForm i 8 with size := 8 } →
    ∃ t, exec (.i2f g i) s = .next t ∧ writesD s t g 0x32 i (fun x l =>
      let v : Int := if modBit i 3 then ((x.w l i.a.toNat).toNat : Int) else (x.w l i.a.toNat).toInt
      toF32 (.fin (decide (v < 0)) v.natAbs 0))) ∧
  (modBit i 6 = false → Issues s g i { size := 0, d := .regs 1, a := .regs 1, mod := modOnly i 0x40 } →
    ∃ t, exec (.mov g i) s = .next t ∧ writesD s t g 0x40 i (fun x l => x.w l i.a.toNat)) ∧
  (modBit i 6 = true → Issues s g i { size := 0, d := .regs 1, wide := true, mod := modOnly i 0x40 } →
    ∃ t, exec (.mov g i) s = .next t ∧ writesD s t g 0x40 i (fun _ _ => immOf i)) ∧
  (Issues s g i { size := 0, d := .regs 1, wide := true, mod := modOnly i 0 } →
    ∃ t, exec (.movi g i) s = .next t ∧ writesD s t g 0x41 i (fun _ _ =>
      match i.ext with
      | some e => e.truncate 32
      | none => i.imm.signExtend 32)) ∧
  (∀ sel, sel < 12 → i.mod.toNat = sel → Issues s g i { size := 0, d := .regs 1 } →
    let p := s.groupPart (gid g)
    let step := s.rg64 (Reg.TICK_STEPNO + 0x20 * p) - 1
    ∃ t, exec (.movs g i) s = .next t ∧ writesD s t g 0x42 i (fun x l => BitVec.ofNat 32 (match sel with
      | 0 => l
      | 1 => g.slot.val
      | 2 => g.core.val
      | 3 => p
      | 4 => (s.part p).boundary
      | 5 => (s.part p).boundary / 2 ^ 32
      | 6 => step
      | 7 => step / 2 ^ 32
      | 8 => s.epoch p
      | 9 => x.active.toNat
      | 10 => x.cvNan + 2 ^ 16 * x.cvOvf
      | _ => x.cvFlush))) ∧
  (i.mod.toNat = 0 → Issues s g i { size := 0, d := .regs 1, drain := true } →
    ∃ t, exec (.pmov g i) s = .next t ∧ writesD s t g 0x43 i (fun x l =>
      BitVec.ofNat 32 (128 + (mget x.preds l 0).toNat))) ∧
  (i.mod.toNat = 1 → Issues s g i { size := 0, a := .regs 1, drain := true } →
    ∃ t, exec (.pmov g i) s = .next t ∧ ∀ l p, (s.group (gid g)).inEffect i l → p < 7 →
      (t.group (gid g)).q l p = bitOf ((s.group (gid g)).w l i.a.toNat).toNat p)

/-- R198, R199: NOP does nothing, and an opcode outside Table 9.3 parks its group with F_ILLEGAL; BR moves the PC when its effective
lanes are all or none of the active ones, and otherwise pushes the path at the higher address, with a join entry where the
reconvergence point is new, and runs the path at the lower; a push beyond 16 entries parks the group with F_ILLEGAL (R173). -/
def Obligations.BranchResults : Prop := ∀ (g : GroupId) (i : Insn) (s : State),
  let x := s.group (gid g)
  let e := (i.ext.getD 0).toNat
  let target := pcPlus x.pc (e % 2 ^ 32)
  let rpc := pcPlus x.pc (e / 2 ^ 32)
  let fall := x.pc + 16
  let eff := x.effective i
  let other := x.active &&& ~~~eff
  let high : RecEnt := ⟨max target fall, if target < fall then other else eff, rpc⟩
  let pushed := high :: ((if x.stack.head?.any (·.rpc == rpc) then [] else [⟨rpc, x.active, rpc⟩]) ++ x.stack)
  let f : Form := { size := 16, ext := 2 ^ 64 - 1, mod := modOnly i 0, drain := true }
  (Issues s g i { mod := modOnly i 0 } → ∃ t, exec (.nop g 0 i) s = .next t ∧ writesNothing s t g 0x00 i) ∧
  (∀ op : BitVec 8, tableOp op.toNat = false → HasTurn s g → x.reqs = [] → (∀ o ∈ x.ops, o.2.failed = 0) →
    ∃ t, exec (.nop g op i) s = .next t ∧ (t.group (gid g)).st = .parked ∧ (t.group (gid g)).pc = x.pc ∧
      (mget t.parks (gid g) {}).code = fIllegal ∧ (mget t.parks (gid g) {}).pc = x.pc ∧
      (t.group (gid g)).regs = x.regs ∧ t.lin = s.lin ∧ t.hbm = s.hbm ∧ t.staging = s.staging) ∧
  (Issues s g i f → x.replay = none →
    (eff = 0 → ∃ t, exec (.br g i) s = .next t ∧ (t.group (gid g)).pc = fall ∧
      (t.group (gid g)).active = x.active ∧ (t.group (gid g)).stack = x.stack ∧
      (t.group (gid g)).regs = x.regs ∧ (t.group (gid g)).preds = x.preds ∧ issueFrame s t g i) ∧
    (eff ≠ 0 → other = 0 → (∀ h, x.stack.head? = some h → target ≠ h.rpc) →
      ∃ t, exec (.br g i) s = .next t ∧ (t.group (gid g)).pc = target ∧
        (t.group (gid g)).active = x.active ∧ (t.group (gid g)).stack = x.stack ∧
        (t.group (gid g)).regs = x.regs ∧ (t.group (gid g)).preds = x.preds ∧ issueFrame s t g i) ∧
    (eff ≠ 0 → other ≠ 0 → target ≠ fall → 16 < pushed.length →
      ∃ t, exec (.br g i) s = .next t ∧ (t.group (gid g)).st = .parked ∧ (mget t.parks (gid g) {}).code = fIllegal ∧
        (mget t.parks (gid g) {}).pc = x.pc ∧ (t.group (gid g)).stack = x.stack ∧ (∀ h, h ≠ gid g → t.group h = s.group h)) ∧
    (eff ≠ 0 → other ≠ 0 → target ≠ fall → min target fall ≠ rpc → pushed.length ≤ 16 →
      ∃ t, exec (.br g i) s = .next t ∧ (t.group (gid g)).pc = min target fall ∧
        (t.group (gid g)).active = (if target < fall then eff else other) ∧
        (t.group (gid g)).stack = pushed ∧
        (t.group (gid g)).regs = x.regs ∧ (t.group (gid g)).preds = x.preds ∧ issueFrame s t g i))

/-- R167, R173, R199, R200: END takes its effective lanes from the group and from every stack entry, and the last lane's END
frees the slot, while a path with lanes left goes on from the top entry; SPAWN starts a group in a free general slot with four
registers of its own, and says which; without a slot it writes 0xFFFF_FFFF and starts nothing. -/
def Obligations.GroupsEndAndStart : Prop :=
  (∀ (g : GroupId) (i : Insn) (s : State),
  let x := s.group (gid g)
  let rest := x.active &&& ~~~x.effective i
  let less := fun (e : RecEnt) => { e with lanes := e.lanes &&& ~~~x.effective i }
  let left := fun (e : RecEnt) => e.lanes &&& x.alive &&& ~~~x.effective i
  Issues s g i { mod := modOnly i 0, drain := true } →
  (rest ≠ 0 → ∃ t, exec (.endLanes g i) s = .next t ∧ (t.group (gid g)).active = rest ∧
    (t.group (gid g)).alive = x.alive &&& ~~~x.effective i ∧ (t.group (gid g)).pc = x.pc + 8 ∧
    (t.group (gid g)).stack = x.stack.map less ∧
    (t.group (gid g)).regs = x.regs ∧ (t.group (gid g)).preds = x.preds ∧ issueFrame s t g i) ∧
  (∀ e tail, rest = 0 → x.stack = e :: tail → e.clamps x = false → left e ≠ 0 → (∀ h, tail.head? = some h → e.resume ≠ h.rpc) →
    ∃ t, exec (.endLanes g i) s = .next t ∧ (t.group (gid g)).st = .ready ∧ (t.group (gid g)).pc = e.resume ∧
    (t.group (gid g)).active = left e ∧ (t.group (gid g)).alive = x.alive &&& ~~~x.effective i ∧
    (t.group (gid g)).stack = tail.map less ∧
    (t.group (gid g)).regs = x.regs ∧ (t.group (gid g)).preds = x.preds ∧ issueFrame s t g i) ∧
  (rest = 0 → (∀ e ∈ x.stack, e.clamps x = false ∧ left e = 0) → x.stack.length ≤ 16 → ∃ t, exec (.endLanes g i) s = .next t ∧ t.group (gid g) = {} ∧
    (∀ h, h ≠ gid g → t.group h = s.group h) ∧ t.hbm = s.hbm ∧ t.lin = s.lin ∧ t.bar4 = s.bar4 ∧ t.staging = s.staging)) ∧
  (∀ (g : GroupId) (i : Insn) (s : State),
  let x := s.group (gid g)
  let c := g.core.val
  let entry := (i.ext.getD 0).toNat % 2 ^ 32
  let want := (x.w x.lowest i.a.toNat).toNat
  let free := (s.generalSlots c).filter (fun k => (s.group (gix c k)).st == .free)
  Issues s g i { size := 16, grp := true, d := .regs 1, a := .regs 1, b := .regs 4, ext := 0xFFFFFFFF, drain := true } →
  i.mod = 0 → entry % 8 = 0 → x.isProof = false → x.replay = none →
  (∀ k, (if want = 0 then free.head? else free.find? (· == want)) = some k →
    ∃ t, exec (.spawn g i) s = .next t ∧
      (t.group (gix c k)).st = .ready ∧ (t.group (gix c k)).pc = entry ∧ (t.group (gix c k)).active = allLanes ∧
      (∀ l j, l < 32 → j < 4 →
        (t.group (gix c k)).w l j = if bitOf x.active.toNat l then x.w l (i.b.toNat + j) else 0) ∧
      (∀ l, l < 32 → bitOf x.active.toNat l → (t.group (gid g)).w l i.d.toNat = BitVec.ofNat 32 k) ∧
      (∀ h, h ≠ gid g → h ≠ gix c k → t.group h = s.group h)) ∧
  ((if want = 0 then free.head? else free.find? (· == want)) = none →
    ∃ t, exec (.spawn g i) s = .next t ∧
      (∀ l, l < 32 → bitOf x.active.toNat l → (t.group (gid g)).w l i.d.toNat = 0xFFFFFFFF) ∧ issueFrame s t g i))

/-- R171, R180, R201: a group that arrives before the last waits at the barrier, the last arrival makes every group that waits there
READY behind its BAR, and an arrival that names another count parks; under the two-level scheduler a BUSY group of the active set
moves out, and the READY pending groups that issued least recently take the free places. -/
def Obligations.BarriersAndScheduling : Prop :=
  (∀ (g : GroupId) (i : Insn) (s : State),
  let c := g.core.val
  let b := i.mod.toNat % 16
  let n := i.imm.toNat % 64 + 1
  let y := mget (s.core c).bars b {}
  Issues s g i { grp := true, imm := true, mod := modOnly i 15 && i.imm.toNat / 64 == 0, drain := true } →
  (y.arrived = [] ∨ y.need = n) →
  (y.arrived.length + 1 < n → ∃ t, exec (.bar g i) s = .next t ∧ (t.group (gid g)).st = .waiting ∧
    (t.group (gid g)).wait = .barrier b ∧ (t.group (gid g)).barrier = some b ∧
    (mget (t.core c).bars b {}).arrived = y.arrived ++ [g.slot.val] ∧ (mget (t.core c).bars b {}).need = n ∧
    (∀ h, h ≠ gid g → t.group h = s.group h) ∧ { t with groups := s.groups, regs := s.regs, cores := s.cores } = s) ∧
  (n ≤ y.arrived.length + 1 → ∃ t, exec (.bar g i) s = .next t ∧ (mget (t.core c).bars b {}).arrived = [] ∧
    (∀ b', b' ≠ b → mget (t.core c).bars b' {} = mget (s.core c).bars b' {}) ∧
    (t.group (gid g)).st = .ready ∧ (t.group (gid g)).pc = (s.group (gid g)).pc + 8 ∧ (t.group (gid g)).barrier = none ∧
    (∀ k ∈ y.arrived, let z := s.group (gix c k)
      z.st = .waiting → z.wait = .barrier b → z.replay.getD z.active ≠ 0 → z.stack = [] →
      (t.group (gix c k)).st = .ready ∧ (t.group (gix c k)).pc = z.pc + z.len ∧ (t.group (gix c k)).barrier = none ∧
      (t.group (gix c k)).regs = z.regs ∧ (t.group (gix c k)).preds = z.preds) ∧
    (∀ h, h ≠ gid g → (∀ k ∈ y.arrived, h ≠ gix c k) → t.group h = s.group h) ∧
    t.hbm = s.hbm ∧ t.lin = s.lin ∧ t.staging = s.staging ∧ t.bar4 = s.bar4)) ∧
  (∀ (g : GroupId) (i : Insn) (s : State),
  let y := mget (s.core g.core.val).bars (i.mod.toNat % 16) {}
  Issues s g i { grp := true, imm := true, mod := modOnly i 15 && i.imm.toNat / 64 == 0, drain := true } →
  y.arrived ≠ [] → y.need ≠ i.imm.toNat % 64 + 1 →
  ∃ t, exec (.bar g i) s = .next t ∧ (t.group (gid g)).st = .parked ∧ (mget t.parks (gid g) {}).code = fIllegal ∧
    (mget t.parks (gid g) {}).pc = (s.group (gid g)).pc ∧ (∀ h, h ≠ gid g → t.group h = s.group h)) ∧
  (∀ (g : GroupId) (s : State),
  let c := g.core.val
  let x := s.group (gid g)
  let acts := (s.core c).activeSet
  let left := acts.filter (· != g.slot.val)
  let due := s.twoLevel c = true ∧ s.clockStopped c = false ∧ g.slot ≠ 0 ∧ g.slot.val ∈ acts ∧ x.st = .busy ∧ x.stalled = false ∧ x.reqs ≠ []
  let pending := fun (k : Nat) => k < 64 ∧ (s.group (gix c k)).st = .ready ∧ k ∉ acts
  let before := fun (k j : Nat) => (s.group (gix c k)).issued < (s.group (gix c j)).issued ∨
    ((s.group (gix c k)).issued = (s.group (gix c j)).issued ∧ k ≤ j)
  (due → ∃ t new, exec (.pendingSetMove g) s = .next t ∧ (t.core c).activeSet = left ++ new ∧
    new.Nodup ∧ (∀ k ∈ new, pending k) ∧ new.Pairwise before ∧ new.length ≤ 8 - left.length ∧
    (new.length < 8 - left.length → ∀ k, pending k → k ∈ new) ∧ (∀ k ∈ new, ∀ j, pending j → j ∉ new → before k j) ∧
    { t.core c with activeSet := acts } = s.core c ∧ (∀ d, d ≠ c → t.core d = s.core d) ∧ { t with cores := s.cores } = s) ∧
  (¬due → exec (.pendingSetMove g) s = .next s))

/-- R187 to R189: a deadlock of a group's own lanes and the watchdog park it with their codes, the watchdog once nothing of the
group is in flight; the park record holds the PC, the active mask and the stack, and memory is as it was. -/
def Obligations.ParksByEvent : Prop := ∀ (g : GroupId) (s : State),
  let x := s.group (gid g)
  let keeps := fun (t : State) => t.hbm = s.hbm ∧ t.lin = s.lin ∧ t.bar4 = s.bar4 ∧ t.staging = s.staging ∧
    (∀ h, h ≠ gid g → t.group h = s.group h)
  s.clockStopped g.core.val = false →
  (x.st = .waiting → x.wait = .clamp → x.reqs = [] → x.deadlocked (gid g) = true →
    ∃ t, exec (.clampDeadlock g) s = .next t ∧ (t.group (gid g)).st = .parked ∧
      (mget t.parks (gid g) {}).code = fClampDeadlock ∧ (mget t.parks (gid g) {}).stack = x.stack ∧
      some (mget t.parks (gid g) {}).pc = x.stack.head?.map (·.resume) ∧ keeps t) ∧
  (x.st = .ready ∨ x.st = .busy → x.reqs ≠ [] →
    ∃ t, exec (.watchdogExpiry g) s = .next t ∧
      t.group (gid g) = { x with st := .busy, wdog := 2 ^ 24, stalled := false, expired := true } ∧ keeps t) ∧
  (x.st = .ready ∨ x.st = .busy → x.reqs = [] →
    ∃ t, exec (.watchdogExpiry g) s = .next t ∧ (t.group (gid g)).st = .parked ∧
      (mget t.parks (gid g) {}).code = fNoProgress ∧ (mget t.parks (gid g) {}).pc = x.pc ∧
      (mget t.parks (gid g) {}).wdog = 2 ^ 24 ∧ (mget t.parks (gid g) {}).active = (x.replay.getD x.active).toNat ∧ keeps t)

/-- R190 to R192: what the park actions do to a parked slot, which of them Table 8.7 refuses, and that only a parked group's
registers are written; a core without a clock takes none of it (R398). -/
def Obligations.ParkActions : Prop := ∀ (f : Func) (g : GroupId) (s : State),
  let x := s.group (gid g)
  let r := mget s.parks (gid g) {}
  let res := coreReg Reg.CORE_PARK_RESULT g.core.val
  let goesOn := fun (pc : Nat) => x.active ≠ 0 ∧ ∀ e, x.stack.head? = some e → pc ≠ e.rpc
  s.mustWait (portOf f) = false →
  (s.reaches f (s.corePart g.core.val) = false ∨ s.clockStopped g.core.val = true →
    exec (.parkReplay f g) s = .next s ∧ exec (.parkSkip f g) s = .next s ∧ exec (.parkDrop f g) s = .next s ∧
    ∀ v, exec (.pregDataWrite f g.core v) s = .next s) ∧
  (s.reaches f (s.corePart g.core.val) = true → s.clockStopped g.core.val = false →
  (x.st = .parked → bitOf r.flags 4 = true → r.code ≠ fClampDeadlock → r.faults ≠ 0 →
    ∃ t, exec (.parkReplay f g) s = .next t ∧ (t.group (gid g)).st = .ready ∧ (t.group (gid g)).pc = x.pc ∧
      (t.group (gid g)).active = BitVec.ofNat 32 r.faults ∧ (t.group (gid g)).replay = some x.active ∧
      (t.group (gid g)).wdog = 0 ∧ t.rf res 9 8 = 0 ∧ (∀ h, h ≠ gid g → t.group h = s.group h) ∧
      { t with groups := s.groups, regs := s.regs } = s) ∧
  (x.st = .parked → bitOf r.flags 4 = true → r.code ≠ fClampDeadlock → r.faults = 0 → goesOn x.pc →
    ∃ t, exec (.parkReplay f g) s = .next t ∧
      t.group (gid g) = { x with st := .ready, wdog := 0, wait := .nothing } ∧ t.rf res 9 8 = 0 ∧
      (∀ h, h ≠ gid g → t.group h = s.group h) ∧ { t with groups := s.groups, regs := s.regs } = s) ∧
  (x.st = .parked → bitOf r.flags 4 = true → r.code = fClampDeadlock → x.active = 0 →
    (∃ e rest, x.stack = e :: rest ∧ e.clamps x = true ∧ e.lanes &&& x.woken = 0) →
    ∃ t, exec (.parkReplay f g) s = .next t ∧ t.group (gid g) = { x with st := .waiting, wdog := 0, wait := .clamp } ∧
      t.rf res 9 8 = 0 ∧ (∀ h, h ≠ gid g → t.group h = s.group h)) ∧
  (x.st = .parked → bitOf r.flags 5 = true → goesOn (x.pc + r.len) →
    ∃ t, exec (.parkSkip f g) s = .next t ∧
      t.group (gid g) = { x with st := .ready, wdog := 0, wait := .nothing, pc := x.pc + r.len } ∧ t.rf res 9 8 = 0 ∧
      (∀ h, h ≠ gid g → t.group h = s.group h) ∧ { t with groups := s.groups, regs := s.regs } = s) ∧
  (x.st = .parked → ∃ t, exec (.parkDrop f g) s = .next t ∧ (t.group (gid g)).st = .free ∧ t.rf res 9 8 = 0) ∧
  (x.st = .parked → bitOf r.flags 4 = false → ∃ t, exec (.parkReplay f g) s = .next t ∧ onlyRegs [res] s t ∧ t.rf res 9 8 = 2) ∧
  (x.st ≠ .parked → ∃ t, exec (.parkSkip f g) s = .next t ∧ onlyRegs [res] s t ∧ t.rf res 9 8 = 1) ∧
  (∀ v, let sel := (s.rg (coreReg Reg.CORE_PREG_SEL g.core.val)).toNat
    let h := gix g.core.val (bitsOf sel 21 16)
    ((s.group h).st = .parked → ∃ t, exec (.pregDataWrite f g.core v) s = .next t ∧
      (t.group h).w (bitsOf sel 12 8) (bitsOf sel 6 0) = v ∧ (∀ k, k ≠ h → t.group k = s.group k) ∧
      { t with groups := s.groups } = s) ∧
    ((s.group h).st ≠ .parked → exec (.pregDataWrite f g.core v) s = .next s)))

/-- R202: the supervisor reads and writes registers of a parked group of its core, and its park action's result code reaches
every active lane; REPLAY and SKIP act on the parked group as R190 says. -/
def Obligations.SupervisorInstructions : Prop := ∀ (g : GroupId) (i : Insn) (s : State),
  let x := s.group (gid g)
  let c := g.core.val
  let sel := (x.w x.lowest i.a.toNat).toNat
  let h := gix c (bitsOf sel 21 16)
  g.slot = 0 → x.replay = none →
  (Issues s g i { grp := true, d := .regs 1, a := .regs 1, mod := modOnly i 0, drain := true } →
    ∃ t, exec (.pregrd g i) s = .next t ∧
      (∀ l, l < 32 → bitOf x.active.toNat l → (t.group (gid g)).w l i.d.toNat =
        if (s.group h).st = .parked then (s.group h).w (bitsOf sel 12 8) (bitsOf sel 6 0) else 0) ∧ issueFrame s t g i) ∧
  (Issues s g i { grp := true, a := .regs 1, b := .regs 1, mod := modOnly i 0, drain := true } → (s.group h).st = .parked →
    ∃ t, exec (.pregwr g i) s = .next t ∧ (t.group h).w (bitsOf sel 12 8) (bitsOf sel 6 0) = x.w x.lowest i.b.toNat ∧
      (∀ k, k ≠ h → k ≠ gid g → t.group k = s.group k)) ∧
  (Issues s g i { grp := true, d := .regs 1, a := .regs 1, drain := true } → i.mod.toNat = 3 → sel < 64 →
    (s.group (gix c sel)).st = .parked → (s.group (gix c sel)).reqs = [] →
    ∃ t, exec (.parkact g i) s = .next t ∧ (t.group (gix c sel)).st = .free ∧
      ∀ l, l < 32 → bitOf x.active.toNat l → (t.group (gid g)).w l i.d.toNat = 0) ∧
  (Issues s g i { grp := true, d := .regs 1, a := .regs 1, drain := true } → i.mod.toNat < 4 → i.mod.toNat ≠ 0 → sel < 64 →
    let hx := gix c sel
    let y := s.group hx
    let r := mget s.parks hx {}
    let answers := fun (t : State) (y' : Group) (v : Word) => t.group hx = y' ∧
      (∀ l, l < 32 → bitOf x.active.toNat l → (t.group (gid g)).w l i.d.toNat = v) ∧
      (∀ k, k ≠ hx → k ≠ gid g → t.group k = s.group k)
    sel ≠ 0 →
    (i.mod.toNat = 1 → y.st = .parked → bitOf r.flags 4 = true → r.code ≠ fClampDeadlock → r.faults ≠ 0 →
      ∃ t, exec (.parkact g i) s = .next t ∧ answers t { y with
        st := .ready, wdog := 0, wait := .nothing, replay := some y.active, active := BitVec.ofNat 32 r.faults } 0) ∧
    (i.mod.toNat = 2 → y.st = .parked → bitOf r.flags 5 = true → y.active ≠ 0 →
      (∀ e, y.stack.head? = some e → y.pc + r.len ≠ e.rpc) →
      ∃ t, exec (.parkact g i) s = .next t ∧
        answers t { y with st := .ready, wdog := 0, wait := .nothing, pc := y.pc + r.len } 0) ∧
    (y.st = .parked → bitOf r.flags (i.mod.toNat + 3) = false → i.mod.toNat < 3 →
      ∃ t, exec (.parkact g i) s = .next t ∧ answers t y 2) ∧
    (y.st ≠ .parked → ∃ t, exec (.parkact g i) s = .next t ∧ answers t y 1))

/-! ## Memory instructions -/

/-- R175, R177, R203, R206 to R208: with every effective lane's address in range, aligned and local, a memory instruction leaves the
group going on with exactly its lanes' accesses outstanding; no memory has changed yet. -/
def Obligations.MemoryInstructionsSend : Prop := ∀ (g : GroupId) (i : Insn) (s : State),
  let x := s.group (gid g)
  let acc := fun (w nb : Nat) => x.accesses i (x.effective i) w nb
  let local_ := fun (w nb : Nat) => (acc w nb).2 = [] ∧ (acc w nb).1 ≠ [] ∧ anyRemote (acc w nb).1 = false
  let n := widthOf i
  (Issues s g i { size := 0, d := .regs (regsFor n), a := .regs 2, wide := true, mod := sizeOk i true 16 } → local_ n 0 →
    ∃ t, exec (.ld g i) s = .next t ∧ sends s t g i (.load n (modBit i 3) (modBit i 4)) i.d.toNat (acc n 0).1) ∧
  (Issues s g i { size := 0, a := .regs 2, b := .regs (regsFor n), wide := true, mod := sizeOk i false 0 } →
    local_ n (regsFor n) → ∃ t, exec (.st g i) s = .next t ∧ sends s t g i (.store n) 0 (acc n (regsFor n)).1) ∧
  (Issues s g i { a := .regs 2, d := .pred, wide := true, mod := modOnly i 0, drain := true } → local_ 4 0 →
    ∃ t, exec (.clampRel g i) s = .next t ∧ sends s t g i (.release i.d.toNat) 0 (acc 4 0).1) ∧
  (Issues s g i { size := 0, a := .regs 2, b := .regs 2, wide := true, mod := modOnly i 0, drain := true } → local_ 8 2 →
    ∃ t, exec (.signal g i) s = .next t ∧ sends s t g i .signal 0 (acc 8 2).1) ∧
  (let op := i.mod.toNat % 16
   let ty := i.mod.toNat / 16
   let k := if ty < 3 then 1 else 2
   let f : Form := { size := 0, d := .regs k, a := .regs 2, b := .regs k, wide := true, mod := atomOk op ty }
   Issues s g i { f with c := if op = 6 then .regs k else .unused } → local_ (4 * k) k →
   ∃ t, exec (.atom g i) s = .next t ∧ sends s t g i (.atom op ty) i.d.toNat (acc (4 * k) k).1) ∧
  (let f : Form := { size := 16, d := .pred, a := .regs 2, ext := 0xFFFFFFFF * 2 ^ 32, mod := modOnly i 0, drain := true }
   let a4 := x.accesses { i with ext := none } (x.effective i) 4 0
   Issues s g i f → a4.2 = [] → a4.1 ≠ [] → anyRemote a4.1 = false →
   ∃ t, exec (.clampAcq g i) s = .next t ∧ (t.group (gid g)).st = .busy ∧ (t.group (gid g)).pc = x.pc ∧
     (∀ a, a ∈ a4.1 ↔ ∃ r ∈ (t.group (gid g)).reqs, a ∈ r.lanes) ∧ issueFrame s t g i)

/-- R179, R197: a lane whose address pair has a bit above 47, or is misaligned, fails its access; with every effective lane
failing, a load parks its group with F_BUSERR at the load once nothing of it is in flight, and memory is as it was. -/
def Obligations.FailingLanesPark : Prop := ∀ (g : GroupId) (i : Insn) (s : State),
  let x := s.group (gid g)
  let n := widthOf i
  let a := x.accesses i (x.effective i) n 0
  Issues s g i { size := 0, d := .regs (regsFor n), a := .regs 2, wide := true, mod := sizeOk i true 16 } →
  x.reqs = [] → x.ops = [] → a.1 = [] → a.2 ≠ [] →
  ∃ t, exec (.ld g i) s = .next t ∧ (t.group (gid g)).st = .parked ∧ (t.group (gid g)).pc = x.pc ∧
    (mget t.parks (gid g) {}).code = fBusErr ∧ (mget t.parks (gid g) {}).pc = x.pc ∧
    (∀ l, bitOf (mget t.parks (gid g) {}).faults l = true ↔ x.inEffect i l) ∧
    t.hbm = s.hbm ∧ t.lin = s.lin ∧ t.staging = s.staging ∧ t.bar4 = s.bar4

/-- R176, R179, R204: LDS reads, and STS stores, the staging bytes of its core at A plus the displacement, and every other byte
is as before; the head request of a group completes: a staged load puts each lane's bytes, zero- or sign-extended, into D of
that lane, an uncorrectable word fails the lanes that read it and changes no register of theirs, and a corrected one is counted
(R123). That LDS takes its value at issue is the model's choice (DESIGN CHOICE, log entry 19), and so is that the code of the
request stands in its first word (log entry 64). -/
def Obligations.StagingAccess : Prop :=
  (∀ (g : GroupId) (i : Insn) (s : State),
  let x := s.group (gid g)
  let n := widthOf i
  let base := g.core.val * 2 ^ 21
  let a := x.stagingAccs i (x.effective i) n
  a.2 = [] → a.1 ≠ [] →
  (Issues s g i { d := .regs (regsFor n), a := .regs 1, imm := true, mod := sizeOk i true 0 } →
    ∃ t, exec (.lds g i) s = .next t ∧ t.staging = s.staging ∧
      sends s t g i (.staged n (modBit i 3)) i.d.toNat
        (a.1.map (fun (y : LaneAcc) => { y with b := leNat (readCells s.staging (base + y.addr) n) }))) ∧
  (Issues s g i { a := .regs 1, b := .regs (regsFor n), imm := true, mod := sizeOk i false 0 } →
    ∃ t, exec (.sts g i) s = .next t ∧ (t.group (gid g)).pc = x.pc + 8 ∧
      (∀ k, (∀ y ∈ a.1, k < base + y.addr ∨ base + y.addr + n ≤ k) → mget t.staging k 0 = mget s.staging k 0) ∧
      (∀ y ∈ a.1, (∀ z ∈ a.1, z.lane ≠ y.lane → z.addr + n ≤ y.addr ∨ y.addr + n ≤ z.addr) →
        readCells t.staging (base + y.addr) n = leBytes y.b n) ∧
      t.hbm = s.hbm ∧ t.lin = s.lin ∧ t.bar4 = s.bar4)) ∧
  (∀ (g : GroupId) (r : MemReq) (rest : List MemReq) (n : Nat) (sext : Bool)
    (ecc : Ecc) (s : State),
  let x := s.group (gid g)
  let v := fun (a : LaneAcc) => if sext then (signed a.b (8 * n) % 2 ^ 32).toNat else a.b
  x.reqs = r :: rest → r.kind = .staged n sext → ecc ≠ .uncorrectable → (r.lanes.map (·.lane)).Nodup →
  r.dst + regsFor n ≤ 128 → (∀ o ∈ x.ops, o.2.failed = 0) → s.clockStopped g.core.val = false → x.expired = false →
  (x.st ≠ .waiting ∨ x.wait ≠ .clamp) →
  ∃ t, exec (.memoryRequestComplete g 0 ecc) s = .next t ∧ (t.group (gid g)).reqs = rest ∧
    (∀ a ∈ r.lanes, ∀ j < regsFor n, (t.group (gid g)).w a.lane (r.dst + j) = BitVec.ofNat 32 (v a / 2 ^ (32 * j))) ∧
    (∀ l k, l < 32 → k < 128 → (k < r.dst ∨ r.dst + regsFor n ≤ k ∨ l ∉ r.lanes.map (·.lane)) →
      (t.group (gid g)).w l k = x.w l k) ∧
    (t.core g.core.val).corrected = (s.core g.core.val).corrected + (if ecc = .correctable then 1 else 0) ∧
    (∀ d, d ≠ g.core.val → t.core d = s.core d) ∧
    (∀ h, h ≠ gid g → t.group h = s.group h) ∧ { t with groups := s.groups, cores := s.cores } = s) ∧
  (∀ (g : GroupId) (r : MemReq) (n : Nat) (sext : Bool) (s : State),
  let x := s.group (gid g)
  let bad := fun (a : LaneAcc) => meets a.addr n ((r.lanes.map (·.addr)).headD 0 / 8 * 8) 8
  x.reqs = [r] → r.kind = .staged n sext → r.lanes ≠ [] → (∀ a ∈ r.lanes, bad a = true ∧ a.lane < 32) →
  (∃ o, x.ops = [(r.op, o)] ∧ o.failed = 0) → s.clockStopped g.core.val = false → x.st ≠ .parked →
  (x.st ≠ .waiting ∨ x.wait ≠ .clamp) →
  ∃ t, exec (.memoryRequestComplete g 0 .uncorrectable) s = .next t ∧ (t.group (gid g)).st = .parked ∧
    (t.group (gid g)).regs = x.regs ∧ (mget t.parks (gid g) {}).code = fBusErr ∧ (mget t.parks (gid g) {}).sub = eUncorr ∧
    (∀ l, bitOf (mget t.parks (gid g) {}).faults l = true ↔ ∃ a ∈ r.lanes, a.lane = l) ∧
    (∀ h, h ≠ gid g → t.group h = s.group h) ∧ t.staging = s.staging ∧ t.lin = s.lin)

/-- R178, R205: FENCE goes on once nothing it orders is outstanding; CINV empties the caches it names, of its core only. -/
def Obligations.FenceAndCacheInvalidate : Prop := ∀ (g : GroupId) (i : Insn) (s : State),
  let c := g.core.val
  ((s.group (gid g)).reqs = [] → Issues s g i { grp := true, mod := modOnly i 3, drain := true } →
    ∃ t, exec (.fence g i) s = .next t ∧ writesNothing s t g 0x54 i) ∧
  (Issues s g i { grp := true, mod := modOnly i 3 } →
    ∃ t, exec (.cinv g i) s = .next t ∧ (t.core c).ccache = (if modBit i 0 then [] else (s.core c).ccache) ∧
      (t.core c).dcache = (if modBit i 1 then [] else (s.core c).dcache) ∧
      (∀ d, d ≠ c → t.core d = s.core d) ∧
      t.group (gid g) = (s.group (gid g)).behind 0x55 i (t.group (gid g)).issued ∧
      { t with groups := s.groups, regs := s.regs, cores := s.cores } = s)

/-- R186, R209: WAITSIG reads its lanes' words, goes on where all conditions hold (with no effective lane too), waits where one does
not, and parks where a word fails; the notice of a write makes a group that waits on the word read again; a release notice wakes its
lanes and no other, and a group that waits on one of them goes on; any other notice changes nothing. That one failing lane parks
the group at once is the model's reading (DEDUCED, log entry 18), and so is what the notices carry (DEDUCED, log entry 51). -/
def Obligations.NoticesWake : Prop :=
  (∀ (g : GroupId) (i : Insn) (addr : BitVec 48) (s : State),
  let x := s.group (gid g)
  (x.effective i = 0 → Issues s g i { size := 0, a := .regs 2, b := .regs 2, wide := true, mod := modOnly i 0, drain := true } →
    ∃ t, exec (.waitsig g i) s = .next t ∧ writesNothing s t g 0x5C i) ∧
  (∀ u, Issues s g i { size := 0, a := .regs 2, b := .regs 2, wide := true, mod := modOnly i 0, drain := true } →
    s.takeTurn (gid g) = some u →
    let a := x.accesses i (x.effective i) 8 2
    let v := u.issued (gid g) 0x5C i
    let ws := a.1.map (fun (y : LaneAcc) => (y.lane, y.addr, y.b))
    let r := v.readSignals (gid g) ws
    a.2 = [] → anyRemote a.1 = false → v.asksWait (a.1.map (fun (y : LaneAcc) =>
      (⟨groupAgent (gid g), some (s.groupPart (gid g)), y.addr, 8, .read, .clean⟩ : Ask))) = false →
    r.2.2.group (gid g) = v.group (gid g) →
    (r.1 = [] → r.2.1 = true → ∃ t, exec (.waitsig g i) s = .next t ∧ (t.group (gid g)).st = .ready ∧
      (t.group (gid g)).pc = x.pc + insnLen i ∧ (t.group (gid g)).regs = x.regs ∧
      (∀ h, h ≠ gid g → t.group h = r.2.2.group h) ∧ { t with groups := r.2.2.groups } = r.2.2) ∧
    (r.1 = [] → r.2.1 = false → ∃ t, exec (.waitsig g i) s = .next t ∧ (t.group (gid g)).st = .waiting ∧
      (t.group (gid g)).wait = .signals ws ∧ (t.group (gid g)).pc = x.pc ∧ (t.group (gid g)).regs = x.regs ∧
      (∀ h, h ≠ gid g → t.group h = r.2.2.group h) ∧
      { t with groups := r.2.2.groups, cores := r.2.2.cores } = r.2.2) ∧
    (r.1 ≠ [] → ∃ t, exec (.waitsig g i) s = .next t ∧ (t.group (gid g)).st = .parked ∧ (t.group (gid g)).pc = x.pc ∧
      (mget t.parks (gid g) {}).code = fBusErr ∧
      (mget t.parks (gid g) {}).faults = (maskOf (r.1.map (·.1))).toNat ∧ t.lin = r.2.2.lin ∧ t.hbm = r.2.2.hbm)) ∧
  ((x.st ≠ .waiting ∨ (∀ ws, x.wait ≠ .signals ws) ∨ addr.toNat ∉ x.written) → exec (.waitNotice g addr) s = .next s) ∧
  (∀ ws, x.st = .waiting → x.wait = .signals ws → addr.toNat ∈ x.written → s.clockStopped g.core.val = false →
    s.asksWait (ws.map (fun w =>
      (⟨groupAgent (gid g), some (s.groupPart (gid g)), w.2.1, 8, .read, .clean⟩ : Ask))) = false →
    let v := s.groupSet (gid g) { x with written := x.written.filter (· != addr.toNat) }
    let r := v.readSignals (gid g) ws
    r.1 = [] → r.2.2.group (gid g) = v.group (gid g) →
    (r.2.1 = true → x.replay.getD x.active ≠ 0 → x.stack = [] →
      ∃ t, exec (.waitNotice g addr) s = .next t ∧ (t.group (gid g)).st = .ready ∧
        (t.group (gid g)).pc = x.pc + x.len ∧ (∀ h, h ≠ gid g → t.group h = r.2.2.group h) ∧
        { t with groups := r.2.2.groups } = r.2.2) ∧
    (r.2.1 = false → ∃ t, exec (.waitNotice g addr) s = .next t ∧
      t.group (gid g) = { x with written := x.written.filter (· != addr.toNat) } ∧
      (∀ h, h ≠ gid g → t.group h = r.2.2.group h) ∧ t.lin = r.2.2.lin ∧ t.hbm = r.2.2.hbm))) ∧
  (∀ (g : GroupId) (addr : BitVec 48) (s : State),
  let x := s.group (gid g)
  let mine := mget x.notices addr.toNat 0
  (mhas x.notices addr.toNat = false → exec (.releaseNotice g addr) s = .next s) ∧
  (mhas x.notices addr.toNat = true → s.clockStopped g.core.val = false →
    ((x.st ≠ .waiting ∨ x.wait ≠ .clamp) → ∃ t, exec (.releaseNotice g addr) s = .next t ∧
      t.group (gid g) = { x with woken := x.woken ||| mine, notices := mdel x.notices addr.toNat } ∧
      (∀ h, h ≠ gid g → t.group h = s.group h) ∧ { t with groups := s.groups } = s) ∧
    (∀ e, x.st = .waiting → x.wait = .clamp → x.stack = [e] → x.active = 0 → e.lanes &&& x.alive ≠ 0 →
      e.lanes &&& mine ≠ 0 →
      ∃ t, exec (.releaseNotice g addr) s = .next t ∧ (t.group (gid g)).st = .ready ∧ (t.group (gid g)).pc = e.resume ∧
        (t.group (gid g)).active = e.lanes &&& x.alive ∧ (t.group (gid g)).stack = [] ∧ (t.group (gid g)).regs = x.regs ∧
        (∀ h, h ≠ gid g → t.group h = s.group h) ∧ { t with groups := s.groups } = s)))

/-- R217, R218, R220: ADM writes the count of admitted entries, or a word of one, 0 beyond the list; COMPLETE adds an entry for each
effective lane to the backlog; PJOB reads the word of the job record at A plus the displacement, and a lane whose word lies outside
it, or is misaligned, fails. -/
def Obligations.StepInstructions : Prop := ∀ (g : GroupId) (i : Insn) (s : State),
  let x := s.group (gid g)
  let p := s.groupPart (gid g)
  let list := (s.part p).admitted
  (i.mod = 0 → i.imm = 0 → Issues s g i { d := .regs 1 } →
    ∃ t, exec (.adm g i) s = .next t ∧ writesD s t g 0x5D i (fun _ _ => BitVec.ofNat 32 list.length)) ∧
  (i.mod = 1 → i.imm.toNat % 4 = 0 → i.imm.toNat < 64 → Issues s g i { d := .regs 1, a := .regs 1, imm := true } →
    ∃ t, exec (.adm g i) s = .next t ∧ writesD s t g 0x5D i (fun x l =>
      match list[(x.w l i.a.toNat).toNat]? with
      | some e => e.words.getD (i.imm.toNat / 4) 0
      | none => 0)) ∧
  (Issues s g i { a := .regs 16, mod := modOnly i 0, drain := true } →
    (∀ l, x.inEffect i l → (x.w l (i.a.toNat + 4)).toNat % 2 ^ 16 ≤ 1) →
    (s.part p).backlog.length + (lanesOf (x.effective i)).length ≤ 65536 →
    ∃ t, exec (.complete g i) s = .next t ∧
      (t.part p).backlog = (s.part p).backlog ++ (lanesOf (x.effective i)).map (fun l =>
        compOf ((List.range 16).map (fun j => x.w l (i.a.toNat + j))) (s.part p).boundary) ∧
      (∀ q, q ≠ p → t.part q = s.part q) ∧ (t.group (gid g)).pc = x.pc + 8 ∧ t.bar4 = s.bar4) ∧
  (∀ j, x.job = some j →
    let off := fun (y : Group) (l : Nat) => ((y.w l i.a.toNat).toNat : Int) + signed i.imm.toNat 16
    let okay := fun (l : Nat) => 0 ≤ off x l ∧ off x l < 0x840 ∧ off x l % 4 = 0
    Issues s g i { d := .regs 1, a := .regs 1, imm := true, mod := modOnly i 0, drain := true } →
    ((∀ l, x.inEffect i l → okay l) →
      ∃ t, exec (.pjob g i) s = .next t ∧ writesD s t g 0x5F i (fun y l => j.word (off y l).toNat)) ∧
    ((∃ l, x.inEffect i l ∧ ¬okay l) →
      ∃ t, exec (.pjob g i) s = .next t ∧ (t.group (gid g)).st = .parked ∧ (t.group (gid g)).pc = x.pc ∧
        (mget t.parks (gid g) {}).code = fBusErr ∧ (mget t.parks (gid g) {}).sub = eBounds ∧
        (∀ l, bitOf (mget t.parks (gid g) {}).faults l = true ↔ x.inEffect i l ∧ ¬okay l) ∧
        (∀ l, x.inEffect i l → okay l → (t.group (gid g)).w l i.d.toNat = j.word (off x l).toNat)))

/-! ## Panels, fitting and proof -/

/-- R119, R210 to R213: PANEL queues its command, or stalls its group until the command enters; the waits and reads of counters and
flag words, FLAGRD with MOD[4] clearing the word it reads, and fit bindings. That SHAPE 3 is resolved at issue is the model's choice
(DESIGN CHOICE, log entry 64). -/
def Obligations.PanelInstructions : Prop :=
  (∀ (g : GroupId) (i : Insn) (s : State),
  let x := s.group (gid g)
  let c := g.core.val
  (let ws := (List.range 8).map (fun n => x.w x.lowest (i.a.toNat + n))
   let q : PCmd := { words := s.resolveShape c ws, slot := g.slot.val }
   Issues s g i { grp := true, a := .regs 8, mod := modOnly i 0 } → x.isProof = false →
   (q.ok (s.core c) = true → (s.core c).queue.length < 32 → (s.core c).stalled = [] →
     ∃ t, exec (.panel g i) s = .next t ∧ (t.core c).queue = (s.core c).queue ++ [q] ∧ (t.group (gid g)).pc = x.pc + 8 ∧
       (t.group (gid g)).wdog = 0 ∧ (∀ d, d ≠ c → t.core d = s.core d) ∧ t.staging = s.staging ∧ t.acc = s.acc) ∧
   (q.ok (s.core c) = true → (32 ≤ (s.core c).queue.length ∨ (s.core c).stalled ≠ []) →
     ∃ t, exec (.panel g i) s = .next t ∧ (t.core c).queue = (s.core c).queue ∧
       (t.core c).stalled = (s.core c).stalled ++ [q] ∧ (t.group (gid g)).st = .busy ∧ (t.group (gid g)).pc = x.pc) ∧
   (q.ok (s.core c) = false → x.reqs = [] → ∃ t, exec (.panel g i) s = .next t ∧ (t.group (gid g)).st = .parked ∧
     (mget t.parks (gid g) {}).code = fIllegal ∧ (t.core c).queue = (s.core c).queue)) ∧
  (Issues s g i { grp := true, a := .regs 8, mod := modOnly i 0 } → x.isProof = true → x.reqs = [] →
   ∃ t, exec (.panel g i) s = .next t ∧ (t.group (gid g)).st = .parked ∧
     (mget t.parks (gid g) {}).code = fIllegal ∧ (t.core c).queue = (s.core c).queue) ∧
  (i.mod ≠ 0 → Issues s g i { d := .regs 1, mod := modOnly i 7 } →
    ∃ t, exec (.ctrrd g i) s = .next t ∧ writesD s t g 0x71 i (fun _ _ => BitVec.ofNat 32 (mget (s.core c).ctrs i.mod.toNat 0))) ∧
  (∀ k : Nat, 0 < k → k < 8 → i.mod.toNat = 64 + k → Issues s g i { grp := true, imm := true, drain := true } →
    let ahead := (mget (s.core c).ctrs k 0 + 2 ^ 16 - i.imm.toNat) % 2 ^ 16
    (ahead < 32768 → ∃ t, exec (.ctrwait g i) s = .next t ∧ writesNothing s t g 0x72 i) ∧
    (32768 ≤ ahead → ∃ t, exec (.ctrwait g i) s = .next t ∧ (t.group (gid g)).st = .waiting ∧
      (t.group (gid g)).wait = .counter k i.imm.toNat ∧ (t.group (gid g)).pc = x.pc)) ∧
  (∀ k : Nat, 0 < k → k < 8 → i.mod.toNat = k → Issues s g i { grp := true, b := .regs 1, drain := true } →
    let target := (x.w x.lowest i.b.toNat).toNat % 2 ^ 16
    let ahead := (mget (s.core c).ctrs k 0 + 2 ^ 16 - target) % 2 ^ 16
    (ahead < 32768 → ∃ t, exec (.ctrwait g i) s = .next t ∧ writesNothing s t g 0x72 i) ∧
    (32768 ≤ ahead → ∃ t, exec (.ctrwait g i) s = .next t ∧ (t.group (gid g)).st = .waiting ∧
      (t.group (gid g)).wait = .counter k target ∧ (t.group (gid g)).pc = x.pc)) ∧
  (i.mod.toNat ≤ 8 → x.replay = none → Issues s g i { grp := true, d := .regs 2 } →
    ∃ t, exec (.flagrd g i) s = .next t ∧
      (∀ l, l < 32 → bitOf x.active.toNat l →
        (t.group (gid g)).wide l i.d.toNat 2 = (mget (s.core c).flags i.mod.toNat {}).bits % 2 ^ 64) ∧ issueFrame s t g i) ∧
  (∀ k : Nat, k ≤ 8 → i.mod.toNat = 16 + k → x.replay = none → Issues s g i { grp := true, d := .regs 2 } →
    ∃ t, exec (.flagrd g i) s = .next t ∧
      (∀ l, l < 32 → bitOf x.active.toNat l →
        (t.group (gid g)).wide l i.d.toNat 2 = (mget (s.core c).flags k {}).bits % 2 ^ 64) ∧
      mget (t.core c).flags k {} = {} ∧ (∀ j, j ≠ k → mget (t.core c).flags j {} = mget (s.core c).flags j {}) ∧
      (∀ d, d ≠ c → t.core d = s.core d) ∧ (∀ h, h ≠ gid g → t.group h = s.group h) ∧
      { t with groups := s.groups, regs := s.regs, cores := s.cores } = s) ∧
  (let v := (x.w x.lowest i.a.toNat).toNat
   let ctx := x.wide x.lowest i.b.toNat 2
   Issues s g i { grp := true, a := .regs 1, b := .regs 2 } → i.mod.toNat ≤ 8 → v < 2 ^ 15 → ctx < 2 ^ 48 → ctx % 64 = 0 →
   s.ptn.running.ownsFit (s.groupPart (gid g)) (v % 2 ^ 12) = true →
   ∃ t, exec (.fitbind g i) s = .next t ∧
     mget (t.core c).binds i.mod.toNat {} = ⟨v % 2 ^ 12, bitOf v 12, bitOf v 13, bitOf v 14, ctx⟩ ∧
     (∀ k, k ≠ i.mod.toNat → mget (t.core c).binds k {} = mget (s.core c).binds k {}) ∧
     (t.group (gid g)).pc = x.pc + 8)) ∧
  (∀ (g : GroupId) (q : PCmd) (rest : List PCmd) (s : State),
  let x := s.group (gid g)
  let c := g.core.val
  s.clockStopped c = false →
  (s.core c).stalled = q :: rest → q.slot = g.slot.val → (s.core c).queue.length < 32 → x.stalled = true →
  x.replay.getD x.active ≠ 0 → x.stack = [] →
  ∃ t, exec (.panelQueueStallEnd g) s = .next t ∧ (t.core c).queue = (s.core c).queue ++ [q] ∧ (t.core c).stalled = rest ∧
    (t.group (gid g)).st = .ready ∧ (t.group (gid g)).stalled = false ∧ (t.group (gid g)).pc = x.pc + x.len ∧
    (t.group (gid g)).wdog = 0 ∧ (∀ h, h ≠ gid g → t.group h = s.group h) ∧
    (∀ d, d ≠ c → t.core d = s.core d) ∧ { t with groups := s.groups, cores := s.cores } = s)

/-- R105 to R109, R113, R123: the LOAD, PASS or DRAIN at the head of a core's queue starts: it leaves the queue and runs; a LOAD has
put its tiles into the buffers, a PASS has changed the accumulators and nothing of staging, a DRAIN has left the accumulators; a
corrected error of the words it reads is counted, and an uncorrectable one will park its group. That the data effects fall where the
command starts is the model's reading (DEDUCED, log entry 52), and that the corrected errors are counted per core its choice (log
entry 64). -/
def Obligations.PanelCommandsStart : Prop := ∀ (c : Fin 64) (q : PCmd) (rest : List PCmd) (ecc : Ecc) (s : State),
  let seen := fun (t : State) =>
    (t.core c.val).run.map (·.fault) = [if ecc = .uncorrectable then some (fBusErr, eUncorr) else none] ∧
    (t.core c.val).corrected = (s.core c.val).corrected + (if ecc = .correctable then 1 else 0)
  (s.core c.val).queue = q :: rest → s.clockStopped c.val = false → (s.core c.val).run = [] →
  (q.op = 1 → ∃ t, exec (.panelLoad c ecc) s = .next t ∧ (t.core c.val).queue = rest ∧
    (t.core c.val).run.map (·.cmd) = [q] ∧ seen t ∧
    (∀ n, n < q.panels.length → mget (t.core c.val).tiles (2 * q.panels.getD n 0 + q.buf) {} = s.readTile c.val q n) ∧
    t.staging = s.staging ∧ t.acc = s.acc ∧ (∀ d, d ≠ c.val → t.core d = s.core d)) ∧
  (q.op = 2 → ∃ t, exec (.pass c ecc) s = .next t ∧ (t.core c.val).queue = rest ∧
    (t.core c.val).run.map (·.cmd) = [q] ∧ seen t ∧ t.rng = (s.passAll c.val q).rng ∧ t.acc = (s.passAll c.val q).acc ∧ t.accFlags = (s.passAll c.val q).accFlags ∧
    (∀ p, p ∈ (t.core c.val).actBuf ↔
      (bitOf q.pmask p = true ∧ p < 4 ∧ q.buf = 1) ∨ (p ∈ (s.core c.val).actBuf ∧ bitOf q.pmask p = false)) ∧
    t.staging = s.staging ∧ t.hbm = s.hbm ∧ t.lin = s.lin ∧ (∀ d, d ≠ c.val → t.core d = s.core d)) ∧
  (q.op = 3 → q.f 2 19 19 = 0 → ∀ desc, ∃ t, exec (.drain c ecc desc) s = .next t ∧ (t.core c.val).queue = rest ∧
    (t.core c.val).run.map (·.cmd) = [q] ∧ seen t ∧ t.acc = s.acc ∧ t.accFlags = s.accFlags ∧
    t.hbm = s.hbm ∧ t.lin.calm = s.lin.calm ∧
    (∀ a, (a < c.val * 2 ^ 21 ∨ (c.val + 1) * 2 ^ 21 ≤ a) → a / 2 ^ 21 < 64 → q.drainOk (s.core c.val) = true →
      mget t.staging a 0 = mget s.staging a 0) ∧
    (∀ d, d ≠ c.val → t.core d = s.core d))

/-- R117, R120, R121, R144: BIND records its descriptor address and zeroes the slot's flag word; FENCE leaves the queue once nothing
runs; each completion raises the completion counter it names by 1, modulo 65,536. That BIND is complete where it starts is the
model's reading (DEDUCED, log entry 52). -/
def Obligations.PanelCommandsComplete : Prop := ∀ (c : Fin 64) (q : PCmd) (rest : List PCmd) (s : State),
  s.clockStopped c.val = false →
  let up := fun (t : State) (q : PCmd) => q.ctr ≠ 0 → mget (t.core c.val).ctrs q.ctr 0 = (mget (s.core c.val).ctrs q.ctr 0 + 1) % 2 ^ 16
  ((s.core c.val).queue = q :: rest → q.op = 4 →
    ∃ t, exec (.bind c) s = .next t ∧ (t.core c.val).queue.map (·.words) = rest.map (·.words) ∧
      mget (t.core c.val).slots (q.f 2 18 16) 0 = q.f 1 31 0 + 2 ^ 32 * q.f 2 15 0 ∧
      mget (t.core c.val).flags (q.f 2 18 16) {} = {} ∧ up t q) ∧
  ((s.core c.val).queue = q :: rest → q.op = 5 → (s.core c.val).run = [] →
    ∃ t, exec (.panelFence c) s = .next t ∧ (t.core c.val).queue.map (·.words) = rest.map (·.words) ∧ up t q ∧ t.acc = s.acc ∧ t.staging = s.staging) ∧
  (∀ r, (s.core c.val).run = [r] → r.toSend = [] → r.sent = [] → (r.cmd.op = 1 ∨ r.cmd.op = 2) → r.tally = false →
    r.fault = none →
    ∃ t, exec (.commandComplete c 0) s = .next t ∧ (t.core c.val).run = [] ∧ up t r.cmd ∧ t.acc = s.acc ∧
      t.staging = s.staging ∧ s.now ≤ t.now)

/-- R146, R160, R220: a fit record is latched as a whole; the oldest proof job goes to a group started in the lowest free reserved
slot; a proof group's PROOFPOST ends it. That the LOWEST free slot is taken is the model's choice (DESIGN CHOICE, log entry 64). -/
def Obligations.FittingAndProof : Prop := ∀ (s : State),
  (let ws := (s.fitRec (s.rf Reg.TICK_FIT_SEL 11 0)).words
   ∀ r, (∀ p k, r ≠ .fn (.vf p k)) → atOnce s r → ∃ t, exec (.fitRecRead r) s = .next t ∧ t.fitLatch = ws ∧
     t.reply.value = (ws.headD 0).toNat ∧ { t with fitLatch := s.fitLatch, reply := s.reply } = s) ∧
  (∀ (c : Fin 64) p j rest k, s.corePart c.val = some p → s.clockStopped c.val = false → (s.core c.val).proofQ = j :: rest →
    (List.range 64).find? (fun k => s.proofSlot c.val k && (s.group (gix c.val k)).st == .free) = some k →
    ∃ t, exec (.proofGroupStart c) s = .next t ∧ (t.core c.val).proofQ = rest ∧ (t.group (gix c.val k)).job = some j ∧
      (t.group (gix c.val k)).st = .ready ∧ (t.group (gix c.val k)).pc = s.ptn.running.proofEntry p ∧
      (∀ h, h ≠ gix c.val k → t.group h = s.group h) ∧ { t with groups := s.groups, cores := s.cores } = s) ∧
  (∀ (g : GroupId) (i : Insn) j, (s.group (gid g)).job = some j →
    Issues s g i { grp := true, a := .regs 1, b := .regs 1, mod := modOnly i 0, drain := true } →
    ∃ t, exec (.proofpost g i) s = .next t ∧ (t.group (gid g)).st = .free ∧
      ((s.fitRec j.fitId).gen = j.gen → (t.fitRec j.fitId).samples = min 0xFFFF ((s.fitRec j.fitId).samples + 1)) ∧
      ((s.fitRec j.fitId).gen ≠ j.gen → t.fit = s.fit))


/-- R138, R214, R215: CVT writes the converted value to D of every effective lane, and to D + 1 the scale entry where the
destination is scaled; under stochastic rounding each of these lanes draws once from its own generator, and no other generator
moves; each event counts once, to 0xFFFF; MOVS with MOD 0x4A reads the counts and clears them. -/
def Obligations.ConversionResults : Prop := ∀ (g : GroupId) (i : Insn) (s : State),
  let x := s.group (gid g)
  let d := i.d.toNat
  let scaled := fmtScaled (i.imm.toNat / 256)
  let lane := groupLane (s.physOf g.core.val)
  let ls := cvtLanes i x (x.effective i) (fun l => s.rng.draw (lane l))
  (Issues s g i (cvtForm i) → x.cvNan ≤ 0xFFFF → x.cvOvf ≤ 0xFFFF → x.cvFlush ≤ 0xFFFF →
    ∃ t, exec (.cvt g i) s = .next t ∧
      (∀ o ∈ ls, (t.group (gid g)).w o.1 d = BitVec.ofNat 32 o.2.1 ∧
        (scaled = true → (t.group (gid g)).w o.1 (d + 1) = BitVec.ofNat 32 o.2.2.1)) ∧
      (∀ l r, r < 128 → ¬(x.inEffect i l ∧ (r = d ∨ (scaled = true ∧ r = d + 1))) → (t.group (gid g)).w l r = x.w l r) ∧
      (t.group (gid g)).cvNan = min 0xFFFF (x.cvNan + (ls.filter (fun o => o.2.2.2 == .nan)).length) ∧
      (t.group (gid g)).cvOvf = min 0xFFFF (x.cvOvf + (ls.filter (fun o => o.2.2.2 == .overflow)).length) ∧
      (t.group (gid g)).cvFlush = min 0xFFFF (x.cvFlush + (ls.filter (fun o => o.2.2.2 == .flush)).length) ∧
      (t.group (gid g)).preds = x.preds ∧ (t.group (gid g)).pc = x.pc + 8 ∧
      (∀ h, h ≠ gid g → t.group h = s.group h) ∧ t.staging = s.staging ∧ t.hbm = s.hbm ∧ t.lin = s.lin ∧
      t.rng = (if i.mod.toNat % 4 < 2 then s.rng else s.rng.steps ((lanesOf (x.effective i)).map lane))) ∧
  (i.mod = 0x4A → x.effective i ≠ 0 → Issues s g i { size := 0, d := .regs 1 } →
    ∃ t, exec (.movs g i) s = .next t ∧
      (∀ l, x.inEffect i l → (t.group (gid g)).w l d = BitVec.ofNat 32 (x.cvNan + 2 ^ 16 * x.cvOvf)) ∧
      (t.group (gid g)).cvNan = 0 ∧ (t.group (gid g)).cvOvf = 0 ∧ (t.group (gid g)).cvFlush = 0 ∧ issueFrame s t g i)

/-! ## Registers -/

/-- R8, R9, R11: the low word of a 64-bit register latches the high one for its requester alone, and the read of the high word
consumes the latch; a read of another width returns 0 and latches nothing; a low word written is held, and the write of the high
word applies both by access type. R291, from the chapter on jig engines: a channel that no enabled partition owns, or whose engine is
not fitted, takes none. -/
def Obligations.WideRegisters : Prop :=
  (∀ (r : Req) (lo hi : BitVec 28) (s : State),
  let k := latchKey (reqIx r) lo.toNat
  hi.toNat = lo.toNat + 4 → lo.toNat % 4 = 0 → isWide lo.toNat = true → isHigh lo.toNat = false → isHigh hi.toNat = true →
  s.mayRead r lo.toNat = true → atOnce s r →
  (∀ o width, width ≠ 4 → exec (.lowWordRead r o width) s = .next (s.answer {}) ∧
    exec (.highWordRead r o width) s = .next (s.answer {})) ∧
  ∃ t, exec (.lowWordRead r lo 4) s = .next t ∧ t.reply = { value := (s.bar0Word (reqIx r) lo.toNat).toNat } ∧
    (∀ j, j ≠ k → mfind t.latches j = mfind s.latches j) ∧ { t with latches := s.latches, reply := s.reply } = s ∧
    ∀ u : State, u.latches = t.latches → u.mayRead r hi.toNat = true → atOnce u r →
      ∃ v, exec (.highWordRead r hi 4) u = .next v ∧
        v.reply = { value := (s.bar0Word (reqIx r) hi.toNat).toNat } ∧ mfind v.latches k = none ∧
        (∀ j, j ≠ k → mfind v.latches j = mfind s.latches j) ∧ { v with latches := u.latches, reply := u.reply } = u) ∧
  (∀ (r : Req) (lo hi : BitVec 28) (v w : Word) (row : RegRow) (s : State),
  let k := latchKey (reqIx r) lo.toNat
  let o := lo.toNat
  let apply := fun (old rw w1c v : Word) => ((old &&& ~~~rw) ||| (v &&& rw)) &&& ~~~(v &&& w1c)
  hi.toNat = o + 4 → o % 4 = 0 → regRow o = some row → regRow hi.toNat = some row → row.wide = true → row.own = false →
  isHigh o = false → isHigh hi.toNat = true → msixAt (reqIx r) o = none → msixAt (reqIx r) hi.toNat = none →
  s.mayWrite r o = true → atOnce s r →
  o ≠ Reg.GLB_APBASE → o ≠ Reg.LIN_HOMEQ →
  ∃ t, exec (.lowWordWrite r lo v) s = .next t ∧ mfind t.heldWrites k = some v ∧
    (∀ j, j ≠ k → mfind t.heldWrites j = mfind s.heldWrites j) ∧ { t with heldWrites := s.heldWrites } = s ∧
    ∀ u : State, u.heldWrites = t.heldWrites → u.mayWrite r hi.toNat = true → atOnce u r →
      (o / 0x10000 = 0xF → u.pairFitted = true) →
      let ch := (o - 0xE1000) / 0x40
      let jig := 0xE1000 ≤ o ∧ o < 0xE6000
      (jig → (u.engFitted (ch / 32) = false ∨ (u.ptn.running.chanOwner ch = none ∨ (u.chan ch).st ≠ .idle)) →
        ∃ x, exec (.highWordWrite r hi w) u = .next x ∧ (∀ j, x.rg j = u.rg j) ∧ mfind x.heldWrites k = none ∧
          (u.engFitted (ch / 32) = true → u.ptn.running.chanOwner ch = none → (x.chan ch).cmdres = 2)) ∧
      ((jig → u.engFitted (ch / 32) = true ∧ u.ptn.running.chanOwner ch ≠ none ∧ (u.chan ch).st = .idle) →
      ∃ x, exec (.highWordWrite r hi w) u = .next x ∧
        x.rg o = apply (u.rg o) (bw row.rw) (bw row.w1c) v ∧
        x.rg (o + 4) = apply (u.rg (o + 4)) (bw (row.rw / 2 ^ 32)) (bw (row.w1c / 2 ^ 32)) w ∧
        mfind x.heldWrites k = none ∧ (∀ j, j ≠ o → j ≠ o + 4 → x.rg j = u.rg j) ∧
        { x with regs := u.regs, heldWrites := u.heldWrites } = u))

/-- R8, R11, R12, R432: a write of 4 bytes sets the read-write bits, and clears the write-one-to-clear bits written 1, of a
register that has no command of its own, but a write in the clock cycle of an event leaves the bits set that the event has set; any
other width has no effect; a written PRIO of 15 is stored as 14. R291: a write to a jig channel that nobody owns, or of its CTL by
firmware, sets CMDRES to 2 and does nothing else. R459: GO for a step that no GO starts is refused. That a write says whether it
falls into the clock cycle of an event, and that BRUP.CMD is written through REGISTER_WRITE for such a step, is the model's choice
(DESIGN CHOICE, log entry 38). -/
def Obligations.RegisterWrites : Prop := ∀ (r : Req) (off : BitVec 28) (v : Word) (same : Bool) (row : RegRow) (s : State),
  let o := off.toNat
  let k := s.keyOf o
  let kept := if same then s.setNow k else 0
  atOnce s r →
  (∀ width, width ≠ 4 → exec (.registerWrite r off width v same) s = .next s) ∧
  (s.mayWrite r o = false → s.strayChan r o = none → exec (.registerWrite r off 4 v same) s = .next s) ∧
  (∀ ch, o % 4 = 0 → isHigh o = false → s.strayChan r o = some ch →
    ∃ t, exec (.registerWrite r off 4 v same) s = .next t ∧ t.chan ch = { s.chan ch with cmdres := 2 } ∧
      (∀ d, d ≠ ch → t.chan d = s.chan d) ∧ { t with jig := s.jig } = s) ∧
  (∀ f, r = .fn f → isPf f = true → o = Reg.BRUP_CMD → s.mayWrite r o = true →
    ∃ t, exec (.registerWrite r off 4 v same) s = .next t ∧ onlyRegs [Reg.BRUP_STATUS] s t ∧
      (bitsOf v.toNat 5 4 = 1 → bitsOf v.toNat 3 0 ∉ [1, 2, 3, 4, 5, 6, 8] → t.rb Reg.BRUP_STATUS 16 = true)) ∧
  (o % 4 = 0 → s.mayWrite r o = true → s.strayChan r o = none → msixAt (reqIx r) o = none → regRow o = some row →
    row.wide = false → row.own = false →
    (o ≠ Reg.GLB_APPART → o ≠ Reg.SPL_LINKCTL → o ≠ Reg.LIN_SLICE_THRASH → ¬(Reg.IRQ_GCFG ≤ o ∧ o < Reg.IRQ_GCFG + 72) →
      (o / 0x10000 = 0xF → s.pairFitted = true) →
      ∃ t, exec (.registerWrite r off 4 v same) s = .next t ∧
        t.rg k = (((s.rg k &&& ~~~(bw row.rw)) ||| (v &&& bw row.rw)) &&& ~~~(v &&& bw row.w1c &&& ~~~kept)) ∧
        onlyRegs [k] s t) ∧
    (∀ n, 0 < n → n < 18 → o = Reg.IRQ_GCFG + 4 * n → row.rw = 0xFFFF0FFF → row.w1c = 0 →
      ∃ t, exec (.registerWrite r off 4 v same) s = .next t ∧ t.rf o 3 0 = min 14 (bitsOf v.toNat 3 0) ∧
        t.rf o 11 4 = bitsOf v.toNat 11 4 ∧ t.rf o 31 16 = bitsOf v.toNat 31 16 ∧ onlyRegs [o] s t))

/-! ## Basting -/

/-- R32, R33, R35 to R37: BASTE opens a copy of the running pattern for 10 s; LOAD starts; a patch writes 4 bytes of the staged
section; SEW starts validation; UNPICK discards the copy. The running pattern is as before. A refused command reports its detail
and leaves the basting as it was. That UNPICK is refused with NOT_OPEN once a commit is due (with R44), and NOT_OPEN before BUSY
during a validation, is the model's choice (DESIGN CHOICE, log entry 44). -/
def Obligations.BastingCommands : Prop :=
  (∀ (f : Func) (s : State), s.speaks f = true → s.mustWait (portOf f) = false →
  let x := s.ptn
  (∀ scope (p : Fin 16), s.brup.katDone = true → x.phase = .idle → s.rf Reg.BRUP_STACK_STAT 6 4 = 0 →
    (∀ k, vfPart f = some k → scope = true ∧ k = p) → (x.committed = true ∨ scope = false) →
    ∃ t, exec (.baste f scope p) s = .next t ∧ t.ptn.phase = .opened ∧ t.ptn.opener = f ∧ t.ptn.partScope = scope ∧
      t.ptn.deadline = s.now + 10000000000 ∧ (scope = true → t.ptn.part = p) ∧ t.ptn.running = x.running ∧
      (s.nor.marked = [] → t.ptn.staged = some s.stageCopy) ∧
      ((∀ n, n < 768 → s.maskBit Reg.HBM_PEND n = false) → s.stageCopy = x.running) ∧
      t.rf Reg.PTN_RESULT 15 0 = 0 ∧ t.rf Reg.PTN_RESULT 26 24 = 1 ∧ t.hbm = s.hbm ∧ t.lin = s.lin ∧ t.groups = s.groups) ∧
  (x.phase = .opened → x.loading = false → x.opener = f →
    let a := s.rg64 Reg.PTN_LOAD_ADDR % 2 ^ 48
    let n := (s.rg Reg.PTN_LOAD_LEN).toNat
    (a + max n 1 ≤ s.capacity * 2 ^ 30 → a % 32 = 0 →
      ∃ t, exec (.load f) s = .next t ∧ t.ptn = { x with loading := true, loadLen := n, loadAddr := a } ∧ { t with ptn := s.ptn } = s) ∧
    (∃ t, exec (.sew f) s = .next t ∧ t.ptn = { x with phase := .sewing } ∧ { t with ptn := s.ptn } = s) ∧
    (∀ v y type, x.staged = some y → x.partScope = false → s.rf Reg.PTN_PATCH_TARGET 15 0 = type → (type = 5 ∨ type = 7) →
      let off := s.rf Reg.PTN_PATCH_OFF 27 0
      off % 4 = 0 → off + 4 ≤ (y.sec type 0).len →
      ∃ t z, exec (.patchData f v) s = .next t ∧ t.ptn.staged = some z ∧ z.fld type off 4 = v.toNat ∧
        (z.sec type 0).patched = true ∧ (z.sec type 0).len = (y.sec type 0).len ∧
        (∀ k, (k < off ∨ off + 4 ≤ k) → mget (z.sec type 0).bytes k 0 = mget (y.sec type 0).bytes k 0) ∧
        (∀ ty p, secKey ty p ≠ secKey type 0 → z.sec ty p = y.sec ty p) ∧
        { t.ptn with staged := x.staged } = x ∧ t.rf Reg.PTN_RESULT 15 0 = 0 ∧ t.rf Reg.PTN_RESULT 26 24 = 5)) ∧
  (x.phase ≠ .idle → x.commitDue = false → (isPf f = true ∨ x.opener = f) →
    ∃ t, exec (.unpick f) s = .next t ∧ t.ptn.phase = .idle ∧ t.ptn.staged = none ∧ t.ptn.loading = false ∧
      t.ptn.running = x.running ∧ (∀ p, (t.part p).held = false) ∧ t.rf Reg.PTN_RESULT 15 0 = 0 ∧
      t.rf Reg.PTN_RESULT 26 24 = 4 ∧ t.hbm = s.hbm ∧ t.lin = s.lin ∧ t.groups = s.groups)) ∧
  (∀ (f : Func) (s : State), s.speaks f = true → s.mustWait (portOf f) = false →
  let x := s.ptn
  let refused := fun (t : State) (code detail op : Nat) => t.ptn = x ∧ t.rf Reg.PTN_RESULT 15 0 = code ∧
    t.rf Reg.PTN_RESULT 23 16 = detail ∧ t.rf Reg.PTN_RESULT 26 24 = op ∧ t.rb Reg.PTN_RESULT 27 = false
  (∀ scope p, s.brup.katDone = true → x.phase ≠ .idle →
    ∃ t, exec (.baste f scope p) s = .next t ∧ refused t ePtnInvalid 0x20 1) ∧
  (∀ scope p, s.brup.katDone = false → x.phase = .idle → s.rf Reg.BRUP_STACK_STAT 6 4 = 0 → isPf f = true →
    (x.committed = true ∨ scope = false) → ∃ t, exec (.baste f scope p) s = .next t ∧ refused t ePtnInvalid 0x26 1) ∧
  (x.phase ≠ .opened → ∃ t, exec (.sew f) s = .next t ∧ refused t ePtnInvalid 0x21 3) ∧
  (x.phase = .opened → x.loading = true → ∃ t, exec (.sew f) s = .next t ∧ refused t ePtnInvalid 0x22 3) ∧
  (x.phase = .opened → x.loading = false → x.opener ≠ f → ∃ t, exec (.sew f) s = .next t ∧ refused t ePerm 0x27 3) ∧
  (x.commitDue = true → ∃ t, exec (.unpick f) s = .next t ∧ refused t ePtnInvalid 0x21 4))

/-- R26, R30 to R33, R37, R45, R446: what the bytes of a load leave: an image whose checks pass is merged into the staged copy,
a token whose checks pass is staged; memory that cannot be read and a signature that fails unpick the basting. Validation arms
the sew or unpicks it with the lowest detail; an OPEN basting is unpicked when its time is over; the commit of an armed sew (R42,
R43) makes the staged copy the running pattern, but for sections of partitions that it leaves disabled (R26) and with the pinned
regions as they then are, counts the sew, records the tick and raises the EPOCH of each affected partition, and ends the basting;
after READY the relocks and the first steps of the affected partitions follow, and before READY ACTIVE_ID shows the new PATTERN_ID.
What RESULT reads once ARMED is the model's reading (DEDUCED, log entry 44); that any sector of a load that cannot be read gives
E_UNCORR, and that the bytes are read at LOAD_DONE, is its choice (log entry 45). -/
def Obligations.BastingOutcomes : Prop :=
  (∀ (s : State) (ecc : Ecc),
  let r := ({ s with lin := s.lin.calm } : State).loadRead ecc
  let t := r.2.2.loadTake r.1 r.2.1
  s.ptn.loading = true → r.2.2.lin.stuck = none →
    exec (.loadDone ecc) s = .next { t with spl := { t.spl with far := t.spl.far.filter (fun g => !g.used) } }) ∧
  (∀ (u : State) (bs : List Byte),
  let x := u.ptn
  let t := u.loadTake 0 bs
  let first := x.committed = false ∧ x.loaded = false
  let lost := fun (t : State) (code detail : Nat) => t.ptn.phase = .idle ∧ t.ptn.staged = none ∧ t.ptn.running = x.running ∧
    t.rf Reg.PTN_RESULT 15 0 = code ∧ t.rf Reg.PTN_RESULT 23 16 = detail ∧ t.rb Reg.PTN_RESULT 27 = true
  (∀ im, parseLoad bs = .image im → u.scopeOk im = true → (first → imageFull im = true) →
    (u.headerBad im = false → imageSectionBad im = false →
      (u.imageSigs im = (true, true) → t.ptn.staged = x.staged.map (·.merge im) ∧ t.ptn.loading = false ∧
        t.ptn.loaded = true ∧ t.ptn.phase = x.phase ∧ t.ptn.running = x.running ∧ t.rf Reg.PTN_RESULT 15 0 = 0 ∧
        t.rf Reg.PTN_RESULT 26 24 = 2) ∧
      ((u.imageSigs im).1 = false → lost t ePtnSig 0x10) ∧
      (u.imageSigs im = (true, false) → lost t ePtnSig 0x11)) ∧
    (u.headerBad im = true → lost t ePtnInvalid 1) ∧
    (u.headerBad im = false → imageSectionBad im = true → lost t ePtnInvalid 2)) ∧
  (∀ tk, parseLoad bs = .token tk → ¬first → u.tokenDetail tk 1 x.loadLen = 0 →
    t.ptn.token = some tk ∧ t.ptn.staged = x.staged ∧ t.ptn.loading = false ∧
      t.ptn.phase = x.phase ∧ t.nor.tokSeq = u.nor.tokSeq ∧ t.rb Reg.ESC_RESULT 24 = true) ∧
  (∀ code, code ≠ 0 → lost (u.loadTake code bs) eUncorr 0)) ∧
  (∀ (s : State),
  let x := s.ptn
  (∀ y, x.phase = .sewing → x.staged = some y →
    (s.validate y = 0 → (s.needsToken x.running y = false ∨ s.tokenCarries y = true) →
      ∃ t, exec .validationDone s = .next t ∧ t.ptn = { x with phase := .armed, commitDue := !s.tick.en } ∧
        t.rf Reg.PTN_RESULT 15 0 = 0 ∧ t.hbm = s.hbm ∧ t.lin = s.lin ∧ t.groups = s.groups) ∧
    (s.validate y ≠ 0 →
      ∃ t, exec .validationDone s = .next t ∧ t.ptn.phase = .idle ∧ t.ptn.staged = none ∧ t.ptn.running = x.running ∧
        t.rf Reg.PTN_RESULT 15 0 = ePtnInvalid ∧ t.rf Reg.PTN_RESULT 23 16 = s.validate y % 256) ∧
    (s.validate y = 0 → s.needsToken x.running y = true → s.tokenCarries y = false →
      ∃ t, exec .validationDone s = .next t ∧ t.ptn.phase = .idle ∧ t.ptn.staged = none ∧ t.ptn.running = x.running ∧
        t.rf Reg.PTN_RESULT 15 0 = ePtnQuorum)) ∧
  (x.phase = .opened →
    ∃ t, exec .bastingTimeout s = .next t ∧ t.ptn.phase = .idle ∧ t.ptn.staged = none ∧ t.ptn.running = x.running ∧
      x.deadline ≤ t.now ∧ t.rf Reg.PTN_RESULT 15 0 = ePtnTimeout ∧ t.rb Reg.PTN_RESULT 27 = true) ∧
  (∀ y, x.phase = .armed → x.commitDue = true → x.staged = some y →
    (s.lostNow y = false → x.recheck = true → s.validate y ≠ 0 → s.tick.en = false →
      ∃ t, exec .commit s = .next t ∧ t.ptn.phase = .idle ∧ t.ptn.staged = none ∧ t.ptn.running = x.running ∧
        t.rf Reg.PTN_RESULT 15 0 = ePtnInvalid ∧ t.rf Reg.PTN_RESULT 23 16 = s.validate y % 256) ∧
    (s.lostNow y = false → (x.recheck = true → s.validate y = 0) →
      let new : Pat := { y.kept with pins := commitPins x.running y }
      let aff := affectedParts x.running new
      ∃ t u, exec .commit s = .next t ∧ t = (if s.tick.en then u.applyRelock.firstSteps aff else u) ∧
        u.ptn.running = new ∧ u.rf Reg.PTN_SEWCOUNT 31 0 = (s.rf Reg.PTN_SEWCOUNT 31 0 + 1) % 2 ^ 32 ∧
        u.rg64 Reg.PTN_COMMIT_TICK = (if s.tick.en then s.tickNo else 0) ∧ u.rg64 Reg.PTN_ACTIVE_ID = new.id % 2 ^ 64 ∧
        (∀ p, p < 16 → u.epoch p = if p ∈ aff then (s.epoch p + 1) % 2 ^ 16 else s.epoch p) ∧
        t.ptn.phase = .idle ∧ t.ptn.staged = none ∧ t.ptn.committed = true ∧
        (s.tick.en = false → t.rg64 Reg.PTN_ACTIVE_ID = y.id % 2 ^ 64 ∧ t.rf Reg.PTN_RESULT 15 0 = 0)) ∧
    (s.lostNow y = true → s.tick.en = false →
      ∃ t, exec .commit s = .next t ∧ t.ptn.phase = .idle ∧ t.ptn.staged = none ∧ t.ptn.running = x.running ∧
        t.rf Reg.PTN_RESULT 15 0 = ePtnInvalid ∧ t.rf Reg.PTN_RESULT 23 16 = dLost)))

/-- R50, R68, R69, R283, R476: cutting lists that are due go to CUT_BASE once the PANEL commands are complete; the close of a step
writes the sheet, whose header names the boundary, the step and the number of entries, and ends the step unless its delta is still
to be mirrored. -/
def Obligations.StepDataWritten : Prop :=
  (∀ (p : Fin 16) (s : State),
  let n := p.val
  let pat := s.ptn.running
  let w := (lineCuts (pat.cutBase n) (pat.areaLen n)).foldl (fun (u : State) q =>
    (u.memWrite .device (some n) q.1 (readCells (pat.sec 8 n).bytes (0x40 + q.1 - pat.cutBase n) q.2) .clean).2)
    { s with lin := s.lin.calm }
  ((s.part n).cutCopy = false → exec (.cuttingListCopy p) s = .next s) ∧
  ((s.part n).cutCopy = true → (∀ c ∈ s.coresOf n, (s.core c).queue = [] ∧ (s.core c).run = []) → w.lin.stuck = none →
    ∃ t, exec (.cuttingListCopy p) s = .next t ∧ t.hbm = w.hbm ∧ t.lin = w.lin ∧ (t.part n).cutCopy = false ∧
      (t.part n).startDue = false ∧ t.ptn = w.ptn)) ∧
  (∀ (p : Fin 16) (s : State),
  let n := p.val
  let x := s.part n
  let u := (List.range (s.ptn.running.fitCount n)).foldl (fun (u : State) i =>
    u.closeOne n (s.ptn.running.fitBase n + i) x.boundary x.supply) { s with lin := s.lin.calm }
  let k := s.rg64 (Reg.TICK_STEPNO + 0x20 * n) - 1
  ((x.running = false ∨ x.fitClosed = true ∨ x.startDue = true ∨ s.programEnded n = false) →
    exec (.fitClose p) s = .next s) ∧
  (x.running = true → x.fitClosed = false → x.startDue = false → s.programEnded n = true → u.lin.stuck = none →
    ∃ t, exec (.fitClose p) s = .next t ∧ (t.part n).fitClosed = true ∧
      (u.mirrored n = false → (t.part n).running = false ∧ (t.part n).late = false) ∧
      (u.mirrored n = true → (t.part n).mirroring = true ∧ n ∈ t.pair.waiting) ∧
      (∀ q, q ≠ n → t.part q = u.part q) ∧
      (s.ptn.running.fitCount n = 0 →
        readCells t.bar4 (n * 2 ^ 20 + 0x80000 + k % 4 * 0x20000) 18 =
          leBytes x.boundary 8 ++ leBytes k 8 ++ leBytes (min x.backlog.length 2047) 2 ∧
        (t.part n).backlog.length = x.backlog.length - 2047)))

/-! ## Ticks -/

/-- R48, R54 to R56, R58, R60, R439: a level held too briefly for the filter is ignored; an edge of the polarity in force is
counted; 40 µs after the last accepted one it is accepted and, with boundary 0 set, measured, sooner it is ignored; without one
the reference is lost, and a wait for boundary 0 ends. Without a commit due, BASE_BOUNDARY ends the base tick at its time and
begins the next, whose length is BASE_PERIOD with the demand clamped to the ease. That the phase error is rounded down, and when
a loss of the reference is judged and boundary 0 awaited, is the model's reading (DEDUCED, log entry 47). -/
def Obligations.TickReference : Prop :=
  (∀ (falling : Bool) (cycles : Nat) (s : State),
  let pat := s.ptn.running
  let held := max 1 (s.rf Reg.IRQ_FILT 7 0) ≤ cycles
  let arrival : Int := (s.now / 10 * 10 : Nat) - 10 * (max 1 (s.rf Reg.IRQ_FILT 7 0) : Nat)
  let target := arrival + 10 * (pat.syncOffset : Int)
  (¬held → exec (.syncInEdge falling cycles) s = .next s) ∧
  (held → pat.syncSrc = 1 → pat.syncEdge = falling →
    ((∀ l, s.tick.lastEdge = some l → (l : Int) + 40000 ≤ arrival) →
      ∃ t, exec (.syncInEdge falling cycles) s = .next t ∧ t.tick.lastEdge = some arrival.toNat ∧
        t.rf Reg.TICK_SYNC_STAT 15 0 = (s.rf Reg.TICK_SYNC_STAT 15 0 + 1) % 2 ^ 16 ∧
        ((s.tick.en = true ∨ s.tick.next.isSome = true) → s.tick.waitEdge = false →
          t.tick.syncLost = false ∧ t.tick.refFrom = s.now ∧ t.tick.demand = (target - nearest target s.alignedNear) / 10)) ∧
    (∀ l, s.tick.lastEdge = some l → arrival < (l : Int) + 40000 →
      ∃ t, exec (.syncInEdge falling cycles) s = .next t ∧ t.tick = s.tick ∧
        t.rf Reg.TICK_SYNC_STAT 31 16 = (s.rf Reg.TICK_SYNC_STAT 31 16 + 1) % 2 ^ 16)) ∧
  (s.onBus = true → pat.syncSrc = 2 → ∀ arg, ∃ t, exec (.tbTick arg true) s = .next t ∧ t.tick.lastEdge = some s.now ∧
    t.rf Reg.TICK_SYNC_STAT 15 0 = (s.rf Reg.TICK_SYNC_STAT 15 0 + 1) % 2 ^ 16) ∧
  (held → pat.syncSrc ≠ 1 → ∃ t, exec (.syncInEdge falling cycles) s = .next t ∧ onlyRegs [Reg.IRQ_FILT] s t) ∧
  (pat.syncSrc ≠ 0 → s.tick.syncLost = false → (s.tick.en = true ∨ s.tick.waitEdge = true) →
    ∃ t, exec .syncLostTimeout s = .next t ∧ t.tick.syncLost = true ∧ t.tick.waitEdge = false ∧
      s.tick.refFrom + 20 * pat.syncRatio * pat.basePeriod ≤ t.now ∧ t.rb Reg.TICK_STATUS 4 = true ∧
      t.rb (Reg.IRQ_RAW + 16) 2 = true ∧ (s.tick.waitEdge = true → t.tick.next = some t.now))) ∧
  (∀ (s : State) (u : Nat),
  (s.tick.next = none → s.ptn.commitDue = false → exec .baseBoundary s = .next s) ∧
  (s.tick.next = some u → s.ptn.phase ≠ .armed → s.ptn.commitDue = false →
    ∃ t, exec .baseBoundary s = .next t ∧ t.now = max s.now u ∧ t.tick.en = true ∧ t.tick.begun = t.now ∧
      t.tick.next = some (t.now + 10 * ((s.ptn.running.basePeriod : Int) +
        max (-((s.ptn.running.basePeriod / 8 : Nat) : Int)) (min ((s.ptn.running.basePeriod / 8 : Nat) : Int) s.tick.demand)).toNat) ∧
      t.tick.demand = s.tick.demand - max (-((s.ptn.running.basePeriod / 8 : Nat) : Int))
        (min ((s.ptn.running.basePeriod / 8 : Nat) : Int) s.tick.demand) ∧
      (s.tick.en = true → t.tickNo = (s.tickNo + 1) % 2 ^ 64) ∧ (s.tick.en = false → t.tickNo = s.tickNo)))

/-! ## The lining -/

/-- R22, R224 to R230, R242: an access whose address fails answers its code and changes nothing; a resident line is read at its
home, and from a copy on the reader's die; a read that misses joins the fetches of its sectors; a pinned sector is read and
written in its way, HBM untouched. -/
def Obligations.LiningAccesses : Prop := ∀ (x : LinAccess) (s : State),
  let a := x.addr.toNat
  let own := some x.part.val
  let near := fun (die : Nat) => s.agentDie x.agent = die ∧ s.brup.outDies = [] ∧
    s.ptn.running.regFind x.part.val (masterId x.agent) (12 + die) = none ∧
    ∀ t ∈ s.lin.tickets, t.ask = (accAsk x).key ∨ (s.pointsOf t.ask).head? ≠ (s.pointsOf (accAsk x)).head?
  let same := fun (t : State) => t.lin.data = s.lin.data ∧ t.lin.secs = s.lin.secs ∧ t.hbm = s.hbm
  (∀ c, s.target x.agent own a = .fails c → accBad x = 0 →
    ∃ t, exec (.liningAccess x) s = .next t ∧ t.reply = { code := c } ∧ same t ∧
      (s.ticket (accAsk x) = none → t.lin = s.lin) ∧
      { t with reply := s.reply, net := s.net, lin := s.lin } = s) ∧
  (accBad x ≠ 0 →
    ∃ t, exec (.liningAccess x) s = .next t ∧ t.reply = { code := accBad x } ∧ { t with reply := s.reply, net := s.net } = s) ∧
  (∀ p l y n, s.target x.agent own a = .cached p → l = a / 128 → x.op = .read n → 0 < n → a % 128 + n ≤ 128 →
    s.line l = some y → y.recalling = false → (∀ e ∈ s.lin.writeBack, e.1 ≠ l) → y.die = (s.home p l).1 / 256 →
    (∀ b ∈ secsOf a n, (s.sec b).v = true ∧ (s.sec b).poison = false) → x.ecc = .clean → near ((s.home p l).1 / 256) →
    ∃ t, exec (.liningAccess x) s = .next t ∧ t.reply = { data := s.linBytes a n } ∧ same t) ∧
  (∀ p n, s.target x.agent own a = .cached p → x.op = .read n → 0 < n → a % 128 + n ≤ 128 →
    s.copyServes p (accAsk x) = true → x.ecc ≠ .uncorrectable →
    ∃ t, exec (.liningAccess x) s = .next t ∧ t.reply = { data := s.linBytes a n } ∧ same t ∧
      (s.ticket (accAsk x) = none → t.lin = s.lin)) ∧
  (∀ p l w n, s.target x.agent own a = .cached p → l = a / 128 → x.op = .read n → 0 < n → a % 128 + n ≤ 128 →
    s.line l = none → (∀ e ∈ s.lin.writeBack, e.1 ≠ l) → near ((s.home p l).1 / 256) →
    s.ptn.running.regFind x.part.val (masterId x.agent) (s.stackOf a) = none →
    s.pickWay (s.home p l).1 (s.home p l).2 (accGives x) = .free w → s.missEntries (s.home p l).1 < 64 →
    (∀ b ∈ secsOf a n, (s.sec b).v = false ∧ (s.route ((s.home p l).1 / 256) (s.stackOf b / 2) 11).isSome = true) →
    ∃ t y, exec (.liningAccess x) s = .next t ∧ t.line l = some y ∧ y.way = w ∧ y.die = (s.home p l).1 / 256 ∧
      (∀ b ∈ secsOf a n, x ∈ mget y.fills (b % 128 / 32) []) ∧ same t ∧ t.reply = s.reply) ∧
  (s.target x.agent own a = .pinned → near (winSlice a / 256) →
    (∀ n, x.op = .read n → 0 < n → a % 128 + n ≤ 128 →
      (∀ b ∈ secsOf a n, (s.sec b).v = true → (s.sec b).poison = false) → x.ecc = .clean →
      ∃ t, exec (.liningAccess x) s = .next t ∧ t.reply = { data := s.linBytes a n } ∧ same t ∧
        (s.ticket (accAsk x) = none → t.lin = s.lin)) ∧
    (∀ bs, x.op = .write bs → 0 < bs.length → a % 32 + bs.length ≤ 32 →
      ∃ t, exec (.liningAccess x) s = .next t ∧ t.reply = {} ∧ t.linBytes a bs.length = bs ∧ (t.sec a).v = true ∧
        (t.sec a).dirty = false ∧ (t.sec a).parity = parityOf (t.linBytes (a / 32 * 32) 32) ∧ (∀ b, b / 32 ≠ a / 32 → t.sec b = s.sec b) ∧
        (∀ k, (k < a ∨ a + bs.length ≤ k) → ((s.sec a).v = true ∨ k / 32 ≠ a / 32) →
          mget t.lin.data k 0 = mget s.lin.data k 0) ∧ t.hbm = s.hbm ∧ t.bar4 = s.bar4))

/-- R229, R232, R239, R241, R242, R272, R328: a fetched sector is installed and leaves the fetches, a failed one answers and
installs nothing; the oldest queued update changes its bytes; a recall leaves no copy at the dies of SHARERS; a write-back
reaches HBM and forgets the line. That it stays in its entry while its stack is stopped, or has no route, is the model's choice
(DESIGN CHOICE, log entry 65). -/
def Obligations.LiningSlices : Prop := ∀ (line : BitVec 48) (y : Line) (s : State),
  let l := line.toNat / 128
  s.lin.blocked = [] → s.lin.copyDue = [] →
  (s.line l = some y →
    (∀ (sector : Fin 4) (ecc : Ecc), mhas y.fills sector.val = true →
      let b := 128 * l + 32 * sector.val
      let joined := mget y.fills sector.val []
      let rest := mdel y.fills sector.val
      let q := fillAsk b joined
      let r := (s.unticket q).hbmRead b ecc
      (s.sec b).v = false → s.stackKeeps b (s.ticket q) = false → (r.2.2.route (r.2.2.stackOf b / 2) y.die 11).isSome = true →
      (r.1 = 0 → (∀ x ∈ joined, ∃ e ∈ rest, x ∈ e.2) →
        ∃ t, exec (.sectorFill line sector ecc) s = .next t ∧ t.linBytes b 32 = r.2.1 ∧
          t.sec b = { v := true, parity := parityOf r.2.1, code := Config.sectorCode r.2.1 } ∧
          (∃ z, t.line l = some z ∧ { z with held := y.held } = { y with fills := rest } ∧
            (s.ticket q = none → z.held = y.held)) ∧ (∀ c, c / 32 ≠ b / 32 → t.sec c = s.sec c)) ∧
      (r.1 ≠ 0 → joined ≠ [] →
        ∃ t, exec (.sectorFill line sector ecc) s = .next t ∧ t.sec b = s.sec b ∧ t.reply = { code := r.1 } ∧
          t.lin.data = s.lin.data)) ∧
    (∀ x rest code bs, y.recalling = false → s.heldOf y = .access x :: rest → y.sharers = 0 → x.op = .reduce code bs → x.ecc = .clean →
      s.slotWaits { accAsk x with kind := .read } none = false →
      let a := x.addr.toNat
      let w := reduceWidth code.toNat
      reduceValid code.toNat = true → 0 < bs.length → bs.length % w = 0 → a % 128 + bs.length ≤ 128 →
      (∀ b ∈ secsOf a bs.length, (s.sec b).v = true ∧ (s.sec b).poison = false) →
      ∃ t, exec (.updatePerform line) s = .next t ∧ t.reply = {} ∧
        t.linBytes a bs.length = reduceBytes code.toNat w bs (s.linBytes a bs.length) ∧
        t.line l = some { y with held := rest } ∧
        (∀ k, (k < a ∨ a + bs.length ≤ k) → mget t.lin.data k 0 = mget s.lin.data k 0) ∧ t.hbm = s.hbm) ∧
    (y.recalling = true → y.waits = [] → y.due = [] → y.sharers < 64 →
      (∀ d ∈ setBits y.sharers 6, (s.route y.die d 11).isSome = true ∧ (s.route d y.die 11).isSome = true) →
      ∃ t, exec (.recallComplete line) s = .next t ∧ t.line l = some { y with recalling := false, sharers := 0 } ∧
        (∀ d ∈ setBits y.sharers 6, mfind t.lin.copies (8 * l + d) = none) ∧
        (∀ k, (∀ d ∈ setBits y.sharers 6, k ≠ 8 * l + d) → mfind t.lin.copies k = mfind s.lin.copies k) ∧ t.lin.data = s.lin.data ∧ t.lin.secs = s.lin.secs ∧
        t.hbm = s.hbm)) ∧
  (∀ sl, s.lin.writeBack.find? (fun e => e.1 == l) = some (l, sl) → s.hasDirty l = true →
    (∀ b ∈ lineSecs l, (s.sec b).v = true → (s.sec b).dirty = true → s.stackStopped b = true) →
    exec (.writebackAccepted line) s = .next s) ∧
  (∀ sl, s.lin.writeBack.find? (fun e => e.1 == l) = some (l, sl) → s.hasDirty l = true →
    (∀ b ∈ lineSecs l, (s.sec b).v = true → (s.sec b).dirty = true → s.stackStopped b = false ∧
      s.route (sl / 256) (s.stackOf b / 2) 11 = none) →
    ∃ t, exec (.writebackAccepted line) s = .next t ∧ t.lin = s.lin ∧ t.hbm = s.hbm) ∧
  (∀ sl, s.lin.writeBack.find? (fun e => e.1 == l) = some (l, sl) →
    (∀ b ∈ lineSecs l, (s.sec b).v = true → (s.sec b).dirty = true → s.sinks (sl / 256) b = true) →
    ∃ t, exec (.writebackAccepted line) s = .next t ∧ (∀ e ∈ t.lin.writeBack, e.1 ≠ l) ∧ t.line l = none ∧
      (∀ b ∈ lineSecs l, t.sec b = {}) ∧
      (∀ b ∈ lineSecs l, (s.sec b).v = true → (s.sec b).dirty = true → t.hbmBytes b = s.linBytes b 32) ∧
      (∀ c, c / 128 ≠ l → t.sec c = s.sec c))

/-- R237, R244, R245, R247, R250: the scrubber's turn, the end of a thrash window, the clearing of the lining before READY, a
flush. -/
def Obligations.LiningUpkeep : Prop := ∀ (f : Func) (die : Fin 6) (slice : Fin 256) (p : Fin 16) (s : State),
  let sl := 256 * die.val + slice.val
  let n := mget s.lin.dead sl 0
  let lim := s.ptn.running.thrashLimit sl
  (s.rb Reg.LIN_SCRUB 0 = false → ∀ ecc, exec (.scrubTurn die slice ecc) s = .next s) ∧
  (∀ a rest, s.rb Reg.LIN_SCRUB 0 = true → mget s.lin.staleQ sl [] = a :: rest → (s.sec a).v = true → (s.sec a).poison = false →
    (s.sec a).stale = true →
    let bs := s.linBytes (a / 32 * 32) 32
    ∃ t, exec (.scrubTurn die slice .clean) s = .next t ∧
      t.sec a = { s.sec a with stale := false, parity := parityOf bs, code := Config.sectorCode bs } ∧
      mget t.lin.staleQ sl [] = rest ∧ t.lin.data = s.lin.data ∧ (∀ b, b / 32 ≠ a / 32 → t.sec b = s.sec b) ∧ t.hbm = s.hbm) ∧
  (∃ t, exec (.thrashWindowEnd die slice) s = .next t ∧ mget t.lin.dead sl 0 = 0 ∧
    t.rf (bank Reg.LIN_SLICE_THRASH sl) 15 0 = min n 0xFFFF ∧
    (lim ≠ 0 → lim < n → sl ∉ s.lin.thrashed →
      sl ∈ t.lin.thrashed ∧ t.maskBit Reg.LIN_THRASH sl = true ∧ t.rb (Reg.IRQ_RAW + 16) 3 = true) ∧
    (n ≤ lim / 2 → sl ∉ t.lin.thrashed) ∧ t.lin.data = s.lin.data ∧ t.hbm = s.hbm) ∧
  (s.mustWait (portOf f) = false → isPf f = true → s.tick.en = false → s.lin.clearing = false →
    ∃ t, exec (.linClear f) s = .next t ∧ t.lin.data = [] ∧ t.lin.secs = [] ∧ t.lin.lines = [] ∧ t.lin.writeBack = [] ∧
      t.lin.clearing = true ∧ t.hbm = s.hbm ∧ t.regs = s.regs) ∧
  (s.mustWait (portOf f) = false → s.tick.en = true → exec (.linClear f) s = .next s) ∧
  (∃ t, exec .linClearDone s = .next t ∧ t.lin = { s.lin with clearing := false } ∧ { t with lin := s.lin } = s) ∧
  (s.mustWait (portOf f) = false → s.speaks f = true → s.pinBusy = false → (isPf f = true ∨ vfPart f = some p) → s.lin.writeBack = [] →
    (∀ e ∈ s.lin.lines, s.spanOwner (128 * e.1) = some p.val → ∀ b ∈ lineSecs e.1, s.sinks e.2.die b = true) →
    ∃ t, exec (.flush f p) s = .next t ∧ t.lin.flushing = some p ∧
      (∀ e ∈ s.lin.lines, s.spanOwner (128 * e.1) = some p.val → ∀ b ∈ lineSecs e.1, (t.sec b).v = true → (t.sec b).dirty = false) ∧
      t.lin.data = s.lin.data) ∧
  (s.lin.flushing = some p → s.lin.writeBack = [] → s.dirtyPart p.val = true →
    (∀ e ∈ s.lin.lines, s.spanOwner (128 * e.1) = some p.val → ∀ b ∈ lineSecs e.1, s.stackStopped b = true) →
    exec .flushDone s = .next s) ∧
  (s.lin.flushing = some p → s.lin.writeBack = [] → s.dirtyPart p.val = false →
    ∃ t, exec .flushDone s = .next t ∧ t.lin = { s.lin with flushing := none } ∧ t.rf Reg.LIN_PINRESULT 15 0 = 0 ∧
      t.rf Reg.LIN_PINRESULT 17 16 = 3 ∧ t.rb Reg.LIN_PINRESULT 18 = true ∧ t.hbm = s.hbm)

/-- R225, R236: PIN and UNPIN of a dynamic region of the sender are taken and await the owner's next step, and are refused with
E_PERM otherwise, or with E_PTN_INVALID while another command or a sew is under way; HOMEQ shows the home of an address. That
E_PTN_INVALID comes first where both hold is the model's choice (DESIGN CHOICE, log entry 65). -/
def Obligations.PinsAndHomes : Prop := ∀ (f : Func) (i : Fin 256) (s : State),
  let r := s.ptn.running.region i.val
  let mine := r.valid = true ∧ r.dyn = true ∧ ∀ p, vfPart f = some p → p.val = r.owner
  let told := fun (t : State) (code op : Nat) => onlyRegs [Reg.LIN_PINRESULT] s t ∧ t.rf Reg.LIN_PINRESULT 15 0 = code ∧
    t.rf Reg.LIN_PINRESULT 17 16 = op ∧ t.rb Reg.LIN_PINRESULT 18 = true
  (s.mustWait (portOf f) = false → s.speaks f = true → s.pinBusy = false → mine →
    (∃ t, exec (.pin f i) s = .next t ∧ t.lin = { s.lin with pinCmd := some (true, i.val) } ∧ { t with lin := s.lin } = s) ∧
    (∃ t, exec (.unpin f i) s = .next t ∧ t.lin = { s.lin with pinCmd := some (false, i.val) } ∧ { t with lin := s.lin } = s)) ∧
  (s.mustWait (portOf f) = false → s.speaks f = true → s.pinBusy = false → ¬mine →
    (∃ t, exec (.pin f i) s = .next t ∧ told t ePerm 1) ∧ (∃ t, exec (.unpin f i) s = .next t ∧ told t ePerm 2)) ∧
  (s.mustWait (portOf f) = false → s.speaks f = true → s.pinBusy = true →
    (∃ t, exec (.pin f i) s = .next t ∧ told t ePtnInvalid 1) ∧ (∃ t, exec (.unpin f i) s = .next t ∧ told t ePtnInvalid 2)) ∧
  (∀ (r : Req) (addr : BitVec 48) p, (∀ q k, r ≠ .fn (.vf q k)) → atOnce s r → addr.toNat < s.capacity * 2 ^ 30 →
    s.spanOwner addr.toNat = some p →
    ∃ t, exec (.homeqLookup r addr) s = .next t ∧
      t.rf Reg.LIN_HOMEQ_RES 7 0 = (s.home p (addr.toNat / 128)).1 % 256 ∧
      t.rf Reg.LIN_HOMEQ_RES 10 8 = (s.home p (addr.toNat / 128)).1 / 256 ∧ t.rb Reg.LIN_HOMEQ_RES 11 = true ∧
      t.rf Reg.LIN_HOMEQ_RES 23 12 = (s.home p (addr.toNat / 128)).2 ∧ t.rg64 Reg.LIN_HOMEQ = addr.toNat ∧
      onlyRegs [Reg.LIN_HOMEQ, Reg.LIN_HOMEQ + 4, Reg.LIN_HOMEQ_RES] s t)

/-! ## HBM -/

/-- R5, R254, R258, R259, R272, R450: a sector access within its owner's span writes all 32 bytes with their metadata, and a good
sector reads what stands in it; a poisoned one answers E_UNCORR, an address past the capacity E_BOUNDS; at a stopped stack it waits
with the key in force then (R454), and once one has waited 20 ms it answers E_TIMEOUT. -/
def Obligations.HbmSectors : Prop := ∀ (addr : BitVec 48) (part : Option (Fin 16)) (ecc : Ecc) (s : State),
  let a := addr.toNat / 32 * 32
  let key := fun (b : Nat) => hsecKey (s.hbmPlace b).1 (s.hbmPlace b).2
  (s.capacity * 2 ^ 30 ≤ a → ∀ w, exec (.hbmSectorAccess addr part w ecc) s = .next (s.answer { code := eBounds })) ∧
  (a < s.capacity * 2 ^ 30 → (∀ k, part = some k → s.spanOwner a = some k.val) → (s.spanOwner a ≠ none → s.keyGen a ≠ 0) →
    let x := s.stackSt (s.stackOf a)
    (x.st = .stop → x.expired = false → ∀ w, ∃ t, exec (.hbmSectorAccess addr part w ecc) s = .next t ∧
      t.hbm.waits = s.hbm.waits ++ [⟨a, w, ecc, s.stackOf a, s.now, s.keyGen a⟩] ∧
      { t.hbm with waits := s.hbm.waits } = s.hbm ∧ { t with hbm := s.hbm } = s) ∧
    (x.st = .stop → x.expired = true → ∀ w,
      exec (.hbmSectorAccess addr part w ecc) s = .next (s.answer { code := eTimeout })) ∧
    (x.st ≠ .stop → (∀ bs, bs.length = 32 →
      ∃ t, exec (.hbmSectorAccess addr part (some bs) ecc) s = .next t ∧ t.reply = {} ∧ t.hbmBytes a = bs ∧
        (mget t.hbm.secs (key a) {}).poison = false ∧
        ((s.classTag a).1 = 1 → (mget t.hbm.secs (key a) {}).code.toNat < 2 ^ 16) ∧
        (∀ b, key b ≠ key a → t.hbmBytes b = s.hbmBytes b) ∧ { t with hbm := s.hbm, reply := s.reply } = s) ∧
    ((mget s.hbm.secs (key a) {}).poison = false →
      exec (.hbmSectorAccess addr part none .clean) s = .next (s.answer { data := s.hbmBytes a })) ∧
    ((mget s.hbm.secs (key a) {}).poison = true →
      ∃ t, exec (.hbmSectorAccess addr part none ecc) s = .next t ∧ t.reply = { code := eUncorr } ∧ t.hbm.data = s.hbm.data)))

/-- R261, R267, R268, R270 to R272: a patrol turn reads the next CLASS_W sector; a condemned pseudo-channel is pending and
leaves the staged copy, unless its commit is due; the layers a stack reports, or that fall silent, decide its thermal state; a
request that has waited 20 ms at a stopped stack fails, one that came later waits on to its own time, and new ones no longer
wait. -/
def Obligations.StackUpkeep : Prop := ∀ (f : Func) (m : Fin 12) (s : State),
  let x := s.stackSt m.val
  (∀ (n : Fin 768) pos a, s.rb Reg.HBM_PATROL 0 = true → s.pchLive n.val = true → (s.stackSt (n.val / 64)).st ≠ .stop →
    s.patrolNext n.val (2 ^ 19 + 1) (mget s.hbm.patrol n.val 0) = some (pos, a) →
    (mget s.hbm.secs (hsecKey n.val (32 * pos)) {}).poison = false →
    ∃ t, exec (.patrolTurn n .clean) s = .next t ∧ (s.classTag a).1 ≠ 1 ∧ a = s.addrOf n.val (32 * pos) ∧
      mget t.hbm.patrol n.val 0 = (pos + 1) % 2 ^ 25 ∧
      { t with hbm := { t.hbm with patrol := s.hbm.patrol } } = s) ∧
  (∀ n : BitVec 10, s.mustWait (portOf f) = false → isPf f = true → n.toNat < 768 → s.fitted (n.toNat / 64) = true →
    s.maskBit Reg.HBM_MAPPED n.toNat = false →
    ∃ t, exec (.hbmCondemn f n) s = .next t ∧ t.maskBit Reg.HBM_PEND n.toNat = true ∧
      (s.maskBit Reg.HBM_PEND n.toNat = true → t = s) ∧
      (s.maskBit Reg.HBM_PEND n.toNat = false →
        t.rb (Reg.IRQ_RAW + 16) 4 = true ∧
        t.ptn.staged = (if s.ptn.commitDue then s.ptn.staged else s.ptn.staged.map (·.dropPch n.toNat)) ∧
        (s.ptn.commitDue = false → s.ptn.phase = .armed → t.ptn.recheck = true) ∧
        (s.ptn.commitDue = true → n.toNat ∈ t.hbm.fresh)) ∧
      t.ptn.running = s.ptn.running ∧ { t.hbm with fresh := s.hbm.fresh } = s.hbm) ∧
  (s.fitted m.val = true →
    (∀ temps, let y : StackSt := { x with temps := (List.range 16).map (fun i =>
        match temps.getD i none with
        | some v => some v
        | none => x.temps.getD i none) }
      ∃ t, exec (.hbmTempReport m temps) s = .next t ∧ (t.stackSt m.val).temps = y.temps ∧
        (t.stackSt m.val).st = stackNext x.st y.govern ∧ (∀ k, k ≠ m.val → t.stackSt k = s.stackSt k) ∧
        (x.st = .normal → stackNext x.st y.govern = .throttle → t.rb Reg.HBM_THERM_EVT m.val = true)) ∧
    (∀ layer : Fin 16, let y : StackSt := { x with temps := (List.range 16).map (fun i =>
        if i = layer.val then none else x.temps.getD i none) }
      ∃ t, exec (.layerSensorTimeout m layer) s = .next t ∧ (t.stackSt m.val).temps = y.temps ∧
        (t.stackSt m.val).st = stackNext x.st y.govern ∧ y.sensorBad = true)) ∧
  ((s.stopTimes m.val = [] ∨ x.st ≠ .stop) → exec (.hbmStopTimeout m) s = .next s) ∧
  (∀ t0, x.st = .stop → t0 ∈ s.stopTimes m.val → (∀ u ∈ s.stopTimes m.val, t0 ≤ u) →
    let ends := fun (w : SectorWait) => w.stack = m.val ∧ w.since = t0
    (∀ w ∈ s.hbm.waits, ends w → s.stackOf w.addr = m.val) →
    ∃ t, exec (.hbmStopTimeout m) s = .next t ∧ t.now = max s.now (t0 + 20000000) ∧
      t.stackSt m.val = { x with expired := true } ∧ (∀ k, k ≠ m.val → t.stackSt k = s.stackSt k) ∧
      t.hbm.waits = s.hbm.waits.filter (fun w => !decide (ends w)) ∧
      ((∃ w ∈ s.hbm.waits, ends w) → t.reply = { code := eTimeout }) ∧
      t.lin.tickets = s.lin.tickets.map (fun k => if k.stop = some (m.val, t0) then { k with late := true } else k) ∧
      { t.lin with tickets := s.lin.tickets } = s.lin ∧
      { t.hbm with waits := s.hbm.waits, stks := s.hbm.stks } = s.hbm ∧
      { t with hbm := s.hbm, lin := s.lin, now := s.now, reply := s.reply } = s)

/-! ## The network -/

/-- R320, R321, R325, R332, R333: after READY a lane that loses lock, or whose errors in a window reach the limit, waits for the
next base boundary, and before READY it is darned at once where its group has a spare; a limit of 0 counts no errors; a
regulator window gives every valid entry its allowance less its debt. -/
def Obligations.LanesAndRegulators : Prop := ∀ (link : Fin 11) (dir : Fin 2) (group : Fin 8) (lane : Fin 68) (s : State),
  let d := 2 * link.val + dir.val
  let l := 68 * group.val + lane.val
  let lim := s.rf Reg.NET_DARN_CFG 15 0
  (s.tick.en = true → s.dowelPresent link.val = true → s.rb Reg.NET_STATUS (2 + link.val) = false →
    (s.dowel d).live l = true → l ∉ (s.dowel d).waiting →
    (∃ t, exec (.laneLockLoss link dir group lane) s = .next t ∧ (t.dowel d).waiting = (s.dowel d).waiting ++ [l] ∧
      (∀ k, k ≠ d → t.dowel k = s.dowel k) ∧ { t with net := s.net } = s) ∧
    (∀ errors, lim ≠ 0 → lim ≤ errors → ∃ t, exec (.laneErrorWindowEnd link dir group lane errors) s = .next t ∧
      (t.dowel d).waiting = (s.dowel d).waiting ++ [l] ∧ (∀ k, k ≠ d → t.dowel k = s.dowel k) ∧ t.nor = s.nor)) ∧
  (s.tick.en = false → s.dowelPresent link.val = true → s.rb Reg.NET_STATUS (2 + link.val) = false →
    (s.dowel d).live l = true → (∀ k, (s.dowel k).waiting = []) → (s.dowel d).used group.val < 4 →
    ∃ t, exec (.laneLockLoss link dir group lane) s = .next t ∧ (t.dowel d).darned = (s.dowel d).darned ++ [l] ∧
      (t.dowel d).waiting = [] ∧ (t.dowel d).dropped = (s.dowel d).dropped ∧ t.nor.darns = s.nor.darns ++ [544 * d + l] ∧
      t.rb Reg.NET_EVT 0 = true ∧ (∀ k, k ≠ d → t.dowel k = s.dowel k) ∧ sameRegs [Reg.NET_EVT] s t) ∧
  (∀ errors, lim = 0 → exec (.laneErrorWindowEnd link dir group lane errors) s = .next s) ∧
  (∀ errors, errors < lim → ∃ t, exec (.laneErrorWindowEnd link dir group lane errors) s = .next t ∧
    (t.dowel d).waiting = (s.dowel d).waiting ∧ sameRegs [bank Reg.NET_WORST (link.val + 16 * dir.val)] s t) ∧
  (s.lin.blocked = [] → s.lin.copyDue = [] → ∃ t, exec .regulatorWindowStart s = .next t ∧ t.net.windowAt = t.now ∧
    s.net.windowAt + 1000 * s.ptn.running.regWindow ≤ t.now ∧
    ∀ i p, i < 512 → p < 18 → s.ptn.running.regValid i = true → bitOf (s.ptn.running.regPoints i) p = true →
      let r := s.regul i p
      let m : Int := s.limitEff i p
      t.regul i p = { allow := m - (if r.allow < 0 then min m (-r.allow) else 0), served := 0, deferred := false })

/-! ## Jig engines -/

/-- R290, R291, R307, R308: GO starts an idle channel at PC 0; STOP makes one idle, at once or when its accesses have completed;
CMDRES says why either is refused; a fetch that fails faults the channel; RESUME lets a stopped engine go on, the failing
channel behind its MOVE with CONTINUE; PL7 mode is set while every channel is idle. That GO sets the running CRC to 0xFFFFFFFF
is the model's reading (DEDUCED, log entry 54). -/
def Obligations.JigCommands : Prop :=
  (∀ (f : Func) (ch : Fin 320) (s : State),
  let n := ch.val
  let x := s.chan n
  let others := fun (t : State) => ∀ k, k ≠ n → t.chan k = s.chan k
  let quiet := s.forgetTickets (fun k => decide (k.ask.agent = jigAgent n))
  (s.mustWait (portOf f) = false → s.engFitted (n / 32) = true → s.jigReaches f n = true →
    (x.st = .idle → ∃ t, exec (.jigGo f ch) s = .next t ∧ t.chan n = { st := .running } ∧ t.chPc n = 0 ∧
      t.rg (chReg Reg.JIG_CH_BAD n) = 0 ∧ t.rg (chReg Reg.JIG_CH_FAULT n) = 0 ∧ t.rg (chReg Reg.JIG_CH_PASSES n) = 0 ∧
      t.rg64 (chReg Reg.JIG_CH_WBASE n) = 0 ∧ t.rg (chReg Reg.JIG_CH_CRC n) = 0xFFFFFFFF ∧
      t.rg64 (chReg Reg.JIG_CH_PROG n) = s.rg64 (chReg Reg.JIG_CH_PROG n) ∧ others t ∧
      { t with jig := s.jig, regs := s.regs } = s) ∧
    (x.st ≠ .idle → ∃ t, exec (.jigGo f ch) s = .next t ∧ t.chan n = { x with cmdres := 1 } ∧ others t ∧ { t with jig := s.jig } = s) ∧
    (x.st ≠ .idle → x.moves = [] → x.sent = none → s.chFar n = false → ∃ t, exec (.jigStop f ch) s = .next t ∧
      t.chan n = { x with st := .idle, wait := none, cmdres := 0, stopping := false } ∧ others t ∧ onlyJig quiet t) ∧
    (∀ v rest, x.st ≠ .idle → x.moves = v :: rest → v.out = true → ∃ t, exec (.jigStop f ch) s = .next t ∧
      t.chan n = { x with cmdres := 0, moves := x.remains, stopping := true, wait := if x.sent.isSome then x.wait else none } ∧
      others t ∧ onlyJig quiet t) ∧
    (x.st = .idle → ∃ t, exec (.jigStop f ch) s = .next t ∧ t.chan n = { x with cmdres := 1 } ∧ others t ∧ { t with jig := s.jig } = s)) ∧
  (s.mustWait (portOf f) = false → s.engFitted (n / 32) = true → s.jigReaches f n = false →
    ∃ t, exec (.jigGo f ch) s = .next t ∧ t.chan n = { x with cmdres := 2 } ∧ others t ∧ { t with jig := s.jig } = s) ∧
  (∀ code, s.chReady n = true →
    ∃ t, exec (.jigFetchFail ch code) s = .next t ∧ (t.chan n).st = .faulted ∧
      t.rf (chReg Reg.JIG_CH_FAULT n) 15 0 = (if code.isSome then fBusErr else fIllegal) ∧
      t.rb (Reg.JIG_FAULT_PEND + 4 * (n / 32)) (n % 32) = true ∧ t.rb (Reg.IRQ_RAW + 16) 7 = true ∧ others t ∧
      t.hbm = s.hbm ∧ t.lin = quiet.lin)) ∧
  (∀ (f : Func) (e : Fin 10) (on : Bool) (s : State),
  let first := 32 * e.val + s.rf (Reg.JIG_ENG + 4 * e.val) 10 6
  s.mustWait (portOf f) = false → isPf f = true →
  (s.jig.stopped.contains e.val = true →
    (∃ t, exec (.resumeRetry f e) s = .next t ∧ e.val ∉ t.jig.stopped ∧
      (∀ n ∈ engChans e.val, (s.chan n).st = .stopped → (s.chan n).stopping = false →
        t.chan n = { s.chan n with st := .running }) ∧
      (∀ n, (n ∉ engChans e.val ∨ (s.chan n).st ≠ .stopped ∨ (s.chan n).stopping = true) → t.chan n = s.chan n) ∧ { t with jig := s.jig } = s) ∧
    ((s.chan first).st = .stopped → (s.chan first).stopping = false → s.chPc first + 16 < 0x10000 → first ∈ engChans e.val →
      ∃ t, exec (.resumeContinue f e) s = .next t ∧ e.val ∉ t.jig.stopped ∧ t.chPc first = s.chPc first + 16 ∧
        (t.chan first).st = .running ∧
        (∀ n ∈ engChans e.val, n ≠ first → (s.chan n).st = .stopped → (s.chan n).stopping = false → t.chan n = { s.chan n with st := .running }))) ∧
  (s.engFitted e.val = true → (∀ n ∈ engChans e.val, (s.chan n).st = .idle) →
    ∃ t, exec (.pl7Write f e on) s = .next t ∧ t.rb (Reg.JIG_ENG + 4 * e.val) 0 = on ∧ onlyRegs [Reg.JIG_ENG + 4 * e.val] s t) ∧
  ((∃ n ∈ engChans e.val, (s.chan n).st ≠ .idle) → exec (.pl7Write f e on) s = .next s))

/-- R294, R296, R297, R300, R305: a MOVE in linear form is taken behind those whose accesses are out, or marked bad; with its bytes
read the channel goes on 16 bytes behind, and while the engine's reads are full it reads nothing (R289); with its last byte written,
or reduced, it leaves the channel, whose CRC has taken its bytes. That each JIG_ACCESS_COMPLETE makes one access of the oldest MOVE,
the cut of a piece at a line and the codes of a bad check are the model's choices (log entry 54), and so is their order (DESIGN
CHOICE, log entry 66). -/
def Obligations.JigMoves : Prop := ∀ (ch : Fin 320) (w : BitVec 128) (ecc : Ecc) (s : State),
  let n := ch.val
  let x := s.chan n
  let p := some (s.chPart n)
  let v : MoveSt := { w := w, pc := s.chPc n, iter := x.iter, sacc := x.sacc, dacc := x.dacc }
  let len := jf w 47 24 + 1
  let calm : State := { s with lin := s.lin.calm }
  jf w 3 0 = 1 → moveOk w = true → isDesc w = false →
  (s.chReady n = true →
    ((s.moveCheck n v).1 = 0 → (x.moves = [] ∨ ∃ o rest, x.moves = o :: rest ∧ o.out = true) →
      ∃ t, exec (.move ch w) s = .next t ∧ t.chan n = { x with moves := x.moves ++ [{ v with begun := true }] } ∧
        (∀ k, k ≠ n → t.chan k = s.chan k) ∧ onlyJig s t) ∧
    ((s.moveCheck n v).1 ≠ 0 → x.moves = [] → s.pl7Active (n / 32) = false → s.chPc n + 16 < 0x10000 →
      ∃ t, exec (.move ch w) s = .next t ∧ (t.chan n).moves = [] ∧ (t.chan n).badSince = true ∧
        t.chPc n = s.chPc n + 16 ∧ t.rf (chReg Reg.JIG_CH_BAD_CODE n) 15 0 = (s.moveCheck n v).1 ∧
        t.hbm = s.hbm ∧ t.lin.calm = { s.lin with tickets := s.lin.tickets.filter (fun k => !decide (k.ask.agent = jigAgent n)) }.calm)) ∧
  (∀ pc iter sacc dacc, let v : MoveSt := { w := w, pc := pc, iter := iter, sacc := sacc, dacc := dacc, begun := true }
   let side := fun (src : Bool) => (s.sideBase n v src).1 + (s.sideBase n v src).2
   let a := (side true).toNat
   let d := (side false).toNat
   (s.moveCheck n v).1 = 0 → wrapOf w true = 0 → wrapOf w false = 0 → jf w 9 8 = 0 → x.wait = none → x.stopping = false →
   (x.moves = [v] → s.jig.stopped.contains (n / 32) = false → s.chPc n + 16 < 0x10000 → isRemote a = false → a % 128 + len ≤ 128 →
     let q : Ask := ⟨jigAgent n, p, a, len, .read, ecc⟩
     let r := calm.memRead (jigAgent n) p a len ecc
     (s.jigFull q = true → ∃ t, exec (.jigAccessComplete ch false ecc) s = .next t ∧ t.chan n = x ∧ onlyJig s t) ∧
     (s.jigFull q = false → r.1 = 0 → r.2.1.length = len → r.2.2.lin.stuck = none → r.2.2.jig = s.jig →
      r.2.2.chPc n = s.chPc n →
      ∃ t, exec (.jigAccessComplete ch false ecc) s = .next t ∧ t.hbm = r.2.2.hbm ∧ t.lin = r.2.2.lin ∧
       (t.chan n).moves = [{ v with got := r.2.1 }] ∧ (t.chan n).st = .running ∧ t.chPc n = s.chPc n + 16 ∧
       (∀ k, k ≠ n → t.chan k = s.chan k))) ∧
   (∀ got, got.length = len → x.moves = [{ v with got := got }] → isRemote d = false → d % 128 + len ≤ 128 →
     let q := if jf w 7 4 = 0 then calm.memWrite (jigAgent n) p d got ecc
       else calm.memReduce (jigAgent n) p d (jf w 7 4) got ecc
     q.1 = 0 → q.2.lin.stuck = none → q.2.jig = s.jig →
     ∃ t, exec (.jigAccessComplete ch true ecc) s = .next t ∧ t.hbm = q.2.hbm ∧ t.lin = q.2.lin ∧
       t.chan n = { x with moves := [] } ∧
       (t.rg (chReg Reg.JIG_CH_CRC n)).toNat = crcRun (q.2.rg (chReg Reg.JIG_CH_CRC n)).toNat got % 2 ^ 32 ∧
       (∀ k, k ≠ n → t.chan k = s.chan k)))

/-- R302 to R305: LOOP jumps back until its count is reached; WAIT waits for a tick, for the channel's MOVEs, or for a word at
its threshold, which a relative one adds to WBASE; SIGNAL waits for the MOVEs, then adds to its word; END stores its record and
leaves the channel idle, or starts the next pass. The CRC of 0xFFFFFFFF at a new pass and the threshold modulo 2^64 are the model's
readings (DEDUCED, log entry 54). -/
def Obligations.JigControl : Prop := ∀ (ch : Fin 320) (w : BitVec 128) (s : State),
  let n := ch.val
  let x := s.chan n
  let p := some (s.chPart n)
  let on := fun (t : State) => t.chPc n = s.chPc n + 16 ∧ (t.chan n).st = .running ∧ (t.chan n).wait = none ∧
    ∀ k, k ≠ n → t.chan k = s.chan k
  let a := jf w 63 16
  let calm : State := { s with lin := s.lin.calm }
  let held : State := calm.chanMap n (fun y => { y with wait := some w })
  s.jig.stopped.contains (n / 32) = false → s.chPc n + 16 < 0x10000 →
  (let l := jf w 6 4
   let i := mget x.iter l 0
   s.chReady n = true → jf w 3 0 = 2 → l < 5 → jf w 7 7 = 0 → 0 < jf w 19 8 → 0 < jf w 43 20 → jf w 63 44 = 0 →
   16 * jf w 19 8 ≤ s.chPc n →
   (i + 1 < jf w 43 20 → ∃ t, exec (.loop ch w) s = .next t ∧ t.chPc n = s.chPc n - 16 * jf w 19 8 ∧ mget (t.chan n).iter l 0 = i + 1 ∧
     mget (t.chan n).sacc l 0 = mget x.sacc l 0 + BitVec.ofInt 64 (signed (jf w 95 64) 32) ∧
     mget (t.chan n).dacc l 0 = mget x.dacc l 0 + BitVec.ofInt 64 (signed (jf w 127 96) 32) ∧
     (t.chan n).moves = x.moves ∧ t.hbm = s.hbm ∧ t.lin = s.lin) ∧
   (jf w 43 20 ≤ i + 1 → ∃ t, exec (.loop ch w) s = .next t ∧ on t ∧ mget (t.chan n).iter l 0 = 0 ∧ mget (t.chan n).sacc l 0 = 0 ∧
     mget (t.chan n).dacc l 0 = 0 ∧ (t.chan n).moves = x.moves ∧ t.hbm = s.hbm ∧ t.lin = s.lin)) ∧
  (s.chReady n = true → jf w 3 0 = 3 → jf w 15 6 = 0 → jf w 127 16 = 0 →
    ((jf w 5 4 = 1 ∨ (jf w 5 4 = 2 ∧ x.moves ≠ [])) → ∃ t, exec (.wait ch w) s = .next t ∧
      t.chan n = { x with st := .waiting, wait := some w } ∧ (∀ k, k ≠ n → t.chan k = s.chan k) ∧ onlyJig s t) ∧
    (jf w 5 4 = 2 → x.moves = [] → ∃ t, exec (.wait ch w) s = .next t ∧ on t ∧ t.hbm = s.hbm ∧ t.lin.calm = s.lin.calm)) ∧
  (let r := calm.memRead (jigAgent n) p a 8 .clean
   let base := chReg Reg.JIG_CH_WBASE n
   let rel := bitOf w.toNat 6
   let limit := if rel then (s.rg64 base + jf w 127 64) % 2 ^ 64 else jf w 127 64
   x.st = .waiting → x.stopping = false → x.wait = some w → jf w 5 4 = 0 → a % 8 = 0 → isRemote a = false →
   s.jigFull ⟨jigAgent n, p, a, 8, .read, .clean⟩ = false → r.1 = 0 → r.2.2.lin.stuck = none → r.2.2.jig = s.jig → r.2.2.chPc n = s.chPc n →
   (limit ≤ leNat r.2.1 → ∃ t, exec (.jigWaitEnd ch) s = .next t ∧ on t ∧ t.hbm = r.2.2.hbm ∧ t.lin = r.2.2.lin ∧
     t.rg64 base = (if rel then (r.2.2.rg64 base + jf w 127 64) % 2 ^ 64 else r.2.2.rg64 base)) ∧
   (leNat r.2.1 < limit → ∃ t, exec (.jigWaitEnd ch) s = .next t ∧ t.chan n = x ∧ t.chPc n = s.chPc n)) ∧
  (s.chReady n = true → x.sent = none → ((jf w 3 0 = 4 ∧ jf w 15 5 = 0 ∧ jf w 127 96 = 0) ∨
      (jf w 3 0 = 5 ∧ jf w 15 7 = 0 ∧ jf w 127 64 = 0 ∧ (bitOf w.toNat 5 = false → a = 0))) →
    (x.moves ≠ [] → ∀ c, (c = Instr.jigSignal ch w ∧ jf w 3 0 = 4) ∨ (c = .jigEnd ch w ∧ jf w 3 0 = 5) →
      ∃ t, exec c s = .next t ∧ t.chan n = { x with wait := some w } ∧ (∀ k, k ≠ n → t.chan k = s.chan k) ∧ onlyJig s t) ∧
    (x.moves = [] → jf w 3 0 = 4 → a % 8 = 0 → isRemote a = false →
      let inc := jf w 95 64 + (if x.badSince && !bitOf w.toNat 4 then 2 ^ 32 else 0)
      let r := held.memUpdate (jigAgent n) p a 8 (fun old => leBytes (leNat old + inc) 8) .clean
      r.1 = 0 → r.2.2.lin.stuck = none → r.2.2.jig = held.jig → r.2.2.chPc n = s.chPc n →
      ∃ t, exec (.jigSignal ch w) s = .next t ∧ on t ∧ (t.chan n).badSince = false ∧
        t.hbm = r.2.2.hbm ∧ t.lin = r.2.2.lin) ∧
    (x.moves = [] → jf w 3 0 = 5 → (bitOf w.toNat 5 = true → a % 8 = 0 ∧ isRemote a = false) →
      let crc := chReg Reg.JIG_CH_CRC n
      let q := if bitOf w.toNat 5 then held.memWrite (jigAgent n) p a
          (leBytes (Nat.xor (s.rg crc).toNat 0xFFFFFFFF + 2 ^ 32 * x.badEnd) 8) .clean
        else (0, held)
      q.1 = 0 → q.2.lin.stuck = none → q.2.jig = held.jig →
      ∃ t, exec (.jigEnd ch w) s = .next t ∧ (t.chan n).badEnd = 0 ∧ (∀ k, k ≠ n → t.chan k = s.chan k) ∧
        t.hbm = q.2.hbm ∧ t.lin = q.2.lin ∧
        (bitOf w.toNat 6 = true → t.rb (Reg.JIG_END_PEND + 4 * (n / 32)) (n % 32) = true) ∧
        (bitOf w.toNat 4 = false → (t.chan n).st = .idle) ∧
        (bitOf w.toNat 4 = true → (t.chan n).st = .running ∧ (t.chan n).iter = [] ∧ t.chPc n = 0 ∧ t.rg crc = 0xFFFFFFFF ∧
          t.rf (chReg Reg.JIG_CH_PASSES n) 31 0 = (q.2.rf (chReg Reg.JIG_CH_PASSES n) 31 0 + 1) % 2 ^ 32)))


/-! ## The whole machine -/

/-- A step takes the command at the front of the queue and answers what it does, with the queue's rest; the model's choice for
an empty queue (log entry 1): what waits for memory is tried again, links that await an INIT send theirs again (log entry 17), the
accesses of a port that were put off are made, and one cycle of 10 ns passes. -/
def Obligations.StepTakesFrontCommand : Prop :=
  (∀ (c : Instr) (s : State), step { s with pending := c :: s.pending } = exec c s) ∧
  (∀ s : State, s.pending = [] → step s = s.idle.runLater ∧
    (s.lin.blocked = [] → s.lin.copyDue = [] → (∀ e ∈ s.spl.links, e.2.st = .training → e.2.trained = false) →
      (∀ p, (s.port p).ops = [] ∧ (s.port p).later = []) → step s = .next { s with now := s.now + 10 }))

/-- No command stops the block, and no command touches the queue: from every state, every command answers a next state. -/
def Obligations.EveryCommandCompletes : Prop := ∀ (c : Instr) (s : State), ∃ t, exec c s = .next t ∧ t.pending = s.pending

/-- R7, R441, R442, R448: no command changes the fused fields of GLB.VARIANT, nor the other identities fused at assembly; the other
fuses only burn: no command lowers the version floor, takes an enrolment back or undoes a revocation. -/
def Obligations.FusesOnlyBurn : Prop :=
  (∀ (c : Instr) (s t : State), exec c s = .next t →
  t.fuses.stackMask = s.fuses.stackMask ∧ t.fuses.xMask = s.fuses.xMask ∧ t.fuses.links = s.fuses.links ∧
  t.fuses.stepping = s.fuses.stepping ∧ t.fuses.serial = s.fuses.serial ∧ t.fuses.slot = s.fuses.slot ∧
  t.fuses.mgmtAddr = s.fuses.mgmtAddr ∧ t.fuses.f0 = s.fuses.f0 ∧ t.fuses.v0 = s.fuses.v0) ∧
  (∀ (c : Instr) (s t : State), exec c s = .next t → s.fuses.le t.fuses)

/-- Every step keeps the canonical form of BAR4, staging, the lining and HBM, and with it what a byte reads as is one datum. -/
def Obligations.StepKeepsMemories : Prop := ∀ (s t : State), s.memWf = true → step s = .next t → t.memWf = true

/-- Table 21.2, Tables 1.9, 3.9, 19.7 and 21.6: what module reset leaves: bring-up at step 0, running; no tick; an empty log;
every channel IDLE and every group slot FREE; ESC locked; and the memories in canonical form. R439: MOD_RST_N held low for fewer
cycles than its filter asks does nothing. -/
def Obligations.ResetState : Prop :=
  State.reset.memWf = true ∧ State.reset.pending = [] ∧ State.reset.rf Reg.BRUP_STATUS 3 0 = 0 ∧
  State.reset.rf Reg.BRUP_STATUS 5 4 = 1 ∧ State.reset.tickNo = 0 ∧ State.reset.tick.en = false ∧ State.reset.moduleId = 0xFFF ∧
  State.reset.rf Reg.ERR_HEAD 8 0 = State.reset.rf Reg.ERR_TAIL 8 0 ∧ State.reset.log.queue = [] ∧
  State.reset.esc.debug = 0 ∧ State.reset.pair.role = .off ∧
  (∀ n, (State.reset.chan n).st = .idle) ∧ (∀ g, (State.reset.group g).st = .free) ∧
  (∀ (cycles : Nat) (s : State), s.passes 3 cycles = false → exec (.moduleReset 1 cycles) s = .next s) ∧
  (∀ (c : ResetCause) (cycles : Nat) (s : State), c ≠ 10 → (c = 1 → s.passes 3 cycles = true) →
    ∃ t, exec (.moduleReset c cycles) s = .next t ∧ t.rf Reg.PWR_LAST_RESET 3 0 = c.val ∧
    t.fuses = s.fuses ∧ { t.nor with hours := s.nor.hours } = s.nor ∧ t.hbm.data = s.hbm.data ∧
    t.esc.moduleKey = s.esc.made + 1 ∧ t.bar4 = [] ∧ t.staging = [] ∧ t.groups = [] ∧ t.jig = {} ∧ t.lin = {} ∧
    t.ptn = {} ∧ t.tick = {} ∧ t.pair = {} ∧ t.spl = {} ∧ t.pwr.faultHold = s.pins.faultIn ∧
    sameRegs [Reg.PWR_LAST_RESET, Reg.PWR_EFFECTIVE, Reg.PWR_STATUS] State.reset t)

/-! ## Spline links -/

/-- R340 to R343: training begins from DOWN when its retry is due, ends with the lanes that came up, back in DOWN, or after 500 ms
without INIT; INIT with a good CRC records the peer and takes the link into UP4 or UP2, which sets DEGRADE; DISABLE and a failed
lane take a link out of service; RETRAIN keeps the replay buffer and attempts UP4. -/
def Obligations.SplineLinkStates : Prop := ∀ (f : Func) (n : Fin 64) (s : State),
  let x := s.link n.val
  let others := fun (t : State) => ∀ k, k ≠ n.val → t.link k = s.link k
  let peer := bank Reg.SPL_PEER n.val
  let corr := bank Reg.SPL_FEC_CORR n.val
  let wait := 1000000 * max 1 (s.rf Reg.SPL_CFG 15 8)
  let acks := if x.owed.isEmpty then 1 else (creditParts x.owed).length
  (x.st = .down → linkFitted s n.val = true → ∃ t, exec (.linkTrainingRetry n) s = .next t ∧
    t.link n.val = { x with st := .training, trained := false, limit := 15, began := t.now } ∧ t.now = max s.now x.retryAt ∧
    others t ∧ { t with spl := s.spl, now := s.now } = s) ∧
  (∀ good : BitVec 4, x.st = .training → x.trained = false →
    let lanes := lanesUp (Nat.land good.toNat x.limit)
    (lanes ≠ 0 → ∃ t, exec (.linkTrainingEnd n good) s = .next t ∧
      t.link n.val = { x with trained := true, lanes := lanes, failed := 15 - good.toNat } ∧
      t.outbox = .flit n.val (Flit.toBytes { kind := 2, modid := s.moduleId, link := n.val, ack := x.lastRx }) :: s.outbox ∧
      others t ∧ { t with spl := s.spl, outbox := s.outbox } = s) ∧
    (lanes = 0 → x.keeping = false → ∃ t, exec (.linkTrainingEnd n good) s = .next t ∧
      t.link n.val = { x with st := .down, failed := 15 - good.toNat, retryAt := s.now + wait } ∧
      others t ∧ { t with spl := s.spl } = s) ∧
    (lanes = 0 → x.keeping = true → x.held = [] → x.queue = [] → ∃ t, exec (.linkTrainingEnd n good) s = .next t ∧
      t.link n.val = { st := .down, failed := 15 - good.toNat, retryAt := s.now + wait, late := x.keepWhole } ∧
      t.rb peer 18 = false ∧ t.rb Reg.SPL_EVT 0 = true ∧ others t)) ∧
  (∀ good : BitVec 4, x.st = .training → x.trained = true → x.keeping = false → ∃ t, exec (.linkTrainingEnd n good) s = .next t ∧
    t.now = max s.now (x.began + 500000000) ∧
    t.link n.val = { x with st := .down, trained := false, retryAt := t.now + wait } ∧
    others t ∧ { t with spl := s.spl, now := s.now } = s) ∧
  (∀ flit : List Byte, x.st = .training → x.trained = true → flitGood flit = true → x.queue = [] →
    let st : LinkState := if x.lanes = 0xF then .up4 else .up2
    ∃ t, exec (.init n flit) s = .next t ∧ others t ∧ sameRegs [peer, Reg.SPL_EVT, bank Reg.SPL_REPLAYS n.val] s t ∧
      { t with spl := s.spl, regs := s.regs, setAt := s.setAt, outbox := s.outbox } = s ∧
      t.rg peer = BitVec.ofNat 32 ((flitOf flit).modid + 2 ^ 12 * (flitOf flit).link + 2 ^ 18) ∧
      (x.lanes ≠ 0xF → t.rb Reg.SPL_EVT 1 = true) ∧ (x.lanes = 0xF → t.rg Reg.SPL_EVT = s.rg Reg.SPL_EVT) ∧
      (x.keeping = false →
        t.link n.val = { x with st := st, txSeq := 0, rxSeq := 0, nakSent := false, replay := [], used := [], owed := [], resends := 0 } ∧
        t.outbox = .flit n.val (Flit.toBytes { kind := 0, ack := 4095 }) :: s.outbox) ∧
      (x.keeping = true → t.link n.val = { x with st := st, keeping := false, resends := 0, owed := [] } ∧
        t.outbox.length = s.outbox.length + x.replay.length + acks)) ∧
  (s.mustWait (portOf f) = false → isPf f = true → linkFitted s n.val = true →
    (x.up = false → x.keeping = false → ∃ t, exec (.linkDisable f n) s = .next t ∧ t.link n.val = { x with st := .disabled } ∧
      t.rb (bank Reg.SPL_LINKCTL n.val) 0 = true ∧ others t ∧ { t with spl := s.spl, regs := s.regs } = s) ∧
    (x.up = true → x.held = [] → x.queue = [] → ∃ t, exec (.linkDisable f n) s = .next t ∧
      t.link n.val = { st := .disabled, failed := x.failed, retryAt := s.now, late := x.keepWhole } ∧
      t.rb (bank Reg.SPL_LINKCTL n.val) 0 = true ∧ t.rb peer 18 = false ∧ t.rb Reg.SPL_EVT 0 = true ∧ others t)) ∧
  (s.mustWait (portOf f) = false → isPf f = true → x.up = true → ∃ t, exec (.linkRetrain f n) s = .next t ∧
    t.link n.val = { x with st := .training, trained := false, keeping := true, began := s.now, limit := 15 } ∧
    t.rb peer 18 = false ∧ others t ∧ sameRegs [peer] s t ∧ { t with spl := s.spl, regs := s.regs } = s) ∧
  (linkFitted s n.val = true → ∀ (lane : Fin 4) (symbols : Option (BitVec 32)),
    let failed := Nat.lor x.failed (2 ^ lane.val)
    let pair := lanesUp (15 - failed)
    let limit := s.rf Reg.SPL_CFG 31 16
    let count := match symbols with
      | some k => k.toNat
      | none => 0
    let counted := fun (t : State) => t.rg64 corr = (s.rg64 corr + count) % 2 ^ 64
    (∀ k, symbols = some k → k.toNat ≤ limit → ∃ t, exec (.splineLaneFail n lane symbols) s = .next t ∧ counted t ∧
      onlyRegs [corr, corr + 4] s t) ∧
    ((∀ k, symbols = some k → limit < k.toNat) →
      (x.st = .up4 → pair ≠ 0 → ∃ t, exec (.splineLaneFail n lane symbols) s = .next t ∧ counted t ∧
        t.link n.val = { x with st := .up2, lanes := pair, failed := failed } ∧
        t.rb Reg.SPL_EVT 1 = true ∧ others t ∧ sameRegs [Reg.SPL_EVT, corr, corr + 4] s t ∧
        { t with spl := s.spl, regs := s.regs, setAt := s.setAt } = s) ∧
      ((x.st = .up4 ∧ pair = 0 ∨ x.st = .up2 ∧ bitOf x.lanes lane.val = true) → x.held = [] → x.queue = [] →
        ∃ t, exec (.splineLaneFail n lane symbols) s = .next t ∧ counted t ∧ (t.link n.val).st = .down ∧
        t.rb peer 18 = false ∧ t.rb Reg.SPL_EVT 0 = true ∧ others t)))

/-- R339, R343, R344: a flit in sequence with a good CRC joins its receive buffer, moves the expected SEQ on and is
acknowledged, and the credits owed go back, at most 255 in a flit; a bad or unexpected one is discarded whole and answered by
one NAK, and one that FEC could not correct is counted; an ACK frees the flits up to its SEQ, and credits come back; a NAK,
which returns credits too, or 4 µs without an ACK send the rest again, and the link retrains after NAK_LIMIT resends. -/
def Obligations.SplineFlits : Prop := ∀ (n : Fin 64) (flit : List Byte) (s : State),
  let x := s.link n.val
  let f := flitOf flit
  let others := fun (t : State) => ∀ k, k ≠ n.val → t.link k = s.link k
  let used := mset x.used f.crvc (mget x.used f.crvc 0 - f.crcount) 0
  let acked := x.replay.findIdx? (fun e => e.seq == f.ack)
  let uncorr := bank Reg.SPL_FEC_UNCORR n.val
  let nak : Out := .flit n.val (Flit.toBytes { kind := 3, ack := x.lastRx })
  x.up = true → x.queue = [] →
  (flitGood flit = true → f.seq = x.rxSeq → acked = none → ∃ t, exec (.data n false flit) s = .next t ∧
    t.link n.val = { x.accept f with rxSeq := (x.rxSeq + 1) % 4096, nakSent := false, owed := [], used := used } ∧ others t ∧
    t.outbox.length = s.outbox.length + (let o := (x.accept f).owed; if o.isEmpty then 1 else (creditParts o).length) ∧
    { t with spl := s.spl, outbox := s.outbox } = s) ∧
  (∀ fecBad : Bool, (fecBad = true ∨ flitGood flit = false ∨ f.seq ≠ x.rxSeq) → ∃ t, exec (.data n fecBad flit) s = .next t ∧
    t.link n.val = { x with nakSent := true } ∧ t.outbox = (if x.nakSent then s.outbox else nak :: s.outbox) ∧
    t.rf uncorr 31 0 = (s.rf uncorr 31 0 + b2n fecBad) % 2 ^ 32 ∧
    others t ∧ sameRegs [uncorr] s t ∧ { t with spl := s.spl, outbox := s.outbox, regs := s.regs } = s) ∧
  (∀ i, flitGood flit = true → acked = some i → (∀ e ∈ x.held, commitOf e.1 e.2.2 = none) →
    ∃ t, exec (.idleFlit n flit) s = .next t ∧
    (t.link n.val).replay = x.replay.drop (i + 1) ∧ (t.link n.val).resends = 0 ∧ (t.link n.val).used = used ∧
    (t.link n.val).rxSeq = x.rxSeq ∧ others t ∧ { t with spl := s.spl } = s) ∧
  (∀ c, (c = .replayTimeout n ∨ (c = .nak n flit ∧ flitGood flit = true ∧ acked = none)) → x.replay ≠ [] →
    let limit := max 1 (s.rf Reg.SPL_CFG 3 0)
    let y := { x with resends := x.resends + 1, used := if c = .replayTimeout n then x.used else used }
    ∃ t, exec c s = .next t ∧
      t.link n.val = (if limit ≤ x.resends + 1 then
        { y with st := .training, trained := false, keeping := true, began := s.now, limit := if x.st = .up2 then x.lanes else 15 }
        else y) ∧
      t.rf (bank Reg.SPL_REPLAYS n.val) 31 0 = (s.rf (bank Reg.SPL_REPLAYS n.val) 31 0 + x.replay.length) % 2 ^ 32 ∧
      t.outbox.length = s.outbox.length + x.replay.length ∧ others t)

/-- R344, R346: a message of one flit handed to a link in service with nothing before it leaves when its channel has credit and the
replay buffer room: SEQ goes on, the flit stays until it is acknowledged, and the message is held with it. -/
def messageLeaves (s : State) (k kind : Nat) (r : Msg) : Prop :=
  let z := s.link k
  z.up = true → z.queue = [] → msgBytes r ≤ 244 → mget z.used (vcOf kind) 0 < vcBuf (vcOf kind) → z.replay.length < 2048 →
  (s.post k kind r).outbox = .flit k (Flit.toBytes
    { kind := 1, vc := vcOf kind, seq := z.txSeq % 4096, ack := z.lastRx, first := 0, body := r.toBytes kind }) :: s.outbox ∧
  (s.post k kind r).link k = { z with
    txSeq := (z.txSeq + 1) % 4096, used := mset z.used (vcOf kind) (mget z.used (vcOf kind) 0 + 1) 0,
    replay := z.replay ++ [⟨z.txSeq % 4096, vcOf kind, 0, r.toBytes kind⟩], held := z.held ++ [(kind, z.txSeq % 4096, r)] }

/-- R344, R346 to R351, R353, R356, R359: the oldest message of a virtual channel is taken; a request for this module is
performed through its exposure and answered; a message for another module goes on with one hop less; a TICKMARK adds 1 to its
word; a READ_RESP completes the request it names, by the epoch it was sent in or the current one (DEDUCED, log entry 17), one
that a reset of its partition came after is discarded and counted (R464), and a request without an answer fails, E_TIMEOUT. -/
def Obligations.SplineMessages : Prop := ∀ (n : Fin 64) (m : Msg) (s : State),
  let d := n.val / 16
  let ag : Agent := .remote (Fin.ofNat 4 d)
  let p := some m.part.val
  let arg := m.arg.toNat
  let taken := fun (kind : Nat) (y : SLink) => (s.link n.val).next (vcOf kind) = some (kind, m, y)
  let after := fun (kind : Nat) (y : SLink) =>
    ((({ s.splineUrge n.val (vcOf kind) with lin := s.lin.calm } : State).linkSet n.val y).sendAck n.val).rAdd64
      (bank Reg.SPL_RXBYTES n.val) (msgBytes m)
  let here := m.dst.toNat = s.moduleId ∧ s.moduleId ≠ 0xFFF
  let posted := fun (w t : State) (k kind : Nat) (r : Msg) =>
    t.outbox = (w.post k kind r).outbox ∧ t.link k = (w.post k kind r).link k
  let answered := fun (w t : State) (code : Nat) (data : List Byte) =>
    let data := if code = 0 then data else []
    w.lin.stuck = none → t.hbm = w.hbm ∧ t.lin = w.lin ∧
    (∀ k, w.exits none m.src.toNat = [k] → k / 16 = d → w.brup.outDies = [] →
      ∃ r, posted w t k 3 r ∧ r.dst = m.src ∧ r.tag = m.tag ∧
        r.epoch = m.epoch ∧ r.srcPart = m.srcPart ∧ r.arg = BitVec.ofNat 64 code ∧ r.payload = data)
  let opened := fun (kind : Nat) (y : SLink) (a : Nat) =>
    let q := requestSpan kind m
    taken kind y ∧ here ∧ (after kind y).exposed m q.2 q.1 = (0, a)
  (∀ k kind r, messageLeaves s k kind r) ∧
  (∀ y a, opened 1 y a → let r := (after 1 y).memWrite ag p a m.payload .clean
    r.2.lin.stuck = none → ∃ t, exec (.write n) s = .next t ∧ answered r.2 t r.1 []) ∧
  (∀ y a, opened 2 y a → let r := (after 2 y).memRead ag p a (arg % 1024) .clean
    r.2.2.lin.stuck = none → ∃ t, exec (.read n) s = .next t ∧ answered r.2.2 t r.1 r.2.1) ∧
  (∀ y a, opened 4 y a → bitOf arg 7 = false → let r := (after 4 y).memReduce ag p a (arg % 16) m.payload .clean
    r.2.lin.stuck = none → ∃ t, exec (.reduce n) s = .next t ∧ answered r.2 t r.1 []) ∧
  (∀ y a, opened 5 y a → a % 8 = 0 → let r := (after 5 y).memUpdate ag p a 8 (fun bs => leBytes (leNat bs + arg) 8) .clean
    r.2.2.lin.stuck = none → ∃ t, exec (.signalMessage n) s = .next t ∧ answered r.2.2 t r.1 []) ∧
  (∀ kind c y code a, (kind, c) ∈ [(1, Instr.write n), (2, .read n), (4, .reduce n), (5, .signalMessage n)] → taken kind y → here →
    (after kind y).exposed m (requestSpan kind m).2 (requestSpan kind m).1 = (code, a) → code ≠ 0 →
    ∃ t, exec c s = .next t ∧ answered (after kind y) t code []) ∧
  (∀ y a, taken 6 y → here → (after 6 y).exposed m 4 8 = (0, a) → a % 8 = 0 →
    let r := (after 6 y).memUpdate ag p a 8 (fun bs => leBytes (leNat bs + 1) 8) .clean
    r.1 = 0 → r.2.2.lin.stuck = none →
    ∃ t, exec (.tickmark n) s = .next t ∧ t.hbm = r.2.2.hbm ∧ t.lin = r.2.2.lin ∧ t.outbox = r.2.2.outbox ∧
      t.rf (Reg.SPL_TMARK + 4 * m.part.val) 31 0 = (r.2.2.rf (Reg.SPL_TMARK + 4 * m.part.val) 31 0 + 1) % 2 ^ 32) ∧
  (∀ kind c y k, (kind, c) ∈ [(1, Instr.write n), (2, .read n), (3, .readResp n), (4, .reduce n), (5, .signalMessage n),
      (6, .tickmark n)] → let w := after kind y
    taken kind y → m.dst.toNat ≠ s.moduleId → m.hops ≠ 0 → w.exits none m.dst.toNat = [k] → k / 16 = d →
    s.brup.outDies = [] →
    ∃ t, exec c s = .next t ∧ posted w t k kind { m with hops := m.hops - 1 } ∧ t.hbm = s.hbm ∧ t.lin = s.lin.calm ∧
      t.spl.out = s.spl.out ∧ t.rf Reg.SPL_FORWARDED 31 0 = (s.rf Reg.SPL_FORWARDED 31 0 + 1) % 2 ^ 32) ∧
  (∀ y, let key := m.tag.toNat
   let stale := s.stalePart m.srcPart.val m
   taken 3 y → here → ((mfind s.spl.out key = none ∨ stale = true) → ∃ t, exec (.readResp n) s = .next t ∧ t.spl.out = s.spl.out ∧ t.hbm = s.hbm ∧
      t.lin = s.lin.calm ∧ t.groups = s.groups ∧ t.jig = s.jig ∧ t.host = s.host ∧
      t.rf Reg.SPL_DISCARDS 31 0 = (s.rf Reg.SPL_DISCARDS 31 0 + 1) % 2 ^ 32 ∧
      t.rf Reg.BRUP_DISCARDS 31 0 = (s.rf Reg.BRUP_DISCARDS 31 0 + b2n stale) % 2 ^ 32) ∧
    (∀ e (port : Fin 2) q a k, stale = false → mfind s.spl.out key = some e → e.owner = .host port →
      (e.epoch = m.epoch.toNat ∨ e.first = m.epoch.toNat) → e.part = m.srcPart.val →
      (s.port port.val).ops = [q] → q.remote = some key → q.write = false → q.poison = false → q.todo = [(a, k, [])] →
      arg % 2 ^ 16 = 0 → s.agentDie (.host port) = 6 + key / 4096 → s.brup.outDies = [] → s.isFar key = false →
      ∃ t, exec (.readResp n) s = .next t ∧ mhas t.spl.out key = false ∧ (t.port port.val).ops = [] ∧
        t.outbox = .completion q.fn .ok 0 (q.got ++ (m.payload.drop q.skip).take k) :: (after 3 y).outbox ∧
        t.hbm = s.hbm ∧ t.lin = s.lin.calm)) ∧
  (∀ (die : Fin 4) (entry : Fin 4096) e (port : Fin 2) q a k, let key := 4096 * die.val + entry.val
    mfind s.spl.out key = some e → e.owner = .host port → (s.port port.val).ops = [q] → q.remote = some key → q.write = false →
    q.poison = false → q.todo = [(a, k, [])] → s.agentDie (.host port) = 6 + die.val → s.brup.outDies = [] → s.isFar key = false →
    ∃ t, exec (.reqTimeout die entry) s = .next t ∧ mhas t.spl.out key = false ∧
      t.now = max s.now (e.sent + 1000 * s.ptn.running.reqTimeout) ∧ (t.port port.val).ops = [] ∧
      t.outbox = .completion q.fn .abort eTimeout [] :: s.outbox ∧
      t.rf Reg.SPL_TIMEOUTS 31 0 = (s.rf Reg.SPL_TIMEOUTS 31 0 + 1) % 2 ^ 32)

/-! ## Host ports -/

/-- R365, R368, R369, R371: a BAR2 request passes through the aperture and reads or writes memory with the urgency of its port's
buffer; one beyond the BAR is unsupported, one without the grant aborts with E_PERM, and a read that has not completed 30 ms
after it arrived aborts with E_TIMEOUT, one that waits behind others too. R370, R372: an access of a function waits behind those
of its port that were put off, and one to BAR0 or BAR4 behind posted writes of BAR2. -/
def Obligations.HostAperture : Prop := ∀ (f : Func) (off : BitVec 40) (s : State),
  let n := fnIx f
  let port := portOf f
  let a := (s.fn f).apbase + off.toNat
  let ag := hostAgent port
  let arrived := (s.port port).arrived.getD s.now
  let begun := fun (write : Bool) (p : Option Nat) (todo : List (Nat × Nat × List Byte)) =>
    ((s.answer {}).portOps port [{ fn := n, part := p, write := write, todo := todo, since := arrived }]).urge (masterId ag)
      (fillUrgency 1 Config.hostBuffer)
  let aborts := fun (t : State) (kind : CplKind) (code : Nat) => t.outbox = .completion n kind code [] :: s.outbox ∧
    t.reply = { kind := kind, code := code } ∧ t.hbm = s.hbm ∧ t.lin = s.lin
  let first := (s.port port).later = []
  (first → s.speaks f = true → off.toNat < 2 ^ (s.fn f).bar2Log → (s.port port).ops = [] → isRemote a = false →
    (∀ len p, let r := (begun false p [(a, len, [])]).memRead ag p a len .clean
      s.bar2Part f = some p → 0 < len → a % 128 + len ≤ 128 → (begun false p [(a, len, [])]).memWaits ag p a len .read .clean = false →
      r.1 = 0 →
      ∃ t, exec (.bar2Read f off len) s = .next t ∧ t.outbox = .completion n .ok 0 r.2.1 :: r.2.2.outbox ∧
        t.reply = { data := r.2.1 } ∧ (t.port port).ops = [] ∧ t.hbm = r.2.2.hbm ∧ t.lin = r.2.2.lin) ∧
    (∀ bytes p, let r := (begun true p [(a, bytes.length, bytes)]).memWrite ag p a bytes .clean
      s.bar2Part f = some p → bytes ≠ [] → a % 128 + bytes.length ≤ 128 →
      (begun true p [(a, bytes.length, bytes)]).memWaits ag p a bytes.length .write .clean = false → r.1 = 0 →
      ∃ t, exec (.bar2Write f off bytes (List.replicate bytes.length true)) s = .next t ∧ t.outbox = r.2.outbox ∧
        (t.port port).ops = [] ∧ t.hbm = r.2.hbm ∧ t.lin = r.2.lin)) ∧
  (first → ∀ len, (s.speaks f = false ∨ 2 ^ (s.fn f).bar2Log ≤ off.toNat) →
    ∃ t, exec (.bar2Read f off len) s = .next t ∧ aborts t .unsupported 0) ∧
  (first → ∀ len, s.speaks f = true → off.toNat < 2 ^ (s.fn f).bar2Log → s.bar2Part f = none →
    ∃ t, exec (.bar2Read f off len) s = .next t ∧ aborts t .abort ePerm) ∧
  (∀ c, accessOf c = some f → (¬ first ∨
      (s.mustWait port = true ∧ (∀ o k, c ≠ .bar2Read f o k) ∧ ∀ o b e, c ≠ .bar2Write f o b e)) →
    ∃ t, exec c s = .next t ∧ t.port port = { s.port port with later := (s.port port).later ++ [(s.now, c)] } ∧
      t.port (1 - port) = s.port (1 - port) ∧ { t with host := s.host, reply := s.reply } = s) ∧
  (let out := fun (t : State) => t.outbox = .completion n .abort eTimeout [] :: s.outbox ∧
     t.reply = { kind := .abort, code := eTimeout } ∧ t.hbm = s.hbm ∧ { t.lin with tickets := s.lin.tickets } = s.lin
   (∀ q, (s.port port).ops = [q] → q.fn = n → q.write = false →
    ∃ t, exec (.bar2ReadTimeout f) s = .next t ∧ out t ∧ (t.port port).ops = [] ∧ (t.port port).later = (s.port port).later ∧
      t.now = max s.now (q.since + 30000000)) ∧
   (∀ t0 o k rest, (∀ q ∈ (s.port port).ops, q.fn = n → q.write = true) → (s.port port).later = (t0, .bar2Read f o k) :: rest →
    ∃ t, exec (.bar2ReadTimeout f) s = .next t ∧ out t ∧ (t.port port).ops = (s.port port).ops ∧ (t.port port).later = rest ∧
      t.now = max s.now (t0 + 30000000))) ∧
  (∀ v : BitVec 48, s.mustWait port = false → let x := s.fn f
    (s.speaks f = true → ∃ t, exec (.apbaseWrite f v) s = .next t ∧
      t.fn f = { x with apbase := v.toNat / 2 ^ x.bar2Log * 2 ^ x.bar2Log } ∧ (∀ g, g ≠ f → t.fn g = s.fn g) ∧
      { t with host := s.host } = s) ∧
    (s.speaks f = false → exec (.apbaseWrite f v) s = .next s))

/-- R61, R363, R365, R366, R370, R372 to R375: BAR4 reads return the area's bytes, or zero through a VF whose partition is not
enabled; BAR4 writes reach the admission tail and the slate only, behind the posted writes of BAR2 on their port; a port reset takes
its 17 functions to their reset values and the link to training, an FLR leaves the link, a VF's FLR resets only that VF; the link
comes up, or is DOWN without Flit Mode; a configuration write sets what it carries; a DOE request is taken, discovery is answered
(its layout is the model's presumption, log entry 13), and one longer than 64 KiB aborts (the model's choice there). -/
def Obligations.HostFunctions : Prop := ∀ (f : Func) (port : Fin 2) (s : State),
  let quiet := fun (p : Nat) (t : State) =>
    t.lin = { s.lin with tickets := s.lin.tickets.filter (fun k => !decide (k.ask.agent = hostAgent p)) }
  (∀ off n i : Nat, i < n → (s.bar4Read f off n)[i]? = some (match vfPart f with
    | none => if off + i < 2 ^ 24 then mget s.bar4 (off + i) 0 else 0
    | some k => if s.speaks f = true ∧ off + i < 2 ^ 20 then mget s.bar4 (2 ^ 20 * k.val + off + i) 0 else 0)) ∧
  (∀ (off : BitVec 24) (bytes : List Byte), s.mustWait (portOf f) = true →
    let x := s.port (portOf f)
    ∃ t, exec (.bar4Write f off bytes) s = .next t ∧
      t.port (portOf f) = { x with later := x.later ++ [(s.now, .bar4Write f off bytes)] } ∧
      { t with host := s.host, reply := s.reply } = s) ∧
  (∀ (off : BitVec 24) (bytes : List Byte), s.speaks f = true → s.mustWait (portOf f) = false →
    let base := match vfPart f with
      | none => 0
      | some k => 2 ^ 20 * k.val
    let lim := if isPf f then 2 ^ 24 else 2 ^ 20
    ∃ t, exec (.bar4Write f off bytes) s = .next t ∧ { t with bar4 := s.bar4 } = s ∧
      ∀ a, mget t.bar4 a 0 =
        if base + off.toNat ≤ a ∧ a < base + off.toNat + bytes.length ∧ a < base + lim ∧ bar4Writable (a % 2 ^ 20) = true
        then bytes.getD (a - (base + off.toNat)) 0 else mget s.bar4 a 0) ∧
  (∀ flr : Bool, let x := s.port port.val
    ∃ t, exec (.portReset port flr) s = .next t ∧
      t.port port.val = (if flr then { st := x.st, speed := x.speed, width := x.width } else { st := .training }) ∧
      t.port (1 - port.val) = s.port (1 - port.val) ∧
      (∀ i, mget t.host.fns i {} = if i / 17 = port.val then {} else mget s.host.fns i {}) ∧ quiet port.val t ∧
      { t with host := s.host, latches := s.latches, heldWrites := s.heldWrites, irq := s.irq, lin := s.lin } = s) ∧
  (∀ k : Fin 16, let i := 17 * port.val + 1 + k.val
    ∃ t, exec (.vfFlr port k) s = .next t ∧ (∀ j, mget t.host.fns j {} = if j = i then {} else mget s.host.fns j {}) ∧
      t.port port.val = { s.port port.val with
        ops := (s.port port.val).ops.filter (fun q => q.fn != i), later := (s.port port.val).later.filter (fun e => !cmdOf i e.2) } ∧
      t.port (1 - port.val) = s.port (1 - port.val) ∧ quiet port.val t ∧
      { t with host := s.host, latches := s.latches, heldWrites := s.heldWrites, irq := s.irq, lin := s.lin } = s) ∧
  (∀ (flit : Bool) (speed width : Fin 3), (s.port port.val).st ≠ .up → let x := s.port port.val
    ∃ t, exec (.hostPortLinkUp port flit speed width) s = .next t ∧
    t.port port.val = (if flit then { x with st := .up, speed := speed.val, width := 2 ^ width.val } else { x with st := .down }) ∧
    t.port (1 - port.val) = s.port (1 - port.val) ∧ { t with host := s.host } = s) ∧
  (∀ w : CfgWrite, s.mustWait (portOf f) = false → let x := s.fn f
    let log := 28 + w.bar2Log.val
    let y : Fn := { x with
      msix := w.msixEnable, fmask := w.fmask, d3 := w.d3, bar2Log := if log ≤ (if isPf f then 40 else 36) then log else x.bar2Log,
      bars := mset (mset (mset x.bars 0 w.bar0.toNat 0) 2 w.bar2.toNat 0) 4 w.bar4.toNat 0 }
    (isPf f = true → ((s.port (portOf f)).vfEnable = true → w.vfEnable = true) →
      ∃ t, exec (.configurationWrite f w) s = .next t ∧ t.fn f = y ∧ (∀ g, g ≠ f → t.fn g = s.fn g) ∧
        t.port (portOf f) = { s.port (portOf f) with vfEnable := w.vfEnable, numVfs := w.numVfs.val } ∧
        { t with host := s.host } = s) ∧
    (isPf f = false → (∀ v, s.host.pba.contains (64 * fnIx f + v) = false) →
      ∃ t, exec (.configurationWrite f w) s = .next t ∧ t.fn f = y ∧ (∀ g, g ≠ f → t.fn g = s.fn g) ∧
        (∀ p, t.port p = s.port p) ∧ { t with host := s.host } = s)) ∧
  (∀ (vendor : BitVec 16) (kind : BitVec 8) (object : List Byte), s.mustWait (portOf f) = false → let d := doeDiscovery (object.headD 0).toNat
    let known := vendor = 1 ∧ kind = 0
    (object.length ≤ 65536 → known → ∃ t, exec (.doeRequest f vendor kind object) s = .next t ∧ t.outbox = .doe f d :: s.outbox ∧
      t.reply = { data := d } ∧ { t with outbox := s.outbox, reply := s.reply } = s) ∧
    (object.length ≤ 65536 → ¬ known → ∃ t, exec (.doeRequest f vendor kind object) s = .next t ∧ t.reply = {} ∧
      { t with reply := s.reply } = s) ∧
    (65536 < object.length → ∃ t, exec (.doeRequest f vendor kind object) s = .next t ∧ t.reply.kind = .abort ∧
      { t with reply := s.reply } = s))

/-! ## The tick bus, pins, management and attestation -/

/-- R377 to R381: a cycle of good parity is answered from the state at its edge and acted upon; one of wrong parity is counted and
answered as IDLE; a module that is not enabled on the bus, or whose clock is lost, releases the lines and does not act, and
the edge of a cycle clears CLK_LOST. -/
def Obligations.TickBusCycles : Prop := ∀ (arg : BitVec 8) (others : Bool) (s : State),
  let v := arg.toNat
  let mine := v % 16 = s.fuses.slot
  let lines := fun (rsp : Bool) (t : State) =>
    t.pins.rdyLow = (!s.tick.en || (List.range 16).any (fun p => s.rb Reg.TICK_TB_CFG p && (s.part p).running)) ∧
    t.pins.ovrLow = (List.range 16).any (fun p => s.rb Reg.TICK_TB_CFG (16 + p) && (s.part p).late) ∧ t.pins.rspLow = rsp
  let cycles := fun (ok : Bool) => [Instr.tbIdle arg ok, .tbTick arg ok, .tbPoll arg ok, .tbReservedCycle arg ok,
    .tbQuery arg ok others, .tbTakeover arg ok, .tbHalt arg ok]
  (s.onBus = false → ∀ ok c, c ∈ cycles ok → ∃ t, exec c s = .next t ∧ t.pins.rdyLow = false ∧ t.pins.ovrLow = false ∧
    t.pins.rspLow = false ∧ t.rb Reg.TICK_TB_STAT 4 = false ∧ sameRegs [Reg.TICK_TB_STAT] s t ∧
    (s.rb Reg.TICK_TB_STAT 4 = false → t.regs = s.regs) ∧ { t with pins := s.pins, regs := s.regs } = s) ∧
  (s.onBus = true →
    (∀ c, c ∈ cycles false → ∃ t, exec c s = .next t ∧ lines false t ∧ t.rb Reg.TICK_TB_EVT 2 = true ∧
      t.rf Reg.TICK_TB_STAT 19 8 = (s.rf Reg.TICK_TB_STAT 19 8 + 1) % 2 ^ 12 ∧
      sameRegs [Reg.TICK_TB_STAT, Reg.TICK_TB_EVT] s t ∧ { t with pins := s.pins, regs := s.regs, setAt := s.setAt } = s) ∧
    (∀ c, c ∈ [Instr.tbIdle arg true, .tbPoll arg true] → ∃ t, exec c s = .next t ∧ lines false t ∧ { t with pins := s.pins } = s) ∧
    (s.ptn.running.syncSrc ≠ 2 → ∃ t, exec (.tbTick arg true) s = .next t ∧ lines false t ∧ { t with pins := s.pins } = s) ∧
    (s.ptn.running.syncSrc = 2 → ∃ t, exec (.tbTick arg true) s = .next t ∧ lines false t ∧ t.tick.lastEdge = some s.now) ∧
    (∃ t, exec (.tbReservedCycle arg true) s = .next t ∧ lines false t ∧
      t.rf Reg.TICK_TB_STAT 31 20 = (s.rf Reg.TICK_TB_STAT 31 20 + 1) % 2 ^ 12 ∧ sameRegs [Reg.TICK_TB_STAT] s t) ∧
    (let own := s.mySlot arg && s.item (v / 32)
     ∃ t, exec (.tbQuery arg true others) s = .next t ∧ lines own t ∧
       (v / 32 = 0 → t.rb Reg.TICK_TB_SEEN (v % 16) = (others || own) ∧
         (v % 16 = s.rf Reg.PAIR_CFG 7 4 → t.pair.slotSeen = (others || own) ∧
           t.pair.lost = (s.pair.lost || (!(others || own) && decide (1 ≤ s.pair.missed))))) ∧
       (v / 32 ≠ 0 → { t with pins := s.pins } = s)) ∧
    (∃ t, exec (.tbTakeover arg true) s = .next t ∧ lines false t ∧ (mine → t.rb Reg.TICK_TB_EVT 0 = true ∧ t.pair.ownNamed = true) ∧
      (v % 16 = s.rf Reg.PAIR_CFG 7 4 → t.pair.peerNamed = true) ∧ (¬mine → t.regs = s.regs)) ∧
    ((bitOf v 4 = true ∨ mine) → ∃ t, exec (.tbHalt arg true) s = .next t ∧ lines false t ∧ t.tick.halted = bitOf v 5 ∧
      (s.tick.halted ≠ bitOf v 5 → t.rb Reg.TICK_TB_EVT 1 = true) ∧ t.parts = s.parts)) ∧
  (s.rb Reg.TICK_TB_STAT 4 = false → ∃ t, exec .tbClkLost s = .next t ∧ t.rb Reg.TICK_TB_STAT 4 = true ∧
    t.rb Reg.TICK_TB_EVT 3 = true ∧ t.pins.rdyLow = false ∧ t.pins.ovrLow = false ∧ t.pins.rspLow = false ∧
    sameRegs [Reg.TICK_TB_STAT, Reg.TICK_TB_EVT] s t) ∧
  (∃ t, exec .tbClkResume s = .next t ∧ t.rb Reg.TICK_TB_STAT 4 = false ∧
    (s.rb Reg.TICK_TB_STAT 4 = true → t.pins.rdyLow = false ∧ t.pins.ovrLow = false ∧ t.pins.rspLow = false) ∧ sameRegs [Reg.TICK_TB_STAT] s t ∧
    { t with pins := s.pins, regs := s.regs } = s)

/-- R385 to R387: the management target takes an I3C address in place of 0x30 + MGMT_ADDR, with it an endpoint ID, and an event
receiver, and its endpoint ID in either mode; a sensor reads its register or state, POWER_LIMIT reads the limit set, and every
sensor that can be read has a record in the PDR repository; POWER_LIMIT takes 1,200 to 3,000 W and refuses the rest with
ERROR_INVALID_DATA (sensor and effecter numbers and code 0x80 are the model's, log entry 11). -/
def Obligations.ManagementTarget : Prop := ∀ (s : State),
  let read := fun (q : PldmGet) (r : Reply) => ∃ t, exec (.pldmSensorRead q) s = .next t ∧ t.reply = r ∧ t.pins.alert = false ∧
    { t with reply := s.reply, free := s.free, pins := s.pins } = s
  (∀ (a : BitVec 7) (eid : Option (BitVec 8)), ∃ t, exec (.i3cDynamicAddress a eid) s = .next t ∧ t.mgmtAddress = a.toNat ∧
    t.mgmt = { s.mgmt with i3c := some a.toNat, eid := (eid.map (·.toNat)).or s.mgmt.eid } ∧
    t.pins = { s.pins with alert := false } ∧ { t with mgmt := s.mgmt, pins := s.pins } = s) ∧
  (∀ eid : BitVec 8, ∃ t, exec (.pldmSensorRead (.setEid eid)) s = .next t ∧ t.mgmt = { s.mgmt with eid := some eid.toNat } ∧
    t.reply = { value := eid.toNat } ∧ { t with mgmt := s.mgmt, reply := s.reply, free := s.free, pins := s.pins } = s) ∧
  (∃ t, exec .rstdaa s = .next t ∧ t.mgmt = { s.mgmt with i3c := none } ∧ t.mgmtAddress = 0x30 + s.fuses.mgmtAddr % 4 ∧
    { t with mgmt := s.mgmt } = s) ∧
  (∀ eid : BitVec 8, ∃ t, exec (.setEventReceiver eid) s = .next t ∧ t.mgmt = { s.mgmt with receiver := some eid.toNat } ∧
    t.reply = {} ∧ { t with mgmt := s.mgmt, reply := s.reply } = s) ∧
  read (.sensor 66) { value := s.rf Reg.PWR_POWER 11 0 } ∧ read (.sensor 67) { value := s.rf Reg.PWR_EFFECTIVE 11 0 } ∧
  (∀ id, id < 22 → s.dieFitted id = true → read (.sensor id) { value := ((s.die id).govern % 65536).toNat }) ∧
  (∀ k, k < 64 → linkFitted s k = true → read (.sensor (128 + k)) { value := linkCode (s.link k).st }) ∧
  (∀ id, s.sensorValue id = none → read (.sensor id) { code := 0x80 }) ∧
  read (.effecter 1) { value := s.mgmt.limit } ∧
  (∀ i x, s.pdrs[i]? = some x → read (.pdr i) { value := x.id, data := x.toBytes }) ∧
  (∀ id, (s.sensorValue id).isSome = true ↔ ∃ x ∈ s.pdrs, x.id = id ∧ (x.kind = .numericSensor ∨ x.kind = .stateSensor)) ∧
  (∃ x ∈ s.pdrs, x.id = 1 ∧ x.kind = .numericEffecter 1200 3000 1) ∧
  (∀ watts, (1200 ≤ watts → watts ≤ 3000 → ∃ t, exec (.setNumericEffecterValue 1 watts) s = .next t ∧ t.mgmt.limit = watts ∧
      t.reply = {} ∧ t.pins = s.pins ∧ t.hbm = s.hbm ∧ t.ptn = s.ptn) ∧
    ((watts < 1200 ∨ 3000 < watts) → ∃ t, exec (.setNumericEffecterValue 1 watts) s = .next t ∧ t.reply = { code := 2 } ∧
      { t with reply := s.reply } = s))

/-- R374, R456 to R458: the SPDM exchange goes through version, capabilities and algorithms in order; digests, certificates,
challenges, measurements and signatures are answered after it, each message as its transport carries it; out of order or for
another slot an ERROR answers. A signature is over all that was exchanged before it, the request and the response. A tenant's
virtual function receives the measurement of its own partition only. The layout of messages and the part of a transcript that a
signature covers are the model's presumption (PRESUMED, log entry 35); keys, certificates and nonces are free. -/
def Obligations.Attestation : Prop := ∀ (tr : Transport) (slot index op : BitVec 8) (nonce : BitVec 256) (off : BitVec 32)
    (signed a b : Bool) (o len : Nat) (s : State), s.esc.boot = 0 →
  let x := s.spdm tr
  let to_ := match tr with
    | .doe f => some f
    | .mctp => none
  let sends := fun (c : Instr) (m : List Byte) (y : Spdm) =>
    ∃ t, exec c s = .next t ∧ t.outbox = .spdm to_ (spdmWire tr m) :: s.outbox ∧ t.spdm tr = y ∧
      (∀ q, q ≠ tr → t.spdm q = s.spdm q) ∧ { t with outbox := s.outbox, esc := s.esc, free := s.free } = s ∧
      { t.esc with spdm := s.esc.spdm } = s.esc
  let fails := fun (c : Instr) (code : Nat) => sends c (errorMsg code) x
  let opens := fun (c : Instr) (req resp : List Byte) (n : Nat) =>
    sends c resp { x with stage := max n x.stage, opening := x.opening ++ (req ++ resp) }
  let certs := fun (c : Instr) (req resp : List Byte) => sends c resp { x with certs := x.certs ++ (req ++ resp) }
  let chain := Config.certChain true
  let fresh := leBytes (Config.freeValue s.free) 32
  let ask := leBytes nonce.toNat 32
  let i := index.toNat
  let seen := measureSeen tr
  (let hello : List Byte := [0x10, 0x04, 0, 0, 0, 1, 0x00, 0x13]
   sends (.getVersion tr) hello { signed := x.signed, stage := 1, opening := [0x10, 0x84, 0, 0] ++ hello }) ∧
  (1 ≤ x.stage → ∃ body : List Byte, body.length = 16 ∧ (body.drop 4).take 4 = leBytes 0x16 4 ∧
    opens (.getCapabilities tr) (spdmMsg 0xE1 0 0 []) (spdmMsg 0x61 0 0 body) 2) ∧
  (2 ≤ x.stage →
    opens (.negotiateAlgorithms tr true true) (spdmMsg 0xE3 0 0 [])
      (spdmMsg 0x63 0 0 (leBytes 36 2 ++ [1, 0] ++ leBytes 4 4 ++ leBytes 8 4 ++ leBytes 2 4 ++ List.replicate 16 0)) 3 ∧
    ((a && b) = false → fails (.negotiateAlgorithms tr a b) 1)) ∧
  (3 ≤ x.stage →
    certs (.getDigests tr) (spdmMsg 0x81 0 0 []) (spdmMsg 0x01 1 1 (sha384.hash chain)) ∧
    (let part := (chain.drop o).take (min len 0xFFFF)
     certs (.getCertificate tr 0 o len) (spdmMsg 0x82 0 0 (leBytes o 2 ++ leBytes len 2))
       (spdmMsg 0x02 0 0 (leBytes part.length 2 ++ leBytes (chain.length - o - part.length) 2 ++ part))) ∧
    (slot ≠ 0 → fails (.getCertificate tr slot o len) 1 ∧ fails (.challenge tr slot nonce) 1) ∧
    (let req := spdmMsg 0x83 0 0 ask
     let resp := spdmMsg 0x03 0 1 (sha384.hash chain ++ fresh ++ [0, 0])
     let h := shaNum (x.opening ++ x.certs ++ req ++ resp)
     sends (.challenge tr 0 nonce) (resp ++ leBytes (Config.identity 1 h) 384) { x with certs := [], signed := some h }) ∧
    (let resp := if i = 0 then s.measureMsg seen.length [] else if i = 255 then s.measureMsg 0 seen else s.measureMsg 0 [i]
     let plain := spdmMsg 0xE0 0 i []
     let req := spdmMsg 0xE0 1 i (ask ++ [0])
     let h := shaNum (x.opening ++ x.measures ++ req ++ resp)
     (i = 0 ∨ i = 255 ∨ i ∈ seen) →
       sends (.getMeasurements tr index false nonce) resp { x with measures := x.measures ++ (plain ++ resp) } ∧
       sends (.getMeasurements tr index true nonce) (resp ++ leBytes (Config.identity 1 h) 384)
         { x with measures := [], signed := some h }) ∧
    (i ≠ 0 → i ≠ 255 → i ∉ seen → fails (.getMeasurements tr index signed nonce) 1)) ∧
  (x.stage < 3 → ∀ c, c ∈ [Instr.getDigests tr, .getCertificate tr slot o len, .challenge tr slot nonce,
    .getMeasurements tr index signed nonce] → fails c 4) ∧
  (∀ hash, x.signed = some hash →
    sends (.vendorDefinedRequest tr true true 1 off) (vendorMsg (leBytes (Config.identity 4 hash) 35664)) x ∧
    (∃ n, sends (.vendorDefinedRequest tr true true 2 off) (vendorMsg (((Config.certChain false).drop off.toNat).take n)) x)) ∧
  ((x.signed = none ∨ (a && b) = false ∨ 3 ≤ op.toNat ∨ op = 0) → fails (.vendorDefinedRequest tr a b op off) 1) ∧
  (∀ f m, (spdmWire (.doe f) m).length ≤ 2 ^ 18)

/-! ## Power -/

/-- R383, R387, R391, R393, R394, R396, R402, Table 17.1: the least of the limits is in force; the fault pin and J1 out of range
hold 1,200 W while they last; the thermal pin sets its LEVEL; a level shorter than its filter does nothing (R439); J1 lost or a
rail below its reset level resets the module; a measurement shows the millisecond and moves the traffic level or the cores'
clocks towards the limit. -/
def Obligations.PowerLimits : Prop := ∀ (f : Func) (s : State),
  let least := fun (t : State) (held : Bool) =>
    t.rf Reg.PWR_EFFECTIVE 11 0 = (let m := min (t.rf Reg.PWR_LIMIT 11 0) t.mgmt.limit
      if held = true ∧ 1200 < m then 1200 else m)
  (∀ v : Word, s.mustWait (portOf f) = false → isPf f = true → ∃ t, exec (.pwrLimitWrite f v) s = .next t ∧
    t.rf Reg.PWR_LIMIT 11 0 = max 1200 (min 3000 (v.toNat % 4096)) ∧ least t (s.pwr.faultHold || s.pwr.rangeHold) ∧
    onlyRegs [Reg.PWR_LIMIT, Reg.PWR_EFFECTIVE, Reg.PWR_STATUS] s t) ∧
  (∃ t, exec .stageTwoStart s = .next t ∧ t.pwr = { s.pwr with stageTwo := true } ∧ { t with pwr := s.pwr } = s) ∧
  (s.pwr.rangeHold = false → ∃ t, exec .inputUnderrange s = .next t ∧ t.pwr = { s.pwr with rangeHold := true } ∧ least t true ∧
    t.rb Reg.PWR_STATUS 2 = true ∧ t.rb Reg.PWR_EVT 5 = true) ∧
  (∃ t, exec .inputRangeRelease s = .next t ∧ t.pwr = { s.pwr with rangeHold := false } ∧ t.rb Reg.PWR_STATUS 2 = false ∧
    sameRegs [Reg.PWR_EFFECTIVE, Reg.PWR_STATUS] s t ∧ { t with pwr := s.pwr, regs := s.regs } = s) ∧
  (∀ cycles, (s.passes 1 cycles = false →
      exec (.thermInAssert cycles) s = .next s ∧ exec (.thermInRelease cycles) s = .next s) ∧
    (s.passes 2 cycles = false →
      exec (.pwrFaultInAssert cycles) s = .next s ∧ exec (.pwrFaultInRelease cycles) s = .next s)) ∧
  (∀ cycles, s.passes 2 cycles = true → s.pins.faultIn = false → ∃ t, exec (.pwrFaultInAssert cycles) s = .next t ∧ t.pins = { s.pins with faultIn := true } ∧
    t.pwr = { s.pwr with faultHold := true } ∧ least t true ∧ t.rb Reg.PWR_STATUS 1 = true ∧ t.rb Reg.PWR_EVT 4 = true ∧
    t.rb (Reg.IRQ_FILT + 8) 8 = false ∧ t.rb (Reg.IRQ_RAW + 16) 14 = true) ∧
  (∀ cycles, s.passes 2 cycles = true → ∃ t, exec (.pwrFaultInRelease cycles) s = .next t ∧ t.pins = { s.pins with faultIn := false } ∧
    t.pwr = { s.pwr with faultHold := false } ∧ t.rb Reg.PWR_STATUS 1 = false ∧ t.rb (Reg.IRQ_FILT + 8) 8 = true) ∧
  (∀ cycles, s.passes 1 cycles = true → s.pins.thermIn = false → ∃ t, exec (.thermInAssert cycles) s = .next t ∧ t.pins = { s.pins with thermIn := true } ∧
    t.rb (Reg.IRQ_FILT + 4) 8 = false ∧ t.rb (Reg.IRQ_RAW + 16) 15 = true ∧ (∀ d, d < 12 → 2 ≤ t.dieLevel d) ∧ t.thm = s.thm) ∧
  (∀ cycles, s.passes 1 cycles = true → ∃ t, exec (.thermInRelease cycles) s = .next t ∧ t.pins = { s.pins with thermIn := false } ∧ t.rb (Reg.IRQ_FILT + 4) 8 = true ∧
    sameRegs [Reg.IRQ_FILT + 4] s t ∧ { t with pins := s.pins, regs := s.regs } = s) ∧
  (∀ c cause, (c, cause) ∈ [(Instr.undervolt, 11), (.overvolt, 2)] → ∃ t, exec c s = .next t ∧ t.rf Reg.PWR_LAST_RESET 3 0 = cause ∧
    t.pwr.stageTwo = false ∧ t.ptn = {} ∧ t.hbm.data = s.hbm.data) ∧
  (∀ rail : Fin 17, ∃ t, exec (.railReset rail) s = .next t ∧ t.pwr.windows = [] ∧ t.log = {} ∧ t.ptn = {} ∧ t.pwrGood = false ∧
    t.rf Reg.PWR_LAST_RESET 3 0 = (if rail.val < 12 then 3 else rail.val - 8)) ∧
  (∀ watts mv da, let eff := s.rf Reg.PWR_EFFECTIVE 11 0
    ∃ t, exec (.powerMeasurement watts mv da) s = .next t ∧ t.rf Reg.PWR_POWER 11 0 = min 4095 watts ∧
      t.rf Reg.PWR_POWER 23 12 = max (s.rf Reg.PWR_POWER 23 12) (min 4095 watts) ∧ t.rf Reg.PWR_INPUT 15 0 = min 65535 mv ∧
      t.rf Reg.PWR_INPUT 31 16 = min 65535 da ∧
      (eff < watts → s.lowerNext = none → t.pwr = { s.pwr with traffic := min 7 (s.pwr.traffic + 1) }) ∧
      (eff < watts → s.lowerNext ≠ none → t.pwr.traffic = s.pwr.traffic ∧ (∀ p, (t.dom p).clk ≤ (s.dom p).clk) ∧
        ∃ p, (t.dom p).clk < (s.dom p).clk) ∧
      (watts ≤ eff → s.pwr.traffic ≠ 0 → watts * 100 ≤ eff * 95 → t.pwr = { s.pwr with traffic := s.pwr.traffic - 1 }) ∧
      (watts ≤ eff → s.pwr.traffic ≠ 0 → eff * 95 < watts * 100 → t.pwr = s.pwr) ∧
      (watts ≤ eff → s.pwr.traffic = 0 → t.pwr.traffic = 0 ∧ ∀ p, (s.dom p).clk ≤ (t.dom p).clk))

/-- R397, R398, R400, R401, R403, R404: a waiting domain ramps while units are free, with a soft start below the level and a
slow ramp where that was decided, its units return, and it comes up at its plan; the first failed phase of a group lowers the
ceiling, the second stops the clock; a droop doubles the clock period until it recovers; a warning trip opens a suspect window
that its close records as a dip. That the window of a rail other than VIN_C counts as one dip is the model's reading (DEDUCED,
log entry 67). -/
def Obligations.CoreDomains : Prop := ∀ (core : Fin 72) (s : State),
  let p := core.val
  let x := s.dom p
  let others := fun (t : State) => ∀ q, q ≠ p → t.dom q = s.dom q
  (∀ above, let slow := x.slow || (above && s.slowDue x)
    let need := if slow then 1 else 4
    x.st = .waiting →
    (s.unitsUsed + need ≤ 32 → (above = true → slow = true) → s.pwr.queue.takeWhile (· != p) = [] →
      ∃ t, exec (.rampStart core above) s = .next t ∧ t.dom p = { x with st := .ramping, units := need, began := s.now, ended := none } ∧
        t.pwr.queue = s.pwr.queue.filter (· != p) ∧ others t ∧ { t with pwr := s.pwr } = s) ∧
    ((32 < s.unitsUsed + need ∨ (above = true ∧ slow = false)) → ∃ t, exec (.rampStart core above) s = .next t ∧ t.dom p = x ∧
      t.pwr.queue = s.pwr.queue ∧ others t ∧ { t with pwr := s.pwr } = s)) ∧
  (x.st = .ramping → x.ended = none → ∃ t, exec (.rampEnd core) s = .next t ∧
    t.now = max s.now (x.began + (if x.units = 4 then 20000 else 200000)) ∧ t.dom p = { x with units := 0, ended := some t.now } ∧
    others t ∧ { t with pwr := s.pwr, now := s.now } = s) ∧
  (∀ e, x.st = .ramping → x.ended = some e → let c := s.ceilOf p (s.planOf p)
    ∃ t, exec (.domainUp core) s = .next t ∧ t.now = max s.now (e + 2000) ∧ (t.dom p).st = .up ∧ (t.dom p).clk = c ∧ (t.dom p).ceil = c ∧
      (t.dom p).volt = (s.planOf p).volt ∧ (t.dom p).upSince = t.now ∧ others t ∧ t.nor = s.nor ∧ t.hbm = s.hbm ∧
      { t.lin with tickets := s.lin.tickets } = s.lin) ∧
  (∀ (group : Fin 3) (phase : Fin 8), let i := 8 * group.val + phase.val
    let second := ∃ k ∈ s.phasesOf p, k / 8 = group.val
    (x.st = .up ∨ x.st = .stopped ∨ x.st = .ramping) → i ∉ s.phasesOf p → ∃ t, exec (.phaseFail core group phase) s = .next t ∧
      let y := { x with phases := ((s.phasesOf p ++ [i]).map (2 ^ ·)).sum }
      (second → t.dom p = { y with st := .stopped, units := 0 }) ∧
      (¬second → t.dom p = { y with ceil := x.ceil * 9 / 10, clk := min x.clk (x.ceil * 9 / 10) }) ∧
      t.nor = { s.nor with phases := s.nor.phases ++ [24 * p + i] } ∧ t.rb Reg.PWR_EVT 1 = true ∧ t.rb (Reg.IRQ_RAW + 16) 12 = true ∧
      others t) ∧
  (x.st = .up → ∃ t, exec (.droop core) s = .next t ∧ t.dom p = { x with droop := true } ∧ others t ∧ { t with pwr := s.pwr } = s) ∧
  (x.droop = true → ∃ t, exec (.droopRecovery core) s = .next t ∧ t.dom p = { x with droop := false } ∧ others t ∧
    { t with pwr := s.pwr } = s) ∧
  (∀ rail : Fin 17, let r := rail.val
    (s.pwr.low.contains r = false → ∃ t, exec (.warningTrip rail) s = .next t ∧ r ∈ t.pwr.low ∧
      (s.pwr.windows.any (fun w => w.1 == r) = false → t.pwr.windows = s.pwr.windows ++ [(r, s.tickNo)]) ∧
      (s.pwr.windows.any (fun w => w.1 == r) = true → t.pwr.windows = s.pwr.windows) ∧
      (∀ n, n < 16 → s.ptn.running.enabled n = true → (s.part n).running = true → s.onRail n r = true →
        t.part n = { s.part n with supply := true }) ∧
      (∀ n, (s.ptn.running.enabled n = false ∨ (s.part n).running = false ∨ s.onRail n r = false) → t.part n = s.part n) ∧
      { t with pwr := s.pwr, parts := s.parts } = s) ∧
    (s.pwr.windows.find? (fun w => w.1 == r) = none → ∃ t, exec (.suspectWindowClose rail) s = .next t ∧
      t.pwr = { s.pwr with low := s.pwr.low.filter (· != r) } ∧ { t with pwr := s.pwr } = s) ∧
    (∀ w, s.pwr.windows.find? (fun w => w.1 == r) = some w → ∃ t, exec (.suspectWindowClose rail) s = .next t ∧
      t.pwr.windows = s.pwr.windows.filter (fun w => w.1 != r) ∧ t.pwr.low = s.pwr.low.filter (· != r) ∧
      t.rf Reg.PWR_DIPS 31 0 = (s.rf Reg.PWR_DIPS 31 0 + 1) % 2 ^ 32 ∧ t.rg64 Reg.PWR_DIP_LAST = w.2 % 2 ^ 64 ∧
      t.rb Reg.PWR_EVT 0 = true ∧ t.rb (Reg.IRQ_RAW + 16) 12 = true ∧ t.tickNo = s.tickNo ∧ t.parts = s.parts))

/-! ## Thermal monitors and alterations -/

/-- R407, R412, R413, R415, R416: a compute die whose sensors agree is governed by what they read and changes state by Table
18.2; the throttle level rises each millisecond at 105 °C and falls below 102 °C; the shutdown and the overtemperature trip
reset the module. -/
def Obligations.DieMonitors : Prop := ∀ (f : Func) (die : Fin 22) (s : State),
  let d := die.val
  let x := s.die d
  let others := fun (t : State) => ∀ k, k ≠ d → t.die k = s.die k
  (∀ (g est : Int), let n := (sensorGrid d).1 * (sensorGrid d).2
    let shut := 115 ≤ g ∧ 1 ≤ x.hot
    s.dieFitted d = true → (d < 12 ∨ 18 ≤ d) → x.suspects = [] → x.estGov = false → x.st ≠ .shutdown →
    ∃ t, exec (.dieSample die (List.replicate n g) est) s = .next t ∧ (t.die d).temps = List.replicate n g ∧ (t.die d).govern = g ∧
      (t.die d).suspects = [] ∧ (shut → (t.die d).st = .shutdown ∧ t.thm.shutAt.isSome = true) ∧
      (¬shut → (t.die d).st = dieNext x.st g) ∧ (x.st = .normal → 95 ≤ g → g < 105 → t.rb Reg.THM_EVT 0 = true) ∧
      ((x.st = .normal ∨ x.st = .warn) → 105 ≤ g → t.rb Reg.THM_EVT 1 = true ∧ (¬shut → (t.die d).level = 2)) ∧
      (∀ u, x.lastAt = some u → t.now = max s.now (u + (if x.fast then 50000 else 1000000))) ∧
      ((s.rf Reg.THM_PEAK 7 0 : Int) < g → g < 256 → t.rf Reg.THM_PEAK 7 0 = g.toNat ∧ t.rf Reg.THM_PEAK 31 8 = d) ∧ others t) ∧
  (x.st = .throttle → ∃ t, exec (.throttleLevelUpdate die) s = .next t ∧
    t.die d = { x with level := if 105 ≤ x.govern then min 7 (x.level + 1) else if x.govern < 102 then max 1 (x.level - 1) else x.level } ∧
    others t ∧ { t with thm := s.thm } = s) ∧
  (∀ u, s.thm.shutAt = some u → ∃ t, exec .shutdownRecordTimeout s = .next t ∧ t.rf Reg.PWR_LAST_RESET 3 0 = 9 ∧
    (t.nor.shut = s.thm.shutRec ∨ (t.nor.shut = s.nor.shut ∧ u + 5000000 ≤ t.now)) ∧ t.nor.tokSeq = s.nor.tokSeq ∧ t.fuses = s.fuses) ∧
  (s.dieFitted d = true → ∃ t, exec (.overtempTrip die) s = .next t ∧ t.rf Reg.PWR_LAST_RESET 3 0 = 9 ∧ t.nor.shut = s.nor.shut ∧
    t.thm = {} ∧ t.fuses = s.fuses) ∧
  (s.mustWait (portOf f) = false → isPf f = true → ∃ t, exec (.shutClr f) s = .next t ∧ (∀ i, i < 4 → t.nor.shut.getD i 0 = 0) ∧
    (∀ i, 4 ≤ i → t.nor.shut.getD i 0 = s.nor.shut.getD i 0) ∧ { t.nor with shut := s.nor.shut } = s.nor ∧ { t with nor := s.nor } = s)

/-- R417 to R423: an alteration starts over the cores it names, refused while one runs; a core that is due and may be measured
is measured at once, and one with an owner waits; a measurement makes its plan, one that lost its power is put off, and a core
that could not be measured is STALE. That an automatic start which falls while an alteration runs is passed over is the model's
reading (DEDUCED, log entry 58). -/
def Obligations.Alterations : Prop := ∀ (f : Func) (c : BitVec 7) (part : Fin 16) (s : State),
  let todo := fun (cores : List Nat) => cores.filter (fun p => !s.coreLost p)
  let owner := fun (p : Nat) => (s.logicalOf p).bind s.corePart
  let started := fun (q : Nat) (rest : List Nat) (t : State) =>
    ((owner q ≠ none ∨ s.measurable q = false) → t.thm.alt = some { queue := q :: rest, since := t.now } ∧ t.pwr = s.pwr) ∧
    (owner q = none → s.measurable q = true → (s.dom q).st = .up →
      t.thm.alt = some { queue := q :: rest, since := t.now, measuring := some t.now } ∧ t.pwr = s.pwr) ∧
    (owner q = none → s.measurable q = true → (s.dom q).st = .unpowered → (t.dom q).st = .waiting ∧
      ((∀ k ∈ s.pwr.queue, (s.dom k).asked ≠ t.now) → t.pwr.queue = s.pwr.queue ++ [q])) ∧ t.nor = s.nor
  let cmds := [(Instr.altAll f, List.range 72), (.altCore f c, if c.toNat < 72 then [c.toNat] else []),
    (.altPartition f part, s.physCoresOf part.val)]
  (∀ i cores, (i, cores) ∈ cmds → s.mustWait (portOf f) = false → isPf f = true →
    (s.thm.alt ≠ none → ∃ t, exec i s = .next t ∧ t.rb Reg.THM_ALT_STAT 1 = true ∧ onlyRegs [Reg.THM_ALT_STAT] s t) ∧
    (∀ q rest, s.thm.alt = none → todo cores = q :: rest →
      ∃ t, exec i s = .next t ∧ t.rb Reg.THM_ALT_STAT 1 = false ∧ t.now = s.now ∧ started q rest t) ∧
    (s.thm.alt = none → todo cores = [] → ∃ t, exec i s = .next t ∧ t.thm.alt = none ∧ t.rb Reg.THM_EVT 4 = true)) ∧
  (∀ from_ q rest, let h := s.rf Reg.THM_ALT_CFG 7 0
    let cores := (List.range 72).filter (fun p => !(((List.range 16).filter (fun n => s.rb Reg.THM_ALT_CFG (16 + n))).map
      s.physCoresOf).flatten.contains p)
    let due := from_ + h * 3600000000000
    s.thm.altFrom = some from_ → h ≠ 0 →
    (s.thm.alt = none → todo cores = q :: rest → ∃ t, exec .alterationStart s = .next t ∧ t.now = max s.now due ∧
      t.thm.altFrom = some due ∧ started q rest t) ∧
    (s.thm.alt ≠ none → ∃ t, exec .alterationStart s = .next t ∧ t.now = max s.now due ∧
      t.thm = { s.thm with altFrom := some due } ∧ { t with thm := s.thm, now := s.now } = s)) ∧
  (∀ (core : Fin 72) a u need, let p := core.val
    let plan := planAfter (s.planOf p) need (s.f0 p) (5 * s.v0 p) (s.dom p).phases
    s.thm.alt = some a → a.queue = [p] → a.retry = [] → a.powered = false →
    (a.measuring = some u → (s.dom p).st ≠ .up → (s.dom p).st ≠ .unpowered →
      ∃ t, exec (.measurementDone core need) s = .next t ∧ t.thm.alt = some { queue := [p], since := s.now } ∧
        { t with thm := s.thm } = s) ∧
    (a.measuring = some u → (s.dom p).st = .up → ∃ t, exec (.measurementDone core need) s = .next t ∧ t.now = max s.now (u + 60000) ∧
      mfind t.nor.plans p = some plan ∧ (t.dom p).plan = some plan ∧ (t.dom p).clk = (s.dom p).clk ∧ t.thm.alt = none ∧
      p ∉ t.thm.stale ∧ t.rb Reg.THM_EVT 4 = true ∧ (plan.ceil < 28 → p ∈ t.pwr.aged) ∧
      mget t.nor.measured p [] = mget s.nor.measured p [] ++ [t.now] ∧
      (plan.ceil < 48 → p ∈ t.nor.marked) ∧ (48 ≤ plan.ceil → t.nor.marked = s.nor.marked ∧ t.pwr.aged = s.pwr.aged)) ∧
    (a.measuring = none → ∃ t, exec (.measurementSkip core) s = .next t ∧ t.now = max s.now (a.since + 3600000000000) ∧
      p ∈ t.thm.stale ∧ t.rb Reg.THM_EVT 6 = true ∧ t.thm.alt = none ∧ t.nor = s.nor ∧ t.pwr = s.pwr))

/-! ## The log and interrupts -/

/-- R426, R432 to R434, R438, Table 19.7: the logger appends the oldest queued record, a full ring giving up its oldest; TAIL moves
within the unread records; a target presents its presentable group of highest priority, and a completion of its top group
pops it, any other is out of order; firmware clears the sources of its group; a vector's hold-off ends in one message. -/
def Obligations.LogAndInterrupts : Prop := ∀ (f : Func) (s : State),
  let head := s.rf Reg.ERR_HEAD 8 0
  let tail := s.rf Reg.ERR_TAIL 8 0
  (∀ r rest, s.log.queue = r :: rest → let full := (head + 1) % 512 = tail
    ∃ t, exec .logAppend s = .next t ∧ t.log.queue = rest ∧ t.log.loss = false ∧
      mfind t.log.ring head = some { r with loss := s.log.loss || decide full, seq := (s.rf Reg.ERR_SEQ 31 0 + 1) % 2 ^ 32 } ∧
      t.rf Reg.ERR_HEAD 8 0 = (head + 1) % 512 ∧ t.rf Reg.ERR_SEQ 31 0 = (s.rf Reg.ERR_SEQ 31 0 + 1) % 2 ^ 32 ∧
      t.rf Reg.ERR_TAIL 8 0 = (if full then (tail + 1) % 512 else tail) ∧
      t.rf Reg.ERR_LOST 15 0 = (if full then min 65535 (s.rf Reg.ERR_LOST 15 0 + 1) else s.rf Reg.ERR_LOST 15 0) ∧
      (∀ i, i ≠ head → mfind t.log.ring i = mfind s.log.ring i) ∧ (∀ u, s.log.lastAt = some u → t.now = max s.now (u + 100)) ∧
      { t with log := s.log, regs := s.regs, setAt := s.setAt, now := s.now } = s) ∧
  (∀ v : Word, let w := v.toNat % 512
    s.mustWait (portOf f) = false → isPf f = true →
    ((w + 512 - tail) % 512 ≤ (head + 512 - tail) % 512 → ∃ t, exec (.errTailWrite f v) s = .next t ∧ t.rf Reg.ERR_TAIL 8 0 = w ∧
      onlyRegs [Reg.ERR_TAIL] s t) ∧
    ((head + 512 - tail) % 512 < (w + 512 - tail) % 512 → exec (.errTailWrite f v) s = .next s)) ∧
  (∀ t3 : Fin 3, let n := t3.val
    (∀ g, g < 18 → s.presentable n g = true →
      (∀ h, h < 18 → s.presentable n h = true → s.groupPrio h < s.groupPrio g ∨ (s.groupPrio h = s.groupPrio g ∧ g ≤ h)) →
      ∃ t, exec (.interruptPresentation t3) s = .next t ∧ t.irqStack n = ⟨g, s.groupPrio g⟩ :: s.irqStack n ∧
        mfind t.irq.shown (shownKey n g) = some s.now ∧ (∀ k, k ≠ shownKey n g → mfind t.irq.shown k = mfind s.irq.shown k) ∧
        t.outbox = (if n < 2 then .msix n 0 (s.groupVector g) :: s.outbox else s.outbox) ∧
        (∀ k, k < 3 → k ≠ n → t.irqStack k = s.irqStack k) ∧ { t with irq := s.irq, outbox := s.outbox } = s) ∧
    ((∀ g, g < 18 → s.presentable n g = false) → exec (.interruptPresentation t3) s = .next s)) ∧
  (∀ (t2 : Fin 2) (g : BitVec 5), s.mustWait (portOf f) = false → isPf f = true → let n := t2.val
    (∀ e rest, s.irqStack n = e :: rest → e.group = g.toNat → ∃ t, exec (.eoi f t2 g) s = .next t ∧ t.irqStack n = rest ∧
      (∀ k, k < 3 → k ≠ n → t.irqStack k = s.irqStack k) ∧ { t with irq := s.irq } = s) ∧
    ((∀ e rest, s.irqStack n = e :: rest → e.group ≠ g.toNat) → ∃ t, exec (.eoi f t2 g) s = .next t ∧ t.irqStack n = [] ∧
      (∀ h, h < 18 → mfind t.irq.shown (shownKey n h) =
        if h = 0 ∨ s.rf (Reg.IRQ_GCFG + 4 * h) 11 10 = n + 1 then none else mfind s.irq.shown (shownKey n h)) ∧ t.rb (Reg.IRQ_RAW + 16) (18 + n) = true ∧
      (∀ k, k < 3 → k ≠ n → t.irqStack k = s.irqStack k))) ∧
  (∀ (g : BitVec 5) e rest, s.irq.stack2 = e :: rest → e.group = g.toNat → ∃ t, exec (.firmwareGroupComplete g) s = .next t ∧
    t.irq.stack2 = rest ∧ t.irq.stack0 = s.irq.stack0 ∧ t.irq.stack1 = s.irq.stack1 ∧
    (∀ x, x ∈ (if g.toNat = 0 then [148] else groupSources g.toNat) → t.rb (Reg.IRQ_RAW + 4 * (x / 32)) (x % 32) = false) ∧
    (s.mgmt.receiver = none → t.outbox = s.outbox ∧ t.pins = s.pins) ∧ t.log = s.log ∧
    (∀ x xs, s.mgmt.receiver ≠ none → groupSensors g.toNat = x :: xs → s.mgmt.i3c = none → t.pins = { s.pins with alert := true })) ∧
  (∀ (port : Fin 2) (k : Fin 16) (v : Fin 4), let x := s.vfVec port.val k.val v.val
    let i := 17 * port.val + 1 + k.val
    x.waiting = true → (s.port port.val).st = .up → (mget s.host.fns i {}).msix = true → (mget s.host.fns i {}).fmask = false →
    s.vecMasked i v.val = false → ∃ t, exec (.vfMessage port k v) s = .next t ∧ t.now = max s.now (x.last.getD 0 + 1000 * x.hold) ∧
      t.outbox = .msix port.val (k.val + 1) v.val :: s.outbox ∧ (t.vfVec port.val k.val v.val).waiting = false ∧
      (t.vfVec port.val k.val v.val).last = some t.now ∧ { t with irq := s.irq, outbox := s.outbox, now := s.now } = s)

/-! ## The escutcheon -/

/-- R440, R441, R446 to R448, R455: commands of the escutcheon are taken one at a time, and none during a LOAD's check of its token;
the token read at ESC.ADDR, where it
verifies, unlocks a debug level that PROTECTION allows, enrols a free slot or revokes one of several, and its SEQ is kept; one
that does not verify says why and changes nothing; the escutcheon's failure resets the module. (That a DEBUG token's SEQ is kept
is the model's reading, log entry 27; detail 7 of a request that cannot be read is its choice, log entry 28.) -/
def Obligations.EscutcheonCommands : Prop := ∀ (f : Func) (s : State),
  let len := (s.rg Reg.ESC_LEN).toNat
  let addr := s.rg64 Reg.ESC_ADDR % 2 ^ 48
  let result := fun (w t : State) (detail : Nat) => t.rf Reg.ESC_RESULT 23 16 = detail ∧ t.rf Reg.ESC_RESULT 15 0 = escCode detail ∧
    t.rb Reg.ESC_RESULT 24 = true ∧ sameRegs [Reg.ESC_RESULT] w t
  (∀ c op, (c, op) ∈ [(Instr.debugCmd f, EscOp.debug addr len), (.enrol f, .enrol addr len)] → s.mustWait (portOf f) = false → isPf f = true →
    s.esc.boot = 0 →
    (s.escBusy = false → ∃ t, exec c s = .next t ∧ t.esc = { s.esc with op := some op } ∧ { t with esc := s.esc } = s) ∧
    (s.escBusy = true → ∃ t, exec c s = .next t ∧ result s t 11 ∧ { t with regs := s.regs, setAt := s.setAt } = s)) ∧
  (s.mustWait (portOf f) = false → isPf f = true → s.esc.boot = 0 → s.escBusy = false → ∃ t, exec (.relock f) s = .next t ∧ result s t 0 ∧
    t.esc = { s.esc with relock := s.esc.relock || s.esc.debug == 1 } ∧
    { t with regs := s.regs, setAt := s.setAt, esc := s.esc } = s) ∧
  (∀ ecc, s.esc.op = none → exec (.escCommandComplete ecc) s = .next s) ∧
  (∀ a n ecc, let r := ({ s with lin := s.lin.calm } : State).escRead a n ecc
    let t := r.2.escEnd r.1
    (s.esc.op = some (.debug a n) ∨ s.esc.op = some (.enrol a n)) → r.2.lin.stuck = none →
      exec (.escCommandComplete ecc) s = .next { t with spl := { t.spl with far := t.spl.far.filter (fun g => !g.used) } }) ∧
  (∀ (w : State) a n,
    let done := { w.esc with op := none }
    let ends := fun (t : State) (detail : Nat) => result w t detail ∧ t.hbm = w.hbm ∧ t.lin = w.lin
    let fails := fun (t : State) (detail : Nat) => ends t detail ∧ t.esc = done ∧
      { t with regs := w.regs, setAt := w.setAt, esc := w.esc } = w
    ((w.esc.op = some (.debug a n) ∨ w.esc.op = some (.enrol a n)) → fails (w.escEnd none) 7) ∧
    (∀ x, let t := w.escEnd (some x)
      (∀ d, (w.esc.op = some (.debug a n) ∧ d = w.tokenDetail x 2 n ∨ w.esc.op = some (.enrol a n) ∧ d = w.tokenDetail x 3 n) → d ≠ 0 →
        fails t d) ∧
      (w.esc.op = some (.debug a n) → w.tokenDetail x 2 n = 0 → let level := x.arg % 4
        (w.ptn.running.maxLevel < level → fails t 9) ∧
        (level ≤ w.ptn.running.maxLevel → w.tick.en = true → ends t 0 ∧
          t.esc = { done with unlock := some (max level (w.esc.unlock.getD 0)) } ∧ t.nor = { w.nor with tokSeq := x.seq } ∧ t.fuses = w.fuses)) ∧
      (w.esc.op = some (.enrol a n) → w.tokenDetail x 3 n = 0 → let party := x.arg % 4
        let slot := x.arg / 4 % 4
        (w.enrolOk x = true → bitOf x.arg 4 = true → ends t 0 ∧ t.esc = done ∧ t.nor = { w.nor with tokSeq := x.seq } ∧
          bitOf (mget t.fuses.revoked party 0) slot = true ∧ t.fuses.enrolled = w.fuses.enrolled ∧ t.fuses.hashes = w.fuses.hashes) ∧
        (w.enrolOk x = true → bitOf x.arg 4 = false → ends t 0 ∧ t.esc = done ∧
          t.nor = { w.nor with tokSeq := x.seq, keyStore := mput w.nor.keyStore (4 * party + slot) x.blob } ∧
          bitOf (mget t.fuses.enrolled party 0) slot = true ∧ mfind t.fuses.hashes (4 * party + slot) = some x.digest ∧
          t.fuses.revoked = w.fuses.revoked) ∧
        (w.enrolOk x = false → fails t 10)))) ∧
  (∃ t, exec .escutcheonFailure s = .next t ∧ t.ptn = {} ∧ t.esc.keys = [] ∧ t.esc.moduleKey = s.esc.made + 1 ∧ t.esc.op = none ∧
    t.esc.debug = 0 ∧ t.fuses = s.fuses ∧ { t.nor with hours := s.nor.hours } = s.nor)

/-! ## Bring-up and resets -/

/-- R459 to R461, Tables 21.1 and 21.6: a GO starts the step that follows the last one DONE, and step 6 again, and is refused
for any other; what the steps do when they start; a step ends DONE, or FAIL with TIME at its limit. R442: step 0 ends DONE where the
firmware image in NOR verifies under the slots it names and is not older than the floor, which it raises; else the escutcheon halts.
(The order of these checks is log entry 37's choice; a version and a mask of the image are free.) -/
def Obligations.BringUp : Prop := ∀ (f : Func) (s : State),
  let running := fun (n : Nat) (t : State) => t.brupStep = (n, 1) ∧ t.rf Reg.BRUP_STATUS 15 8 = 0 ∧ n ∈ t.brup.started ∧
    t.brup.since = s.now
  let ended := fun (t : State) (st detail : Nat) => t.rf Reg.BRUP_STATUS 5 4 = st ∧ t.rf Reg.BRUP_STATUS 15 8 = detail ∧
    t.rb Reg.BRUP_EVT 0 = true ∧ t.rb (Reg.IRQ_RAW + 16) 22 = true
  (s.mustWait (portOf f) = false → isPf f = true →
    (∀ c n, (c, n) ∈ [(Instr.dowel f, 1), (.darn f, 2), (.hbm f, 3), (.lining f, 4), (.veneer f, 5), (.kat f, 6), (.ready f, 8)] →
      (s.stepMay n = true → ∃ t, exec c s = .next t ∧ running n t) ∧
      (s.stepMay n = false → ∃ t, exec c s = .next t ∧ t.rb Reg.BRUP_STATUS 16 = true ∧ onlyRegs [Reg.BRUP_STATUS] s t)) ∧
    (s.stepMay 2 = true → ∃ t, exec (.darn f) s = .next t ∧
      (∀ n, n ∈ s.nor.mapOut → n < 768 → t.maskBit Reg.HBM_MAPPED n = true) ∧ (∀ p, p ∈ s.nor.fenced → (t.dom p).st = .fenced)) ∧
    (s.stepMay 4 = true → ∃ t, exec (.lining f) s = .next t ∧ t.lin.secs = [] ∧ t.lin.lines = [] ∧ t.lin.copies = [] ∧
      t.hbm = s.hbm) ∧
    (s.stepMay 5 = true → s.veneerDetail = 0 → ∃ t, exec (.veneer f) s = .next t ∧ t.ptn.running.sec 2 0 = s.defaultVeneer ∧
      ∀ p, p < 72 → s.coreLost p = false → (s.dom p).st = .unpowered → (t.dom p).st = .waiting) ∧
    (s.stepMay 6 = true → ∃ t, exec (.kat f) s = .next t ∧ t.brup.katDone = false) ∧
    (s.stepMay 8 = true → ∃ t, exec (.ready f) s = .next t ∧
      (s.ptn.running.syncSrc = 0 → t.tick = { s.tick with next := some s.now }) ∧
      (s.ptn.running.syncSrc ≠ 0 → t.tick = { s.tick with waitEdge := true, refFrom := s.now }))) ∧
  (s.esc.boot = 0 → s.brupStep.2 = 1 → let n := s.brupStep.1
    (n ≠ 7 → ∀ bad, ∃ t, exec (.brupStepEnd .time bad) s = .next t ∧ ended t 3 1 ∧
      t.now = max s.now (s.brup.since + s.stepLimit n) ∧ t.fuses = s.fuses ∧ t.nor = s.nor) ∧
    (n = 7 → ∀ e bad, exec (.brupStepEnd e bad) s = .next s) ∧
    (n = 0 → s.pwr.stageTwo = true → ∀ bad, let img := s.nor.firmware
      let named := fun (k : Nat) => k = s.fwSlots.1 ∨ k = s.fwSlots.2
      (s.bootCode = 0 → s.fuses.svn ≤ Config.imageVersion img ∧ s.slotOk 0 s.fwSlots.1 = true ∧ s.slotOk 0 s.fwSlots.2 = true ∧
        ∃ t, exec (.brupStepEnd .done bad) s = .next t ∧ ended t 2 0 ∧ t.fuses.svn = Config.imageVersion img ∧
          (∀ k, k < 4 → (bitOf (mget t.fuses.revoked 0 0) k = true ↔ bitOf (mget s.fuses.revoked 0 0) k = true ∨
            (bitOf (Config.imageRevokes img) k = true ∧ ¬named k))) ∧
          t.fuses.enrolled = s.fuses.enrolled ∧ t.fuses.hashes = s.fuses.hashes ∧ t.nor = s.nor) ∧
      (s.bootCode ≠ 0 → 0x0E02 ≤ s.bootCode ∧ s.bootCode ≤ 0x0E06 ∧ ∃ t, exec (.brupStepEnd .done bad) s = .next t ∧
        t.esc = { s.esc with boot := s.bootCode } ∧ { t with esc := s.esc } = s)) ∧
    (n = 0 → ∀ bad, ∃ t, exec (.brupStepEnd (.unit 0x0E01) bad) s = .next t ∧
      t.esc = { s.esc with boot := 0x0E01 } ∧ { t with esc := s.esc } = s) ∧
    (n = 3 → ∀ bad, ∃ t, exec (.brupStepEnd .done bad) s = .next t ∧
      ∀ k, k < 768 → k ∈ bad → s.fitted (k / 64) = true → t.maskBit Reg.HBM_MAPPED k = true ∧ k ∈ t.nor.mapOut) ∧
    (n = 4 → ∃ t, exec (.brupStepEnd .done []) s = .next t ∧ ended t 2 0 ∧ t.lin = s.lin) ∧
    (n = 5 → s.veneerDetail = 0 → (∀ p, p < 72 → s.coreLost p = false → (s.dom p).st = .up) →
      ∃ t, exec (.brupStepEnd .done []) s = .next t ∧ ended t 2 0 ∧ t.pwr = s.pwr) ∧
    (n = 6 → s.veneerDetail = 0 → ∃ t, exec (.brupStepEnd .done []) s = .next t ∧ ended t 2 0 ∧ t.brup.katDone = true ∧
      t.nor = s.nor) ∧
    (n = 8 → (s.tick.en = true → ∃ t, exec (.brupStepEnd .done []) s = .next t ∧ ended t 2 0 ∧ t.tick = s.tick) ∧
      (s.tick.en = false → exec (.brupStepEnd .done []) s = .next s)))

/-- R462 to R471, Tables 21.2 and 21.3: a requested module reset falls 10 µs later; a partition reset ends its epoch, its step
and its groups and leaves every other partition; a core reset frees its groups; a compute-die reset powers its cores down, and
up again where they are owned; a stack reset is refused with its reason, or goes through its phases: the drain lasts while a packet
remains, and what fails in phase 4 is recorded, or keeps the die out of service where it cannot be. -/
def Obligations.Resets : Prop := ∀ (f : Func) (s : State),
  let phase := fun (t : State) (n : Nat) => t.rf Reg.BRUP_STACK_STAT 6 4 = n ∧ t.rb Reg.BRUP_EVT 1 = true ∧ t.brup.since = t.now
  let k := s.rf Reg.BRUP_STACK_STAT 2 0
  (s.mustWait (portOf f) = false → isPf f = true → s.brup.resetAt = none → ∃ t, exec (.modrst f 0xD1) s = .next t ∧
    t.brup = { s.brup with resetAt := some (s.now + 10000) } ∧ { t with brup := s.brup } = s) ∧
  (∀ key, s.mustWait (portOf f) = false → key ≠ 0xD1 → exec (.modrst f key) s = .next s) ∧
  (∀ u cycles, s.brup.resetAt = some u → ∃ t, exec (.moduleReset 10 cycles) s = .next t ∧ t.now = max s.now u ∧ t.rf Reg.PWR_LAST_RESET 3 0 = 10 ∧
    t.brup = {} ∧ t.esc.keys = [] ∧ t.esc.moduleKey = s.esc.made + 1 ∧ t.fuses = s.fuses) ∧
  (∀ (p : Fin 16) (mask : BitVec 16), let n := p.val
    mask = 1#16 <<< n → s.mustWait (portOf f) = false → isPf f = true →
    (s.tick.en = true → s.ptn.commitDue = false → s.ptn.running.enabled n = true → (s.part n).resetting = false → s.ptn.phase = .idle →
      (∀ q, (s.port q).ops = []) → ∃ t, exec (.partitionReset f mask) s = .next t ∧
        t.epoch n = (s.epoch n + 1) % 2 ^ 16 ∧ (t.part n).resetEpoch = some (t.epoch n) ∧
        (∀ i, i < 4 → t.rg (Reg.TICK_PROOF_A + 0x10 * n + 4 * i) = s.rg (Reg.TICK_PROOF_A + 0x10 * n + 4 * i)) ∧ t.rb Reg.BRUP_PRESET_BUSY n = true ∧ (t.part n).resetting = true ∧
        (t.part n).running = false ∧ (t.part n).residents = [] ∧ t.rf (Reg.TICK_RESIDENT + 0x20 * n) 23 0 = 0 ∧
        t.rg (Reg.TICK_LAG + 0x20 * n) = 0 ∧ (∀ q, q ≠ n → t.part q = s.part q) ∧
        (∀ c, s.corePart c = some n → c < 64 → ∀ slot, slot < 64 → (t.group (gix c slot)).st = .free) ∧
        (∀ e, e ∈ t.spl.out → e.2.part ≠ n) ∧ t.hbm = s.hbm ∧ t.ptn = s.ptn ∧ t.tick = s.tick ∧
        leNat (readCells t.bar4 (ctlPage n + 0xC) 4) = 0 ∧
        (∀ a, (a < ctlPage n + 0xC ∨ ctlPage n + 0x10 ≤ a) → mget t.bar4 a 0 = mget s.bar4 a 0)) ∧
    ((s.tick.en = false ∨ (s.ptn.commitDue = false ∧ s.ptn.running.enabled n = false)) →
      ∃ t, exec (.partitionReset f mask) s = .next t ∧ t.rb Reg.BRUP_STATUS 16 = true ∧ onlyRegs [Reg.BRUP_STATUS] s t)) ∧
  (∀ p : Fin 16, (s.part p.val).resetting = true → ∃ t, exec (.partitionResetDone p) s = .next t ∧
    t.part p.val = { s.part p.val with resetting := false } ∧ t.rb Reg.BRUP_PRESET_BUSY p.val = false ∧
    (∀ q, q ≠ p.val → t.part q = s.part q) ∧ { t with parts := s.parts, regs := s.regs } = s) ∧
  (∀ c : Fin 64, s.mustWait (portOf f) = false → isPf f = true → ∃ t, exec (.coreReset f c) s = .next t ∧
    (∀ slot, slot < 64 → (t.group (gix c.val slot)).st = .free) ∧ (t.core c.val).queue = [] ∧ (t.core c.val).bars = [] ∧
    (∀ d, d ≠ c.val → t.core d = s.core d) ∧ (∀ d slot, d ≠ c.val → slot < 64 → t.group (gix d slot) = s.group (gix d slot)) ∧
    t.parks = s.parks ∧ t.hbm = s.hbm ∧ { t.lin with tickets := s.lin.tickets } = s.lin ∧ t.pwr = s.pwr) ∧
  (∀ d : BitVec 6, d.toNat < 12 → s.mustWait (portOf f) = false → isPf f = true → ∃ t, exec (.computeDieReset f d) s = .next t ∧
    (∀ p, p / 6 = d.toNat → (s.dom p).st ≠ .fenced → (s.dom p).st ≠ .stopped → s.coreLost p = false →
      (t.dom p).st = (if ((s.logicalOf p).bind s.corePart).isSome then .waiting else .unpowered)) ∧
    (∀ p, p / 6 ≠ d.toNat → t.dom p = s.dom p) ∧ t.hbm = s.hbm ∧ t.ptn = s.ptn) ∧
  (∀ (d : BitVec 3) c drain, (c, drain) ∈ [(Instr.stackDrain f d, true), (.stackForce f d, false)] → s.mustWait (portOf f) = false →
    isPf f = true → d.toNat < 6 →
    (s.stackRefusal f d.toNat drain ≠ 0 → ∃ t, exec c s = .next t ∧ t.rf Reg.BRUP_STACK_STAT 9 8 = 2 ∧
      t.rf Reg.BRUP_STACK_STAT 23 16 = s.stackRefusal f d.toNat drain ∧ t.rb Reg.BRUP_STATUS 16 = true ∧
      onlyRegs [Reg.BRUP_STACK_STAT, Reg.BRUP_STATUS] s t) ∧
    (s.stackRefusal f d.toNat drain = 0 → s.stackOwners d.toNat = [] → ∃ t, exec c s = .next t ∧ phase t 1 ∧
      t.rf Reg.BRUP_STACK_STAT 2 0 = d.toNat ∧ t.rf Reg.BRUP_STACK_STAT 9 8 = 0 ∧ t.brup.forced = !drain ∧ t.hbm = s.hbm ∧
      t.parts = s.parts)) ∧
  (∀ e lanes bad, let n := s.rf Reg.BRUP_STACK_STAT 6 4
    let failed := s.unitFail k e ++ bad
    let fails := e = .time ∨ e = .link ∨ e = .stack ∨ s.stackShort k lanes = true ∨ ∃ x ∈ failed, 2 ^ 16 ≤ x
    (n = 1 → s.boundarySince = true → s.brup.forced = false → ∃ t, exec (.stackPhaseEnd e lanes bad) s = .next t ∧ phase t 2 ∧
      k ∈ t.brup.outDies ∧ t.hbm = s.hbm) ∧
    ((n = 1 ∨ n = 5) → s.boundarySince = false → exec (.stackPhaseEnd e lanes bad) s = .next s) ∧
    (n = 2 → e ≠ .time → (s.routerHolds k = true → exec (.stackPhaseEnd e lanes bad) s = .next s) ∧
      (s.routerHolds k = false → ∃ t, exec (.stackPhaseEnd e lanes bad) s = .next t ∧ phase t 3)) ∧
    (n = 2 → e = .time → ∃ t, exec (.stackPhaseEnd e lanes bad) s = .next t ∧ phase t 3) ∧
    (n = 3 → ∃ t, exec (.stackPhaseEnd e lanes bad) s = .next t ∧ phase t 4 ∧ { t with regs := s.regs, setAt := s.setAt, brup := s.brup } = s) ∧
    (n = 4 → ∃ t, exec (.stackPhaseEnd e lanes bad) s = .next t ∧ t.brup.outDies = s.brup.outDies ∧
      (¬fails → phase t 5) ∧ (fails → phase t 0 ∧ t.rf Reg.BRUP_STACK_STAT 9 8 = 3) ∧
      (∀ x ∈ failed, x < 72 → x / 12 = k → x ∈ t.nor.badCores ∧ t.rb (Reg.BRUP_KAT_CORE + 4 * (x / 32)) (x % 32) = true)) ∧
    (n = 5 → s.boundarySince = true → ∃ t, exec (.stackPhaseEnd e lanes bad) s = .next t ∧ phase t 0 ∧ t.rf Reg.BRUP_STACK_STAT 9 8 = 1 ∧
      k ∉ t.brup.outDies))

/-! ## The pair -/

/-- R6, R344, R352, R473 to R479: PAIR.CFG is written while OFF; ARM and DISARM; the oldest MIRROR message of a claimed link is
taken, one off them is discarded; heartbeats keep the peer alive and match the members' settings; the standby keeps what it
receives in its buffer, over nothing uncommitted, and applies it at a COMMIT that agrees with what it reads there, or becomes
STALE; the active member sends a finished step's delta once; what a base boundary makes of a standby or active member whose peer
is lost (R480, R481). (How matching is read is log entry 31, the buffer's layout log entry 33.) -/
def Obligations.PairMembers : Prop := ∀ (f : Func) (n : Fin 64) (m : Msg) (y : SLink) (s : State),
  let u := ((({ s.urge (masterId .mirror) (fillUrgency (mget (s.link n.val).rx 2 []).length (vcBuf 2)) with
    lin := s.lin.calm } : State).linkSet n.val y).sendAck n.val).rAdd64 (bank Reg.SPL_RXBYTES n.val) (msgBytes m)
  let p := m.arg.toNat / 2 ^ 56 % 16
  let comes := fun (kind : Nat) => (s.link n.val).next 2 = some (7, m, y) ∧ m.arg.toNat / 2 ^ 60 = kind
  let kept := fun (t : State) => t.hbm = s.hbm ∧ t.lin = s.lin.calm ∧ t.bar4 = s.bar4 ∧ t.parts = s.parts ∧ t.ptn = s.ptn
  let buf := mget s.pair.bufs p []
  (s.mustWait (portOf f) = false → isPf f = true → s.pairFitted = true →
    (∀ v : Word, s.pair.role = .off → (bitOf v.toNat 0 = true → ∀ i, i < 8 → s.ptn.running.linkOwner (56 + i) = none) →
      ∃ t, exec (.pairCfgWrite f v) s = .next t ∧ t.rg Reg.PAIR_CFG = v &&& 0xFFFF00F3 ∧ onlyRegs [Reg.PAIR_CFG] s t) ∧
    (∀ v, s.pair.role ≠ .off → exec (.pairCfgWrite f v) s = .next s) ∧
    (s.pair.role = .off → ∃ t, exec (.arm f) s = .next t ∧ t.pair.role = .arming ∧ t.pair.matched = false ∧
      t.rb (Reg.IRQ_RAW + 16) 21 = true ∧ t.parts = s.parts) ∧
    (s.pair.role ≠ .off → exec (.arm f) s = .next s ∧ ∃ t, exec (.disarm f) s = .next t ∧
      t.pair = { s.pair with disarm := true } ∧ { t with pair := s.pair } = s)) ∧
  (s.claimed n.val = true → s.mirrorCut = false →
    (comes 4 → ∃ t, exec (.heartbeat n) s = .next t ∧ t.pair.lastBeat = some s.now ∧ t.pair.alive = true ∧
      t.pair.role = s.pair.role ∧
      (let same := fieldAt m.payload 0 8 = s.ptn.running.id ∧ fieldAt m.payload 8 2 = s.rf Reg.PAIR_CFG 31 16 ∧
         fieldAt m.payload 10 1 / 8 % 2 ≠ s.rf Reg.PAIR_CFG 1 1
       s.pair.role = .arming → t.pair.mismatch = decide (¬same) ∧
         (same → 1 ≤ fieldAt m.payload 10 1 % 8 → fieldAt m.payload 10 1 % 8 ≤ 3 → t.pair.matched = true)) ∧ kept t) ∧
    (∀ kind c sheet, (kind, c, sheet) ∈ [(1, Instr.mirrorData n, false), (2, .mirrorSheet n, true)] → comes kind →
      let ps := takePlaces (freePlaces (2 ^ 21 * s.rf Reg.PAIR_MBUF_LEN 15 0) s.mirrorUsed 0) m.payload.length
      let w := u.bufWrite ps m.payload
      let room := m.payload.length ≤ placesLen ps
      s.pair.role = .standby →
      (∀ x ∈ ps, x.1 + x.2 ≤ 2 ^ 21 * s.rf Reg.PAIR_MBUF_LEN 15 0 ∧
        ∀ z ∈ s.mirrorUsed, x.1 + x.2 ≤ z.1 ∨ z.1 + z.2 ≤ x.1) ∧
      (room → (∀ x ∈ ps, ∀ q ∈ lineCuts (s.rg64 Reg.PAIR_MBUF % 2 ^ 48 + x.1) x.2, u.target .mirror none q.1 = .idle) →
        w.1 = 0 → w.2.lin.stuck = none → ∃ t, exec c s = .next t ∧
        mget t.pair.bufs p [] = mget w.2.pair.bufs p [] ++ [⟨sheet, m.arg.toNat % 2 ^ 48, ps⟩] ∧
        (∀ q, q ≠ p → mget t.pair.bufs q [] = mget w.2.pair.bufs q []) ∧ t.hbm = w.2.hbm ∧ t.bar4 = w.2.bar4) ∧
      (¬room → ∃ t, exec c s = .next t ∧ t.pair.role = .stale ∧ t.rb Reg.PAIR_EVT 2 = true ∧ kept t)) ∧
    (let k := fieldAt m.payload 0 8
     let d := u.deltaRead buf
     let good := d.1 = 0 ∧ fieldAt m.payload 16 8 = d.2.1.flatten.length ∧ fieldAt m.payload 24 4 = crc32c d.2.1.flatten ∧
       k = d.2.2.rg64 (Reg.PAIR_LASTCOMMIT + 8 * p) + 1
     comes 3 → s.pair.role = .standby → d.2.2.lin.stuck = none →
     (¬good → d.2.2.pair.role = .standby → ∃ t, exec (.mirrorCommit n) s = .next t ∧ t.pair.role = .stale ∧
       t.rb Reg.PAIR_EVT 2 = true ∧ t.hbm = d.2.2.hbm ∧ t.lin = d.2.2.lin ∧ t.bar4 = d.2.2.bar4) ∧
     (∀ a bs ps, good → buf = [⟨true, a, ps⟩] → d.2.1 = [bs] → 8 ≤ a → a + bs.length ≤ 2 ^ 20 →
       ∃ t, exec (.mirrorCommit n) s = .next t ∧
       readCells t.bar4 (p * 2 ^ 20 + a) bs.length = bs ∧
       leNat (readCells t.bar4 (p * 2 ^ 20 + 4) 4) = fieldAt m.payload 8 4 % 4096 ∧
       (∀ b, (b < p * 2 ^ 20 + 4 ∨ p * 2 ^ 20 + a + bs.length ≤ b) → mget t.bar4 b 0 = mget d.2.2.bar4 b 0) ∧
       t.rg64 (Reg.TICK_STEPNO + 0x20 * p) = (k + 1) % 2 ^ 64 ∧ t.rg64 (Reg.PAIR_LASTCOMMIT + 8 * p) = k % 2 ^ 64 ∧
       t.rf (Reg.TICK_RESIDENT + 0x20 * p) 23 0 = fieldAt m.payload 12 4 % 2 ^ 24 ∧ mget t.pair.bufs p [] = [] ∧
       t.pair.role = d.2.2.pair.role ∧ t.hbm = d.2.2.hbm))) ∧
  (s.claimed n.val = false → ∀ kind c, (kind, c) ∈ [(1, Instr.mirrorData n), (2, .mirrorSheet n), (3, .mirrorCommit n),
    (4, .heartbeat n)] → comes kind → ∃ t, exec c s = .next t ∧ t.rb Reg.SPL_EVT 3 = true ∧ t.pair = s.pair ∧ kept t) ∧
  (∀ v, s.pair.alive = true → s.pair.lastBeat = some v → ∃ t, exec .pairAliveDrop s = .next t ∧
    t.now = max s.now (v + 20 * s.ptn.running.basePeriod) ∧ t.pair = { s.pair with alive := false, dropped := some s.pair.slotSeen } ∧
    t.rb Reg.PAIR_EVT 3 = true ∧ sameRegs [Reg.PAIR_EVT] s t) ∧
  (∀ q : Fin 16, s.pair.waiting.contains q.val = true →
    (s.pair.sent.contains q.val = false → s.pairLinks ≠ [] → (({ s with lin := s.lin.calm } : State).mirrorDelta q.val).lin.stuck = none →
      ∃ t, exec (.mirrorSend q) s = .next t ∧
      t.pair = { s.pair with sent := s.pair.sent ++ [q.val] } ∧ t.bar4 = s.bar4 ∧
      t.rg64 (Reg.PAIR_LASTCOMMIT + 8 * q.val) = (s.rg64 (Reg.TICK_STEPNO + 0x20 * q.val) - 1) % 2 ^ 64) ∧
    ((s.pair.sent.contains q.val = true ∨ s.pairLinks = []) → exec (.mirrorSend q) s = .next s)) ∧
  (let b := s.pairBoundary
   let lost := 2 ≤ s.pair.missed ∨ s.pair.lost = true ∨ s.pair.dropped ≠ none
   s.pair.disarm = false →
   (s.pair.role = .standby → ((lost ∨ s.pair.ownNamed = true) → b.1 = true ∧ b.2.pair.role = .solo ∧ b.2.rb Reg.PAIR_EVT 0 = true) ∧
     (¬lost → s.pair.ownNamed = false → b.1 = false ∧ b.2.pair.role = .standby)) ∧
   (s.pair.role = .active → b.1 = false ∧
     ((s.pair.peerNamed = true ∨ s.pair.dropped = some true) → b.2.pair.role = .fenced ∧ b.2.rb Reg.PAIR_EVT 1 = true) ∧
     (s.pair.peerNamed = false → s.pair.dropped ≠ some true → lost → b.2.pair.role = .solo) ∧
     (s.pair.peerNamed = false → ¬lost → b.2.pair.role = .active)))
end

