-- ==== Sys2Proof/Laws/Maps.lean ====
section
/-! SUPPORT. Laws of sparse maps and of memories: a read after a write, and the canonical forms every operation keeps. -/

namespace Sys2Proof.Machine

variable {α : Type}

/-! ## Read after write -/

@[simp] theorem mget_mput_same (m : List (Nat × α)) (k : Nat) (v d : α) : mget (mput m k v) k d = v := by
  induction m with
  | nil => simp [mput, mget]
  | cons e r ih =>
    obtain ⟨i, w⟩ := e
    by_cases h : i = k
    · simp [mput, mget, h]
    · by_cases h2 : i < k <;> simp [mput, mget, h, h2, ih]

theorem mget_mput_other (m : List (Nat × α)) {k j : Nat} (v d : α) (h : j ≠ k) : mget (mput m k v) j d = mget m j d := by
  induction m with
  | nil => simp [mput, mget, Ne.symm h]
  | cons e r ih =>
    obtain ⟨i, w⟩ := e
    by_cases hk : i = k
    · subst hk; simp [mput, mget, Ne.symm h]
    · by_cases h2 : i < k <;> simp [mput, mget, hk, h2, ih, Ne.symm h]

@[simp] theorem mget_mdel_same (m : List (Nat × α)) (k : Nat) (d : α) : mget (mdel m k) k d = d := by
  induction m with
  | nil => rfl
  | cons e r ih =>
    obtain ⟨i, w⟩ := e
    by_cases h : i = k <;> simp [mdel, mget, h, ih]

theorem mget_mdel_other (m : List (Nat × α)) {k j : Nat} (d : α) (h : j ≠ k) : mget (mdel m k) j d = mget m j d := by
  induction m with
  | nil => rfl
  | cons e r ih =>
    obtain ⟨i, w⟩ := e
    by_cases hk : i = k
    · subst hk; simp [mdel, mget, ih, Ne.symm h]
    · simp [mdel, mget, hk, ih]

@[simp] theorem mget_mset_same [DecidableEq α] (m : List (Nat × α)) (k : Nat) (v d : α) : mget (mset m k v d) k d = v := by
  by_cases h : v = d <;> simp [mset, h]

theorem mget_mset_other [DecidableEq α] (m : List (Nat × α)) {k j : Nat} (v d c : α) (h : j ≠ k) :
    mget (mset m k v d) j c = mget m j c := by
  by_cases hv : v = d
  · simp [mset, hv, mget_mdel_other m c h]
  · simp [mset, hv, mget_mput_other m v c h]

@[simp] theorem mfind_mput_same (m : List (Nat × α)) (k : Nat) (v : α) : mfind (mput m k v) k = some v := by
  induction m with
  | nil => simp [mput, mfind]
  | cons e r ih =>
    obtain ⟨i, w⟩ := e
    by_cases h : i = k
    · simp [mput, mfind, h]
    · by_cases h2 : i < k <;> simp [mput, mfind, h, h2, ih]

theorem mfind_mput_other (m : List (Nat × α)) {k j : Nat} (v : α) (h : j ≠ k) : mfind (mput m k v) j = mfind m j := by
  induction m with
  | nil => simp [mput, mfind, Ne.symm h]
  | cons e r ih =>
    obtain ⟨i, w⟩ := e
    by_cases hk : i = k
    · subst hk; simp [mput, mfind, Ne.symm h]
    · by_cases h2 : i < k <;> simp [mput, mfind, hk, h2, ih, Ne.symm h]

@[simp] theorem mfind_mdel_same (m : List (Nat × α)) (k : Nat) : mfind (mdel m k) k = none := by
  induction m with
  | nil => rfl
  | cons e r ih =>
    obtain ⟨i, w⟩ := e
    by_cases h : i = k <;> simp [mdel, mfind, h, ih]

theorem mfind_mdel_other (m : List (Nat × α)) {k j : Nat} (h : j ≠ k) : mfind (mdel m k) j = mfind m j := by
  induction m with
  | nil => rfl
  | cons e r ih =>
    obtain ⟨i, w⟩ := e
    by_cases hk : i = k
    · subst hk; simp [mdel, mfind, ih, Ne.symm h]
    · simp [mdel, mfind, hk, ih]

theorem mhas_eq_isSome (m : List (Nat × α)) (k : Nat) : mhas m k = (mfind m k).isSome := by
  induction m with
  | nil => rfl
  | cons e r ih =>
    obtain ⟨i, w⟩ := e
    by_cases h : i = k <;> simp [mhas, mfind, h, ih]

theorem mget_eq_getD (m : List (Nat × α)) (k : Nat) (d : α) : mget m k d = (mfind m k).getD d := by
  induction m with
  | nil => rfl
  | cons e r ih =>
    obtain ⟨i, w⟩ := e
    by_cases h : i = k <;> simp [mget, mfind, h, ih]

theorem mget_mclear (m : List (Nat × α)) (lo n k : Nat) (d : α) :
    mget (mclear m lo n) k d = if lo ≤ k ∧ k < lo + n then d else mget m k d := by
  induction m with
  | nil => simp [mclear, mget]
  | cons e r ih =>
    obtain ⟨i, w⟩ := e
    simp only [mclear, List.filter_cons] at ih ⊢
    by_cases hi : i < lo ∨ lo + n ≤ i
    · have hb : (decide (i < lo) || decide (lo + n ≤ i)) = true := by simpa using hi
      rw [if_pos hb]
      by_cases hk : i = k
      · subst hk
        have : ¬(lo ≤ i ∧ i < lo + n) := by omega
        simp [mget, this]
      · simp only [mget, hk, if_false, ih]
    · have hb : ¬(decide (i < lo) || decide (lo + n ≤ i)) = true := by simpa using hi
      rw [if_neg hb, ih]
      by_cases hk : i = k
      · subst hk
        have : lo ≤ i ∧ i < lo + n := by omega
        simp [this]
      · simp only [mget, hk, if_false]

/-! ## Canonical forms -/

theorem sortedKeys_iff (m : List (Nat × α)) : sortedKeys m = true ↔ m.Pairwise (fun a b => a.1 < b.1) := by
  induction m with
  | nil => simp [sortedKeys]
  | cons e r ih =>
    cases r with
    | nil => simp [sortedKeys]
    | cons f r =>
      obtain ⟨i, w⟩ := e
      obtain ⟨j, v⟩ := f
      rw [List.pairwise_cons, ← ih]
      simp only [sortedKeys, Bool.and_eq_true, decide_eq_true_eq]
      constructor
      · rintro ⟨h, hr⟩
        refine ⟨?_, hr⟩
        intro a ha
        rcases List.mem_cons.mp ha with rfl | ha
        · exact h
        · exact Nat.lt_trans h ((List.pairwise_cons.mp (ih.mp hr)).1 a ha)
      · rintro ⟨h, hr⟩
        exact ⟨h _ (List.mem_cons_self ..), hr⟩

theorem sortedKeys_filter (m : List (Nat × α)) (p : Nat × α → Bool) (h : sortedKeys m = true) : sortedKeys (m.filter p) = true := by
  rw [sortedKeys_iff] at h ⊢
  exact h.filter p

theorem sortedKeys_mclear (m : List (Nat × α)) (lo n : Nat) (h : sortedKeys m = true) : sortedKeys (mclear m lo n) = true :=
  sortedKeys_filter m _ h

theorem mdel_eq_filter (m : List (Nat × α)) (k : Nat) : mdel m k = m.filter (fun e => e.1 != k) := by
  induction m with
  | nil => rfl
  | cons e r ih =>
    obtain ⟨i, w⟩ := e
    by_cases h : i = k <;> simp [mdel, h, ih]

theorem sortedKeys_mdel (m : List (Nat × α)) (k : Nat) (h : sortedKeys m = true) : sortedKeys (mdel m k) = true := by
  rw [mdel_eq_filter]; exact sortedKeys_filter m _ h

theorem mem_mput {m : List (Nat × α)} {k : Nat} {v : α} {e : Nat × α} (h : e ∈ mput m k v) : e = (k, v) ∨ e ∈ m := by
  induction m with
  | nil => simp [mput] at h; exact .inl h
  | cons f r ih =>
    obtain ⟨i, w⟩ := f
    by_cases hk : i = k
    · simp only [mput, hk, if_true, List.mem_cons] at h
      rcases h with h | h
      · exact .inl h
      · exact .inr (List.mem_cons_of_mem _ h)
    · by_cases h2 : i < k
      · simp only [mput, hk, h2, if_true, if_false, List.mem_cons] at h
        rcases h with h | h
        · exact .inr (h ▸ List.mem_cons_self ..)
        · rcases ih h with h | h
          · exact .inl h
          · exact .inr (List.mem_cons_of_mem _ h)
      · simp only [mput, hk, h2, if_false, List.mem_cons] at h
        rcases h with h | h | h
        · exact .inl h
        · exact .inr (h ▸ List.mem_cons_self ..)
        · exact .inr (List.mem_cons_of_mem _ h)

theorem sortedKeys_mput (m : List (Nat × α)) (k : Nat) (v : α) (h : sortedKeys m = true) : sortedKeys (mput m k v) = true := by
  rw [sortedKeys_iff] at h ⊢
  induction m with
  | nil => simp [mput]
  | cons e r ih =>
    obtain ⟨i, w⟩ := e
    rw [List.pairwise_cons] at h
    by_cases hk : i = k
    · subst hk
      simp only [mput, if_true, List.pairwise_cons]
      exact h
    · by_cases h2 : i < k
      · simp only [mput, hk, h2, if_true, if_false, List.pairwise_cons]
        refine ⟨?_, ih h.2⟩
        intro a ha
        rcases mem_mput ha with rfl | ha
        · exact h2
        · exact h.1 a ha
      · have h3 : k < i := by omega
        simp only [mput, hk, h2, if_false, List.pairwise_cons, List.mem_cons]
        refine ⟨?_, h⟩
        rintro a (rfl | ha)
        · exact h3
        · exact Nat.lt_trans h3 (h.1 a ha)

theorem sortedKeys_mset [DecidableEq α] (m : List (Nat × α)) (k : Nat) (v d : α) (h : sortedKeys m = true) :
    sortedKeys (mset m k v d) = true := by
  unfold mset
  split
  · exact sortedKeys_mdel m k h
  · exact sortedKeys_mput m k v h

/-! ## Memories -/

theorem cellsWf_filter (m : List Host.Cell) (p : Host.Cell → Bool) (h : cellsWf m = true) : cellsWf (m.filter p) = true := by
  simp only [cellsWf, Bool.and_eq_true, List.all_eq_true] at h ⊢
  exact ⟨sortedKeys_filter m p h.1, fun e he => h.2 e (List.mem_filter.mp he).1⟩

/-- Clearing a span keeps the canonical form. -/
theorem cellsWf_mclear (m : List Host.Cell) (lo n : Nat) (h : cellsWf m = true) : cellsWf (mclear m lo n) = true :=
  cellsWf_filter m _ h

/-- Writing a byte keeps the canonical form: a zero byte takes no entry. -/
theorem cellsWf_mset (m : List Host.Cell) (k : Nat) (v : Byte) (h : cellsWf m = true) : cellsWf (mset m k v 0) = true := by
  unfold mset
  split
  · rw [mdel_eq_filter]; exact cellsWf_filter m _ h
  · simp only [cellsWf, Bool.and_eq_true, List.all_eq_true] at h ⊢
    refine ⟨sortedKeys_mput m k v h.1, fun e he => ?_⟩
    rcases mem_mput he with rfl | he
    · simpa using ‹¬v = 0›
    · exact h.2 e he

/-- Writing bytes keeps the canonical form. -/
theorem cellsWf_writeCells (bs : List Byte) (m : List Host.Cell) (a : Nat) (h : cellsWf m = true) :
    cellsWf (writeCells m a bs) = true := by
  induction bs generalizing m a with
  | nil => exact h
  | cons b bs ih => exact ih _ _ (cellsWf_mset m a b h)

/-- Writing bytes of a memory of free values keeps its keys rising. -/
theorem sortedKeys_putCells (bs : List Byte) (m : List Host.Cell) (a : Nat) (h : sortedKeys m = true) :
    sortedKeys (putCells m a bs) = true := by
  induction bs generalizing m a with
  | nil => exact h
  | cons b bs ih => exact ih _ _ (sortedKeys_mput m a b h)

/-- A write leaves every other byte alone. -/
theorem mget_writeCells_other (bs : List Byte) (m : List Host.Cell) (a k : Nat) (h : k < a ∨ a + bs.length ≤ k) :
    mget (writeCells m a bs) k 0 = mget m k 0 := by
  induction bs generalizing m a with
  | nil => rfl
  | cons b bs ih =>
    simp only [List.length_cons] at h
    rw [writeCells, ih _ _ (by omega), mget_mset_other _ _ _ _ (by omega)]

/-- A read after a write of the same bytes gives them. -/
@[simp] theorem readCells_writeCells (bs : List Byte) (m : List Host.Cell) (a : Nat) :
    readCells (writeCells m a bs) a bs.length = bs := by
  induction bs generalizing m a with
  | nil => rfl
  | cons b bs ih =>
    simp only [writeCells, List.length_cons, readCells, ih]
    rw [mget_writeCells_other _ _ _ _ (.inl (Nat.lt_succ_self a)), mget_mset_same]

@[simp] theorem length_readCells (m : List Host.Cell) (a n : Nat) : (readCells m a n).length = n := by
  induction n generalizing a with
  | zero => rfl
  | succ n ih => simp [readCells, ih]

@[simp] theorem length_leBytes (v n : Nat) : (leBytes v n).length = n := by
  induction n generalizing v with
  | zero => rfl
  | succ n ih => simp [leBytes, ih]

/-- The bytes of a number, read back, give it modulo their range. -/
@[simp] theorem leNat_leBytes (v n : Nat) : leNat (leBytes v n) = v % 2 ^ (8 * n) := by
  induction n generalizing v with
  | zero => simp [leBytes, leNat, Nat.mod_one]
  | succ n ih =>
    have e : 2 ^ (8 * (n + 1)) = 256 * 2 ^ (8 * n) := by rw [Nat.mul_add, Nat.pow_add, Nat.mul_comm]
    rw [leBytes, leNat, ih, e, Nat.mod_mul]
    simp

/-- The memories at reset are in canonical form. -/
theorem reset_memWf : State.reset.memWf = true := by decide

end Sys2Proof.Machine
end

