-- ==== Sys2Proof/Laws/Registers.lean ====
section
/-! SUPPORT. Laws of bit fields and of register words: a read after a write of a word, a field, a bit, a pair. -/

namespace Sys2Proof

theorem bitsOf_lt (n hi lo : Nat) : bitsOf n hi lo < 2 ^ (hi + 1 - lo) := Nat.mod_lt _ (Nat.two_pow_pos _)

/-- A number as what lies below a field, the field, and what lies above it. -/
theorem bitsOf_split (n hi lo : Nat) :
    n = n % 2 ^ lo + bitsOf n hi lo * 2 ^ lo + n / 2 ^ lo / 2 ^ (hi + 1 - lo) * (2 ^ (hi + 1 - lo) * 2 ^ lo) := by
  have h1 := Nat.mod_add_div n (2 ^ lo)
  have h2 := Nat.mod_add_div (n / 2 ^ lo) (2 ^ (hi + 1 - lo))
  unfold bitsOf
  generalize n / 2 ^ lo = q at *
  generalize q % 2 ^ (hi + 1 - lo) = r at *
  generalize q / 2 ^ (hi + 1 - lo) = u at *
  subst h2
  rw [← h1]
  have hd : (n % 2 ^ lo + 2 ^ lo * (r + 2 ^ (hi + 1 - lo) * u)) % 2 ^ lo = n % 2 ^ lo := by
    rw [Nat.add_mul_mod_self_left, Nat.mod_mod]
  rw [hd]
  ring

/-- What a replaced field leaves: the bits below, the new field, the bits above. -/
theorem putBits_eq (n hi lo v : Nat) :
    putBits n hi lo v = n % 2 ^ lo + v % 2 ^ (hi + 1 - lo) * 2 ^ lo +
      n / 2 ^ lo / 2 ^ (hi + 1 - lo) * (2 ^ (hi + 1 - lo) * 2 ^ lo) := by
  have h := bitsOf_split n hi lo
  unfold putBits
  omega

@[simp] theorem bitsOf_putBits_same (n hi lo v : Nat) : bitsOf (putBits n hi lo v) hi lo = v % 2 ^ (hi + 1 - lo) := by
  rw [putBits_eq, bitsOf]
  have hp := Nat.two_pow_pos lo
  have e : n % 2 ^ lo + v % 2 ^ (hi + 1 - lo) * 2 ^ lo + n / 2 ^ lo / 2 ^ (hi + 1 - lo) * (2 ^ (hi + 1 - lo) * 2 ^ lo) =
      n % 2 ^ lo + (v % 2 ^ (hi + 1 - lo) + 2 ^ (hi + 1 - lo) * (n / 2 ^ lo / 2 ^ (hi + 1 - lo))) * 2 ^ lo := by ring
  rw [e, Nat.add_mul_div_right _ _ hp, Nat.div_eq_of_lt (Nat.mod_lt n hp), Nat.zero_add, Nat.add_mul_mod_self_left, Nat.mod_mod]

/-- Bits as `testBit` sees them. -/
theorem bitOf_eq_testBit (n i : Nat) : bitOf n i = n.testBit i := by
  rw [Nat.testBit_eq_decide_div_mod_eq]
  rfl

theorem testBit_putBits (n hi lo v i : Nat) (h : lo ≤ hi + 1) :
    (putBits n hi lo v).testBit i = if lo ≤ i ∧ i ≤ hi then v.testBit (i - lo) else n.testBit i := by
  have e : putBits n hi lo v =
      2 ^ lo * (2 ^ (hi + 1 - lo) * (n / 2 ^ lo / 2 ^ (hi + 1 - lo)) + v % 2 ^ (hi + 1 - lo)) + n % 2 ^ lo := by
    rw [putBits_eq]; ring
  rw [e, Nat.testBit_two_pow_mul_add _ (Nat.mod_lt _ (Nat.two_pow_pos lo))]
  by_cases h1 : i < lo
  · have : ¬(lo ≤ i ∧ i ≤ hi) := by omega
    rw [if_pos h1, if_neg this, Nat.testBit_mod_two_pow]
    simp [h1]
  · rw [if_neg h1, Nat.testBit_two_pow_mul_add _ (Nat.mod_lt _ (Nat.two_pow_pos _))]
    by_cases h2 : i ≤ hi
    · have h3 : i - lo < hi + 1 - lo := by omega
      rw [if_pos h3, if_pos ⟨by omega, h2⟩, Nat.testBit_mod_two_pow]
      simp [h3]
    · have h3 : ¬(i - lo < hi + 1 - lo) := by omega
      rw [if_neg h3, if_neg (by omega), Nat.div_div_eq_div_mul, ← Nat.pow_add, Nat.testBit_div_two_pow]
      congr 1
      omega

/-- A bit inside a replaced field is the new field's, one outside it is as before. -/
theorem bitOf_putBits (n hi lo v i : Nat) (h : lo ≤ hi + 1) :
    bitOf (putBits n hi lo v) i = if lo ≤ i ∧ i ≤ hi then bitOf v (i - lo) else bitOf n i := by
  simp only [bitOf_eq_testBit, testBit_putBits n hi lo v i h]

theorem bitsOf_testBit (n hi lo i : Nat) : (bitsOf n hi lo).testBit i = (decide (i < hi + 1 - lo) && n.testBit (lo + i)) := by
  rw [bitsOf, Nat.testBit_mod_two_pow, Nat.testBit_div_two_pow, Nat.add_comm i lo]

/-- A field that a replaced field does not meet is as before. -/
theorem bitsOf_putBits_other (n hi lo v hi2 lo2 : Nat) (h : lo ≤ hi + 1) (hd : hi < lo2 ∨ hi2 < lo) :
    bitsOf (putBits n hi lo v) hi2 lo2 = bitsOf n hi2 lo2 := by
  apply Nat.eq_of_testBit_eq
  intro i
  rw [bitsOf_testBit, bitsOf_testBit]
  by_cases hi' : i < hi2 + 1 - lo2
  · rw [testBit_putBits _ _ _ _ _ h, if_neg (by omega)]
  · simp [hi']

theorem putBits_lt (n hi lo v w : Nat) (hn : n < 2 ^ w) (h : lo ≤ hi + 1) (hw : hi < w) : putBits n hi lo v < 2 ^ w := by
  apply Nat.lt_pow_two_of_testBit
  intro i hi'
  rw [testBit_putBits _ _ _ _ _ h, if_neg (by omega)]
  exact Nat.testBit_lt_two_pow (Nat.lt_of_lt_of_le hn (Nat.pow_le_pow_right (by omega) hi'))

@[simp] theorem bitOf_b2n (b : Bool) : bitOf (b2n b) 0 = b := by cases b <;> rfl

end Sys2Proof

namespace Sys2Proof.Machine

/-! ## Words -/

@[simp] theorem rg_rgSet_same (s : State) (k : Nat) (v : Word) : (s.rgSet k v).rg k = v := by
  simp [State.rg, State.rgSet]

theorem rg_rgSet_other (s : State) {k j : Nat} (v : Word) (h : j ≠ k) : (s.rgSet k v).rg j = s.rg j := by
  simp [State.rg, State.rgSet, mget_mset_other _ _ _ _ h]

theorem toNat_rfSet (s : State) (k hi lo v : Nat) (h : lo ≤ hi + 1) (hi32 : hi < 32) :
    ((s.rfSet k hi lo v).rg k).toNat = putBits (s.rg k).toNat hi lo v := by
  rw [State.rfSet, rg_rgSet_same, BitVec.toNat_ofNat]
  exact Nat.mod_eq_of_lt (putBits_lt _ _ _ _ _ (s.rg k).isLt h hi32)

theorem rg_rfSet_other (s : State) {k j : Nat} (hi lo v : Nat) (h : j ≠ k) : (s.rfSet k hi lo v).rg j = s.rg j :=
  rg_rgSet_other s _ h

/-! ## Fields -/

/-- A field reads what was written to it, modulo its width. -/
theorem rf_rfSet_same (s : State) (k hi lo v : Nat) (h : lo ≤ hi + 1) (hi32 : hi < 32) :
    (s.rfSet k hi lo v).rf k hi lo = v % 2 ^ (hi + 1 - lo) := by
  rw [State.rf, toNat_rfSet s k hi lo v h hi32, bitsOf_putBits_same]

/-- A field of the same word that the written one does not meet. -/
theorem rf_rfSet_apart (s : State) (k hi lo v hi2 lo2 : Nat) (h : lo ≤ hi + 1) (hi32 : hi < 32) (hd : hi < lo2 ∨ hi2 < lo) :
    (s.rfSet k hi lo v).rf k hi2 lo2 = s.rf k hi2 lo2 := by
  rw [State.rf, toNat_rfSet s k hi lo v h hi32, bitsOf_putBits_other _ _ _ _ _ _ h hd, State.rf]

/-- A field of another word. -/
theorem rf_rfSet_other (s : State) {k j : Nat} (hi lo v hi2 lo2 : Nat) (h : j ≠ k) :
    (s.rfSet k hi lo v).rf j hi2 lo2 = s.rf j hi2 lo2 := by
  rw [State.rf, rg_rfSet_other s _ _ _ h, State.rf]

theorem rf_rgSet_other (s : State) {k j : Nat} (v : Word) (hi lo : Nat) (h : j ≠ k) : (s.rgSet k v).rf j hi lo = s.rf j hi lo := by
  rw [State.rf, rg_rgSet_other s v h, State.rf]

/-! ## Bits -/

theorem rb_rfSet (s : State) (k hi lo v i : Nat) (h : lo ≤ hi + 1) (hi32 : hi < 32) :
    (s.rfSet k hi lo v).rb k i = if lo ≤ i ∧ i ≤ hi then bitOf v (i - lo) else s.rb k i := by
  rw [State.rb, toNat_rfSet s k hi lo v h hi32, bitOf_putBits _ _ _ _ _ h, State.rb]

theorem rb_rfSet_other (s : State) {k j : Nat} (hi lo v i : Nat) (h : j ≠ k) : (s.rfSet k hi lo v).rb j i = s.rb j i := by
  rw [State.rb, rg_rfSet_other s _ _ _ h, State.rb]

theorem rb_rbSet_same (s : State) (k i : Nat) (b : Bool) (h : i < 32) : (s.rbSet k i b).rb k i = b := by
  rw [State.rbSet, rb_rfSet _ _ _ _ _ _ (by omega) h, if_pos ⟨Nat.le_refl i, Nat.le_refl i⟩]
  simp

theorem rb_rbSet_bit (s : State) (k : Nat) {i j : Nat} (b : Bool) (h : i < 32) (hj : j ≠ i) : (s.rbSet k i b).rb k j = s.rb k j := by
  rw [State.rbSet, rb_rfSet _ _ _ _ _ _ (by omega) h, if_neg (by omega)]

theorem rb_rbSet_other (s : State) {k j : Nat} (i i2 : Nat) (b : Bool) (h : j ≠ k) : (s.rbSet k i b).rb j i2 = s.rb j i2 :=
  rb_rfSet_other s _ _ _ _ h

/-! ## Pairs and counts -/

/-- A pair reads what was written to it, modulo 2^64. -/
theorem rg64_rg64Set_same (s : State) (k v : Nat) : (s.rg64Set k v).rg64 k = v % 2 ^ 64 := by
  have h : k ≠ k + 4 := by omega
  simp only [State.rg64, State.rg64Set, rg_rgSet_same, rg_rgSet_other _ _ h, BitVec.toNat_ofNat]
  omega

theorem rg_rg64Set_other (s : State) {k j : Nat} (v : Nat) (h : j ≠ k) (h4 : j ≠ k + 4) : (s.rg64Set k v).rg j = s.rg j := by
  rw [State.rg64Set, rg_rgSet_other _ _ h4, rg_rgSet_other _ _ h]

theorem rf_rAdd_same (s : State) (k hi lo n : Nat) (h : lo ≤ hi + 1) (hi32 : hi < 32) :
    (s.rAdd k hi lo n).rf k hi lo = (s.rf k hi lo + n) % 2 ^ (hi + 1 - lo) := rf_rfSet_same s k hi lo _ h hi32

theorem rg_rAdd_other (s : State) {k j : Nat} (hi lo n : Nat) (h : j ≠ k) : (s.rAdd k hi lo n).rg j = s.rg j :=
  rg_rfSet_other s _ _ _ h

theorem rg64_rAdd64_same (s : State) (k n : Nat) : (s.rAdd64 k n).rg64 k = (s.rg64 k + n) % 2 ^ 64 := rg64_rg64Set_same s k _

end Sys2Proof.Machine
end

