-- ==== Sys2Proof/Laws/State.lean ====
section
/-! SUPPORT. What each update of the state leaves alone, field by field, and what reads back what it set. -/

namespace Sys2Proof.Machine

/-! ## rgSet changes regs only -/

@[simp] theorem State.rgSet_pending (s : State) (k : Nat) (v : Word) : (s.rgSet k v).pending = s.pending := rfl
@[simp] theorem State.rgSet_now (s : State) (k : Nat) (v : Word) : (s.rgSet k v).now = s.now := rfl
@[simp] theorem State.rgSet_free (s : State) (k : Nat) (v : Word) : (s.rgSet k v).free = s.free := rfl
@[simp] theorem State.rgSet_reply (s : State) (k : Nat) (v : Word) : (s.rgSet k v).reply = s.reply := rfl
@[simp] theorem State.rgSet_outbox (s : State) (k : Nat) (v : Word) : (s.rgSet k v).outbox = s.outbox := rfl
@[simp] theorem State.rgSet_setAt (s : State) (k : Nat) (v : Word) : (s.rgSet k v).setAt = s.setAt := rfl
@[simp] theorem State.rgSet_latches (s : State) (k : Nat) (v : Word) : (s.rgSet k v).latches = s.latches := rfl
@[simp] theorem State.rgSet_heldWrites (s : State) (k : Nat) (v : Word) : (s.rgSet k v).heldWrites = s.heldWrites := rfl
@[simp] theorem State.rgSet_fuses (s : State) (k : Nat) (v : Word) : (s.rgSet k v).fuses = s.fuses := rfl
@[simp] theorem State.rgSet_nor (s : State) (k : Nat) (v : Word) : (s.rgSet k v).nor = s.nor := rfl
@[simp] theorem State.rgSet_ptn (s : State) (k : Nat) (v : Word) : (s.rgSet k v).ptn = s.ptn := rfl
@[simp] theorem State.rgSet_tick (s : State) (k : Nat) (v : Word) : (s.rgSet k v).tick = s.tick := rfl
@[simp] theorem State.rgSet_parts (s : State) (k : Nat) (v : Word) : (s.rgSet k v).parts = s.parts := rfl
@[simp] theorem State.rgSet_bar4 (s : State) (k : Nat) (v : Word) : (s.rgSet k v).bar4 = s.bar4 := rfl
@[simp] theorem State.rgSet_log (s : State) (k : Nat) (v : Word) : (s.rgSet k v).log = s.log := rfl
@[simp] theorem State.rgSet_irq (s : State) (k : Nat) (v : Word) : (s.rgSet k v).irq = s.irq := rfl
@[simp] theorem State.rgSet_host (s : State) (k : Nat) (v : Word) : (s.rgSet k v).host = s.host := rfl
@[simp] theorem State.rgSet_pins (s : State) (k : Nat) (v : Word) : (s.rgSet k v).pins = s.pins := rfl
@[simp] theorem State.rgSet_mgmt (s : State) (k : Nat) (v : Word) : (s.rgSet k v).mgmt = s.mgmt := rfl
@[simp] theorem State.rgSet_lin (s : State) (k : Nat) (v : Word) : (s.rgSet k v).lin = s.lin := rfl
@[simp] theorem State.rgSet_hbm (s : State) (k : Nat) (v : Word) : (s.rgSet k v).hbm = s.hbm := rfl
@[simp] theorem State.rgSet_net (s : State) (k : Nat) (v : Word) : (s.rgSet k v).net = s.net := rfl
@[simp] theorem State.rgSet_cores (s : State) (k : Nat) (v : Word) : (s.rgSet k v).cores = s.cores := rfl
@[simp] theorem State.rgSet_groups (s : State) (k : Nat) (v : Word) : (s.rgSet k v).groups = s.groups := rfl
@[simp] theorem State.rgSet_parks (s : State) (k : Nat) (v : Word) : (s.rgSet k v).parks = s.parks := rfl
@[simp] theorem State.rgSet_away (s : State) (k : Nat) (v : Word) : (s.rgSet k v).away = s.away := rfl
@[simp] theorem State.rgSet_staging (s : State) (k : Nat) (v : Word) : (s.rgSet k v).staging = s.staging := rfl
@[simp] theorem State.rgSet_acc (s : State) (k : Nat) (v : Word) : (s.rgSet k v).acc = s.acc := rfl
@[simp] theorem State.rgSet_accFlags (s : State) (k : Nat) (v : Word) : (s.rgSet k v).accFlags = s.accFlags := rfl
@[simp] theorem State.rgSet_rng (s : State) (k : Nat) (v : Word) : (s.rgSet k v).rng = s.rng := rfl
@[simp] theorem State.rgSet_fit (s : State) (k : Nat) (v : Word) : (s.rgSet k v).fit = s.fit := rfl
@[simp] theorem State.rgSet_fitLatch (s : State) (k : Nat) (v : Word) : (s.rgSet k v).fitLatch = s.fitLatch := rfl
@[simp] theorem State.rgSet_jig (s : State) (k : Nat) (v : Word) : (s.rgSet k v).jig = s.jig := rfl
@[simp] theorem State.rgSet_spl (s : State) (k : Nat) (v : Word) : (s.rgSet k v).spl = s.spl := rfl
@[simp] theorem State.rgSet_pwr (s : State) (k : Nat) (v : Word) : (s.rgSet k v).pwr = s.pwr := rfl
@[simp] theorem State.rgSet_thm (s : State) (k : Nat) (v : Word) : (s.rgSet k v).thm = s.thm := rfl
@[simp] theorem State.rgSet_esc (s : State) (k : Nat) (v : Word) : (s.rgSet k v).esc = s.esc := rfl
@[simp] theorem State.rgSet_brup (s : State) (k : Nat) (v : Word) : (s.rgSet k v).brup = s.brup := rfl
@[simp] theorem State.rgSet_pair (s : State) (k : Nat) (v : Word) : (s.rgSet k v).pair = s.pair := rfl

/-! ## rfSet changes regs only -/

@[simp] theorem State.rfSet_pending (s : State) (k hi lo v : Nat) : (s.rfSet k hi lo v).pending = s.pending := rfl
@[simp] theorem State.rfSet_now (s : State) (k hi lo v : Nat) : (s.rfSet k hi lo v).now = s.now := rfl
@[simp] theorem State.rfSet_free (s : State) (k hi lo v : Nat) : (s.rfSet k hi lo v).free = s.free := rfl
@[simp] theorem State.rfSet_reply (s : State) (k hi lo v : Nat) : (s.rfSet k hi lo v).reply = s.reply := rfl
@[simp] theorem State.rfSet_outbox (s : State) (k hi lo v : Nat) : (s.rfSet k hi lo v).outbox = s.outbox := rfl
@[simp] theorem State.rfSet_setAt (s : State) (k hi lo v : Nat) : (s.rfSet k hi lo v).setAt = s.setAt := rfl
@[simp] theorem State.rfSet_latches (s : State) (k hi lo v : Nat) : (s.rfSet k hi lo v).latches = s.latches := rfl
@[simp] theorem State.rfSet_heldWrites (s : State) (k hi lo v : Nat) : (s.rfSet k hi lo v).heldWrites = s.heldWrites := rfl
@[simp] theorem State.rfSet_fuses (s : State) (k hi lo v : Nat) : (s.rfSet k hi lo v).fuses = s.fuses := rfl
@[simp] theorem State.rfSet_nor (s : State) (k hi lo v : Nat) : (s.rfSet k hi lo v).nor = s.nor := rfl
@[simp] theorem State.rfSet_ptn (s : State) (k hi lo v : Nat) : (s.rfSet k hi lo v).ptn = s.ptn := rfl
@[simp] theorem State.rfSet_tick (s : State) (k hi lo v : Nat) : (s.rfSet k hi lo v).tick = s.tick := rfl
@[simp] theorem State.rfSet_parts (s : State) (k hi lo v : Nat) : (s.rfSet k hi lo v).parts = s.parts := rfl
@[simp] theorem State.rfSet_bar4 (s : State) (k hi lo v : Nat) : (s.rfSet k hi lo v).bar4 = s.bar4 := rfl
@[simp] theorem State.rfSet_log (s : State) (k hi lo v : Nat) : (s.rfSet k hi lo v).log = s.log := rfl
@[simp] theorem State.rfSet_irq (s : State) (k hi lo v : Nat) : (s.rfSet k hi lo v).irq = s.irq := rfl
@[simp] theorem State.rfSet_host (s : State) (k hi lo v : Nat) : (s.rfSet k hi lo v).host = s.host := rfl
@[simp] theorem State.rfSet_pins (s : State) (k hi lo v : Nat) : (s.rfSet k hi lo v).pins = s.pins := rfl
@[simp] theorem State.rfSet_mgmt (s : State) (k hi lo v : Nat) : (s.rfSet k hi lo v).mgmt = s.mgmt := rfl
@[simp] theorem State.rfSet_lin (s : State) (k hi lo v : Nat) : (s.rfSet k hi lo v).lin = s.lin := rfl
@[simp] theorem State.rfSet_hbm (s : State) (k hi lo v : Nat) : (s.rfSet k hi lo v).hbm = s.hbm := rfl
@[simp] theorem State.rfSet_net (s : State) (k hi lo v : Nat) : (s.rfSet k hi lo v).net = s.net := rfl
@[simp] theorem State.rfSet_cores (s : State) (k hi lo v : Nat) : (s.rfSet k hi lo v).cores = s.cores := rfl
@[simp] theorem State.rfSet_groups (s : State) (k hi lo v : Nat) : (s.rfSet k hi lo v).groups = s.groups := rfl
@[simp] theorem State.rfSet_parks (s : State) (k hi lo v : Nat) : (s.rfSet k hi lo v).parks = s.parks := rfl
@[simp] theorem State.rfSet_away (s : State) (k hi lo v : Nat) : (s.rfSet k hi lo v).away = s.away := rfl
@[simp] theorem State.rfSet_staging (s : State) (k hi lo v : Nat) : (s.rfSet k hi lo v).staging = s.staging := rfl
@[simp] theorem State.rfSet_acc (s : State) (k hi lo v : Nat) : (s.rfSet k hi lo v).acc = s.acc := rfl
@[simp] theorem State.rfSet_accFlags (s : State) (k hi lo v : Nat) : (s.rfSet k hi lo v).accFlags = s.accFlags := rfl
@[simp] theorem State.rfSet_rng (s : State) (k hi lo v : Nat) : (s.rfSet k hi lo v).rng = s.rng := rfl
@[simp] theorem State.rfSet_fit (s : State) (k hi lo v : Nat) : (s.rfSet k hi lo v).fit = s.fit := rfl
@[simp] theorem State.rfSet_fitLatch (s : State) (k hi lo v : Nat) : (s.rfSet k hi lo v).fitLatch = s.fitLatch := rfl
@[simp] theorem State.rfSet_jig (s : State) (k hi lo v : Nat) : (s.rfSet k hi lo v).jig = s.jig := rfl
@[simp] theorem State.rfSet_spl (s : State) (k hi lo v : Nat) : (s.rfSet k hi lo v).spl = s.spl := rfl
@[simp] theorem State.rfSet_pwr (s : State) (k hi lo v : Nat) : (s.rfSet k hi lo v).pwr = s.pwr := rfl
@[simp] theorem State.rfSet_thm (s : State) (k hi lo v : Nat) : (s.rfSet k hi lo v).thm = s.thm := rfl
@[simp] theorem State.rfSet_esc (s : State) (k hi lo v : Nat) : (s.rfSet k hi lo v).esc = s.esc := rfl
@[simp] theorem State.rfSet_brup (s : State) (k hi lo v : Nat) : (s.rfSet k hi lo v).brup = s.brup := rfl
@[simp] theorem State.rfSet_pair (s : State) (k hi lo v : Nat) : (s.rfSet k hi lo v).pair = s.pair := rfl

/-! ## rbSet changes regs only -/

@[simp] theorem State.rbSet_pending (s : State) (k i : Nat) (b : Bool) : (s.rbSet k i b).pending = s.pending := rfl
@[simp] theorem State.rbSet_now (s : State) (k i : Nat) (b : Bool) : (s.rbSet k i b).now = s.now := rfl
@[simp] theorem State.rbSet_free (s : State) (k i : Nat) (b : Bool) : (s.rbSet k i b).free = s.free := rfl
@[simp] theorem State.rbSet_reply (s : State) (k i : Nat) (b : Bool) : (s.rbSet k i b).reply = s.reply := rfl
@[simp] theorem State.rbSet_outbox (s : State) (k i : Nat) (b : Bool) : (s.rbSet k i b).outbox = s.outbox := rfl
@[simp] theorem State.rbSet_setAt (s : State) (k i : Nat) (b : Bool) : (s.rbSet k i b).setAt = s.setAt := rfl
@[simp] theorem State.rbSet_latches (s : State) (k i : Nat) (b : Bool) : (s.rbSet k i b).latches = s.latches := rfl
@[simp] theorem State.rbSet_heldWrites (s : State) (k i : Nat) (b : Bool) : (s.rbSet k i b).heldWrites = s.heldWrites := rfl
@[simp] theorem State.rbSet_fuses (s : State) (k i : Nat) (b : Bool) : (s.rbSet k i b).fuses = s.fuses := rfl
@[simp] theorem State.rbSet_nor (s : State) (k i : Nat) (b : Bool) : (s.rbSet k i b).nor = s.nor := rfl
@[simp] theorem State.rbSet_ptn (s : State) (k i : Nat) (b : Bool) : (s.rbSet k i b).ptn = s.ptn := rfl
@[simp] theorem State.rbSet_tick (s : State) (k i : Nat) (b : Bool) : (s.rbSet k i b).tick = s.tick := rfl
@[simp] theorem State.rbSet_parts (s : State) (k i : Nat) (b : Bool) : (s.rbSet k i b).parts = s.parts := rfl
@[simp] theorem State.rbSet_bar4 (s : State) (k i : Nat) (b : Bool) : (s.rbSet k i b).bar4 = s.bar4 := rfl
@[simp] theorem State.rbSet_log (s : State) (k i : Nat) (b : Bool) : (s.rbSet k i b).log = s.log := rfl
@[simp] theorem State.rbSet_irq (s : State) (k i : Nat) (b : Bool) : (s.rbSet k i b).irq = s.irq := rfl
@[simp] theorem State.rbSet_host (s : State) (k i : Nat) (b : Bool) : (s.rbSet k i b).host = s.host := rfl
@[simp] theorem State.rbSet_pins (s : State) (k i : Nat) (b : Bool) : (s.rbSet k i b).pins = s.pins := rfl
@[simp] theorem State.rbSet_mgmt (s : State) (k i : Nat) (b : Bool) : (s.rbSet k i b).mgmt = s.mgmt := rfl
@[simp] theorem State.rbSet_lin (s : State) (k i : Nat) (b : Bool) : (s.rbSet k i b).lin = s.lin := rfl
@[simp] theorem State.rbSet_hbm (s : State) (k i : Nat) (b : Bool) : (s.rbSet k i b).hbm = s.hbm := rfl
@[simp] theorem State.rbSet_net (s : State) (k i : Nat) (b : Bool) : (s.rbSet k i b).net = s.net := rfl
@[simp] theorem State.rbSet_cores (s : State) (k i : Nat) (b : Bool) : (s.rbSet k i b).cores = s.cores := rfl
@[simp] theorem State.rbSet_groups (s : State) (k i : Nat) (b : Bool) : (s.rbSet k i b).groups = s.groups := rfl
@[simp] theorem State.rbSet_parks (s : State) (k i : Nat) (b : Bool) : (s.rbSet k i b).parks = s.parks := rfl
@[simp] theorem State.rbSet_away (s : State) (k i : Nat) (b : Bool) : (s.rbSet k i b).away = s.away := rfl
@[simp] theorem State.rbSet_staging (s : State) (k i : Nat) (b : Bool) : (s.rbSet k i b).staging = s.staging := rfl
@[simp] theorem State.rbSet_acc (s : State) (k i : Nat) (b : Bool) : (s.rbSet k i b).acc = s.acc := rfl
@[simp] theorem State.rbSet_accFlags (s : State) (k i : Nat) (b : Bool) : (s.rbSet k i b).accFlags = s.accFlags := rfl
@[simp] theorem State.rbSet_rng (s : State) (k i : Nat) (b : Bool) : (s.rbSet k i b).rng = s.rng := rfl
@[simp] theorem State.rbSet_fit (s : State) (k i : Nat) (b : Bool) : (s.rbSet k i b).fit = s.fit := rfl
@[simp] theorem State.rbSet_fitLatch (s : State) (k i : Nat) (b : Bool) : (s.rbSet k i b).fitLatch = s.fitLatch := rfl
@[simp] theorem State.rbSet_jig (s : State) (k i : Nat) (b : Bool) : (s.rbSet k i b).jig = s.jig := rfl
@[simp] theorem State.rbSet_spl (s : State) (k i : Nat) (b : Bool) : (s.rbSet k i b).spl = s.spl := rfl
@[simp] theorem State.rbSet_pwr (s : State) (k i : Nat) (b : Bool) : (s.rbSet k i b).pwr = s.pwr := rfl
@[simp] theorem State.rbSet_thm (s : State) (k i : Nat) (b : Bool) : (s.rbSet k i b).thm = s.thm := rfl
@[simp] theorem State.rbSet_esc (s : State) (k i : Nat) (b : Bool) : (s.rbSet k i b).esc = s.esc := rfl
@[simp] theorem State.rbSet_brup (s : State) (k i : Nat) (b : Bool) : (s.rbSet k i b).brup = s.brup := rfl
@[simp] theorem State.rbSet_pair (s : State) (k i : Nat) (b : Bool) : (s.rbSet k i b).pair = s.pair := rfl

/-! ## rg64Set changes regs only -/

@[simp] theorem State.rg64Set_pending (s : State) (k v : Nat) : (s.rg64Set k v).pending = s.pending := rfl
@[simp] theorem State.rg64Set_now (s : State) (k v : Nat) : (s.rg64Set k v).now = s.now := rfl
@[simp] theorem State.rg64Set_free (s : State) (k v : Nat) : (s.rg64Set k v).free = s.free := rfl
@[simp] theorem State.rg64Set_reply (s : State) (k v : Nat) : (s.rg64Set k v).reply = s.reply := rfl
@[simp] theorem State.rg64Set_outbox (s : State) (k v : Nat) : (s.rg64Set k v).outbox = s.outbox := rfl
@[simp] theorem State.rg64Set_setAt (s : State) (k v : Nat) : (s.rg64Set k v).setAt = s.setAt := rfl
@[simp] theorem State.rg64Set_latches (s : State) (k v : Nat) : (s.rg64Set k v).latches = s.latches := rfl
@[simp] theorem State.rg64Set_heldWrites (s : State) (k v : Nat) : (s.rg64Set k v).heldWrites = s.heldWrites := rfl
@[simp] theorem State.rg64Set_fuses (s : State) (k v : Nat) : (s.rg64Set k v).fuses = s.fuses := rfl
@[simp] theorem State.rg64Set_nor (s : State) (k v : Nat) : (s.rg64Set k v).nor = s.nor := rfl
@[simp] theorem State.rg64Set_ptn (s : State) (k v : Nat) : (s.rg64Set k v).ptn = s.ptn := rfl
@[simp] theorem State.rg64Set_tick (s : State) (k v : Nat) : (s.rg64Set k v).tick = s.tick := rfl
@[simp] theorem State.rg64Set_parts (s : State) (k v : Nat) : (s.rg64Set k v).parts = s.parts := rfl
@[simp] theorem State.rg64Set_bar4 (s : State) (k v : Nat) : (s.rg64Set k v).bar4 = s.bar4 := rfl
@[simp] theorem State.rg64Set_log (s : State) (k v : Nat) : (s.rg64Set k v).log = s.log := rfl
@[simp] theorem State.rg64Set_irq (s : State) (k v : Nat) : (s.rg64Set k v).irq = s.irq := rfl
@[simp] theorem State.rg64Set_host (s : State) (k v : Nat) : (s.rg64Set k v).host = s.host := rfl
@[simp] theorem State.rg64Set_pins (s : State) (k v : Nat) : (s.rg64Set k v).pins = s.pins := rfl
@[simp] theorem State.rg64Set_mgmt (s : State) (k v : Nat) : (s.rg64Set k v).mgmt = s.mgmt := rfl
@[simp] theorem State.rg64Set_lin (s : State) (k v : Nat) : (s.rg64Set k v).lin = s.lin := rfl
@[simp] theorem State.rg64Set_hbm (s : State) (k v : Nat) : (s.rg64Set k v).hbm = s.hbm := rfl
@[simp] theorem State.rg64Set_net (s : State) (k v : Nat) : (s.rg64Set k v).net = s.net := rfl
@[simp] theorem State.rg64Set_cores (s : State) (k v : Nat) : (s.rg64Set k v).cores = s.cores := rfl
@[simp] theorem State.rg64Set_groups (s : State) (k v : Nat) : (s.rg64Set k v).groups = s.groups := rfl
@[simp] theorem State.rg64Set_parks (s : State) (k v : Nat) : (s.rg64Set k v).parks = s.parks := rfl
@[simp] theorem State.rg64Set_away (s : State) (k v : Nat) : (s.rg64Set k v).away = s.away := rfl
@[simp] theorem State.rg64Set_staging (s : State) (k v : Nat) : (s.rg64Set k v).staging = s.staging := rfl
@[simp] theorem State.rg64Set_acc (s : State) (k v : Nat) : (s.rg64Set k v).acc = s.acc := rfl
@[simp] theorem State.rg64Set_accFlags (s : State) (k v : Nat) : (s.rg64Set k v).accFlags = s.accFlags := rfl
@[simp] theorem State.rg64Set_rng (s : State) (k v : Nat) : (s.rg64Set k v).rng = s.rng := rfl
@[simp] theorem State.rg64Set_fit (s : State) (k v : Nat) : (s.rg64Set k v).fit = s.fit := rfl
@[simp] theorem State.rg64Set_fitLatch (s : State) (k v : Nat) : (s.rg64Set k v).fitLatch = s.fitLatch := rfl
@[simp] theorem State.rg64Set_jig (s : State) (k v : Nat) : (s.rg64Set k v).jig = s.jig := rfl
@[simp] theorem State.rg64Set_spl (s : State) (k v : Nat) : (s.rg64Set k v).spl = s.spl := rfl
@[simp] theorem State.rg64Set_pwr (s : State) (k v : Nat) : (s.rg64Set k v).pwr = s.pwr := rfl
@[simp] theorem State.rg64Set_thm (s : State) (k v : Nat) : (s.rg64Set k v).thm = s.thm := rfl
@[simp] theorem State.rg64Set_esc (s : State) (k v : Nat) : (s.rg64Set k v).esc = s.esc := rfl
@[simp] theorem State.rg64Set_brup (s : State) (k v : Nat) : (s.rg64Set k v).brup = s.brup := rfl
@[simp] theorem State.rg64Set_pair (s : State) (k v : Nat) : (s.rg64Set k v).pair = s.pair := rfl

/-! ## rAdd changes regs only -/

@[simp] theorem State.rAdd_pending (s : State) (k hi lo n : Nat) : (s.rAdd k hi lo n).pending = s.pending := rfl
@[simp] theorem State.rAdd_now (s : State) (k hi lo n : Nat) : (s.rAdd k hi lo n).now = s.now := rfl
@[simp] theorem State.rAdd_free (s : State) (k hi lo n : Nat) : (s.rAdd k hi lo n).free = s.free := rfl
@[simp] theorem State.rAdd_reply (s : State) (k hi lo n : Nat) : (s.rAdd k hi lo n).reply = s.reply := rfl
@[simp] theorem State.rAdd_outbox (s : State) (k hi lo n : Nat) : (s.rAdd k hi lo n).outbox = s.outbox := rfl
@[simp] theorem State.rAdd_setAt (s : State) (k hi lo n : Nat) : (s.rAdd k hi lo n).setAt = s.setAt := rfl
@[simp] theorem State.rAdd_latches (s : State) (k hi lo n : Nat) : (s.rAdd k hi lo n).latches = s.latches := rfl
@[simp] theorem State.rAdd_heldWrites (s : State) (k hi lo n : Nat) : (s.rAdd k hi lo n).heldWrites = s.heldWrites := rfl
@[simp] theorem State.rAdd_fuses (s : State) (k hi lo n : Nat) : (s.rAdd k hi lo n).fuses = s.fuses := rfl
@[simp] theorem State.rAdd_nor (s : State) (k hi lo n : Nat) : (s.rAdd k hi lo n).nor = s.nor := rfl
@[simp] theorem State.rAdd_ptn (s : State) (k hi lo n : Nat) : (s.rAdd k hi lo n).ptn = s.ptn := rfl
@[simp] theorem State.rAdd_tick (s : State) (k hi lo n : Nat) : (s.rAdd k hi lo n).tick = s.tick := rfl
@[simp] theorem State.rAdd_parts (s : State) (k hi lo n : Nat) : (s.rAdd k hi lo n).parts = s.parts := rfl
@[simp] theorem State.rAdd_bar4 (s : State) (k hi lo n : Nat) : (s.rAdd k hi lo n).bar4 = s.bar4 := rfl
@[simp] theorem State.rAdd_log (s : State) (k hi lo n : Nat) : (s.rAdd k hi lo n).log = s.log := rfl
@[simp] theorem State.rAdd_irq (s : State) (k hi lo n : Nat) : (s.rAdd k hi lo n).irq = s.irq := rfl
@[simp] theorem State.rAdd_host (s : State) (k hi lo n : Nat) : (s.rAdd k hi lo n).host = s.host := rfl
@[simp] theorem State.rAdd_pins (s : State) (k hi lo n : Nat) : (s.rAdd k hi lo n).pins = s.pins := rfl
@[simp] theorem State.rAdd_mgmt (s : State) (k hi lo n : Nat) : (s.rAdd k hi lo n).mgmt = s.mgmt := rfl
@[simp] theorem State.rAdd_lin (s : State) (k hi lo n : Nat) : (s.rAdd k hi lo n).lin = s.lin := rfl
@[simp] theorem State.rAdd_hbm (s : State) (k hi lo n : Nat) : (s.rAdd k hi lo n).hbm = s.hbm := rfl
@[simp] theorem State.rAdd_net (s : State) (k hi lo n : Nat) : (s.rAdd k hi lo n).net = s.net := rfl
@[simp] theorem State.rAdd_cores (s : State) (k hi lo n : Nat) : (s.rAdd k hi lo n).cores = s.cores := rfl
@[simp] theorem State.rAdd_groups (s : State) (k hi lo n : Nat) : (s.rAdd k hi lo n).groups = s.groups := rfl
@[simp] theorem State.rAdd_parks (s : State) (k hi lo n : Nat) : (s.rAdd k hi lo n).parks = s.parks := rfl
@[simp] theorem State.rAdd_away (s : State) (k hi lo n : Nat) : (s.rAdd k hi lo n).away = s.away := rfl
@[simp] theorem State.rAdd_staging (s : State) (k hi lo n : Nat) : (s.rAdd k hi lo n).staging = s.staging := rfl
@[simp] theorem State.rAdd_acc (s : State) (k hi lo n : Nat) : (s.rAdd k hi lo n).acc = s.acc := rfl
@[simp] theorem State.rAdd_accFlags (s : State) (k hi lo n : Nat) : (s.rAdd k hi lo n).accFlags = s.accFlags := rfl
@[simp] theorem State.rAdd_rng (s : State) (k hi lo n : Nat) : (s.rAdd k hi lo n).rng = s.rng := rfl
@[simp] theorem State.rAdd_fit (s : State) (k hi lo n : Nat) : (s.rAdd k hi lo n).fit = s.fit := rfl
@[simp] theorem State.rAdd_fitLatch (s : State) (k hi lo n : Nat) : (s.rAdd k hi lo n).fitLatch = s.fitLatch := rfl
@[simp] theorem State.rAdd_jig (s : State) (k hi lo n : Nat) : (s.rAdd k hi lo n).jig = s.jig := rfl
@[simp] theorem State.rAdd_spl (s : State) (k hi lo n : Nat) : (s.rAdd k hi lo n).spl = s.spl := rfl
@[simp] theorem State.rAdd_pwr (s : State) (k hi lo n : Nat) : (s.rAdd k hi lo n).pwr = s.pwr := rfl
@[simp] theorem State.rAdd_thm (s : State) (k hi lo n : Nat) : (s.rAdd k hi lo n).thm = s.thm := rfl
@[simp] theorem State.rAdd_esc (s : State) (k hi lo n : Nat) : (s.rAdd k hi lo n).esc = s.esc := rfl
@[simp] theorem State.rAdd_brup (s : State) (k hi lo n : Nat) : (s.rAdd k hi lo n).brup = s.brup := rfl
@[simp] theorem State.rAdd_pair (s : State) (k hi lo n : Nat) : (s.rAdd k hi lo n).pair = s.pair := rfl

/-! ## rSat changes regs only -/

@[simp] theorem State.rSat_pending (s : State) (k hi lo n : Nat) : (s.rSat k hi lo n).pending = s.pending := rfl
@[simp] theorem State.rSat_now (s : State) (k hi lo n : Nat) : (s.rSat k hi lo n).now = s.now := rfl
@[simp] theorem State.rSat_free (s : State) (k hi lo n : Nat) : (s.rSat k hi lo n).free = s.free := rfl
@[simp] theorem State.rSat_reply (s : State) (k hi lo n : Nat) : (s.rSat k hi lo n).reply = s.reply := rfl
@[simp] theorem State.rSat_outbox (s : State) (k hi lo n : Nat) : (s.rSat k hi lo n).outbox = s.outbox := rfl
@[simp] theorem State.rSat_setAt (s : State) (k hi lo n : Nat) : (s.rSat k hi lo n).setAt = s.setAt := rfl
@[simp] theorem State.rSat_latches (s : State) (k hi lo n : Nat) : (s.rSat k hi lo n).latches = s.latches := rfl
@[simp] theorem State.rSat_heldWrites (s : State) (k hi lo n : Nat) : (s.rSat k hi lo n).heldWrites = s.heldWrites := rfl
@[simp] theorem State.rSat_fuses (s : State) (k hi lo n : Nat) : (s.rSat k hi lo n).fuses = s.fuses := rfl
@[simp] theorem State.rSat_nor (s : State) (k hi lo n : Nat) : (s.rSat k hi lo n).nor = s.nor := rfl
@[simp] theorem State.rSat_ptn (s : State) (k hi lo n : Nat) : (s.rSat k hi lo n).ptn = s.ptn := rfl
@[simp] theorem State.rSat_tick (s : State) (k hi lo n : Nat) : (s.rSat k hi lo n).tick = s.tick := rfl
@[simp] theorem State.rSat_parts (s : State) (k hi lo n : Nat) : (s.rSat k hi lo n).parts = s.parts := rfl
@[simp] theorem State.rSat_bar4 (s : State) (k hi lo n : Nat) : (s.rSat k hi lo n).bar4 = s.bar4 := rfl
@[simp] theorem State.rSat_log (s : State) (k hi lo n : Nat) : (s.rSat k hi lo n).log = s.log := rfl
@[simp] theorem State.rSat_irq (s : State) (k hi lo n : Nat) : (s.rSat k hi lo n).irq = s.irq := rfl
@[simp] theorem State.rSat_host (s : State) (k hi lo n : Nat) : (s.rSat k hi lo n).host = s.host := rfl
@[simp] theorem State.rSat_pins (s : State) (k hi lo n : Nat) : (s.rSat k hi lo n).pins = s.pins := rfl
@[simp] theorem State.rSat_mgmt (s : State) (k hi lo n : Nat) : (s.rSat k hi lo n).mgmt = s.mgmt := rfl
@[simp] theorem State.rSat_lin (s : State) (k hi lo n : Nat) : (s.rSat k hi lo n).lin = s.lin := rfl
@[simp] theorem State.rSat_hbm (s : State) (k hi lo n : Nat) : (s.rSat k hi lo n).hbm = s.hbm := rfl
@[simp] theorem State.rSat_net (s : State) (k hi lo n : Nat) : (s.rSat k hi lo n).net = s.net := rfl
@[simp] theorem State.rSat_cores (s : State) (k hi lo n : Nat) : (s.rSat k hi lo n).cores = s.cores := rfl
@[simp] theorem State.rSat_groups (s : State) (k hi lo n : Nat) : (s.rSat k hi lo n).groups = s.groups := rfl
@[simp] theorem State.rSat_parks (s : State) (k hi lo n : Nat) : (s.rSat k hi lo n).parks = s.parks := rfl
@[simp] theorem State.rSat_away (s : State) (k hi lo n : Nat) : (s.rSat k hi lo n).away = s.away := rfl
@[simp] theorem State.rSat_staging (s : State) (k hi lo n : Nat) : (s.rSat k hi lo n).staging = s.staging := rfl
@[simp] theorem State.rSat_acc (s : State) (k hi lo n : Nat) : (s.rSat k hi lo n).acc = s.acc := rfl
@[simp] theorem State.rSat_accFlags (s : State) (k hi lo n : Nat) : (s.rSat k hi lo n).accFlags = s.accFlags := rfl
@[simp] theorem State.rSat_rng (s : State) (k hi lo n : Nat) : (s.rSat k hi lo n).rng = s.rng := rfl
@[simp] theorem State.rSat_fit (s : State) (k hi lo n : Nat) : (s.rSat k hi lo n).fit = s.fit := rfl
@[simp] theorem State.rSat_fitLatch (s : State) (k hi lo n : Nat) : (s.rSat k hi lo n).fitLatch = s.fitLatch := rfl
@[simp] theorem State.rSat_jig (s : State) (k hi lo n : Nat) : (s.rSat k hi lo n).jig = s.jig := rfl
@[simp] theorem State.rSat_spl (s : State) (k hi lo n : Nat) : (s.rSat k hi lo n).spl = s.spl := rfl
@[simp] theorem State.rSat_pwr (s : State) (k hi lo n : Nat) : (s.rSat k hi lo n).pwr = s.pwr := rfl
@[simp] theorem State.rSat_thm (s : State) (k hi lo n : Nat) : (s.rSat k hi lo n).thm = s.thm := rfl
@[simp] theorem State.rSat_esc (s : State) (k hi lo n : Nat) : (s.rSat k hi lo n).esc = s.esc := rfl
@[simp] theorem State.rSat_brup (s : State) (k hi lo n : Nat) : (s.rSat k hi lo n).brup = s.brup := rfl
@[simp] theorem State.rSat_pair (s : State) (k hi lo n : Nat) : (s.rSat k hi lo n).pair = s.pair := rfl

/-! ## rAdd64 changes regs only -/

@[simp] theorem State.rAdd64_pending (s : State) (k n : Nat) : (s.rAdd64 k n).pending = s.pending := rfl
@[simp] theorem State.rAdd64_now (s : State) (k n : Nat) : (s.rAdd64 k n).now = s.now := rfl
@[simp] theorem State.rAdd64_free (s : State) (k n : Nat) : (s.rAdd64 k n).free = s.free := rfl
@[simp] theorem State.rAdd64_reply (s : State) (k n : Nat) : (s.rAdd64 k n).reply = s.reply := rfl
@[simp] theorem State.rAdd64_outbox (s : State) (k n : Nat) : (s.rAdd64 k n).outbox = s.outbox := rfl
@[simp] theorem State.rAdd64_setAt (s : State) (k n : Nat) : (s.rAdd64 k n).setAt = s.setAt := rfl
@[simp] theorem State.rAdd64_latches (s : State) (k n : Nat) : (s.rAdd64 k n).latches = s.latches := rfl
@[simp] theorem State.rAdd64_heldWrites (s : State) (k n : Nat) : (s.rAdd64 k n).heldWrites = s.heldWrites := rfl
@[simp] theorem State.rAdd64_fuses (s : State) (k n : Nat) : (s.rAdd64 k n).fuses = s.fuses := rfl
@[simp] theorem State.rAdd64_nor (s : State) (k n : Nat) : (s.rAdd64 k n).nor = s.nor := rfl
@[simp] theorem State.rAdd64_ptn (s : State) (k n : Nat) : (s.rAdd64 k n).ptn = s.ptn := rfl
@[simp] theorem State.rAdd64_tick (s : State) (k n : Nat) : (s.rAdd64 k n).tick = s.tick := rfl
@[simp] theorem State.rAdd64_parts (s : State) (k n : Nat) : (s.rAdd64 k n).parts = s.parts := rfl
@[simp] theorem State.rAdd64_bar4 (s : State) (k n : Nat) : (s.rAdd64 k n).bar4 = s.bar4 := rfl
@[simp] theorem State.rAdd64_log (s : State) (k n : Nat) : (s.rAdd64 k n).log = s.log := rfl
@[simp] theorem State.rAdd64_irq (s : State) (k n : Nat) : (s.rAdd64 k n).irq = s.irq := rfl
@[simp] theorem State.rAdd64_host (s : State) (k n : Nat) : (s.rAdd64 k n).host = s.host := rfl
@[simp] theorem State.rAdd64_pins (s : State) (k n : Nat) : (s.rAdd64 k n).pins = s.pins := rfl
@[simp] theorem State.rAdd64_mgmt (s : State) (k n : Nat) : (s.rAdd64 k n).mgmt = s.mgmt := rfl
@[simp] theorem State.rAdd64_lin (s : State) (k n : Nat) : (s.rAdd64 k n).lin = s.lin := rfl
@[simp] theorem State.rAdd64_hbm (s : State) (k n : Nat) : (s.rAdd64 k n).hbm = s.hbm := rfl
@[simp] theorem State.rAdd64_net (s : State) (k n : Nat) : (s.rAdd64 k n).net = s.net := rfl
@[simp] theorem State.rAdd64_cores (s : State) (k n : Nat) : (s.rAdd64 k n).cores = s.cores := rfl
@[simp] theorem State.rAdd64_groups (s : State) (k n : Nat) : (s.rAdd64 k n).groups = s.groups := rfl
@[simp] theorem State.rAdd64_parks (s : State) (k n : Nat) : (s.rAdd64 k n).parks = s.parks := rfl
@[simp] theorem State.rAdd64_away (s : State) (k n : Nat) : (s.rAdd64 k n).away = s.away := rfl
@[simp] theorem State.rAdd64_staging (s : State) (k n : Nat) : (s.rAdd64 k n).staging = s.staging := rfl
@[simp] theorem State.rAdd64_acc (s : State) (k n : Nat) : (s.rAdd64 k n).acc = s.acc := rfl
@[simp] theorem State.rAdd64_accFlags (s : State) (k n : Nat) : (s.rAdd64 k n).accFlags = s.accFlags := rfl
@[simp] theorem State.rAdd64_rng (s : State) (k n : Nat) : (s.rAdd64 k n).rng = s.rng := rfl
@[simp] theorem State.rAdd64_fit (s : State) (k n : Nat) : (s.rAdd64 k n).fit = s.fit := rfl
@[simp] theorem State.rAdd64_fitLatch (s : State) (k n : Nat) : (s.rAdd64 k n).fitLatch = s.fitLatch := rfl
@[simp] theorem State.rAdd64_jig (s : State) (k n : Nat) : (s.rAdd64 k n).jig = s.jig := rfl
@[simp] theorem State.rAdd64_spl (s : State) (k n : Nat) : (s.rAdd64 k n).spl = s.spl := rfl
@[simp] theorem State.rAdd64_pwr (s : State) (k n : Nat) : (s.rAdd64 k n).pwr = s.pwr := rfl
@[simp] theorem State.rAdd64_thm (s : State) (k n : Nat) : (s.rAdd64 k n).thm = s.thm := rfl
@[simp] theorem State.rAdd64_esc (s : State) (k n : Nat) : (s.rAdd64 k n).esc = s.esc := rfl
@[simp] theorem State.rAdd64_brup (s : State) (k n : Nat) : (s.rAdd64 k n).brup = s.brup := rfl
@[simp] theorem State.rAdd64_pair (s : State) (k n : Nat) : (s.rAdd64 k n).pair = s.pair := rfl

/-! ## partSet changes parts only -/

@[simp] theorem State.partSet_pending (s : State) (p : Nat) (v : Part) : (s.partSet p v).pending = s.pending := rfl
@[simp] theorem State.partSet_now (s : State) (p : Nat) (v : Part) : (s.partSet p v).now = s.now := rfl
@[simp] theorem State.partSet_free (s : State) (p : Nat) (v : Part) : (s.partSet p v).free = s.free := rfl
@[simp] theorem State.partSet_reply (s : State) (p : Nat) (v : Part) : (s.partSet p v).reply = s.reply := rfl
@[simp] theorem State.partSet_outbox (s : State) (p : Nat) (v : Part) : (s.partSet p v).outbox = s.outbox := rfl
@[simp] theorem State.partSet_regs (s : State) (p : Nat) (v : Part) : (s.partSet p v).regs = s.regs := rfl
@[simp] theorem State.partSet_setAt (s : State) (p : Nat) (v : Part) : (s.partSet p v).setAt = s.setAt := rfl
@[simp] theorem State.partSet_latches (s : State) (p : Nat) (v : Part) : (s.partSet p v).latches = s.latches := rfl
@[simp] theorem State.partSet_heldWrites (s : State) (p : Nat) (v : Part) : (s.partSet p v).heldWrites = s.heldWrites := rfl
@[simp] theorem State.partSet_fuses (s : State) (p : Nat) (v : Part) : (s.partSet p v).fuses = s.fuses := rfl
@[simp] theorem State.partSet_nor (s : State) (p : Nat) (v : Part) : (s.partSet p v).nor = s.nor := rfl
@[simp] theorem State.partSet_ptn (s : State) (p : Nat) (v : Part) : (s.partSet p v).ptn = s.ptn := rfl
@[simp] theorem State.partSet_tick (s : State) (p : Nat) (v : Part) : (s.partSet p v).tick = s.tick := rfl
@[simp] theorem State.partSet_bar4 (s : State) (p : Nat) (v : Part) : (s.partSet p v).bar4 = s.bar4 := rfl
@[simp] theorem State.partSet_log (s : State) (p : Nat) (v : Part) : (s.partSet p v).log = s.log := rfl
@[simp] theorem State.partSet_irq (s : State) (p : Nat) (v : Part) : (s.partSet p v).irq = s.irq := rfl
@[simp] theorem State.partSet_host (s : State) (p : Nat) (v : Part) : (s.partSet p v).host = s.host := rfl
@[simp] theorem State.partSet_pins (s : State) (p : Nat) (v : Part) : (s.partSet p v).pins = s.pins := rfl
@[simp] theorem State.partSet_mgmt (s : State) (p : Nat) (v : Part) : (s.partSet p v).mgmt = s.mgmt := rfl
@[simp] theorem State.partSet_lin (s : State) (p : Nat) (v : Part) : (s.partSet p v).lin = s.lin := rfl
@[simp] theorem State.partSet_hbm (s : State) (p : Nat) (v : Part) : (s.partSet p v).hbm = s.hbm := rfl
@[simp] theorem State.partSet_net (s : State) (p : Nat) (v : Part) : (s.partSet p v).net = s.net := rfl
@[simp] theorem State.partSet_cores (s : State) (p : Nat) (v : Part) : (s.partSet p v).cores = s.cores := rfl
@[simp] theorem State.partSet_groups (s : State) (p : Nat) (v : Part) : (s.partSet p v).groups = s.groups := rfl
@[simp] theorem State.partSet_parks (s : State) (p : Nat) (v : Part) : (s.partSet p v).parks = s.parks := rfl
@[simp] theorem State.partSet_away (s : State) (p : Nat) (v : Part) : (s.partSet p v).away = s.away := rfl
@[simp] theorem State.partSet_staging (s : State) (p : Nat) (v : Part) : (s.partSet p v).staging = s.staging := rfl
@[simp] theorem State.partSet_acc (s : State) (p : Nat) (v : Part) : (s.partSet p v).acc = s.acc := rfl
@[simp] theorem State.partSet_accFlags (s : State) (p : Nat) (v : Part) : (s.partSet p v).accFlags = s.accFlags := rfl
@[simp] theorem State.partSet_rng (s : State) (p : Nat) (v : Part) : (s.partSet p v).rng = s.rng := rfl
@[simp] theorem State.partSet_fit (s : State) (p : Nat) (v : Part) : (s.partSet p v).fit = s.fit := rfl
@[simp] theorem State.partSet_fitLatch (s : State) (p : Nat) (v : Part) : (s.partSet p v).fitLatch = s.fitLatch := rfl
@[simp] theorem State.partSet_jig (s : State) (p : Nat) (v : Part) : (s.partSet p v).jig = s.jig := rfl
@[simp] theorem State.partSet_spl (s : State) (p : Nat) (v : Part) : (s.partSet p v).spl = s.spl := rfl
@[simp] theorem State.partSet_pwr (s : State) (p : Nat) (v : Part) : (s.partSet p v).pwr = s.pwr := rfl
@[simp] theorem State.partSet_thm (s : State) (p : Nat) (v : Part) : (s.partSet p v).thm = s.thm := rfl
@[simp] theorem State.partSet_esc (s : State) (p : Nat) (v : Part) : (s.partSet p v).esc = s.esc := rfl
@[simp] theorem State.partSet_brup (s : State) (p : Nat) (v : Part) : (s.partSet p v).brup = s.brup := rfl
@[simp] theorem State.partSet_pair (s : State) (p : Nat) (v : Part) : (s.partSet p v).pair = s.pair := rfl

/-! ## coreSet changes cores only -/

@[simp] theorem State.coreSet_pending (s : State) (c : Nat) (v : CoreSt) : (s.coreSet c v).pending = s.pending := rfl
@[simp] theorem State.coreSet_now (s : State) (c : Nat) (v : CoreSt) : (s.coreSet c v).now = s.now := rfl
@[simp] theorem State.coreSet_free (s : State) (c : Nat) (v : CoreSt) : (s.coreSet c v).free = s.free := rfl
@[simp] theorem State.coreSet_reply (s : State) (c : Nat) (v : CoreSt) : (s.coreSet c v).reply = s.reply := rfl
@[simp] theorem State.coreSet_outbox (s : State) (c : Nat) (v : CoreSt) : (s.coreSet c v).outbox = s.outbox := rfl
@[simp] theorem State.coreSet_regs (s : State) (c : Nat) (v : CoreSt) : (s.coreSet c v).regs = s.regs := rfl
@[simp] theorem State.coreSet_setAt (s : State) (c : Nat) (v : CoreSt) : (s.coreSet c v).setAt = s.setAt := rfl
@[simp] theorem State.coreSet_latches (s : State) (c : Nat) (v : CoreSt) : (s.coreSet c v).latches = s.latches := rfl
@[simp] theorem State.coreSet_heldWrites (s : State) (c : Nat) (v : CoreSt) : (s.coreSet c v).heldWrites = s.heldWrites := rfl
@[simp] theorem State.coreSet_fuses (s : State) (c : Nat) (v : CoreSt) : (s.coreSet c v).fuses = s.fuses := rfl
@[simp] theorem State.coreSet_nor (s : State) (c : Nat) (v : CoreSt) : (s.coreSet c v).nor = s.nor := rfl
@[simp] theorem State.coreSet_ptn (s : State) (c : Nat) (v : CoreSt) : (s.coreSet c v).ptn = s.ptn := rfl
@[simp] theorem State.coreSet_tick (s : State) (c : Nat) (v : CoreSt) : (s.coreSet c v).tick = s.tick := rfl
@[simp] theorem State.coreSet_parts (s : State) (c : Nat) (v : CoreSt) : (s.coreSet c v).parts = s.parts := rfl
@[simp] theorem State.coreSet_bar4 (s : State) (c : Nat) (v : CoreSt) : (s.coreSet c v).bar4 = s.bar4 := rfl
@[simp] theorem State.coreSet_log (s : State) (c : Nat) (v : CoreSt) : (s.coreSet c v).log = s.log := rfl
@[simp] theorem State.coreSet_irq (s : State) (c : Nat) (v : CoreSt) : (s.coreSet c v).irq = s.irq := rfl
@[simp] theorem State.coreSet_host (s : State) (c : Nat) (v : CoreSt) : (s.coreSet c v).host = s.host := rfl
@[simp] theorem State.coreSet_pins (s : State) (c : Nat) (v : CoreSt) : (s.coreSet c v).pins = s.pins := rfl
@[simp] theorem State.coreSet_mgmt (s : State) (c : Nat) (v : CoreSt) : (s.coreSet c v).mgmt = s.mgmt := rfl
@[simp] theorem State.coreSet_lin (s : State) (c : Nat) (v : CoreSt) : (s.coreSet c v).lin = s.lin := rfl
@[simp] theorem State.coreSet_hbm (s : State) (c : Nat) (v : CoreSt) : (s.coreSet c v).hbm = s.hbm := rfl
@[simp] theorem State.coreSet_net (s : State) (c : Nat) (v : CoreSt) : (s.coreSet c v).net = s.net := rfl
@[simp] theorem State.coreSet_groups (s : State) (c : Nat) (v : CoreSt) : (s.coreSet c v).groups = s.groups := rfl
@[simp] theorem State.coreSet_parks (s : State) (c : Nat) (v : CoreSt) : (s.coreSet c v).parks = s.parks := rfl
@[simp] theorem State.coreSet_away (s : State) (c : Nat) (v : CoreSt) : (s.coreSet c v).away = s.away := rfl
@[simp] theorem State.coreSet_staging (s : State) (c : Nat) (v : CoreSt) : (s.coreSet c v).staging = s.staging := rfl
@[simp] theorem State.coreSet_acc (s : State) (c : Nat) (v : CoreSt) : (s.coreSet c v).acc = s.acc := rfl
@[simp] theorem State.coreSet_accFlags (s : State) (c : Nat) (v : CoreSt) : (s.coreSet c v).accFlags = s.accFlags := rfl
@[simp] theorem State.coreSet_rng (s : State) (c : Nat) (v : CoreSt) : (s.coreSet c v).rng = s.rng := rfl
@[simp] theorem State.coreSet_fit (s : State) (c : Nat) (v : CoreSt) : (s.coreSet c v).fit = s.fit := rfl
@[simp] theorem State.coreSet_fitLatch (s : State) (c : Nat) (v : CoreSt) : (s.coreSet c v).fitLatch = s.fitLatch := rfl
@[simp] theorem State.coreSet_jig (s : State) (c : Nat) (v : CoreSt) : (s.coreSet c v).jig = s.jig := rfl
@[simp] theorem State.coreSet_spl (s : State) (c : Nat) (v : CoreSt) : (s.coreSet c v).spl = s.spl := rfl
@[simp] theorem State.coreSet_pwr (s : State) (c : Nat) (v : CoreSt) : (s.coreSet c v).pwr = s.pwr := rfl
@[simp] theorem State.coreSet_thm (s : State) (c : Nat) (v : CoreSt) : (s.coreSet c v).thm = s.thm := rfl
@[simp] theorem State.coreSet_esc (s : State) (c : Nat) (v : CoreSt) : (s.coreSet c v).esc = s.esc := rfl
@[simp] theorem State.coreSet_brup (s : State) (c : Nat) (v : CoreSt) : (s.coreSet c v).brup = s.brup := rfl
@[simp] theorem State.coreSet_pair (s : State) (c : Nat) (v : CoreSt) : (s.coreSet c v).pair = s.pair := rfl

/-! ## groupSet changes groups only -/

@[simp] theorem State.groupSet_pending (s : State) (g : Nat) (v : Group) : (s.groupSet g v).pending = s.pending := rfl
@[simp] theorem State.groupSet_now (s : State) (g : Nat) (v : Group) : (s.groupSet g v).now = s.now := rfl
@[simp] theorem State.groupSet_free (s : State) (g : Nat) (v : Group) : (s.groupSet g v).free = s.free := rfl
@[simp] theorem State.groupSet_reply (s : State) (g : Nat) (v : Group) : (s.groupSet g v).reply = s.reply := rfl
@[simp] theorem State.groupSet_outbox (s : State) (g : Nat) (v : Group) : (s.groupSet g v).outbox = s.outbox := rfl
@[simp] theorem State.groupSet_regs (s : State) (g : Nat) (v : Group) : (s.groupSet g v).regs = s.regs := rfl
@[simp] theorem State.groupSet_setAt (s : State) (g : Nat) (v : Group) : (s.groupSet g v).setAt = s.setAt := rfl
@[simp] theorem State.groupSet_latches (s : State) (g : Nat) (v : Group) : (s.groupSet g v).latches = s.latches := rfl
@[simp] theorem State.groupSet_heldWrites (s : State) (g : Nat) (v : Group) : (s.groupSet g v).heldWrites = s.heldWrites := rfl
@[simp] theorem State.groupSet_fuses (s : State) (g : Nat) (v : Group) : (s.groupSet g v).fuses = s.fuses := rfl
@[simp] theorem State.groupSet_nor (s : State) (g : Nat) (v : Group) : (s.groupSet g v).nor = s.nor := rfl
@[simp] theorem State.groupSet_ptn (s : State) (g : Nat) (v : Group) : (s.groupSet g v).ptn = s.ptn := rfl
@[simp] theorem State.groupSet_tick (s : State) (g : Nat) (v : Group) : (s.groupSet g v).tick = s.tick := rfl
@[simp] theorem State.groupSet_parts (s : State) (g : Nat) (v : Group) : (s.groupSet g v).parts = s.parts := rfl
@[simp] theorem State.groupSet_bar4 (s : State) (g : Nat) (v : Group) : (s.groupSet g v).bar4 = s.bar4 := rfl
@[simp] theorem State.groupSet_log (s : State) (g : Nat) (v : Group) : (s.groupSet g v).log = s.log := rfl
@[simp] theorem State.groupSet_irq (s : State) (g : Nat) (v : Group) : (s.groupSet g v).irq = s.irq := rfl
@[simp] theorem State.groupSet_host (s : State) (g : Nat) (v : Group) : (s.groupSet g v).host = s.host := rfl
@[simp] theorem State.groupSet_pins (s : State) (g : Nat) (v : Group) : (s.groupSet g v).pins = s.pins := rfl
@[simp] theorem State.groupSet_mgmt (s : State) (g : Nat) (v : Group) : (s.groupSet g v).mgmt = s.mgmt := rfl
@[simp] theorem State.groupSet_lin (s : State) (g : Nat) (v : Group) : (s.groupSet g v).lin = s.lin := rfl
@[simp] theorem State.groupSet_hbm (s : State) (g : Nat) (v : Group) : (s.groupSet g v).hbm = s.hbm := rfl
@[simp] theorem State.groupSet_net (s : State) (g : Nat) (v : Group) : (s.groupSet g v).net = s.net := rfl
@[simp] theorem State.groupSet_cores (s : State) (g : Nat) (v : Group) : (s.groupSet g v).cores = s.cores := rfl
@[simp] theorem State.groupSet_parks (s : State) (g : Nat) (v : Group) : (s.groupSet g v).parks = s.parks := rfl
@[simp] theorem State.groupSet_away (s : State) (g : Nat) (v : Group) : (s.groupSet g v).away = s.away := rfl
@[simp] theorem State.groupSet_staging (s : State) (g : Nat) (v : Group) : (s.groupSet g v).staging = s.staging := rfl
@[simp] theorem State.groupSet_acc (s : State) (g : Nat) (v : Group) : (s.groupSet g v).acc = s.acc := rfl
@[simp] theorem State.groupSet_accFlags (s : State) (g : Nat) (v : Group) : (s.groupSet g v).accFlags = s.accFlags := rfl
@[simp] theorem State.groupSet_rng (s : State) (g : Nat) (v : Group) : (s.groupSet g v).rng = s.rng := rfl
@[simp] theorem State.groupSet_fit (s : State) (g : Nat) (v : Group) : (s.groupSet g v).fit = s.fit := rfl
@[simp] theorem State.groupSet_fitLatch (s : State) (g : Nat) (v : Group) : (s.groupSet g v).fitLatch = s.fitLatch := rfl
@[simp] theorem State.groupSet_jig (s : State) (g : Nat) (v : Group) : (s.groupSet g v).jig = s.jig := rfl
@[simp] theorem State.groupSet_spl (s : State) (g : Nat) (v : Group) : (s.groupSet g v).spl = s.spl := rfl
@[simp] theorem State.groupSet_pwr (s : State) (g : Nat) (v : Group) : (s.groupSet g v).pwr = s.pwr := rfl
@[simp] theorem State.groupSet_thm (s : State) (g : Nat) (v : Group) : (s.groupSet g v).thm = s.thm := rfl
@[simp] theorem State.groupSet_esc (s : State) (g : Nat) (v : Group) : (s.groupSet g v).esc = s.esc := rfl
@[simp] theorem State.groupSet_brup (s : State) (g : Nat) (v : Group) : (s.groupSet g v).brup = s.brup := rfl
@[simp] theorem State.groupSet_pair (s : State) (g : Nat) (v : Group) : (s.groupSet g v).pair = s.pair := rfl

/-! ## chanSet changes jig only -/

@[simp] theorem State.chanSet_pending (s : State) (n : Nat) (v : Chan) : (s.chanSet n v).pending = s.pending := rfl
@[simp] theorem State.chanSet_now (s : State) (n : Nat) (v : Chan) : (s.chanSet n v).now = s.now := rfl
@[simp] theorem State.chanSet_free (s : State) (n : Nat) (v : Chan) : (s.chanSet n v).free = s.free := rfl
@[simp] theorem State.chanSet_reply (s : State) (n : Nat) (v : Chan) : (s.chanSet n v).reply = s.reply := rfl
@[simp] theorem State.chanSet_outbox (s : State) (n : Nat) (v : Chan) : (s.chanSet n v).outbox = s.outbox := rfl
@[simp] theorem State.chanSet_regs (s : State) (n : Nat) (v : Chan) : (s.chanSet n v).regs = s.regs := rfl
@[simp] theorem State.chanSet_setAt (s : State) (n : Nat) (v : Chan) : (s.chanSet n v).setAt = s.setAt := rfl
@[simp] theorem State.chanSet_latches (s : State) (n : Nat) (v : Chan) : (s.chanSet n v).latches = s.latches := rfl
@[simp] theorem State.chanSet_heldWrites (s : State) (n : Nat) (v : Chan) : (s.chanSet n v).heldWrites = s.heldWrites := rfl
@[simp] theorem State.chanSet_fuses (s : State) (n : Nat) (v : Chan) : (s.chanSet n v).fuses = s.fuses := rfl
@[simp] theorem State.chanSet_nor (s : State) (n : Nat) (v : Chan) : (s.chanSet n v).nor = s.nor := rfl
@[simp] theorem State.chanSet_ptn (s : State) (n : Nat) (v : Chan) : (s.chanSet n v).ptn = s.ptn := rfl
@[simp] theorem State.chanSet_tick (s : State) (n : Nat) (v : Chan) : (s.chanSet n v).tick = s.tick := rfl
@[simp] theorem State.chanSet_parts (s : State) (n : Nat) (v : Chan) : (s.chanSet n v).parts = s.parts := rfl
@[simp] theorem State.chanSet_bar4 (s : State) (n : Nat) (v : Chan) : (s.chanSet n v).bar4 = s.bar4 := rfl
@[simp] theorem State.chanSet_log (s : State) (n : Nat) (v : Chan) : (s.chanSet n v).log = s.log := rfl
@[simp] theorem State.chanSet_irq (s : State) (n : Nat) (v : Chan) : (s.chanSet n v).irq = s.irq := rfl
@[simp] theorem State.chanSet_host (s : State) (n : Nat) (v : Chan) : (s.chanSet n v).host = s.host := rfl
@[simp] theorem State.chanSet_pins (s : State) (n : Nat) (v : Chan) : (s.chanSet n v).pins = s.pins := rfl
@[simp] theorem State.chanSet_mgmt (s : State) (n : Nat) (v : Chan) : (s.chanSet n v).mgmt = s.mgmt := rfl
@[simp] theorem State.chanSet_lin (s : State) (n : Nat) (v : Chan) : (s.chanSet n v).lin = s.lin := rfl
@[simp] theorem State.chanSet_hbm (s : State) (n : Nat) (v : Chan) : (s.chanSet n v).hbm = s.hbm := rfl
@[simp] theorem State.chanSet_net (s : State) (n : Nat) (v : Chan) : (s.chanSet n v).net = s.net := rfl
@[simp] theorem State.chanSet_cores (s : State) (n : Nat) (v : Chan) : (s.chanSet n v).cores = s.cores := rfl
@[simp] theorem State.chanSet_groups (s : State) (n : Nat) (v : Chan) : (s.chanSet n v).groups = s.groups := rfl
@[simp] theorem State.chanSet_parks (s : State) (n : Nat) (v : Chan) : (s.chanSet n v).parks = s.parks := rfl
@[simp] theorem State.chanSet_away (s : State) (n : Nat) (v : Chan) : (s.chanSet n v).away = s.away := rfl
@[simp] theorem State.chanSet_staging (s : State) (n : Nat) (v : Chan) : (s.chanSet n v).staging = s.staging := rfl
@[simp] theorem State.chanSet_acc (s : State) (n : Nat) (v : Chan) : (s.chanSet n v).acc = s.acc := rfl
@[simp] theorem State.chanSet_accFlags (s : State) (n : Nat) (v : Chan) : (s.chanSet n v).accFlags = s.accFlags := rfl
@[simp] theorem State.chanSet_rng (s : State) (n : Nat) (v : Chan) : (s.chanSet n v).rng = s.rng := rfl
@[simp] theorem State.chanSet_fit (s : State) (n : Nat) (v : Chan) : (s.chanSet n v).fit = s.fit := rfl
@[simp] theorem State.chanSet_fitLatch (s : State) (n : Nat) (v : Chan) : (s.chanSet n v).fitLatch = s.fitLatch := rfl
@[simp] theorem State.chanSet_spl (s : State) (n : Nat) (v : Chan) : (s.chanSet n v).spl = s.spl := rfl
@[simp] theorem State.chanSet_pwr (s : State) (n : Nat) (v : Chan) : (s.chanSet n v).pwr = s.pwr := rfl
@[simp] theorem State.chanSet_thm (s : State) (n : Nat) (v : Chan) : (s.chanSet n v).thm = s.thm := rfl
@[simp] theorem State.chanSet_esc (s : State) (n : Nat) (v : Chan) : (s.chanSet n v).esc = s.esc := rfl
@[simp] theorem State.chanSet_brup (s : State) (n : Nat) (v : Chan) : (s.chanSet n v).brup = s.brup := rfl
@[simp] theorem State.chanSet_pair (s : State) (n : Nat) (v : Chan) : (s.chanSet n v).pair = s.pair := rfl

/-! ## linkSet changes spl only -/

@[simp] theorem State.linkSet_pending (s : State) (n : Nat) (v : SLink) : (s.linkSet n v).pending = s.pending := rfl
@[simp] theorem State.linkSet_now (s : State) (n : Nat) (v : SLink) : (s.linkSet n v).now = s.now := rfl
@[simp] theorem State.linkSet_free (s : State) (n : Nat) (v : SLink) : (s.linkSet n v).free = s.free := rfl
@[simp] theorem State.linkSet_reply (s : State) (n : Nat) (v : SLink) : (s.linkSet n v).reply = s.reply := rfl
@[simp] theorem State.linkSet_outbox (s : State) (n : Nat) (v : SLink) : (s.linkSet n v).outbox = s.outbox := rfl
@[simp] theorem State.linkSet_regs (s : State) (n : Nat) (v : SLink) : (s.linkSet n v).regs = s.regs := rfl
@[simp] theorem State.linkSet_setAt (s : State) (n : Nat) (v : SLink) : (s.linkSet n v).setAt = s.setAt := rfl
@[simp] theorem State.linkSet_latches (s : State) (n : Nat) (v : SLink) : (s.linkSet n v).latches = s.latches := rfl
@[simp] theorem State.linkSet_heldWrites (s : State) (n : Nat) (v : SLink) : (s.linkSet n v).heldWrites = s.heldWrites := rfl
@[simp] theorem State.linkSet_fuses (s : State) (n : Nat) (v : SLink) : (s.linkSet n v).fuses = s.fuses := rfl
@[simp] theorem State.linkSet_nor (s : State) (n : Nat) (v : SLink) : (s.linkSet n v).nor = s.nor := rfl
@[simp] theorem State.linkSet_ptn (s : State) (n : Nat) (v : SLink) : (s.linkSet n v).ptn = s.ptn := rfl
@[simp] theorem State.linkSet_tick (s : State) (n : Nat) (v : SLink) : (s.linkSet n v).tick = s.tick := rfl
@[simp] theorem State.linkSet_parts (s : State) (n : Nat) (v : SLink) : (s.linkSet n v).parts = s.parts := rfl
@[simp] theorem State.linkSet_bar4 (s : State) (n : Nat) (v : SLink) : (s.linkSet n v).bar4 = s.bar4 := rfl
@[simp] theorem State.linkSet_log (s : State) (n : Nat) (v : SLink) : (s.linkSet n v).log = s.log := rfl
@[simp] theorem State.linkSet_irq (s : State) (n : Nat) (v : SLink) : (s.linkSet n v).irq = s.irq := rfl
@[simp] theorem State.linkSet_host (s : State) (n : Nat) (v : SLink) : (s.linkSet n v).host = s.host := rfl
@[simp] theorem State.linkSet_pins (s : State) (n : Nat) (v : SLink) : (s.linkSet n v).pins = s.pins := rfl
@[simp] theorem State.linkSet_mgmt (s : State) (n : Nat) (v : SLink) : (s.linkSet n v).mgmt = s.mgmt := rfl
@[simp] theorem State.linkSet_lin (s : State) (n : Nat) (v : SLink) : (s.linkSet n v).lin = s.lin := rfl
@[simp] theorem State.linkSet_hbm (s : State) (n : Nat) (v : SLink) : (s.linkSet n v).hbm = s.hbm := rfl
@[simp] theorem State.linkSet_net (s : State) (n : Nat) (v : SLink) : (s.linkSet n v).net = s.net := rfl
@[simp] theorem State.linkSet_cores (s : State) (n : Nat) (v : SLink) : (s.linkSet n v).cores = s.cores := rfl
@[simp] theorem State.linkSet_groups (s : State) (n : Nat) (v : SLink) : (s.linkSet n v).groups = s.groups := rfl
@[simp] theorem State.linkSet_parks (s : State) (n : Nat) (v : SLink) : (s.linkSet n v).parks = s.parks := rfl
@[simp] theorem State.linkSet_away (s : State) (n : Nat) (v : SLink) : (s.linkSet n v).away = s.away := rfl
@[simp] theorem State.linkSet_staging (s : State) (n : Nat) (v : SLink) : (s.linkSet n v).staging = s.staging := rfl
@[simp] theorem State.linkSet_acc (s : State) (n : Nat) (v : SLink) : (s.linkSet n v).acc = s.acc := rfl
@[simp] theorem State.linkSet_accFlags (s : State) (n : Nat) (v : SLink) : (s.linkSet n v).accFlags = s.accFlags := rfl
@[simp] theorem State.linkSet_rng (s : State) (n : Nat) (v : SLink) : (s.linkSet n v).rng = s.rng := rfl
@[simp] theorem State.linkSet_fit (s : State) (n : Nat) (v : SLink) : (s.linkSet n v).fit = s.fit := rfl
@[simp] theorem State.linkSet_fitLatch (s : State) (n : Nat) (v : SLink) : (s.linkSet n v).fitLatch = s.fitLatch := rfl
@[simp] theorem State.linkSet_jig (s : State) (n : Nat) (v : SLink) : (s.linkSet n v).jig = s.jig := rfl
@[simp] theorem State.linkSet_pwr (s : State) (n : Nat) (v : SLink) : (s.linkSet n v).pwr = s.pwr := rfl
@[simp] theorem State.linkSet_thm (s : State) (n : Nat) (v : SLink) : (s.linkSet n v).thm = s.thm := rfl
@[simp] theorem State.linkSet_esc (s : State) (n : Nat) (v : SLink) : (s.linkSet n v).esc = s.esc := rfl
@[simp] theorem State.linkSet_brup (s : State) (n : Nat) (v : SLink) : (s.linkSet n v).brup = s.brup := rfl
@[simp] theorem State.linkSet_pair (s : State) (n : Nat) (v : SLink) : (s.linkSet n v).pair = s.pair := rfl

/-! ## domSet changes pwr only -/

@[simp] theorem State.domSet_pending (s : State) (p : Nat) (v : Domain) : (s.domSet p v).pending = s.pending := rfl
@[simp] theorem State.domSet_now (s : State) (p : Nat) (v : Domain) : (s.domSet p v).now = s.now := rfl
@[simp] theorem State.domSet_free (s : State) (p : Nat) (v : Domain) : (s.domSet p v).free = s.free := rfl
@[simp] theorem State.domSet_reply (s : State) (p : Nat) (v : Domain) : (s.domSet p v).reply = s.reply := rfl
@[simp] theorem State.domSet_outbox (s : State) (p : Nat) (v : Domain) : (s.domSet p v).outbox = s.outbox := rfl
@[simp] theorem State.domSet_regs (s : State) (p : Nat) (v : Domain) : (s.domSet p v).regs = s.regs := rfl
@[simp] theorem State.domSet_setAt (s : State) (p : Nat) (v : Domain) : (s.domSet p v).setAt = s.setAt := rfl
@[simp] theorem State.domSet_latches (s : State) (p : Nat) (v : Domain) : (s.domSet p v).latches = s.latches := rfl
@[simp] theorem State.domSet_heldWrites (s : State) (p : Nat) (v : Domain) : (s.domSet p v).heldWrites = s.heldWrites := rfl
@[simp] theorem State.domSet_fuses (s : State) (p : Nat) (v : Domain) : (s.domSet p v).fuses = s.fuses := rfl
@[simp] theorem State.domSet_nor (s : State) (p : Nat) (v : Domain) : (s.domSet p v).nor = s.nor := rfl
@[simp] theorem State.domSet_ptn (s : State) (p : Nat) (v : Domain) : (s.domSet p v).ptn = s.ptn := rfl
@[simp] theorem State.domSet_tick (s : State) (p : Nat) (v : Domain) : (s.domSet p v).tick = s.tick := rfl
@[simp] theorem State.domSet_parts (s : State) (p : Nat) (v : Domain) : (s.domSet p v).parts = s.parts := rfl
@[simp] theorem State.domSet_bar4 (s : State) (p : Nat) (v : Domain) : (s.domSet p v).bar4 = s.bar4 := rfl
@[simp] theorem State.domSet_log (s : State) (p : Nat) (v : Domain) : (s.domSet p v).log = s.log := rfl
@[simp] theorem State.domSet_irq (s : State) (p : Nat) (v : Domain) : (s.domSet p v).irq = s.irq := rfl
@[simp] theorem State.domSet_host (s : State) (p : Nat) (v : Domain) : (s.domSet p v).host = s.host := rfl
@[simp] theorem State.domSet_pins (s : State) (p : Nat) (v : Domain) : (s.domSet p v).pins = s.pins := rfl
@[simp] theorem State.domSet_mgmt (s : State) (p : Nat) (v : Domain) : (s.domSet p v).mgmt = s.mgmt := rfl
@[simp] theorem State.domSet_lin (s : State) (p : Nat) (v : Domain) : (s.domSet p v).lin = s.lin := rfl
@[simp] theorem State.domSet_hbm (s : State) (p : Nat) (v : Domain) : (s.domSet p v).hbm = s.hbm := rfl
@[simp] theorem State.domSet_net (s : State) (p : Nat) (v : Domain) : (s.domSet p v).net = s.net := rfl
@[simp] theorem State.domSet_cores (s : State) (p : Nat) (v : Domain) : (s.domSet p v).cores = s.cores := rfl
@[simp] theorem State.domSet_groups (s : State) (p : Nat) (v : Domain) : (s.domSet p v).groups = s.groups := rfl
@[simp] theorem State.domSet_parks (s : State) (p : Nat) (v : Domain) : (s.domSet p v).parks = s.parks := rfl
@[simp] theorem State.domSet_away (s : State) (p : Nat) (v : Domain) : (s.domSet p v).away = s.away := rfl
@[simp] theorem State.domSet_staging (s : State) (p : Nat) (v : Domain) : (s.domSet p v).staging = s.staging := rfl
@[simp] theorem State.domSet_acc (s : State) (p : Nat) (v : Domain) : (s.domSet p v).acc = s.acc := rfl
@[simp] theorem State.domSet_accFlags (s : State) (p : Nat) (v : Domain) : (s.domSet p v).accFlags = s.accFlags := rfl
@[simp] theorem State.domSet_rng (s : State) (p : Nat) (v : Domain) : (s.domSet p v).rng = s.rng := rfl
@[simp] theorem State.domSet_fit (s : State) (p : Nat) (v : Domain) : (s.domSet p v).fit = s.fit := rfl
@[simp] theorem State.domSet_fitLatch (s : State) (p : Nat) (v : Domain) : (s.domSet p v).fitLatch = s.fitLatch := rfl
@[simp] theorem State.domSet_jig (s : State) (p : Nat) (v : Domain) : (s.domSet p v).jig = s.jig := rfl
@[simp] theorem State.domSet_spl (s : State) (p : Nat) (v : Domain) : (s.domSet p v).spl = s.spl := rfl
@[simp] theorem State.domSet_thm (s : State) (p : Nat) (v : Domain) : (s.domSet p v).thm = s.thm := rfl
@[simp] theorem State.domSet_esc (s : State) (p : Nat) (v : Domain) : (s.domSet p v).esc = s.esc := rfl
@[simp] theorem State.domSet_brup (s : State) (p : Nat) (v : Domain) : (s.domSet p v).brup = s.brup := rfl
@[simp] theorem State.domSet_pair (s : State) (p : Nat) (v : Domain) : (s.domSet p v).pair = s.pair := rfl

/-! ## dieSet changes thm only -/

@[simp] theorem State.dieSet_pending (s : State) (d : Nat) (v : DieMon) : (s.dieSet d v).pending = s.pending := rfl
@[simp] theorem State.dieSet_now (s : State) (d : Nat) (v : DieMon) : (s.dieSet d v).now = s.now := rfl
@[simp] theorem State.dieSet_free (s : State) (d : Nat) (v : DieMon) : (s.dieSet d v).free = s.free := rfl
@[simp] theorem State.dieSet_reply (s : State) (d : Nat) (v : DieMon) : (s.dieSet d v).reply = s.reply := rfl
@[simp] theorem State.dieSet_outbox (s : State) (d : Nat) (v : DieMon) : (s.dieSet d v).outbox = s.outbox := rfl
@[simp] theorem State.dieSet_regs (s : State) (d : Nat) (v : DieMon) : (s.dieSet d v).regs = s.regs := rfl
@[simp] theorem State.dieSet_setAt (s : State) (d : Nat) (v : DieMon) : (s.dieSet d v).setAt = s.setAt := rfl
@[simp] theorem State.dieSet_latches (s : State) (d : Nat) (v : DieMon) : (s.dieSet d v).latches = s.latches := rfl
@[simp] theorem State.dieSet_heldWrites (s : State) (d : Nat) (v : DieMon) : (s.dieSet d v).heldWrites = s.heldWrites := rfl
@[simp] theorem State.dieSet_fuses (s : State) (d : Nat) (v : DieMon) : (s.dieSet d v).fuses = s.fuses := rfl
@[simp] theorem State.dieSet_nor (s : State) (d : Nat) (v : DieMon) : (s.dieSet d v).nor = s.nor := rfl
@[simp] theorem State.dieSet_ptn (s : State) (d : Nat) (v : DieMon) : (s.dieSet d v).ptn = s.ptn := rfl
@[simp] theorem State.dieSet_tick (s : State) (d : Nat) (v : DieMon) : (s.dieSet d v).tick = s.tick := rfl
@[simp] theorem State.dieSet_parts (s : State) (d : Nat) (v : DieMon) : (s.dieSet d v).parts = s.parts := rfl
@[simp] theorem State.dieSet_bar4 (s : State) (d : Nat) (v : DieMon) : (s.dieSet d v).bar4 = s.bar4 := rfl
@[simp] theorem State.dieSet_log (s : State) (d : Nat) (v : DieMon) : (s.dieSet d v).log = s.log := rfl
@[simp] theorem State.dieSet_irq (s : State) (d : Nat) (v : DieMon) : (s.dieSet d v).irq = s.irq := rfl
@[simp] theorem State.dieSet_host (s : State) (d : Nat) (v : DieMon) : (s.dieSet d v).host = s.host := rfl
@[simp] theorem State.dieSet_pins (s : State) (d : Nat) (v : DieMon) : (s.dieSet d v).pins = s.pins := rfl
@[simp] theorem State.dieSet_mgmt (s : State) (d : Nat) (v : DieMon) : (s.dieSet d v).mgmt = s.mgmt := rfl
@[simp] theorem State.dieSet_lin (s : State) (d : Nat) (v : DieMon) : (s.dieSet d v).lin = s.lin := rfl
@[simp] theorem State.dieSet_hbm (s : State) (d : Nat) (v : DieMon) : (s.dieSet d v).hbm = s.hbm := rfl
@[simp] theorem State.dieSet_net (s : State) (d : Nat) (v : DieMon) : (s.dieSet d v).net = s.net := rfl
@[simp] theorem State.dieSet_cores (s : State) (d : Nat) (v : DieMon) : (s.dieSet d v).cores = s.cores := rfl
@[simp] theorem State.dieSet_groups (s : State) (d : Nat) (v : DieMon) : (s.dieSet d v).groups = s.groups := rfl
@[simp] theorem State.dieSet_parks (s : State) (d : Nat) (v : DieMon) : (s.dieSet d v).parks = s.parks := rfl
@[simp] theorem State.dieSet_away (s : State) (d : Nat) (v : DieMon) : (s.dieSet d v).away = s.away := rfl
@[simp] theorem State.dieSet_staging (s : State) (d : Nat) (v : DieMon) : (s.dieSet d v).staging = s.staging := rfl
@[simp] theorem State.dieSet_acc (s : State) (d : Nat) (v : DieMon) : (s.dieSet d v).acc = s.acc := rfl
@[simp] theorem State.dieSet_accFlags (s : State) (d : Nat) (v : DieMon) : (s.dieSet d v).accFlags = s.accFlags := rfl
@[simp] theorem State.dieSet_rng (s : State) (d : Nat) (v : DieMon) : (s.dieSet d v).rng = s.rng := rfl
@[simp] theorem State.dieSet_fit (s : State) (d : Nat) (v : DieMon) : (s.dieSet d v).fit = s.fit := rfl
@[simp] theorem State.dieSet_fitLatch (s : State) (d : Nat) (v : DieMon) : (s.dieSet d v).fitLatch = s.fitLatch := rfl
@[simp] theorem State.dieSet_jig (s : State) (d : Nat) (v : DieMon) : (s.dieSet d v).jig = s.jig := rfl
@[simp] theorem State.dieSet_spl (s : State) (d : Nat) (v : DieMon) : (s.dieSet d v).spl = s.spl := rfl
@[simp] theorem State.dieSet_pwr (s : State) (d : Nat) (v : DieMon) : (s.dieSet d v).pwr = s.pwr := rfl
@[simp] theorem State.dieSet_esc (s : State) (d : Nat) (v : DieMon) : (s.dieSet d v).esc = s.esc := rfl
@[simp] theorem State.dieSet_brup (s : State) (d : Nat) (v : DieMon) : (s.dieSet d v).brup = s.brup := rfl
@[simp] theorem State.dieSet_pair (s : State) (d : Nat) (v : DieMon) : (s.dieSet d v).pair = s.pair := rfl

/-! ## stackSet changes hbm only -/

@[simp] theorem State.stackSet_pending (s : State) (m : Nat) (v : StackSt) : (s.stackSet m v).pending = s.pending := rfl
@[simp] theorem State.stackSet_now (s : State) (m : Nat) (v : StackSt) : (s.stackSet m v).now = s.now := rfl
@[simp] theorem State.stackSet_free (s : State) (m : Nat) (v : StackSt) : (s.stackSet m v).free = s.free := rfl
@[simp] theorem State.stackSet_reply (s : State) (m : Nat) (v : StackSt) : (s.stackSet m v).reply = s.reply := rfl
@[simp] theorem State.stackSet_outbox (s : State) (m : Nat) (v : StackSt) : (s.stackSet m v).outbox = s.outbox := rfl
@[simp] theorem State.stackSet_regs (s : State) (m : Nat) (v : StackSt) : (s.stackSet m v).regs = s.regs := rfl
@[simp] theorem State.stackSet_setAt (s : State) (m : Nat) (v : StackSt) : (s.stackSet m v).setAt = s.setAt := rfl
@[simp] theorem State.stackSet_latches (s : State) (m : Nat) (v : StackSt) : (s.stackSet m v).latches = s.latches := rfl
@[simp] theorem State.stackSet_heldWrites (s : State) (m : Nat) (v : StackSt) : (s.stackSet m v).heldWrites = s.heldWrites := rfl
@[simp] theorem State.stackSet_fuses (s : State) (m : Nat) (v : StackSt) : (s.stackSet m v).fuses = s.fuses := rfl
@[simp] theorem State.stackSet_nor (s : State) (m : Nat) (v : StackSt) : (s.stackSet m v).nor = s.nor := rfl
@[simp] theorem State.stackSet_ptn (s : State) (m : Nat) (v : StackSt) : (s.stackSet m v).ptn = s.ptn := rfl
@[simp] theorem State.stackSet_tick (s : State) (m : Nat) (v : StackSt) : (s.stackSet m v).tick = s.tick := rfl
@[simp] theorem State.stackSet_parts (s : State) (m : Nat) (v : StackSt) : (s.stackSet m v).parts = s.parts := rfl
@[simp] theorem State.stackSet_bar4 (s : State) (m : Nat) (v : StackSt) : (s.stackSet m v).bar4 = s.bar4 := rfl
@[simp] theorem State.stackSet_log (s : State) (m : Nat) (v : StackSt) : (s.stackSet m v).log = s.log := rfl
@[simp] theorem State.stackSet_irq (s : State) (m : Nat) (v : StackSt) : (s.stackSet m v).irq = s.irq := rfl
@[simp] theorem State.stackSet_host (s : State) (m : Nat) (v : StackSt) : (s.stackSet m v).host = s.host := rfl
@[simp] theorem State.stackSet_pins (s : State) (m : Nat) (v : StackSt) : (s.stackSet m v).pins = s.pins := rfl
@[simp] theorem State.stackSet_mgmt (s : State) (m : Nat) (v : StackSt) : (s.stackSet m v).mgmt = s.mgmt := rfl
@[simp] theorem State.stackSet_lin (s : State) (m : Nat) (v : StackSt) : (s.stackSet m v).lin = s.lin := rfl
@[simp] theorem State.stackSet_net (s : State) (m : Nat) (v : StackSt) : (s.stackSet m v).net = s.net := rfl
@[simp] theorem State.stackSet_cores (s : State) (m : Nat) (v : StackSt) : (s.stackSet m v).cores = s.cores := rfl
@[simp] theorem State.stackSet_groups (s : State) (m : Nat) (v : StackSt) : (s.stackSet m v).groups = s.groups := rfl
@[simp] theorem State.stackSet_parks (s : State) (m : Nat) (v : StackSt) : (s.stackSet m v).parks = s.parks := rfl
@[simp] theorem State.stackSet_away (s : State) (m : Nat) (v : StackSt) : (s.stackSet m v).away = s.away := rfl
@[simp] theorem State.stackSet_staging (s : State) (m : Nat) (v : StackSt) : (s.stackSet m v).staging = s.staging := rfl
@[simp] theorem State.stackSet_acc (s : State) (m : Nat) (v : StackSt) : (s.stackSet m v).acc = s.acc := rfl
@[simp] theorem State.stackSet_accFlags (s : State) (m : Nat) (v : StackSt) : (s.stackSet m v).accFlags = s.accFlags := rfl
@[simp] theorem State.stackSet_rng (s : State) (m : Nat) (v : StackSt) : (s.stackSet m v).rng = s.rng := rfl
@[simp] theorem State.stackSet_fit (s : State) (m : Nat) (v : StackSt) : (s.stackSet m v).fit = s.fit := rfl
@[simp] theorem State.stackSet_fitLatch (s : State) (m : Nat) (v : StackSt) : (s.stackSet m v).fitLatch = s.fitLatch := rfl
@[simp] theorem State.stackSet_jig (s : State) (m : Nat) (v : StackSt) : (s.stackSet m v).jig = s.jig := rfl
@[simp] theorem State.stackSet_spl (s : State) (m : Nat) (v : StackSt) : (s.stackSet m v).spl = s.spl := rfl
@[simp] theorem State.stackSet_pwr (s : State) (m : Nat) (v : StackSt) : (s.stackSet m v).pwr = s.pwr := rfl
@[simp] theorem State.stackSet_thm (s : State) (m : Nat) (v : StackSt) : (s.stackSet m v).thm = s.thm := rfl
@[simp] theorem State.stackSet_esc (s : State) (m : Nat) (v : StackSt) : (s.stackSet m v).esc = s.esc := rfl
@[simp] theorem State.stackSet_brup (s : State) (m : Nat) (v : StackSt) : (s.stackSet m v).brup = s.brup := rfl
@[simp] theorem State.stackSet_pair (s : State) (m : Nat) (v : StackSt) : (s.stackSet m v).pair = s.pair := rfl

/-! ## dowelSet changes net only -/

@[simp] theorem State.dowelSet_pending (s : State) (d : Nat) (v : Dowel) : (s.dowelSet d v).pending = s.pending := rfl
@[simp] theorem State.dowelSet_now (s : State) (d : Nat) (v : Dowel) : (s.dowelSet d v).now = s.now := rfl
@[simp] theorem State.dowelSet_free (s : State) (d : Nat) (v : Dowel) : (s.dowelSet d v).free = s.free := rfl
@[simp] theorem State.dowelSet_reply (s : State) (d : Nat) (v : Dowel) : (s.dowelSet d v).reply = s.reply := rfl
@[simp] theorem State.dowelSet_outbox (s : State) (d : Nat) (v : Dowel) : (s.dowelSet d v).outbox = s.outbox := rfl
@[simp] theorem State.dowelSet_regs (s : State) (d : Nat) (v : Dowel) : (s.dowelSet d v).regs = s.regs := rfl
@[simp] theorem State.dowelSet_setAt (s : State) (d : Nat) (v : Dowel) : (s.dowelSet d v).setAt = s.setAt := rfl
@[simp] theorem State.dowelSet_latches (s : State) (d : Nat) (v : Dowel) : (s.dowelSet d v).latches = s.latches := rfl
@[simp] theorem State.dowelSet_heldWrites (s : State) (d : Nat) (v : Dowel) : (s.dowelSet d v).heldWrites = s.heldWrites := rfl
@[simp] theorem State.dowelSet_fuses (s : State) (d : Nat) (v : Dowel) : (s.dowelSet d v).fuses = s.fuses := rfl
@[simp] theorem State.dowelSet_nor (s : State) (d : Nat) (v : Dowel) : (s.dowelSet d v).nor = s.nor := rfl
@[simp] theorem State.dowelSet_ptn (s : State) (d : Nat) (v : Dowel) : (s.dowelSet d v).ptn = s.ptn := rfl
@[simp] theorem State.dowelSet_tick (s : State) (d : Nat) (v : Dowel) : (s.dowelSet d v).tick = s.tick := rfl
@[simp] theorem State.dowelSet_parts (s : State) (d : Nat) (v : Dowel) : (s.dowelSet d v).parts = s.parts := rfl
@[simp] theorem State.dowelSet_bar4 (s : State) (d : Nat) (v : Dowel) : (s.dowelSet d v).bar4 = s.bar4 := rfl
@[simp] theorem State.dowelSet_log (s : State) (d : Nat) (v : Dowel) : (s.dowelSet d v).log = s.log := rfl
@[simp] theorem State.dowelSet_irq (s : State) (d : Nat) (v : Dowel) : (s.dowelSet d v).irq = s.irq := rfl
@[simp] theorem State.dowelSet_host (s : State) (d : Nat) (v : Dowel) : (s.dowelSet d v).host = s.host := rfl
@[simp] theorem State.dowelSet_pins (s : State) (d : Nat) (v : Dowel) : (s.dowelSet d v).pins = s.pins := rfl
@[simp] theorem State.dowelSet_mgmt (s : State) (d : Nat) (v : Dowel) : (s.dowelSet d v).mgmt = s.mgmt := rfl
@[simp] theorem State.dowelSet_lin (s : State) (d : Nat) (v : Dowel) : (s.dowelSet d v).lin = s.lin := rfl
@[simp] theorem State.dowelSet_hbm (s : State) (d : Nat) (v : Dowel) : (s.dowelSet d v).hbm = s.hbm := rfl
@[simp] theorem State.dowelSet_cores (s : State) (d : Nat) (v : Dowel) : (s.dowelSet d v).cores = s.cores := rfl
@[simp] theorem State.dowelSet_groups (s : State) (d : Nat) (v : Dowel) : (s.dowelSet d v).groups = s.groups := rfl
@[simp] theorem State.dowelSet_parks (s : State) (d : Nat) (v : Dowel) : (s.dowelSet d v).parks = s.parks := rfl
@[simp] theorem State.dowelSet_away (s : State) (d : Nat) (v : Dowel) : (s.dowelSet d v).away = s.away := rfl
@[simp] theorem State.dowelSet_staging (s : State) (d : Nat) (v : Dowel) : (s.dowelSet d v).staging = s.staging := rfl
@[simp] theorem State.dowelSet_acc (s : State) (d : Nat) (v : Dowel) : (s.dowelSet d v).acc = s.acc := rfl
@[simp] theorem State.dowelSet_accFlags (s : State) (d : Nat) (v : Dowel) : (s.dowelSet d v).accFlags = s.accFlags := rfl
@[simp] theorem State.dowelSet_rng (s : State) (d : Nat) (v : Dowel) : (s.dowelSet d v).rng = s.rng := rfl
@[simp] theorem State.dowelSet_fit (s : State) (d : Nat) (v : Dowel) : (s.dowelSet d v).fit = s.fit := rfl
@[simp] theorem State.dowelSet_fitLatch (s : State) (d : Nat) (v : Dowel) : (s.dowelSet d v).fitLatch = s.fitLatch := rfl
@[simp] theorem State.dowelSet_jig (s : State) (d : Nat) (v : Dowel) : (s.dowelSet d v).jig = s.jig := rfl
@[simp] theorem State.dowelSet_spl (s : State) (d : Nat) (v : Dowel) : (s.dowelSet d v).spl = s.spl := rfl
@[simp] theorem State.dowelSet_pwr (s : State) (d : Nat) (v : Dowel) : (s.dowelSet d v).pwr = s.pwr := rfl
@[simp] theorem State.dowelSet_thm (s : State) (d : Nat) (v : Dowel) : (s.dowelSet d v).thm = s.thm := rfl
@[simp] theorem State.dowelSet_esc (s : State) (d : Nat) (v : Dowel) : (s.dowelSet d v).esc = s.esc := rfl
@[simp] theorem State.dowelSet_brup (s : State) (d : Nat) (v : Dowel) : (s.dowelSet d v).brup = s.brup := rfl
@[simp] theorem State.dowelSet_pair (s : State) (d : Nat) (v : Dowel) : (s.dowelSet d v).pair = s.pair := rfl

/-! ## fnSet changes host only -/

@[simp] theorem State.fnSet_pending (s : State) (f : Func) (v : Fn) : (s.fnSet f v).pending = s.pending := rfl
@[simp] theorem State.fnSet_now (s : State) (f : Func) (v : Fn) : (s.fnSet f v).now = s.now := rfl
@[simp] theorem State.fnSet_free (s : State) (f : Func) (v : Fn) : (s.fnSet f v).free = s.free := rfl
@[simp] theorem State.fnSet_reply (s : State) (f : Func) (v : Fn) : (s.fnSet f v).reply = s.reply := rfl
@[simp] theorem State.fnSet_outbox (s : State) (f : Func) (v : Fn) : (s.fnSet f v).outbox = s.outbox := rfl
@[simp] theorem State.fnSet_regs (s : State) (f : Func) (v : Fn) : (s.fnSet f v).regs = s.regs := rfl
@[simp] theorem State.fnSet_setAt (s : State) (f : Func) (v : Fn) : (s.fnSet f v).setAt = s.setAt := rfl
@[simp] theorem State.fnSet_latches (s : State) (f : Func) (v : Fn) : (s.fnSet f v).latches = s.latches := rfl
@[simp] theorem State.fnSet_heldWrites (s : State) (f : Func) (v : Fn) : (s.fnSet f v).heldWrites = s.heldWrites := rfl
@[simp] theorem State.fnSet_fuses (s : State) (f : Func) (v : Fn) : (s.fnSet f v).fuses = s.fuses := rfl
@[simp] theorem State.fnSet_nor (s : State) (f : Func) (v : Fn) : (s.fnSet f v).nor = s.nor := rfl
@[simp] theorem State.fnSet_ptn (s : State) (f : Func) (v : Fn) : (s.fnSet f v).ptn = s.ptn := rfl
@[simp] theorem State.fnSet_tick (s : State) (f : Func) (v : Fn) : (s.fnSet f v).tick = s.tick := rfl
@[simp] theorem State.fnSet_parts (s : State) (f : Func) (v : Fn) : (s.fnSet f v).parts = s.parts := rfl
@[simp] theorem State.fnSet_bar4 (s : State) (f : Func) (v : Fn) : (s.fnSet f v).bar4 = s.bar4 := rfl
@[simp] theorem State.fnSet_log (s : State) (f : Func) (v : Fn) : (s.fnSet f v).log = s.log := rfl
@[simp] theorem State.fnSet_irq (s : State) (f : Func) (v : Fn) : (s.fnSet f v).irq = s.irq := rfl
@[simp] theorem State.fnSet_pins (s : State) (f : Func) (v : Fn) : (s.fnSet f v).pins = s.pins := rfl
@[simp] theorem State.fnSet_mgmt (s : State) (f : Func) (v : Fn) : (s.fnSet f v).mgmt = s.mgmt := rfl
@[simp] theorem State.fnSet_lin (s : State) (f : Func) (v : Fn) : (s.fnSet f v).lin = s.lin := rfl
@[simp] theorem State.fnSet_hbm (s : State) (f : Func) (v : Fn) : (s.fnSet f v).hbm = s.hbm := rfl
@[simp] theorem State.fnSet_net (s : State) (f : Func) (v : Fn) : (s.fnSet f v).net = s.net := rfl
@[simp] theorem State.fnSet_cores (s : State) (f : Func) (v : Fn) : (s.fnSet f v).cores = s.cores := rfl
@[simp] theorem State.fnSet_groups (s : State) (f : Func) (v : Fn) : (s.fnSet f v).groups = s.groups := rfl
@[simp] theorem State.fnSet_parks (s : State) (f : Func) (v : Fn) : (s.fnSet f v).parks = s.parks := rfl
@[simp] theorem State.fnSet_away (s : State) (f : Func) (v : Fn) : (s.fnSet f v).away = s.away := rfl
@[simp] theorem State.fnSet_staging (s : State) (f : Func) (v : Fn) : (s.fnSet f v).staging = s.staging := rfl
@[simp] theorem State.fnSet_acc (s : State) (f : Func) (v : Fn) : (s.fnSet f v).acc = s.acc := rfl
@[simp] theorem State.fnSet_accFlags (s : State) (f : Func) (v : Fn) : (s.fnSet f v).accFlags = s.accFlags := rfl
@[simp] theorem State.fnSet_rng (s : State) (f : Func) (v : Fn) : (s.fnSet f v).rng = s.rng := rfl
@[simp] theorem State.fnSet_fit (s : State) (f : Func) (v : Fn) : (s.fnSet f v).fit = s.fit := rfl
@[simp] theorem State.fnSet_fitLatch (s : State) (f : Func) (v : Fn) : (s.fnSet f v).fitLatch = s.fitLatch := rfl
@[simp] theorem State.fnSet_jig (s : State) (f : Func) (v : Fn) : (s.fnSet f v).jig = s.jig := rfl
@[simp] theorem State.fnSet_spl (s : State) (f : Func) (v : Fn) : (s.fnSet f v).spl = s.spl := rfl
@[simp] theorem State.fnSet_pwr (s : State) (f : Func) (v : Fn) : (s.fnSet f v).pwr = s.pwr := rfl
@[simp] theorem State.fnSet_thm (s : State) (f : Func) (v : Fn) : (s.fnSet f v).thm = s.thm := rfl
@[simp] theorem State.fnSet_esc (s : State) (f : Func) (v : Fn) : (s.fnSet f v).esc = s.esc := rfl
@[simp] theorem State.fnSet_brup (s : State) (f : Func) (v : Fn) : (s.fnSet f v).brup = s.brup := rfl
@[simp] theorem State.fnSet_pair (s : State) (f : Func) (v : Fn) : (s.fnSet f v).pair = s.pair := rfl

/-! ## portSet changes host only -/

@[simp] theorem State.portSet_pending (s : State) (p : Nat) (v : Port) : (s.portSet p v).pending = s.pending := rfl
@[simp] theorem State.portSet_now (s : State) (p : Nat) (v : Port) : (s.portSet p v).now = s.now := rfl
@[simp] theorem State.portSet_free (s : State) (p : Nat) (v : Port) : (s.portSet p v).free = s.free := rfl
@[simp] theorem State.portSet_reply (s : State) (p : Nat) (v : Port) : (s.portSet p v).reply = s.reply := rfl
@[simp] theorem State.portSet_outbox (s : State) (p : Nat) (v : Port) : (s.portSet p v).outbox = s.outbox := rfl
@[simp] theorem State.portSet_regs (s : State) (p : Nat) (v : Port) : (s.portSet p v).regs = s.regs := rfl
@[simp] theorem State.portSet_setAt (s : State) (p : Nat) (v : Port) : (s.portSet p v).setAt = s.setAt := rfl
@[simp] theorem State.portSet_latches (s : State) (p : Nat) (v : Port) : (s.portSet p v).latches = s.latches := rfl
@[simp] theorem State.portSet_heldWrites (s : State) (p : Nat) (v : Port) : (s.portSet p v).heldWrites = s.heldWrites := rfl
@[simp] theorem State.portSet_fuses (s : State) (p : Nat) (v : Port) : (s.portSet p v).fuses = s.fuses := rfl
@[simp] theorem State.portSet_nor (s : State) (p : Nat) (v : Port) : (s.portSet p v).nor = s.nor := rfl
@[simp] theorem State.portSet_ptn (s : State) (p : Nat) (v : Port) : (s.portSet p v).ptn = s.ptn := rfl
@[simp] theorem State.portSet_tick (s : State) (p : Nat) (v : Port) : (s.portSet p v).tick = s.tick := rfl
@[simp] theorem State.portSet_parts (s : State) (p : Nat) (v : Port) : (s.portSet p v).parts = s.parts := rfl
@[simp] theorem State.portSet_bar4 (s : State) (p : Nat) (v : Port) : (s.portSet p v).bar4 = s.bar4 := rfl
@[simp] theorem State.portSet_log (s : State) (p : Nat) (v : Port) : (s.portSet p v).log = s.log := rfl
@[simp] theorem State.portSet_irq (s : State) (p : Nat) (v : Port) : (s.portSet p v).irq = s.irq := rfl
@[simp] theorem State.portSet_pins (s : State) (p : Nat) (v : Port) : (s.portSet p v).pins = s.pins := rfl
@[simp] theorem State.portSet_mgmt (s : State) (p : Nat) (v : Port) : (s.portSet p v).mgmt = s.mgmt := rfl
@[simp] theorem State.portSet_lin (s : State) (p : Nat) (v : Port) : (s.portSet p v).lin = s.lin := rfl
@[simp] theorem State.portSet_hbm (s : State) (p : Nat) (v : Port) : (s.portSet p v).hbm = s.hbm := rfl
@[simp] theorem State.portSet_net (s : State) (p : Nat) (v : Port) : (s.portSet p v).net = s.net := rfl
@[simp] theorem State.portSet_cores (s : State) (p : Nat) (v : Port) : (s.portSet p v).cores = s.cores := rfl
@[simp] theorem State.portSet_groups (s : State) (p : Nat) (v : Port) : (s.portSet p v).groups = s.groups := rfl
@[simp] theorem State.portSet_parks (s : State) (p : Nat) (v : Port) : (s.portSet p v).parks = s.parks := rfl
@[simp] theorem State.portSet_away (s : State) (p : Nat) (v : Port) : (s.portSet p v).away = s.away := rfl
@[simp] theorem State.portSet_staging (s : State) (p : Nat) (v : Port) : (s.portSet p v).staging = s.staging := rfl
@[simp] theorem State.portSet_acc (s : State) (p : Nat) (v : Port) : (s.portSet p v).acc = s.acc := rfl
@[simp] theorem State.portSet_accFlags (s : State) (p : Nat) (v : Port) : (s.portSet p v).accFlags = s.accFlags := rfl
@[simp] theorem State.portSet_rng (s : State) (p : Nat) (v : Port) : (s.portSet p v).rng = s.rng := rfl
@[simp] theorem State.portSet_fit (s : State) (p : Nat) (v : Port) : (s.portSet p v).fit = s.fit := rfl
@[simp] theorem State.portSet_fitLatch (s : State) (p : Nat) (v : Port) : (s.portSet p v).fitLatch = s.fitLatch := rfl
@[simp] theorem State.portSet_jig (s : State) (p : Nat) (v : Port) : (s.portSet p v).jig = s.jig := rfl
@[simp] theorem State.portSet_spl (s : State) (p : Nat) (v : Port) : (s.portSet p v).spl = s.spl := rfl
@[simp] theorem State.portSet_pwr (s : State) (p : Nat) (v : Port) : (s.portSet p v).pwr = s.pwr := rfl
@[simp] theorem State.portSet_thm (s : State) (p : Nat) (v : Port) : (s.portSet p v).thm = s.thm := rfl
@[simp] theorem State.portSet_esc (s : State) (p : Nat) (v : Port) : (s.portSet p v).esc = s.esc := rfl
@[simp] theorem State.portSet_brup (s : State) (p : Nat) (v : Port) : (s.portSet p v).brup = s.brup := rfl
@[simp] theorem State.portSet_pair (s : State) (p : Nat) (v : Port) : (s.portSet p v).pair = s.pair := rfl

/-! ## evSet changes regs and setAt only -/

@[simp] theorem State.evSet_pending (s : State) (k i : Nat) : (s.evSet k i).pending = s.pending := rfl
@[simp] theorem State.evSet_now (s : State) (k i : Nat) : (s.evSet k i).now = s.now := rfl
@[simp] theorem State.evSet_free (s : State) (k i : Nat) : (s.evSet k i).free = s.free := rfl
@[simp] theorem State.evSet_reply (s : State) (k i : Nat) : (s.evSet k i).reply = s.reply := rfl
@[simp] theorem State.evSet_outbox (s : State) (k i : Nat) : (s.evSet k i).outbox = s.outbox := rfl
@[simp] theorem State.evSet_latches (s : State) (k i : Nat) : (s.evSet k i).latches = s.latches := rfl
@[simp] theorem State.evSet_heldWrites (s : State) (k i : Nat) : (s.evSet k i).heldWrites = s.heldWrites := rfl
@[simp] theorem State.evSet_fuses (s : State) (k i : Nat) : (s.evSet k i).fuses = s.fuses := rfl
@[simp] theorem State.evSet_nor (s : State) (k i : Nat) : (s.evSet k i).nor = s.nor := rfl
@[simp] theorem State.evSet_ptn (s : State) (k i : Nat) : (s.evSet k i).ptn = s.ptn := rfl
@[simp] theorem State.evSet_tick (s : State) (k i : Nat) : (s.evSet k i).tick = s.tick := rfl
@[simp] theorem State.evSet_parts (s : State) (k i : Nat) : (s.evSet k i).parts = s.parts := rfl
@[simp] theorem State.evSet_bar4 (s : State) (k i : Nat) : (s.evSet k i).bar4 = s.bar4 := rfl
@[simp] theorem State.evSet_log (s : State) (k i : Nat) : (s.evSet k i).log = s.log := rfl
@[simp] theorem State.evSet_irq (s : State) (k i : Nat) : (s.evSet k i).irq = s.irq := rfl
@[simp] theorem State.evSet_host (s : State) (k i : Nat) : (s.evSet k i).host = s.host := rfl
@[simp] theorem State.evSet_pins (s : State) (k i : Nat) : (s.evSet k i).pins = s.pins := rfl
@[simp] theorem State.evSet_mgmt (s : State) (k i : Nat) : (s.evSet k i).mgmt = s.mgmt := rfl
@[simp] theorem State.evSet_lin (s : State) (k i : Nat) : (s.evSet k i).lin = s.lin := rfl
@[simp] theorem State.evSet_hbm (s : State) (k i : Nat) : (s.evSet k i).hbm = s.hbm := rfl
@[simp] theorem State.evSet_net (s : State) (k i : Nat) : (s.evSet k i).net = s.net := rfl
@[simp] theorem State.evSet_cores (s : State) (k i : Nat) : (s.evSet k i).cores = s.cores := rfl
@[simp] theorem State.evSet_groups (s : State) (k i : Nat) : (s.evSet k i).groups = s.groups := rfl
@[simp] theorem State.evSet_parks (s : State) (k i : Nat) : (s.evSet k i).parks = s.parks := rfl
@[simp] theorem State.evSet_away (s : State) (k i : Nat) : (s.evSet k i).away = s.away := rfl
@[simp] theorem State.evSet_staging (s : State) (k i : Nat) : (s.evSet k i).staging = s.staging := rfl
@[simp] theorem State.evSet_acc (s : State) (k i : Nat) : (s.evSet k i).acc = s.acc := rfl
@[simp] theorem State.evSet_accFlags (s : State) (k i : Nat) : (s.evSet k i).accFlags = s.accFlags := rfl
@[simp] theorem State.evSet_rng (s : State) (k i : Nat) : (s.evSet k i).rng = s.rng := rfl
@[simp] theorem State.evSet_fit (s : State) (k i : Nat) : (s.evSet k i).fit = s.fit := rfl
@[simp] theorem State.evSet_fitLatch (s : State) (k i : Nat) : (s.evSet k i).fitLatch = s.fitLatch := rfl
@[simp] theorem State.evSet_jig (s : State) (k i : Nat) : (s.evSet k i).jig = s.jig := rfl
@[simp] theorem State.evSet_spl (s : State) (k i : Nat) : (s.evSet k i).spl = s.spl := rfl
@[simp] theorem State.evSet_pwr (s : State) (k i : Nat) : (s.evSet k i).pwr = s.pwr := rfl
@[simp] theorem State.evSet_thm (s : State) (k i : Nat) : (s.evSet k i).thm = s.thm := rfl
@[simp] theorem State.evSet_esc (s : State) (k i : Nat) : (s.evSet k i).esc = s.esc := rfl
@[simp] theorem State.evSet_brup (s : State) (k i : Nat) : (s.evSet k i).brup = s.brup := rfl
@[simp] theorem State.evSet_pair (s : State) (k i : Nat) : (s.evSet k i).pair = s.pair := rfl

/-! ## rawSet changes regs and setAt only -/

@[simp] theorem State.rawSet_pending (s : State) (x : Nat) : (s.rawSet x).pending = s.pending := rfl
@[simp] theorem State.rawSet_now (s : State) (x : Nat) : (s.rawSet x).now = s.now := rfl
@[simp] theorem State.rawSet_free (s : State) (x : Nat) : (s.rawSet x).free = s.free := rfl
@[simp] theorem State.rawSet_reply (s : State) (x : Nat) : (s.rawSet x).reply = s.reply := rfl
@[simp] theorem State.rawSet_outbox (s : State) (x : Nat) : (s.rawSet x).outbox = s.outbox := rfl
@[simp] theorem State.rawSet_latches (s : State) (x : Nat) : (s.rawSet x).latches = s.latches := rfl
@[simp] theorem State.rawSet_heldWrites (s : State) (x : Nat) : (s.rawSet x).heldWrites = s.heldWrites := rfl
@[simp] theorem State.rawSet_fuses (s : State) (x : Nat) : (s.rawSet x).fuses = s.fuses := rfl
@[simp] theorem State.rawSet_nor (s : State) (x : Nat) : (s.rawSet x).nor = s.nor := rfl
@[simp] theorem State.rawSet_ptn (s : State) (x : Nat) : (s.rawSet x).ptn = s.ptn := rfl
@[simp] theorem State.rawSet_tick (s : State) (x : Nat) : (s.rawSet x).tick = s.tick := rfl
@[simp] theorem State.rawSet_parts (s : State) (x : Nat) : (s.rawSet x).parts = s.parts := rfl
@[simp] theorem State.rawSet_bar4 (s : State) (x : Nat) : (s.rawSet x).bar4 = s.bar4 := rfl
@[simp] theorem State.rawSet_log (s : State) (x : Nat) : (s.rawSet x).log = s.log := rfl
@[simp] theorem State.rawSet_irq (s : State) (x : Nat) : (s.rawSet x).irq = s.irq := rfl
@[simp] theorem State.rawSet_host (s : State) (x : Nat) : (s.rawSet x).host = s.host := rfl
@[simp] theorem State.rawSet_pins (s : State) (x : Nat) : (s.rawSet x).pins = s.pins := rfl
@[simp] theorem State.rawSet_mgmt (s : State) (x : Nat) : (s.rawSet x).mgmt = s.mgmt := rfl
@[simp] theorem State.rawSet_lin (s : State) (x : Nat) : (s.rawSet x).lin = s.lin := rfl
@[simp] theorem State.rawSet_hbm (s : State) (x : Nat) : (s.rawSet x).hbm = s.hbm := rfl
@[simp] theorem State.rawSet_net (s : State) (x : Nat) : (s.rawSet x).net = s.net := rfl
@[simp] theorem State.rawSet_cores (s : State) (x : Nat) : (s.rawSet x).cores = s.cores := rfl
@[simp] theorem State.rawSet_groups (s : State) (x : Nat) : (s.rawSet x).groups = s.groups := rfl
@[simp] theorem State.rawSet_parks (s : State) (x : Nat) : (s.rawSet x).parks = s.parks := rfl
@[simp] theorem State.rawSet_away (s : State) (x : Nat) : (s.rawSet x).away = s.away := rfl
@[simp] theorem State.rawSet_staging (s : State) (x : Nat) : (s.rawSet x).staging = s.staging := rfl
@[simp] theorem State.rawSet_acc (s : State) (x : Nat) : (s.rawSet x).acc = s.acc := rfl
@[simp] theorem State.rawSet_accFlags (s : State) (x : Nat) : (s.rawSet x).accFlags = s.accFlags := rfl
@[simp] theorem State.rawSet_rng (s : State) (x : Nat) : (s.rawSet x).rng = s.rng := rfl
@[simp] theorem State.rawSet_fit (s : State) (x : Nat) : (s.rawSet x).fit = s.fit := rfl
@[simp] theorem State.rawSet_fitLatch (s : State) (x : Nat) : (s.rawSet x).fitLatch = s.fitLatch := rfl
@[simp] theorem State.rawSet_jig (s : State) (x : Nat) : (s.rawSet x).jig = s.jig := rfl
@[simp] theorem State.rawSet_spl (s : State) (x : Nat) : (s.rawSet x).spl = s.spl := rfl
@[simp] theorem State.rawSet_pwr (s : State) (x : Nat) : (s.rawSet x).pwr = s.pwr := rfl
@[simp] theorem State.rawSet_thm (s : State) (x : Nat) : (s.rawSet x).thm = s.thm := rfl
@[simp] theorem State.rawSet_esc (s : State) (x : Nat) : (s.rawSet x).esc = s.esc := rfl
@[simp] theorem State.rawSet_brup (s : State) (x : Nat) : (s.rawSet x).brup = s.brup := rfl
@[simp] theorem State.rawSet_pair (s : State) (x : Nat) : (s.rawSet x).pair = s.pair := rfl

/-! ## answer changes reply only -/

@[simp] theorem State.answer_pending (s : State) (r : Reply) : (s.answer r).pending = s.pending := rfl
@[simp] theorem State.answer_now (s : State) (r : Reply) : (s.answer r).now = s.now := rfl
@[simp] theorem State.answer_free (s : State) (r : Reply) : (s.answer r).free = s.free := rfl
@[simp] theorem State.answer_outbox (s : State) (r : Reply) : (s.answer r).outbox = s.outbox := rfl
@[simp] theorem State.answer_regs (s : State) (r : Reply) : (s.answer r).regs = s.regs := rfl
@[simp] theorem State.answer_setAt (s : State) (r : Reply) : (s.answer r).setAt = s.setAt := rfl
@[simp] theorem State.answer_latches (s : State) (r : Reply) : (s.answer r).latches = s.latches := rfl
@[simp] theorem State.answer_heldWrites (s : State) (r : Reply) : (s.answer r).heldWrites = s.heldWrites := rfl
@[simp] theorem State.answer_fuses (s : State) (r : Reply) : (s.answer r).fuses = s.fuses := rfl
@[simp] theorem State.answer_nor (s : State) (r : Reply) : (s.answer r).nor = s.nor := rfl
@[simp] theorem State.answer_ptn (s : State) (r : Reply) : (s.answer r).ptn = s.ptn := rfl
@[simp] theorem State.answer_tick (s : State) (r : Reply) : (s.answer r).tick = s.tick := rfl
@[simp] theorem State.answer_parts (s : State) (r : Reply) : (s.answer r).parts = s.parts := rfl
@[simp] theorem State.answer_bar4 (s : State) (r : Reply) : (s.answer r).bar4 = s.bar4 := rfl
@[simp] theorem State.answer_log (s : State) (r : Reply) : (s.answer r).log = s.log := rfl
@[simp] theorem State.answer_irq (s : State) (r : Reply) : (s.answer r).irq = s.irq := rfl
@[simp] theorem State.answer_host (s : State) (r : Reply) : (s.answer r).host = s.host := rfl
@[simp] theorem State.answer_pins (s : State) (r : Reply) : (s.answer r).pins = s.pins := rfl
@[simp] theorem State.answer_mgmt (s : State) (r : Reply) : (s.answer r).mgmt = s.mgmt := rfl
@[simp] theorem State.answer_lin (s : State) (r : Reply) : (s.answer r).lin = s.lin := rfl
@[simp] theorem State.answer_hbm (s : State) (r : Reply) : (s.answer r).hbm = s.hbm := rfl
@[simp] theorem State.answer_net (s : State) (r : Reply) : (s.answer r).net = s.net := rfl
@[simp] theorem State.answer_cores (s : State) (r : Reply) : (s.answer r).cores = s.cores := rfl
@[simp] theorem State.answer_groups (s : State) (r : Reply) : (s.answer r).groups = s.groups := rfl
@[simp] theorem State.answer_parks (s : State) (r : Reply) : (s.answer r).parks = s.parks := rfl
@[simp] theorem State.answer_away (s : State) (r : Reply) : (s.answer r).away = s.away := rfl
@[simp] theorem State.answer_staging (s : State) (r : Reply) : (s.answer r).staging = s.staging := rfl
@[simp] theorem State.answer_acc (s : State) (r : Reply) : (s.answer r).acc = s.acc := rfl
@[simp] theorem State.answer_accFlags (s : State) (r : Reply) : (s.answer r).accFlags = s.accFlags := rfl
@[simp] theorem State.answer_rng (s : State) (r : Reply) : (s.answer r).rng = s.rng := rfl
@[simp] theorem State.answer_fit (s : State) (r : Reply) : (s.answer r).fit = s.fit := rfl
@[simp] theorem State.answer_fitLatch (s : State) (r : Reply) : (s.answer r).fitLatch = s.fitLatch := rfl
@[simp] theorem State.answer_jig (s : State) (r : Reply) : (s.answer r).jig = s.jig := rfl
@[simp] theorem State.answer_spl (s : State) (r : Reply) : (s.answer r).spl = s.spl := rfl
@[simp] theorem State.answer_pwr (s : State) (r : Reply) : (s.answer r).pwr = s.pwr := rfl
@[simp] theorem State.answer_thm (s : State) (r : Reply) : (s.answer r).thm = s.thm := rfl
@[simp] theorem State.answer_esc (s : State) (r : Reply) : (s.answer r).esc = s.esc := rfl
@[simp] theorem State.answer_brup (s : State) (r : Reply) : (s.answer r).brup = s.brup := rfl
@[simp] theorem State.answer_pair (s : State) (r : Reply) : (s.answer r).pair = s.pair := rfl

/-! ## send changes outbox only -/

@[simp] theorem State.send_pending (s : State) (m : Out) : (s.send m).pending = s.pending := rfl
@[simp] theorem State.send_now (s : State) (m : Out) : (s.send m).now = s.now := rfl
@[simp] theorem State.send_free (s : State) (m : Out) : (s.send m).free = s.free := rfl
@[simp] theorem State.send_reply (s : State) (m : Out) : (s.send m).reply = s.reply := rfl
@[simp] theorem State.send_regs (s : State) (m : Out) : (s.send m).regs = s.regs := rfl
@[simp] theorem State.send_setAt (s : State) (m : Out) : (s.send m).setAt = s.setAt := rfl
@[simp] theorem State.send_latches (s : State) (m : Out) : (s.send m).latches = s.latches := rfl
@[simp] theorem State.send_heldWrites (s : State) (m : Out) : (s.send m).heldWrites = s.heldWrites := rfl
@[simp] theorem State.send_fuses (s : State) (m : Out) : (s.send m).fuses = s.fuses := rfl
@[simp] theorem State.send_nor (s : State) (m : Out) : (s.send m).nor = s.nor := rfl
@[simp] theorem State.send_ptn (s : State) (m : Out) : (s.send m).ptn = s.ptn := rfl
@[simp] theorem State.send_tick (s : State) (m : Out) : (s.send m).tick = s.tick := rfl
@[simp] theorem State.send_parts (s : State) (m : Out) : (s.send m).parts = s.parts := rfl
@[simp] theorem State.send_bar4 (s : State) (m : Out) : (s.send m).bar4 = s.bar4 := rfl
@[simp] theorem State.send_log (s : State) (m : Out) : (s.send m).log = s.log := rfl
@[simp] theorem State.send_irq (s : State) (m : Out) : (s.send m).irq = s.irq := rfl
@[simp] theorem State.send_host (s : State) (m : Out) : (s.send m).host = s.host := rfl
@[simp] theorem State.send_pins (s : State) (m : Out) : (s.send m).pins = s.pins := rfl
@[simp] theorem State.send_mgmt (s : State) (m : Out) : (s.send m).mgmt = s.mgmt := rfl
@[simp] theorem State.send_lin (s : State) (m : Out) : (s.send m).lin = s.lin := rfl
@[simp] theorem State.send_hbm (s : State) (m : Out) : (s.send m).hbm = s.hbm := rfl
@[simp] theorem State.send_net (s : State) (m : Out) : (s.send m).net = s.net := rfl
@[simp] theorem State.send_cores (s : State) (m : Out) : (s.send m).cores = s.cores := rfl
@[simp] theorem State.send_groups (s : State) (m : Out) : (s.send m).groups = s.groups := rfl
@[simp] theorem State.send_parks (s : State) (m : Out) : (s.send m).parks = s.parks := rfl
@[simp] theorem State.send_away (s : State) (m : Out) : (s.send m).away = s.away := rfl
@[simp] theorem State.send_staging (s : State) (m : Out) : (s.send m).staging = s.staging := rfl
@[simp] theorem State.send_acc (s : State) (m : Out) : (s.send m).acc = s.acc := rfl
@[simp] theorem State.send_accFlags (s : State) (m : Out) : (s.send m).accFlags = s.accFlags := rfl
@[simp] theorem State.send_rng (s : State) (m : Out) : (s.send m).rng = s.rng := rfl
@[simp] theorem State.send_fit (s : State) (m : Out) : (s.send m).fit = s.fit := rfl
@[simp] theorem State.send_fitLatch (s : State) (m : Out) : (s.send m).fitLatch = s.fitLatch := rfl
@[simp] theorem State.send_jig (s : State) (m : Out) : (s.send m).jig = s.jig := rfl
@[simp] theorem State.send_spl (s : State) (m : Out) : (s.send m).spl = s.spl := rfl
@[simp] theorem State.send_pwr (s : State) (m : Out) : (s.send m).pwr = s.pwr := rfl
@[simp] theorem State.send_thm (s : State) (m : Out) : (s.send m).thm = s.thm := rfl
@[simp] theorem State.send_esc (s : State) (m : Out) : (s.send m).esc = s.esc := rfl
@[simp] theorem State.send_brup (s : State) (m : Out) : (s.send m).brup = s.brup := rfl
@[simp] theorem State.send_pair (s : State) (m : Out) : (s.send m).pair = s.pair := rfl

/-! ## at changes now only -/

@[simp] theorem State.at_pending (s : State) (u : Nat) : (s.at u).pending = s.pending := rfl
@[simp] theorem State.at_free (s : State) (u : Nat) : (s.at u).free = s.free := rfl
@[simp] theorem State.at_reply (s : State) (u : Nat) : (s.at u).reply = s.reply := rfl
@[simp] theorem State.at_outbox (s : State) (u : Nat) : (s.at u).outbox = s.outbox := rfl
@[simp] theorem State.at_regs (s : State) (u : Nat) : (s.at u).regs = s.regs := rfl
@[simp] theorem State.at_setAt (s : State) (u : Nat) : (s.at u).setAt = s.setAt := rfl
@[simp] theorem State.at_latches (s : State) (u : Nat) : (s.at u).latches = s.latches := rfl
@[simp] theorem State.at_heldWrites (s : State) (u : Nat) : (s.at u).heldWrites = s.heldWrites := rfl
@[simp] theorem State.at_fuses (s : State) (u : Nat) : (s.at u).fuses = s.fuses := rfl
@[simp] theorem State.at_nor (s : State) (u : Nat) : (s.at u).nor = s.nor := rfl
@[simp] theorem State.at_ptn (s : State) (u : Nat) : (s.at u).ptn = s.ptn := rfl
@[simp] theorem State.at_tick (s : State) (u : Nat) : (s.at u).tick = s.tick := rfl
@[simp] theorem State.at_parts (s : State) (u : Nat) : (s.at u).parts = s.parts := rfl
@[simp] theorem State.at_bar4 (s : State) (u : Nat) : (s.at u).bar4 = s.bar4 := rfl
@[simp] theorem State.at_log (s : State) (u : Nat) : (s.at u).log = s.log := rfl
@[simp] theorem State.at_irq (s : State) (u : Nat) : (s.at u).irq = s.irq := rfl
@[simp] theorem State.at_host (s : State) (u : Nat) : (s.at u).host = s.host := rfl
@[simp] theorem State.at_pins (s : State) (u : Nat) : (s.at u).pins = s.pins := rfl
@[simp] theorem State.at_mgmt (s : State) (u : Nat) : (s.at u).mgmt = s.mgmt := rfl
@[simp] theorem State.at_lin (s : State) (u : Nat) : (s.at u).lin = s.lin := rfl
@[simp] theorem State.at_hbm (s : State) (u : Nat) : (s.at u).hbm = s.hbm := rfl
@[simp] theorem State.at_net (s : State) (u : Nat) : (s.at u).net = s.net := rfl
@[simp] theorem State.at_cores (s : State) (u : Nat) : (s.at u).cores = s.cores := rfl
@[simp] theorem State.at_groups (s : State) (u : Nat) : (s.at u).groups = s.groups := rfl
@[simp] theorem State.at_parks (s : State) (u : Nat) : (s.at u).parks = s.parks := rfl
@[simp] theorem State.at_away (s : State) (u : Nat) : (s.at u).away = s.away := rfl
@[simp] theorem State.at_staging (s : State) (u : Nat) : (s.at u).staging = s.staging := rfl
@[simp] theorem State.at_acc (s : State) (u : Nat) : (s.at u).acc = s.acc := rfl
@[simp] theorem State.at_accFlags (s : State) (u : Nat) : (s.at u).accFlags = s.accFlags := rfl
@[simp] theorem State.at_rng (s : State) (u : Nat) : (s.at u).rng = s.rng := rfl
@[simp] theorem State.at_fit (s : State) (u : Nat) : (s.at u).fit = s.fit := rfl
@[simp] theorem State.at_fitLatch (s : State) (u : Nat) : (s.at u).fitLatch = s.fitLatch := rfl
@[simp] theorem State.at_jig (s : State) (u : Nat) : (s.at u).jig = s.jig := rfl
@[simp] theorem State.at_spl (s : State) (u : Nat) : (s.at u).spl = s.spl := rfl
@[simp] theorem State.at_pwr (s : State) (u : Nat) : (s.at u).pwr = s.pwr := rfl
@[simp] theorem State.at_thm (s : State) (u : Nat) : (s.at u).thm = s.thm := rfl
@[simp] theorem State.at_esc (s : State) (u : Nat) : (s.at u).esc = s.esc := rfl
@[simp] theorem State.at_brup (s : State) (u : Nat) : (s.at u).brup = s.brup := rfl
@[simp] theorem State.at_pair (s : State) (u : Nat) : (s.at u).pair = s.pair := rfl

/-! ## What reads back -/

@[simp] theorem State.part_partSet_same (s : State) (k : Nat) (v : Part) : (s.partSet k v).part k = v := mget_mset_same ..

theorem State.part_partSet_other (s : State) {k j : Nat} (v : Part) (h : j ≠ k) : (s.partSet k v).part j = s.part j := mget_mset_other _ _ _ _ h

@[simp] theorem State.core_coreSet_same (s : State) (k : Nat) (v : CoreSt) : (s.coreSet k v).core k = v := mget_mset_same ..

theorem State.core_coreSet_other (s : State) {k j : Nat} (v : CoreSt) (h : j ≠ k) : (s.coreSet k v).core j = s.core j := mget_mset_other _ _ _ _ h

@[simp] theorem State.group_groupSet_same (s : State) (k : Nat) (v : Group) : (s.groupSet k v).group k = v := mget_mset_same ..

theorem State.group_groupSet_other (s : State) {k j : Nat} (v : Group) (h : j ≠ k) : (s.groupSet k v).group j = s.group j := mget_mset_other _ _ _ _ h

@[simp] theorem State.chan_chanSet_same (s : State) (k : Nat) (v : Chan) : (s.chanSet k v).chan k = v := mget_mset_same ..

theorem State.chan_chanSet_other (s : State) {k j : Nat} (v : Chan) (h : j ≠ k) : (s.chanSet k v).chan j = s.chan j := mget_mset_other _ _ _ _ h

@[simp] theorem State.dom_domSet_same (s : State) (k : Nat) (v : Domain) : (s.domSet k v).dom k = v := mget_mset_same ..

theorem State.dom_domSet_other (s : State) {k j : Nat} (v : Domain) (h : j ≠ k) : (s.domSet k v).dom j = s.dom j := mget_mset_other _ _ _ _ h

@[simp] theorem State.die_dieSet_same (s : State) (k : Nat) (v : DieMon) : (s.dieSet k v).die k = v := mget_mset_same ..

theorem State.die_dieSet_other (s : State) {k j : Nat} (v : DieMon) (h : j ≠ k) : (s.dieSet k v).die j = s.die j := mget_mset_other _ _ _ _ h

@[simp] theorem State.stackSt_stackSet_same (s : State) (k : Nat) (v : StackSt) : (s.stackSet k v).stackSt k = v := mget_mset_same ..

theorem State.stackSt_stackSet_other (s : State) {k j : Nat} (v : StackSt) (h : j ≠ k) : (s.stackSet k v).stackSt j = s.stackSt j := mget_mset_other _ _ _ _ h

@[simp] theorem State.dowel_dowelSet_same (s : State) (k : Nat) (v : Dowel) : (s.dowelSet k v).dowel k = v := mget_mset_same ..

theorem State.dowel_dowelSet_other (s : State) {k j : Nat} (v : Dowel) (h : j ≠ k) : (s.dowelSet k v).dowel j = s.dowel j := mget_mset_other _ _ _ _ h

/-- A fitted link reads what was set. -/
theorem State.link_linkSet_same (s : State) (n : Nat) (v : SLink) (h : linkFitted s n = true) : (s.linkSet n v).link n = v := by
  have : linkFitted (s.linkSet n v) n = true := h
  rw [State.link, if_pos this]
  exact mget_mset_same ..

theorem State.link_linkSet_other (s : State) {n j : Nat} (v : SLink) (h : j ≠ n) : (s.linkSet n v).link j = s.link j := by
  have hf : linkFitted (s.linkSet n v) j = linkFitted s j := rfl
  have hm : mget (s.linkSet n v).spl.links j {} = mget s.spl.links j {} := mget_mset_other _ _ _ _ h
  rw [State.link, hf, hm, State.link]

/-- A link that is not DISABLED is fitted. -/
theorem State.link_fitted (s : State) (n : Nat) (h : (s.link n).st ≠ .disabled) : linkFitted s n = true := by
  by_contra hc
  simp only [State.link, hc, if_false] at h
  exact h rfl

/-- Functions have numbers of their own. -/
theorem fnIx_injective {f g : Func} (h : fnIx f = fnIx g) : f = g := by
  cases f with
  | pf p =>
    cases g with
    | pf q => simp only [fnIx] at h; congr 1; omega
    | vf q k => simp only [fnIx] at h; omega
  | vf p j =>
    cases g with
    | pf q => simp only [fnIx] at h; omega
    | vf q k => simp only [fnIx] at h; congr 1 <;> omega

@[simp] theorem State.fn_fnSet_same (s : State) (f : Func) (v : Fn) : (s.fnSet f v).fn f = v := mget_mset_same ..

theorem State.fn_fnSet_other (s : State) {f g : Func} (v : Fn) (h : g ≠ f) : (s.fnSet f v).fn g = s.fn g :=
  mget_mset_other _ _ _ _ (fun e => h (fnIx_injective e))

@[simp] theorem State.port_portSet_same (s : State) (p : Nat) (v : Port) : (s.portSet p v).port p = v := by
  by_cases h : p = 0 <;> simp [State.port, State.portSet, h]

@[simp] theorem State.rg_partSet (s : State) (p k : Nat) (v : Part) : (s.partSet p v).rg k = s.rg k := rfl
@[simp] theorem State.rg_coreSet (s : State) (c k : Nat) (v : CoreSt) : (s.coreSet c v).rg k = s.rg k := rfl
@[simp] theorem State.rg_groupSet (s : State) (g k : Nat) (v : Group) : (s.groupSet g v).rg k = s.rg k := rfl
@[simp] theorem State.rg_chanSet (s : State) (n k : Nat) (v : Chan) : (s.chanSet n v).rg k = s.rg k := rfl
@[simp] theorem State.rg_linkSet (s : State) (n k : Nat) (v : SLink) : (s.linkSet n v).rg k = s.rg k := rfl
@[simp] theorem State.rg_send (s : State) (m : Out) (k : Nat) : (s.send m).rg k = s.rg k := rfl
@[simp] theorem State.part_rgSet (s : State) (p k : Nat) (v : Word) : (s.rgSet k v).part p = s.part p := rfl
@[simp] theorem State.core_rgSet (s : State) (c k : Nat) (v : Word) : (s.rgSet k v).core c = s.core c := rfl
@[simp] theorem State.group_rgSet (s : State) (g k : Nat) (v : Word) : (s.rgSet k v).group g = s.group g := rfl
@[simp] theorem State.chan_rgSet (s : State) (n k : Nat) (v : Word) : (s.rgSet k v).chan n = s.chan n := rfl
@[simp] theorem State.link_rgSet (s : State) (n k : Nat) (v : Word) : (s.rgSet k v).link n = s.link n := rfl

/-! ## Records and sources -/

/-- A state that differs in the registers, the cycles of their events and the log only. -/
def State.sameButLog (s t : State) : Prop := { t with regs := s.regs, setAt := s.setAt, log := s.log } = s

theorem State.sameButLog_rfl (s : State) : s.sameButLog s := rfl

theorem State.sameButLog_trans {s t u : State} (h : s.sameButLog t) (k : t.sameButLog u) : s.sameButLog u := by
  unfold State.sameButLog at *
  rw [← h, ← k]

/-- A source past those of the partitions and cores only sets its RAW bit. -/
theorem State.raise_high (s : State) (x : Nat) (h : 128 ≤ x) : s.raise x = s.rawSet x := by
  have h1 : ¬ x < 16 := by omega
  have h2 : ¬ x < 48 := by omega
  have h3 : ¬ x < 64 := by omega
  have h4 : ¬ x < 128 := by omega
  simp [State.raise, h1, h2, h3, h4]

theorem State.rgSet_sameButLog (s : State) (k : Nat) (v : Word) : s.sameButLog (s.rgSet k v) := rfl

theorem State.rSat_sameButLog (s : State) (k hi lo n : Nat) : s.sameButLog (s.rSat k hi lo n) := State.rgSet_sameButLog s _ _

theorem State.rawSet_sameButLog (s : State) (x : Nat) : s.sameButLog (s.rawSet x) := rfl

theorem State.logQueue_sameButLog (s : State) (r : ErrRec) : s.sameButLog (s.logQueue r) := by
  unfold State.logQueue
  split
  · rfl
  · rw [State.raise_high _ _ (by decide)]
    have h1 : s.sameButLog { s with log := { s.log with loss := true } } := rfl
    have h2 := State.rSat_sameButLog { s with log := { s.log with loss := true } } Reg.ERR_LOST 15 0 1
    exact State.sameButLog_trans (State.sameButLog_trans h1 h2) (State.rawSet_sameButLog _ _)

/-- An error record changes the registers, the cycles of their events and the log, and nothing else (R424 to R428). -/
theorem State.logRec_sameButLog (s : State) (code unit : Nat) (part : Option Nat) (addr syn : Nat) (once : Bool) :
    s.sameButLog (s.logRec code unit part addr syn once) := by
  unfold State.logRec
  have h0 : ∀ k n, s.sameButLog (s.rAdd k 31 0 n) := fun _ _ => State.rgSet_sameButLog s _ _
  dsimp only
  split
  · exact State.sameButLog_trans (h0 _ _) (State.logQueue_sameButLog _ _)
  · split
    · split
      · rfl
      · exact State.sameButLog_trans (h0 _ _) (State.logQueue_sameButLog _ _)
    · split
      · exact State.sameButLog_trans (h0 _ _) (State.logQueue_sameButLog _ _)
      · split
        · split
          · rfl
          · exact State.sameButLog_trans (h0 _ _) (State.logQueue_sameButLog _ _)
        · exact State.sameButLog_trans (h0 _ _) (State.logQueue_sameButLog _ _)

theorem State.err_sameButLog (s : State) (code unit : Nat) (part : Option Nat) (addr syn : Nat) :
    s.sameButLog (s.err code unit part addr syn) := State.logRec_sameButLog ..

end Sys2Proof.Machine
end

