-- ==== Sys2Proof/Laws/Links.lean ====
section
/-! SUPPORT. What a command of several accesses and the sending on a link can do. -/

namespace Sys2Proof.Machine

/-! ## Commands of several accesses -/

/-- A command none of whose accesses has to wait does all it does, from a lining without a mark; descriptors it used are gone. -/
theorem together_free (s : State) (f : State → State) (h : (f { s with lin := s.lin.calm }).lin.stuck = none) :
    let u := f { s with lin := s.lin.calm }
    s.together f = { u with spl := { u.spl with far := u.spl.far.filter (fun g => !g.used) } } := by
  have h' : (f { s with lin := { s.lin with stuck := none } }).lin.stuck = none := h
  simp only [State.together, h']
  rfl

/-- A command one of whose accesses has to wait does nothing but what that wait sets going: a fetch here, or a READ of the peer,
where the engine may issue one. -/
theorem together_waits (s : State) (f : State → State) (q : Ask) (h : (f { s with lin := s.lin.calm }).lin.stuck = some q) :
    s.together f = if s.jigFull q then s else if isRemote q.addr then s.askFar q else s.lineBegin q none := by
  have h' : (f { s with lin := { s.lin with stuck := none } }).lin.stuck = some q := h
  simp only [State.together, h']

/-! ## Sending -/

theorem fits_nil (x : SLink) (vc : Nat) : x.fits vc [] = [] := by simp [SLink.fits]

/-- A channel for which nothing waits sends nothing. -/
theorem pumpVc_empty (s : State) (n vc : Nat) (h : (s.link n).queue = []) : s.pumpVc n vc = s := by
  simp [State.pumpVc, h, fits_nil]

/-- A link on which nothing waits sends nothing. -/
theorem pump_empty (s : State) (n : Nat) (h : (s.link n).queue = []) : s.pump n = s := by
  simp only [State.pump]
  split
  · simp [List.range_succ, pumpVc_empty s n _ h]
  · rfl

/-- A flit that is sent changes nothing but what has left the module. -/
theorem sendFlit_eq (s : State) (n : Nat) (f : Flit) :
    s.sendFlit n f = { s with outbox := .flit n ({ f with ack := (s.link n).lastRx } : Flit).toBytes :: s.outbox } := rfl

/-- A packet between agents of one die crosses no link (R312). -/
theorem carry_same (s : State) (a cls bytes : Nat) (h : s.brup.outDies = []) : s.carry a a cls bytes = (true, s) := by
  simp [State.carry, State.route, h, State.tableWay, State.carryOver]

/-- Two states that differ in registers of banks alone. -/
def sameSingles (s : State) (r : List (Nat × Word)) : Prop :=
  ∀ j, j < 2 ^ 28 → ({ s with regs := r } : State).rg j = s.rg j

theorem rg64_regs {s : State} {r : List (Nat × Word)} (h : sameSingles s r) {k : Nat} (hk : k + 4 < 2 ^ 28) :
    ({ s with regs := r } : State).rg64 k = s.rg64 k := by
  rw [State.rg64, h k (by omega), h (k + 4) hk, State.rg64]

theorem bank_ge (off sel j : Nat) (hj : j < 2 ^ 28) : j ≠ bank off sel ∧ j ≠ bank off sel + 4 := by
  simp only [bank]
  generalize 2 ^ 28 = p at *
  have : p ≤ p * (sel + 1) := Nat.le_mul_of_pos_right _ (by omega)
  omega

theorem rg_regs_rg64Set (s : State) (k v j : Nat) (h : j ≠ k) (h4 : j ≠ k + 4) :
    ({ s with regs := (s.rg64Set k v).regs } : State).rg j = s.rg j := by
  have q := rg_rg64Set_other s v h h4
  simp only [State.rg] at q
  simp only [State.rg, q]

theorem rAdd64_regs (s : State) (k n : Nat) : s.rAdd64 k n = { s with regs := (s.rg64Set k (s.rg64 k + n)).regs } := by
  simp only [State.rAdd64, State.rg64Set, State.rgSet]

theorem sameSingles_bank (s : State) (off sel v : Nat) : sameSingles s (s.rg64Set (bank off sel) v).regs := by
  intro j hj
  exact rg_regs_rg64Set s _ _ j (bank_ge off sel j hj).1 (bank_ge off sel j hj).2

/-- A counter in a bank raised: registers change, none outside the banks. -/
theorem rAdd64_bank (s : State) (off sel n : Nat) :
    ∃ r, s.rAdd64 (bank off sel) n = { s with regs := r } ∧ sameSingles s r :=
  ⟨_, rAdd64_regs s _ n, sameSingles_bank s off sel _⟩

/-- A packet on its way changes counters in banks only (R312). -/
theorem carryOver_regs (dirs : List Nat) (cls bytes : Nat) : ∀ s : State,
    ∃ r, s.carryOver dirs cls bytes = { s with regs := r } ∧ sameSingles s r := by
  induction dirs with
  | nil => exact fun s => ⟨s.regs, rfl, fun _ _ => rfl⟩
  | cons d ds ih =>
    intro s
    obtain ⟨r, e, h⟩ := rAdd64_bank s Reg.NET_CLBYTES (d / 2 + 16 * (d % 2) + 32 * cls) (Config.headBytes cls + bytes)
    obtain ⟨q, e', h'⟩ := ih { s with regs := r }
    refine ⟨q, ?_, fun j hj => (h' j hj).trans (h j hj)⟩
    simp only [State.carryOver, List.foldl_cons, e] at e' ⊢
    exact e'

theorem tableWay_regs (s : State) (r : List (Nat × Word)) (h : sameSingles s r) (b : Nat) : ∀ n a,
    ({ s with regs := r } : State).tableWay a b n = s.tableWay a b n
  | 0, _ => rfl
  | n + 1, a => by
    have hb : ∀ i, ({ s with regs := r } : State).rb Reg.NET_STATUS i = s.rb Reg.NET_STATUS i := fun i => by
      rw [State.rb, h _ (by decide), State.rb]
    have hf : ({ s with regs := r } : State).lowestFence = s.lowestFence := by
      simp only [State.lowestFence, hb]
    have hd : ∀ k, ({ s with regs := r } : State).dowelPresent k = s.dowelPresent k := fun _ => rfl
    have hn : ({ s with regs := r } : State).nextHop a b = s.nextHop a b := by
      simp only [State.nextHop, hf]
    simp only [State.tableWay, hn, hb, hd, tableWay_regs s r h b n]

/-- A request and its answer that both have a route change counters in banks only (R312, R328). -/
theorem crossed_regs (s : State) (a b up down : Nat) (ho : s.brup.outDies = []) (h1 : (s.route a b 11).isSome = true)
    (h2 : (s.route b a 11).isSome = true) :
    ∃ r, s.crossed a b up down = (true, { s with regs := r }) ∧ sameSingles s r := by
  obtain ⟨w, hw⟩ := Option.isSome_iff_exists.1 h1
  obtain ⟨w', hw'⟩ := Option.isSome_iff_exists.1 h2
  obtain ⟨r, e, h⟩ := carryOver_regs w 0 up s
  have hr : ({ s with regs := r } : State).route b a 11 = some w' := by
    rw [← hw']
    simp only [State.route, ho, List.isEmpty_nil, if_true, tableWay_regs s r h]
  obtain ⟨q, e', h'⟩ := carryOver_regs w' 1 down { s with regs := r }
  refine ⟨q, ?_, fun j hj => (h' j hj).trans (h j hj)⟩
  simp only [State.crossed, State.carry, hw, e, hr, e', if_true]

end Sys2Proof.Machine
end

