-- ==== Sys2Proof/Laws/Lining.lean ====
section
/-! SUPPORT. What an access to a pinned way can do: it never waits, and over good sectors it never fails (R229, R243, R245). -/

namespace Sys2Proof.Machine

theorem charge_lin (s : State) (part : Option Nat) (master point bytes : Nat) :
    (s.charge part master point bytes).lin = s.lin := by
  simp only [State.charge]
  split
  · rfl
  · split
    · rw [State.rAdd_lin]; rfl
    · rfl

theorem countPinned_lin (s : State) (sl : Nat) : (s.countPinned sl).lin = s.lin := by
  rw [State.countPinned, State.rgSet_lin]

/-- A packet changes nothing of the lining. -/
theorem carry_lin (s : State) (a b cls bytes : Nat) : (s.carry a b cls bytes).2.lin = s.lin := by
  have h : ∀ dirs, (s.carryOver dirs cls bytes).lin = s.lin := fun dirs => by
    obtain ⟨r, e, -⟩ := carryOver_regs dirs cls bytes s
    rw [e]
  simp only [State.carry]
  split
  · exact (State.evSet_lin ..).trans (h _)
  · exact h _

theorem unticket_none (s : State) (q : Ask) (h : s.lin.tickets = []) : s.unticket q = s := by
  simp [State.unticket, State.ticket, h]

theorem turnAt_lin (s : State) (q : Ask) : (s.turnAt q).lin = s.lin := by
  simp only [State.turnAt]
  split
  · split <;> rfl
  · rfl

/-- Where no request waits, none stands before another. -/
theorem outranked_none (s : State) (q : Ask) (h : s.lin.tickets = []) : s.outranked q = false := by
  simp only [State.outranked, h]
  split <;> simp

theorem foldl_lin {β : Type} (f : State → β → State) (h : ∀ u e, (f u e).lin = u.lin) : ∀ (l : List β) (s : State),
    (l.foldl f s).lin = s.lin
  | [], _ => rfl
  | e :: l, s => by rw [List.foldl_cons, foldl_lin f h l, h]

/-- A notice changes nothing of the lining. -/
theorem notify_lin (s : State) (die a len : Nat) : (s.notify die a len).lin = s.lin := by
  refine foldl_lin _ (fun u e => ?_) s.groups s
  have h : ∀ (x : Bool × State) (y : Group), x.2.lin = u.lin →
      (if !x.1 then x.2 else x.2.groupSet e.1 y).lin = u.lin := fun x y hx => by
    cases x.1
    · exact hx
    · exact hx
  have h' : ∀ b : Bool, (if b then (false, u) else u.carry die (u.coreDie (e.1 / 64)) 2 0).2.lin = u.lin := fun b => by
    cases b
    · exact carry_lin ..
    · rfl
  dsimp only
  split
  · exact h _ _ (h' _)
  · exact h _ _ (h' _)

theorem secSeal_stuck (s : State) (a : Nat) (x : Sec) (fresh : Bool) : (s.secSeal a x fresh).lin.stuck = s.lin.stuck := by
  simp only [State.secSeal, State.secSet]

theorem linPut_stuck (s : State) (a : Nat) (bs : List Byte) : (s.linPut a bs).lin.stuck = s.lin.stuck := by
  simp only [State.linPut]

theorem staleQueue_stuck (s : State) (sl a : Nat) : (s.staleQueue sl a).lin.stuck = s.lin.stuck := by
  simp only [State.staleQueue]
  split
  · rfl
  · rw [State.rAdd_lin]

theorem storeSector_stuck (s : State) (sl a lo : Nat) (bs : List Byte) (c : Bool) :
    (s.storeSector sl a lo bs c).lin.stuck = s.lin.stuck := by
  simp only [State.storeSector]
  split
  · rw [secSeal_stuck, linPut_stuck]
  · split
    · rw [secSeal_stuck, linPut_stuck, linPut_stuck]
    · rw [staleQueue_stuck, secSeal_stuck, linPut_stuck]

theorem storeAll_stuck (sl : Nat) (c : Bool) : ∀ (qs : List (Nat × Nat)) (s : State) (bs : List Byte),
    ((qs.foldl (fun (x : State × List Byte) q =>
      (x.1.storeSector sl (q.1 / 32 * 32) (q.1 % 32) (x.2.take q.2) c, x.2.drop q.2)) (s, bs)).1).lin.stuck = s.lin.stuck
  | [], _, _ => rfl
  | q :: qs, s, bs => by
    rw [List.foldl_cons, storeAll_stuck sl c qs]
    exact storeSector_stuck ..

/-- A sector that is not poisoned is served as it stands. -/
theorem needPinned_good (s : State) (p sl a : Nat) (h : (s.sec a).v = true → (s.sec a).poison = false) :
    s.needPinned p sl a .clean = (0, s) := by
  simp only [State.needPinned]
  split
  · rfl
  · rename_i hv
    have hp := h (by simpa using hv)
    simp [Sec.outcome, hp]

theorem needPinned_all (s : State) (p sl a : Nat) : ∀ bs : List Nat,
    (∀ b ∈ bs, (s.sec b).v = true → (s.sec b).poison = false) →
    bs.foldl (fun (x : Nat × State) b =>
      (if x.1 = 0 then (x.2.needPinned p sl b (if b = a then .clean else .clean)).1 else x.1,
        (x.2.needPinned p sl b (if b = a then .clean else .clean)).2)) (0, s) = (0, s)
  | [], _ => rfl
  | b :: bs, h => by
    simp only [List.foldl_cons, ite_self, needPinned_good s p sl b (h b (List.mem_cons_self ..))]
    simpa only [ite_self] using needPinned_all s p sl a bs (fun c hc => h c (List.mem_cons_of_mem _ hc))

theorem needPinned_each (s : State) (p sl : Nat) : ∀ bs : List Nat, (∀ b ∈ bs, (s.sec b).v = true → (s.sec b).poison = false) →
    bs.foldl (fun (x : Nat × State) b => if x.1 ≠ 0 then x else x.2.needPinned p sl b .clean) (0, s) = (0, s)
  | [], _ => rfl
  | b :: bs, h => by
    simp only [List.foldl_cons, ne_eq, not_true_eq_false, if_false, needPinned_good s p sl b (h b (List.mem_cons_self ..))]
    exact needPinned_each s p sl bs (fun c hc => h c (List.mem_cons_of_mem _ hc))

theorem pchLive_regs (s : State) (r : List (Nat × Word)) (h : sameSingles s r) {n : Nat} (hn : n < 768) :
    ({ s with regs := r } : State).pchLive n = s.pchLive n := by
  have hj : Reg.HBM_MAPPED + 4 * (n / 32) < 2 ^ 28 := by
    have : Reg.HBM_MAPPED < 2 ^ 20 := by decide
    omega
  have hb : ({ s with regs := r } : State).maskBit Reg.HBM_MAPPED n = s.maskBit Reg.HBM_MAPPED n := by
    rw [State.maskBit, State.rb, h _ hj, State.maskBit, State.rb]
  rw [State.pchLive, hb, State.pchLive]
  rfl

theorem mem_pchOrder {n : Nat} (h : n ∈ pchOrder) : n < 768 := by
  simp only [pchOrder, List.mem_map, List.mem_range] at h
  obtain ⟨k, hk, rfl⟩ := h
  omega

/-- An address below the capacity that no partition's span holds is of the idle span (R483). -/
theorem target_idle (s : State) (ag : Agent) (a : Nat) (h : a < Config.hbmEnd) (hc : a < s.capacity * 2 ^ 30)
    (ho : s.spanOwner a = none) : s.target ag none a = .idle := by
  unfold State.target
  rw [if_pos h, if_neg (Nat.not_le.2 hc), ho]
  rw [Option.map_none, Option.getD_none, Bool.and_false, if_neg Bool.false_ne_true]

/-- Where an address lies depends on the pattern in force and on the live pseudo-channels (R254, R483). -/
theorem span_congr {u s : State} (hp : u.ptn = s.ptn) (hl : ∀ n, n < 768 → u.pchLive n = s.pchLive n) :
    (∀ a, u.hbmPlace a = s.hbmPlace a) ∧ u.capacity = s.capacity ∧ ∀ a, u.spanOwner a = s.spanOwner a := by
  have hi : ∀ p, u.interleave p = s.interleave p := fun p => by
    rw [State.interleave, State.interleave, hp]
    exact List.filter_congr (fun n hn => by rw [hl n (mem_pchOrder hn)])
  have hd : u.idleSet = s.idleSet := by
    rw [State.idleSet, State.idleSet, hp]
    exact List.filter_congr (fun n hn => by rw [hl n (mem_pchOrder hn)])
  have hc : u.capacity = s.capacity := by
    rw [State.capacity, State.capacity, List.filter_congr (fun n hn => hl n (List.mem_range.1 hn))]
  have hb : ∀ p, u.spanLo p = s.spanLo p := fun p => by rw [State.spanLo, State.spanLo, hp]
  have hn : ∀ p, u.spanLen p = s.spanLen p := fun p => by rw [State.spanLen, State.spanLen, hi]
  have hw : ∀ a, u.idleBelow a = s.idleBelow a := fun a => by simp only [State.idleBelow, hp, hb, hn]
  have ho : ∀ a, u.spanOwner a = s.spanOwner a := fun a => by
    have : (fun p => u.inSpan p a) = fun p => s.inSpan p a := by
      funext p
      rw [State.inSpan, State.inSpan]
      simp only [hb, hn]
    rw [State.spanOwner, State.spanOwner, hp, this]
  refine ⟨fun a => ?_, hc, ho⟩
  rw [State.hbmPlace, State.hbmPlace, ho]
  cases s.spanOwner a with
  | none => simp only [hd, hw]
  | some p => simp only [hi, hb]

/-- What serves an address does not depend on registers of banks. -/
theorem target_regs (s : State) (r : List (Nat × Word)) (h : sameSingles s r) (ag : Agent) (part : Option Nat) (a : Nat) :
    ({ s with regs := r } : State).target ag part a = s.target ag part a := by
  have hx := span_congr (u := { s with regs := r }) (s := s) rfl (fun n hn => pchLive_regs s r h hn)
  have hk : ({ s with regs := r } : State).keyGen a = s.keyGen a := by rw [State.keyGen, State.keyGen, hx.2.2]
  unfold State.target
  rw [hx.2.1, hx.2.2, hk]
  rfl

/-- A request that nothing holds goes on, where no request waits. -/
theorem lineGoes (s : State) (q : Ask) (v : Option Nat) (h1 : s.deferred q = false) (h2 : s.slotWaits q v = false)
    (hn : s.lin.tickets = []) : s.lineWaits q v = false := by
  simp only [State.lineWaits, h1, h2, outranked_none s q hn, Bool.or_self, Bool.and_false]

/-- An access to a pinned way that no regulator meters waits for nothing, where no request waits (R229, R332, R333). -/
theorem pinned_goes (s : State) (ag : Agent) (part : Option Nat) (a len : Nat) (k : AccKind) (v : Option Nat)
    (ht : s.target ag part a = .pinned) (hf : s.entryOf part (masterId ag) (12 + winSlice a / 256) = none)
    (hn : s.lin.tickets = []) : s.lineWaits ⟨ag, part, a, len, k, .clean⟩ v = false := by
  refine lineGoes s _ v ?_ ?_ hn
  · simp only [State.deferred, State.pointsOf, ht, List.any_cons, State.defers, hf, List.any_nil, Bool.or_self]
  · simp only [State.slotWaits, ht]

/-- An access to a pinned way over good sectors, that no regulator meters, answers code 0 and waits for nothing. -/
theorem pinned_access (s : State) (ag : Agent) (part : Option Nat) (a len : Nat) (act : Act) (v : Option Nat)
    (ht : s.target ag part a = .pinned) (ho : s.brup.outDies = [])
    (h1 : (s.route (s.agentDie ag) (winSlice a / 256) 11).isSome = true)
    (h2 : (s.route (winSlice a / 256) (s.agentDie ag) 11).isSome = true)
    (hf : s.entryOf part (masterId ag) (12 + winSlice a / 256) = none) (hn : s.lin.tickets = [])
    (hs : ∀ b ∈ secsOf a len, (s.sec b).v = true → (s.sec b).poison = false) :
    (s.lineAccess ag part a len act .clean v).1 = 0 ∧ (s.lineAccess ag part a len act .clean v).2.2.lin.stuck = s.lin.stuck := by
  obtain ⟨r, e, hr⟩ := crossed_regs s (s.agentDie ag) (winSlice a / 256) (act.sizes len).1 (act.sizes len).2 ho h1 h2
  have hw : ({ s with regs := r } : State).lineWaits ⟨ag, part, a, len, act.kind, .clean⟩ v = false :=
    pinned_goes _ ag part a len act.kind v ((target_regs s r hr ag part a).trans ht)
      hf hn
  have hl0 : ({ s with regs := r } : State).lin = s.lin := rfl
  generalize ({ s with regs := r } : State) = t at e hw hl0
  have hl : ((((t.turnAt ⟨ag, part, a, len, act.kind, .clean⟩).countPinned (winSlice a)).charge part (masterId ag)
      (12 + winSlice a / 256) (if act.kind = .read then 32 * (secsOf a len).length else len)).unticket
        ⟨ag, part, a, len, act.kind, .clean⟩).lin = s.lin := by
    have hc : (((t.turnAt ⟨ag, part, a, len, act.kind, .clean⟩).countPinned (winSlice a)).charge part (masterId ag)
        (12 + winSlice a / 256) (if act.kind = .read then 32 * (secsOf a len).length else len)).lin = s.lin := by
      rw [charge_lin, countPinned_lin, turnAt_lin, hl0]
    rw [unticket_none _ _ (by rw [hc]; exact hn), hc]
  simp only [State.lineAccess, ht, e, hw, Bool.not_true, Bool.false_eq_true, if_false]
  generalize ((((t.turnAt ⟨ag, part, a, len, act.kind, .clean⟩).countPinned (winSlice a)).charge part (masterId ag)
      (12 + winSlice a / 256) (if act.kind = .read then 32 * (secsOf a len).length else len)).unticket
        ⟨ag, part, a, len, act.kind, .clean⟩) = u at hl
  have hsec : ∀ b, u.sec b = s.sec b := fun b => by simp only [State.sec, hl]
  have hg : ∀ b ∈ secsOf a len, (u.sec b).v = true → (u.sec b).poison = false := fun b hb => by rw [hsec]; exact hs b hb
  cases act with
  | read =>
    simp only [needPinned_all u _ _ _ _ hg, hl]
    exact ⟨trivial, trivial⟩
  | write bs =>
    simp only [notify_lin, storeAll_stuck, hl]
    exact ⟨trivial, trivial⟩
  | update f =>
    have hm := needPinned_each u (part.getD 0) (winSlice a) (secsOf a len) hg
    rw [secsOf, List.foldl_map] at hm
    simp only [State.modify, Bool.false_eq_true, if_false, hm, ne_eq, not_true_eq_false, notify_lin, storeAll_stuck, hl]
    exact ⟨trivial, trivial⟩

/-- What `pinned_access` asks, of a range in one line. -/
structure Pinned (s : State) (ag : Agent) (part : Option Nat) (a len : Nat) : Prop where
  target : s.target ag part a = .pinned
  dies : s.brup.outDies = []
  there : (s.route (s.agentDie ag) (winSlice a / 256) 11).isSome = true
  back : (s.route (winSlice a / 256) (s.agentDie ag) 11).isSome = true
  free : s.entryOf part (masterId ag) (12 + winSlice a / 256) = none
  calm : s.lin.tickets = []
  good : ∀ b ∈ secsOf a len, (s.sec b).v = true → (s.sec b).poison = false
  line : lineCuts a len = [(a, len)]

theorem pinned_update (s : State) (ag : Agent) (part : Option Nat) (a len : Nat) (f : List Byte → List Byte)
    (h : Pinned s ag part a len) : (s.memUpdate ag part a len f .clean).1 = 0 ∧
      (s.memUpdate ag part a len f .clean).2.2.lin.stuck = s.lin.stuck :=
  pinned_access s ag part a len (.update f) none h.target h.dies h.there h.back h.free h.calm h.good

theorem pinned_read (s : State) (ag : Agent) (part : Option Nat) (a len : Nat) (h : Pinned s ag part a len) :
    (s.memRead ag part a len .clean).1 = 0 ∧ (s.memRead ag part a len .clean).2.2.lin.stuck = s.lin.stuck := by
  have r := pinned_access s ag part a len .read none h.target h.dies h.there h.back h.free h.calm h.good
  simp only [State.memRead, h.line, List.foldl_cons, List.foldl_nil, if_true]
  exact r

theorem pinned_write (s : State) (ag : Agent) (part : Option Nat) (a : Nat) (bs : List Byte)
    (h : Pinned s ag part a bs.length) :
    (s.memWrite ag part a bs .clean).1 = 0 ∧ (s.memWrite ag part a bs .clean).2.lin.stuck = s.lin.stuck := by
  have r := pinned_access s ag part a bs.length (.write (bs.take bs.length)) none h.target h.dies h.there h.back h.free h.calm h.good
  simp only [State.memWrite, h.line, List.foldl_cons, List.foldl_nil, if_true]
  exact r

/-- What an access to a whole sector of the idle span asks so that nothing holds it (R272, R459, R483). -/
structure IdleSector (s : State) (ag : Agent) (a : Nat) : Prop where
  low : a < Config.hbmEnd
  fits : a < s.capacity * 2 ^ 30
  idle : s.spanOwner a = none
  dies : s.brup.outDies = []
  starts : s.dowelHolds (s.agentDie ag) (s.stackOf a / 2) = false
  calm : s.lin.tickets = []
  there : (s.route (s.agentDie ag) (s.stackOf a / 2) 11).isSome = true
  back : (s.route (s.stackOf a / 2) (s.agentDie ag) 11).isSome = true
  runs : (s.stackSt (s.stackOf a)).st ≠ .stop
  line : lineCuts a 32 = [(a, 32)]
  whole : sectorCuts a 32 = [(a, 32)]
  aligned : a % 32 = 0

/-- Such an access crosses, changing counters at most, and waits for nothing. -/
theorem idle_goes (s : State) (ag : Agent) (a n m : Nat) (k : AccKind) (h : IdleSector s ag a) :
    ∃ r, sameSingles s r ∧ s.crossed (s.agentDie ag) (s.stackOf a / 2) n m = (true, { s with regs := r }) ∧
      (∀ v, ({ s with regs := r } : State).lineWaits ⟨ag, none, a, 32, k, .clean⟩ v = false) ∧
      ({ s with regs := r } : State).stackStopped a = false ∧
      (∀ b, ({ s with regs := r } : State).hbmPlace b = s.hbmPlace b) ∧
      ({ s with regs := r } : State).keyGen a = s.keyGen a ∧ s.target ag none a = .idle := by
  obtain ⟨r, e, hr⟩ := crossed_regs s (s.agentDie ag) (s.stackOf a / 2) n m h.dies h.there h.back
  have hx := span_congr (u := { s with regs := r }) (s := s) rfl (fun n hn => pchLive_regs s r hr hn)
  have ho : ({ s with regs := r } : State).stackOf a = s.stackOf a := by rw [State.stackOf, State.stackOf, hx.1]
  have ht := (target_regs s r hr ag none a).trans (target_idle s ag a h.low h.fits h.idle)
  have hf : ({ s with regs := r } : State).stackStopped a = false := by
    rw [State.stackStopped, ho]
    simpa [State.stackSt] using h.runs
  have hk : ∀ t, ({ s with regs := r } : State).stackKeeps a t = false := fun t => by
    simp only [State.stackKeeps, State.stackHolds, hf, Bool.false_and]
    split <;> rfl
  have hd : ({ s with regs := r } : State).dowelHolds (({ s with regs := r } : State).agentDie ag)
      (({ s with regs := r } : State).stackOf a / 2) = false := by
    rw [ho]
    exact h.starts
  refine ⟨r, hr, e, fun v => ?_, hf, hx.1, by rw [State.keyGen, State.keyGen, hx.2.2], target_idle s ag a h.low h.fits h.idle⟩
  have h1 : ({ s with regs := r } : State).deferred ⟨ag, none, a, 32, k, .clean⟩ = false := by
    simp only [State.deferred, State.pointsOf, ht, List.any_nil]
  have h2 : ({ s with regs := r } : State).slotWaits ⟨ag, none, a, 32, k, .clean⟩ v = false := by
    unfold State.slotWaits
    dsimp only
    rw [ht]
    dsimp only
    rw [hd, hk]
    rfl
  exact lineGoes _ _ v h1 h2 h.calm

/-- A whole sector of the idle span is written past the lining (R483). -/
theorem idle_write (s : State) (ag : Agent) (a : Nat) (bs : List Byte) (h : IdleSector s ag a) (hb : bs.length = 32) :
    (s.memWrite ag none a bs .clean).1 = 0 ∧ (s.memWrite ag none a bs .clean).2.lin.stuck = s.lin.stuck := by
  obtain ⟨r, -, e, hg, hf, -, -, ht⟩ := idle_goes s ag a 32 0 .write h
  have hw : ({ s with regs := r } : State).hbmMerge a bs .clean = (0, ({ s with regs := r } : State).hbmWrite a bs false) := by
    simp [State.hbmMerge, h.aligned, hb, hf]
  have hz : ∀ q, ({ s with regs := r } : State).unticket q = { s with regs := r } := fun q => unticket_none _ q h.calm
  have ht' : bs.take 32 = bs := by rw [← hb, List.take_length]
  simp only [State.memWrite, hb, h.line, List.foldl_cons, List.foldl_nil, if_true, State.lineAccess, ht, Act.sizes, Act.kind, e,
    hg, hz, h.whole, ht', hw, Bool.not_true, Bool.false_eq_true, if_false]
  exact ⟨trivial, rfl⟩

/-- A good sector of the idle span reads what HBM holds; of the state, only counters of banks may change (R483). -/
theorem idle_read (s : State) (ag : Agent) (a : Nat) (h : IdleSector s ag a)
    (hp : (mget s.hbm.secs (hsecKey (s.hbmPlace a).1 (s.hbmPlace a).2) {}).poison = false) :
    ∃ r, sameSingles s r ∧ s.memRead ag none a 32 .clean = (0, s.hbmBytes a, { s with regs := r }) := by
  obtain ⟨r, hs, e, hg, hf, hx, hk, ht⟩ := idle_goes s ag a 0 32 .read h
  have hz : ∀ q, ({ s with regs := r } : State).unticket q = { s with regs := r } := fun q => unticket_none _ q h.calm
  have hb : ({ s with regs := r } : State).hbmBytes a = s.hbmBytes a := by
    simp only [State.hbmBytes, State.hbmBytesUnder, hx, hk]
    rfl
  have hl : (s.hbmBytes a).length = 32 := by simp [State.hbmBytes, State.hbmBytesUnder]
  have hr : ({ s with regs := r } : State).hbmRead a .clean = (0, s.hbmBytes a, { s with regs := r }) := by
    rw [← hb]
    simp only [State.hbmRead, State.hbmReadUnder, hf, hx, Bool.false_eq_true, if_false]
    rw [show (mget ({ s with regs := r } : State).hbm.secs (hsecKey (s.hbmPlace a).1 (s.hbmPlace a).2) {}).poison = false from hp]
    rfl
  have ha : a / 32 * 32 = a := by have := h.aligned; omega
  have hw : ((s.hbmBytes a).drop (a % 32)).take 32 = s.hbmBytes a := by
    rw [h.aligned, List.drop_zero, ← hl, List.take_length]
  refine ⟨r, hs, ?_⟩
  simp only [State.memRead, h.line, List.foldl_cons, List.foldl_nil, if_true, State.lineAccess, ht, Act.sizes, Act.kind, e,
    hg, hz, h.whole, ha, hr, hw, Bool.not_true, Bool.false_eq_true, if_false, List.nil_append]

end Sys2Proof.Machine
end

