-- ==== Sys2Proof/Laws/Memory.lean ====
section
/-! SUPPORT. Every operation over the memories keeps their canonical form, and what it leaves alone. -/

namespace Sys2Proof.Machine

/-- The canonical form, memory by memory. -/
theorem memWf_iff (s : State) : s.memWf = true ↔
    cellsWf s.bar4 = true ∧ cellsWf s.staging = true ∧ cellsWf s.lin.data = true ∧ sortedKeys s.hbm.data = true := by
  simp [State.memWf, and_assoc]

/-- A change that leaves the memories alone keeps their form. -/
theorem memWf_congr {s t : State} (hb : t.bar4 = s.bar4) (hs : t.staging = s.staging) (hl : t.lin.data = s.lin.data)
    (hh : t.hbm.data = s.hbm.data) : t.memWf = s.memWf := by
  simp [State.memWf, hb, hs, hl, hh]

/-- Records and sources leave the memories alone. -/
theorem memWf_sameButLog {s t : State} (h : s.sameButLog t) : t.memWf = s.memWf := by
  unfold State.sameButLog at h
  rw [← h]
  rfl

@[simp] theorem memWf_rgSet (s : State) (k : Nat) (v : Word) : (s.rgSet k v).memWf = s.memWf := rfl

theorem memWf_linPut (s : State) (a : Nat) (bs : List Byte) (h : s.memWf = true) : (s.linPut a bs).memWf = true := by
  rw [memWf_iff] at h ⊢
  exact ⟨h.1, h.2.1, cellsWf_writeCells _ _ _ h.2.2.1, h.2.2.2⟩

theorem memWf_linClear (s : State) (a n : Nat) (h : s.memWf = true) : (s.linClear a n).memWf = true := by
  rw [memWf_iff] at h ⊢
  exact ⟨h.1, h.2.1, cellsWf_mclear _ _ _ h.2.2.1, h.2.2.2⟩

theorem memWf_hbmWrite (s : State) (a : Nat) (bs : List Byte) (poison : Bool) (h : s.memWf = true) :
    (s.hbmWrite a bs poison).memWf = true := by
  rw [memWf_iff] at h ⊢
  exact ⟨h.1, h.2.1, h.2.2.1, sortedKeys_putCells _ _ _ h.2.2.2⟩

theorem memWf_hbmUndefined (s : State) (pchs : List Nat) (h : s.memWf = true) : (s.hbmUndefined pchs).memWf = true := by
  rw [memWf_iff] at h ⊢
  exact ⟨h.1, h.2.1, h.2.2.1, sortedKeys_filter _ _ h.2.2.2⟩

theorem memWf_ctlSet (s : State) (p off n v : Nat) (h : s.memWf = true) : (s.ctlSet p off n v).memWf = true := by
  rw [memWf_iff] at h ⊢
  exact ⟨cellsWf_writeCells _ _ _ h.1, h.2⟩

theorem memWf_panelReset (s : State) (c : Nat) (h : s.memWf = true) : (s.panelReset c).memWf = true := by
  rw [memWf_iff] at h ⊢
  exact ⟨h.1, cellsWf_mclear _ _ _ h.2.1, h.2.2⟩

/-- A module reset keeps the bytes of HBM and clears the other memories. -/
theorem memWf_moduleReset (s : State) (cause : Nat) (h : s.memWf = true) : (s.moduleReset cause).memWf = true := by
  rw [memWf_iff] at h
  have : ∀ t : State, ∀ k hi lo v, (t.rfSet k hi lo v).memWf = t.memWf := fun _ _ _ _ _ => rfl
  rw [State.moduleReset, this, memWf_iff]
  exact ⟨rfl, rfl, rfl, h.2.2.2⟩

end Sys2Proof.Machine
end

