-- ==== Sys2Proof/Tests/Slice0.lean ====
section
/-! SUPPORT. Tests: an ill-formed command for each check of well-formedness, the worked examples of the manual, and for each
statement states and operands that meet its hypotheses. -/

namespace Sys2Proof.Tests

set_option Elab.async false

open Sys2Proof.Machine

/-! ## Well-formedness: each check refuses -/

theorem test_wf_width : (Instr.registerWrite .firmware 0 3 0 false).wf = false ∧ (Instr.lowWordRead .firmware 0 3).wf = false ∧
    (Instr.highWordRead .firmware 0 16).wf = false := by decide
theorem test_wf_opcode : (Instr.nop ⟨0, 0⟩ 0x10 {}).wf = false ∧ (Instr.nop ⟨0, 0⟩ 0x08 {}).wf = true := by decide
theorem test_wf_access : (Instr.liningAccess ⟨.device, 0, 100, .read 29, 0, .clean, none⟩).wf = false := by decide
theorem test_wf_access_write : (Instr.liningAccess ⟨.device, 0, 0, .write [], 0, .clean, none⟩).wf = false := by decide
theorem test_wf_access_reduce : (Instr.liningAccess ⟨.device, 0, 127, .reduce 0 [1, 2], 0, .clean, none⟩).wf = false := by decide
theorem test_wf_sector_aligned : (Instr.hbmSectorAccess 16 none none .clean).wf = false := by decide
theorem test_wf_sector_bytes : (Instr.hbmSectorAccess 32 none (some [1]) .clean).wf = false := by decide
theorem test_wf_jig : (Instr.move 0 2).wf = false ∧ (Instr.loop 0 1).wf = false ∧ (Instr.wait 0 4).wf = false ∧
    (Instr.jigSignal 0 5).wf = false ∧ (Instr.jigEnd 0 3).wf = false := by decide
theorem test_wf_flit : (Instr.data 0 false [1]).wf = false ∧ (Instr.idleFlit 0 (1 :: List.replicate 255 0)).wf = false ∧
    (Instr.init 0 (2 :: List.replicate 255 0)).wf = true := by decide +kernel
theorem test_wf_bar2 : (Instr.bar2Read (.pf 0) 0 0).wf = false ∧ (Instr.bar2Read (.pf 0) 0 4097).wf = false ∧
    (Instr.bar2Write (.pf 0) 0 [1] []).wf = false := by decide
theorem test_wf_bar4 : (Instr.bar4Write (.pf 0) 0xFFFFFF [1, 2]).wf = false := by decide
theorem test_wf_sensors : (Instr.hbmTempReport 0 []).wf = false ∧ (Instr.dieSample 0 [] 0).wf = false := by decide
theorem test_wf_need : (Instr.measurementDone 0 (List.replicate 65 0)).wf = false := by decide +kernel
theorem test_wf_good : (Instr.hbmSectorAccess 32 none none .clean).wf = true ∧ (Instr.move 0 1).wf = true := by decide

/-! ## States -/

/-- Group 0 of core 0. -/
def g0 : GroupId := ⟨0, 0⟩

/-- Group 1 of core 0. -/
def g1 : GroupId := ⟨0, 1⟩

/-- A way of slice 0 that region 0 pins for P0 (R226): way 15. -/
def way : Nat := 0x010000000000 + 15 * 0x60000

/-- A pattern in which P0 is enabled with cores 0 and 1, link 0, channel 0, pseudo-channel 0 and slice 0, one pinned way and a
program of 4,096 bytes; the base period is 16,000 cycles. -/
def pat : Pat := { secs := [
  (16, { len := 8448, bytes := [(0, 1), (8, 3), (0x10, 1), (0x20, 1), (0x60, 1), (0xC0, 1)] }),
  (48, { len := 16384, bytes := [(6464, 1), (6467, 1), (6470, 1)] }),
  (80, { len := 4096, bytes := [] }),
  (112, { len := 4096, bytes := [(0, 0x80), (1, 0x3E), (64, 1)] }),
  (144, { len := 4096, bytes := [] })] }

/-- A module that runs `pat` after READY, with P0's key LIVE. -/
def base : State := { State.reset with
  ptn := { running := pat, committed := true },
  tick := { en := true, next := some 160000 },
  brup := { started := [1, 2, 3, 4, 5, 6, 8], ended := [0, 1, 2, 3, 4, 5, 6, 8], katDone := true },
  esc := { keys := [(0, 1)] } }

/-- A group ready at its program's first instruction. -/
def ready : Group := { st := .ready, pc := 0x40, active := 0xFFFFFFFF, alive := 0xFFFFFFFF }

/-- Group `x` in slot 0 of core 0. -/
def run (x : Group) : State := base.groupSet 0 x

/-- The PTN block with a basting in phase `ph` opened by the PF of port 0 on a copy of the running pattern. -/
def basting (ph : Phase) (loading due : Bool) : State := { base with
  ptn := { base.ptn with phase := ph, loading := loading, staged := some pat, commitDue := due } }

/-- What `Pinned` asks of 8 bytes of the pinned way, as one test. -/
def pinnedOk (s : State) (ag : Agent) (len : Nat) : Bool :=
  s.target ag (some 0) way == .pinned && s.brup.outDies == [] && (s.route (s.agentDie ag) (winSlice way / 256) 11).isSome &&
    (s.route (winSlice way / 256) (s.agentDie ag) 11).isSome &&
    (s.entryOf (some 0) (masterId ag) (12 + winSlice way / 256)).isNone && s.lin.tickets == [] &&
    (secsOf way len).all (fun b => !(s.sec b).v || !(s.sec b).poison) && lineCuts way len == [(way, len)]

theorem pinned {s : State} {ag : Agent} {len : Nat} (h : pinnedOk s ag len = true) : Pinned s ag (some 0) way len := by
  simp only [pinnedOk, Bool.and_eq_true, beq_iff_eq, List.all_eq_true, Option.isNone_iff_eq_none] at h
  obtain ⟨⟨⟨⟨⟨⟨⟨h1, h2⟩, h3⟩, h4⟩, h7⟩, h8⟩, h5⟩, h6⟩ := h
  exact ⟨h1, h2, h3, h4, h7, h8, fun b hb hv => by simpa [hv] using h5 b hb, h6⟩

/-- Ticks under a pattern with SYNC.SRC `src` and rising edges, at time `now`, the last edge at 100,000 ns. -/
def synced (src : BitVec 8) (now : Nat) : State := { base with
  now := now, tick := { en := true, next := some 160000, lastEdge := some 100000 },
  ptn := { base.ptn with running := { secs := [(112, { len := 4096, bytes := [(0, 0x80), (1, 0x3E), (4, src), (8, 1)] })] } } }

/-- What Issues asks, as one test. -/
def canIssue (s : State) (g : GroupId) (i : Insn) (f : Form) : Bool :=
  let x := s.group (gid g)
  x.st == .ready && !x.stalled && !x.expired && !s.clockStopped g.core.val && (s.takeTurn (gid g)).isSome && x.async.isNone &&
    !x.hazard f i && s.corePart g.core.val == some 0 && decide (0x40 ≤ x.pc ∧ x.pc % 8 = 0 ∧
    x.pc + insnLen i ≤ s.ptn.running.progLen 0) && f.ok i && x.replay.getD x.active != 0 &&
    x.stack.head?.all (fun e => x.pc + insnLen i != e.rpc)

theorem issues {s : State} {g : GroupId} {i : Insn} {f : Form} (h : canIssue s g i f = true) : Issues s g i f := by
  simp only [canIssue, Bool.and_eq_true, beq_iff_eq, Bool.not_eq_true', bne_iff_ne, decide_eq_true_eq,
    Option.isNone_iff_eq_none, Option.all_eq_true] at h
  obtain ⟨⟨⟨⟨⟨⟨⟨⟨⟨⟨⟨h1, h2⟩, h12⟩, h3⟩, h4⟩, h5⟩, h6⟩, h7⟩, h8⟩, h9⟩, h10⟩, h11⟩ := h
  exact ⟨⟨h1, h2, h12, h3, h4, h5⟩, h6, ⟨0, h7, h8⟩, h9, h10, h11⟩

/-! ## Witnesses: thread instructions -/

theorem witness_IntegerResults : Issues (run ready) g0 {} (binForm {} 0) ∧ Issues (run ready) g0 {} (unForm {} 0) :=
  ⟨issues (by decide +kernel), issues (by decide +kernel)⟩

/-- The shift amounts on both sides of 32. -/
theorem witness_IntegerResults_shift : Issues (run ready) g0 { mod := 0x40, imm := 31 } (binForm { mod := 0x40, imm := 31 } 0) ∧
    Issues (run ready) g0 { mod := 0x40, imm := 32 } (binForm { mod := 0x40, imm := 32 } 0) :=
  ⟨issues (by decide +kernel), issues (by decide +kernel)⟩

theorem witness_SignedResults : Issues (run ready) g0 { mod := 8 } (binForm { mod := 8 } 8) ∧
    Issues (run ready) g0 { mod := 13 } (cmpForm { mod := 13 } 8 6) :=
  ⟨issues (by decide +kernel), issues (by decide +kernel)⟩

theorem witness_FloatResults : Issues (run ready) g0 {} (binForm {} 0) ∧
    Issues (run ready) g0 {} { binForm {} 0 with c := .regs 1 } ∧ Issues (run ready) g0 {} (unForm {} 0) :=
  ⟨issues (by decide +kernel), issues (by decide +kernel), issues (by decide +kernel)⟩

theorem witness_FloatCompares : Issues (run ready) g0 {} (binForm {} 0) ∧ (f32 0x7FC00000).isNan = true ∧
    (f32 0x3F800000).isNan = false ∧ Issues (run ready) g0 { mod := 6 } (cmpForm { mod := 6 } 0 7) :=
  ⟨issues (by decide +kernel), by decide +kernel, by decide +kernel, issues (by decide +kernel)⟩

theorem witness_MoveResults : Issues (run ready) g0 { mod := 9 } { unForm { mod := 9 } 9 with size := 8 } ∧
    Issues (run ready) g0 { mod := 8 } { unForm { mod := 8 } 8 with size := 8 } ∧
    Issues (run ready) g0 {} { size := 0, d := .regs 1, a := .regs 1, mod := modOnly {} 0x40 } ∧
    Issues (run ready) g0 { mod := 0x40, imm := 5 }
      { size := 0, d := .regs 1, wide := true, mod := modOnly { mod := 0x40, imm := 5 } 0x40 } ∧
    Issues (run ready) g0 { imm := 0x8000 } { size := 0, d := .regs 1, wide := true, mod := modOnly { imm := 0x8000 } 0 } ∧
    (∀ sel : Fin 12, canIssue (run ready) g0 { mod := BitVec.ofNat 7 sel.val } { size := 0, d := .regs 1 } = true) ∧
    Issues (run ready) g0 {} { size := 0, d := .regs 1, drain := true } ∧
    Issues (run ready) g0 { mod := 1 } { size := 0, a := .regs 1, drain := true } :=
  ⟨issues (by decide +kernel), issues (by decide +kernel), issues (by decide +kernel), issues (by decide +kernel),
    issues (by decide +kernel), by decide +kernel, issues (by decide +kernel), issues (by decide +kernel)⟩

/-- BR whose target is 0x60 and reconvergence point 0x80 from 0x40, under q0. -/
def br : Insn := { pred := 0, ext := some 0x0000004000000020 }

/-- The form of BR. -/
def brForm : Form := { size := 16, ext := 2 ^ 64 - 1, mod := modOnly br 0, drain := true }

/-- A full reconvergence stack. -/
def deep : List RecEnt := List.replicate 15 ⟨0x200, 1, 0x200⟩

/-- An opcode beside those of Table 9.3; no lane, every lane and lane 0 alone take the branch, also within another and where
the stack has no room. -/
theorem witness_BranchResults : Issues (run ready) g0 {} { mod := modOnly {} 0 } ∧
    (tableOp 0x08 = false ∧ HasTurn (run ready) g0 ∧ ((run ready).group 0).reqs = [] ∧ ((run ready).group 0).ops = []) ∧
    (let s := run ready
     Issues s g0 br brForm ∧ (s.group 0).replay = none ∧ (s.group 0).effective br = 0) ∧
    (let s := run { ready with preds := (List.range 32).map (fun l => (l, 1)) }
     Issues s g0 br brForm ∧ (s.group 0).effective br ≠ 0 ∧ (s.group 0).active &&& ~~~(s.group 0).effective br = 0 ∧
       (s.group 0).stack = []) ∧
    (let s := run { ready with preds := [(0, 1)] }
     Issues s g0 br brForm ∧ (s.group 0).effective br ≠ 0 ∧ (s.group 0).active &&& ~~~(s.group 0).effective br ≠ 0 ∧
       pcPlus (s.group 0).pc 0x20 ≠ (s.group 0).pc + 16 ∧
       min (pcPlus (s.group 0).pc 0x20) ((s.group 0).pc + 16) ≠ pcPlus (s.group 0).pc 0x40 ∧ (s.group 0).stack = []) ∧
    (∀ st ∈ [[⟨0x100, 3, 0x100⟩], deep], let s := run { ready with preds := [(0, 1)], stack := st }
     canIssue s g0 br brForm = true ∧ (s.group 0).effective br ≠ 0 ∧ (s.group 0).active &&& ~~~(s.group 0).effective br ≠ 0 ∧
       (s.group 0).stack.head?.all (fun h => pcPlus (s.group 0).pc 0x20 != h.rpc) = true ∧ st.length ∈ [1, 15]) :=
  ⟨issues (by decide +kernel),
    ⟨by decide, (issues (i := {}) (f := { mod := modOnly {} 0 }) (by decide +kernel)).toHasTurn, by decide +kernel, by decide +kernel⟩,
    ⟨issues (by decide +kernel), by decide +kernel⟩,
    ⟨issues (by decide +kernel), by decide +kernel⟩, ⟨issues (by decide +kernel), by decide +kernel⟩, by decide +kernel⟩

theorem run_group (x : Group) : (run x).group (gid g0) = x := by
  simp only [run, State.groupSet, State.group, base, State.reset, gid, gix, g0, mset, mput, mdel]
  split
  · simp [*, mget]
  · simp [mget]

/-- END of lane 0 alone, and of every lane; SPAWN with slots free and with none. -/
theorem witness_GroupsEndAndStart :
    (let s := run { ready with preds := [(0, 1)] }
     Issues s g0 { pred := 0 } { mod := modOnly { pred := 0 } 0, drain := true } ∧
       (s.group 0).active &&& ~~~(s.group 0).effective { pred := 0 } ≠ 0) ∧
    (let s := run ready
     Issues s g0 {} { mod := modOnly {} 0, drain := true } ∧ (s.group 0).active &&& ~~~(s.group 0).effective {} = 0 ∧
       (s.group 0).stack = []) ∧
    (∀ e ∈ [(⟨0x80, 3, 0xC0⟩ : RecEnt), ⟨0x80, 0, 0xC0⟩], let s := run { ready with alive := 3, active := 2, stack := [e] }
     canIssue s g0 {} { mod := modOnly {} 0, drain := true } = true ∧ (s.group 0).active &&& ~~~(s.group 0).effective {} = 0 ∧
       e.clamps (s.group 0) = false ∧ ((e.lanes &&& (s.group 0).alive &&& ~~~(s.group 0).effective {}) == 0) = (e.lanes == 0)) ∧
    (let i : Insn := { ext := some 0x80 }
     let f : Form := { size := 16, grp := true, d := .regs 1, a := .regs 1, b := .regs 4, ext := 0xFFFFFFFF, drain := true }
     let free := fun (s : State) => (s.generalSlots 0).filter (fun k => (s.group (gix 0 k)).st == .free)
     (Issues (run ready) g0 i f ∧ ((run ready).group 0).isProof = false ∧ ((run ready).group 0).replay = none ∧
       ((run ready).group 0).w 0 0 = 0 ∧ (free (run ready)).head? = some 1) ∧
     (let s := { base with groups := (List.range 64).map (fun k => (k, ready)) }
      Issues s g0 i f ∧ (s.group 0).isProof = false ∧ (s.group 0).w 0 0 = 0 ∧ (free s).head? = none)) :=
  ⟨⟨issues (by decide +kernel), by decide +kernel⟩, ⟨issues (by decide +kernel), by decide +kernel⟩, by decide +kernel,
    ⟨issues (by decide +kernel), by decide +kernel⟩, ⟨issues (by decide +kernel), by decide +kernel⟩⟩

/-- A BUSY group of the active set of a core with the two-level scheduler; groups 3 and 2 are pending, 3 the longer. -/
def busySet : State := { base with
  ptn := { running := { pat with secs := [(16, { len := 8448, bytes := [(0, 1), (8, 3), (8192, 1)] })] } },
  groups := [(1, { ready with st := .busy, reqs := [{ op := 0, kind := .signal, dst := 0, lanes := [⟨0, 0, 0, 0⟩], remote := none }] }),
    (2, { ready with issued := 1 }), (3, ready)],
  cores := [(0, { activeSet := [1] })] }

/-- Group 0 arrives at barrier 0, where group 2 waits among `need`. -/
def meeting (need : Nat) : State := { base with
  groups := [(0, ready), (2, { ready with st := .waiting, wait := .barrier 0, barrier := some 0 })],
  cores := [(0, { bars := [(0, { arrived := [2], need := need })] })] }

theorem witness_BarriersAndScheduling :
    (let i : Insn := { imm := 1 }
     let f : Form := { grp := true, imm := true, mod := modOnly i 15 && i.imm.toNat / 64 == 0, drain := true }
     (Issues (run ready) g0 i f ∧ (mget ((run ready).core 0).bars 0 {}).arrived = [] ∧ 0 + 1 < i.imm.toNat % 64 + 1) ∧
     (Issues (meeting 2) g0 i f ∧ (mget ((meeting 2).core 0).bars 0 {}).arrived = [2] ∧
       (mget ((meeting 2).core 0).bars 0 {}).need = i.imm.toNat % 64 + 1 ∧ i.imm.toNat % 64 + 1 ≤ 1 + 1 ∧
       ((meeting 2).group (gix 0 2)).st = .waiting ∧ ((meeting 2).group (gix 0 2)).wait = .barrier 0 ∧
       ((meeting 2).group (gix 0 2)).active ≠ 0 ∧ ((meeting 2).group (gix 0 2)).stack = []) ∧
     (Issues (meeting 3) g0 i f ∧ (mget ((meeting 3).core 0).bars 0 {}).need ≠ i.imm.toNat % 64 + 1)) ∧
    Issues (run ready) g0 {} { grp := true, imm := true, mod := modOnly {} 15 && true, drain := true } ∧
    (busySet.twoLevel 0 = true ∧ busySet.clockStopped 0 = false ∧ (1 ∈ (busySet.core 0).activeSet) ∧ (busySet.group (gid g1)).st = .busy ∧
      (busySet.group (gid g1)).stalled = false ∧ (busySet.group (gid g1)).reqs ≠ [] ∧
      (busySet.group (gix 0 2)).st = .ready ∧ 2 ∉ (busySet.core 0).activeSet ∧
      (busySet.group (gix 0 3)).issued < (busySet.group (gix 0 2)).issued) ∧
    (busySet.group (gix 0 3)).st ≠ .busy :=
  ⟨⟨⟨issues (by decide +kernel), by decide +kernel⟩, ⟨issues (by decide +kernel), by decide +kernel⟩,
    issues (by decide +kernel), by decide +kernel⟩, issues (by decide +kernel), by decide +kernel⟩

/-- A group whose lane 0 waits on a tag that lane 0 itself holds. -/
def clamped : Group := { ready with
  st := .waiting, wait := .clamp, active := 0, stack := [⟨0x40, 1, 0x80⟩], waits := [(0, (8, 1))] }

/-- A group with an access in flight. -/
def inFlight : Group := { ready with
  st := .busy, reqs := [{ op := 0, kind := .signal, dst := 0, lanes := [⟨0, 0, 0, 0⟩], remote := none }] }

theorem witness_ParksByEvent : (run ready).clockStopped 0 = false ∧
    (((run clamped).group 0).st = .waiting ∧ ((run clamped).group 0).wait = .clamp ∧ ((run clamped).group 0).reqs = [] ∧
      clamped.deadlocked (gid g0) = true) ∧
    (((run inFlight).group 0).st = .busy ∧ ((run inFlight).group 0).reqs ≠ []) ∧
    (((run ready).group 0).st = .ready ∧ ((run ready).group 0).reqs = []) := by decide +kernel

/-- Group 0 parked, with a park record of code and flags. -/
def parked (code flags : Nat) : State := { run { ready with st := .parked } with
  parks := [(0, { code := code, flags := flags, faults := 1 })] }

theorem witness_ParkActions : (parked fBusErr 0x30).mustWait 0 = false ∧
    (let s : State := { parked fBusErr 0x30 with pwr := { doms := [(0, { st := .stopped })] } }
     s.mustWait 0 = false ∧ s.clockStopped 0 = true) ∧ (parked fBusErr 0x30).reaches (.vf 0 1) (some 0) = false ∧
    (parked fBusErr 0x30).clockStopped 0 = false ∧
    (let s : State := { parked fNoProgress 0x10 with parks := [(0, { code := fNoProgress, flags := 0x10 })] }
     (s.group 0).st = .parked ∧ bitOf (mget s.parks 0 {}).flags 4 = true ∧ (mget s.parks 0 {}).faults = 0 ∧ (s.group 0).active ≠ 0 ∧
       (s.group 0).stack = []) ∧ (∀ f : Fin 2, (parked fBusErr 0x30).reaches (.pf f) (some 0) = true) ∧
    (let s := parked fBusErr 0x30
     (s.group 0).st = .parked ∧ bitOf (mget s.parks 0 {}).flags 4 = true ∧ bitOf (mget s.parks 0 {}).flags 5 = true ∧
       (mget s.parks 0 {}).code ≠ fClampDeadlock ∧ (mget s.parks 0 {}).faults ≠ 0 ∧ (s.group 0).active ≠ 0 ∧
       (s.group 0).stack = []) ∧
    (let s : State := { run { clamped with st := .parked, wait := .nothing } with
       parks := [(0, { code := fClampDeadlock, flags := 0x10 })] }
     (s.group 0).st = .parked ∧ (s.group 0).active = 0 ∧ ∃ e rest, (s.group 0).stack = e :: rest ∧
       e.clamps (s.group 0) = true ∧ e.lanes &&& (s.group 0).woken = 0) ∧
    bitOf (mget (parked fIllegal 0x20).parks 0 {}).flags 4 = false ∧ ((run ready).group 0).st ≠ .parked ∧
    (let sel := (base.rg (coreReg Reg.CORE_PREG_SEL 0)).toNat
     ((parked fBusErr 0x30).group (gix 0 (bitsOf sel 21 16))).st = .parked) :=
  ⟨by decide +kernel, by decide +kernel, by decide +kernel, by decide +kernel, by decide +kernel, by decide +kernel, by decide +kernel,
    ⟨by decide +kernel, by decide +kernel, ⟨0x40, 1, 0x80⟩, [], by decide +kernel⟩, by decide +kernel⟩

/-- Group 0 ready with register 0 of lane 0 at `v`, and group 1 parked. -/
def supervise (v : Word) : State := { base with
  groups := [(0, { ready with regs := if v = 0 then [] else [(0, v)] }), (1, { ready with st := .parked })] }

theorem witness_SupervisorInstructions :
    (let s := supervise 0x10000
     Issues s g0 {} { grp := true, d := .regs 1, a := .regs 1, mod := modOnly {} 0, drain := true } ∧
       Issues s g0 {} { grp := true, a := .regs 1, b := .regs 1, mod := modOnly {} 0, drain := true } ∧
       (s.group (gix 0 (bitsOf 0x10000 21 16))).st = .parked ∧ (s.group 0).w (s.group 0).lowest 0 = 0x10000) ∧
    (let s := supervise 1
     Issues s g0 { mod := 3 } { grp := true, d := .regs 1, a := .regs 1, drain := true } ∧
       (s.group (gix 0 1)).st = .parked ∧ (s.group (gix 0 1)).reqs = [] ∧ (s.group 0).w (s.group 0).lowest 0 = 1) ∧
    (∀ m : Fin 2, ∀ flags ∈ [0x00, 0x30], let i : Insn := { mod := BitVec.ofNat 7 (1 + m.val) }
     let s : State := { supervise 1 with parks := [(1, { code := fBusErr, flags := flags, faults := 1 })] }
     canIssue s g0 i { grp := true, d := .regs 1, a := .regs 1, drain := true } = true ∧ (s.group (gix 0 1)).st = .parked ∧
       (bitOf (mget s.parks 1 {}).flags (4 + m.val) = (flags == 0x30)) ∧ (mget s.parks 1 {}).faults ≠ 0 ∧
       (s.group (gix 0 1)).active ≠ 0 ∧ (s.group (gix 0 1)).stack = []) ∧
    (let s := { supervise 1 with groups := [(0, { ready with regs := [(0, 1)] })] }
     canIssue s g0 { mod := 1 } { grp := true, d := .regs 1, a := .regs 1, drain := true } = true ∧ (s.group (gix 0 1)).st ≠ .parked) :=
  ⟨⟨issues (by decide +kernel), issues (by decide +kernel), by decide +kernel⟩, ⟨issues (by decide +kernel), by decide +kernel⟩,
    by decide +kernel, by decide +kernel⟩

/-! ## Witnesses: memory instructions -/

/-- Lane addresses in range, aligned and local. -/
theorem witness_MemoryInstructionsSend :
    (∀ m : Fin 5, let i : Insn := { mod := BitVec.ofNat 7 m.val }
      canIssue (run ready) g0 i
        { size := 0, d := .regs (regsFor (widthOf i)), a := .regs 2, wide := true, mod := sizeOk i true 16 } = true ∧
      (let a := ready.accesses i (ready.effective i) (widthOf i) 0
       a.2 = [] ∧ a.1 ≠ [] ∧ anyRemote a.1 = false)) ∧
    Issues (run ready) g0 {}
      { size := 0, a := .regs 2, b := .regs (regsFor 1), wide := true, mod := sizeOk {} false 0 } ∧
    Issues (run ready) g0 {} { a := .regs 2, d := .pred, wide := true, mod := modOnly {} 0, drain := true } ∧
    Issues (run ready) g0 {} { size := 0, a := .regs 2, b := .regs 2, wide := true, mod := modOnly {} 0, drain := true } ∧
    Issues (run ready) g0 {} { size := 0, d := .regs 1, a := .regs 2, b := .regs 1, wide := true, mod := atomOk 0 0 } ∧
    Issues (run ready) g0 { mod := 6 }
      { size := 0, d := .regs 1, a := .regs 2, b := .regs 1, c := .regs 1, wide := true, mod := atomOk 6 0 } ∧
    (let i : Insn := { ext := some 0x4000000000 }
     Issues (run ready) g0 i
      { size := 16, d := .pred, a := .regs 2, ext := 0xFFFFFFFF * 2 ^ 32, mod := modOnly i 0, drain := true }) ∧
    (∀ w ∈ [4, 8], let a := ready.accesses {} (ready.effective {}) w 2
      a.2 = [] ∧ a.1 ≠ [] ∧ anyRemote a.1 = false) :=
  ⟨by decide +kernel, issues (by decide +kernel), issues (by decide +kernel), issues (by decide +kernel),
    issues (by decide +kernel), issues (by decide +kernel), issues (by decide +kernel), by decide +kernel⟩

/-- Every lane's address has bit 48 set; the lowest such address. -/
def far : Group := { ready with regs := (List.range 32).map (fun l => (128 * l + 1, 0x10000)) }

theorem witness_FailingLanesPark :
    Issues (run far) g0 { mod := 2 } { size := 0, d := .regs (regsFor 4), a := .regs 2, wide := true, mod := sizeOk { mod := 2 } true 16 } ∧
    ((run far).group 0).reqs = [] ∧ ((run far).group 0).ops = [] ∧
    (far.accesses { mod := 2 } (far.effective { mod := 2 }) 4 0).1 = [] ∧
    (far.accesses { mod := 2 } (far.effective { mod := 2 }) 4 0).2 ≠ [] :=
  ⟨issues (by decide +kernel), by decide +kernel⟩

/-- A group whose oldest request is an LDS of lane 0 into register 3. -/
def stagedLoad : Group := { ready with reqs := [{ op := 0, kind := ReqKind.staged 1 true, dst := 3, lanes := [⟨0, 4, 0x80, 0⟩], remote := none }] }

/-- The highest word of staging memory, read and written. -/
theorem witness_StagingAccess :
    (let x : Group := { ready with active := 1, alive := 1, regs := [(0, 0x1FFFFC)] }
     let i : Insn := { mod := 2 }
     (x.stagingAccs i (x.effective i) 4).2 = [] ∧ (x.stagingAccs i (x.effective i) 4).1 ≠ [] ∧
       Issues (run x) g0 i { d := .regs (regsFor 4), a := .regs 1, imm := true, mod := sizeOk i true 0 } ∧
       Issues (run x) g0 i { a := .regs 1, b := .regs (regsFor 4), imm := true, mod := sizeOk i false 0 }) ∧
    (((run stagedLoad).group 0).reqs.length = 1 ∧ stagedLoad.ops = [] ∧ stagedLoad.expired = false ∧ stagedLoad.st ≠ .waiting ∧
      (run stagedLoad).clockStopped 0 = false ∧
      ∀ r ∈ stagedLoad.reqs, r.kind = .staged 1 true ∧ (r.lanes.map (·.lane)).Nodup ∧ r.dst + regsFor 1 ≤ 128) ∧
    (let x : Group := { stagedLoad with ops := [(0, ⟨0x40, 0, 1, [], 0, 0, 0, true, false⟩)] }
     ((run x).group 0).ops.length = 1 ∧ x.st ≠ .parked ∧ ∀ r ∈ x.reqs, r.lanes ≠ [] ∧ r.op = 0 ∧
       ∀ a ∈ r.lanes, meets a.addr 1 ((r.lanes.map (·.addr)).headD 0 / 8 * 8) 8 = true ∧ a.lane < 32) :=
  ⟨⟨by decide +kernel, by decide +kernel, issues (by decide +kernel), issues (by decide +kernel)⟩, by decide +kernel, by decide +kernel⟩

theorem witness_FenceAndCacheInvalidate : ((run ready).group 0).reqs = [] ∧
    Issues (run ready) g0 {} { grp := true, mod := modOnly {} 3, drain := true } ∧
    Issues (run ready) g0 { mod := 3 } { grp := true, mod := modOnly { mod := 3 } 3 } :=
  ⟨by decide +kernel, issues (by decide +kernel), issues (by decide +kernel)⟩

/-- The word in the pinned way holds 1. -/
def word1 (x : Group) : State := { run x with lin := { data := [(way, 1)], secs := [(way / 32, { v := true })] } }

/-- A group that waits until the word reaches `n`, and whose word was written. -/
def waiter (n : Nat) : State := word1 { ready with st := .waiting, wait := .signals [(0, way, n)], written := [way] }

/-- A group whose lane 0 names the word with the threshold `n`, or the misaligned address beside it. -/
def reader (a : Nat) (n : Word) : State :=
  word1 { ready with active := 1, alive := 1, regs := [(0, BitVec.ofNat 32 a), (1, 0x100), (2, n)] }

/-- WAITSIG of registers 0 and 2. -/
def ws0 : Insn := { a := 0, b := 2 }

/-- The form of WAITSIG. -/
def wsForm : Form := { size := 0, a := .regs 2, b := .regs 2, wide := true, mod := modOnly ws0 0, drain := true }

/-- What the clauses of WAITSIG ask of a state; `bad` says whether a word fails, `done` whether every condition holds. -/
def readsIn (s : State) (bad done : Bool) : Prop :=
  let x := s.group (gid g0)
  let a := x.accesses ws0 (x.effective ws0) 8 2
  let v := s.issued (gid g0) 0x5C ws0
  let r := v.readSignals (gid g0) (a.1.map (fun (y : LaneAcc) => (y.lane, y.addr, y.b)))
  a.2 = [] ∧ anyRemote a.1 = false ∧ v.asksWait (a.1.map (fun (y : LaneAcc) =>
    (⟨groupAgent (gid g0), some (s.groupPart (gid g0)), y.addr, 8, .read, .clean⟩ : Ask))) = false ∧
  r.2.2.group (gid g0) = v.group (gid g0) ∧ r.1.isEmpty = !bad ∧ r.2.1 = done

/-- The word has reached the threshold. -/
theorem witness_NoticesWake_reached : Issues (reader 0x5A0000 1) g0 ws0 wsForm ∧
    (reader 0x5A0000 1).takeTurn (gid g0) = some (reader 0x5A0000 1) ∧ readsIn (reader 0x5A0000 1) false true :=
  ⟨issues (by decide +kernel), by rfl, by unfold readsIn; decide +kernel⟩

/-- It has not. -/
theorem witness_NoticesWake_waits : Issues (reader 0x5A0000 2) g0 ws0 wsForm ∧
    (reader 0x5A0000 2).takeTurn (gid g0) = some (reader 0x5A0000 2) ∧ readsIn (reader 0x5A0000 2) false false :=
  ⟨issues (by decide +kernel), by rfl, by unfold readsIn; decide +kernel⟩

/-- A word of a way that the partition does not own fails. -/
theorem witness_NoticesWake_fails : Issues (reader 0x600000 1) g0 ws0 wsForm ∧
    (reader 0x600000 1).takeTurn (gid g0) = some (reader 0x600000 1) ∧ readsIn (reader 0x600000 1) true true :=
  ⟨issues (by decide +kernel), by rfl, by unfold readsIn; decide +kernel⟩

theorem witness_NoticesWake :
    Issues (run ready) g0 { pred := 0 }
      { size := 0, a := .regs 2, b := .regs 2, wide := true, mod := modOnly { pred := 0 } 0, drain := true } ∧
    ((run ready).group 0).effective { pred := 0 } = 0 ∧
    (∀ n ∈ [1, 2], let s := waiter n
      (s.group 0).st = .waiting ∧ (s.group 0).wait = .signals [(0, way, n)] ∧ way ∈ (s.group 0).written ∧
      (s.group 0).active ≠ 0 ∧ (s.group 0).stack = [] ∧ s.clockStopped 0 = false ∧
      s.asksWait [(⟨groupAgent 0, some (s.groupPart 0), way, 8, .read, .clean⟩ : Ask)] = false ∧
      (let v := s.groupSet 0 { s.group 0 with written := [] }
       let r := v.readSignals 0 [(0, way, n)]
       r.1 = [] ∧ r.2.1 = (n == 1) ∧ r.2.2.group 0 = v.group 0)) ∧
    (let s := run { ready with st := .busy, waits := [(0, (16, 1))], notices := [(16, 1)] }
     mhas (s.group 0).notices 16 = true ∧ (s.group 0).st ≠ .waiting ∧ mhas (s.group 0).notices 8 = false) ∧
    (let x : Group := { clamped with notices := [(8, 1)] }
     mhas x.notices 8 = true ∧ x.st = .waiting ∧ x.wait = .clamp ∧ x.stack = [⟨0x40, 1, 0x80⟩] ∧ x.active = 0 ∧
       (1 : BitVec 32) &&& x.alive ≠ 0 ∧ (1 : BitVec 32) &&& mget x.notices 8 0 ≠ 0) :=
  ⟨issues (by decide +kernel), by decide +kernel⟩

/-- A group of P0 with a proof job. -/
def prover : Group := { ready with job := some ⟨0, 0, 0, 0, 0, 0, 0, 1, 1, 8, 0, [], 0⟩ }

theorem ready_w (l j : Nat) : ready.w l j = 0 := rfl

theorem prover_w (l j : Nat) : prover.w l j = 0 := rfl

theorem witness_StepInstructions :
    Issues (run ready) g0 {} { d := .regs 1 } ∧
    Issues (run ready) g0 { mod := 1, imm := 60 } { d := .regs 1, a := .regs 1, imm := true } ∧
    Issues (run ready) g0 {} { a := .regs 16, mod := modOnly {} 0, drain := true } ∧
    ((run ready).part 0).backlog.length + (lanesOf (ready.effective {})).length ≤ 65536 :=
  ⟨issues (by decide +kernel), issues (by decide +kernel), issues (by decide +kernel), by decide +kernel⟩

theorem witness_StepInstructions_complete (l : Nat) : (((run ready).group (gid g0)).w l 4).toNat % 2 ^ 16 ≤ 1 := by
  rw [run_group, ready_w]; decide

/-- PJOB of the word 0x83C of the job record. -/
def pjob : Insn := { imm := 0x83C }

/-- The form of PJOB. -/
def pjobForm : Form := { d := .regs 1, a := .regs 1, imm := true, mod := modOnly pjob 0, drain := true }

theorem witness_StepInstructions_pjob : prover.job.isSome = true ∧
    Issues (run prover) g0 pjob pjobForm ∧
    Issues (run prover) g0 { imm := 0x840 } pjobForm ∧ Issues (run prover) g0 { imm := 0xFFFC } pjobForm ∧
    Issues (run prover) g0 { imm := 0x83E } pjobForm ∧
    (((run prover).group 0).effective { imm := 0x840 } ≠ 0 ∧ pjobForm.mod = modOnly { imm := 0x840 } 0) ∧
    (signed 0x840 16 = 0x840 ∧ signed 0xFFFC 16 = -4 ∧ signed 0x83E 16 % 4 = 2) :=
  ⟨by decide +kernel, issues (by decide +kernel), issues (by decide +kernel), issues (by decide +kernel),
    issues (by decide +kernel), by decide +kernel, by decide⟩

theorem witness_StepInstructions_pjob_zero (l : Nat) : ((run prover).group (gid g0)).w l 0 = 0 := by rw [run_group, prover_w]

/-! ## Witnesses: panels, fitting and proof -/

/-- A PANEL command of one word, for slot 0. -/
def cmd (w : Word) : PCmd := { words := w :: List.replicate 7 0, slot := 0 }

/-- A core 0 in state `x`, its group 0 in state `y`. -/
def panels (x : CoreSt) (y : Group) : State := { run y with cores := [(0, x)] }

/-- A pattern whose P0 owns fit records 0 to 3 and one proof slot. -/
def fitted : State := { base with ptn := { base.ptn with running := { secs := [
  (16, { len := 8448, bytes := [(0, 1), (8, 3)] }), (112, { len := 4096, bytes := [(98, 4), (113, 1)] }),
  (144, { len := 4096, bytes := [] })] } } }

/-- The queue at 31 and at 32 entries; a counter 0 and 32,768 steps ahead of its target. -/
theorem witness_PanelInstructions :
    (let y : Group := { ready with regs := [(0, 5)] }
     let f : Form := { grp := true, a := .regs 8, mod := modOnly {} 0 }
     let q : PCmd := { words := base.resolveShape 0 [5, 0, 0, 0, 0, 0, 0, 0], slot := 0 }
     (List.range 8).map (fun n => y.w y.lowest (0 + n)) = [5, 0, 0, 0, 0, 0, 0, 0] ∧
     (∀ n ∈ [31, 32], let s := panels { queue := List.replicate n (cmd 5) } y
       canIssue s g0 {} f = true ∧ (s.group 0).isProof = false ∧ q.ok (s.core 0) = true ∧ (s.core 0).queue.length = n ∧
         (s.core 0).stalled = []) ∧
     Issues (run ready) g0 {} f ∧ ((run ready).group 0).reqs = [] ∧
     PCmd.ok { words := base.resolveShape 0 (List.replicate 8 0), slot := 0 } {} = false) ∧
    (Issues (run prover) g0 {} { grp := true, a := .regs 8, mod := modOnly {} 0 } ∧ ((run prover).group 0).isProof = true ∧
      ((run prover).group 0).reqs = []) ∧
    Issues (run ready) g0 { mod := 7 } { d := .regs 1, mod := modOnly { mod := 7 } 7 } ∧
    Issues (run ready) g0 { mod := 65 } { grp := true, imm := true, drain := true } ∧
    (0 + 2 ^ 16 - 0) % 2 ^ 16 < 32768 ∧
    Issues (run ready) g0 { mod := 65, imm := 32768 } { grp := true, imm := true, drain := true } ∧
    32768 ≤ (0 + 2 ^ 16 - 32768) % 2 ^ 16 ∧
    (∀ v : Fin 2, let s := run { ready with regs := if v.val = 0 then [] else [(0, 32768)] }
     canIssue s g0 { mod := 1 } { grp := true, b := .regs 1, drain := true } = true ∧
       ((s.group 0).w (s.group 0).lowest 0).toNat = 32768 * v.val ∧ mget (s.core 0).ctrs 1 0 = 0) ∧
    Issues (run ready) g0 { mod := 24 } { grp := true, d := .regs 2 } ∧ ((run ready).group 0).replay = none ∧
    Issues (run ready) g0 { mod := 8 } { grp := true, d := .regs 2 } ∧
    (let s := { fitted with groups := [(0, ready)] }
     Issues s g0 { mod := 8 } { grp := true, a := .regs 1, b := .regs 2 } ∧ ((s.group 0).w (s.group 0).lowest 0).toNat < 2 ^ 15 ∧
       (s.group 0).wide (s.group 0).lowest 0 2 = 0 ∧
       s.ptn.running.ownsFit (s.groupPart 0) (((s.group 0).w (s.group 0).lowest 0).toNat % 2 ^ 12) = true) ∧
    (let s := panels { stalled := [cmd 5] } { ready with st := .busy, stalled := true }
     s.clockStopped 0 = false ∧ (cmd 5).slot = 0 ∧ (s.core 0).stalled = [cmd 5] ∧ (s.core 0).queue.length < 32 ∧ (s.group 0).stalled = true ∧
       (s.group 0).replay.getD (s.group 0).active ≠ 0 ∧ (s.group 0).stack = []) :=
  ⟨⟨by decide +kernel, by decide +kernel, issues (by decide +kernel), by decide +kernel⟩, ⟨issues (by decide +kernel), by decide +kernel⟩,
    issues (by decide +kernel), issues (by decide +kernel), by decide, issues (by decide +kernel), by decide, by decide +kernel,
    issues (by decide +kernel), by decide +kernel, issues (by decide +kernel), ⟨issues (by decide +kernel), by decide +kernel⟩,
    by decide +kernel⟩

/-- A LOAD, a PASS and a DRAIN of panel 0 to staging at the head. -/
theorem witness_PanelCommandsStart : ∀ op ∈ [1, 2, 3],
    let q := cmd (BitVec.ofNat 32 (0x01010010 + op))
    let s := panels { queue := [q] } ready
    (s.core 0).queue = [q] ∧ s.clockStopped 0 = false ∧ (s.core 0).run = [] ∧ q.op = op ∧ q.f 2 19 19 = 0 := by
  decide +kernel

theorem witness_PanelCommandsComplete : (∀ op ∈ [4, 5], let q := cmd (BitVec.ofNat 32 (0x100 + op))
      let s := panels { queue := [q] } ready
      (s.core 0).queue = [q] ∧ s.clockStopped 0 = false ∧ (s.core 0).run = [] ∧ q.op = op ∧ q.ctr ≠ 0) ∧
    (let r : RunCmd := { cmd := cmd 0x01010111 }
     let s := panels { run := [r] } ready
     (s.core 0).run = [r] ∧ r.toSend = [] ∧ r.sent = [] ∧ r.cmd.op = 1 ∧ r.cmd.ctr = 1 ∧ r.tally = false ∧ r.fault = none) := by decide +kernel

theorem witness_FittingAndProof : (∀ p k, Req.firmware ≠ .fn (.vf p k)) ∧ atOnce base .firmware ∧
    (let s := { fitted with cores := [(0, { proofQ := [⟨0, 0, 0, 0, 0, 0, 0, 1, 1, 8, 0, [], 0⟩] })] }
     s.corePart 0 = some 0 ∧ s.clockStopped 0 = false ∧ (s.core 0).proofQ.length = 1 ∧
       (List.range 64).find? (fun k => s.proofSlot 0 k && (s.group (gix 0 k)).st == .free) = some 63) ∧
    prover.job.isSome = true ∧ (∀ j ∈ prover.job, (base.fitRec j.fitId).gen = j.gen) ∧
    Issues (run prover) g0 {} { grp := true, a := .regs 1, b := .regs 1, mod := modOnly {} 0, drain := true } :=
  ⟨fun _ _ => nofun, trivial, by decide +kernel, by decide +kernel, by decide +kernel, issues (by decide +kernel)⟩

/-- FP32 to PF4, a scaled destination, with the counts at their limit. -/
theorem witness_ConversionResults :
    (let x : Group := { ready with cvNan := 0xFFFF, cvOvf := 0xFFFF, cvFlush := 0xFFFF }
     Issues (run x) g0 { imm := 0x0A0E } (cvtForm { imm := 0x0A0E }) ∧ x.cvNan ≤ 0xFFFF ∧ fmtScaled (0x0A0E / 256) = true) ∧
    Issues (run ready) g0 { mod := 0x4A } { size := 0, d := .regs 1 } ∧ ready.effective { mod := 0x4A } ≠ 0 :=
  ⟨⟨issues (by decide +kernel), by decide +kernel⟩, issues (by decide +kernel), by decide +kernel⟩

/-! ## Witnesses: registers and basting -/

/-- PTN.LOAD_ADDR by the PF of port 0; PROG of channel 0, which P0 owns, of channel 1, which no partition owns, and of
channel 224, whose engine is not fitted. -/
theorem witness_WideRegisters : let r : Req := .fn (.pf 0)
    isWide 0x20010 = true ∧ isHigh 0x20010 = false ∧ isHigh 0x20014 = true ∧ base.mayRead r 0x20010 = true ∧
    base.mayRead r 0x20014 = true ∧ base.mayWrite r 0x20010 = true ∧ base.mayWrite r 0x20014 = true ∧ atOnce base r ∧
    regRow 0x20010 = regRow 0x20014 ∧ (∀ x ∈ regRow 0x20010, x.wide = true ∧ x.own = false) ∧
    (regRow 0x20010).isSome = true ∧ msixAt (reqIx r) 0x20010 = none ∧ msixAt (reqIx r) 0x20014 = none := by
  unfold atOnce
  decide +kernel

theorem witness_WideRegisters_jig : let r : Req := .fn (.pf 0)
    (∀ ch ∈ [0, 1, 224], let o := Reg.JIG_CH_PROG + 0x40 * ch
      base.mayWrite r o = true ∧ base.mayWrite r (o + 4) = true ∧ regRow o = regRow (o + 4) ∧
      (∀ x ∈ regRow o, x.wide = true ∧ x.own = false) ∧ isHigh o = false ∧ isHigh (o + 4) = true ∧
      (regRow o).isSome = true ∧ msixAt (reqIx r) o = none ∧ msixAt (reqIx r) (o + 4) = none ∧ (base.chan ch).st = .idle) ∧
    base.ptn.running.chanOwner 0 = some 0 ∧ base.ptn.running.chanOwner 1 = none ∧ base.engFitted 0 = true ∧
    ({ base with fuses := { base.fuses with xMask := 5 } } : State).engFitted 7 = false := by decide +kernel

/-- PTN.LOAD_LEN; IRQ.GCFG1 and IRQ.GCFG17; a VF of a partition that is not enabled. -/
theorem witness_RegisterWrites : let r : Req := .fn (.pf 0)
    atOnce base r ∧
    (∀ o ∈ [Reg.PTN_LOAD_LEN, Reg.IRQ_GCFG + 4, Reg.IRQ_GCFG + 68], base.mayWrite r o = true ∧ msixAt (reqIx r) o = none ∧
      base.strayChan r o = none ∧ (regRow o).isSome = true ∧ ∀ x ∈ regRow o, x.wide = false ∧ x.own = false) ∧
    base.strayChan r (Reg.JIG_CH_PROG + 0x40 - 8) = some 1 ∧ atOnce base .firmware ∧ base.strayChan .firmware (Reg.JIG_CH_PROG - 8) = some 0 ∧
    (∀ x ∈ regRow (Reg.IRQ_GCFG + 68), x.rw = 0xFFFF0FFF ∧ x.w1c = 0) ∧
    base.mayWrite r Reg.BRUP_CMD = true ∧ base.mayWrite (.fn (.vf 0 5)) Reg.PTN_LOAD_LEN = false ∧
    base.strayChan (.fn (.vf 0 5)) Reg.PTN_LOAD_LEN = none := by
  unfold atOnce
  decide +kernel

theorem witness_BastingCommands : let f : Func := .pf 0
    base.speaks f = true ∧ base.mustWait (portOf f) = false ∧ base.brup.katDone = true ∧ base.ptn.phase = .idle ∧ base.rf Reg.BRUP_STACK_STAT 6 4 = 0 ∧
    vfPart f = none ∧ base.ptn.committed = true ∧ base.nor.marked = [] ∧ (∀ n < 768, base.maskBit Reg.HBM_PEND n = false) ∧
    (let s := basting .opened false false
     s.ptn.opener = f ∧ 0 + max 0 1 ≤ s.capacity * 2 ^ 30 ∧ s.rg64 Reg.PTN_LOAD_ADDR % 2 ^ 48 = 0 ∧
       (s.rg Reg.PTN_LOAD_LEN).toNat = 0) ∧
    (let s := (basting .opened false false).rfSet Reg.PTN_PATCH_TARGET 15 0 7
     let s := s.rfSet Reg.PTN_PATCH_OFF 27 0 4092
     s.ptn.staged = some pat ∧ s.ptn.partScope = false ∧ s.rf Reg.PTN_PATCH_TARGET 15 0 = 7 ∧
       s.rf Reg.PTN_PATCH_OFF 27 0 = 4092 ∧ (pat.sec 7 0).len = 4096) ∧
    (basting .sewing false false).ptn.phase ≠ .idle ∧ (basting .opened true false).ptn.loading = true ∧
    (basting .opened false false).ptn.opener ≠ .pf 1 ∧ (basting .armed false true).ptn.commitDue = true ∧
    State.reset.brup.katDone = false ∧ State.reset.ptn.phase = .idle ∧ State.reset.rf Reg.BRUP_STACK_STAT 6 4 = 0 := by
  decide +kernel

/-! ## Witnesses: loads, sews and commits -/

/-- An image of 16,832 bytes with one CUTTING section of no bytes, whose header carries `crc`, in a trailer of zeros. -/
def imageBytes (flags crc : Nat) : List Byte :=
  leBytes 0x50544C50 4 ++ leBytes 1 2 ++ leBytes flags 2 ++ leBytes 16832 4 ++ leBytes 1 2 ++ leBytes 0 2 ++ leBytes 7 8 ++
    leBytes (base.variant % 2 ^ 16) 4 ++ List.replicate 100 0 ++
    leBytes 9 2 ++ leBytes 1 2 ++ leBytes 0 4 ++ leBytes 0 4 ++ leBytes crc 4 ++ List.replicate 16 0 ++ List.replicate 16672 0

/-- A token of kind CHANGE with SEQ 1 for a module without enrolled parties. -/
def tokenBytes : List Byte :=
  leBytes tokenMagic 4 ++ leBytes 1 2 ++ leBytes 1 2 ++ leBytes base.fuses.serial 8 ++ leBytes 1 8 ++ List.replicate 104 0 ++
    List.replicate 4 0xFF ++ List.replicate 33276 0

/-- A load of `n` bytes under way from a pinned way, which the firmware may not read. -/
def loadOf (n : Nat) : State :=
  let s := basting .opened true false
  { s with ptn := { s.ptn with loadLen := n, loadAddr := way } }

/-- What a LOAD finds: an image whose trailer names no slot, one of another length, one whose CRC differs, and a token; reads that
fail. An image whose RSASSA-PSS signature verifies, the premise of the other two verdicts, needs a key pair and is no small state. -/
theorem witness_BastingOutcomes_load :
    let s := loadOf 16832
     let im := parseImage (imageBytes 1 (crc32c []))
     s.scopeOk im = true ∧ s.ptn.committed = true ∧ s.headerBad im = false ∧
       imageSectionBad im = false ∧ (s.imageSigs im).1 = false ∧ (loadOf 16864).headerBad im = true := by decide +kernel

theorem witness_BastingOutcomes_image : (let im := parseImage (imageBytes 1 1)
     (loadOf 16832).headerBad im = false ∧ imageSectionBad im = true) ∧
    leAt (imageBytes 1 1) 0 4 ≠ tokenMagic ∧ (leAt tokenBytes 0 4 = tokenMagic ∧ (loadOf 33408).tokenDetail (parseToken tokenBytes) 1 33408 = 0) ∧
    ((loadOf 32).ptn.loading = true ∧ ((loadOf 32).loadRead .clean).1 ≠ 0 ∧
      ((loadOf 32).loadRead .clean).2.2.lin.stuck = none) := by decide +kernel

/-- A sew that lacks sections; the time-out; commits, without a fenced core, with a copy that fails when it is validated again, and with a marked core. -/
theorem witness_BastingOutcomes : (let s := basting .sewing false false
     s.ptn.staged = some pat ∧ s.validate pat ≠ 0) ∧
    (basting .opened false false).ptn.phase = .opened ∧
    (let t := basting .armed false true
     t.ptn.commitDue = true ∧ t.ptn.staged = some pat ∧ t.lostNow pat = false ∧ t.ptn.recheck = false) ∧
    (let s := basting .armed false true
     let t : State := { s with ptn := { s.ptn with recheck := true }, tick := {} }
     t.ptn.staged = some pat ∧ t.lostNow pat = false ∧ t.ptn.recheck = true ∧ t.validate pat ≠ 0 ∧ t.tick.en = false) ∧
    (let t : State := { basting .armed false true with nor := { marked := [0] }, tick := {} }
     t.ptn.staged = some pat ∧ t.lostNow pat = true ∧ t.tick.en = false) := by decide +kernel

/-- A step under way in P0. -/
def stepping : State := base.partSet 0 { running := true }

/-- Cutting lists due in P0 of an area without bytes, and none due; no step, and a step whose program has ended, with and without
mirroring. -/
theorem witness_StepDataWritten : (base.part 0).cutCopy = false ∧
    (let s := base.partSet 0 { cutCopy := true }
     (s.part 0).cutCopy = true ∧ (∀ c ∈ s.coresOf 0, (s.core c).queue = [] ∧ (s.core c).run = []) ∧
       lineCuts (s.ptn.running.cutBase 0) (s.ptn.running.areaLen 0) = []) ∧
    (base.part 0).running = false ∧
    (let s := stepping
     (s.part 0).running = true ∧ (s.part 0).fitClosed = false ∧ (s.part 0).startDue = false ∧ s.programEnded 0 = true ∧
       s.mirrored 0 = false ∧ s.ptn.running.fitCount 0 = 0) ∧
    (let s := { stepping.rgSet Reg.PAIR_CFG 0x10000 with pair := { role := .active } }
     s.mirrored 0 = true ∧ s.programEnded 0 = true ∧ s.ptn.running.fitCount 0 = 0) := by decide +kernel

/-! ## Witnesses: ticks, lining, HBM, network -/

/-- Edges 40 µs after the last one and 10 ns sooner. -/
theorem witness_TickReference :
    max 1 ((synced 1 0).rf Reg.IRQ_FILT 7 0) ≤ 255 ∧ ¬max 1 (base.rf Reg.IRQ_FILT 7 0) ≤ 0 ∧ (synced 1 0).tick.waitEdge = false ∧
    (let arrival := fun (s : State) => (s.now / 10 * 10 : Nat) - 10 * (max 1 (s.rf Reg.IRQ_FILT 7 0) : Int)
     (synced 1 0).ptn.running.syncSrc = 1 ∧ (synced 1 0).ptn.running.syncEdge = false ∧
     arrival (synced 1 140040) = 100000 + 40000 ∧ (synced 1 140040).tick.lastEdge = some 100000 ∧
     arrival (synced 1 140030) < 100000 + 40000) ∧
    (let s := (synced 2 0).rgSet Reg.TICK_TB_CTL 1
     let s := s.rbSet Reg.TICK_TB_STAT 4 false
     s.onBus = true ∧ s.ptn.running.syncSrc = 2) ∧
    base.ptn.running.syncSrc ≠ 1 ∧ (synced 1 0).tick.syncLost = false ∧ (synced 1 0).tick.en = true ∧
    (synced 1 0).ptn.running.syncSrc ≠ 0 ∧
    (State.reset.tick.next = none ∧ State.reset.ptn.commitDue = false) ∧
    base.tick.next = some 160000 ∧ base.ptn.phase ≠ .armed ∧ base.ptn.commitDue = false := by decide +kernel

/-- Group 0's access of P0. -/
def acc (addr : BitVec 48) (op : LinOp) : LinAccess := ⟨.core g0, 0, addr, op, 0, .clean, none⟩

/-- Line 0 of P0's span at slice 0 with state `y` and valid sectors, and a valid sector in the pinned way. -/
def lined (y : Line) (ss : List Nat) : State := { base with
  lin := { lines := [(0, y)], secs := ss.map (fun i => (i, { v := true })) ++ [(way / 32, { v := true })] } }

theorem home_zero (s : State) (h : setBits (s.ptn.running.sliceMask 0) 1536 = [0]) : (s.home 0 0).1 = 0 := by
  simp only [State.home, h]
  simp [Nat.mod_one]

/-- An access that fails; the last byte of a resident line; the last sector of a pinned line, and a byte before its end. -/
theorem witness_LiningAccesses : let s := lined {} [0, 1, 2, 3]
    s.target (.core g0) (some 0) 0xC00000000000 = .fails eBounds ∧ accBad (acc 0 (.reduce 3 [])) ≠ 0 ∧
    (s.target (.core g0) (some 0) 127 = .cached 0 ∧ s.line 0 = some {} ∧ s.lin.writeBack = [] ∧
      (∀ b ∈ secsOf 127 1, (s.sec b).v = true ∧ (s.sec b).poison = false)) ∧
    ((s.home 0 0).1 / 256 = 0 ∧ s.agentDie (.core g0) = 0 ∧ s.brup.outDies = [] ∧ s.lin.tickets = [] ∧
      s.ptn.running.regFind 0 (masterId (.core g0)) 12 = none) ∧
    (s.target (.core g0) (some 0) way = .pinned ∧ winSlice way = 0 ∧ (way + 31) % 32 + 1 ≤ 32 ∧
      (∀ b ∈ secsOf way 128, (s.sec b).v = true → (s.sec b).poison = false)) := by
  have h := home_zero (lined {} [0, 1, 2, 3]) (by decide +kernel)
  refine ⟨by decide +kernel, by decide +kernel, by decide +kernel, ⟨?_, by decide +kernel⟩, by decide +kernel⟩
  rw [h]

/-- P0 owns slice 0 of die 1 alone. -/
def apart : Pat := { pat with secs := pat.secs.map (fun e =>
  if e.1 = 16 then (16, { len := 8448, bytes := [(0, 1), (8, 3), (0x10, 1), (0x20, 1), (0x60, 1), (0xE0, 1)] }) else e) }

/-- A copy of line 0 on die 0, while its home is on die 1. -/
theorem witness_LiningAccesses_copy : let s : State := { base with
      ptn := { base.ptn with running := apart },
      lin := { lines := [(0, { sharers := 1 })], copies := [(0, ⟨1, 0, 0, 15⟩)], secs := [(0, { v := true })] } }
    s.target (.core g0) (some 0) 0 = .cached 0 ∧ s.copyServes 0 (accAsk (acc 0 (.read 32))) = true := by
  have h : (State.home { base with
      ptn := { base.ptn with running := apart },
      lin := { lines := [(0, { sharers := 1 })], copies := [(0, ⟨1, 0, 0, 15⟩)], secs := [(0, { v := true })] } } 0 0).1 = 256 := by
    have h : setBits (apart.sliceMask 0) 1536 = [256] := by decide +kernel
    simp only [State.home, h]
    simp [Nat.mod_one]
  refine ⟨by decide +kernel, ?_⟩
  simp only [State.copyServes]
  rw [show (accAsk (acc 0 (.read 32))).addr / 128 = 0 from rfl, h]
  decide +kernel

/-- Nothing is cached: a read of line 0 misses and finds a free way in whichever set its hash gives. -/
theorem witness_LiningAccesses_miss :
    base.target (.core g0) (some 0) 0 = .cached 0 ∧ base.line 0 = none ∧ base.lin.writeBack = [] ∧
    ((base.home 0 0).1 / 256 = 0 ∧ base.agentDie (.core g0) = 0 ∧ base.brup.outDies = [] ∧ base.lin.tickets = [] ∧
      base.ptn.running.regFind 0 (masterId (.core g0)) 12 = none) ∧
    base.ptn.running.regFind 0 (masterId (.core g0)) (base.stackOf 0) = none ∧
    base.pickWay (base.home 0 0).1 (base.home 0 0).2 none = .free 0 ∧ base.missEntries (base.home 0 0).1 < 64 ∧
    (∀ b ∈ secsOf 0 32, (base.sec b).v = false ∧ (base.route 0 (base.stackOf b / 2) 11).isSome = true) := by
  have h := home_zero base (by decide +kernel)
  have w : ((List.range 16).filter (fun w => (base.ptn.running.wayPin 0 w).isNone)).find? (fun _ => true) = some 0 := by
    decide +kernel
  refine ⟨by decide +kernel, by decide +kernel, by decide +kernel, ⟨?_, by decide +kernel⟩, by decide +kernel, ?_, ?_,
    by decide +kernel⟩
  · rw [h]
  · rw [h]
    have hl : ∀ st, base.setLines 0 st = [] := fun _ => rfl
    have hc : ∀ st, base.setCopies 0 st = [] := fun _ => rfl
    simp only [State.pickWay, hl, hc, List.any_nil, Bool.not_false, Bool.and_self, w]
  · rw [h]
    decide +kernel

/-- An update of 4 bytes. -/
def upd : LinAccess := acc 28 (.reduce 1 [1, 0, 0, 0])

/-- Stack 0, where P0's lines lie, stopped. -/
def stopped (s : State) : State := s.stackSet 0 { st := .stop }

/-- A sector fetched for the whole line; a sector whose fetch fails; a recall. -/
theorem witness_LiningSlices :
    (let s := lined { fills := [(3, [])] } []
     s.lin.blocked = [] ∧ s.lin.copyDue = [] ∧ s.line 0 = some { fills := [(3, [])] } ∧ (s.sec 96).v = false ∧
       s.stackKeeps 96 (s.ticket (fillAsk 96 [])) = false ∧
       (s.hbmRead 96 .clean).1 = 0 ∧ ((s.hbmRead 96 .clean).2.2.route ((s.hbmRead 96 .clean).2.2.stackOf 96 / 2) 0 11).isSome = true) ∧
    (let s := lined { fills := [(0, [upd])] } []
     (s.hbmRead 0 .uncorrectable).1 ≠ 0 ∧ (s.sec 0).v = false ∧ s.stackKeeps 0 (s.ticket (fillAsk 0 [upd])) = false) ∧
    (lined { recalling := true, sharers := 2 } []).line 0 = some { recalling := true, sharers := 2 } ∧
    (let s := lined { recalling := true, sharers := 2 } []
     (s.route 0 1 11).isSome = true ∧ (s.route 1 0 11).isSome = true) := by decide +kernel

/-- Write-backs to a stopped and to a running stack. -/
theorem witness_LiningSlices_back :
    (∀ st ∈ [false, true], let s : State := { base with
        lin := { writeBack := [(0, 0)], secs := [(0, { v := true, dirty := true })] } }
      let s := if st then stopped s else s
      s.lin.writeBack.find? (fun e => e.1 == 0) = some (0, 0) ∧ s.lin.blocked = [] ∧ s.hasDirty 0 = true ∧
        ∀ b ∈ lineSecs 0, (s.sec b).v = true → (s.sec b).dirty = true → s.stackStopped b = st ∧ s.sinks 0 b = !st) := by decide +kernel

/-- A write-back from a slice that no route leaves. -/
theorem witness_LiningSlices_routeless :
    (let s : State := { base.rgSet Reg.NET_STATUS 0x1FFC with
        lin := { writeBack := [(0, 256)], secs := [(0, { v := true, dirty := true })] } }
     s.lin.writeBack.find? (fun e => e.1 == 0) = some (0, 256) ∧ s.hasDirty 0 = true ∧ s.stackStopped 0 = false ∧
       s.route 1 (s.stackOf 0 / 2) 11 = none) := by decide +kernel

/-- A failed fetch leaves the way from the stack to the slice as it was. -/
theorem witness_LiningSlices_route : let s := lined { fills := [(0, [upd])] } []
    let u := (s.hbmRead 0 .uncorrectable).2.2
    (u.route (u.stackOf 0 / 2) 0 11).isSome = true := by decide +kernel

/-- An update queued at a resident line. -/
theorem witness_LiningSlices_update : let s := lined { held := [.access upd] } [0]
    s.line 0 = some { held := [.access upd] } ∧ s.heldOf { held := [.access upd] } = [.access upd] ∧ reduceValid 1 = true ∧ 4 % reduceWidth 1 = 0 ∧ (s.sec 28).v = true ∧
      (s.sec 28).poison = false ∧ s.slotWaits { accAsk upd with kind := .read } none = false := by
  have h := home_zero (lined { held := [.access upd] } [0]) (by decide +kernel)
  refine ⟨by decide +kernel, by decide +kernel, by decide +kernel, by decide +kernel, by decide +kernel, by decide +kernel, ?_⟩
  have t : (lined { held := [.access upd] } [0]).target (accAsk upd).agent (accAsk upd).part (accAsk upd).addr = .cached 0 := by
    decide +kernel
  simp only [State.slotWaits, State.copyServes, t]
  rw [show (accAsk upd).addr / 128 = 0 from rfl, h]
  decide +kernel

/-- Slice 0 with THRASH_LIMIT 4 and `n` dead evictions. -/
def thrashing (n : Nat) : State := { base with
  ptn := { base.ptn with running := { secs := [(48, { len := 14656, bytes := [(66, 4)] })] } }, lin := { dead := [(0, n)] } }

/-- One eviction above the limit, and half of it. -/
theorem witness_LiningUpkeep : (base.rbSet Reg.LIN_SCRUB 0 false).rb Reg.LIN_SCRUB 0 = false ∧
    (let s := { (lined {} [0]).rbSet Reg.LIN_SCRUB 0 true with
       lin := { staleQ := [(0, [0])], secs := [(0, { v := true, stale := true })] } }
     s.rb Reg.LIN_SCRUB 0 = true ∧ mget s.lin.staleQ 0 [] = [0] ∧ (s.sec 0).v = true ∧ (s.sec 0).poison = false ∧ (s.sec 0).stale = true) ∧
    (let lim := (thrashing 5).ptn.running.thrashLimit 0
     lim = 4 ∧ mget (thrashing 5).lin.dead 0 0 = lim + 1 ∧ (0 ∉ (thrashing 5).lin.thrashed) ∧
       mget (thrashing 2).lin.dead 0 0 = lim / 2) ∧
    (isPf (.pf 0) = true ∧ State.reset.mustWait (portOf (.pf 0)) = false ∧ State.reset.tick.en = false ∧ State.reset.lin.clearing = false) ∧ base.tick.en = true ∧
    (let s := lined {} [0]
     s.speaks (.pf 0) = true ∧ s.mustWait (portOf (.pf 0)) = false ∧ s.pinBusy = false ∧ s.lin.writeBack = [] ∧
      ∀ e ∈ s.lin.lines, s.spanOwner (128 * e.1) = some 0 ∧ ∀ b ∈ lineSecs e.1, s.sinks e.2.die b = true) ∧
    (let s : State := { base with lin := { flushing := some 0 } }
     s.lin.writeBack = [] ∧ s.dirtyPart 0 = false) ∧
    (let s := stopped { base with lin := { flushing := some 0, lines := [(0, {})], secs := [(0, { v := true, dirty := true })] } }
     s.lin.writeBack = [] ∧ s.dirtyPart 0 = true ∧
      ∀ e ∈ s.lin.lines, ∀ b ∈ lineSecs e.1, s.stackStopped b = true) := by decide +kernel

/-- `base` with a dynamic region of P0. -/
def dynamic : State := { base with
  ptn := { base.ptn with running := { pat with secs := pat.secs.map (fun e =>
    if e.1 = 48 then (48, { len := 14656, bytes := [(6464, 3), (6467, 1), (6470, 1)] }) else e) } } }

theorem witness_PinsAndHomes : dynamic.mustWait (portOf (.pf 0)) = false ∧ dynamic.speaks (.pf 0) = true ∧ dynamic.pinBusy = false ∧
    ((dynamic.ptn.running.region 0).valid = true ∧ (dynamic.ptn.running.region 0).dyn = true) ∧ vfPart (.pf 0) = none ∧
    (dynamic.ptn.running.region 1).valid = false ∧
    { dynamic with lin := { pinCmd := some (true, 0) } }.pinBusy = true ∧
    (∀ a ∈ [0, 2 ^ 30 - 1], a < dynamic.capacity * 2 ^ 30 ∧ dynamic.spanOwner a = some 0) := by decide +kernel

/-- The last sector of P0's span, the first beyond the capacity, and a poisoned sector. -/
theorem witness_HbmSectors : let a := 2 ^ 30 - 32
    base.capacity * 2 ^ 30 ≤ 768 * 2 ^ 30 ∧ (a < base.capacity * 2 ^ 30 ∧ base.spanOwner a = some 0 ∧ base.keyGen a ≠ 0 ∧
      (base.stackSt (base.stackOf a)).st ≠ .stop ∧
      (mget base.hbm.secs (hsecKey (base.hbmPlace a).1 (base.hbmPlace a).2) {}).poison = false) ∧
    (let s := { base with hbm := { secs := [(0, { poison := true, gen := 1 })] } }
     (mget s.hbm.secs (hsecKey (s.hbmPlace 0).1 (s.hbmPlace 0).2) {}).poison = true ∧ s.keyGen 0 ≠ 0) ∧
    (∀ x ∈ [false, true], let s := base.stackSet 0 { st := .stop, expired := x }
      s.stackOf a = 0 ∧ (s.stackSt (s.stackOf a)).st = .stop ∧ (s.stackSt (s.stackOf a)).expired = x ∧ s.keyGen a ≠ 0 ∧
        a < s.capacity * 2 ^ 30 ∧ s.spanOwner a = some 0) := by decide +kernel

theorem witness_StackUpkeep :
    (let s := base.rbSet Reg.HBM_PATROL 0 true
     s.rb Reg.HBM_PATROL 0 = true ∧ s.pchLive 767 = true ∧ (s.stackSt 11).st ≠ .stop ∧
       s.patrolNext 767 (2 ^ 19 + 1) (mget s.hbm.patrol 767 0) = some (0, s.addrOf 767 0) ∧
       (mget s.hbm.secs (hsecKey 767 0) {}).poison = false) ∧
    (isPf (.pf 1) = true ∧ base.mustWait (portOf (.pf 1)) = false ∧ base.fitted (767 / 64) = true ∧ base.maskBit Reg.HBM_MAPPED 767 = false ∧
      base.maskBit Reg.HBM_PEND 767 = false ∧
      (base.rbSet (Reg.HBM_PEND + 4 * 23) 31 true).maskBit Reg.HBM_PEND 767 = true) ∧
    (base.fitted 11 = true ∧ (base.stackSt 11).st = .normal) ∧
    base.stopTimes 0 = [] ∧
    (let w : List SectorWait := [⟨0, none, .clean, 0, 5, 1⟩, ⟨32, none, .clean, 0, 9, 1⟩]
     let s : State := { base with hbm := { stks := [(0, { st := .stop })], waits := w } }
     (s.stackSt 0).st = .stop ∧ s.stopTimes 0 = [5, 9] ∧ ∀ w ∈ s.hbm.waits, s.stackOf w.addr = 0) := by decide +kernel

theorem witness_LanesAndRegulators : base.tick.en = true ∧ base.dowelPresent 10 = true ∧ base.rb Reg.NET_STATUS 12 = false ∧
    (base.dowel 21).live 539 = true ∧ 539 ∉ (base.dowel 21).waiting ∧
    (let s : State := { base with tick := {} }
     s.tick.en = false ∧ s.dowelPresent 10 = true ∧ s.rb Reg.NET_STATUS 12 = false ∧ (s.dowel 21).live 539 = true ∧
       s.net.dirs = [] ∧ (s.dowel 21).used 7 < 4) ∧
    (∀ n ∈ [0, 3], let s := base.rfSet Reg.NET_DARN_CFG 15 0 n
      s.rf Reg.NET_DARN_CFG 15 0 = n) ∧ base.lin.blocked = [] ∧ base.lin.copyDue = [] ∧
    (let t : Pat := { secs := [(80, { len := 8256, bytes := [(0, 1), (64, 1), (68, 1)] })] }
     t.regValid 0 = true ∧ bitOf (t.regPoints 0) 0 = true) := by decide +kernel

/-! ## Witnesses: jig engines -/

/-- Channel 0 of P0 in state `x`, its bases in the pinned way, at PC `pc`; the way's first word holds `v`. -/
def jig (x : Chan) (pc : Nat) (v : Byte) : State :=
  let s : State := { base with jig := { chans := [(0, x)] }, lin := { data := [(way, v)], secs := [(way / 32, { v := true })] } }
  let s := s.rg64Set (chReg Reg.JIG_CH_SB 0) way
  let s := s.rg64Set (chReg Reg.JIG_CH_DB 0) (way + 256)
  s.rfSet (chReg Reg.JIG_CH_PC 0) 15 0 pc

/-- MOVE of 8 bytes. -/
def mv : BitVec 128 := 0x07000001

/-- That MOVE from PC 0, taken; with its bytes read; with an access out. -/
def taken : MoveSt := { w := mv, begun := true }
def readIn (v : Byte) : MoveSt := { taken with got := [v, 0, 0, 0, 0, 0, 0, 0] }
def outNow : MoveSt := { taken with reads := [{ key := 0 }] }

theorem witness_JigCommands : let f : Func := .pf 0
    (base.mustWait (portOf f) = false ∧ base.engFitted 0 = true ∧ base.jigReaches f 0 = true ∧ base.jigReaches f 1 = false ∧ (base.chan 0).st = .idle) ∧
    (let s := jig { st := .running } 0 0
     (s.chan 0).st ≠ .idle ∧ (s.chan 0).moves = [] ∧ (s.chan 0).sent = none ∧ s.chFar 0 = false ∧ s.chReady 0 = true) ∧
    (let s := jig { st := .running, moves := [outNow] } 0 0
     (s.chan 0).st ≠ .idle ∧ (s.chan 0).moves = [outNow] ∧ outNow.out = true) ∧
    (let s := { jig { st := .stopped } 0xFFE0 0 with jig := { chans := [(0, { st := .stopped })], stopped := [0] } }
     isPf f = true ∧ s.jig.stopped.contains 0 = true ∧ 32 * 0 + s.rf (Reg.JIG_ENG + 4 * 0) 10 6 = 0 ∧
       (s.chan 0).st = .stopped ∧ (s.chan 0).stopping = false ∧ s.chPc 0 + 16 = 0xFFF0 ∧ 0 ∈ engChans 0) ∧
    (∀ n ∈ engChans 0, (base.chan n).st = .idle) ∧ (∃ n ∈ engChans 0, ((jig { st := .running } 0 0).chan n).st ≠ .idle) := by
  decide +kernel

/-- A MOVE that is taken, behind another whose read is out, and one marked bad. -/
theorem witness_JigMoves :
    (jf mv 3 0 = 1 ∧ moveOk mv = true ∧ isDesc mv = false) ∧
    (let s := jig { st := .running } 0 1
     s.chReady 0 = true ∧ (s.moveCheck 0 { w := mv }).1 = 0) ∧
    (let s := (jig { st := .running } 0 1).rg64Set (chReg Reg.JIG_CH_SB 0) (2 ^ 48 - 7)
     s.chReady 0 = true ∧ (s.moveCheck 0 { w := mv }).1 ≠ 0 ∧ s.pl7Active 0 = false ∧ s.chPc 0 + 16 < 0x10000) ∧
    (let o : MoveSt := { readIn 1 with writes := [{ key := 0 }] }
     let s := jig { st := .running, moves := [o] } 0 1
     s.chReady 0 = true ∧ o.out = true ∧ (s.moveCheck 0 { w := mv }).1 = 0) := by decide +kernel

/-- A read while another channel of the engine has 1,024 sectors out. -/
theorem witness_JigMoves_full :
    let o : MoveSt := { taken with reads := [{ key := 0, skip := 0, take := 32768 }] }
    let s : State := { jig {} 0 1 with jig := { chans := [(0, { st := .running, moves := [taken] }), (1, { st := .running, moves := [o] })] } }
    (s.chan 0).moves = [taken] ∧ (s.chan 0).wait = none ∧ (s.chan 0).stopping = false ∧
      s.jigFull ⟨jigAgent 0, some (s.chPart 0), way, 8, .read, .clean⟩ = true := by decide +kernel

/-- The read of its bytes, in the last place of the program, and their write. -/
theorem witness_JigMoves_access :
    (let s := jig { st := .running, moves := [taken] } 0xFFE0 1
     let r := ({ s with lin := s.lin.calm } : State).memRead (jigAgent 0) (some (s.chPart 0)) way 8 .clean
     (s.moveCheck 0 taken).1 = 0 ∧ wrapOf mv true = 0 ∧ wrapOf mv false = 0 ∧ jf mv 9 8 = 0 ∧ (s.chan 0).moves = [taken] ∧
       (s.chan 0).wait = none ∧ (s.chan 0).stopping = false ∧ s.jig.stopped.contains 0 = false ∧
       s.jigFull ⟨jigAgent 0, some (s.chPart 0), way, 8, .read, .clean⟩ = false ∧
       ((s.sideBase 0 taken true).1 + (s.sideBase 0 taken true).2).toNat = way ∧ s.chPc 0 + 16 < 0x10000 ∧
       isRemote way = false ∧ way % 128 + 8 ≤ 128 ∧ r.1 = 0 ∧ r.2.1.length = 8 ∧ r.2.2.lin.stuck = none ∧ r.2.2.jig = s.jig ∧
       r.2.2.chPc 0 = s.chPc 0) ∧
    (let s := jig { st := .running, moves := [readIn 1] } 0 1
     let q := ({ s with lin := s.lin.calm } : State).memWrite (jigAgent 0) (some (s.chPart 0)) (way + 256) (readIn 1).got .clean
     (s.moveCheck 0 taken).1 = 0 ∧ ((s.sideBase 0 taken false).1 + (s.sideBase 0 taken false).2).toNat = way + 256 ∧
       (way + 256) % 128 + 8 ≤ 128 ∧ isRemote (way + 256) = false ∧ (readIn 1).got.length = 8 ∧ jf mv 7 4 = 0 ∧ q.1 = 0 ∧
       q.2.lin.stuck = none ∧ q.2.jig = s.jig) := by decide +kernel

/-- LOOP back by one instruction, twice. -/
def loop : BitVec 128 := 0x00200102

/-- WAIT for the word in the pinned way to reach 1, or 1 more than WBASE. -/
def waitWord (rel : Nat) : BitVec 128 := BitVec.ofNat 128 (3 + 64 * rel + way * 2 ^ 16 + 2 ^ 64)

/-- Both ends of the count. -/
theorem witness_JigControl_loop :
    (jf loop 3 0 = 2 ∧ jf loop 6 4 < 5 ∧ jf loop 7 7 = 0 ∧ 0 < jf loop 19 8 ∧ jf loop 43 20 = 2 ∧ jf loop 63 44 = 0 ∧
      (∀ n ∈ [0, 1], let s := jig { st := .running, iter := if n = 0 then [] else [(0, 1)] } 16 0
       s.jig.stopped.contains 0 = false ∧ s.chPc 0 + 16 < 0x10000 ∧
       s.chReady 0 = true ∧ 16 * jf loop 19 8 ≤ s.chPc 0 ∧ mget (s.chan 0).iter 0 0 = n)) ∧
    (∀ k ∈ [1, 2], let w := BitVec.ofNat 128 (3 + 16 * k)
      jf w 3 0 = 3 ∧ jf w 15 6 = 0 ∧ jf w 127 16 = 0 ∧ jf w 5 4 = k) ∧
    (let s := jig { st := .running, moves := [readIn 1] } 16 0
     s.chReady 0 = true ∧ (s.chan 0).moves ≠ [] ∧ (s.chan 0).sent = none) := by decide +kernel

/-- Both sides of the threshold. -/
theorem witness_JigControl_wait : ∀ rel ∈ [0, 1], ∀ v ∈ [(0 : Byte), 1],
    let s := jig { st := .waiting, wait := some (waitWord rel) } 0 v
    let r := ({ s with lin := s.lin.calm } : State).memRead (jigAgent 0) (some (s.chPart 0)) way 8 .clean
    (s.chan 0).st = .waiting ∧ (s.chan 0).stopping = false ∧ (s.chan 0).wait = some (waitWord rel) ∧
      jf (waitWord rel) 63 16 = way ∧ jf (waitWord rel) 5 4 = 0 ∧ way % 8 = 0 ∧ isRemote way = false ∧
      s.jigFull ⟨jigAgent 0, some (s.chPart 0), way, 8, .read, .clean⟩ = false ∧ r.1 = 0 ∧ r.2.2.lin.stuck = none ∧
      r.2.2.jig = s.jig ∧ r.2.2.chPc 0 = s.chPc 0 ∧ leNat r.2.1 = v.toNat ∧ jf (waitWord rel) 127 64 = 1 ∧
      s.rg64 (chReg Reg.JIG_CH_WBASE 0) = 0 := by decide +kernel

/-- SIGNAL of the pinned word, and END with its record in it and without one. -/
theorem witness_JigControl :
    (let w := BitVec.ofNat 128 (4 + way * 2 ^ 16 + 2 ^ 64)
     let s := jig { st := .running } 0 1
     let held : State := ({ s with lin := s.lin.calm } : State).chanMap 0 (fun y => { y with wait := some w })
     let r := held.memUpdate (jigAgent 0) (some (s.chPart 0)) way 8 (fun old => leBytes (leNat old + 1) 8) .clean
     s.chReady 0 = true ∧ jf w 3 0 = 4 ∧ jf w 15 5 = 0 ∧ jf w 127 96 = 0 ∧ jf w 63 16 = way ∧ isRemote way = false ∧ way % 8 = 0 ∧
       r.1 = 0 ∧ r.2.2.lin.stuck = none ∧ r.2.2.jig = held.jig ∧ r.2.2.chPc 0 = s.chPc 0) ∧
    (let w : BitVec 128 := 0x45
     jf w 3 0 = 5 ∧ jf w 15 7 = 0 ∧ jf w 127 64 = 0 ∧ jf w 63 16 = 0 ∧ bitOf w.toNat 4 = false ∧ bitOf w.toNat 5 = false ∧
       bitOf w.toNat 6 = true) ∧
    (let w := BitVec.ofNat 128 (0x35 + way * 2 ^ 16)
     let s := jig { st := .running } 0 1
     let held : State := ({ s with lin := s.lin.calm } : State).chanMap 0 (fun y => { y with wait := some w })
     let q := held.memWrite (jigAgent 0) (some (s.chPart 0)) way
       (leBytes (Nat.xor (s.rg (chReg Reg.JIG_CH_CRC 0)).toNat 0xFFFFFFFF + 2 ^ 32 * (s.chan 0).badEnd) 8) .clean
     jf w 3 0 = 5 ∧ jf w 15 7 = 0 ∧ jf w 127 64 = 0 ∧ bitOf w.toNat 4 = true ∧ bitOf w.toNat 5 = true ∧ q.1 = 0 ∧
       q.2.lin.stuck = none ∧ q.2.jig = held.jig) := by decide +kernel

/-! ## Witnesses: the whole machine -/

theorem witness_StepTakesFrontCommand : State.reset.pending = [] ∧ State.reset.lin.blocked = [] ∧ State.reset.lin.copyDue = [] ∧
    State.reset.spl.links = [] ∧ ∀ p, (State.reset.port p).ops = [] ∧ (State.reset.port p).later = [] :=
  ⟨rfl, rfl, rfl, rfl, fun p => by simp only [State.port]; split <;> exact ⟨rfl, rfl⟩⟩

theorem witness_FusesOnlyBurn : ∃ t, exec .rstdaa State.reset = .next t := ⟨_, rfl⟩

theorem witness_StepKeepsMemories : State.reset.memWf = true ∧ ∃ t, step State.reset = .next t := ⟨by decide, _, rfl⟩

/-- MOD_RST_N held low for 255 cycles of 10 ns, and for none. -/
theorem witness_ResetState : (0 : ResetCause) ≠ 10 ∧ base.passes 3 255 = true ∧ base.passes 3 0 = false := by decide +kernel

/-! ## Witnesses: spline links -/

/-- Link 0 in state `x`. -/
def linked (x : SLink) : State := { base with spl := { links := [(0, x)] } }

/-- A link in service. -/
def up : SLink := { st := .up4, lanes := 0xF }

/-- An INIT flit of module 2, link 5. -/
def initFlit : List Byte := Flit.toBytes { kind := 2, modid := 2, link := 5 }

theorem witness_SplineLinkStates : (base.link 0).st = .down ∧ linkFitted base 0 = true ∧
    (∀ k ∈ [false, true], let s := linked { st := .training, keeping := k }
     (s.link 0).st = .training ∧ (s.link 0).trained = false ∧ (s.link 0).keeping = k ∧ (s.link 0).held = [] ∧ (s.link 0).queue = []) ∧
    lanesUp (Nat.land 0xC 15) ≠ 0 ∧ lanesUp (Nat.land 0xA 15) = 0 ∧
    (∀ k ∈ [false, true], ∀ l ∈ [3, 0xF], let s := linked { st := .training, trained := true, lanes := l, keeping := k }
      (s.link 0).trained = true ∧ (s.link 0).queue = [] ∧ (s.link 0).lanes = l ∧ (s.link 0).keeping = k) ∧
    flitGood initFlit = true ∧
    (base.mustWait (portOf (.pf 0)) = false ∧ isPf (.pf 0) = true ∧ linkFitted base 0 = true ∧ (base.link 0).up = false ∧ (base.link 0).keeping = false) ∧
    ((linked up).link 0).up = true ∧ ((linked up).link 0).held = [] ∧ ((linked up).link 0).queue = [] ∧
    lanesUp (15 - (Nat.lor 0 (2 ^ 3))) ≠ 0 ∧ lanesUp (15 - Nat.lor 1 (2 ^ 3)) = 0 ∧ base.rf Reg.SPL_CFG 31 16 < 0xFFFFFFFF ∧
    (let s := linked { st := .up2, lanes := 3, failed := 0xC }
     (s.link 0).st = .up2 ∧ bitOf (s.link 0).lanes 1 = true) := by decide +kernel

/-- A flit of link 0 with SEQ `seq` that acknowledges `ack`; one with its last byte changed. -/
def flit (kind seq ack : Nat) : List Byte := Flit.toBytes { kind := kind, seq := seq, ack := ack }
def badFlit : List Byte := (flit 1 0 5).take 255 ++ [(flit 1 0 5).getD 255 0 + 1]

/-- A flit in sequence, one with a bad CRC, one out of sequence; an ACK of the oldest flit and of none; a resend below NAK_LIMIT
and at it. -/
theorem witness_SplineFlits : let x : SLink := { up with replay := [⟨0, 0, 0, []⟩], txSeq := 1 }
    x.up = true ∧ x.queue = [] ∧
    (flitGood (flit 1 0 5) = true ∧ (flitOf (flit 1 0 5)).seq = x.rxSeq ∧ x.replay.findIdx? (fun e => e.seq == 5) = none ∧
      (flitOf (flit 1 0 5)).ack = 5) ∧
    flitGood badFlit = false ∧ (flitOf (flit 1 4095 5)).seq ≠ x.rxSeq ∧ flitGood (flit 1 4095 5) = true ∧
    (flitGood (flit 0 0 0) = true ∧ x.replay.findIdx? (fun e => e.seq == (flitOf (flit 0 0 0)).ack) = some 0 ∧ x.held = []) ∧
    x.replay ≠ [] ∧ flitGood (flit 3 0 5) = true ∧ x.replay.findIdx? (fun e => e.seq == (flitOf (flit 3 0 5)).ack) = none ∧
    (let s := (linked x).rfSet Reg.SPL_CFG 3 0 2
     ¬max 1 (s.rf Reg.SPL_CFG 3 0) ≤ 0 + 1 ∧ max 1 (s.rf Reg.SPL_CFG 3 0) ≤ 1 + 1) := by decide +kernel

/-- Module 1, which reaches module 2 by link 0 and exposes the pinned way of P0 to every module. -/
def routed : State := { linked up with ptn := { base.ptn with running := { pat with secs := pat.secs ++ [
  (96, { len := 71232, bytes := [(0, 1), (0x600, 8), (0x602, 10), (0x660, 1), (0x10640, 0x1F), (0x10644, 0xFF), (0x10645, 0xF),
    (0x10652, 0x20), (0x1065A, 0x5A), (0x1065D, 1)] })] } } }

/-- A message from module 2 to module 1. -/
def msg : Msg := { dst := 1, src := 2, hops := 1, arg := 4 }

/-- Link 0 with a message of type `kind` received in a flit that holds nothing else. -/
def holding (kind : Nat) (m : Msg) : SLink := { up with rx := [(vcOf kind, [m.toBytes kind ++ List.replicate 64 0])] }

/-- Link 0 without it: its flit's credit goes back. -/
def emptied (kind : Nat) : SLink := { up with owed := [(vcOf kind, 1)] }

/-- `s` with that link, and with the message taken. -/
def recv (s : State) (kind : Nat) (m : Msg) : State := s.linkSet 0 (holding kind m)
def took (s : State) (kind : Nat) (m : Msg) : State :=
  (((({ (recv s kind m).splineUrge 0 (vcOf kind) with lin := s.lin.calm } : State).linkSet 0 (emptied kind)).sendAck 0).rAdd64
    (bank Reg.SPL_RXBYTES 0) (msgBytes m))

theorem witness_messageLeaves : let z := routed.link 0
    z.up = true ∧ z.queue = [] ∧ msgBytes { msg with payload := List.replicate 212 1 } ≤ 244 ∧
      mget { z with used := [(1, 511)] }.used (vcOf 3) 0 < vcBuf (vcOf 3) ∧ z.replay.length < 2048 := by decide +kernel

/-- The requests as they are received and exposed. -/
theorem witness_SplineMessages_taken :
    (∀ kind ∈ [1, 2, 3, 4, 5, 6], ((recv routed kind msg).link 0).next (vcOf kind) = some (kind, msg, emptied kind)) ∧
    (msg.dst.toNat = routed.moduleId ∧ routed.moduleId ≠ 0xFFF) ∧
    (∀ kind ∈ [2, 5], let u := took routed kind msg
      u.exposed msg (requestSpan kind msg).2 (requestSpan kind msg).1 = (0, way)) ∧
    (let u := took routed 2 msg
     u.exits none 2 = [0] ∧ u.brup.outDies = []) ∧
    (let m := { msg with part := 1 }
     ((recv routed 2 m).link 0).next 0 = some (2, m, emptied 2) ∧
       ((took routed 2 m).exposed m (requestSpan 2 m).2 (requestSpan 2 m).1).1 ≠ 0) := by decide +kernel

/-- The four bytes of a WRITE and of a REDUCE. -/
def wr : Msg := { msg with payload := [1, 2, 3, 4] }
def red : Msg := { msg with arg := 1, payload := [1, 0, 0, 0] }

/-- The four requests within the exposure: none waits. -/
theorem witness_SplineMessages_requests : let ag : Agent := .remote 0
    (((recv routed 1 wr).link 0).next 0 = some (1, wr, emptied 1) ∧
      (took routed 1 wr).exposed wr (requestSpan 1 wr).2 (requestSpan 1 wr).1 = (0, way) ∧
      ((took routed 1 wr).memWrite ag (some 0) way wr.payload .clean).2.lin.stuck = none) ∧
    ((took routed 2 msg).memRead ag (some 0) way 4 .clean).2.2.lin.stuck = none ∧
    (way % 8 = 0 ∧ ((took routed 5 msg).memUpdate ag (some 0) way 8 (fun bs => leBytes (leNat bs + 4) 8) .clean).2.2.lin.stuck = none) ∧
    (((recv routed 4 red).link 0).next 0 = some (4, red, emptied 4) ∧
      (took routed 4 red).exposed red (requestSpan 4 red).2 (requestSpan 4 red).1 = (0, way) ∧ bitOf red.arg.toNat 7 = false ∧
      ((took routed 4 red).memReduce ag (some 0) way 1 red.payload .clean).2.lin.stuck = none) := by
  have w := pinned_write (took routed 1 wr) (.remote 0) (some 0) way wr.payload (pinned (by decide +kernel))
  have r := pinned_read (took routed 2 msg) (.remote 0) (some 0) way 4 (pinned (by decide +kernel))
  have u := pinned_update (took routed 5 msg) (.remote 0) (some 0) way 8 (fun bs => leBytes (leNat bs + 4) 8)
    (pinned (by decide +kernel))
  have d := pinned_update (took routed 4 red) (.remote 0) (some 0) way 4 (reduceBytes 1 (reduceWidth 1) red.payload)
    (pinned (by decide +kernel))
  have hs : (took routed 1 wr).lin.stuck = none ∧ (took routed 2 msg).lin.stuck = none ∧
      (took routed 5 msg).lin.stuck = none ∧ (took routed 4 red).lin.stuck = none := by decide +kernel
  refine ⟨⟨by decide +kernel, by decide +kernel, w.2.trans hs.1⟩, r.2.trans hs.2.1, ⟨by decide +kernel, u.2.trans hs.2.2.1⟩,
    by decide +kernel, by decide +kernel, by decide +kernel, ?_⟩
  have e : reduceValid 1 = true ∧ reduceFits 1 way red.payload.length = true := by decide +kernel
  simp only [State.memReduce, e, Bool.not_true, Bool.false_eq_true, if_false]
  exact d.2.trans hs.2.2.2

/-- A host request of port 0 that awaits entry 0 of the table. -/
def hostOp : HostOp := { fn := 0, part := some 0, write := false, todo := [(0x020000000000, 4, [])], remote := some 0, since := 0 }

/-- `routed` with entry 0 of the table in use by port 0. -/
def asking : State := { routed with
  spl := { links := [(0, up)], out := [(0, { owner := .host 0, part := 0, epoch := 0, dst := 2, line := 0, sent := 0 })] },
  host := { port0 := { st := .up, ops := [hostOp] } } }

/-- A TICKMARK; a message for another module; answers to no request and to port 0's, and the time-out of the latter. -/
theorem witness_SplineMessages :
    (let u := took routed 6 msg
     (u.exposed msg 4 8 = (0, way) ∧ way % 8 = 0) ∧
       (let r := u.memUpdate (.remote 0) (some 0) way 8 (fun bs => leBytes (leNat bs + 1) 8) .clean
        r.1 = 0 ∧ r.2.2.lin.stuck = none)) ∧
    (let m := { msg with dst := 2 }
     ∀ kind ∈ [1, 6], ((recv routed kind m).link 0).next (vcOf kind) = some (kind, m, emptied kind) ∧
       m.dst.toNat ≠ routed.moduleId ∧ m.hops ≠ 0 ∧ (took routed kind m).exits none 2 = [0] ∧ routed.brup.outDies = []) ∧
    mfind (recv routed 3 msg).spl.out 0 = none ∧ (recv routed 3 msg).stalePart 0 msg = false ∧
    (({ routed with parts := [(0, { resetEpoch := some 1 })] } : State).stalePart msg.srcPart.val msg) = true ∧
    (let m := { msg with arg := 0, payload := [7, 0, 0, 0] }
     let s := recv asking 3 m
     ((s.link 0).next 1 = some (3, m, emptied 3)) ∧ ∃ e, mfind s.spl.out 0 = some e ∧ e.owner = .host 0 ∧ e.epoch = m.epoch.toNat ∧
       e.part = m.srcPart.val ∧ (s.port 0).ops = [hostOp] ∧ hostOp.remote = some 0 ∧ hostOp.poison = false ∧ s.stalePart 0 m = false ∧
       s.agentDie (.host 0) = 6 ∧ s.brup.outDies = [] ∧ s.isFar 0 = false) :=
  have u := pinned_update (took routed 6 msg) (.remote 0) (some 0) way 8 (fun bs => leBytes (leNat bs + 1) 8)
    (pinned (by decide +kernel))
  have hs : (took routed 6 msg).lin.stuck = none := by decide +kernel
  ⟨⟨by decide +kernel, u.1, u.2.trans hs⟩, by decide +kernel, by decide +kernel, by decide +kernel, by decide +kernel,
    by decide +kernel,
    { owner := .host 0, part := 0, epoch := 0, dst := 2, line := 0, sent := 0 }, by decide +kernel⟩

/-! ## Witnesses: host ports, tick bus, management, attestation -/

/-- VF 0 of port 0 with its aperture on the pinned way. -/
def hosted : State := { base with host := { port0 := { st := .up }, fns := [(1, { apbase := way })] } }

/-- The operation of four bytes that VF 0 begins there. -/
def hostBegun (wr : Bool) (bs : List Byte) : State :=
  ((hosted.answer {}).portOps 0 [{ fn := 1, part := some 0, write := wr, todo := [(way, 4, bs)], since := hosted.now }]).urge
    (masterId (hostAgent 0)) (fillUrgency 1 Config.hostBuffer)

theorem witness_HostAperture : let f : Func := .vf 0 0
    (hosted.speaks f = true ∧ (hosted.fn f).apbase = way ∧ 0 < 2 ^ (hosted.fn f).bar2Log ∧ (hosted.port 0).ops = [] ∧
      (hosted.port 0).later = [] ∧ isRemote way = false ∧ hosted.bar2Part f = some (some 0) ∧ way % 128 + 4 ≤ 128) ∧
    ((hostBegun false []).memWaits (hostAgent 0) (some 0) way 4 .read .clean = false ∧
      ((hostBegun false []).memRead (hostAgent 0) (some 0) way 4 .clean).1 = 0) ∧
    ((hostBegun true [1, 2, 3, 4]).memWaits (hostAgent 0) (some 0) way 4 .write .clean = false ∧
      ((hostBegun true [1, 2, 3, 4]).memWrite (hostAgent 0) (some 0) way [1, 2, 3, 4] .clean).1 = 0) ∧
    (2 ^ (hosted.fn f).bar2Log ≤ 2 ^ 28 ∧ hosted.speaks (.vf 0 1) = false) ∧
    (hosted.speaks (.pf 0) = true ∧ hosted.bar2Part (.pf 0) = none) ∧
    (let s := hosted.portOps 0 [{ fn := 1, part := some 0, write := true, todo := [(way, 4, [1])], since := 5 }]
     s.mustWait 0 = true ∧ (s.putOff 0 (.bar2Read f 0 4)).mustWait 0 = true ∧
       ((s.putOff 0 (.bar2Read f 0 4)).port 0).later ≠ []) ∧
    (let q : HostOp := { fn := 1, part := some 0, write := false, todo := [(way, 4, [])], since := 5 }
     let s := hosted.portOps 0 [q]
     (s.port 0).ops = [q] ∧ q.fn = fnIx f ∧ q.write = false) ∧
    (let s : State := { hosted with host := { hosted.host with port0 := { st := .up, later := [(5, .bar2Read f 0 4)] } } }
     (s.port 0).later = [(5, .bar2Read f 0 4)] ∧ (s.port 0).ops = [] ∧ accessOf (.bar2Read f 0 4) = some f) ∧
    (hosted.mustWait 0 = false ∧ accessOf (.apbaseWrite f 0) = some f) :=
  ⟨by decide +kernel,
    ⟨by decide +kernel, (pinned_read (hostBegun false []) (hostAgent 0) (some 0) way 4 (pinned (by decide +kernel))).1⟩,
    ⟨by decide +kernel, (pinned_write (hostBegun true [1, 2, 3, 4]) (hostAgent 0) (some 0) way [1, 2, 3, 4]
      (pinned (by decide +kernel))).1⟩, by decide +kernel⟩

theorem witness_HostFunctions : base.speaks (.pf 1) = true ∧ base.mustWait 1 = false ∧ (base.port 1).st ≠ .up ∧
    isPf (.pf 1) = true ∧ (base.port (portOf (.pf 1))).vfEnable = false ∧ isPf (.vf 1 15) = false ∧
    (∀ v, base.host.pba.contains (64 * fnIx (.vf 1 15) + v) = false) ∧
    (hosted.portOps 0 [{ fn := 1, part := some 0, write := true, todo := [(way, 4, [1])], since := 5 }]).mustWait 0 = true :=
  ⟨by decide, by decide, by decide, rfl, rfl, rfl, fun _ => rfl, by decide +kernel⟩

/-- The module enabled on the tick bus with its clock running. -/
def onBus (src : BitVec 8) : State := ((synced src 0).rgSet Reg.TICK_TB_CTL 1).rbSet Reg.TICK_TB_STAT 4 false

/-- On the bus and off it, as slot 0 and as another. -/
theorem witness_TickBusCycles : base.onBus = false ∧ (onBus 0).onBus = true ∧ (onBus 0).ptn.running.syncSrc ≠ 2 ∧
    (onBus 2).onBus = true ∧ (onBus 2).ptn.running.syncSrc = 2 ∧ 0x10 % 16 = (onBus 0).fuses.slot ∧
    0x0F % 16 ≠ (onBus 0).fuses.slot ∧ bitOf 0x1F 4 = true ∧ (onBus 0).rb Reg.TICK_TB_STAT 4 = false ∧
    base.rb Reg.TICK_TB_STAT 4 = true := by decide +kernel

theorem witness_ManagementTarget : base.dieFitted 21 = true ∧ linkFitted base 63 = true ∧ base.sensorValue 60 = none ∧
    (1200 ≤ 1200 ∧ 3000 ≤ 3000) ∧ (1199 < 1200 ∧ 3000 < 3001) := by decide +kernel

/-- The exchange over MCTP at `stage`. -/
def spdmAt (stage : Nat) (signed : Option Nat) : State := base.spdmSet .mctp { stage := stage, signed := signed }

theorem witness_Attestation : base.esc.boot = 0 ∧ (∀ n ∈ [1, 2, 3], ((spdmAt n none).spdm .mctp).stage = n) ∧
    (31 ∈ measureSeen .mctp ∧ 32 ∉ measureSeen .mctp ∧ 17 ∉ measureSeen (.doe (.vf 0 0)) ∧ 16 ∈ measureSeen (.doe (.vf 0 0))) ∧
    ((spdmAt 3 (some 7)).spdm .mctp).signed = some 7 ∧ ((spdmAt 3 none).spdm .mctp).signed = none := by decide +kernel

/-! ## Witnesses: power and heat -/

/-- Core 0's domain in state `x`. -/
def domain (x : Domain) : State := { base with pwr := { doms := [(0, x)], queue := [0] } }

/-- The effective limit exceeded with a core to slow down and with none; 95 % of it and above. -/
theorem witness_PowerLimits : isPf (.pf 0) = true ∧ base.mustWait (portOf (.pf 0)) = false ∧
    (∀ x ∈ [1, 2], base.passes x 255 = true ∧ base.passes x 0 = false) ∧ base.pwr.rangeHold = false ∧ base.pins.faultIn = false ∧
    base.pins.thermIn = false ∧ base.rf Reg.PWR_EFFECTIVE 11 0 = 3000 ∧ base.lowerNext = none ∧
    (domain { st := .up, clk := 56, ceil := 56 }).lowerNext ≠ none ∧
    (let s := { base with pwr := { traffic := 1 } }
     s.pwr.traffic ≠ 0 ∧ 2850 * 100 ≤ s.rf Reg.PWR_EFFECTIVE 11 0 * 95 ∧ s.rf Reg.PWR_EFFECTIVE 11 0 * 95 < 2851 * 100) ∧
    base.pwr.traffic = 0 := by decide +kernel

/-- 28 units in use and 29; a slow ramp with 31, and one that waits while its level is too high; the first failed phase of a group and the second. -/
theorem witness_CoreDomains :
    (let s : State := { base with pwr := { doms := [(0, { st := .waiting }), (1, { units := 28 })], queue := [0] } }
     (s.dom 0).st = .waiting ∧ s.unitsUsed + 4 ≤ 32 ∧ s.pwr.queue.takeWhile (· != 0) = []) ∧
    (let s : State := { base with pwr := { doms := [(0, { st := .waiting }), (1, { units := 29 })], queue := [0] } }
     32 < s.unitsUsed + 4) ∧
    (let s : State := { base with pwr := { doms := [(0, { st := .waiting, slow := true }), (1, { units := 31 })], queue := [0] } }
     (s.dom 0).slow = true ∧ s.unitsUsed + 1 ≤ 32) ∧ (base.slowDue { st := .waiting } = false) ∧
    ((domain { st := .ramping }).dom 0).ended = none ∧ ((domain { st := .ramping, ended := some 7 }).dom 0).ended = some 7 ∧
    (∀ ph ∈ [0, 0x400000], let x := (domain { st := .up, phases := ph }).dom 0
      x.st = .up ∧ bitOf x.phases 23 = false ∧ (bitsOf x.phases 23 16 ≠ 0 ↔ ph ≠ 0)) ∧
    ((domain { st := .up, droop := true }).dom 0).droop = true ∧
    (base.pwr.low.contains 16 = false ∧ base.pwr.windows.any (fun w => w.1 == 16) = false ∧
      (let s := { base with pwr := { windows := [(16, 3)] } }
       s.pwr.windows.find? (fun w => w.1 == 16) = some (16, 3))) ∧
    (let s := base.partSet 0 { running := true }
     s.ptn.running.enabled 0 = true ∧ (s.part 0).running = true ∧ s.onRail 0 16 = true ∧ s.onRail 0 11 = false) := by
  decide +kernel

/-- A sample in a row at 115 °C, and the first; the states at 95 and 105 °C. -/
theorem witness_DieMonitors : (base.dieFitted 21 = true ∧ (18 ≤ 21) ∧ (base.die 21).suspects = [] ∧ (base.die 21).estGov = false ∧
      (base.die 21).st = .normal) ∧
    (let s := base.dieSet 21 { hot := 1, st := .throttle, lastAt := some 5, govern := 105 }
     1 ≤ (s.die 21).hot ∧ (s.die 21).st = .throttle ∧ (s.die 21).lastAt = some 5) ∧
    ({ base with thm := { shutAt := some 9 } }.thm.shutAt = some 9) ∧ (base.rf Reg.THM_PEAK 7 0 : Int) < 95 ∧
    isPf (.pf 0) = true ∧ base.mustWait (portOf (.pf 0)) = false := by decide +kernel

/-- Core 71, which has no owner, about to be measured at 45 °C. -/
theorem witness_Alterations :
    (let s := { base with thm := { dies := [(11, { govern := 45 })] }, pwr := { doms := [(71, { st := .up })] } }
     isPf (.pf 0) = true ∧ s.mustWait (portOf (.pf 0)) = false ∧ s.thm.alt = none ∧ (s.logicalOf 71).bind s.corePart = none ∧ s.measurable 71 = true ∧
       (s.dom 71).st = .up ∧ ([71].filter (fun p => !s.coreLost p) = [71])) ∧
    ((base.logicalOf 0).bind base.corePart = some 0 ∧ base.measurable 71 = false ∧ (base.dom 71).st = .unpowered ∧
      base.pwr.queue = []) ∧
    { base with thm := { alt := some { queue := [0] } } }.thm.alt ≠ none ∧
    ({ base with nor := { retired := [71] } }.coreLost 71 = true) ∧
    (let s := { (base.rfSet Reg.THM_ALT_CFG 7 0 1) with thm := { altFrom := some 3 } }
     s.thm.altFrom = some 3 ∧ s.rf Reg.THM_ALT_CFG 7 0 ≠ 0 ∧ s.thm.alt = none ∧
       ({ s with thm := { altFrom := some 3, alt := some { queue := [0] } } } : State).thm.alt ≠ none) ∧
    (domain { st := .stopped }).dom 0 = { st := .stopped } ∧
    (∀ m ∈ [none, some 4], let a : Alteration := { queue := [5], measuring := m }
      { base with thm := { alt := some a } }.thm.alt = some a ∧ a.retry = [] ∧ a.powered = false) := by decide +kernel

/-! ## Witnesses: log, interrupts, security -/

/-- A record that waits for the logger. -/
def rec0 : ErrRec := ⟨eBounds, 0, none, false, false, 1, 0, 0, 0, 0, 0, 0, 0⟩

/-- PTN's source pending for firmware: group 6 routed to target 2 with priority 1. -/
def pendingGroup : State := (((base.rbSet Reg.IRQ_CTRL 0 false).rbSet (Reg.IRQ_RAW + 16) 0 true).rbSet (Reg.IRQ_MASK + 16) 0 false).rfSet
  (Reg.IRQ_GCFG + 24) 11 0 (1 + 16 * 6 + 1024 * 3)

theorem witness_LogAndInterrupts :
    ({ base with log := { queue := [rec0] } }.log.queue = [rec0] ∧ (0 + 1) % 512 ≠ base.rf Reg.ERR_TAIL 8 0 ∧
      (let s := base.rfSet Reg.ERR_TAIL 8 0 1
       (s.rf Reg.ERR_HEAD 8 0 + 1) % 512 = s.rf Reg.ERR_TAIL 8 0)) ∧
    (let s := base.rfSet Reg.ERR_HEAD 8 0 3
     (3 + 512 - s.rf Reg.ERR_TAIL 8 0) % 512 ≤ (s.rf Reg.ERR_HEAD 8 0 + 512 - s.rf Reg.ERR_TAIL 8 0) % 512 ∧
       (s.rf Reg.ERR_HEAD 8 0 + 512 - s.rf Reg.ERR_TAIL 8 0) % 512 < (4 + 512 - s.rf Reg.ERR_TAIL 8 0) % 512) ∧
    (pendingGroup.presentable 2 6 = true ∧ ∀ h < 18, pendingGroup.presentable 2 h = true → h = 6) ∧
    (∀ g < 18, base.presentable 2 g = false) ∧
    (let s := { base with irq := { stack0 := [⟨6, 1⟩], stack2 := [⟨6, 1⟩] } }
     s.irqStack 0 = [⟨6, 1⟩] ∧ s.irq.stack2 = [⟨6, 1⟩] ∧ s.mustWait 0 = false ∧ s.mgmt.receiver = none ∧ s.irqStack 1 = []) ∧
    (({ base with mgmt := { receiver := some 8 } } : State).mgmt.receiver ≠ none ∧ groupSensors 13 ≠ [] ∧ base.mgmt.i3c = none) ∧
    (let s := { base.vfVecSet 1 15 3 { last := some 2, waiting := true, hold := 1 } with
       host := { port1 := { st := .up }, fns := [(33, { msix := true })], msixWords := [(msixKey 33 3 3, 0)] } }
     (s.vfVec 1 15 3).waiting = true ∧ (s.port 1).st = .up ∧ (mget s.host.fns 33 {}).msix = true ∧
       (mget s.host.fns 33 {}).fmask = false ∧ s.vecMasked 33 3 = false) := by decide +kernel

/-- The escutcheon at work on `op`, MAX_LEVEL 1, with its request in a pinned way, which the firmware may not read. -/
def escAt (op : EscOp) : State := { base with
  esc := { base.esc with op := some op },
  ptn := { base.ptn with running := { pat with secs := (160, { len := 128, bytes := [(0, 1)] }) :: pat.secs } } }

/-- A token of `kind` with argument `n` for a module without enrolled parties; its blob is all zeros and DIGEST is its hashes. -/
def tokenOf (kind n : Nat) : TokenIn :=
  let blob := List.replicate 448 0
  { magic := tokenMagic, format := 1, kind := kind, serial := base.fuses.serial, seq := 1, arg := n,
    digest := keyHashes blob,
    slots := (0xFF, 0xFF, 0xFF, 0xFF), signed := [], sigs := [], blob := blob }

/-- Levels at MAX_LEVEL and above it; a free slot, and a slot that cannot be revoked. -/
theorem witness_EscutcheonCommands : (isPf (.pf 0) = true ∧ base.mustWait (portOf (.pf 0)) = false ∧ base.esc.boot = 0 ∧
      base.esc.op = none ∧ base.escBusy = false) ∧
    (let s := escAt (.debug way 0)
     s.esc.op ≠ none ∧ s.escBusy = true ∧ (({ s with lin := s.lin.calm } : State).escRead way 0 .clean).2.lin.stuck = none ∧
     s.tokenDetail (tokenOf 2 1) 2 0 ≠ 0) ∧
    (escAt (.enrol way 0)).tokenDetail (tokenOf 3 1) 3 0 ≠ 0 ∧
    (let s := escAt (.debug way 33408)
     s.tokenDetail (tokenOf 2 1) 2 33408 = 0 ∧ s.tokenDetail (tokenOf 2 2) 2 33408 = 0 ∧ s.ptn.running.maxLevel = 1 ∧
       s.tick.en = true) ∧
    (let s := escAt (.enrol way 33856)
     s.tokenDetail (tokenOf 3 1) 3 33856 = 0 ∧ bitOf 1 4 = false ∧ bitOf 17 4 = true ∧ s.enrolOk (tokenOf 3 17) = false) := by
  decide +kernel

theorem tokenOf_digest (kind n : Nat) : (tokenOf kind n).digest = keyHashes (tokenOf kind n).blob := by
  simp only [tokenOf]

/-- The digest of a token of zeros is that of its blob: an enrolment that may be done. -/
theorem witness_EscutcheonCommands_enrol : (escAt (.enrol way 33856)).enrolOk (tokenOf 3 1) = true := by
  have h : blobOk (tokenOf 3 1) = true := by
    have z : zeroAt (tokenOf 3 1).blob 436 12 = true := by decide +kernel
    rw [blobOk, z, tokenOf_digest, beq_self_eq_true, Bool.and_true]
  simp only [State.enrolOk, h]
  decide +kernel

/-- Two OWNER slots are enrolled: slot 0 may be revoked. (The signatures that the token then needs are too large for a test.) -/
theorem witness_EscutcheonCommands_revoke :
    let s : State := { escAt (.enrol way 33856) with fuses := { base.fuses with enrolled := [(1, 3)] } }
    s.enrolOk { tokenOf 3 17 with slots := (0, 1, 0xFF, 0xFF) } = true := by decide +kernel

/-! ## Witnesses: bring-up, resets, the pair -/

/-- Bring-up with step `n` in STATE `st`. -/
def step_ (n st : Nat) : State :=
  (({ State.reset with
      brup := { started := List.range (n + 1), ended := List.range (if st = 1 then n else n + 1) },
      ptn := { committed := true } } : State).rfSet Reg.BRUP_STATUS 3 0 n).rfSet Reg.BRUP_STATUS 5 4 st

/-- Each step may start after the one before, and not before; steps that run, with the limits' premises; an image too short to
be verified. (That a firmware image verifies rests on the keys of VENDOR, which are free, so no state shows it.) -/
theorem witness_BringUp :
    (∀ n ∈ [1, 2, 3, 4, 5, 6, 8], (step_ (n - 1) 2).stepMay n = true ∧ (n ≠ 8 → (step_ (n - 1) 1).stepMay n = false)) ∧
    ({ step_ 7 2 with ptn := {} } : State).stepMay 8 = false ∧
    (step_ 6 2).stepMay 6 = true ∧ isPf (.pf 0) = true ∧
    (∀ n < 9, (step_ n 1).esc.boot = 0 ∧ (step_ n 1).brupStep = (n, 1)) ∧ (step_ 0 1).pwr.stageTwo = true ∧
    ({ step_ 0 1 with nor := { firmware := [] } } : State).bootCode = 0x0E02 ∧ (step_ 3 1).mustWait 0 = false ∧ (step_ 3 1).fitted (767 / 64) = true ∧ (step_ 8 1).tick.en = false := by decide +kernel

theorem witness_BringUp_veneer : (step_ 5 1).veneerDetail = 0 ∧ (step_ 4 2).stepMay 5 = true ∧
    (let s := { step_ 5 1 with pwr := { doms := (List.range 72).map (fun p => (p, { st := .up })) } }
     s.brupStep = (5, 1) ∧ ∀ p < 72, (s.dom p).st = .up) ∧
    (let s := { step_ 8 1 with tick := { en := true } }
     s.brupStep = (8, 1) ∧ s.tick.en = true) := by decide +kernel

/-- A stack reset of stack 1 in phase `n`, begun at time 5, the last base boundary at `b`. -/
def inPhase (n b : Nat) : State := { (base.rfSet Reg.BRUP_STACK_STAT 2 0 1).rfSet Reg.BRUP_STACK_STAT 6 4 n with
  brup := { base.brup with since := 5 }, tick := { base.tick with begun := b } }

theorem witness_Resets : (isPf (.pf 0) = true ∧ base.mustWait (portOf (.pf 0)) = false ∧ base.brup.resetAt = none ∧ (0xD2 : BitVec 8) ≠ 0xD1) ∧
    { base with brup := { resetAt := some 10000 } }.brup.resetAt = some 10000 ∧
    (base.tick.en = true ∧ base.ptn.commitDue = false ∧ base.ptn.running.enabled 0 = true ∧ (base.part 0).resetting = false ∧
      base.ptn.phase = .idle ∧ (base.port 0).ops = [] ∧ (base.port 1).ops = [] ∧
      1#16 <<< 0 = 1) ∧
    base.ptn.running.enabled 15 = false ∧ State.reset.tick.en = false ∧
    ((base.partSet 15 { resetting := true }).part 15).resetting = true ∧
    (base.stackRefusal (.pf 0) 0 false = 0x10 ∧ base.stackRefusal (.pf 0) 1 false = 0 ∧ base.stackRefusal (.pf 0) 5 true = 0 ∧
      base.stackOwners 5 = []) ∧
    (∀ n ∈ [1, 2, 3, 4, 5], (inPhase n 6).rf Reg.BRUP_STACK_STAT 6 4 = n ∧ (inPhase n 6).boundarySince = true ∧
      (inPhase n 5).boundarySince = false) ∧ (inPhase 1 6).brup.forced = false := by decide +kernel

/-- A packet that remains for L1 and none; a phase 4 in which all is well, and one in which core 12 fails. -/
theorem witness_Resets_phases :
    ((inPhase 2 6).routerHolds 1 = false ∧
      ({ inPhase 2 6 with lin := { blocked := [⟨.jig 32, 0, BitVec.ofNat 48 way, .read 32, 0, .clean, none⟩] } } : State).routerHolds 1 = true) ∧
    ((inPhase 4 6).stackShort 1 [] = false ∧ (inPhase 4 6).unitFail 1 .done = [] ∧
      (inPhase 4 6).unitFail 1 (.unit 0xB00C) = [12]) := by decide +kernel

/-- A member in role `r`, link 56 in service and claimed, with a mirror buffer of 2 MiB in the idle span. -/
def member (r : Role) (x : Pair) : State :=
  let s : State := { base with
    pair := { x with role := r }, spl := { links := [(56, up)] },
    ptn := { base.ptn with running := { secs := [(112, { len := 4096, bytes := [(0, 0x80), (1, 0x3E), (64, 1)] })] } } }
  (s.rgSet Reg.PAIR_CFG 1).rfSet Reg.PAIR_MBUF_LEN 15 0 1

/-- A mirrored range of a sector at offset 8 of P0's part of BAR4. -/
def range32 : Msg := { arg := 2 ^ 60 + 8, payload := List.replicate 32 7 }

/-- What the standby keeps of it: its place in the mirror buffer, where HBM holds its bytes. -/
def heldRange : List MirRange := [⟨true, 8, [(0, 32)]⟩]

/-- The COMMIT of step `k` over that range. -/
def commitOf (k : Nat) : Msg :=
  { arg := 3 * 2 ^ 60, payload := leBytes k 8 ++ leBytes 0 8 ++ leBytes 32 8 ++ leBytes (crc32c range32.payload) 4 }

/-- A heartbeat of a peer without a pattern whose role bit agrees with none. -/
def beat : Msg := { arg := 4 * 2 ^ 60, payload := List.replicate 16 0 }

/-- `s` with a MIRROR message received on link `n`, and with it taken. -/
def mirrorIn (s : State) (n : Nat) (m : Msg) : State := s.linkSet n (holding 7 m)
def mirrorOut (s : State) (m : Msg) : State :=
  ((({ s.urge (masterId .mirror) (fillUrgency (mget (s.link 56).rx 2 []).length (vcBuf 2)) with lin := s.lin.calm } : State).linkSet 56
    (emptied 7)).sendAck 56).rAdd64 (bank Reg.SPL_RXBYTES 56) (msgBytes m)

/-- The messages as they are received, on a claimed link and on another. -/
theorem witness_PairMembers_comes : (∀ m ∈ [range32, { range32 with arg := 2 ^ 61 + 8 }, commitOf 1, commitOf 2, beat],
      ((mirrorIn (member .standby {}) 56 m).link 56).next 2 = some (7, m, emptied 7) ∧
        ((mirrorIn base 0 m).link 0).next 2 = some (7, m, emptied 7)) ∧
    (range32.arg.toNat / 2 ^ 60 = 1 ∧ (commitOf 1).arg.toNat / 2 ^ 60 = 3 ∧ beat.arg.toNat / 2 ^ 60 = 4) ∧
    ((member .standby {}).claimed 56 = true ∧ (member .standby {}).mirrorCut = false ∧ base.claimed 0 = false) := by decide +kernel

/-- The standby once a message is taken, HBM holding the range at the mirror buffer's place. -/
def standing (x : Pair) (m : Msg) : State :=
  mirrorOut (mirrorIn { member .standby x with hbm := ((member .standby x).hbmWrite 0 range32.payload false).hbm } 56 m) m

theorem standing_idle (x : Pair) (m : Msg) (h : (x, m) ∈ [({}, range32), ({ bufs := [(0, heldRange)] }, commitOf 1),
    ({ bufs := [(0, heldRange)] }, commitOf 2)]) : IdleSector (standing x m) .mirror 0 := by
  simp only [List.mem_cons, Prod.mk.injEq, List.not_mem_nil, or_false] at h
  obtain ⟨rfl, rfl⟩ | ⟨rfl, rfl⟩ | ⟨rfl, rfl⟩ := h <;>
    exact ⟨by decide, by decide +kernel, by decide +kernel, by decide +kernel, by decide +kernel, by decide +kernel,
      by decide +kernel, by decide +kernel, by decide +kernel, by decide +kernel, by decide +kernel, by decide⟩

/-- A range for which there is room. -/
theorem witness_PairMembers_room : let s := member .standby {}
    let u := standing {} range32
    let ps := takePlaces (freePlaces (2 ^ 21 * s.rf Reg.PAIR_MBUF_LEN 15 0) s.mirrorUsed 0) 32
    let w := u.bufWrite [(0, 32)] range32.payload
    s.pair.role = .standby ∧ ps = [(0, 32)] ∧ range32.payload.length ≤ placesLen ps ∧ s.rg64 Reg.PAIR_MBUF % 2 ^ 48 = 0 ∧
      (∀ q ∈ lineCuts 0 32, u.target .mirror none q.1 = .idle) ∧ w.1 = 0 ∧ w.2.lin.stuck = none := by
  have h := idle_write _ .mirror 0 range32.payload (standing_idle {} range32 (by simp)) (by decide)
  have b : (standing {} range32).rg64 Reg.PAIR_MBUF % 2 ^ 48 = 0 := by decide +kernel
  have t : range32.payload.take 32 = range32.payload := by decide
  have n : (standing {} range32).lin.stuck = none := by decide +kernel
  have w : (standing {} range32).bufWrite [(0, 32)] range32.payload =
      (standing {} range32).memWrite .mirror none 0 range32.payload .clean := by
    simp only [State.bufWrite, b, List.foldl_cons, List.foldl_nil, if_true, t]
  exact ⟨by decide +kernel, by decide +kernel, by decide +kernel, by decide +kernel, by decide +kernel, by rw [w]; exact h.1,
    by rw [w]; exact h.2.trans n⟩

/-- The standby with the range kept, once the COMMIT of step `k` is taken. -/
def committing (k : Nat) : State := standing { bufs := [(0, heldRange)] } (commitOf k)

theorem committing_holds : ∀ k ∈ [1, 2], let u := committing k
    (mget u.hbm.secs (hsecKey (u.hbmPlace 0).1 (u.hbmPlace 0).2) {}).poison = false ∧ u.rg64 Reg.PAIR_MBUF % 2 ^ 48 = 0 ∧
      u.hbmBytes 0 = range32.payload ∧ u.rg64 Reg.PAIR_LASTCOMMIT = 0 ∧ u.lin.stuck = none ∧ u.pair.role = .standby := by
  decide +kernel

theorem commitOf_says : ∀ k ∈ [1, 2], fieldAt (commitOf k).payload 16 8 = [range32.payload].flatten.length ∧
      fieldAt (commitOf k).payload 24 4 = crc32c [range32.payload].flatten ∧ fieldAt (commitOf k).payload 0 8 = k := by
  decide +kernel

theorem held_reads {u : State} {r : List (Nat × Word)} {bs : List Byte} (hb : u.rg64 Reg.PAIR_MBUF % 2 ^ 48 = 0)
    (e : u.memRead .mirror none 0 32 .clean = (0, bs, { u with regs := r })) :
    u.deltaRead heldRange = (0, [bs], { u with regs := r }) := by
  simp only [State.deltaRead, State.bufRead, heldRange, List.foldl_cons, List.foldl_nil, if_true, Nat.add_zero, hb, e,
    List.nil_append]

theorem committing_idle {k : Nat} (hk : k ∈ [1, 2]) : IdleSector (committing k) .mirror 0 := by
  simp only [List.mem_cons, List.not_mem_nil, or_false] at hk
  obtain rfl | rfl := hk
  · exact standing_idle _ _ (.tail _ (.head _))
  · exact standing_idle _ _ (.tail _ (.tail _ (.head _)))

theorem committing_reads {k : Nat} (hk : k ∈ [1, 2]) : ∃ r, sameSingles (committing k) r ∧
    (committing k).deltaRead heldRange = (0, [range32.payload], { committing k with regs := r }) := by
  obtain ⟨hp, hb, hv, -⟩ := committing_holds k hk
  obtain ⟨r, he, e⟩ := idle_read _ .mirror 0 (committing_idle hk) hp
  rw [hv] at e
  exact ⟨r, he, held_reads hb e⟩

/-- A COMMIT of the next step over the bytes kept, and one of the step after it. -/
theorem witness_PairMembers_commit {k : Nat} (hk : k ∈ [1, 2]) : let m := commitOf k
    let d := (committing k).deltaRead heldRange
    d.1 = 0 ∧ d.2.1 = [range32.payload] ∧ fieldAt m.payload 16 8 = d.2.1.flatten.length ∧
      fieldAt m.payload 24 4 = crc32c d.2.1.flatten ∧ (fieldAt m.payload 0 8 = d.2.2.rg64 Reg.PAIR_LASTCOMMIT + 1 ↔ k = 1) ∧
      d.2.2.lin.stuck = none ∧ d.2.2.pair.role = .standby := by
  obtain ⟨-, -, -, hl, hs, hr⟩ := committing_holds k hk
  obtain ⟨h1, h2, h3⟩ := commitOf_says k hk
  obtain ⟨r, he, d⟩ := committing_reads hk
  have l := (rg64_regs he (k := Reg.PAIR_LASTCOMMIT) (by decide)).trans hl
  intro m v
  have hv : v = _ := d
  clear_value v
  subst hv
  refine ⟨rfl, rfl, h1, h2, ?_, hs, hr⟩
  rw [h3, l]

/-- A range for which there is no room; the roles of the others; what is sent and what has been. -/
theorem witness_PairMembers : isPf (.pf 0) = true ∧ base.mustWait (portOf (.pf 0)) = false ∧ base.pairFitted = true ∧
    base.pair.role = .off ∧
    (∀ i < 8, base.ptn.running.linkOwner (56 + i) = none) ∧ (member .arming {}).pair.role ≠ .off ∧
    (let s := (member .standby {}).rfSet Reg.PAIR_MBUF_LEN 15 0 0
     ¬range32.payload.length ≤ placesLen (takePlaces (freePlaces (2 ^ 21 * s.rf Reg.PAIR_MBUF_LEN 15 0) s.mirrorUsed 0) 32)) ∧
    (let s := member .active { alive := true, lastBeat := some 3, waiting := [0] }
     s.pair.alive = true ∧ s.pair.lastBeat = some 3 ∧ s.pair.waiting.contains 0 = true ∧ s.pair.sent.contains 0 = false ∧
       s.pairLinks = [56] ∧ (({ s with lin := s.lin.calm } : State).mirrorDelta 0).lin.stuck = none) ∧
    (∀ r ∈ [Role.standby, .active], ∀ x ∈ [({} : Pair), { missed := 2 }, { lost := true }, { dropped := some true },
        { dropped := some false }, { ownNamed := true }, { peerNamed := true }],
      (member r x).pair.disarm = false ∧ (member r x).pair.role = r) := by decide +kernel

/-! ## Witness: a sew that passes every check -/

/-- A pattern without partitions: the identity VENEER, the module's fields at their least values. -/
def empty : Pat := { secs := [
  (16, { len := 8448, bytes := [] }),
  (32, { len := 3968, bytes := (List.range 64).map (fun c => (0x40 + c, BitVec.ofNat 8 c)) ++
    (List.range 3072).map (fun j => (0x80 + j, if j % 2 = 0 then BitVec.ofNat 8 (j / 2) else 0)) }),
  (48, { len := 14656, bytes := [] }),
  (64, { len := 8768, bytes := [] }),
  (80, { len := 8256, bytes := [(0, 1), (4, 1)] }),
  (96, { len := 71232, bytes := [(0x600, 1), (0x602, 10)] }),
  (112, { len := 2112, bytes := [(0, 0x88), (1, 0x13), (8, 1)] ++ (List.range 16).map (fun p => (64 + 128 * p, 1)) }),
  (160, { len := 128, bytes := [] })] }

/-- A module without stacks that sews `empty` over itself, or over the pattern of reset. -/
def sewing (same : Bool) : State := { State.reset with
  fuses := { stackMask := 0 }, ptn := { running := if same then empty else {}, staged := some empty, phase := .sewing } }

theorem read_beyond (m : List Host.Cell) (a n : Nat) (h : ∀ e ∈ m, e.1 < a) : leNat (readCells m a n) = 0 := by
  have none_at : ∀ (m : List Host.Cell) k, (∀ e ∈ m, e.1 < k) → mget m k 0 = 0 := by
    intro m k hk
    induction m with
    | nil => rfl
    | cons e r ih =>
      have := hk e (List.mem_cons_self ..)
      simp only [mget]
      rw [if_neg (by omega), ih (fun x hx => hk x (List.mem_cons_of_mem _ hx))]
  induction n generalizing a with
  | zero => rfl
  | succ n ih =>
    simp only [readCells, leNat, none_at m a h, ih (a + 1) (fun e he => Nat.lt_succ_of_lt (h e he))]
    rfl

theorem fwd_zero (d : Nat) : empty.fld 6 (fwdOff d) 16 = 0 := by
  have hb : (empty.sec 6 0).bytes = [(0x600, 1), (0x602, 10)] := by rfl
  simp only [Pat.fld, hb]
  apply read_beyond
  simp [fwdOff]
  omega

theorem at_key {α : Type} (m : List (Nat × α)) (k : Nat) (v d : α) (hs : sortedKeys m = true) (h : (k, v) ∈ m) :
    mget m k d = v := by
  induction m with
  | nil => cases h
  | cons e r ih =>
    have low : ∀ x ∈ r, e.1 < x.1 := by
      clear h ih
      induction r generalizing e with
      | nil => simp
      | cons y t iht =>
        simp only [sortedKeys, Bool.and_eq_true, decide_eq_true_eq] at hs
        intro x hx
        cases hx with
        | head => exact hs.1
        | tail _ hx => exact Nat.lt_trans hs.1 (iht y hs.2 x hx)
    have hs' : sortedKeys r = true := by
      cases r with
      | nil => rfl
      | cons y t => simp only [sortedKeys, Bool.and_eq_true] at hs; exact hs.2
    simp only [mget]
    cases h with
    | head => simp
    | tail _ h => rw [if_neg (Nat.ne_of_lt (low _ h)), ih hs' h]


theorem veneer_eq : (empty.sec 2 0).bytes = (List.range 64).map (fun c => (0x40 + c, BitVec.ofNat 8 c)) ++
    (List.range 3072).map (fun j => (0x80 + j, if j % 2 = 0 then BitVec.ofNat 8 (j / 2) else 0)) := by rfl

theorem veneer_sorted : sortedKeys (empty.sec 2 0).bytes = true := by decide +kernel

theorem slice_identity (i : Nat) (h : i < 1536) : empty.sliceEnt i = i % 256 := by
  have even : mget (empty.sec 2 0).bytes (0x80 + 2 * i) 0 = BitVec.ofNat 8 i := by
    apply at_key _ _ _ _ veneer_sorted
    rw [veneer_eq]
    apply List.mem_append_right
    exact List.mem_map.2 ⟨2 * i, List.mem_range.2 (by omega), by simp⟩
  have odd : mget (empty.sec 2 0).bytes (0x80 + 2 * i + 1) 0 = 0 := by
    apply at_key _ _ _ _ veneer_sorted
    rw [veneer_eq]
    apply List.mem_append_right
    exact List.mem_map.2 ⟨2 * i + 1, List.mem_range.2 (by omega), by simp [Nat.add_assoc]⟩
  simp only [Pat.sliceEnt, Pat.fld, readCells, leNat, even, odd]
  simp

theorem core_identity (c : Nat) (h : c < 64) : empty.fld 2 (0x40 + c) 1 = c := by
  have one : mget (empty.sec 2 0).bytes (0x40 + c) 0 = BitVec.ofNat 8 c := by
    apply at_key _ _ _ _ veneer_sorted
    rw [veneer_eq]
    exact List.mem_append_left _ (List.mem_map.2 ⟨c, List.mem_range.2 h, rfl⟩)
  simp only [Pat.fld, readCells, leNat, one]
  simp
  omega

theorem die_identity (k : Nat) (h : k < 6) : (List.range 256).map (fun i => empty.sliceEnt (256 * k + i)) = List.range 256 := by
  apply List.ext_getElem
  · simp
  · intro i h1 h2
    simp only [List.length_map, List.length_range] at h1
    simp only [List.getElem_map, List.getElem_range]
    rw [slice_identity _ (by omega)]
    omega

theorem routes_pass (b : Bool) : (sewing b).checkRoutes empty = [] := by
  have z1 : (List.range 4096).any (fun _ => bitOf 0 70 || above 0 72) = false := by
    have h1 : bitOf 0 70 = false := by decide
    have h2 : above 0 72 = false := by decide
    simp [h1, h2]
  have z2 : (List.range 4096).any (fun _ => (setBits 0 64).any (fun n => !linkFitted (sewing b) n) ||
      (bitOf 0 71 && !linkFitted (sewing b) (bitsOf 0 69 64))) = false := by
    have h1 : setBits 0 64 = [] := by decide
    have h2 : bitOf 0 71 = false := by decide
    simp [h1, h2]
  simp only [State.checkRoutes, fwd_zero, z1, z2]
  revert b
  decide +kernel

theorem veneer_pass (b : Bool) : (sewing b).checkVeneer empty = [] := by
  have hc : (List.range 64).map (fun c => empty.fld 2 (0x40 + c) 1) = List.range 64 := by
    conv => rhs; rw [← List.map_id (List.range 64)]
    exact List.map_congr_left (fun c hc => core_identity c (List.mem_range.1 hc))
  have h6 : List.range 6 = [0, 1, 2, 3, 4, 5] := rfl
  have d0 := die_identity 0 (by decide)
  have d1 := die_identity 1 (by decide)
  have d2 := die_identity 2 (by decide)
  have d3 := die_identity 3 (by decide)
  have d4 := die_identity 4 (by decide)
  have d5 := die_identity 5 (by decide)
  simp only [State.checkVeneer, hc, h6, List.any, d0, d1, d2, d3, d4, d5]
  revert b
  decide +kernel

theorem rest_pass : ∀ b : Bool, (sewing b).checkPartitions empty = [] ∧ (sewing b).checkHbm empty = [] ∧
    (sewing b).checkRegulators empty = [] ∧ (sewing b).checkTick empty = [] ∧
    commitPins (sewing b).ptn.running empty = [] ∧ (sewing b).missingSections empty = false := by decide +kernel

theorem empty_pass : empty.checkLining = [] ∧ empty.checkProtection = [] ∧ empty.enabledParts = [] ∧ empty.pins = [] := by
  decide +kernel

theorem validate_pass (b : Bool) : (sewing b).validate empty = 0 := by
  obtain ⟨h1, h2, h3, h4, h5, h6⟩ := rest_pass b
  obtain ⟨e1, e2, e3, e4⟩ := empty_pass
  have hp : { empty with pins := commitPins (sewing b).ptn.running empty } = empty := by rw [h5]; rfl
  simp only [State.validate, h6, Bool.false_eq_true, if_false, State.failures, hp, h1, h2, h3, h4, e1, e2, e3,
    routes_pass, veneer_pass]
  rfl

/-- A sew that changes nothing arms without a token; one that brings PROTECTION needs one. -/
theorem witness_BastingOutcomes_sew : (∀ b, (sewing b).ptn.phase = .sewing ∧ (sewing b).ptn.staged = some empty ∧
      (sewing b).validate empty = 0) ∧
    (sewing true).needsToken (sewing true).ptn.running empty = false ∧
    (sewing false).needsToken (sewing false).ptn.running empty = true ∧ (sewing false).tokenCarries empty = false :=
  ⟨fun b => ⟨rfl, rfl, validate_pass b⟩, by decide +kernel, by decide +kernel, by decide +kernel⟩

/-! ## Worked examples of the manual -/

/-- The inputs of Table 4.7, as FP32. -/
def pf4Inputs : List Word :=
  [0x3E99999A, 0xBDF5C28F, 0x3D4CCCCD, 0x3E570A3D, 0xBECCCCCD, 0x3DB851EC, 0x00000000, 0x3E2E147B] ++
  [0x3F8CCCCD, 0xBF400000, 0x41200000, 0x3F19999A, 0xBFB33333, 0x3E4CCCCD, 0x3F733333, 0xBEA8F5C3] ++
  [0x3F4CCCCD, 0x40266666, 0xBF99999A, 0x3E800000, 0x3FD9999A, 0xBF666666, 0x3EE147AE, 0x3DCCCCCD] ++
  [0xC099999A, 0x3F19999A, 0x3FA66666, 0xBDE147AE, 0x404CCCCD, 0x00000000, 0x3D75C28F, 0xC019999A]

/-- Tables 4.8 and 4.9: the PF4 block of the worked example. -/
theorem test_pf4_block :
    let b := formBlock 0x0A (convOf 0) (fun _ => 0) (pf4Inputs.map (fun w => some (f32 w)))
    b.scale = 0x80 ∧ b.pleats = 0x63 ∧
    b.codes = [2, 9, 0, 2, 0xB, 1, 0, 1, 1, 9, 6, 1, 9, 0, 1, 8, 3, 7, 0xC, 1, 5, 0xC, 2, 0, 0xE, 1, 3, 8, 5, 0, 0, 0xC] ∧
    b.events.count .flush = 6 ∧ b.events.count .overflow = 0 ∧
    packElems 4 b.codes = [0x92, 0x20, 0x1B, 0x10, 0x91, 0x16, 0x09, 0x81, 0x73, 0x1C, 0xC5, 0x02, 0x1E, 0x83, 0x05, 0xC0] := by
  decide +kernel

/-- Section 4's text on the same block as MXFP4: the same scale byte, and 14 flushes. -/
theorem test_mxfp4_block :
    let b := formBlock 0x07 (convOf 0) (fun _ => 0) (pf4Inputs.map (fun w => some (f32 w)))
    b.scale = 0x80 ∧ b.events.count .flush = 14 := by decide +kernel

/-- The operand pairs of Table 6.4 in E4M3. -/
def blockPairs : List (Fp × Fp) :=
  [(0x7E, 0x7E), (0x18, 0x08), (0x7E, 0xFE), (0x44, 0x2C)].map (fun p => (fE4M3.decode p.1, fE4M3.decode p.2))

/-- Tables 6.4 to 6.6, plain: two blocks at scale 2^2 over 2^24 under ARMODE 0. -/
theorem test_accumulate_plain :
    let a := accumulate .rne 0 ⟨0x4B800000, false, false⟩ (blockSum true blockPairs) 2
    a = ⟨0x4B800002, false, false⟩ ∧ (accumulate .rne 0 a (blockSum true blockPairs) 2).r = 0x4B800004 := by
  decide +kernel

/-- Table 6.6, paired: s 16,777,220 with e 0.50390625, then 16,777,226 with e -0.9921875. -/
theorem test_accumulate_pair :
    let p := accumulatePair .rne 0 ⟨0x4B800000, false, false⟩ 0 (blockSum true blockPairs) 2
    p = (⟨0x4B800002, false, false⟩, 0x3F010000) ∧
    accumulatePair .rne 0 p.1 p.2 (blockSum true blockPairs) 2 = (⟨0x4B800005, false, false⟩, 0xBF7E0000) := by
  decide +kernel

/-- Table 9.6: the words of LD and BR, and the branch's target and reconvergence offsets. -/
theorem test_encoded_words :
    insnWord 0x50 { d := 5, a := 8, pred := 2, mod := 2, imm := 0x40 } = 0x0040022000040550 ∧
    insnWord 0x01 { pred := 3, ext := some 0x000000F800000078 } = 0x0000803000000001 ∧
    pcPlus 0x208 0x78 = 0x280 ∧ pcPlus 0x208 0xF8 = 0x300 := by decide +kernel

/-- Table 3.1: the eases of a 300 microsecond re-phase. -/
theorem test_ease :
    (List.range 13).foldl (fun (x : Int × List Int) _ => (x.1 - clampEase x.1 2604, x.2 ++ [clampEase x.1 2604])) (30067, []) =
      (0, List.replicate 11 2604 ++ [1423, 0]) := by decide +kernel

/-- Table 18.4: the plans of one core over its life; the last ceiling is below 85 percent of F0 (R422). -/
theorem test_plans :
    let p1 := planAfter ⟨0, 56, 152, 0⟩ [772] 56 760 0
    let p2 := planAfter p1 [781] 56 760 0
    let p3 := planAfter p2 [803, 797] 56 760 0
    let p4 := planAfter p3 [812, 806, 798] 56 760 0
    p1 = ⟨15, 56, 155, 0⟩ ∧ p2 = ⟨25, 56, 157, 0⟩ ∧ p3 = ⟨40, 55, 160, 0⟩ ∧ p4 = ⟨40, 54, 160, 0⟩ := by decide +kernel

/-- The CRC-32C of the digits 1 to 9, its published check value. -/
theorem test_crc32c :
    crc32c [0x31, 0x32, 0x33, 0x34, 0x35, 0x36, 0x37, 0x38, 0x39] = 0xE3069283 := by decide +kernel

end Sys2Proof.Tests
end

namespace Sys2Proof.Machine

/-! # Fuses only burn (R7, R441, R442, R448)

Two commands write fuses: the end of an ENROL command of the escutcheon and the end of bring-up's step 0. Every other operation
of the model leaves them alone. The lemmas below say so once for each operation, in the model's own order, and rewrite
`(s.op …).fuses` to `s.fuses`; what is left is what the two commands burn.

`simp -implicitDefEqProofs` stands where the key of a banked register (2^28 and above) is in the term: by default `simp` has the
kernel check a step by computing, and the kernel would compute that key in unary. -/

/-! ## Conditionals, pairs and folds -/

@[simp] theorem ite_fuses (c : Prop) [Decidable c] (a b : State) :
    (if c then a else b).fuses = if c then a.fuses else b.fuses :=
  apply_ite ..

@[simp] theorem ite_fst_fuses {α : Type} (c : Prop) [Decidable c] (a b : State × α) :
    (if c then a else b).1.fuses = if c then a.1.fuses else b.1.fuses :=
  apply_ite (fun x : State × α => x.1.fuses) ..

@[simp] theorem ite_snd_fuses {α : Type} (c : Prop) [Decidable c] (a b : α × State) :
    (if c then a else b).2.fuses = if c then a.2.fuses else b.2.fuses :=
  apply_ite (fun x : α × State => x.2.fuses) ..

@[simp] theorem ite_snd_snd_fuses {α β : Type} (c : Prop) [Decidable c] (a b : α × β × State) :
    (if c then a else b).2.2.fuses = if c then a.2.2.fuses else b.2.2.fuses :=
  apply_ite (fun x : α × β × State => x.2.2.fuses) ..

/-- The fuses of the state that an operation answered beside something else. -/
theorem snd_fuses {α : Type} {x : α × State} {a : α} {u : State} (h : x = (a, u)) : u.fuses = x.2.fuses := by rw [h]

/-- What every step of a fold keeps, the fold keeps. -/
theorem foldl_keeps {σ β φ : Type} (g : σ → φ) (f : σ → β → σ) (h : ∀ x e, g (f x e) = g x) (l : List β) (x : σ) :
    g (l.foldl f x) = g x := by
  induction l generalizing x with
  | nil => rfl
  | cons e l ih => rw [List.foldl_cons, ih, h]

@[simp] theorem foldl_fuses {β : Type} (f : State → β → State) (h : ∀ u e, (f u e).fuses = u.fuses) (l : List β) (s : State) :
    (l.foldl f s).fuses = s.fuses :=
  foldl_keeps State.fuses f h l s

@[simp] theorem foldl_fst_fuses {α β : Type} (f : State × α → β → State × α) (h : ∀ u e, (f u e).1.fuses = u.1.fuses)
    (l : List β) (s : State × α) : (l.foldl f s).1.fuses = s.1.fuses :=
  foldl_keeps (·.1.fuses) f h l s

@[simp] theorem foldl_snd_fuses {α β : Type} (f : α × State → β → α × State) (h : ∀ u e, (f u e).2.fuses = u.2.fuses)
    (l : List β) (s : α × State) : (l.foldl f s).2.fuses = s.2.fuses :=
  foldl_keeps (·.2.fuses) f h l s

@[simp] theorem foldl_mid_fuses {α β γ : Type} (f : α × State × γ → β → α × State × γ)
    (h : ∀ u e, (f u e).2.1.fuses = u.2.1.fuses) (l : List β) (s : α × State × γ) : (l.foldl f s).2.1.fuses = s.2.1.fuses :=
  foldl_keeps (·.2.1.fuses) f h l s

@[simp] theorem foldl_snd_snd_fuses {α β γ : Type} (f : α × γ × State → β → α × γ × State)
    (h : ∀ u e, (f u e).2.2.fuses = u.2.2.fuses) (l : List β) (s : α × γ × State) : (l.foldl f s).2.2.fuses = s.2.2.fuses :=
  foldl_keeps (·.2.2.fuses) f h l s

@[simp] theorem foldr_fuses {β : Type} (f : β → State → State) (h : ∀ e u, (f e u).fuses = u.fuses) (l : List β) (s : State) :
    (l.foldr f s).fuses = s.fuses := by
  rw [List.foldr_eq_foldl_reverse, foldl_fuses _ fun u e => h e u]


/-! ## Registers, the log and the interrupt sources -/

@[simp] theorem State.partMap_fuses (s : State) (p : Nat) (f : Part → Part) : (s.partMap p f).fuses = s.fuses := by
  simp [State.partMap]

@[simp] theorem State.coreMap_fuses (s : State) (c : Nat) (f : CoreSt → CoreSt) : (s.coreMap c f).fuses = s.fuses := by
  simp [State.coreMap]

@[simp] theorem State.groupMap_fuses (s : State) (g : Nat) (f : Group → Group) : (s.groupMap g f).fuses = s.fuses := by
  simp [State.groupMap]

@[simp] theorem State.chanMap_fuses (s : State) (n : Nat) (f : Chan → Chan) : (s.chanMap n f).fuses = s.fuses := by
  simp [State.chanMap]

@[simp] theorem State.putOff_fuses (s : State) (port : Nat) (c : Instr) : (s.putOff port c).fuses = s.fuses := by
  simp [State.putOff]

@[simp] theorem State.inOrder_fuses (s : State) (f : Func) (c : Instr) (body : State → State)
    (h : ∀ u, (body u).fuses = u.fuses) : (s.inOrder f c body).fuses = s.fuses := by
  simp [State.inOrder, h]

@[simp] theorem State.reqOrder_fuses (s : State) (r : Req) (c : Instr) (body : State → State)
    (h : ∀ u, (body u).fuses = u.fuses) : (s.reqOrder r c body).fuses = s.fuses := by
  unfold State.reqOrder
  split <;> simp [h]

@[simp] theorem State.deviceChange_fuses (s : State) (f : Pat → Pat) : (s.deviceChange f).fuses = s.fuses := by
  simp [State.deviceChange]

@[simp] theorem State.pbaSet_fuses (s : State) (fn v : Nat) (b : Bool) : (s.pbaSet fn v b).fuses = s.fuses := by
  simp [State.pbaSet]

@[simp] theorem State.vfVecSet_fuses (s : State) (port k v : Nat) (x : VfVec) : (s.vfVecSet port k v x).fuses = s.fuses := by
  simp [State.vfVecSet]

@[simp] theorem State.vfSend_fuses (s : State) (port k v : Nat) : (s.vfSend port k v).fuses = s.fuses := by simp [State.vfSend]

@[simp] theorem State.vfEvent_fuses (s : State) (k v : Nat) : (s.vfEvent k v).fuses = s.fuses := by
  unfold State.vfEvent
  dsimp only
  repeat' split
  all_goals simp

@[simp] theorem State.raise_fuses (s : State) (src : Nat) : (s.raise src).fuses = s.fuses := by
  unfold State.raise
  dsimp only
  repeat' split
  all_goals simp

@[simp] theorem State.logQueue_fuses (s : State) (r : ErrRec) : (s.logQueue r).fuses = s.fuses := by simp [State.logQueue]

@[simp] theorem State.logRec_fuses (s : State) (code unit : Nat) (part : Option Nat) (addr syn : Nat) (once : Bool) :
    (s.logRec code unit part addr syn once).fuses = s.fuses := by
  unfold State.logRec
  dsimp only
  repeat' split
  all_goals simp

@[simp] theorem State.err_fuses (s : State) (code unit : Nat) (part : Option Nat) (addr syn : Nat) :
    (s.err code unit part addr syn).fuses = s.fuses := by
  simp [State.err]

@[simp] theorem State.ptnResult_fuses (s : State) (code detail op : Nat) (unpicked : Bool) (who : Option Func) :
    (s.ptnResult code detail op unpicked who).fuses = s.fuses := by
  unfold State.ptnResult
  split <;> simp

@[simp] theorem State.ctlSet_fuses (s : State) (p off n v : Nat) : (s.ctlSet p off n v).fuses = s.fuses := by simp [State.ctlSet]

/-! ## The error log and the interrupt controller (spec/19) -/

@[simp] theorem State.appendNext_fuses (s : State) : s.appendNext.fuses = s.fuses := by
  unfold State.appendNext
  split <;> simp

@[simp] theorem State.irqStackSet_fuses (s : State) (t : Nat) (v : List StackEnt) : (s.irqStackSet t v).fuses = s.fuses := by
  simp [State.irqStackSet]

@[simp] theorem State.outOfOrder_fuses (s : State) (t g top : Nat) : (s.outOfOrder t g top).fuses = s.fuses := by
  simp [State.outOfOrder]

@[simp] theorem State.complete_fuses (s : State) (t g : Nat) : (s.complete t g).fuses = s.fuses := by
  unfold State.complete
  split <;> simp

@[simp] theorem State.callAlert_fuses (s : State) : s.callAlert.fuses = s.fuses := by
  unfold State.callAlert
  split <;> simp

@[simp] theorem State.reportGroup_fuses (s : State) (g : Nat) : (s.reportGroup g).fuses = s.fuses := by simp [State.reportGroup]

@[simp] theorem State.vfUnmask_fuses (s : State) (port k v : Nat) : (s.vfUnmask port k v).fuses = s.fuses := by
  unfold State.vfUnmask
  dsimp only
  repeat' split
  all_goals simp

/-! ## Dowel links and regulators (spec/14) -/

@[simp] theorem State.carryOver_fuses (s : State) (dirs : List Nat) (cls bytes : Nat) :
    (s.carryOver dirs cls bytes).fuses = s.fuses := by
  simp -implicitDefEqProofs [State.carryOver]

@[simp] theorem State.carry_fuses (s : State) (a b cls bytes : Nat) : (s.carry a b cls bytes).2.fuses = s.fuses := by
  unfold State.carry
  split <;> simp

@[simp] theorem State.cast_fuses (s : State) (a b cls bytes : Nat) : (s.cast a b cls bytes).fuses = s.fuses := by
  simp [State.cast]

@[simp] theorem State.multicast_fuses (s : State) (a : Nat) (bs : List Nat) (cls bytes : Nat) :
    (s.multicast a bs cls bytes).fuses = s.fuses := by
  simp [State.multicast]

@[simp] theorem State.regulSet_fuses (s : State) (i p : Nat) (v : Regul) : (s.regulSet i p v).fuses = s.fuses := by
  simp [State.regulSet]

@[simp] theorem State.urge_fuses (s : State) (master urgency : Nat) : (s.urge master urgency).fuses = s.fuses := by
  simp [State.urge]

@[simp] theorem State.regDefer_fuses (s : State) (part : Option Nat) (master point : Nat) :
    (s.regDefer part master point).fuses = s.fuses := by
  unfold State.regDefer
  split <;> simp

@[simp] theorem State.charge_fuses (s : State) (part : Option Nat) (master point bytes : Nat) :
    (s.charge part master point bytes).fuses = s.fuses := by
  unfold State.charge
  split <;> simp

@[simp] theorem State.guarMiss_fuses (s : State) (i p : Nat) : (s.guarMiss i p).fuses = s.fuses := by
  simp -implicitDefEqProofs [State.guarMiss]

@[simp] theorem State.regEnd_fuses (s : State) (i p : Nat) : (s.regEnd i p).fuses = s.fuses := by
  simp -implicitDefEqProofs [State.regEnd]

@[simp] theorem State.regBegin_fuses (s : State) (i p : Nat) : (s.regBegin i p).fuses = s.fuses := by simp [State.regBegin]

@[simp] theorem State.eachEntry_fuses (s : State) (f : State → Nat → Nat → State) (h : ∀ u i p, (f u i p).fuses = u.fuses) :
    (s.eachEntry f).fuses = s.fuses := by
  simp [State.eachEntry, h]

@[simp] theorem State.windowBegin_fuses (s : State) : s.windowBegin.fuses = s.fuses := by simp [State.windowBegin]
@[simp] theorem State.regWindow_fuses (s : State) : s.regWindow.fuses = s.fuses := by simp [State.regWindow]
@[simp] theorem State.regAdjust_fuses (s old : State) : (s.regAdjust old).fuses = s.fuses := by simp [State.regAdjust]
@[simp] theorem State.regRestart_fuses (s : State) : s.regRestart.fuses = s.fuses := by simp [State.regRestart]
@[simp] theorem State.darnLane_fuses (s : State) (dir l : Nat) : (s.darnLane dir l).fuses = s.fuses := by simp [State.darnLane]
@[simp] theorem State.dropGroup_fuses (s : State) (dir g : Nat) : (s.dropGroup dir g).fuses = s.fuses := by simp [State.dropGroup]
@[simp] theorem State.fenceLink_fuses (s : State) (dir : Nat) : (s.fenceLink dir).fuses = s.fuses := by simp [State.fenceLink]
@[simp] theorem State.darnDirs_fuses (s : State) (dirs : List Nat) : (s.darnDirs dirs).fuses = s.fuses := by simp [State.darnDirs]
@[simp] theorem State.darnLanes_fuses (s : State) : s.darnLanes.fuses = s.fuses := by simp [State.darnLanes]

@[simp] theorem State.serviceLanes_fuses (s : State) : s.serviceLanes.fuses = s.fuses := by
  simp -implicitDefEqProofs [State.serviceLanes]

@[simp] theorem State.laneFail_fuses (s : State) (dir l : Nat) : (s.laneFail dir l).fuses = s.fuses := by
  simp -implicitDefEqProofs [State.laneFail]

@[simp] theorem State.applyDarnMap_fuses (s : State) : s.applyDarnMap.fuses = s.fuses := by
  simp -implicitDefEqProofs [State.applyDarnMap]

/-! ## HBM (spec/11) -/

@[simp] theorem State.hbmStore_fuses (s : State) (k : Nat) (x : HSec) (bs : List Byte) : (s.hbmStore k x bs).fuses = s.fuses := by
  simp [State.hbmStore]

@[simp] theorem State.hbmWrite_fuses (s : State) (a : Nat) (bs : List Byte) (poison : Bool) :
    (s.hbmWrite a bs poison).fuses = s.fuses := by
  simp [State.hbmWrite]

@[simp] theorem State.condemn_fuses (s : State) (n : Nat) : (s.condemn n).fuses = s.fuses := by simp [State.condemn]

@[simp] theorem State.correctedError_fuses (s : State) (n : Nat) : (s.correctedError n).fuses = s.fuses := by
  simp -implicitDefEqProofs [State.correctedError]

@[simp] theorem State.uncorrectable_fuses (s : State) (pch off a : Nat) (part : Option Nat) (ecc : Ecc) :
    (s.uncorrectable pch off a part ecc).fuses = s.fuses := by
  simp [State.uncorrectable]

@[simp] theorem State.hbmReadUnder_fuses (s : State) (gen a : Nat) (ecc : Ecc) :
    (s.hbmReadUnder gen a ecc).2.2.fuses = s.fuses := by
  simp [State.hbmReadUnder]

@[simp] theorem State.hbmRead_fuses (s : State) (a : Nat) (ecc : Ecc) : (s.hbmRead a ecc).2.2.fuses = s.fuses := by
  simp [State.hbmRead]

@[simp] theorem State.hbmMerge_fuses (s : State) (a : Nat) (bs : List Byte) (ecc : Ecc) :
    (s.hbmMerge a bs ecc).2.fuses = s.fuses := by
  simp [State.hbmMerge]

@[simp] theorem State.hbmUndefined_fuses (s : State) (pchs : List Nat) : (s.hbmUndefined pchs).fuses = s.fuses := by
  simp [State.hbmUndefined]

@[simp] theorem State.sectorServe_fuses (s : State) (gen a : Nat) (write : Option (List Byte)) (ecc : Ecc) :
    (s.sectorServe gen a write ecc).fuses = s.fuses := by
  unfold State.sectorServe
  split <;> simp

@[simp] theorem State.sectorsGo_fuses (s : State) (m : Nat) (sel : SectorWait → Bool) : (s.sectorsGo m sel).fuses = s.fuses := by
  simp [State.sectorsGo]

@[simp] theorem State.lateGo_fuses (s : State) : s.lateGo.fuses = s.fuses := by simp [State.lateGo]

@[simp] theorem State.stackResumes_fuses (s : State) (m : Nat) : (s.stackResumes m).fuses = s.fuses := by
  simp [State.stackResumes]

@[simp] theorem State.judgeStack_fuses (s : State) (m : Nat) : (s.judgeStack m).fuses = s.fuses := by
  unfold State.judgeStack
  dsimp only
  repeat' split
  all_goals simp

/-! ## The lining (spec/10) -/

@[simp] theorem State.secSet_fuses (s : State) (a : Nat) (x : Sec) : (s.secSet a x).fuses = s.fuses := by simp [State.secSet]

@[simp] theorem State.linPut_fuses (s : State) (a : Nat) (bs : List Byte) : (s.linPut a bs).fuses = s.fuses := by
  simp [State.linPut]

@[simp] theorem State.linClear_fuses (s : State) (a n : Nat) : (s.linClear a n).fuses = s.fuses := by simp [State.linClear]
@[simp] theorem State.lineSet_fuses (s : State) (l : Nat) (x : Line) : (s.lineSet l x).fuses = s.fuses := by simp [State.lineSet]
@[simp] theorem State.dropCopies_fuses (s : State) (l : Nat) : (s.dropCopies l).fuses = s.fuses := by simp [State.dropCopies]
@[simp] theorem State.forgetLine_fuses (s : State) (l : Nat) : (s.forgetLine l).fuses = s.fuses := by simp [State.forgetLine]

@[simp] theorem State.secSeal_fuses (s : State) (a : Nat) (x : Sec) (fresh : Bool) : (s.secSeal a x fresh).fuses = s.fuses := by
  simp [State.secSeal]

@[simp] theorem State.install_fuses (s : State) (a : Nat) (bs : List Byte) : (s.install a bs).fuses = s.fuses := by
  simp [State.install]

@[simp] theorem State.writeDirty_fuses (s : State) (die l : Nat) : (s.writeDirty die l).fuses = s.fuses := by
  simp [State.writeDirty]

@[simp] theorem State.lateDirty_fuses (s : State) (die l : Nat) : (s.lateDirty die l).fuses = s.fuses := by simp [State.lateDirty]

@[simp] theorem State.acceptWriteBack_fuses (s : State) (l sl : Nat) : (s.acceptWriteBack l sl).fuses = s.fuses := by
  simp [State.acceptWriteBack]

@[simp] theorem State.evict_fuses (s : State) (l : Nat) : (s.evict l).fuses = s.fuses := by
  unfold State.evict
  split <;> simp

@[simp] theorem State.takeWay_fuses (s : State) (w : WayOf) : (s.takeWay w).fuses = s.fuses := by
  unfold State.takeWay
  split <;> simp

@[simp] theorem State.allocLine_fuses (s : State) (p l : Nat) (victim : Option Nat) :
    (s.allocLine p l victim).fuses = s.fuses := by
  unfold State.allocLine
  split <;> simp

@[simp] theorem State.linCorrected_fuses (s : State) (sl : Nat) : (s.linCorrected sl).fuses = s.fuses := by
  simp -implicitDefEqProofs [State.linCorrected]

@[simp] theorem State.linUncorr_fuses (s : State) (sl a : Nat) (part : Option Nat) : (s.linUncorr sl a part).fuses = s.fuses := by
  simp -implicitDefEqProofs [State.linUncorr]

@[simp] theorem State.fetchSector_fuses (s : State) (sl a : Nat) (ecc : Ecc) : (s.fetchSector sl a ecc).2.fuses = s.fuses := by
  simp [State.fetchSector]

@[simp] theorem State.needSector_fuses (s : State) (p sl a : Nat) (ecc : Ecc) : (s.needSector p sl a ecc).2.fuses = s.fuses := by
  unfold State.needSector
  dsimp only
  repeat' split
  all_goals simp

@[simp] theorem State.needPinned_fuses (s : State) (p sl a : Nat) (ecc : Ecc) : (s.needPinned p sl a ecc).2.fuses = s.fuses := by
  unfold State.needPinned
  dsimp only
  repeat' split
  all_goals simp

@[simp] theorem State.staleQueue_fuses (s : State) (sl a : Nat) : (s.staleQueue sl a).fuses = s.fuses := by
  simp [State.staleQueue]

@[simp] theorem State.storeSector_fuses (s : State) (sl a lo : Nat) (bs : List Byte) (cached : Bool) :
    (s.storeSector sl a lo bs cached).fuses = s.fuses := by
  simp [State.storeSector]

@[simp] theorem State.notify_fuses (s : State) (die a len : Nat) : (s.notify die a len).fuses = s.fuses := by simp [State.notify]

@[simp] theorem State.countLookup_fuses (s : State) (die cls found want : Nat) :
    (s.countLookup die cls found want).fuses = s.fuses := by
  simp -implicitDefEqProofs [State.countLookup]

@[simp] theorem State.countPinned_fuses (s : State) (sl : Nat) : (s.countPinned sl).fuses = s.fuses := by
  simp -implicitDefEqProofs [State.countPinned]

@[simp] theorem State.modify_fuses (s : State) (p sl a len : Nat) (f : List Byte → List Byte) (ecc : Ecc) (cached : Bool) :
    (s.modify p sl a len f ecc cached).2.2.fuses = s.fuses := by
  simp [State.modify]

@[simp] theorem State.performHeld_fuses (s : State) (x : Line) (u : LinAccess) : (s.performHeld x u).fuses = s.fuses := by
  unfold State.performHeld
  split <;> simp

@[simp] theorem State.note_fuses (s : State) (q : Ask) (f : Ticket → Ticket) : (s.note q f).fuses = s.fuses := by
  simp [State.note]

@[simp] theorem State.lineMap_fuses (s : State) (l : Nat) (f : Line → Line) : (s.lineMap l f).fuses = s.fuses := by
  unfold State.lineMap
  split <;> simp

@[simp] theorem State.unticket_fuses (s : State) (q : Ask) : (s.unticket q).fuses = s.fuses := by
  unfold State.unticket
  split <;> simp

@[simp] theorem State.forgetTickets_fuses (s : State) (gone : Ticket → Bool) : (s.forgetTickets gone).fuses = s.fuses := by
  simp [State.forgetTickets]

@[simp] theorem State.turnAt_fuses (s : State) (q : Ask) : (s.turnAt q).fuses = s.fuses := by
  unfold State.turnAt
  split <;> simp

@[simp] theorem State.recallLine_fuses (s : State) (l : Nat) : (s.recallLine l).fuses = s.fuses := by
  unfold State.recallLine
  split <;> simp

@[simp] theorem State.lookedUp_fuses (s : State) (q : Ask) (p : Nat) : (s.lookedUp q p).fuses = s.fuses := by
  simp [State.lookedUp]

@[simp] theorem State.stopAt_fuses (s : State) (q : Ask) : (s.stopAt q).fuses = s.fuses := by simp [State.stopAt]

@[simp] theorem State.waitAtLine_fuses (s : State) (q : Ask) (p : Nat) (y : Line) : (s.waitAtLine q p y).fuses = s.fuses := by
  simp [State.waitAtLine]

@[simp] theorem State.lineBegin_fuses (s : State) (q : Ask) (victim : Option Nat) : (s.lineBegin q victim).fuses = s.fuses := by
  unfold State.lineBegin
  dsimp only
  repeat' split
  all_goals simp

@[simp] theorem State.copyLater_fuses (s : State) (key mask : Nat) : (s.copyLater key mask).fuses = s.fuses := by
  simp [State.copyLater]

@[simp] theorem State.copyTo_fuses (s : State) (p l die mask : Nat) : (s.copyTo p l die mask).fuses = s.fuses := by
  unfold State.copyTo
  dsimp only
  repeat' split
  all_goals simp

@[simp] theorem State.placeCopy_fuses (s : State) (agent : Agent) (p l cls : Nat) (secs : List Nat) :
    (s.placeCopy agent p l cls secs).fuses = s.fuses := by
  unfold State.placeCopy
  split <;> simp

@[simp] theorem State.copiesDue_fuses (s : State) : s.copiesDue.fuses = s.fuses := by
  unfold State.copiesDue
  rw [foldl_fuses]
  intro u e
  split <;> simp

@[simp] theorem State.serve_fuses (s : State) (agent : Agent) (p a len : Nat) (act : Act) (ecc : Ecc) :
    (s.serve agent p a len act ecc).2.2.fuses = s.fuses := by
  cases act <;> simp [State.serve, foldl_mid_fuses]

@[simp] theorem State.takenIn_fuses (s : State) (q : Ask) (p : Nat) : (s.takenIn q p).fuses = s.fuses := by simp [State.takenIn]

@[simp] theorem State.crossed_fuses (s : State) (a b up down : Nat) : (s.crossed a b up down).2.fuses = s.fuses := by
  simp [State.crossed]

@[simp] theorem State.stick_fuses (s : State) (q : Ask) : (s.stick q).fuses = s.fuses := by simp [State.stick]

@[simp] theorem State.lineAccess_fuses (s : State) (agent : Agent) (part : Option Nat) (a len : Nat) (act : Act) (ecc : Ecc)
    (victim : Option Nat) : (s.lineAccess agent part a len act ecc victim).2.2.fuses = s.fuses := by
  unfold State.lineAccess
  cases s.target agent part a with
  | fails c => simp
  | remote => simp
  | idle => cases act <;> simp
  | pinned => cases act <;> simp
  | cached p => simp

@[simp] theorem State.memRead_fuses (s : State) (agent : Agent) (part : Option Nat) (a len : Nat) (ecc : Ecc) :
    (s.memRead agent part a len ecc).2.2.fuses = s.fuses := by
  simp [State.memRead]

@[simp] theorem State.memWrite_fuses (s : State) (agent : Agent) (part : Option Nat) (a : Nat) (bs : List Byte) (ecc : Ecc) :
    (s.memWrite agent part a bs ecc).2.fuses = s.fuses := by
  simp [State.memWrite]

@[simp] theorem State.memUpdate_fuses (s : State) (agent : Agent) (part : Option Nat) (a len : Nat) (f : List Byte → List Byte)
    (ecc : Ecc) : (s.memUpdate agent part a len f ecc).2.2.fuses = s.fuses := by
  simp [State.memUpdate]

@[simp] theorem State.memReduce_fuses (s : State) (agent : Agent) (part : Option Nat) (a code : Nat) (bs : List Byte)
    (ecc : Ecc) : (s.memReduce agent part a code bs ecc).2.fuses = s.fuses := by
  simp [State.memReduce]

@[simp] theorem State.asksBegin_fuses (s : State) (qs : List Ask) : (s.asksBegin qs).fuses = s.fuses := by simp [State.asksBegin]

@[simp] theorem State.memBegin_fuses (s : State) (agent : Agent) (part : Option Nat) (a len : Nat) (kind : AccKind) (ecc : Ecc) :
    (s.memBegin agent part a len kind ecc).fuses = s.fuses := by
  simp [State.memBegin]

@[simp] theorem State.block_fuses (s : State) (x : LinAccess) : (s.block x).fuses = s.fuses := by simp [State.block]
@[simp] theorem State.perform_fuses (s : State) (x : LinAccess) : (s.perform x).fuses = s.fuses := by simp [State.perform]

@[simp] theorem State.deliver_fuses (s : State) (p : Nat) (x : LinAccess) : (s.deliver p x).fuses = s.fuses := by
  simp [State.deliver]

@[simp] theorem State.fetchGo_fuses (s : State) (die : Nat) (secs : List Nat) : (s.fetchGo die secs).2.fuses = s.fuses := by
  simp [State.fetchGo]

@[simp] theorem State.proceed_fuses (s : State) (p : Nat) (x : LinAccess) : (s.proceed p x).fuses = s.fuses := by
  simp [State.proceed]

@[simp] theorem State.arriveHome_fuses (s : State) (x : LinAccess) (p : Nat) : (s.arriveHome x p).fuses = s.fuses := by
  simp [State.arriveHome]

@[simp] theorem State.arrive_fuses (s : State) (x : LinAccess) : (s.arrive x).fuses = s.fuses := by
  unfold State.arrive
  dsimp only
  repeat' split
  all_goals simp

@[simp] theorem State.retryBlocked_fuses (s : State) : s.retryBlocked.fuses = s.fuses := by simp [State.retryBlocked]

@[simp] theorem State.filled_fuses (s : State) (die : Nat) (x : LinAccess) : (s.filled die x).fuses = s.fuses := by
  simp [State.filled]

@[simp] theorem State.copiesGone_fuses (s : State) (l : Nat) (y : Line) : (s.copiesGone l y).fuses = s.fuses := by
  simp [State.copiesGone]

@[simp] theorem State.scrubCopy_fuses (s : State) (sl key : Nat) (ecc : Ecc) : (s.scrubCopy sl key ecc).fuses = s.fuses := by
  unfold State.scrubCopy
  split <;> simp

@[simp] theorem State.scrub_fuses (s : State) (sl a : Nat) (ecc : Ecc) : (s.scrub sl a ecc).fuses = s.fuses := by
  unfold State.scrub
  dsimp only
  repeat' split
  all_goals simp

@[simp] theorem State.clearLining_fuses (s : State) : s.clearLining.fuses = s.fuses := by simp [State.clearLining]

@[simp] theorem State.clearSlices_fuses (s : State) (p : Nat) (slices : List Nat) : (s.clearSlices p slices).fuses = s.fuses := by
  simp [State.clearSlices]

@[simp] theorem State.flushPart_fuses (s : State) (p : Nat) : (s.flushPart p).fuses = s.fuses := by simp [State.flushPart]

@[simp] theorem State.recallNow_fuses (s : State) (l : Nat) : (s.recallNow l).fuses = s.fuses := by
  unfold State.recallNow
  split <;> simp

@[simp] theorem State.drainHeld_fuses (s : State) (l : Nat) : (s.drainHeld l).fuses = s.fuses := by
  unfold State.drainHeld
  dsimp only
  split
  · simp
  · simp only [State.lineMap_fuses]
    rw [foldl_fst_fuses]
    · simp
    · intro u h
      cases h <;> simp

@[simp] theorem State.leaveLine_fuses (s : State) (l : Nat) : (s.leaveLine l).fuses = s.fuses := by
  simp only [State.leaveLine]
  split <;> simp

@[simp] theorem State.rehomeLines_fuses (s : State) (p : Nat) : (s.rehomeLines p).fuses = s.fuses := by simp [State.rehomeLines]
@[simp] theorem State.dropLines_fuses (s : State) (p : Nat) : (s.dropLines p).fuses = s.fuses := by simp [State.dropLines]
@[simp] theorem State.strandLines_fuses (s : State) (p : Nat) : (s.strandLines p).fuses = s.fuses := by simp [State.strandLines]

@[simp] theorem State.relayOut_fuses (s : State) (old new : Pat) : (s.relayOut old new).fuses = s.fuses := by
  unfold State.relayOut
  rw [foldl_fuses]
  intro u sl
  simp

@[simp] theorem State.relayClear_fuses (s : State) (old new : Pat) : (s.relayClear old new).fuses = s.fuses := by
  simp [State.relayClear]

@[simp] theorem State.pinResult_fuses (s : State) (code op : Nat) : (s.pinResult code op).fuses = s.fuses := by
  simp -implicitDefEqProofs [State.pinResult]

@[simp] theorem State.pinRequest_fuses (s : State) (f : Func) (region : Nat) (isPin : Bool) :
    (s.pinRequest f region isPin).fuses = s.fuses := by
  simp [State.pinRequest]

@[simp] theorem State.pinApply_fuses (s : State) (p : Nat) : (s.pinApply p).fuses = s.fuses := by
  unfold State.pinApply
  split <;> simp

@[simp] theorem State.pinCancel_fuses (s : State) : s.pinCancel.fuses = s.fuses := by
  unfold State.pinCancel
  split <;> simp

@[simp] theorem State.homeq_fuses (s : State) (a : Nat) : (s.homeq a).fuses = s.fuses := by
  conv in State.homeq => delta State.homeq
  generalize (if a < s.capacity * 2 ^ 30 then s.spanOwner a else none) = o
  cases o <;> rw [State.rgSet_fuses, State.rg64Set_fuses]

/-! ## Thread groups (spec/08) -/

@[simp] theorem State.dropActive_fuses (s : State) (gx : Nat) : (s.dropActive gx).fuses = s.fuses := by simp [State.dropActive]
@[simp] theorem State.leaveActive_fuses (s : State) (gx : Nat) : (s.leaveActive gx).fuses = s.fuses := by simp [State.leaveActive]

@[simp] theorem State.refill_fuses (s : State) (c : Nat) (n : Nat) : (s.refill c n).fuses = s.fuses := by
  induction n generalizing s with
  | zero => rfl
  | succ n ih =>
    rw [State.refill]
    split
    · rfl
    · split <;> simp [ih]

@[simp] theorem State.proofSwap_fuses (s : State) (gx : Nat) : (s.proofSwap gx).fuses = s.fuses := by
  unfold State.proofSwap
  dsimp only
  repeat' split
  all_goals simp

@[simp] theorem State.arrange_fuses (s : State) (gx : Nat) : (s.arrange gx).fuses = s.fuses := by simp [State.arrange]

theorem State.takeTurn_fuses {s t : State} {gx : Nat} (h : s.takeTurn gx = some t) : t.fuses = s.fuses := by
  simp only [State.takeTurn] at h
  split at h
  · simp [← Option.some.inj h]
  · cases h

@[simp] theorem State.freeSlot_fuses (s : State) (gx : Nat) : (s.freeSlot gx).fuses = s.fuses := by simp [State.freeSlot]

@[simp] theorem State.parkAt_fuses (s : State) (gx code sub : Nat) (mask : BitVec 32) (addr : Nat) (asy : Bool) (pc word : Nat)
    (partly : Bool) : (s.parkAt gx code sub mask addr asy pc word partly).fuses = s.fuses := by
  simp [State.parkAt]

@[simp] theorem State.illegal_fuses (s : State) (gx : Nat) : (s.illegal gx).fuses = s.fuses := by simp [State.illegal]
@[simp] theorem State.settleGroup_fuses (s : State) (gx : Nat) : (s.settleGroup gx).fuses = s.fuses := by simp [State.settleGroup]
@[simp] theorem State.pass_fuses (s : State) (gx : Nat) : (s.pass gx).fuses = s.fuses := by simp [State.pass]
@[simp] theorem State.await_fuses (s : State) (gx : Nat) (w : WaitFor) : (s.await gx w).fuses = s.fuses := by simp [State.await]

@[simp] theorem State.issued_fuses (s : State) (gx op : Nat) (i : Insn) : (s.issued gx op i).fuses = s.fuses := by
  simp [State.issued]

@[simp] theorem State.issue_fuses (s : State) (g : GroupId) (op : Nat) (i : Insn) (f : Form)
    (body : State → Nat → BitVec 32 → State) (h : ∀ u gx eff, (body u gx eff).fuses = u.fuses) :
    (s.issue g op i f body).fuses = s.fuses := by
  unfold State.issue
  dsimp only
  split
  · rfl
  · split
    · simp
    · next hu =>
      have hk := State.takeTurn_fuses hu
      split <;> simp [h, hk]

@[simp] theorem State.lanewise_fuses (s : State) (g : GroupId) (op : Nat) (i : Insn) (f : Form) (fn : Group → Nat → Group) :
    (s.lanewise g op i f fn).fuses = s.fuses := by
  simp [State.lanewise]

@[simp] theorem State.noProgress_fuses (s : State) (gx : Nat) : (s.noProgress gx).fuses = s.fuses := by simp [State.noProgress]

/-! ## Arithmetic (spec/09) -/

@[simp] theorem State.binary_fuses (s : State) (g : GroupId) (op : Nat) (i : Insn) (m : Nat) (fn : Word → Word → Word) :
    (s.binary g op i m fn).fuses = s.fuses := by
  simp [State.binary]

@[simp] theorem State.unary_fuses (s : State) (g : GroupId) (op : Nat) (i : Insn) (m : Nat) (fn : Word → Word) :
    (s.unary g op i m fn).fuses = s.fuses := by
  simp [State.unary]

/-! ## Sending on spline links (spec/15) -/

@[simp] theorem State.sendFlit_fuses (s : State) (n : Nat) (f : Flit) : (s.sendFlit n f).fuses = s.fuses := by
  simp [State.sendFlit]

@[simp] theorem State.sendAck_fuses (s : State) (n : Nat) : (s.sendAck n).fuses = s.fuses := by simp [State.sendAck]

@[simp] theorem State.pumpVc_fuses (s : State) (n vc : Nat) : (s.pumpVc n vc).fuses = s.fuses := by
  simp -implicitDefEqProofs [State.pumpVc]

@[simp] theorem State.pump_fuses (s : State) (n : Nat) : (s.pump n).fuses = s.fuses := by simp [State.pump]
@[simp] theorem State.post_fuses (s : State) (n kind : Nat) (m : Msg) : (s.post n kind m).fuses = s.fuses := by simp [State.post]

theorem State.choose_fuses {s u : State} {xs : List Nat} {n : Nat} (h : s.choose xs = some (n, u)) : u.fuses = s.fuses := by
  unfold State.choose at h
  split at h
  · cases h
  all_goals
    cases h
    rfl

@[simp] theorem State.noRoute_fuses (s : State) (die dst : Nat) (part : Option Nat) :
    (s.noRoute die dst part).fuses = s.fuses := by
  simp -implicitDefEqProofs [State.noRoute]

@[simp] theorem State.remoteSend_fuses (s : State) (agent : Agent) (p kind a arg : Nat) (target : Nat) (payload : List Byte) :
    (s.remoteSend agent p kind a arg target payload).2.fuses = s.fuses := by
  unfold State.remoteSend
  dsimp only
  split
  · rfl
  · split
    · rfl
    · split
      · simp
      · next h =>
        have hk := State.choose_fuses h
        split <;> simp [hk]

@[simp] theorem State.dropEntry_fuses (s : State) (key : Nat) : (s.dropEntry key).fuses = s.fuses := by simp [State.dropEntry]

@[simp] theorem State.readFar_fuses (s : State) (agent : Agent) (p a len : Nat) (ecc : Ecc) :
    (s.readFar agent p a len ecc).2.2.fuses = s.fuses := by
  unfold State.readFar
  dsimp only
  repeat' split
  all_goals simp

@[simp] theorem State.askFar_fuses (s : State) (q : Ask) : (s.askFar q).fuses = s.fuses := by
  unfold State.askFar
  dsimp only
  split
  · rfl
  · split <;> next h => simp [snd_fuses h]

@[simp] theorem State.farAnswer_fuses (s : State) (key code : Nat) (data : List Byte) :
    (s.farAnswer key code data).fuses = s.fuses := by
  simp [State.farAnswer]

@[simp] theorem State.together_fuses (s : State) (f : State → State) (h : ∀ u, (f u).fuses = u.fuses) :
    (s.together f).fuses = s.fuses := by
  simp only [State.together]
  split <;> simp [h]

/-! ## Host ports (spec/16) -/

@[simp] theorem State.bar2Err_fuses (s : State) (fn code addr : Nat) (part : Option Nat) :
    (s.bar2Err fn code addr part).fuses = s.fuses := by
  simp [State.bar2Err]

@[simp] theorem State.bar2Done_fuses (s : State) (fn : Nat) (kind : CplKind) (code : Nat) (data : List Byte) :
    (s.bar2Done fn kind code data).fuses = s.fuses := by
  simp [State.bar2Done]

@[simp] theorem State.portOps_fuses (s : State) (port : Nat) (ops : List HostOp) : (s.portOps port ops).fuses = s.fuses := by
  simp [State.portOps]

@[simp] theorem State.pieceDone_fuses (s : State) (port : Nat) (q : HostOp) (rest : List HostOp) (code : Nat) (data : List Byte) :
    (s.pieceDone port q rest code data).fuses = s.fuses := by
  unfold State.pieceDone
  split <;> simp

@[simp] theorem State.hostStep_fuses (s : State) (port : Nat) : (s.hostStep port).2.fuses = s.fuses := by
  unfold State.hostStep
  dsimp only
  split
  · simp
  · split
    · simp
    · split
      · simp
      · split
        · split
          · simp
          · split <;> next h => split at h <;> simp [snd_fuses h]
        · simp

@[simp] theorem State.hostRun_fuses (s : State) (port : Nat) (n : Nat) : (s.hostRun port n).fuses = s.fuses := by
  induction n generalizing s with
  | zero => rfl
  | succ n ih =>
    rw [State.hostRun]
    split <;> next h => simp [ih, snd_fuses h]

@[simp] theorem State.hostPump_fuses (s : State) (port : Nat) : (s.hostPump port).fuses = s.fuses := by simp [State.hostPump]

@[simp] theorem State.hostRemote_fuses (s : State) (port key code : Nat) (data : List Byte) :
    (s.hostRemote port key code data).fuses = s.fuses := by
  unfold State.hostRemote
  split <;> simp

@[simp] theorem State.bar2Start_fuses (s : State) (f : Func) (off : Nat) (write : Bool) (pieces : List (Nat × Nat × List Byte)) :
    (s.bar2Start f off write pieces).fuses = s.fuses := by
  unfold State.bar2Start
  dsimp only
  repeat' split
  all_goals simp

@[simp] theorem State.lateTimeout_fuses (s : State) (f : Func) : (s.lateTimeout f).fuses = s.fuses := by
  simp only [State.lateTimeout]
  split <;> simp

@[simp] theorem State.setApbase_fuses (s : State) (f : Func) (v : Nat) : (s.setApbase f v).fuses = s.fuses := by
  simp [State.setApbase]

@[simp] theorem State.bar4Put_fuses (s : State) (f : Func) (off : Nat) (bytes : List Byte) :
    (s.bar4Put f off bytes).fuses = s.fuses := by
  unfold State.bar4Put
  split <;> simp

@[simp] theorem State.fnReset_fuses (s : State) (n : Nat) : (s.fnReset n).fuses = s.fuses := by simp [State.fnReset]
@[simp] theorem State.vfReset_fuses (s : State) (port k : Nat) : (s.vfReset port k).fuses = s.fuses := by simp [State.vfReset]

/-! ## Tensors and tallies (spec/12) -/

@[simp] theorem State.checkDesc_fuses (s : State) (agent : Agent) (p : Nat) (x : Desc) :
    (s.checkDesc agent p x).2.2.2.fuses = s.fuses := by
  unfold State.checkDesc
  dsimp only
  repeat' split
  all_goals simp

@[simp] theorem State.locate_fuses (s : State) (agent : Agent) (p : Nat) (x : Desc) (cut : Option CutList) (idx : List Nat) :
    (s.locate agent p x cut idx).2.fuses = s.fuses := by
  unfold State.locate
  split <;> simp

@[simp] theorem State.produce_fuses (s : State) (agent : Agent) (p : Nat) (ws : List Written) (bad : Bool) :
    (s.produce agent p ws bad).2.fuses = s.fuses := by
  unfold State.produce
  dsimp only
  rw [foldl_snd_fuses]
  intro t b
  split <;> simp

@[simp] theorem State.consume_fuses (s : State) (agent : Agent) (p : Nat) (rs : List Written) (require : Bool) :
    (s.consume agent p rs require).2.fuses = s.fuses := by
  unfold State.consume
  dsimp only
  rw [foldl_snd_fuses]
  intro t b
  split
  · rfl
  · split <;> simp

/-! ## Jig engines (spec/13) -/

@[simp] theorem State.chPend_fuses (s : State) (reg src ch : Nat) : (s.chPend reg src ch).fuses = s.fuses := by
  simp [State.chPend]

@[simp] theorem State.jigForget_fuses (s : State) (ch : Nat) : (s.jigForget ch).fuses = s.fuses := by simp [State.jigForget]

@[simp] theorem State.jigFault_fuses (s : State) (ch code sub : Nat) : (s.jigFault ch code sub).fuses = s.fuses := by
  simp [State.jigFault]

@[simp] theorem State.goTo_fuses (s : State) (ch pc : Nat) : (s.goTo ch pc).fuses = s.fuses := by simp [State.goTo]
@[simp] theorem State.goOn_fuses (s : State) (ch : Nat) : (s.goOn ch).fuses = s.fuses := by simp [State.goOn]
@[simp] theorem State.haltDone_fuses (s : State) (ch : Nat) : (s.haltDone ch).fuses = s.fuses := by simp [State.haltDone]

@[simp] theorem State.badRecord_fuses (s : State) (ch pc code addr syn : Nat) :
    (s.badRecord ch pc code addr syn).fuses = s.fuses := by
  simp -implicitDefEqProofs [State.badRecord]

@[simp] theorem State.badLast_fuses (s : State) (ch code : Nat) : (s.badLast ch code).fuses = s.fuses := by simp [State.badLast]
@[simp] theorem State.stopAll_fuses (s : State) (ch : Nat) : (s.stopAll ch).fuses = s.fuses := by simp [State.stopAll]

@[simp] theorem State.badOp_fuses (s : State) (ch code addr : Nat) (next : State → State) (h : ∀ u, (next u).fuses = u.fuses) :
    (s.badOp ch code addr next).fuses = s.fuses := by
  simp -implicitDefEqProofs [State.badOp, h]

@[simp] theorem State.mvSet_fuses (s : State) (ch k : Nat) (v : MoveSt) : (s.mvSet ch k v).fuses = s.fuses := by
  simp [State.mvSet]

@[simp] theorem State.markBad_fuses (s : State) (ch k : Nat) (v : MoveSt) (code addr syn : Nat) :
    (s.markBad ch k v code addr syn).fuses = s.fuses := by
  simp -implicitDefEqProofs [State.markBad]

@[simp] theorem State.tensorAt_fuses (s : State) (ch : Nat) (v : MoveSt) (k : Nat) : (s.tensorAt ch v k).2.fuses = s.fuses := by
  simp [State.tensorAt]

@[simp] theorem State.placeAt_fuses (s : State) (ch : Nat) (v : MoveSt) (src : Bool) (k : Nat) :
    (s.placeAt ch v src k).2.fuses = s.fuses := by
  simp [State.placeAt]

@[simp] theorem State.growAt_fuses (s : State) (ch : Nat) (v : MoveSt) (src : Bool) (k room : Nat) (a : Place) (n : Nat) :
    (s.growAt ch v src k room a n).2.fuses = s.fuses := by
  induction n generalizing s a with
  | zero => rfl
  | succ n ih => simp [State.growAt, ih]

@[simp] theorem State.spanAt_fuses (s : State) (ch : Nat) (v : MoveSt) (src : Bool) (k : Nat) :
    (s.spanAt ch v src k).2.fuses = s.fuses := by
  simp [State.spanAt]

@[simp] theorem State.moveBegin_fuses (s : State) (ch k : Nat) (v : MoveSt) (ecc : Ecc) :
    (s.moveBegin ch k v ecc).fuses = s.fuses := by
  simp [State.moveBegin]

@[simp] theorem State.readIssued_fuses (s : State) (ch k : Nat) (v : MoveSt) : (s.readIssued ch k v).fuses = s.fuses := by
  simp [State.readIssued]

@[simp] theorem State.readNext_fuses (s : State) (ch k : Nat) (v : MoveSt) (ecc : Ecc) :
    (s.readNext ch k v ecc).fuses = s.fuses := by
  unfold State.readNext
  dsimp only
  split
  · simp
  · split
    · simp
    · split
      · split
        · simp
        · split <;> next h => simp [snd_fuses h]
      · simp

@[simp] theorem State.writeNext_fuses (s : State) (ch k : Nat) (v : MoveSt) (ecc : Ecc) :
    (s.writeNext ch k v ecc).fuses = s.fuses := by
  unfold State.writeNext
  dsimp only
  split
  · simp
  · split
    · simp
    · split
      · simp
      · split
        · split <;> next h => simp [snd_fuses h]
        · split <;> simp

@[simp] theorem State.moveEnd_fuses (s : State) (ch : Nat) (v : MoveSt) : (s.moveEnd ch v).fuses = s.fuses := by
  unfold State.moveEnd
  dsimp only
  split
  · simp
  · split <;> simp

@[simp] theorem State.moveVoid_fuses (s : State) (ch : Nat) (v : MoveSt) : (s.moveVoid ch v).fuses = s.fuses := by
  unfold State.moveVoid
  dsimp only
  split <;> simp

@[simp] theorem State.settleMoves_fuses (s : State) (ch : Nat) (n : Nat) : (s.settleMoves ch n).fuses = s.fuses := by
  induction n generalizing s with
  | zero => rfl
  | succ n ih =>
    rw [State.settleMoves]
    split
    · rfl
    · simp [ih]

@[simp] theorem State.moveJoin_fuses (s : State) (ch : Nat) (w : BitVec 128) : (s.moveJoin ch w).fuses = s.fuses := by
  simp [State.moveJoin]

@[simp] theorem State.jigStep_fuses (s : State) (ch : Nat) (write : Bool) (ecc : Ecc) :
    (s.jigStep ch write ecc).fuses = s.fuses := by
  unfold State.jigStep
  dsimp only
  repeat' split
  all_goals simp

@[simp] theorem State.waitOver_fuses (s : State) (ch : Nat) (w : BitVec 128) : (s.waitOver ch w).fuses = s.fuses := by
  simp [State.waitOver]

@[simp] theorem State.waitRead_fuses (s : State) (ch : Nat) (w : BitVec 128) : (s.waitRead ch w).fuses = s.fuses := by
  simp [State.waitRead]

@[simp] theorem State.waitJudge_fuses (s : State) (ch : Nat) (w : BitVec 128) : (s.waitJudge ch w).fuses = s.fuses := by
  unfold State.waitJudge
  split <;> simp

@[simp] theorem State.jigRelease_fuses (s : State) (p : Nat) : (s.jigRelease p).fuses = s.fuses := by
  unfold State.jigRelease
  rw [foldl_fuses]
  intro u ch
  dsimp only
  split <;> simp

@[simp] theorem State.signalEnd_fuses (s : State) (ch code a : Nat) : (s.signalEnd ch code a).fuses = s.fuses := by
  simp [State.signalEnd]

@[simp] theorem State.signalGo_fuses (s : State) (ch : Nat) (w : BitVec 128) : (s.signalGo ch w).fuses = s.fuses := by
  unfold State.signalGo
  dsimp only
  split
  · simp
  · split
    · split <;> next h => simp [snd_fuses h]
    · simp

@[simp] theorem State.endRest_fuses (s : State) (ch : Nat) (w : BitVec 128) : (s.endRest ch w).fuses = s.fuses := by
  simp [State.endRest]

@[simp] theorem State.storeEnd_fuses (s : State) (ch : Nat) (w : BitVec 128) (code : Nat) :
    (s.storeEnd ch w code).fuses = s.fuses := by
  simp [State.storeEnd]

@[simp] theorem State.endGo_fuses (s : State) (ch : Nat) (w : BitVec 128) : (s.endGo ch w).fuses = s.fuses := by
  unfold State.endGo
  dsimp only
  split
  · simp
  · split
    · simp
    · split
      · split <;> next h => simp [snd_fuses h]
      · simp

@[simp] theorem State.opTry_fuses (s : State) (ch : Nat) : (s.opTry ch).fuses = s.fuses := by
  simp only [State.opTry]
  split <;> simp

@[simp] theorem State.jigAfter_fuses (s : State) (ch : Nat) : (s.jigAfter ch).fuses = s.fuses := by simp [State.jigAfter]

@[simp] theorem State.moveAnswer_fuses (s : State) (ch k : Nat) (v : MoveSt) (key code : Nat) (data : List Byte) :
    (s.moveAnswer ch k v key code data).fuses = s.fuses := by
  unfold State.moveAnswer
  split <;> simp

@[simp] theorem State.jigRemote_fuses (s : State) (ch key code : Nat) (data : List Byte) :
    (s.jigRemote ch key code data).fuses = s.fuses := by
  unfold State.jigRemote
  dsimp only
  repeat' split
  all_goals simp

@[simp] theorem State.jigHalt_fuses (s : State) (ch : Nat) : (s.jigHalt ch).fuses = s.fuses := by simp [State.jigHalt]
@[simp] theorem State.jigClear_fuses (s : State) (ch : Nat) : (s.jigClear ch).fuses = s.fuses := by simp [State.jigClear]

@[simp] theorem State.jigResume_fuses (s : State) (f : Func) (e : Nat) (skip : Bool) :
    (s.jigResume f e skip).fuses = s.fuses := by
  simp [State.jigResume]

/-! ## Fit records and the close of a step (spec/07) -/

@[simp] theorem State.fitSet_fuses (s : State) (f : Nat) (x : FitRec) : (s.fitSet f x).fuses = s.fuses := by simp [State.fitSet]

@[simp] theorem State.fitClear_fuses (s : State) (f : Nat) (owner : Option Nat) : (s.fitClear f owner).fuses = s.fuses := by
  simp [State.fitClear]

@[simp] theorem State.proofDropped_fuses (s : State) (p n : Nat) : (s.proofDropped p n).fuses = s.fuses := by
  simp [State.proofDropped]

@[simp] theorem State.proofOutlier_fuses (s : State) (c target : Nat) : (s.proofOutlier c target).fuses = s.fuses := by
  simp [State.proofOutlier]

@[simp] theorem State.proofPost_fuses (s : State) (c p : Nat) (j : Job) (num den : Nat) :
    (s.proofPost c p j num den).fuses = s.fuses := by
  simp [State.proofPost]

@[simp] theorem State.fitTableErr_fuses (s : State) (p f code addr : Nat) : (s.fitTableErr p f code addr).fuses = s.fuses := by
  simp [State.fitTableErr]

@[simp] theorem State.closeOne_fuses (s : State) (p f : Nat) (tick : Nat) (suspect : Bool) :
    (s.closeOne p f tick suspect).fuses = s.fuses := by
  simp -implicitDefEqProofs [State.closeOne]

@[simp] theorem State.setResidents_fuses (s : State) (p : Nat) (rs : List (Nat × Nat)) :
    (s.setResidents p rs).fuses = s.fuses := by
  simp [State.setResidents]

@[simp] theorem State.writeSheet_fuses (s : State) (p : Nat) : (s.writeSheet p).fuses = s.fuses := by simp [State.writeSheet]
@[simp] theorem State.finishStep_fuses (s : State) (p : Nat) : (s.finishStep p).fuses = s.fuses := by simp [State.finishStep]
@[simp] theorem State.discardJobs_fuses (s : State) (p : Nat) : (s.discardJobs p).fuses = s.fuses := by simp [State.discardJobs]

/-! ## Memory instructions (spec/08, spec/09) -/

@[simp] theorem State.parkDue_fuses (s : State) (gx : Nat) : (s.parkDue gx).fuses = s.fuses := by
  unfold State.parkDue
  dsimp only
  repeat' split
  all_goals simp

@[simp] theorem State.acquireEnd_fuses (s : State) (gx id rpc : Nat) (o : OpenOp) :
    (s.acquireEnd gx id rpc o).fuses = s.fuses := by
  simp [State.acquireEnd]

@[simp] theorem State.opEnd_fuses (s : State) (gx id : Nat) (kind : ReqKind) : (s.opEnd gx id kind).fuses = s.fuses := by
  unfold State.opEnd
  dsimp only
  repeat' split
  all_goals simp

@[simp] theorem State.clampCheck_fuses (s : State) (gx : Nat) : (s.clampCheck gx).fuses = s.fuses := by simp [State.clampCheck]

@[simp] theorem State.reqEnd_fuses (s : State) (gx k : Nat) (r : MemReq) (fails : List (Nat × Nat × Nat)) :
    (s.reqEnd gx k r fails).fuses = s.fuses := by
  simp [State.reqEnd]

@[simp] theorem State.readSectors_fuses (s : State) (gx : Nat) (r : MemReq) (ecc : Ecc) :
    (s.readSectors gx r ecc).2.fuses = s.fuses := by
  simp [State.readSectors]

@[simp] theorem State.constLine_fuses (s : State) (gx l : Nat) (ecc : Ecc) : (s.constLine gx l ecc).2.2.fuses = s.fuses := by
  simp only [State.constLine]
  split <;> simp

@[simp] theorem State.performReq_fuses (s : State) (gx : Nat) (r : MemReq) (ecc : Ecc) :
    (s.performReq gx r ecc).2.fuses = s.fuses := by
  unfold State.performReq
  dsimp only
  split
  · rw [foldl_snd_fuses]
    · simp
    · intro t a
      split <;> simp
  · simp
  · simp
  · simp

@[simp] theorem State.trySend_fuses (s : State) (gx k : Nat) : (s.trySend gx k).fuses = s.fuses := by
  unfold State.trySend
  dsimp only
  split
  · rfl
  · split
    · rfl
    · split <;> next h => simp [snd_fuses h]

@[simp] theorem State.groupRemote_fuses (s : State) (gx key code : Nat) (data : List Byte) :
    (s.groupRemote gx key code data).fuses = s.fuses := by
  unfold State.groupRemote
  dsimp only
  repeat' split
  all_goals simp

@[simp] theorem State.memIssue_fuses (s : State) (gx : Nat) (kind : ReqKind) (dst : Nat) (progress done : Bool)
    (accs : List LaneAcc) (fails : List (Nat × Nat × Nat)) :
    (s.memIssue gx kind dst progress done accs fails).fuses = s.fuses := by
  unfold State.memIssue
  dsimp only
  cases kind <;> simp

@[simp] theorem State.readSignals_fuses (s : State) (gx : Nat) (ws : List (Nat × (Nat × Nat))) :
    (s.readSignals gx ws).2.2.fuses = s.fuses := by
  simp [State.readSignals]

@[simp] theorem State.laneFaults_fuses (s : State) (gx : Nat) (fails : List (Nat × Nat × Nat)) (partly : Bool) :
    (s.laneFaults gx fails partly).fuses = s.fuses := by
  simp [State.laneFaults]

@[simp] theorem State.judgeSignals_fuses (s : State) (gx : Nat) (ws : List (Nat × (Nat × Nat))) :
    (s.judgeSignals gx ws).fuses = s.fuses := by
  simp [State.judgeSignals]

@[simp] theorem State.flushReqs_fuses (s : State) (gx : Nat) : (s.flushReqs gx).fuses = s.fuses := by simp [State.flushReqs]

/-! ## Matrix panels (spec/05, spec/06) -/

@[simp] theorem State.enqueue_fuses (s : State) (gx : Nat) (q : PCmd) : (s.enqueue gx q).fuses = s.fuses := by
  simp [State.enqueue]

@[simp] theorem State.startCmd_fuses (s : State) (c : Nat) (r : RunCmd) : (s.startCmd c r).fuses = s.fuses := by
  simp [State.startCmd]

@[simp] theorem State.panelErr_fuses (s : State) (c : Nat) (q : PCmd) (code : Nat) : (s.panelErr c q code).fuses = s.fuses := by
  simp [State.panelErr]

@[simp] theorem State.panelEcc_fuses (s : State) (c : Nat) (q : PCmd) (ecc : Ecc) : (s.panelEcc c q ecc).fuses = s.fuses := by
  unfold State.panelEcc
  split <;> simp

@[simp] theorem State.passAll_fuses (s : State) (c : Nat) (q : PCmd) : (s.passAll c q).fuses = s.fuses := by simp [State.passAll]

@[simp] theorem State.drainRows_fuses (s : State) (c : Nat) (q : PCmd) (lim n : Nat) :
    (s.drainRows c q lim n).2.fuses = s.fuses := by
  simp [State.drainRows]

@[simp] theorem State.drainFail_fuses (s : State) (c : Nat) (r : RunCmd) (code : Nat) :
    (s.drainFail c r code).2.fuses = s.fuses := by
  simp [State.drainFail]

@[simp] theorem State.pumpDrain_fuses (s : State) (c : Nat) (r : RunCmd) : (s.pumpDrain c r).2.fuses = s.fuses := by
  unfold State.pumpDrain
  dsimp only
  rw [foldl_snd_fuses]
  intro t w
  split
  · split <;> next h => simp [snd_fuses h]
  · simp

@[simp] theorem State.rowWrites_fuses (s : State) (c : Nat) (r : RunCmd) (x : Desc) (cut : Option CutList) (row : Nat)
    (us : List DrainUnit) : (s.rowWrites c r x cut row us).2.2.fuses = s.fuses := by
  unfold State.rowWrites
  refine foldl_keeps (fun t : _ × _ × _ × State => t.2.2.2.fuses) _ (fun t u => ?_) us ([], [], r, s)
  simp

@[simp] theorem State.fetchDesc_fuses (s : State) (c : Nat) (q : PCmd) (ecc : Ecc) :
    (s.fetchDesc c q ecc).2.2.fuses = s.fuses := by
  simp only [State.fetchDesc]
  split <;> simp

@[simp] theorem State.drainStaging_fuses (s : State) (c : Nat) (r : RunCmd) : (s.drainStaging c r).2.fuses = s.fuses := by
  simp [State.drainStaging]

@[simp] theorem State.drainTensor_fuses (s : State) (c : Nat) (r : RunCmd) (desc : Ecc) :
    (s.drainTensor c r desc).2.fuses = s.fuses := by
  simp [State.drainTensor]

@[simp] theorem State.drainRemote_fuses (s : State) (c key code : Nat) : (s.drainRemote c key code).fuses = s.fuses := by
  unfold State.drainRemote
  dsimp only
  repeat' split
  all_goals simp

@[simp] theorem State.countUp_fuses (s : State) (c k : Nat) : (s.countUp c k).fuses = s.fuses := by
  unfold State.countUp
  dsimp only
  split
  · rfl
  · rw [foldl_fuses]
    · simp
    · intro u n
      split <;> simp

@[simp] theorem State.flagDrain_fuses (s : State) (c : Nat) (r : RunCmd) : (s.flagDrain c r).fuses = s.fuses := by
  simp [State.flagDrain]

@[simp] theorem State.sampleTiles_fuses (s : State) (c : Nat) (r : RunCmd) : (s.sampleTiles c r).fuses = s.fuses := by
  unfold State.sampleTiles
  split <;> simp

@[simp] theorem State.drainDone_fuses (s : State) (c : Nat) (r : RunCmd) : (s.drainDone c r).fuses = s.fuses := by
  simp [State.drainDone]

@[simp] theorem State.drainTally_fuses (s : State) (c : Nat) (r : RunCmd) : (s.drainTally c r).2.fuses = s.fuses := by
  unfold State.drainTally
  dsimp only
  split
  · rfl
  · split <;> simp

@[simp] theorem State.asyncFault_fuses (s : State) (c : Nat) (r : RunCmd) : (s.asyncFault c r).fuses = s.fuses := by
  unfold State.asyncFault
  split <;> simp

@[simp] theorem State.panelReset_fuses (s : State) (c : Nat) : (s.panelReset c).fuses = s.fuses := by simp [State.panelReset]

/-! ## Spline links (spec/15) -/

@[simp] theorem State.resolve_fuses (s : State) (key code : Nat) (data : List Byte) :
    (s.resolve key code data).fuses = s.fuses := by
  unfold State.resolve
  dsimp only
  repeat' split
  all_goals simp

@[simp] theorem State.discardMsg_fuses (s : State) : s.discardMsg.fuses = s.fuses := by simp [State.discardMsg]

@[simp] theorem State.leave_fuses (s : State) (die : Nat) (own : Option Nat) (kind : Nat) (m : Msg) :
    (s.leave die own kind m).2.fuses = s.fuses := by
  unfold State.leave
  split
  · rfl
  · next h => simp [State.choose_fuses h]

@[simp] theorem State.respond_fuses (s : State) (die code : Nat) (data : List Byte) (m : Msg) :
    (s.respond die code data m).fuses = s.fuses := by
  unfold State.respond
  dsimp only
  split <;> next h => simp [snd_fuses h]

@[simp] theorem State.failRequest_fuses (s : State) (die code : Nat) (m : Msg) : (s.failRequest die code m).fuses = s.fuses := by
  unfold State.failRequest
  simp
  split <;> simp

@[simp] theorem State.forward_fuses (s : State) (die kind : Nat) (m : Msg) : (s.forward die kind m).fuses = s.fuses := by
  unfold State.forward
  dsimp only
  split
  · simp
  · split <;> next h => simp [snd_fuses h]

@[simp] theorem State.lostMessage_fuses (s : State) (die code kind : Nat) (m : Msg) :
    (s.lostMessage die code kind m).fuses = s.fuses := by
  unfold State.lostMessage
  dsimp only
  split
  · split <;> next h => simp [snd_fuses h]
  · simp

@[simp] theorem State.peerLost_fuses (s : State) (n : Nat) : (s.peerLost n).fuses = s.fuses := by
  simp -implicitDefEqProofs [State.peerLost]

@[simp] theorem State.linkDown_fuses (s : State) (n : Nat) (st : LinkState) : (s.linkDown n st).fuses = s.fuses := by
  simp -implicitDefEqProofs [State.linkDown]

@[simp] theorem State.trainFail_fuses (s : State) (n failed : Nat) : (s.trainFail n failed).fuses = s.fuses := by
  simp [State.trainFail]

@[simp] theorem State.sendInit_fuses (s : State) (n : Nat) : (s.sendInit n).fuses = s.fuses := by simp [State.sendInit]

@[simp] theorem State.resend_fuses (s : State) (n : Nat) : (s.resend n).fuses = s.fuses := by
  simp -implicitDefEqProofs [State.resend]

@[simp] theorem State.fecCount_fuses (s : State) (n : Nat) (bad : Bool) : (s.fecCount n bad).fuses = s.fuses := by
  simp -implicitDefEqProofs [State.fecCount]

@[simp] theorem State.commitAcked_fuses (s : State) (p : Nat) : (s.commitAcked p).fuses = s.fuses := by simp [State.commitAcked]

@[simp] theorem State.ackFlits_fuses (s : State) (n ack : Nat) : (s.ackFlits n ack).fuses = s.fuses := by
  unfold State.ackFlits
  dsimp only
  split
  · rfl
  · rw [foldl_fuses]
    · simp
    · intro u e
      split <;> simp

@[simp] theorem State.creditBack_fuses (s : State) (n vc count : Nat) : (s.creditBack n vc count).fuses = s.fuses := by
  simp [State.creditBack]

@[simp] theorem State.flitHeader_fuses (s : State) (n ack vc count : Nat) : (s.flitHeader n ack vc count).fuses = s.fuses := by
  simp [State.flitHeader]

@[simp] theorem State.resendMore_fuses (s : State) (n : Nat) : (s.resendMore n).fuses = s.fuses := by
  simp -implicitDefEqProofs [State.resendMore]

@[simp] theorem State.linkEnable_fuses (s : State) (n : Nat) : (s.linkEnable n).fuses = s.fuses := by
  simp -implicitDefEqProofs [State.linkEnable]

@[simp] theorem State.splineUrge_fuses (s : State) (n vc : Nat) : (s.splineUrge n vc).fuses = s.fuses := by
  simp [State.splineUrge]

@[simp] theorem State.received_fuses (s : State) (n kind : Nat) (body : Msg → State → State)
    (h : ∀ m u, (body m u).fuses = u.fuses) : (s.received n kind body).fuses = s.fuses := by
  simp only [State.received]
  split <;> simp -implicitDefEqProofs [h]

@[simp] theorem State.requestHere_fuses (s : State) (die kind a : Nat) (m : Msg) :
    (s.requestHere die kind a m).2.2.fuses = s.fuses := by
  unfold State.requestHere
  split <;> simp

@[simp] theorem State.request_fuses (s : State) (n kind : Nat) (m : Msg) : (s.request n kind m).fuses = s.fuses := by
  simp [State.request]

@[simp] theorem State.markHere_fuses (s : State) (n : Nat) (m : Msg) : (s.markHere n m).fuses = s.fuses := by
  simp [State.markHere]

@[simp] theorem State.sendMarks_fuses (s : State) (p : Nat) : (s.sendMarks p).fuses = s.fuses := by
  unfold State.sendMarks
  dsimp only
  rw [foldl_fuses]
  intro u j
  split
  · rfl
  · split <;> next h => simp [snd_fuses h]

@[simp] theorem State.dropRequests_fuses (s : State) (p : Nat) : (s.dropRequests p).fuses = s.fuses := by
  simp [State.dropRequests]

@[simp] theorem State.dropQueued_fuses (s : State) (p : Nat) : (s.dropQueued p).fuses = s.fuses := by
  simp -implicitDefEqProofs [State.dropQueued]

@[simp] theorem State.moveRequests_fuses (s : State) (p : Nat) : (s.moveRequests p).fuses = s.fuses := by
  simp [State.moveRequests]

/-! ## What resets leave (spec/21) -/

@[simp] theorem State.limitUpdate_fuses (s : State) : s.limitUpdate.fuses = s.fuses := by simp [State.limitUpdate]

@[simp] theorem State.moduleReset_fuses (s : State) (cause : Nat) : (s.moduleReset cause).fuses = s.fuses := by
  simp [State.moduleReset]

@[simp] theorem State.dropTaken_fuses (s : State) (c : Nat) (p : Option Nat) : (s.dropTaken c p).fuses = s.fuses := by
  unfold State.dropTaken
  split <;> simp

@[simp] theorem State.coreWipe_fuses (s : State) (c : Nat) : (s.coreWipe c).fuses = s.fuses := by simp [State.coreWipe]
@[simp] theorem State.coreClear_fuses (s : State) (c : Nat) : (s.coreClear c).fuses = s.fuses := by simp [State.coreClear]

@[simp] theorem State.coreBlockSet_fuses (s : State) (c : Nat) (b : CoreBlock) : (s.coreBlockSet c b).fuses = s.fuses := by
  simp [State.coreBlockSet]

@[simp] theorem State.coresMove_fuses (s : State) (moves : List (Nat × Nat × Nat)) : (s.coresMove moves).fuses = s.fuses := by
  simp [State.coresMove]

@[simp] theorem State.dropBasting_fuses (s : State) : s.dropBasting.fuses = s.fuses := by simp [State.dropBasting]

@[simp] theorem State.unpickWith_fuses (s : State) (code detail op : Nat) (who : Option Func) :
    (s.unpickWith code detail op who).fuses = s.fuses := by
  simp [State.unpickWith]

@[simp] theorem State.abandonStep_fuses (s : State) (p : Nat) : (s.abandonStep p).fuses = s.fuses := by simp [State.abandonStep]

@[simp] theorem State.pinDrop_fuses (s : State) (p : Nat) : (s.pinDrop p).fuses = s.fuses := by
  unfold State.pinDrop
  split <;> simp

@[simp] theorem State.hostFail_fuses (s : State) (p : Nat) : (s.hostFail p).fuses = s.fuses := by
  unfold State.hostFail
  rw [foldl_fuses]
  intro u e
  split <;> simp

@[simp] theorem State.failQueued_fuses (s : State) (p : Nat) : (s.failQueued p).fuses = s.fuses := by
  simp -implicitDefEqProofs [State.failQueued]

@[simp] theorem State.clearOwned_fuses (s : State) (p : Nat) : (s.clearOwned p).fuses = s.fuses := by simp [State.clearOwned]
@[simp] theorem State.partReset_fuses (s : State) (p : Nat) : (s.partReset p).fuses = s.fuses := by simp [State.partReset]
@[simp] theorem State.scrubPart_fuses (s : State) (p : Nat) : (s.scrubPart p).fuses = s.fuses := by simp [State.scrubPart]

@[simp] theorem State.turnoverDone_fuses (s : State) (ps : List Nat) : (s.turnoverDone ps).fuses = s.fuses := by
  simp -implicitDefEqProofs [State.turnoverDone]

@[simp] theorem State.rekey_fuses (s : State) (gone : List Nat) : (s.rekey gone).fuses = s.fuses := by simp [State.rekey]

/-! ## Power delivery (spec/17) -/

@[simp] theorem State.supplyRec_fuses (s : State) (cause a b : Nat) (part : Option Nat) :
    (s.supplyRec cause a b part).fuses = s.fuses := by
  simp [State.supplyRec]

@[simp] theorem State.pwrEvt_fuses (s : State) (i : Nat) : (s.pwrEvt i).fuses = s.fuses := by simp [State.pwrEvt]
@[simp] theorem State.inputLost_fuses (s : State) (cause : Nat) : (s.inputLost cause).fuses = s.fuses := by simp [State.inputLost]
@[simp] theorem State.powerAsk_fuses (s : State) (p : Nat) : (s.powerAsk p).fuses = s.fuses := by simp [State.powerAsk]

@[simp] theorem State.powerDown_fuses (s : State) (p : Nat) (st : DomainState) : (s.powerDown p st).fuses = s.fuses := by
  simp [State.powerDown]

@[simp] theorem State.measureUp_fuses (s : State) (p : Nat) : (s.measureUp p).fuses = s.fuses := by
  unfold State.measureUp
  split <;> simp

@[simp] theorem State.trim_fuses (s : State) (down : Bool) (n : Nat) : (s.trim down n).fuses = s.fuses := by
  induction n generalizing s with
  | zero => rfl
  | succ n ih =>
    rw [State.trim]
    split
    · rfl
    · simp [ih]

@[simp] theorem State.trimStatus_fuses (s : State) : s.trimStatus.fuses = s.fuses := by simp [State.trimStatus]
@[simp] theorem State.stageRetires_fuses (s : State) : s.stageRetires.fuses = s.fuses := by simp [State.stageRetires]

@[simp] theorem State.fenceCore_fuses (s : State) (p : Nat) (aged : Bool) : (s.fenceCore p aged).fuses = s.fuses := by
  unfold State.fenceCore
  dsimp only
  repeat' split
  all_goals simp

@[simp] theorem State.powerBoundary_fuses (s : State) : s.powerBoundary.fuses = s.fuses := by
  simp -implicitDefEqProofs [State.powerBoundary]

@[simp] theorem State.dipRec_fuses (s : State) (rail tick : Nat) : (s.dipRec rail tick).fuses = s.fuses := by simp [State.dipRec]

/-! ## Basting (spec/02) -/

@[simp] theorem State.refuse_fuses (s : State) (detail op : Nat) (f : Option Func) : (s.refuse detail op f).fuses = s.fuses := by
  simp [State.refuse]

@[simp] theorem State.escResult_fuses (s : State) (detail : Nat) : (s.escResult detail).fuses = s.fuses := by
  simp -implicitDefEqProofs [State.escResult]

@[simp] theorem State.loadToken_fuses (s : State) (t : TokenIn) : (s.loadToken t).fuses = s.fuses := by simp [State.loadToken]
@[simp] theorem State.loadRead_fuses (s : State) (ecc : Ecc) : (s.loadRead ecc).2.2.fuses = s.fuses := by simp [State.loadRead]

@[simp] theorem State.loadTake_fuses (s : State) (code : Nat) (bs : List Byte) : (s.loadTake code bs).fuses = s.fuses := by
  unfold State.loadTake
  dsimp only
  repeat' split
  all_goals simp

/-! ## The redundant pair (spec/21) -/

@[simp] theorem State.pairEvt_fuses (s : State) (i : Nat) : (s.pairEvt i).fuses = s.fuses := by simp [State.pairEvt]
@[simp] theorem State.endMirroring_fuses (s : State) : s.endMirroring.fuses = s.fuses := by simp [State.endMirroring]
@[simp] theorem State.setRole_fuses (s : State) (r : Role) : (s.setRole r).fuses = s.fuses := by simp [State.setRole]
@[simp] theorem State.goStale_fuses (s : State) : s.goStale.fuses = s.fuses := by simp [State.goStale]

@[simp] theorem State.mirrorPost_fuses (s : State) (kind p a : Nat) (bs : List Byte) :
    (s.mirrorPost kind p a bs).fuses = s.fuses := by
  unfold State.mirrorPost
  split
  · rfl
  · next h => simp [State.choose_fuses h]

@[simp] theorem State.sendBeats_fuses (s : State) : s.sendBeats.fuses = s.fuses := by simp [State.sendBeats]

@[simp] theorem State.mirrorIn_fuses (s : State) (n kind : Nat) (body : Msg → State → State)
    (h : ∀ m u, (body m u).fuses = u.fuses) : (s.mirrorIn n kind body).fuses = s.fuses := by
  conv in State.mirrorIn => delta State.mirrorIn
  extract_lets v
  have hv : v.fuses = s.fuses := State.urge_fuses ..
  split
  · exact hv
  · split
    · exact hv
    · refine (State.together_fuses _ _ fun u => ?_).trans hv
      conv => lhs; arg 1; zeta
      simp -implicitDefEqProofs [h]

@[simp] theorem State.mirrorRange_fuses (x : State × List Byte) (kind p a : Nat) (bs : List Byte) :
    (State.mirrorRange x kind p a bs).1.fuses = x.1.fuses := by
  simp [State.mirrorRange]

@[simp] theorem State.deltaErr_fuses (s : State) (p code a : Nat) : (s.deltaErr p code a).fuses = s.fuses := by
  simp [State.deltaErr]

@[simp] theorem State.deltaEntry_fuses (x : State × List Byte) (p e : Nat) : (State.deltaEntry x p e).1.fuses = x.1.fuses := by
  unfold State.deltaEntry
  dsimp only
  repeat' split
  all_goals simp

@[simp] theorem State.mirrorDelta_fuses (s : State) (n : Nat) : (s.mirrorDelta n).fuses = s.fuses := by simp [State.mirrorDelta]

@[simp] theorem State.bufWrite_fuses (s : State) (ps : List (Nat × Nat)) (bs : List Byte) :
    (s.bufWrite ps bs).2.fuses = s.fuses := by
  unfold State.bufWrite
  refine foldl_keeps (fun x : (Nat × State) × List Byte => x.1.2.fuses) _ (fun x q => ?_) ps ((0, s), bs)
  simp

@[simp] theorem State.bufRead_fuses (s : State) (ps : List (Nat × Nat)) : (s.bufRead ps).2.2.fuses = s.fuses := by
  simp [State.bufRead]

@[simp] theorem State.mirrorKeep_fuses (s : State) (sheet : Bool) (m : Msg) : (s.mirrorKeep sheet m).fuses = s.fuses := by
  simp [State.mirrorKeep]

@[simp] theorem State.deltaRead_fuses (s : State) (b : List MirRange) : (s.deltaRead b).2.2.fuses = s.fuses := by
  simp [State.deltaRead]

@[simp] theorem State.applyRange_fuses (x : Bool × State) (p : Nat) (r : MirRange × List Byte) :
    (State.applyRange x p r).2.fuses = x.2.fuses := by
  simp [State.applyRange]

@[simp] theorem State.pairBoundary_fuses (s : State) : s.pairBoundary.2.fuses = s.fuses := by
  unfold State.pairBoundary
  dsimp only
  repeat' split
  all_goals simp

/-! ## The escutcheon (spec/20) -/

@[simp] theorem State.escTake_fuses (s : State) (f : Func) (body : State → State) (h : ∀ u, (body u).fuses = u.fuses) :
    (s.escTake f body).fuses = s.fuses := by
  simp [State.escTake, h]

@[simp] theorem State.fullUnlock_fuses (s : State) : s.fullUnlock.fuses = s.fuses := by simp [State.fullUnlock]

@[simp] theorem State.applyUnlock_fuses (s : State) : s.applyUnlock.fuses = s.fuses := by
  unfold State.applyUnlock
  split <;> simp

@[simp] theorem State.applyRelock_fuses (s : State) : s.applyRelock.fuses = s.fuses := by simp [State.applyRelock]
@[simp] theorem State.tokUsed_fuses (s : State) (seq : Nat) : (s.tokUsed seq).fuses = s.fuses := by simp [State.tokUsed]
@[simp] theorem State.debugToken_fuses (s : State) (t : TokenIn) : (s.debugToken t).fuses = s.fuses := by simp [State.debugToken]

@[simp] theorem State.escRead_fuses (s : State) (addr len : Nat) (ecc : Ecc) : (s.escRead addr len ecc).2.fuses = s.fuses := by
  simp [State.escRead]

/-! ## Thermal monitors and alterations (spec/18) -/

@[simp] theorem State.thermRec_fuses (s : State) (cause a b : Nat) (part : Option Nat) :
    (s.thermRec cause a b part).fuses = s.fuses := by
  simp [State.thermRec]

@[simp] theorem State.thmEvt_fuses (s : State) (i : Nat) : (s.thmEvt i).fuses = s.fuses := by simp [State.thmEvt]

@[simp] theorem State.judgeSensor_fuses (s : State) (d i : Nat) : (s.judgeSensor d i).fuses = s.fuses := by
  simp [State.judgeSensor]

@[simp] theorem State.judgeMiddle_fuses (s : State) (d : Nat) (est : Int) : (s.judgeMiddle d est).fuses = s.fuses := by
  simp [State.judgeMiddle]

@[simp] theorem State.shutDown_fuses (s : State) (d : Nat) : (s.shutDown d).fuses = s.fuses := by simp [State.shutDown]

@[simp] theorem State.judgeDie_fuses (s : State) (d : Nat) : (s.judgeDie d).fuses = s.fuses := by
  unfold State.judgeDie
  dsimp only
  repeat' split
  all_goals simp

@[simp] theorem State.altNext_fuses (s : State) (a : Alteration) (rest : List Nat) (retry : List Nat) :
    (s.altNext a rest retry).fuses = s.fuses := by
  unfold State.altNext
  split <;> simp

@[simp] theorem State.altPoll_fuses (s : State) (n : Nat) : (s.altPoll n).fuses = s.fuses := by
  induction n generalizing s with
  | zero => rfl
  | succ n ih =>
    rw [State.altPoll]
    split
    · rfl
    · split <;> simp [ih]

@[simp] theorem State.altGo_fuses (s : State) : s.altGo.fuses = s.fuses := by
  unfold State.altGo
  split <;> simp

@[simp] theorem State.altStart_fuses (s : State) (cores : List Nat) : (s.altStart cores).fuses = s.fuses := by
  simp [State.altStart]

@[simp] theorem State.altCmd_fuses (s : State) (f : Func) (cores : List Nat) : (s.altCmd f cores).fuses = s.fuses := by
  simp [State.altCmd]

@[simp] theorem State.markRetire_fuses (s : State) (p ceil : Nat) : (s.markRetire p ceil).fuses = s.fuses := by
  simp [State.markRetire]

@[simp] theorem State.planSet_fuses (s : State) (p : Nat) (x : Plan) : (s.planSet p x).fuses = s.fuses := by simp [State.planSet]

@[simp] theorem State.altOff_fuses (s : State) (a : Alteration) (p : Nat) : (s.altOff a p).fuses = s.fuses := by
  simp [State.altOff]

@[simp] theorem State.pinLevel_fuses (s : State) (x : Nat) (high : Bool) : (s.pinLevel x high).fuses = s.fuses := by
  simp [State.pinLevel]

/-! ## Base boundaries, steps and the commit (spec/03) -/

@[simp] theorem State.beginTick_fuses (s : State) : s.beginTick.fuses = s.fuses := by simp [State.beginTick]

@[simp] theorem State.edgeAccepted_fuses (s : State) (arrival : Int) : (s.edgeAccepted arrival).fuses = s.fuses := by
  simp [State.edgeAccepted]

@[simp] theorem State.admitFrom_fuses (s : State) (p tail : Nat) (n : Nat) (m : Nat) :
    (s.admitFrom p tail n m).2.fuses = s.fuses := by
  induction n generalizing s m with
  | zero => rfl
  | succ n ih => simp [State.admitFrom, ih]

@[simp] theorem State.setLag_fuses (s : State) (p : Nat) (ages : List Nat) : (s.setLag p ages).fuses = s.fuses := by
  simp [State.setLag]

@[simp] theorem State.admission_fuses (s : State) (p tail : Nat) : (s.admission p tail).fuses = s.fuses := by
  simp [State.admission]

@[simp] theorem State.startSupervisors_fuses (s : State) (p : Nat) : (s.startSupervisors p).fuses = s.fuses := by
  simp [State.startSupervisors]

@[simp] theorem State.maintenance_fuses (s : State) (p : Nat) : (s.maintenance p).fuses = s.fuses := by
  unfold State.maintenance
  dsimp only
  repeat' split
  all_goals simp

@[simp] theorem State.beginStep_fuses (s : State) (p : Nat) (commit : Bool) : (s.beginStep p commit).fuses = s.fuses := by
  simp -implicitDefEqProofs [State.beginStep]

@[simp] theorem State.skipStep_fuses (s : State) (p : Nat) : (s.skipStep p).fuses = s.fuses := by simp [State.skipStep]
@[simp] theorem State.stopPart_fuses (s : State) (p : Nat) : (s.stopPart p).fuses = s.fuses := by simp [State.stopPart]

@[simp] theorem State.substitute_fuses (s : State) (p c old new : Nat) : (s.substitute p c old new).fuses = s.fuses := by
  simp [State.substitute]

@[simp] theorem State.serveFences_fuses (s : State) (p : Nat) (fenced : List Nat) : (s.serveFences p fenced).fuses = s.fuses := by
  unfold State.serveFences
  rw [foldl_fuses]
  intro u c
  dsimp only
  split
  · rfl
  · split <;> simp

@[simp] theorem State.ownStep_fuses (s : State) (fenced : List Nat) (p : Nat) : (s.ownStep fenced p).fuses = s.fuses := by
  simp [State.ownStep]

@[simp] theorem State.holdStage_fuses (s : State) : s.holdStage.fuses = s.fuses := by
  unfold State.holdStage
  split <;> simp

@[simp] theorem State.sampleTails_fuses (s : State) : s.sampleTails.fuses = s.fuses := by simp [State.sampleTails]

@[simp] theorem State.commitOut_fuses (s : State) (old new : Pat) : (s.commitOut old new).fuses = s.fuses := by
  simp [State.commitOut]

@[simp] theorem State.mapOut_fuses (s : State) (t : Pat) : (s.mapOut t).fuses = s.fuses := by simp [State.mapOut]

@[simp] theorem State.commitMemory_fuses (s : State) (old new : Pat) : (s.commitMemory old new).fuses = s.fuses := by
  simp only [State.commitMemory]
  split <;> simp

@[simp] theorem State.commitUnits_fuses (s : State) (old new : Pat) : (s.commitUnits old new).fuses = s.fuses := by
  simp only [State.commitUnits]
  rw [ite_fuses, State.regRestart_fuses, ite_self, foldl_fuses, foldl_fuses, foldl_fuses, State.coresMove_fuses]
  · intro u c
    cases old.coreOwner c <;> simp
  · simp
  · simp

@[simp] theorem State.giveUp_fuses (s : State) (p : Nat) : (s.giveUp p).fuses = s.fuses := by simp [State.giveUp]

@[simp] theorem State.commitPower_fuses (s : State) (old new : Pat) : (s.commitPower old new).fuses = s.fuses := by
  unfold State.commitPower
  dsimp only
  repeat' split
  all_goals simp

@[simp] theorem State.commitTick_fuses (s : State) (old new : Pat) : (s.commitTick old new).fuses = s.fuses := by
  simp [State.commitTick]

@[simp] theorem State.commitParts_fuses (s : State) (aff : List Nat) : (s.commitParts aff).fuses = s.fuses := by
  simp [State.commitParts]

@[simp] theorem State.commitBook_fuses (s : State) (old new : Pat) (aff : List Nat) :
    (s.commitBook old new aff).fuses = s.fuses := by
  unfold State.commitBook
  split <;> simp

@[simp] theorem State.firstSteps_fuses (s : State) (aff : List Nat) : (s.firstSteps aff).fuses = s.fuses := by
  simp [State.firstSteps]

@[simp] theorem State.doCommit_fuses (s : State) : s.doCommit.fuses = s.fuses := by
  unfold State.doCommit
  split <;> simp

@[simp] theorem State.firstBoundary_fuses (s : State) : s.firstBoundary.fuses = s.fuses := by simp [State.firstBoundary]
@[simp] theorem State.boundary_fuses (s : State) : s.boundary.fuses = s.fuses := by simp [State.boundary]

/-! ## Bring-up and resets (spec/21) -/

@[simp] theorem State.brupRefused_fuses (s : State) : s.brupRefused.fuses = s.fuses := by
  simp -implicitDefEqProofs [State.brupRefused]

@[simp] theorem State.brupEvt_fuses (s : State) (i : Nat) : (s.brupEvt i).fuses = s.fuses := by simp [State.brupEvt]

@[simp] theorem State.brupGo_fuses (s : State) (f : Func) (n : Nat) (body : State → State) (h : ∀ u, (body u).fuses = u.fuses) :
    (s.brupGo f n body).fuses = s.fuses := by
  simp [State.brupGo, h]

@[simp] theorem State.stepEnd_fuses (s : State) (detail : Nat) : (s.stepEnd detail).fuses = s.fuses := by simp [State.stepEnd]
@[simp] theorem State.mapOutNow_fuses (s : State) (n : Nat) : (s.mapOutNow n).fuses = s.fuses := by simp [State.mapOutNow]
@[simp] theorem State.applyVeneer_fuses (s : State) : s.applyVeneer.fuses = s.fuses := by simp [State.applyVeneer]
@[simp] theorem State.escHalt_fuses (s : State) (code : Nat) : (s.escHalt code).fuses = s.fuses := by simp [State.escHalt]

@[simp] theorem State.dowelDone_fuses (s : State) (bad : List Nat) : (s.dowelDone bad).fuses = s.fuses := by
  simp -implicitDefEqProofs [State.dowelDone]

@[simp] theorem State.hbmDone_fuses (s : State) (bad : List Nat) : (s.hbmDone bad).fuses = s.fuses := by simp [State.hbmDone]
@[simp] theorem State.katCore_fuses (s : State) (p : Nat) : (s.katCore p).fuses = s.fuses := by simp [State.katCore]

@[simp] theorem State.katUnit_fuses (s : State) (id : Nat) : (s.katUnit id).fuses = s.fuses := by
  simp -implicitDefEqProofs [State.katUnit]

@[simp] theorem State.katSlice_fuses (s : State) (k : Nat) : (s.katSlice k).fuses = s.fuses := by
  simp only [State.katSlice]
  split <;> simp

@[simp] theorem State.katFail_fuses (s : State) (x : Nat) : (s.katFail x).fuses = s.fuses := by simp [State.katFail]
@[simp] theorem State.katDone_fuses (s : State) (bad : List Nat) : (s.katDone bad).fuses = s.fuses := by simp [State.katDone]

@[simp] theorem State.resetCores_fuses (s : State) (cores : List Nat) (up : Bool) : (s.resetCores cores up).fuses = s.fuses := by
  unfold State.resetCores
  rw [foldl_fuses]
  intro u p
  dsimp only
  cases u.logicalOf p <;> simp

@[simp] theorem State.stackPhase_fuses (s : State) (n : Nat) : (s.stackPhase n).fuses = s.fuses := by simp [State.stackPhase]

@[simp] theorem State.stackReset_fuses (s : State) (f : Func) (k : Nat) (drain : Bool) :
    (s.stackReset f k drain).fuses = s.fuses := by
  simp -implicitDefEqProofs [State.stackReset]

@[simp] theorem State.accPathFail_fuses (s : State) (k : Nat) : (s.accPathFail k).fuses = s.fuses := by
  simp -implicitDefEqProofs [State.accPathFail]

@[simp] theorem State.groupPathFail_fuses (s : State) (k gx : Nat) (n : Nat) : (s.groupPathFail k gx n).fuses = s.fuses := by
  induction n generalizing s with
  | zero => rfl
  | succ i ih =>
    rw [State.groupPathFail]
    dsimp only
    rw [ih]
    split <;> simp

@[simp] theorem State.movesPathFail_fuses (s : State) (k ch : Nat) (n : Nat) : (s.movesPathFail k ch n).fuses = s.fuses := by
  induction n generalizing s with
  | zero => rfl
  | succ i ih =>
    rw [State.movesPathFail, ih]
    split
    · rfl
    · split <;> simp

@[simp] theorem State.jigPathFail_fuses (s : State) (k ch : Nat) : (s.jigPathFail k ch).fuses = s.fuses := by
  simp [State.jigPathFail]

@[simp] theorem State.hostCut_fuses (s : State) (k port : Nat) (q : HostOp) : (s.hostCut k port q).2.fuses = s.fuses := by
  simp [State.hostCut]

@[simp] theorem State.hostPathFail_fuses (s : State) (k port : Nat) : (s.hostPathFail k port).fuses = s.fuses := by
  simp [State.hostPathFail]

@[simp] theorem State.drainPathFail_fuses (s : State) (k c : Nat) : (s.drainPathFail k c).fuses = s.fuses := by
  unfold State.drainPathFail
  rw [foldl_fuses]
  intro u i
  split <;> simp

@[simp] theorem State.outPathFail_fuses (s : State) (k : Nat) : (s.outPathFail k).fuses = s.fuses := by simp [State.outPathFail]

@[simp] theorem State.splinePathFail_fuses (s : State) (k n : Nat) : (s.splinePathFail k n).fuses = s.fuses := by
  unfold State.splinePathFail
  simp
  (repeat' split) <;> simp

@[simp] theorem State.pathReset_fuses (s : State) (k : Nat) : (s.pathReset k).fuses = s.fuses := by
  simp -implicitDefEqProofs [State.pathReset]

@[simp] theorem State.stackClear_fuses (s : State) (k : Nat) : (s.stackClear k).fuses = s.fuses := by simp [State.stackClear]
@[simp] theorem State.outSet_fuses (s : State) (k : Nat) (out : Bool) : (s.outSet k out).fuses = s.fuses := by simp [State.outSet]
@[simp] theorem State.rejoin_fuses (s : State) (k : Nat) : (s.rejoin k).fuses = s.fuses := by simp [State.rejoin]

@[simp] theorem State.stackTrain_fuses (s : State) (k : Nat) (lanes : List Nat) : (s.stackTrain k lanes).fuses = s.fuses := by
  simp -implicitDefEqProofs [State.stackTrain]

@[simp] theorem State.stackRestore_fuses (s : State) (k : Nat) (lanes bad : List Nat) :
    (s.stackRestore k lanes bad).fuses = s.fuses := by
  simp [State.stackRestore]

/-! ## Park actions (spec/08) -/

@[simp] theorem State.parkAct_fuses (s : State) (gx action : Nat) : (s.parkAct gx action).2.fuses = s.fuses := by
  unfold State.parkAct
  split <;> simp

@[simp] theorem State.hostPark_fuses (s : State) (f : Func) (g : GroupId) (action : Nat) :
    (s.hostPark f g action).fuses = s.fuses := by
  simp [State.hostPark]

@[simp] theorem State.pregWrite_fuses (s : State) (c sel : Nat) (v : Word) : (s.pregWrite c sel v).fuses = s.fuses := by
  simp [State.pregWrite]

@[simp] theorem State.supervisor_fuses (s : State) (gx : Nat) (body : State → State) (h : ∀ u, (body u).fuses = u.fuses) :
    (s.supervisor gx body).fuses = s.fuses := by
  simp [State.supervisor, h]

@[simp] theorem State.writeAll_fuses (s : State) (gx d : Nat) (v : Word) : (s.writeAll gx d v).fuses = s.fuses := by
  simp [State.writeAll]

/-! ## The tick bus (spec/16) -/

@[simp] theorem State.busAnswer_fuses (s : State) (rsp : Bool) : (s.busAnswer rsp).fuses = s.fuses := by simp [State.busAnswer]
@[simp] theorem State.busEvt_fuses (s : State) (i : Nat) : (s.busEvt i).fuses = s.fuses := by simp [State.busEvt]

@[simp] theorem State.cycle_fuses (s : State) (parityOk : Bool) (rsp : Bool) (body : State → State)
    (h : ∀ u, (body u).fuses = u.fuses) : (s.cycle parityOk rsp body).fuses = s.fuses := by
  simp [State.cycle, h]

/-! ## BAR0 (spec/00, spec/16) -/

@[simp] theorem State.msixWrite_fuses (s : State) (q e w : Nat) (v : Word) : (s.msixWrite q e w v).fuses = s.fuses := by
  simp [State.msixWrite]

@[simp] theorem State.readWord_fuses (s : State) (r : Req) (o width : Nat) : (s.readWord r o width).fuses = s.fuses := by
  unfold State.readWord
  dsimp only
  repeat' split
  all_goals simp

@[simp] theorem State.wordSet_fuses (s : State) (key : Nat) (rw w1c : Word) (v : Word) (same : Bool) :
    (s.wordSet key rw w1c v same).fuses = s.fuses := by
  simp [State.wordSet]

@[simp] theorem State.appartSet_fuses (s : State) (r : Req) (v : Word) : (s.appartSet r v).fuses = s.fuses := by
  unfold State.appartSet
  split <;> simp

@[simp] theorem State.stepWrite_fuses (s : State) (r : Req) (v : Word) : (s.stepWrite r v).fuses = s.fuses := by
  unfold State.stepWrite
  split <;> simp -implicitDefEqProofs

@[simp] theorem State.narrowWrite_fuses (s : State) (r : Req) (row : RegRow) (o : Nat) (v : Word) (same : Bool) :
    (s.narrowWrite r row o v same).fuses = s.fuses := by
  simp [State.narrowWrite]

@[simp] theorem State.wideWrite_fuses (s : State) (r : Req) (row : RegRow) (o : Nat) (low : Option Word) (v : Word) :
    (s.wideWrite r row o low v).fuses = s.fuses := by
  unfold State.wideWrite
  dsimp only
  repeat' split
  all_goals simp

@[simp] theorem State.writeWord_fuses (s : State) (r : Req) (o : Nat) (v : Word) (same : Bool) :
    (s.writeWord r o v same).fuses = s.fuses := by
  unfold State.writeWord
  dsimp only
  repeat' split
  all_goals simp

/-! ## Management and attestation (spec/16, spec/20) -/

@[simp] theorem State.alertOver_fuses (s : State) : s.alertOver.fuses = s.fuses := by simp [State.alertOver]

@[simp] theorem State.spdmSet_fuses (s : State) (t : Transport) (x : Spdm) : (s.spdmSet t x).fuses = s.fuses := by
  simp [State.spdmSet]

@[simp] theorem State.spdmSend_fuses (s : State) (t : Transport) (m : List Byte) : (s.spdmSend t m).fuses = s.fuses := by
  simp [State.spdmSend]

@[simp] theorem State.spdmError_fuses (s : State) (t : Transport) (err : Nat) : (s.spdmError t err).fuses = s.fuses := by
  simp [State.spdmError]

@[simp] theorem State.spdmTake_fuses (s : State) (t : Transport) (stage : Nat) (body : State → State)
    (h : ∀ u, (body u).fuses = u.fuses) : (s.spdmTake t stage body).fuses = s.fuses := by
  simp [State.spdmTake, h]

@[simp] theorem State.spdmAnswer_fuses (s : State) (t : Transport) (part : SpdmPart) (req resp : List Byte) :
    (s.spdmAnswer t part req resp).fuses = s.fuses := by
  simp [State.spdmAnswer]

@[simp] theorem State.spdmSigned_fuses (s : State) (t : Transport) (part : SpdmPart) (req resp : List Byte) :
    (s.spdmSigned t part req resp).fuses = s.fuses := by
  simp [State.spdmSigned]

@[simp] theorem State.spdmStage_fuses (s : State) (t : Transport) (stage : Nat) : (s.spdmStage t stage).fuses = s.fuses := by
  simp [State.spdmStage]

/-! ## What is burnt -/

/-- The fuses but for what burning changes: the version floor, the masks of the key slots and the hashes of their keys. -/
def Fuses.fixed (x : Fuses) : Fuses := { x with svn := 0, enrolled := [], revoked := [], hashes := [] }

/-- `y` is `x` with at most more fuses burnt (R7, R441). -/
structure Fuses.BurnsTo (x y : Fuses) : Prop where
  fixed : y.fixed = x.fixed
  burnt : x.le y

@[simp] theorem Fuses.BurnsTo.refl (x : Fuses) : x.BurnsTo x := ⟨rfl, le_rfl, fun _ _ => ⟨id, id⟩⟩

/-- Setting bits of one entry of a map of masks clears no bit of any entry. -/
theorem bitOf_mset_lor (m : List (Nat × Nat)) (k v j i : Nat) (h : bitOf (mget m j 0) i = true) :
    bitOf (mget (mset m k (Nat.lor (mget m k 0) v) 0) j 0) i = true := by
  by_cases hj : j = k
  · subst hj
    rw [bitOf_eq_testBit] at h ⊢
    rw [mget_mset_same]
    exact (Nat.testBit_or ..).trans (by rw [h, Bool.true_or])
  · rwa [mget_mset_other _ _ _ _ hj]

/-- An enrolment or a revocation burns one bit (R441, R448). -/
theorem Fuses.burnsTo_enrol (x : Fuses) (t : TokenIn) : x.BurnsTo (x.enrol t) := by
  unfold Fuses.enrol
  dsimp only
  split
  · exact ⟨rfl, le_rfl, fun _ _ => ⟨id, bitOf_mset_lor _ _ _ _ _⟩⟩
  · exact ⟨rfl, le_rfl, fun _ _ => ⟨bitOf_mset_lor _ _ _ _ _, id⟩⟩

/-- A verified image may raise the version floor and revoke VENDOR slots (R442). -/
theorem State.burnsTo_bootDone (s : State) : s.fuses.BurnsTo s.bootDone.fuses :=
  ⟨rfl, le_max_left .., fun _ _ => ⟨id, bitOf_mset_lor _ _ _ _ _⟩⟩

theorem State.burnsTo_bootEnd (s : State) : s.fuses.BurnsTo s.bootEnd.fuses := by
  unfold State.bootEnd
  split
  · simpa using s.burnsTo_bootDone
  · simp

theorem State.burnsTo_enrolToken (s : State) (t : TokenIn) : s.fuses.BurnsTo (s.enrolToken t).fuses := by
  unfold State.enrolToken
  split
  · simpa using s.fuses.burnsTo_enrol t
  · simp

theorem State.burnsTo_escEnd (s : State) (t : Option TokenIn) : s.fuses.BurnsTo (s.escEnd t).fuses := by
  unfold State.escEnd
  dsimp only
  split
  · simp
  · simp
  · simp
  · split
    · exact State.burnsTo_enrolToken { s with esc := { s.esc with op := none } } _
    · simp

/-- A command of several accesses leaves the fuses that its accesses leave, or those it found (R369). -/
theorem State.burnsTo_together (s : State) (f : State → State) (h : ∀ u : State, u.fuses.BurnsTo (f u).fuses) :
    s.fuses.BurnsTo (s.together f).fuses := by
  cases hq : (f { s with lin := s.lin.calm }).lin.stuck with
  | none =>
    rw [together_free s f hq]
    exact h { s with lin := s.lin.calm }
  | some q =>
    rw [together_waits s f q hq]
    simp

/-! ## Commands -/

/-- Whatever the command makes of `s`, its fuses are those of `s`, or more of them are burnt. -/
def Burns (s : State) (r : Res) : Prop := ∀ t, r = .next t → s.fuses.BurnsTo t.fuses

@[simp] theorem burns_next (s t : State) : Burns s (.next t) ↔ s.fuses.BurnsTo t.fuses :=
  ⟨fun h => h t rfl, fun h _ hu => Host.Outcome.next.inj hu ▸ h⟩

@[simp] theorem execEscCommandComplete_burns (ecc : Ecc) (s : State) : Burns s (execEscCommandComplete ecc s) := by
  have go (addr len : Nat) : s.fuses.BurnsTo (s.together fun s => (s.escRead addr len ecc).2.escEnd (s.escRead addr len ecc).1).fuses :=
    s.burnsTo_together _ fun u => by simpa using State.burnsTo_escEnd (u.escRead addr len ecc).2 _
  simp only [execEscCommandComplete, burns_next]
  split
  · exact go ..
  · exact go ..
  · exact .refl _

/-- A state that keeps the fuses, under a name that hides how it was computed. -/
theorem exists_burnsTo {s t : State} (h : t.fuses = s.fuses) : ∃ u, t = u ∧ s.fuses.BurnsTo u.fuses :=
  ⟨t, rfl, by rw [h]; exact .refl _⟩

/-- Of the steps of bring-up, the first alone burns fuses, when it is DONE (R442, R459). The outcomes are named before the step
is looked up: the kernel need not compute them then to see which one it is. -/
@[simp] theorem execBrupStepEnd_burns (e : StepEnd) (bad : List Nat) (s : State) : Burns s (execBrupStepEnd e bad s) := by
  conv in execBrupStepEnd => delta execBrupStepEnd
  rcases s.brupStep with ⟨n, st⟩
  rw [burns_next]
  split
  · exact .refl _
  · have boot : s.fuses.BurnsTo (if s.pwr.stageTwo then s.bootEnd else s).fuses := by
      split
      · exact s.burnsTo_bootEnd
      · exact .refl _
    have halt (id : BitVec 16) : s.fuses.BurnsTo (if id = 0x0E01 then s.escHalt 0x0E01 else s).fuses := by simp
    obtain ⟨late, eLate, hLate⟩ := exists_burnsTo (s := s) (t := (s.at (s.brup.since + s.stepLimit n)).stepEnd 1) (by simp)
    obtain ⟨dowel, eDowel, hDowel⟩ := exists_burnsTo (s.dowelDone_fuses bad)
    obtain ⟨darn, eDarn, hDarn⟩ := exists_burnsTo (s.stepEnd_fuses (if s.lowestFence.isSome then 2 else 0))
    obtain ⟨hbm, eHbm, hHbm⟩ := exists_burnsTo (s.hbmDone_fuses bad)
    obtain ⟨veneer, eVeneer, hVeneer⟩ := exists_burnsTo (s := s) (t := if s.veneerDetail ≠ 0 then s.stepEnd s.veneerDetail
      else if s.usableCores.all (fun p => (s.dom p).st == .up) then s.stepEnd 0 else s) (by simp)
    obtain ⟨kat, eKat, hKat⟩ := exists_burnsTo (s.katDone_fuses bad)
    obtain ⟨ready, eReady, hReady⟩ := exists_burnsTo (s := s) (t := if s.tick.en then s.stepEnd 0 else s) (by simp)
    obtain ⟨lining, eLining, hLining⟩ := exists_burnsTo (s.stepEnd_fuses 0)
    rw [eLate, eDowel, eDarn, eHbm, eVeneer, eKat, eReady, eLining]
    rcases n with _ | _ | _ | _ | _ | _ | _ | n
    · cases e with
      | done => exact boot
      | time => exact hLate
      | unit id => exact halt id
      | link => exact .refl _
      | stack => exact .refl _
    · cases e with
      | time => exact hLate
      | _ => exact hDowel
    · cases e with
      | time => exact hLate
      | _ => exact hDarn
    · cases e with
      | time => exact hLate
      | _ => exact hHbm
    · cases e with
      | time => exact hLate
      | _ => exact hLining
    · cases e with
      | time => exact hLate
      | _ => exact hVeneer
    · cases e with
      | time => exact hLate
      | _ => exact hKat
    · cases e with
      | time => exact hLate
      | _ => exact hReady

@[simp] theorem execBaste_burns (f : Func) (scope : Bool) (p : Fin 16) (s : State) : Burns s (execBaste f scope p s) := by
  unfold execBaste
  rw [burns_next, State.inOrder_fuses]
  · exact .refl _
  · intro u
    dsimp only
    split
    · rfl
    · split <;> simp

@[simp] theorem execLoad_burns (f : Func) (s : State) : Burns s (execLoad f s) := by
  unfold execLoad
  rw [burns_next, State.inOrder_fuses]
  · exact .refl _
  · intro u
    dsimp only
    repeat' split
    all_goals simp

@[simp] theorem execSew_burns (f : Func) (s : State) : Burns s (execSew f s) := by
  unfold execSew
  rw [burns_next, State.inOrder_fuses]
  · exact .refl _
  · intro u
    dsimp only
    split
    · rfl
    · split <;> simp

@[simp] theorem execValidationDone_burns (s : State) : Burns s (execValidationDone s) := by
  simp only [execValidationDone, burns_next]
  split <;> simp

@[simp] theorem execUnpick_burns (f : Func) (s : State) : Burns s (execUnpick f s) := by
  unfold execUnpick
  rw [burns_next, State.inOrder_fuses]
  · exact .refl _
  · intro u
    split
    · rfl
    · split <;> simp

@[simp] theorem execPatchData_burns (f : Func) (v : Word) (s : State) : Burns s (execPatchData f v s) := by
  unfold execPatchData
  rw [burns_next, State.inOrder_fuses]
  · exact .refl _
  · intro u
    dsimp only
    split
    · rfl
    · split <;> simp

@[simp] theorem execBaseBoundary_burns (s : State) : Burns s (execBaseBoundary s) := by
  simp only [execBaseBoundary, burns_next]
  split <;> simp

@[simp] theorem execFitRecRead_burns (r : Req) (s : State) : Burns s (execFitRecRead r s) := by
  unfold execFitRecRead
  rw [burns_next, State.reqOrder_fuses]
  · exact .refl _
  · intro u
    split <;> simp

@[simp] theorem execPanelLoad_burns (c : Fin 64) (ecc : Ecc) (s : State) : Burns s (execPanelLoad c ecc s) := by
  simp only [execPanelLoad, burns_next]
  split <;> simp

@[simp] theorem execPass_burns (c : Fin 64) (ecc : Ecc) (s : State) : Burns s (execPass c ecc s) := by
  simp only [execPass, burns_next]
  split <;> simp

@[simp] theorem execDrain_burns (c : Fin 64) (ecc desc : Ecc) (s : State) : Burns s (execDrain c ecc desc s) := by
  unfold execDrain
  rw [burns_next, State.together_fuses]
  · exact .refl _
  · intro u
    split <;> simp

@[simp] theorem execBind_burns (c : Fin 64) (s : State) : Burns s (execBind c s) := by
  simp only [execBind, burns_next]
  split <;> simp

@[simp] theorem execPanelFence_burns (c : Fin 64) (s : State) : Burns s (execPanelFence c s) := by
  simp only [execPanelFence, burns_next]
  split <;> simp

@[simp] theorem execCommandComplete_burns (c : Fin 64) (k : Nat) (s : State) : Burns s (execCommandComplete c k s) := by
  unfold execCommandComplete
  rw [burns_next, State.together_fuses]
  · exact .refl _
  · intro u
    split <;> simp

@[simp] theorem execPanelQueueStallEnd_burns (g : GroupId) (s : State) : Burns s (execPanelQueueStallEnd g s) := by
  simp only [execPanelQueueStallEnd, burns_next]
  split <;> simp

@[simp] theorem execProofGroupStart_burns (c : Fin 64) (s : State) : Burns s (execProofGroupStart c s) := by
  simp only [execProofGroupStart, burns_next]
  repeat' split
  all_goals simp

@[simp] theorem execSpawn_burns (g : GroupId) (i : Insn) (s : State) : Burns s (execSpawn g i s) := by
  unfold execSpawn
  rw [burns_next, State.issue_fuses]
  · exact .refl _
  · intro u gx eff
    dsimp only
    split
    · simp
    · split <;> simp

@[simp] theorem execPjob_burns (g : GroupId) (i : Insn) (s : State) : Burns s (execPjob g i s) := by
  unfold execPjob
  rw [burns_next, State.issue_fuses]
  · exact .refl _
  · intro u gx eff
    dsimp only
    split <;> simp

@[simp] theorem execProofpost_burns (g : GroupId) (i : Insn) (s : State) : Burns s (execProofpost g i s) := by
  unfold execProofpost
  rw [burns_next, State.issue_fuses]
  · exact .refl _
  · intro u gx eff
    dsimp only
    split <;> simp

@[simp] theorem execMemoryRequestComplete_burns (g : GroupId) (k : Nat) (ecc : Ecc) (s : State) :
    Burns s (execMemoryRequestComplete g k ecc s) := by
  simp only [execMemoryRequestComplete, burns_next]
  split <;> simp

@[simp] theorem execWaitNotice_burns (g : GroupId) (addr : BitVec 48) (s : State) : Burns s (execWaitNotice g addr s) := by
  simp only [execWaitNotice, burns_next]
  split <;> simp

@[simp] theorem execSectorFill_burns (line : BitVec 48) (sector : Fin 4) (ecc : Ecc) (s : State) :
    Burns s (execSectorFill line sector ecc s) := by
  simp only [execSectorFill, burns_next]
  split <;> simp

@[simp] theorem execUpdatePerform_burns (line : BitVec 48) (s : State) : Burns s (execUpdatePerform line s) := by
  simp only [execUpdatePerform, burns_next]
  repeat' split
  all_goals simp

@[simp] theorem execRecallComplete_burns (line : BitVec 48) (s : State) : Burns s (execRecallComplete line s) := by
  simp only [execRecallComplete, burns_next]
  split <;> simp

@[simp] theorem execWritebackAccepted_burns (line : BitVec 48) (s : State) : Burns s (execWritebackAccepted line s) := by
  simp only [execWritebackAccepted, burns_next]
  split <;> simp

@[simp] theorem execScrubTurn_burns (die : Fin 6) (slice : Fin 256) (ecc : Ecc) (s : State) :
    Burns s (execScrubTurn die slice ecc s) := by
  simp only [execScrubTurn, burns_next]
  repeat' split
  all_goals simp

/-- The banked key is hidden behind a variable, so that the kernel does not compute it. -/
@[simp] theorem execThrashWindowEnd_burns (die : Fin 6) (slice : Fin 256) (s : State) :
    Burns s (execThrashWindowEnd die slice s) := by
  obtain ⟨key, hk⟩ : ∃ k, bank Reg.LIN_SLICE_THRASH (256 * die.val + slice.val) = k := ⟨_, rfl⟩
  unfold execThrashWindowEnd
  rw [burns_next, hk]
  dsimp only
  simp -implicitDefEqProofs

@[simp] theorem execFlushDone_burns (s : State) : Burns s (execFlushDone s) := by
  simp only [execFlushDone, burns_next]
  split <;> simp

@[simp] theorem execHomeqLookup_burns (r : Req) (addr : BitVec 48) (s : State) : Burns s (execHomeqLookup r addr s) := by
  unfold execHomeqLookup
  rw [burns_next, State.reqOrder_fuses]
  · exact .refl _
  · intro u
    split <;> simp

@[simp] theorem execPatrolTurn_burns (pch : Fin 768) (ecc : Ecc) (s : State) : Burns s (execPatrolTurn pch ecc s) := by
  simp only [execPatrolTurn, burns_next]
  repeat' split
  all_goals simp

@[simp] theorem execHbmStopTimeout_burns (stack : Fin 12) (s : State) : Burns s (execHbmStopTimeout stack s) := by
  simp only [execHbmStopTimeout, burns_next]
  split <;> simp

@[simp] theorem execJigWaitEnd_burns (ch : Fin 320) (s : State) : Burns s (execJigWaitEnd ch s) := by
  simp only [execJigWaitEnd, burns_next]
  split <;> simp

@[simp] theorem execJigFetchFail_burns (ch : Fin 320) (code : Option (BitVec 16)) (s : State) :
    Burns s (execJigFetchFail ch code s) := by
  cases code <;> simp [execJigFetchFail]

@[simp] theorem execLaneErrorWindowEnd_burns (link : Fin 11) (dir : Fin 2) (group : Fin 8) (lane : Fin 68) (errors : Nat)
    (s : State) : Burns s (execLaneErrorWindowEnd link dir group lane errors s) := by
  simp -implicitDefEqProofs [execLaneErrorWindowEnd]

@[simp] theorem execInit_burns (n : Fin 64) (flit : List Byte) (s : State) : Burns s (execInit n flit s) := by
  simp -implicitDefEqProofs [execInit]

@[simp] theorem execSplineLaneFail_burns (n : Fin 64) (lane : Fin 4) (symbols : Option (BitVec 32)) (s : State) :
    Burns s (execSplineLaneFail n lane symbols s) := by
  simp only [execSplineLaneFail, burns_next]
  cases symbols <;> cases (s.link n.val).st <;> simp -implicitDefEqProofs

@[simp] theorem execLinkDisable_burns (f : Func) (n : Fin 64) (s : State) : Burns s (execLinkDisable f n s) := by
  simp -implicitDefEqProofs [execLinkDisable]

@[simp] theorem execReadResp_burns (n : Fin 64) (s : State) : Burns s (execReadResp n s) := by
  unfold execReadResp
  rw [burns_next, State.received_fuses]
  · exact .refl _
  · intro m u
    split
    · simp
    · split <;> simp

@[simp] theorem execReqTimeout_burns (die : Fin 4) (entry : Fin 4096) (s : State) : Burns s (execReqTimeout die entry s) := by
  simp only [execReqTimeout, burns_next]
  split <;> simp

@[simp] theorem execBar2ReadTimeout_burns (f : Func) (s : State) : Burns s (execBar2ReadTimeout f s) := by
  simp only [execBar2ReadTimeout, burns_next]
  split <;> simp

@[simp] theorem execPortReset_burns (port : Fin 2) (flr : Bool) (s : State) : Burns s (execPortReset port flr s) := by
  simp -implicitDefEqProofs [execPortReset]

@[simp] theorem execConfigurationWrite_burns (f : Func) (x : CfgWrite) (s : State) : Burns s (execConfigurationWrite f x s) := by
  simp only [execConfigurationWrite, burns_next]
  split <;> simp

@[simp] theorem execTbReservedCycle_burns (_arg : BitVec 8) (parityOk : Bool) (s : State) :
    Burns s (execTbReservedCycle _arg parityOk s) := by
  simp -implicitDefEqProofs [execTbReservedCycle]

@[simp] theorem execVendorDefinedRequest_burns (t : Transport) (standardOk vendorOk : Bool) (op : BitVec 8) (off : BitVec 32)
    (s : State) : Burns s (execVendorDefinedRequest t standardOk vendorOk op off s) := by
  simp only [execVendorDefinedRequest, burns_next]
  repeat' split
  all_goals simp

@[simp] theorem execSuspectWindowClose_burns (rail : Fin 17) (s : State) : Burns s (execSuspectWindowClose rail s) := by
  simp only [execSuspectWindowClose, burns_next]
  split <;> simp

@[simp] theorem execDomainUp_burns (core : Fin 72) (s : State) : Burns s (execDomainUp core s) := by
  simp only [execDomainUp, burns_next]
  repeat' split
  all_goals simp

@[simp] theorem execDieSample_burns (die : Fin 22) (temps : List Int) (est : Int) (s : State) :
    Burns s (execDieSample die temps est s) := by
  simp only [execDieSample, burns_next]
  repeat' split
  all_goals simp

@[simp] theorem execShutdownRecordTimeout_burns (s : State) : Burns s (execShutdownRecordTimeout s) := by
  simp only [execShutdownRecordTimeout, burns_next]
  split <;> simp

@[simp] theorem execAlterationStart_burns (s : State) : Burns s (execAlterationStart s) := by
  simp only [execAlterationStart, burns_next]
  split <;> simp

@[simp] theorem execMeasurementDone_burns (core : Fin 72) (need : List Nat) (s : State) :
    Burns s (execMeasurementDone core need s) := by
  simp only [execMeasurementDone, burns_next]
  repeat' split
  all_goals simp

@[simp] theorem execMeasurementSkip_burns (core : Fin 72) (s : State) : Burns s (execMeasurementSkip core s) := by
  simp only [execMeasurementSkip, burns_next]
  repeat' split
  all_goals simp

@[simp] theorem execLogAppend_burns (s : State) : Burns s (execLogAppend s) := by
  simp only [execLogAppend, burns_next]
  cases s.log.lastAt <;> simp

@[simp] theorem execInterruptPresentation_burns (t : Fin 3) (s : State) : Burns s (execInterruptPresentation t s) := by
  simp only [execInterruptPresentation, burns_next]
  split <;> simp

@[simp] theorem execFirmwareGroupComplete_burns (group : BitVec 5) (s : State) : Burns s (execFirmwareGroupComplete group s) := by
  simp -implicitDefEqProofs [execFirmwareGroupComplete]

@[simp] theorem execDarn_burns (f : Func) (s : State) : Burns s (execDarn f s) := by
  unfold execDarn
  rw [burns_next, State.inOrder_fuses]
  · exact .refl _
  · intro u
    simp -implicitDefEqProofs

@[simp] theorem execVeneer_burns (f : Func) (s : State) : Burns s (execVeneer f s) := by
  unfold execVeneer
  rw [burns_next, State.inOrder_fuses]
  · exact .refl _
  · intro u
    simp

@[simp] theorem execModuleReset_burns (cause : ResetCause) (cycles : Nat) (s : State) :
    Burns s (execModuleReset cause cycles s) := by
  simp only [execModuleReset, burns_next]
  cases s.brup.resetAt <;> simp

@[simp] theorem execStackPhaseEnd_burns (e : StepEnd) (lanes bad : List Nat) (s : State) :
    Burns s (execStackPhaseEnd e lanes bad s) := by
  simp only [execStackPhaseEnd, burns_next]
  split <;> simp

@[simp] theorem execPairAliveDrop_burns (s : State) : Burns s (execPairAliveDrop s) := by
  simp only [execPairAliveDrop, burns_next]
  split <;> simp

theorem exec_burns (c : Instr) (s : State) : Burns s (exec c s) := by
  cases c with
  -- BAR0
  | registerWrite | lowWordRead | highWordRead | lowWordWrite | highWordWrite =>
    simp [exec, execRegisterWrite, execLowWordRead, execHighWordRead, execLowWordWrite, execHighWordWrite]
  -- basting
  | baste | load | loadDone | sew | validationDone | unpick | patchData | bastingTimeout =>
    simp [exec, execLoadDone, execBastingTimeout]
  -- ticks and steps
  | commit | cuttingListCopy | baseBoundary | syncInEdge | syncLostTimeout | fitClose | fitRecRead =>
    simp -implicitDefEqProofs [exec, execCommit, execCuttingListCopy, execSyncInEdge, execSyncLostTimeout, execFitClose]
  -- panels
  | panelLoad | pass | drain | bind | panelFence | commandComplete | panelQueueStallEnd | proofGroupStart =>
    simp [exec]
  -- threads: control
  | nop | br | endLanes | spawn | bar | parkact | pregrd | pregwr =>
    simp [exec, execNop, execBr, execEndLanes, execBar, execParkact, execPregrd, execPregwr]
  -- threads: arithmetic
  | iadd | isub | imul | imulhi | iand | ior | ixor | inot | shl | shr | sar | imin | imax | isetp | fadd | fsub | fmul
  | ffma | fmin | fmax | fabs | fneg | fsetp | frcp | cvt | f2i | i2f | mov | movi | movs | pmov =>
    simp [exec, execIadd, execIsub, execImul, execImulhi, execIand, execIor, execIxor, execInot, execShl, execShr, execSar,
      execImin, execImax, execIsetp, execFadd, execFsub, execFmul, execFfma, execFmin, execFmax, execFabs, execFneg,
      execFsetp, execFrcp, execCvt, execF2i, execI2f, execMov, execMovi, execMovs, execPmov]
  -- threads: memory
  | ld | st | lds | sts | fence | cinv | atom | clampAcq | clampRel | signal | waitsig | adm | complete | pjob =>
    simp [exec, execLd, execSt, execLds, execSts, execFence, execCinv, execAtom, execClampAcq, execClampRel, execSignal,
      execWaitsig, execAdm, execComplete]
  -- threads: panels
  | panel | ctrrd | ctrwait | flagrd | fitbind | proofpost =>
    simp -implicitDefEqProofs [exec, execPanel, execCtrrd, execCtrwait, execFlagrd, execFitbind]
  -- threads: events
  | memoryRequestComplete | releaseNotice | waitNotice | clampDeadlock | watchdogExpiry | parkReplay | parkSkip | parkDrop
  | pregDataWrite =>
    simp [exec, execReleaseNotice, execClampDeadlock, execWatchdogExpiry, execParkReplay, execParkSkip, execParkDrop,
      execPregDataWrite]
  -- lining
  | liningAccess | sectorFill | updatePerform | recallComplete | writebackAccepted | scrubTurn | thrashWindowEnd | linClear
  | linClearDone | pin | unpin | flush | flushDone | homeqLookup =>
    simp [exec, execLiningAccess, execLinClear, execLinClearDone, execPin, execUnpin, execFlush]
  -- HBM
  | hbmSectorAccess | patrolTurn | hbmTempReport | hbmStopTimeout | hbmCondemn =>
    simp [exec, execHbmSectorAccess, execHbmTempReport, execHbmCondemn]
  -- jig
  | jigGo | jigStop | move | loop | wait | jigWaitEnd | jigSignal | jigEnd | jigAccessComplete | jigFetchFail
  | resumeContinue | resumeRetry | pl7Write =>
    simp [exec, execJigGo, execJigStop, execMove, execLoop, execWait, execJigSignal, execJigEnd, execJigAccessComplete,
      execResumeContinue, execResumeRetry, execPl7Write]
  -- network
  | laneErrorWindowEnd | laneLockLoss | regulatorWindowStart =>
    simp [exec, execLaneLockLoss, execRegulatorWindowStart]
  -- spline links
  | linkTrainingRetry | linkTrainingEnd | init | data | nak | replayTimeout | splineLaneFail | linkDisable | linkRetrain =>
    simp [exec, execLinkTrainingRetry, execLinkTrainingEnd, execData, execNak, execReplayTimeout, execLinkRetrain]
  -- spline messages
  | write | read | readResp | reduce | signalMessage | tickmark | mirrorData | mirrorSheet | mirrorCommit | heartbeat
  | reqTimeout =>
    simp [exec, execWrite, execRead, execReduce, execSignalMessage, execTickmark, execMirrorData, execMirrorSheet,
      execMirrorCommit, execHeartbeat]
  -- host ports
  | bar2Read | bar2Write | bar2ReadTimeout | bar4Write | apbaseWrite | portReset | vfFlr | configurationWrite | doeRequest =>
    simp [exec, execBar2Read, execBar2Write, execBar4Write, execApbaseWrite, execVfFlr, execDoeRequest]
  -- tick bus and pins
  | tbIdle | tbTick | tbPoll | tbQuery | tbTakeover | tbHalt | tbReservedCycle | tbClkLost | tbClkResume | thermInAssert
  | thermInRelease | pwrFaultInAssert | pwrFaultInRelease =>
    simp [exec, execTbIdle, execTbTick, execTbPoll, execTbQuery, execTbTakeover, execTbHalt, execTbClkLost, execTbClkResume,
      execThermInAssert, execThermInRelease, execPwrFaultInAssert, execPwrFaultInRelease]
  -- management and attestation
  | i3cDynamicAddress | rstdaa | pldmSensorRead | setNumericEffecterValue | setEventReceiver | getVersion | getCapabilities
  | negotiateAlgorithms | getDigests | getCertificate | challenge | getMeasurements | vendorDefinedRequest =>
    simp [exec, execI3cDynamicAddress, execRstdaa, execPldmSensorRead, execSetNumericEffecterValue, execSetEventReceiver,
      execGetVersion, execGetCapabilities, execNegotiateAlgorithms, execGetDigests, execGetCertificate, execChallenge,
      execGetMeasurements]
  -- power
  | stageTwoStart | inputUnderrange | inputRangeRelease | undervolt | overvolt | powerMeasurement | pwrLimitWrite
  | phaseFail | droop | warningTrip | suspectWindowClose | railReset | rampStart | rampEnd | domainUp =>
    simp -implicitDefEqProofs [exec, execStageTwoStart, execInputUnderrange, execInputRangeRelease, execUndervolt,
      execOvervolt, execPowerMeasurement, execPwrLimitWrite, execPhaseFail, execDroop, execWarningTrip, execRailReset,
      execRampStart, execRampEnd]
  -- heat
  | dieSample | shutdownRecordTimeout | throttleLevelUpdate | overtempTrip | alterationStart | altAll | altCore
  | altPartition | measurementDone | measurementSkip | shutClr =>
    simp [exec, execThrottleLevelUpdate, execOvertempTrip, execAltAll, execAltCore, execAltPartition, execShutClr]
  -- log and interrupts
  | logAppend | errTailWrite | interruptPresentation | eoi | firmwareGroupComplete | vfMessage =>
    simp [exec, execErrTailWrite, execEoi, execVfMessage]
  -- escutcheon
  | debugCmd | enrol | relock | escCommandComplete | escutcheonFailure =>
    simp [exec, execDebugCmd, execEnrol, execRelock, execEscutcheonFailure]
  -- bring-up
  | dowel | darn | hbm | lining | veneer | kat | ready | brupStepEnd =>
    simp [exec, execDowel, execHbm, execLining, execKat, execReady]
  -- resets
  | modrst | moduleReset | partitionReset | partitionResetDone | coreReset | computeDieReset | stackDrain | stackForce
  | stackPhaseEnd =>
    simp [exec, execModrst, execPartitionReset, execPartitionResetDone, execCoreReset, execComputeDieReset, execStackDrain,
      execStackForce]
  -- pair
  | pairCfgWrite | arm | disarm | mirrorSend | pairAliveDrop | idleFlit | droopRecovery | hostPortLinkUp
  | layerSensorTimeout | pendingSetMove =>
    simp [exec, execPairCfgWrite, execArm, execDisarm, execMirrorSend, execIdleFlit, execDroopRecovery, execHostPortLinkUp,
      execLayerSensorTimeout, execPendingSetMove]

/-- Settles O41: each command keeps what is fused at assembly and burns fuses only, arm by arm (R7, R441, R442, R448). -/
theorem fusesOnlyBurn : Obligations.FusesOnlyBurn := by
  unfold Obligations.FusesOnlyBurn
  refine ⟨fun c s t h => ?_, fun c s t h => (exec_burns c s t h).burnt⟩
  have e := (exec_burns c s t h).fixed
  exact ⟨(congrArg Fuses.stackMask e :), (congrArg Fuses.xMask e :), (congrArg Fuses.links e :), (congrArg Fuses.stepping e :),
    (congrArg Fuses.serial e :), (congrArg Fuses.slot e :), (congrArg Fuses.mgmtAddr e :), (congrArg Fuses.f0 e :), (congrArg Fuses.v0 e :)⟩

end Sys2Proof.Machine

namespace Sys2Proof.Machine

/-! # The tick bus (R376 to R381)

A cycle does one of three things: it is let pass (the module is not enabled, or its clock is lost), it is counted as one of wrong
parity, or it is answered and acted upon. The lemmas below give each case once, for every type of cycle; what is left for each
type is what its action changes. -/

/-! ## Registers and events -/

theorem rb_evSet_same (s : State) (k i : Nat) (h : i < 32) : (s.evSet k i).rb k i = true := rb_rbSet_same s k i true h

theorem rg_evSet_other (s : State) {k j : Nat} (i : Nat) (h : j ≠ k) : (s.evSet k i).rg j = s.rg j := rg_rfSet_other s _ _ _ h

theorem rb_evSet_other (s : State) {k j : Nat} (i i2 : Nat) (h : j ≠ k) : (s.evSet k i).rb j i2 = s.rb j i2 := by
  rw [State.rb, rg_evSet_other s i h, State.rb]

theorem rf_evSet_other (s : State) {k j : Nat} (i hi lo : Nat) (h : j ≠ k) : (s.evSet k i).rf j hi lo = s.rf j hi lo := by
  rw [State.rf, rg_evSet_other s i h, State.rf]

theorem sameRegs_rfSet (s : State) (k hi lo v : Nat) : sameRegs [k] s (s.rfSet k hi lo v) :=
  fun _ hj => rg_rfSet_other s hi lo v (by simpa using hj)

theorem sameRegs_rbSet (s : State) (k i : Nat) (b : Bool) : sameRegs [k] s (s.rbSet k i b) := sameRegs_rfSet s k i i (b2n b)

/-- A field of one register set and an event of another: no third register changes. -/
theorem sameRegs_rfSet_evSet (s : State) (k hi lo v e i : Nat) : sameRegs [k, e] s ((s.rfSet k hi lo v).evSet e i) := by
  intro j hj
  obtain ⟨hk, he⟩ : j ≠ k ∧ j ≠ e := by simpa using hj
  rw [rg_evSet_other _ i he, rg_rfSet_other s hi lo v hk]

/-! ## The lines -/

/-- The lines of `t` are what a module that acts on the cycle answers from the state `s` at its edge (R378); `rsp` says whether the
item asked for holds. -/
def State.answers (s : State) (rsp : Bool) (t : State) : Prop :=
  t.pins.rdyLow = (!s.tick.en || (List.range 16).any (fun p => s.rb Reg.TICK_TB_CFG p && (s.part p).running)) ∧
  t.pins.ovrLow = (List.range 16).any (fun p => s.rb Reg.TICK_TB_CFG (16 + p) && (s.part p).late) ∧ t.pins.rspLow = rsp

/-- The lines of `t` are released. -/
def State.released (t : State) : Prop := t.pins.rdyLow = false ∧ t.pins.ovrLow = false ∧ t.pins.rspLow = false

theorem State.answers_busAnswer {s : State} (on : s.onBus = true) (rsp : Bool) : s.answers rsp (s.busAnswer rsp) := by
  simp [State.answers, State.busAnswer, State.busMask, on]

theorem State.released_busAnswer {s : State} (off : s.onBus = false) (rsp : Bool) : (s.busAnswer rsp).released := by
  simp [State.released, State.busAnswer, off]

/-- What leaves the pins of the answer alone keeps the answer. -/
theorem State.answers_of_pins {s t : State} {rsp : Bool} (on : s.onBus = true) (h : t.pins = (s.busAnswer rsp).pins) :
    s.answers rsp t := by
  have a := State.answers_busAnswer on rsp
  rwa [State.answers, ← h] at a

theorem State.onBus_of_clkLost {s : State} (h : s.rb Reg.TICK_TB_STAT 4 = true) : s.onBus = false := by simp [State.onBus, h]

/-! ## The three outcomes of a cycle -/

/-- A state that differs in the pins, the registers and the cycles of their events only. -/
def State.sameButBus (s t : State) : Prop := { t with pins := s.pins, regs := s.regs, setAt := s.setAt } = s

theorem State.sameButBus_trans {s t u : State} (h : s.sameButBus t) (k : t.sameButBus u) : s.sameButBus u := by
  unfold State.sameButBus at *
  rw [← h, ← k]

theorem State.sameButBus_busAnswer (s : State) (rsp : Bool) : s.sameButBus (s.busAnswer rsp) := rfl
theorem State.sameButBus_rAdd (s : State) (k hi lo n : Nat) : s.sameButBus (s.rAdd k hi lo n) := rfl
theorem State.sameButBus_evSet (s : State) (k i : Nat) : s.sameButBus (s.evSet k i) :=
  State.sameButBus_trans (t := s.rbSet k i true) rfl rfl

/-- The types of cycle with one argument and parity. -/
def busCycles (arg : BitVec 8) (others ok : Bool) : List Instr :=
  [.tbIdle arg ok, .tbTick arg ok, .tbPoll arg ok, .tbReservedCycle arg ok, .tbQuery arg ok others, .tbTakeover arg ok, .tbHalt arg ok]

/-- Every type of cycle goes through `State.cycle`; the types differ in the answer on TB_RSP_N and in the action. -/
theorem exec_busCycle {arg : BitVec 8} {others ok : Bool} {c : Instr} (hc : c ∈ busCycles arg others ok) (s : State) :
    ∃ rsp body, exec c s = .next (s.cycle ok rsp body) := by
  simp only [busCycles, List.mem_cons, List.not_mem_nil, or_false] at hc
  rcases hc with rfl | rfl | rfl | rfl | rfl | rfl | rfl <;> exact ⟨_, _, rfl⟩

theorem State.cycle_acted {s : State} (on : s.onBus = true) (rsp : Bool) (body : State → State) :
    s.cycle true rsp body = body (s.busAnswer rsp) := by simp [State.cycle, on]

theorem State.cycle_parity {s : State} (on : s.onBus = true) (rsp : Bool) (body : State → State) :
    s.cycle false rsp body = ((s.busAnswer false).rAdd Reg.TICK_TB_STAT 19 8 1).busEvt 2 := by simp [State.cycle, on]

theorem State.cycle_clkLost {s : State} (lost : s.rb Reg.TICK_TB_STAT 4 = true) (ok rsp : Bool) (body : State → State) :
    s.cycle ok rsp body = (s.busAnswer false).rbSet Reg.TICK_TB_STAT 4 false := by
  simp [State.cycle, State.onBus_of_clkLost lost, lost]

theorem State.cycle_disabled {s : State} (off : s.onBus = false) (clk : s.rb Reg.TICK_TB_STAT 4 = false) (ok rsp : Bool)
    (body : State → State) : s.cycle ok rsp body = s.busAnswer false := by simp [State.cycle, off, clk]

/-- A cycle that the module does not act on: the lines are released, and all it can do is clear CLK_LOST. -/
theorem exec_cycle_off {arg : BitVec 8} {others ok : Bool} {c : Instr} {s : State} (off : s.onBus = false)
    (hc : c ∈ busCycles arg others ok) : ∃ t, exec c s = .next t ∧ t.released ∧ t.rb Reg.TICK_TB_STAT 4 = false ∧
      sameRegs [Reg.TICK_TB_STAT] s t ∧ (s.rb Reg.TICK_TB_STAT 4 = false → t.regs = s.regs) ∧
      { t with pins := s.pins, regs := s.regs } = s := by
  obtain ⟨rsp, body, e⟩ := exec_busCycle hc s
  have rel := State.released_busAnswer off false
  rw [e]
  cases clk : s.rb Reg.TICK_TB_STAT 4 with
  | true =>
    rw [State.cycle_clkLost clk]
    exact ⟨_, rfl, rel, rb_rbSet_same _ _ _ _ (by decide), sameRegs_rbSet (s.busAnswer false) _ _ _, by simp, rfl⟩
  | false =>
    rw [State.cycle_disabled off clk]
    exact ⟨_, rfl, rel, clk, fun _ _ => rfl, fun _ => rfl, rfl⟩

/-- A cycle of wrong parity: answered as IDLE, counted, and of no effect but that (R381). -/
theorem exec_cycle_parity {arg : BitVec 8} {others : Bool} {c : Instr} {s : State} (on : s.onBus = true)
    (hc : c ∈ busCycles arg others false) : ∃ t, exec c s = .next t ∧ s.answers false t ∧ t.rb Reg.TICK_TB_EVT 2 = true ∧
      t.rf Reg.TICK_TB_STAT 19 8 = (s.rf Reg.TICK_TB_STAT 19 8 + 1) % 2 ^ 12 ∧
      sameRegs [Reg.TICK_TB_STAT, Reg.TICK_TB_EVT] s t ∧ { t with pins := s.pins, regs := s.regs, setAt := s.setAt } = s := by
  obtain ⟨rsp, body, e⟩ := exec_busCycle hc s
  rw [e, State.cycle_parity on]
  have answered := s.sameButBus_busAnswer false
  have counted := State.sameButBus_trans answered (State.sameButBus_rAdd _ Reg.TICK_TB_STAT 19 8 1)
  refine ⟨_, rfl, State.answers_of_pins on rfl, rb_evSet_same _ _ _ (by decide), ?_,
    sameRegs_rfSet_evSet (s.busAnswer false) _ _ _ _ _ _, State.sameButBus_trans counted (State.sameButBus_evSet ..)⟩
  rw [State.busEvt, rf_evSet_other _ _ _ _ (by decide)]
  exact rf_rAdd_same (s.busAnswer false) _ _ _ _ (by decide) (by decide)

/-! ## The actions of a cycle of good parity -/

theorem exec_idle_poll {arg : BitVec 8} {c : Instr} {s : State} (on : s.onBus = true)
    (hc : c ∈ [Instr.tbIdle arg true, .tbPoll arg true]) :
    ∃ t, exec c s = .next t ∧ s.answers false t ∧ { t with pins := s.pins } = s := by
  have e : exec c s = .next (s.cycle true false id) := by
    simp only [List.mem_cons, List.not_mem_nil, or_false] at hc
    rcases hc with rfl | rfl <;> rfl
  rw [e, State.cycle_acted on]
  exact ⟨_, rfl, State.answers_busAnswer on false, rfl⟩

@[simp] theorem State.edgeAccepted_pins (s : State) (arrival : Int) : (s.edgeAccepted arrival).pins = s.pins := by
  unfold State.edgeAccepted
  dsimp only
  split
  · rfl
  · split <;> rfl

theorem State.edgeAccepted_lastEdge (s : State) (arrival : Int) : (s.edgeAccepted arrival).tick.lastEdge = some arrival.toNat := by
  unfold State.edgeAccepted
  dsimp only
  split
  · rfl
  · split <;> rfl

/-- A TICK cycle is an edge of the reference where SRC is 2, and nothing elsewhere (R52). -/
theorem exec_tbTick_acted {s : State} (on : s.onBus = true) (arg : BitVec 8) : exec (.tbTick arg true) s =
    .next (if s.ptn.running.syncSrc = 2 then (s.busAnswer false).edgeAccepted s.now else s.busAnswer false) :=
  congrArg Host.Outcome.next (State.cycle_acted on ..)

theorem exec_tbTick_unused {s : State} (on : s.onBus = true) (arg : BitVec 8) (src : s.ptn.running.syncSrc ≠ 2) :
    ∃ t, exec (.tbTick arg true) s = .next t ∧ s.answers false t ∧ { t with pins := s.pins } = s := by
  rw [exec_tbTick_acted on, if_neg src]
  exact ⟨_, rfl, State.answers_busAnswer on false, rfl⟩

theorem exec_tbTick_edge {s : State} (on : s.onBus = true) (arg : BitVec 8) (src : s.ptn.running.syncSrc = 2) :
    ∃ t, exec (.tbTick arg true) s = .next t ∧ s.answers false t ∧ t.tick.lastEdge = some s.now := by
  rw [exec_tbTick_acted on, if_pos src]
  exact ⟨_, rfl, State.answers_of_pins on (State.edgeAccepted_pins ..), State.edgeAccepted_lastEdge ..⟩

theorem exec_tbReservedCycle_acted {s : State} (on : s.onBus = true) (arg : BitVec 8) :
    ∃ t, exec (.tbReservedCycle arg true) s = .next t ∧ s.answers false t ∧
      t.rf Reg.TICK_TB_STAT 31 20 = (s.rf Reg.TICK_TB_STAT 31 20 + 1) % 2 ^ 12 ∧ sameRegs [Reg.TICK_TB_STAT] s t :=
  ⟨_, congrArg Host.Outcome.next (State.cycle_acted on ..), State.answers_of_pins on rfl,
    rf_rAdd_same (s.busAnswer false) _ _ _ _ (by decide) (by decide), sameRegs_rfSet (s.busAnswer false) _ _ _ _⟩

/-! ### QUERY -/

/-- What a QUERY ALIVE records about a slot, in TB_SEEN and, where the slot is the peer's, in the PAIR block (R379). -/
def State.sawSlot (s : State) (slot : Nat) (seen : Bool) : State :=
  let s := s.rbSet Reg.TICK_TB_SEEN slot seen
  if slot = s.rf Reg.PAIR_CFG 7 4 then
    let missed := if seen then 0 else min 2 (s.pair.missed + 1)
    { s with pair := { s.pair with slotSeen := seen, missed := missed, lost := s.pair.lost || missed == 2 } }
  else s

theorem exec_tbQuery_acted {s : State} (on : s.onBus = true) (arg : BitVec 8) (others : Bool) :
    let own := s.mySlot arg && s.item (arg.toNat / 32)
    exec (.tbQuery arg true others) s = .next (if arg.toNat / 32 ≠ 0 then s.busAnswer own
      else (s.busAnswer own).sawSlot (arg.toNat % 16) (others || own)) :=
  congrArg Host.Outcome.next (State.cycle_acted on ..)

@[simp] theorem State.sawSlot_pins (s : State) (slot : Nat) (seen : Bool) : (s.sawSlot slot seen).pins = s.pins := by
  unfold State.sawSlot
  dsimp only
  split <;> rfl

theorem State.rb_sawSlot (s : State) {slot : Nat} (seen : Bool) (h : slot < 32) :
    (s.sawSlot slot seen).rb Reg.TICK_TB_SEEN slot = seen := by
  have set : (s.rbSet Reg.TICK_TB_SEEN slot seen).rb Reg.TICK_TB_SEEN slot = seen := rb_rbSet_same _ _ _ _ h
  unfold State.sawSlot
  dsimp only
  split
  · exact set
  · exact set

/-- The peer's slot is lost when a second QUERY ALIVE in a row finds it silent (R479). -/
theorem State.pair_sawSlot_peer (s : State) {slot : Nat} (seen : Bool) (h : slot = s.rf Reg.PAIR_CFG 7 4) :
    (s.sawSlot slot seen).pair.slotSeen = seen ∧
    (s.sawSlot slot seen).pair.lost = (s.pair.lost || (!seen && decide (1 ≤ s.pair.missed))) := by
  have cfg : (s.rbSet Reg.TICK_TB_SEEN slot seen).rf Reg.PAIR_CFG 7 4 = s.rf Reg.PAIR_CFG 7 4 :=
    rf_rfSet_other _ _ _ _ _ _ (by decide)
  have twice : (min 2 (s.pair.missed + 1) == 2) = decide (1 ≤ s.pair.missed) := by
    rw [Bool.eq_iff_iff, beq_iff_eq, decide_eq_true_eq]
    omega
  unfold State.sawSlot
  dsimp only
  rw [if_pos (h.trans cfg.symm)]
  cases seen with
  | true => simp
  | false => exact ⟨rfl, congrArg (s.pair.lost || ·) twice⟩

theorem exec_tbQuery_answered {s : State} (on : s.onBus = true) (arg : BitVec 8) (others : Bool) :
    let own := s.mySlot arg && s.item (arg.toNat / 32)
    ∃ t, exec (.tbQuery arg true others) s = .next t ∧ s.answers own t ∧
      (arg.toNat / 32 = 0 → t.rb Reg.TICK_TB_SEEN (arg.toNat % 16) = (others || own) ∧
        (arg.toNat % 16 = s.rf Reg.PAIR_CFG 7 4 → t.pair.slotSeen = (others || own) ∧
          t.pair.lost = (s.pair.lost || (!(others || own) && decide (1 ≤ s.pair.missed))))) ∧
      (arg.toNat / 32 ≠ 0 → { t with pins := s.pins } = s) := by
  intro own
  rw [exec_tbQuery_acted on]
  by_cases alive : arg.toNat / 32 = 0
  · rw [if_neg (not_not.mpr alive)]
    exact ⟨_, rfl, State.answers_of_pins on (State.sawSlot_pins ..),
      fun _ => ⟨State.rb_sawSlot _ _ (by omega), State.pair_sawSlot_peer (s.busAnswer own) _⟩, absurd alive⟩
  · rw [if_pos alive]
    exact ⟨_, rfl, State.answers_busAnswer on _, fun h => absurd h alive, fun _ => rfl⟩

/-! ### TAKEOVER and HALT -/

theorem State.mySlot_iff (s : State) (arg : BitVec 8) : s.mySlot arg = true ↔ arg.toNat % 16 = s.fuses.slot := beq_iff_eq

/-- What a TAKEOVER tells the PAIR block (R377, R480, R481). -/
def State.takeoverNamed (s : State) (arg : BitVec 8) : State :=
  { s with pair := { s.pair with
    ownNamed := s.pair.ownNamed || s.mySlot arg,
    peerNamed := s.pair.peerNamed || arg.toNat % 16 == s.rf Reg.PAIR_CFG 7 4 } }

theorem exec_tbTakeover_acted {s : State} (on : s.onBus = true) (arg : BitVec 8) : exec (.tbTakeover arg true) s =
    .next (if s.mySlot arg = true then ((s.busAnswer false).takeoverNamed arg).busEvt 0 else (s.busAnswer false).takeoverNamed arg) :=
  congrArg Host.Outcome.next (State.cycle_acted on ..)

theorem exec_tbTakeover_answered {s : State} (on : s.onBus = true) (arg : BitVec 8) :
    ∃ t, exec (.tbTakeover arg true) s = .next t ∧ s.answers false t ∧
      (arg.toNat % 16 = s.fuses.slot → t.rb Reg.TICK_TB_EVT 0 = true ∧ t.pair.ownNamed = true) ∧
      (arg.toNat % 16 = s.rf Reg.PAIR_CFG 7 4 → t.pair.peerNamed = true) ∧
      (¬arg.toNat % 16 = s.fuses.slot → t.regs = s.regs) := by
  have peer : arg.toNat % 16 = s.rf Reg.PAIR_CFG 7 4 → ((s.busAnswer false).takeoverNamed arg).pair.peerNamed = true :=
    fun h => Bool.or_eq_true_iff.mpr (.inr (beq_iff_eq.mpr h))
  rw [exec_tbTakeover_acted on, ← s.mySlot_iff arg]
  by_cases mine : s.mySlot arg = true
  · rw [if_pos mine]
    exact ⟨_, rfl, State.answers_of_pins on rfl,
      fun _ => ⟨rb_evSet_same _ _ _ (by decide), Bool.or_eq_true_iff.mpr (.inr mine)⟩, peer, absurd mine⟩
  · rw [if_neg mine]
    exact ⟨_, rfl, State.answers_of_pins on rfl, fun h => absurd h mine, peer, fun _ => rfl⟩

/-- Halt entered or left, with TB_EVT.HALT (R380). -/
def State.haltTurned (s : State) (b : Bool) : State :=
  ({ s with tick := { s.tick with halted := b, haltLeft := if b then s.tick.haltLeft else some s.now } } : State).busEvt 1

theorem exec_tbHalt_acted {s : State} (on : s.onBus = true) (arg : BitVec 8) : exec (.tbHalt arg true) s =
    .next (if (!(bitOf arg.toNat 4 || s.mySlot arg) || bitOf arg.toNat 5 == s.tick.halted) = true then s.busAnswer false
      else (s.busAnswer false).haltTurned (bitOf arg.toNat 5)) :=
  congrArg Host.Outcome.next (State.cycle_acted on ..)

theorem exec_tbHalt_answered {s : State} (on : s.onBus = true) (arg : BitVec 8)
    (named : bitOf arg.toNat 4 = true ∨ arg.toNat % 16 = s.fuses.slot) :
    ∃ t, exec (.tbHalt arg true) s = .next t ∧ s.answers false t ∧ t.tick.halted = bitOf arg.toNat 5 ∧
      (s.tick.halted ≠ bitOf arg.toNat 5 → t.rb Reg.TICK_TB_EVT 1 = true) ∧ t.parts = s.parts := by
  have addressed : (bitOf arg.toNat 4 || s.mySlot arg) = true := by rwa [Bool.or_eq_true, s.mySlot_iff]
  simp only [exec_tbHalt_acted on, addressed, Bool.not_true, Bool.false_or, beq_iff_eq]
  by_cases same : bitOf arg.toNat 5 = s.tick.halted
  · rw [if_pos same]
    exact ⟨_, rfl, State.answers_busAnswer on false, same.symm, fun h => absurd same.symm h, rfl⟩
  · rw [if_neg same]
    exact ⟨_, rfl, State.answers_of_pins on rfl, rfl, fun _ => rb_evSet_same _ _ _ (by decide), rfl⟩

/-! ## The loss of the clock -/

/-- CLK_LOST set, with its event (R381). -/
def State.clkGone (s : State) : State := (s.rbSet Reg.TICK_TB_STAT 4 true).busEvt 3

theorem State.rb_clkGone_lost (s : State) : s.clkGone.rb Reg.TICK_TB_STAT 4 = true := by
  rw [State.clkGone, State.busEvt, rb_evSet_other _ _ _ (by decide), rb_rbSet_same _ _ _ _ (by decide)]

theorem State.rb_clkGone_evt (s : State) : s.clkGone.rb Reg.TICK_TB_EVT 3 = true := rb_evSet_same _ _ _ (by decide)

theorem State.sameRegs_clkGone (s : State) : sameRegs [Reg.TICK_TB_STAT, Reg.TICK_TB_EVT] s s.clkGone :=
  sameRegs_rfSet_evSet s _ _ _ _ _ _

theorem exec_tbClkLost_first {s : State} (clk : s.rb Reg.TICK_TB_STAT 4 = false) :
    ∃ t, exec .tbClkLost s = .next t ∧ t.rb Reg.TICK_TB_STAT 4 = true ∧ t.rb Reg.TICK_TB_EVT 3 = true ∧ t.released ∧
      sameRegs [Reg.TICK_TB_STAT, Reg.TICK_TB_EVT] s t := by
  have e : exec .tbClkLost s = .next (s.clkGone.busAnswer false) := congrArg Host.Outcome.next (if_neg (by simp [clk]))
  have off := State.onBus_of_clkLost s.rb_clkGone_lost
  exact ⟨_, e, s.rb_clkGone_lost, s.rb_clkGone_evt, State.released_busAnswer off false, s.sameRegs_clkGone⟩

theorem exec_tbClkResume_clears (s : State) :
    ∃ t, exec .tbClkResume s = .next t ∧ t.rb Reg.TICK_TB_STAT 4 = false ∧ (s.rb Reg.TICK_TB_STAT 4 = true → t.released) ∧
      sameRegs [Reg.TICK_TB_STAT] s t ∧ { t with pins := s.pins, regs := s.regs } = s :=
  ⟨_, rfl, rb_rbSet_same _ _ _ _ (by decide), fun lost => State.released_busAnswer (State.onBus_of_clkLost lost) false,
    sameRegs_rbSet (s.busAnswer false) _ _ _, rfl⟩

/-- Settles O49: a cycle is let pass, counted as one of wrong parity, or answered and acted upon (R376 to R381). -/
theorem tickBusCycles : Obligations.TickBusCycles := by
  unfold Obligations.TickBusCycles
  intro arg others s
  refine ⟨fun off ok c hc => ?_, fun on => ⟨fun c hc => exec_cycle_parity on hc, fun c hc => exec_idle_poll on hc,
    exec_tbTick_unused on arg, exec_tbTick_edge on arg, exec_tbReservedCycle_acted on arg, exec_tbQuery_answered on arg others,
    exec_tbTakeover_answered on arg, exec_tbHalt_answered on arg⟩, fun clk => ?_, exec_tbClkResume_clears s⟩
  · obtain ⟨t, e, ⟨rdy, ovr, rsp⟩, rest⟩ := exec_cycle_off off hc
    exact ⟨t, e, rdy, ovr, rsp, rest⟩
  · obtain ⟨t, e, lost, evt, ⟨rdy, ovr, rsp⟩, regs⟩ := exec_tbClkLost_first clk
    exact ⟨t, e, lost, evt, rdy, ovr, rsp, regs⟩

end Sys2Proof.Machine

namespace Sys2Proof.Machine

/-! # Power limits, input checks and trimming (R383, R391 to R396, R402, R439)

A change of a limit or of a hold brings PWR.EFFECTIVE and PWR.STATUS up to date (`State.limitUpdate`), and a notice of it (an
event, a record, an interrupt source) leaves both alone. A measurement is three updates in a row: what the registers show
(`State.measured`), what it moves (`State.trimmed`), and CAPPED and TRAFFIC (`State.trimStatus`). -/

/-! ## Registers that stay -/

theorem sameRegs_of_regs {s t : State} (h : t.regs = s.regs) (ks : List Nat) : sameRegs ks s t :=
  fun j _ => congrArg (fun m => mget m j (regReset (keyOff j))) h

theorem sameRegs_trans {ks : List Nat} {s t u : State} (h : sameRegs ks s t) (k : sameRegs ks t u) : sameRegs ks s u :=
  fun j hj => (k j hj).trans (h j hj)

theorem sameRegs_mono {ks js : List Nat} {s t : State} (h : sameRegs ks s t) (sub : ks ⊆ js) : sameRegs js s t :=
  fun j hj => h j fun m => hj (sub m)

theorem sameRegs_rf {ks : List Nat} {s t : State} (h : sameRegs ks s t) {k : Nat} (hk : k ∉ ks) (hi lo : Nat) :
    t.rf k hi lo = s.rf k hi lo := by
  rw [State.rf, h k hk, State.rf]

theorem sameRegs_rb {ks : List Nat} {s t : State} (h : sameRegs ks s t) {k : Nat} (hk : k ∉ ks) (i : Nat) :
    t.rb k i = s.rb k i := by
  rw [State.rb, h k hk, State.rb]

theorem sameRegs_evSet (s : State) (k i : Nat) : sameRegs [k] s (s.evSet k i) :=
  fun _ hj => rg_evSet_other s i (by simpa using hj)

/-- A state that differs in the registers only. -/
def State.sameButRegs (s t : State) : Prop := t = { s with regs := t.regs }

theorem State.sameButRegs_trans {s t u : State} (h : s.sameButRegs t) (k : t.sameButRegs u) : s.sameButRegs u :=
  k.trans (congrArg (fun x : State => { x with regs := u.regs }) h)

theorem State.rfSet_sameButRegs (s : State) (k hi lo v : Nat) : s.sameButRegs (s.rfSet k hi lo v) := rfl

theorem State.sameButRegs_pwr {s t : State} (h : s.sameButRegs t) : t.pwr = s.pwr := (congrArg State.pwr h : _)

theorem State.sameButRegs_onlyRegs {ks : List Nat} {s t : State} (h : s.sameButRegs t) (regs : sameRegs ks s t) :
    onlyRegs ks s t :=
  ⟨regs, by rw [h]⟩

/-! ## Records and events -/

theorem State.logQueue_sameRegs (s : State) (r : ErrRec) : sameRegs [Reg.ERR_LOST, Reg.IRQ_RAW + 16] s (s.logQueue r) := by
  unfold State.logQueue
  split
  · exact fun _ _ => rfl
  · rw [State.raise_high _ _ (by decide)]
    exact sameRegs_rfSet_evSet { s with log := { s.log with loss := true } } _ _ _ _ _ _

/-- The registers that a record of class `c` can change: the class's count, and for a lost one LOST and its source (R424,
R426). -/
def recRegs (c : Nat) : List Nat := [Reg.ERR_CLASS + 4 * (c - 1), Reg.ERR_LOST, Reg.IRQ_RAW + 16]

theorem State.logRec_sameRegs (s : State) (code unit : Nat) (part : Option Nat) (addr syn : Nat) (once : Bool) :
    sameRegs (recRegs (codeClass code)) s (s.logRec code unit part addr syn once) := by
  let u := s.rAdd (Reg.ERR_CLASS + 4 * (codeClass code - 1)) 31 0 1
  have counted : sameRegs (recRegs (codeClass code)) s u := sameRegs_mono (sameRegs_rfSet s _ _ _ _) (by simp [recRegs])
  have merged : ∀ t, t.regs = u.regs → sameRegs (recRegs (codeClass code)) s t := fun _ ht =>
    sameRegs_trans counted (sameRegs_of_regs ht _)
  have queued : ∀ r, sameRegs (recRegs (codeClass code)) s (u.logQueue r) := fun r =>
    sameRegs_trans counted (sameRegs_mono (State.logQueue_sameRegs u r) (List.subset_cons_self ..))
  unfold State.logRec
  dsimp only
  split
  · exact queued _
  · split
    · split
      · exact merged _ rfl
      · exact queued _
    · split
      · exact queued _
      · split
        · split
          · exact merged _ rfl
          · exact queued _
        · exact queued _

theorem State.supplyRec_sameRegs (s : State) (cause a b : Nat) (part : Option Nat) :
    sameRegs (recRegs 6) s (s.supplyRec cause a b part) := State.logRec_sameRegs s wSupply _ _ _ _ _

theorem State.thermRec_sameRegs (s : State) (cause a b : Nat) (part : Option Nat) :
    sameRegs (recRegs 6) s (s.thermRec cause a b part) := State.logRec_sameRegs s wTherm _ _ _ _ _

theorem State.evSet_sameButLog (s : State) (k i : Nat) : s.sameButLog (s.evSet k i) :=
  State.sameButLog_trans (t := s.rbSet k i true) rfl rfl

section
variable {s t : State} (h : s.sameButLog t)
include h

theorem State.sameButLog_pwr : t.pwr = s.pwr := (congrArg State.pwr h : _)
theorem State.sameButLog_pins : t.pins = s.pins := (congrArg State.pins h : _)
theorem State.sameButLog_mgmt : t.mgmt = s.mgmt := (congrArg State.mgmt h : _)
theorem State.sameButLog_thm : t.thm = s.thm := (congrArg State.thm h : _)

end

/-! ## The limit in force (R393) -/

/-- The least of PWR.LIMIT and the platform controller's limit, and 1,200 W where they are held to it. -/
def State.heldLimit (s : State) (held : Bool) : Nat :=
  let m := min (s.rf Reg.PWR_LIMIT 11 0) s.mgmt.limit
  if held = true ∧ 1200 < m then 1200 else m

theorem State.limitNow_fst (s : State) : s.limitNow.1 = s.heldLimit (s.pwr.faultHold || s.pwr.rangeHold) := by
  unfold State.limitNow State.heldLimit
  dsimp only
  by_cases hold : (s.pwr.faultHold || s.pwr.rangeHold) = true ∧ 1200 < min (s.rf Reg.PWR_LIMIT 11 0) s.mgmt.limit
  · simp only [hold, decide_true, Bool.and_self, if_true, and_self]
  · rw [if_neg (by simpa using hold), if_neg hold]
    split <;> dsimp only <;> omega

theorem State.heldLimit_lt (s : State) (held : Bool) : s.heldLimit held < 2 ^ 12 := by
  have lt : s.rf Reg.PWR_LIMIT 11 0 < 2 ^ 12 := bitsOf_lt _ 11 0
  unfold State.heldLimit
  dsimp only
  split <;> omega

theorem State.limitUpdate_eq (s : State) : s.limitUpdate =
    (((s.rfSet Reg.PWR_EFFECTIVE 11 0 s.limitNow.1).rbSet Reg.PWR_STATUS 1 s.pins.faultIn).rbSet Reg.PWR_STATUS 2
      s.pwr.rangeHold).rfSet Reg.PWR_STATUS 4 3 s.limitNow.2 := rfl

theorem State.limitUpdate_sameButRegs (s : State) : s.sameButRegs s.limitUpdate :=
  State.sameButRegs_trans (State.sameButRegs_trans (State.sameButRegs_trans (State.rfSet_sameButRegs s _ _ _ _)
    (State.rfSet_sameButRegs _ _ _ _ _)) (State.rfSet_sameButRegs _ _ _ _ _)) (State.rfSet_sameButRegs _ _ _ _ _)

@[simp] theorem State.limitUpdate_pwr (s : State) : s.limitUpdate.pwr = s.pwr := by rw [s.limitUpdate_sameButRegs]
@[simp] theorem State.limitUpdate_pins (s : State) : s.limitUpdate.pins = s.pins := by rw [s.limitUpdate_sameButRegs]
@[simp] theorem State.limitUpdate_mgmt (s : State) : s.limitUpdate.mgmt = s.mgmt := by rw [s.limitUpdate_sameButRegs]
@[simp] theorem State.limitUpdate_log (s : State) : s.limitUpdate.log = s.log := by rw [s.limitUpdate_sameButRegs]
@[simp] theorem State.limitUpdate_ptn (s : State) : s.limitUpdate.ptn = s.ptn := by rw [s.limitUpdate_sameButRegs]
@[simp] theorem State.limitUpdate_hbm (s : State) : s.limitUpdate.hbm = s.hbm := by rw [s.limitUpdate_sameButRegs]

theorem State.limitUpdate_sameRegs (s : State) : sameRegs [Reg.PWR_EFFECTIVE, Reg.PWR_STATUS] s s.limitUpdate := by
  intro j hj
  obtain ⟨eff, st⟩ : j ≠ Reg.PWR_EFFECTIVE ∧ j ≠ Reg.PWR_STATUS := by simpa using hj
  rw [State.limitUpdate_eq, rg_rfSet_other _ _ _ _ st, State.rbSet, rg_rfSet_other _ _ _ _ st, State.rbSet,
    rg_rfSet_other _ _ _ _ st, rg_rfSet_other _ _ _ _ eff]

theorem State.rf_limitUpdate_effective (s : State) :
    s.limitUpdate.rf Reg.PWR_EFFECTIVE 11 0 = s.heldLimit (s.pwr.faultHold || s.pwr.rangeHold) := by
  have other : Reg.PWR_EFFECTIVE ≠ Reg.PWR_STATUS := by decide
  rw [State.limitUpdate_eq, rf_rfSet_other _ _ _ _ _ _ other, State.rbSet, rf_rfSet_other _ _ _ _ _ _ other, State.rbSet,
    rf_rfSet_other _ _ _ _ _ _ other, rf_rfSet_same _ _ _ _ _ (by decide) (by decide), State.limitNow_fst]
  exact Nat.mod_eq_of_lt (State.heldLimit_lt ..)

theorem State.rb_limitUpdate_range (s : State) : s.limitUpdate.rb Reg.PWR_STATUS 2 = s.pwr.rangeHold := by
  rw [State.limitUpdate_eq, rb_rfSet _ _ _ _ _ _ (by decide) (by decide), if_neg (by decide), rb_rbSet_same _ _ _ _ (by decide)]

theorem State.rb_limitUpdate_faultIn (s : State) : s.limitUpdate.rb Reg.PWR_STATUS 1 = s.pins.faultIn := by
  rw [State.limitUpdate_eq, rb_rfSet _ _ _ _ _ _ (by decide) (by decide), if_neg (by decide),
    rb_rbSet_bit _ _ _ (by decide) (by decide), rb_rbSet_same _ _ _ _ (by decide)]

/-- PWR.EFFECTIVE shows the limit in force, after an update and whatever else leaves the two limits and the register alone. -/
theorem State.rf_effective_of_sameRegs {ks : List Nat} {s t : State} (regs : sameRegs ks s.limitUpdate t)
    (eff : Reg.PWR_EFFECTIVE ∉ ks) (lim : Reg.PWR_LIMIT ∉ ks) (mgmt : t.mgmt = s.mgmt) :
    t.rf Reg.PWR_EFFECTIVE 11 0 = t.heldLimit (s.pwr.faultHold || s.pwr.rangeHold) := by
  have limit : t.rf Reg.PWR_LIMIT 11 0 = s.rf Reg.PWR_LIMIT 11 0 :=
    (sameRegs_rf regs lim 11 0).trans (sameRegs_rf s.limitUpdate_sameRegs (by decide) 11 0)
  rw [sameRegs_rf regs eff, State.rf_limitUpdate_effective, State.heldLimit, State.heldLimit, limit, mgmt]

theorem State.inOrder_of_ready {s : State} {f : Func} (h : s.mustWait (portOf f) = false) (c : Instr) (body : State → State) :
    s.inOrder f c body = body s := if_neg (by simp [h])

theorem exec_pwrLimitWrite_sets {f : Func} {s : State} (ready : s.mustWait (portOf f) = false) (pf : isPf f = true) (v : Word) :
    ∃ t, exec (.pwrLimitWrite f v) s = .next t ∧ t.rf Reg.PWR_LIMIT 11 0 = max 1200 (min 3000 (v.toNat % 4096)) ∧
      t.rf Reg.PWR_EFFECTIVE 11 0 = t.heldLimit (s.pwr.faultHold || s.pwr.rangeHold) ∧
      onlyRegs [Reg.PWR_LIMIT, Reg.PWR_EFFECTIVE, Reg.PWR_STATUS] s t := by
  let w := max 1200 (min 3000 (v.toNat % 4096))
  have small : w < 2 ^ 12 := by omega
  let u := s.rfSet Reg.PWR_LIMIT 11 0 w
  have e : exec (.pwrLimitWrite f v) s = .next u.limitUpdate :=
    congrArg Host.Outcome.next ((State.inOrder_of_ready ready ..).trans (if_pos pf))
  have limit : u.limitUpdate.rf Reg.PWR_LIMIT 11 0 = w :=
    (sameRegs_rf u.limitUpdate_sameRegs (by decide) 11 0).trans
      ((rf_rfSet_same s _ _ _ _ (by decide) (by decide)).trans (Nat.mod_eq_of_lt small))
  have least := State.rf_effective_of_sameRegs (s := u) (sameRegs_of_regs rfl []) (by simp) (by simp) u.limitUpdate_mgmt
  rw [State.rfSet_pwr] at least
  have written : sameRegs [Reg.PWR_LIMIT, Reg.PWR_EFFECTIVE, Reg.PWR_STATUS] s u :=
    sameRegs_mono (sameRegs_rfSet s _ _ _ _) (by simp)
  have updated : sameRegs [Reg.PWR_LIMIT, Reg.PWR_EFFECTIVE, Reg.PWR_STATUS] u u.limitUpdate :=
    sameRegs_mono u.limitUpdate_sameRegs (List.subset_cons_self ..)
  exact ⟨_, e, limit, least, State.sameButRegs_onlyRegs
    (State.sameButRegs_trans (State.rfSet_sameButRegs s _ _ _ _) u.limitUpdate_sameButRegs) (sameRegs_trans written updated)⟩

/-! ## Notices of the power manager -/

/-- A bit of PWR.EVT set, with a record of its cause (Table 17.4). -/
def State.supplyNotice (s : State) (bit cause : Nat) : State := (s.pwrEvt bit).supplyRec cause 0 0 none

theorem State.supplyNotice_sameButLog (s : State) (bit cause : Nat) : s.sameButLog (s.supplyNotice bit cause) :=
  State.sameButLog_trans (s.evSet_sameButLog Reg.PWR_EVT bit) (State.err_sameButLog ..)

theorem State.supplyNotice_sameRegs (s : State) (bit cause : Nat) :
    sameRegs (Reg.PWR_EVT :: recRegs 6) s (s.supplyNotice bit cause) :=
  sameRegs_trans (sameRegs_mono (sameRegs_evSet s Reg.PWR_EVT bit) (by simp))
    (sameRegs_mono (State.supplyRec_sameRegs _ _ _ _ _) (List.subset_cons_self ..))

theorem State.rb_supplyNotice (s : State) {bit : Nat} (cause : Nat) (h : bit < 32) :
    (s.supplyNotice bit cause).rb Reg.PWR_EVT bit = true :=
  (sameRegs_rb (State.supplyRec_sameRegs _ _ _ _ _) (by decide) bit).trans (rb_evSet_same s Reg.PWR_EVT bit h)

/-! ## J1 out of range (R391, Table 17.1) -/

theorem exec_inputUnderrange_holds {s : State} (free : s.pwr.rangeHold = false) :
    ∃ t, exec .inputUnderrange s = .next t ∧ t.pwr = { s.pwr with rangeHold := true } ∧
      t.rf Reg.PWR_EFFECTIVE 11 0 = t.heldLimit true ∧ t.rb Reg.PWR_STATUS 2 = true ∧ t.rb Reg.PWR_EVT 5 = true := by
  let u : State := { s with pwr := { s.pwr with rangeHold := true } }
  have e : exec .inputUnderrange s = .next (u.limitUpdate.supplyNotice 5 6) :=
    congrArg Host.Outcome.next (if_neg (by simp [free]))
  have kept := u.limitUpdate.supplyNotice_sameButLog 5 6
  have regs := u.limitUpdate.supplyNotice_sameRegs 5 6
  have mgmt := (State.sameButLog_mgmt kept).trans u.limitUpdate_mgmt
  have least := State.rf_effective_of_sameRegs regs (by decide) (by decide) mgmt
  rw [show (u.pwr.faultHold || u.pwr.rangeHold) = true from Bool.or_true _] at least
  exact ⟨_, e, (State.sameButLog_pwr kept).trans u.limitUpdate_pwr, least,
    (sameRegs_rb regs (by decide) 2).trans u.rb_limitUpdate_range, State.rb_supplyNotice _ _ (by decide)⟩

theorem exec_inputRangeRelease_frees (s : State) :
    ∃ t, exec .inputRangeRelease s = .next t ∧ t.pwr = { s.pwr with rangeHold := false } ∧ t.rb Reg.PWR_STATUS 2 = false ∧
      sameRegs [Reg.PWR_EFFECTIVE, Reg.PWR_STATUS] s t ∧ { t with pwr := s.pwr, regs := s.regs } = s :=
  let u : State := { s with pwr := { s.pwr with rangeHold := false } }
  ⟨u.limitUpdate, rfl, u.limitUpdate_pwr, u.rb_limitUpdate_range, u.limitUpdate_sameRegs, by rw [u.limitUpdate_sameButRegs]⟩

/-! ## The pins of R383 -/

/-- PWR_FAULT_IN_N and the hold that goes with it. -/
def State.faultInSet (s : State) (low : Bool) : State :=
  { s with pins := { s.pins with faultIn := low }, pwr := { s.pwr with faultHold := low } }

theorem exec_thermIn_filtered {s : State} {cycles : Nat} (short : s.passes 1 cycles = false) :
    exec (.thermInAssert cycles) s = .next s ∧ exec (.thermInRelease cycles) s = .next s :=
  ⟨congrArg Host.Outcome.next (if_pos (.inr (by simp [short]))), congrArg Host.Outcome.next (if_pos (by simp [short]))⟩

theorem exec_pwrFaultIn_filtered {s : State} {cycles : Nat} (short : s.passes 2 cycles = false) :
    exec (.pwrFaultInAssert cycles) s = .next s ∧ exec (.pwrFaultInRelease cycles) s = .next s :=
  ⟨congrArg Host.Outcome.next (if_pos (.inr (by simp [short]))), congrArg Host.Outcome.next (if_pos (by simp [short]))⟩

theorem State.pinLevel_sameButRegs (s : State) (x : Nat) (high : Bool) : s.sameButRegs (s.pinLevel x high) :=
  State.rfSet_sameButRegs s _ _ _ _

theorem State.sameRegs_pinLevel (s : State) (x : Nat) (high : Bool) : sameRegs [Reg.IRQ_FILT + 4 * x] s (s.pinLevel x high) :=
  sameRegs_rbSet s _ 8 high

theorem State.rb_pinLevel (s : State) (x : Nat) (high : Bool) : (s.pinLevel x high).rb (Reg.IRQ_FILT + 4 * x) 8 = high :=
  rb_rbSet_same s _ 8 high (by decide)

theorem exec_pwrFaultInAssert_holds {s : State} {cycles : Nat} (long : s.passes 2 cycles = true) (high : s.pins.faultIn = false) :
    ∃ t, exec (.pwrFaultInAssert cycles) s = .next t ∧ t.pins = { s.pins with faultIn := true } ∧
      t.pwr = { s.pwr with faultHold := true } ∧ t.rf Reg.PWR_EFFECTIVE 11 0 = t.heldLimit true ∧ t.rb Reg.PWR_STATUS 1 = true ∧
      t.rb Reg.PWR_EVT 4 = true ∧ t.rb (Reg.IRQ_FILT + 8) 8 = false ∧ t.rb (Reg.IRQ_RAW + 16) 14 = true := by
  let u : State := (s.faultInSet true).pinLevel 2 false
  let n := u.limitUpdate.supplyNotice 4 5
  have e : exec (.pwrFaultInAssert cycles) s = .next (n.rawSet 142) :=
    congrArg Host.Outcome.next ((if_neg (by simp [long, high])).trans (State.raise_high n 142 (by decide)))
  have kept := State.sameButLog_trans (u.limitUpdate.supplyNotice_sameButLog 4 5) (n.rawSet_sameButLog 142)
  have raised : sameRegs [Reg.IRQ_RAW + 16] n (n.rawSet 142) := sameRegs_evSet n _ _
  have regs := sameRegs_trans (u.limitUpdate.supplyNotice_sameRegs 4 5) (sameRegs_mono raised (by simp [recRegs]))
  have level : u.limitUpdate.rb (Reg.IRQ_FILT + 8) 8 = false :=
    (sameRegs_rb u.limitUpdate_sameRegs (by decide) 8).trans (State.rb_pinLevel _ 2 false)
  exact ⟨_, e, (State.sameButLog_pins kept).trans u.limitUpdate_pins, (State.sameButLog_pwr kept).trans u.limitUpdate_pwr,
    State.rf_effective_of_sameRegs regs (by decide) (by decide) ((State.sameButLog_mgmt kept).trans u.limitUpdate_mgmt),
    (sameRegs_rb regs (by decide) 1).trans u.rb_limitUpdate_faultIn,
    (sameRegs_rb raised (by decide) 4).trans (State.rb_supplyNotice _ _ (by decide)),
    (sameRegs_rb regs (by decide) 8).trans level, rb_evSet_same n _ _ (by decide)⟩

theorem exec_pwrFaultInRelease_frees {s : State} {cycles : Nat} (long : s.passes 2 cycles = true) :
    ∃ t, exec (.pwrFaultInRelease cycles) s = .next t ∧ t.pins = { s.pins with faultIn := false } ∧
      t.pwr = { s.pwr with faultHold := false } ∧ t.rb Reg.PWR_STATUS 1 = false ∧ t.rb (Reg.IRQ_FILT + 8) 8 = true :=
  let u : State := (s.faultInSet false).pinLevel 2 true
  ⟨u.limitUpdate, congrArg Host.Outcome.next (if_neg (by simp [long])), u.limitUpdate_pins, u.limitUpdate_pwr,
    u.rb_limitUpdate_faultIn, (sameRegs_rb u.limitUpdate_sameRegs (by decide) 8).trans (State.rb_pinLevel _ 2 true)⟩

/-- The thermal pin is a floor under every compute die's throttle level (R414). -/
theorem State.two_le_dieLevel {s : State} (low : s.pins.thermIn = true) {d : Nat} (h : d < 12) : 2 ≤ s.dieLevel d := by
  simp [State.dieLevel, low, h]

theorem exec_thermInAssert_floors {s : State} {cycles : Nat} (long : s.passes 1 cycles = true) (high : s.pins.thermIn = false) :
    ∃ t, exec (.thermInAssert cycles) s = .next t ∧ t.pins = { s.pins with thermIn := true } ∧
      t.rb (Reg.IRQ_FILT + 4) 8 = false ∧ t.rb (Reg.IRQ_RAW + 16) 15 = true ∧
      (∀ d, d < 12 → 2 ≤ t.dieLevel d) ∧ t.thm = s.thm := by
  let u : State := ({ s with pins := { s.pins with thermIn := true } } : State).pinLevel 1 false
  let n := u.thermRec 5 0 0 none
  have e : exec (.thermInAssert cycles) s = .next (n.rawSet 143) :=
    congrArg Host.Outcome.next ((if_neg (by simp [long, high])).trans (State.raise_high n 143 (by decide)))
  have kept : u.sameButLog (n.rawSet 143) := State.sameButLog_trans (State.err_sameButLog u _ _ _ _ _) (n.rawSet_sameButLog 143)
  have pins : (n.rawSet 143).pins = u.pins := State.sameButLog_pins kept
  have raised : sameRegs [Reg.IRQ_RAW + 16] n (n.rawSet 143) := sameRegs_evSet n _ _
  have regs := sameRegs_trans (State.thermRec_sameRegs u 5 0 0 none) (sameRegs_mono raised (by simp [recRegs]))
  exact ⟨_, e, pins, (sameRegs_rb regs (by decide) 8).trans (State.rb_pinLevel _ 1 false), rb_evSet_same n _ _ (by decide),
    fun d => State.two_le_dieLevel (congrArg Pins.thermIn pins), (State.sameButLog_thm kept : _)⟩

theorem exec_thermInRelease_frees {s : State} {cycles : Nat} (long : s.passes 1 cycles = true) :
    ∃ t, exec (.thermInRelease cycles) s = .next t ∧ t.pins = { s.pins with thermIn := false } ∧
      t.rb (Reg.IRQ_FILT + 4) 8 = true ∧ sameRegs [Reg.IRQ_FILT + 4] s t ∧ { t with pins := s.pins, regs := s.regs } = s :=
  let u : State := { s with pins := { s.pins with thermIn := false } }
  ⟨u.pinLevel 1 true, congrArg Host.Outcome.next (if_neg (by simp [long])), rfl, u.rb_pinLevel 1 true,
    sameRegs_trans (t := u) (sameRegs_of_regs rfl _) (u.sameRegs_pinLevel 1 true), by rw [u.pinLevel_sameButRegs 1 true]⟩

/-! ## Resets by J1 and by a rail (R391, R394, R402) -/

@[simp] theorem State.moduleReset_ptn (s : State) (cause : Nat) : (s.moduleReset cause).ptn = {} := by
  simp only [State.moduleReset, State.rfSet_ptn, State.limitUpdate_ptn, State.reset]

@[simp] theorem State.moduleReset_log (s : State) (cause : Nat) : (s.moduleReset cause).log = {} := by
  simp only [State.moduleReset, State.rfSet_log, State.limitUpdate_log, State.reset]

@[simp] theorem State.moduleReset_hbm_data (s : State) (cause : Nat) : (s.moduleReset cause).hbm.data = s.hbm.data := by
  simp only [State.moduleReset, State.rfSet_hbm, State.limitUpdate_hbm]

@[simp] theorem State.moduleReset_pwr (s : State) (cause : Nat) : (s.moduleReset cause).pwr =
    { faultHold := s.pins.faultIn, rangeHold := s.pwr.rangeHold, stageTwo := s.pwr.stageTwo, low := s.pwr.low } := by
  simp only [State.moduleReset, State.rfSet_pwr, State.limitUpdate_pwr, State.reset]

theorem State.rf_moduleReset_lastReset (s : State) {cause : Nat} (h : cause < 16) :
    (s.moduleReset cause).rf Reg.PWR_LAST_RESET 3 0 = cause :=
  (rf_rfSet_same _ _ _ _ _ (by decide) (by decide)).trans (Nat.mod_eq_of_lt h)

theorem State.inputLost_regs (s : State) (cause : Nat) : (s.inputLost cause).regs = (s.moduleReset cause).regs := rfl

theorem exec_inputLost {c : Instr} {cause : Nat} (hc : (c, cause) ∈ [(Instr.undervolt, 11), (.overvolt, 2)]) (s : State) :
    ∃ t, exec c s = .next t ∧ t.rf Reg.PWR_LAST_RESET 3 0 = cause ∧ t.pwr.stageTwo = false ∧ t.ptn = {} ∧
      t.hbm.data = s.hbm.data := by
  obtain ⟨e, lt⟩ : exec c s = .next (s.inputLost cause) ∧ cause < 16 := by
    simp only [List.mem_cons, Prod.mk.injEq, List.not_mem_nil, or_false] at hc
    rcases hc with ⟨rfl, rfl⟩ | ⟨rfl, rfl⟩ <;> exact ⟨rfl, by decide⟩
  have regs := sameRegs_of_regs (s.inputLost_regs cause) []
  refine ⟨_, e, (sameRegs_rf regs (by simp) 3 0).trans (s.rf_moduleReset_lastReset lt), rfl, ?_, ?_⟩
  · simp only [State.inputLost, State.moduleReset_ptn]
  · simp only [State.inputLost, State.moduleReset_hbm_data]

theorem insertSorted_isEmpty (x : Nat) (l : List Nat) : (insertSorted x l).isEmpty = false := by
  cases l with
  | nil => rfl
  | cons y l =>
    unfold insertSorted
    split <;> rfl

theorem exec_railReset_resets (rail : Fin 17) (s : State) :
    ∃ t, exec (.railReset rail) s = .next t ∧ t.pwr.windows = [] ∧ t.log = {} ∧ t.ptn = {} ∧ t.pwrGood = false ∧
      t.rf Reg.PWR_LAST_RESET 3 0 = (if rail.val < 12 then 3 else rail.val - 8) := by
  let low := insertSorted rail.val (s.pwr.low.filter (· != rail.val))
  let u : State := { s with pwr := { s.pwr with low := low } }
  have cause : (if rail.val < 12 then 3 else rail.val - 8) < 16 := by split <;> omega
  have pwr := u.moduleReset_pwr (if rail.val < 12 then 3 else rail.val - 8)
  refine ⟨_, rfl, congrArg Pwr.windows pwr, u.moduleReset_log _, u.moduleReset_ptn _, ?_, u.rf_moduleReset_lastReset cause⟩
  rw [State.pwrGood, pwr]
  simp [u, low, insertSorted_isEmpty]

/-! ## Trimming (R396) -/

/-- One core-step of 25 MHz, down or up. -/
def State.steppedCore (s : State) (down : Bool) (p : Nat) : State :=
  s.domSet p { s.dom p with clk := if down then (s.dom p).clk - 1 else (s.dom p).clk + 1 }

/-- What every core-step keeps, trimming keeps. -/
theorem State.trim_keeps {P : State → Prop} {down : Bool} (step : ∀ u p, P u → P (u.steppedCore down p)) (n : Nat) {s : State}
    (h : P s) : P (s.trim down n) := by
  induction n generalizing s with
  | zero => exact h
  | succ n ih =>
    rw [State.trim]
    split
    · exact h
    · exact ih (step _ _ h)

@[simp] theorem State.trim_regs (s : State) (down : Bool) (n : Nat) : (s.trim down n).regs = s.regs :=
  State.trim_keeps (P := fun u => u.regs = s.regs) (fun _ _ h => h) n rfl

@[simp] theorem State.trim_traffic (s : State) (down : Bool) (n : Nat) : (s.trim down n).pwr.traffic = s.pwr.traffic :=
  State.trim_keeps (P := fun u => u.pwr.traffic = s.pwr.traffic) (fun _ _ h => h) n rfl

theorem State.clk_steppedCore (s : State) (down : Bool) (p q : Nat) : ((s.steppedCore down p).dom q).clk =
    if q = p then (if down then (s.dom p).clk - 1 else (s.dom p).clk + 1) else (s.dom q).clk := by
  unfold State.steppedCore
  by_cases h : q = p
  · rw [if_pos h, h, State.dom_domSet_same]
  · rw [if_neg h, State.dom_domSet_other _ _ h]

theorem State.clk_trim_down_le (s : State) (n p : Nat) : ((s.trim true n).dom p).clk ≤ (s.dom p).clk := by
  refine State.trim_keeps (P := fun u => (u.dom p).clk ≤ (s.dom p).clk) (fun u q h => ?_) n le_rfl
  rw [State.clk_steppedCore]
  split
  · subst p
    exact (Nat.sub_le ..).trans h
  · exact h

theorem State.le_clk_trim_up (s : State) (n p : Nat) : (s.dom p).clk ≤ ((s.trim false n).dom p).clk := by
  refine State.trim_keeps (P := fun u => (s.dom p).clk ≤ (u.dom p).clk) (fun u q h => ?_) n le_rfl
  rw [State.clk_steppedCore]
  split
  · subst p
    exact h.trans (Nat.le_succ _)
  · exact h

/-- A choice that keeps what it has or takes what it is shown takes a member. -/
theorem mem_of_foldl_choice {α : Type} {f : Option α → α → Option α} (h : ∀ b p, f b p = some p ∨ f b p = b) {l : List α} {q : α}
    (hq : l.foldl f none = some q) : q ∈ l := by
  suffices ∀ b, l.foldl f b = some q → q ∈ l ∨ b = some q from (this none hq).resolve_right (by simp)
  clear hq
  induction l with
  | nil => exact fun b hb => .inr hb
  | cons p l ih =>
    intro b hb
    rcases ih _ hb with m | e
    · exact .inl (List.mem_cons_of_mem p m)
    · rcases h b p with t | k
      · exact .inl (Option.some.inj (t.symm.trans e) ▸ List.mem_cons_self)
      · exact .inr (k.symm.trans e)

theorem State.lowerNext_above_floor {s : State} {p : Nat} (h : s.lowerNext = some p) : 28 < (s.dom p).clk := by
  have m := mem_of_foldl_choice (fun b q => by
    cases b with
    | none => exact .inl rfl
    | some r =>
      dsimp only
      split
      · exact .inl rfl
      · exact .inr rfl) h
  exact of_decide_eq_true (List.mem_filter.mp m).2

/-- The first step down lowers a core, and no later one raises it. -/
theorem State.clk_trim_down_lt {s : State} {p : Nat} (h : s.lowerNext = some p) (n : Nat) :
    ((s.trim true (n + 1)).dom p).clk < (s.dom p).clk := by
  have first : s.trim true (n + 1) = (s.steppedCore true p).trim true n := by
    rw [State.trim, if_pos rfl, h]
    rfl
  have above := State.lowerNext_above_floor h
  calc ((s.trim true (n + 1)).dom p).clk ≤ ((s.steppedCore true p).dom p).clk := by rw [first]; exact State.clk_trim_down_le ..
    _ = (s.dom p).clk - 1 := by rw [State.clk_steppedCore, if_pos rfl, if_pos rfl]
    _ < (s.dom p).clk := by omega

/-! ## A measurement -/

/-- What the registers show of a millisecond (R392, Tables 17.8 and 17.9). -/
def State.measured (s : State) (watts mv da : Nat) : State :=
  let w := min 4095 watts
  let s := s.rfSet Reg.PWR_POWER 11 0 w
  let s := if s.rf Reg.PWR_POWER 23 12 < w then s.rfSet Reg.PWR_POWER 23 12 w else s
  (s.rfSet Reg.PWR_INPUT 15 0 (min 0xFFFF mv)).rfSet Reg.PWR_INPUT 31 16 (min 0xFFFF da)

/-- The traffic level set. -/
def State.trafficSet (s : State) (n : Nat) : State := { s with pwr := { s.pwr with traffic := n } }

/-- What a measurement moves towards the limit `eff`: clocks or the traffic level (R396). -/
def State.trimmed (s : State) (watts eff : Nat) : State :=
  let n := Config.pick s.free % 4096
  if eff < watts then
    (if s.lowerNext.isSome then ({ s with free := s.free + 1 } : State).trim true (n + 1)
     else s.trafficSet (min 7 (s.pwr.traffic + 1)))
  else if s.pwr.traffic ≠ 0 then (if watts * 100 ≤ eff * 95 then s.trafficSet (s.pwr.traffic - 1) else s)
  else ({ s with free := s.free + 1 } : State).trim false n

theorem exec_powerMeasurement_eq (watts mv da : Nat) (s : State) : exec (.powerMeasurement watts mv da) s =
    .next ((s.measured watts mv da).trimmed watts ((s.measured watts mv da).rf Reg.PWR_EFFECTIVE 11 0)).trimStatus := rfl

theorem State.measured_sameRegs (s : State) (watts mv da : Nat) :
    sameRegs [Reg.PWR_POWER, Reg.PWR_INPUT] s (s.measured watts mv da) := by
  intro j hj
  obtain ⟨power, input⟩ : j ≠ Reg.PWR_POWER ∧ j ≠ Reg.PWR_INPUT := by simpa using hj
  unfold State.measured
  dsimp only
  rw [rg_rfSet_other _ _ _ _ input, rg_rfSet_other _ _ _ _ input]
  split
  · rw [rg_rfSet_other _ _ _ _ power, rg_rfSet_other _ _ _ _ power]
  · rw [rg_rfSet_other _ _ _ _ power]

theorem State.measured_sameButRegs (s : State) (watts mv da : Nat) : s.sameButRegs (s.measured watts mv da) := by
  have now := State.rfSet_sameButRegs s Reg.PWR_POWER 11 0 (min 4095 watts)
  have input : ∀ u, s.sameButRegs u →
      s.sameButRegs ((u.rfSet Reg.PWR_INPUT 15 0 (min 0xFFFF mv)).rfSet Reg.PWR_INPUT 31 16 (min 0xFFFF da)) := fun u h =>
    State.sameButRegs_trans (State.sameButRegs_trans h (State.rfSet_sameButRegs u _ _ _ _)) (State.rfSet_sameButRegs _ _ _ _ _)
  unfold State.measured
  dsimp only
  split
  · exact input _ (State.sameButRegs_trans now (State.rfSet_sameButRegs _ _ _ _ _))
  · exact input _ now

theorem State.rf_measured_now (s : State) (watts mv da : Nat) :
    (s.measured watts mv da).rf Reg.PWR_POWER 11 0 = min 4095 watts := by
  have other : Reg.PWR_POWER ≠ Reg.PWR_INPUT := by decide
  have now : (s.rfSet Reg.PWR_POWER 11 0 (min 4095 watts)).rf Reg.PWR_POWER 11 0 = min 4095 watts :=
    (rf_rfSet_same _ _ _ _ _ (by decide) (by decide)).trans (Nat.mod_eq_of_lt (by omega))
  unfold State.measured
  dsimp only
  rw [rf_rfSet_other _ _ _ _ _ _ other, rf_rfSet_other _ _ _ _ _ _ other]
  split
  · rw [rf_rfSet_apart _ _ _ _ _ _ _ (by decide) (by decide) (by decide), now]
  · exact now

theorem State.rf_measured_peak (s : State) (watts mv da : Nat) :
    (s.measured watts mv da).rf Reg.PWR_POWER 23 12 = max (s.rf Reg.PWR_POWER 23 12) (min 4095 watts) := by
  have other : Reg.PWR_POWER ≠ Reg.PWR_INPUT := by decide
  have kept : (s.rfSet Reg.PWR_POWER 11 0 (min 4095 watts)).rf Reg.PWR_POWER 23 12 = s.rf Reg.PWR_POWER 23 12 :=
    rf_rfSet_apart _ _ _ _ _ _ _ (by decide) (by decide) (by decide)
  unfold State.measured
  dsimp only
  rw [rf_rfSet_other _ _ _ _ _ _ other, rf_rfSet_other _ _ _ _ _ _ other, kept]
  split
  · rw [rf_rfSet_same _ _ _ _ _ (by decide) (by decide), Nat.mod_eq_of_lt (by omega)]
    omega
  · rw [kept]
    omega

theorem State.rf_measured_mv (s : State) (watts mv da : Nat) :
    (s.measured watts mv da).rf Reg.PWR_INPUT 15 0 = min 65535 mv := by
  unfold State.measured
  dsimp only
  rw [rf_rfSet_apart _ _ _ _ _ _ _ (by decide) (by decide) (by decide), rf_rfSet_same _ _ _ _ _ (by decide) (by decide)]
  exact Nat.mod_eq_of_lt (by omega)

theorem State.rf_measured_da (s : State) (watts mv da : Nat) :
    (s.measured watts mv da).rf Reg.PWR_INPUT 31 16 = min 65535 da := by
  unfold State.measured
  dsimp only
  rw [rf_rfSet_same _ _ _ _ _ (by decide) (by decide)]
  exact Nat.mod_eq_of_lt (by omega)

theorem State.dom_congr {s t : State} (pwr : t.pwr = s.pwr) : t.dom = s.dom := funext fun p => by rw [State.dom, pwr, State.dom]

/-- Which core is lowered next depends on the domains, on who owns the cores, and on PWR.PRIO. -/
theorem State.lowerNext_congr {s t : State} (pwr : t.pwr = s.pwr) (ptn : t.ptn = s.ptn)
    (prio : t.rg Reg.PWR_PRIO = s.rg Reg.PWR_PRIO) : t.lowerNext = s.lowerNext := by
  have doms := State.dom_congr pwr
  have prios : t.corePrio = s.corePrio := by
    unfold State.corePrio State.logicalOf State.corePart State.rf
    rw [ptn, prio]
  unfold State.lowerNext State.upCores
  rw [doms, prios]

theorem State.lowerNext_measured (s : State) (watts mv da : Nat) : (s.measured watts mv da).lowerNext = s.lowerNext :=
  State.lowerNext_congr (State.sameButRegs_pwr (s.measured_sameButRegs watts mv da)) (by rw [s.measured_sameButRegs])
    (s.measured_sameRegs watts mv da _ (by decide))

theorem State.trimmed_regs (s : State) (watts eff : Nat) : (s.trimmed watts eff).regs = s.regs := by
  unfold State.trimmed
  dsimp only
  split
  · split
    · exact State.trim_regs ..
    · rfl
  · split
    · split <;> rfl
    · exact State.trim_regs ..

theorem State.trimStatus_sameRegs (s : State) : sameRegs [Reg.PWR_STATUS] s s.trimStatus :=
  sameRegs_trans (t := s.rbSet Reg.PWR_STATUS 0 (s.upCores.any fun p => decide ((s.dom p).clk < (s.dom p).ceil)))
    (sameRegs_rbSet _ _ _ _) (sameRegs_rfSet _ _ _ _ _)

@[simp] theorem State.trimStatus_pwr (s : State) : s.trimStatus.pwr = s.pwr := rfl
@[simp] theorem State.trimStatus_dom (s : State) : s.trimStatus.dom = s.dom := State.dom_congr s.trimStatus_pwr

/-! ### What a measurement moves -/

section
variable {s : State} {watts eff : Nat}

theorem State.trimmed_pwr_at_floor (exceeded : eff < watts) (floor : s.lowerNext = none) :
    (s.trimmed watts eff).pwr = { s.pwr with traffic := min 7 (s.pwr.traffic + 1) } := by
  rw [State.trimmed, if_pos exceeded, floor]
  rfl

theorem State.trimmed_lowers (exceeded : eff < watts) (above : s.lowerNext ≠ none) :
    (s.trimmed watts eff).pwr.traffic = s.pwr.traffic ∧ (∀ p, ((s.trimmed watts eff).dom p).clk ≤ (s.dom p).clk) ∧
      ∃ p, ((s.trimmed watts eff).dom p).clk < (s.dom p).clk := by
  obtain ⟨q, next⟩ := Option.ne_none_iff_exists'.mp above
  let u : State := { s with free := s.free + 1 }
  have e : s.trimmed watts eff = u.trim true (Config.pick s.free % 4096 + 1) := by
    rw [State.trimmed, if_pos exceeded, next]
    rfl
  rw [e]
  exact ⟨State.trim_traffic .., u.clk_trim_down_le _, q, State.clk_trim_down_lt (s := u) next _⟩

theorem State.trimmed_pwr_well_below (under : watts ≤ eff) (throttled : s.pwr.traffic ≠ 0) (well : watts * 100 ≤ eff * 95) :
    (s.trimmed watts eff).pwr = { s.pwr with traffic := s.pwr.traffic - 1 } := by
  rw [State.trimmed, if_neg (Nat.not_lt.mpr under), if_pos throttled, if_pos well]
  rfl

theorem State.trimmed_pwr_just_below (under : watts ≤ eff) (throttled : s.pwr.traffic ≠ 0) (just : eff * 95 < watts * 100) :
    (s.trimmed watts eff).pwr = s.pwr := by
  rw [State.trimmed, if_neg (Nat.not_lt.mpr under), if_pos throttled, if_neg (Nat.not_le.mpr just)]

theorem State.trimmed_raises (under : watts ≤ eff) (unthrottled : s.pwr.traffic = 0) :
    (s.trimmed watts eff).pwr.traffic = 0 ∧ ∀ p, (s.dom p).clk ≤ ((s.trimmed watts eff).dom p).clk := by
  let u : State := { s with free := s.free + 1 }
  have e : s.trimmed watts eff = u.trim false (Config.pick s.free % 4096) := by
    rw [State.trimmed, if_neg (Nat.not_lt.mpr under), if_neg (not_not.mpr unthrottled)]
  rw [e]
  exact ⟨(State.trim_traffic ..).trans unthrottled, u.le_clk_trim_up _⟩

end

theorem exec_powerMeasurement_moves (watts mv da : Nat) (s : State) :
    let eff := s.rf Reg.PWR_EFFECTIVE 11 0
    ∃ t, exec (.powerMeasurement watts mv da) s = .next t ∧ t.rf Reg.PWR_POWER 11 0 = min 4095 watts ∧
      t.rf Reg.PWR_POWER 23 12 = max (s.rf Reg.PWR_POWER 23 12) (min 4095 watts) ∧ t.rf Reg.PWR_INPUT 15 0 = min 65535 mv ∧
      t.rf Reg.PWR_INPUT 31 16 = min 65535 da ∧
      (eff < watts → s.lowerNext = none → t.pwr = { s.pwr with traffic := min 7 (s.pwr.traffic + 1) }) ∧
      (eff < watts → s.lowerNext ≠ none → t.pwr.traffic = s.pwr.traffic ∧ (∀ p, (t.dom p).clk ≤ (s.dom p).clk) ∧
        ∃ p, (t.dom p).clk < (s.dom p).clk) ∧
      (watts ≤ eff → s.pwr.traffic ≠ 0 → watts * 100 ≤ eff * 95 → t.pwr = { s.pwr with traffic := s.pwr.traffic - 1 }) ∧
      (watts ≤ eff → s.pwr.traffic ≠ 0 → eff * 95 < watts * 100 → t.pwr = s.pwr) ∧
      (watts ≤ eff → s.pwr.traffic = 0 → t.pwr.traffic = 0 ∧ ∀ p, (s.dom p).clk ≤ (t.dom p).clk) := by
  intro eff
  let m := s.measured watts mv da
  have e : exec (.powerMeasurement watts mv da) s = .next (m.trimmed watts eff).trimStatus := by
    rw [exec_powerMeasurement_eq, sameRegs_rf (s.measured_sameRegs watts mv da) (by decide)]
  have moved : sameRegs [Reg.PWR_STATUS] m (m.trimmed watts eff).trimStatus :=
    sameRegs_trans (sameRegs_of_regs (m.trimmed_regs watts eff) _) (State.trimStatus_sameRegs _)
  have pwr : m.pwr = s.pwr := State.sameButRegs_pwr (s.measured_sameButRegs watts mv da)
  have dom := State.dom_congr pwr
  have next : m.lowerNext = s.lowerNext := s.lowerNext_measured watts mv da
  rw [← pwr, ← dom, ← next]
  refine ⟨_, e, (sameRegs_rf moved (by decide) _ _).trans (s.rf_measured_now ..),
    (sameRegs_rf moved (by decide) _ _).trans (s.rf_measured_peak ..),
    (sameRegs_rf moved (by decide) _ _).trans (s.rf_measured_mv ..),
    (sameRegs_rf moved (by decide) _ _).trans (s.rf_measured_da ..), ?_⟩
  simp only [State.trimStatus_pwr, State.trimStatus_dom]
  exact ⟨State.trimmed_pwr_at_floor, State.trimmed_lowers, State.trimmed_pwr_well_below, State.trimmed_pwr_just_below,
    State.trimmed_raises⟩

/-- Settles O52: limits and holds update PWR.EFFECTIVE, pins pass their filters, J1 and the rails reset the module, and a
measurement moves the traffic level or the clocks towards the limit. -/
theorem powerLimits : Obligations.PowerLimits := by
  unfold Obligations.PowerLimits
  intro f s
  exact ⟨fun v ready pf => exec_pwrLimitWrite_sets ready pf v, ⟨_, rfl, rfl, rfl⟩, exec_inputUnderrange_holds,
    exec_inputRangeRelease_frees s, fun _ => ⟨exec_thermIn_filtered, exec_pwrFaultIn_filtered⟩,
    fun _ => exec_pwrFaultInAssert_holds, fun _ => exec_pwrFaultInRelease_frees, fun _ => exec_thermInAssert_floors,
    fun _ => exec_thermInRelease_frees, fun _ _ hc => exec_inputLost hc s, (exec_railReset_resets · s),
    fun watts mv da => exec_powerMeasurement_moves watts mv da s⟩

end Sys2Proof.Machine

namespace Sys2Proof.Machine

/-! # Module, partition, core, die and stack resets (R462 to R470, Tables 21.2 and 21.3)

Every reset is built from a few operations that clear something: a core, a line of the lining, a jig channel, a fit record. Two
relations say once what these leave alone: `State.purges` for what is not a core, `State.sheds` for cores and their domains. What
each reset changes beside them is then read off its first few updates. -/

/-! ## Folds -/

/-- What relates a state to the next step of a fold relates it to the fold. -/
theorem foldl_related {σ β : Type} {R : σ → σ → Prop} (refl : ∀ s, R s s) (trans : ∀ {s t u}, R s t → R t u → R s u)
    {f : σ → β → σ} (step : ∀ s e, R s (f s e)) (l : List β) (s : σ) : R s (l.foldl f s) := by
  induction l generalizing s with
  | nil => exact refl s
  | cons e l ih => exact trans (step s e) (ih _)

/-- What one step of a fold brings about under an invariant, and every step keeps, holds at its end. -/
theorem foldl_establishes {σ β : Type} {I P : σ → Prop} {f : σ → β → σ} (inv : ∀ u e, I u → I (f u e))
    (keep : ∀ u e, I u → P u → P (f u e)) {c : β} (make : ∀ u, I u → P (f u c)) {l : List β} (mem : c ∈ l) {s : σ} (start : I s) :
    P (l.foldl f s) := by
  obtain ⟨before, after, rfl⟩ := List.append_of_mem mem
  rw [List.foldl_append, List.foldl_cons]
  have reached : I (before.foldl f s) := List.foldlRecOn before f start fun u hu e _ => inv u e hu
  exact (List.foldlRecOn (motive := fun u => I u ∧ P u) after f ⟨inv _ _ reached, make _ reached⟩
    fun u hu e _ => ⟨inv u e hu.1, keep u e hu.1 hu.2⟩).2

/-! ## What is cleared outside the cores -/

/-- Registers with keys below `b` are as before, but for the count of discarded requests. -/
def State.keepsBelow (b : Nat) (s t : State) : Prop := ∀ k, k < b → k ≠ Reg.BRUP_DISCARDS → t.rg k = s.rg k

theorem State.keepsBelow.trans {b : Nat} {s t u : State} (h : s.keepsBelow b t) (k : t.keepsBelow b u) : s.keepsBelow b u :=
  fun j lt ne => (k j lt ne).trans (h j lt ne)

theorem State.keepsBelow.mono {b c : Nat} {s t : State} (h : s.keepsBelow b t) (le : c ≤ b) : s.keepsBelow c t :=
  fun j lt ne => h j (Nat.lt_of_lt_of_le lt le) ne

theorem State.keepsBelow_of_regs (b : Nat) {s t : State} (h : t.regs = s.regs) : s.keepsBelow b t :=
  fun j _ _ => sameRegs_of_regs h [] j (by simp)

theorem State.keepsBelow_rfSet {b k : Nat} (s : State) (hi lo v : Nat) (h : b ≤ k ∨ k = Reg.BRUP_DISCARDS) :
    s.keepsBelow b (s.rfSet k hi lo v) :=
  fun _ lt ne => rg_rfSet_other s hi lo v (by rintro rfl; rcases h with h | h <;> [omega; exact ne h])

/-- Only the lining, the jig channels, the links' requests and the fit records differ, with registers of the lining and the
channels. -/
structure State.purges (s t : State) : Prop where
  rest : t = { s with
    regs := t.regs, setAt := t.setAt, reply := t.reply, lin := t.lin, jig := t.jig, spl := t.spl, fit := t.fit }
  regs : s.keepsBelow Reg.LIN_PINRESULT t

theorem State.purges.refl (s : State) : s.purges s := ⟨rfl, fun _ _ _ => rfl⟩

theorem State.purges.trans {s t u : State} (h : s.purges t) (k : t.purges u) : s.purges u :=
  ⟨k.rest.trans (congrArg (fun x : State => { x with
    regs := u.regs, setAt := u.setAt, reply := u.reply, lin := u.lin, jig := u.jig, spl := u.spl, fit := u.fit }) h.rest),
    h.regs.trans k.regs⟩

theorem State.foldl_purges {β : Type} {f : State → β → State} (step : ∀ s e, State.purges s (f s e)) (l : List β) (s : State) :
    s.purges (l.foldl f s) := foldl_related State.purges.refl State.purges.trans step l s

theorem State.forgetTickets_purges (s : State) (gone : Ticket → Bool) : s.purges (s.forgetTickets gone) :=
  ⟨rfl, State.keepsBelow_of_regs _ rfl⟩

theorem State.forgetLine_purges (s : State) (l : Nat) : s.purges (s.forgetLine l) := ⟨rfl, State.keepsBelow_of_regs _ rfl⟩

theorem State.linClear_purges (s : State) (a n : Nat) : s.purges (s.linClear a n) := ⟨rfl, State.keepsBelow_of_regs _ rfl⟩

theorem State.answer_purges (s : State) (r : Reply) : s.purges (s.answer r) := ⟨rfl, State.keepsBelow_of_regs _ rfl⟩

theorem State.fitClear_purges (s : State) (f : Nat) (owner : Option Nat) : s.purges (s.fitClear f owner) :=
  ⟨rfl, State.keepsBelow_of_regs _ rfl⟩

theorem State.dropRequests_purges (s : State) (p : Nat) : s.purges (s.dropRequests p) := ⟨rfl, State.keepsBelow_of_regs _ rfl⟩

theorem State.jigClear_purges (s : State) (ch : Nat) : s.purges (s.jigClear ch) := by
  refine ⟨rfl, fun k lt _ => ?_⟩
  have below : k < chReg Reg.JIG_CH_CTL ch := Nat.lt_of_lt_of_le (Nat.lt_trans lt (by decide)) (Nat.le_add_right ..)
  exact (mget_mclear ..).trans (if_neg (by omega))

theorem State.rfSet_purges (s : State) {k : Nat} (hi lo v : Nat) (h : Reg.LIN_PINRESULT ≤ k ∨ k = Reg.BRUP_DISCARDS) :
    s.purges (s.rfSet k hi lo v) := ⟨rfl, s.keepsBelow_rfSet hi lo v h⟩

theorem State.evSet_purges (s : State) {k : Nat} (i : Nat) (h : Reg.LIN_PINRESULT ≤ k) : s.purges (s.evSet k i) :=
  (s.rfSet_purges i i 1 (.inl h)).trans ⟨rfl, State.keepsBelow_of_regs _ rfl⟩

theorem State.pinResult_purges (s : State) (code op : Nat) : s.purges (s.pinResult code op) :=
  have lining : Reg.LIN_PINRESULT ≤ Reg.LIN_PINRESULT := Nat.le_refl _
  ((s.rfSet_purges _ _ _ (.inl lining)).trans (State.rfSet_purges _ _ _ _ (.inl lining))).trans (State.evSet_purges _ _ lining)

theorem State.pinDrop_purges (s : State) (p : Nat) : s.purges (s.pinDrop p) := by
  unfold State.pinDrop State.pinCancel
  split
  · split
    · split
      · exact .refl s
      · exact State.purges.trans (t := { s with lin := { s.lin with pinCmd := none } })
          ⟨rfl, State.keepsBelow_of_regs _ rfl⟩ (State.pinResult_purges ..)
    · exact .refl s
  · exact .refl s

theorem State.failQueued_purges (s : State) (p : Nat) : s.purges (s.failQueued p) :=
  let u : State := { s with lin := { s.lin with blocked := s.lin.blocked.filter (fun x => x.part.val != p) } }
  have taken : s.purges u := ⟨rfl, State.keepsBelow_of_regs _ rfl⟩
  (taken.trans (u.forgetTickets_purges _)).trans (State.foldl_purges (fun v _ => v.answer_purges _) _ _)

theorem State.dropLines_purges (s : State) (p : Nat) : s.purges (s.dropLines p) :=
  State.foldl_purges State.forgetLine_purges _ s

theorem State.clearSlices_purges (s : State) (p : Nat) (slices : List Nat) : s.purges (s.clearSlices p slices) :=
  ((State.foldl_purges State.forgetLine_purges _ s).trans (State.foldl_purges (fun u _ => u.linClear_purges _ _) slices _)).trans
    ⟨rfl, State.keepsBelow_of_regs _ rfl⟩

/-- A port without a request has none that fails. -/
theorem State.hostFail_of_idle {s : State} (idle : ∀ q, (s.port q).ops = []) (p : Nat) : s.hostFail p = s := by
  refine List.foldl_fixed' (fun e => ?_) _
  split
  · rw [State.hostRemote, idle]
  · rfl

/-- A port without a request has nothing to go on with. -/
theorem State.hostPump_of_idle {s : State} {port : Nat} (idle : (s.port port).ops = []) : s.hostPump port = s := by
  rw [State.hostPump, State.hostWork, idle]
  rfl

/-- The lining and the channels of a partition cleared, before its requests go. -/
def State.clearHeld (s : State) (p : Nat) : State :=
  (setBits (s.ptn.running.jigMask p) 320).foldl (fun u c => u.jigClear c)
    ((((s.pinDrop p).failQueued p).dropLines p).clearSlices p (s.ptn.running.slices p))

theorem State.clearHeld_purges (s : State) (p : Nat) : s.purges (s.clearHeld p) :=
  ((((s.pinDrop_purges p).trans (State.failQueued_purges ..)).trans (State.dropLines_purges ..)).trans
    (State.clearSlices_purges ..)).trans (State.foldl_purges State.jigClear_purges _ _)

theorem State.clearOwned_of_idle {s : State} (idle : ∀ q, (s.port q).ops = []) (p : Nat) :
    s.clearOwned p = (s.clearHeld p).dropRequests p := by
  have port : (s.clearHeld p).port = s.port := by
    funext q
    rw [State.port, (s.clearHeld_purges p).rest, State.port]
  exact congrArg (State.dropRequests · p) (State.hostFail_of_idle (fun q => port ▸ idle q) p)

theorem State.linkSet_purges (s : State) (n : Nat) (v : SLink) : s.purges (s.linkSet n v) :=
  ⟨rfl, State.keepsBelow_of_regs _ rfl⟩

theorem State.dropQueued_purges (s : State) (p : Nat) : s.purges (s.dropQueued p) := by
  unfold State.dropQueued
  exact (State.foldl_purges (fun _ _ => State.linkSet_purges ..) _ s).trans (State.rfSet_purges _ _ _ _ (.inr rfl))

theorem State.dropQueued_out (s : State) (p : Nat) : (s.dropQueued p).spl.out = s.spl.out := by
  unfold State.dropQueued
  simp only [State.rAdd, State.rfSet_spl]
  refine foldl_keeps (fun u : State => u.spl.out) _ (fun u n => ?_) _ s
  rfl

/-! ## What is cleared of cores -/

/-- Only cores, their groups and memories, their random generators, domains and hours differ, with tickets of the lining and
registers from `b` on. -/
structure State.sheds (b : Nat) (s t : State) : Prop where
  rest : t = { s with
    regs := t.regs, lin := t.lin, cores := t.cores, groups := t.groups, acc := t.acc, accFlags := t.accFlags,
    staging := t.staging, rng := t.rng, pwr := t.pwr, nor := { s.nor with hours := t.nor.hours } }
  regs : s.keepsBelow b t

theorem State.sheds.refl (b : Nat) (s : State) : s.sheds b s := ⟨rfl, fun _ _ _ => rfl⟩

theorem State.sheds.trans {b : Nat} {s t u : State} (h : s.sheds b t) (k : t.sheds b u) : s.sheds b u :=
  ⟨k.rest.trans (congrArg (fun x : State => { x with
    regs := u.regs, lin := u.lin, cores := u.cores, groups := u.groups, acc := u.acc, accFlags := u.accFlags,
    staging := u.staging, rng := u.rng, pwr := u.pwr, nor := { x.nor with hours := u.nor.hours } }) h.rest), h.regs.trans k.regs⟩

theorem State.foldl_sheds {β : Type} {b : Nat} {f : State → β → State} (step : ∀ s e, State.sheds b s (f s e)) (l : List β)
    (s : State) : s.sheds b (l.foldl f s) := foldl_related (State.sheds.refl b) State.sheds.trans step l s

theorem State.coreMap_sheds (b : Nat) (s : State) (c : Nat) (f : CoreSt → CoreSt) : s.sheds b (s.coreMap c f) :=
  ⟨rfl, State.keepsBelow_of_regs _ rfl⟩

/-- A core's registers lie above those of the lining. -/
theorem State.rgSet_coreReg_sheds (s : State) {off : Nat} (c : Nat) (v : Word) (h : Reg.LIN_PINRESULT ≤ off) :
    s.sheds Reg.LIN_PINRESULT (s.rgSet (coreReg off c) v) := by
  refine ⟨rfl, fun k lt _ => rg_rgSet_other s v (Nat.ne_of_lt (Nat.lt_of_lt_of_le lt (Nat.le_trans h (Nat.le_add_right ..))))⟩

/-- A core's groups and memories cleared, before its counts. -/
def State.coreEmptied (s : State) (c : Nat) : State :=
  let s := ({ s with groups := mclear s.groups (gix c 0) 64 }).forgetTickets (fun t => ofCore c t.ask.agent)
  let s := (s.coreMap c (fun x => { x with bars := [], activeSet := [] })).panelReset c
  { s with rng := s.rng.reseed (s.physOf c) }

theorem State.coreEmptied_sheds (b : Nat) (s : State) (c : Nat) : s.sheds b (s.coreEmptied c) :=
  let freed : State := { s with groups := mclear s.groups (gix c 0) 64 }
  let forgot := freed.forgetTickets (fun t => ofCore c t.ask.agent)
  let barred := forgot.coreMap c (fun x => { x with bars := [], activeSet := [] })
  have hfreed : s.sheds b freed := ⟨rfl, State.keepsBelow_of_regs _ rfl⟩
  have hforgot : freed.sheds b forgot := ⟨rfl, State.keepsBelow_of_regs _ rfl⟩
  have hpanel : barred.sheds b (barred.panelReset c) := ⟨rfl, State.keepsBelow_of_regs _ rfl⟩
  have hrng : (barred.panelReset c).sheds b (s.coreEmptied c) := ⟨rfl, State.keepsBelow_of_regs _ rfl⟩
  (((hfreed.trans hforgot).trans (forgot.coreMap_sheds ..)).trans hpanel).trans hrng

/-- The counts of a core. -/
def coreCounts : List Nat := [Reg.CORE_ISSUE, Reg.CORE_ISSUE + 4, Reg.CORE_DUAL, Reg.CORE_DUAL + 4, Reg.CORE_PARKS]

theorem State.coreWipe_eq (s : State) (c : Nat) :
    s.coreWipe c = coreCounts.foldl (fun u k => u.rgSet (coreReg k c) 0) (s.coreEmptied c) := rfl

theorem State.coreWipe_sheds (s : State) (c : Nat) : s.sheds Reg.LIN_PINRESULT (s.coreWipe c) := by
  rw [State.coreWipe_eq]
  refine (s.coreEmptied_sheds _ c).trans (List.foldlRecOn coreCounts _ (.refl _ _) fun u hu k mem => ?_)
  exact hu.trans (u.rgSet_coreReg_sheds c 0 (by revert k; decide))

theorem State.group_coreWipe (s : State) (c g : Nat) :
    (s.coreWipe c).group g = if gix c 0 ≤ g ∧ g < gix c 0 + 64 then {} else s.group g := mget_mclear ..

theorem State.group_coreWipe_free (s : State) (c : Nat) {slot : Nat} (h : slot < 64) :
    ((s.coreWipe c).group (gix c slot)).st = .free := by
  rw [State.group_coreWipe, if_pos (by unfold gix; omega)]

/-! ## A partition reset (R463 to R466) -/

/-- The epoch of a partition advanced and its requests in flight counted (R463, R464). -/
def State.epochAdvanced (s : State) (p : Nat) : State :=
  (s.rAdd (Reg.PTN_EPOCH + 4 * p) 15 0 1).rAdd Reg.BRUP_DISCARDS 31 0 (s.inFlight p)

/-- The partition is in reset, with the epoch recorded that it then has. -/
def State.epochReset (s : State) (p : Nat) : State :=
  let e := (s.epochAdvanced p).epoch p
  ((s.epochAdvanced p).rbSet Reg.BRUP_PRESET_BUSY p true).partMap p (fun x => { x with resetting := true, resetEpoch := some e })

/-- The step of a partition abandoned, before its residents are gone. -/
def State.stepLeft (s : State) (p : Nat) : State :=
  let s := s.partMap p Part.abandoned
  let s := { s with pair := { s.pair with
    waiting := s.pair.waiting.filter (· != p), sent := s.pair.sent.filter (· != p) } }
  (s.rgSet (Reg.TICK_LAG + 0x20 * p) 0).ctlSet p 0xC 4 0

/-- The step of a partition abandoned, before its cores and fit records are cleared. -/
def State.stepDropped (s : State) (p : Nat) : State := (s.stepLeft p).setResidents p []

/-- The cores of a partition cleared. -/
def State.coresWiped (s : State) (p : Nat) : State :=
  (s.coresOf p).foldl (fun u c => (u.coreWipe c).coreMap c (fun x => { x with proofQ := [] })) s

/-- The fit records of a partition cleared, as pattern `t` numbers them. -/
def State.fitsCleared (s : State) (t : Pat) (p : Nat) : State :=
  (List.range (t.fitCount p)).foldl (fun u i => u.fitClear (t.fitBase p + i) (some p)) s

theorem State.coresWiped_sheds (s : State) (p : Nat) : s.sheds Reg.LIN_PINRESULT (s.coresWiped p) :=
  State.foldl_sheds (fun u c => (u.coreWipe_sheds c).trans (State.coreMap_sheds ..)) _ s

theorem State.fitsCleared_purges (s : State) (t : Pat) (p : Nat) : s.purges (s.fitsCleared t p) :=
  State.foldl_purges (fun u _ => u.fitClear_purges _ _) _ s

theorem State.abandonStep_eq (s : State) (p : Nat) :
    s.abandonStep p = ((s.stepDropped p).coresWiped p).fitsCleared s.ptn.running p := rfl

/-- What stands in force once the epoch is recorded and the step dropped. -/
def State.resetEntry (s : State) (p : Nat) : State := (s.epochReset p).stepDropped p

/-- Only the partitions, their control pages, the pair's marks and registers differ. -/
def State.enters (s t : State) : Prop := t = { s with regs := t.regs, parts := t.parts, bar4 := t.bar4, pair := t.pair }

theorem State.enters.trans {s t u : State} (h : s.enters t) (k : t.enters u) : s.enters u :=
  Eq.trans k (congrArg (fun x : State => { x with regs := u.regs, parts := u.parts, bar4 := u.bar4, pair := u.pair }) h)

theorem State.rgSet_enters (s : State) (k : Nat) (v : Word) : s.enters (s.rgSet k v) := rfl
theorem State.partSet_enters (s : State) (p : Nat) (x : Part) : s.enters (s.partSet p x) := rfl
theorem State.ctlSet_enters (s : State) (p off n v : Nat) : s.enters (s.ctlSet p off n v) := rfl

theorem State.epochReset_enters (s : State) (p : Nat) : s.enters (s.epochReset p) :=
  (((s.rgSet_enters _ _).trans (State.rgSet_enters ..)).trans (State.rgSet_enters ..)).trans (State.partSet_enters ..)

theorem State.stepDropped_enters (s : State) (p : Nat) : s.enters (s.stepDropped p) :=
  let u := s.partMap p Part.abandoned
  let v : State := { u with pair := { u.pair with
    waiting := u.pair.waiting.filter (· != p), sent := u.pair.sent.filter (· != p) } }
  have marked : u.enters v := rfl
  (((((s.partSet_enters _ _).trans marked).trans (v.rgSet_enters _ _)).trans (State.ctlSet_enters ..)).trans
    (State.partSet_enters ..)).trans (State.rgSet_enters ..)

theorem State.resetEntry_enters (s : State) (p : Nat) : s.enters (s.resetEntry p) :=
  (s.epochReset_enters p).trans (State.stepDropped_enters ..)

theorem State.coresWiped_of_resetEntry_ptn (s : State) (p : Nat) : ((s.resetEntry p).coresWiped p).ptn = s.ptn := by
  rw [(State.coresWiped_sheds _ p).rest, s.resetEntry_enters p]

theorem State.coresWiped_of_resetEntry_port (s : State) (p : Nat) : ((s.resetEntry p).coresWiped p).port = s.port := by
  funext q
  rw [State.port, (State.coresWiped_sheds _ p).rest, s.resetEntry_enters p, State.port]

/-- The end of a partition reset: a basting scoped to the partition goes, and the ports go on. -/
def State.resetEnd (s : State) (p : Nat) : State :=
  ((if s.ptn.phase ≠ .idle ∧ s.ptn.partScope ∧ s.ptn.part.val = p then s.unpickWith 0 0 0 none else s).hostPump 0).hostPump 1

theorem State.partReset_of_fresh {s : State} {p : Nat} (fresh : (s.part p).resetting = false) :
    s.partReset p = ((((s.epochReset p).abandonStep p).clearOwned p).dropQueued p).resetEnd p := by
  unfold State.partReset
  exact if_neg (by simp [fresh])

section
variable {s t : State} (h : s.purges t)
include h

theorem State.purges.ptn : t.ptn = s.ptn := by rw [h.rest]
theorem State.purges.port : t.port = s.port := by funext q; rw [State.port, h.rest, State.port]
theorem State.purges.part : t.part = s.part := by funext q; rw [State.part, h.rest, State.part]
theorem State.purges.group : t.group = s.group := by funext g; rw [State.group, h.rest, State.group]

end

section
variable {s : State} {p : Nat}

theorem State.partReset_eq (fresh : (s.part p).resetting = false) (quiet : s.ptn.phase = .idle)
    (idle : ∀ q, (s.port q).ops = []) :
    s.partReset p = (((((s.resetEntry p).coresWiped p).fitsCleared s.ptn.running p).clearHeld p).dropRequests p).dropQueued p := by
  let m := ((s.resetEntry p).coresWiped p).fitsCleared s.ptn.running p
  let w := ((m.clearHeld p).dropRequests p).dropQueued p
  have hm := ((s.resetEntry p).coresWiped p).fitsCleared_purges s.ptn.running p
  have hw : m.purges w := ((m.clearHeld_purges p).trans (State.dropRequests_purges ..)).trans (State.dropQueued_purges ..)
  have ports (q : Nat) : (m.port q).ops = [] := by rw [hm.port, s.coresWiped_of_resetEntry_port, idle]
  have cleared : (((s.epochReset p).abandonStep p).clearOwned p).dropQueued p = w := by
    have ptn : (s.epochReset p).ptn = s.ptn := by rw [s.epochReset_enters p]
    rw [State.abandonStep_eq, ← State.resetEntry, ptn, State.clearOwned_of_idle ports]
  have phase : w.ptn.phase = .idle := by rw [hw.ptn, hm.ptn, s.coresWiped_of_resetEntry_ptn, quiet]
  have pumped (port : Nat) : w.hostPump port = w := State.hostPump_of_idle (by rw [hw.port, ports])
  rw [State.partReset_of_fresh fresh, cleared, State.resetEnd, if_neg (fun h => h.1 phase), pumped, pumped]

theorem State.coresWiped_purges_partReset (fresh : (s.part p).resetting = false) (quiet : s.ptn.phase = .idle)
    (idle : ∀ q, (s.port q).ops = []) : ((s.resetEntry p).coresWiped p).purges (s.partReset p) := by
  rw [State.partReset_eq fresh quiet idle]
  exact (((State.fitsCleared_purges ..).trans (State.clearHeld_purges ..)).trans (State.dropRequests_purges ..)).trans
    (State.dropQueued_purges ..)

theorem State.out_partReset (fresh : (s.part p).resetting = false) (quiet : s.ptn.phase = .idle)
    (idle : ∀ q, (s.port q).ops = []) {e : Nat × OutReq} (he : e ∈ (s.partReset p).spl.out) : e.2.part ≠ p := by
  rw [State.partReset_eq fresh quiet idle, State.dropQueued_out] at he
  simpa using (List.mem_filter.mp he).2

end

/-! ### Its first updates -/

theorem rg_of_regs {s t : State} (h : t.regs = s.regs) (k : Nat) : t.rg k = s.rg k := sameRegs_of_regs h [] k (by simp)

theorem State.rg_epochReset (s : State) (p k : Nat) :
    (s.epochReset p).rg k = ((s.epochAdvanced p).rbSet Reg.BRUP_PRESET_BUSY p true).rg k := by
  rw [State.epochReset, State.partMap, State.rg_partSet]

theorem State.rg_epochReset_other (s : State) {p k : Nat} (epoch : k ≠ Reg.PTN_EPOCH + 4 * p) (discards : k ≠ Reg.BRUP_DISCARDS)
    (busy : k ≠ Reg.BRUP_PRESET_BUSY) : (s.epochReset p).rg k = s.rg k := by
  rw [State.rg_epochReset, State.rbSet, rg_rfSet_other _ _ _ _ busy, State.epochAdvanced, rg_rAdd_other _ _ _ _ discards,
    rg_rAdd_other _ _ _ _ epoch]

theorem State.epoch_epochAdvanced (s : State) (p : Nat) : (s.epochAdvanced p).epoch p = (s.epoch p + 1) % 2 ^ 16 := by
  have discards : Reg.PTN_EPOCH + 4 * p ≠ Reg.BRUP_DISCARDS := by simp only [Reg.PTN_EPOCH, Reg.BRUP_DISCARDS]; omega
  rw [State.epoch, State.rf, State.epochAdvanced, rg_rAdd_other _ _ _ _ discards]
  exact rf_rAdd_same s _ _ _ _ (by decide) (by decide)

theorem State.epoch_epochReset (s : State) (p : Nat) : (s.epochReset p).epoch p = (s.epochAdvanced p).epoch p := by
  have busy : Reg.PTN_EPOCH + 4 * p ≠ Reg.BRUP_PRESET_BUSY := by simp only [Reg.PTN_EPOCH, Reg.BRUP_PRESET_BUSY]; omega
  rw [State.epoch, State.rf, State.rg_epochReset, State.rbSet, rg_rfSet_other _ _ _ _ busy]
  rfl

theorem State.rb_epochReset_busy (s : State) {p : Nat} (h : p < 16) : (s.epochReset p).rb Reg.BRUP_PRESET_BUSY p = true := by
  rw [State.rb, State.rg_epochReset]
  exact rb_rbSet_same _ _ p true (by omega)

theorem State.rg_stepLeft_other (s : State) {p k : Nat} (lag : k ≠ Reg.TICK_LAG + 0x20 * p) : (s.stepLeft p).rg k = s.rg k :=
  rg_rgSet_other s _ lag

theorem State.rg_stepLeft_lag (s : State) (p : Nat) : (s.stepLeft p).rg (Reg.TICK_LAG + 0x20 * p) = 0 := rg_rgSet_same s _ _

theorem State.rg_stepDropped_other (s : State) {p k : Nat} (resident : k ≠ Reg.TICK_RESIDENT + 0x20 * p) :
    (s.stepDropped p).rg k = (s.stepLeft p).rg k := rg_rfSet_other _ _ _ _ resident

theorem State.rf_stepDropped_resident (s : State) (p : Nat) :
    (s.stepDropped p).rf (Reg.TICK_RESIDENT + 0x20 * p) 23 0 = 0 := rf_rfSet_same _ _ _ _ _ (by decide) (by decide)

@[simp] theorem State.epochReset_bar4 (s : State) (p : Nat) : (s.epochReset p).bar4 = s.bar4 := by
  simp only [State.epochReset, State.epochAdvanced, State.partMap, State.partSet_bar4, State.rbSet_bar4, State.rAdd, State.rfSet_bar4]
@[simp] theorem State.stepDropped_bar4 (s : State) (p : Nat) : (s.stepDropped p).bar4 = (s.stepLeft p).bar4 := rfl
theorem State.stepLeft_bar4 (s : State) (p : Nat) : (s.stepLeft p).bar4 = writeCells s.bar4 (ctlPage p + 0xC) (leBytes 0 4) := rfl

theorem State.resetEntry_bar4 (s : State) (p : Nat) :
    (s.resetEntry p).bar4 = writeCells s.bar4 (ctlPage p + 0xC) (leBytes 0 4) := by
  rw [State.resetEntry, State.stepDropped_bar4, State.stepLeft_bar4, State.epochReset_bar4]

theorem State.part_epochAdvanced (s : State) (p q : Nat) :
    ((s.epochAdvanced p).rbSet Reg.BRUP_PRESET_BUSY p true).part q = s.part q := by
  rw [State.part, State.rbSet_parts, State.epochAdvanced, State.rAdd, State.rfSet_parts, State.rAdd, State.rfSet_parts, State.part]

theorem State.part_epochReset_same (s : State) (p : Nat) : (s.epochReset p).part p =
    { s.part p with resetting := true, resetEpoch := some ((s.epochAdvanced p).epoch p) } := by
  rw [State.epochReset, State.partMap, State.part_partSet_same, State.part_epochAdvanced]

theorem State.part_epochReset_other (s : State) {p q : Nat} (h : q ≠ p) : (s.epochReset p).part q = s.part q := by
  rw [State.epochReset, State.partMap, State.part_partSet_other _ _ h, State.part_epochAdvanced]

theorem State.part_stepLeft_same (s : State) (p : Nat) : (s.stepLeft p).part p = (s.part p).abandoned := State.part_partSet_same ..

theorem State.part_stepLeft_other (s : State) {p q : Nat} (h : q ≠ p) : (s.stepLeft p).part q = s.part q :=
  State.part_partSet_other _ _ h

theorem State.part_stepDropped_same (s : State) (p : Nat) :
    (s.stepDropped p).part p = { (s.stepLeft p).part p with residents := [] } := State.part_partSet_same ..

theorem State.part_stepDropped_other (s : State) {p q : Nat} (h : q ≠ p) : (s.stepDropped p).part q = (s.stepLeft p).part q :=
  State.part_partSet_other _ _ h

theorem State.part_resetEntry_same (s : State) (p : Nat) : (s.resetEntry p).part p =
    { Part.abandoned { s.part p with resetting := true, resetEpoch := some ((s.epochAdvanced p).epoch p) } with residents := [] } := by
  rw [State.resetEntry, State.part_stepDropped_same, State.part_stepLeft_same, State.part_epochReset_same]

theorem State.part_resetEntry_other (s : State) {p q : Nat} (h : q ≠ p) : (s.resetEntry p).part q = s.part q := by
  rw [State.resetEntry, State.part_stepDropped_other _ h, State.part_stepLeft_other _ h, State.part_epochReset_other _ h]

/-! ### What it leaves -/

theorem State.mem_coresOf {s : State} {p c : Nat} (owned : s.corePart c = some p) (h : c < 64) : c ∈ s.coresOf p := by
  have found := List.find?_some owned
  simp only [Bool.and_eq_true] at found
  exact List.mem_filter.mpr ⟨List.mem_range.mpr h, found.2⟩

theorem State.group_coreMap (s : State) (c : Nat) (f : CoreSt → CoreSt) (g : Nat) : (s.coreMap c f).group g = s.group g := rfl

theorem State.group_coresWiped_free {s : State} {p c slot : Nat} (mem : c ∈ s.coresOf p) (h : slot < 64) :
    ((s.coresWiped p).group (gix c slot)).st = .free := by
  refine foldl_establishes (I := fun _ => True) (P := fun u : State => (u.group (gix c slot)).st = .free)
    (fun _ _ _ => trivial) (fun u d _ free => ?_) (fun u _ => ?_) mem trivial
  · rw [State.group_coreMap, State.group_coreWipe]
    split
    · rfl
    · exact free
  · rw [State.group_coreMap, u.group_coreWipe_free c h]

section
variable {s : State} {p : Nat} (fresh : (s.part p).resetting = false) (quiet : s.ptn.phase = .idle)
  (idle : ∀ q, (s.port q).ops = [])
include fresh quiet idle

theorem State.partReset_rest : s.partReset p = { (s.resetEntry p).coresWiped p with
    regs := (s.partReset p).regs, setAt := (s.partReset p).setAt, reply := (s.partReset p).reply, lin := (s.partReset p).lin,
    jig := (s.partReset p).jig, spl := (s.partReset p).spl, fit := (s.partReset p).fit } :=
  (State.coresWiped_purges_partReset fresh quiet idle).rest

/-- Registers below the lining's that only the first updates of a reset touch. -/
theorem State.rg_partReset {k : Nat} (lt : k < Reg.LIN_PINRESULT) (ne : k ≠ Reg.BRUP_DISCARDS) :
    (s.partReset p).rg k = (s.resetEntry p).rg k :=
  ((State.coresWiped_purges_partReset fresh quiet idle).regs k lt ne).trans ((State.coresWiped_sheds _ p).regs k lt ne)

theorem State.rg_partReset_entered {k : Nat} (lt : k < Reg.LIN_PINRESULT) (ne : k ≠ Reg.BRUP_DISCARDS)
    (resident : k ≠ Reg.TICK_RESIDENT + 0x20 * p) (lag : k ≠ Reg.TICK_LAG + 0x20 * p) :
    (s.partReset p).rg k = (s.epochReset p).rg k := by
  rw [State.rg_partReset fresh quiet idle lt ne, State.resetEntry, State.rg_stepDropped_other _ resident,
    State.rg_stepLeft_other _ lag]

theorem State.epoch_partReset (h : p < 16) : (s.partReset p).epoch p = (s.epochAdvanced p).epoch p := by
  rw [State.epoch, State.rf, State.rg_partReset_entered fresh quiet idle]
  · exact s.epoch_epochReset p
  all_goals simp only [Reg.PTN_EPOCH, Reg.LIN_PINRESULT, Reg.BRUP_DISCARDS, Reg.TICK_RESIDENT, Reg.TICK_LAG]; omega

theorem State.rg_partReset_proofA {i : Nat} (h : p < 16) (hi : i < 4) :
    (s.partReset p).rg (Reg.TICK_PROOF_A + 0x10 * p + 4 * i) = s.rg (Reg.TICK_PROOF_A + 0x10 * p + 4 * i) := by
  rw [State.rg_partReset_entered fresh quiet idle, State.rg_epochReset_other]
  all_goals
    simp only [Reg.TICK_PROOF_A, Reg.PTN_EPOCH, Reg.LIN_PINRESULT, Reg.BRUP_DISCARDS, Reg.BRUP_PRESET_BUSY, Reg.TICK_RESIDENT,
      Reg.TICK_LAG]
    omega

theorem State.rb_partReset_busy (h : p < 16) : (s.partReset p).rb Reg.BRUP_PRESET_BUSY p = true := by
  rw [State.rb, State.rg_partReset_entered fresh quiet idle]
  · exact s.rb_epochReset_busy h
  all_goals simp only [Reg.BRUP_PRESET_BUSY, Reg.LIN_PINRESULT, Reg.BRUP_DISCARDS, Reg.TICK_RESIDENT, Reg.TICK_LAG]; omega

theorem State.rf_partReset_resident (h : p < 16) : (s.partReset p).rf (Reg.TICK_RESIDENT + 0x20 * p) 23 0 = 0 := by
  rw [State.rf, State.rg_partReset fresh quiet idle]
  · exact State.rf_stepDropped_resident _ p
  all_goals simp only [Reg.TICK_RESIDENT, Reg.LIN_PINRESULT, Reg.BRUP_DISCARDS]; omega

theorem State.rg_partReset_lag (h : p < 16) : (s.partReset p).rg (Reg.TICK_LAG + 0x20 * p) = 0 := by
  rw [State.rg_partReset fresh quiet idle, State.resetEntry, State.rg_stepDropped_other]
  · exact State.rg_stepLeft_lag _ p
  all_goals simp only [Reg.TICK_LAG, Reg.TICK_RESIDENT, Reg.LIN_PINRESULT, Reg.BRUP_DISCARDS]; omega

theorem State.partReset_ptn : (s.partReset p).ptn = s.ptn :=
  (State.coresWiped_purges_partReset fresh quiet idle).ptn.trans (s.coresWiped_of_resetEntry_ptn p)

theorem State.partReset_hbm : (s.partReset p).hbm = s.hbm := by
  rw [State.partReset_rest fresh quiet idle, (State.coresWiped_sheds _ p).rest, s.resetEntry_enters p]

theorem State.partReset_tick : (s.partReset p).tick = s.tick := by
  rw [State.partReset_rest fresh quiet idle, (State.coresWiped_sheds _ p).rest, s.resetEntry_enters p]

theorem State.partReset_bar4 : (s.partReset p).bar4 = writeCells s.bar4 (ctlPage p + 0xC) (leBytes 0 4) := by
  rw [State.partReset_rest fresh quiet idle, (State.coresWiped_sheds _ p).rest, s.resetEntry_bar4 p]

theorem State.part_partReset (q : Nat) : (s.partReset p).part q = (s.resetEntry p).part q := by
  rw [(State.coresWiped_purges_partReset fresh quiet idle).part, State.part, (State.coresWiped_sheds _ p).rest, State.part]

theorem State.group_partReset_free {c slot : Nat} (owned : s.corePart c = some p) (hc : c < 64) (hs : slot < 64) :
    ((s.partReset p).group (gix c slot)).st = .free := by
  rw [(State.coresWiped_purges_partReset fresh quiet idle).group]
  have ptn : (s.resetEntry p).ptn = s.ptn := by rw [s.resetEntry_enters p]
  have mem : c ∈ (s.resetEntry p).coresOf p := by
    rw [State.coresOf, ptn]
    exact State.mem_coresOf owned hc
  exact State.group_coresWiped_free mem hs

end

theorem setBits_shiftLeft (p : Fin 16) : setBits (1#16 <<< p.val).toNat 16 = [p.val] := by
  revert p
  decide

/-- PRESET with the bit of one partition, before READY or past it with no commit due. -/
theorem exec_partitionReset_one {f : Func} {s : State} (ready : s.mustWait (portOf f) = false) (pf : isPf f = true) (p : Fin 16)
    (noCommit : s.tick.en = false ∨ s.ptn.commitDue = false) :
    exec (.partitionReset f (1#16 <<< p.val)) s = .next
      (if s.tick.en = true ∧ s.ptn.running.enabled p.val = true then s.partReset p.val else s.brupRefused) := by
  refine congrArg Host.Outcome.next ((State.inOrder_of_ready ready ..).trans ?_)
  simp only [setBits_shiftLeft, pf]
  cases on : s.tick.en
  · rfl
  · have due : s.ptn.commitDue = false := by simpa [on] using noCommit
    simp [due]

theorem exec_partitionReset_resets {f : Func} {s : State} (ready : s.mustWait (portOf f) = false) (pf : isPf f = true) (p : Fin 16)
    (on : s.tick.en = true) (due : s.ptn.commitDue = false) (enabled : s.ptn.running.enabled p.val = true)
    (fresh : (s.part p.val).resetting = false) (quiet : s.ptn.phase = .idle) (idle : ∀ q, (s.port q).ops = []) :
    let n := p.val
    ∃ t, exec (.partitionReset f (1#16 <<< n)) s = .next t ∧
      t.epoch n = (s.epoch n + 1) % 2 ^ 16 ∧ (t.part n).resetEpoch = some (t.epoch n) ∧
      (∀ i, i < 4 → t.rg (Reg.TICK_PROOF_A + 0x10 * n + 4 * i) = s.rg (Reg.TICK_PROOF_A + 0x10 * n + 4 * i)) ∧
      t.rb Reg.BRUP_PRESET_BUSY n = true ∧ (t.part n).resetting = true ∧
      (t.part n).running = false ∧ (t.part n).residents = [] ∧ t.rf (Reg.TICK_RESIDENT + 0x20 * n) 23 0 = 0 ∧
      t.rg (Reg.TICK_LAG + 0x20 * n) = 0 ∧ (∀ q, q ≠ n → t.part q = s.part q) ∧
      (∀ c, s.corePart c = some n → c < 64 → ∀ slot, slot < 64 → (t.group (gix c slot)).st = .free) ∧
      (∀ e, e ∈ t.spl.out → e.2.part ≠ n) ∧ t.hbm = s.hbm ∧ t.ptn = s.ptn ∧ t.tick = s.tick ∧
      leNat (readCells t.bar4 (ctlPage n + 0xC) 4) = 0 ∧
      (∀ a, (a < ctlPage n + 0xC ∨ ctlPage n + 0x10 ≤ a) → mget t.bar4 a 0 = mget s.bar4 a 0) := by
  intro n
  have part : ∀ q, (s.partReset n).part q = (s.resetEntry n).part q := State.part_partReset fresh quiet idle
  have same := (part n).trans (s.part_resetEntry_same n)
  have epoch : (s.partReset n).epoch n = (s.epochAdvanced n).epoch n := State.epoch_partReset fresh quiet idle p.isLt
  have bar4 : (s.partReset n).bar4 = writeCells s.bar4 (ctlPage n + 0xC) (leBytes 0 4) := State.partReset_bar4 fresh quiet idle
  have zero : readCells (s.partReset n).bar4 (ctlPage n + 0xC) 4 = leBytes 0 4 := by rw [bar4]; exact readCells_writeCells ..
  refine ⟨s.partReset n, ?_, epoch.trans (s.epoch_epochAdvanced n), by rw [same, epoch]; rfl,
    fun i hi => State.rg_partReset_proofA fresh quiet idle p.isLt hi, State.rb_partReset_busy fresh quiet idle p.isLt,
    by rw [same]; rfl, by rw [same]; rfl, by rw [same], State.rf_partReset_resident fresh quiet idle p.isLt,
    State.rg_partReset_lag fresh quiet idle p.isLt, fun q hq => (part q).trans (s.part_resetEntry_other hq),
    fun c owned hc slot hs => State.group_partReset_free fresh quiet idle owned hc hs,
    fun e he => State.out_partReset fresh quiet idle he, State.partReset_hbm fresh quiet idle,
    State.partReset_ptn fresh quiet idle, State.partReset_tick fresh quiet idle, by rw [zero]; rfl, fun a ha => ?_⟩
  · rw [exec_partitionReset_one ready pf p (.inr due), if_pos ⟨on, enabled⟩]
  · rw [bar4, mget_writeCells_other _ _ _ _ (by simpa using ha)]

/-- Only registers and the times of their events differ. -/
def State.sameButEvents (s t : State) : Prop := t = { s with regs := t.regs, setAt := t.setAt }

theorem State.sameButEvents.trans {s t u : State} (h : s.sameButEvents t) (k : t.sameButEvents u) : s.sameButEvents u :=
  Eq.trans k (congrArg (fun x : State => { x with regs := u.regs, setAt := u.setAt }) h)

theorem State.rfSet_sameButEvents (s : State) (k hi lo v : Nat) : s.sameButEvents (s.rfSet k hi lo v) := rfl
theorem State.evSet_sameButEvents (s : State) (k i : Nat) : s.sameButEvents (s.evSet k i) := rfl

theorem State.sameButEvents.onlyRegs {s t : State} (h : s.sameButEvents t) {ks : List Nat} (regs : sameRegs ks s t) :
    onlyRegs ks s t := ⟨regs, by rw [h]⟩

theorem onlyRegs_evSet (s : State) (k i : Nat) : onlyRegs [k] s (s.evSet k i) :=
  (s.evSet_sameButEvents k i).onlyRegs (sameRegs_evSet s k i)

theorem exec_partitionReset_refused {f : Func} {s : State} (ready : s.mustWait (portOf f) = false) (pf : isPf f = true) (p : Fin 16)
    (off : s.tick.en = false ∨ (s.ptn.commitDue = false ∧ s.ptn.running.enabled p.val = false)) :
    ∃ t, exec (.partitionReset f (1#16 <<< p.val)) s = .next t ∧ t.rb Reg.BRUP_STATUS 16 = true ∧ onlyRegs [Reg.BRUP_STATUS] s t := by
  refine ⟨s.brupRefused, ?_, rb_evSet_same s _ _ (by decide), onlyRegs_evSet s _ _⟩
  rw [exec_partitionReset_one ready pf p (off.imp_right And.left), if_neg]
  rintro ⟨on, enabled⟩
  simp [on, enabled] at off

theorem exec_partitionResetDone_ends {s : State} {p : Fin 16} (busy : (s.part p.val).resetting = true) :
    ∃ t, exec (.partitionResetDone p) s = .next t ∧
      t.part p.val = { s.part p.val with resetting := false } ∧ t.rb Reg.BRUP_PRESET_BUSY p.val = false ∧
      (∀ q, q ≠ p.val → t.part q = s.part q) ∧ { t with parts := s.parts, regs := s.regs } = s :=
  ⟨_, congrArg Host.Outcome.next (if_pos busy), State.part_partSet_same .., rb_rbSet_same _ _ _ _ (by omega),
    fun _ h => State.part_partSet_other _ _ h, rfl⟩

/-! ## A module reset (R461, R462) -/

theorem exec_modrst_requests {f : Func} {s : State} (ready : s.mustWait (portOf f) = false) (pf : isPf f = true)
    (none : s.brup.resetAt = none) : ∃ t, exec (.modrst f 0xD1) s = .next t ∧
      t.brup = { s.brup with resetAt := some (s.now + 10000) } ∧ { t with brup := s.brup } = s :=
  ⟨_, congrArg Host.Outcome.next ((State.inOrder_of_ready ready ..).trans (if_pos (by simp [pf, none]))), rfl, rfl⟩

theorem exec_modrst_other_key {f : Func} {s : State} (ready : s.mustWait (portOf f) = false) {key : BitVec 8} (other : key ≠ 0xD1) :
    exec (.modrst f key) s = .next s := by
  have unmatched : (key == 0xD1) = false := beq_false_of_ne other
  refine congrArg Host.Outcome.next ((State.inOrder_of_ready ready ..).trans ?_)
  simp only [unmatched, Bool.and_false, Bool.false_and, Bool.false_eq_true, if_false]

@[simp] theorem State.limitUpdate_now (s : State) : s.limitUpdate.now = s.now := by rw [s.limitUpdate_sameButRegs]
@[simp] theorem State.limitUpdate_brup (s : State) : s.limitUpdate.brup = s.brup := by rw [s.limitUpdate_sameButRegs]
@[simp] theorem State.limitUpdate_esc (s : State) : s.limitUpdate.esc = s.esc := by rw [s.limitUpdate_sameButRegs]

@[simp] theorem State.moduleReset_now (s : State) (cause : Nat) : (s.moduleReset cause).now = s.now := by
  simp only [State.moduleReset, State.rfSet_now, State.limitUpdate_now]

@[simp] theorem State.moduleReset_brup (s : State) (cause : Nat) : (s.moduleReset cause).brup = {} := by
  simp only [State.moduleReset, State.rfSet_brup, State.limitUpdate_brup, State.reset]

@[simp] theorem State.moduleReset_esc (s : State) (cause : Nat) : (s.moduleReset cause).esc =
    { made := s.esc.made + 1, moduleKey := s.esc.made + 1, standby := Config.pick s.free % 2 == 1 } := by
  simp only [State.moduleReset, State.rfSet_esc, State.limitUpdate_esc, State.reset]

theorem exec_moduleReset_requested {s : State} {u : Nat} (due : s.brup.resetAt = some u) (cycles : Nat) :
    ∃ t, exec (.moduleReset 10 cycles) s = .next t ∧ t.now = max s.now u ∧ t.rf Reg.PWR_LAST_RESET 3 0 = 10 ∧
      t.brup = {} ∧ t.esc.keys = [] ∧ t.esc.moduleKey = s.esc.made + 1 ∧ t.fuses = s.fuses := by
  refine ⟨(s.at u).moduleReset 10, ?_, (s.at u).moduleReset_now 10, (s.at u).rf_moduleReset_lastReset (by decide),
    (s.at u).moduleReset_brup 10, by rw [State.moduleReset_esc], by rw [State.moduleReset_esc]; rfl, (s.at u).moduleReset_fuses 10⟩
  have run : exec (.moduleReset 10 cycles) s = execModuleReset 10 cycles s := rfl
  rw [run, execModuleReset, if_neg (fun h => absurd h.1 (by decide)), if_pos rfl, due]

/-! ## A core reset (R467) -/

theorem State.dropTaken_sameButRegs (s : State) (c : Nat) (p : Option Nat) : s.sameButRegs (s.dropTaken c p) := by
  cases p with
  | none => rfl
  | some p => exact s.rfSet_sameButRegs ..

theorem State.rgSet_sameButRegs (s : State) (k : Nat) (v : Word) : s.sameButRegs (s.rgSet k v) := rfl

/-- Clearing the counts of a core changes registers only. -/
theorem State.coreWipe_sameButRegs (s : State) (c : Nat) : (s.coreEmptied c).sameButRegs (s.coreWipe c) := by
  rw [State.coreWipe_eq]
  exact foldl_related (R := State.sameButRegs) (fun _ => rfl) State.sameButRegs_trans
    (fun u _ => u.rgSet_sameButRegs _ _) coreCounts _

theorem State.core_coreEmptied_same (s : State) (c : Nat) :
    ((s.coreEmptied c).core c).queue = [] ∧ ((s.coreEmptied c).core c).bars = [] := by
  let u := ({ s with groups := mclear s.groups (gix c 0) 64 } : State).forgetTickets (fun t => ofCore c t.ask.agent)
  let v := u.coreMap c (fun x => { x with bars := [], activeSet := [] })
  have barred : v.core c = { u.core c with bars := [], activeSet := [] } := State.core_coreSet_same ..
  have emptied : (s.coreEmptied c).core c = { v.core c with
      queue := [], run := [], stalled := [], tiles := [], actBuf := [], ctrs := [], slots := [], flags := [], binds := [] } :=
    State.core_coreSet_same ..
  rw [emptied, barred]
  exact ⟨rfl, rfl⟩

theorem State.core_coreEmptied_other (s : State) {c d : Nat} (h : d ≠ c) : (s.coreEmptied c).core d = s.core d :=
  let u := ({ s with groups := mclear s.groups (gix c 0) 64 } : State).forgetTickets (fun t => ofCore c t.ask.agent)
  (State.core_coreSet_other (u.coreMap c (fun x => { x with bars := [], activeSet := [] })) _ h).trans
    (State.core_coreSet_other u _ h)

theorem State.core_coreWipe (s : State) (c d : Nat) : (s.coreWipe c).core d = (s.coreEmptied c).core d := by
  rw [State.core, s.coreWipe_sameButRegs c, State.core]

theorem State.coreWipe_lin (s : State) (c : Nat) : { (s.coreWipe c).lin with tickets := s.lin.tickets } = s.lin := by
  rw [s.coreWipe_sameButRegs c]
  rfl

theorem State.coreEmptied_pwr (s : State) (c : Nat) : (s.coreEmptied c).pwr = s.pwr := by
  simp only [State.coreEmptied, State.panelReset, State.coreMap, State.coreSet_pwr, State.forgetTickets]

theorem State.coreWipe_pwr (s : State) (c : Nat) : (s.coreWipe c).pwr = s.pwr :=
  (congrArg State.pwr (s.coreWipe_sameButRegs c)).trans (s.coreEmptied_pwr c)

theorem exec_coreReset_clears {f : Func} {s : State} (ready : s.mustWait (portOf f) = false) (pf : isPf f = true) (c : Fin 64) :
    ∃ t, exec (.coreReset f c) s = .next t ∧
      (∀ slot, slot < 64 → (t.group (gix c.val slot)).st = .free) ∧ (t.core c.val).queue = [] ∧ (t.core c.val).bars = [] ∧
      (∀ d, d ≠ c.val → t.core d = s.core d) ∧ (∀ d slot, d ≠ c.val → slot < 64 → t.group (gix d slot) = s.group (gix d slot)) ∧
      t.parks = s.parks ∧ t.hbm = s.hbm ∧ { t.lin with tickets := s.lin.tickets } = s.lin ∧ t.pwr = s.pwr := by
  let u := s.dropTaken c.val (s.corePart c.val)
  have kept : u = { s with regs := u.regs } := s.dropTaken_sameButRegs ..
  have core : ∀ d, u.core d = s.core d := fun d => by rw [kept]; rfl
  have group : ∀ g, u.group g = s.group g := fun g => by rw [kept]; rfl
  have rest := (u.coreWipe_sheds c.val).rest
  obtain ⟨queue, bars⟩ := u.core_coreEmptied_same c.val
  rw [← u.core_coreWipe c.val] at queue bars
  refine ⟨u.coreWipe c.val, congrArg Host.Outcome.next ((State.inOrder_of_ready ready ..).trans (if_pos pf)),
    fun slot h => u.group_coreWipe_free _ h, queue, bars, fun d h => ?_,
    fun d slot hd hs => ?_, ?_, ?_, ?_, ?_⟩
  · rw [u.core_coreWipe c.val, u.core_coreEmptied_other h, core]
  · rw [State.group_coreWipe, if_neg (by unfold gix; omega), group]
  · rw [rest, kept]
  · rw [rest, kept]
  · have lin : u.lin = s.lin := by rw [kept]
    exact lin ▸ u.coreWipe_lin c.val
  · rw [u.coreWipe_pwr, kept]

/-! ## A compute-die reset (R467, Table 21.3) -/

theorem State.sheds.mono {b c : Nat} {s t : State} (h : s.sheds b t) (le : c ≤ b) : s.sheds c t := ⟨h.rest, h.regs.mono le⟩

theorem State.dropTaken_sheds (s : State) (c : Nat) (p : Option Nat) : s.sheds Reg.TICK_PROOF_B (s.dropTaken c p) := by
  cases p with
  | none => exact .refl _ s
  | some p => exact ⟨rfl, s.keepsBelow_rfSet _ _ _ (.inl (Nat.le_add_right ..))⟩

theorem State.coreClear_sheds (s : State) (c : Nat) : s.sheds Reg.TICK_PROOF_B (s.coreClear c) :=
  (s.dropTaken_sheds c _).trans ((State.coreWipe_sheds _ c).mono (by decide))

theorem State.coreClear_pwr (s : State) (c : Nat) : (s.coreClear c).pwr = s.pwr := by
  rw [State.coreClear, State.coreWipe_pwr, s.dropTaken_sameButRegs c]

theorem State.domSet_sheds (b : Nat) (s : State) (p : Nat) (x : Domain) : s.sheds b (s.domSet p x) :=
  ⟨rfl, State.keepsBelow_of_regs _ rfl⟩

/-- The powered hours of a core noted and its request for power gone. -/
def State.hoursNoted (s : State) (p : Nat) : State :=
  let x := s.dom p
  let on := x.st == .up || x.st == .stopped
  { s with
    nor := { s.nor with hours := if on then mset s.nor.hours p (mget s.nor.hours p 0 + (s.now - x.upSince)) 0 else s.nor.hours }
    pwr := { s.pwr with queue := s.pwr.queue.filter (· != p) } }

theorem State.hoursNoted_sheds (b : Nat) (s : State) (p : Nat) : s.sheds b (s.hoursNoted p) :=
  ⟨rfl, State.keepsBelow_of_regs _ rfl⟩

theorem State.powerDown_sheds (b : Nat) (s : State) (p : Nat) (st : DomainState) : s.sheds b (s.powerDown p st) :=
  (s.hoursNoted_sheds b p).trans ((s.hoursNoted p).domSet_sheds b p { st := st, phases := (s.dom p).phases })

theorem State.dom_powerDown_same (s : State) (p : Nat) (st : DomainState) : ((s.powerDown p st).dom p).st = st := by
  rw [State.powerDown, State.dom_domSet_same]

theorem State.dom_powerDown_other (s : State) {p q : Nat} (st : DomainState) (h : q ≠ p) : (s.powerDown p st).dom q = s.dom q :=
  State.dom_domSet_other _ _ h

/-- The domain of a core that has just asked for power. -/
def State.askedDom (s : State) (p : Nat) : Domain := { s.dom p with st := .waiting, asked := s.now, seen := 0, slow := false }

/-- The queue of requests with that of core `p`. -/
def State.askQueued (s : State) (p : Nat) : State := { s with pwr := { s.pwr with queue := s.askAt p s.pwr.queue } }

theorem State.askQueued_sheds (b : Nat) (s : State) (p : Nat) : s.sheds b (s.askQueued p) :=
  ⟨rfl, State.keepsBelow_of_regs _ rfl⟩

theorem State.dom_askQueued (s : State) (p : Nat) : (s.askQueued p).dom = s.dom := rfl

theorem State.powerAsk_eq (s : State) (p : Nat) : s.powerAsk p =
    if (s.dom p).st ≠ .unpowered ∨ s.coreLost p then s else (s.domSet p (s.askedDom p)).askQueued p := rfl

theorem State.powerAsk_sheds (b : Nat) (s : State) (p : Nat) : s.sheds b (s.powerAsk p) := by
  rw [State.powerAsk_eq]
  split
  · exact .refl b s
  · exact (s.domSet_sheds b p _).trans (State.askQueued_sheds ..)

theorem State.dom_powerAsk_other (s : State) {p q : Nat} (h : q ≠ p) : (s.powerAsk p).dom q = s.dom q := by
  rw [State.powerAsk_eq]
  split
  · rfl
  · rw [State.dom_askQueued, State.dom_domSet_other _ _ h]

theorem State.dom_powerAsk_waiting {s : State} {p : Nat} (off : (s.dom p).st = .unpowered) (able : s.coreLost p = false) :
    ((s.powerAsk p).dom p).st = .waiting := by
  rw [State.powerAsk_eq, if_neg (by simp [off, able]), State.dom_askQueued, State.dom_domSet_same]
  rfl

/-- Physical core `p` cleared and powered down, and up again where it is owned and `up` says so. -/
def State.coreCycled (up : Bool) (s : State) (p : Nat) : State :=
  let l := s.logicalOf p
  let u := match l with
    | some c => s.coreClear c
    | none => s
  if (u.dom p).st = .fenced ∨ (u.dom p).st = .stopped then u
  else
    let u := u.powerDown p .unpowered
    if up && ((l.bind u.corePart).isSome) then u.powerAsk p else u

theorem State.resetCores_eq (s : State) (cores : List Nat) (up : Bool) :
    s.resetCores cores up = cores.foldl (State.coreCycled up) s := rfl

/-- The logical core that a physical one serves, cleared. -/
def State.servedCleared (s : State) (p : Nat) : State :=
  match s.logicalOf p with
  | some c => s.coreClear c
  | none => s

theorem State.servedCleared_sheds (s : State) (p : Nat) : s.sheds Reg.TICK_PROOF_B (s.servedCleared p) := by
  unfold State.servedCleared
  split
  · exact s.coreClear_sheds _
  · exact .refl _ s

theorem State.dom_servedCleared (s : State) (p : Nat) : (s.servedCleared p).dom = s.dom := by
  refine State.dom_congr ?_
  unfold State.servedCleared
  split
  · exact s.coreClear_pwr _
  · rfl

theorem State.coreCycled_eq (up : Bool) (s : State) (p : Nat) : s.coreCycled up p =
    if (s.dom p).st = .fenced ∨ (s.dom p).st = .stopped then s.servedCleared p
    else if (up && ((s.logicalOf p).bind s.corePart).isSome) = true then ((s.servedCleared p).powerDown p .unpowered).powerAsk p
    else (s.servedCleared p).powerDown p .unpowered := by
  have part : ((s.servedCleared p).powerDown p .unpowered).corePart = s.corePart := by
    funext c
    rw [State.corePart, (State.powerDown_sheds 0 _ p _).rest, (s.servedCleared_sheds p).rest, State.corePart]
  rw [← s.dom_servedCleared p, ← part]
  rfl

theorem State.coreCycled_sheds (up : Bool) (s : State) (p : Nat) : s.sheds Reg.TICK_PROOF_B (s.coreCycled up p) := by
  have served := s.servedCleared_sheds p
  have down := served.trans (State.powerDown_sheds _ _ p .unpowered)
  rw [State.coreCycled_eq]
  split
  · exact served
  · split
    · exact down.trans (State.powerAsk_sheds ..)
    · exact down

theorem State.dom_coreCycled_other (up : Bool) (s : State) {p q : Nat} (h : q ≠ p) : (s.coreCycled up p).dom q = s.dom q := by
  have served : (s.servedCleared p).dom q = s.dom q := congrFun (s.dom_servedCleared p) q
  rw [State.coreCycled_eq]
  split
  · exact served
  · split
    · rw [State.dom_powerAsk_other _ h, State.dom_powerDown_other _ _ h, served]
    · rw [State.dom_powerDown_other _ _ h, served]

theorem State.resetCores_sheds (s : State) (cores : List Nat) (up : Bool) : s.sheds Reg.TICK_PROOF_B (s.resetCores cores up) :=
  State.foldl_sheds (State.coreCycled_sheds up) cores s

section
variable {s t : State} {b : Nat} (h : s.sheds b t)
include h

theorem State.sheds.ptn : t.ptn = s.ptn := by rw [h.rest]
theorem State.sheds.hbm : t.hbm = s.hbm := by rw [h.rest]

theorem State.sheds.coreLost (p : Nat) : t.coreLost p = s.coreLost p := by
  rw [State.coreLost, h.rest, State.coreLost]

theorem State.sheds.owner (p : Nat) : (t.logicalOf p).bind t.corePart = (s.logicalOf p).bind s.corePart := by
  have part : t.corePart = s.corePart := by
    funext c
    rw [State.corePart, h.ptn, State.corePart]
  rw [part, State.logicalOf, h.ptn, State.logicalOf]

end

/-- The state that the domain of a physical core takes after a reset of its die. -/
def State.cycledTo (s : State) (p : Nat) : DomainState :=
  if ((s.logicalOf p).bind s.corePart).isSome then .waiting else .unpowered

theorem State.dom_coreCycled_same {s : State} {p : Nat} (fenced : (s.dom p).st ≠ .fenced) (stopped : (s.dom p).st ≠ .stopped)
    (able : s.coreLost p = false) : ((s.coreCycled true p).dom p).st = s.cycledTo p := by
  have off := (s.servedCleared p).dom_powerDown_same p .unpowered
  have down := (s.servedCleared_sheds p).trans (State.powerDown_sheds _ _ p .unpowered)
  rw [State.coreCycled_eq, if_neg (by simp [fenced, stopped]), State.cycledTo, Bool.true_and]
  split
  · exact State.dom_powerAsk_waiting off ((down.coreLost p).trans able)
  · exact off

theorem State.dom_resetCores {s : State} {cores : List Nat} {p : Nat} (mem : p ∈ cores) (fenced : (s.dom p).st ≠ .fenced)
    (stopped : (s.dom p).st ≠ .stopped) (able : s.coreLost p = false) :
    ((s.resetCores cores true).dom p).st = s.cycledTo p := by
  let inv := fun u : State => s.sheds Reg.TICK_PROOF_B u ∧ (u.dom p).st ≠ .fenced ∧ (u.dom p).st ≠ .stopped
  have make (u : State) (h : inv u) : ((u.coreCycled true p).dom p).st = s.cycledTo p := by
    obtain ⟨sheds, fenced, stopped⟩ := h
    rw [State.dom_coreCycled_same fenced stopped ((sheds.coreLost p).trans able), State.cycledTo, sheds.owner p, State.cycledTo]
  have target : s.cycledTo p ≠ .fenced ∧ s.cycledTo p ≠ .stopped := by
    unfold State.cycledTo
    split <;> decide
  rw [State.resetCores_eq]
  refine foldl_establishes (I := inv) (P := fun u : State => (u.dom p).st = s.cycledTo p) (fun u q h => ?_) (fun u q h reached => ?_)
    make mem ⟨.refl _ s, fenced, stopped⟩
  · refine ⟨h.1.trans (u.coreCycled_sheds true q), ?_⟩
    by_cases eq : q = p
    · rw [eq, make u h]
      exact target
    · rw [u.dom_coreCycled_other true (Ne.symm eq)]
      exact h.2
  · by_cases eq : q = p
    · rw [eq]
      exact make u h
    · rw [u.dom_coreCycled_other true (Ne.symm eq), reached]

theorem State.dom_resetCores_other {s : State} {cores : List Nat} (up : Bool) {p : Nat} (h : p ∉ cores) :
    (s.resetCores cores up).dom p = s.dom p := by
  rw [State.resetCores_eq]
  exact List.foldlRecOn (motive := fun u : State => u.dom p = s.dom p) cores _ rfl fun u hu q mem =>
    (u.dom_coreCycled_other up (by rintro rfl; exact h mem)).trans hu

theorem mem_coresOfDie (d p : Nat) : p ∈ (List.range 6).map (6 * d + ·) ↔ p / 6 = d := by
  simp only [List.mem_map, List.mem_range]
  constructor
  · rintro ⟨i, lt, rfl⟩
    omega
  · rintro rfl
    exact ⟨p % 6, by omega, by omega⟩

theorem exec_computeDieReset_cycles {f : Func} {s : State} (ready : s.mustWait (portOf f) = false) (pf : isPf f = true)
    {d : BitVec 6} (fitted : d.toNat < 12) : ∃ t, exec (.computeDieReset f d) s = .next t ∧
      (∀ p, p / 6 = d.toNat → (s.dom p).st ≠ .fenced → (s.dom p).st ≠ .stopped → s.coreLost p = false →
        (t.dom p).st = s.cycledTo p) ∧
      (∀ p, p / 6 ≠ d.toNat → t.dom p = s.dom p) ∧ t.hbm = s.hbm ∧ t.ptn = s.ptn := by
  let cores := (List.range 6).map (6 * d.toNat + ·)
  have sheds := s.resetCores_sheds cores true
  refine ⟨s.resetCores cores true,
    congrArg Host.Outcome.next ((State.inOrder_of_ready ready ..).trans (if_pos (by simp [pf, fitted]))),
    fun p hp fenced stopped able => State.dom_resetCores ((mem_coresOfDie _ p).mpr hp) fenced stopped able,
    fun p hp => State.dom_resetCores_other true (fun mem => hp ((mem_coresOfDie _ p).mp mem)), sheds.hbm, sheds.ptn⟩

/-! ## A stack reset starts, or is refused (R468, R469) -/

/-- Phase `n` of a stack reset has just begun (R470). -/
def State.phaseBegan (t : State) (n : Nat) : Prop :=
  t.rf Reg.BRUP_STACK_STAT 6 4 = n ∧ t.rb Reg.BRUP_EVT 1 = true ∧ t.brup.since = t.now

/-- What begins at a change of phase, before its event. -/
def State.phaseSet (s : State) (n : Nat) : State :=
  { s.rfSet Reg.BRUP_STACK_STAT 6 4 n with brup := { s.brup with since := s.now } }

theorem State.stackPhase_eq (s : State) (n : Nat) :
    s.stackPhase n = ((s.phaseSet n).evSet Reg.BRUP_EVT 1).evSet (Reg.IRQ_RAW + 16) 22 :=
  State.raise_high ((s.phaseSet n).evSet Reg.BRUP_EVT 1) 150 (by decide)

theorem State.stackPhase_rest (s : State) (n : Nat) : s.stackPhase n =
    { s with regs := (s.stackPhase n).regs, setAt := (s.stackPhase n).setAt, brup := { s.brup with since := s.now } } := by
  have events : (s.phaseSet n).sameButEvents (s.stackPhase n) := by
    rw [State.stackPhase_eq]
    exact (State.evSet_sameButEvents ..).trans (State.evSet_sameButEvents ..)
  exact Eq.trans events rfl

theorem rf_of_regs {s t : State} (h : t.regs = s.regs) (k hi lo : Nat) : t.rf k hi lo = s.rf k hi lo :=
  sameRegs_rf (sameRegs_of_regs h []) (by simp) hi lo

theorem State.rg_stackPhase (s : State) (n : Nat) {k : Nat} (event : k ≠ Reg.BRUP_EVT) (raised : k ≠ Reg.IRQ_RAW + 16) :
    (s.stackPhase n).rg k = (s.rfSet Reg.BRUP_STACK_STAT 6 4 n).rg k := by
  rw [State.stackPhase_eq, rg_evSet_other _ _ raised, rg_evSet_other _ _ event]
  exact rg_of_regs rfl k

theorem State.rg_stackPhase_other (s : State) (n : Nat) {k : Nat} (stat : k ≠ Reg.BRUP_STACK_STAT) (event : k ≠ Reg.BRUP_EVT)
    (raised : k ≠ Reg.IRQ_RAW + 16) : (s.stackPhase n).rg k = s.rg k :=
  (s.rg_stackPhase n event raised).trans (rg_rfSet_other s _ _ _ stat)

/-- A field of STACK_STAT beside PHASE. -/
theorem State.rf_stackPhase_apart (s : State) (n : Nat) {hi lo : Nat} (apart : 6 < lo ∨ hi < 4) :
    (s.stackPhase n).rf Reg.BRUP_STACK_STAT hi lo = s.rf Reg.BRUP_STACK_STAT hi lo := by
  rw [State.rf, s.rg_stackPhase n (by decide) (by decide)]
  exact rf_rfSet_apart s _ _ _ _ _ _ (by decide) (by decide) apart

theorem State.phaseBegan_stackPhase (s : State) {n : Nat} (h : n < 8) : (s.stackPhase n).phaseBegan n := by
  refine ⟨?_, ?_, ?_⟩
  · rw [State.rf, s.rg_stackPhase n (by decide) (by decide)]
    exact (rf_rfSet_same s _ _ _ _ (by decide) (by decide)).trans (Nat.mod_eq_of_lt h)
  · rw [State.stackPhase_eq, rb_evSet_other _ _ _ (by decide)]
    exact rb_evSet_same _ _ _ (by decide)
  · rw [s.stackPhase_rest n]

/-- The die and the details that STACK_STAT shows from the start of a stack reset. -/
def State.stackNamed (s : State) (k : Nat) : State :=
  ((s.rfSet Reg.BRUP_STACK_STAT 2 0 k).rfSet Reg.BRUP_STACK_STAT 9 8 0).rfSet Reg.BRUP_STACK_STAT 23 16 0

/-- Whether the stack reset under way is forced, noted. -/
def State.forcedSet (s : State) (b : Bool) : State := { s with brup := { s.brup with forced := b } }

theorem State.rf_forcedSet (s : State) (b : Bool) (k hi lo : Nat) : (s.forcedSet b).rf k hi lo = s.rf k hi lo :=
  rf_of_regs rfl k hi lo

theorem State.sameButEvents.forcedSet {s t : State} (h : s.sameButEvents t) (b : Bool) :
    t.forcedSet b = { s with regs := t.regs, setAt := t.setAt, brup := { s.brup with forced := b } } :=
  congrArg (State.forcedSet · b) h

/-- What a stack reset without owners changes before its first phase. -/
def State.stackBegun (s : State) (k : Nat) (drain : Bool) : State := (s.stackNamed k).forcedSet (!drain)

theorem State.rf_stackBegun_die (s : State) (k : Nat) (drain : Bool) :
    (s.stackBegun k drain).rf Reg.BRUP_STACK_STAT 2 0 = k % 2 ^ 3 := by
  rw [State.stackBegun, State.rf_forcedSet, State.stackNamed, rf_rfSet_apart _ _ _ _ _ _ _ (by decide) (by decide) (by decide),
    rf_rfSet_apart _ _ _ _ _ _ _ (by decide) (by decide) (by decide), rf_rfSet_same _ _ _ _ _ (by decide) (by decide)]

theorem State.rf_stackBegun_result (s : State) (k : Nat) (drain : Bool) :
    (s.stackBegun k drain).rf Reg.BRUP_STACK_STAT 9 8 = 0 := by
  rw [State.stackBegun, State.rf_forcedSet, State.stackNamed, rf_rfSet_apart _ _ _ _ _ _ _ (by decide) (by decide) (by decide),
    rf_rfSet_same _ _ _ _ _ (by decide) (by decide), Nat.zero_mod]

theorem State.stackNamed_sameButEvents (s : State) (k : Nat) : s.sameButEvents (s.stackNamed k) :=
  ((s.rfSet_sameButEvents ..).trans (State.rfSet_sameButEvents ..)).trans (State.rfSet_sameButEvents ..)

section
variable {f : Func} {s : State} {d : BitVec 3} {c : Instr} {drain : Bool}

theorem exec_stackCommand (hc : (c, drain) ∈ [(Instr.stackDrain f d, true), (.stackForce f d, false)])
    (ready : s.mustWait (portOf f) = false) : exec c s = .next (s.stackReset f d.toNat drain) := by
  simp only [List.mem_cons, Prod.mk.injEq, List.not_mem_nil, or_false] at hc
  rcases hc with ⟨rfl, rfl⟩ | ⟨rfl, rfl⟩ <;> exact congrArg Host.Outcome.next (State.inOrder_of_ready ready ..)

theorem State.stackRefusal_lt (s : State) (f : Func) (k : Nat) (drain : Bool) : s.stackRefusal f k drain < 2 ^ 8 := by
  unfold State.stackRefusal
  repeat' split
  all_goals decide

theorem exec_stackCommand_refused (hc : (c, drain) ∈ [(Instr.stackDrain f d, true), (.stackForce f d, false)])
    (ready : s.mustWait (portOf f) = false) (pf : isPf f = true) (fitted : d.toNat < 6)
    (refused : s.stackRefusal f d.toNat drain ≠ 0) :
    ∃ t, exec c s = .next t ∧ t.rf Reg.BRUP_STACK_STAT 9 8 = 2 ∧
      t.rf Reg.BRUP_STACK_STAT 23 16 = s.stackRefusal f d.toNat drain ∧ t.rb Reg.BRUP_STATUS 16 = true ∧
      onlyRegs [Reg.BRUP_STACK_STAT, Reg.BRUP_STATUS] s t := by
  let r := s.stackRefusal f d.toNat drain
  let u := s.rfSet Reg.BRUP_STACK_STAT 9 8 2
  let v := u.rfSet Reg.BRUP_STACK_STAT 23 16 r
  have e : s.stackReset f d.toNat drain = v.brupRefused := by
    unfold State.stackReset
    dsimp only
    rw [if_neg (by simp [pf]; omega), if_pos refused]
  have other : Reg.BRUP_STACK_STAT ≠ Reg.BRUP_STATUS := by decide
  have events : s.sameButEvents v.brupRefused :=
    ((s.rfSet_sameButEvents ..).trans (u.rfSet_sameButEvents ..)).trans (v.evSet_sameButEvents ..)
  have regs : sameRegs [Reg.BRUP_STACK_STAT, Reg.BRUP_STATUS] s v.brupRefused :=
    sameRegs_trans (sameRegs_trans (sameRegs_mono (sameRegs_rfSet s _ _ _ _) (by simp))
      (sameRegs_mono (sameRegs_rfSet u _ _ _ _) (by simp))) (sameRegs_mono (sameRegs_evSet v _ _) (by simp))
  refine ⟨v.brupRefused, (exec_stackCommand hc ready).trans (congrArg _ e), ?_, ?_, rb_evSet_same v _ _ (by decide),
    events.onlyRegs regs⟩
  · exact (rf_evSet_other v _ _ _ other).trans ((rf_rfSet_apart u _ _ _ _ _ _ (by decide) (by decide) (by decide)).trans
      (rf_rfSet_same s _ _ _ _ (by decide) (by decide)))
  · exact (rf_evSet_other v _ _ _ other).trans ((rf_rfSet_same u _ _ _ _ (by decide) (by decide)).trans
      (Nat.mod_eq_of_lt (s.stackRefusal_lt ..)))

theorem State.stackReset_unowned (pf : isPf f = true) (fitted : d.toNat < 6) (taken : s.stackRefusal f d.toNat drain = 0)
    (unowned : s.stackOwners d.toNat = []) : s.stackReset f d.toNat drain = (s.stackBegun d.toNat drain).stackPhase 1 := by
  unfold State.stackReset
  dsimp only
  rw [if_neg (by simp [pf]; omega), if_neg (by simp [taken]), unowned, List.foldl_nil, ite_self]
  rfl

theorem exec_stackCommand_starts (hc : (c, drain) ∈ [(Instr.stackDrain f d, true), (.stackForce f d, false)])
    (ready : s.mustWait (portOf f) = false) (pf : isPf f = true) (fitted : d.toNat < 6)
    (taken : s.stackRefusal f d.toNat drain = 0) (unowned : s.stackOwners d.toNat = []) :
    ∃ t, exec c s = .next t ∧ t.phaseBegan 1 ∧
      t.rf Reg.BRUP_STACK_STAT 2 0 = d.toNat ∧ t.rf Reg.BRUP_STACK_STAT 9 8 = 0 ∧ t.brup.forced = !drain ∧ t.hbm = s.hbm ∧
      t.parts = s.parts := by
  let u := s.stackBegun d.toNat drain
  have e : s.stackReset f d.toNat drain = u.stackPhase 1 := State.stackReset_unowned pf fitted taken unowned
  have die := (s.rf_stackBegun_die d.toNat drain).trans (Nat.mod_eq_of_lt d.isLt)
  have clear := s.rf_stackBegun_result d.toNat drain
  have begun : u = _ := (s.stackNamed_sameButEvents d.toNat).forcedSet (!drain)
  refine ⟨u.stackPhase 1, (exec_stackCommand hc ready).trans (congrArg _ e), u.phaseBegan_stackPhase (by decide),
    (u.rf_stackPhase_apart 1 (by decide)).trans die, (u.rf_stackPhase_apart 1 (by decide)).trans clear, ?_, ?_, ?_⟩
  all_goals rw [u.stackPhase_rest 1, begun]

end

/-! ## The phases of a stack reset (R470, Table 21.3) -/

/-- The registers of bring-up lie below those that clearing cores, lining and channels touches. -/
theorem State.phaseBegan_of_kept {s t : State} {b n : Nat} (regs : s.keepsBelow b t) (above : Reg.BRUP_STACK_STAT < b)
    (brup : t.brup = s.brup) (now : t.now = s.now) (began : s.phaseBegan n) : t.phaseBegan n := by
  obtain ⟨phase, event, since⟩ := began
  refine ⟨?_, ?_, ?_⟩
  · rw [State.rf, regs _ above (by decide), ← State.rf, phase]
  · rw [State.rb, regs _ (Nat.lt_trans (by decide) above) (by decide), ← State.rb, event]
  · rw [brup, now, since]

theorem State.sheds.phaseBegan {s t : State} (h : s.sheds Reg.TICK_PROOF_B t) {n : Nat} (began : s.phaseBegan n) : t.phaseBegan n :=
  State.phaseBegan_of_kept h.regs (by decide) (by rw [h.rest]) (by rw [h.rest]) began

theorem State.purges.phaseBegan {s t : State} (h : s.purges t) {n : Nat} (began : s.phaseBegan n) : t.phaseBegan n :=
  State.phaseBegan_of_kept h.regs (by decide) (by rw [h.rest]) (by rw [h.rest]) began

theorem State.linSet_purges (s : State) (l : Lining) : s.purges { s with lin := l } := ⟨rfl, State.keepsBelow_of_regs _ rfl⟩

/-- The die's channels and lining cleared, once its cores are. -/
theorem State.stackClear_purges (s : State) (k : Nat) :
    (s.resetCores ((List.range 12).map (12 * k + ·)) false).purges (s.stackClear k) := by
  unfold State.stackClear
  exact (((State.foldl_purges State.jigClear_purges (engChans k) _).trans (State.foldl_purges State.forgetLine_purges _ _)).trans
    (State.foldl_purges (fun u _ => u.linClear_purges _ _) (List.range 256) _)).trans (State.linSet_purges ..)

theorem State.phaseBegan_stackClear {s : State} {n : Nat} (began : s.phaseBegan n) (k : Nat) : (s.stackClear k).phaseBegan n :=
  (s.stackClear_purges k).phaseBegan ((s.resetCores_sheds _ false).phaseBegan began)

section
variable {s : State} (e : StepEnd) (lanes bad : List Nat)

theorem State.stackNow_of_phase {n : Nat} (phase : s.rf Reg.BRUP_STACK_STAT 6 4 = n) :
    s.stackNow = (s.rf Reg.BRUP_STACK_STAT 2 0, n) := by rw [State.stackNow, phase]

theorem exec_stackPhaseEnd_eq : exec (.stackPhaseEnd e lanes bad) s = execStackPhaseEnd e lanes bad s := rfl

theorem exec_stackPhaseEnd_drains (phase : s.rf Reg.BRUP_STACK_STAT 6 4 = 1) (passed : s.boundarySince = true)
    (unforced : s.brup.forced = false) : ∃ t, exec (.stackPhaseEnd e lanes bad) s = .next t ∧ t.phaseBegan 2 ∧
      s.rf Reg.BRUP_STACK_STAT 2 0 ∈ t.brup.outDies ∧ t.hbm = s.hbm := by
  let k := s.rf Reg.BRUP_STACK_STAT 2 0
  let u := s.outSet k true
  have rest := u.stackPhase_rest 2
  have kept : (u.stackPhase 2).brup.forced = false := by rw [rest]; exact unforced
  refine ⟨u.stackPhase 2, ?_, u.phaseBegan_stackPhase (by decide), ?_, ?_⟩
  · simp only [exec_stackPhaseEnd_eq, execStackPhaseEnd, State.stackNow_of_phase phase, passed, Bool.not_true, Bool.false_eq_true,
      if_false]
    rw [if_neg (ne_true_of_eq_false kept)]
  · rw [rest]
    exact List.mem_append_right _ (List.mem_singleton_self k)
  · rw [rest]
    rfl

theorem exec_stackPhaseEnd_waits (phase : s.rf Reg.BRUP_STACK_STAT 6 4 = 1 ∨ s.rf Reg.BRUP_STACK_STAT 6 4 = 5)
    (early : s.boundarySince = false) : exec (.stackPhaseEnd e lanes bad) s = .next s := by
  rcases phase with phase | phase
  all_goals simp [exec_stackPhaseEnd_eq, execStackPhaseEnd, State.stackNow_of_phase phase, early]

theorem exec_stackPhaseEnd_held (phase : s.rf Reg.BRUP_STACK_STAT 6 4 = 2) (timely : e ≠ .time)
    (held : s.routerHolds (s.rf Reg.BRUP_STACK_STAT 2 0) = true) : exec (.stackPhaseEnd e lanes bad) s = .next s := by
  simp [exec_stackPhaseEnd_eq, execStackPhaseEnd, State.stackNow_of_phase phase, timely, held]

theorem exec_stackPhaseEnd_resets (phase : s.rf Reg.BRUP_STACK_STAT 6 4 = 2)
    (ended : e = .time ∨ s.routerHolds (s.rf Reg.BRUP_STACK_STAT 2 0) = false) :
    ∃ t, exec (.stackPhaseEnd e lanes bad) s = .next t ∧ t.phaseBegan 3 := by
  let k := s.rf Reg.BRUP_STACK_STAT 2 0
  let u := if e = .time then (s.at (s.brup.since + 1000000)).pathReset k else s
  refine ⟨(u.stackPhase 3).stackClear k, ?_, State.phaseBegan_stackClear (u.phaseBegan_stackPhase (by decide)) k⟩
  simp only [exec_stackPhaseEnd_eq, execStackPhaseEnd, State.stackNow_of_phase phase]
  refine congrArg Host.Outcome.next (if_neg ?_)
  rintro ⟨timely, held⟩
  simp [timely, held] at ended

theorem exec_stackPhaseEnd_trains (phase : s.rf Reg.BRUP_STACK_STAT 6 4 = 3) :
    ∃ t, exec (.stackPhaseEnd e lanes bad) s = .next t ∧ t.phaseBegan 4 ∧
      { t with regs := s.regs, setAt := s.setAt, brup := s.brup } = s := by
  refine ⟨s.stackPhase 4, ?_, s.phaseBegan_stackPhase (by decide), ?_⟩
  · simp only [exec_stackPhaseEnd_eq, execStackPhaseEnd, State.stackNow_of_phase phase]
  · rw [s.stackPhase_rest 4]

end

/-! ### Phase 4: what fails -/

/-- A failing core is recorded: in NOR and in BRUP.KAT_CORE (R460). -/
def State.coreRecorded (s : State) (x : Nat) : Prop :=
  x ∈ s.nor.badCores ∧ s.rb (Reg.BRUP_KAT_CORE + 4 * (x / 32)) (x % 32) = true

/-- What recording a core, recording a unit, a free value and the lists of bad slices and banks keep, every failure keeps. -/
theorem State.katFail_keeps {P : State → Prop} (core : ∀ u y, P u → P (u.katCore y)) (unit : ∀ u id, P u → P (u.katUnit id))
    (free : ∀ u : State, P u → P { u with free := u.free + 1 })
    (slices : ∀ (u : State) l, P u → P { u with nor := { u.nor with badSlices := l } })
    (banks : ∀ (u : State) l, P u → P { u with nor := { u.nor with badBanks := l } }) (s : State) (x : Nat) (h : P s) :
    P (s.katFail x) := by
  have slice (k : Nat) : P (s.katSlice k) := by
    unfold State.katSlice
    dsimp only
    split
    · exact unit s _ h
    · exact unit _ _ (free s h)
  unfold State.katFail
  split
  · exact core s x h
  split
  · exact h
  split
  · exact slices _ _ (slice _)
  split
  · exact h
  split
  · exact banks _ _ (slice _)
  split
  · exact h
  · exact unit s _ h

theorem State.rb_katCore (s : State) (y : Nat) {k i : Nat} (h : s.rb k i = true) : (s.katCore y).rb k i = true := by
  change (s.rbSet (Reg.BRUP_KAT_CORE + 4 * (y / 32)) (y % 32) true).rb k i = true
  by_cases word : k = Reg.BRUP_KAT_CORE + 4 * (y / 32)
  · subst word
    by_cases bit : i = y % 32
    · rw [bit]
      exact rb_rbSet_same _ _ _ _ (Nat.mod_lt _ (by decide))
    · rw [rb_rbSet_bit _ _ _ (Nat.mod_lt _ (by decide)) bit, h]
  · rw [rb_rbSet_other _ _ _ _ word, h]

theorem State.badCores_katCore (s : State) (y : Nat) : (s.katCore y).nor.badCores =
    if s.nor.badCores.contains y then s.nor.badCores else s.nor.badCores ++ [y] := rfl

theorem State.coreRecorded_katCore {s : State} {x : Nat} (rec : s.coreRecorded x) (y : Nat) : (s.katCore y).coreRecorded x := by
  refine ⟨?_, s.rb_katCore y rec.2⟩
  rw [State.badCores_katCore]
  split
  · exact rec.1
  · exact List.mem_append_left _ rec.1

theorem State.coreRecorded_katCore_same (s : State) (x : Nat) : (s.katCore x).coreRecorded x := by
  refine ⟨?_, rb_rbSet_same s _ _ true (Nat.mod_lt _ (by decide))⟩
  rw [State.badCores_katCore]
  split
  next listed => exact List.contains_iff_mem.mp listed
  next => exact List.mem_append_right _ (List.mem_singleton_self x)

/-- Registers beside those of KAT_CORE do not speak of failing cores. -/
theorem State.coreRecorded_rfSet {s : State} {x : Nat} (rec : s.coreRecorded x) {k : Nat}
    (other : Reg.BRUP_KAT_CORE + 4 * (x / 32) ≠ k) (hi lo v : Nat) : (s.rfSet k hi lo v).coreRecorded x :=
  ⟨rec.1, (rb_rfSet_other s _ _ _ _ other).trans rec.2⟩

theorem State.coreRecorded_katUnit {s : State} {x : Nat} (h : x < 72) (rec : s.coreRecorded x) (id : Nat) :
    (s.katUnit id).coreRecorded x := by
  have other : Reg.BRUP_KAT_CORE + 4 * (x / 32) ≠ Reg.BRUP_KAT_UNIT := by
    simp only [Reg.BRUP_KAT_CORE, Reg.BRUP_KAT_UNIT]
    omega
  unfold State.katUnit
  dsimp only
  split
  · exact State.coreRecorded_rfSet (State.coreRecorded_rfSet rec other _ _ _) other _ _ _
  · exact State.coreRecorded_rfSet rec other _ _ _

theorem State.katFail_core (s : State) {x : Nat} (h : x < 72) : s.katFail x = s.katCore x := if_pos h

/-- A failing core of the die is recorded, whatever else fails (R460, R470). -/
theorem State.coreRecorded_stackRestore (s : State) {k x : Nat} (lanes : List Nat) {failed : List Nat} (mem : x ∈ failed) (h : x < 72)
    (die : x / 12 = k) : (s.stackRestore k lanes failed).coreRecorded x := by
  have kept : x ∈ failed.filter (fun x => katOn k x || decide (2 ^ 16 ≤ x)) :=
    List.mem_filter.mpr ⟨mem, by simp [katOn, h, die]⟩
  refine foldl_establishes (I := fun _ => True) (P := fun u : State => u.coreRecorded x) (fun _ _ _ => trivial)
    (fun u y _ rec => ?_) (fun u _ => ?_) kept trivial
  · exact State.katFail_keeps (P := fun u => u.coreRecorded x) (fun _ z rec => State.coreRecorded_katCore rec z)
      (fun _ id rec => State.coreRecorded_katUnit h rec id) (fun _ rec => rec) (fun _ _ rec => rec) (fun _ _ rec => rec) u y rec
  · rw [u.katFail_core h]
    exact u.coreRecorded_katCore_same x

/-! ### Phase 4: dies out of service stay out -/

theorem State.katUnit_brup (s : State) (id : Nat) : (s.katUnit id).brup = s.brup := by
  unfold State.katUnit
  dsimp only
  split
  · rw [State.rSat, State.rfSet_brup, State.rfSet_brup]
  · rw [State.rSat, State.rfSet_brup]

theorem State.katFail_brup (s : State) (x : Nat) : (s.katFail x).brup = s.brup :=
  State.katFail_keeps (P := fun u => u.brup = s.brup) (fun _ _ h => h) (fun u id h => (u.katUnit_brup id).trans h)
    (fun _ h => h) (fun _ _ h => h) (fun _ _ h => h) s x rfl

theorem State.darnLane_brup (s : State) (d l : Nat) : (s.darnLane d l).brup = s.brup := by
  unfold State.darnLane
  dsimp only
  split <;> rfl

theorem State.darnDirs_brup (s : State) (dirs : List Nat) : (s.darnDirs dirs).brup = s.brup :=
  foldl_keeps State.brup _ (fun u d => foldl_keeps State.brup _ (fun v l => v.darnLane_brup d l) _ u) dirs s

theorem State.stackTrain_brup (s : State) (k : Nat) (lanes : List Nat) : (s.stackTrain k lanes).brup = s.brup := by
  unfold State.stackTrain
  rw [State.darnDirs_brup]
  refine foldl_keeps State.brup _ (fun u d => ?_) _ s
  rfl

theorem State.stackRestore_brup (s : State) (k : Nat) (lanes failed : List Nat) : (s.stackRestore k lanes failed).brup = s.brup :=
  (foldl_keeps State.brup _ State.katFail_brup _ _).trans (s.stackTrain_brup k lanes)

/-! ### Phase 4: its end -/

/-- Phase 4 cannot end well: it does not end, a link fails it, or a unit fails that cannot be marked unavailable (R470). -/
def State.restoreFails (s : State) (k : Nat) (e : StepEnd) (lanes failed : List Nat) : Prop :=
  e = .time ∨ e = .link ∨ e = .stack ∨ s.stackShort k lanes = true ∨ ∃ x ∈ failed, 2 ^ 16 ≤ x

theorem State.outDies_stackPhase (s : State) (n : Nat) : (s.stackPhase n).brup.outDies = s.brup.outDies := by
  rw [s.stackPhase_rest n]

theorem State.coreRecorded_stackPhase {s : State} {x : Nat} (h : x < 72) (rec : s.coreRecorded x) (n : Nat) :
    (s.stackPhase n).coreRecorded x := by
  refine ⟨?_, ?_⟩
  · rw [s.stackPhase_rest n]
    exact rec.1
  · rw [State.rb, s.rg_stackPhase_other n]
    · exact rec.2
    all_goals
      simp only [Reg.BRUP_KAT_CORE, Reg.BRUP_STACK_STAT, Reg.BRUP_EVT, Reg.IRQ_RAW]
      omega

/-- The result that STACK_STAT shows beside a new phase. -/
theorem State.rf_stackPhase_result (u : State) {r : Nat} (h : r < 4) (n : Nat) :
    ((u.rfSet Reg.BRUP_STACK_STAT 9 8 r).stackPhase n).rf Reg.BRUP_STACK_STAT 9 8 = r :=
  (State.rf_stackPhase_apart _ n (by decide)).trans ((rf_rfSet_same u _ _ _ _ (by decide) (by decide)).trans (Nat.mod_eq_of_lt h))

section
variable (e : StepEnd) (lanes bad : List Nat)

theorem kat_ne_stat (x : Nat) : Reg.BRUP_KAT_CORE + 4 * (x / 32) ≠ Reg.BRUP_STACK_STAT := by
  simp only [Reg.BRUP_KAT_CORE, Reg.BRUP_STACK_STAT]
  omega

theorem exec_stackPhaseEnd_restored {s : State} (phase : s.rf Reg.BRUP_STACK_STAT 6 4 = 4) :
    let k := s.rf Reg.BRUP_STACK_STAT 2 0
    let failed := s.unitFail k e ++ bad
    ∃ t, exec (.stackPhaseEnd e lanes bad) s = .next t ∧ t.brup.outDies = s.brup.outDies ∧
      (¬s.restoreFails k e lanes failed → t.phaseBegan 5) ∧
      (s.restoreFails k e lanes failed → t.phaseBegan 0 ∧ t.rf Reg.BRUP_STACK_STAT 9 8 = 3) ∧
      (∀ x ∈ failed, x < 72 → x / 12 = k → t.coreRecorded x) := by
  intro k failed
  let u := s.stackRestore k lanes failed
  have recorded : ∀ x ∈ failed, x < 72 → x / 12 = k → u.coreRecorded x := fun x mem h die =>
    s.coreRecorded_stackRestore lanes mem h die
  have dies : u.brup.outDies = s.brup.outDies := congrArg Brup.outDies (s.stackRestore_brup k lanes failed)
  have run : exec (.stackPhaseEnd e lanes bad) s = .next (if e = .time ∨ e = .link ∨ e = .stack ∨ s.stackShort k lanes = true ∨
      failed.any (fun x => decide (2 ^ 16 ≤ x)) = true then (u.rfSet Reg.BRUP_STACK_STAT 9 8 3).stackPhase 0 else u.stackPhase 5) := by
    simp only [exec_stackPhaseEnd_eq, execStackPhaseEnd, State.stackNow_of_phase phase]
    rfl
  have judged : (e = .time ∨ e = .link ∨ e = .stack ∨ s.stackShort k lanes = true ∨
      failed.any (fun x => decide (2 ^ 16 ≤ x)) = true) ↔ s.restoreFails k e lanes failed := by
    simp only [State.restoreFails, List.any_eq_true, decide_eq_true_eq]
  by_cases fails : s.restoreFails k e lanes failed
  · let v := u.rfSet Reg.BRUP_STACK_STAT 9 8 3
    refine ⟨v.stackPhase 0, by rw [run, if_pos (judged.mpr fails)], ?_, fun ok => absurd fails ok,
      fun _ => ⟨v.phaseBegan_stackPhase (by decide), u.rf_stackPhase_result (by decide) 0⟩,
      fun x mem h die => State.coreRecorded_stackPhase h (State.coreRecorded_rfSet (recorded x mem h die) (kat_ne_stat x) _ _ _) 0⟩
    rw [State.outDies_stackPhase, State.rfSet_brup, dies]
  · refine ⟨u.stackPhase 5, by rw [run, if_neg (fun h => fails (judged.mp h))], ?_,
      fun _ => u.phaseBegan_stackPhase (by decide), fun h => absurd h fails,
      fun x mem h die => State.coreRecorded_stackPhase h (recorded x mem h die) 5⟩
    rw [State.outDies_stackPhase, dies]

theorem State.outDies_outSet (s : State) (k : Nat) : (s.outSet k false).brup.outDies = s.brup.outDies.filter (· != k) := rfl

/-- The owned cores of a die that asks for power anew. -/
def State.ownedAsk (s : State) (k : Nat) : State :=
  ((List.range 12).map (12 * k + ·)).foldl (fun u p =>
    if ((u.logicalOf p).bind u.corePart).isSome then u.powerAsk p else u) s

theorem State.rejoin_eq (s : State) (k : Nat) :
    s.rejoin k = (((s.outSet k false).ownedAsk k).rfSet Reg.BRUP_STACK_STAT 9 8 1).stackPhase 0 := rfl

theorem State.ownedAsk_brup (s : State) (k : Nat) : (s.ownedAsk k).brup = s.brup := by
  refine foldl_keeps State.brup _ (fun u p => ?_) _ s
  split
  · rw [(u.powerAsk_sheds 0 p).rest]
  · rfl

theorem exec_stackPhaseEnd_rejoins {s : State} (phase : s.rf Reg.BRUP_STACK_STAT 6 4 = 5) (passed : s.boundarySince = true) :
    ∃ t, exec (.stackPhaseEnd e lanes bad) s = .next t ∧ t.phaseBegan 0 ∧ t.rf Reg.BRUP_STACK_STAT 9 8 = 1 ∧
      s.rf Reg.BRUP_STACK_STAT 2 0 ∉ t.brup.outDies := by
  let k := s.rf Reg.BRUP_STACK_STAT 2 0
  let u := (s.outSet k false).ownedAsk k
  let v := u.rfSet Reg.BRUP_STACK_STAT 9 8 1
  have dies : u.brup.outDies = s.brup.outDies.filter (· != k) := by
    rw [State.ownedAsk_brup, State.outDies_outSet]
  refine ⟨v.stackPhase 0, ?_, v.phaseBegan_stackPhase (by decide), u.rf_stackPhase_result (by decide) 0, ?_⟩
  · simp only [exec_stackPhaseEnd_eq, execStackPhaseEnd, State.stackNow_of_phase phase, passed, if_true]
    rw [State.rejoin_eq]
  · rw [State.outDies_stackPhase, State.rfSet_brup, dies]
    simp [k]

end

/-- Settles O59: what requests, starts and ends each reset, from the two relations that say what clearing leaves alone; a stack
reset by its phases, one lemma for each way that a phase ends. -/
theorem resets : Obligations.Resets := by
  unfold Obligations.Resets
  intro f s phase k
  refine ⟨exec_modrst_requests, fun key ready other => exec_modrst_other_key ready other,
    fun u cycles due => exec_moduleReset_requested due cycles, ?_, fun p busy => exec_partitionResetDone_ends busy,
    fun c ready pf => exec_coreReset_clears ready pf c, fun d fitted ready pf => exec_computeDieReset_cycles ready pf fitted,
    fun d c drain hc ready pf fitted => ⟨exec_stackCommand_refused hc ready pf fitted, exec_stackCommand_starts hc ready pf fitted⟩,
    fun e lanes bad => ⟨fun at1 passed unforced => exec_stackPhaseEnd_drains e lanes bad at1 passed unforced,
      fun atN early => exec_stackPhaseEnd_waits e lanes bad atN early,
      fun at2 timely => ⟨fun held => exec_stackPhaseEnd_held e lanes bad at2 timely held,
        fun gone => exec_stackPhaseEnd_resets e lanes bad at2 (.inr gone)⟩,
      fun at2 late => exec_stackPhaseEnd_resets e lanes bad at2 (.inl late),
      fun at3 => exec_stackPhaseEnd_trains e lanes bad at3,
      fun at4 => exec_stackPhaseEnd_restored e lanes bad at4,
      fun at5 passed => exec_stackPhaseEnd_rejoins e lanes bad at5 passed⟩⟩
  rintro p mask n rfl ready pf
  exact ⟨fun on due enabled fresh quiet idle => exec_partitionReset_resets ready pf p on due enabled fresh quiet idle,
    fun off => exec_partitionReset_refused ready pf p off⟩

end Sys2Proof.Machine

namespace Sys2Proof.Machine

/-! # Every command completes, keeps the queue, and keeps the memories canonical

What a command must keep is the queue and the form of the four memories. `State.held` is that part of a state. An operation that
does not write a memory leaves it as it is, which is said as an equation; one that writes keeps the form, which is said
with `Held.Leads`. -/

/-! ## What is kept -/

/-- The queue of commands and the bytes of the memories. -/
structure Held where
  queue : List Instr
  bar4 : List Host.Cell
  staging : List Host.Cell
  lining : List Host.Cell
  hbm : List Host.Cell

/-- The part of a state that a command must keep, or keep canonical. -/
def State.held (s : State) : Held := ⟨s.pending, s.bar4, s.staging, s.lin.data, s.hbm.data⟩

/-- The canonical form of the memories, as `State.memWf` has it. -/
def Held.wf (h : Held) : Bool := cellsWf h.bar4 && cellsWf h.staging && cellsWf h.lining && sortedKeys h.hbm

/-- `k` has the queue of `h`, and its memories are canonical if those of `h` are. -/
structure Held.Leads (h k : Held) : Prop where
  queue : k.queue = h.queue
  wf : h.wf = true → k.wf = true

@[simp] theorem Held.Leads.refl (h : Held) : h.Leads h := ⟨rfl, id⟩

theorem State.wf_held (s : State) : s.held.wf = s.memWf := rfl

@[simp] theorem held_mk (pending : List Instr) (now : Nat) (free : Nat) (reply : Reply) (outbox : List Out) (regs : List (Nat × Word)) (setAt : List
    (Nat × Nat)) (latches : List (Nat × Word)) (heldWrites : List (Nat × Word)) (fuses : Fuses) (nor : Nor) (ptn : Ptn) (tick
    : Tick) (parts : List (Nat × Part)) (bar4 : List Host.Cell) (log : Log) (irq : Irq) (host : HostIf) (pins : Pins) (mgmt :
    Mgmt) (lin : Lining) (hbm : Hbm) (net : Net) (cores : List (Nat × CoreSt)) (groups : List (Nat × Group)) (parks : List
    (Nat × ParkRec)) (away : List (Nat × CoreBlock)) (staging : List Host.Cell) (acc : List (Nat × Word)) (accFlags : List
    (Nat × Nat)) (rng : Rng) (fit : List (Nat × FitRec)) (fitLatch : List Word) (jig : Jig) (spl : Spl) (pwr : Pwr) (thm :
    Thm) (esc : Esc) (brup : Brup) (pair : Pair) :
    (State.mk pending now free reply outbox regs setAt latches heldWrites fuses nor ptn tick parts bar4 log irq host pins mgmt lin hbm net
      cores groups parks away staging acc accFlags rng fit fitLatch jig spl pwr thm esc brup pair).held =
      ⟨pending, bar4, staging, lin.data, hbm.data⟩ := by rw [State.held]

@[simp] theorem held_fold (s : State) : Held.mk s.pending s.bar4 s.staging s.lin.data s.hbm.data = s.held := by
  rw [State.held]

/-! ## Conditionals and folds -/

@[simp] theorem ite_held (c : Prop) [Decidable c] (a b : State) :
    (if c then a else b).held = if c then a.held else b.held :=
  apply_ite ..

@[simp] theorem ite_fst_held {α : Type} (c : Prop) [Decidable c] (a b : State × α) :
    (if c then a else b).1.held = if c then a.1.held else b.1.held :=
  apply_ite (fun x : State × α => x.1.held) ..

@[simp] theorem ite_snd_held {α : Type} (c : Prop) [Decidable c] (a b : α × State) :
    (if c then a else b).2.held = if c then a.2.held else b.2.held :=
  apply_ite (fun x : α × State => x.2.held) ..

@[simp] theorem ite_snd_snd_held {α β : Type} (c : Prop) [Decidable c] (a b : α × β × State) :
    (if c then a else b).2.2.held = if c then a.2.2.held else b.2.2.held :=
  apply_ite (fun x : α × β × State => x.2.2.held) ..

/-- What is kept of the state that an operation answered beside something else. -/
theorem snd_held {α : Type} {x : α × State} {a : α} {u : State} (h : x = (a, u)) : u.held = x.2.held := by rw [h]

@[simp] theorem foldl_held {β : Type} (f : State → β → State) (h : ∀ u e, (f u e).held = u.held) (l : List β) (s : State) :
    (l.foldl f s).held = s.held :=
  foldl_keeps State.held f h l s

@[simp] theorem foldl_fst_held {α β : Type} (f : State × α → β → State × α) (h : ∀ u e, (f u e).1.held = u.1.held)
    (l : List β) (s : State × α) : (l.foldl f s).1.held = s.1.held :=
  foldl_keeps (·.1.held) f h l s

@[simp] theorem foldl_snd_held {α β : Type} (f : α × State → β → α × State) (h : ∀ u e, (f u e).2.held = u.2.held)
    (l : List β) (s : α × State) : (l.foldl f s).2.held = s.2.held :=
  foldl_keeps (·.2.held) f h l s

@[simp] theorem foldl_mid_held {α β γ : Type} (f : α × State × γ → β → α × State × γ)
    (h : ∀ u e, (f u e).2.1.held = u.2.1.held) (l : List β) (s : α × State × γ) : (l.foldl f s).2.1.held = s.2.1.held :=
  foldl_keeps (·.2.1.held) f h l s

@[simp] theorem foldl_snd_snd_held {α β γ : Type} (f : α × γ × State → β → α × γ × State)
    (h : ∀ u e, (f u e).2.2.held = u.2.2.held) (l : List β) (s : α × γ × State) : (l.foldl f s).2.2.held = s.2.2.held :=
  foldl_keeps (·.2.2.held) f h l s

@[simp] theorem foldr_held {β : Type} (f : β → State → State) (h : ∀ e u, (f e u).held = u.held) (l : List β) (s : State) :
    (l.foldr f s).held = s.held := by
  rw [List.foldr_eq_foldl_reverse, foldl_held _ fun u e => h e u]

/-! ## One word, one record -/

@[simp] theorem State.rgSet_held (s : State) (k : Nat) (v : Word) : (s.rgSet k v).held = s.held := rfl
@[simp] theorem State.rfSet_held (s : State) (k hi lo v : Nat) : (s.rfSet k hi lo v).held = s.held := rfl
@[simp] theorem State.rbSet_held (s : State) (k i : Nat) (b : Bool) : (s.rbSet k i b).held = s.held := rfl
@[simp] theorem State.rg64Set_held (s : State) (k v : Nat) : (s.rg64Set k v).held = s.held := rfl
@[simp] theorem State.rAdd_held (s : State) (k hi lo n : Nat) : (s.rAdd k hi lo n).held = s.held := rfl
@[simp] theorem State.rSat_held (s : State) (k hi lo n : Nat) : (s.rSat k hi lo n).held = s.held := rfl
@[simp] theorem State.rAdd64_held (s : State) (k n : Nat) : (s.rAdd64 k n).held = s.held := rfl
@[simp] theorem State.partSet_held (s : State) (p : Nat) (v : Part) : (s.partSet p v).held = s.held := rfl
@[simp] theorem State.coreSet_held (s : State) (c : Nat) (v : CoreSt) : (s.coreSet c v).held = s.held := rfl
@[simp] theorem State.groupSet_held (s : State) (g : Nat) (v : Group) : (s.groupSet g v).held = s.held := rfl
@[simp] theorem State.chanSet_held (s : State) (n : Nat) (v : Chan) : (s.chanSet n v).held = s.held := rfl
@[simp] theorem State.linkSet_held (s : State) (n : Nat) (v : SLink) : (s.linkSet n v).held = s.held := rfl
@[simp] theorem State.domSet_held (s : State) (p : Nat) (v : Domain) : (s.domSet p v).held = s.held := rfl
@[simp] theorem State.dieSet_held (s : State) (d : Nat) (v : DieMon) : (s.dieSet d v).held = s.held := rfl
@[simp] theorem State.stackSet_held (s : State) (m : Nat) (v : StackSt) : (s.stackSet m v).held = s.held := rfl
@[simp] theorem State.dowelSet_held (s : State) (d : Nat) (v : Dowel) : (s.dowelSet d v).held = s.held := rfl
@[simp] theorem State.fnSet_held (s : State) (f : Func) (v : Fn) : (s.fnSet f v).held = s.held := rfl
@[simp] theorem State.portSet_held (s : State) (p : Nat) (v : Port) : (s.portSet p v).held = s.held := rfl
@[simp] theorem State.evSet_held (s : State) (k i : Nat) : (s.evSet k i).held = s.held := rfl
@[simp] theorem State.rawSet_held (s : State) (x : Nat) : (s.rawSet x).held = s.held := rfl
@[simp] theorem State.answer_held (s : State) (r : Reply) : (s.answer r).held = s.held := rfl
@[simp] theorem State.send_held (s : State) (m : Out) : (s.send m).held = s.held := rfl
@[simp] theorem State.at_held (s : State) (u : Nat) : (s.at u).held = s.held := rfl

/-! ## Conditionals, pairs and folds -/

/-! ## Registers, the log and the interrupt sources -/

@[simp] theorem State.partMap_held (s : State) (p : Nat) (f : Part → Part) : (s.partMap p f).held = s.held := by
  simp [State.partMap]

@[simp] theorem State.coreMap_held (s : State) (c : Nat) (f : CoreSt → CoreSt) : (s.coreMap c f).held = s.held := by
  simp [State.coreMap]

@[simp] theorem State.groupMap_held (s : State) (g : Nat) (f : Group → Group) : (s.groupMap g f).held = s.held := by
  simp [State.groupMap]

@[simp] theorem State.chanMap_held (s : State) (n : Nat) (f : Chan → Chan) : (s.chanMap n f).held = s.held := by
  simp [State.chanMap]

@[simp] theorem State.putOff_held (s : State) (port : Nat) (c : Instr) : (s.putOff port c).held = s.held := by
  simp [State.putOff]

@[simp] theorem State.inOrder_held (s : State) (f : Func) (c : Instr) (body : State → State)
    (h : ∀ u, (body u).held = u.held) : (s.inOrder f c body).held = s.held := by
  simp [State.inOrder, h]

@[simp] theorem State.reqOrder_held (s : State) (r : Req) (c : Instr) (body : State → State)
    (h : ∀ u, (body u).held = u.held) : (s.reqOrder r c body).held = s.held := by
  unfold State.reqOrder
  split <;> simp [h]

@[simp] theorem State.deviceChange_held (s : State) (f : Pat → Pat) : (s.deviceChange f).held = s.held := by
  simp [State.deviceChange]

@[simp] theorem State.pbaSet_held (s : State) (fn v : Nat) (b : Bool) : (s.pbaSet fn v b).held = s.held := by
  simp [State.pbaSet]

@[simp] theorem State.vfVecSet_held (s : State) (port k v : Nat) (x : VfVec) : (s.vfVecSet port k v x).held = s.held := by
  simp [State.vfVecSet]

@[simp] theorem State.vfSend_held (s : State) (port k v : Nat) : (s.vfSend port k v).held = s.held := by simp [State.vfSend]

@[simp] theorem State.vfEvent_held (s : State) (k v : Nat) : (s.vfEvent k v).held = s.held := by
  unfold State.vfEvent
  dsimp only
  repeat' split
  all_goals simp

@[simp] theorem State.raise_held (s : State) (src : Nat) : (s.raise src).held = s.held := by
  unfold State.raise
  dsimp only
  repeat' split
  all_goals simp

@[simp] theorem State.logQueue_held (s : State) (r : ErrRec) : (s.logQueue r).held = s.held := by simp [State.logQueue]

@[simp] theorem State.logRec_held (s : State) (code unit : Nat) (part : Option Nat) (addr syn : Nat) (once : Bool) :
    (s.logRec code unit part addr syn once).held = s.held := by
  unfold State.logRec
  dsimp only
  repeat' split
  all_goals simp

@[simp] theorem State.err_held (s : State) (code unit : Nat) (part : Option Nat) (addr syn : Nat) :
    (s.err code unit part addr syn).held = s.held := by
  simp [State.err]

@[simp] theorem State.ptnResult_held (s : State) (code detail op : Nat) (unpicked : Bool) (who : Option Func) :
    (s.ptnResult code detail op unpicked who).held = s.held := by
  unfold State.ptnResult
  split <;> simp

/-! ## The error log and the interrupt controller (spec/19) -/

@[simp] theorem State.appendNext_held (s : State) : s.appendNext.held = s.held := by
  unfold State.appendNext
  split <;> simp

@[simp] theorem State.irqStackSet_held (s : State) (t : Nat) (v : List StackEnt) : (s.irqStackSet t v).held = s.held := by
  simp [State.irqStackSet]

@[simp] theorem State.outOfOrder_held (s : State) (t g top : Nat) : (s.outOfOrder t g top).held = s.held := by
  simp [State.outOfOrder]

@[simp] theorem State.complete_held (s : State) (t g : Nat) : (s.complete t g).held = s.held := by
  unfold State.complete
  split <;> simp

@[simp] theorem State.callAlert_held (s : State) : s.callAlert.held = s.held := by
  unfold State.callAlert
  split <;> simp

@[simp] theorem State.reportGroup_held (s : State) (g : Nat) : (s.reportGroup g).held = s.held := by simp [State.reportGroup]

@[simp] theorem State.vfUnmask_held (s : State) (port k v : Nat) : (s.vfUnmask port k v).held = s.held := by
  unfold State.vfUnmask
  dsimp only
  repeat' split
  all_goals simp

/-! ## Dowel links and regulators (spec/14) -/

@[simp] theorem State.carryOver_held (s : State) (dirs : List Nat) (cls bytes : Nat) :
    (s.carryOver dirs cls bytes).held = s.held := by
  simp -implicitDefEqProofs [State.carryOver]

@[simp] theorem State.carry_held (s : State) (a b cls bytes : Nat) : (s.carry a b cls bytes).2.held = s.held := by
  unfold State.carry
  split <;> simp

@[simp] theorem State.cast_held (s : State) (a b cls bytes : Nat) : (s.cast a b cls bytes).held = s.held := by
  simp [State.cast]

@[simp] theorem State.multicast_held (s : State) (a : Nat) (bs : List Nat) (cls bytes : Nat) :
    (s.multicast a bs cls bytes).held = s.held := by
  simp [State.multicast]

@[simp] theorem State.regulSet_held (s : State) (i p : Nat) (v : Regul) : (s.regulSet i p v).held = s.held := by
  simp [State.regulSet]

@[simp] theorem State.urge_held (s : State) (master urgency : Nat) : (s.urge master urgency).held = s.held := by
  simp [State.urge]

@[simp] theorem State.regDefer_held (s : State) (part : Option Nat) (master point : Nat) :
    (s.regDefer part master point).held = s.held := by
  unfold State.regDefer
  split <;> simp

@[simp] theorem State.charge_held (s : State) (part : Option Nat) (master point bytes : Nat) :
    (s.charge part master point bytes).held = s.held := by
  unfold State.charge
  split <;> simp -implicitDefEqProofs

@[simp] theorem State.guarMiss_held (s : State) (i p : Nat) : (s.guarMiss i p).held = s.held := by
  simp -implicitDefEqProofs [State.guarMiss]

@[simp] theorem State.regEnd_held (s : State) (i p : Nat) : (s.regEnd i p).held = s.held := by
  simp -implicitDefEqProofs [State.regEnd]

@[simp] theorem State.regBegin_held (s : State) (i p : Nat) : (s.regBegin i p).held = s.held := by simp [State.regBegin]

@[simp] theorem State.eachEntry_held (s : State) (f : State → Nat → Nat → State) (h : ∀ u i p, (f u i p).held = u.held) :
    (s.eachEntry f).held = s.held := by
  simp [State.eachEntry, h]

@[simp] theorem State.windowBegin_held (s : State) : s.windowBegin.held = s.held := by simp [State.windowBegin]

@[simp] theorem State.regWindow_held (s : State) : s.regWindow.held = s.held := by simp [State.regWindow]

@[simp] theorem State.regAdjust_held (s old : State) : (s.regAdjust old).held = s.held := by simp [State.regAdjust]

@[simp] theorem State.regRestart_held (s : State) : s.regRestart.held = s.held := by simp [State.regRestart]

@[simp] theorem State.darnLane_held (s : State) (dir l : Nat) : (s.darnLane dir l).held = s.held := by simp [State.darnLane]

@[simp] theorem State.dropGroup_held (s : State) (dir g : Nat) : (s.dropGroup dir g).held = s.held := by simp [State.dropGroup]

@[simp] theorem State.fenceLink_held (s : State) (dir : Nat) : (s.fenceLink dir).held = s.held := by simp [State.fenceLink]

@[simp] theorem State.darnDirs_held (s : State) (dirs : List Nat) : (s.darnDirs dirs).held = s.held := by simp [State.darnDirs]

@[simp] theorem State.darnLanes_held (s : State) : s.darnLanes.held = s.held := by simp [State.darnLanes]

@[simp] theorem State.serviceLanes_held (s : State) : s.serviceLanes.held = s.held := by
  simp -implicitDefEqProofs [State.serviceLanes]

@[simp] theorem State.laneFail_held (s : State) (dir l : Nat) : (s.laneFail dir l).held = s.held := by
  simp -implicitDefEqProofs [State.laneFail]

@[simp] theorem State.applyDarnMap_held (s : State) : s.applyDarnMap.held = s.held := by
  simp -implicitDefEqProofs [State.applyDarnMap]

/-! ## HBM (spec/11) -/

/-! ## The lining (spec/10) -/

@[simp] theorem State.secSet_held (s : State) (a : Nat) (x : Sec) : (s.secSet a x).held = s.held := by simp [State.secSet]

@[simp] theorem State.lineSet_held (s : State) (l : Nat) (x : Line) : (s.lineSet l x).held = s.held := by simp [State.lineSet]

@[simp] theorem State.dropCopies_held (s : State) (l : Nat) : (s.dropCopies l).held = s.held := by simp [State.dropCopies]

@[simp] theorem State.secSeal_held (s : State) (a : Nat) (x : Sec) (fresh : Bool) : (s.secSeal a x fresh).held = s.held := by
  simp [State.secSeal]

@[simp] theorem State.lateDirty_held (s : State) (die l : Nat) : (s.lateDirty die l).held = s.held := by simp [State.lateDirty]

@[simp] theorem State.linCorrected_held (s : State) (sl : Nat) : (s.linCorrected sl).held = s.held := by
  simp -implicitDefEqProofs [State.linCorrected]

@[simp] theorem State.linUncorr_held (s : State) (sl a : Nat) (part : Option Nat) : (s.linUncorr sl a part).held = s.held := by
  simp -implicitDefEqProofs [State.linUncorr]

@[simp] theorem State.needPinned_held (s : State) (p sl a : Nat) (ecc : Ecc) : (s.needPinned p sl a ecc).2.held = s.held := by
  unfold State.needPinned
  dsimp only
  repeat' split
  all_goals simp

@[simp] theorem State.staleQueue_held (s : State) (sl a : Nat) : (s.staleQueue sl a).held = s.held := by
  simp [State.staleQueue]

@[simp] theorem State.notify_held (s : State) (die a len : Nat) : (s.notify die a len).held = s.held := by simp [State.notify]

@[simp] theorem State.countLookup_held (s : State) (die cls found want : Nat) :
    (s.countLookup die cls found want).held = s.held := by
  simp -implicitDefEqProofs [State.countLookup]

@[simp] theorem State.countPinned_held (s : State) (sl : Nat) : (s.countPinned sl).held = s.held := by
  simp -implicitDefEqProofs [State.countPinned]

@[simp] theorem State.note_held (s : State) (q : Ask) (f : Ticket → Ticket) : (s.note q f).held = s.held := by
  simp [State.note]

@[simp] theorem State.lineMap_held (s : State) (l : Nat) (f : Line → Line) : (s.lineMap l f).held = s.held := by
  unfold State.lineMap
  split <;> simp

@[simp] theorem State.unticket_held (s : State) (q : Ask) : (s.unticket q).held = s.held := by
  unfold State.unticket
  split <;> simp

@[simp] theorem State.forgetTickets_held (s : State) (gone : Ticket → Bool) : (s.forgetTickets gone).held = s.held := by
  simp [State.forgetTickets]

@[simp] theorem State.turnAt_held (s : State) (q : Ask) : (s.turnAt q).held = s.held := by
  unfold State.turnAt
  split <;> simp

@[simp] theorem State.recallLine_held (s : State) (l : Nat) : (s.recallLine l).held = s.held := by
  unfold State.recallLine
  split <;> simp

@[simp] theorem State.lookedUp_held (s : State) (q : Ask) (p : Nat) : (s.lookedUp q p).held = s.held := by
  simp [State.lookedUp]

@[simp] theorem State.stopAt_held (s : State) (q : Ask) : (s.stopAt q).held = s.held := by simp [State.stopAt]

@[simp] theorem State.waitAtLine_held (s : State) (q : Ask) (p : Nat) (y : Line) : (s.waitAtLine q p y).held = s.held := by
  simp [State.waitAtLine]

@[simp] theorem State.lineBegin_held (s : State) (q : Ask) (victim : Option Nat) : (s.lineBegin q victim).held = s.held := by
  unfold State.lineBegin
  dsimp only
  repeat' split
  all_goals simp

@[simp] theorem State.copyLater_held (s : State) (key mask : Nat) : (s.copyLater key mask).held = s.held := by
  simp [State.copyLater]

@[simp] theorem State.takenIn_held (s : State) (q : Ask) (p : Nat) : (s.takenIn q p).held = s.held := by simp [State.takenIn]

@[simp] theorem State.crossed_held (s : State) (a b up down : Nat) : (s.crossed a b up down).2.held = s.held := by
  simp [State.crossed]

@[simp] theorem State.stick_held (s : State) (q : Ask) : (s.stick q).held = s.held := by simp [State.stick]

@[simp] theorem State.asksBegin_held (s : State) (qs : List Ask) : (s.asksBegin qs).held = s.held := by simp [State.asksBegin]

@[simp] theorem State.memBegin_held (s : State) (agent : Agent) (part : Option Nat) (a len : Nat) (kind : AccKind) (ecc : Ecc) :
    (s.memBegin agent part a len kind ecc).held = s.held := by
  simp [State.memBegin]

@[simp] theorem State.block_held (s : State) (x : LinAccess) : (s.block x).held = s.held := by simp [State.block]

@[simp] theorem State.fetchGo_held (s : State) (die : Nat) (secs : List Nat) : (s.fetchGo die secs).2.held = s.held := by
  simp [State.fetchGo]

@[simp] theorem State.copiesGone_held (s : State) (l : Nat) (y : Line) : (s.copiesGone l y).held = s.held := by
  simp [State.copiesGone]

@[simp] theorem State.scrubCopy_held (s : State) (sl key : Nat) (ecc : Ecc) : (s.scrubCopy sl key ecc).held = s.held := by
  unfold State.scrubCopy
  split <;> simp

@[simp] theorem State.strandLines_held (s : State) (p : Nat) : (s.strandLines p).held = s.held := by simp [State.strandLines]

@[simp] theorem State.pinResult_held (s : State) (code op : Nat) : (s.pinResult code op).held = s.held := by
  simp -implicitDefEqProofs [State.pinResult]

@[simp] theorem State.pinRequest_held (s : State) (f : Func) (region : Nat) (isPin : Bool) :
    (s.pinRequest f region isPin).held = s.held := by
  simp [State.pinRequest]

@[simp] theorem State.pinCancel_held (s : State) : s.pinCancel.held = s.held := by
  unfold State.pinCancel
  split <;> simp

@[simp] theorem State.homeq_held (s : State) (a : Nat) : (s.homeq a).held = s.held := by
  conv in State.homeq => delta State.homeq
  generalize (if a < s.capacity * 2 ^ 30 then s.spanOwner a else none) = o
  cases o <;> rw [State.rgSet_held, State.rg64Set_held]

/-! ## Thread groups (spec/08) -/

@[simp] theorem State.dropActive_held (s : State) (gx : Nat) : (s.dropActive gx).held = s.held := by simp [State.dropActive]

@[simp] theorem State.leaveActive_held (s : State) (gx : Nat) : (s.leaveActive gx).held = s.held := by simp [State.leaveActive]

@[simp] theorem State.refill_held (s : State) (c : Nat) (n : Nat) : (s.refill c n).held = s.held := by
  induction n generalizing s with
  | zero => rfl
  | succ n ih =>
    rw [State.refill]
    split
    · rfl
    · split <;> simp [ih]

@[simp] theorem State.proofSwap_held (s : State) (gx : Nat) : (s.proofSwap gx).held = s.held := by
  unfold State.proofSwap
  dsimp only
  repeat' split
  all_goals simp

@[simp] theorem State.arrange_held (s : State) (gx : Nat) : (s.arrange gx).held = s.held := by simp [State.arrange]

theorem State.takeTurn_held {s t : State} {gx : Nat} (h : s.takeTurn gx = some t) : t.held = s.held := by
  simp only [State.takeTurn] at h
  split at h
  · simp [← Option.some.inj h]
  · cases h

@[simp] theorem State.freeSlot_held (s : State) (gx : Nat) : (s.freeSlot gx).held = s.held := by simp [State.freeSlot]

@[simp] theorem State.parkAt_held (s : State) (gx code sub : Nat) (mask : BitVec 32) (addr : Nat) (asy : Bool) (pc word : Nat)
    (partly : Bool) : (s.parkAt gx code sub mask addr asy pc word partly).held = s.held := by
  simp [State.parkAt]

@[simp] theorem State.illegal_held (s : State) (gx : Nat) : (s.illegal gx).held = s.held := by simp [State.illegal]

@[simp] theorem State.settleGroup_held (s : State) (gx : Nat) : (s.settleGroup gx).held = s.held := by simp [State.settleGroup]

@[simp] theorem State.pass_held (s : State) (gx : Nat) : (s.pass gx).held = s.held := by simp [State.pass]

@[simp] theorem State.await_held (s : State) (gx : Nat) (w : WaitFor) : (s.await gx w).held = s.held := by simp [State.await]

@[simp] theorem State.issued_held (s : State) (gx op : Nat) (i : Insn) : (s.issued gx op i).held = s.held := by
  simp [State.issued]

@[simp] theorem State.issue_held (s : State) (g : GroupId) (op : Nat) (i : Insn) (f : Form)
    (body : State → Nat → BitVec 32 → State) (h : ∀ u gx eff, (body u gx eff).held = u.held) :
    (s.issue g op i f body).held = s.held := by
  unfold State.issue
  dsimp only
  split
  · rfl
  · split
    · simp
    · next hu =>
      have hk := State.takeTurn_held hu
      split <;> simp [h, hk]

@[simp] theorem State.lanewise_held (s : State) (g : GroupId) (op : Nat) (i : Insn) (f : Form) (fn : Group → Nat → Group) :
    (s.lanewise g op i f fn).held = s.held := by
  simp [State.lanewise]

@[simp] theorem State.noProgress_held (s : State) (gx : Nat) : (s.noProgress gx).held = s.held := by simp [State.noProgress]

/-! ## Arithmetic (spec/09) -/

@[simp] theorem State.binary_held (s : State) (g : GroupId) (op : Nat) (i : Insn) (m : Nat) (fn : Word → Word → Word) :
    (s.binary g op i m fn).held = s.held := by
  simp [State.binary]

@[simp] theorem State.unary_held (s : State) (g : GroupId) (op : Nat) (i : Insn) (m : Nat) (fn : Word → Word) :
    (s.unary g op i m fn).held = s.held := by
  simp [State.unary]

/-! ## Sending on spline links (spec/15) -/

@[simp] theorem State.sendFlit_held (s : State) (n : Nat) (f : Flit) : (s.sendFlit n f).held = s.held := by
  simp [State.sendFlit]

@[simp] theorem State.sendAck_held (s : State) (n : Nat) : (s.sendAck n).held = s.held := by simp [State.sendAck]

@[simp] theorem State.pumpVc_held (s : State) (n vc : Nat) : (s.pumpVc n vc).held = s.held := by
  simp -implicitDefEqProofs [State.pumpVc]

@[simp] theorem State.pump_held (s : State) (n : Nat) : (s.pump n).held = s.held := by simp [State.pump]

@[simp] theorem State.post_held (s : State) (n kind : Nat) (m : Msg) : (s.post n kind m).held = s.held := by simp [State.post]

theorem State.choose_held {s u : State} {xs : List Nat} {n : Nat} (h : s.choose xs = some (n, u)) : u.held = s.held := by
  unfold State.choose at h
  split at h
  · cases h
  all_goals
    cases h
    rfl

@[simp] theorem State.noRoute_held (s : State) (die dst : Nat) (part : Option Nat) :
    (s.noRoute die dst part).held = s.held := by
  simp -implicitDefEqProofs [State.noRoute]

@[simp] theorem State.remoteSend_held (s : State) (agent : Agent) (p kind a arg : Nat) (target : Nat) (payload : List Byte) :
    (s.remoteSend agent p kind a arg target payload).2.held = s.held := by
  unfold State.remoteSend
  dsimp only
  split
  · rfl
  · split
    · rfl
    · split
      · simp
      · next h =>
        have hk := State.choose_held h
        split <;> simp [hk]

@[simp] theorem State.dropEntry_held (s : State) (key : Nat) : (s.dropEntry key).held = s.held := by simp [State.dropEntry]

@[simp] theorem State.askFar_held (s : State) (q : Ask) : (s.askFar q).held = s.held := by
  unfold State.askFar
  dsimp only
  split
  · rfl
  · split <;> next h => simp [snd_held h]

@[simp] theorem State.farAnswer_held (s : State) (key code : Nat) (data : List Byte) :
    (s.farAnswer key code data).held = s.held := by
  simp [State.farAnswer]

@[simp] theorem State.together_held (s : State) (f : State → State) (h : ∀ u, (f u).held = u.held) :
    (s.together f).held = s.held := by
  simp only [State.together]
  split <;> simp [h]

/-! ## Host ports (spec/16) -/

@[simp] theorem State.bar2Err_held (s : State) (fn code addr : Nat) (part : Option Nat) :
    (s.bar2Err fn code addr part).held = s.held := by
  simp [State.bar2Err]

@[simp] theorem State.bar2Done_held (s : State) (fn : Nat) (kind : CplKind) (code : Nat) (data : List Byte) :
    (s.bar2Done fn kind code data).held = s.held := by
  simp [State.bar2Done]

@[simp] theorem State.portOps_held (s : State) (port : Nat) (ops : List HostOp) : (s.portOps port ops).held = s.held := by
  simp [State.portOps]

@[simp] theorem State.pieceDone_held (s : State) (port : Nat) (q : HostOp) (rest : List HostOp) (code : Nat) (data : List Byte) :
    (s.pieceDone port q rest code data).held = s.held := by
  unfold State.pieceDone
  split <;> simp

@[simp] theorem State.lateTimeout_held (s : State) (f : Func) : (s.lateTimeout f).held = s.held := by
  simp only [State.lateTimeout]
  split <;> simp

@[simp] theorem State.setApbase_held (s : State) (f : Func) (v : Nat) : (s.setApbase f v).held = s.held := by
  simp [State.setApbase]

@[simp] theorem State.fnReset_held (s : State) (n : Nat) : (s.fnReset n).held = s.held := by simp [State.fnReset]

@[simp] theorem State.vfReset_held (s : State) (port k : Nat) : (s.vfReset port k).held = s.held := by simp [State.vfReset]

/-! ## Tensors and tallies (spec/12) -/

/-! ## Jig engines (spec/13) -/

@[simp] theorem State.chPend_held (s : State) (reg src ch : Nat) : (s.chPend reg src ch).held = s.held := by
  simp [State.chPend]

@[simp] theorem State.jigForget_held (s : State) (ch : Nat) : (s.jigForget ch).held = s.held := by simp [State.jigForget]

@[simp] theorem State.jigFault_held (s : State) (ch code sub : Nat) : (s.jigFault ch code sub).held = s.held := by
  simp [State.jigFault]

@[simp] theorem State.goTo_held (s : State) (ch pc : Nat) : (s.goTo ch pc).held = s.held := by simp [State.goTo]

@[simp] theorem State.goOn_held (s : State) (ch : Nat) : (s.goOn ch).held = s.held := by simp [State.goOn]

@[simp] theorem State.haltDone_held (s : State) (ch : Nat) : (s.haltDone ch).held = s.held := by simp [State.haltDone]

@[simp] theorem State.badRecord_held (s : State) (ch pc code addr syn : Nat) :
    (s.badRecord ch pc code addr syn).held = s.held := by
  simp -implicitDefEqProofs [State.badRecord]

@[simp] theorem State.badLast_held (s : State) (ch code : Nat) : (s.badLast ch code).held = s.held := by simp [State.badLast]

@[simp] theorem State.stopAll_held (s : State) (ch : Nat) : (s.stopAll ch).held = s.held := by simp [State.stopAll]

@[simp] theorem State.badOp_held (s : State) (ch code addr : Nat) (next : State → State) (h : ∀ u, (next u).held = u.held) :
    (s.badOp ch code addr next).held = s.held := by
  simp -implicitDefEqProofs [State.badOp, h]

@[simp] theorem State.mvSet_held (s : State) (ch k : Nat) (v : MoveSt) : (s.mvSet ch k v).held = s.held := by
  simp [State.mvSet]

@[simp] theorem State.markBad_held (s : State) (ch k : Nat) (v : MoveSt) (code addr syn : Nat) :
    (s.markBad ch k v code addr syn).held = s.held := by
  simp -implicitDefEqProofs [State.markBad]

@[simp] theorem State.readIssued_held (s : State) (ch k : Nat) (v : MoveSt) : (s.readIssued ch k v).held = s.held := by
  simp [State.readIssued]

@[simp] theorem State.moveJoin_held (s : State) (ch : Nat) (w : BitVec 128) : (s.moveJoin ch w).held = s.held := by
  simp [State.moveJoin]

@[simp] theorem State.waitOver_held (s : State) (ch : Nat) (w : BitVec 128) : (s.waitOver ch w).held = s.held := by
  simp [State.waitOver]

@[simp] theorem State.jigRelease_held (s : State) (p : Nat) : (s.jigRelease p).held = s.held := by
  unfold State.jigRelease
  rw [foldl_held]
  intro u ch
  dsimp only
  split <;> simp

@[simp] theorem State.signalEnd_held (s : State) (ch code a : Nat) : (s.signalEnd ch code a).held = s.held := by
  simp [State.signalEnd]

@[simp] theorem State.endRest_held (s : State) (ch : Nat) (w : BitVec 128) : (s.endRest ch w).held = s.held := by
  simp [State.endRest]

@[simp] theorem State.storeEnd_held (s : State) (ch : Nat) (w : BitVec 128) (code : Nat) :
    (s.storeEnd ch w code).held = s.held := by
  simp [State.storeEnd]

@[simp] theorem State.moveAnswer_held (s : State) (ch k : Nat) (v : MoveSt) (key code : Nat) (data : List Byte) :
    (s.moveAnswer ch k v key code data).held = s.held := by
  unfold State.moveAnswer
  split <;> simp

@[simp] theorem State.jigHalt_held (s : State) (ch : Nat) : (s.jigHalt ch).held = s.held := by simp [State.jigHalt]

@[simp] theorem State.jigClear_held (s : State) (ch : Nat) : (s.jigClear ch).held = s.held := by simp [State.jigClear]

@[simp] theorem State.jigResume_held (s : State) (f : Func) (e : Nat) (skip : Bool) :
    (s.jigResume f e skip).held = s.held := by
  simp [State.jigResume]

/-! ## Fit records and the close of a step (spec/07) -/

@[simp] theorem State.fitSet_held (s : State) (f : Nat) (x : FitRec) : (s.fitSet f x).held = s.held := by simp [State.fitSet]

@[simp] theorem State.fitClear_held (s : State) (f : Nat) (owner : Option Nat) : (s.fitClear f owner).held = s.held := by
  simp [State.fitClear]

@[simp] theorem State.proofDropped_held (s : State) (p n : Nat) : (s.proofDropped p n).held = s.held := by
  simp [State.proofDropped]

@[simp] theorem State.proofOutlier_held (s : State) (c target : Nat) : (s.proofOutlier c target).held = s.held := by
  simp [State.proofOutlier]

@[simp] theorem State.proofPost_held (s : State) (c p : Nat) (j : Job) (num den : Nat) :
    (s.proofPost c p j num den).held = s.held := by
  simp [State.proofPost]

@[simp] theorem State.fitTableErr_held (s : State) (p f code addr : Nat) : (s.fitTableErr p f code addr).held = s.held := by
  simp [State.fitTableErr]

@[simp] theorem State.setResidents_held (s : State) (p : Nat) (rs : List (Nat × Nat)) :
    (s.setResidents p rs).held = s.held := by
  simp [State.setResidents]

@[simp] theorem State.finishStep_held (s : State) (p : Nat) : (s.finishStep p).held = s.held := by simp [State.finishStep]

@[simp] theorem State.discardJobs_held (s : State) (p : Nat) : (s.discardJobs p).held = s.held := by simp [State.discardJobs]

/-! ## Memory instructions (spec/08, spec/09) -/

@[simp] theorem State.parkDue_held (s : State) (gx : Nat) : (s.parkDue gx).held = s.held := by
  unfold State.parkDue
  dsimp only
  repeat' split
  all_goals simp

@[simp] theorem State.acquireEnd_held (s : State) (gx id rpc : Nat) (o : OpenOp) :
    (s.acquireEnd gx id rpc o).held = s.held := by
  simp [State.acquireEnd]

@[simp] theorem State.opEnd_held (s : State) (gx id : Nat) (kind : ReqKind) : (s.opEnd gx id kind).held = s.held := by
  unfold State.opEnd
  dsimp only
  repeat' split
  all_goals simp

@[simp] theorem State.clampCheck_held (s : State) (gx : Nat) : (s.clampCheck gx).held = s.held := by simp [State.clampCheck]

@[simp] theorem State.reqEnd_held (s : State) (gx k : Nat) (r : MemReq) (fails : List (Nat × Nat × Nat)) :
    (s.reqEnd gx k r fails).held = s.held := by
  simp [State.reqEnd]

@[simp] theorem State.trySend_held (s : State) (gx k : Nat) : (s.trySend gx k).held = s.held := by
  unfold State.trySend
  dsimp only
  split
  · rfl
  · split
    · rfl
    · split <;> next h => simp [snd_held h]

@[simp] theorem State.groupRemote_held (s : State) (gx key code : Nat) (data : List Byte) :
    (s.groupRemote gx key code data).held = s.held := by
  unfold State.groupRemote
  dsimp only
  repeat' split
  all_goals simp

@[simp] theorem State.memIssue_held (s : State) (gx : Nat) (kind : ReqKind) (dst : Nat) (progress done : Bool)
    (accs : List LaneAcc) (fails : List (Nat × Nat × Nat)) :
    (s.memIssue gx kind dst progress done accs fails).held = s.held := by
  unfold State.memIssue
  dsimp only
  cases kind <;> simp

@[simp] theorem State.laneFaults_held (s : State) (gx : Nat) (fails : List (Nat × Nat × Nat)) (partly : Bool) :
    (s.laneFaults gx fails partly).held = s.held := by
  simp [State.laneFaults]

/-! ## Matrix panels (spec/05, spec/06) -/

@[simp] theorem State.enqueue_held (s : State) (gx : Nat) (q : PCmd) : (s.enqueue gx q).held = s.held := by
  simp [State.enqueue]

@[simp] theorem State.startCmd_held (s : State) (c : Nat) (r : RunCmd) : (s.startCmd c r).held = s.held := by
  simp [State.startCmd]

@[simp] theorem State.panelErr_held (s : State) (c : Nat) (q : PCmd) (code : Nat) : (s.panelErr c q code).held = s.held := by
  simp [State.panelErr]

@[simp] theorem State.panelEcc_held (s : State) (c : Nat) (q : PCmd) (ecc : Ecc) : (s.panelEcc c q ecc).held = s.held := by
  unfold State.panelEcc
  split <;> simp

@[simp] theorem State.passAll_held (s : State) (c : Nat) (q : PCmd) : (s.passAll c q).held = s.held := by simp [State.passAll]

@[simp] theorem State.drainRows_held (s : State) (c : Nat) (q : PCmd) (lim n : Nat) :
    (s.drainRows c q lim n).2.held = s.held := by
  simp [State.drainRows]

@[simp] theorem State.drainFail_held (s : State) (c : Nat) (r : RunCmd) (code : Nat) :
    (s.drainFail c r code).2.held = s.held := by
  simp [State.drainFail]

@[simp] theorem State.drainRemote_held (s : State) (c key code : Nat) : (s.drainRemote c key code).held = s.held := by
  unfold State.drainRemote
  dsimp only
  repeat' split
  all_goals simp

@[simp] theorem State.countUp_held (s : State) (c k : Nat) : (s.countUp c k).held = s.held := by
  unfold State.countUp
  dsimp only
  split
  · rfl
  · rw [foldl_held]
    · simp
    · intro u n
      split <;> simp

@[simp] theorem State.flagDrain_held (s : State) (c : Nat) (r : RunCmd) : (s.flagDrain c r).held = s.held := by
  simp [State.flagDrain]

@[simp] theorem State.sampleTiles_held (s : State) (c : Nat) (r : RunCmd) : (s.sampleTiles c r).held = s.held := by
  unfold State.sampleTiles
  split <;> simp

@[simp] theorem State.drainDone_held (s : State) (c : Nat) (r : RunCmd) : (s.drainDone c r).held = s.held := by
  simp [State.drainDone]

@[simp] theorem State.asyncFault_held (s : State) (c : Nat) (r : RunCmd) : (s.asyncFault c r).held = s.held := by
  unfold State.asyncFault
  split <;> simp

/-! ## Spline links (spec/15) -/

@[simp] theorem State.discardMsg_held (s : State) : s.discardMsg.held = s.held := by simp [State.discardMsg]

@[simp] theorem State.leave_held (s : State) (die : Nat) (own : Option Nat) (kind : Nat) (m : Msg) :
    (s.leave die own kind m).2.held = s.held := by
  unfold State.leave
  split
  · rfl
  · next h => simp [State.choose_held h]

@[simp] theorem State.respond_held (s : State) (die code : Nat) (data : List Byte) (m : Msg) :
    (s.respond die code data m).held = s.held := by
  unfold State.respond
  dsimp only
  split <;> next h => simp [snd_held h]

@[simp] theorem State.peerLost_held (s : State) (n : Nat) : (s.peerLost n).held = s.held := by
  simp -implicitDefEqProofs [State.peerLost]

@[simp] theorem State.sendInit_held (s : State) (n : Nat) : (s.sendInit n).held = s.held := by simp [State.sendInit]

@[simp] theorem State.resend_held (s : State) (n : Nat) : (s.resend n).held = s.held := by
  simp -implicitDefEqProofs [State.resend]

@[simp] theorem State.fecCount_held (s : State) (n : Nat) (bad : Bool) : (s.fecCount n bad).held = s.held := by
  simp -implicitDefEqProofs [State.fecCount]

@[simp] theorem State.commitAcked_held (s : State) (p : Nat) : (s.commitAcked p).held = s.held := by simp [State.commitAcked]

@[simp] theorem State.ackFlits_held (s : State) (n ack : Nat) : (s.ackFlits n ack).held = s.held := by
  unfold State.ackFlits
  dsimp only
  split
  · rfl
  · rw [foldl_held]
    · simp
    · intro u e
      split <;> simp

@[simp] theorem State.creditBack_held (s : State) (n vc count : Nat) : (s.creditBack n vc count).held = s.held := by
  simp [State.creditBack]

@[simp] theorem State.flitHeader_held (s : State) (n ack vc count : Nat) : (s.flitHeader n ack vc count).held = s.held := by
  simp [State.flitHeader]

@[simp] theorem State.resendMore_held (s : State) (n : Nat) : (s.resendMore n).held = s.held := by
  simp -implicitDefEqProofs [State.resendMore]

@[simp] theorem State.linkEnable_held (s : State) (n : Nat) : (s.linkEnable n).held = s.held := by
  simp -implicitDefEqProofs [State.linkEnable]

@[simp] theorem State.splineUrge_held (s : State) (n vc : Nat) : (s.splineUrge n vc).held = s.held := by
  simp [State.splineUrge]

@[simp] theorem State.sendMarks_held (s : State) (p : Nat) : (s.sendMarks p).held = s.held := by
  unfold State.sendMarks
  dsimp only
  rw [foldl_held]
  intro u j
  split
  · rfl
  · split <;> next h => simp [snd_held h]

@[simp] theorem State.dropRequests_held (s : State) (p : Nat) : (s.dropRequests p).held = s.held := by
  simp [State.dropRequests]

@[simp] theorem State.dropQueued_held (s : State) (p : Nat) : (s.dropQueued p).held = s.held := by
  simp -implicitDefEqProofs [State.dropQueued]

@[simp] theorem State.moveRequests_held (s : State) (p : Nat) : (s.moveRequests p).held = s.held := by
  simp [State.moveRequests]

/-! ## What resets leave (spec/21) -/

@[simp] theorem State.limitUpdate_held (s : State) : s.limitUpdate.held = s.held := by simp [State.limitUpdate]

@[simp] theorem State.dropTaken_held (s : State) (c : Nat) (p : Option Nat) : (s.dropTaken c p).held = s.held := by
  unfold State.dropTaken
  split <;> simp

@[simp] theorem State.coreBlockSet_held (s : State) (c : Nat) (b : CoreBlock) : (s.coreBlockSet c b).held = s.held := by
  simp [State.coreBlockSet]

@[simp] theorem State.coresMove_held (s : State) (moves : List (Nat × Nat × Nat)) : (s.coresMove moves).held = s.held := by
  simp [State.coresMove]

@[simp] theorem State.dropBasting_held (s : State) : s.dropBasting.held = s.held := by simp [State.dropBasting]

@[simp] theorem State.unpickWith_held (s : State) (code detail op : Nat) (who : Option Func) :
    (s.unpickWith code detail op who).held = s.held := by
  simp [State.unpickWith]

@[simp] theorem State.pinDrop_held (s : State) (p : Nat) : (s.pinDrop p).held = s.held := by
  unfold State.pinDrop
  split <;> simp

@[simp] theorem State.failQueued_held (s : State) (p : Nat) : (s.failQueued p).held = s.held := by
  simp -implicitDefEqProofs [State.failQueued]

@[simp] theorem State.turnoverDone_held (s : State) (ps : List Nat) : (s.turnoverDone ps).held = s.held := by
  simp -implicitDefEqProofs [State.turnoverDone]

@[simp] theorem State.rekey_held (s : State) (gone : List Nat) : (s.rekey gone).held = s.held := by simp [State.rekey]

/-! ## Power delivery (spec/17) -/

@[simp] theorem State.supplyRec_held (s : State) (cause a b : Nat) (part : Option Nat) :
    (s.supplyRec cause a b part).held = s.held := by
  simp [State.supplyRec]

@[simp] theorem State.pwrEvt_held (s : State) (i : Nat) : (s.pwrEvt i).held = s.held := by simp [State.pwrEvt]

@[simp] theorem State.powerAsk_held (s : State) (p : Nat) : (s.powerAsk p).held = s.held := by simp [State.powerAsk]

@[simp] theorem State.powerDown_held (s : State) (p : Nat) (st : DomainState) : (s.powerDown p st).held = s.held := by
  simp [State.powerDown]

@[simp] theorem State.measureUp_held (s : State) (p : Nat) : (s.measureUp p).held = s.held := by
  unfold State.measureUp
  split <;> simp

@[simp] theorem State.trim_held (s : State) (down : Bool) (n : Nat) : (s.trim down n).held = s.held := by
  induction n generalizing s with
  | zero => rfl
  | succ n ih =>
    rw [State.trim]
    split
    · rfl
    · simp [ih]

@[simp] theorem State.trimStatus_held (s : State) : s.trimStatus.held = s.held := by simp [State.trimStatus]

@[simp] theorem State.dipRec_held (s : State) (rail tick : Nat) : (s.dipRec rail tick).held = s.held := by simp [State.dipRec]

/-! ## Basting (spec/02) -/

@[simp] theorem State.refuse_held (s : State) (detail op : Nat) (f : Option Func) : (s.refuse detail op f).held = s.held := by
  simp [State.refuse]

@[simp] theorem State.escResult_held (s : State) (detail : Nat) : (s.escResult detail).held = s.held := by
  simp -implicitDefEqProofs [State.escResult]

@[simp] theorem State.loadToken_held (s : State) (t : TokenIn) : (s.loadToken t).held = s.held := by
  simp -implicitDefEqProofs [State.loadToken]

@[simp] theorem State.loadTake_held (s : State) (code : Nat) (bs : List Byte) : (s.loadTake code bs).held = s.held := by
  unfold State.loadTake
  dsimp only
  repeat' split
  all_goals simp

/-! ## The redundant pair (spec/21) -/

@[simp] theorem State.pairEvt_held (s : State) (i : Nat) : (s.pairEvt i).held = s.held := by simp [State.pairEvt]

@[simp] theorem State.endMirroring_held (s : State) : s.endMirroring.held = s.held := by simp [State.endMirroring]

@[simp] theorem State.setRole_held (s : State) (r : Role) : (s.setRole r).held = s.held := by simp [State.setRole]

@[simp] theorem State.goStale_held (s : State) : s.goStale.held = s.held := by simp [State.goStale]

@[simp] theorem State.mirrorPost_held (s : State) (kind p a : Nat) (bs : List Byte) :
    (s.mirrorPost kind p a bs).held = s.held := by
  unfold State.mirrorPost
  split
  · rfl
  · next h => simp [State.choose_held h]

@[simp] theorem State.sendBeats_held (s : State) : s.sendBeats.held = s.held := by simp [State.sendBeats]

@[simp] theorem State.mirrorIn_held (s : State) (n kind : Nat) (body : Msg → State → State)
    (h : ∀ m u, (body m u).held = u.held) : (s.mirrorIn n kind body).held = s.held := by
  conv in State.mirrorIn => delta State.mirrorIn
  extract_lets v
  have hv : v.held = s.held := State.urge_held ..
  split
  · exact hv
  · split
    · exact hv
    · refine (State.together_held _ _ fun u => ?_).trans hv
      conv => lhs; arg 1; zeta
      simp -implicitDefEqProofs [h]

@[simp] theorem State.mirrorRange_held (x : State × List Byte) (kind p a : Nat) (bs : List Byte) :
    (State.mirrorRange x kind p a bs).1.held = x.1.held := by
  simp [State.mirrorRange]

@[simp] theorem State.deltaErr_held (s : State) (p code a : Nat) : (s.deltaErr p code a).held = s.held := by
  simp [State.deltaErr]

/-! ## The escutcheon (spec/20) -/

@[simp] theorem State.applyRelock_held (s : State) : s.applyRelock.held = s.held := by simp [State.applyRelock]

@[simp] theorem State.tokUsed_held (s : State) (seq : Nat) : (s.tokUsed seq).held = s.held := by simp [State.tokUsed]

/-! ## Thermal monitors and alterations (spec/18) -/

@[simp] theorem State.thermRec_held (s : State) (cause a b : Nat) (part : Option Nat) :
    (s.thermRec cause a b part).held = s.held := by
  simp [State.thermRec]

@[simp] theorem State.thmEvt_held (s : State) (i : Nat) : (s.thmEvt i).held = s.held := by simp [State.thmEvt]

@[simp] theorem State.judgeSensor_held (s : State) (d i : Nat) : (s.judgeSensor d i).held = s.held := by
  simp [State.judgeSensor]

@[simp] theorem State.judgeMiddle_held (s : State) (d : Nat) (est : Int) : (s.judgeMiddle d est).held = s.held := by
  simp [State.judgeMiddle]

@[simp] theorem State.shutDown_held (s : State) (d : Nat) : (s.shutDown d).held = s.held := by simp [State.shutDown]

@[simp] theorem State.judgeDie_held (s : State) (d : Nat) : (s.judgeDie d).held = s.held := by
  unfold State.judgeDie
  dsimp only
  repeat' split
  all_goals simp

@[simp] theorem State.altNext_held (s : State) (a : Alteration) (rest : List Nat) (retry : List Nat) :
    (s.altNext a rest retry).held = s.held := by
  unfold State.altNext
  split <;> simp

@[simp] theorem State.altPoll_held (s : State) (n : Nat) : (s.altPoll n).held = s.held := by
  induction n generalizing s with
  | zero => rfl
  | succ n ih =>
    rw [State.altPoll]
    split
    · rfl
    · split <;> simp [ih]

@[simp] theorem State.altGo_held (s : State) : s.altGo.held = s.held := by
  unfold State.altGo
  split <;> simp

@[simp] theorem State.altStart_held (s : State) (cores : List Nat) : (s.altStart cores).held = s.held := by
  simp [State.altStart]

@[simp] theorem State.altCmd_held (s : State) (f : Func) (cores : List Nat) : (s.altCmd f cores).held = s.held := by
  simp [State.altCmd]

@[simp] theorem State.altOff_held (s : State) (a : Alteration) (p : Nat) : (s.altOff a p).held = s.held := by
  simp [State.altOff]

@[simp] theorem State.pinLevel_held (s : State) (x : Nat) (high : Bool) : (s.pinLevel x high).held = s.held := by
  simp [State.pinLevel]

/-! ## Base boundaries, steps and the commit (spec/03) -/

@[simp] theorem State.beginTick_held (s : State) : s.beginTick.held = s.held := by simp [State.beginTick]

@[simp] theorem State.edgeAccepted_held (s : State) (arrival : Int) : (s.edgeAccepted arrival).held = s.held := by
  simp [State.edgeAccepted]

@[simp] theorem State.admitFrom_held (s : State) (p tail : Nat) (n : Nat) (m : Nat) :
    (s.admitFrom p tail n m).2.held = s.held := by
  induction n generalizing s m with
  | zero => rfl
  | succ n ih => simp [State.admitFrom, ih]

@[simp] theorem State.startSupervisors_held (s : State) (p : Nat) : (s.startSupervisors p).held = s.held := by
  simp [State.startSupervisors]

@[simp] theorem State.maintenance_held (s : State) (p : Nat) : (s.maintenance p).held = s.held := by
  unfold State.maintenance
  dsimp only
  repeat' split
  all_goals simp

@[simp] theorem State.stopPart_held (s : State) (p : Nat) : (s.stopPart p).held = s.held := by simp [State.stopPart]

@[simp] theorem State.holdStage_held (s : State) : s.holdStage.held = s.held := by
  unfold State.holdStage
  split <;> simp

@[simp] theorem State.sampleTails_held (s : State) : s.sampleTails.held = s.held := by simp [State.sampleTails]

@[simp] theorem State.mapOut_held (s : State) (t : Pat) : (s.mapOut t).held = s.held := by
  unfold State.mapOut
  rw [foldl_held]
  intro u n
  dsimp only
  rw [held_mk]
  exact held_fold u

@[simp] theorem State.giveUp_held (s : State) (p : Nat) : (s.giveUp p).held = s.held := by simp [State.giveUp]

@[simp] theorem State.commitPower_held (s : State) (old new : Pat) : (s.commitPower old new).held = s.held := by
  unfold State.commitPower
  dsimp only
  repeat' split
  all_goals simp

@[simp] theorem State.commitTick_held (s : State) (old new : Pat) : (s.commitTick old new).held = s.held := by
  simp [State.commitTick]

@[simp] theorem State.commitParts_held (s : State) (aff : List Nat) : (s.commitParts aff).held = s.held := by
  simp [State.commitParts]

@[simp] theorem State.commitBook_held (s : State) (old new : Pat) (aff : List Nat) :
    (s.commitBook old new aff).held = s.held := by
  unfold State.commitBook
  split <;> simp

@[simp] theorem State.firstBoundary_held (s : State) : s.firstBoundary.held = s.held := by simp [State.firstBoundary]

/-! ## Bring-up and resets (spec/21) -/

@[simp] theorem State.brupRefused_held (s : State) : s.brupRefused.held = s.held := by
  simp -implicitDefEqProofs [State.brupRefused]

@[simp] theorem State.brupEvt_held (s : State) (i : Nat) : (s.brupEvt i).held = s.held := by simp [State.brupEvt]

@[simp] theorem State.brupGo_held (s : State) (f : Func) (n : Nat) (body : State → State) (h : ∀ u, (body u).held = u.held) :
    (s.brupGo f n body).held = s.held := by
  simp [State.brupGo, h]

@[simp] theorem State.stepEnd_held (s : State) (detail : Nat) : (s.stepEnd detail).held = s.held := by simp [State.stepEnd]

@[simp] theorem State.mapOutNow_held (s : State) (n : Nat) : (s.mapOutNow n).held = s.held := by simp [State.mapOutNow]

@[simp] theorem State.escHalt_held (s : State) (code : Nat) : (s.escHalt code).held = s.held := by simp [State.escHalt]

@[simp] theorem State.dowelDone_held (s : State) (bad : List Nat) : (s.dowelDone bad).held = s.held := by
  simp -implicitDefEqProofs [State.dowelDone]

@[simp] theorem State.hbmDone_held (s : State) (bad : List Nat) : (s.hbmDone bad).held = s.held := by simp [State.hbmDone]

@[simp] theorem State.katCore_held (s : State) (p : Nat) : (s.katCore p).held = s.held := by simp [State.katCore]

@[simp] theorem State.katUnit_held (s : State) (id : Nat) : (s.katUnit id).held = s.held := by
  simp -implicitDefEqProofs [State.katUnit]

@[simp] theorem State.katSlice_held (s : State) (k : Nat) : (s.katSlice k).held = s.held := by
  simp only [State.katSlice]
  split <;> simp

@[simp] theorem State.katFail_held (s : State) (x : Nat) : (s.katFail x).held = s.held := by simp [State.katFail]

@[simp] theorem State.stackPhase_held (s : State) (n : Nat) : (s.stackPhase n).held = s.held := by simp [State.stackPhase]

@[simp] theorem State.accPathFail_held (s : State) (k : Nat) : (s.accPathFail k).held = s.held := by
  simp -implicitDefEqProofs [State.accPathFail]

@[simp] theorem State.groupPathFail_held (s : State) (k gx : Nat) (n : Nat) : (s.groupPathFail k gx n).held = s.held := by
  induction n generalizing s with
  | zero => rfl
  | succ i ih =>
    rw [State.groupPathFail]
    dsimp only
    rw [ih]
    split <;> simp

@[simp] theorem State.hostCut_held (s : State) (k port : Nat) (q : HostOp) : (s.hostCut k port q).2.held = s.held := by
  simp [State.hostCut]

@[simp] theorem State.hostPathFail_held (s : State) (k port : Nat) : (s.hostPathFail k port).held = s.held := by
  simp [State.hostPathFail]

@[simp] theorem State.drainPathFail_held (s : State) (k c : Nat) : (s.drainPathFail k c).held = s.held := by
  unfold State.drainPathFail
  rw [foldl_held]
  intro u i
  split <;> simp

@[simp] theorem State.outSet_held (s : State) (k : Nat) (out : Bool) : (s.outSet k out).held = s.held := by simp [State.outSet]

@[simp] theorem State.rejoin_held (s : State) (k : Nat) : (s.rejoin k).held = s.held := by simp [State.rejoin]

@[simp] theorem State.stackTrain_held (s : State) (k : Nat) (lanes : List Nat) : (s.stackTrain k lanes).held = s.held := by
  simp -implicitDefEqProofs [State.stackTrain]

@[simp] theorem State.stackRestore_held (s : State) (k : Nat) (lanes bad : List Nat) :
    (s.stackRestore k lanes bad).held = s.held := by
  simp [State.stackRestore]

/-! ## Park actions (spec/08) -/

@[simp] theorem State.pregWrite_held (s : State) (c sel : Nat) (v : Word) : (s.pregWrite c sel v).held = s.held := by
  simp [State.pregWrite]

@[simp] theorem State.supervisor_held (s : State) (gx : Nat) (body : State → State) (h : ∀ u, (body u).held = u.held) :
    (s.supervisor gx body).held = s.held := by
  simp [State.supervisor, h]

@[simp] theorem State.writeAll_held (s : State) (gx d : Nat) (v : Word) : (s.writeAll gx d v).held = s.held := by
  simp [State.writeAll]

/-! ## The tick bus (spec/16) -/

@[simp] theorem State.busAnswer_held (s : State) (rsp : Bool) : (s.busAnswer rsp).held = s.held := by simp [State.busAnswer]

@[simp] theorem State.busEvt_held (s : State) (i : Nat) : (s.busEvt i).held = s.held := by simp [State.busEvt]

@[simp] theorem State.cycle_held (s : State) (parityOk : Bool) (rsp : Bool) (body : State → State)
    (h : ∀ u, (body u).held = u.held) : (s.cycle parityOk rsp body).held = s.held := by
  simp [State.cycle, h]

/-! ## BAR0 (spec/00, spec/16) -/

@[simp] theorem State.msixWrite_held (s : State) (q e w : Nat) (v : Word) : (s.msixWrite q e w v).held = s.held := by
  simp [State.msixWrite]

@[simp] theorem State.wordSet_held (s : State) (key : Nat) (rw w1c : Word) (v : Word) (same : Bool) :
    (s.wordSet key rw w1c v same).held = s.held := by
  simp [State.wordSet]

@[simp] theorem State.appartSet_held (s : State) (r : Req) (v : Word) : (s.appartSet r v).held = s.held := by
  unfold State.appartSet
  split <;> simp

@[simp] theorem State.stepWrite_held (s : State) (r : Req) (v : Word) : (s.stepWrite r v).held = s.held := by
  unfold State.stepWrite
  split <;> simp -implicitDefEqProofs

@[simp] theorem State.narrowWrite_held (s : State) (r : Req) (row : RegRow) (o : Nat) (v : Word) (same : Bool) :
    (s.narrowWrite r row o v same).held = s.held := by
  simp [State.narrowWrite]

@[simp] theorem State.wideWrite_held (s : State) (r : Req) (row : RegRow) (o : Nat) (low : Option Word) (v : Word) :
    (s.wideWrite r row o low v).held = s.held := by
  unfold State.wideWrite
  dsimp only
  repeat' split
  all_goals simp

@[simp] theorem State.writeWord_held (s : State) (r : Req) (o : Nat) (v : Word) (same : Bool) :
    (s.writeWord r o v same).held = s.held := by
  unfold State.writeWord
  dsimp only
  repeat' split
  all_goals simp

/-! ## Management and attestation (spec/16, spec/20) -/

@[simp] theorem State.alertOver_held (s : State) : s.alertOver.held = s.held := by simp [State.alertOver]

@[simp] theorem State.spdmSet_held (s : State) (t : Transport) (x : Spdm) : (s.spdmSet t x).held = s.held := by
  simp [State.spdmSet]

@[simp] theorem State.spdmSend_held (s : State) (t : Transport) (m : List Byte) : (s.spdmSend t m).held = s.held := by
  simp [State.spdmSend]

@[simp] theorem State.spdmError_held (s : State) (t : Transport) (err : Nat) : (s.spdmError t err).held = s.held := by
  simp [State.spdmError]

@[simp] theorem State.spdmTake_held (s : State) (t : Transport) (stage : Nat) (body : State → State)
    (h : ∀ u, (body u).held = u.held) : (s.spdmTake t stage body).held = s.held := by
  simp [State.spdmTake, h]

@[simp] theorem State.spdmAnswer_held (s : State) (t : Transport) (part : SpdmPart) (req resp : List Byte) :
    (s.spdmAnswer t part req resp).held = s.held := by
  simp [State.spdmAnswer]

@[simp] theorem State.spdmSigned_held (s : State) (t : Transport) (part : SpdmPart) (req resp : List Byte) :
    (s.spdmSigned t part req resp).held = s.held := by
  simp [State.spdmSigned]

@[simp] theorem State.spdmStage_held (s : State) (t : Transport) (stage : Nat) : (s.spdmStage t stage).held = s.held := by
  simp [State.spdmStage]
end Sys2Proof.Machine

namespace Sys2Proof.Machine

/-! ## What keeps the form

`simp` uses an implication only through its discharger, and that no deeper than two levels. `State.Keeps s t`, which says no
more than `s.held.Leads t.held` (`keeps_of`, `State.Keeps.leads`), is therefore an equivalence that `simp` rewrites with, however
deep the operations are nested: `t` is led to if `s` is, and the other disjunct, under a name of its own, is left alone. -/

/-- `Held.Leads` under a name that no rewrite rule speaks of. -/
def Held.Yields (h k : Held) : Prop := h.Leads k

/-- From `s` to `t` the queue is kept, and so is the form of the memories. -/
abbrev State.Keeps (s t : State) : Prop := ∀ h : Held, h.Leads t.held ↔ h.Yields t.held ∨ h.Leads s.held

theorem Held.Leads.trans {h k l : Held} (hk : h.Leads k) (kl : k.Leads l) : h.Leads l :=
  ⟨kl.queue.trans hk.queue, fun w => kl.wf (hk.wf w)⟩

theorem keeps_of {s t : State} (hl : s.held.Leads t.held) : s.Keeps t :=
  fun _ => ⟨.inl, fun o => o.elim id fun hs => hs.trans hl⟩

theorem State.Keeps.leads {s t : State} (hk : s.Keeps t) : s.held.Leads t.held := (hk s.held).2 (.inr (.refl _))

@[simp] theorem ite_leads (h a b : Held) (c : Prop) [Decidable c] :
    h.Leads (if c then a else b) ↔ if c then h.Leads a else h.Leads b := by
  split <;> rfl

/-- What every step of a fold keeps, the fold keeps, wherever in its accumulator `g` the state stands. -/
theorem foldl_keeps_at {σ β : Type} (g : σ → State) (f : σ → β → σ) (hf : ∀ x e, (g x).held.Leads (g (f x e)).held) (l : List β)
    (x : σ) : (g x).Keeps (g (l.foldl f x)) := by
  induction l generalizing x with
  | nil => exact keeps_of (.refl _)
  | cons e l ih => exact keeps_of ((hf x e).trans (ih (f x e)).leads)

@[simp] theorem foldl_keeps_state {β : Type} (f : State → β → State) (hf : ∀ (u : State) (e : β), u.held.Leads (f u e).held) (l : List β)
    (s : State) : s.Keeps (l.foldl f s) :=
  foldl_keeps_at (fun u => u) f hf l s

@[simp] theorem foldl_keeps_fst {α β : Type} (f : State × α → β → State × α) (hf : ∀ (u : State × α) (e : β), u.1.held.Leads (f u e).1.held)
    (l : List β) (s : State × α) : s.1.Keeps (l.foldl f s).1 :=
  foldl_keeps_at (·.1) f hf l s

@[simp] theorem foldl_keeps_snd {α β : Type} (f : α × State → β → α × State) (hf : ∀ (u : α × State) (e : β), u.2.held.Leads (f u e).2.held)
    (l : List β) (s : α × State) : s.2.Keeps (l.foldl f s).2 :=
  foldl_keeps_at (·.2) f hf l s

@[simp] theorem foldl_keeps_mid {α β γ : Type} (f : α × State × γ → β → α × State × γ)
    (hf : ∀ (u : α × State × γ) (e : β), u.2.1.held.Leads (f u e).2.1.held) (l : List β) (s : α × State × γ) : s.2.1.Keeps (l.foldl f s).2.1 :=
  foldl_keeps_at (·.2.1) f hf l s

@[simp] theorem foldl_keeps_last {α β γ : Type} (f : α × γ × State → β → α × γ × State)
    (hf : ∀ (u : α × γ × State) (e : β), u.2.2.held.Leads (f u e).2.2.held) (l : List β) (s : α × γ × State) : s.2.2.Keeps (l.foldl f s).2.2 :=
  foldl_keeps_at (·.2.2) f hf l s

/-! ## The memories one by one -/

theorem leads_of_memWf {s t : State} (hq : t.pending = s.pending) (hw : s.memWf = true → t.memWf = true) :
    s.held.Leads t.held := ⟨hq, hw⟩

theorem Held.wf_iff (h : Held) : h.wf = true ↔
    cellsWf h.bar4 = true ∧ cellsWf h.staging = true ∧ cellsWf h.lining = true ∧ sortedKeys h.hbm = true := by
  simp [Held.wf, and_assoc]

theorem State.leads_bar4 (s : State) {m : List Host.Cell} (hm : cellsWf s.bar4 = true → cellsWf m = true) :
    s.held.Leads ⟨s.pending, m, s.staging, s.lin.data, s.hbm.data⟩ := by
  refine ⟨rfl, fun w => ?_⟩
  rw [Held.wf_iff] at w ⊢
  exact ⟨hm w.1, w.2⟩

theorem State.leads_staging (s : State) {m : List Host.Cell} (hm : cellsWf s.staging = true → cellsWf m = true) :
    s.held.Leads ⟨s.pending, s.bar4, m, s.lin.data, s.hbm.data⟩ := by
  refine ⟨rfl, fun w => ?_⟩
  rw [Held.wf_iff] at w ⊢
  exact ⟨w.1, hm w.2.1, w.2.2⟩

theorem State.leads_lining (s : State) {m : List Host.Cell} (hm : cellsWf s.lin.data = true → cellsWf m = true) :
    s.held.Leads ⟨s.pending, s.bar4, s.staging, m, s.hbm.data⟩ := by
  refine ⟨rfl, fun w => ?_⟩
  rw [Held.wf_iff] at w ⊢
  exact ⟨w.1, w.2.1, hm w.2.2.1, w.2.2.2⟩

theorem State.leads_hbm (s : State) {m : List Host.Cell} (hm : sortedKeys s.hbm.data = true → sortedKeys m = true) :
    s.held.Leads ⟨s.pending, s.bar4, s.staging, s.lin.data, m⟩ := by
  refine ⟨rfl, fun w => ?_⟩
  rw [Held.wf_iff] at w ⊢
  exact ⟨w.1, w.2.1, w.2.2.1, hm w.2.2.2⟩

/-- A fold of writes keeps the canonical form. -/
theorem cellsWf_foldl {β : Type} (f : List Host.Cell → β → List Host.Cell)
    (hf : ∀ m e, cellsWf m = true → cellsWf (f m e) = true) (l : List β) (m : List Host.Cell) (h : cellsWf m = true) :
    cellsWf (l.foldl f m) = true := by
  induction l generalizing m with
  | nil => exact h
  | cons e l ih => exact ih _ (hf m e h)

/-! ## Registers, the log and the interrupt sources -/

@[simp] theorem State.ctlSet_keeps (s : State) (p off n v : Nat) : s.Keeps (s.ctlSet p off n v) :=
  keeps_of (leads_of_memWf rfl (memWf_ctlSet s p off n v))

/-! ## The error log and the interrupt controller (spec/19) -/

/-! ## Dowel links and regulators (spec/14) -/

/-! ## HBM (spec/11) -/

@[simp] theorem State.stackSet_hbm_data (s : State) (m : Nat) (v : StackSt) : (s.stackSet m v).hbm.data = s.hbm.data := rfl

@[simp] theorem State.hbmStore_keeps (s : State) (k : Nat) (x : HSec) (bs : List Byte) : s.Keeps (s.hbmStore k x bs) :=
  keeps_of (s.leads_hbm (sortedKeys_putCells _ _ _))

@[simp] theorem State.hbmWrite_keeps (s : State) (a : Nat) (bs : List Byte) (poison : Bool) : s.Keeps (s.hbmWrite a bs poison) := keeps_of (by simp [State.hbmWrite])

@[simp] theorem State.condemn_keeps (s : State) (n : Nat) : s.Keeps (s.condemn n) := keeps_of (by simp [State.condemn])

@[simp] theorem State.correctedError_keeps (s : State) (n : Nat) : s.Keeps (s.correctedError n) := keeps_of (by simp -implicitDefEqProofs [State.correctedError])

@[simp] theorem State.uncorrectable_keeps (s : State) (pch off a : Nat) (part : Option Nat) (ecc : Ecc) : s.Keeps (s.uncorrectable pch off a part ecc) := keeps_of (by simp -implicitDefEqProofs [State.uncorrectable])

@[simp] theorem State.hbmReadUnder_keeps (s : State) (gen a : Nat) (ecc : Ecc) : s.Keeps (s.hbmReadUnder gen a ecc).2.2 := keeps_of (by simp -implicitDefEqProofs [State.hbmReadUnder])

@[simp] theorem State.hbmRead_keeps (s : State) (a : Nat) (ecc : Ecc) : s.Keeps (s.hbmRead a ecc).2.2 := keeps_of (by simp [State.hbmRead])

@[simp] theorem State.hbmMerge_keeps (s : State) (a : Nat) (bs : List Byte) (ecc : Ecc) : s.Keeps (s.hbmMerge a bs ecc).2 := keeps_of (by simp [State.hbmMerge])

@[simp] theorem State.hbmUndefined_keeps (s : State) (pchs : List Nat) : s.Keeps (s.hbmUndefined pchs) :=
  keeps_of (leads_of_memWf rfl (memWf_hbmUndefined s pchs))

@[simp] theorem State.sectorServe_keeps (s : State) (gen a : Nat) (write : Option (List Byte)) (ecc : Ecc) : s.Keeps (s.sectorServe gen a write ecc) := by
  apply keeps_of
  unfold State.sectorServe
  split <;> simp

@[simp] theorem State.sectorsGo_keeps (s : State) (m : Nat) (sel : SectorWait → Bool) : s.Keeps (s.sectorsGo m sel) := keeps_of (by simp [State.sectorsGo])

@[simp] theorem State.lateGo_keeps (s : State) : s.Keeps s.lateGo := keeps_of (by simp [State.lateGo])

@[simp] theorem State.stackResumes_keeps (s : State) (m : Nat) : s.Keeps (s.stackResumes m) := keeps_of (by simp [State.stackResumes])

@[simp] theorem State.judgeStack_keeps (s : State) (m : Nat) : s.Keeps (s.judgeStack m) := by
  apply keeps_of
  unfold State.judgeStack
  dsimp only
  repeat' split
  all_goals simp

/-! ## The lining (spec/10) -/

@[simp] theorem State.linPut_keeps (s : State) (a : Nat) (bs : List Byte) : s.Keeps (s.linPut a bs) :=
  keeps_of (leads_of_memWf rfl (memWf_linPut s a bs))

@[simp] theorem State.linClear_keeps (s : State) (a n : Nat) : s.Keeps (s.linClear a n) :=
  keeps_of (leads_of_memWf rfl (memWf_linClear s a n))

@[simp] theorem State.forgetLine_keeps (s : State) (l : Nat) : s.Keeps (s.forgetLine l) := keeps_of (by simp [State.forgetLine])

@[simp] theorem State.install_keeps (s : State) (a : Nat) (bs : List Byte) : s.Keeps (s.install a bs) := keeps_of (by simp [State.install])

@[simp] theorem State.writeDirty_keeps (s : State) (die l : Nat) : s.Keeps (s.writeDirty die l) := keeps_of (by simp [State.writeDirty])

@[simp] theorem State.acceptWriteBack_keeps (s : State) (l sl : Nat) : s.Keeps (s.acceptWriteBack l sl) := keeps_of (by simp [State.acceptWriteBack])

@[simp] theorem State.evict_keeps (s : State) (l : Nat) : s.Keeps (s.evict l) := by
  apply keeps_of
  unfold State.evict
  split <;> simp

@[simp] theorem State.takeWay_keeps (s : State) (w : WayOf) : s.Keeps (s.takeWay w) := by
  apply keeps_of
  unfold State.takeWay
  split <;> simp

@[simp] theorem State.allocLine_keeps (s : State) (p l : Nat) (victim : Option Nat) : s.Keeps (s.allocLine p l victim) := by
  apply keeps_of
  unfold State.allocLine
  split <;> simp

@[simp] theorem State.fetchSector_keeps (s : State) (sl a : Nat) (ecc : Ecc) : s.Keeps (s.fetchSector sl a ecc).2 := keeps_of (by simp [State.fetchSector])

@[simp] theorem State.needSector_keeps (s : State) (p sl a : Nat) (ecc : Ecc) : s.Keeps (s.needSector p sl a ecc).2 := by
  apply keeps_of
  unfold State.needSector
  dsimp only
  repeat' split
  all_goals simp

@[simp] theorem State.storeSector_keeps (s : State) (sl a lo : Nat) (bs : List Byte) (cached : Bool) : s.Keeps (s.storeSector sl a lo bs cached) := keeps_of (by simp [State.storeSector])

@[simp] theorem State.modify_keeps (s : State) (p sl a len : Nat) (f : List Byte → List Byte) (ecc : Ecc) (cached : Bool) : s.Keeps (s.modify p sl a len f ecc cached).2.2 := keeps_of (by simp [State.modify])

@[simp] theorem State.performHeld_keeps (s : State) (x : Line) (u : LinAccess) : s.Keeps (s.performHeld x u) := by
  apply keeps_of
  unfold State.performHeld
  split <;> simp

@[simp] theorem State.copyTo_keeps (s : State) (p l die mask : Nat) : s.Keeps (s.copyTo p l die mask) := by
  apply keeps_of
  unfold State.copyTo
  dsimp only
  repeat' split
  all_goals simp

@[simp] theorem State.placeCopy_keeps (s : State) (agent : Agent) (p l cls : Nat) (secs : List Nat) : s.Keeps (s.placeCopy agent p l cls secs) := by
  apply keeps_of
  unfold State.placeCopy
  split <;> simp

@[simp] theorem State.copiesDue_keeps (s : State) : s.Keeps s.copiesDue := by
  apply keeps_of
  unfold State.copiesDue
  rw [foldl_keeps_state]
  · simp
  · intro u e
    split <;> simp

@[simp] theorem State.serve_keeps (s : State) (agent : Agent) (p a len : Nat) (act : Act) (ecc : Ecc) :
    s.Keeps (s.serve agent p a len act ecc).2.2 := keeps_of (by cases act <;> simp [State.serve])

@[simp] theorem State.lineAccess_keeps (s : State) (agent : Agent) (part : Option Nat) (a len : Nat) (act : Act) (ecc : Ecc)
    (victim : Option Nat) : s.Keeps (s.lineAccess agent part a len act ecc victim).2.2 := by
  apply keeps_of
  unfold State.lineAccess
  cases s.target agent part a with
  | fails c => simp
  | remote => simp
  | idle => cases act <;> simp
  | pinned => cases act <;> simp
  | cached p => simp

@[simp] theorem State.memRead_keeps (s : State) (agent : Agent) (part : Option Nat) (a len : Nat) (ecc : Ecc) : s.Keeps (s.memRead agent part a len ecc).2.2 := keeps_of (by simp [State.memRead])

@[simp] theorem State.memWrite_keeps (s : State) (agent : Agent) (part : Option Nat) (a : Nat) (bs : List Byte) (ecc : Ecc) : s.Keeps (s.memWrite agent part a bs ecc).2 := keeps_of (by simp [State.memWrite])

@[simp] theorem State.memUpdate_keeps (s : State) (agent : Agent) (part : Option Nat) (a len : Nat) (f : List Byte → List Byte)
    (ecc : Ecc) : s.Keeps (s.memUpdate agent part a len f ecc).2.2 := keeps_of (by simp [State.memUpdate])

@[simp] theorem State.memReduce_keeps (s : State) (agent : Agent) (part : Option Nat) (a code : Nat) (bs : List Byte)
    (ecc : Ecc) : s.Keeps (s.memReduce agent part a code bs ecc).2 := keeps_of (by simp [State.memReduce])

@[simp] theorem State.perform_keeps (s : State) (x : LinAccess) : s.Keeps (s.perform x) := keeps_of (by simp [State.perform])

@[simp] theorem State.deliver_keeps (s : State) (p : Nat) (x : LinAccess) : s.Keeps (s.deliver p x) := keeps_of (by simp [State.deliver])

@[simp] theorem State.proceed_keeps (s : State) (p : Nat) (x : LinAccess) : s.Keeps (s.proceed p x) := keeps_of (by simp [State.proceed])

@[simp] theorem State.arriveHome_keeps (s : State) (x : LinAccess) (p : Nat) : s.Keeps (s.arriveHome x p) := keeps_of (by simp [State.arriveHome])

@[simp] theorem State.arrive_keeps (s : State) (x : LinAccess) : s.Keeps (s.arrive x) := by
  apply keeps_of
  unfold State.arrive
  dsimp only
  repeat' split
  all_goals simp

@[simp] theorem State.retryBlocked_keeps (s : State) : s.Keeps s.retryBlocked := keeps_of (by simp [State.retryBlocked])

@[simp] theorem State.filled_keeps (s : State) (die : Nat) (x : LinAccess) : s.Keeps (s.filled die x) := keeps_of (by simp [State.filled])

@[simp] theorem State.scrub_keeps (s : State) (sl a : Nat) (ecc : Ecc) : s.Keeps (s.scrub sl a ecc) := by
  apply keeps_of
  unfold State.scrub
  dsimp only
  repeat' split
  all_goals simp

@[simp] theorem State.clearLining_keeps (s : State) : s.Keeps s.clearLining := by
  apply keeps_of
  simp only [State.clearLining, held_mk]
  exact s.leads_lining fun _ => rfl

@[simp] theorem State.clearSlices_keeps (s : State) (p : Nat) (slices : List Nat) : s.Keeps (s.clearSlices p slices) := keeps_of (by simp [State.clearSlices])

@[simp] theorem State.flushPart_keeps (s : State) (p : Nat) : s.Keeps (s.flushPart p) := keeps_of (by simp [State.flushPart])

@[simp] theorem State.recallNow_keeps (s : State) (l : Nat) : s.Keeps (s.recallNow l) := by
  apply keeps_of
  unfold State.recallNow
  split <;> simp

@[simp] theorem State.drainHeld_keeps (s : State) (l : Nat) : s.Keeps (s.drainHeld l) := by
  apply keeps_of
  unfold State.drainHeld
  dsimp only
  split
  · simp
  · rw [State.lineMap_held, foldl_keeps_fst]
    · simp
    · intro u h
      cases h <;> simp

@[simp] theorem State.leaveLine_keeps (s : State) (l : Nat) : s.Keeps (s.leaveLine l) := by
  apply keeps_of
  simp only [State.leaveLine]
  split <;> simp

@[simp] theorem State.rehomeLines_keeps (s : State) (p : Nat) : s.Keeps (s.rehomeLines p) := keeps_of (by simp [State.rehomeLines])

@[simp] theorem State.dropLines_keeps (s : State) (p : Nat) : s.Keeps (s.dropLines p) := keeps_of (by simp [State.dropLines])

@[simp] theorem State.relayOut_keeps (s : State) (old new : Pat) : s.Keeps (s.relayOut old new) := by
  apply keeps_of
  unfold State.relayOut
  rw [foldl_keeps_state]
  · simp
  · intro u sl
    simp

@[simp] theorem State.relayClear_keeps (s : State) (old new : Pat) : s.Keeps (s.relayClear old new) := keeps_of (by simp [State.relayClear])

@[simp] theorem State.pinApply_keeps (s : State) (p : Nat) : s.Keeps (s.pinApply p) := by
  apply keeps_of
  unfold State.pinApply
  split <;> simp

/-! ## Thread groups (spec/08) -/

/-! ## Arithmetic (spec/09) -/

/-! ## Sending on spline links (spec/15) -/

/-- What a command of several accesses keeps, if each of its accesses does (R369). -/
@[simp] theorem State.together_keeps (s : State) (f : State → State) (h : ∀ u : State, u.held.Leads (f u).held) :
    s.Keeps (s.together f) := by
  apply keeps_of
  cases hq : (f { s with lin := s.lin.calm }).lin.stuck with
  | none =>
    rw [together_free s f hq]
    exact h { s with lin := s.lin.calm }
  | some q =>
    rw [together_waits s f q hq]
    simp

@[simp] theorem State.readFar_keeps (s : State) (agent : Agent) (p a len : Nat) (ecc : Ecc) : s.Keeps (s.readFar agent p a len ecc).2.2 := by
  apply keeps_of
  unfold State.readFar
  dsimp only
  repeat' split
  all_goals simp

/-! ## Host ports (spec/16) -/

@[simp] theorem State.hostStep_keeps (s : State) (port : Nat) : s.Keeps (s.hostStep port).2 := by
  apply keeps_of
  unfold State.hostStep
  dsimp only
  split
  · simp
  · split
    · simp
    · split
      · simp
      · split
        · split
          · simp
          · split <;> next h => split at h <;> simp [snd_held h]
        · simp

@[simp] theorem State.hostRun_keeps (s : State) (port : Nat) (n : Nat) : s.Keeps (s.hostRun port n) := by
  induction n generalizing s with
  | zero => exact keeps_of (.refl _)
  | succ n ih =>
    apply keeps_of
    rw [State.hostRun]
    split <;> next h => simp [ih, snd_held h]

@[simp] theorem State.hostPump_keeps (s : State) (port : Nat) : s.Keeps (s.hostPump port) := keeps_of (by simp [State.hostPump])

@[simp] theorem State.hostRemote_keeps (s : State) (port key code : Nat) (data : List Byte) : s.Keeps (s.hostRemote port key code data) := by
  apply keeps_of
  unfold State.hostRemote
  split <;> simp

@[simp] theorem State.bar2Start_keeps (s : State) (f : Func) (off : Nat) (write : Bool) (pieces : List (Nat × Nat × List Byte)) : s.Keeps (s.bar2Start f off write pieces) := by
  apply keeps_of
  unfold State.bar2Start
  dsimp only
  repeat' split
  all_goals simp

@[simp] theorem State.bar4Put_keeps (s : State) (f : Func) (off : Nat) (bytes : List Byte) : s.Keeps (s.bar4Put f off bytes) := by
  apply keeps_of
  unfold State.bar4Put
  split
  · simp
  · refine s.leads_bar4 (cellsWf_foldl _ (fun m i h => ?_) _ _)
    split
    · exact cellsWf_mset _ _ _ h
    · exact h

/-! ## Tensors and tallies (spec/12) -/

@[simp] theorem State.checkDesc_keeps (s : State) (agent : Agent) (p : Nat) (x : Desc) : s.Keeps (s.checkDesc agent p x).2.2.2 := by
  apply keeps_of
  unfold State.checkDesc
  dsimp only
  repeat' split
  all_goals simp

@[simp] theorem State.locate_keeps (s : State) (agent : Agent) (p : Nat) (x : Desc) (cut : Option CutList) (idx : List Nat) : s.Keeps (s.locate agent p x cut idx).2 := by
  apply keeps_of
  unfold State.locate
  split <;> simp

@[simp] theorem State.produce_keeps (s : State) (agent : Agent) (p : Nat) (ws : List Written) (bad : Bool) :
    s.Keeps (s.produce agent p ws bad).2 := by
  apply keeps_of
  unfold State.produce
  dsimp only
  rw [foldl_keeps_snd]
  · simp
  · intro t b
    split <;> simp

@[simp] theorem State.consume_keeps (s : State) (agent : Agent) (p : Nat) (rs : List Written) (require : Bool) :
    s.Keeps (s.consume agent p rs require).2 := by
  apply keeps_of
  unfold State.consume
  dsimp only
  rw [foldl_keeps_snd]
  · simp
  · intro t b
    split
    · simp
    · split <;> simp

/-! ## Jig engines (spec/13) -/

@[simp] theorem State.tensorAt_keeps (s : State) (ch : Nat) (v : MoveSt) (k : Nat) : s.Keeps (s.tensorAt ch v k).2 := keeps_of (by simp [State.tensorAt])

@[simp] theorem State.placeAt_keeps (s : State) (ch : Nat) (v : MoveSt) (src : Bool) (k : Nat) : s.Keeps (s.placeAt ch v src k).2 := keeps_of (by simp [State.placeAt])

@[simp] theorem State.growAt_keeps (s : State) (ch : Nat) (v : MoveSt) (src : Bool) (k room : Nat) (a : Place) (n : Nat) :
    s.Keeps (s.growAt ch v src k room a n).2 := by
  induction n generalizing s a with
  | zero => exact keeps_of (.refl _)
  | succ n ih => exact keeps_of (by simp [State.growAt, ih])

@[simp] theorem State.spanAt_keeps (s : State) (ch : Nat) (v : MoveSt) (src : Bool) (k : Nat) : s.Keeps (s.spanAt ch v src k).2 := keeps_of (by simp [State.spanAt])

@[simp] theorem State.moveBegin_keeps (s : State) (ch k : Nat) (v : MoveSt) (ecc : Ecc) : s.Keeps (s.moveBegin ch k v ecc) := keeps_of (by simp [State.moveBegin])

@[simp] theorem State.readNext_keeps (s : State) (ch k : Nat) (v : MoveSt) (ecc : Ecc) : s.Keeps (s.readNext ch k v ecc) := by
  apply keeps_of
  unfold State.readNext
  dsimp only
  split
  · simp
  · split
    · simp
    · split
      · split
        · simp
        · split <;> next h => simp [snd_held h]
      · simp

@[simp] theorem State.writeNext_keeps (s : State) (ch k : Nat) (v : MoveSt) (ecc : Ecc) : s.Keeps (s.writeNext ch k v ecc) := by
  apply keeps_of
  unfold State.writeNext
  dsimp only
  split
  · simp
  · split
    · simp
    · split
      · simp
      · split
        · split <;> next h => simp [snd_held h]
        · split <;> simp

@[simp] theorem State.moveEnd_keeps (s : State) (ch : Nat) (v : MoveSt) : s.Keeps (s.moveEnd ch v) := by
  apply keeps_of
  unfold State.moveEnd
  dsimp only
  split
  · simp
  · split <;> simp

@[simp] theorem State.moveVoid_keeps (s : State) (ch : Nat) (v : MoveSt) : s.Keeps (s.moveVoid ch v) := by
  apply keeps_of
  unfold State.moveVoid
  dsimp only
  split <;> simp

@[simp] theorem State.settleMoves_keeps (s : State) (ch : Nat) (n : Nat) : s.Keeps (s.settleMoves ch n) := by
  induction n generalizing s with
  | zero => exact keeps_of (.refl _)
  | succ n ih =>
    apply keeps_of
    rw [State.settleMoves]
    split
    · simp
    · simp [ih]

@[simp] theorem State.jigStep_keeps (s : State) (ch : Nat) (write : Bool) (ecc : Ecc) : s.Keeps (s.jigStep ch write ecc) := by
  apply keeps_of
  unfold State.jigStep
  dsimp only
  repeat' split
  all_goals simp

@[simp] theorem State.waitRead_keeps (s : State) (ch : Nat) (w : BitVec 128) : s.Keeps (s.waitRead ch w) := keeps_of (by simp [State.waitRead])

@[simp] theorem State.waitJudge_keeps (s : State) (ch : Nat) (w : BitVec 128) : s.Keeps (s.waitJudge ch w) := by
  apply keeps_of
  unfold State.waitJudge
  split <;> simp

@[simp] theorem State.signalGo_keeps (s : State) (ch : Nat) (w : BitVec 128) : s.Keeps (s.signalGo ch w) := by
  apply keeps_of
  unfold State.signalGo
  dsimp only
  split
  · simp
  · split
    · split <;> next h => simp [snd_held h]
    · simp

@[simp] theorem State.endGo_keeps (s : State) (ch : Nat) (w : BitVec 128) : s.Keeps (s.endGo ch w) := by
  apply keeps_of
  unfold State.endGo
  dsimp only
  split
  · simp
  · split
    · simp
    · split
      · split <;> next h => simp [snd_held h]
      · simp

@[simp] theorem State.opTry_keeps (s : State) (ch : Nat) : s.Keeps (s.opTry ch) := by
  apply keeps_of
  simp only [State.opTry]
  split <;> simp

@[simp] theorem State.jigAfter_keeps (s : State) (ch : Nat) : s.Keeps (s.jigAfter ch) := keeps_of (by simp [State.jigAfter])

@[simp] theorem State.jigRemote_keeps (s : State) (ch key code : Nat) (data : List Byte) : s.Keeps (s.jigRemote ch key code data) := by
  apply keeps_of
  unfold State.jigRemote
  dsimp only
  repeat' split
  all_goals simp

/-! ## Fit records and the close of a step (spec/07) -/

@[simp] theorem State.closeOne_keeps (s : State) (p f : Nat) (tick : Nat) (suspect : Bool) : s.Keeps (s.closeOne p f tick suspect) := keeps_of (by simp -implicitDefEqProofs [State.closeOne])

@[simp] theorem State.writeSheet_keeps (s : State) (p : Nat) : s.Keeps (s.writeSheet p) := by
  apply keeps_of
  simp only [State.writeSheet, ite_held, State.raise_held, ite_self, State.setResidents_held, State.partMap_held, held_mk]
  exact s.leads_bar4 fun w => cellsWf_writeCells _ _ _ (cellsWf_foldl _ (fun _ _ h => cellsWf_writeCells _ _ _ h) _ _ w)

/-! ## Memory instructions (spec/08, spec/09) -/

@[simp] theorem State.readSectors_keeps (s : State) (gx : Nat) (r : MemReq) (ecc : Ecc) : s.Keeps (s.readSectors gx r ecc).2 := keeps_of (by simp [State.readSectors])

@[simp] theorem State.constLine_keeps (s : State) (gx l : Nat) (ecc : Ecc) : s.Keeps (s.constLine gx l ecc).2.2 := by
  apply keeps_of
  simp only [State.constLine]
  split <;> simp

@[simp] theorem State.performReq_keeps (s : State) (gx : Nat) (r : MemReq) (ecc : Ecc) : s.Keeps (s.performReq gx r ecc).2 := by
  apply keeps_of
  unfold State.performReq
  dsimp only
  split
  · rw [foldl_snd_held]
    · simp
    · intro t a
      split <;> simp
  · simp
  · simp
  · simp

@[simp] theorem State.readSignals_keeps (s : State) (gx : Nat) (ws : List (Nat × (Nat × Nat))) : s.Keeps (s.readSignals gx ws).2.2 := keeps_of (by simp [State.readSignals])

@[simp] theorem State.judgeSignals_keeps (s : State) (gx : Nat) (ws : List (Nat × (Nat × Nat))) : s.Keeps (s.judgeSignals gx ws) := keeps_of (by simp [State.judgeSignals])

@[simp] theorem State.flushReqs_keeps (s : State) (gx : Nat) : s.Keeps (s.flushReqs gx) := keeps_of (by simp [State.flushReqs])

/-! ## Matrix panels (spec/05, spec/06) -/

@[simp] theorem State.pumpDrain_keeps (s : State) (c : Nat) (r : RunCmd) : s.Keeps (s.pumpDrain c r).2 := by
  apply keeps_of
  unfold State.pumpDrain
  dsimp only
  rw [foldl_keeps_snd]
  · simp
  · intro t w
    split
    · split <;> next h => simp [snd_held h]
    · simp

@[simp] theorem State.rowWrites_keeps (s : State) (c : Nat) (r : RunCmd) (x : Desc) (cut : Option CutList) (row : Nat)
    (us : List DrainUnit) : s.Keeps (s.rowWrites c r x cut row us).2.2 := by
  unfold State.rowWrites
  refine foldl_keeps_at (fun t : _ × _ × _ × State => t.2.2.2) _ (fun t u => ?_) us ([], [], r, s)
  simp

@[simp] theorem State.fetchDesc_keeps (s : State) (c : Nat) (q : PCmd) (ecc : Ecc) : s.Keeps (s.fetchDesc c q ecc).2.2 := by
  apply keeps_of
  simp only [State.fetchDesc]
  split <;> simp

@[simp] theorem State.drainStaging_keeps (s : State) (c : Nat) (r : RunCmd) : s.Keeps (s.drainStaging c r).2 := by
  have hr : (s.drainRows c r.cmd r.cmd.nValid r.cmd.rows).2.held = s.held := by simp
  apply keeps_of
  rw [State.drainStaging, ← hr]
  exact State.leads_staging _ (cellsWf_foldl _ (fun m _ h =>
    cellsWf_foldl _ (fun _ _ h => cellsWf_writeCells _ _ _ (cellsWf_writeCells _ _ _ h)) _ m h) _ _)

@[simp] theorem State.drainTensor_keeps (s : State) (c : Nat) (r : RunCmd) (desc : Ecc) : s.Keeps (s.drainTensor c r desc).2 := keeps_of (by simp [State.drainTensor])

@[simp] theorem State.drainTally_keeps (s : State) (c : Nat) (r : RunCmd) : s.Keeps (s.drainTally c r).2 := by
  apply keeps_of
  unfold State.drainTally
  dsimp only
  split
  · simp
  · split <;> simp

@[simp] theorem State.panelReset_keeps (s : State) (c : Nat) : s.Keeps (s.panelReset c) :=
  keeps_of (leads_of_memWf rfl (memWf_panelReset s c))

/-! ## Spline links (spec/15) -/

@[simp] theorem State.resolve_keeps (s : State) (key code : Nat) (data : List Byte) : s.Keeps (s.resolve key code data) := by
  apply keeps_of
  unfold State.resolve
  dsimp only
  repeat' split
  all_goals simp

@[simp] theorem State.failRequest_keeps (s : State) (die code : Nat) (m : Msg) : s.Keeps (s.failRequest die code m) := by
  apply keeps_of
  unfold State.failRequest
  simp
  split <;> simp

@[simp] theorem State.forward_keeps (s : State) (die kind : Nat) (m : Msg) : s.Keeps (s.forward die kind m) := by
  apply keeps_of
  unfold State.forward
  dsimp only
  split
  · simp
  · split <;> next h => simp [snd_held h]

@[simp] theorem State.lostMessage_keeps (s : State) (die code kind : Nat) (m : Msg) : s.Keeps (s.lostMessage die code kind m) := by
  apply keeps_of
  unfold State.lostMessage
  dsimp only
  split
  · split <;> next h => simp [snd_held h]
  · simp

@[simp] theorem State.linkDown_keeps (s : State) (n : Nat) (st : LinkState) : s.Keeps (s.linkDown n st) := keeps_of (by simp -implicitDefEqProofs [State.linkDown])

@[simp] theorem State.trainFail_keeps (s : State) (n failed : Nat) : s.Keeps (s.trainFail n failed) := keeps_of (by simp [State.trainFail])

@[simp] theorem State.received_keeps (s : State) (n kind : Nat) (body : Msg → State → State)
    (h : ∀ m (u : State), u.held.Leads (body m u).held) : s.Keeps (s.received n kind body) := by
  have hb : ∀ m (u : State), u.Keeps (body m u) := fun m u => keeps_of (h m u)
  apply keeps_of
  simp only [State.received]
  split <;> simp -implicitDefEqProofs [hb]

@[simp] theorem State.requestHere_keeps (s : State) (die kind a : Nat) (m : Msg) : s.Keeps (s.requestHere die kind a m).2.2 := by
  apply keeps_of
  unfold State.requestHere
  split <;> simp

@[simp] theorem State.request_keeps (s : State) (n kind : Nat) (m : Msg) : s.Keeps (s.request n kind m) := keeps_of (by simp [State.request])

@[simp] theorem State.markHere_keeps (s : State) (n : Nat) (m : Msg) : s.Keeps (s.markHere n m) := keeps_of (by simp [State.markHere])

/-! ## What resets leave (spec/21) -/

theorem State.moduleReset_pending (s : State) (cause : Nat) : (s.moduleReset cause).pending = s.pending := by
  rw [State.moduleReset, State.rfSet_pending]
  exact congrArg Held.queue (State.limitUpdate_held _)

@[simp] theorem State.moduleReset_keeps (s : State) (cause : Nat) : s.Keeps (s.moduleReset cause) :=
  keeps_of (leads_of_memWf (s.moduleReset_pending cause) (memWf_moduleReset s cause))

@[simp] theorem State.coreWipe_keeps (s : State) (c : Nat) : s.Keeps (s.coreWipe c) := keeps_of (by simp [State.coreWipe])

@[simp] theorem State.coreClear_keeps (s : State) (c : Nat) : s.Keeps (s.coreClear c) := keeps_of (by simp [State.coreClear])

@[simp] theorem State.abandonStep_keeps (s : State) (p : Nat) : s.Keeps (s.abandonStep p) := keeps_of (by simp [State.abandonStep])

@[simp] theorem State.hostFail_keeps (s : State) (p : Nat) : s.Keeps (s.hostFail p) := by
  apply keeps_of
  unfold State.hostFail
  rw [foldl_keeps_state]
  · simp
  · intro u e
    split <;> simp

@[simp] theorem State.clearOwned_keeps (s : State) (p : Nat) : s.Keeps (s.clearOwned p) := keeps_of (by simp [State.clearOwned])

@[simp] theorem State.partReset_keeps (s : State) (p : Nat) : s.Keeps (s.partReset p) := keeps_of (by simp [State.partReset])

@[simp] theorem State.scrubPart_keeps (s : State) (p : Nat) : s.Keeps (s.scrubPart p) := by
  have hp : s.held.Leads ((s.abandonStep p).clearOwned p).held := by simp
  apply keeps_of
  unfold State.scrubPart
  extract_lets u fresh v regs
  have hv : v.held = u.held := State.partMap_held ..
  rw [State.rgSet_held, held_mk]
  exact (hv.symm ▸ hp : s.held.Leads v.held).trans (v.leads_bar4 (cellsWf_mclear _ _ _))

/-! ## Power delivery (spec/17) -/

@[simp] theorem State.inputLost_keeps (s : State) (cause : Nat) : s.Keeps (s.inputLost cause) := by
  apply keeps_of
  simp only [State.inputLost, held_mk, held_fold]
  exact (s.moduleReset_keeps cause).leads

@[simp] theorem State.stageRetires_keeps (s : State) : s.Keeps s.stageRetires := keeps_of (by simp [State.stageRetires])

@[simp] theorem State.fenceCore_keeps (s : State) (p : Nat) (aged : Bool) : s.Keeps (s.fenceCore p aged) := by
  apply keeps_of
  unfold State.fenceCore
  dsimp only
  repeat' split
  all_goals simp

@[simp] theorem State.powerBoundary_keeps (s : State) : s.Keeps s.powerBoundary := keeps_of (by simp -implicitDefEqProofs [State.powerBoundary])

/-! ## Basting (spec/02) -/

@[simp] theorem State.loadRead_keeps (s : State) (ecc : Ecc) : s.Keeps (s.loadRead ecc).2.2 := keeps_of (by simp [State.loadRead])

/-! ## The redundant pair (spec/21) -/

@[simp] theorem State.deltaEntry_keeps (x : State × List Byte) (p e : Nat) : x.1.Keeps (State.deltaEntry x p e).1 := by
  apply keeps_of
  unfold State.deltaEntry
  dsimp only
  repeat' split
  all_goals simp

@[simp] theorem State.mirrorDelta_keeps (s : State) (n : Nat) : s.Keeps (s.mirrorDelta n) := keeps_of (by simp [State.mirrorDelta])

@[simp] theorem State.bufWrite_keeps (s : State) (ps : List (Nat × Nat)) (bs : List Byte) : s.Keeps (s.bufWrite ps bs).2 := by
  unfold State.bufWrite
  refine foldl_keeps_at (fun x : (Nat × State) × List Byte => x.1.2) _ (fun x q => ?_) ps ((0, s), bs)
  simp

@[simp] theorem State.bufRead_keeps (s : State) (ps : List (Nat × Nat)) : s.Keeps (s.bufRead ps).2.2 := keeps_of (by simp [State.bufRead])

@[simp] theorem State.mirrorKeep_keeps (s : State) (sheet : Bool) (m : Msg) : s.Keeps (s.mirrorKeep sheet m) := keeps_of (by simp [State.mirrorKeep])

@[simp] theorem State.deltaRead_keeps (s : State) (b : List MirRange) : s.Keeps (s.deltaRead b).2.2 := keeps_of (by simp [State.deltaRead])

@[simp] theorem State.applyRange_keeps (x : Bool × State) (p : Nat) (r : MirRange × List Byte) :
    x.2.Keeps (State.applyRange x p r).2 := by
  apply keeps_of
  unfold State.applyRange
  split
  · simp
  · split
    · split
      · simp
      · exact x.2.leads_bar4 (cellsWf_writeCells _ _ _)
    · simp

@[simp] theorem State.pairBoundary_keeps (s : State) : s.Keeps (s.pairBoundary.2) := by
  apply keeps_of
  unfold State.pairBoundary
  dsimp only
  repeat' split
  all_goals simp

/-! ## The escutcheon (spec/20) -/

@[simp] theorem State.escTake_keeps (s : State) (f : Func) (body : State → State) (h : ∀ u : State, u.held.Leads (body u).held) :
    s.Keeps (s.escTake f body) := by
  have hb : ∀ u : State, u.Keeps (body u) := fun u => keeps_of (h u)
  exact keeps_of (by simp [State.escTake, hb])

@[simp] theorem State.fullUnlock_keeps (s : State) : s.Keeps s.fullUnlock := keeps_of (by simp [State.fullUnlock])

@[simp] theorem State.applyUnlock_keeps (s : State) : s.Keeps s.applyUnlock := by
  apply keeps_of
  unfold State.applyUnlock
  split <;> simp

@[simp] theorem State.debugToken_keeps (s : State) (t : TokenIn) : s.Keeps (s.debugToken t) := keeps_of (by simp [State.debugToken])

@[simp] theorem State.escRead_keeps (s : State) (addr len : Nat) (ecc : Ecc) : s.Keeps (s.escRead addr len ecc).2 := keeps_of (by simp [State.escRead])

/-! ## Thermal monitors and alterations (spec/18) -/

@[simp] theorem State.markRetire_keeps (s : State) (p ceil : Nat) : s.Keeps (s.markRetire p ceil) := keeps_of (by simp [State.markRetire])

@[simp] theorem State.planSet_keeps (s : State) (p : Nat) (x : Plan) : s.Keeps (s.planSet p x) := keeps_of (by simp [State.planSet])

/-! ## Base boundaries, steps and the commit (spec/03) -/

@[simp] theorem State.setLag_keeps (s : State) (p : Nat) (ages : List Nat) : s.Keeps (s.setLag p ages) := keeps_of (by simp [State.setLag])

@[simp] theorem State.admission_keeps (s : State) (p tail : Nat) : s.Keeps (s.admission p tail) := keeps_of (by simp [State.admission])

@[simp] theorem State.beginStep_keeps (s : State) (p : Nat) (commit : Bool) : s.Keeps (s.beginStep p commit) := keeps_of (by simp -implicitDefEqProofs [State.beginStep])

@[simp] theorem State.skipStep_keeps (s : State) (p : Nat) : s.Keeps (s.skipStep p) := keeps_of (by simp [State.skipStep])

@[simp] theorem State.substitute_keeps (s : State) (p c old new : Nat) : s.Keeps (s.substitute p c old new) := keeps_of (by simp [State.substitute])

@[simp] theorem State.serveFences_keeps (s : State) (p : Nat) (fenced : List Nat) : s.Keeps (s.serveFences p fenced) := by
  apply keeps_of
  unfold State.serveFences
  rw [foldl_keeps_state]
  · simp
  · intro u c
    dsimp only
    split
    · simp
    · split <;> simp

@[simp] theorem State.ownStep_keeps (s : State) (fenced : List Nat) (p : Nat) : s.Keeps (s.ownStep fenced p) := keeps_of (by simp [State.ownStep])

@[simp] theorem State.commitOut_keeps (s : State) (old new : Pat) : s.Keeps (s.commitOut old new) := keeps_of (by simp [State.commitOut])

@[simp] theorem State.commitMemory_keeps (s : State) (old new : Pat) : s.Keeps (s.commitMemory old new) := by
  apply keeps_of
  simp only [State.commitMemory]
  split <;> simp

@[simp] theorem State.commitUnits_keeps (s : State) (old new : Pat) : s.Keeps (s.commitUnits old new) := by
  apply keeps_of
  simp only [State.commitUnits]
  rw [ite_held, State.regRestart_held, ite_self, foldl_keeps_state, foldl_keeps_state, foldl_keeps_state, State.coresMove_held]
  · simp
  · intro u c
    cases old.coreOwner c <;> simp
  · simp
  · simp

@[simp] theorem State.firstSteps_keeps (s : State) (aff : List Nat) : s.Keeps (s.firstSteps aff) := keeps_of (by simp [State.firstSteps])

@[simp] theorem State.doCommit_keeps (s : State) : s.Keeps s.doCommit := by
  apply keeps_of
  unfold State.doCommit
  split <;> simp

@[simp] theorem State.boundary_keeps (s : State) : s.Keeps s.boundary := keeps_of (by simp [State.boundary])

/-! ## Bring-up and resets (spec/21) -/

@[simp] theorem State.applyVeneer_keeps (s : State) : s.Keeps s.applyVeneer := keeps_of (by simp [State.applyVeneer])

@[simp] theorem State.katDone_keeps (s : State) (bad : List Nat) : s.Keeps (s.katDone bad) := keeps_of (by simp [State.katDone])

@[simp] theorem State.resetCores_keeps (s : State) (cores : List Nat) (up : Bool) : s.Keeps (s.resetCores cores up) := by
  apply keeps_of
  unfold State.resetCores
  rw [foldl_keeps_state]
  · simp
  · intro u p
    dsimp only
    cases u.logicalOf p <;> simp

@[simp] theorem State.stackReset_keeps (s : State) (f : Func) (k : Nat) (drain : Bool) : s.Keeps (s.stackReset f k drain) := keeps_of (by simp -implicitDefEqProofs [State.stackReset])

@[simp] theorem State.movesPathFail_keeps (s : State) (k ch : Nat) (n : Nat) : s.Keeps (s.movesPathFail k ch n) := by
  induction n generalizing s with
  | zero => exact keeps_of (.refl _)
  | succ i ih =>
    apply keeps_of
    rw [State.movesPathFail, ih]
    split
    · simp
    · split <;> simp

@[simp] theorem State.jigPathFail_keeps (s : State) (k ch : Nat) : s.Keeps (s.jigPathFail k ch) := keeps_of (by simp [State.jigPathFail])

@[simp] theorem State.outPathFail_keeps (s : State) (k : Nat) : s.Keeps (s.outPathFail k) := keeps_of (by simp [State.outPathFail])

@[simp] theorem State.splinePathFail_keeps (s : State) (k n : Nat) : s.Keeps (s.splinePathFail k n) := by
  apply keeps_of
  unfold State.splinePathFail
  simp -implicitDefEqProofs
  (repeat' split) <;> simp -implicitDefEqProofs

@[simp] theorem State.pathReset_keeps (s : State) (k : Nat) : s.Keeps (s.pathReset k) := keeps_of (by simp -implicitDefEqProofs [State.pathReset])

@[simp] theorem State.stackClear_keeps (s : State) (k : Nat) : s.Keeps (s.stackClear k) := keeps_of (by simp -implicitDefEqProofs [State.stackClear])

/-! ## Park actions (spec/08) -/

@[simp] theorem State.parkAct_keeps (s : State) (gx action : Nat) : s.Keeps (s.parkAct gx action).2 := by
  apply keeps_of
  unfold State.parkAct
  split <;> simp

@[simp] theorem State.hostPark_keeps (s : State) (f : Func) (g : GroupId) (action : Nat) : s.Keeps (s.hostPark f g action) := keeps_of (by simp [State.hostPark])

/-! ## The tick bus (spec/16) -/

/-! ## BAR0 (spec/00, spec/16) -/

@[simp] theorem State.readWord_keeps (s : State) (r : Req) (o width : Nat) : s.Keeps (s.readWord r o width) := by
  apply keeps_of
  unfold State.readWord
  dsimp only
  repeat' split
  all_goals simp

/-! ## Management and attestation (spec/16, spec/20) -/
end Sys2Proof.Machine

namespace Sys2Proof.Machine

/-! ## What takes a body

The body of a command, given as an argument, keeps what it finds. -/

@[simp] theorem State.inOrder_keeps (s : State) (f : Func) (c : Instr) (body : State → State)
    (h : ∀ u : State, u.held.Leads (body u).held) : s.Keeps (s.inOrder f c body) := by
  have hb : ∀ u : State, u.Keeps (body u) := fun u => keeps_of (h u)
  exact keeps_of (by simp [State.inOrder, hb])

@[simp] theorem State.reqOrder_keeps (s : State) (r : Req) (c : Instr) (body : State → State)
    (h : ∀ u : State, u.held.Leads (body u).held) : s.Keeps (s.reqOrder r c body) := by
  have hb : ∀ u : State, u.Keeps (body u) := fun u => keeps_of (h u)
  apply keeps_of
  unfold State.reqOrder
  split <;> simp [hb]

@[simp] theorem State.brupGo_keeps (s : State) (f : Func) (n : Nat) (body : State → State)
    (h : ∀ u : State, u.held.Leads (body u).held) : s.Keeps (s.brupGo f n body) := by
  have hb : ∀ u : State, u.Keeps (body u) := fun u => keeps_of (h u)
  exact keeps_of (by simp [State.brupGo, hb])

@[simp] theorem State.issue_keeps (s : State) (g : GroupId) (op : Nat) (i : Insn) (f : Form)
    (body : State → Nat → BitVec 32 → State) (h : ∀ (u : State) gx eff, u.held.Leads (body u gx eff).held) :
    s.Keeps (s.issue g op i f body) := by
  have hb : ∀ (u : State) gx eff, u.Keeps (body u gx eff) := fun u gx eff => keeps_of (h u gx eff)
  apply keeps_of
  unfold State.issue
  dsimp only
  split
  · simp
  · split
    · simp
    · next hu =>
      have hk := State.takeTurn_held hu
      split <;> simp [hb, hk]

@[simp] theorem State.supervisor_keeps (s : State) (gx : Nat) (body : State → State)
    (h : ∀ u : State, u.held.Leads (body u).held) : s.Keeps (s.supervisor gx body) := by
  have hb : ∀ u : State, u.Keeps (body u) := fun u => keeps_of (h u)
  exact keeps_of (by simp [State.supervisor, hb])

@[simp] theorem State.mirrorIn_keeps (s : State) (n kind : Nat) (body : Msg → State → State)
    (h : ∀ m (u : State), u.held.Leads (body m u).held) : s.Keeps (s.mirrorIn n kind body) := by
  have hb : ∀ m (u : State), u.Keeps (body m u) := fun m u => keeps_of (h m u)
  apply keeps_of
  conv in State.mirrorIn => delta State.mirrorIn
  extract_lets v
  have hv : v.held = s.held := State.urge_held ..
  rw [← hv]
  split
  · exact .refl _
  · split
    · exact .refl _
    · refine (State.together_keeps _ _ fun u => ?_).leads
      conv => rhs; arg 1; zeta
      simp -implicitDefEqProofs [hb]

/-! ## What fuses burn -/

@[simp] theorem State.bootDone_held (s : State) : s.bootDone.held = s.held := by simp [State.bootDone]
@[simp] theorem State.bootEnd_held (s : State) : s.bootEnd.held = s.held := by simp [State.bootEnd]
@[simp] theorem State.enrolToken_held (s : State) (t : TokenIn) : (s.enrolToken t).held = s.held := by simp [State.enrolToken]

@[simp] theorem State.escEnd_keeps (s : State) (t : Option TokenIn) : s.Keeps (s.escEnd t) := by
  apply keeps_of
  unfold State.escEnd
  dsimp only
  split <;> simp

/-! ## Commands -/

/-- The command answers a next state, which keeps what `s` holds. -/
def Completes (s : State) (r : Res) : Prop := ∃ t, r = .next t ∧ s.held.Leads t.held

@[simp] theorem completes_next (s t : State) : Completes s (.next t) ↔ s.held.Leads t.held :=
  ⟨fun ⟨_, hu, h⟩ => Host.Outcome.next.inj hu ▸ h, fun h => ⟨t, rfl, h⟩⟩

@[simp] theorem execEscCommandComplete_completes (ecc : Ecc) (s : State) : Completes s (execEscCommandComplete ecc s) := by
  have go (addr len : Nat) :
      s.held.Leads (s.together fun s => (s.escRead addr len ecc).2.escEnd (s.escRead addr len ecc).1).held := by simp
  simp only [execEscCommandComplete, completes_next]
  split
  · exact go ..
  · exact go ..
  · exact .refl _

/-- A state that keeps what is held, under a name that hides how it was computed. -/
theorem exists_leads {s t : State} (h : s.held.Leads t.held) : ∃ u, t = u ∧ s.held.Leads u.held := ⟨t, rfl, h⟩

/-- The outcomes of the steps are named before the step is looked up: the kernel need not compute them then to see which one
it is. -/
@[simp] theorem execBrupStepEnd_completes (e : StepEnd) (bad : List Nat) (s : State) :
    Completes s (execBrupStepEnd e bad s) := by
  conv in execBrupStepEnd => delta execBrupStepEnd
  rcases s.brupStep with ⟨n, st⟩
  rw [completes_next]
  split
  · exact .refl _
  · have boot : s.held.Leads (if s.pwr.stageTwo then s.bootEnd else s).held := by simp
    have halt (id : BitVec 16) : s.held.Leads (if id = 0x0E01 then s.escHalt 0x0E01 else s).held := by simp
    have stepEnd (d : Nat) : s.held.Leads (s.stepEnd d).held := by simp
    obtain ⟨late, eLate, hLate⟩ := exists_leads (s := s) (t := (s.at (s.brup.since + s.stepLimit n)).stepEnd 1) (by simp)
    obtain ⟨dowel, eDowel, hDowel⟩ := exists_leads (s := s) (t := s.dowelDone bad) (by simp)
    obtain ⟨darn, eDarn, hDarn⟩ := exists_leads (stepEnd (if s.lowestFence.isSome then 2 else 0))
    obtain ⟨hbm, eHbm, hHbm⟩ := exists_leads (s := s) (t := s.hbmDone bad) (by simp)
    obtain ⟨veneer, eVeneer, hVeneer⟩ := exists_leads (s := s) (t := if s.veneerDetail ≠ 0 then s.stepEnd s.veneerDetail
      else if s.usableCores.all (fun p => (s.dom p).st == .up) then s.stepEnd 0 else s) (by simp)
    obtain ⟨kat, eKat, hKat⟩ := exists_leads (s.katDone_keeps bad).leads
    obtain ⟨ready, eReady, hReady⟩ := exists_leads (s := s) (t := if s.tick.en then s.stepEnd 0 else s) (by simp)
    obtain ⟨lining, eLining, hLining⟩ := exists_leads (stepEnd 0)
    rw [eLate, eDowel, eDarn, eHbm, eVeneer, eKat, eReady, eLining]
    rcases n with _ | _ | _ | _ | _ | _ | _ | n
    · cases e with
      | done => exact boot
      | time => exact hLate
      | unit id => exact halt id
      | link => exact .refl _
      | stack => exact .refl _
    · cases e with
      | time => exact hLate
      | _ => exact hDowel
    · cases e with
      | time => exact hLate
      | _ => exact hDarn
    · cases e with
      | time => exact hLate
      | _ => exact hHbm
    · cases e with
      | time => exact hLate
      | _ => exact hLining
    · cases e with
      | time => exact hLate
      | _ => exact hVeneer
    · cases e with
      | time => exact hLate
      | _ => exact hKat
    · cases e with
      | time => exact hLate
      | _ => exact hReady

/-- STS writes staging as it issues, byte by byte. -/
@[simp] theorem execSts_completes (g : GroupId) (i : Insn) (s : State) : Completes s (execSts g i s) := by
  unfold execSts
  rw [completes_next, State.issue_keeps]
  · simp
  · intro u gx eff
    simp only [State.memIssue_held, held_mk]
    exact u.leads_staging (cellsWf_foldl _ (fun _ _ h => cellsWf_writeCells _ _ _ h) _ _)

/-- MIRROR_COMMIT writes the admission words of the partition once its ranges stand in their places (R478). -/
@[simp] theorem execMirrorCommit_completes (n : Fin 64) (s : State) : Completes s (execMirrorCommit n s) := by
  unfold execMirrorCommit
  rw [completes_next, State.mirrorIn_keeps]
  · simp
  · intro m u
    split
    · simp
    · extract_lets p b k use
      rcases hd : u.deltaRead b with ⟨c, data, v⟩
      have hv : u.Keeps v := by simpa [hd] using u.deltaRead_keeps b
      dsimp only
      have wr (w : State) (bs : List Byte) : w.held.Leads ⟨w.pending, writeCells w.bar4 (p * 2 ^ 20 + 4) bs, w.staging,
          w.lin.data, w.hbm.data⟩ := w.leads_bar4 (cellsWf_writeCells _ _ _)
      split
      · split
        · simp [hv]
        · simp only [State.rg64Set_held, State.setResidents_held, held_mk]
          exact Held.Leads.trans (by simp [hv]) (wr _ _)
      · simp [hv]

@[simp] theorem execBaste_completes (f : Func) (scope : Bool) (p : Fin 16) (s : State) : Completes s (execBaste f scope p s) := by
  unfold execBaste
  rw [completes_next, State.inOrder_keeps]
  · simp
  · intro u
    dsimp only
    split
    · simp
    · split <;> simp

@[simp] theorem execLoad_completes (f : Func) (s : State) : Completes s (execLoad f s) := by
  unfold execLoad
  rw [completes_next, State.inOrder_keeps]
  · simp
  · intro u
    dsimp only
    repeat' split
    all_goals simp

@[simp] theorem execSew_completes (f : Func) (s : State) : Completes s (execSew f s) := by
  unfold execSew
  rw [completes_next, State.inOrder_keeps]
  · simp
  · intro u
    dsimp only
    split
    · simp
    · split <;> simp

@[simp] theorem execValidationDone_completes (s : State) : Completes s (execValidationDone s) := by
  simp only [execValidationDone, completes_next]
  split <;> simp

@[simp] theorem execUnpick_completes (f : Func) (s : State) : Completes s (execUnpick f s) := by
  unfold execUnpick
  rw [completes_next, State.inOrder_keeps]
  · simp
  · intro u
    split
    · simp
    · split <;> simp

@[simp] theorem execPatchData_completes (f : Func) (v : Word) (s : State) : Completes s (execPatchData f v s) := by
  unfold execPatchData
  rw [completes_next, State.inOrder_keeps]
  · simp
  · intro u
    dsimp only
    split
    · simp
    · split <;> simp

@[simp] theorem execBaseBoundary_completes (s : State) : Completes s (execBaseBoundary s) := by
  simp only [execBaseBoundary, completes_next]
  split <;> simp

@[simp] theorem execFitRecRead_completes (r : Req) (s : State) : Completes s (execFitRecRead r s) := by
  unfold execFitRecRead
  rw [completes_next, State.reqOrder_keeps]
  · simp
  · intro u
    split <;> simp

@[simp] theorem execPanelLoad_completes (c : Fin 64) (ecc : Ecc) (s : State) : Completes s (execPanelLoad c ecc s) := by
  simp only [execPanelLoad, completes_next]
  split <;> simp

@[simp] theorem execPass_completes (c : Fin 64) (ecc : Ecc) (s : State) : Completes s (execPass c ecc s) := by
  simp only [execPass, completes_next]
  split <;> simp

@[simp] theorem execDrain_completes (c : Fin 64) (ecc desc : Ecc) (s : State) : Completes s (execDrain c ecc desc s) := by
  unfold execDrain
  rw [completes_next, State.together_keeps]
  · simp
  · intro u
    split <;> simp

@[simp] theorem execBind_completes (c : Fin 64) (s : State) : Completes s (execBind c s) := by
  simp only [execBind, completes_next]
  split <;> simp

@[simp] theorem execPanelFence_completes (c : Fin 64) (s : State) : Completes s (execPanelFence c s) := by
  simp only [execPanelFence, completes_next]
  split <;> simp

@[simp] theorem execCommandComplete_completes (c : Fin 64) (k : Nat) (s : State) : Completes s (execCommandComplete c k s) := by
  unfold execCommandComplete
  rw [completes_next, State.together_keeps]
  · simp
  · intro u
    split <;> simp

@[simp] theorem execPanelQueueStallEnd_completes (g : GroupId) (s : State) : Completes s (execPanelQueueStallEnd g s) := by
  simp only [execPanelQueueStallEnd, completes_next]
  split <;> simp

@[simp] theorem execProofGroupStart_completes (c : Fin 64) (s : State) : Completes s (execProofGroupStart c s) := by
  simp only [execProofGroupStart, completes_next]
  repeat' split
  all_goals simp

@[simp] theorem execSpawn_completes (g : GroupId) (i : Insn) (s : State) : Completes s (execSpawn g i s) := by
  unfold execSpawn
  rw [completes_next, State.issue_keeps]
  · simp
  · intro u gx eff
    dsimp only
    split
    · simp
    · split <;> simp

@[simp] theorem execPjob_completes (g : GroupId) (i : Insn) (s : State) : Completes s (execPjob g i s) := by
  unfold execPjob
  rw [completes_next, State.issue_keeps]
  · simp
  · intro u gx eff
    dsimp only
    split <;> simp

@[simp] theorem execProofpost_completes (g : GroupId) (i : Insn) (s : State) : Completes s (execProofpost g i s) := by
  unfold execProofpost
  rw [completes_next, State.issue_keeps]
  · simp
  · intro u gx eff
    dsimp only
    split <;> simp

@[simp] theorem execMemoryRequestComplete_completes (g : GroupId) (k : Nat) (ecc : Ecc) (s : State) :
    Completes s (execMemoryRequestComplete g k ecc s) := by
  simp only [execMemoryRequestComplete, completes_next]
  split <;> simp

@[simp] theorem execWaitNotice_completes (g : GroupId) (addr : BitVec 48) (s : State) : Completes s (execWaitNotice g addr s) := by
  simp only [execWaitNotice, completes_next]
  split <;> simp

@[simp] theorem execSectorFill_completes (line : BitVec 48) (sector : Fin 4) (ecc : Ecc) (s : State) :
    Completes s (execSectorFill line sector ecc s) := by
  simp only [execSectorFill, completes_next]
  split <;> simp

@[simp] theorem execUpdatePerform_completes (line : BitVec 48) (s : State) : Completes s (execUpdatePerform line s) := by
  simp only [execUpdatePerform, completes_next]
  repeat' split
  all_goals simp

@[simp] theorem execRecallComplete_completes (line : BitVec 48) (s : State) : Completes s (execRecallComplete line s) := by
  simp only [execRecallComplete, completes_next]
  split <;> simp

@[simp] theorem execWritebackAccepted_completes (line : BitVec 48) (s : State) : Completes s (execWritebackAccepted line s) := by
  simp only [execWritebackAccepted, completes_next]
  split <;> simp

@[simp] theorem execScrubTurn_completes (die : Fin 6) (slice : Fin 256) (ecc : Ecc) (s : State) :
    Completes s (execScrubTurn die slice ecc s) := by
  simp only [execScrubTurn, completes_next]
  repeat' split
  all_goals simp

/-- The banked key is hidden behind a variable, so that the kernel does not compute it. -/
@[simp] theorem execThrashWindowEnd_completes (die : Fin 6) (slice : Fin 256) (s : State) :
    Completes s (execThrashWindowEnd die slice s) := by
  obtain ⟨key, hk⟩ : ∃ k, bank Reg.LIN_SLICE_THRASH (256 * die.val + slice.val) = k := ⟨_, rfl⟩
  unfold execThrashWindowEnd
  rw [completes_next, hk]
  dsimp only
  simp -implicitDefEqProofs

@[simp] theorem execFlushDone_completes (s : State) : Completes s (execFlushDone s) := by
  simp only [execFlushDone, completes_next]
  split <;> simp

@[simp] theorem execHomeqLookup_completes (r : Req) (addr : BitVec 48) (s : State) : Completes s (execHomeqLookup r addr s) := by
  unfold execHomeqLookup
  rw [completes_next, State.reqOrder_keeps]
  · simp
  · intro u
    split <;> simp

@[simp] theorem execPatrolTurn_completes (pch : Fin 768) (ecc : Ecc) (s : State) : Completes s (execPatrolTurn pch ecc s) := by
  simp only [execPatrolTurn, completes_next]
  repeat' split
  all_goals simp

@[simp] theorem execHbmStopTimeout_completes (stack : Fin 12) (s : State) : Completes s (execHbmStopTimeout stack s) := by
  simp only [execHbmStopTimeout, completes_next]
  split <;> simp

@[simp] theorem execJigWaitEnd_completes (ch : Fin 320) (s : State) : Completes s (execJigWaitEnd ch s) := by
  simp only [execJigWaitEnd, completes_next]
  split <;> simp

@[simp] theorem execJigFetchFail_completes (ch : Fin 320) (code : Option (BitVec 16)) (s : State) :
    Completes s (execJigFetchFail ch code s) := by
  cases code <;> simp [execJigFetchFail]

@[simp] theorem execLaneErrorWindowEnd_completes (link : Fin 11) (dir : Fin 2) (group : Fin 8) (lane : Fin 68) (errors : Nat)
    (s : State) : Completes s (execLaneErrorWindowEnd link dir group lane errors s) := by
  simp -implicitDefEqProofs [execLaneErrorWindowEnd]

@[simp] theorem execInit_completes (n : Fin 64) (flit : List Byte) (s : State) : Completes s (execInit n flit s) := by
  simp -implicitDefEqProofs [execInit]

@[simp] theorem execSplineLaneFail_completes (n : Fin 64) (lane : Fin 4) (symbols : Option (BitVec 32)) (s : State) :
    Completes s (execSplineLaneFail n lane symbols s) := by
  simp only [execSplineLaneFail, completes_next]
  cases symbols <;> cases (s.link n.val).st <;> simp -implicitDefEqProofs

@[simp] theorem execLinkDisable_completes (f : Func) (n : Fin 64) (s : State) : Completes s (execLinkDisable f n s) := by
  simp -implicitDefEqProofs [execLinkDisable]

@[simp] theorem execReadResp_completes (n : Fin 64) (s : State) : Completes s (execReadResp n s) := by
  unfold execReadResp
  rw [completes_next, State.received_keeps]
  · simp
  · intro m u
    split
    · simp
    · split <;> simp

@[simp] theorem execReqTimeout_completes (die : Fin 4) (entry : Fin 4096) (s : State) : Completes s (execReqTimeout die entry s) := by
  simp only [execReqTimeout, completes_next]
  split <;> simp

@[simp] theorem execBar2ReadTimeout_completes (f : Func) (s : State) : Completes s (execBar2ReadTimeout f s) := by
  simp only [execBar2ReadTimeout, completes_next]
  split <;> simp

@[simp] theorem execPortReset_completes (port : Fin 2) (flr : Bool) (s : State) : Completes s (execPortReset port flr s) := by
  simp -implicitDefEqProofs [execPortReset]

@[simp] theorem execConfigurationWrite_completes (f : Func) (x : CfgWrite) (s : State) : Completes s (execConfigurationWrite f x s) := by
  simp only [execConfigurationWrite, completes_next]
  split <;> simp

@[simp] theorem execTbReservedCycle_completes (_arg : BitVec 8) (parityOk : Bool) (s : State) :
    Completes s (execTbReservedCycle _arg parityOk s) := by
  simp -implicitDefEqProofs [execTbReservedCycle]

@[simp] theorem execVendorDefinedRequest_completes (t : Transport) (standardOk vendorOk : Bool) (op : BitVec 8) (off : BitVec 32)
    (s : State) : Completes s (execVendorDefinedRequest t standardOk vendorOk op off s) := by
  simp only [execVendorDefinedRequest, completes_next]
  repeat' split
  all_goals simp

@[simp] theorem execSuspectWindowClose_completes (rail : Fin 17) (s : State) : Completes s (execSuspectWindowClose rail s) := by
  simp only [execSuspectWindowClose, completes_next]
  split <;> simp

@[simp] theorem execDomainUp_completes (core : Fin 72) (s : State) : Completes s (execDomainUp core s) := by
  simp only [execDomainUp, completes_next]
  repeat' split
  all_goals simp

@[simp] theorem execDieSample_completes (die : Fin 22) (temps : List Int) (est : Int) (s : State) :
    Completes s (execDieSample die temps est s) := by
  simp only [execDieSample, completes_next]
  repeat' split
  all_goals simp

@[simp] theorem execShutdownRecordTimeout_completes (s : State) : Completes s (execShutdownRecordTimeout s) := by
  simp only [execShutdownRecordTimeout, completes_next]
  split <;> simp

@[simp] theorem execAlterationStart_completes (s : State) : Completes s (execAlterationStart s) := by
  simp only [execAlterationStart, completes_next]
  split <;> simp

@[simp] theorem execMeasurementDone_completes (core : Fin 72) (need : List Nat) (s : State) :
    Completes s (execMeasurementDone core need s) := by
  simp only [execMeasurementDone, completes_next]
  repeat' split
  all_goals simp

@[simp] theorem execMeasurementSkip_completes (core : Fin 72) (s : State) : Completes s (execMeasurementSkip core s) := by
  simp only [execMeasurementSkip, completes_next]
  repeat' split
  all_goals simp

@[simp] theorem execLogAppend_completes (s : State) : Completes s (execLogAppend s) := by
  simp only [execLogAppend, completes_next]
  cases s.log.lastAt <;> simp

@[simp] theorem execInterruptPresentation_completes (t : Fin 3) (s : State) : Completes s (execInterruptPresentation t s) := by
  simp only [execInterruptPresentation, completes_next]
  split <;> simp

@[simp] theorem execFirmwareGroupComplete_completes (group : BitVec 5) (s : State) : Completes s (execFirmwareGroupComplete group s) := by
  simp -implicitDefEqProofs [execFirmwareGroupComplete]

@[simp] theorem execDarn_completes (f : Func) (s : State) : Completes s (execDarn f s) := by
  unfold execDarn
  rw [completes_next, State.inOrder_keeps]
  · simp
  · intro u
    simp -implicitDefEqProofs

@[simp] theorem execVeneer_completes (f : Func) (s : State) : Completes s (execVeneer f s) := by
  unfold execVeneer
  rw [completes_next, State.inOrder_keeps]
  · simp
  · intro u
    simp

@[simp] theorem execModuleReset_completes (cause : ResetCause) (cycles : Nat) (s : State) :
    Completes s (execModuleReset cause cycles s) := by
  simp only [execModuleReset, completes_next]
  cases s.brup.resetAt <;> simp

@[simp] theorem execStackPhaseEnd_completes (e : StepEnd) (lanes bad : List Nat) (s : State) :
    Completes s (execStackPhaseEnd e lanes bad s) := by
  simp only [execStackPhaseEnd, completes_next]
  split <;> simp

@[simp] theorem execPairAliveDrop_completes (s : State) : Completes s (execPairAliveDrop s) := by
  simp only [execPairAliveDrop, completes_next]
  split <;> simp

theorem exec_completes (c : Instr) (s : State) : Completes s (exec c s) := by
  cases c with
  -- BAR0
  | registerWrite | lowWordRead | highWordRead | lowWordWrite | highWordWrite =>
    simp [exec, execRegisterWrite, execLowWordRead, execHighWordRead, execLowWordWrite, execHighWordWrite]
  -- basting
  | baste | load | loadDone | sew | validationDone | unpick | patchData | bastingTimeout =>
    simp [exec, execLoadDone, execBastingTimeout]
  -- ticks and steps
  | commit | cuttingListCopy | baseBoundary | syncInEdge | syncLostTimeout | fitClose | fitRecRead =>
    simp -implicitDefEqProofs [exec, execCommit, execCuttingListCopy, execSyncInEdge, execSyncLostTimeout, execFitClose]
  -- panels
  | panelLoad | pass | drain | bind | panelFence | commandComplete | panelQueueStallEnd | proofGroupStart =>
    simp [exec]
  -- threads: control
  | nop | br | endLanes | spawn | bar | parkact | pregrd | pregwr =>
    simp [exec, execNop, execBr, execEndLanes, execBar, execParkact, execPregrd, execPregwr]
  -- threads: arithmetic
  | iadd | isub | imul | imulhi | iand | ior | ixor | inot | shl | shr | sar | imin | imax | isetp | fadd | fsub | fmul
  | ffma | fmin | fmax | fabs | fneg | fsetp | frcp | cvt | f2i | i2f | mov | movi | movs | pmov =>
    simp [exec, execIadd, execIsub, execImul, execImulhi, execIand, execIor, execIxor, execInot, execShl, execShr, execSar,
      execImin, execImax, execIsetp, execFadd, execFsub, execFmul, execFfma, execFmin, execFmax, execFabs, execFneg,
      execFsetp, execFrcp, execCvt, execF2i, execI2f, execMov, execMovi, execMovs, execPmov]
  -- threads: memory
  | ld | st | lds | sts | fence | cinv | atom | clampAcq | clampRel | signal | waitsig | adm | complete | pjob =>
    simp [exec, execLd, execSt, execLds, execFence, execCinv, execAtom, execClampAcq, execClampRel, execSignal,
      execWaitsig, execAdm, execComplete]
  -- threads: panels
  | panel | ctrrd | ctrwait | flagrd | fitbind | proofpost =>
    simp -implicitDefEqProofs [exec, execPanel, execCtrrd, execCtrwait, execFlagrd, execFitbind]
  -- threads: events
  | memoryRequestComplete | releaseNotice | waitNotice | clampDeadlock | watchdogExpiry | parkReplay | parkSkip | parkDrop
  | pregDataWrite =>
    simp [exec, execReleaseNotice, execClampDeadlock, execWatchdogExpiry, execParkReplay, execParkSkip, execParkDrop,
      execPregDataWrite]
  -- lining
  | liningAccess | sectorFill | updatePerform | recallComplete | writebackAccepted | scrubTurn | thrashWindowEnd | linClear
  | linClearDone | pin | unpin | flush | flushDone | homeqLookup =>
    simp [exec, execLiningAccess, execLinClear, execLinClearDone, execPin, execUnpin, execFlush]
  -- HBM
  | hbmSectorAccess | patrolTurn | hbmTempReport | hbmStopTimeout | hbmCondemn =>
    simp [exec, execHbmSectorAccess, execHbmTempReport, execHbmCondemn]
  -- jig
  | jigGo | jigStop | move | loop | wait | jigWaitEnd | jigSignal | jigEnd | jigAccessComplete | jigFetchFail
  | resumeContinue | resumeRetry | pl7Write =>
    simp [exec, execJigGo, execJigStop, execMove, execLoop, execWait, execJigSignal, execJigEnd, execJigAccessComplete,
      execResumeContinue, execResumeRetry, execPl7Write]
  -- network
  | laneErrorWindowEnd | laneLockLoss | regulatorWindowStart =>
    simp [exec, execLaneLockLoss, execRegulatorWindowStart]
  -- spline links
  | linkTrainingRetry | linkTrainingEnd | init | data | nak | replayTimeout | splineLaneFail | linkDisable | linkRetrain =>
    simp [exec, execLinkTrainingRetry, execLinkTrainingEnd, execData, execNak, execReplayTimeout, execLinkRetrain]
  -- spline messages
  | write | read | readResp | reduce | signalMessage | tickmark | mirrorData | mirrorSheet | mirrorCommit | heartbeat
  | reqTimeout =>
    simp [exec, execWrite, execRead, execReduce, execSignalMessage, execTickmark, execMirrorData, execMirrorSheet,
      execHeartbeat]
  -- host ports
  | bar2Read | bar2Write | bar2ReadTimeout | bar4Write | apbaseWrite | portReset | vfFlr | configurationWrite | doeRequest =>
    simp [exec, execBar2Read, execBar2Write, execBar4Write, execApbaseWrite, execVfFlr, execDoeRequest]
  -- tick bus and pins
  | tbIdle | tbTick | tbPoll | tbQuery | tbTakeover | tbHalt | tbReservedCycle | tbClkLost | tbClkResume | thermInAssert
  | thermInRelease | pwrFaultInAssert | pwrFaultInRelease =>
    simp [exec, execTbIdle, execTbTick, execTbPoll, execTbQuery, execTbTakeover, execTbHalt, execTbClkLost, execTbClkResume,
      execThermInAssert, execThermInRelease, execPwrFaultInAssert, execPwrFaultInRelease]
  -- management and attestation
  | i3cDynamicAddress | rstdaa | pldmSensorRead | setNumericEffecterValue | setEventReceiver | getVersion | getCapabilities
  | negotiateAlgorithms | getDigests | getCertificate | challenge | getMeasurements | vendorDefinedRequest =>
    simp [exec, execI3cDynamicAddress, execRstdaa, execPldmSensorRead, execSetNumericEffecterValue, execSetEventReceiver,
      execGetVersion, execGetCapabilities, execNegotiateAlgorithms, execGetDigests, execGetCertificate, execChallenge,
      execGetMeasurements]
  -- power
  | stageTwoStart | inputUnderrange | inputRangeRelease | undervolt | overvolt | powerMeasurement | pwrLimitWrite
  | phaseFail | droop | warningTrip | suspectWindowClose | railReset | rampStart | rampEnd | domainUp =>
    simp -implicitDefEqProofs [exec, execStageTwoStart, execInputUnderrange, execInputRangeRelease, execUndervolt,
      execOvervolt, execPowerMeasurement, execPwrLimitWrite, execPhaseFail, execDroop, execWarningTrip, execRailReset,
      execRampStart, execRampEnd]
  -- heat
  | dieSample | shutdownRecordTimeout | throttleLevelUpdate | overtempTrip | alterationStart | altAll | altCore
  | altPartition | measurementDone | measurementSkip | shutClr =>
    simp [exec, execThrottleLevelUpdate, execOvertempTrip, execAltAll, execAltCore, execAltPartition, execShutClr]
  -- log and interrupts
  | logAppend | errTailWrite | interruptPresentation | eoi | firmwareGroupComplete | vfMessage =>
    simp [exec, execErrTailWrite, execEoi, execVfMessage]
  -- escutcheon
  | debugCmd | enrol | relock | escCommandComplete | escutcheonFailure =>
    simp [exec, execDebugCmd, execEnrol, execRelock, execEscutcheonFailure]
  -- bring-up
  | dowel | darn | hbm | lining | veneer | kat | ready | brupStepEnd =>
    simp [exec, execDowel, execHbm, execLining, execKat, execReady]
  -- resets
  | modrst | moduleReset | partitionReset | partitionResetDone | coreReset | computeDieReset | stackDrain | stackForce
  | stackPhaseEnd =>
    simp [exec, execModrst, execPartitionReset, execPartitionResetDone, execCoreReset, execComputeDieReset, execStackDrain,
      execStackForce]
  -- pair
  | pairCfgWrite | arm | disarm | mirrorSend | pairAliveDrop | idleFlit | droopRecovery | hostPortLinkUp
  | layerSensorTimeout | pendingSetMove =>
    simp [exec, execPairCfgWrite, execArm, execDisarm, execMirrorSend, execIdleFlit, execDroopRecovery, execHostPortLinkUp,
      execLayerSensorTimeout, execPendingSetMove]
/-! ## A step (log entry 1) -/

@[simp] theorem State.lateReply_held (s : State) (c : Instr) : (s.lateReply c).held = s.held := by
  unfold State.lateReply
  split <;> simp

/-- The accesses put off at a port keep what is held, however many of them are made. -/
theorem runLater_completes (port n : Nat) (s : State) : Completes s (Sys2Proof.Machine.runLater port n s) := by
  induction n generalizing s with
  | zero => exact ⟨s, rfl, .refl _⟩
  | succ n ih =>
    rw [Sys2Proof.Machine.runLater]
    dsimp only
    split
    · exact ⟨s, rfl, .refl _⟩
    · next t c rest _ =>
      split
      · exact ⟨s, rfl, .refl _⟩
      · obtain ⟨u, hu, hl⟩ := exec_completes c (s.portSet port { s.port port with later := [], arrived := some t })
        rw [hu]
        obtain ⟨v, hv, hk⟩ := ih ((u.portSet port { u.port port with later := (u.port port).later ++ rest, arrived := none }).lateReply c)
        refine ⟨v, hv, hl.trans ?_⟩
        simpa using hk

theorem State.runLater_completes (s : State) : Completes s s.runLater := by
  obtain ⟨u, hu, hl⟩ := Machine.runLater_completes 0 (s.port 0).later.length s
  obtain ⟨v, hv, hk⟩ := Machine.runLater_completes 1 (u.port 1).later.length u
  rw [State.runLater, hu]
  exact ⟨v, hv, hl.trans hk⟩

@[simp] theorem State.initAgain_held (s : State) : s.initAgain.held = s.held := by
  simp -implicitDefEqProofs [State.initAgain]

@[simp] theorem State.idle_keeps (s : State) : s.Keeps s.idle := keeps_of (by simp [State.idle])

/-- Settles O40: every command answers a next state, and leaves the queue alone. -/
theorem everyCommandCompletes : Obligations.EveryCommandCompletes := by
  unfold Obligations.EveryCommandCompletes
  intro c s
  obtain ⟨t, ht, hl⟩ := exec_completes c s
  exact ⟨t, ht, hl.queue⟩

/-- Settles O42: a step is a command, or an idle cycle and the accesses that were put off; each keeps the form. -/
theorem stepKeepsMemories : Obligations.StepKeepsMemories := by
  unfold Obligations.StepKeepsMemories
  intro s t hw hs
  unfold step at hs
  split at hs
  · obtain ⟨u, hu, hl⟩ := s.idle.runLater_completes
    rw [hu] at hs
    cases hs
    exact (s.idle_keeps.leads.trans hl).wf hw
  · next c rest _ =>
    obtain ⟨u, hu, hl⟩ := exec_completes c { s with pending := rest }
    rw [hu] at hs
    cases hs
    exact hl.wf hw

end Sys2Proof.Machine

namespace Sys2Proof.Machine

/-! # A step, and what module reset leaves

The idle step where nothing waits is followed operation by operation: each finds nothing to do. -/

/-! ## The idle step -/

theorem State.retryBlocked_of_none (s : State) (hb : s.lin.blocked = []) (hc : s.lin.copyDue = []) : s.retryBlocked = s := by
  obtain ⟨⟩ := s
  simp_all [State.retryBlocked, State.serveOrder, State.copiesDue]
  rw [← hb, ← hc]

theorem State.initAgain_of_none (s : State) (h : ∀ e ∈ s.spl.links, e.2.st = .training → e.2.trained = false) :
    s.initAgain = s := by
  unfold State.initAgain
  refine List.foldlRecOn (motive := (· = s)) _ _ rfl fun u hu e he => ?_
  rw [if_neg (by simpa using h e he), hu]

theorem State.runLater_of_none (s : State) (h : ∀ p, (s.port p).later = []) : s.runLater = .next s := by
  simp [State.runLater, h, Machine.runLater]

theorem step_of_empty {s : State} (h : s.pending = []) : step s = s.idle.runLater := by
  unfold step
  split
  · rfl
  · simp_all

theorem step_idle_of_none (s : State) (hp : s.pending = []) (hb : s.lin.blocked = []) (hc : s.lin.copyDue = [])
    (hl : ∀ e ∈ s.spl.links, e.2.st = .training → e.2.trained = false)
    (hh : ∀ p, (s.port p).ops = [] ∧ (s.port p).later = []) : step s = .next { s with now := s.now + 10 } := by
  let u : State := { s with now := s.now + 10 }
  have pumped : ∀ p, u.hostPump p = u := fun p => State.hostPump_of_idle (s := u) (hh p).1
  have hi : s.idle = u := calc
    s.idle = ((u.retryBlocked.initAgain).hostPump 0).hostPump 1 := rfl
    _ = (u.hostPump 0).hostPump 1 := by rw [u.retryBlocked_of_none hb hc, u.initAgain_of_none hl]
    _ = u := by rw [pumped, pumped]
  rw [step_of_empty hp, hi]
  exact u.runLater_of_none fun p => (hh p).2

/-- Settles O39: the cases of `step`, and the idle step where nothing waits. -/
theorem stepTakesFrontCommand : Obligations.StepTakesFrontCommand := by
  unfold Obligations.StepTakesFrontCommand
  exact ⟨fun c s => rfl, fun s hp => ⟨step_of_empty hp, step_idle_of_none s hp⟩⟩

/-! ## Module reset (Table 21.2) -/

/-- What a module reset leaves, before it shows the limit in force and its cause. -/
def State.wiped (s : State) : State :=
  { State.reset with
    pending := s.pending, now := s.now, free := s.free + 1, reply := s.reply, outbox := s.outbox, fuses := s.fuses,
    nor := { s.nor with hours := s.hoursNow },
    hbm := { State.reset.hbm with data := s.hbm.data, secs := s.hbm.secs, undef := s.hbm.undef },
    esc := { State.reset.esc with
      made := s.esc.made + 1, moduleKey := s.esc.made + 1, standby := Config.pick s.free % 2 == 1 },
    pins := { State.reset.pins with thermIn := s.pins.thermIn, faultIn := s.pins.faultIn },
    rng := s.rng.fresh,
    pwr := { State.reset.pwr with
      faultHold := s.pins.faultIn, rangeHold := s.pwr.rangeHold, stageTwo := s.pwr.stageTwo, low := s.pwr.low } }

theorem State.moduleReset_wiped (s : State) (cause : Nat) : s.wiped.sameButRegs (s.moduleReset cause) :=
  State.sameButRegs_trans (t := s.wiped.limitUpdate) (State.limitUpdate_sameButRegs _) (State.rfSet_sameButRegs ..)

theorem State.moduleReset_sameRegs (s : State) (cause : Nat) :
    sameRegs [Reg.PWR_LAST_RESET, Reg.PWR_EFFECTIVE, Reg.PWR_STATUS] State.reset (s.moduleReset cause) := by
  have start : sameRegs [Reg.PWR_EFFECTIVE, Reg.PWR_STATUS] State.reset s.wiped := sameRegs_of_regs rfl _
  have limit := sameRegs_mono (sameRegs_trans start s.wiped.limitUpdate_sameRegs)
    (List.subset_cons_self Reg.PWR_LAST_RESET _)
  exact sameRegs_trans limit (sameRegs_mono (sameRegs_rfSet s.wiped.limitUpdate Reg.PWR_LAST_RESET 3 0 cause) (by simp))

theorem exec_moduleReset_unfiltered {s : State} {cycles : Nat} (short : s.passes 3 cycles = false) :
    exec (.moduleReset 1 cycles) s = .next s := congrArg Host.Outcome.next (if_pos ⟨rfl, by simp [short]⟩)

theorem exec_moduleReset_at_once {s : State} {c : ResetCause} {cycles : Nat} (other : c ≠ 10)
    (long : c = 1 → s.passes 3 cycles = true) : exec (.moduleReset c cycles) s = .next (s.moduleReset c.val) :=
  congrArg Host.Outcome.next ((if_neg (by rintro ⟨h, hs⟩; simp [long h] at hs)).trans (if_neg other))

/-- Settles O43: the reset state is given, and a module reset leaves it but for what is kept (`State.wiped`) and three registers. -/
theorem resetState : Obligations.ResetState := by
  unfold Obligations.ResetState
  refine ⟨reset_memWf, rfl, by decide, by decide, by decide, rfl, by decide, by decide, rfl, rfl, rfl, fun _ => rfl, fun _ => rfl,
    fun cycles s short => exec_moduleReset_unfiltered short, fun c cycles s other long => ?_⟩
  refine ⟨_, exec_moduleReset_at_once other long, s.rf_moduleReset_lastReset (c.isLt.trans (by decide)), ?_⟩
  rw [s.moduleReset_wiped c.val]
  exact ⟨rfl, rfl, rfl, rfl, rfl, rfl, rfl, rfl, rfl, rfl, rfl, rfl, rfl, rfl, s.moduleReset_sameRegs c.val⟩

end Sys2Proof.Machine

namespace Sys2Proof.Machine

/-! # How a thread instruction issues (R168 to R173, R195)

A group with its turn finds its core's active set arranged and its issue counted (`State.readied`); the instruction then acts
and the group goes on behind it (`Group.passed`). Each step leaves the rest of the state alone, which is said once. -/

/-! ## Masks of lanes -/

theorem bitOf_or (a b i : Nat) : bitOf (a ||| b) i = (bitOf a i || bitOf b i) := by
  simp [bitOf_eq_testBit]

theorem mem_setBits {m n l : Nat} : l ∈ setBits m n ↔ l < n ∧ bitOf m l = true := by simp [setBits]

theorem mem_lanesOf {m : BitVec 32} {l : Nat} : l ∈ lanesOf m ↔ l < 32 ∧ bitOf m.toNat l = true := mem_setBits

theorem lanesOf_nodup (m : BitVec 32) : (lanesOf m).Nodup := List.nodup_range.filter _

theorem lt_of_mem_lanesOf {m : BitVec 32} {l : Nat} (h : l ∈ lanesOf m) : l < 32 := (mem_lanesOf.1 h).1

theorem bitOf_toNat (m : BitVec 32) (l : Nat) : bitOf m.toNat l = m.getLsbD l := bitOf_eq_testBit _ _

theorem getLsbD_foldl_maskOf (ls : List Nat) (m : BitVec 32) (l : Nat) (h : l < 32) :
    (ls.foldl (fun m l => m ||| BitVec.ofNat 32 (2 ^ l)) m).getLsbD l = (m.getLsbD l || decide (l ∈ ls)) := by
  induction ls generalizing m with
  | nil => simp
  | cons k ks ih =>
    rw [List.foldl_cons, ih]
    have one : (BitVec.ofNat 32 (2 ^ k)).getLsbD l = decide (l = k) := by
      rw [BitVec.getLsbD_ofNat, Nat.testBit_two_pow]
      simp [h, eq_comm]
    rw [BitVec.getLsbD_or, one]
    by_cases hk : l = k <;> simp [hk]

theorem bitOf_maskOf (ls : List Nat) {l : Nat} (h : l < 32) : bitOf (maskOf ls).toNat l = decide (l ∈ ls) := by
  rw [bitOf_toNat, maskOf, getLsbD_foldl_maskOf _ _ _ h]
  simp

theorem mem_lanesOf_maskOf {ls : List Nat} {l : Nat} (h : ∀ k ∈ ls, k < 32) : l ∈ lanesOf (maskOf ls) ↔ l ∈ ls := by
  rw [mem_lanesOf]
  constructor
  · rintro ⟨lt, bit⟩
    simpa [bitOf_maskOf _ lt] using bit
  · exact fun mem => ⟨h l mem, by simp [bitOf_maskOf _ (h l mem), mem]⟩

theorem Group.mem_effective (x : Group) (i : Insn) (l : Nat) : l ∈ lanesOf (x.effective i) ↔ x.inEffect i l := by
  unfold Group.effective Group.inEffect
  rw [mem_lanesOf_maskOf fun k hk => lt_of_mem_lanesOf (List.mem_filter.1 hk).1, List.mem_filter, mem_lanesOf]
  tauto

/-! ## Registers and predicates of a group -/

section
variable (x : Group) (l r : Nat)

@[simp] theorem Group.w_wSet_same (v : Word) : (x.wSet l r v).w l r = v := mget_mset_same ..

theorem Group.w_wSet_other (v : Word) {k p : Nat} (hr : r < 128) (hp : p < 128) (h : ¬(k = l ∧ p = r)) :
    (x.wSet l r v).w k p = x.w k p := mget_mset_other _ _ _ _ (by omega)

theorem Group.wSet_regs (v : Word) : x.wSet l r v = { x with regs := (x.wSet l r v).regs } := rfl

theorem Group.q_qSet_same (v : Bool) (h : r < 7) : (x.qSet l r v).q l r = v := by
  unfold Group.qSet Group.q
  have put : putBits (mget x.preds l 0).toNat r r (b2n v) < 2 ^ 7 :=
    putBits_lt _ _ _ _ _ (mget x.preds l 0).isLt (Nat.le_succ r) h
  rw [if_neg (by omega), mget_mset_same, BitVec.toNat_ofNat, Nat.mod_eq_of_lt put, bitOf_putBits _ _ _ _ _ (Nat.le_succ r)]
  have ne : (r == 7) = false := by simp; omega
  simp [ne]

theorem Group.q_qSet_other (v : Bool) {k p : Nat} (h : ¬(k = l ∧ p = r)) : (x.qSet l r v).q k p = x.q k p := by
  unfold Group.qSet Group.q
  split
  · rfl
  · by_cases hk : k = l
    · subst hk
      by_cases seven : p = 7
      · simp [seven]
      · have high : 7 < p → ∀ b : BitVec 7, b.toNat.testBit p = false := fun hi b =>
          Nat.testBit_lt_two_pow (b.isLt.trans (Nat.pow_lt_pow_right (by decide) hi))
        rw [mget_mset_same, BitVec.toNat_ofNat, bitOf_eq_testBit, Nat.testBit_mod_two_pow,
          testBit_putBits _ _ _ _ _ (Nat.le_succ r), bitOf_eq_testBit]
        have off : ¬(r ≤ p ∧ p ≤ r) := by omega
        rcases Nat.lt_or_gt_of_ne seven with hi | hi
        · simp [off, hi]
        · simp [high hi, hi.not_gt]
    · rw [mget_mset_other _ _ _ _ hk]

theorem Group.qSet_preds (v : Bool) : x.qSet l r v = { x with preds := (x.qSet l r v).preds } := by
  unfold Group.qSet
  split <;> rfl

end

/-! ## Each lane of a list writes its register D, or its predicate D -/

/-- A value of a lane that depends on the lane's registers alone, beside all that no lane writes. -/
def LaneValue {α : Type} (x : Group) (v : Group → Nat → α) : Prop :=
  ∀ l y, y = { x with regs := y.regs } → (∀ r, r < 128 → y.w l r = x.w l r) → v y l = v x l

/-- A value of a lane that does not depend on predicates. -/
def PredValue (x : Group) (v : Group → Nat → Bool) : Prop := ∀ l y, y = { x with preds := y.preds } → v y l = v x l

theorem Group.foldl_wSet {x : Group} {v : Group → Nat → Word} (stable : LaneValue x v) {d : Nat} (hd : d < 128) (ls : List Nat)
    (nodup : ls.Nodup) (z : Group) (rest : z = { x with regs := z.regs }) (fresh : ∀ l ∈ ls, ∀ r, r < 128 → z.w l r = x.w l r) :
    let t := ls.foldl (fun x l => x.wSet l d (v x l)) z
    t = { x with regs := t.regs } ∧ (∀ l ∈ ls, t.w l d = v x l) ∧
      ∀ l r, r < 128 → ¬(l ∈ ls ∧ r = d) → t.w l r = z.w l r := by
  induction ls generalizing z with
  | nil => exact ⟨rest, by simp, fun _ _ _ _ => rfl⟩
  | cons k ks ih =>
    obtain ⟨notin, nodup⟩ := List.nodup_cons.1 nodup
    have value : v z k = v x k := stable k z rest (fresh k (by simp))
    obtain ⟨h1, h2, h3⟩ := ih nodup (z.wSet k d (v z k)) (by rw [Group.wSet, rest]) fun l mem r hr => by
      rw [Group.w_wSet_other _ _ _ _ hd hr (by rintro ⟨rfl, -⟩; exact notin mem), fresh l (by simp [mem]) r hr]
    refine ⟨h1, fun l mem => ?_, fun l r hr away => ?_⟩
    · rcases List.mem_cons.1 mem with rfl | mem
      · exact (h3 l d hd fun h => notin h.1).trans ((Group.w_wSet_same ..).trans value)
      · exact h2 l mem
    · rw [List.mem_cons] at away
      exact (h3 l r hr (by tauto)).trans (Group.w_wSet_other _ _ _ _ hd hr (by tauto))

theorem Group.foldl_qSet {x : Group} {v : Group → Nat → Bool} (stable : PredValue x v) {d : Nat} (ls : List Nat)
    (nodup : ls.Nodup) (z : Group) (rest : z = { x with preds := z.preds }) :
    let t := ls.foldl (fun x l => x.qSet l d (v x l)) z
    t = { x with preds := t.preds } ∧ (d < 7 → ∀ l ∈ ls, t.q l d = v x l) ∧
      ∀ l p, ¬(l ∈ ls ∧ p = d ∧ d < 7) → p < 8 → t.q l p = z.q l p := by
  induction ls generalizing z with
  | nil => exact ⟨rest, by simp, fun _ _ _ _ => rfl⟩
  | cons k ks ih =>
    obtain ⟨notin, nodup⟩ := List.nodup_cons.1 nodup
    have value : v z k = v x k := stable k z rest
    obtain ⟨h1, h2, h3⟩ := ih nodup (z.qSet k d (v z k)) (by rw [Group.qSet_preds, rest])
    have kept : ∀ l p, ¬(l = k ∧ p = d ∧ d < 7) → p < 8 → (z.qSet k d (v z k)).q l p = z.q l p := fun l p away hp => by
      by_cases same : l = k ∧ p = d
      · obtain ⟨rfl, rfl⟩ := same
        have seven : p = 7 := by omega
        simp [Group.q, seven]
      · exact Group.q_qSet_other _ _ _ _ same
    refine ⟨h1, fun hd l mem => ?_, fun l p away hp => ?_⟩
    · rcases List.mem_cons.1 mem with rfl | mem
      · exact (h3 l d (fun h => notin h.1) (by omega)).trans ((Group.q_qSet_same _ _ _ _ hd).trans value)
      · exact h2 hd l mem
    · rw [List.mem_cons] at away
      exact (h3 l p (by tauto) hp).trans (kept l p (by tauto) hp)

/-! ## The active set is arranged (R171) -/

/-- Of the state only the active sets of cores may differ. -/
structure State.arranges (s t : State) : Prop where
  rest : t = { s with cores := t.cores }
  core : ∀ c, { t.core c with activeSet := (s.core c).activeSet } = s.core c

theorem State.arranges.refl (s : State) : s.arranges s := ⟨rfl, fun _ => rfl⟩

theorem State.arranges.trans {s t u : State} (h : s.arranges t) (k : t.arranges u) : s.arranges u :=
  ⟨k.rest.trans (congrArg (fun x : State => { x with cores := u.cores }) h.rest), fun c => by rw [← h.core c, ← k.core c]⟩

theorem State.core_coreMap (s : State) (c d : Nat) (f : CoreSt → CoreSt) :
    (s.coreMap c f).core d = if d = c then f (s.core c) else s.core d := by
  split
  · next h => subst h; exact State.core_coreSet_same ..
  · next h => exact State.core_coreSet_other _ _ h

theorem State.coreMap_arranges (s : State) (c : Nat) (f : CoreSt → CoreSt)
    (hf : ∀ x, { f x with activeSet := x.activeSet } = x) : s.arranges (s.coreMap c f) := by
  refine ⟨rfl, fun d => ?_⟩
  rw [State.core_coreMap]
  split
  · next h => rw [h, hf]
  · rfl

theorem State.refill_arranges (s : State) (c n : Nat) : s.arranges (s.refill c n) := by
  induction n generalizing s with
  | zero => exact .refl s
  | succ n ih =>
    unfold State.refill
    split
    · exact .refl s
    · split
      · refine State.arranges.trans ?_ (ih _)
        exact s.coreMap_arranges c _ fun _ => rfl
      · exact .refl s

theorem State.proofSwap_arranges (s : State) (gx : Nat) : s.arranges (s.proofSwap gx) := by
  unfold State.proofSwap
  dsimp only
  split
  · exact .refl s
  · split
    · exact s.coreMap_arranges _ _ fun _ => rfl
    · exact .refl s

theorem State.arrange_arranges (s : State) (gx : Nat) : s.arranges (s.arrange gx) := by
  unfold State.arrange
  split
  · exact (s.refill_arranges ..).trans (State.proofSwap_arranges ..)
  · exact .refl s

theorem State.core_refill_other (s : State) (n : Nat) {c d : Nat} (ne : d ≠ c) : (s.refill c n).core d = s.core d := by
  induction n generalizing s with
  | zero => rfl
  | succ n ih =>
    unfold State.refill
    split
    · rfl
    · split
      · rw [ih, State.core_coreMap, if_neg ne]
      · rfl

theorem State.core_proofSwap_other (s : State) {gx d : Nat} (ne : d ≠ gx / 64) : (s.proofSwap gx).core d = s.core d := by
  unfold State.proofSwap
  dsimp only
  split
  · rfl
  · split
    · rw [State.core_coreMap, if_neg ne]
    · rfl

theorem State.core_arrange_other (s : State) {gx d : Nat} (ne : d ≠ gx / 64) : (s.arrange gx).core d = s.core d := by
  unfold State.arrange
  split
  · rw [State.core_proofSwap_other _ ne, State.core_refill_other _ _ ne]
  · rfl

theorem State.core_of_cores {s t : State} (h : t.cores = s.cores) (c : Nat) : t.core c = s.core c := by
  rw [State.core, h, State.core]

theorem State.takeTurn_of_isSome {s : State} {gx : Nat} (h : (s.takeTurn gx).isSome = true) :
    s.takeTurn gx = some (s.arrange gx) := by
  unfold State.takeTurn at *
  dsimp only at *
  split at h
  · next turn => rw [if_pos turn]
  · cases h

section
variable {s t : State} (h : s.arranges t)
include h

theorem State.arranges.group (gx : Nat) : t.group gx = s.group gx := by rw [h.rest, State.group, State.group]
theorem State.arranges.rg (k : Nat) : t.rg k = s.rg k := rg_of_regs (by rw [h.rest]) k
theorem State.arranges.ptn : t.ptn = s.ptn := by rw [h.rest]
theorem State.arranges.corePart (c : Nat) : t.corePart c = s.corePart c := by rw [State.corePart, h.ptn, State.corePart]

end

/-! ## What issuing leaves alone -/

theorem issueFrame.groupSet {s t : State} {g : GroupId} {i : Insn} (h : issueFrame s t g i) (y : Group) :
    issueFrame s (t.groupSet (gid g) y) g i := by
  obtain ⟨groups, regs, cores, rest⟩ := h
  exact ⟨fun k ne => (State.group_groupSet_other _ _ ne).trans (groups k ne), regs, cores, rest⟩

/-- The state in which an instruction acts whose group has its turn. -/
def State.readied (s : State) (g : GroupId) (op : Nat) (i : Insn) : State := (s.arrange (gid g)).issued (gid g) op i

/-- A group at the instruction that it issues; `n` is its core's issue count. -/
def Group.picked (x : Group) (op : Nat) (i : Insn) (n : Nat) : Group :=
  { x with st := .ready, word := insnWord op i, len := insnLen i, wdog := x.wdog + 1, issued := n }

/-- A group behind the instruction under way. -/
def Group.passed (x : Group) : Group :=
  { x with pc := x.pc + x.len, active := x.replay.getD x.active, replay := none, st := .ready, wait := .nothing }

theorem Group.picked_passed (x : Group) (op : Nat) (i : Insn) (n : Nat) : (x.picked op i n).passed = x.behind op i n := rfl

theorem gid_div (g : GroupId) : gid g / 64 = g.core.val := by unfold gid gix; omega

theorem gid_mod (g : GroupId) : gid g % 64 = g.slot.val := by unfold gid gix; omega

/-- The counts of an issue in the registers: the core's, and a corrected error of the instruction cache (R251). -/
def State.issueCounts (s : State) (gx : Nat) (i : Insn) : State :=
  let s := s.rAdd64 (coreReg Reg.CORE_ISSUE (gx / 64)) 1
  if i.parity then s.rAdd Reg.LIN_ECC_CORR 31 0 1 else s

/-- A cycle of the window of R172. -/
def CoreSt.cycled (proof : Bool) (y : CoreSt) : CoreSt :=
  if y.cycle = 63 then { y with cycle := 0, proofCycles := 0 }
  else { y with cycle := y.cycle + 1, proofCycles := y.proofCycles + b2n proof }

/-- The counts of an issue, and the cycle of its core. -/
def State.issueCounted (s : State) (gx : Nat) (i : Insn) : State :=
  (s.issueCounts gx i).coreMap (gx / 64) (CoreSt.cycled ((s.issueCounts gx i).group gx).isProof)

theorem State.issued_eq (s : State) (gx op : Nat) (i : Insn) : s.issued gx op i =
    (s.issueCounted gx i).groupMap gx
      (fun x => x.picked op i ((s.issueCounted gx i).rg64 (coreReg Reg.CORE_ISSUE (gx / 64)))) := rfl

theorem State.issueCounts_sameButRegs (s : State) (gx : Nat) (i : Insn) : s.sameButRegs (s.issueCounts gx i) := by
  unfold State.issueCounts
  dsimp only
  rw [rAdd64_regs]
  split <;> rfl

theorem State.issueCounts_sameRegs (s : State) (gx : Nat) (i : Insn) :
    sameRegs ([coreReg Reg.CORE_ISSUE (gx / 64), coreReg Reg.CORE_ISSUE (gx / 64) + 4] ++
      (if i.parity then [Reg.LIN_ECC_CORR] else [])) s (s.issueCounts gx i) := by
  intro k away
  simp only [List.mem_append, List.mem_cons, List.not_mem_nil, or_false, not_or] at away
  obtain ⟨⟨low, high⟩, ecc⟩ := away
  have counted : (s.rAdd64 (coreReg Reg.CORE_ISSUE (gx / 64)) 1).rg k = s.rg k := rg_rg64Set_other s _ low high
  unfold State.issueCounts
  dsimp only
  split
  · next par => rw [rg_rAdd_other _ _ _ _ (by simpa [par] using ecc), counted]
  · exact counted

/-- Only registers and cores differ. -/
theorem State.issueCounted_rest (s : State) (gx : Nat) (i : Insn) :
    s.issueCounted gx i = { s with regs := (s.issueCounted gx i).regs, cores := (s.issueCounted gx i).cores } := by
  rw [State.issueCounted, s.issueCounts_sameButRegs]
  rfl

theorem State.issueCounted_core (s : State) (gx : Nat) (i : Insn) (c : Nat) :
    { (s.issueCounted gx i).core c with cycle := (s.core c).cycle, proofCycles := (s.core c).proofCycles } = s.core c := by
  have same : (s.issueCounts gx i).core = s.core := by
    funext d
    rw [s.issueCounts_sameButRegs]
    rfl
  rw [State.issueCounted, State.core_coreMap, same]
  split
  · next h =>
    subst h
    unfold CoreSt.cycled
    split <;> rfl
  · rfl

section
variable (s : State) (g : GroupId) (op : Nat) (i : Insn)

theorem State.group_readied : (s.readied g op i).group (gid g) =
    (s.group (gid g)).picked op i ((s.readied g op i).group (gid g)).issued := by
  have same : ((s.arrange (gid g)).issueCounted (gid g) i).group (gid g) = s.group (gid g) := by
    rw [State.issueCounted_rest, ← (s.arrange_arranges (gid g)).group, State.group, State.group]
  rw [State.readied, State.issued_eq, State.groupMap, State.group_groupSet_same, same]
  rfl

theorem State.core_readied_other {d : Nat} (ne : d ≠ g.core.val) : (s.readied g op i).core d = s.core d := by
  have away : d ≠ gid g / 64 := by rwa [gid_div]
  show ((s.arrange (gid g)).issueCounted (gid g) i).core d = _
  rw [State.issueCounted, State.core_coreMap, if_neg away]
  exact (State.core_of_cores (by rw [State.issueCounts_sameButRegs]) d).trans (s.core_arrange_other away)

theorem State.readied_frame : issueFrame s (s.readied g op i) g i := by
  have arr := s.arrange_arranges (gid g)
  let u := s.arrange (gid g)
  let v := u.issueCounted (gid g) i
  have frame : issueFrame s v g i := by
    refine ⟨fun h _ => ?_, fun k away => ?_, fun c => ?_, ?_⟩
    · rw [show v = _ from u.issueCounted_rest (gid g) i, ← arr.group, State.group, State.group]
    · rw [← gid_div g] at away
      exact (u.issueCounts_sameRegs (gid g) i k away).trans (arr.rg k)
    · have counted := u.issueCounted_core (gid g) i c
      rw [← arr.core c, ← counted]
    · rw [show v = _ from u.issueCounted_rest (gid g) i, show u = _ from arr.rest]
  exact frame.groupSet _

end

/-! ## Issue -/

section
variable {s : State} {g : GroupId} {i : Insn} {f : Form}

/-- An instruction that issues acts on the effective lanes of the group it finds. -/
theorem Issues.issue (h : Issues s g i f) (op : Nat) (body : State → Nat → BitVec 32 → State) :
    s.issue g op i f body = body (s.readied g op i) (gid g) ((s.group (gid g)).effective i) := by
  obtain ⟨p, own, low, aligned, fits⟩ := h.inside
  have part : (s.arrange (gid g)).corePart g.core.val = some p := ((s.arrange_arranges _).corePart _).trans own
  have len : (s.arrange (gid g)).ptn.running = s.ptn.running := by rw [(s.arrange_arranges _).ptn]
  have turn : ¬(((s.group (gid g)).st ≠ .ready ∧ (s.group (gid g)).st ≠ .busy) ∨ (s.group (gid g)).stalled = true ∨
      (s.group (gid g)).expired = true ∨ s.clockStopped g.core.val = true) := by
    simp [h.ready, h.unstalled, h.unexpired, h.clocked]
  unfold State.issue
  rw [show gix g.core.val g.slot.val = gid g from rfl]
  dsimp only
  rw [if_neg turn, State.takeTurn_of_isSome h.admitted]
  simp only [h.faultless, part, len]
  have good : (decide ((s.group (gid g)).pc < 0x40 ∨ (s.group (gid g)).pc % 8 ≠ 0 ∨
      s.ptn.running.progLen p < (s.group (gid g)).pc + insnLen i) || !f.ok i) = false := by
    simp [h.form, aligned, fits]
    omega
  rw [good, h.operands, if_neg (by simp), if_neg (by simp)]
  rfl

/-- A READY group with a lane active, off its reconvergence point, stays as it is. -/
theorem State.settleGroup_of_path (s : State) (gx : Nat) {y : Group} (st : y.st = .ready) (lanes : y.active ≠ 0)
    (path : ∀ e, y.stack.head? = some e → y.pc ≠ e.rpc) :
    (s.groupSet gx y).settleGroup gx = (s.groupSet gx y).groupSet gx y := by
  have stays : y.settle 18 = y := by
    unfold Group.settle
    split
    · rfl
    · next e rest hs => exact if_neg (not_or.2 ⟨lanes, path e (by rw [hs]; rfl)⟩)
  rw [State.settleGroup, State.group_groupSet_same, stays, if_neg fun h => lanes h.1, if_neg (by simp [st])]

/-- A group goes on behind its instruction, where some lane stays active and the path does not reconverge. -/
theorem State.pass_of_path (s : State) (gx : Nat) (lanes : (s.group gx).passed.active ≠ 0)
    (path : ∀ e, (s.group gx).stack.head? = some e → (s.group gx).passed.pc ≠ e.rpc) :
    s.pass gx = (s.groupSet gx (s.group gx).passed).groupSet gx (s.group gx).passed :=
  s.settleGroup_of_path gx rfl lanes path

/-- Where the group's stack and mask at the instruction are those it issued with, it goes on behind it. -/
theorem Issues.pass (h : Issues s g i f) {u : State} {y : Group} (hy : u.group (gid g) = y) (pc : y.pc = (s.group (gid g)).pc)
    (len : y.len = insnLen i) (mask : y.replay.getD y.active = (s.group (gid g)).replay.getD (s.group (gid g)).active)
    (stack : y.stack = (s.group (gid g)).stack) :
    u.pass (gid g) = (u.groupSet (gid g) y.passed).groupSet (gid g) y.passed := by
  subst hy
  refine u.pass_of_path (gid g) (by rw [Group.passed, mask]; exact h.lanes) fun e top => ?_
  rw [Group.passed, pc, len]
  exact h.path e (by rwa [← stack])

/-- The group as it finds itself at the instruction, and with a change of registers or predicates goes on behind it. -/
theorem Issues.acts (h : Issues s g i f) (op : Nat) (y : Group)
    (rest : ∃ r q, y = { (s.readied g op i).group (gid g) with regs := r, preds := q }) :
    let t := ((s.readied g op i).groupSet (gid g) y).pass (gid g)
    t.group (gid g) = y.passed ∧ issueFrame s t g i := by
  have found := s.group_readied g op i
  obtain ⟨r, q, hr⟩ := rest
  have passes := h.pass (u := (s.readied g op i).groupSet (gid g) y) (State.group_groupSet_same ..)
    (by rw [hr, found]; rfl) (by rw [hr, found]; rfl) (by rw [hr, found]; rfl) (by rw [hr, found]; rfl)
  dsimp only
  rw [passes]
  exact ⟨State.group_groupSet_same .., (((s.readied_frame g op i).groupSet _).groupSet _).groupSet _⟩

theorem Issues.acts_writesD (h : Issues s g i f) (op : Nat) {v : Group → Nat → Word} (w : Group → Nat → Word)
    (stable : ∀ n, LaneValue ((s.group (gid g)).picked op i n) v)
    (same : ∀ n l, l < 32 → v ((s.group (gid g)).picked op i n) l = w (s.group (gid g)) l) :
    let u := (s.readied g op i).group (gid g)
    writesD s (((s.readied g op i).groupSet (gid g)
      ((lanesOf ((s.group (gid g)).effective i)).foldl (fun x l => x.wSet l i.d.toNat (v x l)) u)).pass (gid g)) g op i w := by
  intro u
  have found : u = (s.group (gid g)).picked op i u.issued := s.group_readied g op i
  have stable : LaneValue u v := by
    rw [found]
    exact stable _
  obtain ⟨rest, written, kept⟩ := Group.foldl_wSet stable (d := i.d.toNat) i.d.isLt _
    (lanesOf_nodup ((s.group (gid g)).effective i)) u rfl fun _ _ _ _ => rfl
  obtain ⟨hy, frame⟩ := h.acts op _ ⟨_, u.preds, rest⟩
  unfold writesD
  rw [hy]
  refine ⟨fun l eff => ?_, fun l r hr away => ?_, ?_, frame⟩
  · exact (written l ((Group.mem_effective ..).2 eff)).trans (by rw [found]; exact same _ _ eff.2.1)
  · exact (kept l r hr (by rwa [Group.mem_effective])).trans (by rw [found]; rfl)
  · rw [rest, found]
    rfl

theorem Issues.lanewise_writesD (h : Issues s g i f) (op : Nat) {v : Group → Nat → Word}
    (stable : ∀ n, LaneValue ((s.group (gid g)).picked op i n) v)
    (same : ∀ n l, v ((s.group (gid g)).picked op i n) l = v (s.group (gid g)) l) :
    writesD s (s.lanewise g op i f (fun x l => x.wSet l i.d.toNat (v x l))) g op i v := by
  rw [State.lanewise, h.issue]
  exact h.acts_writesD op v stable fun n l _ => same n l

theorem Issues.lanewise_writesQ (h : Issues s g i f) (op : Nat) {v : Group → Nat → Bool}
    (stable : ∀ n, PredValue ((s.group (gid g)).picked op i n) v)
    (same : ∀ n l, v ((s.group (gid g)).picked op i n) l = v (s.group (gid g)) l) :
    writesQ s (s.lanewise g op i f (fun x l => x.qSet l i.d.toNat (v x l))) g op i v := by
  let u := (s.readied g op i).group (gid g)
  have found : u = (s.group (gid g)).picked op i u.issued := s.group_readied g op i
  have stable : PredValue u v := by
    rw [found]
    exact stable _
  obtain ⟨rest, written, kept⟩ := Group.foldl_qSet stable (d := i.d.toNat) _
    (lanesOf_nodup ((s.group (gid g)).effective i)) u rfl
  obtain ⟨hy, frame⟩ := h.acts op _ ⟨u.regs, _, rest⟩
  rw [State.lanewise, h.issue, State.groupMap]
  unfold writesQ
  rw [hy]
  refine ⟨fun l eff hd => ?_, fun l p hp away => ?_, ?_, frame⟩
  · exact (written hd l ((Group.mem_effective ..).2 eff)).trans (by rw [found]; exact same _ _)
  · refine (kept l p ?_ hp).trans (by rw [found]; rfl)
    rw [Group.mem_effective]
    exact fun ⟨eff, same, lt⟩ => away ⟨eff, same, same ▸ lt⟩
  · rw [rest, found]
    rfl

end

/-! ## The values that instructions write

A value read from register A and operand B of the lane is `ofAB fn`. -/

/-- A value of registers A and B of a lane. -/
def ofAB {α : Type} (i : Insn) (fn : Word → Word → α) (x : Group) (l : Nat) : α := fn (x.w l i.a.toNat) (x.opB i l)

theorem laneValue_ofAB {α : Type} (x : Group) (i : Insn) (fn : Word → Word → α) : LaneValue x (ofAB i fn) := by
  intro l y _ regs
  have b : y.opB i l = x.opB i l := by
    unfold Group.opB
    split
    · rfl
    · exact regs _ i.b.isLt
  rw [ofAB, regs _ i.a.isLt, b, ofAB]

theorem predValue_ofAB (x : Group) (i : Insn) (fn : Word → Word → Bool) : PredValue x (ofAB i fn) := by
  rintro l y rest
  rw [rest]
  rfl

theorem writesD_congr {s t : State} {g : GroupId} {op : Nat} {i : Insn} {v w : Group → Nat → Word} (h : writesD s t g op i v)
    (same : ∀ x l, v x l = w x l) : writesD s t g op i w := by
  rwa [← show v = w from funext fun x => funext fun l => same x l]

theorem writesQ_congr {s t : State} {g : GroupId} {op : Nat} {i : Insn} {v w : Group → Nat → Bool} (h : writesQ s t g op i v)
    (same : ∀ x l, v x l = w x l) : writesQ s t g op i w := by
  rwa [← show v = w from funext fun x => funext fun l => same x l]

section
variable {s : State} {g : GroupId} {i : Insn} {m : Nat}

theorem Issues.binary (h : Issues s g i (binForm i m)) (op : Nat) (fn : Word → Word → Word) :
    writesD s (s.binary g op i m fn) g op i (fun x l => fn (x.w l i.a.toNat) (x.opB i l)) :=
  h.lanewise_writesD op (v := ofAB i fn) (fun _ => laneValue_ofAB _ i fn) fun _ _ => rfl

theorem Issues.unary (h : Issues s g i (unForm i m)) (op : Nat) (fn : Word → Word) :
    writesD s (s.unary g op i m fn) g op i (fun x l => fn (x.w l i.a.toNat)) :=
  h.lanewise_writesD op (v := ofAB i fun a _ => fn a) (fun _ => laneValue_ofAB _ i _) fun _ _ => rfl

end

end Sys2Proof.Machine

namespace Sys2Proof.Machine

/-! # Arithmetic, comparisons and moves (R195 to R198, R216, R485) -/

/-! ## Words as integers -/

theorem ofInt_intOf (i : Insn) (w : Word) : BitVec.ofInt 32 (intOf i w) = w := by
  unfold intOf
  split <;> simp

theorem ofInt_min_intOf (i : Insn) (a b : Word) :
    BitVec.ofInt 32 (min (intOf i a) (intOf i b)) = if intOf i b < intOf i a then b else a := by
  split
  · next h => rw [min_eq_right h.le, ofInt_intOf]
  · next h => rw [min_eq_left (not_lt.1 h), ofInt_intOf]

theorem ofInt_max_intOf (i : Insn) (a b : Word) :
    BitVec.ofInt 32 (max (intOf i a) (intOf i b)) = if intOf i a < intOf i b then b else a := by
  split
  · next h => rw [max_eq_right h.le, ofInt_intOf]
  · next h => rw [max_eq_left (not_lt.1 h), ofInt_intOf]

/-! ## Shifts: a count of 32 or more is larger than every bit's place -/

theorem shl_eq (a b : Word) :
    (if b.toNat < 32 then a <<< b.toNat else 0) = BitVec.ofNat 32 (a.toNat * 2 ^ b.toNat) := by
  apply BitVec.eq_of_toNat_eq
  split
  · simp [Nat.shiftLeft_eq]
  · next h =>
    obtain ⟨k, hk⟩ := Nat.exists_eq_add_of_le (not_lt.1 h)
    rw [BitVec.toNat_ofNat, hk, Nat.pow_add, ← Nat.mul_assoc, Nat.mul_right_comm, Nat.mul_mod_left]
    rfl

theorem shr_eq (a b : Word) :
    (if b.toNat < 32 then a >>> b.toNat else 0) = BitVec.ofNat 32 (a.toNat / 2 ^ b.toNat) := by
  apply BitVec.eq_of_toNat_eq
  have lt : a.toNat / 2 ^ b.toNat < 2 ^ 32 := (Nat.div_le_self ..).trans_lt a.isLt
  rw [BitVec.toNat_ofNat, Nat.mod_eq_of_lt lt]
  split
  · simp [Nat.shiftRight_eq_div_pow]
  · next h =>
    exact (Nat.div_eq_of_lt (a.isLt.trans_le (Nat.pow_le_pow_right (by decide) (not_lt.1 h)))).symm

theorem sar_eq (a b : Word) : a.sshiftRight (min 31 b.toNat) =
    if b.toNat < 32 then BitVec.ofInt 32 (a.toInt / 2 ^ b.toNat) else if a.toInt < 0 then 0xFFFFFFFF else 0 := by
  have shifted : ∀ n, a.sshiftRight n = BitVec.ofInt 32 (a.toInt / 2 ^ n) := fun n => by
    rw [BitVec.sshiftRight, Int.shiftRight_eq_div_pow]
    rfl
  rw [shifted]
  split
  · next h => rw [min_eq_right (by omega)]
  · next h =>
    have lo : -2 ^ 31 ≤ a.toInt := a.le_toInt
    have hi : a.toInt < 2 ^ 31 := a.toInt_lt
    rw [min_eq_left (by omega)]
    split
    · rw [show a.toInt / 2 ^ 31 = -1 by omega]
      rfl
    · rw [show a.toInt / 2 ^ 31 = 0 by omega]
      rfl

/-- Settles O1: each instruction is `State.binary` or `State.unary`; the shifts by their values. -/
theorem integerResults : Obligations.IntegerResults := by
  unfold Obligations.IntegerResults
  refine ⟨fun g i s => ⟨fun h => ?_, fun h => ⟨_, rfl, h.unary 0x17 _⟩⟩, fun g i s h => ?_⟩
  · exact ⟨⟨_, rfl, h.binary 0x10 _⟩, ⟨_, rfl, h.binary 0x11 _⟩, ⟨_, rfl, h.binary 0x12 _⟩, ⟨_, rfl, h.binary 0x14 _⟩,
      ⟨_, rfl, h.binary 0x15 _⟩, ⟨_, rfl, h.binary 0x16 _⟩⟩
  · exact ⟨⟨_, rfl, writesD_congr (h.binary 0x18 _) fun x l => shl_eq ..⟩,
      ⟨_, rfl, writesD_congr (h.binary 0x19 _) fun x l => shr_eq ..⟩,
      ⟨_, rfl, writesD_congr (h.binary 0x1A _) fun x l => sar_eq ..⟩⟩

/-! ## Comparisons -/

section
variable {s : State} {g : GroupId} {i : Insn} {m n : Nat}

theorem Issues.compare (h : Issues s g i (cmpForm i m n)) (op : Nat) (fn : Word → Word → Bool) :
    writesQ s (s.lanewise g op i (cmpForm i m n) (fun x l => x.qSet l i.d.toNat (fn (x.w l i.a.toNat) (x.opB i l)))) g op i
      (fun x l => fn (x.w l i.a.toNat) (x.opB i l)) :=
  h.lanewise_writesQ op (v := ofAB i fn) (fun _ => predValue_ofAB _ i fn) fun _ _ => rfl

end

theorem intCmp_eq (n : Nat) (a b : Int) : intCmp n a b = match n with
    | 0 => decide (a = b)
    | 1 => decide (a ≠ b)
    | 2 => decide (a < b)
    | 3 => decide (a ≤ b)
    | 4 => decide (a > b)
    | _ => decide (a ≥ b) := by
  unfold intCmp
  split <;> simp [bne, beq_eq_decide, ge_iff_le, gt_iff_lt]

/-- Settles O2: the signed and unsigned value of a word is `intOf`. -/
theorem signedResults : Obligations.SignedResults := by
  unfold Obligations.SignedResults
  intro g i s val
  have hv : val = intOf i := rfl
  rw [hv]
  refine ⟨fun h => ⟨⟨_, rfl, h.binary 0x13 _⟩, ⟨_, rfl, writesD_congr (h.binary 0x1B _) fun x l => ?_⟩,
    ⟨_, rfl, writesD_congr (h.binary 0x1C _) fun x l => ?_⟩⟩, fun h => ⟨_, rfl, ?_⟩⟩
  · exact (ofInt_min_intOf ..).symm
  · exact (ofInt_max_intOf ..).symm
  · exact writesQ_congr (h.compare 0x1D fun a b => intCmp (i.mod.toNat % 8) (intOf i a) (intOf i b)) fun x l => intCmp_eq ..

/-- Settles O3: FFMA reads a third register; the others are `State.binary` or `State.unary`. -/
theorem floatResults : Obligations.FloatResults := by
  unfold Obligations.FloatResults
  refine fun g i s => ⟨fun h => ⟨⟨_, rfl, h.binary 0x20 _⟩, ⟨_, rfl, h.binary 0x21 _⟩, ⟨_, rfl, h.binary 0x22 _⟩⟩,
    fun h => ⟨_, rfl, h.lanewise_writesD 0x23 (fun n l y rest regs => ?_) fun _ _ => rfl⟩,
    fun h => ⟨⟨_, rfl, h.unary 0x26 _⟩, ⟨_, rfl, h.unary 0x27 _⟩, ⟨_, rfl, h.unary 0x29 _⟩⟩⟩
  have ab := laneValue_ofAB _ i (fun a b => (f32 a).mul (f32 b)) l y rest regs
  exact congrArg toF32 (congrArg₂ Fp.add ab (congrArg f32 (regs _ i.c.isLt)))

/-! ## FP32 comparisons -/

theorem minMax_of_nan_left (m : Bool) {a : Word} (b : Word) (ha : (f32 a).isNan = true) :
    minMax m a b = if (f32 b).isNan then 0x7FC00000 else b := if_pos ha

theorem minMax_of_nan_right (m : Bool) {a b : Word} (ha : ¬(f32 a).isNan = true) (hb : (f32 b).isNan = true) :
    minMax m a b = a := (if_neg ha).trans (if_pos hb)

theorem fpCmp_eq (n : Nat) (a b : Fp) : n < 7 → fpCmp n a b =
    if a.isNan || b.isNan then n == 1 || n == 6
    else match n with
      | 0 => a.same b
      | 1 => !a.same b
      | 2 => a.lt b
      | 3 => !b.lt a
      | 4 => b.lt a
      | 5 => !a.lt b
      | _ => false := by
  intro h
  cases un : a.isNan || b.isNan <;> interval_cases n <;> simp [fpCmp, un]

/-- The reserved comparisons are not of the form. -/
theorem Issues.compare_lt {s : State} {g : GroupId} {i : Insn} {m n : Nat} (h : Issues s g i (cmpForm i m n)) :
    i.mod.toNat % 8 < n := by
  have ok := h.form
  simp only [Form.ok, cmpForm, Bool.and_eq_true, decide_eq_true_eq] at ok
  exact ok.2.2

/-- Settles O4. -/
theorem floatCompares : Obligations.FloatCompares := by
  unfold Obligations.FloatCompares
  refine fun g i s => ⟨fun h => ⟨⟨_, rfl, h.binary 0x24 _⟩, ⟨_, rfl, h.binary 0x25 _⟩⟩,
    fun m a b ha => minMax_of_nan_left m b ha, fun m a b ha hb => minMax_of_nan_right m ha hb, fun h => ⟨_, rfl, ?_⟩⟩
  exact writesQ_congr (h.compare 0x28 fun a b => fpCmp (i.mod.toNat % 8) (f32 a) (f32 b)) fun x l =>
    fpCmp_eq _ _ _ h.compare_lt

/-! ## Moves -/

theorem ofInt_signed (v : BitVec 16) : BitVec.ofInt 32 (signed v.toNat 16) = v.signExtend 32 := by
  apply BitVec.eq_of_toInt_eq
  have lt := v.isLt
  rw [BitVec.toInt_signExtend_of_le (by decide), BitVec.toInt_ofInt, BitVec.toInt_eq_toNat_cond, signed,
    Nat.mod_eq_of_lt lt, Int.bmod_def]
  split <;> split <;> split <;> omega

theorem immOf_eq (i : Insn) : immOf i = match i.ext with
    | some e => e.truncate 32
    | none => i.imm.signExtend 32 := by
  unfold immOf
  cases i.ext with
  | some e => exact BitVec.eq_of_toNat_eq (by simp)
  | none => exact ofInt_signed _

theorem movs_mod : ∀ m : BitVec 7, m.toNat < 12 →
    ((m.toNat &&& 0x4F == m.toNat) && decide (m.toNat % 16 < 12) && (!bitOf m.toNat 6 || m.toNat % 16 == 10)) = true ∧
      bitOf m.toNat 6 = false ∧ m.toNat % 16 = m.toNat := by decide

theorem State.corePart_lt {s : State} {c p : Nat} (h : s.corePart c = some p) : p < 16 := by
  unfold State.corePart Pat.coreOwner Pat.ownerBy at h
  exact List.mem_range.1 (List.mem_of_find?_eq_some h)

theorem State.groupPart_lt (s : State) (gx : Nat) : s.groupPart gx < 16 := by
  unfold State.groupPart
  cases h : s.corePart (gx / 64) with
  | none => decide
  | some p => exact State.corePart_lt h

/-- What issuing leaves alone of the registers, for those below the cores' block. -/
theorem State.rg_readied (s : State) (g : GroupId) (op : Nat) (i : Insn) {k : Nat} (low : k < Reg.LIN_ECC_CORR) :
    (s.readied g op i).rg k = s.rg k := by
  obtain ⟨-, regs, -⟩ := s.readied_frame g op i
  refine regs k ?_
  have apart : k ≠ coreReg Reg.CORE_ISSUE g.core.val ∧ k ≠ coreReg Reg.CORE_ISSUE g.core.val + 4 := by
    simp only [coreReg, Reg.CORE_ISSUE, Reg.LIN_ECC_CORR] at *
    omega
  have ecc : k ≠ Reg.LIN_ECC_CORR := low.ne
  split <;> simp [apart, ecc]

/-- Issuing changes groups, registers and cores alone. -/
theorem State.readied_rest (s : State) (g : GroupId) (op : Nat) (i : Insn) :
    s.readied g op i = { s with
      groups := (s.readied g op i).groups, regs := (s.readied g op i).regs, cores := (s.readied g op i).cores } := by
  obtain ⟨-, -, -, rest⟩ := s.readied_frame g op i
  let u := s.readied g op i
  exact congrArg (fun x : State => { x with groups := u.groups, regs := u.regs, cores := u.cores }) rest

/-- A special value is as before the issue. -/
theorem State.special_readied (s : State) (g : GroupId) (op : Nat) (i : Insn) (sel : Nat) (x : Group) (l : Nat) :
    (s.readied g op i).special (gid g) sel x l = s.special (gid g) sel x l := by
  have lt := s.groupPart_lt (gid g)
  unfold State.groupPart at lt
  have part : (s.readied g op i).corePart = s.corePart := by
    funext c
    rw [s.readied_rest g op i, State.corePart, State.corePart]
  have parts : (s.readied g op i).part = s.part := by
    funext c
    rw [s.readied_rest g op i, State.part, State.part]
  have low : ∀ k, k < Reg.LIN_ECC_CORR → (s.readied g op i).rg k = s.rg k := fun k => s.rg_readied g op i
  simp only [Reg.LIN_ECC_CORR] at low
  unfold State.special
  simp only [part, parts, State.rg64, State.epoch, State.rf]
  rw [low, low, low] <;> simp only [Reg.TICK_STEPNO, Reg.PTN_EPOCH] <;> omega

theorem Issues.movs {s : State} {g : GroupId} {i : Insn} (h : Issues s g i { size := 0, d := .regs 1 })
    (lt : i.mod.toNat < 12) : ∃ t, exec (.movs g i) s = .next t ∧
      writesD s t g 0x42 i (fun x l => BitVec.ofNat 32 (s.special (gid g) i.mod.toNat x l)) := by
  obtain ⟨ok, keeps, sel⟩ := movs_mod i.mod lt
  refine ⟨_, rfl, ?_⟩
  have form : ({ size := 0, d := .regs 1, mod := modOnly i 0x4F && decide (i.mod.toNat % 16 < 12) &&
      (!modBit i 6 || i.mod.toNat % 16 == 10) } : Form) = { size := 0, d := .regs 1 } :=
    congrArg (fun b => ({ size := 0, d := .regs 1, mod := b } : Form)) ok
  rw [form, h.issue]
  simp only [modBit, keeps, Bool.false_and, Bool.false_eq_true, if_false, sel, State.special_readied]
  refine h.acts_writesD 0x42
    (v := fun _ l => BitVec.ofNat 32 (s.special (gid g) i.mod.toNat ((s.readied g 0x42 i).group (gid g)) l)) _
    (fun _ _ _ _ _ => rfl) fun n l _ => ?_
  rw [s.group_readied]
  rfl

/-! ## PMOV -/

theorem pmov_mod : ∀ m : BitVec 7, (m.toNat = 0 → (m.toNat &&& 1 == m.toNat) = true ∧ bitOf m.toNat 0 = false) ∧
    (m.toNat = 1 → (m.toNat &&& 1 == m.toNat) = true ∧ bitOf m.toNat 0 = true) := by decide

theorem Issues.pmov_from_preds {s : State} {g : GroupId} {i : Insn} (h : Issues s g i { size := 0, d := .regs 1, drain := true })
    (zero : i.mod.toNat = 0) : ∃ t, exec (.pmov g i) s = .next t ∧
      writesD s t g 0x43 i (fun x l => BitVec.ofNat 32 (128 + (mget x.preds l 0).toNat)) := by
  obtain ⟨ok, reads⟩ := (pmov_mod i.mod).1 zero
  have form : ({ size := 0, mod := modOnly i 1, drain := true, d := .regs 1 } : Form) =
      { size := 0, d := .regs 1, drain := true } :=
    congrArg (fun b => ({ size := 0, mod := b, drain := true, d := .regs 1 } : Form)) ok
  refine ⟨_, congrArg Host.Outcome.next (if_neg (by simp [modBit, reads])), ?_⟩
  rw [form]
  exact h.lanewise_writesD 0x43 (fun n l y rest _ => by rw [rest]) fun _ _ => rfl

/-- The predicates of a lane written from a word. -/
def Group.predsSet (x : Group) (l : Nat) (v : BitVec 7) : Group := { x with preds := mset x.preds l v 0 }

theorem Group.foldl_predsSet (v : Group → Nat → BitVec 7) (x : Group) (stable : ∀ y l, y = { x with preds := y.preds } → v y l = v x l)
    (ls : List Nat) (nodup : ls.Nodup) (z : Group) (rest : z = { x with preds := z.preds }) :
    let t := ls.foldl (fun x l => x.predsSet l (v x l)) z
    t = { x with preds := t.preds } ∧ (∀ l ∈ ls, mget t.preds l 0 = v x l) ∧ ∀ l, l ∉ ls → mget t.preds l 0 = mget z.preds l 0 := by
  induction ls generalizing z with
  | nil => exact ⟨rest, by simp, fun _ _ => rfl⟩
  | cons k ks ih =>
    obtain ⟨notin, nodup⟩ := List.nodup_cons.1 nodup
    obtain ⟨h1, h2, h3⟩ := ih nodup (z.predsSet k (v z k)) (by rw [Group.predsSet, rest])
    refine ⟨h1, fun l mem => ?_, fun l away => ?_⟩
    · rcases List.mem_cons.1 mem with rfl | mem
      · exact (h3 l notin).trans ((mget_mset_same ..).trans (stable z l rest))
      · exact h2 l mem
    · rw [List.mem_cons, not_or] at away
      exact (h3 l away.2).trans (mget_mset_other _ _ _ _ away.1)

theorem Issues.pmov_to_preds {s : State} {g : GroupId} {i : Insn} (h : Issues s g i { size := 0, a := .regs 1, drain := true })
    (one : i.mod.toNat = 1) : ∃ t, exec (.pmov g i) s = .next t ∧ ∀ l p, (s.group (gid g)).inEffect i l → p < 7 →
      (t.group (gid g)).q l p = bitOf ((s.group (gid g)).w l i.a.toNat).toNat p := by
  obtain ⟨ok, writes⟩ := (pmov_mod i.mod).2 one
  have form : ({ size := 0, mod := modOnly i 1, drain := true, a := .regs 1 } : Form) =
      { size := 0, a := .regs 1, drain := true } :=
    congrArg (fun b => ({ size := 0, mod := b, drain := true, a := .regs 1 } : Form)) ok
  refine ⟨_, congrArg Host.Outcome.next (if_pos (by simp [modBit, writes])), fun l p eff hp => ?_⟩
  let u := (s.readied g 0x43 i).group (gid g)
  have found : u = (s.group (gid g)).picked 0x43 i u.issued := s.group_readied g 0x43 i
  obtain ⟨rest, written, -⟩ := Group.foldl_predsSet (fun x l => BitVec.ofNat 7 (x.w l i.a.toNat).toNat) u
    (fun y l same => by rw [same]; rfl) _ (lanesOf_nodup ((s.group (gid g)).effective i)) u rfl
  rw [form, State.lanewise, h.issue]
  refine (congrArg (fun y : Group => y.q l p) (h.acts 0x43 _ ⟨u.regs, _, rest⟩).1).trans ?_
  have preds := written l ((Group.mem_effective ..).2 eff)
  have seven : (p == 7) = false := by simp; omega
  have word : u.w l i.a.toNat = (s.group (gid g)).w l i.a.toNat := by rw [found]; rfl
  rw [word] at preds
  unfold Group.q Group.passed
  rw [seven, Bool.false_or]
  refine (congrArg (fun b : BitVec 7 => bitOf b.toNat p) preds).trans ?_
  rw [BitVec.toNat_ofNat, bitOf_eq_testBit, Nat.testBit_mod_two_pow, bitOf_eq_testBit]
  simp [hp]

/-! ## Conversions between integers and FP32 -/

/-- The FP32 value of an integer, unsigned where MOD[3] is 1 (R485). -/
def i2fWord (i : Insn) (a : Word) : Word :=
  let v : Int := if modBit i 3 then (a.toNat : Int) else a.toInt
  toF32 (.fin (decide (v < 0)) v.natAbs 0)

section
variable {s : State} {g : GroupId} {i : Insn} {f : Form}

theorem Issues.fromA (h : Issues s g i f) (op : Nat) (fn : Word → Word) :
    writesD s (s.lanewise g op i f (fun x l => x.wSet l i.d.toNat (fn (x.w l i.a.toNat)))) g op i (fun x l => fn (x.w l i.a.toNat)) :=
  h.lanewise_writesD op (v := ofAB i fun a _ => fn a) (fun _ => laneValue_ofAB _ i _) fun _ _ => rfl

theorem Issues.constant (h : Issues s g i f) (op : Nat) (v : Word) :
    writesD s (s.lanewise g op i f (fun x l => x.wSet l i.d.toNat v)) g op i (fun _ _ => v) :=
  h.lanewise_writesD op (fun _ _ _ _ _ => rfl) fun _ _ => rfl

end

/-- Settles O5. -/
theorem moveResults : Obligations.MoveResults := by
  unfold Obligations.MoveResults
  refine fun g i s => ⟨fun h => ⟨_, rfl, h.fromA 0x31 fun a => f2iWord (modBit i 3) (modBit i 0) (f32 a)⟩, fun _ _ => rfl,
    fun u _ => by cases u <;> rfl, fun u _ => by cases u <;> rfl,
    fun h => ⟨_, rfl, h.fromA 0x32 (i2fWord i)⟩, fun reg h => ⟨_, rfl, ?_⟩, fun imm h => ⟨_, rfl, ?_⟩, fun h => ⟨_, rfl, ?_⟩,
    fun sel lt eq h => ?_, fun zero h => h.pmov_from_preds zero, fun one h => h.pmov_to_preds one⟩
  · simp only [reg, Bool.false_eq_true, if_false]
    exact h.fromA 0x40 fun a => a
  · simp only [imm, if_true]
    exact h.constant 0x40 _
  · exact writesD_congr (h.constant 0x41 (immOf i)) fun _ _ => immOf_eq i
  · subst eq
    obtain ⟨t, e, w⟩ := h.movs lt
    refine ⟨t, e, writesD_congr w fun x l => ?_⟩
    generalize i.mod.toNat = sel
    unfold State.special State.groupPart
    dsimp only
    rw [gid_div, gid_mod]
    have low : ∀ n : Nat, BitVec.ofNat 32 (n % 2 ^ 32) = BitVec.ofNat 32 n := fun n => BitVec.eq_of_toNat_eq (by simp)
    split <;> simp only [low]

end Sys2Proof.Machine

namespace Sys2Proof.Machine

/-! # How a group parks or ends (R167, R189)

A park writes the group and its record, takes the slot out of its core's active set, and notes the event: registers, the log and
interrupts. What an operation leaves alone is said of the state with the rest blanked. -/

/-! ## What a note changes -/

/-- A state less its registers, its log and what interrupts go through. -/
def State.unnoted (s : State) : State := { s with regs := [], setAt := [], log := {}, host := {}, irq := {}, outbox := [] }

/-- Only registers, the log and what interrupts go through may differ. -/
def State.notes (s t : State) : Prop := t.unnoted = s.unnoted

theorem State.notes.refl (s : State) : s.notes s := rfl

theorem State.notes.trans {s t u : State} (h : s.notes t) (k : t.notes u) : s.notes u := Eq.trans k h

theorem State.notes.ite {s t u : State} (h : s.notes t) (k : s.notes u) (p : Prop) [Decidable p] : s.notes (if p then t else u) := by
  split <;> assumption

theorem State.sameButLog.notes {s t : State} (h : s.sameButLog t) : s.notes t := (congrArg State.unnoted h :)

theorem State.rfSet_notes (s : State) (k hi lo v : Nat) : s.notes (s.rfSet k hi lo v) := rfl

theorem State.vfEvent_notes (s : State) (k v : Nat) : s.notes (s.vfEvent k v) := by
  unfold State.vfEvent
  dsimp only
  split
  · rfl
  · split
    · rfl
    · split
      · rfl
      · split
        · rfl
        · split <;> rfl

theorem State.raise_notes (s : State) (src : Nat) : s.notes (s.raise src) := by
  have raw : s.notes (s.rawSet src) := (s.rawSet_sameButLog src).notes
  unfold State.raise
  dsimp only
  refine .ite (raw.trans (State.vfEvent_notes ..)) (.ite (raw.trans (State.vfEvent_notes ..))
    (.ite (raw.trans (State.vfEvent_notes ..)) (.ite ?_ raw _) _) _) _
  split
  · exact raw.trans (State.vfEvent_notes ..)
  · exact raw

section
variable {s t : State} (h : s.notes t)
include h

theorem State.notes.groups : t.groups = s.groups := (congrArg State.groups h :)
theorem State.notes.parks : t.parks = s.parks := (congrArg State.parks h :)
theorem State.notes.cores : t.cores = s.cores := (congrArg State.cores h :)
theorem State.notes.group (g : Nat) : t.group g = s.group g := by rw [State.group, h.groups, State.group]
theorem State.notes.core (c : Nat) : t.core c = s.core c := by rw [State.core, h.cores, State.core]

end

/-! ## What happens to a thread group -/

/-- A state less its groups, park records and cores, and what notes change. -/
def State.unthreaded (s : State) : State := { s.unnoted with groups := [], parks := [], cores := [] }

/-- Only groups, park records, cores and what notes change may differ. -/
def State.threadOnly (s t : State) : Prop := t.unthreaded = s.unthreaded

theorem State.threadOnly.refl (s : State) : s.threadOnly s := rfl

theorem State.threadOnly.trans {s t u : State} (h : s.threadOnly t) (k : t.threadOnly u) : s.threadOnly u := Eq.trans k h

theorem State.threadOnly.ite {s t u : State} (h : s.threadOnly t) (k : s.threadOnly u) (p : Prop) [Decidable p] :
    s.threadOnly (if p then t else u) := by
  split <;> assumption

theorem State.notes.threadOnly {s t : State} (h : s.notes t) : s.threadOnly t := (congrArg State.unthreaded h :)

theorem State.groupSet_threadOnly (s : State) (g : Nat) (x : Group) : s.threadOnly (s.groupSet g x) := rfl
theorem State.coreMap_threadOnly (s : State) (c : Nat) (f : CoreSt → CoreSt) : s.threadOnly (s.coreMap c f) := rfl

theorem State.arranges.threadOnly {s t : State} (h : s.arranges t) : s.threadOnly t := (congrArg State.unthreaded h.rest :)

theorem issueFrame.threadOnly {s t : State} {g : GroupId} {i : Insn} (h : issueFrame s t g i) : s.threadOnly t := by
  obtain ⟨-, -, -, rest⟩ := h
  exact (congrArg State.unthreaded rest :)

section
variable {s t : State} (h : s.threadOnly t)
include h

theorem State.threadOnly.hbm : t.hbm = s.hbm := (congrArg State.hbm h :)
theorem State.threadOnly.lin : t.lin = s.lin := (congrArg State.lin h :)
theorem State.threadOnly.bar4 : t.bar4 = s.bar4 := (congrArg State.bar4 h :)
theorem State.threadOnly.staging : t.staging = s.staging := (congrArg State.staging h :)
theorem State.threadOnly.ptn : t.ptn = s.ptn := (congrArg State.ptn h :)

end

/-! ## Leaving the active set, and freeing a slot -/

theorem State.dropActive_arranges (s : State) (gx : Nat) : s.arranges (s.dropActive gx) :=
  s.coreMap_arranges _ _ fun _ => rfl

theorem State.leaveActive_arranges (s : State) (gx : Nat) : s.arranges (s.leaveActive gx) := by
  unfold State.leaveActive
  split
  · exact .refl s
  · exact s.dropActive_arranges gx

/-- A proof job that a slot still holds is counted as dropped (R161). -/
def State.jobDropped (s : State) (gx : Nat) : State :=
  if (s.group gx).job.isSome then s.rAdd (Reg.TICK_PROOF_B + 0x10 * s.groupPart gx) 15 0 1 else s

theorem State.jobDropped_notes (s : State) (gx : Nat) : s.notes (s.jobDropped gx) :=
  .ite (s.rfSet_notes _ _ _ _) (.refl s) _

/-- The core of a slot that becomes FREE: PANEL commands of its group run on without it (R191). -/
def CoreSt.without (x : CoreSt) (slot : Nat) : CoreSt :=
  let own := fun (q : PCmd) => if q.slot = slot then { q with gone := true } else q
  { x with stalled := x.stalled.filter (fun q => q.slot != slot), queue := x.queue.map own,
           run := x.run.map (fun r => { r with cmd := own r.cmd }) }

theorem State.freeSlot_eq (s : State) (gx : Nat) : s.freeSlot gx =
    (((s.jobDropped gx).groupSet gx {}).dropActive gx).coreMap (gx / 64) (fun x => x.without (gx % 64)) := rfl

theorem State.freeSlot_threadOnly (s : State) (gx : Nat) : s.threadOnly (s.freeSlot gx) := by
  rw [State.freeSlot_eq]
  exact (s.jobDropped_notes gx).threadOnly.trans ((State.groupSet_threadOnly ..).trans
    ((State.dropActive_arranges ..).threadOnly.trans (State.coreMap_threadOnly ..)))

theorem State.group_freeSlot_same (s : State) (gx : Nat) : (s.freeSlot gx).group gx = {} := by
  rw [State.freeSlot_eq, State.group_coreMap, (State.dropActive_arranges ..).group, State.group_groupSet_same]

theorem State.group_freeSlot_other (s : State) {gx h : Nat} (ne : h ≠ gx) : (s.freeSlot gx).group h = s.group h := by
  rw [State.freeSlot_eq, State.group_coreMap, (State.dropActive_arranges ..).group, State.group_groupSet_other _ _ ne,
    (s.jobDropped_notes gx).group]

/-! ## Parking -/

/-- A group as it parks, behind an asynchronous fault or not. -/
def Group.parkedAs (x : Group) (asy : Bool) : Group :=
  { x with st := .parked, active := x.replay.getD x.active, replay := none, async := if asy then none else x.async,
           expired := false, stalled := false }

/-- The group, the record and the core of a park. -/
def State.parkedWith (s : State) (gx : Nat) (r : ParkRec) (asy : Bool) : State :=
  ((({ s with parks := mset s.parks gx r {} } : State).groupSet gx ((s.group gx).parkedAs asy)).leaveActive gx).coreMap (gx / 64)
    (fun y => { y with stalled := y.stalled.filter (fun q => q.slot != gx % 64) })

/-- What a park record says of the group. -/
structure ParkRec.tells (r : ParkRec) (x : Group) (code sub mask pc : Nat) : Prop where
  code : r.code = code
  sub : r.sub = sub
  faults : r.faults = mask
  pc : r.pc = pc
  active : r.active = (x.replay.getD x.active).toNat
  stack : r.stack = x.stack
  wdog : r.wdog = x.wdog

theorem State.parkAt_eq (s : State) (gx code sub : Nat) (mask : BitVec 32) (addr : Nat) (asy : Bool) (pc word : Nat)
    (partly : Bool) : ∃ r : ParkRec, r.tells (s.group gx) code sub mask.toNat pc ∧
      (s.parkedWith gx r asy).notes (s.parkAt gx code sub mask addr asy pc word partly) := by
  unfold State.parkAt
  extract_lets x c k p act replayOk skipOk r u v w a b e
  have counted : w.notes a := w.rfSet_notes _ _ _ _
  have deadlocks : a.notes b := .ite (a.rfSet_notes _ _ _ _) (.refl a) _
  have recorded : b.notes e := (b.err_sameButLog ..).notes
  have raised := State.notes.ite (e.raise_notes (64 + c)) (.refl e) ((e.rb (coreReg Reg.CORE_PARKCFG c) 0 || k == 0) = true)
  exact ⟨r, ⟨rfl, rfl, rfl, rfl, rfl, rfl, rfl⟩, counted.trans (deadlocks.trans (recorded.trans raised))⟩

/-- What a park leaves of the state. -/
structure State.ParksAs (s t : State) (gx code sub mask pc : Nat) (asy : Bool) : Prop where
  rest : s.threadOnly t
  group : t.group gx = (s.group gx).parkedAs asy
  others : ∀ h, h ≠ gx → t.group h = s.group h
  tells : (mget t.parks gx {}).tells (s.group gx) code sub mask pc

theorem State.parkAt_parksAs (s : State) (gx code sub : Nat) (mask : BitVec 32) (addr : Nat) (asy : Bool) (pc word : Nat)
    (partly : Bool) : s.ParksAs (s.parkAt gx code sub mask addr asy pc word partly) gx code sub mask.toNat pc asy := by
  obtain ⟨r, tells, noted⟩ := s.parkAt_eq gx code sub mask addr asy pc word partly
  let u : State := ({ s with parks := mset s.parks gx r {} } : State).groupSet gx ((s.group gx).parkedAs asy)
  have left : u.arranges (u.leaveActive gx) := u.leaveActive_arranges gx
  refine ⟨?_, ?_, fun h ne => ?_, ?_⟩
  · exact State.threadOnly.trans (t := s.parkedWith gx r asy)
      (State.threadOnly.trans (t := u.leaveActive gx) (left.threadOnly : State.threadOnly s _) rfl) noted.threadOnly
  · exact (noted.group gx).trans ((left.group gx).trans (State.group_groupSet_same ..))
  · exact (noted.group h).trans ((left.group h).trans (State.group_groupSet_other _ _ ne))
  · have parks : (s.parkedWith gx r asy).parks = mset s.parks gx r {} := by
      show (u.leaveActive gx).parks = _
      rw [left.rest]
      rfl
    rw [noted.parks, parks, mget_mset_same]
    exact tells

end Sys2Proof.Machine

namespace Sys2Proof.Machine

/-! # Control flow (R173, R174, R198 to R200) -/

/-! ## An instruction that parks its group with F_ILLEGAL -/

/-- What a park with F_ILLEGAL at an instruction leaves. -/
structure State.IllegalAt (s t : State) (g : GroupId) : Prop where
  rest : s.threadOnly t
  group : ∃ op i n, t.group (gid g) = ((s.group (gid g)).picked op i n).parkedAs false
  others : ∀ h, h ≠ gid g → t.group h = s.group h
  code : (mget t.parks (gid g) {}).code = fIllegal
  pc : (mget t.parks (gid g) {}).pc = (s.group (gid g)).pc

theorem HasTurn.issue_illegal {s : State} {g : GroupId} (h : HasTurn s g) {op : Nat} {i : Insn} {f : Form}
    (idle : (s.group (gid g)).reqs = []) (free : (s.group (gid g)).hazard f i = false) (odd : f.ok i = false)
    (body : State → Nat → BitVec 32 → State) : s.issue g op i f body = (s.readied g op i).illegal (gid g) := by
  have turn : ¬(((s.group (gid g)).st ≠ .ready ∧ (s.group (gid g)).st ≠ .busy) ∨ (s.group (gid g)).stalled = true ∨
      (s.group (gid g)).expired = true ∨ s.clockStopped g.core.val = true) := by
    simp [h.ready, h.unstalled, h.unexpired, h.clocked]
  unfold State.issue
  rw [show gix g.core.val g.slot.val = gid g from rfl]
  dsimp only
  rw [if_neg turn, State.takeTurn_of_isSome h.admitted]
  simp only [h.faultless, odd, free, idle]
  rw [if_neg (by simp), if_pos (by simp)]
  rfl

/-! ## A group that goes on elsewhere -/

/-- What an instruction finds whose group has its turn: the group at the instruction, all else as issuing leaves it. -/
structure State.Found (s u : State) (g : GroupId) (op : Nat) (i : Insn) (n : Nat) : Prop where
  group : u.group (gid g) = (s.group (gid g)).picked op i n
  frame : issueFrame s u g i
  cores : ∀ d, d ≠ g.core.val → u.core d = s.core d

theorem State.readied_found (s : State) (g : GroupId) (op : Nat) (i : Insn) :
    s.Found (s.readied g op i) g op i ((s.readied g op i).group (gid g)).issued := ⟨s.group_readied .., s.readied_frame .., fun _ => s.core_readied_other g op i⟩

theorem Issues.begins {s : State} {g : GroupId} {i : Insn} {f : Form} (h : Issues s g i f) (op : Nat) :
    ∃ u n, s.Found u g op i n ∧ ∀ body : State → Nat → BitVec 32 → State,
      s.issue g op i f body = body u (gid g) ((s.group (gid g)).effective i) :=
  ⟨_, _, s.readied_found g op i, h.issue op⟩

section
variable {s u : State} {g : GroupId} {op : Nat} {i : Insn} {n : Nat} (h : s.Found u g op i n)
include h

theorem State.Found.settles {y : Group} (st : y.st = .ready) (lanes : y.active ≠ 0)
    (path : ∀ e, y.stack.head? = some e → y.pc ≠ e.rpc) :
    ((u.groupSet (gid g) y).settleGroup (gid g)).group (gid g) = y ∧
      issueFrame s ((u.groupSet (gid g) y).settleGroup (gid g)) g i := by
  rw [State.settleGroup_of_path _ _ st lanes path]
  exact ⟨State.group_groupSet_same .., (h.frame.groupSet _).groupSet _⟩

theorem State.Found.illegal : s.IllegalAt (u.illegal (gid g)) g := by
  obtain ⟨groups, -, -, -⟩ := id h.frame
  obtain ⟨rest, group, others, tells⟩ := u.parkAt_parksAs (gid g) fIllegal 0 0 0 false (u.group (gid g)).pc
    (u.group (gid g)).word false
  exact ⟨h.frame.threadOnly.trans rest, ⟨op, i, n, by rw [← h.group]; exact group⟩, fun k ne => (others k ne).trans (groups k ne),
    tells.code, tells.pc.trans (by rw [h.group]; rfl)⟩

end

theorem Issues.insnLen_eq {s : State} {g : GroupId} {i : Insn} {f : Form} (h : Issues s g i f) (n : f.size ≠ 0) :
    insnLen i = f.size := by
  have ok := h.form
  simp only [Form.ok, Bool.and_eq_true, Bool.or_eq_true, beq_iff_eq] at ok
  omega

/-! ## NOP -/

theorem Issues.nop {s : State} {g : GroupId} {i : Insn} (h : Issues s g i { mod := modOnly i 0 }) :
    ∃ t, exec (.nop g 0 i) s = .next t ∧ writesNothing s t g 0x00 i := by
  have form : ({ mod := modOnly i 0 && !!tableOp 0 } : Form) = { mod := modOnly i 0 } :=
    congrArg (fun b => ({ mod := b } : Form)) (Bool.and_true _)
  obtain ⟨u, n, found, issue⟩ := h.begins 0
  have passes := h.pass found.group rfl rfl rfl rfl
  refine ⟨_, rfl, ?_⟩
  show writesNothing s (s.issue g 0 i { mod := modOnly i 0 && !!tableOp 0 } fun s gx _ => s.pass gx) g 0 i
  rw [form, issue, passes]
  unfold writesNothing
  rw [State.group_groupSet_same]
  exact ⟨rfl, (found.frame.groupSet _).groupSet _⟩

theorem HasTurn.nop_illegal {s : State} {g : GroupId} (h : HasTurn s g) {op : BitVec 8} (odd : tableOp op.toNat = false) (i : Insn)
    (idle : (s.group (gid g)).reqs = []) (sound : ∀ o ∈ (s.group (gid g)).ops, o.2.failed = 0) :
    ∃ t, exec (.nop g op i) s = .next t ∧ s.IllegalAt t g := by
  have free : ∀ f : Form, f.drain = false → (s.group (gid g)).hazard f i = false := fun f drain => by
    simp only [Group.hazard, idle, drain]
    simpa using fun a b mem => sound (a, b) mem
  exact ⟨_, congrArg Host.Outcome.next (h.issue_illegal idle (free _ rfl) (by simp [Form.ok, odd]) _), (s.readied_found ..).illegal⟩

/-! ## BR -/

/-- What BR does with the group that it finds. -/
def State.branch (s : State) (gx : Nat) (i : Insn) (eff : BitVec 32) : State :=
  let x := s.group gx
  let e := (i.ext.getD 0).toNat
  let target := pcPlus x.pc (e % 2 ^ 32)
  let rpc := pcPlus x.pc (e / 2 ^ 32)
  let fall := x.pc + 16
  let other := x.active &&& ~~~eff
  if eff = 0 ∨ target = fall then (s.groupSet gx { x with pc := fall }).settleGroup gx
  else if other = 0 then (s.groupSet gx { x with pc := target }).settleGroup gx
  else
    let high : RecEnt := if target < fall then ⟨fall, other, rpc⟩ else ⟨target, eff, rpc⟩
    let st := x.joinPush rpc high
    if 16 < st.length then s.illegal gx
    else
      (s.groupSet gx { x with stack := st, pc := min target fall,
                              active := if target < fall then eff else other }).settleGroup gx

/-- The form of BR. -/
def brForm (i : Insn) : Form := { size := 16, ext := 2 ^ 64 - 1, mod := modOnly i 0, drain := true }

theorem Issues.br {s : State} {g : GroupId} {i : Insn} (h : Issues s g i (brForm i)) :
    ∃ u n, s.Found u g 0x01 i n ∧ exec (.br g i) s = .next (u.branch (gid g) i ((s.group (gid g)).effective i)) := by
  obtain ⟨u, n, found, issue⟩ := h.begins 0x01
  exact ⟨u, n, found, congrArg Host.Outcome.next (issue fun s gx eff => s.branch gx i eff)⟩

theorem Group.joinPush_eq (x : Group) (rpc : Nat) (e : RecEnt) : x.joinPush rpc e =
    e :: ((if x.stack.head?.any (·.rpc == rpc) then [] else [⟨rpc, x.active, rpc⟩]) ++ x.stack) := by
  unfold Group.joinPush
  cases x.stack with
  | nil => rfl
  | cons t r => simp

/-- The entry that BR pushes: the path at the higher address. -/
theorem branch_high (target fall rpc : Nat) (eff other : BitVec 32) :
    (if target < fall then ⟨fall, other, rpc⟩ else ⟨target, eff, rpc⟩ : RecEnt) =
      ⟨max target fall, if target < fall then other else eff, rpc⟩ := by
  split
  · rw [max_eq_right (by omega)]
  · rw [max_eq_left (by omega)]

/-- Settles O6. -/
theorem branchResults : Obligations.BranchResults := by
  unfold Obligations.BranchResults
  intro g i s x e target rpc fall eff other high pushed f
  refine ⟨fun h => h.nop, fun op odd turn idle free => ?_, fun (h : Issues s g i (brForm i)) fresh => ?_⟩
  · obtain ⟨t, e, rest, ⟨o, j, n, group⟩, others, code, pc⟩ := turn.nop_illegal odd i idle free
    refine ⟨t, e, by rw [group]; rfl, by rw [group]; rfl, code, pc, by rw [group]; rfl, rest.lin, rest.hbm, rest.staging⟩
  have len : insnLen i = 16 := h.insnLen_eq (by simp [brForm])
  have lanes : x.active ≠ 0 := by
    have lanes := h.lanes
    rwa [fresh] at lanes
  have path : ∀ e, x.stack.head? = some e → fall ≠ e.rpc := fun e top => by
    have off := h.path e top
    rwa [len] at off
  obtain ⟨u, n, found, exec⟩ := h.br
  rw [exec]
  refine ⟨fun none => ⟨_, rfl, ?_⟩, fun some all off => ⟨_, rfl, ?_⟩, fun some some' apart deep => ⟨_, rfl, ?_⟩,
    fun some some' apart join fits => ⟨_, rfl, ?_⟩⟩
  · have e : u.branch (gid g) i eff = (u.groupSet (gid g) { x.picked 0x01 i n with pc := fall }).settleGroup (gid g) := by
      unfold State.branch
      rw [found.group]
      exact if_pos (.inl none)
    obtain ⟨group, frame⟩ := found.settles (y := { x.picked 0x01 i n with pc := fall }) rfl lanes path
    rw [e, group]
    exact ⟨rfl, rfl, rfl, rfl, rfl, frame⟩
  · have e : u.branch (gid g) i eff = (u.groupSet (gid g) { x.picked 0x01 i n with pc := target }).settleGroup (gid g) := by
      unfold State.branch
      rw [found.group]
      dsimp only
      by_cases next : target = fall
      · exact (if_pos (.inr next)).trans (by rw [next]; rfl)
      · exact (if_neg (not_or.2 ⟨some, next⟩)).trans (if_pos all)
    obtain ⟨group, frame⟩ := found.settles (y := { x.picked 0x01 i n with pc := target }) rfl lanes off
    rw [e, group]
    exact ⟨rfl, rfl, rfl, rfl, rfl, frame⟩
  · have e : u.branch (gid g) i eff = u.illegal (gid g) := by
      unfold State.branch
      rw [found.group]
      refine (if_neg (not_or.2 ⟨some, apart⟩)).trans ((if_neg some').trans ?_)
      dsimp only
      rw [branch_high, Group.joinPush_eq]
      exact if_pos deep
    obtain ⟨rest, ⟨o, j, m, group⟩, others, code, pc⟩ := found.illegal
    rw [e, group]
    exact ⟨rfl, code, pc, rfl, others⟩
  · let y : Group := { x.picked 0x01 i n with
      stack := pushed, pc := min target fall, active := if target < fall then eff else other }
    have e : u.branch (gid g) i eff = (u.groupSet (gid g) y).settleGroup (gid g) := by
      unfold State.branch
      rw [found.group]
      refine (if_neg (not_or.2 ⟨some, apart⟩)).trans ((if_neg some').trans ?_)
      dsimp only
      rw [branch_high, Group.joinPush_eq]
      exact if_neg (Nat.not_lt.2 fits)
    have active : y.active ≠ 0 := by
      show (if target < fall then eff else other) ≠ 0
      split <;> assumption
    obtain ⟨group, frame⟩ := found.settles (y := y) rfl active fun e top => by
      cases top
      exact join
    rw [e, group]
    exact ⟨rfl, rfl, rfl, rfl, rfl, frame⟩

/-! ## Reconvergence -/

theorem Group.settle_pop {y : Group} {e : RecEnt} {rest : List RecEnt} (top : y.stack = e :: rest)
    (done : y.active = 0 ∨ y.pc = e.rpc) (free : e.clamps y = false) (n : Nat) : y.settle (n + 1) = (y.pop e rest).settle n := by
  rw [Group.settle, top]
  exact (if_pos done).trans (if_neg (by simp [free]))

theorem Group.settle_stays {y : Group} (lanes : y.active ≠ 0) (path : ∀ e, y.stack.head? = some e → y.pc ≠ e.rpc) (n : Nat) :
    y.settle n = y := by
  cases n with
  | zero => rfl
  | succ n =>
    unfold Group.settle
    split
    · rfl
    · next e rest hs => exact if_neg (not_or.2 ⟨lanes, path e (by rw [hs]; rfl)⟩)

/-- Fewer lanes and fewer waits hold no clamp that more of them do not. -/
theorem RecEnt.clamps_mono {e f : RecEnt} {x y : Group} (free : e.clamps x = false)
    (lanes : ∀ l, bitOf f.lanes.toNat l = true → bitOf e.lanes.toNat l = true) (waits : ∀ w ∈ y.waits, w ∈ x.waits) :
    f.clamps y = false := by
  simp only [RecEnt.clamps, List.any_eq_false] at free ⊢
  exact fun w mem bit => free w (waits w mem) (lanes _ bit)

theorem Group.settle_ends {y : Group} (lanes : y.active = 0)
    (free : ∀ e ∈ y.stack, e.clamps y = false ∧ e.lanes &&& y.alive = 0) {n : Nat} (fuel : y.stack.length ≤ n) :
    (y.settle n).active = 0 ∧ (y.settle n).stack = [] := by
  induction n generalizing y with
  | zero => exact ⟨lanes, List.length_eq_zero_iff.1 (Nat.le_zero.1 fuel)⟩
  | succ n ih =>
    cases top : y.stack with
    | nil =>
      have stays : y.settle (n + 1) = y := by rw [Group.settle, top]
      rw [stays]
      exact ⟨lanes, top⟩
    | cons e rest =>
      rw [Group.settle_pop top (.inl lanes) (free e (by simp [top])).1]
      have fewer : ∀ w ∈ (y.pop e rest).waits, w ∈ y.waits := fun w mem => (List.mem_filter.1 mem).1
      refine ih (free e (by simp [top])).2 (fun f mem => ?_) (by rw [top] at fuel; exact Nat.le_of_succ_le_succ fuel)
      obtain ⟨clear, none⟩ := free f (by rw [top]; exact List.mem_cons_of_mem _ mem)
      exact ⟨RecEnt.clamps_mono clear (fun _ bit => bit) fewer, none⟩

/-! ## END -/

theorem bitOf_and (a b l : Nat) : bitOf (a &&& b) l = (bitOf a l && bitOf b l) := by simp [bitOf_eq_testBit]

/-- A stack entry less the lanes that end. -/
def RecEnt.less (e : RecEnt) (eff : BitVec 32) : RecEnt := { e with lanes := e.lanes &&& ~~~eff }

theorem RecEnt.less_clamps {e : RecEnt} {x y : Group} (free : e.clamps x = false) (eff : BitVec 32) (waits : y.waits = x.waits) :
    (e.less eff).clamps y = false := by
  refine RecEnt.clamps_mono free (fun l bit => ?_) (by rw [waits]; exact fun _ mem => mem)
  rw [RecEnt.less, BitVec.toNat_and, bitOf_and, Bool.and_eq_true] at bit
  exact bit.1

/-- A group whose lanes `eff` end. -/
def Group.ended (x : Group) (eff : BitVec 32) : Group :=
  { x with active := x.active &&& ~~~eff, alive := x.alive &&& ~~~eff, pc := x.pc + 8, stack := x.stack.map (·.less eff) }

theorem RecEnt.less_left (e : RecEnt) (eff alive : BitVec 32) :
    (e.less eff).lanes &&& (alive &&& ~~~eff) = e.lanes &&& alive &&& ~~~eff := by
  simp only [RecEnt.less]
  ext l
  simp only [BitVec.getElem_and, BitVec.getElem_not]
  cases e.lanes[l] <;> cases alive[l] <;> cases eff[l] <;> rfl

/-- The group goes on from the top entry, where the path has no lane left and the entry has. -/
theorem Group.ended_settle_pop {x : Group} {eff : BitVec 32} {e : RecEnt} {tail : List RecEnt} (top : x.stack = e :: tail)
    (none : x.active &&& ~~~eff = 0) (free : e.clamps x = false) (left : e.lanes &&& x.alive &&& ~~~eff ≠ 0)
    (path : ∀ h, tail.head? = some h → e.resume ≠ h.rpc) :
    (x.ended eff).settle 18 = (x.ended eff).pop (e.less eff) (tail.map (·.less eff)) := by
  have stack : (x.ended eff).stack = e.less eff :: tail.map (·.less eff) := by rw [Group.ended, top]; rfl
  rw [Group.settle_pop stack (.inl none) (RecEnt.less_clamps free eff rfl), Group.settle_stays]
  · exact (RecEnt.less_left e eff x.alive).trans_ne left
  · intro h head
    have head : (tail.map (·.less eff)).head? = some h := head
    cases tail with
    | nil => cases head
    | cons f fs =>
      cases head
      exact path f rfl

theorem Group.ended_settle_ends {x : Group} {eff : BitVec 32} (none : x.active &&& ~~~eff = 0)
    (free : ∀ e ∈ x.stack, e.clamps x = false ∧ e.lanes &&& x.alive &&& ~~~eff = 0) (fuel : x.stack.length ≤ 16) :
    ((x.ended eff).settle 18).active = 0 ∧ ((x.ended eff).settle 18).stack = [] := by
  refine Group.settle_ends none (fun e mem => ?_) (by simp only [Group.ended, List.length_map]; omega)
  obtain ⟨f, old, rfl⟩ := List.mem_map.1 mem
  obtain ⟨clear, left⟩ := free f old
  exact ⟨RecEnt.less_clamps clear eff rfl, (RecEnt.less_left ..).trans left⟩

theorem Issues.endLanes {s : State} {g : GroupId} {i : Insn} (h : Issues s g i { mod := modOnly i 0, drain := true }) :
    ∃ u n, s.Found u g 0x02 i n ∧ exec (.endLanes g i) s = .next ((u.groupSet (gid g)
      (((s.group (gid g)).picked 0x02 i n).ended ((s.group (gid g)).effective i))).settleGroup (gid g)) := by
  obtain ⟨u, n, found, issue⟩ := h.begins 0x02
  refine ⟨u, n, found, congrArg Host.Outcome.next ?_⟩
  rw [← found.group]
  exact issue fun s gx eff => (s.groupSet gx ((s.group gx).ended eff)).settleGroup gx

section
variable {s : State} {g : GroupId} {i : Insn} (h : Issues s g i { mod := modOnly i 0, drain := true })
include h

theorem Issues.endLanes_some (lanes : (s.group (gid g)).active &&& ~~~(s.group (gid g)).effective i ≠ 0) :
    let x := s.group (gid g)
    let eff := x.effective i
    ∃ t, exec (.endLanes g i) s = .next t ∧ (t.group (gid g)).active = x.active &&& ~~~eff ∧
      (t.group (gid g)).alive = x.alive &&& ~~~eff ∧ (t.group (gid g)).pc = x.pc + 8 ∧
      (t.group (gid g)).stack = x.stack.map (·.less eff) ∧
      (t.group (gid g)).regs = x.regs ∧ (t.group (gid g)).preds = x.preds ∧ issueFrame s t g i := by
  intro x eff
  obtain ⟨u, n, found, exec⟩ := h.endLanes
  have len : insnLen i = 8 := h.insnLen_eq (by simp)
  obtain ⟨group, frame⟩ := found.settles (y := (x.picked 0x02 i n).ended eff) rfl lanes fun e head => by
    have head : (x.stack.map (·.less eff)).head? = some e := head
    cases top : x.stack with
    | nil =>
      rw [top] at head
      cases head
    | cons f fs =>
      rw [top] at head
      cases head
      have off := h.path f (by rw [show (s.group (gid g)).stack = _ from top]; rfl)
      rwa [len] at off
  refine ⟨_, exec, ?_⟩
  rw [group]
  exact ⟨rfl, rfl, rfl, rfl, rfl, rfl, frame⟩

theorem Issues.endLanes_pops {e : RecEnt} {tail : List RecEnt} (top : (s.group (gid g)).stack = e :: tail)
    (none : (s.group (gid g)).active &&& ~~~(s.group (gid g)).effective i = 0) (free : e.clamps (s.group (gid g)) = false)
    (left : e.lanes &&& (s.group (gid g)).alive &&& ~~~(s.group (gid g)).effective i ≠ 0)
    (path : ∀ h, tail.head? = some h → e.resume ≠ h.rpc) :
    let x := s.group (gid g)
    let eff := x.effective i
    ∃ t, exec (.endLanes g i) s = .next t ∧ (t.group (gid g)).st = .ready ∧ (t.group (gid g)).pc = e.resume ∧
      (t.group (gid g)).active = e.lanes &&& x.alive &&& ~~~eff ∧ (t.group (gid g)).alive = x.alive &&& ~~~eff ∧
      (t.group (gid g)).stack = tail.map (·.less eff) ∧
      (t.group (gid g)).regs = x.regs ∧ (t.group (gid g)).preds = x.preds ∧ issueFrame s t g i := by
  intro x eff
  obtain ⟨u, n, found, exec⟩ := h.endLanes
  have settled : ((x.picked 0x02 i n).ended eff).settle 18 = _ :=
    Group.ended_settle_pop (x := x.picked 0x02 i n) (eff := eff) top none free left path
  have active := RecEnt.less_left e eff x.alive
  refine ⟨_, exec, ?_⟩
  rw [State.settleGroup, State.group_groupSet_same, settled, if_neg, if_neg (by simp [Group.pop])]
  · rw [State.group_groupSet_same]
    exact ⟨rfl, rfl, active, rfl, rfl, rfl, rfl, (found.frame.groupSet _).groupSet _⟩
  · exact fun gone => left (active.symm.trans gone.1)

theorem Issues.endLanes_frees (none : (s.group (gid g)).active &&& ~~~(s.group (gid g)).effective i = 0)
    (free : ∀ e ∈ (s.group (gid g)).stack, e.clamps (s.group (gid g)) = false ∧
      e.lanes &&& (s.group (gid g)).alive &&& ~~~(s.group (gid g)).effective i = 0)
    (fuel : (s.group (gid g)).stack.length ≤ 16) :
    ∃ t, exec (.endLanes g i) s = .next t ∧ t.group (gid g) = {} ∧ (∀ h, h ≠ gid g → t.group h = s.group h) ∧ s.threadOnly t := by
  obtain ⟨u, n, found, exec⟩ := h.endLanes
  have gone := Group.ended_settle_ends (x := (s.group (gid g)).picked 0x02 i n) none free fuel
  refine ⟨_, exec, ?_⟩
  rw [State.settleGroup, State.group_groupSet_same, if_pos gone]
  obtain ⟨groups, -, -, -⟩ := id found.frame
  exact ⟨State.group_freeSlot_same .., fun k ne => (State.group_freeSlot_other _ ne).trans
    ((State.group_groupSet_other _ _ ne).trans (groups k ne)),
    found.frame.threadOnly.trans ((State.groupSet_threadOnly ..).trans (State.freeSlot_threadOnly ..))⟩

end

/-! ## SPAWN -/

/-- Only group `gx` differs. -/
structure State.regroups (s t : State) (gx : Nat) : Prop where
  others : ∀ h, h ≠ gx → t.group h = s.group h
  rest : { t with groups := s.groups } = s

theorem State.regroups.trans {s t u : State} {gx : Nat} (h : s.regroups t gx) (k : t.regroups u gx) : s.regroups u gx :=
  ⟨fun j ne => (k.others j ne).trans (h.others j ne),
    (congrArg (fun x : State => { x with groups := s.groups }) k.rest).trans h.rest⟩

theorem State.groupSet_regroups (s : State) (gx : Nat) (y : Group) : s.regroups (s.groupSet gx y) gx :=
  ⟨fun _ ne => State.group_groupSet_other _ _ ne, rfl⟩

theorem State.regroups.threadOnly {s t : State} {gx : Nat} (h : s.regroups t gx) : s.threadOnly t :=
  (congrArg State.unthreaded h.rest :)

section
variable {s t : State} {gx : Nat} (h : s.regroups t gx)
include h

theorem State.regroups.cores : t.cores = s.cores := (congrArg State.cores h.rest :)
theorem State.regroups.core (c : Nat) : t.core c = s.core c := State.core_of_cores h.cores c
theorem State.regroups.parts : t.parts = s.parts := (congrArg State.parts h.rest :)
theorem State.regroups.staging : t.staging = s.staging := (congrArg State.staging h.rest :)
theorem State.regroups.hbm : t.hbm = s.hbm := (congrArg State.hbm h.rest :)
theorem State.regroups.lin : t.lin = s.lin := (congrArg State.lin h.rest :)
theorem State.regroups.bar4 : t.bar4 = s.bar4 := (congrArg State.bar4 h.rest :)

theorem State.regroups.blank_cores (gs : List (Nat × Group)) (cs : List (Nat × CoreSt)) :
    ({ t with groups := gs, cores := cs } : State) = { s with groups := gs, cores := cs } :=
  (congrArg (fun x : State => { x with groups := gs, cores := cs }) h.rest :)

theorem State.regroups.blank_regs_cores (gs : List (Nat × Group)) (rs : List (Nat × Word)) (cs : List (Nat × CoreSt)) :
    ({ t with groups := gs, regs := rs, cores := cs } : State) = { s with groups := gs, regs := rs, cores := cs } :=
  (congrArg (fun x : State => { x with groups := gs, regs := rs, cores := cs }) h.rest :)

end

theorem issueFrame.regroups {s t u : State} {g : GroupId} {i : Insn} (h : issueFrame s t g i) (k : t.regroups u (gid g)) :
    issueFrame s u g i := by
  obtain ⟨groups, regs, cores, rest⟩ := h
  have e : u = { t with groups := u.groups } := congrArg (fun x : State => { x with groups := u.groups }) k.rest
  refine ⟨fun j ne => (k.others j ne).trans (groups j ne), fun j away => ?_, fun c => ?_, ?_⟩
  · exact (rg_of_regs (by rw [e]) j).trans (regs j away)
  · have same : u.core c = t.core c := by rw [e, State.core, State.core]
    rw [same]
    exact cores c
  · rw [e]
    exact rest

/-- Every active lane takes `v` in D, and the group goes on. -/
theorem Issues.writeAll_pass {s u : State} {g : GroupId} {i : Insn} {f : Form} {op n : Nat} (h : Issues s g i f)
    (found : u.group (gid g) = (s.group (gid g)).picked op i n) (v : Word) :
    let t := (u.writeAll (gid g) i.d.toNat v).pass (gid g)
    (∀ l, l < 32 → bitOf (s.group (gid g)).active.toNat l = true → (t.group (gid g)).w l i.d.toNat = v) ∧
      u.regroups t (gid g) := by
  let x := (s.group (gid g)).picked op i n
  obtain ⟨rest, written, -⟩ := Group.foldl_wSet (x := x) (v := fun _ _ => v) (fun _ _ _ _ => rfl) (d := i.d.toNat) i.d.isLt
    (lanesOf x.active) (lanesOf_nodup _) x rfl fun _ _ _ _ => rfl
  let y := (lanesOf x.active).foldl (fun y l => y.wSet l i.d.toNat v) x
  have e : u.writeAll (gid g) i.d.toNat v = u.groupSet (gid g) y := by
    rw [State.writeAll, State.groupMap, found]
  have rest : y = { x with regs := y.regs } := rest
  have passes := h.pass (u := u.groupSet (gid g) y) (State.group_groupSet_same ..)
    (by rw [rest]; rfl) (by rw [rest]; rfl) (by rw [rest]; rfl) (by rw [rest]; rfl)
  dsimp only
  rw [e, passes]
  refine ⟨fun l lt bit => ?_, (State.groupSet_regroups ..).trans ((State.groupSet_regroups ..).trans (State.groupSet_regroups ..))⟩
  rw [State.group_groupSet_same]
  exact written l (mem_lanesOf.2 ⟨lt, bit⟩)

/-- Registers of a lane taken over from another lane's. -/
theorem Group.w_wideSet_wide (y x : Group) (l k b r n p : Nat) (hn : r + n ≤ 128) (hp : p < 128) (j : Nat) :
    (y.wideSet l r (x.wide k b n) n).w j p = if j = l ∧ r ≤ p ∧ p < r + n then x.w k (b + (p - r)) else y.w j p := by
  induction n generalizing y r b with
  | zero => rw [if_neg (by omega)]; rfl
  | succ n ih =>
    have low : BitVec.ofNat 32 (x.wide k b (n + 1)) = x.w k b :=
      BitVec.eq_of_toNat_eq (by simp [Group.wide, Nat.mod_eq_of_lt (x.w k b).isLt])
    have high : x.wide k b (n + 1) / 2 ^ 32 = x.wide k (b + 1) n := by
      have lt := (x.w k b).isLt
      rw [Group.wide, Nat.add_mul_div_left _ _ (by decide), Nat.div_eq_of_lt lt, Nat.zero_add]
    rw [Group.wideSet, low, high, ih _ _ _ (by omega)]
    by_cases lane : j = l
    · subst lane
      by_cases first : p = r
      · subst first
        rw [if_neg (by omega), if_pos (by omega), Group.w_wSet_same, Nat.sub_self]
        rfl
      · rw [Group.w_wSet_other _ _ _ _ (by omega) hp (by omega)]
        by_cases inside : r + 1 ≤ p ∧ p < r + 1 + n
        · rw [if_pos ⟨rfl, inside⟩, if_pos (by omega), show b + 1 + (p - (r + 1)) = b + (p - r) by omega]
        · rw [if_neg (by omega), if_neg (by omega)]
    · rw [if_neg (by omega), if_neg (by omega), Group.w_wSet_other _ _ _ _ (by omega) hp (by omega)]

/-- The group that SPAWN starts: the lanes of `ls` take four registers of the spawner. -/
def Group.spawned (x : Group) (ls : List Nat) (b entry : Nat) : Group :=
  ls.foldl (fun y l => y.wideSet l 0 (x.wide l b 4) 4) (newGroup entry)

theorem Group.wideSet_regs (y : Group) (l r v n : Nat) : y.wideSet l r v n = { y with regs := (y.wideSet l r v n).regs } := by
  induction n generalizing y r v with
  | zero => rfl
  | succ n ih => rw [Group.wideSet, ih]; rfl

theorem Group.spawned_regs (x : Group) (ls : List Nat) (b entry : Nat) :
    x.spawned ls b entry = { newGroup entry with regs := (x.spawned ls b entry).regs } := by
  unfold Group.spawned
  refine List.foldlRecOn (motive := fun y : Group => y = { newGroup entry with regs := y.regs }) ls _ rfl fun y hy l _ => ?_
  rw [Group.wideSet_regs, hy]

theorem Group.spawned_w (x : Group) (ls : List Nat) (b entry l j : Nat) (hj : j < 4) :
    (x.spawned ls b entry).w l j = if l ∈ ls then x.w l (b + j) else 0 := by
  have fold : ∀ y : Group, (ls.foldl (fun y l => y.wideSet l 0 (x.wide l b 4) 4) y).w l j =
      if l ∈ ls then x.w l (b + j) else y.w l j := by
    induction ls with
    | nil => simp
    | cons k ks ih =>
      intro y
      rw [List.foldl_cons, ih, Group.w_wideSet_wide _ _ _ _ _ _ _ _ (by decide) (by omega)]
      by_cases later : l ∈ ks
      · simp [later]
      · by_cases here : l = k
        · subst here
          simp [later, hj]
        · simp [later, here]
  exact fold _

/-- The slot that SPAWN chooses. -/
def State.spawnSlot (s : State) (c want : Nat) : Option Nat :=
  let free := (s.generalSlots c).filter (fun k => (s.group (gix c k)).st == .free)
  if want = 0 then free.head? else free.find? (· == want)

theorem State.spawnSlot_free {s : State} {c want k : Nat} (h : s.spawnSlot c want = some k) :
    k < 64 ∧ (s.group (gix c k)).st = .free := by
  unfold State.spawnSlot at h
  have mem : k ∈ (s.generalSlots c).filter (fun k => (s.group (gix c k)).st == .free) := by
    split at h
    · exact List.mem_of_mem_head? h
    · exact List.mem_of_find?_eq_some h
  simp only [State.generalSlots, List.mem_filter, List.mem_range, beq_iff_eq] at mem
  exact ⟨mem.1.1, mem.2⟩

/-- What SPAWN does with the group that it finds. -/
def State.spawn (s : State) (gx : Nat) (i : Insn) (entry : Nat) : State :=
  let x := s.group gx
  let slot := s.spawnSlot (gx / 64) (x.w x.lowest i.a.toNat).toNat
  let u := match slot with
    | none => s
    | some k => s.groupSet (gix (gx / 64) k) (x.spawned (lanesOf x.active) i.b.toNat entry)
  let v : Word := match slot with
    | some k => BitVec.ofNat 32 k
    | none => 0xFFFFFFFF
  (u.writeAll gx i.d.toNat v).pass gx

/-- The same, by the slot. -/
def State.spawnAt (s : State) (gx : Nat) (i : Insn) (entry : Nat) : Option Nat → State
  | none => (s.writeAll gx i.d.toNat 0xFFFFFFFF).pass gx
  | some k => ((s.groupSet (gix (gx / 64) k) ((s.group gx).spawned (lanesOf (s.group gx).active) i.b.toNat entry)).writeAll gx
      i.d.toNat (BitVec.ofNat 32 k)).pass gx

theorem State.spawn_eq (s : State) (gx : Nat) (i : Insn) (entry : Nat) : s.spawn gx i entry =
    s.spawnAt gx i entry (s.spawnSlot (gx / 64) ((s.group gx).w (s.group gx).lowest i.a.toNat).toNat) := by
  unfold State.spawn
  dsimp only
  cases s.spawnSlot (gx / 64) ((s.group gx).w (s.group gx).lowest i.a.toNat).toNat <;> rfl

/-- The form of SPAWN. -/
def spawnForm : Form := { size := 16, grp := true, d := .regs 1, a := .regs 1, b := .regs 4, ext := 0xFFFFFFFF, drain := true }

section
variable {s : State} {g : GroupId} {i : Insn} (h : Issues s g i spawnForm) (mod : i.mod = 0)
  (aligned : (i.ext.getD 0).toNat % 2 ^ 32 % 8 = 0) (other : (s.group (gid g)).isProof = false)
include h mod aligned other

theorem Issues.spawn : ∃ u n, s.Found u g 0x03 i n ∧ exec (.spawn g i) s = .next (u.spawn (gid g) i ((i.ext.getD 0).toNat % 2 ^ 32)) := by
  obtain ⟨u, n, found, issue⟩ := h.begins 0x03
  have ok : (modOnly i 0 && (i.ext.getD 0).toNat % 2 ^ 32 % 8 == 0) = true := by
    rw [aligned]
    simp [modOnly, mod]
  have form : ({ spawnForm with mod := modOnly i 0 && (i.ext.getD 0).toNat % 2 ^ 32 % 8 == 0 } : Form) = spawnForm :=
    congrArg (fun b => ({ spawnForm with mod := b } : Form)) ok
  have run := issue (fun s gx _ => if (s.group gx).isProof then s.illegal gx else s.spawn gx i ((i.ext.getD 0).toNat % 2 ^ 32))
  rw [← form] at run
  refine ⟨u, n, found, congrArg Host.Outcome.next (Eq.trans (Eq.trans ?_ run) (if_neg ?_))⟩
  · rfl
  · rw [found.group]
    simp [Group.picked, Group.isProof] at other ⊢
    exact other

end

/-- SPAWN finds the slots as they were: the spawner's own is not FREE, and no other group differs. -/
theorem State.Found.spawnSlot {s u : State} {g : GroupId} {op : Nat} {i : Insn} {n : Nat} (found : s.Found u g op i n)
    (ready : (s.group (gid g)).st = .ready) (want : Nat) : u.spawnSlot g.core.val want = s.spawnSlot g.core.val want := by
  obtain ⟨groups, -, -, -⟩ := id found.frame
  have general : u.generalSlots g.core.val = s.generalSlots g.core.val := by
    unfold State.generalSlots State.proofSlot State.corePart
    rw [found.frame.threadOnly.ptn]
  have st : ∀ k, ((u.group (gix g.core.val k)).st == .free) = ((s.group (gix g.core.val k)).st == .free) := fun k => by
    by_cases own : gix g.core.val k = gid g
    · rw [own, found.group, ready]
      rfl
    · rw [groups _ own]
  unfold State.spawnSlot
  simp only [general, st]

section
variable {s : State} {g : GroupId} {i : Insn} (h : Issues s g i spawnForm) (mod : i.mod = 0)
  (aligned : (i.ext.getD 0).toNat % 2 ^ 32 % 8 = 0) (other : (s.group (gid g)).isProof = false)
include h mod aligned other

theorem Issues.spawn_none
    (full : s.spawnSlot g.core.val ((s.group (gid g)).w (s.group (gid g)).lowest i.a.toNat).toNat = none) :
    ∃ t, exec (.spawn g i) s = .next t ∧
      (∀ l, l < 32 → bitOf (s.group (gid g)).active.toNat l → (t.group (gid g)).w l i.d.toNat = 0xFFFFFFFF) ∧
      issueFrame s t g i := by
  obtain ⟨u, n, found, exec⟩ := h.spawn mod aligned other
  rw [← found.spawnSlot h.ready] at full
  have e : u.spawn (gid g) i ((i.ext.getD 0).toNat % 2 ^ 32) = (u.writeAll (gid g) i.d.toNat 0xFFFFFFFF).pass (gid g) := by
    rw [State.spawn_eq, gid_div, found.group]
    exact congrArg (u.spawnAt (gid g) i _) full
  obtain ⟨written, groups⟩ := h.writeAll_pass found.group 0xFFFFFFFF
  rw [exec, e]
  exact ⟨_, rfl, written, found.frame.regroups groups⟩

theorem Issues.spawn_some {k : Nat}
    (slot : s.spawnSlot g.core.val ((s.group (gid g)).w (s.group (gid g)).lowest i.a.toNat).toNat = some k) :
    let x := s.group (gid g)
    let entry := (i.ext.getD 0).toNat % 2 ^ 32
    ∃ t, exec (.spawn g i) s = .next t ∧ t.group (gix g.core.val k) = x.spawned (lanesOf x.active) i.b.toNat entry ∧
      (∀ l, l < 32 → bitOf x.active.toNat l → (t.group (gid g)).w l i.d.toNat = BitVec.ofNat 32 k) ∧
      (∀ h, h ≠ gid g → h ≠ gix g.core.val k → t.group h = s.group h) := by
  intro x entry
  obtain ⟨u, n, found, exec⟩ := h.spawn mod aligned other
  obtain ⟨-, free⟩ := State.spawnSlot_free slot
  have apart : gix g.core.val k ≠ gid g := fun own => by
    rw [own, h.ready] at free
    cases free
  rw [← found.spawnSlot h.ready] at slot
  let v := u.groupSet (gix g.core.val k) (x.spawned (lanesOf x.active) i.b.toNat entry)
  have e : u.spawn (gid g) i entry = (v.writeAll (gid g) i.d.toNat (BitVec.ofNat 32 k)).pass (gid g) := by
    have slot : u.spawnSlot (gid g / 64) ((u.group (gid g)).w (u.group (gid g)).lowest i.a.toNat).toNat = some k := by
      rw [gid_div, found.group]
      exact slot
    rw [State.spawn_eq, slot, State.spawnAt, gid_div, found.group]
    rfl
  have own : v.group (gid g) = (s.group (gid g)).picked 0x03 i n := (State.group_groupSet_other _ _ apart.symm).trans found.group
  obtain ⟨written, groups⟩ := h.writeAll_pass own (BitVec.ofNat 32 k)
  obtain ⟨others, -, -, -⟩ := found.frame
  rw [exec, e]
  refine ⟨_, rfl, (groups.others _ apart).trans (State.group_groupSet_same ..), written, fun j ne ne' => ?_⟩
  exact (groups.others j ne).trans ((State.group_groupSet_other _ _ ne').trans (others j ne))

end

/-- Settles O7. -/
theorem groupsEndAndStart : Obligations.GroupsEndAndStart := by
  unfold Obligations.GroupsEndAndStart
  constructor
  · intro g i s x rest less left h
    refine ⟨fun lanes => h.endLanes_some lanes, fun e tail none top free some path => h.endLanes_pops top none free some path,
      fun none free fuel => ?_⟩
    obtain ⟨t, e, gone, others, only⟩ := h.endLanes_frees none free fuel
    exact ⟨t, e, gone, others, only.hbm, only.lin, only.bar4, only.staging⟩
  · intro g i s x c entry want free h mod aligned other fresh
    have h : Issues s g i spawnForm := h
    refine ⟨fun k slot => ?_, fun full => h.spawn_none mod aligned other full⟩
    obtain ⟨t, e, started, written, others⟩ := h.spawn_some mod aligned other slot
    have only := x.spawned_regs (lanesOf x.active) i.b.toNat entry
    refine ⟨t, e, by rw [started, only]; rfl, by rw [started, only]; rfl, by rw [started, only]; rfl, fun l j hl hj => ?_,
      written, others⟩
    rw [started, Group.spawned_w _ _ _ _ _ _ hj]
    exact if_congr (mem_lanesOf.trans (and_iff_right hl)) rfl rfl

end Sys2Proof.Machine

namespace Sys2Proof.Machine

/-! # Barriers and the two-level scheduler (R171, R180, R201) -/

/-! ## What going on leaves alone -/

theorem CoreSt.without_bars (x : CoreSt) (slot : Nat) : (x.without slot).bars = x.bars := rfl

theorem State.arranges.bars {s t : State} (h : s.arranges t) (c : Nat) : (t.core c).bars = (s.core c).bars :=
  (congrArg CoreSt.bars (h.core c) :)

theorem State.freeSlot_bars (s : State) (gx c : Nat) : ((s.freeSlot gx).core c).bars = (s.core c).bars := by
  have dropped := (State.dropActive_arranges ((s.jobDropped gx).groupSet gx {}) gx).bars
  have noted : ((s.jobDropped gx).groupSet gx {}).core = (s.jobDropped gx).core := rfl
  rw [State.freeSlot_eq, State.core_coreMap]
  split
  · next h =>
    subst h
    rw [CoreSt.without_bars, dropped, noted, (s.jobDropped_notes gx).core]
  · rw [dropped, noted, (s.jobDropped_notes gx).core]

/-- Only thread state differs, of the groups only `gx`, and no barrier. -/
structure State.moves (s t : State) (gx : Nat) : Prop where
  only : s.threadOnly t
  others : ∀ h, h ≠ gx → t.group h = s.group h
  bars : ∀ c, (t.core c).bars = (s.core c).bars

theorem State.moves.trans {s t u : State} {gx : Nat} (h : s.moves t gx) (k : t.moves u gx) : s.moves u gx :=
  ⟨h.only.trans k.only, fun j ne => (k.others j ne).trans (h.others j ne), fun c => (k.bars c).trans (h.bars c)⟩

theorem State.groupSet_moves (s : State) (gx : Nat) (y : Group) : s.moves (s.groupSet gx y) gx :=
  ⟨rfl, fun _ ne => State.group_groupSet_other _ _ ne, fun _ => rfl⟩

theorem State.arranges.moves {s t : State} (h : s.arranges t) (gx : Nat) : s.moves t gx :=
  ⟨h.threadOnly, fun j _ => h.group j, h.bars⟩

theorem State.freeSlot_moves (s : State) (gx : Nat) : s.moves (s.freeSlot gx) gx :=
  ⟨s.freeSlot_threadOnly gx, fun _ ne => s.group_freeSlot_other ne, s.freeSlot_bars gx⟩

theorem State.settleGroup_moves (s : State) (gx : Nat) : s.moves (s.settleGroup gx) gx := by
  unfold State.settleGroup
  dsimp only
  split
  · exact s.freeSlot_moves gx
  · split
    · exact (s.groupSet_moves gx _).trans ((State.leaveActive_arranges _ gx).moves gx)
    · exact s.groupSet_moves gx _

theorem State.pass_moves (s : State) (gx : Nat) : s.moves (s.pass gx) gx :=
  (s.groupSet_moves gx (s.group gx).passed).trans (State.settleGroup_moves _ gx)

/-! ## The last arrival -/

/-- Slot `k` of core `c` goes on behind its BAR if it waits at barrier `b`. -/
def State.release (c b : Nat) (u : State) (k : Nat) : State :=
  let hx := gix c k
  let h := u.group hx
  if h.wait = .barrier b ∧ h.st = .waiting then (u.groupSet hx { h with barrier := none }).pass hx else u

/-- A group behind its BAR. -/
def Group.released (x : Group) : Group := ({ x with barrier := none } : Group).passed

theorem State.release_moves (c b : Nat) (u : State) (k : Nat) : u.moves (State.release c b u k) (gix c k) := by
  unfold State.release
  dsimp only
  split
  · exact (u.groupSet_moves _ _).trans (State.pass_moves ..)
  · exact ⟨rfl, fun _ _ => rfl, fun _ => rfl⟩

theorem State.release_other {c b : Nat} {u : State} {k : Nat}
    (off : ¬((u.group (gix c k)).wait = .barrier b ∧ (u.group (gix c k)).st = .waiting)) : State.release c b u k = u := if_neg off

/-- A group that can go on behind its barrier. -/
structure Group.mayGo (x : Group) (b : Nat) : Prop where
  wait : x.wait = .barrier b
  st : x.st = .waiting
  lanes : x.released.active ≠ 0
  path : ∀ e, x.stack.head? = some e → x.released.pc ≠ e.rpc

theorem State.release_group {c b : Nat} {u : State} {k : Nat} (h : (u.group (gix c k)).mayGo b) :
    (State.release c b u k).group (gix c k) = (u.group (gix c k)).released := by
  let z := u.group (gix c k)
  let v := u.groupSet (gix c k) { z with barrier := none }
  have own : v.group (gix c k) = { z with barrier := none } := State.group_groupSet_same ..
  have e : State.release c b u k = v.pass (gix c k) := if_pos ⟨h.wait, h.st⟩
  have passes := v.pass_of_path (gix c k) (by rw [own]; exact h.lanes) (by rw [own]; exact h.path)
  rw [e, passes, State.group_groupSet_same, own]
  rfl

theorem gix_injective {c k j : Nat} (h : gix c k = gix c j) : k = j := by unfold gix at h; omega

section
variable (c b : Nat)

theorem State.releases_others (ks : List Nat) (u : State) {h : Nat} (away : ∀ k ∈ ks, h ≠ gix c k) :
    (ks.foldl (State.release c b) u).group h = u.group h := by
  induction ks generalizing u with
  | nil => rfl
  | cons k ks ih =>
    exact (ih _ fun j mem => away j (by simp [mem])).trans ((State.release_moves c b u k).others h (away k (by simp)))

theorem State.releases_still (ks : List Nat) (u : State) {k : Nat}
    (off : ¬((u.group (gix c k)).wait = .barrier b ∧ (u.group (gix c k)).st = .waiting)) :
    (ks.foldl (State.release c b) u).group (gix c k) = u.group (gix c k) := by
  induction ks generalizing u with
  | nil => rfl
  | cons j ks ih =>
    have same : (State.release c b u j).group (gix c k) = u.group (gix c k) := by
      by_cases own : k = j
      · subst own
        rw [State.release_other off]
      · exact (State.release_moves c b u j).others _ fun h => own (gix_injective h)
    exact (ih _ (by rw [same]; exact off)).trans same

theorem State.releases_group (ks : List Nat) (u : State) {k : Nat} (mem : k ∈ ks) (h : (u.group (gix c k)).mayGo b) :
    (ks.foldl (State.release c b) u).group (gix c k) = (u.group (gix c k)).released := by
  induction ks generalizing u with
  | nil => cases mem
  | cons j ks ih =>
    by_cases own : k = j
    · subst own
      have gone := State.release_group h
      refine (State.releases_still c b ks _ ?_).trans gone
      rw [gone]
      simp [Group.released, Group.passed]
    · have same : (State.release c b u j).group (gix c k) = u.group (gix c k) :=
        (State.release_moves c b u j).others _ fun h => own (gix_injective h)
      exact (ih _ ((List.mem_cons.1 mem).resolve_left own) (by rw [same]; exact h)).trans (congrArg Group.released same)

theorem State.releases_only (ks : List Nat) (u : State) :
    u.threadOnly (ks.foldl (State.release c b) u) ∧ ∀ d, ((ks.foldl (State.release c b) u).core d).bars = (u.core d).bars := by
  induction ks generalizing u with
  | nil => exact ⟨rfl, fun _ => rfl⟩
  | cons k ks ih =>
    obtain ⟨only, bars⟩ := ih (State.release c b u k)
    have moved := State.release_moves c b u k
    exact ⟨moved.only.trans only, fun d => (bars d).trans (moved.bars d)⟩

end

/-! ## BAR -/

/-- What BAR does with the group that it finds. -/
def State.bar (s : State) (gx : Nat) (i : Insn) : State :=
  let c := gx / 64
  let b := i.mod.toNat % 16
  let n := i.imm.toNat % 64 + 1
  let y := mget (s.core c).bars b {}
  if !y.arrived.isEmpty && y.need != n then s.illegal gx
  else
    let here := y.arrived ++ [gx % 64]
    let s := s.groupMap gx (fun x => { x with st := .waiting, wait := .barrier b, barrier := some b })
    if here.length < n then
      (s.coreMap c (fun x => { x with bars := mset x.bars b { need := n, arrived := here } {} })).leaveActive gx
    else
      here.foldl (State.release c b) (s.coreMap c (fun x => { x with bars := mdel x.bars b }))

/-- The form of BAR. -/
def barForm (i : Insn) : Form := { grp := true, imm := true, mod := modOnly i 15 && i.imm.toNat / 64 == 0, drain := true }

theorem Issues.bar {s : State} {g : GroupId} {i : Insn} (h : Issues s g i (barForm i)) :
    ∃ u n, s.Found u g 0x04 i n ∧ exec (.bar g i) s = .next (u.bar (gid g) i) := by
  obtain ⟨u, n, found, issue⟩ := h.begins 0x04
  exact ⟨u, n, found, congrArg Host.Outcome.next (issue fun s gx _ => s.bar gx i)⟩

theorem State.Found.bars {s u : State} {g : GroupId} {op : Nat} {i : Insn} {n : Nat} (found : s.Found u g op i n) (c : Nat) :
    (u.core c).bars = (s.core c).bars := by
  obtain ⟨-, -, cores, -⟩ := found.frame
  exact (congrArg CoreSt.bars (cores c) :)

/-- A group that arrives at barrier `b`. -/
def Group.arrived (x : Group) (b : Nat) : Group := { x with st := .waiting, wait := .barrier b, barrier := some b }

/-- The state in which an arrival that is not the last waits. -/
def State.barWaits (u : State) (g : GroupId) (b n : Nat) (here : List Nat) (y : Group) : State :=
  ((u.groupSet (gid g) y).coreMap g.core.val
    (fun x => { x with bars := mset x.bars b { need := n, arrived := here } {} })).leaveActive (gid g)

/-- The state in which the last arrival readies those that wait. -/
def State.barMeets (u : State) (g : GroupId) (b : Nat) (y : Group) : State :=
  (u.groupSet (gid g) y).coreMap g.core.val (fun x => { x with bars := mdel x.bars b })

theorem State.Found.bar {s u : State} {g : GroupId} {i : Insn} {m : Nat} (found : s.Found u g 0x04 i m) :
    let c := g.core.val
    let b := i.mod.toNat % 16
    let n := i.imm.toNat % 64 + 1
    let y := mget (s.core c).bars b {}
    let here := y.arrived ++ [g.slot.val]
    let x := ((s.group (gid g)).picked 0x04 i m).arrived b
    u.bar (gid g) i = if !y.arrived.isEmpty && y.need != n then u.illegal (gid g)
      else if here.length < n then u.barWaits g b n here x
      else here.foldl (State.release c b) (u.barMeets g b x) := by
  unfold State.bar
  dsimp only
  rw [gid_div, gid_mod, found.bars, State.groupMap, found.group]
  rfl

section
variable {s : State} {g : GroupId} {i : Insn} (h : Issues s g i (barForm i))
include h

theorem Issues.bar_waits (agrees : (mget (s.core g.core.val).bars (i.mod.toNat % 16) {}).arrived = [] ∨
      (mget (s.core g.core.val).bars (i.mod.toNat % 16) {}).need = i.imm.toNat % 64 + 1)
    (more : (mget (s.core g.core.val).bars (i.mod.toNat % 16) {}).arrived.length + 1 < i.imm.toNat % 64 + 1) :
    let c := g.core.val
    let b := i.mod.toNat % 16
    let n := i.imm.toNat % 64 + 1
    ∃ t m, exec (.bar g i) s = .next t ∧ t.group (gid g) = ((s.group (gid g)).picked 0x04 i m).arrived b ∧
      mget (t.core c).bars b {} = { need := n, arrived := (mget (s.core c).bars b {}).arrived ++ [g.slot.val] } ∧
      (∀ k, k ≠ gid g → t.group k = s.group k) ∧ { t with groups := s.groups, regs := s.regs, cores := s.cores } = s := by
  intro c b n
  obtain ⟨u, m, found, exec⟩ := h.bar
  obtain ⟨groups, -, -, rest⟩ := id found.frame
  let here := (mget (s.core c).bars b {}).arrived ++ [g.slot.val]
  let v := u.groupSet (gid g) (((s.group (gid g)).picked 0x04 i m).arrived b)
  let w := v.coreMap c (fun x => { x with bars := mset x.bars b { need := n, arrived := here } {} })
  have e : u.bar (gid g) i = w.leaveActive (gid g) := by
    refine found.bar.trans ((if_neg ?_).trans (if_pos ?_))
    · rcases agrees with none | same
      · simp [none]
      · simp [same]
    · simpa using more
  have left := w.leaveActive_arranges (gid g)
  have group : ∀ k, w.group k = v.group k := fun _ => rfl
  rw [e] at exec
  refine ⟨_, m, exec, ?_, ?_, fun k ne => ?_, ?_⟩
  · rw [left.group, group]
    exact State.group_groupSet_same ..
  · have own : (w.core c).bars = mset (v.core c).bars b { need := n, arrived := here } {} := by
      rw [State.core_coreMap, if_pos rfl]
    rw [left.bars, own, mget_mset_same]
  · rw [left.group, group, ← groups k ne]
    exact State.group_groupSet_other _ _ ne
  · rw [left.rest]
    exact rest

theorem Issues.bar_releases (agrees : (mget (s.core g.core.val).bars (i.mod.toNat % 16) {}).arrived = [] ∨
      (mget (s.core g.core.val).bars (i.mod.toNat % 16) {}).need = i.imm.toNat % 64 + 1)
    (last : i.imm.toNat % 64 + 1 ≤ (mget (s.core g.core.val).bars (i.mod.toNat % 16) {}).arrived.length + 1) :
    let c := g.core.val
    let b := i.mod.toNat % 16
    ∃ u m, s.Found u g 0x04 i m ∧ exec (.bar g i) s = .next (((mget (s.core c).bars b {}).arrived ++ [g.slot.val]).foldl
      (State.release c b) (u.barMeets g b (((s.group (gid g)).picked 0x04 i m).arrived b))) := by
  intro c b
  obtain ⟨u, m, found, exec⟩ := h.bar
  refine ⟨u, m, found, exec.trans (congrArg Host.Outcome.next (found.bar.trans ((if_neg ?_).trans (if_neg ?_))))⟩
  · rcases agrees with none | same
    · simp [none]
    · simp [same]
  · simpa using last

theorem Issues.bar_disagrees (some : (mget (s.core g.core.val).bars (i.mod.toNat % 16) {}).arrived ≠ [])
    (other : (mget (s.core g.core.val).bars (i.mod.toNat % 16) {}).need ≠ i.imm.toNat % 64 + 1) :
    ∃ t, exec (.bar g i) s = .next t ∧ s.IllegalAt t g := by
  obtain ⟨u, m, found, exec⟩ := h.bar
  exact ⟨_, exec.trans (congrArg Host.Outcome.next (found.bar.trans (if_pos (by simp [some, other])))), found.illegal⟩

theorem Issues.bar_meets (agrees : (mget (s.core g.core.val).bars (i.mod.toNat % 16) {}).arrived = [] ∨
      (mget (s.core g.core.val).bars (i.mod.toNat % 16) {}).need = i.imm.toNat % 64 + 1)
    (last : i.imm.toNat % 64 + 1 ≤ (mget (s.core g.core.val).bars (i.mod.toNat % 16) {}).arrived.length + 1) :
    let c := g.core.val
    let b := i.mod.toNat % 16
    let y := mget (s.core c).bars b {}
    ∃ t m, exec (.bar g i) s = .next t ∧ (t.core c).bars = mdel (s.core c).bars b ∧
      t.group (gid g) = (((s.group (gid g)).picked 0x04 i m).arrived b).released ∧
      (∀ k ∈ y.arrived, gix c k ≠ gid g → (s.group (gix c k)).mayGo b → t.group (gix c k) = (s.group (gix c k)).released) ∧
      (∀ h, h ≠ gid g → (∀ k ∈ y.arrived, h ≠ gix c k) → t.group h = s.group h) ∧ s.threadOnly t := by
  intro c b y
  obtain ⟨u, m, found, exec⟩ := h.bar_releases agrees last
  obtain ⟨groups, -, -, -⟩ := id found.frame
  let x := ((s.group (gid g)).picked 0x04 i m).arrived b
  let v := u.barMeets g b x
  have own : v.group (gid g) = x := State.group_groupSet_same u (gid g) x
  have others : ∀ k, k ≠ gid g → v.group k = s.group k := fun k ne => (State.group_groupSet_other u x ne).trans (groups k ne)
  have bars : (v.core c).bars = mdel (s.core c).bars b := by
    rw [← found.bars]
    exact congrArg CoreSt.bars ((State.core_coreMap ..).trans (if_pos rfl))
  have start : s.threadOnly v := found.frame.threadOnly.trans ((State.groupSet_threadOnly ..).trans (State.coreMap_threadOnly ..))
  obtain ⟨only, kept⟩ := State.releases_only c b (y.arrived ++ [g.slot.val]) v
  refine ⟨_, m, exec, (kept c).trans bars, ?_, fun k mem ne go => ?_, fun k ne away => ?_, start.trans only⟩
  · have go : (v.group (gix c g.slot.val)).mayGo b := by
      rw [show gix c g.slot.val = gid g from rfl, own]
      exact ⟨rfl, rfl, h.lanes, h.path⟩
    have gone := State.releases_group c b (y.arrived ++ [g.slot.val]) v (by simp) go
    rw [show gix c g.slot.val = gid g from rfl, own] at gone
    exact gone
  · rw [← others _ ne] at go
    rw [← others _ ne]
    exact State.releases_group c b _ v (List.mem_append_left _ mem) go
  · rw [← others _ ne]
    refine State.releases_others c b _ v fun j mem => ?_
    rcases List.mem_append.1 mem with mem | mem
    · exact away j mem
    · rw [List.mem_singleton.1 mem]
      exact ne

end

/-! ## PENDING_SET_MOVE -/

/-- The READY groups of core `c` outside the set `acts`. -/
def State.pendingOf (s : State) (c : Nat) (acts : List Nat) (k : Nat) : Prop :=
  k < 64 ∧ (s.group (gix c k)).st = .ready ∧ k ∉ acts

/-- Did slot `k` issue less recently than `j`, a tie to the lower one? -/
def State.issuedBefore (s : State) (c k j : Nat) : Prop :=
  (s.group (gix c k)).issued < (s.group (gix c j)).issued ∨ ((s.group (gix c k)).issued = (s.group (gix c j)).issued ∧ k ≤ j)

theorem State.mem_pendingReady (s : State) (c k : Nat) : k ∈ s.pendingReady c ↔ s.pendingOf c (s.core c).activeSet k := by
  simp [State.pendingReady, State.pendingOf]

theorem State.pendingReady_sorted (s : State) (c : Nat) : (s.pendingReady c).Pairwise (· < ·) :=
  List.pairwise_lt_range.filter _

/-- The slot of some that issued least recently. -/
def State.lessRecent (s : State) (c : Nat) (b : Option Nat) (k : Nat) : Option Nat :=
  match b with
  | none => some k
  | some j => if (s.group (gix c k)).issued < (s.group (gix c j)).issued then some k else some j

theorem State.lessRecent_foldl (s : State) (c : Nat) (ks : List Nat) (sorted : ks.Pairwise (· < ·)) (j : Nat)
    (low : ∀ k ∈ ks, j < k) : ∃ m, ks.foldl (s.lessRecent c) (some j) = some m ∧ (m = j ∨ m ∈ ks) ∧
      s.issuedBefore c m j ∧ ∀ k ∈ ks, s.issuedBefore c m k := by
  induction ks generalizing j with
  | nil => exact ⟨j, rfl, .inl rfl, .inr ⟨rfl, le_refl _⟩, by simp⟩
  | cons k ks ih =>
    obtain ⟨least, sorted⟩ := List.pairwise_cons.1 sorted
    by_cases less : (s.group (gix c k)).issued < (s.group (gix c j)).issued
    · obtain ⟨m, e, mem, before, all⟩ := ih sorted k least
      refine ⟨m, ?_, by simp; tauto, ?_, ?_⟩
      · rw [List.foldl_cons, State.lessRecent, if_pos less, e]
      · unfold State.issuedBefore at *
        omega
      · intro l mem
        rcases List.mem_cons.1 mem with rfl | mem
        · exact before
        · exact all l mem
    · obtain ⟨m, e, mem, before, all⟩ := ih sorted j fun l mem => low l (by simp [mem])
      refine ⟨m, ?_, by simp; tauto, before, ?_⟩
      · rw [List.foldl_cons, State.lessRecent, if_neg less, e]
      · intro l mem
        rcases List.mem_cons.1 mem with rfl | mem
        · have jl := low l (by simp)
          unfold State.issuedBefore at *
          omega
        · exact all l mem

theorem State.leastRecent_spec (s : State) (c : Nat) (ks : List Nat) (sorted : ks.Pairwise (· < ·)) :
    match s.leastRecent c ks with
    | none => ks = []
    | some m => m ∈ ks ∧ ∀ k ∈ ks, s.issuedBefore c m k := by
  have e : s.leastRecent c ks = ks.foldl (s.lessRecent c) none := rfl
  rw [e]
  cases ks with
  | nil => rfl
  | cons k ks =>
    obtain ⟨least, sorted⟩ := List.pairwise_cons.1 sorted
    obtain ⟨m, e, mem, before, all⟩ := s.lessRecent_foldl c ks sorted k least
    rw [List.foldl_cons, State.lessRecent, e]
    exact ⟨by simp; tauto, fun j mem => by rcases List.mem_cons.1 mem with rfl | mem; exacts [before, all j mem]⟩

/-- What moves into an active set `acts` of core `c`, up to `n` places of it. -/
structure State.MovesIn (s : State) (c : Nat) (acts new : List Nat) (n : Nat) : Prop where
  nodup : new.Nodup
  pending : ∀ k ∈ new, s.pendingOf c acts k
  order : new.Pairwise (s.issuedBefore c)
  room : new.length ≤ 8 - acts.length
  full : new.length < min n (8 - acts.length) → ∀ k, s.pendingOf c acts k → k ∈ new
  least : ∀ k ∈ new, ∀ j, s.pendingOf c acts j → j ∉ new → s.issuedBefore c k j

/-- One that issued least recently moves in first. -/
theorem State.MovesIn.cons {s : State} {c k n : Nat} {acts new : List Nat} (mem : s.pendingOf c acts k)
    (before : ∀ j, s.pendingOf c acts j → s.issuedBefore c k j) (room : acts.length < 8)
    (h : s.MovesIn c (acts ++ [k]) new n) : s.MovesIn c acts (k :: new) (n + 1) := by
  have weaken : ∀ j, s.pendingOf c (acts ++ [k]) j ↔ s.pendingOf c acts j ∧ j ≠ k := fun j => by
    simp only [State.pendingOf, List.mem_append, List.mem_singleton]
    tauto
  have away : k ∉ new := fun mem => ((weaken k).1 (h.pending k mem)).2 rfl
  have len : (acts ++ [k]).length = acts.length + 1 := by simp
  have room := h.room
  rw [len] at room
  refine ⟨List.nodup_cons.2 ⟨away, h.nodup⟩, fun j hj => ?_, List.pairwise_cons.2 ⟨fun j hj => ?_, h.order⟩, ?_, fun lt j p => ?_,
    fun j hj l p off => ?_⟩
  · rcases List.mem_cons.1 hj with rfl | hj
    · exact mem
    · exact ((weaken j).1 (h.pending j hj)).1
  · exact before j ((weaken j).1 (h.pending j hj)).1
  · simp only [List.length_cons]
    omega
  · by_cases same : j = k
    · simp [same]
    · refine List.mem_cons_of_mem _ (h.full ?_ j ((weaken j).2 ⟨p, same⟩))
      simp only [List.length_cons] at lt
      omega
  · rw [List.mem_cons, not_or] at off
    rcases List.mem_cons.1 hj with rfl | hj
    · exact before l p
    · exact h.least j hj l ((weaken l).2 ⟨p, off.1⟩) off.2

theorem State.MovesIn.nil {s : State} {c n : Nat} {acts : List Nat}
    (none : 0 < min n (8 - acts.length) → ∀ k, ¬s.pendingOf c acts k) : s.MovesIn c acts [] n :=
  ⟨.nil, by simp, .nil, by simp, fun lt k p => absurd p (none lt k), by simp⟩

theorem State.refill_movesIn (c n : Nat) (s : State) : ∃ new, s.MovesIn c (s.core c).activeSet new n ∧
    ((s.refill c n).core c).activeSet = (s.core c).activeSet ++ new ∧ ∀ d, d ≠ c → (s.refill c n).core d = s.core d := by
  induction n generalizing s with
  | zero => exact ⟨[], .nil (by simp), by simp [State.refill], fun _ _ => rfl⟩
  | succ n ih =>
    unfold State.refill
    split
    · next full => exact ⟨[], .nil (by omega), by simp, fun _ _ => rfl⟩
    · next room =>
      have spec := s.leastRecent_spec c (s.pendingReady c) (s.pendingReady_sorted c)
      split
      · next k found =>
        rw [found] at spec
        obtain ⟨mem, before⟩ := spec
        let v := s.coreMap c (fun x => { x with activeSet := x.activeSet ++ [k] })
        have acts : (v.core c).activeSet = (s.core c).activeSet ++ [k] :=
          congrArg CoreSt.activeSet ((State.core_coreMap ..).trans (if_pos rfl))
        obtain ⟨new, moves, set, others⟩ := ih v
        rw [acts] at moves set
        have moves : s.MovesIn c ((s.core c).activeSet ++ [k]) new n :=
          ⟨moves.nodup, moves.pending, moves.order, moves.room, moves.full, moves.least⟩
        refine ⟨k :: new, State.MovesIn.cons ((s.mem_pendingReady c k).1 mem) (fun j p => before j ((s.mem_pendingReady c j).2 p))
          (by omega) moves, by rw [set]; simp, fun d ne => (others d ne).trans ((State.core_coreMap ..).trans (if_neg ne))⟩
      · next found =>
        rw [found] at spec
        refine ⟨[], .nil fun _ k p => ?_, by simp, fun _ _ => rfl⟩
        rw [← State.mem_pendingReady, spec] at p
        cases p

/-- Is a group of the active set to move out (R171)? -/
structure State.MovesOut (s : State) (g : GroupId) : Prop where
  two : s.twoLevel g.core.val = true
  clocked : s.clockStopped g.core.val = false
  slot : g.slot ≠ 0
  active : g.slot.val ∈ (s.core g.core.val).activeSet
  busy : (s.group (gid g)).st = .busy
  unstalled : (s.group (gid g)).stalled = false
  flight : (s.group (gid g)).reqs ≠ []

section
variable {g : GroupId} {s : State}

theorem State.movesOut_iff : (s.twoLevel g.core.val && g.slot.val != 0 && (s.core g.core.val).activeSet.contains g.slot.val &&
    (s.group (gid g)).st == .busy && !(s.group (gid g)).stalled && !(s.group (gid g)).reqs.isEmpty &&
    !s.clockStopped g.core.val) = true ↔ s.MovesOut g := by
  simp only [Bool.and_eq_true, bne_iff_ne, List.contains_iff_mem, beq_iff_eq, Bool.not_eq_true', List.isEmpty_eq_false_iff]
  constructor
  · rintro ⟨⟨⟨⟨⟨⟨two, slot⟩, mem⟩, busy⟩, fresh⟩, flight⟩, clock⟩
    exact ⟨two, clock, fun zero => slot (congrArg Fin.val zero), mem, busy, fresh, flight⟩
  · rintro ⟨two, clock, slot, mem, busy, fresh, flight⟩
    exact ⟨⟨⟨⟨⟨⟨two, fun zero => slot (Fin.ext zero)⟩, mem⟩, busy⟩, fresh⟩, flight⟩, clock⟩

theorem exec_pendingSetMove (h : s.MovesOut g) :
    exec (.pendingSetMove g) s = .next ((s.dropActive (gid g)).refill g.core.val 8) := by
  have slot : gid g % 64 ≠ 0 := fun zero => h.slot (Fin.ext ((gid_mod g).symm.trans zero))
  have out : s.leaveActive (gid g) = s.dropActive (gid g) := if_neg slot
  rw [← out]
  exact congrArg Host.Outcome.next (if_pos (State.movesOut_iff.2 h))

theorem exec_pendingSetMove_stays (h : ¬s.MovesOut g) : exec (.pendingSetMove g) s = .next s :=
  congrArg Host.Outcome.next (if_neg fun all => h (State.movesOut_iff.1 all))

end

/-- A busy group's slot out of the active set: the pending groups are those before. -/
theorem State.pendingOf_left {s : State} {g : GroupId} (busy : (s.group (gid g)).st = .busy) (acts : List Nat) (k : Nat) :
    s.pendingOf g.core.val (acts.filter (· != g.slot.val)) k ↔ s.pendingOf g.core.val acts k := by
  unfold State.pendingOf
  by_cases own : k = g.slot.val
  · have st : (s.group (gix g.core.val k)).st = .busy := by rw [own]; exact busy
    simp [st]
  · simp [own]

/-- Settles O8: arrivals at a barrier as `State.bar`; the refill of the active set by its fuel (`State.refill_movesIn`). -/
theorem barriersAndScheduling : Obligations.BarriersAndScheduling := by
  unfold Obligations.BarriersAndScheduling
  refine ⟨?_, ?_, ?_⟩
  · intro g i s c b n y h agrees
    have h : Issues s g i (barForm i) := h
    refine ⟨fun more => ?_, fun last => ?_⟩
    · obtain ⟨t, m, e, group, bar, others, rest⟩ := h.bar_waits agrees more
      exact ⟨t, e, by rw [group]; rfl, by rw [group]; rfl, by rw [group]; rfl, by rw [bar], by rw [bar], others, rest⟩
    · obtain ⟨t, m, e, bars, group, waiting, others, only⟩ := h.bar_meets agrees last
      have len : insnLen i = 8 := h.insnLen_eq (by simp [barForm])
      refine ⟨t, e, by rw [bars, mget_mdel_same], fun b' ne => by rw [bars, mget_mdel_other _ _ ne], by rw [group]; rfl, ?_,
        by rw [group]; rfl, ?_, others, only.hbm, only.lin, only.staging, only.bar4⟩
      · rw [group, ← len]
        rfl
      · intro k mem z st wait lanes stack
        have ne : gix c k ≠ gid g := fun own => by
          have ready := h.ready
          rw [← own] at ready
          exact absurd (ready.symm.trans st) (by decide)
        have gone := waiting k mem ne ⟨wait, st, lanes, fun e top => by rw [stack] at top; cases top⟩
        rw [gone]
        exact ⟨rfl, rfl, rfl, rfl, rfl⟩
  · intro g i s y h some other
    have h : Issues s g i (barForm i) := h
    obtain ⟨t, e, rest, ⟨o, j, m, group⟩, others, code, pc⟩ := h.bar_disagrees some other
    exact ⟨t, e, by rw [group]; rfl, code, pc, others⟩
  · intro g s c x acts left due pending before
    refine ⟨fun h => ?_, fun h => ?_⟩
    · obtain ⟨two, clock, slot, mem, busy, fresh, flight⟩ := h
      let u := s.dropActive (gid g)
      have acts' : (u.core c).activeSet = left := by
        refine congrArg CoreSt.activeSet ((State.core_coreMap ..).trans (if_pos (gid_div g).symm)) |>.trans ?_
        rw [gid_div, gid_mod]
      obtain ⟨new, moves, set, kept⟩ := u.refill_movesIn c 8
      have arranges : s.arranges (u.refill c 8) := (s.dropActive_arranges _).trans (u.refill_arranges c 8)
      rw [acts'] at moves set
      have pend : ∀ k, u.pendingOf c left k ↔ pending k := State.pendingOf_left busy acts
      refine ⟨_, new, exec_pendingSetMove ⟨two, clock, slot, mem, busy, fresh, flight⟩, set, moves.nodup,
        fun k mem => (pend k).1 (moves.pending k mem), moves.order, moves.room, fun lt k p => moves.full (by omega) k ((pend k).2 p),
        fun k mem j p off => moves.least k mem j ((pend j).2 p) off, arranges.core c, fun d ne => ?_, ?_⟩
      · exact (kept d ne).trans ((State.core_coreMap ..).trans (if_neg (by rw [gid_div]; exact ne)))
      · rw [arranges.rest]
    · exact exec_pendingSetMove_stays fun out =>
        h ⟨out.two, out.clocked, out.slot, out.active, out.busy, out.unstalled, out.flight⟩

end Sys2Proof.Machine

namespace Sys2Proof.Machine

/-! # Deadlocks, the watchdog, and park actions (R187 to R192, R202) -/

/-! ## Events that park a group -/

theorem execClampDeadlock_eq (g : GroupId) (s : State) : exec (.clampDeadlock g) s = .next
    (if !s.clockStopped g.core.val ∧ (s.group (gid g)).st = .waiting ∧ (s.group (gid g)).wait = .clamp ∧ (s.group (gid g)).reqs = [] ∧
        (s.group (gid g)).deadlocked (gid g) then
      s.parkAt (gid g) fClampDeadlock 0 0 0 false (((s.group (gid g)).stack.head?.map (·.resume)).getD (s.group (gid g)).pc)
        (s.progWord (gid g) (((s.group (gid g)).stack.head?.map (·.resume)).getD (s.group (gid g)).pc)) false
    else s) := rfl

/-- A group that waits on itself has a stack. -/
theorem Group.stack_of_deadlocked {x : Group} {gx : Nat} (h : x.deadlocked gx = true) : ∃ e rest, x.stack = e :: rest := by
  unfold Group.deadlocked at h
  cases top : x.stack with
  | nil => rw [top] at h; cases h
  | cons e rest => exact ⟨e, rest, rfl⟩

/-- The state in which the watchdog parks a group: a command of it that stalls is gone, its count is at the limit. -/
def State.expiredAt (s : State) (g : GroupId) : State :=
  (s.coreMap g.core.val (fun y => { y with stalled := y.stalled.filter (fun q => q.slot != g.slot.val) })).groupMap (gid g)
    (fun x => { x with wdog := 2 ^ 24 })

theorem exec_watchdogExpiry {g : GroupId} {s : State} (st : (s.group (gid g)).st = .ready ∨ (s.group (gid g)).st = .busy)
    (clock : s.clockStopped g.core.val = false) : exec (.watchdogExpiry g) s = .next (
      if (s.group (gid g)).reqs = [] then (s.expiredAt g).parkAt (gid g) fNoProgress 0 0 0 false ((s.expiredAt g).group (gid g)).pc
        ((s.expiredAt g).progWord (gid g) ((s.expiredAt g).group (gid g)).pc) false
      else (s.coreMap g.core.val (fun y => { y with stalled := y.stalled.filter (fun q => q.slot != g.slot.val) })).groupSet (gid g)
        { s.group (gid g) with st := .busy, wdog := 2 ^ 24, stalled := false, expired := true }) :=
  congrArg Host.Outcome.next (if_pos ⟨st, by simp [clock]⟩)

/-- Settles O9: what a park leaves (`State.parkAt_parksAs`). -/
theorem parksByEvent : Obligations.ParksByEvent := by
  unfold Obligations.ParksByEvent
  intro g s x keeps clock
  have kept : ∀ {u t : State}, s.threadOnly t → (∀ h, h ≠ gid g → t.group h = s.group h) → keeps t := fun only others =>
    ⟨only.hbm, only.lin, only.bar4, only.staging, others⟩
  refine ⟨fun st wait idle dead => ?_, fun st flight => ?_, fun st idle => ?_⟩
  · obtain ⟨e, rest, top⟩ := Group.stack_of_deadlocked dead
    have run := (execClampDeadlock_eq g s).trans (congrArg Host.Outcome.next (if_pos ⟨by simp [clock], st, wait, idle, dead⟩))
    obtain ⟨only, group, others, tells⟩ := s.parkAt_parksAs (gid g) fClampDeadlock 0 0 0 false
      (((s.group (gid g)).stack.head?.map (·.resume)).getD (s.group (gid g)).pc) _ false
    refine ⟨_, run, by rw [group]; rfl, tells.code, tells.stack, ?_, kept (u := s) only others⟩
    rw [tells.pc, top]
    rfl
  · refine ⟨_, (exec_watchdogExpiry st clock).trans (congrArg Host.Outcome.next (if_neg flight)), State.group_groupSet_same ..,
      kept (u := s) rfl fun h ne => State.group_groupSet_other _ _ ne⟩
  · have own : (s.expiredAt g).group (gid g) = { x with wdog := 2 ^ 24 } := State.group_groupSet_same ..
    obtain ⟨only, group, others, tells⟩ := (s.expiredAt g).parkAt_parksAs (gid g) fNoProgress 0 0 0 false
      ((s.expiredAt g).group (gid g)).pc ((s.expiredAt g).progWord (gid g) ((s.expiredAt g).group (gid g)).pc) false
    refine ⟨_, (exec_watchdogExpiry st clock).trans (congrArg Host.Outcome.next (if_pos idle)), by rw [group]; rfl, tells.code,
      by rw [tells.pc, own], by rw [tells.wdog, own], by rw [tells.active, own],
      kept (u := s) (State.threadOnly.trans (t := s.expiredAt g) rfl only) fun h ne => (others h ne).trans ?_⟩
    exact State.group_groupSet_other _ _ ne

/-! ## Park actions (R190, Tables 8.7 and 8.14) -/

section
variable {s : State} {gx : Nat} (parked : (s.group gx).st = .parked)
include parked

theorem State.parkAct_replay_lanes (able : bitOf (mget s.parks gx {}).flags 4 = true) (other : (mget s.parks gx {}).code ≠ fClampDeadlock)
    (faults : (mget s.parks gx {}).faults ≠ 0) : s.parkAct gx 1 = (0, s.groupSet gx { s.group gx with
      st := .ready, wdog := 0, wait := .nothing, replay := some (s.group gx).active,
      active := BitVec.ofNat 32 (mget s.parks gx {}).faults }) := by
  simp [State.parkAct, parked, able, Group.replayed, other, faults, Group.revived]

theorem State.parkAct_replay_resumes (able : bitOf (mget s.parks gx {}).flags 4 = true)
    (other : (mget s.parks gx {}).code ≠ fClampDeadlock) (faults : (mget s.parks gx {}).faults = 0) :
    s.parkAct gx 1 = (0, (s.groupSet gx (s.group gx).revived).settleGroup gx) := by
  simp [State.parkAct, parked, able, Group.replayed, other, faults]

theorem State.parkAct_replay_clamp (able : bitOf (mget s.parks gx {}).flags 4 = true)
    (dead : (mget s.parks gx {}).code = fClampDeadlock) :
    s.parkAct gx 1 = (0, let u := s.groupSet gx { s.group gx with st := .waiting, wdog := 0, wait := .clamp }
      if (mget s.parks gx {}).faults = 0 then u.settleGroup gx else u) := by
  simp [State.parkAct, parked, able, Group.replayed, dead]

theorem State.parkAct_skip (able : bitOf (mget s.parks gx {}).flags 5 = true) : s.parkAct gx 2 =
    (0, (s.groupSet gx { (s.group gx).revived with pc := (s.group gx).pc + (mget s.parks gx {}).len }).settleGroup gx) := by
  simp [State.parkAct, parked, able]

theorem State.parkAct_drop : s.parkAct gx 3 = (0, (s.flushReqs gx).freeSlot gx) := by
  simp [State.parkAct, parked]

theorem State.parkAct_refused {action : Nat} (unable : bitOf (mget s.parks gx {}).flags (action + 3) = false) (pos : action ≠ 0)
    (lt : action < 3) : s.parkAct gx action = (2, s) := by
  obtain rfl | rfl : action = 1 ∨ action = 2 := by omega
  · simp [State.parkAct, parked, unable]
  · simp [State.parkAct, parked, unable]

end

theorem State.parkAct_unparked {s : State} {gx : Nat} (h : (s.group gx).st ≠ .parked) (action : Nat) :
    s.parkAct gx action = (1, s) := by
  simp [State.parkAct, h]

/-! ## Park actions of the host -/

/-- The reply register of park actions of a core. -/
abbrev parkResult (g : GroupId) : Nat := coreReg Reg.CORE_PARK_RESULT g.core.val

section
variable {f : Func} {g : GroupId} {s : State}

theorem State.hostPark_away (h : s.reaches f (s.corePart g.core.val) = false ∨ s.clockStopped g.core.val = true) (action : Nat) :
    s.hostPark f g action = s := if_pos (by rcases h with h | h <;> simp [h])

/-- A host park action sets the reply register behind what it does. -/
theorem State.hostPark_eq (reach : s.reaches f (s.corePart g.core.val) = true) (clock : s.clockStopped g.core.val = false)
    {action res : Nat} {u : State} (h : s.parkAct (gid g) action = (res, u)) : s.hostPark f g action =
      u.rgSet (parkResult g) (BitVec.ofNat 32 (g.slot.val + 2 ^ 8 * res)) := by
  refine (if_neg (by simp [reach, clock])).trans ?_
  rw [show gix g.core.val g.slot.val = gid g from rfl, h]

theorem rf_parkResult (u : State) (g : GroupId) {res : Nat} (lt : res < 4) :
    (u.rgSet (parkResult g) (BitVec.ofNat 32 (g.slot.val + 2 ^ 8 * res))).rf (parkResult g) 9 8 = res := by
  have slot := g.slot.isLt
  rw [State.rf, rg_rgSet_same, BitVec.toNat_ofNat, Nat.mod_eq_of_lt (by omega), bitsOf]
  omega

theorem State.rgSet_onlyRegs (s : State) (k : Nat) (v : Word) : onlyRegs [k] s (s.rgSet k v) :=
  ⟨fun _ away => rg_rgSet_other _ _ (by simpa using away), rfl⟩

theorem exec_hostPark (ready : s.mustWait (portOf f) = false) : exec (.parkReplay f g) s = .next (s.hostPark f g 1) ∧
    exec (.parkSkip f g) s = .next (s.hostPark f g 2) ∧ exec (.parkDrop f g) s = .next (s.hostPark f g 3) :=
  ⟨congrArg Host.Outcome.next (State.inOrder_of_ready ready ..), congrArg Host.Outcome.next (State.inOrder_of_ready ready ..),
    congrArg Host.Outcome.next (State.inOrder_of_ready ready ..)⟩

theorem exec_pregDataWrite (ready : s.mustWait (portOf f) = false) (v : Word) : exec (.pregDataWrite f g.core v) s = .next
    (if s.reaches f (s.corePart g.core.val) && !s.clockStopped g.core.val then
      s.pregWrite g.core.val (s.rg (coreReg Reg.CORE_PREG_SEL g.core.val)).toNat v else s) :=
  congrArg Host.Outcome.next (State.inOrder_of_ready ready ..)

/-- The group alone and the reply register may differ. -/
theorem State.regroups.rgSet_frame {s u : State} {gx : Nat} (h : s.regroups u gx) (k : Nat) (v : Word) :
    (∀ h, h ≠ gx → (u.rgSet k v).group h = s.group h) ∧ { u.rgSet k v with groups := s.groups, regs := s.regs } = s :=
  ⟨h.others, (congrArg (fun x : State => { x with regs := s.regs }) h.rest :)⟩

/-- A group that settles as it is. -/
theorem State.settled_regroups (s : State) (gx : Nat) {y : Group} (st : y.st = .ready) (lanes : y.active ≠ 0)
    (path : ∀ e, y.stack.head? = some e → y.pc ≠ e.rpc) :
    ((s.groupSet gx y).settleGroup gx).group gx = y ∧ s.regroups ((s.groupSet gx y).settleGroup gx) gx := by
  rw [State.settleGroup_of_path _ _ st lanes path]
  exact ⟨State.group_groupSet_same .., (s.groupSet_regroups gx y).trans (State.groupSet_regroups ..)⟩

/-- A group that waits on the lanes of its top entry stays so. -/
theorem Group.settle_clamp {x : Group} {e : RecEnt} {rest : List RecEnt} (none : x.active = 0) (top : x.stack = e :: rest)
    (clamps : e.clamps x = true) (asleep : e.lanes &&& x.woken = 0) (n : Nat) :
    x.settle (n + 1) = { x with st := .waiting, wait := .clamp } := by
  rw [Group.settle, top]
  simp [none, clamps, asleep]

/-- Settles O10: each park action by its result code (`State.hostPark_eq`). -/
theorem parkActions : Obligations.ParkActions := by
  unfold Obligations.ParkActions
  intro f g s x r res goesOn ready
  obtain ⟨replay, skip, drop⟩ := exec_hostPark (g := g) ready
  refine ⟨fun away => ?_, fun reach clock => ⟨fun parked able other faults => ?_, fun parked able other faults goes => ?_,
    fun parked able dead none asleep => ?_, fun parked able goes => ?_, fun parked => ?_, fun parked unable => ?_, fun free => ?_,
    fun v => ?_⟩⟩
  · rw [replay, skip, drop, State.hostPark_away away, State.hostPark_away away, State.hostPark_away away]
    refine ⟨rfl, rfl, rfl, fun v => (exec_pregDataWrite ready v).trans (congrArg Host.Outcome.next (if_neg ?_))⟩
    rcases away with away | away <;> simp [away]
  · rw [replay, State.hostPark_eq reach clock (State.parkAct_replay_lanes parked able other faults)]
    obtain ⟨others, rest⟩ := (s.groupSet_regroups (gid g) _).rgSet_frame res (BitVec.ofNat 32 (g.slot.val + 2 ^ 8 * 0))
    refine ⟨_, rfl, ?_, ?_, ?_, ?_, ?_, rf_parkResult _ g (by decide), others, rest⟩ <;>
      rw [State.group_rgSet, State.group_groupSet_same]
  · rw [replay, State.hostPark_eq reach clock (State.parkAct_replay_resumes parked able other faults)]
    obtain ⟨group, only⟩ := s.settled_regroups (gid g) (y := x.revived) rfl goes.1 goes.2
    obtain ⟨others, rest⟩ := only.rgSet_frame res (BitVec.ofNat 32 (g.slot.val + 2 ^ 8 * 0))
    exact ⟨_, rfl, (State.group_rgSet ..).trans group, rf_parkResult _ g (by decide), others, rest⟩
  · rw [replay, State.hostPark_eq reach clock (State.parkAct_replay_clamp parked able dead)]
    obtain ⟨e, rest, top, clamps, sleeps⟩ := asleep
    let y : Group := { x with st := .waiting, wdog := 0, wait := .clamp }
    let u := s.groupSet (gid g) y
    have own : u.group (gid g) = y := State.group_groupSet_same ..
    have stays : y.settle 18 = y := Group.settle_clamp (x := y) none top clamps sleeps 17
    have settled : u.settleGroup (gid g) = (u.groupSet (gid g) y).leaveActive (gid g) := by
      rw [State.settleGroup, own, stays, if_neg, if_pos rfl]
      exact fun gone => by rw [show y.stack = _ from top] at gone; cases gone.2
    have waits : s.moves (u.settleGroup (gid g)) (gid g) := (s.groupSet_moves (gid g) y).trans (u.settleGroup_moves (gid g))
    have group : (u.settleGroup (gid g)).group (gid g) = y := by
      rw [settled, (State.leaveActive_arranges ..).group, State.group_groupSet_same]
    refine ⟨_, rfl, ?_, rf_parkResult _ g (by decide), fun h ne => ?_⟩
    · rw [State.group_rgSet]
      dsimp only
      split
      · exact group
      · exact own
    · rw [State.group_rgSet]
      dsimp only
      split
      · exact waits.others h ne
      · exact State.group_groupSet_other _ _ ne
  · rw [skip, State.hostPark_eq reach clock (State.parkAct_skip parked able)]
    obtain ⟨group, only⟩ := s.settled_regroups (gid g) (y := { x.revived with pc := x.pc + r.len }) rfl goes.1 goes.2
    obtain ⟨others, rest⟩ := only.rgSet_frame res (BitVec.ofNat 32 (g.slot.val + 2 ^ 8 * 0))
    exact ⟨_, rfl, (State.group_rgSet ..).trans group, rf_parkResult _ g (by decide), others, rest⟩
  · rw [drop, State.hostPark_eq reach clock (State.parkAct_drop parked)]
    refine ⟨_, rfl, ?_, rf_parkResult _ g (by decide)⟩
    rw [State.group_rgSet, State.group_freeSlot_same]
  · rw [replay, State.hostPark_eq reach clock (State.parkAct_refused parked unable (by decide) (by decide))]
    exact ⟨_, rfl, s.rgSet_onlyRegs _ _, rf_parkResult _ g (by decide)⟩
  · rw [skip, State.hostPark_eq reach clock (State.parkAct_unparked free 2)]
    exact ⟨_, rfl, s.rgSet_onlyRegs _ _, rf_parkResult _ g (by decide)⟩
  · intro sel h
    have run := (exec_pregDataWrite (g := g) ready v).trans (congrArg Host.Outcome.next (if_pos (by simp [reach, clock])))
    refine ⟨fun parked => ⟨_, run.trans (congrArg Host.Outcome.next (if_pos parked)), ?_, ?_, rfl⟩,
      fun free => run.trans (congrArg Host.Outcome.next (if_neg free))⟩
    · rw [State.groupMap, State.group_groupSet_same, Group.w_wSet_same]
    · exact fun k ne => State.group_groupSet_other _ _ ne

end

/-! ## The supervisor (R202) -/

section
variable {s u : State} {g : GroupId} {i : Insn} {op n : Nat}

/-- A parked group is not the supervisor's own. -/
theorem HasTurn.parked_other (h : HasTurn s g) {gx : Nat} (parked : (s.group gx).st = .parked) : gx ≠ gid g := fun own => by
  rw [own, h.ready] at parked
  cases parked

theorem State.Found.group_other (found : s.Found u g op i n) {gx : Nat} (ne : gx ≠ gid g) : u.group gx = s.group gx := by
  obtain ⟨groups, -, -, -⟩ := found.frame
  exact groups gx ne

theorem State.Found.parks (found : s.Found u g op i n) : u.parks = s.parks := by
  obtain ⟨-, -, -, rest⟩ := found.frame
  exact (congrArg State.parks rest :)

/-- Where a group is parked, an instruction finds it so; where it is not, neither. -/
theorem State.Found.parked_iff (found : s.Found u g op i n) (turn : HasTurn s g) (gx : Nat) :
    (u.group gx).st = .parked ↔ (s.group gx).st = .parked := by
  by_cases own : gx = gid g
  · rw [own, found.group, turn.ready]
    simp [Group.picked]
  · rw [found.group_other own]

end

section
variable {g : GroupId} {i : Insn} {s : State}

/-- The form of PREGRD. -/
def pregrdForm (i : Insn) : Form := { grp := true, d := .regs 1, a := .regs 1, mod := modOnly i 0, drain := true }

/-- The form of PREGWR. -/
def pregwrForm (i : Insn) : Form := { grp := true, a := .regs 1, b := .regs 1, mod := modOnly i 0, drain := true }

/-- The selection that a supervisor's instruction reads in its register A. -/
def Group.selects (x : Group) (i : Insn) : Nat := (x.w x.lowest i.a.toNat).toNat

theorem Issues.pregrd (h : Issues s g i (pregrdForm i)) (slot : g.slot = 0) :
    let sel := (s.group (gid g)).selects i
    let hx := gix g.core.val (bitsOf sel 21 16)
    ∃ t, exec (.pregrd g i) s = .next t ∧
      (∀ l, l < 32 → bitOf (s.group (gid g)).active.toNat l → (t.group (gid g)).w l i.d.toNat =
        if (s.group hx).st = .parked then (s.group hx).w (bitsOf sel 12 8) (bitsOf sel 6 0) else 0) ∧ issueFrame s t g i := by
  intro sel hx
  obtain ⟨u, n, found, issue⟩ := h.begins 0x06
  have zero : gid g % 64 = 0 := by rw [gid_mod, slot]; rfl
  let v : Word := if (s.group hx).st = .parked then (s.group hx).w (bitsOf sel 12 8) (bitsOf sel 6 0) else 0
  have read : u.pregRead g.core.val sel = v := by
    unfold State.pregRead
    dsimp only
    by_cases parked : (s.group hx).st = .parked
    · rw [if_pos ((found.parked_iff h.toHasTurn hx).2 parked), found.group_other (h.parked_other parked)]
      exact (if_pos parked).symm
    · rw [if_neg fun p => parked ((found.parked_iff h.toHasTurn hx).1 p)]
      exact (if_neg parked).symm
  have run : exec (.pregrd g i) s = .next ((u.writeAll (gid g) i.d.toNat v).pass (gid g)) := by
    refine congrArg Host.Outcome.next ((issue fun s gx _ => s.supervisor gx fun s =>
      (s.writeAll gx i.d.toNat (s.pregRead (gx / 64) ((s.group gx).selects i))).pass gx).trans ((if_pos zero).trans ?_))
    beta_reduce
    rw [gid_div, found.group, ← read]
    rfl
  obtain ⟨written, groups⟩ := h.writeAll_pass found.group v
  exact ⟨_, run, written, found.frame.regroups groups⟩

theorem Issues.pregwr (h : Issues s g i (pregwrForm i)) (slot : g.slot = 0) :
    let sel := (s.group (gid g)).selects i
    let hx := gix g.core.val (bitsOf sel 21 16)
    (s.group hx).st = .parked → ∃ t, exec (.pregwr g i) s = .next t ∧
      (t.group hx).w (bitsOf sel 12 8) (bitsOf sel 6 0) = (s.group (gid g)).w (s.group (gid g)).lowest i.b.toNat ∧
      ∀ k, k ≠ hx → k ≠ gid g → t.group k = s.group k := by
  intro sel hx parked
  obtain ⟨u, n, found, issue⟩ := h.begins 0x07
  have zero : gid g % 64 = 0 := by rw [gid_mod, slot]; rfl
  let v := (s.group (gid g)).w (s.group (gid g)).lowest i.b.toNat
  let w := u.groupMap hx (fun x => x.wSet (bitsOf sel 12 8) (bitsOf sel 6 0) v)
  have apart := h.parked_other parked
  have run : exec (.pregwr g i) s = .next (w.pass (gid g)) := by
    refine congrArg Host.Outcome.next ((issue fun s gx _ => s.supervisor gx fun s =>
      (s.pregWrite (gx / 64) ((s.group gx).selects i) ((s.group gx).w (s.group gx).lowest i.b.toNat)).pass gx).trans
        ((if_pos zero).trans ?_))
    beta_reduce
    rw [gid_div, found.group]
    refine congrArg (fun u : State => u.pass (gid g)) (if_pos ?_)
    exact (found.parked_iff h.toHasTurn hx).2 parked
  have moved := w.pass_moves (gid g)
  refine ⟨_, run, ?_, fun k ne own => ?_⟩
  · rw [moved.others _ apart]
    exact (congrArg (fun y : Group => y.w (bitsOf sel 12 8) (bitsOf sel 6 0)) (State.group_groupSet_same ..)).trans
      (Group.w_wSet_same ..)
  · rw [moved.others _ own, ← found.group_other own]
    exact State.group_groupSet_other _ _ ne

/-- The form of PARKACT. -/
def parkactForm : Form := { grp := true, d := .regs 1, a := .regs 1, drain := true }

theorem parkact_mod : ∀ m : BitVec 7, m.toNat < 4 → m.toNat ≠ 0 →
    ((m.toNat &&& 3 == m.toNat) && m.toNat % 4 != 0) = true ∧ m.toNat % 4 = m.toNat := by decide

/-- PARKACT: the action on the slot, then its result code in D. -/
theorem Issues.parkact (h : Issues s g i parkactForm) (slot : g.slot = 0) (lt : i.mod.toNat < 4) (pos : i.mod.toNat ≠ 0)
    (sel : (s.group (gid g)).selects i < 64) : ∃ u n, s.Found u g 0x05 i n ∧ exec (.parkact g i) s = .next
      (let r := u.parkAct (gix g.core.val ((s.group (gid g)).selects i)) i.mod.toNat
       (r.2.writeAll (gid g) i.d.toNat (BitVec.ofNat 32 r.1)).pass (gid g)) := by
  obtain ⟨u, n, found, issue⟩ := h.begins 0x05
  obtain ⟨ok, mod⟩ := parkact_mod i.mod lt pos
  have zero : gid g % 64 = 0 := by rw [gid_mod, slot]; rfl
  have form : ({ parkactForm with mod := modOnly i 3 && i.mod.toNat % 4 != 0 } : Form) = parkactForm :=
    congrArg (fun b => ({ parkactForm with mod := b } : Form)) ok
  rw [← form] at issue
  refine ⟨u, n, found, congrArg Host.Outcome.next ((issue fun s gx _ => s.supervisor gx fun s =>
    let (res, v) := if (s.group gx).selects i < 64 then s.parkAct (gix (gx / 64) ((s.group gx).selects i)) (i.mod.toNat % 4) else (1, s)
    (v.writeAll gx i.d.toNat (BitVec.ofNat 32 res)).pass gx).trans ((if_pos zero).trans ?_))⟩
  beta_reduce
  rw [gid_div, found.group, mod, if_pos (by exact sel)]
  rfl

/-- What PARKACT leaves, given what its action does to a slot that is not the supervisor's own. -/
theorem Issues.parkact_acts (h : Issues s g i parkactForm) (slot : g.slot = 0) (lt : i.mod.toNat < 4) (pos : i.mod.toNat ≠ 0)
    {hx : Nat} (sel : gix g.core.val ((s.group (gid g)).selects i) = hx) (lt64 : (s.group (gid g)).selects i < 64)
    (other : (s.group (gid g)).selects i ≠ 0) {y : Group} {v : Nat}
    (acts : ∀ u n, s.Found u g 0x05 i n → ∃ w, u.parkAct hx i.mod.toNat = (v, w) ∧ w.group hx = y ∧
      ∀ k, k ≠ hx → w.group k = u.group k) :
    ∃ t, exec (.parkact g i) s = .next t ∧ t.group hx = y ∧
      (∀ l, l < 32 → bitOf (s.group (gid g)).active.toNat l → (t.group (gid g)).w l i.d.toNat = BitVec.ofNat 32 v) ∧
      ∀ k, k ≠ hx → k ≠ gid g → t.group k = s.group k := by
  obtain ⟨u, n, found, run⟩ := h.parkact slot lt pos lt64
  obtain ⟨w, act, group, others⟩ := acts u n found
  have apart : gid g ≠ hx := fun own => other (by
    have slots := gix_injective (show gix g.core.val g.slot.val = gix g.core.val _ from own.trans sel.symm)
    rw [slot] at slots
    exact slots.symm)
  rw [sel, act] at run
  obtain ⟨written, groups⟩ := h.writeAll_pass ((others _ apart).trans found.group) (BitVec.ofNat 32 v)
  exact ⟨_, run, (groups.others _ apart.symm).trans group, written, fun k ne own =>
    (groups.others k own).trans ((others k ne).trans (found.group_other own))⟩

end

theorem State.flushReqs_none {s : State} {gx : Nat} (h : (s.group gx).reqs = []) : (s.flushReqs gx).group = s.group := by
  funext k
  rw [State.flushReqs, h]
  rfl

/-- Settles O11: PREGRD, PREGWR, and PARKACT by what its action does (`Issues.parkact_acts`). -/
theorem supervisorInstructions : Obligations.SupervisorInstructions := by
  unfold Obligations.SupervisorInstructions
  intro g i s x c sel h slot fresh
  refine ⟨fun iss => Issues.pregrd iss slot, fun iss parked => Issues.pregwr iss slot parked, fun iss mod lt parked idle => ?_,
    fun iss lt pos sel64 => ?_⟩
  · have other : sel ≠ 0 := fun zero => (iss.parked_other parked) (by rw [zero]; exact congrArg (gix c) (congrArg Fin.val slot).symm)
    obtain ⟨t, run, group, written, -⟩ := Issues.parkact_acts (v := 0) (y := {}) iss slot (by omega) (by omega)
      (hx := gix c sel) rfl lt other fun u n found => by
      have ne := iss.parked_other parked
      rw [mod]
      refine ⟨_, State.parkAct_drop ((found.parked_iff iss.toHasTurn _).2 parked), State.group_freeSlot_same .., fun k ne' => ?_⟩
      rw [State.group_freeSlot_other _ ne', State.flushReqs_none (by rw [found.group_other ne]; exact idle)]
    exact ⟨t, run, by rw [group], written⟩
  · intro hx y r answers other
    have kept : ∀ {u n}, s.Found u g 0x05 i n → hx ≠ gid g → u.group hx = y ∧ mget u.parks hx {} = r := fun found ne =>
      ⟨found.group_other ne, by rw [found.parks]⟩
    have away : hx ≠ gid g := fun own => other (by
      have slots := gix_injective (show gix c sel = gix c g.slot.val from own)
      rw [slots, slot]
      rfl)
    refine ⟨fun mod parked able alive faults => ?_, fun mod parked able lanes path => ?_, fun parked unable lt => ?_, fun free => ?_⟩
    · refine Issues.parkact_acts iss slot lt pos (hx := hx) rfl sel64 other (v := 0) fun u n found => ?_
      obtain ⟨group, rec⟩ := kept found away
      rw [mod]
      refine ⟨_, State.parkAct_replay_lanes (by rw [group]; exact parked) (by rw [rec]; exact able) (by rw [rec]; exact alive)
        (by rw [rec]; exact faults), ?_, fun k ne => State.group_groupSet_other _ _ ne⟩
      rw [State.group_groupSet_same, group, rec]
    · refine Issues.parkact_acts iss slot lt pos (hx := hx) rfl sel64 other (v := 0) fun u n found => ?_
      obtain ⟨group, rec⟩ := kept found away
      rw [mod]
      obtain ⟨own, only⟩ := u.settled_regroups hx (y := { y.revived with pc := y.pc + r.len }) rfl lanes path
      refine ⟨_, State.parkAct_skip (by rw [group]; exact parked) (by rw [rec]; exact able), ?_, ?_⟩
      · rw [group, rec]
        exact own
      · rw [group, rec]
        exact only.others
    · refine Issues.parkact_acts iss slot (by omega) pos (hx := hx) rfl sel64 other (v := 2) fun u n found => ?_
      obtain ⟨group, rec⟩ := kept found away
      exact ⟨u, State.parkAct_refused (by rw [group]; exact parked) (by rw [rec]; exact unable) pos lt, group, fun _ _ => rfl⟩
    · refine Issues.parkact_acts iss slot lt pos (hx := hx) rfl sel64 other (v := 1) fun u n found => ?_
      obtain ⟨group, rec⟩ := kept found away
      exact ⟨u, State.parkAct_unparked (by rw [group]; exact free) _, group, fun _ _ => rfl⟩

end Sys2Proof.Machine

namespace Sys2Proof.Machine

/-! # FENCE and CINV, admission, completions and proof jobs (R178, R205, R217, R218, R220) -/

theorem bitOf_maskOf_iff {ls : List Nat} {l : Nat} (h : ∀ k ∈ ls, k < 32) : bitOf (maskOf ls).toNat l = true ↔ l ∈ ls := by
  rw [← mem_lanesOf_maskOf h, mem_lanesOf]
  refine ⟨fun bit => ⟨?_, bit⟩, fun h => h.2⟩
  by_contra big
  rw [bitOf_eq_testBit, Nat.testBit_lt_two_pow ((maskOf ls).isLt.trans_le (Nat.pow_le_pow_right (by decide) (by omega)))] at bit
  cases bit

/-! ## FENCE and CINV -/

section
variable {s : State} {g : GroupId} {i : Insn} {f : Form}

/-- With nothing outstanding, an instruction that awaits the group's requests issues as one that does not. -/
theorem Issues.undrained (h : Issues s g i f) (idle : (s.group (gid g)).reqs = []) (b : Bool) : Issues s g i { f with drain := b } where
  toHasTurn := h.toHasTurn
  operands := by
    have free := h.operands
    simp only [Group.hazard, idle] at free ⊢
    simpa using free
  inside := h.inside
  form := h.form
  lanes := h.lanes
  path := h.path

/-- A group that passes an instruction without a change of its own goes on behind it. -/
theorem Issues.pass_found (h : Issues s g i f) {u : State} {op n : Nat} (found : u.group (gid g) = (s.group (gid g)).picked op i n) :
    (u.pass (gid g)).group (gid g) = (s.group (gid g)).behind op i n ∧ u.regroups (u.pass (gid g)) (gid g) := by
  rw [h.pass found rfl rfl rfl rfl]
  exact ⟨State.group_groupSet_same .., (u.groupSet_regroups ..).trans (State.groupSet_regroups ..)⟩

theorem Issues.passes (h : Issues s g i f) {u : State} {op n : Nat} (found : s.Found u g op i n) :
    writesNothing s (u.pass (gid g)) g op i := by
  obtain ⟨group, only⟩ := h.pass_found found.group
  unfold writesNothing
  rw [group]
  exact ⟨rfl, found.frame.regroups only⟩

end

/-- A core whose caches CINV empties. -/
def CoreSt.invalidated (x : CoreSt) (i : Insn) : CoreSt :=
  { x with ccache := if modBit i 0 then [] else x.ccache, dcache := if modBit i 1 then [] else x.dcache }

/-- Settles O15. -/
theorem fenceAndCacheInvalidate : Obligations.FenceAndCacheInvalidate := by
  unfold Obligations.FenceAndCacheInvalidate
  intro g i s c
  refine ⟨fun idle h => ?_, fun h => ?_⟩
  · let wait := i.mod.toNat % 4 == 3 || (s.group (gid g)).reqs.any (fun r => !r.isRemote)
    obtain ⟨u, n, found, issue⟩ := (h.undrained idle wait).begins 0x54
    refine ⟨u.pass (gid g), congrArg Host.Outcome.next (issue fun s gx _ => s.pass gx), h.passes found⟩
  · obtain ⟨u, n, found, issue⟩ := h.begins 0x55
    let v := u.coreMap c (·.invalidated i)
    have run : exec (.cinv g i) s = .next (v.pass (gid g)) := by
      refine congrArg Host.Outcome.next ((issue fun s gx _ => (s.coreMap (gx / 64) (·.invalidated i)).pass gx).trans ?_)
      rw [gid_div]
    obtain ⟨group, only⟩ := h.pass_found (u := v) found.group
    obtain ⟨-, -, cores, rest⟩ := id found.frame
    have core : ∀ d, (v.pass (gid g)).core d = if d = c then (u.core c).invalidated i else u.core d := fun d =>
      (only.core d).trans (u.core_coreMap c d (·.invalidated i))
    refine ⟨_, run, ?_, ?_, fun d ne => by rw [core, if_neg ne, found.cores d ne], by rw [group]; rfl, ?_⟩
    · rw [core, if_pos rfl, ← (congrArg CoreSt.ccache (cores c) :)]
      rfl
    · rw [core, if_pos rfl, ← (congrArg CoreSt.dcache (cores c) :)]
      rfl
    · exact (only.blank_regs_cores ..).trans rest

/-! ## ADM -/

section
variable {s : State} {g : GroupId} {i : Insn}

/-- The form of ADM. -/
def admForm (i : Insn) : Form :=
  { d := .regs 1, a := if modBit i 0 then .regs 1 else .unused, imm := modBit i 0,
    mod := modOnly i 1 && i.imm.toNat % 4 == 0 && decide (i.imm.toNat < 64) }

/-- What ADM writes in a lane. -/
def admValue (list : List Admitted) (i : Insn) (x : Group) (l : Nat) : Word :=
  if modBit i 0 then
    match list[(x.w l i.a.toNat).toNat]? with
    | some e => e.words.getD (i.imm.toNat / 4) 0
    | none => 0
  else BitVec.ofNat 32 list.length

theorem issueFrame.parts {t : State} (h : issueFrame s t g i) : t.parts = s.parts := (congrArg State.parts h.2.2.2 :)

theorem issueFrame.part {t : State} (h : issueFrame s t g i) (p : Nat) : t.part p = s.part p := by
  rw [State.part, h.parts, State.part]

theorem issueFrame.groupPart {t : State} (h : issueFrame s t g i) (gx : Nat) : t.groupPart gx = s.groupPart gx := by
  unfold State.groupPart State.corePart
  rw [h.threadOnly.ptn]

theorem Issues.adm (h : Issues s g i (admForm i)) :
    ∃ t, exec (.adm g i) s = .next t ∧ writesD s t g 0x5D i (admValue (s.part (s.groupPart (gid g))).admitted i) := by
  let list := (s.part (s.groupPart (gid g))).admitted
  let u := s.readied g 0x5D i
  have same : (u.part (u.groupPart (gid g))).admitted = list := by
    rw [(s.readied_frame g 0x5D i).part, (s.readied_frame g 0x5D i).groupPart]
  refine ⟨_, congrArg Host.Outcome.next (h.issue 0x5D fun s gx eff => (s.groupMap gx (fun x => (lanesOf eff).foldl
    (fun y l => y.wSet l i.d.toNat (admValue (s.part (s.groupPart gx)).admitted i x l)) x)).pass gx), ?_⟩
  rw [same]
  exact h.acts_writesD 0x5D (v := fun _ l => admValue list i (u.group (gid g)) l) _ (fun _ _ _ _ _ => rfl) fun n l _ => by
    rw [s.group_readied]
    rfl

end

/-! ## COMPLETE -/

/-- The words of a lane's completion. -/
def Group.compWords (x : Group) (i : Insn) (l : Nat) : List Word := (List.range 16).map (fun j => x.w l (i.a.toNat + j))

/-- A lane completes, or fails. -/
def State.completeLane (p : Nat) (i : Insn) (x : Group) (t : List (Nat × Nat × Nat) × State) (l : Nat) :
    List (Nat × Nat × Nat) × State :=
  if 1 < ((x.compWords i l).getD 4 0).toNat % 2 ^ 16 ∨ 65536 ≤ (t.2.part p).backlog.length then (t.1 ++ [(l, eBounds, 0)], t.2)
  else (t.1, t.2.partSet p { t.2.part p with backlog := (t.2.part p).backlog ++ [compOf (x.compWords i l) (t.2.part p).boundary] })

/-- A state whose partition `p` has the entries `new` behind its backlog. -/
structure State.Completes (s t : State) (p : Nat) (new : List Comp) : Prop where
  part : t.part p = { s.part p with backlog := (s.part p).backlog ++ new }
  others : ∀ q, q ≠ p → t.part q = s.part q
  rest : t = { s with parts := t.parts }

theorem State.completeLanes (p : Nat) (i : Insn) (x : Group) (ls : List Nat) (s t : State) (new : List Comp) (h : s.Completes t p new)
    (status : ∀ l ∈ ls, (x.w l (i.a.toNat + 4)).toNat % 2 ^ 16 ≤ 1)
    (room : (s.part p).backlog.length + new.length + ls.length ≤ 65536) :
    let e := ls.foldl (State.completeLane p i x) ([], t)
    e.1 = [] ∧ s.Completes e.2 p (new ++ ls.map (fun l => compOf (x.compWords i l) (s.part p).boundary)) := by
  induction ls generalizing t new with
  | nil => exact ⟨rfl, by simpa using h⟩
  | cons l ls ih =>
    obtain ⟨part, others, rest⟩ := h
    have value : compOf (x.compWords i l) (t.part p).boundary = compOf (x.compWords i l) (s.part p).boundary := by rw [part]
    have okay : ¬(1 < ((x.compWords i l).getD 4 0).toNat % 2 ^ 16 ∨ 65536 ≤ (t.part p).backlog.length) := by
      have status : (x.w l (i.a.toNat + 4)).toNat % 2 ^ 16 ≤ 1 := status l (by simp)
      have word : (x.compWords i l).getD 4 0 = x.w l (i.a.toNat + 4) := rfl
      rw [word, part]
      simp only [List.length_cons, List.length_append] at room ⊢
      omega
    let v := t.partSet p { t.part p with backlog := (t.part p).backlog ++ [compOf (x.compWords i l) (t.part p).boundary] }
    have step : State.completeLane p i x ([], t) l = ([], v) := if_neg okay
    have next : s.Completes v p (new ++ [compOf (x.compWords i l) (s.part p).boundary]) := by
      refine ⟨?_, fun q ne => (State.part_partSet_other _ _ ne).trans (others q ne), ?_⟩
      · show (t.partSet ..).part p = _
        rw [State.part_partSet_same, value, part]
        simp
      · show t.partSet .. = _
        rw [State.partSet, rest]
        rfl
    rw [List.foldl_cons, step]
    obtain ⟨none, done⟩ := ih v _ next (fun k mem => status k (by simp [mem])) (by simpa [Nat.add_assoc, Nat.add_comm 1] using room)
    exact ⟨none, by simpa using done⟩

/-- The form of COMPLETE. -/
def completeForm (i : Insn) : Form := { a := .regs 16, mod := modOnly i 0, drain := true }

section
variable {s : State} {g : GroupId} {i : Insn}

theorem Issues.complete (h : Issues s g i (completeForm i)) :
    let x := s.group (gid g)
    let p := s.groupPart (gid g)
    let ls := lanesOf (x.effective i)
    (∀ l ∈ ls, (x.w l (i.a.toNat + 4)).toNat % 2 ^ 16 ≤ 1) → (s.part p).backlog.length + ls.length ≤ 65536 →
    ∃ t, exec (.complete g i) s = .next t ∧
      (t.part p).backlog = (s.part p).backlog ++ ls.map (fun l => compOf (x.compWords i l) (s.part p).boundary) ∧
      (∀ q, q ≠ p → t.part q = s.part q) ∧ (t.group (gid g)).pc = x.pc + 8 ∧ t.bar4 = s.bar4 := by
  intro x p ls status room
  obtain ⟨u, n, found, issue⟩ := h.begins 0x5E
  have part : ∀ q, u.part q = s.part q := found.frame.part
  obtain ⟨none, done⟩ := State.completeLanes p i (u.group (gid g)) ls u u [] ⟨by simp, fun _ _ => rfl, rfl⟩
    (by rw [found.group]; exact status) (by rw [part]; simpa using room)
  let e := ls.foldl (State.completeLane p i (u.group (gid g))) ([], u)
  have run : exec (.complete g i) s = .next (e.2.pass (gid g)) := by
    refine congrArg Host.Outcome.next ((issue fun s gx eff =>
      let e := (lanesOf eff).foldl (State.completeLane (s.groupPart gx) i (s.group gx)) ([], s)
      if e.1.isEmpty then e.2.pass gx else e.2.laneFaults gx e.1 (decide (e.1.length < (lanesOf eff).length))).trans ?_)
    dsimp only
    rw [found.frame.groupPart]
    exact if_pos (List.isEmpty_iff.2 none)
  have own : e.2.group (gid g) = x.picked 0x5E i n := by
    rw [← found.group, show e.2 = _ from done.rest, State.group, State.group]
  obtain ⟨group, only⟩ := h.pass_found own
  obtain ⟨added, others, rest⟩ := done
  have parts : ∀ q, (e.2.pass (gid g)).part q = e.2.part q := fun q => by
    rw [State.part, only.parts, State.part]
  refine ⟨_, run, ?_, fun q ne => (parts q).trans ((others q ne).trans (part q)), ?_, ?_⟩
  · rw [parts, added, part, List.nil_append, found.group]
    rfl
  · rw [group]
    exact congrArg (x.pc + ·) (h.insnLen_eq (by simp [completeForm]))
  · exact only.bar4.trans ((congrArg State.bar4 rest :).trans found.frame.threadOnly.bar4)


/-! ## PJOB -/

/-- The place of the word of the job record that a lane reads. -/
def Group.jobAt (x : Group) (i : Insn) (l : Nat) : Int := ((x.w l i.a.toNat).toNat : Int) + signed i.imm.toNat 16

/-- Does a lane's word lie in the job record? -/
def Group.jobOkay (x : Group) (i : Insn) (l : Nat) : Bool := decide (0 ≤ x.jobAt i l ∧ x.jobAt i l < 0x840 ∧ x.jobAt i l % 4 = 0)

/-- The form of PJOB. -/
def pjobForm (i : Insn) : Form := { d := .regs 1, a := .regs 1, imm := true, mod := modOnly i 0, drain := true }

/-- What PJOB does with the group that it finds, which holds job `j`. -/
def State.pjob (s : State) (gx : Nat) (i : Insn) (j : Job) (ls : List Nat) : State :=
  let x := s.group gx
  let fails := (ls.filter (fun l => !x.jobOkay i l)).map (fun l => (l, eBounds, 0))
  let s := s.groupSet gx ((ls.filter (x.jobOkay i)).foldl (fun y l => y.wSet l i.d.toNat (j.word (x.jobAt i l).toNat)) x)
  if fails.isEmpty then s.pass gx else s.laneFaults gx fails (decide (fails.length < ls.length))

section
variable {j : Job} (h : Issues s g i (pjobForm i)) (job : (s.group (gid g)).job = some j)
include h job

theorem Issues.pjob : exec (.pjob g i) s =
    .next ((s.readied g 0x5F i).pjob (gid g) i j (lanesOf ((s.group (gid g)).effective i))) := by
  refine congrArg Host.Outcome.next ((h.issue 0x5F fun s gx eff => match (s.group gx).job with
    | none => s.illegal gx
    | some j => s.pjob gx i j (lanesOf eff)).trans ?_)
  have job : ((s.readied g 0x5F i).group (gid g)).job = some j := by
    rw [s.group_readied]
    exact job
  rw [job]

theorem Issues.pjob_writesD (okay : ∀ l, (s.group (gid g)).inEffect i l → (s.group (gid g)).jobOkay i l = true) :
    ∃ t, exec (.pjob g i) s = .next t ∧ writesD s t g 0x5F i (fun y l => j.word (y.jobAt i l).toNat) := by
  let u := s.readied g 0x5F i
  let x := u.group (gid g)
  let ls := lanesOf ((s.group (gid g)).effective i)
  have okay : ∀ l ∈ ls, x.jobOkay i l = true := fun l mem => by
    rw [show x = _ from s.group_readied g 0x5F i]
    exact okay l ((Group.mem_effective ..).1 mem)
  have all : ls.filter (x.jobOkay i) = ls := List.filter_eq_self.2 okay
  have none : ls.filter (fun l => !x.jobOkay i l) = [] := List.filter_eq_nil_iff.2 fun l mem => by simp [okay l mem]
  refine ⟨_, h.pjob job, ?_⟩
  have e : u.pjob (gid g) i j ls =
      (u.groupSet (gid g) (ls.foldl (fun y l => y.wSet l i.d.toNat (j.word (x.jobAt i l).toNat)) x)).pass (gid g) := by
    unfold State.pjob
    dsimp only
    rw [show u.group (gid g) = x from rfl, all, none]
    rfl
  rw [e]
  exact h.acts_writesD 0x5F (v := fun _ l => j.word (x.jobAt i l).toNat) _ (fun _ _ _ _ _ => rfl) fun n l _ => by
    rw [show x = _ from s.group_readied g 0x5F i]
    rfl

/-- The lanes whose word does not lie in the record park the group; the others have read theirs. -/
theorem Issues.pjob_parks (some : ∃ l, (s.group (gid g)).inEffect i l ∧ (s.group (gid g)).jobOkay i l = false) :
    let x := s.group (gid g)
    ∃ t, exec (.pjob g i) s = .next t ∧ (t.group (gid g)).st = .parked ∧ (t.group (gid g)).pc = x.pc ∧
      (mget t.parks (gid g) {}).code = fBusErr ∧ (mget t.parks (gid g) {}).sub = eBounds ∧
      (∀ l, bitOf (mget t.parks (gid g) {}).faults l = true ↔ x.inEffect i l ∧ x.jobOkay i l = false) ∧
      (∀ l, x.inEffect i l → x.jobOkay i l = true → (t.group (gid g)).w l i.d.toNat = j.word (x.jobAt i l).toNat) := by
  intro x
  let u := s.readied g 0x5F i
  have found : s.Found u g 0x5F i _ := s.readied_found g 0x5F i
  let z := u.group (gid g)
  let ls := lanesOf (x.effective i)
  have at_ : ∀ l, z.jobAt i l = x.jobAt i l := fun l => by rw [show z = _ from found.group]; rfl
  have same : ∀ l, z.jobOkay i l = x.jobOkay i l := fun l => by rw [show z = _ from found.group]; rfl
  let bad := ls.filter (fun l => !z.jobOkay i l)
  have mem_bad : ∀ l, l ∈ bad ↔ x.inEffect i l ∧ x.jobOkay i l = false := fun l => by
    simp [bad, ls, List.mem_filter, Group.mem_effective, same]
  obtain ⟨b, bs, hb⟩ : ∃ b bs, bad = b :: bs := by
    obtain ⟨l, fails⟩ := some
    cases hb : bad with
    | nil =>
      have := (mem_bad l).2 fails
      rw [hb] at this
      cases this
    | cons b bs => exact ⟨b, bs, rfl⟩
  obtain ⟨only, written, -⟩ := Group.foldl_wSet (x := z) (v := fun _ l => j.word (z.jobAt i l).toNat) (fun _ _ _ _ => rfl)
    (d := i.d.toNat) i.d.isLt (ls.filter (z.jobOkay i)) ((lanesOf_nodup _).filter _) z rfl fun _ _ _ _ => rfl
  let y := (ls.filter (z.jobOkay i)).foldl (fun y l => y.wSet l i.d.toNat (j.word (z.jobAt i l).toNat)) z
  let v := u.groupSet (gid g) y
  let fails := bad.map (fun l => (l, eBounds, 0))
  have e : u.pjob (gid g) i j ls = v.laneFaults (gid g) fails (decide (fails.length < ls.length)) := by
    have some : fails.isEmpty = false := by simp [fails, hb]
    exact if_neg (by rw [show (List.map _ _).isEmpty = false from some]; simp)
  have own : v.group (gid g) = y := State.group_groupSet_same ..
  obtain ⟨-, group, -, tells⟩ := v.parkAt_parksAs (gid g) fBusErr (fails.headD (0, 0, 0)).2.1 (maskOf (fails.map (·.1)))
    (fails.headD (0, 0, 0)).2.2 false (v.group (gid g)).pc (v.group (gid g)).word (decide (fails.length < ls.length))
  have pc : y.pc = x.pc := by
    rw [show y = _ from only, show z = _ from found.group]
    rfl
  refine ⟨_, (h.pjob job).trans (congrArg Host.Outcome.next e), ?_, ?_, tells.code, ?_, fun l => ?_, fun l eff okay => ?_⟩
  · rw [State.laneFaults, group]
    rfl
  · rw [State.laneFaults, group, own]
    exact pc
  · rw [State.laneFaults, tells.sub]
    simp [fails, hb]
  · rw [State.laneFaults, tells.faults]
    have lanes : fails.map (·.1) = bad := by simp [fails, Function.comp_def]
    rw [lanes, ← mem_bad]
    have small : ∀ k ∈ bad, k < 32 := fun k mem => ((mem_bad k).1 mem).1.2.1
    exact bitOf_maskOf_iff small
  · rw [State.laneFaults, group, own]
    exact (written l (List.mem_filter.2 ⟨(Group.mem_effective ..).2 eff, (same l).trans okay⟩)).trans (by rw [at_])

end

end

/-- Settles O17. -/
theorem stepInstructions : Obligations.StepInstructions := by
  unfold Obligations.StepInstructions
  intro g i s x p list
  refine ⟨fun mod imm h => ?_, fun mod aligned low h => ?_, fun h status room => ?_, fun j job => ?_⟩
  · have plain : modBit i 0 = false := by rw [modBit, mod]; rfl
    have form : admForm i = { d := .regs 1 } := by
      have ok : (modOnly i 1 && i.imm.toNat % 4 == 0 && decide (i.imm.toNat < 64)) = true := by simp [modOnly, mod, imm]
      rw [admForm, plain]
      exact congrArg (fun b => ({ d := .regs 1, mod := b } : Form)) ok
    obtain ⟨t, run, written⟩ := Issues.adm (form ▸ h)
    exact ⟨t, run, writesD_congr written fun x l => if_neg (by simp [plain])⟩
  · have word : modBit i 0 = true := by rw [modBit, mod]; rfl
    have form : admForm i = { d := .regs 1, a := .regs 1, imm := true } := by
      have ok : (modOnly i 1 && i.imm.toNat % 4 == 0 && decide (i.imm.toNat < 64)) = true := by simp [modOnly, mod, aligned, low]
      rw [admForm, word]
      exact congrArg (fun b => ({ d := .regs 1, a := .regs 1, imm := true, mod := b } : Form)) ok
    obtain ⟨t, run, written⟩ := Issues.adm (form ▸ h)
    exact ⟨t, run, writesD_congr written fun x l => if_pos word⟩
  · exact Issues.complete h (fun l mem => status l ((Group.mem_effective ..).1 mem)) room
  · intro off okay h
    refine ⟨fun all => Issues.pjob_writesD h job fun l eff => decide_eq_true (all l eff), ?_⟩
    rintro ⟨l, eff, outside⟩
    obtain ⟨t, run, st, pc, code, sub, faults, written⟩ := Issues.pjob_parks h job ⟨l, eff, decide_eq_false outside⟩
    exact ⟨t, run, st, pc, code, sub, fun l => (faults l).trans (and_congr_right' decide_eq_false_iff_not),
      fun l eff inside => written l eff (decide_eq_true inside)⟩

end Sys2Proof.Machine

namespace Sys2Proof.Machine

/-! # Memory instructions of the threads (R175 to R181, R203 to R208) -/

/-! ## The accesses of lanes -/

/-- A step that gives each lane an access, or lets it fail. -/
def splitsLanes (step : List LaneAcc × List (Nat × Nat × Nat) → Nat → List LaneAcc × List (Nat × Nat × Nat)) : Prop :=
  ∀ t l, (∃ a : LaneAcc, a.lane = l ∧ step t l = (t.1 ++ [a], t.2)) ∨ (∃ c a, step t l = (t.1, t.2 ++ [(l, c, a)]))

theorem splitsLanes.perm {step : List LaneAcc × List (Nat × Nat × Nat) → Nat → List LaneAcc × List (Nat × Nat × Nat)}
    (h : splitsLanes step) (ls : List Nat) (t : List LaneAcc × List (Nat × Nat × Nat)) :
    ((ls.foldl step t).1.map (·.lane) ++ (ls.foldl step t).2.map (·.1)).Perm (t.1.map (·.lane) ++ t.2.map (·.1) ++ ls) := by
  induction ls generalizing t with
  | nil => simp
  | cons l ls ih =>
    refine (ih _).trans ?_
    obtain ⟨a, rfl, e⟩ | ⟨c, a, e⟩ := h t l
    · rw [e]
      simp only [List.map_append, List.map_cons, List.map_nil, List.append_assoc, List.singleton_append]
      exact List.Perm.append_left _ List.perm_middle.symm
    · rw [e]
      simp

theorem Group.accesses_perm (x : Group) (i : Insn) (eff : BitVec 32) (w nb : Nat) :
    ((x.accesses i eff w nb).1.map (·.lane) ++ (x.accesses i eff w nb).2.map (·.1)).Perm (lanesOf eff) := by
  refine (splitsLanes.perm (fun t l => ?_) (lanesOf eff) ([], [])).trans (by simp)
  dsimp only
  split
  · exact .inr ⟨_, _, rfl⟩
  · split
    · exact .inr ⟨_, _, rfl⟩
    · exact .inl ⟨_, rfl, rfl⟩

theorem Group.stagingAccs_perm (x : Group) (i : Insn) (eff : BitVec 32) (n : Nat) :
    ((x.stagingAccs i eff n).1.map (·.lane) ++ (x.stagingAccs i eff n).2.map (·.1)).Perm (lanesOf eff) := by
  refine (splitsLanes.perm (fun t l => ?_) (lanesOf eff) ([], [])).trans (by simp)
  dsimp only
  split
  · exact .inr ⟨_, _, rfl⟩
  · split
    · exact .inr ⟨_, _, rfl⟩
    · exact .inl ⟨_, rfl, rfl⟩

theorem Group.wide_of_regs {x y : Group} (h : y.regs = x.regs) (l r n : Nat) : y.wide l r n = x.wide l r n := by
  induction n generalizing r with
  | zero => rfl
  | succ n ih => rw [Group.wide, ih, Group.w, h, Group.wide, Group.w]

/-- The registers decide the accesses. -/
theorem Group.accesses_of_regs {x y : Group} (h : y.regs = x.regs) (i : Insn) (eff : BitVec 32) (w nb : Nat) :
    y.accesses i eff w nb = x.accesses i eff w nb := by
  unfold Group.accesses Group.memAddr
  simp only [Group.wide_of_regs h]

theorem Group.stagingAccs_of_regs {x y : Group} (h : y.regs = x.regs) (i : Insn) (eff : BitVec 32) (n : Nat) :
    y.stagingAccs i eff n = x.stagingAccs i eff n := by
  unfold Group.stagingAccs
  have w : ∀ l r, y.w l r = x.w l r := fun l r => by rw [Group.w, h, Group.w]
  simp only [Group.wide_of_regs h, w]

theorem State.Found.accesses {s u : State} {g : GroupId} {op : Nat} {i : Insn} {n : Nat} (h : s.Found u g op i n) (j : Insn)
    (eff : BitVec 32) (w nb : Nat) : (u.group (gid g)).accesses j eff w nb = (s.group (gid g)).accesses j eff w nb :=
  Group.accesses_of_regs (by rw [h.group]; rfl) ..

theorem State.Found.stagingAccs {s u : State} {g : GroupId} {op : Nat} {i : Insn} {n : Nat} (h : s.Found u g op i n) (j : Insn)
    (eff : BitVec 32) (w : Nat) : (u.group (gid g)).stagingAccs j eff w = (s.group (gid g)).stagingAccs j eff w :=
  Group.stagingAccs_of_regs (by rw [h.group]; rfl) ..

theorem lanesOf_length (m : BitVec 32) : (lanesOf m).length ≤ 32 := by
  have := List.length_filter_le (fun i => bitOf m.toNat i) (List.range 32)
  rwa [List.length_range] at this

/-- No more accesses than lanes. -/
theorem length_le_of_perm {as : List LaneAcc} {fs : List (Nat × Nat × Nat)} {m : BitVec 32}
    (h : (as.map (·.lane) ++ fs.map (·.1)).Perm (lanesOf m)) : as.length ≤ 32 := by
  have := h.length_eq
  have := lanesOf_length m
  simp only [List.length_append, List.length_map] at *
  omega

/-! ## Requests -/

theorem mem_classes (key : LaneAcc → Nat) (n : Nat) (as : List LaneAcc) (h : as.length ≤ n) (a : LaneAcc) :
    a ∈ as ↔ ∃ c ∈ classes key n as, a ∈ c := by
  induction n generalizing as with
  | zero => simp [List.length_eq_zero_iff.1 (Nat.le_zero.1 h), classes]
  | succ n ih =>
    cases as with
    | nil => simp [classes]
    | cons b bs =>
      have short : (bs.filter (fun c => key c != key b)).length ≤ n :=
        (List.length_filter_le ..).trans (Nat.le_of_succ_le_succ h)
      simp only [classes, List.mem_cons, exists_eq_or_imp, ← ih _ short, List.mem_filter]
      by_cases same : key a = key b <;> simp [same]

/-- A class begins with one of the accesses. -/
theorem classes_head (key : LaneAcc → Nat) (n : Nat) (as : List LaneAcc) {c : List LaneAcc} (h : c ∈ classes key n as) :
    ∃ a ∈ as, ∃ r, c = a :: r := by
  induction n generalizing as with
  | zero => simp [classes] at h
  | succ n ih =>
    cases as with
    | nil => simp [classes] at h
    | cons b bs =>
      rw [classes, List.mem_cons] at h
      obtain rfl | h := h
      · exact ⟨b, by simp, _, rfl⟩
      · obtain ⟨a, mem, r, e⟩ := ih _ h
        exact ⟨a, List.mem_cons_of_mem _ (List.mem_filter.1 mem).1, r, e⟩

/-- How accesses of a kind are put together to requests (R175, R181, R347). -/
def ReqKind.key (kind : ReqKind) (accs : List LaneAcc) : LaneAcc → Nat :=
  match kind with
  | .load _ _ _ => fun a => a.addr / 128
  | .store n => fun a => if isRemote a.addr then runStart accs n a.addr + 2 ^ 48 else a.addr / 128
  | .staged _ _ => fun _ => 0
  | _ => fun a => a.addr

/-- The requests that an instruction becomes. -/
def requestsOf (kind : ReqKind) (dst id : Nat) (accs : List LaneAcc) : List MemReq :=
  (classes (kind.key accs) 33 accs).map (fun ls => ⟨id, kind, dst, ls, none⟩)

theorem mem_requestsOf {kind : ReqKind} {dst id : Nat} {accs : List LaneAcc} (short : accs.length ≤ 33) (a : LaneAcc) :
    a ∈ accs ↔ ∃ r ∈ requestsOf kind dst id accs, a ∈ r.lanes := by
  simp [requestsOf, mem_classes (kind.key accs) 33 accs short]

theorem of_mem_requestsOf {kind : ReqKind} {dst id : Nat} {accs : List LaneAcc} {r : MemReq} (h : r ∈ requestsOf kind dst id accs) :
    r.kind = kind ∧ r.dst = dst ∧ r.remote = none ∧ ∃ a ∈ accs, ∃ rest, r.lanes = a :: rest := by
  obtain ⟨c, mem, rfl⟩ := List.mem_map.1 h
  exact ⟨rfl, rfl, rfl, classes_head _ _ _ mem⟩

/-- Every access is local, or the kind goes to staging memory. -/
def ReqKind.near (kind : ReqKind) (accs : List LaneAcc) : Prop := anyRemote accs = false ∨ ∃ n b, kind = .staged n b

theorem ReqKind.near.not_remote {kind : ReqKind} {dst id : Nat} {accs : List LaneAcc} (h : kind.near accs) {r : MemReq}
    (mem : r ∈ requestsOf kind dst id accs) : r.isRemote = false := by
  obtain ⟨rfl, -, -, a, mem, rest, lanes⟩ := of_mem_requestsOf mem
  obtain near | ⟨n, b, staged⟩ := h
  · have here : isRemote a.addr = false := by simpa using List.any_eq_false.1 near a mem
    unfold MemReq.isRemote
    split
    · rfl
    · rw [lanes]
      exact here
  · unfold MemReq.isRemote
    rw [staged]

/-- A request to this module is not sent. -/
theorem State.trySend_local {s : State} {gx k : Nat} (h : ∀ r, (s.group gx).reqs[k]? = some r → r.isRemote = false) :
    s.trySend gx k = s := by
  unfold State.trySend
  dsimp only
  split
  · rfl
  · next r e => simp [h r e]

/-- Nothing is sent of requests that are all local. -/
theorem State.trySends_local {s : State} {gx first : Nat} {new : List MemReq} (reqs : ∃ old, (s.group gx).reqs = old ++ new ∧ old.length = first)
    (here : ∀ r ∈ new, r.isRemote = false) (ks : List Nat) :
    ks.foldl (fun u i => u.trySend gx (first + i)) s = s := by
  obtain ⟨old, reqs, rfl⟩ := reqs
  refine List.foldlRecOn (motive := fun u => u = s) ks _ rfl fun u hu k _ => ?_
  subst hu
  refine State.trySend_local fun r e => here r ?_
  rw [reqs, List.getElem?_append_right (by omega), Nat.add_sub_cancel_left] at e
  exact List.mem_of_getElem? e

/-- A group with the requests of an instruction. -/
def Group.requesting (x : Group) (new : List MemReq) (o : OpenOp) : Group :=
  { x with reqs := x.reqs ++ new, ops := mput x.ops x.nextOp o, nextOp := x.nextOp + 1 }

/-- The instruction under way, as its requests find it. -/
def Group.openOp (x : Group) (progress done : Bool) (fails : List (Nat × Nat × Nat)) : OpenOp :=
  fails.foldl (fun q f => q.fail f.1 f.2.1 f.2.2) ⟨x.pc, x.word, x.replay.getD x.active, x.stack, 0, 0, 0, done, progress⟩

/-- Does the kind hold its group (CLAMP.ACQ)? -/
def ReqKind.holds : ReqKind → Bool
  | .acquire _ _ _ => true
  | _ => false

theorem State.memIssue_eq (s : State) (gx : Nat) {kind : ReqKind} (goes : kind.holds = false) (dst : Nat) (progress done : Bool)
    (accs : List LaneAcc) (fails : List (Nat × Nat × Nat)) :
    s.memIssue gx kind dst progress done accs fails =
      let x := s.group gx
      let new := requestsOf kind dst x.nextOp accs
      let u := (s.groupSet gx (x.requesting new (x.openOp progress done fails))).pass gx
      let v := ((List.range new.length).reverse).foldl (fun u i => u.trySend gx (x.reqs.length + i)) u
      if new.isEmpty then v.opEnd gx x.nextOp kind else v := by
  cases kind with
  | acquire => cases goes
  | _ => rfl

theorem State.memIssue_acquire (s : State) (gx qd pc rpc dst : Nat) (progress done : Bool) (accs : List LaneAcc)
    (fails : List (Nat × Nat × Nat)) : s.memIssue gx (.acquire qd pc rpc) dst progress done accs fails =
      let x := s.group gx
      let new := requestsOf (.acquire qd pc rpc) dst x.nextOp accs
      let u := (s.groupSet gx (x.requesting new (x.openOp progress done fails))).groupMap gx
        (fun y => { y with st := if new.isEmpty then y.st else .busy })
      let v := ((List.range new.length).reverse).foldl (fun u i => u.trySend gx (x.reqs.length + i)) u
      if new.isEmpty then v.opEnd gx x.nextOp (.acquire qd pc rpc) else v := rfl

theorem requestsOf_ne_nil {kind : ReqKind} {dst id : Nat} {accs : List LaneAcc} (some : accs ≠ []) :
    requestsOf kind dst id accs ≠ [] := by
  cases accs with
  | nil => exact absurd rfl some
  | cons a as => simp [requestsOf, classes]

section
variable {s u : State} {g : GroupId} {i : Insn} {f : Form} {op n : Nat}

/-- The group goes on behind the instruction with its requests outstanding. -/
theorem Issues.sendsAll (h : Issues s g i f) (found : s.Found u g op i n) {kind : ReqKind} (goes : kind.holds = false) (dst : Nat)
    (progress done : Bool) {accs : List LaneAcc} (short : accs.length ≤ 32) (some : accs ≠ []) (near : kind.near accs) :
    sends s (u.memIssue (gid g) kind dst progress done accs []) g i kind dst accs := by
  let x := (s.group (gid g)).picked op i n
  let new := requestsOf kind dst x.nextOp accs
  let y := x.requesting new (x.openOp progress done [])
  have passes := h.pass (u := u.groupSet (gid g) y) (State.group_groupSet_same ..) rfl rfl rfl rfl
  have e : u.memIssue (gid g) kind dst progress done accs [] = (u.groupSet (gid g) y).pass (gid g) := by
    have own : ((u.groupSet (gid g) y).pass (gid g)).group (gid g) = y.passed := by
      rw [passes]
      exact State.group_groupSet_same ..
    have unsent := State.trySends_local (s := (u.groupSet (gid g) y).pass (gid g)) (gx := gid g) (first := x.reqs.length) (new := new)
      ⟨x.reqs, by rw [own]; rfl, rfl⟩ (fun r mem => near.not_remote mem) (List.range new.length).reverse
    rw [State.memIssue_eq _ _ goes]
    dsimp only
    rw [found.group, if_neg (by simpa using requestsOf_ne_nil some)]
    exact unsent
  rw [e, passes]
  unfold sends
  dsimp only
  rw [State.group_groupSet_same]
  refine ⟨⟨new, rfl, fun a => mem_requestsOf (by omega) a, fun r mem => ?_⟩, rfl, rfl, rfl, rfl,
    ((found.frame.groupSet _).groupSet _).groupSet _⟩
  obtain ⟨hk, hd, hr, -⟩ := of_mem_requestsOf mem
  exact ⟨hk, hd, hr⟩

/-- CLAMP.ACQ holds its group until its requests are answered. -/
theorem Issues.acquires (h : Issues s g i f) (drain : f.drain = true) (found : s.Found u g op i n) (qd pc rpc dst : Nat)
    (progress done : Bool) {accs : List LaneAcc} (short : accs.length ≤ 32) (some : accs ≠ []) (near : anyRemote accs = false) :
    let t := u.memIssue (gid g) (.acquire qd pc rpc) dst progress done accs []
    (t.group (gid g)).st = .busy ∧ (t.group (gid g)).pc = (s.group (gid g)).pc ∧
      (∀ a, a ∈ accs ↔ ∃ r ∈ (t.group (gid g)).reqs, a ∈ r.lanes) ∧ issueFrame s t g i := by
  let x := (s.group (gid g)).picked op i n
  let kind : ReqKind := .acquire qd pc rpc
  let new := requestsOf kind dst x.nextOp accs
  let y : Group := { x.requesting new (x.openOp progress done []) with st := .busy }
  have idle : (s.group (gid g)).reqs = [] := by
    have free := h.operands
    simp only [Group.hazard, drain] at free
    simpa using (Bool.or_eq_false_iff.1 (Bool.or_eq_false_iff.1 free).1).1
  have busy : new.isEmpty = false := by simpa using requestsOf_ne_nil some
  let v := (u.groupSet (gid g) (x.requesting new (x.openOp progress done []))).groupSet (gid g) y
  have own : v.group (gid g) = y := State.group_groupSet_same ..
  have e : u.memIssue (gid g) kind dst progress done accs [] = v := by
    have unsent := State.trySends_local (s := v) (gx := gid g) (first := x.reqs.length) (new := new)
      ⟨x.reqs, by rw [own]; rfl, rfl⟩ (fun r mem => ReqKind.near.not_remote (.inl near) mem) (List.range new.length).reverse
    have held : (u.groupSet (gid g) (x.requesting new (x.openOp progress done []))).groupMap (gid g)
        (fun y => { y with st := if new.isEmpty then y.st else .busy }) = v := by
      rw [State.groupMap, State.group_groupSet_same, busy]
      rfl
    rw [State.memIssue_acquire]
    dsimp only
    rw [found.group, if_neg (by simpa using busy), held]
    exact unsent
  dsimp only
  rw [e, own]
  refine ⟨rfl, rfl, fun a => ?_, (found.frame.groupSet _).groupSet _⟩
  have reqs : y.reqs = new := by
    show (s.group (gid g)).reqs ++ new = new
    rw [idle, List.nil_append]
  rw [reqs]
  exact mem_requestsOf (by omega) a

end

/-- Every effective lane of an instruction has an access, each in range, aligned and local. -/
structure Group.reaches (x : Group) (i : Insn) (w nb : Nat) : Prop where
  sound : (x.accesses i (x.effective i) w nb).2 = []
  lanes : (x.accesses i (x.effective i) w nb).1 ≠ []
  near : anyRemote (x.accesses i (x.effective i) w nb).1 = false

/-- An instruction that makes requests of its lanes' accesses, where none is remote. -/
theorem Issues.sends_accesses {s : State} {g : GroupId} {i : Insn} {f : Form} (h : Issues s g i f) (op : Nat) {kind : ReqKind}
    (goes : kind.holds = false) {dst : Nat} {progress : Bool} {w nb : Nat} (reach : (s.group (gid g)).reaches i w nb)
    {body : State → Nat → BitVec 32 → State} (acts : ∀ u gx eff, anyRemote ((u.group gx).accesses i eff w nb).1 = false →
      body u gx eff = u.memIssue gx kind dst progress false ((u.group gx).accesses i eff w nb).1
        ((u.group gx).accesses i eff w nb).2) :
    sends s (s.issue g op i f body) g i kind dst ((s.group (gid g)).accesses i ((s.group (gid g)).effective i) w nb).1 := by
  obtain ⟨u, n, found, issue⟩ := h.begins op
  let x := s.group (gid g)
  have same := found.accesses i (x.effective i) w nb
  rw [issue, acts _ _ _ (by rw [same]; exact reach.near), same, reach.sound]
  exact h.sendsAll found goes dst progress false (length_le_of_perm (x.accesses_perm i _ w nb)) reach.lanes (.inl reach.near)

/-- Settles O12: each instruction is `State.memIssue` on its lanes' accesses. -/
theorem memoryInstructionsSend : Obligations.MemoryInstructionsSend := by
  unfold Obligations.MemoryInstructionsSend
  intro g i s x acc local_ n
  have reach : ∀ {w nb}, local_ w nb → x.reaches i w nb := fun ⟨sound, lanes, near⟩ => ⟨sound, lanes, near⟩
  refine ⟨fun h here => ⟨_, rfl, ?_⟩, fun h here => ⟨_, rfl, ?_⟩, fun h here => ⟨_, rfl, ?_⟩, fun h here => ⟨_, rfl, ?_⟩, ?_, ?_⟩
  · exact h.sends_accesses 0x50 (progress := false) rfl (reach here) fun _ _ _ _ => rfl
  · exact h.sends_accesses 0x51 (progress := true) rfl (reach here) fun _ _ _ _ => rfl
  · exact h.sends_accesses 0x5A (progress := true) rfl (reach here) fun _ _ _ near => if_neg (ne_true_of_eq_false near)
  · exact h.sends_accesses 0x5B (progress := true) rfl (reach here) fun _ _ _ _ => rfl
  · intro op ty k f h here
    exact ⟨_, rfl, h.sends_accesses 0x58 (progress := true) rfl (reach here) fun _ _ _ _ => rfl⟩
  · intro f a4 h sound lanes near
    obtain ⟨u, m, found, issue⟩ := h.begins 0x59
    have same : (u.group (gid g)).accesses { i with ext := none } (x.effective i) 4 0 = a4 := found.accesses ..
    have run := issue fun s gx eff =>
      if anyRemote ((s.group gx).accesses { i with ext := none } eff 4 0).1 then s.illegal gx
      else s.memIssue gx
        (.acquire i.d.toNat (s.group gx).pc (pcPlus (s.group gx).pc ((i.ext.getD 0).toNat / 2 ^ 32))) 0 true false
        ((s.group gx).accesses { i with ext := none } eff 4 0).1 ((s.group gx).accesses { i with ext := none } eff 4 0).2
    rw [same, if_neg (by simp [near]), sound] at run
    exact ⟨_, congrArg Host.Outcome.next run, h.acquires rfl found _ _ _ _ _ _
      (length_le_of_perm (x.accesses_perm { i with ext := none } _ 4 0)) lanes near⟩

end Sys2Proof.Machine

namespace Sys2Proof.Machine

/-! # Lanes that fail, and staging memory (R176, R179, R204) -/

/-! ## The failing lanes of an instruction -/

theorem OpenOp.failed_fails (fs : List (Nat × Nat × Nat)) (o : OpenOp) :
    (fs.foldl (fun q f => q.fail f.1 f.2.1 f.2.2) o).failed =
      (fs.map (·.1)).foldl (fun m l => m ||| BitVec.ofNat 32 (2 ^ l)) o.failed := by
  induction fs generalizing o with
  | nil => rfl
  | cons f fs ih => rw [List.foldl_cons, ih]; rfl

/-- Failing lanes note themselves alone. -/
theorem OpenOp.fails_rest (fs : List (Nat × Nat × Nat)) (o : OpenOp) : ∃ m c a,
    fs.foldl (fun q f => q.fail f.1 f.2.1 f.2.2) o = { o with failed := m, code := c, addr := a } := by
  induction fs generalizing o with
  | nil => exact ⟨_, _, _, rfl⟩
  | cons f fs ih =>
    obtain ⟨m, c, a, e⟩ := ih (o.fail f.1 f.2.1 f.2.2)
    exact ⟨m, c, a, by rw [List.foldl_cons, e]; rfl⟩

theorem foldl_or_ne_zero {ls : List Nat} {m : BitVec 32} (h : m ≠ 0 ∨ ∃ l ∈ ls, l < 32) :
    ls.foldl (fun m l => m ||| BitVec.ofNat 32 (2 ^ l)) m ≠ 0 := by
  intro zero
  have bit : ∀ l, l < 32 → (m.getLsbD l || decide (l ∈ ls)) = false := fun l lt => by
    rw [← getLsbD_foldl_maskOf ls m l lt, zero]
    simp
  obtain some | ⟨l, mem, lt⟩ := h
  · refine some (BitVec.eq_of_getLsbD_eq fun l lt => ?_)
    simpa using (Bool.or_eq_false_iff.1 (bit l lt)).1
  · simpa [mem] using bit l lt

/-- The code that came first is kept. -/
theorem OpenOp.code_fails (fs : List (Nat × Nat × Nat)) (o : OpenOp) (h : o.failed ≠ 0) :
    (fs.foldl (fun q f => q.fail f.1 f.2.1 f.2.2) o).code = o.code := by
  induction fs generalizing o with
  | nil => rfl
  | cons f fs ih =>
    have still : (o.fail f.1 f.2.1 f.2.2).failed ≠ 0 := foldl_or_ne_zero (ls := [f.1]) (.inl h)
    rw [List.foldl_cons, ih _ still]
    exact if_neg h

/-- What failing lanes leave of an instruction none of whose lanes had failed. -/
structure OpenOp.failsWith (o q : OpenOp) (fs : List (Nat × Nat × Nat)) : Prop where
  some : q.failed ≠ 0
  lanes : q.failed = maskOf (fs.map (·.1))
  code : q.code = (fs.headD (0, 0, 0)).2.1
  pc : q.pc = o.pc

theorem OpenOp.fails_failsWith (o : OpenOp) (clear : o.failed = 0) (f : Nat × Nat × Nat) (fs : List (Nat × Nat × Nat)) (lt : f.1 < 32) :
    o.failsWith ((f :: fs).foldl (fun q f => q.fail f.1 f.2.1 f.2.2) o) (f :: fs) := by
  have lanes := OpenOp.failed_fails (f :: fs) o
  obtain ⟨m, c, a, e⟩ := OpenOp.fails_rest (f :: fs) o
  refine ⟨?_, lanes.trans (by rw [clear]; rfl), ?_, by rw [e]⟩
  · rw [lanes]
    exact foldl_or_ne_zero (.inr ⟨f.1, by simp, lt⟩)
  · have first : (o.fail f.1 f.2.1 f.2.2).failed ≠ 0 := foldl_or_ne_zero (ls := [f.1]) (.inr ⟨f.1, by simp, lt⟩)
    rw [List.foldl_cons, OpenOp.code_fails _ _ first]
    exact if_pos clear

/-! ## A finished instruction with failing lanes parks its group -/

/-- With nothing in flight, a failing instruction parks its group at it. -/
theorem State.parkDue_parks {s : State} {gx id : Nat} {q : OpenOp} (idle : (s.group gx).reqs = []) (st : (s.group gx).st ≠ .parked)
    (op : (s.group gx).ops = [(id, q)]) (failed : q.failed ≠ 0) :
    (s.groupSet gx { s.group gx with pc := q.pc, active := q.mask, stack := q.stack, replay := none, ops := [] }).ParksAs
      (s.parkDue gx) gx fBusErr q.code q.failed.toNat q.pc false := by
  have e : s.parkDue gx = (s.groupSet gx { s.group gx with
      pc := q.pc, active := q.mask, stack := q.stack, replay := none, ops := [] }).parkAt gx fBusErr q.code q.failed q.addr false
        q.pc q.word q.done := by
    have failed : q.failed ≠ 0#32 := failed
    simp [State.parkDue, idle, st, op, failed]
  rw [e]
  exact State.parkAt_parksAs ..

theorem State.opEnd_parks {s : State} {gx id : Nat} {q : OpenOp} {kind : ReqKind} (goes : kind.holds = false)
    (idle : (s.group gx).reqs = []) (op : (s.group gx).ops = [(id, q)]) (failed : q.failed ≠ 0) :
    s.opEnd gx id kind = s.parkDue gx := by
  have found : mfind (s.group gx).ops id = some q := by simp [op, mfind]
  have failed : q.failed ≠ 0#32 := failed
  cases kind with
  | acquire => cases goes
  | _ => simp [State.opEnd, idle, found, failed]

/-- An instruction without an access, all of whose lanes fail, parks a group with nothing in flight. -/
theorem Issues.memIssue_parks {s u : State} {g : GroupId} {i : Insn} {f : Form} {op n : Nat} (h : Issues s g i f)
    (found : s.Found u g op i n) (idle : (s.group (gid g)).reqs = []) (free : (s.group (gid g)).ops = []) {kind : ReqKind}
    (goes : kind.holds = false) (dst : Nat) (progress done : Bool) {fails : List (Nat × Nat × Nat)} (some : fails ≠ [])
    (lanes : ∀ e ∈ fails, e.1 < 32) :
    let t := u.memIssue (gid g) kind dst progress done [] fails
    s.threadOnly t ∧ (t.group (gid g)).st = .parked ∧ (t.group (gid g)).pc = (s.group (gid g)).pc ∧
      (mget t.parks (gid g) {}).code = fBusErr ∧ (mget t.parks (gid g) {}).pc = (s.group (gid g)).pc ∧
      (mget t.parks (gid g) {}).faults = (maskOf (fails.map (·.1))).toNat := by
  let x := (s.group (gid g)).picked op i n
  let q := x.openOp progress done fails
  let y := x.requesting [] q
  obtain ⟨e, es, rfl⟩ := List.exists_cons_of_ne_nil some
  have fails : OpenOp.failsWith _ q (e :: es) := OpenOp.fails_failsWith _ rfl e es (lanes e (by simp))
  obtain ⟨v, passed, own, before⟩ : ∃ v, (u.groupSet (gid g) y).pass (gid g) = v ∧ v.group (gid g) = y.passed ∧ s.threadOnly v := by
    refine ⟨_, h.pass (State.group_groupSet_same ..) rfl rfl rfl rfl, State.group_groupSet_same .., ?_⟩
    exact (((found.frame.groupSet _).groupSet _).groupSet _).threadOnly
  have idle : (v.group (gid g)).reqs = [] := by
    rw [own]
    show (s.group (gid g)).reqs ++ [] = []
    rw [idle]
    rfl
  have ops : (v.group (gid g)).ops = [(x.nextOp, q)] := by
    rw [own]
    show mput (s.group (gid g)).ops x.nextOp q = _
    rw [free]
    rfl
  have run : u.memIssue (gid g) kind dst progress done [] (e :: es) = v.parkDue (gid g) := by
    rw [State.memIssue_eq _ _ goes, found.group]
    refine Eq.trans ?_ (State.opEnd_parks goes idle ops fails.some)
    rw [← passed]
    rfl
  obtain ⟨only, group, -, tells⟩ := State.parkDue_parks idle (by rw [own]; exact SlotState.noConfusion) ops fails.some
  dsimp only
  rw [run]
  refine ⟨before.trans only, by rw [group]; rfl, ?_, tells.code, tells.pc.trans fails.pc, by rw [tells.faults, fails.lanes]⟩
  rw [group, State.group_groupSet_same]
  exact fails.pc

/-- Settles O13: with every lane failing there is no request, and the instruction ends at once. -/
theorem failingLanesPark : Obligations.FailingLanesPark := by
  unfold Obligations.FailingLanesPark
  intro g i s x n a h idle free none some
  obtain ⟨u, m, found, issue⟩ := h.begins 0x50
  have run := issue fun s gx eff => s.memIssue gx (.load n (modBit i 3) (modBit i 4)) i.d.toNat false false
    ((s.group gx).accesses i eff n 0).1 ((s.group gx).accesses i eff n 0).2
  rw [found.accesses, show (Group.accesses _ i _ n 0).1 = [] from none] at run
  have perm := x.accesses_perm i (x.effective i) n 0
  rw [show (x.accesses i _ n 0).1 = [] from none, List.map_nil, List.nil_append] at perm
  have lanes : ∀ e ∈ a.2, e.1 < 32 := fun e mem => lt_of_mem_lanesOf (perm.mem_iff.1 (List.mem_map_of_mem mem))
  obtain ⟨only, st, pc, code, rpc, faults⟩ := h.memIssue_parks found idle free (kind := .load n (modBit i 3) (modBit i 4)) rfl
    i.d.toNat false false some lanes
  refine ⟨_, congrArg Host.Outcome.next run, st, pc, code, rpc, fun l => ?_, only.hbm, only.lin, only.staging, only.bar4⟩
  rw [faults, bitOf_maskOf_iff (by simpa using fun l b c mem => lanes (l, b, c) mem), ← Group.mem_effective]
  exact perm.mem_iff

end Sys2Proof.Machine

namespace Sys2Proof.Machine

/-! ## An instruction whose lanes have not failed ends without a park -/

theorem of_mem_mdel {α : Type} {m : List (Nat × α)} {k : Nat} {e : Nat × α} (h : e ∈ mdel m k) : e ∈ m := by
  rw [mdel_eq_filter] at h
  exact (List.mem_filter.1 h).1

theorem mem_of_mfind {α : Type} {m : List (Nat × α)} {k : Nat} {v : α} (h : mfind m k = some v) : (k, v) ∈ m := by
  induction m with
  | nil => cases h
  | cons e r ih =>
    obtain ⟨i, w⟩ := e
    rw [mfind] at h
    split at h
    · next same => simp_all
    · exact List.mem_cons_of_mem _ (ih h)

/-- No lane of an instruction of the group has failed. -/
def Group.unfailed (x : Group) : Prop := ∀ o ∈ x.ops, o.2.failed = 0

theorem State.parkDue_quiet {s : State} {gx : Nat} (sound : (s.group gx).unfailed) (running : (s.group gx).expired = false) :
    s.parkDue gx = s := by
  have none : (s.group gx).ops.find? (fun o => o.2.failed != 0) = none :=
    List.find?_eq_none.2 fun o mem => by simp [sound o mem]
  unfold State.parkDue
  dsimp only
  rw [none]
  simp [running]

/-- A group whose instruction `id` has retired. -/
def Group.retired (x : Group) (id : Nat) (o : OpenOp) : Group :=
  { x with ops := mdel x.ops id, wdog := if o.progress && o.mask != 0 then 0 else x.wdog }

theorem State.opEnd_eq (s : State) (gx id : Nat) {kind : ReqKind} (goes : kind.holds = false) : s.opEnd gx id kind =
    if (s.group gx).reqs.any (fun r => r.op == id) then s
    else match mfind (s.group gx).ops id with
      | none => s
      | some o => (if o.failed ≠ 0 then s else s.groupSet gx ((s.group gx).retired id o)).parkDue gx := by
  cases kind with
  | acquire => cases goes
  | _ => rfl

/-- The end of an instruction, or nothing where requests of it are left. -/
theorem State.opEnd_quiet {s : State} {gx id : Nat} {kind : ReqKind} (goes : kind.holds = false) (sound : (s.group gx).unfailed)
    (running : (s.group gx).expired = false) :
    ∃ ops wdog, (s.opEnd gx id kind).group gx = { s.group gx with ops := ops, wdog := wdog } ∧ s.regroups (s.opEnd gx id kind) gx := by
  rw [State.opEnd_eq _ _ _ goes]
  split
  · exact ⟨_, _, rfl, fun _ _ => rfl, rfl⟩
  · split
    · exact ⟨_, _, rfl, fun _ _ => rfl, rfl⟩
    · next o found =>
      have own : (s.groupSet gx ((s.group gx).retired id o)).group gx = (s.group gx).retired id o := State.group_groupSet_same ..
      have quiet := State.parkDue_quiet (s := s.groupSet gx ((s.group gx).retired id o)) (gx := gx)
        (by rw [own]; exact fun e mem => sound e (of_mem_mdel mem)) (by rw [own]; exact running)
      rw [if_neg (not_not.2 (sound _ (mem_of_mfind found))), quiet]
      exact ⟨_, _, own, s.groupSet_regroups ..⟩

/-! ## Staging memory -/

theorem readCells_congr {m m' : List Host.Cell} {a n : Nat} (h : ∀ k, a ≤ k → k < a + n → mget m k 0 = mget m' k 0) :
    readCells m a n = readCells m' a n := by
  induction n generalizing a with
  | zero => rfl
  | succ n ih => rw [readCells, h a (by omega) (by omega), ih fun k lo hi => h k (by omega) (by omega), readCells]

/-- The lanes of an STS store in turn. -/
def storeLanes (base n : Nat) (as : List LaneAcc) (m : List Host.Cell) : List Host.Cell :=
  as.foldl (fun m a => writeCells m (base + a.addr) (leBytes a.b n)) m

theorem mget_storeLanes_other {base n : Nat} (as : List LaneAcc) (m : List Host.Cell) {k : Nat}
    (away : ∀ y ∈ as, k < base + y.addr ∨ base + y.addr + n ≤ k) : mget (storeLanes base n as m) k 0 = mget m k 0 := by
  induction as generalizing m with
  | nil => rfl
  | cons a as ih =>
    exact (ih _ fun y mem => away y (by simp [mem])).trans
      (mget_writeCells_other _ _ _ _ (by rw [length_leBytes]; exact away a (by simp)))

/-- A lane whose bytes no other lane stores is stored. -/
theorem readCells_storeLanes {base n : Nat} (as : List LaneAcc) (m : List Host.Cell) (lanes : (as.map (·.lane)).Nodup) {y : LaneAcc}
    (mem : y ∈ as) (apart : ∀ z ∈ as, z.lane ≠ y.lane → z.addr + n ≤ y.addr ∨ y.addr + n ≤ z.addr) :
    readCells (storeLanes base n as m) (base + y.addr) n = leBytes y.b n := by
  induction as generalizing m with
  | nil => cases mem
  | cons a as ih =>
    obtain ⟨notin, lanes⟩ := List.nodup_cons.1 lanes
    rcases List.mem_cons.1 mem with rfl | mem
    · have others : ∀ z ∈ as, z.lane ≠ y.lane := fun z mz same => notin (List.mem_map.2 ⟨z, mz, same⟩)
      have later : ∀ k, base + y.addr ≤ k → k < base + y.addr + n →
          mget (storeLanes base n as (writeCells m (base + y.addr) (leBytes y.b n))) k 0 =
            mget (writeCells m (base + y.addr) (leBytes y.b n)) k 0 := fun k lo hi =>
        mget_storeLanes_other _ _ fun z mz => by
          have := apart z (by simp [mz]) (others z mz)
          omega
      refine (readCells_congr later).trans ?_
      have read := readCells_writeCells (leBytes y.b n) m (base + y.addr)
      rwa [length_leBytes] at read
    · exact ih _ lanes mem fun z mz => apart z (by simp [mz])

section
variable {s : State} {g : GroupId} {i : Insn}

/-- The form of LDS. -/
def ldsForm (i : Insn) : Form := { d := .regs (regsFor (widthOf i)), a := .regs 1, imm := true, mod := sizeOk i true 0 }

/-- The form of STS. -/
def stsForm (i : Insn) : Form := { a := .regs 1, b := .regs (regsFor (widthOf i)), imm := true, mod := sizeOk i false 0 }

/-- An access of LDS with the value that it reads. -/
def LaneAcc.readFrom (m : List Host.Cell) (base n : Nat) (a : LaneAcc) : LaneAcc :=
  { a with b := leNat (readCells m (base + a.addr) n) }

theorem Issues.lds (h : Issues s g i (ldsForm i)) :
    let a := (s.group (gid g)).stagingAccs i ((s.group (gid g)).effective i) (widthOf i)
    a.2 = [] → a.1 ≠ [] → ∃ t, exec (.lds g i) s = .next t ∧ t.staging = s.staging ∧
      sends s t g i (.staged (widthOf i) (modBit i 3)) i.d.toNat
        (a.1.map (LaneAcc.readFrom s.staging (g.core.val * 2 ^ 21) (widthOf i))) := by
  intro a sound some
  obtain ⟨u, m, found, issue⟩ := h.begins 0x52
  have run := issue fun s gx eff =>
    s.memIssue gx (.staged (widthOf i) (modBit i 3)) i.d.toNat false false
      (((s.group gx).stagingAccs i eff (widthOf i)).1.map (LaneAcc.readFrom s.staging (gx / 64 * 2 ^ 21) (widthOf i)))
      ((s.group gx).stagingAccs i eff (widthOf i)).2
  rw [found.stagingAccs, show (Group.stagingAccs _ i _ _).2 = [] from sound, found.frame.threadOnly.staging, gid_div] at run
  have short : (a.1.map (LaneAcc.readFrom s.staging (g.core.val * 2 ^ 21) (widthOf i))).length ≤ 32 := by
    rw [List.length_map]
    exact length_le_of_perm ((s.group (gid g)).stagingAccs_perm i _ _)
  have sent := h.sendsAll found (kind := .staged (widthOf i) (modBit i 3)) rfl i.d.toNat false false short
    (by simpa using some) (.inr ⟨_, _, rfl⟩)
  obtain ⟨-, -, -, -, -, frame⟩ := id sent
  exact ⟨_, congrArg Host.Outcome.next run, frame.threadOnly.staging, sent⟩

theorem Issues.sts (h : Issues s g i (stsForm i)) :
    let a := (s.group (gid g)).stagingAccs i ((s.group (gid g)).effective i) (widthOf i)
    a.2 = [] → ∃ t, exec (.sts g i) s = .next t ∧ (t.group (gid g)).pc = (s.group (gid g)).pc + 8 ∧
      t.staging = storeLanes (g.core.val * 2 ^ 21) (widthOf i) a.1 s.staging ∧
      t.hbm = s.hbm ∧ t.lin = s.lin ∧ t.bar4 = s.bar4 := by
  intro a sound
  obtain ⟨u, m, found, issue⟩ := h.begins 0x53
  have run := issue fun s gx eff =>
    ({ s with staging := storeLanes (gx / 64 * 2 ^ 21) (widthOf i) ((s.group gx).stagingAccs i eff (widthOf i)).1 s.staging }).memIssue
      gx (.staged (widthOf i) false) 0 true (!((s.group gx).stagingAccs i eff (widthOf i)).1.isEmpty) []
      ((s.group gx).stagingAccs i eff (widthOf i)).2
  rw [found.stagingAccs, show (Group.stagingAccs _ i _ _).2 = [] from sound, found.frame.threadOnly.staging, gid_div] at run
  let mem := storeLanes (g.core.val * 2 ^ 21) (widthOf i) a.1 s.staging
  let w : State := { u with staging := mem }
  let x := (s.group (gid g)).picked 0x53 i m
  let q := x.openOp true (!a.1.isEmpty) []
  let y := x.requesting [] q
  have own : w.group (gid g) = x := found.group
  obtain ⟨v, passed, group, only⟩ : ∃ v, (w.groupSet (gid g) y).pass (gid g) = v ∧ v.group (gid g) = y.passed ∧
      w.regroups v (gid g) := by
    refine ⟨_, h.pass (State.group_groupSet_same ..) rfl rfl rfl rfl, State.group_groupSet_same .., ?_⟩
    exact (State.groupSet_regroups ..).trans ((State.groupSet_regroups ..).trans (State.groupSet_regroups ..))
  have clear : (v.group (gid g)).unfailed := fun o mem => by
    rw [group] at mem
    rcases mem_mput mem with rfl | old
    · rfl
    · have free := (Bool.or_eq_false_iff.1 (Bool.or_eq_false_iff.1 h.operands).1).2
      simpa using List.any_eq_false.1 free o old
  have running : (v.group (gid g)).expired = false := by
    rw [group]
    exact h.unexpired
  obtain ⟨ops, wdog, ended, after⟩ := State.opEnd_quiet (id := x.nextOp) (kind := .staged (widthOf i) false) rfl clear running
  have e : w.memIssue (gid g) (.staged (widthOf i) false) 0 true (!a.1.isEmpty) [] [] =
      v.opEnd (gid g) x.nextOp (.staged (widthOf i) false) := by
    rw [State.memIssue_eq _ _ rfl, own, ← passed]
    rfl
  have all := only.trans after
  refine ⟨_, congrArg Host.Outcome.next (run.trans e), ?_, all.staging,
    all.hbm.trans found.frame.threadOnly.hbm, all.lin.trans found.frame.threadOnly.lin,
    all.bar4.trans found.frame.threadOnly.bar4⟩
  rw [ended, group]
  exact congrArg ((s.group (gid g)).pc + ·) (h.insnLen_eq (by simp [stsForm]))

end

end Sys2Proof.Machine

namespace Sys2Proof.Machine

/-! ## A staged load completes -/

theorem Group.w_wideSet (y : Group) (l r v n k p : Nat) (hn : r + n ≤ 128) (hp : p < 128) : (y.wideSet l r v n).w k p =
    if k = l ∧ r ≤ p ∧ p < r + n then BitVec.ofNat 32 (v / 2 ^ (32 * (p - r))) else y.w k p := by
  induction n generalizing y r v with
  | zero => exact (if_neg (by omega)).symm
  | succ n ih =>
    rw [Group.wideSet, ih _ _ _ (by omega)]
    by_cases lane : k = l
    · subst lane
      by_cases first : p = r
      · subst first
        rw [if_neg (by omega), if_pos (by omega), Group.w_wSet_same, Nat.sub_self, Nat.mul_zero, Nat.pow_zero, Nat.div_one]
      · rw [Group.w_wSet_other _ _ _ _ (by omega) hp (by omega)]
        by_cases inside : r + 1 ≤ p ∧ p < r + 1 + n
        · have shift : 32 * (p - r) = 32 + 32 * (p - (r + 1)) := by omega
          rw [if_pos ⟨rfl, inside⟩, if_pos (by omega), Nat.div_div_eq_div_mul, ← Nat.pow_add, shift]
        · rw [if_neg (by omega), if_neg (by omega)]
    · rw [if_neg (by omega), if_neg (by omega), Group.w_wSet_other _ _ _ _ (by omega) hp (by omega)]

/-- The value that a loaded lane takes. -/
def loadedValue (n : Nat) (sext : Bool) (a : LaneAcc) : Nat := if sext then (signed a.b (8 * n) % 2 ^ 32).toNat else a.b

/-- Lanes take what they have loaded. -/
def Group.loadLanes (x : Group) (dst n : Nat) (sext : Bool) (as : List LaneAcc) : Group :=
  as.foldl (fun y a => y.loadLane dst n sext a.lane a.b) x

theorem Group.loadLanes_regs (x : Group) (dst n : Nat) (sext : Bool) (as : List LaneAcc) :
    x.loadLanes dst n sext as = { x with regs := (x.loadLanes dst n sext as).regs } := by
  refine List.foldlRecOn (motive := fun y : Group => y = { x with regs := y.regs }) as _ rfl fun y hy a _ => ?_
  rw [Group.loadLane, Group.wideSet_regs, hy]

theorem Group.w_loadLanes_other (x : Group) (dst n : Nat) (sext : Bool) (as : List LaneAcc) (fits : dst + regsFor n ≤ 128) {k p : Nat}
    (hp : p < 128) (away : p < dst ∨ dst + regsFor n ≤ p ∨ k ∉ as.map (·.lane)) : (x.loadLanes dst n sext as).w k p = x.w k p := by
  refine List.foldlRecOn (motive := fun y : Group => y.w k p = x.w k p) as _ rfl fun y hy a mem => ?_
  rw [Group.loadLane, Group.w_wideSet _ _ _ _ _ _ _ fits hp, if_neg, hy]
  rintro ⟨rfl, lo, hi⟩
  obtain below | above | none := away
  · omega
  · omega
  · exact none (List.mem_map_of_mem mem)

theorem Group.w_loadLanes (x : Group) (dst n : Nat) (sext : Bool) (as : List LaneAcc) (fits : dst + regsFor n ≤ 128)
    (lanes : (as.map (·.lane)).Nodup) {a : LaneAcc} (mem : a ∈ as) {j : Nat} (hj : j < regsFor n) :
    (x.loadLanes dst n sext as).w a.lane (dst + j) = BitVec.ofNat 32 (loadedValue n sext a / 2 ^ (32 * j)) := by
  induction as generalizing x with
  | nil => cases mem
  | cons b bs ih =>
    obtain ⟨notin, lanes⟩ := List.nodup_cons.1 lanes
    rcases List.mem_cons.1 mem with rfl | mem
    · refine (Group.w_loadLanes_other _ dst n sext bs fits (by omega) (.inr (.inr notin))).trans ?_
      show (x.wideSet a.lane dst (loadedValue n sext a) (regsFor n)).w a.lane (dst + j) = _
      rw [Group.w_wideSet _ _ _ _ _ _ _ fits (by omega), if_pos ⟨rfl, by omega, by omega⟩, Nat.add_sub_cancel_left]
    · exact ih _ lanes mem

section
variable {s : State} {g : GroupId} {r : MemReq} {rest : List MemReq} {n : Nat} {sext : Bool}

/-- Does the word that the code of staging memory speaks of hold a byte of the lane? -/
def MemReq.inFirstWord (r : MemReq) (n : Nat) (a : LaneAcc) : Bool := meets a.addr n ((r.lanes.map (·.addr)).headD 0 / 8 * 8) 8

/-- A corrected error of staging memory is counted. -/
def State.corrects (s : State) (c : Nat) (ecc : Ecc) : State :=
  if ecc = .correctable then s.coreMap c (fun y => { y with corrected := y.corrected + 1 }) else s

theorem State.corrects_cores (s : State) (c : Nat) (ecc : Ecc) : s.corrects c ecc = { s with cores := (s.corrects c ecc).cores } := by
  unfold State.corrects
  split <;> rfl

theorem State.corrects_core (s : State) (c : Nat) (ecc : Ecc) :
    ((s.corrects c ecc).core c).corrected = (s.core c).corrected + (if ecc = .correctable then 1 else 0) ∧
      ∀ d, d ≠ c → (s.corrects c ecc).core d = s.core d := by
  unfold State.corrects
  split
  · exact ⟨by rw [State.core_coreMap, if_pos rfl], fun d ne => by rw [State.core_coreMap, if_neg ne]⟩
  · exact ⟨rfl, fun _ _ => rfl⟩

theorem State.performReq_staged (kind : r.kind = .staged n sext) (gx : Nat) (ecc : Ecc) : s.performReq gx r ecc =
    ((r.lanes.filter (fun a => ecc == .uncorrectable && r.inFirstWord n a)).map (fun a => (a.lane, eUncorr, a.addr)),
     (s.corrects (gx / 64) ecc).groupMap gx
      (fun x => x.loadLanes r.dst n sext (r.lanes.filter (fun a => !(ecc == .uncorrectable && r.inFirstWord n a))))) := by
  unfold State.performReq
  rw [kind]
  rfl

/-- The head request of a group, where it goes to staging memory, is performed and answered. -/
theorem exec_staged_complete (head : (s.group (gid g)).reqs = r :: rest) (kind : r.kind = .staged n sext)
    (clock : s.clockStopped g.core.val = false) (ecc : Ecc) : exec (.memoryRequestComplete g 0 ecc) s = .next
      ((s.performReq (gid g) r ecc).2.reqEnd (gid g) 0 r (s.performReq (gid g) r ecc).1) := by
  have here : r.isRemote = false := by rw [MemReq.isRemote, kind]
  have asks : s.asksWait (s.reqAsks (gid g) r ecc) = false := by
    rw [State.reqAsks, kind]
    rfl
  have first : (if s.clockStopped g.core.val then none else (s.group (gid g)).reqs[0]?) = some r := by
    rw [clock, head]
    rfl
  show execMemoryRequestComplete g 0 ecc s = _
  unfold execMemoryRequestComplete
  rw [show gix g.core.val g.slot.val = gid g from rfl]
  dsimp only
  rw [first]
  simp only [behind, List.take_zero, List.any_nil, here, asks, if_neg Bool.false_ne_true]

/-- An instruction one of whose requests has been answered. -/
def OpenOp.answered (o : OpenOp) (lanes : Nat) (fails : List (Nat × Nat × Nat)) : OpenOp :=
  { fails.foldl (fun q f => q.fail f.1 f.2.1 f.2.2) o with done := o.done || decide (fails.length < lanes) }

/-- A group whose request `k` has been answered. -/
def Group.answeredAt (x : Group) (k : Nat) (r : MemReq) (fails : List (Nat × Nat × Nat)) : Group :=
  { x with
    reqs := x.reqs.eraseIdx k
    ops := match mfind x.ops r.op with
      | none => x.ops
      | some o => mput x.ops r.op (o.answered r.lanes.length fails)
    st := if x.st = .busy ∧ !x.stalled then .ready else x.st }

theorem State.reqEnd_eq (s : State) (gx k : Nat) (r : MemReq) (fails : List (Nat × Nat × Nat)) : s.reqEnd gx k r fails =
    ((s.groupSet gx ((s.group gx).answeredAt k r fails)).opEnd gx r.op r.kind).clampCheck gx := rfl

theorem State.clampCheck_awake {s : State} {gx : Nat} (awake : (s.group gx).st ≠ .waiting ∨ (s.group gx).wait ≠ .clamp) :
    s.clampCheck gx = s := if_neg (by tauto)

theorem Group.answeredAt_unfailed {x : Group} (h : x.unfailed) (k : Nat) (r : MemReq) : (x.answeredAt k r []).unfailed := by
  intro o mem
  unfold Group.answeredAt at mem
  dsimp only at mem
  split at mem
  · exact h o mem
  · next q found =>
    rcases mem_mput mem with rfl | old
    · exact h (r.op, q) (mem_of_mfind found)
    · exact h o old

theorem Group.answeredAt_awake {x : Group} (h : x.st ≠ .waiting ∨ x.wait ≠ .clamp) (k : Nat) (r : MemReq)
    (fails : List (Nat × Nat × Nat)) : (x.answeredAt k r fails).st ≠ .waiting ∨ (x.answeredAt k r fails).wait ≠ .clamp := by
  refine h.imp_left fun st => ?_
  unfold Group.answeredAt
  dsimp only
  split
  · exact SlotState.noConfusion
  · exact st

/-- The answer of a group's head request, where no lane fails. -/
theorem State.reqEnd_quiet {gx : Nat} (head : (s.group gx).reqs = r :: rest) (goes : r.kind.holds = false)
    (sound : (s.group gx).unfailed) (running : (s.group gx).expired = false)
    (awake : (s.group gx).st ≠ .waiting ∨ (s.group gx).wait ≠ .clamp) :
    ∃ ops wdog st, (s.reqEnd gx 0 r []).group gx = { s.group gx with reqs := rest, ops := ops, wdog := wdog, st := st } ∧
      s.regroups (s.reqEnd gx 0 r []) gx := by
  let y := (s.group gx).answeredAt 0 r []
  have own : (s.groupSet gx y).group gx = y := State.group_groupSet_same ..
  obtain ⟨ops, wdog, group, only⟩ := State.opEnd_quiet (s := s.groupSet gx y) (gx := gx) (id := r.op) goes
    (by rw [own]; exact Group.answeredAt_unfailed sound 0 r) (by rw [own]; exact running)
  rw [own] at group
  have stays : s.reqEnd gx 0 r [] = (s.groupSet gx y).opEnd gx r.op r.kind := by
    rw [State.reqEnd_eq, State.clampCheck_awake]
    rw [group]
    exact Group.answeredAt_awake awake 0 r []
  refine ⟨ops, wdog, y.st, ?_, ?_⟩
  · rw [stays, group]
    have reqs : y.reqs = rest := by
      show (s.group gx).reqs.eraseIdx 0 = rest
      rw [head]
      rfl
    rw [← reqs]
    rfl
  · rw [stays]
    exact (s.groupSet_regroups ..).trans only

/-- The answer of a group's only request, where each lane fails, parks the group. -/
theorem State.reqEnd_parks {gx : Nat} {o : OpenOp} (alone : (s.group gx).reqs = [r]) (op : (s.group gx).ops = [(r.op, o)])
    (clear : o.failed = 0) (goes : r.kind.holds = false) (st : (s.group gx).st ≠ .parked) {f : Nat × Nat × Nat}
    {fs : List (Nat × Nat × Nat)} (lt : f.1 < 32) :
    let t := s.reqEnd gx 0 r (f :: fs)
    s.threadOnly t ∧ (t.group gx).st = .parked ∧ (t.group gx).regs = (s.group gx).regs ∧ (∀ h, h ≠ gx → t.group h = s.group h) ∧
      (mget t.parks gx {}).code = fBusErr ∧ (mget t.parks gx {}).sub = f.2.1 ∧
      (mget t.parks gx {}).faults = (maskOf ((f :: fs).map (·.1))).toNat := by
  let y := (s.group gx).answeredAt 0 r (f :: fs)
  let q := o.answered r.lanes.length (f :: fs)
  let u := s.groupSet gx y
  have fails : OpenOp.failsWith o q (f :: fs) := by
    obtain ⟨some, lanes, code, pc⟩ := o.fails_failsWith clear f fs lt
    exact ⟨some, lanes, code, pc⟩
  have own : u.group gx = y := State.group_groupSet_same ..
  have idle : (u.group gx).reqs = [] := by
    rw [own]
    show (s.group gx).reqs.eraseIdx 0 = []
    rw [alone]
    rfl
  have ops : (u.group gx).ops = [(r.op, q)] := by
    rw [own]
    show (match mfind (s.group gx).ops r.op with
      | none => (s.group gx).ops
      | some o => mput (s.group gx).ops r.op (o.answered r.lanes.length (f :: fs))) = _
    simp [op, mfind, mput, q]
  have going : (u.group gx).st ≠ .parked := by
    rw [own]
    show (if _ then _ else _) ≠ _
    split
    · exact SlotState.noConfusion
    · exact st
  obtain ⟨only, group, others, tells⟩ := State.parkDue_parks idle going ops fails.some
  have e : s.reqEnd gx 0 r (f :: fs) = u.parkDue gx := by
    rw [State.reqEnd_eq, State.opEnd_parks goes idle ops fails.some, State.clampCheck_awake]
    rw [group]
    exact .inl SlotState.noConfusion
  dsimp only
  rw [e]
  refine ⟨(s.groupSet_threadOnly gx y).trans only, by rw [group]; rfl, ?_, fun h ne => ?_, tells.code, tells.sub.trans fails.code,
    by rw [tells.faults, fails.lanes]⟩
  · rw [group, State.group_groupSet_same, own]
    rfl
  · exact (others h ne).trans ((State.group_groupSet_other _ _ ne).trans (State.group_groupSet_other _ _ ne))

/-- A staged load whose words are good, or corrected, reaches its registers. -/
theorem exec_staged_load (head : (s.group (gid g)).reqs = r :: rest) (kind : r.kind = .staged n sext) {ecc : Ecc}
    (good : ecc ≠ .uncorrectable) (lanes : (r.lanes.map (·.lane)).Nodup) (fits : r.dst + regsFor n ≤ 128)
    (sound : (s.group (gid g)).unfailed) (clock : s.clockStopped g.core.val = false) (running : (s.group (gid g)).expired = false)
    (awake : (s.group (gid g)).st ≠ .waiting ∨ (s.group (gid g)).wait ≠ .clamp) :
    ∃ t, exec (.memoryRequestComplete g 0 ecc) s = .next t ∧ (t.group (gid g)).reqs = rest ∧
      (∀ a ∈ r.lanes, ∀ j < regsFor n,
        (t.group (gid g)).w a.lane (r.dst + j) = BitVec.ofNat 32 (loadedValue n sext a / 2 ^ (32 * j))) ∧
      (∀ l k, l < 32 → k < 128 → (k < r.dst ∨ r.dst + regsFor n ≤ k ∨ l ∉ r.lanes.map (·.lane)) →
        (t.group (gid g)).w l k = (s.group (gid g)).w l k) ∧
      (t.core g.core.val).corrected = (s.core g.core.val).corrected + (if ecc = .correctable then 1 else 0) ∧
      (∀ d, d ≠ g.core.val → t.core d = s.core d) ∧
      (∀ h, h ≠ gid g → t.group h = s.group h) ∧ { t with groups := s.groups, cores := s.cores } = s := by
  let x := s.group (gid g)
  let y := x.loadLanes r.dst n sext r.lanes
  let c := g.core.val
  obtain ⟨u, hu⟩ : ∃ u, s.corrects c ecc = u := ⟨_, rfl⟩
  have uncores := s.corrects_cores c ecc
  obtain ⟨counted, others⟩ := s.corrects_core c ecc
  rw [hu] at uncores counted others
  let v := u.groupSet (gid g) y
  have ugroup : ∀ h, u.group h = s.group h := fun h => by rw [uncores, State.group, State.group]
  have done : s.performReq (gid g) r ecc = ([], v) := by
    have bad : (ecc == .uncorrectable) = false := beq_false_of_ne good
    rw [State.performReq_staged kind, gid_div, bad, hu]
    simp only [Bool.false_and, Bool.not_false, List.filter_false, List.filter_true, List.map_nil, State.groupMap, ugroup]
    rfl
  have own : v.group (gid g) = y := State.group_groupSet_same ..
  have only : y = { x with regs := y.regs } := x.loadLanes_regs ..
  obtain ⟨ops, wdog, st, group, after⟩ := State.reqEnd_quiet (s := v) (gx := gid g) (r := r) (rest := rest)
    (by rw [own, only]; exact head) (by rw [kind]; rfl) (by rw [own, only]; exact sound) (by rw [own, only]; exact running)
    (by rw [own, only]; exact awake)
  rw [own] at group
  have run := exec_staged_complete head kind clock ecc
  rw [done] at run
  have cores : ∀ d, (v.reqEnd (gid g) 0 r []).core d = u.core d := after.core
  have w : ∀ l k, ((v.reqEnd (gid g) 0 r []).group (gid g)).w l k = y.w l k := fun l k => by rw [group]; rfl
  refine ⟨_, run, by rw [group], fun a mem j hj => (w ..).trans (Group.w_loadLanes _ _ _ _ _ fits lanes mem hj),
    fun l k _ hk away => (w ..).trans (Group.w_loadLanes_other _ _ _ _ _ fits hk away), by rw [cores, counted],
    fun d ne => (cores d).trans (others d ne), fun h ne => ?_, ?_⟩
  · exact (after.others h ne).trans ((State.group_groupSet_other _ _ ne).trans (ugroup h))
  · refine (after.blank_cores ..).trans ?_
    show { u with groups := s.groups, cores := s.cores } = s
    rw [uncores]

/-- A staged load each of whose lanes reads the bad word parks its group and writes no register. -/
theorem exec_staged_bad (alone : (s.group (gid g)).reqs = [r]) (kind : r.kind = .staged n sext) (some : r.lanes ≠ [])
    (bad : ∀ a ∈ r.lanes, r.inFirstWord n a = true ∧ a.lane < 32) {o : OpenOp} (op : (s.group (gid g)).ops = [(r.op, o)])
    (clear : o.failed = 0) (clock : s.clockStopped g.core.val = false) (st : (s.group (gid g)).st ≠ .parked) :
    ∃ t, exec (.memoryRequestComplete g 0 .uncorrectable) s = .next t ∧ (t.group (gid g)).st = .parked ∧
      (t.group (gid g)).regs = (s.group (gid g)).regs ∧ (mget t.parks (gid g) {}).code = fBusErr ∧
      (mget t.parks (gid g) {}).sub = eUncorr ∧
      (∀ l, bitOf (mget t.parks (gid g) {}).faults l = true ↔ ∃ a ∈ r.lanes, a.lane = l) ∧
      (∀ h, h ≠ gid g → t.group h = s.group h) ∧ t.staging = s.staging ∧ t.lin = s.lin := by
  have done : s.performReq (gid g) r .uncorrectable =
      (r.lanes.map (fun a => (a.lane, eUncorr, a.addr)), s.groupSet (gid g) (s.group (gid g))) := by
    have all : r.lanes.filter (fun a => Ecc.uncorrectable == .uncorrectable && r.inFirstWord n a) = r.lanes :=
      List.filter_eq_self.2 fun a mem => (bad a mem).1
    have none : r.lanes.filter (fun a => !(Ecc.uncorrectable == .uncorrectable && r.inFirstWord n a)) = [] :=
      List.filter_eq_nil_iff.2 fun a mem => by simp [(bad a mem).1]
    rw [State.performReq_staged kind, all, none]
    rfl
  have run := exec_staged_complete alone kind clock .uncorrectable
  rw [done] at run
  obtain ⟨a, as, lanes⟩ := List.exists_cons_of_ne_nil some
  let v := s.groupSet (gid g) (s.group (gid g))
  have own : v.group (gid g) = s.group (gid g) := State.group_groupSet_same ..
  obtain ⟨only, parked, regs, others, code, sub, faults⟩ := State.reqEnd_parks (s := v) (gx := gid g) (r := r) (o := o)
    (f := (a.lane, eUncorr, a.addr)) (fs := as.map (fun a => (a.lane, eUncorr, a.addr)))
    (by rw [own]; exact alone) (by rw [own]; exact op) clear (by rw [kind]; rfl) (by rw [own]; exact st) (bad a (by simp [lanes])).2
  have e : r.lanes.map (fun a => (a.lane, eUncorr, a.addr)) =
      (a.lane, eUncorr, a.addr) :: as.map (fun a => (a.lane, eUncorr, a.addr)) := by rw [lanes, List.map_cons]
  dsimp only at run
  rw [e] at run
  refine ⟨_, run, parked, regs.trans (by rw [own]), code, sub, fun l => ?_,
    fun h ne => (others h ne).trans (State.group_groupSet_other _ _ ne), only.staging, only.lin⟩
  rw [faults, ← e, bitOf_maskOf_iff]
  · simp
  · simpa using fun a mem => (bad a mem).2

end

/-- Settles O14. -/
theorem stagingAccess : Obligations.StagingAccess := by
  unfold Obligations.StagingAccess
  refine ⟨fun g i s => ?_, fun g r rest n sext ecc s => ?_, fun g r n sext s => ?_⟩
  · intro x n base a sound some
    refine ⟨fun h => Issues.lds h sound some, fun h => ?_⟩
    obtain ⟨t, run, pc, staging, hbm, lin, bar4⟩ := Issues.sts h sound
    have nodup : (a.1.map (·.lane)).Nodup := by
      have perm := x.stagingAccs_perm i (x.effective i) n
      exact (List.nodup_append.1 (perm.nodup_iff.2 (lanesOf_nodup _))).1
    refine ⟨t, run, pc, fun k away => ?_, fun y mem apart => ?_, hbm, lin, bar4⟩
    · rw [staging]
      exact mget_storeLanes_other _ _ away
    · rw [staging]
      exact readCells_storeLanes _ _ nodup mem apart
  · intro x v head kind good lanes fits sound clock running awake
    exact exec_staged_load head kind good lanes fits sound clock running awake
  · intro x bad alone kind some all
    rintro ⟨o, op, clear⟩ clock st -
    exact exec_staged_bad alone kind some all op clear clock st

end Sys2Proof.Machine

namespace Sys2Proof.Machine

/-! # Signal waits and notices (R185, R186, R209) -/

/-! ## WAITSIG -/

/-- The words of a wait. -/
def waitWords (as : List LaneAcc) : List (Nat × (Nat × Nat)) := as.map (fun a => (a.lane, a.addr, a.b))

/-- What the lanes of a WAITSIG ask of the lining. -/
def State.waitAsks (s : State) (gx : Nat) (as : List LaneAcc) : List Ask :=
  as.map (fun a => ⟨groupAgent gx, some (s.groupPart gx), a.addr, 8, .read, .clean⟩)

/-- What WAITSIG does with the group that it finds. -/
def State.waitsig (s : State) (gx : Nat) (as : List LaneAcc) (fails : List (Nat × Nat × Nat)) : State :=
  if anyRemote as then s.illegal gx
  else if !fails.isEmpty then s.laneFaults gx fails (!as.isEmpty)
  else if s.asksWait (s.waitAsks gx as) then (s.asksBegin (s.waitAsks gx as)).groupMap gx (fun x => { x with st := .busy })
  else s.judgeSignals gx (waitWords as)

/-- The form of WAITSIG. -/
def waitsigForm (i : Insn) : Form := { size := 0, a := .regs 2, b := .regs 2, wide := true, mod := modOnly i 0, drain := true }

section
variable {s : State} {g : GroupId} {i : Insn}

theorem Issues.waitsig (h : Issues s g i (waitsigForm i)) : exec (.waitsig g i) s = .next ((s.readied g 0x5C i).waitsig (gid g)
    ((s.group (gid g)).accesses i ((s.group (gid g)).effective i) 8 2).1
    ((s.group (gid g)).accesses i ((s.group (gid g)).effective i) 8 2).2) := by
  have run := h.issue 0x5C fun s gx eff => s.waitsig gx ((s.group gx).accesses i eff 8 2).1 ((s.group gx).accesses i eff 8 2).2
  rw [(s.readied_found g 0x5C i).accesses] at run
  exact congrArg Host.Outcome.next run

theorem State.waitsig_judges {s : State} {gx : Nat} {as : List LaneAcc} (near : anyRemote as = false)
    (now : s.asksWait (s.waitAsks gx as) = false) : s.waitsig gx as [] = s.judgeSignals gx (waitWords as) := by
  simp [State.waitsig, near, now]

theorem State.judgeSignals_eq (s : State) (gx : Nat) (ws : List (Nat × (Nat × Nat))) : s.judgeSignals gx ws =
    if !(s.readSignals gx ws).1.isEmpty then
      (s.readSignals gx ws).2.2.laneFaults gx (s.readSignals gx ws).1 (decide ((s.readSignals gx ws).1.length < ws.length))
    else if (s.readSignals gx ws).2.1 then (s.readSignals gx ws).2.2.pass gx
    else (s.readSignals gx ws).2.2.await gx (.signals ws) := rfl

theorem State.judgeSignals_all {s : State} {gx : Nat} {ws : List (Nat × (Nat × Nat))} (sound : (s.readSignals gx ws).1 = [])
    (all : (s.readSignals gx ws).2.1 = true) : s.judgeSignals gx ws = (s.readSignals gx ws).2.2.pass gx := by
  rw [State.judgeSignals_eq, sound, all]
  rfl

theorem State.judgeSignals_some {s : State} {gx : Nat} {ws : List (Nat × (Nat × Nat))} (sound : (s.readSignals gx ws).1 = [])
    (some : (s.readSignals gx ws).2.1 = false) : s.judgeSignals gx ws = (s.readSignals gx ws).2.2.await gx (.signals ws) := by
  rw [State.judgeSignals_eq, sound, some]
  rfl

theorem State.judgeSignals_fails {s : State} {gx : Nat} {ws : List (Nat × (Nat × Nat))} (fails : (s.readSignals gx ws).1 ≠ []) :
    s.judgeSignals gx ws =
      (s.readSignals gx ws).2.2.laneFaults gx (s.readSignals gx ws).1 (decide ((s.readSignals gx ws).1.length < ws.length)) := by
  rw [State.judgeSignals_eq, if_pos (by simpa using fails)]

/-- A group that waits. -/
def Group.awaiting (x : Group) (w : WaitFor) : Group := { x with st := .waiting, wait := w }

/-- What a wait leaves of the state. -/
theorem State.await_awaits (s : State) (gx : Nat) (w : WaitFor) : (s.await gx w).group gx = (s.group gx).awaiting w ∧
    (∀ h, h ≠ gx → (s.await gx w).group h = s.group h) ∧ { s.await gx w with groups := s.groups, cores := s.cores } = s := by
  have left : State.arranges (s.groupSet gx ((s.group gx).awaiting w)) (s.await gx w) := State.leaveActive_arranges _ gx
  refine ⟨(left.group gx).trans (State.group_groupSet_same ..), fun h ne =>
    (left.group h).trans (State.group_groupSet_other _ _ ne), ?_⟩
  rw [left.rest]
  rfl

/-- No effective lane. -/
theorem Issues.waitsig_none (h : Issues s g i (waitsigForm i)) (none : (s.group (gid g)).effective i = 0) :
    ∃ t, exec (.waitsig g i) s = .next t ∧ writesNothing s t g 0x5C i := by
  have found := s.readied_found g 0x5C i
  refine ⟨_, h.waitsig, ?_⟩
  rw [none]
  exact h.passes found

section
variable (h : Issues s g i (waitsigForm i)) (sound : ((s.group (gid g)).accesses i ((s.group (gid g)).effective i) 8 2).2 = [])
  (near : anyRemote ((s.group (gid g)).accesses i ((s.group (gid g)).effective i) 8 2).1 = false)
  (now : (s.readied g 0x5C i).asksWait ((s.readied g 0x5C i).waitAsks (gid g)
    ((s.group (gid g)).accesses i ((s.group (gid g)).effective i) 8 2).1) = false)
include h sound near now

theorem Issues.waitsig_judges : exec (.waitsig g i) s = .next ((s.readied g 0x5C i).judgeSignals (gid g)
    (waitWords ((s.group (gid g)).accesses i ((s.group (gid g)).effective i) 8 2).1)) := by
  rw [h.waitsig, sound, State.waitsig_judges near now]

/-- The words have been read: each outcome of WAITSIG. -/
theorem Issues.waitsig_outcomes {ws : List (Nat × (Nat × Nat))} {r : List (Nat × Nat × Nat) × Bool × State}
    (words : ws = waitWords ((s.group (gid g)).accesses i ((s.group (gid g)).effective i) 8 2).1)
    (read : r = (s.readied g 0x5C i).readSignals (gid g) ws) (own : r.2.2.group (gid g) = (s.readied g 0x5C i).group (gid g)) :
    let x := s.group (gid g)
    (r.1 = [] → r.2.1 = true → ∃ t, exec (.waitsig g i) s = .next t ∧ (t.group (gid g)).st = .ready ∧
      (t.group (gid g)).pc = x.pc + insnLen i ∧ (t.group (gid g)).regs = x.regs ∧
      (∀ h, h ≠ gid g → t.group h = r.2.2.group h) ∧ { t with groups := r.2.2.groups } = r.2.2) ∧
    (r.1 = [] → r.2.1 = false → ∃ t, exec (.waitsig g i) s = .next t ∧ (t.group (gid g)).st = .waiting ∧
      (t.group (gid g)).wait = .signals ws ∧ (t.group (gid g)).pc = x.pc ∧ (t.group (gid g)).regs = x.regs ∧
      (∀ h, h ≠ gid g → t.group h = r.2.2.group h) ∧
      { t with groups := r.2.2.groups, cores := r.2.2.cores } = r.2.2) ∧
    (r.1 ≠ [] → ∃ t, exec (.waitsig g i) s = .next t ∧ (t.group (gid g)).st = .parked ∧ (t.group (gid g)).pc = x.pc ∧
      (mget t.parks (gid g) {}).code = fBusErr ∧
      (mget t.parks (gid g) {}).faults = (maskOf (r.1.map (·.1))).toNat ∧ t.lin = r.2.2.lin ∧ t.hbm = r.2.2.hbm) := by
  intro x
  have found := s.readied_found g 0x5C i
  have run := h.waitsig_judges sound near now
  rw [← words] at run
  rw [found.group] at own
  refine ⟨fun good all => ?_, fun good some => ?_, fun bad => ?_⟩
  · obtain ⟨group, only⟩ := h.pass_found own
    refine ⟨r.2.2.pass (gid g), ?_, ?_, ?_, ?_, only.others, only.rest⟩
    · rw [run, State.judgeSignals_all (by rw [← read]; exact good) (by rw [← read]; exact all), ← read]
    · rw [group]; rfl
    · rw [group]; rfl
    · rw [group]; rfl
  · obtain ⟨group, others, rest⟩ := r.2.2.await_awaits (gid g) (.signals ws)
    rw [own] at group
    refine ⟨r.2.2.await (gid g) (.signals ws), ?_, ?_, ?_, ?_, ?_, others, rest⟩
    · rw [run, State.judgeSignals_some (by rw [← read]; exact good) (by rw [← read]; exact some), ← read]
    · rw [group]; rfl
    · rw [group]; rfl
    · rw [group]; rfl
    · rw [group]; rfl
  · obtain ⟨only, group, -, tells⟩ := r.2.2.parkAt_parksAs (gid g) fBusErr (r.1.headD (0, 0, 0)).2.1 (maskOf (r.1.map (·.1)))
      (r.1.headD (0, 0, 0)).2.2 false (r.2.2.group (gid g)).pc (r.2.2.group (gid g)).word (decide (r.1.length < ws.length))
    rw [own] at group
    refine ⟨r.2.2.laneFaults (gid g) r.1 (decide (r.1.length < ws.length)), ?_, ?_, ?_, tells.code, tells.faults, only.lin, only.hbm⟩
    · rw [run, State.judgeSignals_fails (by rw [← read]; exact bad), ← read]
    · rw [State.laneFaults, own, group]; rfl
    · rw [State.laneFaults, own, group]; rfl

end

end

/-! ## WAIT_NOTICE and RELEASE_NOTICE -/

section
variable {s : State} {g : GroupId} {addr : BitVec 48}

theorem exec_waitNotice_ignored (h : (s.group (gid g)).st ≠ .waiting ∨ (∀ ws, (s.group (gid g)).wait ≠ .signals ws) ∨
    addr.toNat ∉ (s.group (gid g)).written) : exec (.waitNotice g addr) s = .next s := by
  refine congrArg Host.Outcome.next ?_
  rw [show gix g.core.val g.slot.val = gid g from rfl]
  split
  · next ws st wait =>
    obtain other | other | unwritten := h
    · exact absurd st other
    · exact absurd wait (other ws)
    · exact if_pos (by simp [unwritten])
  · rfl

/-- A group that waits on a word reads its words again. -/
theorem exec_waitNotice_reads {ws : List (Nat × (Nat × Nat))} (st : (s.group (gid g)).st = .waiting)
    (wait : (s.group (gid g)).wait = .signals ws) (written : addr.toNat ∈ (s.group (gid g)).written)
    (clock : s.clockStopped g.core.val = false)
    (now : s.asksWait (ws.map (fun w => (⟨groupAgent (gid g), some (s.groupPart (gid g)), w.2.1, 8, .read, .clean⟩ : Ask))) = false) :
    exec (.waitNotice g addr) s = .next ((s.groupSet (gid g) { s.group (gid g) with
      written := (s.group (gid g)).written.filter (· != addr.toNat) }).judgeSignals (gid g) ws) := by
  refine congrArg Host.Outcome.next ?_
  rw [show gix g.core.val g.slot.val = gid g from rfl, st, wait]
  have due : ¬(!(s.group (gid g)).written.contains addr.toNat || s.clockStopped g.core.val) = true := by simp [written, clock]
  dsimp only
  rw [if_neg due, now, if_neg Bool.false_ne_true, st, wait]

/-- A group that waits on a word, with its notice taken. -/
def Group.noticed (x : Group) (a : Nat) : Group := { x with written := x.written.filter (· != a) }

theorem exec_waitNotice_outcomes {ws : List (Nat × (Nat × Nat))} (st : (s.group (gid g)).st = .waiting)
    (wait : (s.group (gid g)).wait = .signals ws) (written : addr.toNat ∈ (s.group (gid g)).written)
    (clock : s.clockStopped g.core.val = false)
    (now : s.asksWait (ws.map (fun w => (⟨groupAgent (gid g), some (s.groupPart (gid g)), w.2.1, 8, .read, .clean⟩ : Ask))) = false)
    {r : List (Nat × Nat × Nat) × Bool × State}
    (read : r = (s.groupSet (gid g) ((s.group (gid g)).noticed addr.toNat)).readSignals (gid g) ws) (good : r.1 = [])
    (own : r.2.2.group (gid g) = (s.group (gid g)).noticed addr.toNat) :
    let x := s.group (gid g)
    (r.2.1 = true → x.replay.getD x.active ≠ 0 → x.stack = [] →
      ∃ t, exec (.waitNotice g addr) s = .next t ∧ (t.group (gid g)).st = .ready ∧
        (t.group (gid g)).pc = x.pc + x.len ∧ (∀ h, h ≠ gid g → t.group h = r.2.2.group h) ∧
        { t with groups := r.2.2.groups } = r.2.2) ∧
    (r.2.1 = false → ∃ t, exec (.waitNotice g addr) s = .next t ∧ t.group (gid g) = x.noticed addr.toNat ∧
      (∀ h, h ≠ gid g → t.group h = r.2.2.group h) ∧ t.lin = r.2.2.lin ∧ t.hbm = r.2.2.hbm) := by
  intro x
  have run := exec_waitNotice_reads st wait written clock now
  refine ⟨fun all lanes flat => ?_, fun some => ?_⟩
  · have passes : r.2.2.pass (gid g) = (r.2.2.groupSet (gid g) (x.noticed addr.toNat).passed).groupSet (gid g)
        (x.noticed addr.toNat).passed := by
      have goes := r.2.2.pass_of_path (gid g) (by rw [own]; exact lanes) fun e top => by
        rw [own] at top
        rw [show (x.noticed addr.toNat).stack = [] from flat] at top
        cases top
      rwa [own] at goes
    refine ⟨r.2.2.pass (gid g), ?_, ?_, ?_, ?_⟩
    · rw [run]
      exact congrArg Host.Outcome.next (by rw [State.judgeSignals_all (read ▸ good) (read ▸ all), read]; rfl)
    · rw [passes, State.group_groupSet_same]; rfl
    · rw [passes, State.group_groupSet_same]; rfl
    · rw [passes]
      have only := (r.2.2.groupSet_regroups (gid g) (x.noticed addr.toNat).passed).trans (State.groupSet_regroups _ _ (x.noticed addr.toNat).passed)
      exact ⟨only.others, only.rest⟩
  · obtain ⟨group, others, rest⟩ := r.2.2.await_awaits (gid g) (.signals ws)
    refine ⟨r.2.2.await (gid g) (.signals ws), ?_, ?_, others, (congrArg State.lin rest :), (congrArg State.hbm rest :)⟩
    · rw [run]
      exact congrArg Host.Outcome.next (by rw [State.judgeSignals_some (read ▸ good) (read ▸ some), read]; rfl)
    · rw [group, own, Group.awaiting, ← wait, ← st]
      rfl

/-- A group that a release notice reaches. -/
def Group.wokenBy (x : Group) (a : Nat) : Group :=
  { x with woken := x.woken ||| mget x.notices a 0, notices := mdel x.notices a }

theorem exec_releaseNotice (known : mhas (s.group (gid g)).notices addr.toNat = true) (clock : s.clockStopped g.core.val = false) :
    exec (.releaseNotice g addr) s =
      .next ((s.groupSet (gid g) ((s.group (gid g)).wokenBy addr.toNat)).clampCheck (gid g)) :=
  congrArg Host.Outcome.next (if_neg (by
    show ¬(!mhas (s.group (gid g)).notices addr.toNat || s.clockStopped g.core.val) = true
    simp [known, clock]))

/-- A group that waits on clamps goes on at its top entry, where a lane of it has been woken. -/
theorem State.clampCheck_wakes {u : State} {gx : Nat} {y : Group} {e : RecEnt} (own : u.group gx = y) (st : y.st = .waiting)
    (wait : y.wait = .clamp) (top : y.stack = [e]) (none : y.active = 0) (lanes : e.lanes &&& y.alive ≠ 0)
    (woken : e.lanes &&& y.woken ≠ 0) : u.clampCheck gx = u.groupSet gx (y.pop e []) := by
  have settled : y.settle 18 = y.pop e [] := by
    have free : (e.clamps y && (e.lanes &&& y.woken) == 0) = false := by rw [beq_false_of_ne woken, Bool.and_false]
    rw [Group.settle, top]
    exact (if_pos (.inl none)).trans ((if_neg (by rw [free]; exact Bool.false_ne_true)).trans rfl)
  refine (if_pos (by rw [own]; exact ⟨st, wait⟩)).trans ?_
  rw [State.settleGroup, own, settled, if_neg fun gone => lanes gone.1]
  exact if_neg SlotState.noConfusion

end

/-- Settles O16. -/
theorem noticesWake : Obligations.NoticesWake := by
  unfold Obligations.NoticesWake
  refine ⟨fun g i addr s => ?_, fun g addr s => ?_⟩
  · intro x
    refine ⟨fun none h => Issues.waitsig_none h none, fun u h turn => ?_, fun other => exec_waitNotice_ignored other,
      fun ws st wait written clock now => ?_⟩
    · intro a v ws r sound near now own
      have arranged : u = s.arrange (gid g) := Option.some.inj (turn.symm.trans (State.takeTurn_of_isSome h.admitted))
      subst arranged
      have asks : v.waitAsks (gid g) a.1 = a.1.map (fun (y : LaneAcc) =>
          (⟨groupAgent (gid g), some (s.groupPart (gid g)), y.addr, 8, .read, .clean⟩ : Ask)) := by
        unfold State.waitAsks
        rw [show v.groupPart (gid g) = s.groupPart (gid g) from (s.readied_frame g 0x5C i).groupPart _]
      exact Issues.waitsig_outcomes h sound near (by rw [← asks] at now; exact now) rfl rfl own
    · intro v r good own
      have own : r.2.2.group (gid g) = x.noticed addr.toNat := own.trans (State.group_groupSet_same ..)
      exact exec_waitNotice_outcomes st wait written clock now rfl good own
  · intro x mine
    refine ⟨fun unknown => congrArg Host.Outcome.next (if_pos ?_), fun known clock => ⟨fun awake => ?_, ?_⟩⟩
    · show (!mhas x.notices addr.toNat || s.clockStopped g.core.val) = true
      simp [unknown]
    · let u := s.groupSet (gid g) (x.wokenBy addr.toNat)
      have own : u.group (gid g) = x.wokenBy addr.toNat := State.group_groupSet_same ..
      have only := s.groupSet_regroups (gid g) (x.wokenBy addr.toNat)
      refine ⟨u, ?_, own, only.others, only.rest⟩
      rw [exec_releaseNotice known clock, State.clampCheck_awake (by rw [own]; exact awake)]
    · intro e st wait top none lanes wakes
      let y := x.wokenBy addr.toNat
      let u := s.groupSet (gid g) y
      have own : u.group (gid g) = y := State.group_groupSet_same ..
      have woken : e.lanes &&& y.woken ≠ 0 := fun no => by
        refine wakes (BitVec.eq_of_getLsbD_eq fun l _ => ?_)
        have bit : (e.lanes &&& (x.woken ||| mine)).getLsbD l = (0 : BitVec 32).getLsbD l := by rw [← no]; rfl
        rw [BitVec.getLsbD_and, BitVec.getLsbD_or] at bit
        rw [BitVec.getLsbD_and]
        revert bit
        cases e.lanes.getLsbD l <;> cases mine.getLsbD l <;> simp
      refine ⟨_, exec_releaseNotice known clock, ?_⟩
      rw [State.clampCheck_wakes own st wait top none lanes woken, State.group_groupSet_same]
      have only := (s.groupSet_regroups (gid g) y).trans (State.groupSet_regroups _ _ (y.pop e []))
      exact ⟨rfl, rfl, rfl, rfl, rfl, only.others, only.rest⟩

end Sys2Proof.Machine

namespace Sys2Proof.Machine

/-! # PANEL and the panel-class instructions (R119, R122, R210 to R213) -/

/-! ## What an instruction finds of its core -/

section
variable {s u : State} {g : GroupId} {i : Insn} {f : Form} {op n : Nat}

/-- The check of MOD passes as well where it comes out true. -/
theorem Issues.withMod (h : Issues s g i f) {b : Bool} (ok : b = true) : Issues s g i { f with mod := b } where
  toHasTurn := h.toHasTurn
  operands := h.operands
  inside := h.inside
  form := by
    have form := h.form
    simp only [Form.ok, Bool.and_eq_true] at form ⊢
    exact ⟨form.1, ok⟩
  lanes := h.lanes
  path := h.path

theorem Issues.pass_regroups (h : Issues s g i f) {y : Group} (hy : u.group (gid g) = y) (pc : y.pc = (s.group (gid g)).pc)
    (len : y.len = insnLen i) (mask : y.replay.getD y.active = (s.group (gid g)).replay.getD (s.group (gid g)).active)
    (stack : y.stack = (s.group (gid g)).stack) :
    (u.pass (gid g)).group (gid g) = y.passed ∧ u.regroups (u.pass (gid g)) (gid g) := by
  rw [h.pass hy pc len mask stack]
  exact ⟨State.group_groupSet_same .., (u.groupSet_regroups ..).trans (State.groupSet_regroups ..)⟩

/-- The core as the instruction finds it: all but its active set and its cycle is as it was. -/
theorem State.Found.core (h : s.Found u g op i n) (c : Nat) : { u.core c with
    activeSet := (s.core c).activeSet, cycle := (s.core c).cycle, proofCycles := (s.core c).proofCycles } = s.core c := by
  obtain ⟨-, -, cores, -⟩ := h.frame
  exact cores c

theorem State.Found.queue (h : s.Found u g op i n) (c : Nat) : (u.core c).queue = (s.core c).queue := (congrArg CoreSt.queue (h.core c) :)
theorem State.Found.stalled (h : s.Found u g op i n) (c : Nat) : (u.core c).stalled = (s.core c).stalled := (congrArg CoreSt.stalled (h.core c) :)
theorem State.Found.ctrs (h : s.Found u g op i n) (c : Nat) : (u.core c).ctrs = (s.core c).ctrs := (congrArg CoreSt.ctrs (h.core c) :)
theorem State.Found.flags (h : s.Found u g op i n) (c : Nat) : (u.core c).flags = (s.core c).flags := (congrArg CoreSt.flags (h.core c) :)
theorem State.Found.binds (h : s.Found u g op i n) (c : Nat) : (u.core c).binds = (s.core c).binds := (congrArg CoreSt.binds (h.core c) :)

end

theorem State.threadOnly.acc {s t : State} (h : s.threadOnly t) : t.acc = s.acc := (congrArg State.acc h :)

/-- What a park leaves of the cores: commands that stall leave with their group, and active sets change. -/
theorem State.parkAt_queue (s : State) (gx code sub : Nat) (mask : BitVec 32) (addr : Nat) (asy : Bool) (pc word : Nat)
    (partly : Bool) (c : Nat) : ((s.parkAt gx code sub mask addr asy pc word partly).core c).queue = (s.core c).queue := by
  obtain ⟨r, -, noted⟩ := s.parkAt_eq gx code sub mask addr asy pc word partly
  let u : State := ({ s with parks := mset s.parks gx r {} } : State).groupSet gx ((s.group gx).parkedAs asy)
  have left : ∀ d, ((u.leaveActive gx).core d).queue = (s.core d).queue := fun d =>
    (congrArg CoreSt.queue ((u.leaveActive_arranges gx).core d) :)
  rw [noted.core]
  show (((u.leaveActive gx).coreMap _ _).core c).queue = _
  rw [State.core_coreMap]
  split
  · next own => rw [own]; exact left _
  · exact left c

/-! ## PANEL -/

/-- The form of PANEL. -/
def panelForm (i : Insn) : Form := { grp := true, a := .regs 8, mod := modOnly i 0 }

/-- The command of a PANEL. -/
def State.panelCmd (s : State) (g : GroupId) (i : Insn) : PCmd :=
  let x := s.group (gid g)
  { words := s.resolveShape g.core.val ((List.range 8).map (fun n => x.w x.lowest (i.a.toNat + n))), slot := g.slot.val }

/-- A group whose command enters its queue. -/
def Group.enqueued (x : Group) : Group := { x with wdog := 0, stalled := false }

/-- A group whose command finds the queue full. -/
def Group.stalling (x : Group) : Group := { x with st := .busy, stalled := true }

/-- What PANEL does with the group that it finds. -/
def State.panel (s : State) (gx c : Nat) (q : PCmd) : State :=
  if (s.core c).queue.length < 32 ∧ (s.core c).stalled = [] then s.enqueue gx q
  else (s.coreMap c (fun y => { y with stalled := y.stalled ++ [q] })).groupMap gx Group.stalling

section
variable {s : State} {g : GroupId} {i : Insn} (h : Issues s g i (panelForm i))
include h

theorem Issues.panel (able : (s.group (gid g)).isProof = false) (ok : (s.panelCmd g i).ok (s.core g.core.val) = true) :
    ∃ u n, s.Found u g 0x70 i n ∧ exec (.panel g i) s = .next (u.panel (gid g) g.core.val (s.panelCmd g i)) := by
  have mod : modOnly i 0 = true := by
    have form := h.form
    simp only [Form.ok, panelForm, Bool.and_eq_true] at form
    exact form.2
  have all : (modOnly i 0 && !(s.group (gid g)).isProof && (s.panelCmd g i).ok (s.core g.core.val)) = true := by
    rw [mod, able, ok]
    rfl
  obtain ⟨u, n, found, issue⟩ := (h.withMod all).begins 0x70
  exact ⟨u, n, found, congrArg Host.Outcome.next (issue fun v gx _ => v.panel gx g.core.val (s.panelCmd g i))⟩

theorem Issues.panel_enters (able : (s.group (gid g)).isProof = false) (ok : (s.panelCmd g i).ok (s.core g.core.val) = true)
    (room : (s.core g.core.val).queue.length < 32) (calm : (s.core g.core.val).stalled = []) :
    let c := g.core.val
    ∃ t, exec (.panel g i) s = .next t ∧ (t.core c).queue = (s.core c).queue ++ [s.panelCmd g i] ∧
      (t.group (gid g)).pc = (s.group (gid g)).pc + 8 ∧ (t.group (gid g)).wdog = 0 ∧ (∀ d, d ≠ c → t.core d = s.core d) ∧
      t.staging = s.staging ∧ t.acc = s.acc := by
  intro c
  obtain ⟨u, n, found, run⟩ := h.panel able ok
  let q := s.panelCmd g i
  let y := ((s.group (gid g)).picked 0x70 i n).enqueued
  let v := (u.coreMap c (fun x => { x with queue := x.queue ++ [q] })).groupSet (gid g) y
  obtain ⟨group, only⟩ := h.pass_regroups (u := v) (y := y) (State.group_groupSet_same ..) rfl rfl rfl rfl
  have e : u.panel (gid g) c q = v.pass (gid g) := by
    refine (if_pos (by rw [found.queue, found.stalled]; exact ⟨room, calm⟩)).trans ?_
    rw [State.enqueue, State.groupMap, State.group_coreMap, found.group, gid_div]
    rfl
  have vcore : ∀ d, v.core d = if d = c then { u.core c with queue := (u.core c).queue ++ [q] } else u.core d :=
    fun d => u.core_coreMap c d fun x => { x with queue := x.queue ++ [q] }
  have before : s.threadOnly v := found.frame.threadOnly
  have after := before.trans only.threadOnly
  refine ⟨v.pass (gid g), run.trans (congrArg Host.Outcome.next e), ?_, ?_, ?_, fun d ne => ?_, after.staging,
    after.acc⟩
  · rw [only.core, vcore, if_pos rfl, ← found.queue]
  · rw [group]
    exact congrArg ((s.group (gid g)).pc + ·) (h.insnLen_eq (by simp [panelForm]))
  · rw [group]
    rfl
  · rw [only.core, vcore, if_neg ne, found.cores d ne]

theorem Issues.panel_stalls (able : (s.group (gid g)).isProof = false) (ok : (s.panelCmd g i).ok (s.core g.core.val) = true)
    (full : 32 ≤ (s.core g.core.val).queue.length ∨ (s.core g.core.val).stalled ≠ []) :
    let c := g.core.val
    ∃ t, exec (.panel g i) s = .next t ∧ (t.core c).queue = (s.core c).queue ∧
      (t.core c).stalled = (s.core c).stalled ++ [s.panelCmd g i] ∧ (t.group (gid g)).st = .busy ∧
      (t.group (gid g)).pc = (s.group (gid g)).pc := by
  intro c
  obtain ⟨u, n, found, run⟩ := h.panel able ok
  let q := s.panelCmd g i
  let v := u.coreMap c (fun x => { x with stalled := x.stalled ++ [q] })
  let y := ((s.group (gid g)).picked 0x70 i n).stalling
  have e : u.panel (gid g) c q = v.groupSet (gid g) y := by
    refine (if_neg ?_).trans ?_
    · rw [found.queue, found.stalled]
      rintro ⟨room, calm⟩
      exact full.elim (Nat.not_le.2 room) (absurd calm)
    · rw [State.groupMap, State.group_coreMap, found.group]
  have vcore : v.core c = { u.core c with stalled := (u.core c).stalled ++ [q] } := (u.core_coreMap c c _).trans (if_pos rfl)
  have only := v.groupSet_regroups (gid g) y
  refine ⟨v.groupSet (gid g) y, run.trans (congrArg Host.Outcome.next e), ?_, ?_, ?_, ?_⟩
  · rw [only.core, vcore, ← found.queue]
  · rw [only.core, vcore, ← found.stalled]
  · rw [State.group_groupSet_same]
    rfl
  · rw [State.group_groupSet_same]
    rfl

/-- A command that breaks a rule, or comes from a group that runs for proof, parks its group. -/
theorem Issues.panel_refused (bad : (s.group (gid g)).isProof = true ∨ (s.panelCmd g i).ok (s.core g.core.val) = false)
    (idle : (s.group (gid g)).reqs = []) :
    ∃ t, exec (.panel g i) s = .next t ∧ (t.group (gid g)).st = .parked ∧ (mget t.parks (gid g) {}).code = fIllegal ∧
      (t.core g.core.val).queue = (s.core g.core.val).queue := by
  have odd : (modOnly i 0 && !(s.group (gid g)).isProof && (s.panelCmd g i).ok (s.core g.core.val)) = false := by
    obtain proof | bad := bad
    · simp [proof]
    · simp [bad]
  have run := h.toHasTurn.issue_illegal (op := 0x70) (f := { panelForm i with mod := (modOnly i 0 && !(s.group (gid g)).isProof &&
    (s.panelCmd g i).ok (s.core g.core.val)) }) idle h.operands (by simp only [Form.ok, odd, Bool.and_false])
    fun v gx _ => v.panel gx g.core.val (s.panelCmd g i)
  have found := s.readied_found g 0x70 i
  obtain ⟨-, ⟨o, j, n, group⟩, -, code, -⟩ := found.illegal
  refine ⟨_, congrArg Host.Outcome.next run, by rw [group]; rfl, code, ?_⟩
  rw [State.illegal, State.parkAt_queue, found.queue]

end

/-! ## Counters and flag words -/

section
variable {s : State} {g : GroupId} {i : Insn}

theorem Issues.ctrrd (h : Issues s g i { d := .regs 1, mod := modOnly i 7 }) (some : i.mod ≠ 0) :
    ∃ t, exec (.ctrrd g i) s = .next t ∧
      writesD s t g 0x71 i (fun _ _ => BitVec.ofNat 32 (mget (s.core g.core.val).ctrs i.mod.toNat 0)) := by
  have mod : modOnly i 7 = true := by
    have form := h.form
    simp only [Form.ok, Bool.and_eq_true] at form
    exact form.2
  have all : (modOnly i 7 && i.mod != 0) = true := by
    rw [mod, Bool.true_and]
    exact bne_iff_ne.2 some
  have found := s.readied_found g 0x71 i
  let v : Word := BitVec.ofNat 32 (mget (s.core g.core.val).ctrs i.mod.toNat 0)
  have run := (h.withMod all).issue 0x71 fun s gx eff => (s.groupMap gx (fun x => (lanesOf eff).foldl (fun y l =>
    y.wSet l i.d.toNat (BitVec.ofNat 32 (mget (s.core (gx / 64)).ctrs i.mod.toNat 0))) x)).pass gx
  rw [gid_div, found.ctrs] at run
  exact ⟨_, congrArg Host.Outcome.next run, h.acts_writesD 0x71 (v := fun _ _ => v) _ (fun _ _ _ _ _ => rfl) fun _ _ _ => rfl⟩

/-- What CTRWAIT does with the group that it finds. -/
def State.ctrwait (s : State) (gx k target : Nat) : State :=
  if (mget (s.core (gx / 64)).ctrs k 0 + 2 ^ 16 - target) % 2 ^ 16 < 2 ^ 15 then s.pass gx else s.await gx (.counter k target)

theorem Issues.ctrwait_outcomes {f : Form} (h : Issues s g i f) {u : State} {n : Nat} (found : s.Found u g 0x72 i n) (k target : Nat) :
    let ahead := (mget (s.core g.core.val).ctrs k 0 + 2 ^ 16 - target) % 2 ^ 16
    (ahead < 32768 → writesNothing s (u.ctrwait (gid g) k target) g 0x72 i) ∧
    (32768 ≤ ahead → ((u.ctrwait (gid g) k target).group (gid g)).st = .waiting ∧
      ((u.ctrwait (gid g) k target).group (gid g)).wait = .counter k target ∧
      ((u.ctrwait (gid g) k target).group (gid g)).pc = (s.group (gid g)).pc) := by
  intro ahead
  unfold State.ctrwait
  rw [gid_div, found.ctrs]
  refine ⟨fun there => ?_, fun behind => ?_⟩
  · have there : (mget (s.core g.core.val).ctrs k 0 + 2 ^ 16 - target) % 2 ^ 16 < 2 ^ 15 := there
    rw [if_pos there]
    exact h.passes found
  · obtain ⟨group, -, -⟩ := u.await_awaits (gid g) (.counter k target)
    have behind : ¬(mget (s.core g.core.val).ctrs k 0 + 2 ^ 16 - target) % 2 ^ 16 < 2 ^ 15 := Nat.not_lt.2 behind
    rw [if_neg behind, group, found.group]
    exact ⟨rfl, rfl, rfl⟩

theorem mod_low (k : Nat) (lt : k < 8) (m : BitVec 7) (h : m.toNat = k ∨ m.toNat = 64 + k) (pos : 0 < k) :
    (m.toNat &&& 71 == m.toNat && m.toNat % 8 != 0) = true ∧ m.toNat % 8 = k := by
  have low : ∀ k < 8, 0 < k → ((k &&& 71 == k && k % 8 != 0) = true ∧ k % 8 = k) ∧
      ((64 + k &&& 71 == 64 + k && (64 + k) % 8 != 0) = true ∧ (64 + k) % 8 = k) := by decide
  obtain ⟨plain, imm⟩ := low k lt pos
  obtain h | h := h
  · rw [h]; exact plain
  · rw [h]; exact imm

/-- CTRWAIT with its target in the instruction. -/
theorem Issues.ctrwait_imm (h : Issues s g i { grp := true, imm := true, drain := true }) {k : Nat} (pos : 0 < k) (lt : k < 8)
    (mod : i.mod.toNat = 64 + k) : ∃ u n, s.Found u g 0x72 i n ∧
      exec (.ctrwait g i) s = .next (u.ctrwait (gid g) k i.imm.toNat) := by
  obtain ⟨ok, reg⟩ := mod_low k lt i.mod (.inr mod) pos
  have imm : modBit i 6 = true := by
    have high : ∀ k < 8, bitOf (64 + k) 6 = true := by decide
    rw [modBit, mod]
    exact high k lt
  have form : ({ grp := true, b := useB i, imm := modBit i 6, drain := true, mod := modOnly i 71 && i.mod.toNat % 8 != 0 } : Form) =
      { grp := true, imm := true, drain := true, mod := modOnly i 71 && i.mod.toNat % 8 != 0 } := by
    rw [useB, imm]
    rfl
  obtain ⟨u, n, found, issue⟩ := (h.withMod (b := modOnly i 71 && i.mod.toNat % 8 != 0) ok).begins 0x72
  have run := issue fun s gx _ => s.ctrwait gx (i.mod.toNat % 8)
    (if modBit i 6 then i.imm.toNat else ((s.group gx).w (s.group gx).lowest i.b.toNat).toNat % 2 ^ 16)
  rw [← form] at run
  refine ⟨u, n, found, congrArg Host.Outcome.next (run.trans ?_)⟩
  rw [reg, imm]
  rfl

/-- CTRWAIT with its target in a register. -/
theorem Issues.ctrwait_reg (h : Issues s g i { grp := true, b := .regs 1, drain := true }) {k : Nat} (pos : 0 < k) (lt : k < 8)
    (mod : i.mod.toNat = k) : ∃ u n, s.Found u g 0x72 i n ∧
      exec (.ctrwait g i) s = .next (u.ctrwait (gid g) k
        (((s.group (gid g)).w (s.group (gid g)).lowest i.b.toNat).toNat % 2 ^ 16)) := by
  obtain ⟨ok, reg⟩ := mod_low k lt i.mod (.inl mod) pos
  have imm : modBit i 6 = false := by
    have high : ∀ k < 8, bitOf k 6 = false := by decide
    rw [modBit, mod]
    exact high k lt
  have form : ({ grp := true, b := useB i, imm := modBit i 6, drain := true, mod := modOnly i 71 && i.mod.toNat % 8 != 0 } : Form) =
      { grp := true, b := .regs 1, drain := true, mod := modOnly i 71 && i.mod.toNat % 8 != 0 } := by
    rw [useB, imm]
    rfl
  obtain ⟨u, n, found, issue⟩ := (h.withMod (b := modOnly i 71 && i.mod.toNat % 8 != 0) ok).begins 0x72
  have run := issue fun s gx _ => s.ctrwait gx (i.mod.toNat % 8)
    (if modBit i 6 then i.imm.toNat else ((s.group gx).w (s.group gx).lowest i.b.toNat).toNat % 2 ^ 16)
  rw [← form, found.group] at run
  refine ⟨u, n, found, congrArg Host.Outcome.next (run.trans ?_)⟩
  rw [reg, imm]
  rfl

end

/-! ## FLAGRD -/

/-- Every active lane takes a 64-bit value in a register pair. -/
def Group.takesPair (x : Group) (d v : Nat) : Group := (lanesOf x.active).foldl (fun y l => y.wideSet l d v 2) x

theorem Group.takesPair_regs (x : Group) (d v : Nat) : x.takesPair d v = { x with regs := (x.takesPair d v).regs } := by
  unfold Group.takesPair
  refine List.foldlRecOn (motive := fun y : Group => y = { x with regs := y.regs }) _ _ rfl fun y hy l _ => ?_
  rw [Group.wideSet_regs, hy]

theorem Group.wide_takesPair (x : Group) {d : Nat} (fits : d + 2 ≤ 128) (v : Nat) {l : Nat} (active : l ∈ lanesOf x.active) :
    (x.takesPair d v).wide l d 2 = v % 2 ^ 64 := by
  have fold : ∀ (ls : List Nat) (y : Group) (p : Nat), d ≤ p → p < d + 2 →
      (ls.foldl (fun y l => y.wideSet l d v 2) y).w l p = if l ∈ ls then BitVec.ofNat 32 (v / 2 ^ (32 * (p - d))) else y.w l p := by
    intro ls
    induction ls with
    | nil => simp
    | cons k ks ih =>
      intro y p lo hi
      rw [List.foldl_cons, ih _ _ lo hi, Group.w_wideSet _ _ _ _ _ _ _ fits (by omega)]
      by_cases later : l ∈ ks
      · simp [later]
      · by_cases here : l = k
        · simp [here, lo, hi]
        · simp [later, here]
  have low := fold (lanesOf x.active) x d (by omega) (by omega)
  have high := fold (lanesOf x.active) x (d + 1) (by omega) (by omega)
  rw [if_pos active] at low high
  rw [Group.takesPair, Group.wide, Group.wide, Group.wide, low, high]
  simp only [BitVec.toNat_ofNat, Nat.sub_self, Nat.add_sub_cancel_left, Nat.mul_zero, Nat.pow_zero, Nat.div_one, Nat.mul_one]
  omega

section
variable {s : State} {g : GroupId} {i : Insn}

/-- What FLAGRD does with the group that it finds. -/
def State.flagrd (s : State) (gx k d : Nat) (clears : Bool) : State :=
  let u := s.groupMap gx (fun x => x.takesPair d (mget (s.core (gx / 64)).flags k {}).bits)
  (if clears then u.coreMap (gx / 64) (fun x => { x with flags := mdel x.flags k }) else u).pass gx

/-- The form of FLAGRD. -/
def flagrdForm : Form := { grp := true, d := .regs 2 }

theorem mod_flag (k : Nat) (le : k ≤ 8) (m : BitVec 7) (b : Bool) (h : m.toNat = k + if b then 16 else 0) :
    (m.toNat &&& 31 == m.toNat && decide (m.toNat % 16 ≤ 8)) = true ∧ m.toNat % 16 = k ∧ bitOf m.toNat 4 = b := by
  have low : ∀ k < 9, ∀ b : Bool, ((k + if b then 16 else 0) &&& 31 == (k + if b then 16 else 0) &&
      decide ((k + if b then 16 else 0) % 16 ≤ 8)) = true ∧ (k + if b then 16 else 0) % 16 = k ∧
      bitOf (k + if b then 16 else 0) 4 = b := by decide
  rw [h]
  exact low k (by omega) b

theorem Issues.flagrd (h : Issues s g i flagrdForm) {k : Nat} (le : k ≤ 8) {b : Bool} (mod : i.mod.toNat = k + if b then 16 else 0) :
    ∃ u n, s.Found u g 0x73 i n ∧ exec (.flagrd g i) s = .next (u.flagrd (gid g) k i.d.toNat b) := by
  obtain ⟨ok, reg, bit⟩ := mod_flag k le i.mod b mod
  obtain ⟨u, n, found, issue⟩ := (h.withMod (b := modOnly i 31 && decide (i.mod.toNat % 16 ≤ 8)) ok).begins 0x73
  have run := issue fun s gx _ => s.flagrd gx (i.mod.toNat % 16) i.d.toNat (modBit i 4)
  refine ⟨u, n, found, (congrArg Host.Outcome.next run).trans ?_⟩
  rw [reg, show modBit i 4 = b from bit]

/-- FLAGRD: the active lanes take the word; with MOD[4] it is cleared. -/
theorem Issues.flagrd_outcome (h : Issues s g i flagrdForm) {k : Nat} (le : k ≤ 8) {b : Bool}
    (mod : i.mod.toNat = k + if b then 16 else 0) :
    ∃ t u n, s.Found u g 0x73 i n ∧ exec (.flagrd g i) s = .next t ∧
      (∀ l, l < 32 → bitOf (s.group (gid g)).active.toNat l →
        (t.group (gid g)).wide l i.d.toNat 2 = (mget (s.core g.core.val).flags k {}).bits % 2 ^ 64) ∧
      State.regroups (if b then u.coreMap g.core.val (fun x => { x with flags := mdel x.flags k }) else u) t (gid g) := by
  obtain ⟨u, n, found, run⟩ := h.flagrd le mod
  have even : i.d.toNat % 2 = 0 := by
    have form := h.form
    simp only [Form.ok, flagrdForm, Use.ok, Bool.and_eq_true, beq_iff_eq] at form
    omega
  have fits : i.d.toNat + 2 ≤ 128 := by
    have := i.d.isLt
    omega
  let x := (s.group (gid g)).picked 0x73 i n
  let bits := (mget (s.core g.core.val).flags k {}).bits
  let y := x.takesPair i.d.toNat bits
  let w := if b then u.coreMap g.core.val (fun x => { x with flags := mdel x.flags k }) else u
  have only : y = { x with regs := y.regs } := x.takesPair_regs ..
  let v := w.groupSet (gid g) y
  have e : u.flagrd (gid g) k i.d.toNat b = v.pass (gid g) := by
    unfold State.flagrd
    rw [gid_div, found.flags, State.groupMap, found.group]
    cases b <;> rfl
  obtain ⟨group, after⟩ := h.pass_regroups (u := v) (y := y) (State.group_groupSet_same ..)
    (by rw [only]; rfl) (by rw [only]; rfl) (by rw [only]; rfl) (by rw [only]; rfl)
  refine ⟨v.pass (gid g), u, n, found, run.trans (congrArg Host.Outcome.next e), fun l lt bit => ?_,
    (w.groupSet_regroups (gid g) y).trans after⟩
  rw [group]
  exact x.wide_takesPair fits bits (mem_lanesOf.2 ⟨lt, bit⟩)

end

/-! ## FITBIND -/

/-- The form of FITBIND. -/
def fitbindForm : Form := { grp := true, a := .regs 1, b := .regs 2 }

section
variable {s : State} {g : GroupId} {i : Insn}

theorem Issues.fitbind (h : Issues s g i fitbindForm) :
    let x := s.group (gid g)
    let c := g.core.val
    let v := (x.w x.lowest i.a.toNat).toNat
    let ctx := x.wide x.lowest i.b.toNat 2
    i.mod.toNat ≤ 8 → v < 2 ^ 15 → ctx < 2 ^ 48 → ctx % 64 = 0 → s.ptn.running.ownsFit (s.groupPart (gid g)) (v % 2 ^ 12) = true →
    ∃ t, exec (.fitbind g i) s = .next t ∧
      mget (t.core c).binds i.mod.toNat {} = ⟨v % 2 ^ 12, bitOf v 12, bitOf v 13, bitOf v 14, ctx⟩ ∧
      (∀ k, k ≠ i.mod.toNat → mget (t.core c).binds k {} = mget (s.core c).binds k {}) ∧ (t.group (gid g)).pc = x.pc + 8 := by
  intro x c v ctx le small near aligned owned
  let b : FitBind := ⟨v % 2 ^ 12, bitOf v 12, bitOf v 13, bitOf v 14, ctx⟩
  have low : (i.mod.toNat &&& 15 == i.mod.toNat && decide (i.mod.toNat ≤ 8)) = true := by
    have all : ∀ m < 9, (m &&& 15 == m && decide (m ≤ 8)) = true := by decide
    exact all _ (by omega)
  have ok : (modOnly i 15 && decide (i.mod.toNat ≤ 8) && (decide (v < 2 ^ 15 ∧ ctx < 2 ^ 48 ∧ ctx % 64 = 0) &&
      s.ptn.running.ownsFit (s.groupPart (gid g)) (v % 2 ^ 12))) = true := by
    rw [show (modOnly i 15 && decide (i.mod.toNat ≤ 8)) = true from low, owned, decide_eq_true ⟨small, near, aligned⟩]
    rfl
  obtain ⟨u, n, found, issue⟩ := (h.withMod ok).begins 0x74
  have run := issue fun s gx _ => (s.coreMap (gx / 64) (fun y => { y with binds := mset y.binds i.mod.toNat b {} })).pass gx
  rw [gid_div] at run
  let w := u.coreMap c (fun y => { y with binds := mset y.binds i.mod.toNat b {} })
  obtain ⟨group, only⟩ := h.pass_found (u := w) found.group
  have binds : (w.core c).binds = mset (s.core c).binds i.mod.toNat b {} := by
    rw [← found.binds]
    exact congrArg CoreSt.binds ((u.core_coreMap c c fun y => { y with binds := mset y.binds i.mod.toNat b {} }).trans (if_pos rfl))
  refine ⟨w.pass (gid g), congrArg Host.Outcome.next run, ?_, fun k ne => ?_, ?_⟩
  · rw [only.core, binds, mget_mset_same]
  · rw [only.core, binds, mget_mset_other _ _ _ _ ne]
  · rw [group]
    exact congrArg (x.pc + ·) (h.insnLen_eq (by simp [fitbindForm]))

end

/-! ## A stall ends -/

section
variable {s : State} {g : GroupId} {q : PCmd} {rest : List PCmd}

theorem exec_panelQueueStallEnd (clock : s.clockStopped g.core.val = false) (first : (s.core g.core.val).stalled = q :: rest)
    (own : q.slot = g.slot.val) (room : (s.core g.core.val).queue.length < 32) (stalled : (s.group (gid g)).stalled = true) :
    exec (.panelQueueStallEnd g) s =
      .next ((s.coreSet g.core.val { s.core g.core.val with stalled := rest }).enqueue (gid g) q) := by
  refine congrArg Host.Outcome.next ?_
  rw [show gix g.core.val g.slot.val = gid g from rfl, clock, first]
  exact if_pos ⟨own, room, stalled⟩

theorem stallEnds (clock : s.clockStopped g.core.val = false) (first : (s.core g.core.val).stalled = q :: rest)
    (own : q.slot = g.slot.val) (room : (s.core g.core.val).queue.length < 32) (stalled : (s.group (gid g)).stalled = true)
    (lanes : (s.group (gid g)).replay.getD (s.group (gid g)).active ≠ 0) (flat : (s.group (gid g)).stack = []) :
    let x := s.group (gid g)
    let c := g.core.val
    ∃ t, exec (.panelQueueStallEnd g) s = .next t ∧ (t.core c).queue = (s.core c).queue ++ [q] ∧ (t.core c).stalled = rest ∧
      (t.group (gid g)).st = .ready ∧ (t.group (gid g)).stalled = false ∧ (t.group (gid g)).pc = x.pc + x.len ∧
      (t.group (gid g)).wdog = 0 ∧ (∀ h, h ≠ gid g → t.group h = s.group h) ∧
      (∀ d, d ≠ c → t.core d = s.core d) ∧ { t with groups := s.groups, cores := s.cores } = s := by
  intro x c
  let k : CoreSt := { s.core c with stalled := rest, queue := (s.core c).queue ++ [q] }
  let y := x.enqueued
  let u := (s.coreSet c { s.core c with stalled := rest }).coreMap c (fun x => { x with queue := x.queue ++ [q] })
  let v := u.groupSet (gid g) y
  have ucore : ∀ d, u.core d = if d = c then k else s.core d := fun d => by
    refine (State.core_coreMap _ c d fun x => { x with queue := x.queue ++ [q] }).trans ?_
    split
    · rw [State.core_coreSet_same]
    · next ne => exact State.core_coreSet_other _ _ ne
  have e : (s.coreSet c { s.core c with stalled := rest }).enqueue (gid g) q = v.pass (gid g) := by
    rw [State.enqueue, gid_div]
    rfl
  have vown : v.group (gid g) = y := State.group_groupSet_same ..
  have passes := v.pass_of_path (gid g) (by rw [vown]; exact lanes) fun e top => by
    rw [vown, show y.stack = [] from flat] at top
    cases top
  rw [vown] at passes
  have only := (u.groupSet_regroups (gid g) y).trans ((v.groupSet_regroups (gid g) y.passed).trans (State.groupSet_regroups _ _ y.passed))
  rw [← passes] at only
  have group : (v.pass (gid g)).group (gid g) = y.passed := by
    rw [passes]
    exact State.group_groupSet_same ..
  refine ⟨v.pass (gid g), (exec_panelQueueStallEnd clock first own room stalled).trans (congrArg Host.Outcome.next e), ?_, ?_, ?_, ?_,
    ?_, ?_, fun h ne => only.others h ne, fun d ne => ?_, only.blank_cores ..⟩
  · rw [only.core, ucore, if_pos rfl]
  · rw [only.core, ucore, if_pos rfl]
  · rw [group]; rfl
  · rw [group]; rfl
  · rw [group]; rfl
  · rw [group]; rfl
  · rw [only.core, ucore, if_neg ne]

end

/-- Settles O18. -/
theorem panelInstructions : Obligations.PanelInstructions := by
  unfold Obligations.PanelInstructions
  refine ⟨fun g i s => ?_, fun g q rest s => ?_⟩
  · intro x c
    refine ⟨?_, fun h proof idle => Issues.panel_refused h (.inl proof) idle, fun some h => h.ctrrd some,
      fun k pos lt mod => ?_, fun k pos lt mod => ?_, fun le fresh h => ?_, fun k le mod fresh h => ?_, ?_⟩
    · intro ws q h able
      exact ⟨fun ok room calm => Issues.panel_enters h able ok room calm, fun ok full => Issues.panel_stalls h able ok full,
        fun bad idle => Issues.panel_refused h (.inr bad) idle⟩
    · intro h ahead
      obtain ⟨u, n, found, run⟩ := h.ctrwait_imm pos lt mod
      obtain ⟨there, behind⟩ := h.ctrwait_outcomes found k i.imm.toNat
      exact ⟨fun lt => ⟨_, run, there lt⟩, fun le => ⟨_, run, behind le⟩⟩
    · intro h target ahead
      obtain ⟨u, n, found, run⟩ := h.ctrwait_reg pos lt mod
      obtain ⟨there, behind⟩ := h.ctrwait_outcomes found k target
      exact ⟨fun lt => ⟨_, run, there lt⟩, fun le => ⟨_, run, behind le⟩⟩
    · obtain ⟨t, u, n, found, run, read, after⟩ := Issues.flagrd_outcome h le (b := false) rfl
      exact ⟨t, run, read, found.frame.regroups after⟩
    · obtain ⟨t, u, n, found, run, read, after⟩ := Issues.flagrd_outcome h le (b := true) (by rw [mod, if_pos rfl, Nat.add_comm])
      let w := u.coreMap c (fun x => { x with flags := mdel x.flags k })
      have wcore : ∀ d, w.core d = if d = c then { u.core c with flags := mdel (u.core c).flags k } else u.core d := fun d =>
        u.core_coreMap c d fun x => { x with flags := mdel x.flags k }
      have after : w.regroups t (gid g) := after
      have flags : (t.core c).flags = mdel (s.core c).flags k := by rw [after.core, wcore, if_pos rfl, ← found.flags]
      obtain ⟨groups, -, -, rest⟩ := found.frame
      refine ⟨t, run, read, ?_, fun j ne => ?_, fun d ne => ?_, fun h ne => (after.others h ne).trans (groups h ne), ?_⟩
      · rw [flags, mget_mdel_same]
      · rw [flags, mget_mdel_other _ _ ne]
      · rw [after.core, wcore, if_neg ne, found.cores d ne]
      · exact (after.blank_regs_cores ..).trans rest
    · intro v ctx h le small near aligned owned
      exact Issues.fitbind h le small near aligned owned
  · intro x c clock first own room stalled lanes flat
    exact stallEnds clock first own room stalled lanes flat

end Sys2Proof.Machine

namespace Sys2Proof.Machine

/-! # PANEL commands start (R105 to R109, R113, R123) -/

/-! ## The words that a command reads -/

theorem State.threadOnly.accFlags {s t : State} (h : s.threadOnly t) : t.accFlags = s.accFlags := (congrArg State.accFlags h :)
theorem State.threadOnly.rng {s t : State} (h : s.threadOnly t) : t.rng = s.rng := (congrArg State.rng h :)

/-- A core with a corrected error counted. -/
def CoreSt.sees (x : CoreSt) (ecc : Ecc) : CoreSt := { x with corrected := x.corrected + (if ecc = .correctable then 1 else 0) }

/-- What a command's start leaves of the state but for its core: time, and the log. -/
structure State.Seen (s u : State) (c : Nat) (ecc : Ecc) : Prop where
  own : u.core c = (s.core c).sees ecc
  cores : ∀ d, d ≠ c → u.core d = s.core d
  staging : u.staging = s.staging
  acc : u.acc = s.acc
  accFlags : u.accFlags = s.accFlags
  rng : u.rng = s.rng
  ptn : u.ptn = s.ptn
  hbm : u.hbm = s.hbm
  lin : u.lin = s.lin

theorem State.panelEcc_seen (s : State) (c : Nat) (q : PCmd) (ecc : Ecc) : s.Seen (s.panelEcc c q ecc) c ecc := by
  cases ecc with
  | clean => exact ⟨rfl, fun _ _ => rfl, rfl, rfl, rfl, rfl, rfl, rfl, rfl⟩
  | correctable =>
    exact ⟨(State.core_coreMap ..).trans (if_pos rfl), fun d ne => (State.core_coreMap ..).trans (if_neg ne), rfl, rfl, rfl, rfl, rfl,
      rfl, rfl⟩
  | uncorrectable =>
    have noted : s.notes (s.panelErr c q eUncorr) := (s.err_sameButLog ..).notes
    have only : s.threadOnly (s.panelErr c q eUncorr) := noted.threadOnly
    exact ⟨noted.core c, fun d _ => noted.core d, only.staging, only.acc, only.accFlags, only.rng,
      only.ptn, only.hbm, only.lin⟩

theorem State.Seen.at {s u : State} {c due : Nat} {ecc : Ecc} (h : (s.at due).Seen u c ecc) : s.Seen u c ecc :=
  ⟨h.own, h.cores, h.staging, h.acc, h.accFlags, h.rng, h.ptn, h.hbm, h.lin⟩

theorem State.headCmd_of_queue {s : State} {c : Nat} {q : PCmd} {rest : List PCmd} (head : (s.core c).queue = q :: rest)
    (clock : s.clockStopped c = false) : s.headCmd c q.op = some q := by
  rw [State.headCmd, head]
  exact if_pos ⟨rfl, by rw [clock]; rfl⟩

/-- What a started command leaves of its core's queue. -/
structure CoreSt.Starts (x y : CoreSt) (q : PCmd) (rest : List PCmd) (ecc : Ecc) : Prop where
  queue : y.queue = rest
  cmd : y.run.map (·.cmd) = [q]
  fault : y.run.map (·.fault) = [if ecc = .uncorrectable then some (fBusErr, eUncorr) else none]
  corrected : y.corrected = x.corrected + (if ecc = .correctable then 1 else 0)

/-- The head of the queue, with whatever it notes of its run, starts where nothing runs. -/
theorem State.startCmd_starts {x : CoreSt} {u : State} {c : Nat} {q : PCmd} {rest : List PCmd} {ecc : Ecc} {r : RunCmd}
    (head : (u.core c).queue = q :: rest) (idle : (u.core c).run = [])
    (corrected : (u.core c).corrected = x.corrected + (if ecc = .correctable then 1 else 0)) (cmd : r.cmd = q)
    (fault : r.fault = if ecc = .uncorrectable then some (fBusErr, eUncorr) else none) :
    x.Starts ((u.startCmd c r).core c) q rest ecc := by
  have own : (u.startCmd c r).core c =
      { u.core c with queue := (u.core c).queue.drop 1, run := (u.core c).run ++ [{ r with since := u.now }] } :=
    (u.core_coreMap c c fun x => { x with queue := x.queue.drop 1, run := x.run ++ [{ r with since := u.now }] }).trans (if_pos rfl)
  rw [own]
  exact ⟨by rw [head]; rfl, by rw [idle, ← cmd]; rfl, by rw [idle, ← fault]; rfl, corrected⟩

theorem runOf_fault (q : PCmd) (ecc : Ecc) :
    (runOf q ecc).fault = if ecc = .uncorrectable then some (fBusErr, eUncorr) else none := by
  cases ecc <;> rfl

theorem State.startCmd_core_other {u : State} {c d : Nat} (ne : d ≠ c) (r : RunCmd) : (u.startCmd c r).core d = u.core d :=
  (State.core_coreMap ..).trans (if_neg ne)

/-! ## LOAD -/

/-- The tiles of a LOAD in their buffers. -/
def State.putTiles (s : State) (c : Nat) (q : PCmd) (ns : List Nat) (tiles : List (Nat × Tile)) : List (Nat × Tile) :=
  ns.foldl (fun m n => mset m (2 * q.panels.getD n 0 + q.buf) (s.readTile c q n) {}) tiles

/-- A LOAD puts its tiles in turn. -/
def State.loadTiles (c : Nat) (q : PCmd) (u : State) (n : Nat) : State :=
  u.coreMap c (fun x => { x with tiles := mset x.tiles (2 * q.panels.getD n 0 + q.buf) (u.readTile c q n) {} })

theorem State.readTile_of_staging {s u : State} (h : u.staging = s.staging) (c : Nat) (q : PCmd) (n : Nat) :
    u.readTile c q n = s.readTile c q n := by
  unfold State.readTile State.staged
  rw [h]

theorem State.loadTiles_all (s : State) (c : Nat) (q : PCmd) (ns : List Nat) (u : State) (h : u.staging = s.staging) :
    let v := ns.foldl (State.loadTiles c q) u
    v.core c = { u.core c with tiles := s.putTiles c q ns (u.core c).tiles } ∧ (∀ d, d ≠ c → v.core d = u.core d) ∧
      v = { u with cores := v.cores } := by
  induction ns generalizing u with
  | nil => exact ⟨rfl, fun _ _ => rfl, rfl⟩
  | cons n ns ih =>
    obtain ⟨own, others, rest⟩ := ih (State.loadTiles c q u n) h
    have core : ∀ d, (State.loadTiles c q u n).core d = _ := fun d => u.core_coreMap c d
      fun x => { x with tiles := mset x.tiles (2 * q.panels.getD n 0 + q.buf) (u.readTile c q n) {} }
    refine ⟨?_, fun d ne => (others d ne).trans ((core d).trans (if_neg ne)), rest⟩
    rw [List.foldl_cons, own, core, if_pos rfl, State.readTile_of_staging h]
    rfl

theorem setBits_nodup (m n : Nat) : (setBits m n).Nodup := List.nodup_range.filter _

theorem State.mget_putTiles (s : State) (c : Nat) (q : PCmd) (ns : List Nat) (tiles : List (Nat × Tile)) (nodup : ns.Nodup)
    (lt : ∀ n ∈ ns, n < q.panels.length) {n : Nat} (mem : n ∈ ns) :
    mget (s.putTiles c q ns tiles) (2 * q.panels.getD n 0 + q.buf) {} = s.readTile c q n := by
  have keys : ∀ n m, n < q.panels.length → m < q.panels.length →
      2 * q.panels.getD n 0 + q.buf = 2 * q.panels.getD m 0 + q.buf → n = m := fun n m hn hm same => by
    have panels : q.panels.Nodup := setBits_nodup _ _
    refine (panels.getElem_inj_iff (hi := hn) (hj := hm)).1 ?_
    rw [List.getD_eq_getElem _ _ hn, List.getD_eq_getElem _ _ hm] at same
    omega
  have away : ∀ (ns : List Nat) (tiles : List (Nat × Tile)) (n : Nat), (∀ m ∈ ns, m < q.panels.length) → n < q.panels.length → n ∉ ns →
      mget (s.putTiles c q ns tiles) (2 * q.panels.getD n 0 + q.buf) {} = mget tiles (2 * q.panels.getD n 0 + q.buf) {} := by
    intro ns
    induction ns with
    | nil => intros; rfl
    | cons m ms ih =>
      intro tiles n lt hn notin
      rw [List.mem_cons, not_or] at notin
      exact (ih _ n (fun k mem => lt k (by simp [mem])) hn notin.2).trans
        (mget_mset_other _ _ _ _ fun same => notin.1 (keys _ _ hn (lt m (by simp)) same))
  induction ns generalizing tiles with
  | nil => cases mem
  | cons m ms ih =>
    obtain ⟨notin, nodup⟩ := List.nodup_cons.1 nodup
    have lt' : ∀ k ∈ ms, k < q.panels.length := fun k mem => lt k (by simp [mem])
    rcases List.mem_cons.1 mem with rfl | mem
    · exact (away ms _ n lt' (lt n (by simp)) notin).trans (mget_mset_same ..)
    · exact ih _ nodup lt' mem

/-- The reloads of running passes that a LOAD notes. -/
def CoreSt.noteReload (q : PCmd) (x : CoreSt) : CoreSt :=
  { x with run := x.run.map (fun r =>
    if r.cmd.op = 2 ∧ r.cmd.buf = q.buf ∧ r.cmd.meets q then { r with reloaded := true } else r) }

section
variable {s : State} {c : Fin 64} {q : PCmd} {rest : List PCmd} (head : (s.core c.val).queue = q :: rest)
  (clock : s.clockStopped c.val = false) (idle : (s.core c.val).run = []) (ecc : Ecc)
include head clock idle

theorem exec_panelLoad (op : q.op = 1) : ∃ t, exec (.panelLoad c ecc) s = .next t ∧
    (s.core c.val).Starts (t.core c.val) q rest ecc ∧
    (∀ n, n < q.panels.length → mget (t.core c.val).tiles (2 * q.panels.getD n 0 + q.buf) {} = s.readTile c.val q n) ∧
    t.staging = s.staging ∧ t.acc = s.acc ∧ (∀ d, d ≠ c.val → t.core d = s.core d) := by
  have first : s.headCmd c.val 1 = some q := op ▸ State.headCmd_of_queue head clock
  have run : exec (.panelLoad c ecc) s = .next
      ((((List.range q.panels.length).foldl (State.loadTiles c.val q) ((s.at 0).panelEcc c.val q ecc)).coreMap c.val
        (CoreSt.noteReload q)).startCmd c.val (runOf q ecc)) := by
    refine congrArg Host.Outcome.next ?_
    rw [first]
    dsimp only
    rw [idle]
    rfl
  obtain ⟨u, hu⟩ : ∃ u, (s.at 0).panelEcc c.val q ecc = u := ⟨_, rfl⟩
  have seen : s.Seen u c.val ecc := hu ▸ ((s.at 0).panelEcc_seen c.val q ecc).at
  rw [hu] at run
  obtain ⟨own, others, only⟩ := s.loadTiles_all c.val q (List.range q.panels.length) u seen.staging
  obtain ⟨v, hv⟩ : ∃ v, (List.range q.panels.length).foldl (State.loadTiles c.val q) u = v := ⟨_, rfl⟩
  rw [hv] at run own others only
  obtain ⟨w, hw⟩ : ∃ w, v.coreMap c.val (CoreSt.noteReload q) = w := ⟨_, rfl⟩
  have wcore : ∀ d, w.core d = if d = c.val then (v.core c.val).noteReload q else v.core d := fun d => hw ▸ v.core_coreMap c.val d _
  rw [hw] at run
  have mine := (wcore c.val).trans (if_pos rfl)
  rw [own, seen.own] at mine
  have starts : (s.core c.val).Starts ((w.startCmd c.val (runOf q ecc)).core c.val) q rest ecc := by
    refine State.startCmd_starts ?_ ?_ ?_ rfl (runOf_fault q ecc)
    · rw [mine]; exact head
    · rw [mine]; exact (congrArg (List.map _) idle).trans rfl
    · rw [mine]; rfl
  refine ⟨_, run, starts, fun n lt => ?_, ?_, ?_, fun d ne => ?_⟩
  · have tiles : ((w.startCmd c.val (runOf q ecc)).core c.val).tiles = (w.core c.val).tiles :=
      (congrArg CoreSt.tiles (w.core_coreMap c.val c.val fun x => { x with queue := x.queue.drop 1, run := x.run ++ [_] })).trans
        (by rw [if_pos rfl])
    rw [tiles, mine]
    exact s.mget_putTiles c.val q _ _ List.nodup_range (fun _ mem => List.mem_range.1 mem) (List.mem_range.2 lt)
  · rw [← seen.staging, ← (by rw [only] : v.staging = u.staging), ← hw]
    rfl
  · rw [← seen.acc, ← (by rw [only] : v.acc = u.acc), ← hw]
    rfl
  · rw [State.startCmd_core_other ne, wcore, if_neg ne, others d ne, seen.cores d ne]

end

/-! ## PASS -/

section
variable {s u : State} {c : Nat} {ecc : Ecc}

theorem State.Seen.tiles (h : s.Seen u c ecc) : (u.core c).tiles = (s.core c).tiles := by rw [h.own]; rfl

theorem State.Seen.passElem (h : s.Seen u c ecc) (q : PCmd) (chain : List Nat) (m j : Nat) (mem : AccMem) :
    u.passElem c q chain m j mem = s.passElem c q chain m j mem := by
  have blocks : u.rowBlocks c q chain m j = s.rowBlocks c q chain m j := by
    unfold State.rowBlocks State.staged
    rw [h.staging, h.tiles]
  have lane : u.physOf c = s.physOf c := by rw [State.physOf, h.ptn, State.physOf]
  unfold State.passElem
  rw [blocks, lane]

/-- A PASS computes on what it finds as on the state before. -/
theorem State.Seen.passAll (h : s.Seen u c ecc) (q : PCmd) : u.passAll c q =
    { u with acc := (s.passAll c q).acc, accFlags := (s.passAll c q).accFlags, rng := (s.passAll c q).rng } := by
  have elems : u.passElem c q = s.passElem c q := by
    funext chain m j mem
    exact h.passElem q chain m j mem
  unfold State.passAll
  rw [h.acc, h.accFlags, h.rng, elems]

end

/-- The buffers that the panels of a PASS multiply with from now on (R106). -/
def CoreSt.switches (q : PCmd) (x : CoreSt) : CoreSt :=
  { x with actBuf := x.actBuf.filter (fun p => !bitOf q.pmask p) ++ (if q.buf = 1 then q.panels else []) }

theorem CoreSt.mem_switches (q : PCmd) (x : CoreSt) (p : Nat) : p ∈ (x.switches q).actBuf ↔
    (bitOf q.pmask p = true ∧ p < 4 ∧ q.buf = 1) ∨ (p ∈ x.actBuf ∧ bitOf q.pmask p = false) := by
  have panels : p ∈ q.panels ↔ p < 4 ∧ bitOf q.pmask p = true := mem_setBits
  unfold CoreSt.switches
  by_cases one : q.buf = 1
  · simp [one, panels]
    tauto
  · simp [one]

section
variable {s : State} {c : Fin 64} {q : PCmd} {rest : List PCmd} (head : (s.core c.val).queue = q :: rest)
  (clock : s.clockStopped c.val = false) (idle : (s.core c.val).run = []) (ecc : Ecc)
include head clock idle

theorem exec_pass (op : q.op = 2) : ∃ t, exec (.pass c ecc) s = .next t ∧
    (s.core c.val).Starts (t.core c.val) q rest ecc ∧ t.rng = (s.passAll c.val q).rng ∧ t.acc = (s.passAll c.val q).acc ∧
    t.accFlags = (s.passAll c.val q).accFlags ∧ (t.core c.val).actBuf = ((s.core c.val).switches q).actBuf ∧
    t.staging = s.staging ∧ t.hbm = s.hbm ∧ t.lin = s.lin ∧ (∀ d, d ≠ c.val → t.core d = s.core d) := by
  have first : s.headCmd c.val 2 = some q := op ▸ State.headCmd_of_queue head clock
  obtain ⟨u, hu⟩ : ∃ u, (s.at 0).panelEcc c.val q ecc = u := ⟨_, rfl⟩
  have seen : s.Seen u c.val ecc := hu ▸ ((s.at 0).panelEcc_seen c.val q ecc).at
  have run : exec (.pass c ecc) s = .next (((u.passAll c.val q).coreMap c.val (CoreSt.switches q)).startCmd c.val (runOf q ecc)) := by
    refine congrArg Host.Outcome.next ?_
    rw [first]
    dsimp only
    rw [idle, ← hu]
    rfl
  rw [seen.passAll] at run
  let v : State := { u with acc := (s.passAll c.val q).acc, accFlags := (s.passAll c.val q).accFlags, rng := (s.passAll c.val q).rng }
  have run : exec (.pass c ecc) s = .next ((v.coreMap c.val (CoreSt.switches q)).startCmd c.val (runOf q ecc)) := run
  obtain ⟨w, hw⟩ : ∃ w, v.coreMap c.val (CoreSt.switches q) = w := ⟨_, rfl⟩
  have wcore : ∀ d, w.core d = if d = c.val then (u.core c.val).switches q else u.core d := fun d => hw ▸ v.core_coreMap c.val d _
  rw [hw] at run
  have mine := (wcore c.val).trans (if_pos rfl)
  rw [seen.own] at mine
  have starts : (s.core c.val).Starts ((w.startCmd c.val (runOf q ecc)).core c.val) q rest ecc := by
    refine State.startCmd_starts ?_ ?_ ?_ rfl (runOf_fault q ecc)
    · rw [mine]; exact head
    · rw [mine]; exact idle
    · rw [mine]; rfl
  refine ⟨w.startCmd c.val (runOf q ecc), run, starts, by rw [← hw]; rfl, by rw [← hw]; rfl, by rw [← hw]; rfl, ?_, ?_, ?_, ?_,
    fun d ne => ?_⟩
  · rw [State.startCmd, State.core_coreMap, if_pos rfl, mine]
    rfl
  · rw [← seen.staging, ← hw]; rfl
  · rw [← seen.hbm, ← hw]; rfl
  · rw [← seen.lin, ← hw]; rfl
  · rw [State.startCmd_core_other ne, wcore, if_neg ne, seen.cores d ne]

end

end Sys2Proof.Machine

namespace Sys2Proof.Machine

/-! # DRAIN into staging memory (R115 to R118, R122) -/

theorem formBlock_codes_length (c : Nat) (cv : Conv) (rnd : Nat → Nat) (inputs : List (Option Fp)) :
    (formBlock c cv rnd inputs).codes.length = inputs.length := by
  unfold formBlock
  extract_lets raw nanEv anyNan anyInf xs
  split
  · exact List.length_map ..
  · split
    · exact List.length_map ..
    · simp [xs, raw]

theorem length_packElems (bits : Nat) (codes : List Nat) : (packElems bits codes).length = (bits * codes.length + 7) / 8 :=
  length_leBytes ..

/-- The place of a column in a row of output elements (Table 5.5). -/
def PCmd.colPlace (q : PCmd) (col : Nat) : Nat :=
  if fmtScaled q.fmtA then col / 32 * blockLen q.fmtA else col * elemBytes q.fmtA

/-- The columns that a row takes in memory. -/
def PCmd.outCols (q : PCmd) : Nat := (q.nValid + 31) / 32 * 32

/-- A unit of a row lies within the row's elements, and its scale entry within the row's scale entries. -/
structure DrainUnit.inRow (u : DrainUnit) (q : PCmd) : Prop where
  elems : q.colPlace u.col + u.bytes.length ≤ q.outCols * fmtBits q.fmtA / 8
  plain : fmtScaled q.fmtA = false → u.scale = []
  scales : fmtScaled q.fmtA = true → u.col / 32 * fmtScaleBytes q.fmtA + u.scale.length ≤ q.outCols / 32 * fmtScaleBytes q.fmtA

theorem fmtBits_of_unscaled {f : Nat} (h : fmtScaled f = false) : fmtBits f = 8 * elemBytes f := by
  have bits : fmtBits f % 8 = 0 := by
    unfold fmtScaled at h
    unfold fmtBits
    split <;> simp_all
  unfold elemBytes
  omega

theorem DrainUnit.inRow_scaled {q : PCmd} (scaled : fmtScaled q.fmtA = true) {b : Nat} (lt : b < (q.nValid + 31) / 32) {u : DrainUnit}
    (col : u.col = 32 * b) (bytes : u.bytes.length = 4 * fmtBits q.fmtA) (scale : u.scale.length = fmtScaleBytes q.fmtA) :
    u.inRow q := by
  have block : u.col / 32 = b := by omega
  have next : (b + 1) ≤ (q.nValid + 31) / 32 := lt
  refine ⟨?_, fun plain => absurd scaled (by simp [plain]), fun _ => ?_⟩
  · rw [PCmd.colPlace, if_pos scaled, block, bytes, blockLen, PCmd.outCols]
    have le := Nat.mul_le_mul_right (4 * fmtBits q.fmtA) next
    rw [Nat.add_mul, Nat.one_mul] at le
    have e : (q.nValid + 31) / 32 * 32 * fmtBits q.fmtA / 8 = (q.nValid + 31) / 32 * (4 * fmtBits q.fmtA) := by
      rw [show (q.nValid + 31) / 32 * 32 * fmtBits q.fmtA = 8 * ((q.nValid + 31) / 32 * (4 * fmtBits q.fmtA)) by ring,
        Nat.mul_div_cancel_left _ (by decide)]
    omega
  · have le := Nat.mul_le_mul_right (fmtScaleBytes q.fmtA) next
    rw [Nat.add_mul, Nat.one_mul] at le
    have cols : q.outCols / 32 = (q.nValid + 31) / 32 := by unfold PCmd.outCols; omega
    rw [block, scale, cols]
    exact le

theorem DrainUnit.inRow_plain {q : PCmd} (plain : fmtScaled q.fmtA = false) {u : DrainUnit} (lt : u.col < q.outCols)
    (bytes : u.bytes.length = elemBytes q.fmtA) (scale : u.scale = []) : u.inRow q := by
  refine ⟨?_, fun _ => scale, fun scaled => absurd scaled (by simp [plain])⟩
  rw [PCmd.colPlace, plain, if_neg Bool.false_ne_true, bytes, fmtBits_of_unscaled plain]
  have le := Nat.mul_le_mul_right (elemBytes q.fmtA) (show u.col + 1 ≤ q.outCols from lt)
  rw [Nat.add_mul, Nat.one_mul] at le
  have e : q.outCols * (8 * elemBytes q.fmtA) / 8 = q.outCols * elemBytes q.fmtA := by
    rw [Nat.mul_left_comm, Nat.mul_div_cancel_left _ (by decide)]
  omega

theorem State.drainRow_inRow (s : State) (c : Nat) (q : PCmd) (m : Nat) : ∀ u ∈ s.drainRow c q q.nValid m, u.inRow q := by
  intro u mem
  unfold State.drainRow at mem
  extract_lets fmt cv scale rnd val at mem
  split at mem
  · next scaled =>
    obtain ⟨b, lt, rfl⟩ := List.mem_map.1 mem
    refine DrainUnit.inRow_scaled scaled (List.mem_range.1 lt) rfl ?_ (length_leBytes ..)
    rw [length_packElems, formBlock_codes_length]
    simp only [List.length_map, List.length_range]
    show (fmtBits q.fmtA * 32 + 7) / 8 = _
    omega
  · next plain =>
    obtain ⟨j, lt, rfl⟩ := List.mem_map.1 mem
    have lt := List.mem_range.1 lt
    refine DrainUnit.inRow_plain (by simpa using plain) ?_ (length_leBytes ..) rfl
    show j < (q.nValid + 31) / 32 * 32
    omega

theorem PCmd.padUnits_inRow (q : PCmd) : ∀ u ∈ q.padUnits, u.inRow q := by
  intro u mem
  unfold PCmd.padUnits at mem
  split at mem
  · cases mem
  · next plain =>
    obtain ⟨k, lt, rfl⟩ := List.mem_map.1 mem
    have lt := List.mem_range.1 lt
    refine DrainUnit.inRow_plain (by simpa using plain) ?_ (List.length_replicate ..) rfl
    show q.nValid + k < (q.nValid + 31) / 32 * 32
    omega

theorem State.drainRows_succ (s : State) (c : Nat) (q : PCmd) (lim n : Nat) : s.drainRows c q lim (n + 1) =
    ((s.drainRows c q lim n).1 ++ [(s.drainRows c q lim n).2.drainRow c q lim n],
     if 2 ≤ q.f 2 25 24 then { (s.drainRows c q lim n).2 with
       rng := (s.drainRows c q lim n).2.rng.steps ((List.range lim).map ((s.drainRows c q lim n).2.drainLane c q)) }
     else (s.drainRows c q lim n).2) := by
  unfold State.drainRows
  rw [List.range_succ, List.foldl_append]
  rfl

/-- The rows of a drain change the generators alone. -/
theorem State.drainRows_spec (s : State) (c : Nat) (q : PCmd) (n : Nat) : (s.drainRows c q q.nValid n).1.length = n ∧
    (∀ us ∈ (s.drainRows c q q.nValid n).1, ∀ u ∈ us, u.inRow q) ∧
    (s.drainRows c q q.nValid n).2 = { s with rng := (s.drainRows c q q.nValid n).2.rng } := by
  induction n with
  | zero => exact ⟨rfl, by simp [State.drainRows], rfl⟩
  | succ n ih =>
    obtain ⟨length, rows, rest⟩ := ih
    rw [State.drainRows_succ]
    refine ⟨by rw [List.length_append, length]; rfl, fun us mem => ?_, ?_⟩
    · rcases List.mem_append.1 mem with old | new
      · exact rows us old
      · rw [List.mem_singleton.1 new]
        exact State.drainRow_inRow _ c q n
    · dsimp only
      split
      · rw [rest]
      · exact rest

/-- A row of units goes to staging memory, elements at `e` and scale entries at `sc`. -/
def PCmd.writeRow (q : PCmd) (e sc : Nat) (us : List DrainUnit) (mem : List Host.Cell) : List Host.Cell :=
  us.foldl (fun mem u => writeCells (writeCells mem (e + q.colPlace u.col) u.bytes) (sc + u.col / 32 * fmtScaleBytes q.fmtA) u.scale) mem

theorem PCmd.mget_writeRow_other (q : PCmd) {e sc : Nat} (us : List DrainUnit) (mem : List Host.Cell) {a : Nat}
    (rows : ∀ u ∈ us, u.inRow q) (elems : a < e ∨ e + q.outCols * fmtBits q.fmtA / 8 ≤ a)
    (scales : fmtScaled q.fmtA = true → a < sc ∨ sc + q.outCols / 32 * fmtScaleBytes q.fmtA ≤ a) :
    mget (q.writeRow e sc us mem) a 0 = mget mem a 0 := by
  unfold PCmd.writeRow
  refine List.foldlRecOn (motive := fun m => mget m a 0 = mget mem a 0) us _ rfl fun m hm u hu => ?_
  obtain ⟨inElems, plain, inScales⟩ := rows u hu
  have first : mget (writeCells m (e + q.colPlace u.col) u.bytes) a 0 = mget m a 0 := mget_writeCells_other _ _ _ _ (by omega)
  by_cases scaled : fmtScaled q.fmtA = true
  · have inScales := inScales scaled
    have away := scales scaled
    exact (mget_writeCells_other _ _ _ _ (by omega)).trans (first.trans hm)
  · rw [plain (by simpa using scaled)]
    exact first.trans hm

/-- The rows of a drain go to staging memory. -/
def PCmd.writeRows (q : PCmd) (c : Nat) (rows : List (List DrainUnit)) (mem : List Host.Cell) : List Host.Cell :=
  (List.range rows.length).foldl (fun mem m => q.writeRow (c * 2 ^ 21 + q.f 4 13 0 * 128 + m * (q.f 4 27 14 * 128))
    (c * 2 ^ 21 + q.f 5 15 0 * 32 + m * (q.f 5 31 16 * 32)) (rows.getD m [] ++ q.padUnits) mem) mem

theorem State.drainStaging_eq (s : State) (c : Nat) (r : RunCmd) : s.drainStaging c r =
    (r.counted (s.drainRows c r.cmd r.cmd.nValid r.cmd.rows).1 r.cmd.nValid 0 0,
     { (s.drainRows c r.cmd r.cmd.nValid r.cmd.rows).2 with
       staging := r.cmd.writeRows c (s.drainRows c r.cmd r.cmd.nValid r.cmd.rows).1
         (s.drainRows c r.cmd r.cmd.nValid r.cmd.rows).2.staging }) := rfl

/-- A region of staging memory ends within the core's 2 MiB. -/
theorem regionOk_le {base count stride item : Nat} (h : regionOk base count stride item = true) {m : Nat} (lt : m < count) :
    base + m * stride + item ≤ 2 ^ 21 := by
  simp only [regionOk, Bool.and_eq_true, decide_eq_true_eq] at h
  have le := Nat.mul_le_mul_right stride (show m ≤ count - 1 by omega)
  omega

/-- A drain that meets R122 stores into its core's staging memory alone. -/
theorem PCmd.mget_writeRows_other (q : PCmd) {x : CoreSt} (ok : q.drainOk x = true) (dest : q.f 2 19 19 = 0) (c : Nat)
    (rows : List (List DrainUnit)) (length : rows.length = q.rows) (inRows : ∀ us ∈ rows, ∀ u ∈ us, u.inRow q) (mem : List Host.Cell)
    {a : Nat} (away : a < c * 2 ^ 21 ∨ (c + 1) * 2 ^ 21 ≤ a) : mget (q.writeRows c rows mem) a 0 = mget mem a 0 := by
  unfold PCmd.writeRows
  unfold PCmd.drainOk at ok
  dsimp only at ok
  rw [if_neg (by omega)] at ok
  simp only [Bool.and_eq_true, Bool.or_eq_true, Bool.not_eq_true'] at ok
  obtain ⟨-, ⟨-, elems⟩, scales⟩ := ok
  rw [Nat.succ_mul] at away
  generalize c * 2 ^ 21 = start at away ⊢
  refine List.foldlRecOn (motive := fun m => mget m a 0 = mget mem a 0) _ _ rfl fun m hm n hn => ?_
  have lt : n < q.rows := by rw [← length]; exact List.mem_range.1 hn
  refine (q.mget_writeRow_other _ _ (fun u mem => ?_) ?_ fun scaled => ?_).trans hm
  · rcases List.mem_append.1 mem with own | pad
    · have row : rows.getD n [] ∈ rows := by
        rw [List.getD_eq_getElem _ _ (by omega)]
        exact List.getElem_mem _
      exact inRows _ row u own
    · exact q.padUnits_inRow u pad
  · have le := regionOk_le elems lt
    rw [← PCmd.outCols] at le
    omega
  · have le := regionOk_le (scales.resolve_left (by simp [scaled])) lt
    rw [← PCmd.outCols] at le
    omega

/-- A drain's running command, with the fit binding of its target. -/
def CoreSt.drainRun (x : CoreSt) (q : PCmd) (ecc : Ecc) : RunCmd :=
  let b := mget x.binds q.target {}
  { runOf q ecc with fitId := b.id, fitAmax := b.amax, fitProof := b.proof, fitSrc := b.src, ctx := b.ctx }

section
variable {s : State} {c : Fin 64} {q : PCmd} {rest : List PCmd} (head : (s.core c.val).queue = q :: rest)
  (clock : s.clockStopped c.val = false) (idle : (s.core c.val).run = []) (ecc desc : Ecc)
include head clock idle

theorem exec_drain (op : q.op = 3) (dest : q.f 2 19 19 = 0) : ∃ t, exec (.drain c ecc desc) s = .next t ∧
    (s.core c.val).Starts (t.core c.val) q rest ecc ∧ t.acc = s.acc ∧ t.accFlags = s.accFlags ∧ t.hbm = s.hbm ∧
    t.lin.calm = s.lin.calm ∧ (∀ a, (a < c.val * 2 ^ 21 ∨ (c.val + 1) * 2 ^ 21 ≤ a) → q.drainOk (s.core c.val) = true →
      mget t.staging a 0 = mget s.staging a 0) ∧ (∀ d, d ≠ c.val → t.core d = s.core d) := by
  let s0 : State := { s with lin := s.lin.calm }
  have first : s0.headCmd c.val 3 = some q := op ▸ State.headCmd_of_queue head clock
  obtain ⟨u, hu⟩ : ∃ u, s0.panelEcc c.val q ecc = u := ⟨_, rfl⟩
  have seen : s0.Seen u c.val ecc := hu ▸ s0.panelEcc_seen c.val q ecc
  let r := (s.core c.val).drainRun q ecc
  obtain ⟨length, inRows, only⟩ := u.drainRows_spec c.val q q.rows
  obtain ⟨e, he⟩ : ∃ e, u.drainRows c.val q q.nValid q.rows = e := ⟨_, rfl⟩
  rw [he] at length inRows only
  obtain ⟨v, hv⟩ : ∃ v : State, { e.2 with staging := q.writeRows c.val e.1 e.2.staging } = v := ⟨_, rfl⟩
  let f : State → State := fun s => match s.headCmd c.val 3 with
    | none => s
    | some q =>
      if (s.core c.val).run.any (fun r => r.cmd.op == 2 && r.cmd.sharesRows q) then s
      else
        let u := if q.f 2 19 19 = 1 then (s.panelEcc c.val q ecc).drainTensor c.val ((s.core c.val).drainRun q ecc) desc
          else (s.panelEcc c.val q ecc).drainStaging c.val ((s.core c.val).drainRun q ecc)
        u.2.startCmd c.val u.1
  have acts : f s0 = v.startCmd c.val (r.counted e.1 q.nValid 0 0) := by
    have free : ¬((s0.core c.val).run.any (fun r => r.cmd.op == 2 && r.cmd.sharesRows q)) = true := by
      rw [show (s0.core c.val).run = [] from idle]
      exact Bool.false_ne_true
    show (match s0.headCmd c.val 3 with
      | none => s0
      | some q => _) = _
    rw [first]
    dsimp only
    rw [if_neg free, if_neg (by omega), hu, State.drainStaging_eq, show ((s0.core c.val).drainRun q ecc).cmd = q from rfl, he, hv]
    rfl
  have vlin : v.lin = s.lin.calm := by
    rw [← hv]
    show e.2.lin = _
    rw [only]
    exact seen.lin
  have vcore : ∀ d, v.core d = u.core d := fun d => State.core_of_cores (by rw [← hv]; show e.2.cores = _; rw [only]) d
  have stuck : (f s0).lin.stuck = none := by
    rw [acts]
    show v.lin.stuck = none
    rw [vlin]
    rfl
  have run : exec (.drain c ecc desc) s = .next (s.together f) := rfl
  rw [together_free s f stuck, show f { s with lin := s.lin.calm } = _ from acts] at run
  obtain ⟨w, hw⟩ : ∃ w, v.startCmd c.val (r.counted e.1 q.nValid 0 0) = w := ⟨_, rfl⟩
  have starts : (s.core c.val).Starts (w.core c.val) q rest ecc := by
    rw [← hw]
    refine State.startCmd_starts ?_ ?_ ?_ rfl (runOf_fault q ecc)
    · rw [vcore, seen.own]; exact head
    · rw [vcore, seen.own]; exact idle
    · rw [vcore, seen.own]; rfl
  rw [hw] at run
  refine ⟨_, run, starts, ?_, ?_, ?_, ?_, fun a away ok => ?_, fun d ne => ?_⟩
  · show w.acc = s.acc
    rw [← hw, State.startCmd, ← hv]
    show e.2.acc = _
    rw [only]
    exact seen.acc
  · show w.accFlags = s.accFlags
    rw [← hw, State.startCmd, ← hv]
    show e.2.accFlags = _
    rw [only]
    exact seen.accFlags
  · show w.hbm = s.hbm
    rw [← hw, State.startCmd, ← hv]
    show e.2.hbm = _
    rw [only]
    exact seen.hbm
  · show w.lin.calm = s.lin.calm
    rw [← hw]
    show v.lin.calm = _
    rw [vlin]
    rfl
  · have staging : w.staging = q.writeRows c.val e.1 s.staging := by
      rw [← hw, State.startCmd, ← hv]
      show q.writeRows c.val e.1 e.2.staging = _
      rw [only]
      exact congrArg _ seen.staging
    show mget w.staging a 0 = _
    rw [staging]
    exact q.mget_writeRows_other ok dest c.val e.1 length inRows _ away
  · show w.core d = _
    rw [← hw, State.startCmd_core_other ne, vcore]
    exact seen.cores d ne

end

/-- Settles O19. -/
theorem panelCommandsStart : Obligations.PanelCommandsStart := by
  unfold Obligations.PanelCommandsStart
  intro c q rest ecc s seen head clock idle
  refine ⟨fun op => ?_, fun op => ?_, fun op dest desc => ?_⟩
  · obtain ⟨t, run, ⟨queue, cmd, fault, corrected⟩, tiles, staging, acc, others⟩ := exec_panelLoad head clock idle ecc op
    exact ⟨t, run, queue, cmd, ⟨fault, corrected⟩, tiles, staging, acc, others⟩
  · obtain ⟨t, run, ⟨queue, cmd, fault, corrected⟩, rng, acc, flags, act, staging, hbm, lin, others⟩ := exec_pass head clock idle ecc op
    exact ⟨t, run, queue, cmd, ⟨fault, corrected⟩, rng, acc, flags, fun p => by rw [act]; exact CoreSt.mem_switches .., staging, hbm,
      lin, others⟩
  · obtain ⟨t, run, ⟨queue, cmd, fault, corrected⟩, acc, flags, hbm, lin, kept, others⟩ := exec_drain head clock idle ecc desc op dest
    exact ⟨t, run, queue, cmd, ⟨fault, corrected⟩, acc, flags, hbm, lin, fun a away _ ok => kept a away ok, others⟩

end Sys2Proof.Machine

namespace Sys2Proof.Machine

/-! # PANEL commands complete (R117, R118, R120, R121, R144) -/

theorem State.threadOnly.now {s t : State} (h : s.threadOnly t) : t.now = s.now := (congrArg State.now h :)

/-! ## What a group that goes on leaves of the panel state -/

/-- A core's panel state, but for whose the queued and running commands still are. -/
def CoreSt.panels (x : CoreSt) : CoreSt :=
  { x with
    queue := x.queue.map (fun q => { q with gone := false }), run := x.run.map (fun r => { r with cmd := { r.cmd with gone := false } })
    stalled := [], activeSet := [] }

/-- Only thread state differs, and the panel state of cores is as before. -/
structure State.goesOn (s t : State) : Prop where
  only : s.threadOnly t
  panels : ∀ c, (t.core c).panels = (s.core c).panels

theorem State.goesOn.refl (s : State) : s.goesOn s := ⟨rfl, fun _ => rfl⟩

theorem State.goesOn.trans {s t u : State} (h : s.goesOn t) (k : t.goesOn u) : s.goesOn u :=
  ⟨h.only.trans k.only, fun c => (k.panels c).trans (h.panels c)⟩

theorem State.arranges.goesOn {s t : State} (h : s.arranges t) : s.goesOn t :=
  ⟨h.threadOnly, fun c => (congrArg CoreSt.panels (h.core c) :)⟩

theorem State.groupSet_goesOn (s : State) (gx : Nat) (y : Group) : s.goesOn (s.groupSet gx y) := ⟨rfl, fun _ => rfl⟩

theorem CoreSt.without_panels (x : CoreSt) (slot : Nat) : (x.without slot).panels = x.panels := by
  have own : ∀ q : PCmd, ({ (if q.slot = slot then { q with gone := true } else q) with gone := false } : PCmd) =
      { q with gone := false } := fun q => by split <;> rfl
  have queue : (x.queue.map (fun q => if q.slot = slot then { q with gone := true } else q)).map (fun q : PCmd => { q with gone := false }) =
      x.queue.map (fun q => { q with gone := false }) := by
    rw [List.map_map]
    exact List.map_congr_left fun q _ => own q
  have run : (x.run.map (fun r => { r with cmd := if r.cmd.slot = slot then { r.cmd with gone := true } else r.cmd })).map
      (fun r : RunCmd => { r with cmd := { r.cmd with gone := false } }) = x.run.map (fun r => { r with cmd := { r.cmd with gone := false } }) := by
    rw [List.map_map]
    exact List.map_congr_left fun r _ => congrArg (fun q => ({ r with cmd := q } : RunCmd)) (own r.cmd)
  unfold CoreSt.panels CoreSt.without
  dsimp only
  rw [queue, run]

theorem State.freeSlot_goesOn (s : State) (gx : Nat) : s.goesOn (s.freeSlot gx) := by
  refine ⟨s.freeSlot_threadOnly gx, fun c => ?_⟩
  have dropped := (State.dropActive_arranges ((s.jobDropped gx).groupSet gx {}) gx).goesOn.panels
  have noted : ∀ d, (((s.jobDropped gx).groupSet gx {}).core d).panels = (s.core d).panels := fun d =>
    congrArg CoreSt.panels ((s.jobDropped_notes gx).core d)
  rw [State.freeSlot_eq, State.core_coreMap]
  split
  · next h =>
    subst h
    rw [CoreSt.without_panels, dropped, noted]
  · rw [dropped, noted]

theorem State.settleGroup_goesOn (s : State) (gx : Nat) : s.goesOn (s.settleGroup gx) := by
  unfold State.settleGroup
  dsimp only
  split
  · exact s.freeSlot_goesOn gx
  · split
    · exact (s.groupSet_goesOn gx _).trans (State.leaveActive_arranges _ gx).goesOn
    · exact s.groupSet_goesOn gx _

theorem State.pass_goesOn (s : State) (gx : Nat) : s.goesOn (s.pass gx) :=
  (s.groupSet_goesOn gx (s.group gx).passed).trans (State.settleGroup_goesOn _ gx)

/-! ## Completion counters -/

/-- A core whose completion counter `k` goes up. -/
def CoreSt.counts (x : CoreSt) (k : Nat) : CoreSt := { x with ctrs := mset x.ctrs k ((mget x.ctrs k 0 + 1) % 2 ^ 16) 0 }

/-- Waits that a counter ends end, and that is all. -/
theorem State.countUp_goesOn (s : State) (c : Nat) {k : Nat} (some : k ≠ 0) : (s.coreMap c (·.counts k)).goesOn (s.countUp c k) := by
  unfold State.countUp
  rw [if_neg some]
  refine List.foldlRecOn (motive := fun u : State => State.goesOn _ u) _ _ (State.goesOn.refl _) fun u hu n _ => hu.trans ?_
  dsimp only
  split
  · split
    · exact u.pass_goesOn _
    · exact .refl u
  · exact .refl u

section
variable {s t : State} {c : Nat}

theorem State.goesOn.words (h : s.goesOn t) (c : Nat) : (t.core c).queue.map (·.words) = (s.core c).queue.map (·.words) := by
  have queue := congrArg (fun x : CoreSt => x.queue.map (·.words)) (h.panels c)
  simpa [CoreSt.panels, Function.comp_def] using queue

theorem State.goesOn.slots (h : s.goesOn t) (c : Nat) : (t.core c).slots = (s.core c).slots := (congrArg CoreSt.slots (h.panels c) :)
theorem State.goesOn.flags (h : s.goesOn t) (c : Nat) : (t.core c).flags = (s.core c).flags := (congrArg CoreSt.flags (h.panels c) :)
theorem State.goesOn.ctrs (h : s.goesOn t) (c : Nat) : (t.core c).ctrs = (s.core c).ctrs := (congrArg CoreSt.ctrs (h.panels c) :)

theorem State.goesOn.idle (h : s.goesOn t) (c : Nat) (idle : (s.core c).run = []) : (t.core c).run = [] := by
  have run := congrArg CoreSt.run (h.panels c)
  simpa [CoreSt.panels, idle] using run

/-- What a completion leaves: the counter it names has gone up. -/
structure State.Completed (s t : State) (c k : Nat) : Prop where
  only : s.threadOnly t
  words : (t.core c).queue.map (·.words) = (s.core c).queue.map (·.words)
  slots : (t.core c).slots = (s.core c).slots
  flags : (t.core c).flags = (s.core c).flags
  idle : (s.core c).run = [] → (t.core c).run = []
  counted : k ≠ 0 → mget (t.core c).ctrs k 0 = (mget (s.core c).ctrs k 0 + 1) % 2 ^ 16

theorem State.countUp_completed (s : State) (c k : Nat) : s.Completed (s.countUp c k) c k := by
  by_cases some : k = 0
  · rw [State.countUp, if_pos some]
    exact ⟨rfl, rfl, rfl, rfl, id, absurd some⟩
  · have on := s.countUp_goesOn c some
    have core : (s.coreMap c (·.counts k)).core c = (s.core c).counts k := (State.core_coreMap ..).trans (if_pos rfl)
    exact ⟨(s.coreMap_threadOnly ..).trans on.only, (on.words c).trans (by rw [core]; rfl), (on.slots c).trans (by rw [core]; rfl),
      (on.flags c).trans (by rw [core]; rfl), fun idle => on.idle c (by rw [core]; exact idle),
      fun _ => by rw [on.ctrs, core]; exact mget_mset_same ..⟩

end

/-! ## BIND and FENCE -/

/-- A core that takes a BIND. -/
def CoreSt.binding (q : PCmd) (x : CoreSt) : CoreSt :=
  { x with queue := x.queue.drop 1, slots := mput x.slots (q.f 2 18 16) (q.f 1 31 0 + 2 ^ 32 * q.f 2 15 0),
           flags := mdel x.flags (q.f 2 18 16) }

/-- A core that takes a FENCE. -/
def CoreSt.fencing (x : CoreSt) : CoreSt := { x with queue := x.queue.drop 1 }

/-- What COMMAND_COMPLETE does where none of its accesses has to wait. -/
def State.commandDone (c k : Nat) (s : State) : State :=
  match (if s.clockStopped c then none else (s.core c).run[k]?) with
  | none => s
  | some r =>
    let (r, s) := s.pumpDrain c r
    if !r.toSend.isEmpty || !r.sent.isEmpty then s.coreMap c (fun x => { x with run := x.run.set k r })
    else
      let s := s.at (r.since + s.coreNs c r.cmd.cycles)
      let (r, s) := s.drainTally c r
      let s := s.coreMap c (fun x => { x with run := x.run.eraseIdx k })
      let s := if r.cmd.op = 3 then s.drainDone c r else s
      (s.countUp c r.cmd.ctr).asyncFault c r

section
variable {s : State} {c : Fin 64} {q : PCmd} {rest : List PCmd} (clock : s.clockStopped c.val = false)
include clock

theorem exec_bind (head : (s.core c.val).queue = q :: rest) (op : q.op = 4) :
    exec (.bind c) s = .next ((s.coreMap c.val (CoreSt.binding q)).countUp c.val q.ctr) := by
  have first : s.headCmd c.val 4 = some q := op ▸ State.headCmd_of_queue head clock
  refine congrArg Host.Outcome.next ?_
  rw [first]
  rfl

theorem exec_panelFence (head : (s.core c.val).queue = q :: rest) (op : q.op = 5) (idle : (s.core c.val).run = []) :
    exec (.panelFence c) s = .next ((s.coreMap c.val CoreSt.fencing).countUp c.val q.ctr) := by
  have first : s.headCmd c.val 5 = some q := op ▸ State.headCmd_of_queue head clock
  refine congrArg Host.Outcome.next ?_
  rw [first]
  exact if_neg (by rw [idle]; decide)

/-! ## LOAD and PASS complete -/

/-- A LOAD or PASS that runs alone completes. -/
theorem exec_commandComplete {r : RunCmd} (alone : (s.core c.val).run = [r]) (unsent : r.toSend = []) (answered : r.sent = [])
    (other : r.cmd.op ≠ 3) (plain : r.tally = false) (good : r.fault = none) :
    ∃ t, exec (.commandComplete c 0) s = .next t ∧ (t.core c.val).run = [] ∧
      (r.cmd.ctr ≠ 0 → mget (t.core c.val).ctrs r.cmd.ctr 0 = (mget (s.core c.val).ctrs r.cmd.ctr 0 + 1) % 2 ^ 16) ∧
      t.acc = s.acc ∧ t.staging = s.staging ∧ s.now ≤ t.now := by
  let s0 : State := { s with lin := s.lin.calm }
  let u := (s0.at (r.since + s0.coreNs c.val r.cmd.cycles)).coreMap c.val (fun x => { x with run := x.run.eraseIdx 0 })
  have found : (if s0.clockStopped c.val then none else (s0.core c.val).run[0]?) = some r := by
    rw [show s0.clockStopped c.val = false from clock, show (s0.core c.val).run = [r] from alone]
    rfl
  have pump : s0.pumpDrain c.val r = (r, s0) := by
    have same : { r with toSend := [] } = r := by rw [← unsent]
    rw [State.pumpDrain, unsent, same]
    rfl
  have tally : ∀ v : State, v.drainTally c.val r = (r, v) := fun v => if_pos (by simp [plain])
  have acts : s0.commandDone c.val 0 = u.countUp c.val r.cmd.ctr := by
    rw [State.commandDone, found]
    simp only [pump, unsent, answered, tally, if_neg other]
    rw [State.asyncFault, good]
    rfl
  have own : u.core c.val = { s.core c.val with run := (s.core c.val).run.eraseIdx 0 } := (State.core_coreMap ..).trans (if_pos rfl)
  obtain ⟨w, hw⟩ : ∃ w, u.countUp c.val r.cmd.ctr = w := ⟨_, rfl⟩
  have done := u.countUp_completed c.val r.cmd.ctr
  rw [hw] at acts done
  have stuck : (State.commandDone c.val 0 s0).lin.stuck = none := by
    rw [acts, done.only.lin]
    rfl
  have run : exec (.commandComplete c 0) s = .next (s.together (State.commandDone c.val 0)) := rfl
  rw [together_free s _ stuck, acts] at run
  have ended := done.idle (by rw [own, alone]; rfl)
  refine ⟨_, run, ended, fun some => ?_, done.only.acc, done.only.staging, ?_⟩
  · refine (done.counted some).trans ?_
    rw [own]
  · show s.now ≤ w.now
    rw [done.only.now]
    exact le_max_left ..

end

/-- Settles O20. -/
theorem panelCommandsComplete : Obligations.PanelCommandsComplete := by
  unfold Obligations.PanelCommandsComplete
  intro c q rest s clock up
  refine ⟨fun head op => ?_, fun head op idle => ?_, fun r alone unsent answered op plain good => ?_⟩
  · have done := (s.coreMap c.val (CoreSt.binding q)).countUp_completed c.val q.ctr
    have own : (s.coreMap c.val (CoreSt.binding q)).core c.val = (s.core c.val).binding q := (State.core_coreMap ..).trans (if_pos rfl)
    refine ⟨_, exec_bind clock head op, done.words.trans ?_, ?_, ?_, fun some => (done.counted some).trans (by rw [own]; rfl)⟩
    · rw [own, CoreSt.binding, head]
      rfl
    · rw [done.slots, own]
      exact mget_mput_same ..
    · rw [done.flags, own]
      exact mget_mdel_same ..
  · have done := (s.coreMap c.val CoreSt.fencing).countUp_completed c.val q.ctr
    have own : (s.coreMap c.val CoreSt.fencing).core c.val = (s.core c.val).fencing := (State.core_coreMap ..).trans (if_pos rfl)
    refine ⟨_, exec_panelFence clock head op idle, done.words.trans ?_, fun some => (done.counted some).trans (by rw [own]; rfl),
      done.only.acc, done.only.staging⟩
    rw [own, CoreSt.fencing, head]
    rfl
  · exact exec_commandComplete clock alone unsent answered (by omega) plain good

end Sys2Proof.Machine

/-! # Fit records, proof groups and PROOFPOST -/

namespace Sys2Proof.Machine

theorem State.reqOrder_of_atOnce {s : State} {r : Req} (ready : atOnce s r) (c : Instr) (body : State → State) :
    s.reqOrder r c body = body s := by
  cases r with
  | fn f => exact State.inOrder_of_ready ready c body
  | firmware => rfl

theorem State.threadOnly.fit {s t : State} (h : s.threadOnly t) : t.fit = s.fit := (congrArg State.fit h :)

theorem State.fitRec_of_fit {s t : State} (h : t.fit = s.fit) (f : Nat) : t.fitRec f = s.fitRec f := by
  rw [State.fitRec, h, State.fitRec]

theorem exec_fitRecRead_latches {s : State} {r : Req} (host : ∀ p k, r ≠ .fn (.vf p k)) (ready : atOnce s r) :
    exec (.fitRecRead r) s = .next
      ({ s with fitLatch := (s.fitRec (s.rf Reg.TICK_FIT_SEL 11 0)).words }.answer
        { value := ((s.fitRec (s.rf Reg.TICK_FIT_SEL 11 0)).words.headD 0).toNat }) := by
  refine congrArg Host.Outcome.next ((State.reqOrder_of_atOnce ready ..).trans ?_)
  cases r with
  | firmware => rfl
  | fn f =>
    cases f with
    | pf => rfl
    | vf p k => exact absurd rfl (host p k)

theorem exec_proofGroupStart_starts {s : State} {c : Fin 64} {p k : Nat} {j : Job} {rest : List Job}
    (part : s.corePart c.val = some p) (clock : s.clockStopped c.val = false) (waits : (s.core c.val).proofQ = j :: rest)
    (slot : (List.range 64).find? (fun k => s.proofSlot c.val k && (s.group (gix c.val k)).st == .free) = some k) :
    exec (.proofGroupStart c) s = .next ((s.coreSet c.val { s.core c.val with proofQ := rest }).groupSet (gix c.val k)
      { newGroup (s.ptn.running.proofEntry p) with job := some j }) := by
  refine congrArg Host.Outcome.next ?_
  simp only [clock, part, waits, slot, Bool.false_eq_true, if_false]

/-- What a posted proof result leaves of the fit records. -/
structure State.Posts (s t : State) (j : Job) : Prop where
  groups : t.groups = s.groups
  samples : (s.fitRec j.fitId).gen = j.gen → (t.fitRec j.fitId).samples = min 0xFFFF ((s.fitRec j.fitId).samples + 1)
  discards : (s.fitRec j.fitId).gen ≠ j.gen → t.fit = s.fit

theorem State.proofPost_posts (s : State) (c p : Nat) (j : Job) (num den : Nat) : s.Posts (s.proofPost c p j num den) j := by
  by_cases gen : (s.fitRec j.fitId).gen = j.gen
  · refine ⟨?_, fun _ => ?_, fun ne => absurd gen ne⟩
    all_goals rw [State.proofPost, if_neg (not_not_intro gen)]; dsimp only; split
    · rfl
    · rfl
    · exact congrArg FitRec.samples (mget_mset_same ..)
    · exact congrArg FitRec.samples (mget_mset_same ..)
  · have same : s.proofPost c p j num den = s := by rw [State.proofPost, if_pos gen]
    rw [same]
    exact ⟨rfl, fun eq => absurd eq gen, fun _ => rfl⟩

theorem State.Posts.of_fit {s t u : State} {j : Job} (h : s.Posts t j) (fit : u.fit = t.fit) :
    ((s.fitRec j.fitId).gen = j.gen → (u.fitRec j.fitId).samples = min 0xFFFF ((s.fitRec j.fitId).samples + 1)) ∧
      ((s.fitRec j.fitId).gen ≠ j.gen → u.fit = s.fit) :=
  ⟨fun gen => (congrArg FitRec.samples (State.fitRec_of_fit fit _)).trans (h.samples gen), fun gen => fit.trans (h.discards gen)⟩

/-- PROOFPOST of a proof group, in the state its issue has left. -/
def State.postSums (s : State) (gx : Nat) (i : Insn) (j : Job) : State :=
  let x := s.group gx
  let sum := fun r => (lanesOf x.active).foldl (fun a l => add64 a (widen64 (x.w l r))) 0
  ((s.proofPost (gx / 64) (s.groupPart gx) j (sum i.a.toNat) (sum i.b.toNat)).groupMap gx
    (fun y => { y with job := none })).freeSlot gx

theorem State.postSums_frees (s : State) (gx : Nat) (i : Insn) (j : Job) :
    ((s.postSums gx i j).group gx).st = .free ∧
      ((s.fitRec j.fitId).gen = j.gen →
        ((s.postSums gx i j).fitRec j.fitId).samples = min 0xFFFF ((s.fitRec j.fitId).samples + 1)) ∧
      ((s.fitRec j.fitId).gen ≠ j.gen → (s.postSums gx i j).fit = s.fit) := by
  refine ⟨congrArg Group.st (State.group_freeSlot_same ..), (s.proofPost_posts ..).of_fit (State.freeSlot_threadOnly ..).fit⟩

theorem Issues.proofpost {s : State} {g : GroupId} {i : Insn} {j : Job} (proof : (s.group (gid g)).job = some j)
    (h : Issues s g i { grp := true, a := .regs 1, b := .regs 1, mod := modOnly i 0, drain := true }) :
    ∃ u n, s.Found u g 0x75 i n ∧ exec (.proofpost g i) s = .next (u.postSums (gid g) i j) := by
  obtain ⟨u, n, found, issue⟩ := h.begins 0x75
  refine ⟨u, n, found, congrArg Host.Outcome.next ((issue _).trans ?_)⟩
  have job : (u.group (gid g)).job = some j := by rw [found.group]; exact proof
  simp only [job]
  rfl

/-- Settles O21: each of the three commands is opened once; what PROOFPOST leaves of the records is stated apart. -/
theorem fittingAndProof : Obligations.FittingAndProof := by
  unfold Obligations.FittingAndProof
  intro s
  refine ⟨fun r host ready => ⟨_, exec_fitRecRead_latches host ready, rfl, rfl, rfl⟩, ?_, ?_⟩
  · intro c p j rest k part clock waits slot
    refine ⟨_, exec_proofGroupStart_starts part clock waits slot, ?_, ?_, ?_, ?_, ?_, rfl⟩
    · exact congrArg CoreSt.proofQ (mget_mset_same ..)
    · exact congrArg Group.job (State.group_groupSet_same ..)
    · exact congrArg Group.st (State.group_groupSet_same ..)
    · exact congrArg Group.pc (State.group_groupSet_same ..)
    · exact fun h ne => (State.group_groupSet_other _ _ ne).trans rfl
  · intro g i j proof h
    obtain ⟨u, n, found, e⟩ := h.proofpost proof
    have fit := found.frame.threadOnly.fit
    have posts := u.postSums_frees (gid g) i j
    rw [State.fitRec_of_fit fit, fit] at posts
    exact ⟨_, e, posts⟩

end Sys2Proof.Machine

/-! # CVT and the conversion counts -/

namespace Sys2Proof.Machine

/-- What CVT makes of one lane: lane, value of D, scale entry, event. -/
abbrev CvtLane := Nat × Nat × Nat × ConvEvent

/-- A lane's conversion written and its event counted. -/
def Group.takesCvt (scaled : Bool) (d : Nat) (y : Group) (o : CvtLane) : Group :=
  let y := y.wSet o.1 d (BitVec.ofNat 32 o.2.1)
  let y := if scaled then y.wSet o.1 (d + 1) (BitVec.ofNat 32 o.2.2.1) else y
  y.event o.2.2.2

/-- How many lanes had an event. -/
def tally (e : ConvEvent) (ls : List CvtLane) : Nat := (ls.filter (fun o => o.2.2.2 == e)).length

theorem tally_cons (e : ConvEvent) (o : CvtLane) (ls : List CvtLane) :
    tally e (o :: ls) = (if o.2.2.2 = e then 1 else 0) + tally e ls := by
  unfold tally
  by_cases h : o.2.2.2 = e
  · simp [h]; omega
  · simp [h]

@[simp] theorem Group.event_regs (x : Group) (e : ConvEvent) : (x.event e).regs = x.regs := by cases e <;> rfl

theorem Group.event_eq (x : Group) (e : ConvEvent) (n : x.cvNan ≤ 0xFFFF) (o : x.cvOvf ≤ 0xFFFF) (f : x.cvFlush ≤ 0xFFFF) :
    x.event e = { x with cvNan := min 0xFFFF (x.cvNan + if e = .nan then 1 else 0),
                         cvOvf := min 0xFFFF (x.cvOvf + if e = .overflow then 1 else 0),
                         cvFlush := min 0xFFFF (x.cvFlush + if e = .flush then 1 else 0) } := by
  cases e <;> simp [Group.event, Nat.min_eq_right n, Nat.min_eq_right o, Nat.min_eq_right f]

/-- What the conversions of lanes leave of a group. -/
structure Group.Converts (scaled : Bool) (d : Nat) (ls : List CvtLane) (x y : Group) : Prop where
  rest : y = { x with regs := y.regs, cvNan := y.cvNan, cvOvf := y.cvOvf, cvFlush := y.cvFlush }
  value : ∀ o ∈ ls, y.w o.1 d = BitVec.ofNat 32 o.2.1
  entry : ∀ o ∈ ls, scaled = true → y.w o.1 (d + 1) = BitVec.ofNat 32 o.2.2.1
  kept : ∀ l r, r < 128 → ¬(l ∈ ls.map Prod.fst ∧ (r = d ∨ (scaled = true ∧ r = d + 1))) → y.w l r = x.w l r
  nan : y.cvNan = min 0xFFFF (x.cvNan + tally .nan ls)
  ovf : y.cvOvf = min 0xFFFF (x.cvOvf + tally .overflow ls)
  flush : y.cvFlush = min 0xFFFF (x.cvFlush + tally .flush ls)

section
variable {scaled : Bool} {d : Nat} (low : d < 128) (pair : scaled = true → d + 1 < 128)
include low pair

theorem Group.takesCvt_converts (x : Group) (o : CvtLane) (n : x.cvNan ≤ 0xFFFF) (v : x.cvOvf ≤ 0xFFFF) (f : x.cvFlush ≤ 0xFFFF) :
    Group.Converts scaled d [o] x (x.takesCvt scaled d o) := by
  let y := x.wSet o.1 d (BitVec.ofNat 32 o.2.1)
  let z := if scaled then y.wSet o.1 (d + 1) (BitVec.ofNat 32 o.2.2.1) else y
  have whole : z = { x with regs := z.regs } := by
    cases scaled <;> rfl
  have counts : x.takesCvt scaled d o = z.event o.2.2.2 := rfl
  have event := z.event_eq o.2.2.2 (by rw [whole]; exact n) (by rw [whole]; exact v) (by rw [whole]; exact f)
  have word : ∀ l r, (x.takesCvt scaled d o).w l r = z.w l r := fun l r => by
    rw [counts, Group.w, Group.event_regs, Group.w]
  have second : ∀ {l r}, r < 128 → ¬(l = o.1 ∧ scaled = true ∧ r = d + 1) → z.w l r = y.w l r := fun {l r} lt away => by
    cases scaled
    · rfl
    · exact Group.w_wSet_other _ _ _ _ (pair rfl) lt (by tauto)
  refine ⟨?_, fun k mem => ?_, fun k mem on => ?_, fun l r lt away => ?_, ?_, ?_, ?_⟩
  · rw [counts, event, whole]
  · obtain rfl := List.mem_singleton.1 mem
    exact (word ..).trans ((second low (by omega)).trans (Group.w_wSet_same ..))
  · obtain rfl := List.mem_singleton.1 mem
    subst on
    exact (word ..).trans (Group.w_wSet_same ..)
  · have away : ¬(l = o.1 ∧ (r = d ∨ (scaled = true ∧ r = d + 1))) := by simpa using away
    exact (word ..).trans ((second lt (by tauto)).trans (Group.w_wSet_other _ _ _ _ low lt (by tauto)))
  all_goals rw [counts, event, tally_cons, whole]; rfl

theorem Group.foldl_takesCvt (ls : List CvtLane) (nodup : (ls.map Prod.fst).Nodup) (x : Group)
    (n : x.cvNan ≤ 0xFFFF) (v : x.cvOvf ≤ 0xFFFF) (f : x.cvFlush ≤ 0xFFFF) :
    Group.Converts scaled d ls x (ls.foldl (Group.takesCvt scaled d) x) := by
  induction ls generalizing x with
  | nil => exact ⟨rfl, by simp, by simp, fun _ _ _ _ => rfl, (Nat.min_eq_right n).symm, (Nat.min_eq_right v).symm, (Nat.min_eq_right f).symm⟩
  | cons k ks ih =>
    obtain ⟨notin, nodup⟩ := List.nodup_cons.1 nodup
    have one := Group.takesCvt_converts low pair x k n v f
    have more := ih nodup (x.takesCvt scaled d k) (one.nan ▸ Nat.min_le_left ..) (one.ovf ▸ Nat.min_le_left ..)
      (one.flush ▸ Nat.min_le_left ..)
    rw [List.foldl_cons]
    generalize List.foldl (Group.takesCvt scaled d) (x.takesCvt scaled d k) ks = y at more ⊢
    have sum : ∀ {e : ConvEvent} {a b c : Nat}, b = min 0xFFFF (a + tally e [k]) → c = min 0xFFFF (b + tally e ks) →
        c = min 0xFFFF (a + tally e (k :: ks)) := fun {e a b c} hb hc => by
      rw [tally_cons] at hb ⊢
      rw [show tally e [] = 0 from rfl] at hb
      omega
    refine ⟨?_, fun o mem => ?_, fun o mem on => ?_, fun l r lt away => ?_, sum one.nan more.nan, sum one.ovf more.ovf,
      sum one.flush more.flush⟩
    · rw [more.rest, one.rest]
    · rcases List.mem_cons.1 mem with rfl | mem
      · exact (more.kept _ _ low fun h => notin h.1).trans (one.value o (by simp))
      · exact more.value o mem
    · rcases List.mem_cons.1 mem with rfl | mem
      · exact (more.kept _ _ (pair on) fun h => notin h.1).trans (one.entry o (by simp) on)
      · exact more.entry o mem on
    · rw [List.map_cons, List.mem_cons] at away
      exact (more.kept l r lt (by tauto)).trans (one.kept l r lt (by simp; tauto))

end

theorem cvtLanes_lanes (i : Insn) (x : Group) (eff : BitVec 32) (rnd : Nat → Nat) :
    (cvtLanes i x eff rnd).map Prod.fst = lanesOf eff := by
  unfold cvtLanes
  dsimp only
  split <;> simp [Function.comp_def]

/-- The generators that the lanes of a CVT have drawn from. -/
def State.cvtDrawn (s : State) (g : GroupId) (i : Insn) (eff : BitVec 32) : State :=
  if i.mod.toNat % 4 < 2 then s
  else { s with rng := s.rng.steps ((lanesOf eff).map (groupLane (s.physOf g.core.val))) }

theorem State.cvtDrawn_rest (s : State) (g : GroupId) (i : Insn) (eff : BitVec 32) :
    { s.cvtDrawn g i eff with rng := s.rng } = s := by
  unfold State.cvtDrawn
  split <;> rfl

theorem State.cvtDrawn_frame (s : State) (g : GroupId) (i : Insn) (eff : BitVec 32) :
    (s.cvtDrawn g i eff).hbm = s.hbm ∧ (s.cvtDrawn g i eff).lin = s.lin ∧ (s.cvtDrawn g i eff).staging = s.staging := by
  unfold State.cvtDrawn
  split <;> exact ⟨rfl, rfl, rfl⟩

/-- CVT in the state its issue has left. -/
def State.cvt (s : State) (g : GroupId) (i : Insn) (eff : BitVec 32) : State :=
  let x := s.group (gid g)
  let lane := groupLane (s.physOf g.core.val)
  let y := (cvtLanes i x eff (fun l => s.rng.draw (lane l))).foldl
    (Group.takesCvt (fmtScaled (i.imm.toNat / 256)) i.d.toNat) x
  ((s.cvtDrawn g i eff).groupSet (gid g) y).pass (gid g)

section
variable {s : State} {g : GroupId} {i : Insn}

theorem Issues.cvt (h : Issues s g i (cvtForm i)) : ∃ u n, s.Found u g 0x30 i n ∧
    exec (.cvt g i) s = .next (u.cvt g i ((s.group (gid g)).effective i)) := by
  obtain ⟨u, n, found, issue⟩ := h.begins 0x30
  refine ⟨u, n, found, congrArg Host.Outcome.next ((issue _).trans ?_)⟩
  simp only [gid_div]
  unfold State.cvt State.cvtDrawn
  dsimp only
  split <;> rfl

theorem cvtForm_pair (ok : (cvtForm i).ok i = true) (scaled : fmtScaled (i.imm.toNat / 256) = true) : i.d.toNat + 1 < 128 := by
  simp only [Form.ok, cvtForm, scaled, if_true, Use.ok, Bool.and_eq_true, beq_iff_eq] at ok
  have := i.d.isLt
  omega

theorem State.cvtDrawn_group (s : State) (g : GroupId) (i : Insn) (eff : BitVec 32) (gx : Nat) :
    (s.cvtDrawn g i eff).group gx = s.group gx := by
  unfold State.cvtDrawn
  split <;> rfl

theorem State.cvtDrawn_rng (s : State) (g : GroupId) (i : Insn) (eff : BitVec 32) : (s.cvtDrawn g i eff).rng =
    (if i.mod.toNat % 4 < 2 then s.rng else s.rng.steps ((lanesOf eff).map (groupLane (s.physOf g.core.val)))) := by
  unfold State.cvtDrawn
  split <;> rfl

/-- Of the state, CVT changes its group and the generators that it drew from. -/
theorem Issues.cvt_outcome (h : Issues s g i (cvtForm i)) (n : (s.group (gid g)).cvNan ≤ 0xFFFF)
    (o : (s.group (gid g)).cvOvf ≤ 0xFFFF) (f : (s.group (gid g)).cvFlush ≤ 0xFFFF) :
    let eff := (s.group (gid g)).effective i
    let ls := cvtLanes i (s.group (gid g)) eff (fun l => s.rng.draw (groupLane (s.physOf g.core.val) l))
    ∃ t y k, exec (.cvt g i) s = .next t ∧
      Group.Converts (fmtScaled (i.imm.toNat / 256)) i.d.toNat ls ((s.group (gid g)).picked 0x30 i k) y ∧
      t.group (gid g) = y.passed ∧ (∀ j, j ≠ gid g → t.group j = s.group j) ∧ t.staging = s.staging ∧ t.hbm = s.hbm ∧
      t.lin = s.lin ∧ t.rng = (s.cvtDrawn g i eff).rng := by
  intro eff ls
  obtain ⟨u, k, found, e⟩ := h.cvt
  have only := found.frame.threadOnly
  have phys : u.physOf g.core.val = s.physOf g.core.val := by rw [State.physOf, only.ptn, State.physOf]
  let y := ls.foldl (Group.takesCvt (fmtScaled (i.imm.toNat / 256)) i.d.toNat) ((s.group (gid g)).picked 0x30 i k)
  let v := (u.cvtDrawn g i eff).groupSet (gid g) y
  have whole : u.cvt g i eff = v.pass (gid g) := by
    unfold State.cvt
    simp only [phys, only.rng, found.group]
    rfl
  have lanes : (ls.map Prod.fst).Nodup := by
    rw [cvtLanes_lanes]
    exact lanesOf_nodup _
  have converts : Group.Converts (fmtScaled (i.imm.toNat / 256)) i.d.toNat ls ((s.group (gid g)).picked 0x30 i k) y :=
    Group.foldl_takesCvt i.d.isLt (cvtForm_pair h.form) ls lanes _ n o f
  obtain ⟨group, kept⟩ := h.pass_regroups (u := v) (y := y) (State.group_groupSet_same ..) (by rw [converts.rest]; rfl)
    (by rw [converts.rest]; rfl) (by rw [converts.rest]; rfl) (by rw [converts.rest]; rfl)
  have drawn := u.cvtDrawn_rest g i eff
  rw [whole] at e
  refine ⟨_, y, k, e, converts, group, fun j ne => ?_, ?_, ?_, ?_, ?_⟩
  · rw [kept.others j ne, State.group_groupSet_other _ _ ne, State.cvtDrawn_group, found.frame.1 j ne]
  · exact kept.staging.trans ((State.cvtDrawn_frame ..).2.2.trans only.staging)
  · exact kept.hbm.trans ((State.cvtDrawn_frame ..).1.trans only.hbm)
  · exact kept.lin.trans ((State.cvtDrawn_frame ..).2.1.trans only.lin)
  · rw [kept.threadOnly.rng, State.cvtDrawn_rng, ← phys, ← only.rng]
    exact State.cvtDrawn_rng ..

end

theorem movs_mod_clears (m : BitVec 7) (h : m = 0x4A) :
    ((m.toNat &&& 0x4F == m.toNat) && decide (m.toNat % 16 < 12) && (!bitOf m.toNat 6 || m.toNat % 16 == 10)) = true ∧
      bitOf m.toNat 6 = true ∧ m.toNat % 16 = 10 := by
  subst h
  decide

/-- A group whose conversion counts are cleared. -/
def Group.countsCleared (x : Group) : Group := { x with cvNan := 0, cvOvf := 0, cvFlush := 0 }

section
variable {s : State} {g : GroupId} {i : Insn}

theorem Issues.movs_clears (h : Issues s g i { size := 0, d := .regs 1 }) (mod : i.mod = 0x4A)
    (some : (s.group (gid g)).effective i ≠ 0) :
    ∃ t, exec (.movs g i) s = .next t ∧
      (∀ l, (s.group (gid g)).inEffect i l → (t.group (gid g)).w l i.d.toNat =
        BitVec.ofNat 32 ((s.group (gid g)).cvNan + 2 ^ 16 * (s.group (gid g)).cvOvf)) ∧
      (t.group (gid g)).cvNan = 0 ∧ (t.group (gid g)).cvOvf = 0 ∧ (t.group (gid g)).cvFlush = 0 ∧ issueFrame s t g i := by
  obtain ⟨ok, clears, sel⟩ := movs_mod_clears i.mod mod
  obtain ⟨u, n, found, issue⟩ := (h.withMod ok).begins 0x42
  let x := (s.group (gid g)).picked 0x42 i n
  let value : Word := BitVec.ofNat 32 ((s.group (gid g)).cvNan + 2 ^ 16 * (s.group (gid g)).cvOvf)
  let ls := lanesOf ((s.group (gid g)).effective i)
  let y := ls.foldl (fun y l => y.wSet l i.d.toNat value) x
  obtain ⟨rest, written, -⟩ := Group.foldl_wSet (x := x) (v := fun _ _ => value) (fun _ _ _ _ => rfl) i.d.isLt ls
    (lanesOf_nodup _) x rfl fun _ _ _ _ => rfl
  have cleared : y.countsCleared = { x with regs := y.regs, cvNan := 0, cvOvf := 0, cvFlush := 0 } :=
    congrArg Group.countsCleared rest
  have e : exec (.movs g i) s = .next ((u.groupSet (gid g) y.countsCleared).pass (gid g)) := by
    refine congrArg Host.Outcome.next ((issue _).trans ?_)
    have on : ((s.group (gid g)).effective i != 0) = true := by simpa using some
    simp only [modBit, clears, sel, on, Bool.and_self, if_true, State.special]
    rw [found.group]
    rfl
  obtain ⟨group, kept⟩ := h.pass_regroups (u := u.groupSet (gid g) y.countsCleared) (State.group_groupSet_same ..)
    (by rw [cleared]; rfl) (by rw [cleared]; rfl) (by rw [cleared]; rfl) (by rw [cleared]; rfl)
  refine ⟨_, e, fun l eff => ?_, ?_⟩
  · rw [group]
    exact written l ((Group.mem_effective ..).2 eff)
  · rw [group]
    exact ⟨rfl, rfl, rfl, (found.frame.regroups (u.groupSet_regroups ..)).regroups kept⟩

end

/-- Settles O22: the effective lanes are converted one after the other, each in registers of its own, and each event raises its
saturating count; MOVS with MOD 0x4A clears the counts behind its read. -/
theorem conversionResults : Obligations.ConversionResults := by
  unfold Obligations.ConversionResults
  intro g i s x d scaled lane ls
  refine ⟨fun h n o f => ?_, fun mod some h => h.movs_clears mod some⟩
  obtain ⟨t, y, k, e, converts, group, others, staging, hbm, lin, rng⟩ := h.cvt_outcome n o f
  refine ⟨t, e, fun o mem => ?_, fun l r lt away => ?_, ?_, ?_, ?_, ?_, ?_, others, staging, hbm, lin,
    rng.trans (State.cvtDrawn_rng ..)⟩
  all_goals rw [group]
  · exact ⟨converts.value o mem, converts.entry o mem⟩
  · exact converts.kept l r lt (by rwa [cvtLanes_lanes, Group.mem_effective])
  · exact converts.nan
  · exact converts.ovf
  · exact converts.flush
  · rw [converts.rest]
    rfl
  · have len : insnLen i = 8 := h.insnLen_eq (by simp [cvtForm])
    rw [converts.rest]
    exact congrArg (x.pc + ·) len

end Sys2Proof.Machine

/-! # The words of BAR0: reads, held words, writes by access type -/

namespace Sys2Proof.Machine

/-! ## Reads of 64-bit registers -/

section
variable {s : State} {r : Req} {o : Nat}

theorem State.readWord_of_width {width : Nat} (h : width ≠ 4) : s.readWord r o width = s.answer {} := if_pos (.inl h)

theorem State.readWord_low (aligned : o % 4 = 0) (may : s.mayRead r o = true) (low : isHigh o = false) (wide : isWide o = true) :
    s.readWord r o 4 = { s with latches := mput s.latches (latchKey (reqIx r) o) (s.bar0Word (reqIx r) (o + 4)) }.answer
      { value := (s.bar0Word (reqIx r) o).toNat } := by
  simp [State.readWord, aligned, may, low, wide]

theorem State.readWord_high (aligned : o % 4 = 0) (may : s.mayRead r o = true) (high : isHigh o = true) {v : Word}
    (latched : mfind s.latches (latchKey (reqIx r) (o - 4)) = some v) :
    s.readWord r o 4 = { s with latches := mdel s.latches (latchKey (reqIx r) (o - 4)) }.answer { value := v.toNat } := by
  simp [State.readWord, aligned, may, high, latched]

end

/-! ## The jig channels' words -/

/-- The high word of a pair of a jig channel stands in the channel's block, behind its first word. -/
theorem isHigh_jig {k : Nat} (h : isHigh k = true) (lo : 0xE1000 ≤ k) (hi : k ≤ 0xE6000) : 4 ≤ k % 0x40 := by
  have block : rowsAt k = rowsJIG := by
    have : k / 0x10000 = 0xE := by omega
    rw [rowsAt, this]
    rfl
  unfold isHigh at h
  cases found : regRow k with
  | none => simp [found] at h
  | some row =>
    have mem : row ∈ rowsJIG := block ▸ List.mem_of_find?_eq_some found
    simp only [found, Bool.and_eq_true, beq_iff_eq] at h
    obtain ⟨wide, high⟩ := h
    have channels : ∀ a ∈ rowsJIG, a.wide = true → a.dims = [(0x40, 320)] ∧ a.off % 0x40 < 0x3C ∧ a.off ≤ 0xE1040 := by decide
    obtain ⟨dims, off, first⟩ := channels row mem wide
    rw [dims] at high
    simp only [strideRest] at high
    split at high
    · have := Option.some.inj high
      omega
    · cases high

/-! ## Whom a write reaches -/

/-- Has a write of a requester a way to the module's registers at an offset? -/
def State.opens (s : State) (r : Req) (o : Nat) : Bool :=
  match r with
  | .firmware => true
  | .fn (.pf p) => !s.portCut p.val && s.exposed0 o
  | .fn (.vf p _) => !s.portCut p.val && s.exposed0 o

section
variable {s : State} {r : Req} {o : Nat}

theorem State.opens_of_mayWrite (may : s.mayWrite r o = true) : s.opens r o = true := by
  match r with
  | .firmware => rfl
  | .fn (.pf p) => exact may
  | .fn (.vf p k) => exact (Bool.and_eq_true _ _ ▸ may).1

theorem State.strayChan_eq (s : State) (r : Req) (o : Nat) : s.strayChan r o =
    if 0xE1000 ≤ o ∧ o < 0xE6000 ∧ s.engFitted ((o - 0xE1000) / 0x40 / 32) ∧ s.opens r o = true ∧ (!isWide o ∨ isHigh o) ∧
      ((s.ptn.running.chanOwner ((o - 0xE1000) / 0x40)).isNone ∨ (r = .firmware ∧ o % 0x40 = 0))
    then some ((o - 0xE1000) / 0x40) else none := by
  match r with
  | .firmware => rfl
  | .fn (.pf p) => rfl
  | .fn (.vf p k) => rfl

theorem State.strayChan_held (wide : isWide o = true) (low : isHigh o = false) : s.strayChan r o = none := by
  rw [State.strayChan_eq, if_neg]
  simp [wide, low]

/-- The high word of a channel's pair reaches only a channel that nobody owns. -/
theorem State.strayChan_high (high : isHigh o = true) (owned : 0xE1000 ≤ o ∧ o < 0xE6000 →
    s.engFitted ((o - 0xE1000) / 0x40 / 32) = false ∨ s.ptn.running.chanOwner ((o - 0xE1000) / 0x40) ≠ none) :
    s.strayChan r o = none := by
  rw [State.strayChan_eq, if_neg]
  rintro ⟨lo, hi, fitted, -, -, stray⟩
  have inside := isHigh_jig high lo hi.le
  rcases owned ⟨lo, hi⟩ with unfitted | some
  · exact absurd (unfitted.symm.trans fitted) (by decide)
  · rcases stray with none | ⟨-, first⟩
    · exact some (Option.isNone_iff_eq_none.1 none)
    · omega

theorem State.strayChan_unowned (high : isHigh o = true) (may : s.mayWrite r o = true) (lo : 0xE1000 ≤ o) (hi : o < 0xE6000)
    (fitted : s.engFitted ((o - 0xE1000) / 0x40 / 32) = true) (unowned : s.ptn.running.chanOwner ((o - 0xE1000) / 0x40) = none) :
    s.strayChan r o = some ((o - 0xE1000) / 0x40) := by
  rw [State.strayChan_eq, if_pos ⟨lo, hi, fitted, State.opens_of_mayWrite may, .inr high, .inl (by rw [unowned]; rfl)⟩]

/-! ## Writes of words -/

theorem State.writeWord_stray (aligned : o % 4 = 0) {ch : Nat} (stray : s.strayChan r o = some ch) (v : Word) (same : Bool) :
    s.writeWord r o v same =
      ({ s with heldWrites := if isHigh o then mdel s.heldWrites (latchKey (reqIx r) (o - 4)) else s.heldWrites } : State).chanMap ch
        (fun x => { x with cmdres := 2 }) := by
  simp only [State.writeWord, aligned, stray, ne_eq, not_true_eq_false, if_false]

variable {row : RegRow} (aligned : o % 4 = 0) (may : s.mayWrite r o = true) (stray : s.strayChan r o = none)
  (plain : msixAt (reqIx r) o = none) (found : regRow o = some row)
include aligned may stray plain found

theorem State.writeWord_narrow (narrow : row.wide = false) (v : Word) (same : Bool) :
    s.writeWord r o v same = s.narrowWrite r row o v same := by
  simp [State.writeWord, aligned, stray, may, plain, found, narrow]

theorem State.writeWord_low (wide : row.wide = true) (low : isHigh o = false) (v : Word) (same : Bool) :
    s.writeWord r o v same = { s with heldWrites := mput s.heldWrites (latchKey (reqIx r) o) v } := by
  simp [State.writeWord, aligned, stray, may, plain, found, wide, low]

theorem State.writeWord_high (wide : row.wide = true) (high : isHigh o = true) (v : Word) (same : Bool) :
    s.writeWord r o v same = ({ s with heldWrites := mdel s.heldWrites (latchKey (reqIx r) (o - 4)) } : State).wideWrite r row (o - 4)
      (mfind s.heldWrites (latchKey (reqIx r) (o - 4))) v := by
  simp [State.writeWord, aligned, stray, may, plain, found, wide, high]

end

/-! ## Writes by access type -/

theorem State.wordSet_rg (s : State) (key : Nat) (rw w1c v : Word) (same : Bool) : (s.wordSet key rw w1c v same).rg key =
    ((s.rg key &&& ~~~rw) ||| (v &&& rw)) &&& ~~~(v &&& w1c &&& ~~~(if same then s.setNow key else 0)) := by
  rw [State.wordSet, rg_rgSet_same]
  have ones : (0xFFFFFFFF : Word) = ~~~0 := rfl
  cases same
  · rw [if_neg Bool.false_ne_true, if_neg Bool.false_ne_true, ones]
  · rfl

theorem State.wordSet_rg_late (s : State) (key : Nat) (rw w1c v : Word) : (s.wordSet key rw w1c v false).rg key =
    ((s.rg key &&& ~~~rw) ||| (v &&& rw)) &&& ~~~(v &&& w1c) := by
  have all : v &&& w1c &&& ~~~(0 : Word) = v &&& w1c := BitVec.and_allOnes
  rw [State.wordSet_rg, if_neg Bool.false_ne_true, all]

theorem State.wordSet_onlyRegs (s : State) (key : Nat) (rw w1c v : Word) (same : Bool) :
    onlyRegs [key] s (s.wordSet key rw w1c v same) :=
  ⟨fun _ away => rg_rgSet_other s _ (by simpa using away), rfl⟩

section
variable {s : State} {r : Req} {row : RegRow} {o : Nat} (own : row.own = false) (base : o ≠ Reg.GLB_APBASE) (home : o ≠ Reg.LIN_HOMEQ)
  (pair : o / 0x10000 = 0xF → s.pairFitted = true)
include own base home pair

theorem State.wideWrite_untouched (jig : 0xE1000 ≤ o ∧ o < 0xE6000)
    (busy : s.engFitted ((o - 0xE1000) / 0x40 / 32) = false ∨ (s.chan ((o - 0xE1000) / 0x40)).st ≠ .idle) (low : Option Word) (v : Word) :
    s.wideWrite r row o low v = s := by
  have fitted : ¬(o / 0x10000 = 0xF ∧ (!s.pairFitted) = true) := fun h => by simp [pair h.1] at h
  simp only [State.wideWrite, own, base, home, fitted, Bool.false_eq_true, if_false, jig, true_and]
  rcases busy with unfitted | busy
  · simp [unfitted]
  · simp [busy]

theorem State.wideWrite_sets (free : 0xE1000 ≤ o ∧ o < 0xE6000 →
    s.engFitted ((o - 0xE1000) / 0x40 / 32) = true ∧ (s.chan ((o - 0xE1000) / 0x40)).st = .idle) (w v : Word) :
    s.wideWrite r row o (some w) v = (s.wordSet o (bw row.rw) (bw row.w1c) w false).wordSet (o + 4)
      (bw (row.rw / 2 ^ 32)) (bw (row.w1c / 2 ^ 32)) v false := by
  have fitted : ¬(o / 0x10000 = 0xF ∧ (!s.pairFitted) = true) := fun h => by simp [pair h.1] at h
  have idle : ¬(0xE1000 ≤ o ∧ o < 0xE6000 ∧ (s.chan ((o - 0xE1000) / 0x40)).st ≠ .idle) := fun h => h.2.2 (free ⟨h.1, h.2.1⟩).2
  have engine : ¬(0xE1000 ≤ o ∧ o < 0xE6000 ∧ (!s.engFitted ((o - 0xE1000) / 0x40 / 32)) = true) := fun h => by
    simp [(free ⟨h.1, h.2.1⟩).1] at h
  simp only [State.wideWrite, own, base, home, fitted, Bool.false_eq_true, if_false, idle, engine]

end

/-! ## The high word of a 64-bit register -/

/-- A state without the held low word of a pair. -/
def State.unheld (s : State) (k : Nat) : State := { s with heldWrites := mdel s.heldWrites k }

section
variable {u : State} {r : Req} {hi : BitVec 28} {o : Nat} {row : RegRow} (next : hi.toNat = o + 4) (aligned : o % 4 = 0)
  (found : regRow hi.toNat = some row) (wide : row.wide = true) (own : row.own = false) (high : isHigh hi.toNat = true)
  (plain : msixAt (reqIx r) hi.toNat = none) (base : o ≠ Reg.GLB_APBASE) (home : o ≠ Reg.LIN_HOMEQ)
  (pair : o / 0x10000 = 0xF → u.pairFitted = true) (may : u.mayWrite r hi.toNat = true) (ready : atOnce u r)
include next aligned high

/-- A pair of a jig channel lies in the block of one channel. -/
theorem jigPair : ((0xE1000 ≤ hi.toNat ∧ hi.toNat < 0xE6000) ↔ (0xE1000 ≤ o ∧ o < 0xE6000)) ∧
    (0xE1000 ≤ o ∧ o < 0xE6000 → (hi.toNat - 0xE1000) / 0x40 = (o - 0xE1000) / 0x40) := by
  have inside := isHigh_jig high
  omega

include found wide plain may ready

theorem exec_highWordWrite_owned (owned : 0xE1000 ≤ o ∧ o < 0xE6000 →
    u.engFitted ((o - 0xE1000) / 0x40 / 32) = false ∨ u.ptn.running.chanOwner ((o - 0xE1000) / 0x40) ≠ none) (w : Word) :
    exec (.highWordWrite r hi w) u = .next ((u.unheld (latchKey (reqIx r) o)).wideWrite r row o
      (mfind u.heldWrites (latchKey (reqIx r) o)) w) := by
  obtain ⟨both, block⟩ := jigPair next aligned high
  have stray : u.strayChan r hi.toNat = none := State.strayChan_high high fun jig => by
    rw [block (both.1 jig)]
    exact owned (both.1 jig)
  have back : hi.toNat - 4 = o := by omega
  refine congrArg Host.Outcome.next ((State.reqOrder_of_atOnce ready ..).trans ?_)
  rw [State.writeWord_high (by omega) may stray plain found wide high, back]
  rfl

omit found wide plain in
theorem exec_highWordWrite_unowned (jig : 0xE1000 ≤ o ∧ o < 0xE6000) (fitted : u.engFitted ((o - 0xE1000) / 0x40 / 32) = true)
    (unowned : u.ptn.running.chanOwner ((o - 0xE1000) / 0x40) = none) (w : Word) :
    exec (.highWordWrite r hi w) u = .next ((u.unheld (latchKey (reqIx r) o)).chanMap ((o - 0xE1000) / 0x40)
      (fun x => { x with cmdres := 2 })) := by
  obtain ⟨both, block⟩ := jigPair next aligned high
  have same := block jig
  have inside := both.2 jig
  have stray := State.strayChan_unowned (s := u) high may inside.1 inside.2 (by rw [same]; exact fitted) (by rw [same]; exact unowned)
  rw [same] at stray
  have back : hi.toNat - 4 = o := by omega
  refine congrArg Host.Outcome.next ((State.reqOrder_of_atOnce ready ..).trans ?_)
  rw [State.writeWord_stray (by omega) stray, if_pos high, back]
  rfl

include own base home pair

theorem exec_highWordWrite_refused (jig : 0xE1000 ≤ o ∧ o < 0xE6000)
    (bad : u.engFitted ((o - 0xE1000) / 0x40 / 32) = false ∨ (u.ptn.running.chanOwner ((o - 0xE1000) / 0x40) = none ∨
      (u.chan ((o - 0xE1000) / 0x40)).st ≠ .idle)) (w : Word) :
    ∃ x, exec (.highWordWrite r hi w) u = .next x ∧ (∀ j, x.rg j = u.rg j) ∧
      mfind x.heldWrites (latchKey (reqIx r) o) = none ∧ (u.engFitted ((o - 0xE1000) / 0x40 / 32) = true →
        u.ptn.running.chanOwner ((o - 0xE1000) / 0x40) = none → (x.chan ((o - 0xE1000) / 0x40)).cmdres = 2) := by
  by_cases owned : u.engFitted ((o - 0xE1000) / 0x40 / 32) = false ∨ u.ptn.running.chanOwner ((o - 0xE1000) / 0x40) ≠ none
  · have busy : u.engFitted ((o - 0xE1000) / 0x40 / 32) = false ∨ (u.chan ((o - 0xE1000) / 0x40)).st ≠ .idle := by
      rcases bad with h | h | h
      · exact .inl h
      · exact .inl (owned.resolve_right (not_not_intro h))
      · exact .inr h
    refine ⟨_, exec_highWordWrite_owned next aligned found wide high plain may ready (fun _ => owned) w, ?_⟩
    rw [State.wideWrite_untouched (s := u.unheld _) own base home pair jig busy]
    refine ⟨fun _ => rfl, mfind_mdel_same .., fun fitted none => ?_⟩
    rcases owned with h | h
    · exact absurd (fitted.symm.trans h) (by decide)
    · exact absurd none h
  · obtain ⟨fitted, unowned⟩ := not_or.1 owned
    refine ⟨_, exec_highWordWrite_unowned next aligned high may ready jig (by simpa using fitted)
      (not_not.1 unowned) w, fun _ => rfl, mfind_mdel_same .., fun _ _ => congrArg Chan.cmdres (mget_mset_same ..)⟩

theorem exec_highWordWrite_applies (free : 0xE1000 ≤ o ∧ o < 0xE6000 → u.engFitted ((o - 0xE1000) / 0x40 / 32) = true ∧
      u.ptn.running.chanOwner ((o - 0xE1000) / 0x40) ≠ none ∧ (u.chan ((o - 0xE1000) / 0x40)).st = .idle) {v : Word}
    (held : mfind u.heldWrites (latchKey (reqIx r) o) = some v) (w : Word) :
    ∃ x, exec (.highWordWrite r hi w) u = .next x ∧
      x.rg o = ((u.rg o &&& ~~~(bw row.rw)) ||| (v &&& bw row.rw)) &&& ~~~(v &&& bw row.w1c) ∧
      x.rg (o + 4) = ((u.rg (o + 4) &&& ~~~(bw (row.rw / 2 ^ 32))) ||| (w &&& bw (row.rw / 2 ^ 32))) &&&
        ~~~(w &&& bw (row.w1c / 2 ^ 32)) ∧
      mfind x.heldWrites (latchKey (reqIx r) o) = none ∧ (∀ j, j ≠ o → j ≠ o + 4 → x.rg j = u.rg j) ∧
      { x with regs := u.regs, heldWrites := u.heldWrites } = u := by
  have runs := exec_highWordWrite_owned next aligned found wide high plain may ready (fun jig => .inr (free jig).2.1) w
  rw [held, State.wideWrite_sets (s := u.unheld _) own base home pair fun jig => ⟨(free jig).1, (free jig).2.2⟩] at runs
  have apart : o ≠ o + 4 := by omega
  refine ⟨_, runs, ?_, ?_, mfind_mdel_same .., fun j lo hi => ?_, rfl⟩
  · exact (rg_rgSet_other _ _ apart).trans (State.wordSet_rg_late ..)
  · refine (State.wordSet_rg_late ..).trans ?_
    rw [show ((u.unheld (latchKey (reqIx r) o)).wordSet o (bw row.rw) (bw row.w1c) v false).rg (o + 4) = u.rg (o + 4) from
      rg_rgSet_other _ _ apart.symm]
  · exact (rg_rgSet_other _ _ hi).trans (rg_rgSet_other _ _ lo)

end

/-- Settles O23: a read latches or consumes, a low word is held, and the high word is applied with it unless the registers are those of
a jig channel that takes none. -/
theorem wideRegisters : Obligations.WideRegisters := by
  unfold Obligations.WideRegisters
  refine ⟨?_, ?_⟩
  · intro r lo hi s k next aligned wide low high may ready
    refine ⟨fun o width ne => ⟨?_, ?_⟩, ?_⟩
    · exact congrArg Host.Outcome.next ((State.reqOrder_of_atOnce ready ..).trans (State.readWord_of_width ne))
    · exact congrArg Host.Outcome.next ((State.reqOrder_of_atOnce ready ..).trans (State.readWord_of_width ne))
    · refine ⟨_, congrArg Host.Outcome.next ((State.reqOrder_of_atOnce ready ..).trans (State.readWord_low aligned may low wide)),
        rfl, fun j ne => mfind_mput_other _ _ ne, rfl, fun u latches mayHigh readyHigh => ?_⟩
      have back : hi.toNat - 4 = lo.toNat := by omega
      have latched : mfind u.latches (latchKey (reqIx r) (hi.toNat - 4)) = some (s.bar0Word (reqIx r) hi.toNat) := by
        rw [back, latches, next]
        exact mfind_mput_same ..
      have read := State.readWord_high (by omega) mayHigh high latched
      rw [back] at read
      refine ⟨_, congrArg Host.Outcome.next ((State.reqOrder_of_atOnce readyHigh ..).trans read), rfl, mfind_mdel_same ..,
        fun j ne => ?_, rfl⟩
      refine (mfind_mdel_other _ ne).trans ?_
      rw [latches]
      exact mfind_mput_other _ _ ne
  · intro r lo hi v w row s k o apply next aligned found foundHigh wide own low high plain plainHigh may ready base home
    have isWide : isWide o = true := by simp only [isWide, found, wide]
    refine ⟨_, congrArg Host.Outcome.next ((State.reqOrder_of_atOnce ready ..).trans
      (State.writeWord_low aligned may (State.strayChan_held isWide low) plain found wide low v false)),
      mfind_mput_same .., fun j ne => mfind_mput_other _ _ ne, rfl, fun u held mayHigh readyHigh pair => ?_⟩
    have holds : mfind u.heldWrites k = some v := by
      rw [held]
      exact mfind_mput_same ..
    exact ⟨fun jig bad => exec_highWordWrite_refused next aligned foundHigh wide own high plainHigh base home pair mayHigh readyHigh
        jig bad w,
      fun free => exec_highWordWrite_applies next aligned foundHigh wide own high plainHigh base home pair mayHigh readyHigh free holds w⟩

end Sys2Proof.Machine

/-! # Writes of registers that have no command of their own -/

namespace Sys2Proof.Machine

/-! ## Masked writes -/

/-- Bits that a mask covers are those written. -/
theorem bitsOf_masked (old v m : Word) (hi lo : Nat) (covers : ∀ i, i < hi + 1 - lo → m.getLsbD (lo + i) = true) :
    bitsOf (((old &&& ~~~m) ||| (v &&& m)).toNat) hi lo = bitsOf v.toNat hi lo := by
  refine Nat.eq_of_testBit_eq fun i => ?_
  rw [bitsOf_testBit, bitsOf_testBit]
  by_cases lt : i < hi + 1 - lo
  · have cover := covers i lt
    have inside : lo + i < 32 := BitVec.lt_of_getLsbD cover
    have bit : ((old &&& ~~~m) ||| (v &&& m)).getLsbD (lo + i) = v.getLsbD (lo + i) := by simp [cover]
    rw [← BitVec.testBit_toNat, ← BitVec.testBit_toNat] at bit
    rw [bit]
  · simp [lt]

/-- A written PRIO of 15 is stored as 14 (R432). -/
def prioLimited (v : Word) : Word := if v.toNat % 16 = 15 then v - 1 else v

theorem prioLimited_toNat (v : Word) : (prioLimited v).toNat = if v.toNat % 16 = 15 then v.toNat - 1 else v.toNat := by
  unfold prioLimited
  split
  · next odd =>
    have := v.isLt
    have one : (1 : Word).toNat = 1 := rfl
    rw [BitVec.toNat_sub, one]
    omega
  · rfl

theorem prioLimited_prio (v : Word) : bitsOf (prioLimited v).toNat 3 0 = min 14 (bitsOf v.toNat 3 0) := by
  rw [prioLimited_toNat, bitsOf, bitsOf]
  split <;> omega

theorem prioLimited_above (v : Word) (hi lo : Nat) (above : 4 ≤ lo) : bitsOf (prioLimited v).toNat hi lo = bitsOf v.toNat hi lo := by
  have same : (prioLimited v).toNat / 16 = v.toNat / 16 := by
    rw [prioLimited_toNat]
    split <;> omega
  have split : (2 : Nat) ^ lo = 16 * 2 ^ (lo - 4) := by
    rw [show (16 : Nat) = 2 ^ 4 from rfl, ← Nat.pow_add, Nat.add_sub_cancel' above]
  rw [bitsOf, bitsOf, split, ← Nat.div_div_eq_div_mul, same, Nat.div_div_eq_div_mul]

/-! ## Words of 32 bits -/

section
variable {s : State} {r : Req} {o : Nat} {row : RegRow} (own : row.own = false)

theorem State.stepWrite_refuses (s : State) {f : Func} (pf : isPf f = true) (v : Word) :
    s.stepWrite (.fn f) v =
      if bitsOf v.toNat 5 4 = 1 ∧ bitsOf v.toNat 3 0 ∉ [1, 2, 3, 4, 5, 6, 8] then s.evSet Reg.BRUP_STATUS 16 else s := by
  cases f with
  | vf => cases pf
  | pf p =>
    have others : (v.toNat % 16 = 0 ∨ v.toNat % 16 = 7 ∨ 8 < v.toNat % 16) ↔ v.toNat % 16 ∉ [1, 2, 3, 4, 5, 6, 8] := by
      simp only [List.mem_cons, List.not_mem_nil, or_false]
      omega
    have go : bitsOf v.toNat 5 4 = v.toNat / 16 % 4 := rfl
    have step : bitsOf v.toNat 3 0 = v.toNat % 16 := by simp [bitsOf]
    simp only [State.stepWrite, others, go, step]

include own

theorem State.narrowWrite_plain (step : o ≠ Reg.BRUP_CMD) (appart : o ≠ Reg.GLB_APPART) (link : o ≠ Reg.SPL_LINKCTL)
    (thrash : o ≠ Reg.LIN_SLICE_THRASH) (pair : o / 0x10000 = 0xF → s.pairFitted = true) (v : Word) (same : Bool) :
    (¬(Reg.IRQ_GCFG ≤ o ∧ o < Reg.IRQ_GCFG + 72) → s.narrowWrite r row o v same = s.wordSet (s.keyOf o) (bw row.rw) (bw row.w1c) v same) ∧
    (∀ n, 0 < n → n < 18 → o = Reg.IRQ_GCFG + 4 * n →
      s.narrowWrite r row o v same = s.wordSet (s.keyOf o) (bw row.rw) (bw row.w1c) (prioLimited v) same) := by
  have fitted : ¬(o / 0x10000 = 0xF ∧ (!s.pairFitted) = true) := fun h => by simp [pair h.1] at h
  have slice : ¬(o = Reg.LIN_SLICE_THRASH ∧ 1536 ≤ (s.rg Reg.LIN_SLICESEL).toNat) := fun h => thrash h.1
  refine ⟨fun plain => ?_, fun n pos lt at_ => ?_⟩
  · simp only [State.narrowWrite, step, own, appart, fitted, link, slice, plain, Bool.false_eq_true, if_false]
  · have group : Reg.IRQ_GCFG ≤ o ∧ o < Reg.IRQ_GCFG + 72 := by omega
    have later : o ≠ Reg.IRQ_GCFG := by omega
    simp only [State.narrowWrite, step, own, appart, fitted, link, slice, group, later, Bool.false_eq_true, if_false]
    rfl

end

theorem own_of_step {row : RegRow} (found : regRow Reg.BRUP_CMD = some row) : row.own = true ∧ row.wide = false := by
  have both : (regRow Reg.BRUP_CMD).all (fun a => a.own && !a.wide) = true := by decide
  rw [found] at both
  simpa using both

theorem vectorsOf_le (q : Nat) : vectorsOf q ≤ 64 := by
  unfold vectorsOf
  split
  · exact le_rfl
  · split <;> decide

theorem msixAt_above (q : Nat) {o : Nat} (h : 0x8400 ≤ o) : msixAt q o = none := by
  have := vectorsOf_le q
  exact if_neg (by omega)

theorem State.keyOf_irq (s : State) {o : Nat} (lo : Reg.IRQ_GCFG ≤ o) (hi : o < Reg.IRQ_GCFG + 72) : s.keyOf o = o := by
  simp only [Reg.IRQ_GCFG] at lo hi
  have none : bankSel o = none := by
    simp only [bankSel, Reg.LIN_LOOKUPS, Reg.LIN_MISSES, Reg.LIN_SLICE_ERR, Reg.LIN_SLICE_THRASH, Reg.HBM_PCH_ERR, Reg.NET_WORST,
      Reg.NET_CLBYTES, Reg.BWREG_ESTAT2, Reg.BWREG_EURG, Reg.SPL_LINKCTL, Reg.SPL_PEER, Reg.SPL_RXBYTES]
    repeat rw [if_neg (by omega)]
  rw [State.keyOf, none]

section
variable {s : State} {r : Req} {off : BitVec 28} (ready : atOnce s r)
include ready

theorem exec_registerWrite_width (v : Word) (same : Bool) {width : Nat} (ne : width ≠ 4) :
    exec (.registerWrite r off width v same) s = .next s :=
  congrArg Host.Outcome.next ((State.reqOrder_of_atOnce ready ..).trans (if_neg ne))

theorem exec_registerWrite (v : Word) (same : Bool) : exec (.registerWrite r off 4 v same) s = .next (s.writeWord r off.toNat v same) :=
  congrArg Host.Outcome.next ((State.reqOrder_of_atOnce ready ..).trans (if_pos rfl))

theorem exec_registerWrite_unreached (v : Word) (same : Bool) (may : s.mayWrite r off.toNat = false)
    (stray : s.strayChan r off.toNat = none) : exec (.registerWrite r off 4 v same) s = .next s := by
  rw [exec_registerWrite ready, State.writeWord]
  simp [may, stray]

theorem exec_registerWrite_stray (v : Word) (same : Bool) {ch : Nat} (aligned : off.toNat % 4 = 0) (low : isHigh off.toNat = false)
    (stray : s.strayChan r off.toNat = some ch) :
    exec (.registerWrite r off 4 v same) s = .next (s.chanMap ch (fun x => { x with cmdres := 2 })) := by
  rw [exec_registerWrite ready, State.writeWord_stray aligned stray, low]
  rfl

/-- A GO for a step that no GO starts (R459). -/
theorem exec_registerWrite_step {f : Func} (host : r = .fn f) (pf : isPf f = true) (at_ : off.toNat = Reg.BRUP_CMD)
    (may : s.mayWrite r off.toNat = true) (v : Word) (same : Bool) :
    exec (.registerWrite r off 4 v same) s = .next
      (if bitsOf v.toNat 5 4 = 1 ∧ bitsOf v.toNat 3 0 ∉ [1, 2, 3, 4, 5, 6, 8] then s.evSet Reg.BRUP_STATUS 16 else s) := by
  have stray : s.strayChan r off.toNat = none := by
    rw [State.strayChan_eq, if_neg]
    rw [at_]
    exact fun h => absurd h.1 (by decide)
  obtain ⟨row, found⟩ : ∃ row, regRow off.toNat = some row := by
    rw [at_]
    exact ⟨_, rfl⟩
  obtain ⟨-, narrow⟩ := own_of_step (at_ ▸ found)
  have aligned : off.toNat % 4 = 0 := at_ ▸ rfl
  have plain : msixAt (reqIx r) off.toNat = none := msixAt_above _ (by rw [at_]; decide)
  rw [exec_registerWrite ready, State.writeWord_narrow aligned may stray plain found narrow, State.narrowWrite, if_pos at_, host,
    s.stepWrite_refuses pf]

end

/-- Settles O24: a write that reaches its register applies the access type of its row. -/
theorem registerWrites : Obligations.RegisterWrites := by
  unfold Obligations.RegisterWrites
  intro r off v same row s o k kept ready
  refine ⟨fun width ne => exec_registerWrite_width ready v same ne, exec_registerWrite_unreached ready v same, ?_, ?_, ?_⟩
  · intro ch aligned low stray
    exact ⟨_, exec_registerWrite_stray ready v same aligned low stray, mget_mset_same .., fun d ne => mget_mset_other _ _ _ _ ne, rfl⟩
  · intro f host pf at_ may
    refine ⟨_, exec_registerWrite_step ready host pf at_ may v same, ?_, fun go odd => ?_⟩
    · split
      · exact onlyRegs_evSet ..
      · exact ⟨fun _ _ => rfl, rfl⟩
    · rw [if_pos ⟨go, odd⟩]
      exact rb_evSet_same _ _ _ (by decide)
  · intro aligned may stray plain found narrow own
    have runs := exec_registerWrite (off := off) ready v same
    rw [State.writeWord_narrow aligned may stray plain found narrow] at runs
    have step : o ≠ Reg.BRUP_CMD := fun at_ => by
      rw [(own_of_step (at_ ▸ found)).1] at own
      cases own
    refine ⟨fun appart link thrash irq pair => ?_, fun n pos lt at_ rw_ w1c => ?_⟩
    · rw [(State.narrowWrite_plain own step appart link thrash pair v same).1 irq] at runs
      exact ⟨_, runs, State.wordSet_rg .., State.wordSet_onlyRegs ..⟩
    · simp only [Reg.IRQ_GCFG] at at_
      have key : s.keyOf o = o := s.keyOf_irq (by simp only [Reg.IRQ_GCFG]; omega) (by simp only [Reg.IRQ_GCFG]; omega)
      rw [(State.narrowWrite_plain own step (by rw [at_]; simp only [Reg.GLB_APPART]; omega) (by rw [at_]; simp only [Reg.SPL_LINKCTL]; omega)
        (by rw [at_]; simp only [Reg.LIN_SLICE_THRASH]; omega) (by omega) v same).2 n pos lt at_, key] at runs
      have word : (s.wordSet o (bw row.rw) (bw row.w1c) (prioLimited v) same).rg o =
          (s.rg o &&& ~~~(0xFFFF0FFF : Word)) ||| (prioLimited v &&& 0xFFFF0FFF) := by
        have none : prioLimited v &&& bw 0 &&& ~~~(if same then s.setNow o else 0) = 0 := by
          rw [show bw 0 = 0#32 from rfl, BitVec.and_zero, BitVec.zero_and]
          rfl
        rw [State.wordSet_rg, rw_, w1c, none]
        exact BitVec.and_allOnes
      have field : ∀ hi lo, (∀ i, i < hi + 1 - lo → (0xFFFF0FFF : Word).getLsbD (lo + i) = true) →
          (s.wordSet o (bw row.rw) (bw row.w1c) (prioLimited v) same).rf o hi lo = bitsOf (prioLimited v).toNat hi lo :=
        fun hi lo covers => (congrArg (fun w : Word => bitsOf w.toNat hi lo) word).trans (bitsOf_masked _ _ _ _ _ covers)
      exact ⟨_, runs, (field 3 0 (by decide)).trans (prioLimited_prio v),
        (field 11 4 (by decide)).trans (prioLimited_above v _ _ (by decide)),
        (field 31 16 (by decide)).trans (prioLimited_above v _ _ (by decide)), State.wordSet_onlyRegs ..⟩

end Sys2Proof.Machine

/-! # UNPICK -/

namespace Sys2Proof.Machine

theorem exec_unpick {f : Func} {s : State} (speaks : s.speaks f = true) (ready : s.mustWait (portOf f) = false)
    (phase : s.ptn.phase ≠ .idle) (due : s.ptn.commitDue = false) (may : isPf f = true ∨ s.ptn.opener = f) :
    exec (.unpick f) s = .next (s.unpickWith 0 0 4 (some f)) := by
  have allowed : (!isPf f && decide (s.ptn.opener ≠ f)) = false := by
    rcases may with pf | opener
    · simp [pf]
    · simp [opener]
  refine congrArg Host.Outcome.next ((State.inOrder_of_ready ready ..).trans ?_)
  simp only [speaks, due, allowed, beq_false_of_ne phase]
  rfl

/-- UNPICK forgets the pseudo-channels condemned since the commit was due, which stand with the stacks. -/
theorem State.unpickWith_fresh (s : State) (code detail op : Nat) (who : Option Func) :
    (s.unpickWith code detail op who).hbm.fresh = [] := rfl

/-- A basting is open, and pseudo-channel 0 counts as condemned since a commit was due. -/
def staleFresh : State :=
  { State.reset with ptn := { State.reset.ptn with phase := .opened }, hbm := { State.reset.hbm with fresh := [0] } }

/-- Refutes O25: UNPICK empties the list of pseudo-channels condemned since a commit was due, so `t.hbm = s.hbm` fails from a state
that holds one while no commit is due; all else the statement says of UNPICK is not at issue. -/
theorem not_bastingCommands : ¬ Obligations.BastingCommands := by
  unfold Obligations.BastingCommands
  intro h
  have phase : staleFresh.ptn.phase ≠ .idle := by decide
  obtain ⟨-, -, unpick⟩ := h.1 (.pf 0) staleFresh rfl (by decide)
  obtain ⟨t, e, -, -, -, -, -, -, -, hbm, -⟩ := unpick phase rfl (.inl rfl)
  rw [exec_unpick rfl (by decide) phase rfl (.inl rfl)] at e
  have fresh : [] = [0] := calc
    [] = t.hbm.fresh := by rw [← Host.Outcome.next.inj e]; rfl
    _ = [0] := congrArg Hbm.fresh hbm
  cases fresh

end Sys2Proof.Machine

/-! # Registers that notes leave alone

An event that is raised, and an error that is logged, set bits of the interrupt and error blocks only. -/

namespace Sys2Proof.Machine

/-- Does a register lie outside the interrupt and error blocks? -/
def unnotedKey (k : Nat) : Prop := k < Reg.IRQ_RAW ∨ 0x90000 ≤ k

theorem State.vfEvent_regs (s : State) (k v : Nat) : (s.vfEvent k v).regs = s.regs := by
  unfold State.vfEvent
  dsimp only
  split
  · rfl
  · split
    · rfl
    · split
      · rfl
      · split
        · rfl
        · split <;> rfl

section
variable (s : State) {k : Nat} (out : unnotedKey k)
include out

theorem State.rg_rawSet {src : Nat} (fits : src < 4096) : (s.rawSet src).rg k = s.rg k := by
  simp only [unnotedKey, Reg.IRQ_RAW] at out
  exact rg_evSet_other _ _ (by simp only [Reg.IRQ_RAW]; omega)

theorem State.rg_raise {src : Nat} (fits : src < 4096) : (s.raise src).rg k = s.rg k := by
  have raw := s.rg_rawSet out fits
  have event : ∀ (p v : Nat), ((s.rawSet src).vfEvent p v).rg k = s.rg k := fun p v =>
    (rg_of_regs (State.vfEvent_regs ..) k).trans raw
  unfold State.raise
  dsimp only
  split
  · exact event _ _
  · split
    · exact event _ _
    · split
      · exact event _ _
      · split
        · split
          · exact event _ _
          · exact raw
        · exact raw

theorem State.rg_logQueue (r : ErrRec) : (s.logQueue r).rg k = s.rg k := by
  unfold State.logQueue
  split
  · rfl
  · refine (State.rg_raise _ out (by decide)).trans ?_
    simp only [unnotedKey, Reg.IRQ_RAW] at out
    exact rg_rfSet_other _ _ _ _ (by simp only [Reg.ERR_LOST]; omega)

theorem State.rg_logRec {code : Nat} (fits : code < 2 ^ 16) (unit : Nat) (part : Option Nat) (addr syn : Nat) (once : Bool) :
    (s.logRec code unit part addr syn once).rg k = s.rg k := by
  have counted : (s.rAdd (Reg.ERR_CLASS + 4 * (codeClass code - 1)) 31 0 1).rg k = s.rg k := by
    simp only [unnotedKey, Reg.IRQ_RAW] at out
    exact rg_rAdd_other _ _ _ _ (by simp only [Reg.ERR_CLASS, codeClass]; omega)
  have queued : ∀ r : ErrRec, ((s.rAdd (Reg.ERR_CLASS + 4 * (codeClass code - 1)) 31 0 1).logQueue r).rg k = s.rg k :=
    fun r => (State.rg_logQueue _ out r).trans counted
  unfold State.logRec
  dsimp only
  split
  · exact queued _
  · split
    · split
      · exact counted
      · exact queued _
    · split
      · exact queued _
      · split
        · split
          · exact counted
          · exact queued _
        · exact queued _

theorem State.rg_err {code : Nat} (fits : code < 2 ^ 16) (unit : Nat) (part : Option Nat) (addr syn : Nat) :
    (s.err code unit part addr syn).rg k = s.rg k := s.rg_logRec out fits ..

end

theorem State.rf_of_rg {s t : State} {k : Nat} (h : t.rg k = s.rg k) (hi lo : Nat) : t.rf k hi lo = s.rf k hi lo := by
  rw [State.rf, h, State.rf]

theorem State.rb_of_rg {s t : State} {k : Nat} (h : t.rg k = s.rg k) (i : Nat) : t.rb k i = s.rb k i := by
  rw [State.rb, h, State.rb]

theorem State.rg64_of_rg {s t : State} {k : Nat} (lo : t.rg k = s.rg k) (hi : t.rg (k + 4) = s.rg (k + 4)) : t.rg64 k = s.rg64 k := by
  rw [State.rg64, lo, hi, State.rg64]

end Sys2Proof.Machine

/-! # Cutting list copies and the close of a step -/

namespace Sys2Proof.Machine

section
variable {s t : State} (h : s.threadOnly t)
include h

theorem State.threadOnly.parts : t.parts = s.parts := (congrArg State.parts h :)
theorem State.threadOnly.pair : t.pair = s.pair := (congrArg State.pair h :)
theorem State.threadOnly.tick : t.tick = s.tick := (congrArg State.tick h :)

theorem State.threadOnly.part (p : Nat) : t.part p = s.part p := by rw [State.part, h.parts, State.part]

end

/-! ## Cutting lists -/

/-- The part of a partition whose list is copied. -/
def Part.copied (x : Part) : Part := { x with cutCopy := false, startDue := false }

/-- What follows the accesses of a copy. -/
def State.copyEnds (s : State) (n code : Nat) : State :=
  let s := if code = 0 then s else s.err code (unitId 0 0) (some n) 0 0
  let due := (s.part n).startDue
  let s := s.partMap n Part.copied
  if due && (s.part n).running then s.startSupervisors n else s

/-- The accesses of a copy, with the code of the first that fails. -/
def State.listWrites (s : State) (n : Nat) : Nat × State :=
  let t := s.ptn.running
  (lineCuts (t.cutBase n) (t.areaLen n)).foldl (fun (x : Nat × State) q =>
    let (c, u) := x.2.memWrite .device (some n) q.1 (readCells (t.sec 8 n).bytes (0x40 + q.1 - t.cutBase n) q.2) .clean
    (if x.1 = 0 then c else x.1, u)) (0, s)

theorem State.startSupervisors_threadOnly (s : State) (p : Nat) : s.threadOnly (s.startSupervisors p) := by
  unfold State.startSupervisors
  refine List.foldlRecOn (motive := s.threadOnly) _ _ (.refl s) fun u hu c _ => hu.trans ?_
  exact .ite (u.groupSet_threadOnly ..) (.refl u) _

theorem State.copyEnds_outcome (s : State) (n code : Nat) :
    (s.copyEnds n code).hbm = s.hbm ∧ (s.copyEnds n code).lin = s.lin ∧ ((s.copyEnds n code).part n).cutCopy = false ∧
      ((s.copyEnds n code).part n).startDue = false ∧ (s.copyEnds n code).ptn = s.ptn := by
  let u := if code = 0 then s else s.err code (unitId 0 0) (some n) 0 0
  have noted : s.threadOnly u := .ite (.refl s) (State.err_sameButLog ..).notes.threadOnly _
  let v := u.partMap n Part.copied
  have only : v.threadOnly (s.copyEnds n code) := .ite (v.startSupervisors_threadOnly n) (.refl v) _
  have part : (s.copyEnds n code).part n = (u.part n).copied := (only.part n).trans (part_partSet_same ..)
  rw [part]
  exact ⟨only.hbm.trans noted.hbm, only.lin.trans noted.lin, rfl, rfl, only.ptn.trans noted.ptn⟩

theorem exec_cuttingListCopy_idle {p : Fin 16} {s : State} (none : (s.part p.val).cutCopy = false) :
    exec (.cuttingListCopy p) s = .next s := by
  refine congrArg Host.Outcome.next (if_pos ?_)
  rw [none]
  rfl

/-- A cutting list copied, whose accesses all proceed. -/
def State.copyList (s : State) (n : Nat) : State := (s.listWrites n).2.copyEnds n (s.listWrites n).1

theorem State.copyList_outcome (s : State) (n : Nat) :
    (s.copyList n).hbm = (s.listWrites n).2.hbm ∧ (s.copyList n).lin = (s.listWrites n).2.lin ∧
      ((s.copyList n).part n).cutCopy = false ∧ ((s.copyList n).part n).startDue = false ∧
      (s.copyList n).ptn = (s.listWrites n).2.ptn := by
  unfold State.copyList
  generalize s.listWrites n = r
  exact r.2.copyEnds_outcome n r.1

theorem exec_cuttingListCopy (p : Fin 16) (s : State) : exec (.cuttingListCopy p) s =
    .next (if !(s.part p.val).cutCopy || (s.coresOf p.val).any (fun c => !(s.core c).queue.isEmpty || !(s.core c).run.isEmpty) then s
      else s.together (fun u => u.copyList p.val)) := by
  have e : exec (.cuttingListCopy p) s = execCuttingListCopy p s := rfl
  rw [e, execCuttingListCopy]
  dsimp only
  congr 3

theorem exec_cuttingListCopy_copies {p : Fin 16} {s : State} (due : (s.part p.val).cutCopy = true)
    (idle : ∀ c ∈ s.coresOf p.val, (s.core c).queue = [] ∧ (s.core c).run = [])
    (free : (({ s with lin := s.lin.calm } : State).listWrites p.val).2.lin.stuck = none) :
    let t := ({ s with lin := s.lin.calm } : State).copyList p.val
    exec (.cuttingListCopy p) s = .next { t with spl := { t.spl with far := t.spl.far.filter (fun g => !g.used) } } := by
  intro t
  have busy : (s.coresOf p.val).any (fun c => !(s.core c).queue.isEmpty || !(s.core c).run.isEmpty) = false := by
    rw [List.any_eq_false]
    intro c mem
    obtain ⟨queue, run⟩ := idle c mem
    simp [queue, run]
  have stuck := (congrArg Lining.stuck (State.copyList_outcome { s with lin := s.lin.calm } p.val).2.1).trans free
  have taken : ¬((!true || false) = true) := by decide
  rw [exec_cuttingListCopy, due, busy, if_neg taken, together_free s (fun u => u.copyList p.val) stuck]

/-! ## The close of a step -/

/-- The fit ids of a partition closed. -/
def State.closeAll (s : State) (n : Nat) (x : Part) : State :=
  (List.range (s.ptn.running.fitCount n)).foldl (fun u i => u.closeOne n (s.ptn.running.fitBase n + i) x.boundary x.supply) s

/-- The interrupt of a close, and the proof jobs that no group has taken. -/
def State.jobsClosed (s : State) (n before : Nat) (irq : Bool) : State :=
  (if irq && s.rf (proofReg Reg.TICK_PROOF_B n) 31 16 != before then s.raise (48 + n) else s).discardJobs n

/-- The close behind the fit ids: the sheet, and the end of the step or the wait for its COMMIT. -/
def State.closeEnds (s : State) (n : Nat) : State :=
  let s := s.partMap n (fun y => { y with fitClosed := true })
  let s := s.writeSheet n
  if s.mirrored n then
    { s.partMap n (fun y => { y with mirroring := true }) with pair := { s.pair with waiting := s.pair.waiting ++ [n] } }
  else s.finishStep n

theorem State.discardJobs_threadOnly (s : State) (n : Nat) : s.threadOnly (s.discardJobs n) := by
  unfold State.discardJobs
  refine List.foldlRecOn (motive := s.threadOnly) _ _ (.refl s) fun u hu c _ => hu.trans ?_
  exact (u.coreMap_threadOnly ..).trans (State.rfSet_notes ..).threadOnly

theorem State.rg_discardJobs (s : State) {n k : Nat} (ne : k ≠ Reg.TICK_PROOF_B + 0x10 * n) : (s.discardJobs n).rg k = s.rg k := by
  unfold State.discardJobs
  refine List.foldlRecOn (motive := fun u : State => u.rg k = s.rg k) _ _ rfl fun u hu c _ => Eq.trans ?_ hu
  exact rg_rAdd_other _ _ _ _ ne

section
variable (s : State) {n : Nat} (before : Nat) (irq : Bool)

theorem State.jobsClosed_threadOnly : s.threadOnly (s.jobsClosed n before irq) :=
  (State.threadOnly.ite (s.raise_notes _).threadOnly (.refl s) _).trans (State.discardJobs_threadOnly ..)

theorem State.rg_jobsClosed (lt : n < 16) {k : Nat} (out : unnotedKey k) (ne : k ≠ Reg.TICK_PROOF_B + 0x10 * n) :
    (s.jobsClosed n before irq).rg k = s.rg k := by
  refine (State.rg_discardJobs _ ne).trans ?_
  split
  · exact s.rg_raise out (by omega)
  · rfl

end

/-- The completion sheet's effect on its partition and on BAR4. -/
structure State.Sheets (s t : State) (n : Nat) : Prop where
  part : t.part n = { s.part n with backlog := (t.part n).backlog, residents := (t.part n).residents }
  backlog : (t.part n).backlog.length = (s.part n).backlog.length - 2047
  others : ∀ q, q ≠ n → t.part q = s.part q
  pair : t.pair = s.pair
  lin : t.lin = s.lin
  ptn : t.ptn = s.ptn
  regs : ∀ k, unnotedKey k → k ≠ Reg.TICK_RESIDENT + 0x20 * n → t.rg k = s.rg k
  header : readCells t.bar4 (n * 2 ^ 20 + 0x80000 + (s.rg64 (Reg.TICK_STEPNO + 0x20 * n) - 1) % 4 * 0x20000) 18 =
    leBytes (s.part n).boundary 8 ++ leBytes (s.rg64 (Reg.TICK_STEPNO + 0x20 * n) - 1) 8 ++
      leBytes (min (s.part n).backlog.length 2047) 2

theorem writeCells_append (xs ys : List Byte) (m : List Host.Cell) (a : Nat) :
    writeCells m a (xs ++ ys) = writeCells (writeCells m a xs) (a + xs.length) ys := by
  induction xs generalizing m a with
  | nil => rfl
  | cons x xs ih =>
    rw [List.cons_append, writeCells, ih, writeCells, List.length_cons, Nat.add_right_comm, ← Nat.add_assoc]

/-- Of bytes written, the first read back. -/
theorem readCells_writeCells_append (xs ys : List Byte) (m : List Host.Cell) (a : Nat) :
    readCells (writeCells m a (xs ++ ys)) a xs.length = xs := by
  rw [writeCells_append]
  exact (readCells_congr fun k _ hi => mget_writeCells_other _ _ _ _ (.inl hi)).trans (readCells_writeCells ..)

theorem State.part_partMap_same (s : State) (p : Nat) (f : Part → Part) : (s.partMap p f).part p = f (s.part p) := part_partSet_same ..

theorem State.part_partMap_other (s : State) {p q : Nat} (f : Part → Part) (ne : q ≠ p) : (s.partMap p f).part q = s.part q :=
  part_partSet_other _ _ ne

theorem State.part_setResidents_same (s : State) (p : Nat) (rs : List (Nat × Nat)) :
    (s.setResidents p rs).part p = { s.part p with residents := rs } :=
  s.part_partMap_same p (fun x => { x with residents := rs })

theorem State.part_setResidents_other (s : State) {p q : Nat} (rs : List (Nat × Nat)) (ne : q ≠ p) :
    (s.setResidents p rs).part q = s.part q := s.part_partMap_other (fun x => { x with residents := rs }) ne

/-- The completions of a step leave the backlog for the sheet. -/
def State.shed (s : State) (n : Nat) (mem : List Host.Cell) (rest : List Comp) (done : List (Nat × Nat)) : State :=
  (({ s with bar4 := mem } : State).partMap n (fun y => { y with backlog := rest })).setResidents n done

theorem State.part_shed_same (s : State) (n : Nat) (mem : List Host.Cell) (rest : List Comp) (done : List (Nat × Nat)) :
    (s.shed n mem rest done).part n = { s.part n with backlog := rest, residents := done } := by
  rw [State.shed, State.part_setResidents_same, State.part_partMap_same]
  rfl

theorem State.part_shed_other (s : State) {n q : Nat} (mem : List Host.Cell) (rest : List Comp) (done : List (Nat × Nat))
    (ne : q ≠ n) : (s.shed n mem rest done).part q = s.part q := by
  rw [State.shed, State.part_setResidents_other _ _ ne, State.part_partMap_other _ _ ne]
  rfl

theorem State.rg_shed (s : State) {n k : Nat} (mem : List Host.Cell) (rest : List Comp) (done : List (Nat × Nat))
    (ne : k ≠ Reg.TICK_RESIDENT + 0x20 * n) : (s.shed n mem rest done).rg k = s.rg k := rg_rfSet_other _ _ _ _ ne

theorem State.shed_bar4 (s : State) (n : Nat) (mem : List Host.Cell) (rest : List Comp) (done : List (Nat × Nat)) :
    (s.shed n mem rest done).bar4 = mem := rfl

theorem State.writeSheet_sheets (s : State) {n : Nat} (lt : n < 16) : s.Sheets (s.writeSheet n) n := by
  let x := s.part n
  let flags := b2n x.late + 2 * b2n x.supply
  let all := x.backlog.map (fun e => e.flagged x.boundary flags)
  let now := all.take 2047
  let k := s.rg64 (Reg.TICK_STEPNO + 0x20 * n) - 1
  let base := n * 2 ^ 20 + 0x80000 + k % 4 * 0x20000
  let mem := (List.range now.length).foldl (fun m i =>
    writeCells m (base + 0x40 + 64 * i) (bytesOf ((now.getD i ⟨[], false, false⟩).words))) s.bar4
  let head : List Byte := leBytes x.boundary 8 ++ leBytes k 8 ++ leBytes now.length 2
  let tail : List Byte := leBytes (min 0xFFFF (all.drop 2047).length) 2 ++ (leBytes flags 2 ++ (leBytes (min 0xFFFF x.skipped) 2 ++
    (leBytes s.tickNo 8 ++ List.replicate 32 0)))
  let rest := (all.drop 2047).map (fun (e : Comp) => { e with freed := true })
  let done := (all.filter Comp.final).foldl (fun rs e => releaseCost rs e.tag) x.residents
  let u := s.shed n (writeCells mem base (head ++ tail)) rest done
  have whole : s.writeSheet n = if s.ptn.running.sheetIrq n then u.raise n else u := by
    unfold State.writeSheet
    simp only [u, State.shed, head, tail, List.append_assoc]
    rfl
  have notes : u.notes (s.writeSheet n) := by
    rw [whole]
    exact .ite (u.raise_notes _) (.refl u) _
  have part : u.part n = { x with backlog := rest, residents := done } := s.part_shed_same ..
  have same := notes.threadOnly
  have length : now.length = min x.backlog.length 2047 := by simp [now, all, Nat.min_comm]
  refine ⟨?_, ?_, fun q ne => ?_, same.pair, same.lin, same.ptn, fun j out ne => ?_, ?_⟩
  · rw [same.part, part]
  · rw [same.part, part]
    simp [rest, all, x]
  · exact (same.part q).trans (s.part_shed_other _ _ _ ne)
  · rw [whole]
    refine Eq.trans ?_ (s.rg_shed (writeCells mem base (head ++ tail)) rest done ne)
    split
    · exact u.rg_raise out (by omega)
    · rfl
  · have size : head.length = 18 := by simp [head]
    have read := readCells_writeCells_append head tail mem base
    rw [size] at read
    rw [same.bar4, ← length, State.shed_bar4]
    exact read

/-- A partition whose step is finished. -/
def Part.finished (x : Part) : Part := { x with running := false, late := false, mirroring := false }

theorem State.finishStep_outcome (s : State) (n : Nat) : (s.finishStep n).part n = (s.part n).finished ∧
    (∀ q, q ≠ n → (s.finishStep n).part q = s.part q) ∧ (s.finishStep n).lin = s.lin ∧ (s.finishStep n).bar4 = s.bar4 ∧
    (s.finishStep n).ptn = s.ptn := by
  have only : (s.partSet n (s.part n).finished).threadOnly (s.finishStep n) :=
    (State.rfSet_notes ..).threadOnly.trans (.ite (State.rfSet_notes ..).threadOnly (.refl _) _)
  exact ⟨(only.part n).trans (part_partSet_same ..), fun q ne => (only.part q).trans (part_partSet_other _ _ ne), only.lin, only.bar4, only.ptn⟩

/-- What the end of a close leaves. -/
structure State.CloseEnds (s t : State) (n : Nat) : Prop where
  closed : (t.part n).fitClosed = true
  finished : s.mirrored n = false → (t.part n).running = false ∧ (t.part n).late = false
  mirrors : s.mirrored n = true → (t.part n).mirroring = true ∧ n ∈ t.pair.waiting
  others : ∀ q, q ≠ n → t.part q = s.part q
  lin : t.lin = s.lin
  backlog : (t.part n).backlog.length = (s.part n).backlog.length - 2047
  header : readCells t.bar4 (n * 2 ^ 20 + 0x80000 + (s.rg64 (Reg.TICK_STEPNO + 0x20 * n) - 1) % 4 * 0x20000) 18 =
    leBytes (s.part n).boundary 8 ++ leBytes (s.rg64 (Reg.TICK_STEPNO + 0x20 * n) - 1) 8 ++
      leBytes (min (s.part n).backlog.length 2047) 2

/-- The partition whose fit ids are closed. -/
def Part.closed (x : Part) : Part := { x with fitClosed := true }

/-- A step whose COMMIT is awaited. -/
def State.awaitsCommit (s : State) (n : Nat) : State :=
  { s.partMap n (fun y => { y with mirroring := true }) with pair := { s.pair with waiting := s.pair.waiting ++ [n] } }

theorem State.awaitsCommit_part (s : State) (n : Nat) : (s.awaitsCommit n).part n = { s.part n with mirroring := true } :=
  s.part_partMap_same n (fun y => { y with mirroring := true })

theorem State.awaitsCommit_other (s : State) {n q : Nat} (ne : q ≠ n) : (s.awaitsCommit n).part q = s.part q :=
  s.part_partMap_other (fun y => { y with mirroring := true }) ne

theorem State.closeEnds_outcome (s : State) {n : Nat} (lt : n < 16) : s.CloseEnds (s.closeEnds n) n := by
  obtain ⟨v, hv⟩ : ∃ v, s.partMap n Part.closed = v := ⟨_, rfl⟩
  have part : v.part n = (s.part n).closed := hv ▸ s.part_partMap_same ..
  have others : ∀ q, q ≠ n → v.part q = s.part q := fun q ne => hv ▸ s.part_partMap_other _ ne
  have regs : v.regs = s.regs := hv ▸ rfl
  have lin : v.lin = s.lin := hv ▸ rfl
  have pair : v.pair = s.pair := hv ▸ rfl
  have sheet := v.writeSheet_sheets lt
  obtain ⟨w, hw⟩ : ∃ w, v.writeSheet n = w := ⟨_, rfl⟩
  rw [hw] at sheet
  have mirrored : w.mirrored n = s.mirrored n := by
    have cfg : w.rg Reg.PAIR_CFG = s.rg Reg.PAIR_CFG :=
      (sheet.regs _ (.inr (by decide)) (by simp only [Reg.PAIR_CFG, Reg.TICK_RESIDENT]; omega)).trans (rg_of_regs regs _)
    rw [State.mirrored, sheet.pair, pair, State.rb_of_rg cfg, State.mirrored]
  have ends : s.closeEnds n = if w.mirrored n then w.awaitsCommit n else w.finishStep n := by
    rw [State.closeEnds, show s.partMap n (fun y => { y with fitClosed := true }) = v from hv]
    dsimp only
    rw [hw]
    rfl
  have header := sheet.header
  rw [State.rg64_of_rg (rg_of_regs regs _) (rg_of_regs regs _), part] at header
  have closed : (w.part n).fitClosed = true := by rw [sheet.part, part]; rfl
  have backlog : (w.part n).backlog.length = (s.part n).backlog.length - 2047 := sheet.backlog.trans (by rw [part]; rfl)
  rw [ends, mirrored]
  cases on : s.mirrored n
  · obtain ⟨same, rest, linW, bar4, -⟩ := w.finishStep_outcome n
    rw [if_neg Bool.false_ne_true]
    refine ⟨same ▸ closed, fun _ => same ▸ ⟨rfl, rfl⟩, fun h => absurd (on.symm.trans h) (by decide), fun q ne => ?_,
      linW.trans (sheet.lin.trans lin), same ▸ backlog, bar4 ▸ header⟩
    exact (rest q ne).trans ((sheet.others q ne).trans (others q ne))
  · have same := w.awaitsCommit_part n
    rw [if_pos rfl]
    refine ⟨same ▸ closed, fun h => absurd (on.symm.trans h) (by decide), fun _ => ⟨same ▸ rfl, ?_⟩, fun q ne => ?_,
      sheet.lin.trans lin, same ▸ backlog, header⟩
    · exact List.mem_append_right _ (List.mem_singleton_self n)
    · exact (w.awaitsCommit_other ne).trans ((sheet.others q ne).trans (others q ne))

/-- The close of a step whose accesses all proceed. -/
def State.closeStep (s : State) (n : Nat) (x : Part) : State :=
  ((s.closeAll n x).jobsClosed n (s.rf (proofReg Reg.TICK_PROOF_B n) 31 16) (s.ptn.running.fitIrq n)).closeEnds n

theorem exec_fitClose (p : Fin 16) (s : State) : exec (.fitClose p) s = .next
    (if !(s.part p.val).running || (s.part p.val).fitClosed || (s.part p.val).startDue || !s.programEnded p.val then s
      else s.together (fun u => u.closeStep p.val (s.part p.val))) := by
  have e : exec (.fitClose p) s = execFitClose p s := rfl
  rw [e, execFitClose]
  dsimp only
  congr 3

theorem State.closeStep_lin (s : State) {n : Nat} (lt : n < 16) (x : Part) : (s.closeStep n x).lin = (s.closeAll n x).lin :=
  (State.closeEnds_outcome _ lt).lin.trans (State.jobsClosed_threadOnly ..).lin

/-- What the close of a step leaves, by the state behind its fit ids. -/
theorem State.closeStep_outcome (s : State) {n : Nat} (lt : n < 16) (x : Part) :
    let u := s.closeAll n x
    let t := s.closeStep n x
    (t.part n).fitClosed = true ∧ (u.mirrored n = false → (t.part n).running = false ∧ (t.part n).late = false) ∧
      (u.mirrored n = true → (t.part n).mirroring = true ∧ n ∈ t.pair.waiting) ∧ (∀ q, q ≠ n → t.part q = u.part q) ∧
      readCells t.bar4 (n * 2 ^ 20 + 0x80000 + (u.rg64 (Reg.TICK_STEPNO + 0x20 * n) - 1) % 4 * 0x20000) 18 =
        leBytes (u.part n).boundary 8 ++ leBytes (u.rg64 (Reg.TICK_STEPNO + 0x20 * n) - 1) 8 ++
          leBytes (min (u.part n).backlog.length 2047) 2 ∧
      (t.part n).backlog.length = (u.part n).backlog.length - 2047 := by
  intro u t
  obtain ⟨v, hv⟩ : ∃ v, u.jobsClosed n (s.rf (proofReg Reg.TICK_PROOF_B n) 31 16) (s.ptn.running.fitIrq n) = v := ⟨_, rfl⟩
  have only : u.threadOnly v := hv ▸ u.jobsClosed_threadOnly ..
  have regs : ∀ k, unnotedKey k → k ≠ Reg.TICK_PROOF_B + 0x10 * n → v.rg k = u.rg k := fun k out ne => hv ▸ u.rg_jobsClosed _ _ lt out ne
  have ends : v.CloseEnds t n := by
    have whole : t = v.closeEnds n := by rw [← hv]; rfl
    rw [whole]
    exact v.closeEnds_outcome lt
  have cfg : v.rg Reg.PAIR_CFG = u.rg Reg.PAIR_CFG :=
    regs _ (.inr (by decide)) (by simp only [Reg.PAIR_CFG, Reg.TICK_PROOF_B]; omega)
  have mirrored : v.mirrored n = u.mirrored n := by rw [State.mirrored, only.pair, State.rb_of_rg cfg, State.mirrored]
  have step : v.rg64 (Reg.TICK_STEPNO + 0x20 * n) = u.rg64 (Reg.TICK_STEPNO + 0x20 * n) :=
    State.rg64_of_rg
      (regs _ (.inl (by simp only [Reg.TICK_STEPNO, Reg.IRQ_RAW]; omega)) (by simp only [Reg.TICK_STEPNO, Reg.TICK_PROOF_B]; omega))
      (regs _ (.inl (by simp only [Reg.TICK_STEPNO, Reg.IRQ_RAW]; omega)) (by simp only [Reg.TICK_STEPNO, Reg.TICK_PROOF_B]; omega))
  have header := ends.header
  rw [step, only.part] at header
  exact ⟨ends.closed, fun no => ends.finished (mirrored.trans no), fun yes => ends.mirrors (mirrored.trans yes),
    fun q ne => (ends.others q ne).trans (only.part q), header, ends.backlog.trans (by rw [only.part])⟩

/-- Settles O27: a copy and a close are each one run of accesses, followed by bookkeeping of the partition. -/
theorem stepDataWritten : Obligations.StepDataWritten := by
  unfold Obligations.StepDataWritten
  refine ⟨?_, ?_⟩
  · intro p s n pat w
    have writes : (({ s with lin := s.lin.calm } : State).listWrites n).2 = w := (List.foldl_hom Prod.snd fun _ _ => rfl).symm
    refine ⟨exec_cuttingListCopy_idle, fun due idle free => ⟨_, exec_cuttingListCopy_copies due idle (by rw [writes]; exact free), ?_⟩⟩
    have ends := ({ s with lin := s.lin.calm } : State).copyList_outcome n
    rw [writes] at ends
    generalize ({ s with lin := s.lin.calm } : State).copyList n = v at ends ⊢
    exact ends
  · intro p s n x u k
    refine ⟨fun skip => ?_, fun running open_ started ended free => ?_⟩
    · rw [exec_fitClose, if_pos]
      rcases skip with h | h | h | h <;> simp [h, x, n]
    · have ends := ({ s with lin := s.lin.calm } : State).closeStep_outcome p.isLt x
      have taken : ¬((!x.running || x.fitClosed || x.startDue || !s.programEnded n) = true) := by
        simp [running, open_, started, ended]
      have stuck : (({ s with lin := s.lin.calm } : State).closeStep n x).lin.stuck = none :=
        (congrArg Lining.stuck (State.closeStep_lin { s with lin := s.lin.calm } p.isLt x)).trans free
      rw [exec_fitClose, if_neg taken, together_free s (fun u => u.closeStep p.val x) stuck]
      obtain ⟨closed, finished, mirrors, others, header, backlog⟩ := ends
      refine ⟨_, rfl, closed, finished, mirrors, others, fun none => ?_⟩
      have same : ({ s with lin := s.lin.calm } : State).closeAll n x = { s with lin := s.lin.calm } := by
        unfold State.closeAll
        rw [none]
        rfl
      rw [same] at header backlog
      exact ⟨header, backlog⟩

end Sys2Proof.Machine

/-! # PIN, UNPIN and HOMEQ -/

namespace Sys2Proof.Machine

/-- May a request of `f` pin region `i`: a valid dynamic region, of its own partition where it is a VF's? -/
def State.mayPin (s : State) (f : Func) (i : Nat) : Prop :=
  (s.ptn.running.region i).valid = true ∧ (s.ptn.running.region i).dyn = true ∧
    ∀ p, vfPart f = some p → p.val = (s.ptn.running.region i).owner

theorem State.pinRequest_taken {s : State} {f : Func} {i : Nat} (on : s.speaks f = true) (idle : s.pinBusy = false)
    (mine : s.mayPin f i) (isPin : Bool) :
    s.pinRequest f i isPin = { s with lin := { s.lin with pinCmd := some (isPin, i) } } := by
  obtain ⟨valid, dyn, owner⟩ := mine
  have origin : ¬(!(s.ptn.running.region i).valid || !(s.ptn.running.region i).dyn ||
      !(match vfPart f with | none => true | some p => p.val == (s.ptn.running.region i).owner)) = true := by
    cases own : vfPart f with
    | none => simp [valid, dyn]
    | some p => simp [valid, dyn, owner p own]
  unfold State.pinRequest
  exact (if_neg (by simp [on])).trans ((if_neg (by simp [idle])).trans (if_neg origin))

theorem State.pinRequest_perm {s : State} {f : Func} {i : Nat} (on : s.speaks f = true) (idle : s.pinBusy = false)
    (other : ¬s.mayPin f i) (isPin : Bool) : s.pinRequest f i isPin = s.pinResult ePerm (if isPin then 1 else 2) := by
  have refused : (!(s.ptn.running.region i).valid || !(s.ptn.running.region i).dyn ||
      !(match vfPart f with | none => true | some p => p.val == (s.ptn.running.region i).owner)) = true := by
    by_contra free
    refine other ⟨?_, ?_, fun p own => ?_⟩
    · cases valid : (s.ptn.running.region i).valid <;> simp_all
    · cases dyn : (s.ptn.running.region i).dyn <;> simp_all
    · simp_all
  simp only [State.pinRequest, on, idle]
  exact if_pos refused

theorem State.pinRequest_busy {s : State} {f : Func} (on : s.speaks f = true) (busy : s.pinBusy = true) (i : Nat) (isPin : Bool) :
    s.pinRequest f i isPin = s.pinResult ePtnInvalid (if isPin then 1 else 2) := by
  simp [State.pinRequest, on, busy]

/-- A field of an event's register that does not hold the event's bit. -/
theorem rf_evSet_apart (s : State) (k i hi lo : Nat) (hi32 : i < 32) (hd : i < lo ∨ hi < i) :
    (s.evSet k i).rf k hi lo = s.rf k hi lo := by
  have same : (s.evSet k i).rf k hi lo = (s.rfSet k i i (b2n true)).rf k hi lo := rfl
  rw [same]
  exact rf_rfSet_apart s k i i _ hi lo (by omega) hi32 hd

/-- LIN.PINRESULT tells a code and the operation. -/
def State.toldPin (s t : State) (code op : Nat) : Prop :=
  onlyRegs [Reg.LIN_PINRESULT] s t ∧ t.rf Reg.LIN_PINRESULT 15 0 = code ∧ t.rf Reg.LIN_PINRESULT 17 16 = op ∧
    t.rb Reg.LIN_PINRESULT 18 = true

theorem State.pinResult_told (s : State) {code op : Nat} (hc : code < 2 ^ 16) (ho : op < 4) :
    s.toldPin (s.pinResult code op) code op := by
  refine ⟨((s.rfSet_sameButEvents _ _ _ _).trans ((State.rfSet_sameButEvents _ _ _ _ _).trans
    (State.evSet_sameButEvents _ _ _))).onlyRegs ?_, ?_, ?_, rb_evSet_same _ _ _ (by decide)⟩
  · exact sameRegs_trans (sameRegs_trans (sameRegs_rfSet _ _ _ _ _) (sameRegs_rfSet _ _ _ _ _)) (sameRegs_evSet _ _ _)
  · calc (s.pinResult code op).rf Reg.LIN_PINRESULT 15 0
        = ((s.rfSet Reg.LIN_PINRESULT 15 0 code).rfSet Reg.LIN_PINRESULT 17 16 op).rf Reg.LIN_PINRESULT 15 0 :=
          rf_evSet_apart _ _ _ _ _ (by decide) (by decide)
      _ = (s.rfSet Reg.LIN_PINRESULT 15 0 code).rf Reg.LIN_PINRESULT 15 0 :=
          rf_rfSet_apart _ _ _ _ _ _ _ (by decide) (by decide) (by decide)
      _ = code := by rw [rf_rfSet_same _ _ _ _ _ (by decide) (by decide), Nat.mod_eq_of_lt hc]
  · calc (s.pinResult code op).rf Reg.LIN_PINRESULT 17 16
        = ((s.rfSet Reg.LIN_PINRESULT 15 0 code).rfSet Reg.LIN_PINRESULT 17 16 op).rf Reg.LIN_PINRESULT 17 16 :=
          rf_evSet_apart _ _ _ _ _ (by decide) (by decide)
      _ = op := by rw [rf_rfSet_same _ _ _ _ _ (by decide) (by decide)]; exact Nat.mod_eq_of_lt ho

section
variable {f : Func} {s : State} (ready : s.mustWait (portOf f) = false)
include ready

theorem exec_pin (i : Fin 256) : exec (.pin f i) s = .next (s.pinRequest f i.val true) :=
  congrArg Host.Outcome.next (State.inOrder_of_ready ready _ _)

theorem exec_unpin (i : Fin 256) : exec (.unpin f i) s = .next (s.pinRequest f i.val false) :=
  congrArg Host.Outcome.next (State.inOrder_of_ready ready _ _)

end

theorem lt_of_mem_setBits {m n i : Nat} (h : i ∈ setBits m n) : i < n :=
  List.mem_range.mp (List.mem_filter.mp h).1

/-- A home slice is one of the module's 1,536, a home set one of a slice's 3,072. -/
theorem State.home_lt (s : State) (p l : Nat) : (s.home p l).1 < 1536 ∧ (s.home p l).2 < 3072 := by
  refine ⟨?_, Nat.mod_lt _ (by decide)⟩
  generalize at_ : Config.homeHash (s.part p).hashGen l % max 1 (setBits (s.ptn.running.sliceMask p) 1536).length = j
  have form : (s.home p l).1 = (setBits (s.ptn.running.sliceMask p) 1536).getD j 0 := by simp only [State.home, at_]
  rw [form, List.getD_eq_getElem?_getD]
  cases found : (setBits (s.ptn.running.sliceMask p) 1536)[j]? with
  | none => decide
  | some sl => exact lt_of_mem_setBits (List.mem_of_getElem? found)

/-- The word of LIN.HOMEQ_RES for a home (Table 10.18). -/
def homeWord (sl st : Nat) : Word := BitVec.ofNat 32 (sl % 256 + 2 ^ 8 * (sl / 256) + 2 ^ 11 + 2 ^ 12 * st)

theorem homeWord_fields {sl st : Nat} (hsl : sl < 1536) (hst : st < 3072) :
    bitsOf (homeWord sl st).toNat 7 0 = sl % 256 ∧ bitsOf (homeWord sl st).toNat 10 8 = sl / 256 ∧
      bitOf (homeWord sl st).toNat 11 = true ∧ bitsOf (homeWord sl st).toNat 23 12 = st := by
  have word : (homeWord sl st).toNat = sl % 256 + 2 ^ 8 * (sl / 256) + 2 ^ 11 + 2 ^ 12 * st := by
    rw [homeWord, BitVec.toNat_ofNat, Nat.mod_eq_of_lt]
    omega
  rw [word]
  refine ⟨?_, ?_, ?_, ?_⟩
  · simp only [bitsOf]; omega
  · simp only [bitsOf]; omega
  · rw [bitOf, beq_iff_eq]; omega
  · simp only [bitsOf]; omega

/-- What LIN.HOMEQ_RES shows for the owner of an address, given the homes of its line. -/
def State.homeShown (u : State) (home : Nat → Nat × Nat) : Option Nat → State
  | some p => u.rgSet Reg.LIN_HOMEQ_RES (homeWord (home p).1 (home p).2)
  | none => u.rgSet Reg.LIN_HOMEQ_RES 0

/-- The definition is opened in place of its name alone: so the kernel never evaluates the match over a symbolic capacity. -/
theorem State.homeq_eq_homeShown (s : State) (a : Nat) :
    s.homeq a = (s.rg64Set Reg.LIN_HOMEQ a).homeShown (fun p => s.home p (a / 128))
      (if a < s.capacity * 2 ^ 30 then s.spanOwner a else none) := by
  conv => lhs; fun; fun; delta State.homeq
  generalize State.home s = home
  cases (if a < s.capacity * 2 ^ 30 then s.spanOwner a else none) with
  | none => exact rfl
  | some p => exact rfl

theorem State.homeq_of_owner {s : State} {a p : Nat} (inside : a < s.capacity * 2 ^ 30) (owner : s.spanOwner a = some p) :
    s.homeq a = (s.rg64Set Reg.LIN_HOMEQ a).rgSet Reg.LIN_HOMEQ_RES (homeWord (s.home p (a / 128)).1 (s.home p (a / 128)).2) := by
  rw [State.homeq_eq_homeShown, if_pos inside, owner, State.homeShown]

theorem exec_homeqLookup {r : Req} (noVf : ∀ q k, r ≠ .fn (.vf q k)) {s : State} (ready : atOnce s r) (addr : BitVec 48) :
    exec (.homeqLookup r addr) s = .next (s.homeq addr.toNat) := by
  refine congrArg Host.Outcome.next ((State.reqOrder_of_atOnce ready _ _).trans ?_)
  cases r with
  | firmware => rfl
  | fn f =>
    cases f with
    | pf q => rfl
    | vf q k => exact absurd rfl (noVf q k)

/-- Settles O32: what a PIN or UNPIN request answers follows from whether the lining is busy and whose region it names; the home
slice and set of an address fit the fields of LIN.HOMEQ_RES. -/
theorem pinsAndHomes : Obligations.PinsAndHomes := by
  unfold Obligations.PinsAndHomes
  intro f i s
  refine ⟨fun ready on idle mine => ⟨⟨_, exec_pin ready i, ?_⟩, ⟨_, exec_unpin ready i, ?_⟩⟩,
    fun ready on idle other => ⟨⟨_, exec_pin ready i, ?_⟩, ⟨_, exec_unpin ready i, ?_⟩⟩,
    fun ready on busy => ⟨⟨_, exec_pin ready i, ?_⟩, ⟨_, exec_unpin ready i, ?_⟩⟩,
    fun r addr p noVf ready inside owner => ⟨_, exec_homeqLookup noVf ready addr, ?_⟩⟩
  · rw [State.pinRequest_taken on idle mine]; exact ⟨rfl, rfl⟩
  · rw [State.pinRequest_taken on idle mine]; exact ⟨rfl, rfl⟩
  · rw [State.pinRequest_perm on idle other]; exact s.pinResult_told (by decide) (by decide)
  · rw [State.pinRequest_perm on idle other]; exact s.pinResult_told (by decide) (by decide)
  · rw [State.pinRequest_busy on busy]; exact s.pinResult_told (by decide) (by decide)
  · rw [State.pinRequest_busy on busy]; exact s.pinResult_told (by decide) (by decide)
  · obtain ⟨hsl, hst⟩ := s.home_lt p (addr.toNat / 128)
    obtain ⟨slice, die, valid, set⟩ := homeWord_fields hsl hst
    rw [State.homeq_of_owner inside owner]
    have here (v : Word) : ((s.rg64Set Reg.LIN_HOMEQ addr.toNat).rgSet Reg.LIN_HOMEQ_RES v).rg Reg.LIN_HOMEQ_RES = v :=
      rg_rgSet_same _ _ _
    refine ⟨?_, ?_, ?_, ?_, ?_, fun k hk => ?_, rfl⟩
    · rw [State.rf, here]; exact slice
    · rw [State.rf, here]; exact die
    · rw [State.rb, here]; exact valid
    · rw [State.rf, here]; exact set
    · rw [State.rg64, rg_rgSet_other _ _ (by decide), rg_rgSet_other _ _ (by decide), ← State.rg64, rg64_rg64Set_same,
        Nat.mod_eq_of_lt (lt_trans addr.isLt (by decide))]
    · simp only [List.mem_cons, List.not_mem_nil, or_false, not_or] at hk
      rw [rg_rgSet_other _ _ hk.2.2, rg_rg64Set_other _ _ hk.1 hk.2.1]

end Sys2Proof.Machine

/-! # Core domains, droops and dips -/

namespace Sys2Proof.Machine

/-! ## Sources past those of partitions and cores -/

theorem State.rb_raise_high (s : State) {src : Nat} (h : 128 ≤ src) :
    (s.raise src).rb (Reg.IRQ_RAW + 4 * (src / 32)) (src % 32) = true := by
  rw [State.raise_high s src h]
  exact rb_evSet_same s _ _ (Nat.mod_lt _ (by decide))

theorem State.raise_high_sameRegs (s : State) {src : Nat} (h : 128 ≤ src) :
    sameRegs [Reg.IRQ_RAW + 4 * (src / 32)] s (s.raise src) := by
  rw [State.raise_high s src h]
  exact sameRegs_evSet s _ _

theorem State.raise_high_sameButLog (s : State) {src : Nat} (h : 128 ≤ src) : s.sameButLog (s.raise src) := by
  rw [State.raise_high s src h]
  exact s.rawSet_sameButLog src

/-- A bit of PWR.EVT set and its source raised, behind a record. -/
def State.pwrNotice (s : State) (bit : Nat) : State := (s.pwrEvt bit).raise 140

theorem State.pwrNotice_sameButLog (s : State) (bit : Nat) : s.sameButLog (s.pwrNotice bit) :=
  State.sameButLog_trans (s.evSet_sameButLog Reg.PWR_EVT bit) (State.raise_high_sameButLog _ (by decide))

theorem State.rb_pwrNotice (s : State) {bit : Nat} (h : bit < 32) :
    (s.pwrNotice bit).rb Reg.PWR_EVT bit = true ∧ (s.pwrNotice bit).rb (Reg.IRQ_RAW + 16) 12 = true :=
  ⟨(sameRegs_rb (State.raise_high_sameRegs _ (by decide)) (by decide) bit).trans (rb_evSet_same s Reg.PWR_EVT bit h),
    (s.pwrEvt bit).rb_raise_high (src := 140) (by decide)⟩

theorem State.pwrNotice_sameRegs (s : State) (bit : Nat) : sameRegs [Reg.PWR_EVT, Reg.IRQ_RAW + 16] s (s.pwrNotice bit) :=
  sameRegs_trans (sameRegs_mono (sameRegs_evSet s Reg.PWR_EVT bit) (by simp))
    (sameRegs_mono (State.raise_high_sameRegs (src := 140) _ (by decide)) (by simp))

theorem State.supplyRec_sameButLog (s : State) (cause a b : Nat) (part : Option Nat) : s.sameButLog (s.supplyRec cause a b part) :=
  State.err_sameButLog ..

theorem State.sameButLog_nor {s t : State} (h : s.sameButLog t) : t.nor = s.nor := (congrArg State.nor h : _)
theorem State.sameButLog_parts {s t : State} (h : s.sameButLog t) : t.parts = s.parts := (congrArg State.parts h : _)

/-! ## Ramps (R403, R404) -/

/-- The clusters above their level, with what the sensors say of one. -/
def State.peakSeen (s : State) (d : Nat) (above : Bool) : State :=
  let rest := s.pwr.peaks.filter (· != d)
  { s with pwr := { s.pwr with peaks := if above then insertSorted d rest else rest } }

theorem execRampStart_eq (core : Fin 72) (above : Bool) (s : State) :
    let x := s.dom core.val
    let u := s.peakSeen (core.val / 6) above
    let slow := x.slow || (above && s.slowDue x)
    let need := if slow then 1 else 4
    execRampStart core above s = .next
      (if x.st ≠ .waiting ∨ (above ∧ !slow) ∨ u.unitsAhead core.val ∨ 32 < s.unitsUsed + need then u
       else ({ u with pwr := { u.pwr with queue := u.pwr.queue.filter (· != core.val) } } : State).domSet core.val
        { x with st := .ramping, units := need, began := s.now, ended := none }) := rfl

theorem State.unitsAhead_of_first {s : State} {p : Nat} (first : s.pwr.queue.takeWhile (· != p) = []) : s.unitsAhead p = false := by
  rw [State.unitsAhead, first]
  rfl

/-- A state that differs in the power manager only. -/
theorem exec_rampStart_ramps {core : Fin 72} {s : State} {above : Bool} (st : (s.dom core.val).st = .waiting)
    {need : Nat} (units : need = if (s.dom core.val).slow || (above && s.slowDue (s.dom core.val)) then 1 else 4)
    (room : s.unitsUsed + need ≤ 32)
    (may : above = true → ((s.dom core.val).slow || (above && s.slowDue (s.dom core.val))) = true)
    (first : s.pwr.queue.takeWhile (· != core.val) = []) :
    ∃ t, exec (.rampStart core above) s = .next t ∧
      t.dom core.val = { s.dom core.val with st := .ramping, units := need, began := s.now, ended := none } ∧
      t.pwr.queue = s.pwr.queue.filter (· != core.val) ∧ (∀ q, q ≠ core.val → t.dom q = s.dom q) ∧ { t with pwr := s.pwr } = s := by
  have turn : (s.peakSeen (core.val / 6) above).unitsAhead core.val = false := State.unitsAhead_of_first first
  have go : ¬((s.dom core.val).st ≠ .waiting ∨
      (above ∧ !((s.dom core.val).slow || (above && s.slowDue (s.dom core.val)))) ∨
      (s.peakSeen (core.val / 6) above).unitsAhead core.val ∨
      32 < s.unitsUsed + if (s.dom core.val).slow || (above && s.slowDue (s.dom core.val)) then 1 else 4) := by
    rintro (h | ⟨up, h⟩ | h | h)
    · exact h st
    · rw [may up] at h; cases h
    · rw [turn] at h; cases h
    · omega
  refine ⟨_, (execRampStart_eq core above s).trans (congrArg Host.Outcome.next (if_neg go)), ?_, rfl,
    fun q h => State.dom_domSet_other _ _ h, rfl⟩
  rw [State.dom_domSet_same, units]

theorem exec_rampStart_waits {core : Fin 72} {s : State} {above : Bool}
    (kept : 32 < s.unitsUsed + (if (s.dom core.val).slow || (above && s.slowDue (s.dom core.val)) then 1 else 4) ∨
      (above = true ∧ ((s.dom core.val).slow || (above && s.slowDue (s.dom core.val))) = false)) :
    ∃ t, exec (.rampStart core above) s = .next t ∧ t.dom core.val = s.dom core.val ∧ t.pwr.queue = s.pwr.queue ∧
      (∀ q, q ≠ core.val → t.dom q = s.dom q) ∧ { t with pwr := s.pwr } = s := by
  refine ⟨_, (execRampStart_eq core above s).trans (congrArg Host.Outcome.next (if_pos ?_)), rfl, rfl, fun _ _ => rfl, rfl⟩
  obtain full | ⟨up, quick⟩ := kept
  · exact .inr (.inr (.inr full))
  · exact .inr (.inl ⟨up, by rw [quick]; rfl⟩)

theorem exec_rampEnd_returns {core : Fin 72} {s : State} (st : (s.dom core.val).st = .ramping) (runs : (s.dom core.val).ended = none) :
    exec (.rampEnd core) s = .next (let u := s.at ((s.dom core.val).began + (if (s.dom core.val).units = 4 then 20000 else 200000))
      u.domSet core.val { s.dom core.val with units := 0, ended := some u.now }) :=
  congrArg Host.Outcome.next (if_neg (by simp [st, runs]))

/-! ## A domain comes up (R404) -/

theorem State.coreEmptied_nor (s : State) (c : Nat) : (s.coreEmptied c).nor = s.nor := by
  simp only [State.coreEmptied, State.panelReset, State.coreMap, State.coreSet_nor, State.forgetTickets]

theorem State.coreClear_nor (s : State) (c : Nat) : (s.coreClear c).nor = s.nor := by
  have wiped : ∀ u : State, (u.coreWipe c).nor = u.nor := fun u =>
    (congrArg State.nor (u.coreWipe_sameButRegs c)).trans (u.coreEmptied_nor c)
  rw [State.coreClear, wiped, s.dropTaken_sameButRegs c]

theorem State.coreClear_lin (s : State) (c : Nat) : { (s.coreClear c).lin with tickets := s.lin.tickets } = s.lin := by
  have lin : (s.dropTaken c (s.corePart c)).lin = s.lin := by rw [s.dropTaken_sameButRegs c]
  exact lin ▸ (s.dropTaken c (s.corePart c)).coreWipe_lin c

theorem State.servedCleared_kept (s : State) (p : Nat) : (s.servedCleared p).pwr = s.pwr ∧ (s.servedCleared p).nor = s.nor ∧
    (s.servedCleared p).hbm = s.hbm ∧ (s.servedCleared p).now = s.now ∧
    { (s.servedCleared p).lin with tickets := s.lin.tickets } = s.lin := by
  unfold State.servedCleared
  split
  · next l _ =>
    have rest := (s.coreClear_sheds l).rest
    exact ⟨s.coreClear_pwr l, s.coreClear_nor l, by rw [rest], by rw [rest], s.coreClear_lin l⟩
  · exact ⟨rfl, rfl, rfl, rfl, rfl⟩

theorem State.measureUp_thm (s : State) (p : Nat) : s.measureUp p = { s with thm := (s.measureUp p).thm } := by
  unfold State.measureUp
  split
  · split <;> rfl
  · rfl

/-- The domain of a core at its plan. -/
def State.upDom (s : State) (p : Nat) : Domain :=
  { st := .up, clk := s.ceilOf p (s.planOf p), ceil := s.ceilOf p (s.planOf p), volt := (s.planOf p).volt,
    phases := ((s.phasesOf p).map (2 ^ ·)).sum, upSince := s.now }

theorem exec_domainUp_ramped {core : Fin 72} {s : State} {e : Nat} (st : (s.dom core.val).st = .ramping)
    (ended : (s.dom core.val).ended = some e) :
    exec (.domainUp core) s = .next (let u := s.at (e + 2000)
      ((u.domSet core.val (u.upDom core.val)).servedCleared core.val).measureUp core.val) := by
  have run : exec (.domainUp core) s = execDomainUp core s := rfl
  rw [run, execDomainUp]
  simp only [st, ended]
  rfl

theorem State.domainUp_effect (u : State) (p : Nat) : let t := ((u.domSet p (u.upDom p)).servedCleared p).measureUp p
    t.now = u.now ∧ t.dom p = u.upDom p ∧ (∀ q, q ≠ p → t.dom q = u.dom q) ∧ t.nor = u.nor ∧ t.hbm = u.hbm ∧
      { t.lin with tickets := u.lin.tickets } = u.lin := by
  obtain ⟨pwr, nor, hbm, now, lin⟩ := (u.domSet p (u.upDom p)).servedCleared_kept p
  have thm := State.measureUp_thm ((u.domSet p (u.upDom p)).servedCleared p) p
  generalize (u.domSet p (u.upDom p)).servedCleared p = v at pwr nor hbm now lin thm ⊢
  have dom : (v.measureUp p).dom = (u.domSet p (u.upDom p)).dom := State.dom_congr (by rw [thm, pwr])
  refine ⟨?_, ?_, fun q h => ?_, ?_, ?_, ?_⟩
  · rw [thm]; exact now
  · rw [dom, State.dom_domSet_same]
  · rw [dom, State.dom_domSet_other _ _ h]
  · rw [thm]; exact nor
  · rw [thm]; exact hbm
  · rw [thm]; exact lin

/-! ## Failed phases (R397) -/

theorem any_phase_iff {ks : List Nat} {g : Nat} : ks.any (fun k => k / 8 == g) = true ↔ ∃ k ∈ ks, k / 8 = g := by
  simp

/-- What a failed phase of a domain leaves of it: `second` of its group or not. -/
def failedDom (x : Domain) (phases : Nat) (second : Bool) : Domain :=
  if second then { x with phases := phases, st := .stopped, units := 0 }
  else { x with phases := phases, ceil := x.ceil * 9 / 10, clk := min x.clk (x.ceil * 9 / 10) }

/-- The record of a failed phase in NOR. -/
def State.phaseNoted (s : State) (k : Nat) : State := { s with nor := { s.nor with phases := s.nor.phases ++ [k] } }

theorem exec_phaseFail_first {core : Fin 72} {group : Fin 3} {phase : Fin 8} {s : State}
    (on : (s.dom core.val).st = .up ∨ (s.dom core.val).st = .stopped ∨ (s.dom core.val).st = .ramping)
    (fresh : 8 * group.val + phase.val ∉ s.phasesOf core.val) :
    ∃ part, exec (.phaseFail core group phase) s = .next ((((s.domSet core.val (failedDom (s.dom core.val)
      (((s.phasesOf core.val ++ [8 * group.val + phase.val]).map (2 ^ ·)).sum)
      ((s.phasesOf core.val).any (fun k => k / 8 == group.val)))).phaseNoted (24 * core.val + (8 * group.val + phase.val))).supplyRec 2
        core.val (8 * group.val + phase.val) part).pwrNotice 1) := by
  have open_ : ¬(((s.dom core.val).st ≠ .up ∧ (s.dom core.val).st ≠ .stopped ∧ (s.dom core.val).st ≠ .ramping) ∨
      (s.phasesOf core.val).contains (8 * group.val + phase.val) = true) := by
    rintro (⟨up, stopped, ramping⟩ | known)
    · obtain h | h | h := on
      · exact up h
      · exact stopped h
      · exact ramping h
    · exact fresh (List.contains_iff_mem.mp known)
  exact ⟨_, congrArg Host.Outcome.next (if_neg open_)⟩

/-! ## Supply-suspect steps (R400, R401) -/

theorem mem_enabledParts {t : Pat} {p : Nat} : p ∈ t.enabledParts ↔ p < 16 ∧ t.enabled p = true := by
  simp [Pat.enabledParts]

theorem mem_insertSorted_self (x : Nat) : ∀ l : List Nat, x ∈ insertSorted x l
  | [] => .head _
  | y :: ys => by
    unfold insertSorted
    split
    · exact .head _
    · exact .tail _ (mem_insertSorted_self x ys)

/-- The warning of a rail reaches the running step of a partition on it. -/
def State.suspectAt (r : Nat) (u : State) (p : Nat) : State :=
  if (u.part p).running && u.onRail p r then u.partMap p (fun x => { x with supply := true }) else u

theorem State.suspectAt_parts (r : Nat) (u : State) (p : Nat) : u.suspectAt r p = { u with parts := (u.suspectAt r p).parts } := by
  unfold State.suspectAt
  split <;> rfl

theorem State.onRail_of_ptn {s t : State} (h : t.ptn = s.ptn) (p r : Nat) : t.onRail p r = s.onRail p r := by
  simp only [State.onRail, State.coresOf, h]

theorem State.foldl_suspectAt_parts (r : Nat) (ps : List Nat) (s : State) :
    ps.foldl (State.suspectAt r) s = { s with parts := (ps.foldl (State.suspectAt r) s).parts } := by
  induction ps generalizing s with
  | nil => rfl
  | cons p ps ih => rw [List.foldl_cons, ih, State.suspectAt_parts]

theorem State.part_suspectAt (r : Nat) (s : State) (p n : Nat) : (s.suspectAt r p).part n =
    if n = p ∧ (s.part p).running = true ∧ s.onRail p r = true then { s.part n with supply := true } else s.part n := by
  unfold State.suspectAt
  by_cases on : (s.part p).running = true ∧ s.onRail p r = true
  · rw [if_pos (by simp [on])]
    by_cases same : n = p
    · subst same
      rw [if_pos ⟨rfl, on⟩, State.part_partMap_same]
    · rw [if_neg (fun h => same h.1), State.part_partMap_other _ _ same]
  · rw [if_neg (by simpa using on), if_neg (fun h => on h.2)]

/-- A step that is suspect already stays so: it is enough that a partition is among those told. -/
theorem State.part_foldl_suspectAt (r : Nat) (ps : List Nat) (s : State) (n : Nat) : (ps.foldl (State.suspectAt r) s).part n =
    if n ∈ ps ∧ (s.part n).running = true ∧ s.onRail n r = true then { s.part n with supply := true } else s.part n := by
  induction ps generalizing s with
  | nil => simp
  | cons p ps ih =>
    have rail : (s.suspectAt r p).onRail n r = s.onRail n r := State.onRail_of_ptn (by rw [State.suspectAt_parts]) n r
    rw [List.foldl_cons, ih, rail, State.part_suspectAt]
    by_cases same : n = p
    · subst same
      by_cases on : (s.part n).running = true ∧ s.onRail n r = true
      · simp [on]
      · simp [on]
    · simp [same]

/-! ## Windows (R400) -/

/-- A rail below its warning level, and its suspect window open. -/
def State.windowOpen (s : State) (r : Nat) : State :=
  { s with pwr := { s.pwr with
    low := insertSorted r s.pwr.low
    windows := if s.pwr.windows.any (fun w => w.1 == r) then s.pwr.windows else s.pwr.windows ++ [(r, s.tickNo)] } }

theorem exec_warningTrip_opens {rail : Fin 17} {s : State} (high : s.pwr.low.contains rail.val = false) :
    exec (.warningTrip rail) s = .next (s.ptn.running.enabledParts.foldl (State.suspectAt rail.val) (s.windowOpen rail.val)) :=
  congrArg Host.Outcome.next (if_neg (by rw [high]; decide))

/-- A rail above its warning level again. -/
def State.railRisen (s : State) (r : Nat) : State := { s with pwr := { s.pwr with low := s.pwr.low.filter (· != r) } }

theorem exec_suspectWindowClose_risen {rail : Fin 17} {s : State} (closed : s.pwr.windows.find? (fun w => w.1 == rail.val) = none) :
    exec (.suspectWindowClose rail) s = .next (s.railRisen rail.val) := by
  have run : exec (.suspectWindowClose rail) s = execSuspectWindowClose rail s := rfl
  rw [run, execSuspectWindowClose]
  simp only [closed]
  rfl

/-- A rail above its warning level again, its window closed. -/
def State.windowShut (s : State) (r : Nat) : State :=
  { s with pwr := { s.pwr with low := s.pwr.low.filter (· != r), windows := s.pwr.windows.filter (fun w => w.1 != r) } }

theorem exec_suspectWindowClose_shut {rail : Fin 17} {s : State} {w : Nat × Nat}
    (found : s.pwr.windows.find? (fun w => w.1 == rail.val) = some w) :
    exec (.suspectWindowClose rail) s = .next ((s.windowShut rail.val).dipRec rail.val w.2) := by
  have run : exec (.suspectWindowClose rail) s = execSuspectWindowClose rail s := rfl
  rw [run, execSuspectWindowClose]
  simp only [found]
  rfl

/-- A dip counted, and the tick number of its trip shown, with the present one back in its place. -/
def State.dipCounted (s : State) (k now : Nat) : State :=
  ((s.rg64Set Reg.TICK_COUNT now).rAdd Reg.PWR_DIPS 31 0 1).rg64Set Reg.PWR_DIP_LAST k

theorem State.dipCounted_regs (s : State) (k now : Nat) :
    (s.dipCounted k now).rf Reg.PWR_DIPS 31 0 = (s.rf Reg.PWR_DIPS 31 0 + 1) % 2 ^ 32 ∧
      (s.dipCounted k now).rg64 Reg.PWR_DIP_LAST = k % 2 ^ 64 ∧ (s.dipCounted k now).tickNo = now % 2 ^ 64 := by
  unfold State.dipCounted
  refine ⟨?_, rg64_rg64Set_same _ _ _, ?_⟩
  · rw [State.rf, rg_rg64Set_other _ _ (by decide) (by decide), ← State.rf, rf_rAdd_same _ _ _ _ _ (by decide) (by decide), State.rf,
      rg_rg64Set_other _ _ (by decide) (by decide), ← State.rf]
  · have kept : ∀ u : State, ((u.rAdd Reg.PWR_DIPS 31 0 1).rg64Set Reg.PWR_DIP_LAST k).tickNo = u.tickNo := fun u =>
      State.rg64_of_rg ((rg_rg64Set_other _ _ (by decide) (by decide)).trans (rg_rAdd_other _ _ _ _ (by decide)))
        ((rg_rg64Set_other _ _ (by decide) (by decide)).trans (rg_rAdd_other _ _ _ _ (by decide)))
    rw [kept, State.tickNo, rg64_rg64Set_same]

theorem State.rg64Set_sameButLog (s : State) (k v : Nat) : s.sameButLog (s.rg64Set k v) :=
  State.sameButLog_trans (s.rgSet_sameButLog k _) (State.rgSet_sameButLog _ (k + 4) _)

theorem State.dipCounted_sameButLog (s : State) (k now : Nat) : s.sameButLog (s.dipCounted k now) :=
  State.sameButLog_trans (s.rg64Set_sameButLog _ _)
    (State.sameButLog_trans (State.rgSet_sameButLog _ _ _) (State.rg64Set_sameButLog _ _ _))

/-- The record of a dip, with the tick number of its trip. -/
def State.dipLogged (s : State) (r k : Nat) : State :=
  (s.rg64Set Reg.TICK_COUNT k).err wSupply (dipUnit r) none 0 (1 + 2 ^ 8 * (if r < 12 then r else 0xFF))

theorem State.dipRec_eq (s : State) (r k : Nat) : s.dipRec r k = ((s.dipLogged r k).dipCounted k s.tickNo).pwrNotice 0 := rfl

theorem State.dipLogged_sameRegs (s : State) (r k : Nat) :
    sameRegs (Reg.TICK_COUNT :: (Reg.TICK_COUNT + 4) :: recRegs 6) s (s.dipLogged r k) := by
  have set : sameRegs [Reg.TICK_COUNT, Reg.TICK_COUNT + 4] s (s.rg64Set Reg.TICK_COUNT k) := fun i h =>
    rg_rg64Set_other _ _ (fun e => h (by simp [e])) (fun e => h (by simp [e]))
  have logged : sameRegs (recRegs 6) (s.rg64Set Reg.TICK_COUNT k) (s.dipLogged r k) := State.logRec_sameRegs _ wSupply _ _ _ _ _
  exact sameRegs_trans (sameRegs_mono set (by simp)) (sameRegs_mono logged (by simp))

theorem State.tickNo_lt (s : State) : s.tickNo < 2 ^ 64 := by
  rw [State.tickNo, State.rg64]
  omega

theorem State.dipRec_effect (s : State) (r k : Nat) :
    (s.dipRec r k).pwr = s.pwr ∧ (s.dipRec r k).parts = s.parts ∧
      (s.dipRec r k).rf Reg.PWR_DIPS 31 0 = (s.rf Reg.PWR_DIPS 31 0 + 1) % 2 ^ 32 ∧
      (s.dipRec r k).rg64 Reg.PWR_DIP_LAST = k % 2 ^ 64 ∧ (s.dipRec r k).rb Reg.PWR_EVT 0 = true ∧
      (s.dipRec r k).rb (Reg.IRQ_RAW + 16) 12 = true ∧ (s.dipRec r k).tickNo = s.tickNo := by
  have logged : s.sameButLog (s.dipLogged r k) := State.sameButLog_trans (s.rg64Set_sameButLog _ _) (State.err_sameButLog ..)
  have dips : (s.dipLogged r k).rf Reg.PWR_DIPS 31 0 = s.rf Reg.PWR_DIPS 31 0 := sameRegs_rf (s.dipLogged_sameRegs r k) (by decide) 31 0
  obtain ⟨count, last, tick⟩ := (s.dipLogged r k).dipCounted_regs k s.tickNo
  have counted := (s.dipLogged r k).dipCounted_sameButLog k s.tickNo
  rw [State.dipRec_eq]
  generalize (s.dipLogged r k).dipCounted k s.tickNo = e at count last tick counted ⊢
  have kept := State.sameButLog_trans (State.sameButLog_trans logged counted) (e.pwrNotice_sameButLog 0)
  obtain ⟨evt, raw⟩ := e.rb_pwrNotice (bit := 0) (by decide)
  have noticed := e.pwrNotice_sameRegs 0
  refine ⟨State.sameButLog_pwr kept, State.sameButLog_parts kept, ?_, ?_, evt, raw, ?_⟩
  · rw [sameRegs_rf noticed (by decide), count, dips]
  · rw [State.rg64_of_rg (noticed _ (by decide)) (noticed _ (by decide)), last]
  · rw [State.tickNo, State.rg64_of_rg (noticed _ (by decide)) (noticed _ (by decide)), ← State.tickNo, tick,
      Nat.mod_eq_of_lt s.tickNo_lt]

/-- Settles O53: each command of a domain sets that domain as the chapter says; a failed phase and a dip leave their record and event;
a warning makes the running steps on its rail suspect. -/
theorem coreDomains : Obligations.CoreDomains := by
  unfold Obligations.CoreDomains
  intro core s
  refine ⟨fun above => fun st => ⟨fun room may first => exec_rampStart_ramps st rfl room may first, exec_rampStart_waits⟩,
    fun st runs => ⟨_, exec_rampEnd_returns st runs, rfl, State.dom_domSet_same .., fun q h => State.dom_domSet_other _ _ h, rfl⟩,
    fun e st ended => ⟨_, exec_domainUp_ramped st ended, ?_⟩, fun group phase => fun on fresh => ?_,
    fun up => ⟨_, congrArg Host.Outcome.next (if_pos up), State.dom_domSet_same .., fun q h => State.dom_domSet_other _ _ h, rfl⟩,
    fun droops => ⟨_, congrArg Host.Outcome.next (if_pos droops), State.dom_domSet_same .., fun q h => State.dom_domSet_other _ _ h, rfl⟩,
    fun rail => ⟨fun high => ⟨_, exec_warningTrip_opens high, ?_⟩, fun risen => ⟨_, exec_suspectWindowClose_risen risen, rfl, rfl⟩, fun w found => ⟨_, exec_suspectWindowClose_shut found, ?_⟩⟩⟩
  · obtain ⟨now, dom, other, nor, hbm, lin⟩ := (s.at (e + 2000)).domainUp_effect core.val
    generalize (((s.at (e + 2000)).domSet core.val ((s.at (e + 2000)).upDom core.val)).servedCleared core.val).measureUp core.val = t
      at now dom other nor hbm lin ⊢
    exact ⟨now, by rw [dom]; rfl, by rw [dom]; rfl, by rw [dom]; rfl, by rw [dom]; rfl, by rw [dom, now]; rfl, other, nor, hbm, lin⟩
  · obtain ⟨part, run⟩ := exec_phaseFail_first on fresh
    refine ⟨_, run, ?_⟩
    generalize failed : failedDom (s.dom core.val) _ _ = y
    have kept := State.sameButLog_trans (State.supplyRec_sameButLog
      ((s.domSet core.val y).phaseNoted (24 * core.val + (8 * group.val + phase.val))) 2 core.val (8 * group.val + phase.val) part)
      (State.pwrNotice_sameButLog _ 1)
    obtain ⟨evt, raw⟩ := State.rb_pwrNotice (((s.domSet core.val y).phaseNoted (24 * core.val + (8 * group.val + phase.val))).supplyRec 2
        core.val (8 * group.val + phase.val) part) (bit := 1) (by decide)
    have dom := State.dom_congr (State.sameButLog_pwr kept)
    have nor := State.sameButLog_nor kept
    refine ⟨fun second => ?_, fun first => ?_, nor, evt, raw, fun q h => ?_⟩
    · rw [dom, ← failed, failedDom, if_pos (any_phase_iff.mpr second)]
      exact State.dom_domSet_same ..
    · rw [dom, ← failed, failedDom, if_neg (fun h => first (any_phase_iff.mp h))]
      exact State.dom_domSet_same ..
    · rw [dom]
      exact State.dom_domSet_other _ _ h
  · have parts := State.part_foldl_suspectAt rail.val s.ptn.running.enabledParts (s.windowOpen rail.val)
    have rest := State.foldl_suspectAt_parts rail.val s.ptn.running.enabledParts (s.windowOpen rail.val)
    generalize s.ptn.running.enabledParts.foldl (State.suspectAt rail.val) (s.windowOpen rail.val) = t at parts rest ⊢
    have pwr : t.pwr = (s.windowOpen rail.val).pwr := by rw [rest]
    refine ⟨?_, fun shut => ?_, fun opened => ?_, fun n h16 on runs onRail => ?_, fun n off => ?_, ?_⟩
    · rw [pwr]
      exact mem_insertSorted_self _ _
    · rw [pwr]
      exact if_neg (by rw [shut]; decide)
    · rw [pwr]
      exact if_pos opened
    · rw [parts, if_pos ⟨mem_enabledParts.mpr ⟨h16, on⟩, runs, onRail⟩]
      rfl
    · rw [parts, if_neg]
      · rfl
      · rintro ⟨mem, runs, onRail⟩
        obtain off | off | off := off
        · rw [(mem_enabledParts.mp mem).2] at off; cases off
        · exact absurd (runs.symm.trans off) (by decide)
        · exact absurd (onRail.symm.trans off) (by decide)
    · rw [rest]
      rfl
  · obtain ⟨pwr, parts, dips, last, evt, raw, tick⟩ := (s.windowShut rail.val).dipRec_effect rail.val w.2
    generalize (s.windowShut rail.val).dipRec rail.val w.2 = t at pwr parts dips last evt raw tick ⊢
    exact ⟨by rw [pwr]; rfl, by rw [pwr]; rfl, dips, last, evt, raw, tick, parts⟩

end Sys2Proof.Machine

/-! # Alterations, measurements and plans (R417 to R423) -/

namespace Sys2Proof.Machine

/-! ## What polling an alteration may change -/

/-- Only the alteration, the power manager and THM.EVT differ, the log aside, and no bit of THM.EVT falls. -/
structure State.polled (s t : State) : Prop where
  rest : t = { s with regs := t.regs, setAt := t.setAt, pwr := t.pwr, thm := { s.thm with alt := t.thm.alt } }
  regs : sameRegs [Reg.THM_EVT] s t
  evt : ∀ i, i < 32 → s.rb Reg.THM_EVT i = true → t.rb Reg.THM_EVT i = true

theorem State.polled.refl (s : State) : s.polled s := ⟨rfl, fun _ _ => rfl, fun _ _ h => h⟩

theorem State.polled.trans {s t u : State} (h : s.polled t) (k : t.polled u) : s.polled u := by
  refine ⟨k.rest.trans ?_, sameRegs_trans h.regs k.regs, fun i hi on => k.evt i hi (h.evt i hi on)⟩
  rw [h.rest]

theorem State.polled_alt (s : State) (a : Option Alteration) : s.polled { s with thm := { s.thm with alt := a } } :=
  ⟨rfl, fun _ _ => rfl, fun _ _ h => h⟩

theorem State.polled_thmEvt (s : State) {i : Nat} (h : i < 32) : s.polled (s.thmEvt i) := by
  refine ⟨s.evSet_sameButEvents Reg.THM_EVT i, sameRegs_evSet s Reg.THM_EVT i, fun j hj on => ?_⟩
  by_cases same : j = i
  · subst same
    exact rb_evSet_same s Reg.THM_EVT j h
  · exact (rb_rbSet_bit s Reg.THM_EVT true h same).trans on

theorem State.powerAsk_pwr (s : State) (p : Nat) : s.powerAsk p = { s with pwr := (s.powerAsk p).pwr } := by
  rw [State.powerAsk_eq]
  split <;> rfl

/-- A power-up requested for an alteration. -/
theorem State.polled_asked (s : State) (p : Nat) (a : Option Alteration) :
    s.polled { s.powerAsk p with thm := { s.thm with alt := a } } := by
  rw [s.powerAsk_pwr p]
  exact ⟨rfl, fun _ _ => rfl, fun _ _ h => h⟩

/-- The end of an alteration. -/
theorem State.altNext_ends (s : State) (a : Alteration) :
    s.altNext a [] [] = ({ s with thm := { s.thm with alt := none } } : State).thmEvt 4 := rfl

theorem State.polled_altNext (s : State) (a : Alteration) (rest retry : List Nat) : s.polled (s.altNext a rest retry) := by
  unfold State.altNext
  split
  · exact (s.polled_alt none).trans (State.polled_thmEvt _ (by decide))
  · exact s.polled_alt _
  · exact s.polled_alt _

theorem State.polled_altPoll (n : Nat) (s : State) : s.polled (s.altPoll n) := by
  induction n generalizing s with
  | zero => exact .refl s
  | succ n ih =>
    rw [State.altPoll]
    split
    · exact .refl s
    · next a _ =>
      split
      · exact (s.polled_altNext a [] a.retry).trans (ih _)
      · next p rest _ =>
        dsimp only
        split
        · split
          · exact .refl s
          · exact (s.polled_altNext a rest _).trans (ih _)
        · split
          · exact .refl s
          · split
            · exact s.polled_alt _
            · split
              · exact s.polled_asked p _
              · exact .refl s

theorem State.polled_altGo (s : State) : s.polled s.altGo := by
  unfold State.altGo
  split
  · exact s.polled_altPoll _
  · exact .refl s

/-! ## The turn of a core (R418 to R420) -/

/-- The partition that a physical core serves. -/
def State.servedPart (s : State) (p : Nat) : Option Nat := (s.logicalOf p).bind s.corePart

/-- The core whose turn it is, while nothing is measured. -/
theorem State.altPoll_turn {s : State} {a : Alteration} {p : Nat} {rest : List Nat} (runs : s.thm.alt = some a)
    (queue : a.queue = p :: rest) (idle : a.measuring = none) (n : Nat) :
    s.altPoll (n + 1) =
      if (s.servedPart p).isSome ∨ s.coreLost p ∨ !s.measurable p then s
      else if (s.dom p).st = .up then { s with thm := { s.thm with alt := some { a with measuring := some s.now } } }
      else if (s.dom p).st = .unpowered then
        { s.powerAsk p with thm := { s.thm with alt := some { a with powered := true } } }
      else s := by
  rw [State.altPoll]
  simp only [runs, queue, idle]
  rfl

theorem State.altPoll_none {s : State} (runs : s.thm.alt = none) (n : Nat) : s.altPoll n = s := by
  cases n with
  | zero => rfl
  | succ n => rw [State.altPoll]; simp only [runs]

theorem State.altGo_none {s : State} (runs : s.thm.alt = none) : s.altGo = s := by
  simp only [State.altGo, runs]

theorem State.altGo_eq {s : State} {a : Alteration} (runs : s.thm.alt = some a) :
    s.altGo = s.altPoll (2 * (a.queue.length + a.retry.length) + 2) := by
  simp only [State.altGo, runs]

/-- What an alteration that starts with core `q` leaves. -/
def State.altStarted (s : State) (q : Nat) (rest : List Nat) (t : State) : Prop :=
  ((s.servedPart q ≠ none ∨ s.measurable q = false) → t.thm.alt = some { queue := q :: rest, since := t.now } ∧ t.pwr = s.pwr) ∧
  (s.servedPart q = none → s.measurable q = true → (s.dom q).st = .up →
    t.thm.alt = some { queue := q :: rest, since := t.now, measuring := some t.now } ∧ t.pwr = s.pwr) ∧
  (s.servedPart q = none → s.measurable q = true → (s.dom q).st = .unpowered → (t.dom q).st = .waiting ∧
    ((∀ k ∈ s.pwr.queue, (s.dom k).asked ≠ t.now) → t.pwr.queue = s.pwr.queue ++ [q])) ∧ t.nor = s.nor

/-- The queue of power requests takes a request at its end, unless one of its moment stands there behind. -/
theorem State.askAt_last {s : State} {q : Nat} {ks : List Nat} (last : ∀ k ∈ ks, (s.dom k).asked = s.now → k ≤ q) :
    s.askAt q ks = ks ++ [q] := by
  induction ks with
  | nil => rfl
  | cons k ks ih =>
    have behind : ¬((s.dom k).asked = s.now ∧ q < k) := fun h => absurd (last k (.head _) h.1) (by omega)
    rw [State.askAt, if_neg behind, ih (fun j hj => last j (.tail _ hj)), List.cons_append]

theorem State.powerAsk_last {s : State} {q : Nat} (off : (s.dom q).st = .unpowered) (able : s.coreLost q = false)
    (fresh : ∀ k ∈ s.pwr.queue, (s.dom k).asked ≠ s.now) : (s.powerAsk q).pwr.queue = s.pwr.queue ++ [q] := by
  rw [State.powerAsk_eq, if_neg (by simp [off, able])]
  refine State.askAt_last (s := s.domSet q (s.askedDom q)) (fun k hk asked => ?_)
  by_cases same : k = q
  · exact same.le
  · rw [State.dom_domSet_other _ _ same] at asked
    exact absurd asked (fresh k hk)

theorem State.altStart_eq (s : State) (cores : List Nat) : s.altStart cores =
    ({ s with thm := { s.thm with alt := some { queue := cores.filter (fun p => !s.coreLost p), since := s.now } } } : State).altGo := rfl

theorem State.altStart_started {s : State} {cores : List Nat} {q : Nat} {rest : List Nat}
    (todo : cores.filter (fun p => !s.coreLost p) = q :: rest) : s.altStarted q rest (s.altStart cores) := by
  have able : s.coreLost q = false := by
    have mem : q ∈ cores.filter (fun p => !s.coreLost p) := todo ▸ .head _
    simpa using (List.mem_filter.mp mem).2
  rw [State.altStart_eq, todo]
  let u : State := { s with thm := { s.thm with alt := some { queue := q :: rest, since := s.now } } }
  have go : u.altGo = u.altPoll (2 * ((q :: rest).length + 0) + 1 + 1) := State.altGo_eq rfl
  have turn := State.altPoll_turn (s := u) rfl rfl rfl (2 * ((q :: rest).length + 0) + 1)
  have same : u.servedPart q = s.servedPart q ∧ u.coreLost q = s.coreLost q ∧ u.measurable q = s.measurable q ∧
      u.dom q = s.dom q := ⟨rfl, rfl, rfl, rfl⟩
  obtain ⟨part, lost, may, dom⟩ := same
  rw [part, lost, may, dom] at turn
  refine ⟨fun waits => ?_, fun free ready up => ?_, fun free ready off => ?_, ?_⟩
  · rw [if_pos] at turn
    · rw [go, turn]
      exact ⟨rfl, rfl⟩
    · obtain owned | not := waits
      · exact .inl (Option.isSome_iff_ne_none.mpr owned)
      · exact .inr (.inr (by rw [not]; rfl))
  · rw [if_neg (by simp [free, able, ready]), if_pos up] at turn
    rw [go, turn]
    exact ⟨rfl, rfl⟩
  · rw [if_neg (by simp [free, able, ready]), if_neg (by rw [off]; decide), if_pos off] at turn
    rw [go, turn]
    refine ⟨State.dom_powerAsk_waiting (s := u) off able, fun fresh => ?_⟩
    have now : (u.powerAsk q).now = s.now := by rw [u.powerAsk_pwr q]
    exact State.powerAsk_last (s := u) off able (fun k hk => now ▸ fresh k hk)
  · rw [(State.polled_altGo u).rest]

theorem State.altStart_empty {s : State} {cores : List Nat} (todo : cores.filter (fun p => !s.coreLost p) = []) :
    (s.altStart cores).thm.alt = none ∧ (s.altStart cores).rb Reg.THM_EVT 4 = true := by
  let u : State := { s with thm := { s.thm with alt := some { queue := [], since := s.now } } }
  let v := ({ u with thm := { u.thm with alt := none } } : State).thmEvt 4
  have start : s.altStart cores = v := by
    rw [State.altStart_eq, todo]
    have go : u.altGo = u.altPoll (1 + 1) := State.altGo_eq rfl
    have next : u.altPoll (1 + 1) = v.altPoll 1 := rfl
    exact go.trans (next.trans (State.altPoll_none rfl 1))
  rw [start]
  exact ⟨rfl, rb_evSet_same _ Reg.THM_EVT 4 (by decide)⟩

/-! ## The commands of an alteration -/

/-- The three commands, with the cores that they name. -/
def State.altCmds (s : State) (f : Func) (c : BitVec 7) (part : Fin 16) : List (Instr × List Nat) :=
  [(.altAll f, List.range 72), (.altCore f c, if c.toNat < 72 then [c.toNat] else []), (.altPartition f part, s.physCoresOf part.val)]

theorem exec_altCmd {f : Func} {s : State} (ready : s.mustWait (portOf f) = false) {c : BitVec 7} {part : Fin 16} {i : Instr}
    {cores : List Nat} (mem : (i, cores) ∈ s.altCmds f c part) : exec i s = .next (s.altCmd f cores) := by
  simp only [State.altCmds, List.mem_cons, List.not_mem_nil, or_false, Prod.mk.injEq] at mem
  obtain ⟨rfl, rfl⟩ | ⟨rfl, rfl⟩ | ⟨rfl, rfl⟩ := mem
  · exact congrArg Host.Outcome.next (State.inOrder_of_ready ready ..)
  · exact congrArg Host.Outcome.next (State.inOrder_of_ready ready ..)
  · exact congrArg Host.Outcome.next (State.inOrder_of_ready ready ..)

section
variable {s : State} {f : Func} (pf : isPf f = true)
include pf

theorem State.altCmd_refused (runs : s.thm.alt ≠ none) (cores : List Nat) : s.altCmd f cores = s.rbSet Reg.THM_ALT_STAT 1 true := by
  simp [State.altCmd, pf, Option.isSome_iff_ne_none.mpr runs]

theorem State.altCmd_taken (runs : s.thm.alt = none) (cores : List Nat) :
    s.altCmd f cores = (s.rbSet Reg.THM_ALT_STAT 1 false).altStart cores := by
  simp [State.altCmd, pf, runs]

end

theorem onlyRegs_rbSet (s : State) (k i : Nat) (b : Bool) : onlyRegs [k] s (s.rbSet k i b) :=
  (s.rfSet_sameButEvents k i i (b2n b)).onlyRegs (sameRegs_rbSet s k i b)

theorem State.polled_altStart (s : State) (cores : List Nat) : s.polled (s.altStart cores) :=
  (s.polled_alt _).trans (State.polled_altGo _)

theorem State.altStart_now (s : State) (cores : List Nat) : (s.altStart cores).now = s.now := by
  rw [(s.polled_altStart cores).rest]

/-! ## The automatic start -/

/-- The time of an automatic start has come. -/
def State.startDue (s : State) (due : Nat) : State := { s.at due with thm := { s.thm with altFrom := some due } }

/-- The cores of an automatic start: all but those of partitions in HOLD. -/
def State.freeToAlter (s : State) : List Nat :=
  (List.range 72).filter (fun p => !(((List.range 16).filter (fun n => s.rb Reg.THM_ALT_CFG (16 + n))).map
    s.physCoresOf).flatten.contains p)

theorem exec_alterationStart_due {s : State} {from_ : Nat} (since : s.thm.altFrom = some from_) (period : s.rf Reg.THM_ALT_CFG 7 0 ≠ 0) :
    let u := s.startDue (from_ + s.rf Reg.THM_ALT_CFG 7 0 * 3600000000000)
    exec .alterationStart s = .next (if s.thm.alt.isSome then u else u.altStart s.freeToAlter) := by
  have run : exec .alterationStart s = execAlterationStart s := rfl
  rw [run, execAlterationStart]
  simp only [since]
  exact congrArg Host.Outcome.next (if_neg period)

/-! ## The end of a measurement -/

/-- The plan of a core recorded. -/
def State.planNoted (s : State) (p : Nat) (x : Plan) : State :=
  ({ s with nor := { s.nor with plans := mput s.nor.plans p x } } : State).domSet p { s.dom p with plan := some x }

/-- A core whose plan falls below 700 MHz is due to be fenced. -/
def State.agedNoted (s : State) (p : Nat) : State :=
  { s with pwr := { s.pwr with aged := insertSorted p (s.pwr.aged.filter (· != p)) } }

theorem State.planSet_eq (s : State) (p : Nat) (x : Plan) : s.planSet p x =
    (let u := if x.ceil < 48 then (s.planNoted p x).markRetire p x.ceil else s.planNoted p x
     if x.ceil < 28 then u.agedNoted p else u) := rfl

theorem State.sameButLog_now {s t : State} (h : s.sameButLog t) : t.now = s.now := (congrArg State.now h : _)

theorem State.thermNotice_sameButLog (s : State) (cause a b bit : Nat) (part : Option Nat) :
    s.sameButLog (((s.thermRec cause a b part).thmEvt bit).raise 133) :=
  State.sameButLog_trans (State.err_sameButLog ..)
    (State.sameButLog_trans (State.evSet_sameButLog _ Reg.THM_EVT bit) (State.raise_high_sameButLog _ (by decide)))

theorem State.markRetire_marks (s : State) (p c : Nat) : let t := s.markRetire p c
    p ∈ t.nor.marked ∧ { t.nor with marked := s.nor.marked } = s.nor ∧ t.pwr = s.pwr ∧ t.thm = s.thm ∧ t.now = s.now := by
  unfold State.markRetire
  split
  · next known => exact ⟨List.contains_iff_mem.mp known, rfl, rfl, rfl, rfl⟩
  · let u : State := { s with nor := { s.nor with marked := insertSorted p s.nor.marked } }
    have kept := u.thermNotice_sameButLog 6 p c 5 ((u.logicalOf p).bind u.corePart)
    have nor := State.sameButLog_nor kept
    have pwr := State.sameButLog_pwr kept
    have thm := State.sameButLog_thm kept
    have now := State.sameButLog_now kept
    dsimp only
    generalize ((u.thermRec 6 p c ((u.logicalOf p).bind u.corePart)).thmEvt 5).raise 133 = v at nor pwr thm now
    have staged : v.stageRetires.nor = v.nor ∧ v.stageRetires.pwr = v.pwr ∧ v.stageRetires.thm = v.thm ∧ v.stageRetires.now = v.now :=
      ⟨rfl, rfl, rfl, rfl⟩
    obtain ⟨norV, pwrV, thmV, nowV⟩ := staged
    rw [norV, pwrV, thmV, nowV, nor, pwr, thm, now]
    exact ⟨mem_insertSorted_self p _, rfl, rfl, rfl, rfl⟩

/-- What the plan of a measured core leaves. -/
theorem State.planSet_effect (s : State) (p : Nat) (x : Plan) : let t := s.planSet p x
    mfind t.nor.plans p = some x ∧ t.nor.measured = s.nor.measured ∧ t.dom p = { s.dom p with plan := some x } ∧ t.thm = s.thm ∧
      t.now = s.now ∧ (x.ceil < 28 → p ∈ t.pwr.aged) ∧ (x.ceil < 48 → p ∈ t.nor.marked) ∧
      (48 ≤ x.ceil → t.nor.marked = s.nor.marked ∧ t.pwr.aged = s.pwr.aged) := by
  have plan : mfind (s.planNoted p x).nor.plans p = some x := mfind_mput_same ..
  have dom : (s.planNoted p x).dom p = { s.dom p with plan := some x } := State.dom_domSet_same ..
  rw [State.planSet_eq]
  dsimp only
  by_cases low : x.ceil < 48
  · obtain ⟨marked, nor, pwr, thm, now⟩ := (s.planNoted p x).markRetire_marks p x.ceil
    rw [if_pos low]
    generalize (s.planNoted p x).markRetire p x.ceil = u at marked nor pwr thm now ⊢
    have plans : u.nor.plans = (s.planNoted p x).nor.plans := (congrArg Nor.plans nor :)
    have measured : u.nor.measured = s.nor.measured := (congrArg Nor.measured nor :)
    have domU : u.dom p = { s.dom p with plan := some x } := by rw [State.dom_congr pwr, dom]
    rw [← plans] at plan
    by_cases lower : x.ceil < 28
    · rw [if_pos lower]
      exact ⟨plan, measured, domU, thm, now, fun _ => mem_insertSorted_self p _, fun _ => marked, fun h => by omega⟩
    · rw [if_neg lower]
      exact ⟨plan, measured, domU, thm, now, fun h => absurd h lower, fun _ => marked, fun h => by omega⟩
  · rw [if_neg low, if_neg (by omega)]
    exact ⟨plan, rfl, dom, rfl, rfl, fun h => by omega, fun h => absurd h low, fun _ => ⟨rfl, rfl⟩⟩

/-- A core measured: it is no longer stale, and the time of its measurement is kept. -/
def State.measuredNoted (s : State) (p : Nat) : State :=
  { s with thm := { s.thm with stale := s.thm.stale.filter (· != p) }
           nor := { s.nor with measured := mput s.nor.measured p (mget s.nor.measured p [] ++ [s.now]) } }

/-- A core passed over is stale. -/
def State.staleNoted (s : State) (p : Nat) : State :=
  { s with thm := { s.thm with stale := insertSorted p (s.thm.stale.filter (· != p)) } }

/-- The alteration ended. -/
def State.altEnded (s : State) : State := ({ s with thm := { s.thm with alt := none } } : State).thmEvt 4

theorem State.polled_altEnded (s : State) : s.polled s.altEnded := (s.polled_alt none).trans (State.polled_thmEvt _ (by decide))

theorem State.rb_altEnded (s : State) : s.altEnded.rb Reg.THM_EVT 4 = true := rb_evSet_same _ Reg.THM_EVT 4 (by decide)

theorem State.measured_effect (s : State) (p : Nat) : let t := ((s.rAdd Reg.THM_ALT_STAT 31 16 1).measuredNoted p).altEnded
    t.now = s.now ∧ t.nor = { s.nor with measured := mput s.nor.measured p (mget s.nor.measured p [] ++ [s.now]) } ∧ t.pwr = s.pwr ∧
      t.thm.alt = none ∧ p ∉ t.thm.stale ∧ t.rb Reg.THM_EVT 4 = true := by
  have kept : (s.rAdd Reg.THM_ALT_STAT 31 16 1).now = s.now ∧ (s.rAdd Reg.THM_ALT_STAT 31 16 1).nor = s.nor ∧
    (s.rAdd Reg.THM_ALT_STAT 31 16 1).pwr = s.pwr := ⟨rfl, rfl, rfl⟩
  generalize s.rAdd Reg.THM_ALT_STAT 31 16 1 = v at kept ⊢
  obtain ⟨now, nor, pwr⟩ := kept
  rw [← now, ← nor, ← pwr]
  exact ⟨rfl, rfl, rfl, rfl, fun mem => absurd (List.mem_filter.mp mem).2 (by simp), (v.measuredNoted p).rb_altEnded⟩

theorem State.skipped_effect (s : State) (p : Nat) : let t := ((s.thmEvt 6).staleNoted p).altEnded
    t.now = s.now ∧ p ∈ t.thm.stale ∧ t.rb Reg.THM_EVT 6 = true ∧ t.thm.alt = none ∧ t.nor = s.nor ∧ t.pwr = s.pwr := by
  have event : (s.thmEvt 6).rb Reg.THM_EVT 6 = true := rb_evSet_same s Reg.THM_EVT 6 (by decide)
  have kept : (s.thmEvt 6).now = s.now ∧ (s.thmEvt 6).nor = s.nor ∧ (s.thmEvt 6).pwr = s.pwr := ⟨rfl, rfl, rfl⟩
  generalize s.thmEvt 6 = v at event kept ⊢
  obtain ⟨now, nor, pwr⟩ := kept
  exact ⟨now, mem_insertSorted_self _ _, (v.staleNoted p).polled_altEnded.evt 6 (by decide) event, rfl, nor, pwr⟩

theorem State.altOff_unpowered (s : State) {a : Alteration} (off : a.powered = false) (p : Nat) : s.altOff a p = s := by
  simp [State.altOff, off]

/-- The last core of an alteration ends it. -/
theorem State.altGo_altNext_last (s : State) {a : Alteration} (off : a.powered = false) (p : Nat) :
    ((s.altOff a p).altNext a [] []).altGo = s.altEnded := by
  rw [State.altOff_unpowered s off p, State.altNext_ends]
  exact State.altGo_none rfl

section
variable {core : Fin 72} {s : State} {a : Alteration} (runs : s.thm.alt = some a) (queue : a.queue = [core.val])
  (retry : a.retry = []) (off : a.powered = false)
include runs queue retry

/-- A measured core that lost its power, and does not wait for it, begins its turn anew. -/
theorem exec_measurementDone_lost {u : Nat} (measures : a.measuring = some u) (need : List Nat)
    (lost : (s.dom core.val).st ≠ .up) (busy : (s.dom core.val).st ≠ .unpowered) :
    exec (.measurementDone core need) s =
      .next { s with thm := { s.thm with alt := some { queue := [core.val], since := s.now } } } := by
  have run : exec (.measurementDone core need) s = execMeasurementDone core need s := rfl
  let v : State := { s with thm := { s.thm with alt := some { queue := [core.val], since := s.now } } }
  have again : v.altPoll 3 = v := by
    have turn := State.altPoll_turn (s := v) (p := core.val) (rest := []) rfl rfl rfl 2
    rw [turn]
    split
    · rfl
    · exact (if_neg (show (v.dom core.val).st ≠ .up from lost)).trans (if_neg (show (v.dom core.val).st ≠ .unpowered from busy))
  have poll : s.altPoll 4 = v.altPoll 3 := by
    rw [State.altPoll]
    simp only [runs, queue, retry, measures, Option.isSome_some, if_true, if_neg lost]
    rfl
  have go : s.altGo = v := by
    rw [State.altGo_eq runs, queue, retry]
    exact poll.trans again
  rw [run, execMeasurementDone]
  simp only [runs, measures, queue]
  exact congrArg Host.Outcome.next ((if_neg (by simp)).trans ((if_pos lost).trans go))

include off

theorem exec_measurementDone_planned {u : Nat} (measures : a.measuring = some u) (need : List Nat)
    (up : (s.dom core.val).st = .up) :
    exec (.measurementDone core need) s = .next (((((s.at (u + 60000)).planSet core.val
      (planAfter (s.planOf core.val) need (s.f0 core.val) (5 * s.v0 core.val) (s.dom core.val).phases)).rAdd
        Reg.THM_ALT_STAT 31 16 1).measuredNoted core.val).altEnded) := by
  have run : exec (.measurementDone core need) s = execMeasurementDone core need s := rfl
  rw [run, execMeasurementDone]
  simp only [runs, measures, queue]
  refine congrArg Host.Outcome.next ((if_neg (by simp)).trans ((if_neg (by simp [up])).trans ?_))
  rw [retry]
  exact State.altGo_altNext_last _ off _

theorem exec_measurementSkip_stale (idle : a.measuring = none) :
    exec (.measurementSkip core) s = .next ((((s.at (a.since + 3600000000000)).thmEvt 6).staleNoted core.val).altEnded) := by
  have run : exec (.measurementSkip core) s = execMeasurementSkip core s := rfl
  rw [run, execMeasurementSkip]
  simp only [runs, idle, queue]
  refine congrArg Host.Outcome.next ((if_neg (by simp)).trans ?_)
  rw [retry]
  exact State.altGo_altNext_last _ off _

end

/-- Settles O55: a start polls the first core once, which waits, is measured or powered up; the measurement of the last core plans it
and ends the alteration. -/
theorem alterations : Obligations.Alterations := by
  unfold Obligations.Alterations
  intro f c part s
  refine ⟨fun i cores mem ready pf => ⟨fun runs => ?_, fun q rest idle todo => ?_, fun idle todo => ?_⟩,
    fun from_ q rest => fun since period => ⟨fun idle todo => ?_, fun runs => ?_⟩,
    fun core a u need => fun runs queue retry off => ⟨fun measures lost busy => ?_, fun measures up => ?_, fun idle => ?_⟩⟩
  · rw [exec_altCmd ready mem, State.altCmd_refused pf runs]
    exact ⟨_, rfl, rb_rbSet_same _ _ _ _ (by decide), onlyRegs_rbSet ..⟩
  · rw [exec_altCmd ready mem, State.altCmd_taken pf idle]
    have polled := (s.rbSet Reg.THM_ALT_STAT 1 false).polled_altStart cores
    exact ⟨_, rfl, (sameRegs_rb polled.regs (by decide) 1).trans (rb_rbSet_same _ _ _ _ (by decide)), State.altStart_now _ _,
      State.altStart_started (s := s.rbSet Reg.THM_ALT_STAT 1 false) todo⟩
  · rw [exec_altCmd ready mem, State.altCmd_taken pf idle]
    exact ⟨_, rfl, State.altStart_empty (s := s.rbSet Reg.THM_ALT_STAT 1 false) todo⟩
  · refine ⟨_, exec_alterationStart_due since period, ?_⟩
    rw [if_neg (by simp [idle])]
    have polled := (s.startDue (from_ + s.rf Reg.THM_ALT_CFG 7 0 * 3600000000000)).polled_altStart s.freeToAlter
    refine ⟨State.altStart_now _ _, by rw [polled.rest]; rfl, State.altStart_started (s := s.startDue _) todo⟩
  · refine ⟨_, exec_alterationStart_due since period, ?_⟩
    rw [if_pos (Option.isSome_iff_ne_none.mpr runs)]
    exact ⟨rfl, rfl, rfl⟩
  · exact ⟨_, exec_measurementDone_lost runs queue retry measures need lost busy, rfl, rfl⟩
  · refine ⟨_, exec_measurementDone_planned runs queue retry off measures need up, ?_⟩
    obtain ⟨plan, measured, dom, thm, now, aged, marked, high⟩ := (s.at (u + 60000)).planSet_effect core.val
      (planAfter (s.planOf core.val) need (s.f0 core.val) (5 * s.v0 core.val) (s.dom core.val).phases)
    generalize (s.at (u + 60000)).planSet core.val
      (planAfter (s.planOf core.val) need (s.f0 core.val) (5 * s.v0 core.val) (s.dom core.val).phases) = v
      at plan measured dom thm now aged marked high ⊢
    obtain ⟨nowEnd, norEnd, pwrEnd, alt, stale, event⟩ := v.measured_effect core.val
    generalize ((v.rAdd Reg.THM_ALT_STAT 31 16 1).measuredNoted core.val).altEnded = t at nowEnd norEnd pwrEnd alt stale event ⊢
    rw [State.dom_congr pwrEnd, dom, norEnd, nowEnd, pwrEnd]
    refine ⟨now, plan, rfl, rfl, alt, stale, event, aged, ?_, marked, high⟩
    exact (mget_mput_same ..).trans (congrArg (fun m => mget m core.val [] ++ [v.now]) measured)
  · obtain ⟨now, stale, event, alt, nor, pwr⟩ := (s.at (a.since + 3600000000000)).skipped_effect core.val
    exact ⟨_, exec_measurementSkip_stale runs queue retry off idle, now, stale, event, alt, nor, pwr⟩

end Sys2Proof.Machine

/-! # Samples of the dies, trips and the shutdown record (R406 to R416) -/

namespace Sys2Proof.Machine

/-! ## Sensors that agree -/

/-- The sensors beside sensor `i` of a grid. -/
def gridBeside (rows cols i : Nat) : List Nat :=
  (if 0 < i / cols then [i - cols] else []) ++ (if 0 < i % cols then [i - 1] else []) ++
    (if i % cols + 1 < cols then [i + 1] else []) ++ (if i / cols + 1 < rows then [i + cols] else [])

theorem neighbours_eq (d i : Nat) : neighbours d i = gridBeside (sensorGrid d).1 (sensorGrid d).2 i := rfl

theorem gridBeside_inside : (∀ i < 32, gridBeside 4 8 i ≠ [] ∧ ∀ k ∈ gridBeside 4 8 i, k < 32) ∧
    (∀ i < 24, gridBeside 4 6 i ≠ [] ∧ ∀ k ∈ gridBeside 4 6 i, k < 24) ∧
    (∀ i < 4, gridBeside 2 2 i ≠ [] ∧ ∀ k ∈ gridBeside 2 2 i, k < 4) := by decide

/-- How many sensors a die has. -/
def sensors (d : Nat) : Nat := (sensorGrid d).1 * (sensorGrid d).2

theorem neighbours_inside {d i : Nat} (h : i < sensors d) : neighbours d i ≠ [] ∧ ∀ k ∈ neighbours d i, k < sensors d := by
  obtain ⟨wide, middle, small⟩ := gridBeside_inside
  rw [neighbours_eq]
  unfold sensors at *
  by_cases compute : d < 12
  · have grid : sensorGrid d = (4, 8) := if_pos compute
    rw [grid] at h ⊢
    exact wide i h
  · by_cases lining : d < 18
    · have grid : sensorGrid d = (4, 6) := (if_neg compute).trans (if_pos lining)
      rw [grid] at h ⊢
      exact middle i h
    · have grid : sensorGrid d = (2, 2) := (if_neg compute).trans (if_neg lining)
      rw [grid] at h ⊢
      exact small i h

theorem sensors_pos (d : Nat) : 0 < sensors d := by
  unfold sensors sensorGrid
  split
  · decide
  · split <;> decide

theorem insertInt_replicate (g : Int) (n : Nat) : insertInt g (List.replicate n g) = List.replicate (n + 1) g := by
  cases n with
  | zero => rfl
  | succ n => simp [List.replicate_succ, insertInt]

theorem foldl_insertInt_replicate (g : Int) (n m : Nat) :
    (List.replicate n g).foldl (fun a x => insertInt x a) (List.replicate m g) = List.replicate (m + n) g := by
  induction n generalizing m with
  | zero => rfl
  | succ n ih => rw [List.replicate_succ, List.foldl_cons, insertInt_replicate, ih, Nat.add_right_comm, Nat.add_assoc]

theorem getD_replicate {α : Type} {n i : Nat} (h : i < n) (x d : α) : (List.replicate n x).getD i d = x := by
  simp [List.getD_eq_getElem?_getD, h]

/-- The median of readings that agree is what they read. -/
theorem median2_replicate (g : Int) {n : Nat} (h : 0 < n) : median2 (List.replicate n g) = 2 * g := by
  have sorted : (List.replicate n g).foldl (fun a x => insertInt x a) [] = List.replicate n g := by
    simpa using foldl_insertInt_replicate g n 0
  rw [median2, sorted]
  rw [List.length_replicate, getD_replicate (by omega), getD_replicate (by omega)]
  omega

theorem around_replicate {d i : Nat} (g : Int) (h : i < sensors d) : around d (List.replicate (sensors d) g) i = 2 * g := by
  obtain ⟨some_, inside⟩ := neighbours_inside h
  have all : (neighbours d i).map (fun k => (List.replicate (sensors d) g).getD k 0) = List.replicate (neighbours d i).length g := by
    rw [List.eq_replicate_iff]
    refine ⟨List.length_map .., fun x hx => ?_⟩
    obtain ⟨k, hk, rfl⟩ := List.mem_map.mp hx
    exact getD_replicate (inside k hk) g 0
  rw [around, all, median2_replicate g (List.length_pos_iff.mpr some_)]

theorem foldl_max_replicate (g : Int) (n : Nat) : (List.replicate n g).foldl max g = g := by
  induction n with
  | zero => rfl
  | succ n ih => rw [List.replicate_succ, List.foldl_cons, max_self, ih]

/-- The own value of a die whose sensors agree. -/
theorem DieMon.ownValue_replicate {x : DieMon} {d : Nat} {g : Int} (temps : x.temps = List.replicate (sensors d) g)
    (sound : x.suspects = []) : x.ownValue d (sensors d) = g := by
  have all : (List.range (sensors d)).map (x.estimate d) = List.replicate (sensors d) g := by
    rw [List.eq_replicate_iff]
    refine ⟨by simp, fun y hy => ?_⟩
    obtain ⟨i, hi, rfl⟩ := List.mem_map.mp hy
    have known : mfind x.suspects i = none := by rw [sound]; rfl
    simp only [DieMon.estimate, known, temps]
    exact getD_replicate (List.mem_range.mp hi) g 0
  rw [DieMon.ownValue, sound, if_neg (by simp), all]
  obtain ⟨n, hn⟩ := Nat.exists_eq_succ_of_ne_zero (sensors_pos d).ne'
  rw [hn, List.replicate_succ]
  exact foldl_max_replicate g n

/-! ## A sample judged sensor by sensor -/

/-- Only the counts of deviations and the offsets of die `d` differ. -/
structure State.judged (d : Nat) (s t : State) : Prop where
  rest : t = { s with thm := { s.thm with dies := t.thm.dies } }
  other : ∀ k, k ≠ d → t.die k = s.die k
  die : t.die d = { s.die d with devs := (t.die d).devs, offs := (t.die d).offs }

theorem State.judged.refl (d : Nat) (s : State) : s.judged d s := ⟨rfl, fun _ _ => rfl, rfl⟩

theorem State.judged.trans {d : Nat} {s t u : State} (h : s.judged d t) (k : t.judged d u) : s.judged d u := by
  refine ⟨k.rest.trans ?_, fun i hi => (k.other i hi).trans (h.other i hi), k.die.trans ?_⟩
  · rw [h.rest]
  · rw [h.die]

/-- A sensor that agrees with those beside it is not counted against. -/
theorem State.judged_judgeSensor {s : State} {d i : Nat} {g : Int} (inside : i < sensors d)
    (temps : (s.die d).temps = List.replicate (sensors d) g) (sound : (s.die d).suspects = []) : s.judged d (s.judgeSensor d i) := by
  have fine : mhas (s.die d).suspects i = false := by rw [sound]; rfl
  have level : 2 * (s.die d).temps.getD i 0 - around d (s.die d).temps i = 0 := by
    rw [temps, getD_replicate inside, around_replicate g inside, sub_self]
  have run : s.judgeSensor d i = s.dieSet d { s.die d with
      devs := mset (s.die d).devs i 0 0, offs := mput (s.die d).offs i ((0 :: mget (s.die d).offs i []).take 1024) } := by
    unfold State.judgeSensor
    simp only [fine, level]
    rfl
  rw [run]
  exact ⟨rfl, fun k hk => State.die_dieSet_other _ _ hk, by rw [State.die_dieSet_same]⟩

theorem State.judged_sample {d : Nat} {g : Int} (is : List Nat) (inside : ∀ i ∈ is, i < sensors d) {s : State}
    (temps : (s.die d).temps = List.replicate (sensors d) g) (sound : (s.die d).suspects = []) :
    s.judged d (is.foldl (fun u i => u.judgeSensor d i) s) := by
  induction is generalizing s with
  | nil => exact .refl d s
  | cons i is ih =>
    have first := State.judged_judgeSensor (inside i (.head _)) temps sound
    refine first.trans (ih (fun k hk => inside k (.tail _ hk)) ?_ ?_)
    · rw [first.die]; exact temps
    · rw [first.die]; exact sound

/-! ## The state of a die (Table 18.2) -/

/-- A die as its governing temperature leaves it, a shutdown aside. -/
def judgedDie (x : DieMon) : DieMon :=
  { x with
    hot := if 115 ≤ x.govern then x.hot + 1 else 0
    cool := if 100 ≤ x.govern then 0 else x.cool + 1
    fast := decide (100 ≤ x.govern) || (x.fast && decide ((if 100 ≤ x.govern then 0 else x.cool + 1) < 10))
    st := dieNext x.st x.govern
    level := if dieNext x.st x.govern = x.st then x.level else if dieNext x.st x.govern = .throttle then 2 else 0 }

/-- The notice of a change of state. -/
def State.dieNotice (s : State) (d : Nat) (old st : DieState) (g : Int) : State :=
  if st = old then s
  else match st with
    | .warn => ((s.thermRec 1 d (g % 256).toNat none).thmEvt 0).raise 133
    | .throttle => ((s.thermRec 2 d (g % 256).toNat none).thmEvt 1).raise 133
    | _ => s

theorem State.judgeDie_eq (s : State) (d : Nat) : s.judgeDie d =
    (let u := (s.dieSet d (judgedDie (s.die d))).dieNotice d (s.die d).st (dieNext (s.die d).st (s.die d).govern) (s.die d).govern
     if 2 ≤ (judgedDie (s.die d)).hot ∧ (s.die d).st ≠ .shutdown then u.shutDown d else u) := rfl

theorem State.thermNotice_sameRegs (s : State) (cause a b bit : Nat) (part : Option Nat) :
    sameRegs (Reg.THM_EVT :: recRegs 6) s (((s.thermRec cause a b part).thmEvt bit).raise 133) :=
  sameRegs_trans (sameRegs_mono (State.thermRec_sameRegs _ _ _ _ _) (by simp))
    (sameRegs_trans (sameRegs_mono (sameRegs_evSet _ Reg.THM_EVT bit) (by simp))
      (sameRegs_mono (State.raise_high_sameRegs _ (by decide)) (by simp [recRegs])))

theorem State.rb_thermNotice (s : State) (cause a b : Nat) {bit : Nat} (h : bit < 32) (part : Option Nat) :
    (((s.thermRec cause a b part).thmEvt bit).raise 133).rb Reg.THM_EVT bit = true :=
  (sameRegs_rb (State.raise_high_sameRegs _ (by decide)) (by decide) bit).trans (rb_evSet_same _ Reg.THM_EVT bit h)

theorem State.dieNotice_kept (s : State) (d : Nat) (old st : DieState) (g : Int) :
    s.sameButLog (s.dieNotice d old st g) ∧ sameRegs (Reg.THM_EVT :: recRegs 6) s (s.dieNotice d old st g) := by
  unfold State.dieNotice
  split
  · exact ⟨s.sameButLog_rfl, fun _ _ => rfl⟩
  · split
    · exact ⟨s.thermNotice_sameButLog .., s.thermNotice_sameRegs _ _ _ _ _⟩
    · exact ⟨s.thermNotice_sameButLog .., s.thermNotice_sameRegs _ _ _ _ _⟩
    · exact ⟨s.sameButLog_rfl, fun _ _ => rfl⟩

theorem State.dieNotice_warn (s : State) (d : Nat) {old : DieState} (h : .warn ≠ old) (g : Int) :
    (s.dieNotice d old .warn g).rb Reg.THM_EVT 0 = true := by
  rw [State.dieNotice, if_neg h]
  exact s.rb_thermNotice 1 d _ (by decide) none

theorem State.dieNotice_throttle (s : State) (d : Nat) {old : DieState} (h : .throttle ≠ old) (g : Int) :
    (s.dieNotice d old .throttle g).rb Reg.THM_EVT 1 = true := by
  rw [State.dieNotice, if_neg h]
  exact s.rb_thermNotice 2 d _ (by decide) none

theorem State.die_congr {s t : State} (thm : t.thm = s.thm) : t.die = s.die := funext fun d => by rw [State.die, thm, State.die]

theorem State.die_congr_dies {s t : State} (dies : t.thm.dies = s.thm.dies) : t.die = s.die :=
  funext fun d => by rw [State.die, dies, State.die]

theorem State.shutDown_effect (s : State) (d : Nat) : (s.shutDown d).die d = { s.die d with st := .shutdown, level := 0 } ∧
    (∀ k, k ≠ d → (s.shutDown d).die k = s.die k) ∧ (s.shutDown d).thm.shutAt.isSome = true ∧ (s.shutDown d).now = s.now ∧
    (s.shutDown d).regs = s.regs := by
  have same : (s.dieSet d { s.die d with st := .shutdown, level := 0 }).die d = { s.die d with st := .shutdown, level := 0 } :=
    State.die_dieSet_same ..
  have other : ∀ k, k ≠ d → (s.dieSet d { s.die d with st := .shutdown, level := 0 }).die k = s.die k := fun k hk =>
    State.die_dieSet_other _ _ hk
  unfold State.shutDown
  dsimp only
  split
  · next known => exact ⟨same, other, known, rfl, rfl⟩
  · exact ⟨same, other, rfl, rfl, rfl⟩

/-- What judging a die does to it. -/
structure State.dieJudged (s : State) (d : Nat) (t : State) : Prop where
  now : t.now = s.now
  regs : sameRegs (Reg.THM_EVT :: recRegs 6) s t
  other : ∀ k, k ≠ d → t.die k = s.die k
  die : t.die d = { judgedDie (s.die d) with st := (t.die d).st, level := (t.die d).level }
  shut : 2 ≤ (judgedDie (s.die d)).hot → (s.die d).st ≠ .shutdown → (t.die d).st = .shutdown ∧ t.thm.shutAt.isSome = true
  on : ¬2 ≤ (judgedDie (s.die d)).hot → t.die d = judgedDie (s.die d)
  warn : (s.die d).st ≠ .warn → dieNext (s.die d).st (s.die d).govern = .warn → t.rb Reg.THM_EVT 0 = true
  throttle : (s.die d).st ≠ .throttle → dieNext (s.die d).st (s.die d).govern = .throttle → t.rb Reg.THM_EVT 1 = true

theorem State.dieJudged_judgeDie (s : State) (d : Nat) : s.dieJudged d (s.judgeDie d) := by
  rw [State.judgeDie_eq]
  have same : (s.dieSet d (judgedDie (s.die d))).die d = judgedDie (s.die d) := State.die_dieSet_same ..
  have other : ∀ k, k ≠ d → (s.dieSet d (judgedDie (s.die d))).die k = s.die k := fun k hk => State.die_dieSet_other _ _ hk
  have start : sameRegs (Reg.THM_EVT :: recRegs 6) s (s.dieSet d (judgedDie (s.die d))) := fun _ _ => rfl
  have time : (s.dieSet d (judgedDie (s.die d))).now = s.now := rfl
  generalize s.dieSet d (judgedDie (s.die d)) = v at same other start time ⊢
  obtain ⟨kept, regs⟩ := v.dieNotice_kept d (s.die d).st (dieNext (s.die d).st (s.die d).govern) (s.die d).govern
  have warn : (s.die d).st ≠ .warn → dieNext (s.die d).st (s.die d).govern = .warn →
      (v.dieNotice d (s.die d).st (dieNext (s.die d).st (s.die d).govern) (s.die d).govern).rb Reg.THM_EVT 0 = true :=
    fun h e => by rw [e]; exact v.dieNotice_warn d (Ne.symm h) _
  have throttle : (s.die d).st ≠ .throttle → dieNext (s.die d).st (s.die d).govern = .throttle →
      (v.dieNotice d (s.die d).st (dieNext (s.die d).st (s.die d).govern) (s.die d).govern).rb Reg.THM_EVT 1 = true :=
    fun h e => by rw [e]; exact v.dieNotice_throttle d (Ne.symm h) _
  dsimp only
  generalize v.dieNotice d (s.die d).st (dieNext (s.die d).st (s.die d).govern) (s.die d).govern = u at kept regs warn throttle ⊢
  have dies := State.die_congr (State.sameButLog_thm kept)
  have now : u.now = s.now := (State.sameButLog_now kept).trans time
  split
  · next hot =>
    obtain ⟨dieU, otherU, shutU, nowU, regsU⟩ := u.shutDown_effect d
    refine ⟨nowU.trans now, sameRegs_trans start (sameRegs_trans regs (sameRegs_of_regs regsU _)), fun k hk => ?_, ?_, fun _ _ => ⟨?_, shutU⟩,
      fun cold => absurd hot.1 cold, fun h e => ?_, fun h e => ?_⟩
    · rw [otherU k hk, dies, other k hk]
    · rw [dieU, dies, same]
    · rw [dieU]
    · rw [State.rb, rg_of_regs regsU, ← State.rb]; exact warn h e
    · rw [State.rb, rg_of_regs regsU, ← State.rb]; exact throttle h e
  · next cold =>
    refine ⟨now, sameRegs_trans start regs, fun k hk => ?_, ?_, fun hot runs => absurd ⟨hot, runs⟩ cold, fun _ => ?_, warn, throttle⟩
    · rw [dies, other k hk]
    · rw [dies, same]
    · rw [dies, same]

/-! ## A sample (R407 to R415) -/

/-- THM.PEAK raised by a sample. -/
def State.peakShown (s : State) (d : Nat) (g : Int) : State :=
  if (s.rf Reg.THM_PEAK 7 0 : Int) < g then s.rgSet Reg.THM_PEAK (BitVec.ofNat 32 ((g % 256).toNat + 2 ^ 8 * d)) else s

/-- The time of a sample has come, and its readings are taken. -/
def State.readingsTaken (s : State) (d : Nat) (temps : List Int) : State :=
  let u := match (s.die d).lastAt with
    | some t => s.at (t + (if (s.die d).fast then 50000 else 1000000))
    | none => s
  u.dieSet d { s.die d with temps := temps, lastAt := some u.now }

/-- The sensors of a die judged one by one, and its own value found. -/
def State.ownFound (s : State) (d : Nat) : State :=
  let u := (List.range (sensors d)).foldl (fun u i => u.judgeSensor d i) s
  u.dieSet d { u.die d with own := (u.die d).ownValue d (sensors d) }

/-- The die governed, judged, and its peak shown. -/
def State.governed (s : State) (d : Nat) : State :=
  let g := if (s.die d).estGov then (s.die d).est else (s.die d).own
  ((s.dieSet d { s.die d with govern := g }).judgeDie d).peakShown d g

theorem exec_dieSample_compute {die : Fin 22} {s : State} (fitted : s.dieFitted die.val = true) (compute : die.val < 12 ∨ 18 ≤ die.val)
    (temps : List Int) (est : Int) : exec (.dieSample die temps est) s =
      .next ((((s.readingsTaken die.val (temps.take (sensors die.val))).ownFound die.val).governed die.val).altGo) := by
  have apart : ¬(12 ≤ die.val ∧ die.val < 18) := by omega
  have run : exec (.dieSample die temps est) s = execDieSample die temps est s := rfl
  rw [run, execDieSample]
  refine congrArg Host.Outcome.next ((if_neg (by simp [fitted])).trans ?_)
  simp only [if_neg apart]
  rfl

theorem State.readingsTaken_effect (s : State) (d : Nat) (temps : List Int) : let t := s.readingsTaken d temps
    t.die d = { s.die d with temps := temps, lastAt := some t.now } ∧ (∀ k, k ≠ d → t.die k = s.die k) ∧ t.regs = s.regs ∧
      ∀ u, (s.die d).lastAt = some u → t.now = max s.now (u + (if (s.die d).fast then 50000 else 1000000)) := by
  unfold State.readingsTaken
  split
  · next u last =>
    exact ⟨State.die_dieSet_same .., fun k hk => State.die_dieSet_other _ _ hk, rfl, fun v hv => by cases last.symm.trans hv; rfl⟩
  · next last =>
    exact ⟨State.die_dieSet_same .., fun k hk => State.die_dieSet_other _ _ hk, rfl, fun v hv => by cases last.symm.trans hv⟩

/-- The own value of a die whose sensors agree. -/
theorem State.ownFound_effect {s : State} {d : Nat} {g : Int} (temps : (s.die d).temps = List.replicate (sensors d) g)
    (sound : (s.die d).suspects = []) : let t := s.ownFound d
    t.die d = { s.die d with devs := (t.die d).devs, offs := (t.die d).offs, own := g } ∧
      (∀ k, k ≠ d → t.die k = s.die k) ∧ t.regs = s.regs ∧ t.now = s.now := by
  have judged := State.judged_sample (List.range (sensors d)) (fun i hi => List.mem_range.mp hi) temps sound
  unfold State.ownFound
  generalize (List.range (sensors d)).foldl (fun u i => u.judgeSensor d i) s = v at judged ⊢
  have own : (v.die d).ownValue d (sensors d) = g :=
    DieMon.ownValue_replicate (by rw [judged.die]; exact temps) (by rw [judged.die]; exact sound)
  have regs : v.regs = s.regs := by rw [judged.rest]
  have now : v.now = s.now := by rw [judged.rest]
  dsimp only
  rw [own, State.die_dieSet_same]
  refine ⟨?_, fun k hk => (State.die_dieSet_other _ _ hk).trans (judged.other k hk), regs, now⟩
  rw [judged.die]

theorem State.peakShown_effect (s : State) (d : Nat) (g : Int) : let t := s.peakShown d g
    t.thm = s.thm ∧ t.now = s.now ∧ sameRegs [Reg.THM_PEAK] s t ∧
      ((s.rf Reg.THM_PEAK 7 0 : Int) < g → g < 256 → d < 2 ^ 24 → t.rf Reg.THM_PEAK 7 0 = g.toNat ∧ t.rf Reg.THM_PEAK 31 8 = d) := by
  unfold State.peakShown
  split
  · refine ⟨rfl, rfl, fun k hk => rg_rgSet_other s _ (fun e => hk (by simp [e])), fun above small dies => ?_⟩
    have word : (BitVec.ofNat 32 ((g % 256).toNat + 2 ^ 8 * d)).toNat = g.toNat + 2 ^ 8 * d := by
      rw [BitVec.toNat_ofNat, Nat.mod_eq_of_lt]
      · omega
      · omega
    have least := Int.natCast_nonneg (s.rf Reg.THM_PEAK 7 0)
    constructor
    · rw [State.rf, rg_rgSet_same, word, bitsOf]; omega
    · rw [State.rf, rg_rgSet_same, word, bitsOf]; omega
  · next low => exact ⟨rfl, rfl, fun _ _ => rfl, fun above => absurd above low⟩

theorem State.governed_effect {s : State} {d : Nat} {g : Int} (measured : (s.die d).estGov = false) (own : (s.die d).own = g) :
    ∃ v, (s.dieSet d { s.die d with govern := g }).dieJudged d v ∧ s.governed d = v.peakShown d g := by
  refine ⟨_, State.dieJudged_judgeDie _ d, ?_⟩
  simp only [State.governed, measured, own]
  rfl

theorem dieNext_throttle {st : DieState} (h : st = .normal ∨ st = .warn) {g : Int} (hot : 105 ≤ g) : dieNext st g = .throttle := by
  obtain rfl | rfl := h
  · exact if_pos hot
  · exact if_pos hot

theorem dieNext_warn {g : Int} (warm : 95 ≤ g) (below : g < 105) : dieNext .normal g = .warn :=
  (if_neg (by omega)).trans (if_pos warm)

/-- What the sample of a compute die whose sensors agree leaves. -/
theorem exec_dieSample_agrees {die : Fin 22} {s : State} (g est : Int) (fitted : s.dieFitted die.val = true)
    (compute : die.val < 12 ∨ 18 ≤ die.val) (sound : (s.die die.val).suspects = []) (measured : (s.die die.val).estGov = false)
    (runs : (s.die die.val).st ≠ .shutdown) :
    let d := die.val
    let x := s.die d
    let shut := 115 ≤ g ∧ 1 ≤ x.hot
    ∃ t, exec (.dieSample die (List.replicate (sensors d) g) est) s = .next t ∧ (t.die d).temps = List.replicate (sensors d) g ∧
      (t.die d).govern = g ∧ (t.die d).suspects = [] ∧ (shut → (t.die d).st = .shutdown ∧ t.thm.shutAt.isSome = true) ∧
      (¬shut → (t.die d).st = dieNext x.st g) ∧ (x.st = .normal → 95 ≤ g → g < 105 → t.rb Reg.THM_EVT 0 = true) ∧
      ((x.st = .normal ∨ x.st = .warn) → 105 ≤ g → t.rb Reg.THM_EVT 1 = true ∧ (¬shut → (t.die d).level = 2)) ∧
      (∀ u, x.lastAt = some u → t.now = max s.now (u + (if x.fast then 50000 else 1000000))) ∧
      ((s.rf Reg.THM_PEAK 7 0 : Int) < g → g < 256 → t.rf Reg.THM_PEAK 7 0 = g.toNat ∧ t.rf Reg.THM_PEAK 31 8 = d) ∧
      ∀ k, k ≠ d → t.die k = s.die k := by
  intro d x shut
  refine ⟨_, (exec_dieSample_compute fitted compute _ est).trans (by rw [List.take_of_length_le List.length_replicate.le]), ?_⟩
  obtain ⟨dieR, otherR, regsR, nowR⟩ := s.readingsTaken_effect d (List.replicate (sensors d) g)
  generalize s.readingsTaken d (List.replicate (sensors d) g) = r at dieR otherR regsR nowR ⊢
  obtain ⟨dieO, otherO, regsO, nowO⟩ := State.ownFound_effect (s := r) (d := d) (g := g) (by rw [dieR]) (by rw [dieR]; exact sound)
  generalize r.ownFound d = o at dieO otherO regsO nowO ⊢
  obtain ⟨v, judged, form⟩ := State.governed_effect (s := o) (d := d) (g := g) (by rw [dieO, dieR]; exact measured) (by rw [dieO])
  obtain ⟨thmP, nowP, regsP, peak⟩ := v.peakShown_effect d g
  rw [form]
  generalize v.peakShown d g = p at thmP nowP regsP peak ⊢
  have polled := p.polled_altGo
  generalize p.altGo = t at polled ⊢
  have dies : t.die = v.die := (State.die_congr_dies (by rw [polled.rest])).trans (State.die_congr thmP)
  have shutAt : t.thm.shutAt = v.thm.shutAt := by rw [polled.rest, thmP]
  have now : t.now = r.now := by rw [polled.rest]; exact nowP.trans (judged.now.trans nowO)
  have z : (o.dieSet d { o.die d with govern := g }).die d = { o.die d with govern := g } := State.die_dieSet_same ..
  have hot : (judgedDie { o.die d with govern := g }).hot = if 115 ≤ g then x.hot + 1 else 0 := by rw [dieO, dieR]; rfl
  have st : ({ o.die d with govern := g } : DieMon).st = x.st := by rw [dieO, dieR]
  have level : (judgedDie { o.die d with govern := g }).level =
      if dieNext x.st g = x.st then x.level else if dieNext x.st g = .throttle then 2 else 0 := by rw [dieO, dieR]; rfl
  have next : (judgedDie { o.die d with govern := g }).st = dieNext x.st g := by rw [dieO, dieR]; rfl
  have shuts : shut ↔ 2 ≤ (judgedDie { o.die d with govern := g }).hot := by
    rw [hot]
    split <;> omega
  obtain ⟨_, regsJ, otherJ, dieJ, shutJ, onJ, warnJ, throttleJ⟩ := judged
  rw [z] at dieJ shutJ onJ warnJ throttleJ
  have evt : ∀ i, i < 32 → v.rb Reg.THM_EVT i = true → t.rb Reg.THM_EVT i = true := fun i hi on =>
    polled.evt i hi ((sameRegs_rb regsP (by decide) i).trans on)
  rw [dies, shutAt, now]
  refine ⟨?_, ?_, ?_, fun h => ?_, fun h => ?_, fun normal warm below => ?_, fun cool hot => ⟨?_, fun h => ?_⟩, nowR,
    fun above small => ?_, fun k hk => ?_⟩
  · rw [dieJ, dieO, dieR]; rfl
  · rw [dieJ]; rfl
  · rw [dieJ, dieO, dieR]; exact sound
  · exact shutJ (shuts.mp h) (st ▸ runs)
  · rw [onJ (fun c => h (shuts.mpr c)), next]
  · refine evt 0 (by decide) (warnJ ?_ ?_)
    · rw [st, normal]; decide
    · rw [st, normal]; exact dieNext_warn warm below
  · refine evt 1 (by decide) (throttleJ ?_ ?_)
    · rw [st]
      obtain c | c := cool
      · rw [c]; decide
      · rw [c]; decide
    · rw [st]; exact dieNext_throttle cool hot
  · rw [onJ (fun c => h (shuts.mpr c)), level, dieNext_throttle cool hot, if_neg, if_pos rfl]
    obtain c | c := cool
    · rw [c]; decide
    · rw [c]; decide
  · have before : v.rf Reg.THM_PEAK 7 0 = s.rf Reg.THM_PEAK 7 0 :=
      (sameRegs_rf regsJ (by decide) 7 0).trans ((rf_of_regs (regsO.trans regsR)) Reg.THM_PEAK 7 0)
    obtain ⟨value, which⟩ := peak (by rw [before]; exact above) small (die.isLt.trans (by decide))
    exact ⟨(sameRegs_rf polled.regs (by decide) 7 0).trans value, (sameRegs_rf polled.regs (by decide) 31 8).trans which⟩
  · rw [otherJ k hk, State.die_dieSet_other _ _ hk, otherO k hk, otherR k hk]

/-! ## The throttle level, shutdown and trips -/

theorem exec_throttleLevelUpdate_steps {die : Fin 22} {s : State} (st : (s.die die.val).st = .throttle) :
    ∃ t, exec (.throttleLevelUpdate die) s = .next t ∧
      t.die die.val = { s.die die.val with
        level := if 105 ≤ (s.die die.val).govern then min 7 ((s.die die.val).level + 1)
          else if (s.die die.val).govern < 102 then max 1 ((s.die die.val).level - 1) else (s.die die.val).level } ∧
      (∀ k, k ≠ die.val → t.die k = s.die k) ∧ { t with thm := s.thm } = s := by
  have run : exec (.throttleLevelUpdate die) s = execThrottleLevelUpdate die s := rfl
  have on : ¬(s.die die.val).st ≠ .throttle := by simp [st]
  by_cases hot : 105 ≤ (s.die die.val).govern
  · refine ⟨_, run.trans (congrArg Host.Outcome.next ((if_neg on).trans (if_pos hot))), ?_, fun k hk => State.die_dieSet_other _ _ hk, rfl⟩
    rw [State.die_dieSet_same, if_pos hot]
  · by_cases cool : (s.die die.val).govern < 102
    · refine ⟨_, run.trans (congrArg Host.Outcome.next ((if_neg on).trans ((if_neg hot).trans (if_pos cool)))), ?_,
        fun k hk => State.die_dieSet_other _ _ hk, rfl⟩
      rw [State.die_dieSet_same, if_neg hot, if_pos cool]
    · refine ⟨_, run.trans (congrArg Host.Outcome.next ((if_neg on).trans ((if_neg hot).trans (if_neg cool)))), ?_, fun _ _ => rfl, rfl⟩
      rw [if_neg hot, if_neg cool]

/-- What a module reset keeps and clears of the monitors. -/
theorem State.moduleReset_monitors (s : State) (cause : Nat) : (s.moduleReset cause).thm = {} ∧
    (s.moduleReset cause).nor = { s.nor with hours := (s.moduleReset cause).nor.hours } ∧ (s.moduleReset cause).now = s.now := by
  rw [s.moduleReset_wiped cause]
  exact ⟨rfl, rfl, rfl⟩

/-- The shutdown record is written, or its time is over. -/
def State.shutTimed (s : State) (since : Nat) : State :=
  if Config.pick s.free % 2 == 1 then
    { s with free := s.free + 1, nor := { s.nor with shut := s.thm.shutRec, shuts := min 0xFFFF (s.nor.shuts + 1) } }
  else ({ s with free := s.free + 1 } : State).at (since + 5000000)

theorem exec_shutdownRecordTimeout_resets {s : State} {since : Nat} (shut : s.thm.shutAt = some since) :
    exec .shutdownRecordTimeout s = .next ((s.shutTimed since).moduleReset 9) := by
  have run : exec .shutdownRecordTimeout s = execShutdownRecordTimeout s := rfl
  rw [run, execShutdownRecordTimeout]
  simp only [shut]
  rfl

theorem State.shutTimed_effect (s : State) (since : Nat) : let t := s.shutTimed since
    (t.nor.shut = s.thm.shutRec ∨ (t.nor.shut = s.nor.shut ∧ since + 5000000 ≤ t.now)) ∧ t.nor.tokSeq = s.nor.tokSeq ∧
      t.fuses = s.fuses := by
  unfold State.shutTimed
  split
  · exact ⟨.inl rfl, rfl, rfl⟩
  · exact ⟨.inr ⟨rfl, le_max_right ..⟩, rfl, rfl⟩

/-- The shutdown record without its MAGIC. -/
def shutCleared (bs : List Byte) : List Byte := if bs = [] then [] else List.replicate 4 0 ++ bs.drop 4

theorem shutCleared_getD (bs : List Byte) (i : Nat) : (shutCleared bs).getD i 0 = if i < 4 then 0 else bs.getD i 0 := by
  unfold shutCleared
  by_cases none_ : bs = []
  · simp [none_]
  · rw [if_neg none_]
    by_cases head : i < 4
    · rw [if_pos head, List.getD_append _ _ _ _ (by simpa using head), getD_replicate head]
    · rw [if_neg head, List.getD_append_right _ _ _ _ (by simp; omega)]
      simp only [List.length_replicate, List.getD_eq_getElem?_getD, List.getElem?_drop]
      rw [Nat.add_sub_cancel' (by omega)]

theorem exec_shutClr {f : Func} {s : State} (ready : s.mustWait (portOf f) = false) (pf : isPf f = true) :
    exec (.shutClr f) s = .next { s with nor := { s.nor with shut := shutCleared s.nor.shut } } :=
  congrArg Host.Outcome.next ((State.inOrder_of_ready ready ..).trans (if_pos pf))

/-- Settles O54: sensors that agree are never suspect, so the die is governed by what they read; a shutdown and a trip reset the module. -/
theorem dieMonitors : Obligations.DieMonitors := by
  unfold Obligations.DieMonitors
  intro f die s
  refine ⟨fun g est => fun fitted compute sound measured runs => exec_dieSample_agrees g est fitted compute sound measured runs,
    exec_throttleLevelUpdate_steps, fun u shut => ?_, fun fitted => ?_, fun ready pf => ?_⟩
  · refine ⟨_, exec_shutdownRecordTimeout_resets shut, State.rf_moduleReset_lastReset _ (by decide), ?_⟩
    obtain ⟨written, seq, fuses⟩ := s.shutTimed_effect u
    obtain ⟨_, nor, now⟩ := (s.shutTimed u).moduleReset_monitors 9
    have burnt := (s.shutTimed u).moduleReset_fuses 9
    generalize s.shutTimed u = v at written seq fuses nor now burnt ⊢
    rw [nor, now, burnt]
    exact ⟨written, seq, fuses⟩
  · obtain ⟨thm, nor, _⟩ := s.moduleReset_monitors 9
    refine ⟨_, congrArg Host.Outcome.next (if_pos fitted), State.rf_moduleReset_lastReset _ (by decide), ?_, thm, s.moduleReset_fuses 9⟩
    rw [nor]
  · refine ⟨_, exec_shutClr ready pf, fun i hi => ?_, fun i hi => ?_, rfl, rfl⟩
    · exact (shutCleared_getD _ _).trans (if_pos hi)
    · exact (shutCleared_getD _ _).trans (if_neg (by omega))

end Sys2Proof.Machine

/-! # The logger and the interrupt controller (R426, R432 to R434, R438) -/

namespace Sys2Proof.Machine

/-! ## The logger -/

/-- A full ring gives up its oldest unread record. -/
def State.oldestGivenUp (s : State) : State :=
  ((s.rfSet Reg.ERR_TAIL 8 0 ((s.rf Reg.ERR_TAIL 8 0 + 1) % 512)).rSat Reg.ERR_LOST 15 0 1).raise 145

/-- The next sequence number drawn. -/
def State.seqDrawn (s : State) : State := s.rAdd Reg.ERR_SEQ 31 0 1

/-- A record put into slot `head` of the ring, which moves on. -/
def State.slotFilled (s : State) (head : Nat) (rest : List ErrRec) (q : ErrRec) : State :=
  ({ s with log := { queue := rest, ring := mput s.log.ring head q, loss := false, lastAt := some s.now } } : State).rfSet
    Reg.ERR_HEAD 8 0 ((head + 1) % 512)

/-- The log's source, where the class of the record asks for it. -/
def State.classRaised (s : State) (code : Nat) : State := if s.rb Reg.ERR_CFG (codeClass code - 1) then s.raise 144 else s

theorem State.appendNext_eq {s : State} {r : ErrRec} {rest : List ErrRec} (queue : s.log.queue = r :: rest) :
    let head := s.rf Reg.ERR_HEAD 8 0
    let full := decide ((head + 1) % 512 = s.rf Reg.ERR_TAIL 8 0)
    let u := (if full then s.oldestGivenUp else s).seqDrawn
    s.appendNext = (u.slotFilled head rest { r with loss := u.log.loss || full, seq := u.rf Reg.ERR_SEQ 31 0 }).classRaised r.code := by
  unfold State.appendNext
  simp only [queue]
  rfl

theorem State.classRaised_kept (s : State) (code : Nat) :
    s.sameButLog (s.classRaised code) ∧ sameRegs [Reg.IRQ_RAW + 16] s (s.classRaised code) ∧ (s.classRaised code).log = s.log := by
  unfold State.classRaised
  split
  · refine ⟨s.raise_high_sameButLog (by decide), s.raise_high_sameRegs (src := 144) (by decide), ?_⟩
    rw [s.raise_high 144 (by decide)]
    exact State.rawSet_log s 144
  · exact ⟨s.sameButLog_rfl, fun _ _ => rfl, rfl⟩

theorem State.oldestGivenUp_kept (s : State) : s.sameButLog s.oldestGivenUp ∧ s.oldestGivenUp.log = s.log ∧
    s.oldestGivenUp.rf Reg.ERR_TAIL 8 0 = (s.rf Reg.ERR_TAIL 8 0 + 1) % 512 ∧
    s.oldestGivenUp.rf Reg.ERR_LOST 15 0 = min 65535 (s.rf Reg.ERR_LOST 15 0 + 1) ∧
    s.oldestGivenUp.rf Reg.ERR_SEQ 31 0 = s.rf Reg.ERR_SEQ 31 0 := by
  have tail : (s.rfSet Reg.ERR_TAIL 8 0 ((s.rf Reg.ERR_TAIL 8 0 + 1) % 512)).rf Reg.ERR_TAIL 8 0 = (s.rf Reg.ERR_TAIL 8 0 + 1) % 512 :=
    (rf_rfSet_same _ _ _ _ _ (by decide) (by decide)).trans (Nat.mod_eq_of_lt (Nat.mod_lt _ (by decide)))
  have lost : (s.rfSet Reg.ERR_TAIL 8 0 ((s.rf Reg.ERR_TAIL 8 0 + 1) % 512)).rf Reg.ERR_LOST 15 0 = s.rf Reg.ERR_LOST 15 0 :=
    rf_rfSet_other s 8 0 _ 15 0 (by decide)
  have seq : (s.rfSet Reg.ERR_TAIL 8 0 ((s.rf Reg.ERR_TAIL 8 0 + 1) % 512)).rf Reg.ERR_SEQ 31 0 = s.rf Reg.ERR_SEQ 31 0 :=
    rf_rfSet_other s 8 0 _ 31 0 (by decide)
  have kept := s.rgSet_sameButLog Reg.ERR_TAIL (BitVec.ofNat 32 (putBits (s.rg Reg.ERR_TAIL).toNat 8 0 ((s.rf Reg.ERR_TAIL 8 0 + 1) % 512)))
  have log : (s.rfSet Reg.ERR_TAIL 8 0 ((s.rf Reg.ERR_TAIL 8 0 + 1) % 512)).log = s.log := rfl
  unfold State.oldestGivenUp
  change s.sameButLog (s.rfSet Reg.ERR_TAIL 8 0 ((s.rf Reg.ERR_TAIL 8 0 + 1) % 512)) at kept
  generalize s.rfSet Reg.ERR_TAIL 8 0 ((s.rf Reg.ERR_TAIL 8 0 + 1) % 512) = u at tail lost seq kept log ⊢
  have regs := State.raise_high_sameRegs (src := 145) (u.rSat Reg.ERR_LOST 15 0 1) (by decide)
  refine ⟨State.sameButLog_trans kept (State.sameButLog_trans (u.rSat_sameButLog ..) (State.raise_high_sameButLog _ (by decide))), ?_,
    ?_, ?_, ?_⟩
  · rw [State.raise_high _ 145 (by decide), State.rawSet_log]
    exact log
  · rw [sameRegs_rf regs (by decide)]
    exact (rf_rfSet_other u 15 0 _ 8 0 (by decide)).trans tail
  · rw [sameRegs_rf regs (by decide), ← lost]
    refine (rf_rfSet_same u _ _ _ _ (by decide) (by decide)).trans (Nat.mod_eq_of_lt ?_)
    have least : min (2 ^ (15 + 1 - 0) - 1) (u.rf Reg.ERR_LOST 15 0 + 1) ≤ 65535 := min_le_left ..
    omega
  · rw [sameRegs_rf regs (by decide)]
    exact (rf_rfSet_other u 15 0 _ 31 0 (by decide)).trans seq

theorem State.seqDrawn_kept (s : State) : s.sameButLog s.seqDrawn ∧ s.seqDrawn.log = s.log ∧
    s.seqDrawn.rf Reg.ERR_SEQ 31 0 = (s.rf Reg.ERR_SEQ 31 0 + 1) % 2 ^ 32 ∧ sameRegs [Reg.ERR_SEQ] s s.seqDrawn :=
  ⟨s.rgSet_sameButLog _ _, rfl, rf_rAdd_same _ _ _ _ _ (by decide) (by decide), sameRegs_rfSet s _ _ _ _⟩

theorem State.slotFilled_kept (s : State) (head : Nat) (rest : List ErrRec) (q : ErrRec) :
    s.sameButLog (s.slotFilled head rest q) ∧
      (s.slotFilled head rest q).log = { queue := rest, ring := mput s.log.ring head q, loss := false, lastAt := some s.now } ∧
      (s.slotFilled head rest q).rf Reg.ERR_HEAD 8 0 = (head + 1) % 512 ∧ sameRegs [Reg.ERR_HEAD] s (s.slotFilled head rest q) := by
  unfold State.slotFilled
  obtain ⟨u, hu⟩ : ∃ u : State, u = { s with log := { queue := rest, ring := mput s.log.ring head q, loss := false, lastAt := some s.now } } :=
    ⟨_, rfl⟩
  have regs : u.regs = s.regs := by rw [hu]
  have log : u.log = { queue := rest, ring := mput s.log.ring head q, loss := false, lastAt := some s.now } := by rw [hu]
  have kept : s.sameButLog u := by rw [hu]; rfl
  rw [← hu]
  exact ⟨State.sameButLog_trans kept (u.rgSet_sameButLog _ _), log,
    (rf_rfSet_same _ _ _ _ _ (by decide) (by decide)).trans (Nat.mod_eq_of_lt (Nat.mod_lt _ (by decide))),
    sameRegs_trans (sameRegs_of_regs regs _) (sameRegs_rfSet u _ _ _ _)⟩

/-- The record as it is appended. -/
def State.asAppended (s : State) (r : ErrRec) : ErrRec :=
  { r with
    loss := s.log.loss || decide ((s.rf Reg.ERR_HEAD 8 0 + 1) % 512 = s.rf Reg.ERR_TAIL 8 0)
    seq := (s.rf Reg.ERR_SEQ 31 0 + 1) % 2 ^ 32 }

/-- Room made in the ring. -/
def State.roomMade (s : State) : State :=
  if (s.rf Reg.ERR_HEAD 8 0 + 1) % 512 = s.rf Reg.ERR_TAIL 8 0 then s.oldestGivenUp else s

theorem State.roomMade_kept (s : State) : s.sameButLog s.roomMade ∧ s.roomMade.log = s.log ∧
    s.roomMade.rf Reg.ERR_TAIL 8 0 = (if (s.rf Reg.ERR_HEAD 8 0 + 1) % 512 = s.rf Reg.ERR_TAIL 8 0 then
      (s.rf Reg.ERR_TAIL 8 0 + 1) % 512 else s.rf Reg.ERR_TAIL 8 0) ∧
    s.roomMade.rf Reg.ERR_LOST 15 0 = (if (s.rf Reg.ERR_HEAD 8 0 + 1) % 512 = s.rf Reg.ERR_TAIL 8 0 then
      min 65535 (s.rf Reg.ERR_LOST 15 0 + 1) else s.rf Reg.ERR_LOST 15 0) ∧
    s.roomMade.rf Reg.ERR_SEQ 31 0 = s.rf Reg.ERR_SEQ 31 0 := by
  unfold State.roomMade
  by_cases full : (s.rf Reg.ERR_HEAD 8 0 + 1) % 512 = s.rf Reg.ERR_TAIL 8 0
  · rw [if_pos full, if_pos full, if_pos full]
    exact s.oldestGivenUp_kept
  · rw [if_neg full, if_neg full, if_neg full]
    exact ⟨s.sameButLog_rfl, rfl, rfl, rfl, rfl⟩

/-- The oldest queued record appended. -/
theorem State.appendNext_steps {s : State} {r : ErrRec} {rest : List ErrRec} (queue : s.log.queue = r :: rest) :
    s.appendNext = (s.roomMade.seqDrawn.slotFilled (s.rf Reg.ERR_HEAD 8 0) rest (s.asAppended r)).classRaised r.code := by
  obtain ⟨_, log, _, _, seq⟩ := s.roomMade_kept
  obtain ⟨_, logD, seqD, _⟩ := s.roomMade.seqDrawn_kept
  have record : { r with
      loss := s.roomMade.seqDrawn.log.loss || decide ((s.rf Reg.ERR_HEAD 8 0 + 1) % 512 = s.rf Reg.ERR_TAIL 8 0)
      seq := s.roomMade.seqDrawn.rf Reg.ERR_SEQ 31 0 } = s.asAppended r := by
    rw [logD, log, seqD, seq, State.asAppended]
  have room : (if decide ((s.rf Reg.ERR_HEAD 8 0 + 1) % 512 = s.rf Reg.ERR_TAIL 8 0) then s.oldestGivenUp else s) = s.roomMade := by
    simp only [State.roomMade, decide_eq_true_eq]
  rw [State.appendNext_eq queue, room, record]

theorem State.appendNext_effect {s : State} {r : ErrRec} {rest : List ErrRec} (queue : s.log.queue = r :: rest) :
    s.sameButLog s.appendNext ∧
      s.appendNext.log = ⟨rest, mput s.log.ring (s.rf Reg.ERR_HEAD 8 0) (s.asAppended r), false, some s.now⟩ ∧
      s.appendNext.rf Reg.ERR_HEAD 8 0 = (s.rf Reg.ERR_HEAD 8 0 + 1) % 512 ∧
      s.appendNext.rf Reg.ERR_SEQ 31 0 = (s.rf Reg.ERR_SEQ 31 0 + 1) % 2 ^ 32 ∧
      s.appendNext.rf Reg.ERR_TAIL 8 0 = s.roomMade.rf Reg.ERR_TAIL 8 0 ∧
      s.appendNext.rf Reg.ERR_LOST 15 0 = s.roomMade.rf Reg.ERR_LOST 15 0 := by
  obtain ⟨kept1, log1, _, _, seq1⟩ := s.roomMade_kept
  rw [State.appendNext_steps queue]
  generalize s.roomMade = v at kept1 log1 seq1 ⊢
  obtain ⟨kept2, log2, seq2, regs2⟩ := v.seqDrawn_kept
  generalize v.seqDrawn = w at kept2 log2 seq2 regs2 ⊢
  obtain ⟨kept3, log3, head3, regs3⟩ := w.slotFilled_kept (s.rf Reg.ERR_HEAD 8 0) rest (s.asAppended r)
  generalize w.slotFilled (s.rf Reg.ERR_HEAD 8 0) rest (s.asAppended r) = x at kept3 log3 head3 regs3 ⊢
  obtain ⟨kept4, regs4, log4⟩ := x.classRaised_kept r.code
  generalize x.classRaised r.code = t at kept4 regs4 log4 ⊢
  have kept12 := State.sameButLog_trans kept1 kept2
  have now : w.now = s.now := State.sameButLog_now kept12
  refine ⟨State.sameButLog_trans kept12 (State.sameButLog_trans kept3 kept4), ?_, ?_, ?_, ?_, ?_⟩
  · rw [log4, log3, log2, log1, now]
  · rw [sameRegs_rf regs4 (by decide), head3]
  · rw [sameRegs_rf regs4 (by decide), sameRegs_rf regs3 (by decide), seq2, seq1]
  · rw [sameRegs_rf regs4 (by decide), sameRegs_rf regs3 (by decide), sameRegs_rf regs2 (by decide)]
  · rw [sameRegs_rf regs4 (by decide), sameRegs_rf regs3 (by decide), sameRegs_rf regs2 (by decide)]

/-- The time at which the logger takes the next record. -/
def State.logDue (s : State) : State :=
  match s.log.lastAt with
  | some t => s.at (t + 100)
  | none => s

theorem State.logDue_eq (s : State) : s.logDue = { s with now := s.logDue.now } := by
  unfold State.logDue
  split <;> rfl

theorem exec_logAppend_takes {s : State} {r : ErrRec} {rest : List ErrRec} (queue : s.log.queue = r :: rest) :
    exec .logAppend s = .next s.logDue.appendNext :=
  congrArg Host.Outcome.next (if_neg (by simp [queue]))

theorem exec_errTailWrite {f : Func} {s : State} (ready : s.mustWait (portOf f) = false) (pf : isPf f = true) (v : Word) :
    exec (.errTailWrite f v) s = .next (if (v.toNat % 512 + 512 - s.rf Reg.ERR_TAIL 8 0) % 512 ≤
      (s.rf Reg.ERR_HEAD 8 0 + 512 - s.rf Reg.ERR_TAIL 8 0) % 512 then s.rfSet Reg.ERR_TAIL 8 0 (v.toNat % 512) else s) := by
  refine congrArg Host.Outcome.next ((State.inOrder_of_ready ready ..).trans ?_)
  simp [pf]

/-! ## The best group (R433) -/

/-- Is `g` the group below `n` that goes first: of the highest priority, the lowest number among equals? -/
def State.firstBelow (s : State) (t n : Nat) (b : Option Nat) : Prop :=
  match b with
  | none => ∀ h, h < n → s.presentable t h = false
  | some g => s.presentable t g = true ∧ g < n ∧ ∀ h, h < n → s.presentable t h = true →
      s.groupPrio h < s.groupPrio g ∨ (s.groupPrio h = s.groupPrio g ∧ g ≤ h)

/-- One group more judged. -/
def State.judgeGroup (s : State) (t : Nat) (b : Option Nat) (g : Nat) : Option Nat :=
  if s.presentable t g then
    match b with
    | none => some g
    | some h => if s.groupPrio h < s.groupPrio g then some g else b
  else b

theorem State.bestGroup_eq (s : State) (t : Nat) : s.bestGroup t = (List.range 18).foldl (s.judgeGroup t) none := rfl

theorem State.firstBelow_judgeGroup {s : State} {t n : Nat} {b : Option Nat} (h : s.firstBelow t n b) :
    s.firstBelow t (n + 1) (s.judgeGroup t b n) := by
  unfold State.judgeGroup
  cases b with
  | none =>
    split
    · next shown =>
      refine ⟨shown, Nat.lt_succ_self n, fun k hk on => ?_⟩
      obtain below | rfl := Nat.lt_succ_iff_lt_or_eq.mp hk
      · rw [h k below] at on; cases on
      · exact .inr ⟨rfl, le_rfl⟩
    · next hidden =>
      intro k hk
      obtain below | rfl := Nat.lt_succ_iff_lt_or_eq.mp hk
      · exact h k below
      · exact Bool.eq_false_iff.mpr hidden
  | some g =>
    obtain ⟨on, less, best⟩ := h
    split
    · next shown =>
      dsimp only
      split
      · next higher =>
        refine ⟨shown, Nat.lt_succ_self n, fun k hk there => ?_⟩
        obtain below | rfl := Nat.lt_succ_iff_lt_or_eq.mp hk
        · have := best k below there
          omega
        · exact .inr ⟨rfl, le_rfl⟩
      · next lower =>
        refine ⟨on, by omega, fun k hk there => ?_⟩
        obtain below | rfl := Nat.lt_succ_iff_lt_or_eq.mp hk
        · exact best k below there
        · omega
    · next hidden =>
      refine ⟨on, by omega, fun k hk there => ?_⟩
      obtain below | rfl := Nat.lt_succ_iff_lt_or_eq.mp hk
      · exact best k below there
      · exact absurd there hidden

theorem State.firstBelow_bestGroup (s : State) (t : Nat) : s.firstBelow t 18 (s.bestGroup t) := by
  suffices ∀ n, s.firstBelow t n ((List.range n).foldl (s.judgeGroup t) none) from this 18
  intro n
  induction n with
  | zero => exact fun _ h => absurd h (Nat.not_lt_zero _)
  | succ n ih =>
    rw [List.range_succ, List.foldl_append]
    exact State.firstBelow_judgeGroup ih

theorem State.bestGroup_of_first {s : State} {t g : Nat} (less : g < 18) (on : s.presentable t g = true)
    (best : ∀ h, h < 18 → s.presentable t h = true → s.groupPrio h < s.groupPrio g ∨ (s.groupPrio h = s.groupPrio g ∧ g ≤ h)) :
    s.bestGroup t = some g := by
  have first := s.firstBelow_bestGroup t
  cases found : s.bestGroup t with
  | none =>
    rw [found] at first
    rw [first g less] at on
    cases on
  | some k =>
    rw [found] at first
    obtain ⟨onK, lessK, bestK⟩ := first
    have a := best k lessK onK
    have b := bestK g less on
    have same : k = g := by omega
    rw [same]

theorem State.bestGroup_of_none {s : State} {t : Nat} (off : ∀ g, g < 18 → s.presentable t g = false) : s.bestGroup t = none := by
  have first := s.firstBelow_bestGroup t
  cases found : s.bestGroup t with
  | none => rfl
  | some k =>
    rw [found] at first
    obtain ⟨on, less, _⟩ := first
    rw [off k less] at on
    cases on

/-! ## Stacks -/

theorem State.irqStackSet_eq (s : State) (t : Nat) (v : List StackEnt) :
    s.irqStackSet t v = { s with irq := (s.irqStackSet t v).irq } := by
  unfold State.irqStackSet
  rfl

theorem State.irqStackSet_kept (s : State) {t : Nat} (h : t < 3) (v : List StackEnt) : (s.irqStackSet t v).irqStack t = v ∧
    (∀ k, k < 3 → k ≠ t → (s.irqStackSet t v).irqStack k = s.irqStack k) ∧ (s.irqStackSet t v).irq.shown = s.irq.shown := by
  obtain rfl | rfl | rfl : t = 0 ∨ t = 1 ∨ t = 2 := by omega
  · refine ⟨rfl, fun k hk ne => ?_, rfl⟩
    obtain rfl | rfl : k = 1 ∨ k = 2 := by omega
    · rfl
    · rfl
  · refine ⟨rfl, fun k hk ne => ?_, rfl⟩
    obtain rfl | rfl : k = 0 ∨ k = 2 := by omega
    · rfl
    · rfl
  · refine ⟨rfl, fun k hk ne => ?_, rfl⟩
    obtain rfl | rfl : k = 0 ∨ k = 1 := by omega
    · rfl
    · rfl

theorem State.irqStack_congr {s t : State} (irq : t.irq = s.irq) (k : Nat) : t.irqStack k = s.irqStack k := by
  unfold State.irqStack
  rw [irq]

/-- A group pushed, and the time of its presentation kept. -/
def State.groupShown (s : State) (t g : Nat) : State :=
  let u := s.irqStackSet t (⟨g, s.groupPrio g⟩ :: s.irqStack t)
  { u with irq := { u.irq with shown := mput u.irq.shown (shownKey t g) s.now } }

theorem exec_interruptPresentation_best {t : Fin 3} {s : State} {g : Nat} (best : s.bestGroup t.val = some g) :
    exec (.interruptPresentation t) s = .next (if t.val < 2 then (s.groupShown t.val g).send (.msix t.val 0 (s.groupVector g))
      else s.groupShown t.val g) := by
  have run : exec (.interruptPresentation t) s = execInterruptPresentation t s := rfl
  rw [run, execInterruptPresentation]
  simp only [best]
  rfl

theorem exec_interruptPresentation_none {t : Fin 3} {s : State} (best : s.bestGroup t.val = none) :
    exec (.interruptPresentation t) s = .next s := by
  have run : exec (.interruptPresentation t) s = execInterruptPresentation t s := rfl
  rw [run, execInterruptPresentation]
  simp only [best]

theorem State.groupShown_kept (s : State) {t : Nat} (h : t < 3) (g : Nat) :
    (s.groupShown t g).irqStack t = ⟨g, s.groupPrio g⟩ :: s.irqStack t ∧
      (∀ k, k < 3 → k ≠ t → (s.groupShown t g).irqStack k = s.irqStack k) ∧
      (s.groupShown t g).irq.shown = mput s.irq.shown (shownKey t g) s.now ∧
      s.groupShown t g = { s with irq := (s.groupShown t g).irq } := by
  obtain ⟨top, other, shown⟩ := s.irqStackSet_kept h (⟨g, s.groupPrio g⟩ :: s.irqStack t)
  have rest := s.irqStackSet_eq t (⟨g, s.groupPrio g⟩ :: s.irqStack t)
  unfold State.groupShown
  generalize s.irqStackSet t (⟨g, s.groupPrio g⟩ :: s.irqStack t) = u at top other shown rest ⊢
  have entries : ∀ k, ({ u with irq := { u.irq with shown := mput u.irq.shown (shownKey t g) s.now } } : State).irqStack k = u.irqStack k :=
    fun _ => rfl
  refine ⟨(entries t).trans top, fun k hk ne => (entries k).trans (other k hk ne),
    congrArg (fun m => mput m (shownKey t g) s.now) shown, ?_⟩
  rw [rest]

/-! ## Completions (R434) -/

/-- The presentations forgotten at a completion out of order. -/
def State.shownCleared (s : State) (t : Nat) : State :=
  let routed := (List.range 18).filter (fun g => g == 0 || s.rf (Reg.IRQ_GCFG + 4 * g) 11 10 == t + 1)
  { s with irq := { s.irq with shown := routed.foldl (fun m g => mdel m (shownKey t g)) s.irq.shown } }

/-- The record of a completion out of order. -/
def State.orderErr (s : State) (t g top : Nat) : State := s.err fEoiOrder (unitId 0 3) none 0 (g + 2 ^ 8 * top + 2 ^ 16 * t)

theorem State.outOfOrder_eq (s : State) (t g top : Nat) :
    s.outOfOrder t g top = (((s.orderErr t g top).irqStackSet t []).shownCleared t).raise (146 + t) := rfl

theorem mfind_foldl_mdel {α : Type} (m : List (Nat × α)) (ks : List Nat) (j : Nat) :
    mfind (ks.foldl mdel m) j = if j ∈ ks then none else mfind m j := by
  induction ks generalizing m with
  | nil => simp
  | cons k ks ih =>
    rw [List.foldl_cons, ih]
    by_cases same : j = k
    · subst same
      simp
    · simp [same, mfind_mdel_other _ same]

theorem shownKey_inj {t g h : Nat} (hg : g < 18) (hh : h < 18) (same : shownKey t h = shownKey t g) : h = g := by
  unfold shownKey at same
  split at same <;> split at same <;> omega

theorem State.shownCleared_shown (s : State) (t : Nat) {h : Nat} (less : h < 18) : mfind (s.shownCleared t).irq.shown (shownKey t h) =
    if h = 0 ∨ s.rf (Reg.IRQ_GCFG + 4 * h) 11 10 = t + 1 then none else mfind s.irq.shown (shownKey t h) := by
  let routed := (List.range 18).filter (fun g => g == 0 || s.rf (Reg.IRQ_GCFG + 4 * g) 11 10 == t + 1)
  have member : shownKey t h ∈ routed.map (shownKey t) ↔ h = 0 ∨ s.rf (Reg.IRQ_GCFG + 4 * h) 11 10 = t + 1 := by
    constructor
    · intro mem
      obtain ⟨g, hg, same⟩ := List.mem_map.mp mem
      obtain ⟨range, goes⟩ := List.mem_filter.mp hg
      cases shownKey_inj less (List.mem_range.mp range) same
      simpa using goes
    · intro goes
      exact List.mem_map.mpr ⟨h, List.mem_filter.mpr ⟨List.mem_range.mpr less, by simpa using goes⟩, rfl⟩
  have form : (s.shownCleared t).irq.shown = (routed.map (shownKey t)).foldl mdel s.irq.shown := by
    rw [List.foldl_map]
    rfl
  rw [form, mfind_foldl_mdel]
  simp only [member]

theorem State.orderErr_kept (s : State) (t g top : Nat) :
    s.sameButLog (s.orderErr t g top) ∧ sameRegs (recRegs 3) s (s.orderErr t g top) :=
  ⟨State.err_sameButLog .., State.logRec_sameRegs s fEoiOrder _ _ _ _ _⟩

theorem State.sameButLog_irq {s t : State} (h : s.sameButLog t) : t.irq = s.irq := (congrArg State.irq h : _)

theorem State.outOfOrder_effect (s : State) {t : Nat} (two : t < 2) (g top : Nat) : let v := s.outOfOrder t g top
    v.irqStack t = [] ∧
      (∀ h, h < 18 → mfind v.irq.shown (shownKey t h) =
        if h = 0 ∨ s.rf (Reg.IRQ_GCFG + 4 * h) 11 10 = t + 1 then none else mfind s.irq.shown (shownKey t h)) ∧
      v.rb (Reg.IRQ_RAW + 16) (18 + t) = true ∧ ∀ k, k < 3 → k ≠ t → v.irqStack k = s.irqStack k := by
  obtain ⟨kept, regs⟩ := s.orderErr_kept t g top
  have irq := State.sameButLog_irq kept
  have raised : (s.outOfOrder t g top).irq = (((s.orderErr t g top).irqStackSet t []).shownCleared t).irq := by
    rw [State.outOfOrder_eq, State.raise_high _ _ (by omega), State.rawSet_irq]
  have raw : (s.outOfOrder t g top).rb (Reg.IRQ_RAW + 16) (18 + t) = true := by
    have bit := State.rb_raise_high (((s.orderErr t g top).irqStackSet t []).shownCleared t) (src := 146 + t) (by omega)
    have word : (146 + t) / 32 = 4 ∧ (146 + t) % 32 = 18 + t := by omega
    rw [word.1, word.2] at bit
    exact bit
  generalize s.outOfOrder t g top = v at raised raw ⊢
  generalize s.orderErr t g top = e at regs irq raised
  obtain ⟨empty, other, shown⟩ := e.irqStackSet_kept (t := t) (by omega) []
  have regsSet : (e.irqStackSet t []).regs = e.regs := by rw [State.irqStackSet_eq]
  generalize e.irqStackSet t [] = u at empty other shown regsSet raised
  have entries : ∀ k, v.irqStack k = u.irqStack k := fun k =>
    (State.irqStack_congr raised k).trans (show (u.shownCleared t).irqStack k = u.irqStack k from rfl)
  refine ⟨(entries t).trans empty, fun h less => ?_, raw, fun k hk ne => ?_⟩
  · have route : u.rf (Reg.IRQ_GCFG + 4 * h) 11 10 = s.rf (Reg.IRQ_GCFG + 4 * h) 11 10 := by
      rw [rf_of_regs regsSet]
      refine sameRegs_rf regs ?_ 11 10
      simp only [recRegs, List.mem_cons, List.not_mem_nil, or_false, not_or, Reg.IRQ_GCFG, Reg.ERR_CLASS, Reg.ERR_LOST, Reg.IRQ_RAW]
      omega
    rw [raised, u.shownCleared_shown t less, route, shown, irq]
  · rw [entries k, other k hk ne, State.irqStack_congr irq]

theorem State.complete_top {s : State} {t g : Nat} {e : StackEnt} {rest : List StackEnt} (stack : s.irqStack t = e :: rest)
    (top : e.group = g) : s.complete t g = s.irqStackSet t rest := by
  unfold State.complete
  simp only [stack]
  exact if_pos top

theorem State.complete_other {s : State} {t g : Nat} (other : ∀ e rest, s.irqStack t = e :: rest → e.group ≠ g) :
    ∃ top, s.complete t g = s.outOfOrder t g top := by
  cases stack : s.irqStack t with
  | nil =>
    refine ⟨0x1F, ?_⟩
    unfold State.complete
    simp only [stack]
  | cons e rest =>
    refine ⟨e.group, ?_⟩
    unfold State.complete
    simp only [stack]
    exact if_neg (other e rest stack)

theorem exec_eoi {f : Func} {s : State} (ready : s.mustWait (portOf f) = false) (pf : isPf f = true) (t : Fin 2) (g : BitVec 5) :
    exec (.eoi f t g) s = .next (s.complete t.val g.toNat) :=
  congrArg Host.Outcome.next ((State.inOrder_of_ready ready ..).trans (if_pos pf))

/-! ## Firmware completes a group -/

/-- The state of one sensor reported to the receiver, where there is one. -/
def State.sensorReported (s u : State) (x : Nat) : State :=
  let was := mget u.mgmt.states x 0
  let u := if s.mgmt.receiver.isSome then (u.send (.event x (s.sensorState x) was)).callAlert else u
  { u with mgmt := { u.mgmt with states := mset u.mgmt.states x (s.sensorState x) 0 } }

/-- Only what is sent and shown to the controller, and the states last reported, differ. -/
def State.reports (s t : State) : Prop :=
  t = { s with outbox := t.outbox, pins := { s.pins with alert := t.pins.alert }, mgmt := { s.mgmt with states := t.mgmt.states } }

theorem State.reports.refl (s : State) : s.reports s := rfl

theorem State.reports.trans {s t u : State} (h : s.reports t) (k : t.reports u) : s.reports u := by
  refine Eq.trans k ?_
  rw [h]

theorem State.callAlert_reports (s : State) : s.reports s.callAlert := by
  unfold State.callAlert
  split <;> rfl

theorem State.sensorReported_reports (s u : State) (x : Nat) : u.reports (s.sensorReported u x) := by
  unfold State.sensorReported
  dsimp only
  have sent : u.reports (if s.mgmt.receiver.isSome then (u.send (.event x (s.sensorState x) (mget u.mgmt.states x 0))).callAlert else u) := by
    split
    · exact (show u.reports (u.send _) from rfl).trans (State.callAlert_reports _)
    · exact .refl u
  generalize (if s.mgmt.receiver.isSome then (u.send (.event x (s.sensorState x) (mget u.mgmt.states x 0))).callAlert else u) = v
    at sent ⊢
  exact sent.trans rfl

/-- Without a receiver nothing is sent. -/
theorem State.sensorReported_silent {s : State} (none_ : s.mgmt.receiver = none) (u : State) (x : Nat) :
    (s.sensorReported u x).outbox = u.outbox ∧ (s.sensorReported u x).pins = u.pins := by
  simp [State.sensorReported, none_]

/-- In SMBus mode the alert is asserted with every report. -/
theorem State.sensorReported_alert {s : State} (some_ : s.mgmt.receiver ≠ none) {u : State} (bus : u.mgmt.i3c = none) (x : Nat) :
    (s.sensorReported u x).pins.alert = true := by
  have sends : s.mgmt.receiver.isSome = true := Option.isSome_iff_ne_none.mpr some_
  have alert : ∀ m, ((u.send m).callAlert).pins.alert = true := fun m => by
    have mode : (u.send m).mgmt.i3c = none := bus
    simp only [State.callAlert, mode]
    rfl
  simp only [State.sensorReported, sends, if_true]
  exact alert _

theorem State.foldl_reports (s : State) (xs : List Nat) (u : State) : u.reports (xs.foldl s.sensorReported u) :=
  foldl_related State.reports.refl State.reports.trans s.sensorReported_reports xs u

theorem State.foldl_silent {s : State} (none_ : s.mgmt.receiver = none) (xs : List Nat) (u : State) :
    (xs.foldl s.sensorReported u).outbox = u.outbox ∧ (xs.foldl s.sensorReported u).pins = u.pins := by
  induction xs generalizing u with
  | nil => exact ⟨rfl, rfl⟩
  | cons x xs ih =>
    obtain ⟨outbox, pins⟩ := ih (s.sensorReported u x)
    obtain ⟨outbox1, pins1⟩ := State.sensorReported_silent none_ u x
    exact ⟨outbox.trans outbox1, pins.trans pins1⟩

theorem State.foldl_alert {s : State} (some_ : s.mgmt.receiver ≠ none) {u : State} (bus : u.mgmt.i3c = none) (x : Nat) (xs : List Nat) :
    ((x :: xs).foldl s.sensorReported u).pins.alert = true := by
  induction xs generalizing u x with
  | nil => exact State.sensorReported_alert some_ bus x
  | cons y ys ih =>
    have mode : (s.sensorReported u x).mgmt.i3c = none := by rw [s.sensorReported_reports u x]; exact bus
    exact ih mode y

/-- The sensors reported for a group: those whose state changed, or the first. -/
def State.reportedSensors (s : State) (g : Nat) : List Nat :=
  let all := groupSensors g
  let changed := all.filter (fun x => s.sensorState x != mget s.mgmt.states x 0)
  if changed.isEmpty then all.take 1 else changed

theorem State.reportGroup_eq (s : State) (g : Nat) : s.reportGroup g = (s.reportedSensors g).foldl s.sensorReported s := rfl

theorem State.reportedSensors_some (s : State) {g x : Nat} {xs : List Nat} (sensors : groupSensors g = x :: xs) :
    ∃ y ys, s.reportedSensors g = y :: ys := by
  unfold State.reportedSensors
  dsimp only
  split
  · exact ⟨x, [], by rw [sensors]; rfl⟩
  · next changed => exact List.exists_cons_of_ne_nil (by simpa using changed)

/-- The RAW bits of some sources cleared. -/
def State.rawCleared (s : State) (xs : List Nat) : State :=
  xs.foldl (fun u x => u.rbSet (Reg.IRQ_RAW + 4 * (x / 32)) (x % 32) false) s

theorem State.rawCleared_sameButEvents (s : State) (xs : List Nat) : s.sameButEvents (s.rawCleared xs) :=
  foldl_related (R := State.sameButEvents) (fun _ => rfl) State.sameButEvents.trans
    (fun u _ => u.rfSet_sameButEvents _ _ _ _) xs s

/-- A bit once cleared stays so. -/
theorem State.rb_rawCleared_kept (s : State) (xs : List Nat) {k i : Nat} (off : s.rb k i = false) :
    (s.rawCleared xs).rb k i = false := by
  unfold State.rawCleared
  induction xs generalizing s with
  | nil => exact off
  | cons x xs ih =>
    refine ih _ ?_
    by_cases word : k = Reg.IRQ_RAW + 4 * (x / 32)
    · subst word
      by_cases bit : i = x % 32
      · rw [bit, rb_rbSet_same _ _ _ _ (Nat.mod_lt _ (by decide))]
      · rw [rb_rbSet_bit _ _ _ (Nat.mod_lt _ (by decide)) bit, off]
    · rw [rb_rbSet_other _ _ _ _ word, off]

theorem State.rb_rawCleared (s : State) {xs : List Nat} {x : Nat} (mem : x ∈ xs) :
    (s.rawCleared xs).rb (Reg.IRQ_RAW + 4 * (x / 32)) (x % 32) = false := by
  induction xs generalizing s with
  | nil => cases mem
  | cons y ys ih =>
    cases mem with
    | head =>
      exact State.rb_rawCleared_kept _ ys (rb_rbSet_same _ _ _ _ (Nat.mod_lt _ (by decide)))
    | tail _ mem => exact ih _ mem

/-- The sources that firmware clears for a group. -/
def ownSources (g : Nat) : List Nat := if g = 0 then [148] else groupSources g

theorem exec_firmwareGroupComplete_top {s : State} {g : BitVec 5} {e : StackEnt} {rest : List StackEnt}
    (stack : s.irq.stack2 = e :: rest) (top : e.group = g.toNat) :
    exec (.firmwareGroupComplete g) s = .next (((s.reportGroup g.toNat).rawCleared (ownSources g.toNat)).irqStackSet 2 rest) := by
  have held : (s.irqStack 2).any (fun e => e.group == g.toNat) = true := by
    have stackOf : s.irqStack 2 = e :: rest := stack
    rw [stackOf]
    simp [top]
  refine congrArg Host.Outcome.next ?_
  have cleared : (if (s.irqStack 2).any (fun e => e.group == g.toNat) then
      (ownSources g.toNat).foldl (fun u x => u.rbSet (Reg.IRQ_RAW + 4 * (x / 32)) (x % 32) false) (s.reportGroup g.toNat) else s) =
      (s.reportGroup g.toNat).rawCleared (ownSources g.toNat) := if_pos held
  refine (congrArg (fun u : State => u.complete 2 g.toNat) cleared).trans (State.complete_top ?_ top)
  have irq : ((s.reportGroup g.toNat).rawCleared (ownSources g.toNat)).irq = s.irq := by
    rw [State.rawCleared_sameButEvents, State.reportGroup_eq, s.foldl_reports _ s]
  exact (State.irqStack_congr irq 2).trans stack

/-! ## Vectors of virtual functions (R438) -/

/-- The vector of an enabled function whose port is up sends. -/
theorem State.vectorSends {u : State} {port k v f : Nat} (up : (u.port port).st = .up) (msix : (mget u.host.fns f {}).msix = true)
    (open_ : (mget u.host.fns f {}).fmask = false) (unmasked : u.vecMasked f v = false) :
    (if (u.port port).st ≠ .up || !(mget u.host.fns f {}).msix then u
      else if (mget u.host.fns f {}).fmask || u.vecMasked f v then u.pbaSet f v true
      else u.vfSend port k v) = u.vfSend port k v := by
  simp [up, msix, open_, unmasked]

theorem exec_vfMessage_sends {port : Fin 2} {k : Fin 16} {v : Fin 4} {s : State}
    (waits : (s.vfVec port.val k.val v.val).waiting = true) (up : (s.port port.val).st = .up)
    (msix : (mget s.host.fns (17 * port.val + 1 + k.val) {}).msix = true)
    (open_ : (mget s.host.fns (17 * port.val + 1 + k.val) {}).fmask = false)
    (unmasked : s.vecMasked (17 * port.val + 1 + k.val) v.val = false) :
    exec (.vfMessage port k v) s = .next (((s.at ((s.vfVec port.val k.val v.val).last.getD 0 +
      1000 * (s.vfVec port.val k.val v.val).hold)).vfVecSet port.val k.val v.val
        { s.vfVec port.val k.val v.val with waiting := false }).vfSend port.val k.val v.val) := by
  refine congrArg Host.Outcome.next ((if_neg (by simp [waits])).trans ?_)
  exact State.vectorSends (u := (s.at ((s.vfVec port.val k.val v.val).last.getD 0 +
    1000 * (s.vfVec port.val k.val v.val).hold)).vfVecSet port.val k.val v.val { s.vfVec port.val k.val v.val with waiting := false })
    up msix open_ unmasked

theorem State.vfVec_vfVecSet_same (s : State) (port k v : Nat) (x : VfVec) : (s.vfVecSet port k v x).vfVec port k v = x :=
  mget_mset_same ..

theorem State.vfSend_effect (s : State) (port k v : Nat) : let t := s.vfSend port k v
    t.outbox = .msix port (k + 1) v :: s.outbox ∧ (t.vfVec port k v).waiting = false ∧ (t.vfVec port k v).last = some s.now ∧
      t = { s with irq := t.irq, outbox := t.outbox } := by
  have record : (s.vfSend port k v).vfVec port k v = { last := some s.now, waiting := false, hold := s.vfHoldoff v } :=
    State.vfVec_vfVecSet_same ..
  exact ⟨rfl, by rw [record], by rw [record], rfl⟩

/-- Settles O56: each clause is the effect of one command of the logger, of a target's stack or of a vector. -/
theorem logAndInterrupts : Obligations.LogAndInterrupts := by
  unfold Obligations.LogAndInterrupts
  intro f s
  refine ⟨fun r rest queue => ?_, fun v => fun ready pf => ⟨fun inside => ?_, fun outside => ?_⟩,
    fun t3 => ⟨fun g less on best => ?_, fun off => exec_interruptPresentation_none (State.bestGroup_of_none off)⟩,
    fun t2 g ready pf => ⟨fun e rest stack top => ?_, fun other => ?_⟩,
    fun g e rest stack top => ?_, fun port k v => fun waits up msix open_ unmasked => ?_⟩
  · have due := s.logDue_eq
    have time : ∀ u, s.log.lastAt = some u → s.logDue.now = max s.now (u + 100) := fun u last => by
      simp only [State.logDue, last]
      rfl
    have regs : s.logDue.regs = s.regs := by rw [due]
    have log : s.logDue.log = s.log := by rw [due]
    obtain ⟨kept, logT, head, seq, tail, lost⟩ := State.appendNext_effect (s := s.logDue) (by rw [log]; exact queue)
    obtain ⟨_, _, room, roomLost, _⟩ := s.logDue.roomMade_kept
    refine ⟨_, exec_logAppend_takes queue, ?_⟩
    rw [room] at tail
    rw [roomLost] at lost
    simp only [State.asAppended, rf_of_regs regs, log] at logT head seq tail lost
    have now := State.sameButLog_now kept
    generalize s.logDue.appendNext = t at kept logT head seq tail lost now ⊢
    refine ⟨by rw [logT], by rw [logT], ?_, head, seq, tail, lost, fun i ne => ?_, fun u last => now.trans (time u last), ?_⟩
    · rw [logT]
      exact mfind_mput_same ..
    · rw [logT]
      exact mfind_mput_other _ _ ne
    · exact (congrArg (fun x : State => { x with now := s.now, regs := s.regs, setAt := s.setAt, log := s.log }) kept).trans (by rw [due])
  · rw [exec_errTailWrite ready pf, if_pos inside]
    exact ⟨_, rfl, (rf_rfSet_same _ _ _ _ _ (by decide) (by decide)).trans (Nat.mod_eq_of_lt (Nat.mod_lt _ (by decide))),
      (s.rfSet_sameButEvents ..).onlyRegs (sameRegs_rfSet _ _ _ _ _)⟩
  · rw [exec_errTailWrite ready pf, if_neg (by omega)]
  · obtain ⟨top, other, shown, rest⟩ := s.groupShown_kept t3.isLt g
    refine ⟨_, exec_interruptPresentation_best (State.bestGroup_of_first less on best), ?_⟩
    generalize s.groupShown t3.val g = u at top other shown rest ⊢
    have outbox : u.outbox = s.outbox := by rw [rest]
    have sent : ∀ m, (u.send m).irq = u.irq ∧ (u.send m).outbox = m :: s.outbox ∧ { u.send m with irq := s.irq, outbox := s.outbox } = s :=
      fun m => ⟨rfl, congrArg (m :: ·) outbox, by rw [rest]; rfl⟩
    have kept : ∀ t : State, t.irq = u.irq → t.irqStack t3.val = ⟨g, s.groupPrio g⟩ :: s.irqStack t3.val ∧
        mfind t.irq.shown (shownKey t3.val g) = some s.now ∧
        (∀ k, k ≠ shownKey t3.val g → mfind t.irq.shown k = mfind s.irq.shown k) ∧
        ∀ k, k < 3 → k ≠ t3.val → t.irqStack k = s.irqStack k := fun t irq => by
      refine ⟨(State.irqStack_congr irq _).trans top, ?_, fun k ne => ?_, fun k hk ne => (State.irqStack_congr irq k).trans (other k hk ne)⟩
      · rw [irq, shown, mfind_mput_same]
      · rw [irq, shown, mfind_mput_other _ _ ne]
    by_cases host : t3.val < 2
    · obtain ⟨irq, out, frame⟩ := sent (.msix t3.val 0 (s.groupVector g))
      rw [if_pos host, if_pos host]
      obtain ⟨a, b, c, d⟩ := kept _ irq
      exact ⟨a, b, c, out, d, frame⟩
    · rw [if_neg host, if_neg host]
      obtain ⟨a, b, c, d⟩ := kept _ rfl
      exact ⟨a, b, c, outbox, d, by rw [rest]⟩
  · obtain ⟨pop, others, _⟩ := s.irqStackSet_kept (t := t2.val) (by omega) rest
    have frame := s.irqStackSet_eq t2.val rest
    refine ⟨_, (exec_eoi ready pf t2 g).trans (congrArg _ (State.complete_top stack top)), pop, others, ?_⟩
    generalize s.irqStackSet t2.val rest = t at frame ⊢
    rw [frame]
  · obtain ⟨top, out⟩ := State.complete_other other
    obtain ⟨empty, shown, raw, others⟩ := s.outOfOrder_effect t2.isLt g.toNat top
    exact ⟨_, (exec_eoi ready pf t2 g).trans (congrArg _ out), empty, shown, raw, others⟩
  · refine ⟨_, exec_firmwareGroupComplete_top stack top, ?_⟩
    have reports := s.foldl_reports (s.reportedSensors g.toNat) s
    have silent := fun none_ => State.foldl_silent (s := s) none_ (s.reportedSensors g.toNat) s
    have alert : ∀ x xs, s.mgmt.receiver ≠ none → groupSensors g.toNat = x :: xs → s.mgmt.i3c = none →
        ((s.reportedSensors g.toNat).foldl s.sensorReported s).pins.alert = true := fun x xs some_ sensors bus => by
      obtain ⟨y, ys, form⟩ := s.reportedSensors_some sensors
      rw [form]
      exact State.foldl_alert some_ bus y ys
    rw [State.reportGroup_eq]
    generalize (s.reportedSensors g.toNat).foldl s.sensorReported s = u at reports silent alert ⊢
    have events := u.rawCleared_sameButEvents (ownSources g.toNat)
    have cleared := fun x mem => u.rb_rawCleared (xs := ownSources g.toNat) (x := x) mem
    generalize u.rawCleared (ownSources g.toNat) = v at events cleared ⊢
    have irq : v.irq = s.irq := by rw [events, reports]
    have outbox : v.outbox = u.outbox := by rw [events]
    have pins : v.pins = u.pins := by rw [events]
    have pinsU : u.pins = { s.pins with alert := u.pins.alert } := by rw [reports]
    have log : v.log = s.log := by rw [events, reports]
    refine ⟨rfl, ?_, ?_, fun x mem => cleared x mem, fun none_ => ?_, log, fun x xs some_ sensors bus => ?_⟩
    · exact (show (v.irqStackSet 2 rest).irq.stack0 = v.irq.stack0 from rfl).trans (by rw [irq])
    · exact (show (v.irqStackSet 2 rest).irq.stack1 = v.irq.stack1 from rfl).trans (by rw [irq])
    · exact ⟨outbox.trans (silent none_).1, pins.trans (silent none_).2⟩
    · refine pins.trans (pinsU.trans ?_)
      rw [alert x xs some_ sensors bus]
  · refine ⟨_, exec_vfMessage_sends waits up msix open_ unmasked, ?_⟩
    obtain ⟨u, hu⟩ : ∃ u, u = (s.at ((s.vfVec port.val k.val v.val).last.getD 0 +
      1000 * (s.vfVec port.val k.val v.val).hold)).vfVecSet port.val k.val v.val
        { s.vfVec port.val k.val v.val with waiting := false } := ⟨_, rfl⟩
    have rest : u = { s with now := u.now, irq := u.irq } := by rw [hu]; rfl
    have now : u.now = max s.now ((s.vfVec port.val k.val v.val).last.getD 0 + 1000 * (s.vfVec port.val k.val v.val).hold) := by
      rw [hu]; rfl
    rw [← hu]
    obtain ⟨outbox, waiting, last, frame⟩ := u.vfSend_effect port.val k.val v.val
    generalize u.vfSend port.val k.val v.val = t at outbox waiting last frame ⊢
    have nowT : t.now = u.now := by rw [frame]
    refine ⟨nowT.trans now, outbox.trans (by rw [rest]), waiting, last.trans (by rw [nowT]), ?_⟩
    rw [frame, rest]

end Sys2Proof.Machine

/-! # The management target (R385 to R387) -/

namespace Sys2Proof.Machine

/-- What a sensor, an effecter or a record of the repository answers. -/
def State.pldmAnswer (s : State) : PldmGet → Reply
  | .setEid e => { value := e.toNat }
  | .sensor id => match s.sensorValue id with
    | some v => { value := v }
    | none => { code := 0x80 }
  | .effecter id => if id = 1 then { value := s.mgmt.limit } else { code := 0x80 }
  | .pdr n => match s.pdrs[n]? with
    | some x => { value := x.id, data := x.toBytes }
    | none => { code := 0x80 }

/-- A read answers, and the alert is over. -/
def State.pldmRead (s : State) (r : Reply) : State := ({ s with free := s.free + 1 } : State).alertOver.answer r

theorem exec_pldmSensorRead {q : PldmGet} (reads : ∀ e, q ≠ .setEid e) (s : State) :
    exec (.pldmSensorRead q) s = .next (s.pldmRead (s.pldmAnswer q)) := by
  cases q with
  | setEid e => exact absurd rfl (reads e)
  | sensor id => rfl
  | effecter id => rfl
  | pdr n => rfl

/-- A request for a reading answers it, and nothing else changes. -/
def State.reading (s : State) (q : PldmGet) (r : Reply) : Prop := ∃ t, exec (.pldmSensorRead q) s = .next t ∧ t.reply = r ∧
  t.pins.alert = false ∧ { t with reply := s.reply, free := s.free, pins := s.pins } = s

theorem State.reading_of_answer {s : State} {q : PldmGet} (reads : ∀ e, q ≠ .setEid e) {r : Reply} (answer : s.pldmAnswer q = r) :
    s.reading q r := ⟨_, exec_pldmSensorRead reads s, answer, rfl, rfl⟩

theorem State.reading_sensor {s : State} {id v : Nat} (value : s.sensorValue id = some v) : s.reading (.sensor id) { value := v } :=
  State.reading_of_answer (by simp) (by simp only [State.pldmAnswer, value])

/-! ## Sensors -/

theorem State.sensorValue_die (s : State) {id : Nat} (h : id < 22) :
    s.sensorValue id = if s.dieFitted id then some (tempWord (s.die id).govern) else none := if_pos h

theorem State.sensorValue_stack (s : State) {id : Nat} (h : 32 ≤ id ∧ id < 44) : (s.sensorValue id).isSome = s.fitted (id - 32) := by
  unfold State.sensorValue
  rw [if_neg (by omega), if_pos h]
  cases s.fitted (id - 32) with
  | true => rfl
  | false => rfl

theorem State.sensorValue_link (s : State) {k : Nat} (h : k < 64) :
    s.sensorValue (128 + k) = if linkFitted s k then some (linkCode (s.link k).st) else none := by
  have state : s.sensorState (128 + k) = linkCode (s.link k).st := by
    unfold State.sensorState
    rw [if_neg (by omega), if_neg (by omega), if_neg (by omega), if_pos (by omega), Nat.add_sub_cancel_left]
  unfold State.sensorValue
  rw [if_neg (by omega), if_neg (by omega)]
  split
  · omega
  · omega
  · omega
  · omega
  · rw [if_pos (by omega), Nat.add_sub_cancel_left, state]

theorem State.sensorValue_dowel (s : State) {k : Nat} (h : k < 11) : (s.sensorValue (256 + k)).isSome = s.dowelPresent k := by
  unfold State.sensorValue
  rw [if_neg (by omega), if_neg (by omega)]
  split
  · omega
  · omega
  · omega
  · omega
  · rw [if_neg (by omega), if_pos (by omega), Nat.add_sub_cancel_left]
    cases s.dowelPresent k with
    | true => rfl
    | false => rfl

/-- The ids that name a sensor of R386: dies, stacks, the four of J1, spline links, dowel links. -/
theorem sensorId_cases (id : Nat) : id < 22 ∨ (32 ≤ id ∧ id < 44) ∨ (64 ≤ id ∧ id < 68) ∨ (∃ k, k < 64 ∧ id = 128 + k) ∨
    (∃ k, k < 11 ∧ id = 256 + k) ∨
    (22 ≤ id ∧ ¬(32 ≤ id ∧ id < 44) ∧ ¬(64 ≤ id ∧ id < 68) ∧ ¬(128 ≤ id ∧ id < 192) ∧ ¬(256 ≤ id ∧ id < 267)) := by
  by_cases link : 128 ≤ id ∧ id < 192
  · exact .inr (.inr (.inr (.inl ⟨id - 128, by omega, by omega⟩)))
  · by_cases dowel : 256 ≤ id ∧ id < 267
    · exact .inr (.inr (.inr (.inr (.inl ⟨id - 256, by omega, by omega⟩))))
    · omega

theorem State.sensorValue_none (s : State) {id : Nat} (h : 22 ≤ id ∧ ¬(32 ≤ id ∧ id < 44) ∧ ¬(64 ≤ id ∧ id < 68) ∧
    ¬(128 ≤ id ∧ id < 192) ∧ ¬(256 ≤ id ∧ id < 267)) : s.sensorValue id = none := by
  unfold State.sensorValue
  rw [if_neg (by omega), if_neg h.2.1]
  split
  · omega
  · omega
  · omega
  · omega
  · rw [if_neg h.2.2.2.1, if_neg h.2.2.2.2]

/-- The numeric sensors that a module has. -/
def State.numericSensors (s : State) : List Nat :=
  (List.range 22).filter s.dieFitted ++ ((List.range 12).filter s.fitted).map (32 + ·) ++ [64, 65, 66, 67]

/-- The state sensors that a module has. -/
def State.stateSensors (s : State) : List Nat :=
  ((List.range 64).filter (fun n => linkFitted s n)).map (128 + ·) ++ ((List.range 11).filter (fun n => s.dowelPresent n)).map (256 + ·)

theorem State.pdrs_eq (s : State) : s.pdrs = s.numericSensors.map (fun x => ⟨x, .numericSensor⟩) ++
    s.stateSensors.map (fun x => ⟨x, .stateSensor⟩) ++ [⟨1, .numericEffecter 1200 3000 1⟩] := rfl

theorem State.sensor_in_pdrs (s : State) (id : Nat) : (∃ x ∈ s.pdrs, x.id = id ∧ (x.kind = .numericSensor ∨ x.kind = .stateSensor)) ↔
    id ∈ s.numericSensors ∨ id ∈ s.stateSensors := by
  rw [State.pdrs_eq]
  constructor
  · rintro ⟨x, mem, rfl, kind⟩
    rw [List.mem_append, List.mem_append, List.mem_map, List.mem_map, List.mem_singleton] at mem
    obtain (⟨n, hn, rfl⟩ | ⟨n, hn, rfl⟩) | rfl := mem
    · exact .inl hn
    · exact .inr hn
    · obtain h | h := kind
      · cases h
      · cases h
  · rintro (num | st)
    · exact ⟨⟨id, .numericSensor⟩, List.mem_append_left _ (List.mem_append_left _ (List.mem_map.mpr ⟨id, num, rfl⟩)), rfl, .inl rfl⟩
    · exact ⟨⟨id, .stateSensor⟩, List.mem_append_left _ (List.mem_append_right _ (List.mem_map.mpr ⟨id, st, rfl⟩)), rfl, .inr rfl⟩

theorem State.mem_sensors (s : State) (id : Nat) : (id ∈ s.numericSensors ∨ id ∈ s.stateSensors) ↔
    (id < 22 ∧ s.dieFitted id = true) ∨ (∃ k, k < 12 ∧ s.fitted k = true ∧ 32 + k = id) ∨ (64 ≤ id ∧ id < 68) ∨
    (∃ k, k < 64 ∧ linkFitted s k = true ∧ 128 + k = id) ∨ (∃ k, k < 11 ∧ s.dowelPresent k = true ∧ 256 + k = id) := by
  have four : (id = 64 ∨ id = 65 ∨ id = 66 ∨ id = 67) ↔ (64 ≤ id ∧ id < 68) := by omega
  simp only [State.numericSensors, State.stateSensors, List.mem_append, List.mem_map, List.mem_filter, List.mem_range, List.mem_cons,
    List.not_mem_nil, or_false, four, or_assoc, and_assoc]

/-- The sensors that can be read are those with a record. -/
theorem State.sensorValue_isSome (s : State) (id : Nat) :
    (s.sensorValue id).isSome = true ↔ id ∈ s.numericSensors ∨ id ∈ s.stateSensors := by
  rw [s.mem_sensors id]
  obtain die | stack | input | ⟨k, hk, rfl⟩ | ⟨k, hk, rfl⟩ | other := sensorId_cases id
  · rw [s.sensorValue_die die]
    constructor
    · intro some_
      refine .inl ⟨die, ?_⟩
      cases fitted : s.dieFitted id with
      | true => rfl
      | false => simp [fitted] at some_
    · rintro (⟨_, fitted⟩ | ⟨k, _, _, same⟩ | range | ⟨k, _, _, same⟩ | ⟨k, _, _, same⟩)
      · simp [fitted]
      · omega
      · omega
      · omega
      · omega
  · rw [s.sensorValue_stack stack]
    constructor
    · exact fun fitted => .inr (.inl ⟨id - 32, by omega, fitted, by omega⟩)
    · rintro (⟨range, _⟩ | ⟨k, _, fitted, rfl⟩ | range | ⟨k, _, _, same⟩ | ⟨k, _, _, same⟩)
      · omega
      · rwa [Nat.add_sub_cancel_left]
      · omega
      · omega
      · omega
  · obtain rfl | rfl | rfl | rfl : id = 64 ∨ id = 65 ∨ id = 66 ∨ id = 67 := by omega
    · exact ⟨fun _ => .inr (.inr (.inl (by decide))), fun _ => rfl⟩
    · exact ⟨fun _ => .inr (.inr (.inl (by decide))), fun _ => rfl⟩
    · exact ⟨fun _ => .inr (.inr (.inl (by decide))), fun _ => rfl⟩
    · exact ⟨fun _ => .inr (.inr (.inl (by decide))), fun _ => rfl⟩
  · rw [s.sensorValue_link hk]
    constructor
    · intro some_
      refine .inr (.inr (.inr (.inl ⟨k, hk, ?_, rfl⟩)))
      cases fitted : linkFitted s k with
      | true => rfl
      | false => simp [fitted] at some_
    · rintro (⟨range, _⟩ | ⟨j, _, _, same⟩ | range | ⟨j, _, fitted, same⟩ | ⟨j, _, _, same⟩)
      · omega
      · omega
      · omega
      · cases Nat.add_left_cancel same
        simp [fitted]
      · omega
  · rw [s.sensorValue_dowel hk]
    constructor
    · exact fun present => .inr (.inr (.inr (.inr ⟨k, hk, present, rfl⟩)))
    · rintro (⟨range, _⟩ | ⟨j, _, _, same⟩ | range | ⟨j, _, _, same⟩ | ⟨j, _, present, same⟩)
      · omega
      · omega
      · omega
      · omega
      · cases Nat.add_left_cancel same
        exact present
  · rw [s.sensorValue_none other]
    constructor
    · exact fun some_ => by cases some_
    · rintro (⟨range, _⟩ | ⟨k, _, _, same⟩ | range | ⟨k, _, _, same⟩ | ⟨k, _, _, same⟩)
      · omega
      · omega
      · omega
      · omega
      · omega

/-! ## The power limit of the controller -/

theorem exec_setLimit_taken {s : State} {watts : Nat} (least : 1200 ≤ watts) (most : watts ≤ 3000) :
    exec (.setNumericEffecterValue 1 watts) s =
      .next ((({ s with mgmt := { s.mgmt with limit := watts } } : State).limitUpdate).answer {}) :=
  congrArg Host.Outcome.next ((if_neg (by simp)).trans (if_neg (by omega)))

theorem exec_setLimit_refused {s : State} {watts : Nat} (outside : watts < 1200 ∨ 3000 < watts) :
    exec (.setNumericEffecterValue 1 watts) s = .next (s.answer { code := 2 }) :=
  congrArg Host.Outcome.next ((if_neg (by simp)).trans (if_pos outside))

/-- Settles O50: a read is one answer function over sensors, effecter and records; the sensors that answer are those with a record. -/
theorem managementTarget : Obligations.ManagementTarget := by
  unfold Obligations.ManagementTarget
  intro s
  refine ⟨fun a eid => ⟨_, rfl, rfl, ?_, rfl, rfl⟩, fun eid => ⟨_, rfl, rfl, rfl, rfl⟩, ⟨_, rfl, rfl, rfl, rfl⟩,
    fun eid => ⟨_, rfl, rfl, rfl, rfl⟩, State.reading_sensor rfl, State.reading_sensor rfl, fun id less fitted => ?_,
    fun k less fitted => ?_, fun id none_ => ?_, State.reading_of_answer (by simp) rfl, fun i x at_ => ?_, fun id => ?_,
    ⟨⟨1, .numericEffecter 1200 3000 1⟩, ?_, rfl, rfl⟩, fun watts => ⟨fun least most => ?_, fun outside => ?_⟩⟩
  · cases eid with
    | none => rfl
    | some e => rfl
  · exact State.reading_sensor ((s.sensorValue_die less).trans (if_pos fitted))
  · exact State.reading_sensor ((s.sensorValue_link less).trans (if_pos fitted))
  · exact State.reading_of_answer (by simp) (by simp only [State.pldmAnswer, none_])
  · exact State.reading_of_answer (by simp) (by simp only [State.pldmAnswer, at_])
  · rw [s.sensorValue_isSome id, s.sensor_in_pdrs id]
  · rw [State.pdrs_eq]
    exact List.mem_append_right _ (.head _)
  · refine ⟨_, exec_setLimit_taken least most, ?_⟩
    have kept := State.limitUpdate_sameButRegs { s with mgmt := { s.mgmt with limit := watts } }
    generalize ({ s with mgmt := { s.mgmt with limit := watts } } : State).limitUpdate = t at kept ⊢
    rw [kept]
    exact ⟨rfl, rfl, rfl, rfl, rfl⟩
  · exact ⟨_, exec_setLimit_refused outside, rfl, rfl⟩

end Sys2Proof.Machine

/-! # The SPDM responder (R374, R456 to R458) -/

namespace Sys2Proof.Machine

theorem transportIx_inj {a b : Transport} (same : transportIx a = transportIx b) : a = b := by
  cases a with
  | mctp =>
    cases b with
    | mctp => rfl
    | doe g => simp only [transportIx] at same; omega
  | doe f =>
    cases b with
    | mctp => simp only [transportIx] at same; omega
    | doe g => rw [fnIx_injective (Nat.add_left_cancel same)]

theorem State.spdm_spdmSet_same (s : State) (tr : Transport) (x : Spdm) : (s.spdmSet tr x).spdm tr = x := mget_mset_same ..

theorem State.spdm_spdmSet_other (s : State) {tr q : Transport} (h : q ≠ tr) (x : Spdm) : (s.spdmSet tr x).spdm q = s.spdm q :=
  mget_mset_other _ _ _ _ (fun same => h (transportIx_inj same))

/-! ## What an answer leaves -/

/-- Only the exchange of one transport, and the count of free values, differ. -/
structure State.exchanges (tr : Transport) (s t : State) : Prop where
  other : ∀ q, q ≠ tr → t.spdm q = s.spdm q
  rest : { t with esc := s.esc, free := s.free } = s
  esc : { t.esc with spdm := s.esc.spdm } = s.esc

theorem State.exchanges.refl (tr : Transport) (s : State) : s.exchanges tr s := ⟨fun _ _ => rfl, rfl, rfl⟩

theorem State.exchanges.trans {tr : Transport} {s t u : State} (h : s.exchanges tr t) (k : t.exchanges tr u) : s.exchanges tr u := by
  refine ⟨fun q ne => (k.other q ne).trans (h.other q ne), ?_, ?_⟩
  · exact (congrArg (fun x : State => { x with esc := s.esc, free := s.free }) k.rest).trans h.rest
  · exact (congrArg (fun x : Esc => { x with spdm := s.esc.spdm }) k.esc).trans h.esc

theorem State.exchanges_spdmSet (s : State) (tr : Transport) (x : Spdm) : s.exchanges tr (s.spdmSet tr x) :=
  ⟨fun _ ne => s.spdm_spdmSet_other ne x, rfl, rfl⟩

theorem State.exchanges_free (s : State) (tr : Transport) (n : Nat) : s.exchanges tr { s with free := n } := ⟨fun _ _ => rfl, rfl, rfl⟩

/-- The function whose mailbox carries a transport's messages. -/
def transportFn : Transport → Option Func
  | .doe f => some f
  | .mctp => none

/-- A message goes out, and the exchange of its transport becomes `y`. -/
def State.carries (s : State) (tr : Transport) (m : List Byte) (y : Spdm) (t : State) : Prop :=
  t.outbox = .spdm (transportFn tr) (spdmWire tr m) :: s.outbox ∧ t.spdm tr = y ∧ (∀ q, q ≠ tr → t.spdm q = s.spdm q) ∧
    { t with outbox := s.outbox, esc := s.esc, free := s.free } = s ∧ { t.esc with spdm := s.esc.spdm } = s.esc

theorem State.spdmSend_eq (s : State) (tr : Transport) (m : List Byte) : s.spdmSend tr m = s.send (.spdm (transportFn tr) (spdmWire tr m)) := by
  cases tr <;> rfl

theorem State.carries_send {s u : State} {tr : Transport} {y : Spdm} (h : s.exchanges tr u) (exchange : u.spdm tr = y) (m : List Byte) :
    s.carries tr m y (u.spdmSend tr m) := by
  rw [State.spdmSend_eq]
  have outbox : u.outbox = s.outbox := by rw [← h.rest]
  refine ⟨congrArg (fun x => Out.spdm (transportFn tr) (spdmWire tr m) :: x) outbox, exchange, h.other, ?_, h.esc⟩
  exact (congrArg (fun x : State => { x with outbox := s.outbox }) h.rest :)

theorem State.carries_error (s : State) (tr : Transport) (code : Nat) : s.carries tr (errorMsg code) (s.spdm tr) (s.spdmError tr code) :=
  State.carries_send (.refl tr s) rfl _

/-- An answer enters the transcript of its part. -/
theorem State.carries_answer {s u : State} {tr : Transport} (h : s.exchanges tr u) (part : SpdmPart) (req resp : List Byte) :
    s.carries tr resp ((u.spdm tr).note part (req ++ resp)) (u.spdmAnswer tr part req resp) :=
  State.carries_send (h.trans (u.exchanges_spdmSet tr _)) (u.spdm_spdmSet_same tr _) resp

/-- The exchange after a signed response of a part. -/
def Spdm.signedAt (x : Spdm) (part : SpdmPart) (h : Nat) : Spdm :=
  match part with
  | .measures => { x with measures := [], signed := some h }
  | _ => { x with certs := [], signed := some h }

theorem State.spdmSigned_eq (s : State) (tr : Transport) (part : SpdmPart) (req resp : List Byte) :
    s.spdmSigned tr part req resp = (s.spdmSet tr ((s.spdm tr).signedAt part ((s.spdm tr).hash part req resp))).spdmSend tr
      (resp ++ leBytes (Config.identity 1 ((s.spdm tr).hash part req resp)) 384) := by
  cases part <;> rfl

theorem State.carries_signed {s u : State} {tr : Transport} (h : s.exchanges tr u) (part : SpdmPart) (req resp : List Byte) :
    s.carries tr (resp ++ leBytes (Config.identity 1 ((u.spdm tr).hash part req resp)) 384)
      ((u.spdm tr).signedAt part ((u.spdm tr).hash part req resp)) (u.spdmSigned tr part req resp) := by
  rw [State.spdmSigned_eq]
  exact State.carries_send (h.trans (u.exchanges_spdmSet tr _)) (u.spdm_spdmSet_same tr _) _

/-! ## Requests at their stage -/

section
variable {s : State} (boot : s.esc.boot = 0)
include boot

theorem State.spdmTake_reached {tr : Transport} {n : Nat} (reached : n ≤ (s.spdm tr).stage) (body : State → State) :
    s.spdmTake tr n body = body s := (if_neg (by simp [boot])).trans (if_neg (by omega))

theorem State.spdmTake_early {tr : Transport} {n : Nat} (early : (s.spdm tr).stage < n) (body : State → State) :
    s.spdmTake tr n body = s.spdmError tr 4 := (if_neg (by simp [boot])).trans (if_pos early)

end

/-- A command that carries a message answers as the statement of the exchange says. -/
def State.sends (s : State) (tr : Transport) (c : Instr) (m : List Byte) (y : Spdm) : Prop :=
  ∃ t, exec c s = .next t ∧ s.carries tr m y t

theorem State.sends_of_next {s t : State} {tr : Transport} {c : Instr} {m : List Byte} {y : Spdm} (run : exec c s = .next t)
    (carried : s.carries tr m y t) : s.sends tr c m y := ⟨t, run, carried⟩

/-- A request of the opening answered at its stage. -/
theorem State.carries_stage (s : State) (tr : Transport) (n : Nat) (req resp : List Byte) :
    s.carries tr resp { s.spdm tr with stage := max n (s.spdm tr).stage, opening := (s.spdm tr).opening ++ (req ++ resp) }
      ((s.spdmStage tr n).spdmAnswer tr .opening req resp) := by
  have carried := State.carries_answer (s.exchanges_spdmSet tr { s.spdm tr with stage := max n (s.spdm tr).stage }) .opening req resp
  rw [State.spdm_spdmSet_same] at carried
  exact carried

section
variable {s : State} {tr : Transport} (boot : s.esc.boot = 0)
include boot

theorem sends_getVersion : let hello : List Byte := [0x10, 0x04, 0, 0, 0, 1, 0x00, 0x13]
    s.sends tr (.getVersion tr) hello { signed := (s.spdm tr).signed, stage := 1, opening := [0x10, 0x84, 0, 0] ++ hello } := by
  refine State.sends_of_next (congrArg Host.Outcome.next (State.spdmTake_reached boot (Nat.zero_le _) _)) ?_
  have carried := State.carries_answer (s.exchanges_spdmSet tr { signed := (s.spdm tr).signed, stage := 1 }) .opening
    [0x10, 0x84, 0, 0] [0x10, 0x04, 0, 0, 0, 1, 0x00, 0x13]
  rw [State.spdm_spdmSet_same] at carried
  exact carried

theorem sends_getCapabilities (reached : 1 ≤ (s.spdm tr).stage) : ∃ body : List Byte, body.length = 16 ∧
    (body.drop 4).take 4 = leBytes 0x16 4 ∧ s.sends tr (.getCapabilities tr) (spdmMsg 0x61 0 0 body)
      { s.spdm tr with
        stage := max 2 (s.spdm tr).stage
        opening := (s.spdm tr).opening ++ (spdmMsg 0xE1 0 0 [] ++ spdmMsg 0x61 0 0 body) } := by
  refine ⟨_, ?_, ?_, State.sends_of_next (congrArg Host.Outcome.next (State.spdmTake_reached boot reached _))
    (s.carries_stage tr 2 _ _)⟩
  · simp only [List.length_append, length_leBytes, List.length_cons, List.length_nil]
  · have prefix_ : ([0] ++ leBytes (Config.identity 8 0) 1 ++ [0, 0] : List Byte).length = 4 := by
      simp only [List.length_append, length_leBytes, List.length_cons, List.length_nil]
    rw [List.append_assoc, List.append_assoc, List.drop_left' prefix_, List.take_left' (length_leBytes _ _)]

theorem sends_negotiateAlgorithms (reached : 2 ≤ (s.spdm tr).stage) :
    let resp := spdmMsg 0x63 0 0 (leBytes 36 2 ++ [1, 0] ++ leBytes 4 4 ++ leBytes 8 4 ++ leBytes 2 4 ++ List.replicate 16 0)
    s.sends tr (.negotiateAlgorithms tr true true) resp
      { s.spdm tr with stage := max 3 (s.spdm tr).stage, opening := (s.spdm tr).opening ++ (spdmMsg 0xE3 0 0 [] ++ resp) } :=
  State.sends_of_next (congrArg Host.Outcome.next (State.spdmTake_reached boot reached _)) (s.carries_stage tr 3 _ _)

theorem fails_negotiateAlgorithms (reached : 2 ≤ (s.spdm tr).stage) {a b : Bool} (other : (a && b) = false) :
    s.sends tr (.negotiateAlgorithms tr a b) (errorMsg 1) (s.spdm tr) :=
  State.sends_of_next (congrArg Host.Outcome.next ((State.spdmTake_reached boot reached _).trans (if_neg (by simp [other]))))
    (s.carries_error tr 1)

variable (reached : 3 ≤ (s.spdm tr).stage)
include reached

theorem sends_getDigests : let resp := spdmMsg 0x01 1 1 (sha384.hash (Config.certChain true))
    s.sends tr (.getDigests tr) resp { s.spdm tr with certs := (s.spdm tr).certs ++ (spdmMsg 0x81 0 0 [] ++ resp) } :=
  State.sends_of_next (congrArg Host.Outcome.next (State.spdmTake_reached boot reached _)) (State.carries_answer (.refl tr s) .certs _ _)

theorem sends_getCertificate (o len : Nat) : let part := ((Config.certChain true).drop o).take (min len 0xFFFF)
    let resp := spdmMsg 0x02 0 0 (leBytes part.length 2 ++ leBytes ((Config.certChain true).length - o - part.length) 2 ++ part)
    s.sends tr (.getCertificate tr 0 o len) resp
      { s.spdm tr with certs := (s.spdm tr).certs ++ (spdmMsg 0x82 0 0 (leBytes o 2 ++ leBytes len 2) ++ resp) } :=
  State.sends_of_next (congrArg Host.Outcome.next ((State.spdmTake_reached boot reached _).trans (if_pos rfl)))
    (State.carries_answer (.refl tr s) .certs _ _)

theorem fails_otherSlot {slot : BitVec 8} (other : slot ≠ 0) (o len : Nat) (nonce : BitVec 256) :
    s.sends tr (.getCertificate tr slot o len) (errorMsg 1) (s.spdm tr) ∧
      s.sends tr (.challenge tr slot nonce) (errorMsg 1) (s.spdm tr) :=
  ⟨State.sends_of_next (congrArg Host.Outcome.next ((State.spdmTake_reached boot reached _).trans (if_neg other))) (s.carries_error tr 1),
    State.sends_of_next (congrArg Host.Outcome.next ((State.spdmTake_reached boot reached _).trans (if_neg other))) (s.carries_error tr 1)⟩

theorem sends_challenge (nonce : BitVec 256) :
    let req := spdmMsg 0x83 0 0 (leBytes nonce.toNat 32)
    let resp := spdmMsg 0x03 0 1 (sha384.hash (Config.certChain true) ++ s.nonce ++ [0, 0])
    let h := shaNum ((s.spdm tr).opening ++ (s.spdm tr).certs ++ req ++ resp)
    s.sends tr (.challenge tr 0 nonce) (resp ++ leBytes (Config.identity 1 h) 384) { s.spdm tr with certs := [], signed := some h } :=
  State.sends_of_next (congrArg Host.Outcome.next ((State.spdmTake_reached boot reached _).trans (if_pos rfl)))
    (State.carries_signed (s.exchanges_free tr (s.free + 1)) .certs _ _)

/-- The measurements that an index asks for. -/
def State.asked (s : State) (tr : Transport) (i : Nat) : List Byte :=
  if i = 0 then s.measureMsg (measureSeen tr).length []
  else if i = 255 then s.measureMsg 0 (measureSeen tr) else s.measureMsg 0 [i]

end

section
variable {s : State} {tr : Transport} (boot : s.esc.boot = 0) (reached : 3 ≤ (s.spdm tr).stage)
include boot reached

/-- An index that the requester may ask for is answered, signed or not. -/
theorem exec_getMeasurements_seen {index : BitVec 8} (seen : index.toNat = 0 ∨ index.toNat = 255 ∨ index.toNat ∈ measureSeen tr)
    (signed : Bool) (nonce : BitVec 256) :
    let u : State := { s with free := s.free + 1 }
    let req := spdmMsg 0xE0 (b2n signed) index.toNat (if signed then leBytes nonce.toNat 32 ++ [0] else [])
    exec (.getMeasurements tr index signed nonce) s = .next (if signed then u.spdmSigned tr .measures req (s.asked tr index.toNat)
      else u.spdmAnswer tr .measures req (s.asked tr index.toNat)) := by
  refine congrArg Host.Outcome.next ((State.spdmTake_reached boot reached _).trans ?_)
  unfold State.asked
  by_cases none_ : index.toNat = 0
  · simp only [if_pos none_]
  · by_cases all : index.toNat = 255
    · simp only [if_neg none_, if_pos all]
    · have one : (measureSeen tr).contains index.toNat = true :=
        List.contains_iff_mem.mpr ((seen.resolve_left none_).resolve_left all)
      simp only [if_neg none_, if_neg all, one, if_true]

theorem sends_getMeasurements {index : BitVec 8} (seen : index.toNat = 0 ∨ index.toNat = 255 ∨ index.toNat ∈ measureSeen tr)
    (nonce : BitVec 256) :
    let resp := s.asked tr index.toNat
    let h := shaNum ((s.spdm tr).opening ++ (s.spdm tr).measures ++
      spdmMsg 0xE0 1 index.toNat (leBytes nonce.toNat 32 ++ [0]) ++ resp)
    s.sends tr (.getMeasurements tr index false nonce) resp
      { s.spdm tr with measures := (s.spdm tr).measures ++ (spdmMsg 0xE0 0 index.toNat [] ++ resp) } ∧
    s.sends tr (.getMeasurements tr index true nonce) (resp ++ leBytes (Config.identity 1 h) 384)
      { s.spdm tr with measures := [], signed := some h } :=
  ⟨State.sends_of_next (exec_getMeasurements_seen boot reached seen false nonce)
      (State.carries_answer (s.exchanges_free tr (s.free + 1)) .measures _ _),
    State.sends_of_next (exec_getMeasurements_seen boot reached seen true nonce)
      (State.carries_signed (s.exchanges_free tr (s.free + 1)) .measures _ _)⟩

theorem fails_getMeasurements {index : BitVec 8} (some_ : index.toNat ≠ 0) (one : index.toNat ≠ 255)
    (unseen : index.toNat ∉ measureSeen tr) (signed : Bool) (nonce : BitVec 256) :
    s.sends tr (.getMeasurements tr index signed nonce) (errorMsg 1) (s.spdm tr) :=
  State.sends_of_next (congrArg Host.Outcome.next ((State.spdmTake_reached boot reached _).trans
    ((if_neg some_).trans ((if_neg one).trans (if_neg (fun mem => unseen (List.contains_iff_mem.mp mem)))))))
    (s.carries_error tr 1)

end

theorem fails_early {s : State} {tr : Transport} (boot : s.esc.boot = 0) (early : (s.spdm tr).stage < 3) {slot index : BitVec 8}
    {o len : Nat} {nonce : BitVec 256} {signed : Bool} {c : Instr} (mem : c ∈ [Instr.getDigests tr, .getCertificate tr slot o len,
      .challenge tr slot nonce, .getMeasurements tr index signed nonce]) : s.sends tr c (errorMsg 4) (s.spdm tr) := by
  simp only [List.mem_cons, List.not_mem_nil, or_false] at mem
  obtain rfl | rfl | rfl | rfl := mem
  · exact State.sends_of_next (congrArg Host.Outcome.next (State.spdmTake_early boot early _)) (s.carries_error tr 4)
  · exact State.sends_of_next (congrArg Host.Outcome.next (State.spdmTake_early boot early _)) (s.carries_error tr 4)
  · exact State.sends_of_next (congrArg Host.Outcome.next (State.spdmTake_early boot early _)) (s.carries_error tr 4)
  · exact State.sends_of_next (congrArg Host.Outcome.next (State.spdmTake_early boot early _)) (s.carries_error tr 4)

/-! ## Vendor-defined requests (R457) -/

section
variable {s : State} {tr : Transport} (boot : s.esc.boot = 0)
include boot

theorem sends_vendorDefinedRequest {hash : Nat} (signed : (s.spdm tr).signed = some hash) (off : BitVec 32) :
    s.sends tr (.vendorDefinedRequest tr true true 1 off) (vendorMsg (leBytes (Config.identity 4 hash) 35664)) (s.spdm tr) ∧
    ∃ n, s.sends tr (.vendorDefinedRequest tr true true 2 off) (vendorMsg (((Config.certChain false).drop off.toNat).take n))
      (s.spdm tr) := by
  refine ⟨State.sends_of_next (t := s.spdmSend tr (vendorMsg (leBytes (Config.identity 4 hash) 35664))) ?_
      (State.carries_send (.refl tr s) rfl _),
    Config.identity 5 off.toNat % 2 ^ 16, State.sends_of_next (t := s.spdmSend tr (vendorMsg (((Config.certChain false).drop
      off.toNat).take (Config.identity 5 off.toNat % 2 ^ 16)))) ?_ (State.carries_send (.refl tr s) rfl _)⟩
  · refine congrArg Host.Outcome.next ((if_neg (by simp [boot])).trans ?_)
    rw [signed]
    exact if_neg (by decide)
  · refine congrArg Host.Outcome.next ((if_neg (by simp [boot])).trans ?_)
    rw [signed]
    exact if_neg (by decide)

theorem fails_vendorDefinedRequest {a b : Bool} {op : BitVec 8}
    (other : (s.spdm tr).signed = none ∨ (a && b) = false ∨ 3 ≤ op.toNat ∨ op = 0) (off : BitVec 32) :
    s.sends tr (.vendorDefinedRequest tr a b op off) (errorMsg 1) (s.spdm tr) := by
  refine State.sends_of_next (congrArg Host.Outcome.next ((if_neg (by simp [boot])).trans ?_)) (s.carries_error tr 1)
  cases signed : (s.spdm tr).signed with
  | none => rfl
  | some hash =>
    by_cases named : (a && b) = false
    · exact if_pos (by cases a <;> cases b <;> simp_all)
    · refine (if_neg (by cases a <;> cases b <;> simp_all)).trans ?_
      have unknown : op.toNat ≠ 1 ∧ op.toNat ≠ 2 := by
        obtain h | h | h | rfl := other
        · rw [signed] at h; cases h
        · exact absurd h named
        · omega
        · decide
      split
      · next one => exact absurd one unknown.1
      · next two => exact absurd two unknown.2
      · rfl

end

/-- No object of a mailbox is longer than it may be. -/
theorem length_spdmWire_doe (f : Func) (m : List Byte) : (spdmWire (.doe f) m).length ≤ 2 ^ 18 := by
  have errors : (doeObject (errorMsg 0x0D)).length ≤ 2 ^ 18 := by decide
  unfold spdmWire
  dsimp only
  split
  · exact errors
  · next fits => exact Nat.le_of_not_lt fits

/-- Settles O51: every answer of the responder is one message on its transport, which enters the transcript of its part; a signed one
signs the transcript and begins the part anew. -/
theorem attestation : Obligations.Attestation := by
  unfold Obligations.Attestation
  intro tr slot index op nonce off signed a b o len s boot
  refine ⟨sends_getVersion boot, fun reached => sends_getCapabilities boot reached,
    fun reached => ⟨sends_negotiateAlgorithms boot reached, fun other => fails_negotiateAlgorithms boot reached other⟩,
    fun reached => ⟨sends_getDigests boot reached, sends_getCertificate boot reached o len,
      fun other => fails_otherSlot boot reached other o len nonce, sends_challenge boot reached nonce,
      fun seen => sends_getMeasurements boot reached seen nonce,
      fun some_ one unseen => fails_getMeasurements boot reached some_ one unseen signed nonce⟩,
    fun early c mem => fails_early boot early mem, fun hash known => sends_vendorDefinedRequest boot known off,
    fun other => fails_vendorDefinedRequest boot other off, length_spdmWire_doe⟩

end Sys2Proof.Machine

/-! # Sector accesses at a stack, and its upkeep (R257 to R272) -/

namespace Sys2Proof.Machine

/-! ## Bytes of a sector -/

theorem mget_putCells_below (bs : List Byte) (m : List Host.Cell) {a j : Nat} (h : j < a) (d : Byte) : mget (putCells m a bs) j d = mget m j d := by
  induction bs generalizing m a with
  | nil => rfl
  | cons b bs ih => exact (ih _ (Nat.lt_succ_of_lt h)).trans (mget_mput_other _ _ _ (Nat.ne_of_lt h))

theorem mget_putCells_above (bs : List Byte) (m : List Host.Cell) {a j : Nat} (h : a + bs.length ≤ j) (d : Byte) :
    mget (putCells m a bs) j d = mget m j d := by
  induction bs generalizing m a with
  | nil => rfl
  | cons b bs ih =>
    rw [List.length_cons] at h
    exact (ih _ (by omega)).trans (mget_mput_other _ _ _ (by omega))

theorem mget_putCells_inside (bs : List Byte) (m : List Host.Cell) (a : Nat) {i : Nat} (h : i < bs.length) (d : Byte) :
    mget (putCells m a bs) (a + i) d = bs[i] := by
  induction bs generalizing m a i with
  | nil => cases h
  | cons b bs ih =>
    cases i with
    | zero => exact (mget_putCells_below bs _ (Nat.lt_succ_self a) d).trans (mget_mput_same ..)
    | succ i =>
      have next : a + (i + 1) = a + 1 + i := by omega
      rw [next, List.getElem_cons_succ]
      exact ih _ _ (Nat.lt_of_succ_lt_succ h)

/-- The key of the sector that holds an address. -/
def State.sectorKey (s : State) (a : Nat) : Nat := hsecKey (s.hbmPlace a).1 (s.hbmPlace a).2

theorem State.hbmBytes_eq (s : State) (a : Nat) :
    s.hbmBytes a = (List.range 32).map (s.hbmByte (s.keyGen a) (s.sectorKey a)) := rfl

/-- A sector stored under the key in force reads what was stored. -/
theorem State.hbmByte_hbmStore_same (s : State) (k : Nat) {x : HSec} {bs : List Byte} (len : bs.length = 32) {i : Nat} (h : i < 32) :
    (s.hbmStore k x bs).hbmByte x.gen k i = bs[i] := by
  have found : mfind (s.hbmStore k x bs).hbm.secs k = some x := mfind_mput_same ..
  have whole : bs.take 32 = bs := List.take_of_length_le len.le
  have data : (s.hbmStore k x bs).hbm.data = putCells s.hbm.data (32 * k) bs := by rw [← congrArg (putCells s.hbm.data (32 * k)) whole]; rfl
  unfold State.hbmByte
  rw [found]
  simp only [if_pos]
  rw [data]
  exact mget_putCells_inside bs _ _ (by omega) _

theorem State.hbmByte_hbmStore_other (s : State) {k j : Nat} (x : HSec) (bs : List Byte) (ne : j ≠ k) (gen : Nat) {i : Nat} (h : i < 32) :
    (s.hbmStore k x bs).hbmByte gen j i = s.hbmByte gen j i := by
  have found : mfind (s.hbmStore k x bs).hbm.secs j = mfind s.hbm.secs j := mfind_mput_other _ _ ne
  have data : ∀ d, mget (s.hbmStore k x bs).hbm.data (32 * j + i) d = mget s.hbm.data (32 * j + i) d := fun d => by
    have short : (bs.take 32).length ≤ 32 := List.length_take_le ..
    obtain less | more := Nat.lt_or_gt_of_ne ne
    · exact mget_putCells_below _ _ (by omega) d
    · exact mget_putCells_above _ _ (by omega) d
  unfold State.hbmByte
  rw [found]
  simp only [data]
  rfl

/-- What a write of a whole sector leaves. -/
theorem State.hbmBytes_hbmStore (s : State) {a : Nat} {x : HSec} {bs : List Byte} (len : bs.length = 32) (gen : x.gen = s.keyGen a) :
    (s.hbmStore (s.sectorKey a) x bs).hbmBytes a = bs ∧
      ∀ b, s.sectorKey b ≠ s.sectorKey a → (s.hbmStore (s.sectorKey a) x bs).hbmBytes b = s.hbmBytes b := by
  constructor
  · have key : (s.hbmStore (s.sectorKey a) x bs).sectorKey a = s.sectorKey a := rfl
    have inForce : (s.hbmStore (s.sectorKey a) x bs).keyGen a = x.gen := gen.symm
    rw [State.hbmBytes_eq, key, inForce]
    refine List.ext_getElem (by simp [len]) (fun i h _ => ?_)
    rw [List.getElem_map, List.getElem_range]
    exact s.hbmByte_hbmStore_same _ len (by simpa using h)
  · intro b ne
    have key : (s.hbmStore (s.sectorKey a) x bs).sectorKey b = s.sectorKey b := rfl
    have inForce : (s.hbmStore (s.sectorKey a) x bs).keyGen b = s.keyGen b := rfl
    rw [State.hbmBytes_eq, State.hbmBytes_eq, key, inForce]
    refine List.map_congr_left (fun i h => ?_)
    exact s.hbmByte_hbmStore_other x bs ne _ (List.mem_range.mp h)

/-- The record that a write leaves with its sector. -/
def State.writtenSec (s : State) (a gen : Nat) (bs : List Byte) : HSec :=
  { poison := false, gen := gen, code := metaBits (s.classTag a).1 (Config.sectorMeta (s.classTag a).1 gen (s.sectorKey a) (bs.take 32)) }

theorem metaBits_lt {cls : Nat} (a : cls = 1) (v : BitVec 24) : (metaBits cls v).toNat < 2 ^ 16 := by
  rw [metaBits, if_pos a, BitVec.toNat_ofNat]
  omega

/-! ## A sector access -/

theorem State.sectorServe_write {s : State} {a : Nat} (runs : s.stackStopped a = false) (gen : Nat) (bs : List Byte) (ecc : Ecc) :
    s.sectorServe gen a (some bs) ecc = (s.hbmStore (s.sectorKey a) (s.writtenSec a gen bs) bs).answer {} := by
  have record : s.secRecord a gen bs false = (s.sectorKey a, s.writtenSec a gen bs) := rfl
  simp only [State.sectorServe, record, runs]
  rfl

theorem State.sectorServe_stopped {s : State} {a : Nat} (stop : s.stackStopped a = true) (gen : Nat) (write : Option (List Byte)) (ecc : Ecc) :
    s.sectorServe gen a write ecc = s.answer { code := eTimeout } := by
  cases write with
  | none => simp only [State.sectorServe, State.hbmReadUnder, stop, if_true]
  | some bs => simp only [State.sectorServe, stop, if_true]

theorem State.sectorServe_good {s : State} {a : Nat} (runs : s.stackStopped a = false)
    (good : (mget s.hbm.secs (s.sectorKey a) {}).poison = false) :
    s.sectorServe (s.keyGen a) a none .clean = s.answer { data := s.hbmBytes a } := by
  have poison : (mget s.hbm.secs (hsecKey (s.hbmPlace a).1 (s.hbmPlace a).2) {}).poison = false := good
  simp only [State.sectorServe, State.hbmReadUnder, runs, poison]
  rfl

theorem State.sectorServe_poisoned {s : State} {a : Nat} (runs : s.stackStopped a = false)
    (poison : (mget s.hbm.secs (s.sectorKey a) {}).poison = true) (gen : Nat) (ecc : Ecc) :
    s.sectorServe gen a none ecc =
      (s.uncorrectable (s.hbmPlace a).1 (s.hbmPlace a).2 a (s.spanOwner a) ecc).answer { code := eUncorr } := by
  have poison' : (mget s.hbm.secs (hsecKey (s.hbmPlace a).1 (s.hbmPlace a).2) {}).poison = true := poison
  simp only [State.sectorServe, State.hbmReadUnder, runs, poison']
  rfl

/-- The sector of an address, by its first byte. -/
def sectorBase (addr : BitVec 48) : Nat := addr.toNat / 32 * 32

theorem exec_hbmSectorAccess_beyond {addr : BitVec 48} {s : State} (beyond : s.capacity * 2 ^ 30 ≤ sectorBase addr)
    (part : Option (Fin 16)) (w : Option (List Byte)) (ecc : Ecc) :
    exec (.hbmSectorAccess addr part w ecc) s = .next (s.answer { code := eBounds }) :=
  congrArg Host.Outcome.next (if_pos beyond)

/-- An access inside its owner's span, under a live key, waits or is served. -/
theorem exec_hbmSectorAccess_inside {addr : BitVec 48} {part : Option (Fin 16)} {s : State}
    (inside : sectorBase addr < s.capacity * 2 ^ 30) (mine : ∀ k, part = some k → s.spanOwner (sectorBase addr) = some k.val)
    (live : s.spanOwner (sectorBase addr) ≠ none → s.keyGen (sectorBase addr) ≠ 0) (w : Option (List Byte)) (ecc : Ecc) :
    exec (.hbmSectorAccess addr part w ecc) s = .next (if s.stackHolds (sectorBase addr) then
      { s with hbm := { s.hbm with waits := s.hbm.waits ++
        [⟨sectorBase addr, w, ecc, s.stackOf (sectorBase addr), s.now, s.keyGen (sectorBase addr)⟩] } }
      else s.sectorServe (s.keyGen (sectorBase addr)) (sectorBase addr) w ecc) := by
  have own : ¬((decide (part.map (fun k => k.val) ≠ s.spanOwner (sectorBase addr)) && (part.map (fun k => k.val)).isSome) = true) := by
    cases part with
    | none => simp
    | some k => simp [mine k rfl]
  exact congrArg Host.Outcome.next ((if_neg (Nat.not_le_of_lt inside)).trans ((if_neg own).trans (if_neg (fun h => live h.1 h.2))))

/-! ## Condemnation and errors (R259, R267, R268) -/

theorem State.sameButLog_hbm {s t : State} (h : s.sameButLog t) : t.hbm = s.hbm := (congrArg State.hbm h : _)
theorem State.sameButLog_ptn {s t : State} (h : s.sameButLog t) : t.ptn = s.ptn := (congrArg State.ptn h : _)

theorem State.logRec_once_sameButLog (s : State) (code unit : Nat) (part : Option Nat) (addr syn : Nat) (once : Bool) :
    s.sameButLog (s.logRec code unit part addr syn once) := s.logRec_sameButLog code unit part addr syn once

/-- A pseudo-channel pending, its condemnation recorded. -/
def State.pchPending (s : State) (n : Nat) : State :=
  ((s.rbSet (Reg.HBM_PEND + 4 * (n / 32)) (n % 32) true).logRec eUncorr (unitId 4 n) (s.ptn.running.pchOwner n) 0 0 true).raise 132

/-- A condemned pseudo-channel leaves the staged copy, or waits for the commit that is due. -/
def State.pchLeaves (s : State) (n : Nat) : State :=
  if s.ptn.commitDue then { s with hbm := { s.hbm with fresh := n :: s.hbm.fresh } } else { s with ptn := { s.ptn with
    staged := s.ptn.staged.map (fun t => t.dropPch n), recheck := s.ptn.recheck || s.ptn.phase == .armed } }

theorem State.condemn_eq (s : State) (n : Nat) : s.condemn n =
    if s.maskBit Reg.HBM_PEND n || s.maskBit Reg.HBM_MAPPED n || !s.fitted (n / 64) then s else (s.pchPending n).pchLeaves n := rfl

theorem State.pchPending_kept (s : State) (n : Nat) : s.sameButLog (s.pchPending n) ∧ (s.pchPending n).rb (Reg.IRQ_RAW + 16) 4 = true ∧
    sameRegs ((Reg.HBM_PEND + 4 * (n / 32)) :: recRegs (codeClass eUncorr)) s (s.pchPending n) ∧
    (n < 768 → (s.pchPending n).maskBit Reg.HBM_PEND n = true) := by
  have pend : (s.rbSet (Reg.HBM_PEND + 4 * (n / 32)) (n % 32) true).maskBit Reg.HBM_PEND n = true :=
    rb_rbSet_same _ _ _ _ (Nat.mod_lt _ (by decide))
  have kept : s.sameButLog (s.rbSet (Reg.HBM_PEND + 4 * (n / 32)) (n % 32) true) := s.rgSet_sameButLog _ _
  have set : sameRegs [Reg.HBM_PEND + 4 * (n / 32)] s (s.rbSet (Reg.HBM_PEND + 4 * (n / 32)) (n % 32) true) := sameRegs_rbSet s _ _ _
  unfold State.pchPending
  generalize s.rbSet (Reg.HBM_PEND + 4 * (n / 32)) (n % 32) true = u at pend kept set ⊢
  have logged := State.logRec_sameRegs u eUncorr (unitId 4 n) (s.ptn.running.pchOwner n) 0 0 true
  have keptLog := State.logRec_sameButLog u eUncorr (unitId 4 n) (s.ptn.running.pchOwner n) 0 0 true
  generalize u.logRec eUncorr (unitId 4 n) (s.ptn.running.pchOwner n) 0 0 true = v at logged keptLog ⊢
  have raised := State.raise_high_sameRegs (src := 132) v (by decide)
  refine ⟨State.sameButLog_trans kept (State.sameButLog_trans keptLog (State.raise_high_sameButLog v (by decide))),
    State.rb_raise_high v (src := 132) (by decide), ?_, fun less => ?_⟩
  · exact sameRegs_trans (sameRegs_mono set (by simp)) (sameRegs_trans (sameRegs_mono logged (by simp))
      (sameRegs_mono raised (by simp [recRegs])))
  · have far : Reg.HBM_PEND + 4 * (n / 32) ∉ recRegs (codeClass eUncorr) := by
      have cls : codeClass eUncorr = 1 := rfl
      rw [cls]
      simp only [recRegs, List.mem_cons, List.not_mem_nil, or_false, not_or, Reg.HBM_PEND, Reg.ERR_CLASS, Reg.ERR_LOST, Reg.IRQ_RAW]
      omega
    refine (sameRegs_rb raised ?_ _).trans ((sameRegs_rb logged far _).trans pend)
    simp only [List.mem_cons, List.not_mem_nil, or_false, Reg.HBM_PEND, Reg.IRQ_RAW]
    omega

/-- A condemnation leaves the stacks and their bytes. -/
theorem State.condemn_hbm (s : State) (n : Nat) : { (s.condemn n).hbm with fresh := s.hbm.fresh } = s.hbm := by
  rw [State.condemn_eq]
  split
  · rfl
  · have hbm := State.sameButLog_hbm (s.pchPending_kept n).1
    unfold State.pchLeaves
    split
    · exact (congrArg (fun x : Hbm => { x with fresh := s.hbm.fresh }) hbm :)
    · exact (congrArg (fun x : Hbm => { x with fresh := s.hbm.fresh }) hbm :)

/-- The stacks and the bytes of a memory. -/
structure Hbm.keeps (h k : Hbm) : Prop where
  data : k.data = h.data
  stks : k.stks = h.stks

theorem Hbm.keeps.refl (h : Hbm) : h.keeps h := ⟨rfl, rfl⟩
theorem Hbm.keeps.trans {h k l : Hbm} (a : h.keeps k) (b : k.keeps l) : h.keeps l := ⟨b.data.trans a.data, b.stks.trans a.stks⟩

theorem State.condemn_keepsHbm (s : State) (n : Nat) : s.hbm.keeps (s.condemn n).hbm :=
  ⟨(congrArg Hbm.data (s.condemn_hbm n) :), (congrArg Hbm.stks (s.condemn_hbm n) :)⟩

/-- The window of a pseudo-channel's corrected errors with one more in it. -/
def State.ceWindow (s : State) (n : Nat) : Nat × Nat :=
  if s.now < (mget s.hbm.ce n (s.now, 0)).1 + 1000000000 then ((mget s.hbm.ce n (s.now, 0)).1, (mget s.hbm.ce n (s.now, 0)).2 + 1)
  else (s.now, 1)

def State.ceSet (s : State) (n : Nat) (w : Nat × Nat) : State := { s with hbm := { s.hbm with ce := mput s.hbm.ce n w } }

def State.ceCount (s : State) (n : Nat) : State := s.rSat (bank Reg.HBM_PCH_ERR n) 15 0 1

theorem State.correctedError_eq (s : State) (n : Nat) : s.correctedError n =
    if ((s.ceCount n).ceSet n ((s.ceCount n).ceWindow n)).rf Reg.HBM_CONDEMN_CFG 23 8 ≠ 0 ∧
      ((s.ceCount n).ceSet n ((s.ceCount n).ceWindow n)).rf Reg.HBM_CONDEMN_CFG 23 8 ≤ ((s.ceCount n).ceWindow n).2
    then ((s.ceCount n).ceSet n ((s.ceCount n).ceWindow n)).condemn n else (s.ceCount n).ceSet n ((s.ceCount n).ceWindow n) := by
  delta State.correctedError State.ceSet State.ceWindow State.ceCount
  rfl

theorem State.ceSet_keeps (s : State) (n : Nat) (w : Nat × Nat) (p : Prop) [Decidable p] :
    s.hbm.keeps (if p then (s.ceSet n w).condemn n else s.ceSet n w).hbm := by
  have set : s.hbm.keeps (s.ceSet n w).hbm := ⟨rfl, rfl⟩
  split
  · exact set.trans (State.condemn_keepsHbm _ n)
  · exact set

theorem State.correctedError_keepsHbm (s : State) (n : Nat) : s.hbm.keeps (s.correctedError n).hbm := by
  have counted : s.hbm.keeps (s.ceCount n).hbm := by
    have same : (s.ceCount n).hbm = s.hbm := State.sameButLog_hbm (s.rSat_sameButLog (bank Reg.HBM_PCH_ERR n) 15 0 1)
    rw [same]
    exact .refl _
  rw [State.correctedError_eq]
  exact counted.trans (State.ceSet_keeps ..)

/-- The record of an uncorrectable sector. -/
def State.badRecorded (s : State) (pch off a : Nat) (part : Option Nat) (ecc : Ecc) : State :=
  let x := mget s.hbm.secs (hsecKey pch off) {}
  let code := if ecc == .clean then x.code else metaBits (s.classTag a).1 (Config.syndrome s.free)
  s.err eUncorr (unitId 5 (pch / 64)) part a ({ x with code := code } : HSec).word

/-- A sector counted as uncorrectable for the first time. -/
def State.badCounted (s : State) (pch k : Nat) : State :=
  ({ s with hbm := { s.hbm with bad := k :: s.hbm.bad } } : State).rSat (bank Reg.HBM_PCH_ERR pch) 23 16 1

theorem State.uncorrectable_eq (s : State) (pch off a : Nat) (part : Option Nat) (ecc : Ecc) :
    s.uncorrectable pch off a part ecc =
      (let u : State := { s.badRecorded pch off a part ecc with free := (s.badRecorded pch off a part ecc).free + 1 }
       if u.hbm.bad.contains (hsecKey pch off) then u
       else
        let v := u.badCounted pch (hsecKey pch off)
        let lim := v.rf Reg.HBM_CONDEMN_CFG 7 0
        if lim ≠ 0 ∧ lim ≤ v.rf (bank Reg.HBM_PCH_ERR pch) 23 16 then v.condemn pch else v) := rfl

theorem State.uncorrectable_keepsHbm (s : State) (pch off a : Nat) (part : Option Nat) (ecc : Ecc) :
    s.hbm.keeps (s.uncorrectable pch off a part ecc).hbm := by
  rw [State.uncorrectable_eq]
  have recorded : (s.badRecorded pch off a part ecc).hbm = s.hbm := State.sameButLog_hbm (State.err_sameButLog ..)
  generalize s.badRecorded pch off a part ecc = u at recorded ⊢
  dsimp only
  rw [← recorded]
  split
  · exact .refl _
  · have counted : u.hbm.keeps (State.badCounted { u with free := u.free + 1 } pch (hsecKey pch off)).hbm := ⟨rfl, rfl⟩
    split
    · exact counted.trans (State.condemn_keepsHbm _ pch)
    · exact counted

/-- Settles O33: a sector access inside its owner's span waits at a stopped stack and is served elsewhere; a stored sector reads what was
stored, and every other sector what it read. -/
theorem hbmSectors : Obligations.HbmSectors := by
  unfold Obligations.HbmSectors
  intro addr part ecc s
  refine ⟨fun beyond w => exec_hbmSectorAccess_beyond beyond part w ecc, fun inside mine live => ?_⟩
  have run := fun w ecc => exec_hbmSectorAccess_inside inside mine live w ecc
  change ∀ w ecc, exec (.hbmSectorAccess addr part w ecc) s = _ at run
  have serve : ∀ w ecc, s.stackHolds (sectorBase addr) = false →
      exec (.hbmSectorAccess addr part w ecc) s = .next (s.sectorServe (s.keyGen (sectorBase addr)) (sectorBase addr) w ecc) :=
    fun w ecc free => (run w ecc).trans (congrArg _ (if_neg (by simp [free])))
  have held : (s.stackSt (s.stackOf (sectorBase addr))).st = .stop → (s.stackSt (s.stackOf (sectorBase addr))).expired = false →
      s.stackHolds (sectorBase addr) = true := fun stop young => by simp [State.stackHolds, State.stackStopped, stop, young]
  have refused : (s.stackSt (s.stackOf (sectorBase addr))).expired = true → s.stackHolds (sectorBase addr) = false :=
    fun old => by simp [State.stackHolds, old]
  have stopped : (s.stackSt (s.stackOf (sectorBase addr))).st = .stop → s.stackStopped (sectorBase addr) = true :=
    fun stop => by simp [State.stackStopped, stop]
  have going : (s.stackSt (s.stackOf (sectorBase addr))).st ≠ .stop → s.stackStopped (sectorBase addr) = false :=
    fun on => by simp [State.stackStopped, on]
  have free : (s.stackSt (s.stackOf (sectorBase addr))).st ≠ .stop → s.stackHolds (sectorBase addr) = false :=
    fun on => by simp [State.stackHolds, going on]
  refine ⟨fun stop young w => ⟨_, (run w ecc).trans (congrArg _ (if_pos (held stop young))), rfl, rfl, rfl⟩,
    fun stop old w => (serve w ecc (refused old)).trans (congrArg _ (State.sectorServe_stopped (stopped stop) ..)),
    fun on => ⟨fun bs len => ?_,
      fun good => (serve none .clean (free on)).trans (congrArg _ (State.sectorServe_good (going on) good)),
      fun poison => ⟨_, (serve none ecc (free on)).trans (congrArg _ (State.sectorServe_poisoned (going on) poison _ ecc)),
        rfl, (State.uncorrectable_keepsHbm ..).data⟩⟩⟩
  refine ⟨_, (serve (some bs) ecc (free on)).trans (congrArg _ (State.sectorServe_write (going on) _ bs ecc)), rfl, ?_⟩
  obtain ⟨same, other⟩ := s.hbmBytes_hbmStore (a := sectorBase addr) (x := s.writtenSec (sectorBase addr) (s.keyGen (sectorBase addr)) bs)
    len rfl
  have record : mget (s.hbmStore (s.sectorKey (sectorBase addr)) (s.writtenSec (sectorBase addr) (s.keyGen (sectorBase addr)) bs) bs).hbm.secs
      (s.sectorKey (sectorBase addr)) {} = s.writtenSec (sectorBase addr) (s.keyGen (sectorBase addr)) bs := mget_mput_same ..
  refine ⟨same, ?_, fun classA => ?_, other, rfl⟩
  · exact congrArg HSec.poison record
  · exact (congrArg (fun x : HSec => x.code.toNat < 2 ^ 16) record).mpr (metaBits_lt classA _)

end Sys2Proof.Machine

/-! # The upkeep of the stacks (R261, R267, R268, R270 to R272) -/

namespace Sys2Proof.Machine

/-! ## Patrol -/

/-- What a patrol finds is a sector of its pseudo-channel that is not CLASS_A. -/
theorem State.patrolNext_found {s : State} {n fuel p pos a : Nat} (found : s.patrolNext n fuel p = some (pos, a)) :
    (s.classTag a).1 ≠ 1 ∧ a = s.addrOf n (32 * pos) := by
  induction fuel generalizing p with
  | zero => cases found
  | succ fuel ih =>
    rw [State.patrolNext] at found
    split at found
    · exact ih found
    · next other =>
      cases found
      exact ⟨other, rfl⟩

/-- A patrol that has read its sector goes on behind it. -/
def State.patrolled (s : State) (n pos : Nat) : State :=
  { s with hbm := { s.hbm with patrol := mset s.hbm.patrol n ((pos + 1) % 2 ^ 25) 0 } }

theorem exec_patrolTurn_clean {n : Fin 768} {s : State} {pos a : Nat} (on : s.rb Reg.HBM_PATROL 0 = true) (live : s.pchLive n.val = true)
    (runs : (s.stackSt (n.val / 64)).st ≠ .stop)
    (next : s.patrolNext n.val (2 ^ 19 + 1) (mget s.hbm.patrol n.val 0) = some (pos, a))
    (good : (mget s.hbm.secs (hsecKey n.val (32 * pos)) {}).poison = false) :
    exec (.patrolTurn n .clean) s = .next (s.patrolled n.val pos) := by
  have run : exec (.patrolTurn n .clean) s = execPatrolTurn n .clean s := rfl
  have off : ¬((!s.rb Reg.HBM_PATROL 0 || !s.pchLive n.val || (s.stackSt (n.val / 64)).st == .stop) = true) := by simp [on, live, runs]
  rw [run, execPatrolTurn]
  simp only [if_neg off, next, good]
  rfl

/-! ## Condemnation -/

theorem State.pchLeaves_log (s : State) (n : Nat) : (s.pchLeaves n).regs = s.regs ∧ (s.pchLeaves n).ptn.running = s.ptn.running := by
  unfold State.pchLeaves
  split
  · exact ⟨rfl, rfl⟩
  · exact ⟨rfl, rfl⟩

/-- A physical function's condemnation of a fitted pseudo-channel. -/
theorem State.condemn_leaves {s : State} {n : Nat} (fitted : s.fitted (n / 64) = true)
    (mapped : s.maskBit Reg.HBM_MAPPED n = false) (fresh : s.maskBit Reg.HBM_PEND n = false) :
    s.condemn n = (s.pchPending n).pchLeaves n :=
  (s.condemn_eq n).trans (if_neg (by simp [fresh, mapped, fitted]))

theorem exec_hbmCondemn_ready {f : Func} {n : BitVec 10} {s : State} (ready : s.mustWait (portOf f) = false) (pf : isPf f = true)
    (less : n.toNat < 768) : exec (.hbmCondemn f n) s = .next (s.condemn n.toNat) :=
  congrArg Host.Outcome.next ((State.inOrder_of_ready ready ..).trans (if_pos (by simp [pf, less])))

/-! ## Stack temperature -/

theorem State.carryOver_hbm (s : State) (dirs : List Nat) (cls bytes : Nat) : (s.carryOver dirs cls bytes).hbm = s.hbm := by
  obtain ⟨r, same, -⟩ := carryOver_regs dirs cls bytes s
  rw [same]

theorem State.cast_hbm (s : State) (a b cls bytes : Nat) : (s.cast a b cls bytes).hbm = s.hbm := by
  unfold State.cast State.carry
  split
  · exact (State.evSet_hbm ..).trans (State.carryOver_hbm ..)
  · exact State.carryOver_hbm ..

theorem State.hbmReadUnder_stks (s : State) (gen a : Nat) (ecc : Ecc) : (s.hbmReadUnder gen a ecc).2.2.hbm.stks = s.hbm.stks := by
  rw [State.hbmReadUnder]
  split
  · rfl
  · generalize s.hbmPlace a = at_
    dsimp only
    split
    · exact (State.uncorrectable_keepsHbm ..).stks
    · dsimp only
      split
      · exact (State.correctedError_keepsHbm ..).stks
      · rfl

theorem State.sectorServe_stks (s : State) (gen a : Nat) (write : Option (List Byte)) (ecc : Ecc) :
    (s.sectorServe gen a write ecc).hbm.stks = s.hbm.stks := by
  cases write with
  | none => exact s.hbmReadUnder_stks gen a ecc
  | some bs =>
    rw [State.sectorServe]
    generalize s.secRecord a gen bs false = kx
    dsimp only
    split
    · rfl
    · rfl

theorem State.sectorsGo_stks (s : State) (m : Nat) (sel : SectorWait → Bool) : (s.sectorsGo m sel).hbm.stks = s.hbm.stks :=
  foldl_keeps (fun u : State => u.hbm.stks) _ (fun u _ => u.sectorServe_stks ..) _ _

theorem State.hbmStore_stks (s : State) (k : Nat) (x : HSec) (bs : List Byte) : (s.hbmStore k x bs).hbm.stks = s.hbm.stks := rfl

/-- A late write-back crosses to its stack and is stored. -/
def State.lateWritten (s : State) (w : LateWrite) : State := (s.cast w.die (w.stack / 2) 0 32).hbmStore w.key w.sec w.bytes

theorem State.lateWritten_stks (s : State) (w : LateWrite) : (s.lateWritten w).hbm.stks = s.hbm.stks :=
  (State.hbmStore_stks ..).trans (congrArg Hbm.stks (s.cast_hbm w.die (w.stack / 2) 0 32))

theorem State.lateGo_stks (s : State) : s.lateGo.hbm.stks = s.hbm.stks := by
  have fold : ∀ (ws : List LateWrite) (u : State), (ws.foldl State.lateWritten u).hbm.stks = u.hbm.stks :=
    foldl_keeps (fun u : State => u.hbm.stks) State.lateWritten State.lateWritten_stks
  exact fold _ _

theorem State.stackResumes_stks (s : State) (m : Nat) : (s.stackResumes m).hbm.stks = s.hbm.stks :=
  (State.sectorsGo_stks ..).trans (State.lateGo_stks _)

/-- A record, event bit and source of a stack's thermal state. -/
def State.stackNoted (s : State) (m bit : Nat) : State := ((s.err wTherm (unitId 5 m) none 0 0).evSet Reg.HBM_THERM_EVT bit).raise 133

theorem State.stackNoted_kept (s : State) (m : Nat) {bit : Nat} (less : bit < 32) :
    (s.stackNoted m bit).hbm = s.hbm ∧ (s.stackNoted m bit).rb Reg.HBM_THERM_EVT bit = true := by
  have logged : (s.err wTherm (unitId 5 m) none 0 0).hbm = s.hbm := State.sameButLog_hbm (State.err_sameButLog ..)
  unfold State.stackNoted
  generalize s.err wTherm (unitId 5 m) none 0 0 = u at logged ⊢
  have set : (u.evSet Reg.HBM_THERM_EVT bit).rb Reg.HBM_THERM_EVT bit = true := rb_evSet_same u _ _ less
  have kept : (u.evSet Reg.HBM_THERM_EVT bit).hbm = u.hbm := u.evSet_hbm ..
  generalize u.evSet Reg.HBM_THERM_EVT bit = v at set kept ⊢
  have raised := State.raise_high_sameRegs (src := 133) v (by decide)
  exact ⟨(State.sameButLog_hbm (State.raise_high_sameButLog (src := 133) v (by decide))).trans (kept.trans logged),
    (sameRegs_rb raised (by decide) _).trans set⟩

/-- A stack in another thermal state; from STOP, what waited at it goes on. -/
def State.stackMoved (s : State) (m : Nat) (x : StackSt) (st : StackState) : State :=
  let u := s.stackSet m { x with st := st, expired := false }
  if x.st == .stop then u.stackResumes m else u

theorem State.stackMoved_stks (s : State) (m : Nat) (x : StackSt) (st : StackState) :
    (s.stackMoved m x st).hbm.stks = (s.stackSet m { x with st := st, expired := false }).hbm.stks := by
  unfold State.stackMoved
  dsimp only
  split
  · exact State.stackResumes_stks ..
  · rfl

theorem State.judgeStack_eq (s : State) (m : Nat) : s.judgeStack m =
    if stackNext (s.stackSt m).st (s.stackSt m).govern = (s.stackSt m).st then s
    else match stackNext (s.stackSt m).st (s.stackSt m).govern with
      | .normal => s.stackMoved m (s.stackSt m) .normal
      | .throttle => (s.stackMoved m (s.stackSt m) .throttle).stackNoted m m
      | .stop => (s.stackMoved m (s.stackSt m) .stop).stackNoted m (16 + m) := by
  unfold State.judgeStack
  dsimp only
  split
  · rfl
  · cases stackNext (s.stackSt m).st (s.stackSt m).govern <;> rfl

/-- The layers of a stack reported, or fallen silent. -/
def State.layersSet (s : State) (m : Nat) (temps : List (Option Int)) : State := s.stackSet m { s.stackSt m with temps := temps }

/-- What a stack judged after its layers is: its state by the table, its layers as they are. -/
theorem State.judgeStack_layersSet (s : State) {m : Nat} (less : m < 12) (temps : List (Option Int)) :
    let t := (s.layersSet m temps).judgeStack m
    let y : StackSt := { s.stackSt m with temps := temps }
    (t.stackSt m).temps = temps ∧ (t.stackSt m).st = stackNext (s.stackSt m).st y.govern ∧
      (∀ k, k ≠ m → t.stackSt k = s.stackSt k) ∧
      ((s.stackSt m).st = .normal → stackNext (s.stackSt m).st y.govern = .throttle → t.rb Reg.HBM_THERM_EVT m = true) := by
  dsimp only
  have now : (s.layersSet m temps).stackSt m = { s.stackSt m with temps := temps } := s.stackSt_stackSet_same ..
  have apart : ∀ k, k ≠ m → (s.layersSet m temps).stackSt k = s.stackSt k := fun k ne => s.stackSt_stackSet_other _ ne
  generalize s.layersSet m temps = u at now apart ⊢
  rw [State.judgeStack_eq, now]
  dsimp only
  have moved : ∀ (st : StackState) (t : State), t.hbm.stks = (u.stackMoved m { s.stackSt m with temps := temps } st).hbm.stks →
      (t.stackSt m).temps = temps ∧ (t.stackSt m).st = st ∧ ∀ k, k ≠ m → t.stackSt k = s.stackSt k := fun st t same => by
    have read : ∀ k, t.stackSt k = (u.stackSet m { s.stackSt m with temps := temps, st := st, expired := false }).stackSt k := fun k => by
      unfold State.stackSt
      rw [same, State.stackMoved_stks]
    rw [read m, State.stackSt_stackSet_same]
    exact ⟨rfl, rfl, fun k ne => (read k).trans ((u.stackSt_stackSet_other _ ne).trans (apart k ne))⟩
  split
  · next same =>
    rw [now, same]
    exact ⟨rfl, rfl, apart, fun normal throttle => StackState.noConfusion (normal.symm.trans throttle)⟩
  · cases stackNext (s.stackSt m).st ({ s.stackSt m with temps := temps } : StackSt).govern with
    | normal =>
      obtain ⟨layers, st, others⟩ := moved .normal _ rfl
      exact ⟨layers, st, others, fun _ h => nomatch h⟩
    | throttle =>
      obtain ⟨hbm, noted⟩ := State.stackNoted_kept (u.stackMoved m { s.stackSt m with temps := temps } .throttle) m (bit := m) (by omega)
      obtain ⟨layers, st, others⟩ := moved .throttle _ (congrArg Hbm.stks hbm)
      exact ⟨layers, st, others, fun _ _ => noted⟩
    | stop =>
      obtain ⟨hbm, noted⟩ := State.stackNoted_kept (u.stackMoved m { s.stackSt m with temps := temps } .stop) m (bit := 16 + m) (by omega)
      obtain ⟨layers, st, others⟩ := moved .stop _ (congrArg Hbm.stks hbm)
      exact ⟨layers, st, others, fun _ h => nomatch h⟩

/-- A silent layer makes a stack's sensors bad. -/
theorem sensorBad_of_silent (x : StackSt) (layer : Fin 16) :
    ({ x with temps := (List.range 16).map (fun i => if i = layer.val then none else x.temps.getD i none) } : StackSt).sensorBad = true := by
  unfold StackSt.sensorBad
  refine List.any_eq_true.mpr ⟨layer.val, List.mem_range.mpr layer.isLt, ?_⟩
  simp [List.getD_eq_getElem?_getD, layerValid]

/-! ## Requests that have waited 20 ms -/

/-- The first of some times, from what is known. -/
theorem foldl_firstOf (l : List Nat) {t0 : Nat} (least : ∀ t ∈ l, t0 ≤ t) (b : Option Nat)
    (known : b = some t0 ∨ (t0 ∈ l ∧ ∀ c, b = some c → t0 ≤ c)) :
    l.foldl (fun b t => some (min (b.getD t) t)) b = some t0 := by
  induction l generalizing b with
  | nil => exact known.resolve_right (fun h => List.not_mem_nil h.1)
  | cons t l ih =>
    have here := least t List.mem_cons_self
    refine ih (fun u mem => least u (List.mem_cons_of_mem _ mem)) _ ?_
    rcases known with rfl | ⟨mem, above⟩
    · exact .inl (congrArg some (Nat.min_eq_left here))
    · have bound : t0 ≤ b.getD t := by
        cases b with
        | none => exact here
        | some c => exact above c rfl
      rcases List.mem_cons.mp mem with rfl | later
      · exact .inl (congrArg some (Nat.min_eq_right bound))
      · exact .inr ⟨later, fun c eq => by
          cases eq
          exact Nat.le_min.mpr ⟨bound, here⟩⟩

theorem State.firstStop_least {s : State} {m t0 : Nat} (mem : t0 ∈ s.stopTimes m) (least : ∀ u ∈ s.stopTimes m, t0 ≤ u) :
    s.firstStop m = some t0 :=
  foldl_firstOf _ least none (.inr ⟨mem, fun _ h => nomatch h⟩)

/-- Accesses served at a stopped stack each answer E_TIMEOUT. -/
theorem foldl_sectorServe_stopped (ws : List SectorWait) {s : State} (stop : ∀ w ∈ ws, s.stackStopped w.addr = true) :
    ws.foldl (fun u w => u.sectorServe w.gen w.addr w.write w.ecc) s = if ws = [] then s else s.answer { code := eTimeout } := by
  induction ws generalizing s with
  | nil => rfl
  | cons w ws ih =>
    rw [List.foldl_cons, State.sectorServe_stopped (stop w List.mem_cons_self), ih (s := s.answer { code := eTimeout }) (fun v mem => stop v (List.mem_cons_of_mem _ mem)),
      if_neg (List.cons_ne_nil w ws)]
    split
    · rfl
    · rfl

/-- The tickets of the requests that came to a stopped stack at a time. -/
def lateMarked (m t0 : Nat) (k : Ticket) : Ticket := if k.stop = some (m, t0) then { k with late := true } else k

/-- A stopped stack whose first requests have waited 20 ms. -/
def State.stopExpired (s : State) (m t0 : Nat) : State :=
  let u := (s.at (t0 + 20000000)).stackSet m { s.stackSt m with expired := true }
  { u with lin := { u.lin with tickets := u.lin.tickets.map (lateMarked m t0) } }

theorem exec_hbmStopTimeout_first {m : Fin 12} {s : State} {t0 : Nat} (stop : (s.stackSt m.val).st = .stop)
    (first : s.firstStop m.val = some t0) :
    exec (.hbmStopTimeout m) s = .next ((s.stopExpired m.val t0).sectorsGo m.val (fun w => w.since == t0)) := by
  have run : exec (.hbmStopTimeout m) s = execHbmStopTimeout m s := rfl
  rw [run, execHbmStopTimeout]
  rw [first]
  exact congrArg Host.Outcome.next (if_pos (by rw [stop]; rfl))

theorem exec_hbmStopTimeout_none {m : Fin 12} {s : State} (none : s.stopTimes m.val = [] ∨ (s.stackSt m.val).st ≠ .stop) :
    exec (.hbmStopTimeout m) s = .next s := by
  have run : exec (.hbmStopTimeout m) s = execHbmStopTimeout m s := rfl
  rw [run, execHbmStopTimeout]
  refine congrArg _ ?_
  split
  · next first =>
    rcases none with empty | on
    · rw [State.firstStop, empty] at first
      cases first
    · exact if_neg (by simpa using on)
  · rfl

/-- The waits of a stopped stack that came at a time. -/
def SectorWait.ends (m t0 : Nat) (w : SectorWait) : Bool := w.stack == m && w.since == t0

theorem State.stopExpired_sectorsGo {s : State} {m t0 : Nat} (stop : (s.stackSt m).st = .stop)
    (here : ∀ w ∈ s.hbm.waits, w.ends m t0 = true → s.stackOf w.addr = m) :
    (s.stopExpired m t0).sectorsGo m (fun w => w.since == t0) =
      (let u := s.stopExpired m t0
       let v := { u with hbm := { u.hbm with waits := s.hbm.waits.filter (fun w => !w.ends m t0) } }
       if s.hbm.waits.filter (SectorWait.ends m t0) = [] then v else v.answer { code := eTimeout }) := by
  refine foldl_sectorServe_stopped _ (fun w mem => ?_)
  obtain ⟨waits, ends⟩ := List.mem_filter.mp mem
  have now : (s.stopExpired m t0).stackSt m = { s.stackSt m with expired := true } := (s.at (t0 + 20000000)).stackSt_stackSet_same ..
  have place : (s.stopExpired m t0).stackOf w.addr = m := here w waits ends
  have same : ((s.stopExpired m t0).stackSt ((s.stopExpired m t0).stackOf w.addr)).st = .stop := by rw [place, now]; exact stop
  exact beq_iff_eq.mpr same

/-- Settles O34: each piece of upkeep by what its command leaves of the stacks; a judged stack's layers and state survive what its
move sets going. -/
theorem stackUpkeep : Obligations.StackUpkeep := by
  unfold Obligations.StackUpkeep
  intro f m s
  dsimp only
  refine ⟨fun n pos a on live runs next good => ?_, fun n ready pf less fitted mapped => ?_, fun fitted => ⟨fun temps => ?_, fun layer => ?_⟩,
    exec_hbmStopTimeout_none, fun t0 stop mem least here => ?_⟩
  · obtain ⟨cls, addr⟩ := State.patrolNext_found next
    exact ⟨_, exec_patrolTurn_clean on live runs next good, cls, addr, mget_mset_same .., rfl⟩
  · refine ⟨_, exec_hbmCondemn_ready ready pf less, ?_⟩
    have hbm := s.condemn_hbm n.toNat
    by_cases pend : s.maskBit Reg.HBM_PEND n.toNat = true
    · have same : s.condemn n.toNat = s := (s.condemn_eq n.toNat).trans (if_pos (by simp [pend]))
      rw [same]
      exact ⟨pend, fun _ => rfl, fun h => absurd pend (by simp [h]), rfl, rfl⟩
    · rw [Bool.not_eq_true] at pend
      obtain ⟨log, raw, -, pending⟩ := s.pchPending_kept n.toNat
      have ptn := State.sameButLog_ptn log
      rw [State.condemn_leaves fitted mapped pend] at hbm ⊢
      generalize s.pchPending n.toNat = u at log raw pending ptn hbm ⊢
      obtain ⟨regs, running⟩ := u.pchLeaves_log n.toNat
      have bits : ∀ k i, (u.pchLeaves n.toNat).rb k i = u.rb k i := fun k i => State.rb_of_rg (rg_of_regs regs k) i
      refine ⟨(bits _ _).trans (pending less), fun h => absurd (pend.symm.trans h) (by decide), fun _ => ⟨(bits _ _).trans raw, ?_⟩,
        running.trans (congrArg Ptn.running ptn), hbm⟩
      unfold State.pchLeaves
      rw [ptn]
      split
      · next due => exact ⟨rfl, fun h => absurd (due.symm.trans h) (by decide), fun _ => List.mem_cons_self⟩
      · next due => exact ⟨rfl, fun _ armed => by simp [armed], fun h => absurd h due⟩
  · refine ⟨_, congrArg Host.Outcome.next (if_pos fitted), ?_⟩
    exact s.judgeStack_layersSet m.isLt _
  · refine ⟨_, congrArg Host.Outcome.next (if_pos fitted), ?_⟩
    obtain ⟨layers, st, -, -⟩ := s.judgeStack_layersSet m.isLt ((List.range 16).map (fun i =>
      if i = layer.val then none else (s.stackSt m.val).temps.getD i none))
    exact ⟨layers, st, sensorBad_of_silent _ layer⟩
  · have ended : ∀ w : SectorWait, w.ends m.val t0 = decide (w.stack = m.val ∧ w.since = t0) := fun w => by
      simp [SectorWait.ends, Bool.decide_and, beq_eq_decide]
    refine ⟨_, (exec_hbmStopTimeout_first stop (State.firstStop_least mem least)).trans (congrArg _
      (State.stopExpired_sectorsGo stop (fun w waits ends => here w waits (of_decide_eq_true ((ended w).symm.trans ends))))), ?_⟩
    simp only [← ended]
    have now : (s.stopExpired m.val t0).stackSt m.val = { s.stackSt m.val with expired := true } :=
      (s.at (t0 + 20000000)).stackSt_stackSet_same ..
    have apart : ∀ k, k ≠ m.val → (s.stopExpired m.val t0).stackSt k = s.stackSt k :=
      fun k ne => (s.at (t0 + 20000000)).stackSt_stackSet_other _ ne
    split
    · next empty =>
      refine ⟨rfl, now, apart, rfl, fun ⟨w, waits, ends⟩ => ?_, rfl, rfl, rfl, rfl⟩
      have mem := List.mem_filter.mpr ⟨waits, (ended w).trans (decide_eq_true ends)⟩
      rw [empty] at mem
      cases mem
    · exact ⟨rfl, now, apart, rfl, fun _ => rfl, rfl, rfl, rfl, rfl⟩

end Sys2Proof.Machine

/-! # Lanes of dowel links and regulator windows (R320, R321, R325, R332, R333) -/

namespace Sys2Proof.Machine

/-! ## Folds -/

theorem foldl_idle {σ α : Type} {f : σ → α → σ} {l : List α} {u : σ} (idle : ∀ y ∈ l, f u y = u) : l.foldl f u = u := by
  induction l with
  | nil => rfl
  | cons y l ih =>
    rw [List.foldl_cons, idle y List.mem_cons_self]
    exact ih (fun z mem => idle z (List.mem_cons_of_mem _ mem))

/-- What a fold over distinct items makes of something that only one of them touches. -/
theorem foldl_once {σ α β : Type} {f : σ → α → σ} {get : σ → β} {F : β → β} {inv : σ → Prop} {x : α} {l : List α} (nodup : l.Nodup)
    (mem : x ∈ l) (keeps : ∀ u y, inv u → inv (f u y)) (apart : ∀ u, ∀ y ∈ l, y ≠ x → inv u → get (f u y) = get u)
    (here : ∀ u, inv u → get (f u x) = F (get u)) {u : σ} (start : inv u) : get (l.foldl f u) = F (get u) := by
  have rest : ∀ (m : List α) (u : σ), (∀ y ∈ m, y ∈ l) → x ∉ m → inv u → get (m.foldl f u) = get u := fun m => by
    induction m with
    | nil => exact fun _ _ _ _ => rfl
    | cons y m ih =>
      intro u sub out start
      have ne : y ≠ x := fun same => out (same ▸ List.mem_cons_self)
      exact (ih _ (fun z mem => sub z (List.mem_cons_of_mem _ mem)) (fun mem => out (List.mem_cons_of_mem _ mem)) (keeps u y start)).trans
        (apart u y (sub y List.mem_cons_self) ne start)
  obtain ⟨before, behind, split⟩ := List.append_of_mem mem
  have parts := List.nodup_append.mp (split ▸ nodup)
  have first : x ∉ before := fun mem => parts.2.2 x mem x List.mem_cons_self rfl
  have then_ : x ∉ behind := (List.nodup_cons.mp parts.2.1).1
  have inBefore : ∀ y ∈ before, y ∈ l := fun y mem => split ▸ List.mem_append_left _ mem
  have inBehind : ∀ y ∈ behind, y ∈ l := fun y mem => split ▸ List.mem_append_right _ (List.mem_cons_of_mem _ mem)
  have reached : inv (before.foldl f u) := by
    clear * - keeps start
    induction before generalizing u with
    | nil => exact start
    | cons y m ih => exact ih (keeps u y start)
  have end_ : get ((before ++ x :: behind).foldl f u) = F (get u) := by
    rw [List.foldl_append, List.foldl_cons, rest behind _ inBehind then_ (keeps _ x reached), here _ reached, rest before u inBefore first start]
  exact split ▸ end_

theorem foldl_inv {σ α : Type} {f : σ → α → σ} {inv : σ → Prop} (keeps : ∀ u y, inv u → inv (f u y)) (l : List α) {u : σ} (start : inv u) :
    inv (l.foldl f u) := by
  induction l generalizing u with
  | nil => exact start
  | cons y l ih => exact ih (keeps u y start)

/-! ## A lane that fails -/

/-- A lane waits for the next base boundary. -/
def State.laneWaits (s : State) (d l : Nat) : State := s.dowelSet d { s.dowel d with waiting := (s.dowel d).waiting ++ [l] }

/-- A lane in service of a link in service fails. -/
theorem State.laneFail_eq {s : State} {d l : Nat} (present : s.dowelPresent (d / 2) = true) (up : s.rb Reg.NET_STATUS (2 + d / 2) = false)
    (live : (s.dowel d).live l = true) (fresh : l ∉ (s.dowel d).waiting) :
    s.laneFail d l = if s.tick.en then s.laneWaits d l else (s.laneWaits d l).darnLanes :=
  if_neg (by simp [present, up, live, fresh])

/-- A darned lane. -/
def State.laneDarned (s : State) (d l : Nat) : State :=
  let u := s.dowelSet d { s.dowel d with darned := (s.dowel d).darned ++ [l], waiting := (s.dowel d).waiting.filter (· != l) }
  State.evSet { u with nor := { u.nor with darns := u.nor.darns ++ [544 * d + l] } } Reg.NET_EVT 0

theorem State.darnLane_eq {s : State} {d l : Nat} (live : (s.dowel d).live l = true) (spare : (s.dowel d).used (l / 68) < 4) :
    s.darnLane d l = s.laneDarned d l := if_pos (by simp [live, spare])

/-- Where only one direction has lanes that wait, only that one is darned. -/
theorem State.darnLanes_one {s : State} {d l : Nat} (less : d < 22) (others : ∀ k, k ≠ d → (s.dowel k).waiting = [])
    (one : (s.dowel d).waiting = [l]) (after : ∀ k, ((s.darnLane d l).dowel k).waiting = []) : s.darnLanes = s.darnLane d l := by
  obtain ⟨before, behind, split⟩ := List.append_of_mem (List.mem_range.mpr less)
  have nodup : (before ++ d :: behind).Nodup := split ▸ List.nodup_range
  have out : d ∉ before := fun mem => (List.nodup_append.mp nodup).2.2 d mem d List.mem_cons_self rfl
  have quiet : ∀ {u : State} {k : Nat}, (u.dowel k).waiting = [] → (sortNat (u.dowel k).waiting).foldl (fun v l => v.darnLane k l) u = u :=
    fun empty => by
      rw [empty]
      rfl
  unfold State.darnLanes State.darnDirs
  rw [split, List.foldl_append, foldl_idle (fun k mem => quiet (others k (fun same => out (same ▸ mem)))), List.foldl_cons, one]
  exact foldl_idle (fun k _ => quiet (after k))

/-- A lane that fails before READY, alone, where its group has a spare. -/
theorem State.darnLanes_laneWaits {s : State} {d l : Nat} (less : d < 22) (none : ∀ k, (s.dowel k).waiting = [])
    (live : (s.dowel d).live l = true) (spare : (s.dowel d).used (l / 68) < 4) :
    (s.laneWaits d l).darnLanes = (s.laneWaits d l).laneDarned d l := by
  have here : (s.laneWaits d l).dowel d = { s.dowel d with waiting := [l] } := by
    unfold State.laneWaits
    rw [State.dowel_dowelSet_same, none d]
    rfl
  have apart : ∀ k, k ≠ d → (s.laneWaits d l).dowel k = s.dowel k := fun k ne => State.dowel_dowelSet_other _ _ ne
  have darn : (s.laneWaits d l).darnLane d l = (s.laneWaits d l).laneDarned d l :=
    State.darnLane_eq ((congrArg (Dowel.live · l) here).trans live) ((congrArg (Dowel.used · (l / 68)) here).symm ▸ spare)
  generalize s.laneWaits d l = u at here apart darn ⊢
  rw [← darn]
  refine State.darnLanes_one less (fun k ne => (congrArg Dowel.waiting (apart k ne)).trans (none k)) (congrArg Dowel.waiting here) (fun k => ?_)
  rw [darn]
  by_cases same : k = d
  · have set : (u.laneDarned d l).dowel d =
        { u.dowel d with darned := (u.dowel d).darned ++ [l], waiting := (u.dowel d).waiting.filter (· != l) } := u.dowel_dowelSet_same ..
    rw [same, set, here]
    simp
  · have set : (u.laneDarned d l).dowel k = u.dowel k := u.dowel_dowelSet_other _ same
    rw [set, apart k same, none k]

/-- The worst lane of an error window shown. -/
def State.worstShown (s : State) (d key : Nat) (win : Nat) (v : Word) : State := (s.dowelSet d { s.dowel d with worstAt := win }).rgSet key v

theorem State.worstShown_kept (s : State) (d key win : Nat) (v : Word) :
    (s.worstShown d key win v).dowel d = { s.dowel d with worstAt := win } ∧
      (∀ k, k ≠ d → (s.worstShown d key win v).dowel k = s.dowel k) ∧ sameRegs [key] s (s.worstShown d key win v) ∧
      (s.worstShown d key win v).tick = s.tick ∧ (s.worstShown d key win v).fuses = s.fuses ∧ (s.worstShown d key win v).nor = s.nor :=
  ⟨State.dowel_dowelSet_same .., fun _ ne => State.dowel_dowelSet_other _ _ ne, fun k out => rg_rgSet_other _ _ (by simpa using out), rfl, rfl, rfl⟩

/-- Are errors counted for a lane of a direction? -/
def State.countsErrors (s : State) (k : Nat) : Bool :=
  decide (s.rf Reg.NET_DARN_CFG 15 0 ≠ 0) && s.dowelPresent k && !s.rb Reg.NET_STATUS (2 + k)

/-- The end of an error window, with or without a worst lane to show. -/
theorem exec_laneErrorWindowEnd_shows (link : Fin 11) (dir : Fin 2) (group : Fin 8) (lane : Fin 68) (errors : Nat) (s : State) :
    ∃ u, (u = s ∨ ∃ win v, u = s.worstShown (2 * link.val + dir.val) (bank Reg.NET_WORST (link.val + 16 * dir.val)) win v) ∧
      exec (.laneErrorWindowEnd link dir group lane errors) s = .next
        (if s.countsErrors link.val && decide (s.rf Reg.NET_DARN_CFG 15 0 ≤ errors) then
          u.laneFail (2 * link.val + dir.val) (68 * group.val + lane.val) else u) := by
  refine ⟨if s.countsErrors link.val && (decide ((s.dowel (2 * link.val + dir.val)).worstAt ≠ s.now / (1000000 * max 1 (s.rf Reg.NET_DARN_CFG 23 16)) + 1) ||
      decide (s.rf (bank Reg.NET_WORST (link.val + 16 * dir.val)) 31 16 < errors)) then
    s.worstShown (2 * link.val + dir.val) (bank Reg.NET_WORST (link.val + 16 * dir.val))
      (s.now / (1000000 * max 1 (s.rf Reg.NET_DARN_CFG 23 16)) + 1)
      (BitVec.ofNat 32 (lane.val % 64 + 64 * group.val + 2 ^ 16 * min errors 0xFFFF)) else s, ?_, rfl⟩
  split
  · exact .inr ⟨_, _, rfl⟩
  · exact .inl rfl

/-! ## Regulator windows -/

/-- What the routes and widths of the network read. -/
structure State.routesAlike (s t : State) : Prop where
  ptn : t.ptn = s.ptn
  dirs : t.net.dirs = s.net.dirs
  fuses : t.fuses = s.fuses
  brup : t.brup = s.brup
  status : t.rg Reg.NET_STATUS = s.rg Reg.NET_STATUS

namespace State.routesAlike

theorem refl (s : State) : s.routesAlike s := ⟨rfl, rfl, rfl, rfl, rfl⟩

theorem trans {s t u : State} (h : s.routesAlike t) (k : t.routesAlike u) : s.routesAlike u :=
  ⟨k.ptn.trans h.ptn, k.dirs.trans h.dirs, k.fuses.trans h.fuses, k.brup.trans h.brup, k.status.trans h.status⟩

section
variable {s t : State} (h : s.routesAlike t)
include h

theorem rb (i : Nat) : t.rb Reg.NET_STATUS i = s.rb Reg.NET_STATUS i := State.rb_of_rg h.status i

theorem dowelPresent (k : Nat) : t.dowelPresent k = s.dowelPresent k := by
  unfold State.dowelPresent
  rw [h.fuses]

theorem nextHop (a b : Nat) : t.nextHop a b = s.nextHop a b := by
  unfold State.nextHop State.lowestFence
  rw [h.ptn, funext (fun k => h.rb (2 + k))]

theorem tableWay (b n a : Nat) : t.tableWay a b n = s.tableWay a b n := by
  induction n generalizing a with
  | zero => rfl
  | succ n ih =>
    unfold State.tableWay
    simp only [h.nextHop, h.dowelPresent, h.rb, ih]

theorem waysPast (links : Nat → Bool) (b n : Nat) : ∀ seen a, t.waysPast links b n seen a = s.waysPast links b n seen a := by
  induction n with
  | zero => exact fun _ _ => rfl
  | succ n ih =>
    intro seen a
    unfold State.waysPast
    simp only [h.brup, h.dowelPresent, h.rb, ih]

theorem freeWay (a b : Nat) : t.freeWay a b = s.freeWay a b := by
  unfold State.freeWay
  rw [h.waysPast, h.brup]

theorem route (a b n : Nat) : t.route a b n = s.route a b n := by
  have free : t.freeWaysServe = s.freeWaysServe := by
    unfold State.freeWaysServe
    simp only [h.freeWay]
  have tree : t.treeLinks = s.treeLinks := by
    unfold State.treeLinks
    simp only [h.waysPast]
  unfold State.route
  rw [h.brup, h.tableWay, free, h.freeWay, tree, h.waysPast]

theorem width (d : Nat) : t.width d = s.width d := by
  unfold State.width State.dowel
  rw [h.rb, h.dirs]

theorem limitEff (i p : Nat) : t.limitEff i p = s.limitEff i p := by
  have die : ∀ m, t.masterDie m = s.masterDie m := fun m => by
    unfold State.masterDie State.coreDie
    rw [h.ptn]
  unfold State.limitEff State.routeWidth
  simp only [die, h.route, h.width, h.ptn]

end

end State.routesAlike

/-- Two regulator entries at points share a record only where both are the same. -/
theorem regKey_inj {i j p q : Nat} (hi : i < 512) (hj : j < 512) (same : regKey i p = regKey j q) : i = j ∧ p = q := by
  unfold regKey at same
  omega

/-- What a window's end leaves: what the lining, the clock and the regulator entries are, and what routes read. -/
structure State.windowEnds (s t : State) : Prop where
  log : s.sameButLog t
  status : t.rg Reg.NET_STATUS = s.rg Reg.NET_STATUS

namespace State.windowEnds

theorem refl (s : State) : s.windowEnds s := ⟨s.sameButLog_rfl, rfl⟩

theorem trans {s t u : State} (h : s.windowEnds t) (k : t.windowEnds u) : s.windowEnds u :=
  ⟨State.sameButLog_trans h.log k.log, k.status.trans h.status⟩

theorem rAdd (s : State) {k : Nat} (hi lo n : Nat) (out : Reg.NET_STATUS ≠ k) : s.windowEnds (s.rAdd k hi lo n) :=
  ⟨s.rgSet_sameButLog _ _, rg_rAdd_other _ _ _ _ out⟩

theorem evSet (s : State) {k : Nat} (i : Nat) (out : Reg.NET_STATUS ≠ k) : s.windowEnds (s.evSet k i) :=
  ⟨rfl, rg_evSet_other _ _ out⟩

theorem guarMiss (s : State) (i p : Nat) : s.windowEnds (s.guarMiss i p) := by
  have counted : s.windowEnds ((s.rAdd (Reg.BWREG_MISS + 4 * s.ptn.running.regPart i) 31 0 1).rAdd
      (bank Reg.BWREG_ESTAT2 (regKey i p)) 15 0 1) := by
    have low : s.ptn.running.regPart i < 16 := Nat.mod_lt _ (by decide)
    exact (rAdd s _ _ _ (by simp only [Reg.NET_STATUS, Reg.BWREG_MISS]; omega)).trans
      (rAdd _ _ _ _ (bank_ge _ _ _ (by decide)).1)
  unfold State.guarMiss
  dsimp only
  generalize (s.rAdd (Reg.BWREG_MISS + 4 * s.ptn.running.regPart i) 31 0 1).rAdd (bank Reg.BWREG_ESTAT2 (regKey i p)) 15 0 1 = u at counted ⊢
  have raised : ∀ (v : State) n, v.windowEnds ((v.evSet Reg.BWREG_MISS_PEND n).raise 141) := fun v n => by
    have set := evSet v (k := Reg.BWREG_MISS_PEND) n (by decide)
    generalize v.evSet Reg.BWREG_MISS_PEND n = w at set ⊢
    exact set.trans ⟨State.raise_high_sameButLog w (by decide), w.rg_raise (.inr (by decide)) (by decide)⟩
  split
  · exact counted
  · split
    · exact counted.trans (State.windowEnds.trans ⟨u.rgSet_sameButLog _ _, rg_rgSet_other _ _ (by decide)⟩ (raised _ _))
    · exact counted.trans (raised _ _)

theorem regEnd (s : State) (i p : Nat) : s.windowEnds (s.regEnd i p) := by
  unfold State.regEnd
  dsimp only
  have missed : s.windowEnds (if s.regWaits i p && decide ((s.regul i p).served < s.guarEff i p) then s.guarMiss i p else s) := by
    split
    · exact guarMiss s i p
    · exact refl s
  generalize (if s.regWaits i p && decide ((s.regul i p).served < s.guarEff i p) then s.guarMiss i p else s) = u at missed ⊢
  split
  · exact missed.trans (rAdd u _ _ _ (bank_ge _ _ _ (by decide)).1)
  · exact missed

end State.windowEnds

/-- What is done for each entry at each of its points keeps what each doing keeps. -/
theorem State.eachEntry_inv {inv : State → Prop} {f : State → Nat → Nat → State} (keeps : ∀ u i p, inv u → inv (f u i p)) {s : State}
    (start : inv s) : inv (s.eachEntry f) :=
  foldl_inv (fun u i hu => by
    split
    · exact foldl_inv (fun v p hv => keeps v i p hv) _ hu
    · exact hu) _ start

/-- A window begun leaves everything but the regulators' records. -/
def State.butRegul (s t : State) : Prop := { t with net := { t.net with regs := s.net.regs } } = s

theorem State.butRegul.refl (s : State) : s.butRegul s := rfl

theorem State.butRegul.trans {s t u : State} (h : s.butRegul t) (k : t.butRegul u) : s.butRegul u := by
  unfold State.butRegul at *
  rw [← h, ← k]

theorem State.butRegul.alike {s t : State} (h : s.butRegul t) : s.routesAlike t := by
  unfold State.butRegul at h
  exact ⟨(congrArg State.ptn h :), (congrArg (fun u : State => u.net.dirs) h :), (congrArg State.fuses h :), (congrArg State.brup h :),
    (congrArg (fun u : State => u.rg Reg.NET_STATUS) h :)⟩

/-- The record of an entry whose window begins (R332). -/
def Regul.begun (lim : Int) (r : Regul) : Regul := { allow := lim - (if r.allow < 0 then min lim (-r.allow) else 0), served := 0, deferred := false }

theorem State.regBegin_butRegul (s : State) (i p : Nat) : s.butRegul (s.regBegin i p) := rfl

theorem State.regul_regBegin_same (s : State) (i p : Nat) : (s.regBegin i p).regul i p = (s.regul i p).begun (s.limitEff i p) := by
  have found : mfind (s.regBegin i p).net.regs (regKey i p) = some ((s.regul i p).begun (s.limitEff i p)) := mfind_mput_same ..
  exact congrArg (Option.getD · _) found

theorem State.regul_regBegin_other (s : State) {i p j q : Nat} (ne : regKey i p ≠ regKey j q) : (s.regBegin j q).regul i p = s.regul i p := by
  have found : mfind (s.regBegin j q).net.regs (regKey i p) = mfind s.net.regs (regKey i p) := mfind_mput_other _ _ ne
  have lim := (s.regBegin_butRegul j q).alike.limitEff i p
  rw [State.regul, found, lim, State.regul]

/-- Every valid entry's window begins at each of its points. -/
theorem State.regul_eachEntry_regBegin {s : State} {i p : Nat} (hi : i < 512) (hp : p < 18) (valid : s.ptn.running.regValid i = true)
    (point : bitOf (s.ptn.running.regPoints i) p = true) :
    (s.eachEntry State.regBegin).regul i p = (s.regul i p).begun (s.limitEff i p) := by
  have alike : ∀ {u : State}, s.butRegul u → u.limitEff i p = s.limitEff i p := fun h => h.alike.limitEff i p
  unfold State.eachEntry
  generalize everyEntry : List.range 512 = entries
  have mem : ∀ {j}, j ∈ entries ↔ j < 512 := everyEntry ▸ List.mem_range
  refine foldl_once (get := fun u : State => u.regul i p) (F := Regul.begun (s.limitEff i p)) (inv := s.butRegul) (everyEntry ▸ List.nodup_range)
    (mem.mpr hi) (fun u j hu => ?_) (fun u j inside ne hu => ?_) (fun u hu => ?_) (State.butRegul.refl s)
  · split
    · exact foldl_inv (fun v q hv => State.butRegul.trans hv (v.regBegin_butRegul j q)) _ hu
    · exact hu
  · split
    · have same : ∀ (ps : List Nat) (v : State), (ps.foldl (fun v q => v.regBegin j q) v).regul i p = v.regul i p :=
        foldl_keeps (fun v : State => v.regul i p) _
          (fun v q => v.regul_regBegin_other (fun same => ne (regKey_inj hi (mem.mp inside) same).1.symm))
      exact same _ u
    · rfl
  · rw [if_pos valid]
    exact foldl_once (get := fun u : State => u.regul i p) (F := Regul.begun (s.limitEff i p)) (inv := s.butRegul) (setBits_nodup _ _)
      (mem_setBits.mpr ⟨hp, point⟩) (fun v q hv => State.butRegul.trans hv (v.regBegin_butRegul i q))
      (fun v q _ ne _ => v.regul_regBegin_other (fun same => ne (by unfold regKey at same; omega)))
      (fun v hv => (v.regul_regBegin_same i p).trans (congrArg (Regul.begun · _) (congrArg Int.ofNat (alike hv)))) hu

theorem State.regul_congr {s t : State} (alike : s.routesAlike t) (regs : t.net.regs = s.net.regs) (i p : Nat) : t.regul i p = s.regul i p := by
  unfold State.regul
  rw [regs, alike.limitEff]

theorem State.sameButLog_net {s t : State} (h : s.sameButLog t) : t.net = s.net := (congrArg State.net h : _)
theorem State.sameButLog_lin {s t : State} (h : s.sameButLog t) : t.lin = s.lin := (congrArg State.lin h : _)

theorem State.windowEnds.alike {s t : State} (h : s.windowEnds t) : s.routesAlike t :=
  ⟨State.sameButLog_ptn h.log, congrArg Net.dirs (State.sameButLog_net h.log), (congrArg State.fuses h.log : _),
    (congrArg State.brup h.log : _), h.status⟩

/-- With nothing put aside in the lining, nothing tries again. -/
theorem State.retryBlocked_none {s : State} (blocked : s.lin.blocked = []) (due : s.lin.copyDue = []) :
    ∃ l, s.retryBlocked = { s with lin := l } := by
  have copies : ({ s with lin := { s.lin with blocked := [] } } : State).copiesDue =
      { s with lin := { s.lin with blocked := [], copyDue := [] } } := by
    unfold State.copiesDue
    simp only [due, List.foldl_nil]
  unfold State.retryBlocked
  rw [blocked, copies]
  exact ⟨_, rfl⟩

/-- The next regulator window begins. -/
theorem State.regWindow_begins {s : State} (blocked : s.lin.blocked = []) (due : s.lin.copyDue = []) :
    let t := s.regWindow.retryBlocked
    t.net.windowAt = t.now ∧ t.now = s.now ∧
      ∀ i p, i < 512 → p < 18 → s.ptn.running.regValid i = true → bitOf (s.ptn.running.regPoints i) p = true →
        t.regul i p = (s.regul i p).begun (s.limitEff i p) := by
  have ended : s.windowEnds (s.eachEntry State.regEnd) :=
    State.eachEntry_inv (inv := s.windowEnds) (fun u i p hu => hu.trans (.regEnd u i p)) (.refl s)
  have alike := ended.alike
  have net := State.sameButLog_net ended.log
  have lin := State.sameButLog_lin ended.log
  have now : (s.eachEntry State.regEnd).now = s.now := State.sameButLog_now ended.log
  unfold State.regWindow State.windowBegin
  generalize s.eachEntry State.regEnd = v at alike net lin now
  have begun : v.butRegul (v.eachEntry State.regBegin) :=
    State.eachEntry_inv (inv := v.butRegul) (fun u i p hu => hu.trans (u.regBegin_butRegul i p)) (State.butRegul.refl v)
  have each := fun {i p} hi hp => State.regul_eachEntry_regBegin (s := v) (i := i) (p := p) hi hp
  generalize v.eachEntry State.regBegin = w at begun each
  have linW : w.lin = v.lin := (congrArg State.lin begun : _)
  have nowW : w.now = v.now := (congrArg State.now begun : _)
  dsimp only
  obtain ⟨l, last⟩ := State.retryBlocked_none (s := { w with net := { w.net with windowAt := w.now } })
    (by rw [← blocked, ← lin, ← linW]) (by rw [← due, ← lin, ← linW])
  rw [last]
  refine ⟨rfl, nowW.trans now, fun i p hi hp valid point => ?_⟩
  have shown := State.regul_congr (s := w) (t := { w with net := { w.net with windowAt := w.now }, lin := l }) ⟨rfl, rfl, rfl, rfl, rfl⟩ rfl i p
  rw [← alike.ptn] at valid point
  rw [shown, each hi hp valid point, State.regul_congr alike (congrArg Net.regs net), alike.limitEff]

/-- Settles O35: a failing lane waits, or is darned where it is the only one that waits; each valid entry's record is begun once in the
fold over the entries, from what the window's end leaves of it. -/
theorem lanesAndRegulators : Obligations.LanesAndRegulators := by
  unfold Obligations.LanesAndRegulators
  intro link dir group lane s
  dsimp only
  have linkOf : (2 * link.val + dir.val) / 2 = link.val := by omega
  have groupOf : (68 * group.val + lane.val) / 68 = group.val := by omega
  have window := fun errors => exec_laneErrorWindowEnd_shows link dir group lane errors s
  refine ⟨fun en present up live fresh => ⟨?_, fun errors some most => ?_⟩, fun en present up live none spare => ?_, fun errors zero => ?_,
    fun errors few => ?_, fun blocked due => ?_⟩
  · refine ⟨_, congrArg Host.Outcome.next (State.laneFail_eq (linkOf.symm ▸ present) (linkOf.symm ▸ up) live fresh), ?_⟩
    rw [if_pos en]
    exact ⟨congrArg Dowel.waiting (State.dowel_dowelSet_same ..), fun k ne => State.dowel_dowelSet_other _ _ ne, rfl⟩
  · obtain ⟨u, shown, run⟩ := window errors
    have kept : u.tick = s.tick ∧ u.fuses = s.fuses ∧ u.nor = s.nor ∧ u.rg Reg.NET_STATUS = s.rg Reg.NET_STATUS ∧
        (∀ k, k ≠ 2 * link.val + dir.val → u.dowel k = s.dowel k) ∧ ∃ win, u.dowel (2 * link.val + dir.val) =
          { s.dowel (2 * link.val + dir.val) with worstAt := win } := by
      rcases shown with rfl | ⟨win, v, rfl⟩
      · exact ⟨rfl, rfl, rfl, rfl, fun _ _ => rfl, _, rfl⟩
      · obtain ⟨here, others, regs, tick, fuses, nor⟩ := s.worstShown_kept (2 * link.val + dir.val) (bank Reg.NET_WORST (link.val + 16 * dir.val)) win v
        exact ⟨tick, fuses, nor, regs _ (by simpa using (bank_ge _ _ _ (by decide)).1), others, win, here⟩
    obtain ⟨tick, fuses, nor, status, others, win, here⟩ := kept
    have presentU : u.dowelPresent link.val = true := by
      unfold State.dowelPresent
      rw [fuses]
      exact present
    have upU : u.rb Reg.NET_STATUS (2 + link.val) = false := (State.rb_of_rg status _).trans up
    rw [if_pos (by simp [State.countsErrors, some, present, up, most]), State.laneFail_eq (linkOf.symm ▸ presentU) (linkOf.symm ▸ upU)
      (by rw [here]; exact live) (by rw [here]; exact fresh), tick, if_pos en] at run
    refine ⟨_, run, ?_, fun k ne => (State.dowel_dowelSet_other _ _ ne).trans (others k ne), nor⟩
    exact (congrArg Dowel.waiting (State.dowel_dowelSet_same ..)).trans (by rw [here])
  · refine ⟨_, congrArg Host.Outcome.next (State.laneFail_eq (linkOf.symm ▸ present) (linkOf.symm ▸ up) live (by rw [none]; exact List.not_mem_nil)), ?_⟩
    have less : 2 * link.val + dir.val < 22 := by omega
    rw [if_neg (by simp [en]), State.darnLanes_laneWaits less none live (groupOf.symm ▸ spare)]
    have waits : (s.laneWaits (2 * link.val + dir.val) (68 * group.val + lane.val)).dowel (2 * link.val + dir.val) = _ :=
      State.dowel_dowelSet_same ..
    have apart : ∀ k, k ≠ 2 * link.val + dir.val →
        (s.laneWaits (2 * link.val + dir.val) (68 * group.val + lane.val)).dowel k = s.dowel k := fun k ne => State.dowel_dowelSet_other _ _ ne
    have nor : (s.laneWaits (2 * link.val + dir.val) (68 * group.val + lane.val)).nor = s.nor := rfl
    have regs : (s.laneWaits (2 * link.val + dir.val) (68 * group.val + lane.val)).regs = s.regs := rfl
    generalize s.laneWaits (2 * link.val + dir.val) (68 * group.val + lane.val) = u at waits apart nor regs ⊢
    have darned : (u.laneDarned (2 * link.val + dir.val) (68 * group.val + lane.val)).dowel (2 * link.val + dir.val) = _ :=
      u.dowel_dowelSet_same ..
    refine ⟨(congrArg Dowel.darned darned).trans (by rw [waits]), (congrArg Dowel.waiting darned).trans (by rw [waits, none]; simp),
      (congrArg Dowel.dropped darned).trans (by rw [waits]), congrArg (fun n : Nor => n.darns ++ _) nor, rb_evSet_same _ _ _ (by decide),
      fun k ne => (u.dowel_dowelSet_other _ ne).trans (apart k ne), ?_⟩
    exact sameRegs_trans (sameRegs_of_regs regs _) (sameRegs_evSet _ _ _)
  · exact congrArg Host.Outcome.next (by simp [zero])
  · obtain ⟨u, shown, run⟩ := window errors
    rw [if_neg (by simp [Nat.not_le_of_lt few])] at run
    refine ⟨u, run, ?_⟩
    rcases shown with rfl | ⟨win, v, rfl⟩
    · exact ⟨rfl, fun _ _ => rfl⟩
    · obtain ⟨here, -, regs, -⟩ := s.worstShown_kept (2 * link.val + dir.val) (bank Reg.NET_WORST (link.val + 16 * dir.val)) win v
      exact ⟨(congrArg Dowel.waiting here).trans rfl, regs⟩
  · obtain ⟨begun, now, each⟩ := State.regWindow_begins (s := s.at (s.net.windowAt + 1000 * s.ptn.running.regWindow)) blocked due
    have run : exec .regulatorWindowStart s = .next ((s.at (s.net.windowAt + 1000 * s.ptn.running.regWindow)).regWindow.retryBlocked) := rfl
    exact ⟨_, run, begun, (Nat.le_max_right _ _).trans_eq now.symm, each⟩

end Sys2Proof.Machine

/-! # The commands of jig channels and engines (R290, R291, R307, R308) -/

namespace Sys2Proof.Machine

/-! ## Channels -/

theorem State.chan_chanMap_same (s : State) (n : Nat) (f : Chan → Chan) : (s.chanMap n f).chan n = f (s.chan n) := s.chan_chanSet_same ..

theorem State.chan_chanMap_other (s : State) {n k : Nat} (f : Chan → Chan) (ne : k ≠ n) : (s.chanMap n f).chan k = s.chan k :=
  s.chan_chanSet_other _ ne

theorem State.chanMap_stopped (s : State) (n : Nat) (f : Chan → Chan) : (s.chanMap n f).jig.stopped = s.jig.stopped := rfl

theorem State.chanMap_jig (s : State) (n : Nat) (f : Chan → Chan) : { s.chanMap n f with jig := s.jig } = s := rfl

theorem State.chPc_of_rg {s t : State} {n : Nat} (same : t.rg (chReg Reg.JIG_CH_PC n) = s.rg (chReg Reg.JIG_CH_PC n)) : t.chPc n = s.chPc n :=
  State.rf_of_rg same 15 0

/-- A channel that does not wait for its last accesses is as it was. -/
theorem State.haltDone_eq (s : State) (ch : Nat) : s.haltDone ch =
    if (s.chan ch).stopping && (s.chan ch).moves.isEmpty && (s.chan ch).sent.isNone && !s.chFar ch then
      (s.chanMap ch (fun c => { c with st := .idle, wait := none, stopping := false })).jigForget ch
    else s := rfl

theorem State.haltDone_of_going {s : State} {ch : Nat} (going : (s.chan ch).stopping = false) : s.haltDone ch = s :=
  (s.haltDone_eq ch).trans (if_neg (by simp [going]))

theorem State.haltDone_of_moves {s : State} {ch : Nat} (moves : (s.chan ch).moves ≠ []) : s.haltDone ch = s :=
  (s.haltDone_eq ch).trans (if_neg (by simp [moves]))

/-- Nothing settles where the oldest MOVE has accesses out, or there is none. -/
theorem State.settleMoves_none {s : State} {ch : Nat} (none : (s.chan ch).moves = []) (fuel : Nat) : s.settleMoves ch fuel = s := by
  cases fuel with
  | zero => rfl
  | succ fuel =>
    rw [State.settleMoves, none]

theorem State.settleMoves_out {s : State} {ch : Nat} {v : MoveSt} {rest : List MoveSt} (moves : (s.chan ch).moves = v :: rest)
    (out : v.out = true) (fuel : Nat) : s.settleMoves ch fuel = s := by
  cases fuel with
  | zero => rfl
  | succ fuel =>
    rw [State.settleMoves, moves]
    exact if_pos out

/-- No access is put off. -/
def State.calmed (s : State) : State := { s with lin := s.lin.calm }

/-- Descriptors that have been used are gone. -/
def State.farUsed (s : State) : State := { s with spl := { s.spl with far := s.spl.far.filter (fun g => !g.used) } }

def State.usedGone (s : State) : State := s.calmed.farUsed

theorem State.chan_calmed (s : State) (n : Nat) : s.calmed.chan n = s.chan n := rfl
theorem State.chan_usedGone (s : State) (n : Nat) : s.usedGone.chan n = s.chan n := rfl
theorem State.chan_jigForget (s : State) (ch n : Nat) : (s.jigForget ch).chan n = s.chan n := rfl

theorem State.chan_usedGone_twice (s : State) (n : Nat) : s.usedGone.usedGone.chan n = s.chan n :=
  (s.usedGone.chan_usedGone n).trans (s.chan_usedGone n)

theorem onlyJig_usedGone (s : State) : onlyJig s s.usedGone := ⟨rfl, rfl, rfl⟩

theorem State.together_free' {s : State} {f : State → State} (free : (f s.calmed).lin.stuck = none) : s.together f = (f s.calmed).farUsed :=
  together_free s f free

/-- A command that makes accesses and finds nothing to do only lets used descriptors go. -/
theorem State.together_idle {s : State} {f : State → State} (idle : f s.calmed = s.calmed) : s.together f = s.usedGone := by
  have free : (f s.calmed).lin.stuck = none := by rw [idle]; rfl
  rw [State.together_free' free, idle]
  rfl

theorem State.opTry_none {s : State} {ch : Nat} (none : (s.chan ch).wait = none) : s.opTry ch = s := by
  simp only [State.opTry, none]

theorem State.opTry_moves {s : State} {ch : Nat} (moves : (s.chan ch).moves ≠ []) : s.opTry ch = s := by
  simp only [State.opTry]
  split
  · rfl
  · exact if_pos (by simp [moves])

/-- Nothing goes on behind an access of a channel whose MOVEs and operations are where they were. -/
theorem State.jigAfter_idle {s : State} {ch : Nat} (settled : ∀ u : State, u.chan ch = s.chan ch → ∀ fuel, u.settleMoves ch fuel = u)
    (halted : ∀ u : State, u.chan ch = s.chan ch → u.haltDone ch = u) (tried : ∀ u : State, u.chan ch = s.chan ch → u.opTry ch = u) :
    s.jigAfter ch = s.usedGone.usedGone := by
  have first : s.together (fun s => (s.settleMoves ch (2 * (s.chan ch).moves.length)).haltDone ch) = s.usedGone := by
    refine State.together_idle ?_
    rw [settled _ (s.chan_calmed ch)]
    exact halted _ (s.chan_calmed ch)
  have then_ : s.usedGone.together (fun s => s.opTry ch) = s.usedGone.usedGone :=
    State.together_idle (tried _ ((s.usedGone.chan_calmed ch).trans (s.chan_usedGone ch)))
  unfold State.jigAfter
  rw [first, then_]

theorem onlyJig_trans {s t u : State} (h : onlyJig s t) (k : onlyJig t u) : onlyJig s u := by
  obtain ⟨rest, lin, spl⟩ := h
  obtain ⟨restU, linU, splU⟩ := k
  refine ⟨?_, linU.trans lin, ?_⟩
  · rw [← rest, ← restU]
  · rw [← spl, ← splU]

/-! ## GO -/

/-- The registers that GO zeroes. -/
def goRegs : List Nat := [Reg.JIG_CH_PC, Reg.JIG_CH_BAD, Reg.JIG_CH_BAD_CODE, Reg.JIG_CH_FAULT, Reg.JIG_CH_PASSES,
  Reg.JIG_CH_WBASE, Reg.JIG_CH_WBASE + 4]

/-- A channel started. -/
def State.chanStarted (s : State) (n : Nat) : State :=
  (goRegs.foldl (fun u k => u.rgSet (chReg k n) 0) (s.chanSet n { st := .running })).rgSet (chReg Reg.JIG_CH_CRC n) 0xFFFFFFFF

theorem chReg_inj {j k n : Nat} (h : chReg j n = chReg k n) : j = k := by
  unfold chReg at h
  omega

theorem State.rg_foldl_zero (n : Nat) (ks : List Nat) {k : Nat} (s : State) :
    (ks.foldl (fun u k => u.rgSet (chReg k n) 0) s).rg (chReg k n) = if k ∈ ks then 0 else s.rg (chReg k n) := by
  induction ks generalizing s with
  | nil => rfl
  | cons j ks ih =>
    rw [List.foldl_cons, ih]
    by_cases later : k ∈ ks
    · rw [if_pos later, if_pos (List.mem_cons_of_mem _ later)]
    · rw [if_neg later]
      by_cases same : k = j
      · rw [if_pos (same ▸ List.mem_cons_self), same, rg_rgSet_same]
      · rw [if_neg (by simp [same, later]), rg_rgSet_other _ _ (fun h => same (chReg_inj h))]

theorem State.rg_chanStarted (s : State) (n : Nat) {k : Nat} (ne : k ≠ Reg.JIG_CH_CRC) :
    (s.chanStarted n).rg (chReg k n) = if k ∈ goRegs then 0 else s.rg (chReg k n) :=
  (rg_rgSet_other _ _ (fun h => ne (chReg_inj h))).trans (State.rg_foldl_zero n goRegs (s.chanSet n { st := .running }))

theorem State.foldl_rgSet_kept (n : Nat) (ks : List Nat) (s : State) :
    { ks.foldl (fun u k => u.rgSet (chReg k n) 0) s with regs := s.regs } = s := by
  induction ks generalizing s with
  | nil => rfl
  | cons k ks ih =>
    have rest := ih (s.rgSet (chReg k n) 0)
    rw [List.foldl_cons]
    generalize ks.foldl (fun u k => u.rgSet (chReg k n) 0) (s.rgSet (chReg k n) 0) = t at rest ⊢
    exact (congrArg (fun u : State => { u with regs := s.regs }) rest :)

theorem State.chanStarted_kept (s : State) (n : Nat) : { s.chanStarted n with regs := s.regs } = s.chanSet n { st := .running } := by
  have folded := State.foldl_rgSet_kept n goRegs (s.chanSet n { st := .running })
  unfold State.chanStarted
  generalize goRegs.foldl (fun u k => u.rgSet (chReg k n) 0) (s.chanSet n { st := .running }) = t at folded ⊢
  exact folded

section
variable {f : Func} {ch : Fin 320} {s : State} (ready : s.mustWait (portOf f) = false) (fitted : s.engFitted (ch.val / 32) = true)
include ready fitted

theorem exec_jigGo_reached (reached : s.jigReaches f ch.val = true) : exec (.jigGo f ch) s = .next
    (if (s.chan ch.val).st ≠ .idle then s.chanMap ch.val (fun x => { x with cmdres := 1 }) else s.chanStarted ch.val) :=
  congrArg Host.Outcome.next ((State.inOrder_of_ready ready ..).trans ((if_neg (by simp [fitted])).trans (if_neg (by simp [reached]))))

theorem exec_jigGo_unreached (unreached : s.jigReaches f ch.val = false) :
    exec (.jigGo f ch) s = .next (s.chanMap ch.val (fun x => { x with cmdres := 2 })) :=
  congrArg Host.Outcome.next ((State.inOrder_of_ready ready ..).trans ((if_neg (by simp [fitted])).trans (if_pos (by simp [unreached]))))

theorem exec_jigStop_reached (reached : s.jigReaches f ch.val = true) : exec (.jigStop f ch) s = .next
    (if (s.chan ch.val).st = .idle then s.chanMap ch.val (fun x => { x with cmdres := 1 })
      else ((s.chanMap ch.val (fun x => { x with cmdres := 0 })).jigHalt ch.val).jigAfter ch.val) :=
  congrArg Host.Outcome.next ((State.inOrder_of_ready ready ..).trans ((if_neg (by simp [fitted])).trans (if_neg (by simp [reached]))))

end

/-! ## STOP -/

/-- The requests of a channel that have not gone out are forgotten. -/
def State.jigQuiet (s : State) (ch : Nat) : State := s.forgetTickets (fun t => decide (t.ask.agent = jigAgent ch))

theorem onlyJig_chanMap (s : State) (n : Nat) (f : Chan → Chan) : onlyJig s (s.chanMap n f) := ⟨rfl, rfl, rfl⟩

theorem onlyJig_jigForget (s : State) (ch : Nat) : onlyJig (s.jigQuiet ch) (s.jigForget ch) := ⟨rfl, rfl, rfl⟩

theorem State.jigQuiet_lin (s : State) (ch : Nat) :
    (s.jigQuiet ch).lin = { s.lin with tickets := s.lin.tickets.filter (fun k => !decide (k.ask.agent = jigAgent ch)) } := rfl

theorem onlyJig_jigQuiet {s t : State} (h : onlyJig s t) (ch : Nat) : onlyJig (s.jigQuiet ch) (t.jigQuiet ch) := by
  obtain ⟨rest, lin, spl⟩ := h
  refine ⟨?_, ?_, spl⟩
  · exact (congrArg (fun u : State => u.jigQuiet ch) rest :)
  · rw [State.jigQuiet_lin, State.jigQuiet_lin]
    exact (congrArg (fun l : Lining => { l with tickets := l.tickets.filter (fun k => !decide (k.ask.agent = jigAgent ch)) }) lin :)

/-- Forgotten once, forgotten again. -/
theorem onlyJig_quiet_twice (s : State) (ch : Nat) : onlyJig (s.jigQuiet ch) ((s.jigQuiet ch).jigQuiet ch) := by
  refine ⟨rfl, ?_, rfl⟩
  rw [State.jigQuiet_lin (s.jigQuiet ch), State.jigQuiet_lin]
  simp [Lining.calm, List.filter_filter]

theorem onlyJig_forgets {s t : State} {ch : Nat} (h : onlyJig s t) : onlyJig (s.jigQuiet ch) (t.jigForget ch) :=
  onlyJig_trans (onlyJig_jigQuiet h ch) (onlyJig_jigForget t ch)

/-- A channel told to stop. -/
def State.chanHalting (s : State) (ch : Nat) : State :=
  ((s.chanMap ch (fun x => { x with cmdres := 0 })).chanMap ch (fun x => { x with
    moves := x.remains, stopping := true, wait := if x.sent.isSome then x.wait else none })).jigForget ch

theorem State.chan_chanHalting (s : State) (ch : Nat) : (s.chanHalting ch).chan ch = { s.chan ch with
    cmdres := 0, moves := (s.chan ch).remains, stopping := true, wait := if (s.chan ch).sent.isSome then (s.chan ch).wait else none } := by
  unfold State.chanHalting
  rw [State.chan_jigForget, State.chan_chanMap_same, State.chan_chanMap_same]
  rfl

theorem State.chan_chanHalting_other (s : State) {ch k : Nat} (ne : k ≠ ch) : (s.chanHalting ch).chan k = s.chan k := by
  unfold State.chanHalting
  rw [State.chan_jigForget, State.chan_chanMap_other _ _ ne, State.chan_chanMap_other _ _ ne]

theorem onlyJig_chanHalting (s : State) (ch : Nat) : onlyJig (s.jigQuiet ch) (s.chanHalting ch) :=
  onlyJig_forgets (onlyJig_trans (onlyJig_chanMap s ch _) (onlyJig_chanMap _ ch _))

theorem State.chFar_chanHalting (s : State) (ch : Nat) (near : s.chFar ch = false) : (s.chanHalting ch).chFar ch = false := by
  unfold State.chFar at near ⊢
  refine List.any_eq_false.mpr (fun f mem => ?_)
  exact List.any_eq_false.mp near f (List.mem_filter.mp mem).1

/-- A channel stopped (R290). -/
def State.chanStop (s : State) (ch : Nat) : State := ((s.chanMap ch (fun x => { x with cmdres := 0 })).jigHalt ch).jigAfter ch

theorem State.chanStop_eq (s : State) (ch : Nat) : s.chanStop ch = ((s.chanHalting ch).haltDone ch).jigAfter ch := rfl

/-- A channel whose last access has completed. -/
def State.chanIdled (s : State) (ch : Nat) : State := (s.chanMap ch (fun c => { c with st := .idle, wait := none, stopping := false })).jigForget ch

theorem State.chan_chanIdled (s : State) (ch : Nat) :
    (s.chanIdled ch).chan ch = { s.chan ch with st := .idle, wait := none, stopping := false } := by
  unfold State.chanIdled
  rw [State.chan_jigForget, State.chan_chanMap_same]

theorem State.chan_chanIdled_other (s : State) {ch k : Nat} (ne : k ≠ ch) : (s.chanIdled ch).chan k = s.chan k := by
  unfold State.chanIdled
  rw [State.chan_jigForget, State.chan_chanMap_other _ _ ne]

theorem onlyJig_chanIdled (s : State) (ch : Nat) : onlyJig (s.jigQuiet ch) (s.chanIdled ch) := by
  unfold State.chanIdled
  exact onlyJig_forgets (onlyJig_chanMap s ch _)

/-- A channel stopped that has nothing out. -/
theorem State.jigStop_idle {s : State} {ch : Nat} (moves : (s.chan ch).moves = []) (sent : (s.chan ch).sent = none)
    (near : s.chFar ch = false) :
    (s.chanStop ch).chan ch = { s.chan ch with st := .idle, wait := none, cmdres := 0, stopping := false } ∧
      (∀ k, k ≠ ch → (s.chanStop ch).chan k = s.chan k) ∧ onlyJig (s.jigQuiet ch) (s.chanStop ch) := by
  have halting := s.chan_chanHalting ch
  have apart := fun k (ne : k ≠ ch) => s.chan_chanHalting_other ne
  have only := onlyJig_chanHalting s ch
  have far := s.chFar_chanHalting ch near
  rw [State.chanStop_eq]
  generalize s.chanHalting ch = u at halting apart only far
  have empty : (s.chan ch).remains = [] := by
    unfold Chan.remains
    rw [moves]
    rfl
  rw [sent, empty] at halting
  have done : u.haltDone ch = u.chanIdled ch := (u.haltDone_eq ch).trans (if_pos (by simp [halting, sent, far]))
  have idled : (u.chanIdled ch).chan ch = { s.chan ch with st := .idle, wait := none, cmdres := 0, stopping := false } := by
    rw [State.chan_chanIdled, halting, ← moves, ← sent]
  have apartV : ∀ k, k ≠ ch → (u.chanIdled ch).chan k = s.chan k := fun k ne => (u.chan_chanIdled_other ne).trans (apart k ne)
  have onlyV : onlyJig (s.jigQuiet ch) (u.chanIdled ch) :=
    onlyJig_trans (onlyJig_quiet_twice s ch) (onlyJig_trans (onlyJig_jigQuiet only ch) (onlyJig_chanIdled u ch))
  rw [done]
  generalize u.chanIdled ch = v at idled apartV onlyV
  have after : v.jigAfter ch = v.usedGone.usedGone :=
    State.jigAfter_idle (fun w same fuel => State.settleMoves_none (by rw [same, idled]; exact moves) fuel)
      (fun w same => State.haltDone_of_going (by rw [same, idled])) (fun w same => State.opTry_none (by rw [same, idled]))
  rw [after]
  exact ⟨(v.chan_usedGone_twice ch).trans idled, fun k ne => (v.chan_usedGone_twice k).trans (apartV k ne), onlyJig_trans onlyV (onlyJig_trans (onlyJig_usedGone v) (onlyJig_usedGone _))⟩

/-- A channel stopped whose oldest MOVE has accesses out. -/
theorem State.jigStop_out {s : State} {ch : Nat} {v : MoveSt} {rest : List MoveSt} (moves : (s.chan ch).moves = v :: rest)
    (out : v.out = true) : (s.chanStop ch).chan ch = { s.chan ch with
        cmdres := 0, moves := (s.chan ch).remains, stopping := true, wait := if (s.chan ch).sent.isSome then (s.chan ch).wait else none } ∧
      (∀ k, k ≠ ch → (s.chanStop ch).chan k = s.chan k) ∧ onlyJig (s.jigQuiet ch) (s.chanStop ch) := by
  have halting := s.chan_chanHalting ch
  have apart := fun k (ne : k ≠ ch) => s.chan_chanHalting_other ne
  have only := onlyJig_chanHalting s ch
  rw [State.chanStop_eq]
  generalize s.chanHalting ch = u at halting apart only
  obtain ⟨more, remains⟩ : ∃ more, (s.chan ch).remains = { v with dead := true } :: more := by
    unfold Chan.remains
    rw [moves, List.filter_cons_of_pos (by simp [out])]
    exact ⟨_, rfl⟩
  have held : ∀ w : State, w.chan ch = u.chan ch → (w.chan ch).moves = { v with dead := true } :: more := fun w same => by
    rw [same, halting]
    exact remains
  have stays : ∀ w : State, w.chan ch = u.chan ch → (w.chan ch).moves ≠ [] := fun w same => by
    rw [held w same]
    exact List.cons_ne_nil _ _
  have outDead : ({ v with dead := true } : MoveSt).out = true := out
  have after : u.jigAfter ch = u.usedGone.usedGone :=
    State.jigAfter_idle (fun w same fuel => State.settleMoves_out (held w same) outDead fuel)
      (fun w same => State.haltDone_of_moves (stays w same)) (fun w same => State.opTry_moves (stays w same))
  rw [State.haltDone_of_moves (stays u rfl), after]
  exact ⟨(u.chan_usedGone_twice ch).trans halting, fun k ne => (u.chan_usedGone_twice k).trans (apart k ne), onlyJig_trans only (onlyJig_trans (onlyJig_usedGone u) (onlyJig_usedGone _))⟩

/-! ## A fetch that fails -/

/-- A channel whose program is not executable, before this is noted. -/
def State.chanFaulted (s : State) (ch : Nat) (v : Word) : State :=
  ((s.chanMap ch (fun c => { c with st := .faulted, moves := c.remains, wait := none })).jigForget ch).rgSet (chReg Reg.JIG_CH_FAULT ch) v

/-- The address that a record of a fault shows. -/
def State.faultAddr (s : State) (ch code : Nat) : Nat :=
  if code = fBusErr then (s.rg64 (chReg Reg.JIG_CH_PROG ch) + s.chPc ch) % 2 ^ 48 else 0

theorem State.jigFault_eq (s : State) (ch code sub : Nat) : s.jigFault ch code sub =
    (let u := s.chanFaulted ch (BitVec.ofNat 32 (code + 2 ^ 16 * sub))
     (u.err code (unitId 6 ch) (some (u.chPart ch)) (u.faultAddr ch code) 0).chPend Reg.JIG_FAULT_PEND 135 ch) := rfl

theorem State.rg_chPend (s : State) {reg src ch k : Nat} (fits : src < 4096) (out : unnotedKey k) (ne : k ≠ reg + 4 * (ch / 32)) :
    (s.chPend reg src ch).rg k = s.rg k :=
  (State.rg_raise _ out fits).trans (rg_evSet_other _ _ ne)

/-- A PEND bit of a channel and its source. -/
theorem State.chPend_kept (s : State) {reg src ch : Nat} (high : 128 ≤ src) (apart : Reg.IRQ_RAW + 4 * (src / 32) ≠ reg + 4 * (ch / 32)) :
    s.sameButLog (s.chPend reg src ch) ∧ (s.chPend reg src ch).rb (reg + 4 * (ch / 32)) (ch % 32) = true ∧
      (s.chPend reg src ch).rb (Reg.IRQ_RAW + 4 * (src / 32)) (src % 32) = true := by
  have set : (s.evSet (reg + 4 * (ch / 32)) (ch % 32)).rb (reg + 4 * (ch / 32)) (ch % 32) = true :=
    rb_evSet_same s _ _ (Nat.mod_lt _ (by decide))
  have kept : s.sameButLog (s.evSet (reg + 4 * (ch / 32)) (ch % 32)) := rfl
  unfold State.chPend
  generalize s.evSet (reg + 4 * (ch / 32)) (ch % 32) = u at set kept ⊢
  exact ⟨State.sameButLog_trans kept (State.raise_high_sameButLog u high),
    (sameRegs_rb (State.raise_high_sameRegs u high) (by simpa using apart.symm) _).trans set, State.rb_raise_high u high⟩

/-- The low half of a fault's word is its code. -/
theorem rf_rgSet_low {s : State} {k code : Nat} (fits : code < 2 ^ 16) (sub : Nat) :
    (s.rgSet k (BitVec.ofNat 32 (code + 2 ^ 16 * sub))).rf k 15 0 = code := by
  rw [State.rf, rg_rgSet_same, BitVec.toNat_ofNat, bitsOf]
  omega

theorem State.sameButLog_jig {s t : State} (h : s.sameButLog t) : t.jig = s.jig := (congrArg State.jig h : _)

theorem State.chan_of_jig {s t : State} (h : t.jig = s.jig) (n : Nat) : t.chan n = s.chan n := congrArg (fun j : Jig => mget j.chans n {}) h

/-- What a fault of a channel leaves. -/
structure State.faults (s t : State) (ch code : Nat) : Prop where
  st : (t.chan ch).st = .faulted
  code : t.rf (chReg Reg.JIG_CH_FAULT ch) 15 0 = code
  pend : t.rb (Reg.JIG_FAULT_PEND + 4 * (ch / 32)) (ch % 32) = true
  raw : t.rb (Reg.IRQ_RAW + 16) 7 = true
  others : ∀ k, k ≠ ch → t.chan k = s.chan k
  hbm : t.hbm = s.hbm
  lin : t.lin = (s.jigQuiet ch).lin

theorem State.chan_chanFaulted (s : State) (ch : Nat) (v : Word) :
    (s.chanFaulted ch v).chan ch = { s.chan ch with st := .faulted, moves := (s.chan ch).remains, wait := none } := by
  unfold State.chanFaulted
  rw [State.chan_rgSet, State.chan_jigForget, State.chan_chanMap_same]

theorem State.chan_chanFaulted_other (s : State) {ch k : Nat} (v : Word) (ne : k ≠ ch) : (s.chanFaulted ch v).chan k = s.chan k := by
  unfold State.chanFaulted
  rw [State.chan_rgSet, State.chan_jigForget, State.chan_chanMap_other _ _ ne]

theorem State.jigFault_effect (s : State) {ch code : Nat} (less : ch < 320) (fits : code < 2 ^ 16) (sub : Nat) :
    s.faults (s.jigFault ch code sub) ch code := by
  rw [State.jigFault_eq]
  have here := s.chan_chanFaulted ch (BitVec.ofNat 32 (code + 2 ^ 16 * sub))
  have others := fun k (ne : k ≠ ch) => s.chan_chanFaulted_other (BitVec.ofNat 32 (code + 2 ^ 16 * sub)) ne
  have word : (s.chanFaulted ch (BitVec.ofNat 32 (code + 2 ^ 16 * sub))).rf (chReg Reg.JIG_CH_FAULT ch) 15 0 = code := rf_rgSet_low fits sub
  have hbm : (s.chanFaulted ch (BitVec.ofNat 32 (code + 2 ^ 16 * sub))).hbm = s.hbm := rfl
  have lin : (s.chanFaulted ch (BitVec.ofNat 32 (code + 2 ^ 16 * sub))).lin = (s.jigQuiet ch).lin := rfl
  generalize s.chanFaulted ch (BitVec.ofNat 32 (code + 2 ^ 16 * sub)) = u at here others word hbm lin
  dsimp only
  have out : unnotedKey (chReg Reg.JIG_CH_FAULT ch) := .inr (by simp only [chReg, Reg.JIG_CH_FAULT]; omega)
  have logged := State.err_sameButLog u code (unitId 6 ch) (some (u.chPart ch)) (u.faultAddr ch code) 0
  have wordV := (State.rf_of_rg (u.rg_err out fits (unitId 6 ch) (some (u.chPart ch)) (u.faultAddr ch code) 0) 15 0).trans word
  generalize u.err code (unitId 6 ch) (some (u.chPart ch)) (u.faultAddr ch code) 0 = v at logged wordV
  obtain ⟨kept, pend, raw⟩ := v.chPend_kept (reg := Reg.JIG_FAULT_PEND) (src := 135) (ch := ch) (by decide)
    (by simp only [Reg.IRQ_RAW, Reg.JIG_FAULT_PEND]; omega)
  have all := State.sameButLog_trans logged kept
  have chans := State.chan_of_jig (State.sameButLog_jig all)
  exact ⟨(congrArg Chan.st ((chans ch).trans here)), (State.rf_of_rg (v.rg_chPend (by decide) out
      (by simp only [chReg, Reg.JIG_CH_FAULT, Reg.JIG_FAULT_PEND]; omega)) 15 0).trans wordV, pend, raw,
    fun k ne => (chans k).trans (others k ne), (State.sameButLog_hbm all).trans hbm, (State.sameButLog_lin all).trans lin⟩

theorem exec_jigFetchFail_ready {ch : Fin 320} {s : State} (ready : s.chReady ch.val = true) (code : Option (BitVec 16)) :
    exec (.jigFetchFail ch code) s = .next (match code with
      | some c => s.jigFault ch.val fBusErr c.toNat
      | none => s.jigFault ch.val fIllegal 0) :=
  congrArg Host.Outcome.next (if_neg (by simp [ready]))

/-! ## RESUME -/

/-- The channels of an engine that a stop-all holds. -/
def State.engHeld (s : State) (e : Nat) : List Nat := (engChans e).filter (fun n => (s.chan n).st == .stopped && !(s.chan n).stopping)

/-- An engine whose stop-all is over. -/
def State.engResumed (s : State) (e : Nat) : State :=
  (s.engHeld e).foldl (fun u n => u.chanMap n (fun x => { x with st := .running }))
    { s with jig := { s.jig with stopped := s.jig.stopped.filter (· != e) } }

theorem State.chanMaps_kept (ns : List Nat) (f : Chan → Chan) (s : State) :
    { ns.foldl (fun u n => u.chanMap n f) s with jig := s.jig } = s ∧ (ns.foldl (fun u n => u.chanMap n f) s).jig.stopped = s.jig.stopped := by
  induction ns generalizing s with
  | nil => exact ⟨rfl, rfl⟩
  | cons n ns ih =>
    obtain ⟨rest, stopped⟩ := ih (s.chanMap n f)
    rw [List.foldl_cons]
    exact ⟨(congrArg (fun u : State => { u with jig := s.jig }) rest :), stopped⟩

theorem State.chan_chanMaps (ns : List Nat) {f : Chan → Chan} (twice : ∀ x, f (f x) = f x) (s : State) (k : Nat) :
    (ns.foldl (fun u n => u.chanMap n f) s).chan k = if k ∈ ns then f (s.chan k) else s.chan k := by
  induction ns generalizing s with
  | nil => rfl
  | cons n ns ih =>
    rw [List.foldl_cons, ih]
    by_cases same : k = n
    · rw [same, State.chan_chanMap_same, twice, if_pos List.mem_cons_self, ite_self]
    · rw [State.chan_chanMap_other _ _ same]
      simp [same]

theorem State.mem_engHeld {s : State} {e n : Nat} :
    n ∈ s.engHeld e ↔ n ∈ engChans e ∧ (s.chan n).st = .stopped ∧ (s.chan n).stopping = false := by
  simp [State.engHeld]

theorem State.chan_engResumed (s : State) (e n : Nat) :
    (s.engResumed e).chan n = if n ∈ s.engHeld e then { s.chan n with st := .running } else s.chan n := by
  have all := State.chan_chanMaps (s.engHeld e) (f := fun x => { x with st := .running }) (fun _ => rfl)
    { s with jig := { s.jig with stopped := s.jig.stopped.filter (· != e) } } n
  exact all

theorem State.engResumed_kept (s : State) (e : Nat) :
    { s.engResumed e with jig := s.jig } = s ∧ (s.engResumed e).jig.stopped = s.jig.stopped.filter (· != e) := by
  obtain ⟨rest, stopped⟩ := State.chanMaps_kept (s.engHeld e) (fun x => { x with st := .running })
    { s with jig := { s.jig with stopped := s.jig.stopped.filter (· != e) } }
  unfold State.engResumed
  generalize (s.engHeld e).foldl (fun u n => u.chanMap n (fun x => { x with st := .running }))
    { s with jig := { s.jig with stopped := s.jig.stopped.filter (· != e) } } = t at rest stopped
  exact ⟨(congrArg (fun u : State => { u with jig := s.jig }) rest :), stopped⟩

/-- The channel whose bad MOVE stopped an engine. -/
def State.engFirst (s : State) (e : Nat) : Nat := 32 * e + s.rf (Reg.JIG_ENG + 4 * e) 10 6

theorem State.jigResume_stopped {f : Func} {e : Nat} {s : State} (pf : isPf f = true) (stopped : s.jig.stopped.contains e = true)
    (skip : Bool) : s.jigResume f e skip =
      if skip && (s.engHeld e).contains (s.engFirst e) then (s.engResumed e).goOn (s.engFirst e) else s.engResumed e :=
  if_neg (by simp [pf]; simpa using stopped)

/-- A channel goes on at a PC within its program, where no stop-all waits. -/
theorem State.goTo_runs {s : State} {ch pc : Nat} (on : s.jig.stopped.contains (ch / 32) = false) (going : (s.chan ch).stopping = false)
    (inside : pc < 0x10000) : s.goTo ch pc = (s.rfSet (chReg Reg.JIG_CH_PC ch) 15 0 pc).chanMap ch (fun c =>
      { c with st := .running, wait := none, sent := none }) := by
  unfold State.goTo
  dsimp only
  rw [if_neg (by simp [going]), if_neg (Nat.not_le_of_lt inside), on]
  rfl

/-- What going on leaves. -/
theorem State.goTo_effect {s : State} {ch pc : Nat} (on : s.jig.stopped.contains (ch / 32) = false) (going : (s.chan ch).stopping = false)
    (inside : pc < 0x10000) : (s.goTo ch pc).chPc ch = pc ∧ (s.goTo ch pc).chan ch = { s.chan ch with st := .running, wait := none, sent := none } ∧
      (∀ k, k ≠ ch → (s.goTo ch pc).chan k = s.chan k) ∧ (s.goTo ch pc).jig.stopped = s.jig.stopped ∧
      { s.goTo ch pc with jig := s.jig, regs := s.regs } = s ∧ sameRegs [chReg Reg.JIG_CH_PC ch] s (s.goTo ch pc) := by
  rw [State.goTo_runs on going inside]
  have pcSet : (s.rfSet (chReg Reg.JIG_CH_PC ch) 15 0 pc).chPc ch = pc :=
    (rf_rfSet_same s _ _ _ _ (by decide) (by decide)).trans (Nat.mod_eq_of_lt inside)
  have regs : sameRegs [chReg Reg.JIG_CH_PC ch] s (s.rfSet (chReg Reg.JIG_CH_PC ch) 15 0 pc) := sameRegs_rfSet s _ _ _ _
  have kept : { s.rfSet (chReg Reg.JIG_CH_PC ch) 15 0 pc with regs := s.regs } = s := rfl
  generalize s.rfSet (chReg Reg.JIG_CH_PC ch) 15 0 pc = u at pcSet regs kept
  have jig : u.jig = s.jig := (congrArg State.jig kept : _)
  have chans := State.chan_of_jig jig
  refine ⟨pcSet, (u.chan_chanMap_same ..).trans (by rw [chans]), fun k ne => (u.chan_chanMap_other _ ne).trans (chans k),
    (u.chanMap_stopped ..).trans (congrArg Jig.stopped jig), ?_, regs⟩
  rw [← kept]
  rfl

theorem mem_engChans {e n : Nat} : n ∈ engChans e ↔ n / 32 = e := by
  unfold engChans
  rw [List.mem_map]
  constructor
  · rintro ⟨i, mem, rfl⟩
    have := List.mem_range.mp mem
    omega
  · intro h
    exact ⟨n % 32, List.mem_range.mpr (Nat.mod_lt _ (by decide)), by omega⟩

/-- Settles O36: each command by what it sets of its channel; a channel told to stop ends at once, or holds its MOVEs, and nothing that
follows an access moves it. -/
theorem jigCommands : Obligations.JigCommands := by
  unfold Obligations.JigCommands
  refine ⟨fun f ch s => ?_, fun f e on s => ?_⟩
  · dsimp only
    refine ⟨fun ready fitted reached => ⟨fun idle => ?_, fun busy => ?_, fun busy moves sent near => ?_, fun v rest busy moves out => ?_,
      fun idle => ?_⟩, fun ready fitted unreached => ?_, fun code ready => ?_⟩
    · have run := exec_jigGo_reached ready fitted reached
      rw [if_neg (by simp [idle])] at run
      have zero : ∀ k, k ∈ goRegs → (s.chanStarted ch.val).rg (chReg k ch.val) = 0 := fun k mem =>
        (s.rg_chanStarted ch.val (fun same => absurd (same ▸ mem) (by decide))).trans (if_pos mem)
      have kept : ∀ k, k ≠ Reg.JIG_CH_CRC → k ∉ goRegs → (s.chanStarted ch.val).rg (chReg k ch.val) = s.rg (chReg k ch.val) :=
        fun k ne out => (s.rg_chanStarted ch.val ne).trans (if_neg out)
      have rest := s.chanStarted_kept ch.val
      have crc : (s.chanStarted ch.val).rg (chReg Reg.JIG_CH_CRC ch.val) = 0xFFFFFFFF := rg_rgSet_same ..
      generalize s.chanStarted ch.val = t at run zero kept rest crc
      have chans := State.chan_of_jig ((congrArg State.jig rest :) : t.jig = (s.chanSet ch.val { st := .running }).jig)
      have next : ∀ k, chReg k ch.val + 4 = chReg (k + 4) ch.val := fun k => by
        unfold chReg
        omega
      refine ⟨t, run, (chans _).trans (s.chan_chanSet_same ..), ?_, zero _ (by decide), zero _ (by decide), zero _ (by decide), ?_, crc, ?_,
        fun k ne => (chans k).trans (s.chan_chanSet_other _ ne), (congrArg (fun u : State => { u with jig := s.jig }) rest :)⟩
      · rw [State.chPc, State.rf, zero _ (by decide)]
        rfl
      · rw [State.rg64, next, zero _ (by decide), zero _ (by decide)]
        rfl
      · rw [State.rg64, next, kept _ (by decide) (by decide), kept _ (by decide) (by decide), State.rg64, next]
    · refine ⟨_, (exec_jigGo_reached ready fitted reached).trans (congrArg _ (if_pos busy)), s.chan_chanMap_same ..,
        fun k ne => s.chan_chanMap_other _ ne, rfl⟩
    · have run := (exec_jigStop_reached ready fitted reached).trans (congrArg _ (if_neg busy))
      obtain ⟨here, others, only⟩ := State.jigStop_idle moves sent near
      exact ⟨_, run, here, others, only⟩
    · have run := (exec_jigStop_reached ready fitted reached).trans (congrArg _ (if_neg busy))
      obtain ⟨here, others, only⟩ := State.jigStop_out moves out
      exact ⟨_, run, here, others, only⟩
    · exact ⟨_, (exec_jigStop_reached ready fitted reached).trans (congrArg _ (if_pos idle)), s.chan_chanMap_same ..,
        fun k ne => s.chan_chanMap_other _ ne, rfl⟩
    · exact ⟨_, exec_jigGo_unreached ready fitted unreached, s.chan_chanMap_same .., fun k ne => s.chan_chanMap_other _ ne, rfl⟩
    · have run := exec_jigFetchFail_ready ready code
      cases code with
      | none =>
        obtain ⟨st, word, pend, raw, others, hbm, lin⟩ := s.jigFault_effect ch.isLt (code := fIllegal) (by decide) 0
        exact ⟨_, run, st, word, pend, raw, others, hbm, lin⟩
      | some c =>
        obtain ⟨st, word, pend, raw, others, hbm, lin⟩ := s.jigFault_effect ch.isLt (code := fBusErr) (by decide) c.toNat
        exact ⟨_, run, st, word, pend, raw, others, hbm, lin⟩
  · dsimp only
    intro ready pf
    have chans := s.chan_engResumed e.val
    obtain ⟨rest, off⟩ := s.engResumed_kept e.val
    have gone : e.val ∉ (s.engResumed e.val).jig.stopped := by simp [off]
    have held : ∀ n ∈ engChans e.val, (s.chan n).st = .stopped → (s.chan n).stopping = false →
        (s.engResumed e.val).chan n = { s.chan n with st := .running } := fun n mem st going =>
      (chans n).trans (if_pos (State.mem_engHeld.mpr ⟨mem, st, going⟩))
    refine ⟨fun stopped => ⟨?_, fun st going inside mem => ?_⟩, fun fitted idle => ?_, fun ⟨n, mem, busy⟩ => ?_⟩
    · refine ⟨_, congrArg Host.Outcome.next ((State.inOrder_of_ready ready ..).trans (State.jigResume_stopped pf stopped false)), gone, held,
        fun n out => ?_, rest⟩
      refine (chans n).trans (if_neg (fun mem => ?_))
      obtain ⟨inEngine, st, going⟩ := State.mem_engHeld.mp mem
      rcases out with out | out | out
      · exact out inEngine
      · exact out st
      · exact absurd (going.symm.trans out) (by decide)
    · have first : (s.engHeld e.val).contains (s.engFirst e.val) = true :=
        List.contains_iff_mem.mpr (State.mem_engHeld.mpr ⟨mem, st, going⟩)
      have run := (State.inOrder_of_ready ready (.resumeContinue f e) (fun u => u.jigResume f e.val true)).trans
        ((State.jigResume_stopped pf stopped true).trans (if_pos (by rw [first]; rfl)))
      have here := held _ mem st going
      change (s.engResumed e.val).chan (s.engFirst e.val) = _ at here
      have pc : (s.engResumed e.val).chPc (s.engFirst e.val) = s.chPc (s.engFirst e.val) :=
        (congrArg (fun u : State => u.chPc (s.engFirst e.val)) rest :)
      change s.chPc (s.engFirst e.val) + 16 < 0x10000 at inside
      have engine : s.engFirst e.val / 32 = e.val := mem_engChans.mp mem
      have run' : exec (.resumeContinue f e) s = .next ((s.engResumed e.val).goOn (s.engFirst e.val)) := congrArg Host.Outcome.next run
      rw [State.goOn, pc] at run'
      generalize s.engResumed e.val = u at run' here gone held
      obtain ⟨pcSet, first', others, stoppedU, -, -⟩ := State.goTo_effect (s := u) (ch := s.engFirst e.val)
        (by rw [engine, Bool.eq_false_iff]; simpa using gone) (by rw [here]; exact going) inside
      exact ⟨_, run', stoppedU ▸ gone, pcSet, congrArg Chan.st first', fun n mem ne st going => (others n ne).trans (held n mem st going)⟩
    · exact ⟨_, congrArg Host.Outcome.next ((State.inOrder_of_ready ready ..).trans (if_pos (by simpa [pf, fitted] using idle))),
        rb_rbSet_same _ _ _ _ (by decide), onlyRegs_rbSet ..⟩
    · refine congrArg Host.Outcome.next ((State.inOrder_of_ready ready ..).trans (if_neg (fun all => busy ?_)))
      simp only [Bool.and_eq_true, List.all_eq_true] at all
      exact eq_of_beq (all.2 n mem)

end Sys2Proof.Machine

/-! # LOOP, WAIT, SIGNAL and END (R302 to R305) -/

namespace Sys2Proof.Machine

/-! ## Instruction fields -/

theorem bitsOf_narrow {x hi lo : Nat} (h : bitsOf x hi lo = 0) (le : lo ≤ hi) : bitOf x lo = false ∧ bitsOf x hi (lo + 1) = 0 := by
  have split : hi + 1 - lo = (hi + 1 - (lo + 1)) + 1 := by omega
  unfold bitsOf at h ⊢
  unfold bitOf
  rw [split, Nat.pow_succ, Nat.mul_comm] at h
  have low : x / 2 ^ lo % 2 = 0 := by rw [← Nat.mod_mul_right_mod (x / 2 ^ lo) 2 (2 ^ (hi + 1 - (lo + 1))), h]
  refine ⟨by simp [low], ?_⟩
  rw [Nat.pow_succ, ← Nat.div_div_eq_div_mul, ← Nat.mod_mul_right_div_self, h, Nat.zero_div]

/-! ## What lets a channel's instruction run -/

theorem State.chReady_parts {s : State} {n : Nat} (ready : s.chReady n = true) :
    (s.chan n).st = .running ∧ (s.chan n).wait = none ∧ (s.chan n).stopping = false := by
  simp [State.chReady] at ready
  exact ⟨ready.1.1.1, ready.1.1.2, ready.1.2⟩

/-- An access of a command is done, or nothing of it is put off: what it leaves, used descriptors gone. -/
theorem State.together_does {s : State} {f : State → State} {u : State} (does : f s.calmed = u) (free : u.lin.stuck = none) :
    s.together f = u.farUsed := by
  subst does
  exact State.together_free' free

/-- What going on to the next instruction leaves. -/
structure State.chanGoesOn (s t : State) (n : Nat) : Prop where
  pc : t.chPc n = s.chPc n + 16
  chan : t.chan n = { s.chan n with st := .running, wait := none, sent := none }
  others : ∀ k, k ≠ n → t.chan k = s.chan k
  rest : { t with jig := s.jig, regs := s.regs } = s
  regs : sameRegs [chReg Reg.JIG_CH_PC n] s t

theorem State.goOn_effect {s : State} {n : Nat} (on : s.jig.stopped.contains (n / 32) = false) (going : (s.chan n).stopping = false)
    (inside : s.chPc n + 16 < 0x10000) : s.chanGoesOn (s.goOn n) n := by
  obtain ⟨pc, here, others, -, rest, regs⟩ := State.goTo_effect on going inside
  exact ⟨pc, here, others, rest, regs⟩

section
variable {s t : State} {n : Nat} (h : s.chanGoesOn t n)
include h
theorem State.chanGoesOn.hbm : t.hbm = s.hbm := (congrArg State.hbm h.rest : _)
theorem State.chanGoesOn.lin : t.lin = s.lin := (congrArg State.lin h.rest : _)
theorem State.chanGoesOn.spl : t.spl = s.spl := (congrArg State.spl h.rest : _)
end

theorem State.chan_farUsed (s : State) (n : Nat) : s.farUsed.chan n = s.chan n := rfl
theorem State.chPc_farUsed (s : State) (n : Nat) : s.farUsed.chPc n = s.chPc n := rfl

/-- What the statements say of a channel that has gone on. -/
def State.ranOn (s t : State) (n : Nat) : Prop :=
  t.chPc n = s.chPc n + 16 ∧ (t.chan n).st = .running ∧ (t.chan n).wait = none ∧ ∀ k, k ≠ n → t.chan k = s.chan k

/-- A channel goes on from a state in which it stands where it stood. -/
theorem State.ranOn_of {s u t : State} {n : Nat} (pc : u.chPc n = s.chPc n) (others : ∀ k, k ≠ n → u.chan k = s.chan k) (h : u.chanGoesOn t n) :
    s.ranOn t.farUsed n := by
  refine ⟨(t.chPc_farUsed n).trans (h.pc.trans (by rw [pc])), ?_, ?_, fun k ne => (t.chan_farUsed k).trans ((h.others k ne).trans (others k ne))⟩
  · rw [State.chan_farUsed, h.chan]
  · rw [State.chan_farUsed, h.chan]

/-! ## LOOP -/

/-- The iteration of a loop level. -/
def loopStep (w : BitVec 128) (hi lo : Nat) : Dword := BitVec.ofInt 64 (signed (jf w hi lo) 32)

def Chan.iterated (x : Chan) (w : BitVec 128) : Chan :=
  let l := jf w 6 4
  { x with iter := mset x.iter l (mget x.iter l 0 + 1) 0, sacc := mset x.sacc l (mget x.sacc l 0 + loopStep w 95 64) 0
           dacc := mset x.dacc l (mget x.dacc l 0 + loopStep w 127 96) 0 }

def Chan.loopLeft (x : Chan) (w : BitVec 128) : Chan :=
  let l := jf w 6 4
  { x with iter := mdel x.iter l, sacc := mdel x.sacc l, dacc := mdel x.dacc l }

theorem exec_loop_ready {ch : Fin 320} {w : BitVec 128} {s : State} (ready : s.chReady ch.val = true)
    (ok : ¬(jf w 3 0 ≠ 2 ∨ 5 ≤ jf w 6 4 ∨ jf w 7 7 ≠ 0 ∨ jf w 19 8 = 0 ∨ jf w 43 20 = 0 ∨ jf w 63 44 ≠ 0 ∨ s.chPc ch.val < 16 * jf w 19 8)) :
    exec (.loop ch w) s = .next (if mget (s.chan ch.val).iter (jf w 6 4) 0 + 1 < jf w 43 20 then
        (s.chanMap ch.val (fun x => { x with
          iter := mset x.iter (jf w 6 4) (mget (s.chan ch.val).iter (jf w 6 4) 0 + 1) 0
          sacc := mset x.sacc (jf w 6 4) (mget x.sacc (jf w 6 4) 0 + loopStep w 95 64) 0
          dacc := mset x.dacc (jf w 6 4) (mget x.dacc (jf w 6 4) 0 + loopStep w 127 96) 0 })).goTo ch.val (s.chPc ch.val - 16 * jf w 19 8)
      else (s.chanMap ch.val (fun x => x.loopLeft w)).goOn ch.val) :=
  congrArg Host.Outcome.next ((if_neg (by simp [ready])).trans (if_neg ok))

/-! ## WAIT -/

/-- A channel that waits for its word. -/
def State.chanWaits (s : State) (n : Nat) (w : BitVec 128) : State := s.chanMap n (fun x => { x with st := .waiting, wait := some w })

theorem exec_wait_ready {ch : Fin 320} {w : BitVec 128} {s : State} (ready : s.chReady ch.val = true)
    (ok : ¬(jf w 3 0 ≠ 3 ∨ jf w 5 4 = 3 ∨ jf w 15 7 ≠ 0 ∨ (jf w 5 4 ≠ 0 ∧ (bitOf w.toNat 6 ∨ jf w 127 16 ≠ 0)) ∨
      (jf w 5 4 = 0 ∧ isRemote (jf w 63 16)))) :
    exec (.wait ch w) s = .next ((s.chanWaits ch.val w).together (fun s => s.waitJudge ch.val w)) :=
  congrArg Host.Outcome.next ((if_neg (by simp [ready])).trans (if_neg ok))

theorem State.waitJudge_tick {s : State} {n : Nat} {w : BitVec 128} (kind : jf w 5 4 = 1) : s.waitJudge n w = s := by
  simp only [State.waitJudge, kind]

theorem State.waitJudge_moves {s : State} {n : Nat} {w : BitVec 128} (kind : jf w 5 4 = 2) :
    s.waitJudge n w = if (s.chan n).moves.isEmpty then s.goOn n else s := by
  simp only [State.waitJudge, kind]

/-- A wait that is over, before its channel goes on. -/
def State.waitCounted (s : State) (n : Nat) (w : BitVec 128) : State :=
  if bitOf w.toNat 6 then s.rAdd64 (chReg Reg.JIG_CH_WBASE n) (jf w 127 64) else s

theorem State.waitOver_eq (s : State) (n : Nat) (w : BitVec 128) : s.waitOver n w = (s.waitCounted n w).goOn n := rfl

/-- The threshold of a WAIT on a word. -/
def State.waitLimit (s : State) (n : Nat) (w : BitVec 128) : Nat :=
  if bitOf w.toNat 6 then (s.rg64 (chReg Reg.JIG_CH_WBASE n) + jf w 127 64) % 2 ^ 64 else jf w 127 64

theorem State.readFar_here {s : State} {agent : Agent} {p a len : Nat} {ecc : Ecc} (here : isRemote a = false)
    (room : s.jigFull ⟨agent, some p, a, len, .read, ecc⟩ = false) : s.readFar agent p a len ecc = s.memRead agent (some p) a len ecc :=
  (if_pos (by simp [here])).trans (if_neg (by simp [room]))

theorem State.waitJudge_word {s : State} {n : Nat} {w : BitVec 128} (kind : jf w 5 4 = 0) (aligned : jf w 63 16 % 8 = 0)
    (here : isRemote (jf w 63 16) = false)
    (room : s.jigFull ⟨jigAgent n, some (s.chPart n), jf w 63 16, 8, .read, .clean⟩ = false)
    (good : (s.memRead (jigAgent n) (some (s.chPart n)) (jf w 63 16) 8 .clean).1 = 0) :
    s.waitJudge n w =
      (let r := s.memRead (jigAgent n) (some (s.chPart n)) (jf w 63 16) 8 .clean
       if s.waitLimit n w ≤ leNat r.2.1 then r.2.2.waitOver n w else r.2.2) := by
  have judge : s.waitJudge n w = s.waitRead n w := by simp only [State.waitJudge, kind]
  rw [judge]
  unfold State.waitRead
  dsimp only
  rw [State.readFar_here here room]
  generalize s.memRead (jigAgent n) (some (s.chPart n)) (jf w 63 16) 8 .clean = r at good ⊢
  exact (if_neg (by simp [aligned])).trans (if_neg (by simp [good]))

theorem exec_jigWaitEnd_waiting {ch : Fin 320} {w : BitVec 128} {s : State} (waits : (s.chan ch.val).wait = some w)
    (st : (s.chan ch.val).st = .waiting) : exec (.jigWaitEnd ch) s = .next (s.together (fun s => s.waitJudge ch.val w)) := by
  have run : exec (.jigWaitEnd ch) s = execJigWaitEnd ch s := rfl
  rw [run, execJigWaitEnd]
  simp only [waits, st, if_pos]

/-- What counting a relative wait leaves. -/
theorem State.waitCounted_kept (s : State) (n : Nat) (w : BitVec 128) :
    { s.waitCounted n w with regs := s.regs } = s ∧ (s.waitCounted n w).chPc n = s.chPc n ∧
      (s.waitCounted n w).rg64 (chReg Reg.JIG_CH_WBASE n) = if bitOf w.toNat 6 then
        (s.rg64 (chReg Reg.JIG_CH_WBASE n) + jf w 127 64) % 2 ^ 64 else s.rg64 (chReg Reg.JIG_CH_WBASE n) := by
  unfold State.waitCounted
  split
  · refine ⟨rfl, State.chPc_of_rg (rg_rg64Set_other _ _ ?_ ?_), rg64_rAdd64_same ..⟩
    · simp only [chReg, Reg.JIG_CH_PC, Reg.JIG_CH_WBASE]
      omega
    · simp only [chReg, Reg.JIG_CH_PC, Reg.JIG_CH_WBASE]
      omega
  · exact ⟨rfl, rfl, rfl⟩

/-! ## SIGNAL and END -/

/-- A channel whose SIGNAL or END waits for its MOVEs. -/
def State.chanHolds (s : State) (n : Nat) (w : BitVec 128) : State := s.chanMap n (fun x => { x with wait := some w })

theorem State.chan_chanHolds (s : State) (n : Nat) (w : BitVec 128) : (s.chanHolds n w).chan n = { s.chan n with wait := some w } :=
  s.chan_chanMap_same ..

theorem State.chan_chanHolds_other (s : State) {n k : Nat} (w : BitVec 128) (ne : k ≠ n) : (s.chanHolds n w).chan k = s.chan k :=
  s.chan_chanMap_other _ ne

theorem exec_jigSignal_ready {ch : Fin 320} {w : BitVec 128} {s : State} (ready : s.chReady ch.val = true)
    (op : jf w 3 0 = 4) (low : jf w 15 5 = 0) (high : jf w 127 96 = 0) :
    exec (.jigSignal ch w) s = .next ((s.chanHolds ch.val w).together (fun s => s.opTry ch.val)) :=
  congrArg Host.Outcome.next ((if_neg (by simp [ready])).trans (if_neg (by simp [op, low, high])))

theorem exec_jigEnd_ready {ch : Fin 320} {w : BitVec 128} {s : State} (ready : s.chReady ch.val = true)
    (op : jf w 3 0 = 5) (low : jf w 15 7 = 0) (high : jf w 127 64 = 0) (word : bitOf w.toNat 5 = false → jf w 63 16 = 0) :
    exec (.jigEnd ch w) s = .next ((s.chanHolds ch.val w).together (fun s => s.opTry ch.val)) :=
  congrArg Host.Outcome.next ((if_neg (by simp [ready])).trans (if_neg (by
    simp only [op, low, high]
    simpa using word)))

theorem State.opTry_goes {s : State} {n : Nat} {w : BitVec 128} (waits : (s.chan n).wait = some w) (moves : (s.chan n).moves = [])
    (sent : (s.chan n).sent = none) (st : (s.chan n).st = .running) (going : (s.chan n).stopping = false) :
    s.opTry n = if jf w 3 0 = 4 then s.signalGo n w else if jf w 3 0 = 5 then s.endGo n w else s := by
  simp only [State.opTry, waits]
  exact if_neg (by simp [moves, sent, st, going])

/-- The increment of a SIGNAL (R304). -/
def Chan.increment (x : Chan) (w : BitVec 128) : Nat := jf w 95 64 + (if x.badSince && !bitOf w.toNat 4 then 2 ^ 32 else 0)

theorem State.signalGo_here {s : State} {n : Nat} {w : BitVec 128} (aligned : jf w 63 16 % 8 = 0) (here : isRemote (jf w 63 16) = false) :
    s.signalGo n w =
      (let r := s.memUpdate (jigAgent n) (some (s.chPart n)) (jf w 63 16) 8 (fun old => leBytes (leNat old + (s.chan n).increment w) 8) .clean
       (r.2.2.chanMap n (fun x => { x with badSince := false })).signalEnd n r.1 (jf w 63 16)) := by
  unfold State.signalGo
  exact (if_neg (by simp [aligned])).trans (if_neg (by simp [here]))

/-- The record of an END (R305). -/
def State.endRecord (s : State) (n : Nat) : List Byte :=
  leBytes (Nat.xor (s.rg (chReg Reg.JIG_CH_CRC n)).toNat 0xFFFFFFFF + 2 ^ 32 * (s.chan n).badEnd) 8

theorem State.endGo_here {s : State} {n : Nat} {w : BitVec 128}
    (word : bitOf w.toNat 5 = true → jf w 63 16 % 8 = 0 ∧ isRemote (jf w 63 16) = false) :
    s.endGo n w =
      (let q := if bitOf w.toNat 5 then s.memWrite (jigAgent n) (some (s.chPart n)) (jf w 63 16) (s.endRecord n) .clean else (0, s)
       q.2.storeEnd n w q.1) := by
  cases stores : bitOf w.toNat 5 with
  | false => exact if_pos (by simp [stores])
  | true =>
    obtain ⟨aligned, here⟩ := word stores
    exact (if_neg (by simp [stores])).trans ((if_neg (by simp [aligned])).trans (if_neg (by simp [here])))

/-- An END that says so sets its PEND bit. -/
def State.endNoted (s : State) (n : Nat) (w : BitVec 128) : State := if bitOf w.toNat 6 then s.chPend Reg.JIG_END_PEND 136 n else s

/-- The loop levels of a channel that starts its next pass are cleared. -/
def Chan.rewound (x : Chan) : Chan := { x with iter := [], sacc := [], dacc := [] }

/-- A channel that starts its next pass. -/
def State.chanPasses (s : State) (n : Nat) : State :=
  ((s.chanMap n Chan.rewound).rgSet (chReg Reg.JIG_CH_CRC n) 0xFFFFFFFF).rAdd (chReg Reg.JIG_CH_PASSES n) 31 0 1

theorem State.endRest_eq (s : State) (n : Nat) (w : BitVec 128) : s.endRest n w =
    if ((s.endNoted n w).chan n).stopping then s.endNoted n w
    else if bitOf w.toNat 4 then ((s.endNoted n w).chanPasses n).goTo n 0
    else (s.endNoted n w).chanMap n (fun x => { x with st := .idle, wait := none }) := rfl

theorem State.storeEnd_done (s : State) (n : Nat) (w : BitVec 128) :
    s.storeEnd n w 0 = (s.chanMap n (fun x => { x with badEnd := 0 })).endRest n w := rfl

theorem State.endNoted_kept (s : State) {n : Nat} (less : n < 320) (w : BitVec 128) : s.sameButLog (s.endNoted n w) ∧
    (bitOf w.toNat 6 = true → (s.endNoted n w).rb (Reg.JIG_END_PEND + 4 * (n / 32)) (n % 32) = true) ∧
    (s.endNoted n w).rg (chReg Reg.JIG_CH_PASSES n) = s.rg (chReg Reg.JIG_CH_PASSES n) := by
  unfold State.endNoted
  split
  · obtain ⟨kept, pend, -⟩ := s.chPend_kept (reg := Reg.JIG_END_PEND) (src := 136) (ch := n) (by decide)
      (by simp only [Reg.IRQ_RAW, Reg.JIG_END_PEND]; omega)
    refine ⟨kept, fun _ => pend, s.rg_chPend (by decide) (.inr ?_) ?_⟩
    · simp only [chReg, Reg.JIG_CH_PASSES]
      omega
    · simp only [chReg, Reg.JIG_CH_PASSES, Reg.JIG_END_PEND]
      omega
  · next off => exact ⟨s.sameButLog_rfl, fun on => absurd on off, rfl⟩

/-- What starting the next pass sets. -/
theorem State.chanPasses_kept (s : State) (n : Nat) : let u := s.chanPasses n
    u.chan n = (s.chan n).rewound ∧ (∀ k, k ≠ n → u.chan k = s.chan k) ∧ u.jig.stopped = s.jig.stopped ∧
      { u with jig := s.jig, regs := s.regs } = s ∧ u.rg (chReg Reg.JIG_CH_CRC n) = 0xFFFFFFFF ∧
      u.rf (chReg Reg.JIG_CH_PASSES n) 31 0 = (s.rf (chReg Reg.JIG_CH_PASSES n) 31 0 + 1) % 2 ^ 32 ∧
      sameRegs [chReg Reg.JIG_CH_CRC n, chReg Reg.JIG_CH_PASSES n] s u := by
  have here := s.chan_chanMap_same n Chan.rewound
  have others := fun k (ne : k ≠ n) => s.chan_chanMap_other Chan.rewound ne
  have apart : chReg Reg.JIG_CH_CRC n ≠ chReg Reg.JIG_CH_PASSES n := fun same => absurd (chReg_inj same) (by decide)
  have kept : { s.chanMap n Chan.rewound with jig := s.jig } = s := rfl
  have stopped : (s.chanMap n Chan.rewound).jig.stopped = s.jig.stopped := rfl
  unfold State.chanPasses
  generalize s.chanMap n Chan.rewound = u at here others kept stopped
  have regs : ∀ k, u.rg k = s.rg k := fun k => (congrArg (fun v : State => v.rg k) kept :)
  refine ⟨here, others, stopped, ?_, ?_, ?_, ?_⟩
  · exact (congrArg (fun v : State => { v with regs := s.regs }) kept :)
  · exact (rg_rAdd_other _ _ _ _ apart).trans (rg_rgSet_same ..)
  · refine (rf_rAdd_same _ _ _ _ _ (by decide) (by decide)).trans ?_
    rw [rf_rgSet_other _ _ _ _ apart.symm, State.rf_of_rg (regs _)]
  · exact sameRegs_trans (t := u) (fun k _ => regs k) (sameRegs_trans
      (fun k out => rg_rgSet_other _ _ (fun same => out (by simp [same])))
      (fun k out => rg_rAdd_other _ _ _ _ (fun same => out (by simp [same]))))

/-- What an END whose record is stored leaves. -/
structure State.ended (s t : State) (n : Nat) (w : BitVec 128) : Prop where
  badEnd : (t.chan n).badEnd = 0
  others : ∀ k, k ≠ n → t.chan k = s.chan k
  hbm : t.hbm = s.hbm
  lin : t.lin = s.lin
  pend : bitOf w.toNat 6 = true → t.rb (Reg.JIG_END_PEND + 4 * (n / 32)) (n % 32) = true
  idle : bitOf w.toNat 4 = false → (t.chan n).st = .idle
  pass : bitOf w.toNat 4 = true → (t.chan n).st = .running ∧ (t.chan n).iter = [] ∧ t.chPc n = 0 ∧
    t.rg (chReg Reg.JIG_CH_CRC n) = 0xFFFFFFFF ∧
    t.rf (chReg Reg.JIG_CH_PASSES n) 31 0 = (s.rf (chReg Reg.JIG_CH_PASSES n) 31 0 + 1) % 2 ^ 32

theorem State.storeEnd_effect {s : State} {n : Nat} (less : n < 320) (w : BitVec 128) (going : (s.chan n).stopping = false)
    (on : s.jig.stopped.contains (n / 32) = false) : s.ended (s.storeEnd n w 0) n w := by
  rw [State.storeEnd_done]
  have here := s.chan_chanMap_same n (fun x => { x with badEnd := 0 })
  have others := fun k (ne : k ≠ n) => s.chan_chanMap_other (fun x => { x with badEnd := 0 }) ne
  have rest : { s.chanMap n (fun x => { x with badEnd := 0 }) with jig := s.jig } = s := rfl
  have stopped : (s.chanMap n (fun x => { x with badEnd := 0 })).jig.stopped = s.jig.stopped := rfl
  generalize s.chanMap n (fun x => { x with badEnd := 0 }) = u at here others rest stopped
  obtain ⟨log, pend, passes⟩ := u.endNoted_kept less w
  rw [State.endRest_eq]
  generalize u.endNoted n w = v at log pend passes
  have chans := State.chan_of_jig (State.sameButLog_jig log)
  have hbm : v.hbm = s.hbm := (State.sameButLog_hbm log).trans (congrArg State.hbm rest :)
  have lin : v.lin = s.lin := (State.sameButLog_lin log).trans (congrArg State.lin rest :)
  have passes : v.rg (chReg Reg.JIG_CH_PASSES n) = s.rg (chReg Reg.JIG_CH_PASSES n) :=
    passes.trans (congrArg (fun v : State => v.rg (chReg Reg.JIG_CH_PASSES n)) rest :)
  have stopped : v.jig.stopped = s.jig.stopped := (congrArg Jig.stopped (State.sameButLog_jig log)).trans stopped
  have here : v.chan n = { s.chan n with badEnd := 0 } := (chans n).trans here
  have others : ∀ k, k ≠ n → v.chan k = s.chan k := fun k ne => (chans k).trans (others k ne)
  rw [if_neg (by rw [here]; simp [going])]
  split
  · next again =>
    obtain ⟨hereW, othersW, stoppedW, restW, crc, count, regsW⟩ := v.chanPasses_kept n
    generalize v.chanPasses n = x at hereW othersW stoppedW restW crc count regsW
    obtain ⟨pc, run, apart, -, restT, regsT⟩ := State.goTo_effect (s := x) (ch := n) (pc := 0) (by rw [stoppedW, stopped]; exact on)
      (by rw [hereW, here]; exact going) (by decide)
    generalize x.goTo n 0 = t at pc run apart restT regsT
    have chReg_ne : ∀ {j k : Nat}, j ≠ k → chReg j n ∉ [chReg k n] := fun ne mem => ne (chReg_inj (List.mem_singleton.mp mem))
    refine ⟨?_, fun k ne => (apart k ne).trans ((othersW k ne).trans (others k ne)), ?_, ?_, fun set => ?_, fun off => absurd (again.symm.trans off)
      (by decide), fun _ => ⟨by rw [run], by rw [run, hereW]; rfl, pc, (regsT _ (chReg_ne (by decide))).trans crc, ?_⟩⟩
    · rw [run, hereW, here]
      rfl
    · exact (congrArg State.hbm restT :).trans ((congrArg State.hbm restW :).trans hbm)
    · exact (congrArg State.lin restT :).trans ((congrArg State.lin restW :).trans lin)
    · refine (sameRegs_rb regsT ?_ _).trans ((sameRegs_rb regsW ?_ _).trans (pend set))
      · simp only [List.mem_singleton, chReg, Reg.JIG_END_PEND, Reg.JIG_CH_PC]
        omega
      · simp only [List.mem_cons, List.not_mem_nil, or_false, chReg, Reg.JIG_END_PEND, Reg.JIG_CH_CRC, Reg.JIG_CH_PASSES]
        omega
    · exact (State.rf_of_rg (regsT _ (chReg_ne (by decide))) 31 0).trans (count.trans (by rw [State.rf_of_rg passes]))
  · next off =>
    have hereT := v.chan_chanMap_same n (fun x => { x with st := .idle, wait := none })
    have othersT := fun k (ne : k ≠ n) => v.chan_chanMap_other (fun x => { x with st := .idle, wait := none }) ne
    have restT : { v.chanMap n (fun x => { x with st := .idle, wait := none }) with jig := v.jig } = v := rfl
    generalize v.chanMap n (fun x => { x with st := .idle, wait := none }) = t at hereT othersT restT
    refine ⟨?_, fun k ne => (othersT k ne).trans (others k ne), (congrArg State.hbm restT :).trans hbm, (congrArg State.lin restT :).trans lin,
      fun set => ?_, fun _ => by rw [hereT], fun again => absurd again off⟩
    · rw [hereT, here]
    · exact (congrArg (fun u : State => u.rb _ _) restT :).trans (pend set)

/-- A SIGNAL performed: the word's access has left the channel where it was, and it goes on with BAD_SINCE clear. -/
theorem State.signalEnd_effect {s r : State} {n : Nat} (jig : r.jig = s.jig) (pc : r.chPc n = s.chPc n) (going : (s.chan n).stopping = false)
    (on : s.jig.stopped.contains (n / 32) = false) (inside : s.chPc n + 16 < 0x10000) (a : Nat) :
    let t := (r.chanMap n (fun x => { x with badSince := false })).signalEnd n 0 a
    s.ranOn t.farUsed n ∧ (t.chan n).badSince = false ∧ t.hbm = r.hbm ∧ t.lin = r.lin := by
  have chans := State.chan_of_jig jig
  have here := r.chan_chanMap_same n (fun x => { x with badSince := false })
  have others := fun k (ne : k ≠ n) => r.chan_chanMap_other (fun x => { x with badSince := false }) ne
  have rest : { r.chanMap n (fun x => { x with badSince := false }) with jig := r.jig } = r := rfl
  have stopped : (r.chanMap n (fun x => { x with badSince := false })).jig.stopped = r.jig.stopped := rfl
  have goes : (r.chanMap n (fun x => { x with badSince := false })).signalEnd n 0 a =
      (r.chanMap n (fun x => { x with badSince := false })).goOn n := rfl
  dsimp only
  rw [goes]
  generalize r.chanMap n (fun x => { x with badSince := false }) = u at here others rest stopped
  have pcU : u.chPc n = s.chPc n := (congrArg (fun v : State => v.chPc n) rest :).trans pc
  have effect := State.goOn_effect (s := u) (n := n) (by rw [stopped, jig]; exact on) (by rw [here, chans]; exact going) (by rw [pcU]; exact inside)
  refine ⟨State.ranOn_of pcU (fun k ne => (others k ne).trans (chans k)) effect, ?_, effect.hbm.trans (congrArg State.hbm rest :),
    effect.lin.trans (congrArg State.lin rest :)⟩
  rw [effect.chan, here]

section
variable {ch : Fin 320} {w : BitVec 128} {s : State}

/-- WAIT for what has not come. -/
theorem wait_stays (ready : s.chReady ch.val = true) (op : jf w 3 0 = 3) (low : jf w 15 6 = 0) (high : jf w 127 16 = 0)
    (stays : jf w 5 4 = 1 ∨ (jf w 5 4 = 2 ∧ (s.chan ch.val).moves ≠ [])) :
    ∃ t, exec (.wait ch w) s = .next t ∧ t.chan ch.val = { s.chan ch.val with st := .waiting, wait := some w } ∧
      (∀ k, k ≠ ch.val → t.chan k = s.chan k) ∧ onlyJig s t := by
  obtain ⟨bit, above⟩ := bitsOf_narrow low (by decide)
  have above : jf w 15 7 = 0 := above
  have kind : jf w 5 4 ≠ 3 ∧ jf w 5 4 ≠ 0 := by omega
  have run := exec_wait_ready ready (w := w) (by simp [op, above, high, bit, kind])
  have here := s.chan_chanMap_same ch.val (fun x => { x with st := .waiting, wait := some w })
  have others := fun k (ne : k ≠ ch.val) => s.chan_chanMap_other (fun x => { x with st := .waiting, wait := some w }) ne
  have only := onlyJig_chanMap s ch.val (fun x => { x with st := .waiting, wait := some w })
  unfold State.chanWaits at run
  generalize s.chanMap ch.val (fun x => { x with st := .waiting, wait := some w }) = u at run here others only
  have idle : u.calmed.waitJudge ch.val w = u.calmed := by
    rcases stays with one | ⟨two, moves⟩
    · exact State.waitJudge_tick one
    · exact (State.waitJudge_moves two).trans (if_neg (by rw [State.chan_calmed, here]; simpa using moves))
  rw [State.together_idle idle] at run
  exact ⟨_, run, (u.chan_usedGone _).trans here, fun k ne => (u.chan_usedGone k).trans (others k ne), onlyJig_trans only (onlyJig_usedGone u)⟩

/-- A SIGNAL or END that waits for MOVEs. -/
theorem op_stays {c : Instr} (run : exec c s = .next ((s.chanHolds ch.val w).together (fun s => s.opTry ch.val)))
    (moves : (s.chan ch.val).moves ≠ []) : ∃ t, exec c s = .next t ∧ t.chan ch.val = { s.chan ch.val with wait := some w } ∧
      (∀ k, k ≠ ch.val → t.chan k = s.chan k) ∧ onlyJig s t := by
  have here := s.chan_chanHolds ch.val w
  have others := fun k (ne : k ≠ ch.val) => s.chan_chanHolds_other w ne
  have only : onlyJig s (s.chanHolds ch.val w) := onlyJig_chanMap s ch.val _
  generalize s.chanHolds ch.val w = u at run here others only
  rw [State.together_idle (State.opTry_moves (by rw [State.chan_calmed, here]; exact moves))] at run
  exact ⟨_, run, (u.chan_usedGone _).trans here, fun k ne => (u.chan_usedGone k).trans (others k ne), onlyJig_trans only (onlyJig_usedGone u)⟩

/-- What a SIGNAL or END does whose channel has no MOVEs. -/
theorem op_goes (ready : s.chReady ch.val = true) (sent : (s.chan ch.val).sent = none) (moves : (s.chan ch.val).moves = []) :
    (s.chanHolds ch.val w).calmed.opTry ch.val = if jf w 3 0 = 4 then (s.chanHolds ch.val w).calmed.signalGo ch.val w
      else if jf w 3 0 = 5 then (s.chanHolds ch.val w).calmed.endGo ch.val w else (s.chanHolds ch.val w).calmed := by
  obtain ⟨st, -, going⟩ := State.chReady_parts ready
  have here : (s.chanHolds ch.val w).calmed.chan ch.val = _ := s.chan_chanHolds ch.val w
  exact State.opTry_goes (by rw [here]) (by rw [here]; exact moves) (by rw [here]; exact sent) (by rw [here]; exact st) (by rw [here]; exact going)

end

section
variable {ch : Fin 320} {w : BitVec 128} {s : State} (on : s.jig.stopped.contains (ch.val / 32) = false)
  (inside : s.chPc ch.val + 16 < 0x10000)
include on inside

/-- LOOP below its count. -/
theorem loop_again (ready : s.chReady ch.val = true)
    (ok : ¬(jf w 3 0 ≠ 2 ∨ 5 ≤ jf w 6 4 ∨ jf w 7 7 ≠ 0 ∨ jf w 19 8 = 0 ∨ jf w 43 20 = 0 ∨ jf w 63 44 ≠ 0 ∨ s.chPc ch.val < 16 * jf w 19 8))
    (below : mget (s.chan ch.val).iter (jf w 6 4) 0 + 1 < jf w 43 20) :
    ∃ t, exec (.loop ch w) s = .next t ∧ t.chPc ch.val = s.chPc ch.val - 16 * jf w 19 8 ∧
      t.chan ch.val = { (s.chan ch.val).iterated w with st := .running, wait := none, sent := none } ∧ t.hbm = s.hbm ∧ t.lin = s.lin := by
  have run := (exec_loop_ready ready ok).trans (congrArg Host.Outcome.next (if_pos below))
  have here := s.chan_chanMap_same ch.val (fun x => { x with
    iter := mset x.iter (jf w 6 4) (mget (s.chan ch.val).iter (jf w 6 4) 0 + 1) 0
    sacc := mset x.sacc (jf w 6 4) (mget x.sacc (jf w 6 4) 0 + loopStep w 95 64) 0
    dacc := mset x.dacc (jf w 6 4) (mget x.dacc (jf w 6 4) 0 + loopStep w 127 96) 0 })
  have rest := s.chanMap_jig ch.val (fun x => { x with
    iter := mset x.iter (jf w 6 4) (mget (s.chan ch.val).iter (jf w 6 4) 0 + 1) 0
    sacc := mset x.sacc (jf w 6 4) (mget x.sacc (jf w 6 4) 0 + loopStep w 95 64) 0
    dacc := mset x.dacc (jf w 6 4) (mget x.dacc (jf w 6 4) 0 + loopStep w 127 96) 0 })
  have stopped := s.chanMap_stopped ch.val (fun x => { x with
    iter := mset x.iter (jf w 6 4) (mget (s.chan ch.val).iter (jf w 6 4) 0 + 1) 0
    sacc := mset x.sacc (jf w 6 4) (mget x.sacc (jf w 6 4) 0 + loopStep w 95 64) 0
    dacc := mset x.dacc (jf w 6 4) (mget x.dacc (jf w 6 4) 0 + loopStep w 127 96) 0 })
  obtain ⟨-, -, going⟩ := State.chReady_parts ready
  generalize s.chanMap ch.val _ = u at run here rest stopped
  obtain ⟨pc, chan, -, -, restT, -⟩ := State.goTo_effect (s := u) (ch := ch.val) (pc := s.chPc ch.val - 16 * jf w 19 8)
    (by rw [stopped]; exact on) (by rw [here]; exact going) (by omega)
  exact ⟨_, run, pc, chan.trans (by rw [here]; rfl), (congrArg State.hbm restT :).trans (congrArg State.hbm rest :),
    (congrArg State.lin restT :).trans (congrArg State.lin rest :)⟩

/-- LOOP at its count. -/
theorem loop_leaves (ready : s.chReady ch.val = true)
    (ok : ¬(jf w 3 0 ≠ 2 ∨ 5 ≤ jf w 6 4 ∨ jf w 7 7 ≠ 0 ∨ jf w 19 8 = 0 ∨ jf w 43 20 = 0 ∨ jf w 63 44 ≠ 0 ∨ s.chPc ch.val < 16 * jf w 19 8))
    (reached : jf w 43 20 ≤ mget (s.chan ch.val).iter (jf w 6 4) 0 + 1) :
    ∃ t, exec (.loop ch w) s = .next t ∧ s.ranOn t ch.val ∧
      t.chan ch.val = { (s.chan ch.val).loopLeft w with st := .running, wait := none, sent := none } ∧ t.hbm = s.hbm ∧ t.lin = s.lin := by
  have run := (exec_loop_ready ready ok).trans (congrArg Host.Outcome.next (if_neg (Nat.not_lt_of_le reached)))
  have here := s.chan_chanMap_same ch.val (fun x => x.loopLeft w)
  have others := fun k (ne : k ≠ ch.val) => s.chan_chanMap_other (fun x => x.loopLeft w) ne
  have rest := s.chanMap_jig ch.val (fun x => x.loopLeft w)
  have stopped := s.chanMap_stopped ch.val (fun x => x.loopLeft w)
  obtain ⟨-, -, going⟩ := State.chReady_parts ready
  generalize s.chanMap ch.val (fun x => x.loopLeft w) = u at run here others rest stopped
  have pcU : u.chPc ch.val = s.chPc ch.val := (congrArg (fun v : State => v.chPc ch.val) rest :)
  have effect := State.goOn_effect (s := u) (n := ch.val) (by rw [stopped]; exact on) (by rw [here]; exact going) (by rw [pcU]; exact inside)
  refine ⟨_, run, ⟨by rw [effect.pc, pcU], by rw [effect.chan], by rw [effect.chan], fun k ne => (effect.others k ne).trans (others k ne)⟩,
    effect.chan.trans (by rw [here]), effect.hbm.trans (congrArg State.hbm rest :), effect.lin.trans (congrArg State.lin rest :)⟩

/-- WAIT for the channel's MOVEs, where there are none. -/
theorem wait_passes (ready : s.chReady ch.val = true) (op : jf w 3 0 = 3) (low : jf w 15 6 = 0) (high : jf w 127 16 = 0)
    (two : jf w 5 4 = 2) (none : (s.chan ch.val).moves = []) :
    ∃ t, exec (.wait ch w) s = .next t ∧ s.ranOn t ch.val ∧ t.hbm = s.hbm ∧ t.lin.calm = s.lin.calm := by
  obtain ⟨bit, above⟩ := bitsOf_narrow low (by decide)
  have above : jf w 15 7 = 0 := above
  have run := exec_wait_ready ready (w := w) (by simp [op, above, high, bit, two])
  have here := s.chan_chanMap_same ch.val (fun x => { x with st := .waiting, wait := some w })
  have others := fun k (ne : k ≠ ch.val) => s.chan_chanMap_other (fun x => { x with st := .waiting, wait := some w }) ne
  have rest := s.chanMap_jig ch.val (fun x => { x with st := .waiting, wait := some w })
  have stopped := s.chanMap_stopped ch.val (fun x => { x with st := .waiting, wait := some w })
  obtain ⟨-, -, going⟩ := State.chReady_parts ready
  unfold State.chanWaits at run
  generalize s.chanMap ch.val (fun x => { x with st := .waiting, wait := some w }) = u at run here others rest stopped
  have pcU : u.calmed.chPc ch.val = s.chPc ch.val := (congrArg (fun v : State => v.chPc ch.val) rest :)
  have effect := State.goOn_effect (s := u.calmed) (n := ch.val) (by rw [← stopped] at on; exact on)
    (by rw [State.chan_calmed, here]; exact going) (by rw [pcU]; exact inside)
  have goes : u.calmed.waitJudge ch.val w = u.calmed.goOn ch.val :=
    (State.waitJudge_moves two).trans (if_pos (by rw [State.chan_calmed, here]; simpa using none))
  rw [State.together_does goes (by rw [effect.lin]; rfl)] at run
  refine ⟨_, run, State.ranOn_of pcU (fun k ne => (u.chan_calmed k).trans (others k ne)) effect, effect.hbm.trans (congrArg State.hbm rest :), ?_⟩
  have lin : (u.calmed.goOn ch.val).farUsed.lin = u.lin.calm := effect.lin
  rw [lin]
  exact (congrArg (fun v : State => v.lin.calm) rest :)

/-- A WAIT on a word that can be read. -/
theorem waitEnd_reads (st : (s.chan ch.val).st = .waiting) (going : (s.chan ch.val).stopping = false) (waits : (s.chan ch.val).wait = some w)
    (kind : jf w 5 4 = 0) (aligned : jf w 63 16 % 8 = 0) (here : isRemote (jf w 63 16) = false)
    (room : s.jigFull ⟨jigAgent ch.val, some (s.chPart ch.val), jf w 63 16, 8, .read, .clean⟩ = false)
    {r : Nat × List Byte × State} (reads : s.calmed.memRead (jigAgent ch.val) (some (s.chPart ch.val)) (jf w 63 16) 8 .clean = r)
    (good : r.1 = 0) (free : r.2.2.lin.stuck = none) (jig : r.2.2.jig = s.jig) (pc : r.2.2.chPc ch.val = s.chPc ch.val) :
    (s.waitLimit ch.val w ≤ leNat r.2.1 → ∃ t, exec (.jigWaitEnd ch) s = .next t ∧ s.ranOn t ch.val ∧ t.hbm = r.2.2.hbm ∧ t.lin = r.2.2.lin ∧
      t.rg64 (chReg Reg.JIG_CH_WBASE ch.val) = if bitOf w.toNat 6 then
        (r.2.2.rg64 (chReg Reg.JIG_CH_WBASE ch.val) + jf w 127 64) % 2 ^ 64 else r.2.2.rg64 (chReg Reg.JIG_CH_WBASE ch.val)) ∧
    (leNat r.2.1 < s.waitLimit ch.val w → ∃ t, exec (.jigWaitEnd ch) s = .next t ∧ t.chan ch.val = s.chan ch.val ∧
      t.chPc ch.val = s.chPc ch.val) := by
  have judged := State.waitJudge_word (s := s.calmed) (n := ch.val) kind aligned here room (by
    have first : (s.calmed.memRead (jigAgent ch.val) (some (s.calmed.chPart ch.val)) (jf w 63 16) 8 .clean).1 = r.1 := congrArg Prod.fst reads
    exact first.trans good)
  have same : s.calmed.memRead (jigAgent ch.val) (some (s.calmed.chPart ch.val)) (jf w 63 16) 8 .clean = r := reads
  rw [same] at judged
  have limit : s.calmed.waitLimit ch.val w = s.waitLimit ch.val w := rfl
  dsimp only at judged
  rw [limit] at judged
  have chans := State.chan_of_jig jig
  have run := exec_jigWaitEnd_waiting waits st
  constructor
  · intro reached
    rw [if_pos reached, State.waitOver_eq] at judged
    obtain ⟨rest, pcU, base⟩ := r.2.2.waitCounted_kept ch.val w
    generalize r.2.2.waitCounted ch.val w = u at judged rest pcU base
    have jigU : u.jig = s.jig := (congrArg State.jig rest :).trans jig
    have chansU := State.chan_of_jig jigU
    have effect := State.goOn_effect (s := u) (n := ch.val) (by rw [jigU]; exact on) (by rw [chansU]; exact going)
      (by rw [pcU, pc]; exact inside)
    have lin : u.lin = r.2.2.lin := (congrArg State.lin rest :)
    rw [State.together_does judged (by rw [effect.lin, lin]; exact free)] at run
    refine ⟨_, run, State.ranOn_of (pcU.trans pc) (fun k _ => chansU k) effect, effect.hbm.trans (congrArg State.hbm rest :),
      effect.lin.trans lin, ?_⟩
    have apart : ∀ {k : Nat}, k ≠ Reg.JIG_CH_PC → chReg k ch.val ∉ [chReg Reg.JIG_CH_PC ch.val] :=
      fun ne mem => ne (chReg_inj (List.mem_singleton.mp mem))
    have next : chReg Reg.JIG_CH_WBASE ch.val + 4 = chReg (Reg.JIG_CH_WBASE + 4) ch.val := by
      unfold chReg
      omega
    have words : (u.goOn ch.val).farUsed.rg64 (chReg Reg.JIG_CH_WBASE ch.val) = u.rg64 (chReg Reg.JIG_CH_WBASE ch.val) :=
      State.rg64_of_rg (effect.regs _ (apart (by decide))) (next ▸ effect.regs _ (apart (by decide)))
    exact words.trans base
  · intro short
    rw [if_neg (Nat.not_le_of_lt short)] at judged
    rw [State.together_does judged free] at run
    exact ⟨_, run, (r.2.2.chan_farUsed _).trans (chans _), (r.2.2.chPc_farUsed _).trans pc⟩

/-- A SIGNAL whose word can be updated. -/
theorem signal_done (ready : s.chReady ch.val = true) (sent : (s.chan ch.val).sent = none) (moves : (s.chan ch.val).moves = [])
    (op : jf w 3 0 = 4) (low : jf w 15 5 = 0) (high : jf w 127 96 = 0) (aligned : jf w 63 16 % 8 = 0) (here : isRemote (jf w 63 16) = false)
    {r : Nat × List Byte × State} (updates : (s.chanHolds ch.val w).calmed.memUpdate (jigAgent ch.val) (some (s.chPart ch.val)) (jf w 63 16) 8
      (fun old => leBytes (leNat old + (s.chan ch.val).increment w) 8) .clean = r)
    (good : r.1 = 0) (free : r.2.2.lin.stuck = none) (jig : r.2.2.jig = (s.chanHolds ch.val w).jig) (pc : r.2.2.chPc ch.val = s.chPc ch.val) :
    ∃ t, exec (.jigSignal ch w) s = .next t ∧ s.ranOn t ch.val ∧ (t.chan ch.val).badSince = false ∧ t.hbm = r.2.2.hbm ∧ t.lin = r.2.2.lin := by
  have run := exec_jigSignal_ready ready op low high
  have goes := (op_goes ready sent moves).trans (if_pos op)
  rw [State.signalGo_here aligned here] at goes
  have own : ((s.chanHolds ch.val w).calmed.chan ch.val).increment w = (s.chan ch.val).increment w := by
    rw [State.chan_calmed, State.chan_chanHolds]
    rfl
  have part : (s.chanHolds ch.val w).calmed.chPart ch.val = s.chPart ch.val := rfl
  have chan := s.chan_chanHolds ch.val w
  have others := fun k (ne : k ≠ ch.val) => s.chan_chanHolds_other w ne
  have stopped : (s.chanHolds ch.val w).jig.stopped = s.jig.stopped := rfl
  have pcU : (s.chanHolds ch.val w).chPc ch.val = s.chPc ch.val := rfl
  obtain ⟨-, -, going⟩ := State.chReady_parts ready
  rw [own, part, updates] at goes
  dsimp only at goes
  rw [good] at goes
  generalize s.chanHolds ch.val w = u at run goes chan others stopped pcU jig
  obtain ⟨onward, clear, hbm, lin⟩ := State.signalEnd_effect (s := u) (n := ch.val) jig (pc.trans pcU.symm) (by rw [chan]; exact going)
    (by rw [stopped]; exact on) (by rw [pcU]; exact inside) (jf w 63 16)
  rw [State.together_does goes (by rw [lin]; exact free)] at run
  obtain ⟨pcT, st, wait, apart⟩ := onward
  exact ⟨_, run, ⟨pcT.trans (by rw [pcU]), st, wait, fun k ne => (apart k ne).trans (others k ne)⟩, clear, hbm, lin⟩

omit inside in
/-- An END whose record, if it has one, is stored. -/
theorem end_done (ready : s.chReady ch.val = true) (sent : (s.chan ch.val).sent = none) (moves : (s.chan ch.val).moves = [])
    (op : jf w 3 0 = 5) (low : jf w 15 7 = 0) (high : jf w 127 64 = 0) (zero : bitOf w.toNat 5 = false → jf w 63 16 = 0)
    (word : bitOf w.toNat 5 = true → jf w 63 16 % 8 = 0 ∧ isRemote (jf w 63 16) = false)
    {q : Nat × State} (stores : (if bitOf w.toNat 5 then (s.chanHolds ch.val w).calmed.memWrite (jigAgent ch.val) (some (s.chPart ch.val))
      (jf w 63 16) (s.endRecord ch.val) .clean else (0, (s.chanHolds ch.val w).calmed)) = q)
    (good : q.1 = 0) (free : q.2.lin.stuck = none) (jig : q.2.jig = (s.chanHolds ch.val w).jig) :
    ∃ t, exec (.jigEnd ch w) s = .next t ∧ (∀ k, k ≠ ch.val → t.chan k = s.chan k) ∧ q.2.ended t ch.val w := by
  have run := exec_jigEnd_ready ready op low high zero
  have goes := (op_goes ready sent moves).trans ((if_neg (by omega)).trans (if_pos op))
  rw [State.endGo_here word] at goes
  have record : (s.chanHolds ch.val w).calmed.endRecord ch.val = s.endRecord ch.val := by
    have chan : (s.chanHolds ch.val w).calmed.chan ch.val = { s.chan ch.val with wait := some w } := s.chan_chanHolds ch.val w
    unfold State.endRecord
    rw [chan]
    rfl
  have part : (s.chanHolds ch.val w).calmed.chPart ch.val = s.chPart ch.val := rfl
  have chan := s.chan_chanHolds ch.val w
  have others := fun k (ne : k ≠ ch.val) => s.chan_chanHolds_other w ne
  have stopped : (s.chanHolds ch.val w).jig.stopped = s.jig.stopped := rfl
  obtain ⟨-, -, going⟩ := State.chReady_parts ready
  rw [record, part, stores] at goes
  dsimp only at goes
  rw [good] at goes
  generalize s.chanHolds ch.val w = u at run goes chan others stopped jig
  have chans := State.chan_of_jig jig
  have effect := State.storeEnd_effect (s := q.2) ch.isLt w (by rw [chans, chan]; exact going) (by rw [jig, stopped]; exact on)
  rw [State.together_does goes (by rw [effect.lin]; exact free)] at run
  obtain ⟨badEnd, apart, hbm, lin, pend, idle, pass⟩ := effect
  exact ⟨_, run, fun k ne => (apart k ne).trans ((chans k).trans (others k ne)), badEnd, apart, hbm, lin, pend, idle, pass⟩

end

/-- Settles O38: each instruction by the state its access, if any, leaves, from which the channel goes on, jumps, rests or starts its
next pass. -/
theorem jigControl : Obligations.JigControl := by
  unfold Obligations.JigControl
  intro ch w s
  dsimp only
  refine fun on inside => ⟨fun ready op level low back count high start => ?_, fun ready op low high => ⟨fun stays => ?_, fun two none => ?_⟩,
    fun st going waits kind aligned here room good free jig pc => ?_, fun ready sent form => ⟨fun moves c is => ?_, fun none op aligned here => ?_,
      fun none op word => ?_⟩⟩
  · have ok : ¬(jf w 3 0 ≠ 2 ∨ 5 ≤ jf w 6 4 ∨ jf w 7 7 ≠ 0 ∨ jf w 19 8 = 0 ∨ jf w 43 20 = 0 ∨ jf w 63 44 ≠ 0 ∨
        s.chPc ch.val < 16 * jf w 19 8) := by omega
    refine ⟨fun below => ?_, fun reached => ?_⟩
    · obtain ⟨t, run, pc, chan, hbm, lin⟩ := loop_again on inside ready ok below
      have iter : (t.chan ch.val).iter = mset (s.chan ch.val).iter (jf w 6 4) (mget (s.chan ch.val).iter (jf w 6 4) 0 + 1) 0 := by rw [chan]; rfl
      have sacc : (t.chan ch.val).sacc = mset (s.chan ch.val).sacc (jf w 6 4) (mget (s.chan ch.val).sacc (jf w 6 4) 0 + loopStep w 95 64) 0 := by
        rw [chan]
        rfl
      have dacc : (t.chan ch.val).dacc = mset (s.chan ch.val).dacc (jf w 6 4) (mget (s.chan ch.val).dacc (jf w 6 4) 0 + loopStep w 127 96) 0 := by
        rw [chan]
        rfl
      refine ⟨t, run, pc, ?_⟩
      rw [iter, sacc, dacc, mget_mset_same, mget_mset_same, mget_mset_same]
      exact ⟨rfl, rfl, rfl, by rw [chan]; rfl, hbm, lin⟩
    · obtain ⟨t, run, onward, chan, hbm, lin⟩ := loop_leaves on inside ready ok reached
      have iter : (t.chan ch.val).iter = mdel (s.chan ch.val).iter (jf w 6 4) := by rw [chan]; rfl
      have sacc : (t.chan ch.val).sacc = mdel (s.chan ch.val).sacc (jf w 6 4) := by rw [chan]; rfl
      have dacc : (t.chan ch.val).dacc = mdel (s.chan ch.val).dacc (jf w 6 4) := by rw [chan]; rfl
      refine ⟨t, run, onward, ?_⟩
      rw [iter, sacc, dacc, mget_mdel_same, mget_mdel_same, mget_mdel_same]
      exact ⟨rfl, rfl, rfl, by rw [chan]; rfl, hbm, lin⟩
  · exact wait_stays ready op low high stays
  · exact wait_passes on inside ready op low high two none
  · exact waitEnd_reads on inside st going waits kind aligned here room rfl good free jig pc
  · rcases is with ⟨rfl, op⟩ | ⟨rfl, op⟩
    · rcases form with ⟨-, low, high⟩ | ⟨five, -⟩
      · exact op_stays (exec_jigSignal_ready ready op low high) moves
      · omega
    · rcases form with ⟨four, -⟩ | ⟨-, low, high, word⟩
      · omega
      · exact op_stays (exec_jigEnd_ready ready op low high word) moves
  · intro good free jig pc
    obtain ⟨-, low, high⟩ := form.resolve_right (fun five => by omega)
    exact signal_done on inside ready sent none op low high aligned here rfl good free jig pc
  · intro good free jig
    obtain ⟨-, low, high, zero⟩ := form.resolve_left (fun four => by omega)
    obtain ⟨t, run, others, badEnd, -, hbm, lin, pend, idle, pass⟩ := end_done on ready sent none op low high zero word rfl good free jig
    exact ⟨t, run, badEnd, others, hbm, lin, pend, idle, pass⟩

end Sys2Proof.Machine

/-! # MOVE in linear form (R294, R296, R297, R300, R305) -/

namespace Sys2Proof.Machine

/-! ## What a MOVE reads of the state -/

theorem State.sideBase_of_regs {s t : State} (regs : t.regs = s.regs) (ch : Nat) (v : MoveSt) (src : Bool) :
    t.sideBase ch v src = s.sideBase ch v src := by
  unfold State.sideBase State.rg64
  simp only [rg_of_regs regs]

theorem State.moveCheck_of_regs {s t : State} (regs : t.regs = s.regs) (ch : Nat) (v : MoveSt) : t.moveCheck ch v = s.moveCheck ch v := by
  unfold State.moveCheck State.linearCheck
  simp only [State.sideBase_of_regs regs]

/-- The codes of a bad check. -/
theorem State.moveCheck_code (s : State) (ch : Nat) (v : MoveSt) : (s.moveCheck ch v).1 < 2 ^ 16 := by
  have none : (0 : Nat) < 2 ^ 16 := by decide
  have bounds : eBounds < 2 ^ 16 := by decide
  have align : eAlign < 2 ^ 16 := by decide
  have linear : ∀ src, (s.linearCheck ch v src).1 < 2 ^ 16 := fun src => by
    unfold State.linearCheck
    dsimp only
    split
    · dsimp only
      split
      · exact bounds
      · exact none
    · split
      · exact align
      · dsimp only
        split
        · exact bounds
        · exact none
  have side : ∀ src, (if tensorSide v.w src then (0, 0) else s.linearCheck ch v src).1 < 2 ^ 16 := fun src => by
    split
    · exact none
    · exact linear src
  have source := side true
  have target := side false
  unfold State.moveCheck
  dsimp only
  generalize (if tensorSide v.w true then (0, 0) else s.linearCheck ch v true) = a at source
  generalize (if tensorSide v.w false then (0, 0) else s.linearCheck ch v false) = b at target
  split
  · exact source
  · split
    · exact target
    · split
      · exact align
      · exact none

/-! ## Places -/

section
variable {s : State} {ch : Nat} {v : MoveSt} (linear : isDesc v.w = false)
include linear

theorem MoveSt.len_linear : v.len = jf v.w 47 24 + 1 := if_neg (by simp [linear])

theorem State.placeAt_linear {src : Bool} (straight : wrapOf v.w src = 0) :
    s.placeAt ch v src 0 = ({ addr := ((s.sideBase ch v src).1 + (s.sideBase ch v src).2).toNat, part := s.chPart ch, len := v.len }, s) := by
  have notTensor : tensorSide v.w src = false := by simp [tensorSide, linear]
  unfold State.placeAt
  rw [if_neg (by simp [notTensor])]
  have at_ : s.linearAt ch v src 0 = ((s.sideBase ch v src).1 + (s.sideBase ch v src).2, v.len) := by
    unfold State.linearAt
    dsimp only
    rw [if_pos straight]
    simp
  rw [at_]

end

/-- A place that reaches the end of the image, within its line, grows no further. -/
theorem State.growAt_whole (s : State) (ch : Nat) (v : MoveSt) (src : Bool) {room : Nat} {a : Place} (fits : a.len ≤ room) (whole : v.len ≤ a.len)
    (n : Nat) : s.growAt ch v src 0 room a (n + 1) = (a, s) := by
  rw [State.growAt]
  split
  · next full => rw [Nat.le_antisymm full fits]
  · exact if_pos (by omega)

/-- A linear side that lies in one line of this module is covered by one request. -/
theorem State.spanAt_linear {s : State} {ch : Nat} {v : MoveSt} (linear : isDesc v.w = false) {src : Bool} (straight : wrapOf v.w src = 0)
    (here : isRemote ((s.sideBase ch v src).1 + (s.sideBase ch v src).2).toNat = false)
    (line : ((s.sideBase ch v src).1 + (s.sideBase ch v src).2).toNat % 128 + v.len ≤ 128) :
    s.spanAt ch v src 0 =
      ({ addr := ((s.sideBase ch v src).1 + (s.sideBase ch v src).2).toNat, part := s.chPart ch, len := v.len }, s) := by
  unfold State.spanAt
  rw [State.placeAt_linear linear straight]
  generalize ((s.sideBase ch v src).1 + (s.sideBase ch v src).2).toNat = a at here line
  dsimp only
  rw [if_neg (by simp)]
  have room : ∀ r, splitAt a r = 128 - a % 128 := fun r => if_pos (by simp [here])
  rw [room]
  exact s.growAt_whole ch v src (a := { addr := a, part := s.chPart ch, len := v.len }) (by dsimp only; omega) (Nat.le_refl _) 511

/-! ## A MOVE begins -/

theorem State.moveBegin_good {s : State} {ch k : Nat} {v : MoveSt} (linear : isDesc v.w = false) (good : (s.moveCheck ch v).1 = 0) (ecc : Ecc) :
    s.moveBegin ch k v ecc = s.mvSet ch k { v with begun := true } := by
  unfold State.moveBegin
  dsimp only
  rw [if_pos (by simp [linear]), if_neg (by simp [good])]

theorem State.moveBegin_bad {s : State} {ch k : Nat} {v : MoveSt} (linear : isDesc v.w = false) (bad : (s.moveCheck ch v).1 ≠ 0) (ecc : Ecc) :
    s.moveBegin ch k v ecc = s.markBad ch k v (s.moveCheck ch v).1 (s.moveCheck ch v).2 0 := by
  unfold State.moveBegin
  dsimp only
  rw [if_pos (by simp [linear]), if_pos bad]

/-- The step of a channel whose last MOVE is not yet begun. -/
theorem State.jigStep_begins {s : State} {ch : Nat} {xs : List MoveSt} {v : MoveSt} (moves : (s.chan ch).moves = xs ++ [v])
    (issued : xs.all MoveSt.issued = true) (fresh : v.issued = false) (unbegun : v.begun = false) (ecc : Ecc) :
    s.jigStep ch false ecc = s.moveBegin ch xs.length v ecc := by
  have found : (xs ++ [v]).findIdx? (fun v => !v.issued) = some xs.length := by
    rw [List.findIdx?_append, List.findIdx?_eq_none_iff.mpr (fun u mem => by simpa using List.all_eq_true.mp issued u mem)]
    simp [fresh]
  unfold State.jigStep
  dsimp only
  rw [moves, if_neg (by decide), found]
  dsimp only
  rw [List.getElem?_concat_length]
  exact if_neg (by simp [unbegun])

theorem State.chan_mvSet (s : State) (ch k : Nat) (v : MoveSt) :
    (s.mvSet ch k v).chan ch = { s.chan ch with moves := (s.chan ch).moves.set k v } := s.chan_chanMap_same ..

theorem State.chan_mvSet_other (s : State) {ch n : Nat} (k : Nat) (v : MoveSt) (ne : n ≠ ch) : (s.mvSet ch k v).chan n = s.chan n :=
  s.chan_chanMap_other _ ne

theorem onlyJig_mvSet (s : State) (ch k : Nat) (v : MoveSt) : onlyJig s (s.mvSet ch k v) := onlyJig_chanMap s ch _

/-- The MOVE that joins a channel. -/
def State.joining (s : State) (ch : Nat) (w : BitVec 128) : MoveSt :=
  { w := w, pc := s.chPc ch, iter := (s.chan ch).iter, sacc := (s.chan ch).sacc, dacc := (s.chan ch).dacc }

theorem State.chan_moveJoin (s : State) (ch : Nat) (w : BitVec 128) :
    (s.moveJoin ch w).chan ch = { s.chan ch with moves := (s.chan ch).moves ++ [s.joining ch w] } := s.chan_chanMap_same ..

theorem State.chan_moveJoin_other (s : State) {ch k : Nat} (w : BitVec 128) (ne : k ≠ ch) : (s.moveJoin ch w).chan k = s.chan k :=
  s.chan_chanMap_other _ ne

theorem onlyJig_moveJoin (s : State) (ch : Nat) (w : BitVec 128) : onlyJig s (s.moveJoin ch w) := onlyJig_chanMap s ch _

/-- The MOVEs of a channel settle, and it halts where it is being stopped. -/
def State.jigSettle (ch : Nat) (s : State) : State := (s.settleMoves ch (2 * (s.chan ch).moves.length)).haltDone ch

theorem exec_move_ready {ch : Fin 320} {w : BitVec 128} {s : State} (ready : s.chReady ch.val = true) (op : jf w 3 0 = 1) (ok : moveOk w = true) :
    exec (.move ch w) s = .next (((s.moveJoin ch.val w).together (fun s => s.jigStep ch.val false .clean)).together (State.jigSettle ch.val)) :=
  congrArg Host.Outcome.next ((if_neg (by simp [ready])).trans (if_neg (by simp [op, ok])))

/-- Nothing settles where the oldest MOVE is under way. -/
theorem State.settleMoves_under {s : State} {ch : Nat} {v : MoveSt} {rest : List MoveSt} (moves : (s.chan ch).moves = v :: rest)
    (alive : v.dead = false) (under : v.put < v.len) (fuel : Nat) : s.settleMoves ch fuel = s := by
  cases fuel with
  | zero => rfl
  | succ fuel =>
    rw [State.settleMoves, moves]
    dsimp only
    split
    · rfl
    · rw [if_neg (by simp [alive]), if_neg (by simp [under])]

/-- A MOVE that may begin is taken. -/
theorem move_taken {ch : Fin 320} {w : BitVec 128} {s : State} (ready : s.chReady ch.val = true) (op : jf w 3 0 = 1) (ok : moveOk w = true)
    (linear : isDesc w = false) (good : (s.moveCheck ch.val (s.joining ch.val w)).1 = 0)
    (behind : (s.chan ch.val).moves = [] ∨ ∃ o rest, (s.chan ch.val).moves = o :: rest ∧ o.out = true) :
    ∃ t, exec (.move ch w) s = .next t ∧
      t.chan ch.val = { s.chan ch.val with moves := (s.chan ch.val).moves ++ [{ s.joining ch.val w with begun := true }] } ∧
      (∀ k, k ≠ ch.val → t.chan k = s.chan k) ∧ onlyJig s t := by
  have run := exec_move_ready ready op ok
  obtain ⟨-, -, going⟩ := State.chReady_parts ready
  have issued : (s.chan ch.val).moves.all MoveSt.issued = true := by
    simp [State.chReady] at ready
    exact List.all_eq_true.mpr ready.2
  have here := s.chan_moveJoin ch.val w
  have others := fun k (ne : k ≠ ch.val) => s.chan_moveJoin_other w ne
  have only := onlyJig_moveJoin s ch.val w
  have check : (s.moveJoin ch.val w).calmed.moveCheck ch.val (s.joining ch.val w) = s.moveCheck ch.val (s.joining ch.val w) :=
    State.moveCheck_of_regs rfl ch.val _
  have fresh : (s.joining ch.val w).issued = false := rfl
  have same : (s.joining ch.val w).w = w := rfl
  have unbegun : (s.joining ch.val w).begun = false := rfl
  have start : ({ s.joining ch.val w with begun := true } : MoveSt).put < ({ s.joining ch.val w with begun := true } : MoveSt).len := by
    rw [MoveSt.len_linear linear]
    exact Nat.succ_pos _
  have alive : ({ s.joining ch.val w with begun := true } : MoveSt).dead = false := rfl
  generalize s.joining ch.val w = v at good here check fresh same unbegun start alive ⊢
  generalize s.moveJoin ch.val w = u at run here others only check
  have step : u.calmed.jigStep ch.val false .clean = u.calmed.mvSet ch.val (s.chan ch.val).moves.length { v with begun := true } :=
    (State.jigStep_begins (by rw [State.chan_calmed, here]) issued fresh unbegun .clean).trans
      (State.moveBegin_good (same.symm ▸ linear) (by rw [check]; exact good) .clean)
  have lin : (u.calmed.mvSet ch.val (s.chan ch.val).moves.length { v with begun := true }).lin.stuck = none := rfl
  have hereV := u.calmed.chan_mvSet ch.val (s.chan ch.val).moves.length { v with begun := true }
  have othersV := fun k (ne : k ≠ ch.val) => u.calmed.chan_mvSet_other (s.chan ch.val).moves.length { v with begun := true } ne
  have onlyV := onlyJig_mvSet u.calmed ch.val (s.chan ch.val).moves.length { v with begun := true }
  have first : u.together (fun s => s.jigStep ch.val false .clean) = _ := State.together_does step lin
  rw [first] at run
  have onlyU : onlyJig u u.calmed := ⟨rfl, rfl, rfl⟩
  generalize u.calmed.mvSet ch.val (s.chan ch.val).moves.length { v with begun := true } = x at run hereV othersV onlyV
  have onlyX : onlyJig x x.farUsed := ⟨rfl, rfl, rfl⟩
  have moves : x.farUsed.calmed.chan ch.val =
      { s.chan ch.val with moves := (s.chan ch.val).moves ++ [{ v with begun := true }] } := by
    rw [State.chan_calmed, State.chan_farUsed, hereV, State.chan_calmed, here]
    simp
  have settled : State.jigSettle ch.val x.farUsed.calmed = x.farUsed.calmed := by
    unfold State.jigSettle
    have stays : ∀ fuel, x.farUsed.calmed.settleMoves ch.val fuel = x.farUsed.calmed := fun fuel => by
      rcases behind with none | ⟨o, rest, first, out⟩
      · exact State.settleMoves_under (by rw [moves, none]; rfl) alive start fuel
      · exact State.settleMoves_out (by rw [moves, first]; rfl) out fuel
    rw [stays]
    exact State.haltDone_of_going (by rw [moves]; exact going)
  rw [State.together_idle settled] at run
  exact ⟨_, run, (State.chan_usedGone _ _).trans moves, fun k ne => (State.chan_usedGone _ k).trans ((State.chan_farUsed x k).trans ((othersV k ne).trans (others k ne))),
    onlyJig_trans only (onlyJig_trans onlyU (onlyJig_trans onlyV (onlyJig_trans onlyX (onlyJig_usedGone _))))⟩

/-! ## A bad MOVE -/

/-- The counters of a bad MOVE. -/
def State.movesCounted (s : State) (ch pc code : Nat) : State :=
  let u := (s.rSat (chReg Reg.JIG_CH_BAD ch) 15 0 1).rfSet (chReg Reg.JIG_CH_BAD ch) 31 16 pc
  let v := if u.rf (chReg Reg.JIG_CH_BAD_CODE ch) 31 16 = 0 then u.rfSet (chReg Reg.JIG_CH_BAD_CODE ch) 31 16 code else u
  v.rfSet (chReg Reg.JIG_CH_BAD_CODE ch) 15 0 code

theorem State.badRecord_eq (s : State) (ch pc code addr syn : Nat) : s.badRecord ch pc code addr syn =
    (((s.err code (unitId 6 ch) (some (s.chPart ch)) addr syn).movesCounted ch pc code).chanMap ch (fun c =>
      { c with badSince := true, badEnd := min 0xFFFF (c.badEnd + 1) })).chPend Reg.JIG_BAD_PEND 134 ch := rfl

theorem State.movesCounted_kept (s : State) (ch pc : Nat) {code : Nat} (fits : code < 2 ^ 16) :
    { s.movesCounted ch pc code with regs := s.regs } = s ∧ (s.movesCounted ch pc code).rf (chReg Reg.JIG_CH_BAD_CODE ch) 15 0 = code ∧
      sameRegs [chReg Reg.JIG_CH_BAD ch, chReg Reg.JIG_CH_BAD_CODE ch] s (s.movesCounted ch pc code) := by
  have first : sameRegs [chReg Reg.JIG_CH_BAD ch, chReg Reg.JIG_CH_BAD_CODE ch] s
      ((s.rSat (chReg Reg.JIG_CH_BAD ch) 15 0 1).rfSet (chReg Reg.JIG_CH_BAD ch) 31 16 pc) :=
    sameRegs_mono (sameRegs_trans (sameRegs_rfSet s _ _ _ _) (sameRegs_rfSet _ _ _ _ _)) (by simp)
  have kept : { (s.rSat (chReg Reg.JIG_CH_BAD ch) 15 0 1).rfSet (chReg Reg.JIG_CH_BAD ch) 31 16 pc with regs := s.regs } = s := rfl
  unfold State.movesCounted
  dsimp only
  generalize (s.rSat (chReg Reg.JIG_CH_BAD ch) 15 0 1).rfSet (chReg Reg.JIG_CH_BAD ch) 31 16 pc = u at first kept
  have last : ∀ v : State, { v with regs := u.regs } = u → sameRegs [chReg Reg.JIG_CH_BAD ch, chReg Reg.JIG_CH_BAD_CODE ch] u v →
      { v.rfSet (chReg Reg.JIG_CH_BAD_CODE ch) 15 0 code with regs := s.regs } = s ∧
      (v.rfSet (chReg Reg.JIG_CH_BAD_CODE ch) 15 0 code).rf (chReg Reg.JIG_CH_BAD_CODE ch) 15 0 = code ∧
      sameRegs [chReg Reg.JIG_CH_BAD ch, chReg Reg.JIG_CH_BAD_CODE ch] s (v.rfSet (chReg Reg.JIG_CH_BAD_CODE ch) 15 0 code) := fun v same regs => by
    refine ⟨?_, (rf_rfSet_same v _ _ _ _ (by decide) (by decide)).trans (Nat.mod_eq_of_lt fits), ?_⟩
    · rw [← kept, ← same]
      rfl
    · exact sameRegs_trans (sameRegs_trans first regs) (sameRegs_mono (sameRegs_rfSet v _ _ _ _) (by simp))
  split
  · exact last _ rfl (sameRegs_mono (sameRegs_rfSet u _ _ _ _) (by simp))
  · exact last _ rfl (fun _ _ => rfl)

/-- What the record of a bad MOVE leaves. -/
structure State.recordsBad (s t : State) (ch code : Nat) : Prop where
  chan : t.chan ch = { s.chan ch with badSince := true, badEnd := min 0xFFFF ((s.chan ch).badEnd + 1) }
  others : ∀ k, k ≠ ch → t.chan k = s.chan k
  stopped : t.jig.stopped = s.jig.stopped
  hbm : t.hbm = s.hbm
  lin : t.lin = s.lin
  ptn : t.ptn = s.ptn
  code : t.rf (chReg Reg.JIG_CH_BAD_CODE ch) 15 0 = code
  regs : ∀ k, unnotedKey k → k ∉ [chReg Reg.JIG_CH_BAD ch, chReg Reg.JIG_CH_BAD_CODE ch, Reg.JIG_BAD_PEND + 4 * (ch / 32)] → t.rg k = s.rg k

theorem State.badRecord_effect (s : State) {ch code : Nat} (fits : code < 2 ^ 16) (less : ch < 320) (pc addr syn : Nat) :
    s.recordsBad (s.badRecord ch pc code addr syn) ch code := by
  rw [State.badRecord_eq]
  have logged := State.err_sameButLog s code (unitId 6 ch) (some (s.chPart ch)) addr syn
  have noted := fun k (out : unnotedKey k) => s.rg_err out fits (unitId 6 ch) (some (s.chPart ch)) addr syn
  generalize s.err code (unitId 6 ch) (some (s.chPart ch)) addr syn = u at logged noted
  obtain ⟨kept, word, regs⟩ := u.movesCounted_kept ch pc fits
  generalize u.movesCounted ch pc code = v at kept word regs
  have jig : v.jig = s.jig := (congrArg State.jig kept :).trans (State.sameButLog_jig logged)
  have chans := State.chan_of_jig jig
  have here := v.chan_chanMap_same ch (fun c => { c with badSince := true, badEnd := min 0xFFFF (c.badEnd + 1) })
  have others := fun k (ne : k ≠ ch) => v.chan_chanMap_other (fun c => { c with badSince := true, badEnd := min 0xFFFF (c.badEnd + 1) }) ne
  have rest := v.chanMap_jig ch (fun c => { c with badSince := true, badEnd := min 0xFFFF (c.badEnd + 1) })
  have stopped := v.chanMap_stopped ch (fun c => { c with badSince := true, badEnd := min 0xFFFF (c.badEnd + 1) })
  generalize v.chanMap ch (fun c => { c with badSince := true, badEnd := min 0xFFFF (c.badEnd + 1) }) = w at here others rest stopped
  have pended := (w.chPend_kept (reg := Reg.JIG_BAD_PEND) (src := 134) (ch := ch) (by decide) (by simp only [Reg.IRQ_RAW, Reg.JIG_BAD_PEND]; omega)).1
  have pendRegs := fun {k} (out : unnotedKey k) ne => w.rg_chPend (reg := Reg.JIG_BAD_PEND) (src := 134) (ch := ch) (by decide) out ne
  generalize w.chPend Reg.JIG_BAD_PEND 134 ch = t at pended pendRegs
  have chansT := State.chan_of_jig (State.sameButLog_jig pended)
  have regsW : ∀ k, w.rg k = v.rg k := fun k => (congrArg (fun u : State => u.rg k) rest :)
  have codeOut : unnotedKey (chReg Reg.JIG_CH_BAD_CODE ch) := .inr (by simp only [chReg, Reg.JIG_CH_BAD_CODE]; omega)
  refine ⟨(chansT ch).trans (by rw [here, chans]), fun k ne => (chansT k).trans ((others k ne).trans (chans k)), ?_, ?_, ?_, ?_, ?_, fun k out ne => ?_⟩
  · rw [State.sameButLog_jig pended, stopped, jig]
  · rw [State.sameButLog_hbm pended, (congrArg State.hbm rest :), (congrArg State.hbm kept :), State.sameButLog_hbm logged]
  · rw [State.sameButLog_lin pended, (congrArg State.lin rest :), (congrArg State.lin kept :), State.sameButLog_lin logged]
  · rw [State.sameButLog_ptn pended, (congrArg State.ptn rest :), (congrArg State.ptn kept :), State.sameButLog_ptn logged]
  · exact (State.rf_of_rg ((pendRegs codeOut (by simp only [chReg, Reg.JIG_CH_BAD_CODE, Reg.JIG_BAD_PEND]; omega)).trans (regsW _)) 15 0).trans word
  · simp only [List.mem_cons, List.not_mem_nil, or_false, not_or] at ne
    obtain ⟨bad, code, pend⟩ := ne
    exact (pendRegs out pend).trans ((regsW k).trans ((regs k (by simp [bad, code])).trans (noted k out)))

/-- MOVE `k` of a channel marked, and its failure recorded. -/
def State.badMarked (s : State) (ch k : Nat) (v : MoveSt) (code addr syn : Nat) : State :=
  ((s.mvSet ch k { v with bad := true, dead := true }).jigForget ch).badRecord ch v.pc code addr syn

/-- Where a stop-all leaves the channel of the bad MOVE, before it stops the engine. -/
def State.badRewound (s : State) (ch k : Nat) (v : MoveSt) : State :=
  (s.chanMap ch (fun c => { c with
    iter := v.iter, sacc := v.sacc, dacc := v.dacc,
    moves := c.moves.take (k + 1) ++ ({ c with moves := c.moves.drop (k + 1) } : Chan).remains })).rfSet (chReg Reg.JIG_CH_PC ch) 15 0 v.pc

theorem State.markBad_fresh {s : State} {ch k : Nat} {v : MoveSt} (fresh : v.bad = false) (code addr syn : Nat) :
    s.markBad ch k v code addr syn =
      (let u := s.badMarked ch k v code addr syn
       if u.stopsAll ch then (u.badRewound ch k v).stopAll ch else if !v.issued then u.goOn ch else u) :=
  if_neg (by simp [fresh])

theorem State.chan_badMarked (s : State) {ch : Nat} (less : ch < 320) (k : Nat) (v : MoveSt) {code : Nat} (fits : code < 2 ^ 16)
    (addr syn : Nat) : let t := s.badMarked ch k v code addr syn
    t.chan ch = { s.chan ch with
      moves := (s.chan ch).moves.set k { v with bad := true, dead := true }, badSince := true
      badEnd := min 0xFFFF ((s.chan ch).badEnd + 1) } ∧ (∀ n, n ≠ ch → t.chan n = s.chan n) ∧ t.jig.stopped = s.jig.stopped ∧
      t.hbm = s.hbm ∧ t.lin = (s.jigQuiet ch).lin ∧ t.ptn = s.ptn ∧ t.rf (chReg Reg.JIG_CH_BAD_CODE ch) 15 0 = code ∧
      t.chPc ch = s.chPc ch ∧ ∀ e, e < 10 → t.rb (Reg.JIG_ENG + 4 * e) 0 = s.rb (Reg.JIG_ENG + 4 * e) 0 := by
  have here := s.chan_mvSet ch k { v with bad := true, dead := true }
  have others := fun n (ne : n ≠ ch) => s.chan_mvSet_other k { v with bad := true, dead := true } ne
  have rest : { (s.mvSet ch k { v with bad := true, dead := true }) with jig := s.jig } = s := rfl
  have stopped : (s.mvSet ch k { v with bad := true, dead := true }).jig.stopped = s.jig.stopped := rfl
  unfold State.badMarked
  generalize s.mvSet ch k { v with bad := true, dead := true } = u at here others rest stopped
  have linU : u.lin = s.lin := (congrArg State.lin rest :)
  have chansF := fun n => u.chan_jigForget ch n
  have stoppedF : (u.jigForget ch).jig.stopped = u.jig.stopped := rfl
  have hbmF : (u.jigForget ch).hbm = u.hbm := rfl
  have ptnF : (u.jigForget ch).ptn = u.ptn := rfl
  have regsF : (u.jigForget ch).regs = u.regs := rfl
  have linF : (u.jigForget ch).lin = (u.jigQuiet ch).lin := rfl
  generalize u.jigForget ch = f at chansF stoppedF hbmF ptnF regsF linF
  obtain ⟨chan, apart, stoppedR, hbm, lin, ptn, word, regs⟩ := f.badRecord_effect fits less v.pc addr syn
  have regs : ∀ k, unnotedKey k → k ∉ [chReg Reg.JIG_CH_BAD ch, chReg Reg.JIG_CH_BAD_CODE ch, Reg.JIG_BAD_PEND + 4 * (ch / 32)] →
      (f.badRecord ch v.pc code addr syn).rg k = s.rg k := fun k out ne =>
    (regs k out ne).trans ((rg_of_regs regsF k).trans (congrArg (fun u : State => u.rg k) rest :))
  dsimp only
  refine ⟨?_, fun n ne => (apart n ne).trans ((chansF n).trans (others n ne)), stoppedR.trans (stoppedF.trans stopped),
    hbm.trans (hbmF.trans (congrArg State.hbm rest :)), ?_, ptn.trans (ptnF.trans (congrArg State.ptn rest :)), word,
    State.chPc_of_rg (regs _ (.inr ?_) ?_), fun e less => State.rb_of_rg (regs _ (.inr ?_) ?_) 0⟩
  · rw [chan, chansF, here]
  · rw [lin, linF, State.jigQuiet_lin, State.jigQuiet_lin, linU]
  · simp only [chReg, Reg.JIG_CH_PC]
    omega
  · simp only [List.mem_cons, List.not_mem_nil, or_false, not_or, chReg, Reg.JIG_CH_PC, Reg.JIG_CH_BAD, Reg.JIG_CH_BAD_CODE, Reg.JIG_BAD_PEND]
    omega
  · simp only [Reg.JIG_ENG]
    omega
  · simp only [List.mem_cons, List.not_mem_nil, or_false, not_or, chReg, Reg.JIG_ENG, Reg.JIG_CH_BAD, Reg.JIG_CH_BAD_CODE, Reg.JIG_BAD_PEND]
    omega

/-- Going on, whether or not a stop-all waits. -/
theorem State.goOn_kept {s : State} {ch : Nat} (going : (s.chan ch).stopping = false) (inside : s.chPc ch + 16 < 0x10000) :
    (s.goOn ch).chPc ch = s.chPc ch + 16 ∧ (∃ st, (s.goOn ch).chan ch = { s.chan ch with st := st, wait := none, sent := none }) ∧
      { s.goOn ch with jig := s.jig, regs := s.regs } = s ∧ sameRegs [chReg Reg.JIG_CH_PC ch] s (s.goOn ch) := by
  have goes : s.goOn ch = (s.rfSet (chReg Reg.JIG_CH_PC ch) 15 0 (s.chPc ch + 16)).chanMap ch (fun c =>
      { c with st := if s.jig.stopped.contains (ch / 32) then .stopped else .running, wait := none, sent := none }) :=
    (if_neg (by simp [going])).trans (if_neg (Nat.not_le_of_lt inside))
  rw [goes]
  have pcSet : (s.rfSet (chReg Reg.JIG_CH_PC ch) 15 0 (s.chPc ch + 16)).chPc ch = s.chPc ch + 16 :=
    (rf_rfSet_same s _ _ _ _ (by decide) (by decide)).trans (Nat.mod_eq_of_lt inside)
  have regs : sameRegs [chReg Reg.JIG_CH_PC ch] s (s.rfSet (chReg Reg.JIG_CH_PC ch) 15 0 (s.chPc ch + 16)) := sameRegs_rfSet s _ _ _ _
  have kept : { s.rfSet (chReg Reg.JIG_CH_PC ch) 15 0 (s.chPc ch + 16) with regs := s.regs } = s := rfl
  generalize s.rfSet (chReg Reg.JIG_CH_PC ch) 15 0 (s.chPc ch + 16) = u at pcSet regs kept
  have jig : u.jig = s.jig := (congrArg State.jig kept :)
  have chans := State.chan_of_jig jig
  refine ⟨pcSet, ⟨_, (u.chan_chanMap_same ..).trans (by rw [chans])⟩, ?_, regs⟩
  rw [← kept]
  rfl

/-- What a MOVE marked bad leaves, where nothing stops its engine. -/
theorem State.markBad_effect {s : State} {ch k : Nat} {v : MoveSt} (less : ch < 320) (fresh : v.bad = false) (open_ : v.issued = false)
    (free : s.pl7Active (ch / 32) = false) (going : (s.chan ch).stopping = false) (inside : s.chPc ch + 16 < 0x10000) {code : Nat}
    (fits : code < 2 ^ 16) (addr syn : Nat) : let t := s.markBad ch k v code addr syn
    (∃ st, t.chan ch = { s.chan ch with
      moves := (s.chan ch).moves.set k { v with bad := true, dead := true }, badSince := true
      badEnd := min 0xFFFF ((s.chan ch).badEnd + 1), st := st, wait := none, sent := none }) ∧ t.chPc ch = s.chPc ch + 16 ∧
      t.rf (chReg Reg.JIG_CH_BAD_CODE ch) 15 0 = code ∧ t.hbm = s.hbm ∧ t.lin = (s.jigQuiet ch).lin := by
  dsimp only
  rw [State.markBad_fresh fresh]
  obtain ⟨chan, -, -, hbm, lin, ptn, word, pc, engine⟩ := s.chan_badMarked less k v fits addr syn
  generalize s.badMarked ch k v code addr syn = u at chan hbm lin ptn word pc engine
  have quiet : u.stopsAll ch = false := by
    have same : u.pl7Active (ch / 32) = s.pl7Active (ch / 32) := by
      unfold State.pl7Active
      rw [engine _ (by omega), ptn]
    unfold State.stopsAll
    rw [same, free]
    rfl
  dsimp only
  rw [if_neg (by simp [quiet]), if_pos (by simp [open_])]
  obtain ⟨pcT, ⟨st, chanT⟩, rest, regs⟩ := State.goOn_kept (s := u) (ch := ch) (by rw [chan]; exact going) (by rw [pc]; exact inside)
  generalize u.goOn ch = t at pcT chanT rest regs
  refine ⟨⟨st, by rw [chanT, chan]⟩, by rw [pcT, pc], (State.rf_of_rg (regs _ ?_) 15 0).trans word, (congrArg State.hbm rest :).trans hbm,
    (congrArg State.lin rest :).trans lin⟩
  exact fun mem => absurd (chReg_inj (List.mem_singleton.mp mem)) (by decide)

theorem State.moveVoid_none {s : State} {ch : Nat} {v : MoveSt} (none : v.wr = []) : s.moveVoid ch v = s := by
  unfold State.moveVoid
  rw [none]
  rfl

/-- A bad MOVE without writes that is the only one leaves its channel. -/
theorem State.settleMoves_bad {s : State} {ch : Nat} {v : MoveSt} (moves : (s.chan ch).moves = [v]) (quiet : v.out = false)
    (dead : v.dead = true) (none : v.wr = []) (fuel : Nat) : s.settleMoves ch (fuel + 1) = s.chanMap ch (fun c => { c with moves := [] }) := by
  rw [State.settleMoves, moves]
  dsimp only
  rw [if_neg (by simp [quiet]), if_pos dead, State.moveVoid_none none, ite_self]
  exact State.settleMoves_none (congrArg Chan.moves (s.chan_chanMap_same ch (fun c => { c with moves := [] }))) fuel

/-- A MOVE whose check fails is marked bad, and leaves the channel. -/
theorem move_bad {ch : Fin 320} {w : BitVec 128} {s : State} (ready : s.chReady ch.val = true) (op : jf w 3 0 = 1) (ok : moveOk w = true)
    (linear : isDesc w = false) (bad : (s.moveCheck ch.val (s.joining ch.val w)).1 ≠ 0) (none : (s.chan ch.val).moves = [])
    (free : s.pl7Active (ch.val / 32) = false) (inside : s.chPc ch.val + 16 < 0x10000) :
    ∃ t, exec (.move ch w) s = .next t ∧ (t.chan ch.val).moves = [] ∧ (t.chan ch.val).badSince = true ∧
      t.chPc ch.val = s.chPc ch.val + 16 ∧ t.rf (chReg Reg.JIG_CH_BAD_CODE ch.val) 15 0 = (s.moveCheck ch.val (s.joining ch.val w)).1 ∧
      t.hbm = s.hbm ∧ t.lin.calm = (s.jigQuiet ch.val).lin.calm := by
  have run := exec_move_ready ready op ok
  obtain ⟨-, -, going⟩ := State.chReady_parts ready
  have here := s.chan_moveJoin ch.val w
  have rest : { s.moveJoin ch.val w with jig := s.jig } = s := rfl
  have check : (s.moveJoin ch.val w).calmed.moveCheck ch.val (s.joining ch.val w) = s.moveCheck ch.val (s.joining ch.val w) :=
    State.moveCheck_of_regs rfl ch.val _
  have active : (s.moveJoin ch.val w).calmed.pl7Active (ch.val / 32) = s.pl7Active (ch.val / 32) := rfl
  have fresh : (s.joining ch.val w).issued = false := rfl
  have same : (s.joining ch.val w).w = w := rfl
  have unbegun : (s.joining ch.val w).begun = false := rfl
  have good : (s.joining ch.val w).bad = false := rfl
  have quiet : (s.joining ch.val w).out = false := rfl
  have wr : (s.joining ch.val w).wr = [] := rfl
  have fits := s.moveCheck_code ch.val (s.joining ch.val w)
  generalize s.joining ch.val w = v at bad here check fresh same unbegun good quiet wr fits ⊢
  generalize s.moveJoin ch.val w = u at run here rest check active
  rw [none, List.nil_append] at here
  have pcU : u.calmed.chPc ch.val = s.chPc ch.val := (congrArg (fun u : State => u.chPc ch.val) rest :)
  have step : u.calmed.jigStep ch.val false .clean =
      u.calmed.markBad ch.val 0 v (s.moveCheck ch.val v).1 (s.moveCheck ch.val v).2 0 := by
    have begins := (State.jigStep_begins (s := u.calmed) (ch := ch.val) (xs := []) (by rw [State.chan_calmed, here]; rfl) rfl fresh unbegun .clean).trans
      (State.moveBegin_bad (same.symm ▸ linear) (by rw [check]; exact bad) .clean)
    rw [check] at begins
    exact begins
  obtain ⟨⟨st, chan⟩, pc, word, hbm, lin⟩ := State.markBad_effect (s := u.calmed) (k := 0) ch.isLt good fresh (by rw [active]; exact free)
    (by rw [State.chan_calmed, here]; exact going) (by rw [pcU]; exact inside) fits (s.moveCheck ch.val v).2 0
  have linU : u.calmed.lin = s.lin.calm := (congrArg (fun u : State => u.lin.calm) rest :)
  have hbmU : u.calmed.hbm = s.hbm := (congrArg State.hbm rest :)
  rw [State.chan_calmed, here] at chan
  generalize u.calmed.markBad ch.val 0 v (s.moveCheck ch.val v).1 (s.moveCheck ch.val v).2 0 = x at step chan pc word hbm lin
  have linX : x.lin = { s.lin.calm with tickets := s.lin.tickets.filter (fun k => !decide (k.ask.agent = jigAgent ch.val)) } := by
    rw [lin, State.jigQuiet_lin, linU]
    rfl
  have first : u.together (fun s => s.jigStep ch.val false .clean) = x.farUsed := State.together_does step (by rw [linX]; rfl)
  rw [first] at run
  have chanY : x.farUsed.calmed.chan ch.val = _ := (State.chan_calmed x.farUsed ch.val).trans ((x.chan_farUsed _).trans chan)
  have settled : State.jigSettle ch.val x.farUsed.calmed = x.farUsed.calmed.chanMap ch.val (fun c => { c with moves := [] }) := by
    unfold State.jigSettle
    have fuel : 2 * (x.farUsed.calmed.chan ch.val).moves.length = 1 + 1 := by rw [chanY]; rfl
    rw [fuel, State.settleMoves_bad (v := { v with bad := true, dead := true }) (by rw [chanY]; rfl) quiet rfl wr 1]
    exact State.haltDone_of_going (by rw [State.chan_chanMap_same, chanY]; exact going)
  have last := State.chan_chanMap_same x.farUsed.calmed ch.val (fun c => { c with moves := [] })
  have restY := State.chanMap_jig x.farUsed.calmed ch.val (fun c => { c with moves := [] })
  generalize x.farUsed.calmed.chanMap ch.val (fun c => { c with moves := [] }) = y at settled last restY
  have linY : y.lin = x.lin.calm := (congrArg State.lin restY :)
  have second : x.farUsed.together (State.jigSettle ch.val) = y.farUsed := State.together_does settled (by rw [linY]; rfl)
  rw [second] at run
  refine ⟨_, run, ?_, ?_, ?_, ?_, ?_, ?_⟩
  · rw [State.chan_farUsed, last]
  · rw [State.chan_farUsed, last, chanY]
  · exact (congrArg (fun u : State => u.chPc ch.val) restY :).trans (pc.trans (by rw [pcU]))
  · exact (congrArg (fun u : State => u.rf (chReg Reg.JIG_CH_BAD_CODE ch.val) 15 0) restY :).trans word
  · exact (congrArg State.hbm restY :).trans (hbm.trans hbmU)
  · have linT : y.farUsed.lin = x.lin.calm := linY
    rw [linT, linX]
    rfl

/-! ## A stop-all leaves the lining -/

/-- An engine stopped, and the channel that stopped it noted. -/
def State.engStops (s : State) (ch : Nat) : State :=
  (({ s with jig := { s.jig with stopped := s.jig.stopped ++ [ch / 32] } } : State).rfSet (Reg.JIG_ENG + 4 * (ch / 32)) 10 6 (ch % 32)).raise 137

theorem State.engStops_lin (s : State) (ch : Nat) : (s.engStops ch).lin = s.lin := by
  have kept : (({ s with jig := { s.jig with stopped := s.jig.stopped ++ [ch / 32] } } : State).rfSet
    (Reg.JIG_ENG + 4 * (ch / 32)) 10 6 (ch % 32)).lin = s.lin := rfl
  unfold State.engStops
  generalize ({ s with jig := { s.jig with stopped := s.jig.stopped ++ [ch / 32] } } : State).rfSet
    (Reg.JIG_ENG + 4 * (ch / 32)) 10 6 (ch % 32) = u at kept
  exact (State.sameButLog_lin (State.raise_high_sameButLog (src := 137) u (by decide))).trans kept

theorem State.chanMaps_lin (ns : List Nat) (f : Chan → Chan) (s : State) : (ns.foldl (fun u n => u.chanMap n f) s).lin = s.lin :=
  foldl_keeps State.lin (fun u n => u.chanMap n f) (fun _ _ => rfl) ns s

/-- The channel that stopped its engine. -/
def Chan.stoppedAt (c : Chan) : Chan := if c.stopping || c.st == .faulted then c else { c with st := .stopped, wait := none, sent := none }

/-- A channel of a stopped engine whose instruction has ended. -/
def Chan.stoppedWith (c : Chan) : Chan :=
  if !c.stopping ∧ (c.st = .waiting ∨ (c.st = .running ∧ c.moves.all MoveSt.issued ∧ c.wait.isNone)) then { c with st := .stopped, wait := none }
  else c

theorem State.stopAll_eq (s : State) (ch : Nat) : s.stopAll ch =
    (engChans (ch / 32)).foldl (fun u n => u.chanMap n Chan.stoppedWith) ((s.engStops ch).chanMap ch Chan.stoppedAt) := rfl

theorem State.stopAll_lin (s : State) (ch : Nat) : (s.stopAll ch).lin = s.lin := by
  rw [State.stopAll_eq, State.chanMaps_lin]
  have here : ((s.engStops ch).chanMap ch Chan.stoppedAt).lin = (s.engStops ch).lin := rfl
  rw [here, State.engStops_lin]

theorem State.goOn_stuck (s : State) {ch : Nat} (less : ch < 320) : (s.goOn ch).lin.stuck = s.lin.stuck := by
  unfold State.goOn State.goTo
  dsimp only
  split
  · rfl
  · split
    · rw [(s.jigFault_effect less (code := fIllegal) (by decide) 0).lin]
      rfl
    · rfl

/-- A request that is put off stays so where its MOVE is marked bad. -/
theorem State.markBad_stuck {s : State} {ch k : Nat} {v : MoveSt} (less : ch < 320) (fresh : v.bad = false) {code : Nat} (fits : code < 2 ^ 16)
    (addr syn : Nat) : (s.markBad ch k v code addr syn).lin.stuck = s.lin.stuck := by
  rw [State.markBad_fresh fresh]
  have lin := (s.chan_badMarked less k v fits addr syn).2.2.2.2.1
  have stuck : (s.badMarked ch k v code addr syn).lin.stuck = s.lin.stuck := by rw [lin]; rfl
  dsimp only
  generalize s.badMarked ch k v code addr syn = u at stuck
  split
  · rw [State.stopAll_lin]
    exact stuck
  · split
    · exact (u.goOn_stuck less).trans stuck
    · exact stuck

end Sys2Proof.Machine

/-! # The accesses of a MOVE in linear form (R289, R296, R297, R305) -/

namespace Sys2Proof.Machine

theorem State.calmed_of_free {s : State} (free : s.lin.stuck = none) : s.lin.calm = s.lin := by
  unfold Lining.calm
  rw [← free]

theorem State.usedGone_lin (s : State) : s.usedGone.lin = s.lin.calm := rfl
theorem State.usedGone_hbm (s : State) : s.usedGone.hbm = s.hbm := rfl
theorem State.usedGone_rg (s : State) (k : Nat) : s.usedGone.rg k = s.rg k := rfl
theorem State.usedGone_chPc (s : State) (n : Nat) : s.usedGone.chPc n = s.chPc n := rfl
theorem State.farUsed_lin (s : State) : s.farUsed.lin = s.lin := rfl
theorem State.farUsed_hbm (s : State) : s.farUsed.hbm = s.hbm := rfl
theorem State.farUsed_rg (s : State) (k : Nat) : s.farUsed.rg k = s.rg k := rfl
theorem Lining.calm_calm (l : Lining) : l.calm.calm = l.calm := rfl

/-! ## A read -/

/-- A MOVE in linear form without a policy covers no side. -/
theorem covers_none {v : MoveSt} (linear : isDesc v.w = false) (policy : jf v.w 9 8 = 0) (src : Bool) : covers v src = false := by
  have none : policyOf v = 0 := (if_neg (by simp [linear])).trans policy
  unfold covers
  rw [none]
  cases src <;> simp

section
variable {s : State} {ch : Nat} {v : MoveSt} (moves : (s.chan ch).moves = [v]) (begun : v.begun = true)
include moves begun

theorem State.jigStep_reads (open_ : v.issued = false) (ecc : Ecc) : s.jigStep ch false ecc = s.readNext ch 0 v ecc := by
  unfold State.jigStep
  dsimp only
  rw [moves, if_neg (by decide)]
  simp only [List.findIdx?_cons, open_, Bool.not_false, if_true, List.getElem?_cons_zero, begun]

theorem State.jigStep_writes (alive : v.dead = false) (under : v.put < v.len) (ecc : Ecc) :
    s.jigStep ch true ecc = s.writeNext ch 0 v ecc := by
  unfold State.jigStep
  dsimp only
  rw [moves, if_pos rfl]
  simp only [List.findIdx?_cons, alive, under, Bool.not_false, decide_true, Bool.and_self, if_true, List.getElem?_cons_zero, begun]

end

/-- The first address of a side. -/
def State.sideAt (s : State) (ch : Nat) (v : MoveSt) (src : Bool) : Nat := ((s.sideBase ch v src).1 + (s.sideBase ch v src).2).toNat

theorem State.readNext_here {s : State} {ch : Nat} {v : MoveSt} (linear : isDesc v.w = false) (straight : wrapOf v.w true = 0)
    (policy : jf v.w 9 8 = 0) (none : v.got = []) (here : isRemote (s.sideAt ch v true) = false) (line : s.sideAt ch v true % 128 + v.len ≤ 128)
    (ecc : Ecc) : s.readNext ch 0 v ecc =
      (let r := s.readFar (jigAgent ch) (s.chPart ch) (s.sideAt ch v true) v.len ecc
       if r.1 ≠ 0 then r.2.2.markBad ch 0 v r.1 (s.sideAt ch v true) 0 else r.2.2.readIssued ch 0 { v with got := r.2.1 }) := by
  have span : s.spanAt ch v true 0 = _ := State.spanAt_linear linear straight here line
  unfold State.readNext
  rw [none, List.length_nil, span]
  dsimp only
  rw [if_neg (by simp), if_neg (by simp)]
  have near : isRemote ((s.sideBase ch v true).1 + (s.sideBase ch v true).2).toNat = false := here
  rw [near, covers_none linear policy]
  rfl

/-- A request that waits for room is put off. -/
theorem State.readFar_full {s : State} {agent : Agent} {p a len : Nat} {ecc : Ecc} (here : isRemote a = false)
    (full : s.jigFull ⟨agent, some p, a, len, .read, ecc⟩ = true) :
    s.readFar agent p a len ecc = (eTimeout, [], s.stick ⟨agent, some p, a, len, .read, ecc⟩) :=
  (if_pos (by simp [here])).trans (if_pos full)

/-- Nothing that follows an access moves a channel whose only MOVE is under way. -/
theorem State.jigAfter_under {s : State} {ch : Nat} {v : MoveSt} (moves : (s.chan ch).moves = [v]) (alive : v.dead = false)
    (under : v.put < v.len) (going : (s.chan ch).stopping = false) (waits : (s.chan ch).wait = none) :
    s.jigAfter ch = s.usedGone.usedGone :=
  State.jigAfter_idle (fun u same fuel => State.settleMoves_under (by rw [same, moves]) alive under fuel)
    (fun u same => State.haltDone_of_going (by rw [same]; exact going)) (fun u same => State.opTry_none (by rw [same]; exact waits))

theorem State.jigAfter_eq (s : State) (ch : Nat) : s.jigAfter ch = (s.together (State.jigSettle ch)).together (fun s => s.opTry ch) := rfl

theorem exec_jigAccessComplete_eq (ch : Fin 320) (write : Bool) (ecc : Ecc) (s : State) : exec (.jigAccessComplete ch write ecc) s =
    .next ((s.together (fun s => s.jigStep ch.val write ecc)).jigAfter ch.val) := rfl

section
variable {ch : Fin 320} {s : State} {v : MoveSt} {ecc : Ecc} (linear : isDesc v.w = false) (begun : v.begun = true) (alive : v.dead = false)
  (sound : v.bad = false) (policy : jf v.w 9 8 = 0) (going : (s.chan ch.val).stopping = false) (waits : (s.chan ch.val).wait = none)
  (moves : (s.chan ch.val).moves = [v]) (under : v.put < v.len)
include linear begun alive policy going waits moves under

section
variable (straight : wrapOf v.w true = 0) (empty : v.got = []) (here : isRemote (s.sideAt ch.val v true) = false)
  (line : s.sideAt ch.val v true % 128 + v.len ≤ 128)
include straight empty here line

omit going waits under in
theorem State.jigStep_readFar : s.calmed.jigStep ch.val false ecc =
    (let r := s.calmed.readFar (jigAgent ch.val) (s.chPart ch.val) (s.sideAt ch.val v true) v.len ecc
     if r.1 ≠ 0 then r.2.2.markBad ch.val 0 v r.1 (s.sideAt ch.val v true) 0 else r.2.2.readIssued ch.val 0 { v with got := r.2.1 }) := by
  have at_ : s.calmed.sideAt ch.val v true = s.sideAt ch.val v true := rfl
  have part : s.calmed.chPart ch.val = s.chPart ch.val := rfl
  have open_ : v.issued = false := by
    unfold MoveSt.issued
    rw [empty, MoveSt.len_linear linear]
    simp [alive]
  have step := (State.jigStep_reads (s := s.calmed) (by rw [State.chan_calmed, moves]) begun open_ ecc).trans
    (State.readNext_here linear straight policy empty (at_.symm ▸ here) (at_.symm ▸ line) ecc)
  rw [at_, part] at step
  exact step

include sound

/-- A read that finds its engine's reads full. -/
theorem access_full (full : s.jigFull ⟨jigAgent ch.val, some (s.chPart ch.val), s.sideAt ch.val v true, v.len, .read, ecc⟩ = true) :
    ∃ t, exec (.jigAccessComplete ch false ecc) s = .next t ∧ t.chan ch.val = s.chan ch.val ∧ onlyJig s t := by
  have run := exec_jigAccessComplete_eq ch false ecc s
  have step := State.jigStep_readFar (ecc := ecc) linear begun alive policy moves straight empty here line
  have full' : s.calmed.jigFull ⟨jigAgent ch.val, some (s.chPart ch.val), s.sideAt ch.val v true, v.len, .read, ecc⟩ = true := full
  rw [State.readFar_full here full'] at step
  have stuck : (s.calmed.jigStep ch.val false ecc).lin.stuck = some ⟨jigAgent ch.val, some (s.chPart ch.val), s.sideAt ch.val v true, v.len, .read, ecc⟩ := by
    rw [step]
    exact (State.markBad_stuck ch.isLt sound (by decide : eTimeout < 2 ^ 16) _ _).trans rfl
  have waited : s.together (fun s => s.jigStep ch.val false ecc) = s :=
    (together_waits s (fun s => s.jigStep ch.val false ecc) _ stuck).trans (if_pos full)
  rw [waited, State.jigAfter_under moves alive under going waits] at run
  exact ⟨_, run, s.chan_usedGone_twice _, onlyJig_trans (onlyJig_usedGone s) (onlyJig_usedGone _)⟩

omit sound waits in
/-- A read whose bytes come. -/
theorem access_reads (room : s.jigFull ⟨jigAgent ch.val, some (s.chPart ch.val), s.sideAt ch.val v true, v.len, .read, ecc⟩ = false)
    (on : s.jig.stopped.contains (ch.val / 32) = false) (inside : s.chPc ch.val + 16 < 0x10000)
    {r : Nat × List Byte × State}
    (reads : s.calmed.memRead (jigAgent ch.val) (some (s.chPart ch.val)) (s.sideAt ch.val v true) v.len ecc = r) (good : r.1 = 0)
    (all : r.2.1.length = v.len) (free : r.2.2.lin.stuck = none) (jig : r.2.2.jig = s.jig) (pc : r.2.2.chPc ch.val = s.chPc ch.val) :
    ∃ t, exec (.jigAccessComplete ch false ecc) s = .next t ∧ t.hbm = r.2.2.hbm ∧ t.lin = r.2.2.lin ∧
      (t.chan ch.val).moves = [{ v with got := r.2.1 }] ∧ (t.chan ch.val).st = .running ∧ t.chPc ch.val = s.chPc ch.val + 16 ∧
      ∀ k, k ≠ ch.val → t.chan k = s.chan k := by
  have run := exec_jigAccessComplete_eq ch false ecc s
  have step := State.jigStep_readFar (ecc := ecc) linear begun alive policy moves straight empty here line
  have room' : s.calmed.jigFull ⟨jigAgent ch.val, some (s.chPart ch.val), s.sideAt ch.val v true, v.len, .read, ecc⟩ = false := room
  rw [State.readFar_here here room', reads] at step
  dsimp only at step
  rw [if_neg (by simp [good])] at step
  have issued : ({ v with got := r.2.1 } : MoveSt).issued = true := by
    have len : ({ v with got := r.2.1 } : MoveSt).len = v.len := rfl
    unfold MoveSt.issued
    rw [len]
    simp [begun, all]
  have goes : r.2.2.readIssued ch.val 0 { v with got := r.2.1 } = (r.2.2.mvSet ch.val 0 { v with got := r.2.1 }).goOn ch.val := if_pos issued
  rw [goes] at step
  have chans := State.chan_of_jig jig
  have hereX := r.2.2.chan_mvSet ch.val 0 { v with got := r.2.1 }
  have othersX := fun k (ne : k ≠ ch.val) => r.2.2.chan_mvSet_other 0 { v with got := r.2.1 } ne
  have restX : { r.2.2.mvSet ch.val 0 { v with got := r.2.1 } with jig := r.2.2.jig } = r.2.2 := rfl
  have stoppedX : (r.2.2.mvSet ch.val 0 { v with got := r.2.1 }).jig.stopped = r.2.2.jig.stopped := rfl
  generalize r.2.2.mvSet ch.val 0 { v with got := r.2.1 } = x at step hereX othersX restX stoppedX
  rw [chans, moves] at hereX
  have pcX : x.chPc ch.val = s.chPc ch.val := (congrArg (fun u : State => u.chPc ch.val) restX :).trans pc
  have effect := State.goOn_effect (s := x) (n := ch.val) (by rw [stoppedX, jig]; exact on) (by rw [hereX]; exact going) (by rw [pcX]; exact inside)
  have linX : x.lin = r.2.2.lin := (congrArg State.lin restX :)
  have hbmX : x.hbm = r.2.2.hbm := (congrArg State.hbm restX :)
  generalize x.goOn ch.val = y at step effect
  have first : s.together (fun s => s.jigStep ch.val false ecc) = y.farUsed := State.together_does step (by rw [effect.lin, linX]; exact free)
  have chanY : y.farUsed.chan ch.val = { s.chan ch.val with st := .running, wait := none, sent := none, moves := [{ v with got := r.2.1 }] } := by
    rw [State.chan_farUsed, effect.chan, hereX]
    rfl
  have after := State.jigAfter_under (s := y.farUsed) (ch := ch.val) (v := { v with got := r.2.1 }) (by rw [chanY]) alive under
    (by rw [chanY]; exact going) (by rw [chanY])
  rw [first, after] at run
  have chanT : y.farUsed.usedGone.usedGone.chan ch.val = _ := (State.chan_usedGone_twice _ _).trans chanY
  refine ⟨_, run, ?_, ?_, by rw [chanT], by rw [chanT], ?_, fun k ne => ?_⟩
  · rw [State.usedGone_hbm, State.usedGone_hbm, State.farUsed_hbm, effect.hbm, hbmX]
  · rw [State.usedGone_lin, State.usedGone_lin, State.farUsed_lin, Lining.calm_calm, effect.lin, linX]
    exact State.calmed_of_free free
  · rw [State.usedGone_chPc, State.usedGone_chPc, State.chPc_farUsed, effect.pc, pcX]
  · exact (State.chan_usedGone_twice _ k).trans ((y.chan_farUsed k).trans ((effect.others k ne).trans ((othersX k ne).trans (chans k))))

end

end

/-! ## A write -/

/-- The access that carries a MOVE's bytes to its destination (R297). -/
def State.moveWrite (s : State) (ch : Nat) (v : MoveSt) (ecc : Ecc) : Nat × State :=
  if jf v.w 7 4 = 0 then s.memWrite (jigAgent ch) (some (s.chPart ch)) (s.sideAt ch v false) v.got ecc
  else s.memReduce (jigAgent ch) (some (s.chPart ch)) (s.sideAt ch v false) (jf v.w 7 4) v.got ecc

theorem State.writeNext_here {s : State} {ch : Nat} {v : MoveSt} (linear : isDesc v.w = false) (straight : wrapOf v.w false = 0)
    (policy : jf v.w 9 8 = 0) (none : v.put = 0) (reads : v.reads = []) (wr : v.wr = []) (all : v.got.length = v.len)
    (here : isRemote (s.sideAt ch v false) = false) (line : s.sideAt ch v false % 128 + v.len ≤ 128) (ecc : Ecc)
    (good : (s.moveWrite ch v ecc).1 = 0) : s.writeNext ch 0 v ecc = (s.moveWrite ch v ecc).2.mvSet ch 0 { v with put := v.len } := by
  have span : s.spanAt ch v false 0 = _ := State.spanAt_linear linear straight here line
  unfold State.writeNext
  rw [none, span]
  dsimp only
  have whole : (v.got.drop 0).take v.len = v.got := by rw [List.drop_zero, ← all, List.take_length]
  have near : isRemote ((s.sideBase ch v false).1 + (s.sideBase ch v false).2).toNat = false := here
  rw [if_neg (by simp [all, reads]), if_neg (by simp), if_neg (by simp), near, whole, covers_none linear policy, Nat.zero_add]
  have same : (if jf v.w 7 4 = 0 then s.memWrite (jigAgent ch) (some (s.chPart ch)) ((s.sideBase ch v false).1 + (s.sideBase ch v false).2).toNat v.got ecc
      else s.memReduce (jigAgent ch) (some (s.chPart ch)) ((s.sideBase ch v false).1 + (s.sideBase ch v false).2).toNat (jf v.w 7 4) v.got ecc) =
      s.moveWrite ch v ecc := rfl
  rw [same]
  generalize s.moveWrite ch v ecc = q at good
  rw [if_neg (by decide), if_neg (by simp [good]), ← wr]
  rfl

/-- The end of a MOVE without a policy takes its bytes into the CRC. -/
theorem State.moveEnd_plain {s : State} {ch : Nat} {v : MoveSt} (rd : v.rd = []) (wr : v.wr = []) : s.moveEnd ch v =
    (s.rgSet (chReg Reg.JIG_CH_CRC ch) (BitVec.ofNat 32 (crcRun (s.rg (chReg Reg.JIG_CH_CRC ch)).toNat v.got))).chanMap ch (fun c =>
      { c with moves := c.moves.drop 1 }) := by
  unfold State.moveEnd
  rw [rd, wr]
  rfl

/-- The only MOVE of a channel, its bytes all written, ends. -/
theorem State.settleMoves_ends {s : State} {ch : Nat} {v : MoveSt} (moves : (s.chan ch).moves = [v]) (quiet : v.out = false)
    (alive : v.dead = false) (begun : v.begun = true) (all : v.len ≤ v.put) (rd : v.rd = []) (wr : v.wr = []) (fuel : Nat) :
    s.settleMoves ch (fuel + 1) = s.moveEnd ch v := by
  rw [State.settleMoves, moves]
  dsimp only
  rw [if_neg (by simp [quiet]), if_neg (by simp [alive]), if_pos (by simp [begun, all])]
  refine State.settleMoves_none ?_ fuel
  rw [State.moveEnd_plain rd wr, State.chan_chanMap_same, State.chan_rgSet, moves]
  rfl

theorem access_writes {ch : Fin 320} {s : State} {v : MoveSt} {ecc : Ecc} (linear : isDesc v.w = false) (begun : v.begun = true)
    (alive : v.dead = false) (policy : jf v.w 9 8 = 0) (going : (s.chan ch.val).stopping = false) (waits : (s.chan ch.val).wait = none)
    (moves : (s.chan ch.val).moves = [v]) (straight : wrapOf v.w false = 0) (start : v.put = 0) (reads : v.reads = []) (writes : v.writes = [])
    (rd : v.rd = []) (wr : v.wr = []) (all : v.got.length = v.len) (here : isRemote (s.sideAt ch.val v false) = false)
    (line : s.sideAt ch.val v false % 128 + v.len ≤ 128) {q : Nat × State} (stores : s.calmed.moveWrite ch.val v ecc = q) (good : q.1 = 0)
    (free : q.2.lin.stuck = none) (jig : q.2.jig = s.jig) :
    ∃ t, exec (.jigAccessComplete ch true ecc) s = .next t ∧ t.hbm = q.2.hbm ∧ t.lin = q.2.lin ∧
      t.chan ch.val = { s.chan ch.val with moves := [] } ∧
      (t.rg (chReg Reg.JIG_CH_CRC ch.val)).toNat = crcRun (q.2.rg (chReg Reg.JIG_CH_CRC ch.val)).toNat v.got % 2 ^ 32 ∧
      ∀ k, k ≠ ch.val → t.chan k = s.chan k := by
  have run := exec_jigAccessComplete_eq ch true ecc s
  have at_ : s.calmed.sideAt ch.val v false = s.sideAt ch.val v false := rfl
  have under : v.put < v.len := by
    rw [start, MoveSt.len_linear linear]
    exact Nat.succ_pos _
  have step := (State.jigStep_writes (s := s.calmed) (by rw [State.chan_calmed, moves]) begun alive under ecc).trans
    (State.writeNext_here linear straight policy start reads wr all (at_.symm ▸ here) (at_.symm ▸ line) ecc (by rw [stores]; exact good))
  rw [stores] at step
  have chans := State.chan_of_jig jig
  have hereX := q.2.chan_mvSet ch.val 0 { v with put := v.len }
  have othersX := fun k (ne : k ≠ ch.val) => q.2.chan_mvSet_other 0 { v with put := v.len } ne
  have restX : { q.2.mvSet ch.val 0 { v with put := v.len } with jig := q.2.jig } = q.2 := rfl
  generalize q.2.mvSet ch.val 0 { v with put := v.len } = x at step hereX othersX restX
  rw [chans, moves] at hereX
  have linX : x.lin = q.2.lin := (congrArg State.lin restX :)
  have hbmX : x.hbm = q.2.hbm := (congrArg State.hbm restX :)
  have first : s.together (fun s => s.jigStep ch.val true ecc) = x.farUsed := State.together_does step (by rw [linX]; exact free)
  rw [first] at run
  have chanY : x.farUsed.calmed.chan ch.val = { s.chan ch.val with moves := [{ v with put := v.len }] } := by
    rw [State.chan_calmed, State.chan_farUsed, hereX]
    rfl
  have crcY : x.farUsed.calmed.rg (chReg Reg.JIG_CH_CRC ch.val) = q.2.rg (chReg Reg.JIG_CH_CRC ch.val) :=
    (congrArg (fun u : State => u.rg (chReg Reg.JIG_CH_CRC ch.val)) restX :)
  have othersY : ∀ k, k ≠ ch.val → x.farUsed.calmed.chan k = s.chan k := fun k ne =>
    (State.chan_calmed _ k).trans ((x.chan_farUsed k).trans ((othersX k ne).trans (chans k)))
  have linY : x.farUsed.calmed.lin = q.2.lin := (congrArg Lining.calm linX).trans (State.calmed_of_free free)
  have hbmY : x.farUsed.calmed.hbm = q.2.hbm := hbmX
  have settled : State.jigSettle ch.val x.farUsed.calmed = x.farUsed.calmed.moveEnd ch.val { v with put := v.len } := by
    unfold State.jigSettle
    have fuel : 2 * (x.farUsed.calmed.chan ch.val).moves.length = 1 + 1 := by rw [chanY]; rfl
    have quiet : ({ v with put := v.len } : MoveSt).out = false := by simp [MoveSt.out, reads, writes]
    rw [fuel, State.settleMoves_ends (v := { v with put := v.len }) (by rw [chanY]) quiet alive begun (Nat.le_refl _) rd wr 1]
    refine State.haltDone_of_going ?_
    rw [State.moveEnd_plain (v := { v with put := v.len }) rd wr, State.chan_chanMap_same, State.chan_rgSet, chanY]
    exact going
  rw [State.moveEnd_plain (v := { v with put := v.len }) rd wr] at settled
  generalize calmY : x.farUsed.calmed = y at chanY crcY othersY linY hbmY settled
  have chanZ := State.chan_chanMap_same (y.rgSet (chReg Reg.JIG_CH_CRC ch.val) (BitVec.ofNat 32 (crcRun
    (y.rg (chReg Reg.JIG_CH_CRC ch.val)).toNat v.got))) ch.val (fun c => { c with moves := c.moves.drop 1 })
  have othersZ := fun k (ne : k ≠ ch.val) => State.chan_chanMap_other (y.rgSet (chReg Reg.JIG_CH_CRC ch.val) (BitVec.ofNat 32 (crcRun
    (y.rg (chReg Reg.JIG_CH_CRC ch.val)).toNat v.got))) (fun c => { c with moves := c.moves.drop 1 }) ne
  have restZ := State.chanMap_jig (y.rgSet (chReg Reg.JIG_CH_CRC ch.val) (BitVec.ofNat 32 (crcRun
    (y.rg (chReg Reg.JIG_CH_CRC ch.val)).toNat v.got))) ch.val (fun c => { c with moves := c.moves.drop 1 })
  dsimp only at settled
  generalize (y.rgSet (chReg Reg.JIG_CH_CRC ch.val) (BitVec.ofNat 32 (crcRun
    (y.rg (chReg Reg.JIG_CH_CRC ch.val)).toNat v.got))).chanMap ch.val (fun c => { c with moves := c.moves.drop 1 }) = z at settled chanZ othersZ restZ
  rw [State.chan_rgSet, chanY] at chanZ
  have linZ : z.lin = q.2.lin := (congrArg State.lin restZ :).trans linY
  have hbmZ : z.hbm = q.2.hbm := (congrArg State.hbm restZ :).trans hbmY
  have crcZ : z.rg (chReg Reg.JIG_CH_CRC ch.val) = BitVec.ofNat 32 (crcRun (y.rg (chReg Reg.JIG_CH_CRC ch.val)).toNat v.got) :=
    (congrArg (fun u : State => u.rg (chReg Reg.JIG_CH_CRC ch.val)) restZ :).trans (rg_rgSet_same ..)
  have second : x.farUsed.together (State.jigSettle ch.val) = z.farUsed := State.together_does ((congrArg _ calmY).trans settled) (by rw [linZ]; exact free)
  have third : z.farUsed.together (fun s => s.opTry ch.val) = z.farUsed.usedGone :=
    State.together_idle (State.opTry_none (by rw [State.chan_calmed, State.chan_farUsed, chanZ]; exact waits))
  rw [State.jigAfter_eq, second, third] at run
  refine ⟨_, run, ?_, ?_, ?_, ?_, fun k ne => ?_⟩
  · rw [State.usedGone_hbm, State.farUsed_hbm, hbmZ]
  · rw [State.usedGone_lin, State.farUsed_lin, linZ]
    exact State.calmed_of_free free
  · rw [State.chan_usedGone, State.chan_farUsed, chanZ]
    rfl
  · rw [State.usedGone_rg, State.farUsed_rg, crcZ, crcY]
    exact BitVec.toNat_ofNat ..
  · exact (State.chan_usedGone _ k).trans ((State.chan_farUsed z k).trans ((othersZ k ne).trans (othersY k ne)))

/-- Settles O37: a MOVE joins its channel or is marked bad; its one read and its one write, each within a line, are single accesses, and
after the write it settles. -/
theorem jigMoves : Obligations.JigMoves := by
  unfold Obligations.JigMoves
  intro ch w ecc s
  dsimp only
  refine fun op ok linear => ⟨fun ready => ⟨fun good behind => ?_, fun bad none free inside => ?_⟩,
    fun at_ iter sacc dacc good source target policy waits going => ⟨fun moves on inside here line => ⟨fun full => ?_,
      fun room good all free jig pc => ?_⟩, fun got all moves here line good free jig => ?_⟩⟩
  · exact move_taken ready op ok linear good behind
  · exact move_bad ready op ok linear bad none free inside
  · have len : ({ w := w, pc := at_, iter := iter, sacc := sacc, dacc := dacc, begun := true } : MoveSt).len = jf w 47 24 + 1 :=
      MoveSt.len_linear linear
    generalize e : ({ w := w, pc := at_, iter := iter, sacc := sacc, dacc := dacc, begun := true } : MoveSt) = v at *
    have word : v.w = w := by rw [← e]
    have empty : v.got = [] ∧ v.put = 0 ∧ v.begun = true ∧ v.dead = false ∧ v.bad = false := by
      rw [← e]
      exact ⟨rfl, rfl, rfl, rfl, rfl⟩
    obtain ⟨got, put, begun, alive, sound⟩ := empty
    rw [← len] at line full
    exact access_full (word.symm ▸ linear) begun alive sound (word.symm ▸ policy) going waits moves (by rw [put, len]; exact Nat.succ_pos _)
      (word.symm ▸ source) got here line full
  · have len : ({ w := w, pc := at_, iter := iter, sacc := sacc, dacc := dacc, begun := true } : MoveSt).len = jf w 47 24 + 1 :=
      MoveSt.len_linear linear
    generalize e : ({ w := w, pc := at_, iter := iter, sacc := sacc, dacc := dacc, begun := true } : MoveSt) = v at *
    have word : v.w = w := by rw [← e]
    have empty : v.got = [] ∧ v.put = 0 ∧ v.begun = true ∧ v.dead = false ∧ v.bad = false := by
      rw [← e]
      exact ⟨rfl, rfl, rfl, rfl, rfl⟩
    obtain ⟨vgot, put, begun, alive, sound⟩ := empty
    rw [← len] at line room all good free jig pc ⊢
    obtain ⟨t, run, hbm, lin, kept, st, pcT, others⟩ := access_reads (word.symm ▸ linear) begun alive (word.symm ▸ policy) going moves
      (by rw [put, len]; exact Nat.succ_pos _) (word.symm ▸ source) vgot here line room on inside rfl good all free jig pc
    refine ⟨t, run, hbm, lin, ?_, st, pcT, others⟩
    rw [kept, ← e]
    rfl
  · have len : ({ w := w, pc := at_, iter := iter, sacc := sacc, dacc := dacc, begun := true, got := got } : MoveSt).len = jf w 47 24 + 1 :=
      MoveSt.len_linear linear
    have base : ∀ side, s.sideBase ch.val { w := w, pc := at_, iter := iter, sacc := sacc, dacc := dacc, begun := true } side =
      s.sideBase ch.val { w := w, pc := at_, iter := iter, sacc := sacc, dacc := dacc, begun := true, got := got } side := fun _ => rfl
    rw [base] at here line good free jig ⊢
    generalize e : ({ w := w, pc := at_, iter := iter, sacc := sacc, dacc := dacc, begun := true, got := got } : MoveSt) = v at *
    have word : v.w = w := by rw [← e]
    have image : v.got = got := by rw [← e]
    have empty : v.put = 0 ∧ v.begun = true ∧ v.dead = false ∧ v.reads = [] ∧ v.writes = [] ∧ v.rd = [] ∧ v.wr = [] := by
      rw [← e]
      exact ⟨rfl, rfl, rfl, rfl, rfl, rfl, rfl⟩
    obtain ⟨put, begun, alive, reads, writes, rd, wr⟩ := empty
    rw [← len] at line all
    have stores : s.calmed.moveWrite ch.val v ecc = if jf w 7 4 = 0 then
        s.calmed.memWrite (jigAgent ch.val) (some (s.chPart ch.val)) (s.sideAt ch.val v false) got ecc
        else s.calmed.memReduce (jigAgent ch.val) (some (s.chPart ch.val)) (s.sideAt ch.val v false) (jf w 7 4) got ecc := by
      rw [← image, ← word]
      rfl
    obtain ⟨t, run, hbm, lin, chan, crc, others⟩ := access_writes (word.symm ▸ linear) begun alive (word.symm ▸ policy) going waits moves
      (word.symm ▸ target) put reads writes rd wr (image.symm ▸ all) here line stores good free jig
    exact ⟨t, run, hbm, lin, chan, image ▸ crc, others⟩

end Sys2Proof.Machine

/-! # The states of a spline link (R340 to R343) -/

namespace Sys2Proof.Machine

/-! ## A link and its setting -/

theorem linkFitted_of_fuses {s t : State} (fuses : t.fuses = s.fuses) (n : Nat) : linkFitted t n = linkFitted s n := by
  rw [linkFitted, fuses, linkFitted]

theorem State.link_congr {s t : State} (fuses : t.fuses = s.fuses) (spl : t.spl = s.spl) (n : Nat) : t.link n = s.link n := by
  rw [State.link, linkFitted_of_fuses fuses, spl, State.link]

theorem SLink.up_iff {x : SLink} : x.up = true ↔ x.st = .up4 ∨ x.st = .up2 := by
  simp [SLink.up]

theorem linkFitted_of_up {s : State} {n : Nat} (up : (s.link n).up = true) : linkFitted s n = true :=
  State.link_fitted s n (by rcases SLink.up_iff.mp up with h | h <;> simp [h])

/-- The links but one as they were. -/
def State.elsewhere (n : Nat) (s t : State) : Prop := ∀ k, k ≠ n → t.link k = s.link k

section
variable {n : Nat} {s t u : State}

theorem State.elsewhere.trans (h : State.elsewhere n s t) (h' : State.elsewhere n t u) : State.elsewhere n s u :=
  fun k away => (h' k away).trans (h k away)

theorem State.elsewhere_linkSet (s : State) (n : Nat) (v : SLink) : State.elsewhere n s (s.linkSet n v) :=
  fun _ away => s.link_linkSet_other v away

theorem State.elsewhere_of (fuses : t.fuses = s.fuses) (spl : t.spl = s.spl) : State.elsewhere n s t :=
  fun k _ => State.link_congr fuses spl k

end

theorem State.sameButLog_fuses {s t : State} (h : s.sameButLog t) : t.fuses = s.fuses := (congrArg State.fuses h : _)
theorem State.sameButLog_spl {s t : State} (h : s.sameButLog t) : t.spl = s.spl := (congrArg State.spl h : _)

theorem State.link_of_sameButLog {s t : State} (h : s.sameButLog t) (n : Nat) : t.link n = s.link n :=
  State.link_congr (State.sameButLog_fuses h) (State.sameButLog_spl h) n

/-! ## Flits that leave -/

/-- Flits that leave a link change the outbox only, by one message each. -/
theorem State.sendFlits_effect {β : Type} (n : Nat) (f : β → Flit) (l : List β) (s : State) :
    let t := l.foldl (fun u e => u.sendFlit n (f e)) s
    { t with outbox := s.outbox } = s ∧ t.outbox.length = s.outbox.length + l.length := by
  induction l generalizing s with
  | nil => exact ⟨rfl, rfl⟩
  | cons e l ih =>
    obtain ⟨rest, count⟩ := ih (s.sendFlit n (f e))
    refine ⟨(congrArg (fun u : State => { u with outbox := s.outbox }) rest :), ?_⟩
    rw [List.foldl_cons, count, sendFlit_eq, List.length_cons, List.length_cons]
    omega

/-- What an ACK of its own leaves: the credits owed have gone, in as many flits as they fill, or one. -/
structure State.ackSent (s t : State) (n : Nat) : Prop where
  link : t.link n = { s.link n with owed := [] }
  others : State.elsewhere n s t
  sent : t.outbox.length = s.outbox.length + if (s.link n).owed.isEmpty then 1 else (creditParts (s.link n).owed).length
  rest : { t with spl := s.spl, outbox := s.outbox } = s

theorem State.sendAck_idle {s : State} {n : Nat} (up : (s.link n).up = true) (none : (s.link n).owed = []) :
    s.sendAck n = s.sendFlit n { kind := 0 } := by
  simp [State.sendAck, up, none]

theorem State.sendAck_owed {s : State} {n : Nat} (up : (s.link n).up = true) (some : (s.link n).owed.isEmpty = false) :
    s.sendAck n = (creditParts (s.link n).owed).foldl (fun u e => u.sendFlit n { kind := 0, crvc := e.1, crcount := e.2 })
      (s.linkSet n { s.link n with owed := [] }) := by
  simp only [State.sendAck, up, some, Bool.not_true, Bool.false_eq_true, if_false]

theorem State.sendAck_effect {s : State} {n : Nat} (up : (s.link n).up = true) : s.ackSent (s.sendAck n) n := by
  cases none : (s.link n).owed.isEmpty with
  | true =>
    have empty := List.isEmpty_iff.mp none
    have link : (s.sendFlit n { kind := 0 }).link n = s.link n := State.link_congr rfl rfl n
    rw [State.sendAck_idle up empty]
    refine ⟨?_, State.elsewhere_of rfl rfl, by rw [if_pos none]; rfl, rfl⟩
    rw [link]
    cases e : s.link n with
    | mk => rw [e] at empty; cases empty; rfl
  | false =>
    rw [State.sendAck_owed up none]
    obtain ⟨rest, sent⟩ := State.sendFlits_effect n (fun e : Nat × Nat => { kind := 0, crvc := e.1, crcount := e.2 })
      (creditParts (s.link n).owed) (s.linkSet n { s.link n with owed := [] })
    have fuses := (congrArg State.fuses rest :)
    have spl := (congrArg State.spl rest :)
    refine ⟨(State.link_congr fuses spl n).trans (s.link_linkSet_same n _ (linkFitted_of_up up)),
      (s.elsewhere_linkSet n _).trans (State.elsewhere_of fuses spl), ?_, ?_⟩
    · rw [if_neg (by simp [none])]
      exact sent
    · exact (congrArg (fun u : State => { u with spl := s.spl, outbox := s.outbox }) rest :)

/-! ## A link that leaves service with no message under way -/

/-- What a link that leaves service does besides its messages. -/
def State.linkLeft (s : State) (n : Nat) (v : SLink) : State :=
  ((((s.linkSet n v).err eLinkDown (unitId 8 n) ((s.linkSet n v).ptn.running.linkOwner n) 0 0).peerLost n).evSet Reg.SPL_EVT 0).raise 139

theorem State.linkDown_idle {s : State} {n : Nat} (held : (s.link n).held = []) (queue : (s.link n).queue = []) (st : LinkState) :
    s.linkDown n st = s.linkLeft n { st := st, failed := (s.link n).failed, retryAt := s.now, late := (s.link n).keepWhole } := by
  unfold State.linkDown
  dsimp only
  rw [held, queue]
  rfl

/-- What a link out of service leaves: its record, PEER.VALID 0, its event. -/
structure State.linkGone (s t : State) (n : Nat) (v : SLink) : Prop where
  log : (s.linkSet n v).sameButLog t
  peer : t.rb (bank Reg.SPL_PEER n) 18 = false
  event : t.rb Reg.SPL_EVT 0 = true
  regs : ∀ k, 0x90000 ≤ k → k ≠ bank Reg.SPL_PEER n → k ≠ Reg.SPL_EVT → t.rg k = s.rg k

theorem State.linkLeft_gone (s : State) (n : Nat) (v : SLink) : s.linkGone (s.linkLeft n v) n v := by
  unfold State.linkLeft
  have logged := (s.linkSet n v).err_sameButLog eLinkDown (unitId 8 n) ((s.linkSet n v).ptn.running.linkOwner n) 0 0
  have recorded : ∀ k, 0x90000 ≤ k → ((s.linkSet n v).err eLinkDown (unitId 8 n) ((s.linkSet n v).ptn.running.linkOwner n) 0 0).rg k
      = s.rg k := fun k high => State.rg_err _ (.inr high) (by decide) _ _ _ _
  generalize (s.linkSet n v).err eLinkDown (unitId 8 n) ((s.linkSet n v).ptn.running.linkOwner n) 0 0 = u at *
  have raised : ∀ k, 0x90000 ≤ k → (((u.peerLost n).evSet Reg.SPL_EVT 0).raise 139).rg k = ((u.peerLost n).evSet Reg.SPL_EVT 0).rg k :=
    fun k high => State.rg_raise _ (.inr high) (by decide)
  have far := bank_ge Reg.SPL_PEER n
  have bankHigh : 0x90000 ≤ bank Reg.SPL_PEER n := by unfold bank; omega
  refine ⟨?_, ?_, ?_, fun k high peer event => ?_⟩
  · exact State.sameButLog_trans logged (State.sameButLog_trans (u.rgSet_sameButLog _ _)
      (State.sameButLog_trans (State.evSet_sameButLog _ _ _) (State.raise_high_sameButLog _ (by decide))))
  · rw [State.rb_of_rg (raised _ bankHigh), rb_evSet_other _ _ _ (far _ (by decide)).1.symm, State.peerLost,
      rb_rfSet _ _ _ _ _ _ (by decide) (by decide), if_pos (by decide)]
    rfl
  · rw [State.rb_of_rg (raised _ (by decide))]
    exact rb_evSet_same _ _ _ (by decide)
  · rw [raised k high, rg_evSet_other _ _ event, State.peerLost, rg_rfSet_other _ _ _ _ peer, recorded k high]

section
variable {s t : State} {n : Nat} {v : SLink} (h : s.linkGone t n v)
include h

theorem State.linkGone.link (fitted : linkFitted s n = true) : t.link n = v :=
  (State.link_of_sameButLog h.log n).trans (s.link_linkSet_same n v fitted)

theorem State.linkGone.others : State.elsewhere n s t :=
  (s.elsewhere_linkSet n v).trans fun k _ => State.link_of_sameButLog h.log k

theorem State.linkGone.now : t.now = s.now :=
  State.sameButLog_now (s := s.linkSet n v) h.log

theorem State.linkGone.fitted : linkFitted t n = linkFitted s n := linkFitted_of_fuses (State.sameButLog_fuses h.log) n

end

theorem bank_ne {a b : Nat} (h : a ≠ b) (n : Nat) : bank a n ≠ bank b n := by unfold bank; omega

end Sys2Proof.Machine

/-! # The commands of a spline link's states (R340 to R343) -/

namespace Sys2Proof.Machine

/-! ## Training -/

section
variable {n : Fin 64} {s : State}

theorem exec_linkTrainingRetry (st : (s.link n.val).st = .down) (fitted : linkFitted s n.val = true) :
    exec (.linkTrainingRetry n) s = .next ((s.at (s.link n.val).retryAt).linkSet n.val
      { s.link n.val with st := .training, trained := false, limit := 15, began := (s.at (s.link n.val).retryAt).now }) := by
  have run : exec (.linkTrainingRetry n) s = execLinkTrainingRetry n s := rfl
  rw [run, execLinkTrainingRetry]
  exact congrArg Host.Outcome.next (if_neg (by simp [st, fitted]))

theorem exec_linkTrainingEnd_comesUp {good : BitVec 4} (st : (s.link n.val).st = .training) (new : (s.link n.val).trained = false)
    (some : lanesUp (Nat.land good.toNat (s.link n.val).limit) ≠ 0) :
    exec (.linkTrainingEnd n good) s = .next ((s.linkSet n.val { s.link n.val with
      trained := true, lanes := lanesUp (Nat.land good.toNat (s.link n.val).limit), failed := 15 - good.toNat }).sendInit n.val) := by
  have run : exec (.linkTrainingEnd n good) s = execLinkTrainingEnd n good s := rfl
  rw [run, execLinkTrainingEnd]
  exact congrArg Host.Outcome.next ((if_neg (by simp [st])).trans ((if_neg (by simp [new])).trans (if_neg some)))

theorem exec_linkTrainingEnd_fails {good : BitVec 4} (st : (s.link n.val).st = .training) (new : (s.link n.val).trained = false)
    (none : lanesUp (Nat.land good.toNat (s.link n.val).limit) = 0) :
    exec (.linkTrainingEnd n good) s = .next (s.trainFail n.val (15 - good.toNat)) := by
  have run : exec (.linkTrainingEnd n good) s = execLinkTrainingEnd n good s := rfl
  rw [run, execLinkTrainingEnd]
  exact congrArg Host.Outcome.next ((if_neg (by simp [st])).trans ((if_neg (by simp [new])).trans (if_pos none)))

theorem exec_linkTrainingEnd_late {good : BitVec 4} (st : (s.link n.val).st = .training) (old : (s.link n.val).trained = true) :
    exec (.linkTrainingEnd n good) s = .next ((s.at ((s.link n.val).began + 500000000)).trainFail n.val (s.link n.val).failed) := by
  have run : exec (.linkTrainingEnd n good) s = execLinkTrainingEnd n good s := rfl
  rw [run, execLinkTrainingEnd]
  exact congrArg Host.Outcome.next ((if_neg (by simp [st])).trans (if_pos old))

end

theorem State.linkSet_rest (s : State) (n : Nat) (v : SLink) : { s.linkSet n v with spl := s.spl } = s := rfl

theorem State.linkSet_twice_rest (s : State) (n : Nat) (v w : SLink) : { (s.linkSet n v).linkSet n w with spl := s.spl } = s :=
  ((congrArg (fun u : State => { u with spl := s.spl }) ((s.linkSet n v).linkSet_rest n w) :)).trans (s.linkSet_rest n v)

/-- The time to the next attempt of a training that failed (R340). -/
def State.retrainWait (s : State) : Nat := 1000000 * max 1 (s.rf Reg.SPL_CFG 15 8)

theorem State.trainFail_new {s : State} {n : Nat} (fitted : linkFitted s n = true) (new : (s.link n).keeping = false) (failed : Nat) :
    let t := s.trainFail n failed
    t.link n = { s.link n with st := .down, trained := false, failed := failed, retryAt := s.now + s.retrainWait } ∧
    State.elsewhere n s t ∧ { t with spl := s.spl } = s := by
  have step : s.trainFail n failed = (s.linkSet n { s.link n with st := .down, trained := false }).linkSet n
      { (s.linkSet n { s.link n with st := .down, trained := false }).link n with failed := failed, retryAt := s.now + s.retrainWait } := by
    simp only [State.trainFail, State.retrainWait, new, Bool.false_eq_true, if_false, State.linkSet_now]
  rw [step, s.link_linkSet_same n _ fitted]
  generalize s.now + s.retrainWait = later
  refine ⟨State.link_linkSet_same (s.linkSet n _) n _ fitted, (s.elsewhere_linkSet n _).trans (State.elsewhere_linkSet _ n _), s.linkSet_twice_rest n _ _⟩

theorem State.trainFail_kept {s : State} {n : Nat} (fitted : linkFitted s n = true) (kept : (s.link n).keeping = true)
    (held : (s.link n).held = []) (queue : (s.link n).queue = []) (failed : Nat) :
    let t := s.trainFail n failed
    t.link n = { st := .down, failed := failed, retryAt := s.now + s.retrainWait, late := (s.link n).keepWhole } ∧
    t.rb (bank Reg.SPL_PEER n) 18 = false ∧ t.rb Reg.SPL_EVT 0 = true ∧ State.elsewhere n s t := by
  have step : s.trainFail n failed = (s.linkDown n .down).linkSet n
      { (s.linkDown n .down).link n with failed := failed, retryAt := (s.linkDown n .down).now + s.retrainWait } := by
    simp only [State.trainFail, State.retrainWait, kept, if_true]
  have gone := s.linkLeft_gone n { st := .down, failed := (s.link n).failed, retryAt := s.now, late := (s.link n).keepWhole }
  rw [← State.linkDown_idle held queue] at gone
  rw [step, gone.link fitted, gone.now]
  exact ⟨State.link_linkSet_same _ n _ (gone.fitted.trans fitted), gone.peer, gone.event,
    gone.others.trans (State.elsewhere_linkSet _ n _)⟩

/-! ## INIT (R342) -/

/-- A link's record when INIT takes it into service. -/
def SLink.opened (x : SLink) : SLink :=
  let st : LinkState := if x.lanes = 0xF then .up4 else .up2
  if x.keeping then { x with st := st, keeping := false, resends := 0 }
  else { x with st := st, txSeq := 0, rxSeq := 0, nakSent := false, replay := [], used := [], owed := [], resends := 0 }

theorem SLink.opened_up (x : SLink) : x.opened.up = true := by
  rw [SLink.up_iff, SLink.opened]
  split <;> dsimp only <;> split <;> simp

theorem SLink.opened_queue (x : SLink) : x.opened.queue = x.queue := by
  rw [SLink.opened]
  split <;> rfl

theorem SLink.opened_kept {x : SLink} (kept : x.keeping = true) :
    x.opened = { x with st := if x.lanes = 0xF then .up4 else .up2, keeping := false, resends := 0 } := if_pos kept

theorem SLink.opened_new {x : SLink} (new : x.keeping = false) :
    x.opened = { x with st := if x.lanes = 0xF then .up4 else .up2, txSeq := 0, rxSeq := 0, nakSent := false, replay := [], used := [], owed := [], resends := 0 } :=
  if_neg (by simp [new])

/-- What PEER holds of the peer that an INIT names (Table 15.15). -/
def peerWord (f : Flit) : Word := BitVec.ofNat 32 (f.modid + 2 ^ 12 * f.link + 2 ^ 18)

theorem SLink.lastRx_first {x : SLink} (h : x.rxSeq = 0) : x.lastRx = 4095 := by rw [SLink.lastRx, h]

/-- The peer recorded, and DEGRADE where the link has one pair of lanes. -/
def State.peerKnown (s : State) (n : Nat) (f : Flit) : State :=
  let u := s.rgSet (bank Reg.SPL_PEER n) (peerWord f)
  if (s.link n).lanes = 0xF then u else u.evSet Reg.SPL_EVT 1

/-- The flits not yet acknowledged sent again where the link kept them. -/
def State.sentAgain (s u : State) (n : Nat) : State := if (s.link n).keeping then u.resend n else u

theorem exec_init {n : Fin 64} {flit : List Byte} {s : State} (st : (s.link n.val).st = .training)
    (trained : (s.link n.val).trained = true) (good : flitGood flit = true) :
    exec (.init n flit) s = .next (((s.sentAgain ((s.peerKnown n.val (flitOf flit)).linkSet n.val (s.link n.val).opened) n.val).sendAck
      n.val).pump n.val) := by
  have run : exec (.init n flit) s = execInit n flit s := rfl
  rw [run, execInit]
  refine congrArg Host.Outcome.next ((if_neg (by simp [st, trained, good])).trans ?_)
  by_cases four : (s.link n.val).lanes = 0xF
  · simp only [State.peerKnown, peerWord, SLink.opened, State.sentAgain, four, if_true, reduceCtorEq, if_false]
  · simp only [State.peerKnown, peerWord, SLink.opened, State.sentAgain, four, if_true, if_false]

theorem State.rgSet_sameButRest (s : State) (k : Nat) (v : Word) : { s.rgSet k v with regs := s.regs, setAt := s.setAt } = s := rfl

theorem State.evSet_rest (s : State) (e i : Nat) : { s.evSet e i with regs := s.regs, setAt := s.setAt } = s := rfl

theorem State.rgSet_evSet_rest (s : State) (k : Nat) (v : Word) (e i : Nat) :
    { (s.rgSet k v).evSet e i with regs := s.regs, setAt := s.setAt } = s :=
  ((congrArg (fun u : State => { u with regs := s.regs, setAt := s.setAt }) (State.evSet_rest (s.rgSet k v) e i) :)).trans
    (s.rgSet_sameButRest k v)

structure State.peerNoted (s t : State) (n : Nat) (f : Flit) : Prop where
  rest : { t with regs := s.regs, setAt := s.setAt } = s
  regs : sameRegs [bank Reg.SPL_PEER n, Reg.SPL_EVT] s t
  peer : t.rg (bank Reg.SPL_PEER n) = peerWord f
  two : (s.link n).lanes ≠ 0xF → t.rb Reg.SPL_EVT 1 = true
  four : (s.link n).lanes = 0xF → t.rg Reg.SPL_EVT = s.rg Reg.SPL_EVT

theorem State.peerKnown_effect (s : State) (n : Nat) (f : Flit) : s.peerNoted (s.peerKnown n f) n f := by
  have apart : Reg.SPL_EVT ≠ bank Reg.SPL_PEER n := (bank_ge _ n _ (by decide)).1
  have set : sameRegs [bank Reg.SPL_PEER n] s (s.rgSet (bank Reg.SPL_PEER n) (peerWord f)) :=
    fun k out => rg_rgSet_other _ _ (by simpa using out)
  unfold State.peerKnown
  dsimp only
  split
  next four =>
    exact ⟨(s.rgSet_sameButRest _ _), sameRegs_mono set (by simp), rg_rgSet_same .., fun h => absurd four h, fun _ => rg_rgSet_other _ _ apart⟩
  next two =>
    exact ⟨s.rgSet_evSet_rest _ _ _ _, sameRegs_trans (sameRegs_mono set (by simp)) (sameRegs_mono (sameRegs_evSet _ _ _) (by simp)),
      (rg_evSet_other _ _ apart.symm).trans (rg_rgSet_same ..), fun _ => rb_evSet_same _ _ _ (by decide), fun h => absurd h two⟩

/-- What the flits sent again leave: the outbox, and the count of replays. -/
structure State.resent (s t : State) (n : Nat) : Prop where
  rest : { t with outbox := s.outbox, regs := s.regs } = s
  regs : sameRegs [bank Reg.SPL_REPLAYS n] s t
  sent : t.outbox.length = s.outbox.length + (s.link n).replay.length
  count : t.rf (bank Reg.SPL_REPLAYS n) 31 0 = (s.rf (bank Reg.SPL_REPLAYS n) 31 0 + (s.link n).replay.length) % 2 ^ 32

/-- An unacknowledged flit, as it leaves again. -/
def TxFlit.again (f : TxFlit) : Flit := { kind := 1, vc := f.vc, seq := f.seq, first := f.first, body := f.body }

/-- The unacknowledged flits of a link sent again. -/
def State.replayed (s : State) (n : Nat) : State := (s.link n).replay.foldl (fun u f => u.sendFlit n f.again) s

theorem State.resend_eq (s : State) (n : Nat) :
    s.resend n = (s.replayed n).rAdd (bank Reg.SPL_REPLAYS n) 31 0 (s.link n).replay.length := rfl

theorem State.resend_effect (s : State) (n : Nat) : s.resent (s.resend n) n := by
  obtain ⟨rest, sent⟩ : { s.replayed n with outbox := s.outbox } = s ∧
      (s.replayed n).outbox.length = s.outbox.length + (s.link n).replay.length :=
    State.sendFlits_effect n TxFlit.again (s.link n).replay s
  rw [State.resend_eq]
  generalize s.replayed n = u at *
  have same : u.regs = s.regs := (congrArg State.regs rest :)
  refine ⟨(congrArg (fun v : State => { v with regs := s.regs }) rest :), ?_, by rw [State.rAdd_outbox]; exact sent, ?_⟩
  · exact sameRegs_trans (sameRegs_of_regs same _) (sameRegs_rfSet u _ _ _ _)
  · have before : u.rf (bank Reg.SPL_REPLAYS n) 31 0 = s.rf (bank Reg.SPL_REPLAYS n) 31 0 := State.rf_of_rg (rg_of_regs same _) 31 0
    rw [← before]
    exact rf_rAdd_same u _ 31 0 _ (by decide) (by decide)

/-- What INIT leaves besides its link and the flits that leave. -/
structure State.initTaken (s t : State) (n : Nat) (f : Flit) : Prop where
  others : State.elsewhere n s t
  regs : sameRegs [bank Reg.SPL_PEER n, Reg.SPL_EVT, bank Reg.SPL_REPLAYS n] s t
  rest : { t with spl := s.spl, regs := s.regs, setAt := s.setAt, outbox := s.outbox } = s
  peer : t.rg (bank Reg.SPL_PEER n) = peerWord f
  two : (s.link n).lanes ≠ 0xF → t.rb Reg.SPL_EVT 1 = true
  four : (s.link n).lanes = 0xF → t.rg Reg.SPL_EVT = s.rg Reg.SPL_EVT

/-- What moves neither PEER nor the events nor the other links keeps what INIT leaves. -/
theorem State.initTaken.then {s t u : State} {n : Nat} {f : Flit} (h : s.initTaken t n f) (others : State.elsewhere n t u)
    (regs : sameRegs [bank Reg.SPL_REPLAYS n] t u) (rest : { u with spl := t.spl, regs := t.regs, outbox := t.outbox } = t) :
    s.initTaken u n f := by
  have apart : Reg.SPL_EVT ∉ [bank Reg.SPL_REPLAYS n] := by simpa using (bank_ge Reg.SPL_REPLAYS n _ (by decide)).1
  have apart' : bank Reg.SPL_PEER n ∉ [bank Reg.SPL_REPLAYS n] := by simpa using bank_ne (by decide) n
  have frame := (congrArg (fun w : State => { w with spl := s.spl, regs := s.regs, setAt := s.setAt, outbox := s.outbox }) rest :)
  exact ⟨h.others.trans others, sameRegs_trans h.regs (sameRegs_mono regs (by simp)), frame.trans h.rest,
    (regs _ apart').trans h.peer, fun lanes => (State.rb_of_rg (regs _ apart) _).trans (h.two lanes),
    fun lanes => (regs _ apart).trans (h.four lanes)⟩

/-- The link of an INIT in service, before anything leaves on it. -/
def State.initOpened (s : State) (n : Nat) (f : Flit) : State := (s.peerKnown n f).linkSet n (s.link n).opened

theorem State.initOpened_effect {s : State} {n : Nat} (fitted : linkFitted s n = true) (f : Flit) :
    s.initTaken (s.initOpened n f) n f ∧ (s.initOpened n f).link n = (s.link n).opened ∧ (s.initOpened n f).outbox = s.outbox := by
  unfold State.initOpened
  have noted := s.peerKnown_effect n f
  generalize s.peerKnown n f = u at *
  have fuses : u.fuses = s.fuses := (congrArg State.fuses noted.rest :)
  have spl : u.spl = s.spl := (congrArg State.spl noted.rest :)
  have out : u.outbox = s.outbox := (congrArg State.outbox noted.rest :)
  have others := (State.elsewhere_of fuses spl).trans (u.elsewhere_linkSet n (s.link n).opened)
  have here := u.link_linkSet_same n (s.link n).opened ((linkFitted_of_fuses fuses n).trans fitted)
  generalize (s.link n).opened = x at *
  have regs : ∀ k, (u.linkSet n x).rg k = u.rg k := u.rg_linkSet n (v := x)
  refine ⟨⟨others, fun k out => (regs k).trans (sameRegs_mono noted.regs (by simp) k out), ?_, (regs _).trans noted.peer,
    fun h => (State.rb_of_rg (regs _) _).trans (noted.two h), fun h => (regs _).trans (noted.four h)⟩, here, (u.linkSet_outbox n x).trans out⟩
  exact (congrArg (fun v : State => { v with spl := s.spl, outbox := s.outbox }) noted.rest :)

section
variable {s v : State} {n : Nat} {f : Flit} (here : v.link n = (s.link n).opened) (out : v.outbox = s.outbox)
  (queue : (s.link n).queue = [])
include here queue

theorem State.initOpened_acked {w : State} (moved : s.initTaken w n f) (same : w.link n = v.link n) :
    s.initTaken ((w.sendAck n).pump n) n f ∧ ((w.sendAck n).pump n).link n = { (s.link n).opened with owed := [] } ∧
    ((w.sendAck n).pump n).outbox.length =
      w.outbox.length + (if (s.link n).opened.owed.isEmpty then 1 else (creditParts (s.link n).opened.owed).length) := by
  have up : (w.link n).up = true := by rw [same, here]; exact SLink.opened_up _
  have ack := State.sendAck_effect up
  have idle : ((w.sendAck n).link n).queue = [] := by rw [ack.link, same, here]; exact (SLink.opened_queue _).trans queue
  have sent := ack.sent
  have link := ack.link
  rw [same, here] at sent link
  rw [pump_empty _ _ idle]
  generalize w.sendAck n = t at *
  have regs : t.regs = w.regs := (congrArg State.regs ack.rest :)
  exact ⟨moved.then ack.others (sameRegs_of_regs regs _) (congrArg (fun x : State => { x with regs := w.regs }) ack.rest :), link, sent⟩

include out in
theorem State.initOpened_new (new : (s.link n).keeping = false) :
    ((v.sendAck n).pump n).outbox = .flit n (Flit.toBytes { kind := 0, ack := 4095 }) :: s.outbox := by
  have up : (v.link n).up = true := by rw [here]; exact SLink.opened_up _
  have none : (v.link n).owed = [] := by rw [here, SLink.opened_new new]
  have last : (v.link n).lastRx = 4095 := SLink.lastRx_first (by rw [here, SLink.opened_new new])
  have idle : ((v.sendAck n).link n).queue = [] := by
    rw [(State.sendAck_effect up).link, here]
    exact (SLink.opened_queue _).trans queue
  rw [pump_empty _ _ idle, State.sendAck_idle up none, sendFlit_eq, last, out]

end

theorem State.initTaken.resent {s v : State} {n : Nat} {f : Flit} (h : s.initTaken v n f) :
    s.initTaken (v.resend n) n f ∧ (v.resend n).link n = v.link n ∧
    (v.resend n).outbox.length = v.outbox.length + (v.link n).replay.length := by
  have re := v.resend_effect n
  generalize v.resend n = w at *
  have fuses : w.fuses = v.fuses := (congrArg State.fuses re.rest :)
  have spl : w.spl = v.spl := (congrArg State.spl re.rest :)
  exact ⟨h.then (State.elsewhere_of fuses spl) re.regs (congrArg (fun x : State => { x with spl := v.spl }) re.rest :),
    State.link_congr fuses spl n, re.sent⟩

theorem SLink.opened_kept_parts {x : SLink} (kept : x.keeping = true) : x.opened.owed = x.owed ∧ x.opened.replay = x.replay := by
  rw [SLink.opened_kept kept]
  exact ⟨rfl, rfl⟩

theorem exec_init_effect {n : Fin 64} {flit : List Byte} {s : State} (st : (s.link n.val).st = .training)
    (trained : (s.link n.val).trained = true) (good : flitGood flit = true) (queue : (s.link n.val).queue = []) :
    ∃ t, exec (.init n flit) s = .next t ∧ s.initTaken t n.val (flitOf flit) ∧
      t.link n.val = { (s.link n.val).opened with owed := [] } ∧
      ((s.link n.val).keeping = false → t.outbox = .flit n.val (Flit.toBytes { kind := 0, ack := 4095 }) :: s.outbox) ∧
      ((s.link n.val).keeping = true → t.outbox.length = s.outbox.length + (s.link n.val).replay.length +
        (if (s.link n.val).owed.isEmpty then 1 else (creditParts (s.link n.val).owed).length)) := by
  obtain ⟨open', here, out⟩ := s.initOpened_effect (State.link_fitted s n.val (by simp [st])) (flitOf flit)
  have known : exec (.init n flit) s = .next (((s.sentAgain (s.initOpened n.val (flitOf flit)) n.val).sendAck n.val).pump n.val) :=
    exec_init st trained good
  generalize s.initOpened n.val (flitOf flit) = v at *
  cases keeping : (s.link n.val).keeping with
  | false =>
    rw [State.sentAgain, if_neg (by simp [keeping])] at known
    obtain ⟨taken, link, -⟩ := State.initOpened_acked here queue open' rfl
    exact ⟨_, known, taken, link, fun _ => State.initOpened_new here out queue keeping, fun h => absurd h (by simp)⟩
  | true =>
    rw [State.sentAgain, if_pos keeping] at known
    obtain ⟨again, same, count⟩ := open'.resent
    obtain ⟨taken, link, sent⟩ := State.initOpened_acked here queue again same
    obtain ⟨owed, replay⟩ := SLink.opened_kept_parts keeping
    rw [owed, count, here, replay, out] at sent
    exact ⟨_, known, taken, link, fun h => absurd h (by simp), fun _ => sent⟩

end Sys2Proof.Machine

/-! # DISABLE, RETRAIN and failed lanes of a spline link (R340, R341, R343) -/

namespace Sys2Proof.Machine

theorem State.rfSet_rest (s : State) (k hi lo v : Nat) : { s.rfSet k hi lo v with regs := s.regs } = s := rfl
theorem State.rbSet_rest (s : State) (k i : Nat) (b : Bool) : { s.rbSet k i b with regs := s.regs } = s := rfl
theorem State.rAdd64_rest (s : State) (k n : Nat) : { s.rAdd64 k n with regs := s.regs } = s := rfl

section
variable {f : Func} {n : Fin 64} {s : State} (ready : s.mustWait (portOf f) = false) (pf : isPf f = true)
include ready pf

theorem exec_linkDisable (fitted : linkFitted s n.val = true) : exec (.linkDisable f n) s = .next
    (if (s.link n.val).up || (s.link n.val).keeping then (s.rbSet (bank Reg.SPL_LINKCTL n.val) 0 true).linkDown n.val .disabled
     else (s.rbSet (bank Reg.SPL_LINKCTL n.val) 0 true).linkSet n.val
       { (s.rbSet (bank Reg.SPL_LINKCTL n.val) 0 true).link n.val with st := .disabled }) := by
  have run : exec (.linkDisable f n) s = execLinkDisable f n s := rfl
  rw [run, execLinkDisable, State.inOrder_of_ready ready]
  exact congrArg Host.Outcome.next (if_neg (by simp [pf, fitted]))

theorem exec_linkDisable_idle (fitted : linkFitted s n.val = true) (down : (s.link n.val).up = false)
    (new : (s.link n.val).keeping = false) : ∃ t, exec (.linkDisable f n) s = .next t ∧
    t.link n.val = { s.link n.val with st := .disabled } ∧ t.rb (bank Reg.SPL_LINKCTL n.val) 0 = true ∧ State.elsewhere n.val s t ∧
    { t with spl := s.spl, regs := s.regs } = s := by
  have known := exec_linkDisable ready pf fitted
  rw [if_neg (by simp [down, new])] at known
  have set := rb_rbSet_same s (bank Reg.SPL_LINKCTL n.val) 0 true (by decide)
  have rest : { s.rbSet (bank Reg.SPL_LINKCTL n.val) 0 true with regs := s.regs } = s := s.rbSet_rest ..
  generalize s.rbSet (bank Reg.SPL_LINKCTL n.val) 0 true = u at *
  have fuses : u.fuses = s.fuses := (congrArg State.fuses rest :)
  have spl : u.spl = s.spl := (congrArg State.spl rest :)
  rw [State.link_congr fuses spl] at known
  refine ⟨_, known, u.link_linkSet_same _ _ ((linkFitted_of_fuses fuses _).trans fitted), (State.rb_of_rg (u.rg_linkSet ..) 0).trans set,
    (State.elsewhere_of fuses spl).trans (u.elsewhere_linkSet _ _), ?_⟩
  exact (congrArg (fun v : State => { v with spl := s.spl }) rest :)

theorem exec_linkDisable_up (fitted : linkFitted s n.val = true) (up : (s.link n.val).up = true) (held : (s.link n.val).held = [])
    (queue : (s.link n.val).queue = []) : ∃ t, exec (.linkDisable f n) s = .next t ∧
    t.link n.val = { st := .disabled, failed := (s.link n.val).failed, retryAt := s.now, late := (s.link n.val).keepWhole } ∧
    t.rb (bank Reg.SPL_LINKCTL n.val) 0 = true ∧ t.rb (bank Reg.SPL_PEER n.val) 18 = false ∧ t.rb Reg.SPL_EVT 0 = true ∧
    State.elsewhere n.val s t := by
  have known := exec_linkDisable ready pf fitted
  rw [if_pos (by simp [up])] at known
  have set := rb_rbSet_same s (bank Reg.SPL_LINKCTL n.val) 0 true (by decide)
  have rest : { s.rbSet (bank Reg.SPL_LINKCTL n.val) 0 true with regs := s.regs } = s := s.rbSet_rest ..
  generalize s.rbSet (bank Reg.SPL_LINKCTL n.val) 0 true = u at *
  have fuses : u.fuses = s.fuses := (congrArg State.fuses rest :)
  have spl : u.spl = s.spl := (congrArg State.spl rest :)
  have now : u.now = s.now := (congrArg State.now rest :)
  have here := State.link_congr fuses spl n.val
  rw [State.linkDown_idle (by rw [here]; exact held) (by rw [here]; exact queue), here, now] at known
  have gone := u.linkLeft_gone n.val { st := .disabled, failed := (s.link n.val).failed, retryAt := s.now, late := (s.link n.val).keepWhole }
  have ctl := gone.regs (bank Reg.SPL_LINKCTL n.val) (by unfold bank; omega) (bank_ne (by decide) _) (bank_ge _ _ _ (by decide)).1.symm
  exact ⟨_, known, gone.link ((linkFitted_of_fuses fuses _).trans fitted), (State.rb_of_rg ctl 0).trans set, gone.peer, gone.event,
    (State.elsewhere_of fuses spl).trans gone.others⟩

theorem exec_linkRetrain (up : (s.link n.val).up = true) : ∃ t, exec (.linkRetrain f n) s = .next t ∧
    t.link n.val = { s.link n.val with st := .training, trained := false, keeping := true, began := s.now, limit := 15 } ∧
    t.rb (bank Reg.SPL_PEER n.val) 18 = false ∧ State.elsewhere n.val s t ∧ sameRegs [bank Reg.SPL_PEER n.val] s t ∧
    { t with spl := s.spl, regs := s.regs } = s := by
  have known : exec (.linkRetrain f n) s = .next ((s.linkSet n.val
      { s.link n.val with st := .training, trained := false, keeping := true, began := s.now, limit := 15 }).peerLost n.val) := by
    have run : exec (.linkRetrain f n) s = execLinkRetrain f n s := rfl
    rw [run, execLinkRetrain, State.inOrder_of_ready ready]
    exact congrArg Host.Outcome.next (if_pos (by simp [pf, up]))
  refine ⟨_, known, ?_⟩
  have here := s.link_linkSet_same n.val { s.link n.val with st := .training, trained := false, keeping := true, began := s.now, limit := 15 }
    (linkFitted_of_up up)
  generalize ({ s.link n.val with st := .training, trained := false, keeping := true, began := s.now, limit := 15 } : SLink) = x at *
  have others := s.elsewhere_linkSet n.val x
  have rest := s.linkSet_rest n.val x
  have regs : ∀ k, (s.linkSet n.val x).rg k = s.rg k := fun k => s.rg_linkSet n.val k x
  generalize s.linkSet n.val x = u at *
  have same := sameRegs_rfSet u (bank Reg.SPL_PEER n.val) 18 18 0
  have after : { u.peerLost n.val with regs := u.regs } = u := u.rfSet_rest ..
  have cleared : (u.peerLost n.val).rb (bank Reg.SPL_PEER n.val) 18 = false := by
    rw [State.peerLost, rb_rfSet _ _ _ _ _ _ (by decide) (by decide), if_pos (by decide)]
    rfl
  have same : sameRegs [bank Reg.SPL_PEER n.val] u (u.peerLost n.val) := same
  generalize u.peerLost n.val = v at *
  have fuses : v.fuses = u.fuses := (congrArg State.fuses after :)
  have spl : v.spl = u.spl := (congrArg State.spl after :)
  refine ⟨(State.link_congr fuses spl _).trans here, cleared, others.trans (State.elsewhere_of fuses spl),
    fun k out => (same k out).trans (regs k), ?_⟩
  exact ((congrArg (fun w : State => { w with spl := s.spl, regs := s.regs }) after :)).trans
    (congrArg (fun w : State => { w with regs := s.regs }) rest :)

end

/-! ## Lanes that fail (R341) -/

/-- The count of the corrected symbols that a lane's failure brings. -/
def symbolCount (symbols : Option (BitVec 32)) : Nat :=
  match symbols with
  | some k => k.toNat
  | none => 0

/-- The corrected symbols counted. -/
def State.symbolsCounted (s : State) (n : Nat) (symbols : Option (BitVec 32)) : State :=
  match symbols with
  | some k => s.rAdd64 (bank Reg.SPL_FEC_CORR n) k.toNat
  | none => s

theorem State.symbolsCounted_effect (s : State) (n : Nat) (symbols : Option (BitVec 32)) : let t := s.symbolsCounted n symbols
    t.rg64 (bank Reg.SPL_FEC_CORR n) = (s.rg64 (bank Reg.SPL_FEC_CORR n) + symbolCount symbols) % 2 ^ 64 ∧
    sameRegs [bank Reg.SPL_FEC_CORR n, bank Reg.SPL_FEC_CORR n + 4] s t ∧ { t with regs := s.regs } = s := by
  cases symbols with
  | none =>
    refine ⟨?_, fun _ _ => rfl, rfl⟩
    have low : s.rg64 (bank Reg.SPL_FEC_CORR n) < 2 ^ 64 := by
      rw [State.rg64]
      omega
    exact (Nat.mod_eq_of_lt low).symm
  | some k =>
    refine ⟨rg64_rAdd64_same .., fun j out => ?_, s.rAdd64_rest ..⟩
    simp only [List.mem_cons, List.not_mem_nil, or_false, not_or] at out
    exact rg_rg64Set_other _ _ out.1 out.2

theorem State.symbolsCounted_kept (s : State) (n : Nat) (symbols : Option (BitVec 32)) :
    (s.symbolsCounted n symbols).fuses = s.fuses ∧ (s.symbolsCounted n symbols).spl = s.spl := by
  obtain ⟨-, -, rest⟩ := s.symbolsCounted_effect n symbols
  generalize s.symbolsCounted n symbols = u at *
  exact ⟨(congrArg State.fuses rest :), (congrArg State.spl rest :)⟩

theorem State.link_symbolsCounted (s : State) (n : Nat) (symbols : Option (BitVec 32)) (k : Nat) :
    (s.symbolsCounted n symbols).link k = s.link k :=
  State.link_congr (s.symbolsCounted_kept n symbols).1 (s.symbolsCounted_kept n symbols).2 k

/-- What the failure of a lane does to a link that stands as `x`. -/
def State.laneLostOf (s : State) (n lane : Nat) (x : SLink) : State :=
  let failed := Nat.lor x.failed (2 ^ lane)
  let y := { x with failed := failed }
  match x.st with
  | .up4 =>
    let pair := lanesUp (15 - failed)
    if pair = 0 then (s.linkSet n y).linkDown n .down
    else (s.linkSet n { y with st := .up2, lanes := pair }).evSet Reg.SPL_EVT 1
  | .up2 => if bitOf x.lanes lane then (s.linkSet n y).linkDown n .down else s.linkSet n y
  | _ => s

/-- A lane failure's effect on its link, once the symbols are counted. -/
def State.laneLost (s : State) (n lane : Nat) : State := s.laneLostOf n lane (s.link n)

section
variable {n : Fin 64} {s : State}

theorem exec_splineLaneFail_bears (lane : Fin 4) (fitted : linkFitted s n.val = true) {k : BitVec 32}
    (few : k.toNat ≤ s.rf Reg.SPL_CFG 31 16) :
    exec (.splineLaneFail n lane (some k)) s = .next (s.symbolsCounted n.val (some k)) := by
  have run : exec (.splineLaneFail n lane (some k)) s = execSplineLaneFail n lane (some k) s := rfl
  have cfg : (s.rAdd64 (bank Reg.SPL_FEC_CORR n.val) k.toNat).rf Reg.SPL_CFG 31 16 = s.rf Reg.SPL_CFG 31 16 :=
    sameRegs_rf (s.symbolsCounted_effect n.val (some k)).2.1
      (by simpa using bank_ge Reg.SPL_FEC_CORR n.val Reg.SPL_CFG (by decide)) 31 16
  rw [run]
  unfold execSplineLaneFail
  simp only [fitted, if_true, cfg, decide_eq_false (Nat.not_lt.mpr few), Bool.not_false, State.symbolsCounted]

theorem exec_splineLaneFail_fails (lane : Fin 4) {symbols : Option (BitVec 32)} (fitted : linkFitted s n.val = true)
    (many : ∀ k, symbols = some k → s.rf Reg.SPL_CFG 31 16 < k.toNat) :
    exec (.splineLaneFail n lane symbols) s = .next ((s.symbolsCounted n.val symbols).laneLost n.val lane.val) := by
  have run : exec (.splineLaneFail n lane symbols) s = execSplineLaneFail n lane symbols s := rfl
  rw [run]
  unfold execSplineLaneFail
  cases symbols with
  | none => exact congrArg Host.Outcome.next (if_neg (by simp))
  | some k =>
    obtain ⟨-, same, -⟩ := s.symbolsCounted_effect n.val (some k)
    have cfg := sameRegs_rf same (by simpa using bank_ge Reg.SPL_FEC_CORR n.val Reg.SPL_CFG (by decide)) 31 16
    rw [State.laneLost, State.link_symbolsCounted]
    simp only [State.symbolsCounted] at cfg ⊢
    simp only [fitted, if_true, cfg, decide_eq_true (many k rfl), Bool.not_true, Bool.false_eq_true, if_false]
    rfl

end

section
variable {n lane : Nat} {s : State}

theorem State.laneLost_pair (four : (s.link n).st = .up4) (pair : lanesUp (15 - Nat.lor (s.link n).failed (2 ^ lane)) ≠ 0) :
    let t := s.laneLost n lane
    t.link n = { s.link n with st := .up2, lanes := lanesUp (15 - Nat.lor (s.link n).failed (2 ^ lane)),
                               failed := Nat.lor (s.link n).failed (2 ^ lane) } ∧
    t.rb Reg.SPL_EVT 1 = true ∧ State.elsewhere n s t ∧ sameRegs [Reg.SPL_EVT] s t ∧
    { t with spl := s.spl, regs := s.regs, setAt := s.setAt } = s := by
  have fitted := State.link_fitted s n (by simp [four])
  have step : s.laneLost n lane = (s.linkSet n { s.link n with
      st := .up2, lanes := lanesUp (15 - Nat.lor (s.link n).failed (2 ^ lane)), failed := Nat.lor (s.link n).failed (2 ^ lane) }).evSet
        Reg.SPL_EVT 1 := by
    simp only [State.laneLost, State.laneLostOf, four, pair, if_false]
  rw [step]
  generalize ({ s.link n with st := .up2, lanes := lanesUp (15 - Nat.lor (s.link n).failed (2 ^ lane)),
                              failed := Nat.lor (s.link n).failed (2 ^ lane) } : SLink) = x at *
  have here := s.link_linkSet_same n x fitted
  have others := s.elsewhere_linkSet n x
  have rest := s.linkSet_rest n x
  have regs : ∀ k, (s.linkSet n x).rg k = s.rg k := fun k => s.rg_linkSet n k x
  generalize s.linkSet n x = u at *
  have log := u.evSet_sameButLog Reg.SPL_EVT 1
  refine ⟨(State.link_of_sameButLog log n).trans here, rb_evSet_same u _ _ (by decide),
    others.trans fun k _ => State.link_of_sameButLog log k, fun k out => (sameRegs_evSet u _ _ k out).trans (regs k), ?_⟩
  exact ((congrArg (fun w : State => { w with spl := s.spl, regs := s.regs, setAt := s.setAt }) (u.evSet_rest Reg.SPL_EVT 1) :)).trans
    (congrArg (fun w : State => { w with regs := s.regs, setAt := s.setAt }) rest :)

theorem State.laneLost_down (held : (s.link n).held = []) (queue : (s.link n).queue = [])
    (lost : (s.link n).st = .up4 ∧ lanesUp (15 - Nat.lor (s.link n).failed (2 ^ lane)) = 0 ∨
      (s.link n).st = .up2 ∧ bitOf (s.link n).lanes lane = true) :
    let t := s.laneLost n lane
    (t.link n).st = .down ∧ t.rb (bank Reg.SPL_PEER n) 18 = false ∧ t.rb Reg.SPL_EVT 0 = true ∧ State.elsewhere n s t ∧
    ∀ k, 0x90000 ≤ k → k ≠ bank Reg.SPL_PEER n → k ≠ Reg.SPL_EVT → t.rg k = s.rg k := by
  have fitted := State.link_fitted s n (by rcases lost with ⟨st, -⟩ | ⟨st, -⟩ <;> simp [st])
  have step : s.laneLost n lane =
      (s.linkSet n { s.link n with failed := Nat.lor (s.link n).failed (2 ^ lane) }).linkDown n .down := by
    rcases lost with ⟨st, pair⟩ | ⟨st, bit⟩
    · simp only [State.laneLost, State.laneLostOf, st, pair, if_true]
    · simp only [State.laneLost, State.laneLostOf, st, bit, if_true]
  have here := s.link_linkSet_same n { s.link n with failed := Nat.lor (s.link n).failed (2 ^ lane) } fitted
  have others := s.elsewhere_linkSet n { s.link n with failed := Nat.lor (s.link n).failed (2 ^ lane) }
  have regs : ∀ k, (s.linkSet n { s.link n with failed := Nat.lor (s.link n).failed (2 ^ lane) }).rg k = s.rg k :=
    fun k => s.rg_linkSet n k _
  have fitted' : linkFitted (s.linkSet n { s.link n with failed := Nat.lor (s.link n).failed (2 ^ lane) }) n = true := fitted
  generalize s.linkSet n { s.link n with failed := Nat.lor (s.link n).failed (2 ^ lane) } = u at *
  rw [State.linkDown_idle (by rw [here]; exact held) (by rw [here]; exact queue)] at step
  have gone := u.linkLeft_gone n { st := .down, failed := (u.link n).failed, retryAt := u.now, late := (u.link n).keepWhole }
  rw [step]
  exact ⟨by rw [gone.link fitted'], gone.peer, gone.event, others.trans gone.others,
    fun k high peer event => (gone.regs k high peer event).trans (regs k)⟩

end

end Sys2Proof.Machine

/-! # The states of a spline link: the statement -/

namespace Sys2Proof.Machine

theorem exec_linkTrainingRetry_begins {n : Fin 64} {s : State} (st : (s.link n.val).st = .down) (fitted : linkFitted s n.val = true) :
    ∃ t, exec (.linkTrainingRetry n) s = .next t ∧
    t.link n.val = { s.link n.val with st := .training, trained := false, limit := 15, began := t.now } ∧
    t.now = max s.now (s.link n.val).retryAt ∧ State.elsewhere n.val s t ∧ { t with spl := s.spl, now := s.now } = s := by
  have known := exec_linkTrainingRetry st fitted
  generalize (s.link n.val).retryAt = due at *
  have rest : { s.at due with now := s.now } = s := rfl
  have now : (s.at due).now = max s.now due := rfl
  generalize s.at due = u at *
  have fuses : u.fuses = s.fuses := (congrArg State.fuses rest :)
  have spl : u.spl = s.spl := (congrArg State.spl rest :)
  refine ⟨_, known, u.link_linkSet_same _ _ ((linkFitted_of_fuses fuses _).trans fitted), now,
    (State.elsewhere_of fuses spl).trans (u.elsewhere_linkSet _ _), ?_⟩
  generalize ({ s.link n.val with st := .training, trained := false, limit := 15, began := u.now } : SLink) = x
  exact ((congrArg (fun v : State => { v with spl := s.spl, now := s.now }) (u.linkSet_rest n.val x) :)).trans
    (congrArg (fun v : State => { v with spl := s.spl }) rest :)

theorem exec_linkTrainingEnd_up {n : Fin 64} {good : BitVec 4} {s : State} (st : (s.link n.val).st = .training)
    (new : (s.link n.val).trained = false) (some : lanesUp (Nat.land good.toNat (s.link n.val).limit) ≠ 0) :
    ∃ t, exec (.linkTrainingEnd n good) s = .next t ∧
      t.link n.val = { s.link n.val with trained := true, lanes := lanesUp (Nat.land good.toNat (s.link n.val).limit), failed := 15 - good.toNat } ∧
      t.outbox = .flit n.val (Flit.toBytes { kind := 2, modid := s.moduleId, link := n.val, ack := (s.link n.val).lastRx }) :: s.outbox ∧
      State.elsewhere n.val s t ∧ { t with spl := s.spl, outbox := s.outbox } = s := by
  have known := exec_linkTrainingEnd_comesUp st new some
  have ack : ({ s.link n.val with trained := true, lanes := lanesUp (Nat.land good.toNat (s.link n.val).limit), failed := 15 - good.toNat } :
    SLink).lastRx = (s.link n.val).lastRx := rfl
  generalize ({ s.link n.val with trained := true, lanes := lanesUp (Nat.land good.toNat (s.link n.val).limit), failed := 15 - good.toNat } :
    SLink) = x at *
  have here := s.link_linkSet_same n.val x (State.link_fitted s n.val (by simp [st]))
  have others := s.elsewhere_linkSet n.val x
  have rest := s.linkSet_rest n.val x
  have id : (s.linkSet n.val x).moduleId = s.moduleId := rfl
  generalize s.linkSet n.val x = u at *
  rw [State.sendInit, sendFlit_eq, here, ack, id] at known
  refine ⟨_, known, (State.link_congr rfl rfl _).trans here, ?_, others.trans (State.elsewhere_of rfl rfl), ?_⟩
  · exact congrArg _ (congrArg State.outbox rest :)
  · exact (congrArg (fun v : State => { v with outbox := s.outbox }) rest :)

theorem exec_linkTrainingEnd_noInit {n : Fin 64} {good : BitVec 4} {s : State} (st : (s.link n.val).st = .training)
    (old : (s.link n.val).trained = true) (new : (s.link n.val).keeping = false) :
    ∃ t, exec (.linkTrainingEnd n good) s = .next t ∧ t.now = max s.now ((s.link n.val).began + 500000000) ∧
      t.link n.val = { s.link n.val with st := .down, trained := false, retryAt := t.now + s.retrainWait } ∧
      State.elsewhere n.val s t ∧ { t with spl := s.spl, now := s.now } = s := by
  have known := exec_linkTrainingEnd_late (good := good) st old
  generalize (s.link n.val).began + 500000000 = due at *
  have rest : { s.at due with now := s.now } = s := rfl
  have now : (s.at due).now = max s.now due := rfl
  have wait : (s.at due).retrainWait = s.retrainWait := rfl
  generalize s.at due = u at *
  have fuses : u.fuses = s.fuses := (congrArg State.fuses rest :)
  have spl : u.spl = s.spl := (congrArg State.spl rest :)
  have here := State.link_congr fuses spl n.val
  obtain ⟨link, others, frame⟩ := State.trainFail_new (s := u) ((linkFitted_of_fuses fuses _).trans (State.link_fitted s n.val (by simp [st])))
    (by rw [here]; exact new) (s.link n.val).failed
  generalize u.trainFail n.val (s.link n.val).failed = v at *
  have later : v.now = u.now := (congrArg State.now frame :)
  refine ⟨_, known, later.trans now, ?_, (State.elsewhere_of fuses spl).trans others, ?_⟩
  · rw [link, here, wait, later]
  · exact ((congrArg (fun w : State => { w with spl := s.spl, now := s.now }) frame :)).trans
      (congrArg (fun w : State => { w with spl := s.spl }) rest :)

theorem SLink.opened_noOwed_kept {x : SLink} (kept : x.keeping = true) :
    { x.opened with owed := [] } = { x with st := if x.lanes = 0xF then .up4 else .up2, keeping := false, resends := 0, owed := [] } := by
  rw [SLink.opened_kept kept]

theorem SLink.opened_noOwed_new {x : SLink} (new : x.keeping = false) :
    { x.opened with owed := [] } = { x with st := if x.lanes = 0xF then .up4 else .up2, txSeq := 0, rxSeq := 0, nakSent := false, replay := [], used := [], owed := [], resends := 0 } := by
  rw [SLink.opened_new new]

section
variable {n : Fin 64} {lane : Fin 4} {symbols : Option (BitVec 32)} {s : State} (fitted : linkFitted s n.val = true)
include fitted

theorem exec_splineLaneFail_few (few : ∃ k, symbols = some k ∧ k.toNat ≤ s.rf Reg.SPL_CFG 31 16) :
    ∃ t, exec (.splineLaneFail n lane symbols) s = .next t ∧
      t.rg64 (bank Reg.SPL_FEC_CORR n.val) = (s.rg64 (bank Reg.SPL_FEC_CORR n.val) + symbolCount symbols) % 2 ^ 64 ∧
      onlyRegs [bank Reg.SPL_FEC_CORR n.val, bank Reg.SPL_FEC_CORR n.val + 4] s t := by
  obtain ⟨k, rfl, low⟩ := few
  have known := exec_splineLaneFail_bears lane fitted low
  obtain ⟨count, same, rest⟩ := s.symbolsCounted_effect n.val (some k)
  generalize s.symbolsCounted n.val (some k) = u at *
  exact ⟨_, known, count, same, (congrArg (fun v : State => { v with setAt := s.setAt }) rest :)⟩

variable (many : ∀ k, symbols = some k → s.rf Reg.SPL_CFG 31 16 < k.toNat)
include many

theorem exec_splineLaneFail_pair (four : (s.link n.val).st = .up4)
    (pair : lanesUp (15 - Nat.lor (s.link n.val).failed (2 ^ lane.val)) ≠ 0) :
    ∃ t, exec (.splineLaneFail n lane symbols) s = .next t ∧
      t.rg64 (bank Reg.SPL_FEC_CORR n.val) = (s.rg64 (bank Reg.SPL_FEC_CORR n.val) + symbolCount symbols) % 2 ^ 64 ∧
      t.link n.val = { s.link n.val with st := .up2, lanes := lanesUp (15 - Nat.lor (s.link n.val).failed (2 ^ lane.val)),
                                         failed := Nat.lor (s.link n.val).failed (2 ^ lane.val) } ∧
      t.rb Reg.SPL_EVT 1 = true ∧ State.elsewhere n.val s t ∧
      sameRegs [Reg.SPL_EVT, bank Reg.SPL_FEC_CORR n.val, bank Reg.SPL_FEC_CORR n.val + 4] s t ∧
      { t with spl := s.spl, regs := s.regs, setAt := s.setAt } = s := by
  have known := exec_splineLaneFail_fails lane fitted many
  obtain ⟨count, same, rest⟩ := s.symbolsCounted_effect n.val symbols
  obtain ⟨fuses, spl⟩ := s.symbolsCounted_kept n.val symbols
  have here := s.link_symbolsCounted n.val symbols n.val
  generalize s.symbolsCounted n.val symbols = u at *
  have lost := State.laneLost_pair (s := u) (by rw [here]; exact four) (lane := lane.val) (by rw [here]; exact pair)
  rw [here] at lost
  generalize u.laneLost n.val lane.val = v at *
  obtain ⟨link, event, others, regs, frame⟩ := lost
  have out := bank_ge Reg.SPL_FEC_CORR n.val Reg.SPL_EVT (by decide)
  have low : v.rg (bank Reg.SPL_FEC_CORR n.val) = u.rg _ := regs _ (by simpa using out.1.symm)
  have high : v.rg (bank Reg.SPL_FEC_CORR n.val + 4) = u.rg _ := regs _ (by simpa using out.2.symm)
  refine ⟨_, known, (State.rg64_of_rg low high).trans count, link, event, (State.elsewhere_of fuses spl).trans others,
    sameRegs_trans (sameRegs_mono same (by simp)) (sameRegs_mono regs (by simp)), ?_⟩
  exact ((congrArg (fun w : State => { w with spl := s.spl, regs := s.regs, setAt := s.setAt }) frame :)).trans
    (congrArg (fun w : State => { w with spl := s.spl, setAt := s.setAt }) rest :)

theorem exec_splineLaneFail_down (held : (s.link n.val).held = []) (queue : (s.link n.val).queue = [])
    (lost : (s.link n.val).st = .up4 ∧ lanesUp (15 - Nat.lor (s.link n.val).failed (2 ^ lane.val)) = 0 ∨
      (s.link n.val).st = .up2 ∧ bitOf (s.link n.val).lanes lane.val = true) :
    ∃ t, exec (.splineLaneFail n lane symbols) s = .next t ∧
      t.rg64 (bank Reg.SPL_FEC_CORR n.val) = (s.rg64 (bank Reg.SPL_FEC_CORR n.val) + symbolCount symbols) % 2 ^ 64 ∧
      (t.link n.val).st = .down ∧ t.rb (bank Reg.SPL_PEER n.val) 18 = false ∧ t.rb Reg.SPL_EVT 0 = true ∧
      State.elsewhere n.val s t := by
  have known := exec_splineLaneFail_fails lane fitted many
  obtain ⟨count, -, -⟩ := s.symbolsCounted_effect n.val symbols
  obtain ⟨fuses, spl⟩ := s.symbolsCounted_kept n.val symbols
  have here := s.link_symbolsCounted n.val symbols n.val
  generalize s.symbolsCounted n.val symbols = u at *
  obtain ⟨down, peer, event, others, regs⟩ := State.laneLost_down (s := u) (n := n.val) (lane := lane.val) (by rw [here]; exact held)
    (by rw [here]; exact queue) (by rw [here]; exact lost)
  have out := bank_ge Reg.SPL_FEC_CORR n.val Reg.SPL_EVT (by decide)
  have low := regs (bank Reg.SPL_FEC_CORR n.val) (by unfold bank; omega) (bank_ne (by decide) _) out.1.symm
  have high := regs (bank Reg.SPL_FEC_CORR n.val + 4) (by unfold bank; omega) (by unfold bank Reg.SPL_FEC_CORR Reg.SPL_PEER; omega) out.2.symm
  exact ⟨_, known, (State.rg64_of_rg low high).trans count, down, peer, event, (State.elsewhere_of fuses spl).trans others⟩

end

/-- Settles O44: each command of a link's states, by the state it finds the link in. A link that leaves service with no message under
way moves its own record, PEER, the events and the log only. -/
theorem splineLinkStates : Obligations.SplineLinkStates := by
  unfold Obligations.SplineLinkStates
  intro f n s
  dsimp only
  refine ⟨exec_linkTrainingRetry_begins, fun good st new => ⟨exec_linkTrainingEnd_up st new, fun none fresh => ?_,
    fun none kept held queue => ?_⟩, fun good => exec_linkTrainingEnd_noInit, fun flit st trained good queue => ?_,
    fun ready pf fitted => ⟨exec_linkDisable_idle ready pf fitted, exec_linkDisable_up ready pf fitted⟩,
    fun ready pf => exec_linkRetrain ready pf, fun fitted lane symbols => ⟨fun k is few => exec_splineLaneFail_few fitted ⟨k, is, few⟩,
    fun many => ⟨exec_splineLaneFail_pair fitted many, fun lost held queue => exec_splineLaneFail_down fitted many held queue lost⟩⟩⟩
  · obtain ⟨link, others, rest⟩ := State.trainFail_new (State.link_fitted s n.val (by simp [st])) fresh (15 - good.toNat)
    refine ⟨_, exec_linkTrainingEnd_fails st new none, ?_, others, rest⟩
    rw [link]
    exact congrArg (fun b => ({ s.link n.val with st := .down, trained := b, failed := _, retryAt := _ } : SLink)) new.symm
  · exact ⟨_, exec_linkTrainingEnd_fails st new none, State.trainFail_kept (State.link_fitted s n.val (by simp [st])) kept held queue _⟩
  · obtain ⟨t, known, taken, link, first, again⟩ := exec_init_effect st trained good queue
    refine ⟨t, known, taken.others, taken.regs, taken.rest, taken.peer, taken.two, taken.four,
      fun new => ⟨link.trans (SLink.opened_noOwed_new new), first new⟩, fun kept => ⟨link.trans (SLink.opened_noOwed_kept kept), again kept⟩⟩

end Sys2Proof.Machine

/-! # Flits of a spline link (R339, R343, R344) -/

namespace Sys2Proof.Machine

/-! ## What a flit's header does -/

theorem State.ackFlits_none {s : State} {n ack : Nat} (none : (s.link n).replay.findIdx? (fun e => e.seq == ack) = none) :
    s.ackFlits n ack = s := by
  unfold State.ackFlits
  simp only [none]

/-- A link's record behind an ACK that covers its first `i` + 1 flits. -/
def SLink.acked (x : SLink) (i : Nat) : SLink :=
  let gone := (x.replay.take (i + 1)).map (·.seq)
  { x with replay := x.replay.drop (i + 1), held := x.held.filter (fun e => !gone.contains e.2.1), resends := 0 }

theorem State.ackFlits_some {s : State} {n ack i : Nat} (some : (s.link n).replay.findIdx? (fun e => e.seq == ack) = some i)
    (plain : ∀ e ∈ (s.link n).held, commitOf e.1 e.2.2 = none) : s.ackFlits n ack = s.linkSet n ((s.link n).acked i) := by
  unfold State.ackFlits
  simp only [some]
  exact foldl_idle fun e mem => by rw [plain e (List.mem_of_mem_filter mem)]

/-- A link's record behind the credits that a flit returns. -/
def SLink.credited (x : SLink) (vc count : Nat) : SLink := { x with used := mset x.used vc (mget x.used vc 0 - count) 0 }

theorem State.creditBack_eq (s : State) (n vc count : Nat) :
    s.creditBack n vc count = s.linkSet n ((s.link n).credited vc count) := rfl

/-- A state in which one link alone may have moved. -/
structure State.linkMoved (s t : State) (n : Nat) (x : SLink) : Prop where
  link : t.link n = x
  others : State.elsewhere n s t
  rest : { t with spl := s.spl } = s

section
variable {s t u : State} {n : Nat} {x y : SLink}

theorem State.linkMoved.fuses (h : s.linkMoved t n x) : t.fuses = s.fuses := (congrArg State.fuses h.rest :)

theorem State.linkMoved.trans (h : s.linkMoved t n x) (k : t.linkMoved u n y) : s.linkMoved u n y :=
  ⟨k.link, h.others.trans k.others, ((congrArg (fun v : State => { v with spl := s.spl }) k.rest :)).trans h.rest⟩

theorem State.linkMoved_linkSet (s : State) (fitted : linkFitted s n = true) (x : SLink) : s.linkMoved (s.linkSet n x) n x :=
  ⟨s.link_linkSet_same n x fitted, s.elsewhere_linkSet n x, s.linkSet_rest n x⟩

theorem State.linkMoved_refl (s : State) (n : Nat) : s.linkMoved s n (s.link n) := ⟨rfl, fun _ _ => rfl, rfl⟩

theorem State.linkMoved.set (h : s.linkMoved t n x) (fitted : linkFitted s n = true) (y : SLink) : s.linkMoved (t.linkSet n y) n y :=
  h.trans (t.linkMoved_linkSet ((linkFitted_of_fuses h.fuses n).trans fitted) y)

end

section
variable {s : State} {n ack vc count : Nat} (fitted : linkFitted s n = true) (queue : (s.link n).queue = [])
include fitted queue

/-- A header that acknowledges nothing new returns its credits. -/
theorem State.flitHeader_none (none : (s.link n).replay.findIdx? (fun e => e.seq == ack) = none) :
    s.linkMoved (s.flitHeader n ack vc count) n ((s.link n).credited vc count) := by
  rw [State.flitHeader, State.ackFlits_none none, State.creditBack_eq]
  have moved := s.linkMoved_linkSet fitted ((s.link n).credited vc count)
  rw [pump_empty _ _ (by rw [moved.link]; exact queue)]
  exact moved

/-- A header that acknowledges flits frees them, and returns its credits. -/
theorem State.flitHeader_some {i : Nat} (some : (s.link n).replay.findIdx? (fun e => e.seq == ack) = some i)
    (plain : ∀ e ∈ (s.link n).held, commitOf e.1 e.2.2 = none) :
    s.linkMoved (s.flitHeader n ack vc count) n (((s.link n).acked i).credited vc count) := by
  have freed := s.linkMoved_linkSet fitted ((s.link n).acked i)
  rw [State.flitHeader, State.ackFlits_some some plain, State.creditBack_eq, freed.link]
  have moved := freed.set fitted (((s.link n).acked i).credited vc count)
  rw [pump_empty _ _ (by rw [moved.link]; exact queue)]
  exact moved

end

/-! ## DATA -/

theorem State.fecCount_effect (s : State) (n : Nat) (bad : Bool) : let t := s.fecCount n bad
    t.rf (bank Reg.SPL_FEC_UNCORR n) 31 0 = (s.rf (bank Reg.SPL_FEC_UNCORR n) 31 0 + b2n bad) % 2 ^ 32 ∧
    sameRegs [bank Reg.SPL_FEC_UNCORR n] s t ∧ { t with regs := s.regs } = s := by
  cases bad with
  | true => exact ⟨rf_rAdd_same s _ 31 0 1 (by decide) (by decide), sameRegs_rfSet s _ _ _ _, s.rfSet_rest ..⟩
  | false =>
    refine ⟨?_, fun _ _ => rfl, rfl⟩
    have low : s.rf (bank Reg.SPL_FEC_UNCORR n) 31 0 < 2 ^ 32 := Nat.mod_lt _ (by decide)
    exact (Nat.mod_eq_of_lt low).symm

section
variable {n : Fin 64} {flit : List Byte} {s : State} (up : (s.link n.val).up = true)
include up

theorem exec_data_taken (good : flitGood flit = true) (seq : (flitOf flit).seq = (s.link n.val).rxSeq) :
    exec (.data n false flit) s = .next (((s.linkSet n.val { (s.link n.val).accept (flitOf flit) with
      rxSeq := ((s.link n.val).rxSeq + 1) % 4096, nakSent := false }).sendAck n.val).flitHeader
        n.val (flitOf flit).ack (flitOf flit).crvc (flitOf flit).crcount) := by
  have run : exec (.data n false flit) s = execData n false flit s := rfl
  rw [run, execData]
  exact congrArg Host.Outcome.next ((if_neg (by simp [up])).trans (if_pos (by simp [good, seq])))

theorem exec_data_refused {fecBad : Bool} (bad : fecBad = true ∨ flitGood flit = false ∨ (flitOf flit).seq ≠ (s.link n.val).rxSeq) :
    exec (.data n fecBad flit) s = .next (if (s.link n.val).nakSent then s.fecCount n.val fecBad
      else ((s.fecCount n.val fecBad).linkSet n.val { s.link n.val with nakSent := true }).sendFlit n.val { kind := 3 }) := by
  have run : exec (.data n fecBad flit) s = execData n fecBad flit s := rfl
  have refused : ((!fecBad && flitGood flit) && (flitOf flit).seq == (s.link n.val).rxSeq) = false := by
    rcases bad with bad | bad | bad <;> simp [bad]
  rw [run, execData]
  exact congrArg Host.Outcome.next ((if_neg (by simp [up])).trans (if_neg (by simp [refused])))

theorem exec_data_inSequence (queue : (s.link n.val).queue = []) (good : flitGood flit = true)
    (seq : (flitOf flit).seq = (s.link n.val).rxSeq)
    (none : (s.link n.val).replay.findIdx? (fun e => e.seq == (flitOf flit).ack) = none) :
    ∃ t, exec (.data n false flit) s = .next t ∧
      t.link n.val = { (s.link n.val).accept (flitOf flit) with
        rxSeq := ((s.link n.val).rxSeq + 1) % 4096, nakSent := false, owed := []
        used := mset (s.link n.val).used (flitOf flit).crvc (mget (s.link n.val).used (flitOf flit).crvc 0 - (flitOf flit).crcount) 0 } ∧
      State.elsewhere n.val s t ∧
      t.outbox.length = s.outbox.length + (if ((s.link n.val).accept (flitOf flit)).owed.isEmpty then 1
        else (creditParts ((s.link n.val).accept (flitOf flit)).owed).length) ∧
      { t with spl := s.spl, outbox := s.outbox } = s := by
  have known := exec_data_taken up good seq
  have taken := s.linkMoved_linkSet (linkFitted_of_up up)
    { (s.link n.val).accept (flitOf flit) with rxSeq := ((s.link n.val).rxSeq + 1) % 4096, nakSent := false }
  have out := s.linkSet_outbox n.val { (s.link n.val).accept (flitOf flit) with rxSeq := ((s.link n.val).rxSeq + 1) % 4096, nakSent := false }
  generalize s.linkSet n.val _ = u at *
  have kept : ((s.link n.val).accept (flitOf flit)).replay = (s.link n.val).replay ∧
      ((s.link n.val).accept (flitOf flit)).used = (s.link n.val).used ∧ ((s.link n.val).accept (flitOf flit)).queue = (s.link n.val).queue ∧
      ((s.link n.val).accept (flitOf flit)).up = (s.link n.val).up := ⟨rfl, rfl, rfl, rfl⟩
  generalize (s.link n.val).accept (flitOf flit) = y at *
  obtain ⟨replay, used, waiting, service⟩ := kept
  have ack := State.sendAck_effect (s := u) (n := n.val) (by rw [taken.link]; exact service.trans up)
  have fitted : linkFitted (u.sendAck n.val) n.val = true :=
    linkFitted_of_up (by rw [ack.link, taken.link]; exact service.trans up)
  generalize u.sendAck n.val = v at *
  have header := State.flitHeader_none (s := v) (vc := (flitOf flit).crvc) (count := (flitOf flit).crcount) (ack := (flitOf flit).ack) fitted
    (by rw [ack.link, taken.link]; exact waiting.trans queue) (by rw [ack.link, taken.link]; exact (congrArg _ replay).trans none)
  generalize v.flitHeader n.val (flitOf flit).ack (flitOf flit).crvc (flitOf flit).crcount = t at *
  refine ⟨t, known, ?_, taken.others.trans (ack.others.trans header.others), ?_, ?_⟩
  · rw [header.link, ack.link, taken.link, ← used]
    rfl
  · have sent : t.outbox = v.outbox := (congrArg State.outbox header.rest :)
    rw [sent, ack.sent, taken.link, out]
  · have frame := (congrArg (fun w : State => { w with spl := s.spl, outbox := s.outbox }) header.rest :)
    have frame' := (congrArg (fun w : State => { w with spl := s.spl, outbox := s.outbox }) ack.rest :)
    exact (frame.trans frame').trans (congrArg (fun w : State => { w with outbox := s.outbox }) taken.rest :)

theorem exec_data_discarded {fecBad : Bool} (bad : fecBad = true ∨ flitGood flit = false ∨ (flitOf flit).seq ≠ (s.link n.val).rxSeq) :
    ∃ t, exec (.data n fecBad flit) s = .next t ∧ t.link n.val = { s.link n.val with nakSent := true } ∧
      t.outbox = (if (s.link n.val).nakSent then s.outbox
        else .flit n.val (Flit.toBytes { kind := 3, ack := (s.link n.val).lastRx }) :: s.outbox) ∧
      t.rf (bank Reg.SPL_FEC_UNCORR n.val) 31 0 = (s.rf (bank Reg.SPL_FEC_UNCORR n.val) 31 0 + b2n fecBad) % 2 ^ 32 ∧
      State.elsewhere n.val s t ∧ sameRegs [bank Reg.SPL_FEC_UNCORR n.val] s t ∧
      { t with spl := s.spl, outbox := s.outbox, regs := s.regs } = s := by
  have known := exec_data_refused up bad
  obtain ⟨count, same, rest⟩ := s.fecCount_effect n.val fecBad
  generalize s.fecCount n.val fecBad = u at *
  have fuses : u.fuses = s.fuses := (congrArg State.fuses rest :)
  have spl : u.spl = s.spl := (congrArg State.spl rest :)
  have here := State.link_congr fuses spl n.val
  cases sent : (s.link n.val).nakSent with
  | true =>
    rw [if_pos sent] at known
    refine ⟨u, known, ?_, (congrArg State.outbox rest :), count, State.elsewhere_of fuses spl, same,
      (congrArg (fun v : State => { v with spl := s.spl, outbox := s.outbox }) rest :)⟩
    rw [here]
    exact congrArg (fun b => ({ s.link n.val with nakSent := b } : SLink)) sent
  | false =>
    rw [if_neg (by simp [sent])] at known
    have fitted := (linkFitted_of_fuses fuses n.val).trans (linkFitted_of_up up)
    have moved := u.linkMoved_linkSet fitted { s.link n.val with nakSent := true }
    have ack : ({ s.link n.val with nakSent := true } : SLink).lastRx = (s.link n.val).lastRx := rfl
    have regs : ∀ k, (u.linkSet n.val { s.link n.val with nakSent := true }).rg k = u.rg k := fun k => u.rg_linkSet n.val k _
    generalize u.linkSet n.val { s.link n.val with nakSent := true } = v at *
    rw [sendFlit_eq, moved.link, ack] at known
    have out : v.outbox = s.outbox := ((congrArg State.outbox moved.rest :)).trans (congrArg State.outbox rest :)
    refine ⟨_, known, (State.link_congr rfl rfl _).trans moved.link, by rw [out]; rfl, (State.rf_of_rg (regs _) 31 0).trans count,
      (State.elsewhere_of fuses spl).trans (moved.others.trans (State.elsewhere_of rfl rfl)), fun k off => (regs k).trans (same k off), ?_⟩
    have frame := (congrArg (fun w : State => { w with spl := s.spl, outbox := s.outbox, regs := s.regs }) moved.rest :)
    exact frame.trans (congrArg (fun w : State => { w with spl := s.spl, outbox := s.outbox }) rest :)

theorem exec_idleFlit_acked (queue : (s.link n.val).queue = []) {i : Nat} (good : flitGood flit = true)
    (some : (s.link n.val).replay.findIdx? (fun e => e.seq == (flitOf flit).ack) = some i)
    (plain : ∀ e ∈ (s.link n.val).held, commitOf e.1 e.2.2 = none) :
    ∃ t, exec (.idleFlit n flit) s = .next t ∧
      s.linkMoved t n.val (((s.link n.val).acked i).credited (flitOf flit).crvc (flitOf flit).crcount) := by
  have run : exec (.idleFlit n flit) s = execIdleFlit n flit s := rfl
  rw [run, execIdleFlit]
  exact ⟨_, congrArg Host.Outcome.next (if_pos (by simp [up, good])), State.flitHeader_some (linkFitted_of_up up) queue some plain⟩

end

/-! ## Flits sent again (R343) -/

/-- A link that trains again, with what it has not seen acknowledged. -/
def SLink.retraining (x : SLink) (now : Nat) : SLink :=
  { x with st := .training, trained := false, keeping := true, began := now, limit := if x.st = .up2 then x.lanes else 15 }

/-- What the unacknowledged flits sent once more leave. -/
structure State.resentMore (s t : State) (n : Nat) : Prop where
  link : t.link n = if max 1 (s.rf Reg.SPL_CFG 3 0) ≤ (s.link n).resends + 1
    then ({ s.link n with resends := (s.link n).resends + 1 } : SLink).retraining s.now
    else { s.link n with resends := (s.link n).resends + 1 }
  count : t.rf (bank Reg.SPL_REPLAYS n) 31 0 = (s.rf (bank Reg.SPL_REPLAYS n) 31 0 + (s.link n).replay.length) % 2 ^ 32
  sent : t.outbox.length = s.outbox.length + (s.link n).replay.length
  others : State.elsewhere n s t

theorem State.resendMore_eq {s : State} {n : Nat} (some : (s.link n).replay ≠ []) : s.resendMore n =
    let u := (s.linkSet n { s.link n with resends := (s.link n).resends + 1 }).resend n
    if max 1 (u.rf Reg.SPL_CFG 3 0) ≤ (s.link n).resends + 1 then
      (u.linkSet n { u.link n with
        st := .training, trained := false, keeping := true, began := u.now
        limit := if (s.link n).st == .up2 then (s.link n).lanes else 15 }).peerLost n
    else u := if_neg (by simpa using some)

theorem State.resendMore_effect {s : State} {n : Nat} (fitted : linkFitted s n = true) (some : (s.link n).replay ≠ []) :
    s.resentMore (s.resendMore n) n := by
  rw [State.resendMore_eq some]
  dsimp only
  have moved := s.linkMoved_linkSet fitted { s.link n with resends := (s.link n).resends + 1 }
  have again := (s.linkSet n { s.link n with resends := (s.link n).resends + 1 }).resend_effect n
  have cfg : ∀ k, (s.linkSet n { s.link n with resends := (s.link n).resends + 1 }).rg k = s.rg k := fun k => s.rg_linkSet n k _
  have out := s.linkSet_outbox n { s.link n with resends := (s.link n).resends + 1 }
  generalize s.linkSet n { s.link n with resends := (s.link n).resends + 1 } = u at *
  generalize u.resend n = v at *
  have fuses : v.fuses = u.fuses := (congrArg State.fuses again.rest :)
  have spl : v.spl = u.spl := (congrArg State.spl again.rest :)
  have now : v.now = s.now := ((congrArg State.now again.rest :)).trans (congrArg State.now moved.rest :)
  have here := (State.link_congr fuses spl n).trans moved.link
  have others := moved.others.trans (State.elsewhere_of fuses spl)
  have limit : v.rf Reg.SPL_CFG 3 0 = s.rf Reg.SPL_CFG 3 0 :=
    (sameRegs_rf again.regs (by simpa using (bank_ge Reg.SPL_REPLAYS n Reg.SPL_CFG (by decide)).1) 3 0).trans (State.rf_of_rg (cfg _) 3 0)
  have count : v.rf (bank Reg.SPL_REPLAYS n) 31 0 = (s.rf (bank Reg.SPL_REPLAYS n) 31 0 + (s.link n).replay.length) % 2 ^ 32 := by
    rw [again.count, State.rf_of_rg (cfg _), moved.link]
  have sent : v.outbox.length = s.outbox.length + (s.link n).replay.length := by rw [again.sent, moved.link, out]
  rw [limit, here, now]
  split
  next many =>
    have set := v.linkMoved_linkSet ((linkFitted_of_fuses (fuses.trans moved.fuses) n).trans fitted)
      (({ s.link n with resends := (s.link n).resends + 1 } : SLink).retraining s.now)
    have regs : ∀ k, (v.linkSet n (({ s.link n with resends := (s.link n).resends + 1 } : SLink).retraining s.now)).rg k = v.rg k :=
      fun k => v.rg_linkSet n k _
    have same : (v.linkSet n (({ s.link n with resends := (s.link n).resends + 1 } : SLink).retraining s.now)) = v.linkSet n
        { s.link n with resends := (s.link n).resends + 1, st := .training, trained := false, keeping := true, began := s.now,
                        limit := if (s.link n).st == .up2 then (s.link n).lanes else 15 } := by
      simp only [SLink.retraining, beq_iff_eq]
    rw [← same]
    generalize v.linkSet n _ = w at *
    have after := w.rfSet_rest (bank Reg.SPL_PEER n) 18 18 0
    have kept : (w.peerLost n).rg (bank Reg.SPL_REPLAYS n) = w.rg _ := rg_rfSet_other _ _ _ _ (bank_ne (by decide) n)
    have after : { w.peerLost n with regs := w.regs } = w := after
    generalize w.peerLost n = t at *
    have fuses' : t.fuses = w.fuses := (congrArg State.fuses after :)
    have spl' : t.spl = w.spl := (congrArg State.spl after :)
    have out' : t.outbox = v.outbox := ((congrArg State.outbox after :)).trans (congrArg State.outbox set.rest :)
    exact ⟨by rw [State.link_congr fuses' spl', set.link, if_pos many], (State.rf_of_rg (kept.trans (regs _)) 31 0).trans count,
      by rw [out', sent], others.trans (set.others.trans (State.elsewhere_of fuses' spl'))⟩
  next under => exact ⟨by rw [here, if_neg under], count, sent, others⟩

theorem exec_replayTimeout {n : Fin 64} {s : State} (up : (s.link n.val).up = true) :
    exec (.replayTimeout n) s = .next (s.resendMore n.val) := by
  have run : exec (.replayTimeout n) s = execReplayTimeout n s := rfl
  rw [run, execReplayTimeout]
  exact congrArg Host.Outcome.next (if_pos up)

/-- A link whose queue is empty, as its flits are sent once more: nothing more leaves. -/
theorem State.resentMore.queue {s t : State} {n : Nat} (h : s.resentMore t n) (queue : (s.link n).queue = []) : (t.link n).queue = [] := by
  rw [h.link]
  split <;> exact queue

theorem exec_nak {n : Fin 64} {flit : List Byte} {s : State} (up : (s.link n.val).up = true) (queue : (s.link n.val).queue = [])
    (good : flitGood flit = true) (none : (s.link n.val).replay.findIdx? (fun e => e.seq == (flitOf flit).ack) = none)
    (some : (s.link n.val).replay ≠ []) :
    ∃ u t, exec (.nak n flit) s = .next t ∧ s.linkMoved u n.val ((s.link n.val).credited (flitOf flit).crvc (flitOf flit).crcount) ∧
      u.resentMore t n.val ∧ (∀ k, u.rg k = s.rg k) := by
  have run : exec (.nak n flit) s = execNak n flit s := rfl
  rw [run, execNak]
  have moved := s.linkMoved_linkSet (linkFitted_of_up up) ((s.link n.val).credited (flitOf flit).crvc (flitOf flit).crcount)
  have more := State.resendMore_effect (s := s.linkSet n.val ((s.link n.val).credited (flitOf flit).crvc (flitOf flit).crcount))
    (n := n.val) ((linkFitted_of_fuses moved.fuses _).trans (linkFitted_of_up up)) (by rw [moved.link]; exact some)
  refine ⟨_, _, congrArg Host.Outcome.next (if_pos (by simp [up, good])), moved, ?_, fun k => s.rg_linkSet n.val k _⟩
  rw [State.ackFlits_none none, State.creditBack_eq, pump_empty _ _ (more.queue (by rw [moved.link]; exact queue))]
  exact more

/-- Settles O45: a flit in sequence is taken, acknowledged and its header's ACK and credits used; another is discarded; what is
unacknowledged is sent again. -/
theorem splineFlits : Obligations.SplineFlits := by
  unfold Obligations.SplineFlits
  intro n flit s
  dsimp only
  intro up queue
  refine ⟨fun good seq none => exec_data_inSequence up queue good seq none, fun fecBad bad => exec_data_discarded up bad,
    fun i good some plain => ?_, fun c which some => ?_⟩
  · obtain ⟨t, known, moved⟩ := exec_idleFlit_acked up queue good some plain
    exact ⟨t, known, by rw [moved.link]; rfl, by rw [moved.link]; rfl, by rw [moved.link]; rfl, by rw [moved.link]; rfl, moved.others,
      moved.rest⟩
  · rcases which with rfl | ⟨rfl, good, none⟩
    · have more := State.resendMore_effect (linkFitted_of_up up) some
      refine ⟨_, exec_replayTimeout up, ?_, more.count, more.sent, more.others⟩
      rw [more.link, if_pos rfl]
      rfl
    · obtain ⟨u, t, known, moved, more, regs⟩ := exec_nak up queue good none some
      have out : u.outbox = s.outbox := (congrArg State.outbox moved.rest :)
      have now : u.now = s.now := (congrArg State.now moved.rest :)
      have link := more.link
      have count := more.count
      have sent := more.sent
      rw [moved.link, now, State.rf_of_rg (regs _)] at link
      rw [moved.link, State.rf_of_rg (regs _)] at count
      rw [moved.link, out] at sent
      refine ⟨t, known, ?_, count, sent, moved.others.trans more.others⟩
      rw [link]
      simp only [reduceCtorEq, if_false]
      rfl

end Sys2Proof.Machine

/-! # A message handed to a link (R344, R346) -/

namespace Sys2Proof.Machine

/-! ## One message in one flit -/

theorem length_toBytes (kind : Nat) (r : Msg) : (r.toBytes kind).length = msgBytes r := by
  simp only [Msg.toBytes, msgBytes, List.length_append, length_leBytes, List.length_replicate]
  omega

theorem vcOf_lt (kind : Nat) : vcOf kind < 4 := by
  unfold vcOf
  split <;> decide

theorem streamOf_one (kind : Nat) (r : Msg) : streamOf [(kind, r)] = (r.toBytes kind, [0]) := rfl

theorem streamFlit_one {bs : List Byte} (short : bs.length ≤ 244) : streamFlit bs [0] 0 = (0, bs) := by
  have whole : bs.take 244 = bs := List.take_of_length_le short
  simp [streamFlit, whole]

theorem SLink.fits_one {x : SLink} {kind : Nat} {r : Msg} (short : msgBytes r ≤ 244) (credit : mget x.used (vcOf kind) 0 < vcBuf (vcOf kind))
    (room : x.replay.length < 2048) : x.fits (vcOf kind) [(kind, r)] = [(kind, r)] := by
  have space : (msgBytes r + 243) / 244 ≤ min (vcBuf (vcOf kind) - mget x.used (vcOf kind) 0) (2048 - x.replay.length) := by omega
  have alone : (0 + msgBytes r + 243) / 244 ≤ min (vcBuf (vcOf kind) - mget x.used (vcOf kind) 0) (2048 - x.replay.length) := by
    rw [Nat.zero_add]
    exact space
  unfold SLink.fits
  dsimp only [List.foldl_cons, List.foldl_nil]
  rw [if_pos (by rw [decide_eq_true alone]; rfl)]
  rfl

/-- A link's record behind a message that has left in one flit. -/
def SLink.oneLeft (x : SLink) (kind : Nat) (r : Msg) : SLink :=
  { x with
    txSeq := (x.txSeq + 1) % 4096, used := mset x.used (vcOf kind) (mget x.used (vcOf kind) 0 + 1) 0,
    replay := x.replay ++ [⟨x.txSeq % 4096, vcOf kind, 0, r.toBytes kind⟩], held := x.held ++ [(kind, x.txSeq % 4096, r)] }

section
variable {s : State} {n kind : Nat} {r : Msg} (queue : (s.link n).queue = [(kind, r)])
include queue

theorem State.pumpVc_other {vc : Nat} (other : vcOf kind ≠ vc) : s.pumpVc n vc = s := by
  have none : (s.link n).queue.filter (fun e => vcOf e.1 == vc) = [] := by
    rw [queue]
    simp [other]
  unfold State.pumpVc
  dsimp only
  rw [none, fits_nil]
  rfl

/-- The flit that a message of one flit leaves in. -/
def oneFlit (x : SLink) (kind : Nat) (r : Msg) : Flit :=
  { kind := 1, vc := vcOf kind, seq := x.txSeq % 4096, first := 0, body := r.toBytes kind }

theorem State.pumpVc_one (short : msgBytes r ≤ 244) (credit : mget (s.link n).used (vcOf kind) 0 < vcBuf (vcOf kind))
    (room : (s.link n).replay.length < 2048) :
    s.pumpVc n (vcOf kind) = ((s.linkSet n { (s.link n).oneLeft kind r with queue := [] }).sendFlit n (oneFlit (s.link n) kind r)).rAdd64
      (bank Reg.SPL_TXBYTES n) (msgBytes r) := by
  have mine : (s.link n).queue.filter (fun e => vcOf e.1 == vcOf kind) = [(kind, r)] := by
    rw [queue]
    simp
  have others : (s.link n).queue.filter (fun e => vcOf e.1 != vcOf kind) = [] := by
    rw [queue]
    simp
  have long := length_toBytes kind r
  have bytes : 32 ≤ msgBytes r := Nat.le_add_right _ _
  have one : (msgBytes r + 243) / 244 = 1 := by omega
  have last : (msgBytes r - 1) / 244 = 0 := by omega
  unfold State.pumpVc
  dsimp only
  rw [mine, others, SLink.fits_one short credit room, streamOf_one]
  simp only [List.isEmpty_cons, Bool.false_eq_true, if_false, one, List.length_cons, List.length_nil, Nat.zero_add, List.range_one,
    List.map_cons, List.map_nil, List.foldl_cons, List.foldl_nil, streamFlit_one (long.trans_le short), List.getD_cons_succ,
    List.getD_nil, last, Nat.add_zero, List.zip_cons_cons, List.zip_nil_left, List.drop_succ_cons, List.drop_nil, List.append_nil, long]
  rfl

end

theorem State.pump_up {s : State} {n : Nat} (up : (s.link n).up = true) : s.pump n = (List.range 4).foldl (fun u vc => u.pumpVc n vc) s :=
  if_pos up

/-- Of the virtual channels, one has a message that takes it to a state in which nothing waits. -/
theorem State.pumpAll_once {s u : State} {n vc : Nat} {l : List Nat} (others : ∀ k ∈ l, k ≠ vc → s.pumpVc n k = s) (mem : vc ∈ l)
    (sends : s.pumpVc n vc = u) (done : (u.link n).queue = []) : l.foldl (fun u vc => u.pumpVc n vc) s = u := by
  induction l with
  | nil => simp at mem
  | cons k l ih =>
    rw [List.foldl_cons]
    by_cases here : k = vc
    · rw [here, sends]
      exact foldl_idle fun k _ => pumpVc_empty u n k done
    · rw [others k List.mem_cons_self here]
      exact ih (fun j member => others j (List.mem_cons_of_mem _ member)) ((List.mem_cons.mp mem).resolve_left (Ne.symm here))

/-- The flit with the ACK in force that a link's message leaves in. -/
def SLink.oneSent (x : SLink) (kind : Nat) (r : Msg) : Flit :=
  { kind := 1, vc := vcOf kind, seq := x.txSeq % 4096, ack := x.lastRx, first := 0, body := r.toBytes kind }

theorem SLink.lastRx_congr {x y : SLink} (h : x.rxSeq = y.rxSeq) : x.lastRx = y.lastRx := by rw [SLink.lastRx, h, SLink.lastRx]

theorem SLink.oneSent_eq (x : SLink) (kind : Nat) (r : Msg) :
    ({ oneFlit x kind r with ack := (x.oneLeft kind r).lastRx } : Flit) = x.oneSent kind r := by
  rw [SLink.lastRx_congr (x := x.oneLeft kind r) (y := x) rfl]
  rfl

theorem State.sendFlit_effect (s : State) (n : Nat) (f : Flit) :
    (s.sendFlit n f).outbox = .flit n { f with ack := (s.link n).lastRx }.toBytes :: s.outbox ∧ (s.sendFlit n f).link n = s.link n :=
  ⟨rfl, State.link_congr rfl rfl n⟩

theorem State.rAdd64_kept (s : State) (k n j : Nat) : (s.rAdd64 k n).outbox = s.outbox ∧ (s.rAdd64 k n).link j = s.link j := by
  have rest := s.rAdd64_rest k n
  generalize s.rAdd64 k n = t at *
  exact ⟨(congrArg State.outbox rest :), State.link_congr (congrArg State.fuses rest :) (congrArg State.spl rest :) j⟩

/-- What a message that leaves in one flit makes of the link on which it alone waits. -/
theorem State.pumpVc_one_effect {s : State} {n kind : Nat} {r : Msg} (fitted : linkFitted s n = true) (queue : (s.link n).queue = [(kind, r)])
    (short : msgBytes r ≤ 244) (credit : mget (s.link n).used (vcOf kind) 0 < vcBuf (vcOf kind)) (room : (s.link n).replay.length < 2048) :
    (s.pumpVc n (vcOf kind)).outbox = .flit n ((s.link n).oneSent kind r).toBytes :: s.outbox ∧
    (s.pumpVc n (vcOf kind)).link n = { (s.link n).oneLeft kind r with queue := [] } := by
  rw [State.pumpVc_one queue short credit room]
  have set := s.linkMoved_linkSet fitted { (s.link n).oneLeft kind r with queue := [] }
  have out := s.linkSet_outbox n { (s.link n).oneLeft kind r with queue := [] }
  have ack : SLink.lastRx { (s.link n).oneLeft kind r with queue := [] } = ((s.link n).oneLeft kind r).lastRx := SLink.lastRx_congr rfl
  generalize s.linkSet n { (s.link n).oneLeft kind r with queue := [] } = u at *
  obtain ⟨sent, link⟩ := u.sendFlit_effect n (oneFlit (s.link n) kind r)
  rw [set.link, ack, SLink.oneSent_eq, out] at sent
  rw [set.link] at link
  generalize u.sendFlit n (oneFlit (s.link n) kind r) = v at *
  obtain ⟨out', link'⟩ := v.rAdd64_kept (bank Reg.SPL_TXBYTES n) (msgBytes r) n
  exact ⟨out'.trans sent, link'.trans link⟩

theorem State.post_eq (s : State) (k kind : Nat) (r : Msg) :
    s.post k kind r = (s.linkSet k { s.link k with queue := (s.link k).queue ++ [(kind, r)] }).pump k := rfl

/-- A message of one flit leaves a link in service on which nothing waits. -/
theorem State.post_one {s : State} {k kind : Nat} {r : Msg} (up : (s.link k).up = true) (queue : (s.link k).queue = [])
    (short : msgBytes r ≤ 244) (credit : mget (s.link k).used (vcOf kind) 0 < vcBuf (vcOf kind)) (room : (s.link k).replay.length < 2048) :
    (s.post k kind r).outbox = .flit k ((s.link k).oneSent kind r).toBytes :: s.outbox ∧
    (s.post k kind r).link k = (s.link k).oneLeft kind r := by
  have fitted := linkFitted_of_up up
  have moved := s.linkMoved_linkSet fitted { s.link k with queue := (s.link k).queue ++ [(kind, r)] }
  have out := s.linkSet_outbox k { s.link k with queue := (s.link k).queue ++ [(kind, r)] }
  rw [State.post_eq]
  generalize s.linkSet k { s.link k with queue := (s.link k).queue ++ [(kind, r)] } = u at *
  rw [queue, List.nil_append] at moved
  have link := moved.link
  have fitted' := (linkFitted_of_fuses moved.fuses k).trans fitted
  have sent : SLink.oneSent { s.link k with queue := [(kind, r)] } kind r = (s.link k).oneSent kind r := by
    unfold SLink.oneSent
    rw [SLink.lastRx_congr (x := { s.link k with queue := [(kind, r)] }) (y := s.link k) rfl]
  have left : ({ SLink.oneLeft { s.link k with queue := [(kind, r)] } kind r with queue := [] } : SLink) = (s.link k).oneLeft kind r := by
    simp only [SLink.oneLeft, ← queue]
  generalize s.link k = z at *
  have waits : (u.link k).queue = [(kind, r)] := by rw [link]
  have effect := State.pumpVc_one_effect fitted' waits short (by rw [link]; exact credit) (by rw [link]; exact room)
  rw [link, sent, left, out] at effect
  rw [State.pump_up (by rw [link]; exact up), State.pumpAll_once (fun _ _ other => State.pumpVc_other waits (Ne.symm other))
    (List.mem_range.mpr (vcOf_lt kind)) rfl (by rw [effect.2]; exact queue)]
  exact effect

theorem messageLeaves_holds (s : State) (k kind : Nat) (r : Msg) : messageLeaves s k kind r := by
  unfold messageLeaves
  intro z up queue short credit room
  exact State.post_one up queue short credit room

end Sys2Proof.Machine

/-! # What sending on links leaves alone (R343, R344, R354, R358) -/

namespace Sys2Proof.Machine

/-- A state that differs in the registers, the log, the links and what has left only. -/
def State.sendsOnly (s t : State) : Prop :=
  { t with
    regs := s.regs, setAt := s.setAt, log := s.log, outbox := s.outbox, free := s.free
    spl := { t.spl with links := s.spl.links, noRouteAt := s.spl.noRouteAt } } = s

section
variable {s t u : State}

theorem State.sendsOnly_rfl (s : State) : s.sendsOnly s := rfl

theorem State.sendsOnly.trans (h : s.sendsOnly t) (k : t.sendsOnly u) : s.sendsOnly u :=
  ((congrArg (fun v : State => { v with
    regs := s.regs, setAt := s.setAt, log := s.log, spl := { v.spl with links := s.spl.links, noRouteAt := s.spl.noRouteAt }, outbox := s.outbox, free := s.free }) k :)).trans h

theorem State.sendsOnly_of_sameButLog (h : s.sameButLog t) : s.sendsOnly t :=
  (congrArg (fun v : State => { v with spl := { v.spl with links := s.spl.links, noRouteAt := s.spl.noRouteAt }, outbox := s.outbox, free := s.free }) h :)

theorem State.sendsOnly_of_regs (h : { t with regs := s.regs } = s) : s.sendsOnly t :=
  (congrArg (fun v : State => { v with setAt := s.setAt, log := s.log, spl := { v.spl with links := s.spl.links, noRouteAt := s.spl.noRouteAt }, outbox := s.outbox, free := s.free }) h :)

theorem State.sendsOnly_of_outbox (h : { t with outbox := s.outbox } = s) : s.sendsOnly t :=
  (congrArg (fun v : State => { v with regs := s.regs, setAt := s.setAt, log := s.log, spl := { v.spl with links := s.spl.links, noRouteAt := s.spl.noRouteAt }, free := s.free }) h :)

end

section
variable {s t : State} (h : s.sendsOnly t)
include h
theorem State.sendsOnly.hbm : t.hbm = s.hbm := (congrArg State.hbm h :)
theorem State.sendsOnly.lin : t.lin = s.lin := (congrArg State.lin h :)
theorem State.sendsOnly.ptn : t.ptn = s.ptn := (congrArg State.ptn h :)
theorem State.sendsOnly.brup : t.brup = s.brup := (congrArg State.brup h :)
theorem State.sendsOnly.fuses : t.fuses = s.fuses := (congrArg State.fuses h :)
theorem State.sendsOnly.groups : t.groups = s.groups := (congrArg State.groups h :)
theorem State.sendsOnly.jig : t.jig = s.jig := (congrArg State.jig h :)
theorem State.sendsOnly.host : t.host = s.host := (congrArg State.host h :)
theorem State.sendsOnly.parts : t.parts = s.parts := (congrArg State.parts h :)
theorem State.sendsOnly.out : t.spl.out = s.spl.out := (congrArg (fun v : State => v.spl.out) h :)
theorem State.sendsOnly.now : t.now = s.now := (congrArg State.now h :)
end

section
variable (s : State)

theorem State.linkSet_sendsOnly (n : Nat) (x : SLink) : s.sendsOnly (s.linkSet n x) := rfl

theorem State.rAdd64_sendsOnly (k n : Nat) : s.sendsOnly (s.rAdd64 k n) := State.sendsOnly_of_regs (s.rAdd64_rest k n)

theorem State.rAdd_sendsOnly (k hi lo n : Nat) : s.sendsOnly (s.rAdd k hi lo n) := State.sendsOnly_of_regs (s.rfSet_rest k hi lo _)

theorem State.rfSet_sendsOnly (k hi lo n : Nat) : s.sendsOnly (s.rfSet k hi lo n) := State.sendsOnly_of_regs (s.rfSet_rest k hi lo _)

theorem State.discardMsg_sendsOnly : s.sendsOnly s.discardMsg := s.rAdd_sendsOnly ..

theorem State.pumpVc_sendsOnly (n vc : Nat) : s.sendsOnly (s.pumpVc n vc) := by
  unfold State.pumpVc
  dsimp only
  split
  · exact s.sendsOnly_rfl
  · generalize SLink.mk .. = x
    generalize List.map _ (List.range _) = flits
    have set := s.linkSet_sendsOnly n x
    generalize s.linkSet n x = u at *
    have sent := (State.sendFlits_effect n (fun f : TxFlit => { kind := 1, vc := vc, seq := f.seq, first := f.first, body := f.body }) flits u).1
    generalize flits.foldl _ u = v at *
    exact (set.trans (State.sendsOnly_of_outbox sent)).trans (v.rAdd64_sendsOnly _ _)

theorem State.pump_sendsOnly (n : Nat) : s.sendsOnly (s.pump n) := by
  unfold State.pump
  split
  · exact foldl_related State.sendsOnly_rfl (fun h k => h.trans k) (fun u vc => u.pumpVc_sendsOnly n vc) _ s
  · exact s.sendsOnly_rfl

theorem State.post_sendsOnly (n kind : Nat) (m : Msg) : s.sendsOnly (s.post n kind m) :=
  (s.linkSet_sendsOnly n _).trans (State.pump_sendsOnly _ n)

theorem State.choose_sendsOnly {xs : List Nat} {n : Nat} {t : State} (h : s.choose xs = some (n, t)) : s.sendsOnly t := by
  unfold State.choose at h
  split at h
  · cases h
  · cases h
    exact s.sendsOnly_rfl
  · cases h
    rfl

theorem State.carry_sendsOnly (a b cls bytes : Nat) : s.sendsOnly (s.carry a b cls bytes).2 := by
  unfold State.carry
  split
  · obtain ⟨r, eq, -⟩ := carryOver_regs (if s.brup.outDies.isEmpty then s.tableFront a b 11 else []) cls bytes s
    dsimp only
    rw [eq]
    have regs : s.sendsOnly { s with regs := r } := rfl
    exact regs.trans (State.sendsOnly_of_sameButLog (State.evSet_sameButLog _ _ _))
  next r _ =>
    obtain ⟨r, eq, -⟩ := carryOver_regs r cls bytes s
    dsimp only
    rw [eq]
    rfl

/-- The record of a message that finds no way, at most one in a millisecond at a die. -/
theorem State.noRoute_sendsOnly (die dst : Nat) (part : Option Nat) : s.sendsOnly (s.noRoute die dst part) := by
  unfold State.noRoute
  dsimp only
  have counted := (s.rAdd_sendsOnly Reg.SPL_NOROUTE 15 0 1).trans (State.rfSet_sendsOnly _ Reg.SPL_NOROUTE 27 16 dst)
  generalize (s.rAdd Reg.SPL_NOROUTE 15 0 1).rfSet Reg.SPL_NOROUTE 27 16 dst = u at *
  have noted := State.sendsOnly_of_sameButLog (State.sameButLog_trans (u.evSet_sameButLog Reg.SPL_EVT 2)
    (State.raise_high_sameButLog _ (src := 139) (by decide)))
  generalize (u.evSet Reg.SPL_EVT 2).raise 139 = v at *
  have both := counted.trans noted
  have marked : v.sendsOnly { v with spl := { v.spl with noRouteAt := mput v.spl.noRouteAt die v.now } } := rfl
  have logged := (both.trans marked).trans (State.sendsOnly_of_sameButLog (State.err_sameButLog _ eLinkDown (unitId 8 (0x100 + die)) part 0 0))
  split
  · exact logged
  · split
    · exact logged
    · exact both

theorem State.leave_sendsOnly (die : Nat) (own : Option Nat) (kind : Nat) (m : Msg) : s.sendsOnly (s.leave die own kind m).2 := by
  unfold State.leave
  split
  · exact s.sendsOnly_rfl
  next n t chosen =>
    have h := s.choose_sendsOnly chosen
    have carried := t.carry_sendsOnly (6 + die) (6 + n / 16) (classOf kind) m.payload.length
    dsimp only
    generalize t.carry (6 + die) (6 + n / 16) (classOf kind) m.payload.length = r at *
    obtain ⟨ok, u⟩ := r
    cases ok
    · exact h.trans carried
    · exact (h.trans carried).trans (u.post_sendsOnly n kind m)

theorem State.respond_sendsOnly (die code : Nat) (data : List Byte) (m : Msg) : s.sendsOnly (s.respond die code data m) := by
  unfold State.respond
  dsimp only
  generalize Msg.mk .. = r
  have left := s.leave_sendsOnly die none 3 r
  generalize s.leave die none 3 r = w at *
  obtain ⟨ok, u⟩ := w
  cases ok
  · exact (left.trans (u.noRoute_sendsOnly ..)).trans (State.discardMsg_sendsOnly _)
  · exact left

end

theorem State.sendFlit_sendsOnly (s : State) (n : Nat) (f : Flit) : s.sendsOnly (s.sendFlit n f) := State.sendsOnly_of_outbox rfl

theorem State.sendAck_sendsOnly (s : State) (n : Nat) : s.sendsOnly (s.sendAck n) := by
  unfold State.sendAck
  dsimp only
  split
  · exact s.sendsOnly_rfl
  · split
    · exact s.sendFlit_sendsOnly n _
    · have set := s.linkSet_sendsOnly n { s.link n with owed := [] }
      generalize s.linkSet n { s.link n with owed := [] } = u at *
      generalize creditParts (s.link n).owed = parts
      refine set.trans (foldl_related (R := State.sendsOnly) State.sendsOnly_rfl State.sendsOnly.trans ?_ parts u)
      exact fun v e => v.sendFlit_sendsOnly n _

end Sys2Proof.Machine

/-! # Messages received (R346 to R351, R353, R356, R359) -/

namespace Sys2Proof.Machine

/-! ## A message taken from its buffer -/

theorem State.sendAck_regs (s : State) (n : Nat) : (s.sendAck n).regs = s.regs := by
  by_cases up : (s.link n).up = true
  · have rest := (State.sendAck_effect up).rest
    generalize s.sendAck n = t at *
    exact (congrArg State.regs rest :)
  · have same : s.sendAck n = s := if_pos (by simp [up])
    rw [same]

/-- The state in which the effects of a message begin: its buffer is read, and its credits have gone back. -/
def State.msgTaken (s : State) (n kind : Nat) (m : Msg) (y : SLink) : State :=
  ((({ s.splineUrge n (vcOf kind) with lin := s.lin.calm } : State).linkSet n y).sendAck n).rAdd64 (bank Reg.SPL_RXBYTES n) (msgBytes m)

/-- What a message taken leaves where it was. -/
structure State.tookMsg (s w : State) : Prop where
  hbm : w.hbm = s.hbm
  lin : w.lin = s.lin.calm
  ptn : w.ptn = s.ptn
  brup : w.brup = s.brup
  groups : w.groups = s.groups
  jig : w.jig = s.jig
  host : w.host = s.host
  parts : w.parts = s.parts
  spl : w.spl.out = s.spl.out
  far : w.spl.far = s.spl.far
  rg : ∀ k, k < 2 ^ 28 → w.rg k = s.rg k

theorem State.sendsOnly.far {s t : State} (h : s.sendsOnly t) : t.spl.far = s.spl.far := (congrArg (fun v : State => v.spl.far) h :)

theorem State.msgTaken_took (s : State) (n kind : Nat) (m : Msg) (y : SLink) : s.tookMsg (s.msgTaken n kind m y) := by
  unfold State.msgTaken
  have start : ∀ v : State, v = { s.splineUrge n (vcOf kind) with lin := s.lin.calm } → v.hbm = s.hbm ∧ v.lin = s.lin.calm ∧ v.ptn = s.ptn ∧
      v.brup = s.brup ∧ v.groups = s.groups ∧ v.jig = s.jig ∧ v.host = s.host ∧ v.parts = s.parts ∧ v.spl = s.spl ∧ v.regs = s.regs := by
    rintro v rfl
    exact ⟨rfl, rfl, rfl, rfl, rfl, rfl, rfl, rfl, rfl, rfl⟩
  have from_ := start _ rfl
  generalize ({ s.splineUrge n (vcOf kind) with lin := s.lin.calm } : State) = v at *
  have moved := ((v.linkSet_sendsOnly n y).trans (State.sendAck_sendsOnly _ n)).trans
    (State.rAdd64_sendsOnly _ (bank Reg.SPL_RXBYTES n) (msgBytes m))
  have same : ((v.linkSet n y).sendAck n).regs = v.regs := State.sendAck_regs _ n
  have regs : ∀ k, k < 2 ^ 28 → (((v.linkSet n y).sendAck n).rAdd64 (bank Reg.SPL_RXBYTES n) (msgBytes m)).rg k = v.rg k := fun k low =>
    (rg_rg64Set_other _ _ (bank_ge _ _ _ low).1 (bank_ge _ _ _ low).2).trans (rg_of_regs same k)
  generalize ((v.linkSet n y).sendAck n).rAdd64 (bank Reg.SPL_RXBYTES n) (msgBytes m) = w at *
  obtain ⟨hbm, lin, ptn, brup, groups, jig, host, parts, spl, regs'⟩ := from_
  exact ⟨moved.hbm.trans hbm, moved.lin.trans lin, moved.ptn.trans ptn, moved.brup.trans brup, moved.groups.trans groups, moved.jig.trans jig,
    moved.host.trans host, moved.parts.trans parts, moved.out.trans (congrArg Spl.out spl), moved.far.trans (congrArg Spl.far spl),
    fun k low => (regs k low).trans (rg_of_regs regs' k)⟩

theorem State.moduleId_congr {s t : State} (h : t.ptn = s.ptn) : t.moduleId = s.moduleId := by rw [State.moduleId, h, State.moduleId]

/-- What is done with a message once it is taken. -/
def State.msgDone (w : State) (n kind : Nat) (m : Msg) (body : Msg → State → State) : State :=
  if m.dst.toNat ≠ w.moduleId then w.forward (n / 16) kind m else if w.moduleId = 0xFFF then w else body m w

section
variable {s : State} {n kind : Nat} {m : Msg} {y : SLink} {body : Msg → State → State}
  (taken : (s.link n).next (vcOf kind) = some (kind, m, y))
include taken

theorem State.received_taken (free : ((s.msgTaken n kind m y).msgDone n kind m body).lin.stuck = none) :
    s.received n kind body = ((s.msgTaken n kind m y).msgDone n kind m body).farUsed := by
  have here : (s.splineUrge n (vcOf kind)).link n = s.link n := State.link_congr rfl rfl n
  have read : s.received n kind body = (s.splineUrge n (vcOf kind)).together (fun u =>
      (((u.linkSet n y).sendAck n).rAdd64 (bank Reg.SPL_RXBYTES n) (msgBytes m)).msgDone n kind m body) := by
    unfold State.received
    dsimp only
    rw [here, taken]
    exact if_neg (by simp)
  rw [read]
  exact State.together_free' (s := s.splineUrge n (vcOf kind)) (f := fun u =>
      (((u.linkSet n y).sendAck n).rAdd64 (bank Reg.SPL_RXBYTES n) (msgBytes m)).msgDone n kind m body) free

theorem State.received_here (dst : m.dst.toNat = s.moduleId) (id : s.moduleId ≠ 0xFFF)
    (free : (body m (s.msgTaken n kind m y)).lin.stuck = none) : s.received n kind body = (body m (s.msgTaken n kind m y)).farUsed := by
  have same := State.moduleId_congr (s.msgTaken_took n kind m y).ptn
  have done : (s.msgTaken n kind m y).msgDone n kind m body = body m (s.msgTaken n kind m y) := by
    rw [State.msgDone, same, if_neg (by simp [dst]), if_neg id]
  rw [State.received_taken taken (by rw [done]; exact free), done]

theorem State.received_away (dst : m.dst.toNat ≠ s.moduleId) (free : ((s.msgTaken n kind m y).forward (n / 16) kind m).lin.stuck = none) :
    s.received n kind body = ((s.msgTaken n kind m y).forward (n / 16) kind m).farUsed := by
  have same := State.moduleId_congr (s.msgTaken_took n kind m y).ptn
  have done : (s.msgTaken n kind m y).msgDone n kind m body = (s.msgTaken n kind m y).forward (n / 16) kind m := by
    rw [State.msgDone, same, if_pos dst]
  rw [State.received_taken taken (by rw [done]; exact free), done]

end

/-! ## Messages that leave for another module -/

/-- A message has been put on link `k` from `w` on. -/
def postedOn (w t : State) (k kind : Nat) (r : Msg) : Prop :=
  t.outbox = (w.post k kind r).outbox ∧ t.link k = (w.post k kind r).link k

theorem State.leave_one {w : State} {d k kind : Nat} {own : Option Nat} {m : Msg} (exit : w.exits own m.dst.toNat = [k]) (die : k / 16 = d)
    (whole : w.brup.outDies = []) : w.leave d own kind m = (true, w.post k kind m) := by
  unfold State.leave
  rw [exit]
  simp only [State.choose, die, carry_same w _ _ _ whole, if_true]

theorem State.link_farUsed (s : State) (n : Nat) : s.farUsed.link n = s.link n := by
  have fuses : s.farUsed.fuses = s.fuses := rfl
  have links : s.farUsed.spl.links = s.spl.links := rfl
  rw [State.link, linkFitted_of_fuses fuses, links, State.link]

/-- The answer to a request (R348). -/
def respMsg (w : State) (code : Nat) (data : List Byte) (m : Msg) : Msg :=
  { hops := BitVec.ofNat 6 w.ptn.running.hopLimit, dst := m.src, src := BitVec.ofNat 12 w.moduleId,
    part := m.srcPart, srcPart := m.srcPart, tag := m.tag, arg := BitVec.ofNat 64 code, epoch := m.epoch,
    payload := if code = 0 then data else [] }

theorem State.respond_one {w : State} {d k code : Nat} {data : List Byte} {m : Msg} (exit : w.exits none m.src.toNat = [k]) (die : k / 16 = d)
    (whole : w.brup.outDies = []) : w.respond d code data m = w.post k 3 (respMsg w code data m) := by
  have left := State.leave_one (w := w) (kind := 3) (own := none) (m := respMsg w code data m) exit die whole
  unfold respMsg at left ⊢
  unfold State.respond
  dsimp only
  rw [left]

/-- What an answer makes of the state in which a request was performed. -/
theorem State.respond_answers (w : State) (d code : Nat) (data : List Byte) (m : Msg) : let t := (w.respond d code data m).farUsed
    t.hbm = w.hbm ∧ t.lin = w.lin ∧ ∀ k, w.exits none m.src.toNat = [k] → k / 16 = d → w.brup.outDies = [] →
      ∃ r, postedOn w t k 3 r ∧ r.dst = m.src ∧ r.tag = m.tag ∧
        r.epoch = m.epoch ∧ r.srcPart = m.srcPart ∧ r.arg = BitVec.ofNat 64 code ∧ r.payload = if code = 0 then data else [] := by
  have sent := w.respond_sendsOnly d code data m
  refine ⟨sent.hbm, sent.lin, fun k exit die whole => ⟨respMsg w code data m, ⟨?_, ?_⟩, rfl, rfl, rfl, rfl, rfl, rfl⟩⟩
  · rw [State.respond_one exit die whole]
    rfl
  · rw [State.respond_one exit die whole, State.link_farUsed]

/-! ## Requests for this module (R353) -/

section
variable {w : State} {n kind a : Nat} {m : Msg}

theorem State.request_opened (open' : w.exposed m (requestSpan kind m).2 (requestSpan kind m).1 = (0, a)) :
    w.request n kind m = (w.requestHere (n / 16) kind a m).2.2.respond (n / 16) (w.requestHere (n / 16) kind a m).1
      (w.requestHere (n / 16) kind a m).2.1 m := by
  unfold State.request
  dsimp only
  rw [open']
  exact if_neg (by simp)

theorem State.request_refused {code : Nat} (shut : w.exposed m (requestSpan kind m).2 (requestSpan kind m).1 = (code, a)) (fails : code ≠ 0) :
    w.request n kind m = w.respond (n / 16) code [] m := by
  unfold State.request
  dsimp only
  rw [shut]
  exact if_pos fails

end

/-- A request that is performed from `w` on is taken, performed and answered, as `answers` says of what its body leaves. -/
theorem State.received_answers {s : State} {n kind : Nat} {m : Msg} {y : SLink} (taken : (s.link n).next (vcOf kind) = some (kind, m, y))
    (here : m.dst.toNat = s.moduleId ∧ s.moduleId ≠ 0xFFF) {u : State} {code : Nat} {data : List Byte}
    (does : (s.msgTaken n kind m y).request n kind m = u.respond (n / 16) code data m) (free : u.lin.stuck = none) :
    s.received n kind (fun m s => s.request n kind m) = (u.respond (n / 16) code data m).farUsed := by
  have kept := (u.respond_sendsOnly (n / 16) code data m).lin
  rw [State.received_here taken here.1 here.2 (by rw [does, kept]; exact free), does]

/-! ## Messages for another module (R354, R356) -/

theorem State.pumpVc_rg (s : State) (n vc : Nat) {k : Nat} (low : k < 2 ^ 28) : (s.pumpVc n vc).rg k = s.rg k := by
  unfold State.pumpVc
  dsimp only
  split
  · rfl
  · generalize SLink.mk .. = x
    generalize List.map _ (List.range _) = flits
    have set : (s.linkSet n x).regs = s.regs := rfl
    generalize s.linkSet n x = u at *
    have sent := (State.sendFlits_effect n (fun f : TxFlit => { kind := 1, vc := vc, seq := f.seq, first := f.first, body := f.body }) flits u).1
    generalize flits.foldl _ u = v at *
    have same : v.regs = s.regs := ((congrArg State.regs sent :)).trans set
    exact (rg_rg64Set_other _ _ (bank_ge _ _ _ low).1 (bank_ge _ _ _ low).2).trans (rg_of_regs same k)

theorem State.post_rg (s : State) (n kind : Nat) (m : Msg) {k : Nat} (low : k < 2 ^ 28) : (s.post n kind m).rg k = s.rg k := by
  have set : (s.linkSet n { s.link n with queue := (s.link n).queue ++ [(kind, m)] }).regs = s.regs := rfl
  rw [State.post_eq]
  generalize s.linkSet n { s.link n with queue := (s.link n).queue ++ [(kind, m)] } = u at *
  unfold State.pump
  split
  · exact (foldl_keeps (fun v : State => v.rg k) _ (fun v vc => v.pumpVc_rg n vc low) _ u).trans (rg_of_regs set k)
  · exact rg_of_regs set k

theorem State.forward_one {w : State} {d k kind : Nat} {m : Msg} (hops : m.hops ≠ 0) (exit : w.exits none m.dst.toNat = [k]) (die : k / 16 = d)
    (whole : w.brup.outDies = []) :
    w.forward d kind m = (w.post k kind { m with hops := m.hops - 1 }).rAdd Reg.SPL_FORWARDED 31 0 1 := by
  have left := State.leave_one (w := w) (kind := kind) (own := none) (m := { m with hops := m.hops - 1 }) exit die whole
  unfold State.forward
  dsimp only
  rw [if_neg hops, left]

theorem State.received_forwarded {s : State} {n kind k : Nat} {m : Msg} {y : SLink} {body : Msg → State → State}
    (taken : (s.link n).next (vcOf kind) = some (kind, m, y)) (dst : m.dst.toNat ≠ s.moduleId) (hops : m.hops ≠ 0)
    (exit : (s.msgTaken n kind m y).exits none m.dst.toNat = [k]) (die : k / 16 = n / 16) (whole : s.brup.outDies = []) :
    let t := s.received n kind body
    postedOn (s.msgTaken n kind m y) t k kind { m with hops := m.hops - 1 } ∧ t.hbm = s.hbm ∧ t.lin = s.lin.calm ∧
      t.spl.out = s.spl.out ∧ t.rf Reg.SPL_FORWARDED 31 0 = (s.rf Reg.SPL_FORWARDED 31 0 + 1) % 2 ^ 32 := by
  have took := s.msgTaken_took n kind m y
  have goes := State.forward_one (kind := kind) (m := m) (w := s.msgTaken n kind m y) hops exit die (by rw [took.brup]; exact whole)
  have read := State.received_away (body := body) taken dst
  generalize s.msgTaken n kind m y = w at *
  have sent := w.post_sendsOnly k kind { m with hops := m.hops - 1 }
  have low : (w.post k kind { m with hops := m.hops - 1 }).rg Reg.SPL_FORWARDED = s.rg Reg.SPL_FORWARDED :=
    (w.post_rg k kind _ (by decide)).trans (took.rg _ (by decide))
  unfold postedOn
  generalize w.post k kind { m with hops := m.hops - 1 } = u at *
  have counted := rf_rAdd_same u Reg.SPL_FORWARDED 31 0 1 (by decide) (by decide)
  have rest := u.rfSet_rest Reg.SPL_FORWARDED 31 0 (u.rf Reg.SPL_FORWARDED 31 0 + 1)
  have rest : { u.rAdd Reg.SPL_FORWARDED 31 0 1 with regs := u.regs } = u := rest
  generalize u.rAdd Reg.SPL_FORWARDED 31 0 1 = v at *
  rw [goes] at read
  have kept : v.lin = s.lin.calm := ((congrArg State.lin rest :)).trans (sent.lin.trans took.lin)
  have read := read (by rw [kept]; rfl)
  intro t
  have is : t = v.farUsed := read
  rw [is]
  refine ⟨⟨(congrArg State.outbox rest :), ?_⟩, ((congrArg State.hbm rest :)).trans (sent.hbm.trans took.hbm), kept,
    ((congrArg (fun x : State => x.spl.out) rest :)).trans (sent.out.trans took.spl), ?_⟩
  · rw [State.link_farUsed]
    exact State.link_congr (congrArg State.fuses rest :) (congrArg State.spl rest :) k
  · rw [State.rf_of_rg low] at counted
    exact counted

end Sys2Proof.Machine

/-! # READ_RESP, TICKMARK and requests without an answer (R348, R351, R359, R464) -/

namespace Sys2Proof.Machine

/-! ## A host read that its last answer completes -/

/-- The one read of a port that waits for entry `key`. -/
structure State.hostReads (s : State) (port key : Nat) (q : HostOp) (a k : Nat) : Prop where
  ops : (s.port port).ops = [q]
  remote : q.remote = some key
  read : q.write = false
  sound : q.poison = false
  todo : q.todo = [(a, k, [])]

theorem State.hostPump_empty {s : State} {port : Nat} (none : (s.port port).ops = []) : s.hostPump port = s := by
  rw [State.hostPump, State.hostWork, none]
  rfl

theorem State.portOps_port (s : State) (port : Nat) (ops : List HostOp) : (s.portOps port ops).port port = { s.port port with ops := ops } :=
  s.port_portSet_same port _

theorem State.port_congr {s t : State} (h : t.host = s.host) (port : Nat) : t.port port = s.port port := by
  rw [State.port, h, State.port]

section
variable {s : State} {port key : Nat} {q : HostOp} {a k : Nat} (h : s.hostReads port key q a k)
include h

theorem State.pieceDone_ok (data : List Byte) : s.pieceDone port q [] 0 data = (s.portOps port []).bar2Done q.fn .ok 0 (q.got ++ data) := by
  simp only [State.pieceDone, h.todo, h.read, h.sound, ne_eq, not_true, false_and, if_false, Bool.false_eq_true, List.isEmpty_nil,
    Bool.not_true, bne_self_eq_false, Bool.or_false]

theorem State.pieceDone_fails {code : Nat} (fails : code ≠ 0) (other : code ≠ eUncorr) (data : List Byte) :
    s.pieceDone port q [] code data = ((s.bar2Err q.fn code a q.part).portOps port []).bar2Done q.fn .abort code [] := by
  simp only [State.pieceDone, h.todo, h.read, h.sound, ne_eq, fails, other, not_false_eq_true, if_true, Bool.false_eq_true, if_false,
    Bool.not_false, and_self]

theorem State.hostRemote_eq (code : Nat) (data : List Byte) :
    s.hostRemote port key code data = (s.pieceDone port q [] code ((data.drop q.skip).take k)).hostPump port := by
  unfold State.hostRemote
  rw [h.ops]
  dsimp only
  rw [if_neg (by simp [h.remote]), h.todo]

end

/-- What the completion of a port's only read leaves. -/
structure State.readDone (s t : State) (port : Nat) (out : Out) : Prop where
  ops : (t.port port).ops = []
  outbox : t.outbox = out :: s.outbox
  rest : { t with host := s.host, outbox := s.outbox, reply := s.reply } = s

theorem State.readDone_of (s : State) (port fn : Nat) (kind : CplKind) (code : Nat) (data : List Byte) :
    s.readDone (((s.portOps port []).bar2Done fn kind code data).hostPump port) port (.completion fn kind code data) := by
  have none := s.portOps_port port []
  have rest : { s.portOps port [] with host := s.host } = s := rfl
  generalize s.portOps port [] = u at *
  have done : (u.bar2Done fn kind code data).port port = u.port port := State.port_congr rfl port
  rw [State.hostPump_empty (by rw [done, none])]
  have out : (u.bar2Done fn kind code data).outbox = .completion fn kind code data :: u.outbox := rfl
  have rest' : { u.bar2Done fn kind code data with outbox := u.outbox, reply := u.reply } = u := rfl
  generalize u.bar2Done fn kind code data = v at *
  refine ⟨by rw [done, none], by rw [out, ← (congrArg State.outbox rest :)], ?_⟩
  exact ((congrArg (fun w : State => { w with host := s.host, outbox := s.outbox, reply := s.reply }) rest' :)).trans
    (congrArg (fun w : State => { w with outbox := s.outbox, reply := s.reply }) rest :)

/-! ## Table entries -/

theorem State.dropEntry_free (s : State) (key : Nat) : mhas (s.dropEntry key).spl.out key = false := by
  have same : (s.dropEntry key).spl.out = mdel s.spl.out key := rfl
  rw [same, mhas_eq_isSome, mfind_mdel_same]
  rfl

theorem State.resolve_host {s : State} {key code : Nat} {data : List Byte} {e : OutReq} {port : Fin 2} (entry : mfind s.spl.out key = some e)
    (owner : e.owner = .host port) (die : s.agentDie (.host port) = 6 + key / 4096) (whole : s.brup.outDies = [])
    (near : s.isFar key = false) : s.resolve key code data = (s.dropEntry key).hostRemote port.val key code data := by
  have same : (s.dropEntry key).agentDie (.host port) = 6 + key / 4096 := die
  have far : (s.dropEntry key).isFar key = false := near
  unfold State.resolve
  rw [entry]
  dsimp only
  rw [owner, same, carry_same (s.dropEntry key) _ _ _ whole]
  simp only [if_true, far, Bool.false_eq_true, if_false]

/-! ## READ_RESP -/

theorem State.entryFor_none {s : State} {m : Msg} {part : Nat} (free : mfind s.spl.out m.tag.toNat = none) : s.entryFor m part = none := by
  rw [State.entryFor, free]

theorem State.entryFor_some {s : State} {m : Msg} {part : Nat} {e : OutReq} (entry : mfind s.spl.out m.tag.toNat = some e)
    (epoch : e.epoch = m.epoch.toNat ∨ e.first = m.epoch.toNat) (own : e.part = part) : s.entryFor m part = some m.tag.toNat := by
  rw [State.entryFor, entry]
  exact if_pos ⟨epoch, own⟩

theorem State.stalePart_congr {s t : State} (h : t.parts = s.parts) (p : Nat) (m : Msg) : t.stalePart p m = s.stalePart p m := by
  rw [State.stalePart, State.part, h, State.stalePart, State.part]

/-- What a READ_RESP does once it is taken. -/
def State.respTaken (s : State) (m : Msg) : State :=
  if s.stalePart m.srcPart.val m then s.discardMsg.rAdd Reg.BRUP_DISCARDS 31 0 1
  else match s.entryFor m m.srcPart.val with
    | some key => s.resolve key (m.arg.toNat % 2 ^ 16) m.payload
    | none => s.discardMsg

theorem exec_readResp_eq (n : Fin 64) (s : State) : exec (.readResp n) s = .next (s.received n.val 3 (fun m s => s.respTaken m)) := rfl

/-- A message discarded, and counted as one that a reset came after where it is (R464). -/
theorem State.respTaken_discards {s : State} {m : Msg}
    (gone : mfind s.spl.out m.tag.toNat = none ∨ s.stalePart m.srcPart.val m = true) : let t := s.respTaken m
    s.sendsOnly t ∧ t.rf Reg.SPL_DISCARDS 31 0 = (s.rf Reg.SPL_DISCARDS 31 0 + 1) % 2 ^ 32 ∧
    t.rf Reg.BRUP_DISCARDS 31 0 = (s.rf Reg.BRUP_DISCARDS 31 0 + b2n (s.stalePart m.srcPart.val m)) % 2 ^ 32 := by
  have counted := rf_rAdd_same s Reg.SPL_DISCARDS 31 0 1 (by decide) (by decide)
  have discarded : s.discardMsg.rf Reg.SPL_DISCARDS 31 0 = (s.rf Reg.SPL_DISCARDS 31 0 + 1) % 2 ^ 32 := counted
  have other : s.discardMsg.rf Reg.BRUP_DISCARDS 31 0 = s.rf Reg.BRUP_DISCARDS 31 0 := rf_rfSet_other s _ _ _ _ _ (by decide)
  have sent := s.discardMsg_sendsOnly
  unfold State.respTaken
  cases stale : s.stalePart m.srcPart.val m with
  | true =>
    rw [if_pos rfl]
    generalize s.discardMsg = u at *
    refine ⟨sent.trans (u.rAdd_sendsOnly ..), ?_, ?_⟩
    · exact (rf_rfSet_other u _ _ _ _ _ (by decide)).trans discarded
    · rw [← other]
      exact rf_rAdd_same u Reg.BRUP_DISCARDS 31 0 1 (by decide) (by decide)
  | false =>
    have free : mfind s.spl.out m.tag.toNat = none := gone.resolve_right (by simp [stale])
    rw [if_neg (by simp), State.entryFor_none free]
    refine ⟨sent, discarded, ?_⟩
    have low : s.rf Reg.BRUP_DISCARDS 31 0 < 2 ^ 32 := Nat.mod_lt _ (by decide)
    exact other.trans (Nat.mod_eq_of_lt low).symm

theorem exec_readResp_discards {n : Fin 64} {m : Msg} {s : State} {y : SLink} (taken : (s.link n.val).next (vcOf 3) = some (3, m, y))
    (here : m.dst.toNat = s.moduleId ∧ s.moduleId ≠ 0xFFF)
    (gone : mfind s.spl.out m.tag.toNat = none ∨ s.stalePart m.srcPart.val m = true) :
    ∃ t, exec (.readResp n) s = .next t ∧ t.spl.out = s.spl.out ∧ t.hbm = s.hbm ∧
      t.lin = s.lin.calm ∧ t.groups = s.groups ∧ t.jig = s.jig ∧ t.host = s.host ∧
      t.rf Reg.SPL_DISCARDS 31 0 = (s.rf Reg.SPL_DISCARDS 31 0 + 1) % 2 ^ 32 ∧
      t.rf Reg.BRUP_DISCARDS 31 0 = (s.rf Reg.BRUP_DISCARDS 31 0 + b2n (s.stalePart m.srcPart.val m)) % 2 ^ 32 := by
  have took := s.msgTaken_took n.val 3 m y
  have stale := State.stalePart_congr took.parts m.srcPart.val m
  have read := State.received_here (body := fun m s => s.respTaken m) taken here.1 here.2
  generalize s.msgTaken n.val 3 m y = w at *
  obtain ⟨sent, counted, reset⟩ := State.respTaken_discards (s := w) (m := m) (by rw [took.spl, stale]; exact gone)
  generalize w.respTaken m = v at *
  have lin := sent.lin.trans took.lin
  have read := read (by rw [lin]; rfl)
  refine ⟨v.farUsed, by rw [exec_readResp_eq, read], sent.out.trans took.spl, sent.hbm.trans took.hbm, lin, sent.groups.trans took.groups,
    sent.jig.trans took.jig, sent.host.trans took.host, ?_, ?_⟩
  · rw [State.rf_of_rg (took.rg _ (by decide))] at counted
    exact counted
  · rw [State.rf_of_rg (took.rg _ (by decide)), stale] at reset
    exact reset

theorem State.agentDie_host (s t : State) (p : Fin 2) : t.agentDie (.host p) = s.agentDie (.host p) := rfl

theorem State.respTaken_completes {w : State} {m : Msg} {e : OutReq} {port : Fin 2} (fresh : w.stalePart m.srcPart.val m = false)
    (entry : mfind w.spl.out m.tag.toNat = some e) (owner : e.owner = .host port)
    (epoch : e.epoch = m.epoch.toNat ∨ e.first = m.epoch.toNat) (own : e.part = m.srcPart.val) (ok : m.arg.toNat % 2 ^ 16 = 0)
    (die : w.agentDie (.host port) = 6 + m.tag.toNat / 4096) (whole : w.brup.outDies = []) (near : w.isFar m.tag.toNat = false) :
    w.respTaken m = (w.dropEntry m.tag.toNat).hostRemote port.val m.tag.toNat 0 m.payload := by
  rw [State.respTaken, if_neg (by simp [fresh]), State.entryFor_some entry epoch own, ok]
  exact State.resolve_host entry owner die whole near

/-- A port's only read completed by what resolves its entry. -/
theorem State.hostRemote_completes {v : State} {port key : Nat} {q : HostOp} {a k : Nat} (reads : v.hostReads port key q a k) (data : List Byte) :
    v.readDone (v.hostRemote port key 0 data) port (.completion q.fn .ok 0 (q.got ++ (data.drop q.skip).take k)) := by
  rw [State.hostRemote_eq reads, State.pieceDone_ok reads]
  exact v.readDone_of ..

theorem State.dropEntry_rest (s : State) (key : Nat) : { s.dropEntry key with spl := s.spl } = s := rfl

theorem State.readDone.kept {s t : State} {port : Nat} {out : Out} (h : s.readDone t port out) :
    t.hbm = s.hbm ∧ t.lin = s.lin ∧ t.spl = s.spl ∧ t.regs = s.regs ∧ t.now = s.now :=
  ⟨(congrArg State.hbm h.rest :), (congrArg State.lin h.rest :), (congrArg State.spl h.rest :), (congrArg State.regs h.rest :),
    (congrArg State.now h.rest :)⟩

theorem State.port_farUsed (s : State) (p : Nat) : s.farUsed.port p = s.port p := rfl
theorem State.out_farUsed (s : State) : s.farUsed.spl.out = s.spl.out := rfl
theorem State.outbox_farUsed (s : State) : s.farUsed.outbox = s.outbox := rfl

theorem exec_readResp_completes {n : Fin 64} {m : Msg} {s : State} {y : SLink} (taken : (s.link n.val).next (vcOf 3) = some (3, m, y))
    (here : m.dst.toNat = s.moduleId ∧ s.moduleId ≠ 0xFFF) {e : OutReq} {port : Fin 2} {q : HostOp} {a k : Nat}
    (fresh : s.stalePart m.srcPart.val m = false) (entry : mfind s.spl.out m.tag.toNat = some e) (owner : e.owner = .host port)
    (epoch : e.epoch = m.epoch.toNat ∨ e.first = m.epoch.toNat) (own : e.part = m.srcPart.val)
    (reads : s.hostReads port.val m.tag.toNat q a k) (ok : m.arg.toNat % 2 ^ 16 = 0)
    (die : s.agentDie (.host port) = 6 + m.tag.toNat / 4096) (whole : s.brup.outDies = []) (near : s.isFar m.tag.toNat = false) :
    ∃ t, exec (.readResp n) s = .next t ∧ mhas t.spl.out m.tag.toNat = false ∧ (t.port port.val).ops = [] ∧
      t.outbox = .completion q.fn .ok 0 (q.got ++ (m.payload.drop q.skip).take k) :: (s.msgTaken n.val 3 m y).outbox ∧
      t.hbm = s.hbm ∧ t.lin = s.lin.calm := by
  have took := s.msgTaken_took n.val 3 m y
  have read := State.received_here (body := fun m s => s.respTaken m) taken here.1 here.2
  generalize s.msgTaken n.val 3 m y = w at *
  have fresh' := (State.stalePart_congr took.parts m.srcPart.val m).trans fresh
  have named : w.entryFor m m.srcPart.val = some m.tag.toNat := State.entryFor_some (by rw [took.spl]; exact entry) epoch own
  have near' : w.isFar m.tag.toNat = false := by rw [State.isFar, took.far]; exact near
  have resolves := State.respTaken_completes fresh' (by rw [took.spl]; exact entry) owner epoch own ok ((s.agentDie_host w port).trans die)
    (by rw [took.brup]; exact whole) near'
  have free := w.dropEntry_free m.tag.toNat
  have rest := w.dropEntry_rest m.tag.toNat
  generalize w.dropEntry m.tag.toNat = v at *
  have host : v.host = s.host := ((congrArg State.host rest :)).trans took.host
  have reads' : v.hostReads port.val m.tag.toNat q a k :=
    ⟨by rw [State.port_congr host]; exact reads.ops, reads.remote, reads.read, reads.sound, reads.todo⟩
  have done := State.hostRemote_completes reads' m.payload
  rw [resolves] at read
  generalize v.hostRemote port.val m.tag.toNat 0 m.payload = u at *
  obtain ⟨hbm, lin, spl, -, -⟩ := done.kept
  have lin : u.lin = s.lin.calm := lin.trans (((congrArg State.lin rest :)).trans took.lin)
  have read := read (by rw [lin]; rfl)
  have before : v.outbox = w.outbox := (congrArg State.outbox rest :)
  refine ⟨u.farUsed, by rw [exec_readResp_eq, read], by rw [State.out_farUsed, spl]; exact free, by rw [State.port_farUsed]; exact done.ops, ?_,
    hbm.trans (((congrArg State.hbm rest :)).trans took.hbm), lin⟩
  rw [State.outbox_farUsed, done.outbox, before]

end Sys2Proof.Machine

/-! # Requests without an answer, TICKMARKs, and the statement (R344 to R360) -/

namespace Sys2Proof.Machine

/-! ## REQ_TIMEOUT (R359) -/

/-- A request without an answer, as its time is over and it is counted. -/
def State.requestLate (s : State) (due : Nat) : State := (s.at due).rAdd Reg.SPL_TIMEOUTS 31 0 1

theorem State.requestLate_effect (s : State) (due : Nat) : let t := s.requestLate due
    { t with now := s.now, regs := s.regs } = s ∧ t.now = max s.now due ∧
    t.rf Reg.SPL_TIMEOUTS 31 0 = (s.rf Reg.SPL_TIMEOUTS 31 0 + 1) % 2 ^ 32 := by
  unfold State.requestLate
  have rest : { s.at due with now := s.now } = s := rfl
  have now : (s.at due).now = max s.now due := rfl
  generalize s.at due = u at *
  have regs : u.regs = s.regs := (congrArg State.regs rest :)
  have before : u.rf Reg.SPL_TIMEOUTS 31 0 = s.rf Reg.SPL_TIMEOUTS 31 0 := State.rf_of_rg (rg_of_regs regs _) 31 0
  have counted := rf_rAdd_same u Reg.SPL_TIMEOUTS 31 0 1 (by decide) (by decide)
  have rest' : { u.rAdd Reg.SPL_TIMEOUTS 31 0 1 with regs := u.regs } = u := u.rfSet_rest ..
  rw [before] at counted
  generalize u.rAdd Reg.SPL_TIMEOUTS 31 0 1 = v at *
  exact ⟨((congrArg (fun w : State => { w with now := s.now, regs := s.regs }) rest' :)).trans
    (congrArg (fun w : State => { w with regs := s.regs }) rest :), ((congrArg State.now rest' :)).trans now, counted⟩

/-- A port's only read failed by what resolves its entry. -/
theorem State.hostRemote_aborts {v : State} {port key code : Nat} {q : HostOp} {a k : Nat} (reads : v.hostReads port key q a k)
    (fails : code ≠ 0) (other : code ≠ eUncorr) (data : List Byte) : let u := v.bar2Err q.fn code a q.part
    u.readDone (v.hostRemote port key code data) port (.completion q.fn .abort code []) := by
  rw [State.hostRemote_eq reads, State.pieceDone_fails reads fails other]
  exact State.readDone_of ..

theorem exec_reqTimeout {die : Fin 4} {entry : Fin 4096} {s : State} {e : OutReq}
    (out : mfind s.spl.out (4096 * die.val + entry.val) = some e) : exec (.reqTimeout die entry) s =
    .next ((s.requestLate (e.sent + 1000 * s.ptn.running.reqTimeout)).resolve (4096 * die.val + entry.val) eTimeout []) := by
  have run : exec (.reqTimeout die entry) s = execReqTimeout die entry s := rfl
  rw [run, execReqTimeout, out]
  rfl

theorem exec_reqTimeout_aborts {die : Fin 4} {entry : Fin 4096} {s : State} {e : OutReq} {port : Fin 2} {q : HostOp} {a k : Nat}
    (out : mfind s.spl.out (4096 * die.val + entry.val) = some e) (owner : e.owner = .host port)
    (reads : s.hostReads port.val (4096 * die.val + entry.val) q a k) (at_ : s.agentDie (.host port) = 6 + die.val)
    (whole : s.brup.outDies = []) (near : s.isFar (4096 * die.val + entry.val) = false) :
    ∃ t, exec (.reqTimeout die entry) s = .next t ∧ mhas t.spl.out (4096 * die.val + entry.val) = false ∧
      t.now = max s.now (e.sent + 1000 * s.ptn.running.reqTimeout) ∧ (t.port port.val).ops = [] ∧
      t.outbox = .completion q.fn .abort eTimeout [] :: s.outbox ∧
      t.rf Reg.SPL_TIMEOUTS 31 0 = (s.rf Reg.SPL_TIMEOUTS 31 0 + 1) % 2 ^ 32 := by
  have home : (4096 * die.val + entry.val) / 4096 = die.val := by omega
  have known := exec_reqTimeout out
  generalize 4096 * die.val + entry.val = key at *
  obtain ⟨rest, now, counted⟩ := s.requestLate_effect (e.sent + 1000 * s.ptn.running.reqTimeout)
  generalize e.sent + 1000 * s.ptn.running.reqTimeout = due at *
  generalize s.requestLate due = w at *
  have spl : w.spl = s.spl := (congrArg State.spl rest :)
  have brup : w.brup = s.brup := (congrArg State.brup rest :)
  have host : w.host = s.host := (congrArg State.host rest :)
  have outbox : w.outbox = s.outbox := (congrArg State.outbox rest :)
  have resolves := State.resolve_host (s := w) (code := eTimeout) (data := []) (by rw [spl]; exact out) owner
    (((s.agentDie_host w port).trans at_).trans (by rw [home])) (by rw [brup]; exact whole) (by rw [State.isFar, spl]; exact near)
  have free := w.dropEntry_free key
  have rest' := w.dropEntry_rest key
  generalize w.dropEntry key = v at *
  have host' : v.host = s.host := ((congrArg State.host rest' :)).trans host
  have regs' : v.regs = w.regs := (congrArg State.regs rest' :)
  have now' : v.now = w.now := (congrArg State.now rest' :)
  have outbox' : v.outbox = w.outbox := (congrArg State.outbox rest' :)
  have reads' : v.hostReads port.val key q a k :=
    ⟨by rw [State.port_congr host']; exact reads.ops, reads.remote, reads.read, reads.sound, reads.todo⟩
  have done := State.hostRemote_aborts reads' (code := eTimeout) (by decide) (by decide) []
  have log : v.sameButLog (v.bar2Err q.fn eTimeout a q.part) := State.err_sameButLog ..
  have recorded : (v.bar2Err q.fn eTimeout a q.part).rg Reg.SPL_TIMEOUTS = v.rg Reg.SPL_TIMEOUTS :=
    State.rg_err v (.inr (by decide)) (by decide) ..
  rw [resolves] at known
  dsimp only at done
  generalize v.bar2Err q.fn eTimeout a q.part = u at *
  generalize v.hostRemote port.val key eTimeout [] = t at *
  obtain ⟨-, -, splT, regsT, nowT⟩ := done.kept
  refine ⟨t, known, by rw [splT, State.sameButLog_spl log]; exact free, by rw [nowT, State.sameButLog_now log, now', now], done.ops, ?_, ?_⟩
  · have logged : u.outbox = v.outbox := (congrArg State.outbox log : _)
    rw [done.outbox, logged, outbox', outbox]
  · exact (State.rf_of_rg ((rg_of_regs regsT _).trans (recorded.trans (rg_of_regs regs' _))) 31 0).trans counted

/-! ## TICKMARK (R351) -/

theorem State.markHere_marks {w : State} {n a : Nat} {m : Msg} (open' : w.exposed m 4 8 = (0, a)) (aligned : a % 8 = 0)
    {r : Nat × List Byte × State}
    (update : w.memUpdate (.remote (Fin.ofNat 4 (n / 16))) (some m.part.val) a 8 (fun bs => leBytes (leNat bs + 1) 8) .clean = r) (ok : r.1 = 0) :
    w.markHere n m = r.2.2.rAdd (Reg.SPL_TMARK + 4 * m.part.val) 31 0 1 := by
  unfold State.markHere
  dsimp only
  rw [open', update]
  simp only [ne_eq, not_true, if_false, aligned, ok]

theorem exec_tickmark_marks {n : Fin 64} {a : Nat} {m : Msg} {s : State} {y : SLink} (taken : (s.link n.val).next (vcOf 6) = some (6, m, y))
    (here : m.dst.toNat = s.moduleId ∧ s.moduleId ≠ 0xFFF) (open' : (s.msgTaken n.val 6 m y).exposed m 4 8 = (0, a)) (aligned : a % 8 = 0)
    {r : Nat × List Byte × State} (update : (s.msgTaken n.val 6 m y).memUpdate (.remote (Fin.ofNat 4 (n.val / 16))) (some m.part.val) a 8
      (fun bs => leBytes (leNat bs + 1) 8) .clean = r) (ok : r.1 = 0) (free : r.2.2.lin.stuck = none) :
    ∃ t, exec (.tickmark n) s = .next t ∧ t.hbm = r.2.2.hbm ∧ t.lin = r.2.2.lin ∧ t.outbox = r.2.2.outbox ∧
      t.rf (Reg.SPL_TMARK + 4 * m.part.val) 31 0 = (r.2.2.rf (Reg.SPL_TMARK + 4 * m.part.val) 31 0 + 1) % 2 ^ 32 := by
  have run : exec (.tickmark n) s = .next (s.received n.val 6 (fun m s => s.markHere n.val m)) := rfl
  have read := State.received_here (body := fun m s => s.markHere n.val m) taken here.1 here.2
  have marks := State.markHere_marks open' aligned update ok
  rw [marks] at read
  generalize r.2.2 = u at *
  have counted := rf_rAdd_same u (Reg.SPL_TMARK + 4 * m.part.val) 31 0 1 (by decide) (by decide)
  have rest : { u.rAdd (Reg.SPL_TMARK + 4 * m.part.val) 31 0 1 with regs := u.regs } = u := u.rfSet_rest ..
  generalize u.rAdd (Reg.SPL_TMARK + 4 * m.part.val) 31 0 1 = v at *
  have lin : v.lin = u.lin := (congrArg State.lin rest :)
  have read := read (by rw [lin]; exact free)
  exact ⟨v.farUsed, by rw [run, read], (congrArg State.hbm rest :), lin, (congrArg State.outbox rest :), counted⟩

/-! ## The statement -/

/-- The commands that receive messages, by type. -/
def receivers (n : Fin 64) : List (Nat × Instr) := [(1, .write n), (2, .read n), (4, .reduce n), (5, .signalMessage n)]

theorem exec_receiver {n : Fin 64} {kind : Nat} {c : Instr} (which : (kind, c) ∈ receivers n) (s : State) :
    exec c s = .next (s.received n.val kind (fun m s => s.request n.val kind m)) := by
  simp only [receivers, List.mem_cons, Prod.mk.injEq, List.not_mem_nil, or_false] at which
  rcases which with ⟨rfl, rfl⟩ | ⟨rfl, rfl⟩ | ⟨rfl, rfl⟩ | ⟨rfl, rfl⟩ <;> rfl

theorem exec_any_receiver {n : Fin 64} {kind : Nat} {c : Instr}
    (which : (kind, c) ∈ [(1, Instr.write n), (2, .read n), (3, .readResp n), (4, .reduce n), (5, .signalMessage n), (6, .tickmark n)]) (s : State) :
    ∃ body, exec c s = .next (s.received n.val kind body) := by
  simp only [List.mem_cons, Prod.mk.injEq, List.not_mem_nil, or_false] at which
  rcases which with ⟨rfl, rfl⟩ | ⟨rfl, rfl⟩ | ⟨rfl, rfl⟩ | ⟨rfl, rfl⟩ | ⟨rfl, rfl⟩ | ⟨rfl, rfl⟩ <;> exact ⟨_, rfl⟩

section
variable {n : Fin 64} {kind : Nat} {c : Instr} {m : Msg} {s : State} {y : SLink} (which : (kind, c) ∈ receivers n)
  (taken : (s.link n.val).next (vcOf kind) = some (kind, m, y)) (here : m.dst.toNat = s.moduleId ∧ s.moduleId ≠ 0xFFF)
include which taken here

/-- A request performed is answered with its code and data. -/
theorem exec_request_answered {a : Nat} (open' : (s.msgTaken n.val kind m y).exposed m (requestSpan kind m).2 (requestSpan kind m).1 = (0, a))
    {code : Nat} {data : List Byte} {u : State} (does : (s.msgTaken n.val kind m y).requestHere (n.val / 16) kind a m = (code, data, u))
    (free : u.lin.stuck = none) : exec c s = .next (u.respond (n.val / 16) code data m).farUsed := by
  have asks := State.request_opened (n := n.val) open'
  rw [does] at asks
  rw [exec_receiver which, State.received_answers taken here asks free]

theorem exec_request_refused {code a : Nat} (fails : code ≠ 0)
    (shut : (s.msgTaken n.val kind m y).exposed m (requestSpan kind m).2 (requestSpan kind m).1 = (code, a)) :
    exec c s = .next ((s.msgTaken n.val kind m y).respond (n.val / 16) code [] m).farUsed := by
  have free : (s.msgTaken n.val kind m y).lin.stuck = none := by rw [(s.msgTaken_took n.val kind m y).lin]; rfl
  rw [exec_receiver which, State.received_answers taken here (State.request_refused shut fails) free]

end

/-- Settles O46: each command takes the oldest message of its channel; what it does with it is performed as one access from the state in
which the message is taken, and answered where it is a request. -/
theorem splineMessages : Obligations.SplineMessages := by
  unfold Obligations.SplineMessages
  intro n m s
  dsimp only
  refine ⟨messageLeaves_holds s, ?_, ?_, ?_, ?_, ?_, ?_, ?_, ?_, ?_⟩
  · rintro y a ⟨taken, here, open'⟩ free
    exact ⟨_, exec_request_answered (by simp [receivers]) taken here open' rfl free, fun _ => State.respond_answers ..⟩
  · rintro y a ⟨taken, here, open'⟩ free
    exact ⟨_, exec_request_answered (by simp [receivers]) taken here open' rfl free, fun _ => State.respond_answers ..⟩
  · rintro y a ⟨taken, here, open'⟩ plain free
    refine ⟨_, exec_request_answered (by simp [receivers]) taken here open' ?_ free, fun _ => State.respond_answers ..⟩
    exact if_pos (by simp [plain])
  · rintro y a ⟨taken, here, open'⟩ aligned free
    refine ⟨_, exec_request_answered (by simp [receivers]) taken here open' ?_ free, fun _ => State.respond_answers ..⟩
    exact if_neg (by simp [aligned])
  · intro kind c y code a which taken here shut fails
    exact ⟨_, exec_request_refused which taken here fails shut, fun _ => State.respond_answers ..⟩
  · intro y a taken here open' aligned ok free
    exact exec_tickmark_marks taken here open' aligned rfl ok free
  · intro kind c y k which taken dst hops exit die whole
    obtain ⟨body, run⟩ := exec_any_receiver which s
    exact ⟨_, run, State.received_forwarded taken dst hops exit die whole⟩
  · intro y taken here
    refine ⟨exec_readResp_discards taken here, fun e port q a k fresh entry owner epoch own ops remote read sound todo ok die whole near => ?_⟩
    exact exec_readResp_completes taken here fresh entry owner epoch own ⟨ops, remote, read, sound, todo⟩ ok die whole near
  · intro die entry e port q a k out owner ops remote read sound todo at_ whole near
    exact exec_reqTimeout_aborts out owner ⟨ops, remote, read, sound, todo⟩ at_ whole near

end Sys2Proof.Machine

/-! # BAR4, resets, link and configuration of the host functions (R61, R363 to R375) -/

namespace Sys2Proof.Machine

/-! ## BAR4 -/

theorem mget_foldl_mset_range (c : Nat → Prop) [DecidablePred c] (f : Nat → Byte) (b n : Nat) (m : List Host.Cell) (a : Nat) :
    mget ((List.range n).foldl (fun (m : List Host.Cell) i => if c i then mset m (b + i) (f i) 0 else m) m) a 0 =
      if b ≤ a ∧ a < b + n ∧ c (a - b) then f (a - b) else mget m a 0 := by
  induction n with
  | zero =>
    rw [if_neg (by omega)]
    rfl
  | succ n ih =>
    rw [List.range_succ, List.foldl_append, List.foldl_cons, List.foldl_nil]
    by_cases last : a = b + n
    · subst last
      have at_ : b + n - b = n := by omega
      rw [at_] at ih ⊢
      split
      next on => rw [mget_mset_same, if_pos ⟨by omega, by omega, on⟩]
      next off => rw [ih, if_neg (by omega), if_neg (by simp [off])]
    · have bound : (a < b + (n + 1)) ↔ a < b + n := by omega
      split
      · rw [mget_mset_other _ _ _ _ last, ih]
        simp only [bound]
      · rw [ih]
        simp only [bound]

theorem State.speaks_pf (s : State) (p : Fin 2) : s.speaks (.pf p) = true := rfl

theorem State.bar4Window_vf (s : State) (p : Fin 2) (k : Fin 16) :
    s.bar4Window (.vf p k) = if s.speaks (.vf p k) then some (2 ^ 20 * k.val, 2 ^ 20) else none := rfl

theorem State.bar4Read_get (s : State) (f : Func) (off n i : Nat) (h : i < n) : (s.bar4Read f off n)[i]? = some (match vfPart f with
    | none => if off + i < 2 ^ 24 then mget s.bar4 (off + i) 0 else 0
    | some k => if s.speaks f = true ∧ off + i < 2 ^ 20 then mget s.bar4 (2 ^ 20 * k.val + off + i) 0 else 0) := by
  cases f with
  | pf p =>
    have window : s.bar4Window (.pf p) = some (0, 2 ^ 24) := rfl
    rw [State.bar4Read, window]
    simp [vfPart, h]
  | vf p k =>
    rw [State.bar4Read, State.bar4Window_vf]
    cases speaks : s.speaks (.vf p k) <;> simp [vfPart, h]

/-- The base and the size of a function's BAR4 in the 16 areas. -/
def bar4Base (f : Func) : Nat :=
  match vfPart f with
  | none => 0
  | some k => 2 ^ 20 * k.val

theorem State.bar4Window_speaks {s : State} {f : Func} (h : s.speaks f = true) :
    s.bar4Window f = some (bar4Base f, if isPf f then 2 ^ 24 else 2 ^ 20) := by
  cases f with
  | pf p => rfl
  | vf p k => rw [State.bar4Window_vf, if_pos h]; rfl

theorem bar4Base_mod (f : Func) (o : Nat) : (bar4Base f + o) % 2 ^ 20 = o % 2 ^ 20 := by
  unfold bar4Base
  split <;> omega

theorem State.bar4Put_get {s : State} {f : Func} (h : s.speaks f = true) (off : Nat) (bytes : List Byte) (a : Nat) :
    mget (s.bar4Put f off bytes).bar4 a 0 =
      if bar4Base f + off ≤ a ∧ a < bar4Base f + off + bytes.length ∧ a < bar4Base f + (if isPf f then 2 ^ 24 else 2 ^ 20) ∧
        bar4Writable (a % 2 ^ 20) = true
      then bytes.getD (a - (bar4Base f + off)) 0 else mget s.bar4 a 0 := by
  have modulo := bar4Base_mod f
  have read := mget_foldl_mset_range (fun i => off + i < (if isPf f then 2 ^ 24 else 2 ^ 20) ∧ bar4Writable ((off + i) % 2 ^ 20) = true)
    (fun i => bytes.getD i 0) (bar4Base f + off) bytes.length s.bar4 a
  unfold State.bar4Put
  rw [State.bar4Window_speaks h]
  generalize (if isPf f then 2 ^ 24 else 2 ^ 20) = lim at *
  refine read.trans (if_congr ?_ rfl rfl)
  constructor
  · rintro ⟨low, high, inside, writes⟩
    have place : a = bar4Base f + (off + (a - (bar4Base f + off))) := by omega
    exact ⟨low, high, by omega, by rw [place, modulo]; exact writes⟩
  · rintro ⟨low, high, inside, writes⟩
    have place : a = bar4Base f + (off + (a - (bar4Base f + off))) := by omega
    rw [place, modulo] at writes
    exact ⟨low, high, by omega, writes⟩

theorem State.bar4Put_rest (s : State) (f : Func) (off : Nat) (bytes : List Byte) : { s.bar4Put f off bytes with bar4 := s.bar4 } = s := by
  unfold State.bar4Put
  split <;> rfl

/-! ## Ports -/

theorem State.port_portSet_other (s : State) (p : Fin 2) (v : Port) : (s.portSet p.val v).port (1 - p.val) = s.port (1 - p.val) := by
  have two : p = 0 ∨ p = 1 := by omega
  rcases two with rfl | rfl <;> rfl

theorem State.putOff_effect (s : State) (p : Fin 2) (c : Instr) : let x := s.port p.val
    (s.putOff p.val c).port p.val = { x with later := x.later ++ [(s.now, c)] } ∧ (s.putOff p.val c).port (1 - p.val) = s.port (1 - p.val) ∧
    { s.putOff p.val c with host := s.host, reply := s.reply } = s := by
  refine ⟨(State.port_congr (s := s.portSet p.val _) rfl _).trans (s.port_portSet_same p.val _),
    (State.port_congr (s := s.portSet p.val _) rfl _).trans (s.port_portSet_other p _), ?_⟩
  unfold State.putOff
  generalize Port.mk .. = x
  generalize p.val = k
  rfl

/-- The port of a function, as a number below 2. -/
def portFin : Func → Fin 2
  | .pf p => p
  | .vf p _ => p

theorem portFin_val (f : Func) : (portFin f).val = portOf f := by cases f <;> rfl

theorem State.inOrder_waits {s : State} {f : Func} (h : s.mustWait (portOf f) = true) (c : Instr) (body : State → State) :
    s.inOrder f c body = s.putOff (portOf f) c := if_pos h

/-! ## Resets of functions (R375) -/

/-- What resets of functions touch beside the functions, and what they leave. -/
structure State.fnsReset (s t : State) (p : Fin 2) (gone : Nat → Prop) : Prop where
  fns : ∀ i, (gone i → mget t.host.fns i {} = {}) ∧ (¬ gone i → mget t.host.fns i {} = mget s.host.fns i {})
  other : t.port (1 - p.val) = s.port (1 - p.val)
  lin : t.lin = { s.lin with tickets := s.lin.tickets.filter (fun k => !decide (k.ask.agent = hostAgent p.val)) }
  rest : { t with host := s.host, latches := s.latches, heldWrites := s.heldWrites, irq := s.irq, lin := s.lin } = s

theorem State.fnReset_fns (s : State) (n i : Nat) : mget (s.fnReset n).host.fns i {} = if i = n then {} else mget s.host.fns i {} := by
  have same : (s.fnReset n).host.fns = mdel s.host.fns n := rfl
  rw [same]
  split
  next here => rw [here, mget_mdel_same]
  next away => exact mget_mdel_other _ _ away

theorem State.fnReset_port (s : State) (n p : Nat) : (s.fnReset n).port p = s.port p := rfl

theorem State.fnReset_rest (s : State) (n : Nat) :
    { s.fnReset n with host := s.host, latches := s.latches, heldWrites := s.heldWrites } = s := rfl

theorem State.forgetTickets_rest (s : State) (g : Ticket → Bool) : { s.forgetTickets g with lin := s.lin } = s := rfl

/-- What a VF's reset leaves of its port. -/
def Port.without (x : Port) (n : Nat) : Port :=
  { x with ops := x.ops.filter (fun q => q.fn != n), later := x.later.filter (fun e => !cmdOf n e.2) }

theorem State.portSet_fns (s : State) (p : Nat) (v : Port) : (s.portSet p v).host.fns = s.host.fns := by
  unfold State.portSet
  split <;> rfl

theorem State.portSet_rest (s : State) (p : Nat) (v : Port) : { s.portSet p v with host := s.host } = s := rfl

/-- A VF's reset, step by step: its function, its requests, what is known of them, its accesses, its hold-offs. -/
theorem State.vfReset_eq (s : State) (p k : Nat) : s.vfReset p k =
    let n := 17 * p + 1 + k
    let a := s.fnReset n
    let b := a.portSet p { a.port p with ops := (a.port p).ops.filter (fun q => q.fn != n) }
    let c := b.forgetTickets (fun t => decide (t.ask.agent = hostAgent p))
    let d := c.portSet p { c.port p with later := (c.port p).later.filter (fun e => !cmdOf n e.2) }
    { d with irq := { d.irq with vf := mclear d.irq.vf (64 * p + 4 * k) 4 } } := rfl

theorem State.vfReset_effect (s : State) (p : Fin 2) (k : Nat) : let t := s.vfReset p.val k
    s.fnsReset t p (fun i => i = 17 * p.val + 1 + k) ∧ t.port p.val = (s.port p.val).without (17 * p.val + 1 + k) := by
  rw [State.vfReset_eq]
  dsimp only
  generalize 17 * p.val + 1 + k = n
  have fnsA := s.fnReset_fns n
  have portA := s.fnReset_port n
  have linA : (s.fnReset n).lin = s.lin := rfl
  have restA := s.fnReset_rest n
  generalize s.fnReset n = a at *
  generalize xB : { a.port p.val with ops := (a.port p.val).ops.filter (fun q => q.fn != n) } = x
  have sameB := a.port_portSet_same p.val x
  have otherB := a.port_portSet_other p x
  have fnsB := a.portSet_fns p.val x
  have restB := a.portSet_rest p.val x
  generalize a.portSet p.val x = b at *
  have portC : ∀ j, (b.forgetTickets (fun t => decide (t.ask.agent = hostAgent p.val))).port j = b.port j := fun j => State.port_congr rfl j
  have hostC : (b.forgetTickets (fun t => decide (t.ask.agent = hostAgent p.val))).host = b.host := rfl
  have linC : (b.forgetTickets (fun t => decide (t.ask.agent = hostAgent p.val))).lin =
    { b.lin with tickets := b.lin.tickets.filter (fun k => !decide (k.ask.agent = hostAgent p.val)) } := rfl
  have restC := b.forgetTickets_rest (fun t => decide (t.ask.agent = hostAgent p.val))
  generalize b.forgetTickets (fun t => decide (t.ask.agent = hostAgent p.val)) = c at *
  generalize yD : { c.port p.val with later := (c.port p.val).later.filter (fun e => !cmdOf n e.2) } = y
  have sameD := c.port_portSet_same p.val y
  have otherD := c.port_portSet_other p y
  have fnsD := c.portSet_fns p.val y
  have restD := c.portSet_rest p.val y
  generalize c.portSet p.val y = d at *
  generalize mclear d.irq.vf (64 * p.val + 4 * k) 4 = vf
  have fns : d.host.fns = a.host.fns := by rw [fnsD, hostC, fnsB]
  refine ⟨⟨fun i => ?_, ?_, ?_, ?_⟩, ?_⟩
  · have read : mget d.host.fns i {} = if i = n then {} else mget s.host.fns i {} := by rw [fns]; exact fnsA i
    exact ⟨fun here => read.trans (if_pos here), fun away => read.trans (if_neg away)⟩
  · have eq : d.port (1 - p.val) = s.port (1 - p.val) := by rw [otherD, portC, otherB, portA]
    exact (State.port_congr rfl _).trans eq
  · have eq : d.lin = c.lin := (congrArg State.lin restD :)
    have eq' : b.lin = s.lin := ((congrArg State.lin restB :)).trans linA
    have same : d.lin = { s.lin with tickets := s.lin.tickets.filter (fun k => !decide (k.ask.agent = hostAgent p.val)) } := by
      rw [eq, linC, eq']
    exact same
  · have fD := (congrArg (fun u : State => { u with host := s.host, latches := s.latches, heldWrites := s.heldWrites, irq := s.irq, lin := s.lin }) restD :)
    have fC := (congrArg (fun u : State => { u with host := s.host, latches := s.latches, heldWrites := s.heldWrites, irq := s.irq, lin := s.lin }) restC :)
    have fB := (congrArg (fun u : State => { u with host := s.host, latches := s.latches, heldWrites := s.heldWrites, irq := s.irq, lin := s.lin }) restB :)
    have fA := (congrArg (fun u : State => { u with irq := s.irq, lin := s.lin }) restA :)
    exact fD.trans (fC.trans (fB.trans fA))
  · have eq : d.port p.val = (s.port p.val).without n := by
      rw [sameD, ← yD, portC, sameB, ← xB, portA]
      rfl
    exact (State.port_congr rfl _).trans eq

end Sys2Proof.Machine

/-! # Port resets, links, configuration and DOE, and the statement (R363, R364, R373 to R375) -/

namespace Sys2Proof.Machine

/-! ## A port reset -/

theorem State.fnsReset.trans {s t u : State} {p : Fin 2} {g g' : Nat → Prop} (h : s.fnsReset t p g) (k : t.fnsReset u p g') :
    s.fnsReset u p (fun i => g i ∨ g' i) := by
  refine ⟨fun i => ⟨fun gone => ?_, fun kept => ?_⟩, k.other.trans h.other, ?_, ?_⟩
  · by_cases last : g' i
    · exact (k.fns i).1 last
    · rw [(k.fns i).2 last, (h.fns i).1 (gone.resolve_right last)]
  · rw [(k.fns i).2 (fun last => kept (.inr last)), (h.fns i).2 (fun first => kept (.inl first))]
  · rw [k.lin, h.lin]
    simp only [List.filter_filter, Bool.and_self]
  · have frame := (congrArg (fun v : State => { v with
      host := s.host, latches := s.latches, heldWrites := s.heldWrites, irq := s.irq, lin := s.lin }) k.rest :)
    exact frame.trans h.rest

theorem State.fnsReset.mono {s t : State} {p : Fin 2} {g g' : Nat → Prop} (h : s.fnsReset t p g) (same : ∀ i, g i ↔ g' i) :
    s.fnsReset t p g' :=
  ⟨fun i => ⟨fun gone => (h.fns i).1 ((same i).mpr gone), fun kept => (h.fns i).2 (fun gone => kept ((same i).mp gone))⟩, h.other, h.lin, h.rest⟩

/-- The functions of the VFs below `n` reset. -/
theorem State.vfsReset (s : State) (p : Fin 2) (n : Nat) :
    s.fnsReset ((List.range (n + 1)).foldl (fun u k => u.vfReset p.val k) s) p (fun i => 17 * p.val < i ∧ i ≤ 17 * p.val + 1 + n) := by
  induction n with
  | zero => exact (s.vfReset_effect p 0).1.mono fun i => by omega
  | succ n ih =>
    rw [List.range_succ, List.foldl_append]
    exact (ih.trans (State.vfReset_effect _ p (n + 1)).1).mono fun i => by omega

/-- What of a port a reset of functions leaves: the link. -/
def State.portLink (s : State) (p : Nat) : Port := { st := (s.port p).st, speed := (s.port p).speed, width := (s.port p).width }

theorem State.vfReset_portLink (s : State) (p : Fin 2) (k : Nat) : (s.vfReset p.val k).portLink p.val = s.portLink p.val := by
  rw [State.portLink, (s.vfReset_effect p k).2]
  rfl

theorem State.fnReset_fnsReset {s t : State} {p : Fin 2} {g : Nat → Prop} (h : s.fnsReset t p g) (n : Nat) :
    s.fnsReset (t.fnReset n) p (fun i => g i ∨ i = n) := by
  have fns := t.fnReset_fns n
  have port := t.fnReset_port n
  have lin : (t.fnReset n).lin = t.lin := rfl
  have rest := t.fnReset_rest n
  generalize t.fnReset n = u at *
  refine ⟨fun i => ⟨fun gone => ?_, fun kept => ?_⟩, (port _).trans h.other, lin.trans h.lin, ?_⟩
  · by_cases here : i = n
    · exact (fns i).trans (if_pos here)
    · exact ((fns i).trans (if_neg here)).trans ((h.fns i).1 (gone.resolve_right here))
  · exact ((fns i).trans (if_neg (fun here => kept (.inr here)))).trans ((h.fns i).2 (fun gone => kept (.inl gone)))
  · have frame := (congrArg (fun v : State => { v with
      host := s.host, latches := s.latches, heldWrites := s.heldWrites, irq := s.irq, lin := s.lin }) rest :)
    exact frame.trans h.rest

theorem State.portSet_fnsReset {s t : State} {p : Fin 2} {g : Nat → Prop} (h : s.fnsReset t p g) (v : Port) :
    s.fnsReset (t.portSet p.val v) p g := by
  have fns := t.portSet_fns p.val v
  have other := t.port_portSet_other p v
  have rest := t.portSet_rest p.val v
  generalize t.portSet p.val v = u at *
  have lin : u.lin = t.lin := (congrArg State.lin rest :)
  refine ⟨fun i => by rw [fns]; exact h.fns i, other.trans h.other, lin.trans h.lin, ?_⟩
  have frame := (congrArg (fun v : State => { v with
      host := s.host, latches := s.latches, heldWrites := s.heldWrites, irq := s.irq, lin := s.lin }) rest :)
  exact frame.trans h.rest

/-- The functions of a port reset. -/
def State.allReset (s : State) (p : Nat) : State := ((List.range 16).foldl (fun u k => u.vfReset p k) s).fnReset (17 * p)

theorem State.allReset_effect (s : State) (p : Fin 2) :
    s.fnsReset (s.allReset p.val) p (fun i => i / 17 = p.val) ∧ (s.allReset p.val).portLink p.val = s.portLink p.val := by
  refine ⟨(State.fnReset_fnsReset (s.vfsReset p 15) (17 * p.val)).mono fun i => by omega, ?_⟩
  have same := foldl_keeps (fun u : State => u.portLink p.val) (fun u k => u.vfReset p.val k) (fun u k => u.vfReset_portLink p k) (List.range 16) s
  unfold State.allReset
  generalize (List.range 16).foldl _ s = u at *
  rw [← same, State.portLink, State.fnReset_port, State.portLink]

theorem exec_portReset_resets (port : Fin 2) (flr : Bool) (s : State) : let x := s.port port.val
    ∃ t, exec (.portReset port flr) s = .next t ∧
      t.port port.val = (if flr then { st := x.st, speed := x.speed, width := x.width } else { st := .training }) ∧
      s.fnsReset t port (fun i => i / 17 = port.val) := by
  obtain ⟨reset, link⟩ := s.allReset_effect port
  have run : exec (.portReset port flr) s = .next ((s.allReset port.val).portSet port.val
      (if flr then (s.allReset port.val).portLink port.val else { st := .training })) := rfl
  rw [link] at run
  exact ⟨_, run, State.port_portSet_same .., State.portSet_fnsReset reset _⟩

theorem State.fnsReset.fnsOf {s t : State} {p : Fin 2} {g : Nat → Prop} [DecidablePred g] (h : s.fnsReset t p g) (i : Nat) :
    mget t.host.fns i {} = if g i then {} else mget s.host.fns i {} := by
  split
  next gone => exact (h.fns i).1 gone
  next kept => exact (h.fns i).2 kept

/-! ## Links (R363) -/

theorem exec_hostPortLinkUp_sets {port : Fin 2} {flit : Bool} {speed width : Fin 3} {s : State} (down : (s.port port.val).st ≠ .up) :
    let x := s.port port.val
    ∃ t, exec (.hostPortLinkUp port flit speed width) s = .next t ∧
    t.port port.val = (if flit then { x with st := .up, speed := speed.val, width := 2 ^ width.val } else { x with st := .down }) ∧
    t.port (1 - port.val) = s.port (1 - port.val) ∧ { t with host := s.host } = s := by
  have run : exec (.hostPortLinkUp port flit speed width) s = execHostPortLinkUp port flit speed width s := rfl
  rw [run, execHostPortLinkUp]
  cases flit with
  | true =>
    exact ⟨_, congrArg Host.Outcome.next ((if_neg down).trans (if_neg (by simp))), s.port_portSet_same .., s.port_portSet_other port _,
      s.portSet_rest ..⟩
  | false =>
    exact ⟨_, congrArg Host.Outcome.next ((if_neg down).trans (if_pos rfl)), s.port_portSet_same .., s.port_portSet_other port _,
      s.portSet_rest ..⟩

/-! ## Configuration (R364, R366, R373) -/

/-- A function as a configuration write sets it. -/
def State.configured (s : State) (f : Func) (w : CfgWrite) : Fn :=
  { s.fn f with
    msix := w.msixEnable, fmask := w.fmask, d3 := w.d3,
    bar2Log := if 28 + w.bar2Log.val ≤ (if isPf f then 40 else 36) then 28 + w.bar2Log.val else (s.fn f).bar2Log
    bars := mset (mset (mset (s.fn f).bars 0 w.bar0.toNat 0) 2 w.bar2.toNat 0) 4 w.bar4.toNat 0 }

theorem State.fnSet_rest (s : State) (f : Func) (v : Fn) : { s.fnSet f v with host := s.host } = s := rfl

theorem State.port_fnSet (s : State) (f : Func) (v : Fn) (p : Nat) : (s.fnSet f v).port p = s.port p := rfl

theorem State.fn_portSet (s : State) (p : Nat) (v : Port) (g : Func) : (s.portSet p v).fn g = s.fn g := by
  rw [State.fn, State.portSet_fns, State.fn]

section
variable {f : Func} {w : CfgWrite} {s : State}

theorem exec_configurationWrite_pf {p : Fin 2} (ready : s.mustWait p.val = false) (on : (s.port p.val).vfEnable = true → w.vfEnable = true) :
    ∃ t, exec (.configurationWrite (.pf p) w) s = .next t ∧ t.fn (.pf p) = s.configured (.pf p) w ∧ (∀ g, g ≠ .pf p → t.fn g = s.fn g) ∧
      t.port p.val = { s.port p.val with vfEnable := w.vfEnable, numVfs := w.numVfs.val } ∧ { t with host := s.host } = s := by
  have run : exec (.configurationWrite (.pf p) w) s = execConfigurationWrite (.pf p) w s := rfl
  have keeps : ((s.port p.val).vfEnable && !w.vfEnable) = false := by
    cases was : (s.port p.val).vfEnable
    · rfl
    · rw [on was]; rfl
  have known : exec (.configurationWrite (.pf p) w) s = .next ((s.fnSet (.pf p) (s.configured (.pf p) w)).portSet p.val
      { s.port p.val with vfEnable := w.vfEnable, numVfs := w.numVfs.val }) := by
    rw [run, execConfigurationWrite]
    exact congrArg Host.Outcome.next ((State.inOrder_of_ready ready _ _).trans (if_neg (by rw [State.port_fnSet, keeps]; simp)))
  generalize s.configured (.pf p) w = y at *
  have same := s.fn_fnSet_same (.pf p) y
  have others : ∀ g, g ≠ .pf p → (s.fnSet (.pf p) y).fn g = s.fn g := fun g away => s.fn_fnSet_other y away
  have rest := s.fnSet_rest (.pf p) y
  generalize s.fnSet (.pf p) y = u at *
  refine ⟨_, known, (u.fn_portSet ..).trans same, fun g away => (u.fn_portSet ..).trans (others g away), u.port_portSet_same .., ?_⟩
  have frame := (congrArg (fun v : State => { v with host := s.host })
    (u.portSet_rest p.val { s.port p.val with vfEnable := w.vfEnable, numVfs := w.numVfs.val }) :)
  exact frame.trans rest

theorem State.vfUnmask_idle {p k v : Nat} (none : s.host.pba.contains (64 * (17 * p + 1 + k) + v) = false) : s.vfUnmask p k v = s :=
  if_neg (by rw [none]; simp)

theorem exec_configurationWrite_vf {p : Fin 2} {k : Fin 16} (ready : s.mustWait p.val = false)
    (none : ∀ v, s.host.pba.contains (64 * fnIx (.vf p k) + v) = false) :
    ∃ t, exec (.configurationWrite (.vf p k) w) s = .next t ∧ t.fn (.vf p k) = s.configured (.vf p k) w ∧
      (∀ g, g ≠ .vf p k → t.fn g = s.fn g) ∧ (∀ j, t.port j = s.port j) ∧ { t with host := s.host } = s := by
  have run : exec (.configurationWrite (.vf p k) w) s = execConfigurationWrite (.vf p k) w s := rfl
  have known : exec (.configurationWrite (.vf p k) w) s = .next (s.fnSet (.vf p k) (s.configured (.vf p k) w)) := by
    rw [run, execConfigurationWrite]
    refine congrArg Host.Outcome.next ((State.inOrder_of_ready ready _ _).trans ?_)
    exact foldl_idle fun v _ => State.vfUnmask_idle (none v)
  generalize s.configured (.vf p k) w = y at *
  exact ⟨_, known, s.fn_fnSet_same .., fun g away => s.fn_fnSet_other y away, s.port_fnSet _ _, s.fnSet_rest ..⟩

end

/-! ## DOE (R374) -/

section
variable {f : Func} {vendor : BitVec 16} {kind : BitVec 8} {object : List Byte} {s : State} (ready : s.mustWait (portOf f) = false)
include ready

theorem exec_doeRequest_eq : exec (.doeRequest f vendor kind object) s = .next
    (if 65536 < object.length then s.answer { kind := .abort }
      else if vendor = 1 ∧ kind = 0 then
        (s.send (.doe f (doeDiscovery (object.headD 0).toNat))).answer { data := doeDiscovery (object.headD 0).toNat }
      else s.answer {}) := by
  have run : exec (.doeRequest f vendor kind object) s = execDoeRequest f vendor kind object s := rfl
  rw [run, execDoeRequest, State.inOrder_of_ready ready]

theorem exec_doeRequest_discovery (short : object.length ≤ 65536) (known : vendor = 1 ∧ kind = 0) : let d := doeDiscovery (object.headD 0).toNat
    ∃ t, exec (.doeRequest f vendor kind object) s = .next t ∧ t.outbox = .doe f d :: s.outbox ∧
      t.reply = { data := d } ∧ { t with outbox := s.outbox, reply := s.reply } = s := by
  have eq := exec_doeRequest_eq (vendor := vendor) (kind := kind) (object := object) ready
  rw [if_neg (Nat.not_lt.mpr short), if_pos known] at eq
  exact ⟨_, eq, rfl, rfl, rfl⟩

theorem exec_doeRequest_other (short : object.length ≤ 65536) (other : ¬(vendor = 1 ∧ kind = 0)) :
    ∃ t, exec (.doeRequest f vendor kind object) s = .next t ∧ t.reply = {} ∧ { t with reply := s.reply } = s := by
  have eq := exec_doeRequest_eq (vendor := vendor) (kind := kind) (object := object) ready
  rw [if_neg (Nat.not_lt.mpr short), if_neg other] at eq
  exact ⟨_, eq, rfl, rfl⟩

theorem exec_doeRequest_long (long : 65536 < object.length) :
    ∃ t, exec (.doeRequest f vendor kind object) s = .next t ∧ t.reply.kind = .abort ∧ { t with reply := s.reply } = s := by
  have eq := exec_doeRequest_eq (vendor := vendor) (kind := kind) (object := object) ready
  rw [if_pos long] at eq
  exact ⟨_, eq, rfl, rfl⟩

end

/-- Settles O48: BAR4's bytes, and what each command makes of the functions and the port. -/
theorem hostFunctions : Obligations.HostFunctions := by
  unfold Obligations.HostFunctions
  intro f port s
  dsimp only
  refine ⟨s.bar4Read_get f, fun off bytes waits => ?_, fun off bytes speaks ready => ?_, fun flr => ?_, fun k => ?_,
    fun flit speed width down => exec_hostPortLinkUp_sets down, fun w ready => ⟨fun pf on => ?_, fun vf none => ?_⟩,
    fun vendor kind object ready => ⟨fun short known => exec_doeRequest_discovery ready short known,
      fun short other => exec_doeRequest_other ready short other, fun long => exec_doeRequest_long ready long⟩⟩
  · have run : exec (.bar4Write f off bytes) s = execBar4Write f off bytes s := rfl
    obtain ⟨here, -, rest⟩ := s.putOff_effect (portFin f) (.bar4Write f off bytes)
    rw [portFin_val] at here rest
    exact ⟨_, by rw [run, execBar4Write, State.inOrder_waits waits], here, rest⟩
  · have run : exec (.bar4Write f off bytes) s = execBar4Write f off bytes s := rfl
    exact ⟨_, by rw [run, execBar4Write, State.inOrder_of_ready ready], s.bar4Put_rest .., State.bar4Put_get speaks off.toNat bytes⟩
  · obtain ⟨t, run, link, reset⟩ := exec_portReset_resets port flr s
    exact ⟨t, run, link, reset.other, reset.fnsOf, reset.lin, reset.rest⟩
  · obtain ⟨reset, here⟩ := s.vfReset_effect port k.val
    exact ⟨_, rfl, reset.fnsOf, here, reset.other, reset.lin, reset.rest⟩
  · cases f with
    | vf p k => cases pf
    | pf p => exact exec_configurationWrite_pf ready on
  · cases f with
    | pf p => cases vf
    | vf p k => exact exec_configurationWrite_vf ready none

end Sys2Proof.Machine

/-! # BAR2 requests and the order of accesses on a port (R365, R368 to R372) -/

namespace Sys2Proof.Machine

/-! ## Pieces of a request -/

theorem lineCuts_one {a len : Nat} (some : 0 < len) (within : a % 128 + len ≤ 128) : lineCuts a len = [(a, len)] := by
  have whole : min len (128 - a % 128) = len := by omega
  have nonzero : len ≠ 0 := by omega
  unfold lineCuts
  simp only [cuts, nonzero, if_false, whole, Nat.sub_self, if_true]

theorem enabledRuns_all (o : Nat) (bytes : List Byte) (some : bytes ≠ []) :
    enabledRuns o bytes (List.replicate bytes.length true) = [(o, bytes)] := by
  induction bytes generalizing o with
  | nil => exact absurd rfl some
  | cons b bs ih =>
    cases bs with
    | nil => rfl
    | cons c cs =>
      have rest := ih (o + 1) (by simp)
      rw [List.length_cons, List.replicate_succ, enabledRuns, rest]
      simp

/-! ## A request alone on its port -/

/-- A request of one piece as it begins on a port with no other. -/
def State.alone (s : State) (port : Nat) (q : HostOp) : State :=
  (s.portOps port [q]).urge (masterId (hostAgent port)) (fillUrgency 1 Config.hostBuffer)

theorem State.alone_ops (s : State) (port : Nat) (q : HostOp) : ((s.alone port q).port port).ops = [q] :=
  (congrArg Port.ops (State.port_congr (s := s.portOps port [q]) rfl port)).trans (by rw [State.portOps_port])

section
variable {s : State} {port : Nat} {q : HostOp} {a len : Nat} {bs : List Byte} (todo : q.todo = [(a, len, bs)])
include todo

theorem State.hostPump_alone : (s.portOps port [q]).hostPump port = (s.portOps port [q]).hostRun port 2 := by
  rw [State.hostPump, State.hostWork, State.portOps_port]
  simp [todo]

variable (here : q.remote = none) (near : isRemote a = false)
  (ready : (s.alone port q).memWaits (hostAgent port) q.part a len (if q.write then .write else .read) .clean = false)
include here near ready

theorem State.hostStep_alone : (s.portOps port [q]).hostStep port =
    if q.write then
      (true, ((s.alone port q).memWrite (hostAgent port) q.part a bs .clean).2.pieceDone port q []
        ((s.alone port q).memWrite (hostAgent port) q.part a bs .clean).1 [])
    else (true, ((s.alone port q).memRead (hostAgent port) q.part a len .clean).2.2.pieceDone port q []
      ((s.alone port q).memRead (hostAgent port) q.part a len .clean).1 ((s.alone port q).memRead (hostAgent port) q.part a len .clean).2.1) := by
  have one : (s.portOps port [q]).urge (masterId (hostAgent port)) (fillUrgency ((s.portOps port [q]).port port).ops.length Config.hostBuffer) =
      s.alone port q := by rw [State.portOps_port]; rfl
  unfold State.hostStep
  dsimp only
  rw [one, State.alone_ops]
  dsimp only
  rw [todo]
  dsimp only
  rw [here, near, ready]
  simp only [Option.isSome_none, Bool.false_eq_true, if_false]

end

theorem State.hostStep_none {s : State} {port : Nat} (none : (s.port port).ops = []) :
    s.hostStep port = (false, s.urge (masterId (hostAgent port)) (fillUrgency 0 Config.hostBuffer)) := by
  unfold State.hostStep
  have same : ∀ m u, (s.urge m u).port port = s.port port := fun m u => State.port_congr rfl port
  dsimp only
  rw [same, none]
  rfl

/-- A request that its one piece ends is over: nothing else goes on. -/
theorem State.hostRun_ends {s v : State} {port : Nat} (step : s.hostStep port = (true, v)) (none : (v.port port).ops = []) :
    s.hostRun port 2 = v.urge (masterId (hostAgent port)) (fillUrgency 0 Config.hostBuffer) := by
  rw [State.hostRun, step]
  dsimp only
  rw [State.hostRun, State.hostStep_none none]

theorem State.pieceDone_readOk {s : State} {port : Nat} {q : HostOp} {a len : Nat} {bs : List Byte} (todo : q.todo = [(a, len, bs)])
    (read : q.write = false) (sound : q.poison = false) (data : List Byte) :
    s.pieceDone port q [] 0 data = (s.portOps port []).bar2Done q.fn .ok 0 (q.got ++ data) := by
  simp only [State.pieceDone, todo, read, sound, ne_eq, not_true, false_and, if_false, Bool.false_eq_true, List.isEmpty_nil,
    Bool.not_true, bne_self_eq_false, Bool.or_false]

theorem State.pieceDone_writeOk {s : State} {port : Nat} {q : HostOp} {a len : Nat} {bs : List Byte} (todo : q.todo = [(a, len, bs)])
    (write : q.write = true) (data : List Byte) : s.pieceDone port q [] 0 data = s.portOps port [] := by
  simp only [State.pieceDone, todo, write, ne_eq, not_true, false_and, if_false, if_true, List.isEmpty_nil]

/-! ## BAR2 requests -/

/-- The request that an access of one piece makes. -/
def oneOp (f : Func) (write : Bool) (p : Option Nat) (a len : Nat) (bs : List Byte) (since : Nat) : HostOp :=
  { fn := fnIx f, part := p, write := write, todo := [(a, len, bs)], since := since }

/-- Is a BAR2 access unsupported: of a VF that is not enabled, or beyond the BAR? -/
def State.beyondBar (s : State) (f : Func) (off : Nat) : Bool := !s.speaks f || decide (2 ^ (s.fn f).bar2Log ≤ off)

theorem State.bar2Start_unsupported {f : Func} {s : State} {off : Nat} (out : s.beyondBar f off = true)
    (pieces : List (Nat × Nat × List Byte)) : s.bar2Start f off false pieces = s.bar2Done (fnIx f) .unsupported 0 [] := by
  cases f <;> exact if_pos out

theorem State.bar2Start_denied {f : Func} {s : State} {off : Nat} (inside : s.beyondBar f off = false) (grant : s.bar2Part f = none)
    (pieces : List (Nat × Nat × List Byte)) : s.bar2Start f off false pieces =
      (s.bar2Err (fnIx f) ePerm ((s.fn f).apbase + off) none).bar2Done (fnIx f) .abort ePerm [] := by
  have goes : ¬ s.beyondBar f off = true := by simp [inside]
  unfold State.bar2Start
  dsimp only
  rw [grant]
  cases f <;> exact if_neg goes

theorem State.bar2Start_joins {f : Func} {s : State} {off : Nat} (inside : s.beyondBar f off = false) {p : Option Nat}
    (grant : s.bar2Part f = some p) (empty : (s.port (portOf f)).ops = []) (write : Bool) (len : Nat) (bs : List Byte) :
    s.bar2Start f off write [((s.fn f).apbase + off - (s.fn f).apbase, len, bs)] =
      (s.portOps (portOf f) [oneOp f write p ((s.fn f).apbase + off) len bs ((s.port (portOf f)).arrived.getD s.now)]).hostPump (portOf f) := by
  have goes : ¬ s.beyondBar f off = true := by simp [inside]
  unfold State.bar2Start
  dsimp only
  rw [Nat.add_sub_cancel_left, grant, empty]
  cases f <;> exact if_neg goes

theorem exec_bar2Read_first {f : Func} {off : BitVec 40} {len : Nat} {s : State} (first : (s.port (portOf f)).later = []) :
    exec (.bar2Read f off len) s = .next ((s.answer {}).bar2Start f off.toNat false
      ((lineCuts ((s.fn f).apbase + off.toNat) len).map (fun q => (q.1 - (s.fn f).apbase, q.2, [])))) := by
  have run : exec (.bar2Read f off len) s = execBar2Read f off len s := rfl
  rw [run, execBar2Read]
  exact congrArg Host.Outcome.next (if_pos (by rw [first]; rfl))

/-- A request of one piece that succeeds is over at once. -/
theorem State.bar2_over {s : State} {port : Nat} {q : HostOp} {a len : Nat} {bs : List Byte} {v : State} (todo : q.todo = [(a, len, bs)])
    (step : (s.portOps port [q]).hostStep port = (true, v)) (none : (v.port port).ops = []) :
    let t := (s.portOps port [q]).hostPump port
    t.outbox = v.outbox ∧ t.reply = v.reply ∧ (t.port port).ops = [] ∧ t.hbm = v.hbm ∧ t.lin = v.lin := by
  rw [State.hostPump_alone todo, State.hostRun_ends step none]
  have same : ∀ m u, (v.urge m u).port port = v.port port := fun m u => State.port_congr rfl port
  exact ⟨rfl, rfl, by rw [same]; exact none, rfl, rfl⟩

section
variable {f : Func} {off : BitVec 40} {s : State} (first : (s.port (portOf f)).later = [])
include first

theorem exec_bar2Read_unsupported {len : Nat} (out : s.beyondBar f off.toNat = true) :
    exec (.bar2Read f off len) s = .next ((s.answer {}).bar2Done (fnIx f) .unsupported 0 []) := by
  rw [exec_bar2Read_first first, State.bar2Start_unsupported (s := s.answer {}) out]

variable (inside : s.beyondBar f off.toNat = false)
include inside

theorem exec_bar2Read_denied {len : Nat} (grant : s.bar2Part f = none) : exec (.bar2Read f off len) s =
    .next (((s.answer {}).bar2Err (fnIx f) ePerm ((s.fn f).apbase + off.toNat) none).bar2Done (fnIx f) .abort ePerm []) := by
  rw [exec_bar2Read_first first, State.bar2Start_denied (s := s.answer {}) inside grant]
  rfl

variable (empty : (s.port (portOf f)).ops = []) (near : isRemote ((s.fn f).apbase + off.toNat) = false) {p : Option Nat}
  (grant : s.bar2Part f = some p)
include empty near grant

theorem exec_bar2Read_reads {len : Nat} (some : 0 < len) (within : ((s.fn f).apbase + off.toNat) % 128 + len ≤ 128)
    {begun : State} (is : (s.answer {}).alone (portOf f) (oneOp f false p ((s.fn f).apbase + off.toNat) len []
      ((s.port (portOf f)).arrived.getD s.now)) = begun)
    (ready : begun.memWaits (hostAgent (portOf f)) p ((s.fn f).apbase + off.toNat) len .read .clean = false)
    {r : Nat × List Byte × State} (read : begun.memRead (hostAgent (portOf f)) p ((s.fn f).apbase + off.toNat) len .clean = r) (ok : r.1 = 0) :
    ∃ t, exec (.bar2Read f off len) s = .next t ∧ t.outbox = .completion (fnIx f) .ok 0 r.2.1 :: r.2.2.outbox ∧
        t.reply = { data := r.2.1 } ∧ (t.port (portOf f)).ops = [] ∧ t.hbm = r.2.2.hbm ∧ t.lin = r.2.2.lin := by
  have start := exec_bar2Read_first (off := off) (len := len) first
  have joins := State.bar2Start_joins (s := s.answer {}) inside grant empty false len []
  rw [lineCuts_one some within] at start
  have joined := start.trans (congrArg Host.Outcome.next joins)
  obtain ⟨q, isq⟩ : ∃ q, oneOp f false p ((s.fn f).apbase + off.toNat) len [] ((s.port (portOf f)).arrived.getD s.now) = q := ⟨_, rfl⟩
  have todo : q.todo = [((s.fn f).apbase + off.toNat, len, [])] := by rw [← isq]; rfl
  have reads : q.write = false := by rw [← isq]; rfl
  have part : q.part = p := by rw [← isq]; rfl
  have fn : q.fn = fnIx f := by rw [← isq]; rfl
  have got : q.got = [] := by rw [← isq]; rfl
  rw [isq] at is
  have known : exec (.bar2Read f off len) s = .next (((s.answer {}).portOps (portOf f) [q]).hostPump (portOf f)) := by rw [← isq]; exact joined
  clear start joined joins
  generalize (s.fn f).apbase + off.toNat = a at *
  have step := State.hostStep_alone (s := s.answer {}) (port := portOf f) todo (by rw [← isq]; rfl) near
    (by rw [is, part, reads]; exact ready)
  rw [is, part, reads, if_neg (by simp), read, ok, State.pieceDone_readOk todo reads (by rw [← isq]; rfl), fn, got] at step
  have done := State.portOps_port r.2.2 (portOf f) []
  have ends := State.bar2_over todo step ((congrArg Port.ops (State.port_congr (s := r.2.2.portOps (portOf f) []) rfl (portOf f))).trans
    (by rw [done]))
  exact ⟨_, known, ends⟩

end

theorem exec_bar2Write_first {f : Func} {off : BitVec 40} {bytes : List Byte} {s : State} (first : (s.port (portOf f)).later = [])
    (some : bytes ≠ []) (within : ((s.fn f).apbase + off.toNat) % 128 + bytes.length ≤ 128) :
    exec (.bar2Write f off bytes (List.replicate bytes.length true)) s = .next ((s.answer {}).bar2Start f off.toNat true
      [((s.fn f).apbase + off.toNat - (s.fn f).apbase, bytes.length, bytes)]) := by
  have run : exec (.bar2Write f off bytes (List.replicate bytes.length true)) s =
    execBar2Write f off bytes (List.replicate bytes.length true) s := rfl
  have long : 0 < bytes.length := List.length_pos_iff.mpr some
  rw [run, execBar2Write, enabledRuns_all _ _ some]
  simp only [List.map_cons, List.map_nil, lineCuts_one long within, List.foldl_cons, List.foldl_nil, List.nil_append, List.flatten_cons, List.flatten_nil, List.append_nil, List.take_length, first,
    List.isEmpty_nil, if_true]

theorem exec_bar2Write_writes {f : Func} {off : BitVec 40} {bytes : List Byte} {s : State} (first : (s.port (portOf f)).later = [])
    (inside : s.beyondBar f off.toNat = false) (empty : (s.port (portOf f)).ops = [])
    (near : isRemote ((s.fn f).apbase + off.toNat) = false) {p : Option Nat} (grant : s.bar2Part f = some p) (some : bytes ≠ [])
    (within : ((s.fn f).apbase + off.toNat) % 128 + bytes.length ≤ 128)
    {begun : State} (is : (s.answer {}).alone (portOf f) (oneOp f true p ((s.fn f).apbase + off.toNat) bytes.length bytes
      ((s.port (portOf f)).arrived.getD s.now)) = begun)
    (ready : begun.memWaits (hostAgent (portOf f)) p ((s.fn f).apbase + off.toNat) bytes.length .write .clean = false)
    {r : Nat × State} (write : begun.memWrite (hostAgent (portOf f)) p ((s.fn f).apbase + off.toNat) bytes .clean = r) (ok : r.1 = 0) :
    ∃ t, exec (.bar2Write f off bytes (List.replicate bytes.length true)) s = .next t ∧ t.outbox = r.2.outbox ∧
        (t.port (portOf f)).ops = [] ∧ t.hbm = r.2.hbm ∧ t.lin = r.2.lin := by
  have start := exec_bar2Write_first (off := off) first some within
  have joins := State.bar2Start_joins (s := s.answer {}) inside grant empty true bytes.length bytes
  have joined := start.trans (congrArg Host.Outcome.next joins)
  obtain ⟨q, isq⟩ : ∃ q, oneOp f true p ((s.fn f).apbase + off.toNat) bytes.length bytes ((s.port (portOf f)).arrived.getD s.now) = q := ⟨_, rfl⟩
  have todo : q.todo = [((s.fn f).apbase + off.toNat, bytes.length, bytes)] := by rw [← isq]; rfl
  have writes : q.write = true := by rw [← isq]; rfl
  have part : q.part = p := by rw [← isq]; rfl
  rw [isq] at is
  have known : exec (.bar2Write f off bytes (List.replicate bytes.length true)) s =
    .next (((s.answer {}).portOps (portOf f) [q]).hostPump (portOf f)) := by rw [← isq]; exact joined
  clear start joined joins
  generalize (s.fn f).apbase + off.toNat = a at *
  have step := State.hostStep_alone (s := s.answer {}) (port := portOf f) todo (by rw [← isq]; rfl) near
    (by rw [is, part, writes]; exact ready)
  rw [is, part, writes, if_pos rfl, write, ok, State.pieceDone_writeOk todo writes] at step
  have done := State.portOps_port r.2 (portOf f) []
  obtain ⟨outbox, -, ops, hbm, lin⟩ := State.bar2_over todo step (by rw [done])
  exact ⟨_, known, outbox, ops, hbm, lin⟩

end Sys2Proof.Machine

/-! # Accesses put off, reads whose time is over, and the statement (R368 to R372) -/

namespace Sys2Proof.Machine

/-! ## The order of accesses on a port (R370, R372) -/

theorem State.reqOrder_fn (s : State) (f : Func) (c : Instr) (body : State → State) : s.reqOrder (.fn f) c body = s.inOrder f c body := rfl

/-- An access of a function other than a BAR2 request is made in the order of its port. -/
theorem exec_access {c : Instr} {f : Func} (access : accessOf c = some f) (read : ∀ o k, c ≠ .bar2Read f o k)
    (write : ∀ o b e, c ≠ .bar2Write f o b e) (s : State) : ∃ body, exec c s = .next (s.inOrder f c body) := by
  unfold accessOf at access
  split at access
  any_goals (cases access; exact ⟨_, rfl⟩)
  any_goals (cases access; exact ⟨_, congrArg Host.Outcome.next (State.reqOrder_fn ..)⟩)
  · cases access
    exact absurd rfl (read _ _)
  · cases access
    exact absurd rfl (write _ _ _)
  · cases access

theorem exec_access_waits {c : Instr} {f : Func} {s : State} (access : accessOf c = some f) (later : (s.port (portOf f)).later ≠ [] ∨
    (s.mustWait (portOf f) = true ∧ (∀ o k, c ≠ .bar2Read f o k) ∧ ∀ o b e, c ≠ .bar2Write f o b e)) :
    exec c s = .next (s.putOff (portOf f) c) := by
  have waits : (s.port (portOf f)).later ≠ [] → s.mustWait (portOf f) = true := fun some => by
    simp only [State.mustWait, Bool.or_eq_true, Bool.not_eq_true', List.isEmpty_eq_false_iff]
    exact .inr some
  by_cases read : ∃ o k, c = .bar2Read f o k
  · obtain ⟨o, k, rfl⟩ := read
    have some : (s.port (portOf f)).later ≠ [] := later.resolve_right fun h => h.2.1 o k rfl
    have run : exec (.bar2Read f o k) s = execBar2Read f o k s := rfl
    rw [run, execBar2Read]
    exact congrArg Host.Outcome.next (if_neg (by simpa using some))
  · by_cases write : ∃ o b e, c = .bar2Write f o b e
    · obtain ⟨o, b, e, rfl⟩ := write
      have some : (s.port (portOf f)).later ≠ [] := later.resolve_right fun h => h.2.2 o b e rfl
      have run : exec (.bar2Write f o b e) s = execBar2Write f o b e s := rfl
      rw [run, execBar2Write]
      exact congrArg Host.Outcome.next (if_neg (by simpa using some))
    · obtain ⟨body, run⟩ := exec_access access (fun o k is => read ⟨o, k, is⟩) (fun o b e is => write ⟨o, b, e, is⟩) s
      rw [run, State.inOrder_waits (later.elim waits fun h => h.1)]

/-! ## A read whose time is over (R369) -/

/-- What an aborted read leaves of what it finds. -/
structure State.readAborts (s t : State) (fn code : Nat) : Prop where
  outbox : t.outbox = .completion fn .abort code [] :: s.outbox
  reply : t.reply = { kind := .abort, code := code }
  hbm : t.hbm = s.hbm
  lin : t.lin = s.lin
  now : t.now = s.now
  host : t.host = s.host

theorem State.bar2Done_aborts (s : State) (fn code : Nat) : s.readAborts (s.bar2Done fn .abort code []) fn code :=
  ⟨rfl, rfl, rfl, rfl, rfl, rfl⟩

theorem State.bar2Err_aborts (s : State) (fn code addr : Nat) (part : Option Nat) :
    s.readAborts ((s.bar2Err fn code addr part).bar2Done fn .abort code []) fn code := by
  have log : s.sameButLog (s.bar2Err fn code addr part) := State.err_sameButLog ..
  generalize s.bar2Err fn code addr part = u at *
  have done := u.bar2Done_aborts fn code
  generalize u.bar2Done fn .abort code [] = t at *
  have outbox : u.outbox = s.outbox := (congrArg State.outbox log : _)
  have host : u.host = s.host := (congrArg State.host log : _)
  exact ⟨by rw [done.outbox, outbox], done.reply, done.hbm.trans (State.sameButLog_hbm log), done.lin.trans (State.sameButLog_lin log),
    done.now.trans (State.sameButLog_now log), done.host.trans host⟩

/-- The state in which a read is given up: its time, and its record. -/
def State.givenUp (s : State) (due fn addr : Nat) (part : Option Nat) : State := (s.at due).bar2Err fn eTimeout addr part

theorem State.givenUp_effect (s : State) (due fn addr : Nat) (part : Option Nat) : let t := s.givenUp due fn addr part
    t.now = max s.now due ∧ t.outbox = s.outbox ∧ t.hbm = s.hbm ∧ t.lin = s.lin ∧ t.host = s.host := by
  unfold State.givenUp
  have rest : { s.at due with now := s.now } = s := rfl
  have now : (s.at due).now = max s.now due := rfl
  generalize s.at due = v at *
  have log : v.sameButLog (v.bar2Err fn eTimeout addr part) := State.err_sameButLog ..
  generalize v.bar2Err fn eTimeout addr part = u at *
  exact ⟨(State.sameButLog_now log).trans now, ((congrArg State.outbox log : _) : u.outbox = v.outbox).trans (congrArg State.outbox rest :),
    (State.sameButLog_hbm log).trans (congrArg State.hbm rest :), (State.sameButLog_lin log).trans (congrArg State.lin rest :),
    ((congrArg State.host log : _) : u.host = v.host).trans (congrArg State.host rest :)⟩

section
variable {f : Func} {s : State}

theorem exec_bar2ReadTimeout_alone {q : HostOp} (ops : (s.port (portOf f)).ops = [q]) (own : q.fn = fnIx f) (read : q.write = false) :
    exec (.bar2ReadTimeout f) s = .next (((((s.givenUp (q.since + 30000000) q.fn ((q.todo.map (·.1)).headD 0) q.part).forgetTickets
      (fun t => decide (t.ask.agent = hostAgent (portOf f)))).portOps (portOf f) []).bar2Done q.fn .abort eTimeout []).hostPump (portOf f)) := by
  have run : exec (.bar2ReadTimeout f) s = execBar2ReadTimeout f s := rfl
  have found : (s.port (portOf f)).ops.find? (fun q => q.fn == fnIx f && !q.write) = some q := by
    rw [ops]
    exact List.find?_cons_of_pos (by simp [own, read])
  have none : [q].erase q = [] := by simp
  rw [run, execBar2ReadTimeout]
  dsimp only
  rw [found, ops]
  dsimp only
  rw [none]
  rfl

theorem exec_bar2ReadTimeout_late (writes : ∀ q ∈ (s.port (portOf f)).ops, q.fn = fnIx f → q.write = true) :
    exec (.bar2ReadTimeout f) s = .next (s.lateTimeout f) := by
  have run : exec (.bar2ReadTimeout f) s = execBar2ReadTimeout f s := rfl
  have none : (s.port (portOf f)).ops.find? (fun q => q.fn == fnIx f && !q.write) = Option.none := by
    rw [List.find?_eq_none]
    intro q mem
    simpa using writes q mem
  rw [run, execBar2ReadTimeout]
  dsimp only
  rw [none]

theorem bar2ReadOf_same (f : Func) (o : BitVec 40) (k : Nat) : bar2ReadOf f (.bar2Read f o k) = some o.toNat := by simp [bar2ReadOf]

theorem State.lateTimeout_eq {t0 k : Nat} {o : BitVec 40} {rest : List (Nat × Instr)} (later : (s.port (portOf f)).later = (t0, .bar2Read f o k) :: rest) :
    ∃ addr part, s.lateTimeout f = ((s.givenUp (t0 + 30000000) (fnIx f) addr part).portSet (portOf f)
      { (s.givenUp (t0 + 30000000) (fnIx f) addr part).port (portOf f) with
        later := ((s.givenUp (t0 + 30000000) (fnIx f) addr part).port (portOf f)).later.erase (t0, .bar2Read f o k) }).bar2Done
          (fnIx f) .abort eTimeout [] := by
  have found : (s.port (portOf f)).later.find? (fun e => (bar2ReadOf f e.2).isSome) = some (t0, .bar2Read f o k) := by
    rw [later]
    exact List.find?_cons_of_pos (by rw [bar2ReadOf_same]; rfl)
  unfold State.lateTimeout
  dsimp only
  rw [found]
  exact ⟨_, _, rfl⟩

end

/-- What the end of a read's time leaves, with what stays of its port. -/
structure State.timedOut (s t : State) (f : Func) (due : Nat) (ops : List HostOp) (later : List (Nat × Instr)) : Prop where
  outbox : t.outbox = .completion (fnIx f) .abort eTimeout [] :: s.outbox
  reply : t.reply = { kind := .abort, code := eTimeout }
  hbm : t.hbm = s.hbm
  lin : { t.lin with tickets := s.lin.tickets } = s.lin
  ops : (t.port (portOf f)).ops = ops
  later : (t.port (portOf f)).later = later
  now : t.now = max s.now due

theorem State.forgetTickets_kept (s : State) (g : Ticket → Bool) : (s.forgetTickets g).now = s.now ∧ (s.forgetTickets g).outbox = s.outbox ∧
    (s.forgetTickets g).hbm = s.hbm ∧ { (s.forgetTickets g).lin with tickets := s.lin.tickets } = s.lin ∧ (s.forgetTickets g).host = s.host :=
  ⟨rfl, rfl, rfl, rfl, rfl⟩

theorem State.portSet_kept (s : State) (p : Nat) (v : Port) : (s.portSet p v).now = s.now ∧ (s.portSet p v).outbox = s.outbox ∧
    (s.portSet p v).hbm = s.hbm ∧ (s.portSet p v).lin = s.lin := ⟨rfl, rfl, rfl, rfl⟩

theorem exec_bar2ReadTimeout_aborts {f : Func} {s : State} {q : HostOp} (ops : (s.port (portOf f)).ops = [q]) (own : q.fn = fnIx f)
    (read : q.write = false) : ∃ t, exec (.bar2ReadTimeout f) s = .next t ∧
      s.timedOut t f (q.since + 30000000) [] (s.port (portOf f)).later := by
  have known := exec_bar2ReadTimeout_alone ops own read
  obtain ⟨now, outbox, hbm, lin, host⟩ := s.givenUp_effect (q.since + 30000000) q.fn ((q.todo.map (·.1)).headD 0) q.part
  generalize q.since + 30000000 = due at *
  generalize (q.todo.map (·.1)).headD 0 = addr at *
  generalize s.givenUp due q.fn addr q.part = u at *
  obtain ⟨now', outbox', hbm', lin', host'⟩ := u.forgetTickets_kept (fun t => decide (t.ask.agent = hostAgent (portOf f)))
  generalize u.forgetTickets _ = v at *
  have port : v.port (portOf f) = s.port (portOf f) := State.port_congr (host'.trans host) _
  have set := v.portOps_port (portOf f) []
  obtain ⟨now'', outbox'', hbm'', lin''⟩ := v.portSet_kept (portOf f) { v.port (portOf f) with ops := [] }
  have is : v.portOps (portOf f) [] = v.portSet (portOf f) { v.port (portOf f) with ops := [] } := rfl
  rw [← is] at now'' outbox'' hbm'' lin''
  generalize v.portOps (portOf f) [] = w at *
  have done := w.bar2Done_aborts q.fn eTimeout
  generalize w.bar2Done q.fn .abort eTimeout [] = t at *
  have portT : t.port (portOf f) = { s.port (portOf f) with ops := [] } := by rw [State.port_congr done.host, set, port]
  rw [State.hostPump_empty (by rw [portT])] at known
  refine ⟨t, known, ?_, done.reply, by rw [done.hbm, hbm'', hbm', hbm], ?_, by rw [portT], by rw [portT],
    by rw [done.now, now'', now', now]⟩
  · rw [done.outbox, own, outbox'', outbox', outbox]
  · rw [done.lin, lin'', ← lin]
    exact lin'

theorem exec_bar2ReadTimeout_abortsLater {f : Func} {s : State} {t0 k : Nat} {o : BitVec 40} {rest : List (Nat × Instr)}
    (writes : ∀ q ∈ (s.port (portOf f)).ops, q.fn = fnIx f → q.write = true) (later : (s.port (portOf f)).later = (t0, .bar2Read f o k) :: rest) :
    ∃ t, exec (.bar2ReadTimeout f) s = .next t ∧ s.timedOut t f (t0 + 30000000) (s.port (portOf f)).ops rest := by
  have known := exec_bar2ReadTimeout_late writes
  obtain ⟨addr, part, is⟩ := State.lateTimeout_eq later
  rw [is] at known
  clear is
  generalize t0 + 30000000 = due at *
  obtain ⟨now, outbox, hbm, lin, host⟩ := s.givenUp_effect due (fnIx f) addr part
  generalize s.givenUp due (fnIx f) addr part = u at *
  have port : u.port (portOf f) = s.port (portOf f) := State.port_congr host _
  have gone : (s.port (portOf f)).later.erase (t0, .bar2Read f o k) = rest := by rw [later, List.erase_cons_head]
  rw [port, gone] at known
  have set := u.port_portSet_same (portOf f) { s.port (portOf f) with later := rest }
  obtain ⟨now', outbox', hbm', lin'⟩ := u.portSet_kept (portOf f) { s.port (portOf f) with later := rest }
  generalize u.portSet (portOf f) { s.port (portOf f) with later := rest } = v at *
  have done := v.bar2Done_aborts (fnIx f) eTimeout
  generalize v.bar2Done (fnIx f) .abort eTimeout [] = t at *
  have portT := (State.port_congr done.host (portOf f)).trans set
  refine ⟨t, known, ?_, done.reply, by rw [done.hbm, hbm', hbm], ?_, by rw [portT], by rw [portT], by rw [done.now, now', now]⟩
  · rw [done.outbox, outbox', outbox]
  · rw [done.lin, lin', lin]

/-! ## The statement -/

theorem State.beyondBar_false {s : State} {f : Func} {off : Nat} (speaks : s.speaks f = true) (inside : off < 2 ^ (s.fn f).bar2Log) :
    s.beyondBar f off = false := by
  rw [State.beyondBar, speaks, decide_eq_false (by omega)]
  rfl

theorem State.beyondBar_true {s : State} {f : Func} {off : Nat} (out : s.speaks f = false ∨ 2 ^ (s.fn f).bar2Log ≤ off) :
    s.beyondBar f off = true := by
  rw [State.beyondBar]
  rcases out with mute | beyond
  · rw [mute]
    rfl
  · rw [decide_eq_true beyond, Bool.or_true]

theorem exec_apbaseWrite_eq {f : Func} {v : BitVec 48} {s : State} (ready : s.mustWait (portOf f) = false) :
    exec (.apbaseWrite f v) s = .next (if s.speaks f then
      s.fnSet f { s.fn f with apbase := v.toNat / 2 ^ (s.fn f).bar2Log * 2 ^ (s.fn f).bar2Log } else s) := by
  have run : exec (.apbaseWrite f v) s = execApbaseWrite f v s := rfl
  have low : v.toNat % 2 ^ 48 = v.toNat := Nat.mod_eq_of_lt v.isLt
  rw [run, execApbaseWrite, State.inOrder_of_ready ready, State.setApbase, low]

/-- Settles O47: BAR2 requests and the order of the accesses of a port. -/
theorem hostAperture : Obligations.HostAperture := by
  unfold Obligations.HostAperture
  intro f off s
  dsimp only
  refine ⟨fun first speaks inside empty near => ⟨fun len p grant some within ready ok => ?_, fun bytes p grant some within ready ok => ?_⟩,
    fun first len out => ?_, fun first len speaks inside grant => ?_, fun c access waits => ?_,
    ⟨fun q ops own read => ?_, fun t0 o k rest writes later => ?_⟩, fun v ready => ⟨fun speaks => ?_, fun mute => ?_⟩⟩
  · exact exec_bar2Read_reads first (State.beyondBar_false speaks inside) empty near grant some within rfl ready rfl ok
  · exact exec_bar2Write_writes first (State.beyondBar_false speaks inside) empty near grant some within rfl ready rfl ok
  · exact ⟨_, exec_bar2Read_unsupported first (State.beyondBar_true out), rfl, rfl, rfl, rfl⟩
  · have aborts := (s.answer {}).bar2Err_aborts (fnIx f) ePerm ((s.fn f).apbase + off.toNat) none
    exact ⟨_, exec_bar2Read_denied first (State.beyondBar_false speaks inside) grant, aborts.outbox, aborts.reply, aborts.hbm, aborts.lin⟩
  · obtain ⟨here, other, rest⟩ := s.putOff_effect (portFin f) c
    rw [portFin_val] at here other rest
    exact ⟨_, exec_access_waits access waits, here, other, rest⟩
  · obtain ⟨t, run, out⟩ := exec_bar2ReadTimeout_aborts ops own read
    exact ⟨t, run, ⟨out.outbox, out.reply, out.hbm, out.lin⟩, out.ops, out.later, out.now⟩
  · obtain ⟨t, run, out⟩ := exec_bar2ReadTimeout_abortsLater writes later
    exact ⟨t, run, ⟨out.outbox, out.reply, out.hbm, out.lin⟩, out.ops, out.later, out.now⟩
  · have eq := exec_apbaseWrite_eq (v := v) ready
    rw [if_pos speaks] at eq
    exact ⟨_, eq, s.fn_fnSet_same .., fun g away => s.fn_fnSet_other _ away, s.fnSet_rest ..⟩
  · rw [exec_apbaseWrite_eq ready, if_neg (by simp [mute])]

end Sys2Proof.Machine

/-! # What accesses to memory leave alone

An access moves the lining, HBM, the network and their counters. `State.ledger` is what the statements about base boundaries, commits
and the redundant pair say that such accesses leave as it was. -/

namespace Sys2Proof.Machine

/-- A window of the registers: those that a test picks. -/
def regView (mine : Nat → Bool) (regs : List (Nat × Word)) (k : Nat) : Word := if mine k then mget regs k (regReset (keyOff k)) else 0

/-- TICK.COUNT. -/
def ofCount (k : Nat) : Bool := decide (0x30008 ≤ k ∧ k < 0x30010)

/-- PTN.COMMIT_TICK, PTN.ACTIVE_ID, PTN.SEWCOUNT and PTN.EPOCH. -/
def ofBook (k : Nat) : Bool := decide (0x20028 ≤ k ∧ k < 0x20038 ∨ 0x2003C ≤ k ∧ k < 0x20080)

/-- The TICK registers of the partitions, among them TICK.STEPNO. -/
def ofSteps (k : Nat) : Bool := decide (0x30100 ≤ k ∧ k < 0x30300)

/-- The registers of the ledger in a list of registers. -/
def ledgerView : List (Nat × Word) → Nat → Word := regView (fun k => ofCount k || ofBook k || ofSteps k)

/-- What accesses to memory leave as it is. -/
structure Ledger where
  now : Nat
  tick : Tick
  running : Pat
  phase : Phase
  unstaged : Bool
  committed : Bool
  due : Bool
  pair : Pair
  bar4 : List Host.Cell
  regs : Nat → Word

/-- What accesses to memory leave as it is, of a state. -/
def State.ledger (s : State) : Ledger :=
  ⟨s.now, s.tick, s.ptn.running, s.ptn.phase, s.ptn.staged.isNone, s.ptn.committed, s.ptn.commitDue, s.pair, s.bar4, ledgerView s.regs⟩

@[simp] theorem ledger_mk (pending : List Instr) (now : Nat) (free : Nat) (reply : Reply) (outbox : List Out) (regs : List (Nat × Word)) (setAt : List
    (Nat × Nat)) (latches : List (Nat × Word)) (heldWrites : List (Nat × Word)) (fuses : Fuses) (nor : Nor) (ptn : Ptn) (tick
    : Tick) (parts : List (Nat × Part)) (bar4 : List Host.Cell) (log : Log) (irq : Irq) (host : HostIf) (pins : Pins) (mgmt :
    Mgmt) (lin : Lining) (hbm : Hbm) (net : Net) (cores : List (Nat × CoreSt)) (groups : List (Nat × Group)) (parks : List
    (Nat × ParkRec)) (away : List (Nat × CoreBlock)) (staging : List Host.Cell) (acc : List (Nat × Word)) (accFlags : List
    (Nat × Nat)) (rng : Rng) (fit : List (Nat × FitRec)) (fitLatch : List Word) (jig : Jig) (spl : Spl) (pwr : Pwr) (thm :
    Thm) (esc : Esc) (brup : Brup) (pair : Pair) :
    (State.mk pending now free reply outbox regs setAt latches heldWrites fuses nor ptn tick parts bar4 log irq host pins mgmt lin hbm net
      cores groups parks away staging acc accFlags rng fit fitLatch jig spl pwr thm esc brup pair).ledger =
      ⟨now, tick, ptn.running, ptn.phase, ptn.staged.isNone, ptn.committed, ptn.commitDue, pair, bar4, ledgerView regs⟩ := by
  rw [State.ledger]

@[simp] theorem ledger_fold (s : State) :
    Ledger.mk s.now s.tick s.ptn.running s.ptn.phase s.ptn.staged.isNone s.ptn.committed s.ptn.commitDue s.pair s.bar4 (ledgerView s.regs) = s.ledger := by
  rw [State.ledger]

@[simp] theorem ite_ledger (c : Prop) [Decidable c] (a b : State) :
    (if c then a else b).ledger = if c then a.ledger else b.ledger :=
  apply_ite ..

@[simp] theorem ite_fst_ledger {α : Type} (c : Prop) [Decidable c] (a b : State × α) :
    (if c then a else b).1.ledger = if c then a.1.ledger else b.1.ledger :=
  apply_ite (fun x : State × α => x.1.ledger) ..

@[simp] theorem ite_snd_ledger {α : Type} (c : Prop) [Decidable c] (a b : α × State) :
    (if c then a else b).2.ledger = if c then a.2.ledger else b.2.ledger :=
  apply_ite (fun x : α × State => x.2.ledger) ..

@[simp] theorem ite_snd_snd_ledger {α β : Type} (c : Prop) [Decidable c] (a b : α × β × State) :
    (if c then a else b).2.2.ledger = if c then a.2.2.ledger else b.2.2.ledger :=
  apply_ite (fun x : α × β × State => x.2.2.ledger) ..

/-- What is kept of the state that an operation answered beside something else. -/
theorem snd_ledger {α : Type} {x : α × State} {a : α} {u : State} (h : x = (a, u)) : u.ledger = x.2.ledger := by rw [h]

@[simp] theorem foldl_ledger {β : Type} (f : State → β → State) (h : ∀ u e, (f u e).ledger = u.ledger) (l : List β) (s : State) :
    (l.foldl f s).ledger = s.ledger :=
  foldl_keeps State.ledger f h l s

@[simp] theorem foldl_fst_ledger {α β : Type} (f : State × α → β → State × α) (h : ∀ u e, (f u e).1.ledger = u.1.ledger)
    (l : List β) (s : State × α) : (l.foldl f s).1.ledger = s.1.ledger :=
  foldl_keeps (·.1.ledger) f h l s

@[simp] theorem foldl_snd_ledger {α β : Type} (f : α × State → β → α × State) (h : ∀ u e, (f u e).2.ledger = u.2.ledger)
    (l : List β) (s : α × State) : (l.foldl f s).2.ledger = s.2.ledger :=
  foldl_keeps (·.2.ledger) f h l s

@[simp] theorem foldl_mid_ledger {α β γ : Type} (f : α × State × γ → β → α × State × γ)
    (h : ∀ u e, (f u e).2.1.ledger = u.2.1.ledger) (l : List β) (s : α × State × γ) : (l.foldl f s).2.1.ledger = s.2.1.ledger :=
  foldl_keeps (·.2.1.ledger) f h l s

@[simp] theorem foldl_snd_snd_ledger {α β γ : Type} (f : α × γ × State → β → α × γ × State)
    (h : ∀ u e, (f u e).2.2.ledger = u.2.2.ledger) (l : List β) (s : α × γ × State) : (l.foldl f s).2.2.ledger = s.2.2.ledger :=
  foldl_keeps (·.2.2.ledger) f h l s

@[simp] theorem foldr_ledger {β : Type} (f : β → State → State) (h : ∀ e u, (f e u).ledger = u.ledger) (l : List β) (s : State) :
    (l.foldr f s).ledger = s.ledger := by
  rw [List.foldr_eq_foldl_reverse, foldl_ledger _ fun u e => h e u]

/-! ## One word, one record -/

/-! ## Registers -/

/-- Does a register lie outside what the ledger keeps? -/
def unkept (k : Nat) : Prop := (ofCount k || ofBook k || ofSteps k) = false

theorem unkept_of_ge {k : Nat} (h : 0x30300 ≤ k) : unkept k := by
  simp only [unkept, ofCount, ofBook, ofSteps, Bool.or_eq_false_iff, decide_eq_false_iff_not]
  omega

@[simp] theorem unkept_bank (off sel : Nat) : unkept (bank off sel) := unkept_of_ge (by unfold bank; omega)

@[simp] theorem unkept_bank_add (off sel n : Nat) : unkept (bank off sel + n) := unkept_of_ge (by unfold bank; omega)

@[simp] theorem unkept_high {k : Nat} (n : Nat) (h : 0x30300 ≤ k) : unkept (k + n) := unkept_of_ge (by omega)

@[simp] theorem unkept_ERR_LOST : unkept Reg.ERR_LOST := unkept_of_ge (by decide)
@[simp] theorem unkept_NET_EVT : unkept Reg.NET_EVT := unkept_of_ge (by decide)
@[simp] theorem unkept_LIN_ECC_CORR : unkept Reg.LIN_ECC_CORR := unkept_of_ge (by decide)
@[simp] theorem unkept_LIN_ECC_UNCORR : unkept Reg.LIN_ECC_UNCORR := unkept_of_ge (by decide)
@[simp] theorem unkept_LIN_ECC_STALE_OVF : unkept Reg.LIN_ECC_STALE_OVF := unkept_of_ge (by decide)
@[simp] theorem high_ERR_CLASS : 0x30300 ≤ Reg.ERR_CLASS := by decide
@[simp] theorem high_HBM_PEND : 0x30300 ≤ Reg.HBM_PEND := by decide

theorem regView_mset {mine : Nat → Bool} (regs : List (Nat × Word)) {k : Nat} (v d : Word) (out : mine k = false) :
    regView mine (mset regs k v d) = regView mine regs := by
  funext j
  unfold regView
  by_cases here : mine j = true
  · have ne : j ≠ k := fun e => by rw [e, out] at here; cases here
    rw [if_pos here, if_pos here, mget_mset_other regs v d (regReset (keyOff j)) ne]
  · rw [if_neg here, if_neg here]

@[simp] theorem State.rgSet_view (s : State) {k : Nat} (v : Word) (out : unkept k) : ledgerView (s.rgSet k v).regs = ledgerView s.regs :=
  regView_mset s.regs _ _ out

@[simp] theorem State.rfSet_view (s : State) {k : Nat} (hi lo v : Nat) (out : unkept k) : ledgerView (s.rfSet k hi lo v).regs = ledgerView s.regs :=
  s.rgSet_view _ out

@[simp] theorem State.rbSet_view (s : State) {k : Nat} (i : Nat) (b : Bool) (out : unkept k) : ledgerView (s.rbSet k i b).regs = ledgerView s.regs :=
  s.rgSet_view _ out

@[simp] theorem State.rAdd_view (s : State) {k : Nat} (hi lo n : Nat) (out : unkept k) : ledgerView (s.rAdd k hi lo n).regs = ledgerView s.regs :=
  s.rgSet_view _ out

@[simp] theorem State.rSat_view (s : State) {k : Nat} (hi lo n : Nat) (out : unkept k) : ledgerView (s.rSat k hi lo n).regs = ledgerView s.regs :=
  s.rgSet_view _ out

@[simp] theorem State.evSet_view (s : State) {k : Nat} (i : Nat) (out : unkept k) : ledgerView (s.evSet k i).regs = ledgerView s.regs :=
  s.rgSet_view _ out

@[simp] theorem State.rg64Set_view (s : State) {k : Nat} (v : Nat) (out : unkept k) (high : unkept (k + 4)) :
    ledgerView (s.rg64Set k v).regs = ledgerView s.regs :=
  (State.rgSet_view _ _ high).trans (s.rgSet_view _ out)

@[simp] theorem State.rAdd64_view (s : State) {k : Nat} (n : Nat) (out : unkept k) (high : unkept (k + 4)) :
    ledgerView (s.rAdd64 k n).regs = ledgerView s.regs :=
  s.rg64Set_view _ out high

@[simp] theorem State.rgSet_ledger (s : State) {k : Nat} (v : Word) (out : unkept k) : (s.rgSet k v).ledger = s.ledger :=
  congrArg (Ledger.mk s.now s.tick s.ptn.running s.ptn.phase s.ptn.staged.isNone s.ptn.committed s.ptn.commitDue s.pair s.bar4) (s.rgSet_view v out)

@[simp] theorem State.rfSet_ledger (s : State) {k : Nat} (hi lo v : Nat) (out : unkept k) : (s.rfSet k hi lo v).ledger = s.ledger :=
  s.rgSet_ledger _ out

@[simp] theorem State.rbSet_ledger (s : State) {k : Nat} (i : Nat) (b : Bool) (out : unkept k) : (s.rbSet k i b).ledger = s.ledger :=
  s.rgSet_ledger _ out

@[simp] theorem State.rAdd_ledger (s : State) {k : Nat} (hi lo n : Nat) (out : unkept k) : (s.rAdd k hi lo n).ledger = s.ledger :=
  s.rgSet_ledger _ out

@[simp] theorem State.rSat_ledger (s : State) {k : Nat} (hi lo n : Nat) (out : unkept k) : (s.rSat k hi lo n).ledger = s.ledger :=
  s.rgSet_ledger _ out

@[simp] theorem State.evSet_ledger (s : State) {k : Nat} (i : Nat) (out : unkept k) : (s.evSet k i).ledger = s.ledger :=
  s.rgSet_ledger _ out

@[simp] theorem State.rg64Set_ledger (s : State) {k : Nat} (v : Nat) (out : unkept k) (high : unkept (k + 4)) :
    (s.rg64Set k v).ledger = s.ledger :=
  (State.rgSet_ledger _ _ high).trans (s.rgSet_ledger _ out)

@[simp] theorem State.rAdd64_ledger (s : State) {k : Nat} (n : Nat) (out : unkept k) (high : unkept (k + 4)) :
    (s.rAdd64 k n).ledger = s.ledger :=
  s.rg64Set_ledger _ out high

@[simp] theorem State.rawSet_ledger (s : State) (x : Nat) : (s.rawSet x).ledger = s.ledger :=
  s.evSet_ledger _ (unkept_high _ (by decide))

@[simp] theorem State.answer_ledger (s : State) (r : Reply) : (s.answer r).ledger = s.ledger := rfl
@[simp] theorem State.send_ledger (s : State) (m : Out) : (s.send m).ledger = s.ledger := rfl
@[simp] theorem State.groupSet_ledger (s : State) (g : Nat) (v : Group) : (s.groupSet g v).ledger = s.ledger := rfl

/-! ## Notes -/

@[simp] theorem State.pbaSet_ledger (s : State) (fn v : Nat) (b : Bool) : (s.pbaSet fn v b).ledger = s.ledger := by
  simp [State.pbaSet]

@[simp] theorem State.vfVecSet_ledger (s : State) (port k v : Nat) (x : VfVec) : (s.vfVecSet port k v x).ledger = s.ledger := by
  simp [State.vfVecSet]

@[simp] theorem State.vfSend_ledger (s : State) (port k v : Nat) : (s.vfSend port k v).ledger = s.ledger := by simp [State.vfSend]

@[simp] theorem State.vfEvent_ledger (s : State) (k v : Nat) : (s.vfEvent k v).ledger = s.ledger := by
  unfold State.vfEvent
  dsimp only
  repeat' split
  all_goals simp

@[simp] theorem State.raise_ledger (s : State) (src : Nat) : (s.raise src).ledger = s.ledger := by
  unfold State.raise
  dsimp only
  repeat' split
  all_goals simp

@[simp] theorem State.logQueue_ledger (s : State) (r : ErrRec) : (s.logQueue r).ledger = s.ledger := by simp [State.logQueue]

@[simp] theorem State.logRec_ledger (s : State) (code unit : Nat) (part : Option Nat) (addr syn : Nat) (once : Bool) :
    (s.logRec code unit part addr syn once).ledger = s.ledger := by
  unfold State.logRec
  dsimp only
  repeat' split
  all_goals simp

@[simp] theorem State.err_ledger (s : State) (code unit : Nat) (part : Option Nat) (addr syn : Nat) :
    (s.err code unit part addr syn).ledger = s.ledger := by
  simp [State.err]

/-! ## The network, the lining and HBM -/

@[simp] theorem State.carryOver_ledger (s : State) (dirs : List Nat) (cls bytes : Nat) :
    (s.carryOver dirs cls bytes).ledger = s.ledger := by
  simp -implicitDefEqProofs [State.carryOver]

@[simp] theorem State.carry_ledger (s : State) (a b cls bytes : Nat) : (s.carry a b cls bytes).2.ledger = s.ledger := by
  unfold State.carry
  split <;> simp

@[simp] theorem State.cast_ledger (s : State) (a b cls bytes : Nat) : (s.cast a b cls bytes).ledger = s.ledger := by
  simp [State.cast]

@[simp] theorem State.multicast_ledger (s : State) (a : Nat) (bs : List Nat) (cls bytes : Nat) :
    (s.multicast a bs cls bytes).ledger = s.ledger := by
  simp [State.multicast]

@[simp] theorem State.regulSet_ledger (s : State) (i p : Nat) (v : Regul) : (s.regulSet i p v).ledger = s.ledger := by
  simp [State.regulSet]

@[simp] theorem State.urge_ledger (s : State) (master urgency : Nat) : (s.urge master urgency).ledger = s.ledger := by
  simp [State.urge]

@[simp] theorem State.regDefer_ledger (s : State) (part : Option Nat) (master point : Nat) :
    (s.regDefer part master point).ledger = s.ledger := by
  unfold State.regDefer
  split <;> simp

@[simp] theorem State.charge_ledger (s : State) (part : Option Nat) (master point bytes : Nat) :
    (s.charge part master point bytes).ledger = s.ledger := by
  unfold State.charge
  split <;> simp -implicitDefEqProofs

@[simp] theorem State.secSet_ledger (s : State) (a : Nat) (x : Sec) : (s.secSet a x).ledger = s.ledger := by simp [State.secSet]

@[simp] theorem State.lineSet_ledger (s : State) (l : Nat) (x : Line) : (s.lineSet l x).ledger = s.ledger := by simp [State.lineSet]

@[simp] theorem State.dropCopies_ledger (s : State) (l : Nat) : (s.dropCopies l).ledger = s.ledger := by simp [State.dropCopies]

@[simp] theorem State.secSeal_ledger (s : State) (a : Nat) (x : Sec) (fresh : Bool) : (s.secSeal a x fresh).ledger = s.ledger := by
  simp [State.secSeal]

@[simp] theorem State.lateDirty_ledger (s : State) (die l : Nat) : (s.lateDirty die l).ledger = s.ledger := by simp [State.lateDirty]

@[simp] theorem State.linCorrected_ledger (s : State) (sl : Nat) : (s.linCorrected sl).ledger = s.ledger := by
  simp -implicitDefEqProofs [State.linCorrected]

@[simp] theorem State.linUncorr_ledger (s : State) (sl a : Nat) (part : Option Nat) : (s.linUncorr sl a part).ledger = s.ledger := by
  simp -implicitDefEqProofs [State.linUncorr]

@[simp] theorem State.needPinned_ledger (s : State) (p sl a : Nat) (ecc : Ecc) : (s.needPinned p sl a ecc).2.ledger = s.ledger := by
  unfold State.needPinned
  dsimp only
  repeat' split
  all_goals simp

@[simp] theorem State.staleQueue_ledger (s : State) (sl a : Nat) : (s.staleQueue sl a).ledger = s.ledger := by
  simp [State.staleQueue]

@[simp] theorem State.notify_ledger (s : State) (die a len : Nat) : (s.notify die a len).ledger = s.ledger := by simp [State.notify]

@[simp] theorem State.countLookup_ledger (s : State) (die cls found want : Nat) :
    (s.countLookup die cls found want).ledger = s.ledger := by
  simp -implicitDefEqProofs [State.countLookup]

@[simp] theorem State.countPinned_ledger (s : State) (sl : Nat) : (s.countPinned sl).ledger = s.ledger := by
  simp -implicitDefEqProofs [State.countPinned]

@[simp] theorem State.note_ledger (s : State) (q : Ask) (f : Ticket → Ticket) : (s.note q f).ledger = s.ledger := by
  simp [State.note]

@[simp] theorem State.lineMap_ledger (s : State) (l : Nat) (f : Line → Line) : (s.lineMap l f).ledger = s.ledger := by
  unfold State.lineMap
  split <;> simp

@[simp] theorem State.unticket_ledger (s : State) (q : Ask) : (s.unticket q).ledger = s.ledger := by
  unfold State.unticket
  split <;> simp

@[simp] theorem State.forgetTickets_ledger (s : State) (gone : Ticket → Bool) : (s.forgetTickets gone).ledger = s.ledger := by
  simp [State.forgetTickets]

@[simp] theorem State.turnAt_ledger (s : State) (q : Ask) : (s.turnAt q).ledger = s.ledger := by
  unfold State.turnAt
  split <;> simp

@[simp] theorem State.recallLine_ledger (s : State) (l : Nat) : (s.recallLine l).ledger = s.ledger := by
  unfold State.recallLine
  split <;> simp

@[simp] theorem State.lookedUp_ledger (s : State) (q : Ask) (p : Nat) : (s.lookedUp q p).ledger = s.ledger := by
  simp [State.lookedUp]

@[simp] theorem State.stopAt_ledger (s : State) (q : Ask) : (s.stopAt q).ledger = s.ledger := by simp [State.stopAt]

@[simp] theorem State.waitAtLine_ledger (s : State) (q : Ask) (p : Nat) (y : Line) : (s.waitAtLine q p y).ledger = s.ledger := by
  simp [State.waitAtLine]

@[simp] theorem State.lineBegin_ledger (s : State) (q : Ask) (victim : Option Nat) : (s.lineBegin q victim).ledger = s.ledger := by
  unfold State.lineBegin
  dsimp only
  repeat' split
  all_goals simp

@[simp] theorem State.copyLater_ledger (s : State) (key mask : Nat) : (s.copyLater key mask).ledger = s.ledger := by
  simp [State.copyLater]

@[simp] theorem State.takenIn_ledger (s : State) (q : Ask) (p : Nat) : (s.takenIn q p).ledger = s.ledger := by simp [State.takenIn]

@[simp] theorem State.crossed_ledger (s : State) (a b up down : Nat) : (s.crossed a b up down).2.ledger = s.ledger := by
  simp [State.crossed]

@[simp] theorem State.stick_ledger (s : State) (q : Ask) : (s.stick q).ledger = s.ledger := by simp [State.stick]

@[simp] theorem State.hbmStore_ledger (s : State) (k : Nat) (x : HSec) (bs : List Byte) : (s.hbmStore k x bs).ledger = s.ledger := by
  simp [State.hbmStore]

@[simp] theorem State.hbmWrite_ledger (s : State) (a : Nat) (bs : List Byte) (poison : Bool) : (s.hbmWrite a bs poison).ledger = s.ledger := by simp [State.hbmWrite]

@[simp] theorem State.condemn_ledger (s : State) (n : Nat) : (s.condemn n).ledger = s.ledger := by simp [State.condemn]

@[simp] theorem State.correctedError_ledger (s : State) (n : Nat) : (s.correctedError n).ledger = s.ledger := by simp -implicitDefEqProofs [State.correctedError]

@[simp] theorem State.uncorrectable_ledger (s : State) (pch off a : Nat) (part : Option Nat) (ecc : Ecc) : (s.uncorrectable pch off a part ecc).ledger = s.ledger := by simp -implicitDefEqProofs [State.uncorrectable]

@[simp] theorem State.hbmReadUnder_ledger (s : State) (gen a : Nat) (ecc : Ecc) : (s.hbmReadUnder gen a ecc).2.2.ledger = s.ledger := by simp -implicitDefEqProofs [State.hbmReadUnder]

@[simp] theorem State.hbmRead_ledger (s : State) (a : Nat) (ecc : Ecc) : (s.hbmRead a ecc).2.2.ledger = s.ledger := by simp [State.hbmRead]

@[simp] theorem State.hbmMerge_ledger (s : State) (a : Nat) (bs : List Byte) (ecc : Ecc) : (s.hbmMerge a bs ecc).2.ledger = s.ledger := by simp [State.hbmMerge]

@[simp] theorem State.linPut_ledger (s : State) (a : Nat) (bs : List Byte) : (s.linPut a bs).ledger = s.ledger := by simp [State.linPut]

@[simp] theorem State.linClear_ledger (s : State) (a n : Nat) : (s.linClear a n).ledger = s.ledger := by simp [State.linClear]

@[simp] theorem State.forgetLine_ledger (s : State) (l : Nat) : (s.forgetLine l).ledger = s.ledger := by simp [State.forgetLine]

@[simp] theorem State.install_ledger (s : State) (a : Nat) (bs : List Byte) : (s.install a bs).ledger = s.ledger := by simp [State.install]

@[simp] theorem State.writeDirty_ledger (s : State) (die l : Nat) : (s.writeDirty die l).ledger = s.ledger := by simp [State.writeDirty]

@[simp] theorem State.acceptWriteBack_ledger (s : State) (l sl : Nat) : (s.acceptWriteBack l sl).ledger = s.ledger := by simp [State.acceptWriteBack]

@[simp] theorem State.evict_ledger (s : State) (l : Nat) : (s.evict l).ledger = s.ledger := by
  unfold State.evict
  split <;> simp

@[simp] theorem State.takeWay_ledger (s : State) (w : WayOf) : (s.takeWay w).ledger = s.ledger := by
  unfold State.takeWay
  split <;> simp

@[simp] theorem State.allocLine_ledger (s : State) (p l : Nat) (victim : Option Nat) : (s.allocLine p l victim).ledger = s.ledger := by
  unfold State.allocLine
  split <;> simp

@[simp] theorem State.fetchSector_ledger (s : State) (sl a : Nat) (ecc : Ecc) : (s.fetchSector sl a ecc).2.ledger = s.ledger := by simp [State.fetchSector]

@[simp] theorem State.needSector_ledger (s : State) (p sl a : Nat) (ecc : Ecc) : (s.needSector p sl a ecc).2.ledger = s.ledger := by
  unfold State.needSector
  dsimp only
  repeat' split
  all_goals simp

@[simp] theorem State.storeSector_ledger (s : State) (sl a lo : Nat) (bs : List Byte) (cached : Bool) : (s.storeSector sl a lo bs cached).ledger = s.ledger := by simp [State.storeSector]

@[simp] theorem State.modify_ledger (s : State) (p sl a len : Nat) (f : List Byte → List Byte) (ecc : Ecc) (cached : Bool) : (s.modify p sl a len f ecc cached).2.2.ledger = s.ledger := by simp [State.modify]

@[simp] theorem State.copyTo_ledger (s : State) (p l die mask : Nat) : (s.copyTo p l die mask).ledger = s.ledger := by
  unfold State.copyTo
  dsimp only
  repeat' split
  all_goals simp

@[simp] theorem State.placeCopy_ledger (s : State) (agent : Agent) (p l cls : Nat) (secs : List Nat) : (s.placeCopy agent p l cls secs).ledger = s.ledger := by
  unfold State.placeCopy
  split <;> simp

@[simp] theorem State.serve_ledger (s : State) (agent : Agent) (p a len : Nat) (act : Act) (ecc : Ecc) :
    (s.serve agent p a len act ecc).2.2.ledger = s.ledger := by cases act <;> simp [State.serve]

@[simp] theorem State.lineAccess_ledger (s : State) (agent : Agent) (part : Option Nat) (a len : Nat) (act : Act) (ecc : Ecc)
    (victim : Option Nat) : (s.lineAccess agent part a len act ecc victim).2.2.ledger = s.ledger := by
  unfold State.lineAccess
  cases s.target agent part a with
  | fails c => simp
  | remote => simp
  | idle => cases act <;> simp
  | pinned => cases act <;> simp
  | cached p => simp

@[simp] theorem State.memRead_ledger (s : State) (agent : Agent) (part : Option Nat) (a len : Nat) (ecc : Ecc) : (s.memRead agent part a len ecc).2.2.ledger = s.ledger := by simp [State.memRead]

@[simp] theorem State.memWrite_ledger (s : State) (agent : Agent) (part : Option Nat) (a : Nat) (bs : List Byte) (ecc : Ecc) : (s.memWrite agent part a bs ecc).2.ledger = s.ledger := by simp [State.memWrite]

end Sys2Proof.Machine

/-! # The roles of a pair member (R473, R474, R478 to R481) -/

namespace Sys2Proof.Machine

theorem State.sameButLog_pair {s t : State} (h : s.sameButLog t) : t.pair = s.pair := (congrArg State.pair h :)

/-! ## A role change -/

/-- A change of role may move the member's own state, registers, the log and the free values drawn. -/
def State.roleMoved (s t : State) : Prop :=
  { t with regs := s.regs, setAt := s.setAt, log := s.log, free := s.free, pair := s.pair } = s

section
variable {s t u : State}

theorem State.roleMoved_rfl (s : State) : s.roleMoved s := rfl

theorem State.roleMoved.trans (h : s.roleMoved t) (k : t.roleMoved u) : s.roleMoved u :=
  ((congrArg (fun v : State => { v with regs := s.regs, setAt := s.setAt, log := s.log, free := s.free, pair := s.pair }) k :)).trans h

theorem State.roleMoved_of_sameButLog (h : s.sameButLog t) : s.roleMoved t :=
  (congrArg (fun v : State => { v with free := s.free, pair := s.pair }) h :)

section
variable (h : s.roleMoved t)
include h

theorem State.roleMoved.hbm : t.hbm = s.hbm := (congrArg State.hbm h :)
theorem State.roleMoved.lin : t.lin = s.lin := (congrArg State.lin h :)
theorem State.roleMoved.bar4 : t.bar4 = s.bar4 := (congrArg State.bar4 h :)
theorem State.roleMoved.parts : t.parts = s.parts := (congrArg State.parts h :)
theorem State.roleMoved.ptn : t.ptn = s.ptn := (congrArg State.ptn h :)

end
end

/-- The code that the record of a role change carries. -/
def State.roleCodeOf (s : State) : Nat := errCodes.getD (Config.pick s.free % errCodes.length) eLinkDown

/-- A member that takes a role, before the record of it. -/
def State.roleTaken (s : State) (r : Role) : State := { s with free := s.free + 1, pair := { s.pair with role := r, bufs := [] } }

theorem State.setRole_same {s : State} {r : Role} (same : s.pair.role = r) : s.setRole r = s := if_pos same

/-- A member whose finished steps no longer wait, where it leaves the role of active. -/
def State.roleLeft (s : State) : State := if s.pair.role = .active then s.endMirroring else s

theorem State.setRole_other {s : State} {r : Role} (other : s.pair.role ≠ r) :
    s.setRole r = ((s.roleLeft.roleTaken r).logRec s.roleLeft.roleCodeOf (unitId 0 7) none 0 0 true).raise 149 := if_neg other

/-- A role change is recorded, and the source of the pair is raised. -/
theorem State.roleTaken_noted (u : State) (r : Role) (code : Nat) : let t := ((u.roleTaken r).logRec code (unitId 0 7) none 0 0 true).raise 149
    t.pair = { u.pair with role := r, bufs := [] } ∧ t.rb (Reg.IRQ_RAW + 16) 21 = true ∧ u.roleMoved t := by
  have taken : u.roleMoved (u.roleTaken r) := rfl
  have pair : (u.roleTaken r).pair = { u.pair with role := r, bufs := [] } := rfl
  generalize u.roleTaken r = v at *
  have log : v.sameButLog (v.logRec code (unitId 0 7) none 0 0 true) := State.logRec_sameButLog ..
  generalize v.logRec code (unitId 0 7) none 0 0 true = w at *
  have raised := w.raise_high_sameButLog (src := 149) (by decide)
  exact ⟨(State.sameButLog_pair raised).trans ((State.sameButLog_pair log).trans pair), w.rb_raise_high (by decide),
    (taken.trans (State.roleMoved_of_sameButLog log)).trans (State.roleMoved_of_sameButLog raised)⟩

theorem State.setRole_role (s : State) (r : Role) : (s.setRole r).pair.role = r := by
  by_cases same : s.pair.role = r
  · rw [State.setRole_same same, same]
  · rw [State.setRole_other same]
    exact congrArg Pair.role (State.roleTaken_noted ..).1

/-- A member that is not active takes another role. -/
theorem State.setRole_effect {s : State} {r : Role} (other : s.pair.role ≠ r) (idle : s.pair.role ≠ .active) : let t := s.setRole r
    t.pair = { s.pair with role := r, bufs := [] } ∧ t.rb (Reg.IRQ_RAW + 16) 21 = true ∧ s.roleMoved t := by
  have left : s.roleLeft = s := if_neg idle
  rw [State.setRole_other other, left]
  exact State.roleTaken_noted ..

theorem State.pairEvt_role (s : State) (i : Nat) : (s.pairEvt i).pair = s.pair := rfl

theorem State.goStale_effect {s : State} (standby : s.pair.role = .standby) : let t := s.goStale
    t.pair.role = .stale ∧ t.rb Reg.PAIR_EVT 2 = true ∧ s.roleMoved t := by
  obtain ⟨pair, -, moved⟩ := State.setRole_effect (s := s) (r := .stale) (by rw [standby]; decide) (by rw [standby]; decide)
  have known : s.goStale = (s.setRole .stale).evSet Reg.PAIR_EVT 2 := rfl
  rw [known]
  generalize s.setRole .stale = u at *
  have evt := u.evSet_sameButLog Reg.PAIR_EVT 2
  exact ⟨(congrArg Pair.role (State.sameButLog_pair evt)).trans (congrArg Pair.role pair), rb_evSet_same _ _ _ (by decide),
    moved.trans (State.roleMoved_of_sameButLog evt)⟩

/-! ## Commands of the host (R473, R474) -/

section
variable {f : Func} {s : State} (ready : s.mustWait (portOf f) = false)
include ready

theorem exec_pairCfgWrite (v : Word) : exec (.pairCfgWrite f v) s = .next
    (if !isPf f || !s.pairFitted || s.pair.role != .off ||
        (bitOf v.toNat 0 && (List.range 8).any (fun i => (s.ptn.running.linkOwner (56 + i)).isSome)) then s
      else s.rgSet Reg.PAIR_CFG (v &&& 0xFFFF00F3)) :=
  congrArg Host.Outcome.next (State.inOrder_of_ready ready ..)

theorem exec_arm : exec (.arm f) s = .next (if isPf f && s.pairFitted && s.pair.role == .off then
    ({ s with pair := { s.pair with matched := false, mismatch := false, disarm := false } } : State).setRole .arming else s) :=
  congrArg Host.Outcome.next (State.inOrder_of_ready ready ..)

theorem exec_disarm : exec (.disarm f) s = .next (if isPf f && s.pairFitted && s.pair.role != .off then
    { s with pair := { s.pair with disarm := true } } else s) :=
  congrArg Host.Outcome.next (State.inOrder_of_ready ready ..)

section
variable (pf : isPf f = true) (fitted : s.pairFitted = true)
include pf fitted

theorem pairCfgWrite_off {v : Word} (off : s.pair.role = .off)
    (unowned : bitOf v.toNat 0 = true → ∀ i, i < 8 → s.ptn.running.linkOwner (56 + i) = none) :
    ∃ t, exec (.pairCfgWrite f v) s = .next t ∧ t.rg Reg.PAIR_CFG = v &&& 0xFFFF00F3 ∧ onlyRegs [Reg.PAIR_CFG] s t := by
  have clear : (bitOf v.toNat 0 && (List.range 8).any (fun i => (s.ptn.running.linkOwner (56 + i)).isSome)) = false := by
    cases enable : bitOf v.toNat 0 with
    | false => rfl
    | true =>
      have free : ∀ i ∈ List.range 8, (s.ptn.running.linkOwner (56 + i)).isSome = false := fun i i8 => by
        rw [unowned enable i (List.mem_range.mp i8)]
        rfl
      simpa using free
  have run := exec_pairCfgWrite ready v
  rw [clear, pf, fitted, off, if_neg (by decide)] at run
  exact ⟨_, run, rg_rgSet_same .., State.rgSet_onlyRegs ..⟩

omit pf fitted in
theorem pairCfgWrite_on (v : Word) (on : s.pair.role ≠ .off) : exec (.pairCfgWrite f v) s = .next s := by
  rw [exec_pairCfgWrite ready v]
  exact congrArg Host.Outcome.next (if_pos (by simp [on]))

theorem arm_off (off : s.pair.role = .off) : ∃ t, exec (.arm f) s = .next t ∧ t.pair.role = .arming ∧ t.pair.matched = false ∧
    t.rb (Reg.IRQ_RAW + 16) 21 = true ∧ t.parts = s.parts := by
  have run := exec_arm ready
  rw [if_pos (by simp [pf, fitted, off])] at run
  have role : ({ s with pair := { s.pair with matched := false, mismatch := false, disarm := false } } : State).pair.role = .off := off
  have matched : ({ s with pair := { s.pair with matched := false, mismatch := false, disarm := false } } : State).pair.matched = false := rfl
  have parts : ({ s with pair := { s.pair with matched := false, mismatch := false, disarm := false } } : State).parts = s.parts := rfl
  generalize ({ s with pair := { s.pair with matched := false, mismatch := false, disarm := false } } : State) = u at *
  obtain ⟨pair, raised, moved⟩ := State.setRole_effect (s := u) (r := .arming) (by rw [role]; decide) (by rw [role]; decide)
  generalize u.setRole .arming = t at *
  exact ⟨t, run, congrArg Pair.role pair, (congrArg Pair.matched pair).trans matched, raised, moved.parts.trans parts⟩

omit pf fitted in
theorem arm_on (on : s.pair.role ≠ .off) : exec (.arm f) s = .next s := by
  rw [exec_arm ready, if_neg (by simp [on])]

theorem disarm_on (on : s.pair.role ≠ .off) : ∃ t, exec (.disarm f) s = .next t ∧
    t.pair = { s.pair with disarm := true } ∧ { t with pair := s.pair } = s := by
  have run := exec_disarm ready
  rw [if_pos (by simp [pf, fitted, on])] at run
  exact ⟨_, run, rfl, rfl⟩

end
end

/-! ## PAIR_ALIVE_DROP (R479) -/

theorem pairAliveDrop_takes {s : State} {v : Nat} (alive : s.pair.alive = true) (beat : s.pair.lastBeat = some v) :
    ∃ t, exec .pairAliveDrop s = .next t ∧
    t.now = max s.now (v + 20 * s.ptn.running.basePeriod) ∧ t.pair = { s.pair with alive := false, dropped := some s.pair.slotSeen } ∧
    t.rb Reg.PAIR_EVT 3 = true ∧ sameRegs [Reg.PAIR_EVT] s t := by
  have run : exec .pairAliveDrop s = execPairAliveDrop s := rfl
  rw [execPairAliveDrop, alive, beat] at run
  exact ⟨_, run, rfl, rfl, rb_evSet_same _ _ _ (by decide), sameRegs_evSet _ _ _⟩

/-! ## Base boundaries (R479 to R481) -/

/-- What happened since the last base boundary is forgotten. -/
def State.pairSince (s : State) : State :=
  { s with pair := { s.pair with dropped := none, lost := false, ownNamed := false, peerNamed := false } }

section
variable {s : State} (kept : s.pair.disarm = false)
include kept

theorem State.pairBoundary_standby (standby : s.pair.role = .standby) : s.pairBoundary =
    if decide (2 ≤ s.pair.missed) || s.pair.lost || s.pair.dropped.isSome || s.pair.ownNamed then
      (true, ((s.pairSince.setRole .solo).pairEvt 0).rAdd Reg.PAIR_TAKEOVERS 31 0 1)
    else (false, s.pairSince) := by
  refine (if_neg (by rw [kept]; decide)).trans ?_
  split <;> rename_i role <;> rw [standby] at role
  case h_1 => cases role
  case h_2 => rfl
  case h_3 => cases role
  case h_4 =>
    rename_i _ unlike
    exact (unlike standby).elim

theorem State.pairBoundary_active (active : s.pair.role = .active) : s.pairBoundary =
    if s.pair.peerNamed || s.pair.dropped == some true then
      (false, ((s.pairSince.protectedParts.foldl (fun u p => u.partReset p) s.pairSince).setRole .fenced).pairEvt 1)
    else if decide (2 ≤ s.pair.missed) || s.pair.lost || s.pair.dropped.isSome then (false, s.pairSince.setRole .solo)
    else (false, s.pairSince) := by
  refine (if_neg (by rw [kept]; decide)).trans ?_
  split <;> rename_i role <;> rw [active] at role
  case h_1 => cases role
  case h_2 => cases role
  case h_3 => rfl
  case h_4 => exact (role rfl).elim

theorem pairBoundary_standby_holds (standby : s.pair.role = .standby) : let b := s.pairBoundary
    let lost := 2 ≤ s.pair.missed ∨ s.pair.lost = true ∨ s.pair.dropped ≠ none
    ((lost ∨ s.pair.ownNamed = true) → b.1 = true ∧ b.2.pair.role = .solo ∧ b.2.rb Reg.PAIR_EVT 0 = true) ∧
     (¬lost → s.pair.ownNamed = false → b.1 = false ∧ b.2.pair.role = .standby) := by
  have known := State.pairBoundary_standby kept standby
  refine ⟨fun lost => ?_, fun here unnamed => ?_⟩
  · rw [if_pos (by simpa [or_assoc, Option.isSome_iff_ne_none] using lost)] at known
    rw [known]
    have role := s.pairSince.setRole_role .solo
    generalize s.pairSince.setRole .solo = u at *
    refine ⟨rfl, role, ?_⟩
    have evt : (u.pairEvt 0).rb Reg.PAIR_EVT 0 = true := rb_evSet_same _ _ _ (by decide)
    exact (State.rb_of_rg (rg_rAdd_other _ _ _ _ (by decide)) 0).trans evt
  · rw [if_neg (by simpa [not_or, unnamed, and_assoc] using here)] at known
    rw [known]
    exact ⟨rfl, standby⟩

theorem pairBoundary_active_holds (active : s.pair.role = .active) : let b := s.pairBoundary
    let lost := 2 ≤ s.pair.missed ∨ s.pair.lost = true ∨ s.pair.dropped ≠ none
    b.1 = false ∧
     ((s.pair.peerNamed = true ∨ s.pair.dropped = some true) → b.2.pair.role = .fenced ∧ b.2.rb Reg.PAIR_EVT 1 = true) ∧
     (s.pair.peerNamed = false → s.pair.dropped ≠ some true → lost → b.2.pair.role = .solo) ∧
     (s.pair.peerNamed = false → ¬lost → b.2.pair.role = .active) := by
  have known := State.pairBoundary_active kept active
  by_cases fenced : s.pair.peerNamed = true ∨ s.pair.dropped = some true
  · rw [if_pos (by simpa using fenced)] at known
    rw [known]
    have role := (s.pairSince.protectedParts.foldl (fun u p => u.partReset p) s.pairSince).setRole_role .fenced
    generalize (s.pairSince.protectedParts.foldl (fun u p => u.partReset p) s.pairSince).setRole .fenced = u at *
    exact ⟨rfl, fun _ => ⟨role, rb_evSet_same _ _ _ (by decide)⟩, fun unnamed seen => absurd fenced (by simp [unnamed, seen]),
      fun unnamed here => absurd fenced (by
        rintro (named | seen)
        · rw [unnamed] at named
          cases named
        · exact here (.inr (.inr (by rw [seen]; exact nofun))))⟩
  · rw [if_neg (by simpa using fenced)] at known
    by_cases lost : 2 ≤ s.pair.missed ∨ s.pair.lost = true ∨ s.pair.dropped ≠ none
    · rw [if_pos (by simpa [or_assoc, Option.isSome_iff_ne_none] using lost)] at known
      rw [known]
      exact ⟨rfl, fun named => absurd named fenced, fun _ _ _ => State.setRole_role .., fun _ here => absurd lost here⟩
    · rw [if_neg (by simpa [not_or, and_assoc] using lost)] at known
      rw [known]
      exact ⟨rfl, fun named => absurd named fenced, fun _ _ here => absurd here lost, fun _ _ => active⟩

end

end Sys2Proof.Machine

/-! # Mirror messages taken from a link (R344, R352, R474, R477 to R479) -/

namespace Sys2Proof.Machine

/-! ## What sending leaves alone -/

@[simp] theorem State.linkSet_ledger (s : State) (n : Nat) (v : SLink) : (s.linkSet n v).ledger = s.ledger := rfl

@[simp] theorem State.sendFlit_ledger (s : State) (n : Nat) (f : Flit) : (s.sendFlit n f).ledger = s.ledger := by
  simp [State.sendFlit]

@[simp] theorem State.sendAck_ledger (s : State) (n : Nat) : (s.sendAck n).ledger = s.ledger := by simp [State.sendAck]

@[simp] theorem State.pumpVc_ledger (s : State) (n vc : Nat) : (s.pumpVc n vc).ledger = s.ledger := by
  simp -implicitDefEqProofs [State.pumpVc]

@[simp] theorem State.pump_ledger (s : State) (n : Nat) : (s.pump n).ledger = s.ledger := by simp [State.pump]

@[simp] theorem State.post_ledger (s : State) (n kind : Nat) (m : Msg) : (s.post n kind m).ledger = s.ledger := by simp [State.post]

theorem State.choose_ledger {s u : State} {xs : List Nat} {n : Nat} (h : s.choose xs = some (n, u)) : u.ledger = s.ledger := by
  unfold State.choose at h
  split at h
  · cases h
  all_goals
    cases h
    rfl

section
variable {s t : State} (h : t.ledger = s.ledger)
include h

theorem now_of_ledger : t.now = s.now := congrArg Ledger.now h
theorem pair_of_ledger : t.pair = s.pair := congrArg Ledger.pair h
theorem bar4_of_ledger : t.bar4 = s.bar4 := congrArg Ledger.bar4 h

/-- A register that the ledger keeps. -/
theorem rg_of_ledger {k : Nat} (mine : (ofCount k || ofBook k || ofSteps k) = true) : t.rg k = s.rg k := by
  have view : ledgerView t.regs k = ledgerView s.regs k := congrFun (congrArg Ledger.regs h) k
  unfold ledgerView regView at view
  rwa [if_pos mine, if_pos mine] at view

end

/-! ## A message taken from its buffer -/

/-- The link in its turn, with its urgency, before anything of the oldest MIRROR message is done. -/
def State.mirrorUrge (s : State) (n : Nat) : State :=
  s.urge (masterId .mirror) (fillUrgency (mget (s.link n).rx 2 []).length (vcBuf 2))

/-- A message taken from its buffer, and its credits given back. -/
def State.mirrorRead (v : State) (n : Nat) (m : Msg) (y : SLink) : State :=
  ((v.linkSet n y).sendAck n).rAdd64 (bank Reg.SPL_RXBYTES n) (msgBytes m)

/-- The state in which the effects of a MIRROR message begin. -/
def State.mirrorTaken (s : State) (n : Nat) (m : Msg) (y : SLink) : State := (s.mirrorUrge n).calmed.mirrorRead n m y

theorem State.urge_rest (s : State) (master urgency : Nat) : { s.urge master urgency with net := s.net } = s := rfl

/-- What a MIRROR message taken leaves where it was. -/
structure State.tookMirror (s w : State) : Prop where
  hbm : w.hbm = s.hbm
  lin : w.lin = s.lin.calm
  ptn : w.ptn = s.ptn
  brup : w.brup = s.brup
  parts : w.parts = s.parts
  pair : w.pair = s.pair
  bar4 : w.bar4 = s.bar4
  now : w.now = s.now
  rg : ∀ k, k < 2 ^ 28 → w.rg k = s.rg k

theorem State.mirrorTaken_took (s : State) (n : Nat) (m : Msg) (y : SLink) : s.tookMirror (s.mirrorTaken n m y) := by
  have urged : { s.mirrorUrge n with net := s.net } = s := State.urge_rest ..
  unfold State.mirrorTaken
  generalize s.mirrorUrge n = v at *
  have moved := ((v.calmed.linkSet_sendsOnly n y).trans (State.sendAck_sendsOnly _ n)).trans
    (State.rAdd64_sendsOnly _ (bank Reg.SPL_RXBYTES n) (msgBytes m))
  have ledger : (((v.calmed.linkSet n y).sendAck n).rAdd64 (bank Reg.SPL_RXBYTES n) (msgBytes m)).ledger = v.calmed.ledger := by simp
  have same : ((v.calmed.linkSet n y).sendAck n).regs = v.regs := State.sendAck_regs _ n
  have regs : ∀ k, k < 2 ^ 28 → (v.calmed.mirrorRead n m y).rg k = v.rg k := fun k low =>
    (rg_rg64Set_other _ _ (bank_ge _ _ _ low).1 (bank_ge _ _ _ low).2).trans (rg_of_regs same k)
  have kept : v.calmed.sendsOnly (v.calmed.mirrorRead n m y) ∧ (v.calmed.mirrorRead n m y).ledger = v.calmed.ledger := ⟨moved, ledger⟩
  clear moved ledger same
  generalize v.calmed.mirrorRead n m y = w at *
  have hbm : v.hbm = s.hbm := (congrArg State.hbm urged :)
  have lin : v.lin = s.lin := (congrArg State.lin urged :)
  have ptn : v.ptn = s.ptn := (congrArg State.ptn urged :)
  have brup : v.brup = s.brup := (congrArg State.brup urged :)
  have parts : v.parts = s.parts := (congrArg State.parts urged :)
  have pair : v.pair = s.pair := (congrArg State.pair urged :)
  have bar4 : v.bar4 = s.bar4 := (congrArg State.bar4 urged :)
  have now : v.now = s.now := (congrArg State.now urged :)
  have before : v.regs = s.regs := (congrArg State.regs urged :)
  obtain ⟨moved, ledger⟩ := kept
  exact ⟨moved.hbm.trans hbm, moved.lin.trans (congrArg Lining.calm lin), moved.ptn.trans ptn, moved.brup.trans brup,
    moved.parts.trans parts, (pair_of_ledger ledger).trans pair, (bar4_of_ledger ledger).trans bar4, moved.now.trans now,
    fun k low => (regs k low).trans (rg_of_regs before k)⟩

section
variable {s w : State} (took : s.tookMirror w)
include took

theorem State.tookMirror.rf {k : Nat} (low : k < 2 ^ 28) (hi lo : Nat) : w.rf k hi lo = s.rf k hi lo := State.rf_of_rg (took.rg k low) hi lo

theorem State.tookMirror.rg64 {k : Nat} (low : k + 4 < 2 ^ 28) : w.rg64 k = s.rg64 k :=
  State.rg64_of_rg (took.rg k (by omega)) (took.rg (k + 4) low)

theorem State.tookMirror.claimed (n : Nat) : w.claimed n = s.claimed n := by
  rw [State.claimed, State.rb_of_rg (took.rg Reg.PAIR_CFG (by decide)), State.claimed]

theorem State.tookMirror.mirrorCut : w.mirrorCut = s.mirrorCut := by rw [State.mirrorCut, took.brup, State.mirrorCut]

end

/-- What is done with a MIRROR message once it is taken. -/
def State.mirrorDone (w : State) (n : Nat) (m : Msg) (body : Msg → State → State) : State :=
  if w.claimed n then (if w.mirrorCut then w else body m w) else w.evSet Reg.SPL_EVT 3

/-- A MIRROR message is read and its effects are performed. -/
def State.mirrorAct (n : Nat) (m : Msg) (y : SLink) (body : Msg → State → State) (u : State) : State :=
  (u.mirrorRead n m y).mirrorDone n m body

section
variable {s : State} {n kind : Nat} {m : Msg} {y : SLink} {body : Msg → State → State}
  (taken : (s.link n).next 2 = some (7, m, y)) (ofKind : m.arg.toNat / 2 ^ 60 = kind)
include taken ofKind

theorem State.mirrorIn_taken (free : ((s.mirrorTaken n m y).mirrorDone n m body).lin.stuck = none) :
    s.mirrorIn n kind body = ((s.mirrorTaken n m y).mirrorDone n m body).farUsed := by
  have urged : { s.mirrorUrge n with net := s.net } = s := State.urge_rest ..
  have here : (s.mirrorUrge n).link n = s.link n := by
    generalize s.mirrorUrge n = v at *
    exact State.link_congr (congrArg State.fuses urged :) (congrArg State.spl urged :) n
  have read : s.mirrorIn n kind body = (s.mirrorUrge n).together (State.mirrorAct n m y body) := by
    unfold State.mirrorAct State.mirrorIn State.mirrorDone State.mirrorRead
    dsimp only [-Nat.reducePow]
    rw [show s.urge (masterId .mirror) (fillUrgency (mget (s.link n).rx 2 []).length (vcBuf 2)) = s.mirrorUrge n from rfl, here, taken]
    exact if_neg (fun other => other.elim (fun no => no rfl) (fun no => no ofKind))
  have acts : State.mirrorAct n m y body (s.mirrorUrge n).calmed = (s.mirrorTaken n m y).mirrorDone n m body := rfl
  rw [← acts] at free ⊢
  exact read.trans (State.together_free' free)

theorem State.mirrorIn_claimed (claims : s.claimed n = true) (whole : s.mirrorCut = false)
    (free : (body m (s.mirrorTaken n m y)).lin.stuck = none) : s.mirrorIn n kind body = (body m (s.mirrorTaken n m y)).farUsed := by
  have took := s.mirrorTaken_took n m y
  have done : (s.mirrorTaken n m y).mirrorDone n m body = body m (s.mirrorTaken n m y) := by
    rw [State.mirrorDone, if_pos ((took.claimed n).trans claims), took.mirrorCut, whole, if_neg Bool.false_ne_true]
  rw [State.mirrorIn_taken taken ofKind (by rw [done]; exact free), done]

theorem State.mirrorIn_unclaimed (claims : s.claimed n = false) :
    s.mirrorIn n kind body = ((s.mirrorTaken n m y).evSet Reg.SPL_EVT 3).farUsed := by
  have took := s.mirrorTaken_took n m y
  have done : (s.mirrorTaken n m y).mirrorDone n m body = (s.mirrorTaken n m y).evSet Reg.SPL_EVT 3 := by
    rw [State.mirrorDone, took.claimed, claims, if_neg Bool.false_ne_true]
  have lin : ((s.mirrorTaken n m y).evSet Reg.SPL_EVT 3).lin = s.lin.calm :=
    (State.evSet_lin ..).trans took.lin
  have free : ((s.mirrorTaken n m y).mirrorDone n m body).lin.stuck = none := by
    rw [done, lin]
    rfl
  rw [State.mirrorIn_taken taken ofKind free, done]

end

/-- What most MIRROR messages leave as it is: memory, the step records, the patterns. -/
def mirrorKept (s t : State) : Prop := t.hbm = s.hbm ∧ t.lin = s.lin.calm ∧ t.bar4 = s.bar4 ∧ t.parts = s.parts ∧ t.ptn = s.ptn

/-- A MIRROR message off the claimed links is only noted. -/
def mirrorDropped (s t : State) : Prop := t.rb Reg.SPL_EVT 3 = true ∧ t.pair = s.pair ∧ mirrorKept s t

theorem State.tookMirror.drops {s u : State} (took : s.tookMirror u) : mirrorDropped s (u.evSet Reg.SPL_EVT 3).farUsed := by
  have evt : (u.evSet Reg.SPL_EVT 3).rb Reg.SPL_EVT 3 = true := rb_evSet_same _ _ _ (by decide)
  have rest := u.evSet_rest Reg.SPL_EVT 3
  generalize u.evSet Reg.SPL_EVT 3 = v at *
  have pair : v.pair = u.pair := (congrArg State.pair rest :)
  have hbm : v.hbm = u.hbm := (congrArg State.hbm rest :)
  have lin : v.lin = u.lin := (congrArg State.lin rest :)
  have bar4 : v.bar4 = u.bar4 := (congrArg State.bar4 rest :)
  have parts : v.parts = u.parts := (congrArg State.parts rest :)
  have ptn : v.ptn = u.ptn := (congrArg State.ptn rest :)
  exact ⟨evt, pair.trans took.pair, hbm.trans took.hbm, lin.trans took.lin, bar4.trans took.bar4, parts.trans took.parts, ptn.trans took.ptn⟩

theorem mirrorIn_discards {s : State} {n kind : Nat} {m : Msg} {y : SLink} (body : Msg → State → State)
    (taken : (s.link n).next 2 = some (7, m, y)) (ofKind : m.arg.toNat / 2 ^ 60 = kind) (claims : s.claimed n = false) :
    mirrorDropped s (s.mirrorIn n kind body) := by
  rw [State.mirrorIn_unclaimed (body := body) taken ofKind claims]
  exact (s.mirrorTaken_took n m y).drops

/-! ## HEARTBEAT (R474, R479) -/

/-- Do the settings of the members match, as a HEARTBEAT says them? -/
def State.settingsMatch (s : State) (m : Msg) : Bool :=
  fieldAt m.payload 0 8 == s.ptn.running.id && fieldAt m.payload 8 2 == s.rf Reg.PAIR_CFG 31 16 &&
    fieldAt m.payload 10 1 / 8 % 2 != s.rf Reg.PAIR_CFG 1 1

/-- What a HEARTBEAT makes of a member. -/
def State.heardBeat (m : Msg) (s : State) : State :=
  { s with pair := { s.pair with
    lastBeat := some s.now, alive := true,
    matched := s.pair.matched || (s.pair.role == .arming &&
      (s.settingsMatch m && decide (1 ≤ fieldAt m.payload 10 1 % 8 ∧ fieldAt m.payload 10 1 % 8 ≤ 3))),
    mismatch := if s.pair.role == .arming then !s.settingsMatch m else s.pair.mismatch } }

theorem exec_heartbeat (n : Fin 64) (s : State) : exec (.heartbeat n) s = .next (s.mirrorIn n.val 4 State.heardBeat) := rfl

theorem State.heardBeat_effect (m : Msg) (u : State) : let t := u.heardBeat m
    t.pair.lastBeat = some u.now ∧ t.pair.alive = true ∧ t.pair.role = u.pair.role ∧
      (u.pair.role = .arming → t.pair.mismatch = !u.settingsMatch m ∧
        (u.settingsMatch m = true → 1 ≤ fieldAt m.payload 10 1 % 8 → fieldAt m.payload 10 1 % 8 ≤ 3 → t.pair.matched = true)) ∧
      { t with pair := u.pair } = u := by
  refine ⟨rfl, rfl, rfl, fun arming => ⟨?_, fun same ge le => ?_⟩, rfl⟩
  · exact if_pos (by rw [arming]; rfl)
  · rw [State.heardBeat]
    dsimp only
    rw [arming, same, decide_eq_true ⟨ge, le⟩]
    exact Bool.or_true _

theorem State.heardBeat_stuck (m : Msg) (u : State) : (u.heardBeat m).lin = u.lin := rfl

section
variable {s : State} {n : Fin 64} {m : Msg} {y : SLink}
  (taken : (s.link n.val).next 2 = some (7, m, y)) (ofKind : m.arg.toNat / 2 ^ 60 = 4) (claims : s.claimed n.val = true)
  (whole : s.mirrorCut = false)
include taken ofKind claims whole

theorem heartbeat_taken : ∃ t, exec (.heartbeat n) s = .next t ∧ t.pair.lastBeat = some s.now ∧ t.pair.alive = true ∧
      t.pair.role = s.pair.role ∧
      (let same := fieldAt m.payload 0 8 = s.ptn.running.id ∧ fieldAt m.payload 8 2 = s.rf Reg.PAIR_CFG 31 16 ∧
         fieldAt m.payload 10 1 / 8 % 2 ≠ s.rf Reg.PAIR_CFG 1 1
       s.pair.role = .arming → t.pair.mismatch = decide (¬same) ∧
         (same → 1 ≤ fieldAt m.payload 10 1 % 8 → fieldAt m.payload 10 1 % 8 ≤ 3 → t.pair.matched = true)) ∧ mirrorKept s t := by
  have took := s.mirrorTaken_took n.val m y
  have known := State.mirrorIn_claimed (body := State.heardBeat) taken ofKind claims whole (by
    rw [State.heardBeat_stuck, took.lin]; rfl)
  have settings : (s.mirrorTaken n.val m y).settingsMatch m = s.settingsMatch m := by
    rw [State.settingsMatch, took.ptn, took.rf (by decide), took.rf (by decide), State.settingsMatch]
  rw [exec_heartbeat, known]
  generalize s.mirrorTaken n.val m y = u at *
  obtain ⟨beat, alive, role, arms, rest⟩ := State.heardBeat_effect m u
  rw [took.pair, settings] at arms
  generalize u.heardBeat m = t at *
  have hbm : t.hbm = u.hbm := (congrArg State.hbm rest :)
  have lin : t.lin = u.lin := (congrArg State.lin rest :)
  have bar4 : t.bar4 = u.bar4 := (congrArg State.bar4 rest :)
  have parts : t.parts = u.parts := (congrArg State.parts rest :)
  have ptn : t.ptn = u.ptn := (congrArg State.ptn rest :)
  refine ⟨t.farUsed, rfl, beat.trans (congrArg some took.now), alive, role.trans (congrArg Pair.role took.pair), fun arming => ?_,
    hbm.trans took.hbm, lin.trans took.lin, bar4.trans took.bar4, parts.trans took.parts, ptn.trans took.ptn⟩
  obtain ⟨mismatch, match'⟩ := arms arming
  refine ⟨mismatch.trans ?_, fun same => match' ?_⟩
  · rw [decide_not, State.settingsMatch, Bool.and_assoc, Bool.decide_and, Bool.decide_and, decide_not]
    rfl
  · simpa [State.settingsMatch, and_assoc] using same

end

end Sys2Proof.Machine

/-! # The mirror buffer and the tick delta (R476 to R478) -/

namespace Sys2Proof.Machine

/-! ## Places in the buffer -/

/-- Places stand in rising order. -/
def placesRise (l : List (Nat × Nat)) : Prop := l.Pairwise (fun x y => x.1 ≤ y.1)

theorem mem_insertPlace {x z : Nat × Nat} {l : List (Nat × Nat)} (mem : z ∈ insertPlace x l) : z = x ∨ z ∈ l := by
  induction l with
  | nil => exact .inl (by simpa [insertPlace] using mem)
  | cons y r ih =>
    rw [insertPlace] at mem
    split at mem
    · exact List.mem_cons.mp mem
    · rcases List.mem_cons.mp mem with here | later
      · exact .inr (by rw [here]; exact List.mem_cons_self)
      · exact (ih later).imp_right (List.mem_cons_of_mem _)

theorem placesRise_insertPlace (x : Nat × Nat) {l : List (Nat × Nat)} (rise : placesRise l) : placesRise (insertPlace x l) := by
  induction l with
  | nil => exact List.pairwise_singleton _ _
  | cons y r ih =>
    obtain ⟨first, rest⟩ := List.pairwise_cons.mp rise
    rw [insertPlace]
    split
    · next le =>
      refine List.pairwise_cons.mpr ⟨fun z mem => ?_, rise⟩
      rcases List.mem_cons.mp mem with here | later
      · rw [here]
        exact le
      · exact le.trans (first z later)
    · next gt =>
      refine List.pairwise_cons.mpr ⟨fun z mem => ?_, ih rest⟩
      rcases mem_insertPlace mem with here | later
      · rw [here]
        omega
      · exact first z later

theorem State.mirrorUsed_rise (s : State) : placesRise s.mirrorUsed :=
  foldl_inv (fun _ x rise => placesRise_insertPlace x rise) _ List.Pairwise.nil

/-- A place ends before another begins. -/
def placesApart (x z : Nat × Nat) : Prop := x.1 + x.2 ≤ z.1 ∨ z.1 + z.2 ≤ x.1

/-- A free place begins past `pos`, ends within the buffer, and meets no place in use. -/
theorem freePlaces_free {cap : Nat} {used : List (Nat × Nat)} (rise : placesRise used) (pos : Nat) {x : Nat × Nat}
    (mem : x ∈ freePlaces cap used pos) : pos ≤ x.1 ∧ x.1 + x.2 ≤ cap ∧ ∀ z ∈ used, placesApart x z := by
  induction used generalizing pos with
  | nil =>
    rw [freePlaces] at mem
    split at mem
    · rw [List.mem_singleton.mp mem]
      exact ⟨le_refl _, by omega, nofun⟩
    · cases mem
  | cons y r ih =>
    obtain ⟨first, rest⟩ := List.pairwise_cons.mp rise
    rw [freePlaces] at mem
    rcases List.mem_append.mp mem with gap | later
    · split at gap
      · rw [List.mem_singleton.mp gap]
        refine ⟨le_refl _, by simp only; omega, fun z zMem => .inl ?_⟩
        have le : y.1 ≤ z.1 := by
          rcases List.mem_cons.mp zMem with here | after
          · rw [here]
          · exact first z after
        simp only
        omega
      · cases gap
    · obtain ⟨from_, within, free⟩ := ih rest _ later
      refine ⟨by omega, within, fun z zMem => ?_⟩
      rcases List.mem_cons.mp zMem with here | after
      · rw [here]
        exact .inr (by omega)
      · exact free z after

/-- A taken place is the front of a free one. -/
theorem takePlaces_front {l : List (Nat × Nat)} {n : Nat} {x : Nat × Nat} (mem : x ∈ takePlaces l n) : ∃ z ∈ l, x.1 = z.1 ∧ x.2 ≤ z.2 := by
  induction l generalizing n with
  | nil => cases mem
  | cons y r ih =>
    rw [takePlaces] at mem
    split at mem
    · cases mem
    · rcases List.mem_cons.mp mem with here | later
      · exact ⟨y, List.mem_cons_self, by rw [here], by rw [here]; exact Nat.min_le_left ..⟩
      · obtain ⟨z, zMem, front⟩ := ih later
        exact ⟨z, List.mem_cons_of_mem _ zMem, front⟩

/-- The places that a range of `len` bytes takes in the buffer. -/
def State.placesFor (s : State) (len : Nat) : List (Nat × Nat) :=
  takePlaces (freePlaces (2 ^ 21 * s.rf Reg.PAIR_MBUF_LEN 15 0) s.mirrorUsed 0) len

theorem State.placesFor_free (s : State) (len : Nat) : ∀ x ∈ s.placesFor len, x.1 + x.2 ≤ 2 ^ 21 * s.rf Reg.PAIR_MBUF_LEN 15 0 ∧
    ∀ z ∈ s.mirrorUsed, x.1 + x.2 ≤ z.1 ∨ z.1 + z.2 ≤ x.1 := by
  intro x mem
  obtain ⟨y, yMem, start, size⟩ := takePlaces_front mem
  obtain ⟨-, within, free⟩ := freePlaces_free s.mirrorUsed_rise 0 yMem
  refine ⟨by omega, fun z zMem => ?_⟩
  rcases free z zMem with before | after
  · exact .inl (by omega)
  · exact .inr (by omega)

theorem State.tookMirror.placesFor {s w : State} (took : s.tookMirror w) (len : Nat) : w.placesFor len = s.placesFor len := by
  rw [State.placesFor, took.rf (by decide), State.mirrorUsed, took.pair, State.placesFor, State.mirrorUsed]

/-! ## A range kept (R352, R478) -/

/-- The partition of a MIRROR message. -/
def mirrorPart (m : Msg) : Nat := m.arg.toNat / 2 ^ 56 % 16

theorem mirrorPart_lt (m : Msg) : mirrorPart m < 16 := Nat.mod_lt _ (by decide)

/-- A range noted in the buffer. -/
def State.rangeNoted (s : State) (sheet : Bool) (m : Msg) (ps : List (Nat × Nat)) : State :=
  { s with pair := { s.pair with
      bufs := mset s.pair.bufs (mirrorPart m) (mget s.pair.bufs (mirrorPart m) [] ++ [⟨sheet, m.arg.toNat % 2 ^ 48, ps⟩]) [] } }

section
variable {u : State} {sheet : Bool} {m : Msg} (standby : u.pair.role = .standby)
include standby

theorem State.mirrorKeep_room (room : m.payload.length ≤ placesLen (u.placesFor m.payload.length))
    (idle : ∀ x ∈ u.placesFor m.payload.length, ∀ q ∈ lineCuts (u.rg64 Reg.PAIR_MBUF % 2 ^ 48 + x.1) x.2, u.target .mirror none q.1 = .idle)
    (written : (u.bufWrite (u.placesFor m.payload.length) m.payload).1 = 0) :
    u.mirrorKeep sheet m =
      (u.bufWrite (u.placesFor m.payload.length) m.payload).2.rangeNoted sheet m (u.placesFor m.payload.length) := by
  unfold State.mirrorKeep
  rw [if_neg (by rw [standby]; exact fun no => no rfl)]
  dsimp only [-Nat.reducePow]
  rw [if_neg, if_neg (by exact fun no => no written)]
  · rfl
  · rintro (short | busy)
    · exact Nat.not_lt.mpr room short
    · have all : (u.placesFor m.payload.length).all (fun x => (lineCuts (u.rg64 Reg.PAIR_MBUF % 2 ^ 48 + x.1) x.2).all
          (fun q => decide (u.target .mirror none q.1 = .idle))) = true :=
        List.all_eq_true.mpr fun x mem => List.all_eq_true.mpr fun q cut => decide_eq_true (idle x mem q cut)
      exact Bool.false_ne_true ((congrArg (fun b => !b) all).symm.trans busy)

theorem State.mirrorKeep_full (full : ¬m.payload.length ≤ placesLen (u.placesFor m.payload.length)) :
    u.mirrorKeep sheet m = u.goStale := by
  unfold State.mirrorKeep
  rw [if_neg (by rw [standby]; exact fun no => no rfl)]
  dsimp only [-Nat.reducePow]
  exact if_pos (.inl (Nat.lt_of_not_le full))

end

end Sys2Proof.Machine

/-! # Deltas kept, applied and sent, and the statement about the pair (R473 to R481) -/

namespace Sys2Proof.Machine

/-! ## Ranges kept (R352, R478) -/

section
variable {s : State} {n : Fin 64} {m : Msg} {y : SLink} {kind : Nat} {c : Instr} {sheet : Bool}
  (run : exec c s = .next (s.mirrorIn n.val kind (fun m s => s.mirrorKeep sheet m)))
  (taken : (s.link n.val).next 2 = some (7, m, y)) (ofKind : m.arg.toNat / 2 ^ 60 = kind) (claims : s.claimed n.val = true)
  (whole : s.mirrorCut = false) (standby : s.pair.role = .standby)
include run taken ofKind claims whole standby

theorem mirrorKeep_places (room : m.payload.length ≤ placesLen (s.placesFor m.payload.length))
    (idle : ∀ x ∈ s.placesFor m.payload.length, ∀ q ∈ lineCuts (s.rg64 Reg.PAIR_MBUF % 2 ^ 48 + x.1) x.2,
      (s.mirrorTaken n.val m y).target .mirror none q.1 = .idle)
    (written : ((s.mirrorTaken n.val m y).bufWrite (s.placesFor m.payload.length) m.payload).1 = 0)
    (free : ((s.mirrorTaken n.val m y).bufWrite (s.placesFor m.payload.length) m.payload).2.lin.stuck = none) :
    exec c s = .next
      (((s.mirrorTaken n.val m y).bufWrite (s.placesFor m.payload.length) m.payload).2.rangeNoted sheet m (s.placesFor m.payload.length)).farUsed := by
  have took := s.mirrorTaken_took n.val m y
  have places := took.placesFor m.payload.length
  have base : (s.mirrorTaken n.val m y).rg64 Reg.PAIR_MBUF = s.rg64 Reg.PAIR_MBUF := took.rg64 (by decide)
  have keep : (s.mirrorTaken n.val m y).mirrorKeep sheet m = _ := State.mirrorKeep_room (by rw [took.pair]; exact standby)
    (by rw [places]; exact room) (by rw [places, base]; exact idle) (by rw [places]; exact written)
  rw [places] at keep
  have done := State.mirrorIn_claimed (body := fun m s => s.mirrorKeep sheet m) taken ofKind claims whole (by rw [keep]; exact free)
  rw [run, done, keep]

theorem mirrorKeep_full (full : ¬m.payload.length ≤ placesLen (s.placesFor m.payload.length)) : ∃ t, exec c s = .next t ∧
    t.pair.role = .stale ∧ t.rb Reg.PAIR_EVT 2 = true ∧ mirrorKept s t := by
  have took := s.mirrorTaken_took n.val m y
  have role : (s.mirrorTaken n.val m y).pair.role = .standby := by rw [took.pair]; exact standby
  have keep : (s.mirrorTaken n.val m y).mirrorKeep sheet m = _ := State.mirrorKeep_full role (by
    rw [took.placesFor m.payload.length]
    exact full)
  obtain ⟨stale, evt, moved⟩ := State.goStale_effect role
  have done := State.mirrorIn_claimed (body := fun m s => s.mirrorKeep sheet m) taken ofKind claims whole (by
    rw [keep, moved.lin, took.lin]
    rfl)
  rw [run, done, keep]
  generalize s.mirrorTaken n.val m y = u at *
  generalize u.goStale = t at *
  exact ⟨t.farUsed, rfl, stale, evt, moved.hbm.trans took.hbm, moved.lin.trans took.lin, moved.bar4.trans took.bar4,
    moved.parts.trans took.parts, moved.ptn.trans took.ptn⟩

end

theorem State.rangeNoted_effect (w : State) (sheet : Bool) (m : Msg) (ps : List (Nat × Nat)) : let t := (w.rangeNoted sheet m ps).farUsed
    mget t.pair.bufs (mirrorPart m) [] = mget w.pair.bufs (mirrorPart m) [] ++ [⟨sheet, m.arg.toNat % 2 ^ 48, ps⟩] ∧
    (∀ q, q ≠ mirrorPart m → mget t.pair.bufs q [] = mget w.pair.bufs q []) ∧ t.hbm = w.hbm ∧ t.bar4 = w.bar4 :=
  ⟨mget_mset_same .., fun _ ne => mget_mset_other _ _ _ _ ne, rfl, rfl⟩

/-! ## The COMMIT (R478) -/

/-- Is a delta read from the buffer what its COMMIT says? -/
def State.commitGood (v : State) (m : Msg) (code : Nat) (data : List (List Byte)) : Bool :=
  code == 0 && fieldAt m.payload 16 8 == data.flatten.length && fieldAt m.payload 24 4 == crc32c data.flatten &&
    fieldAt m.payload 0 8 == v.rg64 (Reg.PAIR_LASTCOMMIT + 8 * mirrorPart m) + 1

/-- The ranges of a delta copied to their places, sheets last. -/
def State.applyAll (v : State) (p : Nat) (rs : List (MirRange × List Byte)) : Bool × State :=
  (rs.filter (fun r => r.1.sheet)).foldl (fun x r => State.applyRange x p r)
    ((rs.filter (fun r => !r.1.sheet)).foldl (fun x r => State.applyRange x p r) (true, v))

/-- The slate's head of a COMMIT written, and its ranges no longer kept. -/
def State.headMirrored (v : State) (m : Msg) : State :=
  { v with
    bar4 := writeCells v.bar4 (mirrorPart m * 2 ^ 20 + 4) (leBytes (fieldAt m.payload 8 4 % 4096) 4)
    pair := { v.pair with bufs := mset v.pair.bufs (mirrorPart m) [] [] } }

/-- The cost in use of a COMMIT taken over. -/
def State.useMirrored (v : State) (m : Msg) : State :=
  v.setResidents (mirrorPart m) (if fieldAt m.payload 12 4 % 2 ^ 24 = 0 then [] else [(2 ^ 64, fieldAt m.payload 12 4 % 2 ^ 24)])

/-- The step of a COMMIT taken over. -/
def State.stepMirrored (v : State) (m : Msg) : State :=
  (v.rg64Set (Reg.TICK_STEPNO + 0x20 * mirrorPart m) (fieldAt m.payload 0 8 + 1)).rg64Set (Reg.PAIR_LASTCOMMIT + 8 * mirrorPart m)
    (fieldAt m.payload 0 8)

/-- What a COMMIT makes of the state behind the reading of its delta. -/
def State.commitRead (v : State) (m : Msg) (ranges : List MirRange) (code : Nat) (data : List (List Byte)) : State :=
  let x := if v.commitGood m code data then v.applyAll (mirrorPart m) (ranges.zip data) else (false, v)
  if !x.1 then x.2.goStale else ((x.2.headMirrored m).useMirrored m).stepMirrored m

/-- What a COMMIT makes of a member. -/
def State.commitIn (m : Msg) (s : State) : State :=
  if s.pair.role ≠ .standby then s
  else
    let b := mget s.pair.bufs (mirrorPart m) []
    let d := s.deltaRead b
    d.2.2.commitRead m b d.1 d.2.1

theorem exec_mirrorCommit (n : Fin 64) (s : State) : exec (.mirrorCommit n) s = .next (s.mirrorIn n.val 3 State.commitIn) := rfl

theorem State.commitRead_bad {v : State} {m : Msg} {ranges : List MirRange} {code : Nat} {data : List (List Byte)}
    (bad : v.commitGood m code data = false) : v.commitRead m ranges code data = v.goStale := by
  unfold State.commitRead
  rw [bad]
  rfl

/-- A sheet copied to its place. -/
def State.sheetMirrored (v : State) (p a : Nat) (bs : List Byte) : State :=
  { v with bar4 := writeCells v.bar4 (p * 2 ^ 20 + a) bs }

theorem State.applyAll_sheet {v : State} {p a : Nat} {ps : List (Nat × Nat)} {bs : List Byte} (fits : a + bs.length ≤ 2 ^ 20) :
    v.applyAll p [(⟨true, a, ps⟩, bs)] = (true, v.sheetMirrored p a bs) := by
  have applied : State.applyRange (true, v) p (⟨true, a, ps⟩, bs) = (true, v.sheetMirrored p a bs) := by
    exact (if_neg Bool.false_ne_true).trans ((if_pos rfl).trans (if_neg (Nat.not_lt.mpr fits)))
  exact applied

theorem State.commitRead_sheet {v : State} {m : Msg} {a code : Nat} {ps : List (Nat × Nat)} {bs : List Byte}
    (good : v.commitGood m code [bs] = true) (fits : a + bs.length ≤ 2 ^ 20) : v.commitRead m [⟨true, a, ps⟩] code [bs] =
      (((v.sheetMirrored (mirrorPart m) a bs).headMirrored m).useMirrored m).stepMirrored m := by
  unfold State.commitRead
  rw [good, if_pos rfl]
  have zipped : [(⟨true, a, ps⟩ : MirRange)].zip [bs] = [(⟨true, a, ps⟩, bs)] := rfl
  rw [zipped, State.applyAll_sheet fits]
  rfl

/-! ## What a COMMIT writes -/

/-- A sheet and the head of its slate are written where they belong. -/
theorem State.headMirrored_bar4 (v : State) (m : Msg) {a : Nat} (bs : List Byte) (low : 8 ≤ a) :
    let t := (v.sheetMirrored (mirrorPart m) a bs).headMirrored m
    readCells t.bar4 (mirrorPart m * 2 ^ 20 + a) bs.length = bs ∧
    leNat (readCells t.bar4 (mirrorPart m * 2 ^ 20 + 4) 4) = fieldAt m.payload 8 4 % 4096 ∧
    (∀ b, (b < mirrorPart m * 2 ^ 20 + 4 ∨ mirrorPart m * 2 ^ 20 + a + bs.length ≤ b) → mget t.bar4 b 0 = mget v.bar4 b 0) := by
  unfold State.headMirrored State.sheetMirrored
  dsimp only [-Nat.reducePow]
  generalize mirrorPart m * 2 ^ 20 = page
  generalize fieldAt m.payload 8 4 = head
  have four : (leBytes (head % 4096) 4).length = 4 := length_leBytes ..
  refine ⟨?_, ?_, fun b out => ?_⟩
  · rw [readCells_congr (fun k ge _ => mget_writeCells_other _ _ _ _ (.inr (by rw [four]; omega)))]
    exact readCells_writeCells ..
  · have whole := readCells_writeCells (leBytes (head % 4096) 4) (writeCells v.bar4 (page + a) bs) (page + 4)
    rw [four] at whole
    rw [whole, leNat_leBytes]
    omega
  · rw [mget_writeCells_other _ _ _ _ (by rw [four]; omega), mget_writeCells_other _ _ _ _ (by omega)]

theorem State.headMirrored_rest (v : State) (m : Msg) (a : Nat) (bs : List Byte) :
    let t := (v.sheetMirrored (mirrorPart m) a bs).headMirrored m
    { t with bar4 := v.bar4, pair := v.pair } = v ∧ t.pair = { v.pair with bufs := mset v.pair.bufs (mirrorPart m) [] [] } := ⟨rfl, rfl⟩

theorem State.useMirrored_effect (v : State) (m : Msg) : let t := v.useMirrored m
    { t with parts := v.parts, regs := v.regs } = v ∧
    t.rf (Reg.TICK_RESIDENT + 0x20 * mirrorPart m) 23 0 = fieldAt m.payload 12 4 % 2 ^ 24 := by
  unfold State.useMirrored State.setResidents
  have cost : ∀ use : Nat, ((if use = 0 then [] else [(2 ^ 64, use)] : List (Nat × Nat)).map (·.2)).sum = use := fun use => by
    split
    · next none => rw [none]; rfl
    · simp
  rw [cost]
  have start : ∀ rs, { v.partMap (mirrorPart m) (fun x => { x with residents := rs }) with parts := v.parts } = v := fun _ => rfl
  have started := start (if fieldAt m.payload 12 4 % 2 ^ 24 = 0 then [] else [(2 ^ 64, fieldAt m.payload 12 4 % 2 ^ 24)])
  generalize v.partMap (mirrorPart m) _ = w at *
  generalize fieldAt m.payload 12 4 = use at *
  have rest := w.rfSet_rest (Reg.TICK_RESIDENT + 0x20 * mirrorPart m) 23 0 (use % 2 ^ 24)
  have field := rf_rfSet_same w (Reg.TICK_RESIDENT + 0x20 * mirrorPart m) 23 0 (use % 2 ^ 24) (by decide) (by decide)
  generalize w.rfSet (Reg.TICK_RESIDENT + 0x20 * mirrorPart m) 23 0 (use % 2 ^ 24) = t at *
  refine ⟨((congrArg (fun x : State => { x with parts := v.parts, regs := v.regs }) rest :)).trans
    (congrArg (fun x : State => { x with regs := v.regs }) started :), field.trans ?_⟩
  exact Nat.mod_mod _ _

theorem State.rg64Set_rest (s : State) (k v : Nat) : { s.rg64Set k v with regs := s.regs } = s := rfl

theorem State.stepMirrored_effect (v : State) (m : Msg) : let t := v.stepMirrored m
    { t with regs := v.regs } = v ∧
    t.rg64 (Reg.TICK_STEPNO + 0x20 * mirrorPart m) = (fieldAt m.payload 0 8 + 1) % 2 ^ 64 ∧
    t.rg64 (Reg.PAIR_LASTCOMMIT + 8 * mirrorPart m) = fieldAt m.payload 0 8 % 2 ^ 64 ∧
    t.rg (Reg.TICK_RESIDENT + 0x20 * mirrorPart m) = v.rg (Reg.TICK_RESIDENT + 0x20 * mirrorPart m) := by
  have less := mirrorPart_lt m
  unfold State.stepMirrored
  generalize mirrorPart m = p at *
  generalize fieldAt m.payload 0 8 = k
  have apart : ∀ (w : State) (j : Nat), j < 0xF0200 → (w.rg64Set (Reg.PAIR_LASTCOMMIT + 8 * p) k).rg j = w.rg j := fun w j low =>
    rg_rg64Set_other w k (by unfold Reg.PAIR_LASTCOMMIT; omega) (by unfold Reg.PAIR_LASTCOMMIT; omega)
  have first : (v.rg64Set (Reg.TICK_STEPNO + 0x20 * p) (k + 1)).rg64 (Reg.TICK_STEPNO + 0x20 * p) = (k + 1) % 2 ^ 64 := rg64_rg64Set_same ..
  have restFirst := v.rg64Set_rest (Reg.TICK_STEPNO + 0x20 * p) (k + 1)
  have other := rg_rg64Set_other v (k := Reg.TICK_STEPNO + 0x20 * p) (j := Reg.TICK_RESIDENT + 0x20 * p) (k + 1)
    (by unfold Reg.TICK_RESIDENT Reg.TICK_STEPNO; omega) (by unfold Reg.TICK_RESIDENT Reg.TICK_STEPNO; omega)
  generalize v.rg64Set (Reg.TICK_STEPNO + 0x20 * p) (k + 1) = w at *
  have rest := w.rg64Set_rest (Reg.PAIR_LASTCOMMIT + 8 * p) k
  refine ⟨((congrArg (fun x : State => { x with regs := v.regs }) rest :)).trans restFirst, (State.rg64_of_rg (apart _ _ (by unfold Reg.TICK_STEPNO; omega)) (apart _ _ (by unfold Reg.TICK_STEPNO; omega))).trans first,
    rg64_rg64Set_same .., (apart _ _ (by unfold Reg.TICK_RESIDENT; omega)).trans other⟩

/-- What the COMMIT of one sheet does to the member that took it. -/
theorem State.commitRead_applies {v : State} {m : Msg} {a code : Nat} {ps : List (Nat × Nat)} {bs : List Byte}
    (good : v.commitGood m code [bs] = true) (low : 8 ≤ a) (fits : a + bs.length ≤ 2 ^ 20) :
    let t := v.commitRead m [⟨true, a, ps⟩] code [bs]
    t.lin = v.lin ∧
    readCells t.bar4 (mirrorPart m * 2 ^ 20 + a) bs.length = bs ∧
    leNat (readCells t.bar4 (mirrorPart m * 2 ^ 20 + 4) 4) = fieldAt m.payload 8 4 % 4096 ∧
    (∀ b, (b < mirrorPart m * 2 ^ 20 + 4 ∨ mirrorPart m * 2 ^ 20 + a + bs.length ≤ b) → mget t.bar4 b 0 = mget v.bar4 b 0) ∧
    t.rg64 (Reg.TICK_STEPNO + 0x20 * mirrorPart m) = (fieldAt m.payload 0 8 + 1) % 2 ^ 64 ∧
    t.rg64 (Reg.PAIR_LASTCOMMIT + 8 * mirrorPart m) = fieldAt m.payload 0 8 % 2 ^ 64 ∧
    t.rf (Reg.TICK_RESIDENT + 0x20 * mirrorPart m) 23 0 = fieldAt m.payload 12 4 % 2 ^ 24 ∧ mget t.pair.bufs (mirrorPart m) [] = [] ∧
    t.pair.role = v.pair.role ∧ t.hbm = v.hbm := by
  rw [State.commitRead_sheet good fits]
  obtain ⟨sheet, head, others⟩ := v.headMirrored_bar4 m bs low
  obtain ⟨rest, pair⟩ := v.headMirrored_rest m a bs
  generalize (v.sheetMirrored (mirrorPart m) a bs).headMirrored m = w at *
  obtain ⟨restUse, use⟩ := w.useMirrored_effect m
  generalize w.useMirrored m = x at *
  obtain ⟨restStep, step, last, resident⟩ := x.stepMirrored_effect m
  generalize x.stepMirrored m = t at *
  have bar4 : t.bar4 = w.bar4 := ((congrArg State.bar4 restStep :)).trans (congrArg State.bar4 restUse :)
  have pairs : t.pair = w.pair := ((congrArg State.pair restStep :)).trans (congrArg State.pair restUse :)
  have hbm : t.hbm = w.hbm := ((congrArg State.hbm restStep :)).trans (congrArg State.hbm restUse :)
  have lin : t.lin = w.lin := ((congrArg State.lin restStep :)).trans (congrArg State.lin restUse :)
  have hbmW : w.hbm = v.hbm := (congrArg State.hbm rest :)
  have linW : w.lin = v.lin := (congrArg State.lin rest :)
  dsimp only
  rw [bar4, pairs, pair]
  exact ⟨lin.trans linW, sheet, head, others, step, last, (State.rf_of_rg resident 23 0).trans use,
    mget_mset_same v.pair.bufs (mirrorPart m) [] [], rfl, hbm.trans hbmW⟩

/-! ## The delta of a finished step (R476, R477) -/

@[simp] theorem unkept_PAIR_EVT : unkept Reg.PAIR_EVT := unkept_of_ge (by decide)

@[simp] theorem State.mirrorPost_ledger (s : State) (kind p a : Nat) (bs : List Byte) : (s.mirrorPost kind p a bs).ledger = s.ledger := by
  unfold State.mirrorPost
  split
  · rfl
  · next chosen => rw [State.post_ledger, State.choose_ledger chosen]

@[simp] theorem State.mirrorRange_ledger (x : State × List Byte) (kind p a : Nat) (bs : List Byte) :
    (State.mirrorRange x kind p a bs).1.ledger = x.1.ledger := by
  unfold State.mirrorRange
  exact foldl_fst_ledger _ (fun u e => State.mirrorPost_ledger ..) _ _

@[simp] theorem State.deltaErr_ledger (s : State) (p code a : Nat) : (s.deltaErr p code a).ledger = s.ledger := by
  simp [State.deltaErr, State.pairEvt]

@[simp] theorem State.deltaEntry_ledger (x : State × List Byte) (p e : Nat) : (State.deltaEntry x p e).1.ledger = x.1.ledger := by
  unfold State.deltaEntry
  have read : ∀ (u : State) a len, (u.memRead .mirror (some p) a len .clean).2.2.ledger = u.ledger := fun u a len =>
    State.memRead_ledger ..
  have head := read x.1 e 16
  generalize x.1.memRead .mirror (some p) e 16 .clean = r at *
  obtain ⟨c, bs, u⟩ := r
  dsimp only at head ⊢
  split
  · rw [State.deltaErr_ledger, head]
  · split
    · rw [State.deltaErr_ledger, head]
    · have data := read u (fieldAt bs 0 8 % 2 ^ 48) (fieldAt bs 8 4)
      generalize u.memRead .mirror (some p) (fieldAt bs 0 8 % 2 ^ 48) (fieldAt bs 8 4) .clean = q at *
      obtain ⟨c, ds, v⟩ := q
      dsimp only at data ⊢
      split
      · rw [State.deltaErr_ledger, data, head]
      · rw [State.mirrorRange_ledger, data, head]

/-- A delta handed over for sending. -/
def State.deltaSent (v : State) (n k : Nat) : State :=
  let w := v.rg64Set (Reg.PAIR_LASTCOMMIT + 8 * n) k
  { w with pair := { w.pair with sent := w.pair.sent ++ [n] } }

theorem State.stepNo_of_ledger {s t : State} (h : t.ledger = s.ledger) {n : Nat} (n16 : n < 16) :
    t.rg64 (Reg.TICK_STEPNO + 0x20 * n) = s.rg64 (Reg.TICK_STEPNO + 0x20 * n) := by
  have mine : ∀ k, 0x30100 ≤ k ∧ k < 0x30300 → (ofCount k || ofBook k || ofSteps k) = true := fun k within => by
    rw [ofSteps, decide_eq_true within, Bool.or_true]
  exact State.rg64_of_rg (rg_of_ledger h (mine _ (by unfold Reg.TICK_STEPNO; omega))) (rg_of_ledger h (mine _ (by unfold Reg.TICK_STEPNO; omega)))

theorem State.deltaEntries_ledger (u : State) (n list count : Nat) : ((List.range count).foldl
    (fun x i => State.deltaEntry x n (list + 64 + 16 * i)) (u, ([] : List Byte))).1.ledger = u.ledger :=
  foldl_fst_ledger _ (fun _ _ => State.deltaEntry_ledger ..) _ _

theorem State.mirrorDelta_sends {s t : State} {n : Nat} (n16 : n < 16) (delta : t = s.mirrorDelta n) : ∃ v : State, v.ledger = s.ledger ∧
    t = v.deltaSent n (s.rg64 (Reg.TICK_STEPNO + 0x20 * n) - 1) := by
  unfold State.mirrorDelta at delta
  extract_lets list base at delta
  have head : (s.memRead .mirror (some n) list 64 .clean).2.2.ledger = s.ledger := State.memRead_ledger ..
  generalize s.memRead .mirror (some n) list 64 .clean = r at *
  obtain ⟨c, h, u⟩ := r
  dsimp -zeta only [-Nat.reducePow] at delta
  extract_lets start count x k sheet len front use v z own at delta
  have noted : start.ledger = s.ledger := by
    show (if c = 0 then u else u.deltaErr n c list).ledger = _
    split
    · exact head
    · rw [State.deltaErr_ledger]
      exact head
  have entries : x.1.ledger = s.ledger := (State.deltaEntries_ledger start n list count).trans noted
  have number : k = s.rg64 (Reg.TICK_STEPNO + 0x20 * n) - 1 := congrArg (· - 1) (State.stepNo_of_ledger entries n16)
  have sheets := (State.mirrorRange_ledger x 2 n sheet (readCells x.1.bar4 (base + sheet) len)).trans entries
  refine ⟨v, (State.mirrorPost_ledger ..).trans sheets, ?_⟩
  rw [← number]
  exact delta

theorem State.deltaSent_effect (v : State) (n k : Nat) : let t := (v.deltaSent n k).farUsed
    t.pair = { v.pair with sent := v.pair.sent ++ [n] } ∧ t.bar4 = v.bar4 ∧ t.rg64 (Reg.PAIR_LASTCOMMIT + 8 * n) = k % 2 ^ 64 := by
  unfold State.deltaSent
  have last := rg64_rg64Set_same v (Reg.PAIR_LASTCOMMIT + 8 * n) k
  have rest := v.rg64Set_rest (Reg.PAIR_LASTCOMMIT + 8 * n) k
  generalize v.rg64Set (Reg.PAIR_LASTCOMMIT + 8 * n) k = w at *
  have bar4 : w.bar4 = v.bar4 := (congrArg State.bar4 rest :)
  have pair : w.pair = v.pair := (congrArg State.pair rest :)
  rw [← pair]
  exact ⟨rfl, bar4, last⟩

theorem exec_mirrorSend (q : Fin 16) (s : State) : exec (.mirrorSend q) s = .next
    (if !s.pair.waiting.contains q.val || s.pair.sent.contains q.val || s.pairLinks.isEmpty then s
      else s.together (fun s => s.mirrorDelta q.val)) := rfl

theorem mirrorSend_goes {q : Fin 16} {s : State} (waits : s.pair.waiting.contains q.val = true)
    (unsent : s.pair.sent.contains q.val = false) (links : s.pairLinks ≠ [])
    (free : (s.calmed.mirrorDelta q.val).lin.stuck = none) : ∃ t, exec (.mirrorSend q) s = .next t ∧
      t.pair = { s.pair with sent := s.pair.sent ++ [q.val] } ∧ t.bar4 = s.bar4 ∧
      t.rg64 (Reg.PAIR_LASTCOMMIT + 8 * q.val) = (s.rg64 (Reg.TICK_STEPNO + 0x20 * q.val) - 1) % 2 ^ 64 := by
  obtain ⟨v, ledger, sends⟩ := State.mirrorDelta_sends (s := s.calmed) q.isLt rfl
  have pair : v.pair = s.pair := pair_of_ledger ledger
  have bar4 : v.bar4 = s.bar4 := bar4_of_ledger ledger
  have number : s.calmed.rg64 (Reg.TICK_STEPNO + 0x20 * q.val) = s.rg64 (Reg.TICK_STEPNO + 0x20 * q.val) := rfl
  rw [number] at sends
  obtain ⟨sent, memory, last⟩ := v.deltaSent_effect q.val (s.rg64 (Reg.TICK_STEPNO + 0x20 * q.val) - 1)
  rw [← sends] at sent memory last
  rw [pair] at sent
  have goes : ¬(!s.pair.waiting.contains q.val || s.pair.sent.contains q.val || s.pairLinks.isEmpty) = true := by
    rw [waits, unsent]
    simpa using links
  exact ⟨_, congrArg Host.Outcome.next ((if_neg goes).trans (State.together_free' free)), sent, memory.trans bar4, last⟩

theorem mirrorSend_stays {q : Fin 16} {s : State} (idle : s.pair.sent.contains q.val = true ∨ s.pairLinks = []) :
    exec (.mirrorSend q) s = .next s := by
  rw [exec_mirrorSend, if_pos]
  rcases idle with sent | none
  · rw [sent, Bool.or_true, Bool.true_or]
  · rw [none, List.isEmpty_nil, Bool.or_true]

end Sys2Proof.Machine

/-! # The statement about the redundant pair (R473 to R481) -/

namespace Sys2Proof.Machine

theorem State.urge_calmed (s : State) (master urgency : Nat) :
    ({ s.urge master urgency with lin := s.lin.calm } : State) = (s.urge master urgency).calmed := rfl

/-! ## The COMMIT taken (R478) -/

section
variable {s : State} {n : Fin 64} {m : Msg} {y : SLink}
  (taken : (s.link n.val).next 2 = some (7, m, y)) (ofKind : m.arg.toNat / 2 ^ 60 = 3) (claims : s.claimed n.val = true)
  (whole : s.mirrorCut = false) (standby : s.pair.role = .standby)
include taken ofKind claims whole standby

/-- A COMMIT reads its delta from the buffer first. -/
theorem mirrorCommit_reads {u : State} (uEq : u = s.mirrorTaken n.val m y) {d : Nat × List (List Byte) × State}
    (read : d = u.deltaRead (mget s.pair.bufs (mirrorPart m) []))
    (free : (d.2.2.commitRead m (mget s.pair.bufs (mirrorPart m) []) d.1 d.2.1).lin.stuck = none) :
    exec (.mirrorCommit n) s = .next (d.2.2.commitRead m (mget s.pair.bufs (mirrorPart m) []) d.1 d.2.1).farUsed := by
  have took := s.mirrorTaken_took n.val m y
  have commit : State.commitIn m (s.mirrorTaken n.val m y) = d.2.2.commitRead m (mget s.pair.bufs (mirrorPart m) []) d.1 d.2.1 := by
    rw [State.commitIn, took.pair, standby, if_neg (fun no => no rfl), read, uEq]
  rw [exec_mirrorCommit, State.mirrorIn_claimed taken ofKind claims whole (by rw [commit]; exact free), commit]

theorem mirrorCommit_stale {u : State} (uEq : u = s.mirrorTaken n.val m y) {d : Nat × List (List Byte) × State}
    (read : d = u.deltaRead (mget s.pair.bufs (mirrorPart m) [])) (free : d.2.2.lin.stuck = none)
    (bad : d.2.2.commitGood m d.1 d.2.1 = false) (role : d.2.2.pair.role = .standby) : ∃ t, exec (.mirrorCommit n) s = .next t ∧
      t.pair.role = .stale ∧ t.rb Reg.PAIR_EVT 2 = true ∧ t.hbm = d.2.2.hbm ∧ t.lin = d.2.2.lin ∧ t.bar4 = d.2.2.bar4 := by
  have stale := State.commitRead_bad (ranges := mget s.pair.bufs (mirrorPart m) []) bad
  obtain ⟨goes, evt, moved⟩ := State.goStale_effect role
  have run := mirrorCommit_reads taken ofKind claims whole standby uEq read (by rw [stale, moved.lin]; exact free)
  rw [stale] at run
  exact ⟨_, run, goes, evt, moved.hbm, moved.lin, moved.bar4⟩

theorem mirrorCommit_applies {u : State} (uEq : u = s.mirrorTaken n.val m y) {d : Nat × List (List Byte) × State}
    (read : d = u.deltaRead (mget s.pair.bufs (mirrorPart m) [])) (free : d.2.2.lin.stuck = none) {a : Nat} {bs : List Byte}
    {ps : List (Nat × Nat)} (good : d.2.2.commitGood m d.1 d.2.1 = true)
    (one : mget s.pair.bufs (mirrorPart m) [] = [⟨true, a, ps⟩]) (sheet : d.2.1 = [bs]) (low : 8 ≤ a) (fits : a + bs.length ≤ 2 ^ 20) :
    ∃ t, exec (.mirrorCommit n) s = .next t ∧
       readCells t.bar4 (mirrorPart m * 2 ^ 20 + a) bs.length = bs ∧
       leNat (readCells t.bar4 (mirrorPart m * 2 ^ 20 + 4) 4) = fieldAt m.payload 8 4 % 4096 ∧
       (∀ b, (b < mirrorPart m * 2 ^ 20 + 4 ∨ mirrorPart m * 2 ^ 20 + a + bs.length ≤ b) → mget t.bar4 b 0 = mget d.2.2.bar4 b 0) ∧
       t.rg64 (Reg.TICK_STEPNO + 0x20 * mirrorPart m) = (fieldAt m.payload 0 8 + 1) % 2 ^ 64 ∧
       t.rg64 (Reg.PAIR_LASTCOMMIT + 8 * mirrorPart m) = fieldAt m.payload 0 8 % 2 ^ 64 ∧
       t.rf (Reg.TICK_RESIDENT + 0x20 * mirrorPart m) 23 0 = fieldAt m.payload 12 4 % 2 ^ 24 ∧ mget t.pair.bufs (mirrorPart m) [] = [] ∧
       t.pair.role = d.2.2.pair.role ∧ t.hbm = d.2.2.hbm := by
  rw [sheet] at good
  obtain ⟨lin, effects⟩ := State.commitRead_applies (ps := ps) good low fits
  have run := mirrorCommit_reads taken ofKind claims whole standby uEq read (by rw [one, sheet, lin]; exact free)
  rw [one, sheet] at run
  exact ⟨_, run, effects⟩

end

theorem State.commitGood_iff (v : State) (m : Msg) (code : Nat) (data : List (List Byte)) : v.commitGood m code data = true ↔
    code = 0 ∧ fieldAt m.payload 16 8 = data.flatten.length ∧ fieldAt m.payload 24 4 = crc32c data.flatten ∧
      fieldAt m.payload 0 8 = v.rg64 (Reg.PAIR_LASTCOMMIT + 8 * mirrorPart m) + 1 := by
  simp [State.commitGood, and_assoc]

/-! ## The statement -/

/-- Settles O60: the commands of the host and the heartbeats by one lemma each; a MIRROR message through `State.mirrorIn_taken`, the places
it takes apart from those in use because these stand in rising order; the delta by what reading memory leaves alone; a base boundary by
the branches of `State.pairBoundary`. -/
theorem pairMembers : Obligations.PairMembers := by
  unfold Obligations.PairMembers
  intro f n m y s u p comes kept buf
  have uEq : u = s.mirrorTaken n.val m y := by
    unfold State.mirrorTaken State.mirrorRead State.mirrorUrge
    rw [← State.urge_calmed]
  clear_value u
  refine ⟨fun ready pf fitted => ⟨fun v off unowned => pairCfgWrite_off ready pf fitted off unowned,
      fun v on => pairCfgWrite_on ready v on, fun off => arm_off ready pf fitted off,
      fun on => ⟨arm_on ready on, disarm_on ready pf fitted on⟩⟩,
    fun claims whole => ⟨fun comes => heartbeat_taken comes.1 comes.2 claims whole, ?_, ?_⟩, ?_,
    fun v alive beat => pairAliveDrop_takes alive beat,
    fun q waits => ⟨fun unsent links free => ?_, mirrorSend_stays⟩,
    fun undisarmed => ⟨pairBoundary_standby_holds undisarmed, pairBoundary_active_holds undisarmed⟩⟩
  · intro kind c sheet mem comes ps w room standby
    have run : exec c s = .next (s.mirrorIn n.val kind (fun m s => s.mirrorKeep sheet m)) := by
      rcases List.mem_cons.mp mem with data | sheets
      · cases data
        rfl
      · cases List.mem_singleton.mp sheets
        rfl
    refine ⟨s.placesFor_free _, fun fits idle written free => ?_, fun full => mirrorKeep_full run comes.1 comes.2 claims whole standby full⟩
    have goes := mirrorKeep_places run comes.1 comes.2 claims whole standby fits (by rw [← uEq]; exact idle) (by rw [← uEq]; exact written)
      (by rw [← uEq]; exact free)
    rw [← uEq] at goes
    exact ⟨_, goes, State.rangeNoted_effect ..⟩
  · intro k d good comes standby free
    have isGood : good ↔ d.2.2.commitGood m d.1 d.2.1 = true := (State.commitGood_iff ..).symm
    refine ⟨fun bad role => mirrorCommit_stale comes.1 comes.2 claims whole standby uEq rfl free ?_ role,
      fun a bs ps fine one sheet low fits => mirrorCommit_applies comes.1 comes.2 claims whole standby uEq rfl free (isGood.mp fine) one sheet low fits⟩
    exact Bool.eq_false_iff.mpr fun fine => bad (isGood.mpr fine)
  · intro claims kind c mem comes
    have run : ∃ body, exec c s = .next (s.mirrorIn n.val kind body) := by
      simp only [List.mem_cons, List.not_mem_nil, or_false, Prod.mk.injEq] at mem
      rcases mem with ⟨rfl, rfl⟩ | ⟨rfl, rfl⟩ | ⟨rfl, rfl⟩ | ⟨rfl, rfl⟩
      · exact ⟨_, rfl⟩
      · exact ⟨_, rfl⟩
      · exact ⟨_, exec_mirrorCommit n s⟩
      · exact ⟨_, exec_heartbeat n s⟩
    obtain ⟨body, run⟩ := run
    exact ⟨_, run, mirrorIn_discards body comes.1 comes.2 claims⟩
  · rw [show ({ s with lin := s.lin.calm } : State) = s.calmed from rfl] at free
    exact mirrorSend_goes waits unsent links free

end Sys2Proof.Machine

/-! # The steps of bring-up begin (R459 to R461, Table 21.1) -/

namespace Sys2Proof.Machine

/-! ## Bits that are set -/

theorem rb_rbSet_true {s : State} {k i j : Nat} (i32 : i < 32) (set : s.rb k j = true) : (s.rbSet k i true).rb k j = true := by
  by_cases same : j = i
  · rw [same]
    exact rb_rbSet_same s k i true i32
  · rw [rb_rbSet_bit s k true i32 same]
    exact set

/-! ## A step that starts (R459) -/

/-- The record of a step that starts. -/
def State.stepRecord (s : State) (n : Nat) : Brup :=
  { s.brup with
      started := if s.brup.started.contains n then s.brup.started else n :: s.brup.started,
      since := s.now, katDone := if n = 6 then false else s.brup.katDone }

/-- A step that starts, noted. -/
def State.stepNoted (s : State) (n : Nat) : State := { s with brup := s.stepRecord n }

/-- A step that starts, before its first actions. -/
def State.stepBegun (s : State) (n : Nat) : State :=
  (((s.stepNoted n).rfSet Reg.BRUP_STATUS 3 0 n).rfSet Reg.BRUP_STATUS 5 4 1).rfSet Reg.BRUP_STATUS 15 8 0

/-- A step that has started. -/
structure State.begun (s t : State) (n : Nat) : Prop where
  rest : { t with brup := s.brup, regs := s.regs } = s
  brup : t.brup = s.stepRecord n
  step : t.brupStep = (n, 1)
  detail : t.rf Reg.BRUP_STATUS 15 8 = 0

theorem State.stepBegun_begun (s : State) {n : Nat} (n16 : n < 16) : s.begun (s.stepBegun n) n := by
  have noted : { s.stepNoted n with brup := s.brup } = s := rfl
  have record : (s.stepNoted n).brup = s.stepRecord n := rfl
  unfold State.stepBegun
  generalize s.stepNoted n = a at *
  have restA := a.rfSet_rest Reg.BRUP_STATUS 3 0 n
  have number := rf_rfSet_same a Reg.BRUP_STATUS 3 0 n (by decide) (by decide)
  generalize a.rfSet Reg.BRUP_STATUS 3 0 n = b at *
  have restB := b.rfSet_rest Reg.BRUP_STATUS 5 4 1
  have state := rf_rfSet_same b Reg.BRUP_STATUS 5 4 1 (by decide) (by decide)
  have numberB := rf_rfSet_apart b Reg.BRUP_STATUS 5 4 1 3 0 (by decide) (by decide) (by decide)
  generalize b.rfSet Reg.BRUP_STATUS 5 4 1 = c at *
  have restC := c.rfSet_rest Reg.BRUP_STATUS 15 8 0
  have detail := rf_rfSet_same c Reg.BRUP_STATUS 15 8 0 (by decide) (by decide)
  have numberC := rf_rfSet_apart c Reg.BRUP_STATUS 15 8 0 3 0 (by decide) (by decide) (by decide)
  have stateC := rf_rfSet_apart c Reg.BRUP_STATUS 15 8 0 5 4 (by decide) (by decide) (by decide)
  generalize c.rfSet Reg.BRUP_STATUS 15 8 0 = d at *
  refine ⟨?_, ?_, ?_, detail⟩
  · exact ((((congrArg (fun v : State => { v with brup := s.brup, regs := s.regs }) restC :)).trans
      (congrArg (fun v : State => { v with brup := s.brup, regs := s.regs }) restB :)).trans
      (congrArg (fun v : State => { v with brup := s.brup, regs := s.regs }) restA :)).trans
      (congrArg (fun v : State => { v with regs := s.regs }) noted :)
  · exact ((((congrArg State.brup restC :)).trans (congrArg State.brup restB :)).trans (congrArg State.brup restA :)).trans record
  · rw [State.brupStep, numberC, numberB, number, stateC, state]
    exact congrArg (·, 1) (Nat.mod_eq_of_lt n16)

section
variable {f : Func} {s : State} (pf : isPf f = true)
include pf

theorem State.brupGo_starts {n : Nat} (may : s.stepMay n = true) (body : State → State) : s.brupGo f n body = body (s.stepBegun n) := by
  unfold State.brupGo
  rw [if_neg (by simp [pf]), if_neg (by simp [may])]
  rfl

theorem State.brupGo_refused {n : Nat} (mayNot : s.stepMay n = false) (body : State → State) : s.brupGo f n body = s.brupRefused := by
  unfold State.brupGo
  rw [if_neg (by simp [pf]), if_pos (by simp [mayNot])]

end

/-! ## What a step does when it starts -/

/-- The first actions of step `n`. -/
def stepBody (n : Nat) (s : State) : State :=
  match n with
  | 2 => ((s.nor.mapOut.foldl State.mapOutNow s.applyDarnMap).nor.fenced.foldl
      (fun u p => u.domSet p { u.dom p with st := .fenced }) (s.nor.mapOut.foldl State.mapOutNow s.applyDarnMap)).darnLanes
  | 4 => s.clearLining
  | 5 => s.usableCores.foldl (fun u p => u.powerAsk p) s.applyVeneer
  | 8 => if s.ptn.running.syncSrc = 0 then { s with tick := { s.tick with next := some s.now } }
      else { s with tick := { s.tick with waitEdge := true, refFrom := s.now } }
  | _ => s

theorem exec_step {f : Func} {s : State} (ready : s.mustWait (portOf f) = false) {c : Instr} {n : Nat}
    (mem : (c, n) ∈ [(Instr.dowel f, 1), (.darn f, 2), (.hbm f, 3), (.lining f, 4), (.veneer f, 5), (.kat f, 6), (.ready f, 8)]) :
    n < 16 ∧ exec c s = .next (s.brupGo f n (stepBody n)) := by
  simp only [List.mem_cons, List.not_mem_nil, or_false, Prod.mk.injEq] at mem
  rcases mem with ⟨rfl, rfl⟩ | ⟨rfl, rfl⟩ | ⟨rfl, rfl⟩ | ⟨rfl, rfl⟩ | ⟨rfl, rfl⟩ | ⟨rfl, rfl⟩ | ⟨rfl, rfl⟩
  all_goals exact ⟨by decide, congrArg Host.Outcome.next (State.inOrder_of_ready ready ..)⟩

/-! ### Step 2: darning (R269, R321, R397) -/

/-- What darning lanes may touch. -/
structure State.darns (s t : State) : Prop where
  rest : { t with regs := s.regs, setAt := s.setAt, net := s.net, nor := s.nor } = s
  regs : ∀ k, k ≠ Reg.NET_STATUS → k ≠ Reg.NET_EVT → t.rg k = s.rg k
  mapOut : t.nor.mapOut = s.nor.mapOut
  fenced : t.nor.fenced = s.nor.fenced

theorem State.darns.refl (s : State) : s.darns s := ⟨rfl, fun _ _ _ => rfl, rfl, rfl⟩

theorem State.darns.trans {s t u : State} (h : s.darns t) (k : t.darns u) : s.darns u :=
  ⟨((congrArg (fun v : State => { v with regs := s.regs, setAt := s.setAt, net := s.net, nor := s.nor }) k.rest :)).trans h.rest,
    fun r a b => (k.regs r a b).trans (h.regs r a b), k.mapOut.trans h.mapOut, k.fenced.trans h.fenced⟩

theorem State.dowelSet_darns (s : State) (d : Nat) (v : Dowel) : s.darns (s.dowelSet d v) := ⟨rfl, fun _ _ _ => rfl, rfl, rfl⟩

/-- A lane noted as darned. -/
def State.darnNoted (s : State) (x : Nat) : State := { s with nor := { s.nor with darns := s.nor.darns ++ [x] } }

theorem State.darnNoted_darns (s : State) (x : Nat) : s.darns (s.darnNoted x) := ⟨rfl, fun _ _ _ => rfl, rfl, rfl⟩

theorem State.evSet_darns (s : State) (i : Nat) : s.darns (s.evSet Reg.NET_EVT i) :=
  ⟨rfl, fun _ _ other => rg_evSet_other s i other, rfl, rfl⟩

theorem State.rbSet_darns (s : State) (i : Nat) : s.darns (s.rbSet Reg.NET_STATUS i true) :=
  ⟨rfl, fun _ other _ => rg_rfSet_other s _ _ _ other, rfl, rfl⟩

theorem State.darnLane_darns (s : State) (d l : Nat) : s.darns (s.darnLane d l) := by
  unfold State.darnLane
  dsimp only
  split
  · exact ((State.dowelSet_darns ..).trans (State.darnNoted_darns _ (544 * d + l))).trans (State.evSet_darns ..)
  · exact .refl s

theorem State.darnLanes_darns (s : State) : s.darns s.darnLanes := by
  have each : ∀ (d : Nat) (l : List Nat) (u : State), u.darns (l.foldl (fun v l => v.darnLane d l) u) := fun d l u =>
    foldl_related .refl .trans (fun v l => v.darnLane_darns d l) l u
  unfold State.darnLanes State.darnDirs
  generalize List.range 22 = dirs
  exact foldl_related (R := State.darns) .refl .trans (fun u d => each d _ u) dirs s

theorem State.applyDarnMap_darns (s : State) : s.darns s.applyDarnMap := by
  have darned : ∀ (l : List Nat) (u : State), u.darns (l.foldl (fun u x =>
      if (u.dowel (x / 544)).darned.contains (x % 544) then u
      else u.dowelSet (x / 544) { u.dowel (x / 544) with darned := (u.dowel (x / 544)).darned ++ [x % 544] }) u) := fun l u =>
    foldl_related .refl .trans (fun v x => by
      split
      · exact .refl v
      · exact State.dowelSet_darns ..) l u
  have dropped : ∀ (l : List Nat) (u : State), u.darns (l.foldl (fun u x =>
      if (u.dowel (x / 8)).dropped.contains (x % 8) then u
      else u.dowelSet (x / 8) { u.dowel (x / 8) with dropped := (u.dowel (x / 8)).dropped ++ [x % 8] }) u) := fun l u =>
    foldl_related .refl .trans (fun v x => by
      split
      · exact .refl v
      · exact State.dowelSet_darns ..) l u
  have fenced : ∀ (l : List Nat) (u : State), u.darns (l.foldl (fun u k =>
      (u.rbSet Reg.NET_STATUS (2 + k) true).rbSet Reg.NET_STATUS 0 true) u) := fun l u =>
    foldl_related .refl .trans (fun v k => (State.rbSet_darns v (2 + k)).trans (State.rbSet_darns _ 0)) l u
  exact ((darned ..).trans (dropped ..)).trans (fenced ..)

end Sys2Proof.Machine

/-! # What the steps of bring-up do first (R269, R397, R459 to R461, Table 21.1) -/

namespace Sys2Proof.Machine

/-! ## Mapping out (R269) -/

/-- What mapping out may touch. -/
structure State.maps (s t : State) : Prop where
  rest : { t with regs := s.regs, nor := s.nor } = s
  regs : ∀ k, k < Reg.HBM_MAPPED → t.rg k = s.rg k
  fenced : t.nor.fenced = s.nor.fenced

theorem State.maps.refl (s : State) : s.maps s := ⟨rfl, fun _ _ => rfl, rfl⟩

theorem State.maps.trans {s t u : State} (h : s.maps t) (k : t.maps u) : s.maps u :=
  ⟨((congrArg (fun v : State => { v with regs := s.regs, nor := s.nor }) k.rest :)).trans h.rest,
    fun r low => (k.regs r low).trans (h.regs r low), k.fenced.trans h.fenced⟩

/-- A pseudo-channel in the list of NOR. -/
def State.mapNoted (s : State) (n : Nat) : State :=
  { s with nor := { s.nor with mapOut := if s.nor.mapOut.contains n then s.nor.mapOut else s.nor.mapOut ++ [n] } }

theorem State.mapOutNow_eq (s : State) (n : Nat) :
    s.mapOutNow n = (s.rbSet (Reg.HBM_MAPPED + 4 * (n / 32)) (n % 32) true).mapNoted n := rfl

theorem State.mapNoted_maps (s : State) (n : Nat) : s.maps (s.mapNoted n) := ⟨rfl, fun _ _ => rfl, rfl⟩

theorem State.rbSet_maps (s : State) {k : Nat} (high : Reg.HBM_MAPPED ≤ k) (i : Nat) : s.maps (s.rbSet k i true) :=
  ⟨rfl, fun r low => rg_rfSet_other s _ _ _ (fun e => by rw [e] at low; exact absurd low (Nat.not_lt.mpr high)), rfl⟩

theorem State.mapOutNow_maps (s : State) (n : Nat) : s.maps (s.mapOutNow n) :=
  (s.rbSet_maps (Nat.le_add_right ..) (n % 32)).trans (State.mapNoted_maps ..)

theorem State.mapOuts_maps (s : State) (l : List Nat) : s.maps (l.foldl State.mapOutNow s) :=
  foldl_related .refl .trans State.mapOutNow_maps l s

/-- A pseudo-channel is mapped out, and NOR says so. -/
def State.mappedOut (s : State) (n : Nat) : Prop := s.maskBit Reg.HBM_MAPPED n = true ∧ n ∈ s.nor.mapOut

theorem State.mapNoted_mem (s : State) (n : Nat) : n ∈ (s.mapNoted n).nor.mapOut := by
  show n ∈ if s.nor.mapOut.contains n then s.nor.mapOut else s.nor.mapOut ++ [n]
  split
  · next here => simpa using here
  · simp

theorem State.mapNoted_still {s : State} {m n : Nat} (mem : m ∈ s.nor.mapOut) : m ∈ (s.mapNoted n).nor.mapOut := by
  show m ∈ if s.nor.mapOut.contains n then s.nor.mapOut else s.nor.mapOut ++ [n]
  split
  · exact mem
  · exact List.mem_append_left _ mem

theorem State.mappedOut_mapOutNow_same (s : State) (n : Nat) : (s.mapOutNow n).mappedOut n := by
  rw [State.mapOutNow_eq]
  exact ⟨rb_rbSet_same s (Reg.HBM_MAPPED + 4 * (n / 32)) (n % 32) true (Nat.mod_lt _ (by decide)), State.mapNoted_mem ..⟩

theorem State.mappedOut_mapOutNow {s : State} {m : Nat} (n : Nat) (mapped : s.mappedOut m) : (s.mapOutNow n).mappedOut m := by
  obtain ⟨bit, mem⟩ := mapped
  have bit' : (s.rbSet (Reg.HBM_MAPPED + 4 * (n / 32)) (n % 32) true).maskBit Reg.HBM_MAPPED m = true := by
    unfold State.maskBit at bit ⊢
    by_cases same : Reg.HBM_MAPPED + 4 * (m / 32) = Reg.HBM_MAPPED + 4 * (n / 32)
    · rw [same] at bit ⊢
      exact rb_rbSet_true (Nat.mod_lt _ (by decide)) bit
    · rw [rb_rbSet_other s _ _ _ same]
      exact bit
  have mem' : m ∈ (s.rbSet (Reg.HBM_MAPPED + 4 * (n / 32)) (n % 32) true).nor.mapOut := mem
  rw [State.mapOutNow_eq]
  exact ⟨bit', State.mapNoted_still mem'⟩

theorem State.mapOuts_mappedOut (s : State) {l : List Nat} {n : Nat} (mem : n ∈ l) : (l.foldl State.mapOutNow s).mappedOut n :=
  foldl_establishes (I := fun _ => True) (P := fun u : State => u.mappedOut n) (f := State.mapOutNow) (fun _ _ _ => trivial)
    (fun _ m _ held => State.mappedOut_mapOutNow m held) (fun u _ => u.mappedOut_mapOutNow_same n) mem trivial

/-! ## Fenced cores (R397) -/

/-- The domain of a core fenced. -/
def State.fenceDom (s : State) (p : Nat) : State := s.domSet p { s.dom p with st := .fenced }

/-- The domains of some cores fenced. -/
def State.fenceDoms (s : State) (l : List Nat) : State := l.foldl State.fenceDom s

theorem State.fenceDoms_rest (s : State) (l : List Nat) : { s.fenceDoms l with pwr := s.pwr } = s :=
  foldl_inv (f := State.fenceDom) (inv := fun u : State => { u with pwr := s.pwr } = s)
    (fun _ _ same => same) l rfl

theorem State.fenceDoms_fenced (s : State) {l : List Nat} {p : Nat} (mem : p ∈ l) : ((s.fenceDoms l).dom p).st = .fenced :=
  foldl_establishes (f := State.fenceDom) (I := fun _ => True) (P := fun u : State => (u.dom p).st = .fenced) (fun _ _ _ => trivial)
    (fun u q _ held => by
      by_cases same : p = q
      · rw [same, State.fenceDom, State.dom_domSet_same]
      · rw [State.fenceDom, State.dom_domSet_other _ _ same]
        exact held)
    (fun u _ => by rw [State.fenceDom, State.dom_domSet_same]) mem trivial

/-- Step 2 begins: what NOR records is applied, and failed lanes are darned. -/
theorem stepBody_two (s : State) : stepBody 2 s =
    ((s.nor.mapOut.foldl State.mapOutNow s.applyDarnMap).fenceDoms s.nor.fenced).darnLanes := by
  have fenced : (s.nor.mapOut.foldl State.mapOutNow s.applyDarnMap).nor.fenced = s.nor.fenced :=
    (State.mapOuts_maps ..).fenced.trans s.applyDarnMap_darns.fenced
  have known : stepBody 2 s = ((s.nor.mapOut.foldl State.mapOutNow s.applyDarnMap).fenceDoms
      (s.nor.mapOut.foldl State.mapOutNow s.applyDarnMap).nor.fenced).darnLanes := rfl
  rw [known, fenced]

theorem stepBody_two_effect (s : State) : let t := stepBody 2 s
    t.brup = s.brup ∧ t.rg Reg.BRUP_STATUS = s.rg Reg.BRUP_STATUS ∧ (∀ n ∈ s.nor.mapOut, n < 768 → t.maskBit Reg.HBM_MAPPED n = true) ∧
      ∀ p ∈ s.nor.fenced, (t.dom p).st = .fenced := by
  rw [stepBody_two]
  have first := s.applyDarnMap_darns
  generalize s.applyDarnMap = a at *
  have second := a.mapOuts_maps s.nor.mapOut
  have mapped : ∀ n ∈ s.nor.mapOut, (s.nor.mapOut.foldl State.mapOutNow a).mappedOut n := fun n mem => a.mapOuts_mappedOut mem
  generalize s.nor.mapOut.foldl State.mapOutNow a = b at *
  have third := b.fenceDoms_rest s.nor.fenced
  have fenced : ∀ p ∈ s.nor.fenced, ((b.fenceDoms s.nor.fenced).dom p).st = .fenced := fun p mem => b.fenceDoms_fenced mem
  generalize b.fenceDoms s.nor.fenced = c at *
  have fourth := c.darnLanes_darns
  generalize c.darnLanes = d at *
  have regsC : c.regs = b.regs := (congrArg State.regs third :)
  have brupA : a.brup = s.brup := (congrArg State.brup first.rest :)
  have brupB : b.brup = a.brup := (congrArg State.brup second.rest :)
  have brupC : c.brup = b.brup := (congrArg State.brup third :)
  have brupD : d.brup = c.brup := (congrArg State.brup fourth.rest :)
  have pwr : d.pwr = c.pwr := (congrArg State.pwr fourth.rest :)
  refine ⟨brupD.trans (brupC.trans (brupB.trans brupA)), ?_, fun n mem less => ?_, fun p mem => ?_⟩
  · exact (fourth.regs _ (by decide) (by decide)).trans ((rg_of_regs regsC _).trans ((second.regs _ (by decide)).trans
      (first.regs _ (by decide) (by decide))))
  · have same : d.rg (Reg.HBM_MAPPED + 4 * (n / 32)) = b.rg (Reg.HBM_MAPPED + 4 * (n / 32)) :=
      (fourth.regs _ (by unfold Reg.HBM_MAPPED Reg.NET_STATUS; omega) (by unfold Reg.HBM_MAPPED Reg.NET_EVT; omega)).trans (rg_of_regs regsC _)
    exact (State.rb_of_rg same _).trans (mapped n mem).1
  · rw [State.dom, pwr]
    exact fenced p mem

/-! ## Power for every usable core (R403, R461) -/

theorem State.powerAsks_rest (s : State) (l : List Nat) : { l.foldl (fun u p => u.powerAsk p) s with pwr := s.pwr } = s :=
  foldl_inv (f := State.powerAsk) (inv := fun u : State => { u with pwr := s.pwr } = s) (fun u p same => by
    have own := u.powerAsk_pwr p
    generalize u.powerAsk p = v at *
    rw [own]
    exact same) l rfl

theorem State.powerAsks_waiting {s : State} {l : List Nat} {p : Nat} (mem : p ∈ l) (able : s.coreLost p = false)
    (off : (s.dom p).st = .unpowered) : ((l.foldl (fun u q => u.powerAsk q) s).dom p).st = .waiting := by
  have lost : ∀ u q, (State.powerAsk u q).coreLost p = u.coreLost p := fun u q => by rw [u.powerAsk_pwr q]; rfl
  refine (foldl_establishes (I := fun u : State => u.coreLost p = false ∧ ((u.dom p).st = .unpowered ∨ (u.dom p).st = .waiting))
    (P := fun u : State => (u.dom p).st = .waiting) (f := fun u q => u.powerAsk q) ?_ ?_ ?_ mem ⟨able, .inl off⟩)
  · rintro u q ⟨usable, state⟩
    refine ⟨(lost u q).trans usable, ?_⟩
    by_cases same : p = q
    · rw [← same]
      rcases state with unpowered | waiting
      · exact .inr (State.dom_powerAsk_waiting unpowered usable)
      · rw [State.powerAsk_eq, if_pos (.inl (by rw [waiting]; decide))]
        exact .inr waiting
    · rw [State.dom_powerAsk_other u same]
      exact state
  · rintro u q - waiting
    by_cases same : p = q
    · rw [← same, State.powerAsk_eq, if_pos (.inl (by rw [waiting]; decide))]
      exact waiting
    · rw [State.dom_powerAsk_other u same]
      exact waiting
  · rintro u ⟨usable, unpowered | waiting⟩
    · exact State.dom_powerAsk_waiting unpowered usable
    · rw [State.powerAsk_eq, if_pos (.inl (by rw [waiting]; decide))]
      exact waiting

/-- The default veneer put in force, or not. -/
theorem State.applyVeneer_rest (s : State) : { s.applyVeneer with ptn := s.ptn } = s := by
  unfold State.applyVeneer
  split <;> rfl

theorem State.applyVeneer_sec {s : State} (met : s.veneerDetail = 0) : s.applyVeneer.ptn.running.sec 2 0 = s.defaultVeneer := by
  unfold State.applyVeneer
  rw [if_neg (fun no => no met)]
  exact mget_mput_same _ _ _ _

theorem stepBody_five (s : State) : stepBody 5 s = s.usableCores.foldl (fun u p => u.powerAsk p) s.applyVeneer := rfl

theorem stepBody_five_effect (s : State) : let t := stepBody 5 s
    t.brup = s.brup ∧ t.rg Reg.BRUP_STATUS = s.rg Reg.BRUP_STATUS ∧
      (s.veneerDetail = 0 → t.ptn.running.sec 2 0 = s.defaultVeneer) ∧
      ∀ p, p < 72 → s.coreLost p = false → (s.dom p).st = .unpowered → (t.dom p).st = .waiting := by
  rw [stepBody_five]
  have veneer := s.applyVeneer_rest
  have section2 := fun met => State.applyVeneer_sec (s := s) met
  generalize s.applyVeneer = u at *
  have fuses : u.fuses = s.fuses := (congrArg State.fuses veneer :)
  have nor : u.nor = s.nor := (congrArg State.nor veneer :)
  have pwr : u.pwr = s.pwr := (congrArg State.pwr veneer :)
  have brupU : u.brup = s.brup := (congrArg State.brup veneer :)
  have regsU : u.regs = s.regs := (congrArg State.regs veneer :)
  have waits := fun {p} (mem : p ∈ s.usableCores) able off => State.powerAsks_waiting (s := u) mem able off
  have asked := u.powerAsks_rest s.usableCores
  generalize s.usableCores.foldl (fun u p => u.powerAsk p) u = t at *
  have brupT : t.brup = u.brup := (congrArg State.brup asked :)
  have regsT : t.regs = u.regs := (congrArg State.regs asked :)
  have ptn : t.ptn = u.ptn := (congrArg State.ptn asked :)
  refine ⟨brupT.trans brupU, rg_of_regs (regsT.trans regsU) _, fun met => by rw [ptn]; exact section2 met, fun p less able off => ?_⟩
  exact waits (List.mem_filter.mpr ⟨List.mem_range.mpr less, by rw [able]; rfl⟩)
    (by rw [State.coreLost, fuses, nor]; exact able) (by rw [State.dom, pwr]; exact off)

end Sys2Proof.Machine

/-! # The steps of bring-up end, and the statement about bring-up (R442, R459 to R461) -/

namespace Sys2Proof.Machine

/-! ## The end of a step (R459) -/

/-- A step has ended: DONE with detail 0, FAIL with another. -/
structure State.stepEnds (s t : State) (detail : Nat) : Prop where
  rest : { t with regs := s.regs, setAt := s.setAt, log := s.log, brup := s.brup } = s
  kat : t.brup.katDone = s.brup.katDone
  regs : ∀ k, k ∉ [Reg.BRUP_STATUS, Reg.BRUP_EVT, Reg.IRQ_RAW + 16] → t.rg k = s.rg k
  state : t.rf Reg.BRUP_STATUS 5 4 = if detail = 0 then 2 else 3
  detail : t.rf Reg.BRUP_STATUS 15 8 = detail
  event : t.rb Reg.BRUP_EVT 0 = true
  source : t.rb (Reg.IRQ_RAW + 16) 22 = true

/-- A step noted as DONE, where it is. -/
def State.stepDone (s : State) (detail : Nat) : State :=
  if detail = 0 then { s with brup := { s.brup with ended := s.brupStep.1 :: s.brup.ended.filter (· != s.brupStep.1) } } else s

theorem State.stepDone_rest (s : State) (detail : Nat) : { s.stepDone detail with brup := s.brup } = s ∧
    (s.stepDone detail).brup.katDone = s.brup.katDone := by
  unfold State.stepDone
  split <;> exact ⟨rfl, rfl⟩

theorem State.stepEnd_eq (s : State) (detail : Nat) : s.stepEnd detail =
    (((s.stepDone detail).rfSet Reg.BRUP_STATUS 5 4 (if detail = 0 then 2 else 3)).rfSet Reg.BRUP_STATUS 15 8 detail).brupEvt 0 := rfl

theorem State.stepEnd_ends (s : State) {detail : Nat} (less : detail < 256) : s.stepEnds (s.stepEnd detail) detail := by
  rw [State.stepEnd_eq]
  obtain ⟨restA, kat⟩ := s.stepDone_rest detail
  generalize s.stepDone detail = a at *
  have restB := a.rfSet_rest Reg.BRUP_STATUS 5 4 (if detail = 0 then 2 else 3)
  have state := rf_rfSet_same a Reg.BRUP_STATUS 5 4 (if detail = 0 then 2 else 3) (by decide) (by decide)
  have otherB : ∀ k, k ≠ Reg.BRUP_STATUS → _ = a.rg k := fun k ne => rg_rfSet_other a 5 4 (if detail = 0 then 2 else 3) ne
  generalize a.rfSet Reg.BRUP_STATUS 5 4 (if detail = 0 then 2 else 3) = b at *
  have restC := b.rfSet_rest Reg.BRUP_STATUS 15 8 detail
  have shown := rf_rfSet_same b Reg.BRUP_STATUS 15 8 detail (by decide) (by decide)
  have stateC := rf_rfSet_apart b Reg.BRUP_STATUS 15 8 detail 5 4 (by decide) (by decide) (by decide)
  have otherC : ∀ k, k ≠ Reg.BRUP_STATUS → _ = b.rg k := fun k ne => rg_rfSet_other b 15 8 detail ne
  generalize b.rfSet Reg.BRUP_STATUS 15 8 detail = c at *
  unfold State.brupEvt
  have event := rb_evSet_same c Reg.BRUP_EVT 0 (by decide)
  have restD := c.evSet_rest Reg.BRUP_EVT 0
  have otherD : ∀ k, k ≠ Reg.BRUP_EVT → _ = c.rg k := fun k ne => rg_evSet_other c 0 ne
  generalize c.evSet Reg.BRUP_EVT 0 = d at *
  have source := d.rb_raise_high (src := 150) (by decide)
  have same := d.raise_high_sameButLog (src := 150) (by decide)
  have otherE : ∀ k, k ∉ [Reg.IRQ_RAW + 16] → _ = d.rg k := d.raise_high_sameRegs (src := 150) (by decide)
  generalize d.raise 150 = e at *
  have regsA : a.regs = s.regs := (congrArg State.regs restA :)
  have brupB : b.brup = a.brup := (congrArg State.brup restB :)
  have brupC : c.brup = b.brup := (congrArg State.brup restC :)
  have brupD : d.brup = c.brup := (congrArg State.brup restD :)
  have brupE : e.brup = d.brup := (congrArg State.brup same :)
  have kept : { c with regs := s.regs, brup := s.brup } = s :=
    (((congrArg (fun v : State => { v with regs := s.regs, brup := s.brup }) restC :)).trans
      (congrArg (fun v : State => { v with regs := s.regs, brup := s.brup }) restB :)).trans
      (congrArg (fun v : State => { v with regs := s.regs }) restA :)
  have setAt : c.setAt = s.setAt := (congrArg State.setAt kept :)
  have status : e.rg Reg.BRUP_STATUS = c.rg Reg.BRUP_STATUS := (otherE _ (by decide)).trans (otherD _ (by decide))
  refine ⟨?_, ?_, fun k away => ?_, ?_, ?_, ?_, source⟩
  · exact ((((congrArg (fun v : State => { v with regs := s.regs, setAt := s.setAt, log := s.log, brup := s.brup }) same :)).trans
      (congrArg (fun v : State => { v with regs := s.regs, setAt := s.setAt, log := s.log, brup := s.brup }) restD :)).trans
      (congrArg (fun v : State => { v with setAt := s.setAt, log := s.log }) kept :))
  · rw [brupE, brupD, brupC, brupB]
    exact kat
  · simp only [List.mem_cons, List.not_mem_nil, or_false, not_or] at away
    obtain ⟨ofStatus, ofEvent, ofSource⟩ := away
    exact (otherE k (by simpa using ofSource)).trans ((otherD k ofEvent).trans ((otherC k ofStatus).trans ((otherB k ofStatus).trans
      (rg_of_regs regsA k))))
  · rw [State.rf_of_rg status, stateC, state]
    split <;> rfl
  · rw [State.rf_of_rg status, shown]
    exact Nat.mod_eq_of_lt less
  · rw [State.rb_of_rg (otherE Reg.BRUP_EVT (by decide))]
    exact event

/-! ## The image in NOR (R442) -/

/-- The bits below `n` that a test picks, as a number. -/
def pickedBits (p : Nat → Bool) (n : Nat) : Nat := (((List.range n).filter p).map (2 ^ ·)).sum

theorem pickedBits_succ (p : Nat → Bool) (n : Nat) : pickedBits p (n + 1) = (if p n then 2 ^ n else 0) + pickedBits p n := by
  rw [pickedBits, List.range_succ, List.filter_append, List.map_append, List.sum_append, Nat.add_comm, pickedBits]
  cases here : p n <;> simp [here]

theorem pickedBits_lt (p : Nat → Bool) (n : Nat) : pickedBits p n < 2 ^ n := by
  induction n with
  | zero => exact Nat.one_pos
  | succ n ih =>
    rw [pickedBits_succ, Nat.pow_succ]
    split <;> omega

theorem bitOf_pickedBits (p : Nat → Bool) (n k : Nat) : bitOf (pickedBits p n) k = (decide (k < n) && p k) := by
  rw [bitOf_eq_testBit]
  induction n with
  | zero => simp [pickedBits]
  | succ n ih =>
    have low := pickedBits_lt p n
    rw [pickedBits_succ]
    cases here : p n with
    | false =>
      rw [if_neg Bool.false_ne_true, Nat.zero_add, ih]
      by_cases last : k = n
      · simp [last, here]
      · rw [decide_eq_decide.mpr (show k < n ↔ k < n + 1 by omega)]
    | true =>
      rw [if_pos rfl]
      rcases Nat.lt_trichotomy k n with below | last | above
      · rw [Nat.testBit_two_pow_add_gt below, ih, decide_eq_decide.mpr (show k < n ↔ k < n + 1 by omega)]
      · rw [last, Nat.testBit_two_pow_add_eq, Nat.testBit_lt_two_pow low, here]
        simp
      · have high : 2 ^ n + pickedBits p n < 2 ^ k :=
          (show _ < 2 ^ (n + 1) by rw [Nat.pow_succ]; omega).trans_le (Nat.pow_le_pow_right (by decide) above)
        rw [Nat.testBit_lt_two_pow high, decide_eq_false (by omega)]
        rfl

/-- A VENDOR slot that the image revokes and that did not verify it. -/
def State.bootRevokes (s : State) (k : Nat) : Bool :=
  bitOf (Config.imageRevokes s.nor.firmware) k && k != s.fwSlots.1 && k != s.fwSlots.2

theorem State.bootDone_effect (s : State) : let t := s.bootDone
    { t with fuses := s.fuses } = s ∧ t.fuses.svn = max s.fuses.svn (Config.imageVersion s.nor.firmware) ∧
    (∀ k, bitOf (mget t.fuses.revoked 0 0) k = (bitOf (mget s.fuses.revoked 0 0) k || (decide (k < 4) && s.bootRevokes k))) ∧
    t.fuses.enrolled = s.fuses.enrolled ∧ t.fuses.hashes = s.fuses.hashes := by
  refine ⟨rfl, rfl, fun k => ?_, rfl, rfl⟩
  have known : s.bootDone.fuses.revoked = mset s.fuses.revoked 0
      (mget s.fuses.revoked 0 0 ||| pickedBits s.bootRevokes 4) 0 := rfl
  rw [known, mget_mset_same, bitOf_or, bitOf_pickedBits]

theorem State.slotOk_of_rsaOk {s : State} {party slot : Nat} {signed sig : List Byte} (ok : s.rsaOk party slot signed sig = true) :
    s.slotOk party slot = true := by
  unfold State.rsaOk at ok
  split at ok
  · next key found =>
    unfold State.rsaKey at found
    dsimp only [-Nat.reducePow] at found
    split at found
    · next both => exact ((Bool.and_eq_true ..).mp both).1
    · cases found
  · cases ok

theorem State.slotOk_of_slhOk {s : State} {party slot : Nat} {signed sig : List Byte} (ok : s.slhOk party slot signed sig = true) :
    s.slotOk party slot = true := by
  unfold State.slhOk at ok
  split at ok
  · next key found =>
    unfold State.slhKey at found
    dsimp only [-Nat.reducePow] at found
    split at found
    · next both => exact ((Bool.and_eq_true ..).mp both).1
    · cases found
  · cases ok

/-- The first check that fails, in the order of log entry 37. -/
def bootLadder (a b c d e : Prop) [Decidable a] [Decidable b] [Decidable c] [Decidable d] [Decidable e] : Nat :=
  if a then 0x0E02 else if b then 0x0E06 else if c then 0x0E03 else if d then 0x0E04 else if e then 0x0E05 else 0

section
variable {a b c d e : Prop} [Decidable a] [Decidable b] [Decidable c] [Decidable d] [Decidable e]

theorem bootLadder_zero (good : bootLadder a b c d e = 0) : ¬c ∧ ¬d ∧ ¬e := by
  unfold bootLadder at good
  split_ifs at good with _ _ rsa slh old
  exact ⟨rsa, slh, old⟩

theorem bootLadder_range (bad : bootLadder a b c d e ≠ 0) : 0x0E02 ≤ bootLadder a b c d e ∧ bootLadder a b c d e ≤ 0x0E06 := by
  unfold bootLadder at bad ⊢
  split_ifs at bad ⊢ <;> omega

end

/-- What is signed of the image in NOR. -/
def State.bootSigned (s : State) : List Byte := s.nor.firmware.take (s.nor.firmware.length - trailerLen + 0x40)

theorem State.bootCode_eq (s : State) : s.bootCode = bootLadder
    (s.nor.firmware.length < trailerLen ∨ leAt s.fwTrailer 0 4 ≠ 0x54525746 ∨ !zeroAt s.fwTrailer 6 58)
    ((s.slotOk 0 s.fwSlots.1 && (s.rsaKey 0 s.fwSlots.1).isNone) || (s.slotOk 0 s.fwSlots.2 && (s.slhKey 0 s.fwSlots.2).isNone))
    (!s.rsaOk 0 s.fwSlots.1 s.bootSigned (bytesAt s.fwTrailer 0x40 384))
    (!s.slhOk 0 s.fwSlots.2 s.bootSigned (bytesAt s.fwTrailer 0x1C0 16224))
    (Config.imageVersion s.nor.firmware < s.fuses.svn) := by
  unfold State.bootCode bootLadder State.bootSigned
  dsimp only

/-- An image that verifies names slots that are enrolled, and is not older than the floor. -/
theorem State.bootCode_zero {s : State} (good : s.bootCode = 0) : s.fuses.svn ≤ Config.imageVersion s.nor.firmware ∧
    s.slotOk 0 s.fwSlots.1 = true ∧ s.slotOk 0 s.fwSlots.2 = true := by
  rw [State.bootCode_eq] at good
  obtain ⟨rsa, slh, new⟩ := bootLadder_zero good
  exact ⟨Nat.le_of_not_lt new, State.slotOk_of_rsaOk (by simpa using rsa), State.slotOk_of_slhOk (by simpa using slh)⟩

theorem State.bootCode_range {s : State} (bad : s.bootCode ≠ 0) : 0x0E02 ≤ s.bootCode ∧ s.bootCode ≤ 0x0E06 := by
  rw [State.bootCode_eq] at bad ⊢
  exact bootLadder_range bad

end Sys2Proof.Machine

/-! # The statement about bring-up (R442, R459 to R461) -/

namespace Sys2Proof.Machine

/-! ## GO for a step (R459) -/

section
variable {f : Func} {s : State} (ready : s.mustWait (portOf f) = false) (pf : isPf f = true)
include ready pf

theorem exec_step_starts {c : Instr} {n : Nat}
    (mem : (c, n) ∈ [(Instr.dowel f, 1), (.darn f, 2), (.hbm f, 3), (.lining f, 4), (.veneer f, 5), (.kat f, 6), (.ready f, 8)])
    (may : s.stepMay n = true) : n < 16 ∧ exec c s = .next (stepBody n (s.stepBegun n)) := by
  obtain ⟨n16, run⟩ := exec_step ready mem
  rw [State.brupGo_starts pf may] at run
  exact ⟨n16, run⟩

theorem exec_step_refused {c : Instr} {n : Nat}
    (mem : (c, n) ∈ [(Instr.dowel f, 1), (.darn f, 2), (.hbm f, 3), (.lining f, 4), (.veneer f, 5), (.kat f, 6), (.ready f, 8)])
    (mayNot : s.stepMay n = false) : ∃ t, exec c s = .next t ∧ t.rb Reg.BRUP_STATUS 16 = true ∧ onlyRegs [Reg.BRUP_STATUS] s t := by
  obtain ⟨-, run⟩ := exec_step ready mem
  rw [State.brupGo_refused pf mayNot] at run
  exact ⟨_, run, rb_evSet_same _ _ _ (by decide), onlyRegs_evSet _ _ _⟩

end

/-- The first actions of every step leave the record of the steps alone. -/
theorem stepBody_record (n : Nat) (s : State) : (stepBody n s).brup = s.brup ∧ (stepBody n s).rg Reg.BRUP_STATUS = s.rg Reg.BRUP_STATUS := by
  unfold stepBody
  split
  · obtain ⟨brup, status, -⟩ := stepBody_two_effect s
    exact ⟨brup, status⟩
  · exact ⟨rfl, rfl⟩
  · obtain ⟨brup, status, -⟩ := stepBody_five_effect s
    exact ⟨brup, status⟩
  · split <;> exact ⟨rfl, rfl⟩
  · exact ⟨rfl, rfl⟩

/-- Step `n` runs from now on. -/
def runsFrom (s : State) (n : Nat) (t : State) : Prop :=
  t.brupStep = (n, 1) ∧ t.rf Reg.BRUP_STATUS 15 8 = 0 ∧ n ∈ t.brup.started ∧ t.brup.since = s.now

theorem State.begun.runs {s u : State} {n : Nat} (begun : s.begun u n) : runsFrom s n (stepBody n u) := by
  obtain ⟨brup, status⟩ := stepBody_record n u
  have started : n ∈ (s.stepRecord n).started := by
    show n ∈ if s.brup.started.contains n then s.brup.started else n :: s.brup.started
    split
    · next here => simpa using here
    · exact List.mem_cons_self
  refine ⟨?_, (State.rf_of_rg status 15 8).trans begun.detail, ?_, ?_⟩
  · rw [State.brupStep, State.rf_of_rg status, State.rf_of_rg status]
    exact begun.step
  · rw [brup, begun.brup]
    exact started
  · rw [brup, begun.brup]
    rfl

section
variable {s u : State} {n : Nat} (begun : s.begun u n)
include begun

theorem State.begun.nor : u.nor = s.nor := (congrArg State.nor begun.rest :)
theorem State.begun.fuses : u.fuses = s.fuses := (congrArg State.fuses begun.rest :)
theorem State.begun.hbm : u.hbm = s.hbm := (congrArg State.hbm begun.rest :)
theorem State.begun.tick : u.tick = s.tick := (congrArg State.tick begun.rest :)
theorem State.begun.ptn : u.ptn = s.ptn := (congrArg State.ptn begun.rest :)
theorem State.begun.now : u.now = s.now := (congrArg State.now begun.rest :)
theorem State.begun.pwr : u.pwr = s.pwr := (congrArg State.pwr begun.rest :)

theorem State.begun.coreLost (p : Nat) : u.coreLost p = s.coreLost p := by rw [State.coreLost, begun.fuses, begun.nor, State.coreLost]

end

/-! ### What bears on the default veneer (R461) -/

section
variable {s u : State} (fuses : u.fuses = s.fuses) (nor : u.nor = s.nor)
include fuses nor

theorem State.coreLost_congr (p : Nat) : u.coreLost p = s.coreLost p := by rw [State.coreLost, fuses, nor, State.coreLost]

theorem State.usableCores_congr : u.usableCores = s.usableCores := by
  unfold State.usableCores
  rw [funext (State.coreLost_congr fuses nor)]

theorem State.badBanksOf_congr : u.badBanksOf = s.badBanksOf := by
  funext k
  rw [State.badBanksOf, fuses, nor, State.badBanksOf]

theorem State.usableSlices_congr : u.usableSlices = s.usableSlices := by
  funext die
  rw [State.usableSlices, fuses, nor, State.badBanksOf_congr fuses nor, State.usableSlices]

theorem State.veneerDetail_congr : u.veneerDetail = s.veneerDetail := by
  rw [State.veneerDetail, State.usableCores_congr fuses nor, State.usableSlices_congr fuses nor, State.veneerDetail]

theorem State.sliceEntry_congr : u.sliceEntry = s.sliceEntry := by
  funext die i
  rw [State.sliceEntry, State.badBanksOf_congr fuses nor, State.sliceEntry]

theorem State.defaultVeneer_congr : u.defaultVeneer = s.defaultVeneer := by
  rw [State.defaultVeneer, State.usableCores_congr fuses nor, State.usableSlices_congr fuses nor, State.sliceEntry_congr fuses nor,
    State.defaultVeneer]

end

/-! ## Step ends -/

/-- The running step `n` ends at its limit. -/
def State.stepLate (s : State) (n : Nat) : State := (s.at (s.brup.since + s.stepLimit n)).stepEnd 1

/-- How the running step `n` ends, `late` being its end at its limit. -/
def stepEnding (late : State) (e : StepEnd) (bad : List Nat) (n : Nat) (s : State) : State :=
  match n, e with
  | 0, .unit id => if id = 0x0E01 then s.escHalt 0x0E01 else s
  | 0, .link => s
  | 0, .stack => s
  | _, .time => late
  | 0, .done => if s.pwr.stageTwo then s.bootEnd else s
  | 1, _ => s.dowelDone bad
  | 2, _ => s.stepEnd (if s.lowestFence.isSome then 2 else 0)
  | 3, _ => s.hbmDone bad
  | 4, _ => s.stepEnd 0
  | 5, _ => if s.veneerDetail ≠ 0 then s.stepEnd s.veneerDetail
            else if s.usableCores.all (fun p => (s.dom p).st == .up) then s.stepEnd 0 else s
  | 6, _ => s.katDone bad
  | _, _ => if s.tick.en then s.stepEnd 0 else s

theorem exec_brupStepEnd_eq (s : State) (e : StepEnd) (bad : List Nat) : exec (.brupStepEnd e bad) s =
    .next (if s.brupStep.2 ≠ 1 ∨ s.brupStep.1 = 7 ∨ s.esc.boot ≠ 0 then s
      else stepEnding ((s.at (s.brup.since + s.stepLimit s.brupStep.1)).stepEnd 1) e bad s.brupStep.1 s) := rfl

section
variable {s : State} (boot : s.esc.boot = 0) (running : s.brupStep.2 = 1) (others : s.brupStep.1 ≠ 7)
include boot running others

theorem exec_brupStepEnd (e : StepEnd) (bad : List Nat) :
    exec (.brupStepEnd e bad) s = .next (stepEnding (s.stepLate s.brupStep.1) e bad s.brupStep.1 s) := by
  rw [exec_brupStepEnd_eq, if_neg, State.stepLate]
  rintro (idle | seven | halted)
  · exact idle running
  · exact others seven
  · exact halted boot

end

theorem exec_brupStepEnd_seven {s : State} (seven : s.brupStep.1 = 7) (e : StepEnd) (bad : List Nat) :
    exec (.brupStepEnd e bad) s = .next s := by
  rw [exec_brupStepEnd_eq, if_pos (.inr (.inl seven))]

theorem stepEnding_time (late : State) (bad : List Nat) (n : Nat) (s : State) : stepEnding late .time bad n s = late :=
  match n with
  | 0 | 1 | 2 | 3 | 4 | 5 | 6 => rfl
  | _ + 7 => rfl

end Sys2Proof.Machine

/-! # The statement about bring-up (R442, R459 to R461, Tables 21.1 and 21.6) -/

namespace Sys2Proof.Machine

/-! ## The outcomes of a running step -/

/-- A step has ended with a state and a detail, and says so. -/
def endedWith (t : State) (st detail : Nat) : Prop :=
  t.rf Reg.BRUP_STATUS 5 4 = st ∧ t.rf Reg.BRUP_STATUS 15 8 = detail ∧ t.rb Reg.BRUP_EVT 0 = true ∧ t.rb (Reg.IRQ_RAW + 16) 22 = true

section
variable {s t : State} {detail : Nat} (ends : s.stepEnds t detail)
include ends

theorem State.stepEnds.failed (bad : detail ≠ 0) : endedWith t 3 detail :=
  ⟨ends.state.trans (if_neg bad), ends.detail, ends.event, ends.source⟩

theorem State.stepEnds.nor : t.nor = s.nor := (congrArg State.nor ends.rest :)
theorem State.stepEnds.fuses : t.fuses = s.fuses := (congrArg State.fuses ends.rest :)
theorem State.stepEnds.lin : t.lin = s.lin := (congrArg State.lin ends.rest :)
theorem State.stepEnds.pwr : t.pwr = s.pwr := (congrArg State.pwr ends.rest :)
theorem State.stepEnds.tick : t.tick = s.tick := (congrArg State.tick ends.rest :)
theorem State.stepEnds.now : t.now = s.now := (congrArg State.now ends.rest :)

end

theorem State.stepEnds.done {s t : State} (ends : s.stepEnds t 0) : endedWith t 2 0 :=
  ⟨ends.state.trans (if_pos rfl), ends.detail, ends.event, ends.source⟩

/-! ### The limit of a step -/

theorem State.stepLate_effect (s : State) (n : Nat) : endedWith (s.stepLate n) 3 1 ∧
    (s.stepLate n).now = max s.now (s.brup.since + s.stepLimit n) ∧ (s.stepLate n).fuses = s.fuses ∧ (s.stepLate n).nor = s.nor := by
  unfold State.stepLate
  generalize s.brup.since + s.stepLimit n = due
  have ends := (s.at due).stepEnd_ends (show 1 < 256 by decide)
  have now : (s.at due).now = max s.now due := rfl
  have fuses : (s.at due).fuses = s.fuses := rfl
  have nor : (s.at due).nor = s.nor := rfl
  generalize (s.at due).stepEnd 1 = t at *
  exact ⟨ends.failed (by decide), ends.now.trans now, ends.fuses.trans fuses, ends.nor.trans nor⟩

/-! ### Step 0: the image in NOR (R442) -/

theorem State.bootEnd_good {s : State} (good : s.bootCode = 0) : endedWith s.bootEnd 2 0 ∧
    s.bootEnd.fuses.svn = Config.imageVersion s.nor.firmware ∧
    (∀ k, k < 4 → (bitOf (mget s.bootEnd.fuses.revoked 0 0) k = true ↔ bitOf (mget s.fuses.revoked 0 0) k = true ∨
      (bitOf (Config.imageRevokes s.nor.firmware) k = true ∧ ¬(k = s.fwSlots.1 ∨ k = s.fwSlots.2)))) ∧
    s.bootEnd.fuses.enrolled = s.fuses.enrolled ∧ s.bootEnd.fuses.hashes = s.fuses.hashes ∧ s.bootEnd.nor = s.nor := by
  obtain ⟨new, -, -⟩ := State.bootCode_zero good
  obtain ⟨rest, svn, revoked, enrolled, hashes⟩ := s.bootDone_effect
  rw [State.bootEnd, if_pos good]
  generalize s.bootDone = u at *
  have norU : u.nor = s.nor := (congrArg State.nor rest :)
  have ends := u.stepEnd_ends (show 0 < 256 by decide)
  generalize u.stepEnd 0 = t at *
  rw [ends.fuses]
  refine ⟨ends.done, svn.trans (max_eq_right new), fun k small => ?_, enrolled, hashes, ends.nor.trans norU⟩
  rw [revoked k, decide_eq_true small, Bool.true_and, Bool.or_eq_true]
  exact or_congr_right (by simp [State.bootRevokes, and_assoc])

theorem State.bootEnd_bad {s : State} (bad : s.bootCode ≠ 0) : s.bootEnd = s.escHalt s.bootCode := by
  rw [State.bootEnd, if_neg bad]

theorem State.escHalt_effect (s : State) (code : Nat) :
    (s.escHalt code).esc = { s.esc with boot := code } ∧ { s.escHalt code with esc := s.esc } = s := ⟨rfl, rfl⟩

/-! ### Step 3: the pseudo-channels that do not train (R253) -/

theorem State.hbmDone_mapped (s : State) {bad : List Nat} {k : Nat} (small : k < 768) (mem : k ∈ bad) (fitted : s.fitted (k / 64) = true) :
    (s.hbmDone bad).mappedOut k := by
  have gone : k ∈ (List.range 768).filter (fun n => bad.contains n && s.fitted (n / 64)) :=
    List.mem_filter.mpr ⟨List.mem_range.mpr small, by simp [mem, fitted]⟩
  unfold State.hbmDone
  dsimp only
  generalize (List.range 768).filter (fun n => bad.contains n && s.fitted (n / 64)) = l at *
  obtain ⟨bit, kept⟩ := s.mapOuts_mappedOut gone
  generalize l.foldl State.mapOutNow s = u at *
  generalize shown : (if (List.range 12).any (fun m => u.fitted m && (List.range 64).all (fun q => l.contains (64 * m + q))) then 3 else 0) =
    detail
  have less : detail < 256 := by
    rw [← shown]
    split <;> decide
  have ends := u.stepEnd_ends less
  refine ⟨(State.rb_of_rg (ends.regs _ ?_) _).trans bit, by rw [ends.nor]; exact kept⟩
  simp only [List.mem_cons, List.not_mem_nil, or_false]
  unfold Reg.HBM_MAPPED Reg.BRUP_STATUS Reg.BRUP_EVT Reg.IRQ_RAW
  omega

/-! ### Step 6: the known-answer runs (R460) -/

/-- What the known-answer runs leave that did not fail, before the step ends. -/
def State.katGood (s : State) : State :=
  if s.ptn.committed then s.hbmUndefined (List.range 768) else (s.hbmUndefined (List.range 768)).applyVeneer

/-- The known-answer runs are done. -/
def State.katNoted (s : State) : State := { s with brup := { s.brup with katDone := true } }

theorem State.katDone_good {s : State} (met : s.veneerDetail = 0) : s.katDone [] = s.katGood.katNoted.stepEnd 0 := by
  have fuses : (s.hbmUndefined (List.range 768)).fuses = s.fuses := rfl
  have nor : (s.hbmUndefined (List.range 768)).nor = s.nor := rfl
  have ptn : (s.hbmUndefined (List.range 768)).ptn = s.ptn := rfl
  unfold State.katDone State.katGood State.katNoted
  dsimp only [List.foldl_nil, List.any_nil]
  rw [← ptn]
  generalize s.hbmUndefined (List.range 768) = u at *
  simp only [Bool.false_eq_true, if_false]
  rw [State.veneerDetail_congr fuses nor, met, if_neg (fun no => no rfl)]

theorem State.katGood_nor (s : State) : s.katGood.nor = s.nor := by
  have nor : (s.hbmUndefined (List.range 768)).nor = s.nor := rfl
  unfold State.katGood
  generalize s.hbmUndefined (List.range 768) = u at *
  split
  · exact nor
  · have rest := u.applyVeneer_rest
    generalize u.applyVeneer = v at *
    exact (congrArg State.nor rest :).trans nor

theorem State.katDone_effect {s : State} (met : s.veneerDetail = 0) :
    endedWith (s.katDone []) 2 0 ∧ (s.katDone []).brup.katDone = true ∧ (s.katDone []).nor = s.nor := by
  have nor := s.katGood_nor
  rw [State.katDone_good met]
  generalize s.katGood = u at *
  have noted : u.katNoted.nor = u.nor ∧ u.katNoted.brup.katDone = true := ⟨rfl, rfl⟩
  generalize u.katNoted = v at *
  have ends := v.stepEnd_ends (show 0 < 256 by decide)
  generalize v.stepEnd 0 = t at *
  exact ⟨ends.done, ends.kat.trans noted.2, ends.nor.trans (noted.1.trans nor)⟩

end Sys2Proof.Machine

/-! # The statement about bring-up, put together (R442, R459 to R461) -/

namespace Sys2Proof.Machine

/-! ## GO, step by step -/

/-- The commands that start a step, each with its step. -/
def stepGos (f : Func) : List (Instr × Nat) :=
  [(.dowel f, 1), (.darn f, 2), (.hbm f, 3), (.lining f, 4), (.veneer f, 5), (.kat f, 6), (.ready f, 8)]

/-- Step 8 begins: the first tick is due, or a reference is waited for. -/
theorem stepBody_eight (s : State) : (s.ptn.running.syncSrc = 0 → (stepBody 8 s).tick = { s.tick with next := some s.now }) ∧
    (s.ptn.running.syncSrc ≠ 0 → (stepBody 8 s).tick = { s.tick with waitEdge := true, refFrom := s.now }) := by
  rw [stepBody]
  split
  · next own => exact ⟨fun _ => rfl, fun no => absurd own no⟩
  · next no => exact ⟨fun own => absurd own no, fun _ => rfl⟩

section
variable {f : Func} {s : State} (ready : s.mustWait (portOf f) = false) (pf : isPf f = true)
include ready pf

theorem exec_go {c : Instr} {n : Nat} (mem : (c, n) ∈ stepGos f) :
    (s.stepMay n = true → ∃ t, exec c s = .next t ∧ runsFrom s n t) ∧
    (s.stepMay n = false → ∃ t, exec c s = .next t ∧ t.rb Reg.BRUP_STATUS 16 = true ∧ onlyRegs [Reg.BRUP_STATUS] s t) := by
  refine ⟨fun may => ?_, exec_step_refused ready pf mem⟩
  obtain ⟨n16, run⟩ := exec_step_starts ready pf mem may
  exact ⟨_, run, (s.stepBegun_begun n16).runs⟩

theorem exec_darn (may : s.stepMay 2 = true) : ∃ t, exec (.darn f) s = .next t ∧
    (∀ n, n ∈ s.nor.mapOut → n < 768 → t.maskBit Reg.HBM_MAPPED n = true) ∧ ∀ p, p ∈ s.nor.fenced → (t.dom p).st = .fenced := by
  obtain ⟨n16, run⟩ := exec_step_starts ready pf (c := .darn f) (n := 2) (by simp) may
  obtain ⟨-, -, mapped, fenced⟩ := stepBody_two_effect (s.stepBegun 2)
  rw [(s.stepBegun_begun n16).nor] at mapped fenced
  exact ⟨_, run, mapped, fenced⟩

theorem exec_lining (may : s.stepMay 4 = true) : ∃ t, exec (.lining f) s = .next t ∧ t.lin.secs = [] ∧ t.lin.lines = [] ∧
    t.lin.copies = [] ∧ t.hbm = s.hbm := by
  obtain ⟨n16, run⟩ := exec_step_starts ready pf (c := .lining f) (n := 4) (by simp) may
  have hbm := (s.stepBegun_begun n16).hbm
  generalize s.stepBegun 4 = u at *
  exact ⟨_, run, rfl, rfl, rfl, hbm⟩

theorem exec_veneer (may : s.stepMay 5 = true) (met : s.veneerDetail = 0) : ∃ t, exec (.veneer f) s = .next t ∧
    t.ptn.running.sec 2 0 = s.defaultVeneer ∧
    ∀ p, p < 72 → s.coreLost p = false → (s.dom p).st = .unpowered → (t.dom p).st = .waiting := by
  obtain ⟨n16, run⟩ := exec_step_starts ready pf (c := .veneer f) (n := 5) (by simp) may
  have begun := s.stepBegun_begun n16
  obtain ⟨-, -, veneer, waits⟩ := stepBody_five_effect (s.stepBegun 5)
  generalize s.stepBegun 5 = u at *
  rw [State.veneerDetail_congr begun.fuses begun.nor, State.defaultVeneer_congr begun.fuses begun.nor] at veneer
  refine ⟨_, run, veneer met, fun p small able off => waits p small ?_ ?_⟩
  · rw [begun.coreLost p]
    exact able
  · rw [State.dom, begun.pwr]
    exact off

theorem exec_kat (may : s.stepMay 6 = true) : ∃ t, exec (.kat f) s = .next t ∧ t.brup.katDone = false := by
  obtain ⟨n16, run⟩ := exec_step_starts ready pf (c := .kat f) (n := 6) (by simp) may
  refine ⟨_, run, ?_⟩
  rw [(stepBody_record ..).1, (s.stepBegun_begun n16).brup]
  rfl

theorem exec_ready (may : s.stepMay 8 = true) : ∃ t, exec (.ready f) s = .next t ∧
    (s.ptn.running.syncSrc = 0 → t.tick = { s.tick with next := some s.now }) ∧
    (s.ptn.running.syncSrc ≠ 0 → t.tick = { s.tick with waitEdge := true, refFrom := s.now }) := by
  obtain ⟨n16, run⟩ := exec_step_starts ready pf (c := .ready f) (n := 8) (by simp) may
  have begun := s.stepBegun_begun n16
  have starts := stepBody_eight (s.stepBegun 8)
  rw [begun.ptn, begun.tick, begun.now] at starts
  exact ⟨_, run, starts⟩

end

/-! ## Ends, step by step -/

section
variable (late s : State) (bad : List Nat)

theorem stepEnding_boot : stepEnding late .done bad 0 s = if s.pwr.stageTwo then s.bootEnd else s := rfl
theorem stepEnding_halt (id : BitVec 16) : stepEnding late (.unit id) bad 0 s = if id = 0x0E01 then s.escHalt 0x0E01 else s := rfl
theorem stepEnding_hbm : stepEnding late .done bad 3 s = s.hbmDone bad := rfl
theorem stepEnding_lining : stepEnding late .done bad 4 s = s.stepEnd 0 := rfl
theorem stepEnding_veneer : stepEnding late .done bad 5 s = if s.veneerDetail ≠ 0 then s.stepEnd s.veneerDetail
    else if s.usableCores.all (fun p => (s.dom p).st == .up) then s.stepEnd 0 else s := rfl
theorem stepEnding_kat : stepEnding late .done bad 6 s = s.katDone bad := rfl
theorem stepEnding_ready : stepEnding late .done bad 8 s = if s.tick.en then s.stepEnd 0 else s := rfl

end

section
variable {s : State} (boot : s.esc.boot = 0) (running : s.brupStep.2 = 1)
include boot running

theorem exec_stepEnd_time (others : s.brupStep.1 ≠ 7) (bad : List Nat) : ∃ t, exec (.brupStepEnd .time bad) s = .next t ∧
    endedWith t 3 1 ∧ t.now = max s.now (s.brup.since + s.stepLimit s.brupStep.1) ∧ t.fuses = s.fuses ∧ t.nor = s.nor := by
  have run := exec_brupStepEnd boot running others .time bad
  rw [stepEnding_time] at run
  exact ⟨_, run, s.stepLate_effect _⟩

/-- The end of step `n`, which is not 7. -/
theorem exec_stepEnd_at {n : Nat} (at_ : s.brupStep.1 = n) (others : n ≠ 7) (e : StepEnd) (bad : List Nat) :
    exec (.brupStepEnd e bad) s = .next (stepEnding (s.stepLate n) e bad n s) := by
  have run := exec_brupStepEnd boot running (by rw [at_]; exact others) e bad
  rw [at_] at run
  exact run

theorem exec_bootEnd (at_ : s.brupStep.1 = 0) (two : s.pwr.stageTwo = true) (bad : List Nat) :
    exec (.brupStepEnd .done bad) s = .next s.bootEnd := by
  rw [exec_stepEnd_at boot running at_ (by decide), stepEnding_boot, if_pos two]

theorem exec_bootHalt (at_ : s.brupStep.1 = 0) (bad : List Nat) :
    exec (.brupStepEnd (.unit 0x0E01) bad) s = .next (s.escHalt 0x0E01) := by
  rw [exec_stepEnd_at boot running at_ (by decide), stepEnding_halt, if_pos rfl]

theorem exec_hbmDone (at_ : s.brupStep.1 = 3) (bad : List Nat) : exec (.brupStepEnd .done bad) s = .next (s.hbmDone bad) := by
  rw [exec_stepEnd_at boot running at_ (by decide), stepEnding_hbm]

theorem exec_liningDone (at_ : s.brupStep.1 = 4) : ∃ t, exec (.brupStepEnd .done []) s = .next t ∧ s.stepEnds t 0 := by
  refine ⟨s.stepEnd 0, ?_, s.stepEnd_ends (by decide)⟩
  rw [exec_stepEnd_at boot running at_ (by decide), stepEnding_lining]

theorem exec_veneerDone (at_ : s.brupStep.1 = 5) (met : s.veneerDetail = 0)
    (up : ∀ p, p < 72 → s.coreLost p = false → (s.dom p).st = .up) :
    ∃ t, exec (.brupStepEnd .done []) s = .next t ∧ s.stepEnds t 0 := by
  have allUp : s.usableCores.all (fun p => (s.dom p).st == .up) = true := List.all_eq_true.mpr fun p mem => by
    obtain ⟨small, able⟩ := List.mem_filter.mp mem
    rw [up p (List.mem_range.mp small) (by simpa using able)]
    rfl
  refine ⟨s.stepEnd 0, ?_, s.stepEnd_ends (by decide)⟩
  rw [exec_stepEnd_at boot running at_ (by decide), stepEnding_veneer, if_neg (fun no => no met), if_pos allUp]

theorem exec_katDone (at_ : s.brupStep.1 = 6) : exec (.brupStepEnd .done []) s = .next (s.katDone []) := by
  rw [exec_stepEnd_at boot running at_ (by decide), stepEnding_kat]

theorem exec_readyDone (at_ : s.brupStep.1 = 8) :
    exec (.brupStepEnd .done []) s = .next (if s.tick.en then s.stepEnd 0 else s) := by
  rw [exec_stepEnd_at boot running at_ (by decide), stepEnding_ready]

end

/-- Settles O58: a GO runs its step's first actions on the state with the step noted, and a step's end is decided step by step. -/
theorem bringUp : Obligations.BringUp := by
  unfold Obligations.BringUp
  intro f s
  refine ⟨fun ready pf => ⟨fun c n mem => exec_go ready pf mem, exec_darn ready pf, exec_lining ready pf, exec_veneer ready pf,
    exec_kat ready pf, exec_ready ready pf⟩, fun boot running => ⟨exec_stepEnd_time boot running,
    fun seven e bad => exec_brupStepEnd_seven seven e bad, fun zero two bad => ⟨fun good => ?_, fun wrong => ?_⟩,
    fun zero bad => ⟨_, exec_bootHalt boot running zero bad, s.escHalt_effect _⟩, fun three bad => ⟨_, exec_hbmDone boot running three bad, ?_⟩,
    fun four => ?_, fun five met up => ?_, fun six met => ⟨_, exec_katDone boot running six, State.katDone_effect met⟩,
    fun eight => ⟨fun ticks => ?_, fun still => ?_⟩⟩⟩
  · obtain ⟨new, rsa, slh⟩ := State.bootCode_zero good
    exact ⟨new, rsa, slh, _, exec_bootEnd boot running zero two bad, State.bootEnd_good good⟩
  · obtain ⟨low, high⟩ := State.bootCode_range wrong
    refine ⟨low, high, _, exec_bootEnd boot running zero two bad, ?_⟩
    rw [State.bootEnd_bad wrong]
    exact s.escHalt_effect _
  · exact fun k small mem fitted => s.hbmDone_mapped small mem fitted
  · obtain ⟨t, run, ends⟩ := exec_liningDone boot running four
    exact ⟨t, run, ends.done, ends.lin⟩
  · obtain ⟨t, run, ends⟩ := exec_veneerDone boot running five met up
    exact ⟨t, run, ends.done, ends.pwr⟩
  · have run := exec_readyDone boot running eight
    rw [if_pos ticks] at run
    have ends := s.stepEnd_ends (show 0 < 256 by decide)
    exact ⟨_, run, ends.done, ends.tick⟩
  · have run := exec_readyDone boot running eight
    rw [if_neg (by rw [still]; decide)] at run
    exact run

end Sys2Proof.Machine

/-! # Write-backs of sectors (R228, R237, R241, R272, R328) -/

namespace Sys2Proof.Machine

/-! ## What a write-back may touch -/

/-- What the write-back of sectors may touch: registers of banks and NET.EVT, HBM, and DIRTY marks that go. -/
structure State.writesBack (s t : State) : Prop where
  rest : { t with regs := s.regs, setAt := s.setAt, hbm := s.hbm, lin := { t.lin with secs := s.lin.secs } } = s
  regs : ∀ j, j < 2 ^ 28 → j ≠ Reg.NET_EVT → t.rg j = s.rg j
  stks : t.hbm.stks = s.hbm.stks
  secs : ∀ b, t.sec b = s.sec b ∨ t.sec b = { s.sec b with dirty := false }

namespace State.writesBack

theorem refl (s : State) : s.writesBack s := ⟨rfl, fun _ _ _ => rfl, rfl, fun _ => .inl rfl⟩

theorem trans {s t u : State} (h : s.writesBack t) (k : t.writesBack u) : s.writesBack u := by
  refine ⟨?_, fun j low ne => (k.regs j low ne).trans (h.regs j low ne), k.stks.trans h.stks, fun b => ?_⟩
  · exact ((congrArg (fun v : State => { v with regs := s.regs, setAt := s.setAt, hbm := s.hbm, lin := { v.lin with secs := s.lin.secs } })
      k.rest :)).trans h.rest
  · rcases k.secs b with same | clean
    · rw [same]
      exact h.secs b
    · rw [clean]
      rcases h.secs b with same | clear
      · rw [same]
        exact .inr rfl
      · rw [clear]
        exact .inr rfl

theorem of_sendsOnly {s t : State} (h : s.sendsOnly t) (spl : t.spl = s.spl) (outbox : t.outbox = s.outbox) (free : t.free = s.free)
    (log : t.log = s.log) (regs : ∀ j, j < 2 ^ 28 → j ≠ Reg.NET_EVT → t.rg j = s.rg j) : s.writesBack t := by
  have rest : { t with regs := s.regs, setAt := s.setAt } = s := by
    have whole : { t with regs := s.regs, setAt := s.setAt, log := t.log, spl := t.spl, outbox := t.outbox, free := t.free } =
        { t with regs := s.regs, setAt := s.setAt } := rfl
    rw [← whole, log, spl, outbox, free]
    exact (congrArg (fun v : State => { v with spl := s.spl }) h :)
  exact ⟨(congrArg (fun v : State => { v with hbm := s.hbm, lin := { v.lin with secs := s.lin.secs } }) rest :), regs,
    congrArg Hbm.stks h.hbm, fun b => .inl (by rw [State.sec, h.lin, State.sec])⟩

section
variable {s t : State} (h : s.writesBack t)
include h

theorem ptn : t.ptn = s.ptn := (congrArg State.ptn h.rest :)
theorem esc : t.esc = s.esc := (congrArg State.esc h.rest :)
theorem linRest : { t.lin with secs := s.lin.secs } = s.lin := (congrArg State.lin h.rest :)
theorem data : t.lin.data = s.lin.data := (congrArg Lining.data h.linRest :)
theorem lines : t.lin.lines = s.lin.lines := (congrArg Lining.lines h.linRest :)
theorem writeBack : t.lin.writeBack = s.lin.writeBack := (congrArg Lining.writeBack h.linRest :)
theorem linBytes (a n : Nat) : t.linBytes a n = s.linBytes a n := by rw [State.linBytes, h.data, State.linBytes]

theorem alike : s.routesAlike t where
  ptn := h.ptn
  dirs := (congrArg (fun v : State => v.net.dirs) h.rest :)
  fuses := (congrArg State.fuses h.rest :)
  brup := (congrArg State.brup h.rest :)
  status := h.regs _ (by decide) (by decide)

theorem pchLive {n : Nat} (small : n < 768) : t.pchLive n = s.pchLive n := by
  have low : Reg.HBM_MAPPED < 2 ^ 20 := by decide
  have evt : Reg.HBM_MAPPED + 4 * 24 ≤ Reg.NET_EVT ∨ Reg.NET_EVT < Reg.HBM_MAPPED := by decide
  have bit : t.maskBit Reg.HBM_MAPPED n = s.maskBit Reg.HBM_MAPPED n :=
    State.rb_of_rg (h.regs _ (by omega) (by omega)) _
  rw [State.pchLive, bit, State.fitted, h.alike.fuses, State.pchLive, State.fitted]

theorem place (a : Nat) : t.hbmPlace a = s.hbmPlace a := (span_congr h.ptn (fun _ small => h.pchLive small)).1 a

theorem spanOwner (a : Nat) : t.spanOwner a = s.spanOwner a := (span_congr h.ptn (fun _ small => h.pchLive small)).2.2 a

theorem sectorKey (a : Nat) : t.sectorKey a = s.sectorKey a := by rw [State.sectorKey, h.place, State.sectorKey]

theorem stackOf (a : Nat) : t.stackOf a = s.stackOf a := by rw [State.stackOf, h.place, State.stackOf]

theorem keyGen (a : Nat) : t.keyGen a = s.keyGen a := by rw [State.keyGen, h.spanOwner, h.esc, h.ptn, State.keyGen]

theorem stopped (a : Nat) : t.stackStopped a = s.stackStopped a := by
  rw [State.stackStopped, State.stackSt, h.stackOf, h.stks, State.stackStopped, State.stackSt]

theorem sinks (die a : Nat) : t.sinks die a = s.sinks die a := by
  rw [State.sinks, h.stopped, h.stackOf, h.alike.route, State.sinks]

theorem clean {b : Nat} (clean : (s.sec b).dirty = false) : t.sec b = s.sec b := by
  rcases h.secs b with same | clear
  · exact same
  · rw [clear, ← clean]

theorem valid (b : Nat) : (t.sec b).v = (s.sec b).v := by
  rcases h.secs b with same | clear
  · rw [same]
  · rw [clear]

end

end State.writesBack

/-- Counters of banks are all that a packet changes that finds its way. -/
theorem State.carryOver_writesBack (s : State) (dirs : List Nat) (cls bytes : Nat) : s.writesBack (s.carryOver dirs cls bytes) := by
  obtain ⟨r, eq, same⟩ := carryOver_regs dirs cls bytes s
  rw [eq]
  exact ⟨rfl, fun j low _ => same j low, rfl, fun _ => .inl rfl⟩

theorem State.evSet_writesBack (s : State) (i : Nat) : s.writesBack (s.evSet Reg.NET_EVT i) :=
  ⟨rfl, fun _ _ other => rg_evSet_other s i other, rfl, fun _ => .inl rfl⟩

theorem State.carry_writesBack (s : State) (a b cls bytes : Nat) : s.writesBack (s.carry a b cls bytes).2 := by
  unfold State.carry
  split
  · exact (State.carryOver_writesBack ..).trans (State.evSet_writesBack ..)
  · exact State.carryOver_writesBack ..

theorem State.carry_ok (s : State) (a b cls bytes : Nat) : (s.carry a b cls bytes).1 = (s.route a b 11).isSome := by
  unfold State.carry
  split
  · next none => rw [none]; rfl
  · next some => rw [some]; rfl

theorem State.carry_hbm (s : State) (a b cls bytes : Nat) : (s.carry a b cls bytes).2.hbm = s.hbm := (s.carry_sendsOnly a b cls bytes).hbm

theorem State.sec_secSet_same (s : State) (a : Nat) (x : Sec) : (s.secSet a x).sec a = x := mget_mset_same ..

theorem State.sec_secSet_other (s : State) {a b : Nat} (x : Sec) (other : b / 32 ≠ a / 32) : (s.secSet a x).sec b = s.sec b :=
  mget_mset_other s.lin.secs x {} {} other

theorem State.sec_of_block (s : State) {a b : Nat} (same : b / 32 = a / 32) : s.sec b = s.sec a := by rw [State.sec, same, State.sec]

theorem State.secSet_writesBack (s : State) (a : Nat) : s.writesBack (s.secSet a { s.sec a with dirty := false }) := by
  refine ⟨rfl, fun _ _ _ => rfl, rfl, fun b => ?_⟩
  by_cases same : b / 32 = a / 32
  · rw [State.sec_of_block _ same, s.sec_of_block same, State.sec_secSet_same]
    exact .inr rfl
  · exact .inl (s.sec_secSet_other _ same)

/-! ## One sector -/

/-- A sector with its marks written to HBM, and clean. -/
def State.sectorSent (s : State) (a : Nat) (x : Sec) : State :=
  (s.hbmWrite a (s.linBytes a 32) x.poison).secSet a { x with dirty := false }

/-- The write-back of one sector from a die. -/
def State.sectorBack (die : Nat) (s : State) (a : Nat) : State :=
  if !(s.sec a).v || !(s.sec a).dirty || s.stackStopped a then s
  else if (s.carry die (s.stackOf a / 2) 0 32).1 then
    (s.carry die (s.stackOf a / 2) 0 32).2.sectorSent a (s.sec a)
  else (s.carry die (s.stackOf a / 2) 0 32).2

theorem State.writeDirty_eq (s : State) (die l : Nat) : s.writeDirty die l = (lineSecs l).foldl (State.sectorBack die) s := rfl

theorem State.hbmStore_writesBack (s : State) (k : Nat) (x : HSec) (bs : List Byte) : s.writesBack (s.hbmStore k x bs) :=
  ⟨rfl, fun _ _ _ => rfl, rfl, fun _ => .inl rfl⟩

theorem State.hbmWrite_writesBack (s : State) (a : Nat) (bs : List Byte) (poison : Bool) : s.writesBack (s.hbmWrite a bs poison) :=
  s.hbmStore_writesBack ..

theorem State.sectorSent_writesBack (s : State) (a : Nat) : s.writesBack (s.sectorSent a (s.sec a)) := by
  unfold State.sectorSent
  have written := s.hbmWrite_writesBack a (s.linBytes a 32) (s.sec a).poison
  have same : ∀ k x bs, (s.hbmStore k x bs).sec a = s.sec a := fun _ _ _ => rfl
  have kept : (s.hbmWrite a (s.linBytes a 32) (s.sec a).poison).sec a = s.sec a := same ..
  generalize s.hbmWrite a (s.linBytes a 32) (s.sec a).poison = x at *
  rw [← kept]
  exact written.trans (x.secSet_writesBack a)

theorem State.sectorBack_writesBack (die : Nat) (s : State) (a : Nat) : s.writesBack (s.sectorBack die a) := by
  have sent := s.carry_writesBack die (s.stackOf a / 2) 0 32
  have lin := carry_lin s die (s.stackOf a / 2) 0 32
  have same : (s.carry die (s.stackOf a / 2) 0 32).2.sec a = s.sec a := by rw [State.sec, lin, State.sec]
  unfold State.sectorBack
  generalize (s.carry die (s.stackOf a / 2) 0 32).1 = ok
  generalize (s.carry die (s.stackOf a / 2) 0 32).2 = w at *
  split
  · exact .refl s
  split
  · rw [← same]
    exact sent.trans (w.sectorSent_writesBack a)
  · exact sent

/-- A sector that is not DIRTY, or whose stack takes nothing, stays as it is. -/
theorem State.sectorBack_idle (die : Nat) {s : State} {a : Nat} (idle : (s.sec a).v = true → (s.sec a).dirty = true → s.stackStopped a = true) :
    s.sectorBack die a = s := by
  unfold State.sectorBack
  rw [if_pos]
  cases v : (s.sec a).v with
  | false => simp
  | true =>
    cases d : (s.sec a).dirty with
    | false => simp
    | true => simp [idle v d]

/-- A sector whose way to its stack is lost stays DIRTY. -/
theorem State.sectorBack_routeless (die : Nat) {s : State} {a : Nat}
    (noWay : (s.sec a).v = true → (s.sec a).dirty = true → s.sinks die a = false) :
    (s.sectorBack die a).lin = s.lin ∧ (s.sectorBack die a).hbm = s.hbm := by
  have ok := s.carry_ok die (s.stackOf a / 2) 0 32
  have lin := carry_lin s die (s.stackOf a / 2) 0 32
  have hbm := s.carry_hbm die (s.stackOf a / 2) 0 32
  unfold State.sectorBack
  split
  · exact ⟨rfl, rfl⟩
  · next moves =>
    simp only [Bool.or_eq_true, Bool.not_eq_true', not_or, Bool.not_eq_false] at moves
    obtain ⟨⟨v, d⟩, runs⟩ := moves
    have none : (s.route die (s.stackOf a / 2) 11).isSome = false := by
      have sinks := noWay v d
      rw [State.sinks, Bool.eq_false_iff.mpr runs] at sinks
      exact sinks
    rw [ok, none, if_neg Bool.false_ne_true]
    exact ⟨lin, hbm⟩

section
variable {die : Nat} {s : State} {a : Nat} (v : (s.sec a).v = true) (dirty : (s.sec a).dirty = true) (sinks : s.sinks die a = true)
include v dirty sinks

/-- A DIRTY sector that reaches its stack is written there, and is clean. -/
theorem State.sectorBack_written : ∃ w, s.writesBack w ∧ w.lin = s.lin ∧ w.hbm = s.hbm ∧
    s.sectorBack die a = (w.hbmWrite a (s.linBytes a 32) (s.sec a).poison).secSet a { s.sec a with dirty := false } := by
  have ok := s.carry_ok die (s.stackOf a / 2) 0 32
  have sent := s.carry_writesBack die (s.stackOf a / 2) 0 32
  have lin := carry_lin s die (s.stackOf a / 2) 0 32
  have hbm := s.carry_hbm die (s.stackOf a / 2) 0 32
  rw [State.sinks, Bool.and_eq_true, Bool.not_eq_true'] at sinks
  obtain ⟨runs, way⟩ := sinks
  refine ⟨_, sent, lin, hbm, ?_⟩
  unfold State.sectorBack
  rw [if_neg (by simp [v, dirty, runs]), ok, if_pos way, State.sectorSent, sent.linBytes]

theorem State.sectorBack_sec : (s.sectorBack die a).sec a = { s.sec a with dirty := false } := by
  obtain ⟨w, -, -, -, eq⟩ := State.sectorBack_written v dirty sinks
  rw [eq]
  exact mget_mset_same ..

/-- HBM then holds what the lining held, and its other sectors are as before. -/
theorem State.sectorBack_bytes : (s.sectorBack die a).hbmBytes a = s.linBytes a 32 ∧
    ∀ b, s.sectorKey b ≠ s.sectorKey a → (s.sectorBack die a).hbmBytes b = s.hbmBytes b := by
  obtain ⟨w, sent, -, hbm, eq⟩ := State.sectorBack_written v dirty sinks
  have written : ∃ x : HSec, x.gen = w.keyGen a ∧
      w.hbmWrite a (s.linBytes a 32) (s.sec a).poison = w.hbmStore (w.sectorKey a) x (s.linBytes a 32) := ⟨_, rfl, rfl⟩
  obtain ⟨x, gen, stored⟩ := written
  obtain ⟨here, away⟩ := w.hbmBytes_hbmStore (bs := s.linBytes a 32) (by simp [State.linBytes, readCells]) gen
  have marked : ∀ (y : State) b z, (y.secSet a z).hbmBytes b = y.hbmBytes b := fun _ _ _ => rfl
  rw [eq, stored, marked]
  refine ⟨here, fun b ne => ?_⟩
  rw [marked, away b (by rw [sent.sectorKey, sent.sectorKey]; exact ne)]
  have same : ∀ k i, w.hbmByte (s.keyGen b) k i = s.hbmByte (s.keyGen b) k i := fun k i => by
    unfold State.hbmByte
    rw [hbm]
  rw [State.hbmBytes_eq, State.hbmBytes_eq, sent.keyGen, sent.sectorKey]
  exact List.map_congr_left fun i _ => same _ i

end

/-! ## A line -/

theorem State.writeDirty_writesBack (s : State) (die l : Nat) : s.writesBack (s.writeDirty die l) :=
  foldl_related .refl .trans (fun u a => u.sectorBack_writesBack die a) (lineSecs l) s

theorem State.writeDirty_idle {s : State} (die : Nat) {l : Nat}
    (idle : ∀ b ∈ lineSecs l, (s.sec b).v = true → (s.sec b).dirty = true → s.stackStopped b = true) : s.writeDirty die l = s :=
  foldl_idle (f := State.sectorBack die) (fun b mem => State.sectorBack_idle die (idle b mem))

/-- A sector is clean, or empty. -/
def State.settled (s : State) (b : Nat) : Prop := (s.sec b).v = true → (s.sec b).dirty = false

theorem State.writesBack.settled {s t : State} (h : s.writesBack t) {b : Nat} (clean : s.settled b) : t.settled b := fun v => by
  rcases h.secs b with same | clear
  · rw [same] at v ⊢
    exact clean v
  · rw [clear]

theorem State.sectorBack_settled {die : Nat} {s : State} {b : Nat} (sinks : s.sinks die b = true) : (s.sectorBack die b).settled b := by
  cases v : (s.sec b).v with
  | false =>
    intro valid
    rw [(s.sectorBack_writesBack die b).valid, v] at valid
    cases valid
  | true =>
    cases d : (s.sec b).dirty with
    | false => exact (s.sectorBack_writesBack die b).settled (fun _ => d)
    | true =>
      intro _
      rw [State.sectorBack_sec v d sinks]

theorem State.writeDirty_settled {die l : Nat} {s : State} {b : Nat} (mem : b ∈ lineSecs l) (sinks : s.sinks die b = true) :
    (s.writeDirty die l).settled b :=
  foldl_establishes (I := s.writesBack) (P := fun u : State => u.settled b) (f := State.sectorBack die)
    (fun u a h => h.trans (u.sectorBack_writesBack die a)) (fun u a _ clean => (u.sectorBack_writesBack die a).settled clean)
    (fun _ h => State.sectorBack_settled ((h.sinks die b).trans sinks)) mem (.refl s)

end Sys2Proof.Machine

/-! # The statement about the lining's upkeep (R237, R244, R245, R247, R250) -/

namespace Sys2Proof.Machine

/-! ## The scrubber (R244) -/

theorem exec_scrubTurn_off {s : State} (off : s.rb Reg.LIN_SCRUB 0 = false) (die : Fin 6) (slice : Fin 256) (ecc : Ecc) :
    exec (.scrubTurn die slice ecc) s = .next s := by
  have known : exec (.scrubTurn die slice ecc) s = execScrubTurn die slice ecc s := rfl
  rw [known, execScrubTurn, off]
  rfl

/-- A state whose stale queue of a slice is another. -/
def State.staleTo (s : State) (sl : Nat) (rest : List Nat) : State :=
  { s with lin := { s.lin with staleQ := mset s.lin.staleQ sl rest [] } }

theorem exec_scrubTurn_stale {s : State} {die : Fin 6} {slice : Fin 256} {a : Nat} {rest : List Nat} (scrubs : s.rb Reg.LIN_SCRUB 0 = true)
    (queue : mget s.lin.staleQ (256 * die.val + slice.val) [] = a :: rest) (ecc : Ecc) : exec (.scrubTurn die slice ecc) s =
      .next ((s.staleTo (256 * die.val + slice.val) rest).scrub (256 * die.val + slice.val) a ecc) := by
  have known : exec (.scrubTurn die slice ecc) s = execScrubTurn die slice ecc s := rfl
  rw [known, execScrubTurn, scrubs]
  dsimp only
  rw [queue]
  rfl

/-- A good stale sector is sealed anew. -/
theorem State.scrub_stale {s : State} {a : Nat} (v : (s.sec a).v = true) (good : (s.sec a).poison = false) (stale : (s.sec a).stale = true)
    (sl : Nat) : s.scrub sl a .clean = s.secSeal a { s.sec a with stale := false } true := by
  have outcome : (s.sec a).outcome .clean = .good := by simp [Sec.outcome, good]
  unfold State.scrub
  dsimp only
  rw [v, outcome, stale]
  rfl

theorem State.secSeal_eq (s : State) (a : Nat) (x : Sec) : s.secSeal a x true =
    s.secSet a { x with parity := parityOf (s.linBytes (a / 32 * 32) 32), code := Config.sectorCode (s.linBytes (a / 32 * 32) 32) } := rfl

theorem exec_scrubTurn_seals {s : State} {die : Fin 6} {slice : Fin 256} {a : Nat} {rest : List Nat} (scrubs : s.rb Reg.LIN_SCRUB 0 = true)
    (queue : mget s.lin.staleQ (256 * die.val + slice.val) [] = a :: rest) (v : (s.sec a).v = true) (good : (s.sec a).poison = false)
    (stale : (s.sec a).stale = true) : ∃ t, exec (.scrubTurn die slice .clean) s = .next t ∧
      t.sec a = { s.sec a with
        stale := false
        parity := parityOf (s.linBytes (a / 32 * 32) 32)
        code := Config.sectorCode (s.linBytes (a / 32 * 32) 32) } ∧
      mget t.lin.staleQ (256 * die.val + slice.val) [] = rest ∧ t.lin.data = s.lin.data ∧ (∀ b, b / 32 ≠ a / 32 → t.sec b = s.sec b) ∧
      t.hbm = s.hbm := by
  refine ⟨_, exec_scrubTurn_stale scrubs queue _, ?_⟩
  generalize 256 * die.val + slice.val = sl
  have left : mget (s.staleTo sl rest).lin.staleQ sl [] = rest := mget_mset_same ..
  have secs : ∀ b, (s.staleTo sl rest).sec b = s.sec b := fun _ => rfl
  have data : (s.staleTo sl rest).lin.data = s.lin.data := rfl
  have bytes : ∀ b n, (s.staleTo sl rest).linBytes b n = s.linBytes b n := fun _ _ => rfl
  have hbm : (s.staleTo sl rest).hbm = s.hbm := rfl
  generalize s.staleTo sl rest = u at *
  rw [State.scrub_stale (by rw [secs]; exact v) (by rw [secs]; exact good) (by rw [secs]; exact stale), State.secSeal_eq, bytes, secs]
  exact ⟨u.sec_secSet_same _ _, left, data, fun b other => (u.sec_secSet_other _ other).trans (secs b), hbm⟩

/-! ## Thrash windows (R250) -/

/-- The count of a window that ends, shown in a register. -/
def State.countShown (s : State) (key n : Nat) : State :=
  if (s.rfSet key 15 0 n).rf key 31 16 < n then (s.rfSet key 15 0 n).rfSet key 31 16 n else s.rfSet key 15 0 n

theorem State.countShown_effect (s : State) (key : Nat) {n : Nat} (small : n ≤ 0xFFFF) :
    { s.countShown key n with regs := s.regs } = s ∧ (s.countShown key n).rf key 15 0 = n := by
  unfold State.countShown
  have low := rf_rfSet_same s key 15 0 n (by decide) (by decide)
  rw [Nat.mod_eq_of_lt (by omega)] at low
  have rest := s.rfSet_rest key 15 0 n
  generalize s.rfSet key 15 0 n = u at *
  split
  · have rest' := u.rfSet_rest key 31 16 n
    have kept := rf_rfSet_apart u key 31 16 n 15 0 (by decide) (by decide) (by decide)
    generalize u.rfSet key 31 16 n = w at *
    exact ⟨((congrArg (fun v : State => { v with regs := s.regs }) rest' :)).trans rest, kept.trans low⟩
  · exact ⟨rest, low⟩

/-- Dead evictions counted otherwise. -/
def State.deadSet (s : State) (m : List (Nat × Nat)) : State := { s with lin := { s.lin with dead := m } }

/-- The window's count cleared. -/
def State.deadCleared (s : State) (sl : Nat) : State := s.deadSet (mset s.lin.dead sl 0 0)

theorem State.deadSet_effect (s : State) (m : List (Nat × Nat)) : (s.deadSet m).lin = { s.lin with dead := m } ∧ (s.deadSet m).hbm = s.hbm ∧
    (s.deadSet m).regs = s.regs := ⟨rfl, rfl, rfl⟩

/-- A slice that thrashes, from now on. -/
def State.thrashing (s : State) (sl : Nat) : State := { s with lin := { s.lin with thrashed := sl :: s.lin.thrashed } }

/-- A slice that does not thrash, from now on. -/
def State.thrashOver (s : State) (sl : Nat) : State := { s with lin := { s.lin with thrashed := s.lin.thrashed.filter (· != sl) } }

/-- A slice found thrashing, and shown. -/
def State.thrashNoted (s : State) (sl : Nat) : State := (s.thrashing sl).evSet (Reg.LIN_THRASH + 4 * (sl / 32)) (sl % 32)

/-- A slice found thrashing, and reported. -/
def State.thrashFound (s : State) (sl : Nat) : State :=
  ((s.thrashNoted sl).err wThrash (unitId 3 sl) ((s.thrashNoted sl).ptn.running.sliceOwner sl) 0 0).raise 131

theorem State.thrashFound_effect (s : State) {sl : Nat} (small : sl < 1536) : let t := s.thrashFound sl
    (s.thrashing sl).sameButLog t ∧ t.maskBit Reg.LIN_THRASH sl = true ∧ t.rb (Reg.IRQ_RAW + 16) 3 = true ∧
      ∀ key, 2 ^ 28 ≤ key → t.rg key = s.rg key := by
  have regsA : (s.thrashing sl).regs = s.regs := rfl
  unfold State.thrashFound State.thrashNoted
  generalize s.thrashing sl = a at *
  have bit := rb_evSet_same a (Reg.LIN_THRASH + 4 * (sl / 32)) (sl % 32) (by omega)
  have restB := a.evSet_sameButLog (Reg.LIN_THRASH + 4 * (sl / 32)) (sl % 32)
  have apart : ∀ key, 2 ^ 28 ≤ key → (a.evSet (Reg.LIN_THRASH + 4 * (sl / 32)) (sl % 32)).rg key = a.rg key := fun key high =>
    rg_evSet_other _ _ (by unfold Reg.LIN_THRASH; omega)
  generalize a.evSet (Reg.LIN_THRASH + 4 * (sl / 32)) (sl % 32) = b at *
  generalize b.ptn.running.sliceOwner sl = owner
  have restC := b.err_sameButLog wThrash (unitId 3 sl) owner 0 0
  have keptC : ∀ k, unnotedKey k → (b.err wThrash (unitId 3 sl) owner 0 0).rg k = b.rg k := fun k out =>
    b.rg_err out (by decide) ..
  generalize b.err wThrash (unitId 3 sl) owner 0 0 = c at *
  have restD := c.raise_high_sameButLog (src := 131) (by decide)
  have source := c.rb_raise_high (src := 131) (by decide)
  have keptD : ∀ k, unnotedKey k → (c.raise 131).rg k = c.rg k := fun k out => c.rg_raise out (by decide)
  generalize c.raise 131 = d at *
  have out : unnotedKey (Reg.LIN_THRASH + 4 * (sl / 32)) := by
    unfold unnotedKey Reg.LIN_THRASH Reg.IRQ_RAW
    omega
  refine ⟨?_, ?_, source, fun key high => ?_⟩
  · exact State.sameButLog_trans restB (State.sameButLog_trans restC restD)
  · exact (State.rb_of_rg ((keptD _ out).trans (keptC _ out)) _).trans bit
  · have outBank : unnotedKey key := .inr (by omega)
    exact (keptD _ outBank).trans ((keptC _ outBank).trans ((apart key high).trans (rg_of_regs regsA _)))

/-- The judgement of a window that ends. -/
def State.thrashJudged (s : State) (sl n lim : Nat) : State :=
  if lim ≠ 0 ∧ lim < n ∧ !s.lin.thrashed.contains sl then s.thrashFound sl
  else if n ≤ lim / 2 then s.thrashOver sl
  else s

theorem State.thrashJudged_effect (s : State) {sl : Nat} (small : sl < 1536) (n lim : Nat) : let t := s.thrashJudged sl n lim
    (lim ≠ 0 → lim < n → sl ∉ s.lin.thrashed → sl ∈ t.lin.thrashed ∧ t.maskBit Reg.LIN_THRASH sl = true ∧
      t.rb (Reg.IRQ_RAW + 16) 3 = true) ∧
    (n ≤ lim / 2 → sl ∉ t.lin.thrashed) ∧ { t.lin with thrashed := s.lin.thrashed } = s.lin ∧ t.hbm = s.hbm ∧
      ∀ key, 2 ^ 28 ≤ key → t.rg key = s.rg key := by
  unfold State.thrashJudged
  split
  · next found =>
    obtain ⟨some, more, new⟩ := found
    obtain ⟨same, bit, source, shown⟩ := s.thrashFound_effect small
    have noted : (s.thrashing sl).lin = { s.lin with thrashed := sl :: s.lin.thrashed } := rfl
    have hbmA : (s.thrashing sl).hbm = s.hbm := rfl
    generalize s.thrashing sl = a at *
    generalize s.thrashFound sl = t at *
    have lin : t.lin = a.lin := (congrArg State.lin same :)
    have hbm : t.hbm = a.hbm := (congrArg State.hbm same :)
    dsimp only
    rw [lin, noted]
    exact ⟨fun _ _ _ => ⟨List.mem_cons_self, bit, source⟩, fun less => by omega, rfl, hbm.trans hbmA, shown⟩
  · next found =>
    have not : ¬(lim ≠ 0 ∧ lim < n ∧ sl ∉ s.lin.thrashed) := fun ⟨a, b, c⟩ => found ⟨a, b, by simpa using c⟩
    split
    · exact ⟨fun a b c => absurd ⟨a, b, c⟩ not, fun _ => by simp [State.thrashOver], rfl, rfl, fun _ _ => rfl⟩
    · next more => exact ⟨fun a b c => absurd ⟨a, b, c⟩ not, fun less => absurd less more, rfl, rfl, fun _ _ => rfl⟩

/-- The end of a thrash window of a slice. -/
def State.thrashEnd (s : State) (key sl m n lim : Nat) : State := ((s.countShown key m).deadCleared sl).thrashJudged sl n lim

theorem State.thrashEnd_effect (s : State) {sl : Nat} {key : Nat} (high : 2 ^ 28 ≤ key) (small : sl < 1536) {m : Nat} (shows : m ≤ 0xFFFF)
    (n lim : Nat) : let t := s.thrashEnd key sl m n lim
    mget t.lin.dead sl 0 = 0 ∧ t.rf key 15 0 = m ∧
      (lim ≠ 0 → lim < n → sl ∉ s.lin.thrashed → sl ∈ t.lin.thrashed ∧ t.maskBit Reg.LIN_THRASH sl = true ∧
        t.rb (Reg.IRQ_RAW + 16) 3 = true) ∧
      (n ≤ lim / 2 → sl ∉ t.lin.thrashed) ∧ t.lin.data = s.lin.data ∧ t.hbm = s.hbm := by
  unfold State.thrashEnd State.deadCleared
  obtain ⟨restA, shown⟩ := s.countShown_effect key shows
  generalize s.countShown key m = a at *
  have linA : a.lin = s.lin := (congrArg State.lin restA :)
  have hbmA : a.hbm = s.hbm := (congrArg State.hbm restA :)
  obtain ⟨linB, hbmB, regsB⟩ := a.deadSet_effect (mset a.lin.dead sl 0 0)
  generalize a.deadSet (mset a.lin.dead sl 0 0) = b at *
  obtain ⟨found, calm, lin, hbm, kept⟩ := b.thrashJudged_effect small n lim
  generalize b.thrashJudged sl n lim = t at *
  rw [linA] at linB
  have dead : t.lin.dead = b.lin.dead := (congrArg Lining.dead lin :)
  have data : t.lin.data = b.lin.data := (congrArg Lining.data lin :)
  have thrashed : b.lin.thrashed = s.lin.thrashed := (congrArg Lining.thrashed linB :)
  have deadB : b.lin.dead = mset s.lin.dead sl 0 0 := (congrArg Lining.dead linB :)
  have dataB : b.lin.data = s.lin.data := (congrArg Lining.data linB :)
  rw [thrashed] at found
  refine ⟨?_, (State.rf_of_rg ((kept key high).trans (rg_of_regs regsB _)) _ _).trans shown, found, calm, data.trans dataB, hbm.trans (hbmB.trans hbmA)⟩
  rw [dead, deadB]
  exact mget_mset_same ..

theorem exec_thrashWindowEnd (die : Fin 6) (slice : Fin 256) (s : State) : exec (.thrashWindowEnd die slice) s =
    .next (s.thrashEnd (bank Reg.LIN_SLICE_THRASH (256 * die.val + slice.val)) (256 * die.val + slice.val) (min (mget s.lin.dead (256 * die.val + slice.val) 0) 0xFFFF)
      (mget s.lin.dead (256 * die.val + slice.val) 0)
      (s.ptn.running.thrashLimit (256 * die.val + slice.val))) := rfl

end Sys2Proof.Machine

/-! # Clearing and flushing the lining, and the statement about its upkeep (R237, R245, R247) -/

namespace Sys2Proof.Machine

/-! ## Clearing (R245, R247) -/

/-- The lining cleared before READY, or as it is. -/
def State.linCleared (f : Func) (s : State) : State :=
  if isPf f && !s.tick.en && !s.lin.clearing then
    { s.clearLining with lin := { s.clearLining.lin with clearing := true } }
  else s

theorem exec_linClear {f : Func} {s : State} (ready : s.mustWait (portOf f) = false) :
    exec (.linClear f) s = .next (s.linCleared f) :=
  congrArg Host.Outcome.next (State.inOrder_of_ready ready _ _)

/-! ## Flushing (R237) -/

/-- The write-back of a line. -/
def State.lineBack (s : State) (e : Nat × Line) : State := s.writeDirty e.2.die e.1

theorem State.lineBack_writesBack (s : State) (e : Nat × Line) : s.writesBack (s.lineBack e) := s.writeDirty_writesBack ..

/-- The lines of a partition that are at home. -/
def State.mine (s : State) (p : Nat) : List (Nat × Line) := s.lin.lines.filter (fun e => decide (s.spanOwner (128 * e.1) = some p))

theorem State.mem_mine {s : State} {p : Nat} {e : Nat × Line} :
    e ∈ s.mine p ↔ e ∈ s.lin.lines ∧ s.spanOwner (128 * e.1) = some p := by
  rw [State.mine, List.mem_filter, decide_eq_true_eq]

/-- The lines and the write-back entries of a partition are settled in turn. -/
theorem State.flushPart_eq {s : State} (empty : s.lin.writeBack = []) (p : Nat) : s.flushPart p = (s.mine p).foldl State.lineBack s := by
  have known : s.flushPart p = (s.lin.writeBack.filter (fun e => decide (s.spanOwner (128 * e.1) = some p))).foldl
      (fun u e => u.acceptWriteBack e.1 e.2) ((s.mine p).foldl State.lineBack s) := rfl
  rw [known, empty]
  rfl

section
variable {s : State} (empty : s.lin.writeBack = []) (p : Nat)
include empty

theorem State.flushPart_writesBack : s.writesBack (s.flushPart p) := by
  rw [State.flushPart_eq empty]
  exact foldl_related .refl .trans State.lineBack_writesBack (s.mine p) s

/-- A flush settles each line of the partition whose stacks it reaches. -/
theorem State.flushPart_settled {e : Nat × Line} (mem : e ∈ s.lin.lines) (own : s.spanOwner (128 * e.1) = some p) {b : Nat}
    (of : b ∈ lineSecs e.1) (sinks : s.sinks e.2.die b = true) : (s.flushPart p).settled b := by
  rw [State.flushPart_eq empty]
  exact foldl_establishes (I := s.writesBack) (P := fun u : State => u.settled b) (f := State.lineBack)
    (fun u c h => h.trans (u.lineBack_writesBack c)) (fun u c _ clean => (u.lineBack_writesBack c).settled clean)
    (fun u h => State.writeDirty_settled of ((h.sinks e.2.die b).trans sinks)) (State.mem_mine.mpr ⟨mem, own⟩) (.refl s)

/-- A flush changes nothing where nothing of the partition can be written back. -/
theorem State.flushPart_idle (idle : ∀ e ∈ s.lin.lines, s.spanOwner (128 * e.1) = some p → ∀ b ∈ lineSecs e.1,
    (s.sec b).v = true → (s.sec b).dirty = true → s.stackStopped b = true) : s.flushPart p = s := by
  rw [State.flushPart_eq empty]
  refine foldl_idle (f := State.lineBack) (fun e mine => ?_)
  obtain ⟨mem, own⟩ := State.mem_mine.mp mine
  exact State.writeDirty_idle e.2.die (idle e mem own)

end

/-- Nothing of a partition is DIRTY. -/
theorem State.dirtyPart_false {s : State} {p : Nat} (clean : s.dirtyPart p = false) {e : Nat × Line} (mem : e ∈ s.lin.lines)
    (own : s.spanOwner (128 * e.1) = some p) {b : Nat} (of : b ∈ lineSecs e.1) (v : (s.sec b).v = true) : (s.sec b).dirty = false := by
  cases d : (s.sec b).dirty with
  | false => rfl
  | true =>
    have dirty : s.hasDirty e.1 = true := List.any_eq_true.mpr ⟨b, of, by rw [v, d]; rfl⟩
    have here : s.dirtyPart p = true := List.any_eq_true.mpr
      ⟨e.1, List.mem_append_left _ (List.mem_map_of_mem mem), by rw [own, dirty]; simp⟩
    rw [clean] at here
    cases here

/-- A partition whose flush is under way, from now on. -/
def State.flushFrom (s : State) (p : Option (Fin 16)) : State := { s with lin := { s.lin with flushing := p } }

theorem exec_flush {f : Func} {s : State} {p : Fin 16} (ready : s.mustWait (portOf f) = false) (speaks : s.speaks f = true)
    (free : s.pinBusy = false) (may : isPf f = true ∨ vfPart f = some p) :
    exec (.flush f p) s = .next ((s.flushPart p.val).flushFrom (some p)) := by
  have run : exec (.flush f p) s = .next (if !s.speaks f then s
      else if s.pinBusy then s.pinResult ePtnInvalid 3
      else if !(isPf f) && decide (vfPart f ≠ some p) then s.pinResult ePerm 3
      else (s.flushPart p.val).flushFrom (some p)) := congrArg Host.Outcome.next (State.inOrder_of_ready ready _ _)
  rw [run, if_neg (by simp [speaks]), if_neg (by simp [free]), if_neg]
  rcases may with pf | own
  · simp [pf]
  · simp [own]

theorem exec_flushDone {s : State} {p : Fin 16} (runs : s.lin.flushing = some p) : exec .flushDone s =
    .next (if (s.flushPart p.val).dirtyPart p.val then s.flushPart p.val else ((s.flushPart p.val).flushFrom none).pinResult 0 3) := by
  have known : exec .flushDone s = execFlushDone s := rfl
  rw [known, execFlushDone, runs]
  rfl

/-- Settles O31: what a write-back may touch is one relation (`State.writesBack`), and the other turns are read off. -/
theorem liningUpkeep : Obligations.LiningUpkeep := by
  unfold Obligations.LiningUpkeep
  intro f die slice p s
  refine ⟨fun off ecc => exec_scrubTurn_off off die slice ecc, fun a rest scrubs queue v good stale =>
    exec_scrubTurn_seals scrubs queue v good stale, ?_, fun ready pf off idle => ⟨_, exec_linClear ready, ?_⟩, fun ready on => ?_, ⟨_, rfl, rfl, rfl⟩,
    fun ready speaks free may empty sinks => ⟨_, exec_flush ready speaks free may, rfl, fun e mem own b of v => ?_, ?_⟩,
    fun runs empty dirty stop => ?_, fun runs empty clean => ?_⟩
  · exact ⟨_, exec_thrashWindowEnd die slice s, s.thrashEnd_effect (by unfold bank; omega) (by omega) (Nat.min_le_right ..) _ _⟩
  · rw [State.linCleared, if_pos (by simp [pf, off, idle])]
    exact ⟨rfl, rfl, rfl, rfl, rfl, rfl, rfl⟩
  · rw [exec_linClear ready, State.linCleared, if_neg (by simp [on])]
  · have settled := State.flushPart_settled empty p.val mem own of (sinks e mem own b of)
    exact settled v
  · exact (State.flushPart_writesBack empty p.val).data
  · rw [exec_flushDone runs, State.flushPart_idle empty p.val (fun e mem own b of _ _ => stop e mem own b of), dirty]
    rfl
  · have idle := State.flushPart_idle empty p.val (fun e mem own b of v d => by
      rw [State.dirtyPart_false clean mem own of v] at d
      cases d)
    have run := exec_flushDone runs
    rw [idle, clean, if_neg Bool.false_ne_true] at run
    refine ⟨_, run, ?_⟩
    have lin : (s.flushFrom none).lin = { s.lin with flushing := none } := rfl
    have hbm : (s.flushFrom none).hbm = s.hbm := rfl
    generalize s.flushFrom none = u at *
    obtain ⟨⟨-, rest⟩, code, op, told⟩ := u.pinResult_told (code := 0) (op := 3) (by decide) (by decide)
    generalize u.pinResult 0 3 = t at *
    exact ⟨(congrArg State.lin rest :).trans lin, code, op, told, (congrArg State.hbm rest :).trans hbm⟩

end Sys2Proof.Machine

/-! # Two spans that overlap, and the write-back of a line behind them (R241, R254, R483) -/

namespace Sys2Proof.Machine

/-- A pattern whose partitions 0 and 1 are enabled over the same GiB: both spans begin at 0, and both own pseudo-channel 0. -/
def overlapping : Pat :=
  { secs := [(secKey 1 0, { bytes := [(recOff 0, 1), (recOff 0 + 0x60, 1), (recOff 1, 1), (recOff 1 + 0x60, 1)] })] }

/-- The line behind the two spans waits in the write-back buffer; its first two sectors are DIRTY and differ in their first byte. -/
def overlapped : State :=
  { ptn := { running := overlapping }
    lin := { writeBack := [(2 ^ 23, 0)]
             secs := [(2 ^ 25, { v := true, dirty := true }), (2 ^ 25 + 1, { v := true, dirty := true })]
             data := [(2 ^ 30 + 32, 1)] } }

/-- Behind overlapping spans every idle address lies at distance 0, so both sectors go to one place of HBM. -/
theorem overlapped_alias :
    (overlapped.acceptWriteBack (2 ^ 23) 0).retryBlocked.hbmBytes (2 ^ 30) ≠ overlapped.linBytes (2 ^ 30) 32 := by
  decide +kernel

theorem overlapped_sinks : ∀ b ∈ lineSecs (2 ^ 23), overlapped.sinks 0 b = true := by
  decide +kernel

theorem exec_writebackAccepted {s : State} {line : BitVec 48} {e : Nat × Nat}
    (entry : s.lin.writeBack.find? (fun e => e.1 == line.toNat / 128) = some e) :
    exec (.writebackAccepted line) s = .next (s.acceptWriteBack (line.toNat / 128) e.2).retryBlocked := by
  have known : exec (.writebackAccepted line) s = execWritebackAccepted line s := rfl
  rw [known, execWritebackAccepted]
  rw [entry]

/-- Refutes O30: two partitions of the running pattern whose spans overlap leave the lines behind them with one idle distance, 0, so
that the DIRTY sectors of such a line are written over each other, and HBM does not hold what the first of them held. -/
theorem not_liningSlices : ¬ Obligations.LiningSlices := by
  unfold Obligations.LiningSlices
  intro holds
  have line : (BitVec.ofNat 48 (2 ^ 30)).toNat / 128 = 2 ^ 23 := by decide
  have entry : overlapped.lin.writeBack.find? (fun e => e.1 == (BitVec.ofNat 48 (2 ^ 30)).toNat / 128) =
      some ((BitVec.ofNat 48 (2 ^ 30)).toNat / 128, 0) := by decide
  obtain ⟨-, -, -, accepted⟩ := holds (BitVec.ofNat 48 (2 ^ 30)) {} overlapped rfl rfl
  obtain ⟨t, run, -, -, -, written, -⟩ := accepted 0 entry (fun b mem _ _ => overlapped_sinks b (line ▸ mem))
  rw [exec_writebackAccepted entry, line] at run
  obtain rfl := Host.Outcome.next.inj run
  refine overlapped_alias (written (2 ^ 30) ?_ ?_ ?_)
  · rw [line]
    decide
  · decide
  · decide

end Sys2Proof.Machine

/-! # What the service of an access may touch (R228 to R230, R249, R333) -/

namespace Sys2Proof.Machine

/-- What the service of an access leaves of a line's record. -/
def Line.core (y : Line) : Nat × Nat × List (Nat × List LinAccess) := (y.die, y.way, y.fills)

/-- What the lookup and the metering of an access may touch: counters of banks, the regulators and turns, and of the lining the
tickets, the HIT marks and the places in the queues. -/
structure State.serves (s t : State) : Prop where
  rest : { t with regs := s.regs, net := s.net, lin := { t.lin with lines := s.lin.lines, tickets := s.lin.tickets } } = s
  regs : ∀ j, j < 2 ^ 28 → t.rg j = s.rg j
  dirs : t.net.dirs = s.net.dirs
  lines : ∀ l, (t.line l).map Line.core = (s.line l).map Line.core

namespace State.serves

theorem refl (s : State) : s.serves s := ⟨rfl, fun _ _ => rfl, rfl, fun _ => rfl⟩

theorem trans {s t u : State} (h : s.serves t) (k : t.serves u) : s.serves u :=
  ⟨((congrArg (fun v : State => { v with
      regs := s.regs, net := s.net, lin := { v.lin with lines := s.lin.lines, tickets := s.lin.tickets } }) k.rest :)).trans h.rest,
    fun j low => (k.regs j low).trans (h.regs j low), k.dirs.trans h.dirs, fun l => (k.lines l).trans (h.lines l)⟩

theorem of_regs {s t : State} (rest : { t with regs := s.regs } = s) (regs : ∀ j, j < 2 ^ 28 → t.rg j = s.rg j) : s.serves t := by
  have lin : t.lin = s.lin := (congrArg State.lin rest :)
  refine ⟨?_, regs, (congrArg (fun v : State => v.net.dirs) rest :), fun l => by rw [State.line, lin, State.line]⟩
  exact (congrArg (fun v : State => { v with net := s.net, lin := { v.lin with lines := s.lin.lines, tickets := s.lin.tickets } }) rest :)

theorem of_net {s : State} {n : Net} (dirs : n.dirs = s.net.dirs) : s.serves { s with net := n } :=
  ⟨rfl, fun _ _ => rfl, dirs, fun _ => rfl⟩

section
variable {s t : State} (h : s.serves t)
include h

theorem ptn : t.ptn = s.ptn := (congrArg State.ptn h.rest :)
theorem parts : t.parts = s.parts := (congrArg State.parts h.rest :)
theorem esc : t.esc = s.esc := (congrArg State.esc h.rest :)
theorem hbm : t.hbm = s.hbm := (congrArg State.hbm h.rest :)
theorem bar4 : t.bar4 = s.bar4 := (congrArg State.bar4 h.rest :)
theorem reply : t.reply = s.reply := (congrArg State.reply h.rest :)
theorem brup : t.brup = s.brup := (congrArg State.brup h.rest :)
theorem linRest : { t.lin with lines := s.lin.lines, tickets := s.lin.tickets } = s.lin := (congrArg State.lin h.rest :)
theorem data : t.lin.data = s.lin.data := (congrArg Lining.data h.linRest :)
theorem secs : t.lin.secs = s.lin.secs := (congrArg Lining.secs h.linRest :)
theorem sec (a : Nat) : t.sec a = s.sec a := by rw [State.sec, h.secs, State.sec]
theorem linBytes (a n : Nat) : t.linBytes a n = s.linBytes a n := by rw [State.linBytes, h.data, State.linBytes]

theorem alike : s.routesAlike t where
  ptn := h.ptn
  dirs := h.dirs
  fuses := (congrArg State.fuses h.rest :)
  brup := h.brup
  status := h.regs _ (by decide)

theorem pchLive {n : Nat} (small : n < 768) : t.pchLive n = s.pchLive n := by
  have low : Reg.HBM_MAPPED < 2 ^ 20 := by decide
  have bit : t.maskBit Reg.HBM_MAPPED n = s.maskBit Reg.HBM_MAPPED n := State.rb_of_rg (h.regs _ (by omega)) _
  rw [State.pchLive, bit, State.fitted, h.alike.fuses, State.pchLive, State.fitted]

theorem place (a : Nat) : t.hbmPlace a = s.hbmPlace a := (span_congr h.ptn (fun _ small => h.pchLive small)).1 a

theorem capacity : t.capacity = s.capacity := (span_congr h.ptn (fun _ small => h.pchLive small)).2.1

theorem spanOwner (a : Nat) : t.spanOwner a = s.spanOwner a := (span_congr h.ptn (fun _ small => h.pchLive small)).2.2 a

theorem stackOf (a : Nat) : t.stackOf a = s.stackOf a := by rw [State.stackOf, h.place, State.stackOf]

theorem keyGen (a : Nat) : t.keyGen a = s.keyGen a := by rw [State.keyGen, h.spanOwner, h.esc, h.ptn, State.keyGen]

theorem part (p : Nat) : t.part p = s.part p := by rw [State.part, h.parts, State.part]

theorem moduleId : t.moduleId = s.moduleId := by rw [State.moduleId, h.ptn, State.moduleId]

theorem target (ag : Agent) (own : Option Nat) (a : Nat) : t.target ag own a = s.target ag own a := by
  unfold State.target
  simp only [h.capacity, h.spanOwner, h.keyGen, h.ptn, h.part, h.moduleId]

theorem home (p l : Nat) : t.home p l = s.home p l := by
  unfold State.home
  rw [h.ptn, h.part]

theorem agentDie (ag : Agent) : t.agentDie ag = s.agentDie ag := by
  unfold State.agentDie State.coreDie
  rw [h.ptn]

theorem missing (q : Ask) : t.missing q = s.missing q := by
  unfold State.missing
  rw [funext h.sec]

end

section
variable {s t : State} (h : s.serves t) (lin : t.lin = s.lin)
include h lin

theorem copyServes (p : Nat) (q : Ask) : t.copyServes p q = s.copyServes p q := by
  have line : ∀ l, t.line l = s.line l := fun l => by rw [State.line, lin, State.line]
  unfold State.copyServes
  rw [h.agentDie, h.home, line, lin]

theorem pointsOf (q : Ask) : t.pointsOf q = s.pointsOf q := by
  unfold State.pointsOf
  simp only [h.target, h.missing, h.stackOf, h.home, h.copyServes lin]

end

end State.serves

/-! ## The parts of the service -/

theorem State.urge_serves (s : State) (m v : Nat) : s.serves (s.urge m v) := State.serves.of_net rfl

theorem State.rAdd64_serves (s : State) (off sel n : Nat) : s.serves (s.rAdd64 (bank off sel) n) := by
  obtain ⟨r, eq, same⟩ := rAdd64_bank s off sel n
  rw [eq]
  exact .of_regs rfl same

theorem State.rAdd_serves (s : State) (off sel hi lo n : Nat) : s.serves (s.rAdd (bank off sel) hi lo n) :=
  .of_regs (s.rfSet_rest ..) (fun j low => rg_rAdd_other s _ _ _ (bank_ge off sel j low).1)

theorem State.rgSet_serves (s : State) (off sel : Nat) (v : Word) : s.serves (s.rgSet (bank off sel) v) :=
  have rest : ∀ k, { s.rgSet k v with regs := s.regs } = s := fun _ => rfl
  .of_regs (rest _) (fun j low => rg_rgSet_other s v (bank_ge off sel j low).1)

theorem State.countLookup_serves (s : State) (die cls found want : Nat) : s.serves (s.countLookup die cls found want) := by
  unfold State.countLookup
  split
  · exact (State.rAdd64_serves ..).trans (State.rAdd64_serves ..)
  · split
    · exact (State.rAdd64_serves ..).trans (State.rAdd64_serves ..)
    · exact (State.rAdd64_serves ..).trans (State.rAdd64_serves ..)

theorem State.countPinned_serves (s : State) (sl : Nat) : s.serves (s.countPinned sl) := State.rgSet_serves ..

theorem State.turnAt_serves (s : State) (q : Ask) : s.serves (s.turnAt q) := by
  unfold State.turnAt
  split
  · split
    · exact .of_net rfl
    · exact .refl s
  · exact .refl s

theorem State.charge_serves (s : State) (part : Option Nat) (master point bytes : Nat) : s.serves (s.charge part master point bytes) := by
  unfold State.charge
  split
  · exact .refl s
  · have set : ∀ i r, s.serves (s.regulSet i point r) := fun _ _ => .of_net rfl
    dsimp only
    split
    · exact (set ..).trans (State.rAdd_serves ..)
    · exact set ..

/-- A line's record changed in what is not of its core. -/
theorem State.lineMap_serves (s : State) (l : Nat) {f : Line → Line} (core : ∀ y, (f y).core = y.core) : s.serves (s.lineMap l f) := by
  unfold State.lineMap
  split
  · next y found =>
    refine ⟨rfl, fun _ _ => rfl, rfl, fun k => ?_⟩
    by_cases same : k = l
    · rw [same, found]
      exact (congrArg (Option.map Line.core) (mfind_mput_same s.lin.lines l (f y))).trans (congrArg some (core y))
    · exact congrArg (Option.map Line.core) (mfind_mput_other s.lin.lines (f y) same)
  · exact .refl s

theorem State.ticketsSet_serves (s : State) (ts : List Ticket) : s.serves { s with lin := { s.lin with tickets := ts } } :=
  ⟨rfl, fun _ _ => rfl, rfl, fun _ => rfl⟩

theorem State.unticket_serves (s : State) (q : Ask) : s.serves (s.unticket q) := by
  unfold State.unticket
  split
  · exact .refl s
  · have mapped := s.lineMap_serves (q.addr / 128) (f := fun y => { y with held := y.held.filter (fun h => h != .place q.key) })
      (fun _ => rfl)
    exact mapped.trans (State.ticketsSet_serves _ _)

theorem State.unticket_free {s : State} {q : Ask} (free : s.ticket q = none) : s.unticket q = s := by
  rw [State.unticket, free]

theorem State.lookedUp_serves (s : State) (q : Ask) (p : Nat) : s.serves (s.lookedUp q p) := by
  unfold State.lookedUp
  split
  · exact .refl s
  · dsimp only
    have counted := s.countLookup_serves ((s.home p (q.addr / 128)).1 / 256) (s.trafficClass q.agent (128 * (q.addr / 128)))
      ((secsOf q.addr q.len).filter (fun b => (s.sec b).v)).length (secsOf q.addr q.len).length
    split
    · exact counted.trans (State.lineMap_serves _ _ (fun _ => rfl))
    · exact counted

theorem State.takenIn_serves (s : State) (q : Ask) (p : Nat) : s.serves (s.takenIn q p) := by
  unfold State.takenIn
  dsimp only
  have looked := (s.turnAt_serves q).trans (State.lookedUp_serves _ q p)
  generalize (s.turnAt q).lookedUp q p = u at *
  have charged := looked.trans (u.charge_serves q.part (masterId q.agent) (12 + (s.home p (q.addr / 128)).1 / 256)
    (if q.kind = .read then 32 * (secsOf q.addr q.len).length else q.len))
  generalize u.charge q.part (masterId q.agent) (12 + (s.home p (q.addr / 128)).1 / 256)
    (if q.kind = .read then 32 * (secsOf q.addr q.len).length else q.len) = w at *
  split
  · exact charged.trans (w.unticket_serves q)
  · exact (charged.trans (State.charge_serves ..)).trans (State.unticket_serves ..)

end Sys2Proof.Machine

/-! # Accesses that their slice answers at once (R228 to R230, R242, R245, R333) -/

namespace Sys2Proof.Machine

/-! ## An access arrives -/

/-- The urgency of a host's or a link's access noted. -/
def State.urged (s : State) (x : LinAccess) : State :=
  if 0x4A ≤ masterId x.agent then s.urge (masterId x.agent) x.urgency.toNat else s

theorem State.urged_serves (s : State) (x : LinAccess) : s.serves (s.urged x) := by
  unfold State.urged
  split
  · exact s.urge_serves ..
  · exact .refl s

theorem State.urged_rest (s : State) (x : LinAccess) : { s.urged x with net := s.net } = s := by
  unfold State.urged
  split <;> rfl

theorem State.urged_lin (s : State) (x : LinAccess) : (s.urged x).lin = s.lin := by
  have rest := s.urged_rest x
  generalize s.urged x = u at *
  exact (congrArg State.lin rest :)

section
variable {s : State} {x : LinAccess}

theorem exec_liningAccess : exec (.liningAccess x) s = .next (s.arrive x) := rfl

theorem State.arrive_bad (bad : accBad x ≠ 0) : s.arrive x = (s.urged x).answer { code := accBad x } := by
  unfold State.arrive
  dsimp only
  rw [if_pos bad]
  rfl

theorem State.arrive_good (good : accBad x = 0) : s.arrive x = match (s.urged x).target x.agent (some x.part.val) x.addr.toNat with
    | .fails c => ((s.urged x).unticket (accAsk x)).answer { code := c }
    | .remote => s.urged x
    | .cached p => (s.urged x).arriveHome x p
    | _ => if (s.urged x).lineWaits (accAsk x) none then (s.urged x).block x else (s.urged x).perform x := by
  unfold State.arrive
  dsimp only
  rw [if_neg (fun no => no good)]
  rfl

theorem State.arrive_fails (good : accBad x = 0) {c : Nat} (fails : s.target x.agent (some x.part.val) x.addr.toNat = .fails c) :
    s.arrive x = ((s.urged x).unticket (accAsk x)).answer { code := c } := by
  rw [State.arrive_good good, (s.urged_serves x).target, fails]

theorem State.arrive_cached (good : accBad x = 0) {p : Nat} (cached : s.target x.agent (some x.part.val) x.addr.toNat = .cached p) :
    s.arrive x = (s.urged x).arriveHome x p := by
  rw [State.arrive_good good, (s.urged_serves x).target, cached]

theorem State.arrive_pinned (good : accBad x = 0) (pinned : s.target x.agent (some x.part.val) x.addr.toNat = .pinned) :
    s.arrive x = if (s.urged x).lineWaits (accAsk x) none then (s.urged x).block x else (s.urged x).perform x := by
  rw [State.arrive_good good, (s.urged_serves x).target, pinned]

theorem accBad_read {n : Nat} (op : x.op = .read n) : accBad x = 0 := by rw [accBad, op]

theorem accBad_write {bs : List Byte} (op : x.op = .write bs) : accBad x = 0 := by rw [accBad, op]

theorem accAct_read {n : Nat} (op : x.op = .read n) : accAct x = .read := by rw [accAct, op]

theorem accAct_write {bs : List Byte} (op : x.op = .write bs) : accAct x = .write bs := by rw [accAct, op]

theorem accAsk_read {n : Nat} (op : x.op = .read n) : accAsk x = ⟨x.agent, some x.part.val, x.addr.toNat, n, .read, x.ecc⟩ := by
  unfold accAsk
  rw [accAct_read op, op]
  rfl

theorem accAsk_write {bs : List Byte} (op : x.op = .write bs) :
    accAsk x = ⟨x.agent, some x.part.val, x.addr.toNat, bs.length, .write, x.ecc⟩ := by
  unfold accAsk
  rw [accAct_write op, op]
  rfl

end

/-! ## An access that nothing holds up -/

/-- The agent of an access stands at a die in service, no regulator meters it at that die, and no other request waits for the point
that it comes to first. -/
def State.nearTo (s : State) (x : LinAccess) (die : Nat) : Prop :=
  s.agentDie x.agent = die ∧ s.brup.outDies = [] ∧ s.ptn.running.regFind x.part.val (masterId x.agent) (12 + die) = none ∧
    ∀ t ∈ s.lin.tickets, t.ask = (accAsk x).key ∨ (s.pointsOf t.ask).head? ≠ (s.pointsOf (accAsk x)).head?

theorem State.serves.nearTo {s t : State} (h : s.serves t) (lin : t.lin = s.lin) {x : LinAccess} {die : Nat} (near : s.nearTo x die) :
    t.nearTo x die := by
  obtain ⟨here, whole, free, alone⟩ := near
  refine ⟨(h.agentDie _).trans here, by rw [h.brup]; exact whole, by rw [h.ptn]; exact free, fun k mem => ?_⟩
  rw [lin] at mem
  rw [h.pointsOf lin, h.pointsOf lin]
  exact alone k mem

theorem crossed_same (s : State) (a up down : Nat) (whole : s.brup.outDies = []) : s.crossed a a up down = (true, s) := by
  unfold State.crossed
  simp only [carry_same s a _ _ whole, if_true]

theorem State.entryOf_none {s : State} {x : LinAccess} {point : Nat}
    (free : s.ptn.running.regFind x.part.val (masterId x.agent) point = none) : s.entryOf (some x.part.val) (masterId x.agent) point = none :=
  (Option.bind_some ..).trans free

theorem State.defers_none {s : State} {part : Option Nat} {master point : Nat} (free : s.entryOf part master point = none) :
    s.defers part master point = false := by rw [State.defers, free]

/-- No ticket stands before an access that comes first at its point alone. -/
theorem State.outranked_alone {s : State} {q : Ask} {n : Nat} {rest : List Nat} (points : s.pointsOf q = n :: rest)
    (alone : ∀ t ∈ s.lin.tickets, t.ask = q.key ∨ (s.pointsOf t.ask).head? ≠ (s.pointsOf q).head?) : s.outranked q = false := by
  have none : (s.lin.tickets.any fun t => t.ask != q.key && (s.pointsOf t.ask).head? == some n && decide (s.rank t.ask < s.rank q) &&
      s.routed t.ask && !s.deferred t.ask && !s.slotWaits t.ask none) = false := by
    rw [List.any_eq_false]
    intro t mem
    rcases alone t mem with own | away
    · simp [own]
    · rw [points] at away
      simp only [List.head?_cons] at away
      simp [away]
  unfold State.outranked
  rw [points]
  dsimp only
  rw [none, Bool.and_false]

theorem State.lineWaits_false {s : State} {q : Ask} {v : Option Nat} (metered : s.deferred q = false) (slot : s.slotWaits q v = false)
    (first : s.outranked q = false) : s.lineWaits q v = false := by
  rw [State.lineWaits, metered, slot, first]
  simp

/-! ## Pinned sectors (R229, R243, R245) -/

section
variable {s : State} {x : LinAccess} (pinned : s.target x.agent (some x.part.val) x.addr.toNat = .pinned)
include pinned

theorem State.pointsOf_pinned : s.pointsOf (accAsk x) = [12 + winSlice x.addr.toNat / 256] := by
  have target : s.target (accAsk x).agent (accAsk x).part (accAsk x).addr = .pinned := pinned
  rw [State.pointsOf, target]
  rfl

variable (near : s.nearTo x (winSlice x.addr.toNat / 256))
include near

theorem State.pinned_goes (v : Option Nat) : s.lineWaits (accAsk x) v = false := by
  obtain ⟨-, -, free, alone⟩ := near
  have points := s.pointsOf_pinned pinned
  have target : s.target (accAsk x).agent (accAsk x).part (accAsk x).addr = .pinned := pinned
  refine State.lineWaits_false ?_ ?_ (State.outranked_alone points alone)
  · rw [State.deferred, points, List.any_cons, List.any_nil, Bool.or_false]
    exact State.defers_none (State.entryOf_none free)
  · rw [State.slotWaits, target]

end

end Sys2Proof.Machine

/-! # Reads and writes in pinned ways (R22, R229, R242, R243, R245) -/

namespace Sys2Proof.Machine

/-! ## What a pinned way takes in -/

/-- An access to a pinned way is counted and metered by its bytes, and no longer waits. -/
def State.takenPinned (s : State) (q : Ask) (bytes : Nat) : State :=
  (((s.turnAt q).countPinned (winSlice q.addr)).charge q.part (masterId q.agent) (12 + winSlice q.addr / 256) bytes).unticket q

theorem State.takenPinned_eq (s : State) (ag : Agent) (part : Option Nat) (a len : Nat) (kind : AccKind) (ecc : Ecc) (bytes : Nat) :
    s.takenPinned ⟨ag, part, a, len, kind, ecc⟩ bytes =
      (((s.turnAt ⟨ag, part, a, len, kind, ecc⟩).countPinned (winSlice a)).charge part (masterId ag) (12 + winSlice a / 256)
        bytes).unticket ⟨ag, part, a, len, kind, ecc⟩ := rfl

theorem State.takenPinned_serves (s : State) (q : Ask) (bytes : Nat) : s.serves (s.takenPinned q bytes) :=
  ((((s.turnAt_serves q).trans (State.countPinned_serves _ _)).trans (State.charge_serves ..))).trans (State.unticket_serves _ q)

theorem State.takenPinned_lin {s : State} {q : Ask} (free : s.ticket q = none) (bytes : Nat) : (s.takenPinned q bytes).lin = s.lin := by
  unfold State.takenPinned
  have same : (((s.turnAt q).countPinned (winSlice q.addr)).charge q.part (masterId q.agent) (12 + winSlice q.addr / 256) bytes).lin =
      s.lin := by rw [charge_lin, countPinned_lin, turnAt_lin]
  generalize ((s.turnAt q).countPinned (winSlice q.addr)).charge q.part (masterId q.agent) (12 + winSlice q.addr / 256) bytes = u at *
  rw [State.unticket_free (by rw [State.ticket, same]; exact free), same]

section
variable {s : State} {ag : Agent} {part : Option Nat} {a : Nat} (pinned : s.target ag part a = .pinned)
  (here : s.agentDie ag = winSlice a / 256) (whole : s.brup.outDies = [])
include pinned here whole

theorem State.lineAccess_pinned_read {len : Nat} {v : Option Nat} (goes : s.lineWaits ⟨ag, part, a, len, .read, .clean⟩ v = false)
    (good : ∀ b ∈ secsOf a len, (s.sec b).v = true → (s.sec b).poison = false) :
    s.lineAccess ag part a len .read .clean v = (0, s.linBytes a len, s.takenPinned ⟨ag, part, a, len, .read, .clean⟩ (32 * (secsOf a len).length)) := by
  have crossed := crossed_same s (winSlice a / 256) (Act.read.sizes len).1 (Act.read.sizes len).2 whole
  have taken := s.takenPinned_serves ⟨ag, part, a, len, .read, .clean⟩ (32 * (secsOf a len).length)
  have read := needPinned_all (s.takenPinned ⟨ag, part, a, len, .read, .clean⟩ (32 * (secsOf a len).length)) (part.getD 0) (winSlice a) (a / 32 * 32) (secsOf a len)
    (fun b mem v => by rw [taken.sec] at v ⊢; exact good b mem v)
  have bytes := taken.linBytes a len
  unfold State.lineAccess
  dsimp only
  rw [pinned]
  dsimp only
  rw [here, crossed]
  dsimp only [Act.kind]
  simp only [Bool.not_true, Bool.false_eq_true, if_false, if_true, goes]
  rw [← State.takenPinned_eq, read, if_pos rfl, bytes]

theorem State.lineAccess_pinned_write {bs : List Byte} {ecc : Ecc} {v : Option Nat}
    (goes : s.lineWaits ⟨ag, part, a, bs.length, .write, ecc⟩ v = false) (cut : sectorCuts a bs.length = [(a, bs.length)]) :
    s.lineAccess ag part a bs.length (.write bs) ecc v =
      (0, [], ((s.takenPinned ⟨ag, part, a, bs.length, .write, ecc⟩ bs.length).storeSector (winSlice a) (a / 32 * 32) (a % 32) bs false).notify
        (winSlice a / 256) a bs.length) := by
  have crossed := crossed_same s (winSlice a / 256) ((Act.write bs).sizes bs.length).1 ((Act.write bs).sizes bs.length).2 whole
  have all : bs.take bs.length = bs := List.take_length
  unfold State.lineAccess
  dsimp only
  rw [pinned]
  dsimp only
  rw [here, crossed]
  dsimp only [Act.kind]
  simp only [Bool.not_true, Bool.false_eq_true, if_false, goes, reduceCtorEq]
  rw [← State.takenPinned_eq, cut, List.foldl_cons, List.foldl_nil, all]

end

/-! ## Bytes stored in a sector -/

/-- A range inside one sector is one part. -/
theorem sectorCuts_inside {a len : Nat} (some : 0 < len) (inside : a % 32 + len ≤ 32) : sectorCuts a len = [(a, len)] := by
  have room : min len (32 - a % 32) = len := by omega
  have steps : ∃ f, len / 32 + 2 = f + 2 := ⟨_, rfl⟩
  obtain ⟨f, steps⟩ := steps
  rw [sectorCuts, steps, cuts, if_neg (by omega)]
  dsimp only
  rw [room, cuts, if_pos (by omega)]

theorem secsOf_inside {a len : Nat} (some : 0 < len) (inside : a % 32 + len ≤ 32) : secsOf a len = [a / 32 * 32] := by
  rw [secsOf, sectorCuts_inside some inside]
  rfl

/-- What a store of bytes in a sector may touch: its bytes and marks, the stale queue and its overflow count. -/
structure State.stores (s t : State) (a lo : Nat) (bs : List Byte) (cached : Bool) : Prop where
  hbm : t.hbm = s.hbm
  bar4 : t.bar4 = s.bar4
  lines : t.lin.lines = s.lin.lines
  bytes : t.linBytes (a + lo) bs.length = bs
  valid : (t.sec a).v = true
  dirty : (t.sec a).dirty = cached
  parity : (t.sec a).parity = parityOf (t.linBytes a 32)
  secs : ∀ b, b / 32 ≠ a / 32 → t.sec b = s.sec b
  data : ∀ k, (k < a + lo ∨ a + lo + bs.length ≤ k) → ((s.sec a).v = true ∨ k / 32 ≠ a / 32) → mget t.lin.data k 0 = mget s.lin.data k 0

end Sys2Proof.Machine

/-! # Bytes stored in a sector, and the notices of it (R186, R209, R242, R244) -/

namespace Sys2Proof.Machine

/-- The stale queue of a slice, or its overflow count. -/
theorem State.staleQueue_rest (s : State) (sl a : Nat) :
    { s.staleQueue sl a with regs := s.regs, lin := { (s.staleQueue sl a).lin with staleQ := s.lin.staleQ } } = s := by
  have queued : ∀ q : List (Nat × List Nat), { ({ s with lin := { s.lin with staleQ := q } } : State) with
      regs := s.regs, lin := { ({ s with lin := { s.lin with staleQ := q } } : State).lin with staleQ := s.lin.staleQ } } = s := fun _ => rfl
  unfold State.staleQueue
  dsimp only
  split
  · exact queued _
  · have rest := s.rfSet_rest Reg.LIN_ECC_STALE_OVF 31 0 (s.rf Reg.LIN_ECC_STALE_OVF 31 0 + 1)
    unfold State.rAdd
    generalize s.rfSet Reg.LIN_ECC_STALE_OVF 31 0 (s.rf Reg.LIN_ECC_STALE_OVF 31 0 + 1) = t at *
    have lin : t.lin = s.lin := (congrArg State.lin rest :)
    rw [lin]
    exact (congrArg (fun v : State => { v with lin := s.lin }) rest :)

/-- A sector's marks over some bytes, sealed. -/
theorem State.secSeal_form (s : State) {a : Nat} (aligned : a % 32 = 0) (x : Sec) (fresh : Bool) : ∃ c, s.secSeal a x fresh =
    s.secSet a { x with parity := parityOf (s.linBytes a 32), code := c } := by
  have start : a / 32 * 32 = a := by omega
  refine ⟨if fresh then Config.sectorCode (s.linBytes a 32) else x.code, ?_⟩
  unfold State.secSeal
  rw [start]

/-- Bytes put and their sector sealed. -/
theorem State.sealed_stores {s w : State} {a lo : Nat} {bs : List Byte} {cached : Bool} (hbm : w.hbm = s.hbm) (bar4 : w.bar4 = s.bar4)
    (lines : w.lin.lines = s.lin.lines) (secs : w.lin.secs = s.lin.secs) (bytes : w.linBytes (a + lo) bs.length = bs)
    (data : ∀ k, (k < a + lo ∨ a + lo + bs.length ≤ k) → ((s.sec a).v = true ∨ k / 32 ≠ a / 32) → mget w.lin.data k 0 = mget s.lin.data k 0)
    {x : Sec} (valid : x.v = true) (dirty : x.dirty = cached) (parity : x.parity = parityOf (w.linBytes a 32)) :
    s.stores (w.secSet a x) a lo bs cached := by
  have same := w.sec_secSet_same a x
  refine ⟨hbm, bar4, lines, bytes, by rw [same]; exact valid, by rw [same]; exact dirty, by rw [same]; exact parity, fun b other => ?_, data⟩
  rw [w.sec_secSet_other x other, State.sec, secs, State.sec]

theorem mget_linPut_other (s : State) (a : Nat) (bs : List Byte) {k : Nat} (out : k < a ∨ a + bs.length ≤ k) :
    mget (s.linPut a bs).lin.data k 0 = mget s.lin.data k 0 := mget_writeCells_other bs s.lin.data a k out

theorem linBytes_linPut (s : State) (a : Nat) (bs : List Byte) : (s.linPut a bs).linBytes a bs.length = bs := readCells_writeCells ..

/-- Bytes put change the lining's bytes only. -/
theorem linPut_rest (s : State) (a : Nat) (bs : List Byte) : { s.linPut a bs with lin := { (s.linPut a bs).lin with data := s.lin.data } } = s := by
  unfold State.linPut
  generalize writeCells s.lin.data a bs = d
  rfl

/-- Bytes put once, or over zeros, and their sector sealed. -/
theorem State.put_stores {s w : State} {a lo : Nat} {bs : List Byte} {cached : Bool}
    (rest : { w with lin := { w.lin with data := s.lin.data } } = s) (bytes : w.linBytes (a + lo) bs.length = bs)
    (data : ∀ k, (k < a + lo ∨ a + lo + bs.length ≤ k) → ((s.sec a).v = true ∨ k / 32 ≠ a / 32) → mget w.lin.data k 0 = mget s.lin.data k 0)
    {x : Sec} (valid : x.v = true) (dirty : x.dirty = cached) (parity : x.parity = parityOf (w.linBytes a 32)) :
    s.stores (w.secSet a x) a lo bs cached := by
  have lin : { w.lin with data := s.lin.data } = s.lin := (congrArg State.lin rest :)
  have lines : w.lin.lines = s.lin.lines := (congrArg Lining.lines lin :)
  have secs : w.lin.secs = s.lin.secs := (congrArg Lining.secs lin :)
  have hbm : w.hbm = s.hbm := (congrArg State.hbm rest :)
  have bar4 : w.bar4 = s.bar4 := (congrArg State.bar4 rest :)
  exact State.sealed_stores hbm bar4 lines secs bytes data valid dirty parity

section
variable {s : State} {sl a lo : Nat} {bs : List Byte} (aligned : a % 32 = 0) (inside : lo + bs.length ≤ 32) (cached : Bool)
include aligned inside

theorem State.storeSector_stores : s.stores (s.storeSector sl a lo bs cached) a lo bs cached := by
  unfold State.storeSector
  dsimp only
  split
  · next whole =>
    obtain ⟨rfl, len⟩ := whole
    have rest := linPut_rest s a bs
    have bytes := linBytes_linPut s a bs
    have data := fun k out => mget_linPut_other s a bs (k := k) out
    generalize s.linPut a bs = w at *
    obtain ⟨c, sealed⟩ := w.secSeal_form aligned { v := true, dirty := cached } true
    rw [sealed]
    exact State.put_stores (a := a) (lo := 0) (bs := bs) rest bytes (fun k out _ => data k out) rfl rfl rfl
  · split
    · next empty =>
      have invalid : (s.sec a).v = false := by simpa using empty
      have restZ := linPut_rest s a (List.replicate 32 0)
      have dataZ := fun k out => mget_linPut_other s a (List.replicate 32 0) (k := k) out
      rw [List.length_replicate] at dataZ
      generalize s.linPut a (List.replicate 32 0) = z at *
      have rest := linPut_rest z (a + lo) bs
      have bytes := linBytes_linPut z (a + lo) bs
      have data := fun k out => mget_linPut_other z (a + lo) bs (k := k) out
      generalize z.linPut (a + lo) bs = w at *
      obtain ⟨c, sealed⟩ := w.secSeal_form aligned { v := true, dirty := cached } true
      rw [sealed]
      have both : { w with lin := { w.lin with data := s.lin.data } } = s :=
        ((congrArg (fun v : State => { v with lin := { v.lin with data := s.lin.data } }) rest :)).trans restZ
      refine State.put_stores both bytes (fun k out apart => ?_) rfl rfl rfl
      have other : k / 32 ≠ a / 32 := apart.resolve_left (by rw [invalid]; decide)
      exact (data k out).trans (dataZ k (by omega))
    · next full =>
      have valid : (s.sec a).v = true := by simpa using full
      have restW := linPut_rest s (a + lo) bs
      have bytesW := linBytes_linPut s (a + lo) bs
      have dataW := fun k out => mget_linPut_other s (a + lo) bs (k := k) out
      generalize s.linPut (a + lo) bs = w at *
      obtain ⟨c, sealed⟩ := w.secSeal_form aligned { s.sec a with stale := true, dirty := cached } false
      rw [sealed]
      have stored := State.put_stores (cached := cached) restW bytesW (fun k out _ => dataW k out)
        (x := { s.sec a with stale := true, dirty := cached, parity := parityOf (w.linBytes a 32), code := c }) valid rfl rfl
      generalize w.secSet a _ = w at *
      have rest := w.staleQueue_rest sl a
      generalize w.staleQueue sl a = t at *
      have lin : { t.lin with staleQ := w.lin.staleQ } = w.lin := (congrArg State.lin rest :)
      have data : t.lin.data = w.lin.data := (congrArg Lining.data lin :)
      have secs : t.lin.secs = w.lin.secs := (congrArg Lining.secs lin :)
      have sec : ∀ b, t.sec b = w.sec b := fun b => by rw [State.sec, secs, State.sec]
      have bytes : ∀ b n, t.linBytes b n = w.linBytes b n := fun b n => by rw [State.linBytes, data, State.linBytes]
      refine ⟨(congrArg State.hbm rest :).trans stored.hbm, (congrArg State.bar4 rest :).trans stored.bar4,
        (congrArg Lining.lines lin :).trans stored.lines, (bytes _ _).trans stored.bytes, by rw [sec]; exact stored.valid,
        by rw [sec]; exact stored.dirty, by rw [sec, bytes]; exact stored.parity, fun b other => (sec b).trans (stored.secs b other),
        fun k out apart => by rw [data]; exact stored.data k out apart⟩

end

/-! ## Notices -/

/-- A notice changes neither HBM nor BAR4. -/
theorem notify_memories (s : State) (die a len : Nat) : (s.notify die a len).hbm = s.hbm ∧ (s.notify die a len).bar4 = s.bar4 := by
  have both : ((s.notify die a len).hbm, (s.notify die a len).bar4) = (s.hbm, s.bar4) := by
    refine foldl_keeps (fun u : State => (u.hbm, u.bar4)) _ (fun u e => ?_) s.groups s
    have set : ∀ (x : Bool × State) (y : Group), (x.2.hbm, x.2.bar4) = (u.hbm, u.bar4) →
        ((if !x.1 then x.2 else x.2.groupSet e.1 y).hbm, (if !x.1 then x.2 else x.2.groupSet e.1 y).bar4) = (u.hbm, u.bar4) :=
      fun x y same => by
        cases x.1
        · exact same
        · exact same
    have sent : ∀ b : Bool, let w := (if b then (false, u) else u.carry die (u.coreDie (e.1 / 64)) 2 0).2
        (w.hbm, w.bar4) = (u.hbm, u.bar4) := fun b => by
      cases b
      · have sends := u.carry_sendsOnly die (u.coreDie (e.1 / 64)) 2 0
        exact Prod.ext sends.hbm (congrArg State.bar4 sends :)
      · rfl
    dsimp only
    split
    · exact set _ _ (sent _)
    · exact set _ _ (sent _)
  exact Prod.mk.inj both

end Sys2Proof.Machine

/-! # Reads at the home slice and from a copy (R228, R230, R242) -/

namespace Sys2Proof.Machine

/-! ## Sectors at hand -/

theorem State.needSector_good {s : State} {p sl b : Nat} (v : (s.sec b).v = true) (good : (s.sec b).poison = false) :
    s.needSector p sl b .clean = (0, s) := by
  unfold State.needSector
  dsimp only
  rw [if_pos v]
  simp only [Sec.outcome, good, Bool.false_eq_true, if_false]

theorem State.needSector_all (s : State) (p sl a : Nat) (bs : List Nat) (good : ∀ b ∈ bs, (s.sec b).v = true ∧ (s.sec b).poison = false) :
    bs.foldl (fun (x : Nat × State) b =>
      (if x.1 = 0 then (x.2.needSector p sl b (if b = a then .clean else .clean)).1 else x.1,
        (x.2.needSector p sl b (if b = a then .clean else .clean)).2)) (0, s) = (0, s) :=
  foldl_idle (f := fun (x : Nat × State) b =>
      (if x.1 = 0 then (x.2.needSector p sl b (if b = a then .clean else .clean)).1 else x.1,
        (x.2.needSector p sl b (if b = a then .clean else .clean)).2)) (fun b mem => by
    obtain ⟨v, fine⟩ := good b mem
    simp only [ite_self, State.needSector_good v fine])

/-- A copy is not placed on the die of its home. -/
theorem State.placeCopy_home {s : State} {ag : Agent} {p l cls : Nat} {secs : List Nat} {y : Line} (line : s.line l = some y)
    (home : y.die = s.agentDie ag) : s.placeCopy ag p l cls secs = s := by
  unfold State.placeCopy
  rw [line]
  dsimp only
  rw [if_pos (by simp [home])]

/-- What a read lacks. -/
theorem State.missing_read (s : State) (ag : Agent) (part : Option Nat) (a n : Nat) (ecc : Ecc) :
    s.missing ⟨ag, part, a, n, .read, ecc⟩ = (secsOf a n).filter (fun b => !(s.sec b).v) := rfl

theorem State.missing_none {s : State} {ag : Agent} {part : Option Nat} {a n : Nat} {ecc : Ecc}
    (full : ∀ b ∈ secsOf a n, (s.sec b).v = true) : s.missing ⟨ag, part, a, n, .read, ecc⟩ = [] := by
  rw [State.missing_read, List.filter_eq_nil_iff]
  exact fun b mem => by simp [full b mem]

theorem State.missing_all {s : State} {ag : Agent} {part : Option Nat} {a n : Nat} {ecc : Ecc}
    (empty : ∀ b ∈ secsOf a n, (s.sec b).v = false) : s.missing ⟨ag, part, a, n, .read, ecc⟩ = secsOf a n := by
  rw [State.missing_read, List.filter_eq_self]
  exact fun b mem => by simp [empty b mem]

/-- What an access made whole answers. -/
theorem State.perform_eq {s u : State} {x : LinAccess} {c : Nat} {bs : List Byte}
    (made : s.lineAccess x.agent (some x.part.val) x.addr.toNat (opLen x.op) (accAct x) x.ecc (accGives x) = (c, bs, u)) :
    s.perform x = u.answer { code := c, data := if (accAct x).kind = .read then bs else [] } := by
  have known : s.perform x = (s.lineAccess x.agent (some x.part.val) x.addr.toNat (opLen x.op) (accAct x) x.ecc (accGives x)).2.2.answer
      { code := (s.lineAccess x.agent (some x.part.val) x.addr.toNat (opLen x.op) (accAct x) x.ecc (accGives x)).1
        data := if (accAct x).kind = .read then
          (s.lineAccess x.agent (some x.part.val) x.addr.toNat (opLen x.op) (accAct x) x.ecc (accGives x)).2.1 else [] } := rfl
  rw [known, made]

/-! ## A line at home -/

/-- A line present at home, over good sectors, before the agent's own slice. -/
structure State.hits (s : State) (ag : Agent) (p a n : Nat) (y : Line) : Prop where
  line : s.line (a / 128) = some y
  steady : y.recalling = false
  unbuffered : ∀ e ∈ s.lin.writeBack, e.1 ≠ a / 128
  home : y.die = (s.home p (a / 128)).1 / 256
  good : ∀ b ∈ secsOf a n, (s.sec b).v = true ∧ (s.sec b).poison = false
  near : s.agentDie ag = (s.home p (a / 128)).1 / 256

theorem State.copyServes_home {s : State} {ag : Agent} {part : Option Nat} {p a n : Nat} {kind : AccKind} {ecc : Ecc}
    (near : s.agentDie ag = (s.home p (a / 128)).1 / 256) : s.copyServes p ⟨ag, part, a, n, kind, ecc⟩ = false := by
  unfold State.copyServes
  dsimp only
  rw [decide_eq_false (p := s.agentDie ag ≠ (s.home p (a / 128)).1 / 256) (fun no => no near)]
  simp

theorem State.inBuffer_none {s : State} {a n : Nat} (unbuffered : ∀ e ∈ s.lin.writeBack, e.1 ≠ a / 128) : s.inBuffer a n = false := by
  have none : s.lin.writeBack.any (fun e => e.1 == a / 128) = false := by
    rw [List.any_eq_false]
    exact fun e mem => by simpa using unbuffered e mem
  rw [State.inBuffer, none, Bool.false_and]

section
variable {s : State} {ag : Agent} {part : Option Nat} {p a n : Nat} {y : Line} (hits : s.hits ag p a n y)
  (cached : s.target ag part a = .cached p)
include hits cached

theorem State.pointsOf_hit : s.pointsOf ⟨ag, part, a, n, .read, .clean⟩ = [12 + (s.home p (a / 128)).1 / 256] := by
  unfold State.pointsOf
  dsimp only
  rw [cached]
  dsimp only
  rw [State.copyServes_home hits.near, State.missing_none (fun b mem => (hits.good b mem).1)]
  rfl

theorem State.slotWaits_hit (v : Option Nat) : s.slotWaits ⟨ag, part, a, n, .read, .clean⟩ v = false := by
  have missing := State.missing_none (s := s) (ag := ag) (part := part) (ecc := .clean) (fun b mem => (hits.good b mem).1)
  have refetched : s.refetched ⟨ag, part, a, n, .read, .clean⟩ = [] := by
    unfold State.refetched
    rw [missing, List.nil_append, if_neg (fun no => nomatch no), List.filter_eq_nil_iff]
    intro b mem
    simp [Sec.outcome, (hits.good b mem).2]
  have joins : s.awaitsFill y ⟨ag, part, a, n, .read, .clean⟩ = false := by
    unfold State.awaitsFill
    rw [List.any_eq_false]
    intro b mem
    simp [(hits.good b mem).1]
  unfold State.slotWaits
  dsimp only
  rw [cached]
  dsimp only
  rw [State.copyServes_home hits.near, hits.line, refetched, missing]
  dsimp only
  rw [joins, hits.steady]
  simp

variable (whole : s.brup.outDies = [])
include whole

/-- A read at home is answered with the bytes of the line. -/
theorem State.lineAccess_hit {v : Option Nat} (goes : s.lineWaits ⟨ag, part, a, n, .read, .clean⟩ v = false) :
    s.lineAccess ag part a n .read .clean v = (0, s.linBytes a n, s.takenIn ⟨ag, part, a, n, .read, .clean⟩ p) := by
  have crossed := crossed_same s ((s.home p (a / 128)).1 / 256) (Act.read.sizes n).1 (Act.read.sizes n).2 whole
  have taken := s.takenIn_serves ⟨ag, part, a, n, .read, .clean⟩ p
  have present : ∀ b : Bool, (if b then s else s.allocLine p (a / 128) v) = s := fun b => by
    cases b
    · show s.allocLine p (a / 128) v = s
      rw [State.allocLine, hits.line]
    · rfl
  have read := (s.takenIn ⟨ag, part, a, n, .read, .clean⟩ p).needSector_all p ((s.home p (a / 128)).1) (a / 32 * 32) (secsOf a n)
    (fun b mem => by rw [taken.sec]; exact hits.good b mem)
  obtain ⟨z, line, core⟩ : ∃ z, (s.takenIn ⟨ag, part, a, n, .read, .clean⟩ p).line (a / 128) = some z ∧ z.core = y.core := by
    have kept := taken.lines (a / 128)
    rw [hits.line] at kept
    exact Option.map_eq_some_iff.mp kept
  have unplaced := fun cls secs => State.placeCopy_home (p := p) (cls := cls) (secs := secs) line
    (show z.die = _ from (congrArg Prod.fst core).trans (hits.home.trans (hits.near.symm.trans (taken.agentDie ag).symm)))
  have home := taken.home p (a / 128)
  have bytes := taken.linBytes a n
  unfold State.lineAccess
  dsimp only
  rw [cached]
  dsimp only
  rw [State.copyServes_home hits.near]
  dsimp only [Act.kind]
  simp only [Bool.false_and, Bool.false_eq_true, if_false]
  rw [hits.near, crossed]
  simp only [Bool.not_true, Bool.false_eq_true, if_false, goes]
  rw [present]
  unfold State.serve
  dsimp only
  rw [home, read]
  simp only [ne_eq, not_true_eq_false, if_false]
  rw [unplaced, bytes]

end

end Sys2Proof.Machine

/-! # Accesses that arrive at their home slice (R228 to R231, R239) -/

namespace Sys2Proof.Machine

theorem route_same {s : State} (a : Nat) (whole : s.brup.outDies = []) : (s.route a a 11).isSome = true := by
  unfold State.route
  rw [whole]
  simp [State.tableWay]

theorem State.routed_home {s : State} {q : Ask} {p : Nat} (cached : s.target q.agent q.part q.addr = .cached p)
    (near : s.agentDie q.agent = (s.home p (q.addr / 128)).1 / 256) (whole : s.brup.outDies = []) : s.routed q = true := by
  unfold State.routed
  rw [cached]
  dsimp only
  rw [near, route_same _ whole]
  rfl

section
variable {s : State} {x : LinAccess} {p n : Nat} {y : Line} (op : x.op = .read n) (clean : x.ecc = .clean)
  (hits : s.hits x.agent p x.addr.toNat n y) (cached : s.target x.agent (some x.part.val) x.addr.toNat = .cached p)
  (near : s.nearTo x ((s.home p (x.addr.toNat / 128)).1 / 256))
include op clean hits cached near

theorem State.hit_goes (v : Option Nat) : s.deferred (accAsk x) = false ∧ s.outranked (accAsk x) = false ∧
    s.slotWaits (accAsk x) v = false ∧ s.lineWaits (accAsk x) v = false := by
  obtain ⟨-, -, free, alone⟩ := near
  have ask := accAsk_read op
  rw [clean] at ask
  rw [ask] at alone ⊢
  have points := State.pointsOf_hit hits cached
  have metered : s.deferred ⟨x.agent, some x.part.val, x.addr.toNat, n, .read, .clean⟩ = false := by
    rw [State.deferred, points, List.any_cons, List.any_nil, Bool.or_false]
    exact State.defers_none (State.entryOf_none free)
  have first := State.outranked_alone points alone
  have slot := State.slotWaits_hit hits cached v
  exact ⟨metered, first, slot, State.lineWaits_false metered slot first⟩

theorem State.perform_hit : s.perform x = (s.takenIn (accAsk x) p).answer { data := s.linBytes x.addr.toNat n } := by
  obtain ⟨-, -, -, goes⟩ := State.hit_goes op clean hits cached near (accGives x)
  have ask := accAsk_read op
  rw [clean] at ask
  rw [ask] at goes
  have made := State.lineAccess_hit hits cached near.2.1 goes
  have len : opLen x.op = n := by rw [op]; rfl
  rw [← len, ← clean, ← accAct_read op] at made
  rw [State.perform_eq made, accAct_read op, ask, len, clean]
  rfl

theorem State.arriveHome_hit : s.arriveHome x p = (s.takenIn (accAsk x) p).answer { data := s.linBytes x.addr.toNat n } := by
  obtain ⟨metered, first, slot, -⟩ := State.hit_goes op clean hits cached near (accGives x)
  have ask := accAsk_read op
  rw [clean] at ask
  have routed : s.routed (accAsk x) = true := State.routed_home cached hits.near near.2.1
  have noCopy : s.copyServes p (accAsk x) = false := by
    rw [ask]
    exact State.copyServes_home hits.near
  have addr : (accAsk x).addr = x.addr.toNat := rfl
  have unbuffered : s.inBuffer x.addr.toNat (accAsk x).len = false := State.inBuffer_none hits.unbuffered
  have missing : s.missing (accAsk x) = [] := by
    rw [ask]
    exact State.missing_none (fun b mem => (hits.good b mem).1)
  have kind : (accAsk x).kind = .read := by rw [ask]
  have awaited : s.awaited (accAsk x) = [] := by
    unfold State.awaited
    rw [missing, kind]
    rfl
  have allocates : s.allocWaits p (x.addr.toNat / 128) (accGives x) = false := by rw [State.allocWaits, hits.line]; rfl
  have present : s.allocLine p (x.addr.toNat / 128) (accGives x) = s := by rw [State.allocLine, hits.line]
  have steady : ((s.line (x.addr.toNat / 128)).map (·.recalling)).getD false = false := by rw [hits.line]; exact hits.steady
  rw [← State.perform_hit op clean hits cached near]
  unfold State.arriveHome
  dsimp only
  rw [addr, routed, noCopy, unbuffered, metered, first, allocates, steady, present, missing, awaited, slot, kind]
  rfl

end

end Sys2Proof.Machine

/-! # Reads of a copy, and reads that miss (R228 to R230, R240, R249) -/

namespace Sys2Proof.Machine

/-! ## A copy (R230) -/

theorem State.rSat_rest (s : State) (k hi lo n : Nat) : { s.rSat k hi lo n with regs := s.regs } = s := s.rfSet_rest ..

theorem State.rAdd_rest (s : State) (k hi lo n : Nat) : { s.rAdd k hi lo n with regs := s.regs } = s := s.rfSet_rest ..

theorem State.linCorrected_rest (s : State) (sl : Nat) : { s.linCorrected sl with regs := s.regs } = s := by
  have counted : ∀ key key', { (s.rSat key 15 0 1).rAdd key' 31 0 1 with regs := s.regs } = s := fun key key' => by
    have first := s.rSat_rest key 15 0 1
    generalize s.rSat key 15 0 1 = u at *
    have second := u.rAdd_rest key' 31 0 1
    generalize u.rAdd key' 31 0 1 = t at *
    exact ((congrArg (fun v : State => { v with regs := s.regs }) second :)).trans first
  exact counted _ _

/-- A read of a copy, counted, before what its check finds. -/
def State.copyRead (s : State) (q : Ask) : State :=
  (s.countLookup (s.agentDie q.agent) (s.trafficClass q.agent (128 * (q.addr / 128))) (secsOf q.addr q.len).length
    (secsOf q.addr q.len).length).unticket q

theorem State.copyRead_serves (s : State) (q : Ask) : s.serves (s.copyRead q) :=
  (s.countLookup_serves ..).trans (State.unticket_serves _ q)

theorem State.countLookup_lin (s : State) (die cls found want : Nat) : (s.countLookup die cls found want).lin = s.lin := by
  have add : ∀ (u : State) off sel n, (u.rAdd64 (bank off sel) n).lin = u.lin := fun u off sel n => by
    obtain ⟨r, eq, -⟩ := rAdd64_bank u off sel n
    rw [eq]
  unfold State.countLookup
  dsimp only
  split
  · rw [add, add]
  · split
    · rw [add, add]
    · rw [add, add]

theorem State.copyRead_lin {s : State} {q : Ask} (free : s.ticket q = none) : (s.copyRead q).lin = s.lin := by
  unfold State.copyRead
  have lin := s.countLookup_lin (s.agentDie q.agent) (s.trafficClass q.agent (128 * (q.addr / 128))) (secsOf q.addr q.len).length
    (secsOf q.addr q.len).length
  generalize s.countLookup (s.agentDie q.agent) (s.trafficClass q.agent (128 * (q.addr / 128))) (secsOf q.addr q.len).length
    (secsOf q.addr q.len).length = u at *
  rw [State.unticket_free (by rw [State.ticket, lin]; exact free), lin]

section
variable {s : State} {x : LinAccess} {p n : Nat} (op : x.op = .read n) (copy : s.copyServes p (accAsk x) = true)
  (fine : x.ecc ≠ .uncorrectable) (cached : s.target x.agent (some x.part.val) x.addr.toNat = .cached p)
include copy fine cached

theorem State.copy_goes (v : Option Nat) : s.lineWaits (accAsk x) v = false := by
  have served : (s.copyServes p (accAsk x) && (accAsk x).ecc != .uncorrectable) = true := by
    rw [copy, Bool.true_and]
    exact bne_iff_ne.mpr fine
  have target : s.target (accAsk x).agent (accAsk x).part (accAsk x).addr = .cached p := cached
  have points : s.pointsOf (accAsk x) = [] := by
    unfold State.pointsOf
    rw [target]
    exact if_pos served
  refine State.lineWaits_false ?_ ?_ ?_
  · rw [State.deferred, points]
    rfl
  · unfold State.slotWaits
    rw [target]
    exact if_pos served
  · rw [State.outranked, points]

include op

theorem State.arriveHome_copy : ∃ t : State, s.arriveHome x p = t.answer { data := s.linBytes x.addr.toNat n } ∧
    { t with regs := (s.copyRead (accAsk x)).regs } = s.copyRead (accAsk x) := by
  have goes := State.copy_goes copy fine cached (accGives x)
  have ask := accAsk_read op
  have served : (s.copyServes p (accAsk x) && x.ecc != .uncorrectable) = true := by
    rw [copy, Bool.true_and]
    exact bne_iff_ne.mpr fine
  have bytes := (s.copyRead_serves (accAsk x)).linBytes x.addr.toNat n
  have arrives : s.arriveHome x p = s.perform x := by
    unfold State.arriveHome
    dsimp only
    rw [copy, goes, if_pos (by simp)]
    rfl
  have len : opLen x.op = n := by rw [op]; rfl
  have made : ∃ sl : Nat, s.lineAccess x.agent (some x.part.val) x.addr.toNat n .read x.ecc (accGives x) =
      (0, s.linBytes x.addr.toNat n, if x.ecc == .correctable then (s.copyRead (accAsk x)).linCorrected sl else s.copyRead (accAsk x)) := by
    rw [ask] at served bytes ⊢
    refine ⟨((mfind (s.copyRead ⟨x.agent, some x.part.val, x.addr.toNat, n, .read, x.ecc⟩).lin.copies
      (8 * (x.addr.toNat / 128) + s.agentDie x.agent)).map (·.slice)).getD 0, ?_⟩
    unfold State.copyRead at bytes ⊢
    unfold State.lineAccess
    dsimp only
    rw [cached]
    dsimp only [Act.kind]
    refine (if_pos served).trans ?_
    exact congrArg (fun b => ((0 : Nat), b, _)) bytes
  obtain ⟨sl, made⟩ := made
  refine ⟨if x.ecc == .correctable then (s.copyRead (accAsk x)).linCorrected sl else s.copyRead (accAsk x), ?_, ?_⟩
  · rw [← len, ← accAct_read op] at made
    rw [arrives, State.perform_eq made, accAct_read op, len]
    rfl
  · split
    · exact State.linCorrected_rest ..
    · rfl

end

/-! ## A miss (R228, R229) -/

/-- The record of a line that takes a way. -/
def freshLine (home : Nat × Nat) (w : Nat) : Line := { die := home.1 / 256, slice := home.1 % 256, setIx := home.2, way := w }

theorem filter_mput_le {α : Type} (f : Nat × α → Bool) (m : List (Nat × α)) {k : Nat} {v : α} (out : f (k, v) = false) :
    ((mput m k v).filter f).length ≤ (m.filter f).length := by
  induction m with
  | nil => simp [mput, out]
  | cons e r ih =>
    obtain ⟨i, w⟩ := e
    unfold mput
    split
    · rw [List.filter_cons_of_neg (by simp [out])]
      exact (List.sublist_cons_self ..).filter f |>.length_le
    · split
      · by_cases here : f (i, w) = true
        · rw [List.filter_cons_of_pos here, List.filter_cons_of_pos here]
          exact Nat.succ_le_succ ih
        · rw [List.filter_cons_of_neg here, List.filter_cons_of_neg here]
          exact ih
      · rw [List.filter_cons_of_neg (by simp [out])]

/-- A line without fetches takes no miss entry. -/
theorem State.missEntries_lineSet (s : State) (sl l : Nat) {y : Line} (idle : y.fills = []) :
    (s.lineSet l y).missEntries sl ≤ s.missEntries sl :=
  filter_mput_le _ _ (by simp [idle])

theorem mem_mget_joinFills_of_mem (x : LinAccess) {k : Nat} (secs : List Nat) {fills : List (Nat × List LinAccess)}
    (mem : x ∈ mget fills k []) : x ∈ mget (joinFills fills x secs) k [] := by
  induction secs generalizing fills with
  | nil => exact mem
  | cons b bs ih =>
    refine ih ?_
    by_cases same : k = b % 128 / 32
    · rw [same, mget_mset_same]
      exact List.mem_append_right _ List.mem_cons_self
    · rw [mget_mset_other _ _ _ _ same]
      exact mem

/-- An access joins the fetch of each sector. -/
theorem mem_mget_joinFills (x : LinAccess) {b : Nat} {secs : List Nat} (mem : b ∈ secs) (fills : List (Nat × List LinAccess)) :
    x ∈ mget (joinFills fills x secs) (b % 128 / 32) [] := by
  induction secs generalizing fills with
  | nil => cases mem
  | cons c cs ih =>
    rcases List.mem_cons.mp mem with rfl | later
    · refine mem_mget_joinFills_of_mem x cs ?_
      rw [mget_mset_same]
      exact List.mem_append_right _ List.mem_cons_self
    · exact ih later _

theorem State.carryOver_serves (s : State) (dirs : List Nat) (cls bytes : Nat) : s.serves (s.carryOver dirs cls bytes) := by
  obtain ⟨r, eq, same⟩ := carryOver_regs dirs cls bytes s
  rw [eq]
  exact .of_regs rfl same

theorem State.carryOver_lin (s : State) (dirs : List Nat) (cls bytes : Nat) : (s.carryOver dirs cls bytes).lin = s.lin := by
  obtain ⟨r, eq, -⟩ := carryOver_regs dirs cls bytes s
  rw [eq]

/-- Fetches that all find their way leave the slice. -/
theorem State.fetchGo_ok (die : Nat) (secs : List Nat) {s : State}
    (ways : ∀ b ∈ secs, (s.route die (s.stackOf b / 2) 11).isSome = true) :
    (s.fetchGo die secs).1 = true ∧ s.serves (s.fetchGo die secs).2 ∧ (s.fetchGo die secs).2.lin = s.lin := by
  induction secs generalizing s with
  | nil => exact ⟨rfl, .refl s, rfl⟩
  | cons b bs ih =>
    obtain ⟨dirs, way⟩ := Option.isSome_iff_exists.mp (ways b List.mem_cons_self)
    have sent : s.carry die (s.stackOf b / 2) 0 0 = (true, s.carryOver dirs 0 0) := by rw [State.carry, way]
    have serves := s.carryOver_serves dirs 0 0
    have lin := s.carryOver_lin dirs 0 0
    have step : s.fetchGo die (b :: bs) = (s.carryOver dirs 0 0).fetchGo die bs := by
      unfold State.fetchGo
      rw [List.foldl_cons, sent]
      rfl
    rw [step]
    generalize s.carryOver dirs 0 0 = u at *
    obtain ⟨ok, served, same⟩ := ih (s := u) (fun c mem => by
      rw [serves.alike.route, serves.stackOf]
      exact ways c (List.mem_cons_of_mem _ mem))
    exact ⟨ok, serves.trans served, same.trans lin⟩

end Sys2Proof.Machine

/-! # A read that misses joins the fetches of its sectors (R228, R229) -/

namespace Sys2Proof.Machine

/-! ## What a read that misses meets -/

/-- A line absent from its home, none of its sectors there, a free way, a miss entry, and ways to its stack. -/
structure State.misses (s : State) (ag : Agent) (p a n w : Nat) (v : Option Nat) : Prop where
  some : 0 < n
  line : s.line (a / 128) = none
  unbuffered : ∀ e ∈ s.lin.writeBack, e.1 ≠ a / 128
  near : s.agentDie ag = (s.home p (a / 128)).1 / 256
  way : s.pickWay (s.home p (a / 128)).1 (s.home p (a / 128)).2 v = .free w
  room : s.missEntries (s.home p (a / 128)).1 < 64
  empty : ∀ b ∈ secsOf a n, (s.sec b).v = false
  ways : ∀ b ∈ secsOf a n, (s.route ((s.home p (a / 128)).1 / 256) (s.stackOf b / 2) 11).isSome = true

theorem secsOf_ne_nil {a n : Nat} (some : 0 < n) : secsOf a n ≠ [] := by
  rw [secsOf, sectorCuts, cuts, if_neg (by omega)]
  exact List.cons_ne_nil _ _

/-- The fetches of a line joined by a read that goes on. -/
theorem State.proceed_fetches {s : State} {x : LinAccess} {p n : Nat} {y : Line} (op : x.op = .read n) (some : 0 < n)
    (line : s.line (x.addr.toNat / 128) = .some y) (fills : y.fills = []) (empty : ∀ b ∈ secsOf x.addr.toNat n, (s.sec b).v = false)
    (ways : ∀ b ∈ secsOf x.addr.toNat n, (s.route y.die (s.stackOf b / 2) 11).isSome = true) :
    ∃ u, s.serves u ∧ u.lin = s.lin ∧ s.proceed p x = u.lineSet (x.addr.toNat / 128)
      { y with fills := joinFills [] x (secsOf x.addr.toNat n) } := by
  obtain ⟨ok, serves, lin⟩ := State.fetchGo_ok y.die (secsOf x.addr.toNat n) ways
  have ask := accAsk_read op
  have addr : (accAsk x).addr = x.addr.toNat := rfl
  have kind : (accAsk x).kind = .read := by rw [ask]
  have awaited : s.awaited (accAsk x) = secsOf x.addr.toNat n := by
    have missing : s.missing (accAsk x) = secsOf x.addr.toNat n := by
      rw [ask]
      exact State.missing_all empty
    unfold State.awaited
    rw [missing, kind]
    simp
  have unjoined : (secsOf x.addr.toNat n).filter (fun b => !mhas y.fills (b % 128 / 32)) = secsOf x.addr.toNat n := by
    rw [fills]
    exact List.filter_eq_self.mpr (fun _ _ => rfl)
  have busy : (secsOf x.addr.toNat n).isEmpty = false := List.isEmpty_eq_false_iff.mpr (secsOf_ne_nil some)
  refine ⟨_, serves, lin, ?_⟩
  have lineU : (s.fetchGo y.die (secsOf x.addr.toNat n)).2.line (x.addr.toNat / 128) = .some y := by rw [State.line, lin]; exact line
  unfold State.proceed
  dsimp only
  rw [kind, addr, line, awaited, busy, if_neg (fun no => nomatch no), if_neg (fun no => nomatch no.1), if_neg Bool.false_ne_true]
  simp only [Option.getD_some, unjoined, ok, if_true, State.lineMap, lineU]
  rw [fills]

section
variable {s : State} {x : LinAccess} {p n w : Nat} (op : x.op = .read n) (misses : s.misses x.agent p x.addr.toNat n w (accGives x))
  (cached : s.target x.agent (some x.part.val) x.addr.toNat = .cached p)
include op misses cached

theorem State.pointsOf_miss : s.pointsOf (accAsk x) =
    [12 + (s.home p (x.addr.toNat / 128)).1 / 256, s.stackOf x.addr.toNat] := by
  have target : s.target (accAsk x).agent (accAsk x).part (accAsk x).addr = .cached p := cached
  have missing : s.missing (accAsk x) = secsOf x.addr.toNat n := by
    rw [accAsk_read op]
    exact State.missing_all misses.empty
  unfold State.pointsOf
  rw [target]
  dsimp only
  rw [missing, if_neg (secsOf_ne_nil misses.some), if_neg]
  · rfl
  · rw [accAsk_read op, State.copyServes_home misses.near]
    simp

variable (near : s.nearTo x ((s.home p (x.addr.toNat / 128)).1 / 256))
  (stack : s.ptn.running.regFind x.part.val (masterId x.agent) (s.stackOf x.addr.toNat) = none)
include near stack

theorem State.arriveHome_miss : s.arriveHome x p =
    ((s.lineSet (x.addr.toNat / 128) (freshLine (s.home p (x.addr.toNat / 128)) w)).takenIn (accAsk x) p).proceed p x := by
  obtain ⟨-, whole, free, alone⟩ := near
  have ask := accAsk_read op
  have points := State.pointsOf_miss op misses cached
  have addr : (accAsk x).addr = x.addr.toNat := rfl
  have agent : (accAsk x).agent = x.agent := rfl
  have kind : (accAsk x).kind = .read := by rw [ask]
  have len : (accAsk x).len = n := by rw [ask]
  have routed : s.routed (accAsk x) = true := State.routed_home cached misses.near whole
  have noCopy : s.copyServes p (accAsk x) = false := by
    rw [ask]
    exact State.copyServes_home misses.near
  have unbuffered : s.inBuffer x.addr.toNat n = false := State.inBuffer_none misses.unbuffered
  have metered : s.deferred (accAsk x) = false := by
    rw [State.deferred, points, List.any_cons, List.any_cons, List.any_nil, Bool.or_false, Bool.or_eq_false_iff]
    exact ⟨State.defers_none (State.entryOf_none free), State.defers_none (State.entryOf_none stack)⟩
  have first : s.outranked (accAsk x) = false := State.outranked_alone points alone
  have allocates : s.allocWaits p (x.addr.toNat / 128) (accGives x) = false := by
    have none : s.lin.writeBack.any (fun e => e.1 == x.addr.toNat / 128) = false := by
      rw [List.any_eq_false]
      exact fun e mem => by simpa using misses.unbuffered e mem
    rw [State.allocWaits, none, misses.way]
    simp [State.holdsWay]
  have present : s.allocLine p (x.addr.toNat / 128) (accGives x) =
      s.lineSet (x.addr.toNat / 128) (freshLine (s.home p (x.addr.toNat / 128)) w) := by
    unfold State.allocLine
    rw [misses.line]
    dsimp only
    rw [misses.way]
    rfl
  have absent : ((s.line (x.addr.toNat / 128)).map (·.recalling)).getD false = false := by rw [misses.line]; rfl
  have line : (s.lineSet (x.addr.toNat / 128) (freshLine (s.home p (x.addr.toNat / 128)) w)).line (x.addr.toNat / 128) =
      some (freshLine (s.home p (x.addr.toNat / 128)) w) := mfind_mput_same ..
  have room := s.missEntries_lineSet (s.home p (x.addr.toNat / 128)).1 (x.addr.toNat / 128)
    (y := freshLine (s.home p (x.addr.toNat / 128)) w) rfl
  have fits := misses.room
  have empty : ∀ b ∈ secsOf x.addr.toNat n,
      ((s.lineSet (x.addr.toNat / 128) (freshLine (s.home p (x.addr.toNat / 128)) w)).sec b).v = false := misses.empty
  have die : (s.lineSet (x.addr.toNat / 128) (freshLine (s.home p (x.addr.toNat / 128)) w)).agentDie x.agent =
      (s.home p (x.addr.toNat / 128)).1 / 256 := misses.near
  have service : (s.lineSet (x.addr.toNat / 128) (freshLine (s.home p (x.addr.toNat / 128)) w)).brup.outDies = [] := whole
  unfold State.arriveHome
  dsimp only
  rw [addr, len, routed, noCopy, unbuffered, metered, first, allocates, absent, present, kind]
  generalize s.lineSet (x.addr.toNat / 128) (freshLine (s.home p (x.addr.toNat / 128)) w) = u at *
  have missing : u.missing (accAsk x) = secsOf x.addr.toNat n := by
    rw [ask]
    exact State.missing_all empty
  have busy : (secsOf x.addr.toNat n).isEmpty = false := List.isEmpty_eq_false_iff.mpr (secsOf_ne_nil misses.some)
  have awaited : u.awaited (accAsk x) = secsOf x.addr.toNat n := by
    unfold State.awaited
    rw [missing, kind]
    simp
  have none : (secsOf x.addr.toNat n).filter (fun b => (u.sec b).v) = [] := by
    rw [List.filter_eq_nil_iff]
    exact fun b mem => by simp [empty b mem]
  have refetched : u.refetched (accAsk x) = secsOf x.addr.toNat n := by
    unfold State.refetched
    rw [missing, kind, if_neg (fun no => nomatch no), addr, len]
    refine (congrArg _ (List.filter_eq_nil_iff.mpr fun b mem => ?_)).trans (List.append_nil _)
    simp [empty b mem]
  have serves := u.takenIn_serves (accAsk x) p
  have local_ : ∀ k, (u.takenIn (accAsk x) p).cast ((u.takenIn (accAsk x) p).agentDie x.agent)
      ((s.home p (x.addr.toNat / 128)).1 / 256) 0 k = u.takenIn (accAsk x) p := fun k => by
    rw [serves.agentDie, die, State.cast, carry_same _ _ _ _ (by rw [serves.brup]; exact service)]
  have few : ¬64 ≤ u.missEntries (s.home p (x.addr.toNat / 128)).1 := by omega
  rw [line, missing, awaited, refetched, busy, none, agent]
  have noUpdate : (AccKind.read == AccKind.update) = false := rfl
  simp only [few, noUpdate, if_true, decide_false, decide_true, Bool.and_false, Bool.and_true, Bool.false_eq_true, if_false, Bool.not_true,
    Bool.or_self, Bool.false_and, ne_eq, not_true_eq_false, List.foldl_nil, local_, List.length_nil]

/-- A read that misses leaves its line with a way, and its sectors awaited. -/
theorem State.arrives_miss : ∃ t y, s.arriveHome x p = t ∧ t.line (x.addr.toNat / 128) = some y ∧ y.way = w ∧
    y.die = (s.home p (x.addr.toNat / 128)).1 / 256 ∧ (∀ b ∈ secsOf x.addr.toNat n, x ∈ mget y.fills (b % 128 / 32) []) ∧
    t.lin.data = s.lin.data ∧ t.lin.secs = s.lin.secs ∧ t.hbm = s.hbm ∧ t.reply = s.reply := by
  rw [State.arriveHome_miss op misses cached near stack]
  have line : (s.lineSet (x.addr.toNat / 128) (freshLine (s.home p (x.addr.toNat / 128)) w)).line (x.addr.toNat / 128) =
      some (freshLine (s.home p (x.addr.toNat / 128)) w) := mfind_mput_same ..
  have rest : ∀ l y, { s.lineSet l y with lin := { (s.lineSet l y).lin with lines := s.lin.lines } } = s := fun _ _ => rfl
  have set := rest (x.addr.toNat / 128) (freshLine (s.home p (x.addr.toNat / 128)) w)
  have secs : ∀ b, (s.lineSet (x.addr.toNat / 128) (freshLine (s.home p (x.addr.toNat / 128)) w)).sec b = s.sec b := fun _ => rfl
  have routes : s.routesAlike (s.lineSet (x.addr.toNat / 128) (freshLine (s.home p (x.addr.toNat / 128)) w)) := ⟨rfl, rfl, rfl, rfl, rfl⟩
  have stackOf : ∀ b, (s.lineSet (x.addr.toNat / 128) (freshLine (s.home p (x.addr.toNat / 128)) w)).stackOf b = s.stackOf b := fun _ => rfl
  generalize s.lineSet (x.addr.toNat / 128) (freshLine (s.home p (x.addr.toNat / 128)) w) = u at *
  have taken := u.takenIn_serves (accAsk x) p
  generalize u.takenIn (accAsk x) p = v at *
  obtain ⟨y, lineV, core⟩ : ∃ y, v.line (x.addr.toNat / 128) = some y ∧ y.core = (freshLine (s.home p (x.addr.toNat / 128)) w).core := by
    have kept := taken.lines (x.addr.toNat / 128)
    rw [line] at kept
    exact Option.map_eq_some_iff.mp kept
  have die : y.die = (s.home p (x.addr.toNat / 128)).1 / 256 := congrArg Prod.fst core
  have way : y.way = w := congrArg (fun c => c.2.1) core
  have fills : y.fills = [] := congrArg (fun c => c.2.2) core
  obtain ⟨r, serves, lin, went⟩ := State.proceed_fetches (p := p) op misses.some lineV fills
    (fun b mem => by rw [taken.sec, secs]; exact misses.empty b mem)
    (fun b mem => by rw [die, taken.alike.route, routes.route, taken.stackOf, stackOf]; exact misses.ways b mem)
  have both := taken.trans serves
  have linU : { u.lin with lines := s.lin.lines } = s.lin := (congrArg State.lin set :)
  have hbmU : u.hbm = s.hbm := (congrArg State.hbm set :)
  have replyU : u.reply = s.reply := (congrArg State.reply set :)
  have dataU : u.lin.data = s.lin.data := (congrArg Lining.data linU :)
  have secsU : u.lin.secs = s.lin.secs := (congrArg Lining.secs linU :)
  refine ⟨_, _, went, mfind_mput_same .., way, die, fun b mem => mem_mget_joinFills x mem [], ?_⟩
  exact ⟨both.data.trans dataU, both.secs.trans secsU, both.hbm.trans hbmU, both.reply.trans replyU⟩

end

end Sys2Proof.Machine

/-! # The statement about accesses to the lining (R22, R224 to R230, R242) -/

namespace Sys2Proof.Machine

/-! ## What an access meets does not depend on the urgency it brings -/

theorem State.line_of_lin {s t : State} (lin : t.lin = s.lin) (l : Nat) : t.line l = s.line l := by rw [State.line, lin, State.line]

section
variable {s t : State} (h : s.serves t) (lin : t.lin = s.lin)
include h lin

theorem State.serves.hits {ag : Agent} {p a n : Nat} {y : Line} (hits : s.hits ag p a n y) : t.hits ag p a n y where
  line := (State.line_of_lin lin _).trans hits.line
  steady := hits.steady
  unbuffered := by rw [lin]; exact hits.unbuffered
  home := by rw [h.home]; exact hits.home
  good := fun b mem => by rw [h.sec]; exact hits.good b mem
  near := by rw [h.agentDie, h.home]; exact hits.near

theorem State.serves.misses (free : t.free = s.free) {ag : Agent} {p a n w : Nat} {v : Option Nat} (misses : s.misses ag p a n w v) :
    t.misses ag p a n w v where
  some := misses.some
  line := (State.line_of_lin lin _).trans misses.line
  unbuffered := by rw [lin]; exact misses.unbuffered
  near := by rw [h.agentDie, h.home]; exact misses.near
  way := by
    have same : ∀ sl st, t.pickWay sl st v = s.pickWay sl st v := fun sl st => by
      unfold State.pickWay State.setLines State.setCopies
      rw [lin, h.ptn, free]
    rw [h.home, same]
    exact misses.way
  room := by
    rw [h.home, State.missEntries, lin]
    exact misses.room
  empty := fun b mem => by rw [h.sec]; exact misses.empty b mem
  ways := fun b mem => by rw [h.home, h.alike.route, h.stackOf]; exact misses.ways b mem

end

/-- The lining's bytes and marks, and HBM, are as they were. -/
def State.sameMemory (s t : State) : Prop := t.lin.data = s.lin.data ∧ t.lin.secs = s.lin.secs ∧ t.hbm = s.hbm

theorem State.serves.sameMemory {s t : State} (h : s.serves t) : s.sameMemory t := ⟨h.data, h.secs, h.hbm⟩

section
variable {s : State} {x : LinAccess}

/-! ## Accesses that fail -/

theorem exec_lining_fails (good : accBad x = 0) {c : Nat} (fails : s.target x.agent (some x.part.val) x.addr.toNat = .fails c) :
    ∃ t, exec (.liningAccess x) s = .next t ∧ t.reply = { code := c } ∧ s.sameMemory t ∧ (s.ticket (accAsk x) = none → t.lin = s.lin) ∧
      { t with reply := s.reply, net := s.net, lin := s.lin } = s := by
  refine ⟨_, congrArg Host.Outcome.next (State.arrive_fails good fails), rfl, ?_⟩
  have lin := s.urged_lin x
  have rest := s.urged_rest x
  have serves := s.urged_serves x
  generalize s.urged x = u at *
  have ticket : u.ticket (accAsk x) = s.ticket (accAsk x) := by rw [State.ticket, lin, State.ticket]
  have restV : { u.unticket (accAsk x) with lin := u.lin } = u := by
    unfold State.unticket
    split
    · rfl
    · unfold State.lineMap
      dsimp only
      split <;> rfl
  have taken := u.unticket_serves (accAsk x)
  have free := fun none => State.unticket_free (s := u) (q := accAsk x) none
  generalize u.unticket (accAsk x) = v at *
  have all : { v with net := s.net, lin := s.lin } = s :=
    ((congrArg (fun w : State => { w with net := s.net, lin := s.lin }) restV :)).trans
      (congrArg (fun w : State => { w with lin := s.lin }) rest :)
  have reply : v.reply = s.reply := (congrArg State.reply all :)
  refine ⟨(serves.trans taken).sameMemory, fun none => ?_, ?_⟩
  · have same := free (ticket.trans none)
    show v.lin = s.lin
    rw [same, lin]
  · show { v with reply := s.reply, net := s.net, lin := s.lin } = s
    rw [← reply]
    exact all

theorem exec_lining_bad (bad : accBad x ≠ 0) : ∃ t, exec (.liningAccess x) s = .next t ∧ t.reply = { code := accBad x } ∧
    { t with reply := s.reply, net := s.net } = s := by
  refine ⟨_, congrArg Host.Outcome.next (State.arrive_bad bad), rfl, ?_⟩
  have rest := s.urged_rest x
  generalize s.urged x = u at *
  have reply : u.reply = s.reply := (congrArg State.reply rest :)
  show { u with reply := s.reply, net := s.net } = s
  rw [← reply]
  exact rest

/-! ## Reads -/

section
variable {n : Nat} (op : x.op = .read n)
include op

theorem exec_lining_hit {p : Nat} {y : Line} (clean : x.ecc = .clean) (cached : s.target x.agent (some x.part.val) x.addr.toNat = .cached p)
    (hits : s.hits x.agent p x.addr.toNat n y) (near : s.nearTo x ((s.home p (x.addr.toNat / 128)).1 / 256)) :
    ∃ t, exec (.liningAccess x) s = .next t ∧ t.reply = { data := s.linBytes x.addr.toNat n } ∧ s.sameMemory t := by
  have arrives := State.arrive_cached (accBad_read op) cached
  have serves := s.urged_serves x
  have lin := s.urged_lin x
  generalize s.urged x = u at *
  rw [State.arriveHome_hit op clean (serves.hits lin hits) ((serves.target ..).trans cached)
    (serves.nearTo lin (by rw [serves.home]; exact near)), serves.linBytes] at arrives
  exact ⟨_, congrArg Host.Outcome.next arrives, rfl, (serves.trans (u.takenIn_serves (accAsk x) p)).sameMemory⟩

theorem exec_lining_copy {p : Nat} (cached : s.target x.agent (some x.part.val) x.addr.toNat = .cached p)
    (copy : s.copyServes p (accAsk x) = true) (fine : x.ecc ≠ .uncorrectable) :
    ∃ t, exec (.liningAccess x) s = .next t ∧ t.reply = { data := s.linBytes x.addr.toNat n } ∧ s.sameMemory t ∧
      (s.ticket (accAsk x) = none → t.lin = s.lin) := by
  have arrives := State.arrive_cached (accBad_read op) cached
  have serves := s.urged_serves x
  have lin := s.urged_lin x
  generalize s.urged x = u at *
  obtain ⟨t, answered, rest⟩ := State.arriveHome_copy op ((serves.copyServes lin ..).trans copy) fine ((serves.target ..).trans cached)
  have ticket : u.ticket (accAsk x) = s.ticket (accAsk x) := by rw [State.ticket, lin, State.ticket]
  have read := serves.trans (u.copyRead_serves (accAsk x))
  have same := fun none => State.copyRead_lin (s := u) (q := accAsk x) none
  generalize u.copyRead (accAsk x) = v at *
  have linT : t.lin = v.lin := (congrArg State.lin rest :)
  have hbmT : t.hbm = v.hbm := (congrArg State.hbm rest :)
  rw [answered, serves.linBytes] at arrives
  refine ⟨_, congrArg Host.Outcome.next arrives, rfl, ⟨?_, ?_, hbmT.trans read.hbm⟩, fun none => linT.trans ((same (ticket.trans none)).trans lin)⟩
  · show t.lin.data = s.lin.data
    rw [linT]
    exact read.data
  · show t.lin.secs = s.lin.secs
    rw [linT]
    exact read.secs

theorem exec_lining_miss {p w : Nat} (cached : s.target x.agent (some x.part.val) x.addr.toNat = .cached p)
    (misses : s.misses x.agent p x.addr.toNat n w (accGives x)) (near : s.nearTo x ((s.home p (x.addr.toNat / 128)).1 / 256))
    (stack : s.ptn.running.regFind x.part.val (masterId x.agent) (s.stackOf x.addr.toNat) = none) :
    ∃ t y, exec (.liningAccess x) s = .next t ∧ t.line (x.addr.toNat / 128) = some y ∧ y.way = w ∧
      y.die = (s.home p (x.addr.toNat / 128)).1 / 256 ∧ (∀ b ∈ secsOf x.addr.toNat n, x ∈ mget y.fills (b % 128 / 32) []) ∧
      s.sameMemory t ∧ t.reply = s.reply := by
  have arrives := State.arrive_cached (accBad_read op) cached
  have serves := s.urged_serves x
  have lin := s.urged_lin x
  have free : (s.urged x).free = s.free := by
    have rest := s.urged_rest x
    generalize s.urged x = u at *
    exact (congrArg State.free rest :)
  generalize s.urged x = u at *
  obtain ⟨t, y, came, line, way, die, joined, data, secs, hbm, reply⟩ := State.arrives_miss op (serves.misses lin free misses)
    ((serves.target ..).trans cached) (serves.nearTo lin (by rw [serves.home]; exact near)) (by rw [serves.ptn, serves.stackOf]; exact stack)
  rw [came] at arrives
  rw [serves.home] at die
  exact ⟨t, y, congrArg Host.Outcome.next arrives, line, way, die, joined,
    ⟨data.trans serves.data, secs.trans serves.secs, hbm.trans serves.hbm⟩, reply.trans serves.reply⟩

theorem exec_lining_pinned_read (pinned : s.target x.agent (some x.part.val) x.addr.toNat = .pinned)
    (near : s.nearTo x (winSlice x.addr.toNat / 256)) (good : ∀ b ∈ secsOf x.addr.toNat n, (s.sec b).v = true → (s.sec b).poison = false)
    (clean : x.ecc = .clean) : ∃ t, exec (.liningAccess x) s = .next t ∧ t.reply = { data := s.linBytes x.addr.toNat n } ∧ s.sameMemory t ∧
      (s.ticket (accAsk x) = none → t.lin = s.lin) := by
  have arrives := State.arrive_pinned (accBad_read op) pinned
  have serves := s.urged_serves x
  have lin := s.urged_lin x
  generalize s.urged x = u at *
  have pinnedU : u.target x.agent (some x.part.val) x.addr.toNat = .pinned := (serves.target ..).trans pinned
  have nearU := serves.nearTo lin near
  have goes := fun v => State.pinned_goes pinnedU nearU v
  have ask := accAsk_read op
  have ticket : u.ticket (accAsk x) = s.ticket (accAsk x) := by rw [State.ticket, lin, State.ticket]
  have go := goes (accGives x)
  rw [ask, clean] at go
  have made := State.lineAccess_pinned_read pinnedU nearU.1 nearU.2.1 go (fun b mem v => by rw [serves.sec] at v ⊢; exact good b mem v)
  have len : opLen x.op = n := by rw [op]; rfl
  rw [← clean, ← ask, ← len, ← accAct_read op] at made
  rw [goes none, if_neg Bool.false_ne_true, State.perform_eq made, accAct_read op, len, serves.linBytes] at arrives
  have taken := serves.trans (u.takenPinned_serves (accAsk x) (32 * (secsOf x.addr.toNat n).length))
  have same := fun none => State.takenPinned_lin (s := u) (q := accAsk x) none (32 * (secsOf x.addr.toNat n).length)
  generalize u.takenPinned (accAsk x) (32 * (secsOf x.addr.toNat n).length) = v at *
  exact ⟨_, congrArg Host.Outcome.next arrives, rfl, taken.sameMemory, fun none => (same (ticket.trans none)).trans lin⟩

end

/-! ## A write in a pinned way -/

theorem exec_lining_pinned_write {bs : List Byte} (op : x.op = .write bs) (pinned : s.target x.agent (some x.part.val) x.addr.toNat = .pinned)
    (near : s.nearTo x (winSlice x.addr.toNat / 256)) (some : 0 < bs.length) (inside : x.addr.toNat % 32 + bs.length ≤ 32) :
    ∃ t u, exec (.liningAccess x) s = .next t ∧ t.reply = {} ∧ s.serves u ∧
      u.stores t (x.addr.toNat / 32 * 32) (x.addr.toNat % 32) bs false := by
  have arrives := State.arrive_pinned (accBad_write op) pinned
  have serves := s.urged_serves x
  have lin := s.urged_lin x
  generalize s.urged x = u at *
  have pinnedU : u.target x.agent (.some x.part.val) x.addr.toNat = .pinned := (serves.target ..).trans pinned
  have nearU := serves.nearTo lin near
  have goes := fun v => State.pinned_goes pinnedU nearU v
  have ask := accAsk_write op
  have go := goes (accGives x)
  rw [ask] at go
  have made := State.lineAccess_pinned_write pinnedU nearU.1 nearU.2.1 go (sectorCuts_inside some inside)
  have len : opLen x.op = bs.length := by rw [op]; rfl
  rw [← len, ← accAct_write op] at made
  rw [goes none, if_neg Bool.false_ne_true, State.perform_eq made, accAct_write op, len] at arrives
  have taken := u.takenPinned_serves ⟨x.agent, .some x.part.val, x.addr.toNat, bs.length, .write, x.ecc⟩ bs.length
  generalize u.takenPinned ⟨x.agent, .some x.part.val, x.addr.toNat, bs.length, .write, x.ecc⟩ bs.length = v at *
  have stored := v.storeSector_stores (sl := winSlice x.addr.toNat) (a := x.addr.toNat / 32 * 32) (by omega) inside false
  generalize v.storeSector (winSlice x.addr.toNat) (x.addr.toNat / 32 * 32) (x.addr.toNat % 32) bs false = w at *
  have linT := notify_lin w (winSlice x.addr.toNat / 256) x.addr.toNat bs.length
  obtain ⟨hbmT, bar4T⟩ := notify_memories w (winSlice x.addr.toNat / 256) x.addr.toNat bs.length
  generalize w.notify (winSlice x.addr.toNat / 256) x.addr.toNat bs.length = t at *
  refine ⟨_, v, congrArg Host.Outcome.next arrives, rfl, serves.trans taken, ?_⟩
  have answered : ∀ r, (t.answer r).lin = w.lin := fun _ => linT
  have sec : ∀ r b, (t.answer r).sec b = w.sec b := fun r b => by rw [State.sec, answered, State.sec]
  have bytes : ∀ r b n, (t.answer r).linBytes b n = w.linBytes b n := fun r b n => by rw [State.linBytes, answered, State.linBytes]
  exact ⟨hbmT.trans stored.hbm, bar4T.trans stored.bar4, by rw [answered]; exact stored.lines, (bytes ..).trans stored.bytes,
    by rw [sec]; exact stored.valid, by rw [sec]; exact stored.dirty, by rw [sec, bytes]; exact stored.parity,
    fun b other => (sec _ b).trans (stored.secs b other), fun k out apart => by rw [answered]; exact stored.data k out apart⟩

end

/-- Settles O29: each access is followed to its answer over the relation of what its service may touch (`State.serves`). -/
theorem liningAccesses : Obligations.LiningAccesses := by
  unfold Obligations.LiningAccesses
  intro x s
  refine ⟨fun c fails good => exec_lining_fails good fails, fun bad => exec_lining_bad bad, ?_, ?_, ?_, fun pinned near => ⟨?_, ?_⟩⟩
  · intro p l y n cached l_ op _ _ line steady unbuffered home good clean near
    subst l_
    exact exec_lining_hit op clean cached ⟨line, steady, unbuffered, home, good, near.1⟩ near
  · intro p n cached op _ _ copy fine
    exact exec_lining_copy op cached copy fine
  · intro p l w n cached l_ op some _ line unbuffered near stack way room sectors
    subst l_
    exact exec_lining_miss op cached ⟨some, line, unbuffered, near.1, way, room, fun b mem => (sectors b mem).1,
      fun b mem => (sectors b mem).2⟩ near stack
  · intro n op _ _ good clean
    exact exec_lining_pinned_read op pinned near good clean
  · intro bs op some inside
    obtain ⟨t, u, run, reply, serves, stored⟩ := exec_lining_pinned_write op pinned near some inside
    have start : x.addr.toNat / 32 * 32 + x.addr.toNat % 32 = x.addr.toNat := by omega
    have block : x.addr.toNat / 32 * 32 / 32 = x.addr.toNat / 32 := by omega
    have own : ∀ v : State, v.sec (x.addr.toNat / 32 * 32) = v.sec x.addr.toNat := fun v => v.sec_of_block block
    have bytes := stored.bytes
    have data := stored.data
    have valid := stored.valid
    have dirty := stored.dirty
    have parity := stored.parity
    have secs := stored.secs
    rw [start] at bytes data
    rw [own] at valid dirty parity data
    rw [block] at data secs
    refine ⟨t, run, reply, bytes, valid, dirty, parity, fun b other => (secs b other).trans (serves.sec b), fun k out apart => ?_,
      stored.hbm.trans serves.hbm, stored.bar4.trans serves.bar4⟩
    rw [← serves.data]
    exact data k out (by rw [serves.sec]; exact apart)

end Sys2Proof.Machine

/-! # What a base boundary and a commit leave alone

`Ledger.desk` is what is kept by all that a commit and a base boundary do beside their own entries: the time, the tick logic, the
running pattern, the state of the basting, TICK.COUNT and the book of the PTN block. -/

namespace Sys2Proof.Machine

/-- TICK.COUNT, PTN.COMMIT_TICK, PTN.ACTIVE_ID, PTN.SEWCOUNT and PTN.EPOCH. -/
def ofDesk (k : Nat) : Bool := ofCount k || ofBook k

/-- What the parts of a commit and of a base boundary leave as it is. -/
structure Desk where
  now : Nat
  tick : Tick
  running : Pat
  phase : Phase
  unstaged : Bool
  committed : Bool
  due : Bool
  regs : Nat → Word

/-- The registers of the desk in those of the ledger. -/
def deskView (regs : Nat → Word) (k : Nat) : Word := if ofDesk k then regs k else 0

/-- The desk in a ledger. -/
def Ledger.desk (l : Ledger) : Desk := ⟨l.now, l.tick, l.running, l.phase, l.unstaged, l.committed, l.due, deskView l.regs⟩

@[simp] theorem desk_mk (now : Nat) (tick : Tick) (running : Pat) (phase : Phase) (unstaged committed due : Bool) (pair : Pair)
    (bar4 : List Host.Cell) (regs : Nat → Word) :
    (Ledger.mk now tick running phase unstaged committed due pair bar4 regs).desk =
      ⟨now, tick, running, phase, unstaged, committed, due, deskView regs⟩ := rfl

@[simp] theorem desk_fold (s : State) : Desk.mk s.now s.tick s.ptn.running s.ptn.phase s.ptn.staged.isNone s.ptn.committed s.ptn.commitDue
    (deskView (ledgerView s.regs)) = s.ledger.desk := by
  rw [State.ledger, Ledger.desk]

@[simp] theorem ite_desk (c : Prop) [Decidable c] (a b : Ledger) : (if c then a else b).desk = if c then a.desk else b.desk :=
  apply_ite ..

/-- What is kept of the state that an operation answered beside something else. -/
theorem snd_desk {α : Type} {x : α × State} {a : α} {u : State} (h : x = (a, u)) : u.ledger.desk = x.2.ledger.desk := by rw [h]

@[simp] theorem foldl_desk {β : Type} (f : State → β → State) (h : ∀ u e, (f u e).ledger.desk = u.ledger.desk) (l : List β) (s : State) :
    (l.foldl f s).ledger.desk = s.ledger.desk :=
  foldl_keeps (·.ledger.desk) f h l s

@[simp] theorem foldl_fst_desk {α β : Type} (f : State × α → β → State × α) (h : ∀ u e, (f u e).1.ledger.desk = u.1.ledger.desk)
    (l : List β) (s : State × α) : (l.foldl f s).1.ledger.desk = s.1.ledger.desk :=
  foldl_keeps (·.1.ledger.desk) f h l s

@[simp] theorem foldl_snd_desk {α β : Type} (f : α × State → β → α × State) (h : ∀ u e, (f u e).2.ledger.desk = u.2.ledger.desk)
    (l : List β) (s : α × State) : (l.foldl f s).2.ledger.desk = s.2.ledger.desk :=
  foldl_keeps (·.2.ledger.desk) f h l s

theorem State.choose_desk {s u : State} {xs : List Nat} {n : Nat} (h : s.choose xs = some (n, u)) : u.ledger.desk = s.ledger.desk :=
  congrArg Ledger.desk (State.choose_ledger h)

/-! ## Registers -/

/-- Does a register lie outside the desk? -/
def offDesk (k : Nat) : Prop := ofDesk k = false

@[simp] theorem offDesk_of_ge {k : Nat} (h : 0x30010 ≤ k) : offDesk k := by
  simp only [offDesk, ofDesk, ofCount, ofBook, Bool.or_eq_false_iff, decide_eq_false_iff_not]
  omega

@[simp] theorem offDesk_chReg {off : Nat} (ch : Nat) (h : 0x30010 ≤ off) : offDesk (chReg off ch) :=
  offDesk_of_ge (by unfold chReg; omega)

@[simp] theorem offDesk_coreReg {off : Nat} (c : Nat) (h : 0x30010 ≤ off) : offDesk (coreReg off c) :=
  offDesk_of_ge (by unfold coreReg; omega)

@[simp] theorem offDesk_proofReg {off : Nat} (p : Nat) (h : 0x30010 ≤ off) : offDesk (proofReg off p) :=
  offDesk_of_ge (by unfold proofReg; omega)

@[simp] theorem le_high {k : Nat} (n : Nat) (h : 0x30010 ≤ k) : 0x30010 ≤ k + n := Nat.le_trans h (Nat.le_add_right ..)

@[simp] theorem offDesk_high {k : Nat} (n : Nat) (h : 0x30010 ≤ k) : offDesk (k + n) := offDesk_of_ge (le_high n h)

@[simp] theorem offDesk_of_lt {k : Nat} (h : k < 0x20028) : offDesk k := by
  simp only [offDesk, ofDesk, ofCount, ofBook, Bool.or_eq_false_iff, decide_eq_false_iff_not]
  omega

@[simp] theorem le_bank (off sel : Nat) : 0x30010 ≤ bank off sel := by
  unfold bank
  omega

theorem deskView_mset (regs : List (Nat × Word)) {k : Nat} (v d : Word) (out : offDesk k) :
    deskView (ledgerView (mset regs k v d)) = deskView (ledgerView regs) := by
  funext j
  unfold deskView
  by_cases here : ofDesk j = true
  · have ne : j ≠ k := fun e => by rw [e, out] at here; cases here
    rw [if_pos here, if_pos here]
    unfold ledgerView regView
    rw [mget_mset_other regs v d (regReset (keyOff j)) ne]
  · rw [if_neg here, if_neg here]

@[simp] theorem State.rgSet_desk (s : State) {k : Nat} (v : Word) (out : offDesk k) : (s.rgSet k v).ledger.desk = s.ledger.desk :=
  congrArg (Desk.mk s.now s.tick s.ptn.running s.ptn.phase s.ptn.staged.isNone s.ptn.committed s.ptn.commitDue) (deskView_mset s.regs _ _ out)

@[simp] theorem State.rfSet_desk (s : State) {k : Nat} (hi lo v : Nat) (out : offDesk k) : (s.rfSet k hi lo v).ledger.desk = s.ledger.desk :=
  s.rgSet_desk _ out

@[simp] theorem State.rbSet_desk (s : State) {k : Nat} (i : Nat) (b : Bool) (out : offDesk k) : (s.rbSet k i b).ledger.desk = s.ledger.desk :=
  s.rgSet_desk _ out

@[simp] theorem State.rAdd_desk (s : State) {k : Nat} (hi lo n : Nat) (out : offDesk k) : (s.rAdd k hi lo n).ledger.desk = s.ledger.desk :=
  s.rgSet_desk _ out

@[simp] theorem State.rSat_desk (s : State) {k : Nat} (hi lo n : Nat) (out : offDesk k) : (s.rSat k hi lo n).ledger.desk = s.ledger.desk :=
  s.rgSet_desk _ out

@[simp] theorem State.evSet_desk (s : State) {k : Nat} (i : Nat) (out : offDesk k) : (s.evSet k i).ledger.desk = s.ledger.desk :=
  s.rgSet_desk _ out

@[simp] theorem State.rg64Set_desk (s : State) {k : Nat} (v : Nat) (out : offDesk k) (high : offDesk (k + 4)) :
    (s.rg64Set k v).ledger.desk = s.ledger.desk :=
  (State.rgSet_desk _ _ high).trans (s.rgSet_desk _ out)

@[simp] theorem State.rAdd64_desk (s : State) {k : Nat} (n : Nat) (out : offDesk k) (high : offDesk (k + 4)) :
    (s.rAdd64 k n).ledger.desk = s.ledger.desk :=
  s.rg64Set_desk _ out high

@[simp] theorem State.rgSet_deskView (s : State) {k : Nat} (v : Word) (out : offDesk k) :
    deskView (ledgerView (s.rgSet k v).regs) = deskView (ledgerView s.regs) :=
  deskView_mset s.regs _ _ out

@[simp] theorem State.rbSet_deskView (s : State) {k : Nat} (i : Nat) (b : Bool) (out : offDesk k) :
    deskView (ledgerView (s.rbSet k i b).regs) = deskView (ledgerView s.regs) :=
  s.rgSet_deskView _ out

@[simp] theorem deskView_mclear (regs : List (Nat × Word)) {a n : Nat} (high : 0x30010 ≤ a) :
    deskView (ledgerView (mclear regs a n)) = deskView (ledgerView regs) := by
  funext j
  unfold deskView
  by_cases here : ofDesk j = true
  · have low : j < 0x30010 := by
      simp only [ofDesk, ofCount, ofBook, Bool.or_eq_true, decide_eq_true_eq] at here
      omega
    rw [if_pos here, if_pos here]
    have out : ¬(a ≤ j ∧ j < a + n) := by omega
    unfold ledgerView regView
    rw [mget_mclear, if_neg out]
  · rw [if_neg here, if_neg here]

end Sys2Proof.Machine

/-! # The parts of a base boundary and of a commit -/

namespace Sys2Proof.Machine

@[simp] theorem State.partSet_desk (s : State) (p : Nat) (v : Part) : (s.partSet p v).ledger.desk = s.ledger.desk := rfl

@[simp] theorem State.partMap_desk (s : State) (p : Nat) (f : Part → Part) : (s.partMap p f).ledger.desk = s.ledger.desk := by
  simp [State.partMap]

@[simp] theorem State.coreSet_desk (s : State) (c : Nat) (v : CoreSt) : (s.coreSet c v).ledger.desk = s.ledger.desk := rfl

@[simp] theorem State.coreMap_desk (s : State) (c : Nat) (f : CoreSt → CoreSt) : (s.coreMap c f).ledger.desk = s.ledger.desk := by
  simp [State.coreMap]

@[simp] theorem State.chanSet_desk (s : State) (n : Nat) (v : Chan) : (s.chanSet n v).ledger.desk = s.ledger.desk := rfl

@[simp] theorem State.chanMap_desk (s : State) (n : Nat) (f : Chan → Chan) : (s.chanMap n f).ledger.desk = s.ledger.desk := by
  simp [State.chanMap]

@[simp] theorem State.domSet_desk (s : State) (p : Nat) (v : Domain) : (s.domSet p v).ledger.desk = s.ledger.desk := rfl

@[simp] theorem State.dowelSet_desk (s : State) (d : Nat) (v : Dowel) : (s.dowelSet d v).ledger.desk = s.ledger.desk := rfl

@[simp] theorem State.portSet_desk (s : State) (p : Nat) (v : Port) : (s.portSet p v).ledger.desk = s.ledger.desk := rfl

@[simp] theorem State.ctlSet_desk (s : State) (p off n v : Nat) : (s.ctlSet p off n v).ledger.desk = s.ledger.desk := by
  simp [State.ctlSet]

@[simp] theorem State.guarMiss_desk (s : State) (i p : Nat) : (s.guarMiss i p).ledger.desk = s.ledger.desk := by
  simp +decide -implicitDefEqProofs [State.guarMiss]

@[simp] theorem State.regEnd_desk (s : State) (i p : Nat) : (s.regEnd i p).ledger.desk = s.ledger.desk := by
  simp -implicitDefEqProofs [State.regEnd]

@[simp] theorem State.regBegin_desk (s : State) (i p : Nat) : (s.regBegin i p).ledger.desk = s.ledger.desk := by simp [State.regBegin]

@[simp] theorem State.eachEntry_desk (s : State) (f : State → Nat → Nat → State) (h : ∀ u i p, (f u i p).ledger.desk = u.ledger.desk) :
    (s.eachEntry f).ledger.desk = s.ledger.desk := by
  simp [State.eachEntry, h]

@[simp] theorem State.windowBegin_desk (s : State) : s.windowBegin.ledger.desk = s.ledger.desk := by simp [State.windowBegin]

@[simp] theorem State.regAdjust_desk (s old : State) : (s.regAdjust old).ledger.desk = s.ledger.desk := by simp [State.regAdjust]

@[simp] theorem State.regRestart_desk (s : State) : s.regRestart.ledger.desk = s.ledger.desk := by simp [State.regRestart]

@[simp] theorem State.darnLane_desk (s : State) (dir l : Nat) : (s.darnLane dir l).ledger.desk = s.ledger.desk := by simp [State.darnLane]

@[simp] theorem State.dropGroup_desk (s : State) (dir g : Nat) : (s.dropGroup dir g).ledger.desk = s.ledger.desk := by simp [State.dropGroup]

@[simp] theorem State.fenceLink_desk (s : State) (dir : Nat) : (s.fenceLink dir).ledger.desk = s.ledger.desk := by simp +decide [State.fenceLink]

@[simp] theorem State.darnDirs_desk (s : State) (dirs : List Nat) : (s.darnDirs dirs).ledger.desk = s.ledger.desk := by simp [State.darnDirs]

@[simp] theorem State.darnLanes_desk (s : State) : s.darnLanes.ledger.desk = s.ledger.desk := by simp [State.darnLanes]

@[simp] theorem State.serviceLanes_desk (s : State) : s.serviceLanes.ledger.desk = s.ledger.desk := by
  simp -implicitDefEqProofs [State.serviceLanes]

@[simp] theorem State.hbmUndefined_desk (s : State) (pchs : List Nat) : (s.hbmUndefined pchs).ledger.desk = s.ledger.desk := by
  simp [State.hbmUndefined]

@[simp] theorem State.lateGo_desk (s : State) : s.lateGo.ledger.desk = s.ledger.desk := by simp [State.lateGo]

@[simp] theorem State.performHeld_desk (s : State) (x : Line) (u : LinAccess) : (s.performHeld x u).ledger.desk = s.ledger.desk := by
  unfold State.performHeld
  split <;> simp

@[simp] theorem State.asksBegin_desk (s : State) (qs : List Ask) : (s.asksBegin qs).ledger.desk = s.ledger.desk := by simp [State.asksBegin]

@[simp] theorem State.memBegin_desk (s : State) (agent : Agent) (part : Option Nat) (a len : Nat) (kind : AccKind) (ecc : Ecc) :
    (s.memBegin agent part a len kind ecc).ledger.desk = s.ledger.desk := by
  simp [State.memBegin]

@[simp] theorem State.block_desk (s : State) (x : LinAccess) : (s.block x).ledger.desk = s.ledger.desk := by simp [State.block]

@[simp] theorem State.copiesGone_desk (s : State) (l : Nat) (y : Line) : (s.copiesGone l y).ledger.desk = s.ledger.desk := by
  simp [State.copiesGone]

@[simp] theorem State.deliver_desk (s : State) (p : Nat) (x : LinAccess) : (s.deliver p x).ledger.desk = s.ledger.desk := by simp [State.deliver]

@[simp] theorem State.fetchGo_desk (s : State) (die : Nat) (secs : List Nat) : (s.fetchGo die secs).2.ledger.desk = s.ledger.desk := by
  simp [State.fetchGo]

@[simp] theorem State.proceed_desk (s : State) (p : Nat) (x : LinAccess) : (s.proceed p x).ledger.desk = s.ledger.desk := by simp [State.proceed]

@[simp] theorem State.recallNow_desk (s : State) (l : Nat) : (s.recallNow l).ledger.desk = s.ledger.desk := by
  unfold State.recallNow
  split <;> simp

@[simp] theorem State.drainHeld_desk (s : State) (l : Nat) : (s.drainHeld l).ledger.desk = s.ledger.desk := by
  unfold State.drainHeld
  dsimp only
  split
  · simp
  · rw [State.lineMap_ledger, foldl_fst_desk]
    · simp
    · intro u h
      cases h <;> simp

@[simp] theorem State.clearSlices_desk (s : State) (p : Nat) (slices : List Nat) : (s.clearSlices p slices).ledger.desk = s.ledger.desk := by simp [State.clearSlices]

@[simp] theorem State.leaveLine_desk (s : State) (l : Nat) : (s.leaveLine l).ledger.desk = s.ledger.desk := by
  simp only [State.leaveLine]
  split <;> simp

@[simp] theorem State.rehomeLines_desk (s : State) (p : Nat) : (s.rehomeLines p).ledger.desk = s.ledger.desk := by simp [State.rehomeLines]

@[simp] theorem State.dropLines_desk (s : State) (p : Nat) : (s.dropLines p).ledger.desk = s.ledger.desk := by simp [State.dropLines]

@[simp] theorem State.strandLines_desk (s : State) (p : Nat) : (s.strandLines p).ledger.desk = s.ledger.desk := by simp [State.strandLines]

@[simp] theorem State.relayOut_desk (s : State) (old new : Pat) : (s.relayOut old new).ledger.desk = s.ledger.desk := by
  unfold State.relayOut
  rw [foldl_desk]
  intro u sl
  simp

@[simp] theorem State.relayClear_desk (s : State) (old new : Pat) : (s.relayClear old new).ledger.desk = s.ledger.desk := by simp [State.relayClear]

@[simp] theorem State.pinResult_desk (s : State) (code op : Nat) : (s.pinResult code op).ledger.desk = s.ledger.desk := by
  simp +decide -implicitDefEqProofs [State.pinResult]

@[simp] theorem State.pinCancel_desk (s : State) : s.pinCancel.ledger.desk = s.ledger.desk := by
  unfold State.pinCancel
  split <;> simp

@[simp] theorem State.noRoute_desk (s : State) (die dst : Nat) (part : Option Nat) :
    (s.noRoute die dst part).ledger.desk = s.ledger.desk := by
  simp +decide -implicitDefEqProofs [State.noRoute]

@[simp] theorem State.outSet_desk (s : State) (k : Nat) (out : Bool) : (s.outSet k out).ledger.desk = s.ledger.desk := by simp [State.outSet]

@[simp] theorem State.splineUrge_desk (s : State) (n vc : Nat) : (s.splineUrge n vc).ledger.desk = s.ledger.desk := by
  simp [State.splineUrge]

@[simp] theorem State.discardMsg_desk (s : State) : s.discardMsg.ledger.desk = s.ledger.desk := by simp +decide [State.discardMsg]

@[simp] theorem State.leave_desk (s : State) (die : Nat) (own : Option Nat) (kind : Nat) (m : Msg) :
    (s.leave die own kind m).2.ledger.desk = s.ledger.desk := by
  unfold State.leave
  split
  · rfl
  · next h => simp [State.choose_desk h]

@[simp] theorem State.remoteSend_desk (s : State) (agent : Agent) (p kind a arg : Nat) (target : Nat) (payload : List Byte) :
    (s.remoteSend agent p kind a arg target payload).2.ledger.desk = s.ledger.desk := by
  unfold State.remoteSend
  dsimp only
  split
  · rfl
  · split
    · rfl
    · split
      · simp
      · next h =>
        have hk := State.choose_desk h
        split <;> simp [hk]

@[simp] theorem State.portOps_desk (s : State) (port : Nat) (ops : List HostOp) : (s.portOps port ops).ledger.desk = s.ledger.desk := by
  simp [State.portOps]

@[simp] theorem State.bar2Err_desk (s : State) (fn code addr : Nat) (part : Option Nat) :
    (s.bar2Err fn code addr part).ledger.desk = s.ledger.desk := by
  simp [State.bar2Err]

@[simp] theorem State.bar2Done_desk (s : State) (fn : Nat) (kind : CplKind) (code : Nat) (data : List Byte) :
    (s.bar2Done fn kind code data).ledger.desk = s.ledger.desk := by
  simp [State.bar2Done]

@[simp] theorem State.pieceDone_desk (s : State) (port : Nat) (q : HostOp) (rest : List HostOp) (code : Nat) (data : List Byte) :
    (s.pieceDone port q rest code data).ledger.desk = s.ledger.desk := by
  unfold State.pieceDone
  split <;> simp

@[simp] theorem State.hostStep_desk (s : State) (port : Nat) : (s.hostStep port).2.ledger.desk = s.ledger.desk := by
  unfold State.hostStep
  dsimp only
  split
  · simp
  · split
    · simp
    · split
      · simp
      · split
        · split
          · simp
          · split <;> next h => split at h <;> simp [snd_desk h]
        · simp

@[simp] theorem State.hostRun_desk (s : State) (port : Nat) (n : Nat) : (s.hostRun port n).ledger.desk = s.ledger.desk := by
  induction n generalizing s with
  | zero => rfl
  | succ n ih =>
    rw [State.hostRun]
    split <;> next h => simp [ih, snd_desk h]

@[simp] theorem State.hostPump_desk (s : State) (port : Nat) : (s.hostPump port).ledger.desk = s.ledger.desk := by simp [State.hostPump]

@[simp] theorem State.hostRemote_desk (s : State) (port key code : Nat) (data : List Byte) : (s.hostRemote port key code data).ledger.desk = s.ledger.desk := by
  unfold State.hostRemote
  split <;> simp

@[simp] theorem State.chPend_desk (s : State) {reg : Nat} (src ch : Nat) (high : 0x30010 ≤ reg) : (s.chPend reg src ch).ledger.desk = s.ledger.desk := by
  simp [State.chPend, high]

@[simp] theorem State.jigForget_desk (s : State) (ch : Nat) : (s.jigForget ch).ledger.desk = s.ledger.desk := by simp [State.jigForget]

@[simp] theorem State.jigFault_desk (s : State) (ch code sub : Nat) : (s.jigFault ch code sub).ledger.desk = s.ledger.desk := by
  simp +decide [State.jigFault]

@[simp] theorem State.goTo_desk (s : State) (ch pc : Nat) : (s.goTo ch pc).ledger.desk = s.ledger.desk := by simp +decide [State.goTo]

@[simp] theorem State.goOn_desk (s : State) (ch : Nat) : (s.goOn ch).ledger.desk = s.ledger.desk := by simp [State.goOn]

@[simp] theorem State.jigRelease_desk (s : State) (p : Nat) : (s.jigRelease p).ledger.desk = s.ledger.desk := by
  unfold State.jigRelease
  rw [foldl_desk]
  intro u ch
  dsimp only
  split <;> simp

@[simp] theorem State.jigClear_desk (s : State) (ch : Nat) : (s.jigClear ch).ledger.desk = s.ledger.desk := by
  have high : 0x30010 ≤ chReg Reg.JIG_CH_CTL ch := Nat.le_trans (by decide) (Nat.le_add_right ..)
  simp [State.jigClear, high]

@[simp] theorem State.fitSet_desk (s : State) (f : Nat) (x : FitRec) : (s.fitSet f x).ledger.desk = s.ledger.desk := by simp [State.fitSet]

@[simp] theorem State.fitClear_desk (s : State) (f : Nat) (owner : Option Nat) : (s.fitClear f owner).ledger.desk = s.ledger.desk := by
  simp [State.fitClear]

@[simp] theorem State.proofDropped_desk (s : State) (p n : Nat) : (s.proofDropped p n).ledger.desk = s.ledger.desk := by
  simp +decide [State.proofDropped]

@[simp] theorem State.setResidents_desk (s : State) (p : Nat) (rs : List (Nat × Nat)) :
    (s.setResidents p rs).ledger.desk = s.ledger.desk := by
  simp +decide [State.setResidents]

@[simp] theorem State.finishStep_desk (s : State) (p : Nat) : (s.finishStep p).ledger.desk = s.ledger.desk := by simp +decide [State.finishStep]

@[simp] theorem State.panelReset_desk (s : State) (c : Nat) : (s.panelReset c).ledger.desk = s.ledger.desk := by
  simp [State.panelReset]

@[simp] theorem State.sendMarks_desk (s : State) (p : Nat) : (s.sendMarks p).ledger.desk = s.ledger.desk := by
  unfold State.sendMarks
  dsimp only
  rw [foldl_desk]
  intro u j
  split
  · rfl
  · split <;> next h => simp [snd_desk h]

@[simp] theorem State.dropRequests_desk (s : State) (p : Nat) : (s.dropRequests p).ledger.desk = s.ledger.desk := by
  simp [State.dropRequests]

@[simp] theorem State.dropQueued_desk (s : State) (p : Nat) : (s.dropQueued p).ledger.desk = s.ledger.desk := by
  unfold State.dropQueued
  dsimp only
  rw [State.rAdd_desk _ _ _ _ (offDesk_of_lt (by decide)), foldl_desk]
  simp

@[simp] theorem State.moveRequests_desk (s : State) (p : Nat) : (s.moveRequests p).ledger.desk = s.ledger.desk := by
  simp [State.moveRequests]

@[simp] theorem State.dropTaken_desk (s : State) (c : Nat) (p : Option Nat) : (s.dropTaken c p).ledger.desk = s.ledger.desk := by
  unfold State.dropTaken
  split <;> simp

@[simp] theorem State.coreWipe_desk (s : State) (c : Nat) : (s.coreWipe c).ledger.desk = s.ledger.desk := by simp +decide [State.coreWipe]

@[simp] theorem State.coreClear_desk (s : State) (c : Nat) : (s.coreClear c).ledger.desk = s.ledger.desk := by simp [State.coreClear]

@[simp] theorem State.coreBlockSet_desk (s : State) (c : Nat) (b : CoreBlock) : (s.coreBlockSet c b).ledger.desk = s.ledger.desk := by
  simp +decide [State.coreBlockSet]

@[simp] theorem State.coresMove_desk (s : State) (moves : List (Nat × Nat × Nat)) : (s.coresMove moves).ledger.desk = s.ledger.desk := by
  simp [State.coresMove]

@[simp] theorem State.abandonStep_desk (s : State) (p : Nat) : (s.abandonStep p).ledger.desk = s.ledger.desk := by simp +decide [State.abandonStep]

@[simp] theorem State.pinDrop_desk (s : State) (p : Nat) : (s.pinDrop p).ledger.desk = s.ledger.desk := by
  unfold State.pinDrop
  split <;> simp

@[simp] theorem State.hostFail_desk (s : State) (p : Nat) : (s.hostFail p).ledger.desk = s.ledger.desk := by
  unfold State.hostFail
  rw [foldl_desk]
  intro u e
  split <;> simp

@[simp] theorem State.failQueued_desk (s : State) (p : Nat) : (s.failQueued p).ledger.desk = s.ledger.desk := by
  simp -implicitDefEqProofs [State.failQueued]

@[simp] theorem State.clearOwned_desk (s : State) (p : Nat) : (s.clearOwned p).ledger.desk = s.ledger.desk := by simp [State.clearOwned]

@[simp] theorem State.scrubPart_desk (s : State) (p : Nat) : (s.scrubPart p).ledger.desk = s.ledger.desk := by
  simp +decide [State.scrubPart]

@[simp] theorem State.turnoverDone_desk (s : State) (ps : List Nat) : (s.turnoverDone ps).ledger.desk = s.ledger.desk := by
  simp +decide -implicitDefEqProofs [State.turnoverDone]

@[simp] theorem State.rekey_desk (s : State) (gone : List Nat) : (s.rekey gone).ledger.desk = s.ledger.desk := by simp +decide [State.rekey]

@[simp] theorem State.pwrEvt_desk (s : State) (i : Nat) : (s.pwrEvt i).ledger.desk = s.ledger.desk := by simp +decide [State.pwrEvt]

@[simp] theorem State.supplyRec_desk (s : State) (cause a b : Nat) (part : Option Nat) :
    (s.supplyRec cause a b part).ledger.desk = s.ledger.desk := by
  simp [State.supplyRec]

@[simp] theorem State.powerAsk_desk (s : State) (p : Nat) : (s.powerAsk p).ledger.desk = s.ledger.desk := by simp [State.powerAsk]

@[simp] theorem State.powerDown_desk (s : State) (p : Nat) (st : DomainState) : (s.powerDown p st).ledger.desk = s.ledger.desk := by
  simp [State.powerDown]

@[simp] theorem State.fenceCore_desk (s : State) (p : Nat) (aged : Bool) : (s.fenceCore p aged).ledger.desk = s.ledger.desk := by
  unfold State.fenceCore
  dsimp only
  repeat' split
  all_goals simp

@[simp] theorem State.powerBoundary_desk (s : State) : s.powerBoundary.ledger.desk = s.ledger.desk := by simp -implicitDefEqProofs [State.powerBoundary]

@[simp] theorem State.pairEvt_desk (s : State) (i : Nat) : (s.pairEvt i).ledger.desk = s.ledger.desk := by simp [State.pairEvt]

@[simp] theorem State.endMirroring_desk (s : State) : s.endMirroring.ledger.desk = s.ledger.desk := by simp [State.endMirroring]

@[simp] theorem State.sendBeats_desk (s : State) : s.sendBeats.ledger.desk = s.ledger.desk := by simp [State.sendBeats]

@[simp] theorem State.applyRelock_desk (s : State) : s.applyRelock.ledger.desk = s.ledger.desk := by simp [State.applyRelock]

@[simp] theorem State.tokUsed_desk (s : State) (seq : Nat) : (s.tokUsed seq).ledger.desk = s.ledger.desk := by simp [State.tokUsed]

@[simp] theorem State.thmEvt_desk (s : State) (i : Nat) : (s.thmEvt i).ledger.desk = s.ledger.desk := by simp +decide [State.thmEvt]

@[simp] theorem State.altNext_desk (s : State) (a : Alteration) (rest : List Nat) (retry : List Nat) :
    (s.altNext a rest retry).ledger.desk = s.ledger.desk := by
  unfold State.altNext
  split <;> simp

@[simp] theorem State.altPoll_desk (s : State) (n : Nat) : (s.altPoll n).ledger.desk = s.ledger.desk := by
  induction n generalizing s with
  | zero => rfl
  | succ n ih =>
    rw [State.altPoll]
    split
    · rfl
    · split <;> simp [ih]

@[simp] theorem State.altGo_desk (s : State) : s.altGo.ledger.desk = s.ledger.desk := by
  unfold State.altGo
  split <;> simp

@[simp] theorem State.altOff_desk (s : State) (a : Alteration) (p : Nat) : (s.altOff a p).ledger.desk = s.ledger.desk := by
  simp [State.altOff]

@[simp] theorem State.admitFrom_desk (s : State) (p tail : Nat) (n : Nat) (m : Nat) :
    (s.admitFrom p tail n m).2.ledger.desk = s.ledger.desk := by
  induction n generalizing s m with
  | zero => rfl
  | succ n ih => simp [State.admitFrom, ih]

@[simp] theorem State.setLag_desk (s : State) (p : Nat) (ages : List Nat) : (s.setLag p ages).ledger.desk = s.ledger.desk := by simp +decide [State.setLag]

@[simp] theorem State.admission_desk (s : State) (p tail : Nat) : (s.admission p tail).ledger.desk = s.ledger.desk := by simp +decide [State.admission]

@[simp] theorem State.startSupervisors_desk (s : State) (p : Nat) : (s.startSupervisors p).ledger.desk = s.ledger.desk := by
  simp [State.startSupervisors]

@[simp] theorem State.maintenance_desk (s : State) (p : Nat) : (s.maintenance p).ledger.desk = s.ledger.desk := by
  unfold State.maintenance
  dsimp only
  repeat' split
  all_goals simp

@[simp] theorem State.skipStep_desk (s : State) (p : Nat) : (s.skipStep p).ledger.desk = s.ledger.desk := by simp +decide [State.skipStep]

@[simp] theorem State.stopPart_desk (s : State) (p : Nat) : (s.stopPart p).ledger.desk = s.ledger.desk := by simp +decide [State.stopPart]

@[simp] theorem State.mapOut_desk (s : State) (t : Pat) : (s.mapOut t).ledger.desk = s.ledger.desk := by
  unfold State.mapOut
  rw [foldl_desk]
  intro u n
  simp +decide

@[simp] theorem State.giveUp_desk (s : State) (p : Nat) : (s.giveUp p).ledger.desk = s.ledger.desk := by simp [State.giveUp]

@[simp] theorem State.commitPower_desk (s : State) (old new : Pat) : (s.commitPower old new).ledger.desk = s.ledger.desk := by
  unfold State.commitPower
  dsimp only
  repeat' split
  all_goals simp

@[simp] theorem State.fullUnlock_desk (s : State) : s.fullUnlock.ledger.desk = s.ledger.desk := by simp [State.fullUnlock]

@[simp] theorem State.applyUnlock_desk (s : State) : s.applyUnlock.ledger.desk = s.ledger.desk := by
  unfold State.applyUnlock
  split <;> simp

end Sys2Proof.Machine

/-! # What the steps that a base boundary begins leave of the time and the tick logic (R48, R49, R56) -/

namespace Sys2Proof.Machine

/-- What steps of partitions leave as it is: the time, the tick logic with TICK.COUNT, and the state of the basting. -/
structure Clock where
  now : Nat
  tick : Tick
  phase : Phase
  unstaged : Bool
  committed : Bool
  due : Bool
  count : Nat → Word

/-- TICK.COUNT among the registers of the desk. -/
def clockView (regs : Nat → Word) (k : Nat) : Word := if ofCount k then regs k else 0

/-- The clock on a desk. -/
def Desk.clock (d : Desk) : Clock := ⟨d.now, d.tick, d.phase, d.unstaged, d.committed, d.due, clockView d.regs⟩

@[simp] theorem clock_mk (now : Nat) (tick : Tick) (running : Pat) (phase : Phase) (unstaged committed due : Bool)
    (regs : Nat → Word) :
    (Desk.mk now tick running phase unstaged committed due regs).clock = ⟨now, tick, phase, unstaged, committed, due, clockView regs⟩ := rfl

@[simp] theorem clock_fold (s : State) : Clock.mk s.now s.tick s.ptn.phase s.ptn.staged.isNone s.ptn.committed s.ptn.commitDue
    (clockView (deskView (ledgerView s.regs))) = s.ledger.desk.clock := by
  rw [State.ledger, Ledger.desk, Desk.clock]

@[simp] theorem ite_clock (c : Prop) [Decidable c] (a b : Desk) : (if c then a else b).clock = if c then a.clock else b.clock :=
  apply_ite ..

@[simp] theorem foldl_clock {β : Type} (f : State → β → State) (h : ∀ u e, (f u e).ledger.desk.clock = u.ledger.desk.clock) (l : List β)
    (s : State) : (l.foldl f s).ledger.desk.clock = s.ledger.desk.clock :=
  foldl_keeps (·.ledger.desk.clock) f h l s

section
variable {s t : State} (h : t.ledger.desk.clock = s.ledger.desk.clock)
include h

theorem now_of_clock : t.now = s.now := congrArg Clock.now h
theorem tick_of_clock : t.tick = s.tick := congrArg Clock.tick h
theorem phase_of_clock : t.ptn.phase = s.ptn.phase := congrArg Clock.phase h
theorem unstaged_of_clock : t.ptn.staged.isNone = s.ptn.staged.isNone := congrArg Clock.unstaged h
theorem committed_of_clock : t.ptn.committed = s.ptn.committed := congrArg Clock.committed h
theorem due_of_clock : t.ptn.commitDue = s.ptn.commitDue := congrArg Clock.due h

theorem tickNo_of_clock : t.tickNo = s.tickNo := by
  have view : ∀ k, clockView (deskView (ledgerView t.regs)) k = clockView (deskView (ledgerView s.regs)) k := congrFun (congrArg Clock.count h)
  have kept : ∀ k, ofCount k = true → t.rg k = s.rg k := fun k mine => by
    have same := view k
    unfold clockView deskView ledgerView regView at same
    have desk : ofDesk k = true := by rw [ofDesk, mine]; rfl
    have ledger : (ofCount k || ofBook k || ofSteps k) = true := by rw [mine]; rfl
    rwa [if_pos mine, if_pos mine, if_pos desk, if_pos desk, if_pos ledger, if_pos ledger] at same
  exact State.rg64_of_rg (kept _ (by decide)) (kept _ (by decide))

end

@[simp] theorem State.deviceChange_clock (s : State) (f : Pat → Pat) : (s.deviceChange f).ledger.desk.clock = s.ledger.desk.clock := by
  simp [State.deviceChange]

@[simp] theorem State.pinApply_clock (s : State) (p : Nat) : (s.pinApply p).ledger.desk.clock = s.ledger.desk.clock := by
  unfold State.pinApply
  dsimp only
  repeat' split
  all_goals simp

@[simp] theorem State.substitute_clock (s : State) (p c old new : Nat) :
    (s.substitute p c old new).ledger.desk.clock = s.ledger.desk.clock := by
  simp +decide [State.substitute]

@[simp] theorem State.serveFences_clock (s : State) (p : Nat) (fenced : List Nat) :
    (s.serveFences p fenced).ledger.desk.clock = s.ledger.desk.clock := by
  unfold State.serveFences
  rw [foldl_clock]
  intro u c
  dsimp only
  split
  · rfl
  · split <;> simp

@[simp] theorem State.beginStep_clock (s : State) (p : Nat) (commit : Bool) : (s.beginStep p commit).ledger.desk.clock = s.ledger.desk.clock := by
  unfold State.beginStep
  extract_lets v dip w a b c starts d
  have counted : v.ledger.desk = s.ledger.desk :=
    s.rAdd64_desk _ (offDesk_of_ge (le_high _ (by decide))) (offDesk_of_ge (le_high _ (le_high _ (by decide))))
  have began : w.ledger.desk = v.ledger.desk := by simp [w]
  have pinned : a.ledger.desk.clock = w.ledger.desk.clock := by simp [a]
  have emptied : d.ledger.desk = a.ledger.desk := by simp [d, c, b]
  split
  · rw [emptied, pinned, began, counted]
  · rw [State.startSupervisors_desk, emptied, pinned, began, counted]

@[simp] theorem State.ownStep_clock (s : State) (fenced : List Nat) (p : Nat) : (s.ownStep fenced p).ledger.desk.clock = s.ledger.desk.clock := by
  simp [State.ownStep]

end Sys2Proof.Machine

/-! # A base boundary up to the base tick that it begins (R48, R56, R474, R480) -/

namespace Sys2Proof.Machine

/-- From `s` to `t` neither the time nor the tick logic nor the running pattern has moved, and no sew has been armed. -/
structure State.holds (s t : State) : Prop where
  now : t.now = s.now
  tick : t.tick = s.tick
  running : t.ptn.running = s.ptn.running
  tickNo : t.tickNo = s.tickNo
  idle : s.ptn.phase ≠ .armed ∧ s.ptn.commitDue = false → t.ptn.phase ≠ .armed ∧ t.ptn.commitDue = false

namespace State.holds

theorem refl (s : State) : s.holds s := ⟨rfl, rfl, rfl, rfl, id⟩

theorem trans {s t u : State} (a : s.holds t) (b : t.holds u) : s.holds u :=
  ⟨b.now.trans a.now, b.tick.trans a.tick, b.running.trans a.running, b.tickNo.trans a.tickNo, fun h => b.idle (a.idle h)⟩

end State.holds

theorem State.holds_of_desk {s t : State} (h : t.ledger.desk = s.ledger.desk) : s.holds t := by
  have clock := congrArg Desk.clock h
  refine ⟨now_of_clock clock, tick_of_clock clock, congrArg Desk.running h, tickNo_of_clock clock, fun ⟨phase, due⟩ => ⟨?_, ?_⟩⟩
  · rwa [phase_of_clock clock]
  · rw [due_of_clock clock, due]

theorem foldl_holds {β : Type} {f : State → β → State} {l : List β} (each : ∀ (u : State), ∀ e ∈ l, u.holds (f u e)) (s : State) :
    s.holds (l.foldl f s) :=
  List.foldlRecOn l f (.refl s) fun u sofar e mem => sofar.trans (each u e mem)

/-! ## A partition reset -/

@[simp] theorem State.ptnResult_desk (s : State) (code detail op : Nat) (unpicked : Bool) (who : Option Func) :
    (s.ptnResult code detail op unpicked who).ledger.desk = s.ledger.desk := by
  have written : ∀ v, (s.rgSet Reg.PTN_RESULT v).ledger.desk = s.ledger.desk := fun v => s.rgSet_desk v (offDesk_of_lt (by decide))
  unfold State.ptnResult
  dsimp only
  repeat' split
  all_goals simp [written]

theorem State.dropBasting_holds (s : State) : s.holds s.dropBasting := ⟨rfl, rfl, rfl, rfl, fun _ => ⟨Phase.noConfusion, rfl⟩⟩

theorem State.unpickWith_holds (s : State) (code detail op : Nat) (who : Option Func) : s.holds (s.unpickWith code detail op who) :=
  (State.holds_of_desk (s.ptnResult_desk ..)).trans (State.dropBasting_holds _)

/-- The EPOCH of a partition counted. -/
theorem State.epochUp_holds (s : State) {p : Nat} (p16 : p < 16) : s.holds (s.rAdd (Reg.PTN_EPOCH + 4 * p) 15 0 1) := by
  refine ⟨rfl, rfl, rfl, ?_, id⟩
  have apart : Reg.TICK_COUNT ≠ Reg.PTN_EPOCH + 4 * p ∧ Reg.TICK_COUNT + 4 ≠ Reg.PTN_EPOCH + 4 * p := by
    unfold Reg.TICK_COUNT Reg.PTN_EPOCH
    omega
  exact State.rg64_of_rg (rg_rAdd_other s _ _ _ apart.1) (rg_rAdd_other s _ _ _ apart.2)

theorem State.partReset_holds (s : State) {p : Nat} (p16 : p < 16) : s.holds (s.partReset p) := by
  unfold State.partReset
  extract_lets u e v w x
  split
  · exact .refl s
  · have counted : s.holds u := (s.epochUp_holds p16).trans (State.holds_of_desk (State.rAdd_desk _ _ _ _ (offDesk_of_lt (by decide))))
    have busy : u.holds v :=
      State.holds_of_desk ((State.partMap_desk ..).trans (State.rbSet_desk _ _ _ (offDesk_of_lt (by decide))))
    have gone : v.holds w := State.holds_of_desk (by simp [w])
    have unpicked : w.holds x := by
      simp only [x]
      split
      · exact w.unpickWith_holds ..
      · exact .refl w
    have pumped : x.holds ((x.hostPump 0).hostPump 1) := State.holds_of_desk (by simp)
    exact counted.trans (busy.trans (gone.trans (unpicked.trans pumped)))

/-! ## The pair -/

@[simp] theorem State.setRole_desk (s : State) (r : Role) : (s.setRole r).ledger.desk = s.ledger.desk := by
  unfold State.setRole
  dsimp only
  repeat' split
  all_goals simp

theorem State.mem_protectedParts {s : State} {p : Nat} (mem : p ∈ s.protectedParts) : p < 16 := by
  unfold State.protectedParts Pat.enabledParts at mem
  exact List.mem_range.mp (List.mem_filter.mp (List.mem_filter.mp mem).1).1

theorem State.pairBoundary_holds (s : State) : s.holds s.pairBoundary.2 := by
  unfold State.pairBoundary
  extract_lets x u
  have noted : u.ledger.desk = s.ledger.desk := by simp [u]
  split
  · exact State.holds_of_desk (by simp [noted])
  · split
    next => split <;> exact State.holds_of_desk (by simp [noted])
    next => split <;> exact State.holds_of_desk (by simp +decide [noted])
    next =>
      split
      · have reset : u.holds (u.protectedParts.foldl (fun v p => v.partReset p) u) :=
          foldl_holds (fun v p mem => v.partReset_holds (State.mem_protectedParts mem)) u
        have fenced : ∀ v : State, v.holds ((v.setRole .fenced).pairEvt 1) := fun v => State.holds_of_desk (by simp)
        exact (State.holds_of_desk noted).trans (reset.trans (fenced _))
      · split <;> exact State.holds_of_desk (by simp [noted])
    next => exact State.holds_of_desk (by simp [noted])

/-! ## What waits for the boundary -/

/-- Dowel links, regulators, power and alterations at a base boundary. -/
theorem State.served_holds (s : State) :
    s.holds ((((((s.eachEntry State.regEnd).serviceLanes).windowBegin).lateGo).powerBoundary).altGo) := State.holds_of_desk (by simp)

theorem State.holdStage_idle {s : State} (idle : s.ptn.phase ≠ .armed) : s.holdStage = s := by
  unfold State.holdStage
  split
  next armed _ => exact absurd armed idle
  next => rfl

theorem State.sampleTails_idle {s : State} (idle : s.ptn.commitDue = false) : s.sampleTails = s := by simp [State.sampleTails, idle]

/-! ## The base tick that begins -/

/-- The tick logic at the start of a base tick (R56, R57). -/
def State.tickBegun (s : State) : Tick :=
  { s.tick with
    demand := s.tick.demand - clampEase s.tick.demand s.ptn.running.ease
    begun := s.now
    next := some (s.now + 10 * ((s.ptn.running.basePeriod : Int) + clampEase s.tick.demand s.ptn.running.ease).toNat)
    easeExceeded := decide (s.ptn.running.ease < s.tick.demand.natAbs) }

theorem State.beginTick_desk (s : State) : s.beginTick.ledger.desk = ({ s with tick := s.tickBegun } : State).ledger.desk := by
  unfold State.beginTick
  extract_lets bp e d c exceeded newly len was u v w
  have shown : v.ledger.desk = u.ledger.desk := State.rfSet_desk _ _ _ _ (offDesk_of_ge (by decide))
  have counted : w.ledger.desk = v.ledger.desk := by
    simp only [w]
    split
    · exact State.rAdd_desk _ _ _ _ (offDesk_of_ge (by decide))
    · rfl
  have noted : ((w.err eEase (unitId 0 0) none 0 (d % 2 ^ 64).toNat).evSet Reg.TICK_STATUS 3).ledger.desk = w.ledger.desk :=
    (State.evSet_desk _ _ (show ofDesk Reg.TICK_STATUS = false by decide)).trans (by rw [State.err_ledger])
  have begun : w.ledger.desk = u.ledger.desk := counted.trans shown
  split
  · rw [State.raise_ledger, noted]
    exact begun
  · exact begun

end Sys2Proof.Machine

/-! # A base boundary without a commit (R48, R56) -/

namespace Sys2Proof.Machine

/-- Boundary 0, or the base tick that ends counted. -/
def State.tickCounted (s : State) : State := if s.tick.en then s.rAdd64 Reg.TICK_COUNT 1 else s.firstBoundary

/-- The end of a base tick, before anything is done at its boundary. -/
def State.tickEnds (s : State) : State :=
  { s.tickCounted with tick := { s.tickCounted.tick with next := none, passed := (s.tickCounted.now :: s.tickCounted.tick.passed).take 65536 } }

/-- The steps that begin at a boundary, once its base tick has begun. -/
def State.boundarySteps (s : State) (takeover : Bool) (fenced : List Nat) : State :=
  let s := if takeover && !s.haltedNow then
      s.protectedParts.foldl (fun u p =>
        if (u.part p).running || (u.part p).held || (u.part p).stopped || (u.part p).resetting then u
        else (u.partMap p (fun x => { x with tail := u.slateTail p })).beginStep p true) s
    else s
  (s.ptn.running.enabledParts.filter (fun p => s.ownBoundary p && !(takeover && (s.part p).boundary == s.tickNo && (s.part p).running))).foldl
    (fun u p => u.ownStep fenced p) s

/-- The base tick that begins at a boundary at which no commit is due. -/
def State.tickBegins (s : State) : State := if s.ptn.commitDue then s else s.beginTick.applyRelock.applyUnlock

/-- What a boundary does before the pair's part of it. -/
def State.boundaryOpened (s : State) : State :=
  (((((s.tickEnds.eachEntry State.regEnd).serviceLanes).windowBegin).lateGo).powerBoundary).altGo

/-- What is done at a boundary before the commit or the next base tick. -/
def State.boundaryServed (s : State) : State :=
  s.boundaryOpened.pairBoundary.2.sendBeats

theorem State.boundary_eq (s : State) :
    s.boundary = s.boundaryServed.holdStage.sampleTails.tickBegins.boundarySteps s.boundaryOpened.pairBoundary.1 s.nor.fenced := by
  unfold State.boundary State.boundarySteps State.tickBegins State.boundaryServed State.boundaryOpened State.tickEnds State.tickCounted
  dsimp only

theorem State.firstBoundary_desk (s : State) :
    s.firstBoundary.ledger.desk = ({ s with tick := { s.tick with en := true } } : State).ledger.desk := by
  unfold State.firstBoundary
  extract_lets owned was then_ u
  have kept : ∀ (v : State) p, (let st := (v.dom p).st; if owned.contains p || st == .unpowered || st == .fenced || st == .stopped then v
      else v.powerDown p .unpowered).ledger.desk = v.ledger.desk := fun v p => by dsimp only; split <;> simp
  exact foldl_desk _ kept _ u

theorem State.tickCounted_now (s : State) : s.tickCounted.now = s.now := by
  unfold State.tickCounted
  split
  · rfl
  · exact congrArg Desk.now s.firstBoundary_desk

theorem State.tickCounted_tick (s : State) : s.tickCounted.tick = { s.tick with en := true } := by
  unfold State.tickCounted
  split
  next on => rw [← on]; rfl
  next => exact congrArg Desk.tick s.firstBoundary_desk

theorem State.tickCounted_running (s : State) : s.tickCounted.ptn.running = s.ptn.running := by
  unfold State.tickCounted
  split
  · rfl
  · exact congrArg Desk.running s.firstBoundary_desk

theorem State.tickCounted_phase (s : State) : s.tickCounted.ptn.phase = s.ptn.phase := by
  unfold State.tickCounted
  split
  · rfl
  · exact congrArg Desk.phase s.firstBoundary_desk

theorem State.tickCounted_due (s : State) : s.tickCounted.ptn.commitDue = s.ptn.commitDue := by
  unfold State.tickCounted
  split
  · rfl
  · exact congrArg Desk.due s.firstBoundary_desk

/-- TICK.COUNT behind the end of a base tick: boundary 0 counts none. -/
theorem State.tickCounted_tickNo (s : State) : s.tickCounted.tickNo = if s.tick.en then (s.tickNo + 1) % 2 ^ 64 else s.tickNo := by
  unfold State.tickCounted
  split
  · exact rg64_rAdd64_same s Reg.TICK_COUNT 1
  · have early : ({ s with tick := { s.tick with en := true } } : State).tickNo = s.tickNo := rfl
    exact (tickNo_of_clock (congrArg Desk.clock s.firstBoundary_desk)).trans early

/-- The tick logic at the end of a base tick. -/
def State.endTick (u : State) : Tick := { u.tick with next := none, passed := (u.now :: u.tick.passed).take 65536 }

/-- A state whose tick logic alone has changed. -/
theorem State.tick_set (u : State) (k : Tick) : ({ u with tick := k } : State).now = u.now ∧ ({ u with tick := k } : State).ptn = u.ptn ∧
    ({ u with tick := k } : State).tickNo = u.tickNo ∧ ({ u with tick := k } : State).tick = k := ⟨rfl, rfl, rfl, rfl⟩

theorem State.tickEnds_eq (s : State) : s.tickEnds = { s.tickCounted with tick := s.tickCounted.endTick } := by
  unfold State.tickEnds State.endTick
  rfl

theorem State.tickEnds_kept (s : State) : s.tickEnds.now = s.tickCounted.now ∧ s.tickEnds.ptn = s.tickCounted.ptn ∧
    s.tickEnds.tickNo = s.tickCounted.tickNo ∧ s.tickEnds.tick = s.tickCounted.endTick := by
  rw [State.tickEnds_eq]
  exact State.tick_set _ _

theorem State.boundaryServed_holds (s : State) : s.tickEnds.holds s.boundaryServed :=
  (s.tickEnds.served_holds).trans ((State.pairBoundary_holds _).trans (State.holds_of_desk (State.sendBeats_desk _)))

/-- Without a commit due a boundary serves what waits for it, and begins the next base tick with its steps. -/
theorem State.boundary_steps {s : State} (idle : s.ptn.phase ≠ .armed) (due : s.ptn.commitDue = false) :
    s.boundary = s.boundaryServed.beginTick.applyRelock.applyUnlock.boundarySteps s.boundaryOpened.pairBoundary.1 s.nor.fenced := by
  have calm : s.tickEnds.ptn.phase ≠ .armed ∧ s.tickEnds.ptn.commitDue = false := by
    rw [s.tickEnds_kept.2.1, s.tickCounted_phase, s.tickCounted_due]
    exact ⟨idle, due⟩
  obtain ⟨phase, none⟩ := s.boundaryServed_holds.idle calm
  rw [State.boundary_eq, State.holdStage_idle phase, State.sampleTails_idle none, State.tickBegins, if_neg (by simp [none])]

theorem State.boundarySteps_clock (s : State) (takeover : Bool) (fenced : List Nat) :
    (s.boundarySteps takeover fenced).ledger.desk.clock = s.ledger.desk.clock := by
  unfold State.boundarySteps
  extract_lets w
  have begun : ∀ (x : State) p, (if (x.part p).running || (x.part p).held || (x.part p).stopped || (x.part p).resetting then x
      else (x.partMap p (fun y => { y with tail := x.slateTail p })).beginStep p true).ledger.desk.clock = x.ledger.desk.clock := fun x p => by
    split <;> simp
  have taken : w.ledger.desk.clock = s.ledger.desk.clock := by
    simp only [w]
    split
    · exact foldl_clock _ begun _ s
    · rfl
  rw [foldl_clock _ (fun x p => x.ownStep_clock fenced p), taken]

theorem State.boundary_clock {s : State} (idle : s.ptn.phase ≠ .armed) (due : s.ptn.commitDue = false) :
    s.boundary.ledger.desk.clock = ({ s.boundaryServed with tick := s.boundaryServed.tickBegun } : State).ledger.desk.clock := by
  rw [State.boundary_steps idle due, State.boundarySteps_clock, State.applyUnlock_desk, State.applyRelock_desk, State.beginTick_desk]

theorem State.boundaryServed_now (s : State) : s.boundaryServed.now = s.now := by
  rw [s.boundaryServed_holds.now, s.tickEnds_kept.1, s.tickCounted_now]

theorem State.boundaryServed_running (s : State) : s.boundaryServed.ptn.running = s.ptn.running := by
  rw [s.boundaryServed_holds.running, s.tickEnds_kept.2.1, s.tickCounted_running]

theorem State.boundaryServed_tick (s : State) : s.boundaryServed.tick = s.tickCounted.endTick := by
  rw [s.boundaryServed_holds.tick, s.tickEnds_kept.2.2.2]

theorem State.boundaryServed_tickNo (s : State) : s.boundaryServed.tickNo = if s.tick.en then (s.tickNo + 1) % 2 ^ 64 else s.tickNo := by
  rw [s.boundaryServed_holds.tickNo, s.tickEnds_kept.2.2.1, s.tickCounted_tickNo]

theorem State.boundaryServed_en (s : State) : s.boundaryServed.tick.en = true := by
  rw [State.boundaryServed_tick]
  exact congrArg Tick.en s.tickCounted_tick

theorem State.boundaryServed_demand (s : State) : s.boundaryServed.tick.demand = s.tick.demand := by
  rw [State.boundaryServed_tick]
  show s.tickCounted.tick.demand = _
  rw [State.tickCounted_tick]

section
variable {s : State} (idle : s.ptn.phase ≠ .armed) (due : s.ptn.commitDue = false)
include idle due

/-- The base tick that a boundary without a commit begins. -/
theorem State.boundary_tick : s.boundary.tick = s.boundaryServed.tickBegun := by
  rw [tick_of_clock (State.boundary_clock idle due), (State.tick_set _ _).2.2.2]

theorem State.boundary_now : s.boundary.now = s.now := by
  rw [now_of_clock (State.boundary_clock idle due), (State.tick_set _ _).1, State.boundaryServed_now]

theorem State.boundary_tickNo : s.boundary.tickNo = if s.tick.en then (s.tickNo + 1) % 2 ^ 64 else s.tickNo := by
  rw [tickNo_of_clock (State.boundary_clock idle due), (State.tick_set _ _).2.2.1, State.boundaryServed_tickNo]

end

end Sys2Proof.Machine

/-! # The edges of the reference (R52, R54, R55, R58, R60) -/

namespace Sys2Proof.Machine

/-! ## An accepted edge -/

theorem State.edgeAccepted_regs (s : State) (arrival : Int) : (s.edgeAccepted arrival).regs = (s.rAdd Reg.TICK_SYNC_STAT 15 0 1).regs := by
  unfold State.edgeAccepted
  dsimp only
  split
  · rfl
  · split <;> rfl

theorem State.edgeAccepted_counts (s : State) (arrival : Int) :
    (s.edgeAccepted arrival).rf Reg.TICK_SYNC_STAT 15 0 = (s.rf Reg.TICK_SYNC_STAT 15 0 + 1) % 2 ^ 16 :=
  (State.rf_of_rg (rg_of_regs (s.edgeAccepted_regs arrival) _) 15 0).trans (rf_rAdd_same s _ 15 0 1 (by decide) (by decide))

/-- The boundaries near a target depend on no register but TICK.COUNT, and not on the last edge. -/
theorem State.alignedNear_congr {s t : State} (now : t.now = s.now) (running : t.ptn.running = s.ptn.running) (tickNo : t.tickNo = s.tickNo)
    {e : Option Nat} (tick : t.tick = { s.tick with lastEdge := e }) : t.alignedNear = s.alignedNear := by
  simp only [State.alignedNear, State.tickEnd, State.ticksOn, now, running, tickNo, tick]

/-- The state in which an accepted edge is measured: it is counted, and its time kept. -/
def State.edgeCounted (s : State) (arrival : Int) : State :=
  { s.rAdd Reg.TICK_SYNC_STAT 15 0 1 with tick := { s.tick with lastEdge := some arrival.toNat } }

theorem State.edgeCounted_alignedNear (s : State) (arrival : Int) : (s.edgeCounted arrival).alignedNear = s.alignedNear := by
  have count : (s.rAdd Reg.TICK_SYNC_STAT 15 0 1).tickNo = s.tickNo :=
    State.rg64_of_rg (rg_rAdd_other s _ _ _ (by decide)) (rg_rAdd_other s _ _ _ (by decide))
  exact State.alignedNear_congr rfl rfl count rfl

/-- An edge is measured once boundary 0 is set. -/
theorem State.edgeAccepted_measures {s : State} {arrival : Int} (set : s.tick.en = true ∨ s.tick.next.isSome = true) (wait : s.tick.waitEdge = false) :
    (s.edgeAccepted arrival).tick.syncLost = false ∧ (s.edgeAccepted arrival).tick.refFrom = s.now ∧
    (s.edgeAccepted arrival).tick.demand =
      (arrival + 10 * (s.ptn.running.syncOffset : Int) - nearest (arrival + 10 * (s.ptn.running.syncOffset : Int)) s.alignedNear) / 10 := by
  have on : (s.tick.en || s.tick.next.isSome) = true := by simpa using set
  rw [← s.edgeCounted_alignedNear arrival]
  unfold State.edgeAccepted
  dsimp only
  rw [if_neg (show ¬((s.rAdd Reg.TICK_SYNC_STAT 15 0 1).tick.waitEdge = true) by rw [show (s.rAdd Reg.TICK_SYNC_STAT 15 0 1).tick = s.tick from rfl, wait]; decide),
    if_pos (show ((s.rAdd Reg.TICK_SYNC_STAT 15 0 1).tick.en || (s.rAdd Reg.TICK_SYNC_STAT 15 0 1).tick.next.isSome) = true from on)]
  exact ⟨rfl, rfl, rfl⟩

/-! ## An edge at the input -/

/-- When an edge arrived before its filter (R439). -/
def State.edgeArrival (s : State) : Int := (s.now / 10 * 10 : Nat) - 10 * (max 1 (s.rf Reg.IRQ_FILT 7 0) : Nat)

/-- Does an edge come sooner than 40 µs after the last accepted one (R54)? -/
def State.edgeSoon (s : State) : Bool :=
  match s.tick.lastEdge with
  | some l => decide (s.edgeArrival < (l : Int) + 40000)
  | none => false

theorem State.passes_iff (s : State) (cycles : Nat) : s.passes 0 cycles = true ↔ max 1 (s.rf Reg.IRQ_FILT 7 0) ≤ cycles := decide_eq_true_iff

theorem exec_syncInEdge_short {s : State} {cycles : Nat} (short : s.passes 0 cycles = false) (falling : Bool) :
    exec (.syncInEdge falling cycles) s = .next s := congrArg Host.Outcome.next (if_pos (by simp [short]))

/-- What a level held long enough does. -/
theorem exec_syncInEdge_held {s : State} {cycles : Nat} (held : s.passes 0 cycles = true) (falling : Bool) :
    exec (.syncInEdge falling cycles) s =
      .next (if s.ptn.running.syncSrc ≠ 1 ∨ s.ptn.running.syncEdge ≠ falling then s.pinLevel 0 (!falling)
        else if s.edgeSoon then (s.pinLevel 0 (!falling)).rAdd Reg.TICK_SYNC_STAT 31 16 1
        else (s.pinLevel 0 (!falling)).edgeAccepted s.edgeArrival) :=
  congrArg Host.Outcome.next (if_neg (by simp [held]))

section
variable {s : State} {cycles : Nat} {falling : Bool} (held : s.passes 0 cycles = true) (src : s.ptn.running.syncSrc = 1)
  (edge : s.ptn.running.syncEdge = falling)
include held src edge

theorem exec_syncInEdge_accepted (late : s.edgeSoon = false) :
    exec (.syncInEdge falling cycles) s = .next ((s.pinLevel 0 (!falling)).edgeAccepted s.edgeArrival) := by
  rw [exec_syncInEdge_held held, if_neg (by simp [src, edge]), if_neg (by simp [late])]

theorem exec_syncInEdge_soon (soon : s.edgeSoon = true) :
    exec (.syncInEdge falling cycles) s = .next ((s.pinLevel 0 (!falling)).rAdd Reg.TICK_SYNC_STAT 31 16 1) := by
  rw [exec_syncInEdge_held held, if_neg (by simp [src, edge]), if_pos soon]

end

theorem State.edgeSoon_of_last {s : State} {l : Nat} (last : s.tick.lastEdge = some l) : s.edgeSoon = decide (s.edgeArrival < (l : Int) + 40000) := by
  rw [State.edgeSoon, last]

theorem State.edgeSoon_false {s : State} (late : ∀ l, s.tick.lastEdge = some l → (l : Int) + 40000 ≤ s.edgeArrival) : s.edgeSoon = false := by
  cases last : s.tick.lastEdge with
  | none => rw [State.edgeSoon, last]
  | some l =>
    have far := late l last
    rw [State.edgeSoon_of_last last, decide_eq_false_iff_not]
    omega

/-- What a level of the pin shows changes no register but its own. -/
theorem State.rg_pinLevel (s : State) (high : Bool) {k : Nat} (apart : k ≠ Reg.IRQ_FILT) : (s.pinLevel 0 high).rg k = s.rg k :=
  rg_rfSet_other s _ _ _ apart

theorem State.alignedNear_pinLevel (s : State) (high : Bool) : (s.pinLevel 0 high).alignedNear = s.alignedNear :=
  State.alignedNear_congr rfl rfl (State.rg64_of_rg (s.rg_pinLevel high (by decide)) (s.rg_pinLevel high (by decide))) rfl

/-! ## A reference that is lost -/

/-- The tick logic when the reference is lost: a wait for boundary 0 ends (R58, R60). -/
def State.refLost (s : State) : State :=
  { s with tick := { s.tick with syncLost := true, waitEdge := false, next := if s.tick.waitEdge then some s.now else s.tick.next } }

theorem exec_syncLostTimeout_due {s : State} (src : s.ptn.running.syncSrc ≠ 0) (have_ : s.tick.syncLost = false)
    (on : s.tick.en = true ∨ s.tick.waitEdge = true) :
    exec .syncLostTimeout s =
      .next (((s.at (s.tick.refFrom + 20 * s.ptn.running.syncRatio * s.ptn.running.basePeriod)).refLost.evSet Reg.TICK_STATUS 4).raise 130) := by
  have busy : ¬(s.ptn.running.syncSrc = 0 ∨ s.tick.syncLost = true ∨ (!s.tick.en) = true ∧ (!s.tick.waitEdge) = true) := by
    rintro (no | lost | ⟨off, quiet⟩)
    · exact src no
    · rw [have_] at lost
      cases lost
    · rcases on with en | wait
      · rw [en] at off
        cases off
      · rw [wait] at quiet
        cases quiet
  exact congrArg Host.Outcome.next (if_neg busy)

/-- What is recorded of a reference that is lost. -/
theorem State.lostNoted (v : State) : ((v.evSet Reg.TICK_STATUS 4).raise 130).tick = v.tick ∧ ((v.evSet Reg.TICK_STATUS 4).raise 130).now = v.now ∧
    ((v.evSet Reg.TICK_STATUS 4).raise 130).rb Reg.TICK_STATUS 4 = true ∧ ((v.evSet Reg.TICK_STATUS 4).raise 130).rb (Reg.IRQ_RAW + 16) 2 = true := by
  have kept : ∀ (u : State) k i, (u.evSet k i).tick = u.tick ∧ (u.evSet k i).now = u.now := fun _ _ _ => ⟨rfl, rfl⟩
  have raw := (v.evSet Reg.TICK_STATUS 4).rb_raise_high (src := 130) (by decide)
  refine ⟨?_, ?_, ?_, raw⟩ <;> rw [State.raise_high _ 130 (by decide), State.rawSet]
  · rw [(kept _ _ _).1, (kept _ _ _).1]
  · rw [(kept _ _ _).2, (kept _ _ _).2]
  · exact (rb_evSet_other _ _ _ (by decide)).trans (rb_evSet_same v _ _ (by decide))

/-! ## The statement -/

/-- The base tick that begins, field by field. -/
theorem State.tickBegun_fields (v : State) : v.tickBegun.en = v.tick.en ∧ v.tickBegun.begun = v.now ∧
    v.tickBegun.next = some (v.now + 10 * ((v.ptn.running.basePeriod : Int) + clampEase v.tick.demand v.ptn.running.ease).toNat) ∧
    v.tickBegun.demand = v.tick.demand - clampEase v.tick.demand v.ptn.running.ease := ⟨rfl, rfl, rfl, rfl⟩

theorem exec_baseBoundary_none {s : State} (next : s.tick.next = none) (due : s.ptn.commitDue = false) : exec .baseBoundary s = .next s := by
  unfold exec execBaseBoundary
  simp [due, next]

theorem exec_baseBoundary_at {s : State} {u : Nat} (next : s.tick.next = some u) (due : s.ptn.commitDue = false) :
    exec .baseBoundary s = .next (s.at u).boundary := by
  unfold exec execBaseBoundary
  simp [due, next]

/-- Settles O28: the statements about edges are the branches of their instructions; those about a base boundary follow from what its
parts leave of the time, the tick logic and the basting. -/
theorem tickReference : Obligations.TickReference := by
  unfold Obligations.TickReference
  refine ⟨fun falling cycles s => ?_, fun s u => ⟨exec_baseBoundary_none, fun next idle due => ?_⟩⟩
  · extract_lets pat held arrival target
    refine ⟨fun short => ?_, fun long src edge => ⟨fun late => ?_, fun l last soon => ?_⟩, fun on src arg => ?_, fun long src => ?_,
      fun src lost on => ?_⟩
    · exact exec_syncInEdge_short (Bool.eq_false_iff.mpr fun long => short ((s.passes_iff cycles).mp long)) falling
    · refine ⟨_, exec_syncInEdge_accepted ((s.passes_iff cycles).mpr long) src edge (State.edgeSoon_false late),
        State.edgeAccepted_lastEdge .., ?_, fun set wait => ?_⟩
      · rw [State.edgeAccepted_counts, State.rf_of_rg (s.rg_pinLevel _ (by decide))]
      · obtain ⟨found, from_, demand⟩ := State.edgeAccepted_measures (s := s.pinLevel 0 (!falling)) (arrival := s.edgeArrival) set wait
        rw [State.alignedNear_pinLevel] at demand
        exact ⟨found, from_, demand⟩
    · have near : s.edgeSoon = true := by
        rw [State.edgeSoon_of_last last]
        exact decide_eq_true soon
      refine ⟨_, exec_syncInEdge_soon ((s.passes_iff cycles).mpr long) src edge near, rfl, ?_⟩
      rw [rf_rAdd_same _ _ _ _ _ (by decide) (by decide), State.rf_of_rg (s.rg_pinLevel _ (by decide))]
    · refine ⟨_, exec_tbTick_acted on arg, ?_⟩
      rw [if_pos src]
      exact ⟨State.edgeAccepted_lastEdge .., State.edgeAccepted_counts ..⟩
    · refine ⟨s.pinLevel 0 (!falling), ?_, onlyRegs_rbSet ..⟩
      rw [exec_syncInEdge_held ((s.passes_iff cycles).mpr long), if_pos (.inl src)]
    · refine ⟨_, exec_syncLostTimeout_due src lost on, ?_⟩
      generalize at_ : s.at (s.tick.refFrom + 20 * s.ptn.running.syncRatio * s.ptn.running.basePeriod) = v
      obtain ⟨tick, now, bit, raw⟩ := v.refLost.lostNoted
      have time : v.now = max s.now (s.tick.refFrom + 20 * s.ptn.running.syncRatio * s.ptn.running.basePeriod) := by rw [← at_]; rfl
      have was : v.tick = s.tick := by rw [← at_]; rfl
      rw [tick, now]
      refine ⟨rfl, rfl, ?_, bit, raw, fun wait => ?_⟩
      · show _ ≤ v.now
        rw [time]
        exact Nat.le_max_right ..
      · show (if v.tick.waitEdge then some v.now else v.tick.next) = _
        rw [was, if_pos wait]
        rfl
  · have idle' : (s.at u).ptn.phase ≠ .armed := idle
    have due' : (s.at u).ptn.commitDue = false := due
    have tick := State.boundary_tick idle' due'
    have now := State.boundary_now idle' due'
    have tickNo := State.boundary_tickNo idle' due'
    refine ⟨(s.at u).boundary, exec_baseBoundary_at next due, now, ?_⟩
    obtain ⟨en, begun, after, demand⟩ := (s.at u).boundaryServed.tickBegun_fields
    rw [tick, tickNo, now, en, begun, after, demand, State.boundaryServed_en, State.boundaryServed_now, State.boundaryServed_demand,
      State.boundaryServed_running]
    exact ⟨rfl, rfl, rfl, rfl, fun on => if_pos on, fun off => if_neg (by
      show ¬(s.tick.en = true)
      rw [off]
      decide)⟩

end Sys2Proof.Machine

/-! # PTN.RESULT, and what a basting leaves that is unpicked (R32, R33, R46) -/

namespace Sys2Proof.Machine

/-! ## PTN.RESULT -/

/-- The word of PTN.RESULT (Table 2.21). -/
def resultWord (code detail op : Nat) (unpicked : Bool) : Nat := code + 2 ^ 16 * detail + 2 ^ 24 * op + 2 ^ 27 * b2n unpicked

/-- PTN.RESULT is what a result writes; beside it only notes are left. -/
theorem State.ptnResult_rg (s : State) {code : Nat} (fits : code < 2 ^ 16) (detail op : Nat) (unpicked : Bool) (who : Option Func) {k : Nat}
    (out : unnotedKey k) :
    (s.ptnResult code detail op unpicked who).rg k = (s.rgSet Reg.PTN_RESULT (BitVec.ofNat 32 (resultWord code detail op unpicked))).rg k := by
  unfold State.ptnResult resultWord
  extract_lets v w x
  have noted : w.rg k = v.rg k := State.rg_rawSet v out (by decide)
  have event : x.rg k = w.rg k := by
    simp only [x]
    split
    · rfl
    · split
      · exact rg_of_regs (State.vfEvent_regs ..) k
      · rfl
    · rfl
  split
  · exact event.trans noted
  · exact (State.rg_err x out fits ..).trans (event.trans noted)

theorem State.ptnResult_notes (s : State) (code detail op : Nat) (unpicked : Bool) (who : Option Func) :
    s.notes (s.ptnResult code detail op unpicked who) := by
  unfold State.ptnResult
  extract_lets v w x
  have written : s.notes w := (s.rgSet_sameButLog _ _).notes.trans (v.rawSet_sameButLog 128).notes
  have event : w.notes x := by
    simp only [x]
    split
    · exact .refl w
    · split
      · exact w.vfEvent_notes ..
      · exact .refl w
    · exact .refl w
  split
  · exact written.trans event
  · exact written.trans (event.trans (State.err_sameButLog ..).notes)

section
variable {s t : State} (h : s.notes t)
include h

theorem State.notes.ptn : t.ptn = s.ptn := (congrArg State.ptn h :)
theorem State.notes.lin : t.lin = s.lin := (congrArg State.lin h :)
theorem State.notes.hbm : t.hbm = s.hbm := (congrArg State.hbm h :)
theorem State.notes.nor : t.nor = s.nor := (congrArg State.nor h :)

end

/-- What PTN.RESULT reads once a result is written. -/
structure State.readsResult (t : State) (code detail op : Nat) (unpicked : Bool) : Prop where
  readsCode : t.rf Reg.PTN_RESULT 15 0 = code
  readsDetail : t.rf Reg.PTN_RESULT 23 16 = detail % 2 ^ 8
  readsOp : detail < 2 ^ 8 → op < 2 ^ 3 → t.rf Reg.PTN_RESULT 26 24 = op
  readsUnpicked : detail < 2 ^ 8 → op < 2 ^ 3 → t.rb Reg.PTN_RESULT 27 = unpicked

theorem State.readsResult_of_rg {t : State} {code detail op : Nat} {unpicked : Bool} (fits : code < 2 ^ 16)
    (word : t.rg Reg.PTN_RESULT = BitVec.ofNat 32 (resultWord code detail op unpicked)) : t.readsResult code detail op unpicked := by
  have bit : b2n unpicked < 2 := by cases unpicked <;> decide
  refine ⟨?_, ?_, fun small op8 => ?_, fun small op8 => ?_⟩
  · rw [State.rf, word, BitVec.toNat_ofNat, bitsOf, resultWord]
    omega
  · rw [State.rf, word, BitVec.toNat_ofNat, bitsOf, resultWord]
    omega
  · rw [State.rf, word, BitVec.toNat_ofNat, bitsOf, resultWord]
    omega
  · have top : resultWord code detail op unpicked % 2 ^ 32 / 2 ^ 27 % 2 = b2n unpicked := by
      unfold resultWord
      omega
    rw [State.rb, word, BitVec.toNat_ofNat, bitOf, top]
    cases unpicked <;> rfl

theorem State.ptnResult_reads (s : State) {code : Nat} (fits : code < 2 ^ 16) (detail op : Nat) (unpicked : Bool) (who : Option Func) :
    (s.ptnResult code detail op unpicked who).readsResult code detail op unpicked :=
  State.readsResult_of_rg fits ((s.ptnResult_rg fits detail op unpicked who (.inl (by decide))).trans (rg_rgSet_same ..))

/-! ## A basting unpicked -/

/-- A basting that is gone. -/
structure Ptn.gone (x y : Ptn) : Prop where
  phase : y.phase = .idle
  staged : y.staged = none
  running : y.running = x.running

theorem State.unpickWith_gone (s : State) (code detail op : Nat) (who : Option Func) : s.ptn.gone (s.unpickWith code detail op who).ptn := by
  have kept := (s.ptnResult_notes code detail op true who).ptn
  refine ⟨rfl, rfl, ?_⟩
  show (s.ptnResult code detail op true who).ptn.running = _
  rw [kept]

theorem State.unpickWith_reads (s : State) {code : Nat} (fits : code < 2 ^ 16) (detail op : Nat) (who : Option Func) :
    (s.unpickWith code detail op who).readsResult code detail op true := by
  obtain ⟨code', detail', op', bit⟩ := s.ptnResult_reads fits detail op true who
  exact ⟨code', detail', op', bit⟩

theorem State.unpickWith_lin (s : State) (code detail op : Nat) (who : Option Func) : (s.unpickWith code detail op who).lin = s.lin :=
  (s.ptnResult_notes code detail op true who).lin

end Sys2Proof.Machine

/-! # What the bytes of a load, validation and the timer leave (R30 to R33, R37, R45, R446) -/

namespace Sys2Proof.Machine

/-! ## The end of a load -/

/-- The load has ended. -/
def State.loadOver (s : State) : State := { s with ptn := { s.ptn with loading := false } }

/-- The load has ended and was not refused. -/
def State.loadTaken (s : State) : State := { s with ptn := { s.ptn with loading := false, loaded := true } }

/-- The image of the load is merged into the staged copy (R26). -/
def State.loadMerged (s : State) (x : ImageIn) : State :=
  { s with ptn := { s.ptn with
      loading := false, loaded := true, staged := s.ptn.staged.map (·.merge x)
      freshSecs := x.sections.map sectKey ++ s.ptn.freshSecs } }

/-- Is the load the first one of the first basting (R45)? -/
def State.firstLoad (s : State) : Bool := !s.ptn.committed && !s.ptn.loaded

theorem State.loadTake_fails {s : State} {code : Nat} (bad : code ≠ 0) (bs : List Byte) :
    s.loadTake code bs = s.loadOver.unpickWith eUncorr 0 2 none := if_pos bad

/-- The branches of a load whose bytes were read and hold an image. -/
theorem State.loadTake_image {s : State} {bs : List Byte} {x : ImageIn} (parsed : parseLoad bs = .image x) :
    s.loadTake 0 bs = match refusal [(!s.scopeOk x, 0x24), (s.firstLoad && !imageFull x, 0x25)] with
      | some d => s.loadOver.refuse d 2 none
      | none =>
        if s.headerBad x then s.loadTaken.unpickWith ePtnInvalid 1 2 none
        else if imageSectionBad x then s.loadTaken.unpickWith ePtnInvalid 2 2 none
        else if !(s.imageSigs x).1 then s.loadTaken.unpickWith ePtnSig 0x10 2 none
        else if !(s.imageSigs x).2 then s.loadTaken.unpickWith ePtnSig 0x11 2 none
        else (s.loadMerged x).ptnResult 0 0 2 false none := by
  unfold State.loadTake
  rw [parsed]
  rfl

/-- The branches of a load whose bytes were read and hold a token. -/
theorem State.loadTake_token {s : State} {bs : List Byte} {k : TokenIn} (parsed : parseLoad bs = .token k) :
    s.loadTake 0 bs = if s.firstLoad then s.loadOver.refuse 0x25 2 none else s.loadTaken.loadToken k := by
  unfold State.loadTake
  rw [parsed]
  rfl

theorem refusal_none {a b : Bool} {i j : Nat} (ha : a = false) (hb : b = false) : refusal [(a, i), (b, j)] = none := by rw [ha, hb]; rfl

/-- The branches of a load whose image is not refused. -/
theorem State.loadTake_allowed {s : State} {bs : List Byte} {x : ImageIn} (parsed : parseLoad bs = .image x) (scope : s.scopeOk x = true)
    (full : s.firstLoad = true → imageFull x = true) :
    s.loadTake 0 bs = if s.headerBad x then s.loadTaken.unpickWith ePtnInvalid 1 2 none
      else if imageSectionBad x then s.loadTaken.unpickWith ePtnInvalid 2 2 none
      else if !(s.imageSigs x).1 then s.loadTaken.unpickWith ePtnSig 0x10 2 none
      else if !(s.imageSigs x).2 then s.loadTaken.unpickWith ePtnSig 0x11 2 none
      else (s.loadMerged x).ptnResult 0 0 2 false none := by
  have whole : (s.firstLoad && !imageFull x) = false := by
    cases first : s.firstLoad with
    | false => rfl
    | true => rw [full first]; rfl
  rw [State.loadTake_image parsed, refusal_none (by rw [scope]; rfl) whole]

/-! ## What a load leaves of the lining -/

theorem State.ptnResult_lin (s : State) (code detail op : Nat) (unpicked : Bool) (who : Option Func) :
    (s.ptnResult code detail op unpicked who).lin = s.lin := (s.ptnResult_notes ..).lin

theorem State.escResult_notes (s : State) (detail : Nat) : s.notes (s.escResult detail) :=
  (s.rfSet_notes _ _ _ _).trans (State.evSet_sameButLog _ _ _).notes

theorem State.loadToken_lin (s : State) (k : TokenIn) : (s.loadToken k).lin = s.lin := by
  have shown := (s.escResult_notes (s.tokenDetail k 1 s.ptn.loadLen)).lin
  unfold State.loadToken
  dsimp only
  split
  · rw [State.ptnResult_lin, shown]
  · split
    · rw [State.unpickWith_lin, shown]
    · split <;> rw [State.unpickWith_lin, shown]

theorem State.loadTake_lin (s : State) (code : Nat) (bs : List Byte) : (s.loadTake code bs).lin = s.lin := by
  by_cases bad : code = 0
  · subst bad
    cases parsed : parseLoad bs with
    | token k =>
      rw [State.loadTake_token parsed]
      split
      · exact State.ptnResult_lin ..
      · exact State.loadToken_lin ..
    | image x =>
      rw [State.loadTake_image parsed]
      split
      · exact State.ptnResult_lin ..
      · split
        · exact State.unpickWith_lin ..
        · split
          · exact State.unpickWith_lin ..
          · split
            · exact State.unpickWith_lin ..
            · split
              · exact State.unpickWith_lin ..
              · exact State.ptnResult_lin ..
  · rw [State.loadTake_fails bad]
    exact State.unpickWith_lin ..

theorem exec_loadDone {s : State} (ecc : Ecc) (loading : s.ptn.loading = true)
    (free : (s.calmed.loadRead ecc).2.2.lin.stuck = none) :
    exec (.loadDone ecc) s = .next ((s.calmed.loadRead ecc).2.2.loadTake (s.calmed.loadRead ecc).1 (s.calmed.loadRead ecc).2.1).farUsed := by
  have run : exec (.loadDone ecc) s = .next (s.together (fun s => (s.loadRead ecc).2.2.loadTake (s.loadRead ecc).1 (s.loadRead ecc).2.1)) := by
    have body : (fun u : State => let (c, bs, v) := u.loadRead ecc; v.loadTake c bs) =
        fun u => (u.loadRead ecc).2.2.loadTake (u.loadRead ecc).1 (u.loadRead ecc).2.1 := by
      funext u
      generalize u.loadRead ecc = r
      rfl
    show execLoadDone ecc s = _
    unfold execLoadDone
    rw [if_neg (by rw [loading]; decide), body]
  rw [run, State.together_does rfl (by rw [State.loadTake_lin]; exact free)]

/-! ## What a load leaves of the basting -/

/-- A basting that is lost, with its result. -/
theorem State.unpickWith_lost (s : State) {code detail op : Nat} (fits : code < 2 ^ 16) (small : detail < 2 ^ 8) (op8 : op < 2 ^ 3)
    (who : Option Func) :
    (s.unpickWith code detail op who).ptn.phase = .idle ∧ (s.unpickWith code detail op who).ptn.staged = none ∧
    (s.unpickWith code detail op who).ptn.running = s.ptn.running ∧ (s.unpickWith code detail op who).rf Reg.PTN_RESULT 15 0 = code ∧
    (s.unpickWith code detail op who).rf Reg.PTN_RESULT 23 16 = detail ∧ (s.unpickWith code detail op who).rb Reg.PTN_RESULT 27 = true := by
  obtain ⟨phase, staged, running⟩ := s.unpickWith_gone code detail op who
  have reads := s.unpickWith_reads fits detail op who
  exact ⟨phase, staged, running, reads.readsCode, reads.readsDetail.trans (Nat.mod_eq_of_lt small), reads.readsUnpicked small op8⟩

section
variable {s : State} {bs : List Byte} {x : ImageIn} (parsed : parseLoad bs = .image x) (scope : s.scopeOk x = true)
  (full : s.firstLoad = true → imageFull x = true)
include parsed scope full

theorem State.loadTake_header (bad : s.headerBad x = true) : s.loadTake 0 bs = s.loadTaken.unpickWith ePtnInvalid 1 2 none := by
  rw [State.loadTake_allowed parsed scope full, if_pos bad]

theorem State.loadTake_section (header : s.headerBad x = false) (bad : imageSectionBad x = true) :
    s.loadTake 0 bs = s.loadTaken.unpickWith ePtnInvalid 2 2 none := by
  rw [State.loadTake_allowed parsed scope full, header, if_neg Bool.false_ne_true, if_pos bad]

/-- The signatures of an image whose header and sections are right. -/
theorem State.loadTake_sigs (header : s.headerBad x = false) (good : imageSectionBad x = false) :
    s.loadTake 0 bs = if !(s.imageSigs x).1 then s.loadTaken.unpickWith ePtnSig 0x10 2 none
      else if !(s.imageSigs x).2 then s.loadTaken.unpickWith ePtnSig 0x11 2 none
      else (s.loadMerged x).ptnResult 0 0 2 false none := by
  rw [State.loadTake_allowed parsed scope full, header, if_neg Bool.false_ne_true, good, if_neg Bool.false_ne_true]

end

/-- A token staged by a load. -/
def State.tokenStaged (s : State) (k : TokenIn) : State := { s with ptn := { s.ptn with token := some k } }

theorem State.tokenStaged_kept (s : State) (k : TokenIn) : (s.tokenStaged k).ptn = { s.ptn with token := some k } ∧
    (s.tokenStaged k).nor = s.nor ∧ ∀ j, (s.tokenStaged k).rg j = s.rg j := ⟨rfl, rfl, fun _ => rfl⟩

theorem State.escResult_done (s : State) (detail : Nat) : (s.escResult detail).rb Reg.ESC_RESULT 24 = true := by
  rw [State.escResult]
  exact rb_evSet_same _ _ _ (by decide)

/-- A result of the PTN block leaves that of the escutcheon. -/
theorem State.ptnResult_done (s : State) (op : Nat) (who : Option Func) :
    (s.ptnResult 0 0 op false who).rb Reg.ESC_RESULT 24 = s.rb Reg.ESC_RESULT 24 := by
  have read := s.ptnResult_rg (code := 0) (by decide) 0 op false who (k := Reg.ESC_RESULT) (.inl (by decide))
  rw [rg_rgSet_other _ _ (by decide)] at read
  exact State.rb_of_rg read 24

theorem State.loadToken_passes {s : State} {k : TokenIn} (passes : s.tokenDetail k 1 s.ptn.loadLen = 0) :
    s.loadToken k = ((s.escResult 0).tokenStaged k).ptnResult 0 0 2 false none := by
  unfold State.loadToken
  dsimp only
  rw [passes, if_pos rfl]
  rfl

/-- A token whose checks pass is staged, and the basting is as it was. -/
theorem State.loadToken_staged {s : State} {k : TokenIn} (passes : s.tokenDetail k 1 s.ptn.loadLen = 0) :
    (s.loadToken k).ptn = { s.ptn with token := some k } ∧ (s.loadToken k).nor = s.nor ∧ (s.loadToken k).rb Reg.ESC_RESULT 24 = true := by
  have shown := s.escResult_notes 0
  obtain ⟨ptn, nor, regs⟩ := (s.escResult 0).tokenStaged_kept k
  rw [State.loadToken_passes passes, (State.ptnResult_notes ..).ptn, (State.ptnResult_notes ..).nor, State.ptnResult_done, ptn, nor,
    State.rb_of_rg (regs _), shown.ptn, shown.nor, State.escResult_done]
  exact ⟨rfl, rfl, rfl⟩

end Sys2Proof.Machine

/-! # Validation, the timer, and a commit that is not made (R30 to R33, R37, R42, R45, R446) -/

namespace Sys2Proof.Machine

theorem State.notes.regsFree {s t : State} (h : s.notes t) : t.groups = s.groups ∧ t.lin = s.lin ∧ t.hbm = s.hbm ∧ t.ptn = s.ptn :=
  ⟨h.groups, h.lin, h.hbm, h.ptn⟩

/-! ## Validation -/

/-- The branches of a validation that ends. -/
theorem exec_validationDone {s : State} {y : Pat} (phase : s.ptn.phase = .sewing) (staged : s.ptn.staged = some y) :
    exec .validationDone s = .next (if s.validate y ≠ 0 then s.unpickWith ePtnInvalid (s.validate y) 3 none
      else if s.needsToken s.ptn.running y && !s.tokenCarries y then s.unpickWith ePtnQuorum 0 3 none
      else ({ s with ptn := { s.ptn with phase := .armed, commitDue := !s.tick.en } } : State).ptnResult 0 0 3 false none) := by
  show execValidationDone s = _
  unfold execValidationDone
  rw [phase, staged]

/-- A sew that is armed. -/
def State.sewArmed (s : State) : State := { s with ptn := { s.ptn with phase := .armed, commitDue := !s.tick.en } }

section
variable {s : State} {y : Pat} (phase : s.ptn.phase = .sewing) (staged : s.ptn.staged = some y)
include phase staged

theorem exec_validationDone_passes (valid : s.validate y = 0) (carried : s.needsToken s.ptn.running y = false ∨ s.tokenCarries y = true) :
    exec .validationDone s = .next (s.sewArmed.ptnResult 0 0 3 false none) := by
  have enough : (s.needsToken s.ptn.running y && !s.tokenCarries y) = false := by
    rcases carried with no | yes
    · rw [no]; rfl
    · rw [yes, Bool.not_true, Bool.and_false]
  rw [exec_validationDone phase staged, if_neg (by simp [valid]), enough, if_neg Bool.false_ne_true]
  rfl

theorem exec_validationDone_invalid (bad : s.validate y ≠ 0) :
    exec .validationDone s = .next (s.unpickWith ePtnInvalid (s.validate y) 3 none) := by
  rw [exec_validationDone phase staged, if_pos bad]

theorem exec_validationDone_quorum (valid : s.validate y = 0) (needs : s.needsToken s.ptn.running y = true) (lacks : s.tokenCarries y = false) :
    exec .validationDone s = .next (s.unpickWith ePtnQuorum 0 3 none) := by
  rw [exec_validationDone phase staged, if_neg (by simp [valid]), needs, lacks, if_pos (by rfl)]

end

theorem exec_bastingTimeout_opened {s : State} (phase : s.ptn.phase = .opened) :
    exec .bastingTimeout s = .next ((s.at s.ptn.deadline).unpickWith ePtnTimeout 0 0 none) := by
  show execBastingTimeout s = _
  unfold execBastingTimeout
  rw [if_pos phase]

theorem State.unpickWith_now (s : State) (code detail op : Nat) (who : Option Func) : (s.unpickWith code detail op who).now = s.now :=
  (congrArg Desk.now (s.ptnResult_desk code detail op true who) :)

/-! ## A commit that is not made -/

theorem exec_commit_due {s : State} (phase : s.ptn.phase = .armed) (due : s.ptn.commitDue = true) : exec .commit s = .next s.doCommit := by
  show execCommit s = _
  unfold execCommit
  rw [if_pos ⟨phase, due⟩]

/-- The detail with which a commit is refused; 0 where it is made. -/
def State.commitDetail (s : State) (y : Pat) : Nat := if s.lostNow y then dLost else if s.ptn.recheck then s.validate y else 0

/-- A commit before READY that is refused. -/
theorem State.doCommit_refused {s : State} {y : Pat} (staged : s.ptn.staged = some y) (bad : s.commitDetail y ≠ 0) (off : s.tick.en = false) :
    s.doCommit = s.unpickWith ePtnInvalid (s.commitDetail y) 3 none := by
  have still : (s.unpickWith ePtnInvalid (s.commitDetail y) 3 none).tick.en = false := by
    have kept : (s.unpickWith ePtnInvalid (s.commitDetail y) 3 none).tick = s.tick := (congrArg Desk.tick (s.ptnResult_desk ..) :)
    rw [kept, off]
  unfold State.doCommit
  rw [staged]
  dsimp only
  rw [← State.commitDetail, if_pos bad, still, if_neg Bool.false_ne_true]

/-- What an unpicked sew leaves, whatever its detail. -/
theorem State.unpickWith_invalid (s : State) (detail op : Nat) (who : Option Func) :
    (s.unpickWith ePtnInvalid detail op who).ptn.phase = .idle ∧ (s.unpickWith ePtnInvalid detail op who).ptn.staged = none ∧
    (s.unpickWith ePtnInvalid detail op who).ptn.running = s.ptn.running ∧
    (s.unpickWith ePtnInvalid detail op who).rf Reg.PTN_RESULT 15 0 = ePtnInvalid ∧
    (s.unpickWith ePtnInvalid detail op who).rf Reg.PTN_RESULT 23 16 = detail % 256 := by
  obtain ⟨phase, staged, running⟩ := s.unpickWith_gone ePtnInvalid detail op who
  have reads := s.unpickWith_reads (code := ePtnInvalid) (by decide) detail op who
  exact ⟨phase, staged, running, reads.readsCode, reads.readsDetail⟩

end Sys2Proof.Machine

/-! # What the parts of a commit leave alone (R43, R235, R269, R337, R395) -/

namespace Sys2Proof.Machine

/-! ## The desk -/

section
variable {s t : State} (h : t.ledger.desk = s.ledger.desk)
include h

/-- A register of the desk. -/
theorem rg_of_desk {k : Nat} (mine : ofDesk k = true) : t.rg k = s.rg k := by
  have same : deskView (ledgerView t.regs) k = deskView (ledgerView s.regs) k := congrFun (congrArg Desk.regs h) k
  unfold deskView ledgerView regView at same
  have ledger : (ofCount k || ofBook k || ofSteps k) = true := by rw [← ofDesk, mine]; rfl
  rwa [if_pos mine, if_pos mine, if_pos ledger, if_pos ledger] at same

theorem running_of_desk : t.ptn.running = s.ptn.running := congrArg Desk.running h
theorem tick_of_desk : t.tick = s.tick := congrArg Desk.tick h

end

@[simp] theorem State.commitOut_desk (s : State) (old new : Pat) : (s.commitOut old new).ledger.desk = s.ledger.desk := by
  unfold State.commitOut
  extract_lets both v w
  have kept : ∀ (u : State) p, (if interleaveMoves old new p then ((u.strandLines p).dropLines p).hbmUndefined (u.interleave p)
      else if homesMove old new p then u.rehomeLines p else u).ledger.desk = u.ledger.desk := fun u p => by
    split
    · simp
    · split <;> simp
  have moved : w.ledger.desk = v.ledger.desk := foldl_desk _ kept both v
  rw [foldl_desk _ (fun u p => u.scrubPart_desk p), moved, State.relayOut_desk]

@[simp] theorem State.commitMemory_desk (s : State) (old new : Pat) : (s.commitMemory old new).ledger.desk = s.ledger.desk := by
  unfold State.commitMemory
  extract_lets gone before v moved both w x y z a b
  have mapped : w.ledger.desk = s.ledger.desk := by simp [w, v]
  have laid : y.ledger.desk = w.ledger.desk := by
    simp only [y, x, State.relayClear_desk]
    split
    · exact State.hbmUndefined_desk ..
    · rfl
  have pinned : z.ledger.desk = y.ledger.desk := by
    simp only [z]
    split
    · split
      · rfl
      · exact State.pinCancel_desk _
    · rfl
  have keyed : b.ledger.desk = z.ledger.desk := by simp [b, a]
  have homes : ∀ (u : State) p, (if new.enabled p && (!old.enabled p || hashMoves old new p) then
      u.partMap p (fun x => { x with hashGen := x.hashGen + 1 }) else u).ledger.desk = u.ledger.desk := fun u p => by split <;> simp
  rw [foldl_desk _ homes, State.turnoverDone_desk, keyed, pinned, laid, mapped]

/-- A logical core whose owner or physical core changes, or whose scheduler does (R20, R124, R171). -/
def State.commitCore (u : State) (old new : Pat) (c : Nat) : State :=
  if old.coreOwner c ≠ new.coreOwner c ∨ old.physCore c ≠ new.physCore c then
    let n := (u.core c).proofQ.length
    let u := match old.coreOwner c with
      | some p => (u.dropTaken c (some p)).proofDropped p n
      | none => u
    (({ u with groups := mclear u.groups (gix c 0) 64 }).coreMap c (fun x => { x with proofQ := [] })).coreClear c
  else if bitOf (old.coreSet c) 0 ≠ bitOf (new.coreSet c) 0 then u.coreMap c (fun x => { x with activeSet := [] })
  else u

@[simp] theorem State.commitCore_desk (u : State) (old new : Pat) (c : Nat) : (u.commitCore old new c).ledger.desk = u.ledger.desk := by
  unfold State.commitCore
  split
  · extract_lets n v
    have dropped : v.ledger.desk = u.ledger.desk := by
      simp only [v]
      split <;> simp
    simp [dropped]
  · split <;> simp

@[simp] theorem State.commitUnits_desk (s : State) (old new : Pat) : (s.commitUnits old new).ledger.desk = s.ledger.desk := by
  unfold State.commitUnits
  extract_lets v w x y
  have moved : v.ledger.desk = s.ledger.desk := State.coresMove_desk _ _
  have cores : w.ledger.desk = v.ledger.desk := foldl_desk (fun u c => u.commitCore old new c) (fun u c => u.commitCore_desk old new c) _ v
  have chan : ∀ (u : State) c, (if old.chanOwner c ≠ new.chanOwner c then u.jigClear c else u).ledger.desk = u.ledger.desk := fun u c => by
    split <;> simp
  have chans : x.ledger.desk = w.ledger.desk := foldl_desk _ chan _ w
  have fit : ∀ (u : State) f, (if old.fitPlace f = new.fitPlace f then u else u.fitClear f ((new.fitPlace f).map (·.1))).ledger.desk =
      u.ledger.desk := fun u f => by split <;> simp
  have fits : y.ledger.desk = x.ledger.desk := foldl_desk _ fit _ x
  split
  · rw [fits, chans, cores, moved]
  · rw [State.regRestart_desk, fits, chans, cores, moved]

@[simp] theorem State.firstSteps_clock (s : State) (aff : List Nat) : (s.firstSteps aff).ledger.desk.clock = s.ledger.desk.clock := by
  simp [State.firstSteps]

end Sys2Proof.Machine

/-! # The book of a commit: epochs, the tick of the commit, the sews (R42, R43, R45) -/

namespace Sys2Proof.Machine

theorem ofDesk_epoch {p : Nat} (p16 : p < 16) : ofDesk (Reg.PTN_EPOCH + 4 * p) = true := by
  simp only [ofDesk, ofBook, Bool.or_eq_true, decide_eq_true_eq, Reg.PTN_EPOCH]
  omega

/-- From `s` to `t` neither the running pattern, nor whether ticks run, nor a register of the desk has changed. -/
structure State.bookAlike (s t : State) : Prop where
  running : t.ptn.running = s.ptn.running
  en : t.tick.en = s.tick.en
  rg : ∀ k, ofDesk k = true → t.rg k = s.rg k

namespace State.bookAlike

theorem trans {s t u : State} (a : s.bookAlike t) (b : t.bookAlike u) : s.bookAlike u :=
  ⟨b.running.trans a.running, b.en.trans a.en, fun k mine => (b.rg k mine).trans (a.rg k mine)⟩

section
variable {s t : State} (h : s.bookAlike t)
include h

theorem tickNo : t.tickNo = s.tickNo := State.rg64_of_rg (h.rg _ (by decide)) (h.rg _ (by decide))

theorem sews : t.rf Reg.PTN_SEWCOUNT 31 0 = s.rf Reg.PTN_SEWCOUNT 31 0 := State.rf_of_rg (h.rg _ (by decide)) 31 0

theorem epoch {p : Nat} (p16 : p < 16) : t.epoch p = s.epoch p := State.rf_of_rg (h.rg _ (ofDesk_epoch p16)) 15 0

end

end State.bookAlike

theorem State.bookAlike_of_desk {s t : State} (h : t.ledger.desk = s.ledger.desk) : s.bookAlike t :=
  ⟨running_of_desk h, congrArg Tick.en (tick_of_desk h), fun _ mine => rg_of_desk h mine⟩

/-! ## Epochs -/

/-- A partition that a commit affects (R43, R359, R399). -/
def State.commitPart (s : State) (p : Nat) : State :=
  (((s.rAdd (Reg.PTN_EPOCH + 4 * p) 15 0 1).moveRequests p).partMap p (fun x => { x with stopped := false })).rbSet Reg.PWR_STOPPED p false

theorem State.commitPart_desk (s : State) (p : Nat) : (s.commitPart p).ledger.desk = (s.rAdd (Reg.PTN_EPOCH + 4 * p) 15 0 1).ledger.desk := by
  simp +decide [State.commitPart]

/-- A register of the desk but for the partition's EPOCH. -/
theorem State.rg_commitPart (s : State) (p : Nat) {k : Nat} (mine : ofDesk k = true) (apart : k ≠ Reg.PTN_EPOCH + 4 * p) :
    (s.commitPart p).rg k = s.rg k :=
  (rg_of_desk (s.commitPart_desk p) mine).trans (rg_rAdd_other s _ _ _ apart)

theorem State.epoch_commitPart_same (s : State) {p : Nat} (p16 : p < 16) : (s.commitPart p).epoch p = (s.epoch p + 1) % 2 ^ 16 :=
  (State.rf_of_rg (rg_of_desk (s.commitPart_desk p) (ofDesk_epoch p16)) 15 0).trans (rf_rAdd_same s _ 15 0 1 (by decide) (by decide))

theorem State.epoch_commitPart_other (s : State) {p q : Nat} (q16 : q < 16) (apart : q ≠ p) : (s.commitPart p).epoch q = s.epoch q :=
  State.rf_of_rg (s.rg_commitPart p (ofDesk_epoch q16) (by omega)) 15 0

/-- The epochs of the partitions that a commit affects are counted, each once. -/
theorem epoch_foldl_commitPart (aff : List Nat) (once : aff.Nodup) (low : ∀ p ∈ aff, p < 16) (s : State) {q : Nat} (q16 : q < 16) :
    (aff.foldl State.commitPart s).epoch q = if q ∈ aff then (s.epoch q + 1) % 2 ^ 16 else s.epoch q := by
  induction aff generalizing s with
  | nil => simp
  | cons p aff ih =>
    obtain ⟨fresh, once⟩ := List.nodup_cons.mp once
    rw [List.foldl_cons, ih once (fun r mem => low r (List.mem_cons_of_mem _ mem))]
    by_cases here : q = p
    · subst here
      rw [if_neg fresh, if_pos List.mem_cons_self, State.epoch_commitPart_same s q16]
    · simp only [List.mem_cons, here, false_or, State.epoch_commitPart_other s q16 here]

/-- The EPOCH registers among those of the desk. -/
def ofEpochs (k : Nat) : Bool := decide (0x20040 ≤ k ∧ k < 0x20080)

theorem rg_foldl_commitPart (aff : List Nat) (low : ∀ p ∈ aff, p < 16) (s : State) {k : Nat} (mine : ofDesk k = true)
    (apart : ofEpochs k = false) : (aff.foldl State.commitPart s).rg k = s.rg k := by
  refine List.foldlRecOn aff State.commitPart (motive := fun u => u.rg k = s.rg k) rfl fun u same p mem => ?_
  have p16 := low p mem
  simp only [ofEpochs, decide_eq_false_iff_not] at apart
  exact (u.rg_commitPart p mine (by unfold Reg.PTN_EPOCH; omega)).trans same

theorem State.commitParts_eq (s : State) (aff : List Nat) : s.commitParts aff = aff.foldl State.commitPart s := rfl

theorem affectedParts_nodup (old new : Pat) : (affectedParts old new).Nodup := List.nodup_range.filter _

theorem lt_of_mem_affectedParts {old new : Pat} {p : Nat} (mem : p ∈ affectedParts old new) : p < 16 :=
  List.mem_range.mp (List.mem_filter.mp mem).1

theorem State.commitParts_running (s : State) (aff : List Nat) :
    (s.commitParts aff).ptn.running = s.ptn.running ∧ (s.commitParts aff).tick = s.tick := by
  rw [State.commitParts_eq]
  refine List.foldlRecOn aff State.commitPart (motive := fun u => u.ptn.running = s.ptn.running ∧ u.tick = s.tick) ⟨rfl, rfl⟩
    fun u ⟨running, tick⟩ p _ => ?_
  exact ⟨(running_of_desk (u.commitPart_desk p)).trans running, (tick_of_desk (u.commitPart_desk p)).trans tick⟩

end Sys2Proof.Machine

/-! # A commit that is made (R26, R42, R43, R45) -/

namespace Sys2Proof.Machine

/-! ## The tick logic -/

theorem State.beginTick_bookAlike (s : State) : s.bookAlike s.beginTick := by
  have ticks : s.bookAlike ({ s with tick := s.tickBegun } : State) := ⟨rfl, s.tickBegun_fields.1, fun _ _ => rfl⟩
  exact ticks.trans (State.bookAlike_of_desk s.beginTick_desk)

/-- The reference after a commit (R58, R60). -/
def State.refCommitted (s : State) (old new : Pat) : State :=
  { s with tick := { s.tick with
      syncLost := s.tick.syncLost && new.syncSrc != 0
      refFrom := if new.syncSrc ≠ old.syncSrc then s.now else s.tick.refFrom } }

theorem State.refCommitted_bookAlike (s : State) (old new : Pat) : s.bookAlike (s.refCommitted old new) := ⟨rfl, rfl, fun _ _ => rfl⟩

theorem State.commitTick_bookAlike (s : State) (old new : Pat) : s.bookAlike (s.commitTick old new) := by
  have each : ∀ (u : State) p, (if sameSec old new 8 p && old.enabled p then u
      else u.partMap p (fun x => { x with cutCopy := true })).ledger.desk = u.ledger.desk := fun u p => by split <;> simp
  have copies := s.refCommitted_bookAlike old new |>.trans (State.bookAlike_of_desk (foldl_desk _ each new.enabledParts (s.refCommitted old new)))
  unfold State.commitTick
  extract_lets src t v w
  have reached : s.bookAlike w := copies
  split
  · exact reached.trans w.beginTick_bookAlike
  · exact reached

/-! ## The registers of a sew -/

/-- COMMIT_TICK, SEWCOUNT, ACTIVE_ID and AFFECTED of a sew (Table 2.21). -/
def State.sewBooked (s : State) (id mask : Nat) : State :=
  (((s.rg64Set Reg.PTN_COMMIT_TICK (if s.tick.en then s.tickNo else 0)).rAdd Reg.PTN_SEWCOUNT 31 0 1).rg64Set Reg.PTN_ACTIVE_ID id).rfSet
    Reg.PTN_AFFECTED 15 0 mask

/-- The registers that a sew writes. -/
def ofSew (k : Nat) : Bool := decide (0x20028 ≤ k ∧ k < 0x20040)

theorem State.rg_sewBooked (s : State) (id mask : Nat) {k : Nat} (apart : ofSew k = false) : (s.sewBooked id mask).rg k = s.rg k := by
  have ne : ∀ j, ofSew j = true → k ≠ j := fun j mine e => by
    rw [e, mine] at apart
    cases apart
  unfold State.sewBooked
  rw [rg_rfSet_other _ _ _ _ (ne _ (by decide)), rg_rg64Set_other _ _ (ne _ (by decide)) (ne _ (by decide)),
    rg_rAdd_other _ _ _ _ (ne _ (by decide)), rg_rg64Set_other _ _ (ne _ (by decide)) (ne _ (by decide))]

theorem State.sewBooked_sews (s : State) (id mask : Nat) :
    (s.sewBooked id mask).rf Reg.PTN_SEWCOUNT 31 0 = (s.rf Reg.PTN_SEWCOUNT 31 0 + 1) % 2 ^ 32 := by
  unfold State.sewBooked
  rw [rf_rfSet_other _ _ _ _ _ _ (by decide), State.rf_of_rg (rg_rg64Set_other _ _ (by decide) (by decide)),
    rf_rAdd_same _ _ _ _ _ (by decide) (by decide), State.rf_of_rg (rg_rg64Set_other _ _ (by decide) (by decide))]

theorem State.sewBooked_id (s : State) (id mask : Nat) : (s.sewBooked id mask).rg64 Reg.PTN_ACTIVE_ID = id % 2 ^ 64 := by
  unfold State.sewBooked
  rw [State.rg64_of_rg (rg_rfSet_other _ _ _ _ (by decide)) (rg_rfSet_other _ _ _ _ (by decide)), rg64_rg64Set_same]

theorem State.sewBooked_tick (s : State) (id mask : Nat) :
    (s.sewBooked id mask).rg64 Reg.PTN_COMMIT_TICK = if s.tick.en then s.tickNo else 0 := by
  have low : (if s.tick.en then s.tickNo else 0) < 2 ^ 64 := by
    split
    · exact s.tickNo_lt
    · decide
  unfold State.sewBooked
  rw [State.rg64_of_rg (rg_rfSet_other _ _ _ _ (by decide)) (rg_rfSet_other _ _ _ _ (by decide)),
    State.rg64_of_rg (rg_rg64Set_other _ _ (by decide) (by decide)) (rg_rg64Set_other _ _ (by decide) (by decide)),
    State.rg64_of_rg (rg_rAdd_other _ _ _ _ (by decide)) (rg_rAdd_other _ _ _ _ (by decide)), rg64_rg64Set_same, Nat.mod_eq_of_lt low]

/-! ## The end of the basting -/

/-- What ends a basting that is sewn. -/
def State.sewEnds (s : State) (new : Pat) : State :=
  let s := { s with ptn := { s.ptn with committed := true } }.dropBasting
  { s with esc := { s.esc with debug := if s.esc.debug = 1 ∧ new.maxLevel < 1 then 0 else s.esc.debug } }

/-- The first commit ends bring-up (R459). -/
def State.firstSewn (s : State) : State :=
  let again := s.rf Reg.BRUP_STATUS 3 0 == 6 && s.rf Reg.BRUP_STATUS 5 4 == 1
  ((if again then s else (s.rfSet Reg.BRUP_STATUS 3 0 7).rfSet Reg.BRUP_STATUS 5 4 2).evSet Reg.BRUP_EVT 0).raise 150

/-- The state in which the registers of a sew are written. -/
def State.sewResult (s : State) (old new : Pat) : State :=
  (match s.ptn.token with
    | some k => if s.needsToken old new then s.tokUsed k.seq else s
    | none => s).ptnResult 0 0 3 false none

theorem State.commitBook_eq (s : State) (old new : Pat) (aff : List Nat) :
    s.commitBook old new aff =
      (let v := (s.sewResult old new).sewBooked new.id ((aff.map (2 ^ ·)).sum)
       if v.ptn.committed then v.sewEnds new else (v.sewEnds new).firstSewn) := by
  unfold State.commitBook
  simp only [Bool.not_not]
  rfl

end Sys2Proof.Machine

/-! # What a commit leaves (R26, R42, R43, R45) -/

namespace Sys2Proof.Machine

/-! ## The book -/

theorem State.sewResult_desk (s : State) (old new : Pat) : (s.sewResult old new).ledger.desk = s.ledger.desk := by
  unfold State.sewResult
  rw [State.ptnResult_desk]
  split
  · split <;> simp
  · rfl

theorem State.sewResult_reads (s : State) (old new : Pat) : (s.sewResult old new).rf Reg.PTN_RESULT 15 0 = 0 :=
  (State.ptnResult_reads _ (by decide) 0 3 false none).readsCode

/-- The registers of the PTN block. -/
def ofPtn (k : Nat) : Prop := 0x20000 ≤ k ∧ k < 0x20100

theorem State.firstSewn_rg (s : State) {k : Nat} (mine : ofPtn k) : s.firstSewn.rg k = s.rg k := by
  obtain ⟨low, high⟩ := mine
  have status : k ≠ Reg.BRUP_STATUS := fun e => absurd (e ▸ low) (by decide)
  have evt : k ≠ Reg.BRUP_EVT := fun e => absurd (e ▸ low) (by decide)
  unfold State.firstSewn
  extract_lets again
  rw [State.rg_raise _ (.inl (Nat.lt_of_lt_of_le high (by decide))) (by decide), rg_evSet_other _ _ evt]
  split
  · rfl
  · rw [rg_rfSet_other _ _ _ _ status, rg_rfSet_other _ _ _ _ status]

theorem State.firstSewn_desk (s : State) : s.firstSewn.ledger.desk = s.ledger.desk := by
  have status : ∀ (u : State) hi lo v, (u.rfSet Reg.BRUP_STATUS hi lo v).ledger.desk = u.ledger.desk := fun u hi lo v =>
    u.rfSet_desk hi lo v (offDesk_of_lt (by decide))
  have evt : ∀ u : State, (u.evSet Reg.BRUP_EVT 0).ledger.desk = u.ledger.desk := fun u => u.evSet_desk 0 (offDesk_of_lt (by decide))
  unfold State.firstSewn
  extract_lets again
  rw [State.raise_ledger, evt]
  split
  · rfl
  · rw [status, status]

/-- What a sewn basting leaves of the desk. -/
structure State.sewn (s u : State) (new : Pat) : Prop where
  running : u.ptn.running = s.ptn.running
  en : u.tick.en = s.tick.en
  sews : u.rf Reg.PTN_SEWCOUNT 31 0 = (s.rf Reg.PTN_SEWCOUNT 31 0 + 1) % 2 ^ 32
  tick : u.rg64 Reg.PTN_COMMIT_TICK = if s.tick.en then s.tickNo else 0
  id : u.rg64 Reg.PTN_ACTIVE_ID = new.id % 2 ^ 64
  epoch : ∀ p, p < 16 → u.epoch p = s.epoch p
  phase : u.ptn.phase = .idle
  staged : u.ptn.staged.isNone = true
  committed : u.ptn.committed = true
  result : u.rf Reg.PTN_RESULT 15 0 = 0

theorem State.sewEnds_rg (s : State) (new : Pat) (k : Nat) : (s.sewEnds new).rg k = s.rg k := rfl

theorem State.sewEnds_ptn (s : State) (new : Pat) : (s.sewEnds new).ptn.running = s.ptn.running ∧ (s.sewEnds new).tick = s.tick ∧
    (s.sewEnds new).ptn.phase = .idle ∧ (s.sewEnds new).ptn.staged.isNone = true ∧ (s.sewEnds new).ptn.committed = true :=
  ⟨rfl, rfl, rfl, rfl, rfl⟩

theorem State.sewBooked_kept (s : State) (id mask : Nat) : (s.sewBooked id mask).ptn = s.ptn ∧ (s.sewBooked id mask).tick = s.tick := by
  have wide : ∀ (u : State) k v, (u.rg64Set k v).ptn = u.ptn ∧ (u.rg64Set k v).tick = u.tick := fun _ _ _ => ⟨rfl, rfl⟩
  have field : ∀ (u : State) k hi lo v, (u.rfSet k hi lo v).ptn = u.ptn ∧ (u.rfSet k hi lo v).tick = u.tick := fun _ _ _ _ _ => ⟨rfl, rfl⟩
  unfold State.sewBooked State.rAdd
  exact ⟨by rw [(field ..).1, (wide ..).1, (field ..).1, (wide ..).1], by rw [(field ..).2, (wide ..).2, (field ..).2, (wide ..).2]⟩

/-- The registers of the block after a sew. -/
theorem State.rg_commitBook (s : State) (old new : Pat) (aff : List Nat) {k : Nat} (mine : ofPtn k) :
    (s.commitBook old new aff).rg k = ((s.sewResult old new).sewBooked new.id ((aff.map (2 ^ ·)).sum)).rg k := by
  rw [State.commitBook_eq]
  extract_lets v
  split
  · exact v.sewEnds_rg new k
  · rw [State.firstSewn_rg _ mine, State.sewEnds_rg]

theorem State.commitBook_sewn (s : State) (old new : Pat) (aff : List Nat) : s.sewn (s.commitBook old new aff) new := by
  have kept : s.bookAlike (s.sewResult old new) := State.bookAlike_of_desk (s.sewResult_desk old new)
  have rest : ∀ k, ofPtn k → (s.commitBook old new aff).rg k = _ := fun k => s.rg_commitBook old new aff
  have result := s.sewResult_reads old new
  have ends : (s.commitBook old new aff).ptn.running = (s.sewResult old new).ptn.running ∧ (s.commitBook old new aff).tick = (s.sewResult old new).tick ∧
      (s.commitBook old new aff).ptn.phase = .idle ∧ (s.commitBook old new aff).ptn.staged.isNone = true ∧
      (s.commitBook old new aff).ptn.committed = true := by
    obtain ⟨ptn, tick⟩ := (s.sewResult old new).sewBooked_kept new.id ((aff.map (2 ^ ·)).sum)
    rw [State.commitBook_eq]
    generalize (s.sewResult old new).sewBooked new.id ((aff.map (2 ^ ·)).sum) = v at ptn tick
    obtain ⟨running, ticks, phase, staged, committed⟩ := v.sewEnds_ptn new
    have first := (v.sewEnds new).firstSewn_desk
    dsimp only
    split
    · exact ⟨by rw [running, ptn], by rw [ticks, tick], phase, staged, committed⟩
    · exact ⟨by rw [running_of_desk first, running, ptn], by rw [tick_of_desk first, ticks, tick],
        (congrArg Desk.phase first).trans phase, (congrArg Desk.unstaged first).trans staged, (congrArg Desk.committed first).trans committed⟩
  obtain ⟨running, ticks, phase, staged, committed⟩ := ends
  generalize s.commitBook old new aff = u at *
  generalize s.sewResult old new = v at *
  refine ⟨running.trans kept.running, (congrArg Tick.en ticks).trans kept.en, ?_, ?_, ?_, fun p p16 => ?_, phase, staged, committed, ?_⟩
  · rw [State.rf_of_rg (rest _ ⟨by decide, by decide⟩), State.sewBooked_sews, kept.sews]
  · rw [State.rg64_of_rg (rest _ ⟨by decide, by decide⟩) (rest _ ⟨by decide, by decide⟩), State.sewBooked_tick, kept.en, kept.tickNo]
  · rw [State.rg64_of_rg (rest _ ⟨by decide, by decide⟩) (rest _ ⟨by decide, by decide⟩), State.sewBooked_id]
  · have mine : ofPtn (Reg.PTN_EPOCH + 4 * p) := by
      unfold ofPtn Reg.PTN_EPOCH
      omega
    have apart : ofSew (Reg.PTN_EPOCH + 4 * p) = false := by
      simp only [ofSew, decide_eq_false_iff_not, Reg.PTN_EPOCH]
      omega
    rw [State.epoch, State.rf_of_rg ((rest _ mine).trans (v.rg_sewBooked _ _ apart))]
    exact kept.epoch p16
  · rw [State.rf_of_rg ((rest _ ⟨by decide, by decide⟩).trans (v.rg_sewBooked _ _ (by decide))), result]

/-! ## The commit -/

/-- The pattern that a commit makes the running one (R26). -/
def State.sewnPat (s : State) (y : Pat) : Pat := { y.kept with pins := commitPins s.ptn.running y }

/-- A pattern in force. -/
def State.runs (s : State) (new : Pat) : State := { s with ptn := { s.ptn with running := new } }

/-- The commit up to its registers. -/
def State.commitLaid (s : State) (new : Pat) : State :=
  let old := s.ptn.running
  let v := ((((s.commitOut old new).runs new).commitParts (affectedParts old new)).commitMemory old new).commitUnits old new
  let w := (if sameSec old new 5 0 then v.regAdjust s else v).lateGo
  (w.commitPower old new).commitTick old new

/-- The first steps behind a commit. -/
def State.stepsBehind (u : State) (aff : List Nat) : State :=
  let w := if u.tick.en then u.applyRelock else u
  if w.tick.en then w.firstSteps aff else w

theorem State.doCommit_made {s : State} {y : Pat} (staged : s.ptn.staged = some y) (good : s.commitDetail y = 0) :
    s.doCommit = ((s.commitLaid (s.sewnPat y)).commitBook s.ptn.running (s.sewnPat y)
      (affectedParts s.ptn.running (s.sewnPat y))).stepsBehind (affectedParts s.ptn.running (s.sewnPat y)) := by
  unfold State.doCommit
  rw [staged]
  dsimp only
  rw [← State.commitDetail, if_neg (not_not_intro good)]
  rfl

theorem State.applyRelock_tick (s : State) : s.applyRelock.tick = s.tick := tick_of_desk s.applyRelock_desk

theorem State.stepsBehind_eq (u : State) (aff : List Nat) : u.stepsBehind aff = if u.tick.en then u.applyRelock.firstSteps aff else u := by
  unfold State.stepsBehind
  by_cases on : u.tick.en = true
  · dsimp only
    rw [if_pos on, State.applyRelock_tick, if_pos on, if_pos on]
  · dsimp only
    rw [if_neg on, if_neg on, if_neg on]

/-- The pattern, the ticks and the book behind the parts of a commit that come before its registers. -/
theorem State.commitLaid_book (s : State) (new : Pat) :
    (s.commitLaid new).ptn.running = new ∧ (s.commitLaid new).tick.en = s.tick.en ∧ (s.commitLaid new).tickNo = s.tickNo ∧
    (s.commitLaid new).rf Reg.PTN_SEWCOUNT 31 0 = s.rf Reg.PTN_SEWCOUNT 31 0 ∧
    ∀ p, p < 16 → (s.commitLaid new).epoch p = if p ∈ affectedParts s.ptn.running new then (s.epoch p + 1) % 2 ^ 16 else s.epoch p := by
  unfold State.commitLaid
  extract_lets old v w
  have out : s.bookAlike (s.commitOut old new) := State.bookAlike_of_desk (s.commitOut_desk old new)
  have running : ((s.commitOut old new).runs new).ptn.running = new ∧ ((s.commitOut old new).runs new).tick = (s.commitOut old new).tick ∧
      ∀ k, ((s.commitOut old new).runs new).rg k = (s.commitOut old new).rg k := ⟨rfl, rfl, fun _ => rfl⟩
  have low : ∀ p ∈ affectedParts old new, p < 16 := fun p mem => lt_of_mem_affectedParts mem
  have parts := ((s.commitOut old new).runs new).commitParts_running (affectedParts old new)
  have others : ∀ k, ofDesk k = true → ofEpochs k = false → (((s.commitOut old new).runs new).commitParts (affectedParts old new)).rg k = s.rg k :=
    fun k mine apart => (rg_foldl_commitPart _ low _ mine apart).trans ((running.2.2 k).trans (out.rg k mine))
  have epochs : ∀ p, p < 16 → (((s.commitOut old new).runs new).commitParts (affectedParts old new)).epoch p =
      if p ∈ affectedParts old new then (s.epoch p + 1) % 2 ^ 16 else s.epoch p := fun p p16 => by
    have same : ((s.commitOut old new).runs new).epoch p = s.epoch p := (State.rf_of_rg (running.2.2 _) 15 0).trans (out.epoch p16)
    rw [State.commitParts_eq, epoch_foldl_commitPart _ (affectedParts_nodup old new) low _ p16, same]
  have memory : (((s.commitOut old new).runs new).commitParts (affectedParts old new)).bookAlike v :=
    State.bookAlike_of_desk (by simp only [v, State.commitUnits_desk, State.commitMemory_desk])
  have windows : v.bookAlike w := State.bookAlike_of_desk (by
    simp only [w, State.lateGo_desk]
    split
    · exact State.regAdjust_desk ..
    · rfl)
  have power : w.bookAlike (w.commitPower old new) := State.bookAlike_of_desk (w.commitPower_desk old new)
  have laid := memory.trans (windows.trans (power.trans (State.commitTick_bookAlike _ old new)))
  refine ⟨laid.running.trans (parts.1.trans running.1), ?_, ?_, ?_, fun p p16 => (laid.epoch p16).trans (epochs p p16)⟩
  · rw [laid.en, parts.2, running.2.1, out.en]
  · rw [laid.tickNo]
    exact State.rg64_of_rg (others _ (by decide) (by decide)) (others _ (by decide) (by decide))
  · rw [laid.sews]
    exact State.rf_of_rg (others _ (by decide) (by decide)) 31 0

end Sys2Proof.Machine

/-! # The outcomes of a basting (R26, R30 to R33, R37, R42, R43, R45, R446) -/

namespace Sys2Proof.Machine

theorem State.stepsBehind_clock (u : State) (aff : List Nat) : (u.stepsBehind aff).ledger.desk.clock = u.ledger.desk.clock := by
  rw [State.stepsBehind_eq]
  split
  · rw [State.firstSteps_clock, State.applyRelock_desk]
  · rfl

theorem isNone_iff_none {α : Type} {o : Option α} (h : o.isNone = true) : o = none := Option.isNone_iff_eq_none.mp h

section
variable {s : State} {y : Pat} (phase : s.ptn.phase = .armed) (due : s.ptn.commitDue = true) (staged : s.ptn.staged = some y)
include phase due staged

theorem exec_commit_refused (bad : s.commitDetail y ≠ 0) (off : s.tick.en = false) :
    exec .commit s = .next (s.unpickWith ePtnInvalid (s.commitDetail y) 3 none) := by
  rw [exec_commit_due phase due, State.doCommit_refused staged bad off]

/-- A commit that is made: the book of the sew, and the steps behind it. -/
theorem exec_commit_made (good : s.commitDetail y = 0) :
    ∃ t u, exec .commit s = .next t ∧
      t = (if s.tick.en then u.applyRelock.firstSteps (affectedParts s.ptn.running (s.sewnPat y)) else u) ∧
      u.ptn.running = s.sewnPat y ∧ u.rf Reg.PTN_SEWCOUNT 31 0 = (s.rf Reg.PTN_SEWCOUNT 31 0 + 1) % 2 ^ 32 ∧
      u.rg64 Reg.PTN_COMMIT_TICK = (if s.tick.en then s.tickNo else 0) ∧ u.rg64 Reg.PTN_ACTIVE_ID = (s.sewnPat y).id % 2 ^ 64 ∧
      (∀ p, p < 16 → u.epoch p =
        if p ∈ affectedParts s.ptn.running (s.sewnPat y) then (s.epoch p + 1) % 2 ^ 16 else s.epoch p) ∧
      t.ptn.phase = .idle ∧ t.ptn.staged = none ∧ t.ptn.committed = true ∧
      (s.tick.en = false → t.rg64 Reg.PTN_ACTIVE_ID = (s.sewnPat y).id % 2 ^ 64 ∧ t.rf Reg.PTN_RESULT 15 0 = 0) := by
  have book := (s.commitLaid (s.sewnPat y)).commitBook_sewn s.ptn.running (s.sewnPat y) (affectedParts s.ptn.running (s.sewnPat y))
  obtain ⟨running, en, tickNo, sews, epochs⟩ := s.commitLaid_book (s.sewnPat y)
  have run := exec_commit_due phase due
  rw [State.doCommit_made staged good] at run
  generalize (s.commitLaid (s.sewnPat y)).commitBook s.ptn.running (s.sewnPat y) (affectedParts s.ptn.running (s.sewnPat y)) = u at book run
  have on : u.tick.en = s.tick.en := book.en.trans en
  have clock := u.stepsBehind_clock (affectedParts s.ptn.running (s.sewnPat y))
  refine ⟨_, u, run, ?_, book.running.trans running, ?_, ?_, book.id, fun p p16 => (book.epoch p p16).trans (epochs p p16),
    (phase_of_clock clock).trans book.phase, isNone_iff_none ((unstaged_of_clock clock).trans book.staged),
    (committed_of_clock clock).trans book.committed, fun off => ?_⟩
  · rw [State.stepsBehind_eq, on]
  · rw [book.sews, sews]
  · rw [book.tick, en, tickNo]
  · rw [State.stepsBehind_eq, on, off, if_neg Bool.false_ne_true]
    exact ⟨book.id, book.result⟩

end

theorem State.commitDetail_found {s : State} {y : Pat} (found : s.lostNow y = false) :
    s.commitDetail y = if s.ptn.recheck then s.validate y else 0 := by
  rw [State.commitDetail, found, if_neg Bool.false_ne_true]

theorem State.commitDetail_lost {s : State} {y : Pat} (lost : s.lostNow y = true) : s.commitDetail y = dLost := by
  rw [State.commitDetail, if_pos lost]

/-- Settles O26: the branches of loads, validation and the timer, and the parts of a commit, which leave the running pattern and the
book of the PTN block alone but for what the commit writes. -/
theorem bastingOutcomes : Obligations.BastingOutcomes := by
  unfold Obligations.BastingOutcomes
  refine ⟨fun s ecc => ?_, fun u bs => ?_, fun s => ?_⟩
  · exact exec_loadDone ecc
  · extract_lets x t first lost
    have first_iff : u.firstLoad = true ↔ first := by simp [State.firstLoad, first, x]
    refine ⟨fun im parsed scope full => ?_, fun tk parsed later passes => ?_, fun code bad => ?_⟩
    · have full' : u.firstLoad = true → imageFull im = true := fun h => full (first_iff.mp h)
      refine ⟨fun header sections => ⟨fun sigs => ?_, fun rsa => ?_, fun slh => ?_⟩, fun bad => ?_, fun header bad => ?_⟩
      · have run : t = (u.loadMerged im).ptnResult 0 0 2 false none := by
          simp only [t, State.loadTake_sigs parsed scope full' header sections, sigs, Bool.not_true, Bool.false_eq_true, if_false]
        have kept := ((u.loadMerged im).ptnResult_notes 0 0 2 false none).ptn
        have reads := (u.loadMerged im).ptnResult_reads (code := 0) (by decide) 0 2 false none
        rw [run, kept]
        exact ⟨rfl, rfl, rfl, rfl, rfl, reads.readsCode, reads.readsOp (by decide) (by decide)⟩
      · have run : t = u.loadTaken.unpickWith ePtnSig 0x10 2 none := by
          simp only [t, State.loadTake_sigs parsed scope full' header sections, rsa, Bool.not_false, if_true]
        rw [run]
        exact u.loadTaken.unpickWith_lost (by decide) (by decide) (by decide) none
      · have run : t = u.loadTaken.unpickWith ePtnSig 0x11 2 none := by
          simp only [t, State.loadTake_sigs parsed scope full' header sections, slh, Bool.not_true, Bool.false_eq_true, if_false,
            Bool.not_false, if_true]
        rw [run]
        exact u.loadTaken.unpickWith_lost (by decide) (by decide) (by decide) none
      · have run : t = _ := State.loadTake_header parsed scope full' bad
        rw [run]
        exact u.loadTaken.unpickWith_lost (by decide) (by decide) (by decide) none
      · have run : t = _ := State.loadTake_section parsed scope full' header bad
        rw [run]
        exact u.loadTaken.unpickWith_lost (by decide) (by decide) (by decide) none
    · have off : ¬(u.firstLoad = true) := fun h => later (first_iff.mp h)
      have run : t = u.loadTaken.loadToken tk := by rw [show t = _ from State.loadTake_token parsed, if_neg off]
      obtain ⟨ptn, nor, done⟩ := State.loadToken_staged (s := u.loadTaken) (k := tk) passes
      rw [run, ptn, nor]
      exact ⟨rfl, rfl, rfl, rfl, rfl, done⟩
    · rw [State.loadTake_fails bad]
      exact u.loadOver.unpickWith_lost (by decide) (by decide) (by decide) none
  · extract_lets x
    refine ⟨fun y phase staged => ⟨fun valid carried => ?_, fun bad => ?_, fun valid needs lacks => ?_⟩, fun phase => ?_,
      fun y phase due staged => ⟨fun found recheck bad off => ?_, fun found recheck => ?_, fun lost off => ?_⟩⟩
    · have kept := (s.sewArmed.ptnResult_notes 0 0 3 false none)
      refine ⟨_, exec_validationDone_passes phase staged valid carried, kept.ptn, ?_, kept.hbm, kept.lin, kept.groups⟩
      exact (s.sewArmed.ptnResult_reads (code := 0) (by decide) 0 3 false none).readsCode
    · exact ⟨_, exec_validationDone_invalid phase staged bad, s.unpickWith_invalid _ _ _⟩
    · obtain ⟨idle, gone, running, code, -, -⟩ := s.unpickWith_lost (code := ePtnQuorum) (detail := 0) (op := 3) (by decide) (by decide)
        (by decide) none
      exact ⟨_, exec_validationDone_quorum phase staged valid needs lacks, idle, gone, running, code⟩
    · obtain ⟨idle, gone, running, code, -, bit⟩ := (s.at s.ptn.deadline).unpickWith_lost (code := ePtnTimeout) (detail := 0) (op := 0)
        (by decide) (by decide) (by decide) none
      refine ⟨_, exec_bastingTimeout_opened phase, idle, gone, running, ?_, code, bit⟩
      rw [State.unpickWith_now]
      exact Nat.le_max_right ..
    · have detail : s.commitDetail y = s.validate y := by rw [State.commitDetail_found found, if_pos recheck]
      have run := exec_commit_refused phase due staged (by rw [detail]; exact bad) off
      rw [detail] at run
      exact ⟨_, run, s.unpickWith_invalid _ _ _⟩
    · refine exec_commit_made phase due staged ?_
      rw [State.commitDetail_found found]
      split
      next checked => exact recheck checked
      next => rfl
    · have detail := State.commitDetail_lost lost
      have run := exec_commit_refused phase due staged (by rw [detail]; decide) off
      rw [detail] at run
      exact ⟨_, run, s.unpickWith_invalid _ _ _⟩

end Sys2Proof.Machine

/-! # A debug token whose turnover lets a host's read go on and stop half-way (R447, R453, R455, R465): the state -/

namespace Sys2Proof.Machine

/-- The middle of the first line of way 15 of slice 0, from which 128 bytes cross into the second line. -/
def trapAddr : Nat := Config.winBase + 15 * 0x60000 + 64

/-- P0 is enabled with nothing; P1's way 15 of slice 0 is pinned; regulator 0 meters host port 0 for P1 at die 0; MAX_LEVEL is 2. -/
def trapPat : Pat := { secs := [
  (16, { len := 8448, bytes := [(0, 1)] }),
  (48, { len := 16384, bytes := [(6464, 1), (6465, 1), (6467, 1), (6470, 1)] }),
  (80, { len := 8448, bytes := [(4, 255), (64, 1), (65, 1), (66, 0x4A), (69, 0x10), (72, 1)] }),
  (160, { len := 128, bytes := [(0, 2)] })] }

/-- A read of port 0 whose first piece awaits the READ_RESP of P0's table entry 0; its second one crosses a line in P1's way. -/
def trapOp : HostOp := { fn := 0, part := some 1, write := false, todo := [(0, 4, []), (trapAddr, 128, [])], poison := true, remote := some 0, since := 0 }

/-- The bytes of a DEBUG token at its fields, by offset: MAGIC, FORMAT, KIND, SERIAL, SEQ, LEVEL; then the slots. -/
def trapToken : List (Nat × Byte) :=
  List.zip (List.range 28) [0x50, 0x54, 0x4B, 0x4E, 1, 0, 2, 0, 0, 0, 0, 0, 0, 0, 0, 0, 1, 0, 0, 0, 0, 0, 0, 0, 2, 0, 0, 0] ++
    [(0x80, 0xFF), (0x81, 0xFF), (0x82, 0xFF), (0x83, 0xFF)]

/-- A DEBUG command whose token stands at address 0 of the idle span; the regulator's allowance at die 0 is one byte. -/
def trap : State := { State.reset with
  ptn := { running := trapPat }
  brup := { ended := [0, 1, 2] }
  esc := { op := some (.debug 0 33408) }
  hbm := { secs := [(0, { gen := 1 }), (4, { gen := 1 })], data := trapToken }
  net := { regs := [(regKey 0 12, { allow := 1 })] }
  spl := { out := [(0, { owner := .host 0, part := 0, epoch := 0, dst := 1, line := 0, sent := 0 })] }
  host := { port0 := { ops := [trapOp] } } }

end Sys2Proof.Machine

/-! # Reads of the idle span by the firmware (R228, R312, R483) -/

namespace Sys2Proof.Machine

/-- The bytes that a read of the idle span inside one line answers. -/
def State.idleBytes (s : State) (a n : Nat) : List Byte :=
  ((sectorCuts a n).map (fun q => ((s.hbmBytes (q.1 / 32 * 32)).drop (q.1 % 32)).take q.2)).flatten

/-- Nothing holds up a read of the idle span below `top` by the firmware, and no sector is poisoned. -/
structure State.idleCalm (s : State) (top : Nat) : Prop where
  whole : s.brup.outDies = []
  free : s.lin.tickets = []
  dowels : s.brup.ended.contains 2 = true
  idle : ∀ a, a < top → s.target .device none a = .idle
  there : ∀ a, (s.route 6 (s.stackOf a / 2) 11).isSome = true
  back : ∀ a, (s.route (s.stackOf a / 2) 6 11).isSome = true
  runs : ∀ a, s.stackStopped a = false
  good : ∀ k, (mget s.hbm.secs k {}).poison = false

section
variable {s : State} {r : List (Nat × Word)} (same : sameSingles s r)
include same

theorem sameSingles.serves : s.serves { s with regs := r } := .of_regs rfl same

theorem State.idleBytes_regs (a n : Nat) : ({ s with regs := r } : State).idleBytes a n = s.idleBytes a n := by
  have served := same.serves
  have bytes : ∀ b, ({ s with regs := r } : State).hbmBytes b = s.hbmBytes b := fun b => by
    rw [State.hbmBytes, State.hbmBytes, State.hbmBytesUnder, State.hbmBytesUnder, served.place, served.keyGen]
    rfl
  unfold State.idleBytes
  simp only [bytes]

theorem State.idleCalm.of_regs {top : Nat} (calm : s.idleCalm top) : ({ s with regs := r } : State).idleCalm top where
  whole := calm.whole
  free := calm.free
  dowels := calm.dowels
  idle a low := (same.serves.target _ _ a).trans (calm.idle a low)
  there a := by rw [same.serves.alike.route, same.serves.stackOf]; exact calm.there a
  back a := by rw [same.serves.alike.route, same.serves.stackOf]; exact calm.back a
  runs a := by
    have runs := calm.runs a
    rw [State.stackStopped] at runs ⊢
    rw [same.serves.stackOf]
    exact runs
  good := calm.good

end

section
variable {s : State} {top : Nat} (calm : s.idleCalm top)
include calm

theorem State.idleCalm.sector (b : Nat) : s.hbmRead b .clean = (0, s.hbmBytes b, s) := by
  have good := calm.good (hsecKey (s.hbmPlace b).1 (s.hbmPlace b).2)
  rw [State.hbmRead, State.hbmReadUnder, calm.runs, if_neg Bool.false_ne_true]
  dsimp only
  rw [good]
  rfl

theorem State.idleCalm.sectors (cuts : List (Nat × Nat)) (got : List Byte) :
    cuts.foldl (fun (x : Nat × List Byte × State) q =>
        let (c, bs, u) := x.2.2.hbmRead (q.1 / 32 * 32) .clean
        (if x.1 = 0 then c else x.1, x.2.1 ++ ((bs.drop (q.1 % 32)).take q.2), u)) (0, got, s) =
      (0, got ++ (cuts.map (fun q => ((s.hbmBytes (q.1 / 32 * 32)).drop (q.1 % 32)).take q.2)).flatten, s) := by
  induction cuts generalizing got with
  | nil => simp
  | cons q cuts ih =>
    rw [List.foldl_cons, calm.sector]
    dsimp only
    rw [if_pos rfl, ih, List.map_cons, List.flatten_cons, List.append_assoc]

theorem State.idleCalm.goes {a n : Nat} (low : a < top) : s.lineWaits ⟨.device, none, a, n, .read, .clean⟩ none = false := by
  have idle := calm.idle a low
  have points : s.pointsOf ⟨.device, none, a, n, .read, .clean⟩ = [] := by rw [State.pointsOf, idle]
  refine State.lineWaits_false ?_ ?_ ?_
  · rw [State.deferred, points]
    rfl
  · have ticket : s.ticket ⟨.device, none, a, n, .read, .clean⟩ = none := by rw [State.ticket, calm.free]; rfl
    rw [State.slotWaits, idle]
    dsimp only
    rw [ticket, State.dowelHolds, calm.dowels, State.stackKeeps]
    dsimp only [Option.bind]
    rw [State.stackHolds, calm.runs]
    simp
  · rw [State.outranked, points]

theorem State.idleCalm.line {a n : Nat} (low : a < top) :
    ∃ r, s.lineAccess .device none a n .read .clean none = (0, s.idleBytes a n, { s with regs := r }) ∧ sameSingles s r := by
  obtain ⟨r, crossed, same⟩ := crossed_regs s 6 (s.stackOf a / 2) (Act.read.sizes n).1 (Act.read.sizes n).2 calm.whole (calm.there a) (calm.back a)
  have idle := calm.idle a low
  have calm' := calm.of_regs same
  have free := unticket_none { s with regs := r } ⟨.device, none, a, n, .read, .clean⟩ calm.free
  refine ⟨r, ?_, same⟩
  unfold State.lineAccess
  dsimp only
  rw [idle]
  have die : s.agentDie .device = 6 := rfl
  simp only [die, crossed, Bool.not_true, Bool.false_eq_true, if_false, Act.kind, calm'.goes low, free, calm'.sectors]
  rw [← State.idleBytes_regs same, State.idleBytes, List.nil_append]

/-- A read of the idle span answers what stands there; only counters of packets move. -/
theorem State.idleCalm.reads {cuts : List (Nat × Nat)} (low : ∀ q ∈ cuts, q.1 < top) {ecc : Ecc} (clean : ecc = .clean) (a : Nat) (got : List Byte) :
    ∃ r, cuts.foldl (fun (x : Nat × List Byte × State) q =>
        let (c, bs, u) := x.2.2.lineAccess .device none q.1 q.2 .read (if q.1 = a then ecc else .clean) none
        (if x.1 = 0 then c else x.1, x.2.1 ++ (if c = 0 then bs else List.replicate q.2 0), u)) (0, got, s) =
      (0, got ++ (cuts.map (fun q => s.idleBytes q.1 q.2)).flatten, { s with regs := r }) ∧ sameSingles s r := by
  subst clean
  induction cuts generalizing got s with
  | nil => exact ⟨s.regs, by simp, fun _ _ => rfl⟩
  | cons q cuts ih =>
    obtain ⟨r, line, same⟩ := calm.line (n := q.2) (low q List.mem_cons_self)
    obtain ⟨r', rest, same'⟩ := ih (calm.of_regs same) (fun p mem => low p (List.mem_cons_of_mem _ mem)) (got ++ s.idleBytes q.1 q.2)
    refine ⟨r', ?_, fun j small => (same' j small).trans (same j small)⟩
    have bytes : ∀ p : Nat × Nat, ({ s with regs := r } : State).idleBytes p.1 p.2 = s.idleBytes p.1 p.2 := fun p => State.idleBytes_regs same ..
    rw [List.foldl_cons, ite_self, line]
    dsimp only
    rw [if_pos rfl, if_pos rfl, rest, List.map_cons, List.flatten_cons, List.append_assoc]
    simp only [bytes]

end

end Sys2Proof.Machine

/-! # The token of the debug command is read and verifies (R447, R455) -/

namespace Sys2Proof.Machine

/-- A partition without pseudo-channels holds no address. -/
theorem State.inSpan_empty {s : State} {p : Nat} (none : s.interleave p = []) (a : Nat) : s.inSpan p a = false := by
  unfold State.inSpan State.spanLen
  rw [none]
  generalize s.spanLo p = lo
  exact decide_eq_false (by simp only [List.length_nil]; omega)

theorem trap_spanOwner (a : Nat) : trap.spanOwner a = none := by
  have parts : trap.ptn.running.enabledParts = [0] := by decide +kernel
  have none : trap.interleave 0 = [] := by decide +kernel
  rw [State.spanOwner, parts, List.find?_cons, List.find?_nil, State.inSpan_empty none]

theorem State.target_idle {s : State} {a : Nat} (below : a < Config.hbmEnd) (inside : a < s.capacity * 2 ^ 30)
    (free : s.spanOwner a = none) : s.target .device none a = .idle := by
  unfold State.target
  rw [if_pos below, if_neg (Nat.not_le.mpr inside), free]
  simp [hostLike]

theorem trap_target {a : Nat} (low : a < 2 ^ 20) : trap.target .device none a = .idle :=
  State.target_idle (lt_trans low (by decide)) (lt_trans low (by decide +kernel)) (trap_spanOwner a)

theorem trap_stackOf (a : Nat) : trap.stackOf a / 2 < 6 := by
  have all : trap.idleSet.all (fun n => decide (n < 768)) = true := by decide +kernel
  have small : ∀ i, trap.idleSet.getD i 0 < 768 := by
    intro i
    by_cases inside : i < trap.idleSet.length
    · rw [List.getD_eq_getElem _ _ inside]
      exact of_decide_eq_true (List.all_eq_true.mp all _ (List.getElem_mem inside))
    · rw [List.getD_eq_default _ _ (by omega)]
      decide
  rw [State.stackOf, State.hbmPlace, trap_spanOwner]
  have := small (trap.idleBelow a / 2048 % trap.idleSet.length)
  dsimp only [interleaveAt]
  omega

theorem trap_routes : ∀ d < 6, (trap.route 6 d 11).isSome = true ∧ (trap.route d 6 11).isSome = true := by decide +kernel

theorem trap_calm : trap.idleCalm (2 ^ 20) where
  whole := rfl
  free := rfl
  dowels := rfl
  idle _ low := trap_target low
  there a := (trap_routes _ (trap_stackOf a)).1
  back a := (trap_routes _ (trap_stackOf a)).2
  runs _ := rfl
  good k := by
    have secs : trap.hbm.secs = [(0, { gen := 1 }), (4, { gen := 1 })] := rfl
    rw [secs]
    simp only [mget]
    split
    · rfl
    · split <;> rfl

/-- A request of an escutcheon command in the idle span is read whole. -/
theorem State.idleCalm.escRead {s : State} {top addr len : Nat} (calm : s.idleCalm top)
    (low : ∀ q ∈ lineCuts addr (min len 33856), q.1 < top) :
    ∃ r, s.escRead addr len .clean =
      (some (parseToken ((lineCuts addr (min len 33856)).map (fun q => s.idleBytes q.1 q.2)).flatten), { s with regs := r }) ∧ sameSingles s r := by
  obtain ⟨r, reads, same⟩ := calm.reads low (ecc := .clean) rfl addr []
  refine ⟨r, ?_, same⟩
  rw [State.escRead, State.memRead]
  dsimp only
  rw [reads]
  rfl

/-- What the escutcheon reads of the request of `trap`. -/
def trapBytes : List Byte := ((lineCuts 0 (min 33408 33856)).map (fun q => trap.idleBytes q.1 q.2)).flatten

theorem trap_escRead : ∃ r, trap.escRead 0 33408 .clean = (some (parseToken trapBytes), { trap with regs := r }) ∧ sameSingles trap r := by
  have low : (lineCuts 0 (min 33408 33856)).all (fun q => decide (q.1 < 2 ^ 20)) = true := by decide +kernel
  exact trap_calm.escRead (fun q mem => of_decide_eq_true (List.all_eq_true.mp low q mem))

theorem trapBytes_fields : (parseToken trapBytes).magic = tokenMagic ∧ (parseToken trapBytes).format = 1 ∧ (parseToken trapBytes).kind = 2 ∧
    (parseToken trapBytes).slots = (0xFF, 0xFF, 0xFF, 0xFF) ∧ (parseToken trapBytes).serial = 0 ∧ (parseToken trapBytes).seq = 1 ∧
    (parseToken trapBytes).arg = 2 := by decide +kernel

end Sys2Proof.Machine

/-! # A read of two lines in a pinned way whose first line uses up an allowance (R245, R332, R333) -/

namespace Sys2Proof.Machine

/-! ## One line -/

section
variable {s : State} {ag : Agent} {part : Option Nat} {a : Nat} (pinned : s.target ag part a = .pinned) (whole : s.brup.outDies = [])
  (there : (s.route (s.agentDie ag) (winSlice a / 256) 11).isSome = true) (back : (s.route (winSlice a / 256) (s.agentDie ag) 11).isSome = true)
include pinned whole there back

/-- A read in a pinned way of good sectors crosses to its slice, where it waits or is answered. -/
theorem State.lineAccess_pinned_crosses {len : Nat} {v : Option Nat}
    (good : ∀ b ∈ secsOf a len, (s.sec b).v = true → (s.sec b).poison = false) :
    ∃ r, sameSingles s r ∧ s.lineAccess ag part a len .read .clean v =
      if ({ s with regs := r } : State).lineWaits ⟨ag, part, a, len, .read, .clean⟩ v then
        (eTimeout, [], ({ s with regs := r } : State).stick ⟨ag, part, a, len, .read, .clean⟩)
      else (0, s.linBytes a len,
        ({ s with regs := r } : State).takenPinned ⟨ag, part, a, len, .read, .clean⟩ (32 * (secsOf a len).length)) := by
  obtain ⟨r, crossed, same⟩ := crossed_regs s (s.agentDie ag) (winSlice a / 256) (Act.read.sizes len).1 (Act.read.sizes len).2 whole there back
  refine ⟨r, same, ?_⟩
  have taken := ({ s with regs := r } : State).takenPinned_serves ⟨ag, part, a, len, .read, .clean⟩ (32 * (secsOf a len).length)
  have read := needPinned_all (({ s with regs := r } : State).takenPinned ⟨ag, part, a, len, .read, .clean⟩ (32 * (secsOf a len).length))
    (part.getD 0) (winSlice a) (a / 32 * 32) (secsOf a len)
    (fun b mem v => by rw [(same.serves.trans taken).sec] at v ⊢; exact good b mem v)
  have bytes := (same.serves.trans taken).linBytes a len
  unfold State.lineAccess
  dsimp only
  rw [pinned]
  dsimp only
  rw [crossed]
  dsimp only [Act.kind]
  simp only [Bool.not_true, Bool.false_eq_true, if_false, if_true]
  rw [← State.takenPinned_eq, read, if_pos rfl, bytes]

end

/-! ## An allowance used up -/

/-- A request that is charged more than its allowance holds up the next. -/
theorem State.charge_defers {s : State} {part : Option Nat} {master point bytes i : Nat} (entry : s.entryOf part master point = some i)
    (limited : s.ptn.running.regLimit i ≠ 0) (short : (s.regul i point).allow ≤ bytes)
    (calm : s.urgencyOf master < s.ptn.running.urgBypass) : (s.charge part master point bytes).defers part master point = true := by
  have served := s.charge_serves part master point bytes
  have entry' : (s.charge part master point bytes).entryOf part master point = some i := by
    rw [State.entryOf, served.ptn]; exact entry
  have high : ¬ s.ptn.running.urgBypass ≤ s.urgencyOf master := by omega
  have left : (s.charge part master point bytes).net =
      (s.regulSet i point { s.regul i point with allow := (s.regul i point).allow - bytes, served := (s.regul i point).served + bytes }).net := by
    unfold State.charge
    rw [entry]
    simp [limited, high]
  have regul : ((s.charge part master point bytes).regul i point).allow = (s.regul i point).allow - bytes := by
    have found : mfind (s.charge part master point bytes).net.regs (regKey i point) =
        some { s.regul i point with allow := (s.regul i point).allow - bytes, served := (s.regul i point).served + bytes } := by
      rw [left]
      exact mfind_mput_same ..
    rw [State.regul, found]
    rfl
  have urgency : (s.charge part master point bytes).urgencyOf master = s.urgencyOf master := by
    unfold State.urgencyOf
    rw [left]
    rfl
  rw [State.defers, entry']
  dsimp only
  rw [served.ptn, regul, urgency]
  simp [limited, high, short]

end Sys2Proof.Machine

/-! # The host's read that stops half-way (R245, R332, R333, R369, R370) -/

namespace Sys2Proof.Machine

theorem State.target_way {s : State} {ag : Agent} {p a : Nat} {r : Region} (above : ¬ a < Config.hbmEnd)
    (inside : Config.winBase ≤ a ∧ a < Config.winEnd) (found : s.ptn.running.wayPin (winSlice a) (winWay a) = some r) (owner : r.owner = p)
    (runs : (s.part p).resetting = false) : s.target ag (some p) a = .pinned := by
  unfold State.target
  rw [if_neg above, if_pos inside, found]
  dsimp only
  rw [runs, Bool.and_false, if_neg (by simp [owner])]

theorem State.turnAt_meters (s : State) (q : Ask) : (s.turnAt q).net.regs = s.net.regs ∧ (s.turnAt q).net.urg = s.net.urg := by
  unfold State.turnAt
  split
  · split <;> exact ⟨rfl, rfl⟩
  · exact ⟨rfl, rfl⟩

/-- An access to a pinned way that is charged more than its allowance holds up the next at its slice. -/
theorem State.takenPinned_defers {s : State} {q : Ask} {bytes i : Nat} (free : s.ticket q = none)
    (entry : s.entryOf q.part (masterId q.agent) (12 + winSlice q.addr / 256) = some i) (limited : s.ptn.running.regLimit i ≠ 0)
    (short : (s.regul i (12 + winSlice q.addr / 256)).allow ≤ bytes) (calm : s.urgencyOf (masterId q.agent) < s.ptn.running.urgBypass) :
    (s.takenPinned q bytes).defers q.part (masterId q.agent) (12 + winSlice q.addr / 256) = true := by
  obtain ⟨u, is⟩ : ∃ u, (s.turnAt q).countPinned (winSlice q.addr) = u := ⟨_, rfl⟩
  have served : s.serves u := is ▸ (s.turnAt_serves q).trans (State.countPinned_serves _ _)
  have lin : u.lin = s.lin := by rw [← is, countPinned_lin, turnAt_lin]
  have regs : u.net.regs = s.net.regs := by rw [← is, State.countPinned, State.rgSet_net, (s.turnAt_meters q).1]
  have urg : u.net.urg = s.net.urg := by rw [← is, State.countPinned, State.rgSet_net, (s.turnAt_meters q).2]
  have idle : ∀ k : State, k.lin = u.lin → k.unticket q = k := fun k same =>
    State.unticket_free (by rw [State.ticket, same, lin]; exact free)
  have eq : s.takenPinned q bytes = u.charge q.part (masterId q.agent) (12 + winSlice q.addr / 256) bytes := by
    rw [State.takenPinned, is]
    exact idle _ (charge_lin ..)
  have regul : u.regul i (12 + winSlice q.addr / 256) = s.regul i (12 + winSlice q.addr / 256) := by
    rw [State.regul, State.regul, regs, served.alike.limitEff]
  rw [eq]
  refine State.charge_defers ?_ (by rw [served.ptn]; exact limited) (by rw [regul]; exact short) ?_
  · rw [State.entryOf, served.ptn]; exact entry
  · rw [State.urgencyOf, urg, served.ptn]; exact calm

/-- `trap` at the moment when its host's read may go on: its pattern runs, its lining is empty, the ways to slice 0 are open, and the
regulator there has one byte left. -/
structure State.primed (s : State) : Prop where
  pattern : s.ptn.running = trapPat
  runs : (s.part 1).resetting = false
  lin : s.lin = {}
  whole : s.brup.outDies = []
  there : (s.route 6 0 11).isSome = true
  back : (s.route 0 6 11).isSome = true
  meter : mfind s.net.regs (regKey 0 12) = some { allow := 1 }

theorem State.primed.of_regs {s : State} (h : s.primed) {r : List (Nat × Word)} (same : sameSingles s r) :
    ({ s with regs := r } : State).primed :=
  ⟨h.pattern, h.runs, h.lin, h.whole, by rw [same.serves.alike.route]; exact h.there, by rw [same.serves.alike.route]; exact h.back, h.meter⟩

/-- The same, with the port's urgency below the one that passes the regulator. -/
structure State.snared (s : State) : Prop extends s.primed where
  calm : s.urgencyOf 0x4A < 255

/-- The request for the first line of the read, and for the second. -/
def trapAsk (second : Bool) : Ask := ⟨.host 0, some 1, if second then trapAddr + 64 else trapAddr, 64, .read, .clean⟩

/-- Both lines lie in P1's way of slice 0. -/
theorem trapAsk_window (second : Bool) : ¬ (trapAsk second).addr < Config.hbmEnd ∧
    (Config.winBase ≤ (trapAsk second).addr ∧ (trapAsk second).addr < Config.winEnd) ∧ winSlice (trapAsk second).addr = 0 ∧
    (trapPat.wayPin 0 (winWay (trapAsk second).addr)).map (·.owner) = some 1 := by
  cases second <;> decide +kernel

theorem trapPat_meters : trapPat.regFind 1 0x4A 12 = some 0 ∧ trapPat.regLimit 0 = 1 ∧ trapPat.urgBypass = 255 := by decide +kernel

section
variable {s : State} (h : s.snared)
include h

theorem State.snared.pinned (second : Bool) : s.target (.host 0) (some 1) (trapAsk second).addr = .pinned := by
  have window := trapAsk_window second
  generalize (trapAsk second).addr = a at window ⊢
  obtain ⟨above, inside, slice, pin⟩ := window
  obtain ⟨r, found, owner⟩ := Option.map_eq_some_iff.mp pin
  have pin' : s.ptn.running.wayPin (winSlice a) (winWay a) = some r := by rw [h.pattern, slice]; exact found
  exact State.target_way above inside pin' owner h.runs

theorem State.snared.entry : s.entryOf (some 1) 0x4A 12 = some 0 := by
  obtain ⟨find, -, -⟩ := trapPat_meters
  have known : s.ptn.running.regFind 1 0x4A 12 = some 0 := by rw [h.pattern, find]
  exact (Option.bind_some ..).trans known

theorem State.snared.regul : s.regul 0 12 = { allow := 1 } := by
  rw [State.regul, h.meter, Option.getD_some]

theorem State.snared.goes (second : Bool) : s.lineWaits (trapAsk second) none = false := by
  have target := h.pinned second
  have slice := (trapAsk_window second).2.2.1
  have points : s.pointsOf (trapAsk second) = [12] := by
    have target' : s.target (trapAsk second).agent (trapAsk second).part (trapAsk second).addr = .pinned := target
    rw [State.pointsOf, target']
    dsimp only
    rw [slice]
  refine State.lineWaits_false ?_ ?_ (State.outranked_alone points fun t mem => ?_)
  · have free : s.defers (some 1) 0x4A 12 = false := by
      rw [State.defers, h.entry]
      dsimp only
      rw [h.regul]
      simp
    rw [State.deferred, points, List.any_cons, List.any_nil, Bool.or_false]
    exact free
  · have target' : s.target (trapAsk second).agent (trapAsk second).part (trapAsk second).addr = .pinned := target
    rw [State.slotWaits, target']
  · rw [h.lin] at mem
    cases mem

end

end Sys2Proof.Machine

/-! # The host's read that stops half-way: the read (R245, R332, R333) -/

namespace Sys2Proof.Machine

theorem State.stick_stuck {s : State} (free : s.lin.stuck = none) (q : Ask) : (s.stick q).lin.stuck = some q := by
  unfold State.stick
  rw [free]
  rfl

theorem sameSingles.defers {s : State} {r : List (Nat × Word)} (same : sameSingles s r) (part : Option Nat) (master point : Nat) :
    ({ s with regs := r } : State).defers part master point = s.defers part master point := by
  have regul : ∀ i, ({ s with regs := r } : State).regul i point = s.regul i point := fun i => by
    rw [State.regul, State.regul, same.serves.alike.limitEff]
  have entry : ({ s with regs := r } : State).entryOf part master point = s.entryOf part master point := rfl
  unfold State.defers
  simp only [regul, entry]
  rfl

theorem trapAsk_cuts : lineCuts trapAddr 128 = [(trapAddr, 64), (trapAddr + 64, 64)] ∧
    ∀ second, 32 * (secsOf (trapAsk second).addr 64).length = 64 := by decide +kernel

section
variable {s : State} (h : s.snared)
include h

theorem State.snared.of_regs {r : List (Nat × Word)} (same : sameSingles s r) : ({ s with regs := r } : State).snared :=
  ⟨h.toprimed.of_regs same, h.calm⟩

theorem State.snared.sound (b : Nat) : (s.sec b).poison = false := by
  rw [State.sec, h.lin]
  rfl

/-- The first line is read, and its bytes use up the allowance. -/
theorem State.snared.first : ∃ bs t, s.lineAccess (.host 0) (some 1) trapAddr 64 .read .clean none = (0, bs, t) ∧ s.serves t ∧
    t.lin = {} ∧ t.defers (some 1) 0x4A 12 = true := by
  have slice : winSlice trapAddr = 0 := (trapAsk_window false).2.2.1
  have pinned : s.target (.host 0) (some 1) trapAddr = .pinned := h.pinned false
  have length : 32 * (secsOf trapAddr 64).length = 64 := trapAsk_cuts.2 false
  obtain ⟨-, limit, bypass⟩ := trapPat_meters
  have there : (s.route (s.agentDie (.host 0)) (winSlice trapAddr / 256) 11).isSome = true := by rw [slice]; exact h.there
  have back : (s.route (winSlice trapAddr / 256) (s.agentDie (.host 0)) 11).isSome = true := by rw [slice]; exact h.back
  obtain ⟨r, same, reads⟩ := State.lineAccess_pinned_crosses (len := 64) (v := none) pinned h.whole there back (fun b _ _ => h.sound b)
  have g := h.of_regs same
  obtain ⟨w, is⟩ : ∃ w, ({ s with regs := r } : State) = w := ⟨_, rfl⟩
  have served : s.serves w := is ▸ same.serves
  rw [is] at g reads
  have goes : w.lineWaits ⟨.host 0, some 1, trapAddr, 64, .read, .clean⟩ none = false := g.goes false
  rw [goes, if_neg Bool.false_ne_true] at reads
  have free : w.ticket ⟨.host 0, some 1, trapAddr, 64, .read, .clean⟩ = none := by rw [State.ticket, g.lin]; rfl
  refine ⟨_, _, reads, served.trans (State.takenPinned_serves ..), (State.takenPinned_lin free _).trans g.lin, ?_⟩
  have point : 12 + winSlice trapAddr / 256 = 12 := by rw [slice]
  have defers := State.takenPinned_defers (s := w) (q := ⟨.host 0, some 1, trapAddr, 64, .read, .clean⟩) (i := 0)
    (bytes := 32 * (secsOf trapAddr 64).length) free
  dsimp only at defers
  rw [point] at defers
  refine defers g.entry ?_ ?_ ?_
  · rw [g.pattern, limit]; decide
  · rw [g.regul, length]; decide
  · rw [g.pattern, bypass]; exact g.calm

end

/-- The second line waits at its regulator, and the read stops there. -/
theorem State.snared.second {s t : State} (h : s.snared) (served : s.serves t) (lin : t.lin = {}) (defers : t.defers (some 1) 0x4A 12 = true) :
    (t.lineAccess (.host 0) (some 1) (trapAddr + 64) 64 .read .clean none).2.2.lin.stuck = some (trapAsk true) := by
  have slice : winSlice (trapAddr + 64) = 0 := (trapAsk_window true).2.2.1
  have pinned : t.target (.host 0) (some 1) (trapAddr + 64) = .pinned := (served.target ..).trans (h.pinned true)
  have there : (t.route 6 0 11).isSome = true := by rw [served.alike.route]; exact h.there
  have back : (t.route 0 6 11).isSome = true := by rw [served.alike.route]; exact h.back
  have there' : (t.route (t.agentDie (.host 0)) (winSlice (trapAddr + 64) / 256) 11).isSome = true := by rw [slice]; exact there
  have back' : (t.route (winSlice (trapAddr + 64) / 256) (t.agentDie (.host 0)) 11).isSome = true := by rw [slice]; exact back
  obtain ⟨r, same, reads⟩ := State.lineAccess_pinned_crosses (len := 64) (v := none) pinned (by rw [served.brup]; exact h.whole) there' back'
    (fun b _ _ => by rw [served.sec]; exact h.sound b)
  have target : ({ t with regs := r } : State).target (.host 0) (some 1) (trapAddr + 64) = .pinned := (same.serves.target ..).trans pinned
  have held : ({ t with regs := r } : State).defers (some 1) 0x4A 12 = true := (same.defers ..).trans defers
  have free : ({ t with regs := r } : State).lin.stuck = none := by rw [lin]
  have there'' : (({ t with regs := r } : State).route 6 0 11).isSome = true := by rw [same.serves.alike.route]; exact there
  have back'' : (({ t with regs := r } : State).route 0 6 11).isSome = true := by rw [same.serves.alike.route]; exact back
  generalize ({ t with regs := r } : State) = u at *
  have points : u.pointsOf ⟨.host 0, some 1, trapAddr + 64, 64, .read, .clean⟩ = [12] := by
    rw [State.pointsOf]
    dsimp only
    rw [target]
    dsimp only
    rw [slice]
  have waits : u.lineWaits ⟨.host 0, some 1, trapAddr + 64, 64, .read, .clean⟩ none = true := by
    have routed : u.routed ⟨.host 0, some 1, trapAddr + 64, 64, .read, .clean⟩ = true := by
      rw [State.routed]
      dsimp only
      rw [target]
      dsimp only
      rw [slice]
      exact Bool.and_eq_true_iff.mpr ⟨there'', back''⟩
    have deferred : u.deferred ⟨.host 0, some 1, trapAddr + 64, 64, .read, .clean⟩ = true := by
      rw [State.deferred, points, List.any_cons, List.any_nil, Bool.or_false]
      exact held
    rw [State.lineWaits, routed, deferred]
    rfl
  rw [reads, waits, if_pos rfl]
  exact State.stick_stuck free _

theorem State.snared.reads {s : State} (h : s.snared) :
    (s.memRead (.host 0) (some 1) trapAddr 128 .clean).2.2.lin.stuck = some (trapAsk true) := by
  obtain ⟨bs, t, first, served, lin, defers⟩ := h.first
  have second := h.second served lin defers
  rw [State.memRead, trapAsk_cuts.1]
  simp only [List.foldl_cons, List.foldl_nil, ite_self, first]
  exact second

theorem State.snared.begins {s : State} (h : s.snared) : s.memWaits (.host 0) (some 1) trapAddr 128 .read .clean = false := by
  have first : s.lineWaits ⟨.host 0, some 1, trapAddr, 64, .read, .clean⟩ none = false := h.goes false
  have second : s.lineWaits ⟨.host 0, some 1, trapAddr + 64, 64, .read, .clean⟩ none = false := h.goes true
  rw [State.memWaits, State.asksWait, List.any_cons, List.any_nil, Ask.lines, trapAsk_cuts.1]
  simp only [List.map_cons, List.map_nil, ite_self, List.any_cons, List.any_nil, first, second, Bool.or_false]

end Sys2Proof.Machine

/-! # The host's read that stops half-way: its port (R369, R370, R465) -/

namespace Sys2Proof.Machine

theorem fillUrgency_le (n size : Nat) : fillUrgency n size ≤ 3 := by
  unfold fillUrgency
  split
  · omega
  · split
    · omega
    · split <;> omega

/-- What is left of the read of `trap` once its first piece has failed. -/
def trapRest : HostOp := { trapOp with todo := [(trapAddr, 128, [])], remote := none }

theorem trapRest_ask : masterId (hostAgent 0) = 0x4A ∧ isRemote trapAddr = false ∧ hostAgent 0 = .host 0 := by decide

/-- A failure reported leaves the read as it is. -/
theorem State.primed.reported {s : State} (h : s.primed) (fn addr : Nat) (part : Option Nat) : (s.bar2Err fn ePerm addr part).primed := by
  have log : s.sameButLog (s.bar2Err fn ePerm addr part) := State.err_sameButLog ..
  have regs : (s.bar2Err fn ePerm addr part).rg Reg.NET_STATUS = s.rg Reg.NET_STATUS :=
    State.logRec_sameRegs s ePerm (fnUnit fn) part addr 0 false _ (by decide)
  generalize s.bar2Err fn ePerm addr part = u at *
  have ptn : u.ptn = s.ptn := (congrArg State.ptn log :)
  have net : u.net = s.net := (congrArg State.net log :)
  have alike : s.routesAlike u := ⟨ptn, by rw [net], (congrArg State.fuses log :), (congrArg State.brup log :), regs⟩
  have parts : u.parts = s.parts := (congrArg State.parts log :)
  exact
    { pattern := by rw [ptn]; exact h.pattern
      runs := by rw [State.part, parts]; exact h.runs
      lin := (State.sameButLog_lin log).trans h.lin
      whole := by rw [alike.brup]; exact h.whole
      there := by rw [alike.route]; exact h.there
      back := by rw [alike.route]; exact h.back
      meter := by rw [net]; exact h.meter }

theorem State.primed.snared {s : State} (h : s.primed) : (s.alone 0 trapRest).snared := by
  have alike : s.routesAlike (s.alone 0 trapRest) := ⟨rfl, rfl, rfl, rfl, rfl⟩
  have urgency : (s.alone 0 trapRest).urgencyOf 0x4A = fillUrgency 1 Config.hostBuffer := mget_mset_same ..
  exact
    { pattern := h.pattern
      runs := h.runs
      lin := h.lin
      whole := h.whole
      there := by rw [alike.route]; exact h.there
      back := by rw [alike.route]; exact h.back
      meter := h.meter
      calm := by rw [urgency]; exact Nat.lt_of_le_of_lt (fillUrgency_le ..) (by decide) }

/-- The last piece of a poisoned read ends it, whatever its code. -/
theorem State.pieceDone_poisoned {s : State} {q : HostOp} {a len : Nat} {bs : List Byte} (todo : q.todo = [(a, len, bs)])
    (read : q.write = false) (bad : q.poison = true) (port code : Nat) (data : List Byte) :
    ((s.pieceDone port q [] code data).port port).ops = [] ∧ (s.pieceDone port q [] code data).lin = s.lin := by
  have log : s.sameButLog (if code ≠ 0 then s.bar2Err q.fn code a q.part else s) := by
    split
    · exact State.err_sameButLog ..
    · rfl
  obtain ⟨u, is⟩ : ∃ u, (if code ≠ 0 then s.bar2Err q.fn code a q.part else s) = u := ⟨_, rfl⟩
  have done : s.pieceDone port q [] code data = (u.portOps port []).bar2Done q.fn .poisoned eUncorr [] := by
    rw [← is]
    simp only [State.pieceDone, todo, read, bad, Bool.false_eq_true, if_false, Bool.not_true, and_false, List.isEmpty_nil, Bool.true_or,
      if_true]
  rw [is] at log
  have ops := congrArg Port.ops (u.portOps_port port [])
  have lin : ((u.portOps port []).bar2Done q.fn .poisoned eUncorr []).lin = u.lin := rfl
  rw [done]
  exact ⟨ops, lin.trans (State.sameButLog_lin log)⟩

theorem State.primed.pumps {s : State} (h : s.primed) : ((s.portOps 0 [trapRest]).hostPump 0).lin.stuck = some (trapAsk true) := by
  have begins := h.snared.begins
  have reads := h.snared.reads
  obtain ⟨-, near, agent⟩ := trapRest_ask
  obtain ⟨q, is⟩ : ∃ q, trapRest = q := ⟨_, rfl⟩
  have todo : q.todo = [(trapAddr, 128, [])] := is ▸ rfl
  have here : q.remote = none := is ▸ rfl
  have read : q.write = false := is ▸ rfl
  have bad : q.poison = true := is ▸ rfl
  have part : q.part = some 1 := is ▸ rfl
  rw [is] at begins reads ⊢
  have step := State.hostStep_alone (s := s) (port := 0) todo here near
  rw [read, if_neg Bool.false_ne_true, if_neg Bool.false_ne_true, agent, part] at step
  have step := step begins
  generalize (s.alone 0 q).memRead (.host 0) (some 1) trapAddr 128 .clean = r at step reads
  obtain ⟨none, lin⟩ := State.pieceDone_poisoned (s := r.2.2) todo read bad 0 r.1 r.2.1
  obtain ⟨-, -, -, -, same⟩ := State.bar2_over todo step none
  rw [same, lin, reads]

/-- Where the entry that the read waits for fails, its second piece is tried, and stops half-way. -/
theorem State.primed.fails {s : State} (h : s.primed) (ops : (s.port 0).ops = [trapOp]) :
    (s.hostRemote 0 0 ePerm []).lin.stuck = some (trapAsk true) := by
  have again : s.pieceDone 0 trapOp [] ePerm [] = (s.bar2Err 0 ePerm 0 (some 1)).portOps 0 [trapRest] := by
    have fails : ePerm ≠ 0 := by decide
    unfold State.pieceDone trapRest trapOp
    simp [fails]
  unfold State.hostRemote
  rw [ops]
  dsimp only
  rw [if_neg (by decide), List.drop_nil, List.take_nil, again]
  exact (h.reported ..).pumps

end Sys2Proof.Machine

/-! # The turnover of the partition whose entry the host's read awaits (R453, R463, R465) -/

namespace Sys2Proof.Machine

theorem trapPat_owns : trapPat.enabledParts = [0] ∧ trapPat.coreMask 0 = 0 ∧ trapPat.fitCount 0 = 0 ∧ trapPat.jigMask 0 = 0 ∧
    trapPat.slices 0 = [] := by decide +kernel

theorem State.clearOwned_eq (s : State) (p : Nat) : s.clearOwned p = ((s.clearHeld p).hostFail p).dropRequests p := rfl

/-- An empty lining holds nothing of a partition without slices and channels. -/
theorem State.clearHeld_empty {s : State} {p : Nat} (lin : s.lin = {}) (slices : s.ptn.running.slices p = [])
    (jigs : s.ptn.running.jigMask p = 0) : s.clearHeld p = s := by
  have none : setBits 0 320 = [] := by decide +kernel
  have drop : s.pinDrop p = s := by rw [State.pinDrop, lin]
  have failed : s.failQueued p = s := by
    have queued : s.queuedAt p = [] := by rw [State.queuedAt, State.linesOf, lin]; rfl
    have same : ({ s with lin := {} } : State) = s := by rw [← lin]
    unfold State.failQueued
    rw [queued, lin]
    exact same
  have lines : s.dropLines p = s := by rw [State.dropLines, State.linesOf, lin]; rfl
  have cleared : s.clearSlices p [] = s := by
    have same : ({ s with lin := {} } : State) = s := by rw [← lin]
    simp only [State.clearSlices, lin, List.filter_nil, List.map_nil, List.append_nil, List.foldl_nil]
    exact same
  rw [State.clearHeld, slices, jigs, none, drop, failed, lines, cleared, List.foldl_nil]

theorem State.primed.stepDropped {s : State} (h : s.primed) : (s.stepDropped 0).primed := by
  have rest := s.stepDropped_enters 0
  have status : (s.stepDropped 0).rg Reg.NET_STATUS = s.rg Reg.NET_STATUS :=
    (State.rg_stepDropped_other s (by decide)).trans (State.rg_stepLeft_other s (by decide))
  have part : (s.stepDropped 0).part 1 = s.part 1 :=
    (State.part_stepDropped_other s (by decide)).trans (State.part_stepLeft_other s (by decide))
  generalize s.stepDropped 0 = t at *
  have ptn : t.ptn = s.ptn := (congrArg State.ptn rest :)
  have net : t.net = s.net := (congrArg State.net rest :)
  have alike : s.routesAlike t := ⟨ptn, by rw [net], (congrArg State.fuses rest :), (congrArg State.brup rest :), status⟩
  exact
    { pattern := by rw [ptn]; exact h.pattern
      runs := by rw [part]; exact h.runs
      lin := (congrArg State.lin rest :).trans h.lin
      whole := by rw [alike.brup]; exact h.whole
      there := by rw [alike.route]; exact h.there
      back := by rw [alike.route]; exact h.back
      meter := by rw [net]; exact h.meter }

/-- The one entry of `trap`'s table of requests. -/
def trapOut : OutReq := { owner := .host 0, part := 0, epoch := 0, dst := 1, line := 0, sent := 0 }

section
variable {s : State} (h : s.primed) (ops : (s.port 0).ops = [trapOp]) (out : s.spl.out = [(0, trapOut)])
include h ops out

theorem State.primed.hostFail : (s.hostFail 0).lin.stuck = some (trapAsk true) := by
  have fails := h.fails ops
  have first : s.hostFail 0 = s.hostRemote 0 0 ePerm [] := by rw [State.hostFail, out]; rfl
  rw [first, fails]

theorem State.primed.abandonStep : (s.abandonStep 0).primed ∧ ((s.abandonStep 0).port 0).ops = [trapOp] ∧
    (s.abandonStep 0).spl.out = [(0, trapOut)] := by
  obtain ⟨-, cores, fits, -, -⟩ := trapPat_owns
  have dropped := h.stepDropped
  have rest := s.stepDropped_enters 0
  have none : setBits 0 64 = [] := by decide +kernel
  rw [State.abandonStep_eq, State.coresWiped, State.coresOf, dropped.pattern, cores, none, List.foldl_nil, State.fitsCleared, h.pattern, fits,
    List.range_zero, List.foldl_nil]
  generalize s.stepDropped 0 = t at *
  have host : t.host = s.host := (congrArg State.host rest :)
  have spl : t.spl = s.spl := (congrArg State.spl rest :)
  exact ⟨dropped, by rw [State.port, host]; exact ops, by rw [spl]; exact out⟩

theorem State.primed.scrubPart : (s.scrubPart 0).lin.stuck = some (trapAsk true) := by
  obtain ⟨-, -, -, jigs, slices⟩ := trapPat_owns
  obtain ⟨left, ops', out'⟩ := h.abandonStep ops out
  have fails := left.hostFail ops' out'
  have lin : (s.scrubPart 0).lin = ((s.abandonStep 0).clearOwned 0).lin := rfl
  rw [lin]
  generalize s.abandonStep 0 = t at *
  rw [State.clearOwned_eq, State.clearHeld_empty left.lin (by rw [left.pattern]; exact slices) (by rw [left.pattern]; exact jigs)]
  exact fails

end

end Sys2Proof.Machine

/-! # The debug command of `trap` (R447, R450, R453, R455) -/

namespace Sys2Proof.Machine

theorem State.rekey_lin (s : State) (gone : List Nat) : (s.rekey gone).lin = s.lin := by
  unfold State.rekey
  simp only [State.rfSet_lin]
  refine foldl_keeps (fun u : State => u.lin) _ (fun u k => ?_) _ _
  split <;> rfl

theorem State.turnoverDone_lin (s : State) (ps : List Nat) : (s.turnoverDone ps).lin = s.lin := by
  unfold State.turnoverDone
  dsimp only
  refine (foldl_keeps (fun u : State => u.lin) _ (fun u p => ?_) _ _).trans ((State.rAdd_lin ..).trans (State.rfSet_lin ..))
  rfl

theorem State.primed.of_esc {s : State} (h : s.primed) (e : Esc) (n : Nor) : ({ s with esc := e, nor := n } : State).primed := by
  have alike : s.routesAlike { s with esc := e, nor := n } := ⟨rfl, rfl, rfl, rfl, rfl⟩
  exact ⟨h.pattern, h.runs, h.lin, h.whole, by rw [alike.route]; exact h.there, by rw [alike.route]; exact h.back, h.meter⟩

/-- A FULL unlock stops half-way at the host's read. -/
theorem State.primed.fullUnlock {s : State} (h : s.primed) (ops : (s.port 0).ops = [trapOp]) (out : s.spl.out = [(0, trapOut)]) :
    s.fullUnlock.lin.stuck = some (trapAsk true) := by
  have parts := trapPat_owns.1
  unfold State.fullUnlock
  dsimp only
  rw [h.pattern, parts, State.turnoverDone_lin, State.rekey_lin, List.foldl_cons, List.foldl_nil]
  exact (h.of_esc { s.esc with keys := [], made := s.esc.made + 1, moduleKey := s.esc.made + 1 } s.nor).scrubPart ops out

/-- A token of a module without enrolled parties passes every check where its fields do. -/
theorem State.tokenDetail_bare {s : State} {x : TokenIn} (none1 : s.slotsOf 1 = 0) (none2 : s.slotsOf 2 = 0) (magic : x.magic = tokenMagic)
    (format : x.format = 1) (kind : x.kind = 2) (slots : x.slots = (0xFF, 0xFF, 0xFF, 0xFF)) (serial : x.serial = s.fuses.serial)
    (seq : s.nor.tokSeq < x.seq) : s.tokenDetail x 2 33408 = 0 := by
  have named : s.tokenSlots x = true := by
    simp [State.tokenSlots, none1, none2, slots]
  have older : ¬ x.seq ≤ s.nor.tokSeq := by omega
  simp [State.tokenDetail, magic, format, kind, serial, named, none1, none2, older]

section
variable {s : State} {x : TokenIn} (level : x.arg = 2) (allowed : s.ptn.running.maxLevel = 2) (early : s.tick.en = false)
  (locked : s.esc.debug = 0) (none : s.esc.unlock = none)
include level allowed early locked none

/-- A verified FULL token before READY unlocks at once. -/
theorem State.debugToken_full : (s.debugToken x).lin = ({ s with
    esc := { s.esc with unlock := Option.none }, nor := { s.nor with tokSeq := x.seq } } : State).fullUnlock.lin := by
  have result : ∀ (u : State) d, (u.escResult d).lin = u.lin := fun u d => by rw [State.escResult, State.evSet_lin, State.rfSet_lin]
  unfold State.debugToken
  dsimp only
  rw [level, allowed, none, if_neg (by decide), result]
  have en : (({ s with esc := { s.esc with unlock := some (max (2 % 4) (Option.none.getD 0)) } } : State).tokUsed x.seq).tick.en = false := early
  rw [en, if_neg Bool.false_ne_true]
  unfold State.applyUnlock State.tokUsed
  dsimp only
  rw [locked, if_neg (by decide), if_pos (by decide)]

end

end Sys2Proof.Machine

/-! # The commands of the escutcheon: an access that stops the unlock half-way (R447, R453, R455, log entry 65) -/

namespace Sys2Proof.Machine

theorem trap_primed : trap.primed where
  pattern := rfl
  runs := rfl
  lin := rfl
  whole := rfl
  there := (trap_routes 0 (by decide)).1
  back := (trap_routes 0 (by decide)).2
  meter := rfl

theorem State.escEnd_debug {s : State} {a n : Nat} {x : TokenIn} (op : s.esc.op = some (.debug a n))
    (good : ({ s with esc := { s.esc with op := none } } : State).tokenDetail x 2 n = 0) :
    s.escEnd (some x) = ({ s with esc := { s.esc with op := none } } : State).debugToken x := by
  unfold State.escEnd
  rw [op]
  dsimp only
  rw [good, if_pos rfl]

/-- The request of a command read, and the command ended by it. -/
def State.escRun (s : State) (a n : Nat) (ecc : Ecc) : State := (s.escRead a n ecc).2.escEnd (s.escRead a n ecc).1

theorem exec_escCommandComplete_debug {s : State} {a n : Nat} (op : s.esc.op = some (.debug a n)) (ecc : Ecc) :
    exec (.escCommandComplete ecc) s = .next (s.together fun u => u.escRun a n ecc) := by
  have run : exec (.escCommandComplete ecc) s = execEscCommandComplete ecc s := rfl
  rw [run, execEscCommandComplete, op]
  rfl

theorem trapPat_maxLevel : trapPat.maxLevel = 2 := by decide +kernel

section
variable {s : State} {n : Nat} {x : TokenIn}

/-- A verified FULL token before READY stops half-way in a state primed for it. -/
theorem State.primed.escEnd (h : s.primed) (ops : (s.port 0).ops = [trapOp]) (out : s.spl.out = [(0, trapOut)])
    (op : s.esc.op = some (.debug 0 n)) (good : ({ s with esc := { s.esc with op := none } } : State).tokenDetail x 2 n = 0)
    (level : x.arg = 2) (early : s.tick.en = false) (locked : s.esc.debug = 0) (none : s.esc.unlock = none) :
    (s.escEnd (some x)).lin.stuck = some (trapAsk true) := by
  have allowed : s.ptn.running.maxLevel = 2 := by rw [h.pattern, trapPat_maxLevel]
  have full := State.debugToken_full (s := { s with esc := { s.esc with op := .none } }) level allowed early locked none
  rw [State.escEnd_debug op good, full]
  exact (h.of_esc { s.esc with op := .none, unlock := .none } { s.nor with tokSeq := x.seq }).fullUnlock ops out

end

theorem trap_command : trap.esc.op = some (.debug 0 33408) := rfl

/-- The token of `trap` is read without a wait, and what it sets going stops half-way. -/
theorem trap_stops : (trap.escRead 0 33408 .clean).2.lin.stuck = none ∧
    (trap.escRun 0 33408 .clean).lin.stuck = some (trapAsk true) := by
  obtain ⟨r, read, same⟩ := trap_escRead
  unfold State.escRun
  obtain ⟨magic, format, kind, slots, serial, seq, level⟩ := trapBytes_fields
  rw [read]
  generalize parseToken trapBytes = x at *
  obtain ⟨w, is⟩ : ∃ w, ({ trap with regs := r } : State) = w := ⟨_, rfl⟩
  have primed : w.primed := is ▸ trap_primed.of_regs same
  have op : w.esc.op = some (.debug 0 33408) := by rw [← is]; exact trap_command
  have esc : w.esc = trap.esc := by rw [← is]
  have fuses : w.fuses = trap.fuses := by rw [← is]
  have nor : w.nor = trap.nor := by rw [← is]
  have ops : (w.port 0).ops = [trapOp] := by rw [← is]; rfl
  have out : w.spl.out = [(0, trapOut)] := by rw [← is]; rfl
  have early : w.tick.en = false := by rw [← is]; rfl
  have free : w.lin.stuck = none := by rw [primed.lin]
  have bare : ∀ party ∈ [1, 2], w.slotsOf party = 0 := by
    have closed : ∀ party ∈ [1, 2], trap.slotsOf party = 0 := by decide +kernel
    simp only [State.slotsOf] at closed ⊢
    rw [fuses]
    exact closed
  have good : ({ w with esc := { w.esc with op := none } } : State).tokenDetail x 2 33408 = 0 :=
    State.tokenDetail_bare (bare 1 (by decide)) (bare 2 (by decide)) magic format kind slots (by rw [fuses]; exact serial)
      (by rw [nor, seq]; exact Nat.zero_lt_one)
  rw [is]
  exact ⟨free, primed.escEnd ops out op good level early (by rw [esc]; rfl) (by rw [esc]; rfl)⟩

/-- A command of several accesses that stops at one near by is as if it had not been made, but for what its wait sets going. -/
theorem State.together_stuck {s : State} (calm : ({ s with lin := s.lin.calm } : State) = s) {a n : Nat} {ecc : Ecc} {q : Ask}
    (stops : (s.escRun a n ecc).lin.stuck = some q) (room : s.jigFull q = false) (near : isRemote q.addr = false) :
    (s.together fun u => u.escRun a n ecc) = s.lineBegin q none := by
  have calm : ({ s with lin := { s.lin with stuck := none } } : State) = s := calm
  unfold State.together
  dsimp only
  rw [calm, stops]
  dsimp only
  rw [room, near, if_neg Bool.false_ne_true, if_neg Bool.false_ne_true]

/-- What the statement says of the end of a debug command: nothing of it waits. -/
theorem escutcheonCommands_debugEnds (h : Obligations.EscutcheonCommands) {s : State} {a n : Nat} (op : s.esc.op = some (.debug a n))
    (calm : ({ s with lin := s.lin.calm } : State) = s) (read : (s.escRead a n .clean).2.lin.stuck = none) :
    ∃ t, exec (.escCommandComplete .clean) s = .next t ∧ t.lin = (s.escRun a n .clean).lin := by
  obtain ⟨-, -, -, ends, -, -⟩ := h (.pf 0) s
  have claim := ends a n .clean (.inl op)
  rw [calm] at claim
  exact ⟨_, claim read, rfl⟩

theorem trap_begins : (trap.lineBegin (trapAsk true) none).lin.stuck = none := by decide +kernel

theorem trap_still : ({ trap with lin := trap.lin.calm } : State) = trap := rfl

theorem trapAsk_near : trap.jigFull (trapAsk true) = false ∧ isRemote (trapAsk true).addr = false := ⟨rfl, by decide⟩

theorem trap_answers : exec (.escCommandComplete .clean) trap = .next (trap.lineBegin (trapAsk true) none) :=
  (exec_escCommandComplete_debug trap_command .clean).trans
    (congrArg Host.Outcome.next (State.together_stuck trap_still trap_stops.2 trapAsk_near.1 trapAsk_near.2))

/-- Refutes O57: in `trap` the request is read without a wait, but the turnover of the FULL unlock fails a read of port 0, whose next
piece, over two lines, waits at its second; the command is then put off whole (log entry 65), and its answer is not the end of the
command that the statement says. -/
theorem not_escutcheonCommands : ¬ Obligations.EscutcheonCommands := by
  intro h
  obtain ⟨t, ends, lin⟩ := escutcheonCommands_debugEnds h trap_command trap_still trap_stops.1
  have same : trap.lineBegin (trapAsk true) none = t := Host.Outcome.next.inj (trap_answers.symm.trans ends)
  have begun := trap_begins
  rw [same, lin, trap_stops.2] at begun
  cases begun

end Sys2Proof.Machine
